-- ==== Sys2Proof/Word.lean ====
section
/-!
DEFINITION. The word types of the device: bytes, 16-, 32- and 64-bit words, and the 64-bit beat count.
-/

namespace Sys2Proof

abbrev Byte := BitVec 8
abbrev Half := BitVec 16
abbrev Word32 := BitVec 32
abbrev Word := BitVec 64
/-- The 64-bit beat count (chapter 2 of spec/). -/
abbrev Beat := BitVec 64

end Sys2Proof
end

