-- ==== Sys2Proof/Syntax.lean ====
section
/-!
DEFINITION. The commands the device takes: one constructor per row of the opcode table, with its operands, and the
operand types that are not numbers or byte lists.
-/

namespace Sys2Proof

/-- Who makes a register access (R9, R370, R453).  `host p` is a host access through BAR0 of PCIe port p; `secure` is an
easel core or a core with NS = 0; `normal` is a core with NS = 1 or the test port's DBGREG access. -/
inductive Src where
  | host (port : Nat)
  | secure
  | normal (core : Nat)
  | tap
  deriving DecidableEq, Repr

/-- Where a ring doorbell comes from (R391, R392): an offset of BAR2 of a port, the doorbell window written by a core or
through BAR0 of port 0, or the proof arbiter releasing one it held for a core's proof (R285). -/
inductive DbSrc where
  | bar2 (port off : Nat)
  | window (src : Src) (ring : Nat)
  | proof (core ring : Nat)
  deriving DecidableEq, Repr

/-- Error events of the endpoint's table (R382). -/
inductive TlpErr where
  | receiver
  | badTlp
  | badDllp
  | replayRollover
  | replayTimeout
  | correctedInternal
  | poisonedWrite
  | unsupported
  | malformed
  | flowControl
  | overflow
  | dataLink
  | uncorrectableInternal
  | unexpectedCompletion
  deriving DecidableEq, Repr

/-- Where a load puts its data. -/
inductive LoadDst where
  | x (r : Nat)
  | f (r : Nat)
  /-- element `i` of vector register `r` -/
  | v (r i : Nat)
  /-- an instruction fetch: fills the L1I -/
  | fetch
  deriving DecidableEq, Repr

/-- The commands of the device: one constructor per row of the opcode table, in the table's order. -/
inductive Instr where
  /-- REGISTER_WRITE (R9): A write to a register field that has no behaviour of its own takes effect by field type; writes to unassigned offsets or windows of unpopulated or fenced sites are dropped. -/
  | registerWrite (src : Src) (addr : Nat) (size : Nat) (value : Nat)
  /-- BASE_LOCK (R25): Symbol lock and deskew on the four base-mode lanes complete, and the port enters CAP and sends its capability block. -/
  | baseLock (lp : Nat)
  /-- BASE_FALLBACK (R25): 200 µs after entering BASE without lock on lanes 0-3, both ends move base mode to the fallback lanes. -/
  | baseFallback (lp : Nat)
  /-- BASE_ATTEMPT_TIMEOUT (R25): 1 ms after entering BASE without lock and deskew the attempt fails; with no signal at all the die is fenced with cause 8. -/
  | baseAttemptTimeout (lp : Nat) (signal : Bool)
  /-- CAPABILITY_BLOCK (R27): A capability block, with any signature block, is received; a CRC failure requests it again, and a fourth failure fails the attempt. -/
  | capabilityBlock (lp : Nat) (blk : List (BitVec 8)) (sig : List (BitVec 8))
  /-- IDENTITY_CHECK (R30): Once REQ_SIG is loaded the hub runs the ordered identity checks on a received block, fences on the first failure, or chooses width and rate and sends NATIVE_GO. -/
  | identityCheck
  /-- LANE_TEST_DONE (R33): The PRBS lane test ends, failed lanes are repaired with spares and the repair map exchanged, or the training fails. -/
  | laneTestDone (lp : Nat) (rxFail : List Nat) (txFail : List Nat)
  /-- MARKER_CHECK_DONE (R33): The lane-identity marker check ends, bringing the port UP and recording its width, or failing the training. -/
  | markerCheckDone (lp : Nat) (ok : Bool)
  /-- FLIT_CRC_ERROR (R37): A native flit with a bad CRC is received; a replay is requested and counted, and too many replays in 1 ms start RETRAIN. -/
  | flitCrcError (lp : Nat) (newWindow : Bool)
  /-- ALERN_LANE_LOCK_LOSS (R37): An active Alern lane loses lock and the port enters RETRAIN. -/
  | alernLaneLockLoss (lp : Nat) (lane : Nat)
  /-- RETRAIN_REQUEST (R37): The far side requests a retrain and the port enters RETRAIN. -/
  | retrainRequest (lp : Nat)
  /-- RETRAIN_DONE (R37): A RETRAIN ends, returning the port to UP with held flits resent, or failing under the training-failure rule. -/
  | retrainDone (lp : Nat) (rxFail : List Nat) (txFail : List Nat) (markers : Bool)
  /-- FAR_SIDE_BASE (R42): The far side re-enters base mode and the port returns to BASE without counting a failure. -/
  | farSideBase (lp : Nat)
  /-- DIE_RESET (R489): The debug controller resets a compute die; its ports return to BASE and its cores to HELD. -/
  | dieReset (n : Nat)
  /-- ALN_PORT_EN (R46): A write of ALN_PORT_CTL.EN = 0 forces the port to DISABLED. -/
  | alnPortEn (src : Src) (n : Nat) (value : Nat)
  /-- ALN_RESTART (R46): A write of RESTART returns an UP port to BASE, or starts a DISABLED enabled port; it is ignored in other states. -/
  | alnRestart (src : Src) (n : Nat)
  /-- WIDTH_RESTORE (R35): A write of WIDTH_RESTORE clears the hub's trained-width records for the port. -/
  | widthRestore (src : Src) (n : Nat)
  /-- UNFENCE (R41): A secure write of UNFENCE clears the failure count and cause and restarts a fenced site from BASE. -/
  | unfence (src : Src) (n : Nat)
  /-- ALN_CFG_LOCK (R46): A write that sets ALN_CFG.LOCK writes the RWL fields and then makes them read-only until cold reset. -/
  | alnCfgLock (src : Src) (value : Nat)
  /-- BEAT_INPUT_DISABLE (R53): A write of EN_A or EN_B = 0 holds that beat input in DOWN. -/
  | beatInputDisable (src : Src) (i : Nat)
  /-- INPUT_SYMBOL_LOCK (R53): After comma alignment, 1,024 error-free symbols in frequency take an input from DOWN to SYM. -/
  | inputSymbolLock (i : Nat)
  /-- CODE_ERROR_LIMIT (R53): More than 16 code errors in 1,024 symbols return the input to DOWN. -/
  | codeErrorLimit (i : Nat) (errors : Nat)
  /-- FREQ_MONITOR_WINDOW (R53): A 1,024-cycle monitor window ends, recording the beat count and sending an out-of-range input to DOWN. -/
  | freqMonitorWindow (i : Nat) (count : Nat) (abPhase : Int) (near : Bool) (errors : Nat)
  /-- INPUT_LOCK (R53): 4,096 beats of tracking within ±1/64 beat take an input from FRAMED to LOCKED, and from STOPPED the unit starts TRACKING. -/
  | inputLock (i : Nat) (near : Bool)
  /-- PHASE_ERROR (R53): A phase error beyond ±1/8 beat returns a LOCKED input to FRAMED, causing switchover or holdover if it was active. -/
  | phaseError (i : Nat)
  /-- TIME_FRAME (R52): A TIME frame is checked against the local count, setting MISMATCH, or clearing it after 256 agreements, or being adopted. -/
  | timeFrame (i : Nat) (tag : Nat) (age : Nat) (spaced : Bool)
  /-- LOAD_FRAME (R52): A LOAD frame on the active input sets the count so that its starting beat reads TAG. -/
  | loadFrame (i : Nat) (tag : Nat) (age : Nat) (spaced : Bool)
  /-- SYNC_FRAME (R52): A SYNC frame passes its CRC and waits for the next beat edge to execute. -/
  | syncFrame (i : Nat) (code : Nat) (spaced : Bool)
  /-- CAL_FRAME (R52): A CAL frame passes its CRC and waits for the first beat edge with count at least TAG + D. -/
  | calFrame (i : Nat) (tag : Nat) (code : Nat) (delay : Nat) (spaced : Bool)
  /-- BEAT_FRAME_INVALID (R52): A beat frame with a bad CRC or an unknown type is counted and ignored, and repeated bad frames drop the input to SYM. -/
  | beatFrameInvalid (i : Nat) (crcBad : Bool) (spaced : Bool)
  /-- SYNC_EXECUTE (R52): A SYNC executes at a beat edge: code and beat recorded, EVT_CMD set, code forwarded on the Hatchline lanes. -/
  | syncExecute
  /-- CAL_EXECUTE (R52): A CAL executes at its beat edge: code and beat recorded, EVT_CMD set, code forwarded. -/
  | calExecute
  /-- HOLDOVER_EXPIRE (R58): HOLD_MAX ms in HOLDOVER elapse and the unit enters EXPIRED, vetoing releases and throttling. -/
  | holdoverExpire
  /-- AUTO_REVERT (R61): After the primary has been eligible for 65,536 beats while the other is active, the unit switches back. -/
  | autoRevert
  /-- FORCE_SWITCH (R61): A FORCE_SWITCH write makes the other input active when it is eligible. -/
  | forceSwitch (src : Src)
  /-- SW_LOAD (R64): A write of SW_LOAD requests that the count be set to BEAT_LOAD at the next beat edge. -/
  | swLoad (src : Src)
  /-- SW_LOAD_APPLY (R64): A pending SW_LOAD sets the count at a beat edge, or is lost to a coincident stream load. -/
  | swLoadApply
  /-- ADOPT (R64): An ADOPT write makes the count take the next TIME or LOAD tag and clears MISMATCH. -/
  | adopt (src : Src)
  /-- BEAT_COUNT_READ (R66): A read of BEAT_COUNT bytes 0-3 latches the 64-bit count and the fine phase. -/
  | beatCountRead (src : Src) (off : Nat) (size : Nat) (fine : Nat)
  /-- HZBEAT_READ (R66): A core reads hzbeat, sampling the hub count and fine phase. -/
  | hzbeatRead (core : Nat) (pc : Nat) (rd : Nat) (fine : Nat)
  /-- HZBEATF_READ (R225): A core reads hzbeatf, the fine phase of its latest hzbeat sample. -/
  | hzbeatfRead (core : Nat) (pc : Nat) (rd : Nat)
  /-- RELEASE_READ (R68): 16 ns before the release edge the queue reads entry b and selects the late default if VALID is clear. -/
  | releaseRead (slack : Nat)
  /-- RELEASE (R67): At beat b + L the queue releases entry b onto TRIG_OUT, the Hatchline accept command and the event builder, then clears VALID. -/
  | release
  /-- BEAT_RQ_RUN (R70): A write of RUN starts or stops the release queue, and writes the latency and late-default fields only when RUN was 0. -/
  | beatRqRun (src : Src) (value : Nat)
  /-- BEAT_RQ_SLACK_WRITE (R76): Any write to BEAT_RQ_SLACK resets MIN_SLACK to its maximum. -/
  | beatRqSlackWrite (src : Src)
  /-- HLN_GRP_RATE_WRITE (R78): A RATE write is accepted with every lane of the group disabled, relocking the PLL, and otherwise refused. -/
  | hlnGrpRateWrite (src : Src) (g : Nat) (value : Nat)
  /-- GROUP_PLL_LOCK (R78): The group PLL locks at the new rate, freeing lanes in CDR and starting transmitters. -/
  | groupPllLock (g : Nat)
  /-- LANE_RX_EN (R89): A write of RX_EN starts a receive lane in CDR, or returns it to OFF. -/
  | laneRxEn (src : Src) (n : Nat) (on : Bool)
  /-- LANE_TX_EN (R97): A write of TX_EN starts the transmitter, or stops it, dropping pending blocks and abandoning slow control. -/
  | laneTxEn (src : Src) (n : Nat) (on : Bool)
  /-- LANE_CDR_LOCK (R89): Signal is detected and the clock recovered, and the lane enters HUNT. -/
  | laneCdrLock (n : Nat)
  /-- LANE_BLOCK_LOCK (R82): 64 consecutive valid sync headers give block lock and the lane enters BLOCK. -/
  | laneBlockLock (n : Nat) (hdrErr : Nat)
  /-- LANE_BLOCK_LOCK_LOSS (R82): 16 invalid headers within 64 blocks lose block lock; the lane returns to HUNT. -/
  | laneBlockLockLoss (n : Nat) (hdrErr : Nat)
  /-- LANE_SIGNAL_LOSS (R89): The receive signal is lost and the lane returns to CDR. -/
  | laneSignalLoss (n : Nat)
  /-- LANE_RESYNC (R89): A RESYNC write returns a lane in HUNT or later to HUNT. -/
  | laneResync (src : Src) (n : Nat)
  /-- LANE_CNT_CLR (R105): A CNT_CLR write clears all counters of the lane. -/
  | laneCntClr (src : Src) (n : Nat)
  /-- STRAY_CONTROL_BLOCK (R83): A received control block of a type not allowed for receive, outside a frame, is counted in CTRL_ERR and ignored. -/
  | strayControlBlock (n : Nat)
  /-- DATA_FRAME (R91): A DATA frame taken whole is checked, its hits calibrated and its sequence, gap, lateness and delivery handled. -/
  | dataFrame (n : Nat) (h0 : Nat) (h1 : Nat) (payload : List Nat) (crc : Nat) (hdrErr : Nat) (ctrlErr : Nat) (broken : Bool)
  /-- SCREPLY_FRAME (R102): An SCREPLY frame passing checks 1-5 fills the reply buffer, or is dropped as an overrun. -/
  | screplyFrame (n : Nat) (h0 : Nat) (h1 : Nat) (payload : List Nat) (crc : Nat) (hdrErr : Nat) (ctrlErr : Nat) (broken : Bool)
  /-- TICK (R98): For each beat that is a multiple of 2^TICKDIV, the lane sends a TICK in its marked slot, and a TIMEHI when due, or skips it. -/
  | tick (n : Nat) (edge : Nat) (taken : Bool)
  /-- ACCEPT_BLOCK_SEND (R99): A pending ACCEPT block wins a slot through the transmit arbiter and is sent. -/
  | acceptBlockSend (n : Nat)
  /-- CMD_BLOCK_SEND (R100): A pending CMD block wins a slot and is sent. -/
  | cmdBlockSend (n : Nat)
  /-- SC_GO (R101): A write of GO with a valid LEN starts sending a slow-control request. -/
  | scGo (src : Src) (n : Nat) (value : Nat)
  /-- SC_SEND_DONE (R101): SCEND of a slow-control request has been sent; TX_BUSY clears and EVT_SC_DONE is set. -/
  | scSendDone (n : Nat)
  /-- SC_RXFULL_CLEAR (R102): Writing one to RXFULL frees the slow-control reply buffer. -/
  | scRxfullClear (src : Src) (n : Nat)
  /-- CTX_CLEAR_DONE (R125): The context store finishes its reset clearing and READY is set. -/
  | ctxClearDone
  /-- CTX_LOOKUP (R113): A waiting hit wins its bank's grant, is calibrated against its view, and goes to the sketch unit and history. -/
  | ctxLookup (bank : Nat)
  /-- CTX_LOAD (R117): CTX_LOAD writes contexts straight into the base store after its checks. -/
  | ctxLoad (ring : Nat)
  /-- CTX_STAGE (R117): CTX_STAGE adds entries to an OPEN slot, or allocates one. -/
  | ctxStage (ring : Nat)
  /-- CTX_FLIP (R120): CTX_FLIP arms an OPEN slot at beat F, moved forward to count + FLIP_LEAD if too close. -/
  | ctxFlip (ring : Nat)
  /-- CTX_STAGE_FLIP (R117): CTX_STAGE_FLIP allocates a slot, stages all entries and arms it at F as one action. -/
  | ctxStageFlip (ring : Nat)
  /-- CTX_CANCEL (R117): CTX_CANCEL discards an OPEN or ARMED slot before its flip edge. -/
  | ctxCancel (ring : Nat)
  /-- CTX_READ (R117): CTX_READ writes each named channel's current view to a buffer. -/
  | ctxRead (ring : Nat)
  /-- EPOCH_FLIP (R116): At the first beat edge with count ≥ F an ARMED slot goes LIVE. -/
  | epochFlip (slot : Nat)
  /-- MERGE_START (R116): MERGE_HOLD beat edges after its flip, with none ahead still pending, a LIVE slot starts MERGING. -/
  | mergeStart (slot : Nat)
  /-- MERGE_WRITE (R122): In a reserved store cycle a merging entry is copied to the base row and removed; the last one frees the slot. -/
  | mergeWrite (bank : Nat)
  /-- SKETCH_CLOSE (R130): A sketch unit closes beat t once LANE_WM ≥ t or count ≥ t + CLOSE_MAX, and sends its packet into the contour network. -/
  | sketchClose (n : Nat)
  /-- PACKET_DELIVER (R132): The contour network delivers a sketch packet to each subscribing engine. -/
  | packetDeliver (n : Nat)
  /-- ENGINE_EVAL (R138): An engine holding every needed packet up to b + LOOK evaluates beat b and delivers its 16 term bits. -/
  | engineEval (e : Nat)
  /-- GUEST_DEADLINE (R141): GUEST_DL beats after beat b's edge without a guest word, the combiner uses GUEST_DEFAULT and counts GUEST_LATE. -/
  | guestDeadline (b : Nat)
  /-- COMBINER_JUDGE (R144): With term, guest and external bits in hand, the combiner prescales, applies the vetoes and writes a decision for beat b. -/
  | combinerJudge
  /-- TRG_MENU_LOAD (R151): TRG_MENU_LOAD checks an image and arms shadows of the named units at swap beat S. -/
  | trgMenuLoad (ring : Nat)
  /-- TRG_MENU_READ (R154): TRG_MENU_READ writes an image of active or shadow programmes of the named units. -/
  | trgMenuRead (ring : Nat)
  /-- UNIT_SWAP (R153): At the first beat edge with count ≥ S an ARMED unit swaps in its shadow and starts its new span. -/
  | unitSwap (u : Nat)
  /-- TRG_CLEAR_DONE (R158): The trigger path finishes its reset clearing and READY is set. -/
  | trgClearDone
  /-- TRIG_DRV_WRITE (R162): A TRIG_DRV write of 0 floats the lines at once; a write of 1 waits for the next beat edge. -/
  | trigDrvWrite (src : Src) (on : Bool)
  /-- TRIG_DRV_APPLY (R162): At the beat edge after TRIG_DRV = 1 the lines leave high impedance and are driven low. -/
  | trigDrvApply
  /-- TRIG_PULSE_END (R161): At the beat edge after a pulse the TRIG_OUT line goes low unless the next release holds it. -/
  | trigPulseEnd
  /-- BUSY_DRV_WRITE (R172): A BUSY_DRV write drives BUSY_OUT_N at the last computed level, or floats it. -/
  | busyDrvWrite (src : Src) (on : Bool)
  /-- BUSY_HOLD_EXPIRE (R172): BUSY_HOLD beats after all busy causes clear, BUSY_OUT_N turns ready. -/
  | busyHoldExpire
  /-- TIO_INPUT_EDGE (R164): A filtered input edge is confirmed and stamped, setting the input's level for the beats it falls in. -/
  | tioInputEdge (k : Nat) (level : Bool) (beat : Nat)
  /-- TIO_IN_EN_WRITE (R165): A write of TIO_IN_CFG.EN waits for the next beat edge, or takes effect at once while STOPPED. -/
  | tioInEnWrite (src : Src) (k : Nat) (on : Bool)
  /-- TIO_IN_EN_APPLY (R165): At the beat edge the input's new EN takes effect, starting or stopping stuck and chatter detection. -/
  | tioInEnApply (k : Nat)
  /-- STUCK_DETECT (R166): An input stays asserted longer than STUCK_LIM and STUCK is set. -/
  | stuckDetect (k : Nat)
  /-- CHATTER_WINDOW (R167): A 1 ms transition window ends, setting or clearing CHATTER. -/
  | chatterWindow (k : Nat)
  /-- REARM (R168): A REARM write clears MASKED on a quiet EXT_TRIG_IN input, or is ignored. -/
  | rearm (src : Src) (k : Nat)
  /-- HIST_RING_ENABLE (R176): A write of EVB_HIST_CFG.EN enables a valid history ring, resetting WPTR and HW, or is refused. -/
  | histRingEnable (src : Src) (n : Nat) (value : Nat)
  /-- HISTORY_WRITE_DONE (R179): A frame's records reach memory; HW advances and anchors are stored. -/
  | historyWriteDone (n : Nat)
  /-- CONTEXT_ALLOCATE (R182): A freed context goes to the oldest accept waiting in the FIFO. -/
  | contextAllocate
  /-- ASSEMBLY_TIMEOUT (R185): TIMEOUT µs after release, incomplete fragments complete as MISSING with flag TIMEOUT. -/
  | assemblyTimeout (ctx : Nat)
  /-- EVENT_COPY (R186): A free copy engine takes the oldest ready event, locates and counts its entries, and computes its length. -/
  | eventCopy
  /-- POOL_ALLOCATE (R194): Space is allocated for a record at the pool tail once it fits, or the event is dropped as NOROUTE. -/
  | poolAllocate (p : Nat)
  /-- EVENT_COPY_DONE (R187): The copy of an event's entries and headers completes, with overwritten or poisoned fragments marked. -/
  | eventCopyDone (ctx : Nat)
  /-- EVENT_POST (R195): An event chooses its queue and, once there is room, posts its descriptor. -/
  | eventPost (ctx : Nat)
  /-- EVQ_DOORBELL (R198): An event-queue doorbell advances CI, releasing contexts and record space, or is dropped as stale or bad. -/
  | evqDoorbell (db : DbSrc) (value : Nat)
  /-- EVQ_SUBSCRIBE (R196): EVQ_SUBSCRIBE adds a queue to a route's subscription list. -/
  | evqSubscribe (ring : Nat)
  /-- EVQ_UNSUBSCRIBE (R196): EVQ_UNSUBSCRIBE removes a queue from a route's list. -/
  | evqUnsubscribe (ring : Nat)
  /-- EVQ_CFG_WRITE (R197): A write of a queue's EN or OWNER enables or disables it, bumps its epoch, and on disable releases its events. -/
  | evqCfgWrite (src : Src) (q : Nat) (value : Nat)
  /-- POOL_ENABLE (R193): A write of EVB_POOL_CFG.EN enables a valid pool, or is refused. -/
  | poolEnable (src : Src) (p : Nat) (value : Nat)
  /-- ROUTE_CFG_WRITE (R189): A write to a route's configuration, lanes or timeout applies, or is refused if the size bound breaks. -/
  | routeCfgWrite (src : Src) (r : Nat) (which : Nat) (value : Nat)
  /-- BP_AGE_EXPIRE (R199): An unposted event exceeds BP_AGE µs and back-pressure asserts. -/
  | bpAgeExpire (ctx : Nat)
  /-- EVB_CLEAR_DONE (R201): The event builder finishes its reset clearing and READY is set. -/
  | evbClearDone
  /-- CORE_RUN (R212): A write of CORE_CTL.RUN takes a HELD core to INIT. -/
  | coreRun (src : Src) (core : Nat)
  /-- CORE_INIT_DONE (R212): INIT invalidation ends and the core starts fetching at CORE_RVBAR. -/
  | coreInitDone (core : Nat)
  /-- CORE_RESET (R212): A write of CORE_RESET returns a core to HELD. -/
  | coreReset (src : Src) (core : Nat)
  /-- WFI (R212): A WFI retires, idling the core, or raises illegal-instruction where forbidden. -/
  | wfi (core : Nat) (pc : Nat)
  /-- WFI_WAKE (R212): A mip bit becomes set and a core in WFI resumes. -/
  | wfiWake (core : Nat)
  /-- TRAP (R218): A synchronous exception traps, setting world and cause and detecting a loop fault. -/
  | trap (core : Nat) (pc : Nat) (cause : Nat) (tval : Nat)
  /-- INTERRUPT_TAKE (R221): A pending enabled interrupt is taken at an instruction boundary under the world rules. -/
  | interruptTake (core : Nat) (pc : Nat)
  /-- MRET (R218): MRET returns from M-mode, setting NS from PNS for S or U. -/
  | mret (core : Nat) (pc : Nat)
  /-- SRET (R218): SRET returns from S-mode with NS unchanged. -/
  | sret (core : Nat) (pc : Nat)
  /-- CSR_WRITE (R225): A CSR write instruction updates the CSR, clearing predictors when untagged and the slice or world changes. -/
  | csrWrite (core : Nat) (pc : Nat) (csr : Nat) (op : Nat) (rd : Nat) (value : Nat)
  /-- PREDICTOR_FLUSH (R219): A write of hzpredctl.FLUSH clears all predictor entries. -/
  | predictorFlush (core : Nat) (pc : Nat)
  /-- TIMER_COMPARE (R220): time reaches CORE_MTIMECMP or stimecmp and MTI or STI becomes pending. -/
  | timerCompare (core : Nat)
  /-- COUNTER_OVERFLOW (R226): A performance counter wraps to zero, setting OF and raising LCOFI. -/
  | counterOverflow (core : Nat) (n : Nat)
  /-- CORE_CLAIM_READ (R222): A read of a claim FIFO removes and returns the oldest source and frees a place for a held message. -/
  | coreClaimRead (src : Src) (core : Nat) (m : Bool)
  /-- CORE_SSIP_SET (R227): Writing one to CORE_SSIP_SET sets the core's sip.SSIP. -/
  | coreSsipSet (src : Src) (core : Nat) (value : Nat)
  /-- LOAD (R215): A core load or fetch is served by cache, merging buffer or region, faulting on poison, world or region. -/
  | load (core : Nat) (pc : Nat) (len : Nat) (va : Nat) (size : Nat) (sext : Bool) (dst : LoadDst)
  /-- STORE (R231): A core store updates the L1D on hit and enters the merging buffer. -/
  | store (core : Nat) (pc : Nat) (len : Nat) (va : Nat) (size : Nat) (value : Nat)
  /-- AMO (R234): An AMO drains the merging buffer and runs in the L2 on a line held in M. -/
  | amo (core : Nat) (pc : Nat) (len : Nat) (op : Nat) (va : Nat) (size : Nat) (value : Nat) (rd : Nat)
  /-- LR (R234): An LR takes a reservation on its line in the L2. -/
  | lr (core : Nat) (pc : Nat) (len : Nat) (va : Nat) (size : Nat) (rd : Nat)
  /-- SC (R234): An SC stores if the reservation holds and releases it. -/
  | sc (core : Nat) (pc : Nat) (len : Nat) (va : Nat) (size : Nat) (value : Nat) (rd : Nat)
  /-- FENCE (R234): A FENCE or FENCE.TSO waits for misses, drains and I/O under its predecessor set. -/
  | fence (core : Nat) (pc : Nat) (pred : Nat)
  /-- FENCE_I (R209): FENCE.I drains the merging buffer and invalidates the L1I. -/
  | fenceI (core : Nat) (pc : Nat)
  /-- LR_RESERVATION_EXPIRE (R234): 64 core cycles after an LR the L2 stops deferring snoops to the line. -/
  | lrReservationExpire (core : Nat)
  /-- MERGE_BUFFER_DRAIN (R231): The oldest merging-buffer entry drains to the L2 when full, when space is needed, or after 64 idle cycles. -/
  | mergeBufferDrain (core : Nat)
  /-- RD_SHARED (R242): A load miss reaches its home slice and is served under the directory state. -/
  | rdShared (line : Nat) (c : Nat)
  /-- RD_UNIQUE (R242): A store or AMO miss reaches its home slice and is served for ownership. -/
  | rdUnique (line : Nat) (c : Nat)
  /-- UPGRADE (R242): A store to a line held in S or O asks the slice for ownership. -/
  | upgrade (line : Nat) (c : Nat)
  /-- IO_RD (R242): An agent's uncached read reaches the slice and is served. -/
  | ioRd (line : Nat)
  /-- IO_WR (R242): An agent's uncached write reaches the slice, invalidates holders and writes memory. -/
  | ioWr (line : Nat)
  /-- EVN_CLEAN (R243): A clean eviction notice reaches the slice, updates the entry and is acknowledged. -/
  | evnClean (c : Nat) (line : Nat)
  /-- EVN_DIRTY (R243): A dirty eviction notice writes memory and updates the entry, or waits and is dropped as stale. -/
  | evnDirty (c : Nat) (line : Nat)
  /-- WRBACK (R243): A write-back of M or O data writes memory and downgrades the entry. -/
  | wrback (c : Nat) (line : Nat)
  /-- DIR_WAITER_SERVE (R240): When a line's open transaction closes, the next request in its wait list is served. -/
  | dirWaiterServe (line : Nat)
  /-- SNP_SHARE (R241): An L2 receives SNP_SHARE, forwards data and downgrades, resolving proof conflicts first. -/
  | snpShare (c : Nat) (line : Nat)
  /-- SNP_UNIQUE (R241): An L2 receives SNP_UNIQUE, forwards data and invalidates, resolving proof conflicts first. -/
  | snpUnique (c : Nat) (line : Nat)
  /-- SNP_INV (R241): An L2 receives SNP_INV and invalidates without data, resolving proof conflicts first. -/
  | snpInv (c : Nat) (line : Nat)
  /-- SNP_IORD (R241): An L2 receives SNP_IORD and returns a copy with state unchanged. -/
  | snpIord (c : Nat) (line : Nat)
  /-- DATA (R241): A fill reaches the requesting L2 with its poison and evicting flags. -/
  | data (c : Nat) (line : Nat)
  /-- RSP (R247): A snoop response reaches the slice, settling stale notices and the transaction's data and next state. -/
  | rsp (c : Nat) (line : Nat)
  /-- GNT (R241): A grant reaches the requester, completing the request with its DATA. -/
  | gnt (c : Nat) (line : Nat)
  /-- ACK_EVN (R236): An eviction acknowledgement frees the leaving-buffer entry. -/
  | ackEvn (c : Nat) (line : Nat)
  /-- PIN (R276): A PIN message sets the cluster's bit in the entry's pin mask. -/
  | pin (c : Nat) (line : Nat)
  /-- UNPIN (R276): An UNPIN message clears the cluster's bit in the pin mask. -/
  | unpin (c : Nat) (line : Nat)
  /-- FENCE_SWEEP_DONE (R250): A slice finishes sweeping its sets after a fence and sets EVT_SWEEP. -/
  | fenceSweepDone (slice : Nat)
  /-- L2_EN_WRITE (R252): A secure L2_CTL.EN write disables a clean L2, or is refused, or re-enables its arrays. -/
  | l2EnWrite (src : Src) (c : Nat) (value : Nat)
  /-- L2_FLUSH (R253): A write of FLUSH starts a walk writing back every M or O line. -/
  | l2Flush (src : Src) (c : Nat)
  /-- L2_FLUSH_DONE (R253): The last write-back of a flush is acknowledged and FLUSH clears. -/
  | l2FlushDone (c : Nat)
  /-- L2_INV (R253): A write of INV starts invalidating every line, or is refused when dirty. -/
  | l2Inv (src : Src) (c : Nat)
  /-- L2_INV_DONE (R253): The invalidation walk and its acknowledgements complete and INV clears. -/
  | l2InvDone (c : Nat)
  /-- L2_INIT_DONE (R259): An L2 finishes its reset invalidation and READY is set. -/
  | l2InitDone (c : Nat)
  /-- DIR_CLEAR_DONE (R259): A directory slice finishes its reset clearing. -/
  | dirClearDone (slice : Nat)
  /-- DIR_PROBE (R261): A write of DIR_PROBE_ADDR starts a probe in the line's home slice. -/
  | dirProbe (src : Src) (value : Nat)
  /-- DIR_PROBE_DONE (R261): The probe result is written to DIR_PROBE_DATA with DONE set. -/
  | dirProbeDone
  /-- PRF_BEGIN (R266): PRF.BEGIN opens a single-core proof with a checkpoint, or nests, or aborts at depth 7. -/
  | prfBegin (core : Nat) (pc : Nat) (rd : Nat)
  /-- PRF_JOIN (R283): PRF.JOIN checks a handle at the arbiter and opens a participant proof, or returns a failure code. -/
  | prfJoin (core : Nat) (pc : Nat) (rd : Nat) (rs1 : Nat)
  /-- PRF_SEAL (R269): PRF.SEAL closes a nesting level or, at depth 1, commits a single proof or sends a participant's seal. -/
  | prfSeal (core : Nat) (pc : Nat) (rd : Nat)
  /-- PRF_ABORT (R270): PRF.ABORT aborts the open proof with cause EXPLICIT and its code. -/
  | prfAbort (core : Nat) (pc : Nat) (imm : Nat)
  /-- PRF_GROUP (R281): PRF.GROUP allocates a group and returns a handle, or a failure code. -/
  | prfGroup (core : Nat) (pc : Nat) (rd : Nat) (rs1 : Nat)
  /-- PRF_TEST (R265): PRF.TEST returns the hart's proof state word. -/
  | prfTest (core : Nat) (pc : Nat) (rd : Nat)
  /-- PROOF_ABORT_MESSAGE (R274): A younger remote requester receives an abort message and its request continues outside any proof. -/
  | proofAbortMessage (core : Nat)
  /-- SEAL_MESSAGE (R284): The arbiter records a participant's seal; the EXPECT-th seal with no abort is the commit point. -/
  | sealMessage (g : Nat) (core : Nat)
  /-- GROUP_COMMIT (R284): A commit reaches a participant's L2, which clears its bits, sends UNPIN, answers held snoops and acknowledges. -/
  | groupCommit (g : Nat) (core : Nat)
  /-- GROUP_COMMIT_ACK (R284): The arbiter receives an L2's commit acknowledgement; after the last it releases the held doorbells and frees the group. -/
  | groupCommitAck (g : Nat) (core : Nat)
  /-- GROUP_ABORT_DONE (R280): Every joined participant has rolled back and the group returns to FREE. -/
  | groupAbortDone (g : Nat)
  /-- GROUP_TIMEOUT (R280): GROUP_TMO expires before COMMITTING and the group aborts. -/
  | groupTimeout (g : Nat)
  /-- SNOOP_HOLD_TIMEOUT (R274): A snoop held HOLD_MAX µs without the holder's commit point aborts the holder. -/
  | snoopHoldTimeout (c : Nat) (line : Nat)
  /-- DEFER_BUDGET_EXPIRE (R287): DEFER_BUDGET µs after an S-level interrupt was deferred, the proof aborts with INTERRUPT. -/
  | deferBudgetExpire (core : Nat)
  /-- PRF_CLEAR_DONE (R293): The proof arbiter finishes its reset clearing and READY is set. -/
  | prfClearDone
  /-- STP_JOB (R309): STP_JOB checks its descriptor and chain lists and waits for dispatch. -/
  | stpJob (ring : Nat)
  /-- STP_DISPATCH (R310): The dispatcher gives a free engine to a waiting job of an eligible slice, or completes it with QUOTA. -/
  | stpDispatch
  /-- STP_BLOCK_DONE (R305): An engine finishes a block, writing its records and slot; the last block or a stop condition completes the job. -/
  | stpBlockDone (e : Nat)
  /-- ETH_FRAME_SEND (R321): A ready frame wins the sub-port arbiter, passes the send check and is transmitted, or is dropped as a spoof. -/
  | ethFrameSend (p : Nat) (sub : Nat)
  /-- PFC_FRAME (R317): A received PFC frame pauses or releases queues of its priorities. -/
  | pfcFrame (p : Nat) (sub : Nat) (pause : Nat) (release : Nat)
  /-- ETH_RX_DISCARD (R317): Any other received frame is discarded and counted. -/
  | ethRxDiscard (p : Nat) (sub : Nat)
  /-- PAUSE_TIMEOUT (R311): A queue stays paused longer than PAUSE_MAX and its job completes with TIMEOUT. -/
  | pauseTimeout (p : Nat) (q : Nat)
  /-- ETH_LINK_CHANGE (R311): A sub-port gains or loses link; a loss aborts jobs on its queues. -/
  | ethLinkChange (p : Nat) (sub : Nat) (up : Bool)
  /-- ETH_FLOW_SET (R319): ETH_FLOW_SET checks and installs a queue's flow template. -/
  | ethFlowSet (ring : Nat)
  /-- ETH_SEND (R320): ETH_SEND sends one UDP datagram from memory on a queue. -/
  | ethSend (ring : Nat)
  /-- ETH_Q_CFG_WRITE (R318): A write of a queue's EN or OWNER bumps its epoch and aborts running jobs on it. -/
  | ethQCfgWrite (src : Src) (p : Nat) (q : Nat) (value : Nat)
  /-- STP_SHARE_WRITE (R312): A write of SHARE sets a slice's engine quota, setting or clearing OVER_QUOTA. -/
  | stpShareWrite (src : Src) (slice : Nat) (value : Nat)
  /-- STP_ETH_CLEAR_DONE (R323): A stipple or Ethernet block finishes its reset clearing and READY is set. -/
  | stpEthClearDone (dom : Nat)
  /-- SHEET_READ (R338): A controller reads and decodes a sheet, returning clean, corrected or poisoned data, or sends the raw sheet to a die. -/
  | sheetRead (n : Nat)
  /-- SHEET_WRITE (R341): A controller writes a whole sheet, or read-modify-writes a partial one with markers per line, applying an armed flip. -/
  | sheetWrite (n : Nat)
  /-- RAW_SHEET_DECODE (R339): A die's sheet decoder receives a raw sheet, delivers the corrected line, and sends a write-back or a UE report. -/
  | rawSheetDecode (die : Nat) (n : Nat)
  /-- CORRECTION_WRITEBACK (R340): A correction write-back reaches the controller, is re-encoded, written first and frees its entry, or is dropped. -/
  | correctionWriteback (n : Nat) (die : Nat)
  /-- UE_REPORT (R339): A die's UE report reaches the controller, which counts the outcome and frees the entry. -/
  | ueReport (n : Nat) (die : Nat)
  /-- CORRECTION_TIMEOUT (R340): With no write-back within 1,024 fabric cycles, or the die fenced, the controller corrects and writes back itself. -/
  | correctionTimeout (n : Nat) (die : Nat)
  /-- BURNISH_READ (R344): Every INTERVAL ns the burnisher reads the next sheet, writing back corrections and counting passes at the wrap. -/
  | burnishRead (c : Nat)
  /-- MEM_WM_WRITE (R332): A secure MEM_WM write raises a watermark at once, is refused, or starts a lowering walk. -/
  | memWmWrite (src : Src) (value : Nat)
  /-- WM_WALK_DONE (R332): The zeroing walk of a lowering ends and the new watermark applies. -/
  | wmWalkDone
  /-- PLATE_T_WRITE (R345): A write of MEM_PLATE_CFG.T starts a recode of the plate, or is refused. -/
  | plateTWrite (src : Src) (ddr : Bool) (p : Nat) (value : Nat)
  /-- RECODE_DONE (R345): A recode walk ends; RECODE clears and EVT_WALK is set. -/
  | recodeDone (m : Nat)
  /-- INIT_WALK_DONE (R348): A controller's initialisation walk ends and INIT_DONE is set. -/
  | initWalkDone (c : Nat)
  /-- G_RD (R353): A guest read request passes the stencil as a normal-world IO_RD, or is refused with SPOOF. -/
  | gRd (g : Nat) (tag : Nat) (addr : Nat) (len : Nat) (refill : Nat)
  /-- G_WR (R353): A guest write request passes the stencil as a normal-world IO_WR, or is refused with SPOOF. -/
  | gWr (g : Nat) (tag : Nat) (addr : Nat) (data : List (BitVec 8)) (refill : Nat)
  /-- STENCIL_TOKEN_GRANT (R356): A guest request waiting for bucket tokens proceeds once the bucket refills. -/
  | stencilTokenGrant (g : Nat) (refill : Nat) (cycles : Nat)
  /-- G_TRIG (R358): A guest trigger word for a beat is accepted, or dropped out of order or range, and feeds the guest word. -/
  | gTrig (g : Nat) (b : Nat) (w : Nat)
  /-- G_FRAG (R360): A guest fragment message places its data, and completes the fragment on LAST with all offsets filled. -/
  | gFrag (g : Nat) (evn : Nat) (off : Nat) (last : Bool) (data : List (BitVec 8))
  /-- G_CPL (R357): A guest completion for a core access returns read data or an error, or is counted as a bad message. -/
  | gCpl (g : Nat) (tag : Nat) (status : Nat) (data : List (BitVec 8))
  /-- GUEST_ACCESS_TIMEOUT (R357): A core access to a guest without G_CPL in 10 µs is counted, and a read takes a load access fault. -/
  | guestAccessTimeout (g : Nat) (tag : Nat)
  /-- GUEST_TICK (R352): The hub sends H_TICK to a guest at every beat that is a multiple of 2^TICKDIV. -/
  | guestTick (g : Nat)
  /-- STN_WIN_ENABLE (R354): A write of a stencil window's EN enables it, or is refused if it leaves populated memory. -/
  | stnWinEnable (src : Src) (g : Nat) (w : Nat) (value : Nat)
  /-- PCIE_LINK_UP (R365): A PCIe link trains to DL_Active, reporting any degraded speed or width. -/
  | pcieLinkUp (p : Nat) (speed : Nat) (width : Nat) (flit : Bool)
  /-- PCIE_LINK_DOWN (R383): The link goes to DL_Down and the port takes a conventional reset. -/
  | pcieLinkDown (p : Nat)
  /-- PERST_ASSERT (R383): PERSTp_N asserts and the port takes a conventional reset, halting its rings. -/
  | perstAssert (p : Nat)
  /-- PERST_DEASSERT (R385): PERSTp_N deasserts and the port starts link training within 20 ms. -/
  | perstDeassert (p : Nat)
  /-- HOT_RESET (R383): A hot reset is received and the port takes a conventional reset. -/
  | hotReset (p : Nat)
  /-- FLR (R384): A Function Level Reset starts, halting the port's rings with the link kept up. -/
  | flr (p : Nat)
  /-- FLR_DONE (R384): An FLR completes and the function answers again. -/
  | flrDone (p : Nat)
  /-- POWER_STATE_CHANGE (R384): A function moves between D0 and D3hot, and D3hot to D0 acts as an FLR. -/
  | powerStateChange (p : Nat) (d3 : Bool)
  /-- CONFIG_WRITE (R373): A configuration write updates header or capability fields, including BAR sizes while memory space is disabled. -/
  | configWrite (p : Nat) (off : Nat) (be : Nat) (value : Nat)
  /-- BAR4_READ (R372): A host read through BAR4 is served from device memory, or refused with Completer Abort. -/
  | bar4Read (p : Nat) (tag : Nat) (off : Nat) (len : Nat)
  /-- BAR4_WRITE (R372): A host write through BAR4 writes device memory, poisoned if EP is set, or is dropped. -/
  | bar4Write (p : Nat) (off : Nat) (data : List (BitVec 8)) (ep : Bool)
  /-- TLP_ERROR (R382): A malformed, poisoned or unsupported TLP or link error is logged in AER and counted by class. -/
  | tlpError (p : Nat) (kind : TlpErr) (header : List Nat)
  /-- DVSEC_RECOVER (R375): A RECOVER write with the key on port 0 requests a device warm reset. -/
  | dvsecRecover (p : Nat) (value : Nat)
  /-- RECOVER_TIMEOUT (R375): 100 ms after a RECOVER without Calom starting the reset, the hub starts the warm reset itself. -/
  | recoverTimeout
  /-- DMA_COMPLETION (R381): A DMA read completion arrives; a late one is discarded as Unexpected Completion. -/
  | dmaCompletion (p : Nat) (tag : Nat) (status : Nat) (ep : Bool) (data : List (BitVec 8))
  /-- DMA_COMPLETION_TIMEOUT (R381): A DMA read exceeds its completion timeout; its command completes TIMEOUT and its ring halts. -/
  | dmaCompletionTimeout (p : Nat) (tag : Nat)
  /-- ATS_INVALIDATION (R378): An Invalidation Request is completed once DMAs using the removed entries complete. -/
  | atsInvalidation (p : Nat) (itag : Nat) (pasid : Nat) (page : Nat) (count : Nat)
  /-- LANE_MARGINING (R366): A Lane Margining command runs on a lane. -/
  | laneMargining (p : Nat) (lane : Nat) (value : Nat)
  /-- DOE_DISCOVERY (R376): A DOE Discovery object returns the supported protocols. -/
  | doeDiscovery (p : Nat) (index : Nat)
  /-- DOE_ABORT (R376): A DOE Abort write discards the object in progress. -/
  | doeAbort (p : Nat)
  /-- GET_VERSION (R451): SPDM GET_VERSION reports version 1.2. -/
  | getVersion (p : Nat)
  /-- GET_CAPABILITIES (R451): SPDM GET_CAPABILITIES reports certificate, challenge and signed measurement capability. -/
  | getCapabilities (p : Nat) (req : List (BitVec 8))
  /-- NEGOTIATE_ALGORITHMS (R451): SPDM NEGOTIATE_ALGORITHMS selects SM2 and SM3. -/
  | negotiateAlgorithms (p : Nat) (req : List (BitVec 8))
  /-- GET_DIGESTS (R451): SPDM GET_DIGESTS returns digests of certificate slots 0 and 1. -/
  | getDigests (p : Nat)
  /-- GET_CERTIFICATE (R451): SPDM GET_CERTIFICATE returns a slot's chain, or an error for an empty slot. -/
  | getCertificate (p : Nat) (slot : Nat) (off : Nat) (len : Nat)
  /-- CHALLENGE (R451): SPDM CHALLENGE is answered with a device-key signature. -/
  | challenge (p : Nat) (slot : Nat) (nonce : List (BitVec 8))
  /-- GET_MEASUREMENTS (R452): SPDM GET_MEASUREMENTS returns the requested measurement blocks, signed. -/
  | getMeasurements (p : Nat) (index : Nat) (slot : Nat) (signed : Bool) (nonce : List (BitVec 8))
  /-- SPDM_UNSUPPORTED_REQUEST (R451): Any other SPDM request receives ERROR with UnsupportedRequest. -/
  | spdmUnsupportedRequest (p : Nat) (code : Nat)
  /-- RING_ENABLE (R390): A write of HIF_RING_CFG.EN starts a valid ring RUNNING with zero indices, or disables it. -/
  | ringEnable (src : Src) (r : Nat) (value : Nat)
  /-- RING_RESUME (R405): RESUME returns a HALTED ring to RUNNING, first writing any held completion. -/
  | ringResume (src : Src) (r : Nat)
  /-- SQ_DOORBELL (R393): An SQ doorbell is checked and advances SQ_PI, or is dropped. -/
  | sqDoorbell (db : DbSrc) (value : Nat)
  /-- CQ_DOORBELL (R393): A CQ doorbell is checked and advances CQ_CI, or is dropped. -/
  | cqDoorbell (db : DbSrc) (value : Nat)
  /-- DESCRIPTOR_FETCH (R397): The device reads published descriptors at SQ_CI and starts the next command after the previous completion. -/
  | descriptorFetch (r : Nat)
  /-- COMPLETION_WRITE (R401): A command's completion entry is written at CQ_PI once the CQ has room. -/
  | completionWrite (r : Nat)
  /-- IRQ_MOD_TIMEOUT (R402): MOD_TIME µs after the oldest pending completion, the ring signals its vector. -/
  | irqModTimeout (r : Nat)
  /-- HIF_EVQ_DB_WRITE (R416): A write of HIF_EVQ_DB places a queue's doorbell, or is refused for a duplicate index. -/
  | hifEvqDbWrite (src : Src) (q : Nat) (value : Nat)
  /-- NOP (R410): NOP writes a completion and nothing else. -/
  | nop (ring : Nat)
  /-- DMA_COPY (R412): DMA_COPY copies a range in ascending order, stopping at poison. -/
  | dmaCopy (ring : Nat)
  /-- EVT_DELIVER (R411): EVT_DELIVER copies posted descriptors and records to a buffer and advances the queue's CI. -/
  | evtDeliver (ring : Nat)
  /-- SLICE_CREATE (R421): SLICE_CREATE checks a specification and gives its resources to a new ACTIVE slice. -/
  | sliceCreate (ring : Nat)
  /-- SLICE_DESTROY (R423): SLICE_DESTROY resets a slice, returns its resources and starts zeroing its plates. -/
  | sliceDestroy (ring : Nat)
  /-- SLICE_DESTROY_DONE (R423): Plate zeroing ends, the slice goes FREE and the command completes. -/
  | sliceDestroyDone
  /-- SLICE_QUOTA (R424): SLICE_QUOTA sets a slice's group or stipple limit. -/
  | sliceQuota (ring : Nat)
  /-- SLICE_RESET (R430): SLICE_RESET starts taking a slice through RESETTING: rings halt, queues disable, groups abort, cores return to HELD. -/
  | sliceReset (ring : Nat)
  /-- SLICE_RESET_DONE (R430): The reset steps end, cores restart, the slice is ACTIVE at a new epoch and the command completes. -/
  | sliceResetDone
  /-- FW_WRITE (R444): FW_WRITE verifies an image and writes it to a slot as PENDING. -/
  | fwWrite (ring : Nat)
  /-- SET_PROFILE (R492): SET_PROFILE records the profile for the next warm reset. -/
  | setProfile (ring : Nat)
  /-- PROFILE_WRITE (R495): PROFILE_WRITE checks and stores a profile image in slot 1-3. -/
  | profileWrite (ring : Nat)
  /-- LEDGER_READ (R506): LEDGER_READ writes the signed 34,400-byte ledger record. -/
  | ledgerRead (ring : Nat)
  /-- PLAN (R502): The PLAN command runs the margin planner, or completes BUSY while a plan runs. -/
  | plan (ring : Nat)
  /-- WARM_RESET (R407): WARM_RESET completes OK and then requests a device warm reset with the chosen SR_KEEP. -/
  | warmReset (ring : Nat)
  /-- SPOOF_LOG_READ (R428): A read of HIF_SPOOF_LOG returns and removes the oldest spoof entry. -/
  | spoofLogRead (src : Src)
  /-- BOOT_ROM_START (R447): After root PLL lock, easel core 0 runs the boot ROM, reads the profile, applies enrolment and loads REQ_SIG. -/
  | bootRomStart
  /-- STAGE_IMAGE_VERIFY (R445): A boot stage image is read, selected by slot rules, verified and entered or placed, or the chain falls back or stops. -/
  | stageImageVerify
  /-- PUSH_TRANSFER (R448): An I3C host-push write delivers part of an image, and the last part triggers verification. -/
  | pushTransfer (off : Nat) (total : Nat) (data : List (BitVec 8))
  /-- COMPUTE_DIE_RELEASE (R488): A compute die's four cluster domains turn on and its window opens with every core HELD. -/
  | computeDieRelease (n : Nat)
  /-- FW_READY (R445): Boot reaches PCIe ready: FW_READY is set and booted slots are confirmed, with any SVN fuse advance. -/
  | fwReady
  /-- DBG_AUTH_NEW (R458): A write of NEW starts generating a fresh authentication nonce. -/
  | dbgAuthNew (src : Src)
  /-- DBG_AUTH_NONCE_READY (R458): The nonce is filled and STATE becomes NONCE. -/
  | dbgAuthNonceReady (nonce : List (BitVec 8))
  /-- DBG_AUTH_GO (R458): A write of GO in STATE NONCE consumes the nonce and starts the signature check. -/
  | dbgAuthGo (src : Src) (value : Nat)
  /-- DBG_AUTH_DONE (R459): The check ends GRANTED, setting AUTH_EN, or FAILED, locking after eight failures. -/
  | dbgAuthDone
  /-- DBG_AUTH_CLR (R462): A write of AUTH_CLR clears AUTH_EN and resumes harts halted under it. -/
  | dbgAuthClr (src : Src)
  /-- DBG_FW_EN_WRITE (R456): A secure write of FW_EN recomputes EFF and resumes harts whose enable was removed. -/
  | dbgFwEnWrite (src : Src) (value : Nat)
  /-- DEBUG_HALT (R460): A halt request is taken when EFF permits for the hart's world, aborting an open proof, or stays pending. -/
  | debugHalt (core : Nat)
  /-- DEBUG_RESUME (R212): The debugger resumes a HALTED hart. -/
  | debugResume (core : Nat)
  /-- DBG_ACC_GO (R461): A write of GO starts a debugger memory access, waking the target domain when permitted. -/
  | dbgAccGo (src : Src) (value : Nat)
  /-- DBG_ACC_DONE (R461): The debugger access completes with its status. -/
  | dbgAccDone
  /-- TAP_RESET (R463): Entry into Test-Logic-Reset latches chain membership and IR length. -/
  | tapReset
  /-- TAP_UPDATE_IR (R464): A new TAP instruction takes effect; leaving an honoured EXTEST, CLAMP or HIGHZ starts a warm reset. -/
  | tapUpdateIr (die : Nat) (ir : Nat)
  /-- TAP_UPDATE_DR (R464): Update-DR with DBGREG performs a normal-world DBG register access. -/
  | tapUpdateDr (dr : Nat)
  /-- POWER_UP (R489): Power is applied and the device enters cold reset. -/
  | powerUp
  /-- PORESET_ASSERT (R489): PORESET_N is asserted and the device enters cold reset. -/
  | poresetAssert
  /-- PORESET_RELEASE (R490): PORESET_N rises, PROFILE_SEL is sampled and clock start-up begins. -/
  | poresetRelease (sel : Nat)
  /-- PWRGD_DEASSERT (R489): A PWRGD input deasserts and the device enters cold reset. -/
  | pwrgdDeassert (k : Nat)
  /-- SYSRESET_ASSERT (R489): SYSRESET_N is asserted and the device takes a warm reset. -/
  | sysresetAssert
  /-- CKR_RESET_CTL_WARM (R489): A secure write of CKR_RESET_CTL.WARM starts a warm reset. -/
  | ckrResetCtlWarm (src : Src)
  /-- THERMTRIP (R491): A thermal sensor crosses the trip temperature; THERMTRIP_N asserts and the device holds cold reset. -/
  | thermtrip
  /-- XTAL_STABLE (R469): The crystal amplitude detector has asserted and 131,072 cycles are counted, judging the crystal stable. -/
  | xtalStable
  /-- XTAL_TIMEOUT (R469): 50 ms after PWRGD without a stable crystal, the root stays on the IRO and CLOCK_FAIL is raised. -/
  | xtalTimeout
  /-- ROOT_PLL_LOCK (R470): The root PLL locks and distributes the 100 MHz reference. -/
  | rootPllLock
  /-- XTAL_AMPLITUDE_LOSS (R476): The crystal amplitude detector deasserts and the root fails over to the IRO. -/
  | xtalAmplitudeLoss
  /-- ROOT_PLL_UNLOCK (R476): The root PLL loses lock and the root fails over to the IRO. -/
  | rootPllUnlock
  /-- CLOCK_MONITOR_WINDOW (R475): A monitor window ends, declaring failure after two out-of-tolerance windows or setting IRO drift. -/
  | clockMonitorWindow (which : Nat) (count : Nat)
  /-- CKR_RATIO_WRITE (R473): A secure write of N and M starts a glitch-free ratio switch, or is refused. -/
  | ckrRatioWrite (src : Src) (d : Nat) (value : Nat)
  /-- RATIO_SWITCH_DONE (R473): A domain's synthesiser finishes switching to its new ratio. -/
  | ratioSwitchDone (d : Nat)
  /-- CKR_GATE_WRITE (R478): A write of CKR_DOM.EN gates or ungates a gateable clock domain, or is refused. -/
  | ckrGateWrite (src : Src) (d : Nat) (value : Nat)
  /-- PWR_TARGET_WRITE (R481): A write of TARGET requests a power transition, checked against the refusers. -/
  | pwrTargetWrite (src : Src) (d : Nat) (value : Nat)
  /-- PWR_HOLD_RECHECK (R481): Every 1 µs a held request is checked again and starts if it passes. -/
  | pwrHoldRecheck (d : Nat)
  /-- PWR_HOLD_ABORT (R481): 10 ms after it was made, a held request is aborted and recorded. -/
  | pwrHoldAbort (d : Nat)
  /-- DOMAIN_WAKE (R484): A wake source requests a domain in RET or OFF to turn ON and records the source. -/
  | domainWake (d : Nat) (code : Nat)
  /-- DOMAIN_TRANSITION_START (R482): The power controller's arbiter starts a waiting transition, one OFF → ON at a time. -/
  | domainTransitionStart
  /-- DOMAIN_TRANSITION_DONE (R480): A domain completes its transition to ON, RET or OFF and any pending request is checked. -/
  | domainTransitionDone (d : Nat)
  /-- POWERED_HOUR (R503): At each powered-hour boundary Calom reads wear sensors and commits the accumulator to the next ledger slot. -/
  | poweredHour (readings : List Nat) (ok : Bool)
  /-- THERMAL_SAMPLE (R499): Each second Calom samples temperatures and voltages into the histograms and applies the thermal throttle cap. -/
  | thermalSample (temps : List Int) (volts : List Nat)
  /-- SUPPLY_FENCE (R521): A die's measured rail differs from its request by more than 25 mV for 10 ms and Calom fences it with cause 10. -/
  | supplyFence (n : Nat)
  /-- EVENT_RATE_RELEASE (R527): At the end of a source's RATE interval the held message is sent. -/
  | eventRateRelease (i : Nat)
  /-- EVENT_MESSAGE_DELIVER (R222): An event message reaches a core's claim FIFO, or is held while the FIFO is full. -/
  | eventMessageDeliver
  /-- EVC_SRC_CFG_WRITE (R527): A write of EVC_SRC_CFG reconfigures a source, or is ignored as a whole when it breaks the world or range rules. -/
  | evcSrcCfgWrite (src : Src) (i : Nat) (value : Nat)
  /-- TRANSLATION_COMPLETION (R378): An ATS Translation Completion arrives on a port; its translation is cached, or a refusal or short grant completes the command with ABORTED and halts its ring. -/
  | translationCompletion (p : Nat) (tag : Nat) (ok : Bool) (frame : Nat) (read : Bool) (write : Bool)
  /-- PARTICIPANT_ABORT (R280): A participant's abort reaches the proof arbiter, taking an OPEN group to ABORTING or winning against a seal in the commit-point fabric cycle. -/
  | participantAbort (g : Nat) (core : Nat)
  /-- BAD_MSG (R351): A guest-profile message with an unknown OPC or a field out of range is dropped and counted in STN_CNT1.BAD_MSG. -/
  | badMsg (g : Nat)
  deriving DecidableEq, Repr

end Sys2Proof
end

