-- ==== Sys2Proof/Decode.lean ====
section
/-!
DEFINITION. Commands spelled by a word of the opcode table.  No row of the table gives bits: the device's commands are
events, register accesses and messages, each with its operands, and none is an encoded instruction word.
-/

namespace Sys2Proof

/-- The command a table word spells: none, since the table gives no row any bits. -/
def decodeTableWord (_nbits _w : Nat) : Option Instr := none

end Sys2Proof
end

