-- ==== Sys2Proof/Config.lean ====
section
/-!
DEFINITION. What the model leaves free: opaque constants without a body, for values the spec leaves open and for the
cryptographic functions the spec names (SM2, SM3) without restating them.  No proof can evaluate one of them, so a
statement that mentions one holds whatever it is.
-/

namespace Sys2Proof.Config

/-- A free value: the `n`th value the spec leaves open (assumption log 3).  The state field `fresh` supplies `n`. -/
opaque freeNat : Nat → Nat

/-- SM3 digest of a byte list (R438 and the rules that hash); uninterpreted (assumption log 4). -/
opaque sm3 : List Byte → List Byte

/-- SM2 verification of a 64-byte signature over a message under a public key; uninterpreted (assumption log 4). -/
opaque sm2Verify : (key msg sig : List Byte) → Bool

/-- SM2 signature over a message under a private key handle; uninterpreted (assumption log 4). -/
opaque sm2Sign : (key : Nat) → (msg : List Byte) → List Byte

/-- SM4 decryption of a payload under an unwrapped key; uninterpreted (assumption log 4). -/
opaque sm4 : (key : List Byte) → (data : List Byte) → List Byte

/-- SM3 digest of the boot ROM, which the spec does not state (R452; assumption log 4). -/
opaque bootRomDigest : List Byte

/-- PROFILE_ID of the factory-written profile 0, which the spec does not state (R492; assumption log 3). -/
opaque profile0Id : Nat

end Sys2Proof.Config
end

