-- ==== Sys2Proof/Machine/Regs.lean ====
section
/-!
DEFINITION. The register map: every register of the device's 64 MiB register space, with its block offset, its
replication (R7, R15), its fields, their types (R9), their reset values (R11) and their reserved encodings (R10).
Each entry follows the register section of the chapter of spec/ that describes its block; a field handle
`F.<REGISTER>.<FIELD>` names one field of one register.
-/

namespace Sys2Proof.Machine

/-- Field types of R9.  `srwo` is a field that is both SRW and WO (CKR_RESET_CTL.WARM). -/
inductive FType where
  | rw | ro | wo | w1c | w1s | rwl | srw | srwo
  deriving DecidableEq, Repr

/-- The encodings a field's table does not list as reserved (R10). -/
inductive Enc where
  /-- every encoding is legal -/
  | any
  /-- the encodings from `lo` to `hi` are legal -/
  | range (lo hi : Nat)
  /-- DBG_AUTH_CTL.KEY_SLOT: 0xFF or 0 to 3 -/
  | keySlot
  deriving DecidableEq, Repr

/-- Is `v` a legal (not reserved) encoding? -/
def Enc.ok : Enc → Nat → Bool
  | .any, _ => true
  | .range lo hi, v => lo ≤ v && v ≤ hi
  | .keySlot, v => v == 255 || v ≤ 3

/-- The registers, by the names the spec gives them. -/
inductive Reg where
  | ALN_CFG | ALN_SUMMARY | ALN_FEAT | ALN_PORT_CTL | ALN_PORT_STATUS
  | ALN_PORT_TRAINED | ALN_PORT_FENCE | ALN_PORT_CAP | ALN_PORT_REPAIR_P | ALN_PORT_REPAIR_Q
  | ALN_PORT_CNT | ALN_PORT_SIG | CD_IDENT | BEAT_CFG | BEAT_CTL
  | BEAT_STATUS | BEAT_COUNT | BEAT_FINE | BEAT_LOAD | BEAT_MON
  | BEAT_SKEW | BEAT_CNT_A | BEAT_SYNC_LAST | BEAT_RQ_CFG | BEAT_RQ_CNT
  | BEAT_RQ_ACC | BEAT_RQ_SLACK | BEAT_OUT_CTL | BEAT_CNT_B | BEAT_CAL_LAST
  | HLN_GRP_CFG | HLN_GRP_STATUS | LANE_CFG | LANE_CTL | LANE_STATUS
  | LANE_WM | LANE_SC_CTL | LANE_SC_STATUS | LANE_CNT0 | LANE_CNT1
  | LANE_CNT2 | LANE_CNT3 | LANE_CNT4 | LANE_HITS_IN | LANE_HITS_OUT
  | LANE_HITS_SUPP | LANE_HITS_DROP | LANE_SC_CNT | LANE_TX_CNT | LANE_SC_TXBUF
  | LANE_SC_RXBUF | CTX_CFG | CTX_STATUS | CTX_CNT0 | CTX_CNT1
  | CTX_BANK_WAIT | CTX_EPOCH | CTX_EPOCH_BEAT | CTX_BANK_OVL | CTX_LANE_DROP
  | TRG_CFG | TRG_STATUS | TRG_CNT0 | TRG_CNT1 | TRG_VETO0
  | TRG_VETO1 | TRG_CMB_STATE | TRG_LAST_ACC | TRG_UNIT_STATUS | TRG_UNIT_SWAP
  | TRG_UNIT_MENU | TRG_UNIT_EVAL | TRG_BIT_CNT | TRG_SK_LATE | TIO_OUT_CTL
  | TIO_STATUS | TIO_BUSY_BEATS | TIO_THR_BEATS | TIO_TRIG_CNT | TIO_IN_CFG
  | TIO_IN_STATUS | TIO_IN_CTL | TIO_IN_CNT | EVB_CFG | EVB_STATUS
  | EVB_BP_CFG | EVB_EVN_NEXT | EVB_CNT0 | EVB_CNT1 | EVB_CNT2
  | EVB_HIST_CFG | EVB_HIST_BASE | EVB_HIST_WPTR | EVB_HIST_HW | EVB_ROUTE_CFG
  | EVB_ROUTE_TMO | EVB_ROUTE_LANES | EVB_ROUTE_STATUS | EVB_ROUTE_CNT | EVB_ROUTE_EV
  | EVB_POOL_BASE | EVB_POOL_CFG | EVB_POOL_STATUS | EVB_EVQ_BASE | EVB_EVQ_CFG
  | EVB_EVQ_IDX | CORE_CTL | CORE_RVBAR | CORE_STATUS | CORE_MTIMECMP
  | CORE_MSIP | CORE_SSIP_SET | CORE_CLAIM_M | CORE_CLAIM_S | CORE_IRQ_CNT
  | L2_CTL | L2_STATUS | L2_HITS | L2_MISSES | L2_CNT0
  | DIR_STATUS | DIR_CL_FENCED | DIR_PROBE_ADDR | DIR_PROBE_DATA | DIR_SLICE_STATUS
  | DIR_SLICE_CNT0 | DIR_SLICE_CNT1 | DIR_SLICE_CNT2 | DIR_SLICE_CNT3 | PRF_CFG
  | PRF_STATUS | PRF_CNT0 | PRF_CNT1 | PRF_CNT2 | PRF_CNT3
  | PRF_CAUSE_CNT | PRF_SLICE_GRP | PRF_GRP_STATUS | PRF_GRP_INFO | STP_CFG
  | STP_STATUS | STP_CNT0 | STP_CNT1 | STP_CNT2 | STP_ENG_STATUS
  | STP_ENG_IN | STP_SLICE_SHARE | ETH_PORT_CFG | ETH_PORT_STATUS | ETH_PORT_FRAMES
  | ETH_PORT_BYTES | ETH_PORT_CNT | ETH_Q_CFG | ETH_Q_FLOW | ETH_SLICE_MAC
  | ETH_SLICE_IP4 | ETH_SLICE_IP6 | MEM_WM | MEM_WM_CNT | MEM_BURN_CFG
  | MEM_RECODE | MEM_DDR_CFG | MEM_CTL_STATUS | MEM_CTL_CNT0 | MEM_CTL_CNT1
  | MEM_CTL_LAST_UE | MEM_BURN_PTR | MEM_FLIPCTL | MEM_FLIP_ADDR | MEM_FLIP
  | MEM_PLATE_CFG_H | MEM_PLATE_CFG_D | MEM_PLATE_CNT_H | MEM_PLATE_CNT_D | STN_CFG
  | STN_STATUS | STN_RATE | STN_TRIG_MASK | STN_CNT0 | STN_CNT1
  | STN_WIN | STN_WIN_LIMIT | HIF_PORT_CFG | HIF_BAR4_SEL | HIF_PORT_STATUS
  | HIF_PORT_CNT0 | HIF_PORT_CNT1 | HIF_PORT_CNT2 | HIF_DB_CFG | HIF_RING_STATUS
  | HIF_RING_CNT0 | HIF_RING_CNT1 | HIF_RING_HALTED | HIF_RING_CFG | HIF_RING_SQ
  | HIF_RING_CQ | HIF_RING_IRQ | HIF_RING_IDX | HIF_RING_ST | HIF_EVQ_DB
  | HIF_SLICE_CFG | HIF_SLICE_USE | HIF_SLICE_STATUS | HIF_SLICE_CNT | HIF_SLICE_SUMMARY
  | HIF_SPOOF_LOG | HIF_CORE_SLICE | HIF_PLATE_OWNER_H | HIF_PLATE_OWNER_D | HIF_MSIX_OWNER
  | HIF_SLICE_CHAN | SEC_FUSE | SEC_FUSE_SERIAL | SEC_BOOT_STATUS | SEC_STATUS
  | SEC_FUSE_VKEY | SEC_FUSE_OKEY | SEC_FUSE_DIE | DBG_EN | DBG_AUTH_CTL
  | DBG_CHAIN | DBG_STATUS | DBG_CNT | DBG_AUTH_NONCE | DBG_AUTH_PUB
  | DBG_AUTH_SIG | DBG_ACC_CTL | DBG_ACC_ADDR | DBG_ACC_DATA | CDU_STATUS
  | GLB_ID | GLB_PROFILE | GLB_PROFILE_ID | CKR_STATUS | CKR_MON
  | CKR_MON_LIM | CKR_TIME | CKR_FTIME | CKR_RESET | CKR_RESET_CTL
  | CKR_DOM | PWR_STATUS | PWR_DOM_CTL | PWR_DOM_STATUS | PWR_REFTAB
  | LGR_CFG | LGR_STATUS | LGR_HOURS | LGR_WEAR | LGR_PLAN
  | EVC_NMI | EVC_PEND | EVC_SRC_CFG | EVC_SRC_CNT | MSIX_ADDR
  | MSIX_CTL | MSIX_PBA
  deriving DecidableEq, Repr

/-- One field of a register: bits `lo + w - 1` down to `lo`, its type, reset value and legal encodings.
`rst` is the reset value the field's table gives; where that table gives one that depends on the instance, it is
the value of `Field.resetAt`. -/
structure Field where
  reg : Reg
  lo : Nat
  w : Nat
  ty : FType
  rst : Nat
  enc : Enc := .any
  deriving DecidableEq, Repr

/-- One register row: where it lies in BAR0, how it is replicated (count and stride, outermost first), its fields. -/
structure RegRow where
  reg : Reg
  base : Nat
  dims : List (Nat × Nat)
  fields : List Field
  deriving DecidableEq, Repr

namespace F

def ALN_CFG.AUTO_TRAIN : Field := { reg := .ALN_CFG, lo := 0, w := 1, ty := .rwl, rst := 0x1 }
def ALN_CFG.REQ_SIG : Field := { reg := .ALN_CFG, lo := 1, w := 1, ty := .rwl, rst := 0x0 }
def ALN_CFG.LOCK : Field := { reg := .ALN_CFG, lo := 31, w := 1, ty := .w1s, rst := 0x0 }
def ALN_SUMMARY.UP : Field := { reg := .ALN_SUMMARY, lo := 0, w := 14, ty := .ro, rst := 0x0 }
def ALN_SUMMARY.FENCED : Field := { reg := .ALN_SUMMARY, lo := 16, w := 14, ty := .ro, rst := 0x0 }
def ALN_SUMMARY.ABSENT : Field := { reg := .ALN_SUMMARY, lo := 32, w := 14, ty := .ro, rst := 0x0 }
def ALN_SUMMARY.PKG_GEN : Field := { reg := .ALN_SUMMARY, lo := 48, w := 8, ty := .ro, rst := 0x0 }
def ALN_FEAT.COH : Field := { reg := .ALN_FEAT, lo := 0, w := 16, ty := .ro, rst := 0x0 }
def ALN_PORT_CTL.EN : Field := { reg := .ALN_PORT_CTL, lo := 0, w := 1, ty := .rw, rst := 0x1 }
def ALN_PORT_CTL.RESTART : Field := { reg := .ALN_PORT_CTL, lo := 1, w := 1, ty := .wo, rst := 0x0 }
def ALN_PORT_CTL.WIDTH_RESTORE : Field := { reg := .ALN_PORT_CTL, lo := 2, w := 1, ty := .wo, rst := 0x0 }
def ALN_PORT_CTL.UNFENCE : Field := { reg := .ALN_PORT_CTL, lo := 3, w := 1, ty := .srw, rst := 0x0 }
def ALN_PORT_CTL.REPLAY_LIMIT : Field := { reg := .ALN_PORT_CTL, lo := 8, w := 8, ty := .rw, rst := 0x40 }
def ALN_PORT_STATUS.STATE : Field := { reg := .ALN_PORT_STATUS, lo := 0, w := 4, ty := .ro, rst := 0x0 }
def ALN_PORT_STATUS.STATE_Q : Field := { reg := .ALN_PORT_STATUS, lo := 4, w := 4, ty := .ro, rst := 0x0 }
def ALN_PORT_STATUS.WIDTH_P : Field := { reg := .ALN_PORT_STATUS, lo := 8, w := 8, ty := .ro, rst := 0x0 }
def ALN_PORT_STATUS.WIDTH_Q : Field := { reg := .ALN_PORT_STATUS, lo := 16, w := 8, ty := .ro, rst := 0x0 }
def ALN_PORT_STATUS.FAILS : Field := { reg := .ALN_PORT_STATUS, lo := 24, w := 2, ty := .ro, rst := 0x0 }
def ALN_PORT_STATUS.BASE_ON_SPARES : Field := { reg := .ALN_PORT_STATUS, lo := 26, w := 1, ty := .ro, rst := 0x0 }
def ALN_PORT_STATUS.EVT_FENCE : Field := { reg := .ALN_PORT_STATUS, lo := 32, w := 1, ty := .w1c, rst := 0x0 }
def ALN_PORT_STATUS.EVT_RETRAIN : Field := { reg := .ALN_PORT_STATUS, lo := 33, w := 1, ty := .w1c, rst := 0x0 }
def ALN_PORT_STATUS.EVT_WIDTH_DOWN : Field := { reg := .ALN_PORT_STATUS, lo := 34, w := 1, ty := .w1c, rst := 0x0 }
def ALN_PORT_STATUS.EVT_REPAIR : Field := { reg := .ALN_PORT_STATUS, lo := 35, w := 1, ty := .w1c, rst := 0x0 }
def ALN_PORT_STATUS.EVT_RESET_SEEN : Field := { reg := .ALN_PORT_STATUS, lo := 36, w := 1, ty := .w1c, rst := 0x0 }
def ALN_PORT_TRAINED.REC_P : Field := { reg := .ALN_PORT_TRAINED, lo := 0, w := 8, ty := .ro, rst := 0x0 }
def ALN_PORT_TRAINED.REC_Q : Field := { reg := .ALN_PORT_TRAINED, lo := 8, w := 8, ty := .ro, rst := 0x0 }
def ALN_PORT_FENCE.CAUSE : Field := { reg := .ALN_PORT_FENCE, lo := 0, w := 8, ty := .ro, rst := 0x0 }
def ALN_PORT_FENCE.COUNT : Field := { reg := .ALN_PORT_FENCE, lo := 16, w := 16, ty := .ro, rst := 0x0 }
def ALN_PORT_CAP.BYTES : Field := { reg := .ALN_PORT_CAP, lo := 0, w := 64, ty := .ro, rst := 0x0 }
def ALN_PORT_REPAIR_P.RX_SPARE0 : Field := { reg := .ALN_PORT_REPAIR_P, lo := 0, w := 8, ty := .ro, rst := 0x0 }
def ALN_PORT_REPAIR_P.TX_SPARE0 : Field := { reg := .ALN_PORT_REPAIR_P, lo := 32, w := 8, ty := .ro, rst := 0x0 }
def ALN_PORT_REPAIR_P.RX_SPARE1 : Field := { reg := .ALN_PORT_REPAIR_P, lo := 8, w := 8, ty := .ro, rst := 0x0 }
def ALN_PORT_REPAIR_P.TX_SPARE1 : Field := { reg := .ALN_PORT_REPAIR_P, lo := 40, w := 8, ty := .ro, rst := 0x0 }
def ALN_PORT_REPAIR_P.RX_SPARE2 : Field := { reg := .ALN_PORT_REPAIR_P, lo := 16, w := 8, ty := .ro, rst := 0x0 }
def ALN_PORT_REPAIR_P.TX_SPARE2 : Field := { reg := .ALN_PORT_REPAIR_P, lo := 48, w := 8, ty := .ro, rst := 0x0 }
def ALN_PORT_REPAIR_P.RX_SPARE3 : Field := { reg := .ALN_PORT_REPAIR_P, lo := 24, w := 8, ty := .ro, rst := 0x0 }
def ALN_PORT_REPAIR_P.TX_SPARE3 : Field := { reg := .ALN_PORT_REPAIR_P, lo := 56, w := 8, ty := .ro, rst := 0x0 }
def ALN_PORT_REPAIR_Q.RX_SPARE0 : Field := { reg := .ALN_PORT_REPAIR_Q, lo := 0, w := 8, ty := .ro, rst := 0x0 }
def ALN_PORT_REPAIR_Q.TX_SPARE0 : Field := { reg := .ALN_PORT_REPAIR_Q, lo := 32, w := 8, ty := .ro, rst := 0x0 }
def ALN_PORT_REPAIR_Q.RX_SPARE1 : Field := { reg := .ALN_PORT_REPAIR_Q, lo := 8, w := 8, ty := .ro, rst := 0x0 }
def ALN_PORT_REPAIR_Q.TX_SPARE1 : Field := { reg := .ALN_PORT_REPAIR_Q, lo := 40, w := 8, ty := .ro, rst := 0x0 }
def ALN_PORT_REPAIR_Q.RX_SPARE2 : Field := { reg := .ALN_PORT_REPAIR_Q, lo := 16, w := 8, ty := .ro, rst := 0x0 }
def ALN_PORT_REPAIR_Q.TX_SPARE2 : Field := { reg := .ALN_PORT_REPAIR_Q, lo := 48, w := 8, ty := .ro, rst := 0x0 }
def ALN_PORT_REPAIR_Q.RX_SPARE3 : Field := { reg := .ALN_PORT_REPAIR_Q, lo := 24, w := 8, ty := .ro, rst := 0x0 }
def ALN_PORT_REPAIR_Q.TX_SPARE3 : Field := { reg := .ALN_PORT_REPAIR_Q, lo := 56, w := 8, ty := .ro, rst := 0x0 }
def ALN_PORT_CNT.REPLAYS : Field := { reg := .ALN_PORT_CNT, lo := 0, w := 32, ty := .ro, rst := 0x0 }
def ALN_PORT_CNT.RETRAINS : Field := { reg := .ALN_PORT_CNT, lo := 32, w := 16, ty := .ro, rst := 0x0 }
def ALN_PORT_CNT.TRAIN_FAILS : Field := { reg := .ALN_PORT_CNT, lo := 48, w := 16, ty := .ro, rst := 0x0 }
def ALN_PORT_SIG.BYTES : Field := { reg := .ALN_PORT_SIG, lo := 0, w := 64, ty := .ro, rst := 0x0 }
def CD_IDENT.SITE : Field := { reg := .CD_IDENT, lo := 0, w := 4, ty := .ro, rst := 0x0 }
def CD_IDENT.ORIENT : Field := { reg := .CD_IDENT, lo := 4, w := 3, ty := .ro, rst := 0x0 }
def CD_IDENT.GEN : Field := { reg := .CD_IDENT, lo := 8, w := 8, ty := .ro, rst := 0x0 }
def CD_IDENT.STEP : Field := { reg := .CD_IDENT, lo := 16, w := 8, ty := .ro, rst := 0x0 }
def CD_IDENT.MAX_CLK : Field := { reg := .CD_IDENT, lo := 24, w := 8, ty := .ro, rst := 0x0 }
def CD_IDENT.WS_LINES : Field := { reg := .CD_IDENT, lo := 32, w := 16, ty := .ro, rst := 0x0 }
def BEAT_CFG.EN_A : Field := { reg := .BEAT_CFG, lo := 0, w := 1, ty := .rw, rst := 0x1 }
def BEAT_CFG.EN_B : Field := { reg := .BEAT_CFG, lo := 1, w := 1, ty := .rw, rst := 0x1 }
def BEAT_CFG.PRIMARY : Field := { reg := .BEAT_CFG, lo := 2, w := 1, ty := .rw, rst := 0x0 }
def BEAT_CFG.AUTO_REVERT : Field := { reg := .BEAT_CFG, lo := 3, w := 1, ty := .rw, rst := 0x1 }
def BEAT_CFG.RATE_A : Field := { reg := .BEAT_CFG, lo := 4, w := 1, ty := .rw, rst := 0x0 }
def BEAT_CFG.RATE_B : Field := { reg := .BEAT_CFG, lo := 5, w := 1, ty := .rw, rst := 0x0 }
def BEAT_CFG.SPB : Field := { reg := .BEAT_CFG, lo := 8, w := 6, ty := .rw, rst := 0x4, enc := .range 1 50 }
def BEAT_CFG.HOLD_MAX : Field := { reg := .BEAT_CFG, lo := 16, w := 16, ty := .rw, rst := 0xA }
def BEAT_CFG.FMIN : Field := { reg := .BEAT_CFG, lo := 32, w := 16, ty := .rw, rst := 0x66 }
def BEAT_CFG.FMAX : Field := { reg := .BEAT_CFG, lo := 48, w := 16, ty := .rw, rst := 0xA00 }
def BEAT_CTL.SW_LOAD : Field := { reg := .BEAT_CTL, lo := 0, w := 1, ty := .wo, rst := 0x0 }
def BEAT_CTL.ADOPT : Field := { reg := .BEAT_CTL, lo := 1, w := 1, ty := .wo, rst := 0x0 }
def BEAT_CTL.FORCE_SWITCH : Field := { reg := .BEAT_CTL, lo := 2, w := 1, ty := .wo, rst := 0x0 }
def BEAT_STATUS.UNIT : Field := { reg := .BEAT_STATUS, lo := 0, w := 2, ty := .ro, rst := 0x0 }
def BEAT_STATUS.ACTIVE : Field := { reg := .BEAT_STATUS, lo := 3, w := 1, ty := .ro, rst := 0x0 }
def BEAT_STATUS.STATE_A : Field := { reg := .BEAT_STATUS, lo := 4, w := 2, ty := .ro, rst := 0x0 }
def BEAT_STATUS.STATE_B : Field := { reg := .BEAT_STATUS, lo := 6, w := 2, ty := .ro, rst := 0x0 }
def BEAT_STATUS.MISMATCH_A : Field := { reg := .BEAT_STATUS, lo := 8, w := 1, ty := .ro, rst := 0x0 }
def BEAT_STATUS.MISMATCH_B : Field := { reg := .BEAT_STATUS, lo := 9, w := 1, ty := .ro, rst := 0x0 }
def BEAT_STATUS.SWLOAD_LOST : Field := { reg := .BEAT_STATUS, lo := 10, w := 1, ty := .w1c, rst := 0x0 }
def BEAT_STATUS.EVT_A : Field := { reg := .BEAT_STATUS, lo := 32, w := 1, ty := .w1c, rst := 0x0 }
def BEAT_STATUS.EVT_B : Field := { reg := .BEAT_STATUS, lo := 33, w := 1, ty := .w1c, rst := 0x0 }
def BEAT_STATUS.EVT_SWITCH : Field := { reg := .BEAT_STATUS, lo := 34, w := 1, ty := .w1c, rst := 0x0 }
def BEAT_STATUS.EVT_HOLD : Field := { reg := .BEAT_STATUS, lo := 35, w := 1, ty := .w1c, rst := 0x0 }
def BEAT_STATUS.EVT_EXPIRED : Field := { reg := .BEAT_STATUS, lo := 36, w := 1, ty := .w1c, rst := 0x0 }
def BEAT_STATUS.EVT_MISMATCH : Field := { reg := .BEAT_STATUS, lo := 37, w := 1, ty := .w1c, rst := 0x0 }
def BEAT_STATUS.EVT_LATE : Field := { reg := .BEAT_STATUS, lo := 38, w := 1, ty := .w1c, rst := 0x0 }
def BEAT_STATUS.EVT_CMD : Field := { reg := .BEAT_STATUS, lo := 39, w := 1, ty := .w1c, rst := 0x0 }
def BEAT_COUNT.COUNT : Field := { reg := .BEAT_COUNT, lo := 0, w := 64, ty := .ro, rst := 0x0 }
def BEAT_FINE.FINE : Field := { reg := .BEAT_FINE, lo := 0, w := 16, ty := .ro, rst := 0x0 }
def BEAT_LOAD.VALUE : Field := { reg := .BEAT_LOAD, lo := 0, w := 64, ty := .rw, rst := 0x0 }
def BEAT_MON.FREQ_A : Field := { reg := .BEAT_MON, lo := 0, w := 16, ty := .ro, rst := 0x0 }
def BEAT_MON.FREQ_B : Field := { reg := .BEAT_MON, lo := 16, w := 16, ty := .ro, rst := 0x0 }
def BEAT_MON.AB_PHASE : Field := { reg := .BEAT_MON, lo := 32, w := 16, ty := .ro, rst := 0x0 }
def BEAT_SKEW.SKEW_A : Field := { reg := .BEAT_SKEW, lo := 0, w := 16, ty := .rw, rst := 0x0 }
def BEAT_SKEW.SKEW_B : Field := { reg := .BEAT_SKEW, lo := 16, w := 16, ty := .rw, rst := 0x0 }
def BEAT_CNT_A.CODE_ERR : Field := { reg := .BEAT_CNT_A, lo := 0, w := 16, ty := .ro, rst := 0x0 }
def BEAT_CNT_A.CRC_ERR : Field := { reg := .BEAT_CNT_A, lo := 16, w := 16, ty := .ro, rst := 0x0 }
def BEAT_CNT_A.TAG_MISMATCH : Field := { reg := .BEAT_CNT_A, lo := 32, w := 16, ty := .ro, rst := 0x0 }
def BEAT_CNT_A.UNKNOWN_TYPE : Field := { reg := .BEAT_CNT_A, lo := 48, w := 16, ty := .ro, rst := 0x0 }
def BEAT_SYNC_LAST.CODE : Field := { reg := .BEAT_SYNC_LAST, lo := 0, w := 16, ty := .ro, rst := 0x0 }
def BEAT_SYNC_LAST.BEAT : Field := { reg := .BEAT_SYNC_LAST, lo := 16, w := 48, ty := .ro, rst := 0x0 }
def BEAT_RQ_CFG.LAT : Field := { reg := .BEAT_RQ_CFG, lo := 0, w := 13, ty := .rw, rst := 0x20, enc := .range 32 4096 }
def BEAT_RQ_CFG.LATE_ACCEPT : Field := { reg := .BEAT_RQ_CFG, lo := 16, w := 1, ty := .rw, rst := 0x0 }
def BEAT_RQ_CFG.LATE_TTYPE : Field := { reg := .BEAT_RQ_CFG, lo := 20, w := 4, ty := .rw, rst := 0x0 }
def BEAT_RQ_CFG.LATE_TRIG : Field := { reg := .BEAT_RQ_CFG, lo := 24, w := 8, ty := .rw, rst := 0x0 }
def BEAT_RQ_CFG.RUN : Field := { reg := .BEAT_RQ_CFG, lo := 32, w := 1, ty := .rw, rst := 0x0 }
def BEAT_RQ_CNT.LATE : Field := { reg := .BEAT_RQ_CNT, lo := 0, w := 32, ty := .ro, rst := 0x0 }
def BEAT_RQ_CNT.DISCARDED : Field := { reg := .BEAT_RQ_CNT, lo := 32, w := 16, ty := .ro, rst := 0x0 }
def BEAT_RQ_CNT.GAPS : Field := { reg := .BEAT_RQ_CNT, lo := 48, w := 16, ty := .ro, rst := 0x0 }
def BEAT_RQ_ACC.ACCEPTS : Field := { reg := .BEAT_RQ_ACC, lo := 0, w := 64, ty := .ro, rst := 0x0 }
def BEAT_RQ_SLACK.MIN_SLACK : Field := { reg := .BEAT_RQ_SLACK, lo := 0, w := 24, ty := .ro, rst := 0xFFFFFF }
def BEAT_OUT_CTL.EN : Field := { reg := .BEAT_OUT_CTL, lo := 0, w := 1, ty := .rw, rst := 0x0 }
def BEAT_OUT_CTL.DIV : Field := { reg := .BEAT_OUT_CTL, lo := 1, w := 3, ty := .rw, rst := 0x0 }
def BEAT_OUT_CTL.PHASE : Field := { reg := .BEAT_OUT_CTL, lo := 8, w := 8, ty := .rw, rst := 0x0 }
def BEAT_CNT_B.CODE_ERR : Field := { reg := .BEAT_CNT_B, lo := 0, w := 16, ty := .ro, rst := 0x0 }
def BEAT_CNT_B.CRC_ERR : Field := { reg := .BEAT_CNT_B, lo := 16, w := 16, ty := .ro, rst := 0x0 }
def BEAT_CNT_B.TAG_MISMATCH : Field := { reg := .BEAT_CNT_B, lo := 32, w := 16, ty := .ro, rst := 0x0 }
def BEAT_CNT_B.UNKNOWN_TYPE : Field := { reg := .BEAT_CNT_B, lo := 48, w := 16, ty := .ro, rst := 0x0 }
def BEAT_CAL_LAST.CODE : Field := { reg := .BEAT_CAL_LAST, lo := 0, w := 16, ty := .ro, rst := 0x0 }
def BEAT_CAL_LAST.BEAT : Field := { reg := .BEAT_CAL_LAST, lo := 16, w := 48, ty := .ro, rst := 0x0 }
def HLN_GRP_CFG.RATE : Field := { reg := .HLN_GRP_CFG, lo := 0, w := 3, ty := .rw, rst := 0x4 }
def HLN_GRP_STATUS.PLL_LOCK : Field := { reg := .HLN_GRP_STATUS, lo := 0, w := 1, ty := .ro, rst := 0x0 }
def HLN_GRP_STATUS.RATE_REFUSED : Field := { reg := .HLN_GRP_STATUS, lo := 1, w := 1, ty := .w1c, rst := 0x0 }
def HLN_GRP_STATUS.CUR_RATE : Field := { reg := .HLN_GRP_STATUS, lo := 4, w := 3, ty := .ro, rst := 0x4 }
def LANE_CFG.RX_EN : Field := { reg := .LANE_CFG, lo := 0, w := 1, ty := .rw, rst := 0x0 }
def LANE_CFG.TX_EN : Field := { reg := .LANE_CFG, lo := 1, w := 1, ty := .rw, rst := 0x0 }
def LANE_CFG.RX_INV : Field := { reg := .LANE_CFG, lo := 2, w := 1, ty := .rw, rst := 0x0 }
def LANE_CFG.TX_INV : Field := { reg := .LANE_CFG, lo := 3, w := 1, ty := .rw, rst := 0x0 }
def LANE_CFG.SYNC_FRAMES : Field := { reg := .LANE_CFG, lo := 4, w := 4, ty := .rw, rst := 0x4, enc := .range 1 15 }
def LANE_CFG.EXPECT_ID : Field := { reg := .LANE_CFG, lo := 8, w := 8, ty := .rw, rst := 0xFF }
def LANE_CFG.MAXWORDS : Field := { reg := .LANE_CFG, lo := 16, w := 12, ty := .rw, rst := 0x800, enc := .range 1 2048 }
def LANE_CFG.MAX_AGE : Field := { reg := .LANE_CFG, lo := 32, w := 16, ty := .rw, rst := 0x400, enc := .range 1 65535 }
def LANE_CFG.ACC_EN : Field := { reg := .LANE_CFG, lo := 48, w := 1, ty := .rw, rst := 0x0 }
def LANE_CFG.CMD_EN : Field := { reg := .LANE_CFG, lo := 49, w := 1, ty := .rw, rst := 0x0 }
def LANE_CFG.TICKDIV : Field := { reg := .LANE_CFG, lo := 50, w := 3, ty := .rw, rst := 0x0 }
def LANE_CFG.TICK_EN : Field := { reg := .LANE_CFG, lo := 53, w := 1, ty := .rw, rst := 0x0 }
def LANE_CTL.CNT_CLR : Field := { reg := .LANE_CTL, lo := 0, w := 1, ty := .wo, rst := 0x0 }
def LANE_CTL.RESYNC : Field := { reg := .LANE_CTL, lo := 1, w := 1, ty := .wo, rst := 0x0 }
def LANE_STATUS.STATE : Field := { reg := .LANE_STATUS, lo := 0, w := 3, ty := .ro, rst := 0x0 }
def LANE_STATUS.SIGNAL : Field := { reg := .LANE_STATUS, lo := 3, w := 1, ty := .ro, rst := 0x0 }
def LANE_STATUS.SEQ_EXP : Field := { reg := .LANE_STATUS, lo := 16, w := 16, ty := .ro, rst := 0x0 }
def LANE_STATUS.EVT_STATE : Field := { reg := .LANE_STATUS, lo := 32, w := 1, ty := .w1c, rst := 0x0 }
def LANE_STATUS.EVT_SYNC_LOSS : Field := { reg := .LANE_STATUS, lo := 33, w := 1, ty := .w1c, rst := 0x0 }
def LANE_STATUS.EVT_ID : Field := { reg := .LANE_STATUS, lo := 34, w := 1, ty := .w1c, rst := 0x0 }
def LANE_STATUS.EVT_GAP : Field := { reg := .LANE_STATUS, lo := 35, w := 1, ty := .w1c, rst := 0x0 }
def LANE_STATUS.EVT_HIST_OVF : Field := { reg := .LANE_STATUS, lo := 36, w := 1, ty := .w1c, rst := 0x0 }
def LANE_STATUS.EVT_SC_RX : Field := { reg := .LANE_STATUS, lo := 37, w := 1, ty := .w1c, rst := 0x0 }
def LANE_STATUS.EVT_SC_DONE : Field := { reg := .LANE_STATUS, lo := 38, w := 1, ty := .w1c, rst := 0x0 }
def LANE_WM.CLOSED : Field := { reg := .LANE_WM, lo := 0, w := 64, ty := .ro, rst := 0x0 }
def LANE_SC_CTL.LEN : Field := { reg := .LANE_SC_CTL, lo := 0, w := 8, ty := .rw, rst := 0x0 }
def LANE_SC_CTL.TAG : Field := { reg := .LANE_SC_CTL, lo := 16, w := 16, ty := .rw, rst := 0x0 }
def LANE_SC_CTL.GO : Field := { reg := .LANE_SC_CTL, lo := 32, w := 1, ty := .wo, rst := 0x0 }
def LANE_SC_STATUS.TX_BUSY : Field := { reg := .LANE_SC_STATUS, lo := 0, w := 1, ty := .ro, rst := 0x0 }
def LANE_SC_STATUS.RXFULL : Field := { reg := .LANE_SC_STATUS, lo := 1, w := 1, ty := .w1c, rst := 0x0 }
def LANE_SC_STATUS.RX_LEN : Field := { reg := .LANE_SC_STATUS, lo := 8, w := 8, ty := .ro, rst := 0x0 }
def LANE_SC_STATUS.RX_TAG : Field := { reg := .LANE_SC_STATUS, lo := 16, w := 16, ty := .ro, rst := 0x0 }
def LANE_CNT0.FRAMES_OK : Field := { reg := .LANE_CNT0, lo := 0, w := 32, ty := .ro, rst := 0x0 }
def LANE_CNT0.CRC_ERR : Field := { reg := .LANE_CNT0, lo := 32, w := 32, ty := .ro, rst := 0x0 }
def LANE_CNT1.LEN_ERR : Field := { reg := .LANE_CNT1, lo := 0, w := 16, ty := .ro, rst := 0x0 }
def LANE_CNT1.ID_ERR : Field := { reg := .LANE_CNT1, lo := 16, w := 16, ty := .ro, rst := 0x0 }
def LANE_CNT1.TYPE_ERR : Field := { reg := .LANE_CNT1, lo := 32, w := 16, ty := .ro, rst := 0x0 }
def LANE_CNT1.TIME_ERR : Field := { reg := .LANE_CNT1, lo := 48, w := 16, ty := .ro, rst := 0x0 }
def LANE_CNT2.SEQ_LOST : Field := { reg := .LANE_CNT2, lo := 0, w := 32, ty := .ro, rst := 0x0 }
def LANE_CNT2.SEQ_DUP : Field := { reg := .LANE_CNT2, lo := 32, w := 16, ty := .ro, rst := 0x0 }
def LANE_CNT2.NOT_SYNC : Field := { reg := .LANE_CNT2, lo := 48, w := 16, ty := .ro, rst := 0x0 }
def LANE_CNT3.BEAT_GAP : Field := { reg := .LANE_CNT3, lo := 0, w := 16, ty := .ro, rst := 0x0 }
def LANE_CNT3.OVERLAP : Field := { reg := .LANE_CNT3, lo := 16, w := 16, ty := .ro, rst := 0x0 }
def LANE_CNT3.LATE : Field := { reg := .LANE_CNT3, lo := 32, w := 16, ty := .ro, rst := 0x0 }
def LANE_CNT3.LOCK_LOSS : Field := { reg := .LANE_CNT3, lo := 48, w := 16, ty := .ro, rst := 0x0 }
def LANE_CNT4.HDR_ERR : Field := { reg := .LANE_CNT4, lo := 0, w := 32, ty := .ro, rst := 0x0 }
def LANE_CNT4.CTRL_ERR : Field := { reg := .LANE_CNT4, lo := 32, w := 16, ty := .ro, rst := 0x0 }
def LANE_CNT4.HIST_OVF : Field := { reg := .LANE_CNT4, lo := 48, w := 16, ty := .ro, rst := 0x0 }
def LANE_HITS_IN.HITS_IN : Field := { reg := .LANE_HITS_IN, lo := 0, w := 64, ty := .ro, rst := 0x0 }
def LANE_HITS_OUT.HITS_OUT : Field := { reg := .LANE_HITS_OUT, lo := 0, w := 64, ty := .ro, rst := 0x0 }
def LANE_HITS_SUPP.SUPP : Field := { reg := .LANE_HITS_SUPP, lo := 0, w := 64, ty := .ro, rst := 0x0 }
def LANE_HITS_DROP.UNBOUND : Field := { reg := .LANE_HITS_DROP, lo := 0, w := 32, ty := .ro, rst := 0x0 }
def LANE_HITS_DROP.OFFSET_ERR : Field := { reg := .LANE_HITS_DROP, lo := 32, w := 16, ty := .ro, rst := 0x0 }
def LANE_HITS_DROP.ORDER_ERR : Field := { reg := .LANE_HITS_DROP, lo := 48, w := 16, ty := .ro, rst := 0x0 }
def LANE_SC_CNT.SC_SENT : Field := { reg := .LANE_SC_CNT, lo := 0, w := 16, ty := .ro, rst := 0x0 }
def LANE_SC_CNT.SC_RECV : Field := { reg := .LANE_SC_CNT, lo := 16, w := 16, ty := .ro, rst := 0x0 }
def LANE_SC_CNT.SC_OVERRUN : Field := { reg := .LANE_SC_CNT, lo := 32, w := 16, ty := .ro, rst := 0x0 }
def LANE_SC_CNT.TICK_SKIP : Field := { reg := .LANE_SC_CNT, lo := 48, w := 16, ty := .ro, rst := 0x0 }
def LANE_TX_CNT.ACCEPTS_SENT : Field := { reg := .LANE_TX_CNT, lo := 0, w := 32, ty := .ro, rst := 0x0 }
def LANE_TX_CNT.ACC_DROP : Field := { reg := .LANE_TX_CNT, lo := 32, w := 16, ty := .ro, rst := 0x0 }
def LANE_TX_CNT.CMD_SENT : Field := { reg := .LANE_TX_CNT, lo := 48, w := 16, ty := .ro, rst := 0x0 }
def LANE_SC_TXBUF.WORD : Field := { reg := .LANE_SC_TXBUF, lo := 0, w := 64, ty := .rw, rst := 0x0 }
def LANE_SC_RXBUF.WORD : Field := { reg := .LANE_SC_RXBUF, lo := 0, w := 64, ty := .ro, rst := 0x0 }
def CTX_CFG.FLIP_LEAD : Field := { reg := .CTX_CFG, lo := 0, w := 16, ty := .rw, rst := 0x10, enc := .range 2 65535 }
def CTX_CFG.MERGE_HOLD : Field := { reg := .CTX_CFG, lo := 32, w := 20, ty := .rw, rst := 0x10000, enc := .range 1 1048575 }
def CTX_STATUS.READY : Field := { reg := .CTX_STATUS, lo := 0, w := 1, ty := .ro, rst := 0x0 }
def CTX_STATUS.OVL_USED : Field := { reg := .CTX_STATUS, lo := 16, w := 17, ty := .ro, rst := 0x0 }
def CTX_STATUS.SLOTS_BUSY : Field := { reg := .CTX_STATUS, lo := 33, w := 7, ty := .ro, rst := 0x0 }
def CTX_STATUS.EVT_STALE : Field := { reg := .CTX_STATUS, lo := 48, w := 1, ty := .w1c, rst := 0x0 }
def CTX_STATUS.EVT_FLIP_MOVED : Field := { reg := .CTX_STATUS, lo := 49, w := 1, ty := .w1c, rst := 0x0 }
def CTX_STATUS.EVT_SPOOF : Field := { reg := .CTX_STATUS, lo := 50, w := 1, ty := .w1c, rst := 0x0 }
def CTX_STATUS.EVT_BACKLOG : Field := { reg := .CTX_STATUS, lo := 51, w := 1, ty := .w1c, rst := 0x0 }
def CTX_STATUS.EVT_FLIP : Field := { reg := .CTX_STATUS, lo := 52, w := 1, ty := .w1c, rst := 0x0 }
def CTX_CNT0.STALE_VIEW : Field := { reg := .CTX_CNT0, lo := 0, w := 32, ty := .ro, rst := 0x0 }
def CTX_CNT0.FLIP_MOVED : Field := { reg := .CTX_CNT0, lo := 32, w := 16, ty := .ro, rst := 0x0 }
def CTX_CNT0.SPOOF : Field := { reg := .CTX_CNT0, lo := 48, w := 16, ty := .ro, rst := 0x0 }
def CTX_CNT1.FLIPS : Field := { reg := .CTX_CNT1, lo := 0, w := 32, ty := .ro, rst := 0x0 }
def CTX_CNT1.STALE : Field := { reg := .CTX_CNT1, lo := 32, w := 16, ty := .ro, rst := 0x0 }
def CTX_BANK_WAIT.WAIT : Field := { reg := .CTX_BANK_WAIT, lo := 0, w := 64, ty := .ro, rst := 0x0 }
def CTX_EPOCH.STATE : Field := { reg := .CTX_EPOCH, lo := 0, w := 3, ty := .ro, rst := 0x0 }
def CTX_EPOCH.OWNER : Field := { reg := .CTX_EPOCH, lo := 8, w := 8, ty := .ro, rst := 0x0 }
def CTX_EPOCH.ROLE_EPOCH : Field := { reg := .CTX_EPOCH, lo := 16, w := 16, ty := .ro, rst := 0x0 }
def CTX_EPOCH.ENTRIES : Field := { reg := .CTX_EPOCH, lo := 32, w := 17, ty := .ro, rst := 0x0 }
def CTX_EPOCH.FLIP_MOVED : Field := { reg := .CTX_EPOCH, lo := 49, w := 1, ty := .ro, rst := 0x0 }
def CTX_EPOCH_BEAT.F : Field := { reg := .CTX_EPOCH_BEAT, lo := 0, w := 64, ty := .ro, rst := 0x0 }
def CTX_BANK_OVL.USED : Field := { reg := .CTX_BANK_OVL, lo := 0, w := 10, ty := .ro, rst := 0x0 }
def CTX_LANE_DROP.DROPS : Field := { reg := .CTX_LANE_DROP, lo := 0, w := 32, ty := .ro, rst := 0x0 }
def TRG_CFG.CLOSE_MAX : Field := { reg := .TRG_CFG, lo := 0, w := 9, ty := .rw, rst := 0x100, enc := .range 1 448 }
def TRG_CFG.SWAP_LEAD : Field := { reg := .TRG_CFG, lo := 16, w := 16, ty := .rw, rst := 0x40, enc := .range 16 65535 }
def TRG_STATUS.READY : Field := { reg := .TRG_STATUS, lo := 0, w := 1, ty := .ro, rst := 0x0 }
def TRG_STATUS.LOOKAHEAD : Field := { reg := .TRG_STATUS, lo := 4, w := 4, ty := .ro, rst := 0x0 }
def TRG_STATUS.EVT_SWAP_MOVED : Field := { reg := .TRG_STATUS, lo := 32, w := 1, ty := .w1c, rst := 0x0 }
def TRG_STATUS.EVT_SPOOF : Field := { reg := .TRG_STATUS, lo := 33, w := 1, ty := .w1c, rst := 0x0 }
def TRG_STATUS.EVT_GUEST_LATE : Field := { reg := .TRG_STATUS, lo := 34, w := 1, ty := .w1c, rst := 0x0 }
def TRG_STATUS.EVT_SK_LATE : Field := { reg := .TRG_STATUS, lo := 35, w := 1, ty := .w1c, rst := 0x0 }
def TRG_CNT0.SPOOF : Field := { reg := .TRG_CNT0, lo := 0, w := 16, ty := .ro, rst := 0x0 }
def TRG_CNT0.STALE : Field := { reg := .TRG_CNT0, lo := 16, w := 16, ty := .ro, rst := 0x0 }
def TRG_CNT0.SWAP_MOVED : Field := { reg := .TRG_CNT0, lo := 32, w := 16, ty := .ro, rst := 0x0 }
def TRG_CNT0.SUB_MASKED : Field := { reg := .TRG_CNT0, lo := 48, w := 16, ty := .ro, rst := 0x0 }
def TRG_CNT1.GUEST_LATE : Field := { reg := .TRG_CNT1, lo := 0, w := 32, ty := .ro, rst := 0x0 }
def TRG_CNT1.CANDIDATES : Field := { reg := .TRG_CNT1, lo := 32, w := 32, ty := .ro, rst := 0x0 }
def TRG_VETO0.VETO_THROTTLE : Field := { reg := .TRG_VETO0, lo := 0, w := 32, ty := .ro, rst := 0x0 }
def TRG_VETO0.VETO_DEADTIME : Field := { reg := .TRG_VETO0, lo := 32, w := 32, ty := .ro, rst := 0x0 }
def TRG_VETO1.VETO_BUCKET : Field := { reg := .TRG_VETO1, lo := 0, w := 32, ty := .ro, rst := 0x0 }
def TRG_VETO1.ACCEPTED : Field := { reg := .TRG_VETO1, lo := 32, w := 32, ty := .ro, rst := 0x0 }
def TRG_CMB_STATE.LEVEL : Field := { reg := .TRG_CMB_STATE, lo := 0, w := 13, ty := .ro, rst := 0x0 }
def TRG_CMB_STATE.LAST_VALID : Field := { reg := .TRG_CMB_STATE, lo := 16, w := 1, ty := .ro, rst := 0x0 }
def TRG_LAST_ACC.BEAT : Field := { reg := .TRG_LAST_ACC, lo := 0, w := 64, ty := .ro, rst := 0x0 }
def TRG_UNIT_STATUS.ARMED : Field := { reg := .TRG_UNIT_STATUS, lo := 0, w := 1, ty := .ro, rst := 0x0 }
def TRG_UNIT_STATUS.MOVED : Field := { reg := .TRG_UNIT_STATUS, lo := 1, w := 1, ty := .ro, rst := 0x0 }
def TRG_UNIT_STATUS.LOOK : Field := { reg := .TRG_UNIT_STATUS, lo := 4, w := 4, ty := .ro, rst := 0x0 }
def TRG_UNIT_STATUS.OWNER : Field := { reg := .TRG_UNIT_STATUS, lo := 8, w := 8, ty := .ro, rst := 0x0 }
def TRG_UNIT_STATUS.ROLE_EPOCH : Field := { reg := .TRG_UNIT_STATUS, lo := 16, w := 16, ty := .ro, rst := 0x0 }
def TRG_UNIT_STATUS.EVT_SWAP : Field := { reg := .TRG_UNIT_STATUS, lo := 32, w := 1, ty := .w1c, rst := 0x0 }
def TRG_UNIT_STATUS.EVT_SUB_MASKED : Field := { reg := .TRG_UNIT_STATUS, lo := 33, w := 1, ty := .w1c, rst := 0x0 }
def TRG_UNIT_STATUS.EVT_OWNER : Field := { reg := .TRG_UNIT_STATUS, lo := 34, w := 1, ty := .w1c, rst := 0x0 }
def TRG_UNIT_SWAP.S : Field := { reg := .TRG_UNIT_SWAP, lo := 0, w := 64, ty := .ro, rst := 0x0 }
def TRG_UNIT_MENU.ACTIVE_ID : Field := { reg := .TRG_UNIT_MENU, lo := 0, w := 32, ty := .ro, rst := 0x0 }
def TRG_UNIT_MENU.ARMED_ID : Field := { reg := .TRG_UNIT_MENU, lo := 32, w := 32, ty := .ro, rst := 0x0 }
def TRG_UNIT_EVAL.BEAT : Field := { reg := .TRG_UNIT_EVAL, lo := 0, w := 64, ty := .ro, rst := 0x0 }
def TRG_BIT_CNT.RAW : Field := { reg := .TRG_BIT_CNT, lo := 0, w := 32, ty := .ro, rst := 0x0 }
def TRG_BIT_CNT.PASS : Field := { reg := .TRG_BIT_CNT, lo := 32, w := 32, ty := .ro, rst := 0x0 }
def TRG_SK_LATE.HITS : Field := { reg := .TRG_SK_LATE, lo := 0, w := 32, ty := .ro, rst := 0x0 }
def TIO_OUT_CTL.TRIG_DRV : Field := { reg := .TIO_OUT_CTL, lo := 0, w := 1, ty := .rw, rst := 0x0 }
def TIO_OUT_CTL.BUSY_DRV : Field := { reg := .TIO_OUT_CTL, lo := 1, w := 1, ty := .rw, rst := 0x0 }
def TIO_OUT_CTL.FWD_BUSY_IN : Field := { reg := .TIO_OUT_CTL, lo := 2, w := 1, ty := .rw, rst := 0x1 }
def TIO_OUT_CTL.THR_BUSY_IN : Field := { reg := .TIO_OUT_CTL, lo := 3, w := 1, ty := .rw, rst := 0x1 }
def TIO_OUT_CTL.FORCE_BUSY : Field := { reg := .TIO_OUT_CTL, lo := 4, w := 1, ty := .rw, rst := 0x0 }
def TIO_OUT_CTL.FORCE_THROTTLE : Field := { reg := .TIO_OUT_CTL, lo := 5, w := 1, ty := .rw, rst := 0x0 }
def TIO_OUT_CTL.TRIG_MASK : Field := { reg := .TIO_OUT_CTL, lo := 8, w := 8, ty := .rw, rst := 0xFF }
def TIO_OUT_CTL.BUSY_HOLD : Field := { reg := .TIO_OUT_CTL, lo := 32, w := 16, ty := .rw, rst := 0x0 }
def TIO_STATUS.BUSY : Field := { reg := .TIO_STATUS, lo := 0, w := 1, ty := .ro, rst := 0x1 }
def TIO_STATUS.THROTTLE : Field := { reg := .TIO_STATUS, lo := 1, w := 1, ty := .ro, rst := 0x0 }
def TIO_STATUS.C_RUN : Field := { reg := .TIO_STATUS, lo := 8, w := 1, ty := .ro, rst := 0x1 }
def TIO_STATUS.C_BEAT : Field := { reg := .TIO_STATUS, lo := 9, w := 1, ty := .ro, rst := 0x1 }
def TIO_STATUS.C_EVB : Field := { reg := .TIO_STATUS, lo := 10, w := 1, ty := .ro, rst := 0x0 }
def TIO_STATUS.C_BUSY_IN : Field := { reg := .TIO_STATUS, lo := 11, w := 1, ty := .ro, rst := 0x0 }
def TIO_STATUS.C_FORCE : Field := { reg := .TIO_STATUS, lo := 12, w := 1, ty := .ro, rst := 0x0 }
def TIO_STATUS.C_HOLD : Field := { reg := .TIO_STATUS, lo := 13, w := 1, ty := .ro, rst := 0x0 }
def TIO_BUSY_BEATS.BEATS : Field := { reg := .TIO_BUSY_BEATS, lo := 0, w := 64, ty := .ro, rst := 0x0 }
def TIO_THR_BEATS.BEATS : Field := { reg := .TIO_THR_BEATS, lo := 0, w := 64, ty := .ro, rst := 0x0 }
def TIO_TRIG_CNT.PULSES : Field := { reg := .TIO_TRIG_CNT, lo := 0, w := 64, ty := .ro, rst := 0x0 }
def TIO_IN_CFG.EN : Field := { reg := .TIO_IN_CFG, lo := 0, w := 1, ty := .rw, rst := 0x0 }
def TIO_IN_CFG.INV : Field := { reg := .TIO_IN_CFG, lo := 1, w := 1, ty := .rw, rst := 0x0 }
def TIO_IN_CFG.MODE : Field := { reg := .TIO_IN_CFG, lo := 2, w := 1, ty := .rw, rst := 0x0 }
def TIO_IN_CFG.STUCK_LIM : Field := { reg := .TIO_IN_CFG, lo := 8, w := 22, ty := .rw, rst := 0x2710, enc := .range 1 4000000 }
def TIO_IN_CFG.CHAT_LIM : Field := { reg := .TIO_IN_CFG, lo := 32, w := 16, ty := .rw, rst := 0x3E8 }
def TIO_IN_STATUS.LEVEL : Field := { reg := .TIO_IN_STATUS, lo := 0, w := 1, ty := .ro, rst := 0x0 }
def TIO_IN_STATUS.HONOURED : Field := { reg := .TIO_IN_STATUS, lo := 1, w := 1, ty := .ro, rst := 0x0 }
def TIO_IN_STATUS.STUCK : Field := { reg := .TIO_IN_STATUS, lo := 2, w := 1, ty := .ro, rst := 0x0 }
def TIO_IN_STATUS.CHATTER : Field := { reg := .TIO_IN_STATUS, lo := 3, w := 1, ty := .ro, rst := 0x0 }
def TIO_IN_STATUS.MASKED : Field := { reg := .TIO_IN_STATUS, lo := 4, w := 1, ty := .ro, rst := 0x0 }
def TIO_IN_STATUS.EVT_STUCK : Field := { reg := .TIO_IN_STATUS, lo := 32, w := 1, ty := .w1c, rst := 0x0 }
def TIO_IN_STATUS.EVT_CHATTER : Field := { reg := .TIO_IN_STATUS, lo := 33, w := 1, ty := .w1c, rst := 0x0 }
def TIO_IN_STATUS.EVT_CLEAR : Field := { reg := .TIO_IN_STATUS, lo := 34, w := 1, ty := .w1c, rst := 0x0 }
def TIO_IN_CTL.REARM : Field := { reg := .TIO_IN_CTL, lo := 0, w := 1, ty := .wo, rst := 0x0 }
def TIO_IN_CNT.EDGES : Field := { reg := .TIO_IN_CNT, lo := 0, w := 32, ty := .ro, rst := 0x0 }
def TIO_IN_CNT.STUCKS : Field := { reg := .TIO_IN_CNT, lo := 32, w := 16, ty := .ro, rst := 0x0 }
def TIO_IN_CNT.CHATTERS : Field := { reg := .TIO_IN_CNT, lo := 48, w := 16, ty := .ro, rst := 0x0 }
def EVB_CFG.EN : Field := { reg := .EVB_CFG, lo := 0, w := 1, ty := .rw, rst := 0x0 }
def EVB_CFG.ASHIFT : Field := { reg := .EVB_CFG, lo := 4, w := 4, ty := .rw, rst := 0x4, enc := .range 4 12 }
def EVB_STATUS.READY : Field := { reg := .EVB_STATUS, lo := 0, w := 1, ty := .ro, rst := 0x0 }
def EVB_STATUS.BP : Field := { reg := .EVB_STATUS, lo := 1, w := 1, ty := .ro, rst := 0x0 }
def EVB_STATUS.CTX_FREE : Field := { reg := .EVB_STATUS, lo := 16, w := 17, ty := .ro, rst := 0x0 }
def EVB_STATUS.FIFO : Field := { reg := .EVB_STATUS, lo := 33, w := 9, ty := .ro, rst := 0x0 }
def EVB_STATUS.EVT_ACC_LOST : Field := { reg := .EVB_STATUS, lo := 48, w := 1, ty := .w1c, rst := 0x0 }
def EVB_STATUS.EVT_BP : Field := { reg := .EVB_STATUS, lo := 49, w := 1, ty := .w1c, rst := 0x0 }
def EVB_STATUS.EVT_SPOOF : Field := { reg := .EVB_STATUS, lo := 50, w := 1, ty := .w1c, rst := 0x0 }
def EVB_STATUS.EVT_REFUSED : Field := { reg := .EVB_STATUS, lo := 51, w := 1, ty := .w1c, rst := 0x0 }
def EVB_STATUS.EVT_GUEST_STALE : Field := { reg := .EVB_STATUS, lo := 52, w := 1, ty := .w1c, rst := 0x0 }
def EVB_BP_CFG.CTX_LOW : Field := { reg := .EVB_BP_CFG, lo := 0, w := 16, ty := .rw, rst := 0x1000 }
def EVB_BP_CFG.CTX_HIGH : Field := { reg := .EVB_BP_CFG, lo := 16, w := 16, ty := .rw, rst := 0x2000 }
def EVB_BP_CFG.BP_AGE : Field := { reg := .EVB_BP_CFG, lo := 32, w := 20, ty := .rw, rst := 0x3E8 }
def EVB_EVN_NEXT.EVN : Field := { reg := .EVB_EVN_NEXT, lo := 0, w := 64, ty := .rw, rst := 0x0 }
def EVB_CNT0.ACC_LOST : Field := { reg := .EVB_CNT0, lo := 0, w := 32, ty := .ro, rst := 0x0 }
def EVB_CNT0.ACC_OFF : Field := { reg := .EVB_CNT0, lo := 32, w := 32, ty := .ro, rst := 0x0 }
def EVB_CNT1.POSTED : Field := { reg := .EVB_CNT1, lo := 0, w := 64, ty := .ro, rst := 0x0 }
def EVB_CNT2.SPOOF : Field := { reg := .EVB_CNT2, lo := 0, w := 16, ty := .ro, rst := 0x0 }
def EVB_CNT2.GUEST_STALE : Field := { reg := .EVB_CNT2, lo := 16, w := 16, ty := .ro, rst := 0x0 }
def EVB_CNT2.QDROP : Field := { reg := .EVB_CNT2, lo := 32, w := 16, ty := .ro, rst := 0x0 }
def EVB_CNT2.BAD_DB : Field := { reg := .EVB_CNT2, lo := 48, w := 16, ty := .ro, rst := 0x0 }
def EVB_HIST_CFG.EN : Field := { reg := .EVB_HIST_CFG, lo := 0, w := 1, ty := .rw, rst := 0x0 }
def EVB_HIST_CFG.SIZE : Field := { reg := .EVB_HIST_CFG, lo := 4, w := 5, ty := .rw, rst := 0x14, enc := .range 20 30 }
def EVB_HIST_BASE.BASE : Field := { reg := .EVB_HIST_BASE, lo := 20, w := 26, ty := .rw, rst := 0x0 }
def EVB_HIST_WPTR.WPTR : Field := { reg := .EVB_HIST_WPTR, lo := 0, w := 64, ty := .ro, rst := 0x0 }
def EVB_HIST_HW.HW : Field := { reg := .EVB_HIST_HW, lo := 0, w := 64, ty := .ro, rst := 0x0 }
def EVB_ROUTE_CFG.EN : Field := { reg := .EVB_ROUTE_CFG, lo := 0, w := 1, ty := .rw, rst := 0x0 }
def EVB_ROUTE_CFG.POOL : Field := { reg := .EVB_ROUTE_CFG, lo := 2, w := 3, ty := .rw, rst := 0x0 }
def EVB_ROUTE_CFG.GUEST : Field := { reg := .EVB_ROUTE_CFG, lo := 5, w := 2, ty := .rw, rst := 0x0 }
def EVB_ROUTE_CFG.OWNER : Field := { reg := .EVB_ROUTE_CFG, lo := 8, w := 8, ty := .rw, rst := 0x0 }
def EVB_ROUTE_CFG.PRE : Field := { reg := .EVB_ROUTE_CFG, lo := 16, w := 11, ty := .rw, rst := 0x0, enc := .range 0 1024 }
def EVB_ROUTE_CFG.POST : Field := { reg := .EVB_ROUTE_CFG, lo := 32, w := 11, ty := .rw, rst := 0x0, enc := .range 0 1024 }
def EVB_ROUTE_CFG.MAXENT : Field := { reg := .EVB_ROUTE_CFG, lo := 48, w := 16, ty := .rw, rst := 0x400, enc := .range 1 65535 }
def EVB_ROUTE_TMO.TIMEOUT : Field := { reg := .EVB_ROUTE_TMO, lo := 0, w := 20, ty := .rw, rst := 0x64, enc := .range 1 1000000 }
def EVB_ROUTE_LANES.MASK : Field := { reg := .EVB_ROUTE_LANES, lo := 0, w := 64, ty := .rw, rst := 0x0 }
def EVB_ROUTE_STATUS.NSUB : Field := { reg := .EVB_ROUTE_STATUS, lo := 0, w := 7, ty := .ro, rst := 0x0 }
def EVB_ROUTE_STATUS.EVT_NOROUTE : Field := { reg := .EVB_ROUTE_STATUS, lo := 32, w := 1, ty := .w1c, rst := 0x0 }
def EVB_ROUTE_STATUS.EVT_REFUSED : Field := { reg := .EVB_ROUTE_STATUS, lo := 33, w := 1, ty := .w1c, rst := 0x0 }
def EVB_ROUTE_CNT.NOROUTE : Field := { reg := .EVB_ROUTE_CNT, lo := 0, w := 32, ty := .ro, rst := 0x0 }
def EVB_ROUTE_CNT.DEGRADED : Field := { reg := .EVB_ROUTE_CNT, lo := 32, w := 32, ty := .ro, rst := 0x0 }
def EVB_ROUTE_EV.POSTED : Field := { reg := .EVB_ROUTE_EV, lo := 0, w := 64, ty := .ro, rst := 0x0 }
def EVB_POOL_BASE.BASE : Field := { reg := .EVB_POOL_BASE, lo := 30, w := 16, ty := .rw, rst := 0x0 }
def EVB_POOL_CFG.EN : Field := { reg := .EVB_POOL_CFG, lo := 0, w := 1, ty := .rw, rst := 0x0 }
def EVB_POOL_CFG.PLATES : Field := { reg := .EVB_POOL_CFG, lo := 4, w := 12, ty := .rw, rst := 0x1, enc := .range 1 2048 }
def EVB_POOL_CFG.LOW : Field := { reg := .EVB_POOL_CFG, lo := 32, w := 16, ty := .rw, rst := 0x400 }
def EVB_POOL_CFG.HIGH : Field := { reg := .EVB_POOL_CFG, lo := 48, w := 16, ty := .rw, rst := 0x800 }
def EVB_POOL_STATUS.USED : Field := { reg := .EVB_POOL_STATUS, lo := 0, w := 42, ty := .ro, rst := 0x0 }
def EVB_POOL_STATUS.EVT_LOW : Field := { reg := .EVB_POOL_STATUS, lo := 48, w := 1, ty := .w1c, rst := 0x0 }
def EVB_EVQ_BASE.BASE : Field := { reg := .EVB_EVQ_BASE, lo := 0, w := 46, ty := .rw, rst := 0x0 }
def EVB_EVQ_CFG.EN : Field := { reg := .EVB_EVQ_CFG, lo := 0, w := 1, ty := .rw, rst := 0x0 }
def EVB_EVQ_CFG.QSIZE : Field := { reg := .EVB_EVQ_CFG, lo := 4, w := 4, ty := .rw, rst := 0x4, enc := .range 4 15 }
def EVB_EVQ_CFG.OWNER : Field := { reg := .EVB_EVQ_CFG, lo := 8, w := 8, ty := .rw, rst := 0x0 }
def EVB_EVQ_CFG.ROLE_EPOCH : Field := { reg := .EVB_EVQ_CFG, lo := 16, w := 16, ty := .ro, rst := 0x0 }
def EVB_EVQ_IDX.PI : Field := { reg := .EVB_EVQ_IDX, lo := 0, w := 16, ty := .ro, rst := 0x0 }
def EVB_EVQ_IDX.CI : Field := { reg := .EVB_EVQ_IDX, lo := 16, w := 16, ty := .ro, rst := 0x0 }
def EVB_EVQ_IDX.BAD_DB : Field := { reg := .EVB_EVQ_IDX, lo := 32, w := 16, ty := .ro, rst := 0x0 }
def EVB_EVQ_IDX.STALE : Field := { reg := .EVB_EVQ_IDX, lo := 48, w := 16, ty := .ro, rst := 0x0 }
def CORE_CTL.RUN : Field := { reg := .CORE_CTL, lo := 0, w := 1, ty := .srw, rst := 0x0 }
def CORE_CTL.CORE_RESET : Field := { reg := .CORE_CTL, lo := 1, w := 1, ty := .srw, rst := 0x0 }
def CORE_RVBAR.ADDR : Field := { reg := .CORE_RVBAR, lo := 2, w := 44, ty := .srw, rst := 0x0 }
def CORE_STATUS.STATE : Field := { reg := .CORE_STATUS, lo := 0, w := 3, ty := .ro, rst := 0x1 }
def CORE_STATUS.NS : Field := { reg := .CORE_STATUS, lo := 3, w := 1, ty := .ro, rst := 0x0 }
def CORE_STATUS.PRIV : Field := { reg := .CORE_STATUS, lo := 4, w := 2, ty := .ro, rst := 0x3 }
def CORE_STATUS.LOOP_FAULT : Field := { reg := .CORE_STATUS, lo := 6, w := 1, ty := .ro, rst := 0x0 }
def CORE_STATUS.PRF_OPEN : Field := { reg := .CORE_STATUS, lo := 7, w := 1, ty := .ro, rst := 0x0 }
def CORE_MTIMECMP.CMP : Field := { reg := .CORE_MTIMECMP, lo := 0, w := 64, ty := .srw, rst := 0xFFFFFFFFFFFFFFFF }
def CORE_MSIP.MSIP : Field := { reg := .CORE_MSIP, lo := 0, w := 1, ty := .srw, rst := 0x0 }
def CORE_SSIP_SET.SSIP : Field := { reg := .CORE_SSIP_SET, lo := 0, w := 1, ty := .w1s, rst := 0x0 }
def CORE_CLAIM_M.SOURCE : Field := { reg := .CORE_CLAIM_M, lo := 0, w := 10, ty := .ro, rst := 0x0 }
def CORE_CLAIM_M.VALID : Field := { reg := .CORE_CLAIM_M, lo := 15, w := 1, ty := .ro, rst := 0x0 }
def CORE_CLAIM_S.SOURCE : Field := { reg := .CORE_CLAIM_S, lo := 0, w := 10, ty := .ro, rst := 0x0 }
def CORE_CLAIM_S.VALID : Field := { reg := .CORE_CLAIM_S, lo := 15, w := 1, ty := .ro, rst := 0x0 }
def CORE_IRQ_CNT.FIFO_FULL : Field := { reg := .CORE_IRQ_CNT, lo := 0, w := 32, ty := .ro, rst := 0x0 }
def L2_CTL.EN : Field := { reg := .L2_CTL, lo := 0, w := 1, ty := .srw, rst := 0x1 }
def L2_CTL.FLUSH : Field := { reg := .L2_CTL, lo := 1, w := 1, ty := .srw, rst := 0x0 }
def L2_CTL.INV : Field := { reg := .L2_CTL, lo := 2, w := 1, ty := .srw, rst := 0x0 }
def L2_STATUS.DIRTY : Field := { reg := .L2_STATUS, lo := 0, w := 16, ty := .ro, rst := 0x0 }
def L2_STATUS.VALID : Field := { reg := .L2_STATUS, lo := 16, w := 16, ty := .ro, rst := 0x0 }
def L2_STATUS.READY : Field := { reg := .L2_STATUS, lo := 32, w := 1, ty := .ro, rst := 0x0 }
def L2_STATUS.ENABLED : Field := { reg := .L2_STATUS, lo := 33, w := 1, ty := .ro, rst := 0x1 }
def L2_STATUS.LB_USED : Field := { reg := .L2_STATUS, lo := 34, w := 5, ty := .ro, rst := 0x0 }
def L2_STATUS.DISABLE_REFUSED : Field := { reg := .L2_STATUS, lo := 40, w := 1, ty := .w1c, rst := 0x0 }
def L2_STATUS.INV_REFUSED : Field := { reg := .L2_STATUS, lo := 41, w := 1, ty := .w1c, rst := 0x0 }
def L2_HITS.HITS : Field := { reg := .L2_HITS, lo := 0, w := 64, ty := .ro, rst := 0x0 }
def L2_MISSES.MISSES : Field := { reg := .L2_MISSES, lo := 0, w := 64, ty := .ro, rst := 0x0 }
def L2_CNT0.SNOOPS : Field := { reg := .L2_CNT0, lo := 0, w := 32, ty := .ro, rst := 0x0 }
def L2_CNT0.SNOOP_LB : Field := { reg := .L2_CNT0, lo := 32, w := 16, ty := .ro, rst := 0x0 }
def L2_CNT0.WAKES : Field := { reg := .L2_CNT0, lo := 48, w := 16, ty := .ro, rst := 0x0 }
def DIR_STATUS.READY : Field := { reg := .DIR_STATUS, lo := 0, w := 32, ty := .ro, rst := 0x0 }
def DIR_CL_FENCED.MASK : Field := { reg := .DIR_CL_FENCED, lo := 0, w := 48, ty := .ro, rst := 0x0 }
def DIR_PROBE_ADDR.LINE : Field := { reg := .DIR_PROBE_ADDR, lo := 7, w := 39, ty := .srw, rst := 0x0 }
def DIR_PROBE_DATA.STATE : Field := { reg := .DIR_PROBE_DATA, lo := 0, w := 2, ty := .ro, rst := 0x0 }
def DIR_PROBE_DATA.BCAST : Field := { reg := .DIR_PROBE_DATA, lo := 2, w := 1, ty := .ro, rst := 0x0 }
def DIR_PROBE_DATA.PIN : Field := { reg := .DIR_PROBE_DATA, lo := 3, w := 1, ty := .ro, rst := 0x0 }
def DIR_PROBE_DATA.PV : Field := { reg := .DIR_PROBE_DATA, lo := 4, w := 4, ty := .ro, rst := 0x0 }
def DIR_PROBE_DATA.P0 : Field := { reg := .DIR_PROBE_DATA, lo := 8, w := 6, ty := .ro, rst := 0x0 }
def DIR_PROBE_DATA.P1 : Field := { reg := .DIR_PROBE_DATA, lo := 14, w := 6, ty := .ro, rst := 0x0 }
def DIR_PROBE_DATA.P2 : Field := { reg := .DIR_PROBE_DATA, lo := 20, w := 6, ty := .ro, rst := 0x0 }
def DIR_PROBE_DATA.P3 : Field := { reg := .DIR_PROBE_DATA, lo := 26, w := 6, ty := .ro, rst := 0x0 }
def DIR_PROBE_DATA.WAY : Field := { reg := .DIR_PROBE_DATA, lo := 32, w := 4, ty := .ro, rst := 0x0 }
def DIR_PROBE_DATA.HIT : Field := { reg := .DIR_PROBE_DATA, lo := 36, w := 1, ty := .ro, rst := 0x0 }
def DIR_PROBE_DATA.BUSY : Field := { reg := .DIR_PROBE_DATA, lo := 37, w := 1, ty := .ro, rst := 0x0 }
def DIR_PROBE_DATA.DONE : Field := { reg := .DIR_PROBE_DATA, lo := 38, w := 1, ty := .ro, rst := 0x0 }
def DIR_SLICE_STATUS.VALID : Field := { reg := .DIR_SLICE_STATUS, lo := 0, w := 18, ty := .ro, rst := 0x0 }
def DIR_SLICE_STATUS.PENDING : Field := { reg := .DIR_SLICE_STATUS, lo := 32, w := 9, ty := .ro, rst := 0x0 }
def DIR_SLICE_STATUS.EVT_PIN_EVICT : Field := { reg := .DIR_SLICE_STATUS, lo := 48, w := 1, ty := .w1c, rst := 0x0 }
def DIR_SLICE_STATUS.EVT_SWEEP : Field := { reg := .DIR_SLICE_STATUS, lo := 49, w := 1, ty := .w1c, rst := 0x0 }
def DIR_SLICE_STATUS.EVT_POISONED : Field := { reg := .DIR_SLICE_STATUS, lo := 50, w := 1, ty := .w1c, rst := 0x0 }
def DIR_SLICE_CNT0.REQUESTS : Field := { reg := .DIR_SLICE_CNT0, lo := 0, w := 64, ty := .ro, rst := 0x0 }
def DIR_SLICE_CNT1.SNOOPS : Field := { reg := .DIR_SLICE_CNT1, lo := 0, w := 32, ty := .ro, rst := 0x0 }
def DIR_SLICE_CNT1.BCAST_SNOOPS : Field := { reg := .DIR_SLICE_CNT1, lo := 32, w := 32, ty := .ro, rst := 0x0 }
def DIR_SLICE_CNT2.EVICTIONS : Field := { reg := .DIR_SLICE_CNT2, lo := 0, w := 32, ty := .ro, rst := 0x0 }
def DIR_SLICE_CNT2.PIN_EVICTIONS : Field := { reg := .DIR_SLICE_CNT2, lo := 32, w := 16, ty := .ro, rst := 0x0 }
def DIR_SLICE_CNT2.STALE_NOTICES : Field := { reg := .DIR_SLICE_CNT2, lo := 48, w := 16, ty := .ro, rst := 0x0 }
def DIR_SLICE_CNT3.ORDERED : Field := { reg := .DIR_SLICE_CNT3, lo := 0, w := 32, ty := .ro, rst := 0x0 }
def DIR_SLICE_CNT3.POISONED : Field := { reg := .DIR_SLICE_CNT3, lo := 32, w := 16, ty := .ro, rst := 0x0 }
def DIR_SLICE_CNT3.OWNER_MISS : Field := { reg := .DIR_SLICE_CNT3, lo := 48, w := 16, ty := .ro, rst := 0x0 }
def PRF_CFG.DEFER_BUDGET : Field := { reg := .PRF_CFG, lo := 0, w := 16, ty := .srw, rst := 0x14 }
def PRF_CFG.HOLD_MAX : Field := { reg := .PRF_CFG, lo := 16, w := 16, ty := .srw, rst := 0xA, enc := .range 1 65535 }
def PRF_CFG.GROUP_TMO : Field := { reg := .PRF_CFG, lo := 32, w := 20, ty := .srw, rst := 0x64, enc := .range 1 1000000 }
def PRF_STATUS.READY : Field := { reg := .PRF_STATUS, lo := 0, w := 1, ty := .ro, rst := 0x0 }
def PRF_STATUS.GROUPS_USED : Field := { reg := .PRF_STATUS, lo := 16, w := 13, ty := .ro, rst := 0x0 }
def PRF_STATUS.EVT_TIMEOUT : Field := { reg := .PRF_STATUS, lo := 32, w := 1, ty := .w1c, rst := 0x0 }
def PRF_STATUS.EVT_DENIED : Field := { reg := .PRF_STATUS, lo := 33, w := 1, ty := .w1c, rst := 0x0 }
def PRF_STATUS.EVT_STALE : Field := { reg := .PRF_STATUS, lo := 34, w := 1, ty := .w1c, rst := 0x0 }
def PRF_STATUS.EVT_QUOTA : Field := { reg := .PRF_STATUS, lo := 35, w := 1, ty := .w1c, rst := 0x0 }
def PRF_STATUS.EVT_OVERFLOW : Field := { reg := .PRF_STATUS, lo := 36, w := 1, ty := .w1c, rst := 0x0 }
def PRF_CNT0.GROUP_COMMITS : Field := { reg := .PRF_CNT0, lo := 0, w := 64, ty := .ro, rst := 0x0 }
def PRF_CNT1.SINGLE_COMMITS : Field := { reg := .PRF_CNT1, lo := 0, w := 64, ty := .ro, rst := 0x0 }
def PRF_CNT2.TIMEOUTS : Field := { reg := .PRF_CNT2, lo := 0, w := 16, ty := .ro, rst := 0x0 }
def PRF_CNT2.STALE : Field := { reg := .PRF_CNT2, lo := 16, w := 16, ty := .ro, rst := 0x0 }
def PRF_CNT2.DENIED : Field := { reg := .PRF_CNT2, lo := 32, w := 16, ty := .ro, rst := 0x0 }
def PRF_CNT2.QUOTA : Field := { reg := .PRF_CNT2, lo := 48, w := 16, ty := .ro, rst := 0x0 }
def PRF_CNT3.DB_RELEASED : Field := { reg := .PRF_CNT3, lo := 0, w := 64, ty := .ro, rst := 0x0 }
def PRF_CAUSE_CNT.ABORTS : Field := { reg := .PRF_CAUSE_CNT, lo := 0, w := 64, ty := .ro, rst := 0x0 }
def PRF_SLICE_GRP.LIMIT : Field := { reg := .PRF_SLICE_GRP, lo := 0, w := 13, ty := .rw, rst := 0x1000, enc := .range 0 4096 }
def PRF_SLICE_GRP.USED : Field := { reg := .PRF_SLICE_GRP, lo := 16, w := 13, ty := .ro, rst := 0x0 }
def PRF_SLICE_GRP.OVER_QUOTA : Field := { reg := .PRF_SLICE_GRP, lo := 32, w := 1, ty := .ro, rst := 0x0 }
def PRF_GRP_STATUS.STATE : Field := { reg := .PRF_GRP_STATUS, lo := 0, w := 2, ty := .ro, rst := 0x0 }
def PRF_GRP_STATUS.NS : Field := { reg := .PRF_GRP_STATUS, lo := 3, w := 1, ty := .ro, rst := 0x0 }
def PRF_GRP_STATUS.SLICE : Field := { reg := .PRF_GRP_STATUS, lo := 8, w := 8, ty := .ro, rst := 0x0 }
def PRF_GRP_STATUS.ROLE_EPOCH : Field := { reg := .PRF_GRP_STATUS, lo := 16, w := 16, ty := .ro, rst := 0x0 }
def PRF_GRP_STATUS.EXPECT : Field := { reg := .PRF_GRP_STATUS, lo := 32, w := 7, ty := .ro, rst := 0x0 }
def PRF_GRP_STATUS.JOINED : Field := { reg := .PRF_GRP_STATUS, lo := 40, w := 7, ty := .ro, rst := 0x0 }
def PRF_GRP_STATUS.SEALED : Field := { reg := .PRF_GRP_STATUS, lo := 48, w := 7, ty := .ro, rst := 0x0 }
def PRF_GRP_STATUS.LAST_CAUSE : Field := { reg := .PRF_GRP_STATUS, lo := 56, w := 8, ty := .ro, rst := 0x0 }
def PRF_GRP_INFO.ALLOC_CORE : Field := { reg := .PRF_GRP_INFO, lo := 0, w := 10, ty := .ro, rst := 0x0 }
def PRF_GRP_INFO.LAST_ABORT_CORE : Field := { reg := .PRF_GRP_INFO, lo := 16, w := 10, ty := .ro, rst := 0x0 }
def PRF_GRP_INFO.DB_HELD : Field := { reg := .PRF_GRP_INFO, lo := 32, w := 9, ty := .ro, rst := 0x0 }
def STP_CFG.ENG_EN : Field := { reg := .STP_CFG, lo := 0, w := 16, ty := .rw, rst := 0xFFFF }
def STP_STATUS.READY : Field := { reg := .STP_STATUS, lo := 0, w := 1, ty := .ro, rst := 0x0 }
def STP_STATUS.BUSY : Field := { reg := .STP_STATUS, lo := 16, w := 16, ty := .ro, rst := 0x0 }
def STP_STATUS.EVT_SPOOF : Field := { reg := .STP_STATUS, lo := 32, w := 1, ty := .w1c, rst := 0x0 }
def STP_STATUS.EVT_QUOTA : Field := { reg := .STP_STATUS, lo := 33, w := 1, ty := .w1c, rst := 0x0 }
def STP_CNT0.JOBS_OK : Field := { reg := .STP_CNT0, lo := 0, w := 32, ty := .ro, rst := 0x0 }
def STP_CNT0.JOBS_FAILED : Field := { reg := .STP_CNT0, lo := 32, w := 32, ty := .ro, rst := 0x0 }
def STP_CNT1.BLOCKS : Field := { reg := .STP_CNT1, lo := 0, w := 64, ty := .ro, rst := 0x0 }
def STP_CNT2.CLIPS : Field := { reg := .STP_CNT2, lo := 0, w := 32, ty := .ro, rst := 0x0 }
def STP_CNT2.SPOOF : Field := { reg := .STP_CNT2, lo := 32, w := 16, ty := .ro, rst := 0x0 }
def STP_CNT2.OUT_OF_SPACE : Field := { reg := .STP_CNT2, lo := 48, w := 16, ty := .ro, rst := 0x0 }
def STP_ENG_STATUS.STATE : Field := { reg := .STP_ENG_STATUS, lo := 0, w := 2, ty := .ro, rst := 0x0 }
def STP_ENG_STATUS.SLICE : Field := { reg := .STP_ENG_STATUS, lo := 8, w := 8, ty := .ro, rst := 0x0 }
def STP_ENG_STATUS.RING : Field := { reg := .STP_ENG_STATUS, lo := 16, w := 13, ty := .ro, rst := 0x0 }
def STP_ENG_STATUS.EVT_FAIL : Field := { reg := .STP_ENG_STATUS, lo := 32, w := 1, ty := .w1c, rst := 0x0 }
def STP_ENG_IN.BYTES : Field := { reg := .STP_ENG_IN, lo := 0, w := 64, ty := .ro, rst := 0x0 }
def STP_SLICE_SHARE.SHARE : Field := { reg := .STP_SLICE_SHARE, lo := 0, w := 5, ty := .rw, rst := 0x0, enc := .range 0 16 }
def STP_SLICE_SHARE.USED : Field := { reg := .STP_SLICE_SHARE, lo := 8, w := 5, ty := .ro, rst := 0x0 }
def STP_SLICE_SHARE.OVER_QUOTA : Field := { reg := .STP_SLICE_SHARE, lo := 16, w := 1, ty := .ro, rst := 0x0 }
def ETH_PORT_CFG.EN : Field := { reg := .ETH_PORT_CFG, lo := 0, w := 1, ty := .rw, rst := 0x0 }
def ETH_PORT_CFG.MODE : Field := { reg := .ETH_PORT_CFG, lo := 1, w := 2, ty := .rw, rst := 0x0, enc := .range 0 2 }
def ETH_PORT_CFG.PFC_EN : Field := { reg := .ETH_PORT_CFG, lo := 3, w := 1, ty := .rw, rst := 0x1 }
def ETH_PORT_CFG.MTU : Field := { reg := .ETH_PORT_CFG, lo := 16, w := 14, ty := .rw, rst := 0x5DC, enc := .range 1500 9216 }
def ETH_PORT_CFG.PAUSE_MAX : Field := { reg := .ETH_PORT_CFG, lo := 32, w := 16, ty := .rw, rst := 0x2710, enc := .range 1 65535 }
def ETH_PORT_STATUS.READY : Field := { reg := .ETH_PORT_STATUS, lo := 0, w := 1, ty := .ro, rst := 0x0 }
def ETH_PORT_STATUS.LINK : Field := { reg := .ETH_PORT_STATUS, lo := 4, w := 4, ty := .ro, rst := 0x0 }
def ETH_PORT_STATUS.EVT_LINK : Field := { reg := .ETH_PORT_STATUS, lo := 32, w := 1, ty := .w1c, rst := 0x0 }
def ETH_PORT_STATUS.EVT_SPOOF : Field := { reg := .ETH_PORT_STATUS, lo := 33, w := 1, ty := .w1c, rst := 0x0 }
def ETH_PORT_STATUS.EVT_PAUSE : Field := { reg := .ETH_PORT_STATUS, lo := 34, w := 1, ty := .w1c, rst := 0x0 }
def ETH_PORT_FRAMES.FRAMES_TX : Field := { reg := .ETH_PORT_FRAMES, lo := 0, w := 64, ty := .ro, rst := 0x0 }
def ETH_PORT_BYTES.BYTES_TX : Field := { reg := .ETH_PORT_BYTES, lo := 0, w := 64, ty := .ro, rst := 0x0 }
def ETH_PORT_CNT.SPOOF_DROP : Field := { reg := .ETH_PORT_CNT, lo := 0, w := 16, ty := .ro, rst := 0x0 }
def ETH_PORT_CNT.PAUSE_TMO : Field := { reg := .ETH_PORT_CNT, lo := 16, w := 16, ty := .ro, rst := 0x0 }
def ETH_PORT_CNT.LINK_ABORT : Field := { reg := .ETH_PORT_CNT, lo := 32, w := 16, ty := .ro, rst := 0x0 }
def ETH_PORT_CNT.RX_DISCARD : Field := { reg := .ETH_PORT_CNT, lo := 48, w := 16, ty := .ro, rst := 0x0 }
def ETH_Q_CFG.EN : Field := { reg := .ETH_Q_CFG, lo := 0, w := 1, ty := .rw, rst := 0x0 }
def ETH_Q_CFG.SUBPORT : Field := { reg := .ETH_Q_CFG, lo := 1, w := 2, ty := .rw, rst := 0x0 }
def ETH_Q_CFG.PCP : Field := { reg := .ETH_Q_CFG, lo := 4, w := 3, ty := .rw, rst := 0x0 }
def ETH_Q_CFG.OWNER : Field := { reg := .ETH_Q_CFG, lo := 8, w := 8, ty := .rw, rst := 0x0 }
def ETH_Q_CFG.ROLE_EPOCH : Field := { reg := .ETH_Q_CFG, lo := 16, w := 16, ty := .ro, rst := 0x0 }
def ETH_Q_FLOW.BYTES : Field := { reg := .ETH_Q_FLOW, lo := 0, w := 64, ty := .ro, rst := 0x0 }
def ETH_SLICE_MAC.MAC : Field := { reg := .ETH_SLICE_MAC, lo := 0, w := 48, ty := .rw, rst := 0x0 }
def ETH_SLICE_MAC.VID : Field := { reg := .ETH_SLICE_MAC, lo := 48, w := 12, ty := .rw, rst := 0x0 }
def ETH_SLICE_MAC.VLAN_EN : Field := { reg := .ETH_SLICE_MAC, lo := 60, w := 1, ty := .rw, rst := 0x0 }
def ETH_SLICE_IP4.ADDR : Field := { reg := .ETH_SLICE_IP4, lo := 0, w := 32, ty := .rw, rst := 0x0 }
def ETH_SLICE_IP4.IP4_EN : Field := { reg := .ETH_SLICE_IP4, lo := 32, w := 1, ty := .rw, rst := 0x0 }
def ETH_SLICE_IP6.ADDR : Field := { reg := .ETH_SLICE_IP6, lo := 0, w := 64, ty := .rw, rst := 0x0 }
def MEM_WM.HBM_WM : Field := { reg := .MEM_WM, lo := 0, w := 8, ty := .srw, rst := 0x1 }
def MEM_WM.DDR_WM : Field := { reg := .MEM_WM, lo := 8, w := 12, ty := .srw, rst := 0x0 }
def MEM_WM.LOCK : Field := { reg := .MEM_WM, lo := 31, w := 1, ty := .srw, rst := 0x0 }
def MEM_WM.WM_BUSY : Field := { reg := .MEM_WM, lo := 32, w := 1, ty := .ro, rst := 0x0 }
def MEM_WM.WM_REFUSED : Field := { reg := .MEM_WM, lo := 33, w := 1, ty := .w1c, rst := 0x0 }
def MEM_WM_CNT.DENIED : Field := { reg := .MEM_WM_CNT, lo := 0, w := 32, ty := .ro, rst := 0x0 }
def MEM_WM_CNT.UNMAPPED : Field := { reg := .MEM_WM_CNT, lo := 32, w := 32, ty := .ro, rst := 0x0 }
def MEM_BURN_CFG.EN : Field := { reg := .MEM_BURN_CFG, lo := 0, w := 1, ty := .srw, rst := 0x1 }
def MEM_BURN_CFG.INTERVAL : Field := { reg := .MEM_BURN_CFG, lo := 16, w := 16, ty := .srw, rst := 0x3E8, enc := .range 1 65535 }
def MEM_RECODE.PLATE : Field := { reg := .MEM_RECODE, lo := 0, w := 11, ty := .ro, rst := 0x0 }
def MEM_RECODE.ACTIVE : Field := { reg := .MEM_RECODE, lo := 11, w := 1, ty := .ro, rst := 0x0 }
def MEM_RECODE.POINTER : Field := { reg := .MEM_RECODE, lo := 32, w := 32, ty := .ro, rst := 0x0 }
def MEM_DDR_CFG.K : Field := { reg := .MEM_DDR_CFG, lo := 0, w := 4, ty := .ro, rst := 0x0 }
def MEM_DDR_CFG.POP_ERR : Field := { reg := .MEM_DDR_CFG, lo := 4, w := 1, ty := .ro, rst := 0x0 }
def MEM_DDR_CFG.DIMM_GIB : Field := { reg := .MEM_DDR_CFG, lo := 8, w := 10, ty := .ro, rst := 0x0 }
def MEM_DDR_CFG.SR_KEEP : Field := { reg := .MEM_DDR_CFG, lo := 32, w := 1, ty := .srw, rst := 0x0 }
def MEM_CTL_STATUS.PRESENT : Field := { reg := .MEM_CTL_STATUS, lo := 0, w := 1, ty := .ro, rst := 0x0 }
def MEM_CTL_STATUS.INIT_DONE : Field := { reg := .MEM_CTL_STATUS, lo := 1, w := 1, ty := .ro, rst := 0x0 }
def MEM_CTL_STATUS.PEND : Field := { reg := .MEM_CTL_STATUS, lo := 2, w := 6, ty := .ro, rst := 0x0 }
def MEM_CTL_STATUS.EVT_CE : Field := { reg := .MEM_CTL_STATUS, lo := 32, w := 1, ty := .w1c, rst := 0x0 }
def MEM_CTL_STATUS.EVT_UE : Field := { reg := .MEM_CTL_STATUS, lo := 33, w := 1, ty := .w1c, rst := 0x0 }
def MEM_CTL_STATUS.EVT_WALK : Field := { reg := .MEM_CTL_STATUS, lo := 34, w := 1, ty := .w1c, rst := 0x0 }
def MEM_CTL_STATUS.EVT_MISC : Field := { reg := .MEM_CTL_STATUS, lo := 35, w := 1, ty := .w1c, rst := 0x0 }
def MEM_CTL_STATUS.EVT_DENIED : Field := { reg := .MEM_CTL_STATUS, lo := 36, w := 1, ty := .w1c, rst := 0x0 }
def MEM_CTL_CNT0.CE : Field := { reg := .MEM_CTL_CNT0, lo := 0, w := 32, ty := .ro, rst := 0x0 }
def MEM_CTL_CNT0.UE : Field := { reg := .MEM_CTL_CNT0, lo := 32, w := 16, ty := .ro, rst := 0x0 }
def MEM_CTL_CNT0.ADDR_ERR : Field := { reg := .MEM_CTL_CNT0, lo := 48, w := 16, ty := .ro, rst := 0x0 }
def MEM_CTL_CNT1.DIE_CORR : Field := { reg := .MEM_CTL_CNT1, lo := 0, w := 32, ty := .ro, rst := 0x0 }
def MEM_CTL_CNT1.WB_DROPPED : Field := { reg := .MEM_CTL_CNT1, lo := 32, w := 16, ty := .ro, rst := 0x0 }
def MEM_CTL_CNT1.HUB_CORR : Field := { reg := .MEM_CTL_CNT1, lo := 48, w := 16, ty := .ro, rst := 0x0 }
def MEM_CTL_LAST_UE.SHEET : Field := { reg := .MEM_CTL_LAST_UE, lo := 8, w := 38, ty := .ro, rst := 0x0 }
def MEM_BURN_PTR.LOCAL : Field := { reg := .MEM_BURN_PTR, lo := 0, w := 32, ty := .ro, rst := 0x0 }
def MEM_BURN_PTR.PASSES : Field := { reg := .MEM_BURN_PTR, lo := 32, w := 32, ty := .ro, rst := 0x0 }
def MEM_FLIPCTL.ARM : Field := { reg := .MEM_FLIPCTL, lo := 0, w := 1, ty := .srw, rst := 0x0 }
def MEM_FLIPCTL.MATCH : Field := { reg := .MEM_FLIPCTL, lo := 1, w := 1, ty := .srw, rst := 0x0 }
def MEM_FLIPCTL.ADDR_FLIP : Field := { reg := .MEM_FLIPCTL, lo := 2, w := 1, ty := .srw, rst := 0x0 }
def MEM_FLIP_ADDR.SHEET : Field := { reg := .MEM_FLIP_ADDR, lo := 8, w := 38, ty := .srw, rst := 0x0 }
def MEM_FLIP.POS : Field := { reg := .MEM_FLIP, lo := 0, w := 8, ty := .srw, rst := 0x0 }
def MEM_FLIP.MASK : Field := { reg := .MEM_FLIP, lo := 8, w := 10, ty := .srw, rst := 0x0 }
def MEM_PLATE_CFG_H.T : Field := { reg := .MEM_PLATE_CFG_H, lo := 0, w := 5, ty := .srw, rst := 0xC }
def MEM_PLATE_CFG_H.T_OLD : Field := { reg := .MEM_PLATE_CFG_H, lo := 8, w := 5, ty := .ro, rst := 0xC }
def MEM_PLATE_CFG_H.RECODE : Field := { reg := .MEM_PLATE_CFG_H, lo := 13, w := 1, ty := .ro, rst := 0x0 }
def MEM_PLATE_CFG_H.T_REFUSED : Field := { reg := .MEM_PLATE_CFG_H, lo := 14, w := 1, ty := .w1c, rst := 0x0 }
def MEM_PLATE_CFG_D.T : Field := { reg := .MEM_PLATE_CFG_D, lo := 0, w := 5, ty := .srw, rst := 0x18 }
def MEM_PLATE_CFG_D.T_OLD : Field := { reg := .MEM_PLATE_CFG_D, lo := 8, w := 5, ty := .ro, rst := 0x18 }
def MEM_PLATE_CFG_D.RECODE : Field := { reg := .MEM_PLATE_CFG_D, lo := 13, w := 1, ty := .ro, rst := 0x0 }
def MEM_PLATE_CFG_D.T_REFUSED : Field := { reg := .MEM_PLATE_CFG_D, lo := 14, w := 1, ty := .w1c, rst := 0x0 }
def MEM_PLATE_CNT_H.CE : Field := { reg := .MEM_PLATE_CNT_H, lo := 0, w := 32, ty := .ro, rst := 0x0 }
def MEM_PLATE_CNT_H.UE : Field := { reg := .MEM_PLATE_CNT_H, lo := 32, w := 32, ty := .ro, rst := 0x0 }
def MEM_PLATE_CNT_D.CE : Field := { reg := .MEM_PLATE_CNT_D, lo := 0, w := 32, ty := .ro, rst := 0x0 }
def MEM_PLATE_CNT_D.UE : Field := { reg := .MEM_PLATE_CNT_D, lo := 32, w := 32, ty := .ro, rst := 0x0 }
def STN_CFG.OPEN : Field := { reg := .STN_CFG, lo := 0, w := 1, ty := .srw, rst := 0x0 }
def STN_CFG.TRIG_EN : Field := { reg := .STN_CFG, lo := 1, w := 1, ty := .srw, rst := 0x0 }
def STN_CFG.FRAG_EN : Field := { reg := .STN_CFG, lo := 2, w := 1, ty := .srw, rst := 0x0 }
def STN_CFG.CORE_NS : Field := { reg := .STN_CFG, lo := 3, w := 1, ty := .srw, rst := 0x0 }
def STN_CFG.TICKDIV : Field := { reg := .STN_CFG, lo := 4, w := 3, ty := .srw, rst := 0x0 }
def STN_STATUS.READY : Field := { reg := .STN_STATUS, lo := 0, w := 1, ty := .ro, rst := 0x0 }
def STN_STATUS.EVT_DENIED : Field := { reg := .STN_STATUS, lo := 32, w := 1, ty := .w1c, rst := 0x0 }
def STN_STATUS.EVT_REFUSED : Field := { reg := .STN_STATUS, lo := 33, w := 1, ty := .w1c, rst := 0x0 }
def STN_STATUS.EVT_TRIG_DROP : Field := { reg := .STN_STATUS, lo := 34, w := 1, ty := .w1c, rst := 0x0 }
def STN_STATUS.EVT_TMO : Field := { reg := .STN_STATUS, lo := 35, w := 1, ty := .w1c, rst := 0x0 }
def STN_RATE.RATE : Field := { reg := .STN_RATE, lo := 0, w := 12, ty := .srw, rst := 0x7D0, enc := .range 1 2000 }
def STN_RATE.BURST : Field := { reg := .STN_RATE, lo := 16, w := 10, ty := .srw, rst := 0x40, enc := .range 1 1023 }
def STN_TRIG_MASK.MASK : Field := { reg := .STN_TRIG_MASK, lo := 0, w := 64, ty := .srw, rst := 0x0 }
def STN_CNT0.DENIED : Field := { reg := .STN_CNT0, lo := 0, w := 32, ty := .ro, rst := 0x0 }
def STN_CNT0.THROTTLED : Field := { reg := .STN_CNT0, lo := 32, w := 32, ty := .ro, rst := 0x0 }
def STN_CNT1.BAD_MSG : Field := { reg := .STN_CNT1, lo := 0, w := 16, ty := .ro, rst := 0x0 }
def STN_CNT1.TRIG_DROP : Field := { reg := .STN_CNT1, lo := 16, w := 16, ty := .ro, rst := 0x0 }
def STN_CNT1.TMO : Field := { reg := .STN_CNT1, lo := 32, w := 16, ty := .ro, rst := 0x0 }
def STN_CNT1.FRAG_OVF : Field := { reg := .STN_CNT1, lo := 48, w := 16, ty := .ro, rst := 0x0 }
def STN_WIN.EN : Field := { reg := .STN_WIN, lo := 0, w := 1, ty := .srw, rst := 0x0 }
def STN_WIN.RD : Field := { reg := .STN_WIN, lo := 1, w := 1, ty := .srw, rst := 0x0 }
def STN_WIN.WR : Field := { reg := .STN_WIN, lo := 2, w := 1, ty := .srw, rst := 0x0 }
def STN_WIN.BASE : Field := { reg := .STN_WIN, lo := 12, w := 34, ty := .srw, rst := 0x0 }
def STN_WIN_LIMIT.LIMIT : Field := { reg := .STN_WIN_LIMIT, lo := 12, w := 34, ty := .srw, rst := 0x0 }
def HIF_PORT_CFG.BAR4_EN : Field := { reg := .HIF_PORT_CFG, lo := 0, w := 1, ty := .rw, rst := 0x1 }
def HIF_BAR4_SEL.BASE : Field := { reg := .HIF_BAR4_SEL, lo := 30, w := 16, ty := .rw, rst := 0x0 }
def HIF_PORT_STATUS.LINK_UP : Field := { reg := .HIF_PORT_STATUS, lo := 0, w := 1, ty := .ro, rst := 0x0 }
def HIF_PORT_STATUS.SPEED : Field := { reg := .HIF_PORT_STATUS, lo := 1, w := 3, ty := .ro, rst := 0x0 }
def HIF_PORT_STATUS.WIDTH : Field := { reg := .HIF_PORT_STATUS, lo := 4, w := 5, ty := .ro, rst := 0x0 }
def HIF_PORT_STATUS.FLIT : Field := { reg := .HIF_PORT_STATUS, lo := 9, w := 1, ty := .ro, rst := 0x0 }
def HIF_PORT_STATUS.DEGRADED : Field := { reg := .HIF_PORT_STATUS, lo := 10, w := 1, ty := .ro, rst := 0x0 }
def HIF_PORT_STATUS.FW_READY : Field := { reg := .HIF_PORT_STATUS, lo := 11, w := 1, ty := .ro, rst := 0x0 }
def HIF_PORT_STATUS.DSTATE : Field := { reg := .HIF_PORT_STATUS, lo := 12, w := 2, ty := .ro, rst := 0x0 }
def HIF_PORT_STATUS.EVT_LINK : Field := { reg := .HIF_PORT_STATUS, lo := 32, w := 1, ty := .w1c, rst := 0x0 }
def HIF_PORT_STATUS.EVT_CORR : Field := { reg := .HIF_PORT_STATUS, lo := 33, w := 1, ty := .w1c, rst := 0x0 }
def HIF_PORT_STATUS.EVT_NONFATAL : Field := { reg := .HIF_PORT_STATUS, lo := 34, w := 1, ty := .w1c, rst := 0x0 }
def HIF_PORT_STATUS.EVT_FATAL : Field := { reg := .HIF_PORT_STATUS, lo := 35, w := 1, ty := .w1c, rst := 0x0 }
def HIF_PORT_STATUS.EVT_RESET : Field := { reg := .HIF_PORT_STATUS, lo := 36, w := 1, ty := .w1c, rst := 0x0 }
def HIF_PORT_STATUS.EVT_CPL_TMO : Field := { reg := .HIF_PORT_STATUS, lo := 37, w := 1, ty := .w1c, rst := 0x0 }
def HIF_PORT_STATUS.EVT_DEGRADED : Field := { reg := .HIF_PORT_STATUS, lo := 38, w := 1, ty := .w1c, rst := 0x0 }
def HIF_PORT_STATUS.EVT_RECOVER : Field := { reg := .HIF_PORT_STATUS, lo := 39, w := 1, ty := .w1c, rst := 0x0 }
def HIF_PORT_CNT0.CORR : Field := { reg := .HIF_PORT_CNT0, lo := 0, w := 32, ty := .ro, rst := 0x0 }
def HIF_PORT_CNT0.NONFATAL : Field := { reg := .HIF_PORT_CNT0, lo := 32, w := 16, ty := .ro, rst := 0x0 }
def HIF_PORT_CNT0.FATAL : Field := { reg := .HIF_PORT_CNT0, lo := 48, w := 16, ty := .ro, rst := 0x0 }
def HIF_PORT_CNT1.CPL_TMO : Field := { reg := .HIF_PORT_CNT1, lo := 0, w := 16, ty := .ro, rst := 0x0 }
def HIF_PORT_CNT1.UNEXP_CPL : Field := { reg := .HIF_PORT_CNT1, lo := 16, w := 16, ty := .ro, rst := 0x0 }
def HIF_PORT_CNT1.POISON_TX : Field := { reg := .HIF_PORT_CNT1, lo := 32, w := 16, ty := .ro, rst := 0x0 }
def HIF_PORT_CNT1.DROPPED_WR : Field := { reg := .HIF_PORT_CNT1, lo := 48, w := 16, ty := .ro, rst := 0x0 }
def HIF_PORT_CNT2.FLRS : Field := { reg := .HIF_PORT_CNT2, lo := 0, w := 16, ty := .ro, rst := 0x0 }
def HIF_PORT_CNT2.HOT_RESETS : Field := { reg := .HIF_PORT_CNT2, lo := 16, w := 16, ty := .ro, rst := 0x0 }
def HIF_PORT_CNT2.PERSTS : Field := { reg := .HIF_PORT_CNT2, lo := 32, w := 16, ty := .ro, rst := 0x0 }
def HIF_PORT_CNT2.LINK_DOWNS : Field := { reg := .HIF_PORT_CNT2, lo := 48, w := 16, ty := .ro, rst := 0x0 }
def HIF_DB_CFG.PPR0 : Field := { reg := .HIF_DB_CFG, lo := 0, w := 1, ty := .rw, rst := 0x0 }
def HIF_DB_CFG.PPR1 : Field := { reg := .HIF_DB_CFG, lo := 1, w := 1, ty := .rw, rst := 0x0 }
def HIF_RING_STATUS.HALTED : Field := { reg := .HIF_RING_STATUS, lo := 0, w := 14, ty := .ro, rst := 0x0 }
def HIF_RING_STATUS.EVT_HALT : Field := { reg := .HIF_RING_STATUS, lo := 32, w := 1, ty := .w1c, rst := 0x0 }
def HIF_RING_STATUS.EVT_DB : Field := { reg := .HIF_RING_STATUS, lo := 33, w := 1, ty := .w1c, rst := 0x0 }
def HIF_RING_STATUS.EVT_SPOOF : Field := { reg := .HIF_RING_STATUS, lo := 34, w := 1, ty := .w1c, rst := 0x0 }
def HIF_RING_STATUS.EVT_REFUSED : Field := { reg := .HIF_RING_STATUS, lo := 35, w := 1, ty := .w1c, rst := 0x0 }
def HIF_RING_CNT0.STALE_DB : Field := { reg := .HIF_RING_CNT0, lo := 0, w := 32, ty := .ro, rst := 0x0 }
def HIF_RING_CNT0.BAD_DB : Field := { reg := .HIF_RING_CNT0, lo := 32, w := 32, ty := .ro, rst := 0x0 }
def HIF_RING_CNT1.COMPLETIONS : Field := { reg := .HIF_RING_CNT1, lo := 0, w := 48, ty := .ro, rst := 0x0 }
def HIF_RING_CNT1.SPOOF_ADMIN : Field := { reg := .HIF_RING_CNT1, lo := 48, w := 16, ty := .ro, rst := 0x0 }
def HIF_RING_HALTED.MAP : Field := { reg := .HIF_RING_HALTED, lo := 0, w := 64, ty := .ro, rst := 0x0 }
def HIF_RING_CFG.EN : Field := { reg := .HIF_RING_CFG, lo := 0, w := 1, ty := .rw, rst := 0x0 }
def HIF_RING_CFG.PORT : Field := { reg := .HIF_RING_CFG, lo := 1, w := 1, ty := .rw, rst := 0x0 }
def HIF_RING_CFG.RESUME : Field := { reg := .HIF_RING_CFG, lo := 2, w := 1, ty := .wo, rst := 0x0 }
def HIF_RING_CFG.SQ_LOG : Field := { reg := .HIF_RING_CFG, lo := 3, w := 5, ty := .rw, rst := 0x4 }
def HIF_RING_CFG.CQ_LOG : Field := { reg := .HIF_RING_CFG, lo := 8, w := 5, ty := .rw, rst := 0x4 }
def HIF_RING_CFG.SLICE : Field := { reg := .HIF_RING_CFG, lo := 16, w := 8, ty := .rw, rst := 0x0 }
def HIF_RING_CFG.DBI : Field := { reg := .HIF_RING_CFG, lo := 32, w := 9, ty := .rw, rst := 0x0 }
def HIF_RING_CFG.ROLE_EPOCH : Field := { reg := .HIF_RING_CFG, lo := 48, w := 16, ty := .ro, rst := 0x0 }
def HIF_RING_SQ.BASE : Field := { reg := .HIF_RING_SQ, lo := 10, w := 36, ty := .rw, rst := 0x0 }
def HIF_RING_CQ.BASE : Field := { reg := .HIF_RING_CQ, lo := 9, w := 37, ty := .rw, rst := 0x0 }
def HIF_RING_IRQ.VECTOR : Field := { reg := .HIF_RING_IRQ, lo := 0, w := 11, ty := .rw, rst := 0x0 }
def HIF_RING_IRQ.IRQ_EN : Field := { reg := .HIF_RING_IRQ, lo := 11, w := 1, ty := .rw, rst := 0x0 }
def HIF_RING_IRQ.MOD_COUNT : Field := { reg := .HIF_RING_IRQ, lo := 16, w := 8, ty := .rw, rst := 0x1 }
def HIF_RING_IRQ.MOD_TIME : Field := { reg := .HIF_RING_IRQ, lo := 24, w := 16, ty := .rw, rst := 0x0 }
def HIF_RING_IDX.SQ_PI : Field := { reg := .HIF_RING_IDX, lo := 0, w := 16, ty := .ro, rst := 0x0 }
def HIF_RING_IDX.SQ_CI : Field := { reg := .HIF_RING_IDX, lo := 16, w := 16, ty := .ro, rst := 0x0 }
def HIF_RING_IDX.CQ_PI : Field := { reg := .HIF_RING_IDX, lo := 32, w := 16, ty := .ro, rst := 0x0 }
def HIF_RING_IDX.CQ_CI : Field := { reg := .HIF_RING_IDX, lo := 48, w := 16, ty := .ro, rst := 0x0 }
def HIF_RING_ST.STATE : Field := { reg := .HIF_RING_ST, lo := 0, w := 2, ty := .ro, rst := 0x0 }
def HIF_RING_ST.HALT_STATUS : Field := { reg := .HIF_RING_ST, lo := 4, w := 8, ty := .ro, rst := 0x0 }
def HIF_RING_ST.HALT_CAUSE : Field := { reg := .HIF_RING_ST, lo := 12, w := 4, ty := .ro, rst := 0x0 }
def HIF_RING_ST.HALT_SLOT : Field := { reg := .HIF_RING_ST, lo := 16, w := 16, ty := .ro, rst := 0x0 }
def HIF_RING_ST.STALE : Field := { reg := .HIF_RING_ST, lo := 32, w := 16, ty := .ro, rst := 0x0 }
def HIF_RING_ST.BAD_DB : Field := { reg := .HIF_RING_ST, lo := 48, w := 16, ty := .ro, rst := 0x0 }
def HIF_EVQ_DB.DBI : Field := { reg := .HIF_EVQ_DB, lo := 0, w := 8, ty := .rw, rst := 0x0 }
def HIF_EVQ_DB.VALID : Field := { reg := .HIF_EVQ_DB, lo := 15, w := 1, ty := .rw, rst := 0x0 }
def HIF_SLICE_CFG.STATE : Field := { reg := .HIF_SLICE_CFG, lo := 0, w := 2, ty := .ro, rst := 0x0 }
def HIF_SLICE_CFG.PORT : Field := { reg := .HIF_SLICE_CFG, lo := 2, w := 1, ty := .ro, rst := 0x0 }
def HIF_SLICE_CFG.PASID : Field := { reg := .HIF_SLICE_CFG, lo := 8, w := 20, ty := .ro, rst := 0x0 }
def HIF_SLICE_CFG.ROLE_EPOCH : Field := { reg := .HIF_SLICE_CFG, lo := 32, w := 16, ty := .ro, rst := 0x0 }
def HIF_SLICE_USE.CORES : Field := { reg := .HIF_SLICE_USE, lo := 0, w := 10, ty := .ro, rst := 0x0 }
def HIF_SLICE_USE.HBM_PLATES : Field := { reg := .HIF_SLICE_USE, lo := 16, w := 8, ty := .ro, rst := 0x0 }
def HIF_SLICE_USE.DDR_PLATES : Field := { reg := .HIF_SLICE_USE, lo := 24, w := 12, ty := .ro, rst := 0x0 }
def HIF_SLICE_USE.RINGS : Field := { reg := .HIF_SLICE_USE, lo := 36, w := 14, ty := .ro, rst := 0x0 }
def HIF_SLICE_STATUS.OVER_GRP : Field := { reg := .HIF_SLICE_STATUS, lo := 0, w := 1, ty := .ro, rst := 0x0 }
def HIF_SLICE_STATUS.OVER_STP : Field := { reg := .HIF_SLICE_STATUS, lo := 1, w := 1, ty := .ro, rst := 0x0 }
def HIF_SLICE_STATUS.EVT_SPOOF : Field := { reg := .HIF_SLICE_STATUS, lo := 32, w := 1, ty := .w1c, rst := 0x0 }
def HIF_SLICE_STATUS.EVT_QUOTA : Field := { reg := .HIF_SLICE_STATUS, lo := 33, w := 1, ty := .w1c, rst := 0x0 }
def HIF_SLICE_STATUS.EVT_RESET_DONE : Field := { reg := .HIF_SLICE_STATUS, lo := 34, w := 1, ty := .w1c, rst := 0x0 }
def HIF_SLICE_CNT.SPOOFS : Field := { reg := .HIF_SLICE_CNT, lo := 0, w := 32, ty := .ro, rst := 0x0 }
def HIF_SLICE_CNT.RESETS : Field := { reg := .HIF_SLICE_CNT, lo := 32, w := 16, ty := .ro, rst := 0x0 }
def HIF_SLICE_SUMMARY.ACTIVE : Field := { reg := .HIF_SLICE_SUMMARY, lo := 0, w := 9, ty := .ro, rst := 0x1 }
def HIF_SLICE_SUMMARY.LOG_USED : Field := { reg := .HIF_SLICE_SUMMARY, lo := 16, w := 7, ty := .ro, rst := 0x0 }
def HIF_SLICE_SUMMARY.LOG_LOST : Field := { reg := .HIF_SLICE_SUMMARY, lo := 32, w := 32, ty := .ro, rst := 0x0 }
def HIF_SPOOF_LOG.SLICE : Field := { reg := .HIF_SPOOF_LOG, lo := 0, w := 8, ty := .ro, rst := 0x0 }
def HIF_SPOOF_LOG.UNIT : Field := { reg := .HIF_SPOOF_LOG, lo := 8, w := 8, ty := .ro, rst := 0x0 }
def HIF_SPOOF_LOG.INDEX : Field := { reg := .HIF_SPOOF_LOG, lo := 16, w := 16, ty := .ro, rst := 0x0 }
def HIF_SPOOF_LOG.VALID : Field := { reg := .HIF_SPOOF_LOG, lo := 63, w := 1, ty := .ro, rst := 0x0 }
def HIF_CORE_SLICE.SLICE : Field := { reg := .HIF_CORE_SLICE, lo := 0, w := 8, ty := .ro, rst := 0x0 }
def HIF_CORE_SLICE.ROLE_EPOCH : Field := { reg := .HIF_CORE_SLICE, lo := 16, w := 16, ty := .ro, rst := 0x0 }
def HIF_PLATE_OWNER_H.OWNER0 : Field := { reg := .HIF_PLATE_OWNER_H, lo := 0, w := 8, ty := .ro, rst := 0x0 }
def HIF_PLATE_OWNER_H.OWNER1 : Field := { reg := .HIF_PLATE_OWNER_H, lo := 8, w := 8, ty := .ro, rst := 0x0 }
def HIF_PLATE_OWNER_H.OWNER2 : Field := { reg := .HIF_PLATE_OWNER_H, lo := 16, w := 8, ty := .ro, rst := 0x0 }
def HIF_PLATE_OWNER_H.OWNER3 : Field := { reg := .HIF_PLATE_OWNER_H, lo := 24, w := 8, ty := .ro, rst := 0x0 }
def HIF_PLATE_OWNER_H.OWNER4 : Field := { reg := .HIF_PLATE_OWNER_H, lo := 32, w := 8, ty := .ro, rst := 0x0 }
def HIF_PLATE_OWNER_H.OWNER5 : Field := { reg := .HIF_PLATE_OWNER_H, lo := 40, w := 8, ty := .ro, rst := 0x0 }
def HIF_PLATE_OWNER_H.OWNER6 : Field := { reg := .HIF_PLATE_OWNER_H, lo := 48, w := 8, ty := .ro, rst := 0x0 }
def HIF_PLATE_OWNER_H.OWNER7 : Field := { reg := .HIF_PLATE_OWNER_H, lo := 56, w := 8, ty := .ro, rst := 0x0 }
def HIF_PLATE_OWNER_D.OWNER0 : Field := { reg := .HIF_PLATE_OWNER_D, lo := 0, w := 8, ty := .ro, rst := 0x0 }
def HIF_PLATE_OWNER_D.OWNER1 : Field := { reg := .HIF_PLATE_OWNER_D, lo := 8, w := 8, ty := .ro, rst := 0x0 }
def HIF_PLATE_OWNER_D.OWNER2 : Field := { reg := .HIF_PLATE_OWNER_D, lo := 16, w := 8, ty := .ro, rst := 0x0 }
def HIF_PLATE_OWNER_D.OWNER3 : Field := { reg := .HIF_PLATE_OWNER_D, lo := 24, w := 8, ty := .ro, rst := 0x0 }
def HIF_PLATE_OWNER_D.OWNER4 : Field := { reg := .HIF_PLATE_OWNER_D, lo := 32, w := 8, ty := .ro, rst := 0x0 }
def HIF_PLATE_OWNER_D.OWNER5 : Field := { reg := .HIF_PLATE_OWNER_D, lo := 40, w := 8, ty := .ro, rst := 0x0 }
def HIF_PLATE_OWNER_D.OWNER6 : Field := { reg := .HIF_PLATE_OWNER_D, lo := 48, w := 8, ty := .ro, rst := 0x0 }
def HIF_PLATE_OWNER_D.OWNER7 : Field := { reg := .HIF_PLATE_OWNER_D, lo := 56, w := 8, ty := .ro, rst := 0x0 }
def HIF_MSIX_OWNER.OWNER0 : Field := { reg := .HIF_MSIX_OWNER, lo := 0, w := 8, ty := .ro, rst := 0x0 }
def HIF_MSIX_OWNER.OWNER1 : Field := { reg := .HIF_MSIX_OWNER, lo := 8, w := 8, ty := .ro, rst := 0x0 }
def HIF_MSIX_OWNER.OWNER2 : Field := { reg := .HIF_MSIX_OWNER, lo := 16, w := 8, ty := .ro, rst := 0x0 }
def HIF_MSIX_OWNER.OWNER3 : Field := { reg := .HIF_MSIX_OWNER, lo := 24, w := 8, ty := .ro, rst := 0x0 }
def HIF_MSIX_OWNER.OWNER4 : Field := { reg := .HIF_MSIX_OWNER, lo := 32, w := 8, ty := .ro, rst := 0x0 }
def HIF_MSIX_OWNER.OWNER5 : Field := { reg := .HIF_MSIX_OWNER, lo := 40, w := 8, ty := .ro, rst := 0x0 }
def HIF_MSIX_OWNER.OWNER6 : Field := { reg := .HIF_MSIX_OWNER, lo := 48, w := 8, ty := .ro, rst := 0x0 }
def HIF_MSIX_OWNER.OWNER7 : Field := { reg := .HIF_MSIX_OWNER, lo := 56, w := 8, ty := .ro, rst := 0x0 }
def HIF_SLICE_CHAN.FIRST : Field := { reg := .HIF_SLICE_CHAN, lo := 0, w := 20, ty := .ro, rst := 0x0 }
def HIF_SLICE_CHAN.COUNT : Field := { reg := .HIF_SLICE_CHAN, lo := 32, w := 21, ty := .ro, rst := 0x0 }
def SEC_FUSE.OWNER_VALID : Field := { reg := .SEC_FUSE, lo := 0, w := 4, ty := .ro, rst := 0x0 }
def SEC_FUSE.OWNER_REVOKED : Field := { reg := .SEC_FUSE, lo := 4, w := 4, ty := .ro, rst := 0x0 }
def SEC_FUSE.DIE_AUTH : Field := { reg := .SEC_FUSE, lo := 8, w := 1, ty := .ro, rst := 0x0 }
def SEC_FUSE.SEC_DBG_OFF : Field := { reg := .SEC_FUSE, lo := 9, w := 1, ty := .ro, rst := 0x0 }
def SEC_FUSE.HOST_PUSH_OFF : Field := { reg := .SEC_FUSE, lo := 10, w := 1, ty := .ro, rst := 0x0 }
def SEC_FUSE.CALOM_SVN : Field := { reg := .SEC_FUSE, lo := 16, w := 7, ty := .ro, rst := 0x0 }
def SEC_FUSE.CFW_SVN : Field := { reg := .SEC_FUSE, lo := 24, w := 7, ty := .ro, rst := 0x0 }
def SEC_FUSE_SERIAL.SERIAL : Field := { reg := .SEC_FUSE_SERIAL, lo := 0, w := 64, ty := .ro, rst := 0x0 }
def SEC_BOOT_STATUS.SOURCE : Field := { reg := .SEC_BOOT_STATUS, lo := 0, w := 2, ty := .ro, rst := 0x0 }
def SEC_BOOT_STATUS.FS_SLOT : Field := { reg := .SEC_BOOT_STATUS, lo := 4, w := 1, ty := .ro, rst := 0x0 }
def SEC_BOOT_STATUS.MAIN_SLOT : Field := { reg := .SEC_BOOT_STATUS, lo := 5, w := 1, ty := .ro, rst := 0x0 }
def SEC_BOOT_STATUS.CFW_SLOT : Field := { reg := .SEC_BOOT_STATUS, lo := 6, w := 1, ty := .ro, rst := 0x0 }
def SEC_BOOT_STATUS.STAGE : Field := { reg := .SEC_BOOT_STATUS, lo := 8, w := 8, ty := .ro, rst := 0x0 }
def SEC_BOOT_STATUS.CAUSE : Field := { reg := .SEC_BOOT_STATUS, lo := 16, w := 8, ty := .ro, rst := 0x0 }
def SEC_BOOT_STATUS.FAIL_KIND : Field := { reg := .SEC_BOOT_STATUS, lo := 24, w := 4, ty := .ro, rst := 0x0 }
def SEC_BOOT_STATUS.FAILS : Field := { reg := .SEC_BOOT_STATUS, lo := 32, w := 16, ty := .ro, rst := 0x0 }
def SEC_STATUS.EVT_VERIFY_FAIL : Field := { reg := .SEC_STATUS, lo := 32, w := 1, ty := .w1c, rst := 0x0 }
def SEC_STATUS.EVT_FALLBACK : Field := { reg := .SEC_STATUS, lo := 33, w := 1, ty := .w1c, rst := 0x0 }
def SEC_STATUS.EVT_ENROL : Field := { reg := .SEC_STATUS, lo := 34, w := 1, ty := .w1c, rst := 0x0 }
def SEC_STATUS.EVT_SVN : Field := { reg := .SEC_STATUS, lo := 35, w := 1, ty := .w1c, rst := 0x0 }
def SEC_STATUS.EVT_DIE_AUTH : Field := { reg := .SEC_STATUS, lo := 36, w := 1, ty := .w1c, rst := 0x0 }
def SEC_STATUS.EVT_RECOVERY : Field := { reg := .SEC_STATUS, lo := 37, w := 1, ty := .w1c, rst := 0x0 }
def SEC_FUSE_VKEY.BYTES : Field := { reg := .SEC_FUSE_VKEY, lo := 0, w := 64, ty := .ro, rst := 0x0 }
def SEC_FUSE_OKEY.BYTES : Field := { reg := .SEC_FUSE_OKEY, lo := 0, w := 64, ty := .ro, rst := 0x0 }
def SEC_FUSE_DIE.BYTES : Field := { reg := .SEC_FUSE_DIE, lo := 0, w := 64, ty := .ro, rst := 0x0 }
def DBG_EN.FW_EN : Field := { reg := .DBG_EN, lo := 0, w := 4, ty := .srw, rst := 0x0 }
def DBG_EN.AUTH_EN : Field := { reg := .DBG_EN, lo := 8, w := 4, ty := .ro, rst := 0x0 }
def DBG_EN.EFF : Field := { reg := .DBG_EN, lo := 16, w := 4, ty := .ro, rst := 0x0 }
def DBG_EN.AUTH_CLR : Field := { reg := .DBG_EN, lo := 24, w := 1, ty := .wo, rst := 0x0 }
def DBG_AUTH_CTL.NEW : Field := { reg := .DBG_AUTH_CTL, lo := 0, w := 1, ty := .wo, rst := 0x0 }
def DBG_AUTH_CTL.GO : Field := { reg := .DBG_AUTH_CTL, lo := 1, w := 1, ty := .wo, rst := 0x0 }
def DBG_AUTH_CTL.REQ : Field := { reg := .DBG_AUTH_CTL, lo := 4, w := 4, ty := .rw, rst := 0x0 }
def DBG_AUTH_CTL.KEY_SLOT : Field := { reg := .DBG_AUTH_CTL, lo := 8, w := 8, ty := .rw, rst := 0x0, enc := .keySlot }
def DBG_AUTH_CTL.STATE : Field := { reg := .DBG_AUTH_CTL, lo := 16, w := 3, ty := .ro, rst := 0x0 }
def DBG_AUTH_CTL.FAILS : Field := { reg := .DBG_AUTH_CTL, lo := 24, w := 4, ty := .ro, rst := 0x0 }
def DBG_CHAIN.MEMBER : Field := { reg := .DBG_CHAIN, lo := 0, w := 14, ty := .ro, rst := 0x0 }
def DBG_CHAIN.GUEST_EN : Field := { reg := .DBG_CHAIN, lo := 14, w := 1, ty := .srw, rst := 0x0 }
def DBG_CHAIN.GIR_LEN : Field := { reg := .DBG_CHAIN, lo := 16, w := 8, ty := .srw, rst := 0x0, enc := .range 1 32 }
def DBG_CHAIN.IR_LEN : Field := { reg := .DBG_CHAIN, lo := 32, w := 10, ty := .ro, rst := 0x8 }
def DBG_STATUS.EVT_GRANT : Field := { reg := .DBG_STATUS, lo := 32, w := 1, ty := .w1c, rst := 0x0 }
def DBG_STATUS.EVT_FAIL : Field := { reg := .DBG_STATUS, lo := 33, w := 1, ty := .w1c, rst := 0x0 }
def DBG_STATUS.EVT_LOCKED : Field := { reg := .DBG_STATUS, lo := 34, w := 1, ty := .w1c, rst := 0x0 }
def DBG_STATUS.EVT_HALT : Field := { reg := .DBG_STATUS, lo := 35, w := 1, ty := .w1c, rst := 0x0 }
def DBG_STATUS.EVT_TEST : Field := { reg := .DBG_STATUS, lo := 36, w := 1, ty := .w1c, rst := 0x0 }
def DBG_CNT.GRANTS : Field := { reg := .DBG_CNT, lo := 0, w := 32, ty := .ro, rst := 0x0 }
def DBG_CNT.DENIED : Field := { reg := .DBG_CNT, lo := 32, w := 32, ty := .ro, rst := 0x0 }
def DBG_AUTH_NONCE.BYTES : Field := { reg := .DBG_AUTH_NONCE, lo := 0, w := 64, ty := .ro, rst := 0x0 }
def DBG_AUTH_PUB.BYTES : Field := { reg := .DBG_AUTH_PUB, lo := 0, w := 64, ty := .rw, rst := 0x0 }
def DBG_AUTH_SIG.BYTES : Field := { reg := .DBG_AUTH_SIG, lo := 0, w := 64, ty := .rw, rst := 0x0 }
def DBG_ACC_CTL.GO : Field := { reg := .DBG_ACC_CTL, lo := 0, w := 1, ty := .wo, rst := 0x0 }
def DBG_ACC_CTL.WRITE : Field := { reg := .DBG_ACC_CTL, lo := 1, w := 1, ty := .rw, rst := 0x0 }
def DBG_ACC_CTL.NS : Field := { reg := .DBG_ACC_CTL, lo := 2, w := 1, ty := .rw, rst := 0x1 }
def DBG_ACC_CTL.WAKE : Field := { reg := .DBG_ACC_CTL, lo := 3, w := 1, ty := .rw, rst := 0x0 }
def DBG_ACC_CTL.SIZE : Field := { reg := .DBG_ACC_CTL, lo := 4, w := 2, ty := .rw, rst := 0x3 }
def DBG_ACC_CTL.STATUS : Field := { reg := .DBG_ACC_CTL, lo := 8, w := 3, ty := .ro, rst := 0x0 }
def DBG_ACC_CTL.DONE : Field := { reg := .DBG_ACC_CTL, lo := 11, w := 1, ty := .ro, rst := 0x1 }
def DBG_ACC_ADDR.ADDR : Field := { reg := .DBG_ACC_ADDR, lo := 0, w := 46, ty := .rw, rst := 0x0 }
def DBG_ACC_DATA.DATA : Field := { reg := .DBG_ACC_DATA, lo := 0, w := 64, ty := .rw, rst := 0x0 }
def CDU_STATUS.DOMAINS : Field := { reg := .CDU_STATUS, lo := 0, w := 10, ty := .ro, rst := 0x0 }
def CDU_STATUS.VDD : Field := { reg := .CDU_STATUS, lo := 16, w := 10, ty := .ro, rst := 0x0 }
def GLB_ID.HUB_GEN : Field := { reg := .GLB_ID, lo := 0, w := 8, ty := .ro, rst := 0x2 }
def GLB_ID.PKG_GEN : Field := { reg := .GLB_ID, lo := 8, w := 8, ty := .ro, rst := 0x0 }
def GLB_ID.CD_POP : Field := { reg := .GLB_ID, lo := 16, w := 12, ty := .ro, rst := 0x0 }
def GLB_ID.GS_POP : Field := { reg := .GLB_ID, lo := 28, w := 2, ty := .ro, rst := 0x0 }
def GLB_ID.STEP : Field := { reg := .GLB_ID, lo := 32, w := 8, ty := .ro, rst := 0x0 }
def GLB_PROFILE.PINS : Field := { reg := .GLB_PROFILE, lo := 0, w := 2, ty := .ro, rst := 0x0 }
def GLB_PROFILE.ACTIVE : Field := { reg := .GLB_PROFILE, lo := 2, w := 2, ty := .ro, rst := 0x0 }
def GLB_PROFILE.PENDING : Field := { reg := .GLB_PROFILE, lo := 4, w := 2, ty := .srw, rst := 0x0 }
def GLB_PROFILE.FALLBACK : Field := { reg := .GLB_PROFILE, lo := 6, w := 1, ty := .ro, rst := 0x0 }
def GLB_PROFILE.BOOT_SRC : Field := { reg := .GLB_PROFILE, lo := 7, w := 1, ty := .ro, rst := 0x0 }
def GLB_PROFILE.VALID : Field := { reg := .GLB_PROFILE, lo := 8, w := 4, ty := .ro, rst := 0x1 }
def GLB_PROFILE.APPLY_ERR : Field := { reg := .GLB_PROFILE, lo := 16, w := 12, ty := .ro, rst := 0x0 }
def GLB_PROFILE_ID.ID : Field := { reg := .GLB_PROFILE_ID, lo := 0, w := 32, ty := .ro, rst := 0x0 }
def CKR_STATUS.XTAL_OK : Field := { reg := .CKR_STATUS, lo := 0, w := 1, ty := .ro, rst := 0x0 }
def CKR_STATUS.ROOT_LOCK : Field := { reg := .CKR_STATUS, lo := 1, w := 1, ty := .ro, rst := 0x0 }
def CKR_STATUS.ROOT_SRC : Field := { reg := .CKR_STATUS, lo := 2, w := 1, ty := .ro, rst := 0x1 }
def CKR_STATUS.FAIL_CAUSE : Field := { reg := .CKR_STATUS, lo := 4, w := 2, ty := .ro, rst := 0x0 }
def CKR_STATUS.EVT_CLOCK_FAIL : Field := { reg := .CKR_STATUS, lo := 32, w := 1, ty := .w1c, rst := 0x0 }
def CKR_STATUS.EVT_IRO_DRIFT : Field := { reg := .CKR_STATUS, lo := 33, w := 1, ty := .w1c, rst := 0x0 }
def CKR_STATUS.EVT_REFUSED : Field := { reg := .CKR_STATUS, lo := 34, w := 1, ty := .w1c, rst := 0x0 }
def CKR_MON.XTAL_IRO : Field := { reg := .CKR_MON, lo := 0, w := 16, ty := .ro, rst := 0x0 }
def CKR_MON.ROOT_IRO : Field := { reg := .CKR_MON, lo := 16, w := 16, ty := .ro, rst := 0x0 }
def CKR_MON.IRO_XTAL : Field := { reg := .CKR_MON, lo := 32, w := 16, ty := .ro, rst := 0x0 }
def CKR_MON_LIM.TOL : Field := { reg := .CKR_MON_LIM, lo := 0, w := 8, ty := .srw, rst := 0x1F, enc := .range 1 255 }
def CKR_TIME.TIME : Field := { reg := .CKR_TIME, lo := 0, w := 64, ty := .ro, rst := 0x0 }
def CKR_FTIME.FTIME : Field := { reg := .CKR_FTIME, lo := 0, w := 64, ty := .ro, rst := 0x0 }
def CKR_RESET.CAUSE : Field := { reg := .CKR_RESET, lo := 0, w := 4, ty := .ro, rst := 0x0 }
def CKR_RESET.WARMS : Field := { reg := .CKR_RESET, lo := 16, w := 16, ty := .ro, rst := 0x0 }
def CKR_RESET_CTL.WARM : Field := { reg := .CKR_RESET_CTL, lo := 0, w := 1, ty := .srwo, rst := 0x0 }
def CKR_DOM.EN : Field := { reg := .CKR_DOM, lo := 0, w := 1, ty := .rw, rst := 0x1 }
def CKR_DOM.GATEABLE : Field := { reg := .CKR_DOM, lo := 1, w := 1, ty := .ro, rst := 0x0 }
def CKR_DOM.OWNER_S : Field := { reg := .CKR_DOM, lo := 2, w := 1, ty := .srw, rst := 0x1 }
def CKR_DOM.RATIO_REFUSED : Field := { reg := .CKR_DOM, lo := 3, w := 1, ty := .w1c, rst := 0x0 }
def CKR_DOM.GATE_REFUSED : Field := { reg := .CKR_DOM, lo := 4, w := 1, ty := .w1c, rst := 0x0 }
def CKR_DOM.SWITCHING : Field := { reg := .CKR_DOM, lo := 5, w := 1, ty := .ro, rst := 0x0 }
def CKR_DOM.N : Field := { reg := .CKR_DOM, lo := 16, w := 12, ty := .srw, rst := 0x0, enc := .range 1 4095 }
def CKR_DOM.M : Field := { reg := .CKR_DOM, lo := 28, w := 8, ty := .srw, rst := 0x0, enc := .range 1 255 }
def CKR_DOM.FMAX_PLAN : Field := { reg := .CKR_DOM, lo := 48, w := 16, ty := .srw, rst := 0xFFFF }
def PWR_STATUS.TRANSITIONS : Field := { reg := .PWR_STATUS, lo := 0, w := 7, ty := .ro, rst := 0x0 }
def PWR_STATUS.QUEUED : Field := { reg := .PWR_STATUS, lo := 8, w := 7, ty := .ro, rst := 0x0 }
def PWR_STATUS.REFTAB_LOST : Field := { reg := .PWR_STATUS, lo := 32, w := 32, ty := .ro, rst := 0x0 }
def PWR_DOM_CTL.TARGET : Field := { reg := .PWR_DOM_CTL, lo := 0, w := 2, ty := .rw, rst := 0x0, enc := .range 0 2 }
def PWR_DOM_CTL.HOLD : Field := { reg := .PWR_DOM_CTL, lo := 2, w := 1, ty := .rw, rst := 0x0 }
def PWR_DOM_CTL.OWNER_S : Field := { reg := .PWR_DOM_CTL, lo := 3, w := 1, ty := .srw, rst := 0x1 }
def PWR_DOM_CTL.LOCK_P : Field := { reg := .PWR_DOM_CTL, lo := 4, w := 1, ty := .srw, rst := 0x0 }
def PWR_DOM_CTL.LOCK_HW : Field := { reg := .PWR_DOM_CTL, lo := 5, w := 1, ty := .ro, rst := 0x0 }
def PWR_DOM_STATUS.STATE : Field := { reg := .PWR_DOM_STATUS, lo := 0, w := 2, ty := .ro, rst := 0x2 }
def PWR_DOM_STATUS.TRANSITION : Field := { reg := .PWR_DOM_STATUS, lo := 2, w := 1, ty := .ro, rst := 0x0 }
def PWR_DOM_STATUS.PENDING : Field := { reg := .PWR_DOM_STATUS, lo := 3, w := 1, ty := .ro, rst := 0x0 }
def PWR_DOM_STATUS.LAST_REFUSER : Field := { reg := .PWR_DOM_STATUS, lo := 4, w := 3, ty := .ro, rst := 0x0 }
def PWR_DOM_STATUS.REFUSED : Field := { reg := .PWR_DOM_STATUS, lo := 7, w := 1, ty := .w1c, rst := 0x0 }
def PWR_DOM_STATUS.LAST_WAKE : Field := { reg := .PWR_DOM_STATUS, lo := 8, w := 4, ty := .ro, rst := 0x0 }
def PWR_DOM_STATUS.WAKES : Field := { reg := .PWR_DOM_STATUS, lo := 16, w := 16, ty := .ro, rst := 0x0 }
def PWR_DOM_STATUS.EVT_STATE : Field := { reg := .PWR_DOM_STATUS, lo := 32, w := 1, ty := .w1c, rst := 0x0 }
def PWR_DOM_STATUS.EVT_REFUSED : Field := { reg := .PWR_DOM_STATUS, lo := 33, w := 1, ty := .w1c, rst := 0x0 }
def PWR_DOM_STATUS.EVT_ABORTED : Field := { reg := .PWR_DOM_STATUS, lo := 34, w := 1, ty := .w1c, rst := 0x0 }
def PWR_REFTAB.DOMAIN : Field := { reg := .PWR_REFTAB, lo := 0, w := 7, ty := .ro, rst := 0x0 }
def PWR_REFTAB.VALID : Field := { reg := .PWR_REFTAB, lo := 7, w := 1, ty := .ro, rst := 0x0 }
def PWR_REFTAB.REFUSER : Field := { reg := .PWR_REFTAB, lo := 8, w := 3, ty := .ro, rst := 0x0 }
def PWR_REFTAB.REFUSED : Field := { reg := .PWR_REFTAB, lo := 16, w := 16, ty := .ro, rst := 0x0 }
def PWR_REFTAB.ABORTED : Field := { reg := .PWR_REFTAB, lo := 32, w := 16, ty := .ro, rst := 0x0 }
def PWR_REFTAB.CORE : Field := { reg := .PWR_REFTAB, lo := 48, w := 10, ty := .ro, rst := 0x0 }
def LGR_CFG.W_EOL : Field := { reg := .LGR_CFG, lo := 0, w := 24, ty := .srw, rst := 0xC350, enc := .range 1000 500000 }
def LGR_CFG.THROT_C : Field := { reg := .LGR_CFG, lo := 24, w := 8, ty := .srw, rst := 0x5F, enc := .range 60 115 }
def LGR_CFG.AUTO_PLAN : Field := { reg := .LGR_CFG, lo := 32, w := 1, ty := .srw, rst := 0x1 }
def LGR_STATUS.PLANNING : Field := { reg := .LGR_STATUS, lo := 0, w := 1, ty := .ro, rst := 0x0 }
def LGR_STATUS.SEQ : Field := { reg := .LGR_STATUS, lo := 8, w := 24, ty := .ro, rst := 0x0 }
def LGR_STATUS.EVT_WEAR_HIGH : Field := { reg := .LGR_STATUS, lo := 32, w := 1, ty := .w1c, rst := 0x0 }
def LGR_STATUS.EVT_PLAN : Field := { reg := .LGR_STATUS, lo := 33, w := 1, ty := .w1c, rst := 0x0 }
def LGR_STATUS.EVT_TEMP_HIGH : Field := { reg := .LGR_STATUS, lo := 34, w := 1, ty := .w1c, rst := 0x0 }
def LGR_STATUS.EVT_THROTTLE : Field := { reg := .LGR_STATUS, lo := 35, w := 1, ty := .w1c, rst := 0x0 }
def LGR_STATUS.EVT_WRITE : Field := { reg := .LGR_STATUS, lo := 36, w := 1, ty := .w1c, rst := 0x0 }
def LGR_STATUS.EVT_WRITE_ERR : Field := { reg := .LGR_STATUS, lo := 37, w := 1, ty := .w1c, rst := 0x0 }
def LGR_HOURS.POWERED_HOURS : Field := { reg := .LGR_HOURS, lo := 0, w := 40, ty := .ro, rst := 0x0 }
def LGR_HOURS.POWER_CYCLES : Field := { reg := .LGR_HOURS, lo := 40, w := 24, ty := .ro, rst := 0x0 }
def LGR_WEAR.W : Field := { reg := .LGR_WEAR, lo := 0, w := 24, ty := .ro, rst := 0x0 }
def LGR_WEAR.DOMAIN : Field := { reg := .LGR_WEAR, lo := 24, w := 7, ty := .ro, rst := 0x0 }
def LGR_WEAR.HOUR : Field := { reg := .LGR_WEAR, lo := 32, w := 32, ty := .ro, rst := 0x0 }
def LGR_PLAN.GUARD_MV : Field := { reg := .LGR_PLAN, lo := 0, w := 8, ty := .ro, rst := 0x0 }
def LGR_PLAN.FMAX_MHZ : Field := { reg := .LGR_PLAN, lo := 8, w := 16, ty := .ro, rst := 0x0 }
def LGR_PLAN.RATIO_PCT : Field := { reg := .LGR_PLAN, lo := 24, w := 8, ty := .ro, rst := 0x0 }
def LGR_PLAN.HOUR : Field := { reg := .LGR_PLAN, lo := 32, w := 32, ty := .ro, rst := 0x0 }
def EVC_NMI.LAST : Field := { reg := .EVC_NMI, lo := 0, w := 10, ty := .ro, rst := 0x0 }
def EVC_NMI.COUNT : Field := { reg := .EVC_NMI, lo := 16, w := 16, ty := .ro, rst := 0x0 }
def EVC_PEND.LEVEL : Field := { reg := .EVC_PEND, lo := 0, w := 64, ty := .ro, rst := 0x0 }
def EVC_SRC_CFG.EN : Field := { reg := .EVC_SRC_CFG, lo := 0, w := 1, ty := .rw, rst := 0x1 }
def EVC_SRC_CFG.WORLD : Field := { reg := .EVC_SRC_CFG, lo := 1, w := 1, ty := .srw, rst := 0x0 }
def EVC_SRC_CFG.TTYPE : Field := { reg := .EVC_SRC_CFG, lo := 2, w := 2, ty := .rw, rst := 0x0 }
def EVC_SRC_CFG.TIDX : Field := { reg := .EVC_SRC_CFG, lo := 16, w := 11, ty := .rw, rst := 0x0 }
def EVC_SRC_CFG.RATE : Field := { reg := .EVC_SRC_CFG, lo := 32, w := 16, ty := .rw, rst := 0x0 }
def EVC_SRC_CFG.NMI : Field := { reg := .EVC_SRC_CFG, lo := 48, w := 1, ty := .ro, rst := 0x1 }
def EVC_SRC_CNT.FIRED : Field := { reg := .EVC_SRC_CNT, lo := 0, w := 32, ty := .ro, rst := 0x0 }
def EVC_SRC_CNT.MERGED : Field := { reg := .EVC_SRC_CNT, lo := 32, w := 16, ty := .ro, rst := 0x0 }
def EVC_SRC_CNT.DISCARDED : Field := { reg := .EVC_SRC_CNT, lo := 48, w := 16, ty := .ro, rst := 0x0 }
def MSIX_ADDR.ADDR : Field := { reg := .MSIX_ADDR, lo := 0, w := 64, ty := .rw, rst := 0x0 }
def MSIX_CTL.DATA : Field := { reg := .MSIX_CTL, lo := 0, w := 32, ty := .rw, rst := 0x0 }
def MSIX_CTL.MASK : Field := { reg := .MSIX_CTL, lo := 32, w := 1, ty := .rw, rst := 0x1 }
def MSIX_PBA.PEND : Field := { reg := .MSIX_PBA, lo := 0, w := 64, ty := .ro, rst := 0x0 }

end F

/-- Registers of chapter 01 of spec/. -/
def regTable01a : List RegRow := [
  { reg := .ALN_CFG, base := 0x1400000, dims := [],
    fields := [F.ALN_CFG.AUTO_TRAIN, F.ALN_CFG.REQ_SIG, F.ALN_CFG.LOCK] },
  { reg := .ALN_SUMMARY, base := 0x1400008, dims := [],
    fields := [F.ALN_SUMMARY.UP, F.ALN_SUMMARY.FENCED, F.ALN_SUMMARY.ABSENT, F.ALN_SUMMARY.PKG_GEN] },
  { reg := .ALN_FEAT, base := 0x1400010, dims := [],
    fields := [F.ALN_FEAT.COH] },
  { reg := .ALN_PORT_CTL, base := 0x1401000, dims := [(14, 0x1000)],
    fields := [F.ALN_PORT_CTL.EN, F.ALN_PORT_CTL.RESTART, F.ALN_PORT_CTL.WIDTH_RESTORE, F.ALN_PORT_CTL.UNFENCE, F.ALN_PORT_CTL.REPLAY_LIMIT] },
  { reg := .ALN_PORT_STATUS, base := 0x1401008, dims := [(14, 0x1000)],
    fields := [F.ALN_PORT_STATUS.STATE, F.ALN_PORT_STATUS.STATE_Q, F.ALN_PORT_STATUS.WIDTH_P, F.ALN_PORT_STATUS.WIDTH_Q, F.ALN_PORT_STATUS.FAILS, F.ALN_PORT_STATUS.BASE_ON_SPARES, F.ALN_PORT_STATUS.EVT_FENCE, F.ALN_PORT_STATUS.EVT_RETRAIN, F.ALN_PORT_STATUS.EVT_WIDTH_DOWN, F.ALN_PORT_STATUS.EVT_REPAIR, F.ALN_PORT_STATUS.EVT_RESET_SEEN] },
  { reg := .ALN_PORT_TRAINED, base := 0x1401010, dims := [(14, 0x1000)],
    fields := [F.ALN_PORT_TRAINED.REC_P, F.ALN_PORT_TRAINED.REC_Q] },
  { reg := .ALN_PORT_FENCE, base := 0x1401018, dims := [(14, 0x1000)],
    fields := [F.ALN_PORT_FENCE.CAUSE, F.ALN_PORT_FENCE.COUNT] },
  { reg := .ALN_PORT_CAP, base := 0x1401040, dims := [(14, 0x1000), (8, 0x8)],
    fields := [F.ALN_PORT_CAP.BYTES] },
  { reg := .ALN_PORT_REPAIR_P, base := 0x1401080, dims := [(14, 0x1000)],
    fields := [F.ALN_PORT_REPAIR_P.RX_SPARE0, F.ALN_PORT_REPAIR_P.TX_SPARE0, F.ALN_PORT_REPAIR_P.RX_SPARE1, F.ALN_PORT_REPAIR_P.TX_SPARE1, F.ALN_PORT_REPAIR_P.RX_SPARE2, F.ALN_PORT_REPAIR_P.TX_SPARE2, F.ALN_PORT_REPAIR_P.RX_SPARE3, F.ALN_PORT_REPAIR_P.TX_SPARE3] },
  { reg := .ALN_PORT_REPAIR_Q, base := 0x1401088, dims := [(14, 0x1000)],
    fields := [F.ALN_PORT_REPAIR_Q.RX_SPARE0, F.ALN_PORT_REPAIR_Q.TX_SPARE0, F.ALN_PORT_REPAIR_Q.RX_SPARE1, F.ALN_PORT_REPAIR_Q.TX_SPARE1, F.ALN_PORT_REPAIR_Q.RX_SPARE2, F.ALN_PORT_REPAIR_Q.TX_SPARE2, F.ALN_PORT_REPAIR_Q.RX_SPARE3, F.ALN_PORT_REPAIR_Q.TX_SPARE3] },
  { reg := .ALN_PORT_CNT, base := 0x14010C0, dims := [(14, 0x1000)],
    fields := [F.ALN_PORT_CNT.REPLAYS, F.ALN_PORT_CNT.RETRAINS, F.ALN_PORT_CNT.TRAIN_FAILS] },
  { reg := .ALN_PORT_SIG, base := 0x1401100, dims := [(14, 0x1000), (8, 0x8)],
    fields := [F.ALN_PORT_SIG.BYTES] },
  { reg := .CD_IDENT, base := 0x2000000, dims := [(12, 0x200000)],
    fields := [F.CD_IDENT.SITE, F.CD_IDENT.ORIENT, F.CD_IDENT.GEN, F.CD_IDENT.STEP, F.CD_IDENT.MAX_CLK, F.CD_IDENT.WS_LINES] } ]

/-- Registers of chapter 02 of spec/. -/
def regTable02a : List RegRow := [
  { reg := .BEAT_CFG, base := 0x800000, dims := [],
    fields := [F.BEAT_CFG.EN_A, F.BEAT_CFG.EN_B, F.BEAT_CFG.PRIMARY, F.BEAT_CFG.AUTO_REVERT, F.BEAT_CFG.RATE_A, F.BEAT_CFG.RATE_B, F.BEAT_CFG.SPB, F.BEAT_CFG.HOLD_MAX, F.BEAT_CFG.FMIN, F.BEAT_CFG.FMAX] },
  { reg := .BEAT_CTL, base := 0x800008, dims := [],
    fields := [F.BEAT_CTL.SW_LOAD, F.BEAT_CTL.ADOPT, F.BEAT_CTL.FORCE_SWITCH] },
  { reg := .BEAT_STATUS, base := 0x800010, dims := [],
    fields := [F.BEAT_STATUS.UNIT, F.BEAT_STATUS.ACTIVE, F.BEAT_STATUS.STATE_A, F.BEAT_STATUS.STATE_B, F.BEAT_STATUS.MISMATCH_A, F.BEAT_STATUS.MISMATCH_B, F.BEAT_STATUS.SWLOAD_LOST, F.BEAT_STATUS.EVT_A, F.BEAT_STATUS.EVT_B, F.BEAT_STATUS.EVT_SWITCH, F.BEAT_STATUS.EVT_HOLD, F.BEAT_STATUS.EVT_EXPIRED, F.BEAT_STATUS.EVT_MISMATCH, F.BEAT_STATUS.EVT_LATE, F.BEAT_STATUS.EVT_CMD] },
  { reg := .BEAT_COUNT, base := 0x800018, dims := [],
    fields := [F.BEAT_COUNT.COUNT] },
  { reg := .BEAT_FINE, base := 0x800020, dims := [],
    fields := [F.BEAT_FINE.FINE] },
  { reg := .BEAT_LOAD, base := 0x800028, dims := [],
    fields := [F.BEAT_LOAD.VALUE] },
  { reg := .BEAT_MON, base := 0x800030, dims := [],
    fields := [F.BEAT_MON.FREQ_A, F.BEAT_MON.FREQ_B, F.BEAT_MON.AB_PHASE] },
  { reg := .BEAT_SKEW, base := 0x800038, dims := [],
    fields := [F.BEAT_SKEW.SKEW_A, F.BEAT_SKEW.SKEW_B] },
  { reg := .BEAT_CNT_A, base := 0x800040, dims := [],
    fields := [F.BEAT_CNT_A.CODE_ERR, F.BEAT_CNT_A.CRC_ERR, F.BEAT_CNT_A.TAG_MISMATCH, F.BEAT_CNT_A.UNKNOWN_TYPE] },
  { reg := .BEAT_SYNC_LAST, base := 0x800050, dims := [],
    fields := [F.BEAT_SYNC_LAST.CODE, F.BEAT_SYNC_LAST.BEAT] },
  { reg := .BEAT_RQ_CFG, base := 0x800100, dims := [],
    fields := [F.BEAT_RQ_CFG.LAT, F.BEAT_RQ_CFG.LATE_ACCEPT, F.BEAT_RQ_CFG.LATE_TTYPE, F.BEAT_RQ_CFG.LATE_TRIG, F.BEAT_RQ_CFG.RUN] },
  { reg := .BEAT_RQ_CNT, base := 0x800108, dims := [],
    fields := [F.BEAT_RQ_CNT.LATE, F.BEAT_RQ_CNT.DISCARDED, F.BEAT_RQ_CNT.GAPS] },
  { reg := .BEAT_RQ_ACC, base := 0x800110, dims := [],
    fields := [F.BEAT_RQ_ACC.ACCEPTS] },
  { reg := .BEAT_RQ_SLACK, base := 0x800118, dims := [],
    fields := [F.BEAT_RQ_SLACK.MIN_SLACK] },
  { reg := .BEAT_OUT_CTL, base := 0x800200, dims := [],
    fields := [F.BEAT_OUT_CTL.EN, F.BEAT_OUT_CTL.DIV, F.BEAT_OUT_CTL.PHASE] },
  { reg := .BEAT_CNT_B, base := 0x800048, dims := [],
    fields := [F.BEAT_CNT_B.CODE_ERR, F.BEAT_CNT_B.CRC_ERR, F.BEAT_CNT_B.TAG_MISMATCH, F.BEAT_CNT_B.UNKNOWN_TYPE] },
  { reg := .BEAT_CAL_LAST, base := 0x800058, dims := [],
    fields := [F.BEAT_CAL_LAST.CODE, F.BEAT_CAL_LAST.BEAT] } ]

/-- Registers of chapter 03 of spec/. -/
def regTable03a : List RegRow := [
  { reg := .HLN_GRP_CFG, base := 0x9C0000, dims := [(8, 0x40)],
    fields := [F.HLN_GRP_CFG.RATE] },
  { reg := .HLN_GRP_STATUS, base := 0x9C0008, dims := [(8, 0x40)],
    fields := [F.HLN_GRP_STATUS.PLL_LOCK, F.HLN_GRP_STATUS.RATE_REFUSED, F.HLN_GRP_STATUS.CUR_RATE] },
  { reg := .LANE_CFG, base := 0x900000, dims := [(192, 0x1000)],
    fields := [F.LANE_CFG.RX_EN, F.LANE_CFG.TX_EN, F.LANE_CFG.RX_INV, F.LANE_CFG.TX_INV, F.LANE_CFG.SYNC_FRAMES, F.LANE_CFG.EXPECT_ID, F.LANE_CFG.MAXWORDS, F.LANE_CFG.MAX_AGE, F.LANE_CFG.ACC_EN, F.LANE_CFG.CMD_EN, F.LANE_CFG.TICKDIV, F.LANE_CFG.TICK_EN] },
  { reg := .LANE_CTL, base := 0x900008, dims := [(192, 0x1000)],
    fields := [F.LANE_CTL.CNT_CLR, F.LANE_CTL.RESYNC] },
  { reg := .LANE_STATUS, base := 0x900010, dims := [(192, 0x1000)],
    fields := [F.LANE_STATUS.STATE, F.LANE_STATUS.SIGNAL, F.LANE_STATUS.SEQ_EXP, F.LANE_STATUS.EVT_STATE, F.LANE_STATUS.EVT_SYNC_LOSS, F.LANE_STATUS.EVT_ID, F.LANE_STATUS.EVT_GAP, F.LANE_STATUS.EVT_HIST_OVF, F.LANE_STATUS.EVT_SC_RX, F.LANE_STATUS.EVT_SC_DONE] },
  { reg := .LANE_WM, base := 0x900018, dims := [(192, 0x1000)],
    fields := [F.LANE_WM.CLOSED] },
  { reg := .LANE_SC_CTL, base := 0x900030, dims := [(192, 0x1000)],
    fields := [F.LANE_SC_CTL.LEN, F.LANE_SC_CTL.TAG, F.LANE_SC_CTL.GO] },
  { reg := .LANE_SC_STATUS, base := 0x900038, dims := [(192, 0x1000)],
    fields := [F.LANE_SC_STATUS.TX_BUSY, F.LANE_SC_STATUS.RXFULL, F.LANE_SC_STATUS.RX_LEN, F.LANE_SC_STATUS.RX_TAG] },
  { reg := .LANE_CNT0, base := 0x900040, dims := [(192, 0x1000)],
    fields := [F.LANE_CNT0.FRAMES_OK, F.LANE_CNT0.CRC_ERR] },
  { reg := .LANE_CNT1, base := 0x900048, dims := [(192, 0x1000)],
    fields := [F.LANE_CNT1.LEN_ERR, F.LANE_CNT1.ID_ERR, F.LANE_CNT1.TYPE_ERR, F.LANE_CNT1.TIME_ERR] },
  { reg := .LANE_CNT2, base := 0x900050, dims := [(192, 0x1000)],
    fields := [F.LANE_CNT2.SEQ_LOST, F.LANE_CNT2.SEQ_DUP, F.LANE_CNT2.NOT_SYNC] },
  { reg := .LANE_CNT3, base := 0x900058, dims := [(192, 0x1000)],
    fields := [F.LANE_CNT3.BEAT_GAP, F.LANE_CNT3.OVERLAP, F.LANE_CNT3.LATE, F.LANE_CNT3.LOCK_LOSS] },
  { reg := .LANE_CNT4, base := 0x900060, dims := [(192, 0x1000)],
    fields := [F.LANE_CNT4.HDR_ERR, F.LANE_CNT4.CTRL_ERR, F.LANE_CNT4.HIST_OVF] },
  { reg := .LANE_HITS_IN, base := 0x900068, dims := [(192, 0x1000)],
    fields := [F.LANE_HITS_IN.HITS_IN] },
  { reg := .LANE_HITS_OUT, base := 0x900070, dims := [(192, 0x1000)],
    fields := [F.LANE_HITS_OUT.HITS_OUT] },
  { reg := .LANE_HITS_SUPP, base := 0x900078, dims := [(192, 0x1000)],
    fields := [F.LANE_HITS_SUPP.SUPP] },
  { reg := .LANE_HITS_DROP, base := 0x900080, dims := [(192, 0x1000)],
    fields := [F.LANE_HITS_DROP.UNBOUND, F.LANE_HITS_DROP.OFFSET_ERR, F.LANE_HITS_DROP.ORDER_ERR] },
  { reg := .LANE_SC_CNT, base := 0x900088, dims := [(192, 0x1000)],
    fields := [F.LANE_SC_CNT.SC_SENT, F.LANE_SC_CNT.SC_RECV, F.LANE_SC_CNT.SC_OVERRUN, F.LANE_SC_CNT.TICK_SKIP] },
  { reg := .LANE_TX_CNT, base := 0x900090, dims := [(192, 0x1000)],
    fields := [F.LANE_TX_CNT.ACCEPTS_SENT, F.LANE_TX_CNT.ACC_DROP, F.LANE_TX_CNT.CMD_SENT] },
  { reg := .LANE_SC_TXBUF, base := 0x900400, dims := [(192, 0x1000), (128, 0x8)],
    fields := [F.LANE_SC_TXBUF.WORD] } ]

/-- Registers of chapter 03 of spec/. -/
def regTable03b : List RegRow := [
  { reg := .LANE_SC_RXBUF, base := 0x900800, dims := [(192, 0x1000), (128, 0x8)],
    fields := [F.LANE_SC_RXBUF.WORD] } ]

/-- Registers of chapter 04 of spec/. -/
def regTable04a : List RegRow := [
  { reg := .CTX_CFG, base := 0xA00000, dims := [],
    fields := [F.CTX_CFG.FLIP_LEAD, F.CTX_CFG.MERGE_HOLD] },
  { reg := .CTX_STATUS, base := 0xA00008, dims := [],
    fields := [F.CTX_STATUS.READY, F.CTX_STATUS.OVL_USED, F.CTX_STATUS.SLOTS_BUSY, F.CTX_STATUS.EVT_STALE, F.CTX_STATUS.EVT_FLIP_MOVED, F.CTX_STATUS.EVT_SPOOF, F.CTX_STATUS.EVT_BACKLOG, F.CTX_STATUS.EVT_FLIP] },
  { reg := .CTX_CNT0, base := 0xA00010, dims := [],
    fields := [F.CTX_CNT0.STALE_VIEW, F.CTX_CNT0.FLIP_MOVED, F.CTX_CNT0.SPOOF] },
  { reg := .CTX_CNT1, base := 0xA00018, dims := [],
    fields := [F.CTX_CNT1.FLIPS, F.CTX_CNT1.STALE] },
  { reg := .CTX_BANK_WAIT, base := 0xA00020, dims := [],
    fields := [F.CTX_BANK_WAIT.WAIT] },
  { reg := .CTX_EPOCH, base := 0xA00100, dims := [(64, 0x10)],
    fields := [F.CTX_EPOCH.STATE, F.CTX_EPOCH.OWNER, F.CTX_EPOCH.ROLE_EPOCH, F.CTX_EPOCH.ENTRIES, F.CTX_EPOCH.FLIP_MOVED] },
  { reg := .CTX_EPOCH_BEAT, base := 0xA00108, dims := [(64, 0x10)],
    fields := [F.CTX_EPOCH_BEAT.F] },
  { reg := .CTX_BANK_OVL, base := 0xA00800, dims := [(128, 0x8)],
    fields := [F.CTX_BANK_OVL.USED] },
  { reg := .CTX_LANE_DROP, base := 0xA01000, dims := [(192, 0x8)],
    fields := [F.CTX_LANE_DROP.DROPS] } ]

/-- Registers of chapter 05 of spec/. -/
def regTable05a : List RegRow := [
  { reg := .TRG_CFG, base := 0xB00000, dims := [],
    fields := [F.TRG_CFG.CLOSE_MAX, F.TRG_CFG.SWAP_LEAD] },
  { reg := .TRG_STATUS, base := 0xB00008, dims := [],
    fields := [F.TRG_STATUS.READY, F.TRG_STATUS.LOOKAHEAD, F.TRG_STATUS.EVT_SWAP_MOVED, F.TRG_STATUS.EVT_SPOOF, F.TRG_STATUS.EVT_GUEST_LATE, F.TRG_STATUS.EVT_SK_LATE] },
  { reg := .TRG_CNT0, base := 0xB00010, dims := [],
    fields := [F.TRG_CNT0.SPOOF, F.TRG_CNT0.STALE, F.TRG_CNT0.SWAP_MOVED, F.TRG_CNT0.SUB_MASKED] },
  { reg := .TRG_CNT1, base := 0xB00018, dims := [],
    fields := [F.TRG_CNT1.GUEST_LATE, F.TRG_CNT1.CANDIDATES] },
  { reg := .TRG_VETO0, base := 0xB00020, dims := [],
    fields := [F.TRG_VETO0.VETO_THROTTLE, F.TRG_VETO0.VETO_DEADTIME] },
  { reg := .TRG_VETO1, base := 0xB00028, dims := [],
    fields := [F.TRG_VETO1.VETO_BUCKET, F.TRG_VETO1.ACCEPTED] },
  { reg := .TRG_CMB_STATE, base := 0xB00030, dims := [],
    fields := [F.TRG_CMB_STATE.LEVEL, F.TRG_CMB_STATE.LAST_VALID] },
  { reg := .TRG_LAST_ACC, base := 0xB00038, dims := [],
    fields := [F.TRG_LAST_ACC.BEAT] },
  { reg := .TRG_UNIT_STATUS, base := 0xB01000, dims := [(65, 0x20)],
    fields := [F.TRG_UNIT_STATUS.ARMED, F.TRG_UNIT_STATUS.MOVED, F.TRG_UNIT_STATUS.LOOK, F.TRG_UNIT_STATUS.OWNER, F.TRG_UNIT_STATUS.ROLE_EPOCH, F.TRG_UNIT_STATUS.EVT_SWAP, F.TRG_UNIT_STATUS.EVT_SUB_MASKED, F.TRG_UNIT_STATUS.EVT_OWNER] },
  { reg := .TRG_UNIT_SWAP, base := 0xB01008, dims := [(65, 0x20)],
    fields := [F.TRG_UNIT_SWAP.S] },
  { reg := .TRG_UNIT_MENU, base := 0xB01010, dims := [(65, 0x20)],
    fields := [F.TRG_UNIT_MENU.ACTIVE_ID, F.TRG_UNIT_MENU.ARMED_ID] },
  { reg := .TRG_UNIT_EVAL, base := 0xB01018, dims := [(65, 0x20)],
    fields := [F.TRG_UNIT_EVAL.BEAT] },
  { reg := .TRG_BIT_CNT, base := 0xB04000, dims := [(1096, 0x8)],
    fields := [F.TRG_BIT_CNT.RAW, F.TRG_BIT_CNT.PASS] },
  { reg := .TRG_SK_LATE, base := 0xB08000, dims := [(192, 0x8)],
    fields := [F.TRG_SK_LATE.HITS] } ]

/-- Registers of chapter 06 of spec/. -/
def regTable06a : List RegRow := [
  { reg := .TIO_OUT_CTL, base := 0xC00000, dims := [],
    fields := [F.TIO_OUT_CTL.TRIG_DRV, F.TIO_OUT_CTL.BUSY_DRV, F.TIO_OUT_CTL.FWD_BUSY_IN, F.TIO_OUT_CTL.THR_BUSY_IN, F.TIO_OUT_CTL.FORCE_BUSY, F.TIO_OUT_CTL.FORCE_THROTTLE, F.TIO_OUT_CTL.TRIG_MASK, F.TIO_OUT_CTL.BUSY_HOLD] },
  { reg := .TIO_STATUS, base := 0xC00008, dims := [],
    fields := [F.TIO_STATUS.BUSY, F.TIO_STATUS.THROTTLE, F.TIO_STATUS.C_RUN, F.TIO_STATUS.C_BEAT, F.TIO_STATUS.C_EVB, F.TIO_STATUS.C_BUSY_IN, F.TIO_STATUS.C_FORCE, F.TIO_STATUS.C_HOLD] },
  { reg := .TIO_BUSY_BEATS, base := 0xC00010, dims := [],
    fields := [F.TIO_BUSY_BEATS.BEATS] },
  { reg := .TIO_THR_BEATS, base := 0xC00018, dims := [],
    fields := [F.TIO_THR_BEATS.BEATS] },
  { reg := .TIO_TRIG_CNT, base := 0xC00100, dims := [(8, 0x8)],
    fields := [F.TIO_TRIG_CNT.PULSES] },
  { reg := .TIO_IN_CFG, base := 0xC01000, dims := [(24, 0x20)],
    fields := [F.TIO_IN_CFG.EN, F.TIO_IN_CFG.INV, F.TIO_IN_CFG.MODE, F.TIO_IN_CFG.STUCK_LIM, F.TIO_IN_CFG.CHAT_LIM] },
  { reg := .TIO_IN_STATUS, base := 0xC01008, dims := [(24, 0x20)],
    fields := [F.TIO_IN_STATUS.LEVEL, F.TIO_IN_STATUS.HONOURED, F.TIO_IN_STATUS.STUCK, F.TIO_IN_STATUS.CHATTER, F.TIO_IN_STATUS.MASKED, F.TIO_IN_STATUS.EVT_STUCK, F.TIO_IN_STATUS.EVT_CHATTER, F.TIO_IN_STATUS.EVT_CLEAR] },
  { reg := .TIO_IN_CTL, base := 0xC01010, dims := [(24, 0x20)],
    fields := [F.TIO_IN_CTL.REARM] },
  { reg := .TIO_IN_CNT, base := 0xC01018, dims := [(24, 0x20)],
    fields := [F.TIO_IN_CNT.EDGES, F.TIO_IN_CNT.STUCKS, F.TIO_IN_CNT.CHATTERS] } ]

/-- Registers of chapter 07 of spec/. -/
def regTable07a : List RegRow := [
  { reg := .EVB_CFG, base := 0xD00000, dims := [],
    fields := [F.EVB_CFG.EN, F.EVB_CFG.ASHIFT] },
  { reg := .EVB_STATUS, base := 0xD00008, dims := [],
    fields := [F.EVB_STATUS.READY, F.EVB_STATUS.BP, F.EVB_STATUS.CTX_FREE, F.EVB_STATUS.FIFO, F.EVB_STATUS.EVT_ACC_LOST, F.EVB_STATUS.EVT_BP, F.EVB_STATUS.EVT_SPOOF, F.EVB_STATUS.EVT_REFUSED, F.EVB_STATUS.EVT_GUEST_STALE] },
  { reg := .EVB_BP_CFG, base := 0xD00010, dims := [],
    fields := [F.EVB_BP_CFG.CTX_LOW, F.EVB_BP_CFG.CTX_HIGH, F.EVB_BP_CFG.BP_AGE] },
  { reg := .EVB_EVN_NEXT, base := 0xD00018, dims := [],
    fields := [F.EVB_EVN_NEXT.EVN] },
  { reg := .EVB_CNT0, base := 0xD00020, dims := [],
    fields := [F.EVB_CNT0.ACC_LOST, F.EVB_CNT0.ACC_OFF] },
  { reg := .EVB_CNT1, base := 0xD00028, dims := [],
    fields := [F.EVB_CNT1.POSTED] },
  { reg := .EVB_CNT2, base := 0xD00030, dims := [],
    fields := [F.EVB_CNT2.SPOOF, F.EVB_CNT2.GUEST_STALE, F.EVB_CNT2.QDROP, F.EVB_CNT2.BAD_DB] },
  { reg := .EVB_HIST_CFG, base := 0xD01000, dims := [(192, 0x20)],
    fields := [F.EVB_HIST_CFG.EN, F.EVB_HIST_CFG.SIZE] },
  { reg := .EVB_HIST_BASE, base := 0xD01008, dims := [(192, 0x20)],
    fields := [F.EVB_HIST_BASE.BASE] },
  { reg := .EVB_HIST_WPTR, base := 0xD01010, dims := [(192, 0x20)],
    fields := [F.EVB_HIST_WPTR.WPTR] },
  { reg := .EVB_HIST_HW, base := 0xD01018, dims := [(192, 0x20)],
    fields := [F.EVB_HIST_HW.HW] },
  { reg := .EVB_ROUTE_CFG, base := 0xD04000, dims := [(16, 0x40)],
    fields := [F.EVB_ROUTE_CFG.EN, F.EVB_ROUTE_CFG.POOL, F.EVB_ROUTE_CFG.GUEST, F.EVB_ROUTE_CFG.OWNER, F.EVB_ROUTE_CFG.PRE, F.EVB_ROUTE_CFG.POST, F.EVB_ROUTE_CFG.MAXENT] },
  { reg := .EVB_ROUTE_TMO, base := 0xD04008, dims := [(16, 0x40)],
    fields := [F.EVB_ROUTE_TMO.TIMEOUT] },
  { reg := .EVB_ROUTE_LANES, base := 0xD04010, dims := [(16, 0x40), (3, 0x8)],
    fields := [F.EVB_ROUTE_LANES.MASK] },
  { reg := .EVB_ROUTE_STATUS, base := 0xD04028, dims := [(16, 0x40)],
    fields := [F.EVB_ROUTE_STATUS.NSUB, F.EVB_ROUTE_STATUS.EVT_NOROUTE, F.EVB_ROUTE_STATUS.EVT_REFUSED] },
  { reg := .EVB_ROUTE_CNT, base := 0xD04030, dims := [(16, 0x40)],
    fields := [F.EVB_ROUTE_CNT.NOROUTE, F.EVB_ROUTE_CNT.DEGRADED] },
  { reg := .EVB_ROUTE_EV, base := 0xD04038, dims := [(16, 0x40)],
    fields := [F.EVB_ROUTE_EV.POSTED] },
  { reg := .EVB_POOL_BASE, base := 0xD06000, dims := [(8, 0x40)],
    fields := [F.EVB_POOL_BASE.BASE] },
  { reg := .EVB_POOL_CFG, base := 0xD06008, dims := [(8, 0x40)],
    fields := [F.EVB_POOL_CFG.EN, F.EVB_POOL_CFG.PLATES, F.EVB_POOL_CFG.LOW, F.EVB_POOL_CFG.HIGH] },
  { reg := .EVB_POOL_STATUS, base := 0xD06010, dims := [(8, 0x40)],
    fields := [F.EVB_POOL_STATUS.USED, F.EVB_POOL_STATUS.EVT_LOW] } ]

/-- Registers of chapter 07 of spec/. -/
def regTable07b : List RegRow := [
  { reg := .EVB_EVQ_BASE, base := 0xD10000, dims := [(1024, 0x20)],
    fields := [F.EVB_EVQ_BASE.BASE] },
  { reg := .EVB_EVQ_CFG, base := 0xD10008, dims := [(1024, 0x20)],
    fields := [F.EVB_EVQ_CFG.EN, F.EVB_EVQ_CFG.QSIZE, F.EVB_EVQ_CFG.OWNER, F.EVB_EVQ_CFG.ROLE_EPOCH] },
  { reg := .EVB_EVQ_IDX, base := 0xD10010, dims := [(1024, 0x20)],
    fields := [F.EVB_EVQ_IDX.PI, F.EVB_EVQ_IDX.CI, F.EVB_EVQ_IDX.BAD_DB, F.EVB_EVQ_IDX.STALE] } ]

/-- Registers of chapter 08 of spec/. -/
def regTable08a : List RegRow := [
  { reg := .CORE_CTL, base := 0x2080000, dims := [(12, 0x200000), (4, 0x40000), (12, 0x1000)],
    fields := [F.CORE_CTL.RUN, F.CORE_CTL.CORE_RESET] },
  { reg := .CORE_RVBAR, base := 0x2080008, dims := [(12, 0x200000), (4, 0x40000), (12, 0x1000)],
    fields := [F.CORE_RVBAR.ADDR] },
  { reg := .CORE_STATUS, base := 0x2080010, dims := [(12, 0x200000), (4, 0x40000), (12, 0x1000)],
    fields := [F.CORE_STATUS.STATE, F.CORE_STATUS.NS, F.CORE_STATUS.PRIV, F.CORE_STATUS.LOOP_FAULT, F.CORE_STATUS.PRF_OPEN] },
  { reg := .CORE_MTIMECMP, base := 0x2080018, dims := [(12, 0x200000), (4, 0x40000), (12, 0x1000)],
    fields := [F.CORE_MTIMECMP.CMP] },
  { reg := .CORE_MSIP, base := 0x2080020, dims := [(12, 0x200000), (4, 0x40000), (12, 0x1000)],
    fields := [F.CORE_MSIP.MSIP] },
  { reg := .CORE_SSIP_SET, base := 0x2080028, dims := [(12, 0x200000), (4, 0x40000), (12, 0x1000)],
    fields := [F.CORE_SSIP_SET.SSIP] },
  { reg := .CORE_CLAIM_M, base := 0x2080030, dims := [(12, 0x200000), (4, 0x40000), (12, 0x1000)],
    fields := [F.CORE_CLAIM_M.SOURCE, F.CORE_CLAIM_M.VALID] },
  { reg := .CORE_CLAIM_S, base := 0x2080038, dims := [(12, 0x200000), (4, 0x40000), (12, 0x1000)],
    fields := [F.CORE_CLAIM_S.SOURCE, F.CORE_CLAIM_S.VALID] },
  { reg := .CORE_IRQ_CNT, base := 0x2080040, dims := [(12, 0x200000), (4, 0x40000), (12, 0x1000)],
    fields := [F.CORE_IRQ_CNT.FIFO_FULL] } ]

/-- Registers of chapter 09 of spec/. -/
def regTable09a : List RegRow := [
  { reg := .L2_CTL, base := 0x2090000, dims := [(12, 0x200000), (4, 0x40000)],
    fields := [F.L2_CTL.EN, F.L2_CTL.FLUSH, F.L2_CTL.INV] },
  { reg := .L2_STATUS, base := 0x2090008, dims := [(12, 0x200000), (4, 0x40000)],
    fields := [F.L2_STATUS.DIRTY, F.L2_STATUS.VALID, F.L2_STATUS.READY, F.L2_STATUS.ENABLED, F.L2_STATUS.LB_USED, F.L2_STATUS.DISABLE_REFUSED, F.L2_STATUS.INV_REFUSED] },
  { reg := .L2_HITS, base := 0x2090010, dims := [(12, 0x200000), (4, 0x40000)],
    fields := [F.L2_HITS.HITS] },
  { reg := .L2_MISSES, base := 0x2090018, dims := [(12, 0x200000), (4, 0x40000)],
    fields := [F.L2_MISSES.MISSES] },
  { reg := .L2_CNT0, base := 0x2090020, dims := [(12, 0x200000), (4, 0x40000)],
    fields := [F.L2_CNT0.SNOOPS, F.L2_CNT0.SNOOP_LB, F.L2_CNT0.WAKES] },
  { reg := .DIR_STATUS, base := 0x1100000, dims := [],
    fields := [F.DIR_STATUS.READY] },
  { reg := .DIR_CL_FENCED, base := 0x1100008, dims := [],
    fields := [F.DIR_CL_FENCED.MASK] },
  { reg := .DIR_PROBE_ADDR, base := 0x1100010, dims := [],
    fields := [F.DIR_PROBE_ADDR.LINE] },
  { reg := .DIR_PROBE_DATA, base := 0x1100018, dims := [],
    fields := [F.DIR_PROBE_DATA.STATE, F.DIR_PROBE_DATA.BCAST, F.DIR_PROBE_DATA.PIN, F.DIR_PROBE_DATA.PV, F.DIR_PROBE_DATA.P0, F.DIR_PROBE_DATA.P1, F.DIR_PROBE_DATA.P2, F.DIR_PROBE_DATA.P3, F.DIR_PROBE_DATA.WAY, F.DIR_PROBE_DATA.HIT, F.DIR_PROBE_DATA.BUSY, F.DIR_PROBE_DATA.DONE] },
  { reg := .DIR_SLICE_STATUS, base := 0x1101000, dims := [(32, 0x40)],
    fields := [F.DIR_SLICE_STATUS.VALID, F.DIR_SLICE_STATUS.PENDING, F.DIR_SLICE_STATUS.EVT_PIN_EVICT, F.DIR_SLICE_STATUS.EVT_SWEEP, F.DIR_SLICE_STATUS.EVT_POISONED] },
  { reg := .DIR_SLICE_CNT0, base := 0x1101008, dims := [(32, 0x40)],
    fields := [F.DIR_SLICE_CNT0.REQUESTS] },
  { reg := .DIR_SLICE_CNT1, base := 0x1101010, dims := [(32, 0x40)],
    fields := [F.DIR_SLICE_CNT1.SNOOPS, F.DIR_SLICE_CNT1.BCAST_SNOOPS] },
  { reg := .DIR_SLICE_CNT2, base := 0x1101018, dims := [(32, 0x40)],
    fields := [F.DIR_SLICE_CNT2.EVICTIONS, F.DIR_SLICE_CNT2.PIN_EVICTIONS, F.DIR_SLICE_CNT2.STALE_NOTICES] },
  { reg := .DIR_SLICE_CNT3, base := 0x1101020, dims := [(32, 0x40)],
    fields := [F.DIR_SLICE_CNT3.ORDERED, F.DIR_SLICE_CNT3.POISONED, F.DIR_SLICE_CNT3.OWNER_MISS] } ]

/-- Registers of chapter 10 of spec/. -/
def regTable10a : List RegRow := [
  { reg := .PRF_CFG, base := 0x1200000, dims := [],
    fields := [F.PRF_CFG.DEFER_BUDGET, F.PRF_CFG.HOLD_MAX, F.PRF_CFG.GROUP_TMO] },
  { reg := .PRF_STATUS, base := 0x1200008, dims := [],
    fields := [F.PRF_STATUS.READY, F.PRF_STATUS.GROUPS_USED, F.PRF_STATUS.EVT_TIMEOUT, F.PRF_STATUS.EVT_DENIED, F.PRF_STATUS.EVT_STALE, F.PRF_STATUS.EVT_QUOTA, F.PRF_STATUS.EVT_OVERFLOW] },
  { reg := .PRF_CNT0, base := 0x1200010, dims := [],
    fields := [F.PRF_CNT0.GROUP_COMMITS] },
  { reg := .PRF_CNT1, base := 0x1200018, dims := [],
    fields := [F.PRF_CNT1.SINGLE_COMMITS] },
  { reg := .PRF_CNT2, base := 0x1200020, dims := [],
    fields := [F.PRF_CNT2.TIMEOUTS, F.PRF_CNT2.STALE, F.PRF_CNT2.DENIED, F.PRF_CNT2.QUOTA] },
  { reg := .PRF_CNT3, base := 0x1200028, dims := [],
    fields := [F.PRF_CNT3.DB_RELEASED] },
  { reg := .PRF_CAUSE_CNT, base := 0x1200108, dims := [(11, 0x8)],
    fields := [F.PRF_CAUSE_CNT.ABORTS] },
  { reg := .PRF_SLICE_GRP, base := 0x1201000, dims := [(256, 0x8)],
    fields := [F.PRF_SLICE_GRP.LIMIT, F.PRF_SLICE_GRP.USED, F.PRF_SLICE_GRP.OVER_QUOTA] },
  { reg := .PRF_GRP_STATUS, base := 0x1210000, dims := [(4096, 0x10)],
    fields := [F.PRF_GRP_STATUS.STATE, F.PRF_GRP_STATUS.NS, F.PRF_GRP_STATUS.SLICE, F.PRF_GRP_STATUS.ROLE_EPOCH, F.PRF_GRP_STATUS.EXPECT, F.PRF_GRP_STATUS.JOINED, F.PRF_GRP_STATUS.SEALED, F.PRF_GRP_STATUS.LAST_CAUSE] },
  { reg := .PRF_GRP_INFO, base := 0x1210008, dims := [(4096, 0x10)],
    fields := [F.PRF_GRP_INFO.ALLOC_CORE, F.PRF_GRP_INFO.LAST_ABORT_CORE, F.PRF_GRP_INFO.DB_HELD] } ]

/-- Registers of chapter 11 of spec/. -/
def regTable11a : List RegRow := [
  { reg := .STP_CFG, base := 0xE00000, dims := [],
    fields := [F.STP_CFG.ENG_EN] },
  { reg := .STP_STATUS, base := 0xE00008, dims := [],
    fields := [F.STP_STATUS.READY, F.STP_STATUS.BUSY, F.STP_STATUS.EVT_SPOOF, F.STP_STATUS.EVT_QUOTA] },
  { reg := .STP_CNT0, base := 0xE00010, dims := [],
    fields := [F.STP_CNT0.JOBS_OK, F.STP_CNT0.JOBS_FAILED] },
  { reg := .STP_CNT1, base := 0xE00018, dims := [],
    fields := [F.STP_CNT1.BLOCKS] },
  { reg := .STP_CNT2, base := 0xE00020, dims := [],
    fields := [F.STP_CNT2.CLIPS, F.STP_CNT2.SPOOF, F.STP_CNT2.OUT_OF_SPACE] },
  { reg := .STP_ENG_STATUS, base := 0xE01000, dims := [(16, 0x20)],
    fields := [F.STP_ENG_STATUS.STATE, F.STP_ENG_STATUS.SLICE, F.STP_ENG_STATUS.RING, F.STP_ENG_STATUS.EVT_FAIL] },
  { reg := .STP_ENG_IN, base := 0xE01008, dims := [(16, 0x20)],
    fields := [F.STP_ENG_IN.BYTES] },
  { reg := .STP_SLICE_SHARE, base := 0xE02000, dims := [(256, 0x8)],
    fields := [F.STP_SLICE_SHARE.SHARE, F.STP_SLICE_SHARE.USED, F.STP_SLICE_SHARE.OVER_QUOTA] },
  { reg := .ETH_PORT_CFG, base := 0xF00000, dims := [(4, 0x100)],
    fields := [F.ETH_PORT_CFG.EN, F.ETH_PORT_CFG.MODE, F.ETH_PORT_CFG.PFC_EN, F.ETH_PORT_CFG.MTU, F.ETH_PORT_CFG.PAUSE_MAX] },
  { reg := .ETH_PORT_STATUS, base := 0xF00008, dims := [(4, 0x100)],
    fields := [F.ETH_PORT_STATUS.READY, F.ETH_PORT_STATUS.LINK, F.ETH_PORT_STATUS.EVT_LINK, F.ETH_PORT_STATUS.EVT_SPOOF, F.ETH_PORT_STATUS.EVT_PAUSE] },
  { reg := .ETH_PORT_FRAMES, base := 0xF00010, dims := [(4, 0x100)],
    fields := [F.ETH_PORT_FRAMES.FRAMES_TX] },
  { reg := .ETH_PORT_BYTES, base := 0xF00018, dims := [(4, 0x100)],
    fields := [F.ETH_PORT_BYTES.BYTES_TX] },
  { reg := .ETH_PORT_CNT, base := 0xF00020, dims := [(4, 0x100)],
    fields := [F.ETH_PORT_CNT.SPOOF_DROP, F.ETH_PORT_CNT.PAUSE_TMO, F.ETH_PORT_CNT.LINK_ABORT, F.ETH_PORT_CNT.RX_DISCARD] },
  { reg := .ETH_Q_CFG, base := 0xF10000, dims := [(4, 0x1000), (64, 0x40)],
    fields := [F.ETH_Q_CFG.EN, F.ETH_Q_CFG.SUBPORT, F.ETH_Q_CFG.PCP, F.ETH_Q_CFG.OWNER, F.ETH_Q_CFG.ROLE_EPOCH] },
  { reg := .ETH_Q_FLOW, base := 0xF10008, dims := [(4, 0x1000), (64, 0x40), (7, 0x8)],
    fields := [F.ETH_Q_FLOW.BYTES] },
  { reg := .ETH_SLICE_MAC, base := 0xF80000, dims := [(256, 0x20)],
    fields := [F.ETH_SLICE_MAC.MAC, F.ETH_SLICE_MAC.VID, F.ETH_SLICE_MAC.VLAN_EN] },
  { reg := .ETH_SLICE_IP4, base := 0xF80008, dims := [(256, 0x20)],
    fields := [F.ETH_SLICE_IP4.ADDR, F.ETH_SLICE_IP4.IP4_EN] },
  { reg := .ETH_SLICE_IP6, base := 0xF80010, dims := [(256, 0x20), (2, 0x8)],
    fields := [F.ETH_SLICE_IP6.ADDR] } ]

/-- Registers of chapter 12 of spec/. -/
def regTable12a : List RegRow := [
  { reg := .MEM_WM, base := 0x1000000, dims := [],
    fields := [F.MEM_WM.HBM_WM, F.MEM_WM.DDR_WM, F.MEM_WM.LOCK, F.MEM_WM.WM_BUSY, F.MEM_WM.WM_REFUSED] },
  { reg := .MEM_WM_CNT, base := 0x1000008, dims := [],
    fields := [F.MEM_WM_CNT.DENIED, F.MEM_WM_CNT.UNMAPPED] },
  { reg := .MEM_BURN_CFG, base := 0x1000010, dims := [],
    fields := [F.MEM_BURN_CFG.EN, F.MEM_BURN_CFG.INTERVAL] },
  { reg := .MEM_RECODE, base := 0x1000020, dims := [(2, 0x8)],
    fields := [F.MEM_RECODE.PLATE, F.MEM_RECODE.ACTIVE, F.MEM_RECODE.POINTER] },
  { reg := .MEM_DDR_CFG, base := 0x1000030, dims := [],
    fields := [F.MEM_DDR_CFG.K, F.MEM_DDR_CFG.POP_ERR, F.MEM_DDR_CFG.DIMM_GIB, F.MEM_DDR_CFG.SR_KEEP] },
  { reg := .MEM_CTL_STATUS, base := 0x1001000, dims := [(16, 0x1000)],
    fields := [F.MEM_CTL_STATUS.PRESENT, F.MEM_CTL_STATUS.INIT_DONE, F.MEM_CTL_STATUS.PEND, F.MEM_CTL_STATUS.EVT_CE, F.MEM_CTL_STATUS.EVT_UE, F.MEM_CTL_STATUS.EVT_WALK, F.MEM_CTL_STATUS.EVT_MISC, F.MEM_CTL_STATUS.EVT_DENIED] },
  { reg := .MEM_CTL_CNT0, base := 0x1001008, dims := [(16, 0x1000)],
    fields := [F.MEM_CTL_CNT0.CE, F.MEM_CTL_CNT0.UE, F.MEM_CTL_CNT0.ADDR_ERR] },
  { reg := .MEM_CTL_CNT1, base := 0x1001010, dims := [(16, 0x1000)],
    fields := [F.MEM_CTL_CNT1.DIE_CORR, F.MEM_CTL_CNT1.WB_DROPPED, F.MEM_CTL_CNT1.HUB_CORR] },
  { reg := .MEM_CTL_LAST_UE, base := 0x1001018, dims := [(16, 0x1000)],
    fields := [F.MEM_CTL_LAST_UE.SHEET] },
  { reg := .MEM_BURN_PTR, base := 0x1001020, dims := [(16, 0x1000)],
    fields := [F.MEM_BURN_PTR.LOCAL, F.MEM_BURN_PTR.PASSES] },
  { reg := .MEM_FLIPCTL, base := 0x1001040, dims := [(16, 0x1000)],
    fields := [F.MEM_FLIPCTL.ARM, F.MEM_FLIPCTL.MATCH, F.MEM_FLIPCTL.ADDR_FLIP] },
  { reg := .MEM_FLIP_ADDR, base := 0x1001048, dims := [(16, 0x1000)],
    fields := [F.MEM_FLIP_ADDR.SHEET] },
  { reg := .MEM_FLIP, base := 0x1001080, dims := [(16, 0x1000), (16, 0x8)],
    fields := [F.MEM_FLIP.POS, F.MEM_FLIP.MASK] },
  { reg := .MEM_PLATE_CFG_H, base := 0x1020000, dims := [(192, 0x10)],
    fields := [F.MEM_PLATE_CFG_H.T, F.MEM_PLATE_CFG_H.T_OLD, F.MEM_PLATE_CFG_H.RECODE, F.MEM_PLATE_CFG_H.T_REFUSED] },
  { reg := .MEM_PLATE_CFG_D, base := 0x1040000, dims := [(2048, 0x10)],
    fields := [F.MEM_PLATE_CFG_D.T, F.MEM_PLATE_CFG_D.T_OLD, F.MEM_PLATE_CFG_D.RECODE, F.MEM_PLATE_CFG_D.T_REFUSED] },
  { reg := .MEM_PLATE_CNT_H, base := 0x1020008, dims := [(192, 0x10)],
    fields := [F.MEM_PLATE_CNT_H.CE, F.MEM_PLATE_CNT_H.UE] },
  { reg := .MEM_PLATE_CNT_D, base := 0x1040008, dims := [(2048, 0x10)],
    fields := [F.MEM_PLATE_CNT_D.CE, F.MEM_PLATE_CNT_D.UE] } ]

/-- Registers of chapter 13 of spec/. -/
def regTable13a : List RegRow := [
  { reg := .STN_CFG, base := 0x1301000, dims := [(2, 0x1000)],
    fields := [F.STN_CFG.OPEN, F.STN_CFG.TRIG_EN, F.STN_CFG.FRAG_EN, F.STN_CFG.CORE_NS, F.STN_CFG.TICKDIV] },
  { reg := .STN_STATUS, base := 0x1301008, dims := [(2, 0x1000)],
    fields := [F.STN_STATUS.READY, F.STN_STATUS.EVT_DENIED, F.STN_STATUS.EVT_REFUSED, F.STN_STATUS.EVT_TRIG_DROP, F.STN_STATUS.EVT_TMO] },
  { reg := .STN_RATE, base := 0x1301010, dims := [(2, 0x1000)],
    fields := [F.STN_RATE.RATE, F.STN_RATE.BURST] },
  { reg := .STN_TRIG_MASK, base := 0x1301018, dims := [(2, 0x1000)],
    fields := [F.STN_TRIG_MASK.MASK] },
  { reg := .STN_CNT0, base := 0x1301020, dims := [(2, 0x1000)],
    fields := [F.STN_CNT0.DENIED, F.STN_CNT0.THROTTLED] },
  { reg := .STN_CNT1, base := 0x1301028, dims := [(2, 0x1000)],
    fields := [F.STN_CNT1.BAD_MSG, F.STN_CNT1.TRIG_DROP, F.STN_CNT1.TMO, F.STN_CNT1.FRAG_OVF] },
  { reg := .STN_WIN, base := 0x1301100, dims := [(2, 0x1000), (8, 0x10)],
    fields := [F.STN_WIN.EN, F.STN_WIN.RD, F.STN_WIN.WR, F.STN_WIN.BASE] },
  { reg := .STN_WIN_LIMIT, base := 0x1301108, dims := [(2, 0x1000), (8, 0x10)],
    fields := [F.STN_WIN_LIMIT.LIMIT] } ]

/-- Registers of chapter 14 of spec/. -/
def regTable14a : List RegRow := [
  { reg := .HIF_PORT_CFG, base := 0x700000, dims := [(2, 0x100)],
    fields := [F.HIF_PORT_CFG.BAR4_EN] },
  { reg := .HIF_BAR4_SEL, base := 0x700008, dims := [(2, 0x100)],
    fields := [F.HIF_BAR4_SEL.BASE] },
  { reg := .HIF_PORT_STATUS, base := 0x700010, dims := [(2, 0x100)],
    fields := [F.HIF_PORT_STATUS.LINK_UP, F.HIF_PORT_STATUS.SPEED, F.HIF_PORT_STATUS.WIDTH, F.HIF_PORT_STATUS.FLIT, F.HIF_PORT_STATUS.DEGRADED, F.HIF_PORT_STATUS.FW_READY, F.HIF_PORT_STATUS.DSTATE, F.HIF_PORT_STATUS.EVT_LINK, F.HIF_PORT_STATUS.EVT_CORR, F.HIF_PORT_STATUS.EVT_NONFATAL, F.HIF_PORT_STATUS.EVT_FATAL, F.HIF_PORT_STATUS.EVT_RESET, F.HIF_PORT_STATUS.EVT_CPL_TMO, F.HIF_PORT_STATUS.EVT_DEGRADED, F.HIF_PORT_STATUS.EVT_RECOVER] },
  { reg := .HIF_PORT_CNT0, base := 0x700018, dims := [(2, 0x100)],
    fields := [F.HIF_PORT_CNT0.CORR, F.HIF_PORT_CNT0.NONFATAL, F.HIF_PORT_CNT0.FATAL] },
  { reg := .HIF_PORT_CNT1, base := 0x700020, dims := [(2, 0x100)],
    fields := [F.HIF_PORT_CNT1.CPL_TMO, F.HIF_PORT_CNT1.UNEXP_CPL, F.HIF_PORT_CNT1.POISON_TX, F.HIF_PORT_CNT1.DROPPED_WR] },
  { reg := .HIF_PORT_CNT2, base := 0x700028, dims := [(2, 0x100)],
    fields := [F.HIF_PORT_CNT2.FLRS, F.HIF_PORT_CNT2.HOT_RESETS, F.HIF_PORT_CNT2.PERSTS, F.HIF_PORT_CNT2.LINK_DOWNS] },
  { reg := .MSIX_ADDR, base := 0x780000, dims := [(2, 0x10000), (2048, 0x10)],
    fields := [F.MSIX_ADDR.ADDR] },
  { reg := .MSIX_CTL, base := 0x780008, dims := [(2, 0x10000), (2048, 0x10)],
    fields := [F.MSIX_CTL.DATA, F.MSIX_CTL.MASK] },
  { reg := .MSIX_PBA, base := 0x788000, dims := [(2, 0x10000), (32, 0x8)],
    fields := [F.MSIX_PBA.PEND] } ]

/-- Registers of chapter 15 of spec/. -/
def regTable15a : List RegRow := [
  { reg := .HIF_DB_CFG, base := 0x701000, dims := [],
    fields := [F.HIF_DB_CFG.PPR0, F.HIF_DB_CFG.PPR1] },
  { reg := .HIF_RING_STATUS, base := 0x701008, dims := [],
    fields := [F.HIF_RING_STATUS.HALTED, F.HIF_RING_STATUS.EVT_HALT, F.HIF_RING_STATUS.EVT_DB, F.HIF_RING_STATUS.EVT_SPOOF, F.HIF_RING_STATUS.EVT_REFUSED] },
  { reg := .HIF_RING_CNT0, base := 0x701010, dims := [],
    fields := [F.HIF_RING_CNT0.STALE_DB, F.HIF_RING_CNT0.BAD_DB] },
  { reg := .HIF_RING_CNT1, base := 0x701018, dims := [],
    fields := [F.HIF_RING_CNT1.COMPLETIONS, F.HIF_RING_CNT1.SPOOF_ADMIN] },
  { reg := .HIF_RING_HALTED, base := 0x701100, dims := [(128, 0x8)],
    fields := [F.HIF_RING_HALTED.MAP] },
  { reg := .HIF_RING_CFG, base := 0x710000, dims := [(8192, 0x20)],
    fields := [F.HIF_RING_CFG.EN, F.HIF_RING_CFG.PORT, F.HIF_RING_CFG.RESUME, F.HIF_RING_CFG.SQ_LOG, F.HIF_RING_CFG.CQ_LOG, F.HIF_RING_CFG.SLICE, F.HIF_RING_CFG.DBI, F.HIF_RING_CFG.ROLE_EPOCH] },
  { reg := .HIF_RING_SQ, base := 0x710008, dims := [(8192, 0x20)],
    fields := [F.HIF_RING_SQ.BASE] },
  { reg := .HIF_RING_CQ, base := 0x710010, dims := [(8192, 0x20)],
    fields := [F.HIF_RING_CQ.BASE] },
  { reg := .HIF_RING_IRQ, base := 0x710018, dims := [(8192, 0x20)],
    fields := [F.HIF_RING_IRQ.VECTOR, F.HIF_RING_IRQ.IRQ_EN, F.HIF_RING_IRQ.MOD_COUNT, F.HIF_RING_IRQ.MOD_TIME] },
  { reg := .HIF_RING_IDX, base := 0x7A0000, dims := [(8192, 0x10)],
    fields := [F.HIF_RING_IDX.SQ_PI, F.HIF_RING_IDX.SQ_CI, F.HIF_RING_IDX.CQ_PI, F.HIF_RING_IDX.CQ_CI] },
  { reg := .HIF_RING_ST, base := 0x7A0008, dims := [(8192, 0x10)],
    fields := [F.HIF_RING_ST.STATE, F.HIF_RING_ST.HALT_STATUS, F.HIF_RING_ST.HALT_CAUSE, F.HIF_RING_ST.HALT_SLOT, F.HIF_RING_ST.STALE, F.HIF_RING_ST.BAD_DB] },
  { reg := .HIF_EVQ_DB, base := 0x7E0000, dims := [(1024, 0x8)],
    fields := [F.HIF_EVQ_DB.DBI, F.HIF_EVQ_DB.VALID] } ]

/-- Registers of chapter 16 of spec/. -/
def regTable16a : List RegRow := [
  { reg := .HIF_SLICE_CFG, base := 0x750000, dims := [(256, 0x20)],
    fields := [F.HIF_SLICE_CFG.STATE, F.HIF_SLICE_CFG.PORT, F.HIF_SLICE_CFG.PASID, F.HIF_SLICE_CFG.ROLE_EPOCH] },
  { reg := .HIF_SLICE_USE, base := 0x750008, dims := [(256, 0x20)],
    fields := [F.HIF_SLICE_USE.CORES, F.HIF_SLICE_USE.HBM_PLATES, F.HIF_SLICE_USE.DDR_PLATES, F.HIF_SLICE_USE.RINGS] },
  { reg := .HIF_SLICE_STATUS, base := 0x750010, dims := [(256, 0x20)],
    fields := [F.HIF_SLICE_STATUS.OVER_GRP, F.HIF_SLICE_STATUS.OVER_STP, F.HIF_SLICE_STATUS.EVT_SPOOF, F.HIF_SLICE_STATUS.EVT_QUOTA, F.HIF_SLICE_STATUS.EVT_RESET_DONE] },
  { reg := .HIF_SLICE_CNT, base := 0x750018, dims := [(256, 0x20)],
    fields := [F.HIF_SLICE_CNT.SPOOFS, F.HIF_SLICE_CNT.RESETS] },
  { reg := .HIF_SLICE_SUMMARY, base := 0x758000, dims := [],
    fields := [F.HIF_SLICE_SUMMARY.ACTIVE, F.HIF_SLICE_SUMMARY.LOG_USED, F.HIF_SLICE_SUMMARY.LOG_LOST] },
  { reg := .HIF_SPOOF_LOG, base := 0x758008, dims := [],
    fields := [F.HIF_SPOOF_LOG.SLICE, F.HIF_SPOOF_LOG.UNIT, F.HIF_SPOOF_LOG.INDEX, F.HIF_SPOOF_LOG.VALID] },
  { reg := .HIF_CORE_SLICE, base := 0x760000, dims := [(576, 0x8)],
    fields := [F.HIF_CORE_SLICE.SLICE, F.HIF_CORE_SLICE.ROLE_EPOCH] },
  { reg := .HIF_PLATE_OWNER_H, base := 0x762000, dims := [(24, 0x8)],
    fields := [F.HIF_PLATE_OWNER_H.OWNER0, F.HIF_PLATE_OWNER_H.OWNER1, F.HIF_PLATE_OWNER_H.OWNER2, F.HIF_PLATE_OWNER_H.OWNER3, F.HIF_PLATE_OWNER_H.OWNER4, F.HIF_PLATE_OWNER_H.OWNER5, F.HIF_PLATE_OWNER_H.OWNER6, F.HIF_PLATE_OWNER_H.OWNER7] },
  { reg := .HIF_PLATE_OWNER_D, base := 0x763000, dims := [(256, 0x8)],
    fields := [F.HIF_PLATE_OWNER_D.OWNER0, F.HIF_PLATE_OWNER_D.OWNER1, F.HIF_PLATE_OWNER_D.OWNER2, F.HIF_PLATE_OWNER_D.OWNER3, F.HIF_PLATE_OWNER_D.OWNER4, F.HIF_PLATE_OWNER_D.OWNER5, F.HIF_PLATE_OWNER_D.OWNER6, F.HIF_PLATE_OWNER_D.OWNER7] },
  { reg := .HIF_MSIX_OWNER, base := 0x764000, dims := [(2, 0x800), (256, 0x8)],
    fields := [F.HIF_MSIX_OWNER.OWNER0, F.HIF_MSIX_OWNER.OWNER1, F.HIF_MSIX_OWNER.OWNER2, F.HIF_MSIX_OWNER.OWNER3, F.HIF_MSIX_OWNER.OWNER4, F.HIF_MSIX_OWNER.OWNER5, F.HIF_MSIX_OWNER.OWNER6, F.HIF_MSIX_OWNER.OWNER7] },
  { reg := .HIF_SLICE_CHAN, base := 0x770000, dims := [(256, 0x80), (16, 0x8)],
    fields := [F.HIF_SLICE_CHAN.FIRST, F.HIF_SLICE_CHAN.COUNT] } ]

/-- Registers of chapter 17 of spec/. -/
def regTable17a : List RegRow := [
  { reg := .SEC_FUSE, base := 0x400000, dims := [],
    fields := [F.SEC_FUSE.OWNER_VALID, F.SEC_FUSE.OWNER_REVOKED, F.SEC_FUSE.DIE_AUTH, F.SEC_FUSE.SEC_DBG_OFF, F.SEC_FUSE.HOST_PUSH_OFF, F.SEC_FUSE.CALOM_SVN, F.SEC_FUSE.CFW_SVN] },
  { reg := .SEC_FUSE_SERIAL, base := 0x400008, dims := [],
    fields := [F.SEC_FUSE_SERIAL.SERIAL] },
  { reg := .SEC_BOOT_STATUS, base := 0x400010, dims := [],
    fields := [F.SEC_BOOT_STATUS.SOURCE, F.SEC_BOOT_STATUS.FS_SLOT, F.SEC_BOOT_STATUS.MAIN_SLOT, F.SEC_BOOT_STATUS.CFW_SLOT, F.SEC_BOOT_STATUS.STAGE, F.SEC_BOOT_STATUS.CAUSE, F.SEC_BOOT_STATUS.FAIL_KIND, F.SEC_BOOT_STATUS.FAILS] },
  { reg := .SEC_STATUS, base := 0x400018, dims := [],
    fields := [F.SEC_STATUS.EVT_VERIFY_FAIL, F.SEC_STATUS.EVT_FALLBACK, F.SEC_STATUS.EVT_ENROL, F.SEC_STATUS.EVT_SVN, F.SEC_STATUS.EVT_DIE_AUTH, F.SEC_STATUS.EVT_RECOVERY] },
  { reg := .SEC_FUSE_VKEY, base := 0x400100, dims := [(4, 0x8)],
    fields := [F.SEC_FUSE_VKEY.BYTES] },
  { reg := .SEC_FUSE_OKEY, base := 0x400200, dims := [(4, 0x20), (4, 0x8)],
    fields := [F.SEC_FUSE_OKEY.BYTES] },
  { reg := .SEC_FUSE_DIE, base := 0x401000, dims := [(14, 0x80), (10, 0x8)],
    fields := [F.SEC_FUSE_DIE.BYTES] },
  { reg := .DBG_EN, base := 0x500000, dims := [],
    fields := [F.DBG_EN.FW_EN, F.DBG_EN.AUTH_EN, F.DBG_EN.EFF, F.DBG_EN.AUTH_CLR] },
  { reg := .DBG_AUTH_CTL, base := 0x500008, dims := [],
    fields := [F.DBG_AUTH_CTL.NEW, F.DBG_AUTH_CTL.GO, F.DBG_AUTH_CTL.REQ, F.DBG_AUTH_CTL.KEY_SLOT, F.DBG_AUTH_CTL.STATE, F.DBG_AUTH_CTL.FAILS] },
  { reg := .DBG_CHAIN, base := 0x500010, dims := [],
    fields := [F.DBG_CHAIN.MEMBER, F.DBG_CHAIN.GUEST_EN, F.DBG_CHAIN.GIR_LEN, F.DBG_CHAIN.IR_LEN] },
  { reg := .DBG_STATUS, base := 0x500018, dims := [],
    fields := [F.DBG_STATUS.EVT_GRANT, F.DBG_STATUS.EVT_FAIL, F.DBG_STATUS.EVT_LOCKED, F.DBG_STATUS.EVT_HALT, F.DBG_STATUS.EVT_TEST] },
  { reg := .DBG_CNT, base := 0x500020, dims := [],
    fields := [F.DBG_CNT.GRANTS, F.DBG_CNT.DENIED] },
  { reg := .DBG_AUTH_NONCE, base := 0x500040, dims := [(4, 0x8)],
    fields := [F.DBG_AUTH_NONCE.BYTES] },
  { reg := .DBG_AUTH_PUB, base := 0x500080, dims := [(8, 0x8)],
    fields := [F.DBG_AUTH_PUB.BYTES] },
  { reg := .DBG_AUTH_SIG, base := 0x5000C0, dims := [(8, 0x8)],
    fields := [F.DBG_AUTH_SIG.BYTES] },
  { reg := .DBG_ACC_CTL, base := 0x500100, dims := [],
    fields := [F.DBG_ACC_CTL.GO, F.DBG_ACC_CTL.WRITE, F.DBG_ACC_CTL.NS, F.DBG_ACC_CTL.WAKE, F.DBG_ACC_CTL.SIZE, F.DBG_ACC_CTL.STATUS, F.DBG_ACC_CTL.DONE] },
  { reg := .DBG_ACC_ADDR, base := 0x500108, dims := [],
    fields := [F.DBG_ACC_ADDR.ADDR] },
  { reg := .DBG_ACC_DATA, base := 0x500110, dims := [],
    fields := [F.DBG_ACC_DATA.DATA] } ]

/-- Registers of chapter 18 of spec/. -/
def regTable18a : List RegRow := [
  { reg := .CDU_STATUS, base := 0x2180000, dims := [(12, 0x200000)],
    fields := [F.CDU_STATUS.DOMAINS, F.CDU_STATUS.VDD] },
  { reg := .GLB_ID, base := 0x0, dims := [],
    fields := [F.GLB_ID.HUB_GEN, F.GLB_ID.PKG_GEN, F.GLB_ID.CD_POP, F.GLB_ID.GS_POP, F.GLB_ID.STEP] },
  { reg := .GLB_PROFILE, base := 0x8, dims := [],
    fields := [F.GLB_PROFILE.PINS, F.GLB_PROFILE.ACTIVE, F.GLB_PROFILE.PENDING, F.GLB_PROFILE.FALLBACK, F.GLB_PROFILE.BOOT_SRC, F.GLB_PROFILE.VALID, F.GLB_PROFILE.APPLY_ERR] },
  { reg := .GLB_PROFILE_ID, base := 0x10, dims := [],
    fields := [F.GLB_PROFILE_ID.ID] },
  { reg := .CKR_STATUS, base := 0x100000, dims := [],
    fields := [F.CKR_STATUS.XTAL_OK, F.CKR_STATUS.ROOT_LOCK, F.CKR_STATUS.ROOT_SRC, F.CKR_STATUS.FAIL_CAUSE, F.CKR_STATUS.EVT_CLOCK_FAIL, F.CKR_STATUS.EVT_IRO_DRIFT, F.CKR_STATUS.EVT_REFUSED] },
  { reg := .CKR_MON, base := 0x100008, dims := [],
    fields := [F.CKR_MON.XTAL_IRO, F.CKR_MON.ROOT_IRO, F.CKR_MON.IRO_XTAL] },
  { reg := .CKR_MON_LIM, base := 0x100010, dims := [],
    fields := [F.CKR_MON_LIM.TOL] },
  { reg := .CKR_TIME, base := 0x100018, dims := [],
    fields := [F.CKR_TIME.TIME] },
  { reg := .CKR_FTIME, base := 0x100020, dims := [],
    fields := [F.CKR_FTIME.FTIME] },
  { reg := .CKR_RESET, base := 0x100028, dims := [],
    fields := [F.CKR_RESET.CAUSE, F.CKR_RESET.WARMS] },
  { reg := .CKR_RESET_CTL, base := 0x100030, dims := [],
    fields := [F.CKR_RESET_CTL.WARM] },
  { reg := .CKR_DOM, base := 0x101000, dims := [(78, 0x10)],
    fields := [F.CKR_DOM.EN, F.CKR_DOM.GATEABLE, F.CKR_DOM.OWNER_S, F.CKR_DOM.RATIO_REFUSED, F.CKR_DOM.GATE_REFUSED, F.CKR_DOM.SWITCHING, F.CKR_DOM.N, F.CKR_DOM.M, F.CKR_DOM.FMAX_PLAN] },
  { reg := .PWR_STATUS, base := 0x200000, dims := [],
    fields := [F.PWR_STATUS.TRANSITIONS, F.PWR_STATUS.QUEUED, F.PWR_STATUS.REFTAB_LOST] },
  { reg := .PWR_DOM_CTL, base := 0x201000, dims := [(100, 0x20)],
    fields := [F.PWR_DOM_CTL.TARGET, F.PWR_DOM_CTL.HOLD, F.PWR_DOM_CTL.OWNER_S, F.PWR_DOM_CTL.LOCK_P, F.PWR_DOM_CTL.LOCK_HW] },
  { reg := .PWR_DOM_STATUS, base := 0x201008, dims := [(100, 0x20)],
    fields := [F.PWR_DOM_STATUS.STATE, F.PWR_DOM_STATUS.TRANSITION, F.PWR_DOM_STATUS.PENDING, F.PWR_DOM_STATUS.LAST_REFUSER, F.PWR_DOM_STATUS.REFUSED, F.PWR_DOM_STATUS.LAST_WAKE, F.PWR_DOM_STATUS.WAKES, F.PWR_DOM_STATUS.EVT_STATE, F.PWR_DOM_STATUS.EVT_REFUSED, F.PWR_DOM_STATUS.EVT_ABORTED] },
  { reg := .PWR_REFTAB, base := 0x204000, dims := [(64, 0x8)],
    fields := [F.PWR_REFTAB.DOMAIN, F.PWR_REFTAB.VALID, F.PWR_REFTAB.REFUSER, F.PWR_REFTAB.REFUSED, F.PWR_REFTAB.ABORTED, F.PWR_REFTAB.CORE] } ]

/-- Registers of chapter 19 of spec/. -/
def regTable19a : List RegRow := [
  { reg := .LGR_CFG, base := 0x300000, dims := [],
    fields := [F.LGR_CFG.W_EOL, F.LGR_CFG.THROT_C, F.LGR_CFG.AUTO_PLAN] },
  { reg := .LGR_STATUS, base := 0x300008, dims := [],
    fields := [F.LGR_STATUS.PLANNING, F.LGR_STATUS.SEQ, F.LGR_STATUS.EVT_WEAR_HIGH, F.LGR_STATUS.EVT_PLAN, F.LGR_STATUS.EVT_TEMP_HIGH, F.LGR_STATUS.EVT_THROTTLE, F.LGR_STATUS.EVT_WRITE, F.LGR_STATUS.EVT_WRITE_ERR] },
  { reg := .LGR_HOURS, base := 0x300010, dims := [],
    fields := [F.LGR_HOURS.POWERED_HOURS, F.LGR_HOURS.POWER_CYCLES] },
  { reg := .LGR_WEAR, base := 0x301000, dims := [(240, 0x8)],
    fields := [F.LGR_WEAR.W, F.LGR_WEAR.DOMAIN, F.LGR_WEAR.HOUR] },
  { reg := .LGR_PLAN, base := 0x302000, dims := [(100, 0x8)],
    fields := [F.LGR_PLAN.GUARD_MV, F.LGR_PLAN.FMAX_MHZ, F.LGR_PLAN.RATIO_PCT, F.LGR_PLAN.HOUR] } ]

/-- Registers of chapter 20 of spec/. -/
def regTable20a : List RegRow := [
  { reg := .EVC_NMI, base := 0x600000, dims := [],
    fields := [F.EVC_NMI.LAST, F.EVC_NMI.COUNT] },
  { reg := .EVC_PEND, base := 0x600100, dims := [(12, 0x8)],
    fields := [F.EVC_PEND.LEVEL] },
  { reg := .EVC_SRC_CFG, base := 0x610000, dims := [(768, 0x10)],
    fields := [F.EVC_SRC_CFG.EN, F.EVC_SRC_CFG.WORLD, F.EVC_SRC_CFG.TTYPE, F.EVC_SRC_CFG.TIDX, F.EVC_SRC_CFG.RATE, F.EVC_SRC_CFG.NMI] },
  { reg := .EVC_SRC_CNT, base := 0x610008, dims := [(768, 0x10)],
    fields := [F.EVC_SRC_CNT.FIRED, F.EVC_SRC_CNT.MERGED, F.EVC_SRC_CNT.DISCARDED] } ]

/-- Every register row of BAR0 (R15). -/
def regTable : List RegRow :=
  regTable01a ++ regTable02a ++ regTable03a ++ regTable03b ++ regTable04a ++ regTable05a ++ regTable06a ++ regTable07a ++ regTable07b ++ regTable08a ++ regTable09a ++ regTable10a ++ regTable11a ++ regTable12a ++ regTable13a ++ regTable14a ++ regTable15a ++ regTable16a ++ regTable17a ++ regTable18a ++ regTable19a ++ regTable20a

/-- Is one of the fields' reset values given per instance rather than as one number?  (HIF_PORT_CFG, HIF_SLICE_CFG,
CKR_DOM, PWR_DOM_CTL, PWR_DOM_STATUS and EVC_SRC_CFG.) -/
def Field.perInstance (f : Field) : Bool :=
  match f.reg, f.lo with

  | .CKR_DOM, 1 => true
  | .CKR_DOM, 28 => true
  | .CKR_DOM, 16 => true
  | .EVC_SRC_CFG, 48 => true
  | .EVC_SRC_CFG, 16 => true
  | .EVC_SRC_CFG, 2 => true
  | .EVC_SRC_CFG, 1 => true
  | .HIF_PORT_CFG, 0 => true
  | .HIF_SLICE_CFG, 0 => true
  | .PWR_DOM_CTL, 5 => true
  | .PWR_DOM_STATUS, 0 => true
  | _, _ => false

/-- The instance number that `rem`, the distance from the register's base, selects, by the strides in `dims`
(mixed radix, outermost first), or none where it falls between instances. -/
def RegRow.instanceOf : List (Nat × Nat) → Nat → Nat → Option Nat
  | [], acc, rem => if rem < 8 then some acc else none
  | (n, st) :: ds, acc, rem =>
    if rem / st < n then RegRow.instanceOf ds (acc * n + rem / st) (rem % st) else none

/-- The row and instance of the register that covers BAR0 offset `a`, if any (R12: other offsets are unassigned). -/
def findReg (a : Nat) : List RegRow → Option (RegRow × Nat)
  | [] => none
  | r :: rs =>
    if a < r.base then findReg a rs
    else match RegRow.instanceOf r.dims 0 (a - r.base) with
      | some i => some (r, i)
      | none => findReg a rs

end Sys2Proof.Machine
end

