-- ==== Sys2Proof/Machine/Tbl.lean ====
section
/-!
DEFINITION. Finite tables as lists of key and value pairs: an unlisted key holds the table's default.  Setting a key
puts its pair in front and removes any older pair of the same key; setting a key to the default removes it.
-/

namespace Sys2Proof.Machine

/-- A sparse table. -/
abbrev Tbl (K V : Type) := List (K × V)

/-- The value of key `k`, `d` where unlisted. -/
def Tbl.get {K V : Type} [DecidableEq K] (t : Tbl K V) (k : K) (d : V) : V :=
  match t with
  | [] => d
  | (k', v) :: t => if k' = k then v else Tbl.get t k d

/-- The table without key `k`. -/
def Tbl.erase {K V : Type} [DecidableEq K] (t : Tbl K V) (k : K) : Tbl K V :=
  match t with
  | [] => []
  | (k', v) :: t => if k' = k then Tbl.erase t k else (k', v) :: Tbl.erase t k

/-- The table with key `k` holding `v` (`d` is the table's default). -/
def Tbl.set {K V : Type} [DecidableEq K] [DecidableEq V] (t : Tbl K V) (k : K) (v d : V) : Tbl K V :=
  if v = d then Tbl.erase t k else (k, v) :: Tbl.erase t k

/-- The value of key `k`, if listed. -/
def Tbl.find {K V : Type} [DecidableEq K] (t : Tbl K V) (k : K) : Option V :=
  match t with
  | [] => none
  | (k', v) :: t => if k' = k then some v else Tbl.find t k

/-- The table with key `k` holding `v`, for tables without a default value. -/
def Tbl.put {K V : Type} [DecidableEq K] (t : Tbl K V) (k : K) (v : V) : Tbl K V :=
  (k, v) :: Tbl.erase t k

/-- Every listed value, changed by `f`. -/
def Tbl.mapVals {K V : Type} (t : Tbl K V) (f : K → V → V) : Tbl K V := t.map (fun p => (p.1, f p.1 p.2))

end Sys2Proof.Machine
end

