-- ==== Sys2Proof/Machine/StateCompute.lean ====
section
/-!
DEFINITION. The state of the package's population, the event controller's messages, the Graver harts, the caches, the
coherence directory, proofs and the memories, beyond what their registers hold (chapters 8, 9, 10, 12 and 20 of
spec/).
-/

namespace Sys2Proof.Machine

/-! ## Variant (R1–R6) -/

/-- Compute sites field of the ordering code (R1). -/
inductive Sites where
  | h12 | h8 | h4
  deriving DecidableEq, Repr

/-- Compute build field of the ordering code (R1, R5). -/
inductive Build where
  | c3 | c4
  deriving DecidableEq, Repr

/-- Guest sites field of the ordering code (R1). -/
inductive Guests where
  | g0 | g1 | g2
  deriving DecidableEq, Repr

/-- A variant (R1); fixed for the life of a package. -/
structure Variant where
  /-- compute sites of the ordering code (R1) -/
  sites : Sites
  /-- compute build of the ordering code (R1, R5) -/
  build : Build
  /-- guest sites of the ordering code (R1) -/
  guests : Guests
  deriving DecidableEq, Repr

/-! ## Event controller (chapter 20) -/

/-- Where a source's message goes (R525). -/
inductive EvTarget where
  | msix (port vector : Nat)
  | easel (core : Nat)
  | hartM (core : Nat)
  | hartS (core : Nat)
  deriving DecidableEq, Repr

/-- A message on its way from the event controller to a compute hart (R222). -/
structure EvMsg where
  source : Nat
  target : EvTarget
  deriving DecidableEq, Repr

/-- An interrupt an easel core holds: source number, and whether it came as NMI (R455, R526). -/
structure EaselIrq where
  core : Nat
  source : Nat
  nmi : Bool
  deriving DecidableEq, Repr

structure EvcState where
  /-- sources with a firing held for the end of their RATE interval (R527) -/
  held : List Nat
  /-- sources whose RATE interval is running (R527) -/
  interval : List Nat
  /-- messages sent to compute harts and not yet offered, oldest first -/
  flight : List EvMsg
  /-- messages a full claim FIFO or an OFF cluster refused, oldest first (R222, R484) -/
  waiting : List EvMsg
  /-- interrupts delivered to easel cores, oldest first -/
  easel : List EaselIrq
  deriving DecidableEq, Repr

/-! ## Harts (chapter 8) -/

/-- A TLB entry, tagged with the world in force when it was filled (R205). -/
structure TlbEntry where
  ns : Bool
  asid : Nat
  vpn : Nat
  level : Nat
  pte : Nat
  deriving DecidableEq, Repr

/-- A predictor entry's tag (R219). -/
structure PredEntry where
  ns : Bool
  slice : Nat
  pc : Nat
  deriving DecidableEq, Repr

/-- One entry of the merging buffer (R231): a line and the bytes stored to it, by offset in the line. -/
structure MbEntry where
  line : Nat
  bytes : Tbl Nat (BitVec 8)
  deriving DecidableEq, Repr

/-- The instruction behind an access: its pc, the virtual address of the access, and the next pc. -/
structure InsnAt where
  pc : Nat
  va : Nat
  next : Nat
  deriving DecidableEq, Repr

/-- What a completed line request does next for its core. -/
inductive MissOp where
  | load (pa size : Nat) (sext : Bool) (dst : LoadDst) (i : InsnAt)
  | amo (op pa size rs2 rd : Nat) (i : InsnAt)
  | lr (pa size rd : Nat) (i : InsnAt)
  | sc (pa size rs2 rd : Nat) (i : InsnAt)
  deriving DecidableEq, Repr

/-- A core's outstanding access to a device region (R215): guest window or host window. -/
structure IoAccess where
  write : Bool
  pa : Nat
  size : Nat
  sext : Bool
  dst : LoadDst
  tag : Nat
  i : InsnAt
  deriving DecidableEq, Repr

/-- The register checkpoint of an open proof (R266). -/
structure Checkpoint where
  x : Tbl Nat (BitVec 64)
  f : Tbl Nat (BitVec 64)
  v : Tbl Nat (BitVec 512)
  fcsr : Nat
  vstart : Nat
  vxrm : Nat
  vxsat : Nat
  vl : Nat
  vtype : Nat
  pc : Nat
  deriving DecidableEq, Repr

/-- A doorbell held by a proof (R285): address, 4-byte value, and the core that stored it. -/
structure HeldDb where
  addr : Nat
  value : Nat
  core : Nat
  deriving DecidableEq, Repr

/-- An open proof on a hart (R266–R291).  Read and write sets are the lines whose read or write bit of this hart is
set in its L2 (R271). -/
structure Proof where
  depth : Nat
  /-- group index of a participant proof -/
  group : Option Nat
  timestamp : Nat
  /-- the core compared in conflicts: the allocating core for a group proof (R274) -/
  decider : Nat
  openRd : Nat
  ckpt : Checkpoint
  reads : List Nat
  writes : List Nat
  doorbells : List HeldDb
  sealing : Bool
  deferring : Bool
  /-- the commit point of R284 has passed -/
  committing : Bool
  deriving DecidableEq, Repr

/-- One Graver hart beyond its BAR0 registers (R203–R227). -/
structure Hart where
  /-- program counter, 64 bits (R203); loaded from CORE_RVBAR at HELD to INIT (R213) -/
  pc : Nat
  /-- x1 to x31, 64 bits each; an unlisted one is 0 (R203, R213) -/
  x : Tbl Nat (BitVec 64)
  /-- f0 to f31, 64 bits each; an unlisted one is 0 (R203, R213) -/
  f : Tbl Nat (BitVec 64)
  /-- v0 to v31, 512 bits each; an unlisted one is 0 (R203, R213) -/
  v : Tbl Nat (BitVec 512)
  /-- CSRs by CSR number; an unlisted CSR holds its value of R213 -/
  csr : Tbl Nat Nat
  /-- claim FIFO of the secure world, oldest first (R222) -/
  claimM : List Nat
  /-- claim FIFO of the normal world, oldest first (R222) -/
  claimS : List Nat
  /-- merging buffer, oldest entry first (R231) -/
  mb : List MbEntry
  /-- L1D lines with their bytes, most recently filled first (R229, R231) -/
  l1d : Tbl Nat (List (BitVec 8))
  /-- L1I lines with their bytes, most recently filled first (R229) -/
  l1i : Tbl Nat (List (BitVec 8))
  /-- TLB entries, most recently filled first (R205) -/
  tlb : List TlbEntry
  /-- branch predictor tags (R219) -/
  pred : List PredEntry
  /-- LR reservation: its line (R234) -/
  resv : Option Nat
  /-- the 64-cycle window in which snoops to the reservation are deferred (R234) -/
  resvDefer : Bool
  /-- the outstanding miss: its line and what waits on it (R233) -/
  miss : Option (Nat × MissOp)
  /-- the outstanding access to a device region (R215) -/
  io : Option IoAccess
  /-- the open proof (R266) -/
  proof : Option Proof
  /-- timestamp of the last aborted proof, until hzprfcause is written (R267) -/
  lastTs : Option Nat
  /-- the last trap: cause and epc (R214) -/
  lastTrap : Option (Nat × Nat)
  /-- how often that trap repeated with no instruction retired (R214) -/
  trapRepeats : Nat
  /-- hzbeat and hzbeatf sample (R225) -/
  beatF : Nat
  /-- a debug halt request that waits for EFF or for a commit (R460, R289) -/
  haltPending : Bool
  /-- the address in CORE_RVBAR with which INIT ended, where it is in no secure HBM plate: fetches there fault (R214) -/
  bootBad : Option Nat
  deriving DecidableEq, Repr

/-! ## L2 caches (chapter 9) -/

/-- MOESI states of an L2 line (R235); I is absence. -/
inductive Moesi where
  | m | o | e | s
  deriving DecidableEq, Repr

structure L2Line where
  /-- M, O, E or S (R235) -/
  st : Moesi
  /-- the line is poisoned (R235) -/
  poison : Bool
  /-- 128 bytes (R235) -/
  data : List (BitVec 8)
  deriving DecidableEq, Repr

/-- The proof tag of R273: core number compared, begin timestamp, group index (4,096 for a single-core proof). -/
structure ProofTag where
  core : Nat
  timestamp : Nat
  group : Nat
  /-- the hart itself, whom an abort message reaches -/
  hart : Nat
  deriving DecidableEq, Repr

/-- Directory requests of an L2. -/
inductive L2Req where
  | rdShared | rdUnique | upgrade
  deriving DecidableEq, Repr

/-- An outstanding request of an L2 (R235): merged misses share it. -/
structure L2Pending where
  line : Nat
  kind : L2Req
  tag : Option ProofTag
  /-- DATA received: bytes, poison, evicting -/
  data : Option (List (BitVec 8) × Bool × Bool)
  /-- GNT received: the state granted, and whether it comes with DATA -/
  gnt : Option (Moesi × Bool)
  /-- cores whose merging-buffer drain waits for the line -/
  drains : List Nat
  deriving DecidableEq, Repr

/-- A snoop an L2 holds: for an older proof (R274), for an LR window (R234), or for a sleeping cluster (R251). -/
inductive SnpKind where
  | share | unique | inv | iord
  deriving DecidableEq, Repr

structure HeldSnoop where
  line : Nat
  kind : SnpKind
  /-- the snoop serves a directory eviction -/
  evict : Bool
  requester : Option Nat
  tag : Option ProofTag
  /-- the cores whose proofs hold the snoop -/
  holders : List Nat
  deriving DecidableEq, Repr

/-- Leaving-buffer entry (R236). -/
structure Leaving where
  line : Nat
  st : Moesi
  poison : Bool
  data : List (BitVec 8)
  deriving DecidableEq, Repr

/-- One L2 beyond its registers. -/
structure L2State where
  /-- lines held, by line number, most recently used first (R228, R235) -/
  lines : Tbl Nat L2Line
  /-- leaving buffer, oldest first (R236) -/
  lb : List Leaving
  /-- requests outstanding at the directory, oldest first (R235) -/
  pending : List L2Pending
  /-- snoops held, oldest first (R234, R251, R274) -/
  held : List HeldSnoop
  /-- a FLUSH walk was written together with INV (R253) -/
  invAfterFlush : Bool
  /-- write-backs of the running flush not yet acknowledged (R253) -/
  flushLeft : List Nat
  /-- lines a running INV has still to give up (R253) -/
  invLeft : List Nat
  /-- lines of aborted write sets given up and not yet acknowledged (R275) -/
  aborted : List Nat
  deriving DecidableEq, Repr

/-! ## Directory (chapter 9) -/

/-- Directory states other than I (R238). -/
inductive DirSt where
  | s | em | o
  deriving DecidableEq, Repr

structure DirEntry where
  st : DirSt
  p0 : Option Nat
  p1 : Option Nat
  p2 : Option Nat
  p3 : Option Nat
  bcast : Bool
  /-- pin mask, one bit per cluster (R276) -/
  pins : List Nat
  way : Nat
  /-- time of last use, for the LRU of R248 -/
  used : Nat
  deriving DecidableEq, Repr

/-- Request kinds a slice serves (R241, R248). -/
inductive DirReq where
  | rdShared | rdUnique | upgrade | ioRd | ioWr
  deriving DecidableEq, Repr

/-- Who sent a request to a slice: a cluster's L2, or an agent that never holds a line (R245). -/
inductive ReqSrc where
  | cluster (c : Nat)
  | guest (g : Nat)
  /-- a core of a cluster whose L2 is disabled (R254) -/
  | core (k : Nat)
  /-- hub agent by its index of R239: 0, 1 PCIe, 2 event builder, 3 stipple, 4 Ethernet, 5 command engine, 6 debugger -/
  | agent (a : Nat)
  deriving DecidableEq, Repr

structure Request where
  kind : DirReq
  line : Nat
  src : ReqSrc
  tag : Option ProofTag
  /-- IO_WR: bytes to write, by offset in the line -/
  wr : Tbl Nat (BitVec 8)
  wrPoison : Bool
  /-- a guest's TAG, and the bytes of the line its access covers -/
  id : Nat
  off : Nat
  len : Nat
  deriving DecidableEq, Repr

/-- A notice waiting in the slice (R247). -/
structure Notice where
  cluster : Nat
  dirty : Bool
  poison : Bool
  data : List (BitVec 8)
  deriving DecidableEq, Repr

/-- The open transaction on a line (R240). -/
structure Txn where
  req : Request
  /-- this transaction is a directory eviction on behalf of `req`, whose own line differs (R248) -/
  evict : Bool
  /-- clusters whose RSP is awaited -/
  await : List Nat
  owner : Option Nat
  sawDirty : Bool
  sawEvicting : Bool
  sawMiss : Bool
  /-- clusters that answered EVICTING, and so are no longer holders -/
  gone : List Nat
  /-- data an owner returned for a memory or I/O requester -/
  data : Option (List (BitVec 8) × Bool)
  waiting : List Notice
  deriving DecidableEq, Repr

/-- Messages in flight between L2s and slices (R241), oldest first. -/
inductive CohMsg where
  | req (r : Request)
  | evn (c line : Nat) (dirty poison : Bool) (data : List (BitVec 8))
  | wrback (c line : Nat) (poison : Bool) (data : List (BitVec 8))
  | snp (k : SnpKind) (c line : Nat) (requester : Option Nat) (tag : Option ProofTag) (dirEvict : Bool)
  | data (dst : Nat) (line : Nat) (poison evicting : Bool) (data : List (BitVec 8))
  | rsp (c line : Nat) (dirty miss evicting : Bool) (data : List (BitVec 8)) (poison : Bool)
  | gnt (c line : Nat) (st : Moesi) (withData : Bool)
  /-- acknowledgement of a notice, or of a write-back -/
  | ackEvn (c line : Nat) (wb : Bool)
  | pin (c line : Nat)
  | unpin (c line : Nat)
  /-- abort of a remote requester's proof, sent by a holder's L2 (R274) -/
  | abort (hart timestamp line : Nat)
  deriving DecidableEq, Repr

structure DirState where
  /-- directory entries by line; an unlisted line is in state I (R238) -/
  entries : Tbl Nat DirEntry
  /-- the open transaction of a line, by line (R240) -/
  txns : Tbl Nat Txn
  /-- wait lists per line, oldest first (R240) -/
  waits : Tbl Nat (List Request)
  /-- messages between L2s and slices, oldest first (R241) -/
  flight : List CohMsg
  /-- replies to agents: the line read for an IO_RD, none for an IO_WR -/
  replies : List (Request × Option (List (BitVec 8) × Bool))
  /-- slices whose fence sweep has not finished (R250) -/
  sweeping : List Nat
  /-- a probe of DIR_PROBE_ADDR has not been answered yet (R261) -/
  probing : Bool
  /-- time of use for the LRU of R248 -/
  clock : Nat
  deriving DecidableEq, Repr

/-! ## Proof arbiter (chapter 10) -/

structure Group where
  /-- begin timestamp (R279) -/
  timestamp : Nat
  /-- the core that allocated the group (R279) -/
  allocCore : Nat
  /-- cores that joined, in order (R280) -/
  joined : List Nat
  /-- cores whose outermost seal arrived -/
  sealed : List Nat
  /-- doorbells held, in order (R285) -/
  doorbells : List HeldDb
  /-- clusters whose commit acknowledgement is awaited (R284) -/
  acks : List Nat
  /-- aborts of participants on their way to the arbiter: core and cause (R283) -/
  aborts : List (Nat × Nat)
  deriving DecidableEq, Repr

/-! ## Memory (chapter 12) -/

/-- Code state of a sheet that is not a clean codeword with no marker: poisoned lines, symbol errors as
(position, XOR mask) against the codeword, and the XOR left in the tag field. -/
structure SheetCode where
  lower : Bool
  upper : Bool
  errs : List (Nat × Nat)
  tagXor : Nat
  deriving DecidableEq, Repr

/-- Where a controller read's data goes: a cluster's L2, or the reply to an agent's request. -/
inductive MemDst where
  | none
  | cluster (c : Nat)
  | reply (r : Request)
  deriving DecidableEq, Repr

/-- A request waiting at a controller (R327): a line read, or a write of bytes by offset in the sheet. -/
structure MemReq where
  sheet : Nat
  write : Bool
  upper : Bool
  dst : MemDst
  bytes : Tbl Nat (BitVec 8)
  poison : Bool
  deriving DecidableEq, Repr

/-- A pending-correction entry (R339): the sheet, the die it was sent to, and the copy held. -/
structure PendCorr where
  sheet : Nat
  die : Nat
  data : Nat
  code : SheetCode
  deriving DecidableEq, Repr

/-- A raw sheet on its way to a die (R339): the read it answers, and the data and code state that its 207 + 2t symbols
stand for. -/
structure RawSheet where
  die : Nat
  req : MemReq
  data : Nat
  code : SheetCode
  t : Nat
  deriving DecidableEq, Repr

/-- A message from a die's sheet decoder back to the controller (R339). -/
inductive DieReport where
  | writeBack (die sheet : Nat) (data : Nat)
  | ue (die sheet : Nat) (addr : Bool)
  deriving DecidableEq, Repr

structure MemState where
  /-- stored bytes in canonical form: addresses rising, no zero byte (an unlisted byte reads zero, R348) -/
  cells : List Host.Cell
  /-- code state of the sheets that are not clean codewords, by sheet (R334 to R338) -/
  code : Tbl Nat SheetCode
  /-- pending-correction entries by controller, oldest first (R339) -/
  corr : Tbl Nat (List PendCorr)
  /-- requests waiting at the controllers, oldest first (R327) -/
  queue : List MemReq
  /-- raw sheets on their way to a die, oldest first (R339) -/
  raw : List RawSheet
  /-- messages from the sheet decoders of the dies, oldest first (R339) -/
  reports : List DieReport
  /-- controllers whose initialisation walk runs (R348) -/
  initWalk : List Nat
  /-- the watermarks requested by a lowering in progress: HBM, DDR5 (R332) -/
  wmReq : Option (Nat × Nat)
  /-- plates a zeroing walk still owes: slice and plate, HBM plates 0 to 191, DDR5 192 + q (R332) -/
  zeroing : List (Nat × Nat)
  /-- GiB of the DIMM fitted in each DDR5 channel 0 to 7; 0 or unlisted where none is fitted (R329) -/
  dimms : List Nat
  /-- the last warm reset kept DDR5, so its initialisation walk is skipped (R348) -/
  srKept : Bool
  deriving DecidableEq, Repr

end Sys2Proof.Machine
end

