-- ==== Sys2Proof/Machine/StateHost.lean ====
section
/-!
DEFINITION. The state of the Alern ports, the stipple engines and Ethernet MACs, the PCIe endpoint, the rings and the
slices beyond what their registers hold (chapters 1, 11, 14, 15 and 16 of spec/).
-/

namespace Sys2Proof.Machine

/-! ## Alern (chapter 1) -/

/-- A logical Alern port: 2n is port P (or the guest port) of hub port n, 2n + 1 its port Q. -/
structure AlnPort where
  /-- consecutive failed trainings (R34) -/
  fails : Nat
  /-- highest ladder width the next training may use after a step down, 0 for no limit (R34) -/
  limit : Nat
  /-- width of the training in progress (R32) -/
  width : Nat
  /-- rate code of the training in progress (R32) -/
  rate : Nat
  /-- base mode runs on the fallback lanes (R25) -/
  fallback : Bool
  /-- CRC failures of capability blocks on this attempt (R26) -/
  crcFails : Nat
  /-- last capability block received (R26) -/
  cap : List (BitVec 8)
  /-- last signature block received (R28) -/
  sig : List (BitVec 8)
  /-- the hub block last sent on the port (R26) -/
  sent : List (BitVec 8)
  /-- the checks of R30 passed and the die is admitted through this port -/
  admitted : Bool
  /-- replays requested in the present 1 ms window (R37) -/
  replays : Nat
  /-- previous width the port trained at, for EVT_WIDTH_DOWN (R46) -/
  last : Nat
  /-- taken down by the power controller, so it restarts when its domain turns on (R39) -/
  down : Bool
  deriving DecidableEq, Repr

structure AlnState where
  /-- logical ports by number (R24) -/
  ports : Tbl Nat AlnPort
  /-- rotating pointer of the identity checker (R43) -/
  checkPtr : Nat
  /-- hub ports whose die has been reset and not been admitted since (R38) -/
  dieReset : List Nat
  /-- ALN_CFG.REQ_SIG has been loaded from the security record since the last reset (R30, R454) -/
  reqSigLoaded : Bool
  deriving DecidableEq, Repr

/-! ## Stipple and Ethernet (chapter 11) -/

/-- A stipple job waiting or running (R306–R311). -/
structure StpJob where
  ring : Nat
  slice : Nat
  desc : List (BitVec 8)
  /-- segments left of the main and the overflow chain, the current one first, and the offset in it -/
  main : List (Nat × Nat)
  mainOff : Nat
  ovf : List (Nat × Nat)
  ovfOff : Nat
  engine : Option Nat
  /-- blocks coded, and blocks complete -/
  blocks : Nat
  good : Nat
  mainBytes : Nat
  ovfBytes : Nat
  clips : Nat
  /-- stipple frames built so far (R313) -/
  fseq : Nat
  /-- slots, and records with their block, of the frames under construction or not yet accepted -/
  slots : List (List (BitVec 8))
  recs : List (Nat × List (BitVec 8))
  /-- the status with which the job ends once its END frame has gone -/
  stop : Option Nat
  deriving DecidableEq, Repr

/-- What a frame ready on an Ethernet queue belongs to: a running job, as one of its frames or as its END frame; an
ETH_SEND, whose command completes when the frame is accepted (R320); or a job that has ended (R314). -/
inductive EthKind where
  | job | last | send | ended
  deriving DecidableEq, Repr

/-- A frame ready on an Ethernet queue: the Ethernet frame without its frame check sequence. -/
structure EthFrame where
  slice : Nat
  ring : Nat
  kind : EthKind
  bytes : List (BitVec 8)
  deriving DecidableEq, Repr

structure StpState where
  /-- jobs waiting for an engine, oldest first (R310) -/
  waiting : List StpJob
  /-- jobs on an engine (R310) -/
  running : List StpJob
  /-- the slice pointer of the dispatcher (R310) -/
  slicePtr : Nat
  /-- its ring pointer within each slice (R310) -/
  ringPtr : Tbl Nat Nat
  deriving DecidableEq, Repr

structure EthState where
  /-- frames ready by queue (64 × port + queue), oldest first -/
  ready : Tbl Nat (List EthFrame)
  /-- paused priorities by sub-port (4 × port + sub-port), one bit per priority -/
  paused : Tbl Nat Nat
  /-- pointers of the sub-port arbiters -/
  ptr : Tbl Nat Nat
  /-- frames sent, by sub-port, oldest first: what the lines have shown -/
  sent : List (Nat × List (BitVec 8))
  deriving DecidableEq, Repr

/-! ## PCIe (chapter 14) -/

/-- A DMA read outstanding on a port (R381). -/
structure DmaRead where
  tag : Nat
  /-- the ring whose command issued it, or the core (8,192 + core) whose host-window load it is -/
  owner : Nat
  addr : Nat
  len : Nat
  pasid : Option Nat
  relaxed : Bool
  /-- sent as a translated request (R378) -/
  translated : Bool
  deriving DecidableEq, Repr

/-- A translation request outstanding, or an entry of a port's translation cache (R378). -/
structure Xlat where
  tag : Nat
  owner : Nat
  pasid : Option Nat
  page : Nat
  frame : Nat
  read : Bool
  write : Bool
  deriving DecidableEq, Repr

/-- TLPs a port sends, in order (R379). -/
inductive HostTlp where
  | memWrite (addr : Nat) (pasid : Option Nat) (relaxed : Bool) (data : List (BitVec 8))
  | memRead (tag : Nat) (addr len : Nat) (pasid : Option Nat) (relaxed translated : Bool)
  | xlatReq (tag : Nat) (pasid : Option Nat) (page : Nat)
  | msix (vector : Nat) (addr data : Nat)
  /-- completion of a host request: 0 successful, 1 UR, 4 CA, with EP -/
  | cpl (tag status : Nat) (ep : Bool) (data : List (BitVec 8))
  | cplRetry (tag : Nat)
  | invalidateCpl (itag : Nat)
  | errMsg (level : Nat)
  deriving DecidableEq, Repr

/-- The DOE mailbox of a port (R376). -/
structure DoeBox where
  /-- dwords of the object being written -/
  inbox : List Nat
  /-- bytes of the last response -/
  outbox : List (BitVec 8)
  /-- SPDM responder: version agreed, capabilities given, algorithms negotiated -/
  stage : Nat
  /-- the transcript that a signature covers -/
  transcript : List (BitVec 8)
  deriving DecidableEq, Repr

/-- One PCIe port beyond its HIF registers. -/
structure PciePort where
  /-- writable configuration dwords by offset; an unlisted dword holds its value after a conventional reset -/
  cfg : Tbl Nat Nat
  /-- BAR2 size as a Resizable BAR code, 0 being 1 MiB (R371) -/
  bar2 : Nat
  /-- BAR4 size as a Resizable BAR code, 0 being 1 MiB (R372) -/
  bar4 : Nat
  /-- a function-level reset is in progress (R385) -/
  flr : Bool
  /-- PERST_N of the port is low (R385) -/
  perst : Bool
  /-- an uncorrectable internal error holds the port's rings halted (R382) -/
  internalErr : Bool
  /-- DMA reads outstanding, oldest first (R381) -/
  dma : List DmaRead
  /-- translation requests outstanding (R378) -/
  xlatReqs : List Xlat
  /-- translation cache, oldest first (R378) -/
  cache : List Xlat
  /-- invalidation requests not completed yet: ITag, and the DMA tags they wait for -/
  inval : List (Nat × List Nat)
  /-- tag the next non-posted request takes (R381) -/
  nextTag : Nat
  /-- TLPs sent, oldest first: what the link has carried (R379) -/
  out : List HostTlp
  /-- the DOE mailbox (R376) -/
  doe : DoeBox
  deriving DecidableEq, Repr

/-! ## Rings (chapter 15) -/

/-- The command a ring executes. -/
structure RingCmd where
  slot : Nat
  desc : List (BitVec 8)
  /-- its status and results, once its execution has ended -/
  done : Option (Nat × Nat × Nat × Nat)
  /-- its completion ends in a halt of this cause -/
  halt : Option Nat
  /-- the unit it runs on holds it: a job, a send, a slice operation -/
  started : Bool
  deriving DecidableEq, Repr

/-- Host-window bytes a command's DMA reads brought in: address, bytes, and poison. -/
structure DmaData where
  addr : Nat
  data : List (BitVec 8)
  poison : Bool
  deriving DecidableEq, Repr

structure Ring where
  /-- slots read and not yet started, oldest first (R397) -/
  prefetch : List RingCmd
  /-- the command the ring executes -/
  cur : Option RingCmd
  /-- PHASE of the next completion (R400) -/
  phase : Bool
  /-- completions written since the last signal (R402) -/
  pend : Nat
  /-- the held completion of cause 0x2 (R405): slot, USER -/
  held : Option (Nat × Nat)
  /-- host-window bytes brought in for the current command (R381) -/
  buf : List DmaData
  deriving DecidableEq, Repr

/-! ## Slices (chapter 16) -/

/-- ADMIN execution in progress (R419). -/
inductive AdminBusy where
  | destroy (ring slice : Nat)
  | reset (ring slice : Nat)
  deriving DecidableEq, Repr

structure HifState where
  /-- PCIe port 0 -/
  p0 : PciePort
  /-- PCIe port 1 -/
  p1 : PciePort
  /-- rings by number, 0 to 4,095 -/
  rings : Tbl Nat Ring
  /-- rotating pointer of the doorbell arbiter (R396) -/
  dbPtr : Nat
  /-- ADMIN command whose steps go on (R419) -/
  admin : Option AdminBusy
  /-- spoof log entries as HIF_SPOOF_LOG reads them, oldest first -/
  spoofLog : List Nat
  /-- DVSEC: a requested warm reset has not begun (R374) -/
  recPending : Bool
  /-- RECOVER writes accepted (R374) -/
  recovers : Nat
  /-- cause code of CKR_RESET that the pending reset will record (R487) -/
  recCause : Nat
  deriving DecidableEq, Repr

end Sys2Proof.Machine
end

