-- ==== Sys2Proof/Machine/StateReadout.lean ====
section
/-!
DEFINITION. The state of the readout path beyond what its registers hold: the beat unit and release queue, the
Hatchline lanes, the context store, the trigger path, the trigger I/O, the event builder and the guest sites
(chapters 2 to 7 and 13 of spec/).
-/

namespace Sys2Proof.Machine

/-! ## Beat unit and release queue (chapter 2) -/

/-- What the beat unit keeps of one input between commands (R53, R54). -/
structure BeatInput where
  /-- the last complete monitor window lay within FMIN to FMAX -/
  windowOk : Bool
  /-- consecutive frames with good CRC at the right spacing, in SYM -/
  good : Nat
  /-- consecutive frames with bad CRC -/
  bad : Nat
  /-- consecutive TIME frames that agreed while MISMATCH was set -/
  agree : Nat
  /-- the last phase measured was near enough to lock (R54, R58) -/
  phaseOk : Bool
  deriving DecidableEq, Repr

/-- A release-queue entry (R67). -/
structure RqEntry where
  accept : Bool
  ttype : Nat
  trig : Nat
  deriving DecidableEq, Repr

/-- What the queue read for the coming release edge (R68). -/
structure RqRead where
  beat : Nat
  /-- none: VALID was clear, so the late default is due -/
  entry : Option RqEntry
  deriving DecidableEq, Repr

structure BeatState where
  /-- what is kept of input A (R53) -/
  a : BeatInput
  /-- what is kept of input B (R53) -/
  b : BeatInput
  /-- the count adopts the next TIME or LOAD tag of the active input (R58, R64) -/
  adopting : Bool
  /-- an SW_LOAD is pending (R64) -/
  swLoad : Bool
  /-- count the next beat edge takes from a stream LOAD or an adoption (R64) -/
  load : Option Nat
  /-- internal beat edges since reset, to tell one edge from the next (the model's own) -/
  edges : Nat
  /-- SYNCs that wait for the next beat edge: code, and `edges` when each was received -/
  syncs : List (Nat × Nat)
  /-- CALs that wait: code, the beat TAG + D, and `edges` when each was received -/
  cals : List (Nat × Nat × Nat)
  /-- count at the last count-changing load edge (R157) -/
  lastLoad : Option Nat
  /-- 64-bit count latched by a read of BEAT_COUNT bytes 0 to 3 -/
  latch : Nat
  /-- the 4,096 entries of the release queue by index; an unlisted entry has VALID clear (R67) -/
  rq : Tbl Nat RqEntry
  /-- the entry read ahead of the next release edge (R68) -/
  read : Option RqRead
  /-- releases at beats below this are no-accept and not late (R70, R71) -/
  relFrom : Nat
  /-- decisions for beats below this are discarded (R70, R71) -/
  decFrom : Nat
  /-- beat of the last BEAT_OUT rising edge, none while held low (R74) -/
  outRise : Option Nat
  deriving DecidableEq, Repr

/-! ## Lanes (chapter 3) -/

/-- Blocks a lane transmits (R83). -/
inductive TxBlock where
  | tick (count edge : Nat)
  | timehi (hi : Nat)
  | accept (ttype : Nat) (late : Bool) (beat : Nat)
  | cmd (kind code beat : Nat)
  | scStart (len tag : Nat)
  | scData (word : Nat)
  | scEnd (crc : Nat)
  deriving DecidableEq, Repr

/-- A hit word waiting for its context lookup (R94, R113): its frame's number and its place in that frame. -/
structure WaitHit where
  frame : Nat
  slot : Nat
  channel : Nat
  beat : Nat
  amp : Nat
  fine : Nat
  deriving DecidableEq, Repr

/-- A 16-byte history record as its two words (R177). -/
structure HistRec where
  w0 : Nat
  w1 : Nat
  deriving DecidableEq, Repr

/-- The state of one hit of a staged frame: awaiting its lookup, discarded, or a record. -/
inductive HitSlot where
  | waiting
  | gone
  | record (r : HistRec)
  deriving DecidableEq, Repr

/-- A frame between its check and its write to the history ring (R95, R178). -/
structure StagedFrame where
  id : Nat
  base : Nat
  last : Nat
  late : Bool
  /-- MISSING and TRUNCATED records that precede the hits -/
  pre : List HistRec
  hits : List HitSlot
  deriving DecidableEq, Repr

structure Lane where
  /-- expected base E of SYNC, 64 bits (R89) -/
  e : Nat
  /-- consecutive good frames toward SYNC -/
  good : Nat
  /-- SEQ of the last good frame, 8 bits -/
  goodSeq : Nat
  /-- an expected SEQ is held (R92) -/
  seqHeld : Bool
  /-- consecutive frames dropped by checks 1 to 4 or 6 (R92) -/
  dropped : Nat
  /-- consecutive frames dropped by check 4 alone (R92) -/
  droppedId : Nat
  /-- ACCEPT blocks queued for transmission, oldest first (R97) -/
  accepts : List TxBlock
  /-- CMD blocks queued for transmission, oldest first (R97) -/
  cmds : List TxBlock
  /-- the transmit arbiter's pointer: 0 ACCEPT, 1 CMD, 2 slow control (R97) -/
  txPtr : Nat
  /-- slow-control blocks still to send (R101) -/
  sc : List TxBlock
  /-- blocks sent, oldest first: what the pins have shown (R83) -/
  sent : List TxBlock
  /-- hits waiting for their context lookup, oldest first (R94) -/
  backlog : List WaitHit
  /-- frames between check and history write, oldest first (R95) -/
  frames : List StagedFrame
  /-- number the next staged frame takes (R95) -/
  nextFrame : Nat
  /-- anchors (t, WPTR), newest first, at most 256 (R180) -/
  anchors : List (Nat × Nat)
  /-- receive signal detected and its clock recovered since the lane entered CDR (R89) -/
  signal : Bool
  deriving DecidableEq, Repr

/-! ## Context store (chapter 4) -/

structure OvlEntry where
  slot : Nat
  channel : Nat
  ctx : Nat
  deriving DecidableEq, Repr

/-- What an epoch slot keeps beyond CTX_EPOCH: the order in which it was armed, and the number of its flip edge. -/
structure SlotAux where
  armSeq : Nat
  flipEdge : Nat
  deriving DecidableEq, Repr

structure CtxState where
  /-- base store by channel; an unlisted context has VALID = 0 and reads zero -/
  base : Tbl Nat Nat
  /-- overlay entries in use, in order of writing (R115) -/
  overlay : List OvlEntry
  /-- what epoch slots keep beyond CTX_EPOCH, by slot (R115) -/
  slots : Tbl Nat SlotAux
  /-- order number the next armed slot takes (R116) -/
  armCounter : Nat
  /-- bank arbiter pointers (R113) -/
  bankPtr : Tbl Nat Nat
  /-- flip beat of the epoch whose merge wrote each base row; unlisted where a command wrote it (R123) -/
  merged : Tbl Nat Nat
  deriving DecidableEq, Repr

/-! ## Trigger path (chapter 5) -/

/-- A unit's programme (R127–R150); the parts a unit does not have stay empty. -/
structure Prog where
  /-- enables of the product terms, one bit each -/
  termEn : Nat
  /-- subscription entries, 16 bits each, by index (R133) -/
  subs : Tbl Nat Nat
  /-- conditions, 128 bits each, by index (R135) -/
  conds : Tbl Nat Nat
  /-- product terms, 128 bits each, by index (R137) -/
  terms : Tbl Nat Nat
  /-- sketch slot definitions by 16 × lane + slot (R127) -/
  sketch : Tbl Nat Nat
  /-- combiner entries by trigger bit (R143) -/
  entries : Tbl Nat Nat
  /-- deadtime in beats -/
  deadtime : Nat
  /-- depth of the bucket (R147) -/
  depth : Nat
  /-- refill period of the bucket in beats (R147) -/
  refill : Nat
  /-- guest deadline (R141) -/
  guestDl : Nat
  /-- guest word used where the deadline passed (R141) -/
  guestDefault : Nat
  deriving DecidableEq, Repr

/-- A programme with the span it holds (R155). -/
structure Span where
  /-- the programme in force over the span (R155) -/
  prog : Prog
  /-- first beat of the span (R155) -/
  first : Nat
  /-- the span began at a swap, so its prescale counters start at zero (R153) -/
  swapped : Bool
  /-- DEPTH of the programme it replaced, zero where the load edge sets the level (R147, R153) -/
  wasDepth : Nat
  deriving DecidableEq, Repr

/-- A programmable unit: the programme in force, those it replaced with the last beats of their spans, newest first, and
the shadow. -/
structure TrgUnit where
  /-- the span in force (R155) -/
  cur : Span
  /-- spans replaced, newest first, with their last beats (R155) -/
  olds : List (Span × Nat)
  /-- the shadow programme (R151) -/
  shadow : Option Prog
  deriving DecidableEq, Repr

structure Packet where
  lane : Nat
  beat : Nat
  /-- non-zero words, in slot order -/
  words : List (Nat × Nat)
  deriving DecidableEq, Repr

structure TrgState where
  /-- programmable units by unit number (R150) -/
  units : Tbl Nat TrgUnit
  /-- open sums of the sketch units by lane, beat, slot (R128) -/
  acc : Tbl (Nat × Nat × Nat) Int
  /-- next beat each sketch unit closes (R128) -/
  skNext : Tbl Nat Nat
  /-- packets in the contour network, oldest first (R131) -/
  packets : List Packet
  /-- words delivered to the engines, by lane and beat (R134) -/
  inputs : Tbl (Nat × Nat) (List (Nat × Nat))
  /-- next beat awaited from each lane (R134) -/
  inNext : Tbl Nat Nat
  /-- next beat each engine evaluates -/
  engNext : Tbl Nat Nat
  /-- term bits by beat and engine -/
  terms : Tbl (Nat × Nat) Nat
  /-- next beat the combiner judges (R142) -/
  cmbNext : Nat
  /-- guest words delivered by the stencil, by beat (R359) -/
  guestWords : Tbl Nat Nat
  /-- beats whose guest deadline has passed without a word (R141) -/
  guestLate : List Nat
  /-- prescale counters by trigger bit -/
  prescale : Tbl Nat Nat
  /-- pass vectors of accepts waiting for their release, by beat (R145) -/
  pass : Tbl Nat Nat
  /-- first beat of the trigger path since the last load or clearing (R147) -/
  origin : Nat
  deriving DecidableEq, Repr

/-! ## Trigger I/O (chapter 6) -/

/-- What is recorded of one beat for the combiner (R170, R171). -/
structure BeatRec where
  /-- EXT_TRIG_IN inputs with a rising edge stamped within the beat -/
  rise : Nat
  /-- inputs asserted at any stamped instant of the beat, bit k = input k of 0–23 -/
  level : Nat
  /-- EXT_TRIG_IN inputs masked at any time during the beat -/
  masked : Nat
  /-- inputs enabled during the beat -/
  enabled : Nat
  /-- BUSY_IN inputs honoured at any time of the beat because of CHATTER -/
  chatter : Nat
  expired : Bool
  backpressure : Bool
  /-- FORCE_THROTTLE and THR_BUSY_IN at the edge that ends the beat -/
  forced : Bool
  thrBusyIn : Bool
  deriving DecidableEq, Repr

structure TioState where
  /-- inputs whose EN is in effect, one bit each (R165) -/
  en : Nat
  /-- EN writes waiting for a beat edge, by input: the number of the last edge before the write (R165) -/
  enWait : Tbl Nat Nat
  /-- TRIG_DRV = 1 waits for a beat edge: the number of the last edge before the write (R161) -/
  drvWait : Option Nat
  /-- TRIG_OUT lines driven high, 16 bits; none while high-impedance (R161) -/
  trigOut : Option Nat
  /-- lines raised at the present beat edge; the others fall -/
  raised : Nat
  /-- BUSY_OUT_N: busy driven low, none while high-impedance (R161) -/
  busyOut : Option Bool
  /-- beats left of BUSY_HOLD, for which BUSY_OUT stays asserted -/
  hold : Nat
  /-- transitions counted in the present window, by input -/
  trans : Tbl Nat Nat
  /-- records of the beats not yet judged -/
  recs : Tbl Nat BeatRec
  deriving DecidableEq, Repr

/-! ## Event builder (chapter 7) -/

/-- An accept at the builder (R181). -/
structure Accept where
  evn : Nat
  beat : Nat
  ttype : Nat
  late : Bool
  pass : Nat
  release : Nat
  loadFlag : Bool
  /-- route fields read at the release edge (R183) -/
  pre : Nat
  post : Nat
  maxent : Nat
  pool : Nat
  lanes : List Nat
  guests : List Nat
  deriving DecidableEq, Repr

/-- A fragment of an event under assembly (R185–R192). -/
structure Frag where
  /-- lane number, or 256 + guest site -/
  source : Nat
  complete : Bool
  flags : Nat
  /-- beats above HW count as MISSING -/
  missingTail : Bool
  /-- the whole window counts as MISSING: the ring was disabled -/
  whole : Bool
  hw : Nat
  /-- entries located by the copy, and where the first was -/
  entries : List HistRec
  count : Nat
  space : Nat
  start : Nat
  startSet : Bool
  state : Nat
  /-- guest data received: byte offset in the fragment and the byte -/
  guest : Tbl Nat (BitVec 8)
  /-- chunks received, by offset / 256, and the LAST message's offset and bytes -/
  chunks : List Nat
  lastChunk : Option (Nat × Nat)
  /-- addresses of the ring records the copy reads, for poison -/
  srcs : List Nat
  deriving DecidableEq, Repr

/-- Where an event stands. -/
inductive EvStage where
  | assembling | ready | counted | allocated | copied | posted
  deriving DecidableEq, Repr

structure Event where
  acc : Accept
  epoch : Nat
  frags : List Frag
  stage : EvStage
  ready : Nat
  timeout : Bool
  length : Nat
  addr : Nat
  queue : Option Nat
  /-- order of the choice among the events waiting for that queue -/
  chosen : Nat
  /-- this event is older than BP_AGE and not posted (R199) -/
  aged : Bool
  deriving DecidableEq, Repr

/-- A record held in a pool: address offset in the arena, bytes with padding and skip, context, released. -/
structure PoolRec where
  off : Nat
  bytes : Nat
  ctx : Nat
  epoch : Nat
  released : Bool
  deriving DecidableEq, Repr

structure PoolState where
  /-- offset at which the next record goes (R194) -/
  head : Nat
  /-- offset of the oldest record (R194) -/
  tail : Nat
  /-- records in the arena, oldest first (R194) -/
  recs : List PoolRec
  /-- the pool is below its threshold (R199) -/
  low : Bool
  /-- contexts whose request waits for room, oldest first (R194) -/
  waiting : List Nat
  deriving DecidableEq, Repr

structure EvbState where
  /-- contexts at or above this have never been used since reset (R182) -/
  fresh : Nat
  /-- freed contexts, oldest first (R182) -/
  freed : List Nat
  /-- EPOCH of each context, by context (R182) -/
  epochs : Tbl Nat Nat
  /-- accepts waiting for a context, oldest first -/
  fifo : List Accept
  /-- events under way, by context (R182) -/
  events : Tbl Nat Event
  /-- pools by number (R193) -/
  pools : Tbl Nat PoolState
  /-- subscription lists by route (R195) -/
  subs : Tbl Nat (List Nat)
  /-- contexts of the unreleased descriptors of each queue, oldest first (R196) -/
  queued : Tbl Nat (List Nat)
  /-- free contexts are below the CTX threshold (R199) -/
  ctxLow : Bool
  deriving DecidableEq, Repr

/-! ## Guest sites (chapter 13) -/

/-- Messages the hub sends to a guest (R351). -/
inductive GuestMsg where
  | cpl (tag status : Nat) (data : List (BitVec 8))
  | rd (tag off len : Nat) (ns : Bool)
  | wr (tag off len : Nat) (ns : Bool) (data : List (BitVec 8))
  | tick (count : Nat)
  | accept (ttype : Nat) (late : Bool) (evn beat : Nat)
  deriving DecidableEq, Repr

/-- A guest request waiting for bucket tokens (R356). -/
structure GuestReq where
  write : Bool
  tag : Nat
  addr : Nat
  data : List (BitVec 8)
  len : Nat
  deriving DecidableEq, Repr

/-- A core access outstanding at a guest (R357). -/
structure GuestAccess where
  tag : Nat
  core : Nat
  write : Bool
  late : Bool
  deriving DecidableEq, Repr

structure GuestSite where
  /-- tokens of the bucket spent and not refilled, in bytes (R356) -/
  spent : Nat
  /-- requests waiting for tokens, oldest first (R356) -/
  waiting : List GuestReq
  /-- beat of the last G_TRIG taken (R359) -/
  lastTrig : Option Nat
  /-- trigger words received by beat (R359) -/
  words : Tbl Nat Nat
  /-- messages sent to the guest, oldest first (R351) -/
  sent : List GuestMsg
  /-- core accesses outstanding at the guest (R357) -/
  access : List GuestAccess
  /-- tag the next H_RD or H_WR takes (R357) -/
  nextTag : Nat
  deriving DecidableEq, Repr

end Sys2Proof.Machine
end

