-- ==== Sys2Proof/Machine/StateSys.lean ====
section
/-!
DEFINITION. The state of fuses, vellum, boot, debug and the test chain, clocks, power domains, pins and the lifetime
ledger beyond what their registers hold (chapters 17 to 20 of spec/).
-/

namespace Sys2Proof.Machine

/-! ## Fuses and vellum (chapter 17) -/

/-- The fuses of R437; SEC registers read them. -/
structure Fuses where
  /-- digest of the vendor public key, 32 bytes (R437) -/
  vendorKey : List (BitVec 8)
  /-- device seed, 32 bytes (R437) -/
  seed : List (BitVec 8)
  /-- serial number (R437) -/
  serial : Nat
  /-- DIE_ID records by hub port; an unlisted record is all zero -/
  dieId : Tbl Nat (List (BitVec 8))
  /-- digests of the owner keys by slot (R437) -/
  ownerKey : Tbl Nat (List (BitVec 8))
  /-- owner key slots written, one bit each (R437) -/
  ownerValid : Nat
  /-- owner key slots revoked, one bit each (R437) -/
  ownerRevoked : Nat
  /-- SVN of Calom (R437) -/
  calomSvn : Nat
  /-- SVN of the compute firmware (R437) -/
  cfwSvn : Nat
  /-- DIE_AUTH (R437) -/
  dieAuth : Bool
  /-- SEC_DBG_OFF (R437) -/
  secDbgOff : Bool
  /-- HOST_PUSH_OFF (R437) -/
  hostPushOff : Bool
  /-- hub stepping, as capability byte 3 -/
  step : Nat
  deriving DecidableEq, Repr

/-- Metadata of a firmware slot (R443). -/
structure SlotMeta where
  digest : List (BitVec 8)
  svn : Nat
  active : Bool
  pending : Bool
  tried : Bool
  confirmed : Bool
  deriving DecidableEq, Repr

/-- The vellum security record (R446 OP 0x03). -/
structure SecRecord where
  hbmWm : Nat
  ddrWm : Nat
  lock : Bool
  reqSig : Bool
  deriving DecidableEq, Repr

/-- One decision the planner takes for a domain (R501). -/
structure Decision where
  domain : Nat
  hour : Nat
  action : Nat
  ratio : Nat
  fmax : Nat
  guard : Nat
  deriving DecidableEq, Repr

/-- A notable event of R505. -/
structure LogEntry where
  hour : Nat
  type : Nat
  arg0 : Nat
  arg1 : Nat
  deriving DecidableEq, Repr

/-- Counts of a ledger image by section kind and index of the count in its section, with the LOG and PLAN lists. -/
structure LedgerImage where
  /-- counts by section kind and index of the count in its section (R504) -/
  counts : Tbl (Nat × Nat) Nat
  /-- PLAN section (R504) -/
  plan : List Decision
  /-- LOG section (R505) -/
  log : List LogEntry
  /-- powered hours (R504) -/
  hours : Nat
  /-- power cycles (R504) -/
  cycles : Nat
  deriving DecidableEq, Repr

/-- One of the 8 ledger slots (R503): sequence number, the image, and whether its digest verifies. -/
structure LedgerSlot where
  seq : Nat
  image : LedgerImage
  good : Bool
  deriving DecidableEq, Repr

/-- A copy of the plan record (R502): sequence number, the decisions in force, whether its digest verifies. -/
structure PlanCopy where
  seq : Nat
  decisions : List Decision
  good : Bool
  deriving DecidableEq, Repr

structure Vellum where
  /-- metadata of the firmware slots, by slot (R443) -/
  slots : Tbl Nat SlotMeta
  /-- the security record (R446) -/
  record : Option SecRecord
  /-- certificate chain of SPDM slot 0 (R376, R443) -/
  chain0 : List (BitVec 8)
  /-- certificate chain of SPDM slot 1 (R376, R446) -/
  chain1 : List (BitVec 8)
  /-- profile images in slots 1–3 (R492) -/
  profiles : Tbl Nat (List (BitVec 8))
  /-- the two copies of the plan record (R502) -/
  plans : List PlanCopy
  /-- the eight ledger slots (R503) -/
  ledger : Tbl Nat LedgerSlot
  deriving DecidableEq, Repr

/-! ## Boot (chapter 17) -/

structure BootState where
  /-- images in the boot SPI NOR by FW_SLOT (R443) -/
  nor : Tbl Nat (List (BitVec 8))
  /-- the boot ROM has started since the last reset (R447) -/
  started : Bool
  /-- kind whose image is expected next, 1 to 3; 4 when every kind is in (R447) -/
  kind : Nat
  /-- bytes of the push in progress, by offset (R448) -/
  push : Tbl Nat (BitVec 8)
  /-- total length of the push in progress (R448) -/
  pushLen : Nat
  /-- the kind expected next is taken by push (R448, R449) -/
  waitPush : Bool
  /-- vendor byte of I3C GETSTATUS (R449) -/
  i3c : Nat
  /-- slots booted, by kind (R443) -/
  booted : Tbl Nat Nat
  /-- measurement digests 1–6 by index (R452) -/
  meas : Tbl Nat (List (BitVec 8))
  /-- header bytes 0 to 191 of the booted images, by kind (R441) -/
  headers : Tbl Nat (List (BitVec 8))
  /-- profile image in force (R492) -/
  profile : List (BitVec 8)
  /-- entry address of the compute firmware (R450) -/
  entry : Nat
  /-- lines the UART printed: kind and cause (R449) -/
  uart : List (Nat × Nat)
  deriving DecidableEq, Repr

/-! ## Debug and test (chapter 17) -/

/-- A DBG_ACC access in progress (R461). -/
structure DbgAcc where
  write : Bool
  ns : Bool
  wake : Bool
  size : Nat
  addr : Nat
  data : Nat
  /-- the status decided at GO, if any -/
  status : Option Nat
  deriving DecidableEq, Repr

/-- Where an authentication check takes its inputs (R458). -/
structure AuthCheck where
  nonce : List (BitVec 8)
  req : Nat
  slot : Nat
  pub : List (BitVec 8)
  sig : List (BitVec 8)
  deriving DecidableEq, Repr

structure DbgState where
  /-- halted harts: core, and the enables (bit mask) under which the halt was taken (R460) -/
  halted : Tbl Nat Nat
  /-- the DBG_ACC access in progress (R461) -/
  acc : Option DbgAcc
  /-- a nonce was asked for and not yet made (R458) -/
  nonceDue : Bool
  /-- the authentication check in progress (R458) -/
  check : Option AuthCheck
  /-- last granted KEY_SLOT and REQ (measurement 22) -/
  lastGrant : Option (Nat × Nat)
  /-- chain members as latched: hub port and IR length (R463) -/
  chain : List (Nat × Nat)
  /-- current instruction by die: 255 for the hub, else hub port (R462) -/
  ir : Tbl Nat Nat
  /-- an honoured EXTEST, CLAMP or HIGHZ is in force (R464) -/
  honoured : Bool
  /-- result of the last DBGREG access, returned by Capture-DR (R462) -/
  dr : Nat
  deriving DecidableEq, Repr

/-! ## Clocks, power and pins (chapters 18, 20) -/

structure CkrState where
  /-- consecutive out-of-tolerance windows of XTAL_IRO (R476) -/
  xtalBad : Nat
  /-- consecutive out-of-tolerance windows of ROOT_IRO (R476) -/
  rootBad : Nat
  /-- remainder of the fabric-time advance in units of 1/M fabric cycle (R474) -/
  ftRem : Nat
  deriving DecidableEq, Repr

/-- A power request waiting (R481): domain state code wanted, world of the writer, HOLD, wake code. -/
structure PwrReq where
  target : Nat
  secure : Bool
  hold : Bool
  wake : Nat
  deriving DecidableEq, Repr

/-- A transition accepted and waiting for the arbiter, or running: domains that move together, target, wake code. -/
structure PwrTrans where
  doms : List Nat
  target : Nat
  wake : Nat
  deriving DecidableEq, Repr

structure PwrState where
  /-- requests held under HOLD, or written during a transition, by domain (R481) -/
  req : Tbl Nat PwrReq
  /-- accepted transitions that wait to start (R482) -/
  queue : List PwrTrans
  /-- transitions running (R482) -/
  running : List PwrTrans
  /-- a wake that arrived during an entry: wake code by domain (R484) -/
  exits : Tbl Nat Nat
  /-- pointer of the arbiter of R482 -/
  ptr : Nat
  /-- refusal-table entries in order of last update, oldest first (R486) -/
  order : List Nat
  deriving DecidableEq, Repr

/-- Reset lines and boot-time inputs at the pins (R489, R490, R514). -/
structure Pins where
  /-- PORESET_N low (R489) -/
  poreset : Bool
  /-- PWRGD[k] asserted, one bit each (R489) -/
  pwrgd : Nat
  /-- PROFILE_SEL sampled at the release of PORESET_N (R514) -/
  profileSel : Nat
  /-- THERMTRIP_N driven low (R490) -/
  thermtrip : Bool
  deriving DecidableEq, Repr

/-! ## Ledger (chapter 19) -/

structure LgrState where
  /-- the accumulator of R503 -/
  acc : LedgerImage
  /-- slot 0 to 7 to write next (R503) -/
  next : Nat
  /-- sequence number of the last committed slot (R503) -/
  seq : Nat
  /-- seconds short of an hour in each histogram bin, kept in the accumulator (R499) -/
  secs : Tbl (Nat × Nat) Nat
  /-- compute dies under the thermal cap (R500) -/
  capped : List Nat
  /-- guardbands in force by die, mV (R501) -/
  guards : Tbl Nat Nat
  /-- voltage requests published in the I3C target map by die, mV (R521) -/
  request : Tbl Nat Nat
  deriving DecidableEq, Repr

end Sys2Proof.Machine
end

