-- ==== Sys2Proof/Machine/State.lean ====
section
/-!
DEFINITION. The state of the device as plain data, the reasons a step can stop, and the state after reset.
-/

namespace Sys2Proof.Machine

/-- Key of a register field instance: register, instance number, lowest bit. -/
structure RegKey where
  reg : Reg
  idx : Nat
  lo : Nat
  deriving DecidableEq, Repr

/-- The device. -/
structure State where
  /-- commands waiting, first in, first out -/
  pending : List Instr
  /-- the variant of the package -/
  hw : Variant
  /-- values of register field instances; an unlisted one holds its reset value -/
  regs : Tbl RegKey Nat
  /-- counter that supplies the free values (the model's own) -/
  fresh : Nat
  /-- data returned by the last read that is a command of its own (the model's own) -/
  rdata : Nat
  evc : EvcState
  harts : Tbl Nat Hart
  l2 : Tbl Nat L2State
  dir : DirState
  groups : Tbl Nat Group
  mem : MemState
  beat : BeatState
  lanes : Tbl Nat Lane
  ctx : CtxState
  trg : TrgState
  tio : TioState
  evb : EvbState
  guests : Tbl Nat GuestSite
  aln : AlnState
  stp : StpState
  eth : EthState
  hif : HifState
  fuses : Fuses
  vellum : Vellum
  boot : BootState
  dbg : DbgState
  ckr : CkrState
  pwr : PwrState
  pins : Pins
  lgr : LgrState
  deriving DecidableEq, Repr

/-- Reasons a step stops with a fault.  None of the device's commands faults: every error the spec describes is an
effect on the state. -/
inductive Fault where
  /-- No meaning raises it: the type is kept inhabited for the interface.  Safe. -/
  | none
  deriving DecidableEq, Repr

/-- Reasons a command has no meaning. -/
inductive Refusal where
  /-- Raised by the dispatch for a command that has no meaning: by none now, every command having one.  Safe. -/
  | notModelled (mnemonic : String)
  deriving DecidableEq, Repr

/-! ## The state after reset -/

def Hart.init : Hart :=
  { pc := 0, x := [], f := [], v := [], csr := [], claimM := [], claimS := [], mb := [], l1d := [], l1i := [], tlb := [],
    pred := [], resv := none, resvDefer := false, miss := none, io := none, proof := none, lastTs := none,
    lastTrap := none, trapRepeats := 0, beatF := 0, haltPending := false, bootBad := none }

def L2State.init : L2State :=
  { lines := [], lb := [], pending := [], held := [], invAfterFlush := false, flushLeft := [], invLeft := [], aborted := [] }

def Lane.init : Lane :=
  { e := 0, good := 0, goodSeq := 0, seqHeld := false, dropped := 0, droppedId := 0, accepts := [], cmds := [],
    txPtr := 0, sc := [], sent := [], backlog := [], frames := [], nextFrame := 0, anchors := [],
    signal := false }

def Prog.init : Prog :=
  { termEn := 0, subs := [], conds := [], terms := [], sketch := [], entries := [], deadtime := 0, depth := 0,
    refill := 0, guestDl := 0, guestDefault := 0 }

def Span.init : Span := { prog := Prog.init, first := 0, swapped := false, wasDepth := 0 }

def TrgUnit.init : TrgUnit := { cur := Span.init, olds := [], shadow := none }

def PoolState.init : PoolState := { head := 0, tail := 0, recs := [], low := false, waiting := [] }

def GuestSite.init : GuestSite :=
  { spent := 0, waiting := [], lastTrig := none, words := [], sent := [], access := [], nextTag := 0 }

def AlnPort.init : AlnPort :=
  { fails := 0, limit := 0, width := 0, rate := 0, fallback := false, crcFails := 0, cap := [], sig := [], sent := [],
    admitted := false, replays := 0, last := 0, down := false }

def BeatInput.init : BeatInput := { windowOk := false, good := 0, bad := 0, agree := 0, phaseOk := false }

def DoeBox.init : DoeBox := { inbox := [], outbox := [], stage := 0, transcript := [] }

def PciePort.init : PciePort :=
  { cfg := [], bar2 := 0, bar4 := 10, flr := false, perst := true, internalErr := false, dma := [], xlatReqs := [],
    cache := [], inval := [], nextTag := 0, out := [], doe := DoeBox.init }

def Ring.init : Ring := { prefetch := [], cur := none, phase := true, pend := 0, held := none, buf := [] }

def LedgerImage.init : LedgerImage := { counts := [], plan := [], log := [], hours := 0, cycles := 0 }

def EvcState.init : EvcState := { held := [], interval := [], flight := [], waiting := [], easel := [] }

def DirState.init : DirState :=
  { entries := [], txns := [], waits := [], flight := [], replies := [], sweeping := [], probing := false, clock := 0 }

def MemState.init : MemState :=
  { cells := [], code := [], corr := [], queue := [], raw := [], reports := [], initWalk := [], wmReq := none, zeroing := [],
    dimms := [], srKept := false }

def BeatState.init : BeatState :=
  { a := BeatInput.init, b := BeatInput.init, adopting := false, swLoad := false, load := none, edges := 0,
    syncs := [], cals := [], lastLoad := none, latch := 0, rq := [], read := none, relFrom := 0, decFrom := 0, outRise := none }

def CtxState.init : CtxState := { base := [], overlay := [], slots := [], armCounter := 0, bankPtr := [], merged := [] }

def TrgState.init : TrgState :=
  { units := [], acc := [], skNext := [], packets := [], inputs := [], inNext := [], engNext := [], terms := [],
    cmbNext := 0, guestWords := [], guestLate := [], prescale := [], pass := [], origin := 0 }

def TioState.init : TioState :=
  { en := 0, enWait := [], drvWait := none, trigOut := none, raised := 0, busyOut := none, hold := 0, trans := [],
    recs := [] }

def EvbState.init : EvbState :=
  { fresh := 0, freed := [], epochs := [], fifo := [], events := [], pools := [], subs := [], queued := [],
    ctxLow := false }

def AlnState.init : AlnState := { ports := [], checkPtr := 0, dieReset := [], reqSigLoaded := false }

def StpState.init : StpState := { waiting := [], running := [], slicePtr := 0, ringPtr := [] }

def EthState.init : EthState := { ready := [], paused := [], ptr := [], sent := [] }

def HifState.init : HifState :=
  { p0 := PciePort.init, p1 := PciePort.init, rings := [], dbPtr := 0, admin := none, spoofLog := [],
    recPending := false, recovers := 0, recCause := 6 }

/-- The fuses of a device on which nothing has been blown (assumption log 6). -/
def Fuses.blank : Fuses :=
  { vendorKey := [], seed := [], serial := 0, dieId := [], ownerKey := [], ownerValid := 0, ownerRevoked := 0,
    calomSvn := 0, cfwSvn := 0, dieAuth := false, secDbgOff := false, hostPushOff := false, step := 0 }

/-- A vellum that holds nothing (assumption log 6). -/
def Vellum.blank : Vellum :=
  { slots := [], record := none, chain0 := [], chain1 := [], profiles := [], plans := [], ledger := [] }

def BootState.init : BootState :=
  { nor := [], started := false, kind := 1, push := [], pushLen := 0, waitPush := false, i3c := 0, booted := [], meas := [],
    headers := [], profile := [], entry := 0, uart := [] }

def DbgState.init : DbgState :=
  { halted := [], acc := none, nonceDue := false, check := none, lastGrant := none, chain := [], ir := [],
    honoured := false, dr := 0 }

def PwrState.init : PwrState := { req := [], queue := [], running := [], exits := [], ptr := 0, order := [] }

def LgrState.init : LgrState :=
  { acc := LedgerImage.init, next := 0, seq := 0, secs := [], capped := [], guards := [], request := [] }

/-- The device right after a cold reset, with PORESET_N still low and the supplies good (R489, R490): every register at
its reset value, every memory and table empty, and no command waiting.  The variant, fuses and vellum are what a cold
reset does not decide (assumption logs 1, 2 and 6). -/
def State.reset : State :=
  { pending := []
    hw := { sites := .h12, build := .c4, guests := .g2 }
    regs := []
    fresh := 0
    rdata := 0
    evc := EvcState.init
    harts := []
    l2 := []
    dir := DirState.init
    groups := []
    mem := MemState.init
    beat := BeatState.init
    lanes := []
    ctx := CtxState.init
    trg := TrgState.init
    tio := TioState.init
    evb := EvbState.init
    guests := []
    aln := AlnState.init
    stp := StpState.init
    eth := EthState.init
    hif := HifState.init
    fuses := Fuses.blank
    vellum := Vellum.blank
    boot := BootState.init
    dbg := DbgState.init
    ckr := { xtalBad := 0, rootBad := 0, ftRem := 0 }
    pwr := PwrState.init
    pins := { poreset := true, pwrgd := 0x3F, profileSel := 0, thermtrip := false }
    lgr := LgrState.init }

end Sys2Proof.Machine
end

