-- ==== Sys2Proof/Machine/ResetVals.lean ====
section
/-!
DEFINITION. Reset values that depend on the instance of a register (R388, R436, R471, R483, R496, R525).
-/

namespace Sys2Proof.Machine

/-- Reset ratio of clock domain `d` (R471): N and M. -/
def clkRatio (d : Nat) : Nat × Nat :=
  if d < 60 then (20, 1) else
  match d with
  | 60 => (5, 2) | 61 => (10, 1) | 62 => (20, 1) | 63 => (20, 1) | 64 => (16, 1) | 65 => (16, 1) | 66 => (10, 1)
  | 67 => (5, 1) | 68 => (10, 1) | 69 => (10, 1) | 70 => (125, 8) | 71 => (85, 8) | 72 => (10, 1) | 73 => (10, 1)
  | 74 => (1, 1) | 75 => (2, 1) | 76 => (10, 1) | 77 => (10, 1) | _ => (0, 0)

/-- Is clock domain `d` gateable (R471)? -/
def clkGateable (d : Nat) : Bool := (66 ≤ d && d ≤ 71) || d == 73 || d == 74 || d == 76 || d == 77

/-- World, target type and target index of an event source at reset (R525). -/
def evDefault (n : Nat) : Nat × Nat × Nat :=
  if n ≤ 191 then (0, 0, 1) else
  if n ≤ 255 then (0, 0, 2) else
  if n ≤ 279 then (0, 0, 3) else
  if n ≤ 287 then (0, 0, 4) else
  if n ≤ 319 then (0, 0, 5) else
  if n ≤ 351 then (0, 0, 6) else
  if n ≤ 359 then (0, 0, 7) else
  if n ≤ 375 then (0, 0, 8) else
  if n ≤ 471 then (1, 2, 1) else
  if n ≤ 487 then (0, 0, 9) else
  if n ≤ 503 then (1, 2, 2) else
  if n ≤ 519 then (1, 2, 0) else
  if n ≤ 631 then (1, 2, 3) else
  if n ≤ 695 then (1, 2, 0) else
  if n ≤ 727 then (1, 2, 3) else
  if n == 730 || n == 731 then (0, 0, 11) else
  if n ≤ 732 then (0, 0, 10) else
  if n == 733 then (1, 2, 0) else (0, 0, 0)

/-- Reset value of instance `i` of field `f`. -/
def Field.resetAt (f : Field) (i : Nat) : Nat :=
  match f.reg, f.lo with
  | .HIF_PORT_CFG, 0 => if i = 0 then 1 else 0
  | .HIF_SLICE_CFG, 0 => if i = 0 then 1 else 0
  | .CKR_DOM, 1 => b2n (clkGateable i)
  | .CKR_DOM, 16 => (clkRatio i).1
  | .CKR_DOM, 28 => (clkRatio i).2
  | .PWR_DOM_CTL, 5 => b2n (60 ≤ i && i ≤ 64)
  | .PWR_DOM_STATUS, 0 => if i = 60 then 0 else 2
  | .EVC_SRC_CFG, 1 => (evDefault i).1
  | .EVC_SRC_CFG, 2 => (evDefault i).2.1
  | .EVC_SRC_CFG, 16 => (evDefault i).2.2
  | .EVC_SRC_CFG, 48 => b2n (i == 504)
  | _, _ => f.rst

end Sys2Proof.Machine
end

