-- ==== Sys2Proof/Machine/Ops.lean ====
section
/-!
DEFINITION. Named operations over the state: reading and writing register fields, the population of the package, and
whether a block is powered and clocked.
-/

namespace Sys2Proof.Machine

/-! ## Register fields -/

/-- Value of instance `i` of a register field. -/
def State.rd (s : State) (f : Field) (i : Nat := 0) : Nat := Tbl.get s.regs ⟨f.reg, i, f.lo⟩ (f.resetAt i)

/-- The hardware sets instance `i` of a register field. -/
def State.wr (s : State) (f : Field) (i v : Nat) : State :=
  { s with regs := Tbl.set s.regs ⟨f.reg, i, f.lo⟩ (v % 2 ^ f.w) (f.resetAt i) }

/-- Is the one-bit field set? -/
def State.is (s : State) (f : Field) (i : Nat := 0) : Bool := s.rd f i != 0

/-- Saturating count (R388, R416 and the other counter rules). -/
def State.inc (s : State) (f : Field) (i : Nat := 0) (n : Nat := 1) : State := s.wr f i (satAdd f.w (s.rd f i) n)

/-- Counting without saturation, modulo the field's width (role epochs, indices). -/
def State.bump (s : State) (f : Field) (i : Nat := 0) : State := s.wr f i (s.rd f i + 1)

/-- `f` applied when `b` holds. -/
def State.when (s : State) (b : Bool) (f : State → State) : State := if b then f s else s

/-- Is bit `k` of a field set? -/
def State.fbit (s : State) (f : Field) (i k : Nat) : Bool := (s.rd f i).testBit k

/-- Bit `k` of a field set to `b`. -/
def State.putBit (s : State) (f : Field) (i k : Nat) (b : Bool) : State :=
  s.wr f i (if b then setBit (s.rd f i) k else clrBit (s.rd f i) k)

/-- A fresh free value below `n` (assumption log 3): the next opaque number, and the counter moved past it. -/
def State.free (s : State) (n : Nat) : Nat × State := (Config.freeNat s.fresh % n, { s with fresh := s.fresh + 1 })

/-! ## Byte-owner registers of eight bytes each (R436) -/

/-- Byte `k` of a row of byte-wide fields. -/
def byteField (f : Field) (k : Nat) : Field := { f with lo := 8 * (k % 8) }

/-- Owner of HBM plate `p`. -/
def State.ownerH (s : State) (p : Nat) : Nat := s.rd (byteField F.HIF_PLATE_OWNER_H.OWNER0 p) (p / 8)
/-- Owner of DDR5 plate `q`. -/
def State.ownerD (s : State) (q : Nat) : Nat := s.rd (byteField F.HIF_PLATE_OWNER_D.OWNER0 q) (q / 8)
/-- Owner of MSI-X vector `v` of port `p`. -/
def State.ownerV (s : State) (p v : Nat) : Nat := s.rd (byteField F.HIF_MSIX_OWNER.OWNER0 v) (256 * p + v / 8)

/-! ## Requesters -/

/-- Does the requester act in the secure world (R453)? -/
def isSecure : Src → Bool
  | .secure => true
  | _ => false

/-! ## Population (R1 to R6, R16, R325) -/

/-- Is compute site `n` populated? -/
def Variant.site (v : Variant) (n : Nat) : Bool :=
  match v.sites with
  | .h12 => n < 12
  | .h8 => [1, 2, 3, 4, 7, 8, 9, 10].contains n
  | .h4 => [2, 3, 8, 9].contains n

/-- Number of populated guest sites. -/
def Variant.nGuests (v : Variant) : Nat :=
  match v.guests with
  | .g0 => 0
  | .g1 => 1
  | .g2 => 2

/-- Is hub port `n` (0–11 compute sites, 12 and 13 guests) populated? -/
def Variant.port (v : Variant) (n : Nat) : Bool := if n < 12 then v.site n else n - 12 < v.nGuests && n < 14

/-- Is HBM controller `c` populated (R328)? -/
def Variant.hbm (v : Variant) (c : Nat) : Bool :=
  match v.sites with
  | .h4 => [1, 2, 5, 6].contains c
  | _ => c < 8

/-- HBM plates of the package (R325). -/
def Variant.hbmPlates (v : Variant) : Nat :=
  match v.sites with
  | .h4 => 96
  | _ => 192

/-- Compute generation of the build: 0x03 C3, 0x04 C4. -/
def Variant.gen (v : Variant) : Nat :=
  match v.build with
  | .c3 => 3
  | .c4 => 4

/-- Number of populated compute sites. -/
def Variant.nSites (v : Variant) : Nat :=
  match v.sites with
  | .h12 => 12
  | .h8 => 8
  | .h4 => 4

/-- Population fuse bits of the compute sites. -/
def Variant.cdPop (v : Variant) : Nat := (idxWhere 12 v.site).foldl setBit 0

/-- Number of populated DDR5 channels (R329): boot firmware's finding. -/
def State.ddrChannels (s : State) : Nat := s.rd F.MEM_DDR_CFG.K

/-- Populated DDR5 plates: k × D (R330). -/
def State.ddrPlates (s : State) : Nat := s.ddrChannels * s.rd F.MEM_DDR_CFG.DIMM_GIB

/-! ## Cores and clusters (R13) -/

/-- Cluster number of a core. -/
def clusterOf (core : Nat) : Nat := core / 12
/-- Site of a core. -/
def siteOf (core : Nat) : Nat := core / 48
/-- Power domain, and clock domain, of cluster number `cl` (R471, R479). -/
def clusterDom (cl : Nat) : Nat := 5 * (cl / 4) + cl % 4
/-- Power domain of the uncore of site `n`. -/
def uncoreDom (n : Nat) : Nat := 5 * n + 4

/-! ## Power and clocks (R478, R479) -/

/-- Is power domain `d` ON? -/
def State.domOn (s : State) (d : Nat) : Bool := s.rd F.PWR_DOM_STATUS.STATE d == 0

/-- Does clock domain `d` run (R478)? -/
def State.clkOn (s : State) (d : Nat) : Bool := s.is F.CKR_DOM.EN d

/-- Is a block alive: its power domain ON and its clock not gated? -/
def State.live (s : State) (dom clk : Nat) : Bool := s.domOn dom && s.clkOn clk

/-- Is the device held in cold reset by its pins (R489, R490, R491)? -/
def State.held (s : State) : Bool := s.pins.poreset || s.pins.pwrgd != 0x3F || s.pins.thermtrip

/-- Is the lane group of lane `n` alive? -/
def State.laneLive (s : State) (n : Nat) : Bool := s.live (82 + n / 24) 66
/-- Is the beat unit and trigger I/O alive? -/
def State.beatLive (s : State) : Bool := s.live 90 67
/-- Is the context store alive? -/
def State.ctxLive (s : State) : Bool := s.live 91 66
/-- Is the trigger path alive? -/
def State.trgLive (s : State) : Bool := s.live 91 68
/-- Is the event builder alive? -/
def State.evbLive (s : State) : Bool := s.live 92 69
/-- Are the stipple engines alive? -/
def State.stpLive (s : State) : Bool := s.live 93 70
/-- Is Ethernet port `p` alive? -/
def State.ethLive (s : State) (p : Nat) : Bool := s.live (94 + p / 2) 71
/-- Is PCIe port `p` alive?  Port 0's domain also holds the rings. -/
def State.pcieLive (s : State) (p : Nat) : Bool := s.live (96 + p) (72 + p)
/-- Is the ring machinery alive? -/
def State.ringLive (s : State) : Bool := s.live 96 72
/-- Is cluster `cl` alive? -/
def State.clusterLive (s : State) (cl : Nat) : Bool := s.domOn (clusterDom cl)
/-- Is guest site `g` alive? -/
def State.guestLive (s : State) (g : Nat) : Bool := s.live (98 + g) (76 + g)
/-- Is directory slice `n` alive (eight slices in each of domains 65–68)? -/
def State.sliceLive (s : State) (n : Nat) : Bool := s.domOn (65 + n / 8)
/-- Power domain of memory controller `c` (R479). -/
def ctlDom (c : Nat) : Nat := if c < 8 then 70 + c else 78 + (c - 8) / 2

/-! ## Slices (R417, R420) -/

/-- Slice a core is assigned to. -/
def State.coreSlice (s : State) (core : Nat) : Nat := s.rd F.HIF_CORE_SLICE.SLICE core

/-- Slice for which a register access acts: a core with NS = 1 acts for its slice, every other requester for slice 0
(R392). -/
def State.srcSlice (s : State) : Src → Nat
  | .normal core => s.coreSlice core
  | _ => 0

/-! ## Sub-state access -/

def State.hart (s : State) (c : Nat) : Hart := Tbl.get s.harts c Hart.init
def State.setHart (s : State) (c : Nat) (h : Hart) : State := { s with harts := Tbl.set s.harts c h Hart.init }
def State.l2c (s : State) (cl : Nat) : L2State := Tbl.get s.l2 cl L2State.init
def State.setL2 (s : State) (cl : Nat) (l : L2State) : State := { s with l2 := Tbl.set s.l2 cl l L2State.init }
def State.lane (s : State) (n : Nat) : Lane := Tbl.get s.lanes n Lane.init
def State.setLane (s : State) (n : Nat) (l : Lane) : State := { s with lanes := Tbl.set s.lanes n l Lane.init }
def State.guest (s : State) (g : Nat) : GuestSite := Tbl.get s.guests g GuestSite.init
def State.setGuest (s : State) (g : Nat) (l : GuestSite) : State :=
  { s with guests := Tbl.set s.guests g l GuestSite.init }
def State.alnPort (s : State) (lp : Nat) : AlnPort := Tbl.get s.aln.ports lp AlnPort.init
def State.setAln (s : State) (lp : Nat) (p : AlnPort) : State :=
  { s with aln := { s.aln with ports := Tbl.set s.aln.ports lp p AlnPort.init } }
def State.ring (s : State) (r : Nat) : Ring := Tbl.get s.hif.rings r Ring.init
def State.setRing (s : State) (r : Nat) (x : Ring) : State :=
  { s with hif := { s.hif with rings := Tbl.set s.hif.rings r x Ring.init } }
def State.port (s : State) (p : Nat) : PciePort := if p = 0 then s.hif.p0 else s.hif.p1
def State.setPort (s : State) (p : Nat) (x : PciePort) : State :=
  { s with hif := if p = 0 then { s.hif with p0 := x } else { s.hif with p1 := x } }
/-- A TLP joins the port's traffic (R379: in order). -/
def State.sendTlp (s : State) (p : Nat) (t : HostTlp) : State :=
  s.setPort p { s.port p with out := (s.port p).out ++ [t] }

end Sys2Proof.Machine
end

