-- ==== Sys2Proof/Machine/Flags.lean ====
section
/-!
DEFINITION. Event bits and event sources: which bits hold which source asserted, when a source fires, and where its
message goes (R455, R524 to R529).
-/

namespace Sys2Proof.Machine

/-- The event bits, as register, instance and lowest bit, that hold source `n` asserted. -/
def sourceBits (n : Nat) : List (Reg × Nat × Nat) :=
  let row (r : Reg) (i lo k : Nat) : List (Reg × Nat × Nat) := (List.range k).map (fun j => (r, i, lo + j))
  if n ≤ 191 then row .LANE_STATUS n 32 7 else
  if n ≤ 255 then row .TRG_UNIT_STATUS (n - 192) 32 3 else
  if n ≤ 279 then row .TIO_IN_STATUS (n - 256) 32 3 else
  if n ≤ 287 then [(.BEAT_STATUS, 0, 32 + (n - 280))] else
  if n = 288 then row .EVB_STATUS 0 48 5 else
  if n ≤ 296 then [(.EVB_POOL_STATUS, n - 289, 48)] else
  if n ≤ 312 then row .EVB_ROUTE_STATUS (n - 297) 32 2 else
  if n ≤ 319 then [] else
  if n ≤ 335 then [(.STP_ENG_STATUS, n - 320, 32)] else
  if n = 336 then row .STP_STATUS 0 32 2 else
  if n ≤ 351 then [] else
  if n ≤ 355 then row .ETH_PORT_STATUS (n - 352) 32 3 else
  if n ≤ 359 then [] else
  if n ≤ 375 then [(.HIF_PORT_STATUS, (n - 360) / 8, 32 + (n - 360) % 8)] else
  if n ≤ 439 then [(.MEM_CTL_STATUS, (n - 376) / 4, 32 + (n - 376) % 4)] else
  if n ≤ 471 then row .DIR_SLICE_STATUS (n - 440) 48 3 else
  if n ≤ 476 then [(.PRF_STATUS, 0, 32 + (n - 472))] else
  if n ≤ 487 then [] else
  if n ≤ 501 then row .ALN_PORT_STATUS (n - 488) 32 5 else
  if n ≤ 503 then row .STN_STATUS (n - 502) 32 4 else
  if n ≤ 506 then [(.CKR_STATUS, 0, 32 + (n - 504))] else
  if n ≤ 519 then [] else
  if n ≤ 619 then row .PWR_DOM_STATUS (n - 520) 32 3 else
  if n ≤ 623 then [(.LGR_STATUS, 0, 32 + (n - 620))] else
  if n ≤ 631 then [] else
  if n ≤ 637 then [(.SEC_STATUS, 0, 32 + (n - 632))] else
  if n ≤ 695 then [] else
  if n ≤ 697 then [(.LGR_STATUS, 0, 36 + (n - 696))] else
  if n ≤ 727 then [] else
  match n with
  | 728 => [(.HIF_RING_STATUS, 0, 32)]
  | 729 => row .HIF_RING_STATUS 0 33 3
  | 730 => row .CTX_STATUS 0 48 5
  | 731 => row .TRG_STATUS 0 32 4 ++ row .TRG_UNIT_STATUS 64 32 3
  | 732 => (List.range 256).flatMap (fun i => row .HIF_SLICE_STATUS i 32 3)
  | 733 => row .DBG_STATUS 0 32 5
  | _ => []

/-- The source that event bit `lo` of instance `i` of register `r` holds asserted. -/
def bitSource (r : Reg) (i lo : Nat) : Option Nat :=
  match r with
  | .LANE_STATUS => some i
  | .TRG_UNIT_STATUS => some (if i < 64 then 192 + i else 731)
  | .TIO_IN_STATUS => some (256 + i)
  | .BEAT_STATUS => some (280 + (lo - 32))
  | .EVB_STATUS => some 288
  | .EVB_POOL_STATUS => some (289 + i)
  | .EVB_ROUTE_STATUS => some (297 + i)
  | .STP_ENG_STATUS => some (320 + i)
  | .STP_STATUS => some 336
  | .ETH_PORT_STATUS => some (352 + i)
  | .HIF_PORT_STATUS => some (360 + 8 * i + (lo - 32))
  | .MEM_CTL_STATUS => if lo < 36 then some (376 + 4 * i + (lo - 32)) else none
  | .DIR_SLICE_STATUS => some (440 + i)
  | .PRF_STATUS => some (472 + (lo - 32))
  | .ALN_PORT_STATUS => some (488 + i)
  | .STN_STATUS => some (502 + i)
  | .CKR_STATUS => some (504 + (lo - 32))
  | .PWR_DOM_STATUS => some (520 + i)
  | .LGR_STATUS => some (if lo < 36 then 620 + (lo - 32) else 696 + (lo - 36))
  | .SEC_STATUS => some (632 + (lo - 32))
  | .HIF_RING_STATUS => some (if lo = 32 then 728 else 729)
  | .CTX_STATUS => some 730
  | .TRG_STATUS => some 731
  | .HIF_SLICE_STATUS => some 732
  | .DBG_STATUS => some 733
  | _ => none

/-- Level of source `n`: the OR of its event bits (R524); source 732 is also held by a non-empty spoof log (R436). -/
def State.level (s : State) (n : Nat) : Bool :=
  (sourceBits n).any (fun b => Tbl.get s.regs (RegKey.mk b.1 b.2.1 b.2.2) 0 != 0) || (n == 732 && !s.hif.spoofLog.isEmpty)

/-- MSI-X signalling of vector `v` of port `p` through its table entry: with the function's MSI-X enabled, a masked
vector sets its pending bit and an unmasked one sends its message; with MSI-X or bus mastering disabled nothing is
sent. -/
def State.msix (s : State) (p v : Nat) : State :=
  let ctl := Tbl.get (s.port p).cfg 0x50 0
  if !ctl.testBit 31 || !(Tbl.get (s.port p).cfg 0x04 0).testBit 2 then s
  else if ctl.testBit 30 || s.is F.MSIX_CTL.MASK (2048 * p + v) then
    s.putBit F.MSIX_PBA.PEND (32 * p + v / 64) (v % 64) true
  else s.sendTlp p (.msix v (s.rd F.MSIX_ADDR.ADDR (2048 * p + v)) (s.rd F.MSIX_CTL.DATA (2048 * p + v)))

/-- Vectors of port `p` whose pending bit is set. -/
def State.msixPending (s : State) (p : Nat) : List Nat :=
  (List.range 32).flatMap (fun k => (idxWhere 64 (s.fbit F.MSIX_PBA.PEND (32 * p + k))).map (64 * k + ·))

/-- Messages held pending by a mask that no longer holds them are sent, lowest vector first. -/
def State.msixFlush (s : State) (p : Nat) : State :=
  let ctl := Tbl.get (s.port p).cfg 0x50 0
  if !ctl.testBit 31 || ctl.testBit 30 || !(Tbl.get (s.port p).cfg 0x04 0).testBit 2 then s else
  (s.msixPending p).foldl (fun s v =>
    if s.is F.MSIX_CTL.MASK (2048 * p + v) then s
    else (s.putBit F.MSIX_PBA.PEND (32 * p + v / 64) (v % 64) false).msix p v) s

/-- The message of a maskable firing goes to the target that TTYPE, TIDX and WORLD name (R525, R527). -/
def State.sendEvent (s : State) (n : Nat) : State :=
  let ti := s.rd F.EVC_SRC_CFG.TIDX n
  match s.rd F.EVC_SRC_CFG.TTYPE n with
  | 0 => s.msix 0 ti
  | 1 => s.msix 1 ti
  | 2 => { s with evc := { s.evc with easel := s.evc.easel ++ [{ core := ti, source := n, nmi := false }] } }
  | _ => { s with evc := { s.evc with flight := s.evc.flight ++
            [{ source := n, target := if s.is F.EVC_SRC_CFG.WORLD n then .hartM ti else .hartS ti }] } }

/-- A maskable firing of source `n` (R527): nothing is delivered with EN = 0; within the RATE interval it is held, or
merged into the one held; otherwise it is sent, which starts the interval. -/
def State.deliver (s : State) (n : Nat) : State :=
  if !s.is F.EVC_SRC_CFG.EN n then s
  else if s.rd F.EVC_SRC_CFG.RATE n = 0 then s.sendEvent n
  else if s.evc.held.contains n then s.inc F.EVC_SRC_CNT.MERGED n
  else if s.evc.interval.contains n then { s with evc := { s.evc with held := s.evc.held ++ [n] } }
  else ({ s with evc := { s.evc with interval := n :: s.evc.interval } }).sendEvent n

/-- A non-maskable firing of source `n` (R526): NMI to all four easel cores, and vector 0 of port 0. -/
def State.fireNmi (s : State) (n : Nat) : State :=
  let s := (s.inc F.EVC_SRC_CNT.FIRED n).wr F.EVC_NMI.LAST 0 n
  let s := s.inc F.EVC_NMI.COUNT 0
  let s := { s with evc := { s.evc with
    easel := s.evc.easel ++ (List.range 4).map (fun c => EaselIrq.mk c n true) } }
  s.msix 0 0

/-- A firing of source `n`: source 504 is always non-maskable, and `nm` marks a secure-plate UE (R526). -/
def State.fire (s : State) (n : Nat) (nm : Bool) : State :=
  if nm || n == 504 then s.fireNmi n else (s.inc F.EVC_SRC_CNT.FIRED n).deliver n

/-- An event bit becomes set (R524): the source fires on the rise of its level; a further bit that sets while the level
is high adds one to MERGED. -/
def State.raiseNm (s : State) (f : Field) (i : Nat) (nm : Bool) : State :=
  match bitSource f.reg i f.lo with
  | none => s.wr f i 1
  | some n =>
    let high := s.level n
    let set := s.is f i
    let s := s.wr f i 1
    if !high then s.fire n nm
    else if !set then s.inc F.EVC_SRC_CNT.MERGED n
    else s

/-- An event bit becomes set. -/
def State.raise (s : State) (f : Field) (i : Nat := 0) : State := s.raiseNm f i false

/-- A spoof is recorded (R428): counted for the offending slice, its event set, and logged; an entry that finds 64
entries in the log is discarded and counted. -/
def State.spoof (s : State) (slice unit index : Nat) : State :=
  let s := (s.inc F.HIF_SLICE_CNT.SPOOFS slice).raise F.HIF_SLICE_STATUS.EVT_SPOOF slice
  if s.hif.spoofLog.length < 64 then
    { s with hif := { s.hif with
        spoofLog := s.hif.spoofLog ++ [slice + unit <<< 8 + (index % 65536) <<< 16 + 1 <<< 63] } }
  else s.inc F.HIF_SLICE_SUMMARY.LOG_LOST

/-! ## Ledger accumulator (R503 to R505) -/

/-- Count `n` more at index `i` of ledger section `kind` in the accumulator. -/
def State.ledger (s : State) (kind i : Nat) (n : Nat := 1) : State :=
  { s with lgr := { s.lgr with acc := { s.lgr.acc with
      counts := Tbl.set s.lgr.acc.counts (kind, i) (Tbl.get s.lgr.acc.counts (kind, i) 0 + n) 0 } } }

/-- Set a ledger value that is not a count: the last fence cause of a hub port. -/
def State.ledgerSet (s : State) (kind i v : Nat) : State :=
  { s with lgr := { s.lgr with acc := { s.lgr.acc with counts := Tbl.set s.lgr.acc.counts (kind, i) v 0 } } }

/-- A notable event enters the accumulator's LOG (R505). -/
def State.note (s : State) (type arg0 arg1 : Nat) : State :=
  { s with lgr := { s.lgr with acc := { s.lgr.acc with
      log := s.lgr.acc.log ++ [{ hour := s.rd F.LGR_HOURS.POWERED_HOURS, type := type, arg0 := arg0, arg1 := arg1 }] } } }

/-- Time is added to a count of hours (R499, R500): `amount` of the units of which `hour` make an hour; what is short of
an hour stays beside the accumulator. -/
def State.ledgerTime (s : State) (kind i amount hour : Nat) : State :=
  let v := Tbl.get s.lgr.secs (kind, i) 0 + amount
  if v < hour then { s with lgr := { s.lgr with secs := Tbl.set s.lgr.secs (kind, i) v 0 } }
  else ({ s with lgr := { s.lgr with secs := Tbl.set s.lgr.secs (kind, i) (v % hour) 0 } }).ledger kind i (v / hour)

/-- Section kinds of R506. -/
def secTemp : Nat := 1
def secVolt : Nat := 2
def secSheet : Nat := 3
def secLink : Nat := 4
def secProof : Nat := 5
def secRefusal : Nat := 6
def secThrottle : Nat := 7
def secWear : Nat := 8
/-- LINK is kept as three tables: lane retrains and port retrains by number, port fences, last causes. -/
def idxLane (n : Nat) : Nat := n
def idxRetrain (n : Nat) : Nat := 192 + n
def idxFence (n : Nat) : Nat := 206 + n
def idxCause (n : Nat) : Nat := 220 + n

end Sys2Proof.Machine
end

