-- ==== Sys2Proof/Machine/Operands.lean ====
section
/-!
DEFINITION. What an address names: regions, plates, sheets and their controllers, lines and their home slices, and the
address forms of the commands' operands (R7, R215, R237, R325 to R333, R389).
-/

namespace Sys2Proof.Machine

/-- The regions of the physical map (R325), before asking what is populated. -/
inductive Region where
  | hbm (plate : Nat)
  | ddr (plate : Nat)
  | guest (site : Nat)
  | regs (off : Nat)
  | host
  | none
  deriving DecidableEq, Repr

/-- Region of a physical address (R325, R326). -/
def regionOf (pa : Nat) : Region :=
  if pa < 0x003000000000 then .hbm (pa / 2 ^ 30)
  else if 0x040000000000 ≤ pa && pa < 0x060000000000 then .ddr ((pa - 0x040000000000) / 2 ^ 30)
  else if 0x0C0000000000 ≤ pa && pa < 0x0D0000000000 then .guest 0
  else if 0x0D0000000000 ≤ pa && pa < 0x0E0000000000 then .guest 1
  else if 0x0F0000000000 ≤ pa && pa < 0x0F0004000000 then .regs (pa - 0x0F0000000000)
  else if 0x100000000000 ≤ pa && pa < 0x200000000000 then .host
  else .none

/-- Is the address in a populated HBM or DDR5 plate? -/
def State.populated (s : State) (pa : Nat) : Bool :=
  match regionOf pa with
  | .hbm p => p < s.hw.hbmPlates
  | .ddr q => q < s.ddrPlates
  | _ => false

/-- Does the address lie below its memory's watermark (R331)? -/
def State.securePlate (s : State) (pa : Nat) : Bool :=
  match regionOf pa with
  | .hbm p => p < s.rd F.MEM_WM.HBM_WM
  | .ddr q => q < s.rd F.MEM_WM.DDR_WM
  | _ => false

/-- Owning slice of the plate that holds the address (R420). -/
def State.plateOwner (s : State) (pa : Nat) : Nat :=
  match regionOf pa with
  | .hbm p => s.ownerH p
  | .ddr q => s.ownerD q
  | _ => 0

/-- The plate starts that a byte range touches. -/
def platesOf (pa len : Nat) : List Nat :=
  if len = 0 then [] else (List.range ((pa + len - 1) / 2 ^ 30 - pa / 2 ^ 30 + 1)).map (fun k => (pa / 2 ^ 30 + k) * 2 ^ 30)

/-- Does the range lie wholly in the host window? -/
def inHost (pa len : Nat) : Bool := 0x100000000000 ≤ pa && pa + len ≤ 0x200000000000

/-- Does the range lie wholly in plates that slice `sl` holds (R399)? -/
def State.inPlates (s : State) (sl pa len : Nat) : Bool :=
  len != 0 && (platesOf pa len).all (fun a => s.populated a && s.plateOwner a == sl)

/-- The ownership test of a command's range (R399, R426): the issuer's plates or the host window; the manager passes. -/
def State.rangeOk (s : State) (sl pa len : Nat) : Bool := sl == 0 || len == 0 || inHost pa len || s.inPlates sl pa len

/-- Sheet index of an address (R326), and line number. -/
def sheetOf (pa : Nat) : Nat := pa / 256
def lineOf (pa : Nat) : Nat := pa / 128

/-- Stack (logical on H4) and pseudo-channel of an HBM sheet, and its sheet within the pseudo-channel (R328). -/
def Variant.hbmPlace (v : Variant) (n : Nat) : Nat × Nat × Nat :=
  match v.sites with
  | .h4 => (bits n 0 2 ^^^ bits n 15 2, bits n 2 5 ^^^ bits n 17 5, n / 2 ^ 7)
  | _ => (bits n 0 3 ^^^ bits n 15 3, bits n 3 5 ^^^ bits n 18 5, n / 2 ^ 8)

/-- Controller of logical stack `k` (R328). -/
def Variant.stackCtl (v : Variant) (k : Nat) : Nat :=
  match v.sites with
  | .h4 => [1, 2, 5, 6].getD k 1
  | _ => k

/-- log2 of the channel count (R330). -/
def log2k (k : Nat) : Nat := if k = 8 then 3 else if k = 4 then 2 else 1

/-- DDR5 channel and channel sheet of a sheet index (R330). -/
def ddrPlace (k n : Nat) : Nat × Nat :=
  let m := n - 2 ^ 34
  let j := log2k k
  (bits m 0 j ^^^ bits m 15 j, m / 2 ^ j)

/-- Controller of a sheet (R328 to R330). -/
def State.controllerOf (s : State) (n : Nat) : Nat :=
  if n < 2 ^ 34 then s.hw.stackCtl (s.hw.hbmPlace n).1 else 8 + (ddrPlace s.ddrChannels n).1

/-- Controller sheet index of a sheet (R344). -/
def State.localSheet (s : State) (n : Nat) : Nat :=
  if n < 2 ^ 34 then (s.hw.hbmPlace n).2.2 * 32 + (s.hw.hbmPlace n).2.1 else (ddrPlace s.ddrChannels n).2

/-- Strength t in force for a sheet, by its plate (R337, R345). -/
def State.strengthOf (s : State) (n : Nat) : Nat :=
  let inPlate := n % 2 ^ 22
  match regionOf (256 * n) with
  | .hbm p =>
    if s.is F.MEM_PLATE_CFG_H.RECODE p && s.rd F.MEM_RECODE.POINTER 0 ≤ inPlate then s.rd F.MEM_PLATE_CFG_H.T_OLD p
    else s.rd F.MEM_PLATE_CFG_H.T p
  | .ddr q =>
    if s.is F.MEM_PLATE_CFG_D.RECODE q && s.rd F.MEM_RECODE.POINTER 1 ≤ inPlate then s.rd F.MEM_PLATE_CFG_D.T_OLD q
    else s.rd F.MEM_PLATE_CFG_D.T q
  | _ => 1

/-- Home slice of a line number (R237). -/
def homeSlice (line : Nat) : Nat :=
  (List.range 7).foldl (fun x k => x ^^^ bits line (5 * k) 5) (bits line 35 4)

/-- Set of a line within its home slice (R237): PA[24:12]. -/
def dirSet (line : Nat) : Nat := bits line 5 13

/-- Is memory controller `c` populated (R328, R329)? -/
def State.ctlPopulated (s : State) (c : Nat) : Bool := if c < 8 then s.hw.hbm c else c - 8 < s.ddrChannels && c < 16

/-- Bytes of a ring descriptor field. -/
def dget (d : List (BitVec 8)) (off n : Nat) : Nat := leAt d off n

end Sys2Proof.Machine
end

