-- ==== Sys2Proof/Machine/Access.lean ====
section
/-!
DEFINITION. Access to registers: which power and clock domain holds each, when its block answers, and which requesters
a write is taken from (R8, R12, R370, R384, R385, R478).
-/

namespace Sys2Proof.Machine

/-! ## Which power domain holds a register -/

/-- Power domain of instance `i` of register `r` (R479); 60 for the always-on blocks. -/
def regHome (r : Reg) (i : Nat) : Nat :=
  match r with
  | .CD_IDENT | .CDU_STATUS => uncoreDom i
  | .CORE_CTL | .CORE_RVBAR | .CORE_STATUS | .CORE_MTIMECMP | .CORE_MSIP | .CORE_SSIP_SET | .CORE_CLAIM_M
  | .CORE_CLAIM_S | .CORE_IRQ_CNT => clusterDom (i / 12)
  | .L2_CTL | .L2_STATUS | .L2_HITS | .L2_MISSES | .L2_CNT0 => clusterDom i
  | .DIR_SLICE_STATUS | .DIR_SLICE_CNT0 | .DIR_SLICE_CNT1 | .DIR_SLICE_CNT2 | .DIR_SLICE_CNT3 => 65 + i / 8
  | .DIR_STATUS | .DIR_CL_FENCED | .DIR_PROBE_ADDR | .DIR_PROBE_DATA => 61
  | .PRF_CFG | .PRF_STATUS | .PRF_CNT0 | .PRF_CNT1 | .PRF_CNT2 | .PRF_CNT3 | .PRF_CAUSE_CNT | .PRF_SLICE_GRP
  | .PRF_GRP_STATUS | .PRF_GRP_INFO => 69
  | .MEM_WM | .MEM_WM_CNT | .MEM_BURN_CFG | .MEM_RECODE | .MEM_DDR_CFG | .MEM_PLATE_CFG_H | .MEM_PLATE_CFG_D
  | .MEM_PLATE_CNT_H | .MEM_PLATE_CNT_D => 61
  | .MEM_CTL_STATUS | .MEM_CTL_CNT0 | .MEM_CTL_CNT1 | .MEM_CTL_LAST_UE | .MEM_BURN_PTR | .MEM_FLIPCTL
  | .MEM_FLIP_ADDR => ctlDom i
  | .MEM_FLIP => ctlDom (i / 16)
  | .HLN_GRP_CFG | .HLN_GRP_STATUS => 82 + i
  | .LANE_CFG | .LANE_CTL | .LANE_STATUS | .LANE_WM | .LANE_SC_CTL | .LANE_SC_STATUS | .LANE_CNT0 | .LANE_CNT1
  | .LANE_CNT2 | .LANE_CNT3 | .LANE_CNT4 | .LANE_HITS_IN | .LANE_HITS_OUT | .LANE_HITS_SUPP | .LANE_HITS_DROP
  | .LANE_SC_CNT | .LANE_TX_CNT => 82 + i / 24
  | .LANE_SC_TXBUF | .LANE_SC_RXBUF => 82 + i / 128 / 24
  | .BEAT_CFG | .BEAT_CTL | .BEAT_STATUS | .BEAT_COUNT | .BEAT_FINE | .BEAT_LOAD | .BEAT_MON | .BEAT_SKEW
  | .BEAT_CNT_A | .BEAT_SYNC_LAST | .BEAT_RQ_CFG | .BEAT_RQ_CNT | .BEAT_RQ_ACC | .BEAT_RQ_SLACK | .BEAT_OUT_CTL
  | .BEAT_CNT_B | .BEAT_CAL_LAST | .TIO_OUT_CTL | .TIO_STATUS | .TIO_BUSY_BEATS | .TIO_THR_BEATS | .TIO_TRIG_CNT
  | .TIO_IN_CFG | .TIO_IN_STATUS | .TIO_IN_CTL | .TIO_IN_CNT => 90
  | .CTX_CFG | .CTX_STATUS | .CTX_CNT0 | .CTX_CNT1 | .CTX_BANK_WAIT | .CTX_EPOCH | .CTX_EPOCH_BEAT | .CTX_BANK_OVL
  | .CTX_LANE_DROP | .TRG_CFG | .TRG_STATUS | .TRG_CNT0 | .TRG_CNT1 | .TRG_VETO0 | .TRG_VETO1 | .TRG_CMB_STATE
  | .TRG_LAST_ACC | .TRG_UNIT_STATUS | .TRG_UNIT_SWAP | .TRG_UNIT_MENU | .TRG_UNIT_EVAL | .TRG_BIT_CNT
  | .TRG_SK_LATE => 91
  | .EVB_CFG | .EVB_STATUS | .EVB_BP_CFG | .EVB_EVN_NEXT | .EVB_CNT0 | .EVB_CNT1 | .EVB_CNT2 | .EVB_HIST_CFG
  | .EVB_HIST_BASE | .EVB_HIST_WPTR | .EVB_HIST_HW | .EVB_ROUTE_CFG | .EVB_ROUTE_TMO | .EVB_ROUTE_LANES
  | .EVB_ROUTE_STATUS | .EVB_ROUTE_CNT | .EVB_ROUTE_EV | .EVB_POOL_BASE | .EVB_POOL_CFG | .EVB_POOL_STATUS
  | .EVB_EVQ_BASE | .EVB_EVQ_CFG | .EVB_EVQ_IDX => 92
  | .STP_CFG | .STP_STATUS | .STP_CNT0 | .STP_CNT1 | .STP_CNT2 | .STP_ENG_STATUS | .STP_ENG_IN | .STP_SLICE_SHARE => 93
  | .ETH_PORT_CFG | .ETH_PORT_STATUS | .ETH_PORT_FRAMES | .ETH_PORT_BYTES | .ETH_PORT_CNT => 94 + i / 2
  | .ETH_Q_CFG => 94 + i / 128
  | .ETH_Q_FLOW => 94 + i / 896
  | .ETH_SLICE_MAC | .ETH_SLICE_IP4 | .ETH_SLICE_IP6 => 94
  | .STN_CFG | .STN_STATUS | .STN_RATE | .STN_TRIG_MASK | .STN_CNT0 | .STN_CNT1 => 98 + i
  | .STN_WIN | .STN_WIN_LIMIT => 98 + i / 8
  | .HIF_PORT_CFG | .HIF_BAR4_SEL | .HIF_PORT_STATUS | .HIF_PORT_CNT0 | .HIF_PORT_CNT1 | .HIF_PORT_CNT2 => 96 + i
  | .MSIX_ADDR | .MSIX_CTL => 96 + i / 2048
  | .MSIX_PBA => 96 + i / 32
  | .HIF_DB_CFG | .HIF_RING_STATUS | .HIF_RING_CNT0 | .HIF_RING_CNT1 | .HIF_RING_HALTED | .HIF_RING_CFG
  | .HIF_RING_SQ | .HIF_RING_CQ | .HIF_RING_IRQ | .HIF_RING_IDX | .HIF_RING_ST | .HIF_EVQ_DB | .HIF_SLICE_CFG
  | .HIF_SLICE_USE | .HIF_SLICE_STATUS | .HIF_SLICE_CNT | .HIF_SLICE_SUMMARY | .HIF_SPOOF_LOG | .HIF_CORE_SLICE
  | .HIF_PLATE_OWNER_H | .HIF_PLATE_OWNER_D | .HIF_MSIX_OWNER | .HIF_SLICE_CHAN => 96
  | .ALN_CFG | .ALN_SUMMARY | .ALN_FEAT | .ALN_PORT_CTL | .ALN_PORT_STATUS | .ALN_PORT_TRAINED | .ALN_PORT_FENCE
  | .ALN_PORT_CAP | .ALN_PORT_REPAIR_P | .ALN_PORT_REPAIR_Q | .ALN_PORT_CNT | .ALN_PORT_SIG | .SEC_FUSE
  | .SEC_FUSE_SERIAL | .SEC_BOOT_STATUS | .SEC_STATUS | .SEC_FUSE_VKEY | .SEC_FUSE_OKEY | .SEC_FUSE_DIE | .DBG_EN
  | .DBG_AUTH_CTL | .DBG_CHAIN | .DBG_STATUS | .DBG_CNT | .DBG_AUTH_NONCE | .DBG_AUTH_PUB | .DBG_AUTH_SIG
  | .DBG_ACC_CTL | .DBG_ACC_ADDR | .DBG_ACC_DATA | .GLB_ID | .GLB_PROFILE | .GLB_PROFILE_ID | .CKR_STATUS | .CKR_MON
  | .CKR_MON_LIM | .CKR_TIME | .CKR_FTIME | .CKR_RESET | .CKR_RESET_CTL | .CKR_DOM | .PWR_STATUS | .PWR_DOM_CTL
  | .PWR_DOM_STATUS | .PWR_REFTAB | .LGR_CFG | .LGR_STATUS | .LGR_HOURS | .LGR_WEAR | .LGR_PLAN | .EVC_NMI | .EVC_PEND
  | .EVC_SRC_CFG | .EVC_SRC_CNT => 60

/-- Clock domain, if gateable, that drives a register's block (R471, R478). -/
def regClock (r : Reg) (i : Nat) : Nat :=
  let d := regHome r i
  if 82 ≤ d && d ≤ 89 then 66
  else if d = 90 then 67
  else if d = 91 then (match r with
    | .CTX_CFG | .CTX_STATUS | .CTX_CNT0 | .CTX_CNT1 | .CTX_BANK_WAIT | .CTX_EPOCH | .CTX_EPOCH_BEAT | .CTX_BANK_OVL
    | .CTX_LANE_DROP => 66
    | _ => 68)
  else if d = 92 then 69
  else if d = 93 then 70
  else if d = 94 || d = 95 then 71
  else if d = 97 then 73
  else if d = 98 then 76
  else if d = 99 then 77
  else match r with
    | .DBG_EN | .DBG_AUTH_CTL | .DBG_CHAIN | .DBG_STATUS | .DBG_CNT | .DBG_AUTH_NONCE | .DBG_AUTH_PUB | .DBG_AUTH_SIG
    | .DBG_ACC_CTL | .DBG_ACC_ADDR | .DBG_ACC_DATA => 74
    | _ => 60

/-- A register as one 64-bit word of its fields. -/
def State.regWord (s : State) (r : Reg) (i : Nat) : Nat :=
  match regTable.find? (fun x => x.reg == r) with
  | none => 0
  | some x => x.fields.foldl (fun v f => v + s.rd f i <<< f.lo) 0

/-! ## Taking a write -/

/-- Does the block of register `r`, instance `i`, answer: its domain ON, its clock running, and, in a compute die's
window, the site populated and not fenced (R12, R478)? -/
def State.regLive (s : State) (r : Reg) (i : Nat) : Bool :=
  let d := regHome r i
  !s.held && s.live d (regClock r i) && (60 ≤ d || (s.hw.site (d / 5) && !s.fbit F.ALN_SUMMARY.FENCED 0 (d / 5)))

/-- Does port `p` serve BAR accesses: link up, FW_READY, no FLR, D0, and Memory Space Enable set (R384, R385)? -/
def State.barOpen (s : State) (p : Nat) : Bool :=
  s.is F.HIF_PORT_STATUS.LINK_UP p && s.is F.HIF_PORT_STATUS.FW_READY p && !(s.port p).flr &&
    s.rd F.HIF_PORT_STATUS.DSTATE p == 0 && (Tbl.get (s.port p).cfg 0x04 0).testBit 1

/-- Is the register one that host writes through port 1 may reach (R370)? -/
def port1Own (r : Reg) (i : Nat) : Bool :=
  match r with
  | .HIF_PORT_CFG | .HIF_BAR4_SEL | .HIF_PORT_STATUS | .HIF_PORT_CNT0 | .HIF_PORT_CNT1 | .HIF_PORT_CNT2 => i == 1
  | .MSIX_ADDR | .MSIX_CTL => i / 2048 == 1
  | .MSIX_PBA => i / 32 == 1
  | _ => false

/-- A write to register `r`, instance `i`, reaches its block and does `f`: a host write needs its port's BARs open, one
through port 1 reaches only port 1's own registers and is otherwise dropped and counted, and a block that is gated,
not ON or behind a fence drops it. -/
def State.withReg (s : State) (src : Src) (r : Reg) (i : Nat) (f : State → State) : State :=
  let go (s : State) : State := if s.regLive r i then f s else s
  match src with
  | .host p =>
    if !s.barOpen p then s
    else if p = 1 && !port1Own r i then s.inc F.HIF_PORT_CNT1.DROPPED_WR 1
    else go s
  | _ => go s

/-- A read of register `r`, instance `i`, reaches its block and does `f`; port 1 reads every register (R370). -/
def State.withRead (s : State) (src : Src) (r : Reg) (i : Nat) (f : State → State) : State :=
  let open' : Bool := match src with
    | .host p => s.barOpen p
    | _ => true
  if open' && s.regLive r i then f s else s

end Sys2Proof.Machine
end

