-- ==== Sys2Proof/Machine/PowerReq.lean ====
section
/-!
DEFINITION. Requests to the power controller's arbiter and wakes (R480 to R482, R484).
-/

namespace Sys2Proof.Machine

/-- Does the transition take a domain from OFF to ON? -/
def State.fromOff (s : State) (t : PwrTrans) : Bool := t.target == 0 && t.doms.any (fun d => s.rd F.PWR_DOM_STATUS.STATE d == 2)

/-- PWR_STATUS follows the transitions running and the OFF → ON requests waiting. -/
def State.pwrStatus (s : State) : State :=
  (s.wr F.PWR_STATUS.TRANSITIONS 0 (s.pwr.running.flatMap (·.doms)).length).wr F.PWR_STATUS.QUEUED 0
    ((s.pwr.queue.filter s.fromOff).flatMap (·.doms)).length

/-- An accepted transition joins the arbiter's requests, unless the domain is already in that state. -/
def State.enqueue (s : State) (doms : List Nat) (target wake : Nat) : State :=
  let doms := doms.filter (fun d => s.rd F.PWR_DOM_STATUS.STATE d != target)
  if doms.isEmpty then s else
  let drop := s.pwr.queue.filter (fun t => !t.doms.any doms.contains)
  ({ s with pwr := { s.pwr with queue := drop ++ [PwrTrans.mk doms target wake] } }).pwrStatus

/-- A wake is recorded (R484). -/
def State.recordWake (s : State) (d code : Nat) : State :=
  (s.wr F.PWR_DOM_STATUS.LAST_WAKE d code).inc F.PWR_DOM_STATUS.WAKES d

/-- Is domain `d` in transition? -/
def State.inTransition (s : State) (d : Nat) : Bool := s.pwr.running.any (fun t => t.doms.contains d)

/-- A wake source asks a domain in RET or OFF to turn ON (R481, R484): OFF heeds only SOFTWARE, DEBUG and BOOT; a wake
during an entry waits for it to complete. -/
def State.wake (s : State) (d code : Nat) : State :=
  let st := s.rd F.PWR_DOM_STATUS.STATE d
  let deep := code == 1 || code == 4 || code == 7
  match s.pwr.running.find? (fun t => t.doms.contains d) with
  | some t =>
    if t.target ≠ 0 && (t.target == 1 || deep) && (Tbl.find s.pwr.exits d).isNone then
      ({ s with pwr := { s.pwr with exits := Tbl.put s.pwr.exits d code } }).recordWake d code
    else s
  | none =>
    if st = 0 || (st = 2 && !deep) || s.pwr.queue.any (fun t => t.doms.contains d && t.target == 0) then s
    else (s.recordWake d code).enqueue [d] 0 code

end Sys2Proof.Machine
end

