-- ==== Sys2Proof/Machine/SheetCode.lean ====
section
/-!
DEFINITION. The sheet code: arithmetic of GF(2^10), the Reed-Solomon encoder and bounded-distance decoder, and the tag
field (R334 to R338).
-/

namespace Sys2Proof.Machine

/-! ## GF(2^10), polynomial x^10 + x^3 + 1, α = x (R334) -/

/-- Product of two field elements. -/
def gfMul (a b : Nat) : Nat :=
  let p := (List.range 10).foldl (fun acc i => if b.testBit i then acc ^^^ (a <<< i) else acc) 0
  (List.range 10).foldl (fun v i => if v.testBit (19 - i) then v ^^^ (0x409 <<< (9 - i)) else v) p

/-- Power of a field element, exponent below 1,024. -/
def gfPow (a n : Nat) : Nat :=
  (List.range 10).foldl (fun v i =>
    let v := gfMul v v
    if n.testBit (9 - i) then gfMul v a else v) 1

/-- Inverse of a non-zero field element. -/
def gfInv (a : Nat) : Nat := gfPow a 1022

/-- α to the power `n`. -/
def gfExp (n : Nat) : Nat := gfPow 2 (n % 1023)

/-! ## Encoding (R334, R335) -/

/-- Coefficients of g(x), highest power first. -/
def rsGen (t : Nat) : List Nat :=
  (List.range (2 * t)).foldl (fun g i =>
    List.zipWith (fun a b => a ^^^ gfMul (gfExp (i + 1)) b) (g ++ [0]) (0 :: g)) [1]

/-- Check symbols 0 to 2t - 1 of a message of 207 symbols. -/
def rsChecks (t : Nat) (msg : List Nat) : List Nat :=
  let g := (rsGen t).tail
  msg.foldl (fun r m =>
    match r with
    | [] => []
    | h :: r => List.zipWith (fun a b => a ^^^ gfMul (h ^^^ m) b) (r ++ [0]) g) (List.replicate (2 * t) 0)

/-- The 207 message symbols of 256 data bytes, as a number, and a tag field (R334, R335). -/
def sheetMsg (data tag : Nat) : List Nat :=
  (List.range 205).map (fun s => bits data (10 * s) 10) ++ [bits tag 0 10, bits tag 10 6]

/-- The codeword of a sheet. -/
def sheetWord (t data tag : Nat) : List Nat := sheetMsg data tag ++ rsChecks t (sheetMsg data tag)

/-- The ECC bytes of a sheet as a number: the tag field, then the check symbols (R335). -/
def eccBits (t data tag : Nat) : Nat :=
  ((rsChecks t (sheetMsg data tag)).foldr (fun c acc => acc <<< 10 + c) 0) <<< 16 + tag % 2 ^ 16

/-! ## Decoding (R334, R338) -/

/-- Error pattern as distinct positions with non-zero masks. -/
def errPattern (errs : List (Nat × Nat)) : List (Nat × Nat) :=
  (errs.foldl (fun (a : Tbl Nat Nat) e => Tbl.set a e.1 (Tbl.get a e.1 0 ^^^ e.2) 0) [])

/-- Locator of symbol position `p` at strength `t`: α to its power in the codeword polynomial. -/
def locator (t p : Nat) : Nat := gfExp (206 + 2 * t - p)

/-- Syndromes of an error pattern. -/
def syndromes (t : Nat) (errs : List (Nat × Nat)) : List Nat :=
  (List.range (2 * t)).map (fun i =>
    errs.foldl (fun v e => v ^^^ gfMul e.2 (gfPow (locator t e.1) (i + 1))) 0)

/-- Value of a polynomial, lowest coefficient first. -/
def polyAt (p : List Nat) (x : Nat) : Nat := p.foldr (fun c v => c ^^^ gfMul v x) 0

/-- Sum of two polynomials. -/
def polyAdd : List Nat → List Nat → List Nat
  | [], b => b
  | a, [] => a
  | x :: a, y :: b => (x ^^^ y) :: polyAdd a b

/-- State of the Berlekamp-Massey iteration. -/
structure BmState where
  c : List Nat
  b : List Nat
  l : Nat
  m : Nat
  d : Nat
  deriving DecidableEq, Repr

/-- One step of the iteration at syndrome index `n`. -/
def bmStep (syn : List Nat) (s : BmState) (n : Nat) : BmState :=
  let d := (List.range (s.l + 1)).foldl (fun v i => v ^^^ gfMul (s.c.getD i 0) (syn.getD (n - i) 0)) 0
  if d = 0 then { s with m := s.m + 1 } else
  let c := polyAdd s.c (List.replicate s.m 0 ++ s.b.map (gfMul (gfMul d (gfInv s.d))))
  if 2 * s.l ≤ n then { c := c, b := s.c, l := n + 1 - s.l, m := 1, d := d } else { s with c := c, m := s.m + 1 }

/-- Product of two polynomials cut at `n` coefficients. -/
def polyMulTrunc (n : Nat) (a b : List Nat) : List Nat :=
  (List.range n).map (fun k => (List.range (k + 1)).foldl (fun v i => v ^^^ gfMul (a.getD i 0) (b.getD (k - i) 0)) 0)

/-- The correction the decoder applies to an error pattern at strength `t`: positions and masks of the one codeword
within `t` symbols, or none where more than `t` symbol errors are detected. -/
def rsCorrect (t : Nat) (errs : List (Nat × Nat)) : Option (List (Nat × Nat)) :=
  if errs.length ≤ t then some errs else
  let syn := syndromes t errs
  let s := (List.range (2 * t)).foldl (bmStep syn) { c := [1], b := [1], l := 0, m := 1, d := 1 }
  let roots := (List.range (207 + 2 * t)).filter (fun p => polyAt s.c (gfInv (locator t p)) == 0)
  if s.l ≤ t && roots.length == s.l then
    let omega := polyMulTrunc (2 * t) syn s.c
    let deriv := (List.range s.l).map (fun i => if i % 2 = 0 then s.c.getD (i + 1) 0 else 0)
    some (roots.map (fun p =>
      let x := gfInv (locator t p)
      (p, gfMul (polyAt omega x) (gfInv (polyAt deriv x)))))
  else none

/-! ## Tag field (R336) -/

/-- Address CRC of sheet `n`. -/
def addrCrc (n : Nat) : Nat := crc16 (natLE 5 (n % 2 ^ 38))

/-- Poison marker of a sheet. -/
def marker (lower upper : Bool) : Nat := (if lower then 0x00FF else 0) + (if upper then 0xFF00 else 0)

/-- A tag's lines poisoned, or none where tag XOR address CRC is no marker. -/
def markerLines (m : Nat) : Option (Bool × Bool) :=
  if m = 0 then some (false, false) else if m = 0x00FF then some (true, false) else if m = 0xFF00 then some (false, true)
  else if m = 0xFFFF then some (true, true) else none

/-- The XOR an error pattern leaves in the 2,048 data bits. -/
def dataXor (errs : List (Nat × Nat)) : Nat :=
  (errs.foldl (fun v e => if e.1 < 205 then v ^^^ (e.2 <<< (10 * e.1)) else v) 0) % 2 ^ 2048

/-- The XOR an error pattern leaves in the tag field. -/
def tagErr (errs : List (Nat × Nat)) : Nat :=
  (errs.foldl (fun v e => if e.1 = 205 then v ^^^ e.2 else if e.1 = 206 then v ^^^ (e.2 <<< 10) else v) 0) % 2 ^ 16

end Sys2Proof.Machine
end

