-- ==== Sys2Proof/Machine/MemOps.lean ====
section
/-!
DEFINITION. The named operations over memory: bytes in canonical form, sheets with their code state, the controllers'
reads, writes and corrections, and the refusals of the hub fabric (R325 to R342, R346).
-/

namespace Sys2Proof.Machine

/-! ## Bytes in canonical form -/

/-- An unlisted byte reads zero: what the initialisation walk leaves (R348). -/
def cellRead : List Host.Cell → Nat → BitVec 8
  | [], _ => 0
  | (a, b) :: m, k => if a = k then b else cellRead m k

/-- A byte is written; a zero byte leaves no entry. -/
def cellWrite : List Host.Cell → Nat → BitVec 8 → List Host.Cell
  | [], k, v => if v = 0 then [] else [(k, v)]
  | (a, b) :: m, k, v =>
    if k < a then (if v = 0 then (a, b) :: m else (k, v) :: (a, b) :: m)
    else if k = a then (if v = 0 then m else (k, v) :: m)
    else (a, b) :: cellWrite m k v

/-- The canonical form: addresses strictly rising above `lo`, no zero byte. -/
def cellsWf : Nat → List Host.Cell → Bool
  | _, [] => true
  | lo, (a, b) :: m => decide (lo ≤ a) && decide (b ≠ 0) && cellsWf (a + 1) m

/-- Memory in its canonical form. -/
def MemState.wf (m : MemState) : Bool := cellsWf 0 m.cells

/-- Byte of memory at an address, as stored. -/
def State.memByte (s : State) (pa : Nat) : BitVec 8 := cellRead s.mem.cells pa

def State.memSet (s : State) (pa : Nat) (v : BitVec 8) : State :=
  { s with mem := { s.mem with cells := cellWrite s.mem.cells pa v } }

/-- Bytes stored from an address, as a little-endian number. -/
def State.memNat (s : State) (pa n : Nat) : Nat := leNat ((List.range n).map (fun k => s.memByte (pa + k)))

/-- `n` bytes of a number are stored from an address. -/
def State.memPut (s : State) (pa : Nat) (n v : Nat) : State :=
  (List.range n).foldl (fun s k => s.memSet (pa + k) (BitVec.ofNat 8 (v >>> (8 * k)))) s

/-- Every stored byte of the range becomes zero. -/
def State.memZero (s : State) (pa n : Nat) : State :=
  { s with mem := { s.mem with
    cells := s.mem.cells.filter (fun c => c.1 < pa || pa + n ≤ c.1)
    code := s.mem.code.filter (fun c => 256 * c.1 + 256 ≤ pa || pa + n ≤ 256 * c.1) } }

/-! ## Code state of a sheet -/

def SheetCode.clean : SheetCode := { lower := false, upper := false, errs := [], tagXor := 0 }

def State.codeOf (s : State) (n : Nat) : SheetCode := Tbl.get s.mem.code n SheetCode.clean
def State.setCode (s : State) (n : Nat) (c : SheetCode) : State :=
  { s with mem := { s.mem with code := Tbl.set s.mem.code n c SheetCode.clean } }

/-- The tag field a sheet holds (R336). -/
def SheetCode.tag (c : SheetCode) (n : Nat) : Nat := addrCrc n ^^^ marker c.lower c.upper ^^^ c.tagXor

/-- Outcomes of a read (R338). -/
inductive Decoded where
  | clean | corrected | addr | ue
  deriving DecidableEq, Repr

/-- A decoded sheet: outcome, the 256 data bytes as a number, and the lines returned with POISON = 1. -/
structure Sheet where
  out : Decoded
  data : Nat
  lower : Bool
  upper : Bool
  deriving DecidableEq, Repr

/-- R338: decode a sheet of stored data `d` and code state `c` at strength `t`.  A correction within `t` symbols may
restore the sheet or move it to another codeword; a tag that is no marker of the sheet's address is ADDR. -/
def decodeSheet (t n d : Nat) (c : SheetCode) : Sheet :=
  let errs := (errPattern c.errs).filter (fun e => e.1 < 207 + 2 * t)
  match rsCorrect t errs with
  | none => { out := .ue, data := d ^^^ dataXor errs, lower := true, upper := true }
  | some fix =>
    let left := errPattern (errs ++ fix)
    let m := marker c.lower c.upper ^^^ c.tagXor ^^^ tagErr left
    let d := d ^^^ dataXor left
    match markerLines m with
    | none => { out := .addr, data := d, lower := true, upper := true }
    | some (lo, up) => { out := if fix.isEmpty then .clean else .corrected, data := d, lower := lo, upper := up }

/-- Does the syndrome of a sheet's code state vanish (R339)? -/
def SheetCode.quiet (c : SheetCode) (t : Nat) : Bool :=
  (syndromes t ((errPattern c.errs).filter (fun e => e.1 < 207 + 2 * t))).all (· == 0)

/-! ## Counting an outcome (R338, R343) -/

def State.ctlEvent (s : State) (c : Nat) (f : Field) : State := s.raise f c

/-- Plate number of a sheet in the ledger's SHEET section (R506). -/
def ledgerPlate (n : Nat) : Nat :=
  match regionOf (256 * n) with
  | .hbm p => p
  | .ddr q => 192 + q
  | _ => 0

/-- A plate counts a corrected or an uncorrectable outcome, in its register and in the ledger. -/
def State.plateCount (s : State) (n : Nat) (ue : Bool) : State :=
  let s := match regionOf (256 * n) with
    | .hbm p => s.inc (if ue then F.MEM_PLATE_CNT_H.UE else F.MEM_PLATE_CNT_H.CE) p
    | .ddr q => s.inc (if ue then F.MEM_PLATE_CNT_D.UE else F.MEM_PLATE_CNT_D.CE) q
    | _ => s
  s.ledger secSheet (2 * ledgerPlate n + b2n ue)

/-- The counts and events of an outcome on sheet `n`; a UE or ADDR on a secure plate is non-maskable. -/
def State.countOutcome (s : State) (n : Nat) (o : Decoded) : State :=
  let c := s.controllerOf n
  match o with
  | .clean => s
  | .corrected => ((s.plateCount n false).inc F.MEM_CTL_CNT0.CE c).raise F.MEM_CTL_STATUS.EVT_CE c
  | .ue =>
    let s := ((s.plateCount n true).inc F.MEM_CTL_CNT0.UE c).wr F.MEM_CTL_LAST_UE.SHEET c n
    s.raiseNm F.MEM_CTL_STATUS.EVT_UE c (s.securePlate (256 * n))
  | .addr =>
    let s := ((s.plateCount n true).inc F.MEM_CTL_CNT0.ADDR_ERR c).wr F.MEM_CTL_LAST_UE.SHEET c n
    s.raiseNm F.MEM_CTL_STATUS.EVT_UE c (s.securePlate (256 * n))

/-! ## Walks and the pending-correction table -/

/-- Is the sheet's controller still running its initialisation walk (R348)? -/
def State.walking (s : State) (n : Nat) : Bool := s.mem.initWalk.contains (s.controllerOf n)

/-- Pending-correction entries of controller `c`. -/
def State.corrOf (s : State) (c : Nat) : List PendCorr := Tbl.get s.mem.corr c []
def State.setCorr (s : State) (c : Nat) (l : List PendCorr) : State :=
  ({ s with mem := { s.mem with corr := Tbl.set s.mem.corr c l [] } }).wr F.MEM_CTL_STATUS.PEND c l.length

/-- The sheet is rewritten with a fresh code: its data, its markers, no error. -/
def State.putSheet (s : State) (n d : Nat) (lower upper : Bool) : State :=
  (s.memPut (256 * n) 256 d).setCode n { lower := lower, upper := upper, errs := [], tagXor := 0 }

/-! ## Reads by the hub decoder (R338, R339) -/

/-- The hub reads and decodes a sheet: a sheet the walk has not passed reads zero; a corrected sheet is written back
with its markers, a UE or ADDR sheet stays as it is. -/
def State.hubRead (s : State) (n : Nat) : Sheet × State :=
  if s.walking n then ({ out := .clean, data := 0, lower := false, upper := false }, s) else
  let sh := decodeSheet (s.strengthOf n) n (s.memNat (256 * n) 256) (s.codeOf n)
  let s := s.countOutcome n sh.out
  (sh, if sh.out = .corrected then s.putSheet n sh.data sh.lower sh.upper else s)

/-- The 128 bytes of one line of a sheet. -/
def Sheet.line (sh : Sheet) (upper : Bool) : List (BitVec 8) := natLE 128 (bits sh.data (if upper then 1024 else 0) 1024)
def Sheet.bad (sh : Sheet) (upper : Bool) : Bool := if upper then sh.upper else sh.lower

/-! ## Writes (R341, R346) -/

/-- Are bytes `lo` to `lo + k - 1` all written? -/
def covers (b : Tbl Nat (BitVec 8)) (lo k : Nat) : Bool := (List.range k).all (fun i => (Tbl.find b (lo + i)).isSome)

/-- Data with the written bytes merged in. -/
def mergeBytes (d : Nat) (b : Tbl Nat (BitVec 8)) : Nat :=
  leNat ((List.range 256).map (fun i => match Tbl.find b i with
    | some v => v
    | none => BitVec.ofNat 8 (d >>> (8 * i))))

/-- The flip entries of controller `c` that act at strength `t` (R346). -/
def State.flipErrs (s : State) (c t : Nat) : List (Nat × Nat) :=
  ((List.range 16).map (fun k => (s.rd F.MEM_FLIP.POS (16 * c + k), s.rd F.MEM_FLIP.MASK (16 * c + k)))).filter
    (fun e => e.2 ≠ 0 && e.1 ≤ 206 + 2 * t)

/-- An armed flip corrupts the sheet just written, when eligible (R346). -/
def State.applyFlip (s : State) (n : Nat) : State :=
  let c := s.controllerOf n
  if s.is F.MEM_FLIPCTL.ARM c && (!s.is F.MEM_FLIPCTL.MATCH c || s.rd F.MEM_FLIP_ADDR.SHEET c == n) then
    let k := s.codeOf n
    let s := s.setCode n { k with
      errs := errPattern (s.flipErrs c (s.strengthOf n)), tagXor := b2n (s.is F.MEM_FLIPCTL.ADDR_FLIP c) }
    (s.wr F.MEM_FLIPCTL.ARM c 0).raise F.MEM_CTL_STATUS.EVT_MISC c
  else s

/-- An entry for the sheet is pending when a write to it arrives: the held copy is corrected and merged, and the die's
later write-back is dropped (R340). -/
def State.dropCorr (s : State) (n : Nat) : State :=
  let c := s.controllerOf n
  let hit := (s.corrOf c).filter (fun e => e.sheet == n)
  if hit.isEmpty then s else
  (s.setCorr c ((s.corrOf c).filter (fun e => e.sheet ≠ n))).inc F.MEM_CTL_CNT1.WB_DROPPED c hit.length

/-- A controller writes bytes of a sheet (R341): a whole sheet without a read, else read-modify-write with the markers
kept per line. -/
def State.sheetWrite (s : State) (n : Nat) (b : Tbl Nat (BitVec 8)) (poison : Bool) : State :=
  let held := !((s.corrOf (s.controllerOf n)).filter (fun e => e.sheet == n)).isEmpty
  let full := covers b 0 256
  let (sh, s) := if full && !held then ({ out := .clean, data := 0, lower := false, upper := false }, s) else s.hubRead n
  let s := s.dropCorr n
  let lost := sh.out = .ue || sh.out = .addr
  let mark (lo : Nat) (old : Bool) : Bool := if covers b lo 128 then poison else old || lost
  (s.putSheet n (mergeBytes sh.data b) (mark 0 sh.lower) (mark 128 sh.upper)).applyFlip n

/-! ## Requests queued at the controllers (R327) -/

def State.memPost (s : State) (q : MemReq) : State := { s with mem := { s.mem with queue := s.mem.queue ++ [q] } }

/-- A line read is posted. -/
def State.postRead (s : State) (line : Nat) (dst : MemDst) : State :=
  s.memPost { sheet := line / 2, write := false, upper := line % 2 == 1, dst := dst, bytes := [], poison := false }

/-- Bytes of a line by offset in the line, as offsets in its sheet. -/
def lineBytes (line : Nat) (b : Tbl Nat (BitVec 8)) : Tbl Nat (BitVec 8) := b.map (fun e => (e.1 + 128 * (line % 2), e.2))

/-- A whole line as bytes by offset. -/
def wholeLine (d : List (BitVec 8)) : Tbl Nat (BitVec 8) := (List.range 128).map (fun i => (i, d.getD i 0))

/-- A write of bytes of a line is posted. -/
def State.postWrite (s : State) (line : Nat) (b : Tbl Nat (BitVec 8)) (poison : Bool) : State :=
  s.memPost { sheet := line / 2, write := true, upper := line % 2 == 1, dst := .none, bytes := lineBytes line b,
              poison := poison }

/-! ## The hub fabric's refusals (R333) -/

/-- Why the fabric refused an access (R333). -/
inductive Denial where
  | none
  | world
  | unmapped
  /-- not a refusal: the access must wait for a transaction, a walk or a waking cluster, and is made again -/
  | busy
  deriving DecidableEq, Repr

/-- The fabric's answer to a request for memory at `pa`, secure or not. -/
def State.fabricCheck (s : State) (secure : Bool) (pa : Nat) : Denial :=
  if !s.populated pa then .unmapped else if !secure && s.securePlate pa then .world else .none

/-- A refusal is counted (R333). -/
def State.countDenial (s : State) (d : Denial) (pa : Nat) : State :=
  match d with
  | .world =>
    let c := s.controllerOf (sheetOf pa)
    ((s.inc F.MEM_WM_CNT.DENIED).raise F.MEM_CTL_STATUS.EVT_DENIED c).raise F.MEM_CTL_STATUS.EVT_MISC c
  | .unmapped => s.inc F.MEM_WM_CNT.UNMAPPED
  | _ => s

end Sys2Proof.Machine
end

