-- ==== Sys2Proof/Machine/HartOps.lean ====
section
/-!
DEFINITION. The shared operations of a Graver hart: registers and CSRs, worlds and predictors, pending interrupts,
performance counters, traps and returns, physical memory protection and address translation (R203 to R226).
-/

namespace Sys2Proof.Machine

/-! ## Privilege and world -/

def State.priv (s : State) (c : Nat) : Nat := s.rd F.CORE_STATUS.PRIV c
def State.ns (s : State) (c : Nat) : Bool := s.is F.CORE_STATUS.NS c

/-- State code of R212; 0 (OFF) while the cluster domain is OFF. -/
def State.coreState (s : State) (c : Nat) : Nat :=
  if s.rd F.PWR_DOM_STATUS.STATE (clusterDom (clusterOf c)) = 2 then 0 else s.rd F.CORE_STATUS.STATE c

/-- Does the core execute instructions: RUNNING, its cluster ON, its site populated and the device out of cold reset? -/
def State.coreRuns (s : State) (c : Nat) : Bool :=
  c < 576 && !s.held && s.hw.site (siteOf c) && s.clusterLive (clusterOf c) && s.rd F.CORE_STATUS.STATE c == 3

/-! ## Integer, floating-point and vector registers -/

/-- x0 discards writes. -/
def Hart.setX (h : Hart) (r v : Nat) : Hart :=
  if r % 32 = 0 then h else { h with x := Tbl.set h.x (r % 32) (BitVec.ofNat 64 v) 0 }

/-- Element `i` of `k` bytes of vector register `r`. -/
def Hart.setVElem (h : Hart) (r i k v : Nat) : Hart :=
  let old := (Tbl.get h.v (r % 32) 0).toNat
  let mask := (2 ^ (8 * k) - 1) <<< (8 * k * i)
  { h with v := Tbl.set h.v (r % 32) (BitVec.ofNat 512 ((old ||| mask) ^^^ mask ||| ((v % 2 ^ (8 * k)) <<< (8 * k * i)))) 0 }

/-! ## CSRs (R204, R213, R225) -/

/-- Value of a CSR in HELD (R213). -/
def csrReset (n : Nat) : Nat :=
  match n with
  | 0x300 => 0xA00001800
  | 0x303 => 0x2222
  | 0x14D => 2 ^ 64 - 1
  | 0xC21 => 2 ^ 63
  | 0x7C1 => 1
  | _ => 0

/-- A CSR as the hart stores it. -/
def Hart.csrv (h : Hart) (n : Nat) : Nat := Tbl.get h.csr n (csrReset n)
def Hart.setCsr (h : Hart) (n v : Nat) : Hart := { h with csr := Tbl.set h.csr n (v % 2 ^ 64) (csrReset n) }
def State.csr (s : State) (c n : Nat) : Nat := (s.hart c).csrv n
def State.setCsr (s : State) (c n v : Nat) : State := s.setHart c ((s.hart c).setCsr n v)

/-- Bits of mip (R220): MSIP from CORE_MSIP, MEIP and SEIP from the claim FIFOs, the rest as last set. -/
def State.mip (s : State) (c : Nat) : Nat :=
  let h := s.hart c
  let v := h.csrv 0x344
  let v := if s.is F.CORE_MSIP.MSIP c then setBit v 3 else v
  let v := if h.claimM.isEmpty then v else setBit v 11
  if h.claimS.isEmpty then v else setBit v 9

/-- A bit of the stored mip changes. -/
def State.mipBit (s : State) (c k : Nat) (b : Bool) : State :=
  let v := s.csr c 0x344
  s.setCsr c 0x344 (if b then setBit v k else clrBit v k)

/-- The timer bits follow the compare registers (R220). -/
def State.timerBits (s : State) (c : Nat) : State :=
  let now := s.rd F.CKR_TIME.TIME
  let s := s.mipBit c 7 (s.rd F.CORE_MTIMECMP.CMP c ≤ now)
  s.mipBit c 5 ((s.csr c 0x30A).testBit 63 && s.csr c 0x14D ≤ now)

/-! ## Performance counters (R226) -/

/-- May counter `k` of the hart count now? -/
def State.perfOn (s : State) (c k : Nat) : Bool :=
  let e := s.csr c (0x320 + k)
  !(s.csr c 0x320).testBit k && !(s.priv c == 3 && e.testBit 62) && !(s.priv c == 1 && e.testBit 61) &&
    !(s.priv c == 0 && e.testBit 60) && (s.ns c || e.testBit 57)

/-- A counter passes its top (R226): OF is set, and LCOFI becomes pending. -/
def State.perfWrap (s : State) (c k : Nat) : State :=
  let e := s.csr c (0x320 + k)
  if e.testBit 63 then s else (s.setCsr c (0x320 + k) (setBit e 63)).mipBit c 13 true

/-- Event `code` happens `n` times on a hart. -/
def State.perf (s : State) (c code : Nat) (n : Nat := 1) : State :=
  (List.range 29).foldl (fun s j =>
    let k := j + 3
    if s.csr c (0x320 + k) % 65536 = code && s.perfOn c k then
      let v := s.csr c (0xB00 + k) + n
      let s := s.setCsr c (0xB00 + k) v
      if 2 ^ 64 ≤ v then s.perfWrap c k else s
    else s) s

/-! ## Worlds and predictors (R218, R219) -/

/-- All predictor entries are cleared; the hart issues nothing for 1,024 core cycles. -/
def State.clearPred (s : State) (c : Nat) : State :=
  (s.setHart c { s.hart c with pred := [] }).perf c 0x000F 1024

/-- Does hzpredctl.TAG_EN hold? -/
def State.tagged (s : State) (c : Nat) : Bool := (s.csr c 0x7C1).testBit 0

/-- NS takes a value; with TAG_EN = 0 a change clears the predictors. -/
def State.setNs (s : State) (c : Nat) (b : Bool) : State :=
  if s.ns c == b then s else
  let s := (s.wr F.CORE_STATUS.NS c (b2n b)).perf c 0x0011
  if s.tagged c then s else s.clearPred c

/-! ## Retiring and trapping -/

/-- An instruction retires: the pc moves on and the repeat count of R214 starts again. -/
def State.retire (s : State) (c next : Nat) : State :=
  (s.setHart c { s.hart c with pc := next, lastTrap := none, trapRepeats := 0 }).wr F.CORE_STATUS.LOOP_FAULT c 0

/-- The same trap repeated 16 times with no instruction retired between sets LOOP_FAULT (R214). -/
def State.loopFault (s : State) (c cause pc : Nat) : State :=
  let h := s.hart c
  let n := if h.lastTrap = some (cause, pc) then h.trapRepeats + 1 else 1
  let s := s.setHart c { h with lastTrap := some (cause, pc), trapRepeats := n }
  if 16 ≤ n then s.wr F.CORE_STATUS.LOOP_FAULT c 1 else s

/-- Handler address from a trap vector CSR: vectored interrupts go to base + 4 × cause. -/
def vectorTo (tvec cause : Nat) (intr : Bool) : Nat :=
  (tvec / 4) * 4 + (if intr && tvec % 4 = 1 then 4 * cause else 0)

/-- `v` with the `w` bits at `lo` replaced. -/
def putBits (v lo w x : Nat) : Nat := v - (bits v lo w) <<< lo + (x % 2 ^ w) <<< lo

/-- A load's value reaches its destination: sign- or zero-extended to an integer register, NaN-boxed to a floating-point
register, into a vector element, the floating-point or vector state becoming dirty; a fetch writes none. -/
def Hart.loadTo (h : Hart) (d : LoadDst) (size : Nat) (sext : Bool) (v : Nat) : Hart :=
  let dirty (h : Hart) (lo : Nat) : Hart := h.setCsr 0x300 (putBits (h.csrv 0x300) lo 2 3)
  match d with
  | .x r => h.setX r (if sext then unsignedOf 64 (signed (8 * size) v) else v)
  | .f r =>
    dirty { h with f := Tbl.set h.f (r % 32) (BitVec.ofNat 64 (if size < 8 then v + 2 ^ 64 - 2 ^ (8 * size) else v)) 0 } 13
  | .v r i => dirty (h.setVElem r i size v) 9
  | .fetch => h

/-- A trap into M-mode (R218): NS goes to PNS and becomes 0; the saved registers, mstatus, and the handler are those of
the privileged architecture. -/
def State.trapM (s : State) (c cause tval pc : Nat) (intr : Bool) : State :=
  let was := s.ns c
  let p := s.priv c
  let s := s.setCsr c 0x7C0 (putBits (s.csr c 0x7C0) 1 1 (b2n was))
  let s := s.setNs c false
  let m := s.csr c 0x300
  let m := putBits (putBits (putBits m 7 1 (bits m 3 1)) 3 1 0) 11 2 p
  let s := (s.setCsr c 0x300 m).setCsr c 0x342 (cause + (if intr then 2 ^ 63 else 0))
  let s := (s.setCsr c 0x341 pc).setCsr c 0x343 tval
  let s := s.wr F.CORE_STATUS.PRIV c 3
  s.setHart c { s.hart c with pc := vectorTo (s.csr c 0x305) cause intr, resv := none, resvDefer := false }

/-- A trap delegated to S-mode: NS unchanged. -/
def State.trapS (s : State) (c cause tval pc : Nat) (intr : Bool) : State :=
  let p := s.priv c
  let m := s.csr c 0x300
  let m := putBits (putBits (putBits m 5 1 (bits m 1 1)) 1 1 0) 8 1 (b2n (p == 1))
  let s := (s.setCsr c 0x300 m).setCsr c 0x142 (cause + (if intr then 2 ^ 63 else 0))
  let s := (s.setCsr c 0x141 pc).setCsr c 0x143 tval
  let s := s.wr F.CORE_STATUS.PRIV c 1
  s.setHart c { s.hart c with pc := vectorTo (s.csr c 0x105) cause intr, resv := none, resvDefer := false }

/-- Is a synchronous exception delegated to S-mode? -/
def State.delegated (s : State) (c cause : Nat) : Bool := s.priv c != 3 && (s.csr c 0x302).testBit cause

/-- A synchronous exception outside a proof traps (R214, R217, R218). -/
def State.takeException (s : State) (c cause tval pc : Nat) : State :=
  let s := s.loopFault c cause pc
  let s := if cause = 24 then s.perf c 0x0012 else s
  if s.delegated c cause then s.trapS c cause tval pc false else s.trapM c cause tval pc false

/-- Would an exception change NS, so that the merging buffer must drain first (R231)? -/
def State.changesNs (s : State) (c cause : Nat) : Bool := s.ns c && !s.delegated c cause

/-- Return from M-mode (R218). -/
def State.mretTo (s : State) (c : Nat) : State :=
  let m := s.csr c 0x300
  let mpp := bits m 11 2
  let p := if mpp = 2 then 0 else mpp
  let m := putBits (putBits (putBits m 3 1 (bits m 7 1)) 7 1 1) 11 2 0
  let m := if p = 3 then m else putBits m 17 1 0
  let s := (s.setCsr c 0x300 m).wr F.CORE_STATUS.PRIV c p
  let s := if p = 3 then s else s.setNs c (bits (s.csr c 0x7C0) 1 1 == 1)
  s.retire c (s.csr c 0x341)

/-- Return from S-mode: NS unchanged. -/
def State.sretTo (s : State) (c : Nat) : State :=
  let m := s.csr c 0x300
  let p := bits m 8 1
  let m := putBits (putBits (putBits (putBits m 1 1 (bits m 5 1)) 5 1 1) 8 1 0) 17 1 0
  let s := (s.setCsr c 0x300 m).wr F.CORE_STATUS.PRIV c p
  s.retire c (s.csr c 0x141)

/-! ## Interrupts (R220, R221) -/

/-- The interrupt a hart would take now, in the order of R220, with whether it is M-level. -/
def State.interruptDue (s : State) (c : Nat) : Option (Nat × Bool) :=
  let p := s.mip c &&& s.csr c 0x304
  let mOn := s.priv c != 3 || (s.csr c 0x300).testBit 3
  let sOn := s.ns c && (s.priv c == 0 || (s.priv c == 1 && (s.csr c 0x300).testBit 1))
  match [11, 3, 7].find? (fun k => p.testBit k && mOn) with
  | some k => some (k, true)
  | none =>
    match [9, 1, 5, 13].find? (fun k => p.testBit k && sOn) with
    | some k => some (k, false)
    | none => none

/-! ## Physical memory protection (R206) -/

/-- First and last byte address a PMP entry matches, at a granularity of 4 KiB; none for an entry that is OFF. -/
def pmpRange (a mode prev : Nat) : Option (Nat × Nat) :=
  let page (x : Nat) : Nat := x / 1024 * 1024
  match mode with
  | 1 => if page prev < page a then some (4 * page prev, 4 * page a - 1) else none
  | 3 =>
    let a := a ||| 0x1FF
    let ones := ((List.range 54).find? (fun k => !a.testBit k)).getD 54
    let size := 2 ^ (ones + 3)
    some (4 * a / size * size, 4 * a / size * size + size - 1)
  | _ => none

/-- Does the PMP allow an access of kind 0 read, 1 write, 2 execute at privilege `p`? -/
def Hart.pmpOk (h : Hart) (p kind pa size : Nat) : Bool :=
  let cfg (i : Nat) : Nat := bits (h.csrv (0x3A0 + 2 * (i / 8))) (8 * (i % 8)) 8
  let range (i : Nat) : Option (Nat × Nat) :=
    pmpRange (h.csrv (0x3B0 + i)) (bits (cfg i) 3 2) (if i = 0 then 0 else h.csrv (0x3AF + i))
  let hit (i : Nat) : Bool := match range i with
    | some (lo, hi) => lo < pa + size && pa ≤ hi
    | none => false
  match (List.range 16).find? hit with
  | none => p == 3
  | some i =>
    match range i with
    | some (lo, hi) => lo ≤ pa && pa + size ≤ hi + 1 && ((p == 3 && !(cfg i).testBit 7) || (cfg i).testBit kind)
    | none => false

/-! ## Coherent reads of page-table entries -/

/-- The coherent value of a byte range within one line, and whether its line is poisoned: an L2 that owns it, a
leaving-buffer entry, an L2 that shares it, or memory. -/
def State.peek (s : State) (pa n : Nat) : Nat × Bool :=
  let line := lineOf pa
  let own := s.l2.find? (fun e => match Tbl.find e.2.lines line with
    | some l => l.st != .s
    | none => false)
  let lb := s.l2.findSome? (fun e => e.2.lb.find? (fun x => x.line == line && x.st != .s))
  let share := s.l2.findSome? (fun e => Tbl.find e.2.lines line)
  match own, lb, share with
  | some e, _, _ => match Tbl.find e.2.lines line with
    | some l => (leAt l.data (pa % 128) n, l.poison)
    | none => (0, false)
  | none, some x, _ => (leAt x.data (pa % 128) n, x.poison)
  | none, none, some l => (leAt l.data (pa % 128) n, l.poison)
  | none, none, none =>
    let c := s.codeOf (sheetOf pa)
    (s.memNat pa n, if line % 2 = 1 then c.upper else c.lower)

/-! ## Translation (R205) -/

/-- Access kinds of a core: fetch, load, store or AMO. -/
inductive Acc where
  | fetch | load | store
  deriving DecidableEq, Repr

def Acc.misaligned : Acc → Nat
  | .fetch => 0 | .load => 4 | .store => 6
def Acc.accessFault : Acc → Nat
  | .fetch => 1 | .load => 5 | .store => 7
def Acc.pageFault : Acc → Nat
  | .fetch => 12 | .load => 13 | .store => 15
def Acc.pmpKind : Acc → Nat
  | .fetch => 2 | .load => 0 | .store => 1

/-- Privilege an access is made at: MPRV gives M-mode loads and stores that of MPP. -/
def State.accPriv (s : State) (c : Nat) (a : Acc) : Nat :=
  let m := s.csr c 0x300
  if s.priv c = 3 && a != .fetch && m.testBit 17 then bits m 11 2 else s.priv c

/-- The checks on a leaf entry: reserved, PBMT and N bits, permissions, A and D, and superpage alignment. -/
def pteOk (pte p level : Nat) (a : Acc) (sum mxr : Bool) : Bool :=
  let b (k : Nat) : Bool := pte.testBit k
  bits pte 54 10 = 0 && (if p = 0 then b 4 else !b 4 || (sum && a != .fetch)) &&
  (match a with
    | .fetch => b 3
    | .load => b 1 || (mxr && b 3)
    | .store => b 1 && b 2 && b 7) && b 6 && bits pte 10 (9 * level) = 0

/-- Outcome of a translation. -/
inductive Translated where
  | ok (pa : Nat)
  | bad (cause : Nat)
  deriving DecidableEq, Repr

/-- Physical address through a leaf entry. -/
def leafAddr (pte level va : Nat) (a : Acc) : Translated :=
  let pa := bits pte 10 44 / 2 ^ (9 * level) * 2 ^ (9 * level) * 4096 + va % 2 ^ (12 + 9 * level)
  if pa < 2 ^ 46 then .ok pa else .bad a.accessFault

/-- The table walk from `level` down; a table entry's address passes the world check and the PMP.  Gives the leaf entry
and its level. -/
def State.walk (s : State) (c : Nat) (a : Acc) (va : Nat) : Nat → Nat → Except Nat (Nat × Nat)
  | level, base =>
    let pa := base * 4096 + bits va (12 + 9 * level) 9 * 8
    let ok := pa < 2 ^ 46 && s.populated pa && !(s.ns c && s.securePlate pa) && (s.hart c).pmpOk 1 0 pa 8
    if !ok then .error a.accessFault else
    let (pte, bad) := s.peek pa 8
    if bad then .error 24
    else if !pte.testBit 0 || (!pte.testBit 1 && pte.testBit 2) then .error a.pageFault
    else if pte.testBit 1 || pte.testBit 3 then .ok (pte, level)
    else if bits pte 54 10 ≠ 0 || bits pte 4 4 &&& 0xD ≠ 0 then .error a.pageFault
    else match level with
      | 0 => .error a.pageFault
      | l + 1 => s.walk c a va l (bits pte 10 44)

/-- Translation of an access (R205): identity in M-mode or with paging off; otherwise by a TLB entry of the world in
force, or by a walk that fills one. -/
def State.translate (s : State) (c : Nat) (a : Acc) (va : Nat) : Translated × State :=
  let p := s.accPriv c a
  let satp := s.csr c 0x180
  let mode := bits satp 60 4
  if p = 3 || mode = 0 then (if va < 2 ^ 46 then .ok va else .bad a.accessFault, s) else
  let top := if mode = 9 then 3 else 2
  let width := 12 + 9 * (top + 1)
  if bits va (width - 1) (64 - width + 1) ≠ 0 && bits va (width - 1) (64 - width + 1) ≠ 2 ^ (64 - width + 1) - 1 then
    (.bad a.pageFault, s) else
  let asid := bits satp 44 16
  let m := s.csr c 0x300
  let use (pte level : Nat) : Translated :=
    if pteOk pte p level a (m.testBit 18) (m.testBit 19) then leafAddr pte level va a else .bad a.pageFault
  match (s.hart c).tlb.find? (fun e => e.ns == s.ns c && (e.asid == asid || e.pte.testBit 5) &&
      e.vpn == bits va (12 + 9 * e.level) (9 * (top + 1) - 9 * e.level)) with
  | some e => (use e.pte e.level, s)
  | none =>
    let s := (s.perf c 0x000A).perf c 0x000B
    match s.walk c a va top (bits satp 0 44) with
    | .error cause => (.bad cause, s)
    | .ok (pte, level) =>
      let e : TlbEntry := { ns := s.ns c, asid := asid, vpn := bits va (12 + 9 * level) (9 * (top + 1) - 9 * level),
                            level := level, pte := pte }
      (use pte level, if pte.testBit 6 then s.setHart c { s.hart c with tlb := e :: (s.hart c).tlb } else s)

end Sys2Proof.Machine
end

