-- ==== Sys2Proof/Machine/CohOps.lean ====
section
/-!
DEFINITION. The shared operations of the caches, proofs and the directory: what a core's access does in its L1 and L2,
how a proof's marks, conflicts and aborts work, how an L2 answers a snoop, and how a slice serves a request
(R229 to R257, R266 to R277).
-/

namespace Sys2Proof.Machine

/-! ## Clusters and lines -/

/-- Cores of cluster number `cl`. -/
def coresOf (cl : Nat) : List Nat := (List.range 12).map (12 * cl + ·)

/-- Is the die of hub port `n` admitted (R30)? -/
def State.dieAdmitted (s : State) (n : Nat) : Bool := (s.alnPort (2 * n)).admitted || (s.alnPort (2 * n + 1)).admitted

def Moesi.dirty : Moesi → Bool
  | .m | .o => true
  | _ => false

def State.l2line (s : State) (cl line : Nat) : Option L2Line := Tbl.find (s.l2c cl).lines line

/-- A line of an L2 takes a value and becomes the most recently used. -/
def State.setLine (s : State) (cl line : Nat) (x : L2Line) : State :=
  let l := s.l2c cl
  s.setL2 cl { l with lines := Tbl.put l.lines line x }

/-- Every L1 copy of a line in the cluster is invalidated, and reservations on it are lost (R230, R234). -/
def State.dropL1 (s : State) (cl line : Nat) : State :=
  (coresOf cl).foldl (fun s k =>
    let h := s.hart k
    s.setHart k { h with l1d := Tbl.erase h.l1d line, l1i := Tbl.erase h.l1i line,
                         resv := if h.resv = some line then none else h.resv }) s

/-- A line leaves the L2 (R230). -/
def State.dropLine (s : State) (cl line : Nat) : State :=
  let l := s.l2c cl
  (s.setL2 cl { l with lines := Tbl.erase l.lines line }).dropL1 cl line

/-- Is the L2 of a cluster in service (R252)? -/
def State.l2On (s : State) (cl : Nat) : Bool := s.is F.L2_STATUS.ENABLED cl

/-- A coherence message joins the traffic. -/
def State.send (s : State) (m : CohMsg) : State := { s with dir := { s.dir with flight := s.dir.flight ++ [m] } }

/-! ## Proof marks (R271 to R273, R276) -/

/-- The proof tag of a hart's requests: none outside a proof. -/
def State.tagOf (s : State) (k : Nat) : Option ProofTag :=
  match (s.hart k).proof with
  | none => none
  | some p => some { core := p.decider, timestamp := p.timestamp, group := p.group.getD 4096, hart := k }

/-- Is tag `a` older than tag `b` (R274)? -/
def ProofTag.older (a b : ProofTag) : Bool :=
  a.timestamp < b.timestamp || (a.timestamp == b.timestamp &&
    (a.core < b.core || (a.core == b.core && a.group < b.group)))

/-- Do two tags belong to one group? -/
def ProofTag.sameGroup (a b : ProofTag) : Bool := a.group == b.group && a.group < 4096

def Hart.reads (h : Hart) (line : Nat) : Bool := match h.proof with
  | some p => p.reads.contains line
  | none => false
def Hart.writes (h : Hart) (line : Nat) : Bool := match h.proof with
  | some p => p.writes.contains line
  | none => false
/-- Does the hart's proof hold the line in a set? -/
def Hart.marks (h : Hart) (line : Nat) : Bool := h.reads line || h.writes line

/-- Does any core of the cluster mark the line? -/
def State.marked (s : State) (cl line : Nat) : Bool := (coresOf cl).any (fun k => (s.hart k).marks line)

/-- A hart's proof, changed by `f`. -/
def State.onProof (s : State) (k : Nat) (f : Proof → Proof) : State :=
  let h := s.hart k
  s.setHart k { h with proof := h.proof.map f }

/-- The read bit of a hart is set on a line; PIN goes out with the cluster's first bit (R276). -/
def State.markRead (s : State) (k line : Nat) : State :=
  if (s.hart k).proof.isNone || (s.hart k).reads line then s else
  let first := !s.marked (clusterOf k) line
  let s := s.onProof k (fun p => { p with reads := line :: p.reads })
  s.when first (·.send (.pin (clusterOf k) line))

/-- Lines whose last bit in the cluster clears send UNPIN (R276). -/
def State.unpin (s : State) (cl : Nat) (lines : List Nat) : State :=
  lines.foldl (fun s l => if s.marked cl l then s else s.send (.unpin cl l)) s

/-! ## Answering snoops (R241, R246, R254, R275) -/

/-- The data of an answer goes to the requesting L2, or with the response where memory or an agent asked. -/
def State.answerData (s : State) (cl line : Nat) (requester : Option Nat) (dirty evicting poison : Bool)
    (data : List (BitVec 8)) : State :=
  match requester with
  | some d => (s.send (.data d line poison evicting data)).send (.rsp cl line dirty false evicting [] false)
  | none => s.send (.rsp cl line dirty false evicting data poison)

/-- An L2 answers a snoop from its line, its leaving buffer, or with MISS; `lost` says that an abort just gave up the
line of a write set. -/
def State.answerSnoop (s : State) (cl : Nat) (h : HeldSnoop) (lost : Bool) : State :=
  let miss (ev : Bool) : State := s.send (.rsp cl h.line false true ev [] false)
  if lost || (s.l2c cl).aborted.contains h.line then miss true
  else if !s.l2On cl then miss false
  else match s.l2line cl h.line with
    | some x =>
      match h.kind with
      | .share =>
        let st := if x.st = .m then Moesi.o else if x.st = .e then Moesi.s else x.st
        (s.setLine cl h.line { x with st := st }).answerData cl h.line h.requester x.st.dirty false x.poison x.data
      | .unique => (s.dropLine cl h.line).answerData cl h.line h.requester x.st.dirty false x.poison x.data
      | .iord => s.answerData cl h.line none x.st.dirty false x.poison x.data
      | .inv =>
        (s.dropLine cl h.line).send (.rsp cl h.line x.st.dirty false false [] false)
    | none =>
      match (s.l2c cl).lb.find? (fun e => e.line == h.line) with
      | some e =>
        let s := s.inc F.L2_CNT0.SNOOP_LB cl
        (match h.kind with
          | .inv => s.send (.rsp cl h.line e.st.dirty false true [] false)
          | .iord => s.answerData cl h.line none e.st.dirty true e.poison e.data
          | _ => s.answerData cl h.line h.requester e.st.dirty true e.poison e.data)
      | none => miss false

/-- Snoops held for a hart's proof are answered once no other proof holds them; `lost` are lines its abort gave up. -/
def State.releaseHeld (s : State) (k : Nat) (lost : List Nat) : State :=
  let cl := clusterOf k
  let l := s.l2c cl
  let held := l.held.map (fun h => { h with holders := h.holders.filter (· ≠ k) })
  let s := s.setL2 cl { l with held := held.filter (fun h => !h.holders.isEmpty) }
  (held.filter (fun h => h.holders.isEmpty)).foldl (fun s h => s.answerSnoop cl h (lost.contains h.line)) s

/-! ## Aborting a proof (R268, R275, R291) -/

/-- The registers of a checkpoint. -/
def Hart.restore (h : Hart) (c : Checkpoint) : Hart :=
  let h := { h with x := c.x, f := c.f, v := c.v, pc := c.pc }
  (((((h.setCsr 0x003 c.fcsr).setCsr 0x008 c.vstart).setCsr 0x00A c.vxrm).setCsr 0x009 c.vxsat).setCsr 0xC20 c.vl).setCsr
    0xC21 c.vtype

/-- Lines of a proof's write set that no snoop awaits are given up with EVN_CLEAN (R275). -/
def State.giveUp (s : State) (cl : Nat) (awaited : List Nat) (lines : List Nat) : State :=
  lines.foldl (fun s line =>
    let had := (s.l2line cl line).isSome
    let s := s.dropLine cl line
    if awaited.contains line || !had then s else
    let l := s.l2c cl
    (s.setL2 cl { l with aborted := line :: l.aborted }).send (.evn cl line false false [])) s

/-- The proof of a hart aborts with a cause, a line number for hzprfaddr, and a USER code (R268).  `awaiting` are lines
whose snoop the caller answers.  A participant tells its arbiter, unless the arbiter began it (cause GROUP_ABORT). -/
def State.proofAbort (s : State) (k cause line user : Nat) (awaiting : List Nat := []) : State :=
  match (s.hart k).proof with
  | none => s
  | some p =>
    let cl := clusterOf k
    let h := s.hart k
    let waiting := awaiting ++ ((s.l2c cl).held.filter (fun x => x.holders.contains k)).map (·.line)
    let dead := p.writes ++ h.mb.map (·.line)
    let h := { h.restore p.ckpt with
      mb := [], miss := none, proof := none, lastTs := some p.timestamp
      l1d := h.l1d.filter (fun e => !dead.contains e.1) }
    let h := ((h.setCsr 0x5C0 (cause + user * 256)).setCsr 0x5C1 (line * 128)).setX p.openRd cause
    let s := (s.setHart k h).wr F.CORE_STATUS.PRF_OPEN k 0
    let l := s.l2c cl
    let s := s.setL2 cl { l with pending := l.pending.map (fun q =>
      { q with drains := q.drains.filter (· ≠ k), tag := if q.tag.any (·.hart == k) then none else q.tag }) }
    let s := s.giveUp cl waiting p.writes
    let s := s.unpin cl (p.reads ++ p.writes).eraseDups
    let s := (s.inc F.PRF_CAUSE_CNT.ABORTS cause).ledger secProof (cause - 1)
    let s := s.perf k 0x000D
    let s := if cause = 9 then s.perf k 0x0012 else s
    let s := match p.group with
      | some g =>
        if cause = 8 then s else
        match Tbl.find s.groups g with
        | some x => { s with groups := Tbl.put s.groups g { x with aborts := x.aborts ++ [(k, cause)] } }
        | none => s
      | none => s
    s.releaseHeld k p.writes

/-! ## Conflicts (R273, R274) -/

/-- What a holder's proof does about an access. -/
inductive Verdict where
  | none | holderAborts (cause : Nat) | holds
  deriving DecidableEq, Repr

/-- R273 and R274 for one holder; `excl` says that the access takes or ends every other copy. -/
def State.verdict (s : State) (k line : Nat) (excl evict : Bool) (t : Option ProofTag) : Verdict :=
  let h := s.hart k
  if !(h.writes line || (excl && h.reads line)) then .none else
  match h.proof, s.tagOf k with
  | some p, some own =>
    if p.committing then .holds
    else if evict then .holderAborts 3
    else match t with
      | none => .holderAborts 1
      | some t => if t.sameGroup own || t.older own then .holderAborts 1 else .holds
  | _, _ => .none

/-- An access by core `k` of the cluster meets the proofs of its other cores (R274): the Boolean says that it may go
on. -/
def State.localAccess (s : State) (k line : Nat) (excl : Bool) : Bool × State :=
  let cl := clusterOf k
  let others := (coresOf cl).filter (· ≠ k)
  let v (j : Nat) : Verdict := s.verdict j line excl false (s.tagOf k)
  if others.any (fun j => v j = .holds) then
    (false, if others.any (fun j => v j = .holds && !((s.hart j).proof.any (·.committing))) then s.proofAbort k 1 line 0 else s)
  else
    let s' := others.foldl (fun t j => match v j with
      | .holderAborts c => t.proofAbort j c line 0
      | _ => t) s
    (true, s')

/-- A snoop reaches an L2 whose cluster is ON (R241, R274): conflicting proofs abort, or hold it and abort its
requester; otherwise it is answered. -/
def State.snoop (s : State) (cl : Nat) (x : HeldSnoop) : State :=
  let s := s.inc F.L2_CNT0.SNOOPS cl
  let excl := x.kind = .unique || x.kind = .inv
  let vs := (coresOf cl).map (fun k => (k, s.verdict k x.line excl x.evict x.tag))
  let lost := vs.any (fun v => (match v.2 with
    | .holderAborts _ => true
    | _ => false) && (s.hart v.1).writes x.line)
  let s := vs.foldl (fun s v => match v.2 with
    | .holderAborts c => s.proofAbort v.1 c x.line 0 [x.line]
    | _ => s) s
  let holders := (vs.filter (fun v => v.2 = .holds)).map (·.1)
  if holders.isEmpty then s.answerSnoop cl x lost
  else
    let l := s.l2c cl
    let s := s.setL2 cl { l with held := l.held ++ [{ x with holders := holders }] }
    match x.tag with
    | some t => if holders.any (fun k => !((s.hart k).proof.any (·.committing))) then s.send (.abort t.hart t.timestamp x.line) else s
    | none => s

/-! ## L2 requests and victims (R235, R236, R272) -/

/-- L2 set of a line. -/
def l2Set (line : Nat) : Nat := line % 4096

/-- A line is given up: into the leaving buffer with its notice (R236). -/
def State.l2Evict (s : State) (cl line : Nat) : State :=
  match s.l2line cl line with
  | none => s
  | some x =>
    let s := s.dropLine cl line
    let l := s.l2c cl
    let s := s.setL2 cl { l with lb := l.lb ++ [Leaving.mk line x.st x.poison x.data] }
    s.send (.evn cl line x.st.dirty x.poison (if x.st.dirty then x.data else []))

/-- A way for a new line of the set (R235, R236, R272): the Boolean says that there is one; the access of core `k` waits
or its proof has aborted where there is none. -/
def State.l2Way (s : State) (k line : Nat) : Bool × State :=
  let cl := clusterOf k
  let l := s.l2c cl
  let inSet := (l.lines.map (·.1)).filter (fun x => l2Set x == l2Set line)
  let coming := (l.pending.filter (fun p => l2Set p.line == l2Set line && p.kind ≠ .upgrade)).length
  if inSet.length + coming < 12 then (true, s)
  else if 16 ≤ l.lb.length then (false, s)
  else match (inSet.filter (fun x => !s.marked cl x)).getLast? with
    | some v => (true, s.l2Evict cl v)
    | none =>
      if (s.hart k).proof.isSome then (false, s.proofAbort k 2 0 0)
      else match inSet.getLast? with
        | none => (false, s)
        | some v =>
          let s := (coresOf cl).foldl (fun s j => if (s.hart j).marks v then s.proofAbort j 2 0 0 [v] else s) s
          (true, s.l2Evict cl v)

/-- The L2 asks the directory for a line on behalf of core `k` (R235): misses to one line share a request; 32 may be
outstanding; a line in the leaving buffer waits for its acknowledgement. -/
def State.l2Ask (s : State) (k line : Nat) (kind : L2Req) (drain : Bool) : State :=
  let cl := clusterOf k
  let l := s.l2c cl
  if l.pending.any (fun p => p.line == line) then
    s.setL2 cl { l with pending := l.pending.map (fun p =>
      if p.line = line && drain && p.kind ≠ .rdShared && !p.drains.contains k then { p with drains := p.drains ++ [k] } else p) }
  else if 32 ≤ l.pending.length || l.lb.any (fun e => e.line == line) || l.aborted.contains line ||
      !s.is F.L2_STATUS.READY cl then s
  else
    let (ok, s) := if kind = .upgrade then (true, s) else s.l2Way k line
    if !ok then s else
    let l := s.l2c cl
    let t := s.tagOf k
    let s := s.setL2 cl { l with pending := l.pending ++ [L2Pending.mk line kind t none none (if drain then [k] else [])] }
    let s := (s.inc F.L2_MISSES.MISSES cl).perf k 0x0009
    let rk := match kind with
      | .rdShared => DirReq.rdShared
      | .rdUnique => DirReq.rdUnique
      | .upgrade => DirReq.upgrade
    s.send (.req { kind := rk, line := line, src := .cluster cl, tag := t, wr := [], wrPoison := false, id := 0, off := 0,
                   len := 128 })

/-! ## The merging buffer (R231, R249, R254, R271, R272) -/

/-- Write-set limit of a core's die (R272). -/
def State.wsLines (s : State) (k : Nat) : Nat := s.rd F.CD_IDENT.WS_LINES (siteOf k)

/-- The write bit of a hart is set on a line held in M: the value from before the proof is written back first (R271),
and the line that exceeds the limit aborts the proof.  The Boolean says that the write may go on. -/
def State.markWrite (s : State) (k line : Nat) : Bool × State :=
  match (s.hart k).proof with
  | none => (true, s)
  | some p =>
    if p.writes.contains line then (true, s)
    else if s.wsLines k ≤ p.writes.length then (false, s.proofAbort k 2 0 0)
    else
      let cl := clusterOf k
      let s := match s.l2line cl line with
        | some x => if x.st.dirty then s.send (.wrback cl line x.poison x.data) else s
        | none => s
      let first := !s.marked cl line
      let s := s.onProof k (fun p => { p with writes := line :: p.writes })
      (true, s.when first (·.send (.pin cl line)))

/-- Bytes merged into a line. -/
def mergeLine (d : List (BitVec 8)) (b : Tbl Nat (BitVec 8)) : List (BitVec 8) :=
  (List.range 128).map (fun i => match Tbl.find b i with
    | some v => v
    | none => d.getD i 0)

/-- Other cores of the cluster lose their L1D copies of a line that a core writes in the L2. -/
def State.dropPeers (s : State) (k line : Nat) : State :=
  ((coresOf (clusterOf k)).filter (· ≠ k)).foldl (fun s j =>
    let h := s.hart j
    s.setHart j { h with l1d := Tbl.erase h.l1d line, resv := if h.resv = some line then none else h.resv }) s

/-- Bytes are written into a line the L2 holds in E or M: a write of all 128 bytes clears its poison (R249). -/
def State.l2Write (s : State) (k line : Nat) (b : Tbl Nat (BitVec 8)) : State :=
  match s.l2line (clusterOf k) line with
  | none => s
  | some x => (s.setLine (clusterOf k) line
      { st := .m, poison := x.poison && !covers b 0 128, data := mergeLine x.data b }).dropPeers k line

/-- Obtain a line in M or E for a write of core `k`: true when the L2 holds it so. -/
def State.l2Own (s : State) (k line : Nat) (drain : Bool) : Bool × State :=
  match s.l2line (clusterOf k) line with
  | some x => if x.st = .m || x.st = .e then (true, s) else (false, s.l2Ask k line .upgrade drain)
  | none => (false, s.l2Ask k line .rdUnique drain)

/-- Is an uncached access of core `k` to a line already on its way? -/
def State.ioAsked (s : State) (k line : Nat) : Bool :=
  let mine (r : Request) : Bool := r.src == .core k && r.line == line
  s.dir.flight.any (fun m => match m with
    | .req r => mine r
    | _ => false) || s.dir.waits.any (fun w => w.2.any mine) || s.dir.txns.any (fun t => mine t.2.req) ||
    s.mem.queue.any (fun q => match q.dst with
      | .reply r => mine r
      | _ => false)

/-- The oldest merging-buffer entry of core `k` drains as far as it can: into the L2 once the line is held, or by IO_WR
while the L2 is disabled (R231, R254).  It is a hit of the L2 unless it `asked` the directory first (R260). -/
def State.drainAs (s : State) (k : Nat) (asked : Bool) : State :=
  match (s.hart k).mb with
  | [] => s
  | e :: rest =>
    let cl := clusterOf k
    if !s.l2On cl then
      if s.ioAsked k e.line then s else
      s.send (.req { kind := .ioWr, line := e.line, src := .core k, tag := none, wr := e.bytes, wrPoison := false, id := 0,
                     off := 0, len := 128 })
    else
      let (go, s) := s.localAccess k e.line true
      if !go then s else
      let (own, s) := s.l2Own k e.line true
      if !own then s else
      let (ok, s) := s.markWrite k e.line
      if !ok then s else
      let s := (s.l2Write k e.line e.bytes).when (!asked) (·.inc F.L2_HITS.HITS cl)
      s.setHart k { s.hart k with mb := rest }

/-- A drain that the core or a rule begins. -/
def State.drainOne (s : State) (k : Nat) : State := s.drainAs k false

/-- Every entry that can drain now does; the Boolean says that the buffer is empty. -/
def State.drainAll (s : State) (k : Nat) : Bool × State :=
  let s := (List.range 8).foldl (fun s _ => s.drainOne k) s
  ((s.hart k).mb.isEmpty, s)

/-! ## L1 fills (R229, R230, R233) -/

/-- A line enters a 4-way set, pushing out the least recently filled. -/
def l1Fill (t : Tbl Nat (List (BitVec 8))) (line : Nat) (d : List (BitVec 8)) : Tbl Nat (List (BitVec 8)) :=
  let t := Tbl.put t line d
  match ((t.map (·.1)).filter (fun x => x % 64 == line % 64)).drop 4 with
  | [] => t
  | v :: _ => Tbl.erase t v

/-- Fill of L1D or L1I; the L1s never hold a poisoned line (R249). -/
def Hart.fill (h : Hart) (fetch : Bool) (line : Nat) (d : List (BitVec 8)) : Hart :=
  if fetch then { h with l1i := l1Fill h.l1i line d } else { h with l1d := l1Fill h.l1d line d }

/-! ## AMO operations (R234) -/

/-- The value an AMO of `w` bits writes: 0 SWAP, 1 ADD, 2 XOR, 3 AND, 4 OR, 5 MIN, 6 MAX, 7 MINU, 8 MAXU. -/
def amoValue (op w a b : Nat) : Nat :=
  let a := a % 2 ^ w
  let b := b % 2 ^ w
  match op with
  | 0 => b
  | 1 => (a + b) % 2 ^ w
  | 2 => a ^^^ b
  | 3 => a &&& b
  | 4 => a ||| b
  | 5 => if signed w a ≤ signed w b then a else b
  | 6 => if signed w a ≤ signed w b then b else a
  | 7 => min a b
  | _ => max a b

/-- Bytes of a value at an offset of its line. -/
def valueBytes (off size v : Nat) : Tbl Nat (BitVec 8) :=
  (List.range size).map (fun i => (off + i, BitVec.ofNat 8 (v >>> (8 * i))))

/-! ## Completing a core's access on a line the L2 holds -/

/-- The access of core `k` cannot go on now: it is made again. -/
def State.endMiss (s : State) (k : Nat) : State := s.setHart k { s.hart k with miss := none }

/-- A synchronous exception of a core's instruction (R217, R231, R268, R270): inside a proof before its commit point it
aborts the proof instead; where the trap would change NS the merging buffer drains first, and the instruction is
executed again. -/
def State.exception (s : State) (k cause tval pc : Nat) (line : Nat := 0) : State :=
  if (s.hart k).proof.isSome then s.proofAbort k (if cause = 24 then 9 else 7) (if cause = 24 then line else 0) 0
  else
    let s := s.endMiss k
    let (empty, s) := if s.changesNs k cause then s.drainAll k else (true, s)
    if empty then s.takeException k cause tval pc else s

/-- A line as core `k` sees it: with the bytes of its own merging-buffer entry for the line. -/
def Hart.ownBytes (h : Hart) (line : Nat) (d : List (BitVec 8)) : List (BitVec 8) :=
  match h.mb.find? (fun e => e.line == line) with
  | some e => mergeLine d e.bytes
  | none => d

/-- The data of a load or fetch on its line: L1 fill, destination, retirement.  A fetch retires nothing. -/
def State.loadDone (s : State) (k pa size : Nat) (sext : Bool) (dst : LoadDst) (next : Nat) (line : List (BitVec 8)) : State :=
  let line := if dst == .fetch then line else (s.hart k).ownBytes (lineOf pa) line
  let v := leAt line (pa % 128) size
  let h := ((s.hart k).fill (dst == .fetch) (lineOf pa) line).loadTo dst size sext v
  let s := s.setHart k { h with miss := none }
  if dst == .fetch then s else s.retire k next

/-- The instruction behind an access. -/
def MissOp.insn : MissOp → InsnAt
  | .load _ _ _ _ i => i
  | .amo _ _ _ _ _ i => i
  | .lr _ _ _ i => i
  | .sc _ _ _ _ i => i

/-- An SC ends: its reservation is released (R234). -/
def State.scDone (s : State) (k rd v next : Nat) : State :=
  (s.setHart k { (s.hart k).setX rd v with resv := none, resvDefer := false, miss := none }).retire k next

/-- An access that needs its line in M waits for the request the L2 has made; with none outstanding it is made again. -/
def State.missWaits (s : State) (k line : Nat) : State :=
  if (s.l2c (clusterOf k)).pending.any (fun p => p.line == line) then s else s.endMiss k

/-- What waits on a line is done on it (R217, R234, R249, R271). -/
def State.accessLine (s : State) (k line : Nat) (op : MissOp) : State :=
  let cl := clusterOf k
  match s.l2line cl line with
  | none => s.endMiss k
  | some x =>
    let readsPoison := x.poison && (match op with
      | .sc .. => false
      | _ => true)
    if readsPoison then s.exception k 24 op.insn.va op.insn.pc line else
    match op with
    | .load pa size sext dst i =>
      let (go, s) := s.localAccess k line false
      if !go then s.endMiss k else
      (s.markRead k line).loadDone k pa size sext dst i.next x.data
    | .lr pa size rd i =>
      let (go, s) := s.localAccess k line false
      if !go then s.endMiss k else
      let v := unsignedOf 64 (signed (8 * size) (leAt x.data (pa % 128) size))
      let s := s.setHart k { (s.hart k).setX rd v with resv := some line, resvDefer := true, miss := none }
      s.retire k i.next
    | .sc pa size rs2 rd i =>
      if (s.hart k).resv ≠ some line then s.scDone k rd 1 i.next
      else
        let (go, s) := s.localAccess k line true
        if !go then s.endMiss k else
        let (own, s) := s.l2Own k line false
        if !own then s.missWaits k line else
        let s := s.l2Write k line (valueBytes (pa % 128) size rs2)
        let s := s.setHart k { s.hart k with l1d := Tbl.erase (s.hart k).l1d line }
        s.scDone k rd 0 i.next
    | .amo op pa size rs2 rd i =>
      let (go, s) := s.localAccess k line true
      if !go then s.endMiss k else
      let (own, s) := s.l2Own k line false
      if !own then s.missWaits k line else
      let (ok, s) := (s.markRead k line).markWrite k line
      if !ok then s else
      let old := leAt x.data (pa % 128) size
      let s := s.l2Write k line (valueBytes (pa % 128) size (amoValue op (8 * size) old rs2))
      let h := s.hart k
      let h := { h.setX rd (unsignedOf 64 (signed (8 * size) old)) with miss := none, l1d := Tbl.erase h.l1d line }
      (s.setHart k h).retire k i.next

/-- A request completes once its DATA and GNT are in (R241): the line takes the state granted, and what waited on it
goes on. -/
def State.completeReq (s : State) (cl line : Nat) : State :=
  let l := s.l2c cl
  match l.pending.find? (fun p => p.line == line) with
  | none => s
  | some p =>
    match p.gnt, p.data with
    | none, _ => s
    | some (_, true), none => s
    | some (st, withData), d =>
      let s := s.setL2 cl { l with pending := l.pending.filter (fun q => q.line ≠ line) }
      let s := match withData, d, s.l2line cl line with
        | true, some (bytes, poison, _), _ => s.setLine cl line { st := st, poison := poison, data := bytes }
        | _, _, some x => s.setLine cl line { x with st := st }
        | _, _, none => s
      let s := p.drains.foldl (fun s k => match (s.hart k).mb with
        | e :: _ => if e.line = line then s.drainAs k true else s
        | [] => s) s
      (coresOf cl).foldl (fun s k => match (s.hart k).miss with
        | some (m, op) => if m = line then s.accessLine k line op else s
        | none => s) s

end Sys2Proof.Machine
end

