-- ==== Sys2Proof/Machine/DirOps.lean ====
section
/-!
DEFINITION. The shared operations of the directory slices: entries and their pointers, requests, transactions, notices,
directory eviction, fences, and the replies to agents (R237 to R250, R275, R276).
-/

namespace Sys2Proof.Machine

/-! ## Entries (R238) -/

def DirEntry.ptrs (e : DirEntry) : List Nat := [e.p0, e.p1, e.p2, e.p3].filterMap id

/-- Owner of an entry in EM or O. -/
def DirEntry.owner (e : DirEntry) : Option Nat := if e.st = .s then none else e.p0

/-- A sharer is added: to a free pointer, else BCAST; with BCAST the pointers are not updated. -/
def DirEntry.add (e : DirEntry) (c : Nat) : DirEntry :=
  if e.bcast || e.ptrs.contains c then e
  else if e.p0.isNone then { e with p0 := some c }
  else if e.p1.isNone then { e with p1 := some c }
  else if e.p2.isNone then { e with p2 := some c }
  else if e.p3.isNone then { e with p3 := some c }
  else { e with bcast := true }

/-- A cluster's pointer is cleared. -/
def DirEntry.drop (e : DirEntry) (c : Nat) : DirEntry :=
  let f (p : Option Nat) : Option Nat := if p = some c then none else p
  { e with p0 := f e.p0, p1 := f e.p1, p2 := f e.p2, p3 := f e.p3 }

/-- Slice and set of a line hold how many entries, and in which ways (R229, R237). -/
def State.setEntries (s : State) (line : Nat) : List (Nat × DirEntry) :=
  s.dir.entries.filter (fun e => homeSlice e.1 == homeSlice line && dirSet e.1 == dirSet line)

def State.entry (s : State) (line : Nat) : Option DirEntry := Tbl.find s.dir.entries line

/-- An entry takes a value and becomes the most recently used; a new one takes the lowest free way. -/
def State.putEntry (s : State) (line : Nat) (e : DirEntry) : State :=
  let now := s.dir.clock + 1
  { s with dir := { s.dir with entries := Tbl.put s.dir.entries line { e with used := now }, clock := now } }

def State.dropEntry (s : State) (line : Nat) : State :=
  { s with dir := { s.dir with entries := Tbl.erase s.dir.entries line } }

/-- A fresh entry in EM owned by `c`. -/
def State.emEntry (s : State) (line c : Nat) : DirEntry :=
  let old := s.entry line
  let used := (s.setEntries line).map (fun e => e.2.way)
  let free := ((List.range 16).find? (fun w => !used.contains w)).getD 0
  { st := .em, p0 := some c, p1 := none, p2 := none, p3 := none, bcast := false,
    pins := match old with
      | some e => e.pins
      | none => []
    way := match old with
      | some e => e.way
      | none => free
    used := 0 }

/-- The line goes to EM with P0 = c (BCAST clears). -/
def State.toEm (s : State) (line c : Nat) : State := s.putEntry line (s.emEntry line c)

/-- Is cluster `c` a broadcast target (R238)? -/
def State.bcastTarget (s : State) (c : Nat) : Bool :=
  s.dieAdmitted (c / 4) && !s.fbit F.ALN_SUMMARY.FENCED 0 (c / 4) && s.rd F.PWR_DOM_STATUS.STATE (clusterDom c) != 2

/-- Clusters an invalidation of the entry goes to (R238). -/
def State.holdersOf (s : State) (e : DirEntry) : List Nat :=
  if e.bcast then
    let b := idxWhere 48 s.bcastTarget
    match e.owner with
    | some o => if b.contains o then b else o :: b
    | none => b
  else e.ptrs

/-! ## Replies to agents (R245, R254, R355) -/

/-- Bytes `off` to `off + len - 1` of a line. -/
def lineCut (d : List (BitVec 8)) (off len : Nat) : List (BitVec 8) := (d.drop off).take len

/-- The hub sends a guest a message (R351). -/
def State.toGuest (s : State) (g : Nat) (m : GuestMsg) : State :=
  let x := s.guest g
  s.setGuest g { x with sent := x.sent ++ [m] }

/-- A request of an agent has been served: an IO_RD with the line and its poison flag, an IO_WR with none. -/
def State.ioReply (s : State) (r : Request) (d : Option (List (BitVec 8) × Bool)) : State :=
  match r.src with
  | .guest g =>
    s.toGuest g (match d with
      | none => .cpl r.id 0 []
      | some (bytes, poison) =>
        if poison then .cpl r.id 6 (List.replicate r.len 0) else .cpl r.id 0 (lineCut bytes r.off r.len))
  | .core k =>
    match d, (s.hart k).miss with
    | none, _ =>
      let h := s.hart k
      s.setHart k { h with mb := match h.mb with
        | e :: rest => if e.line = r.line then rest else e :: rest
        | [] => [] }
    | some (bytes, poison), some (_, .load pa size sext dst i) =>
      if poison then s.exception k 24 i.va i.pc r.line else s.loadDone k pa size sext dst i.next bytes
    | _, _ => s
  | _ => { s with dir := { s.dir with replies := s.dir.replies ++ [(r, d)] } }

/-! ## Transactions (R240, R242, R247, R248) -/

def Request.cluster (r : Request) : Option Nat := match r.src with
  | .cluster c => some c
  | _ => none

/-- Does an IO_WR cover its whole line? -/
def Request.full (r : Request) : Bool := covers r.wr 0 128

/-- A line owned by a fenced die is lost: memory takes it as poisoned, and the entry goes to I (R250). -/
def State.poisonLine (s : State) (line : Nat) : State :=
  let s := (s.dropEntry line).postWrite line (wholeLine []) true
  (s.inc F.DIR_SLICE_CNT3.POISONED (homeSlice line)).raise F.DIR_SLICE_STATUS.EVT_POISONED (homeSlice line)

/-- A cluster is masked in every entry: its pointers and pins go; where it owned the line, every other holder is
invalidated and the line is poisoned. -/
def State.maskEntry (s : State) (c line : Nat) : State :=
  match s.entry line with
  | none => s
  | some e =>
    let open' := (Tbl.find s.dir.txns line).isSome
    if e.owner = some c then
      if open' then s else
      let s := ((s.holdersOf e).filter (· ≠ c)).foldl (fun s o =>
        (coresOf o).foldl (fun s k => if (s.hart k).marks line then s.proofAbort k 1 line 0 else s) (s.dropLine o line)) s
      s.poisonLine line
    else
      let e := { e.drop c with pins := e.pins.filter (· ≠ c) }
      if e.ptrs.isEmpty && !e.bcast && !open' then s.dropEntry line
      else { s with dir := { s.dir with entries := Tbl.mapVals s.dir.entries (fun l x => if l = line then e else x) } }

/-- A grant, with its data from memory where asked; a requester fenced meanwhile is masked again instead. -/
def State.grant (s : State) (line c : Nat) (st : Moesi) (withData fromMem : Bool) : State :=
  if s.fbit F.DIR_CL_FENCED.MASK 0 c then s.maskEntry c line else
  (if fromMem then s.postRead line (.cluster c) else s).send (.gnt c line st withData)

/-- The next request of a line's wait list is put first in it again. -/
def State.requeue (s : State) (r : Request) : State :=
  { s with dir := { s.dir with waits := Tbl.put s.dir.waits r.line (r :: Tbl.get s.dir.waits r.line []) } }

/-- Memory takes a line that an owner returned. -/
def State.writeBackLine (s : State) (line : Nat) (d : Option (List (BitVec 8) × Bool)) : State :=
  match d with
  | some (bytes, poison) => s.postWrite line (wholeLine bytes) poison
  | none => s

/-- The entry after its owner left it with other holders: S, or gone when none is left (R243, R247). -/
def State.ownerLeft (s : State) (line : Nat) (e : DirEntry) (o : Nat) : State :=
  let e := e.drop o
  if e.ptrs.isEmpty && !e.bcast then s.dropEntry line else s.putEntry line { e with st := .s }

/-- The end of a transaction on a line, all responses in (R242, R244, R247, R248, R250). -/
def State.finishTxn (s : State) (line : Nat) (t : Txn) : State :=
  let s := { s with dir := { s.dir with txns := Tbl.erase s.dir.txns line } }
  let r := t.req
  if t.evict then
    let s := if t.owner.any (fun o => s.fbit F.DIR_CL_FENCED.MASK 0 o) then s.poisonLine line
      else if t.sawDirty then s.writeBackLine line t.data else s
    (s.dropEntry line).requeue r
  else match s.entry line with
  | none => s.requeue r
  | some e =>
    let fenced := t.owner.any (fun o => s.fbit F.DIR_CL_FENCED.MASK 0 o)
    if fenced then (s.poisonLine line).requeue r else
    let noData := t.owner.isSome && t.sawMiss
    let s := s.when (noData && !t.sawEvicting) (·.inc F.DIR_SLICE_CNT3.OWNER_MISS (homeSlice line))
    let left := t.gone.foldl DirEntry.drop e
    match r.kind, r.cluster with
    | .rdShared, some c =>
      if noData && !t.sawEvicting then
        let e := match t.owner with
          | some o => e.drop o
          | none => e
        (s.putEntry line ({ e with st := .s }.add c)).grant line c .s true true
      else if noData then (s.toEm line c).grant line c .e true true
      else if t.sawEvicting then
        if !t.sawDirty then (s.toEm line c).grant line c .e true false
        else if left.ptrs.isEmpty && !left.bcast then (s.toEm line c).grant line c .m true false
        else
          let rest := (left.ptrs.filter (· ≠ c))
          let e' := rest.foldl DirEntry.add { left with p0 := some c, p1 := none, p2 := none, p3 := none, st := .o }
          (s.putEntry line e').grant line c .o true false
      else (s.putEntry line ({ e with st := if t.sawDirty then .o else .s }.add c)).grant line c .s true false
    | .rdUnique, some c => (s.toEm line c).grant line c .m true (t.owner.isNone || noData)
    | .upgrade, some c =>
      let asUnique := t.owner.isSome
      (s.toEm line c).grant line c .m asUnique (asUnique && noData)
    | .ioRd, _ =>
      if noData then
        let s := match t.owner with
          | some o => s.ownerLeft line e o
          | none => s
        s.postRead line (.reply r)
      else
        let s := if t.sawEvicting then
            (match t.owner with
              | some o => (if t.sawDirty then s.writeBackLine line t.data else s).ownerLeft line e o
              | none => s)
          else s
        s.ioReply r t.data
    | .ioWr, _ =>
      let s := s.dropEntry line
      let s := match t.data with
        | some (bytes, poison) =>
          if r.full then s.postWrite line r.wr r.wrPoison else s.postWrite line (wholeLine (mergeLine bytes r.wr)) poison
        | none => s.postWrite line r.wr r.wrPoison
      s.ioReply r none
    | _, none => s

/-- A transaction opens with its snoops (R240, R242); with none it ends at once. -/
def State.openTxn (s : State) (line : Nat) (r : Request) (evict : Bool) (owner : Option Nat)
    (snoops : List (Nat × SnpKind × Option Nat)) (bcast : Bool) : State :=
  let t : Txn := { req := r, evict := evict, await := snoops.map (·.1), owner := owner, sawDirty := false,
                   sawEvicting := false, sawMiss := false, gone := [], data := none, waiting := [] }
  let sl := homeSlice line
  let s := s.inc F.DIR_SLICE_CNT1.SNOOPS sl snoops.length
  let s := s.when bcast (·.inc F.DIR_SLICE_CNT1.BCAST_SNOOPS sl snoops.length)
  if snoops.isEmpty then s.finishTxn line t else
  let s := { s with dir := { s.dir with txns := Tbl.put s.dir.txns line t } }
  snoops.foldl (fun s x => s.send (.snp x.2.1 x.1 line x.2.2 (if evict then none else r.tag) evict)) s

/-- Proofs, on any cluster, that mark a line abort with DIR_CAPACITY (R248, R277). -/
def State.abortHolders (s : State) (line : Nat) : State :=
  ((s.harts.filter (fun h => h.2.marks line)).map (·.1)).foldl (fun s k => s.proofAbort k 3 line 0) s

/-- A request finds no way in I (R248): the least recently used unpinned way is evicted, or a pinned one with its
proofs aborted. -/
def State.dirEvict (s : State) (r : Request) : State :=
  let cand := (s.setEntries r.line).filter (fun e => (Tbl.find s.dir.txns e.1).isNone)
  let oldest (l : List (Nat × DirEntry)) : Option (Nat × DirEntry) :=
    l.foldl (fun b e => match b with
      | none => some e
      | some x => if e.2.used < x.2.used then some e else b) none
  let free := cand.filter (fun e => e.2.pins.isEmpty)
  let go (s : State) (v : Nat × DirEntry) : State :=
    let sl := homeSlice r.line
    let s := s.inc F.DIR_SLICE_CNT2.EVICTIONS sl
    let snoops := (s.holdersOf v.2).map (fun c => if v.2.owner = some c then (c, SnpKind.unique, none) else (c, SnpKind.inv, none))
    s.openTxn v.1 r true v.2.owner snoops v.2.bcast
  match oldest free with
  | some v => go s v
  | none =>
    match oldest cand with
    | none => s.requeue r
    | some v =>
      let s := (s.abortHolders v.1).inc F.DIR_SLICE_CNT2.PIN_EVICTIONS (homeSlice r.line)
      go (s.raise F.DIR_SLICE_STATUS.EVT_PIN_EVICT (homeSlice r.line)) v

/-- A slice serves a request under the entry's state (R242). -/
def State.serveNow (s : State) (r : Request) : State :=
  let line := r.line
  match s.entry line, r.kind, r.cluster with
  | none, .ioRd, _ => s.postRead line (.reply r)
  | none, .ioWr, _ => (s.postWrite line r.wr r.wrPoison).ioReply r none
  | none, k, some c =>
    if 16 ≤ (s.setEntries line).length then s.dirEvict r
    else (s.toEm line c).grant line c (if k = .rdShared then .e else .m) true true
  | none, _, none => s
  | some e, k, src =>
    let c := src.getD 64
    let others := (s.holdersOf e).filter (· ≠ c)
    let inv (l : List Nat) : List (Nat × SnpKind × Option Nat) := l.map (fun x => (x, SnpKind.inv, none))
    match e.owner with
    | none =>
      match k with
      | .rdShared => (s.putEntry line (e.add c)).grant line c .s true true
      | .ioRd => s.postRead line (.reply r)
      | .rdUnique => s.openTxn line r false none (inv others) e.bcast
      | .upgrade =>
        let holder := e.ptrs.contains c || e.bcast
        s.openTxn line (if holder then r else { r with kind := .rdUnique }) false none (inv others) e.bcast
      | .ioWr => s.openTxn line r false none (inv (s.holdersOf e)) e.bcast
    | some o =>
      match k with
      | .rdShared => s.openTxn line r false (some o) [(o, .share, src)] false
      | .ioRd => s.openTxn line r false (some o) [(o, .iord, none)] false
      | .rdUnique => s.openTxn line r false (some o) ((o, .unique, src) :: inv (others.filter (· ≠ o))) e.bcast
      | .upgrade =>
        let holder := e.ptrs.contains c || e.bcast
        if holder then s.openTxn line r false none (inv others) e.bcast
        else s.openTxn line { r with kind := .rdUnique } false (some o)
          ((o, .unique, src) :: inv (others.filter (· ≠ o))) e.bcast
      | .ioWr =>
        if r.full then s.openTxn line r false none (inv (s.holdersOf e)) e.bcast
        else s.openTxn line r false (some o) ((o, .unique, none) :: inv ((s.holdersOf e).filter (· ≠ o))) e.bcast

/-- Is the line busy in its slice: a transaction open on it or carrying a request for it, or requests waiting? -/
def State.lineHeld (s : State) (line : Nat) : Bool :=
  (Tbl.find s.dir.txns line).isSome || s.dir.txns.any (fun t => t.2.evict && t.2.req.line == line)

/-- Is home slice `sl` able to serve: its group ON and its reset clearing over (R251, R259)? -/
def State.sliceReady (s : State) (sl : Nat) : Bool := s.sliceLive sl && s.fbit F.DIR_STATUS.READY 0 sl

/-- Open transactions of a slice. -/
def State.openCount (s : State) (sl : Nat) : Nat := (s.dir.txns.filter (fun t => homeSlice t.1 == sl)).length

/-- A request reaches its home slice (R240): it joins the line's wait list while the line is busy, else it is served.
While a directory group is OFF its requests pass to memory without lookup (R251). -/
def State.serveReq (s : State) (r : Request) : State :=
  let sl := homeSlice r.line
  if s.rd F.PWR_DOM_STATUS.STATE (65 + sl / 8) = 2 then
    match r.kind, r.cluster with
    | .ioRd, _ => s.postRead r.line (.reply r)
    | .ioWr, _ => (s.postWrite r.line r.wr r.wrPoison).ioReply r none
    | _, some c => s.grant r.line c (if r.kind = .rdShared then .e else .m) true true
    | _, none => s
  else
    let s := s.inc F.DIR_SLICE_CNT0.REQUESTS sl
    if s.lineHeld r.line || !(Tbl.get s.dir.waits r.line []).isEmpty then
      { s with dir := { s.dir with waits := Tbl.put s.dir.waits r.line (Tbl.get s.dir.waits r.line [] ++ [r]) } }
    else s.serveNow r

/-- May a request be granted now: the slice ready with fewer than 256 transactions open, or its group OFF? -/
def State.mayServe (s : State) (line : Nat) : Bool :=
  let sl := homeSlice line
  s.rd F.PWR_DOM_STATUS.STATE (65 + sl / 8) == 2 || (s.sliceReady sl && s.openCount sl < 256)

/-- The next request waiting on a free line is served (R240). -/
def State.serveWaiter (s : State) (line : Nat) : State :=
  match Tbl.get s.dir.waits line [] with
  | [] => s
  | r :: rest =>
    if s.lineHeld line || !s.mayServe line then s else
    let s := { s with dir := { s.dir with waits := Tbl.set s.dir.waits line rest [] } }
    s.serveNow r

/-! ## Notices and write-backs (R243, R247) -/

/-- A notice is applied to its entry and acknowledged. -/
def State.applyNotice (s : State) (line : Nat) (n : Notice) : State :=
  let c := n.cluster
  let write (s : State) : State := if n.dirty then s.postWrite line (wholeLine n.data) n.poison else s
  let s := match s.entry line with
    | none => s
    | some e =>
      match e.st with
      | .em => if e.p0 = some c then (write s).dropEntry line else s
      | .s =>
        if n.dirty || e.bcast then s
        else
          let e := e.drop c
          if e.ptrs.isEmpty then s.dropEntry line else s.putEntry line e
      | .o =>
        if e.p0 = some c then (if n.dirty then (write s).ownerLeft line e c else s)
        else if n.dirty || e.bcast then s else s.putEntry line (e.drop c)
  s.send (.ackEvn c line false)

/-- A notice reaches its slice: it waits while a snoop to its L2 is outstanding on the line. -/
def State.noticeArrive (s : State) (line : Nat) (n : Notice) : State :=
  match Tbl.find s.dir.txns line with
  | some t =>
    if t.await.contains n.cluster then
      { s with dir := { s.dir with txns := Tbl.put s.dir.txns line { t with waiting := t.waiting ++ [n] } } }
    else s.applyNotice line n
  | none => s.applyNotice line n

/-- A write-back reaches its slice: memory takes the data; with no transaction open an O line becomes S (R243). -/
def State.wrbackArrive (s : State) (c line : Nat) (poison : Bool) (d : List (BitVec 8)) : State :=
  let s := match s.entry line with
    | none => s
    | some e =>
      if e.owner ≠ some c then s else
      let s := s.postWrite line (wholeLine d) poison
      if e.st = DirSt.o && (Tbl.find s.dir.txns line).isNone then s.putEntry line { e with st := .s } else s
  s.send (.ackEvn c line true)

/-- A snoop response reaches the slice (R241, R247): a waiting notice of its L2 becomes stale and is acknowledged. -/
def State.rspArrive (s : State) (c line : Nat) (dirty miss evicting : Bool) (data : List (BitVec 8)) (poison : Bool) : State :=
  match Tbl.find s.dir.txns line with
  | none => s
  | some t =>
    if !t.await.contains c then s else
    let stale := t.waiting.filter (fun n => n.cluster == c)
    let s := stale.foldl (fun s _ => (s.send (.ackEvn c line false)).inc F.DIR_SLICE_CNT2.STALE_NOTICES (homeSlice line)) s
    let own := t.owner = some c
    let t := { t with
      await := t.await.filter (· ≠ c)
      waiting := t.waiting.filter (fun n => n.cluster ≠ c)
      gone := if evicting then c :: t.gone else t.gone
      sawDirty := t.sawDirty || (own && dirty)
      sawEvicting := t.sawEvicting || (own && evicting)
      sawMiss := t.sawMiss || (own && miss)
      data := if own && !data.isEmpty then some (data, poison) else t.data }
    if t.await.isEmpty then s.finishTxn line t
    else { s with dir := { s.dir with txns := Tbl.put s.dir.txns line t } }

/-! ## Fences (R250, R276) -/

/-- Messages of a fenced cluster's requests and notices, and snoops to it, are gone. -/
def CohMsg.names (m : CohMsg) (c : Nat) : Bool :=
  match m with
  | .req r => r.src == .cluster c || (match r.src with
      | .core k => clusterOf k == c
      | _ => false)
  | .evn x .. => x == c
  | .wrback x .. => x == c
  | .snp _ x .. => x == c
  | .data d .. => d == c
  | .rsp x .. => x == c
  | .gnt x .. => x == c
  | .ackEvn x .. => x == c
  | .pin x _ => x == c
  | .unpin x _ => x == c
  | .abort k _ _ => clusterOf k == c

/-- The directory loses a cluster: every slice masks it, its messages end, and snoops to it count as RSP.MISS. -/
def State.maskCluster (s : State) (c : Nat) : State :=
  let s := s.putBit F.DIR_CL_FENCED.MASK 0 c true
  let s := { s with dir := { s.dir with
    flight := s.dir.flight.filter (fun m => !CohMsg.names m c)
    waits := Tbl.mapVals s.dir.waits (fun _ l => l.filter (fun r => !CohMsg.names (.req r) c)) } }
  let s := { s with mem := { s.mem with queue := s.mem.queue.filter (fun q => q.dst != MemDst.cluster c) } }
  let s := (s.dir.entries.map (·.1)).foldl (fun s line => s.maskEntry c line) s
  let s := (s.dir.txns.map (·.1)).foldl (fun s line => s.rspArrive c line false true false [] false) s
  { s with dir := { s.dir with sweeping := List.range 32 } }

/-! ## Message order -/

/-- The channel a message travels on: requests, notices with responses, snoops with grants and acknowledgements, data,
proof control; with the requester or cluster it belongs to. -/
def CohMsg.chan : CohMsg → Nat × ReqSrc × Nat
  | .req r => (0, r.src, r.line)
  | .evn c l .. => (1, .cluster c, l)
  | .wrback c l .. => (1, .cluster c, l)
  | .rsp c l .. => (1, .cluster c, l)
  | .snp _ c l .. => (2, .cluster c, l)
  | .gnt c l .. => (2, .cluster c, l)
  | .ackEvn c l _ => (2, .cluster c, l)
  | .data d l .. => (3, .cluster d, l)
  | .pin c l => (4, .cluster c, l)
  | .unpin c l => (4, .cluster c, l)
  | .abort k _ _ => (5, .core k, 0)

/-- The oldest message of a channel. -/
def State.headOf (s : State) (ch : Nat × ReqSrc × Nat) : Option CohMsg := s.dir.flight.find? (fun m => m.chan == ch)

/-- That message is taken. -/
def State.takeHead (s : State) (ch : Nat × ReqSrc × Nat) : State :=
  { s with dir := { s.dir with flight := s.dir.flight.eraseP (fun m => m.chan == ch) } }

/-! ## L2 receipt -/

/-- Does an LR window of the cluster defer snoops to the line (R234)? -/
def State.deferred (s : State) (cl line : Nat) : Bool :=
  (coresOf cl).any (fun k => (s.hart k).resv == some line && (s.hart k).resvDefer)

/-- May an L2 take a snoop now: its cluster ON, no LR window, and no granted request of its own still filling? -/
def State.snoopable (s : State) (cl line : Nat) : Bool :=
  s.clusterLive cl && !s.deferred cl line && !(s.l2c cl).pending.any (fun p => p.line == line && p.gnt.isSome)

def State.dataArrive (s : State) (cl line : Nat) (poison evicting : Bool) (d : List (BitVec 8)) : State :=
  let l := s.l2c cl
  (s.setL2 cl { l with pending := l.pending.map (fun p =>
    if p.line = line then { p with data := some (d, poison, evicting) } else p) }).completeReq cl line

def State.gntArrive (s : State) (cl line : Nat) (st : Moesi) (withData : Bool) : State :=
  let l := s.l2c cl
  (s.setL2 cl { l with pending := l.pending.map (fun p =>
    if p.line = line then { p with gnt := some (st, withData) } else p) }).completeReq cl line

/-- A running INV gives up what the leaving buffer has room for (R236, R253); a proof with a mark on a line aborts. -/
def State.invStep (s : State) (cl : Nat) : State :=
  (s.l2c cl).invLeft.foldl (fun s line =>
    if 16 ≤ (s.l2c cl).lb.length then s else
    let l := s.l2c cl
    let s := s.setL2 cl { l with invLeft := l.invLeft.erase line }
    let s := (coresOf cl).foldl (fun s k => if (s.hart k).marks line then s.proofAbort k 2 0 0 [line] else s) s
    s.l2Evict cl line) s

/-- ACK_EVN (R236, R253, R275). -/
def State.ackArrive (s : State) (cl line : Nat) (wb : Bool) : State :=
  let l := s.l2c cl
  State.invStep (cl := cl) <| s.setL2 cl (if wb then { l with flushLeft := l.flushLeft.erase line }
    else if l.lb.any (fun e => e.line == line) then { l with lb := l.lb.filter (fun e => e.line ≠ line) }
    else { l with aborted := l.aborted.erase line })

/-- A cluster's bit of the pin mask is set or cleared. -/
def DirEntry.pinned (e : DirEntry) (c : Nat) (on : Bool) : DirEntry :=
  { e with pins := (if on then [c] else []) ++ e.pins.filter (· ≠ c) }

/-- PIN and UNPIN (R276); a fenced cluster's PIN is ignored. -/
def State.pinArrive (s : State) (c line : Nat) (on : Bool) : State :=
  if on && s.fbit F.DIR_CL_FENCED.MASK 0 c then s else
  { s with dir := { s.dir with entries := Tbl.mapVals s.dir.entries (fun l e => if l = line then e.pinned c on else e) } }

/-- An abort reaches a younger remote requester (R274): its proof aborts if it is still the one that asked. -/
def State.abortArrive (s : State) (k ts line : Nat) : State :=
  match (s.hart k).proof with
  | some p => if p.timestamp = ts && !p.committing then s.proofAbort k 1 line 0 else s
  | none => s

/-- A message is delivered. -/
def State.deliverMsg (s : State) (m : CohMsg) : State :=
  match m with
  | .req r => s.serveReq r
  | .evn c l d p x => s.noticeArrive l { cluster := c, dirty := d, poison := p, data := x }
  | .wrback c l p x => s.wrbackArrive c l p x
  | .snp k c l q t e => s.snoop c { line := l, kind := k, evict := e, requester := q, tag := t, holders := [] }
  | .data c l p e x => s.dataArrive c l p e x
  | .rsp c l d mi e x p => s.rspArrive c l d mi e x p
  | .gnt c l st w => s.gntArrive c l st w
  | .ackEvn c l w => s.ackArrive c l w
  | .pin c l => s.pinArrive c l true
  | .unpin c l => s.pinArrive c l false
  | .abort k ts l => s.abortArrive k ts l

/-- Can a message be delivered now? -/
def State.cohReady (s : State) (m : CohMsg) : Bool :=
  match m with
  | .req r => s.mayServe r.line
  | .snp _ c l .. => s.snoopable c l
  | .evn _ l .. => s.sliceReady (homeSlice l)
  | .wrback _ l .. => s.sliceReady (homeSlice l)
  | _ => true

/-! ## Controllers at work (R338, R339, R348, R349) -/

/-- The data of a cluster's read goes to its L2. -/
def State.fillFrom (s : State) (q : MemReq) (c : Nat) (sh : Sheet) : State :=
  s.send (.data c (2 * q.sheet + b2n q.upper) (sh.bad q.upper) false (sh.line q.upper))

/-- A compute die's read (R339): a sheet with zero syndrome is answered at once; otherwise the raw sheet goes to the die
and a copy waits in the pending-correction table, or, with the table full, the hub decoder corrects. -/
def State.dieRead (s : State) (q : MemReq) (c : Nat) : State :=
  let n := q.sheet
  let ctl := s.controllerOf n
  let t := s.strengthOf n
  let code := s.codeOf n
  if s.walking n || code.quiet t || 32 ≤ (s.corrOf ctl).length then
    let (sh, s) := s.hubRead n
    s.fillFrom q c sh
  else
    let d := s.memNat (256 * n) 256
    let s := (s.inc F.MEM_CTL_CNT1.DIE_CORR ctl).setCorr ctl (s.corrOf ctl ++ [PendCorr.mk n (c / 4) d code])
    { s with mem := { s.mem with raw := s.mem.raw ++ [RawSheet.mk (c / 4) q d code t] } }

/-- The oldest request for sheet `n` at its controller is served; a controller in RET is woken first. -/
def State.memServe (s : State) (n : Nat) : State :=
  match s.mem.queue.find? (fun q => q.sheet == n) with
  | none => s
  | some q =>
    let d := ctlDom (s.controllerOf n)
    if s.rd F.PWR_DOM_STATUS.STATE d = 1 then s.wake d 3
    else if !s.domOn d || (q.write && s.walking n) then s
    else
      let s := { s with mem := { s.mem with queue := s.mem.queue.eraseP (fun q => q.sheet == n) } }
      if q.write then s.sheetWrite n q.bytes q.poison
      else match q.dst with
        | .cluster c => s.dieRead q c
        | .reply r =>
          let (sh, s) := s.hubRead n
          s.ioReply r (some (sh.line q.upper, sh.bad q.upper))
        | .none => (s.hubRead n).2

/-! ## Hub agents' accesses, served to their end (R245) -/

/-- A snoop finds its cluster in RET: the uncore wakes it (R251). -/
def State.snoopWake (s : State) (c : Nat) : State :=
  let d := clusterDom c
  if s.rd F.PWR_DOM_STATUS.STATE d ≠ 1 || s.inTransition d || s.pwr.queue.any (fun t => t.doms.contains d) then s
  else (s.wake d 2).inc F.L2_CNT0.WAKES c

/-- Does a message concern the line? -/
def CohMsg.onLine (m : CohMsg) (line : Nat) : Bool :=
  match m with
  | .pin .. => false
  | .unpin .. => false
  | .abort .. => false
  | m => m.chan.2.2 == line

/-- Is anything under way on a line that an agent's request would have to wait for? -/
def State.lineBusy (s : State) (line : Nat) : Bool :=
  s.lineHeld line || !(Tbl.get s.dir.waits line []).isEmpty || s.dir.flight.any (·.onLine line) ||
    s.mem.queue.any (fun q => q.sheet == line / 2) || s.mem.raw.any (fun q => q.req.sheet == line / 2) ||
    s.l2.any (fun l => l.2.pending.any (fun p => p.line == line) || l.2.held.any (fun h => h.line == line))

/-- One move on a line: the next cohReady message, the controller, or the next waiter. -/
def State.pumpOne (s : State) (line : Nat) : State :=
  let ready (m : CohMsg) : Bool := m.onLine line && s.headOf m.chan == some m && s.cohReady m
  match s.dir.flight.find? ready with
  | some m => (s.takeHead m.chan).deliverMsg m
  | none =>
    if s.mem.queue.any (fun q => q.sheet == line / 2) then s.memServe (line / 2)
    else
      let s := s.dir.flight.foldl (fun s m => match m with
        | .snp _ c l .. => if l = line then s.snoopWake c else s
        | _ => s) s
      s.serveWaiter line

/-- Moves on a line until its agent's request has been answered, as far as nothing else is needed. -/
def State.pump (s : State) (line : Nat) : Nat → State
  | 0 => s
  | n + 1 => if s.lineBusy line then (s.pumpOne line).pump line n else s

/-- An agent's request on one line, served to its end: its reply, or none while it has to wait. -/
def State.agentLine (s : State) (r : Request) : Option (Option (List (BitVec 8) × Bool)) × State :=
  let mine (x : Request × Option (List (BitVec 8) × Bool)) : Bool :=
    x.1.src == r.src && x.1.kind == r.kind && x.1.line == r.line && x.1.wr == r.wr
  let take (s : State) : Option (Option (List (BitVec 8) × Bool)) × State :=
    match s.dir.replies.find? mine with
    | some x => (some x.2, { s with dir := { s.dir with replies := s.dir.replies.eraseP mine } })
    | none => (none, s)
  match take s with
  | (some d, s) => (some d, s)
  | (none, s) =>
    if s.lineBusy r.line || !s.mayServe r.line then (none, s) else take ((s.serveReq r).pump r.line 256)

end Sys2Proof.Machine
end

