-- ==== Sys2Proof/Machine/Agent.lean ====
section
/-!
DEFINITION. Reads and writes of device memory by the hub's own agents: the fabric's checks, then one IO_RD or IO_WR per
line, each served to its end in the home slice (R239, R245, R333).
-/

namespace Sys2Proof.Machine

/-- Answer to an agent's read: the bytes, the poisoned lines among those read, and a refusal. -/
structure AgentAns where
  data : List (BitVec 8)
  bad : List Nat
  why : Denial
  deriving DecidableEq, Repr

/-- Line pieces of a byte range: line, offset in the line, length, offset in the range. -/
def linePieces (pa len : Nat) : List (Nat × Nat × Nat × Nat) :=
  if len = 0 then [] else
  (List.range ((pa + len - 1) / 128 - pa / 128 + 1)).map (fun k =>
    let line := pa / 128 + k
    let lo := max pa (128 * line)
    let hi := min (pa + len) (128 * line + 128)
    (line, lo - 128 * line, hi - lo, lo - pa))

/-- The fabric's answer to a range: that of its first refused plate. -/
def State.rangeDenial (s : State) (secure : Bool) (pa len : Nat) : Denial × Nat :=
  match ((platesOf pa len).map (fun a => max a pa)).find? (fun a => s.fabricCheck secure a ≠ .none) with
  | some a => (s.fabricCheck secure a, a)
  | none => (.none, pa)

def ioRequest (agent line : Nat) (kind : DirReq) (wr : Tbl Nat (BitVec 8)) (poison : Bool) : Request :=
  { kind := kind, line := line, src := .agent agent, tag := none, wr := wr, wrPoison := poison, id := 0, off := 0, len := 128 }

/-- An agent reads a range. -/
def State.devRead (s : State) (agent : Nat) (secure : Bool) (pa len : Nat) : AgentAns × State :=
  let (why, at') := s.rangeDenial secure pa len
  if why ≠ .none then ({ data := [], bad := [], why := why }, s.countDenial why at') else
  (linePieces pa len).foldl (fun (acc : AgentAns × State) x =>
    if acc.1.why ≠ .none then acc else
    match acc.2.agentLine (ioRequest agent x.1 .ioRd [] false) with
    | (some (some (d, bad)), s) =>
      ({ acc.1 with data := acc.1.data ++ lineCut d x.2.1 x.2.2.1, bad := acc.1.bad ++ (if bad then [x.1] else []) }, s)
    | (_, s) => ({ acc.1 with why := .busy }, s)) ({ data := [], bad := [], why := .none }, s)

/-- An agent writes a range. -/
def State.devWrite (s : State) (agent : Nat) (secure : Bool) (pa : Nat) (data : List (BitVec 8)) (poison : Bool) : Denial × State :=
  let (why, at') := s.rangeDenial secure pa data.length
  if why ≠ .none then (why, s.countDenial why at') else
  (linePieces pa data.length).foldl (fun (acc : Denial × State) x =>
    if acc.1 ≠ .none then acc else
    let wr := ((lineCut data x.2.2.2 x.2.2.1).zipIdx.map (fun p => (x.2.1 + p.2, p.1)))
    match acc.2.agentLine (ioRequest agent x.1 .ioWr wr poison) with
    | (some _, s) => (.none, s)
    | (none, s) => (.busy, s)) (.none, s)

end Sys2Proof.Machine
end

