-- ==== Sys2Proof/Machine/DieLost.lean ====
section
/-!
DEFINITION. What the loss of a die does: group aborts, masked clusters, corrections taken over, guest accesses ended;
a core's return to HELD; and the end of a core's device access (R38, R40, R212, R213, R215, R280, R340, R357).
-/

namespace Sys2Proof.Machine

/-! ## Groups (R278, R280) -/

/-- State codes of R280. -/
abbrev gsFREE : Nat := 0
abbrev gsOPEN : Nat := 1
abbrev gsCOMMITTING : Nat := 2
abbrev gsABORTING : Nat := 3

def State.groupState (s : State) (g : Nat) : Nat := s.rd F.PRF_GRP_STATUS.STATE g

/-- An OPEN group goes to ABORTING (R280): `core` started it with `cause`; every joined participant still open aborts
with `other`, and the held doorbells are discarded. -/
def State.groupAbort (s : State) (g core cause other : Nat) : State :=
  match Tbl.find s.groups g with
  | none => s
  | some x =>
    if s.groupState g ≠ gsOPEN then s else
    let s := ((s.wr F.PRF_GRP_STATUS.STATE g gsABORTING).wr F.PRF_GRP_STATUS.LAST_CAUSE g cause).wr
      F.PRF_GRP_INFO.LAST_ABORT_CORE g core
    let s := x.joined.foldl (fun s k =>
      if (s.hart k).proof.any (fun p => p.group == some g) then s.proofAbort k other 0 0 else s) s
    let s := s.wr F.PRF_GRP_INFO.DB_HELD g 0
    match Tbl.find s.groups g with
    | some x => { s with groups := Tbl.put s.groups g { x with doorbells := [], aborts := [] } }
    | none => s

/-- Groups with a joined core for which `p` holds. -/
def State.groupsWith (s : State) (p : Nat → Bool) : List Nat := (s.groups.filter (fun g => g.2.joined.any p)).map (·.1)

/-! ## A core returns to HELD (R212, R213, R293) -/

/-- The L2 clears a hart's bits in one cycle: its lines become visible, UNPIN is sent, and held snoops are answered
(R269, R284). -/
def State.clearProof (s : State) (k : Nat) : State :=
  match (s.hart k).proof with
  | none => s
  | some p =>
    let s := (s.setHart k { s.hart k with proof := none }).wr F.CORE_STATUS.PRF_OPEN k 0
    (s.unpin (clusterOf k) (p.reads ++ p.writes).eraseDups).releaseHeld k []

/-- An open proof ends as the core goes: with FENCE, its group aborting, or, past its commit point, by the commit. -/
def State.endProof (s : State) (k : Nat) : State :=
  match (s.hart k).proof with
  | none => s
  | some p =>
    if p.committing then s.clearProof k else
    let s := s.proofAbort k 10 0 0
    match p.group with
    | some g => s.groupAbort g k 10 8
    | none => s

def State.coreHeld (s : State) (k : Nat) : State :=
  let s := s.endProof k
  let s := s.setHart k Hart.init
  let s := { s with dbg := { s.dbg with halted := Tbl.erase s.dbg.halted k } }
  let s := (((s.wr F.CORE_STATUS.STATE k 1).wr F.CORE_STATUS.NS k 0).wr F.CORE_STATUS.PRIV k 3).wr F.CORE_STATUS.LOOP_FAULT k 0
  (((s.wr F.CORE_STATUS.PRF_OPEN k 0).wr F.CORE_CTL.RUN k 0).wr F.CORE_CTL.CORE_RESET k 0).wr F.CORE_IRQ_CNT.FIFO_FULL k 0

/-! ## A core's device access ends (R215, R216, R357) -/

/-- Bytes reach a load's destination, sign- or zero-extended, and the load retires. -/
def State.ioLoad (s : State) (k : Nat) (a : IoAccess) (v : Nat) : State :=
  (s.setHart k { (s.hart k).loadTo a.dst a.size a.sext v with io := none }).retire k a.i.next

/-- A core's host-window or guest access ends: with the data read, or with none where it failed, which is a load access
fault for a read.  A write waits here only for its translation (R378): where that is refused, the write is dropped and
the store retires, for it never faults. -/
def State.ioDone (s : State) (k : Nat) (data : Option (List (BitVec 8))) : State :=
  match (s.hart k).io with
  | none => s
  | some a =>
    if a.write then
      let s := s.setHart k { s.hart k with io := none }
      if (s.hart k).pc = a.i.pc then s.retire k a.i.next else s
    else
    match data with
    | some d => s.ioLoad k a (leAt d 0 a.size)
    | none =>
      let s := s.setHart k { s.hart k with io := none }
      s.exception k 5 a.i.va a.i.pc

/-- A core's host-window read returned poisoned data (R217, R382). -/
def State.ioPoison (s : State) (k : Nat) : State :=
  match (s.hart k).io with
  | none => s
  | some a => (s.setHart k { s.hart k with io := none }).exception k 24 a.i.va a.i.pc (lineOf a.pa)

/-! ## Corrections (R339, R340) -/

/-- The controller corrects its held copy of a sheet and writes it back: the outcome counts as at any read. -/
def State.hubCorrect (s : State) (e : PendCorr) : State :=
  let c := s.controllerOf e.sheet
  let sh := decodeSheet (s.strengthOf e.sheet) e.sheet e.data e.code
  let s := s.setCorr c ((s.corrOf c).filter (fun x => !(x.sheet == e.sheet && x.die == e.die)))
  let s := (s.countOutcome e.sheet sh.out).inc F.MEM_CTL_CNT1.HUB_CORR c
  if sh.out = .corrected then s.putSheet e.sheet sh.data sh.lower sh.upper else s

/-- Every entry that waits for die `n`'s write-back. -/
def State.corrLost (s : State) (n : Nat) : State :=
  let es := (s.mem.corr.flatMap (·.2)).filter (fun e => e.die == n)
  let s := es.foldl State.hubCorrect s
  { s with mem := { s.mem with
    raw := s.mem.raw.filter (fun r => r.die ≠ n)
    reports := s.mem.reports.filter (fun r => match r with
      | .writeBack d _ _ => d ≠ n
      | .ue d _ _ => d ≠ n) } }

/-! ## A die is lost (R38, R40) -/

/-- Commit acknowledgements that a lost die's cores owe are not waited for. -/
def State.acksLost (s : State) (n : Nat) : State :=
  { s with groups := Tbl.mapVals s.groups (fun _ x => { x with acks := x.acks.filter (fun k => siteOf k ≠ n) }) }

/-- A guest is lost: OPEN clears, its waiting requests vanish, and core accesses to it end without data. -/
def State.guestLost (s : State) (g : Nat) : State :=
  let x := s.guest g
  let s := (s.wr F.STN_CFG.OPEN g 0).setGuest g { x with waiting := [], access := [] }
  ((x.access.filter (fun a => !a.write)).map (·.core)).foldl (fun s k => s.ioDone k none) s

/-- The die of hub port `n` is fenced, or was reset (R38, R40): every group with a participant on it aborts with FENCE,
as do its own proofs; its clusters are masked in the directory; its corrections are taken over by the controllers. -/
def State.dieLost (s : State) (n : Nat) (_fence : Bool) : State :=
  if n < 12 then
    let s := (s.groupsWith (fun k => siteOf k == n)).foldl (fun s g =>
      let core := match Tbl.find s.groups g with
        | some x => (x.joined.find? (fun k => siteOf k == n)).getD 0
        | none => 0
      s.groupAbort g core 10 10) s
    let s := ((List.range 48).map (48 * n + ·)).foldl (fun s k =>
      if (s.hart k).proof.any (fun p => !p.committing) then s.proofAbort k 10 0 0 else s) s
    let s := (List.range 4).foldl (fun s c => s.maskCluster (4 * n + c)) s
    (s.acksLost n).corrLost n
  else s.guestLost (n - 12)

/-- Are a die's clusters masked in the directory (R250)? -/
def State.dieMasked (s : State) (n : Nat) : Bool := n < 12 && s.fbit F.DIR_CL_FENCED.MASK 0 (4 * n)

/-- The cluster bits clear when the die is admitted (R250). -/
def State.dieUnmask (s : State) (n : Nat) : State :=
  if n < 12 then (List.range 4).foldl (fun s c => s.putBit F.DIR_CL_FENCED.MASK 0 (4 * n + c) false) s else s

end Sys2Proof.Machine
end

