-- ==== Sys2Proof/Machine/RingOps.lean ====
section
/-!
DEFINITION. The shared operations on rings: sizes, state, ending and abandoning a command, halting, completion entries
and signalling (R389, R400 to R406).
-/

namespace Sys2Proof.Machine

/-! ## Status codes (R406) -/

abbrev csOK : Nat := 0
abbrev csINVALID : Nat := 1
abbrev csQUOTA : Nat := 2
abbrev csSTALE : Nat := 3
abbrev csSPOOF : Nat := 4
abbrev csTIMEOUT : Nat := 5
abbrev csPOISON : Nat := 6
abbrev csSPACE : Nat := 7
abbrev csABSENT : Nat := 8
abbrev csABORTED : Nat := 9
abbrev csDENIED : Nat := 10
abbrev csBUSY : Nat := 11

/-- Ring states of R403. -/
abbrev rsDISABLED : Nat := 0
abbrev rsRUNNING : Nat := 1
abbrev rsHALTED : Nat := 2

def State.ringState (s : State) (r : Nat) : Nat := s.rd F.HIF_RING_ST.STATE r
def State.sqSize (s : State) (r : Nat) : Nat := 2 ^ s.rd F.HIF_RING_CFG.SQ_LOG r
def State.cqSize (s : State) (r : Nat) : Nat := 2 ^ s.rd F.HIF_RING_CFG.CQ_LOG r
def State.sqBase (s : State) (r : Nat) : Nat := s.rd F.HIF_RING_SQ.BASE r * 2 ^ 10
def State.cqBase (s : State) (r : Nat) : Nat := s.rd F.HIF_RING_CQ.BASE r * 2 ^ 9
def State.ringSlice (s : State) (r : Nat) : Nat := s.rd F.HIF_RING_CFG.SLICE r
def State.ringPort (s : State) (r : Nat) : Nat := s.rd F.HIF_RING_CFG.PORT r

/-- A ring takes a state; HIF_RING_HALTED and the HALTED count follow (R416). -/
def State.ringGo (s : State) (r st : Nat) : State :=
  let was := s.ringState r == rsHALTED
  let is := st == rsHALTED
  let s := s.wr F.HIF_RING_ST.STATE r st
  let s := s.putBit F.HIF_RING_HALTED.MAP (r / 64) (r % 64) is
  if was == is then s
  else s.wr F.HIF_RING_STATUS.HALTED 0 (if is then s.rd F.HIF_RING_STATUS.HALTED + 1 else s.rd F.HIF_RING_STATUS.HALTED - 1)

/-! ## The command in execution -/

/-- The descriptor of the ring's command, empty where it has none. -/
def State.desc (s : State) (r : Nat) : List (BitVec 8) :=
  match (s.ring r).cur with
  | some c => c.desc
  | none => []

/-- The ring's command ends with a status and results; its completion is then due (R400, R413).  With HALT_ON_ERR and a
status other than OK the ring will halt with cause 0x3 (R404). -/
def State.finish (s : State) (r status : Nat) (r0 : Nat := 0) (r1 : Nat := 0) (r2 : Nat := 0) : State :=
  let x := s.ring r
  match x.cur with
  | none => s
  | some c =>
    let halt := if status ≠ 0 && (byteAt c.desc 1).testBit 2 then some 3 else c.halt
    s.setRing r { x with cur := some { c with done := some (status, r0, r1, r2), halt := halt }, buf := [] }

/-- The ring's command is held by a unit and has not ended. -/
def State.start (s : State) (r : Nat) : State :=
  let x := s.ring r
  match x.cur with
  | none => s
  | some c => s.setRing r { x with cur := some { c with started := true } }

/-- Is the ring's current command, not yet ended, one of opcode `op`?  (For commands that reach their unit once.) -/
def State.hasCmd (s : State) (r op : Nat) : Bool :=
  s.ringLive && r < 8192 &&
  match (s.ring r).cur with
  | some c => byteAt c.desc 0 == op && c.done.isNone && !c.started
  | none => false

/-! ## Abandoning what a unit holds (R311, R320, R322) -/

/-- STP_STATUS.BUSY follows the running jobs. -/
def State.stpBusy (s : State) : State :=
  s.wr F.STP_STATUS.BUSY 0 (s.stp.running.foldl (fun b j => setBit b (j.engine.getD 16)) 0 % 2 ^ 16)

/-- OVER_QUOTA clears once USED falls below SHARE, and HIF_SLICE_STATUS mirrors it (R312, R425). -/
def State.shareSettle (s : State) (sl : Nat) : State :=
  if s.is F.STP_SLICE_SHARE.OVER_QUOTA sl && s.rd F.STP_SLICE_SHARE.USED sl < s.rd F.STP_SLICE_SHARE.SHARE sl then
    (s.wr F.STP_SLICE_SHARE.OVER_QUOTA sl 0).wr F.HIF_SLICE_STATUS.OVER_STP sl 0
  else s

/-- An engine is free of its job again. -/
def State.engineFree (s : State) (j : StpJob) : State :=
  match j.engine with
  | none => s
  | some e =>
    let s := { s with stp := { s.stp with running := s.stp.running.filter (fun k => k.ring ≠ j.ring) } }
    let s := ((s.wr F.STP_ENG_STATUS.STATE e 0).wr F.STP_ENG_STATUS.SLICE e 0).wr F.STP_ENG_STATUS.RING e 0
    ((s.wr F.STP_SLICE_SHARE.USED j.slice (s.rd F.STP_SLICE_SHARE.USED j.slice - 1)).stpBusy).shareSettle j.slice

/-- A ring's stipple job and Ethernet frames vanish; no END frame is sent (R322). -/
def State.abandonUnits (s : State) (r : Nat) : State :=
  let s := s.when (s.stp.waiting.any (fun j => j.ring == r)) (·.inc F.STP_CNT0.JOBS_FAILED)
  let s := { s with stp := { s.stp with waiting := s.stp.waiting.filter (fun j => j.ring ≠ r) } }
  let s := match s.stp.running.find? (fun j => j.ring == r) with
    | some j => ((s.engineFree j).inc F.STP_CNT0.JOBS_FAILED).when (j.engine.isSome)
        (·.raise F.STP_ENG_STATUS.EVT_FAIL (j.engine.getD 0))
    | none => s
  let s := { s with eth := { s.eth with
    ready := Tbl.mapVals s.eth.ready (fun _ l => l.filter (fun f => f.ring ≠ r || f.kind == EthKind.ended)) } }
  let drop (x : PciePort) : PciePort := { x with
    dma := x.dma.filter (fun d => d.owner ≠ r), xlatReqs := x.xlatReqs.filter (fun d => d.owner ≠ r) }
  { s with hif := { s.hif with p0 := drop s.hif.p0, p1 := drop s.hif.p1 } }

/-! ## Halting (R404) -/

/-- SQ_CI after a halt: the slot after the halting command, or the first slot not executed where none is. -/
def State.haltCi (s : State) (r : Nat) : Nat :=
  let x := s.ring r
  match x.cur with
  | some c => (c.slot + 1) % s.sqSize r
  | none => match x.prefetch with
    | p :: _ => p.slot
    | [] => s.rd F.HIF_RING_IDX.SQ_CI r

/-- A ring halts (R404): the command in execution is abandoned with a status, prefetched descriptors are discarded,
SQ_CI goes to the slot after it.  For cause 0x2 the completion is held for RESUME (R405); otherwise it is due, with
HALTED = 1. -/
def State.halt (s : State) (r cause status : Nat) : State :=
  if s.ringState r ≠ rsRUNNING then s else
  let x := s.ring r
  let ci := s.haltCi r
  let s := s.abandonUnits r
  let user := match x.cur with
    | some c => dget c.desc 4 4
    | none => 0
  let slot := (ci + s.sqSize r - 1) % s.sqSize r
  let cur := match x.cur with
    | some c => if cause = 2 then none
        else some { c with done := some (match c.done with
          | some d => d
          | none => (status, 0, 0, 0)), halt := some cause }
    | none => none
  let held := if cause = 2 && x.cur.isSome then some (slot, user) else none
  let s := s.setRing r { x with prefetch := [], cur := cur, held := held, buf := [] }
  let s := s.wr F.HIF_RING_IDX.SQ_CI r ci
  let s := ((s.wr F.HIF_RING_ST.HALT_STATUS r status).wr F.HIF_RING_ST.HALT_CAUSE r cause).wr F.HIF_RING_ST.HALT_SLOT r slot
  (s.ringGo r rsHALTED).raise F.HIF_RING_STATUS.EVT_HALT

/-- A command ends and halts its ring at once (R378, R381, R382): the status is that of its completion. -/
def State.failHalt (s : State) (r cause status : Nat) : State := s.halt r cause status

/-- Every RUNNING ring, by number. -/
def State.runningRings (s : State) : List Nat :=
  (s.regs.filterMap (fun e => if e.1.reg == Reg.HIF_RING_ST && e.1.lo == 0 && e.2 == rsRUNNING then some e.1.idx else none))

/-- Every RUNNING ring bound to port `p` halts with cause 0x2 (R383, R384). -/
def State.haltPort (s : State) (p : Nat) : State :=
  s.runningRings.foldl (fun s r => if s.ringPort r = p then s.halt r 2 csABORTED else s) s

/-! ## Signalling (R402) -/

/-- The ring signals its vector: the pending count clears. -/
def State.ringSignal (s : State) (r : Nat) : State :=
  (s.setRing r { s.ring r with pend := 0 }).msix (s.ringPort r) (s.rd F.HIF_RING_IRQ.VECTOR r)

/-- Does a ring with a pending completion signal now (the time threshold apart)? -/
def State.signalDue (s : State) (r : Nat) (irq halted : Bool) : Bool :=
  let n := s.rd F.HIF_RING_IRQ.MOD_COUNT r
  let pend := (s.ring r).pend
  s.is F.HIF_RING_IRQ.IRQ_EN r && pend ≠ 0 &&
    (irq || (n ≠ 0 && n ≤ pend) || (n = 0 && s.rd F.HIF_RING_IRQ.MOD_TIME r = 0) || halted)

/-- Bytes of a completion entry (R400). -/
def cplBytes (slot status : Nat) (phase halted : Bool) (user r0 r1 r2 : Nat) : List (BitVec 8) :=
  natLE 2 slot ++ natLE 1 status ++ natLE 1 (b2n phase + 2 * b2n halted) ++ natLE 4 user ++ natLE 8 r0 ++ natLE 8 r1 ++
    natLE 8 r2

/-- Has the completion ring room (R389)? -/
def State.cqRoom (s : State) (r : Nat) : Bool :=
  (s.rd F.HIF_RING_IDX.CQ_PI r + 1) % s.cqSize r ≠ s.rd F.HIF_RING_IDX.CQ_CI r

end Sys2Proof.Machine
end

