-- ==== Sys2Proof/Machine/PcieOps.lean ====
section
/-!
DEFINITION. The shared operations of the PCIe ports: configuration dwords, error logging, DMA with its PASID and
translation, and the reset of a port's function (R367 to R384).
-/

namespace Sys2Proof.Machine

/-! ## Configuration space (R367 to R374); offsets inside standard capabilities are those of PCI Express (log 20) -/

/-- A configuration dword as software last left it, its default where unlisted. -/
def cfgDefault (off : Nat) : Nat :=
  match off with
  | 0x78 => 0x2810
  | 0x108 => 0x00400000
  | 0x10C => 0x00462030
  | 0x114 => 0x0000E000
  | _ => 0

def State.cfg (s : State) (p off : Nat) : Nat := Tbl.get (s.port p).cfg off (cfgDefault off)

def State.setCfg (s : State) (p off v : Nat) : State :=
  let x := s.port p
  s.setPort p { x with cfg := Tbl.set x.cfg off (v % 2 ^ 32) (cfgDefault off) }

/-- PASID Enable, ATS Enable, Bus Master Enable and Enable Relaxed Ordering of a port. -/
def State.pasidOn (s : State) (p : Nat) : Bool := (s.cfg p 0x19C).testBit 16
def State.atsOn (s : State) (p : Nat) : Bool := (s.cfg p 0x1A4).testBit 31
def State.busMaster (s : State) (p : Nat) : Bool := (s.cfg p 0x04).testBit 2
def State.roOn (s : State) (p : Nat) : Bool := (s.cfg p 0x78).testBit 4

/-- Smallest translation page of a port: 2^(12 + STU) bytes (R378). -/
def State.pageBits (s : State) (p : Nat) : Nat := 12 + bits (s.cfg p 0x1A4) 16 5

/-! ## Errors (R382) -/

/-- AER status bit of an uncorrectable error, by its name in R382 (bit numbers of PCI Express). -/
inductive UncErr where
  | poisoned | cplTimeout | abort | unexpected | unsupported | malformed | flowControl | overflow | dataLink | internal
  deriving DecidableEq, Repr

def UncErr.bit : UncErr → Nat
  | .dataLink => 4
  | .poisoned => 12
  | .flowControl => 13
  | .cplTimeout => 14
  | .abort => 15
  | .unexpected => 16
  | .overflow => 17
  | .malformed => 18
  | .unsupported => 20
  | .internal => 22

/-- A correctable error: its status bit, CORR and EVT_CORR. -/
def State.aerCor (s : State) (p bitNo : Nat) : State :=
  let s := s.setCfg p 0x110 (setBit (s.cfg p 0x110) bitNo)
  (s.inc F.HIF_PORT_CNT0.CORR p).raise F.HIF_PORT_STATUS.EVT_CORR p

/-- The Header Log takes the header of the first unmasked uncorrectable error (R382). -/
def State.headerLog (s : State) (p bitNo : Nat) (hdr : List Nat) : State :=
  let mask := s.cfg p 0x108
  let open' := (List.range 32).all (fun k => !(s.cfg p 0x104).testBit k || mask.testBit k)
  if mask.testBit bitNo || !open' then s else
  (List.range 4).foldl (fun s k => s.setCfg p (0x11C + 4 * k) (hdr.getD k 0)) s

/-- An uncorrectable error (R382): logged; counted as fatal where its severity is fatal, else as non-fatal. -/
def State.aerUnc (s : State) (p : Nat) (e : UncErr) (hdr : List Nat) : State :=
  let s := s.headerLog p e.bit hdr
  let s := s.setCfg p 0x104 (setBit (s.cfg p 0x104) e.bit)
  if (s.cfg p 0x10C).testBit e.bit then (s.inc F.HIF_PORT_CNT0.FATAL p).raise F.HIF_PORT_STATUS.EVT_FATAL p
  else (s.inc F.HIF_PORT_CNT0.NONFATAL p).raise F.HIF_PORT_STATUS.EVT_NONFATAL p

/-! ## DMA (R377 to R379) -/

/-- PASID of slice `sl`'s DMA on a port: none for slice 0 while PASID Enable is 0 (R377). -/
def State.pasidOf (s : State) (p sl : Nat) : Option Nat :=
  if sl = 0 && !s.pasidOn p then none else some (s.rd F.HIF_SLICE_CFG.PASID sl)

/-- May slice `sl` use the port for DMA: with PASID Enable 0 only slice 0 may (R377). -/
def State.pasidOk (s : State) (p sl : Nat) : Bool := sl == 0 || s.pasidOn p

/-- Can the port issue DMA now: link up, Bus Master Enable, D0, no function reset? -/
def State.dmaReady (s : State) (p : Nat) : Bool :=
  s.pcieLive p && s.is F.HIF_PORT_STATUS.LINK_UP p && s.busMaster p && s.rd F.HIF_PORT_STATUS.DSTATE p == 0 && !(s.port p).flr

/-- Pages of a byte range at the port's translation unit. -/
def State.pagesOf (s : State) (p addr len : Nat) : List Nat :=
  let b := s.pageBits p
  if len = 0 then [] else
  (List.range ((addr + len - 1) / 2 ^ b - addr / 2 ^ b + 1)).map (addr / 2 ^ b + ·)

/-- The cached translation of a page, if it grants the access. -/
def State.xlatHit (s : State) (p : Nat) (pasid : Option Nat) (page : Nat) (write : Bool) : Option Xlat :=
  (s.port p).cache.find? (fun x => x.pasid == pasid && x.page == page && (if write then x.write else x.read))

/-- A new tag of the port, and the port with its counter moved on (10-bit tags, R368). -/
def PciePort.takeTag (x : PciePort) : Nat × PciePort := (x.nextTag, { x with nextTag := (x.nextTag + 1) % 1024 })

/-- Non-posted requests outstanding on a port (R368). -/
def PciePort.outstanding (x : PciePort) : Nat := x.dma.length + x.xlatReqs.length

/-- Translations of a range: with ATS off none are needed; otherwise each missing one is requested, and the access
waits.  The Boolean says whether the access may go. -/
def State.xlatRange (s : State) (p owner : Nat) (pasid : Option Nat) (addr len : Nat) (write : Bool) : Bool × State :=
  if !s.atsOn p then (true, s) else
  let miss := (s.pagesOf p addr len).filter (fun g => (s.xlatHit p pasid g write).isNone)
  let s := miss.foldl (fun s g =>
    let x := s.port p
    if x.xlatReqs.any (fun q => q.pasid == pasid && q.page == g && q.owner == owner) || 768 ≤ x.outstanding then s else
    let (tag, x) := x.takeTag
    let s := s.setPort p { x with xlatReqs := x.xlatReqs ++
      [Xlat.mk tag owner pasid g 0 (!write) write] }
    s.sendTlp p (.xlatReq tag pasid g)) s
  (miss.isEmpty, s)

/-- A DMA read is issued (R378, R379), unless one for the same bytes of the same owner is outstanding. -/
def State.dmaRead (s : State) (p owner sl addr len : Nat) (ro : Bool) : State :=
  if !s.dmaReady p then s else
  let pasid := s.pasidOf p sl
  let (go, s) := s.xlatRange p owner pasid addr len false
  let x := s.port p
  if !go || 768 ≤ x.outstanding || x.dma.any (fun d => d.owner == owner && d.addr == addr && d.len == len) then s else
  let (tag, x) := x.takeTag
  let ro := ro && s.roOn p
  let s := s.setPort p { x with dma := x.dma ++ [DmaRead.mk tag owner addr len pasid ro (s.atsOn p)] }
  s.sendTlp p (.memRead tag addr len pasid ro (s.atsOn p))

/-- A DMA write joins the port's posted traffic in issue order (R379); its translations must be held. -/
def State.dmaWrite (s : State) (p sl addr : Nat) (data : List (BitVec 8)) (ro : Bool) : State :=
  s.sendTlp p (.memWrite addr (s.pasidOf p sl) (ro && s.roOn p) data)

/-! ## Links and resets of a port (R383, R384) -/

/-- The link goes from DL_Active to DL_Down, whatever the cause (R388). -/
def State.linkDown (s : State) (p : Nat) : State :=
  if !s.is F.HIF_PORT_STATUS.LINK_UP p then s else
  let s := ((s.wr F.HIF_PORT_STATUS.LINK_UP p 0).wr F.HIF_PORT_STATUS.SPEED p 0).wr F.HIF_PORT_STATUS.WIDTH p 0
  let s := (s.wr F.HIF_PORT_STATUS.FLIT p 0).wr F.HIF_PORT_STATUS.DEGRADED p 0
  (s.inc F.HIF_PORT_CNT2.LINK_DOWNS p).raise F.HIF_PORT_STATUS.EVT_LINK p

/-- AER uncorrectable and correctable status, mask, severity and log dwords, whose bits are sticky (R383). -/
def aerSticky (off : Nat) : Bool := 0x104 ≤ off && off ≤ 0x128

/-- A port after the reset of its function (R383): non-sticky configuration is cleared, queued writes are discarded and
outstanding reads are gone.  `keepBar` keeps the BAR sizes (FLR, R384). -/
def PciePort.cleared (x : PciePort) (keepBar : Bool) : PciePort :=
  { x with
    cfg := x.cfg.filter (fun e => aerSticky e.1)
    bar2 := if keepBar then x.bar2 else 0
    bar4 := if keepBar then x.bar4 else 10
    internalErr := false
    dma := []
    xlatReqs := []
    cache := []
    inval := []
    out := []
    doe := DoeBox.init }

/-- The port's MSI-X table and pending bits at their reset values. -/
def State.clearMsix (s : State) (p : Nat) : State :=
  { s with regs := s.regs.filter (fun e => !(((e.1.reg == Reg.MSIX_ADDR || e.1.reg == Reg.MSIX_CTL) && e.1.idx / 2048 == p) ||
      (e.1.reg == Reg.MSIX_PBA && e.1.idx / 32 == p))) }

/-- Cores whose host-window read waits on port `p` are told that it failed. -/
def State.failCoreReads (s : State) (p : Nat) : State :=
  let owners := ((s.port p).dma.map (·.owner) ++ (s.port p).xlatReqs.map (·.owner)).filter (fun o => decide (8192 ≤ o))
  owners.eraseDups.foldl (fun s o => s.ioDone (o - 8192) none) s

/-- The read of core `k` that waits in `io` is sent, or asks for its translation (R215, R378); it fails where the port
cannot issue it. -/
def State.coreDma (s : State) (k : Nat) : State :=
  match (s.hart k).io with
  | some a => if a.write then s else
    let sl := s.coreSlice k
    let p := s.rd F.HIF_SLICE_CFG.PORT sl
    if !s.dmaReady p || !s.pasidOk p sl then s.ioDone k none else s.dmaRead p (8192 + k) sl a.pa a.size false
  | none => s

/-- The reset of a port's function with the effects of R383: its rings halt, its reads end, its configuration clears. -/
def State.functionReset (s : State) (p : Nat) (keepBar : Bool) : State :=
  let s := (s.haltPort p).failCoreReads p
  let s := (s.setPort p ((s.port p).cleared keepBar)).clearMsix p
  (s.wr F.HIF_PORT_STATUS.DSTATE p 0).raise F.HIF_PORT_STATUS.EVT_RESET p

/-- A conventional reset of a port (R383, R387): an FLR in progress ends unfinished. -/
def State.conventionalReset (s : State) (p : Nat) : State :=
  let s := s.functionReset p false
  s.setPort p { s.port p with flr := false }

end Sys2Proof.Machine
end

