-- ==== Sys2Proof/Machine/Alern.lean ====
section
/-!
DEFINITION. The Alern links: base mode, capability exchange, identity checks, native training, service, retraining,
fencing and the port registers (R16 to R47, R450).  A logical port `lp` is 2n for port P, or the single guest port,
of hub port n, and 2n + 1 for its port Q.
-/

namespace Sys2Proof.Machine

/-! ## Straps and remap (R16, R20, R21) -/

/-- ORIENT code of a compute site (R16). -/
def orientOf (n : Nat) : Nat := if n < 3 then 5 else if n < 6 then 1 else if n < 9 then 7 else 3

/-- Logical cluster of physical quadrant `q` under orientation code `o` (R21). -/
def logicalCluster (o q : Nat) : Nat :=
  if o = 2 || o = 3 || o = 4 || o = 5 then q / 2 * 2 + (1 - q % 2) else q

/-- Physical port that is logical P under orientation code `o` (R20). -/
def physicalP (o : Nat) : Nat := o / 4

/-- Physical data lane of logical lane `i`, and physical spare of logical spare `i`, under orientation code `o` (R20). -/
def physicalLane (o i : Nat) : Nat := if o < 4 then i else 63 - i
def physicalSpare (o i : Nat) : Nat := if o < 4 then i else 3 - i

/-! ## Port state (R44) -/

/-- State codes of R44. -/
abbrev stDISABLED : Nat := 0
abbrev stBASE : Nat := 1
abbrev stCAP : Nat := 2
abbrev stCHECK : Nat := 3
abbrev stNATIVE : Nat := 4
abbrev stMARKER : Nat := 5
abbrev stUP : Nat := 6
abbrev stRETRAIN : Nat := 7
abbrev stFENCED : Nat := 8
abbrev stABSENT : Nat := 9

/-- Is hub port `n` a compute port? -/
def isCompute (n : Nat) : Bool := n < 12

/-- Power domain that holds hub port `n`'s Alern ports (R479). -/
def portDom (n : Nat) : Nat := if n < 12 then uncoreDom n else 98 + (n - 12)

def stateF (lp : Nat) : Field := if lp % 2 = 0 then F.ALN_PORT_STATUS.STATE else F.ALN_PORT_STATUS.STATE_Q
def widthF (lp : Nat) : Field := if lp % 2 = 0 then F.ALN_PORT_STATUS.WIDTH_P else F.ALN_PORT_STATUS.WIDTH_Q
def recF (lp : Nat) : Field := if lp % 2 = 0 then F.ALN_PORT_TRAINED.REC_P else F.ALN_PORT_TRAINED.REC_Q

/-- State code of a logical port. -/
def State.aln? (s : State) (lp : Nat) : Nat := s.rd (stateF lp) (lp / 2)

/-- Logical ports of hub port `n`. -/
def logicalPorts (n : Nat) : List Nat := if n < 12 then [2 * n, 2 * n + 1] else [2 * n]

/-- Ladder widths of a port (R23), highest first. -/
def ladder (n : Nat) : List Nat := if n < 12 then [64, 32, 16, 8] else [32, 16, 8]

/-- The widest ladder width at or below `w`; the lowest width where none is. -/
def roundLadder (n w : Nat) : Nat := ((ladder n).find? (· ≤ w)).getD 8

/-- The next lower ladder width; the lowest stays (R34). -/
def lowerLadder (n w : Nat) : Nat := ((ladder n).find? (· < w)).getD 8

/-- ALN_SUMMARY.UP and ALN_PORT_STATUS.FAILS follow the logical ports. -/
def State.alnSummary (s : State) (n : Nat) : State :=
  let s := s.putBit F.ALN_SUMMARY.UP 0 n ((logicalPorts n).any (fun lp => s.aln? lp == stUP))
  s.wr F.ALN_PORT_STATUS.FAILS n (max (s.alnPort (2 * n)).fails (s.alnPort (2 * n + 1)).fails)

/-- A logical port takes a state other than UP: it carries no active lanes (R46). -/
def State.alnGo (s : State) (lp st : Nat) : State :=
  (((s.wr (stateF lp) (lp / 2) st).wr (widthF lp) (lp / 2) 0)).alnSummary (lp / 2)

/-- A logical port enters BASE: base mode starts on lanes 0–3, UNFENCE reads 0 again (R25, R46). -/
def State.alnBase (s : State) (lp : Nat) : State :=
  let p := s.alnPort lp
  let s := s.setAln lp { p with fallback := false, crcFails := 0, admitted := false, replays := 0, down := false }
  ((s.wr F.ALN_PORT_STATUS.BASE_ON_SPARES (lp / 2) 0).wr F.ALN_PORT_CTL.UNFENCE (lp / 2) 0).alnGo lp stBASE

/-- The fence of hub port `n` with a cause (R40). -/
def State.fence (s : State) (n cause : Nat) : State :=
  if s.fbit F.ALN_SUMMARY.FENCED 0 n then s else
  let s := s.dieLost n true
  let s := (logicalPorts n).foldl (fun s lp =>
    (s.setAln lp { s.alnPort lp with admitted := false }).alnGo lp stFENCED) s
  let s := s.putBit F.ALN_SUMMARY.FENCED 0 n true
  let s := (s.wr F.ALN_PORT_FENCE.CAUSE n cause).inc F.ALN_PORT_FENCE.COUNT n
  let s := (s.ledger secLink (idxFence n)).ledgerSet secLink (idxCause n) cause
  (s.note 1 n cause).raise F.ALN_PORT_STATUS.EVT_FENCE n

/-- A failed training (R34): counted; the third in a row fences with cause 1; otherwise the port returns to BASE, at
the next lower width when native training failed (`step`). -/
def State.alnFail (s : State) (lp : Nat) (step : Bool) : State :=
  let n := lp / 2
  let p := s.alnPort lp
  let s := s.inc F.ALN_PORT_CNT.TRAIN_FAILS n
  let s := s.setAln lp { p with fails := p.fails + 1, limit := if step then lowerLadder n p.width else p.limit }
  if p.fails + 1 ≥ 3 then (s.alnSummary n).fence n 1 else s.alnBase lp

/-- Can the port's training proceed: its domain is ON? -/
def State.alnLive (s : State) (lp : Nat) : Bool := s.domOn (portDom (lp / 2)) && (logicalPorts (lp / 2)).contains lp

/-! ## Base mode and capability exchange (R25 to R28) -/

/-- The block the hub sends on a port (R27). -/
def State.hubCap (s : State) (lp : Nat) : List (BitVec 8) :=
  let n := lp / 2
  let body : List (BitVec 8) :=
    [1, 1, 2, BitVec.ofNat 8 s.fuses.step, 2, 0, BitVec.ofNat 8 n, if isCompute n then 2 else 1,
     if isCompute n then 64 else 32, 3, BitVec.ofNat 8 (s.rd (recF lp) n), if isCompute n then 4 else 2] ++
    natLE 4 0x3F ++ [0, 0, 0, 0] ++ Config.sm3 (natLE 8 s.fuses.serial) ++ List.replicate 8 0
  body ++ natLE 4 (crc32 body)

/-- BASE_LOCK (R25, R26): symbol lock and deskew; the hub sends its block and the port is in CAP. -/
def State.baseLock (s : State) (lp : Nat) : State :=
  if s.alnLive lp && s.aln? lp == stBASE then
    (s.setAln lp { s.alnPort lp with crcFails := 0, sent := s.hubCap lp }).alnGo lp stCAP
  else s

def execBaseLock (lp : Nat) (s : State) : Host.Outcome State Fault Refusal := .next (s.baseLock lp)

/-- BASE_FALLBACK (R25): base mode moves to the fallback lanes for the rest of the attempt. -/
def State.baseFallback (s : State) (lp : Nat) : State :=
  if s.alnLive lp && s.aln? lp == stBASE then
    (s.setAln lp { s.alnPort lp with fallback := true }).wr F.ALN_PORT_STATUS.BASE_ON_SPARES (lp / 2) 1
  else s

def execBaseFallback (lp : Nat) (s : State) : Host.Outcome State Fault Refusal := .next (s.baseFallback lp)

/-- BASE_ATTEMPT_TIMEOUT (R25, R34): the attempt fails; with no signal on any lane the die is fenced with cause 8. -/
def State.baseTimeout (s : State) (lp : Nat) (signal : Bool) : State :=
  if s.alnLive lp && s.aln? lp == stBASE then (if signal then s.alnFail lp false else s.fence (lp / 2) 8) else s

def execBaseAttemptTimeout (lp : Nat) (signal : Bool) (s : State) : Host.Outcome State Fault Refusal :=
  .next (s.baseTimeout lp signal)

/-- Does a capability block have its 64 bytes and a good CRC (R27)? -/
def capGood (blk : List (BitVec 8)) : Bool := blk.length == 64 && leAt blk 60 4 == crc32 (blk.take 60)

/-- The eight registers that hold a 64-byte block of port `n`. -/
def State.putBlock (s : State) (f : Field) (n : Nat) (blk : List (BitVec 8)) : State :=
  (List.range 8).foldl (fun s k => s.wr f (8 * n + k) (leAt blk (8 * k) 8)) s

/-- CAPABILITY_BLOCK (R26): a block with a good CRC takes the port to CHECK; a bad one is asked for again, and the
fourth bad one fails the attempt. -/
def State.capBlock (s : State) (lp : Nat) (blk sig : List (BitVec 8)) : State :=
  if s.alnLive lp && s.aln? lp == stCAP then
    let p := s.alnPort lp
    if capGood blk then
      let s := s.setAln lp { p with cap := blk, sig := if (byteAt blk 52).testBit 0 then sig.take 64 else [] }
      (s.putBlock F.ALN_PORT_CAP.BYTES (lp / 2) blk).alnGo lp stCHECK
    else if p.crcFails + 1 ≥ 4 then (s.setAln lp { p with crcFails := 0 }).alnFail lp false
    else s.setAln lp { p with crcFails := p.crcFails + 1 }
  else s

def execCapabilityBlock (lp : Nat) (blk sig : List (BitVec 8)) (s : State) : Host.Outcome State Fault Refusal :=
  .next (s.capBlock lp blk sig)

/-! ## Identity checks (R30 to R32, R450) -/

/-- Check 7 (R450): the DIE_ID record exists, its digest is the block's ID_DIGEST, and the signature verifies under
the record's public key. -/
def State.dieAuthentic (s : State) (n : Nat) (cap sig : List (BitVec 8)) : Bool :=
  let id := Tbl.get s.fuses.dieId n []
  id.any (· != 0) && Config.sm3 id == (cap.drop 20).take 32 && (byteAt cap 52).testBit 0 && sig.length == 64 &&
    Config.sm2Verify ((id.drop 16).take 64) (cap.take 60) sig

/-- Checks 1 to 4 of R30: the fence cause of the first that fails. -/
def checkBlock (n : Nat) (cap : List (BitVec 8)) : Option Nat :=
  if byteAt cap 1 ≠ (if isCompute n then 2 else 3) then some 4
  else if byteAt cap 6 % 16 ≠ n then some 2
  else if isCompute n && byteAt cap 6 / 16 % 8 ≠ orientOf n then some 3
  else if byteAt cap 4 ≠ 2 || (isCompute n && leAt cap 12 4 % 64 ≠ 63) then some 5
  else none

/-- The first compute die to pass check 4 sets the package generation (R31). -/
def State.setPkgGen (s : State) (n gen : Nat) : State :=
  if isCompute n && s.rd F.ALN_SUMMARY.PKG_GEN == 0 then s.wr F.ALN_SUMMARY.PKG_GEN 0 gen else s

/-- Checks 5 to 7 of R30. -/
def State.checkRest (s : State) (lp : Nat) : Option Nat :=
  let n := lp / 2
  let p := s.alnPort lp
  let o := s.alnPort (if lp % 2 = 0 then lp + 1 else lp - 1)
  if isCompute n && byteAt p.cap 2 ≠ s.rd F.ALN_SUMMARY.PKG_GEN then some 6
  else if o.admitted && (o.cap.drop 20).take 32 ≠ (p.cap.drop 20).take 32 then some 9
  else if (s.is F.ALN_CFG.REQ_SIG || s.fuses.dieAuth) && !s.dieAuthentic n p.cap p.sig then some 7
  else none

/-- Width the hub chooses (R32, R34). -/
def State.chooseWidth (s : State) (lp : Nat) : Nat :=
  let n := lp / 2
  let p := s.alnPort lp
  let nz (d x : Nat) : Nat := if x = 0 then d else x
  let top := if isCompute n then 64 else 32
  roundLadder n (min (min top (byteAt p.cap 8))
    (min (min (nz top (s.rd (recF lp) n)) (nz top (byteAt p.cap 10))) (nz top p.limit)))

/-- A die that reported RESET_SEEN is settled before it is admitted (R38). -/
def State.resetSeen (s : State) (lp : Nat) : State :=
  let n := lp / 2
  let o := s.alnPort (if lp % 2 = 0 then lp + 1 else lp - 1)
  if (byteAt (s.alnPort lp).cap 6).testBit 7 && !o.admitted then
    let s := s.dieLost n false
    let s := { s with aln := { s.aln with dieReset := s.aln.dieReset.filter (· ≠ n) } }
    s.raise F.ALN_PORT_STATUS.EVT_RESET_SEEN n
  else s

/-- The hub admits the die, once no slice still sweeps for it (R32, R46, R47, R250): features in force, CD_IDENT, the signature registers, and NATIVE_GO. -/
def State.admitDie (s : State) (lp : Nat) : State :=
  let n := lp / 2
  let s := if s.dieMasked n then s else s.resetSeen lp
  if s.dieMasked n && !s.dir.sweeping.isEmpty then s else
  let s := s.dieUnmask n
  let p := s.alnPort lp
  let c := p.cap
  let feat := leAt c 12 2
  let s := if isCompute n then
      s.wr F.ALN_FEAT.COH 0 (if s.rd F.ALN_FEAT.COH = 0 then feat &&& 0x3F else s.rd F.ALN_FEAT.COH &&& feat)
    else s
  let s := if isCompute n then
      (((((s.wr F.CD_IDENT.SITE n (byteAt c 6 % 16)).wr F.CD_IDENT.ORIENT n (byteAt c 6 / 16 % 8)).wr
        F.CD_IDENT.GEN n (byteAt c 2)).wr F.CD_IDENT.STEP n (byteAt c 3)).wr
        F.CD_IDENT.MAX_CLK n (byteAt c 16)).wr F.CD_IDENT.WS_LINES n (leAt c 18 2)
    else s
  let s := s.putBlock F.ALN_PORT_SIG.BYTES n p.sig
  let s := s.setAln lp { p with admitted := true, width := s.chooseWidth lp, rate := min 3 (byteAt c 9) }
  s.alnGo lp stNATIVE

/-- The identity checks on the block of one logical port. -/
def State.identity (s : State) (lp : Nat) : State :=
  let n := lp / 2
  let cap := (s.alnPort lp).cap
  match checkBlock n cap with
  | some c => s.fence n c
  | none =>
    let s := s.setPkgGen n (byteAt cap 2)
    match s.checkRest lp with
    | some 7 => (s.raise F.SEC_STATUS.EVT_DIE_AUTH).fence n 7
    | some c => s.fence n c
    | none => s.admitDie lp

/-- IDENTITY_CHECK (R30, R43): with REQ_SIG loaded, the checker serves one waiting port by rotating priority, port P
before port Q of one hub port. -/
def State.identityCheck (s : State) : State :=
  let waits (n : Nat) : Option Nat := (logicalPorts n).find? (fun lp => s.aln? lp == stCHECK && s.alnLive lp)
  if !s.aln.reqSigLoaded then s else
  match rotGrant 14 s.aln.checkPtr (fun n => (waits n).isSome) with
  | none => s
  | some n =>
    let s := { s with aln := { s.aln with checkPtr := rotNext 14 n } }
    match (logicalPorts n).find? (fun lp => s.aln? lp == stCHECK) with
    | none => s
    | some lp => s.identity lp

def execIdentityCheck (s : State) : Host.Outcome State Fault Refusal := .next s.identityCheck

/-! ## Native training (R33, R34) -/

/-- The spares of a port by number, those whose lane test failed left out. -/
def goodSpares (n : Nat) (fail : List Nat) : List Nat :=
  if n < 12 then (List.range 4).filter (fun k => !fail.contains (64 + k))
  else (List.range 2).filter (fun k => !fail.contains (32 + k))

/-- Failed lanes among the active ones, ascending. -/
def failedActive (w : Nat) (fail : List Nat) : List Nat := (List.range w).filter fail.contains

/-- Can the failed lanes of one direction be repaired? -/
def repairable (n w : Nat) (fail : List Nat) : Bool := (failedActive w fail).length ≤ (goodSpares n fail).length

/-- The repair-map bytes of one direction: for each spare used, its valid bit and the lane it replaces. -/
def repairMap (n w : Nat) (fail : List Nat) : List (Nat × Nat) :=
  ((goodSpares n fail).zip (failedActive w fail)).map (fun p => (p.1, 0x80 + p.2))

/-- Both directions of a repair map written to ALN_PORT_REPAIR. -/
def State.putRepair (s : State) (lp : Nat) (rx tx : List (Nat × Nat)) : State :=
  let b := if lp % 2 = 0 then F.ALN_PORT_REPAIR_P.RX_SPARE0 else F.ALN_PORT_REPAIR_Q.RX_SPARE0
  (List.range 4).foldl (fun s k =>
    (s.wr { b with lo := 8 * k } (lp / 2) (Tbl.get rx k 0)).wr { b with lo := 32 + 8 * k } (lp / 2) (Tbl.get tx k 0)) s

/-- The repair step of a training: the map is written and EVT_REPAIR set when it uses a spare. -/
def State.repair (s : State) (lp : Nat) (rxFail txFail : List Nat) : State :=
  let w := (s.alnPort lp).width
  let rx := repairMap (lp / 2) w rxFail
  let tx := repairMap (lp / 2) w txFail
  let s := s.putRepair lp rx tx
  if rx.isEmpty && tx.isEmpty then s else s.raise F.ALN_PORT_STATUS.EVT_REPAIR (lp / 2)

/-- LANE_TEST_DONE (R33): repair possible takes the port to MARKER; otherwise the training fails. -/
def State.laneTest (s : State) (lp : Nat) (rxFail txFail : List Nat) : State :=
  let w := (s.alnPort lp).width
  if s.alnLive lp && s.aln? lp == stNATIVE then
    if repairable (lp / 2) w rxFail && repairable (lp / 2) w txFail then (s.repair lp rxFail txFail).alnGo lp stMARKER
    else s.alnFail lp true
  else s

def execLaneTestDone (lp : Nat) (rxFail txFail : List Nat) (s : State) : Host.Outcome State Fault Refusal :=
  .next (s.laneTest lp rxFail txFail)

/-- The port comes UP at its width (R34, R46). -/
def State.alnUp (s : State) (lp : Nat) : State :=
  let n := lp / 2
  let p := s.alnPort lp
  let s := s.setAln lp { p with fails := 0, limit := 0, last := p.width, replays := 0 }
  let s := ((s.wr (stateF lp) n stUP).wr (widthF lp) n p.width).wr (recF lp) n p.width
  let s := s.alnSummary n
  if p.last ≠ 0 && p.width < p.last then s.raise F.ALN_PORT_STATUS.EVT_WIDTH_DOWN n else s

/-- MARKER_CHECK_DONE (R33, R34). -/
def State.markerCheck (s : State) (lp : Nat) (ok : Bool) : State :=
  if s.alnLive lp && s.aln? lp == stMARKER then (if ok then s.alnUp lp else s.alnFail lp true) else s

def execMarkerCheckDone (lp : Nat) (ok : Bool) (s : State) : Host.Outcome State Fault Refusal :=
  .next (s.markerCheck lp ok)

/-! ## In service (R37, R38) -/

/-- An UP port enters RETRAIN. -/
def State.alnRetrain (s : State) (lp : Nat) : State :=
  if s.alnLive lp && s.aln? lp == stUP then (s.setAln lp { s.alnPort lp with replays := 0 }).alnGo lp stRETRAIN else s

/-- FLIT_CRC_ERROR (R37): counted in REPLAYS; more than REPLAY_LIMIT in the window start RETRAIN. -/
def State.flitError (s : State) (lp : Nat) (newWindow : Bool) : State :=
  if s.alnLive lp && s.aln? lp == stUP then
    let p := s.alnPort lp
    let c := (if newWindow then 0 else p.replays) + 1
    let s := (s.inc F.ALN_PORT_CNT.REPLAYS (lp / 2)).setAln lp { p with replays := c }
    let lim := s.rd F.ALN_PORT_CTL.REPLAY_LIMIT (lp / 2)
    if lim ≠ 0 && lim < c then s.alnRetrain lp else s
  else s

def execFlitCrcError (lp : Nat) (newWindow : Bool) (s : State) : Host.Outcome State Fault Refusal :=
  .next (s.flitError lp newWindow)

/-- Is a lane of a port active (R33): below the width, or a spare that the repair map uses in either direction?  Spares
are numbered from 64 on a compute port, from 32 on a guest port. -/
def State.laneActive (s : State) (lp lane : Nat) : Bool :=
  let first := if lp / 2 < 12 then 64 else 32
  let k := lane - first
  let b := if lp % 2 = 0 then F.ALN_PORT_REPAIR_P.RX_SPARE0 else F.ALN_PORT_REPAIR_Q.RX_SPARE0
  let used (lo : Nat) : Bool := (s.rd { b with lo := lo + 8 * k } (lp / 2)).testBit 7
  lane < (s.alnPort lp).width || (first ≤ lane && k < 4 && (used 0 || used 32))

/-- ALERN_LANE_LOCK_LOSS (R37): an active lane of an UP port loses lock. -/
def execAlernLaneLockLoss (lp lane : Nat) (s : State) : Host.Outcome State Fault Refusal :=
  .next (if s.laneActive lp lane then s.alnRetrain lp else s)

/-- RETRAIN_REQUEST (R37): the far side requests a retrain. -/
def execRetrainRequest (lp : Nat) (s : State) : Host.Outcome State Fault Refusal := .next (s.alnRetrain lp)

/-- RETRAIN_DONE (R37): success returns the port to UP and is counted; failure is a failed training. -/
def State.retrainDone (s : State) (lp : Nat) (rxFail txFail : List Nat) (markers : Bool) : State :=
  let n := lp / 2
  let w := (s.alnPort lp).width
  if s.alnLive lp && s.aln? lp == stRETRAIN then
    if repairable n w rxFail && repairable n w txFail && markers then
      let s := (s.repair lp rxFail txFail).alnUp lp
      let s := (s.inc F.ALN_PORT_CNT.RETRAINS n).ledger secLink (idxRetrain n)
      s.raise F.ALN_PORT_STATUS.EVT_RETRAIN n
    else s.alnFail lp true
  else s

def execRetrainDone (lp : Nat) (rxFail txFail : List Nat) (markers : Bool) (s : State) :
    Host.Outcome State Fault Refusal := .next (s.retrainDone lp rxFail txFail markers)

/-- FAR_SIDE_BASE (R42, R44): a port in NATIVE, MARKER, UP or RETRAIN returns to BASE without a failure counted. -/
def State.farSideBase (s : State) (lp : Nat) : State :=
  if s.alnLive lp && 4 ≤ s.aln? lp && s.aln? lp ≤ 7 then s.alnBase lp else s

def execFarSideBase (lp : Nat) (s : State) : Host.Outcome State Fault Refusal := .next (s.farSideBase lp)

/-- The die side of a die reset: every core HELD, every L2 of the die invalidated (R212, R259), and its ports back to
BASE (R36). -/
def State.dieReset (s : State) (n : Nat) : State :=
  if isCompute n && s.hw.site n && s.domOn (uncoreDom n) && !s.fbit F.ALN_SUMMARY.FENCED 0 n then
    let s := (List.range 48).foldl (fun s c => s.coreHeld (48 * n + c)) s
    let s := (List.range 4).foldl (fun s c =>
      ((s.setL2 (4 * n + c) L2State.init).wr F.L2_STATUS.READY (4 * n + c) 0)) s
    let s := { s with aln := { s.aln with dieReset := n :: s.aln.dieReset.filter (· ≠ n) } }
    (logicalPorts n).foldl (fun s lp => if s.aln? lp == stDISABLED then s else s.alnBase lp) s
  else s

/-- DIE_RESET (R38). -/
def execDieReset (n : Nat) (s : State) : Host.Outcome State Fault Refusal := .next (s.dieReset n)

/-! ## Port registers (R41, R42, R46) -/

/-- Every populated port leaves DISABLED where AUTO_TRAIN and EN are 1, and an unpopulated port is ABSENT (R17, R44). -/
def State.alnAutoTrain (s : State) : State :=
  (List.range 14).foldl (fun s n =>
    if !s.hw.port n then
      ((s.alnGo (2 * n) stABSENT).alnGo (2 * n + 1) stABSENT).putBit F.ALN_SUMMARY.ABSENT 0 n true
    else
      let s := if n < 12 then s else s.alnGo (2 * n + 1) stABSENT
      if s.is F.ALN_CFG.AUTO_TRAIN && s.is F.ALN_PORT_CTL.EN n then
        (logicalPorts n).foldl (fun s lp => if s.aln? lp == stDISABLED then s.alnBase lp else s) s
      else s) s

/-- A write of ALN_PORT_CTL.EN: EN = 0 forces the ports to DISABLED, but for a fenced or ABSENT site. -/
def State.alnEn (s : State) (n v : Nat) : State :=
  let s := s.wr F.ALN_PORT_CTL.EN n (v % 2)
  if v % 2 = 0 then
    (logicalPorts n).foldl (fun s lp => if s.aln? lp < stFENCED then s.alnGo lp stDISABLED else s) s
  else s

/-- ALN_PORT_EN. -/
def execAlnPortEn (src : Src) (n value : Nat) (s : State) : Host.Outcome State Fault Refusal := .next (s.withReg src .ALN_PORT_CTL n (·.alnEn n value))

/-- A write of RESTART: an UP port returns to BASE, a DISABLED, enabled and populated one starts; else ignored. -/
def State.alnRestart (s : State) (n : Nat) : State :=
  (logicalPorts n).foldl (fun s lp =>
    if s.aln? lp == stUP || (s.aln? lp == stDISABLED && s.is F.ALN_PORT_CTL.EN n && s.hw.port n) then s.alnBase lp
    else s) s

/-- ALN_RESTART. -/
def execAlnRestart (src : Src) (n : Nat) (s : State) : Host.Outcome State Fault Refusal := .next (s.withReg src .ALN_PORT_CTL n (·.alnRestart n))

/-- A write of WIDTH_RESTORE: the hub's trained-width records of the port are cleared (R35, R36). -/
def State.widthRestore (s : State) (n : Nat) : State :=
  let s := (s.wr F.ALN_PORT_TRAINED.REC_P n 0).wr F.ALN_PORT_TRAINED.REC_Q n 0
  [2 * n, 2 * n + 1].foldl (fun s lp => s.setAln lp { s.alnPort lp with limit := 0 }) s

/-- WIDTH_RESTORE. -/
def execWidthRestore (src : Src) (n : Nat) (s : State) : Host.Outcome State Fault Refusal := .next (s.withReg src .ALN_PORT_CTL n (·.widthRestore n))

/-- A secure write of UNFENCE (R41): the failure count and cause are cleared and the ports start from BASE; ignored
while the site is not fenced. -/
def State.unfence (s : State) (n : Nat) : State :=
  if s.fbit F.ALN_SUMMARY.FENCED 0 n then
    let s := (s.putBit F.ALN_SUMMARY.FENCED 0 n false).wr F.ALN_PORT_FENCE.CAUSE n 0
    (logicalPorts n).foldl (fun s lp => (s.setAln lp { s.alnPort lp with fails := 0 }).alnBase lp) s
  else s

/-- UNFENCE. -/
def execUnfence (src : Src) (n : Nat) (s : State) : Host.Outcome State Fault Refusal :=
  .next (if isSecure src then s.withReg src .ALN_PORT_CTL n (·.unfence n) else s)

/-- A write of ALN_CFG: the RWL fields take the data while LOCK was 0, and LOCK is then set by a one (R9, R46). -/
def State.alnCfg (s : State) (v : Nat) : State :=
  let s := if s.is F.ALN_CFG.LOCK then s else
    (s.wr F.ALN_CFG.AUTO_TRAIN 0 (bits v 0 1)).wr F.ALN_CFG.REQ_SIG 0 (bits v 1 1)
  if v.testBit 31 then s.wr F.ALN_CFG.LOCK 0 1 else s

/-- ALN_CFG_LOCK. -/
def execAlnCfgLock (src : Src) (value : Nat) (s : State) : Host.Outcome State Fault Refusal :=
  .next (s.withReg src .ALN_CFG 0 (·.alnCfg value))

end Sys2Proof.Machine
end

