-- ==== Sys2Proof/Machine/DebugOps.lean ====
section
/-!
DEFINITION. The effective debug enables and the taking of a halt (R289, R456, R457, R460, R462).
-/

namespace Sys2Proof.Machine

/-- The closure of an enable set (bit 0 NNI, 1 NI, 2 SNI, 3 SI) under the implications of R456, with SNI and SI removed
while SEC_DBG_OFF is blown. -/
def effOf (en : Nat) (secOff : Bool) : Nat :=
  let si := en.testBit 3
  let sni := en.testBit 2 || si
  let ni := en.testBit 1 || si
  let nni := en.testBit 0 || sni || ni
  b2n nni + 2 * b2n ni + (if secOff then 0 else 4 * b2n sni + 8 * b2n si)

/-- DBG_EN.EFF follows FW_EN, AUTH_EN and the fuse. -/
def State.effSet (s : State) : State :=
  s.wr F.DBG_EN.EFF 0 (effOf (s.rd F.DBG_EN.FW_EN ||| s.rd F.DBG_EN.AUTH_EN) s.fuses.secDbgOff)

/-- Does EFF hold the invasive enable for a world (true: normal)? -/
def State.invasive (s : State) (ns : Bool) : Bool := s.fbit F.DBG_EN.EFF 0 (if ns then 1 else 3)

/-- The hart halts, under the enable for its world. -/
def State.haltNow (s : State) (k : Nat) : State :=
  let s := s.endMiss k
  let s := (s.setHart k { s.hart k with haltPending := false }).wr F.CORE_STATUS.STATE k 5
  ({ s with dbg := { s.dbg with halted := Tbl.put s.dbg.halted k (if s.ns k then 2 else 8) } }).raise F.DBG_STATUS.EVT_HALT

/-- A pending halt request is taken at an instruction boundary where EFF permits it; an open proof short of its commit
point aborts with DEBUG first, and one past it is waited for (R289, R460). -/
def State.takeHalt (s : State) (k : Nat) : State :=
  let h := s.hart k
  let st := s.rd F.CORE_STATUS.STATE k
  if !h.haltPending || !(st == 3 || st == 4) || !s.invasive (s.ns k) || h.io.any (fun a => !a.write) then s else
  match h.proof with
  | some p => if p.committing then s else (s.proofAbort k 6 0 0).haltNow k
  | none => s.haltNow k

/-- Would a pending halt be taken now, instead of the next instruction? -/
def State.haltDue (s : State) (k : Nat) : Bool :=
  (s.hart k).haltPending && s.invasive (s.ns k) && !(s.hart k).proof.any (·.committing)

/-- A halted hart resumes. -/
def State.resumeHart (s : State) (k : Nat) : State :=
  if s.rd F.CORE_STATUS.STATE k ≠ 5 then s else
  ({ s with dbg := { s.dbg with halted := Tbl.erase s.dbg.halted k } }).wr F.CORE_STATUS.STATE k 3

/-- Is the hart halted under NI alone, so that an M-level interrupt takes it out of the halt (R460)? -/
def State.haltedNi (s : State) (k : Nat) : Bool :=
  k < 576 && !s.held && s.rd F.CORE_STATUS.STATE k == 5 && s.ns k && !s.invasive false && s.clusterLive (clusterOf k)

end Sys2Proof.Machine
end

