-- ==== Sys2Proof/Machine/Cores.lean ====
section
/-!
DEFINITION. The commands of the Graver cores other than memory accesses: core states, traps, returns, interrupts, CSR
writes, timers and claim FIFOs (R203 to R227, R270, R286, R287).
-/

namespace Sys2Proof.Machine

/-! ## Core states (R212, R213) -/

/-- CORE_RUN: a secure write of RUN takes a HELD core to INIT. -/
def State.coreRun (s : State) (k : Nat) : State :=
  if s.rd F.CORE_STATUS.STATE k = 1 then (s.wr F.CORE_CTL.RUN k 1).wr F.CORE_STATUS.STATE k 2 else s

def execCoreRun (src : Src) (core : Nat) (s : State) : Host.Outcome State Fault Refusal :=
  .next (if isSecure src && core < 576 then s.withReg src .CORE_CTL core (·.coreRun core) else s)

/-- A reset address that names no secure HBM plate, where fetches fault (R214). -/
def State.bootBad (s : State) (rv : Nat) : Option Nat :=
  match regionOf rv with
  | .hbm _ => if s.populated rv && s.securePlate rv then none else some rv
  | _ => some rv

/-- CORE_INIT_DONE: L1I, L1D, predictors and TLB are invalid and the core fetches at CORE_RVBAR, with mtvec there. -/
def State.coreInitDone (s : State) (k : Nat) : State :=
  let rv := s.rd F.CORE_RVBAR.ADDR k * 4
  let h := { s.hart k with pc := rv, l1d := [], l1i := [], pred := [], tlb := [], bootBad := s.bootBad rv }
  (s.setHart k (h.setCsr 0x305 rv)).wr F.CORE_STATUS.STATE k 3

def execCoreInitDone (core : Nat) (s : State) : Host.Outcome State Fault Refusal :=
  .next (if core < 576 && !s.held && s.hw.site (siteOf core) && s.clusterLive (clusterOf core) &&
      s.rd F.CORE_STATUS.STATE core = 2 then s.coreInitDone core else s)

/-- CORE_RESET. -/
def execCoreReset (src : Src) (core : Nat) (s : State) : Host.Outcome State Fault Refusal :=
  .next (if isSecure src && core < 576 then s.withReg src .CORE_CTL core (·.coreHeld core) else s)

/-! ## Issuing an instruction -/

/-- May the core execute its next instruction: RUNNING, no load outstanding, and not waiting for a group's outcome? -/
def State.mayIssue (s : State) (k : Nat) : Bool :=
  s.coreRuns k && (s.hart k).miss.isNone && !(s.hart k).io.any (fun a => !a.write) &&
    !(s.hart k).proof.any (·.sealing)

/-- The instruction at `pc` is executed by `f`, if the core may execute; a pending debug halt that EFF permits is taken
at this boundary instead (R460). -/
def State.issue (s : State) (k pc : Nat) (f : State → State) : State :=
  if !s.mayIssue k then s
  else if s.haltDue k then s.takeHalt k
  else f (s.setHart k { s.hart k with pc := pc })

/-- An illegal-instruction exception; the spec states no trap value, so it is a free value. -/
def State.illegal (s : State) (k pc : Nat) : State :=
  let (v, s) := s.free (2 ^ 64)
  s.exception k 2 v pc

def State.inProof (s : State) (k : Nat) : Bool := (s.hart k).proof.isSome

/-- An action that ends a proof (R270): aborts with EXPLICIT, else does `f`. -/
def State.notInProof (s : State) (k : Nat) (f : State → State) : State :=
  if s.inProof k then s.proofAbort k 7 0 0 else f s

/-! ## WFI (R211, R212) -/

def State.wfi (s : State) (k pc : Nat) : State :=
  let p := s.priv k
  if p = 0 || (p = 1 && (s.csr k 0x300).testBit 21) then s.illegal k pc
  else
    let s := s.retire k (pc + 4)
    if s.mip k = 0 then s.wr F.CORE_STATUS.STATE k 4 else s

/-- WFI. -/
def execWfi (core pc : Nat) (s : State) : Host.Outcome State Fault Refusal :=
  .next (s.issue core pc (fun s => s.notInProof core (·.wfi core pc)))

/-- WFI_WAKE. -/
def execWfiWake (core : Nat) (s : State) : Host.Outcome State Fault Refusal :=
  .next (if core < 576 && !s.held && s.hw.site (siteOf core) && s.clusterLive (clusterOf core) &&
      s.rd F.CORE_STATUS.STATE core = 4 && s.mip core ≠ 0 then s.wr F.CORE_STATUS.STATE core 3 else s)

/-! ## Traps and returns (R214, R218, R221, R270) -/

/-- The cause an exception of an instruction has: an environment call's names the mode it came from. -/
def State.trapCause (s : State) (k cause : Nat) : Nat := if cause = 8 || cause = 9 || cause = 11 then 8 + s.priv k else cause

/-- TRAP: a synchronous exception; inside a proof it aborts the proof instead. -/
def execTrap (core pc cause tval : Nat) (s : State) : Host.Outcome State Fault Refusal :=
  .next (s.issue core pc (fun s => s.exception core (s.trapCause core (cause % 64)) tval pc))

/-- The interrupt is taken, its merging buffer drained first where NS changes (R231). -/
def State.takeInterrupt (s : State) (k pc cause : Nat) (m : Bool) : State :=
  let (empty, s) := if m && s.ns k then s.drainAll k else (true, s)
  if !empty then s else
  let s := (s.endMiss k).perf k 0x0010
  if m then s.trapM k cause 0 pc true else s.trapS k cause 0 pc true

/-- An interrupt that is due meets an open proof (R286, R287): an M-level one aborts it before its commit point, an
S-level one is deferred unless the budget is 0. -/
def State.interrupt (s : State) (k pc : Nat) : State :=
  match s.interruptDue k with
  | none => s
  | some (cause, m) =>
    match (s.hart k).proof with
    | none => s.takeInterrupt k pc cause m
    | some p =>
      if p.committing then s
      else if m then
        let s := s.proofAbort k 5 0 0
        s.takeInterrupt k (s.hart k).pc cause m
      else if s.rd F.PRF_CFG.DEFER_BUDGET = 0 then
        let s := s.proofAbort k 4 0 0
        s.takeInterrupt k (s.hart k).pc cause m
      else s.onProof k (fun p => { p with deferring := true })

/-- An M-level interrupt takes a hart out of a halt held under NI alone; the halt is taken again once NS = 1 (R460). -/
def State.interruptHalted (s : State) (k : Nat) : State :=
  let s := s.resumeHart k
  let s := s.setHart k { s.hart k with haltPending := true }
  s.interrupt k (s.hart k).pc

/-- INTERRUPT_TAKE, at an instruction boundary: `pc` is the address of the next instruction. -/
def execInterruptTake (core pc : Nat) (s : State) : Host.Outcome State Fault Refusal :=
  .next (if s.coreRuns core && !(s.hart core).io.any (fun a => !a.write) then s.interrupt core pc
    else if s.haltedNi core && (s.interruptDue core).any (·.2) then s.interruptHalted core else s)

def State.mret (s : State) (k pc : Nat) : State :=
  if s.priv k ≠ 3 then s.illegal k pc else
  let (empty, s) := if bits (s.csr k 0x300) 11 2 ≠ 3 && (s.csr k 0x7C0).testBit 1 then s.drainAll k else (true, s)
  if empty then s.mretTo k else s

/-- MRET. -/
def execMret (core pc : Nat) (s : State) : Host.Outcome State Fault Refusal :=
  .next (s.issue core pc (fun s => s.notInProof core (fun s => (s.mret core pc).takeHalt core)))

def State.sret (s : State) (k pc : Nat) : State :=
  if s.priv k = 0 || (s.priv k = 1 && (s.csr k 0x300).testBit 22) then s.illegal k pc else s.sretTo k

/-- SRET. -/
def execSret (core pc : Nat) (s : State) : Host.Outcome State Fault Refusal :=
  .next (s.issue core pc (fun s => s.notInProof core (·.sret core pc)))

/-! ## CSRs (R203, R204, R213, R225, R226) -/

/-- The CSRs the hart implements. -/
def csrExists (n : Nat) : Bool :=
  [0x001, 0x002, 0x003, 0x008, 0x009, 0x00A, 0x00F, 0xC20, 0xC21, 0xC22, 0xCC0, 0xCC1,
   0x100, 0x104, 0x105, 0x106, 0x10A, 0x140, 0x141, 0x142, 0x143, 0x144, 0x14D, 0x180, 0xDA0, 0x5C0, 0x5C1,
   0x300, 0x301, 0x302, 0x303, 0x304, 0x305, 0x306, 0x30A, 0x340, 0x341, 0x342, 0x343, 0x344, 0x3A0, 0x3A2, 0x320,
   0xB00, 0xB02, 0x7C0, 0x7C1, 0xF11, 0xF12, 0xF13, 0xF14, 0xF15].contains n ||
  (0xC00 ≤ n && n ≤ 0xC1F) || (0x3B0 ≤ n && n ≤ 0x3BF) || (0x323 ≤ n && n ≤ 0x33F) || (0xB03 ≤ n && n ≤ 0xB1F)

/-- Is the CSR one of the floating-point, or of the vector unit? -/
def csrFp (n : Nat) : Bool := n == 1 || n == 2 || n == 3
def csrVec (n : Nat) : Bool := n == 8 || n == 9 || n == 10 || n == 15 || (0xC20 ≤ n && n ≤ 0xC22)

/-- mstatus with SD (bit 63) as FS or VS dirty gives it. -/
def mstatusRead (m : Nat) : Nat := if bits m 13 2 = 3 || bits m 9 2 = 3 then setBit (clrBit m 63) 63 else clrBit m 63

/-- sstatus: the bits of mstatus that S-mode sees. -/
def sstatusMask : Nat := 0x80000003000DE722

/-- Value a CSR instruction reads. -/
def State.csrRead (s : State) (k n : Nat) : Nat :=
  let h := s.hart k
  match n with
  | 0x001 => bits (h.csrv 3) 0 5
  | 0x002 => bits (h.csrv 3) 5 3
  | 0x00F => h.csrv 0x00A * 2 + h.csrv 0x009
  | 0xC22 => 64
  | 0xC01 => s.rd F.CKR_TIME.TIME
  | 0xC00 => h.csrv 0xB00
  | 0xC02 => h.csrv 0xB02
  | 0x100 => mstatusRead (h.csrv 0x300) &&& sstatusMask
  | 0x300 => mstatusRead (h.csrv 0x300)
  | 0x301 => 0x800000000034112D
  | 0xF12 => 0x8000000047520001
  | 0xF13 => s.hw.gen * 256 + s.fuses.step
  | 0xF14 => k
  | 0x104 => h.csrv 0x304 &&& 0x2222
  | 0x144 => s.mip k &&& 0x2222
  | 0x344 => s.mip k
  | 0xDA0 => (List.range 29).foldl (fun v j =>
      if (h.csrv (0x323 + j)).testBit 63 && (s.priv k == 3 || (h.csrv 0x306).testBit (j + 3)) then setBit v (j + 3) else v) 0
  | n => if 0xC03 ≤ n && n ≤ 0xC1F then h.csrv (n - 0x100) else h.csrv n

/-- May the hart access CSR `n`, and write it where `write` says so (R225)? -/
def State.csrAllowed (s : State) (k n : Nat) (write : Bool) : Bool :=
  let p := s.priv k
  let m := s.csr k 0x300
  csrExists n && bits n 8 2 ≤ p && !(write && bits n 10 2 == 3) &&
    !(csrFp n && bits m 13 2 == 0) && !(csrVec n && bits m 9 2 == 0) &&
    !(n == 0x180 && p == 1 && m.testBit 20) &&
    !(n == 0x14D && p == 1 && !((s.csr k 0x30A).testBit 63 && (s.csr k 0x306).testBit 1)) &&
    (!(0xC00 ≤ n && n ≤ 0xC1F) || p == 3 || ((s.csr k 0x306).testBit (n - 0xC00) && (p == 1 || (s.csr k 0x106).testBit (n - 0xC00))))

/-- `old` with the bits of `mask` taken from `v`. -/
def maskIn (old v mask : Nat) : Nat := (old &&& (mask ^^^ (2 ^ 64 - 1))) ||| (v &&& mask)

/-- The PMP configuration byte: a locked entry, W without R, and NA4 keep the old byte. -/
def pmpByte (old v : Nat) : Nat :=
  let v := v &&& 0x9F
  if old.testBit 7 || (v.testBit 1 && !v.testBit 0) || bits v 3 2 = 2 then old else v

/-- Value a write leaves in the CSR that stores it. -/
def csrStored (n old v : Nat) : Nat :=
  match n with
  | 0x300 =>
    let v' := maskIn old v 0x7E67AA
    if bits v 11 2 = 2 then v' else maskIn v' v 0x1800
  | 0x302 => v &&& 0x100B3FF
  | 0x304 => v &&& 0x2AAA
  | 0x344 => maskIn old v 0x2002
  | 0x305 => v &&& (2 ^ 64 - 3)
  | 0x105 => v &&& (2 ^ 64 - 3)
  | 0x306 => v % 2 ^ 32
  | 0x106 => v % 2 ^ 32
  | 0x30A => v &&& 0x8000000000000001
  | 0x10A => v &&& 1
  | 0x341 => clrBit v 0
  | 0x141 => clrBit v 0
  | 0x180 => if bits v 60 4 = 0 || bits v 60 4 = 8 || bits v 60 4 = 9 then v else old
  | 0x320 => v &&& 0xFFFFFFFD
  | 0x003 => v % 256
  | 0x008 => v % 512
  | 0x009 => v % 2
  | 0x00A => v % 4
  | 0x5C0 => v % 2 ^ 16
  | 0x5C1 => v &&& 0x3FFFFFFFFF80
  | 0x7C0 => v &&& 0xFF02
  | 0x7C1 => v % 2
  | n =>
    if 0x323 ≤ n && n ≤ 0x33F then (v &&& 0xF200000000000000) + (if bits v 0 16 ≤ 0x12 then bits v 0 16 else bits old 0 16)
    else if n = 0x3A0 || n = 0x3A2 then
      (List.range 8).foldl (fun x i => x + pmpByte (bits old (8 * i) 8) (bits v (8 * i) 8) * 2 ^ (8 * i)) 0
    else if 0x3B0 ≤ n && n ≤ 0x3BF then v % 2 ^ 44
    else v

/-- Is a PMP address register locked, by its own entry or by a locked TOR entry above it? -/
def Hart.pmpLocked (h : Hart) (i : Nat) : Bool :=
  let cfg (i : Nat) : Nat := if i < 16 then bits (h.csrv (0x3A0 + 2 * (i / 8))) (8 * (i % 8)) 8 else 0
  (cfg i).testBit 7 || ((cfg (i + 1)).testBit 7 && bits (cfg (i + 1)) 3 2 == 1)

/-- A value reaches a CSR, with the write's further effects: predictors, the retry timestamp, timers and the TLB
(R219, R220, R225, R267). -/
def State.csrPut (s : State) (k n v : Nat) : State :=
  let h := s.hart k
  let put (m x : Nat) : State := s.setCsr k m (csrStored m (h.csrv m) x)
  match n with
  | 0x001 => put 3 (putBits (h.csrv 3) 0 5 v)
  | 0x002 => put 3 (putBits (h.csrv 3) 5 3 v)
  | 0x00F => (put 0x009 v).setCsr k 0x00A (bits v 1 2)
  | 0x100 => put 0x300 (maskIn (h.csrv 0x300) v 0xC6722)
  | 0x104 => put 0x304 (maskIn (h.csrv 0x304) v 0x2222)
  | 0x144 => put 0x344 (maskIn (h.csrv 0x344) v 0x2002)
  | 0x301 => s
  | 0x303 => s
  | 0x5C0 =>
    let s := put 0x5C0 v
    s.setHart k { s.hart k with lastTs := none }
  | 0x180 =>
    let s := put 0x180 v
    s.setHart k { s.hart k with tlb := [] }
  | 0x14D => (put 0x14D v).timerBits k
  | 0x30A => (put 0x30A v).timerBits k
  | 0x7C0 =>
    let was := bits (h.csrv 0x7C0) 8 8
    let s := put 0x7C0 v
    if bits v 8 8 ≠ was && !s.tagged k then s.clearPred k else s
  | 0x7C1 =>
    let s := put 0x7C1 v
    if v.testBit 1 then s.clearPred k else s
  | n => if 0x3B0 ≤ n && n ≤ 0x3BF && h.pmpLocked (n - 0x3B0) then s else put n v

/-- A write to floating-point or vector state makes it dirty. -/
def State.dirty (s : State) (k n : Nat) : State :=
  let m := s.csr k 0x300
  if csrFp n then s.setCsr k 0x300 (putBits m 13 2 3)
  else if csrVec n then s.setCsr k 0x300 (putBits m 9 2 3) else s

/-- May a proof write the CSR (R270)? -/
def csrProof (n : Nat) : Bool := [1, 2, 3, 8, 9, 10, 15].contains n

/-- A CSR instruction that writes: op 0 writes the value, 1 sets its bits, 2 clears them. -/
def State.csrWrite (s : State) (k pc n op rd v : Nat) : State :=
  if !s.csrAllowed k n true then s.illegal k pc
  else if s.inProof k && !csrProof n then s.proofAbort k 7 0 0
  else
    let old := s.csrRead k n
    let new := match op with
      | 0 => v
      | 1 => old ||| v
      | _ => old &&& (v % 2 ^ 64 ^^^ (2 ^ 64 - 1))
    let s := (s.csrPut k n (new % 2 ^ 64)).dirty k n
    (s.setHart k ((s.hart k).setX rd old)).retire k (pc + 4)

/-- CSR_WRITE. -/
def execCsrWrite (core pc csr op rd value : Nat) (s : State) : Host.Outcome State Fault Refusal :=
  .next (s.issue core pc (·.csrWrite core pc (csr % 4096) op rd value))

/-- PREDICTOR_FLUSH: a CSR write to hzpredctl with FLUSH = 1 that leaves TAG_EN as it is. -/
def execPredictorFlush (core pc : Nat) (s : State) : Host.Outcome State Fault Refusal :=
  .next (s.issue core pc (fun s => s.csrWrite core pc 0x7C1 1 0 2))

/-! ## Timers, counters and the claim FIFOs (R220, R222, R226, R227) -/

/-- Is a core's block in being: its site populated and its cluster ON? -/
def State.coreThere (s : State) (k : Nat) : Bool :=
  k < 576 && !s.held && s.hw.site (siteOf k) && s.clusterLive (clusterOf k)

/-- TIMER_COMPARE. -/
def execTimerCompare (core : Nat) (s : State) : Host.Outcome State Fault Refusal :=
  .next (if s.coreThere core then s.timerBits core else s)

/-- COUNTER_OVERFLOW: mhpmcounter n wraps to zero. -/
def execCounterOverflow (core n : Nat) (s : State) : Host.Outcome State Fault Refusal :=
  .next (if s.coreThere core && 3 ≤ n && n < 32 && s.perfOn core n then (s.setCsr core (0xB00 + n) 0).perfWrap core n else s)

/-- A read of a claim FIFO: bits [9:0] SOURCE and bit 15 VALID; the secure FIFO reads zero to the normal world. -/
def State.claimRead (s : State) (src : Src) (k : Nat) (m : Bool) : State :=
  let h := s.hart k
  if m && !isSecure src then { s with rdata := 0 } else
  match if m then h.claimM else h.claimS with
  | [] => { s with rdata := 0 }
  | x :: rest => { s.setHart k (if m then { h with claimM := rest } else { h with claimS := rest }) with rdata := x + 2 ^ 15 }

/-- CORE_CLAIM_READ. -/
def execCoreClaimRead (src : Src) (core : Nat) (m : Bool) (s : State) : Host.Outcome State Fault Refusal :=
  .next (if core < 576 then
    ({ s with rdata := 0 }).withRead src (if m then .CORE_CLAIM_M else .CORE_CLAIM_S) core (·.claimRead src core m) else s)

/-- CORE_SSIP_SET. -/
def execCoreSsipSet (src : Src) (core value : Nat) (s : State) : Host.Outcome State Fault Refusal :=
  .next (if core < 576 && value % 2 = 1 then s.withReg src .CORE_SSIP_SET core (·.mipBit core 1 true) else s)

end Sys2Proof.Machine
end

