-- ==== Sys2Proof/Machine/Resets.lean ====
section
/-!
DEFINITION. The resets of the device (R489 to R491), what each keeps, and the reset of a block whose power domain turns
on from OFF (R485).
-/

namespace Sys2Proof.Machine

/-- Every register of power domain `d` back at its reset value; domain 60, which no request turns OFF (R483), keeps its own. -/
def State.clearRegs (s : State) (d : Nat) : State :=
  { s with regs := s.regs.filter (fun e => regHome e.1.reg e.1.idx ≠ d || d == 60) }

/-! ## Entering OFF and leaving it (R485, R212, R259, R35, R39) -/

/-- Cores of cluster `cl`. -/
def clusterCores (cl : Nat) : List Nat := (List.range 12).map (fun k => 12 * cl + k)

/-- Cluster number whose power domain is `d` (d < 60, d mod 5 < 4). -/
def domCluster (d : Nat) : Nat := 4 * (d / 5) + d % 5

/-- What the blocks of domain `d` become when it enters OFF: cores read OFF (R212), the Alern ports of an uncore or
guest domain are taken down (R39), and the link of a PCIe domain goes down (R386). -/
def State.enterOff (s : State) (d : Nat) : State :=
  if d < 60 && d % 5 < 4 then
    let cl := domCluster d
    (clusterCores cl).foldl (fun s c => ((s.setHart c Hart.init).wr F.CORE_STATUS.STATE c 0)) (s.setL2 cl L2State.init)
  else if d = 96 || d = 97 then
    if s.is F.HIF_PORT_STATUS.LINK_UP (d - 96) then (s.linkDown (d - 96)).conventionalReset (d - 96) else s
  else
    let n := if d < 60 then d / 5 else d - 98 + 12
    if d < 60 || 98 ≤ d then
      (logicalPorts n).foldl (fun s lp =>
        if s.aln? lp < stFENCED then
          ((s.setAln lp { s.alnPort lp with down := true, admitted := false }).alnGo lp stDISABLED)
        else s) s
    else s

/-- The reset of every block of domain `d` as it turns on from OFF. -/
def State.powerOn (s : State) (d : Nat) : State :=
  let s := s.clearRegs d
  if d < 60 && d % 5 < 4 then
    let cl := domCluster d
    (clusterCores cl).foldl (fun s c => s.coreHeld c) (s.setL2 cl L2State.init)
  else if d < 60 then
    (logicalPorts (d / 5)).foldl (fun s lp => if (s.alnPort lp).down then s.alnBase lp else s) s
  else if 65 ≤ d && d ≤ 68 then
    let s := (List.range 8).foldl (fun s k => s.putBit F.DIR_STATUS.READY 0 (8 * (d - 65) + k) false) s
    { s with dir := { s.dir with entries := s.dir.entries.filter (fun e => 65 + homeSlice e.1 / 8 ≠ d) } }
  else if d = 69 then { s with groups := [] }
  else if 70 ≤ d && d ≤ 81 then
    (List.range 16).foldl (fun s c =>
      if ctlDom c = d && !(8 ≤ c && s.mem.srKept) then
        { s with mem := { s.mem with initWalk := c :: s.mem.initWalk.filter (· ≠ c) } }
      else if ctlDom c = d then s.wr F.MEM_CTL_STATUS.INIT_DONE c 1
      else s) s
  else if 82 ≤ d && d ≤ 89 then
    { s with lanes := s.lanes.filter (fun e => e.1 / 24 ≠ d - 82) }
  else if d = 90 then { s with beat := BeatState.init, tio := TioState.init }
  else if d = 91 then { s with ctx := CtxState.init, trg := TrgState.init }
  else if d = 92 then { s with evb := EvbState.init }
  else if d = 93 then { s with stp := StpState.init }
  else if d = 94 || d = 95 then
    { s with eth := { s.eth with
        ready := s.eth.ready.filter (fun e => 94 + e.1 / 128 ≠ d)
        paused := s.eth.paused.filter (fun e => 94 + e.1 / 8 ≠ d) } }
  else if d = 96 then { s with hif := { s.hif with rings := [], admin := none } }
  else if 98 ≤ d then
    let s := s.setGuest (d - 98) GuestSite.init
    (logicalPorts (d - 98 + 12)).foldl (fun s lp => if (s.alnPort lp).down then s.alnBase lp else s) s
  else s

/-! ## Cold and warm reset -/

/-- What a cold reset leaves of everything else it clears (R489): the variant, fuses and vellum, the SPI NOR, what is
fitted in the DIMM sockets, the pins, the commands still to come, and the ledger configuration kept by the vellum
(R508). -/
def State.coldReset (s : State) (cause : Nat) : State :=
  let r := { State.reset with
    pending := s.pending
    hw := s.hw
    fresh := s.fresh
    fuses := s.fuses
    vellum := s.vellum
    pins := s.pins
    boot := { BootState.init with nor := s.boot.nor }
    mem := { MemState.init with dimms := s.mem.dimms }
    regs := s.regs.filter (fun e => e.1.reg == Reg.LGR_CFG) }
  r.wr F.CKR_RESET.CAUSE 0 cause

/-- Register fields that a warm reset keeps (R489 and the register sections that count since cold reset). -/
def keptWarm (k : RegKey) (srKeep : Bool) : Bool :=
  match k.reg with
  | .ALN_CFG => k.lo == 31 || k.lo == 0
  | .ALN_SUMMARY => k.lo != 0
  | .ALN_PORT_TRAINED | .ALN_PORT_FENCE | .ALN_PORT_CNT => true
  | .MEM_WM => k.lo == 0 || k.lo == 8 || k.lo == 31
  | .MEM_WM_CNT | .MEM_PLATE_CNT_H | .MEM_PLATE_CNT_D | .MEM_CTL_CNT0 | .MEM_CTL_CNT1 | .MEM_CTL_LAST_UE
  | .MEM_BURN_PTR => true
  | .MEM_PLATE_CFG_H => k.lo == 0
  | .MEM_PLATE_CFG_D => k.lo == 0 || (srKeep && k.lo < 14)
  | .MEM_RECODE => srKeep && k.idx == 1
  | .HIF_PORT_CNT0 | .HIF_PORT_CNT1 | .HIF_PORT_CNT2 => true
  | .CKR_TIME | .CKR_FTIME | .CKR_RESET => true
  | .CKR_STATUS => k.lo < 3
  | .GLB_PROFILE => k.lo == 0 || k.lo == 4
  | .PWR_DOM_STATUS => k.lo == 16
  | .PWR_REFTAB => true
  | .PWR_STATUS => k.lo == 32
  | .SEC_BOOT_STATUS => k.lo == 32
  | .DBG_AUTH_CTL => k.lo == 24
  | .DBG_CNT => true
  | .LGR_CFG | .LGR_STATUS | .LGR_HOURS | .LGR_WEAR | .LGR_PLAN => true
  | _ => false

/-- Alern state across a warm reset: widths, failure counts and fences stay; every other port goes to DISABLED. -/
def AlnPort.warm (p : AlnPort) : AlnPort :=
  { p with fallback := false, crcFails := 0, cap := [], sig := [], sent := [], admitted := false, replays := 0,
           down := false }

/-- The device memory after a warm reset: HBM is walked to zero, DDR5 too unless SR_KEEP held it (R348); a lowering of
the watermark is abandoned (R332). -/
def MemState.warm (m : MemState) (srKeep : Bool) : MemState :=
  { MemState.init with
    cells := if srKeep then m.cells.filter (fun c => 2 ^ 42 ≤ c.1) else []
    code := if srKeep then m.code.filter (fun c => 2 ^ 34 ≤ c.1) else []
    dimms := m.dimms
    srKept := srKeep }

/-- After a warm reset a recode that was cut off is over at the new T (R348), except on kept DDR5. -/
def State.settleRecode (s : State) (srKeep : Bool) : State :=
  let s := s.regs.foldl (fun s e => if e.1.reg == .MEM_PLATE_CFG_H && e.1.lo == 0 then
    s.wr F.MEM_PLATE_CFG_H.T_OLD e.1.idx e.2 else s) s
  if srKeep then s else
  s.regs.foldl (fun s e => if e.1.reg == .MEM_PLATE_CFG_D && e.1.lo == 0 then
    s.wr F.MEM_PLATE_CFG_D.T_OLD e.1.idx e.2 else s) s

/-- A warm reset with its cause code (R489, R490, R435). -/
def State.warmReset (s : State) (cause : Nat) : State :=
  if s.held then s else
  let sr := s.is F.MEM_DDR_CFG.SR_KEEP
  let keepState (k : RegKey) (v : Nat) : Bool := k.reg == .ALN_PORT_STATUS && (k.lo == 0 || k.lo == 4) && 8 ≤ v
  let locked := s.rd F.DBG_AUTH_CTL.STATE == 5
  let onIro := s.is F.CKR_STATUS.ROOT_SRC
  let up (p : Nat) : Bool := s.is F.HIF_PORT_STATUS.LINK_UP p
  let r := { State.reset with
    pending := s.pending
    hw := s.hw
    fresh := s.fresh
    fuses := s.fuses
    vellum := s.vellum
    pins := s.pins
    lgr := { s.lgr with capped := [] }
    boot := { BootState.init with nor := s.boot.nor }
    mem := s.mem.warm sr
    aln := { AlnState.init with ports := Tbl.mapVals s.aln.ports (fun _ p => p.warm) }
    dbg := { DbgState.init with lastGrant := s.dbg.lastGrant }
    hif := { HifState.init with
      p0 := { s.hif.p0.cleared false with perst := s.hif.p0.perst, flr := false }
      p1 := { s.hif.p1.cleared false with perst := s.hif.p1.perst, flr := false }
      recovers := s.hif.recovers }
    regs := s.regs.filter (fun e => keptWarm e.1 sr || keepState e.1 e.2) }
  let r := (List.range 2).foldl (fun r p => r.when (up p) (·.inc F.HIF_PORT_CNT2.LINK_DOWNS p)) r
  let r := r.settleRecode sr
  let r := r.when locked (·.wr F.DBG_AUTH_CTL.STATE 0 5)
  let r := r.when onIro (fun r => ((r.wr F.CKR_STATUS.XTAL_OK 0 0).wr F.CKR_STATUS.ROOT_LOCK 0 0).wr
    F.CKR_STATUS.ROOT_SRC 0 1)
  let r := (List.range 14).foldl (fun r n => r.alnSummary n) r
  (r.wr F.CKR_RESET.CAUSE 0 cause).inc F.CKR_RESET.WARMS

/-- A cold reset from power-up or PWRGD is a power cycle of the ledger (R504). -/
def State.powerCycle (s : State) : State :=
  { s with lgr := { s.lgr with acc := { s.lgr.acc with cycles := s.lgr.acc.cycles + 1 } } }

/-! ## The reset commands -/

/-- POWER_UP (R489): power is applied; the device enters cold reset with PORESET_N low.  A power-up that ends a thermal
trip records cause 3, so that the next boot can log it (R505; assumption log 12). -/
def execPowerUp (s : State) : Host.Outcome State Fault Refusal :=
  let cause := if s.pins.thermtrip then 3 else 0
  let s := { s with pins := { poreset := true, pwrgd := 0x3F, profileSel := 0, thermtrip := false } }
  .next (s.coldReset cause).powerCycle

/-- PORESET_ASSERT (R489). -/
def execPoresetAssert (s : State) : Host.Outcome State Fault Refusal :=
  .next (({ s with pins := { s.pins with poreset := true } }).coldReset 1)

/-- PORESET_RELEASE (R490, R492): with the supplies good PORESET_N rises, PROFILE_SEL is sampled, and the pending
profile is the one the pins select. -/
def execPoresetRelease (sel : Nat) (s : State) : Host.Outcome State Fault Refusal :=
  .next (if s.pins.thermtrip || !s.pins.poreset then s else
    let s := { s with pins := { s.pins with poreset := false, pwrgd := 0x3F, profileSel := sel % 4 } }
    (s.wr F.GLB_PROFILE.PINS 0 sel).wr F.GLB_PROFILE.PENDING 0 sel)

/-- PWRGD_DEASSERT (R489): PWRGD[k] falls and the device enters cold reset, where PORESET_N holds it. -/
def execPwrgdDeassert (k : Nat) (s : State) : Host.Outcome State Fault Refusal :=
  .next (if s.pins.thermtrip then s else
    (({ s with pins := { s.pins with poreset := true, pwrgd := clrBit s.pins.pwrgd k } }).coldReset 2).powerCycle)

/-- SYSRESET_ASSERT (R489, R523): a warm reset, or nothing while the device is held in cold reset. -/
def execSysresetAssert (s : State) : Host.Outcome State Fault Refusal := .next (s.warmReset 4)

/-- CKR_RESET_CTL_WARM: a secure write of 1 starts a warm reset. -/
def execCkrResetCtlWarm (src : Src) (s : State) : Host.Outcome State Fault Refusal :=
  .next (if isSecure src then s.withReg src .CKR_RESET_CTL 0 (·.warmReset 8) else s)

/-- THERMTRIP (R491, R522): THERMTRIP_N is asserted and the device holds cold reset until power is removed. -/
def execThermtrip (s : State) : Host.Outcome State Fault Refusal :=
  .next (({ s with pins := { s.pins with thermtrip := true } }).coldReset 3)

end Sys2Proof.Machine
end

