-- ==== Sys2Proof/Machine/Power.lean ====
section
/-!
DEFINITION. The power controller: requests, refusals, transitions and wakes of the 100 power domains (R479 to R488).
-/

namespace Sys2Proof.Machine

/-! ## Refusals (R483) -/

/-- Refuser codes. -/
abbrev rfWORLD : Nat := 1
abbrev rfPROOF : Nat := 2
abbrev rfDEBUG : Nat := 3
abbrev rfBUSY : Nat := 4
abbrev rfLOCK : Nat := 5

/-- Is the domain one of a fenced site, where only WORLD and LOCK apply? -/
def State.domFenced (s : State) (d : Nat) : Bool := d < 60 && s.fbit F.ALN_SUMMARY.FENCED 0 (d / 5)

/-- Cores of a cluster domain, none for another domain. -/
def domCores (d : Nat) : List Nat := if d < 60 && d % 5 < 4 then clusterCores (domCluster d) else []

/-- BUSY of a cluster domain (R228, R251). -/
def State.clusterBusy (s : State) (d : Nat) (off : Bool) : Bool :=
  let l := s.l2c (domCluster d)
  (domCores d).any (fun c => s.rd F.CORE_STATUS.STATE c == 2 || s.rd F.CORE_STATUS.STATE c == 3) ||
  (if off then !l.lines.isEmpty else !(l.pending.isEmpty && l.lb.isEmpty && l.held.isEmpty))

/-- BUSY of an uncore domain: a cluster of the site not OFF (R483), or a port in training (R42). -/
def State.uncoreBusy (s : State) (n : Nat) : Bool :=
  (List.range 4).any (fun c => s.rd F.PWR_DOM_STATUS.STATE (5 * n + c) != 2) ||
  (logicalPorts n).any (fun lp => [1, 2, 3, 4, 5, 7].contains (s.aln? lp))

/-- The BUSY conditions of domain `d` for entry into OFF or RET: R42, R75, R80, R125, R158, R201, R228, R251, R323,
R349, R363, R386 and the uncore condition of R483. -/
def State.domBusy (s : State) (d : Nat) (off : Bool) : Bool :=
  if d < 60 then (if d % 5 < 4 then s.clusterBusy d off else s.uncoreBusy (d / 5))
  else if 65 ≤ d && d ≤ 68 then
    (List.range 60).any (fun k => k % 5 < 4 && s.rd F.PWR_DOM_STATUS.STATE k != 2) ||
      s.rd F.PWR_DOM_STATUS.STATE 98 != 2 || s.rd F.PWR_DOM_STATUS.STATE 99 != 2
  else if 70 ≤ d && d ≤ 81 then
    !off && (List.range 16).any (fun c => ctlDom c == d &&
      (s.mem.initWalk.contains c || !(Tbl.get s.mem.corr c []).isEmpty || s.is F.MEM_WM.WM_BUSY ||
       s.is F.MEM_RECODE.ACTIVE (if c < 8 then 0 else 1) || !s.mem.zeroing.isEmpty))
  else if 82 ≤ d && d ≤ 89 then
    (List.range 24).any (fun k => s.is F.LANE_CFG.RX_EN (24 * (d - 82) + k) || s.is F.LANE_CFG.TX_EN (24 * (d - 82) + k))
  else if d = 90 then s.is F.BEAT_RQ_CFG.RUN
  else if d = 91 then
    (List.range 192).any (fun n => s.is F.LANE_CFG.RX_EN n) || (List.range 64).any (fun k => s.is F.CTX_EPOCH.STATE k) ||
      (List.range 65).any (fun u => s.is F.TRG_UNIT_STATUS.ARMED u)
  else if d = 92 then
    s.is F.EVB_CFG.EN || (List.range 192).any (fun n => s.is F.EVB_HIST_CFG.EN n) || !s.evb.events.isEmpty
  else if d = 93 then !s.stp.running.isEmpty
  else if d = 94 || d = 95 then s.is F.ETH_PORT_CFG.EN (2 * (d - 94)) || s.is F.ETH_PORT_CFG.EN (2 * (d - 94) + 1)
  else if d = 96 then s.is F.HIF_PORT_STATUS.LINK_UP 0
  else if d = 97 then !off && s.is F.HIF_PORT_STATUS.LINK_UP 1
  else if 98 ≤ d then off && s.is F.STN_CFG.OPEN (d - 98)
  else false

/-- Is the domain locked by hardware for RET and OFF: 60 to 64 and populated memory controllers (R483, R349)?  A
populated memory controller is locked against OFF; its RET entry is judged by BUSY alone (R349; assumption log 14). -/
def State.lockHw (s : State) (d : Nat) (off : Bool) : Bool :=
  (60 ≤ d && d ≤ 64) || (off && (List.range 16).any (fun c => ctlDom c == d && s.ctlPopulated c))

/-- The first refuser of a request for state code `target`, with the core of a PROOF or DEBUG refusal (R483). -/
def State.refuser (s : State) (d target : Nat) (secure : Bool) : Option (Nat × Nat) :=
  let off := target == 2
  if !secure && s.is F.PWR_DOM_CTL.OWNER_S d then some (rfWORLD, 0x3FF)
  else if target = 0 then none
  else if s.lockHw d off || s.is F.PWR_DOM_CTL.LOCK_P d then some (rfLOCK, 0x3FF)
  else if s.domFenced d then none
  else match (domCores d).find? (fun c => (s.hart c).proof.isSome) with
    | some c => some (rfPROOF, c)
    | none =>
      if d = 69 && (List.range 4096).any (fun g => s.is F.PRF_GRP_STATUS.STATE g) then some (rfPROOF, 0x3FF)
      else match (domCores d).find? (fun c => s.rd F.CORE_STATUS.STATE c == 5) with
        | some c => some (rfDEBUG, c)
        | none => if s.domBusy d off then some (rfBUSY, 0x3FF) else none

/-- Index of the refusal-table entry for domain `d`: its own, a free one, or the least recently updated (R486). -/
def State.reftabSlot (s : State) (d : Nat) : Nat × Bool :=
  match (List.range 64).find? (fun i => s.is F.PWR_REFTAB.VALID i && s.rd F.PWR_REFTAB.DOMAIN i == d) with
  | some i => (i, false)
  | none =>
    match (List.range 64).find? (fun i => !s.is F.PWR_REFTAB.VALID i) with
    | some i => (i, true)
    | none => (s.pwr.order.headD 0, true)

/-- One refusal or abort in the table (R486), which only H12 has. -/
def State.reftab (s : State) (d code core : Nat) (aborted : Bool) : State :=
  if s.hw.sites ≠ .h12 then s else
  let (i, newEntry) := s.reftabSlot d
  let s := s.when (newEntry && s.is F.PWR_REFTAB.VALID i) (·.inc F.PWR_STATUS.REFTAB_LOST)
  let s := s.when newEntry (fun s =>
    (((s.wr F.PWR_REFTAB.DOMAIN i d).wr F.PWR_REFTAB.VALID i 1).wr F.PWR_REFTAB.REFUSED i 0).wr F.PWR_REFTAB.ABORTED i 0)
  let s := (s.wr F.PWR_REFTAB.REFUSER i code).wr F.PWR_REFTAB.CORE i core
  let s := if aborted then s.inc F.PWR_REFTAB.ABORTED i else s.inc F.PWR_REFTAB.REFUSED i
  { s with pwr := { s.pwr with order := s.pwr.order.filter (· ≠ i) ++ [i] } }

/-- A refusal is recorded (R481, R486): the last refuser, the sticky bit, the table, the ledger, the event. -/
def State.recordRefusal (s : State) (d code core : Nat) : State :=
  let s := (s.wr F.PWR_DOM_STATUS.LAST_REFUSER d code).wr F.PWR_DOM_STATUS.REFUSED d 1
  let s := (s.reftab d code core false).ledger secRefusal (5 * d + (code - 1))
  s.raise F.PWR_DOM_STATUS.EVT_REFUSED d

/-! ## Transitions (R480 to R482, R484) -/

/-- A request is checked (R481, R483): it passes and its transition is accepted, or it is refused and recorded. -/
def State.judge (s : State) (d : Nat) (r : PwrReq) (first : Bool) : State :=
  if r.target = 1 && s.rd F.PWR_DOM_STATUS.STATE d = 2 then s else
  match s.refuser d r.target r.secure with
  | some (code, core) =>
    let s := if first then s.recordRefusal d code core else s.wr F.PWR_DOM_STATUS.LAST_REFUSER d code
    if r.hold then ({ s with pwr := { s.pwr with req := Tbl.put s.pwr.req d r } }).wr F.PWR_DOM_STATUS.PENDING d 1
    else ({ s with pwr := { s.pwr with req := Tbl.erase s.pwr.req d } }).wr F.PWR_DOM_STATUS.PENDING d 0
  | none =>
    let s := { s with pwr := { s.pwr with req := Tbl.erase s.pwr.req d } }
    let s := (s.wr F.PWR_DOM_STATUS.PENDING d 0).wr F.PWR_DOM_CTL.TARGET d r.target
    if r.target = 0 then
      if s.rd F.PWR_DOM_STATUS.STATE d = 0 then { s with pwr := { s.pwr with queue := s.pwr.queue.filter (fun t => !t.doms.contains d) } }
      else (s.recordWake d 1).enqueue [d] 0 1
    else s.enqueue [d] r.target 0

/-- A request made by a write of TARGET (R481): during a transition it replaces any pending request and waits. -/
def State.request (s : State) (d target : Nat) (secure hold : Bool) : State :=
  let r : PwrReq := { target := target, secure := secure, hold := hold, wake := 1 }
  if s.inTransition d then
    ({ s with pwr := { s.pwr with req := Tbl.put s.pwr.req d r } }).wr F.PWR_DOM_STATUS.PENDING d 1
  else s.judge d r true

/-- A write of PWR_DOM_CTL[d]: HOLD, OWNER_S and LOCK_P take the data by type, then TARGET makes its request; the
reserved TARGET 3 requests nothing (R10). -/
def State.pwrCtl (s : State) (src : Src) (d v : Nat) : State :=
  let s := s.wr F.PWR_DOM_CTL.HOLD d (bits v 2 1)
  let s := if isSecure src then (s.wr F.PWR_DOM_CTL.OWNER_S d (bits v 3 1)).wr F.PWR_DOM_CTL.LOCK_P d (bits v 4 1) else s
  if bits v 0 2 = 3 then s else s.request d (bits v 0 2) (isSecure src) (v.testBit 2)

/-- PWR_TARGET_WRITE. -/
def execPwrTargetWrite (src : Src) (d value : Nat) (s : State) : Host.Outcome State Fault Refusal :=
  .next (if d < 100 then s.withReg src .PWR_DOM_CTL d (·.pwrCtl src d value) else s)

/-- PWR_HOLD_RECHECK (R481): a held request is checked again. -/
def State.holdRecheck (s : State) (d : Nat) : State :=
  match Tbl.find s.pwr.req d with
  | some r => if s.inTransition d then s else s.judge d r false
  | none => s

def execPwrHoldRecheck (d : Nat) (s : State) : Host.Outcome State Fault Refusal := .next (s.holdRecheck d)

/-- PWR_HOLD_ABORT (R481, R487): at 10 ms the request is checked once more; still refused, it is aborted and recorded
with its last refuser. -/
def State.holdAbort (s : State) (d : Nat) : State :=
  match Tbl.find s.pwr.req d with
  | some r =>
    if s.inTransition d then s else
    match s.refuser d r.target r.secure with
    | none => s.judge d r false
    | some (code, core) =>
      let s := ({ s with pwr := { s.pwr with req := Tbl.erase s.pwr.req d } }).wr F.PWR_DOM_STATUS.PENDING d 0
      let s := (s.wr F.PWR_DOM_STATUS.LAST_REFUSER d code).reftab d code core true
      s.raise F.PWR_DOM_STATUS.EVT_ABORTED d
  | none => s

def execPwrHoldAbort (d : Nat) (s : State) : Host.Outcome State Fault Refusal := .next (s.holdAbort d)

/-- DOMAIN_WAKE (R484). -/
def execDomainWake (d code : Nat) (s : State) : Host.Outcome State Fault Refusal :=
  .next (if d < 100 && !s.held then s.wake d code else s)

/-- DOMAIN_TRANSITION_START (R482): the arbiter starts one waiting transition by rotating priority over domain
numbers; only one OFF → ON transition runs at a time. -/
def State.transitionStart (s : State) : State :=
  let busy := s.pwr.running.any s.fromOff
  let ready := s.pwr.queue.filter (fun t => !(busy && s.fromOff t) && !t.doms.any s.inTransition)
  match rotGrant 100 s.pwr.ptr (fun d => ready.any (fun t => t.doms.head? == some d)) with
  | none => s
  | some d =>
    match ready.find? (fun t => t.doms.head? == some d) with
    | none => s
    | some t =>
      let s := { s with pwr := { s.pwr with
        ptr := rotNext 100 d, queue := s.pwr.queue.filter (· ≠ t), running := s.pwr.running ++ [t] } }
      (t.doms.foldl (fun s d => s.wr F.PWR_DOM_STATUS.TRANSITION d 1) s).pwrStatus

def execDomainTransitionStart (s : State) : Host.Outcome State Fault Refusal :=
  .next (if s.held then s else s.transitionStart)

/-- One domain reaches the state its transition was for. -/
def State.domArrive (s : State) (d target : Nat) : State :=
  let was := s.rd F.PWR_DOM_STATUS.STATE d
  let s := (s.wr F.PWR_DOM_STATUS.STATE d target).wr F.PWR_DOM_STATUS.TRANSITION d 0
  let s := if target = 2 then s.enterOff d else if target = 0 && was = 2 then s.powerOn d else s
  s.raise F.PWR_DOM_STATUS.EVT_STATE d

/-- What follows a completed transition of domain `d`: the exit a wake asked for, then any waiting request. -/
def State.domFollow (s : State) (d target : Nat) : State :=
  match Tbl.find s.pwr.exits d with
  | some code =>
    let s := { s with pwr := { s.pwr with exits := Tbl.erase s.pwr.exits d } }
    if target = 0 then s else s.enqueue [d] 0 code
  | none =>
    match Tbl.find s.pwr.req d with
    | some r => s.judge d r true
    | none => s

/-- DOMAIN_TRANSITION_DONE (R481, R484, R485): the transition that domain `d` takes part in completes. -/
def State.transitionDone (s : State) (d : Nat) : State :=
  match s.pwr.running.find? (fun t => t.doms.contains d) with
  | none => s
  | some t =>
    let s := { s with pwr := { s.pwr with running := s.pwr.running.filter (· ≠ t) } }
    let s := t.doms.foldl (fun s d => s.domArrive d t.target) s
    (t.doms.foldl (fun s d => s.domFollow d t.target) s).pwrStatus

def execDomainTransitionDone (d : Nat) (s : State) : Host.Outcome State Fault Refusal := .next (s.transitionDone d)

/-! ## Start-up of domains (R488) -/

/-- Domains the controller turns ON at step 3 of R447. -/
def State.bootDomains3 (s : State) : List Nat :=
  (List.range 9).map (61 + ·) ++
  (idxWhere 12 (fun d => (List.range 16).any (fun c => ctlDom c == 70 + d && s.ctlPopulated c))).map (70 + ·) ++
  (idxWhere 12 (fun n => s.hw.site n && !s.fbit F.ALN_SUMMARY.FENCED 0 n)).map uncoreDom ++
  (idxWhere 2 (fun g => s.hw.port (12 + g) && !s.fbit F.ALN_SUMMARY.FENCED 0 (12 + g))).map (98 + ·) ++ [96, 97]

/-- Domains turned ON at step 4. -/
def bootDomains4 : List Nat := (List.range 14).map (82 + ·)

/-- The listed domains, where OFF, are turned ON with wake source BOOT. -/
def State.bootOn (s : State) (ds : List Nat) : State :=
  ds.foldl (fun s d => if s.rd F.PWR_DOM_STATUS.STATE d = 2 then s.wake d 7 else s) s

end Sys2Proof.Machine
end

