-- ==== Sys2Proof/Machine/Clocks.lean ====
section
/-!
DEFINITION. Clock sources, the monitor and failover, domain ratios and gating (R469 to R478).
-/

namespace Sys2Proof.Machine

/-! ## Sources and failover (R469, R470, R476) -/

/-- The root is declared failed with a cause (R476): the first failure since the reset moves it to the IRO. -/
def State.clockFail (s : State) (cause : Nat) : State :=
  if s.is F.CKR_STATUS.FAIL_CAUSE then s else
  let s := (s.wr F.CKR_STATUS.FAIL_CAUSE 0 cause).wr F.CKR_STATUS.ROOT_SRC 0 1
  (s.note 6 cause 0).raise F.CKR_STATUS.EVT_CLOCK_FAIL

/-- The root clock is ready for step 3 of R447: its power domains turn ON and the Alern ports start. -/
def State.rootReady (s : State) : State := (s.bootOn s.bootDomains3).alnAutoTrain

/-- XTAL_STABLE (R469). -/
def execXtalStable (s : State) : Host.Outcome State Fault Refusal :=
  .next (if s.held || s.is F.CKR_STATUS.FAIL_CAUSE then s else s.wr F.CKR_STATUS.XTAL_OK 0 1)

/-- XTAL_TIMEOUT (R469): no stable crystal within 50 ms; the hub boots on from the IRO. -/
def execXtalTimeout (s : State) : Host.Outcome State Fault Refusal :=
  .next (if s.held || s.is F.CKR_STATUS.XTAL_OK || s.is F.CKR_STATUS.FAIL_CAUSE then s else (s.clockFail 1).rootReady)

/-- ROOT_PLL_LOCK (R470): the root PLL is locked on a stable crystal and becomes the root. -/
def execRootPllLock (s : State) : Host.Outcome State Fault Refusal :=
  .next (if s.held || !s.is F.CKR_STATUS.XTAL_OK || s.is F.CKR_STATUS.FAIL_CAUSE then s else
    ((s.wr F.CKR_STATUS.ROOT_LOCK 0 1).wr F.CKR_STATUS.ROOT_SRC 0 0).rootReady)

/-- XTAL_AMPLITUDE_LOSS (R476): cause 2, once the crystal was judged stable. -/
def execXtalAmplitudeLoss (s : State) : Host.Outcome State Fault Refusal :=
  .next (if s.held || !s.is F.CKR_STATUS.XTAL_OK then s else (s.wr F.CKR_STATUS.XTAL_OK 0 0).clockFail 2)

/-- ROOT_PLL_UNLOCK (R476): cause 3. -/
def execRootPllUnlock (s : State) : Host.Outcome State Fault Refusal :=
  .next (if s.held || !s.is F.CKR_STATUS.ROOT_LOCK then s else (s.wr F.CKR_STATUS.ROOT_LOCK 0 0).clockFail 3)

/-- Is a window count out of tolerance: further than TOL/1,024 of the expected count (R475)? -/
def State.outOfTol (s : State) (count expected : Nat) : Bool :=
  s.rd F.CKR_MON_LIM.TOL * expected < 1024 * (if count < expected then expected - count else count - expected)

/-- CLOCK_MONITOR_WINDOW (R475 to R477): the window's count is recorded; two bad windows in a row of the crystal or the
root fail the root, and an IRO drift of more than 1.5 % within tolerance sets EVT_IRO_DRIFT. -/
def State.monWindow (s : State) (which count : Nat) : State :=
  match which with
  | 0 =>
    let bad := s.outOfTol count 512
    let n := if bad then s.ckr.xtalBad + 1 else 0
    let s := ({ s with ckr := { s.ckr with xtalBad := n } }).wr F.CKR_MON.XTAL_IRO 0 count
    s.when (2 ≤ n && s.is F.CKR_STATUS.XTAL_OK) (·.clockFail 2)
  | 1 =>
    let bad := s.outOfTol count 1024
    let n := if bad then s.ckr.rootBad + 1 else 0
    let s := ({ s with ckr := { s.ckr with rootBad := n } }).wr F.CKR_MON.ROOT_IRO 0 count
    s.when (2 ≤ n && s.is F.CKR_STATUS.ROOT_LOCK) (·.clockFail 3)
  | 2 =>
    let diff := if count < 2048 then 2048 - count else count - 2048
    let s := s.wr F.CKR_MON.IRO_XTAL 0 count
    s.when (15 * 2048 < 1000 * diff && !s.outOfTol count 2048) (·.raise F.CKR_STATUS.EVT_IRO_DRIFT)
  | _ => s

def execClockMonitorWindow (which count : Nat) (s : State) : Host.Outcome State Fault Refusal :=
  .next (if s.held then s else s.monWindow which count)

/-! ## Ratios (R471 to R473) -/

/-- Maximum clock of a compute die in MHz (R472): from CD_IDENT once the die is admitted, before that its build's. -/
def State.maxClk (s : State) (n : Nat) : Nat :=
  let m := s.rd F.CD_IDENT.MAX_CLK n
  if m ≠ 0 then 100 * m else if s.hw.build = .c4 then 3400 else 3200

/-- Range of a clock domain in quarter MHz, lowest and highest (R471): fixed domains have one value. -/
def State.clkRange (s : State) (d : Nat) : Nat × Nat :=
  if d < 60 then
    if d % 5 < 4 then (1600, 4 * (if s.lgr.capped.contains (d / 5) then min 2000 (s.maxClk (d / 5)) else s.maxClk (d / 5)))
    else (4000, 8000)
  else match d with
    | 61 => (2000, 4000)
    | 62 => (4000, 8000)
    | 69 => (2000, 4000)
    | 70 => (3125, 6250)
    | 76 | 77 => (1000, 4000)
    | _ => (400 * (clkRatio d).1 / (clkRatio d).2, 400 * (clkRatio d).1 / (clkRatio d).2)

/-- Does a ratio lie in the domain's range and at or below FMAX_PLAN (R473)?  Frequencies are 100 × N / M MHz. -/
def State.ratioInRange (s : State) (d n m : Nat) : Bool :=
  let (lo, hi) := s.clkRange d
  let plan := s.rd F.CKR_DOM.FMAX_PLAN d
  lo * m ≤ 400 * n && 400 * n ≤ hi * m && (plan == 0xFFFF || 100 * n ≤ plan * m)

/-- Has FW_READY become 1 since the last reset? -/
def State.fwReady (s : State) : Bool := s.rd F.SEC_BOOT_STATUS.STAGE == 4

/-- Is a ratio write accepted (R473)? -/
def State.ratioOk (s : State) (d n m : Nat) : Bool :=
  s.ratioInRange d n m && (d < 60 || !s.fwReady || !s.clkOn d) && !s.is F.CKR_DOM.SWITCHING d && d != 63

/-- A secure write of N and M (R473); a reserved 0 keeps the value in force (R10). -/
def State.ratioWrite (s : State) (d v : Nat) : State :=
  let n := if bits v 16 12 = 0 then s.rd F.CKR_DOM.N d else bits v 16 12
  let m := if bits v 28 8 = 0 then s.rd F.CKR_DOM.M d else bits v 28 8
  if d = 63 then s
  else if s.ratioOk d n m then ((s.wr F.CKR_DOM.N d n).wr F.CKR_DOM.M d m).wr F.CKR_DOM.SWITCHING d 1
  else (s.wr F.CKR_DOM.RATIO_REFUSED d 1).raise F.CKR_STATUS.EVT_REFUSED

/-- CKR_RATIO_WRITE: N and M are SRW, so a normal-world write changes nothing. -/
def execCkrRatioWrite (src : Src) (d value : Nat) (s : State) : Host.Outcome State Fault Refusal :=
  .next (if isSecure src && d < 78 then s.withReg src .CKR_DOM d (·.ratioWrite d value) else s)

/-- RATIO_SWITCH_DONE (R473). -/
def execRatioSwitchDone (d : Nat) (s : State) : Host.Outcome State Fault Refusal :=
  .next (s.wr F.CKR_DOM.SWITCHING d 0)

/-! ## Gating (R478) -/

/-- Power domains a gateable clock domain drives (R471), lowest first. -/
def clkDomains (d : Nat) : List Nat :=
  match d with
  | 66 => [82, 83, 84, 85, 86, 87, 88, 89, 91]
  | 67 => [90]
  | 68 => [91]
  | 69 => [92]
  | 70 => [93]
  | 71 => [94, 95]
  | 73 => [97]
  | 74 => [60]
  | 76 => [98]
  | 77 => [99]
  | _ => []

/-- A refused gate write (R478): recorded against the lowest-numbered power domain it clocks. -/
def State.gateRefused (s : State) (d code : Nat) : State :=
  let s := (s.wr F.CKR_DOM.GATE_REFUSED d 1).raise F.CKR_STATUS.EVT_REFUSED
  s.recordRefusal ((clkDomains d).headD 60) code 0x3FF

/-- A write of CKR_DOM[d].EN (R478). -/
def State.gateWrite (s : State) (src : Src) (d en : Nat) : State :=
  if !clkGateable d then s
  else if en % 2 = 1 then s.wr F.CKR_DOM.EN d 1
  else if !isSecure src && s.is F.CKR_DOM.OWNER_S d then s.gateRefused d rfWORLD
  else if (clkDomains d).any (fun p => s.domBusy p false) then s.gateRefused d rfBUSY
  else s.wr F.CKR_DOM.EN d 0

/-- CKR_GATE_WRITE. -/
def execCkrGateWrite (src : Src) (d value : Nat) (s : State) : Host.Outcome State Fault Refusal :=
  .next (if d < 78 then s.withReg src .CKR_DOM d (·.gateWrite src d (value % 2)) else s)

/-- A full write of CKR_DOM[d]: W1C bits and OWNER_S by type, FMAX_PLAN by type, then the ratio where the data differs
from the one in force, then EN. -/
def State.ckrDom (s : State) (src : Src) (d v : Nat) : State :=
  let s := s.when (v.testBit 3) (·.wr F.CKR_DOM.RATIO_REFUSED d 0)
  let s := s.when (v.testBit 4) (·.wr F.CKR_DOM.GATE_REFUSED d 0)
  let s := if isSecure src then (s.wr F.CKR_DOM.OWNER_S d (bits v 2 1)).wr F.CKR_DOM.FMAX_PLAN d (bits v 48 16) else s
  let same := bits v 16 12 = s.rd F.CKR_DOM.N d && bits v 28 8 = s.rd F.CKR_DOM.M d
  let s := if isSecure src && !same then s.ratioWrite d v else s
  if v % 2 = s.rd F.CKR_DOM.EN d then s else s.gateWrite src d (v % 2)

/-! ## The tick of an idle step (R474) -/

/-- One root cycle: CKR_TIME advances by one and CKR_FTIME by the fabric cycles that pass in it, N / M of domain 62. -/
def State.rootTick (s : State) : State :=
  if s.held then s else
  let t := s.ckr.ftRem + s.rd F.CKR_DOM.N 62
  let m := max 1 (s.rd F.CKR_DOM.M 62)
  let s := { s with ckr := { s.ckr with ftRem := t % m } }
  (s.wr F.CKR_TIME.TIME 0 (s.rd F.CKR_TIME.TIME + 1)).wr F.CKR_FTIME.FTIME 0 (s.rd F.CKR_FTIME.FTIME + t / m)

end Sys2Proof.Machine
end

