-- ==== Sys2Proof/Machine/EventCtl.lean ====
section
/-!
DEFINITION. The event controller's own commands: rate intervals, messages to compute harts, and source configuration
(R222, R484, R524 to R529).
-/

namespace Sys2Proof.Machine

/-- The RATE interval of source `i` ends (R527): a held message is sent, which starts the next interval. -/
def State.rateRelease (s : State) (i : Nat) : State :=
  if s.evc.held.contains i then
    ({ s with evc := { s.evc with held := s.evc.held.filter (· ≠ i) } }).sendEvent i
  else { s with evc := { s.evc with interval := s.evc.interval.filter (· ≠ i) } }

/-- EVENT_RATE_RELEASE. -/
def execEventRateRelease (i : Nat) (s : State) : Host.Outcome State Fault Refusal :=
  .next (if s.evc.interval.contains i then s.rateRelease i else s)

/-! ## Messages to compute harts (R222) -/

/-- Depth of a claim FIFO (R222). -/
def claimDepth : Nat := 32

/-- Core and world of a message for a compute hart. -/
def EvMsg.core : EvMsg → Option (Nat × Bool)
  | ⟨_, .hartM c⟩ => some (c, true)
  | ⟨_, .hartS c⟩ => some (c, false)
  | _ => none

/-- What keeps a message from its claim FIFO. -/
inductive HoldWhy where
  | none
  | full
  | asleep
  | off
  /-- the core's site is absent or fenced, so the message is lost -/
  | gone
  deriving DecidableEq, Repr

/-- The claim FIFO a message is for. -/
def State.claimFifo (s : State) (c : Nat) (m : Bool) : List Nat := if m then (s.hart c).claimM else (s.hart c).claimS

/-- Can the message be delivered now? -/
def State.holdWhy (s : State) (c : Nat) (m : Bool) : HoldWhy :=
  if !s.hw.site (siteOf c) || s.fbit F.ALN_SUMMARY.FENCED 0 (siteOf c) then .gone
  else match s.rd F.PWR_DOM_STATUS.STATE (clusterDom (clusterOf c)) with
    | 0 => if claimDepth ≤ (s.claimFifo c m).length then .full else .none
    | 1 => .asleep
    | _ => .off

/-- The message enters its claim FIFO. -/
def State.pushClaim (s : State) (c src : Nat) (m : Bool) : State :=
  let h := s.hart c
  s.setHart c (if m then { h with claimM := h.claimM ++ [src] } else { h with claimS := h.claimS ++ [src] })

/-- A message is offered to its core: delivered, lost on an absent die, or put with the messages held; a full FIFO is
counted, and a cluster in RET is woken (R222, R484). -/
def State.offer (s : State) (msg : EvMsg) : State :=
  match msg.core with
  | none => s
  | some (c, m) =>
    let hold (s : State) : State := { s with evc := { s.evc with waiting := s.evc.waiting ++ [msg] } }
    match s.holdWhy c m with
    | .none => s.pushClaim c msg.source m
    | .gone => s
    | .full => hold (s.inc F.CORE_IRQ_CNT.FIFO_FULL c)
    | .asleep => (hold s).wake (clusterDom (clusterOf c)) 6
    | .off => hold s

/-- Is the held message deliverable now? -/
def State.deliverable (s : State) (msg : EvMsg) : Bool :=
  match msg.core with
  | some (c, m) => s.holdWhy c m == .none || s.holdWhy c m == .gone
  | none => true

/-- The first held message that its core can take goes out, else the oldest in flight is offered. -/
def State.eventDeliver (s : State) : State :=
  match s.evc.waiting.find? s.deliverable with
  | some msg => ({ s with evc := { s.evc with waiting := s.evc.waiting.erase msg } }).offer msg
  | none =>
    match s.evc.flight with
    | [] => s
    | msg :: rest => ({ s with evc := { s.evc with flight := rest } }).offer msg

/-- EVENT_MESSAGE_DELIVER. -/
def execEventMessageDeliver (s : State) : Host.Outcome State Fault Refusal := .next (if s.held then s else s.eventDeliver)

/-! ## Source configuration (R527 to R529) -/

/-- Is TIDX in range for TTYPE (R529)? -/
def tidxOk (ttype tidx : Nat) : Bool :=
  match ttype with
  | 2 => tidx < 4
  | 3 => tidx < 576
  | _ => tidx < 2048

/-- Is a write of EVC_SRC_CFG[i] ignored as a whole (R527, R529)? -/
def State.srcCfgIgnored (s : State) (src : Src) (i v : Nat) : Bool :=
  let sec := isSecure src
  let world := if sec then v.testBit 1 else s.is F.EVC_SRC_CFG.WORLD i
  let tt := bits v 2 2
  (!sec && (s.is F.EVC_SRC_CFG.WORLD i || tt == 2 || s.rd F.EVC_SRC_CFG.TTYPE i == 2)) ||
    (world && tt < 2) || !tidxOk tt (bits v 16 11)

/-- A write of EVC_SRC_CFG[i]: its fields, EN staying 1 on source 504; EN written 0 discards a held message (R528). -/
def State.srcCfg (s : State) (src : Src) (i v : Nat) : State :=
  if s.srcCfgIgnored src i v then s else
  let s := if isSecure src then s.wr F.EVC_SRC_CFG.WORLD i (bits v 1 1) else s
  let s := ((s.wr F.EVC_SRC_CFG.TTYPE i (bits v 2 2)).wr F.EVC_SRC_CFG.TIDX i (bits v 16 11)).wr F.EVC_SRC_CFG.RATE i
    (bits v 32 16)
  let s := s.wr F.EVC_SRC_CFG.EN i (if i = 504 then 1 else v % 2)
  if i ≠ 504 && v % 2 = 0 && s.evc.held.contains i then
    ({ s with evc := { s.evc with held := s.evc.held.filter (· ≠ i) } }).inc F.EVC_SRC_CNT.DISCARDED i
  else s

/-- EVC_SRC_CFG_WRITE. -/
def execEvcSrcCfgWrite (src : Src) (i value : Nat) (s : State) : Host.Outcome State Fault Refusal :=
  .next (if i < 768 then s.withReg src .EVC_SRC_CFG i (·.srcCfg src i value) else s)

end Sys2Proof.Machine
end

