-- ==== Sys2Proof/Machine/Pcie.lean ====
section
/-!
DEFINITION. The PCIe endpoint's commands: links and resets, configuration, BAR4, errors, DMA completions, translation
and the recovery path (R365 to R387).
-/

namespace Sys2Proof.Machine

/-! ## Links and resets -/

/-- PCIE_LINK_UP (R365, R388). -/
def State.linkUp (s : State) (p speed width : Nat) (flit : Bool) : State :=
  if !s.pcieLive p || (s.port p).perst || s.is F.HIF_PORT_STATUS.LINK_UP p then s else
  let s := ((s.wr F.HIF_PORT_STATUS.LINK_UP p 1).wr F.HIF_PORT_STATUS.SPEED p speed).wr F.HIF_PORT_STATUS.WIDTH p width
  let s := (s.wr F.HIF_PORT_STATUS.FLIT p (b2n flit)).raise F.HIF_PORT_STATUS.EVT_LINK p
  if speed ≤ 3 || width < 16 then (s.wr F.HIF_PORT_STATUS.DEGRADED p 1).raise F.HIF_PORT_STATUS.EVT_DEGRADED p else s

def execPcieLinkUp (p speed width : Nat) (flit : Bool) (s : State) : Host.Outcome State Fault Refusal :=
  .next (s.linkUp p speed width flit)

/-- PCIE_LINK_DOWN (R383). -/
def execPcieLinkDown (p : Nat) (s : State) : Host.Outcome State Fault Refusal :=
  .next (if s.is F.HIF_PORT_STATUS.LINK_UP p then (s.linkDown p).conventionalReset p else s)

/-- PERST_ASSERT (R383, R388). -/
def execPerstAssert (p : Nat) (s : State) : Host.Outcome State Fault Refusal :=
  .next (if (s.port p).perst then s else
    let s := s.setPort p { s.port p with perst := true }
    if !s.pcieLive p then s else ((s.inc F.HIF_PORT_CNT2.PERSTS p).linkDown p).conventionalReset p)

/-- PERST_DEASSERT (R385): the port may train. -/
def execPerstDeassert (p : Nat) (s : State) : Host.Outcome State Fault Refusal :=
  .next (s.setPort p { s.port p with perst := false })

/-- HOT_RESET (R383, R388): counted, and the link goes down with it. -/
def execHotReset (p : Nat) (s : State) : Host.Outcome State Fault Refusal :=
  .next (if s.pcieLive p && s.is F.HIF_PORT_STATUS.LINK_UP p then
    ((s.inc F.HIF_PORT_CNT2.HOT_RESETS p).linkDown p).conventionalReset p else s)

/-- A function level reset starts (R384). -/
def State.startFlr (s : State) (p : Nat) : State :=
  let s := (s.inc F.HIF_PORT_CNT2.FLRS p).functionReset p true
  s.setPort p { s.port p with flr := true }

/-- FLR (R384): taken while the function answers. -/
def execFlr (p : Nat) (s : State) : Host.Outcome State Fault Refusal :=
  .next (if s.pcieLive p && s.is F.HIF_PORT_STATUS.LINK_UP p && s.is F.HIF_PORT_STATUS.FW_READY p && !(s.port p).flr then
    s.startFlr p else s)

/-- FLR_DONE (R384). -/
def execFlrDone (p : Nat) (s : State) : Host.Outcome State Fault Refusal :=
  .next (s.setPort p { s.port p with flr := false })

/-- POWER_STATE_CHANGE (R384): to D3hot, or from D3hot to D0, which acts as an FLR. -/
def State.powerState (s : State) (p : Nat) (d3 : Bool) : State :=
  if !(s.pcieLive p && s.is F.HIF_PORT_STATUS.LINK_UP p && s.is F.HIF_PORT_STATUS.FW_READY p) || (s.port p).flr then s
  else if d3 then (s.wr F.HIF_PORT_STATUS.DSTATE p 3).setCfg p 0x44 3
  else if s.rd F.HIF_PORT_STATUS.DSTATE p = 3 then s.startFlr p
  else s

def execPowerStateChange (p : Nat) (d3 : Bool) (s : State) : Host.Outcome State Fault Refusal := .next (s.powerState p d3)

/-! ## Configuration (R367 to R375) -/

/-- BAR size in bytes from its Resizable BAR code. -/
def barBytes (code : Nat) : Nat := 2 ^ (20 + code)

/-- Writable bits of a configuration dword (R367 to R369; log 20). -/
def State.cfgMask (s : State) (p off : Nat) : Nat :=
  let hi (bytes : Nat) : Nat := (2 ^ 64 - bytes) / 2 ^ 32
  let lo (bytes : Nat) : Nat := (2 ^ 64 - bytes) % 2 ^ 32
  match off with
  | 0x04 => 0x00000546
  | 0x10 => lo (2 ^ 26)
  | 0x14 => hi (2 ^ 26)
  | 0x18 => lo (barBytes (s.port p).bar2)
  | 0x1C => hi (barBytes (s.port p).bar2)
  | 0x20 => lo (barBytes (s.port p).bar4)
  | 0x24 => hi (barBytes (s.port p).bar4)
  | 0x3C => 0xFF
  | 0x50 => 0xC0000000
  | 0x78 => 0x79FF
  | 0x80 => 0xC3
  | 0x98 => 0x100F
  | 0x108 | 0x10C => 0x007FF030
  | 0x114 => 0x0000F1C1
  | 0x118 => 0x140
  | 0x19C => 0x00010000
  | 0x1A4 => 0x801F0000
  | _ => 0

/-- Bits of a configuration dword that a one clears. -/
def cfgW1c (off : Nat) : Nat :=
  match off with
  | 0x04 => 0xF9000000
  | 0x78 => 0x000F0000
  | 0x104 => 0x007FF030
  | 0x110 => 0x0000F1C1
  | _ => 0

/-- Byte-enable mask of a dword. -/
def beMask (be : Nat) : Nat := (List.range 4).foldl (fun m k => if be.testBit k then m + 0xFF <<< (8 * k) else m) 0

/-- The dword after a masked write. -/
def maskWrite (old new mask : Nat) : Nat := (old &&& (0xFFFFFFFF ^^^ mask)) ||| (new &&& mask)

/-- A Resizable BAR Control write of BAR Size, taken only while Memory Space Enable is 0 (R373); the BAR's address bits
below the new size read cleared. -/
def State.barSize (s : State) (p : Nat) (bar4 : Bool) (code : Nat) : State :=
  let ok := if bar4 then 10 ≤ code && code ≤ 22 else code ≤ 6
  if (s.cfg p 0x04).testBit 1 || !ok then s else
  let x := s.port p
  let s := s.setPort p (if bar4 then { x with bar4 := code } else { x with bar2 := code })
  let o := if bar4 then 0x20 else 0x18
  (s.setCfg p o (s.cfg p o &&& s.cfgMask p o)).setCfg p (o + 4) (s.cfg p (o + 4) &&& s.cfgMask p (o + 4))

/-- DVSEC RECOVER (R374, R375): the key on port 0, with no reset pending, requests a warm reset. -/
def State.recover (s : State) (p value cause : Nat) : State :=
  if p = 0 && value = 0x5741524D && !s.hif.recPending then
    ({ s with hif := { s.hif with
        recPending := true, recovers := satAdd 16 s.hif.recovers 1, recCause := cause } }).raise F.HIF_PORT_STATUS.EVT_RECOVER
  else s

/-- Does the function take configuration writes (R384, R385)? -/
def State.cfgOpen (s : State) (p : Nat) : Bool :=
  s.pcieLive p && s.is F.HIF_PORT_STATUS.LINK_UP p && s.is F.HIF_PORT_STATUS.FW_READY p && !(s.port p).flr

/-- A configuration write of one dword with byte enables. -/
def State.cfgWrite (s : State) (p off be v : Nat) : State :=
  let m := beMask be
  let w1c := v &&& m &&& cfgW1c off
  let old := s.cfg p off
  let s := s.setCfg p off (maskWrite old v (s.cfgMask p off &&& m) &&& (0xFFFFFFFF ^^^ w1c))
  match off with
  | 0x04 | 0x50 => s.msixFlush p
  | 0x44 => if be.testBit 0 then (if bits v 0 2 = 3 then s.powerState p true else if bits v 0 2 = 0 then s.powerState p false else s) else s
  | 0x78 => if be.testBit 1 && v.testBit 15 then s.startFlr p else s
  | 0x160 => if be.testBit 1 then s.barSize p false (bits v 8 6) else s
  | 0x168 => if be.testBit 1 then s.barSize p true (bits v 8 6) else s
  | 0x2B0 =>
    let x := s.port p
    if v.testBit 0 && be.testBit 0 then s.setPort p { x with doe := { x.doe with inbox := [], outbox := [] } }
    else if v.testBit 31 && be.testBit 3 then s.setPort p { x with doe := { x.doe with inbox := [] } }
    else s
  | 0x2B8 =>
    let x := s.port p
    s.setPort p { x with doe := { x.doe with inbox := x.doe.inbox ++ [v % 2 ^ 32] } }
  | 0x2BC =>
    let x := s.port p
    s.setPort p { x with doe := { x.doe with outbox := x.doe.outbox.drop 4 } }
  | 0x2D8 => if be = 15 then s.recover p v 6 else s
  | _ => s

/-- CONFIG_WRITE: a function that answers Configuration Request Retry Status takes nothing. -/
def execConfigWrite (p off be value : Nat) (s : State) : Host.Outcome State Fault Refusal :=
  .next (if s.cfgOpen p then s.cfgWrite p off be value else s)

/-- Header of an extended capability: its ID and version of the standard, and the offset of the next one (R369). -/
def capHead (id ver next : Nat) : Nat := id + ver <<< 16 + next <<< 20

/-- What a configuration read of a dword returns (R367 to R374).  Capability dwords the spec does not restate read
their writable part. -/
def State.cfgRead (s : State) (p off : Nat) : Nat :=
  let gen := s.rd F.ALN_SUMMARY.PKG_GEN
  let raw := s.cfg p off
  match off with
  | 0x00 => 0x1E9B + (0x4812 + p) <<< 16
  | 0x04 => raw ||| 0x00100000
  | 0x08 => 0x12000000 + 0x20 + gen % 16
  | 0x10 => raw ||| 0x4
  | 0x18 | 0x20 => raw ||| 0xC
  | 0x2C => 0x1E9B + (s.hw.nSites <<< 12 + (gen % 16) <<< 8 + s.hw.nGuests <<< 4) <<< 16
  | 0x34 => 0x40
  | 0x40 => 0x01 + 0x50 <<< 8 + 3 <<< 16
  | 0x44 => s.rd F.HIF_PORT_STATUS.DSTATE p
  | 0x50 => raw ||| (0x11 + 0x70 <<< 8 + 2047 <<< 16)
  | 0x54 => 0x00780000 + p * 0x10000
  | 0x58 => 0x00788000 + p * 0x10000
  | 0x70 => 0x10 + 2 <<< 16
  | 0x74 => 0x10008022
  | 0x94 => 0x0003000F
  | 0x100 => capHead 0x0001 2 0x148
  | 0x148 => capHead 0x0003 1 0x158
  | 0x14C => s.fuses.serial % 2 ^ 32
  | 0x150 => s.fuses.serial / 2 ^ 32 % 2 ^ 32
  | 0x158 => capHead 0x0015 1 0x170
  | 0x15C => 0x000007F0
  | 0x160 => 2 + 2 <<< 5 + (s.port p).bar2 <<< 8
  | 0x164 => 0x07FFC000
  | 0x168 => 4 + (s.port p).bar4 <<< 8
  | 0x170 => capHead 0x0025 1 0x198
  | 0x174 => 0x80000001
  | 0x198 => capHead 0x001B 1 0x1A0
  | 0x19C => raw ||| 0x1400
  | 0x1A0 => capHead 0x000F 1 0x1B0
  | 0x1A4 => raw ||| 0x20
  | 0x1B0 => capHead 0x0019 1 0x1E0
  | 0x1E0 => capHead 0x0026 1 0x210
  | 0x210 => capHead 0x002A 1 0x240
  | 0x240 => capHead 0x0031 1 0x260
  | 0x260 => capHead 0x0027 1 0x2A8
  | 0x2A8 => capHead 0x002E 1 0x2C0
  | 0x2B4 => b2n (!s.is F.HIF_PORT_STATUS.FW_READY p) + b2n (!(s.port p).doe.outbox.isEmpty) <<< 31
  | 0x2BC => leAt (s.port p).doe.outbox 0 4
  | 0x2C0 => 0x00010023
  | 0x2C4 => 0x02011E9B
  | 0x2C8 => 0x00000001
  | 0x2CC => 0x02 + gen <<< 8 + s.hw.nSites <<< 16 + s.hw.nGuests <<< 20 + p <<< 22
  | 0x2D0 => s.rd F.BEAT_STATUS.UNIT + s.rd F.BEAT_RQ_CFG.RUN <<< 2 + s.rd F.TIO_STATUS.BUSY <<< 3 +
      s.rd F.HIF_PORT_STATUS.FW_READY p <<< 4 + b2n (s.is F.ALN_SUMMARY.FENCED) <<< 5
  | 0x2D4 => s.rd F.BEAT_COUNT.COUNT % 2 ^ 32
  | 0x2D8 => 0
  | 0x2DC => s.hif.recovers + b2n s.hif.recPending <<< 16
  | _ => raw

/-! ## BAR4 (R372) -/

/-- Is an access at BAR4 offset `off` refused, given its physical address? -/
def State.bar4Refused (s : State) (p pa len : Nat) : Bool :=
  !s.is F.HIF_PORT_CFG.BAR4_EN p || (platesOf pa len).any (fun a => !s.populated a || s.securePlate a)

/-- Physical address of a BAR4 offset. -/
def State.bar4Addr (s : State) (p off : Nat) : Nat := s.rd F.HIF_BAR4_SEL.BASE p * 2 ^ 30 + off

/-- BAR4_READ: unsupported while the function serves no BAR; Completer Abort when refused; otherwise the data, with EP
and POISON_TX when a line of it is poisoned. -/
def State.bar4Read (s : State) (p tag off len : Nat) : State :=
  if !s.pcieLive p || !s.is F.HIF_PORT_STATUS.LINK_UP p || (s.port p).flr then s
  else if !s.barOpen p || barBytes (s.port p).bar4 < off + len then
    (s.sendTlp p (.cpl tag 1 false [])).when (s.barOpen p) (·.aerUnc p .unsupported [])
  else
    let pa := s.bar4Addr p off
    if s.is F.HIF_PORT_CFG.BAR4_EN p then
      let (a, s) := s.devRead p false pa len
      match a.why with
      | .none =>
        let s := s.when (!a.bad.isEmpty) (·.inc F.HIF_PORT_CNT1.POISON_TX p)
        s.sendTlp p (.cpl tag 0 (!a.bad.isEmpty) a.data)
      | .busy => s
      | _ => (s.aerUnc p .abort []).sendTlp p (.cpl tag 4 false [])
    else (s.aerUnc p .abort []).sendTlp p (.cpl tag 4 false [])

def execBar4Read (p tag off len : Nat) (s : State) : Host.Outcome State Fault Refusal := .next (s.bar4Read p tag off len)

/-- BAR4_WRITE: served, or dropped and counted; EP stores its lines poisoned and is logged. -/
def State.bar4Write (s : State) (p off : Nat) (data : List (BitVec 8)) (ep : Bool) : State :=
  if !s.barOpen p then s
  else if barBytes (s.port p).bar4 < off + data.length then s.aerUnc p .unsupported []
  else
    let log (s : State) : State := s.when ep (·.aerUnc p .poisoned [])
    if !s.is F.HIF_PORT_CFG.BAR4_EN p then (log s).inc F.HIF_PORT_CNT1.DROPPED_WR p
    else
      let (why, s) := s.devWrite p false (s.bar4Addr p off) data ep
      match why with
      | .none => log s
      | .busy => s
      | _ => (log s).inc F.HIF_PORT_CNT1.DROPPED_WR p

def execBar4Write (p off : Nat) (data : List (BitVec 8)) (ep : Bool) (s : State) : Host.Outcome State Fault Refusal :=
  .next (s.bar4Write p off data ep)

/-! ## Errors and recovery (R375, R382) -/

/-- TLP_ERROR (R382): each row of its table. -/
def State.tlpError (s : State) (p : Nat) (k : TlpErr) (hdr : List Nat) : State :=
  match k with
  | .receiver => s.aerCor p 0
  | .badTlp => s.aerCor p 6
  | .badDllp => s.aerCor p 7
  | .replayRollover => s.aerCor p 8
  | .replayTimeout => s.aerCor p 12
  | .correctedInternal => s.aerCor p 14
  | .poisonedWrite => s.aerUnc p .poisoned hdr
  | .unsupported => s.aerUnc p .unsupported hdr
  | .malformed => s.aerUnc p .malformed hdr
  | .flowControl => s.aerUnc p .flowControl hdr
  | .overflow => s.aerUnc p .overflow hdr
  | .dataLink => s.aerUnc p .dataLink hdr
  | .unexpectedCompletion => (s.aerUnc p .unexpected hdr).inc F.HIF_PORT_CNT1.UNEXP_CPL p
  | .uncorrectableInternal =>
    let s := (s.aerUnc p .internal hdr).haltPort p
    s.setPort p { s.port p with internalErr := true }

def execTlpError (p : Nat) (kind : TlpErr) (header : List Nat) (s : State) : Host.Outcome State Fault Refusal :=
  .next (if s.pcieLive p && s.is F.HIF_PORT_STATUS.LINK_UP p then s.tlpError p kind header else s)

/-- DVSEC_RECOVER (R375): dropped with the rest of the configuration traffic during a function reset (R387). -/
def execDvsecRecover (p value : Nat) (s : State) : Host.Outcome State Fault Refusal :=
  .next (if s.cfgOpen p then s.recover p value 6 else s)

/-- RECOVER_TIMEOUT (R375): Calom has not started the reset, so the hub does, with cause 7. -/
def execRecoverTimeout (s : State) : Host.Outcome State Fault Refusal :=
  .next (if s.hif.recPending then s.warmReset 7 else s)

/-- LANE_MARGINING (R366): at 16 GT/s and above the command runs and its lane status entry reports it; traffic and
everything else are undisturbed. -/
def execLaneMargining (p lane value : Nat) (s : State) : Host.Outcome State Fault Refusal :=
  .next (if s.cfgOpen p && 4 ≤ s.rd F.HIF_PORT_STATUS.SPEED p && lane < 16 then
    s.setCfg p (0x268 + 4 * lane) (value % 65536 + (value % 65536) <<< 16) else s)

/-! ## DMA completions (R378, R381, R382) -/

/-- Invalidation Requests whose waited-for DMAs have all ended are completed (R378). -/
def State.settleInval (s : State) (p : Nat) : State :=
  let x := s.port p
  let open' (q : Nat × List Nat) : Bool := q.2.any (fun t => x.dma.any (fun d => d.tag == t))
  let done := x.inval.filter (fun q => !open' q)
  let s := s.setPort p { x with inval := x.inval.filter open' }
  done.foldl (fun s q => s.sendTlp p (.invalidateCpl q.1)) s

/-- A ring's DMA read failed (R381, R382, R404): its command ends with the status and the ring halts; a descriptor read
halts it with cause 0x4. -/
def State.dmaFailed (s : State) (r status : Nat) : State :=
  if (s.ring r).cur.isSome then s.halt r 1 status
  else
    let x := s.ring r
    let slot := s.rd F.HIF_RING_IDX.SQ_CI r
    (s.setRing r { x with cur := some (RingCmd.mk slot [] none none false) }).halt r 4 status

/-- DMA_COMPLETION (R381, R382). -/
def State.dmaCompletion (s : State) (p tag status : Nat) (ep : Bool) (data : List (BitVec 8)) : State :=
  let x := s.port p
  match x.dma.find? (fun d => d.tag == tag) with
  | none => (s.aerUnc p .unexpected []).inc F.HIF_PORT_CNT1.UNEXP_CPL p
  | some d =>
    let s := s.setPort p { x with dma := x.dma.filter (fun e => e.tag ≠ tag) }
    let s := if status ≠ 0 then
        let s := s.aerUnc p (if status = 1 then .unsupported else .abort) []
        if 8192 ≤ d.owner then s.ioDone (d.owner - 8192) none else s.dmaFailed d.owner csABORTED
      else
        let s := s.when ep (·.aerUnc p .poisoned [])
        if 8192 ≤ d.owner then (if ep then s.ioPoison (d.owner - 8192) else s.ioDone (d.owner - 8192) (some data))
        else
          let y := s.ring d.owner
          s.setRing d.owner { y with buf := y.buf ++ [DmaData.mk d.addr (data.take d.len) ep] }
    s.settleInval p

def execDmaCompletion (p tag status : Nat) (ep : Bool) (data : List (BitVec 8)) (s : State) :
    Host.Outcome State Fault Refusal :=
  .next (if s.pcieLive p && s.is F.HIF_PORT_STATUS.LINK_UP p then s.dmaCompletion p tag status ep data else s)

/-- A DMA read or translation request of an owner has timed out. -/
def State.tagTimeout (s : State) (p owner : Nat) : State :=
  let s := ((s.aerUnc p .cplTimeout []).inc F.HIF_PORT_CNT1.CPL_TMO p).raise F.HIF_PORT_STATUS.EVT_CPL_TMO p
  if 8192 ≤ owner then s.ioDone (owner - 8192) none else s.dmaFailed owner csTIMEOUT

/-- DMA_COMPLETION_TIMEOUT (R381): of a DMA read, or of the translation request that precedes one. -/
def State.dmaTimeout (s : State) (p tag : Nat) : State :=
  let x := s.port p
  match x.dma.find? (fun d => d.tag == tag), x.xlatReqs.find? (fun q => q.tag == tag) with
  | some d, _ => ((s.setPort p { x with dma := x.dma.filter (fun e => e.tag ≠ tag) }).tagTimeout p d.owner).settleInval p
  | none, some q => (s.setPort p { x with xlatReqs := x.xlatReqs.filter (fun e => e.tag ≠ tag) }).tagTimeout p q.owner
  | none, none => s

def execDmaCompletionTimeout (p tag : Nat) (s : State) : Host.Outcome State Fault Refusal := .next (s.dmaTimeout p tag)

/-- TRANSLATION_COMPLETION (R378): cached, the oldest of 4,096 entries making room; a refusal, or a grant short of the
need, ends the command with ABORTED and halts its ring. -/
def State.xlatCompletion (s : State) (p tag : Nat) (ok : Bool) (frame : Nat) (read write : Bool) : State :=
  let x := s.port p
  match x.xlatReqs.find? (fun q => q.tag == tag) with
  | none => (s.aerUnc p .unexpected []).inc F.HIF_PORT_CNT1.UNEXP_CPL p
  | some q =>
    let x := { x with xlatReqs := x.xlatReqs.filter (fun e => e.tag ≠ tag) }
    if ok && (read || !q.read) && (write || !q.write) then
      let cache := x.cache.filter (fun e => !(e.pasid == q.pasid && e.page == q.page)) ++
        [Xlat.mk 0 0 q.pasid q.page frame read write]
      let s := s.setPort p { x with cache := cache.drop (cache.length - 4096) }
      if 8192 ≤ q.owner then s.coreDma (q.owner - 8192) else s
    else
      let s := s.setPort p x
      if 8192 ≤ q.owner then s.ioDone (q.owner - 8192) none else s.dmaFailed q.owner csABORTED

def execTranslationCompletion (p tag : Nat) (ok : Bool) (frame : Nat) (read write : Bool) (s : State) :
    Host.Outcome State Fault Refusal :=
  .next (if s.pcieLive p && s.is F.HIF_PORT_STATUS.LINK_UP p then s.xlatCompletion p tag ok frame read write else s)

/-- ATS_INVALIDATION (R378, R387): the entries go, and the request is completed once every translated read that used
one of them has completed; during an FLR at once. -/
def State.atsInvalidate (s : State) (p itag pasid page count : Nat) : State :=
  let hit (pa : Option Nat) (g : Nat) : Bool := pa == some pasid && page ≤ g && g < page + count
  let x := s.port p
  if x.flr then s.sendTlp p (.invalidateCpl itag) else
  let users := x.dma.filter (fun d => d.translated && (s.pagesOf p d.addr d.len).any (hit d.pasid))
  let s := s.setPort p { x with
    cache := x.cache.filter (fun e => !hit e.pasid e.page), inval := x.inval ++ [(itag, users.map (·.tag))] }
  s.settleInval p

def execAtsInvalidation (p itag pasid page count : Nat) (s : State) : Host.Outcome State Fault Refusal :=
  .next (if s.pcieLive p && s.is F.HIF_PORT_STATUS.LINK_UP p then s.atsInvalidate p itag pasid page count else s)

end Sys2Proof.Machine
end

