-- ==== Sys2Proof/Machine/Rings.lean ====
section
/-!
DEFINITION. Rings, doorbells, descriptor fetch, completions and the memory accesses of commands (R389 to R405, R412).
-/

namespace Sys2Proof.Machine

/-! ## Configuration (R390, R403, R405) -/

/-- Does a slice-0 requester make the access: the manager, or the secure world, which counts as slice 0 (R417)? -/
def State.isManager (s : State) (src : Src) : Bool := s.srcSlice src == 0

/-- Enabled rings, by number. -/
def State.enabledRings (s : State) : List Nat :=
  s.regs.filterMap (fun e => if e.1.reg == Reg.HIF_RING_CFG && e.1.lo == 0 && e.2 == 1 then some e.1.idx else none)

/-- Does a range lie wholly in normal plates of slice `sl`, or in the host window (R389)? -/
def State.ringPlace (s : State) (sl pa len : Nat) : Bool :=
  inHost pa len || (s.inPlates sl pa len && (platesOf pa len).all (fun a => !s.securePlate a))

/-- The conditions of R390 on an EN = 1. -/
def State.ringValid (s : State) (r : Nat) : Bool :=
  let sq := s.rd F.HIF_RING_CFG.SQ_LOG r
  let cq := s.rd F.HIF_RING_CFG.CQ_LOG r
  let sl := s.ringSlice r
  let dbi := s.rd F.HIF_RING_CFG.DBI r
  4 ≤ sq && sq ≤ 16 && 4 ≤ cq && cq ≤ 16 &&
  s.sqBase r % (64 * 2 ^ sq) == 0 && s.cqBase r % (32 * 2 ^ cq) == 0 &&
  s.ringPlace sl (s.sqBase r) (64 * 2 ^ sq) && s.ringPlace sl (s.cqBase r) (32 * 2 ^ cq) &&
  dbi ≤ 383 && !s.enabledRings.any (fun k => k ≠ r && s.ringSlice k == sl && s.rd F.HIF_RING_CFG.DBI k == dbi) &&
  s.ownerV (s.ringPort r) (s.rd F.HIF_RING_IRQ.VECTOR r) == sl

/-- HIF_SLICE_USE counts of a slice follow the ownership records (R436). -/
def State.sliceUse (s : State) (sl : Nat) : State :=
  let cnt (n : Nat) (own : Nat → Nat) : Nat := ((List.range n).filter (fun k => own k == sl)).length
  if sl = 0 then s else
  let s := (s.wr F.HIF_SLICE_USE.CORES sl (cnt 576 s.coreSlice)).wr F.HIF_SLICE_USE.HBM_PLATES sl (cnt 192 s.ownerH)
  (s.wr F.HIF_SLICE_USE.DDR_PLATES sl (cnt 2048 s.ownerD)).wr F.HIF_SLICE_USE.RINGS sl (cnt 8192 s.ringSlice)

/-- The SLICE of a ring changes hands; its role epoch increments at each change (R390). -/
def State.ringOwner (s : State) (r sl : Nat) : State :=
  let was := s.ringSlice r
  if was = sl then s else
  (((s.wr F.HIF_RING_CFG.SLICE r sl).bump F.HIF_RING_CFG.ROLE_EPOCH r).sliceUse was).sliceUse sl

/-- The ring is disabled (R403): a DATA command is abandoned, and no completion is written. -/
def State.ringDisable (s : State) (r : Nat) : State :=
  let s := (s.abandonUnits r).setRing r Ring.init
  ((s.wr F.HIF_RING_CFG.EN r 0).bump F.HIF_RING_CFG.ROLE_EPOCH r).ringGo r rsDISABLED

/-- RESUME of a HALTED ring (R405): RUNNING again; the completion held for cause 0x2 becomes due first. -/
def State.ringResume (s : State) (r : Nat) : State :=
  if s.ringState r ≠ rsHALTED || (s.port (s.ringPort r)).internalErr then s else
  let x := s.ring r
  let x := match x.held with
    | some (slot, user) =>
      { x with held := none, cur := some (RingCmd.mk slot ([0, 0, 0, 0] ++ natLE 4 user) (some (csABORTED, 0, 0, 0)) (some 2) true) }
    | none => x
  (s.setRing r x).ringGo r rsRUNNING

/-- A write of HIF_RING_CFG[r] (R390, R414). -/
def State.ringCfg (s : State) (r v : Nat) : State :=
  if s.is F.HIF_RING_CFG.EN r then
    if v.testBit 0 then (if v.testBit 2 then s.ringResume r else s) else s.ringDisable r
  else
    let t := ((s.wr F.HIF_RING_CFG.PORT r (bits v 1 1)).wr F.HIF_RING_CFG.SQ_LOG r (bits v 3 5)).wr F.HIF_RING_CFG.CQ_LOG r
      (bits v 8 5)
    let t := (t.wr F.HIF_RING_CFG.DBI r (bits v 32 9)).ringOwner r (bits v 16 8)
    if !v.testBit 0 then t
    else if !t.ringValid r then s.raise F.HIF_RING_STATUS.EVT_REFUSED
    else
      let t := (t.wr F.HIF_RING_CFG.EN r 1).bump F.HIF_RING_CFG.ROLE_EPOCH r
      let t := ((t.wr F.HIF_RING_IDX.SQ_PI r 0).wr F.HIF_RING_IDX.SQ_CI r 0).wr F.HIF_RING_IDX.CQ_PI r 0
      ((t.wr F.HIF_RING_IDX.CQ_CI r 0).setRing r Ring.init).ringGo r rsRUNNING

/-- RING_ENABLE: only the manager configures rings. -/
def execRingEnable (src : Src) (r value : Nat) (s : State) : Host.Outcome State Fault Refusal :=
  .next (if s.isManager src && r < 8192 then s.withReg src .HIF_RING_CFG r (·.ringCfg r value) else s)

/-- RING_RESUME. -/
def execRingResume (src : Src) (r : Nat) (s : State) : Host.Outcome State Fault Refusal :=
  .next (if s.isManager src && r < 8192 then s.withReg src .HIF_RING_CFG r (·.ringResume r) else s)

/-- A write of HIF_EVQ_DB[q] (R416). -/
def State.evqDb (s : State) (q v : Nat) : State :=
  let dbi := bits v 0 8
  let own := s.rd F.EVB_EVQ_CFG.OWNER q
  let dup := (List.range 1024).any (fun k => k ≠ q && s.is F.HIF_EVQ_DB.VALID k && s.rd F.HIF_EVQ_DB.DBI k == dbi &&
    s.rd F.EVB_EVQ_CFG.OWNER k == own)
  if v.testBit 15 && dup then s.raise F.HIF_RING_STATUS.EVT_REFUSED
  else (s.wr F.HIF_EVQ_DB.DBI q dbi).wr F.HIF_EVQ_DB.VALID q (bits v 15 1)

/-- HIF_EVQ_DB_WRITE. -/
def execHifEvqDbWrite (src : Src) (q value : Nat) (s : State) : Host.Outcome State Fault Refusal :=
  .next (if q < 1024 then s.withReg src .HIF_EVQ_DB q (·.evqDb q value) else s)

/-! ## Doorbells (R391 to R396) -/

/-- A doorbell is dropped under R391 or R392. -/
def State.badDb (s : State) : State := (s.inc F.HIF_RING_CNT0.BAD_DB).raise F.HIF_RING_STATUS.EVT_DB

/-- Page-per-ring mode of a port (R391). -/
def State.pagePerRing (s : State) (p : Nat) : Bool := if p = 0 then s.is F.HIF_DB_CFG.PPR0 else s.is F.HIF_DB_CFG.PPR1

/-- The ring a BAR2 offset names, with whether it names its CQ doorbell; none for an offset the table does not list. -/
inductive DbName where
  | unlisted
  | ring (r : Option Nat) (cq : Bool)
  | queue (q : Option Nat)
  deriving DecidableEq, Repr

/-- What a BAR2 offset of a port names (R391). -/
def State.dbName (s : State) (p off : Nat) : DbName :=
  let page := off / 0x1000
  let o := off % 0x1000
  if s.pagePerRing p then
    if off < 0x2000000 then
      if o = 0 || o = 4 then
        .ring (if page < 8192 && s.is F.HIF_RING_CFG.EN page && s.ringPort page == p then some page else none) (o = 4)
      else .unlisted
    else if o = 0 && page - 0x2000 < 1024 then
      .queue (if s.is F.EVB_EVQ_CFG.EN (page - 0x2000) then some (page - 0x2000) else none)
    else .unlisted
  else if page < 256 && o % 4 = 0 then
    if o < 0xC00 then
      .ring (s.enabledRings.find? (fun r => s.ringSlice r == page && s.rd F.HIF_RING_CFG.DBI r == o / 8 && s.ringPort r == p))
        (o % 8 = 4)
    else
      .queue ((List.range 1024).find? (fun q => s.is F.HIF_EVQ_DB.VALID q && s.rd F.HIF_EVQ_DB.DBI q == (o - 0xC00) / 4 &&
        s.rd F.EVB_EVQ_CFG.OWNER q == page))
  else .unlisted

/-- The checks of R393, in order, on a doorbell with a value; a pass moves SQ_PI or CQ_CI. -/
def State.ringDoorbell (s : State) (r : Nat) (cq : Bool) (v : Nat) : State :=
  let n := if cq then s.cqSize r else s.sqSize r
  let new := v % 65536
  let pi := if cq then s.rd F.HIF_RING_IDX.CQ_PI r else s.rd F.HIF_RING_IDX.SQ_PI r
  let ci := if cq then s.rd F.HIF_RING_IDX.CQ_CI r else s.rd F.HIF_RING_IDX.SQ_CI r
  let dNew := (new + n - ci) % n
  let dPi := (pi + n - ci) % n
  if v / 65536 % 65536 ≠ s.rd F.HIF_RING_CFG.ROLE_EPOCH r then
    (s.inc F.HIF_RING_ST.STALE r).inc F.HIF_RING_CNT0.STALE_DB
  else if s.ringState r ≠ rsRUNNING || n ≤ new || (if cq then dPi < dNew else dNew < dPi) then
    ((s.inc F.HIF_RING_ST.BAD_DB r).inc F.HIF_RING_CNT0.BAD_DB).raise F.HIF_RING_STATUS.EVT_DB
  else s.wr (if cq then F.HIF_RING_IDX.CQ_CI else F.HIF_RING_IDX.SQ_PI) r new

/-- A doorbell that acts for slice `sl` (R392): one that names another slice's ring is dropped and reported. -/
def State.slicedDoorbell (s : State) (sl r : Nat) (cq : Bool) (v : Nat) : State :=
  if sl ≠ 0 && s.ringSlice r ≠ sl then (s.badDb.raise F.HIF_RING_STATUS.EVT_SPOOF).spoof sl 1 r
  else s.ringDoorbell r cq v

/-- The doorbell arbiter's pointer after serving source `k` (R396). -/
def State.dbServed (s : State) (k : Nat) : State := { s with hif := { s.hif with dbPtr := rotNext 4 k } }

/-- A doorbell for a ring from any of its sources (R391, R392, R396). -/
def State.doorbell (s : State) (db : DbSrc) (cq : Bool) (v : Nat) : State :=
  if !s.ringLive || s.held then s else
  match db with
  | .bar2 p off =>
    if !s.barOpen p || barBytes (s.port p).bar2 ≤ off then s else
    match s.dbName p off with
    | .ring (some r) c => if c == cq then (s.dbServed p).ringDoorbell r cq v else s
    | .ring none _ => (s.dbServed p).badDb
    | .queue none => (s.dbServed p).badDb
    | _ => s
  | .window src r =>
    match src with
    | .host p => if p = 0 && s.barOpen 0 && r < 8192 then (s.dbServed 2).ringDoorbell r cq v else if p = 1 && s.barOpen 1 then
        s.inc F.HIF_PORT_CNT1.DROPPED_WR 1 else s
    | .tap => s
    | _ => if r < 8192 then (s.dbServed 2).slicedDoorbell (s.srcSlice src) r cq v else s
  | .proof core r => if r < 8192 then (s.dbServed 3).slicedDoorbell (if s.ns core then s.coreSlice core else 0) r cq v else s

/-- SQ_DOORBELL. -/
def execSqDoorbell (db : DbSrc) (value : Nat) (s : State) : Host.Outcome State Fault Refusal := .next (s.doorbell db false value)

/-- CQ_DOORBELL. -/
def execCqDoorbell (db : DbSrc) (value : Nat) (s : State) : Host.Outcome State Fault Refusal := .next (s.doorbell db true value)

/-! ## Memory accesses of commands (R377, R399) -/

/-- Answer to a command's read: its bytes with the poisoned lines, a wait for DMA, or the status that ends it. -/
inductive CmdIn where
  | data (d : List (BitVec 8)) (bad : List Nat)
  | wait
  | bad (status : Nat)
  deriving DecidableEq, Repr

/-- Status of an access the fabric refuses (R399). -/
def Denial.status : Denial → Nat
  | .none => csOK
  | .world => csDENIED
  | .unmapped => csINVALID
  | .busy => csBUSY

/-- RO attribute asked for by the ring's command (R398). -/
def State.cmdRo (s : State) (r : Nat) : Bool := (byteAt (s.desc r) 1).testBit 1

/-- A command of ring `r` reads a range: by DMA in the host window, else as hub agent `agent`. -/
def State.cmdRead (s : State) (r agent pa len : Nat) : CmdIn × State :=
  if inHost pa len then
    if !s.pasidOk (s.ringPort r) (s.ringSlice r) then (.bad csINVALID, s) else
    match (s.ring r).buf.find? (fun b => b.addr == pa && b.data.length == len) with
    | some b => (.data b.data (if b.poison then [lineOf pa] else []), s)
    | none => (.wait, s.dmaRead (s.ringPort r) r (s.ringSlice r) pa len (s.cmdRo r))
  else
    let (a, s) := s.devRead agent false pa len
    match a.why with
    | .none => (.data a.data a.bad, s)
    | .busy => (.wait, s)
    | w => (.bad w.status, s)

/-- Outcome of a command's write. -/
inductive CmdOut where
  | done
  | wait
  | bad (status : Nat)
  deriving DecidableEq, Repr

/-- A command of ring `r` writes a range. -/
def State.cmdWrite (s : State) (r agent pa : Nat) (data : List (BitVec 8)) : CmdOut × State :=
  if inHost pa data.length then
    let p := s.ringPort r
    let sl := s.ringSlice r
    if !s.pasidOk p sl then (.bad csINVALID, s)
    else if !s.dmaReady p then (.wait, s)
    else
      let (go, s) := s.xlatRange p r (s.pasidOf p sl) pa data.length true
      if go then (.done, s.dmaWrite p sl pa data (s.cmdRo r)) else (.wait, s)
  else
    let (w, s) := s.devWrite agent false pa data false
    match w with
    | .none => (.done, s)
    | .busy => (.wait, s)
    | w => (.bad w.status, s)

/-! ## Fetch and header checks (R397 to R399) -/

/-- Bits of the 64-byte descriptor that opcode `op` names, as a 512-bit number (R398, R407 to R410, R306); none for an
unknown opcode. -/
def opMask (op : Nat) : Option Nat :=
  let rng (off n : Nat) : Nat := (2 ^ (8 * n) - 1) <<< (8 * off)
  let hdr := rng 0 1 + 7 <<< 8 + rng 4 4
  let ctx := rng 8 12 + rng 20 1
  let first := 0xFFFFF <<< (8 * 24)
  match op with
  | 0x00 => some hdr
  | 0x01 => some (hdr + rng 8 2 + 0xFFFFF <<< (8 * 12) + rng 16 12)
  | 0x02 => some (hdr + rng 8 1 + rng 10 2)
  | 0x03 => some (hdr + rng 8 4 + rng 16 8)
  | 0x04 => some (hdr + rng 8 1 + rng 10 2)
  | 0x05 => some (hdr + rng 8 1 + rng 16 12)
  | 0x06 => some (hdr + rng 8 1)
  | 0x07 => some (hdr + rng 8 1 + rng 16 12)
  | 0x08 => some (hdr + rng 16 12)
  | 0x09 => some hdr
  | 0x0A => some (hdr + 1 <<< (8 * 8))
  | 0x20 => some (hdr + ctx + first)
  | 0x21 => some (hdr + ctx + first + rng 28 1 + rng 30 2)
  | 0x22 => some (hdr + rng 28 1 + rng 30 10)
  | 0x23 => some (hdr + ctx + first + rng 32 8)
  | 0x24 => some (hdr + rng 28 1 + rng 30 2)
  | 0x25 => some (hdr + ctx + first + rng 32 8)
  | 0x28 => some (hdr + rng 8 12 + rng 24 8)
  | 0x29 => some (hdr + rng 8 12 + 1 <<< (8 * 20) + rng 24 8 + 1 <<< (8 * 32))
  | 0x2C | 0x2D => some (hdr + rng 8 1 + rng 10 4)
  | 0x30 => some (hdr + rng 8 4 + rng 16 8)
  | 0x40 => some (hdr + rng 8 12 + 0x1F <<< (8 * 20) + 0x3F <<< (8 * 21) + rng 22 1 + 3 <<< (8 * 23) + rng 24 2 + rng 28 16 +
      rng 48 16)
  | 0x41 => some (hdr + rng 8 4 + rng 16 12)
  | 0x42 => some (hdr + rng 8 20)
  | 0x43 => some (hdr + rng 8 6 + rng 16 12)
  | _ => none

/-- Header check 1 of R399: a known opcode with every unnamed bit zero. -/
def headerGood (d : List (BitVec 8)) : Bool :=
  match opMask (byteAt d 0) with
  | none => false
  | some m => (leNat (d.take 64) ||| m) == m

/-- Is an opcode an ADMIN command (R407)? -/
def isAdmin (op : Nat) : Bool := 1 ≤ op && op ≤ 0x0A

/-- The next prefetched descriptor becomes the ring's command, after the header checks of R399. -/
def State.startNext (s : State) (r : Nat) : State :=
  let x := s.ring r
  match x.cur, x.prefetch with
  | none, c :: rest =>
    let s := s.setRing r { x with cur := some c, prefetch := rest }
    if !headerGood c.desc then s.finish r csINVALID
    else if isAdmin (byteAt c.desc 0) && (s.ringSlice r ≠ 0 || s.ringPort r ≠ 0) then
      ((((s.inc F.HIF_RING_CNT1.SPOOF_ADMIN).raise F.HIF_RING_STATUS.EVT_SPOOF).spoof (s.ringSlice r) 2 r)).finish r csSPOOF
    else s
  | _, _ => s

/-- A descriptor read that returned poison or was refused halts the ring with cause 0x4 (R404). -/
def State.descFailed (s : State) (r status : Nat) : State :=
  let slot := s.rd F.HIF_RING_IDX.SQ_CI r
  let x := s.ring r
  match x.cur with
  | some _ => s
  | none => (s.setRing r { x with prefetch := [], cur := some (RingCmd.mk slot [] none none false) }).halt r 4 status

/-- One descriptor is read at SQ_CI, which advances (R397 step 1). -/
def State.fetchOne (s : State) (r : Nat) : State :=
  let ci := s.rd F.HIF_RING_IDX.SQ_CI r
  let x := s.ring r
  if s.ringState r ≠ rsRUNNING || ci = s.rd F.HIF_RING_IDX.SQ_PI r || 8 ≤ x.prefetch.length then s else
  match s.cmdRead r 5 (s.sqBase r + 64 * ci) 64 with
  | (.wait, s) => s
  | (.bad _, s) => if (s.ring r).prefetch.isEmpty then s.descFailed r csABORTED else s
  | (.data d bad, s) =>
    if bad.isEmpty then
      let x := s.ring r
      let s := s.setRing r { x with
        prefetch := x.prefetch ++ [RingCmd.mk ci d none none false]
        buf := x.buf.filter (fun b => b.addr ≠ s.sqBase r + 64 * ci) }
      s.wr F.HIF_RING_IDX.SQ_CI r ((ci + 1) % s.sqSize r)
    else if (s.ring r).prefetch.isEmpty then s.descFailed r csPOISON else s

/-- DESCRIPTOR_FETCH (R397): the ring reads what is published, up to eight descriptors ahead, and starts the next
command when none is in execution. -/
def State.descFetch (s : State) (r : Nat) : State :=
  if !s.ringLive || !s.is F.HIF_RING_CFG.EN r || s.ringState r ≠ rsRUNNING then s else
  ((List.range 8).foldl (fun s _ => s.fetchOne r) s).startNext r

def execDescriptorFetch (r : Nat) (s : State) : Host.Outcome State Fault Refusal := .next (s.descFetch r)

/-! ## Completions (R400 to R402, R404) -/

/-- The ring halts with HALT_ON_ERR after its completion (R404 cause 0x3). -/
def State.haltAfter (s : State) (r slot status : Nat) : State :=
  let x := s.ring r
  let s := s.setRing r { x with prefetch := [], buf := [] }
  let s := s.wr F.HIF_RING_IDX.SQ_CI r ((slot + 1) % s.sqSize r)
  let s := ((s.wr F.HIF_RING_ST.HALT_STATUS r status).wr F.HIF_RING_ST.HALT_CAUSE r 3).wr F.HIF_RING_ST.HALT_SLOT r slot
  (s.ringGo r rsHALTED).raise F.HIF_RING_STATUS.EVT_HALT

/-- CQ_PI and PHASE move on after an entry (R401). -/
def State.cqAdvance (s : State) (r : Nat) : State :=
  let n := (s.rd F.HIF_RING_IDX.CQ_PI r + 1) % s.cqSize r
  let x := s.ring r
  (s.setRing r { x with cur := none, pend := x.pend + 1, phase := if n = 0 then !x.phase else x.phase }).wr F.HIF_RING_IDX.CQ_PI r n

/-- COMPLETION_WRITE (R400, R401): with room in the CQ the due entry is written at CQ_PI, then the ring signals as its
moderation asks. -/
def State.completion (s : State) (r : Nat) : State :=
  if !s.ringLive || !s.is F.HIF_RING_CFG.EN r || !s.cqRoom r then s else
  match (s.ring r).cur with
  | none => s
  | some c =>
    match c.done with
    | none => s
    | some (st, r0, r1, r2) =>
      let halted := c.halt.isSome
      let e := cplBytes c.slot st (s.ring r).phase halted (dget c.desc 4 4) r0 r1 r2
      match s.cmdWrite r 5 (s.cqBase r + 32 * s.rd F.HIF_RING_IDX.CQ_PI r) e with
      | (.wait, s) => s
      | (_, s) =>
        let s := (s.cqAdvance r).inc F.HIF_RING_CNT1.COMPLETIONS
        let s := if c.halt = some 3 && s.ringState r = rsRUNNING then s.haltAfter r c.slot st else s
        if s.signalDue r ((byteAt c.desc 1).testBit 0) halted then s.ringSignal r else s

def execCompletionWrite (r : Nat) (s : State) : Host.Outcome State Fault Refusal := .next (s.completion r)

/-- IRQ_MOD_TIMEOUT (R402): MOD_TIME has passed since the oldest pending completion. -/
def execIrqModTimeout (r : Nat) (s : State) : Host.Outcome State Fault Refusal :=
  .next (if s.ringLive && (s.ring r).pend ≠ 0 && s.rd F.HIF_RING_IRQ.MOD_TIME r ≠ 0 && s.is F.HIF_RING_IRQ.IRQ_EN r then
    s.ringSignal r else s)

/-! ## NOP and DMA_COPY (R410, R412) -/

/-- NOP: a completion and nothing else. -/
def execNop (ring : Nat) (s : State) : Host.Outcome State Fault Refusal :=
  .next (if s.hasCmd ring 0x00 then s.finish ring csOK else s)

/-- Bytes of a range before its first refused plate, with the refusal (R399). -/
def State.allowedPrefix (s : State) (pa len : Nat) : Nat × Denial :=
  if inHost pa len then (len, .none) else
  match (platesOf pa len).find? (fun a => !s.populated a || s.securePlate a) with
  | none => (len, .none)
  | some a => (a - pa, if s.populated a then .world else .unmapped)

/-- Bytes before the first poisoned line of a range. -/
def cleanPrefix (pa len : Nat) (bad : List Nat) : Nat :=
  match bad with
  | [] => len
  | b :: bs => min len ((bs.foldl min b) * 128 - pa)

/-- DMA_COPY (R412): INVALID for a zero length, SPOOF for a range the issuer may not name, then an ascending copy that
stops at the first poisoned source line or the first refused plate. -/
def State.dmaCopy (s : State) (r : Nat) : State :=
  let d := s.desc r
  let src := dget d 8 8
  let dst := dget d 16 8
  let len := dget d 24 4
  let sl := s.ringSlice r
  if len = 0 then s.finish r csINVALID
  else if !(s.rangeOk sl src len && s.rangeOk sl dst len) then (s.spoof sl 9 r).finish r csSPOOF
  else
    let (n1, w1) := s.allowedPrefix src len
    let (n2, w2) := s.allowedPrefix dst len
    let n := min n1 n2
    let deny := if n1 ≤ n2 && w1 ≠ .none then w1.status else w2.status
    if n = 0 then s.finish r deny else
    match s.cmdRead r 5 src n with
    | (.wait, s) => s
    | (.bad st, s) => s.finish r st
    | (.data bytes bad, s) =>
      let k := cleanPrefix src n bad
      let st := if k < n then csPOISON else deny
      if k = 0 then s.finish r csPOISON else
      match s.cmdWrite r 5 dst (bytes.take k) with
      | (.wait, s) => s
      | (.bad st, s) => s.finish r st
      | (.done, s) => s.finish r st k

def execDmaCopy (ring : Nat) (s : State) : Host.Outcome State Fault Refusal :=
  .next (if s.hasCmd ring 0x42 then s.dmaCopy ring else s)

end Sys2Proof.Machine
end

