-- ==== Sys2Proof/Machine/EvbOps.lean ====
section
/-!
DEFINITION. The shared operations of the event builder: contexts, fragments, records, pools, queues and back-pressure
(R181 to R200).
-/

namespace Sys2Proof.Machine

/-! ## Beats (R184) -/

/-- The beat count. -/
def State.beatNow (s : State) : Nat := s.rd F.BEAT_COUNT.COUNT

/-- `x` relative to `b` on bits [51:0], modulo 2^52. -/
def d52 (x b : Nat) : Int := signed 52 (x % 2 ^ 52 + 2 ^ 52 - b % 2 ^ 52)

/-- Beat `b` moved by `d`, on 64 bits. -/
def beatAdd (b : Nat) (d : Int) : Nat := unsignedOf 64 ((b : Int) + d)

/-! ## Back-pressure (R199) -/

def State.poolSize (s : State) (p : Nat) : Nat := s.rd F.EVB_POOL_CFG.PLATES p * 2 ^ 30

def State.pool (s : State) (p : Nat) : PoolState := Tbl.get s.evb.pools p PoolState.init
def State.setPool (s : State) (p : Nat) (x : PoolState) : State :=
  { s with evb := { s.evb with pools := Tbl.set s.evb.pools p x PoolState.init } }

/-- Bytes held between head and tail. -/
def PoolState.used (x : PoolState) : Nat := x.recs.foldl (fun n r => n + r.bytes) 0

/-- The low condition of a pool follows its free bytes. -/
def State.poolLow (s : State) (p : Nat) : State :=
  let x := s.pool p
  let s := s.wr F.EVB_POOL_STATUS.USED p x.used
  if !s.is F.EVB_POOL_CFG.EN p then s.setPool p { x with low := false } else
  let free := s.poolSize p - x.used
  if free < s.rd F.EVB_POOL_CFG.LOW p * 2 ^ 20 then
    let s := s.setPool p { x with low := true }
    if x.low then s else s.raise F.EVB_POOL_STATUS.EVT_LOW p
  else if s.rd F.EVB_POOL_CFG.HIGH p * 2 ^ 20 ≤ free then s.setPool p { x with low := false }
  else s

/-- Free contexts (R182). -/
def State.ctxFree (s : State) : Nat := 65536 - s.evb.fresh + s.evb.freed.length

/-- Back-pressure asserted at any time within a beat throttles it (R171). -/
def State.markBp (s : State) (bp : Bool) : State :=
  match bp, Tbl.find s.tio.recs s.beatNow with
  | true, some x => { s with tio := { s.tio with recs := Tbl.put s.tio.recs s.beatNow { x with backpressure := true } } }
  | _, _ => s

/-- The builder's status and back-pressure follow its state; an assertion sets EVT_BP. -/
def State.evbSettle (s : State) : State :=
  if !s.is F.EVB_STATUS.READY then s else
  let free := s.ctxFree
  let low := if free < s.rd F.EVB_BP_CFG.CTX_LOW then true
    else if s.rd F.EVB_BP_CFG.CTX_HIGH ≤ free then false else s.evb.ctxLow
  let s := { s with evb := { s.evb with ctxLow := low } }
  let s := (s.wr F.EVB_STATUS.CTX_FREE 0 free).wr F.EVB_STATUS.FIFO 0 s.evb.fifo.length
  let s := (List.range 8).foldl (fun s p => s.poolLow p) s
  let aged := s.rd F.EVB_BP_CFG.BP_AGE ≠ 0 && s.evb.events.any (fun e => e.2.aged && e.2.stage != EvStage.posted)
  let bp := low || !s.evb.fifo.isEmpty || (List.range 8).any (fun p => (s.pool p).low) || aged
  let was := s.is F.EVB_STATUS.BP
  let s := (s.wr F.EVB_STATUS.BP 0 (b2n bp)).markBp bp
  if bp && !was then s.raise F.EVB_STATUS.EVT_BP else s

/-! ## Contexts (R182) -/

def State.event (s : State) (c : Nat) : Option Event := Tbl.find s.evb.events c
def State.setEvent (s : State) (c : Nat) (e : Event) : State :=
  { s with evb := { s.evb with events := Tbl.put s.evb.events c e } }

def State.bumpCtx (s : State) (c : Nat) : State :=
  { s with evb := { s.evb with epochs := Tbl.set s.evb.epochs c ((Tbl.get s.evb.epochs c 0 + 1) % 65536) 0 } }

/-- The head of the free list. -/
def State.takeCtx (s : State) : Option (Nat × State) :=
  if s.evb.fresh < 65536 then some (s.evb.fresh, { s with evb := { s.evb with fresh := s.evb.fresh + 1 } })
  else match s.evb.freed with
    | c :: rest => some (c, { s with evb := { s.evb with freed := rest } })
    | [] => none

/-! ## Pools (R194) -/

/-- The head advances over released records. -/
def PoolState.advance (x : PoolState) : List PoolRec → PoolState
  | [] => { x with recs := [], head := x.tail }
  | r :: rest => if r.released then x.advance rest else { x with recs := r :: rest, head := r.off }

/-- The record of a context is released. -/
def State.poolRelease (s : State) (p ctx epoch : Nat) : State :=
  let x := s.pool p
  let recs := x.recs.map (fun r => if r.ctx = ctx && r.epoch = epoch then { r with released := true } else r)
  s.setPool p (x.advance recs)

/-- Place for a record of `n` bytes: its offset and the bytes it takes with what it skips. -/
def State.poolFit (s : State) (p n : Nat) : Option (Nat × Nat) :=
  let x := s.pool p
  let size := s.poolSize p
  let skip := if x.tail + n ≤ size then 0 else size - x.tail
  if x.used + skip + n ≤ size then some (if skip = 0 then x.tail else 0, skip + n) else none

/-! ## Release and drop (R182, R194, R195, R198) -/

/-- An event ends: its context is freed and its record released. -/
def State.freeEvent (s : State) (c : Nat) : State :=
  match s.event c with
  | none => s
  | some e =>
    let s := { s.bumpCtx c with evb := { (s.bumpCtx c).evb with
      events := Tbl.erase s.evb.events c, freed := s.evb.freed ++ [c] } }
    let x := s.pool e.acc.pool
    let s := s.setPool e.acc.pool { x with waiting := x.waiting.filter (· ≠ c) }
    (s.poolRelease e.acc.pool c e.epoch).evbSettle

/-- An accept or event counts as NOROUTE on its route. -/
def State.noRoute (s : State) (r : Nat) : State := (s.inc F.EVB_ROUTE_CNT.NOROUTE r).raise F.EVB_ROUTE_STATUS.EVT_NOROUTE r

/-- An event is dropped as NOROUTE. -/
def State.dropEvent (s : State) (c : Nat) : State :=
  match s.event c with
  | none => s
  | some e => (s.noRoute e.acc.ttype).freeEvent c

/-! ## Fragments (R185, R190) -/

/-- A fragment completes. -/
def Frag.finish (f : Frag) (flag hw : Nat) (missing whole : Bool) : Frag :=
  { f with complete := true, flags := f.flags ||| flag, hw := hw, missingTail := missing, whole := whole }

/-- The conditions of R185 on a lane fragment, in order. -/
def State.laneFrag (s : State) (a : Accept) (f : Frag) : Frag :=
  if f.complete || 256 ≤ f.source then f else
  let hw := s.rd F.EVB_HIST_HW.HW f.source
  if !s.is F.EVB_HIST_CFG.EN f.source then f.finish 16 hw true true
  else if 0 ≤ d52 hw (a.beat + a.post) then f.finish 0 hw false false
  else if s.rd F.LANE_STATUS.STATE f.source ≠ 5 then f.finish 16 hw true false
  else f

/-- An event whose fragments are all complete is ready (R186). -/
def State.readyCheck (s : State) (c : Nat) : State :=
  match s.event c with
  | none => s
  | some e =>
    if e.stage = .assembling && e.frags.all (·.complete) then s.setEvent c { e with stage := .ready, ready := s.beatNow }
    else s

/-- The lane fragments of an event under assembly that can complete do. -/
def State.assemble (s : State) (c : Nat) : State :=
  match s.event c with
  | none => s
  | some e =>
    if e.stage ≠ .assembling then s else
    (s.setEvent c { e with frags := e.frags.map (s.laneFrag e.acc) }).readyCheck c

/-- Every event under assembly looks at its lanes again. -/
def State.assembleAll (s : State) : State := (s.evb.events.map (·.1)).foldl (fun s c => s.assemble c) s

/-- The fragments of an event that are not complete end with a flag: lanes MISSING above HW, guests without data. -/
def State.endFrags (s : State) (e : Event) (flag : Nat) : Event :=
  { e with frags := e.frags.map (fun f =>
      if f.complete then f
      else if f.source < 256 then f.finish flag (s.rd F.EVB_HIST_HW.HW f.source) true false
      else f.finish flag 0 true false) }

/-- A fragment before anything of it is known. -/
def Frag.fresh (source : Nat) : Frag :=
  { source := source, complete := false, flags := 0, missingTail := false, whole := false, hw := 0, entries := [], count := 0,
    space := 0, start := 0, startSet := false, state := 1, guest := [], chunks := [], lastChunk := none, srcs := [] }

/-- An accept gets its context and starts assembly; one that waited through a load is ready at once (R182, R200). -/
def State.openEvent (s : State) (a : Accept) (c : Nat) : State :=
  let s := s.bumpCtx c
  let e : Event := { acc := a, epoch := Tbl.get s.evb.epochs c 0, frags := (a.lanes ++ a.guests.map (256 + ·)).map Frag.fresh,
                     stage := .assembling, ready := 0, timeout := false, length := 0, addr := 0, queue := none, chosen := 0,
                     aged := false }
  let e := if a.loadFlag then s.endFrags { e with frags := e.frags.map (s.laneFrag a) } 32 else e
  ((s.setEvent c e).assemble c).readyCheck c

/-- Lanes of a route's mask, ascending. -/
def State.routeLanes (s : State) (r : Nat) : List Nat :=
  (List.range 192).filter (fun n => s.fbit F.EVB_ROUTE_LANES.MASK (3 * r + n / 64) (n % 64))

/-- Guest sites of a route. -/
def State.routeGuests (s : State) (r : Nat) : List Nat := (List.range 2).filter (fun g => s.fbit F.EVB_ROUTE_CFG.GUEST r g)

/-- H_ACCEPT to the sites a route names (R352). -/
def State.hAccept (s : State) (r b evn : Nat) (late : Bool) : State :=
  (s.routeGuests r).foldl (fun s g =>
    if s.dieAdmitted (12 + g) && s.guestLive g then s.toGuest g (.accept r late evn b) else s) s

/-- An accept reaches the builder at its release edge (R181 to R183). -/
def State.evAccept (s : State) (b ttype : Nat) (late : Bool) (pass release : Nat) : State :=
  if !s.evbLive then s
  else if !s.is F.EVB_CFG.EN then s.inc F.EVB_CNT0.ACC_OFF
  else
    let evn := s.rd F.EVB_EVN_NEXT.EVN
    let s := (s.bump F.EVB_EVN_NEXT.EVN).hAccept ttype b evn late
    let pool := s.rd F.EVB_ROUTE_CFG.POOL ttype
    if !s.is F.EVB_ROUTE_CFG.EN ttype || s.rd F.EVB_ROUTE_STATUS.NSUB ttype = 0 || !s.is F.EVB_POOL_CFG.EN pool then s.noRoute ttype
    else
      let a : Accept := { evn := evn, beat := b, ttype := ttype, late := late, pass := pass, release := release,
                          loadFlag := false, pre := s.rd F.EVB_ROUTE_CFG.PRE ttype, post := s.rd F.EVB_ROUTE_CFG.POST ttype,
                          maxent := s.rd F.EVB_ROUTE_CFG.MAXENT ttype, pool := pool, lanes := s.routeLanes ttype,
                          guests := s.routeGuests ttype }
      let wait (s : State) : State :=
        if s.evb.fifo.length < 256 then { s with evb := { s.evb with fifo := s.evb.fifo ++ [a] } }
        else (s.inc F.EVB_CNT0.ACC_LOST).raise F.EVB_STATUS.EVT_ACC_LOST
      (if s.evb.fifo.isEmpty then
        (match s.takeCtx with
          | some (c, s) => s.openEvent a c
          | none => wait s)
      else wait s).evbSettle

/-- A count-changing load (R200): events not ready become ready at the load edge, and accepts that wait are marked. -/
def State.evbLoad (s : State) : State :=
  let s := { s with evb := { s.evb with fifo := s.evb.fifo.map (fun (a : Accept) => { a with loadFlag := true }) } }
  let one (s : State) (c : Nat) : State := match s.event c with
    | none => s
    | some e =>
      if e.stage ≠ .assembling then s else
      let e' := s.endFrags e 32
      (s.setEvent c { e' with acc := { e.acc with loadFlag := true } }).readyCheck c
  (s.evb.events.map (·.1)).foldl one s

/-! ## Locating entries (R186, R187, R189) -/

def HistRec.kind (r : HistRec) : Nat := bits r.w0 61 3
def HistRec.first (r : HistRec) : Nat := r.w0 % 2 ^ 52
def HistRec.last (r : HistRec) : Nat := if r.kind = 0 then r.first else r.w1 % 2 ^ 52

/-- A gap record of kind 1 MISSING or 2 TRUNCATED over beats `first` to `last`. -/
def gapRec (kind first last : Nat) : HistRec := { w0 := first % 2 ^ 52 + kind <<< 61, w1 := last % 2 ^ 52 }

/-- Address of byte `w` of a lane's history ring. -/
def State.histAddr (s : State) (n w : Nat) : Nat :=
  s.rd F.EVB_HIST_BASE.BASE n * 2 ^ 20 + w % 2 ^ s.rd F.EVB_HIST_CFG.SIZE n

/-- The record at ring position `w`. -/
def State.histRec (s : State) (n w : Nat) : HistRec :=
  let a := s.histAddr n w
  { w0 := (s.peek a 8).1, w1 := (s.peek (a + 8) 8).1 }

/-- A record cut to the beats from `lo` to `lo + w`, if it meets them. -/
def HistRec.cut (r : HistRec) (lo : Nat) (w : Int) : Option HistRec :=
  let f := d52 r.first lo
  let l := d52 r.last lo
  if w < f || l < 0 then none
  else if r.kind = 0 then some r
  else some (gapRec r.kind (beatAdd lo (max f 0)) (beatAdd lo (min l w)))

/-- Entries of a window from ring position `w` on, with their positions: the scan stops past the window. -/
def State.histScan (s : State) (n lo : Nat) (w : Int) : Nat → Nat → List (Nat × HistRec)
  | 0, _ => []
  | k + 1, pos =>
    let r := s.histRec n pos
    if w < d52 r.first lo then []
    else match r.cut lo w with
      | some e => (pos, e) :: s.histScan n lo w k (pos + 16)
      | none => s.histScan n lo w k (pos + 16)

/-- The entries of a lane fragment are located and counted (R186 to R189). -/
def State.locate (s : State) (a : Accept) (f : Frag) : Frag :=
  let n := f.source
  let lo := beatAdd a.beat (-(a.pre : Int))
  let w : Int := (a.pre + a.post : Nat)
  let wptr := s.rd F.EVB_HIST_WPTR.WPTR n
  let size := 2 ^ s.rd F.EVB_HIST_CFG.SIZE n
  let have' : Int := if f.missingTail then min w (d52 f.hw lo) else w
  let synth : List HistRec :=
    if f.whole then [gapRec 1 lo (beatAdd lo w)]
    else if f.missingTail && have' < w then [gapRec 1 (beatAdd lo (max 0 (have' + 1))) (beatAdd lo w)] else []
  let done (flags : Nat) (ring : List (Nat × HistRec)) : Frag :=
    let cap := a.maxent < ring.length + synth.length
    let ring := if cap then ring.take (a.maxent - synth.length) else ring
    let all := ring.map (·.2) ++ synth
    { f with
      flags := flags ||| (if cap then 4 else 0)
      entries := all
      srcs := ring.map (·.1)
      count := all.length
      space := 16 * all.length
      start := (ring.map (·.1)).headD 0
      startSet := !ring.isEmpty }
  if f.whole then done f.flags []
  else match (s.lane n).anchors.find? (fun x => d52 x.1 lo ≤ 0) with
    | none => { done f.flags [] with flags := f.flags ||| 1 }
    | some (_, p) =>
      let back := (wptr + 2 ^ 64 - p) % 2 ^ 64
      if size - 65536 < back then { done f.flags [] with flags := f.flags ||| 1 }
      else done f.flags (if have' < 0 then [] else s.histScan n lo have' (back / 16) p)

/-- Data bytes of a guest fragment. -/
def Frag.guestLen (f : Frag) : Nat := if f.missingTail then 0 else match f.lastChunk with
  | some (off, n) => off + n
  | none => 0

/-- A guest fragment's counts. -/
def Frag.locateGuest (f : Frag) : Frag :=
  let n := f.guestLen
  { f with count := n, space := (n + 15) / 16 * 16 }

/-- State of a fragment (R190). -/
def Frag.stateOf (f : Frag) : Nat :=
  let kinds := f.entries.map HistRec.kind
  if f.flags.testBit 1 then 3
  else if f.flags.testBit 0 || kinds.contains 1 || (256 ≤ f.source && f.missingTail) then 2
  else if f.flags.testBit 2 || kinds.contains 2 then 4
  else if kinds.contains 0 || (256 ≤ f.source) then 0
  else 1

/-! ## Records (R191, R192) -/

def Frag.header (f : Frag) : List (BitVec 8) :=
  natLE 1 (if f.source < 256 then 1 else 2) ++ natLE 1 f.state ++ natLE 2 (f.source % 256) ++ natLE 4 f.count ++
  natLE 1 f.flags ++ natLE 3 0 ++ natLE 4 f.space ++ natLE 8 (if f.startSet then f.start else 0) ++
  natLE 8 (if f.source < 256 then f.hw else 0)

/-- Data area of a fragment, filled with zeros to SPACE. -/
def Frag.body (f : Frag) : List (BitVec 8) :=
  let d := if f.source < 256 then f.entries.flatMap (fun r => natLE 8 r.w0 ++ natLE 8 r.w1)
    else (List.range f.count).map (fun i => Tbl.get f.guest i 0)
  d ++ List.replicate (f.space - d.length) 0

/-- Record FLAGS byte. -/
def Event.flagByte (e : Event) : Nat :=
  let degraded := e.frags.any (fun f => f.state ≠ 0 && f.state ≠ 1)
  e.acc.ttype + 16 * b2n e.acc.late + 32 * b2n e.acc.loadFlag + 64 * b2n e.timeout + 128 * b2n degraded

def Event.header (e : Event) (ctx : Nat) : List (BitVec 8) :=
  let states := e.frags.foldl (fun v f => setBit v f.state) 0
  natLE 4 0x4B564548 ++ natLE 1 1 ++ natLE 1 e.flagByte ++ natLE 2 e.frags.length ++ natLE 8 e.acc.evn ++ natLE 8 e.acc.beat ++
  natLE 4 e.length ++ natLE 2 e.acc.pre ++ natLE 2 e.acc.post ++ natLE 2 ctx ++ natLE 2 e.epoch ++ natLE 1 states ++ natLE 3 0 ++
  natLE 8 e.acc.release ++ natLE 8 e.ready ++ natLE 8 0 ++ natLE 137 e.acc.pass ++ natLE 55 0

/-- The whole record, padded to a multiple of 256 bytes. -/
def Event.record (e : Event) (ctx : Nat) : List (BitVec 8) :=
  let d := e.header ctx ++ e.frags.flatMap (fun f => f.header ++ f.body)
  d ++ List.replicate ((d.length + 255) / 256 * 256 - d.length) 0

def Event.size (e : Event) : Nat := 256 + (e.frags.map (fun f => 32 + f.space)).foldl (· + ·) 0

/-! ## Queues (R195, R197, R198) -/

/-- Queues subscribed to a route. -/
def State.subsOf (s : State) (r : Nat) : List Nat := Tbl.get s.evb.subs r []
def State.setSubs (s : State) (r : Nat) (l : List Nat) : State :=
  ({ s with evb := { s.evb with subs := Tbl.set s.evb.subs r l [] } }).wr F.EVB_ROUTE_STATUS.NSUB r l.length

/-- The list entry of event number `n` among `k` (R195). -/
def routeIndex (n k : Nat) : Nat := (bits n 0 16 ^^^ bits n 16 16 ^^^ bits n 32 16 ^^^ bits n 48 16) % k

def State.queuedOf (s : State) (q : Nat) : List Nat := Tbl.get s.evb.queued q []
def State.setQueued (s : State) (q : Nat) (l : List Nat) : State :=
  { s with evb := { s.evb with queued := Tbl.set s.evb.queued q l [] } }

/-- CI passes `k` descriptors, whose events are released. -/
def State.releaseQueue (s : State) (q k : Nat) : State :=
  let l := s.queuedOf q
  let s := s.setQueued q (l.drop k)
  (l.take k).foldl (fun s c => s.freeEvent c) s

/-- Events that wait for a queue choose again (R200). -/
def State.rechoose (s : State) (q : Nat) : State :=
  { s with evb := { s.evb with events := Tbl.mapVals s.evb.events (fun _ e =>
      if e.queue = some q && e.stage = .copied then { e with queue := none, chosen := 0 } else e) } }

/-- A queue is disabled or changes owner (R200): it leaves every list and its events are released. -/
def State.queueOut (s : State) (q : Nat) : State :=
  let s := (List.range 16).foldl (fun s r => if (s.subsOf r).contains q then s.setSubs r ((s.subsOf r).filter (· ≠ q)) else s) s
  let n := (s.queuedOf q).length
  let s := (s.releaseQueue q n).inc F.EVB_CNT2.QDROP 0 n
  (s.wr F.EVB_EVQ_IDX.CI q (s.rd F.EVB_EVQ_IDX.PI q)).rechoose q

/-- An enabled queue is disabled. -/
def State.queueDisable (s : State) (q : Nat) : State :=
  if s.is F.EVB_EVQ_CFG.EN q then ((s.wr F.EVB_EVQ_CFG.EN q 0).bump F.EVB_EVQ_CFG.ROLE_EPOCH q).queueOut q else s

/-- The checks of R198 on a queue doorbell. -/
def State.queueDoorbell (s : State) (q v : Nat) : State :=
  let ci := s.rd F.EVB_EVQ_IDX.CI q
  let pi := s.rd F.EVB_EVQ_IDX.PI q
  let k := (v % 65536 + 65536 - ci) % 65536
  if v / 65536 % 65536 ≠ s.rd F.EVB_EVQ_CFG.ROLE_EPOCH q then s.inc F.EVB_EVQ_IDX.STALE q
  else if (pi + 65536 - ci) % 65536 < k then (s.inc F.EVB_EVQ_IDX.BAD_DB q).inc F.EVB_CNT2.BAD_DB
  else (s.wr F.EVB_EVQ_IDX.CI q (v % 65536)).releaseQueue q k

/-- A queue doorbell that acts for slice `sl` (R392). -/
def State.slicedQueue (s : State) (sl q v : Nat) : State :=
  if sl ≠ 0 && s.rd F.EVB_EVQ_CFG.OWNER q ≠ sl then (s.badDb.raise F.HIF_RING_STATUS.EVT_SPOOF).spoof sl 1 q
  else if !s.is F.EVB_EVQ_CFG.EN q then s.badDb
  else s.queueDoorbell q v

/-- A queue doorbell from any of its sources (R391, R392, R394, R396). -/
def State.queueDb (s : State) (db : DbSrc) (v : Nat) : State :=
  if !s.evbLive || !s.ringLive || s.held then s else
  match db with
  | .bar2 p off =>
    if !s.barOpen p || barBytes (s.port p).bar2 ≤ off then s else
    match s.dbName p off with
    | .queue (some q) => (s.dbServed p).queueDoorbell q v
    | .queue none => (s.dbServed p).badDb
    | _ => s
  | .window src q =>
    match src with
    | .host p => if p = 0 && s.barOpen 0 && q < 1024 then (s.dbServed 2).slicedQueue 0 q v else if p = 1 && s.barOpen 1 then
        s.inc F.HIF_PORT_CNT1.DROPPED_WR 1 else s
    | .tap => s
    | _ => if q < 1024 then (s.dbServed 2).slicedQueue (s.srcSlice src) q v else s
  | .proof core q => if q < 1024 then (s.dbServed 3).slicedQueue (if s.ns core then s.coreSlice core else 0) q v else s

end Sys2Proof.Machine
end

