-- ==== Sys2Proof/Machine/EventBuilder.lean ====
section
/-!
DEFINITION. The commands of the event builder (R176 to R202, R392, R411).
-/

namespace Sys2Proof.Machine

/-- Does a range lie wholly in populated plates of one memory, above its watermark (R176, R193, R197)? -/
def State.normalRange (s : State) (pa len : Nat) : Bool :=
  len != 0 && (platesOf pa len).all (fun a => s.populated a && !s.securePlate a)

/-- A field keeps its value where the write holds a reserved encoding (R10). -/
def State.legal (s : State) (f : Field) (i v : Nat) : Nat := if f.enc.ok v then v else s.rd f i

/-! ## History rings (R176, R179) -/

/-- A write of EVB_HIST_CFG[n]. -/
def State.histCfg (s : State) (n v : Nat) : State :=
  if s.is F.EVB_HIST_CFG.EN n then
    if v.testBit 0 then s else
    let x := s.lane n
    let s := s.setLane n { x with frames := x.frames.filter (fun (f : StagedFrame) => f.hits.any (· == HitSlot.waiting)) }
    (s.wr F.EVB_HIST_CFG.EN n 0).assembleAll
  else
    let size := s.legal F.EVB_HIST_CFG.SIZE n (bits v 4 5)
    let base := s.rd F.EVB_HIST_BASE.BASE n * 2 ^ 20
    if !v.testBit 0 then s.wr F.EVB_HIST_CFG.SIZE n size
    else if base % 2 ^ size ≠ 0 || !s.normalRange base (2 ^ size) then s.raise F.EVB_STATUS.EVT_REFUSED
    else
      let s := (s.wr F.EVB_HIST_CFG.SIZE n size).wr F.EVB_HIST_CFG.EN n 1
      let s := (s.wr F.EVB_HIST_WPTR.WPTR n 0).wr F.EVB_HIST_HW.HW n (beatAdd s.beatNow (-1))
      s.setLane n { s.lane n with anchors := [] }

/-- HIST_RING_ENABLE. -/
def execHistRingEnable (src : Src) (n value : Nat) (s : State) : Host.Outcome State Fault Refusal :=
  .next (if n < 192 then s.withReg src .EVB_HIST_CFG n (·.histCfg n value) else s)

/-! ## Contexts and assembly (R182, R185) -/

/-- CONTEXT_ALLOCATE: the oldest accept that waits takes the head of the free list. -/
def State.ctxAllocate (s : State) : State :=
  match s.evb.fifo, s.takeCtx with
  | a :: rest, some (c, s) => (({ s with evb := { s.evb with fifo := rest } }).openEvent a c).evbSettle
  | _, _ => s

def execContextAllocate (s : State) : Host.Outcome State Fault Refusal :=
  .next (if s.evbLive && !s.held then s.ctxAllocate else s)

/-- ASSEMBLY_TIMEOUT: a completion in the same cycle takes effect first. -/
def State.assemblyTimeout (s : State) (c : Nat) : State :=
  let s := s.assemble c
  match s.event c with
  | none => s
  | some e =>
    if e.stage ≠ .assembling then s else
    let e' := s.endFrags e 8
    (s.setEvent c { e' with timeout := true }).readyCheck c

def execAssemblyTimeout (ctx : Nat) (s : State) : Host.Outcome State Fault Refusal :=
  .next (if s.evbLive && !s.held then s.assemblyTimeout ctx else s)

/-! ## Copying (R186 to R192, R194) -/

/-- The ready event with the lowest number. -/
def State.oldestReady (s : State) : Option (Nat × Event) :=
  (s.evb.events.filter (fun e => e.2.stage == EvStage.ready)).foldl (fun b e => match b with
    | none => some e
    | some x => if e.2.acc.evn < x.2.acc.evn then some e else b) none

/-- Copy engines at work. -/
def State.enginesBusy (s : State) : Nat :=
  (s.evb.events.filter (fun e => e.2.stage == EvStage.counted || e.2.stage == EvStage.allocated)).length

/-- EVENT_COPY: a free engine takes the oldest ready event, counts its entries and asks its pool for room. -/
def State.eventCopy (s : State) : State :=
  match s.oldestReady with
  | none => s
  | some (c, e) =>
    if 32 ≤ s.enginesBusy then s else
    let e := { e with frags := e.frags.map (fun (f : Frag) => if f.source < 256 then s.locate e.acc f else f.locateGuest) }
    let x := s.pool e.acc.pool
    (s.setEvent c { e with stage := .counted, length := e.size }).setPool e.acc.pool { x with waiting := x.waiting ++ [c] }

def execEventCopy (s : State) : Host.Outcome State Fault Refusal := .next (if s.evbLive && !s.held then s.eventCopy else s)

/-- POOL_ALLOCATE: the oldest request of pool `p` gets its space once it fits; with the pool disabled its event is
dropped. -/
def State.poolAllocate (s : State) (p : Nat) : State :=
  match (s.pool p).waiting with
  | [] => s
  | c :: rest =>
    if !s.is F.EVB_POOL_CFG.EN p then s.dropEvent c else
    match s.event c with
    | none => s.setPool p { s.pool p with waiting := rest }
    | some e =>
      let n := (e.length + 255) / 256 * 256
      match s.poolFit p n with
      | none => s
      | some (off, bytes) =>
        let x := s.pool p
        let s := s.setPool p { x with
          waiting := rest, tail := off + n, recs := x.recs ++ [PoolRec.mk off bytes c e.epoch false] }
        (s.setEvent c { e with stage := .allocated, addr := s.rd F.EVB_POOL_BASE.BASE p * 2 ^ 30 + off }).evbSettle

def execPoolAllocate (p : Nat) (s : State) : Host.Outcome State Fault Refusal :=
  .next (if s.evbLive && !s.held && p < 8 then s.poolAllocate p else s)

/-- The sheets a lane fragment's entries were copied from are read: the ring positions whose sheet carries poison; none
while a line has to wait. -/
def State.poisonedEntries (s : State) (n : Nat) (srcs : List Nat) : Option (List Nat) × State :=
  let sheets := (srcs.map (fun p => s.histAddr n p / 256)).eraseDups
  let step (acc : Option (List Nat) × State) (sh : Nat) : Option (List Nat) × State :=
    match acc with
    | (none, s) => (none, s)
    | (some bad, s) =>
      let (a, s) := s.devRead 2 false (256 * sh) 256
      match a.why with
      | .busy => (none, s)
      | _ => (some (if a.bad.isEmpty then bad else sh :: bad), s)
  match sheets.foldl step (some [], s) with
  | (none, s') => (none, s')
  | (some bad, s') => (some (srcs.filter (fun p => bad.contains (s.histAddr n p / 256))), s')

/-- A lane fragment after its copy: overwritten data is given up, poisoned sheets' records are left out (R187, R188). -/
def State.copied (s : State) (f : Frag) (bad : List Nat) : Frag :=
  let n := f.source
  let back := (s.rd F.EVB_HIST_WPTR.WPTR n + 2 ^ 64 - f.start) % 2 ^ 64
  let lost := f.flags.testBit 0 || (f.startSet && 2 ^ s.rd F.EVB_HIST_CFG.SIZE n - 65536 < back)
  if lost then { f with flags := f.flags ||| 1, entries := [], count := 0, startSet := false }
  else
    let pairs := f.entries.zip (f.srcs.map some ++ List.replicate (f.entries.length - f.srcs.length) none)
    let keep := (pairs.filter (fun p => !(p.2.any bad.contains))).map (·.1)
    { f with entries := keep, count := keep.length, flags := f.flags ||| (if bad.isEmpty then 0 else 2) }

/-- Every fragment of an event is copied; none while a line has to wait. -/
def State.copyFrags (s : State) : List Frag → Option (List Frag) × State
  | [] => (some [], s)
  | f :: fs =>
    let (bad, s) := if f.source < 256 then s.poisonedEntries f.source f.srcs else (some [], s)
    match bad with
    | none => (none, s)
    | some bad =>
      let f := if f.source < 256 then s.copied f bad else f
      let f := { f with state := f.stateOf }
      match s.copyFrags fs with
      | (some l, s) => (some (f :: l), s)
      | (none, s) => (none, s)

/-- EVENT_COPY_DONE: the record is written; a degraded event is counted. -/
def State.copyDone (s : State) (c : Nat) : State :=
  match s.event c with
  | none => s
  | some e =>
    if e.stage ≠ .allocated then s else
    match s.copyFrags e.frags with
    | (none, s) => s
    | (some fs, s) =>
      let e := { e with frags := fs, stage := .copied }
      match s.devWrite 2 false e.addr (e.record c) false with
      | (.busy, s) => s
      | (_, s) =>
        let s := s.setEvent c e
        if e.flagByte.testBit 7 then s.inc F.EVB_ROUTE_CNT.DEGRADED e.acc.ttype else s

def execEventCopyDone (ctx : Nat) (s : State) : Host.Outcome State Fault Refusal :=
  .next (if s.evbLive && !s.held then s.copyDone ctx else s)

/-! ## Posting (R195, R197) -/

/-- The queue of a copied event is chosen. -/
def State.chooseQueue (s : State) (c : Nat) (e : Event) : State :=
  match e.queue with
  | some _ => s
  | none =>
    let l := s.subsOf e.acc.ttype
    if l.isEmpty then s.dropEvent c else
    let q := l.getD (routeIndex e.acc.evn l.length) 0
    let top := s.evb.events.foldl (fun m x => if x.2.queue = some q then max m x.2.chosen else m) 0
    s.setEvent c { e with queue := some q, chosen := top + 1 }

/-- Bytes of a queue descriptor. -/
def State.queueDesc (s : State) (c : Nat) (e : Event) (q : Nat) : List (BitVec 8) :=
  let phase := 1 - s.rd F.EVB_EVQ_IDX.PI q / 2 ^ s.rd F.EVB_EVQ_CFG.QSIZE q % 2
  natLE 8 e.acc.evn ++ natLE 8 e.addr ++ natLE 4 e.length ++ natLE 1 e.flagByte ++ natLE 1 e.acc.ttype ++ natLE 2 c ++
    natLE 2 e.epoch ++ natLE 2 q ++ natLE 2 (s.rd F.EVB_EVQ_CFG.ROLE_EPOCH q) ++ natLE 1 phase ++ natLE 1 0

/-- The descriptor is posted if the queue has room and no event chosen for it earlier still waits. -/
def State.postTo (s : State) (c : Nat) (e : Event) (q : Nat) : State :=
  let pi := s.rd F.EVB_EVQ_IDX.PI q
  let n := 2 ^ s.rd F.EVB_EVQ_CFG.QSIZE q
  let used := (pi + 65536 - s.rd F.EVB_EVQ_IDX.CI q) % 65536
  let before := s.evb.events.any (fun x => x.2.queue == some q && x.2.stage == EvStage.copied && x.2.chosen < e.chosen)
  if n ≤ used || before then s else
  match s.devWrite 2 false (s.rd F.EVB_EVQ_BASE.BASE q + 32 * (pi % n)) (s.queueDesc c e q) false with
  | (.busy, s) => s
  | (_, s) =>
    let s := (s.setEvent c { e with stage := .posted }).setQueued q (s.queuedOf q ++ [c])
    (((s.bump F.EVB_EVQ_IDX.PI q).inc F.EVB_CNT1.POSTED).inc F.EVB_ROUTE_EV.POSTED e.acc.ttype).evbSettle

/-- EVENT_POST. -/
def State.eventPost (s : State) (c : Nat) : State :=
  match s.event c with
  | none => s
  | some e =>
    if e.stage ≠ .copied then s else
    let s := s.chooseQueue c e
    match s.event c with
    | some e => match e.queue with
      | some q => s.postTo c e q
      | none => s
    | none => s

def execEventPost (ctx : Nat) (s : State) : Host.Outcome State Fault Refusal :=
  .next (if s.evbLive && !s.held then s.eventPost ctx else s)

/-! ## Queues (R196 to R198, R200) -/

/-- EVQ_DOORBELL. -/
def execEvqDoorbell (db : DbSrc) (value : Nat) (s : State) : Host.Outcome State Fault Refusal := .next (s.queueDb db value)

/-- The checks of R196, in order; the status, or none when they pass. -/
def State.subChecks (s : State) (r : Nat) (sub : Bool) : Option Nat :=
  let d := s.desc r
  let route := byteAt d 8
  let q := dget d 10 2
  let sl := s.ringSlice r
  if 16 ≤ route || 1024 ≤ q then some csINVALID
  else if dget d 12 2 ≠ s.rd F.EVB_EVQ_CFG.ROLE_EPOCH q then some csSTALE
  else if sl ≠ 0 && (s.rd F.EVB_ROUTE_CFG.OWNER route ≠ sl || s.rd F.EVB_EVQ_CFG.OWNER q ≠ sl) then some csSPOOF
  else if !s.is F.EVB_EVQ_CFG.EN q || (s.subsOf route).contains q == sub then some csINVALID
  else if sub && 64 ≤ (s.subsOf route).length then some csSPACE
  else none

/-- A command of ring `r` ends as a spoof of the event builder. -/
def State.evbSpoof (s : State) (r : Nat) : State :=
  (((s.inc F.EVB_CNT2.SPOOF).raise F.EVB_STATUS.EVT_SPOOF).spoof (s.ringSlice r) 5 r).finish r csSPOOF

/-- EVQ_SUBSCRIBE and EVQ_UNSUBSCRIBE. -/
def State.subscribe (s : State) (r : Nat) (sub : Bool) : State :=
  match s.subChecks r sub with
  | some st => if st = csSPOOF then s.evbSpoof r else s.finish r st
  | none =>
    let route := byteAt (s.desc r) 8
    let q := dget (s.desc r) 10 2
    let l := s.subsOf route
    (s.setSubs route (if sub then l ++ [q] else l.filter (· ≠ q))).finish r csOK

def execEvqSubscribe (ring : Nat) (s : State) : Host.Outcome State Fault Refusal :=
  .next (if s.evbLive && s.hasCmd ring 0x2C then s.subscribe ring true else s)

def execEvqUnsubscribe (ring : Nat) (s : State) : Host.Outcome State Fault Refusal :=
  .next (if s.evbLive && s.hasCmd ring 0x2D then s.subscribe ring false else s)

/-- A write of EVB_EVQ_CFG[q]: the epoch increments at each change of EN and of OWNER. -/
def State.evqCfg (s : State) (q v : Nat) : State :=
  let en := s.is F.EVB_EVQ_CFG.EN q
  let want := v.testBit 0
  let size := if en then s.rd F.EVB_EVQ_CFG.QSIZE q else s.legal F.EVB_EVQ_CFG.QSIZE q (bits v 4 4)
  let base := s.rd F.EVB_EVQ_BASE.BASE q
  if want && !en && (base % (32 * 2 ^ size) ≠ 0 || !s.normalRange base (32 * 2 ^ size)) then s.raise F.EVB_STATUS.EVT_REFUSED
  else
    let s := s.wr F.EVB_EVQ_CFG.QSIZE q size
    let s := if bits v 8 8 ≠ s.rd F.EVB_EVQ_CFG.OWNER q then
        ((s.wr F.EVB_EVQ_CFG.OWNER q (bits v 8 8)).bump F.EVB_EVQ_CFG.ROLE_EPOCH q).queueOut q else s
    if want && !en then
      ((((s.wr F.EVB_EVQ_CFG.EN q 1).bump F.EVB_EVQ_CFG.ROLE_EPOCH q).wr F.EVB_EVQ_IDX.PI q 0).wr F.EVB_EVQ_IDX.CI q 0)
    else if !want then s.queueDisable q
    else s

/-- EVQ_CFG_WRITE. -/
def execEvqCfgWrite (src : Src) (q value : Nat) (s : State) : Host.Outcome State Fault Refusal :=
  .next (if q < 1024 then s.withReg src .EVB_EVQ_CFG q (·.evqCfg q value) else s)

/-! ## Pools and routes (R189, R193) -/

/-- A write of EVB_POOL_CFG[p]. -/
def State.poolCfg (s : State) (p v : Nat) : State :=
  let en := s.is F.EVB_POOL_CFG.EN p
  let plates := if en then s.rd F.EVB_POOL_CFG.PLATES p else s.legal F.EVB_POOL_CFG.PLATES p (bits v 4 12)
  let base := s.rd F.EVB_POOL_BASE.BASE p * 2 ^ 30
  if !en && v.testBit 0 && !s.normalRange base (plates * 2 ^ 30) then s.raise F.EVB_STATUS.EVT_REFUSED
  else
    let keep := en && !v.testBit 0 && !(s.pool p).recs.isEmpty
    let s := ((s.wr F.EVB_POOL_CFG.PLATES p plates).wr F.EVB_POOL_CFG.LOW p (bits v 32 16)).wr F.EVB_POOL_CFG.HIGH p (bits v 48 16)
    let s := if keep then s else s.wr F.EVB_POOL_CFG.EN p (v % 2)
    let s := if !en && v.testBit 0 then s.setPool p { s.pool p with head := 0, tail := 0 } else s
    s.evbSettle

/-- POOL_ENABLE. -/
def execPoolEnable (src : Src) (p value : Nat) (s : State) : Host.Outcome State Fault Refusal :=
  .next (if p < 8 then s.withReg src .EVB_POOL_CFG p (·.poolCfg p value) else s)

/-- Number of one bits of a 64-bit mask. -/
def popCount (v : Nat) : Nat := (idxWhere 64 v.testBit).length

/-- The inequality of R189. -/
def routeFits (lanes guests maxent : Nat) : Bool :=
  256 + lanes * (32 + 16 * maxent) + guests * (32 + 65536) ≤ 67108864

/-- A write of a route's EVB_ROUTE_CFG (which 0), EVB_ROUTE_TMO (1) or EVB_ROUTE_LANES[k] (2 + k). -/
def State.routeCfg (s : State) (r which v : Nat) : State :=
  let mask (k : Nat) : Nat := if which = 2 + k then v % 2 ^ 64 else s.rd F.EVB_ROUTE_LANES.MASK (3 * r + k)
  let lanes := popCount (mask 0) + popCount (mask 1) + popCount (mask 2)
  let guest := if which = 0 then bits v 5 2 else s.rd F.EVB_ROUTE_CFG.GUEST r
  let maxent := if which = 0 then s.legal F.EVB_ROUTE_CFG.MAXENT r (bits v 48 16) else s.rd F.EVB_ROUTE_CFG.MAXENT r
  if !routeFits lanes (popCount guest) maxent then s.raise F.EVB_ROUTE_STATUS.EVT_REFUSED r
  else if which = 0 then
    let s := ((s.wr F.EVB_ROUTE_CFG.EN r (v % 2)).wr F.EVB_ROUTE_CFG.POOL r (bits v 2 3)).wr F.EVB_ROUTE_CFG.GUEST r guest
    let s := (s.wr F.EVB_ROUTE_CFG.OWNER r (bits v 8 8)).wr F.EVB_ROUTE_CFG.MAXENT r maxent
    (s.wr F.EVB_ROUTE_CFG.PRE r (s.legal F.EVB_ROUTE_CFG.PRE r (bits v 16 11))).wr F.EVB_ROUTE_CFG.POST r
      (s.legal F.EVB_ROUTE_CFG.POST r (bits v 32 11))
  else if which = 1 then s.wr F.EVB_ROUTE_TMO.TIMEOUT r (s.legal F.EVB_ROUTE_TMO.TIMEOUT r (bits v 0 20))
  else s.wr F.EVB_ROUTE_LANES.MASK (3 * r + (which - 2)) v

/-- ROUTE_CFG_WRITE. -/
def execRouteCfgWrite (src : Src) (r which value : Nat) (s : State) : Host.Outcome State Fault Refusal :=
  .next (if r < 16 && which < 5 then s.withReg src .EVB_ROUTE_CFG r (·.routeCfg r which value) else s)

/-- BP_AGE_EXPIRE: the event of a context has gone unposted for BP_AGE. -/
def State.bpAge (s : State) (c : Nat) : State :=
  match s.event c with
  | some e => if s.rd F.EVB_BP_CFG.BP_AGE ≠ 0 && e.stage ≠ .posted then (s.setEvent c { e with aged := true }).evbSettle else s
  | none => s

def execBpAgeExpire (ctx : Nat) (s : State) : Host.Outcome State Fault Refusal :=
  .next (if s.evbLive && !s.held then s.bpAge ctx else s)

/-- EVB_CLEAR_DONE (R201). -/
def execEvbClearDone (s : State) : Host.Outcome State Fault Refusal :=
  .next (if s.evbLive && !s.held && !s.is F.EVB_STATUS.READY then (s.wr F.EVB_STATUS.READY 0 1).evbSettle else s)

/-! ## EVT_DELIVER (R411) -/

/-- How many of the events, in order, fit in `room` bytes, each an item padded to 64 bytes. -/
def fitItems : List Nat → Nat → Nat
  | [], _ => 0
  | n :: rest, room => if n ≤ room then fitItems rest (room - n) + 1 else 0

/-- Bytes of one item. -/
def itemSize (len : Nat) : Nat := (32 + len + 63) / 64 * 64

/-- The bytes read, with poisoned lines zeroed. -/
def zeroBad (pa : Nat) (d : List (BitVec 8)) (bad : List Nat) : List (BitVec 8) :=
  d.zipIdx.map (fun x => if bad.contains (lineOf (pa + x.2)) then 0 else x.1)

/-- The items of the first `k` descriptors from CI are read: their bytes, and whether one carried poison. -/
def State.readItems (s : State) (r q : Nat) : List Nat → Nat → Except Nat (Option (List (BitVec 8) × Bool)) × State
  | [], _ => (.ok (some ([], false)), s)
  | c :: rest, k =>
    match s.event c with
    | none => s.readItems r q rest (k + 1)
    | some e =>
      let da := s.rd F.EVB_EVQ_BASE.BASE q + 32 * ((s.rd F.EVB_EVQ_IDX.CI q + k) % 2 ^ s.rd F.EVB_EVQ_CFG.QSIZE q)
      match s.cmdRead r 5 da 32 with
      | (.wait, s) => (.ok none, s)
      | (.bad st, s) => (.error st, s)
      | (.data d bad1, s) =>
        match s.cmdRead r 5 e.addr e.length with
        | (.wait, s) => (.ok none, s)
        | (.bad st, s) => (.error st, s)
        | (.data b bad2, s) =>
          let item := zeroBad da d bad1 ++ zeroBad e.addr b bad2
          let item := item ++ List.replicate (itemSize e.length - item.length) 0
          match s.readItems r q rest (k + 1) with
          | (.ok (some (l, p)), s) => (.ok (some (item ++ l, p || !bad1.isEmpty || !bad2.isEmpty)), s)
          | x => x

/-- Bytes of the item of the event on context `c`. -/
def State.itemOf (s : State) (c : Nat) : Nat :=
  match s.event c with
  | some e => itemSize e.length
  | none => 0

/-- The copy and the release of the events delivered. -/
def State.deliverEvents (s : State) (r q : Nat) : State :=
  let d := s.desc r
  let dst := dget d 16 8
  let sizes := ((s.queuedOf q).take (dget d 12 2)).map s.itemOf
  let k := fitItems sizes (dget d 24 4)
  if sizes.isEmpty then s.finish r csOK 0 0 (s.rd F.EVB_EVQ_IDX.CI q)
  else if k = 0 then s.finish r csSPACE 0 0 (s.rd F.EVB_EVQ_IDX.CI q)
  else
    match s.readItems r q ((s.queuedOf q).take k) 0 with
    | (.ok none, s) => s
    | (.error st, s) => s.finish r st
    | (.ok (some (bytes, poison)), s) =>
      match s.cmdWrite r 5 dst bytes with
      | (.wait, s) => s
      | (.bad st, s) => s.finish r st
      | (.done, s) =>
        let ci := (s.rd F.EVB_EVQ_IDX.CI q + k) % 65536
        ((s.wr F.EVB_EVQ_IDX.CI q ci).releaseQueue q k).finish r (if poison then csPOISON else csOK) k bytes.length ci

/-- EVT_DELIVER. -/
def State.evtDeliver (s : State) (r : Nat) : State :=
  let d := s.desc r
  let q := dget d 8 2
  let sl := s.ringSlice r
  if 1024 ≤ q then s.finish r csINVALID
  else if dget d 10 2 ≠ s.rd F.EVB_EVQ_CFG.ROLE_EPOCH q then (s.inc F.EVB_EVQ_IDX.STALE q).finish r csSTALE
  else if sl ≠ 0 && (s.rd F.EVB_EVQ_CFG.OWNER q ≠ sl || !s.rangeOk sl (dget d 16 8) (dget d 24 4)) then
    (s.spoof sl 9 r).finish r csSPOOF
  else if dget d 12 2 = 0 || 256 < dget d 12 2 || !s.is F.EVB_EVQ_CFG.EN q then s.finish r csINVALID
  else s.deliverEvents r q

def execEvtDeliver (ring : Nat) (s : State) : Host.Outcome State Fault Refusal :=
  .next (if s.evbLive && s.hasCmd ring 0x43 then s.evtDeliver ring else s)

end Sys2Proof.Machine
end

