-- ==== Sys2Proof/Machine/TrgOps.lean ====
section
/-!
DEFINITION. The shared operations of the trigger path: programmes and their spans, sketch folding, conditions, terms,
restarts, and the release queue's side of a decision (R67 to R71, R127 to R147, R150, R155).
-/

namespace Sys2Proof.Machine

/-! ## Beat unit -/

/-- States of the beat unit (R58). -/
abbrev buSTOPPED : Nat := 0
abbrev buTRACKING : Nat := 1
abbrev buHOLDOVER : Nat := 2
abbrev buEXPIRED : Nat := 3

def State.beatUnit (s : State) : Nat := s.rd F.BEAT_STATUS.UNIT

/-- The beat runs: its unit is alive and not STOPPED, so beat edges occur. -/
def State.beatRuns (s : State) : Bool := s.beatLive && !s.held && s.beatUnit != buSTOPPED

/-- Beats below the last count-changing load edge (R157). -/
def State.beforeLoad (s : State) (t : Nat) : Bool :=
  match s.beat.lastLoad with
  | some c => t < c
  | none => false

/-! ## Units and programmes (R150, R155) -/

def State.trgUnit (s : State) (u : Nat) : TrgUnit := Tbl.get s.trg.units u TrgUnit.init
def State.setUnit (s : State) (u : Nat) (x : TrgUnit) : State :=
  { s with trg := { s.trg with units := Tbl.set s.trg.units u x TrgUnit.init } }

/-- The span that holds beat `t`, with its last beat where a later span has ended it. -/
def TrgUnit.spanAt (x : TrgUnit) (t : Nat) : Option (Span × Option Nat) :=
  if x.cur.first ≤ t then some (x.cur, none)
  else (x.olds.find? (fun o => o.1.first ≤ t && t ≤ o.2)).map (fun o => (o.1, some o.2))

/-- The programme a unit uses for beat `t`. -/
def TrgUnit.progAt (x : TrgUnit) (t : Nat) : Prog :=
  match x.spanAt t with
  | some (p, _) => p.prog
  | none => Prog.init

/-- A programme takes force from beat `first`. -/
def TrgUnit.begin (x : TrgUnit) (p : Prog) (first was : Nat) : TrgUnit :=
  { cur := { prog := p, first := first, swapped := true, wasDepth := was }, olds := (x.cur, first - 1) :: x.olds, shadow := none }

def State.trgReady (s : State) : Bool := s.trgLive && !s.held && s.is F.TRG_STATUS.READY

/-! ## Conditions and terms (R135 to R139) -/

def condEn (c : Nat) : Bool := c.testBit 0
def condAhead (c : Nat) : Nat := bits c 10 4
def condBack (c : Nat) : Nat := bits c 6 4

/-- Conditions that enabled terms name. -/
def Prog.used (p : Prog) : List Nat :=
  (List.range 64).filter (fun k => condEn (Tbl.get p.conds k 0) &&
    (List.range 16).any (fun j => p.termEn.testBit j && ((Tbl.get p.terms j 0).testBit k || (Tbl.get p.terms j 0).testBit (64 + k))))

/-- LOOK of a programme (R138). -/
def Prog.look (p : Prog) : Nat := (p.used.map (fun k => condAhead (Tbl.get p.conds k 0))).foldl max 0

/-- Valid subscription entries. -/
def Prog.lanes (p : Prog) : List Nat := (p.subs.filter (fun e => e.2.testBit 15)).map (fun e => bits e.2 0 8)

/-- LOOK registers follow the active programmes (R139). -/
def State.lookStatus (s : State) : State :=
  let s := (List.range 64).foldl (fun s e => s.wr F.TRG_UNIT_STATUS.LOOK e (s.trgUnit e).cur.prog.look) s
  s.wr F.TRG_STATUS.LOOKAHEAD 0 (((List.range 64).map (fun e => s.rd F.TRG_UNIT_STATUS.LOOK e)).foldl max 0)

/-- OWNER of sketch slot `k` (16 × lane + slot) for beat `t`. -/
def State.slotOwner (s : State) (k t : Nat) : Nat := bits (Tbl.get ((s.trgUnit 64).progAt t).sketch k 0) 48 8

/-- Input `k` of engine `e` for beat `t`, evaluated under a span (R133, R136). -/
def State.engineInput (s : State) (e : Nat) (sp : Span × Option Nat) (k t : Nat) : Nat :=
  let sub := Tbl.get sp.1.prog.subs k 0
  let lane := bits sub 0 8
  let slot := bits sub 8 4
  let owner := s.rd F.TRG_UNIT_STATUS.OWNER e
  let outside := t < sp.1.first || (match sp.2 with
    | some l => l < t
    | none => false) || s.beforeLoad t
  if !sub.testBit 15 || outside || (owner ≠ 0 && s.slotOwner (16 * lane + slot) t ≠ owner) then 0
  else Tbl.get (Tbl.get s.trg.inputs (lane, t) []) slot 0

/-- OR of integers as 48-bit patterns. -/
def or48 (l : List Int) : Int := signed 48 (l.foldl (fun a v => a ||| unsignedOf 48 v) 0)

/-- The indices of a condition's operand. -/
def condInputs (c : Nat) : List Nat :=
  let a := bits c 24 8
  let b := bits c 32 8
  match bits c 14 2 with
  | 0 => [a]
  | 1 => [a, b]
  | _ => (List.range (b + 1 - a)).map (a + ·)

/-- One beat of a condition's operand (R136). -/
def State.condBeat (s : State) (e : Nat) (sp : Span × Option Nat) (c t : Nat) : Int :=
  let v := (condInputs c).map (fun k =>
    let x := s.engineInput e sp k t
    if c.testBit 16 then signed 32 x else (x : Int))
  if bits c 4 2 = 2 then or48 v else v.foldl (· + ·) 0

/-- The beats of a condition's window, leaving out those below beat zero. -/
def condWindow (c b : Nat) : List (Option Nat) :=
  (List.range (condBack c + condAhead c + 1)).map (fun k => if condBack c ≤ b + k then some (b + k - condBack c) else none)

/-- The reduction of a condition over its window. -/
def State.condValue (s : State) (e : Nat) (sp : Span × Option Nat) (c b : Nat) : Int :=
  let xs := (condWindow c b).map (fun t => match t with
    | some t => s.condBeat e sp c t
    | none => 0)
  match bits c 4 2 with
  | 0 => xs.foldl (· + ·) 0
  | 1 => xs.foldl max (xs.headD 0)
  | _ => or48 xs

/-- A condition's comparison (R136). -/
def condHolds (c : Nat) (v : Int) : Bool :=
  let thr := bits c 64 32
  let t : Int := if c.testBit 16 then signed 32 thr else (thr : Int)
  let mask := bits c 96 32
  let low := unsignedOf 32 v
  match bits c 1 3 with
  | 0 => t ≤ v
  | 1 => v < t
  | 2 => v == t
  | 3 => v != t
  | 4 => low &&& mask != 0
  | 5 => low &&& mask == mask
  | 6 => thr ≤ popCount (low &&& mask)
  | _ => false

def State.condTrue (s : State) (e : Nat) (sp : Span × Option Nat) (b k : Nat) : Bool :=
  let c := Tbl.get sp.1.prog.conds k 0
  condEn c && condHolds c (s.condValue e sp c b)

/-- The 16 term bits of engine `e` for beat `b` (R137). -/
def State.termBits (s : State) (e : Nat) (sp : Span × Option Nat) (b : Nat) : Nat :=
  let p := sp.1.prog
  let tr := (List.range 64).foldl (fun v k => if s.condTrue e sp b k then setBit v k else v) 0
  (List.range 16).foldl (fun v j =>
    let t := Tbl.get p.terms j 0
    if p.termEn.testBit j && (t % 2 ^ 64) &&& tr == t % 2 ^ 64 && bits t 64 64 &&& tr == 0 then setBit v j else v) 0

/-! ## Sketch units (R127 to R131) -/

/-- Next beat sketch unit `n` closes. -/
def State.sketchBeat (s : State) (n : Nat) : Nat := (Tbl.find s.trg.skNext n).getD s.trg.origin

/-- Does a slot definition select a hit of this group and amplitude (R129)? -/
def slotSelects (d group : Nat) (cal : Int) : Bool :=
  bits d 0 4 != 0 && bits d 8 12 ≤ group && group ≤ bits d 20 12 && signed 16 (bits d 32 16) ≤ cal

/-- A hit folded into a slot's open word (R128). -/
def slotFold (d : Nat) (old cal : Int) (weight group : Nat) : Int :=
  match bits d 0 4 with
  | 1 => old + cal
  | 2 => old + cal * weight
  | 3 => old + 1
  | 4 => old + weight
  | 5 => max old cal
  | _ => (setBit old.toNat (group - bits d 8 12) : Nat)

/-- The finished word (R128). -/
def slotWord (d : Nat) (v : Int) : Nat :=
  if bits d 0 4 = 2 then unsignedOf 32 (min (max v (-2147483648)) 2147483647) else unsignedOf 32 v

/-- HIT_FOLD: a calibrated hit of beat `t` reaches sketch unit `n` (R129, R130, R147). -/
def State.foldHit (s : State) (n t : Nat) (cal : Int) (weight group : Nat) : State :=
  if !s.trgReady || s.beforeLoad t then s
  else if t < s.sketchBeat n then (s.inc F.TRG_SK_LATE.HITS n).raise F.TRG_STATUS.EVT_SK_LATE
  else
    let p := (s.trgUnit 64).progAt t
    (List.range 16).foldl (fun s k =>
      let d := Tbl.get p.sketch (16 * n + k) 0
      if slotSelects d group cal then
        { s with trg := { s.trg with acc := Tbl.set s.trg.acc (n, t, k) (slotFold d (Tbl.get s.trg.acc (n, t, k) 0) cal weight group) 0 } }
      else s) s

/-! ## Restart at a count-changing load (R147, R155) -/

/-- The spans of a unit restart at the load edge `c`. -/
def TrgUnit.restart (x : TrgUnit) (c judged : Nat) : TrgUnit :=
  { x with cur := { x.cur with first := c, swapped := x.cur.swapped && judged ≤ x.cur.first, wasDepth := 0 }, olds := [] }

def State.trgRestart (s : State) (c : Nat) : State :=
  let judged := s.trg.cmbNext
  let units := (List.range 65).map (fun u => (u, (s.trgUnit u).restart c judged))
  let s := { s with trg := { s.trg with
    units := units, acc := [], skNext := [], packets := [], inputs := [], inNext := [], engNext := [], terms := [],
    cmbNext := c, guestWords := [], guestLate := [], pass := [], origin := c } }
  (s.wr F.TRG_CMB_STATE.LAST_VALID 0 0).wr F.TRG_CMB_STATE.LEVEL 0 (s.trgUnit 64).cur.prog.depth

/-! ## Ownership of engines (R150, R156) -/

/-- ENGINE_OWNER_CHANGE: the engine's programmes and combiner entries become empty from the next beat edge. -/
def State.engineOwner (s : State) (e sl : Nat) : State :=
  if s.rd F.TRG_UNIT_STATUS.OWNER e = sl then s else
  let s := (s.wr F.TRG_UNIT_STATUS.OWNER e sl).bump F.TRG_UNIT_STATUS.ROLE_EPOCH e
  let s := s.setUnit e ((s.trgUnit e).begin Prog.init (s.beatNow + 1) 0)
  let s := ((s.wr F.TRG_UNIT_STATUS.ARMED e 0).wr F.TRG_UNIT_STATUS.MOVED e 0).wr F.TRG_UNIT_SWAP.S e 0
  let s := (s.wr F.TRG_UNIT_MENU.ACTIVE_ID e 0).wr F.TRG_UNIT_MENU.ARMED_ID e 0
  (s.lookStatus).raise F.TRG_UNIT_STATUS.EVT_OWNER e

/-- The shadow of an engine is discarded, at a reset of its slice (R156). -/
def State.shadowDrop (s : State) (e : Nat) : State :=
  let s := s.setUnit e { s.trgUnit e with shadow := none }
  ((s.wr F.TRG_UNIT_STATUS.ARMED e 0).wr F.TRG_UNIT_STATUS.MOVED e 0).wr F.TRG_UNIT_SWAP.S e 0 |>.wr F.TRG_UNIT_MENU.ARMED_ID e 0

/-! ## Guest words (R141, R359) -/

/-- The programme of CMB for beat `b`. -/
def State.cmbProg (s : State) (b : Nat) : Prog := (s.trgUnit 64).progAt b

/-- GUEST_WORD_DELIVER: the word of beat `b` reaches the combiner, unless its deadline has passed. -/
def State.guestWord (s : State) (b w : Nat) : State :=
  let p := s.cmbProg b
  if !s.trgReady || p.guestDl = 0 || s.beatNow ≥ b + p.guestDl || b < s.trg.cmbNext || s.trg.guestLate.contains b then s
  else { s with trg := { s.trg with guestWords := Tbl.put s.trg.guestWords b (w % 2 ^ 64) } }

/-- Does guest site `g` take part in the guest word (R359)? -/
def State.takesPart (s : State) (g : Nat) : Bool :=
  s.dieAdmitted (12 + g) && s.guestLive g && s.is F.STN_CFG.OPEN g && s.is F.STN_CFG.TRIG_EN g

/-- The sites that take part. -/
def State.guestSites (s : State) : List Nat := (List.range 2).filter s.takesPart

/-- The stencil delivers the word of beat `b` once every site that takes part has sent its word (R359). -/
def State.stencilWord (s : State) (b : Nat) : State :=
  let sites := s.guestSites
  if sites.isEmpty || !sites.all (fun g => (Tbl.find (s.guest g).words b).isSome) then s else
  let w := sites.foldl (fun v g => v ||| (Tbl.get (s.guest g).words b 0 &&& s.rd F.STN_TRIG_MASK.MASK g)) 0
  let s := (List.range 2).foldl (fun s g =>
    let x := s.guest g
    s.setGuest g { x with words := Tbl.erase x.words b }) s
  s.guestWord b w

/-- The stencil forgets each site's last accepted beat, and the words of the beats before (R358). -/
def State.stencilLoad (s : State) : State :=
  (List.range 2).foldl (fun s g =>
    let x := s.guest g
    s.setGuest g { x with lastTrig := none, words := [] }) s

/-! ## Decisions at the release queue (R67, R68, R70, R71) -/

def State.latency (s : State) : Nat := s.rd F.BEAT_RQ_CFG.LAT

/-- DECISION_WRITE: the decision for beat `b`; the pass vector of an accept goes with it (R145). -/
def State.decide (s : State) (b : Nat) (accept : Bool) (ttype trig pass : Nat) : State :=
  let read := match s.beat.read with
    | some r => r.beat == b
    | none => false
  if !s.beatLive || !s.is F.BEAT_RQ_CFG.RUN || b < s.beat.decFrom then s
  else if s.beatUnit = buEXPIRED || b + s.latency ≤ s.beatNow || read then s.inc F.BEAT_RQ_CNT.DISCARDED
  else { s with
    beat := { s.beat with rq := Tbl.put s.beat.rq (b % 4096) (RqEntry.mk accept ttype trig) }
    trg := { s.trg with pass := if accept then Tbl.put s.trg.pass b pass else Tbl.erase s.trg.pass b } }

end Sys2Proof.Machine
end

