-- ==== Sys2Proof/Machine/CtxOps.lean ====
section
/-!
DEFINITION. The shared operations of the context store: fields of a context, the view a hit sees, the calibration
arithmetic and the overlay (R106 to R116, R122, R123).
-/

namespace Sys2Proof.Machine

/-! ## Contexts (R106) -/

def cxValid (c : Nat) : Bool := c.testBit 0
def cxMask (c : Nat) : Bool := c.testBit 1
def cxMode (c : Nat) : Nat := bits c 2 2
def cxLane (c : Nat) : Nat := bits c 4 8
def cxPedestal (c : Nat) : Int := signed 16 (bits c 12 16)
def cxGain (c : Nat) : Nat := bits c 28 16
def cxThreshold (c : Nat) : Int := signed 16 (bits c 44 16)
def cxGroup (c : Nat) : Nat := bits c 60 12
def cxWeight (c : Nat) : Nat := bits c 72 8
def cxSigned (c : Nat) : Bool := c.testBit 88
def cxNoSketch (c : Nat) : Bool := c.testBit 89
def cxNoHist (c : Nat) : Bool := c.testBit 90

/-- May a command write this context (R107)? -/
def cxGood (c : Nat) : Bool := cxMode c != 3 && bits c 91 37 == 0

/-- The context as a slice other than the manager stores it: OWNER is the slice's own number (R107); one with VALID = 0
reads back as zero. -/
def cxStored (c sl : Nat) : Nat :=
  if !cxValid c then 0
  else if sl = 0 then c else c - bits c 80 8 * 2 ^ 80 + sl * 2 ^ 80

/-! ## Epoch slots (R115, R116) -/

abbrev ceFREE : Nat := 0
abbrev ceOPEN : Nat := 1
abbrev ceARMED : Nat := 2
abbrev ceLIVE : Nat := 3
abbrev ceMERGING : Nat := 4

def State.slotState (s : State) (k : Nat) : Nat := s.rd F.CTX_EPOCH.STATE k
def State.slotF (s : State) (k : Nat) : Nat := s.rd F.CTX_EPOCH_BEAT.F k
def State.slotAux (s : State) (k : Nat) : SlotAux := Tbl.get s.ctx.slots k (SlotAux.mk 0 0)
def State.setAux (s : State) (k : Nat) (x : SlotAux) : State :=
  { s with ctx := { s.ctx with slots := Tbl.set s.ctx.slots k x (SlotAux.mk 0 0) } }

def State.ctxReady (s : State) : Bool := s.ctxLive && !s.held && s.is F.CTX_STATUS.READY

/-- Overlay bank of a channel (R112). -/
def ctxBank (ch : Nat) : Nat := ch % 128

/-- The occupancy registers follow the overlay and the slots. -/
def State.ovlStatus (s : State) : State :=
  let s := s.wr F.CTX_STATUS.OVL_USED 0 s.ctx.overlay.length
  let s := s.wr F.CTX_STATUS.SLOTS_BUSY 0 ((List.range 64).filter (fun k => s.slotState k ≠ ceFREE)).length
  let s := (List.range 128).foldl (fun s b =>
    s.wr F.CTX_BANK_OVL.USED b (s.ctx.overlay.filter (fun e => ctxBank e.channel = b)).length) s
  (List.range 64).foldl (fun s k => s.wr F.CTX_EPOCH.ENTRIES k (s.ctx.overlay.filter (fun e => e.slot = k)).length) s

/-- A slot returns to FREE: its entries are released and its role epoch increments. -/
def State.slotFree (s : State) (k : Nat) : State :=
  let s := { s with ctx := { s.ctx with overlay := s.ctx.overlay.filter (fun e => e.slot ≠ k), slots := Tbl.erase s.ctx.slots k } }
  let s := (s.wr F.CTX_EPOCH.STATE k ceFREE).bump F.CTX_EPOCH.ROLE_EPOCH k
  (((s.wr F.CTX_EPOCH.OWNER k 0).wr F.CTX_EPOCH.FLIP_MOVED k 0).wr F.CTX_EPOCH_BEAT.F k 0).ovlStatus

/-- Slot `j` precedes slot `k` in merge order (R116). -/
def State.mergesBefore (s : State) (j k : Nat) : Bool :=
  s.slotF j < s.slotF k || (s.slotF j == s.slotF k && (s.slotAux j).armSeq < (s.slotAux k).armSeq)

/-! ## The view (R111) -/

/-- The overlay entry a hit of beat `t` sees, if any. -/
def State.ovlView (s : State) (ch t : Nat) : Option OvlEntry :=
  (s.ctx.overlay.filter (fun e => e.channel = ch && ceARMED ≤ s.slotState e.slot && s.slotF e.slot ≤ t)).foldl (fun b e =>
    match b with
    | none => some e
    | some x => if s.mergesBefore x.slot e.slot then some e else some x) none

/-- The context of channel `ch` in force at beat `t`. -/
def State.ctxView (s : State) (ch t : Nat) : Nat :=
  match s.ovlView ch t with
  | some e => e.ctx
  | none => Tbl.get s.ctx.base ch 0

/-- Does the hit see a base row that a later epoch's merge wrote (R123)? -/
def State.staleView (s : State) (ch t : Nat) : Bool :=
  (s.ovlView ch t).isNone && (match Tbl.find s.ctx.merged ch with
    | some f => t < f
    | none => false)

/-! ## Calibration (R108) -/

/-- Calibrated amplitude, and whether it saturated. -/
def calibrate (c raw : Nat) : Int × Bool :=
  let a : Int := if cxSigned c then signed 16 raw else (raw % 65536 : Nat)
  let d := a - cxPedestal c
  let p := d * cxGain c
  let q := (p + 2048) / 4096
  (min (max q (-32768)) 32767, q > 32767 || q < -32768)

/-- Does a calibrated hit survive? -/
def survives (c : Nat) (cal : Int) : Bool :=
  !cxMask c && (match cxMode c with
    | 0 => cxThreshold c ≤ cal
    | 1 => cxThreshold c ≤ (cal.natAbs : Int)
    | _ => true)

/-- The calibrated hit of R109. -/
def calHit (c ch t fine : Nat) (cal : Int) (sat : Bool) : HistRec :=
  { w0 := t % 2 ^ 52 + cxWeight c <<< 52 + b2n sat <<< 60
    w1 := fine + unsignedOf 16 cal <<< 16 + cxGroup c <<< 32 + ch <<< 44 }

end Sys2Proof.Machine
end

