-- ==== Sys2Proof/Machine/LaneOps.lean ====
section
/-!
DEFINITION. The shared operations of the Hatchline lanes: the lane state machine, frame checks and delivery, hit
processing, staging to the history ring, and the transmit slots (R81 to R102, R178 to R180).
-/

namespace Sys2Proof.Machine

/-! ## Lane states (R89) -/

abbrev lnOFF : Nat := 0
abbrev lnCDR : Nat := 1
abbrev lnHUNT : Nat := 2
abbrev lnBLOCK : Nat := 3
abbrev lnFRAME : Nat := 4
abbrev lnSYNC : Nat := 5

def State.laneState (s : State) (n : Nat) : Nat := s.rd F.LANE_STATUS.STATE n

/-- A lane of the device whose group is alive. -/
def State.laneUp (s : State) (n : Nat) : Bool := n < 192 && s.laneLive n && !s.held

/-- The lane takes a state.  Leaving SYNC sets EVT_SYNC_LOSS, counts a lane retrain and ends the lane's fragments; an entry
into HUNT or BLOCK forgets the expected SEQ (R89, R92, R185). -/
def State.laneGo (s : State) (n st : Nat) : State :=
  let was := s.laneState n
  if was = st then s else
  let s := s.wr F.LANE_STATUS.STATE n st
  let x := s.lane n
  let s := if st = lnHUNT || st = lnBLOCK then
      (s.setLane n { x with seqHeld := false, good := 0, dropped := 0, droppedId := 0 }).wr F.LANE_STATUS.SEQ_EXP n 0
    else s
  if was = lnSYNC then
    (((s.raise F.LANE_STATUS.EVT_SYNC_LOSS n).ledger secLink (idxLane n)).assembleAll).evbSettle
  else s

/-- A lane in CDR with its signal recovered goes on to HUNT once the group PLL is locked. -/
def State.laneRecover (s : State) (n : Nat) : State :=
  if s.laneState n = lnCDR && (s.lane n).signal && s.is F.HLN_GRP_STATUS.PLL_LOCK (n / 24) then s.laneGo n lnHUNT else s

/-- RX_EN takes a value (R89, R90). -/
def State.rxEn (s : State) (n : Nat) (on : Bool) : State :=
  let s := s.wr F.LANE_CFG.RX_EN n (b2n on)
  if !on then s.laneGo n lnOFF
  else if s.laneState n = lnOFF then (s.setLane n { s.lane n with signal := false }).laneGo n lnCDR
  else s

/-! ## The closed beat (R96) -/

/-- C of lane `n`. -/
def State.laneWm (s : State) (n : Nat) : Int :=
  if s.laneState n = lnSYNC then
    max ((s.lane n).e - 1 : Int) ((s.beatNow : Int) - s.rd F.LANE_CFG.MAX_AGE n - 1)
  else s.beatNow

/-! ## Staging (R95, R178) -/

def HitSlot.rec? : HitSlot → Option HistRec
  | .record r => some r
  | _ => none

def StagedFrame.settled (f : StagedFrame) : Bool := f.hits.all (· != HitSlot.waiting)

/-- Records of a frame, in the order of R178. -/
def StagedFrame.records (f : StagedFrame) : List HistRec := f.pre ++ f.hits.filterMap HitSlot.rec?

/-- A frame whose hits are all looked up is released: with its ring disabled it vanishes; where its hits do not fit the
64 KiB buffer none goes to history and a TRUNCATED record takes their place (R95). -/
def State.frameSettle (s : State) (n id : Nat) : State :=
  let x := s.lane n
  match x.frames.find? (fun f => f.id == id) with
  | none => s
  | some f =>
    if !f.settled then s
    else if !s.is F.EVB_HIST_CFG.EN n then s.setLane n { x with frames := x.frames.filter (fun g => g.id ≠ id) }
    else
      let used := ((x.frames.filter (fun g => g.id ≠ id && g.settled)).map (fun g => 16 * g.records.length)).foldl (· + ·) 0
      let own := f.hits.filterMap HitSlot.rec?
      if own.isEmpty || used + 16 * f.records.length ≤ 65536 then s else
      let pre := if f.pre.any (fun r => r.kind == 2) then f.pre else f.pre ++ [gapRec 2 f.base f.last]
      let f' := { f with pre := pre, hits := [] }
      let s := s.setLane n { x with frames := x.frames.map (fun g => if g.id = id then f' else g) }
      (s.inc F.LANE_CNT4.HIST_OVF n).raise F.LANE_STATUS.EVT_HIST_OVF n

/-- A frame, or the gap record of an entry into SYNC, joins the staging buffer. -/
def State.stage (s : State) (n base last : Nat) (late : Bool) (pre : List HistRec) (hits : List HitSlot) : State :=
  let x := s.lane n
  let f : StagedFrame := { id := x.nextFrame, base := base, last := last, late := late, pre := pre, hits := hits }
  (s.setLane n { x with frames := x.frames ++ [f], nextFrame := x.nextFrame + 1 }).frameSettle n f.id

/-- LANE_SYNC_ENTRY: the lane enters SYNC with expected base `e`; history first gets the MISSING record of the beats it
lacks (R89, R179). -/
def State.enterSync (s : State) (n e : Nat) : State :=
  let s := s.setLane n { s.lane n with e := e, dropped := 0, droppedId := 0 }
  let s := (s.laneGo n lnSYNC).raise F.LANE_STATUS.EVT_STATE n
  let hw := signed 64 (s.rd F.EVB_HIST_HW.HW n)
  if s.is F.EVB_HIST_CFG.EN n && hw < (e : Int) - 1 then s.stage n e (e - 1) false [gapRec 1 (hw + 1).toNat (e - 1)] []
  else s

/-- The anchors stored as HW moves (R180): newest first, at most 256. -/
def anchorsFor (ashift : Nat) (old new : Int) (base : Nat) (gapPos framePos : Nat) : List (Nat × Nat) :=
  if new ≤ old then [] else
  let k1 := (new.toNat) / 2 ^ ashift
  let k0 : Int := if old < 0 then -1 else (old.toNat / 2 ^ ashift : Nat)
  (List.range (min 256 ((k1 : Int) - k0).toNat)).map (fun j =>
    let t := (k1 - j) * 2 ^ ashift
    (t, if t < base then gapPos else framePos))

/-- The oldest released frame of lane `n` is written to its ring (R178 to R180); the event builder then looks at its
fragments again. -/
def State.histWrite (s : State) (n : Nat) : State :=
  match (s.lane n).frames with
  | [] => s
  | f :: rest =>
    if !f.settled then s
    else if !s.is F.EVB_HIST_CFG.EN n then s.setLane n { s.lane n with frames := rest }
    else
      let wptr := s.rd F.EVB_HIST_WPTR.WPTR n
      let size := 2 ^ s.rd F.EVB_HIST_CFG.SIZE n
      let data := f.records.flatMap (fun r => natLE 8 r.w0 ++ natLE 8 r.w1)
      let first := min data.length (size - wptr % size)
      let (w1, s) := s.devWrite 2 false (s.histAddr n wptr) (data.take first) false
      if w1 = .busy then s else
      let (w2, s) := s.devWrite 2 false (s.histAddr n (wptr + first)) (data.drop first) false
      if w2 = .busy then s else
      let old := signed 64 (s.rd F.EVB_HIST_HW.HW n)
      let missing := (f.pre.filter (fun r => r.kind == 1)).length
      let s := s.wr F.EVB_HIST_WPTR.WPTR n (wptr + data.length)
      if s.laneState n ≠ lnSYNC then s.setLane n { s.lane n with frames := rest } else
      let anchors := anchorsFor (s.rd F.EVB_CFG.ASHIFT) old f.last f.base wptr (wptr + 16 * missing)
      let x := s.lane n
      let s := s.setLane n { x with frames := rest, anchors := (anchors ++ x.anchors).take 256 }
      ((s.wr F.EVB_HIST_HW.HW n f.last).assembleAll).evbSettle

/-! ## Frame checks (R85, R91) -/

/-- A frame as received between SOF and EOF, with what broke its structure. -/
structure RxFrame where
  h0 : Nat
  h1 : Nat
  payload : List Nat
  crc : Nat
  /-- invalid sync headers and control blocks of no receive type inside the frame -/
  hdrErr : Nat
  ctrlErr : Nat
  /-- a new SOF before EOF, an IDLE inside the frame, or a missing header word -/
  broken : Bool
  deriving DecidableEq, Repr

def RxFrame.type (f : RxFrame) : Nat := bits f.h0 0 4
def RxFrame.seq (f : RxFrame) : Nat := bits f.h0 16 16
def RxFrame.words (f : RxFrame) : Nat := bits f.h0 32 16
def RxFrame.span (f : RxFrame) : Nat := bits f.h0 48 12
def RxFrame.base (f : RxFrame) : Nat := f.h1 % 2 ^ 64
def RxFrame.last (f : RxFrame) : Nat := f.base + f.span
/-- Header and payload bytes in wire order (R87). -/
def RxFrame.bytes (f : RxFrame) : List (BitVec 8) := natLE 8 f.h0 ++ natLE 8 f.h1 ++ f.payload.flatMap (natLE 8)

/-- Is check 1 passed? -/
def State.frameWhole (s : State) (n : Nat) (f : RxFrame) : Bool :=
  f.hdrErr == 0 && f.ctrlErr == 0 && !f.broken && f.payload.length == f.words &&
    (match f.type with
      | 1 => f.words ≤ s.rd F.LANE_CFG.MAXWORDS n
      | 2 => f.words ≤ 128
      | _ => true)

/-- SEQ minus the expected SEQ, zero while none is held (R91, R92). -/
def State.seqStep (s : State) (n : Nat) (f : RxFrame) : Nat :=
  if (s.lane n).seqHeld then (f.seq + 65536 - s.rd F.LANE_STATUS.SEQ_EXP n) % 65536 else 0

/-- The first check of R91 that fails. -/
def State.frameCheck (s : State) (n : Nat) (f : RxFrame) : Option Nat :=
  let id := s.rd F.LANE_CFG.EXPECT_ID n
  if !s.frameWhole n f then some 1
  else if crc32 f.bytes ≠ f.crc then some 2
  else if bits f.h0 4 4 ≠ 1 || (f.type ≠ 1 && f.type ≠ 2) then some 3
  else if bits f.h0 8 8 ≠ (if id = 0xFF then n else id) then some 4
  else if 32768 ≤ s.seqStep n f then some 5
  else if f.type = 1 && s.beatNow < f.last then some 6
  else if f.type = 1 && s.laneState n = lnSYNC && f.base < (s.lane n).e then some 7
  else none

/-- The counter of a check. -/
def checkCounter : Nat → Field
  | 1 => F.LANE_CNT1.LEN_ERR
  | 2 => F.LANE_CNT0.CRC_ERR
  | 3 => F.LANE_CNT1.TYPE_ERR
  | 4 => F.LANE_CNT1.ID_ERR
  | 5 => F.LANE_CNT2.SEQ_DUP
  | 6 => F.LANE_CNT1.TIME_ERR
  | _ => F.LANE_CNT3.OVERLAP

/-- The lane's expected SEQ after a frame. -/
def State.seqNext (s : State) (n : Nat) (f : RxFrame) : State :=
  (s.setLane n { s.lane n with seqHeld := true }).wr F.LANE_STATUS.SEQ_EXP n (f.seq + 1)

/-- A frame is dropped by check `k` (R89, R91). -/
def State.frameDropped (s : State) (n k : Nat) : State :=
  let s := s.inc (checkCounter k) n
  let x := s.lane n
  if s.laneState n = lnFRAME then s.setLane n { x with good := 0 }
  else if s.laneState n ≠ lnSYNC then s
  else
    let d := if k = 5 || k = 7 then 0 else x.dropped + 1
    let i := if k = 4 then x.droppedId + 1 else 0
    let s := s.setLane n { x with dropped := d, droppedId := i }
    if 4 ≤ i then (s.laneGo n lnBLOCK).raise F.LANE_STATUS.EVT_ID n
    else if 8 ≤ d then s.laneGo n lnBLOCK
    else s

/-! ## Hit processing (R94, R113, R114) -/

/-- Steps 1 and 2 of R94 over a frame's hit words: how many fail each, and the words that pass. -/
def hitSteps (span : Nat) : List Nat → Nat → Nat × Nat × List Nat
  | [], _ => (0, 0, [])
  | w :: ws, prev =>
    let off := bits w 32 12
    if span < off then
      let r := hitSteps span ws prev
      (r.1 + 1, r.2.1, r.2.2)
    else if off < prev then
      let r := hitSteps span ws prev
      (r.1, r.2.1 + 1, r.2.2)
    else
      let r := hitSteps span ws off
      (r.1, r.2.1, w :: r.2.2)

/-- Hits that find the backlog full are counted (R114). -/
def State.backlogDrop (s : State) (n k : Nat) : State :=
  if k = 0 then s else (s.inc F.CTX_LANE_DROP.DROPS n k).raise F.CTX_STATUS.EVT_BACKLOG

/-- Room in the lane's backlog. -/
def State.backlogRoom (s : State) (n : Nat) : Nat := 4096 - (s.lane n).backlog.length

/-- The hits of a delivered or late frame: counts of steps 1 and 2, the words that wait for lookup, and whether any was
dropped. -/
def State.hitProcess (s : State) (n : Nat) (f : RxFrame) : List Nat × Bool × State :=
  let (oe, oo, ws) := hitSteps f.span f.payload 0
  let s := (s.inc F.LANE_HITS_DROP.OFFSET_ERR n oe).inc F.LANE_HITS_DROP.ORDER_ERR n oo
  let keep := ws.take (s.backlogRoom n)
  (keep, keep.length < ws.length, s.backlogDrop n (ws.length - keep.length))

/-! ## Delivery (R92) -/

/-- A DATA frame that passes in SYNC. -/
def State.deliverFrame (s : State) (n : Nat) (f : RxFrame) : State :=
  let e := (s.lane n).e
  let gap := e < f.base
  let s := if gap then (s.inc F.LANE_CNT3.BEAT_GAP n).raise F.LANE_STATUS.EVT_GAP n else s
  let late := f.last + s.rd F.LANE_CFG.MAX_AGE n < s.beatNow
  let s := if late then s.inc F.LANE_CNT3.LATE n else s
  let s := s.inc F.LANE_CNT0.FRAMES_OK n
  let (ws, dropped, s) := s.hitProcess n f
  let pre := (if gap then [gapRec 1 e (f.base - 1)] else []) ++
    (if f.h0.testBit 60 || dropped then [gapRec 2 f.base f.last] else [])
  let x := s.lane n
  let waits := ws.zipIdx.map (fun (p : Nat × Nat) =>
    WaitHit.mk x.nextFrame p.2 (bits p.1 44 20) (f.base + bits p.1 32 12) (bits p.1 16 16) (bits p.1 0 16))
  let s := s.setLane n { x with e := f.last + 1, backlog := x.backlog ++ waits, goodSeq := f.seq }
  s.stage n f.base f.last late pre (ws.map (fun _ => HitSlot.waiting))

/-- A good DATA frame outside SYNC (R89, R92). -/
def State.countFrame (s : State) (n : Nat) (f : RxFrame) : State :=
  let s := s.inc F.LANE_CNT2.NOT_SYNC n
  let x := s.lane n
  let need := s.rd F.LANE_CFG.SYNC_FRAMES n
  let next := s.laneState n = lnFRAME && f.seq = (x.goodSeq + 1) % 65536
  let good := if next then x.good + 1 else 1
  let s := (s.setLane n { x with good := good, goodSeq := f.seq }).laneGo n lnFRAME
  if need ≤ good then s.enterSync n (f.last + 1) else s

/-- An SCREPLY frame that passes (R102). -/
def State.scReply (s : State) (n : Nat) (f : RxFrame) : State :=
  let s := s.setLane n { s.lane n with goodSeq := f.seq }
  if s.is F.LANE_SC_STATUS.RXFULL n then s.inc F.LANE_SC_CNT.SC_OVERRUN n
  else
    let s := f.payload.zipIdx.foldl (fun s (p : Nat × Nat) => s.wr F.LANE_SC_RXBUF.WORD (128 * n + p.2) p.1) s
    let s := (s.wr F.LANE_SC_STATUS.RX_LEN n f.words).wr F.LANE_SC_STATUS.RX_TAG n (f.h1 % 65536)
    ((s.wr F.LANE_SC_STATUS.RXFULL n 1).inc F.LANE_SC_CNT.SC_RECV n).raise F.LANE_STATUS.EVT_SC_RX n

/-- A whole frame reaches its end (R91, R92). -/
def State.rxFrame (s : State) (n : Nat) (f : RxFrame) : State :=
  if !s.laneUp n || s.laneState n < lnBLOCK then s else
  let s := (s.inc F.LANE_CNT4.HDR_ERR n f.hdrErr).inc F.LANE_CNT4.CTRL_ERR n f.ctrlErr
  let s := if f.type = 1 && s.frameWhole n f then s.inc F.LANE_HITS_IN.HITS_IN n f.payload.length else s
  let d := s.seqStep n f
  let held := (s.lane n).seqHeld
  match s.frameCheck n f with
  | some k =>
    let s := if f.type = 1 then s.backlogDrop n ((hitSteps f.span f.payload 0).2.2.length - s.backlogRoom n) else s
    let s := if 5 ≤ k && !held then s.seqNext n f else s
    s.frameDropped n k
  | none =>
    let s := (s.inc F.LANE_CNT2.SEQ_LOST n d).seqNext n f
    let s := s.setLane n { s.lane n with dropped := 0, droppedId := 0 }
    if f.type = 2 then s.scReply n f
    else if s.laneState n = lnSYNC then s.deliverFrame n f
    else s.countFrame n f

/-! ## Transmit (R97 to R102) -/

/-- Does the transmitter of lane `n` send (R97)? -/
def State.txOn (s : State) (n : Nat) : Bool :=
  s.laneUp n && s.is F.LANE_CFG.TX_EN n && s.is F.HLN_GRP_STATUS.PLL_LOCK (n / 24)

/-- What waits for a slot: 0 ACCEPT, 1 CMD, 2 slow control. -/
def State.txWants (s : State) (n k : Nat) : Bool :=
  let x := s.lane n
  match k with
  | 0 => !x.accepts.isEmpty && s.beatUnit != buSTOPPED
  | 1 => !x.cmds.isEmpty && s.beatUnit != buSTOPPED
  | _ => !x.sc.isEmpty

/-- One slot: the arbiter's winner sends its oldest block. -/
def State.txSlot (s : State) (n : Nat) : Option Nat × State :=
  let x := s.lane n
  match rotGrant 3 x.txPtr (s.txWants n) with
  | some 0 => (some 0, (s.setLane n { x with accepts := x.accepts.drop 1, sent := x.sent ++ x.accepts.take 1, txPtr := 1 }).inc
      F.LANE_TX_CNT.ACCEPTS_SENT n)
  | some 1 => (some 1, (s.setLane n { x with cmds := x.cmds.drop 1, sent := x.sent ++ x.cmds.take 1, txPtr := 2 }).inc
      F.LANE_TX_CNT.CMD_SENT n)
  | some _ =>
    let s := s.setLane n { x with sc := x.sc.drop 1, sent := x.sent ++ x.sc.take 1, txPtr := 0 }
    (some 2, s)
  | none => (none, s)

/-- Slots pass until one of kind `k` has been granted. -/
def State.txUntil (s : State) (n k : Nat) : Nat → State
  | 0 => s
  | fuel + 1 => match s.txSlot n with
    | (none, s) => s
    | (some j, s) => if j = k then s else s.txUntil n k fuel

/-- Slots pass until the slow-control request has been sent. -/
def State.txDrain (s : State) (n : Nat) : Nat → State
  | 0 => s
  | fuel + 1 => if (s.lane n).sc.isEmpty then s else match s.txSlot n with
    | (none, s) => s
    | (some _, s) => s.txDrain n fuel

/-- ACCEPT_BLOCK_QUEUE: an accept release queues an ACCEPT block on every lane with ACC_EN (R99). -/
def State.queueAccept (s : State) (ttype : Nat) (late : Bool) (b : Nat) : State :=
  (List.range 192).foldl (fun s n =>
    if s.laneUp n && s.is F.LANE_CFG.TX_EN n && s.is F.LANE_CFG.ACC_EN n then
      let x := s.lane n
      if x.accepts.length < 64 then s.setLane n { x with accepts := x.accepts ++ [TxBlock.accept ttype late (b % 2 ^ 40)] }
      else s.inc F.LANE_TX_CNT.ACC_DROP n
    else s) s

/-- A CMD block is queued on every lane with CMD_EN (R100). -/
def State.queueCmd (s : State) (kind code b : Nat) : State :=
  (List.range 192).foldl (fun s n =>
    if s.laneUp n && s.is F.LANE_CFG.TX_EN n && s.is F.LANE_CFG.CMD_EN n then
      let x := s.lane n
      if x.cmds.length < 16 then s.setLane n { x with cmds := x.cmds ++ [TxBlock.cmd kind code (b % 2 ^ 32)] }
      else s.inc F.LANE_TX_CNT.ACC_DROP n
    else s) s

/-- TX_EN takes a value (R97): 0 discards what waits and abandons a slow-control request. -/
def State.txEn (s : State) (n : Nat) (on : Bool) : State :=
  let s := s.wr F.LANE_CFG.TX_EN n (b2n on)
  if on then s else
  let x := s.lane n
  let s := s.inc F.LANE_TX_CNT.ACC_DROP n (x.accepts.length + x.cmds.length)
  (s.setLane n { x with accepts := [], cmds := [], sc := [] }).wr F.LANE_SC_STATUS.TX_BUSY n 0

/-- Every counter of lane `n` clears (R105). -/
def State.laneClear (s : State) (n : Nat) : State :=
  { s with regs := s.regs.filter (fun e =>
      !(e.1.idx == n && [Reg.LANE_CNT0, .LANE_CNT1, .LANE_CNT2, .LANE_CNT3, .LANE_CNT4, .LANE_HITS_IN, .LANE_HITS_OUT,
        .LANE_HITS_SUPP, .LANE_HITS_DROP, .LANE_SC_CNT, .LANE_TX_CNT].contains e.1.reg)) }

/-- A lane in HUNT or later returns to HUNT. -/
def State.laneResync (s : State) (n : Nat) : State := if lnHUNT ≤ s.laneState n then s.laneGo n lnHUNT else s

/-- A write of LANE_SC_CTL (R101). -/
def State.scCtl (s : State) (n v : Nat) : State :=
  let s := (s.wr F.LANE_SC_CTL.LEN n (bits v 0 8)).wr F.LANE_SC_CTL.TAG n (bits v 16 16)
  let len := bits v 0 8
  if !v.testBit 32 || s.is F.LANE_SC_STATUS.TX_BUSY n || len = 0 || 128 < len then s
  else
    let ws := (List.range len).map (fun k => s.rd F.LANE_SC_TXBUF.WORD (128 * n + k))
    let crc := crc32 (ws.flatMap (natLE 8))
    let blocks := [TxBlock.scStart len (bits v 16 16)] ++ ws.map TxBlock.scData ++ [TxBlock.scEnd crc]
    (s.setLane n { s.lane n with sc := blocks }).wr F.LANE_SC_STATUS.TX_BUSY n 1

/-- A write of LANE_CFG. -/
def State.laneCfg (s : State) (n v : Nat) : State :=
  let s := [F.LANE_CFG.RX_INV, F.LANE_CFG.TX_INV, F.LANE_CFG.SYNC_FRAMES, F.LANE_CFG.EXPECT_ID, F.LANE_CFG.MAXWORDS,
    F.LANE_CFG.MAX_AGE, F.LANE_CFG.ACC_EN, F.LANE_CFG.CMD_EN, F.LANE_CFG.TICKDIV, F.LANE_CFG.TICK_EN].foldl
    (fun s (f : Field) => s.wr f n (s.legal f n (bits v f.lo f.w))) s
  (s.rxEn n (v.testBit 0)).txEn n (v.testBit 1)

/-- A write of HLN_GRP_CFG (R78). -/
def State.grpRate (s : State) (g v : Nat) : State :=
  let rate := s.legal F.HLN_GRP_CFG.RATE g (bits v 0 3)
  if rate = s.rd F.HLN_GRP_CFG.RATE g then s
  else if (List.range 24).any (fun k => s.is F.LANE_CFG.RX_EN (24 * g + k) || s.is F.LANE_CFG.TX_EN (24 * g + k)) then
    s.wr F.HLN_GRP_STATUS.RATE_REFUSED g 1
  else (s.wr F.HLN_GRP_CFG.RATE g rate).wr F.HLN_GRP_STATUS.PLL_LOCK g 0

end Sys2Proof.Machine
end

