-- ==== Sys2Proof/Machine/Lanes.lean ====
section
/-!
DEFINITION. The commands of the Hatchline lanes (R77 to R105, R179).
-/

namespace Sys2Proof.Machine

/-- `f` applied to a lane that is up. -/
def State.onLane (s : State) (n : Nat) (f : State → State) : State := if s.laneUp n then f s else s

def execHlnGrpRateWrite (src : Src) (g value : Nat) (s : State) : Host.Outcome State Fault Refusal :=
  .next (if g < 8 then s.withReg src .HLN_GRP_CFG g (·.grpRate g value) else s)

/-- GROUP_PLL_LOCK: lanes that wait in CDR with their signal go on. -/
def State.groupLock (s : State) (g : Nat) : State :=
  let s := (s.wr F.HLN_GRP_STATUS.PLL_LOCK g 1).wr F.HLN_GRP_STATUS.CUR_RATE g (s.rd F.HLN_GRP_CFG.RATE g)
  (List.range 24).foldl (fun s k => s.laneRecover (24 * g + k)) s

def execGroupPllLock (g : Nat) (s : State) : Host.Outcome State Fault Refusal :=
  .next (if g < 8 then s.onLane (24 * g) (·.groupLock g) else s)

def execLaneRxEn (src : Src) (n : Nat) (on : Bool) (s : State) : Host.Outcome State Fault Refusal :=
  .next (if n < 192 then s.withReg src .LANE_CFG n (·.rxEn n on) else s)

def execLaneTxEn (src : Src) (n : Nat) (on : Bool) (s : State) : Host.Outcome State Fault Refusal :=
  .next (if n < 192 then s.withReg src .LANE_CFG n (·.txEn n on) else s)

/-- LANE_CDR_LOCK: the signal is there and the clock recovered. -/
def State.cdrLock (s : State) (n : Nat) : State :=
  if s.laneState n ≠ lnCDR then s else
  let s := (s.setLane n { s.lane n with signal := true }).wr F.LANE_STATUS.SIGNAL n 1
  s.laneRecover n

def execLaneCdrLock (n : Nat) (s : State) : Host.Outcome State Fault Refusal := .next (s.onLane n (·.cdrLock n))

/-- LANE_BLOCK_LOCK, with the invalid headers met while hunting. -/
def execLaneBlockLock (n hdrErr : Nat) (s : State) : Host.Outcome State Fault Refusal :=
  .next (s.onLane n (fun s =>
    if s.laneState n = lnHUNT then (s.inc F.LANE_CNT4.HDR_ERR n hdrErr).laneGo n lnBLOCK else s))

/-- LANE_BLOCK_LOCK_LOSS, with the invalid headers that caused it. -/
def execLaneBlockLockLoss (n hdrErr : Nat) (s : State) : Host.Outcome State Fault Refusal :=
  .next (s.onLane n (fun s =>
    if lnHUNT ≤ s.laneState n then ((s.inc F.LANE_CNT4.HDR_ERR n hdrErr).inc F.LANE_CNT3.LOCK_LOSS n).laneGo n lnHUNT else s))

def execLaneSignalLoss (n : Nat) (s : State) : Host.Outcome State Fault Refusal :=
  .next (s.onLane n (fun s =>
    let s := (s.setLane n { s.lane n with signal := false }).wr F.LANE_STATUS.SIGNAL n 0
    if s.laneState n = lnOFF then s else s.laneGo n lnCDR))

def execLaneResync (src : Src) (n : Nat) (s : State) : Host.Outcome State Fault Refusal :=
  .next (if n < 192 then s.withReg src .LANE_CTL n (·.laneResync n) else s)

def execLaneCntClr (src : Src) (n : Nat) (s : State) : Host.Outcome State Fault Refusal :=
  .next (if n < 192 then s.withReg src .LANE_CTL n (·.laneClear n) else s)

/-- STRAY_CONTROL_BLOCK: outside a frame it is counted where block lock is held (R83). -/
def execStrayControlBlock (n : Nat) (s : State) : Host.Outcome State Fault Refusal :=
  .next (s.onLane n (fun s => if lnBLOCK ≤ s.laneState n then s.inc F.LANE_CNT4.CTRL_ERR n else s))

def execDataFrame (n h0 h1 : Nat) (payload : List Nat) (crc hdrErr ctrlErr : Nat) (broken : Bool) (s : State) :
    Host.Outcome State Fault Refusal :=
  .next (s.rxFrame n (RxFrame.mk h0 h1 payload crc hdrErr ctrlErr broken))

def execScreplyFrame (n h0 h1 : Nat) (payload : List Nat) (crc hdrErr ctrlErr : Nat) (broken : Bool) (s : State) :
    Host.Outcome State Fault Refusal :=
  .next (s.rxFrame n { h0 := h0, h1 := h1, payload := payload, crc := crc, hdrErr := hdrErr, ctrlErr := ctrlErr,
                       broken := broken })

/-- TICK: the lane sends the TICK of the present beat, and a TIMEHI where due; a TICK whose slot is taken is skipped
(R97, R98). -/
def State.tick (s : State) (n edge : Nat) (taken : Bool) : State :=
  let div := 2 ^ s.rd F.LANE_CFG.TICKDIV n
  let c := s.beatNow
  if !s.txOn n || !s.is F.LANE_CFG.TICK_EN n || !s.beatRuns || c % div ≠ 0 then s
  else if taken then s.inc F.LANE_SC_CNT.TICK_SKIP n
  else
    let x := s.lane n
    let hi := if c % 65536 < div then [TxBlock.timehi (bits c 48 16)] else []
    s.setLane n { x with sent := x.sent ++ [TxBlock.tick (c % 2 ^ 48) (edge % 128)] ++ hi }

def execTick (n edge : Nat) (taken : Bool) (s : State) : Host.Outcome State Fault Refusal := .next (s.tick n edge taken)

def execAcceptBlockSend (n : Nat) (s : State) : Host.Outcome State Fault Refusal :=
  .next (if s.txOn n && s.txWants n 0 then s.txUntil n 0 3 else s)

def execCmdBlockSend (n : Nat) (s : State) : Host.Outcome State Fault Refusal :=
  .next (if s.txOn n && s.txWants n 1 then s.txUntil n 1 3 else s)

def execScGo (src : Src) (n value : Nat) (s : State) : Host.Outcome State Fault Refusal :=
  .next (if n < 192 then s.withReg src .LANE_SC_CTL n (·.scCtl n (setBit value 32)) else s)

/-- SC_SEND_DONE: the request's last block, SCEND, has been sent; blocks that win slots between go out in turn. -/
def State.scSent (s : State) (n : Nat) : State :=
  let x := s.lane n
  if !s.txOn n || x.sc.isEmpty then s else
  let s := s.txDrain n (3 * x.sc.length + x.accepts.length + x.cmds.length)
  ((s.wr F.LANE_SC_STATUS.TX_BUSY n 0).inc F.LANE_SC_CNT.SC_SENT n).raise F.LANE_STATUS.EVT_SC_DONE n

def execScSendDone (n : Nat) (s : State) : Host.Outcome State Fault Refusal := .next (s.scSent n)

def execScRxfullClear (src : Src) (n : Nat) (s : State) : Host.Outcome State Fault Refusal :=
  .next (if n < 192 then s.withReg src .LANE_SC_STATUS n (·.wr F.LANE_SC_STATUS.RXFULL n 0) else s)

def execHistoryWriteDone (n : Nat) (s : State) : Host.Outcome State Fault Refusal :=
  .next (if s.laneUp n && s.evbLive then s.histWrite n else s)

end Sys2Proof.Machine
end

