-- ==== Sys2Proof/Machine/Tio.lean ====
section
/-!
DEFINITION. Trigger outputs, throttle and external inputs: what each beat edge does to them, and their commands (R160 to
R175).
-/

namespace Sys2Proof.Machine

/-! ## Beat records (R164, R170, R171) -/

/-- One bit for each of `n` inputs from `lo` on whose field is set. -/
def State.inputMask (s : State) (f : Field) (lo n : Nat) : Nat :=
  (List.range n).foldl (fun v k => if s.is f (lo + k) then setBit v (lo + k) else v) 0

def BeatRec.none : BeatRec :=
  { rise := 0, level := 0, masked := 0, enabled := 0, chatter := 0, expired := false, backpressure := false, forced := false,
    thrBusyIn := false }

/-- The record of a beat at its first edge. -/
def State.beatRec (s : State) : BeatRec :=
  { rise := 0
    level := s.inputMask F.TIO_IN_STATUS.LEVEL 0 24
    masked := s.inputMask F.TIO_IN_STATUS.MASKED 16 8
    enabled := s.tio.en
    chatter := s.inputMask F.TIO_IN_STATUS.CHATTER 0 16
    expired := s.beatUnit == buEXPIRED
    backpressure := s.is F.EVB_STATUS.BP
    forced := false
    thrBusyIn := false }

/-- The record of the present beat changes. -/
def State.nowRec (s : State) (f : BeatRec → BeatRec) : State :=
  match Tbl.find s.tio.recs s.beatNow with
  | some r => { s with tio := { s.tio with recs := Tbl.put s.tio.recs s.beatNow (f r) } }
  | none => s

/-- throttle(b) (R171). -/
def BeatRec.throttle (r : BeatRec) : Bool :=
  (r.thrBusyIn && r.enabled &&& (r.level ||| r.chatter) &&& 0xFFFF != 0) || r.expired || r.backpressure || r.forced

/-- The external bits of a beat (R170). -/
def State.extBits (s : State) (r : BeatRec) : Nat :=
  (List.range 8).foldl (fun v k =>
    let src := if s.is F.TIO_IN_CFG.MODE (16 + k) then r.level else r.rise
    if r.enabled.testBit (16 + k) && !r.masked.testBit (16 + k) && src.testBit (16 + k) then setBit v k else v) 0

/-! ## A beat edge (R161, R172) -/

/-- Is any enabled BUSY_IN honoured as asserted? -/
def State.busyIn (s : State) : Bool :=
  (List.range 16).any (fun k => s.tio.en.testBit k && (s.is F.TIO_IN_STATUS.LEVEL k || s.is F.TIO_IN_STATUS.CHATTER k))

/-- The pin BUSY_OUT_N follows TIO_STATUS.BUSY while driven. -/
def State.busyPin (s : State) : State :=
  { s with tio := { s.tio with busyOut := if s.is F.TIO_OUT_CTL.BUSY_DRV then some (s.is F.TIO_STATUS.BUSY) else none } }

/-- BUSY as computed at a beat edge; it turns ready with BUSY_HOLD_EXPIRE. -/
def State.busyEdge (s : State) : State :=
  let run := !s.is F.BEAT_RQ_CFG.RUN
  let bad := s.beatUnit != buTRACKING && s.beatUnit != buHOLDOVER
  let bp := s.is F.EVB_STATUS.BP
  let inp := s.is F.TIO_OUT_CTL.FWD_BUSY_IN && s.busyIn
  let force := s.is F.TIO_OUT_CTL.FORCE_BUSY
  let cause := run || bad || bp || inp || force
  let hold := s.tio.hold
  let busy := cause || hold != 0
  let s := { s with tio := { s.tio with hold := if cause then s.rd F.TIO_OUT_CTL.BUSY_HOLD else hold - 1 } }
  let s := ((s.wr F.TIO_STATUS.C_RUN 0 (b2n run)).wr F.TIO_STATUS.C_BEAT 0 (b2n bad)).wr F.TIO_STATUS.C_EVB 0 (b2n bp)
  let s := ((s.wr F.TIO_STATUS.C_BUSY_IN 0 (b2n inp)).wr F.TIO_STATUS.C_FORCE 0 (b2n force)).wr F.TIO_STATUS.C_HOLD 0
    (b2n (!cause && hold != 0))
  let s := if busy then s.wr F.TIO_STATUS.BUSY 0 1 else s
  let s := if busy && s.is F.TIO_OUT_CTL.BUSY_DRV then s.inc F.TIO_BUSY_BEATS.BEATS else s
  s.busyPin

/-- The lines of an accept release go high while TRIG_OUT is driven (R161). -/
def State.trigPulse (s : State) (trig : Nat) : State :=
  match s.tio.trigOut with
  | none => { s with tio := { s.tio with raised := 0 } }
  | some was =>
    let up := trig &&& s.rd F.TIO_OUT_CTL.TRIG_MASK
    let s := { s with tio := { s.tio with raised := up, trigOut := some (was ||| up) } }
    (List.range 8).foldl (fun s l => if up.testBit l then s.inc F.TIO_TRIG_CNT.PULSES l else s) s

/-- The beat `old` ends with its record and the present beat gets one. -/
def State.recEdge (s : State) (old : Nat) : State :=
  let force := s.is F.TIO_OUT_CTL.FORCE_THROTTLE
  let thr := s.is F.TIO_OUT_CTL.THR_BUSY_IN
  let recs := match Tbl.find s.tio.recs old with
    | some r => Tbl.put s.tio.recs old { r with forced := force, thrBusyIn := thr }
    | none => s.tio.recs
  { s with tio := { s.tio with recs := Tbl.put recs s.beatNow s.beatRec } }

/-! ## Outputs (R162, R172) -/

def State.trigDrv (s : State) (on : Bool) : State :=
  let s := s.wr F.TIO_OUT_CTL.TRIG_DRV 0 (b2n on)
  if !on then { s with tio := { s.tio with trigOut := none, raised := 0, drvWait := none } }
  else if s.tio.trigOut.isSome || s.tio.drvWait.isSome then s
  else { s with tio := { s.tio with drvWait := some s.beat.edges } }

def execTrigDrvWrite (src : Src) (on : Bool) (s : State) : Host.Outcome State Fault Refusal :=
  .next (s.withReg src .TIO_OUT_CTL 0 (·.trigDrv on))

/-- TRIG_DRV_APPLY: at the first beat edge after the write the lines are driven low. -/
def State.trigDrvApply (s : State) : State :=
  match s.tio.drvWait with
  | some n => if n < s.beat.edges then { s with tio := { s.tio with drvWait := none, trigOut := some 0, raised := 0 } } else s
  | none => s

def execTrigDrvApply (s : State) : Host.Outcome State Fault Refusal := .next (if s.beatRuns then s.trigDrvApply else s)

/-- TRIG_PULSE_END: lines that the present edge does not hold fall. -/
def execTrigPulseEnd (s : State) : Host.Outcome State Fault Refusal :=
  .next (if s.beatRuns && s.tio.trigOut.isSome then { s with tio := { s.tio with trigOut := some s.tio.raised } } else s)

def State.busyDrv (s : State) (on : Bool) : State := (s.wr F.TIO_OUT_CTL.BUSY_DRV 0 (b2n on)).busyPin

def execBusyDrvWrite (src : Src) (on : Bool) (s : State) : Host.Outcome State Fault Refusal :=
  .next (s.withReg src .TIO_OUT_CTL 0 (·.busyDrv on))

/-- BUSY_HOLD_EXPIRE: the last beat edge found no cause and no hold left. -/
def State.busyReady (s : State) : State :=
  if [F.TIO_STATUS.C_RUN, F.TIO_STATUS.C_BEAT, F.TIO_STATUS.C_EVB, F.TIO_STATUS.C_BUSY_IN, F.TIO_STATUS.C_FORCE,
    F.TIO_STATUS.C_HOLD].any (fun f => s.is f) then s
  else (s.wr F.TIO_STATUS.BUSY 0 0).busyPin

def execBusyHoldExpire (s : State) : Host.Outcome State Fault Refusal := .next (if s.beatRuns then s.busyReady else s)

/-- A write of TIO_OUT_CTL. -/
def State.outCtl (s : State) (v : Nat) : State :=
  let s := [F.TIO_OUT_CTL.FWD_BUSY_IN, F.TIO_OUT_CTL.THR_BUSY_IN, F.TIO_OUT_CTL.FORCE_BUSY, F.TIO_OUT_CTL.FORCE_THROTTLE,
    F.TIO_OUT_CTL.TRIG_MASK, F.TIO_OUT_CTL.BUSY_HOLD].foldl (fun s (f : Field) => s.wr f 0 (bits v f.lo f.w)) s
  (s.trigDrv (v.testBit 0)).busyDrv (v.testBit 1)

/-! ## Inputs (R163 to R169) -/

/-- HONOURED follows the input. -/
def State.honour (s : State) (k : Nat) : State :=
  s.wr F.TIO_IN_STATUS.HONOURED k (b2n (k < 16 && s.tio.en.testBit k &&
    (s.is F.TIO_IN_STATUS.LEVEL k || s.is F.TIO_IN_STATUS.CHATTER k)))

/-- A masked input stays masked for the present beat. -/
def State.maskInput (s : State) (k : Nat) : State :=
  if k < 16 then s else
  (s.wr F.TIO_IN_STATUS.MASKED k 1).nowRec (fun (r : BeatRec) => { r with masked := setBit r.masked k })

/-- EN takes effect (R165): 1 starts stuck and chatter detection; 0 stops them and clears their flags. -/
def State.enApply (s : State) (k : Nat) : State :=
  let on := s.is F.TIO_IN_CFG.EN k
  let s := { s with tio := { s.tio with
    en := if on then setBit s.tio.en k else clrBit s.tio.en k
    enWait := Tbl.erase s.tio.enWait k
    trans := Tbl.erase s.tio.trans k } }
  let s := if on then s else
    ((s.wr F.TIO_IN_STATUS.STUCK k 0).wr F.TIO_IN_STATUS.CHATTER k 0).wr F.TIO_IN_STATUS.MASKED k 0
  (s.honour k).nowRec (fun (r : BeatRec) => { r with enabled := if on then setBit r.enabled k else clrBit r.enabled k })

/-- A write of EN. -/
def State.inEn (s : State) (k : Nat) (on : Bool) : State :=
  let s := s.wr F.TIO_IN_CFG.EN k (b2n on)
  if s.tio.en.testBit k == on then { s with tio := { s.tio with enWait := Tbl.erase s.tio.enWait k } }
  else if s.beatUnit = buSTOPPED then s.enApply k
  else { s with tio := { s.tio with enWait := Tbl.put s.tio.enWait k s.beat.edges } }

def execTioInEnWrite (src : Src) (k : Nat) (on : Bool) (s : State) : Host.Outcome State Fault Refusal :=
  .next (if k < 24 then s.withReg src .TIO_IN_CFG k (·.inEn k on) else s)

/-- TIO_IN_EN_APPLY: at the first beat edge after the write. -/
def State.inEnApply (s : State) (k : Nat) : State :=
  match Tbl.find s.tio.enWait k with
  | some n => if n < s.beat.edges then s.enApply k else s
  | none => s

def execTioInEnApply (k : Nat) (s : State) : Host.Outcome State Fault Refusal :=
  .next (if k < 24 && s.beatRuns then s.inEnApply k else s)

/-- A write of TIO_IN_CFG. -/
def State.inCfg (s : State) (k v : Nat) : State :=
  let s := (s.wr F.TIO_IN_CFG.INV k (bits v 1 1)).wr F.TIO_IN_CFG.MODE k (if k < 16 then 0 else bits v 2 1)
  let s := (s.wr F.TIO_IN_CFG.STUCK_LIM k (s.legal F.TIO_IN_CFG.STUCK_LIM k (bits v 8 22))).wr F.TIO_IN_CFG.CHAT_LIM k (bits v 32 16)
  s.inEn k (v.testBit 0)

/-- STUCK or CHATTER becomes clear. -/
def State.flagClear (s : State) (f : Field) (k : Nat) : State :=
  if s.is f k then (s.wr f k 0).raise F.TIO_IN_STATUS.EVT_CLEAR k else s

/-- TIO_INPUT_EDGE: the filtered level of input `k` changes, stamped within `beat` (R163, R164). -/
def State.inputEdge (s : State) (k : Nat) (level : Bool) (beat : Nat) : State :=
  if s.is F.TIO_IN_STATUS.LEVEL k == level then s else
  let s := s.wr F.TIO_IN_STATUS.LEVEL k (b2n level)
  let recs := Tbl.mapVals s.tio.recs (fun b (r : BeatRec) =>
    if level then
      if b < beat then r else { r with level := setBit r.level k, rise := if b = beat then setBit r.rise k else r.rise }
    else if b ≤ beat || r.rise.testBit k then r else { r with level := clrBit r.level k })
  let s := { s with tio := { s.tio with recs := recs } }
  let s := if s.tio.en.testBit k then
      let s := s.inc F.TIO_IN_CNT.EDGES k
      { s with tio := { s.tio with trans := Tbl.set s.tio.trans k (Tbl.get s.tio.trans k 0 + 1) 0 } }
    else s
  (if level then s else s.flagClear F.TIO_IN_STATUS.STUCK k).honour k

def execTioInputEdge (k : Nat) (level : Bool) (beat : Nat) (s : State) : Host.Outcome State Fault Refusal :=
  .next (if k < 24 && s.beatLive && !s.held then s.inputEdge k level beat else s)

/-- STUCK_DETECT (R166, R168). -/
def State.stuck (s : State) (k : Nat) : State :=
  if !s.tio.en.testBit k || !s.is F.TIO_IN_STATUS.LEVEL k || s.is F.TIO_IN_STATUS.STUCK k then s else
  let s := ((s.wr F.TIO_IN_STATUS.STUCK k 1).raise F.TIO_IN_STATUS.EVT_STUCK k).inc F.TIO_IN_CNT.STUCKS k
  s.maskInput k

def execStuckDetect (k : Nat) (s : State) : Host.Outcome State Fault Refusal :=
  .next (if k < 24 && s.beatLive && !s.held then s.stuck k else s)

/-- CHATTER_WINDOW: a window ends with the transitions counted (R167, R168). -/
def State.chatterWindow (s : State) (k : Nat) : State :=
  if !s.tio.en.testBit k then s else
  let n := Tbl.get s.tio.trans k 0
  let lim := s.rd F.TIO_IN_CFG.CHAT_LIM k
  let s := { s with tio := { s.tio with trans := Tbl.erase s.tio.trans k } }
  if n ≤ lim then (s.flagClear F.TIO_IN_STATUS.CHATTER k).honour k
  else if lim = 0 || s.is F.TIO_IN_STATUS.CHATTER k then s
  else
    let s := ((s.wr F.TIO_IN_STATUS.CHATTER k 1).raise F.TIO_IN_STATUS.EVT_CHATTER k).inc F.TIO_IN_CNT.CHATTERS k
    let s := if k < 16 then s.nowRec (fun (r : BeatRec) => { r with chatter := setBit r.chatter k }) else s
    (s.maskInput k).honour k

def execChatterWindow (k : Nat) (s : State) : Host.Outcome State Fault Refusal :=
  .next (if k < 24 && s.beatLive && !s.held then s.chatterWindow k else s)

/-- REARM (R168, R169). -/
def State.rearm (s : State) (k : Nat) : State :=
  if k < 16 || s.is F.TIO_IN_STATUS.STUCK k || s.is F.TIO_IN_STATUS.CHATTER k || s.is F.TIO_IN_STATUS.LEVEL k then s
  else s.wr F.TIO_IN_STATUS.MASKED k 0

def execRearm (src : Src) (k : Nat) (s : State) : Host.Outcome State Fault Refusal :=
  .next (if k < 24 then s.withReg src .TIO_IN_CTL k (·.rearm k) else s)

end Sys2Proof.Machine
end

