-- ==== Sys2Proof/Machine/Beat.lean ====
section
/-!
DEFINITION. The beat unit and the release queue: input states, frames, the beat edge with its release, loads, and their
commands (R48 to R76).
-/

namespace Sys2Proof.Machine

/-! ## Inputs (R53, R54); input 0 is A, 1 is B -/

abbrev biDOWN : Nat := 0
abbrev biSYM : Nat := 1
abbrev biFRAMED : Nat := 2
abbrev biLOCKED : Nat := 3

/-- The field of input A or of input B. -/
def pick (i : Nat) (a b : Field) : Field := if i = 0 then a else b
def fState (i : Nat) : Field := pick i F.BEAT_STATUS.STATE_A F.BEAT_STATUS.STATE_B
def fMismatch (i : Nat) : Field := pick i F.BEAT_STATUS.MISMATCH_A F.BEAT_STATUS.MISMATCH_B

def State.beatIn (s : State) (i : Nat) : BeatInput := if i = 0 then s.beat.a else s.beat.b
def State.setIn (s : State) (i : Nat) (x : BeatInput) : State :=
  { s with beat := if i = 0 then { s.beat with a := x } else { s.beat with b := x } }
def State.inState (s : State) (i : Nat) : Nat := s.rd (fState i)
def State.eligible (s : State) (i : Nat) : Bool := s.inState i == biLOCKED && !s.is (fMismatch i)
def State.active (s : State) : Nat := s.rd F.BEAT_STATUS.ACTIVE

/-- An input becomes the active one. -/
def State.activate (s : State) (i : Nat) : State :=
  if s.active = i then s else (s.wr F.BEAT_STATUS.ACTIVE 0 i).raise F.BEAT_STATUS.EVT_SWITCH

/-- The unit looks at its inputs (R58, R62): an active input that has left LOCKED hands over or leaves the unit in
HOLDOVER, and in HOLDOVER or EXPIRED an eligible input in phase takes over, the primary first. -/
def State.unitCheck (s : State) : State :=
  let u := s.beatUnit
  let a := s.active
  if u = buTRACKING then
    if s.inState a = biLOCKED then s
    else if s.eligible (1 - a) then s.activate (1 - a)
    else (s.wr F.BEAT_STATUS.UNIT 0 buHOLDOVER).raise F.BEAT_STATUS.EVT_HOLD
  else if u = buHOLDOVER || u = buEXPIRED then
    let p := s.rd F.BEAT_CFG.PRIMARY
    let fit (i : Nat) : Bool := s.eligible i && (s.beatIn i).phaseOk
    if fit p then (s.activate p).wr F.BEAT_STATUS.UNIT 0 buTRACKING
    else if fit (1 - p) then (s.activate (1 - p)).wr F.BEAT_STATUS.UNIT 0 buTRACKING
    else s
  else s

/-- An input takes a state; the unit starts from STOPPED when one reaches LOCKED, and its count will adopt that input's
next tag (R58). -/
def State.inGo (s : State) (i st : Nat) : State :=
  if s.inState i = st then s else
  let s := (s.wr (fState i) 0 st).raise (pick i F.BEAT_STATUS.EVT_A F.BEAT_STATUS.EVT_B)
  let s := if st ≤ biSYM then s.setIn i { s.beatIn i with good := 0, bad := 0 } else s
  if s.beatUnit = buSTOPPED && st = biLOCKED then
    let s := (s.activate i).wr F.BEAT_STATUS.UNIT 0 buTRACKING
    { s with beat := { s.beat with adopting := true } }
  else s.unitCheck

/-- MISMATCH of an input changes (R54). -/
def State.setMismatch (s : State) (i : Nat) (b : Bool) : State :=
  if s.is (fMismatch i) == b then s else
  let s := (s.wr (fMismatch i) 0 (b2n b)).setIn i { s.beatIn i with agree := 0 }
  (if b then s.raise F.BEAT_STATUS.EVT_MISMATCH else s).unitCheck

/-- A write of an enable bit; 0 holds the input in DOWN. -/
def State.beatEn (s : State) (i : Nat) (on : Bool) : State :=
  let s := s.wr (pick i F.BEAT_CFG.EN_A F.BEAT_CFG.EN_B) 0 (b2n on)
  if on then s else s.inGo i biDOWN

def State.enabledIn (s : State) (i : Nat) : Bool := s.is (pick i F.BEAT_CFG.EN_A F.BEAT_CFG.EN_B)

/-- `f` for an input of a beat unit that is alive. -/
def State.onInput (s : State) (i : Nat) (f : State → State) : State :=
  if i < 2 && s.beatLive && !s.held && s.enabledIn i then f s else s

def execBeatInputDisable (src : Src) (i : Nat) (s : State) : Host.Outcome State Fault Refusal :=
  .next (if i < 2 then s.withReg src .BEAT_CFG 0 (·.beatEn i false) else s)

/-- A write of BEAT_CFG. -/
def State.beatCfg (s : State) (v : Nat) : State :=
  let s := [F.BEAT_CFG.PRIMARY, F.BEAT_CFG.AUTO_REVERT, F.BEAT_CFG.RATE_A, F.BEAT_CFG.RATE_B, F.BEAT_CFG.SPB, F.BEAT_CFG.HOLD_MAX,
    F.BEAT_CFG.FMIN, F.BEAT_CFG.FMAX].foldl (fun s (f : Field) => s.wr f 0 (s.legal f 0 (bits v f.lo f.w))) s
  (s.beatEn 0 (v.testBit 0)).beatEn 1 (v.testBit 1)

def execInputSymbolLock (i : Nat) (s : State) : Host.Outcome State Fault Refusal :=
  .next (s.onInput i (fun s => if s.inState i = biDOWN && (s.beatIn i).windowOk then s.inGo i biSYM else s))

def State.codeErrors (s : State) (i n : Nat) : State := s.inc (pick i F.BEAT_CNT_A.CODE_ERR F.BEAT_CNT_B.CODE_ERR) 0 n

/-- CODE_ERROR_LIMIT, with the code errors of the 1,024 symbols. -/
def execCodeErrorLimit (i errors : Nat) (s : State) : Host.Outcome State Fault Refusal :=
  .next (s.onInput i (fun s =>
    let s := s.codeErrors i errors
    if 16 < errors then s.inGo i biDOWN else s))

/-- FREQ_MONITOR_WINDOW: the beats counted, the phase of B minus A, whether the input lies within a quarter beat of the
internal beat, and the code errors of the window. -/
def State.freqWindow (s : State) (i count : Nat) (abPhase : Int) (near : Bool) (errors : Nat) : State :=
  let ok := s.rd F.BEAT_CFG.FMIN ≤ count && count ≤ s.rd F.BEAT_CFG.FMAX
  let s := (s.codeErrors i errors).wr (pick i F.BEAT_MON.FREQ_A F.BEAT_MON.FREQ_B) 0 (min count 65535)
  let s := s.wr F.BEAT_MON.AB_PHASE 0 (unsignedOf 16 (min (max abPhase (-32767)) 32767))
  let s := s.setIn i { s.beatIn i with windowOk := ok, phaseOk := near }
  if ok then s.unitCheck else s.inGo i biDOWN

def execFreqMonitorWindow (i count : Nat) (abPhase : Int) (near : Bool) (errors : Nat) (s : State) :
    Host.Outcome State Fault Refusal :=
  .next (s.onInput i (·.freqWindow i count abPhase near errors))

/-- INPUT_LOCK; `near` says the phase lies within a quarter beat of the internal beat. -/
def execInputLock (i : Nat) (near : Bool) (s : State) : Host.Outcome State Fault Refusal :=
  .next (s.onInput i (fun s =>
    if s.inState i = biFRAMED then (s.setIn i { s.beatIn i with phaseOk := near }).inGo i biLOCKED else s))

def execPhaseError (i : Nat) (s : State) : Host.Outcome State Fault Refusal :=
  .next (s.onInput i (fun s => if s.inState i = biLOCKED then s.inGo i biFRAMED else s))

/-! ## Frames (R50 to R54) -/

/-- A frame with good CRC, `spaced` exactly P symbols after the one before: what it does to the input's state. -/
def State.goodFrame (s : State) (i : Nat) (spaced : Bool) : State :=
  let st := s.inState i
  if st = biDOWN then s
  else
    let s := if spaced || st = biSYM then s else s.inGo i biSYM
    let x := s.beatIn i
    let n := if spaced then x.good + 1 else 1
    let s := s.setIn i { x with good := n, bad := 0 }
    if s.inState i = biSYM && 4 ≤ n && x.windowOk then s.inGo i biFRAMED else s

/-- Is the frame one the device acts on: from the active input of a unit that tracks it (R52)? -/
def State.acts (s : State) (i : Nat) : Bool := s.beatUnit == buTRACKING && s.active == i && s.inState i != biDOWN

/-- A TIME tag is judged against the count of the edge at which its beat started, `age` edges ago (R54, R56). -/
def State.judgeTag (s : State) (i tag age : Nat) : State :=
  if s.beatUnit = buSTOPPED || s.beat.adopting || s.beat.load.isSome || s.inState i < biFRAMED then s
  else if (s.beatNow + 2 ^ 64 - age) % 2 ^ 64 ≠ tag % 2 ^ 64 then
    let s := s.inc (pick i F.BEAT_CNT_A.TAG_MISMATCH F.BEAT_CNT_B.TAG_MISMATCH)
    (s.setIn i { s.beatIn i with agree := 0 }).setMismatch i true
  else
    let x := s.beatIn i
    let s := s.setIn i { x with agree := x.agree + 1 }
    if 256 ≤ x.agree + 1 then s.setMismatch i false else s

/-- The next beat edge takes the count that makes the frame's starting beat read `tag` (R52, R64). -/
def State.streamLoad (s : State) (tag age : Nat) : State :=
  { s with beat := { s.beat with load := some ((tag + age + 1) % 2 ^ 64), adopting := false } }

/-- TIME_FRAME. -/
def State.timeFrame (s : State) (i tag age : Nat) (spaced : Bool) : State :=
  if s.inState i = biDOWN then s else
  let s := (s.goodFrame i spaced).judgeTag i tag age
  if s.acts i && s.beat.adopting then s.streamLoad tag age else s

def execTimeFrame (i tag age : Nat) (spaced : Bool) (s : State) : Host.Outcome State Fault Refusal :=
  .next (s.onInput i (·.timeFrame i tag age spaced))

/-- LOAD_FRAME. -/
def State.loadFrame (s : State) (i tag age : Nat) (spaced : Bool) : State :=
  let s := s.goodFrame i spaced
  if s.acts i then (s.streamLoad tag age).setMismatch i false else s

def execLoadFrame (i tag age : Nat) (spaced : Bool) (s : State) : Host.Outcome State Fault Refusal :=
  .next (s.onInput i (·.loadFrame i tag age spaced))

/-- SYNC_FRAME. -/
def State.syncFrame (s : State) (i code : Nat) (spaced : Bool) : State :=
  let s := s.goodFrame i spaced
  if s.acts i then { s with beat := { s.beat with syncs := s.beat.syncs ++ [(code % 65536, s.beat.edges)] } } else s

def execSyncFrame (i code : Nat) (spaced : Bool) (s : State) : Host.Outcome State Fault Refusal :=
  .next (s.onInput i (·.syncFrame i code spaced))

/-- CAL_FRAME. -/
def State.calFrame (s : State) (i tag code delay : Nat) (spaced : Bool) : State :=
  let s := s.goodFrame i spaced
  if s.acts i then { s with beat := { s.beat with
    cals := s.beat.cals ++ [(code % 65536, (tag + delay % 4096) % 2 ^ 64, s.beat.edges)] } } else s

def execCalFrame (i tag code delay : Nat) (spaced : Bool) (s : State) : Host.Outcome State Fault Refusal :=
  .next (s.onInput i (·.calFrame i tag code delay spaced))

/-- BEAT_FRAME_INVALID: a bad CRC, or a good CRC with an unknown type. -/
def State.badFrame (s : State) (i : Nat) (crcBad spaced : Bool) : State :=
  if s.inState i = biDOWN then s
  else if !crcBad then (s.goodFrame i spaced).inc (pick i F.BEAT_CNT_A.UNKNOWN_TYPE F.BEAT_CNT_B.UNKNOWN_TYPE)
  else
    let s := s.inc (pick i F.BEAT_CNT_A.CRC_ERR F.BEAT_CNT_B.CRC_ERR)
    let x := s.beatIn i
    let s := s.setIn i { x with good := 0, bad := x.bad + 1 }
    if !spaced || 8 ≤ x.bad + 1 then s.inGo i biSYM else s

def execBeatFrameInvalid (i : Nat) (crcBad spaced : Bool) (s : State) : Host.Outcome State Fault Refusal :=
  .next (s.onInput i (·.badFrame i crcBad spaced))

/-! ## The beat edge (R63 to R65, R67 to R71, R74) -/

/-- COUNT_CHANGING_LOAD (R71, R147, R200). -/
def State.countLoad (s : State) (c : Nat) : State :=
  let s := { s with
    beat := { s.beat with rq := [], read := none, relFrom := c + s.latency, decFrom := c, lastLoad := some c }
    tio := { s.tio with recs := [] } }
  (((s.inc F.BEAT_RQ_CNT.GAPS).trgRestart c).stencilLoad).when s.evbLive (fun s => s.evbLoad.evbSettle)

/-- What a release drives. -/
structure Released where
  accept : Bool
  ttype : Nat
  trig : Nat
  late : Bool
  pass : Nat
  deriving DecidableEq, Repr

def Released.no : Released := { accept := false, ttype := 0, trig := 0, late := false, pass := 0 }

/-- What the queue releases at the edge of the present count (R60, R67, R68, R70, R71). -/
def State.released (s : State) : Released :=
  let c := s.beatNow
  let b := (c + 2 ^ 64 - s.latency) % 2 ^ 64
  if !s.is F.BEAT_RQ_CFG.RUN || c < s.beat.relFrom || s.beatUnit = buEXPIRED then Released.no
  else
    let entry := match s.beat.read with
      | some r => if r.beat = b then r.entry else Tbl.find s.beat.rq (b % 4096)
      | none => Tbl.find s.beat.rq (b % 4096)
    match entry with
    | some e => { accept := e.accept, ttype := e.ttype, trig := e.trig, late := false, pass := Tbl.get s.trg.pass b 0 }
    | none => { accept := s.is F.BEAT_RQ_CFG.LATE_ACCEPT, ttype := s.rd F.BEAT_RQ_CFG.LATE_TTYPE,
                trig := s.rd F.BEAT_RQ_CFG.LATE_TRIG, late := true, pass := 0 }

/-- The release of entry b at the edge of beat b + L: VALID clears, and an accept goes to TRIG_OUT, the lanes and the
event builder. -/
def State.release (s : State) : State :=
  let c := s.beatNow
  let b := (c + 2 ^ 64 - s.latency) % 2 ^ 64
  let r := s.released
  let s := { s with
    beat := { s.beat with rq := Tbl.erase s.beat.rq (b % 4096), read := none }
    trg := { s.trg with pass := Tbl.erase s.trg.pass b } }
  let s := if r.late then (s.inc F.BEAT_RQ_CNT.LATE).raise F.BEAT_STATUS.EVT_LATE else s
  let s := s.trigPulse (if r.accept then r.trig else 0)
  if r.accept then
    ((s.inc F.BEAT_RQ_ACC.ACCEPTS).queueAccept r.ttype r.late b).evAccept b r.ttype r.late r.pass c
  else s

/-- BEAT_OUT rises with the edges it divides (R74). -/
def State.beatOut (s : State) : State :=
  if !s.is F.BEAT_OUT_CTL.EN then { s with beat := { s.beat with outRise := none } }
  else if s.beatNow % 2 ^ s.rd F.BEAT_OUT_CTL.DIV = 0 then { s with beat := { s.beat with outRise := some s.beatNow } }
  else s

/-- The count that the next edge takes (R62, R64). -/
def State.nextCount (s : State) : Nat :=
  match s.beat.load with
  | some c => c
  | none => if s.beat.swLoad then s.rd F.BEAT_LOAD.VALUE else (s.beatNow + 1) % 2 ^ 64

/-- An internal beat edge. -/
def State.beatEdge (s : State) : State :=
  if !s.beatRuns then s else
  let old := s.beatNow
  let c := s.nextCount
  let s := if s.beat.load.isSome && s.beat.swLoad then s.wr F.BEAT_STATUS.SWLOAD_LOST 0 1 else s
  let s := { s with beat := { s.beat with load := none, swLoad := false, edges := s.beat.edges + 1 } }
  let s := s.wr F.BEAT_COUNT.COUNT 0 c
  let s := if c ≠ (old + 1) % 2 ^ 64 then s.countLoad c else s
  (((s.recEdge old).release).busyEdge).beatOut

/-- RELEASE: the internal beat edge. -/
def execRelease (s : State) : Host.Outcome State Fault Refusal := .next s.beatEdge

/-- SW_LOAD_APPLY: the beat edge at which a pending SW_LOAD applies or is lost. -/
def execSwLoadApply (s : State) : Host.Outcome State Fault Refusal := .next (if s.beat.swLoad then s.beatEdge else s)

/-- RELEASE_READ: the queue reads the entry of the coming edge; `slack` is the time since its decision was written, in
1/256 beat (R68, R69). -/
def State.releaseRead (s : State) (slack : Nat) : State :=
  let b := (s.beatNow + 1 + 2 ^ 64 - s.latency) % 2 ^ 64
  let e := Tbl.find s.beat.rq (b % 4096)
  let s := if e.isSome then s.wr F.BEAT_RQ_SLACK.MIN_SLACK 0 (min (s.rd F.BEAT_RQ_SLACK.MIN_SLACK) slack) else s
  { s with beat := { s.beat with read := some (RqRead.mk b e) } }

def execReleaseRead (slack : Nat) (s : State) : Host.Outcome State Fault Refusal :=
  .next (if s.beatRuns then s.releaseRead slack else s)

/-- SYNC_EXECUTE (R52). -/
def State.syncExecute (s : State) : State :=
  match s.beat.syncs with
  | (code, n) :: rest =>
    if s.beat.edges ≤ n then s else
    let s := { s with beat := { s.beat with syncs := rest } }
    let s := (s.wr F.BEAT_SYNC_LAST.CODE 0 code).wr F.BEAT_SYNC_LAST.BEAT 0 s.beatNow
    (s.raise F.BEAT_STATUS.EVT_CMD).queueCmd 2 code s.beatNow
  | [] => s

def execSyncExecute (s : State) : Host.Outcome State Fault Refusal := .next (if s.beatRuns then s.syncExecute else s)

/-- CAL_EXECUTE (R52, R65). -/
def State.calExecute (s : State) : State :=
  match s.beat.cals.find? (fun c => c.2.2 < s.beat.edges && c.2.1 ≤ s.beatNow) with
  | some c =>
    let s := { s with beat := { s.beat with cals := s.beat.cals.erase c } }
    let s := (s.wr F.BEAT_CAL_LAST.CODE 0 c.1).wr F.BEAT_CAL_LAST.BEAT 0 s.beatNow
    (s.raise F.BEAT_STATUS.EVT_CMD).queueCmd 3 c.1 s.beatNow
  | none => s

def execCalExecute (s : State) : Host.Outcome State Fault Refusal := .next (if s.beatRuns then s.calExecute else s)

/-! ## Unit events and actions (R58, R61, R64) -/

def execHoldoverExpire (s : State) : Host.Outcome State Fault Refusal :=
  .next (if s.beatRuns && s.beatUnit = buHOLDOVER && s.rd F.BEAT_CFG.HOLD_MAX ≠ 0 then
      (s.wr F.BEAT_STATUS.UNIT 0 buEXPIRED).raise F.BEAT_STATUS.EVT_EXPIRED else s)

/-- AUTO_REVERT: the primary, eligible for 65,536 beats, takes over. -/
def State.autoRevert (s : State) : State :=
  let p := s.rd F.BEAT_CFG.PRIMARY
  if s.beatUnit = buTRACKING && s.is F.BEAT_CFG.AUTO_REVERT && s.active ≠ p && s.eligible p then s.activate p else s

def execAutoRevert (s : State) : Host.Outcome State Fault Refusal := .next (if s.beatRuns then s.autoRevert else s)

def State.forceSwitch (s : State) : State :=
  if s.beatUnit = buTRACKING && s.eligible (1 - s.active) then s.activate (1 - s.active) else s

def execForceSwitch (src : Src) (s : State) : Host.Outcome State Fault Refusal :=
  .next (s.withReg src .BEAT_CTL 0 (·.forceSwitch))

def State.swLoad (s : State) : State := { s with beat := { s.beat with swLoad := true } }

def execSwLoad (src : Src) (s : State) : Host.Outcome State Fault Refusal := .next (s.withReg src .BEAT_CTL 0 (·.swLoad))

/-- ADOPT: ignored in STOPPED or with no LOCKED input (R62). -/
def State.adopt (s : State) : State :=
  if s.beatUnit = buSTOPPED || !(s.inState 0 == biLOCKED || s.inState 1 == biLOCKED) then s
  else ({ s with beat := { s.beat with adopting := true } }).setMismatch s.active false

def execAdopt (src : Src) (s : State) : Host.Outcome State Fault Refusal := .next (s.withReg src .BEAT_CTL 0 (·.adopt))

/-- A write of BEAT_CTL. -/
def State.beatCtl (s : State) (v : Nat) : State :=
  ((s.when (v.testBit 0) (·.swLoad)).when (v.testBit 1) (·.adopt)).when (v.testBit 2) (·.forceSwitch)

/-! ## Reading the time (R57, R66) -/

/-- A read of BEAT_COUNT at byte `off`: bytes 0–3 latch the count and the fine phase (a multiple of 256). -/
def State.countRead (s : State) (off size fine : Nat) : State :=
  let cut (v : Nat) : Nat := v % 2 ^ (8 * size)
  if off = 0 then
    let s := s.wr F.BEAT_FINE.FINE 0 (fine % 65536 / 256 * 256)
    { s with beat := { s.beat with latch := s.beatNow }, rdata := cut s.beatNow }
  else { s with rdata := cut (s.beat.latch / 2 ^ 32) }

/-- BEAT_COUNT_READ; a block that does not answer reads zero. -/
def execBeatCountRead (src : Src) (off size fine : Nat) (s : State) : Host.Outcome State Fault Refusal :=
  .next (({ s with rdata := 0 }).withRead src .BEAT_COUNT 0 (·.countRead off size fine))

/-- hzbeat: a sample no more than two beats old, and never behind the last one of the core. -/
def State.hzbeat (s : State) (core rd fine : Nat) : State :=
  let (lag, s) := s.free 3
  let last := s.csr core 0xCC0
  let now := s.beatNow
  let v := max (now - lag) (if last ≤ now then last else 0)
  let s := s.setHart core { s.hart core with beatF := fine % 65536 / 256 * 256 }
  let s := s.setCsr core 0xCC0 v
  s.setHart core ((s.hart core).setX rd v)

def execHzbeatRead (core pc rd fine : Nat) (s : State) : Host.Outcome State Fault Refusal :=
  .next (s.issue core pc (fun s => (s.hzbeat core rd fine).retire core (pc + 4)))

def execHzbeatfRead (core pc rd : Nat) (s : State) : Host.Outcome State Fault Refusal :=
  .next (s.issue core pc (fun s => (s.setHart core ((s.hart core).setX rd (s.hart core).beatF)).retire core (pc + 4)))

/-! ## The queue's configuration (R70, R76) -/

/-- A write of BEAT_RQ_CFG. -/
def State.rqCfg (s : State) (v : Nat) : State :=
  let was := s.is F.BEAT_RQ_CFG.RUN
  let s := if was then s else
    [F.BEAT_RQ_CFG.LAT, F.BEAT_RQ_CFG.LATE_ACCEPT, F.BEAT_RQ_CFG.LATE_TTYPE, F.BEAT_RQ_CFG.LATE_TRIG].foldl
      (fun s (f : Field) => s.wr f 0 (s.legal f 0 (bits v f.lo f.w))) s
  let s := s.wr F.BEAT_RQ_CFG.RUN 0 (bits v 32 1)
  if !was && v.testBit 32 then
    { s with beat := { s.beat with decFrom := s.beatNow + 1, relFrom := s.beatNow + 1 + s.latency } }
  else s

def execBeatRqRun (src : Src) (value : Nat) (s : State) : Host.Outcome State Fault Refusal :=
  .next (s.withReg src .BEAT_RQ_CFG 0 (·.rqCfg value))

def State.slackReset (s : State) : State := s.wr F.BEAT_RQ_SLACK.MIN_SLACK 0 0xFFFFFF

def execBeatRqSlackWrite (src : Src) (s : State) : Host.Outcome State Fault Refusal :=
  .next (s.withReg src .BEAT_RQ_SLACK 0 (·.slackReset))

end Sys2Proof.Machine
end

