-- ==== Sys2Proof/Machine/Doe.lean ====
section
/-!
DEFINITION. The commands of the DOE mailbox: discovery, abort, and the SPDM responder (R376, R439, R451, R452).  The
layout of the objects and messages is that of the standards the spec names (assumption log 20).
-/

namespace Sys2Proof.Machine

/-! ## The device key (R439) -/

def asciiBytes (t : String) : List (BitVec 8) := t.toList.map (fun c => BitVec.ofNat 8 c.toNat)

/-- Order of the SM2 group. -/
def sm2Order : Nat := 0xFFFFFFFEFFFFFFFFFFFFFFFFFFFFFFFF7203DF6B21C6052B53BBF40939D54123

/-- Private scalar of the device key. -/
def State.deviceKey (s : State) : Nat :=
  leNat (Config.sm3 (s.fuses.seed ++ asciiBytes "BXV-H DEV")).reverse % (sm2Order - 1) + 1

/-! ## The mailbox (R376) -/

/-- Does the mailbox of port `p` answer? -/
def State.doeOpen (s : State) (p : Nat) : Bool := p < 2 && !s.held && s.cfgOpen p

/-- A data object of vendor 0x0001 and a type becomes the response. -/
def State.doeReply (s : State) (p type : Nat) (body : List (BitVec 8)) : State :=
  let body := body ++ List.replicate ((4 - body.length % 4) % 4) 0
  let x := s.port p
  s.setPort p { x with doe := { x.doe with
    inbox := [], outbox := natLE 2 1 ++ natLE 1 type ++ natLE 1 0 ++ natLE 4 (2 + body.length / 4) ++ body } }

/-- DOE_DISCOVERY: index 0 names DOE Discovery itself, index 1 CMA/SPDM. -/
def execDoeDiscovery (p index : Nat) (s : State) : Host.Outcome State Fault Refusal :=
  .next (if s.doeOpen p then
    s.doeReply p 0 (match index with
      | 0 => natLE 2 1 ++ natLE 1 0 ++ natLE 1 1
      | 1 => natLE 2 1 ++ natLE 1 1 ++ natLE 1 0
      | _ => natLE 2 0xFFFF ++ natLE 2 0)
  else s)

/-- DOE_ABORT: the object in progress is discarded. -/
def State.doeAbort (s : State) (p : Nat) : State :=
  let x := s.port p
  s.setPort p { x with doe := { x.doe with inbox := [], outbox := [] } }

def execDoeAbort (p : Nat) (s : State) : Host.Outcome State Fault Refusal :=
  .next (if s.doeOpen p then s.doeAbort p else s)

/-! ## SPDM messages (R451) -/

/-- A message: version, code, two parameters, body. -/
def spdmMsg (code p1 p2 : Nat) (body : List (BitVec 8)) : List (BitVec 8) :=
  natLE 1 0x12 ++ natLE 1 code ++ natLE 1 p1 ++ natLE 1 p2 ++ body

/-- A response goes out; request and response join the transcript. -/
def State.spdmReply (s : State) (p : Nat) (req resp : List (BitVec 8)) : State :=
  let x := s.port p
  (s.setPort p { x with doe := { x.doe with transcript := x.doe.transcript ++ req ++ resp } }).doeReply p 1 resp

/-- ERROR: 0x01 InvalidRequest, 0x04 UnexpectedRequest, 0x07 UnsupportedRequest. -/
def State.spdmError (s : State) (p code data : Nat) : State := s.doeReply p 1 (spdmMsg 0x7F code data [])

/-- The responder's stage: 1 version agreed, 2 capabilities given, 3 algorithms negotiated. -/
def State.spdmStage (s : State) (p n : Nat) : State :=
  let x := s.port p
  s.setPort p { x with doe := { x.doe with stage := n } }

/-- A request that needs stage `n` and goes to stage `m`. -/
def State.spdmAt (s : State) (p n m : Nat) (f : State → State) : State :=
  if !s.doeOpen p then s
  else if (s.port p).doe.stage < n then s.spdmError p 0x04 0
  else f (s.spdmStage p m)

/-- GET_VERSION: 1.2 only; it starts a new exchange. -/
def execGetVersion (p : Nat) (s : State) : Host.Outcome State Fault Refusal :=
  .next (s.spdmAt p 0 1 (fun s =>
    let x := s.port p
    (s.setPort p { x with doe := { x.doe with transcript := [] } }).spdmReply p
      (natLE 4 0x00008410) (natLE 4 0x00000410 ++ natLE 2 0x0100 ++ natLE 2 0x1200)))

/-- GET_CAPABILITIES: CERT_CAP, CHAL_CAP and MEAS_CAP = 0b10; the sizes and times the spec does not state are free. -/
def execGetCapabilities (p : Nat) (req : List (BitVec 8)) (s : State) : Host.Outcome State Fault Refusal :=
  .next (s.spdmAt p 1 2 (fun s =>
    let (ct, s) := s.free 256
    let (size, s) := s.free (2 ^ 32)
    let (big, s) := s.free (2 ^ 32)
    s.spdmReply p req (spdmMsg 0x61 0 0 (natLE 1 0 ++ natLE 1 ct ++ natLE 2 0 ++ natLE 4 0x16 ++ natLE 4 size ++ natLE 4 big))))

/-- NEGOTIATE_ALGORITHMS: DMTF measurements, SM2 on its own curve, SM3-256 as both hashes. -/
def execNegotiateAlgorithms (p : Nat) (req : List (BitVec 8)) (s : State) : Host.Outcome State Fault Refusal :=
  .next (s.spdmAt p 2 3 (fun s => s.spdmReply p req (spdmMsg 0x63 0 0 (natLE 2 36 ++ natLE 1 1 ++ natLE 1 0 ++ natLE 4 0x80 ++
    natLE 4 0x200 ++ natLE 4 0x40 ++ natLE 16 0))))

/-- The certificate chain of a slot as held. -/
def State.certDer (s : State) (slot : Nat) : List (BitVec 8) := if slot = 0 then s.vellum.chain0 else s.vellum.chain1

/-- Bytes of the first DER element of a list. -/
def derSize (l : List (BitVec 8)) : Nat :=
  let b := byteAt l 1
  if b < 128 then 2 + b else 2 + (b - 128) + leNat ((l.drop 2).take (b - 128)).reverse

/-- A slot's chain in the form SPDM gives it: length, the root certificate's hash, the certificates. -/
def State.certChain (s : State) (slot : Nat) : List (BitVec 8) :=
  let der := s.certDer slot
  natLE 2 (36 + der.length) ++ natLE 2 0 ++ Config.sm3 (der.take (derSize der)) ++ der

/-- Is the slot provisioned?  Slot 1 is empty until enrolment writes it. -/
def State.slotHeld (s : State) (slot : Nat) : Bool := slot == 0 || (slot == 1 && !s.vellum.chain1.isEmpty)

/-- Mask of the provisioned slots. -/
def State.slotMask (s : State) : Nat := 1 + 2 * b2n (s.slotHeld 1)

/-- GET_DIGESTS. -/
def execGetDigests (p : Nat) (s : State) : Host.Outcome State Fault Refusal :=
  .next (s.spdmAt p 3 3 (fun s => s.spdmReply p (natLE 4 0x00008112) (spdmMsg 0x01 0 s.slotMask
    (((List.range 2).filter s.slotHeld).flatMap (fun k => Config.sm3 (s.certChain k))))))

/-- GET_CERTIFICATE: a portion of a slot's chain; an empty or unknown slot is InvalidRequest. -/
def execGetCertificate (p slot off len : Nat) (s : State) : Host.Outcome State Fault Refusal :=
  .next (s.spdmAt p 3 3 (fun s =>
    if !s.slotHeld slot || (s.certChain slot).length ≤ off then s.spdmError p 0x01 0 else
    let c := s.certChain slot
    let part := (c.drop off).take (min len 4000)
    s.spdmReply p (natLE 1 0x12 ++ natLE 1 0x82 ++ natLE 1 slot ++ natLE 1 0 ++ natLE 2 off ++ natLE 2 len)
      (spdmMsg 0x02 slot 0 (natLE 2 part.length ++ natLE 2 (c.length - off - part.length) ++ part))))

/-- Thirty-two free bytes: a nonce of the responder. -/
def State.freshNonce (s : State) : List (BitVec 8) × State :=
  let (n, s) := s.free (2 ^ 256)
  (natLE 32 n, s)

/-- Signature of the device key over the transcript, under the prefix and context SPDM 1.2 lays down. -/
def State.spdmSign (s : State) (context : String) (msg : List (BitVec 8)) : List (BitVec 8) :=
  let v := asciiBytes "dmtf-spdm-v1.2.*"
  let c := asciiBytes context
  Config.sm2Sign s.deviceKey (v ++ v ++ v ++ v ++ List.replicate (36 - c.length) 0 ++ c ++ Config.sm3 msg)

/-- CHALLENGE: answered with a signature of the device key. -/
def execChallenge (p slot : Nat) (nonce : List (BitVec 8)) (s : State) : Host.Outcome State Fault Refusal :=
  .next (s.spdmAt p 3 3 (fun s =>
    if !s.slotHeld slot || nonce.length ≠ 32 then s.spdmError p 0x01 0 else
    let req := natLE 1 0x12 ++ natLE 1 0x83 ++ natLE 1 slot ++ natLE 1 0 ++ nonce
    let (mine, s) := s.freshNonce
    let body := spdmMsg 0x03 slot s.slotMask (Config.sm3 (s.certChain slot) ++ mine ++ natLE 2 0)
    let sig := s.spdmSign "responder-challenge_auth signing" ((s.port p).doe.transcript ++ req ++ body)
    s.spdmReply p req (body ++ sig)))

/-! ## Measurements (R452) -/

/-- Capability and signature blocks last received on a hub port. -/
def State.portBlocks (s : State) (n : Nat) : List (BitVec 8) :=
  let a := s.alnPort (2 * n)
  let b := s.alnPort (2 * n + 1)
  if a.cap.isEmpty then b.cap ++ b.sig else a.cap ++ a.sig

/-- Value of a measurement, and whether it is a raw bit stream. -/
def State.measurement (s : State) (k : Nat) : List (BitVec 8) × Bool :=
  match k with
  | 1 => (Config.bootRomDigest, false)
  | 7 => (natLE 8 (s.regWord .MEM_WM 0) ++ natLE 8 (s.regWord .ALN_CFG 0) ++ natLE 8 (s.regWord .STN_CFG 0) ++
      natLE 8 (s.regWord .STN_CFG 1) ++ natLE 8 (s.rd F.DBG_EN.EFF), true)
  | 22 =>
    let g := s.dbg.lastGrant.getD (0, 0)
    (natLE 4 (s.rd F.DBG_CNT.GRANTS) ++ natLE 1 g.1 ++ natLE 1 g.2, true)
  | _ =>
    if k ≤ 6 then (Tbl.get s.boot.meas k (List.replicate 32 0), false)
    else
      let b := s.portBlocks (k - 8)
      (if b.isEmpty then List.replicate 32 0 else Config.sm3 b, false)

/-- A measurement block in the DMTF form; the value type is free. -/
def State.measBlock (s : State) (k type : Nat) : List (BitVec 8) :=
  let (v, raw) := s.measurement k
  natLE 1 k ++ natLE 1 1 ++ natLE 2 (3 + v.length) ++ natLE 1 (type % 128 + 128 * b2n raw) ++ natLE 2 v.length ++ v

/-- The blocks a request names, one after another. -/
def State.measBlocks (s : State) : List Nat → List (BitVec 8) × State
  | [] => ([], s)
  | k :: rest =>
    let (t, s) := s.free 128
    let b := s.measBlock k t
    let (l, s) := s.measBlocks rest
    (b ++ l, s)

/-- GET_MEASUREMENTS: index 0 gives the count, 0xFF all 22 blocks. -/
def execGetMeasurements (p index slot : Nat) (signed : Bool) (nonce : List (BitVec 8)) (s : State) :
    Host.Outcome State Fault Refusal :=
  .next (s.spdmAt p 3 3 (fun s =>
    if (22 < index && index ≠ 0xFF) || (signed && (!s.slotHeld slot || nonce.length ≠ 32)) then s.spdmError p 0x01 0 else
    let req := natLE 1 0x12 ++ natLE 1 0xE0 ++ natLE 1 (b2n signed) ++ natLE 1 index ++ (if signed then nonce ++ natLE 1 slot else [])
    let ks := if index = 0 then [] else if index = 0xFF then (List.range 22).map (· + 1) else [index]
    let (rec', s) := s.measBlocks ks
    let (mine, s) := s.freshNonce
    let body := spdmMsg 0x60 (if index = 0 then 22 else 0) (if signed then slot else 0)
      (natLE 1 ks.length ++ natLE 3 rec'.length ++ rec' ++ mine ++ natLE 2 0)
    if signed then
      s.spdmReply p req (body ++ s.spdmSign "responder-measurements signing" ((s.port p).doe.transcript ++ req ++ body))
    else s.spdmReply p req body))

/-- SPDM_UNSUPPORTED_REQUEST. -/
def execSpdmUnsupportedRequest (p code : Nat) (s : State) : Host.Outcome State Fault Refusal :=
  .next (if s.doeOpen p then s.spdmError p 0x07 code else s)

end Sys2Proof.Machine
end

