-- ==== Sys2Proof/Machine/Coherence.lean ====
section
/-!
DEFINITION. The commands of the caches and the directory (R229 to R261): delivery of the coherence messages, the wait
lists, and the L2 and directory controls.
-/

namespace Sys2Proof.Machine

/-! ## Message delivery (R240, R241) -/

/-- The oldest message of a channel is delivered if it is the one the command names and can be taken now; a snoop for a
cluster in RET wakes it (R251). -/
def State.deliverHead (s : State) (ch : Nat × ReqSrc × Nat) (isIt : CohMsg → Bool) : State :=
  if s.held then s else
  match s.headOf ch with
  | none => s
  | some m =>
    if !isIt m then s
    else if s.cohReady m then (s.takeHead ch).deliverMsg m
    else match m with
      | .snp _ c .. => s.snoopWake c
      | _ => s

def isReq (k : DirReq) : CohMsg → Bool
  | .req r => r.kind == k
  | _ => false

def isSnp (k : SnpKind) : CohMsg → Bool
  | .snp j .. => j == k
  | _ => false

/-- RD_SHARED: the request of cluster `c` for a line reaches its home slice. -/
def execRdShared (line c : Nat) (s : State) : Host.Outcome State Fault Refusal :=
  .next (s.deliverHead (0, .cluster c, line) (isReq .rdShared))

/-- RD_UNIQUE. -/
def execRdUnique (line c : Nat) (s : State) : Host.Outcome State Fault Refusal :=
  .next (s.deliverHead (0, .cluster c, line) (isReq .rdUnique))

/-- UPGRADE. -/
def execUpgrade (line c : Nat) (s : State) : Host.Outcome State Fault Refusal :=
  .next (s.deliverHead (0, .cluster c, line) (isReq .upgrade))

/-- The oldest agent's request of a kind for a line reaches its slice. -/
def State.deliverIo (s : State) (k : DirReq) (line : Nat) : State :=
  match s.dir.flight.find? (fun m => isReq k m && m.chan.2.2 == line) with
  | some m => s.deliverHead m.chan (isReq k)
  | none => s

/-- IO_RD. -/
def execIoRd (line : Nat) (s : State) : Host.Outcome State Fault Refusal := .next (s.deliverIo .ioRd line)

/-- IO_WR. -/
def execIoWr (line : Nat) (s : State) : Host.Outcome State Fault Refusal := .next (s.deliverIo .ioWr line)

/-- EVN_CLEAN. -/
def execEvnClean (c line : Nat) (s : State) : Host.Outcome State Fault Refusal :=
  .next (s.deliverHead (1, .cluster c, line) (fun m => match m with
    | .evn _ _ dirty _ _ => !dirty
    | _ => false))

/-- EVN_DIRTY. -/
def execEvnDirty (c line : Nat) (s : State) : Host.Outcome State Fault Refusal :=
  .next (s.deliverHead (1, .cluster c, line) (fun m => match m with
    | .evn _ _ dirty _ _ => dirty
    | _ => false))

/-- WRBACK. -/
def execWrback (c line : Nat) (s : State) : Host.Outcome State Fault Refusal :=
  .next (s.deliverHead (1, .cluster c, line) (fun m => match m with
    | .wrback .. => true
    | _ => false))

/-- DIR_WAITER_SERVE (R240). -/
def execDirWaiterServe (line : Nat) (s : State) : Host.Outcome State Fault Refusal :=
  .next (if s.held then s else s.serveWaiter line)

/-- SNP_SHARE. -/
def execSnpShare (c line : Nat) (s : State) : Host.Outcome State Fault Refusal :=
  .next (s.deliverHead (2, .cluster c, line) (isSnp .share))

/-- SNP_UNIQUE. -/
def execSnpUnique (c line : Nat) (s : State) : Host.Outcome State Fault Refusal :=
  .next (s.deliverHead (2, .cluster c, line) (isSnp .unique))

/-- SNP_INV. -/
def execSnpInv (c line : Nat) (s : State) : Host.Outcome State Fault Refusal :=
  .next (s.deliverHead (2, .cluster c, line) (isSnp .inv))

/-- SNP_IORD. -/
def execSnpIord (c line : Nat) (s : State) : Host.Outcome State Fault Refusal :=
  .next (s.deliverHead (2, .cluster c, line) (isSnp .iord))

/-- DATA. -/
def execData (c line : Nat) (s : State) : Host.Outcome State Fault Refusal :=
  .next (s.deliverHead (3, .cluster c, line) (fun _ => true))

/-- RSP. -/
def execRsp (c line : Nat) (s : State) : Host.Outcome State Fault Refusal :=
  .next (s.deliverHead (1, .cluster c, line) (fun m => match m with
    | .rsp .. => true
    | _ => false))

/-- GNT. -/
def execGnt (c line : Nat) (s : State) : Host.Outcome State Fault Refusal :=
  .next (s.deliverHead (2, .cluster c, line) (fun m => match m with
    | .gnt .. => true
    | _ => false))

/-- ACK_EVN. -/
def execAckEvn (c line : Nat) (s : State) : Host.Outcome State Fault Refusal :=
  .next (s.deliverHead (2, .cluster c, line) (fun m => match m with
    | .ackEvn .. => true
    | _ => false))

/-- PIN. -/
def execPin (c line : Nat) (s : State) : Host.Outcome State Fault Refusal :=
  .next (s.deliverHead (4, .cluster c, line) (fun m => match m with
    | .pin .. => true
    | _ => false))

/-- UNPIN. -/
def execUnpin (c line : Nat) (s : State) : Host.Outcome State Fault Refusal :=
  .next (s.deliverHead (4, .cluster c, line) (fun m => match m with
    | .unpin .. => true
    | _ => false))

/-- PROOF_ABORT_MESSAGE (R274): the abort reaches the hart whose request lost. -/
def execProofAbortMessage (core : Nat) (s : State) : Host.Outcome State Fault Refusal :=
  .next (s.deliverHead (5, .core core, 0) (fun _ => true))

/-- FENCE_SWEEP_DONE (R250). -/
def execFenceSweepDone (slice : Nat) (s : State) : Host.Outcome State Fault Refusal :=
  .next (if s.dir.sweeping.contains slice && s.sliceLive slice then
    ({ s with dir := { s.dir with sweeping := s.dir.sweeping.erase slice } }).raise F.DIR_SLICE_STATUS.EVT_SWEEP slice
  else s)

/-! ## L2 controls (R252, R253, R259) -/

/-- Lines of an L2 in M or O (R260). -/
def State.l2Dirty (s : State) (cl : Nat) : Nat := ((s.l2c cl).lines.filter (fun e => e.2.st.dirty)).length

/-- Every L1 copy of the cluster is invalidated. -/
def State.clearL1s (s : State) (cl : Nat) : State :=
  (coresOf cl).foldl (fun s k => s.setHart k { s.hart k with l1d := [], l1i := [] }) s

/-- A write of EN (R252, R254, R255). -/
def State.l2En (s : State) (cl : Nat) (en : Bool) : State :=
  if en then (s.wr F.L2_CTL.EN cl 1).wr F.L2_STATUS.ENABLED cl 1
  else if !s.l2On cl then s
  else if s.l2Dirty cl ≠ 0 || s.is F.L2_CTL.FLUSH cl || s.is F.L2_CTL.INV cl then s.wr F.L2_STATUS.DISABLE_REFUSED cl 1
  else ((s.wr F.L2_CTL.EN cl 0).wr F.L2_STATUS.ENABLED cl 0).clearL1s cl

/-- A write of INV = 1 (R253). -/
def State.l2Inv (s : State) (cl : Nat) : State :=
  if s.is F.L2_CTL.INV cl then s
  else if s.l2Dirty cl ≠ 0 then s.wr F.L2_STATUS.INV_REFUSED cl 1
  else
    let s := (s.wr F.L2_CTL.INV cl 1).clearL1s cl
    let l := s.l2c cl
    if s.l2On cl then (s.setL2 cl { l with invLeft := l.lines.map (·.1) }).invStep cl
    else l.lines.foldl (fun s e => s.dropLine cl e.1) s

/-- A write of FLUSH = 1 (R253): a WRBACK for every line in M or O; M becomes E and O becomes S.  Lines of an open
write set stay as they are. -/
def State.l2Flush (s : State) (cl : Nat) : State :=
  if s.is F.L2_CTL.FLUSH cl then s else
  let s := s.wr F.L2_CTL.FLUSH cl 1
  let spec (line : Nat) : Bool := (coresOf cl).any (fun k => (s.hart k).writes line)
  let go := (s.l2c cl).lines.filter (fun e => e.2.st.dirty && !spec e.1)
  let s := go.foldl (fun s e => s.send (.wrback cl e.1 e.2.poison e.2.data)) s
  let l := s.l2c cl
  let clean (line : Nat) (x : L2Line) : L2Line :=
    if spec line then x else { x with st := if x.st = .m then .e else if x.st = .o then .s else x.st }
  s.setL2 cl { l with lines := Tbl.mapVals l.lines clean, flushLeft := go.map (·.1) }

/-- A secure write of L2_CTL: EN, then FLUSH and INV, which run in that order when written together. -/
def State.l2Ctl (s : State) (cl v : Nat) : State :=
  let s := s.l2En cl (v.testBit 0)
  if v.testBit 1 then
    let s := s.l2Flush cl
    if v.testBit 2 then s.setL2 cl { s.l2c cl with invAfterFlush := true } else s
  else if v.testBit 2 then s.l2Inv cl else s

/-- L2_EN_WRITE. -/
def execL2EnWrite (src : Src) (c value : Nat) (s : State) : Host.Outcome State Fault Refusal :=
  .next (if isSecure src && c < 48 then s.withReg src .L2_CTL c (·.l2En c (value % 2 == 1)) else s)

/-- L2_FLUSH. -/
def execL2Flush (src : Src) (c : Nat) (s : State) : Host.Outcome State Fault Refusal :=
  .next (if isSecure src && c < 48 then s.withReg src .L2_CTL c (·.l2Flush c) else s)

/-- L2_INV. -/
def execL2Inv (src : Src) (c : Nat) (s : State) : Host.Outcome State Fault Refusal :=
  .next (if isSecure src && c < 48 then s.withReg src .L2_CTL c (·.l2Inv c) else s)

/-- L2_FLUSH_DONE: the last write-back has been acknowledged; an INV written with the flush runs next. -/
def execL2FlushDone (c : Nat) (s : State) : Host.Outcome State Fault Refusal :=
  .next (
    let l := s.l2c c
    if s.is F.L2_CTL.FLUSH c && l.flushLeft.isEmpty && s.clusterLive c then
      let s := (s.wr F.L2_CTL.FLUSH c 0).setL2 c { l with invAfterFlush := false }
      if l.invAfterFlush then s.l2Inv c else s
    else s)

/-- L2_INV_DONE: the walk and its acknowledgements are complete. -/
def execL2InvDone (c : Nat) (s : State) : Host.Outcome State Fault Refusal :=
  .next (
    let l := s.l2c c
    if s.is F.L2_CTL.INV c && l.invLeft.isEmpty && l.lb.isEmpty && s.clusterLive c then s.wr F.L2_CTL.INV c 0 else s)

/-- L2_INIT_DONE (R259): every line is in I and the L2 is in service. -/
def execL2InitDone (c : Nat) (s : State) : Host.Outcome State Fault Refusal :=
  .next (if c < 48 && s.clusterLive c && !s.is F.L2_STATUS.READY c && !s.held then
    ((s.setL2 c L2State.init).wr F.L2_STATUS.READY c 1).wr F.L2_STATUS.ENABLED c 1
  else s)

/-! ## Directory controls (R259, R261) -/

/-- DIR_CLEAR_DONE (R259). -/
def execDirClearDone (slice : Nat) (s : State) : Host.Outcome State Fault Refusal :=
  .next (if slice < 32 && s.sliceLive slice && !s.held then s.putBit F.DIR_STATUS.READY 0 slice true else s)

/-- A secure write of DIR_PROBE_ADDR starts a probe (R261). -/
def State.dirProbe (s : State) (v : Nat) : State :=
  let s := (s.wr F.DIR_PROBE_ADDR.LINE 0 (bits v 7 39)).wr F.DIR_PROBE_DATA.DONE 0 0
  { s with dir := { s.dir with probing := true } }

/-- DIR_PROBE. -/
def execDirProbe (src : Src) (value : Nat) (s : State) : Host.Outcome State Fault Refusal :=
  .next (if isSecure src then s.withReg src .DIR_PROBE_ADDR 0 (·.dirProbe value) else s)

/-- DIR_PROBE_DONE: the entry of the line, or an empty one. -/
def State.probeDone (s : State) : State :=
  let line := s.rd F.DIR_PROBE_ADDR.LINE
  if !s.dir.probing || !s.sliceReady (homeSlice line) then s else
  let s := { s with dir := { s.dir with probing := false } }
  let busy := s.lineHeld line
  let put (e : Option DirEntry) : State :=
    let ptr (f : DirEntry → Option Nat) : Nat := match e with
      | some x => (f x).getD 0
      | none => 0
    let has (f : DirEntry → Option Nat) (k : Nat) : Nat := match e with
      | some x => if (f x).isSome then 2 ^ k else 0
      | none => 0
    let st := match e with
      | none => 0
      | some x => match x.st with
        | .s => 1
        | .em => 2
        | .o => 3
    let s := ((s.wr F.DIR_PROBE_DATA.STATE 0 st).wr F.DIR_PROBE_DATA.HIT 0 (b2n e.isSome)).wr F.DIR_PROBE_DATA.BUSY 0 (b2n busy)
    let s := (s.wr F.DIR_PROBE_DATA.BCAST 0 (b2n (e.any (·.bcast)))).wr F.DIR_PROBE_DATA.PIN 0
      (b2n (e.any (fun x => !x.pins.isEmpty)))
    let s := s.wr F.DIR_PROBE_DATA.PV 0 (has (·.p0) 0 + has (·.p1) 1 + has (·.p2) 2 + has (·.p3) 3)
    let s := (s.wr F.DIR_PROBE_DATA.P0 0 (ptr (·.p0))).wr F.DIR_PROBE_DATA.P1 0 (ptr (·.p1))
    let s := (s.wr F.DIR_PROBE_DATA.P2 0 (ptr (·.p2))).wr F.DIR_PROBE_DATA.P3 0 (ptr (·.p3))
    (s.wr F.DIR_PROBE_DATA.WAY 0 (match e with
      | some x => x.way
      | none => 0)).wr F.DIR_PROBE_DATA.DONE 0 1
  put (s.entry line)

def execDirProbeDone (s : State) : Host.Outcome State Fault Refusal := .next s.probeDone

end Sys2Proof.Machine
end

