-- ==== Sys2Proof/Machine/Debug.lean ====
section
/-!
DEFINITION. Debug enables, authentication, halt and resume, and the start of a debugger access (R456 to R462, R466).
-/

namespace Sys2Proof.Machine

/-! ## Enables (R456, R462) -/

/-- The access in progress ends with a status. -/
def State.accEnd (s : State) (status : Nat) : State :=
  let s := ({ s with dbg := { s.dbg with acc := none } }).wr F.DBG_ACC_CTL.STATUS 0 status
  (s.wr F.DBG_ACC_CTL.DONE 0 1).when (status == 3) (·.inc F.DBG_CNT.DENIED)

/-- EFF after a write that may withdraw enables: harts halted under one that is gone resume, and an access in flight
whose enable is gone ends DENIED (R462). -/
def State.enChange (s : State) : State :=
  let s := s.effSet
  let gone := (s.dbg.halted.filter (fun h => s.rd F.DBG_EN.EFF &&& h.2 == 0)).map (·.1)
  let s := gone.foldl State.resumeHart s
  match s.dbg.acc with
  | some a => if s.invasive a.ns then s else s.accEnd 3
  | none => s

/-- A secure write of FW_EN; then halts that wait for an enable are taken. -/
def State.fwEn (s : State) (v : Nat) : State :=
  let s := (s.wr F.DBG_EN.FW_EN 0 (bits v 0 4)).enChange
  ((s.harts.filter (fun h => h.2.haltPending)).map (·.1)).foldl State.takeHalt s

/-- DBG_FW_EN_WRITE. -/
def execDbgFwEnWrite (src : Src) (value : Nat) (s : State) : Host.Outcome State Fault Refusal :=
  .next (if isSecure src then s.withReg src .DBG_EN 0 (·.fwEn value) else s)

/-- AUTH_EN is cleared. -/
def State.authClr (s : State) : State := (s.wr F.DBG_EN.AUTH_EN 0 0).enChange

/-- DBG_AUTH_CLR. -/
def execDbgAuthClr (src : Src) (s : State) : Host.Outcome State Fault Refusal :=
  .next (s.withReg src .DBG_EN 0 State.authClr)

/-! ## Authentication (R458, R459, R466) -/

abbrev auNONCE : Nat := 1
abbrev auCHECKING : Nat := 2
abbrev auGRANTED : Nat := 3
abbrev auFAILED : Nat := 4
abbrev auLOCKED : Nat := 5

def State.authState (s : State) : Nat := s.rd F.DBG_AUTH_CTL.STATE

/-- NEW: a fresh nonce is due; ignored while a check runs and once LOCKED. -/
def State.authNew (s : State) : State :=
  if s.authState = auCHECKING || s.authState = auLOCKED then s else { s with dbg := { s.dbg with nonceDue := true } }

def execDbgAuthNew (src : Src) (s : State) : Host.Outcome State Fault Refusal :=
  .next (s.withReg src .DBG_AUTH_CTL 0 State.authNew)

/-- DBG_AUTH_NONCE_READY: the 32 bytes of the random source, and STATE 1. -/
def State.nonceReady (s : State) (nonce : List (BitVec 8)) : State :=
  if !s.dbg.nonceDue || s.authState = auLOCKED || s.authState = auCHECKING then s else
  let s := { s with dbg := { s.dbg with nonceDue := false } }
  ((List.range 4).foldl (fun s k => s.wr F.DBG_AUTH_NONCE.BYTES k (leAt nonce (8 * k) 8)) s).wr F.DBG_AUTH_CTL.STATE 0 auNONCE

def execDbgAuthNonceReady (nonce : List (BitVec 8)) (s : State) : Host.Outcome State Fault Refusal :=
  .next (if s.held || !s.clkOn 74 then s else s.nonceReady nonce)

/-- Bytes of a row of `n` 8-byte registers. -/
def State.regBytes (s : State) (f : Field) (n : Nat) : List (BitVec 8) := (List.range n).flatMap (fun k => natLE 8 (s.rd f k))

/-- A write of DBG_AUTH_CTL: REQ and KEY_SLOT take the data; GO in STATE 1 consumes the nonce and starts the check; NEW
asks for a nonce. -/
def State.authCtl (s : State) (v : Nat) : State :=
  let s := s.wr F.DBG_AUTH_CTL.REQ 0 (bits v 4 4)
  let slot := bits v 8 8
  let s := if F.DBG_AUTH_CTL.KEY_SLOT.enc.ok slot then s.wr F.DBG_AUTH_CTL.KEY_SLOT 0 slot else s
  let s := if v.testBit 1 && s.authState = auNONCE then
      let c := AuthCheck.mk (s.regBytes F.DBG_AUTH_NONCE.BYTES 4) (s.rd F.DBG_AUTH_CTL.REQ) (s.rd F.DBG_AUTH_CTL.KEY_SLOT)
        (s.regBytes F.DBG_AUTH_PUB.BYTES 8) (s.regBytes F.DBG_AUTH_SIG.BYTES 8)
      ({ s with dbg := { s.dbg with check := some c } }).wr F.DBG_AUTH_CTL.STATE 0 auCHECKING
    else s
  if v.testBit 0 then s.authNew else s

/-- DBG_AUTH_GO: a write of DBG_AUTH_CTL with GO. -/
def execDbgAuthGo (src : Src) (value : Nat) (s : State) : Host.Outcome State Fault Refusal :=
  .next (s.withReg src .DBG_AUTH_CTL 0 (·.authCtl value))

/-- The digest a key slot of R437 holds, for a vendor key or a valid, unrevoked owner key. -/
def State.keyDigest (s : State) (slot : Nat) : Option (List (BitVec 8)) :=
  if slot = 255 then some s.fuses.vendorKey
  else if slot < 4 && s.fuses.ownerValid.testBit slot && !s.fuses.ownerRevoked.testBit slot then
    some (Tbl.get s.fuses.ownerKey slot [])
  else none

/-- Does a check pass: the key is the one the slot names, and it signed nonce, serial, REQ and KEY_SLOT? -/
def State.authPass (s : State) (c : AuthCheck) : Bool :=
  s.keyDigest c.slot == some (Config.sm3 c.pub) &&
    Config.sm2Verify c.pub (c.nonce ++ natLE 8 s.fuses.serial ++ natLE 1 c.req ++ natLE 1 c.slot) c.sig

/-- The check grants: AUTH_EN becomes REQ. -/
def State.authGrant (s : State) (c : AuthCheck) : State :=
  let s := ((s.wr F.DBG_EN.AUTH_EN 0 c.req).effSet.wr F.DBG_AUTH_CTL.STATE 0 auGRANTED).inc F.DBG_CNT.GRANTS
  let s := { s with dbg := { s.dbg with lastGrant := some (c.slot, c.req) } }
  let s := (s.note 2 c.slot c.req).raise F.DBG_STATUS.EVT_GRANT
  ((s.harts.filter (fun h => h.2.haltPending)).map (·.1)).foldl State.takeHalt s

/-- The check fails: the eighth failure since cold reset locks authentication. -/
def State.authFail (s : State) (c : AuthCheck) : State :=
  let n := min 8 (s.rd F.DBG_AUTH_CTL.FAILS + 1)
  let s := (s.wr F.DBG_AUTH_CTL.FAILS 0 n).wr F.DBG_AUTH_CTL.STATE 0 (if 8 ≤ n then auLOCKED else auFAILED)
  let s := (s.note 3 c.slot n).raise F.DBG_STATUS.EVT_FAIL
  s.when (8 ≤ n) (·.raise F.DBG_STATUS.EVT_LOCKED)

/-- DBG_AUTH_DONE. -/
def State.authDone (s : State) : State :=
  match s.dbg.check with
  | none => s
  | some c =>
    let s := { s with dbg := { s.dbg with check := none } }
    if s.authPass c then s.authGrant c else s.authFail c

def execDbgAuthDone (s : State) : Host.Outcome State Fault Refusal := .next (if s.held || !s.clkOn 74 then s else s.authDone)

/-! ## Halt and resume (R212, R460) -/

/-- DEBUG_HALT: the request is taken now, or stays pending. -/
def execDebugHalt (core : Nat) (s : State) : Host.Outcome State Fault Refusal :=
  .next (if s.coreThere core && s.rd F.CORE_STATUS.STATE core ≠ 5 then
    (s.setHart core { s.hart core with haltPending := true }).takeHalt core else s)

/-- DEBUG_RESUME. -/
def execDebugResume (core : Nat) (s : State) : Host.Outcome State Fault Refusal :=
  .next (if s.coreThere core then s.resumeHart core else s)

/-! ## DBG_ACC (R461, R465) -/

/-- Power domain a debugger access goes to; none where no block lies at the address. -/
def State.accDom (s : State) (a : Nat) : Option Nat :=
  match regionOf a with
  | .hbm _ | .ddr _ => if s.populated a then some (ctlDom (s.controllerOf (sheetOf a))) else none
  | .guest g => some (98 + g)
  | .regs off => match findReg off regTable with
    | some (r, i) => some (regHome r.reg i)
    | none => none
  | _ => none

/-- Is a power domain that of an absent or fenced die? -/
def State.domAbsent (s : State) (d : Nat) : Bool :=
  (d < 60 && (!s.hw.site (d / 5) || s.fbit F.ALN_SUMMARY.FENCED 0 (d / 5))) ||
  (98 ≤ d && (!s.hw.port (12 + (d - 98)) || s.fbit F.ALN_SUMMARY.FENCED 0 (12 + (d - 98))))

/-- The status decided at GO, if the access cannot proceed, and the state after any wake. -/
def State.accJudge (s : State) (ns wake : Bool) (addr : Nat) : Option Nat × State :=
  if !s.invasive ns then (some 3, s) else
  match s.accDom addr with
  | none => (none, s)
  | some d =>
    if s.domAbsent d then (some 5, s) else
    match s.rd F.PWR_DOM_STATUS.STATE d with
    | 0 => (none, s)
    | st =>
      if !wake then (some st, s)
      else if s.invasive (!s.is F.PWR_DOM_CTL.OWNER_S d) then (none, s.wake d 4)
      else (some st, s.inc F.DBG_CNT.DENIED)

/-- A write of DBG_ACC_CTL: with GO and no access in progress, the access starts; with one, GO is ignored with BUSY. -/
def State.accCtl (s : State) (v : Nat) : State :=
  let s := (s.wr F.DBG_ACC_CTL.WRITE 0 (bits v 1 1)).wr F.DBG_ACC_CTL.NS 0 (bits v 2 1)
  let s := (s.wr F.DBG_ACC_CTL.WAKE 0 (bits v 3 1)).wr F.DBG_ACC_CTL.SIZE 0 (bits v 4 2)
  if !v.testBit 0 then s
  else if s.dbg.acc.isSome then s.wr F.DBG_ACC_CTL.STATUS 0 6
  else
    let addr := s.rd F.DBG_ACC_ADDR.ADDR
    let (st, s) := s.accJudge (v.testBit 2) (v.testBit 3) addr
    let a := DbgAcc.mk (v.testBit 1) (v.testBit 2) (v.testBit 3) (bits v 4 2) addr (s.rd F.DBG_ACC_DATA.DATA) st
    ({ s with dbg := { s.dbg with acc := some a } }).wr F.DBG_ACC_CTL.DONE 0 0

/-- DBG_ACC_GO. -/
def execDbgAccGo (src : Src) (value : Nat) (s : State) : Host.Outcome State Fault Refusal :=
  .next (s.withReg src .DBG_ACC_CTL 0 (·.accCtl value))

end Sys2Proof.Machine
end

