-- ==== Sys2Proof/Machine/Menu.lean ====
section
/-!
DEFINITION. Menu images: their sections, the checks on them, and the image a unit reads back as (R148 to R154).
-/

namespace Sys2Proof.Machine

/-- A section of a menu image (R149). -/
structure Section where
  kind : Nat
  index : Nat
  epoch : Nat
  /-- bytes 1 and 10–15 are zero -/
  clean : Bool
  body : List (BitVec 8)
  deriving DecidableEq, Repr

/-- The sections of an image after its header, as far as they can be told apart; `none` marks a length that runs past the
end. -/
def sectionsOf : Nat → List (BitVec 8) → List (Option Section)
  | 0, _ => []
  | fuel + 1, l =>
    if l.isEmpty then []
    else if l.length < 16 then [none]
    else
      let n := leAt l 4 4
      let x := Section.mk (byteAt l 0) (leAt l 2 2) (leAt l 8 2) (byteAt l 1 == 0 && leAt l 10 6 == 0) ((l.drop 16).take n)
      if l.length < 16 + n then [none] else some x :: sectionsOf fuel (l.drop (16 + n))

/-- The unit that a section writes. -/
def Section.unit (x : Section) : Option Nat :=
  match x.kind with
  | 1 => some 64
  | 2 => if x.index < 64 then some x.index else none
  | 3 => if x.index < 1024 then some (x.index / 16) else if x.index < 1096 then some 64 else none
  | 4 => some 64
  | _ => none

/-- Numbers of `n` bytes at the start of a body. -/
def bodyItems (b : List (BitVec 8)) (off n k : Nat) : List Nat := (List.range k).map (fun i => leAt b (off + n * i) n)

/-- Items as a table without zero entries. -/
def itemTbl (first : Nat) (l : List Nat) : Tbl Nat Nat :=
  (l.zipIdx.map (fun (p : Nat × Nat) => (first + p.2, p.1))).filter (fun (e : Nat × Nat) => e.2 ≠ 0)

/-! ## Encodings (R127, R133, R135, R137, R143) -/

def slotGood (d : Nat) : Bool :=
  bits d 0 4 ≤ 6 && bits d 4 4 == 0 && bits d 56 8 == 0 && (bits d 0 4 != 6 || bits d 20 12 ≤ bits d 8 12 + 31)

def subGood (e : Nat) : Bool := bits e 0 8 ≤ 191 && bits e 12 3 == 0

def condGood (c : Nat) : Bool :=
  bits c 1 3 != 7 && bits c 4 2 != 3 && bits c 14 2 != 3 && condBack c + condAhead c ≤ 15 && bits c 17 7 == 0 && bits c 40 24 == 0 &&
    (bits c 14 2 != 0 || bits c 32 8 == 0) && (bits c 14 2 != 2 || bits c 24 8 ≤ bits c 32 8)

def termGood (t : Nat) : Bool := (t % 2 ^ 64) &&& bits t 64 64 == 0

def entryGood (e : Nat) : Bool := bits e 36 28 == 0

/-- The engine programme of an ENGINE body. -/
def engineBody (p : Prog) (b : List (BitVec 8)) : Prog :=
  { p with termEn := leAt b 0 2, subs := itemTbl 0 (bodyItems b 16 2 256), conds := itemTbl 0 (bodyItems b 528 16 64),
           terms := itemTbl 0 (bodyItems b 1552 16 16) }

/-- Index, length and encodings of one section (R149). -/
def Section.good (x : Section) : Bool :=
  let b := x.body
  x.clean && (match x.kind with
    | 1 => x.index < 192 && b.length == 128 && (bodyItems b 0 8 16).all slotGood
    | 2 => x.index < 64 && b.length == 1808 && leAt b 2 14 == 0 && (bodyItems b 16 2 256).all subGood &&
        (bodyItems b 528 16 64).all condGood && (bodyItems b 1552 16 16).all termGood
    | 3 =>
      let n := b.length / 8
      b.length == 8 * n && n != 0 && (bodyItems b 0 8 n).all entryGood &&
        (if x.index < 1024 then (x.index + n - 1) / 16 == x.index / 16 else x.index + n ≤ 1096)
    | 4 => x.index == 0 && b.length == 32 && leAt b 2 2 ≤ 4096 && (leAt b 2 2 == 0 || leAt b 4 2 != 0) && leAt b 6 2 ≤ 4095 &&
        leAt b 16 16 == 0
    | _ => false)

/-- The items a section writes, as (kind, number) pairs. -/
def Section.items (x : Section) : List (Nat × Nat) :=
  if x.kind = 3 then (List.range (x.body.length / 8)).map (fun k => (3, x.index + k)) else [(x.kind, x.index)]

def noDup : List (Nat × Nat) → Bool
  | [] => true
  | x :: l => !l.contains x && noDup l

/-- Header, CRC and whole-image rules of check 4 (R148, R151). -/
def menuGood (img : List (BitVec 8)) (secs : List (Option Section)) : Bool :=
  let xs := secs.filterMap id
  let zeroed := img.take 12 ++ natLE 4 0 ++ img.drop 16
  let look := ((xs.filter (fun x => x.kind == 2)).map (fun x => (engineBody Prog.init x.body).look)).foldl max 0
  leAt img 0 4 == 0x554E4D54 && byteAt img 4 == 1 && byteAt img 5 ≤ 15 && look ≤ byteAt img 5 && 1 ≤ leAt img 6 2 &&
    leAt img 6 2 ≤ 512 && leAt img 6 2 == secs.length && leAt img 8 4 == img.length && leAt img 12 4 == crc32 zeroed &&
    leAt img 20 44 == 0 && secs.all (·.isSome) && xs.all Section.good && noDup (xs.flatMap Section.items)

/-! ## Writing (R151) -/

/-- A table with the numbers from `first` on replaced. -/
def overwrite (t : Tbl Nat Nat) (first : Nat) (l : List Nat) : Tbl Nat Nat :=
  l.zipIdx.foldl (fun t (p : Nat × Nat) => Tbl.set t (first + p.2) p.1 0) t

/-- A section written over a programme. -/
def Section.write (p : Prog) (x : Section) : Prog :=
  let b := x.body
  match x.kind with
  | 1 => { p with sketch := overwrite p.sketch (16 * x.index) (bodyItems b 0 8 16) }
  | 2 => engineBody p b
  | 3 => { p with entries := overwrite p.entries x.index (bodyItems b 0 8 (b.length / 8)) }
  | _ => { p with deadtime := leAt b 0 2, depth := leAt b 2 2, refill := leAt b 4 2, guestDl := leAt b 6 2,
                  guestDefault := leAt b 8 8 }

/-! ## Reading back (R154) -/

def sectionBytes (kind index epoch : Nat) (body : List (BitVec 8)) : List (BitVec 8) :=
  natLE 1 kind ++ natLE 1 0 ++ natLE 2 index ++ natLE 4 body.length ++ natLE 2 epoch ++ natLE 6 0 ++ body

def engineBytes (p : Prog) : List (BitVec 8) :=
  natLE 2 p.termEn ++ natLE 14 0 ++ (List.range 256).flatMap (fun k => natLE 2 (Tbl.get p.subs k 0)) ++
  (List.range 64).flatMap (fun k => natLE 16 (Tbl.get p.conds k 0)) ++ (List.range 16).flatMap (fun k => natLE 16 (Tbl.get p.terms k 0))

def globalBytes (p : Prog) : List (BitVec 8) :=
  natLE 2 p.deadtime ++ natLE 2 p.depth ++ natLE 2 p.refill ++ natLE 2 p.guestDl ++ natLE 8 p.guestDefault ++ natLE 16 0

/-- The sections of one unit. -/
def unitSections (u epoch : Nat) (p : Prog) : List (List (BitVec 8)) :=
  let entry (i : Nat) : List (BitVec 8) := natLE 8 (Tbl.get p.entries i 0)
  if u < 64 then
    [sectionBytes 2 u epoch (engineBytes p), sectionBytes 3 (16 * u) epoch ((List.range 16).flatMap (fun k => entry (16 * u + k)))]
  else
    (List.range 192).map (fun n => sectionBytes 1 n epoch ((List.range 16).flatMap (fun k => natLE 8 (Tbl.get p.sketch (16 * n + k) 0)))) ++
    [sectionBytes 3 1024 epoch ((List.range 72).flatMap (fun k => entry (1024 + k))), sectionBytes 4 0 epoch (globalBytes p)]

/-- A whole image from its sections. -/
def menuImage (id look : Nat) (secs : List (List (BitVec 8))) : List (BitVec 8) :=
  let body := secs.flatten
  let header (crc : Nat) : List (BitVec 8) :=
    natLE 4 0x554E4D54 ++ natLE 1 1 ++ natLE 1 look ++ natLE 2 secs.length ++ natLE 4 (64 + body.length) ++ natLE 4 crc ++
    natLE 4 id ++ natLE 44 0
  header (crc32 (header 0 ++ body)) ++ body

end Sys2Proof.Machine
end

