-- ==== Sys2Proof/Machine/Trigger.lean ====
section
/-!
DEFINITION. The commands of the trigger path: sketch closing, packet delivery, evaluation, the combiner, and menus (R130 to
R158).
-/

namespace Sys2Proof.Machine

/-- The path works: READY, with the beat running. -/
def State.trgRuns (s : State) : Bool := s.trgReady && s.beatRuns

/-! ## Sketches and packets (R130 to R132) -/

/-- May sketch unit `n` close its next beat? -/
def State.sketchDue (s : State) (n : Nat) : Bool :=
  let t := s.sketchBeat n
  if !s.domOn (82 + n / 24) then t ≤ s.beatNow
  else (t : Int) ≤ s.laneWm n || t + s.rd F.TRG_CFG.CLOSE_MAX ≤ s.beatNow

/-- SKETCH_CLOSE: the unit closes its next beat and sends the packet of its non-zero words; while its lane group's domain
is not ON the packet is empty. -/
def State.sketchClose (s : State) (n : Nat) : State :=
  if !s.sketchDue n then s else
  let t := s.sketchBeat n
  let p := (s.trgUnit 64).progAt t
  let words := if !s.domOn (82 + n / 24) then [] else (List.range 16).filterMap (fun k =>
    let w := slotWord (Tbl.get p.sketch (16 * n + k) 0) (Tbl.get s.trg.acc (n, t, k) 0)
    if w = 0 then none else some (k, w))
  { s with trg := { s.trg with
    packets := s.trg.packets ++ [Packet.mk n t words]
    skNext := Tbl.put s.trg.skNext n (t + 1)
    acc := s.trg.acc.filter (fun e => !(e.1.1 == n && e.1.2.1 == t)) } }

def execSketchClose (n : Nat) (s : State) : Host.Outcome State Fault Refusal :=
  .next (if n < 192 && s.trgRuns then s.sketchClose n else s)

/-- PACKET_DELIVER: the oldest packet of lane `n` reaches the engines. -/
def State.packetDeliver (s : State) (n : Nat) : State :=
  match s.trg.packets.find? (fun p => p.lane == n) with
  | none => s
  | some p => { s with trg := { s.trg with
      packets := s.trg.packets.erase p
      inputs := Tbl.set s.trg.inputs (n, p.beat) p.words []
      inNext := Tbl.put s.trg.inNext n (p.beat + 1) } }

def execPacketDeliver (n : Nat) (s : State) : Host.Outcome State Fault Refusal :=
  .next (if n < 192 && s.trgRuns then s.packetDeliver n else s)

/-! ## Engines (R138) -/

/-- Next beat that engine `e` evaluates. -/
def State.engineBeat (s : State) (e : Nat) : Nat := (Tbl.find s.trg.engNext e).getD s.trg.origin

/-- Holds the engine every packet it needs? -/
def State.engineDue (s : State) (p : Prog) (b : Nat) : Bool :=
  let last := b + p.look
  if p.lanes.isEmpty then last ≤ s.beatNow
  else p.lanes.all (fun n => last < (Tbl.find s.trg.inNext n).getD s.trg.origin)

/-- ENGINE_EVAL. -/
def State.engineEval (s : State) (e : Nat) : State :=
  let b := s.engineBeat e
  match (s.trgUnit e).spanAt b with
  | none => s
  | some sp =>
    if !s.engineDue sp.1.prog b || s.beatNow < b then s else
    let s' := { s with trg := { s.trg with
      terms := Tbl.put s.trg.terms (b, e) (s.termBits e sp b), engNext := Tbl.put s.trg.engNext e (b + 1) } }
    s'.wr F.TRG_UNIT_EVAL.BEAT e b

def execEngineEval (e : Nat) (s : State) : Host.Outcome State Fault Refusal :=
  .next (if e < 64 && s.trgRuns then s.engineEval e else s)

/-! ## The combiner (R141 to R146, R153) -/

/-- GUEST_DEADLINE: the deadline of beat `b` passes without its word; while no site takes part there is none (R359). -/
def State.guestDeadline (s : State) (b : Nat) : State :=
  let p := s.cmbProg b
  if p.guestDl = 0 || s.guestSites.isEmpty || s.beatNow < b + p.guestDl || b < s.trg.cmbNext || s.trg.guestLate.contains b ||
    (Tbl.find s.trg.guestWords b).isSome then s
  else ({ s with trg := { s.trg with guestLate := b :: s.trg.guestLate } }).inc F.TRG_CNT1.GUEST_LATE |>.raise F.TRG_STATUS.EVT_GUEST_LATE

def execGuestDeadline (b : Nat) (s : State) : Host.Outcome State Fault Refusal :=
  .next (if s.trgRuns then s.guestDeadline b else s)

/-- The guest bits of beat `b`, once they are known. -/
def State.guestBits (s : State) (b : Nat) : Option Nat :=
  let p := s.cmbProg b
  if p.guestDl = 0 || s.guestSites.isEmpty || s.trg.guestLate.contains b then some p.guestDefault else Tbl.find s.trg.guestWords b

/-- The term bits of all engines for beat `b`, once they are known. -/
def State.engineBits (s : State) (b : Nat) : Option Nat :=
  (List.range 64).foldl (fun v e => match v, Tbl.find s.trg.terms (b, e) with
    | some v, some t => some (v + t <<< (16 * e))
    | _, _ => none) (some 0)

/-- Unit of trigger bit `i`. -/
def bitUnit (i : Nat) : Nat := if i < 1024 then i / 16 else 64

/-- The combiner entry of trigger bit `i` for beat `b`. -/
def State.bitEntry (s : State) (i b : Nat) : Nat := Tbl.get ((s.trgUnit (bitUnit i)).progAt b).entries i 0

/-- Did a swap of unit `u` start its programme at beat `b`? -/
def State.swappedAt (s : State) (u b : Nat) : Option Span :=
  match (s.trgUnit u).spanAt b with
  | some (sp, _) => if sp.swapped && sp.first = b then some sp else none
  | none => none

/-- What a swap does as the combiner reaches its first beat (R153). -/
def State.swapStart (s : State) (b : Nat) : State :=
  let s := { s with trg := { s.trg with
    prescale := s.trg.prescale.filter (fun e => (s.swappedAt (bitUnit e.1) b).isNone) } }
  match s.swappedAt 64 b with
  | none => s
  | some sp =>
    let d := sp.prog.depth
    s.wr F.TRG_CMB_STATE.LEVEL 0 (if sp.wasDepth = 0 then d else min (s.rd F.TRG_CMB_STATE.LEVEL) d)

/-- One true bit: its counts and prescaler (R143). -/
def State.prescaleBit (s : State) (b i : Nat) : Bool × State :=
  let s := s.inc F.TRG_BIT_CNT.RAW i
  let n := bits (s.bitEntry i b) 0 24
  if n = 0 then (false, s) else
  let k := Tbl.get s.trg.prescale i 0 + 1
  let pass := k == n
  let s := { s with trg := { s.trg with prescale := Tbl.set s.trg.prescale i (if pass then 0 else k) 0 } }
  (pass, if pass then s.inc F.TRG_BIT_CNT.PASS i else s)

/-- The bits that pass, lowest first. -/
def State.prescaleAll (s : State) (b : Nat) : List Nat → List Nat × State
  | [] => ([], s)
  | i :: rest =>
    let (p, s) := s.prescaleBit b i
    let (l, s) := s.prescaleAll b rest
    (if p then i :: l else l, s)

/-- The vetoes of R144 on beat `b`: is it accepted? -/
def State.veto (s : State) (b : Nat) (candidate throttle : Bool) : Bool × State :=
  let p := s.cmbProg b
  let s := if p.depth ≠ 0 && b % p.refill = 0 then
      s.wr F.TRG_CMB_STATE.LEVEL 0 (min p.depth (s.rd F.TRG_CMB_STATE.LEVEL + 1)) else s
  if !candidate then (false, s)
  else if throttle then (false, s.inc F.TRG_VETO0.VETO_THROTTLE)
  else if s.is F.TRG_CMB_STATE.LAST_VALID && b - s.rd F.TRG_LAST_ACC.BEAT ≤ p.deadtime then (false, s.inc F.TRG_VETO0.VETO_DEADTIME)
  else if p.depth ≠ 0 && s.rd F.TRG_CMB_STATE.LEVEL = 0 then (false, s.inc F.TRG_VETO1.VETO_BUCKET)
  else
    let s := ((s.inc F.TRG_VETO1.ACCEPTED).wr F.TRG_LAST_ACC.BEAT 0 b).wr F.TRG_CMB_STATE.LAST_VALID 0 1
    (true, if p.depth ≠ 0 then s.wr F.TRG_CMB_STATE.LEVEL 0 (s.rd F.TRG_CMB_STATE.LEVEL - 1) else s)

/-- The combiner is done with beat `b`. -/
def State.judged (s : State) (b : Nat) : State :=
  let s := { s with
    trg := { s.trg with
      cmbNext := b + 1
      terms := s.trg.terms.filter (fun e => e.1.1 ≠ b)
      inputs := s.trg.inputs.filter (fun e => b < e.1.2 + 16)
      guestWords := Tbl.erase s.trg.guestWords b
      guestLate := s.trg.guestLate.filter (· ≠ b) }
    tio := { s.tio with recs := s.tio.recs.filter (fun e => b < e.1) } }
  s.wr F.TRG_UNIT_EVAL.BEAT 64 b

/-- A throttled beat counts, and its length counts toward the trigger throttle hours (R500): SPB symbols of 4 ns or, in
the 5.0 Gb/s class, 2 ns on the active input (R48, R49). -/
def State.throttleBeat (s : State) : State :=
  let fast := if s.is F.BEAT_STATUS.ACTIVE then s.is F.BEAT_CFG.RATE_B else s.is F.BEAT_CFG.RATE_A
  (s.inc F.TIO_THR_BEATS.BEATS).ledgerTime secThrottle 0 (s.rd F.BEAT_CFG.SPB * (if fast then 2 else 4)) 3600000000000

/-- The beat is judged on its trigger bits. -/
def State.judgeBits (s : State) (b v : Nat) (throttle : Bool) : State :=
  let s := s.swapStart b
  let (pass, s) := s.prescaleAll b ((List.range 1096).filter v.testBit)
  let s := if pass.isEmpty then s else s.inc F.TRG_CNT1.CANDIDATES
  let s := s.wr F.TIO_STATUS.THROTTLE 0 (b2n throttle)
  let s := if throttle then s.throttleBeat else s
  let (ok, s) := s.veto b (!pass.isEmpty) throttle
  let ttype := match pass with
    | i :: _ => bits (s.bitEntry i b) 24 4
    | [] => 0
  let trig := pass.foldl (fun t i => t ||| bits (s.bitEntry i b) 28 8) 0
  let vec := pass.foldl setBit 0
  (if ok then s.decide b true ttype trig vec else s.decide b false 0 0 0).judged b

/-- COMBINER_JUDGE: the next beat is judged once its term, guest and external bits are there. -/
def State.combinerJudge (s : State) : State :=
  let b := s.trg.cmbNext
  let s := s.stencilWord b
  if s.beatNow < b + 1 then s else
  match s.engineBits b, s.guestBits b with
  | some e, some g =>
    let r := Tbl.get s.tio.recs b BeatRec.none
    s.judgeBits b (e + g <<< 1024 + (s.extBits r) <<< 1088) r.throttle
  | _, _ => s

def execCombinerJudge (s : State) : Host.Outcome State Fault Refusal := .next (if s.trgRuns then s.combinerJudge else s)

/-! ## Menus (R151 to R156) -/

def State.trgStale (s : State) (r : Nat) : State := (s.inc F.TRG_CNT0.STALE).finish r csSTALE

def State.trgSpoof (s : State) (r : Nat) : State :=
  (((s.inc F.TRG_CNT0.SPOOF).raise F.TRG_STATUS.EVT_SPOOF).spoof (s.ringSlice r) 4 r).finish r csSPOOF

/-- Check 3 of R151 on one section. -/
def State.sectionMine (s : State) (sl : Nat) (x : Section) : Bool :=
  match x.unit with
  | some u =>
    u < 64 && s.rd F.TRG_UNIT_STATUS.OWNER u == sl && (x.kind != 2 || (bodyItems x.body 16 2 256).all (fun e =>
      !e.testBit 15 || s.slotOwner (16 * bits e 0 8 + bits e 8 4) s.beatNow == sl))
  | none => x.kind != 1 && x.kind != 4

/-- The units that sections name, each once. -/
def sectionUnits (xs : List Section) : List Nat := (List.range 65).filter (fun u => xs.any (fun x => x.unit == some u))

/-- The arm of a load on unit `u`. -/
def State.armUnit (s : State) (u id at' : Nat) (moved : Bool) (xs : List Section) : State :=
  let x := s.trgUnit u
  let p := (xs.filter (fun y => y.unit == some u)).foldl Section.write x.cur.prog
  let s := s.setUnit u { x with shadow := some p }
  let s := ((s.wr F.TRG_UNIT_STATUS.ARMED u 1).wr F.TRG_UNIT_STATUS.MOVED u (b2n moved)).bump F.TRG_UNIT_STATUS.ROLE_EPOCH u
  (s.wr F.TRG_UNIT_SWAP.S u at').wr F.TRG_UNIT_MENU.ARMED_ID u id

/-- TRG_MENU_LOAD. -/
def State.menuLoad (s : State) (r : Nat) : State :=
  let d := s.desc r
  let sl := s.ringSlice r
  let len := dget d 16 4
  if !s.rangeOk sl (dget d 8 8) len then s.trgSpoof r else
  if len < 64 then s.finish r csINVALID else
  match s.cmdRead r 5 (dget d 8 8) len with
  | (.wait, s) => s
  | (.bad st, s) => s.finish r st
  | (.data img bad, s) =>
    let secs := sectionsOf 513 (img.drop 64)
    let xs := secs.filterMap id
    if xs.any (fun x => match x.unit with
      | some u => s.rd F.TRG_UNIT_STATUS.ROLE_EPOCH u ≠ x.epoch
      | none => false) then s.trgStale r
    else if !bad.isEmpty then s.finish r csPOISON
    else if sl ≠ 0 && !xs.all (s.sectionMine sl) then s.trgSpoof r
    else if !menuGood img secs then s.finish r csINVALID
    else
      let want := dget d 24 8
      let least := s.beatNow + s.rd F.TRG_CFG.SWAP_LEAD
      let moved := want < least
      let s := if moved then (s.inc F.TRG_CNT0.SWAP_MOVED).raise F.TRG_STATUS.EVT_SWAP_MOVED else s
      let s := (sectionUnits xs).foldl (fun s u => s.armUnit u (leAt img 16 4) (max want least) moved xs) s
      s.finish r csOK (max want least)

def execTrgMenuLoad (ring : Nat) (s : State) : Host.Outcome State Fault Refusal :=
  .next (if s.trgReady && s.hasCmd ring 0x28 then s.menuLoad ring else s)

/-- TRG_MENU_READ. -/
def State.menuRead (s : State) (r : Nat) : State :=
  let d := s.desc r
  let sl := s.ringSlice r
  let shadow := (byteAt d 20).testBit 0
  let units := (List.range 65).filter (dget d 24 9).testBit
  let progOf (u : Nat) : Option Prog := if shadow then (s.trgUnit u).shadow else some (s.trgUnit u).cur.prog
  if sl ≠ 0 && (units.any (fun u => u = 64 || s.rd F.TRG_UNIT_STATUS.OWNER u ≠ sl) || !s.rangeOk sl (dget d 8 8) (dget d 16 4)) then
    s.trgSpoof r
  else if units.isEmpty || 2 ^ 65 ≤ dget d 24 9 || units.any (fun u => (progOf u).isNone) then s.finish r csINVALID
  else
    let ps := units.filterMap (fun u => (progOf u).map (fun p => (u, p)))
    let look := ((ps.filter (fun p => p.1 < 64)).map (fun p => p.2.look)).foldl max 0
    let id := match units with
      | u :: _ => if shadow then s.rd F.TRG_UNIT_MENU.ARMED_ID u else s.rd F.TRG_UNIT_MENU.ACTIVE_ID u
      | [] => 0
    let img := menuImage id look (ps.flatMap (fun p => unitSections p.1 (s.rd F.TRG_UNIT_STATUS.ROLE_EPOCH p.1) p.2))
    if dget d 16 4 < img.length then s.finish r csSPACE else
    match s.cmdWrite r 5 (dget d 8 8) img with
    | (.wait, s) => s
    | (.bad st, s) => s.finish r st
    | (.done, s) => s.finish r csOK img.length

def execTrgMenuRead (ring : Nat) (s : State) : Host.Outcome State Fault Refusal :=
  .next (if s.trgReady && s.hasCmd ring 0x29 then s.menuRead ring else s)

/-- Subscription entries that a change of slot owners masks, by engine (R156). -/
def State.maskedSubs (s : State) (e : Nat) (old new : Prog) : Nat :=
  let o := s.rd F.TRG_UNIT_STATUS.OWNER e
  if o = 0 then 0 else
  ((s.trgUnit e).cur.prog.subs.filter (fun x =>
    let k := 16 * bits x.2 0 8 + bits x.2 8 4
    x.2.testBit 15 && bits (Tbl.get old.sketch k 0) 48 8 == o && bits (Tbl.get new.sketch k 0) 48 8 != o)).length

/-- Subscriptions newly masked when the combiner changes its program are counted for each unit. -/
def State.maskSubs (s : State) (old new : Prog) : State :=
  (List.range 64).foldl (fun s e =>
    let k := s.maskedSubs e old new
    if k = 0 then s else (s.inc F.TRG_CNT0.SUB_MASKED 0 k).raise F.TRG_UNIT_STATUS.EVT_SUB_MASKED e) s

/-- UNIT_SWAP (R153): at the present beat edge. -/
def State.unitSwap (s : State) (u : Nat) : State :=
  let x := s.trgUnit u
  match x.shadow with
  | none => s
  | some p =>
    if s.beatNow < s.rd F.TRG_UNIT_SWAP.S u then s else
    let c := s.beatNow
    let was := if s.beat.lastLoad = some c then 0 else x.cur.prog.depth
    let old := x.cur.prog
    let s := s.setUnit u (x.begin p c was)
    let s := if u = 64 && s.beat.lastLoad = some c && s.trg.cmbNext = c then s.wr F.TRG_CMB_STATE.LEVEL 0 p.depth else s
    let s := ((s.wr F.TRG_UNIT_STATUS.ARMED u 0).bump F.TRG_UNIT_STATUS.ROLE_EPOCH u).wr F.TRG_UNIT_SWAP.S u 0
    let s := (s.wr F.TRG_UNIT_MENU.ACTIVE_ID u (s.rd F.TRG_UNIT_MENU.ARMED_ID u)).wr F.TRG_UNIT_MENU.ARMED_ID u 0
    let s := s.when (u = 64) (·.maskSubs old p)
    (s.lookStatus).raise F.TRG_UNIT_STATUS.EVT_SWAP u

def execUnitSwap (u : Nat) (s : State) : Host.Outcome State Fault Refusal :=
  .next (if u < 65 && s.trgRuns then s.unitSwap u else s)

/-- TRG_CLEAR_DONE: the path starts at the present beat. -/
def execTrgClearDone (s : State) : Host.Outcome State Fault Refusal :=
  .next (if s.trgLive && !s.held && !s.is F.TRG_STATUS.READY then
      { s with trg := { s.trg with origin := s.beatNow, cmbNext := s.beatNow } }.wr F.TRG_STATUS.READY 0 1 else s)

end Sys2Proof.Machine
end

