-- ==== Sys2Proof/Machine/Guests.lean ====
section
/-!
DEFINITION. The commands of the guest sites and the stencil firewall (R351 to R362).
-/

namespace Sys2Proof.Machine

/-! ## The guest port (R351) -/

/-- Does guest port `g` carry guest-profile messages: its die admitted, and its domain ON and clocked? -/
def State.guestUp (s : State) (g : Nat) : Bool := g < 2 && !s.held && s.dieAdmitted (12 + g) && s.guestLive g

/-- BAD_MSG: a message with an unknown OPC or a field outside its range. -/
def State.badMsg (s : State) (g : Nat) : State := s.inc F.STN_CNT1.BAD_MSG g

def execBadMsg (g : Nat) (s : State) : Host.Outcome State Fault Refusal := .next (if s.guestUp g then s.badMsg g else s)

/-! ## Memory requests (R353 to R356) -/

/-- Do an enabled window's bounds and rights cover the access (R353)? -/
def State.winPass (s : State) (g w : Nat) (write : Bool) (addr len : Nat) : Bool :=
  let i := 8 * g + w
  s.is F.STN_WIN.EN i && s.is (if write then F.STN_WIN.WR else F.STN_WIN.RD) i &&
    s.rd F.STN_WIN.BASE i * 4096 ≤ addr && addr + len ≤ (s.rd F.STN_WIN_LIMIT.LIMIT i + 1) * 4096

/-- Does an access pass the stencil (R353)? -/
def State.stnPass (s : State) (g : Nat) (write : Bool) (addr len : Nat) : Bool :=
  s.is F.STN_CFG.OPEN g && (List.range 8).any (fun w => s.winPass g w write addr len)

/-- A message refused by the stencil is counted. -/
def State.stnDenied (s : State) (g : Nat) : State := (s.inc F.STN_CNT0.DENIED g).raise F.STN_STATUS.EVT_DENIED g

/-- The guest receives a completion that carries no data. -/
def State.guestCpl (s : State) (g tag status : Nat) : State := s.toGuest g (.cpl tag status [])

/-- A request goes on the fabric as a normal-world IO_RD or IO_WR (R355), unless the fabric refuses it (R333). -/
def State.guestIssue (s : State) (g : Nat) (q : GuestReq) : State :=
  match s.fabricCheck false q.addr with
  | .none =>
    s.send (.req { kind := if q.write then .ioWr else .ioRd, line := lineOf q.addr, src := .guest g, tag := none,
                   wr := q.data.zipIdx.map (fun (p : BitVec 8 × Nat) => (q.addr % 128 + p.2, p.1)), wrPoison := false, id := q.tag,
                   off := q.addr % 128, len := q.len })
  | .world => (s.countDenial .world q.addr).guestCpl g q.tag 10
  | d => (s.countDenial d q.addr).guestCpl g q.tag 4

/-- Tokens in the bucket. -/
def State.stnTokens (s : State) (g : Nat) : Nat := s.rd F.STN_RATE.BURST g * 1024 - (s.guest g).spent

/-- The bucket takes `n` bytes of refill. -/
def State.stnRefill (s : State) (g n : Nat) : State :=
  let x := s.guest g
  s.setGuest g { x with spent := x.spent - n }

/-- Tokens are taken for a request, which goes on. -/
def State.stnSpend (s : State) (g : Nat) (q : GuestReq) : State :=
  let x := s.guest g
  (s.setGuest g { x with spent := x.spent + q.len }).guestIssue g q

/-- A request arrives with the bucket refilled by `refill` bytes since the last one (R353, R356). -/
def State.guestReq (s : State) (g : Nat) (q : GuestReq) (refill : Nat) : State :=
  let s := s.stnRefill g refill
  if q.len = 0 || 128 < q.addr % 128 + q.len || 2 ^ 64 ≤ q.addr then s.badMsg g
  else if !s.stnPass g q.write q.addr q.len then (s.stnDenied g).guestCpl g q.tag 4
  else if (s.guest g).waiting.isEmpty && q.len ≤ s.stnTokens g then s.stnSpend g q
  else
    let x := s.guest g
    s.setGuest g { x with waiting := x.waiting ++ [q] }

/-- G_RD: `len` bytes at `addr`. -/
def execGRd (g tag addr len refill : Nat) (s : State) : Host.Outcome State Fault Refusal :=
  .next (if s.guestUp g then
    s.guestReq g { write := false, tag := tag % 65536, addr := addr, data := [], len := len } refill else s)

/-- G_WR: the payload is written at `addr`. -/
def execGWr (g tag addr : Nat) (data : List (BitVec 8)) (refill : Nat) (s : State) : Host.Outcome State Fault Refusal :=
  .next (if s.guestUp g then
    s.guestReq g { write := true, tag := tag % 65536, addr := addr, data := data, len := data.length } refill else s)

/-- STENCIL_TOKEN_GRANT: after a wait of `cycles` hub cycles and `refill` bytes, the oldest waiting request goes on if
there are tokens enough; it is refused if the site has been closed meanwhile. -/
def State.tokenGrant (s : State) (g refill cycles : Nat) : State :=
  let s := s.stnRefill g refill
  match (s.guest g).waiting with
  | [] => s
  | q :: rest =>
    let s := s.inc F.STN_CNT0.THROTTLED g cycles
    if !s.stnPass g q.write q.addr q.len then
      ((s.setGuest g { s.guest g with waiting := rest }).stnDenied g).guestCpl g q.tag 4
    else if s.stnTokens g < q.len then s
    else (s.setGuest g { s.guest g with waiting := rest }).stnSpend g q

def execStencilTokenGrant (g refill cycles : Nat) (s : State) : Host.Outcome State Fault Refusal :=
  .next (if s.guestUp g then s.tokenGrant g refill cycles else s)

/-! ## Trigger bits (R358, R359) -/

/-- G_TRIG. -/
def State.guestTrig (s : State) (g b w : Nat) : State :=
  if !s.is F.STN_CFG.OPEN g || !s.is F.STN_CFG.TRIG_EN g then s
  else if (s.guest g).lastTrig.any (fun l => b ≤ l) || s.beatNow + 4096 < b || s.beforeLoad b then
    (s.inc F.STN_CNT1.TRIG_DROP g).raise F.STN_STATUS.EVT_TRIG_DROP g
  else
    let x := s.guest g
    (s.setGuest g { x with lastTrig := some b, words := Tbl.put x.words b (w % 2 ^ 64) }).stencilWord b

def execGTrig (g b w : Nat) (s : State) : Host.Outcome State Fault Refusal :=
  .next (if s.guestUp g then s.guestTrig g b w else s)

/-! ## Fragments (R185, R360) -/

/-- Does a fragment hold every chunk below its LAST message? -/
def Frag.chunksIn (f : Frag) : Bool :=
  match f.lastChunk with
  | none => false
  | some (off, _) => (List.range (off / 256)).all f.chunks.contains

/-- A message's data enters a guest fragment: data past 65,536 bytes drop it, and mark the fragment CAP. -/
def Frag.take (f : Frag) (off : Nat) (last : Bool) (data : List (BitVec 8)) : Frag :=
  if 65536 < 256 * off + data.length then { f with flags := f.flags ||| 4 } else
  let f := { f with
    guest := data.zipIdx.foldl (fun t (p : BitVec 8 × Nat) => Tbl.put t (256 * off + p.2) p.1) f.guest
    chunks := off :: f.chunks
    lastChunk := if last then some (256 * off, data.length) else f.lastChunk }
  if f.chunksIn then f.finish 0 0 false false else f

/-- The context under assembly that a guest message names. -/
def State.fragEvent (s : State) (g evn : Nat) : Option (Nat × Event) :=
  s.evb.events.find? (fun e => e.2.stage == EvStage.assembling && e.2.acc.evn == evn &&
    e.2.frags.any (fun f => f.source == 256 + g && !f.complete))

/-- G_FRAG. -/
def State.guestFrag (s : State) (g evn off : Nat) (last : Bool) (data : List (BitVec 8)) : State :=
  if data.isEmpty || 256 < data.length || 65536 ≤ off then s.badMsg g
  else if !s.is F.STN_CFG.OPEN g then s.stnDenied g
  else if !s.is F.STN_CFG.FRAG_EN g || !s.evbLive then s
  else match s.fragEvent g evn with
    | none => (s.inc F.EVB_CNT2.GUEST_STALE).raise F.EVB_STATUS.EVT_GUEST_STALE
    | some (c, e) =>
      let s := if 65536 < 256 * off + data.length then s.inc F.STN_CNT1.FRAG_OVF g else s
      let e := { e with frags := e.frags.map (fun (f : Frag) => if f.source = 256 + g then f.take off last data else f) }
      ((s.setEvent c e).readyCheck c).evbSettle

def execGFrag (g evn off : Nat) (last : Bool) (data : List (BitVec 8)) (s : State) : Host.Outcome State Fault Refusal :=
  .next (if s.guestUp g then s.guestFrag g evn off last data else s)

/-! ## Core accesses to a guest (R357) -/

/-- G_CPL: completes the core access of its TAG; a status other than OK is a load access fault. -/
def State.guestDone (s : State) (g tag status : Nat) (data : List (BitVec 8)) : State :=
  let x := s.guest g
  match x.access.find? (fun a => a.tag == tag) with
  | none => s.badMsg g
  | some a =>
    let s := s.setGuest g { x with access := x.access.filter (fun b => b.tag ≠ tag) }
    if a.write then s else s.ioDone a.core (if status = 0 then some data else none)

def execGCpl (g tag status : Nat) (data : List (BitVec 8)) (s : State) : Host.Outcome State Fault Refusal :=
  .next (if s.guestUp g then s.guestDone g tag status data else s)

/-- GUEST_ACCESS_TIMEOUT: 10 µs without G_CPL. -/
def State.guestTimeout (s : State) (g tag : Nat) : State :=
  let x := s.guest g
  match x.access.find? (fun a => a.tag == tag) with
  | none => s
  | some a =>
    if a.late then s else
    let s := (s.inc F.STN_CNT1.TMO g).raise F.STN_STATUS.EVT_TMO g
    if a.write then
      s.setGuest g { s.guest g with access := x.access.map (fun (b : GuestAccess) => if b.tag = tag then { b with late := true } else b) }
    else
      (s.setGuest g { s.guest g with access := x.access.filter (fun b => b.tag ≠ tag) }).ioDone a.core none

def execGuestAccessTimeout (g tag : Nat) (s : State) : Host.Outcome State Fault Refusal :=
  .next (if g < 2 && !s.held then s.guestTimeout g tag else s)

/-! ## Ticks (R352) -/

/-- GUEST_TICK: H_TICK, at the edge of a beat whose count is a multiple of 2^TICKDIV. -/
def execGuestTick (g : Nat) (s : State) : Host.Outcome State Fault Refusal :=
  .next (if s.guestUp g && s.beatRuns && s.beatNow % 2 ^ s.rd F.STN_CFG.TICKDIV g = 0 then
    s.toGuest g (.tick s.beatNow) else s)

/-! ## Windows (R354) -/

/-- Does a page range lie wholly in the populated HBM, or wholly in the populated DDR5? -/
def State.winFits (s : State) (base limit : Nat) : Bool :=
  base ≤ limit && (limit < s.hw.hbmPlates * 2 ^ 18 ||
    (2 ^ 30 ≤ base && limit < 2 ^ 30 + s.ddrPlates * 2 ^ 18))

/-- A secure write of STN_WIN: BASE is kept while EN = 1, and a window that would leave populated memory is not enabled. -/
def State.winWrite (s : State) (g w v : Nat) : State :=
  let i := 8 * g + w
  let put (s : State) : State := (s.wr F.STN_WIN.RD i (bits v 1 1)).wr F.STN_WIN.WR i (bits v 2 1)
  let base := if s.is F.STN_WIN.EN i then s.rd F.STN_WIN.BASE i else bits v 12 34
  if v.testBit 0 && !s.winFits base (s.rd F.STN_WIN_LIMIT.LIMIT i) then s.raise F.STN_STATUS.EVT_REFUSED g
  else ((put s).wr F.STN_WIN.BASE i base).wr F.STN_WIN.EN i (v % 2)

/-- A secure write of STN_WIN_LIMIT, ignored while the window has EN = 1. -/
def State.winLimit (s : State) (i v : Nat) : State :=
  if s.is F.STN_WIN.EN i then s else s.wr F.STN_WIN_LIMIT.LIMIT i (bits v 12 34)

/-- STN_WIN_ENABLE. -/
def execStnWinEnable (src : Src) (g w value : Nat) (s : State) : Host.Outcome State Fault Refusal :=
  .next (if isSecure src && g < 2 && w < 8 then s.withReg src .STN_WIN (8 * g + w) (·.winWrite g w value) else s)

end Sys2Proof.Machine
end

