-- ==== Sys2Proof/Machine/Memory.lean ====
section
/-!
DEFINITION. The commands of the memory controllers: sheet reads and writes, die corrections, the burnisher, watermarks,
plate strengths and the walks (R325 to R350).
-/

namespace Sys2Proof.Machine

/-- Instances of a one-bit field, reset 0, that are set. -/
def State.setIdx (s : State) (f : Field) : List Nat :=
  s.regs.filterMap (fun e => if e.1.reg = f.reg ∧ e.1.lo = f.lo ∧ e.2 ≠ 0 then some e.1.idx else none)

/-- Populated controllers of a memory: HBM or DDR5. -/
def State.controllers (s : State) (ddr : Bool) : List Nat :=
  idxWhere 16 (fun c => (8 ≤ c) == ddr && s.ctlPopulated c)

/-- An event bit is set on every populated controller of a memory (R343). -/
def State.memEvent (s : State) (ddr : Bool) (f : Field) : State := (s.controllers ddr).foldl (fun s c => s.raise f c) s

/-! ## Sheets (R338, R341) -/

/-- SHEET_READ: the controller serves the oldest request for the sheet when it is a read. -/
def execSheetRead (n : Nat) (s : State) : Host.Outcome State Fault Refusal :=
  .next (if s.held then s else
    match s.mem.queue.find? (fun q => q.sheet == n) with
    | some q => if q.write then s else s.memServe n
    | none => s)

/-- SHEET_WRITE: the same for a write. -/
def execSheetWrite (n : Nat) (s : State) : Host.Outcome State Fault Refusal :=
  .next (if s.held then s else
    match s.mem.queue.find? (fun q => q.sheet == n) with
    | some q => if q.write then s.memServe n else s
    | none => s)

/-! ## Die corrections (R339, R340) -/

/-- The die's decoder applies R338 to a raw sheet, delivers the line, and reports to the controller. -/
def State.rawDecode (s : State) (r : RawSheet) : State :=
  let n := r.req.sheet
  let sh := decodeSheet r.t n r.data r.code
  let s := { s with mem := { s.mem with raw := s.mem.raw.erase r } }
  let s := match r.req.dst with
    | .cluster c => s.fillFrom r.req c sh
    | _ => s
  let rep := match sh.out with
    | .ue => DieReport.ue r.die n false
    | .addr => DieReport.ue r.die n true
    | _ => DieReport.writeBack r.die n sh.data
  { s with mem := { s.mem with reports := s.mem.reports ++ [rep] } }

/-- RAW_SHEET_DECODE. -/
def execRawSheetDecode (die n : Nat) (s : State) : Host.Outcome State Fault Refusal :=
  .next (match s.mem.raw.find? (fun r => r.die == die && r.req.sheet == n) with
    | some r => if s.held || !s.domOn (uncoreDom die) then s else s.rawDecode r
    | none => s)

/-- A die's correction reaches the controller: with its entry pending it is re-encoded with the sheet's markers, written
and counted, and the entry is freed; otherwise it is dropped. -/
def State.corrWrite (s : State) (die n data : Nat) : State :=
  let c := s.controllerOf n
  match (s.corrOf c).find? (fun e => e.sheet == n && e.die == die) with
  | none => s
  | some e =>
    let sh := decodeSheet (s.strengthOf n) n e.data e.code
    let s := s.setCorr c ((s.corrOf c).erase e)
    (s.countOutcome n .corrected).putSheet n data sh.lower sh.upper

/-- CORRECTION_WRITEBACK. -/
def execCorrectionWriteback (n die : Nat) (s : State) : Host.Outcome State Fault Refusal :=
  .next (match s.mem.reports.find? (fun r => match r with
      | .writeBack d m _ => d == die && m == n
      | .ue .. => false) with
    | some (.writeBack d m data) =>
      if s.held || !s.domOn (ctlDom (s.controllerOf n)) then s else
      ({ s with mem := { s.mem with reports := s.mem.reports.erase (.writeBack d m data) } }).corrWrite die n data
    | _ => s)

/-- UE_REPORT: the outcome counts and the entry is freed. -/
def execUeReport (n die : Nat) (s : State) : Host.Outcome State Fault Refusal :=
  .next (match s.mem.reports.find? (fun r => match r with
      | .ue d m _ => d == die && m == n
      | .writeBack .. => false) with
    | some (.ue d m addr) =>
      if s.held || !s.domOn (ctlDom (s.controllerOf n)) then s else
      let s := { s with mem := { s.mem with reports := s.mem.reports.erase (.ue d m addr) } }
      let c := s.controllerOf n
      if (s.corrOf c).any (fun e => e.sheet == n && e.die == die) then
        (s.setCorr c ((s.corrOf c).eraseP (fun e => e.sheet == n && e.die == die))).countOutcome n (if addr then .addr else .ue)
      else s
    | _ => s)

/-- CORRECTION_TIMEOUT. -/
def execCorrectionTimeout (n die : Nat) (s : State) : Host.Outcome State Fault Refusal :=
  .next (match (s.corrOf (s.controllerOf n)).find? (fun e => e.sheet == n && e.die == die) with
    | some e => if s.held || !s.domOn (ctlDom (s.controllerOf n)) then s else s.hubCorrect e
    | none => s)

/-! ## The burnisher (R344) -/

/-- Sheet index at a controller sheet index: R328 and R330 read backwards. -/
def State.sheetAt (s : State) (c l : Nat) : Nat :=
  if c < 8 then
    let pc := l % 32
    let loc := l / 32
    match s.hw.sites with
    | .h4 =>
      let k := [1, 2, 5, 6].idxOf c
      loc * 2 ^ 7 + (pc ^^^ bits loc 10 5) * 4 + (k ^^^ bits loc 8 2)
    | _ => loc * 2 ^ 8 + (pc ^^^ bits loc 10 5) * 8 + (c ^^^ bits loc 7 3)
  else
    let j := log2k s.ddrChannels
    2 ^ 34 + l * 2 ^ j + ((c - 8) ^^^ bits l (15 - j) j)

/-- Sheets of a controller's memory. -/
def State.ctlSheets (s : State) (c : Nat) : Nat := if c < 8 then 24 * 2 ^ 22 else s.rd F.MEM_DDR_CFG.DIMM_GIB * 2 ^ 22

/-- The burnisher reads its next sheet. -/
def State.burnish (s : State) (c : Nat) : State :=
  let l := s.rd F.MEM_BURN_PTR.LOCAL c
  let s := (s.hubRead (s.sheetAt c l)).2
  if l + 1 < s.ctlSheets c then s.wr F.MEM_BURN_PTR.LOCAL c (l + 1)
  else ((s.wr F.MEM_BURN_PTR.LOCAL c 0).inc F.MEM_BURN_PTR.PASSES c).raise F.MEM_CTL_STATUS.EVT_WALK c

/-- BURNISH_READ. -/
def execBurnishRead (c : Nat) (s : State) : Host.Outcome State Fault Refusal :=
  .next (if s.held || !s.is F.MEM_BURN_CFG.EN || !s.ctlPopulated c || !s.domOn (ctlDom c) then s else s.burnish c)

/-! ## Watermarks (R331, R332) -/

/-- Does a byte range touch a plate that a raise from the present watermarks to `h`, `d` makes secure? -/
def State.inRaise (s : State) (h d pa len : Nat) : Bool :=
  len != 0 && (platesOf pa len).any (fun a => match regionOf a with
    | .hbm p => s.rd F.MEM_WM.HBM_WM ≤ p && p < h
    | .ddr q => s.rd F.MEM_WM.DDR_WM ≤ q && q < d
    | _ => false)

/-- Is a unit of R332 enabled in a plate that the raise would make secure? -/
def State.raiseBlocked (s : State) (h d : Nat) : Bool :=
  let hit := s.inRaise h d
  (s.setIdx F.EVB_HIST_CFG.EN).any (fun n => hit (s.rd F.EVB_HIST_BASE.BASE n * 2 ^ 20) (2 ^ s.rd F.EVB_HIST_CFG.SIZE n)) ||
  (s.setIdx F.EVB_POOL_CFG.EN).any (fun p =>
    hit (s.rd F.EVB_POOL_BASE.BASE p * 2 ^ 30) (s.rd F.EVB_POOL_CFG.PLATES p * 2 ^ 30)) ||
  (s.setIdx F.EVB_EVQ_CFG.EN).any (fun q => hit (s.rd F.EVB_EVQ_BASE.BASE q) (32 * 2 ^ s.rd F.EVB_EVQ_CFG.QSIZE q)) ||
  (s.setIdx F.HIF_RING_CFG.EN).any (fun r =>
    hit (s.rd F.HIF_RING_SQ.BASE r * 2 ^ 10) (64 * 2 ^ s.rd F.HIF_RING_CFG.SQ_LOG r) ||
    hit (s.rd F.HIF_RING_CQ.BASE r * 2 ^ 9) (32 * 2 ^ s.rd F.HIF_RING_CFG.CQ_LOG r)) ||
  ((List.range (h - s.rd F.MEM_WM.HBM_WM)).any (fun k => s.ownerH (s.rd F.MEM_WM.HBM_WM + k) != 0)) ||
  ((List.range (d - s.rd F.MEM_WM.DDR_WM)).any (fun k => s.ownerD (s.rd F.MEM_WM.DDR_WM + k) != 0))

/-- The secure fields of a MEM_WM write: a watermark above its populated count is reserved and keeps its value. -/
def State.wmSecure (s : State) (v : Nat) : State :=
  let lock := s.is F.MEM_WM.LOCK
  let oldH := s.rd F.MEM_WM.HBM_WM
  let oldD := s.rd F.MEM_WM.DDR_WM
  let h := if lock || s.hw.hbmPlates < bits v 0 8 then oldH else bits v 0 8
  let d := if lock || s.ddrPlates < bits v 8 12 then oldD else bits v 8 12
  if s.raiseBlocked h d then (s.wr F.MEM_WM.WM_REFUSED 0 1).when (s.ctlPopulated 0) (·.raise F.MEM_CTL_STATUS.EVT_MISC 0)
  else
    let s := (s.wr F.MEM_WM.HBM_WM 0 (max h oldH)).wr F.MEM_WM.DDR_WM 0 (max d oldD)
    let s := if v.testBit 31 then s.wr F.MEM_WM.LOCK 0 1 else s
    if h < oldH || d < oldD then
      ({ s with mem := { s.mem with wmReq := some (h, d) } }).wr F.MEM_WM.WM_BUSY 0 1
    else s

/-- A write of MEM_WM (R332): ignored while a lowering runs. -/
def State.wmWrite (s : State) (src : Src) (v : Nat) : State :=
  if s.is F.MEM_WM.WM_BUSY then s else
  let s := if v.testBit 33 then s.wr F.MEM_WM.WM_REFUSED 0 0 else s
  if isSecure src then s.wmSecure v else s

/-- MEM_WM_WRITE. -/
def execMemWmWrite (src : Src) (value : Nat) (s : State) : Host.Outcome State Fault Refusal :=
  .next (s.withReg src .MEM_WM 0 (·.wmWrite src value))

/-- The lowering's walk has zeroed the released plates: the requested watermarks apply (R332). -/
def State.wmDone (s : State) : State :=
  match s.mem.wmReq with
  | none => s
  | some (h, d) =>
    let oldH := s.rd F.MEM_WM.HBM_WM
    let oldD := s.rd F.MEM_WM.DDR_WM
    let s := s.memZero (h * 2 ^ 30) ((oldH - h) * 2 ^ 30)
    let s := s.memZero (2 ^ 42 + d * 2 ^ 30) ((oldD - d) * 2 ^ 30)
    let s := ({ s with mem := { s.mem with wmReq := none } }).wr F.MEM_WM.WM_BUSY 0 0
    let s := (s.wr F.MEM_WM.HBM_WM 0 h).wr F.MEM_WM.DDR_WM 0 d
    let s := s.when (h < oldH) (·.memEvent false F.MEM_CTL_STATUS.EVT_WALK)
    s.when (d < oldD) (·.memEvent true F.MEM_CTL_STATUS.EVT_WALK)

/-- WM_WALK_DONE. -/
def execWmWalkDone (s : State) : Host.Outcome State Fault Refusal :=
  .next (if s.held then s else s.wmDone)

/-! ## Plate strength (R337, R345) -/

/-- The fields of a plate's configuration register in HBM or DDR5. -/
def plateT (ddr : Bool) : Field := if ddr then F.MEM_PLATE_CFG_D.T else F.MEM_PLATE_CFG_H.T
def plateTOld (ddr : Bool) : Field := if ddr then F.MEM_PLATE_CFG_D.T_OLD else F.MEM_PLATE_CFG_H.T_OLD
def plateRecode (ddr : Bool) : Field := if ddr then F.MEM_PLATE_CFG_D.RECODE else F.MEM_PLATE_CFG_H.RECODE
def plateRefused (ddr : Bool) : Field := if ddr then F.MEM_PLATE_CFG_D.T_REFUSED else F.MEM_PLATE_CFG_H.T_REFUSED

/-- A secure write of T: refused during a recode of the memory or out of range; another value starts a recode. -/
def State.tWrite (s : State) (ddr : Bool) (p t : Nat) : State :=
  let m := b2n ddr
  if s.is F.MEM_RECODE.ACTIVE m || t = 0 || (if ddr then 24 else 12) < t then
    (s.wr (plateRefused ddr) p 1).memEvent ddr F.MEM_CTL_STATUS.EVT_MISC
  else if t = s.rd (plateT ddr) p then s
  else
    let s := (s.wr (plateTOld ddr) p (s.rd (plateT ddr) p)).wr (plateT ddr) p t
    let s := (s.wr (plateRecode ddr) p 1).wr F.MEM_RECODE.PLATE m p
    (s.wr F.MEM_RECODE.ACTIVE m 1).wr F.MEM_RECODE.POINTER m 0

/-- PLATE_T_WRITE: a write of MEM_PLATE_CFG. -/
def execPlateTWrite (src : Src) (ddr : Bool) (p value : Nat) (s : State) : Host.Outcome State Fault Refusal :=
  .next (if (if ddr then 2048 else 192) ≤ p then s else
    s.withReg src (if ddr then .MEM_PLATE_CFG_D else .MEM_PLATE_CFG_H) p (fun s =>
      let s := if value.testBit 14 then s.wr (plateRefused ddr) p 0 else s
      if isSecure src then s.tWrite ddr p (bits value 0 5) else s))

/-- One sheet is rewritten under the plate's new strength: a UE or ADDR sheet keeps its data as decoded, both lines
marked. -/
def State.recodeSheet (s : State) (n : Nat) : State :=
  if s.walking n then s else
  let sh := decodeSheet (s.strengthOf n) n (s.memNat (256 * n) 256) (s.codeOf n)
  (s.countOutcome n sh.out).putSheet n sh.data sh.lower sh.upper

/-- The recode walk of memory `m` has rewritten the plate: sheets whose code is clean decode to themselves. -/
def State.recodeDone (s : State) (ddr : Bool) : State :=
  let m := b2n ddr
  if !s.is F.MEM_RECODE.ACTIVE m then s else
  let p := s.rd F.MEM_RECODE.PLATE m
  let first := (if ddr then 2 ^ 34 else 0) + p * 2 ^ 22
  let todo := (s.mem.code.map (·.1)).filter (fun n => first + s.rd F.MEM_RECODE.POINTER m ≤ n && n < first + 2 ^ 22)
  let s := todo.foldl State.recodeSheet s
  let s := (s.wr (plateRecode ddr) p 0).wr (plateTOld ddr) p (s.rd (plateT ddr) p)
  let s := ((s.wr F.MEM_RECODE.PLATE m 0).wr F.MEM_RECODE.ACTIVE m 0).wr F.MEM_RECODE.POINTER m 0
  s.memEvent ddr F.MEM_CTL_STATUS.EVT_WALK

/-- RECODE_DONE: memory 0 is HBM, 1 is DDR5. -/
def execRecodeDone (m : Nat) (s : State) : Host.Outcome State Fault Refusal :=
  .next (if s.held then s else if m < 2 then s.recodeDone (m == 1) else s)

/-! ## Initialisation walks (R348) -/

/-- Every sheet of controller `c` now holds zero data and a valid code. -/
def State.initDone (s : State) (c : Nat) : State :=
  let s := { s with mem := { s.mem with
    initWalk := s.mem.initWalk.filter (· ≠ c)
    cells := s.mem.cells.filter (fun x => s.controllerOf (sheetOf x.1) ≠ c)
    code := s.mem.code.filter (fun x => s.controllerOf x.1 ≠ c) } }
  (s.wr F.MEM_CTL_STATUS.INIT_DONE c 1).raise F.MEM_CTL_STATUS.EVT_WALK c

/-- INIT_WALK_DONE. -/
def execInitWalkDone (c : Nat) (s : State) : Host.Outcome State Fault Refusal :=
  .next (if !s.held && s.mem.initWalk.contains c && s.domOn (ctlDom c) then s.initDone c else s)

end Sys2Proof.Machine
end

