-- ==== Sys2Proof/Machine/Contexts.lean ====
section
/-!
DEFINITION. The commands of the context store (R106 to R126, R408, R413).
-/

namespace Sys2Proof.Machine

def execCtxClearDone (s : State) : Host.Outcome State Fault Refusal :=
  .next (if s.ctxLive && !s.held then s.wr F.CTX_STATUS.READY 0 1 else s)

/-! ## Lookups (R94, R109, R113, R123) -/

/-- Lane `n`'s oldest waiting hit for bank `b`. -/
def State.bankHit (s : State) (n b : Nat) : Option WaitHit :=
  if s.laneUp n then (s.lane n).backlog.find? (fun h => ctxBank h.channel == b) else none

/-- A frame's slot takes its result. -/
def State.fillSlot (s : State) (n : Nat) (h : WaitHit) (v : HitSlot) : State :=
  let x := s.lane n
  let put (f : StagedFrame) : StagedFrame :=
    if f.id = h.frame then { f with hits := f.hits.zipIdx.map (fun (p : HitSlot × Nat) => if p.2 = h.slot then v else p.1) } else f
  (s.setLane n { x with frames := x.frames.map put }).frameSettle n h.frame

/-- A waiting hit is looked up, calibrated, and goes to the sketch unit and to history. -/
def State.lookup (s : State) (n : Nat) (h : WaitHit) : State :=
  let x := s.lane n
  let late := match x.frames.find? (fun f => f.id == h.frame) with
    | some f => f.late
    | none => false
  let s := s.setLane n { x with backlog := x.backlog.erase h }
  let ready := s.is F.CTX_STATUS.READY
  let c := if ready then s.ctxView h.channel h.beat else 0
  let s := if ready && s.staleView h.channel h.beat then (s.inc F.CTX_CNT0.STALE_VIEW).raise F.CTX_STATUS.EVT_STALE else s
  if !cxValid c || cxLane c ≠ n then (s.inc F.LANE_HITS_DROP.UNBOUND n).fillSlot n h .gone
  else
    let (cal, sat) := calibrate c h.amp
    if !survives c cal then (s.inc F.LANE_HITS_SUPP.SUPP n).fillSlot n h .gone
    else
      let s := s.inc F.LANE_HITS_OUT.HITS_OUT n
      let s := if cxNoSketch c || late then s else s.foldHit n h.beat cal (cxWeight c) (cxGroup c)
      s.fillSlot n h (if cxNoHist c then .gone else .record (calHit c h.channel h.beat h.fine cal sat))

/-- CTX_LOOKUP: one grant of bank `b`; every lane that asked and did not win waits a store cycle. -/
def State.bankGrant (s : State) (b : Nat) : State :=
  if !s.ctxLive || s.held then s else
  let asks := (List.range 192).filter (fun n => (s.bankHit n b).isSome)
  match rotGrant 193 (Tbl.get s.ctx.bankPtr b 0) (fun n => asks.contains n) with
  | none => s
  | some n => match s.bankHit n b with
    | none => s
    | some h =>
      let s := { s with ctx := { s.ctx with bankPtr := Tbl.set s.ctx.bankPtr b (rotNext 193 n) 0 } }
      (s.inc F.CTX_BANK_WAIT.WAIT 0 (asks.length - 1)).lookup n h

def execCtxLookup (bank : Nat) (s : State) : Host.Outcome State Fault Refusal := .next (s.bankGrant bank)

/-! ## Images (R118) -/

/-- Form, first channel, entry count and slot of a context descriptor (R408). -/
def cdN (d : List (BitVec 8)) : Nat := dget d 16 4
def cdForm (d : List (BitVec 8)) : Nat := dget d 20 1
def cdFirst (d : List (BitVec 8)) : Nat := dget d 24 4 % 2 ^ 20
def cdSlot (d : List (BitVec 8)) : Nat := dget d 28 1
def cdEpoch (d : List (BitVec 8)) : Nat := dget d 30 2
def cdF (d : List (BitVec 8)) : Nat := dget d 32 8

/-- Bytes of the image a descriptor names. -/
def cdImageLen (op : Nat) (d : List (BitVec 8)) : Nat :=
  if op = 0x25 then (if cdForm d = 0 then 0 else 4 * cdN d)
  else if cdForm d = 0 then 16 * cdN d else 32 * cdN d

/-- Channels and contexts that an image names, in order. -/
def cdEntries (d img : List (BitVec 8)) : List (Nat × Nat) :=
  (List.range (cdN d)).map (fun k =>
    if cdForm d = 0 then (cdFirst d + k, leAt img (16 * k) 16)
    else (leAt img (32 * k + 16) 4 % 2 ^ 20, leAt img (32 * k) 16))

/-- Are the bits that an image's form leaves zero zero, and its channels in range (R118)? -/
def cdImageGood (d img : List (BitVec 8)) : Bool :=
  if cdForm d = 0 then cdFirst d + cdN d ≤ 2 ^ 20
  else (List.range (cdN d)).all (fun k => leAt img (32 * k + 16) 16 < 2 ^ 20)

/-- The later record of a channel wins: the entries without those a later one overwrites. -/
def lastWins : List (Nat × Nat) → List (Nat × Nat)
  | [] => []
  | e :: l => if l.any (fun x => x.1 == e.1) then lastWins l else e :: lastWins l

/-- Does the channel lie in the slice's context ranges (R420)?  The manager passes. -/
def State.chanOk (s : State) (sl ch : Nat) : Bool :=
  sl == 0 || (List.range 16).any (fun k =>
    let i := 16 * sl + k
    s.rd F.HIF_SLICE_CHAN.FIRST i ≤ ch && ch < s.rd F.HIF_SLICE_CHAN.FIRST i + s.rd F.HIF_SLICE_CHAN.COUNT i)

/-! ## Command endings (R119) -/

def State.ctxStale (s : State) (r : Nat) : State := (s.inc F.CTX_CNT1.STALE).finish r csSTALE

def State.ctxSpoof (s : State) (r : Nat) : State :=
  (((s.inc F.CTX_CNT0.SPOOF).raise F.CTX_STATUS.EVT_SPOOF).spoof (s.ringSlice r) 3 r).finish r csSPOOF

/-- RESULT1 of a slot command (R413). -/
def State.slotResult (s : State) (k : Nat) : Nat := k + (s.rd F.CTX_EPOCH.ROLE_EPOCH k) <<< 16

/-- A context command takes a FREE slot for slice `sl`. -/
def State.slotTake (s : State) (sl : Nat) : Option (Nat × State) :=
  match (List.range 64).find? (fun k => s.slotState k == ceFREE) with
  | none => none
  | some k => some (k, ((s.wr F.CTX_EPOCH.STATE k ceOPEN).bump F.CTX_EPOCH.ROLE_EPOCH k).wr F.CTX_EPOCH.OWNER k sl)

/-- Entries go into a slot; a channel already there is overwritten in place (R117). -/
def State.slotAdd (s : State) (k sl : Nat) (es : List (Nat × Nat)) : State :=
  let keep := s.ctx.overlay.filter (fun e => !(e.slot == k && es.any (fun x => x.1 == e.channel)))
  let add := es.map (fun (x : Nat × Nat) => OvlEntry.mk k x.1 (cxStored x.2 sl))
  ({ s with ctx := { s.ctx with overlay := keep ++ add } }).ovlStatus

/-- Has every overlay bank room for the entries that are new to slot `k`? -/
def State.ovlRoom (s : State) (k : Option Nat) (es : List (Nat × Nat)) : Bool :=
  let new := es.filter (fun x => !s.ctx.overlay.any (fun e => some e.slot == k && e.channel == x.1))
  (List.range 128).all (fun b =>
    (s.ctx.overlay.filter (fun e => ctxBank e.channel = b)).length + (new.filter (fun x => ctxBank x.1 = b)).length ≤ 512)

/-- A slot is armed at beat `f`, moved forward where it is too close (R120). -/
def State.slotArm (s : State) (k f : Nat) : State :=
  let least := s.beatNow + s.rd F.CTX_CFG.FLIP_LEAD
  let s := if f < least then
      ((s.wr F.CTX_EPOCH.FLIP_MOVED k 1).inc F.CTX_CNT0.FLIP_MOVED).raise F.CTX_STATUS.EVT_FLIP_MOVED
    else s.wr F.CTX_EPOCH.FLIP_MOVED k 0
  let s := (s.wr F.CTX_EPOCH.STATE k ceARMED).wr F.CTX_EPOCH_BEAT.F k (max f least)
  let s := { s with ctx := { s.ctx with armCounter := s.ctx.armCounter + 1 } }
  s.setAux k (SlotAux.mk s.ctx.armCounter 0)

/-- The base rows of a CTX_LOAD. -/
def State.baseWrite (s : State) (sl : Nat) (es : List (Nat × Nat)) : State :=
  es.foldl (fun s x => { s with ctx := { s.ctx with
    base := Tbl.set s.ctx.base x.1 (cxStored x.2 sl) 0, merged := Tbl.erase s.ctx.merged x.1 } }) s

/-! ## The commands (R117 to R121) -/

/-- The epoch check of a command that names a slot: INVALID for a slot number that does not exist, STALE_EPOCH for another
role epoch. -/
def State.slotCheck (s : State) (r k : Nat) : Option State :=
  if 64 ≤ k then some (s.finish r csINVALID)
  else if cdEpoch (s.desc r) ≠ s.rd F.CTX_EPOCH.ROLE_EPOCH k then some (s.ctxStale r)
  else none

/-- Does the slot belong to the issuer? -/
def State.slotMine (s : State) (r k : Nat) : Bool := s.ringSlice r == 0 || s.rd F.CTX_EPOCH.OWNER k == s.ringSlice r

/-- The bytes of the image of a command of class 2, read from memory unless its form is malformed. -/
def State.ctxBytes (s : State) (r op maxN : Nat) : Except State (List (BitVec 8) × State) :=
  let d := s.desc r
  let len := cdImageLen op d
  if maxN < cdN d || 1 < cdForm d || len = 0 then .ok ([], s) else
  match s.cmdRead r 5 (dget d 8 8) len with
  | (.wait, s) => .error s
  | (.bad st, s) => .error (s.finish r st)
  | (.data b bad, s) => if bad.isEmpty then .ok (b, s) else .error (s.finish r csPOISON)

/-- The image of a context command, with checks 2 and 3 on it: the entries, or the state in which the command waits or has
ended. -/
def State.ctxImage (s : State) (r op : Nat) (slot : Option Nat) (maxN : Nat) : Except State (List (Nat × Nat) × State) :=
  let d := s.desc r
  let sl := s.ringSlice r
  match s.ctxBytes r op maxN with
  | .error s => .error s
  | .ok (b, s) =>
    let formGood := cdN d != 0 && cdN d ≤ maxN && cdForm d ≤ 1 && (cdForm d == 0 || cdFirst d == 0)
    let es := if formGood then cdEntries d b else []
    let mine := match slot with
      | some k => s.slotMine r k
      | none => true
    if !(es.all (fun x => s.chanOk sl x.1) && mine) then .error (s.ctxSpoof r)
    else if !formGood || !cdImageGood d b || es.any (fun x => !cxGood x.2) then .error (s.finish r csINVALID)
    else .ok (es, s)

/-- The image address of a slice other than the manager is tested first (R119, R399). -/
def State.ctxPlace (s : State) (r op : Nat) : Bool :=
  s.rangeOk (s.ringSlice r) (dget (s.desc r) 8 8) (cdImageLen op (s.desc r))

/-- CTX_LOAD. -/
def State.ctxLoad (s : State) (r : Nat) : State :=
  if !s.ctxPlace r 0x20 then s.ctxSpoof r else
  match s.ctxImage r 0x20 none (2 ^ 20) with
  | .error s => s
  | .ok (es, s) =>
    let es := lastWins es
    if es.any (fun x => s.ctx.overlay.any (fun e => e.channel == x.1)) then s.finish r csBUSY
    else (s.baseWrite (s.ringSlice r) es).finish r csOK (cdN (s.desc r))

/-- CTX_STAGE. -/
def State.ctxStage (s : State) (r : Nat) : State :=
  if !s.ctxPlace r 0x21 then s.ctxSpoof r else
  let sl := s.ringSlice r
  let k := cdSlot (s.desc r)
  if k = 0xFF then
    match s.ctxImage r 0x21 none 65536 with
    | .error s => s
    | .ok (es, s) =>
      let es := lastWins es
      if cdEpoch (s.desc r) ≠ 0 then s.finish r csINVALID
      else if !s.ovlRoom none es then s.finish r csSPACE
      else match s.slotTake sl with
        | none => s.finish r csSPACE
        | some (k, s) =>
          let s := s.slotAdd k sl es
          s.finish r csOK 0 (s.slotResult k)
  else match s.slotCheck r k with
    | some s => s
    | none => match s.ctxImage r 0x21 (some k) 65536 with
      | .error s => s
      | .ok (es, s) =>
        let es := lastWins es
        if s.slotState k ≠ ceOPEN then s.finish r csINVALID
        else if !s.ovlRoom (some k) es then s.finish r csSPACE
        else
          let s := s.slotAdd k sl es
          s.finish r csOK 0 (s.slotResult k)

/-- CTX_FLIP. -/
def State.ctxFlip (s : State) (r : Nat) : State :=
  let k := cdSlot (s.desc r)
  match s.slotCheck r k with
  | some s => s
  | none =>
    if !s.slotMine r k then s.ctxSpoof r
    else if s.slotState k ≠ ceOPEN then s.finish r csINVALID
    else
      let s := (s.slotArm k (cdF (s.desc r))).ovlStatus
      s.finish r csOK (s.slotF k) (s.slotResult k)

/-- CTX_STAGE_FLIP. -/
def State.ctxStageFlip (s : State) (r : Nat) : State :=
  if !s.ctxPlace r 0x23 then s.ctxSpoof r else
  let sl := s.ringSlice r
  match s.ctxImage r 0x23 none 65536 with
  | .error s => s
  | .ok (es, s) =>
    let es := lastWins es
    if !s.ovlRoom none es then s.finish r csSPACE
    else match s.slotTake sl with
      | none => s.finish r csSPACE
      | some (k, s) =>
        let s := (s.slotAdd k sl es).slotArm k (cdF (s.desc r))
        s.finish r csOK (s.slotF k) (s.slotResult k)

/-- CTX_CANCEL: the flip wins a coincidence (R121). -/
def State.ctxCancel (s : State) (r : Nat) : State :=
  let k := cdSlot (s.desc r)
  match s.slotCheck r k with
  | some s => s
  | none =>
    if !s.slotMine r k then s.ctxSpoof r
    else if s.slotState k = ceFREE then s.finish r csINVALID
    else if ceLIVE ≤ s.slotState k || (s.slotState k = ceARMED && s.slotF k ≤ s.beatNow) then s.finish r csBUSY
    else
      let s := s.slotFree k
      s.finish r csOK 0 (s.slotResult k)

/-- CTX_READ: the view at the present count of each channel, 16 bytes each. -/
def State.ctxRead (s : State) (r : Nat) : State :=
  let d := s.desc r
  let sl := s.ringSlice r
  let n := cdN d
  if !(s.ctxPlace r 0x25 && s.rangeOk sl (cdF d) (16 * n)) then s.ctxSpoof r
  else if n = 0 || 65536 < n || 1 < cdForm d || (cdForm d = 0 && 2 ^ 20 < cdFirst d + n) || (cdForm d = 1 && cdFirst d ≠ 0) then
    s.finish r csINVALID
  else
    let write (chans : List Nat) (s : State) : State :=
      if !chans.all (fun ch => s.chanOk sl ch) then s.ctxSpoof r
      else match s.cmdWrite r 5 (cdF d) (chans.flatMap (fun ch => natLE 16 (s.ctxView ch s.beatNow))) with
        | (.wait, s) => s
        | (.bad st, s) => s.finish r st
        | (.done, s) => s.finish r csOK n
    if cdForm d = 0 then write ((List.range n).map (cdFirst d + ·)) s else
    match s.cmdRead r 5 (dget d 8 8) (4 * n) with
    | (.wait, s) => s
    | (.bad st, s) => s.finish r st
    | (.data b bad, s) =>
      if !bad.isEmpty then s.finish r csPOISON else
      let chans := (List.range n).map (fun k => leAt b (4 * k) 4)
      if chans.any (2 ^ 20 ≤ ·) then s.finish r csINVALID else write chans s

/-- A context command runs once the store is READY (R125). -/
def State.ctxCmd (s : State) (r op : Nat) (f : State → State) : State := if s.ctxReady && s.hasCmd r op then f s else s

def execCtxLoad (ring : Nat) (s : State) : Host.Outcome State Fault Refusal := .next (s.ctxCmd ring 0x20 (·.ctxLoad ring))
def execCtxStage (ring : Nat) (s : State) : Host.Outcome State Fault Refusal := .next (s.ctxCmd ring 0x21 (·.ctxStage ring))
def execCtxFlip (ring : Nat) (s : State) : Host.Outcome State Fault Refusal := .next (s.ctxCmd ring 0x22 (·.ctxFlip ring))
def execCtxStageFlip (ring : Nat) (s : State) : Host.Outcome State Fault Refusal :=
  .next (s.ctxCmd ring 0x23 (·.ctxStageFlip ring))
def execCtxCancel (ring : Nat) (s : State) : Host.Outcome State Fault Refusal := .next (s.ctxCmd ring 0x24 (·.ctxCancel ring))
def execCtxRead (ring : Nat) (s : State) : Host.Outcome State Fault Refusal := .next (s.ctxCmd ring 0x25 (·.ctxRead ring))

/-! ## Flips and merges (R116, R122) -/

/-- EPOCH_FLIP: an ARMED slot whose beat the count has reached goes LIVE at this beat edge. -/
def State.epochFlip (s : State) (k : Nat) : State :=
  if s.slotState k ≠ ceARMED || s.beatNow < s.slotF k then s else
  let s := (s.wr F.CTX_EPOCH.STATE k ceLIVE).setAux k { s.slotAux k with flipEdge := s.beat.edges }
  (s.inc F.CTX_CNT1.FLIPS).raise F.CTX_STATUS.EVT_FLIP

def execEpochFlip (slot : Nat) (s : State) : Host.Outcome State Fault Refusal :=
  .next (if slot < 64 && s.ctxReady && s.beatRuns then s.epochFlip slot else s)

/-- MERGE_START: MERGE_HOLD beat edges after its flip, with no slot before it in merge order still LIVE or MERGING. -/
def State.mergeStart (s : State) (k : Nat) : State :=
  if s.slotState k ≠ ceLIVE || s.beat.edges < (s.slotAux k).flipEdge + s.rd F.CTX_CFG.MERGE_HOLD ||
    (List.range 64).any (fun j => ceLIVE ≤ s.slotState j && j ≠ k && s.mergesBefore j k) then s
  else
    let s := s.wr F.CTX_EPOCH.STATE k ceMERGING
    if s.ctx.overlay.any (fun e => e.slot == k) then s else s.slotFree k

def execMergeStart (slot : Nat) (s : State) : Host.Outcome State Fault Refusal :=
  .next (if slot < 64 && s.ctxReady && s.beatRuns then s.mergeStart slot else s)

/-- The entry that bank `b` merges next: of the MERGING slot first in merge order, the lowest channel. -/
def State.mergeNext (s : State) (b : Nat) : Option OvlEntry :=
  (s.ctx.overlay.filter (fun e => ctxBank e.channel = b && s.slotState e.slot = ceMERGING)).foldl (fun o e => match o with
    | none => some e
    | some x =>
      if s.mergesBefore e.slot x.slot || (e.slot = x.slot && e.channel < x.channel) then some e else some x) none

/-- MERGE_WRITE: in a reserved store cycle bank `b` copies one entry to its base row; lanes that asked wait. -/
def State.mergeWrite (s : State) (b : Nat) : State :=
  match s.mergeNext b with
  | none => s
  | some e =>
    let asks := (List.range 192).filter (fun n => (s.bankHit n b).isSome)
    let s := s.inc F.CTX_BANK_WAIT.WAIT 0 asks.length
    let s := { s with ctx := { s.ctx with
      base := Tbl.set s.ctx.base e.channel (if cxValid e.ctx then e.ctx else 0) 0
      merged := Tbl.put s.ctx.merged e.channel (s.slotF e.slot)
      overlay := s.ctx.overlay.erase e } }
    if s.ctx.overlay.any (fun x => x.slot == e.slot) then s.ovlStatus else s.slotFree e.slot

def execMergeWrite (bank : Nat) (s : State) : Host.Outcome State Fault Refusal :=
  .next (if s.ctxReady then s.mergeWrite bank else s)

end Sys2Proof.Machine
end

