-- ==== Sys2Proof/Machine/Proofs.lean ====
section
/-!
DEFINITION. The commands of proofs: the proof instructions, the arbiter's messages, and the time limits (R263 to R293).
-/

namespace Sys2Proof.Machine

/-! ## Opening (R264, R266 to R268) -/

/-- The checkpoint a proof records, with its resume point. -/
def Hart.checkpoint (h : Hart) (pc : Nat) : Checkpoint :=
  { x := h.x, f := h.f, v := h.v, fcsr := h.csrv 0x003, vstart := h.csrv 0x008, vxrm := h.csrv 0x00A, vxsat := h.csrv 0x009,
    vl := h.csrv 0xC20, vtype := h.csrv 0xC21, pc := pc }

/-- A fresh timestamp: the hart's copy of the fabric time, which is at most 2 fabric cycles behind (R266). -/
def State.freshStamp (s : State) : Nat × State :=
  let (lag, s) := s.free 3
  (s.rd F.CKR_FTIME.FTIME - lag, s)

/-- A begin timestamp: that of the last aborted proof where R267 says so, else a fresh one. -/
def State.stamp (s : State) (k : Nat) : Nat × State :=
  let cause := s.csr k 0x5C0 % 256
  match (s.hart k).lastTs with
  | some t => if cause = 1 || cause = 8 then (t, s) else s.freshStamp
  | none => s.freshStamp

/-- A proof opens at depth 1: its checkpoint is taken, and rd reads 0.  With the L2 disabled it aborts at once (R254). -/
def State.openProof (s : State) (k pc rd ts decider : Nat) (group : Option Nat) : State :=
  let h := s.hart k
  let p : Proof := { depth := 1, group := group, timestamp := ts, decider := decider, openRd := rd,
                     ckpt := h.checkpoint (pc + 4), reads := [], writes := [], doorbells := [], sealing := false,
                     deferring := false, committing := false }
  let s := (s.setHart k { h.setX rd 0 with proof := some p }).wr F.CORE_STATUS.PRF_OPEN k 1
  let s := (s.retire k (pc + 4)).perf k 0x000C
  if s.l2On (clusterOf k) then s else s.proofAbort k 2 0 0

/-- A value is written to rd and the instruction retires. -/
def State.prfRd (s : State) (k pc rd v : Nat) : State := (s.setHart k ((s.hart k).setX rd v)).retire k (pc + 4)

/-- PRF.BEGIN. -/
def State.prfBegin (s : State) (k pc rd : Nat) : State :=
  match (s.hart k).proof with
  | some p =>
    if p.depth = 7 then s.proofAbort k 2 0 0
    else (s.onProof k (fun p => { p with depth := p.depth + 1 })).prfRd k pc rd 0
  | none =>
    let (empty, s) := s.drainAll k
    if !empty then s else
    let (ts, s) := s.stamp k
    s.openProof k pc rd ts k none

def execPrfBegin (core pc rd : Nat) (s : State) : Host.Outcome State Fault Refusal :=
  .next (s.issue core pc (·.prfBegin core pc rd))

/-! ## The arbiter's door (R290, R293) -/

/-- Where a proof-control message finds the arbiter: at work, OFF, or to be waited for, which wakes it from RET. -/
inductive ArbDoor where
  | ready | off | wait
  deriving DecidableEq, Repr

def State.arbDoor (s : State) : ArbDoor × State :=
  match s.rd F.PWR_DOM_STATUS.STATE 69 with
  | 0 => (if s.is F.PRF_STATUS.READY then .ready else .wait, s)
  | 1 => (.wait, s.wake 69 5)
  | _ => (.off, s)

/-! ## Groups (R278 to R283) -/

/-- Slice whose quota a core's group counts against: the secure world counts as slice 0 (R282). -/
def State.grpSlice (s : State) (k : Nat) : Nat := if s.ns k then bits (s.csr k 0x7C0) 8 8 else 0

/-- OVER_QUOTA of a slice clears once USED is below LIMIT (R282, R425). -/
def State.grpSettle (s : State) (sl : Nat) : State :=
  if s.is F.PRF_SLICE_GRP.OVER_QUOTA sl && s.rd F.PRF_SLICE_GRP.USED sl < s.rd F.PRF_SLICE_GRP.LIMIT sl then
    (s.wr F.PRF_SLICE_GRP.OVER_QUOTA sl 0).wr F.HIF_SLICE_STATUS.OVER_GRP sl 0
  else s

/-- A new LIMIT of a slice (R282, R424, R425). -/
def State.grpLimit (s : State) (sl v : Nat) : State :=
  let s := s.wr F.PRF_SLICE_GRP.LIMIT sl v
  if v < s.rd F.PRF_SLICE_GRP.USED sl then
    if s.is F.PRF_SLICE_GRP.OVER_QUOTA sl then s else
    let s := ((s.wr F.PRF_SLICE_GRP.OVER_QUOTA sl 1).raise F.PRF_STATUS.EVT_QUOTA).wr F.HIF_SLICE_STATUS.OVER_GRP sl 1
    s.raise F.HIF_SLICE_STATUS.EVT_QUOTA sl
  else s.grpSettle sl

/-- A group goes from FREE to OPEN for an allocating core (R278, R280, R281). -/
def State.groupOpen (s : State) (g k expect ts : Nat) : State :=
  let sl := s.grpSlice k
  let s := ((s.wr F.PRF_GRP_STATUS.STATE g gsOPEN).bump F.PRF_GRP_STATUS.ROLE_EPOCH g).wr F.PRF_GRP_STATUS.NS g (b2n (s.ns k))
  let s := (s.wr F.PRF_GRP_STATUS.SLICE g (bits (s.csr k 0x7C0) 8 8)).wr F.PRF_GRP_STATUS.EXPECT g expect
  let s := (s.wr F.PRF_GRP_STATUS.JOINED g 0).wr F.PRF_GRP_STATUS.SEALED g 0
  let s := (s.wr F.PRF_GRP_INFO.ALLOC_CORE g k).wr F.PRF_GRP_INFO.DB_HELD g 0
  let s := (s.wr F.PRF_SLICE_GRP.USED sl (s.rd F.PRF_SLICE_GRP.USED sl + 1)).wr F.PRF_STATUS.GROUPS_USED 0
    (s.rd F.PRF_STATUS.GROUPS_USED + 1)
  { s with groups := Tbl.put s.groups g { timestamp := ts, allocCore := k, joined := [], sealed := [], doorbells := [],
                                          acks := [], aborts := [] } }

/-- A group returns to FREE. -/
def State.groupFree (s : State) (g : Nat) : State :=
  let sl := if s.is F.PRF_GRP_STATUS.NS g then s.rd F.PRF_GRP_STATUS.SLICE g else 0
  let s := (s.wr F.PRF_GRP_STATUS.STATE g gsFREE).bump F.PRF_GRP_STATUS.ROLE_EPOCH g
  let s := (s.wr F.PRF_SLICE_GRP.USED sl (s.rd F.PRF_SLICE_GRP.USED sl - 1)).wr F.PRF_STATUS.GROUPS_USED 0
    (s.rd F.PRF_STATUS.GROUPS_USED - 1)
  ({ s with groups := Tbl.erase s.groups g }).grpSettle sl

/-- The handle of a group (R281). -/
def State.handleOf (s : State) (g : Nat) : Nat := g + s.rd F.PRF_GRP_STATUS.ROLE_EPOCH g <<< 12 + 1 <<< 63

/-- PRF.GROUP. -/
def State.prfGroup (s : State) (k pc rd rs1 : Nat) : State :=
  let v := (Tbl.get (s.hart k).x (rs1 % 32) 0).toNat
  if !s.domOn 69 then s.arbDoor.2.prfRd k pc rd 4 else
  match s.arbDoor with
  | (.ready, s) =>
    let sl := s.grpSlice k
    if v = 0 || 64 < v then s.prfRd k pc rd 2
    else if s.rd F.PRF_SLICE_GRP.LIMIT sl ≤ s.rd F.PRF_SLICE_GRP.USED sl then (s.inc F.PRF_CNT2.QUOTA).prfRd k pc rd 3
    else match (List.range 4096).find? (fun g => s.groupState g == gsFREE) with
      | none => s.prfRd k pc rd 1
      | some g =>
        let (ts, s) := s.stamp k
        let s := s.groupOpen g k v ts
        s.prfRd k pc rd (s.handleOf g)
  | (_, s) => s

def execPrfGroup (core pc rd rs1 : Nat) (s : State) : Host.Outcome State Fault Refusal :=
  .next (s.issue core pc (·.prfGroup core pc rd rs1))

/-- The code with which the arbiter refuses a join, in the order of R283. -/
def State.joinRefusal (s : State) (k handle : Nat) : Option Nat :=
  let g := bits handle 0 12
  if !handle.testBit 63 || bits handle 12 16 ≠ s.rd F.PRF_GRP_STATUS.ROLE_EPOCH g then some 0x101
  else if b2n (s.ns k) ≠ s.rd F.PRF_GRP_STATUS.NS g || bits (s.csr k 0x7C0) 8 8 ≠ s.rd F.PRF_GRP_STATUS.SLICE g then some 0x103
  else if s.groupState g = gsABORTING then some 8
  else if s.groupState g ≠ gsOPEN then some 0x105
  else if s.rd F.PRF_GRP_STATUS.EXPECT g ≤ s.rd F.PRF_GRP_STATUS.JOINED g then some 0x102
  else none

/-- A refused join is counted where R283 says so. -/
def State.joinCount (s : State) (code : Nat) : State :=
  if code = 0x101 then (s.inc F.PRF_CNT2.STALE).raise F.PRF_STATUS.EVT_STALE
  else if code = 0x103 then (s.inc F.PRF_CNT2.DENIED).raise F.PRF_STATUS.EVT_DENIED
  else s

/-- A join is accepted. -/
def State.joinGroup (s : State) (k pc rd g : Nat) : State :=
  match Tbl.find s.groups g with
  | none => s
  | some x =>
    let s := { s with groups := Tbl.put s.groups g { x with joined := x.joined ++ [k] } }
    (s.inc F.PRF_GRP_STATUS.JOINED g).openProof k pc rd x.timestamp x.allocCore (some g)

/-- PRF.JOIN. -/
def State.prfJoin (s : State) (k pc rd rs1 : Nat) : State :=
  if s.inProof k then s.prfRd k pc rd 0x104 else
  let handle := (Tbl.get (s.hart k).x (rs1 % 32) 0).toNat
  match s.arbDoor with
  | (.off, s) => s.prfRd k pc rd 0x101
  | (.wait, s) => s
  | (.ready, s) =>
    match s.joinRefusal k handle with
    | some code => (s.joinCount code).prfRd k pc rd code
    | none =>
      let (empty, s) := s.drainAll k
      if empty then s.joinGroup k pc rd (bits handle 0 12) else s

def execPrfJoin (core pc rd rs1 : Nat) (s : State) : Host.Outcome State Fault Refusal :=
  .next (s.issue core pc (·.prfJoin core pc rd rs1))

/-! ## Held doorbells (R285) -/

/-- A doorbell of the window is written to its target on behalf of the core that stored it. -/
def State.releaseDb (s : State) (d : HeldDb) : State :=
  let off := d.addr - 0x0F0000000000
  let s := if off < 0x7D0000 then s.doorbell (.proof d.core ((off - 0x7C0000) / 8)) ((off / 4) % 2 == 1) d.value
    else s.queueDb (.proof d.core ((off - 0x7D0000) / 4)) d.value
  s.inc F.PRF_CNT3.DB_RELEASED

def State.releaseDbs (s : State) (l : List HeldDb) : State := l.foldl State.releaseDb s

/-! ## Sealing (R269, R284) -/

/-- A single-core proof commits: its bits clear, then its doorbells go out, and the seal retires. -/
def State.commitSingle (s : State) (k pc rd : Nat) (p : Proof) : State :=
  let s := (s.clearProof k).releaseDbs p.doorbells
  ((s.inc F.PRF_CNT1.SINGLE_COMMITS).prfRd k pc rd 0).perf k 0x000E

/-- PRF.SEAL at depth 1, once the merging buffer is empty. -/
def State.sealDrained (s : State) (k pc rd : Nat) : State :=
  match (s.hart k).proof with
  | none => s
  | some p =>
    match p.group with
    | none => s.commitSingle k pc rd p
    | some _ => (s.onProof k (fun p => { p with sealing := true })).setHart k
        (((s.onProof k (fun p => { p with sealing := true })).hart k).setX rd 0)

/-- PRF.SEAL. -/
def State.prfSeal (s : State) (k pc rd : Nat) : State :=
  match (s.hart k).proof with
  | none => s.prfRd k pc rd 0x106
  | some p =>
    if 1 < p.depth then (s.onProof k (fun p => { p with depth := p.depth - 1 })).prfRd k pc rd 0
    else
      let (empty, s) := s.drainAll k
      if empty then s.sealDrained k pc rd else s

def execPrfSeal (core pc rd : Nat) (s : State) : Host.Outcome State Fault Refusal :=
  .next (s.issue core pc (·.prfSeal core pc rd))

/-- PRF.ABORT: code 0 is a reserved encoding (R263); with no proof open it has no effect. -/
def State.prfAbort (s : State) (k pc imm : Nat) : State :=
  if imm % 256 = 0 then s.illegal k pc
  else if s.inProof k then s.proofAbort k 7 0 (imm % 256)
  else s.retire k (pc + 4)

def execPrfAbort (core pc imm : Nat) (s : State) : Host.Outcome State Fault Refusal :=
  .next (s.issue core pc (·.prfAbort core pc imm))

/-- The state word of R265. -/
def Hart.prfWord (h : Hart) : Nat :=
  match h.proof with
  | none => 0
  | some p => p.depth + b2n p.group.isSome <<< 3 + b2n p.sealing <<< 4 + b2n p.deferring <<< 5 + (p.writes.length % 2048) <<< 16 +
      (p.group.getD 0) <<< 32

def execPrfTest (core pc rd : Nat) (s : State) : Host.Outcome State Fault Refusal :=
  .next (s.issue core pc (fun s => s.prfRd core pc rd (s.hart core).prfWord))

/-- A message reaches the arbiter: `f` if it is at work; in RET it is woken, and otherwise the message waits. -/
def State.atArbiter (s : State) (f : State → State) : State :=
  if s.held then s else
  match s.arbDoor with
  | (.ready, s) => f s
  | (_, s) => s

/-- SEAL_MESSAGE: the EXPECT-th seal with no abort pending is the commit point, from which no participant can abort. -/
def State.sealArrive (s : State) (g k : Nat) : State :=
  match Tbl.find s.groups g with
  | none => s
  | some x =>
    if s.groupState g ≠ gsOPEN || x.sealed.contains k || !(s.hart k).proof.any (fun p => p.group == some g && p.sealing) then s else
    let x := { x with sealed := x.sealed ++ [k] }
    let s := ({ s with groups := Tbl.put s.groups g x }).inc F.PRF_GRP_STATUS.SEALED g
    if s.rd F.PRF_GRP_STATUS.SEALED g < s.rd F.PRF_GRP_STATUS.EXPECT g || !x.aborts.isEmpty then s else
    let s := { s with groups := Tbl.put s.groups g { x with acks := x.joined } }
    x.joined.foldl (fun s j => s.onProof j (fun p => { p with committing := true })) (s.wr F.PRF_GRP_STATUS.STATE g gsCOMMITTING)

def execSealMessage (g core : Nat) (s : State) : Host.Outcome State Fault Refusal := .next (s.atArbiter (·.sealArrive g core))

/-- GROUP_COMMIT: the commit reaches the L2 of a participant, whose seal retires. -/
def State.groupCommit (s : State) (g k : Nat) : State :=
  if s.groupState g ≠ gsCOMMITTING || !(s.hart k).proof.any (fun p => p.group == some g && p.committing) then s else
  ((s.clearProof k).retire k ((s.hart k).pc + 4)).perf k 0x000E

def execGroupCommit (g core : Nat) (s : State) : Host.Outcome State Fault Refusal :=
  .next (if s.held then s else s.groupCommit g core)

/-- GROUP_COMMIT_ACK: after the last acknowledgement the held doorbells go out and the group is free. -/
def State.commitAck (s : State) (g k : Nat) : State :=
  match Tbl.find s.groups g with
  | none => s
  | some x =>
    if s.groupState g ≠ gsCOMMITTING || (s.hart k).proof.any (fun p => p.group == some g) then s else
    let x := { x with acks := x.acks.filter (· ≠ k) }
    let s := { s with groups := Tbl.put s.groups g x }
    if !x.acks.isEmpty then s else
    ((s.releaseDbs x.doorbells).wr F.PRF_GRP_INFO.DB_HELD g 0).inc F.PRF_CNT0.GROUP_COMMITS |>.groupFree g

def execGroupCommitAck (g core : Nat) (s : State) : Host.Outcome State Fault Refusal := .next (s.atArbiter (·.commitAck g core))

/-- PARTICIPANT_ABORT: the abort of core `k` reaches the arbiter. -/
def State.partAbort (s : State) (g k : Nat) : State :=
  match Tbl.find s.groups g with
  | none => s
  | some x =>
    match x.aborts.find? (fun a => a.1 == k) with
    | none => s
    | some a =>
      let s := { s with groups := Tbl.put s.groups g { x with aborts := x.aborts.erase a } }
      s.groupAbort g k a.2 8

def execParticipantAbort (g core : Nat) (s : State) : Host.Outcome State Fault Refusal := .next (s.atArbiter (·.partAbort g core))

/-- GROUP_ABORT_DONE: every joined participant has rolled back. -/
def State.abortDone (s : State) (g : Nat) : State :=
  match Tbl.find s.groups g with
  | none => s
  | some x =>
    if s.groupState g ≠ gsABORTING || x.joined.any (fun k => (s.hart k).proof.any (fun p => p.group == some g)) then s
    else s.groupFree g

def execGroupAbortDone (g : Nat) (s : State) : Host.Outcome State Fault Refusal := .next (s.atArbiter (·.abortDone g))

/-- GROUP_TIMEOUT: GROUP_TMO expires before COMMITTING; no core started the abort. -/
def State.groupTimeout (s : State) (g : Nat) : State :=
  if s.groupState g ≠ gsOPEN then s else
  ((s.inc F.PRF_CNT2.TIMEOUTS).raise F.PRF_STATUS.EVT_TIMEOUT).groupAbort g (s.rd F.PRF_GRP_INFO.LAST_ABORT_CORE g) 8 8

def execGroupTimeout (g : Nat) (s : State) : Host.Outcome State Fault Refusal :=
  .next (if g < 4096 then s.atArbiter (·.groupTimeout g) else s)

/-! ## Limits on holding and deferring (R274, R287) -/

/-- SNOOP_HOLD_TIMEOUT: the holders short of their commit point abort. -/
def State.holdTimeout (s : State) (c line : Nat) : State :=
  let ks := ((s.l2c c).held.filter (fun h => h.line == line)).flatMap (·.holders)
  ks.eraseDups.foldl (fun s k => if (s.hart k).proof.any (fun p => !p.committing) then s.proofAbort k 1 line 0 else s) s

def execSnoopHoldTimeout (c line : Nat) (s : State) : Host.Outcome State Fault Refusal :=
  .next (if s.held || !s.clusterLive c then s else s.holdTimeout c line)

/-- DEFER_BUDGET_EXPIRE. -/
def execDeferBudgetExpire (core : Nat) (s : State) : Host.Outcome State Fault Refusal :=
  .next (if s.coreThere core && (s.hart core).proof.any (fun p => p.deferring && !p.committing) then
    s.proofAbort core 4 0 0 else s)

/-- PRF_CLEAR_DONE (R293). -/
def execPrfClearDone (s : State) : Host.Outcome State Fault Refusal :=
  .next (if s.domOn 69 && !s.held && !s.is F.PRF_STATUS.READY then s.wr F.PRF_STATUS.READY 0 1 else s)

end Sys2Proof.Machine
end

