-- ==== Sys2Proof/Machine/StippleCode.lean ====
section
/-!
DEFINITION. Stipple coding of one block, stipple frames, and the datagrams that carry them, as pure functions (R295 to
R308, R313 to R315, R321).
-/

namespace Sys2Proof.Machine

/-! ## Job parameters (R306) -/

/-- Sample width W. -/
def jobW (d : List (BitVec 8)) : Nat := 8 + byteAt d 20 % 16
def jobSigned (d : List (BitVec 8)) : Bool := (byteAt d 20).testBit 4
/-- Code width Q. -/
def jobQ (d : List (BitVec 8)) : Nat := byteAt d 21 % 16
def jobBounded (d : List (BitVec 8)) : Bool := (byteAt d 21).testBit 4
/-- DEST = 1: Ethernet. -/
def jobEth (d : List (BitVec 8)) : Bool := (byteAt d 21).testBit 5
def jobNsamp (d : List (BitVec 8)) : Nat := dget d 16 4
/-- Bytes of a sample container. -/
def jobUnit (d : List (BitVec 8)) : Nat := if jobW d = 8 then 1 else 2
def jobBlocks (d : List (BitVec 8)) : Nat := (jobNsamp d + 1023) / 1024
/-- Slot bytes (R295). -/
def slotBytes (q : Nat) : Nat := 32 + 128 * q
/-- Ethernet queue of a job, as 64 × port + queue. -/
def jobQueue (d : List (BitVec 8)) : Nat := 64 * (byteAt d 23 % 4) + byteAt d 22 % 64

/-! ## Samples and cells (R299 to R301, R307) -/

/-- Sample range. -/
def sampleLo (w : Nat) (sg : Bool) : Int := if sg then -(2 ^ (w - 1) : Nat) else 0
def sampleHi (w : Nat) (sg : Bool) : Int := if sg then (2 ^ (w - 1) : Nat) - 1 else (2 ^ w : Nat) - 1

def clampI (lo hi x : Int) : Int := if x < lo then lo else if hi < x then hi else x

/-- Samples of a byte range. -/
def samplesOf (w : Nat) (sg : Bool) (data : List (BitVec 8)) : List Int :=
  let u := if w = 8 then 1 else 2
  (List.range (data.length / u)).map (fun i =>
    let v := leAt data (u * i) u % 2 ^ w
    if sg then signed w v else (v : Int))

/-- What prediction carries from sample to sample: the last two reconstructed samples, and the previous cell's mean. -/
structure Pred where
  p1 : Int
  p2 : Int
  m : Int
  deriving DecidableEq, Repr

/-- Prediction of the next sample (R299). -/
def Pred.next (t : Pred) (p : Nat) (lo hi : Int) : Int :=
  match p with
  | 0 => 0
  | 1 => t.p1
  | 2 => clampI lo hi (2 * t.p1 - t.p2)
  | _ => t.m

/-- A cell as coded: its codes, its reconstruction, and whether every code fitted. -/
structure Cell where
  codes : List Int
  recon : List Int
  fits : Bool
  pred : Pred
  deriving DecidableEq, Repr

/-- One cell under predictor `p` and shift `s`, with `q`-bit codes; `sat` saturates the codes that do not fit (R300). -/
def codeCell (q : Nat) (lo hi : Int) (p s : Nat) (sat : Bool) (t : Pred) (xs : List Int) : Cell :=
  let cmin : Int := -(2 ^ (q - 1) : Nat)
  let cmax : Int := (2 ^ (q - 1) : Nat) - 1
  let h : Int := if s = 0 then 0 else (2 ^ (s - 1) : Nat)
  let step (c : Cell) (x : Int) : Cell :=
    let pr := c.pred.next p lo hi
    let raw := (x - pr + h) / (2 ^ s : Nat)
    let code := if sat then clampI cmin cmax raw else raw
    let xr := clampI lo hi (pr + code * (2 ^ s : Nat))
    { codes := c.codes ++ [code], recon := c.recon ++ [xr], fits := c.fits && cmin ≤ raw && raw ≤ cmax,
      pred := { c.pred with p1 := xr, p2 := c.pred.p1 } }
  let c := xs.foldl step { codes := [], recon := [], fits := true, pred := t }
  { c with pred := { c.pred with m := c.recon.foldl (· + ·) 0 / 32 } }

/-- The choices of R301 in order: the smallest shift first, ties to the lower predictor. -/
def cellChoices : List (Nat × Nat) := (List.range 16).flatMap (fun s => (List.range 4).map (fun p => (p, s)))

/-- The cell by the encoder's rule, with its predictor and shift. -/
def bestCell (q : Nat) (lo hi : Int) (t : Pred) (xs : List Int) : Nat × Nat × Cell :=
  match cellChoices.find? (fun c => (codeCell q lo hi c.1 c.2 false t xs).fits) with
  | some (p, s) => (p, s, codeCell q lo hi p s false t xs)
  | none => (1, 15, codeCell q lo hi 1 15 true t xs)

/-- Values of `w` bits packed least significant bit first (R298). -/
def packBits (w : Nat) (l : List Int) : Nat := (l.zipIdx.map (fun (p : Int × Nat) => unsignedOf w p.1 <<< (w * p.2))).foldl (· + ·) 0

/-! ## Records (R304) -/

/-- Smallest width that holds every difference. -/
def recWidth (d : List Int) : Nat :=
  ((List.range 17).map (· + 1)).find? (fun m => d.all (fun x => -(2 ^ (m - 1) : Nat) ≤ x && x ≤ (2 ^ (m - 1) : Nat) - 1)) |>.getD 17

/-- The correction record of a cell, none where it needs none. -/
def corrRecord (block cell : Nat) (xs recon : List Int) : Option (List (BitVec 8)) :=
  let d := xs.zipWith (· - ·) recon
  if d.all (· == 0) then none else
  let m := recWidth d
  let n := 8 * ((m + 1) / 2)
  some (natLE 4 block ++ natLE 1 cell ++ natLE 1 m ++ natLE 2 (8 + n) ++ natLE n (packBits m d))

/-! ## Blocks (R295 to R297, R302) -/

/-- A coded block: its slot, its records, and its saturated cells. -/
structure Block where
  slot : List (BitVec 8)
  recs : List (List (BitVec 8))
  clips : Nat
  deriving DecidableEq, Repr

/-- Block `n` of a job from its real samples. -/
def codeBlock (d : List (BitVec 8)) (n : Nat) (real : List Int) : Block :=
  let q := jobQ d
  let w := jobW d
  let lo := sampleLo w (jobSigned d)
  let hi := sampleHi w (jobSigned d)
  let seed := real.headD 0
  let xs := real ++ List.replicate (1024 - real.length) (real.getLastD 0)
  let step (acc : Pred × List (Nat × Nat × Cell × List Int)) (k : Nat) : Pred × List (Nat × Nat × Cell × List Int) :=
    let cell := (xs.drop (32 * k)).take 32
    let (p, s, c) := bestCell q lo hi acc.1 cell
    (c.pred, acc.2 ++ [(p, s, c, cell)])
  let cells := ((List.range 32).foldl step (Pred.mk seed seed seed, [])).2
  let clips := (cells.filter (fun c => !c.2.2.1.fits)).length
  let recs := if jobBounded d then
      cells.zipIdx.filterMap (fun (c : (Nat × Nat × Cell × List Int) × Nat) => corrRecord n c.2 c.1.2.2.2 c.1.2.2.1.recon) else []
  let flags := b2n (jobSigned d) + 2 * b2n (clips != 0) + 4 * b2n (!recs.isEmpty)
  let table := (cells.zipIdx.map (fun (c : (Nat × Nat × Cell × List Int) × Nat) => (c.1.1 + 4 * c.1.2.1) <<< (6 * c.2))).foldl (· + ·) 0
  { slot := natLE 1 0xD5 ++ natLE 1 (q + 16 * (w - 8)) ++ natLE 1 flags ++ natLE 1 0 ++ natLE 2 (unsignedOf 16 seed) ++
      natLE 2 real.length ++ natLE 24 table ++ natLE (128 * q) (packBits q (cells.flatMap (fun c => c.2.2.1.codes)))
    recs := recs
    clips := clips }

/-! ## Chains (R308) -/

/-- A piece of `n` bytes is placed whole: what is left of the chain, the offset in it, the address, and the bytes used,
remainders included; none where the chain has no room. -/
def chainPlace : List (Nat × Nat) → Nat → Nat → Option (List (Nat × Nat) × Nat × Nat × Nat)
  | [], _, _ => none
  | (a, len) :: rest, off, n =>
    if off + n ≤ len then some ((a, len) :: rest, off + n, a + off, n)
    else match chainPlace rest 0 n with
      | some (l, o, x, b) => some (l, o, x, b + (len - off))
      | none => none

/-- Entries of a chain list: address, length, and the bytes that must be zero. -/
def chainOf (data : List (BitVec 8)) : List (Nat × Nat × Nat) :=
  (List.range (data.length / 16)).map (fun i => (leAt data (16 * i) 8, leAt data (16 * i + 8) 4, leAt data (16 * i + 12) 4))

/-- Is an entry well formed? -/
def stpEntryGood (e : Nat × Nat × Nat) : Bool := e.1 % 8 == 0 && 8 ≤ e.2.1 && e.2.1 % 8 == 0 && e.2.2 == 0

/-- Slots of `n` bytes that a chain holds. -/
def chainSlots (l : List (Nat × Nat)) (n : Nat) : Nat := (l.map (fun e => e.2 / n)).foldl (· + ·) 0

/-! ## Stipple frames (R313, R314) -/

/-- A stipple frame: kinds 1 BLOCKS, 2 CORRECTIONS, 3 END. -/
def stpFrame (d : List (BitVec 8)) (kind fseq first n : Nat) (body : List (BitVec 8)) : List (BitVec 8) :=
  let head := natLE 2 0x5354 ++ natLE 1 1 ++ natLE 1 kind ++ (d.drop 28).take 4 ++ natLE 4 fseq ++ natLE 4 first ++ natLE 2 n ++
    (d.drop 20).take 2 ++ (d.drop 56).take 8
  head ++ natLE 4 (crc32 (head ++ natLE 4 0 ++ body)) ++ body

/-- Records packed into frames of at most `room` body bytes, in order. -/
def packRecs (room : Nat) : List (List (Nat × List (BitVec 8))) → List (Nat × List (BitVec 8)) → List (List (Nat × List (BitVec 8)))
  | fs, [] => fs
  | [], r :: rest => packRecs room [[r]] rest
  | f :: fs, r :: rest =>
    if (f.map (fun x => x.2.length)).foldl (· + ·) 0 + r.2.length ≤ room then packRecs room ((f ++ [r]) :: fs) rest
    else packRecs room ([r] :: f :: fs) rest

/-! ## Datagrams (R315, R319) -/

/-- A big-endian value of `n` bytes. -/
def natBE (n v : Nat) : List (BitVec 8) := (natLE n v).reverse
def beAt (l : List (BitVec 8)) (off n : Nat) : Nat := leNat ((l.drop off).take n).reverse

/-- Ones' complement sum of 16-bit wire words. -/
def onesSum (l : List (BitVec 8)) : Nat :=
  let v := ((List.range ((l.length + 1) / 2)).map (fun i => byteAt l (2 * i) * 256 + byteAt l (2 * i + 1))).foldl (· + ·) 0
  let v := v % 65536 + v / 65536
  v % 65536 + v / 65536

/-- Internet checksum. -/
def inetSum (l : List (BitVec 8)) : Nat := 65535 - onesSum l

/-- Is a flow template's version 6? -/
def flowV6 (t : List (BitVec 8)) : Bool := byteAt t 14 == 6
def flowTagged (t : List (BitVec 8)) : Bool := (byteAt t 12).testBit 7
def flowVid (t : List (BitVec 8)) : Nat := beAt t 12 2 % 4096

/-- Check 4 of R319: reserved bits zero and a known IP version. -/
def flowGood (t : List (BitVec 8)) : Bool :=
  bits (byteAt t 12) 4 3 == 0 && (byteAt t 14 == 4 || byteAt t 14 == 6) && byteAt t 15 < 64 && byteAt t 17 == 0 &&
    leAt t 22 2 == 0 && leAt t 56 8 == 0 && (flowV6 t || (leAt t 28 12 == 0 && leAt t 44 12 == 0))

/-- The UDP datagram of a payload, with its checksum over the pseudo-header. -/
def udpBytes (t payload : List (BitVec 8)) : List (BitVec 8) :=
  let len := 8 + payload.length
  let n := if flowV6 t then 16 else 4
  let pseudo := (t.drop 24).take n ++ (t.drop 40).take n ++ (if flowV6 t then natBE 4 len ++ natBE 4 17 else natBE 2 17 ++ natBE 2 len)
  let head (sum : Nat) : List (BitVec 8) := (t.drop 18).take 4 ++ natBE 2 len ++ natBE 2 sum
  let sum := inetSum (pseudo ++ head 0 ++ payload)
  head (if sum = 0 then 65535 else sum) ++ payload

/-- The IP packet. -/
def ipBytes (t payload : List (BitVec 8)) : List (BitVec 8) :=
  let u := udpBytes t payload
  let dscp := byteAt t 15 % 64
  if flowV6 t then
    natBE 4 (6 <<< 28 + (dscp * 4) <<< 20) ++ natBE 2 u.length ++ natBE 1 17 ++ natBE 1 (byteAt t 16) ++ (t.drop 24).take 16 ++
      (t.drop 40).take 16 ++ u
  else
    let head (sum : Nat) : List (BitVec 8) := natBE 1 0x45 ++ natBE 1 (dscp * 4) ++ natBE 2 (20 + u.length) ++ natBE 2 0 ++
      natBE 2 0x4000 ++ natBE 1 (byteAt t 16) ++ natBE 1 17 ++ natBE 2 sum ++ (t.drop 24).take 4 ++ (t.drop 40).take 4
    head (inetSum (head 0)) ++ u

/-- The Ethernet frame, without its frame check sequence, padded to the least length of IEEE 802.3. -/
def ethBytes (t : List (BitVec 8)) (pcp : Nat) (payload : List (BitVec 8)) : List (BitVec 8) :=
  let tag := if flowTagged t then natBE 2 0x8100 ++ natBE 2 (pcp <<< 13 + flowVid t) else []
  let f := t.take 12 ++ tag ++ natBE 2 (if flowV6 t then 0x86DD else 0x0800) ++ ipBytes t payload
  f ++ List.replicate (60 - f.length) 0

/-- Bytes of the frame on the wire, frame check sequence included. -/
def wireBytes (f : List (BitVec 8)) : List (BitVec 8) := f ++ natLE 4 (crc32 f)

/-! ## Send checks (R321) -/

/-- The tag of a frame, if any. -/
def frameTag (f : List (BitVec 8)) : Option Nat := if beAt f 12 2 = 0x8100 then some (beAt f 14 2 % 4096) else none

/-- Does a frame of slice `sl` carry the slice's identity? -/
def State.frameMine (s : State) (sl : Nat) (f : List (BitVec 8)) : Bool :=
  let ip := if (frameTag f).isSome then 18 else 14
  let v6 := beAt f (ip - 2) 2 == 0x86DD
  let addr6 := s.rd F.ETH_SLICE_IP6.ADDR (2 * sl) * 2 ^ 64 + s.rd F.ETH_SLICE_IP6.ADDR (2 * sl + 1)
  beAt f 6 6 == s.rd F.ETH_SLICE_MAC.MAC sl &&
  (if s.is F.ETH_SLICE_MAC.VLAN_EN sl then frameTag f == some (s.rd F.ETH_SLICE_MAC.VID sl) else (frameTag f).isNone) &&
  (if v6 then addr6 != 0 && beAt f (ip + 8) 16 == addr6
   else s.is F.ETH_SLICE_IP4.IP4_EN sl && beAt f (ip + 12) 4 == s.rd F.ETH_SLICE_IP4.ADDR sl)

end Sys2Proof.Machine
end

