-- ==== Sys2Proof/Machine/Stipple.lean ====
section
/-!
DEFINITION. The commands of the stipple engines and the Ethernet ports (R306 to R323).
-/

namespace Sys2Proof.Machine

/-! ## Queues (R314, R318) -/

def State.stpReady (s : State) : Bool := s.stpLive && !s.held && s.is F.STP_STATUS.READY
def State.ethReady (s : State) (p : Nat) : Bool := s.ethLive p && !s.held && s.is F.ETH_PORT_STATUS.READY p

/-- Flow template of queue `qi` (64 × port + queue): its first 56 bytes. -/
def State.flowOf (s : State) (qi : Nat) : List (BitVec 8) :=
  (List.range 7).flatMap (fun k => natLE 8 (s.rd F.ETH_Q_FLOW.BYTES (7 * qi + k)))

/-- Payload limit of a queue (R314). -/
def State.ethLimit (s : State) (qi : Nat) : Nat :=
  s.rd F.ETH_PORT_CFG.MTU (qi / 64) - (if flowV6 (s.flowOf qi) then 40 else 20) - 8

/-- Sub-port of a queue, as 4 × port + sub-port. -/
def State.subOf (s : State) (qi : Nat) : Nat := 4 * (qi / 64) + s.rd F.ETH_Q_CFG.SUBPORT qi

/-- Has the queue's sub-port link? -/
def State.queueLink (s : State) (qi : Nat) : Bool :=
  s.is F.ETH_PORT_CFG.EN (qi / 64) && s.fbit F.ETH_PORT_STATUS.LINK (qi / 64) (s.rd F.ETH_Q_CFG.SUBPORT qi)

def State.ethQueue (s : State) (qi : Nat) : List EthFrame := Tbl.get s.eth.ready qi []
def State.setEthQueue (s : State) (qi : Nat) (l : List EthFrame) : State :=
  { s with eth := { s.eth with ready := Tbl.set s.eth.ready qi l [] } }

/-- A payload becomes a frame ready on its queue. -/
def State.ethPush (s : State) (qi slice ring : Nat) (kind : EthKind) (payload : List (BitVec 8)) : State :=
  s.setEthQueue qi (s.ethQueue qi ++ [EthFrame.mk slice ring kind (ethBytes (s.flowOf qi) (s.rd F.ETH_Q_CFG.PCP qi) payload)])

/-! ## Jobs: the end (R311) -/

/-- A job changes in its place among the running ones. -/
def State.setJob (s : State) (j : StpJob) : State :=
  { s with stp := { s.stp with running := s.stp.running.map (fun k => if k.ring = j.ring then j else k) } }

/-- Results of a job (R413). -/
def State.jobFinish (s : State) (j : StpJob) (st : Nat) : State :=
  let s := s.finish j.ring st (j.good + j.clips <<< 32) j.mainBytes j.ovfBytes
  if st = csOK then s.inc F.STP_CNT0.JOBS_OK else s.inc F.STP_CNT0.JOBS_FAILED

/-- A running job ends: its engine is free, and its command completes. -/
def State.jobEnd (s : State) (j : StpJob) (st : Nat) : State :=
  let s := if st = csOK then s else s.raise F.STP_ENG_STATUS.EVT_FAIL (j.engine.getD 0)
  (s.engineFree j).jobFinish j st

/-- The END frame of a job (R313). -/
def endFrame (j : StpJob) (st : Nat) : List (BitVec 8) :=
  stpFrame j.desc 3 j.fseq 0 0 (natLE 4 j.good ++ natLE 4 st ++ natLE 8 j.ovfBytes)

/-- A running job is cut short: its frames not yet accepted go, and, where the pause limit cut it, its END frame stays. -/
def State.jobCut (s : State) (j : StpJob) (st : Nat) (sayEnd : Bool) : State :=
  let qi := jobQueue j.desc
  let s := s.setEthQueue qi ((s.ethQueue qi).filter (fun f => f.ring ≠ j.ring || f.kind == EthKind.ended))
  let s := if sayEnd then s.ethPush qi j.slice j.ring .ended (endFrame j st) else s
  s.jobEnd j st

/-- The jobs running on queues for which `p` holds, and the sends waiting on them, end with a status. -/
def State.cutQueues (s : State) (p : Nat → Bool) (st : Nat) (sayEnd : Bool) : State :=
  let js := s.stp.running.filter (fun j => jobEth j.desc && p (jobQueue j.desc))
  let s := js.foldl (fun s j => s.jobCut j st sayEnd) s
  let sends := (s.eth.ready.filter (fun e => p e.1)).flatMap (fun e => (e.2.filter (fun f => f.kind == EthKind.send)).map (·.ring))
  let s := sends.foldl (fun s r => s.finish r st) s
  { s with eth := { s.eth with ready := Tbl.mapVals s.eth.ready (fun q l =>
      if p q then l.filter (fun f => f.kind == EthKind.ended && sayEnd) else l) } }

/-! ## Frames of a job (R313, R314) -/

/-- The frames of a group of blocks: the BLOCKS frame, then its CORRECTIONS frames. -/
def State.pushGroup (s : State) (j : StpJob) : State :=
  let qi := jobQueue j.desc
  let room := s.ethLimit qi - 32
  let s := s.ethPush qi j.slice j.ring .job
    (stpFrame j.desc 1 j.fseq (j.blocks - j.slots.length) j.slots.length (j.slots.flatMap id))
  let fs := (packRecs room [] j.recs).reverse
  let s := fs.zipIdx.foldl (fun s (f : List (Nat × List (BitVec 8)) × Nat) =>
    s.ethPush qi j.slice j.ring .job (stpFrame j.desc 2 (j.fseq + 1 + f.2) ((f.1.headD (0, [])).1) f.1.length
      (f.1.flatMap (fun x => x.2)))) s
  s.setJob { j with fseq := j.fseq + 1 + fs.length }

/-- The engine waits on output, or runs again. -/
def State.engState (s : State) (j : StpJob) (st : Nat) : State := s.wr F.STP_ENG_STATUS.STATE (j.engine.getD 0) st

/-- The END frame is queued, last. -/
def State.pushEnd (s : State) (j : StpJob) (st : Nat) : State :=
  (s.setJob { j with stop := some st }).ethPush (jobQueue j.desc) j.slice j.ring .last (endFrame j st)

/-- A job stops: one with memory output ends at once; on Ethernet the blocks it has coded are sent, then END. -/
def State.jobStop (s : State) (j : StpJob) (st : Nat) : State :=
  if !jobEth j.desc then s.jobEnd j st
  else if !s.queueLink (jobQueue j.desc) then (s.jobCut j csABORTED false).inc F.ETH_PORT_CNT.LINK_ABORT (jobQueue j.desc / 64)
  else
    let s := s.engState j 2
    if j.slots.isEmpty then s.pushEnd j st else s.pushGroup { j with stop := some st }

/-- All frames of a job's group have been accepted: its blocks are complete; the job goes on, or its END follows. -/
def State.groupSent (s : State) (j : StpJob) : State :=
  let n := j.blocks - j.good
  let j := { j with
    good := j.blocks
    mainBytes := j.blocks * slotBytes (jobQ j.desc)
    ovfBytes := j.ovfBytes + (j.recs.map (fun x => x.2.length)).foldl (· + ·) 0
    slots := []
    recs := [] }
  let s := (s.setJob j).inc F.STP_CNT1.BLOCKS 0 n
  match j.stop with
  | some st => s.pushEnd j st
  | none => if j.good = jobBlocks j.desc then s.pushEnd j csOK else s.engState j 1

/-! ## STP_JOB (R309) -/

/-- Check 1 on the descriptor. -/
def State.jobFields (s : State) (d : List (BitVec 8)) : Bool :=
  byteAt d 20 % 16 ≤ 8 && jobQ d != 0 && jobNsamp d != 0 && dget d 8 8 % jobUnit d == 0 &&
  (if jobEth d then byteAt d 22 < 64 && dget d 32 8 == 0 && dget d 40 2 == 0 && dget d 42 2 == 0 &&
      32 + slotBytes (jobQ d) ≤ s.ethLimit (jobQueue d)
   else byteAt d 22 == 0 && byteAt d 23 == 0 && dget d 24 2 == 0 && 1 ≤ dget d 40 2 && dget d 40 2 ≤ 4096 && dget d 42 2 ≤ 4096 &&
      (!jobBounded d || dget d 42 2 != 0))

def State.jobSpoof (s : State) (r : Nat) : State :=
  ((((s.inc F.STP_CNT2.SPOOF).raise F.STP_STATUS.EVT_SPOOF).spoof (s.ringSlice r) 6 r).inc F.STP_CNT0.JOBS_FAILED).finish r csSPOOF

/-- A job that its checks end. -/
def State.jobRefuse (s : State) (r st : Nat) : State :=
  (s.when (st == csSPACE) (·.inc F.STP_CNT2.OUT_OF_SPACE)).inc F.STP_CNT0.JOBS_FAILED |>.finish r st

/-- May slice `sl` use Ethernet queue `qi`? -/
def State.queueMine (s : State) (sl qi : Nat) : Bool :=
  s.is F.ETH_Q_CFG.EN qi && (sl == 0 || s.rd F.ETH_Q_CFG.OWNER qi == sl)

/-- A list that may be empty is read. -/
def State.listRead (s : State) (r pa n : Nat) : CmdIn × State := if n = 0 then (.data [] [], s) else s.cmdRead r 3 pa (16 * n)

/-- Checks 2 to 5 on the chains as read. -/
def State.jobChecked (s : State) (r : Nat) (m o : List (Nat × Nat × Nat)) : State :=
  let d := s.desc r
  let sl := s.ringSlice r
  let qi := jobQueue d
  let seg (e : Nat × Nat × Nat) : Nat × Nat := (e.1, e.2.1)
  if !(m ++ o).all stpEntryGood then s.jobRefuse r csINVALID
  else if jobEth d && dget d 24 2 ≠ s.rd F.ETH_Q_CFG.ROLE_EPOCH qi then s.jobRefuse r csSTALE
  else if !s.rangeOk sl (dget d 8 8) (jobNsamp d * jobUnit d) || !(m ++ o).all (fun e => s.rangeOk sl e.1 e.2.1) ||
      (jobEth d && !s.queueMine sl qi) then s.jobSpoof r
  else if !jobEth d && chainSlots (m.map seg) (slotBytes (jobQ d)) < jobBlocks d then s.jobRefuse r csSPACE
  else if s.rd F.STP_SLICE_SHARE.SHARE sl = 0 || s.is F.STP_SLICE_SHARE.OVER_QUOTA sl then s.jobRefuse r csQUOTA
  else
    let j : StpJob := { ring := r, slice := sl, desc := d, main := m.map seg, mainOff := 0, ovf := o.map seg, ovfOff := 0,
                        engine := none, blocks := 0, good := 0, mainBytes := 0, ovfBytes := 0, clips := 0, fseq := 0, slots := [],
                        recs := [], stop := none }
    ({ s with stp := { s.stp with waiting := s.stp.waiting ++ [j] } }).start r

/-- STP_JOB. -/
def State.stpJob (s : State) (r : Nat) : State :=
  let d := s.desc r
  let sl := s.ringSlice r
  if !s.jobFields d then s.jobRefuse r csINVALID
  else if !(s.rangeOk sl (dget d 32 8) (16 * dget d 40 2) && s.rangeOk sl (dget d 48 8) (16 * dget d 42 2)) then s.jobSpoof r
  else match s.listRead r (dget d 32 8) (dget d 40 2) with
  | (.wait, s) => s
  | (.bad st, s) => s.jobRefuse r st
  | (.data m bad1, s) =>
    match s.listRead r (dget d 48 8) (dget d 42 2) with
    | (.wait, s) => s
    | (.bad st, s) => s.jobRefuse r st
    | (.data o bad2, s) =>
      if !bad1.isEmpty || !bad2.isEmpty then s.jobRefuse r csPOISON else s.jobChecked r (chainOf m) (chainOf o)

def execStpJob (ring : Nat) (s : State) : Host.Outcome State Fault Refusal :=
  .next (if s.stpReady && s.hasCmd ring 0x40 then s.stpJob ring else s)

/-! ## STP_DISPATCH (R310, R312) -/

/-- May a waiting job go: its slice below its share, or over quota, which ends the job; and its queue without a running
job? -/
def State.jobEligible (s : State) (j : StpJob) : Bool :=
  s.is F.STP_SLICE_SHARE.OVER_QUOTA j.slice ||
  (s.rd F.STP_SLICE_SHARE.USED j.slice < s.rd F.STP_SLICE_SHARE.SHARE j.slice &&
    !(jobEth j.desc && s.stp.running.any (fun k => jobEth k.desc && jobQueue k.desc == jobQueue j.desc)))

/-- The job chosen: first among slices, then among the slice's rings. -/
def State.jobChoice (s : State) : Option StpJob :=
  let ok := s.stp.waiting.filter s.jobEligible
  match rotGrant 256 s.stp.slicePtr (fun sl => ok.any (fun j => j.slice == sl)) with
  | none => none
  | some sl =>
    match rotGrant 8192 (Tbl.get s.stp.ringPtr sl 0) (fun r => ok.any (fun j => j.slice == sl && j.ring == r)) with
    | none => none
    | some r => ok.find? (fun j => j.ring == r)

/-- The lowest free engine in dispatch. -/
def State.freeEngine (s : State) : Option Nat :=
  (List.range 16).find? (fun e => s.fbit F.STP_CFG.ENG_EN 0 e && !s.stp.running.any (fun j => j.engine == some e))

/-- A job takes an engine. -/
def State.jobRun (s : State) (j : StpJob) (e : Nat) : State :=
  let s := { s with stp := { s.stp with running := s.stp.running ++ [{ j with engine := some e }] } }
  let s := ((s.wr F.STP_ENG_STATUS.STATE e 1).wr F.STP_ENG_STATUS.SLICE e j.slice).wr F.STP_ENG_STATUS.RING e j.ring
  (s.wr F.STP_SLICE_SHARE.USED j.slice (s.rd F.STP_SLICE_SHARE.USED j.slice + 1)).stpBusy

/-- STP_DISPATCH. -/
def State.stpDispatch (s : State) : State :=
  match s.jobChoice, s.freeEngine with
  | some j, some e =>
    let s := { s with stp := { s.stp with
      waiting := s.stp.waiting.filter (fun k => k.ring ≠ j.ring)
      slicePtr := rotNext 256 j.slice
      ringPtr := Tbl.set s.stp.ringPtr j.slice (rotNext 8192 j.ring) 0 } }
    if s.is F.STP_SLICE_SHARE.OVER_QUOTA j.slice then s.jobFinish j csQUOTA else s.jobRun j e
  | _, _ => s

def execStpDispatch (s : State) : Host.Outcome State Fault Refusal := .next (if s.stpReady then s.stpDispatch else s)

/-! ## STP_BLOCK_DONE (R301 to R305, R311, R314) -/

/-- What placing and writing a piece answers. -/
inductive PieceOut where
  | done (j : StpJob)
  | full
  | wait
  | bad (status : Nat)
  deriving DecidableEq, Repr

/-- A record goes into the overflow chain. -/
def State.putRec (s : State) (j : StpJob) (r : List (BitVec 8)) : PieceOut × State :=
  match chainPlace j.ovf j.ovfOff r.length with
  | none => (.full, s)
  | some (l, o, a, n) =>
    match s.cmdWrite j.ring 3 a r with
    | (.done, s) => (.done { j with ovf := l, ovfOff := o, ovfBytes := j.ovfBytes + n }, s)
    | (.wait, s) => (.wait, s)
    | (.bad st, s) => (.bad st, s)

/-- The records of a block, in order. -/
def State.putRecs (s : State) (j : StpJob) : List (List (BitVec 8)) → PieceOut × State
  | [] => (.done j, s)
  | r :: rest =>
    match s.putRec j r with
    | (.done j, s) => s.putRecs j rest
    | x => x

/-- A slot goes into the main chain. -/
def State.putSlot (s : State) (j : StpJob) (b : List (BitVec 8)) : PieceOut × State :=
  match chainPlace j.main j.mainOff b.length with
  | none => (.full, s)
  | some (l, o, a, n) =>
    match s.cmdWrite j.ring 3 a b with
    | (.done, s) => (.done { j with main := l, mainOff := o, mainBytes := j.mainBytes + n }, s)
    | (.wait, s) => (.wait, s)
    | (.bad st, s) => (.bad st, s)

/-- Input bytes and clips are counted once the block is coded to its end. -/
def State.blockCount (s : State) (j : StpJob) (bytes clips : Nat) : State :=
  (s.inc F.STP_ENG_IN.BYTES (j.engine.getD 0) bytes).inc F.STP_CNT2.CLIPS 0 clips

/-- A coded block with memory output: its records, then its slot. -/
def State.blockToMem (s : State) (j : StpJob) (b : Block) (bytes : Nat) : State :=
  let out := match s.putRecs j b.recs with
    | (.done j', s) => s.putSlot j' b.slot
    | x => x
  match out with
  | (.done j', s) =>
    let j' := { j' with blocks := j.blocks + 1, good := j.blocks + 1, clips := j.clips + b.clips }
    let s := ((s.blockCount j bytes b.clips).setJob j').inc F.STP_CNT1.BLOCKS
    if j'.good = jobBlocks j.desc then s.jobEnd j' csOK else s
  | (.full, s) => (s.inc F.STP_CNT2.OUT_OF_SPACE).jobEnd j csSPACE
  | (.wait, s) => s
  | (.bad st, s) => s.jobEnd j st

/-- A coded block for Ethernet: its group is sent when it is full or the job's last. -/
def State.blockToEth (s : State) (j : StpJob) (b : Block) (bytes : Nat) : State :=
  let qi := jobQueue j.desc
  let j' := { j with
    blocks := j.blocks + 1
    clips := j.clips + b.clips
    slots := j.slots ++ [b.slot]
    recs := j.recs ++ b.recs.map (fun r => (j.blocks, r)) }
  let s := (s.blockCount j bytes b.clips).setJob j'
  let per := (s.ethLimit qi - 32) / slotBytes (jobQ j.desc)
  if j'.slots.length < per && j'.blocks < jobBlocks j.desc then s
  else if !s.queueLink qi then (s.jobCut j' csABORTED false).inc F.ETH_PORT_CNT.LINK_ABORT (qi / 64)
  else (s.engState j' 2).pushGroup j'

/-- STP_BLOCK_DONE: the job of engine `e` codes its next block. -/
def State.stpBlock (s : State) (e : Nat) : State :=
  match s.stp.running.find? (fun j => j.engine == some e) with
  | none => s
  | some j =>
    let d := j.desc
    if s.rd F.STP_ENG_STATUS.STATE e ≠ 1 || jobBlocks d ≤ j.blocks then s else
    let n := min 1024 (jobNsamp d - 1024 * j.blocks)
    let bytes := n * jobUnit d
    match s.cmdRead j.ring 3 (dget d 8 8 + 1024 * j.blocks * jobUnit d) bytes with
    | (.wait, s) => s
    | (.bad st, s) => s.jobStop j st
    | (.data data bad, s) =>
      if !bad.isEmpty then s.jobStop j csPOISON else
      let b := codeBlock d j.blocks (samplesOf (jobW d) (jobSigned d) data)
      let x := s.ring j.ring
      let s := s.setRing j.ring { x with buf := [] }
      if jobEth d then s.blockToEth j b bytes else s.blockToMem j b bytes

def execStpBlockDone (e : Nat) (s : State) : Host.Outcome State Fault Refusal :=
  .next (if s.stpReady && e < 16 then s.stpBlock e else s)

/-! ## Sending (R315, R318, R321) -/

/-- A frame has gone out. -/
def State.frameSent (s : State) (sub qi : Nat) (f : EthFrame) : State :=
  let w := wireBytes f.bytes
  let p := qi / 64
  let s := { s with eth := { s.eth with sent := s.eth.sent ++ [(sub, w)] } }
  let s := (s.inc F.ETH_PORT_FRAMES.FRAMES_TX p).inc F.ETH_PORT_BYTES.BYTES_TX p w.length
  let job := s.stp.running.find? (fun j => j.ring == f.ring)
  match f.kind, job with
  | .send, _ => s.finish f.ring csOK w.length
  | .job, some j => if (s.ethQueue qi).any (fun g => g.ring == f.ring && g.kind == EthKind.job) then s else s.groupSent j
  | .last, some j => s.jobEnd j (j.stop.getD csOK)
  | _, _ => s

/-- A frame fails its send check. -/
def State.frameSpoof (s : State) (qi : Nat) (f : EthFrame) : State :=
  let p := qi / 64
  let s := ((s.inc F.ETH_PORT_CNT.SPOOF_DROP p).raise F.ETH_PORT_STATUS.EVT_SPOOF p).spoof f.slice 8 qi
  match f.kind, s.stp.running.find? (fun j => j.ring == f.ring) with
  | .send, _ => s.finish f.ring csSPOOF
  | .ended, _ => s
  | _, some j => s.jobCut j csSPOOF false
  | _, none => s

/-- Is a queue of a sub-port ready to send: enabled, not paused, with a frame? -/
def State.queueReady (s : State) (p sub q : Nat) : Bool :=
  let qi := 64 * p + q
  s.is F.ETH_Q_CFG.EN qi && s.rd F.ETH_Q_CFG.SUBPORT qi == sub && !(s.ethQueue qi).isEmpty &&
    !(Tbl.get s.eth.paused (4 * p + sub) 0).testBit (s.rd F.ETH_Q_CFG.PCP qi)

/-- ETH_FRAME_SEND: the sub-port's arbiter grants a queue, whose oldest frame is checked and sent. -/
def State.ethSendOne (s : State) (p sub : Nat) : State :=
  let k := 4 * p + sub
  if !s.is F.ETH_PORT_CFG.EN p || !s.fbit F.ETH_PORT_STATUS.LINK p sub then s else
  match rotGrant 64 (Tbl.get s.eth.ptr k 0) (s.queueReady p sub) with
  | none => s
  | some q =>
    let qi := 64 * p + q
    let s := { s with eth := { s.eth with ptr := Tbl.set s.eth.ptr k (rotNext 64 q) 0 } }
    match s.ethQueue qi with
    | [] => s
    | f :: rest =>
      let s := s.setEthQueue qi rest
      if f.slice = 0 || s.frameMine f.slice f.bytes then s.frameSent k qi f else s.frameSpoof qi f

def execEthFrameSend (p sub : Nat) (s : State) : Host.Outcome State Fault Refusal :=
  .next (if p < 4 && sub < 4 && s.ethReady p then s.ethSendOne p sub else s)

/-! ## ETH_SEND (R320) -/

/-- A send with its payload. -/
def State.ethSend (s : State) (r : Nat) : State :=
  let d := s.desc r
  let sl := s.ringSlice r
  let qi := 64 * (byteAt d 8) + byteAt d 9
  let len := dget d 24 4
  if 4 ≤ byteAt d 8 || 64 ≤ byteAt d 9 || len = 0 || s.ethLimit qi < len then s.finish r csINVALID
  else if dget d 10 2 ≠ s.rd F.ETH_Q_CFG.ROLE_EPOCH qi then s.finish r csSTALE
  else if !s.queueMine sl qi || !s.rangeOk sl (dget d 16 8) len then (s.spoof sl 9 r).finish r csSPOOF
  else match s.cmdRead r 4 (dget d 16 8) len with
  | (.wait, s) => s
  | (.bad st, s) => s.finish r st
  | (.data data bad, s) =>
    if !bad.isEmpty then s.finish r csPOISON
    else if !s.queueLink qi then (s.finish r csABORTED).inc F.ETH_PORT_CNT.LINK_ABORT (qi / 64)
    else (s.ethPush qi sl r .send data).start r

def execEthSend (ring : Nat) (s : State) : Host.Outcome State Fault Refusal :=
  .next (if s.hasCmd ring 0x41 && (4 ≤ byteAt (s.desc ring) 8 || s.ethReady (byteAt (s.desc ring) 8)) then s.ethSend ring else s)

/-! ## ETH_FLOW_SET (R319) -/

/-- Does a job run on the queue? -/
def State.queueBusy (s : State) (qi : Nat) : Bool := s.stp.running.any (fun j => jobEth j.desc && jobQueue j.desc == qi)

def State.flowSet (s : State) (r : Nat) : State :=
  let d := s.desc r
  let sl := s.ringSlice r
  let qi := 64 * (byteAt d 8) + byteAt d 9
  if 4 ≤ byteAt d 8 || 64 ≤ byteAt d 9 then s.finish r csINVALID
  else if !s.rangeOk sl (dget d 16 8) 64 then (s.spoof sl 7 r).finish r csSPOOF
  else if dget d 10 2 ≠ s.rd F.ETH_Q_CFG.ROLE_EPOCH qi then s.finish r csSTALE
  else match s.cmdRead r 4 (dget d 16 8) 64 with
  | (.wait, s) => s
  | (.bad st, s) => s.finish r st
  | (.data t bad, s) =>
    if !bad.isEmpty then s.finish r csPOISON
    else if sl ≠ 0 && s.rd F.ETH_Q_CFG.OWNER qi ≠ sl then (s.spoof sl 7 r).finish r csSPOOF
    else if !flowGood t then s.finish r csINVALID
    else if s.queueBusy qi then s.finish r csBUSY
    else ((List.range 7).foldl (fun s k => s.wr F.ETH_Q_FLOW.BYTES (7 * qi + k) (leAt t (8 * k) 8)) s).finish r csOK

def execEthFlowSet (ring : Nat) (s : State) : Host.Outcome State Fault Refusal :=
  .next (if s.hasCmd ring 0x30 && (4 ≤ byteAt (s.desc ring) 8 || s.ethReady (byteAt (s.desc ring) 8)) then s.flowSet ring else s)

/-! ## The wire (R317, R311) -/

/-- PFC_FRAME: priorities paused and released, honoured with PFC_EN = 1. -/
def State.pfc (s : State) (p sub pause release : Nat) : State :=
  if !s.is F.ETH_PORT_CFG.PFC_EN p then s else
  let k := 4 * p + sub
  let v := (Tbl.get s.eth.paused k 0 ||| pause) % 256
  { s with eth := { s.eth with paused := Tbl.set s.eth.paused k ((v ||| release % 256) ^^^ (release % 256)) 0 } }

def execPfcFrame (p sub pause release : Nat) (s : State) : Host.Outcome State Fault Refusal :=
  .next (if p < 4 && sub < 4 && s.ethReady p && s.fbit F.ETH_PORT_STATUS.LINK p sub then s.pfc p sub pause release else s)

/-- ETH_RX_DISCARD: any other received frame is discarded and counted. -/
def execEthRxDiscard (p sub : Nat) (s : State) : Host.Outcome State Fault Refusal :=
  .next (if p < 4 && sub < 4 && s.ethReady p && s.fbit F.ETH_PORT_STATUS.LINK p sub then s.inc F.ETH_PORT_CNT.RX_DISCARD p else s)

/-- PAUSE_TIMEOUT: the queue's priority has stayed paused for longer than PAUSE_MAX. -/
def State.pauseTimeout (s : State) (p q : Nat) : State :=
  let qi := 64 * p + q
  let paused := (Tbl.get s.eth.paused (s.subOf qi) 0).testBit (s.rd F.ETH_Q_CFG.PCP qi)
  let sends := (s.ethQueue qi).any (fun f => f.kind == EthKind.send)
  if !paused || !(s.queueBusy qi || sends) then s else
  let s := (s.inc F.ETH_PORT_CNT.PAUSE_TMO p).when (s.queueBusy qi) (·.raise F.ETH_PORT_STATUS.EVT_PAUSE p)
  s.cutQueues (· == qi) csTIMEOUT true

def execPauseTimeout (p q : Nat) (s : State) : Host.Outcome State Fault Refusal :=
  .next (if p < 4 && q < 64 && s.ethReady p then s.pauseTimeout p q else s)

/-- Sub-ports of a mode. -/
def subPorts (mode : Nat) : Nat := 2 ^ mode

/-- A sub-port loses link: its jobs and sends stop. -/
def State.linkLost (s : State) (p sub : Nat) : State :=
  let on (q : Nat) : Bool := q / 64 == p && s.subOf q == 4 * p + sub
  let n := (s.stp.running.filter (fun j => jobEth j.desc && on (jobQueue j.desc))).length
  let s := { s with eth := { s.eth with paused := Tbl.set s.eth.paused (4 * p + sub) 0 0 } }
  (s.inc F.ETH_PORT_CNT.LINK_ABORT p n).cutQueues on csABORTED false

/-- ETH_LINK_CHANGE. -/
def State.linkChange (s : State) (p sub : Nat) (up : Bool) : State :=
  if s.fbit F.ETH_PORT_STATUS.LINK p sub == up then s else
  let s := (s.putBit F.ETH_PORT_STATUS.LINK p sub up).raise F.ETH_PORT_STATUS.EVT_LINK p
  if up then s else s.linkLost p sub

def execEthLinkChange (p sub : Nat) (up : Bool) (s : State) : Host.Outcome State Fault Refusal :=
  .next (if p < 4 && s.ethReady p && s.is F.ETH_PORT_CFG.EN p && sub < subPorts (s.rd F.ETH_PORT_CFG.MODE p) then
    s.linkChange p sub up else s)

/-- A write of ETH_PORT_CFG: MODE and MTU are held while EN = 1; a port that stops loses its links. -/
def State.ethPortCfg (s : State) (p v : Nat) : State :=
  let was := s.is F.ETH_PORT_CFG.EN p
  let s := s.wr F.ETH_PORT_CFG.PFC_EN p (bits v 3 1)
  let s := if bits v 32 16 = 0 then s else s.wr F.ETH_PORT_CFG.PAUSE_MAX p (bits v 32 16)
  let s := if was then s else
    let s := if bits v 1 2 = 3 then s else s.wr F.ETH_PORT_CFG.MODE p (bits v 1 2)
    if 1500 ≤ bits v 16 14 && bits v 16 14 ≤ 9216 then s.wr F.ETH_PORT_CFG.MTU p (bits v 16 14) else s
  let s := s.wr F.ETH_PORT_CFG.EN p (v % 2)
  if was && v % 2 = 0 then (List.range 4).foldl (fun s k => s.linkChange p k false) s else s

/-! ## Queue and share writes (R312, R318, R322) -/

/-- A write of ETH_Q_CFG. -/
def State.ethQCfg (s : State) (qi v : Nat) : State :=
  let en := v % 2
  let own := bits v 8 8
  let off := s.is F.ETH_Q_CFG.EN qi && en == 0
  let moved := own != s.rd F.ETH_Q_CFG.OWNER qi
  let changed := s.rd F.ETH_Q_CFG.EN qi != en || moved
  let sub := bits v 1 2
  let s := if subPorts (s.rd F.ETH_PORT_CFG.MODE (qi / 64)) ≤ sub then s else s.wr F.ETH_Q_CFG.SUBPORT qi sub
  let s := ((s.wr F.ETH_Q_CFG.EN qi en).wr F.ETH_Q_CFG.PCP qi (bits v 4 3)).wr F.ETH_Q_CFG.OWNER qi own
  let s := if changed then s.bump F.ETH_Q_CFG.ROLE_EPOCH qi else s
  if off || moved then s.cutQueues (· == qi) csABORTED false else s

def execEthQCfgWrite (src : Src) (p q value : Nat) (s : State) : Host.Outcome State Fault Refusal :=
  .next (if p < 4 && q < 64 then s.withReg src .ETH_Q_CFG (64 * p + q) (·.ethQCfg (64 * p + q) value) else s)

/-- A new SHARE of a slice: a cut to USED or below sets OVER_QUOTA, mirrored in HIF_SLICE_STATUS (R312, R425). -/
def State.stpShare (s : State) (sl v : Nat) : State :=
  if 16 < v then s else
  let cut := v < s.rd F.STP_SLICE_SHARE.SHARE sl
  let s := s.wr F.STP_SLICE_SHARE.SHARE sl v
  if cut && v ≤ s.rd F.STP_SLICE_SHARE.USED sl then
    if s.is F.STP_SLICE_SHARE.OVER_QUOTA sl then s else
    let s := ((s.wr F.STP_SLICE_SHARE.OVER_QUOTA sl 1).raise F.STP_STATUS.EVT_QUOTA).wr F.HIF_SLICE_STATUS.OVER_STP sl 1
    s.raise F.HIF_SLICE_STATUS.EVT_QUOTA sl
  else s.shareSettle sl

def execStpShareWrite (src : Src) (slice value : Nat) (s : State) : Host.Outcome State Fault Refusal :=
  .next (if slice < 256 then s.withReg src .STP_SLICE_SHARE slice (·.stpShare slice (bits value 0 5)) else s)

/-- STP_ETH_CLEAR_DONE (R323): READY of the stipple block (domain 93) or of the ports of domain 94 or 95. -/
def State.stpEthClear (s : State) (dom : Nat) : State :=
  if s.held || !s.domOn dom then s
  else if dom = 93 then s.wr F.STP_STATUS.READY 0 1
  else if dom = 94 || dom = 95 then
    (s.wr F.ETH_PORT_STATUS.READY (2 * (dom - 94)) 1).wr F.ETH_PORT_STATUS.READY (2 * (dom - 94) + 1) 1
  else s

def execStpEthClearDone (dom : Nat) (s : State) : Host.Outcome State Fault Refusal := .next (s.stpEthClear dom)

end Sys2Proof.Machine
end

