-- ==== Sys2Proof/Machine/Slices.lean ====
section
/-!
DEFINITION. Slices: the resource specification, creation, destruction, reset and quotas, and the spoof log (R417 to R436,
and the ADMIN rows of R407 that act on slices).
-/

namespace Sys2Proof.Machine

/-- Slice states of R418. -/
abbrev slFREE : Nat := 0
abbrev slACTIVE : Nat := 1
abbrev slRESETTING : Nat := 2
abbrev slDESTROYING : Nat := 3

def State.sliceState (s : State) (sl : Nat) : Nat := s.rd F.HIF_SLICE_CFG.STATE sl
def State.sliceEpoch (s : State) (sl : Nat) : Nat := s.rd F.HIF_SLICE_CFG.ROLE_EPOCH sl

/-- ADMIN commands run one at a time (R419): the ring's command is one of opcode `op` and no slice is in transit. -/
def State.adminCmd (s : State) (r op : Nat) (f : State → State) : State :=
  if s.hasCmd r op && s.hif.admin.isNone && !s.held then f s else s

/-! ## The resource specification (R420) -/

/-- One entry: `count` resources of a kind, from `first`. -/
structure ResEntry where
  kind : Nat
  first : Nat
  count : Nat
  deriving DecidableEq, Repr

/-- Size of the range of a kind. -/
def kindSize (k : Nat) : Nat := [0, 576, 192, 2048, 2 ^ 20, 2048, 64, 8192, 1024, 16, 256].getD k 0

def specEntry (b : List (BitVec 8)) (i : Nat) : ResEntry :=
  ResEntry.mk (dget b (32 + 16 * i) 1) (dget b (36 + 16 * i) 4) (dget b (40 + 16 * i) 4)

def specEntries (b : List (BitVec 8)) : List ResEntry := (List.range (dget b 6 2)).map (specEntry b)

/-- Is an entry well formed: a known kind, at least one resource, in range, and its zero bytes zero? -/
def specEntryOk (b : List (BitVec 8)) (i : Nat) : Bool :=
  let e := specEntry b i
  1 ≤ e.kind && e.kind ≤ 10 && 1 ≤ e.count && e.first + e.count ≤ kindSize e.kind && dget b (33 + 16 * i) 3 == 0 &&
    dget b (44 + 16 * i) 4 == 0

/-- Is a specification of `len` bytes well formed? -/
def specGood (b : List (BitVec 8)) (len : Nat) : Bool :=
  let n := dget b 6 2
  dget b 0 4 == 0x45434C53 && dget b 4 1 == 1 && dget b 5 1 == 0 && 1 ≤ n && n ≤ 64 && len == 32 + 16 * n &&
    dget b 8 4 ≤ 4096 && dget b 12 1 ≤ 16 && dget b 13 19 == 0 && (List.range n).all (specEntryOk b)

def ResEntry.overlaps (a b : ResEntry) : Bool :=
  a.kind == b.kind && a.first < b.first + b.count && b.first < a.first + a.count

/-- No two entries of one kind overlap. -/
def disjoint : List ResEntry → Bool
  | [] => true
  | e :: es => es.all (fun x => !e.overlaps x) && disjoint es

def ResEntry.all (e : ResEntry) (p : Nat → Bool) : Bool := (List.range e.count).all (fun k => p (e.first + k))

/-- May the resources of an entry be given to a tenant (R421 check 2)? -/
def State.entryAllowed (s : State) (port : Nat) (e : ResEntry) : Bool :=
  match e.kind with
  | 1 => e.all (fun c => s.hw.site (siteOf c) && !s.fbit F.ALN_SUMMARY.FENCED 0 (siteOf c))
  | 2 => s.rd F.MEM_WM.HBM_WM ≤ e.first && e.first + e.count ≤ s.hw.hbmPlates
  | 3 => s.rd F.MEM_WM.DDR_WM ≤ e.first && e.first + e.count ≤ s.ddrPlates
  | 5 => port != 0 || e.first != 0
  | _ => true

/-- Is every ring and queue of an entry disabled (R421 check 3)? -/
def State.entryIdle (s : State) (e : ResEntry) : Bool :=
  match e.kind with
  | 7 => e.all (fun r => !s.is F.HIF_RING_CFG.EN r)
  | 8 => e.all (fun q => !s.is F.EVB_EVQ_CFG.EN q)
  | 10 => e.all (fun q => !s.is F.ETH_Q_CFG.EN q)
  | _ => true

/-- Channel ranges other slices hold: first and count. -/
def State.chanHeld (s : State) : List (Nat × Nat) :=
  s.regs.filterMap (fun e => if e.1.reg == Reg.HIF_SLICE_CHAN && e.1.lo == 32 then
    some (s.rd F.HIF_SLICE_CHAN.FIRST e.1.idx, e.2) else none)

/-- Does slice 0 hold every resource of an entry (R421 check 4)? -/
def State.entryFree (s : State) (port : Nat) (e : ResEntry) : Bool :=
  match e.kind with
  | 1 => e.all (fun c => s.coreSlice c == 0)
  | 2 => e.all (fun p => s.ownerH p == 0)
  | 3 => e.all (fun p => s.ownerD p == 0)
  | 4 => s.chanHeld.all (fun c => c.1 + c.2 ≤ e.first || e.first + e.count ≤ c.1)
  | 5 => e.all (fun v => s.ownerV port v == 0)
  | 6 => e.all (fun u => s.rd F.TRG_UNIT_STATUS.OWNER u == 0)
  | 7 => e.all (fun r => s.ringSlice r == 0)
  | 8 => e.all (fun q => s.rd F.EVB_EVQ_CFG.OWNER q == 0)
  | 9 => e.all (fun r => s.rd F.EVB_ROUTE_CFG.OWNER r == 0)
  | 10 => e.all (fun q => s.rd F.ETH_Q_CFG.OWNER q == 0)
  | _ => false

/-! ## Ownership records (R420, R422, R423) -/

/-- The owner of an event queue changes (R197). -/
def State.evqOwner (s : State) (q sl : Nat) : State :=
  if s.rd F.EVB_EVQ_CFG.OWNER q = sl then s
  else ((s.wr F.EVB_EVQ_CFG.OWNER q sl).bump F.EVB_EVQ_CFG.ROLE_EPOCH q).queueOut q

/-- The owner of an Ethernet queue changes (R318). -/
def State.ethOwner (s : State) (q sl : Nat) : State :=
  if s.rd F.ETH_Q_CFG.OWNER q = sl then s
  else ((s.wr F.ETH_Q_CFG.OWNER q sl).bump F.ETH_Q_CFG.ROLE_EPOCH q).cutQueues (· == q) csABORTED false

/-- The record of one resource of a kind other than channel ranges goes to slice `sl`. -/
def State.setOwner (s : State) (kind port k sl : Nat) : State :=
  match kind with
  | 1 => if s.coreSlice k = sl then s else (s.wr F.HIF_CORE_SLICE.SLICE k sl).bump F.HIF_CORE_SLICE.ROLE_EPOCH k
  | 2 => s.wr (byteField F.HIF_PLATE_OWNER_H.OWNER0 k) (k / 8) sl
  | 3 => s.wr (byteField F.HIF_PLATE_OWNER_D.OWNER0 k) (k / 8) sl
  | 5 => s.wr (byteField F.HIF_MSIX_OWNER.OWNER0 k) (256 * port + k / 8) sl
  | 6 => s.engineOwner k sl
  | 7 => if s.ringSlice k = sl then s else (s.wr F.HIF_RING_CFG.SLICE k sl).bump F.HIF_RING_CFG.ROLE_EPOCH k
  | 8 => s.evqOwner k sl
  | 9 => s.wr F.EVB_ROUTE_CFG.OWNER k sl
  | 10 => s.ethOwner k sl
  | _ => s

/-- Every record of an entry other than a channel range. -/
def State.giveEntry (s : State) (port sl : Nat) (e : ResEntry) : State :=
  if e.kind = 4 then s else
  (List.range e.count).foldl (fun s k => s.setOwner e.kind port (e.first + k) sl) s

/-- HIF_SLICE_CHAN of a slice lists its channel ranges. -/
def State.giveChannels (s : State) (sl : Nat) (es : List ResEntry) : State :=
  (List.range 16).foldl (fun s i =>
    let e := es.getD i (ResEntry.mk 4 0 0)
    (s.wr F.HIF_SLICE_CHAN.FIRST (16 * sl + i) e.first).wr F.HIF_SLICE_CHAN.COUNT (16 * sl + i) e.count) s

/-- Cores a slice holds. -/
def State.coresHeldBy (s : State) (sl : Nat) : List Nat := idxWhere 576 (fun c => s.coreSlice c == sl)

/-- The cores of a slice start again under the compute firmware (R422 step 5). -/
def State.startCores (s : State) (sl : Nat) : State := (s.coresHeldBy sl).foldl State.coreRun s

/-! ## SLICE_CREATE (R421, R422) -/

/-- Is the PASID held by another ACTIVE slice on the port? -/
def State.pasidTaken (s : State) (port pasid sl : Nat) : Bool :=
  (List.range 256).any (fun k => k ≠ sl && k ≠ 0 && s.sliceState k ≠ slFREE && s.rd F.HIF_SLICE_CFG.PORT k == port &&
    s.rd F.HIF_SLICE_CFG.PASID k == pasid)

/-- The effects of a creation that passes its checks, in order. -/
def State.sliceMake (s : State) (sl port pasid : Nat) (b : List (BitVec 8)) : State :=
  let es := specEntries b
  let cores := (es.filter (·.kind == 1)).flatMap (fun e => (List.range e.count).map (e.first + ·))
  let s := cores.foldl (fun s c => if s.clusterLive (clusterOf c) then s.coreHeld c else s) s
  let s := (es.foldl (fun s e => s.giveEntry port sl e) s).giveChannels sl (es.filter (·.kind == 4))
  let s := (s.wr F.HIF_SLICE_CFG.PORT sl port).wr F.HIF_SLICE_CFG.PASID sl pasid
  let s := (s.grpLimit sl (dget b 8 4)).stpShare sl (dget b 12 1)
  let s := ((s.wr F.HIF_SLICE_CFG.STATE sl slACTIVE).bump F.HIF_SLICE_CFG.ROLE_EPOCH sl).sliceUse sl
  s.startCores sl

/-- SLICE_CREATE: the checks of R421 in their order. -/
def State.sliceCreate (s : State) (r : Nat) : State :=
  let d := s.desc r
  let sl := dget d 8 1
  let port := dget d 9 1
  let pasid := dget d 12 4
  let len := dget d 24 4
  match s.cmdRead r 5 (dget d 16 8) len with
  | (.wait, s) => s
  | (.bad st, s) => s.finish r st
  | (.data b bad, s) =>
    if !bad.isEmpty then s.finish r csPOISON else
    let es := specEntries b
    if sl = 0 || 1 < port || pasid = 0 || s.pasidTaken port pasid sl || !specGood b len || !disjoint es ||
        !es.all (s.entryAllowed port) || 16 < (es.filter (·.kind == 4)).length then s.finish r csINVALID
    else if s.sliceState sl ≠ slFREE || !es.all s.entryIdle then s.finish r csBUSY
    else if !es.all (s.entryFree port) then s.finish r csQUOTA
    else
      let s := s.sliceMake sl port pasid b
      s.finish r csOK (s.sliceEpoch sl)

def execSliceCreate (ring : Nat) (s : State) : Host.Outcome State Fault Refusal :=
  .next (s.adminCmd ring 0x01 (·.sliceCreate ring))

/-! ## The reset steps (R430) -/

/-- Groups of a slice that are not FREE. -/
def State.groupsOf (s : State) (sl : Nat) : List Nat :=
  (s.groups.map (·.1)).filter (fun g => s.is F.PRF_GRP_STATUS.NS g && s.rd F.PRF_GRP_STATUS.SLICE g == sl)

/-- Step 2: its rings halt and its event queues are disabled. -/
def State.resetRings (s : State) (sl : Nat) : State :=
  let s := (s.runningRings.filter (fun r => s.ringSlice r == sl)).foldl (fun s r => s.halt r 5 csABORTED) s
  (idxWhere 1024 (fun q => s.rd F.EVB_EVQ_CFG.OWNER q == sl && s.is F.EVB_EVQ_CFG.EN q)).foldl State.queueDisable s

/-- A COMMITTING group completes; an OPEN one goes to ABORTING, its participants with GROUP_ABORT (R291, R292). -/
def State.resetGroup (s : State) (g : Nat) : State :=
  match Tbl.find s.groups g with
  | none => s
  | some x =>
    if s.groupState g = gsCOMMITTING then
      x.joined.foldl (fun s k => s.commitAck g k) (x.joined.foldl (fun s k => s.groupCommit g k) s)
    else s.groupAbort g (s.rd F.PRF_GRP_INFO.LAST_ABORT_CORE g) 8 8

/-- Step 3: groups end and cores return to HELD; the cores of a fenced die are skipped (R432). -/
def State.resetCores (s : State) (sl : Nat) : State :=
  let s := (s.groupsOf sl).foldl State.resetGroup s
  (s.coresHeldBy sl).foldl (fun s c =>
    if s.clusterLive (clusterOf c) && !s.fbit F.ALN_SUMMARY.FENCED 0 (siteOf c) then s.coreHeld c else s) s

/-- Step 4: OPEN and ARMED calibration slots are cancelled and shadows discarded; jobs and sends went with the rings. -/
def State.resetStores (s : State) (sl : Nat) : State :=
  let s := (idxWhere 64 (fun k => s.rd F.CTX_EPOCH.OWNER k == sl && (s.slotState k == ceOPEN || s.slotState k == ceARMED))).foldl
    State.slotFree s
  (idxWhere 64 (fun e => s.rd F.TRG_UNIT_STATUS.OWNER e == sl)).foldl State.shadowDrop s

/-- Step 5: the slice's groups are FREE and its use counts zero. -/
def State.resetUse (s : State) (sl : Nat) : State :=
  let s := (s.groupsOf sl).foldl State.groupFree s
  ((s.wr F.PRF_SLICE_GRP.USED sl 0).wr F.STP_SLICE_SHARE.USED sl 0).grpSettle sl |>.shareSettle sl

/-- The checks of a slice command that names an existing tenant slice (R395, R419). -/
def State.sliceNamed (s : State) (r : Nat) (zero : Bool) (f : Nat → State → State) : State :=
  let d := s.desc r
  let sl := dget d 8 1
  if dget d 10 2 ≠ s.sliceEpoch sl then s.finish r csSTALE
  else if s.sliceState sl = slFREE || (sl = 0 && !zero) then s.finish r csINVALID
  else f sl s

/-- SLICE_RESET: steps 1 to 3. -/
def State.sliceReset (s : State) (r sl : Nat) : State :=
  let s := s.wr F.HIF_SLICE_CFG.STATE sl slRESETTING
  let s := (s.resetRings sl).resetCores sl
  ({ s with hif := { s.hif with admin := some (.reset r sl) } }).start r

def execSliceReset (ring : Nat) (s : State) : Host.Outcome State Fault Refusal :=
  .next (s.adminCmd ring 0x04 (·.sliceNamed ring false (fun sl s => s.sliceReset ring sl)))

/-- The slice command in transit ends: its ring's command, if it still executes it, completes with the new epoch. -/
def State.adminEnd (s : State) (r op sl : Nat) : State :=
  let s := { s with hif := { s.hif with admin := none } }
  if (s.ring r).cur.any (fun c => c.started && c.done.isNone && byteAt c.desc 0 == op) then
    s.finish r csOK (s.sliceEpoch sl) else s

/-- SLICE_RESET_DONE: steps 4 to 6. -/
def State.sliceResetDone (s : State) : State :=
  match s.hif.admin with
  | some (.reset r sl) =>
    let s := ((s.resetStores sl).resetUse sl).startCores sl
    let s := (s.wr F.HIF_SLICE_CFG.STATE sl slACTIVE).bump F.HIF_SLICE_CFG.ROLE_EPOCH sl
    let s := (s.inc F.HIF_SLICE_CNT.RESETS sl).raise F.HIF_SLICE_STATUS.EVT_RESET_DONE sl
    s.adminEnd r 0x04 sl
  | _ => s

def execSliceResetDone (s : State) : Host.Outcome State Fault Refusal :=
  .next (if s.ringLive && !s.held then s.sliceResetDone else s)

/-! ## SLICE_DESTROY (R423) -/

/-- Plates a slice holds: HBM plates, then DDR5 plates as 192 + number. -/
def State.platesHeldBy (s : State) (sl : Nat) : List Nat :=
  idxWhere 192 (fun p => s.ownerH p == sl) ++ (idxWhere 2048 (fun q => s.ownerD q == sl)).map (192 + ·)

/-- Every resource of the slice returns to slice 0. -/
def State.sliceReturn (s : State) (sl : Nat) : State :=
  let port := s.rd F.HIF_SLICE_CFG.PORT sl
  let give (s : State) (kind n : Nat) (own : Nat → Nat) : State :=
    (idxWhere n (fun k => own k == sl)).foldl (fun s k => s.setOwner kind port k 0) s
  let s := give s 1 576 s.coreSlice
  let s := give s 2 192 s.ownerH
  let s := give s 3 2048 s.ownerD
  let s := give (give s 5 2048 (s.ownerV port)) 6 64 (fun u => s.rd F.TRG_UNIT_STATUS.OWNER u)
  let s := give s 7 8192 s.ringSlice
  let s := give (give s 8 1024 (fun q => s.rd F.EVB_EVQ_CFG.OWNER q)) 9 16 (fun q => s.rd F.EVB_ROUTE_CFG.OWNER q)
  let s := give s 10 256 (fun q => s.rd F.ETH_Q_CFG.OWNER q)
  (s.giveChannels sl []).sliceUse sl

/-- SLICE_DESTROY: the reset steps, the return of the resources, and the start of the zeroing. -/
def State.sliceDestroy (s : State) (r sl : Nat) : State :=
  let s := s.wr F.HIF_SLICE_CFG.STATE sl slDESTROYING
  let s := (((s.resetRings sl).resetCores sl).resetStores sl).resetUse sl
  let plates := s.platesHeldBy sl
  let s := s.sliceReturn sl
  let s := { s with mem := { s.mem with zeroing := plates.map (fun p => (sl, p)) } }
  ({ s with hif := { s.hif with admin := some (.destroy r sl) } }).start r

def execSliceDestroy (ring : Nat) (s : State) : Host.Outcome State Fault Refusal :=
  .next (s.adminCmd ring 0x02 (·.sliceNamed ring false (fun sl s => s.sliceDestroy ring sl)))

/-- First address of plate `p` in the numbering of `platesHeldBy`. -/
def plateStart (p : Nat) : Nat := if p < 192 then p * 2 ^ 30 else 2 ^ 42 + (p - 192) * 2 ^ 30

/-- SLICE_DESTROY_DONE: every returned plate holds zero data and a valid code, and the slice is FREE. -/
def State.sliceDestroyDone (s : State) : State :=
  match s.hif.admin with
  | some (.destroy r sl) =>
    let s := s.mem.zeroing.foldl (fun (s : State) (p : Nat × Nat) => s.memZero (plateStart p.2) (2 ^ 30)) s
    let s := { s with mem := { s.mem with zeroing := [] } }
    let s := (s.wr F.HIF_SLICE_CFG.STATE sl slFREE).bump F.HIF_SLICE_CFG.ROLE_EPOCH sl
    let s := (s.wr F.HIF_SLICE_CFG.PORT sl 0).wr F.HIF_SLICE_CFG.PASID sl 0
    s.adminEnd r 0x02 sl
  | _ => s

def execSliceDestroyDone (s : State) : Host.Outcome State Fault Refusal :=
  .next (if s.ringLive && !s.held then s.sliceDestroyDone else s)

/-! ## SLICE_QUOTA (R424) -/

def State.sliceQuota (s : State) (r sl : Nat) : State :=
  let d := s.desc r
  let v := dget d 16 8
  match dget d 9 1 with
  | 1 => if v ≤ 4096 then (s.grpLimit sl v).finish r csOK else s.finish r csINVALID
  | 2 => if v ≤ 16 then (s.stpShare sl v).finish r csOK else s.finish r csINVALID
  | _ => s.finish r csINVALID

def execSliceQuota (ring : Nat) (s : State) : Host.Outcome State Fault Refusal :=
  .next (s.adminCmd ring 0x03 (·.sliceNamed ring true (fun sl s => s.sliceQuota ring sl)))

/-! ## The spoof log (R428, R436) -/

/-- A read of HIF_SPOOF_LOG returns and removes the oldest entry. -/
def State.spoofRead (s : State) : State :=
  match s.hif.spoofLog with
  | [] => { s with rdata := 0 }
  | x :: rest => { s with rdata := x, hif := { s.hif with spoofLog := rest } }

def execSpoofLogRead (src : Src) (s : State) : Host.Outcome State Fault Refusal :=
  .next (({ s with rdata := 0 }).withRead src .HIF_SPOOF_LOG 0 State.spoofRead)

end Sys2Proof.Machine
end

