-- ==== Sys2Proof/Machine/RegWrite.lean ====
section
/-!
DEFINITION. The register space: what a read of a register returns, what a write of each does, and the doorbell windows in
it (R8 to R12, R370, R392, and the register section of every chapter).
-/

namespace Sys2Proof.Machine

/-! ## Reads -/

/-- Little-endian value of bytes 8k to 8k + 7 of a fuse. -/
def fuseWord (l : List (BitVec 8)) (k : Nat) : Nat := leAt l (8 * k) 8

/-- Is a register of an absent memory controller (R350)? -/
def State.absentCtl (s : State) (r : Reg) (i : Nat) : Bool :=
  match r with
  | .MEM_CTL_STATUS | .MEM_CTL_CNT0 | .MEM_CTL_CNT1 | .MEM_CTL_LAST_UE | .MEM_BURN_PTR | .MEM_FLIPCTL | .MEM_FLIP_ADDR =>
    !s.ctlPopulated i
  | .MEM_FLIP => !s.ctlPopulated (i / 16)
  | .PWR_REFTAB => s.hw.sites != .h12
  | _ => false

/-- Word of the claim FIFO's head (R222). -/
def claimWord : List Nat → Nat
  | [] => 0
  | x :: _ => x + 2 ^ 15

/-- Registers whose value follows other state, as a 64-bit word with the fields of `State.fieldNow` left zero. -/
def State.derived (s : State) (r : Reg) (i : Nat) : Option Nat :=
  match r with
  | .LANE_WM => some (unsignedOf 64 (s.laneWm i))
  | .EVC_PEND => some ((List.range 64).foldl (fun v j => if s.level (64 * i + j) then setBit v j else v) 0)
  | .GLB_ID => some (2 + s.rd F.ALN_SUMMARY.PKG_GEN <<< 8 + s.hw.cdPop <<< 16 + (2 ^ s.hw.nGuests - 1) <<< 28 + s.fuses.step <<< 32)
  | .SEC_FUSE => some (s.fuses.ownerValid % 16 + (s.fuses.ownerRevoked % 16) <<< 4 + b2n s.fuses.dieAuth <<< 8 +
      b2n s.fuses.secDbgOff <<< 9 + b2n s.fuses.hostPushOff <<< 10 + s.fuses.calomSvn <<< 16 + s.fuses.cfwSvn <<< 24)
  | .SEC_FUSE_SERIAL => some s.fuses.serial
  | .SEC_FUSE_VKEY => some (fuseWord s.fuses.vendorKey i)
  | .SEC_FUSE_OKEY => some (fuseWord (Tbl.get s.fuses.ownerKey (i / 4) []) (i % 4))
  | .SEC_FUSE_DIE => some (fuseWord (Tbl.get s.fuses.dieId (i / 10) []) (i % 10))
  | .HIF_SLICE_SUMMARY => some (((List.range 256).filter (fun k => s.sliceState k ≠ slFREE)).length +
      s.hif.spoofLog.length <<< 16 + s.rd F.HIF_SLICE_SUMMARY.LOG_LOST <<< 32)
  | .HIF_SPOOF_LOG => some (s.hif.spoofLog.headD 0)
  | .CDU_STATUS => some ((List.range 5).foldl (fun v k => v + s.rd F.PWR_DOM_STATUS.STATE (5 * i + k) <<< (2 * k)) 0 +
      s.rd F.CDU_STATUS.VDD i <<< 16)
  | _ => none

/-- Value of a register field as it reads, before the world is judged. -/
def State.fieldNow (s : State) (f : Field) (i : Nat) : Nat :=
  match f.reg, f.lo with
  | .STN_STATUS, 0 => b2n (s.dieAdmitted (12 + i) && s.domOn (98 + i))
  | .L2_STATUS, 0 => s.l2Dirty i
  | .L2_STATUS, 16 => (s.l2c i).lines.length
  | .L2_STATUS, 34 => (s.l2c i).lb.length
  | .DIR_SLICE_STATUS, 0 => (s.dir.entries.filter (fun e => homeSlice e.1 == i)).length
  | .DIR_SLICE_STATUS, 32 => s.openCount i
  | .PWR_DOM_CTL, 5 => b2n (s.lockHw i true)
  | .MEM_CTL_STATUS, 0 => b2n (s.ctlPopulated i)
  | .CORE_SSIP_SET, 0 => bits (s.csr i 0x344) 1 1
  | .CORE_CLAIM_M, 0 => claimWord (s.hart i).claimM % 1024
  | .CORE_CLAIM_M, 15 => b2n (!(s.hart i).claimM.isEmpty)
  | .CORE_CLAIM_S, 0 => claimWord (s.hart i).claimS % 1024
  | .CORE_CLAIM_S, 15 => b2n (!(s.hart i).claimS.isEmpty)
  | .CORE_STATUS, 0 => s.coreState i
  | .CKR_DOM, 16 => s.rd F.CKR_DOM.N (if i = 63 then 62 else i)
  | .CKR_DOM, 28 => s.rd F.CKR_DOM.M (if i = 63 then 62 else i)
  | _, _ => s.rd f i

/-- Does a field read zero: write-only, or secure for a normal-world reader (R9)? -/
def Field.hidden (f : Field) (secure : Bool) : Bool :=
  match f.ty with
  | .wo | .srwo => true
  | .srw => !secure
  | _ => f.reg == .CORE_CLAIM_M && !secure

/-- The 64-bit word that a read of a register returns. -/
def State.regNow (s : State) (secure : Bool) (x : RegRow) (i : Nat) : Nat :=
  if s.absentCtl x.reg i then 0 else
  match s.derived x.reg i with
  | some v => v
  | none => x.fields.foldl (fun v f => if f.hidden secure then v else v + (s.fieldNow f i % 2 ^ f.w) <<< f.lo) 0

/-- What a read of a register does beside returning its word: claims, the count latch, and the spoof log. -/
def State.readEffect (s : State) (src : Src) (r : Reg) (i off : Nat) : State :=
  match r with
  | .CORE_CLAIM_M => if off = 0 then s.claimRead src i true else s
  | .CORE_CLAIM_S => if off = 0 then s.claimRead src i false else s
  | .BEAT_COUNT => if off = 0 then { s with beat := { s.beat with latch := s.beatNow } } else s
  | .HIF_SPOOF_LOG => if off = 0 then s.spoofRead else s
  | _ => s

/-- A read of `size` bytes (4 or 8) at offset `a` of the register space: unassigned offsets and blocks that do not
answer read zero (R12). -/
def State.regRead (s : State) (src : Src) (a size : Nat) : Nat × State :=
  if size ≠ 4 && size ≠ 8 || a % size ≠ 0 then (2 ^ (8 * size) - 1, s) else
  match findReg a regTable with
  | none => (0, s)
  | some (x, i) =>
    if !s.regLive x.reg i then (0, s) else
    let off := a % 8
    let w := if x.reg == .BEAT_COUNT && off = 4 then s.beat.latch else s.regNow (isSecure src) x i
    let v := (w >>> (8 * off)) % 2 ^ (8 * size)
    (v, { s.readEffect src x.reg i off with rdata := s.rdata })

/-! ## Writes -/

/-- The bits of a 64-bit register that a write touches, and the word it holds after the write where its fields take the
data: fields outside the access keep their value, one-shot fields read 0 there (R8, R9). -/
def State.mergeWord (s : State) (x : RegRow) (i off size value : Nat) : Nat × Nat :=
  let mask := (2 ^ (8 * size) - 1) <<< (8 * off)
  let old := x.fields.foldl (fun v f => match f.ty with
    | .rw | .rwl | .srw => v + s.rd f i <<< f.lo
    | _ => v) 0
  (mask, (old &&& (mask ^^^ (2 ^ 64 - 1))) ||| ((value <<< (8 * off)) &&& mask))

/-- Does a write touch the field? -/
def Field.touched (f : Field) (mask : Nat) : Bool := bits mask f.lo f.w != 0

/-- Every W1C bit written one clears. -/
def State.w1c (s : State) (x : RegRow) (i mask v : Nat) : State :=
  x.fields.foldl (fun s f => if f.ty == .w1c && f.touched mask && bits v f.lo f.w != 0 then s.wr f i 0 else s) s

/-- A field takes the data by its type (R9, R10). -/
def State.fieldWrite (s : State) (secure : Bool) (f : Field) (i v : Nat) : State :=
  match f.ty with
  | .rw => s.wr f i (s.legal f i (bits v f.lo f.w))
  | .srw => if secure then s.wr f i (s.legal f i (bits v f.lo f.w)) else s
  | _ => s

/-- The fields of a register without behaviour of their own. -/
def State.plainWrite (s : State) (secure : Bool) (x : RegRow) (i mask v : Nat) : State :=
  x.fields.foldl (fun s f => if f.touched mask then s.fieldWrite secure f i v else s) s

/-- A write of ALN_PORT_CTL. -/
def State.alnCtl (s : State) (secure : Bool) (n v : Nat) : State :=
  let s := s.wr F.ALN_PORT_CTL.REPLAY_LIMIT n (bits v 8 8)
  let s := if bits v 0 1 = s.rd F.ALN_PORT_CTL.EN n then s else s.alnEn n (bits v 0 1)
  ((s.when (v.testBit 2) (·.widthRestore n)).when (v.testBit 1) (·.alnRestart n)).when (secure && v.testBit 3) (·.unfence n)

/-- A secure write of CORE_CTL: with both bits written one the reset wins (R212). -/
def State.coreCtl (s : State) (k v : Nat) : State :=
  if v.testBit 1 then s.coreHeld k else if v.testBit 0 then s.coreRun k else s

/-- Is any history ring enabled? -/
def State.anyHist (s : State) : Bool := (List.range 192).any (fun n => s.is F.EVB_HIST_CFG.EN n)

/-- A write of EVB_CFG: ASHIFT is held while a history ring is enabled. -/
def State.evbCfg (s : State) (v : Nat) : State :=
  let s := s.wr F.EVB_CFG.EN 0 (v % 2)
  if s.anyHist then s else s.wr F.EVB_CFG.ASHIFT 0 (s.legal F.EVB_CFG.ASHIFT 0 (bits v 4 4))

/-- A write of HIF_DB_CFG: a port's mode is held while one of its rings is enabled. -/
def State.dbCfg (s : State) (v : Nat) : State :=
  let busy (p : Nat) : Bool := s.enabledRings.any (fun r => s.ringPort r == p)
  (s.when (!busy 0) (·.wr F.HIF_DB_CFG.PPR0 0 (bits v 0 1))).when (!busy 1) (·.wr F.HIF_DB_CFG.PPR1 0 (bits v 1 1))

/-- A write of DBG_EN. -/
def State.dbgEn (s : State) (secure : Bool) (mask v : Nat) : State :=
  let s := if secure && mask % 16 ≠ 0 then s.fwEn v else s
  if v.testBit 24 then s.authClr else s

/-- What a write of a register with behaviour of its own does; none for a register without. -/
def State.regAct (s : State) (src : Src) (x : RegRow) (i mask v : Nat) : Option State :=
  let sec := isSecure src
  let plain : State := s.plainWrite sec x i mask v
  let secOnly (t : State) : Option State := some (if sec then t else s)
  match x.reg with
  | .ALN_CFG => some (s.alnCfg v)
  | .ALN_PORT_CTL => some (s.alnCtl sec i v)
  | .BEAT_CFG => some (s.beatCfg v)
  | .BEAT_CTL => some (s.beatCtl v)
  | .BEAT_RQ_CFG => some (s.rqCfg v)
  | .HLN_GRP_CFG => some (s.grpRate i v)
  | .LANE_CFG => some (s.laneCfg i v)
  | .LANE_CTL => some ((s.when (v.testBit 0) (·.laneClear i)).when (v.testBit 1) (·.laneResync i))
  | .LANE_SC_CTL => some (s.scCtl i v)
  | .TIO_OUT_CTL => some (s.outCtl v)
  | .TIO_IN_CFG => some (s.inCfg i v)
  | .TIO_IN_CTL => some (s.when (v.testBit 0) (·.rearm i))
  | .EVB_CFG => some (s.evbCfg v)
  | .EVB_BP_CFG => some plain.evbSettle
  | .EVB_EVN_NEXT => some (if s.is F.EVB_CFG.EN then s else plain)
  | .EVB_HIST_CFG => some (s.histCfg i v)
  | .EVB_HIST_BASE => some (if s.is F.EVB_HIST_CFG.EN i then s else plain)
  | .EVB_ROUTE_CFG => some (s.routeCfg i 0 v)
  | .EVB_ROUTE_TMO => some (s.routeCfg i 1 v)
  | .EVB_ROUTE_LANES => some (s.routeCfg (i / 3) (2 + i % 3) v)
  | .EVB_POOL_BASE => some (if s.is F.EVB_POOL_CFG.EN i then s else plain)
  | .EVB_POOL_CFG => some (s.poolCfg i v)
  | .EVB_EVQ_BASE => some (if s.is F.EVB_EVQ_CFG.EN i then s else plain)
  | .EVB_EVQ_CFG => some (s.evqCfg i v)
  | .CORE_CTL => secOnly (s.coreCtl i v)
  | .CORE_MTIMECMP => secOnly (plain.timerBits i)
  | .CORE_SSIP_SET => some (s.when (v.testBit 0) (·.mipBit i 1 true))
  | .L2_CTL => secOnly (s.l2Ctl i v)
  | .DIR_PROBE_ADDR => secOnly (s.dirProbe v)
  | .PRF_SLICE_GRP => some (if bits v 0 13 ≤ 4096 then s.grpLimit i (bits v 0 13) else s)
  | .STP_SLICE_SHARE => some (s.stpShare i (bits v 0 5))
  | .ETH_PORT_CFG => some (s.ethPortCfg i v)
  | .ETH_Q_CFG => some (s.ethQCfg i v)
  | .MEM_WM => secOnly (s.wmWrite src v)
  | .MEM_PLATE_CFG_H => secOnly (s.tWrite false i (bits v 0 5))
  | .MEM_PLATE_CFG_D => secOnly (s.tWrite true i (bits v 0 5))
  | .STN_WIN => secOnly (s.winWrite (i / 8) (i % 8) v)
  | .STN_WIN_LIMIT => secOnly (s.winLimit i v)
  | .HIF_DB_CFG => some (s.dbCfg v)
  | .HIF_RING_CFG => some (if s.isManager src then s.ringCfg i v else s)
  | .HIF_RING_SQ | .HIF_RING_CQ => some (if s.isManager src && !s.is F.HIF_RING_CFG.EN i then plain else s)
  | .HIF_RING_IRQ => some (if s.isManager src then plain else s)
  | .HIF_EVQ_DB => some (s.evqDb i v)
  | .DBG_EN => some (s.dbgEn sec mask v)
  | .DBG_AUTH_CTL => some (s.authCtl v)
  | .DBG_ACC_CTL => some (s.accCtl v)
  | .CKR_DOM => some (s.ckrDom src i v)
  | .CKR_RESET_CTL => secOnly (s.when (v.testBit 0) (·.warmReset 8))
  | .PWR_DOM_CTL => some (s.pwrCtl src i v)
  | .EVC_SRC_CFG => some (s.srcCfg src i v)
  | .MSIX_CTL => some (plain.msixFlush (i / 2048))
  | _ => none

/-- A write reaches a register: W1C bits clear, and where it touches a field that takes data the register acts. -/
def State.regPut (s : State) (src : Src) (x : RegRow) (i off size value : Nat) : State :=
  if s.absentCtl x.reg i then s
  else if x.reg == .BEAT_RQ_SLACK then s.slackReset
  else
    let (mask, v) := s.mergeWord x i off size value
    let s := s.w1c x i mask v
    if !x.fields.any (fun f => f.touched mask && f.ty != .ro && f.ty != .w1c) then s else
    match s.regAct src x i mask v with
    | some t => t
    | none => s.plainWrite (isSecure src) x i mask v

/-- Is an access of a form the register space takes (R8, R370)? -/
def formOk (a size : Nat) : Bool := (size == 4 || size == 8) && a % size == 0

/-- A write of `size` bytes at offset `a` of the register space, where it is not a doorbell. -/
def State.regWrite (s : State) (src : Src) (a size value : Nat) : State :=
  if !formOk a size then
    match src with
    | .host p => s.when (s.barOpen p) (·.inc F.HIF_PORT_CNT1.DROPPED_WR p)
    | _ => s
  else match findReg a regTable with
    | none => match src with
      | .host p => s.when (p == 1 && s.barOpen 1) (·.inc F.HIF_PORT_CNT1.DROPPED_WR 1)
      | _ => s
    | some (x, i) => s.withReg src x.reg i (fun s => s.regPut src x i (a % 8) size value)

/-- Offsets of the doorbell windows of R392: rings, then queues. -/
def inRingDb (a : Nat) : Bool := 0x7C0000 ≤ a && a < 0x7D0000
def inQueueDb (a : Nat) : Bool := 0x7D0000 ≤ a && a < 0x7D1000

/-- A write anywhere in the register space: only aligned 4-byte writes are doorbells in their windows. -/
def State.spaceWrite (s : State) (src : Src) (a size value : Nat) : State :=
  if (inRingDb a || inQueueDb a) && (size ≠ 4 || a % 4 ≠ 0) then
    (match src with
      | .host p => s.when (s.barOpen p && (p == 1 || !formOk a size)) (·.inc F.HIF_PORT_CNT1.DROPPED_WR p)
      | _ => s)
  else if inRingDb a then s.doorbell (.window src ((a - 0x7C0000) / 8)) ((a / 4) % 2 == 1) (value % 2 ^ 32)
  else if inQueueDb a then s.queueDb (.window src ((a - 0x7D0000) / 4)) (value % 2 ^ 32)
  else s.regWrite src a size value

/-- REGISTER_WRITE. -/
def execRegisterWrite (src : Src) (addr size value : Nat) (s : State) : Host.Outcome State Fault Refusal :=
  .next (if s.held then s else s.spaceWrite src addr size value)

end Sys2Proof.Machine
end

