-- ==== Sys2Proof/Machine/Profile.lean ====
section
/-!
DEFINITION. Boot profiles: the image, its checks, and the application of its records (R492 to R495), with the ADMIN
commands that write and select them.
-/

namespace Sys2Proof.Machine

/-! ## The image (R493) -/

/-- The header of a profile image without its CRC. -/
def profileHead (slot src nrec id : Nat) (crc : Nat) : List (BitVec 8) :=
  natLE 4 0x50524F46 ++ natLE 1 1 ++ natLE 1 slot ++ natLE 1 src ++ natLE 1 0 ++ natLE 2 nrec ++ natLE 2 0 ++
    natLE 4 (64 + 16 * nrec) ++ natLE 4 crc ++ natLE 4 id ++ List.replicate 40 0

/-- Profile 0: no records, boot source SPI NOR (R492). -/
def profile0 : List (BitVec 8) :=
  profileHead 0 0 0 Config.profile0Id (crc32 (profileHead 0 0 0 Config.profile0Id 0))

/-- Records of an image: offset and value. -/
def profileRecs (img : List (BitVec 8)) : List (Nat × Nat) :=
  (List.range (leAt img 8 2)).map (fun i => (leAt img (64 + 16 * i) 4, leAt img (72 + 16 * i) 8))

/-! ## What a record may name (R494) -/

/-- May field `f` of instance `i` of a register be named by a record? -/
def profileField (f : Field) (i : Nat) : Bool :=
  match f.reg with
  | .CKR_DOM => f.lo == 0 || f.lo == 2 || f.lo == 16 || f.lo == 28
  | .PWR_DOM_CTL => f.lo == 0 || f.lo == 3 || f.lo == 4
  | .HLN_GRP_CFG | .LANE_CFG | .BEAT_CFG | .BEAT_SKEW | .BEAT_OUT_CTL | .TIO_OUT_CTL | .TIO_IN_CFG | .HIF_DB_CFG => true
  | .BEAT_RQ_CFG => f.lo != F.BEAT_RQ_CFG.RUN.lo
  | .STP_SLICE_SHARE | .PRF_SLICE_GRP => i == 0
  | _ => false

/-- Is a record's register, and every field its value is non-zero in, one of R494's? -/
def profileRecOk (off value : Nat) : Bool :=
  off % 8 == 0 && match findReg off regTable with
  | none => false
  | some (x, i) => x.fields.any (fun f => profileField f i) &&
      x.fields.all (fun f => profileField f i || bits value f.lo f.w == 0)

/-- The checks of R495 on an image for a slot. -/
def profileGood (slot : Nat) (img : List (BitVec 8)) : Bool :=
  let n := leAt img 8 2
  let zeroed := img.take 16 ++ natLE 4 0 ++ img.drop 20
  leAt img 0 4 == 0x50524F46 && byteAt img 4 == 1 && byteAt img 5 == slot && byteAt img 6 ≤ 1 && byteAt img 7 == 0 &&
    n ≤ 4096 && leAt img 10 2 == 0 && leAt img 12 4 == 64 + 16 * n && img.length == 64 + 16 * n &&
    leAt img 16 4 == crc32 zeroed && leAt img 24 40 == 0 &&
    (List.range n).all (fun i => leAt img (68 + 16 * i) 4 == 0) &&
    (profileRecs img).all (fun r => profileRecOk r.1 r.2)

/-- The image a slot holds; empty for none. -/
def State.profileImage (s : State) (slot : Nat) : List (BitVec 8) :=
  if slot = 0 then profile0 else Tbl.get s.vellum.profiles slot []

/-- Does a slot hold an image that passes R495? -/
def State.profileValid (s : State) (slot : Nat) : Bool := slot == 0 || profileGood slot (s.profileImage slot)

/-- GLB_PROFILE.VALID follows the slots. -/
def State.profileMap (s : State) : State :=
  s.wr F.GLB_PROFILE.VALID 0 ((idxWhere 4 s.profileValid).foldl setBit 0)

/-! ## Selection and application (R492, R494) -/

/-- The profile of this boot is selected: the pending one, or profile 0 with FALLBACK. -/
def State.profileSelect (s : State) : State :=
  let want := s.rd F.GLB_PROFILE.PENDING
  let ok := s.profileValid want
  let slot := if ok then want else 0
  let img := s.profileImage slot
  let s := (s.profileMap.wr F.GLB_PROFILE.ACTIVE 0 slot).wr F.GLB_PROFILE.FALLBACK 0 (b2n !ok)
  let s := (s.wr F.GLB_PROFILE.BOOT_SRC 0 (byteAt img 6)).wr F.GLB_PROFILE_ID.ID 0 (leAt img 20 4)
  { s with boot := { s.boot with profile := img } }

/-- Does every field that a record names hold the record's value? -/
def State.recordHeld (s : State) (x : RegRow) (i value : Nat) : Bool :=
  x.fields.all (fun f => match f.ty with
    | .rw | .rwl | .srw => !profileField f i || s.rd f i == bits value f.lo f.w
    | _ => true)

/-- One record is written as a secure write; refused or ignored, it counts in APPLY_ERR. -/
def State.applyRecord (s : State) (r : Nat × Nat) : State :=
  match findReg r.1 regTable with
  | none => s.inc F.GLB_PROFILE.APPLY_ERR
  | some (x, i) =>
    let live := s.regLive x.reg i
    let s := s.spaceWrite .secure r.1 8 r.2
    s.when (!live || !s.recordHeld x i r.2) (·.inc F.GLB_PROFILE.APPLY_ERR)

/-- Is the record one of CKR, which the boot ROM applies? -/
def ckrRecord (r : Nat × Nat) : Bool :=
  match findReg r.1 regTable with
  | some (x, _) => x.reg == .CKR_DOM
  | none => false

/-- A CKR record: OWNER_S, then the ratio, then EN; FMAX_PLAN is not the record's. -/
def State.applyCkr (s : State) (r : Nat × Nat) : State :=
  match findReg r.1 regTable with
  | none => s
  | some (x, d) =>
    let v := r.2
    let s := s.wr F.CKR_DOM.OWNER_S d (bits v 2 1)
    let same := bits v 16 12 = s.rd F.CKR_DOM.N d && bits v 28 8 = s.rd F.CKR_DOM.M d
    let s := if same then s else s.ratioWrite d v
    let s := if v % 2 = s.rd F.CKR_DOM.EN d then s else s.gateWrite .secure d (v % 2)
    s.when (!s.recordHeld x d v) (·.inc F.GLB_PROFILE.APPLY_ERR)

/-- The CKR records of the profile in force, in image order (R447 step 4). -/
def State.profileCkr (s : State) : State := ((profileRecs s.boot.profile).filter ckrRecord).foldl State.applyCkr s

/-- All its other records, in image order (between steps 10 and 11). -/
def State.profileRest (s : State) : State :=
  ((profileRecs s.boot.profile).filter (fun r => !ckrRecord r)).foldl State.applyRecord s

/-! ## The ADMIN commands (R407, R492, R495) -/

/-- SET_PROFILE. -/
def State.setProfile (s : State) (r : Nat) : State :=
  let p := dget (s.desc r) 8 1
  if p < 4 then (s.wr F.GLB_PROFILE.PENDING 0 p).finish r csOK else s.finish r csINVALID

def execSetProfile (ring : Nat) (s : State) : Host.Outcome State Fault Refusal :=
  .next (s.adminCmd ring 0x06 (·.setProfile ring))

/-- PROFILE_WRITE: an image that passes R495 replaces the slot's. -/
def State.profileWrite (s : State) (r : Nat) : State :=
  let d := s.desc r
  let slot := dget d 8 1
  let len := dget d 24 4
  if slot = 0 || 3 < slot || len < 64 || 64 + 16 * 4096 < len then s.finish r csINVALID else
  match s.cmdRead r 5 (dget d 16 8) len with
  | (.wait, s) => s
  | (.bad st, s) => s.finish r st
  | (.data img bad, s) =>
    if !bad.isEmpty then s.finish r csPOISON
    else if !profileGood slot img then s.finish r csINVALID
    else
      let s := { s with vellum := { s.vellum with profiles := Tbl.set s.vellum.profiles slot img [] } }
      s.profileMap.finish r csOK

def execProfileWrite (ring : Nat) (s : State) : Host.Outcome State Fault Refusal :=
  .next (s.adminCmd ring 0x07 (·.profileWrite ring))

end Sys2Proof.Machine
end

