-- ==== Sys2Proof/Machine/Ledger.lean ====
section
/-!
DEFINITION. The lifetime ledger and the margin planner (R497 to R507), the supply fence (R521), and the ADMIN commands
LEDGER_READ and PLAN.
-/

namespace Sys2Proof.Machine

/-! ## Wear sensors (R497) -/

/-- Power domain that a sensor sits in. -/
def sensorDom (k : Nat) : Nat :=
  if k < 192 then clusterDom (k / 4)
  else if k < 194 then 60
  else if k < 202 then 61 + (k - 194) / 2
  else if k < 210 then 65 + (k - 202) / 2
  else if k = 210 then 69
  else if k < 219 then 70 + (k - 211)
  else if k < 223 then 78 + (k - 219)
  else if k < 231 then 82 + (k - 223)
  else if k = 231 then 90
  else if k < 234 then 91
  else if k = 234 then 92
  else if k = 235 then 93
  else if k < 238 then 94 + (k - 236)
  else 96 + (k - 238)

/-- Wear of a domain: the greatest reading among its sensors. -/
def State.domWear (s : State) (d : Nat) : Nat :=
  ((idxWhere 240 (fun k => sensorDom k == d)).map (fun k => s.rd F.LGR_WEAR.W k)).foldl max 0

/-- Does Calom run: its main stage has been entered and the chain has not stopped? -/
def State.calomRuns (s : State) : Bool :=
  !s.held && 2 ≤ s.rd F.SEC_BOOT_STATUS.STAGE && s.rd F.SEC_BOOT_STATUS.STAGE ≤ 4

/-- A reading of every sensor whose domain is ON (R498). -/
def State.readSensors (s : State) (readings : List Nat) (hour : Nat) : State :=
  (List.range 240).foldl (fun s k =>
    match readings[k]? with
    | some w => if s.domOn (sensorDom k) then
        ((s.wr F.LGR_WEAR.W k (min w (2 ^ 24 - 1))).wr F.LGR_WEAR.DOMAIN k (sensorDom k)).wr F.LGR_WEAR.HOUR k hour
      else s
    | none => s) s

/-! ## The ledger image (R503, R504) -/

/-- The committed image: that of the slot with the highest sequence number whose digest verifies. -/
def Vellum.newest (v : Vellum) : Option (Nat × LedgerSlot) :=
  (v.ledger.filter (fun e => e.2.good)).foldl (fun b e => match b with
    | none => some e
    | some x => if x.2.seq < e.2.seq then some e else some x) none

def State.committed (s : State) : LedgerImage :=
  match s.vellum.newest with
  | some e => e.2.image
  | none => LedgerImage.init

/-- Is the value of a section's index the latest one, and not a count? -/
def ledgerLatest (key : Nat × Nat) : Bool := key.1 == secWear || (key.1 == secLink && 220 ≤ key.2)

/-- The last `n` of a list. -/
def lastN {A : Type} (n : Nat) (l : List A) : List A := l.drop (l.length - n)

/-- The committed image merged with the accumulator, at this instant. -/
def State.mergedImage (s : State) : LedgerImage :=
  let img := s.committed
  let acc := s.lgr.acc
  let counts := acc.counts.foldl (fun t e =>
    Tbl.set t e.1 (if ledgerLatest e.1 then e.2 else Tbl.get img.counts e.1 0 + e.2) 0) img.counts
  let counts := (List.range 240).foldl (fun t k =>
    Tbl.set (Tbl.set t (secWear, k) (s.rd F.LGR_WEAR.W k) 0) (secWear, 256 + k) (s.rd F.LGR_WEAR.HOUR k) 0) counts
  LedgerImage.mk counts (lastN 64 (img.plan ++ acc.plan)) (lastN 256 (img.log ++ acc.log))
    (s.rd F.LGR_HOURS.POWERED_HOURS) (img.cycles + acc.cycles)

/-- The hourly slot write: the image goes to the next slot; only a good write clears the accumulator (R503). -/
def State.slotWrite (s : State) (ok : Bool) : State :=
  let img := s.mergedImage
  let slot := s.lgr.next
  let seq := (s.lgr.seq + 1) % 2 ^ 32
  let s := { s with vellum := { s.vellum with ledger := Tbl.put s.vellum.ledger slot (LedgerSlot.mk seq img ok) } }
  if ok then
    let s := { s with lgr := { s.lgr with acc := LedgerImage.init, next := (slot + 1) % 8, seq := seq } }
    (s.wr F.LGR_STATUS.SEQ 0 seq).raise F.LGR_STATUS.EVT_WRITE
  else s.raise F.LGR_STATUS.EVT_WRITE_ERR

/-! ## The planner (R501, R502) -/

/-- Greatest `r` below 2^32 with r^4 ≤ x. -/
def root4 (x : Nat) : Nat :=
  (List.range 32).foldl (fun r k => let c := r + 2 ^ (31 - k); if c ^ 4 ≤ x then c else r) 0

/-- Is W / B(h) at most `pct` hundredths?  B(h) = W_EOL × (max(h, 1,000) / 350,640)^(1/4), compared as fourth powers. -/
def ratioAtMost (w eol hours pct : Nat) : Bool := (100 * w) ^ 4 * 350640 ≤ (pct * eol) ^ 4 * max hours 1000

/-- ⌊100 W / B(h)⌋. -/
def ratioPct (w eol hours : Nat) : Nat := root4 ((100 * w) ^ 4 * 350640 / (eol ^ 4 * max hours 1000))

/-- A cap lowered by `by_` MHz from min(cap, MAX_CLK), never below 2,000 MHz; and whether the floor held it. -/
def lowerCap (cap maxClk by_ : Nat) : Nat × Bool :=
  let base := min cap maxClk
  if base < 2000 + by_ then (2000, true) else (base - by_, false)

/-- What the table of R501 gives a cluster: its FMAX_PLAN and whether EVT_WEAR_HIGH is set. -/
def planCap (w eol hours cap maxClk : Nat) : Nat × Bool :=
  if ratioAtMost w eol hours 90 then
    (if cap = 0xFFFF then cap else if maxClk ≤ cap + 100 then 0xFFFF else cap + 100, false)
  else if ratioAtMost w eol hours 100 then (cap, false)
  else if ratioAtMost w eol hours 125 then lowerCap cap maxClk 100
  else ((lowerCap cap maxClk 200).1, true)

/-- Guardband of a cluster in mV. -/
def planGuard (w : Nat) : Nat := min 50 ((w + 999) / 1000)

/-- The plan for one cluster: domain, guardband, cap, wear-high. -/
structure PlanRow where
  dom : Nat
  guard : Nat
  cap : Nat
  high : Bool
  deriving DecidableEq, Repr

def State.planCluster (s : State) (d : Nat) : PlanRow :=
  let w := s.domWear d
  let (cap, high) := planCap w (s.rd F.LGR_CFG.W_EOL) (s.rd F.LGR_HOURS.POWERED_HOURS) (s.rd F.CKR_DOM.FMAX_PLAN d)
    (s.maxClk (d / 5))
  PlanRow.mk d (planGuard w) cap high

/-- The rows of a die's clusters, and its voltage request: the adaptive setting, which the spec leaves to Calom and is
free, plus the greatest guardband; held at 1,000 mV it lowers every cluster of the die by 100 MHz more (R502). -/
def State.planDie (s : State) (n : Nat) : List PlanRow × Nat × State :=
  let rows := (List.range 4).map (fun c => s.planCluster (5 * n + c))
  let guard := (rows.map (·.guard)).foldl max 0
  let (k, s) := s.free 401
  let volts := 600 + k + guard
  if 1000 < volts then
    (rows.map (fun (r : PlanRow) =>
      let (cap, held) := lowerCap r.cap (s.maxClk n) 100
      PlanRow.mk r.dom r.guard cap (r.high || held)), 1000, s)
  else (rows, volts, s)

/-- The decisions of a row: cap before guardband, and WEAR_HIGH where neither changes. -/
def State.rowDecisions (s : State) (r : PlanRow) : List Decision :=
  let hour := s.rd F.LGR_HOURS.POWERED_HOURS
  let pct := ratioPct (s.domWear r.dom) (s.rd F.LGR_CFG.W_EOL) hour
  let old := s.rd F.CKR_DOM.FMAX_PLAN r.dom
  let mk (action : Nat) : Decision := Decision.mk r.dom hour action pct r.cap r.guard
  (if r.cap < old then [mk 2] else if old < r.cap then [mk 3] else []) ++
    (if r.guard ≠ s.rd F.LGR_PLAN.GUARD_MV r.dom then [mk 1] else []) ++
    (if r.high && r.cap = old && r.guard = s.rd F.LGR_PLAN.GUARD_MV r.dom then [mk 4] else [])

/-- Hub domains with sensors whose r is above 1.25. -/
def State.hubHigh (s : State) : List Nat :=
  (idxWhere 98 (fun d => 60 ≤ d && !ratioAtMost (s.domWear d) (s.rd F.LGR_CFG.W_EOL) (s.rd F.LGR_HOURS.POWERED_HOURS) 125))

/-- A die's rail request is published (R521). -/
def State.setRequest (s : State) (n mv guard : Nat) : State :=
  { s with lgr := { s.lgr with request := Tbl.put s.lgr.request n mv, guards := Tbl.set s.lgr.guards n guard 0 } }

/-- A cap comes into force: a lower ratio first where the clock is above it, then FMAX_PLAN (R502). -/
def State.applyCap (s : State) (d cap : Nat) : State :=
  let s := if cap ≠ 0xFFFF && cap * s.rd F.CKR_DOM.M d < 100 * s.rd F.CKR_DOM.N d then
      ((s.wr F.CKR_DOM.N d (cap / 100)).wr F.CKR_DOM.M d 1).wr F.CKR_DOM.SWITCHING d 1
    else s
  s.wr F.CKR_DOM.FMAX_PLAN d cap

/-- A decision is written to LGR_PLAN. -/
def State.planReg (s : State) (d : Decision) : State :=
  ((((s.wr F.LGR_PLAN.GUARD_MV d.domain d.guard).wr F.LGR_PLAN.FMAX_MHZ d.domain d.fmax).wr F.LGR_PLAN.RATIO_PCT d.domain
    (min 255 d.ratio)).wr F.LGR_PLAN.HOUR d.domain d.hour)

/-- A decision is applied: its cap, for a cluster, and its LGR_PLAN entry. -/
def State.applyDecision (s : State) (d : Decision) : State :=
  (if d.domain < 60 then s.applyCap d.domain d.fmax else s).planReg d

/-- The newest copy of the plan record whose digest verifies. -/
def State.planNewest (s : State) : PlanCopy :=
  (s.vellum.plans.filter (·.good)).foldl (fun b c => if b.seq < c.seq then c else b) (PlanCopy.mk 0 [] true)

/-- The decisions are committed to the older copy of the plan record: those in force, one set per domain. -/
def State.planCommit (s : State) (ds : List Decision) : State :=
  let cur := s.planNewest
  let keep := cur.decisions.filter (fun (o : Decision) => !ds.any (fun n => n.domain == o.domain))
  let copy := PlanCopy.mk ((cur.seq + 1) % 2 ^ 32) (keep ++ ds) true
  { s with vellum := { s.vellum with plans := [cur, copy] } }

/-- A plan runs: decisions taken, committed to the plan record, then applied and entered in the accumulator (R502). -/
def State.runPlan (s : State) : State :=
  let dies := idxWhere 12 (fun n => s.hw.site n)
  let (rows, volts, s) := dies.foldl (fun (acc : List PlanRow × List (Nat × Nat × Nat) × State) n =>
    let (rs, mv, s) := acc.2.2.planDie n
    (acc.1 ++ rs, acc.2.1 ++ [(n, mv, (rs.map (·.guard)).foldl max 0)], s)) ([], [], s)
  let hour := s.rd F.LGR_HOURS.POWERED_HOURS
  let hub := s.hubHigh.map (fun d => Decision.mk d hour 4 (ratioPct (s.domWear d) (s.rd F.LGR_CFG.W_EOL) hour) 0xFFFF 0)
  let ds := rows.flatMap s.rowDecisions ++ hub
  let high := rows.any (·.high) || !hub.isEmpty
  let s := s.planCommit ds
  let s := ds.foldl State.applyDecision s
  let s := volts.foldl (fun s v => s.setRequest v.1 v.2.1 v.2.2) s
  let s := { s with lgr := { s.lgr with acc := { s.lgr.acc with plan := s.lgr.acc.plan ++ ds } } }
  (s.when high (·.raise F.LGR_STATUS.EVT_WEAR_HIGH)).raise F.LGR_STATUS.EVT_PLAN

/-- PLAN (R502): a plan runs to its end within the command (assumption log 23). -/
def State.planCmd (s : State) (r : Nat) : State :=
  if s.is F.LGR_STATUS.PLANNING then s.finish r csBUSY else (s.runPlan).finish r csOK

def execPlan (ring : Nat) (s : State) : Host.Outcome State Fault Refusal := .next (s.adminCmd ring 0x09 (·.planCmd ring))

/-! ## The powered-hour boundary (R498, R502, R503, R507) -/

def State.poweredHour (s : State) (readings : List Nat) (ok : Bool) : State :=
  let hour := s.rd F.LGR_HOURS.POWERED_HOURS + 1
  let s := (s.wr F.LGR_HOURS.POWERED_HOURS 0 hour).readSensors readings hour
  let s := s.slotWrite ok
  s.when (hour % 1000 == 0 && s.is F.LGR_CFG.AUTO_PLAN) State.runPlan

def execPoweredHour (readings : List Nat) (ok : Bool) (s : State) : Host.Outcome State Fault Refusal :=
  .next (if s.calomRuns then s.poweredHour readings ok else s)

/-! ## The second's sample (R499, R500) -/

/-- Bin of a temperature in hundredths of a degree. -/
def tempBin (t : Int) : Nat := min 15 ((t - 2500) / 625).toNat

/-- Bin of a rail voltage in mV. -/
def voltBin (mv : Nat) : Nat := min 15 ((mv - 600) / 25)

/-- Domains of die `n` that are ON and have a reading. -/
def State.dieTemps (s : State) (temps : List Int) (n : Nat) : List Int :=
  (List.range 5).filterMap (fun k => if s.domOn (5 * n + k) then temps[5 * n + k]? else none)

/-- The cap of R500 on die `n`: every cluster ratio above 2,000 MHz is lowered to it. -/
def State.capDie (s : State) (n : Nat) : State :=
  let s := { s with lgr := { s.lgr with capped := n :: s.lgr.capped } }
  let s := (List.range 4).foldl (fun s c =>
    let d := 5 * n + c
    if 20 * s.rd F.CKR_DOM.M d < s.rd F.CKR_DOM.N d then
      ((s.wr F.CKR_DOM.N d 20).wr F.CKR_DOM.M d 1).wr F.CKR_DOM.SWITCHING d 1
    else s) s
  s.raise F.LGR_STATUS.EVT_THROTTLE

/-- The cap of a die after a sample: imposed above THROT_C, lifted 5 °C or more below it. -/
def State.thermalDie (s : State) (temps : List Int) (n : Nat) : State :=
  let limit : Int := 100 * (s.rd F.LGR_CFG.THROT_C : Nat)
  let ts := s.dieTemps temps n
  let capped := s.lgr.capped.contains n
  let s := if !capped && ts.any (fun t => limit < t) then s.capDie n
    else if capped && !ts.isEmpty && ts.all (fun t => t + 500 ≤ limit) then
      { s with lgr := { s.lgr with capped := s.lgr.capped.filter (· ≠ n) } }
    else s
  s.when (s.lgr.capped.contains n) (·.ledgerTime secThrottle (1 + n) 1 3600)

/-- THERMAL_SAMPLE: temperatures in hundredths of a degree by domain 0–97, rail voltages in mV by compute die. -/
def State.thermalSample (s : State) (temps : List Int) (volts : List Nat) : State :=
  let s := (List.range 98).foldl (fun s d =>
    match temps[d]? with
    | some t => if !s.domOn d then s else
        let hot : Bool := Decidable.decide (Int.ofNat (100 * s.rd F.LGR_CFG.THROT_C) < t)
        let s := s.ledgerTime secTemp (16 * d + tempBin t) 1 3600
        if hot then s.raise F.LGR_STATUS.EVT_TEMP_HIGH else s
    | none => s) s
  let s := (List.range 12).foldl (fun s n =>
    match volts[n]? with
    | some v => if s.hw.site n then (s.ledgerTime secVolt (16 * n + voltBin v) 1 3600).wr F.CDU_STATUS.VDD n v else s
    | none => s) s
  (idxWhere 12 (fun n => s.hw.site n)).foldl (fun s n => s.thermalDie temps n) s

def execThermalSample (temps : List Int) (volts : List Nat) (s : State) : Host.Outcome State Fault Refusal :=
  .next (if s.calomRuns then s.thermalSample temps volts else s)

/-! ## The supply fence (R521) -/

/-- SUPPLY_FENCE: a die whose rail has been off its request for 10 ms is fenced with cause 10. -/
def execSupplyFence (n : Nat) (s : State) : Host.Outcome State Fault Refusal :=
  .next (if s.calomRuns && n < 12 && s.hw.site n && (Tbl.find s.lgr.request n).isSome then s.fence n 10 else s)

/-! ## Loading at boot (R502, R503, R508) -/

/-- Calom loads the ledger and the plan record as it starts. -/
def State.ledgerLoad (s : State) : State :=
  let img := s.committed
  let cold := s.rd F.LGR_HOURS.POWERED_HOURS = 0
  let (slot, seq) := match s.vellum.newest with
    | some e => ((e.1 + 1) % 8, e.2.seq)
    | none => (0, 0)
  let s := { s with lgr := { s.lgr with next := slot, seq := seq } }
  let s := (s.wr F.LGR_STATUS.SEQ 0 seq).wr F.LGR_HOURS.POWER_CYCLES 0 (min (2 ^ 24 - 1) (img.cycles + s.lgr.acc.cycles))
  let s := if !cold then s else
    let s := s.wr F.LGR_HOURS.POWERED_HOURS 0 img.hours
    let s := { s with lgr := { s.lgr with acc := { s.lgr.acc with
      log := s.lgr.acc.log.map (fun (e : LogEntry) => { e with hour := img.hours }) } } }
    (List.range 240).foldl (fun s k =>
      let w := Tbl.get img.counts (secWear, k) 0
      let h := Tbl.get img.counts (secWear, 256 + k) 0
      if w = 0 && h = 0 then s
      else ((s.wr F.LGR_WEAR.W k w).wr F.LGR_WEAR.DOMAIN k (sensorDom k)).wr F.LGR_WEAR.HOUR k h) s
  let plan := s.planNewest.decisions
  let s := plan.foldl State.applyDecision s
  let missing := plan.filter (fun (d : Decision) => img.hours ≤ d.hour && !s.lgr.acc.plan.contains d && !img.plan.contains d)
  let s := { s with lgr := { s.lgr with acc := { s.lgr.acc with plan := s.lgr.acc.plan ++ missing } } }
  (idxWhere 12 (fun n => s.hw.site n)).foldl (fun s n =>
    let guard := ((List.range 4).map (fun c => s.rd F.LGR_PLAN.GUARD_MV (5 * n + c))).foldl max 0
    let (k, s) := s.free 401
    s.setRequest n (min 1000 (600 + k + guard)) guard) s

/-! ## LEDGER_READ (R505, R506) -/

/-- A list cut or filled with zeros to `n` bytes. -/
def fitBytes (n : Nat) (l : List (BitVec 8)) : List (BitVec 8) := (l ++ List.replicate n 0).take n

/-- A count in `n` bytes, saturating. -/
def satLE (n v : Nat) : List (BitVec 8) := natLE n (min v (2 ^ (8 * n) - 1))

def LogEntry.bytes (e : LogEntry) : List (BitVec 8) :=
  natLE 8 e.hour ++ natLE 1 e.type ++ natLE 1 e.arg0 ++ natLE 2 e.arg1 ++ natLE 4 0

def Decision.bytes (d : Decision) : List (BitVec 8) :=
  natLE 8 d.hour ++ natLE 1 d.domain ++ natLE 1 d.action ++ satLE 2 d.ratio ++ natLE 2 d.fmax ++ natLE 1 d.guard ++ natLE 1 0

/-- A section: header and body. -/
def ledgerSection (kind : Nat) (body : List (BitVec 8)) : List (BitVec 8) :=
  natLE 2 kind ++ natLE 2 0 ++ natLE 4 body.length ++ body

/-- `n` counts of a section from index 0, 32 bits each. -/
def countRow (t : Tbl (Nat × Nat) Nat) (kind first n : Nat) : List (BitVec 8) :=
  (List.range n).flatMap (fun k => satLE 4 (Tbl.get t (kind, first + k) 0))

/-- The sections of a record, in order. -/
def LedgerImage.sections (g : LedgerImage) : List (BitVec 8) :=
  let t := g.counts
  let get (kind i : Nat) : Nat := Tbl.get t (kind, i) 0
  ledgerSection 1 (countRow t secTemp 0 1600) ++
  ledgerSection 2 (countRow t secVolt 0 192) ++
  ledgerSection 3 (countRow t secSheet 0 4480) ++
  ledgerSection 4 (countRow t secLink 0 192 ++ (List.range 14).flatMap (fun n =>
    satLE 4 (get secLink (idxRetrain n)) ++ satLE 2 (get secLink (idxFence n)) ++ satLE 2 (get secLink (idxCause n)))) ++
  ledgerSection 5 ((List.range 11).flatMap (fun k => satLE 8 (get secProof k))) ++
  ledgerSection 6 (countRow t secRefusal 0 500) ++
  ledgerSection 7 (satLE 8 (get secThrottle 0) ++ countRow t secThrottle 1 12) ++
  ledgerSection 8 (countRow t secWear 0 240) ++
  ledgerSection 9 (fitBytes 1024 (g.plan.flatMap Decision.bytes)) ++
  ledgerSection 10 (fitBytes 4096 (g.log.flatMap LogEntry.bytes))

/-- The record, signed with the device key. -/
def State.ledgerRecord (s : State) : List (BitVec 8) :=
  let g := s.mergedImage
  let body := natLE 4 0x5247444C ++ natLE 1 1 ++ natLE 1 10 ++ natLE 2 0 ++ natLE 8 s.fuses.serial ++ natLE 4 34400 ++
    natLE 4 s.lgr.seq ++ natLE 8 g.hours ++ satLE 4 g.cycles ++ natLE 4 0 ++ natLE 8 (s.rd F.CKR_TIME.TIME) ++ natLE 16 0 ++
    g.sections
  body ++ fitBytes 64 (Config.sm2Sign s.deviceKey body)

/-- LEDGER_READ. -/
def State.ledgerRead (s : State) (r : Nat) : State :=
  let d := s.desc r
  if dget d 24 4 < 34400 then s.finish r csSPACE else
  match s.cmdWrite r 5 (dget d 16 8) s.ledgerRecord with
  | (.wait, s) => s
  | (.bad st, s) => s.finish r st
  | (.done, s) => s.finish r csOK 34400

def execLedgerRead (ring : Nat) (s : State) : Host.Outcome State Fault Refusal :=
  .next (s.adminCmd ring 0x08 (·.ledgerRead ring))

end Sys2Proof.Machine
end

