-- ==== Sys2Proof/Machine/Boot.lean ====
section
/-!
DEFINITION. Signed images, firmware slots, enrolment and the boot chain (R440 to R449, R452, R454, R488), with the ADMIN
commands FW_WRITE and WARM_RESET.
-/

namespace Sys2Proof.Machine

/-! ## Signed images (R440 to R442) -/

/-- Largest size of an image of a kind, header included (R443). -/
def kindMax (kind : Nat) : Nat := [0, 2 ^ 18, 2 ^ 23, 2 ^ 23, 2 ^ 16].getD kind 0

/-- Kind that a firmware slot holds. -/
def slotKind (slot : Nat) : Nat := slot / 2 + 1

def imgLen (img : List (BitVec 8)) : Nat := leAt img 12 4
def imgLoad (img : List (BitVec 8)) : Nat := leAt img 16 8
def imgEntry (img : List (BitVec 8)) : Nat := leAt img 24 8
def imgPayload (img : List (BitVec 8)) : List (BitVec 8) := (img.drop 256).take (imgLen img)

/-- Check 1: the format. -/
def imgFormat (kind : Nat) (img : List (BitVec 8)) : Bool :=
  leAt img 0 4 == 0x57534842 && byteAt img 4 == 1 && byteAt img 5 == kind && byteAt img 7 ≤ 1 && imgLen img % 256 == 0 &&
    leAt img 192 64 == 0 && 256 + imgLen img ≤ kindMax kind && 256 + imgLen img ≤ img.length

/-- Is any owner key slot VALID and not REVOKED? -/
def Fuses.owned (f : Fuses) : Bool := (List.range 4).any (fun j => f.ownerValid.testBit j && !f.ownerRevoked.testBit j)

/-- Check 2: the key slot allowed for the kind (R442). -/
def State.imgKey (s : State) (kind slot : Nat) : Bool :=
  match kind with
  | 1 | 2 => slot == 255
  | 3 => (s.keyDigest slot).isSome
  | _ => if s.fuses.owned then slot != 255 && (s.keyDigest slot).isSome else slot == 255

/-- Check 5: the security version. -/
def State.imgSvn (s : State) (kind svn : Nat) : Bool :=
  match kind with
  | 1 | 2 => s.fuses.calomSvn ≤ svn
  | 3 => s.fuses.cfwSvn ≤ svn
  | _ => true

/-- Check 7: the place. -/
def State.imgPlace (s : State) (kind : Nat) (img : List (BitVec 8)) : Bool :=
  let top := s.rd F.MEM_WM.HBM_WM * 2 ^ 30
  match kind with
  | 1 => imgLoad img < 2 ^ 19 && imgEntry img < 2 ^ 19
  | 2 | 3 => imgLoad img + imgLen img ≤ top && imgEntry img < top
  | _ => imgLoad img == 0 && imgEntry img == 0

/-- The cause with which an image fails R441; 0 where it verifies. -/
def State.imgCause (s : State) (kind : Nat) (img : List (BitVec 8)) : Nat :=
  let slot := byteAt img 6
  let pub := (img.drop 64).take 64
  if !imgFormat kind img then 1
  else if !s.imgKey kind slot then 2
  else if s.keyDigest slot != some (Config.sm3 pub) then 3
  else if !Config.sm2Verify pub (img.take 128) ((img.drop 128).take 64) then 4
  else if !s.imgSvn kind (leAt img 8 4) then 5
  else if Config.sm3 (imgPayload img) != (img.drop 32).take 32 then 6
  else if !s.imgPlace kind img then 7
  else 0

/-- A rejected image is recorded. -/
def State.imgRejected (s : State) (kind cause : Nat) : State :=
  let s := (s.wr F.SEC_BOOT_STATUS.CAUSE 0 cause).wr F.SEC_BOOT_STATUS.FAIL_KIND 0 kind
  (s.inc F.SEC_BOOT_STATUS.FAILS).raise F.SEC_STATUS.EVT_VERIFY_FAIL

/-- An image is verified; a failure is recorded. -/
def State.imgVerify (s : State) (kind : Nat) (img : List (BitVec 8)) : Bool × State :=
  let c := s.imgCause kind img
  if c = 0 then (true, s) else (false, s.imgRejected kind c)

/-! ## Slots (R443, R445) -/

def SlotMeta.blank : SlotMeta :=
  { digest := [], svn := 0, active := false, pending := false, tried := false, confirmed := false }

def State.slotMeta (s : State) (slot : Nat) : SlotMeta := Tbl.get s.vellum.slots slot SlotMeta.blank
def State.setSlot (s : State) (slot : Nat) (m : SlotMeta) : State :=
  { s with vellum := { s.vellum with slots := Tbl.set s.vellum.slots slot m SlotMeta.blank } }
def State.norImage (s : State) (slot : Nat) : List (BitVec 8) := Tbl.get s.boot.nor slot []

/-- The ACTIVE slot of a kind; slot A where neither is marked. -/
def State.activeSlot (s : State) (kind : Nat) : Nat :=
  let a := 2 * (kind - 1)
  if (s.slotMeta (a + 1)).active then a + 1 else a

/-- The slot a kind boots from, if any verifies (R445). -/
def State.selectSlot (s : State) (kind : Nat) : Option Nat × State :=
  let a := s.activeSlot kind
  let b := 4 * (kind - 1) + 1 - a
  let m := s.slotMeta b
  let try1 (s : State) (x : Nat) : Bool × State := s.imgVerify kind (s.norImage x)
  if m.pending && !m.tried then
    let s := s.setSlot b { m with tried := true }
    match try1 s b with
    | (true, s) => (some b, s)
    | (false, s) =>
      let s := (s.setSlot b { m with tried := true, pending := false }).raise F.SEC_STATUS.EVT_FALLBACK
      match try1 s a with
      | (true, s) => (some a, s)
      | (false, s) => (none, s)
  else
    let s := if m.pending then (s.setSlot b { m with pending := false }).raise F.SEC_STATUS.EVT_FALLBACK else s
    match try1 s a with
    | (true, s) => (some a, s)
    | (false, s) =>
      match try1 s b with
      | (true, s) => (some b, s)
      | (false, s) => (none, s)

/-! ## Step 11: the security record and the measurements (R452, R454) -/

def State.secRecord (s : State) : SecRecord :=
  match s.vellum.record with
  | some r => r
  | none => SecRecord.mk 1 0 false false

def SecRecord.bytes (r : SecRecord) : List (BitVec 8) :=
  natLE 1 r.hbmWm ++ natLE 2 r.ddrWm ++ natLE 1 (b2n r.lock) ++ natLE 1 (b2n r.reqSig) ++ natLE 3 0

/-- Calom writes MEM_WM from the record, then the locks. -/
def State.applySecurity (s : State) : State :=
  let r := s.secRecord
  let s := s.wmWrite .secure (r.hbmWm + r.ddrWm <<< 8)
  if r.lock then (s.wr F.MEM_WM.LOCK 0 1).wr F.ALN_CFG.LOCK 0 1 else s

/-- Measurements 2 to 6. -/
def State.takeMeasurements (s : State) : State :=
  let fuses := natLE 8 ((s.derived .SEC_FUSE 0).getD 0)
  let okeys := (List.range 4).flatMap (fun j => fitBytes 32 (Tbl.get s.fuses.ownerKey j []))
  let head (k : Nat) : List (BitVec 8) := Config.sm3 (Tbl.get s.boot.headers k [])
  { s with boot := { s.boot with meas :=
    [(1, Config.bootRomDigest), (2, head 1), (3, head 2), (4, head 3), (5, Config.sm3 s.boot.profile),
     (6, Config.sm3 (fuses ++ okeys ++ s.secRecord.bytes))] } }

/-! ## Entering a stage (R447) -/

/-- Bytes are placed in memory. -/
def State.placeBytes (s : State) (pa : Nat) (l : List (BitVec 8)) : State :=
  l.zipIdx.foldl (fun s b => s.memSet (pa + b.2) b.1) s

/-- The slot booted from, in SEC_BOOT_STATUS. -/
def State.bootSlot (s : State) (kind : Nat) (slot : Option Nat) : State :=
  match slot with
  | none => s
  | some x =>
    let f := match kind with
      | 1 => F.SEC_BOOT_STATUS.FS_SLOT
      | 2 => F.SEC_BOOT_STATUS.MAIN_SLOT
      | _ => F.SEC_BOOT_STATUS.CFW_SLOT
    ({ s with boot := { s.boot with booted := Tbl.put s.boot.booted kind x } }).wr f 0 (x % 2)

/-- A verified image is entered or placed, and the next kind is expected. -/
def State.enterStage (s : State) (kind : Nat) (img : List (BitVec 8)) (slot : Option Nat) : State :=
  let s := { s with boot := { s.boot with
    headers := Tbl.put s.boot.headers kind (img.take 192), kind := kind + 1, push := [], pushLen := 0
    waitPush := s.rd F.SEC_BOOT_STATUS.SOURCE == 1 && kind ≠ 3 } }
  let s := (s.bootSlot kind slot).wr F.SEC_BOOT_STATUS.STAGE 0 kind
  match kind with
  | 1 => s
  | 2 => (s.placeBytes (imgLoad img) (imgPayload img)).ledgerLoad
  | _ =>
    let s := s.placeBytes (imgLoad img) (imgPayload img)
    let s := { s with boot := { s.boot with entry := imgEntry img } }
    s.profileRest.applySecurity.takeMeasurements

/-- No slot of a kind verifies (R449). -/
def State.recovery (s : State) (kind : Nat) : State :=
  let s := s.raise F.SEC_STATUS.EVT_RECOVERY
  if s.fuses.hostPushOff then
    ({ s with boot := { s.boot with uart := s.boot.uart ++ [(kind, s.rd F.SEC_BOOT_STATUS.CAUSE)] } }).wr
      F.SEC_BOOT_STATUS.STAGE 0 0xFF
  else ({ s with boot := { s.boot with waitPush := true, push := [], pushLen := 0 } }).wr F.SEC_BOOT_STATUS.SOURCE 0 2

/-- May a stage of this kind be placed: the HBM initialisation walks are complete (R447 step 7)? -/
def State.stageReady (s : State) (kind : Nat) : Bool :=
  kind == 1 || (List.range 8).all (fun c => !s.hw.hbm c || (s.domOn (70 + c) && !s.mem.initWalk.contains c))

/-- Does the boot chain expect an image? -/
def State.chainRuns (s : State) : Bool :=
  !s.held && s.boot.started && s.boot.kind ≤ 3 && s.rd F.SEC_BOOT_STATUS.STAGE ≠ 0xFF && s.stageReady s.boot.kind

/-- STAGE_IMAGE_VERIFY: the next kind from its slots. -/
def State.stageVerify (s : State) : State :=
  let kind := s.boot.kind
  match s.selectSlot kind with
  | (some x, s) => s.enterStage kind (s.norImage x) (some x)
  | (none, s) => s.recovery kind

def execStageImageVerify (s : State) : Host.Outcome State Fault Refusal :=
  .next (if s.chainRuns && !s.boot.waitPush then s.stageVerify else s)

/-! ## Host push (R448) -/

/-- Have all bytes of the pushed image arrived? -/
def pushWhole (t : Tbl Nat (BitVec 8)) (n : Nat) : Bool := (List.range n).all (fun k => (Tbl.find t k).isSome)

/-- PUSH_TRANSFER: bytes at an offset of an image of `total` bytes; the last of them starts the verification. -/
def State.pushTransfer (s : State) (off total : Nat) (data : List (BitVec 8)) : State :=
  let kind := s.boot.kind
  let old := if s.boot.pushLen = total then s.boot.push else []
  let push := (data.zipIdx.filter (fun b => off + b.2 < total)).foldl (fun t b => Tbl.put t (off + b.2) b.1) old
  let s := { s with boot := { s.boot with push := push, pushLen := total } }
  if !pushWhole push total then s else
  let img := (List.range total).map (fun k => (Tbl.find push k).getD 0)
  let cause := s.imgCause kind img
  let s := { s with boot := { s.boot with push := [], pushLen := 0, i3c := cause } }
  if cause = 0 then s.enterStage kind img none else s.imgRejected kind cause

def execPushTransfer (off total : Nat) (data : List (BitVec 8)) (s : State) : Host.Outcome State Fault Refusal :=
  .next (if s.chainRuns && s.boot.waitPush && !data.isEmpty && data.length ≤ 4096 then s.pushTransfer off total data else s)

/-! ## Enrolment (R446) -/

/-- An enrolment entry. -/
structure Enrol where
  op : Nat
  slot : Nat
  data : List (BitVec 8)
  deriving DecidableEq, Repr

/-- The entries of a payload after its first 16 bytes; zeros to the end close the list. -/
def enrolEntries : Nat → List (BitVec 8) → List Enrol
  | 0, _ => []
  | fuel + 1, l =>
    if l.length < 4 || l.all (· == 0) then [] else
    let n := leAt l 2 2
    Enrol.mk (byteAt l 0) (byteAt l 1) ((l.drop 4).take n) :: enrolEntries fuel (l.drop ((4 + n + 7) / 8 * 8))

/-- The entry check. -/
def State.enrolOk (s : State) (e : Enrol) : Bool :=
  match e.op with
  | 1 => e.slot < 4 && e.data.length == 32 && !s.fuses.ownerValid.testBit e.slot
  | 2 => e.slot < 4
  | 3 => e.data.length == 8 && byteAt e.data 0 != 0
  | 4 | 5 | 6 => true
  | 7 => e.data.length ≤ 8192
  | _ => false

/-- Fuse bits are only blown. -/
def blowBytes (old new : List (BitVec 8)) : List (BitVec 8) := (fitBytes 32 old).zipWith (· ||| ·) new

/-- An entry acts. -/
def State.enrolAct (s : State) (e : Enrol) : State :=
  let f := s.fuses
  match e.op with
  | 1 => { s with fuses := { f with
      ownerKey := Tbl.put f.ownerKey e.slot (blowBytes (Tbl.get f.ownerKey e.slot []) e.data)
      ownerValid := setBit f.ownerValid e.slot } }
  | 2 => { s with fuses := { f with ownerRevoked := setBit f.ownerRevoked e.slot } }
  | 3 =>
    let r := SecRecord.mk (byteAt e.data 0) (leAt e.data 1 2) (byteAt e.data 3 != 0) (byteAt e.data 4 != 0)
    { s with vellum := { s.vellum with record := some r } }
  | 4 => { s with fuses := { f with dieAuth := true } }
  | 5 => { s with fuses := { f with secDbgOff := true } }
  | 6 => { s with fuses := { f with hostPushOff := true } }
  | _ => { s with vellum := { s.vellum with chain1 := e.data } }

/-- The enrolment slot, where it holds an image, is verified, checked, applied and erased. -/
def State.enrol (s : State) : State :=
  let img := s.norImage 6
  if img.isEmpty then s else
  let (ok, s) := s.imgVerify 4 img
  let body := imgPayload img
  let es := enrolEntries body.length (body.drop 16)
  let good := leAt body 0 8 == s.fuses.serial && leAt body 8 8 == 0 && es.all s.enrolOk
  let s := if !ok then s else if good then es.foldl State.enrolAct s
    else (s.wr F.SEC_BOOT_STATUS.CAUSE 0 1)
  let s := s.note 4 (if ok && good then 0 else 1) (if ok then es.length else 0)
  let s := { s with boot := { s.boot with nor := Tbl.erase s.boot.nor 6 } }
  (s.setSlot 6 SlotMeta.blank).effSet.raise F.SEC_STATUS.EVT_ENROL

/-! ## The boot ROM (R447 step 4, R329, R454) -/

/-- Channels and capacity of the DDR5 population: k and D, or a population error (R329). -/
def ddrPopulation (dimms : List Nat) : Option (Nat × Nat) :=
  let d := (List.range 8).map (fun c => dimms.getD c 0)
  let cap := d.headD 0
  if d.all (· == 0) then some (0, 0)
  else match [2, 4, 8].find? (fun k => (d.take k).all (fun x => x == cap && x != 0) && (d.drop k).all (· == 0)) with
    | some k => some (k, cap)
    | none => none

/-- Boot firmware finds the DDR5 population. -/
def State.findDimms (s : State) : State :=
  match ddrPopulation s.mem.dimms with
  | some (k, d) => ((s.wr F.MEM_DDR_CFG.K 0 k).wr F.MEM_DDR_CFG.DIMM_GIB 0 d).wr F.MEM_DDR_CFG.POP_ERR 0 0
  | none => ((s.wr F.MEM_DDR_CFG.K 0 0).wr F.MEM_DDR_CFG.DIMM_GIB 0 0).wr F.MEM_DDR_CFG.POP_ERR 0 1

/-- The boot ROM. -/
def State.bootRom (s : State) : State :=
  let s := { s with boot := { s.boot with started := true, kind := 1 } }
  let s := s.when (s.rd F.CKR_RESET.CAUSE == 3) (·.note 7 0 0)
  let s := s.findDimms
  let s := (s.bootOn (s.bootDomains3 ++ bootDomains4)).alnAutoTrain
  let s := s.profileSelect.profileCkr
  let s := s.enrol
  let s := (s.wr F.ALN_CFG.REQ_SIG 0 (b2n s.secRecord.reqSig))
  let s := { s with aln := { s.aln with reqSigLoaded := true } }
  let push := s.is F.GLB_PROFILE.BOOT_SRC && !s.fuses.hostPushOff
  ({ s with boot := { s.boot with waitPush := push } }).wr F.SEC_BOOT_STATUS.SOURCE 0 (b2n push)

/-- BOOT_ROM_START: the root clock is settled, by lock or by failover, and boot has not begun since the reset. -/
def execBootRomStart (s : State) : Host.Outcome State Fault Refusal :=
  .next (if s.held || s.boot.started || !(s.is F.CKR_STATUS.ROOT_LOCK || s.is F.CKR_STATUS.FAIL_CAUSE) then s else s.bootRom)

/-! ## Release and readiness (R445, R488, R214) -/

/-- COMPUTE_DIE_RELEASE: the four cluster domains of a die that is UP and not fenced turn ON as one transition. -/
def State.dieRelease (s : State) (n : Nat) : State :=
  let ds := (List.range 4).map (5 * n + ·)
  if ds.all (fun d => s.rd F.PWR_DOM_STATUS.STATE d == 2 && !s.inTransition d) then
    (ds.foldl (fun s d => s.recordWake d 7) s).enqueue ds 0 7
  else s

def execComputeDieRelease (n : Nat) (s : State) : Host.Outcome State Fault Refusal :=
  .next (if s.calomRuns && n < 12 && s.hw.site n && s.dieAdmitted n && !s.fbit F.ALN_SUMMARY.FENCED 0 n then s.dieRelease n
    else s)

/-- The SVN fuses of a kind are blown up to `svn`, of which there are 64 (R437, R445). -/
def State.advanceSvn (s : State) (kind svn : Nat) : State :=
  if kind = 3 then { s with fuses := { s.fuses with cfwSvn := max s.fuses.cfwSvn (min 64 svn) } }
  else { s with fuses := { s.fuses with calomSvn := max s.fuses.calomSvn (min 64 svn) } }

/-- The slot a kind booted from is confirmed, and its SVN fuse advances where the image asks (R445). -/
def State.confirm (s : State) (kind : Nat) : State :=
  match Tbl.find s.boot.booted kind with
  | none => s
  | some x =>
    let other := 4 * (kind - 1) + 1 - x
    let s := s.setSlot x { s.slotMeta x with active := true, pending := false, tried := false, confirmed := true }
    let s := s.setSlot other { s.slotMeta other with active := false }
    let h := Tbl.get s.boot.headers kind []
    let svn := leAt h 8 4
    let f := s.fuses
    let old := if kind = 3 then f.cfwSvn else f.calomSvn
    if (byteAt h 7).testBit 0 && old < svn then
      ((s.advanceSvn kind svn).note 5 kind svn).raise F.SEC_STATUS.EVT_SVN
    else s

/-- FW_READY: both ports are ready, and every slot booted is confirmed. -/
def State.becomeReady (s : State) : State :=
  let s := (s.wr F.SEC_BOOT_STATUS.STAGE 0 4).wr F.HIF_PORT_STATUS.FW_READY 0 1
  let s := s.wr F.HIF_PORT_STATUS.FW_READY 1 1
  [1, 2, 3].foldl State.confirm s

def execFwReady (s : State) : Host.Outcome State Fault Refusal :=
  .next (if !s.held && s.rd F.SEC_BOOT_STATUS.STAGE == 3 && s.domOn 96 && s.domOn 97 then s.becomeReady else s)

/-! ## FW_WRITE and WARM_RESET (R407, R444) -/

/-- FW_WRITE. -/
def State.fwWrite (s : State) (r : Nat) : State :=
  let d := s.desc r
  let slot := dget d 8 1
  let len := dget d 24 4
  let kind := slotKind slot
  if 6 < slot || len = 0 then s.finish r csINVALID else
  match s.cmdRead r 5 (dget d 16 8) len with
  | (.wait, s) => s
  | (.bad st, s) => s.finish r st
  | (.data img bad, s) =>
    if !bad.isEmpty then s.finish r csPOISON
    else if kindMax kind < imgLen img + 256 then s.finish r csSPACE
    else
      let (ok, s) := s.imgVerify kind img
      if !ok || (kind ≤ 3 && s.activeSlot kind = slot) then s.finish r csINVALID
      else
        let s := { s with boot := { s.boot with nor := Tbl.set s.boot.nor slot (img.take (256 + imgLen img)) [] } }
        (s.setSlot slot (SlotMeta.mk (Config.sm3 (img.take 192)) (leAt img 8 4) false true false false)).finish r csOK

def execFwWrite (ring : Nat) (s : State) : Host.Outcome State Fault Refusal := .next (s.adminCmd ring 0x05 (·.fwWrite ring))

/-- WARM_RESET: it completes OK and then asks for a warm reset, with SR_KEEP in force. -/
def State.warmCmd (s : State) (r : Nat) : State :=
  let s := s.wr F.MEM_DDR_CFG.SR_KEEP 0 (dget (s.desc r) 8 1)
  let s := s.finish r csOK
  { s with hif := { s.hif with recPending := true, recCause := 5 } }

def execWarmReset (ring : Nat) (s : State) : Host.Outcome State Fault Refusal := .next (s.adminCmd ring 0x0A (·.warmCmd ring))

/-! ## A step with no command waiting -/

/-- What the device does in a step with no command waiting: Calom starts the warm reset that RECOVER or WARM_RESET asked
for (R375, R407); otherwise one root cycle passes (R474). -/
def State.idle (s : State) : State := if s.hif.recPending then s.warmReset s.hif.recCause else s.rootTick

end Sys2Proof.Machine
end

