-- ==== Sys2Proof/Machine/CoreMem.lean ====
section
/-!
DEFINITION. The memory accesses of a Graver core: loads, fetches, stores, AMOs, LR and SC, the fences and the merging
buffer (R205, R206, R209, R210, R215 to R217, R231 to R235, R254, R270, R271, R285, R357).
-/

namespace Sys2Proof.Machine

/-! ## Where an access goes -/

/-- Sizes of an access in bytes. -/
def sizeOk (size : Nat) : Bool := size == 1 || size == 2 || size == 4 || size == 8

/-- Does an access cross a 128-byte line (R210)? -/
def crosses (va size : Nat) : Bool := 128 < va % 128 + size

/-- The physical address of an access, or the exception it raises: translation, then the world check and the population
of memory (R215, R216, R333), then the PMP for each kind of access named (R206). -/
def State.target (s : State) (k : Nat) (a : Acc) (va size : Nat) (kinds : List Nat) : Translated × State :=
  match s.translate k a va with
  | (.bad cause, s) => (.bad cause, s)
  | (.ok pa, s) =>
    let pmp : Translated :=
      if kinds.all (fun x => (s.hart k).pmpOk (s.accPriv k a) x pa size) then .ok pa else .bad a.accessFault
    match regionOf pa with
    | .hbm _ | .ddr _ =>
      if !s.populated pa then (.bad a.accessFault, s.countDenial .unmapped pa)
      else if s.ns k && s.securePlate pa then (.bad a.accessFault, s.countDenial .world pa)
      else (pmp, s)
    | .none => (.bad a.accessFault, s.countDenial .unmapped pa)
    | _ => (pmp, s)

/-- Is the region memory, which alone may be cached, fetched from and accessed by AMO, LR and SC (R215)? -/
def inMemory (pa : Nat) : Bool :=
  match regionOf pa with
  | .hbm _ | .ddr _ => true
  | _ => false

/-- Requester of a core's access to the register space (R9). -/
def State.coreSrc (s : State) (k : Nat) : Src := if s.ns k then .normal k else .secure

/-- Does guest site `g` take accesses of core `k` (R357, R361)? -/
def State.guestOpen (s : State) (g k : Nat) : Bool :=
  s.guestUp g && s.is F.STN_CFG.OPEN g && (!s.ns k || s.is F.STN_CFG.CORE_NS g)

/-- Offset of an address in its guest window. -/
def guestOff (pa : Nat) : Nat := pa % 0x010000000000

/-- A new tag of a guest site's core accesses. -/
def State.guestTag (s : State) (g : Nat) : Nat × State :=
  let x := s.guest g
  (x.nextTag, s.setGuest g { x with nextTag := (x.nextTag + 1) % 65536 })

/-- An access joins those outstanding at a guest site. -/
def State.guestAccess (s : State) (g : Nat) (a : GuestAccess) (m : GuestMsg) : State :=
  let x := s.guest g
  (s.setGuest g { x with access := x.access ++ [a] }).toGuest g m

/-! ## Loads and fetches -/

/-- The bytes of a load as the merging buffer holds them (R232): all in one entry, none, or only a part. -/
inductive Forward where
  | whole (v : Nat)
  | part
  | none
  deriving DecidableEq, Repr

def Hart.forward (h : Hart) (pa size : Nat) : Forward :=
  match h.mb.find? (fun e => e.line == lineOf pa) with
  | none => .none
  | some e =>
    let bs := (List.range size).map (fun i => Tbl.find e.bytes (pa % 128 + i))
    if bs.all Option.isSome then .whole (leNat (bs.map (fun b => b.getD 0)))
    else if bs.any Option.isSome then .part
    else .none

/-- The merging buffer drains, oldest first, until a load no longer overlaps an entry in part. -/
def State.drainOver (s : State) (k pa size : Nat) : State :=
  (List.range 8).foldl (fun s _ => if (s.hart k).forward pa size = .part then s.drainOne k else s) s

/-- An access misses in the L1: it is served by the L2 on a hit, waits on the L2's request on a miss, and is an uncached
read while the L2 is disabled (R235, R254). -/
def State.loadLine (s : State) (k pa : Nat) (op : MissOp) (fetch : Bool) : State :=
  let cl := clusterOf k
  let line := lineOf pa
  if !s.l2On cl then
    if s.ioAsked k line then s else
    let s := (s.setHart k { s.hart k with miss := some (line, op) }).perf k (if fetch then 0x0001 else 0x0002)
    s.send (.req { kind := .ioRd, line := line, src := .core k, tag := none, wr := [], wrPoison := false, id := 0, off := 0,
                   len := 128 })
  else match s.l2line cl line with
    | some x => (((s.perf k (if fetch then 0x0001 else 0x0002)).inc F.L2_HITS.HITS cl).setLine cl line x).accessLine k line op
    | none =>
      let was := s.inProof k
      let s := (s.l2Ask k line .rdShared false)
      if was && !s.inProof k then s
      else if (s.l2c cl).pending.any (fun p => p.line == line) then
        (s.setHart k { s.hart k with miss := some (line, op) }).perf k (if fetch then 0x0001 else 0x0002)
      else s

/-- A load from memory: forwarded from the merging buffer, from the L1D, or from the L2 (R231 to R235). -/
def State.loadMemory (s : State) (k pa size : Nat) (sext : Bool) (dst : LoadDst) (i : InsnAt) : State :=
  let was := s.inProof k
  let s := s.drainOver k pa size
  if was && !s.inProof k then s else
  match (s.hart k).forward pa size with
  | .part => s
  | .whole v =>
    let s := if (s.l2line (clusterOf k) (lineOf pa)).isSome then s.markRead k (lineOf pa) else s
    (s.setHart k ((s.hart k).loadTo dst size sext v)).retire k i.next
  | .none =>
    match Tbl.find (s.hart k).l1d (lineOf pa) with
    | some d => (s.markRead k (lineOf pa)).loadDone k pa size sext dst i.next d
    | none => s.loadLine k pa (.load pa size sext dst i) false

/-- An instruction fetch: from the L1I, or from the L2. -/
def State.fetchMemory (s : State) (k pa size : Nat) (i : InsnAt) : State :=
  match Tbl.find (s.hart k).l1i (lineOf pa) with
  | some d => (s.markRead k (lineOf pa)).loadDone k pa size false .fetch i.next d
  | none => s.loadLine k pa (.load pa size false .fetch i) true

/-- A load from a guest window becomes an H_RD (R357). -/
def State.loadGuest (s : State) (k g pa size : Nat) (sext : Bool) (dst : LoadDst) (i : InsnAt) : State :=
  if !s.guestOpen g k then s.exception k 5 i.va i.pc else
  let (tag, s) := s.guestTag g
  let s := s.guestAccess g (GuestAccess.mk tag k false false) (.rd tag (guestOff pa) size (s.ns k))
  s.setHart k { s.hart k with io := some (IoAccess.mk false pa size sext dst tag i) }

/-- A load from the host window is a DMA read of the core's slice (R215, R377). -/
def State.loadHost (s : State) (k pa size : Nat) (sext : Bool) (dst : LoadDst) (i : InsnAt) : State :=
  (s.setHart k { s.hart k with io := some (IoAccess.mk false pa size sext dst 0 i) }).coreDma k

/-- A load from the register space (R8, R12). -/
def State.loadRegs (s : State) (k off size : Nat) (sext : Bool) (dst : LoadDst) (next : Nat) : State :=
  let (v, s) := s.regRead (s.coreSrc k) off size
  (s.setHart k ((s.hart k).loadTo dst size sext v)).retire k next

/-- A load from a device region: inside a proof it aborts the proof (R270); it is naturally aligned in the windows. -/
def State.loadIo (s : State) (k pa size : Nat) (sext : Bool) (dst : LoadDst) (i : InsnAt) : State :=
  if s.inProof k then s.proofAbort k 7 0 0 else
  match regionOf pa with
  | .regs off => s.loadRegs k off size sext dst i.next
  | .guest g => if pa % size ≠ 0 then s.exception k 4 i.va i.pc else s.loadGuest k g pa size sext dst i
  | .host => if pa % size ≠ 0 then s.exception k 4 i.va i.pc else s.loadHost k pa size sext dst i
  | _ => s

/-- Is the destination's unit off, so that the instruction is illegal? -/
def State.unitOff (s : State) (k : Nat) (dst : LoadDst) : Bool :=
  match dst with
  | .f _ => bits (s.csr k 0x300) 13 2 == 0
  | .v _ _ => bits (s.csr k 0x300) 9 2 == 0
  | _ => false

/-- Is a load misaligned in a way that raises the exception (R210): a vector element off its width, a scalar across a
line? -/
def loadMisaligned (dst : LoadDst) (va size : Nat) : Bool :=
  match dst with
  | .fetch => false
  | .v _ _ => va % size != 0
  | _ => crosses va size

def State.load (s : State) (k va size : Nat) (sext : Bool) (dst : LoadDst) (i : InsnAt) : State :=
  let a : Acc := if dst == .fetch then .fetch else .load
  if s.unitOff k dst then s.illegal k i.pc
  else if loadMisaligned dst va size then s.exception k 4 va i.pc
  else if dst == .fetch && (s.hart k).bootBad == some va then s.exception k 1 va i.pc
  else match s.target k a va size [a.pmpKind] with
    | (.bad cause, s) => s.exception k cause va i.pc
    | (.ok pa, s) =>
      if dst == .fetch then
        if inMemory pa then s.fetchMemory k pa size i else s.exception k 1 va i.pc
      else if inMemory pa then s.loadMemory k pa size sext dst i
      else s.loadIo k pa size sext dst i

/-- LOAD: a load of `size` bytes at `va`, one element of a vector load, or a fetch. -/
def execLoad (core pc len va size : Nat) (sext : Bool) (dst : LoadDst) (s : State) : Host.Outcome State Fault Refusal :=
  .next (if sizeOk size then s.issue core pc (·.load core va size sext dst (InsnAt.mk pc va (pc + len))) else s)

/-! ## Stores -/

/-- A store hits in the L1D: its bytes are updated there. -/
def Hart.storeL1 (h : Hart) (pa size v : Nat) : Hart :=
  match Tbl.find h.l1d (lineOf pa) with
  | some d => { h with l1d := Tbl.put h.l1d (lineOf pa) (mergeLine d (valueBytes (pa % 128) size v)) }
  | none => h

/-- The bytes of a store enter the merging buffer, in the line's entry or a new one. -/
def Hart.storeMb (h : Hart) (pa size v : Nat) : Hart :=
  let line := lineOf pa
  let add (b : Tbl Nat (BitVec 8)) : Tbl Nat (BitVec 8) :=
    (valueBytes (pa % 128) size v).foldl (fun b x => Tbl.put b x.1 x.2) b
  if h.mb.any (fun e => e.line == line) then
    { h with mb := h.mb.map (fun (e : MbEntry) => if e.line = line then { e with bytes := add e.bytes } else e) }
  else { h with mb := h.mb ++ [MbEntry.mk line (add [])] }

/-- Does a store to the line need an entry that is not free (R231)? -/
def Hart.mbFull (h : Hart) (line : Nat) : Bool := 8 ≤ h.mb.length && !h.mb.any (fun e => e.line == line)

/-- The oldest entry has every byte written. -/
def Hart.mbReady (h : Hart) : Bool :=
  match h.mb with
  | e :: _ => covers e.bytes 0 128
  | [] => false

/-- A store to memory (R231): the L1D on a hit, and the merging buffer, whose oldest entry drains first where none is
free and again once it is full. -/
def State.storeMemory (s : State) (k pa size v next : Nat) : State :=
  let was := s.inProof k
  let s := if (s.hart k).mbFull (lineOf pa) then s.drainOne k else s
  if (was && !s.inProof k) || (s.hart k).mbFull (lineOf pa) then s else
  let s := (s.setHart k (((s.hart k).storeL1 pa size v).storeMb pa size v)).retire k next
  if (s.hart k).mbReady then s.drainOne k else s

/-- A store to a guest window becomes an H_WR (R357). -/
def State.storeGuest (s : State) (k g pa size v : Nat) (i : InsnAt) : State :=
  if !s.guestOpen g k then s.exception k 7 i.va i.pc else
  let (tag, s) := s.guestTag g
  let data := (List.range size).map (fun j => BitVec.ofNat 8 (v >>> (8 * j)))
  (s.guestAccess g (GuestAccess.mk tag k true false) (.wr tag (guestOff pa) size (s.ns k) data)).retire k i.next

/-- A store to the host window is a DMA write of the core's slice (R215, R216, R377); it waits for its translation, and
is dropped where the port cannot issue it. -/
def State.storeHost (s : State) (k pa size v : Nat) (i : InsnAt) : State :=
  let sl := s.coreSlice k
  let p := s.rd F.HIF_SLICE_CFG.PORT sl
  if !s.dmaReady p || !s.pasidOk p sl then s.retire k i.next else
  let (go, s) := s.xlatRange p (8192 + k) (s.pasidOf p sl) pa size true
  if !go then s.setHart k { s.hart k with io := some (IoAccess.mk true pa size false .fetch 0 i) } else
  let data := (List.range size).map (fun j => BitVec.ofNat 8 (v >>> (8 * j)))
  ((s.setHart k { s.hart k with io := none }).dmaWrite p sl pa data false).retire k i.next

/-- A doorbell store inside a proof is held (R285): in the core, up to 16, or for a participant at the arbiter, up to
256 for the group. -/
def State.holdDoorbell (s : State) (k pa v next : Nat) : State :=
  let d := HeldDb.mk pa (v % 2 ^ 32) k
  let tooMany (s : State) : State := (s.raise F.PRF_STATUS.EVT_OVERFLOW).proofAbort k 11 0 0
  match (s.hart k).proof with
  | none => s
  | some p =>
    match p.group with
    | none =>
      if 16 ≤ p.doorbells.length then tooMany s
      else (s.onProof k (fun p => { p with doorbells := p.doorbells ++ [d] })).retire k next
    | some g =>
      match Tbl.find s.groups g with
      | none => s.retire k next
      | some x =>
        if 256 ≤ x.doorbells.length then tooMany s
        else
          let s := { s with groups := Tbl.put s.groups g { x with doorbells := x.doorbells ++ [d] } }
          (s.wr F.PRF_GRP_INFO.DB_HELD g (x.doorbells.length + 1)).retire k next

/-- A store to a device region: inside a proof a 4-byte store to a doorbell is held, and any other aborts the proof
(R270, R285). -/
def State.storeIo (s : State) (k pa size v : Nat) (i : InsnAt) : State :=
  let db : Bool := match regionOf pa with
    | .regs off => size == 4 && off % 4 == 0 && (inRingDb off || inQueueDb off)
    | _ => false
  if s.inProof k then (if db then s.holdDoorbell k pa v i.next else s.proofAbort k 7 0 0) else
  match regionOf pa with
  | .regs off => (s.spaceWrite (s.coreSrc k) off size v).retire k i.next
  | .guest g => if pa % size ≠ 0 then s.exception k 6 i.va i.pc else s.storeGuest k g pa size v i
  | .host => if pa % size ≠ 0 then s.exception k 6 i.va i.pc else s.storeHost k pa size v i
  | _ => s

def State.store (s : State) (k va size v : Nat) (i : InsnAt) : State :=
  if crosses va size then s.exception k 6 va i.pc
  else match s.target k .store va size [1] with
    | (.bad cause, s) => s.exception k cause va i.pc
    | (.ok pa, s) => if inMemory pa then s.storeMemory k pa size v i.next else s.storeIo k pa size v i

/-- STORE: the low `size` bytes of `value` to `va`. -/
def execStore (core pc len va size value : Nat) (s : State) : Host.Outcome State Fault Refusal :=
  .next (if sizeOk size then s.issue core pc (·.store core va size value (InsnAt.mk pc va (pc + len))) else s)

/-! ## AMO, LR and SC (R210, R234, R254, R270) -/

/-- Does the L2 serve an access to a line it holds without a directory request (R260): held at all to be read, in M or E
to be written? -/
def State.l2Serves (s : State) (cl line : Nat) (kind : L2Req) : Bool :=
  match s.l2line cl line with
  | some x => kind == .rdShared || x.st == .m || x.st == .e
  | none => false

/-- An access that runs in the L2 after the merging buffer has drained: on its line where the L2 holds it, else on the
request it makes. -/
def State.inL2 (s : State) (k line : Nat) (kind : L2Req) (op : MissOp) : State :=
  let was := s.inProof k
  let (empty, s) := s.drainAll k
  if !empty || (was && !s.inProof k) then s else
  let s := s.setHart k { s.hart k with miss := some (line, op) }
  if (s.l2line (clusterOf k) line).isSome then
    (s.when (s.l2Serves (clusterOf k) line kind) (·.inc F.L2_HITS.HITS (clusterOf k))).accessLine k line op
  else (s.l2Ask k line kind false).missWaits k line

/-- Where an access of this kind faults: outside memory, and with the L2 disabled. -/
def State.l2Only (s : State) (k : Nat) (a : Acc) (va size : Nat) (kinds : List Nat) (i : InsnAt) (f : Nat → State → State) :
    State :=
  if va % size ≠ 0 then s.exception k a.misaligned va i.pc
  else match s.target k a va size kinds with
    | (.bad cause, s) => s.exception k cause va i.pc
    | (.ok pa, s) =>
      if !inMemory pa then s.exception k a.accessFault va i.pc
      else if !s.l2On (clusterOf k) then s.exception k 7 va i.pc
      else f pa s

/-- Word and doubleword only. -/
def amoSize (size : Nat) : Bool := size == 4 || size == 8

def State.amo (s : State) (k op va size v rd : Nat) (i : InsnAt) : State :=
  if 9 ≤ op then s.illegal k i.pc
  else s.l2Only k .store va size [0, 1] i (fun pa s => s.inL2 k (lineOf pa) .rdUnique (.amo op pa size v rd i))

/-- AMO: operation `op` of 0 SWAP, 1 ADD, 2 XOR, 3 AND, 4 OR, 5 MIN, 6 MAX, 7 MINU, 8 MAXU. -/
def execAmo (core pc len op va size value rd : Nat) (s : State) : Host.Outcome State Fault Refusal :=
  .next (if amoSize size then s.issue core pc (·.amo core op va size value rd (InsnAt.mk pc va (pc + len))) else s)

def State.lr (s : State) (k va size rd : Nat) (i : InsnAt) : State :=
  s.l2Only k .load va size [0] i (fun pa s => s.inL2 k (lineOf pa) .rdShared (.lr pa size rd i))

/-- LR. -/
def execLr (core pc len va size rd : Nat) (s : State) : Host.Outcome State Fault Refusal :=
  .next (if amoSize size then
    s.issue core pc (fun s => s.notInProof core (·.lr core va size rd (InsnAt.mk pc va (pc + len)))) else s)

/-- An SC without its reservation fails and writes nothing; with it the line is in the L2. -/
def State.scTarget (s : State) (k pa size v rd : Nat) (i : InsnAt) : State :=
  if (s.hart k).resv = some (lineOf pa) then s.inL2 k (lineOf pa) .rdUnique (.sc pa size v rd i)
  else
    let (empty, s) := s.drainAll k
    if empty then s.scDone k rd 1 i.next else s

def State.sc (s : State) (k va size v rd : Nat) (i : InsnAt) : State :=
  s.l2Only k .store va size [1] i (fun pa s => s.scTarget k pa size v rd i)

/-- SC. -/
def execSc (core pc len va size value rd : Nat) (s : State) : Host.Outcome State Fault Refusal :=
  .next (if amoSize size then
    s.issue core pc (fun s => s.notInProof core (·.sc core va size value rd (InsnAt.mk pc va (pc + len)))) else s)

/-- LR_RESERVATION_EXPIRE: snoops to the reservation's line are deferred no longer; the reservation itself stays. -/
def execLrReservationExpire (core : Nat) (s : State) : Host.Outcome State Fault Refusal :=
  .next (if s.coreThere core then s.setHart core { s.hart core with resvDefer := false } else s)

/-! ## Fences and the merging buffer (R209, R231, R234) -/

/-- Has a core a write to a guest site that has not been accepted? -/
def State.guestWrites (s : State) (k : Nat) : Bool :=
  (List.range 2).any (fun g => (s.guest g).access.any (fun a => a.core == k && a.write && !a.late))

/-- FENCE with predecessor set `pred` (bit 0 W, 1 R, 2 O, 3 I).  A core with a miss or an I/O read outstanding issues
nothing, so R and I hold by then; with W the merging buffer drains; with O the core's guest writes must have been
accepted. -/
def State.coreFence (s : State) (k pc pred : Nat) : State :=
  let was := s.inProof k
  let (empty, s) := if pred.testBit 0 then s.drainAll k else (true, s)
  if !empty || (was && !s.inProof k) then s
  else if pred.testBit 2 && s.guestWrites k then s
  else s.retire k (pc + 4)

/-- FENCE; FENCE.TSO is the predecessor set RW. -/
def execFence (core pc pred : Nat) (s : State) : Host.Outcome State Fault Refusal :=
  .next (s.issue core pc (·.coreFence core pc pred))

/-- FENCE.I. -/
def State.fenceI (s : State) (k pc : Nat) : State :=
  let (empty, s) := s.drainAll k
  if empty then (s.setHart k { s.hart k with l1i := [] }).retire k (pc + 4) else s

def execFenceI (core pc : Nat) (s : State) : Host.Outcome State Fault Refusal :=
  .next (s.issue core pc (fun s => s.notInProof core (·.fenceI core pc)))

/-- MERGE_BUFFER_DRAIN. -/
def execMergeBufferDrain (core : Nat) (s : State) : Host.Outcome State Fault Refusal :=
  .next (if s.coreThere core then s.drainOne core else s)

end Sys2Proof.Machine
end

