-- ==== Sys2Proof/Machine/DebugPort.lean ====
section
/-!
DEFINITION. The end of a debugger access and the test chain (R461, R463, R464).
-/

namespace Sys2Proof.Machine

/-! ## DBG_ACC_DONE (R461) -/

/-- A read ends OK with its data. -/
def State.accData (s : State) (v : Nat) : State := (s.wr F.DBG_ACC_DATA.DATA 0 v).accEnd 0

/-- The access in device memory, as agent 6: a refusal is DENIED, poison reads as zero, and one that meets a busy line
waits. -/
def State.accMemory (s : State) (a : DbgAcc) (addr n : Nat) : State :=
  if a.write then
    match s.devWrite 6 (!a.ns) addr (natLE n a.data) false with
    | (.busy, s) => s
    | (.none, s) => s.accEnd 0
    | (_, s) => s.accEnd 3
  else
    let (r, s) := s.devRead 6 (!a.ns) addr n
    match r.why with
    | .busy => s
    | .none => if r.bad.isEmpty then s.accData (leAt r.data 0 n) else (s.wr F.DBG_ACC_DATA.DATA 0 0).accEnd 4
    | _ => s.accEnd 3

/-- The access in the register space, in the world the debugger names. -/
def State.accRegs (s : State) (a : DbgAcc) (off n : Nat) : State :=
  let src : Src := if a.ns then .tap else .secure
  if a.write then (s.spaceWrite src off n a.data).accEnd 0
  else
    let (v, s) := s.regRead src off n
    s.accData v

/-- Where the access goes; the windows of guests and host are no address of the debugger's agent and are refused as
unmapped. -/
def State.accGo (s : State) (a : DbgAcc) : State :=
  let n := 2 ^ a.size
  let addr := a.addr / n * n
  match regionOf addr with
  | .regs off => s.accRegs a off n
  | .hbm _ | .ddr _ => s.accMemory a addr n
  | _ => (s.countDenial .unmapped addr).accEnd 3

/-- Is a transition of the domain running or waiting? -/
def State.domMoves (s : State) (d : Nat) : Bool :=
  s.pwr.running.any (fun t => t.doms.contains d) || s.pwr.queue.any (fun t => t.doms.contains d)

/-- The access ends: with the status decided at GO; DIE_ABSENT where the die has gone since; otherwise once the domain
is ON. -/
def State.accDone (s : State) : State :=
  match s.dbg.acc with
  | none => s
  | some a =>
    match a.status, s.accDom a.addr with
    | some st, _ => s.accEnd st
    | none, none => s.accGo a
    | none, some d =>
      if s.domAbsent d then s.accEnd 5
      else if s.rd F.PWR_DOM_STATUS.STATE d = 0 then s.accGo a
      else if s.domMoves d then s
      else s.accEnd (s.rd F.PWR_DOM_STATUS.STATE d)

/-- DBG_ACC_DONE. -/
def execDbgAccDone (s : State) : Host.Outcome State Fault Refusal :=
  .next (if s.held || !s.clkOn 74 then s else s.accDone)

/-! ## The test chain (R463, R464) -/

/-- IDCODE words of the hub and of a compute die. -/
def State.hubIdcode (s : State) : Nat := s.fuses.step / 16 * 2 ^ 28 + 0x4812 * 2 ^ 12 + 0x69B * 2 + 1
def State.dieIdcode (s : State) : Nat := s.hw.gen % 16 * 2 ^ 28 + 0x4820 * 2 ^ 12 + 0x69B * 2 + 1

/-- Is the site on hub port `n` a member of the chain at Test-Logic-Reset? -/
def State.chainMember (s : State) (n : Nat) : Bool :=
  s.hw.port n && (if n < 12 then !s.fbit F.ALN_SUMMARY.FENCED 0 n && s.rd F.PWR_DOM_STATUS.STATE (uncoreDom n) == 0
    else s.is F.DBG_CHAIN.GUEST_EN)

/-- Does a member of the latched chain still run its instruction: neither fenced nor its domain off (R463)? -/
def State.chainAlive (s : State) (n : Nat) : Bool :=
  !s.fbit F.ALN_SUMMARY.FENCED 0 n && s.rd F.PWR_DOM_STATUS.STATE (if n < 12 then uncoreDom n else 98 + (n - 12)) == 0

/-- IR length of a member. -/
def State.irLen (s : State) (n : Nat) : Nat := if n < 12 then 6 else s.rd F.DBG_CHAIN.GIR_LEN

/-- Number of the hub in the chain's instruction table. -/
abbrev hubTap : Nat := 255

/-- Current instruction of a member; IDCODE after Test-Logic-Reset. -/
def State.tapIr (s : State) (die : Nat) : Nat := Tbl.get s.dbg.ir die 1

/-- Is the hub instruction EXTEST, CLAMP or HIGHZ? -/
def pinTest (ir : Nat) : Bool := ir == 3 || ir == 4 || ir == 5

/-- Are these honoured now: EFF holds SI, or no owner slot is VALID? -/
def State.pinTestOk (s : State) : Bool := s.fbit F.DBG_EN.EFF 0 3 || s.fuses.ownerValid == 0

/-- An honoured EXTEST, CLAMP or HIGHZ is left: a warm reset starts, with cause 9. -/
def State.leaveTest (s : State) : State :=
  let s := if s.dbg.honoured then s.warmReset 9 else s
  { s with dbg := { s.dbg with honoured := false } }

/-- Test-Logic-Reset: membership is latched, and every die's instruction is IDCODE. -/
def State.tapReset (s : State) : State :=
  let s := s.leaveTest
  let m := (List.range 14).filter s.chainMember
  let s := { s with dbg := { s.dbg with chain := m.map (fun n => (n, s.irLen n)), ir := [] } }
  (s.wr F.DBG_CHAIN.MEMBER 0 (m.foldl setBit 0)).wr F.DBG_CHAIN.IR_LEN 0 (8 + (m.map s.irLen).sum)

/-- TAP_RESET. -/
def execTapReset (s : State) : Host.Outcome State Fault Refusal := .next (if s.held then s else s.tapReset)

/-- A new instruction of the hub's TAP. -/
def State.hubIr (s : State) (ir : Nat) : State :=
  if s.dbg.honoured && ir = s.tapIr hubTap then s else
  let s := s.leaveTest
  let s := { s with dbg := { s.dbg with ir := Tbl.put s.dbg.ir hubTap ir } }
  if pinTest ir && s.pinTestOk then ({ s with dbg := { s.dbg with honoured := true } }).raise F.DBG_STATUS.EVT_TEST else s

/-- A new instruction of a member die, which acts as BYPASS (all ones) once the die is fenced or off. -/
def State.dieIr (s : State) (die ir : Nat) : State :=
  match s.dbg.chain.find? (fun m => m.1 == die) with
  | none => s
  | some (_, len) =>
    let ir := if s.chainAlive die then ir % 2 ^ len else 2 ^ len - 1
    { s with dbg := { s.dbg with ir := Tbl.put s.dbg.ir die ir } }

/-- TAP_UPDATE_IR: the instruction of the hub (255) or of the member on a hub port.  What a factory instruction, or a
guest maker's, does inside is not in the spec (assumption log 21). -/
def execTapUpdateIr (die ir : Nat) (s : State) : Host.Outcome State Fault Refusal :=
  .next (if s.held then s else if die = hubTap then s.hubIr (ir % 256) else s.dieIr die ir)

/-- Offset of the DBG block in the register space. -/
abbrev dbgBase : Nat := 0x500000

/-- Update-DR of DBGREG: bits [63:0] data, [83:64] offset in DBG, [84] write; the access is judged as normal-world, and
the next Capture-DR returns what it read. -/
def State.dbgReg (s : State) (dr : Nat) : State :=
  let a := dbgBase + bits dr 64 20 / 8 * 8
  if dr.testBit 84 then s.regWrite .tap a 8 (bits dr 0 64)
  else
    let (v, s) := s.regRead .tap a 8
    { s with dbg := { s.dbg with dr := v } }

/-- TAP_UPDATE_DR: with DBGREG as the hub's instruction. -/
def execTapUpdateDr (dr : Nat) (s : State) : Host.Outcome State Fault Refusal :=
  .next (if !s.held && s.tapIr hubTap = 0x12 then s.dbgReg dr else s)

end Sys2Proof.Machine
end

