-- ==== Sys2Proof/Machine/Dispatch.lean ====
section
/-! DEFINITION. The dispatch: one arm per command of the opcode table, each a direct call of that command's meaning. -/

namespace Sys2Proof.Machine

def exec (i : Instr) (s : State) : Host.Outcome State Fault Refusal :=
  match i with
  | .registerWrite src addr size value => Sys2Proof.Machine.execRegisterWrite src addr size value s
  | .baseLock lp => Sys2Proof.Machine.execBaseLock lp s
  | .baseFallback lp => Sys2Proof.Machine.execBaseFallback lp s
  | .baseAttemptTimeout lp signal => Sys2Proof.Machine.execBaseAttemptTimeout lp signal s
  | .capabilityBlock lp blk sig => Sys2Proof.Machine.execCapabilityBlock lp blk sig s
  | .identityCheck => Sys2Proof.Machine.execIdentityCheck s
  | .laneTestDone lp rxFail txFail => Sys2Proof.Machine.execLaneTestDone lp rxFail txFail s
  | .markerCheckDone lp ok => Sys2Proof.Machine.execMarkerCheckDone lp ok s
  | .flitCrcError lp newWindow => Sys2Proof.Machine.execFlitCrcError lp newWindow s
  | .alernLaneLockLoss lp lane => Sys2Proof.Machine.execAlernLaneLockLoss lp lane s
  | .retrainRequest lp => Sys2Proof.Machine.execRetrainRequest lp s
  | .retrainDone lp rxFail txFail markers => Sys2Proof.Machine.execRetrainDone lp rxFail txFail markers s
  | .farSideBase lp => Sys2Proof.Machine.execFarSideBase lp s
  | .dieReset n => Sys2Proof.Machine.execDieReset n s
  | .alnPortEn src n value => Sys2Proof.Machine.execAlnPortEn src n value s
  | .alnRestart src n => Sys2Proof.Machine.execAlnRestart src n s
  | .widthRestore src n => Sys2Proof.Machine.execWidthRestore src n s
  | .unfence src n => Sys2Proof.Machine.execUnfence src n s
  | .alnCfgLock src value => Sys2Proof.Machine.execAlnCfgLock src value s
  | .beatInputDisable src idx => Sys2Proof.Machine.execBeatInputDisable src idx s
  | .inputSymbolLock idx => Sys2Proof.Machine.execInputSymbolLock idx s
  | .codeErrorLimit idx errors => Sys2Proof.Machine.execCodeErrorLimit idx errors s
  | .freqMonitorWindow idx count abPhase near errors => Sys2Proof.Machine.execFreqMonitorWindow idx count abPhase near errors s
  | .inputLock idx near => Sys2Proof.Machine.execInputLock idx near s
  | .phaseError idx => Sys2Proof.Machine.execPhaseError idx s
  | .timeFrame idx tag age spaced => Sys2Proof.Machine.execTimeFrame idx tag age spaced s
  | .loadFrame idx tag age spaced => Sys2Proof.Machine.execLoadFrame idx tag age spaced s
  | .syncFrame idx code spaced => Sys2Proof.Machine.execSyncFrame idx code spaced s
  | .calFrame idx tag code delay spaced => Sys2Proof.Machine.execCalFrame idx tag code delay spaced s
  | .beatFrameInvalid idx crcBad spaced => Sys2Proof.Machine.execBeatFrameInvalid idx crcBad spaced s
  | .syncExecute => Sys2Proof.Machine.execSyncExecute s
  | .calExecute => Sys2Proof.Machine.execCalExecute s
  | .holdoverExpire => Sys2Proof.Machine.execHoldoverExpire s
  | .autoRevert => Sys2Proof.Machine.execAutoRevert s
  | .forceSwitch src => Sys2Proof.Machine.execForceSwitch src s
  | .swLoad src => Sys2Proof.Machine.execSwLoad src s
  | .swLoadApply => Sys2Proof.Machine.execSwLoadApply s
  | .adopt src => Sys2Proof.Machine.execAdopt src s
  | .beatCountRead src off size fine => Sys2Proof.Machine.execBeatCountRead src off size fine s
  | .hzbeatRead core pc rd fine => Sys2Proof.Machine.execHzbeatRead core pc rd fine s
  | .hzbeatfRead core pc rd => Sys2Proof.Machine.execHzbeatfRead core pc rd s
  | .releaseRead slack => Sys2Proof.Machine.execReleaseRead slack s
  | .release => Sys2Proof.Machine.execRelease s
  | .beatRqRun src value => Sys2Proof.Machine.execBeatRqRun src value s
  | .beatRqSlackWrite src => Sys2Proof.Machine.execBeatRqSlackWrite src s
  | .hlnGrpRateWrite src g value => Sys2Proof.Machine.execHlnGrpRateWrite src g value s
  | .groupPllLock g => Sys2Proof.Machine.execGroupPllLock g s
  | .laneRxEn src n on => Sys2Proof.Machine.execLaneRxEn src n on s
  | .laneTxEn src n on => Sys2Proof.Machine.execLaneTxEn src n on s
  | .laneCdrLock n => Sys2Proof.Machine.execLaneCdrLock n s
  | .laneBlockLock n hdrErr => Sys2Proof.Machine.execLaneBlockLock n hdrErr s
  | .laneBlockLockLoss n hdrErr => Sys2Proof.Machine.execLaneBlockLockLoss n hdrErr s
  | .laneSignalLoss n => Sys2Proof.Machine.execLaneSignalLoss n s
  | .laneResync src n => Sys2Proof.Machine.execLaneResync src n s
  | .laneCntClr src n => Sys2Proof.Machine.execLaneCntClr src n s
  | .strayControlBlock n => Sys2Proof.Machine.execStrayControlBlock n s
  | .dataFrame n h0 h1 payload crc hdrErr ctrlErr broken => Sys2Proof.Machine.execDataFrame n h0 h1 payload crc hdrErr ctrlErr broken s
  | .screplyFrame n h0 h1 payload crc hdrErr ctrlErr broken => Sys2Proof.Machine.execScreplyFrame n h0 h1 payload crc hdrErr ctrlErr broken s
  | .tick n edge taken => Sys2Proof.Machine.execTick n edge taken s
  | .acceptBlockSend n => Sys2Proof.Machine.execAcceptBlockSend n s
  | .cmdBlockSend n => Sys2Proof.Machine.execCmdBlockSend n s
  | .scGo src n value => Sys2Proof.Machine.execScGo src n value s
  | .scSendDone n => Sys2Proof.Machine.execScSendDone n s
  | .scRxfullClear src n => Sys2Proof.Machine.execScRxfullClear src n s
  | .ctxClearDone => Sys2Proof.Machine.execCtxClearDone s
  | .ctxLookup bank => Sys2Proof.Machine.execCtxLookup bank s
  | .ctxLoad ring => Sys2Proof.Machine.execCtxLoad ring s
  | .ctxStage ring => Sys2Proof.Machine.execCtxStage ring s
  | .ctxFlip ring => Sys2Proof.Machine.execCtxFlip ring s
  | .ctxStageFlip ring => Sys2Proof.Machine.execCtxStageFlip ring s
  | .ctxCancel ring => Sys2Proof.Machine.execCtxCancel ring s
  | .ctxRead ring => Sys2Proof.Machine.execCtxRead ring s
  | .epochFlip slot => Sys2Proof.Machine.execEpochFlip slot s
  | .mergeStart slot => Sys2Proof.Machine.execMergeStart slot s
  | .mergeWrite bank => Sys2Proof.Machine.execMergeWrite bank s
  | .sketchClose n => Sys2Proof.Machine.execSketchClose n s
  | .packetDeliver n => Sys2Proof.Machine.execPacketDeliver n s
  | .engineEval e => Sys2Proof.Machine.execEngineEval e s
  | .guestDeadline b => Sys2Proof.Machine.execGuestDeadline b s
  | .combinerJudge => Sys2Proof.Machine.execCombinerJudge s
  | .trgMenuLoad ring => Sys2Proof.Machine.execTrgMenuLoad ring s
  | .trgMenuRead ring => Sys2Proof.Machine.execTrgMenuRead ring s
  | .unitSwap u => Sys2Proof.Machine.execUnitSwap u s
  | .trgClearDone => Sys2Proof.Machine.execTrgClearDone s
  | .trigDrvWrite src on => Sys2Proof.Machine.execTrigDrvWrite src on s
  | .trigDrvApply => Sys2Proof.Machine.execTrigDrvApply s
  | .trigPulseEnd => Sys2Proof.Machine.execTrigPulseEnd s
  | .busyDrvWrite src on => Sys2Proof.Machine.execBusyDrvWrite src on s
  | .busyHoldExpire => Sys2Proof.Machine.execBusyHoldExpire s
  | .tioInputEdge k level beat => Sys2Proof.Machine.execTioInputEdge k level beat s
  | .tioInEnWrite src k on => Sys2Proof.Machine.execTioInEnWrite src k on s
  | .tioInEnApply k => Sys2Proof.Machine.execTioInEnApply k s
  | .stuckDetect k => Sys2Proof.Machine.execStuckDetect k s
  | .chatterWindow k => Sys2Proof.Machine.execChatterWindow k s
  | .rearm src k => Sys2Proof.Machine.execRearm src k s
  | .histRingEnable src n value => Sys2Proof.Machine.execHistRingEnable src n value s
  | .historyWriteDone n => Sys2Proof.Machine.execHistoryWriteDone n s
  | .contextAllocate => Sys2Proof.Machine.execContextAllocate s
  | .assemblyTimeout ctx => Sys2Proof.Machine.execAssemblyTimeout ctx s
  | .eventCopy => Sys2Proof.Machine.execEventCopy s
  | .poolAllocate p => Sys2Proof.Machine.execPoolAllocate p s
  | .eventCopyDone ctx => Sys2Proof.Machine.execEventCopyDone ctx s
  | .eventPost ctx => Sys2Proof.Machine.execEventPost ctx s
  | .evqDoorbell db value => Sys2Proof.Machine.execEvqDoorbell db value s
  | .evqSubscribe ring => Sys2Proof.Machine.execEvqSubscribe ring s
  | .evqUnsubscribe ring => Sys2Proof.Machine.execEvqUnsubscribe ring s
  | .evqCfgWrite src q value => Sys2Proof.Machine.execEvqCfgWrite src q value s
  | .poolEnable src p value => Sys2Proof.Machine.execPoolEnable src p value s
  | .routeCfgWrite src r which value => Sys2Proof.Machine.execRouteCfgWrite src r which value s
  | .bpAgeExpire ctx => Sys2Proof.Machine.execBpAgeExpire ctx s
  | .evbClearDone => Sys2Proof.Machine.execEvbClearDone s
  | .coreRun src core => Sys2Proof.Machine.execCoreRun src core s
  | .coreInitDone core => Sys2Proof.Machine.execCoreInitDone core s
  | .coreReset src core => Sys2Proof.Machine.execCoreReset src core s
  | .wfi core pc => Sys2Proof.Machine.execWfi core pc s
  | .wfiWake core => Sys2Proof.Machine.execWfiWake core s
  | .trap core pc cause tval => Sys2Proof.Machine.execTrap core pc cause tval s
  | .interruptTake core pc => Sys2Proof.Machine.execInterruptTake core pc s
  | .mret core pc => Sys2Proof.Machine.execMret core pc s
  | .sret core pc => Sys2Proof.Machine.execSret core pc s
  | .csrWrite core pc csr op rd value => Sys2Proof.Machine.execCsrWrite core pc csr op rd value s
  | .predictorFlush core pc => Sys2Proof.Machine.execPredictorFlush core pc s
  | .timerCompare core => Sys2Proof.Machine.execTimerCompare core s
  | .counterOverflow core n => Sys2Proof.Machine.execCounterOverflow core n s
  | .coreClaimRead src core m => Sys2Proof.Machine.execCoreClaimRead src core m s
  | .coreSsipSet src core value => Sys2Proof.Machine.execCoreSsipSet src core value s
  | .load core pc len va size sext dst => Sys2Proof.Machine.execLoad core pc len va size sext dst s
  | .store core pc len va size value => Sys2Proof.Machine.execStore core pc len va size value s
  | .amo core pc len op va size value rd => Sys2Proof.Machine.execAmo core pc len op va size value rd s
  | .lr core pc len va size rd => Sys2Proof.Machine.execLr core pc len va size rd s
  | .sc core pc len va size value rd => Sys2Proof.Machine.execSc core pc len va size value rd s
  | .fence core pc pred => Sys2Proof.Machine.execFence core pc pred s
  | .fenceI core pc => Sys2Proof.Machine.execFenceI core pc s
  | .lrReservationExpire core => Sys2Proof.Machine.execLrReservationExpire core s
  | .mergeBufferDrain core => Sys2Proof.Machine.execMergeBufferDrain core s
  | .rdShared line c => Sys2Proof.Machine.execRdShared line c s
  | .rdUnique line c => Sys2Proof.Machine.execRdUnique line c s
  | .upgrade line c => Sys2Proof.Machine.execUpgrade line c s
  | .ioRd line => Sys2Proof.Machine.execIoRd line s
  | .ioWr line => Sys2Proof.Machine.execIoWr line s
  | .evnClean c line => Sys2Proof.Machine.execEvnClean c line s
  | .evnDirty c line => Sys2Proof.Machine.execEvnDirty c line s
  | .wrback c line => Sys2Proof.Machine.execWrback c line s
  | .dirWaiterServe line => Sys2Proof.Machine.execDirWaiterServe line s
  | .snpShare c line => Sys2Proof.Machine.execSnpShare c line s
  | .snpUnique c line => Sys2Proof.Machine.execSnpUnique c line s
  | .snpInv c line => Sys2Proof.Machine.execSnpInv c line s
  | .snpIord c line => Sys2Proof.Machine.execSnpIord c line s
  | .data c line => Sys2Proof.Machine.execData c line s
  | .rsp c line => Sys2Proof.Machine.execRsp c line s
  | .gnt c line => Sys2Proof.Machine.execGnt c line s
  | .ackEvn c line => Sys2Proof.Machine.execAckEvn c line s
  | .pin c line => Sys2Proof.Machine.execPin c line s
  | .unpin c line => Sys2Proof.Machine.execUnpin c line s
  | .fenceSweepDone slice => Sys2Proof.Machine.execFenceSweepDone slice s
  | .l2EnWrite src c value => Sys2Proof.Machine.execL2EnWrite src c value s
  | .l2Flush src c => Sys2Proof.Machine.execL2Flush src c s
  | .l2FlushDone c => Sys2Proof.Machine.execL2FlushDone c s
  | .l2Inv src c => Sys2Proof.Machine.execL2Inv src c s
  | .l2InvDone c => Sys2Proof.Machine.execL2InvDone c s
  | .l2InitDone c => Sys2Proof.Machine.execL2InitDone c s
  | .dirClearDone slice => Sys2Proof.Machine.execDirClearDone slice s
  | .dirProbe src value => Sys2Proof.Machine.execDirProbe src value s
  | .dirProbeDone => Sys2Proof.Machine.execDirProbeDone s
  | .prfBegin core pc rd => Sys2Proof.Machine.execPrfBegin core pc rd s
  | .prfJoin core pc rd rs1 => Sys2Proof.Machine.execPrfJoin core pc rd rs1 s
  | .prfSeal core pc rd => Sys2Proof.Machine.execPrfSeal core pc rd s
  | .prfAbort core pc imm => Sys2Proof.Machine.execPrfAbort core pc imm s
  | .prfGroup core pc rd rs1 => Sys2Proof.Machine.execPrfGroup core pc rd rs1 s
  | .prfTest core pc rd => Sys2Proof.Machine.execPrfTest core pc rd s
  | .proofAbortMessage core => Sys2Proof.Machine.execProofAbortMessage core s
  | .sealMessage g core => Sys2Proof.Machine.execSealMessage g core s
  | .groupCommit g core => Sys2Proof.Machine.execGroupCommit g core s
  | .groupCommitAck g core => Sys2Proof.Machine.execGroupCommitAck g core s
  | .groupAbortDone g => Sys2Proof.Machine.execGroupAbortDone g s
  | .groupTimeout g => Sys2Proof.Machine.execGroupTimeout g s
  | .snoopHoldTimeout c line => Sys2Proof.Machine.execSnoopHoldTimeout c line s
  | .deferBudgetExpire core => Sys2Proof.Machine.execDeferBudgetExpire core s
  | .prfClearDone => Sys2Proof.Machine.execPrfClearDone s
  | .stpJob ring => Sys2Proof.Machine.execStpJob ring s
  | .stpDispatch => Sys2Proof.Machine.execStpDispatch s
  | .stpBlockDone e => Sys2Proof.Machine.execStpBlockDone e s
  | .ethFrameSend p sub => Sys2Proof.Machine.execEthFrameSend p sub s
  | .pfcFrame p sub pause release => Sys2Proof.Machine.execPfcFrame p sub pause release s
  | .ethRxDiscard p sub => Sys2Proof.Machine.execEthRxDiscard p sub s
  | .pauseTimeout p q => Sys2Proof.Machine.execPauseTimeout p q s
  | .ethLinkChange p sub up => Sys2Proof.Machine.execEthLinkChange p sub up s
  | .ethFlowSet ring => Sys2Proof.Machine.execEthFlowSet ring s
  | .ethSend ring => Sys2Proof.Machine.execEthSend ring s
  | .ethQCfgWrite src p q value => Sys2Proof.Machine.execEthQCfgWrite src p q value s
  | .stpShareWrite src slice value => Sys2Proof.Machine.execStpShareWrite src slice value s
  | .stpEthClearDone dom => Sys2Proof.Machine.execStpEthClearDone dom s
  | .sheetRead n => Sys2Proof.Machine.execSheetRead n s
  | .sheetWrite n => Sys2Proof.Machine.execSheetWrite n s
  | .rawSheetDecode die n => Sys2Proof.Machine.execRawSheetDecode die n s
  | .correctionWriteback n die => Sys2Proof.Machine.execCorrectionWriteback n die s
  | .ueReport n die => Sys2Proof.Machine.execUeReport n die s
  | .correctionTimeout n die => Sys2Proof.Machine.execCorrectionTimeout n die s
  | .burnishRead c => Sys2Proof.Machine.execBurnishRead c s
  | .memWmWrite src value => Sys2Proof.Machine.execMemWmWrite src value s
  | .wmWalkDone => Sys2Proof.Machine.execWmWalkDone s
  | .plateTWrite src ddr p value => Sys2Proof.Machine.execPlateTWrite src ddr p value s
  | .recodeDone m => Sys2Proof.Machine.execRecodeDone m s
  | .initWalkDone c => Sys2Proof.Machine.execInitWalkDone c s
  | .gRd g tag addr len refill => Sys2Proof.Machine.execGRd g tag addr len refill s
  | .gWr g tag addr data refill => Sys2Proof.Machine.execGWr g tag addr data refill s
  | .stencilTokenGrant g refill cycles => Sys2Proof.Machine.execStencilTokenGrant g refill cycles s
  | .gTrig g b w => Sys2Proof.Machine.execGTrig g b w s
  | .gFrag g evn off last data => Sys2Proof.Machine.execGFrag g evn off last data s
  | .gCpl g tag status data => Sys2Proof.Machine.execGCpl g tag status data s
  | .guestAccessTimeout g tag => Sys2Proof.Machine.execGuestAccessTimeout g tag s
  | .guestTick g => Sys2Proof.Machine.execGuestTick g s
  | .stnWinEnable src g w value => Sys2Proof.Machine.execStnWinEnable src g w value s
  | .pcieLinkUp p speed width flit => Sys2Proof.Machine.execPcieLinkUp p speed width flit s
  | .pcieLinkDown p => Sys2Proof.Machine.execPcieLinkDown p s
  | .perstAssert p => Sys2Proof.Machine.execPerstAssert p s
  | .perstDeassert p => Sys2Proof.Machine.execPerstDeassert p s
  | .hotReset p => Sys2Proof.Machine.execHotReset p s
  | .flr p => Sys2Proof.Machine.execFlr p s
  | .flrDone p => Sys2Proof.Machine.execFlrDone p s
  | .powerStateChange p d3 => Sys2Proof.Machine.execPowerStateChange p d3 s
  | .configWrite p off be value => Sys2Proof.Machine.execConfigWrite p off be value s
  | .bar4Read p tag off len => Sys2Proof.Machine.execBar4Read p tag off len s
  | .bar4Write p off data ep => Sys2Proof.Machine.execBar4Write p off data ep s
  | .tlpError p kind header => Sys2Proof.Machine.execTlpError p kind header s
  | .dvsecRecover p value => Sys2Proof.Machine.execDvsecRecover p value s
  | .recoverTimeout => Sys2Proof.Machine.execRecoverTimeout s
  | .dmaCompletion p tag status ep data => Sys2Proof.Machine.execDmaCompletion p tag status ep data s
  | .dmaCompletionTimeout p tag => Sys2Proof.Machine.execDmaCompletionTimeout p tag s
  | .atsInvalidation p itag pasid page count => Sys2Proof.Machine.execAtsInvalidation p itag pasid page count s
  | .laneMargining p lane value => Sys2Proof.Machine.execLaneMargining p lane value s
  | .doeDiscovery p index => Sys2Proof.Machine.execDoeDiscovery p index s
  | .doeAbort p => Sys2Proof.Machine.execDoeAbort p s
  | .getVersion p => Sys2Proof.Machine.execGetVersion p s
  | .getCapabilities p req => Sys2Proof.Machine.execGetCapabilities p req s
  | .negotiateAlgorithms p req => Sys2Proof.Machine.execNegotiateAlgorithms p req s
  | .getDigests p => Sys2Proof.Machine.execGetDigests p s
  | .getCertificate p slot off len => Sys2Proof.Machine.execGetCertificate p slot off len s
  | .challenge p slot nonce => Sys2Proof.Machine.execChallenge p slot nonce s
  | .getMeasurements p index slot signed nonce => Sys2Proof.Machine.execGetMeasurements p index slot signed nonce s
  | .spdmUnsupportedRequest p code => Sys2Proof.Machine.execSpdmUnsupportedRequest p code s
  | .ringEnable src r value => Sys2Proof.Machine.execRingEnable src r value s
  | .ringResume src r => Sys2Proof.Machine.execRingResume src r s
  | .sqDoorbell db value => Sys2Proof.Machine.execSqDoorbell db value s
  | .cqDoorbell db value => Sys2Proof.Machine.execCqDoorbell db value s
  | .descriptorFetch r => Sys2Proof.Machine.execDescriptorFetch r s
  | .completionWrite r => Sys2Proof.Machine.execCompletionWrite r s
  | .irqModTimeout r => Sys2Proof.Machine.execIrqModTimeout r s
  | .hifEvqDbWrite src q value => Sys2Proof.Machine.execHifEvqDbWrite src q value s
  | .nop ring => Sys2Proof.Machine.execNop ring s
  | .dmaCopy ring => Sys2Proof.Machine.execDmaCopy ring s
  | .evtDeliver ring => Sys2Proof.Machine.execEvtDeliver ring s
  | .sliceCreate ring => Sys2Proof.Machine.execSliceCreate ring s
  | .sliceDestroy ring => Sys2Proof.Machine.execSliceDestroy ring s
  | .sliceDestroyDone => Sys2Proof.Machine.execSliceDestroyDone s
  | .sliceQuota ring => Sys2Proof.Machine.execSliceQuota ring s
  | .sliceReset ring => Sys2Proof.Machine.execSliceReset ring s
  | .sliceResetDone => Sys2Proof.Machine.execSliceResetDone s
  | .fwWrite ring => Sys2Proof.Machine.execFwWrite ring s
  | .setProfile ring => Sys2Proof.Machine.execSetProfile ring s
  | .profileWrite ring => Sys2Proof.Machine.execProfileWrite ring s
  | .ledgerRead ring => Sys2Proof.Machine.execLedgerRead ring s
  | .plan ring => Sys2Proof.Machine.execPlan ring s
  | .warmReset ring => Sys2Proof.Machine.execWarmReset ring s
  | .spoofLogRead src => Sys2Proof.Machine.execSpoofLogRead src s
  | .bootRomStart => Sys2Proof.Machine.execBootRomStart s
  | .stageImageVerify => Sys2Proof.Machine.execStageImageVerify s
  | .pushTransfer off total data => Sys2Proof.Machine.execPushTransfer off total data s
  | .computeDieRelease n => Sys2Proof.Machine.execComputeDieRelease n s
  | .fwReady => Sys2Proof.Machine.execFwReady s
  | .dbgAuthNew src => Sys2Proof.Machine.execDbgAuthNew src s
  | .dbgAuthNonceReady nonce => Sys2Proof.Machine.execDbgAuthNonceReady nonce s
  | .dbgAuthGo src value => Sys2Proof.Machine.execDbgAuthGo src value s
  | .dbgAuthDone => Sys2Proof.Machine.execDbgAuthDone s
  | .dbgAuthClr src => Sys2Proof.Machine.execDbgAuthClr src s
  | .dbgFwEnWrite src value => Sys2Proof.Machine.execDbgFwEnWrite src value s
  | .debugHalt core => Sys2Proof.Machine.execDebugHalt core s
  | .debugResume core => Sys2Proof.Machine.execDebugResume core s
  | .dbgAccGo src value => Sys2Proof.Machine.execDbgAccGo src value s
  | .dbgAccDone => Sys2Proof.Machine.execDbgAccDone s
  | .tapReset => Sys2Proof.Machine.execTapReset s
  | .tapUpdateIr die ir => Sys2Proof.Machine.execTapUpdateIr die ir s
  | .tapUpdateDr dr => Sys2Proof.Machine.execTapUpdateDr dr s
  | .powerUp => Sys2Proof.Machine.execPowerUp s
  | .poresetAssert => Sys2Proof.Machine.execPoresetAssert s
  | .poresetRelease sel => Sys2Proof.Machine.execPoresetRelease sel s
  | .pwrgdDeassert k => Sys2Proof.Machine.execPwrgdDeassert k s
  | .sysresetAssert => Sys2Proof.Machine.execSysresetAssert s
  | .ckrResetCtlWarm src => Sys2Proof.Machine.execCkrResetCtlWarm src s
  | .thermtrip => Sys2Proof.Machine.execThermtrip s
  | .xtalStable => Sys2Proof.Machine.execXtalStable s
  | .xtalTimeout => Sys2Proof.Machine.execXtalTimeout s
  | .rootPllLock => Sys2Proof.Machine.execRootPllLock s
  | .xtalAmplitudeLoss => Sys2Proof.Machine.execXtalAmplitudeLoss s
  | .rootPllUnlock => Sys2Proof.Machine.execRootPllUnlock s
  | .clockMonitorWindow which count => Sys2Proof.Machine.execClockMonitorWindow which count s
  | .ckrRatioWrite src d value => Sys2Proof.Machine.execCkrRatioWrite src d value s
  | .ratioSwitchDone d => Sys2Proof.Machine.execRatioSwitchDone d s
  | .ckrGateWrite src d value => Sys2Proof.Machine.execCkrGateWrite src d value s
  | .pwrTargetWrite src d value => Sys2Proof.Machine.execPwrTargetWrite src d value s
  | .pwrHoldRecheck d => Sys2Proof.Machine.execPwrHoldRecheck d s
  | .pwrHoldAbort d => Sys2Proof.Machine.execPwrHoldAbort d s
  | .domainWake d code => Sys2Proof.Machine.execDomainWake d code s
  | .domainTransitionStart => Sys2Proof.Machine.execDomainTransitionStart s
  | .domainTransitionDone d => Sys2Proof.Machine.execDomainTransitionDone d s
  | .poweredHour readings ok => Sys2Proof.Machine.execPoweredHour readings ok s
  | .thermalSample temps volts => Sys2Proof.Machine.execThermalSample temps volts s
  | .supplyFence n => Sys2Proof.Machine.execSupplyFence n s
  | .eventRateRelease idx => Sys2Proof.Machine.execEventRateRelease idx s
  | .eventMessageDeliver => Sys2Proof.Machine.execEventMessageDeliver s
  | .evcSrcCfgWrite src idx value => Sys2Proof.Machine.execEvcSrcCfgWrite src idx value s
  | .translationCompletion p tag ok frame read write => Sys2Proof.Machine.execTranslationCompletion p tag ok frame read write s
  | .participantAbort g core => Sys2Proof.Machine.execParticipantAbort g core s
  | .badMsg g => Sys2Proof.Machine.execBadMsg g s

end Sys2Proof.Machine
end

