-- ==== Sys2Proof/WellFormed.lean ====
section
/-!
DEFINITION. Well-formed commands: every operand lies in the range its register, index or field has in the spec.  The
meanings are total; an operand out of its range leaves the device as it is.
-/

namespace Sys2Proof

/-- A requester that exists: ports 0 and 1, cores 0 to 575. -/
def srcOk : Src → Bool
  | .host p => p < 2
  | .normal k => k < 576
  | _ => true

/-- A doorbell's place that exists (R391, R392). -/
def dbOk : DbSrc → Bool
  | .bar2 port off => port < 2 && off < 2 ^ 26
  | .window src _ => srcOk src
  | .proof core ring => core < 576 && ring < 8192

/-- Sizes of a core's access. -/
def accessSize (size : Nat) : Bool := size == 1 || size == 2 || size == 4 || size == 8

/-- A destination register that exists; an element lies in its 64-byte register. -/
def dstOk : LoadDst → Bool
  | .x r => r < 32
  | .f r => r < 32
  | .v r i => r < 32 && i < 64
  | .fetch => true

/-- Is a command well formed? -/
def wellFormed : Instr → Bool
  | .registerWrite src addr size value => srcOk src && addr < 2 ^ 26 && (size == 4 || size == 8) && value < 2 ^ 64
  | .baseLock lp => lp < 28
  | .baseFallback lp => lp < 28
  | .baseAttemptTimeout lp _ => lp < 28
  | .capabilityBlock lp blk sig => lp < 28 && blk.length == 64 && (sig.isEmpty || sig.length == 64)
  | .identityCheck => true
  | .laneTestDone lp _ _ => lp < 28
  | .markerCheckDone lp _ => lp < 28
  | .flitCrcError lp _ => lp < 28
  | .alernLaneLockLoss lp lane => lp < 28 && lane < 68
  | .retrainRequest lp => lp < 28
  | .retrainDone lp _ _ _ => lp < 28
  | .farSideBase lp => lp < 28
  | .dieReset n => n < 14
  | .alnPortEn src n value => srcOk src && n < 14 && value < 2 ^ 64
  | .alnRestart src n => srcOk src && n < 14
  | .widthRestore src n => srcOk src && n < 14
  | .unfence src n => srcOk src && n < 14
  | .alnCfgLock src value => srcOk src && value < 2 ^ 64
  | .beatInputDisable src i => srcOk src && i < 2
  | .inputSymbolLock i => i < 2
  | .codeErrorLimit i _ => i < 2
  | .freqMonitorWindow i _ _ _ _ => i < 2
  | .inputLock i _ => i < 2
  | .phaseError i => i < 2
  | .timeFrame i tag _ _ => i < 2 && tag < 2 ^ 64
  | .loadFrame i tag _ _ => i < 2 && tag < 2 ^ 64
  | .syncFrame i _ _ => i < 2
  | .calFrame i tag _ _ _ => i < 2 && tag < 2 ^ 64
  | .beatFrameInvalid i _ _ => i < 2
  | .syncExecute => true
  | .calExecute => true
  | .holdoverExpire => true
  | .autoRevert => true
  | .forceSwitch src => srcOk src
  | .swLoad src => srcOk src
  | .swLoadApply => true
  | .adopt src => srcOk src
  | .beatCountRead src off size fine => srcOk src && off < 8 && (size == 4 || size == 8) && fine < 65536
  | .hzbeatRead core pc rd _ => core < 576 && pc < 2 ^ 64 && rd < 32
  | .hzbeatfRead core pc rd => core < 576 && pc < 2 ^ 64 && rd < 32
  | .releaseRead _ => true
  | .release => true
  | .beatRqRun src value => srcOk src && value < 2 ^ 64
  | .beatRqSlackWrite src => srcOk src
  | .hlnGrpRateWrite src g value => srcOk src && g < 8 && value < 2 ^ 64
  | .groupPllLock g => g < 8
  | .laneRxEn src n _ => srcOk src && n < 192
  | .laneTxEn src n _ => srcOk src && n < 192
  | .laneCdrLock n => n < 192
  | .laneBlockLock n _ => n < 192
  | .laneBlockLockLoss n _ => n < 192
  | .laneSignalLoss n => n < 192
  | .laneResync src n => srcOk src && n < 192
  | .laneCntClr src n => srcOk src && n < 192
  | .strayControlBlock n => n < 192
  | .dataFrame n h0 h1 payload crc _ _ _ => n < 192 && h0 < 2 ^ 64 && h1 < 2 ^ 64 &&
      payload.all (fun w => w < 2 ^ 64) && crc < 2 ^ 32
  | .screplyFrame n h0 h1 payload crc _ _ _ => n < 192 && h0 < 2 ^ 64 && h1 < 2 ^ 64 &&
      payload.all (fun w => w < 2 ^ 64) && crc < 2 ^ 32
  | .tick n _ _ => n < 192
  | .acceptBlockSend n => n < 192
  | .cmdBlockSend n => n < 192
  | .scGo src n value => srcOk src && n < 192 && value < 2 ^ 64
  | .scSendDone n => n < 192
  | .scRxfullClear src n => srcOk src && n < 192
  | .ctxClearDone => true
  | .ctxLookup bank => bank < 128
  | .ctxLoad ring => ring < 8192
  | .ctxStage ring => ring < 8192
  | .ctxFlip ring => ring < 8192
  | .ctxStageFlip ring => ring < 8192
  | .ctxCancel ring => ring < 8192
  | .ctxRead ring => ring < 8192
  | .epochFlip slot => slot < 64
  | .mergeStart slot => slot < 64
  | .mergeWrite bank => bank < 128
  | .sketchClose n => n < 192
  | .packetDeliver n => n < 192
  | .engineEval e => e < 64
  | .guestDeadline _ => true
  | .combinerJudge => true
  | .trgMenuLoad ring => ring < 8192
  | .trgMenuRead ring => ring < 8192
  | .unitSwap u => u < 65
  | .trgClearDone => true
  | .trigDrvWrite src _ => srcOk src
  | .trigDrvApply => true
  | .trigPulseEnd => true
  | .busyDrvWrite src _ => srcOk src
  | .busyHoldExpire => true
  | .tioInputEdge k _ beat => k < 24 && beat < 2 ^ 64
  | .tioInEnWrite src k _ => srcOk src && k < 24
  | .tioInEnApply k => k < 24
  | .stuckDetect k => k < 24
  | .chatterWindow k => k < 24
  | .rearm src k => srcOk src && k < 24
  | .histRingEnable src n value => srcOk src && n < 192 && value < 2 ^ 64
  | .historyWriteDone n => n < 192
  | .contextAllocate => true
  | .assemblyTimeout ctx => ctx < 65536
  | .eventCopy => true
  | .poolAllocate p => p < 8
  | .eventCopyDone ctx => ctx < 65536
  | .eventPost ctx => ctx < 65536
  | .evqDoorbell db value => dbOk db && value < 2 ^ 64
  | .evqSubscribe ring => ring < 8192
  | .evqUnsubscribe ring => ring < 8192
  | .evqCfgWrite src q value => srcOk src && q < 1024 && value < 2 ^ 64
  | .poolEnable src p value => srcOk src && p < 8 && value < 2 ^ 64
  | .routeCfgWrite src r which value => srcOk src && r < 16 && which < 5 && value < 2 ^ 64
  | .bpAgeExpire ctx => ctx < 65536
  | .evbClearDone => true
  | .coreRun src core => srcOk src && core < 576
  | .coreInitDone core => core < 576
  | .coreReset src core => srcOk src && core < 576
  | .wfi core pc => core < 576 && pc < 2 ^ 64
  | .wfiWake core => core < 576
  | .trap core pc cause tval => core < 576 && pc < 2 ^ 64 && cause < 64 && tval < 2 ^ 64
  | .interruptTake core pc => core < 576 && pc < 2 ^ 64
  | .mret core pc => core < 576 && pc < 2 ^ 64
  | .sret core pc => core < 576 && pc < 2 ^ 64
  | .csrWrite core pc csr op rd value => core < 576 && pc < 2 ^ 64 && csr < 4096 && op < 3 && rd < 32 && value < 2 ^ 64
  | .predictorFlush core pc => core < 576 && pc < 2 ^ 64
  | .timerCompare core => core < 576
  | .counterOverflow core n => core < 576 && 3 ≤ n && n < 32
  | .coreClaimRead src core _ => srcOk src && core < 576
  | .coreSsipSet src core value => srcOk src && core < 576 && value < 2 ^ 64
  | .load core pc len va size _ dst => core < 576 && pc < 2 ^ 64 && len ≤ 4 && va < 2 ^ 64 && accessSize size &&
      dstOk dst
  | .store core pc len va size value => core < 576 && pc < 2 ^ 64 && len ≤ 4 && va < 2 ^ 64 && accessSize size &&
      value < 2 ^ 64
  | .amo core pc len op va size value rd => core < 576 && pc < 2 ^ 64 && len ≤ 4 && op < 9 && va < 2 ^ 64 &&
      (size == 4 || size == 8) && value < 2 ^ 64 && rd < 32
  | .lr core pc len va size rd => core < 576 && pc < 2 ^ 64 && len ≤ 4 && va < 2 ^ 64 && (size == 4 || size == 8) &&
      rd < 32
  | .sc core pc len va size value rd => core < 576 && pc < 2 ^ 64 && len ≤ 4 && va < 2 ^ 64 &&
      (size == 4 || size == 8) && value < 2 ^ 64 && rd < 32
  | .fence core pc pred => core < 576 && pc < 2 ^ 64 && pred < 16
  | .fenceI core pc => core < 576 && pc < 2 ^ 64
  | .lrReservationExpire core => core < 576
  | .mergeBufferDrain core => core < 576
  | .rdShared line c => line < 2 ^ 39 && c < 48
  | .rdUnique line c => line < 2 ^ 39 && c < 48
  | .upgrade line c => line < 2 ^ 39 && c < 48
  | .ioRd line => line < 2 ^ 39
  | .ioWr line => line < 2 ^ 39
  | .evnClean c line => c < 48 && line < 2 ^ 39
  | .evnDirty c line => c < 48 && line < 2 ^ 39
  | .wrback c line => c < 48 && line < 2 ^ 39
  | .dirWaiterServe line => line < 2 ^ 39
  | .snpShare c line => c < 48 && line < 2 ^ 39
  | .snpUnique c line => c < 48 && line < 2 ^ 39
  | .snpInv c line => c < 48 && line < 2 ^ 39
  | .snpIord c line => c < 48 && line < 2 ^ 39
  | .data c line => c < 48 && line < 2 ^ 39
  | .rsp c line => c < 48 && line < 2 ^ 39
  | .gnt c line => c < 48 && line < 2 ^ 39
  | .ackEvn c line => c < 48 && line < 2 ^ 39
  | .pin c line => c < 48 && line < 2 ^ 39
  | .unpin c line => c < 48 && line < 2 ^ 39
  | .fenceSweepDone slice => slice < 32
  | .l2EnWrite src c value => srcOk src && c < 48 && value < 2 ^ 64
  | .l2Flush src c => srcOk src && c < 48
  | .l2FlushDone c => c < 48
  | .l2Inv src c => srcOk src && c < 48
  | .l2InvDone c => c < 48
  | .l2InitDone c => c < 48
  | .dirClearDone slice => slice < 32
  | .dirProbe src value => srcOk src && value < 2 ^ 64
  | .dirProbeDone => true
  | .prfBegin core pc rd => core < 576 && pc < 2 ^ 64 && rd < 32
  | .prfJoin core pc rd rs1 => core < 576 && pc < 2 ^ 64 && rd < 32 && rs1 < 2 ^ 64
  | .prfSeal core pc rd => core < 576 && pc < 2 ^ 64 && rd < 32
  | .prfAbort core pc imm => core < 576 && pc < 2 ^ 64 && imm < 256
  | .prfGroup core pc rd rs1 => core < 576 && pc < 2 ^ 64 && rd < 32 && rs1 < 2 ^ 64
  | .prfTest core pc rd => core < 576 && pc < 2 ^ 64 && rd < 32
  | .proofAbortMessage core => core < 576
  | .sealMessage g core => g < 4096 && core < 576
  | .groupCommit g core => g < 4096 && core < 576
  | .groupCommitAck g core => g < 4096 && core < 576
  | .groupAbortDone g => g < 4096
  | .groupTimeout g => g < 4096
  | .snoopHoldTimeout c line => c < 48 && line < 2 ^ 39
  | .deferBudgetExpire core => core < 576
  | .prfClearDone => true
  | .stpJob ring => ring < 8192
  | .stpDispatch => true
  | .stpBlockDone e => e < 16
  | .ethFrameSend p sub => p < 4 && sub < 4
  | .pfcFrame p sub pause release => p < 4 && sub < 4 && pause < 256 && release < 256
  | .ethRxDiscard p sub => p < 4 && sub < 4
  | .pauseTimeout p q => p < 4 && q < 64
  | .ethLinkChange p sub _ => p < 4 && sub < 4
  | .ethFlowSet ring => ring < 8192
  | .ethSend ring => ring < 8192
  | .ethQCfgWrite src p q value => srcOk src && p < 4 && q < 64 && value < 2 ^ 64
  | .stpShareWrite src slice value => srcOk src && slice < 256 && value < 2 ^ 64
  | .stpEthClearDone dom => 93 ≤ dom && dom < 96
  | .sheetRead n => n < 2 ^ 38
  | .sheetWrite n => n < 2 ^ 38
  | .rawSheetDecode die n => die < 12 && n < 2 ^ 38
  | .correctionWriteback n die => n < 2 ^ 38 && die < 12
  | .ueReport n die => n < 2 ^ 38 && die < 12
  | .correctionTimeout n die => n < 2 ^ 38 && die < 12
  | .burnishRead c => c < 16
  | .memWmWrite src value => srcOk src && value < 2 ^ 64
  | .wmWalkDone => true
  | .plateTWrite src ddr p value => srcOk src && p < (if ddr then 2048 else 192) && value < 2 ^ 64
  | .recodeDone m => m < 2
  | .initWalkDone c => c < 16
  | .gRd g tag addr len _ => g < 2 && tag < 65536 && addr < 2 ^ 64 && 1 ≤ len && len ≤ 128
  | .gWr g tag addr data _ => g < 2 && tag < 65536 && addr < 2 ^ 64 && 1 ≤ data.length && data.length ≤ 128
  | .stencilTokenGrant g _ _ => g < 2
  | .gTrig g _ w => g < 2 && w < 2 ^ 64
  | .gFrag g _ off _ data => g < 2 && off < 65536 && 1 ≤ data.length && data.length ≤ 256
  | .gCpl g tag status _ => g < 2 && tag < 65536 && status < 256
  | .guestAccessTimeout g tag => g < 2 && tag < 65536
  | .guestTick g => g < 2
  | .stnWinEnable src g w value => srcOk src && g < 2 && w < 8 && value < 2 ^ 64
  | .pcieLinkUp p speed width _ => p < 2 && 1 ≤ speed && speed ≤ 6 && [1, 2, 4, 8, 16].contains width
  | .pcieLinkDown p => p < 2
  | .perstAssert p => p < 2
  | .perstDeassert p => p < 2
  | .hotReset p => p < 2
  | .flr p => p < 2
  | .flrDone p => p < 2
  | .powerStateChange p _ => p < 2
  | .configWrite p off be value => p < 2 && off < 4096 && off % 4 == 0 && be < 16 && value < 2 ^ 32
  | .bar4Read p tag _ len => p < 2 && tag < 1024 && 1 ≤ len && len ≤ 4096
  | .bar4Write p _ _ _ => p < 2
  | .tlpError p _ _ => p < 2
  | .dvsecRecover p value => p < 2 && value < 2 ^ 64
  | .recoverTimeout => true
  | .dmaCompletion p tag status _ _ => p < 2 && tag < 1024 && status < 256
  | .dmaCompletionTimeout p tag => p < 2 && tag < 1024
  | .atsInvalidation p itag pasid _ _ => p < 2 && itag < 32 && pasid < 2 ^ 20
  | .laneMargining p lane value => p < 2 && lane < 16 && value < 65536
  | .doeDiscovery p index => p < 2 && index < 256
  | .doeAbort p => p < 2
  | .getVersion p => p < 2
  | .getCapabilities p _ => p < 2
  | .negotiateAlgorithms p _ => p < 2
  | .getDigests p => p < 2
  | .getCertificate p slot off len => p < 2 && slot < 8 && off < 65536 && len < 65536
  | .challenge p slot nonce => p < 2 && slot < 8 && nonce.length == 32
  | .getMeasurements p index slot signed nonce => p < 2 && index < 256 && slot < 16 && (nonce.length == 32 || !signed)
  | .spdmUnsupportedRequest p code => p < 2 && code < 256
  | .ringEnable src r value => srcOk src && r < 8192 && value < 2 ^ 64
  | .ringResume src r => srcOk src && r < 8192
  | .sqDoorbell db value => dbOk db && value < 2 ^ 64
  | .cqDoorbell db value => dbOk db && value < 2 ^ 64
  | .descriptorFetch r => r < 8192
  | .completionWrite r => r < 8192
  | .irqModTimeout r => r < 8192
  | .hifEvqDbWrite src q value => srcOk src && q < 1024 && value < 2 ^ 64
  | .nop ring => ring < 8192
  | .dmaCopy ring => ring < 8192
  | .evtDeliver ring => ring < 8192
  | .sliceCreate ring => ring < 8192
  | .sliceDestroy ring => ring < 8192
  | .sliceDestroyDone => true
  | .sliceQuota ring => ring < 8192
  | .sliceReset ring => ring < 8192
  | .sliceResetDone => true
  | .fwWrite ring => ring < 8192
  | .setProfile ring => ring < 8192
  | .profileWrite ring => ring < 8192
  | .ledgerRead ring => ring < 8192
  | .plan ring => ring < 8192
  | .warmReset ring => ring < 8192
  | .spoofLogRead src => srcOk src
  | .bootRomStart => true
  | .stageImageVerify => true
  | .pushTransfer _ _ _ => true
  | .computeDieRelease n => n < 12
  | .fwReady => true
  | .dbgAuthNew src => srcOk src
  | .dbgAuthNonceReady nonce => nonce.length == 32
  | .dbgAuthGo src value => srcOk src && value < 2 ^ 64
  | .dbgAuthDone => true
  | .dbgAuthClr src => srcOk src
  | .dbgFwEnWrite src value => srcOk src && value < 2 ^ 64
  | .debugHalt core => core < 576
  | .debugResume core => core < 576
  | .dbgAccGo src value => srcOk src && value < 2 ^ 64
  | .dbgAccDone => true
  | .tapReset => true
  | .tapUpdateIr die _ => die < 14 || die == 255
  | .tapUpdateDr dr => dr < 2 ^ 96
  | .powerUp => true
  | .poresetAssert => true
  | .poresetRelease sel => sel < 4
  | .pwrgdDeassert k => k < 6
  | .sysresetAssert => true
  | .ckrResetCtlWarm src => srcOk src
  | .thermtrip => true
  | .xtalStable => true
  | .xtalTimeout => true
  | .rootPllLock => true
  | .xtalAmplitudeLoss => true
  | .rootPllUnlock => true
  | .clockMonitorWindow which _ => which < 3
  | .ckrRatioWrite src d value => srcOk src && d < 78 && value < 2 ^ 64
  | .ratioSwitchDone d => d < 78
  | .ckrGateWrite src d value => srcOk src && d < 78 && value < 2 ^ 64
  | .pwrTargetWrite src d value => srcOk src && d < 100 && value < 2 ^ 64
  | .pwrHoldRecheck d => d < 100
  | .pwrHoldAbort d => d < 100
  | .domainWake d code => d < 100 && 1 ≤ code && code < 16
  | .domainTransitionStart => true
  | .domainTransitionDone d => d < 100
  | .poweredHour _ _ => true
  | .thermalSample _ _ => true
  | .supplyFence n => n < 12
  | .eventRateRelease i => i < 768
  | .eventMessageDeliver => true
  | .evcSrcCfgWrite src i value => srcOk src && i < 768 && value < 2 ^ 64
  | .translationCompletion p tag _ _ _ _ => p < 2 && tag < 1024
  | .participantAbort g core => g < 4096 && core < 576
  | .badMsg g => g < 2

end Sys2Proof
end

