-- ==== Sys2Proof/Safety.lean ====
section
/-!
DEFINITION. The terms of the statements: when a register access reaches its block, what a command may have changed, and
the parts of the state that no step changes.
-/

namespace Sys2Proof.Machine

/-- The parts of the state beside the register fields, the queue and the variant. -/
inductive Part where
  | fresh | rdata | evc | harts | l2 | dir | groups | mem | beat | lanes | ctx | trg | tio | evb | guests | aln | stp | eth
  | hif | fuses | vellum | boot | dbg | ckr | pwr | pins | lgr
  deriving DecidableEq, Repr

/-- Is part `p` of `t` what it is in `s`? -/
def State.agree (s t : State) (p : Part) : Prop :=
  match p with
  | .fresh => t.fresh = s.fresh
  | .rdata => t.rdata = s.rdata
  | .evc => t.evc = s.evc
  | .harts => t.harts = s.harts
  | .l2 => t.l2 = s.l2
  | .dir => t.dir = s.dir
  | .groups => t.groups = s.groups
  | .mem => t.mem = s.mem
  | .beat => t.beat = s.beat
  | .lanes => t.lanes = s.lanes
  | .ctx => t.ctx = s.ctx
  | .trg => t.trg = s.trg
  | .tio => t.tio = s.tio
  | .evb => t.evb = s.evb
  | .guests => t.guests = s.guests
  | .aln => t.aln = s.aln
  | .stp => t.stp = s.stp
  | .eth => t.eth = s.eth
  | .hif => t.hif = s.hif
  | .fuses => t.fuses = s.fuses
  | .vellum => t.vellum = s.vellum
  | .boot => t.boot = s.boot
  | .dbg => t.dbg = s.dbg
  | .ckr => t.ckr = s.ckr
  | .pwr => t.pwr = s.pwr
  | .pins => t.pins = s.pins
  | .lgr => t.lgr = s.lgr

/-- Registers in which a source's firing is counted, and the MSI-X pending bits (R524 to R527). -/
def evReg (r : Reg) : Bool := r == .EVC_SRC_CNT || r == .EVC_NMI || r == .MSIX_PBA

/-- The frame of a command: the queue and the variant are what they were, every part of the state outside `parts` is what
it was, and every register field outside `keys` reads as before.  With `ev` the command may also set event bits: then
the event controller, its counts, the MSI-X pending bits and the ports' outgoing messages may change too. -/
structure Frame (ev : Bool) (parts : List Part) (keys : List RegKey) (s t : State) : Prop where
  queue : t.pending = s.pending
  variant : t.hw = s.hw
  parts : ∀ p, p ∉ parts → (ev && (p == .evc || p == .hif)) = false → s.agree t p
  regs : ∀ f i, (ev && evReg f.reg) = false → (RegKey.mk f.reg i f.lo) ∉ keys → t.rd f i = s.rd f i

/-- The key under which instance `i` of a field is held. -/
def Field.at (f : Field) (i : Nat := 0) : RegKey := ⟨f.reg, i, f.lo⟩

/-- Does a write by `src` to instance `i` of register `r` reach its block (R12, R370, R384, R385, R478)? -/
def State.takesWrite (s : State) (src : Src) (r : Reg) (i : Nat := 0) : Bool :=
  s.regLive r i && (match src with
    | .host p => s.barOpen p && (p != 1 || port1Own r i)
    | _ => true)

/-- Does a read by `src` of instance `i` of register `r` reach its block? -/
def State.takesRead (s : State) (src : Src) (r : Reg) (i : Nat := 0) : Bool :=
  s.regLive r i && (match src with
    | .host p => s.barOpen p
    | _ => true)

/-- What a cold reset with a cause code leaves: every register field but that code and those of LGR_CFG as at reset, no memory, core or
host-endpoint contents, and fuses, vellum, variant and queue as they were (R489, R508). -/
structure AfterCold (s t : State) (cause cycles : Nat) : Prop where
  held : t.held = true
  cause : t.rd F.CKR_RESET.CAUSE = cause
  cycles : t.lgr.acc.cycles = cycles
  regs : ∀ f i, f.reg ≠ .LGR_CFG → f.at i ≠ F.CKR_RESET.CAUSE.at → t.rd f i = State.reset.rd f i
  ledgerCfg : ∀ f i, f.reg = .LGR_CFG → t.rd f i = s.rd f i
  clear : t.mem.cells = [] ∧ t.harts = [] ∧ t.l2 = [] ∧ t.lanes = [] ∧ t.groups = [] ∧ t.hif = State.reset.hif ∧ t.evb = State.reset.evb
  keeps : t.fuses = s.fuses ∧ t.vellum = s.vellum ∧ t.hw = s.hw ∧ t.pending = s.pending

/-- Registers in which a warm reset writes values of its own or keeps some (R35, R41, R46, R348, R467, R469). -/
def warmOwn : List Reg :=
  [.ALN_PORT_STATUS, .DBG_AUTH_CTL, .CKR_STATUS, .ALN_SUMMARY, .MEM_PLATE_CFG_H, .MEM_PLATE_CFG_D, .CKR_RESET, .HIF_PORT_CNT2]

/-- What a warm reset with a cause code leaves (R489, R348): every register field it does not keep as at reset, of memory what
SR_KEEP holds, and fuses, vellum, pins, variant and queue as they were. -/
structure AfterWarm (s t : State) (cause : Nat) : Prop where
  cause : t.rd F.CKR_RESET.CAUSE = cause
  warms : t.rd F.CKR_RESET.WARMS = satAdd F.CKR_RESET.WARMS.w (s.rd F.CKR_RESET.WARMS) 1
  regs : ∀ f i, f.reg ∉ warmOwn → t.rd f i = if keptWarm (f.at i) (s.is F.MEM_DDR_CFG.SR_KEEP) then s.rd f i else State.reset.rd f i
  cells : t.mem.cells = if s.is F.MEM_DDR_CFG.SR_KEEP then s.mem.cells.filter (fun c => 2 ^ 42 ≤ c.1) else []
  clear : t.harts = [] ∧ t.l2 = [] ∧ t.lanes = [] ∧ t.groups = [] ∧ t.evb = State.reset.evb
  keeps : t.fuses = s.fuses ∧ t.vellum = s.vellum ∧ t.pins = s.pins ∧ t.hw = s.hw ∧ t.pending = s.pending

/-- The register fields that a change of state of a logical Alern port writes (R46). -/
def alnKeys (lp : Nat) : List RegKey :=
  [(stateF lp).at (lp / 2), (widthF lp).at (lp / 2), F.ALN_SUMMARY.UP.at 0, F.ALN_PORT_STATUS.FAILS.at (lp / 2)]

/-- Core `k` at the instruction of address `pc`. -/
def State.atInsn (s : State) (k pc : Nat) : State := s.setHart k { s.hart k with pc := pc }

/-- Nothing holds the core's next instruction back or changes what it does: the core may issue, no debug halt is pending,
no proof is open and the merging buffer is empty. -/
def State.coreFree (s : State) (k : Nat) : Bool :=
  s.mayIssue k && !(s.hart k).haltPending && !s.inProof k && (s.hart k).mb.isEmpty

/-- The state of the queue's front command taken off. -/
def State.rest (s : State) (q : List Instr) : State := { s with pending := q }

end Sys2Proof.Machine
end

