-- ==== Sys2Proof/Certificates/Slice0/Obligations.lean ====
section
/-!
DEFINITION. The statements for the provers, one for each entry of OBLIGATIONS.json.  Where a clause says that a command
answers `.next` of an expression, the expression names the operations of the model that the rule's effect is made of.
-/

set_option Elab.async false

open Sys2Proof Sys2Proof.Machine

/-- For every command c and state s: a step of s with c in front of its queue is exec of c on s with the queue's rest.  With no command
waiting a step is the model's own idle step (design choice, log 15): Calom's pending warm reset, else one root cycle, in which the
time counter advances by one. -/
def Obligations.StepRunsTheFrontCommand : Prop :=
  (∀ (s : State) (c : Instr) (q : List Instr), step { s with pending := c :: q } = exec c { s with pending := q }) ∧
  ∀ (s : State), s.pending = [] →
    (s.hif.recPending = true → step s = .next (s.warmReset s.hif.recCause)) ∧
    (s.hif.recPending = false → s.held = true → step s = .next s) ∧
    (s.hif.recPending = false → s.held = false → ∃ t, step s = .next t ∧
      t.rd F.CKR_TIME.TIME = (s.rd F.CKR_TIME.TIME + 1) % 2 ^ F.CKR_TIME.TIME.w ∧
      Frame false [.ckr] [F.CKR_TIME.TIME.at, F.CKR_FTIME.FTIME.at] s t)

/-- For every command and state exec answers a next state: no command faults or is refused.  It leaves the queue and the variant, and no
fuse that is blown reads blank afterwards: owner slots stay valid and revoked, versions do not fall, the three disabling fuses
stay blown, and the identity of the device stays. -/
def Obligations.EveryCommandGoesOn : Prop :=
  ∀ (c : Instr) (s : State), ∃ t, exec c s = .next t ∧ t.pending = s.pending ∧ t.hw = s.hw ∧
    (∀ k, s.fuses.ownerValid.testBit k = true → t.fuses.ownerValid.testBit k = true) ∧
    (∀ k, s.fuses.ownerRevoked.testBit k = true → t.fuses.ownerRevoked.testBit k = true) ∧
    s.fuses.calomSvn ≤ t.fuses.calomSvn ∧ s.fuses.cfwSvn ≤ t.fuses.cfwSvn ∧ (s.fuses.dieAuth = true → t.fuses.dieAuth = true) ∧
    (s.fuses.secDbgOff = true → t.fuses.secDbgOff = true) ∧ (s.fuses.hostPushOff = true → t.fuses.hostPushOff = true) ∧
    t.fuses.vendorKey = s.fuses.vendorKey ∧ t.fuses.serial = s.fuses.serial ∧ t.fuses.dieId = s.fuses.dieId ∧
    t.vellum.chain0 = s.vellum.chain0

/-- For every state s with memory in canonical form (addresses strictly rising, no entry that equals what an unlisted byte reads as):
every step answers a next state, memory is in canonical form there, the variant is what it was, and the queue is the queue without
its front. -/
def Obligations.EveryStepKeepsMemoryCanonical : Prop :=
  ∀ (s : State), s.mem.wf = true → ∃ t, step s = .next t ∧ t.mem.wf = true ∧ t.hw = s.hw ∧ t.pending = s.pending.tail

/-- State.reset: memory in canonical form with nothing listed, the queue empty, every power domain but 60 OFF, every core OFF, every lane
OFF, the beat count zero, no context slot in use, no group open, no ring enabled, every slice but 0 FREE, debug enables clear.  The variant
(log 1), PORESET_N low (log 2) and the blank fuses (log 6) are the model's choices. -/
def Obligations.ResetStateIsAsStated : Prop :=
  State.reset.mem.wf = true ∧ State.reset.mem.cells = [] ∧ State.reset.pending = [] ∧ State.reset.held = true ∧
  State.reset.domOn 60 = true ∧ (∀ d, d < 100 → d ≠ 60 → State.reset.rd F.PWR_DOM_STATUS.STATE d = 2) ∧
  (∀ k, k < 576 → State.reset.coreState k = 0) ∧ (∀ n, n < 192 → State.reset.rd F.LANE_STATUS.STATE n = 0) ∧
  State.reset.rd F.BEAT_COUNT.COUNT = 0 ∧ (∀ k, k < 64 → State.reset.rd F.CTX_EPOCH.STATE k = 0) ∧
  (∀ g, g < 4096 → State.reset.rd F.PRF_GRP_STATUS.STATE g = 0) ∧ (∀ r, r < 8192 → State.reset.is F.HIF_RING_CFG.EN r = false) ∧
  (∀ n, 0 < n → n < 256 → State.reset.sliceState n = slFREE) ∧ State.reset.sliceState 0 ≠ slFREE ∧
  State.reset.rd F.DBG_EN.EFF = 0 ∧ State.reset.fuses.ownerValid = 0

/-- Clauses for a state with canonical memory: storing n bytes of a value keeps the form, each stored byte reads as the value's byte, every
other byte reads as before, and nothing but memory changes.  Two canonical memories that read alike at every address are equal.  A sheet
written whole decodes at every strength to its data, with the lines' poison as written, and counts as clean. -/
def Obligations.MemoryReadsBackWhatIsWritten : Prop :=
  (∀ (s : State) (pa n v : Nat), s.mem.wf = true → (s.memPut pa n v).mem.wf = true ∧
    (∀ k, k < n → (s.memPut pa n v).memByte (pa + k) = BitVec.ofNat 8 (v >>> (8 * k))) ∧
    (∀ a, a < pa ∨ pa + n ≤ a → (s.memPut pa n v).memByte a = s.memByte a) ∧ Frame false [.mem] [] s (s.memPut pa n v)) ∧
  (∀ (s t : State), s.mem.wf = true → t.mem.wf = true → (∀ a, s.memByte a = t.memByte a) → s.mem.cells = t.mem.cells) ∧
  (∀ (s : State) (n d t : Nat) (lower upper : Bool), s.mem.wf = true → d < 2 ^ 2048 → t ≤ 24 → ∃ u, u = s.putSheet n d lower upper ∧
    u.memNat (256 * n) 256 = d ∧ decodeSheet t n d (u.codeOf n) = Sheet.mk .clean d lower upper)

/-- For an event bit of a source: after it is raised the bit reads 1, every other field but the source counts, pending bits and NMI record
reads as before, and only the event controller and the ports' messages change beside it.  On the rise of the source's level FIRED
counts; with the level high a bit newly set counts in MERGED and one already set changes nothing.  The level is high afterwards. -/
def Obligations.EventBitsFireTheirSources : Prop :=
  ∀ (s : State) (f : Field) (i n : Nat), bitSource f.reg i f.lo = some n → f.w = 1 → evReg f.reg = false → ∃ t, t = s.raise f i ∧
    t.rd f i = 1 ∧ Frame true [] [f.at i] s t ∧
    (s.level n = false → t.rd F.EVC_SRC_CNT.FIRED n = satAdd F.EVC_SRC_CNT.FIRED.w (s.rd F.EVC_SRC_CNT.FIRED n) 1) ∧
    (s.level n = true → s.is f i = false →
      t.rd F.EVC_SRC_CNT.MERGED n = satAdd F.EVC_SRC_CNT.MERGED.w (s.rd F.EVC_SRC_CNT.MERGED n) 1 ∧
      t.rd F.EVC_SRC_CNT.FIRED n = s.rd F.EVC_SRC_CNT.FIRED n) ∧
    (s.level n = true → s.rd f i = 1 → t.rd F.EVC_SRC_CNT.MERGED n = s.rd F.EVC_SRC_CNT.MERGED n ∧
      t.rd F.EVC_SRC_CNT.FIRED n = s.rd F.EVC_SRC_CNT.FIRED n) ∧
    ((f.reg, i, f.lo) ∈ sourceBits n → f.resetAt i = 0 → t.level n = true)

/-- A live port in BASE that locks sends the hub's block and is in CAP (R25, R26); it may move to the fallback lanes (R25);
an attempt that times out fails, or fences the die with cause 8 where no lane carried a signal (R25, R34).  In CAP a block
with a good CRC takes it to CHECK, one of the first three bad ones is counted, the fourth fails the attempt (R26).  Each
next state is given whole: what it does not name is unchanged. -/
def Obligations.AlernBaseModeAndCapabilities : Prop :=
  (∀ (s : State) (lp : Nat), s.alnLive lp = true → s.aln? lp = stBASE →
    exec (.baseLock lp) s =
        .next ((s.setAln lp { s.alnPort lp with crcFails := 0, sent := s.hubCap lp }).alnGo lp stCAP) ∧
      exec (.baseFallback lp) s = .next ((s.setAln lp { s.alnPort lp with fallback := true }).wr
        F.ALN_PORT_STATUS.BASE_ON_SPARES (lp / 2) 1) ∧
      exec (.baseAttemptTimeout lp true) s = .next (s.alnFail lp false) ∧
      exec (.baseAttemptTimeout lp false) s = .next (s.fence (lp / 2) 8)) ∧
  ∀ (s : State) (lp : Nat) (blk sig : List (BitVec 8)), s.alnLive lp = true → s.aln? lp = stCAP →
    (capGood blk = true → ∃ t, exec (.capabilityBlock lp blk sig) s = .next t ∧ t.aln? lp = stCHECK ∧
      (t.alnPort lp).cap = blk ∧ (∀ l, l ≠ lp → t.alnPort l = s.alnPort l) ∧
      (∀ k, k < 8 → t.rd F.ALN_PORT_CAP.BYTES (8 * (lp / 2) + k) = leAt blk (8 * k) 8 % 2 ^ 64) ∧
      Frame false [.aln] (alnKeys lp ++ (List.range 8).map (fun k => F.ALN_PORT_CAP.BYTES.at (8 * (lp / 2) + k))) s t) ∧
    (capGood blk = false → (s.alnPort lp).crcFails < 3 → exec (.capabilityBlock lp blk sig) s =
      .next (s.setAln lp { s.alnPort lp with crcFails := (s.alnPort lp).crcFails + 1 })) ∧
    (capGood blk = false → 3 ≤ (s.alnPort lp).crcFails → exec (.capabilityBlock lp blk sig) s =
      .next ((s.setAln lp { s.alnPort lp with crcFails := 0 }).alnFail lp false))

/-- With REQ_SIG loaded the checker serves the hub port that rotating priority picks among those that wait, and of its
ports the first waiting one, and moves its pointer past it (R43).  A block that fails one of checks 1 to 4 fences the die
with that check's cause (R30, R40); one that fails check 7 also sets EVT_DIE_AUTH (R450); one that passes them all is
admitted (R32).  With REQ_SIG not loaded the checker does nothing. -/
def Obligations.AlernIdentityChecksFenceOrAdmit : Prop :=
  (∀ (s : State) (n lp : Nat), s.aln.reqSigLoaded = true →
    rotGrant 14 s.aln.checkPtr (fun n => ((logicalPorts n).find? (fun lp => s.aln? lp == stCHECK && s.alnLive lp)).isSome)
      = some n →
    (logicalPorts n).find? (fun lp => s.aln? lp == stCHECK) = some lp →
      exec .identityCheck s =
        .next (({ s with aln := { s.aln with checkPtr := rotNext 14 n } } : State).identity lp)) ∧
  (∀ s : State, s.aln.reqSigLoaded = false → exec .identityCheck s = .next s) ∧
  (∀ (s : State) (lp c : Nat), checkBlock (lp / 2) (s.alnPort lp).cap = some c → s.identity lp = s.fence (lp / 2) c) ∧
  ∀ (s : State) (lp : Nat), checkBlock (lp / 2) (s.alnPort lp).cap = none →
    ∀ u, u = s.setPkgGen (lp / 2) (byteAt (s.alnPort lp).cap 2) →
      (u.checkRest lp = some 7 → s.identity lp = (u.raise F.SEC_STATUS.EVT_DIE_AUTH).fence (lp / 2) 7) ∧
      (∀ c, u.checkRest lp = some c → c ≠ 7 → s.identity lp = u.fence (lp / 2) c) ∧
      (u.checkRest lp = none → s.identity lp = u.admitDie lp)

/-- Lane tests whose failures can be repaired take a port from NATIVE to MARKER with its repair map written, others fail
the training (R33, R34); good marker words bring it UP (R33); flit errors, a lost lane and the far side's request start a
retrain, which ends UP and counted or as a failed training (R37); a far side back in base mode takes the port to BASE
(R42).  Each next state is given whole. -/
def Obligations.AlernTrainingAndService : Prop :=
  (∀ (s : State) (lp : Nat) (rx tx : List Nat), s.alnLive lp = true → s.aln? lp = stNATIVE →
    (repairable (lp / 2) (s.alnPort lp).width rx = true → repairable (lp / 2) (s.alnPort lp).width tx = true →
      exec (.laneTestDone lp rx tx) s = .next ((s.repair lp rx tx).alnGo lp stMARKER)) ∧
    (repairable (lp / 2) (s.alnPort lp).width rx = false →
      exec (.laneTestDone lp rx tx) s = .next (s.alnFail lp true))) ∧
  (∀ (s : State) (lp : Nat), s.alnLive lp = true → s.aln? lp = stMARKER →
    exec (.markerCheckDone lp true) s = .next (s.alnUp lp) ∧
    exec (.markerCheckDone lp false) s = .next (s.alnFail lp true)) ∧
  (∀ (s : State) (lp : Nat), s.alnLive lp = true → s.aln? lp = stUP →
    exec (.retrainRequest lp) s =
      .next ((s.setAln lp { s.alnPort lp with replays := 0 }).alnGo lp stRETRAIN) ∧
    (∀ lane, lane < (s.alnPort lp).width → exec (.alernLaneLockLoss lp lane) s =
      .next ((s.setAln lp { s.alnPort lp with replays := 0 }).alnGo lp stRETRAIN)) ∧
    (s.rd F.ALN_PORT_CTL.REPLAY_LIMIT (lp / 2) = 0 → exec (.flitCrcError lp false) s =
      .next ((s.inc F.ALN_PORT_CNT.REPLAYS (lp / 2)).setAln lp
        { s.alnPort lp with replays := (s.alnPort lp).replays + 1 })) ∧
    exec (.farSideBase lp) s = .next (s.alnBase lp)) ∧
  ∀ (s : State) (lp : Nat) (rx tx : List Nat), s.alnLive lp = true → s.aln? lp = stRETRAIN →
    repairable (lp / 2) (s.alnPort lp).width rx = true → repairable (lp / 2) (s.alnPort lp).width tx = true →
    exec (.retrainDone lp rx tx true) s =
      .next (((((s.repair lp rx tx).alnUp lp).inc F.ALN_PORT_CNT.RETRAINS (lp / 2)).ledger secLink
        (idxRetrain (lp / 2))).raise F.ALN_PORT_STATUS.EVT_RETRAIN (lp / 2)) ∧
    exec (.retrainDone lp rx tx false) s = .next (s.alnFail lp true)

/-- A write of EN = 0 that reaches the block disables the ports of its hub port that are not fenced or absent; RESTART
takes an UP or a waiting port to BASE; WIDTH_RESTORE clears the trained-width records; UNFENCE, written in the secure
world on a fenced site, clears the fence and starts the ports from BASE with no failures (R41); LOCK is set by a one and the RWL fields take
the data only while it was clear (R9).  A die reset is reported where the site is populated, ON and not fenced (R38). -/
def Obligations.AlernPortRegisters : Prop :=
  (∀ (s : State) (src : Src) (n v : Nat), s.takesWrite src .ALN_PORT_CTL n = true →
    (v % 2 = 0 → exec (.alnPortEn src n v) s = .next ((logicalPorts n).foldl
      (fun s lp => if s.aln? lp < stFENCED then s.alnGo lp stDISABLED else s) (s.wr F.ALN_PORT_CTL.EN n 0))) ∧
    (v % 2 = 1 → exec (.alnPortEn src n v) s = .next (s.wr F.ALN_PORT_CTL.EN n 1)) ∧
    exec (.alnRestart src n) s = .next ((logicalPorts n).foldl (fun s lp =>
      if s.aln? lp == stUP || (s.aln? lp == stDISABLED && s.is F.ALN_PORT_CTL.EN n && s.hw.port n) then s.alnBase lp
      else s) s) ∧
    exec (.widthRestore src n) s = .next (s.widthRestore n)) ∧
  (∀ (s : State) (n : Nat), (s.widthRestore n).rd F.ALN_PORT_TRAINED.REC_P n = 0 ∧
    (s.widthRestore n).rd F.ALN_PORT_TRAINED.REC_Q n = 0 ∧
    Frame false [.aln] [F.ALN_PORT_TRAINED.REC_P.at n, F.ALN_PORT_TRAINED.REC_Q.at n] s (s.widthRestore n)) ∧
  (∀ (s : State) (n : Nat), s.takesWrite .secure .ALN_PORT_CTL n = true → s.fbit F.ALN_SUMMARY.FENCED 0 n = true →
    exec (.unfence .secure n) s = .next ((logicalPorts n).foldl
      (fun s lp => (s.setAln lp { s.alnPort lp with fails := 0 }).alnBase lp)
      ((s.putBit F.ALN_SUMMARY.FENCED 0 n false).wr F.ALN_PORT_FENCE.CAUSE n 0))) ∧
  (∀ (s : State) (src : Src) (n : Nat), src ≠ .secure → exec (.unfence src n) s = .next s) ∧
  (∀ (s : State) (src : Src) (v : Nat), s.takesWrite src .ALN_CFG = true →
    (s.is F.ALN_CFG.LOCK = true → v.testBit 31 = false → exec (.alnCfgLock src v) s = .next s) ∧
    (s.is F.ALN_CFG.LOCK = false → ∃ t, exec (.alnCfgLock src v) s = .next t ∧
      t.rd F.ALN_CFG.AUTO_TRAIN = bits v 0 1 ∧ t.rd F.ALN_CFG.REQ_SIG = bits v 1 1 ∧
      t.rd F.ALN_CFG.LOCK = (v.testBit 31).toNat ∧
      Frame false [] [F.ALN_CFG.AUTO_TRAIN.at, F.ALN_CFG.REQ_SIG.at, F.ALN_CFG.LOCK.at] s t)) ∧
  ∀ (s : State) (n : Nat), isCompute n = true → s.hw.site n = true → s.domOn (uncoreDom n) = true →
    s.fbit F.ALN_SUMMARY.FENCED 0 n = false → ∃ t, exec (.dieReset n) s = .next t ∧ n ∈ t.aln.dieReset

/-- Clauses for an enabled input of a live beat unit: symbol lock in DOWN with a good window gives SYM; more than 16 code
errors put it DOWN and any number is counted; a frequency window outside FMIN to FMAX puts it DOWN; lock in FRAMED gives
LOCKED; a phase error in LOCKED gives FRAMED.  A write that disables an input holds it DOWN. -/
def Obligations.BeatInputsChangeState : Prop :=
  (∀ (s : State) (i : Nat), i < 2 → s.beatLive = true → s.held = false → s.enabledIn i = true →
    (s.inState i = biDOWN → (s.beatIn i).windowOk = true → exec (.inputSymbolLock i) s = .next (s.inGo i biSYM)) ∧
    (∀ n, n ≤ 16 → exec (.codeErrorLimit i n) s =
      .next (s.inc (pick i F.BEAT_CNT_A.CODE_ERR F.BEAT_CNT_B.CODE_ERR) 0 n)) ∧
    (∀ n, 16 < n → exec (.codeErrorLimit i n) s =
      .next ((s.inc (pick i F.BEAT_CNT_A.CODE_ERR F.BEAT_CNT_B.CODE_ERR) 0 n).inGo i biDOWN)) ∧
    (∀ near, s.inState i = biFRAMED → exec (.inputLock i near) s =
      .next ((s.setIn i { s.beatIn i with phaseOk := near }).inGo i biLOCKED)) ∧
    (s.inState i = biLOCKED → exec (.phaseError i) s = .next (s.inGo i biFRAMED)) ∧
    (∀ (count errors : Nat) (ph : Int) (near : Bool), -32767 ≤ ph → ph ≤ 32767 → ∃ t,
      exec (.freqMonitorWindow i count ph near errors) s = .next t ∧
      (s.rd F.BEAT_CFG.FMIN ≤ count → count ≤ s.rd F.BEAT_CFG.FMAX → t = (((((s.inc (pick i F.BEAT_CNT_A.CODE_ERR
        F.BEAT_CNT_B.CODE_ERR) 0 errors).wr (pick i F.BEAT_MON.FREQ_A F.BEAT_MON.FREQ_B) 0 (min count 65535)).wr
        F.BEAT_MON.AB_PHASE 0 (unsignedOf 16 ph)).setIn i { s.beatIn i with windowOk := true, phaseOk := near }).unitCheck)) ∧
      (count < s.rd F.BEAT_CFG.FMIN ∨ s.rd F.BEAT_CFG.FMAX < count → t = (((((s.inc (pick i F.BEAT_CNT_A.CODE_ERR
        F.BEAT_CNT_B.CODE_ERR) 0 errors).wr (pick i F.BEAT_MON.FREQ_A F.BEAT_MON.FREQ_B) 0 (min count 65535)).wr
        F.BEAT_MON.AB_PHASE 0 (unsignedOf 16 ph)).setIn i { s.beatIn i with windowOk := false, phaseOk := near }).inGo i
        biDOWN)))) ∧
  ∀ (s : State) (src : Src) (i : Nat), i < 2 → s.takesWrite src .BEAT_CFG = true →
    exec (.beatInputDisable src i) s =
      .next ((s.wr (pick i F.BEAT_CFG.EN_A F.BEAT_CFG.EN_B) 0 0).inGo i biDOWN)

/-- For an enabled input of a live unit: every good frame is counted towards framing, and a LOAD frame that the device acts
on makes the next edge take its tag (R52, R64), a TIME frame does so while the unit adopts, a SYNC frame waits for the
first edge after it and a CAL frame for the edge of its beat (R52); a frame with a bad CRC is counted and restarts the
count of good ones, the eighth in a row or a misplaced one returns the input to SYM, and one of unknown type is counted
(R51).  A frame from an input the device does not act on changes that input's framing alone. -/
def Obligations.BeatFramesActAndAreJudged : Prop :=
  ∀ (s : State) (i : Nat) (spaced : Bool), i < 2 → s.beatLive = true → s.held = false → s.enabledIn i = true →
    s.inState i ≠ biDOWN →
    (∀ tag age, exec (.loadFrame i tag age spaced) s = .next (
      if (s.goodFrame i spaced).acts i then ((s.goodFrame i spaced).streamLoad tag age).setMismatch i false
      else s.goodFrame i spaced)) ∧
    (∀ tag age, exec (.timeFrame i tag age spaced) s = .next (
      if ((s.goodFrame i spaced).judgeTag i tag age).acts i && ((s.goodFrame i spaced).judgeTag i tag age).beat.adopting
      then ((s.goodFrame i spaced).judgeTag i tag age).streamLoad tag age
      else (s.goodFrame i spaced).judgeTag i tag age)) ∧
    (∀ code, (s.goodFrame i spaced).acts i = true → ∃ t, exec (.syncFrame i code spaced) s = .next t ∧
      t.beat.syncs = (s.goodFrame i spaced).beat.syncs ++ [(code % 65536, (s.goodFrame i spaced).beat.edges)] ∧
      t.regs = (s.goodFrame i spaced).regs ∧ t.mem = (s.goodFrame i spaced).mem) ∧
    (∀ tag code delay, (s.goodFrame i spaced).acts i = true → ∃ t,
      exec (.calFrame i tag code delay spaced) s = .next t ∧
      t.beat.cals = (s.goodFrame i spaced).beat.cals ++
        [(code % 65536, (tag + delay % 4096) % 2 ^ 64, (s.goodFrame i spaced).beat.edges)] ∧
      t.regs = (s.goodFrame i spaced).regs ∧ t.mem = (s.goodFrame i spaced).mem) ∧
    (∀ code, (s.goodFrame i spaced).acts i = false →
      exec (.syncFrame i code spaced) s = .next (s.goodFrame i spaced)) ∧
    exec (.beatFrameInvalid i false spaced) s =
      .next ((s.goodFrame i spaced).inc (pick i F.BEAT_CNT_A.UNKNOWN_TYPE F.BEAT_CNT_B.UNKNOWN_TYPE)) ∧
    ((s.beatIn i).bad < 7 → exec (.beatFrameInvalid i true true) s =
      .next ((s.inc (pick i F.BEAT_CNT_A.CRC_ERR F.BEAT_CNT_B.CRC_ERR)).setIn i
        { s.beatIn i with good := 0, bad := (s.beatIn i).bad + 1 })) ∧
    (7 ≤ (s.beatIn i).bad ∨ spaced = false → exec (.beatFrameInvalid i true spaced) s =
      .next (((s.inc (pick i F.BEAT_CNT_A.CRC_ERR F.BEAT_CNT_B.CRC_ERR)).setIn i
        { s.beatIn i with good := 0, bad := (s.beatIn i).bad + 1 }).inGo i biSYM))

/-- While the beat runs, RELEASE takes the count a stream load left, else SW_LOAD's value, else the count plus one
(R62, R64), applies a count-changing load where it is not the successor (R71), records the edge, releases the entry
(R67), and drives busy and BEAT_OUT (R74); SW_LOAD_APPLY is that edge with SW_LOAD pending.  RELEASE_READ takes the entry
of the coming edge and keeps the least slack (R68, R69).  A SYNC code executes at the first edge after its frame, a CAL
code from the edge of its beat (R52, R65). -/
def Obligations.BeatEdgeReleasesAndLoads : Prop :=
  (∀ s : State, s.beatRuns = true → s.beat.load = none → s.beat.swLoad = false →
    exec .release s = .next (((((({ s with beat := { s.beat with edges := s.beat.edges + 1 } } : State).wr
      F.BEAT_COUNT.COUNT 0 ((s.beatNow + 1) % 2 ^ 64)).recEdge s.beatNow).release.busyEdge).beatOut))) ∧
  (∀ (s : State) (c : Nat), s.beatRuns = true → s.beat.load = some c → s.beat.swLoad = false →
    c ≠ (s.beatNow + 1) % 2 ^ 64 →
    exec .release s = .next ((((((({ s with beat := { s.beat with load := none, edges := s.beat.edges + 1 } } : State).wr
      F.BEAT_COUNT.COUNT 0 c).countLoad c).recEdge s.beatNow).release.busyEdge).beatOut))) ∧
  (∀ s : State, s.beat.swLoad = true → exec .swLoadApply s = exec .release s) ∧
  (∀ s : State, s.beat.load = none → s.beat.swLoad = false → s.nextCount = (s.beatNow + 1) % 2 ^ 64) ∧
  (∀ (s : State) (c : Nat), s.beat.load = some c → s.nextCount = c) ∧
  (∀ s : State, s.beat.load = none → s.beat.swLoad = true → s.nextCount = s.rd F.BEAT_LOAD.VALUE) ∧
  (∀ (s : State) (slack : Nat), s.beatRuns = true → ∃ t, exec (.releaseRead slack) s = .next t ∧
    t.beat.read = some (RqRead.mk ((s.beatNow + 1 + 2 ^ 64 - s.latency) % 2 ^ 64)
      (Tbl.find s.beat.rq ((s.beatNow + 1 + 2 ^ 64 - s.latency) % 2 ^ 64 % 4096))) ∧
    Frame false [.beat] [F.BEAT_RQ_SLACK.MIN_SLACK.at] s t) ∧
  (∀ (s : State) (code n : Nat) (l : List (Nat × Nat)), s.beatRuns = true → s.beat.syncs = (code, n) :: l →
    n < s.beat.edges → exec .syncExecute s = .next (((((({ s with beat := { s.beat with syncs := l } } : State).wr
      F.BEAT_SYNC_LAST.CODE 0 code).wr F.BEAT_SYNC_LAST.BEAT 0 s.beatNow).raise F.BEAT_STATUS.EVT_CMD).queueCmd 2 code
      s.beatNow))) ∧
  ∀ (s : State) (c : Nat × Nat × Nat), s.beatRuns = true →
    s.beat.cals.find? (fun c => c.2.2 < s.beat.edges && c.2.1 ≤ s.beatNow) = some c →
    exec .calExecute s = .next (((((({ s with beat := { s.beat with cals := s.beat.cals.erase c } } : State).wr
      F.BEAT_CAL_LAST.CODE 0 c.1).wr F.BEAT_CAL_LAST.BEAT 0 s.beatNow).raise F.BEAT_STATUS.EVT_CMD).queueCmd 3 c.1
      s.beatNow))

/-- HOLDOVER lasting HOLD_MAX expires (R58); the primary takes over again with AUTO_REVERT (R61); FORCE_SWITCH hands over
to an eligible input; SW_LOAD and ADOPT are taken at a following edge or frame and ADOPT clears MISMATCH (R62, R64);
reading bytes 0 to 3 of BEAT_COUNT latches the count (R57); hzbeatf gives the fine phase latched by hzbeat (R66); RUN set
where it was clear starts decisions at the next beat (R70), and a write of the slack register restarts it (R76). -/
def Obligations.BeatUnitSwitchesHoldsAndAdopts : Prop :=
  (∀ s : State, s.beatRuns = true → s.beatUnit = buHOLDOVER → s.rd F.BEAT_CFG.HOLD_MAX ≠ 0 → ∃ t,
    exec .holdoverExpire s = .next t ∧ t.beatUnit = buEXPIRED ∧ t.rd F.BEAT_STATUS.EVT_EXPIRED = 1 ∧
    Frame true [] [F.BEAT_STATUS.UNIT.at, F.BEAT_STATUS.EVT_EXPIRED.at] s t) ∧
  (∀ s : State, s.beatRuns = true → s.beatUnit = buTRACKING → s.is F.BEAT_CFG.AUTO_REVERT = true →
    s.active ≠ s.rd F.BEAT_CFG.PRIMARY → s.eligible (s.rd F.BEAT_CFG.PRIMARY) = true →
    exec .autoRevert s = .next ((s.wr F.BEAT_STATUS.ACTIVE 0 (s.rd F.BEAT_CFG.PRIMARY)).raise F.BEAT_STATUS.EVT_SWITCH)) ∧
  (∀ (s : State) (src : Src), s.takesWrite src .BEAT_CTL = true →
    (s.beatUnit = buTRACKING → s.eligible (1 - s.active) = true →
      exec (.forceSwitch src) s = .next (s.activate (1 - s.active))) ∧
    (exec (.swLoad src) s = .next { s with beat := { s.beat with swLoad := true } }) ∧
    (s.beatUnit ≠ buSTOPPED → s.inState 0 = biLOCKED ∨ s.inState 1 = biLOCKED → exec (.adopt src) s =
      .next (({ s with beat := { s.beat with adopting := true } } : State).setMismatch s.active false))) ∧
  (∀ (s : State) (src : Src) (fine : Nat), s.takesRead src .BEAT_COUNT = true → ∃ t,
    exec (.beatCountRead src 0 4 fine) s = .next t ∧ t.rdata = s.beatNow % 2 ^ 32 ∧ t.beat.latch = s.beatNow ∧
    Frame false [.rdata, .beat] [F.BEAT_FINE.FINE.at] s t) ∧
  (∀ (s : State) (src : Src) (fine : Nat), s.takesRead src .BEAT_COUNT = true →
    exec (.beatCountRead src 4 4 fine) s = .next { s with rdata := s.beat.latch / 2 ^ 32 % 2 ^ 32 }) ∧
  (∀ (s : State) (k pc rd fine : Nat), s.mayIssue k = true → s.haltDue k = false →
    exec (.hzbeatRead k pc rd fine) s =
      .next (((s.setHart k { s.hart k with pc := pc }).hzbeat k rd fine).retire k (pc + 4)) ∧
    ∃ t, exec (.hzbeatfRead k pc rd) s = .next t ∧ (rd % 32 ≠ 0 → Tbl.get (t.hart k).x (rd % 32) 0 = BitVec.ofNat 64 (s.hart k).beatF) ∧
      (t.hart k).pc = pc + 4 ∧ Frame false [.harts] [F.CORE_STATUS.LOOP_FAULT.at k] s t) ∧
  (∀ (s : State) (src : Src), s.takesWrite src .BEAT_RQ_CFG = true → s.is F.BEAT_RQ_CFG.RUN = true →
    (∀ v, exec (.beatRqRun src v) s = .next (s.wr F.BEAT_RQ_CFG.RUN 0 (bits v 32 1)))) ∧
  (∀ (s : State) (src : Src) (v : Nat), s.takesWrite src .BEAT_RQ_CFG = true → s.is F.BEAT_RQ_CFG.RUN = false →
    v.testBit 32 = true → ∃ t, exec (.beatRqRun src v) s = .next t ∧ t.is F.BEAT_RQ_CFG.RUN = true ∧
    t.beat.decFrom = s.beatNow + 1 ∧ t.beat.relFrom = s.beatNow + 1 + t.latency) ∧
  ∀ (s : State) (src : Src), s.takesWrite src .BEAT_RQ_SLACK = true →
    exec (.beatRqSlackWrite src) s = .next (s.wr F.BEAT_RQ_SLACK.MIN_SLACK 0 0xFFFFFF)

/-- A new rate is taken only while every lane of the group is disabled, and unlocks the PLL (R78); the PLL's lock takes the
waiting lanes on; RX_EN = 1 starts a lane that is OFF in CDR and RX_EN = 0 takes it OFF; CDR lock records the signal;
block lock takes HUNT to BLOCK; its loss, counted, takes a lane back to HUNT and the loss of the signal to CDR (R89, R90);
RESYNC takes a lane from HUNT or later to HUNT; TX_EN = 0 discards what waits to be sent (R97); CNT_CLR clears the lane's
counters (R105); a stray control block is counted where block lock is held (R83). -/
def Obligations.LaneLinkChangesState : Prop :=
  (∀ (s : State) (src : Src) (g v : Nat), g < 8 → s.takesWrite src .HLN_GRP_CFG g = true →
    s.legal F.HLN_GRP_CFG.RATE g (bits v 0 3) ≠ s.rd F.HLN_GRP_CFG.RATE g →
    (((List.range 24).any (fun k => s.is F.LANE_CFG.RX_EN (24 * g + k) || s.is F.LANE_CFG.TX_EN (24 * g + k)) = true →
      exec (.hlnGrpRateWrite src g v) s = .next (s.wr F.HLN_GRP_STATUS.RATE_REFUSED g 1)) ∧
    ((List.range 24).any (fun k => s.is F.LANE_CFG.RX_EN (24 * g + k) || s.is F.LANE_CFG.TX_EN (24 * g + k)) = false →
      exec (.hlnGrpRateWrite src g v) s = .next ((s.wr F.HLN_GRP_CFG.RATE g
        (s.legal F.HLN_GRP_CFG.RATE g (bits v 0 3))).wr F.HLN_GRP_STATUS.PLL_LOCK g 0)))) ∧
  (∀ (s : State) (g : Nat), g < 8 → s.laneUp (24 * g) = true → exec (.groupPllLock g) s =
    .next ((List.range 24).foldl (fun s k => s.laneRecover (24 * g + k))
      ((s.wr F.HLN_GRP_STATUS.PLL_LOCK g 1).wr F.HLN_GRP_STATUS.CUR_RATE g (s.rd F.HLN_GRP_CFG.RATE g)))) ∧
  (∀ (s : State) (src : Src) (n : Nat), n < 192 → s.takesWrite src .LANE_CFG n = true →
    exec (.laneRxEn src n false) s = .next ((s.wr F.LANE_CFG.RX_EN n 0).laneGo n lnOFF) ∧
    (s.laneState n = lnOFF → exec (.laneRxEn src n true) s = .next (((s.wr F.LANE_CFG.RX_EN n 1).setLane n
      { s.lane n with signal := false }).laneGo n lnCDR)) ∧
    exec (.laneTxEn src n true) s = .next (s.wr F.LANE_CFG.TX_EN n 1) ∧
    exec (.laneTxEn src n false) s = .next ((((s.wr F.LANE_CFG.TX_EN n 0).inc F.LANE_TX_CNT.ACC_DROP n
      ((s.lane n).accepts.length + (s.lane n).cmds.length)).setLane n
      { s.lane n with accepts := [], cmds := [], sc := [] }).wr F.LANE_SC_STATUS.TX_BUSY n 0)) ∧
  (∀ (s : State) (n : Nat), s.laneUp n = true →
    (s.laneState n = lnCDR → exec (.laneCdrLock n) s =
      .next (((s.setLane n { s.lane n with signal := true }).wr F.LANE_STATUS.SIGNAL n 1).laneRecover n)) ∧
    (∀ k, s.laneState n = lnHUNT → exec (.laneBlockLock n k) s =
      .next ((s.inc F.LANE_CNT4.HDR_ERR n k).laneGo n lnBLOCK)) ∧
    (∀ k, lnHUNT ≤ s.laneState n → exec (.laneBlockLockLoss n k) s =
      .next (((s.inc F.LANE_CNT4.HDR_ERR n k).inc F.LANE_CNT3.LOCK_LOSS n).laneGo n lnHUNT)) ∧
    (s.laneState n ≠ lnOFF → exec (.laneSignalLoss n) s =
      .next (((s.setLane n { s.lane n with signal := false }).wr F.LANE_STATUS.SIGNAL n 0).laneGo n lnCDR)) ∧
    (lnBLOCK ≤ s.laneState n → exec (.strayControlBlock n) s = .next (s.inc F.LANE_CNT4.CTRL_ERR n))) ∧
  ∀ (s : State) (src : Src) (n : Nat), n < 192 → s.takesWrite src .LANE_CTL n = true →
    (lnHUNT ≤ s.laneState n → exec (.laneResync src n) s = .next (s.laneGo n lnHUNT)) ∧
    ∃ t, exec (.laneCntClr src n) s = .next t ∧ t.rd F.LANE_CNT0.FRAMES_OK n = 0 ∧ t.rd F.LANE_HITS_IN.HITS_IN n = 0 ∧
      (∀ i, i ≠ n → t.rd F.LANE_CNT0.FRAMES_OK i = s.rd F.LANE_CNT0.FRAMES_OK i) ∧
      (∀ (f : Field) (i : Nat), [Reg.LANE_CNT0, .LANE_CNT1, .LANE_CNT2, .LANE_CNT3, .LANE_CNT4, .LANE_HITS_IN,
        .LANE_HITS_OUT, .LANE_HITS_SUPP, .LANE_HITS_DROP, .LANE_SC_CNT, .LANE_TX_CNT].contains f.reg = false →
        t.rd f i = s.rd f i) ∧ t = { s with regs := t.regs }

/-- For a lane of a live group in BLOCK or later, the state every frame leaves after its header and control errors, and
its hits, are counted: `counted`.  A frame that fails check k is dropped by it, with SEQ taken where checks 5 to 7 find none
held; a good DATA frame is delivered in SYNC and counted before it (R89, R92); a good SCREPLY frame goes to the receive
buffer (R102).  DATA and SCREPLY commands differ only in the type their header names. -/
def Obligations.LaneFramesAreCheckedAndCounted : Prop :=
  ∀ (s : State) (n : Nat) (f : RxFrame), s.laneUp n = true → lnBLOCK ≤ s.laneState n →
    ∀ u v, u = ((s.inc F.LANE_CNT4.HDR_ERR n f.hdrErr).inc F.LANE_CNT4.CTRL_ERR n f.ctrlErr) →
    v = (if f.type = 1 && u.frameWhole n f then u.inc F.LANE_HITS_IN.HITS_IN n f.payload.length else u) →
    exec (.dataFrame n f.h0 f.h1 f.payload f.crc f.hdrErr f.ctrlErr f.broken) s =
      exec (.screplyFrame n f.h0 f.h1 f.payload f.crc f.hdrErr f.ctrlErr f.broken) s ∧
    (∀ k, v.frameCheck n f = some k → (5 ≤ k → (v.lane n).seqHeld = true) → f.type ≠ 1 →
      exec (.screplyFrame n f.h0 f.h1 f.payload f.crc f.hdrErr f.ctrlErr f.broken) s = .next (v.frameDropped n k)) ∧
    (∀ k, v.frameCheck n f = some k → (5 ≤ k → (v.lane n).seqHeld = true) → f.type = 1 →
      exec (.dataFrame n f.h0 f.h1 f.payload f.crc f.hdrErr f.ctrlErr f.broken) s =
        .next ((v.backlogDrop n ((hitSteps f.span f.payload 0).2.2.length - v.backlogRoom n)).frameDropped n k)) ∧
    (v.frameCheck n f = none →
      ∀ w, w = ((v.inc F.LANE_CNT2.SEQ_LOST n (v.seqStep n f)).seqNext n f) →
      ∀ x, x = w.setLane n { w.lane n with dropped := 0, droppedId := 0 } →
      (f.type = 2 → exec (.screplyFrame n f.h0 f.h1 f.payload f.crc f.hdrErr f.ctrlErr f.broken) s = .next (x.scReply n f)) ∧
      (f.type ≠ 2 → x.laneState n = lnSYNC →
        exec (.dataFrame n f.h0 f.h1 f.payload f.crc f.hdrErr f.ctrlErr f.broken) s = .next (x.deliverFrame n f)) ∧
      (f.type ≠ 2 → x.laneState n ≠ lnSYNC →
        exec (.dataFrame n f.h0 f.h1 f.payload f.crc f.hdrErr f.ctrlErr f.broken) s = .next (x.countFrame n f)))

/-- A TICK of the present beat is sent at each multiple of the divider, with TIMEHI where its low bits are due, and skipped
and counted where its slot is taken (R97, R98).  With only ACCEPT, or only CMD, blocks waiting the lane sends the oldest
of them (R99, R100).  GO with a length of 1 to 128 builds the request and sets TX_BUSY (R101); its end clears TX_BUSY, counts it
and sets EVT_SC_DONE (R103); a write of RXFULL clears it.  A released frame of a lane whose ring is disabled leaves the
staging buffer (R178). -/
def Obligations.LaneTransmitAndHistory : Prop :=
  (∀ (s : State) (n edge : Nat), s.txOn n = true → s.is F.LANE_CFG.TICK_EN n = true → s.beatRuns = true →
    s.beatNow % 2 ^ s.rd F.LANE_CFG.TICKDIV n = 0 →
    exec (.tick n edge true) s = .next (s.inc F.LANE_SC_CNT.TICK_SKIP n) ∧
    (2 ^ s.rd F.LANE_CFG.TICKDIV n ≤ s.beatNow % 65536 → exec (.tick n edge false) s = .next (s.setLane n { s.lane n with
      sent := (s.lane n).sent ++ [TxBlock.tick (s.beatNow % 2 ^ 48) (edge % 128)] })) ∧
    (s.beatNow % 65536 < 2 ^ s.rd F.LANE_CFG.TICKDIV n → exec (.tick n edge false) s = .next (s.setLane n { s.lane n with
      sent := (s.lane n).sent ++ [TxBlock.tick (s.beatNow % 2 ^ 48) (edge % 128), TxBlock.timehi (bits s.beatNow 48 16)] }))) ∧
  (∀ (s : State) (n : Nat), s.txOn n = true → s.beatUnit ≠ buSTOPPED → (s.lane n).sc = [] →
    ((s.lane n).accepts ≠ [] → (s.lane n).cmds = [] → (s.lane n).txPtr < 3 → exec (.acceptBlockSend n) s = .next ((s.setLane n
      { s.lane n with accepts := (s.lane n).accepts.drop 1, sent := (s.lane n).sent ++ (s.lane n).accepts.take 1,
                      txPtr := 1 }).inc F.LANE_TX_CNT.ACCEPTS_SENT n)) ∧
    ((s.lane n).cmds ≠ [] → (s.lane n).accepts = [] → (s.lane n).txPtr < 3 → exec (.cmdBlockSend n) s = .next ((s.setLane n
      { s.lane n with cmds := (s.lane n).cmds.drop 1, sent := (s.lane n).sent ++ (s.lane n).cmds.take 1,
                      txPtr := 2 }).inc F.LANE_TX_CNT.CMD_SENT n))) ∧
  (∀ (s : State) (src : Src) (n v : Nat), n < 192 → s.takesWrite src .LANE_SC_CTL n = true →
    s.is F.LANE_SC_STATUS.TX_BUSY n = false → 1 ≤ bits v 0 8 → bits v 0 8 ≤ 128 →
    ∃ t, exec (.scGo src n v) s = .next t ∧ t.is F.LANE_SC_STATUS.TX_BUSY n = true ∧
      (t.lane n).sc.length = bits v 0 8 + 2 ∧
      Frame false [.lanes] [F.LANE_SC_CTL.LEN.at n, F.LANE_SC_CTL.TAG.at n, F.LANE_SC_STATUS.TX_BUSY.at n] s t) ∧
  (∀ (s : State) (n : Nat), s.txOn n = true → (s.lane n).sc ≠ [] → exec (.scSendDone n) s =
    .next ((((s.txDrain n (3 * (s.lane n).sc.length + (s.lane n).accepts.length + (s.lane n).cmds.length)).wr
      F.LANE_SC_STATUS.TX_BUSY n 0).inc F.LANE_SC_CNT.SC_SENT n).raise F.LANE_STATUS.EVT_SC_DONE n)) ∧
  (∀ (s : State) (src : Src) (n : Nat), n < 192 → s.takesWrite src .LANE_SC_STATUS n = true →
    exec (.scRxfullClear src n) s = .next (s.wr F.LANE_SC_STATUS.RXFULL n 0)) ∧
  ∀ (s : State) (n : Nat) (f : StagedFrame) (l : List StagedFrame), s.laneUp n = true → s.evbLive = true →
    (s.lane n).frames = f :: l → f.settled = true → s.is F.EVB_HIST_CFG.EN n = false →
    exec (.historyWriteDone n) s = .next (s.setLane n { s.lane n with frames := l })

/-- Clauses: the store becomes READY; CTX_FLIP of the issuer's OPEN slot arms it at F, or at the least beat that FLIP_LEAD
allows with FLIP_MOVED set (R120), and completes OK with the beat and the slot with its role epoch; CTX_CANCEL of an OPEN
slot, or of an ARMED one whose flip is still ahead, frees it; an ARMED slot goes LIVE when the count has reached its beat;
MERGE_HOLD edges later, with no earlier slot LIVE or MERGING, it is MERGING; and each merge writes the oldest waiting entry to
its base row, frees the slot with its last entry, and makes the lanes that asked wait.  The next state is given whole. -/
def Obligations.ContextSlotsFlipAndMerge : Prop :=
  (∀ (s : State), s.ctxLive = true → s.held = false → exec .ctxClearDone s = .next (s.wr F.CTX_STATUS.READY 0 1)) ∧
  (∀ (s : State) (r : Nat), s.ctxReady = true → cdSlot (s.desc r) < 64 →
    cdEpoch (s.desc r) = s.rd F.CTX_EPOCH.ROLE_EPOCH (cdSlot (s.desc r)) → s.slotMine r (cdSlot (s.desc r)) = true →
    (s.hasCmd r 0x22 = true → s.slotState (cdSlot (s.desc r)) = ceOPEN → ∃ u,
      u = (s.slotArm (cdSlot (s.desc r)) (cdF (s.desc r))).ovlStatus ∧
      exec (.ctxFlip r) s = .next (u.finish r csOK (u.slotF (cdSlot (s.desc r))) (u.slotResult (cdSlot (s.desc r)))) ∧
      u.slotF (cdSlot (s.desc r)) = max (cdF (s.desc r)) (s.beatNow + s.rd F.CTX_CFG.FLIP_LEAD) % 2 ^ 64 ∧
      u.slotState (cdSlot (s.desc r)) = ceARMED ∧
      (u.is F.CTX_EPOCH.FLIP_MOVED (cdSlot (s.desc r)) = true ↔ cdF (s.desc r) < s.beatNow + s.rd F.CTX_CFG.FLIP_LEAD)) ∧
    (s.hasCmd r 0x24 = true → (s.slotState (cdSlot (s.desc r)) = ceOPEN ∨ s.slotState (cdSlot (s.desc r)) = ceARMED ∧
        s.beatNow < s.slotF (cdSlot (s.desc r))) → exec (.ctxCancel r) s = .next
      ((s.slotFree (cdSlot (s.desc r))).finish r csOK 0 ((s.slotFree (cdSlot (s.desc r))).slotResult (cdSlot (s.desc r)))))) ∧
  (∀ (s : State) (k : Nat), k < 64 → s.ctxReady = true → s.beatRuns = true →
    (s.slotState k = ceARMED → s.slotF k ≤ s.beatNow → exec (.epochFlip k) s = .next ((((s.wr F.CTX_EPOCH.STATE k
      ceLIVE).setAux k { s.slotAux k with flipEdge := s.beat.edges }).inc F.CTX_CNT1.FLIPS).raise F.CTX_STATUS.EVT_FLIP)) ∧
    (s.slotState k = ceLIVE → (s.slotAux k).flipEdge + s.rd F.CTX_CFG.MERGE_HOLD ≤ s.beat.edges →
      (∀ j, j < 64 → j ≠ k → s.mergesBefore j k = true → s.slotState j < ceLIVE) →
      s.ctx.overlay.any (fun e => e.slot == k) = true →
      exec (.mergeStart k) s = .next (s.wr F.CTX_EPOCH.STATE k ceMERGING))) ∧
  ∀ (s : State) (b : Nat) (e : OvlEntry), s.ctxReady = true → s.mergeNext b = some e → ∃ u,
    u = { s.inc F.CTX_BANK_WAIT.WAIT 0 ((List.range 192).filter (fun n => (s.bankHit n b).isSome)).length with
      ctx := { s.ctx with base := Tbl.set s.ctx.base e.channel (if cxValid e.ctx then e.ctx else 0) 0
                          merged := Tbl.put s.ctx.merged e.channel (s.slotF e.slot)
                          overlay := s.ctx.overlay.erase e } } ∧
    exec (.mergeWrite b) s = .next (if u.ctx.overlay.any (fun x => x.slot == e.slot) then u.ovlStatus else u.slotFree e.slot)

/-- With the store READY, the issuer's ranges right and its image good (the entries are `lastWins es`, a later record of a
channel winning): CTX_LOAD with no channel of it in the overlay writes the base rows and completes OK with the count; CTX_STAGE
with slot 0xFF takes a FREE slot, and with an OPEN slot of its own adds to it; CTX_STAGE_FLIP stages and arms in one command;
CTX_READ of consecutive channels writes the view at the present count of each.  A grant of a bank serves the next lane that asks
and makes every other one wait a cycle. -/
def Obligations.ContextImagesAndLookups : Prop :=
  (∀ (s u : State) (r : Nat) (es : List (Nat × Nat)), s.ctxReady = true → s.hasCmd r 0x20 = true → s.ctxPlace r 0x20 = true →
    s.ctxImage r 0x20 none (2 ^ 20) = .ok (es, u) →
    (lastWins es).any (fun x => u.ctx.overlay.any (fun e => e.channel == x.1)) = false →
    exec (.ctxLoad r) s = .next ((u.baseWrite (u.ringSlice r) (lastWins es)).finish r csOK (cdN (u.desc r)))) ∧
  (∀ (s u v : State) (r k : Nat) (es : List (Nat × Nat)), s.ctxReady = true → s.hasCmd r 0x21 = true →
    s.ctxPlace r 0x21 = true → cdSlot (s.desc r) = 0xFF → s.ctxImage r 0x21 none 65536 = .ok (es, u) →
    cdEpoch (u.desc r) = 0 → u.ovlRoom none (lastWins es) = true →
    u.slotTake (s.ringSlice r) = some (k, v) → exec (.ctxStage r) s =
      .next ((v.slotAdd k (s.ringSlice r) (lastWins es)).finish r csOK 0 ((v.slotAdd k (s.ringSlice r) (lastWins es)).slotResult k))) ∧
  (∀ (s u : State) (r : Nat) (es : List (Nat × Nat)), s.ctxReady = true → s.hasCmd r 0x21 = true → s.ctxPlace r 0x21 = true →
    cdSlot (s.desc r) < 64 → cdEpoch (s.desc r) = s.rd F.CTX_EPOCH.ROLE_EPOCH (cdSlot (s.desc r)) →
    s.ctxImage r 0x21 (some (cdSlot (s.desc r))) 65536 = .ok (es, u) → u.slotState (cdSlot (s.desc r)) = ceOPEN →
    u.ovlRoom (some (cdSlot (s.desc r))) (lastWins es) = true → ∃ v,
      v = u.slotAdd (cdSlot (s.desc r)) (s.ringSlice r) (lastWins es) ∧
      exec (.ctxStage r) s = .next (v.finish r csOK 0 (v.slotResult (cdSlot (s.desc r))))) ∧
  (∀ (s u v : State) (r k : Nat) (es : List (Nat × Nat)), s.ctxReady = true → s.hasCmd r 0x23 = true →
    s.ctxPlace r 0x23 = true → s.ctxImage r 0x23 none 65536 = .ok (es, u) → u.ovlRoom none (lastWins es) = true →
    u.slotTake (s.ringSlice r) = some (k, v) → ∃ w,
      w = (v.slotAdd k (s.ringSlice r) (lastWins es)).slotArm k (cdF (v.desc r)) ∧
      exec (.ctxStageFlip r) s = .next (w.finish r csOK (w.slotF k) (w.slotResult k))) ∧
  (∀ (s u : State) (r : Nat), s.ctxReady = true → s.hasCmd r 0x25 = true → s.ctxPlace r 0x25 = true →
    s.rangeOk (s.ringSlice r) (cdF (s.desc r)) (16 * cdN (s.desc r)) = true → 1 ≤ cdN (s.desc r) → cdN (s.desc r) ≤ 65536 →
    cdForm (s.desc r) = 0 → cdFirst (s.desc r) + cdN (s.desc r) ≤ 2 ^ 20 →
    (∀ j, j < cdN (s.desc r) → s.chanOk (s.ringSlice r) (cdFirst (s.desc r) + j) = true) →
    s.cmdWrite r 5 (cdF (s.desc r)) ((List.range (cdN (s.desc r))).flatMap
      (fun j => natLE 16 (s.ctxView (cdFirst (s.desc r) + j) s.beatNow))) = (.done, u) →
    exec (.ctxRead r) s = .next (u.finish r csOK (cdN (s.desc r)))) ∧
  ∀ (s : State) (b n : Nat) (h : WaitHit), s.ctxLive = true → s.held = false →
    rotGrant 193 (Tbl.get s.ctx.bankPtr b 0) (fun n => ((List.range 192).filter (fun n => (s.bankHit n b).isSome)).contains n) =
      some n → s.bankHit n b = some h → exec (.ctxLookup b) s = .next ((State.inc
        { s with ctx := { s.ctx with bankPtr := Tbl.set s.ctx.bankPtr b (rotNext 193 n) 0 } } F.CTX_BANK_WAIT.WAIT 0
        (((List.range 192).filter (fun n => (s.bankHit n b).isSome)).length - 1)).lookup n h)

/-- Clauses: TRG_CLEAR_DONE starts the path at the present beat; a sketch unit whose beat is due closes it and sends the packet
of its non-zero words, an empty one while its domain is off; the oldest packet of a lane reaches the engines; an engine that holds every packet its programme needs
evaluates its next beat; a guest deadline that passes with a site taking part and no word is counted late; the combiner judges its
next beat once the engines' bits and the guest bits are known.  The next state is given whole. -/
def Obligations.TriggerPathForwardsBeats : Prop :=
  (∀ (s : State), s.trgLive = true → s.held = false → s.is F.TRG_STATUS.READY = false → exec .trgClearDone s = .next
    (State.wr { s with trg := { s.trg with origin := s.beatNow, cmbNext := s.beatNow } } F.TRG_STATUS.READY 0 1)) ∧
  (∀ (s : State), s.trgRuns = true →
    (∀ n, n < 192 → s.sketchDue n = true → exec (.sketchClose n) s = .next { s with trg := { s.trg with
      packets := s.trg.packets ++ [Packet.mk n (s.sketchBeat n) (if !s.domOn (82 + n / 24) then [] else (List.range 16).filterMap (fun k =>
        let w := slotWord (Tbl.get ((s.trgUnit 64).progAt (s.sketchBeat n)).sketch (16 * n + k) 0)
          (Tbl.get s.trg.acc (n, s.sketchBeat n, k) 0)
        if w = 0 then none else some (k, w)))]
      skNext := Tbl.put s.trg.skNext n (s.sketchBeat n + 1)
      acc := s.trg.acc.filter (fun e => !(e.1.1 == n && e.1.2.1 == s.sketchBeat n)) } }) ∧
    (∀ n p, n < 192 → s.trg.packets.find? (fun p => p.lane == n) = some p → exec (.packetDeliver n) s =
      .next { s with trg := { s.trg with packets := s.trg.packets.erase p
                                         inputs := Tbl.set s.trg.inputs (n, p.beat) p.words []
                                         inNext := Tbl.put s.trg.inNext n (p.beat + 1) } }) ∧
    (∀ e sp, e < 64 → (s.trgUnit e).spanAt (s.engineBeat e) = some sp → s.engineDue sp.1.prog (s.engineBeat e) = true →
      s.engineBeat e ≤ s.beatNow → exec (.engineEval e) s = .next (State.wr { s with trg := { s.trg with
        terms := Tbl.put s.trg.terms (s.engineBeat e, e) (s.termBits e sp (s.engineBeat e))
        engNext := Tbl.put s.trg.engNext e (s.engineBeat e + 1) } } F.TRG_UNIT_EVAL.BEAT e (s.engineBeat e))) ∧
    (∀ b, (s.cmbProg b).guestDl ≠ 0 → s.guestSites ≠ [] → b + (s.cmbProg b).guestDl ≤ s.beatNow → s.trg.cmbNext ≤ b →
      s.trg.guestLate.contains b = false → Tbl.find s.trg.guestWords b = none → exec (.guestDeadline b) s =
        .next ((State.inc { s with trg := { s.trg with guestLate := b :: s.trg.guestLate } } F.TRG_CNT1.GUEST_LATE).raise
          F.TRG_STATUS.EVT_GUEST_LATE)) ∧
    (∀ e g, s.trg.cmbNext < (s.stencilWord s.trg.cmbNext).beatNow →
      (s.stencilWord s.trg.cmbNext).engineBits s.trg.cmbNext = some e →
      (s.stencilWord s.trg.cmbNext).guestBits s.trg.cmbNext = some g → ∃ u r, u = s.stencilWord s.trg.cmbNext ∧
      r = Tbl.get u.tio.recs s.trg.cmbNext BeatRec.none ∧ exec .combinerJudge s = .next
        (u.judgeBits s.trg.cmbNext (e + g <<< 1024 + (u.extBits r) <<< 1088) r.throttle)))

/-- A load whose image lies in the issuer's ranges, is not poisoned, names present role epochs and units of the issuer and passes
every check of R151 arms each unit its sections name at its beat, or at the least beat SWAP_LEAD allows with the move counted, and
completes OK with that beat.  A unit whose swap beat has come takes its shadow, advances its role epoch and returns its swap
registers to zero.  A read of units of the issuer writes their image where it fits and completes OK with its length. -/
def Obligations.MenusLoadSwapAndReadBack : Prop :=
  (∀ (s u : State) (r : Nat) (img : List (BitVec 8)), s.trgReady = true → s.hasCmd r 0x28 = true →
    s.rangeOk (s.ringSlice r) (dget (s.desc r) 8 8) (dget (s.desc r) 16 4) = true → 64 ≤ dget (s.desc r) 16 4 →
    s.cmdRead r 5 (dget (s.desc r) 8 8) (dget (s.desc r) 16 4) = (.data img [], u) →
    (∀ x k, some x ∈ sectionsOf 513 (img.drop 64) → x.unit = some k → u.rd F.TRG_UNIT_STATUS.ROLE_EPOCH k = x.epoch) →
    (s.ringSlice r = 0 ∨ ∀ x, some x ∈ sectionsOf 513 (img.drop 64) → u.sectionMine (s.ringSlice r) x = true) →
    menuGood img (sectionsOf 513 (img.drop 64)) = true → ∃ least v, least = u.beatNow + u.rd F.TRG_CFG.SWAP_LEAD ∧
      v = (if dget (s.desc r) 24 8 < least then (u.inc F.TRG_CNT0.SWAP_MOVED).raise F.TRG_STATUS.EVT_SWAP_MOVED else u) ∧
      exec (.trgMenuLoad r) s = .next (((sectionUnits ((sectionsOf 513 (img.drop 64)).filterMap id)).foldl (fun t k =>
        t.armUnit k (leAt img 16 4) (max (dget (s.desc r) 24 8) least) (dget (s.desc r) 24 8 < least)
          ((sectionsOf 513 (img.drop 64)).filterMap id)) v).finish r csOK (max (dget (s.desc r) 24 8) least))) ∧
  (∀ (s : State) (k : Nat) (p : Prog), k < 65 → s.trgRuns = true → (s.trgUnit k).shadow = some p →
    s.rd F.TRG_UNIT_SWAP.S k ≤ s.beatNow → ∃ t, exec (.unitSwap k) s = .next t ∧
      (∃ was, t.trgUnit k = (s.trgUnit k).begin p s.beatNow was) ∧ (∀ j, j ≠ k → t.trgUnit j = s.trgUnit j) ∧
      t.rd F.TRG_UNIT_STATUS.ARMED k = 0 ∧
      t.rd F.TRG_UNIT_STATUS.ROLE_EPOCH k = (s.rd F.TRG_UNIT_STATUS.ROLE_EPOCH k + 1) % 2 ^ 16 ∧
      t.rd F.TRG_UNIT_SWAP.S k = 0 ∧ t.rd F.TRG_UNIT_MENU.ACTIVE_ID k = s.rd F.TRG_UNIT_MENU.ARMED_ID k % 2 ^ 32 ∧
      t.rd F.TRG_UNIT_MENU.ARMED_ID k = 0 ∧ t.rd F.TRG_UNIT_STATUS.EVT_SWAP k = 1) ∧
  ∀ (s u : State) (r : Nat) (img : List (BitVec 8)) (units : List Nat), s.trgReady = true → s.hasCmd r 0x29 = true →
    s.ringSlice r = 0 → units = (List.range 65).filter (dget (s.desc r) 24 9).testBit → units ≠ [] →
    dget (s.desc r) 24 9 < 2 ^ 65 → (byteAt (s.desc r) 20).testBit 0 = false →
    img = menuImage (s.rd F.TRG_UNIT_MENU.ACTIVE_ID (units.headD 0))
      (((units.filter (· < 64)).map (fun k => (s.trgUnit k).cur.prog.look)).foldl max 0)
      (units.flatMap (fun k => unitSections k (s.rd F.TRG_UNIT_STATUS.ROLE_EPOCH k) (s.trgUnit k).cur.prog)) →
    img.length ≤ dget (s.desc r) 16 4 → s.cmdWrite r 5 (dget (s.desc r) 8 8) img = (.done, u) →
    exec (.trgMenuRead r) s = .next (u.finish r csOK img.length)

/-- Clauses: a write of TRIG_DRV = 0 lets the lines go at once, one of 1 waits for a beat edge when the lines are not driven;
at the first edge after it they are driven low; a pulse ends when an edge does not hold it; a write of BUSY_DRV drives
BUSY_OUT_N with TIO_STATUS.BUSY or lets it go; with no cause and no hold left at an edge BUSY clears.  The next state is given
whole. -/
def Obligations.TriggerOutputsAndBusy : Prop :=
  (∀ (s : State) (src : Src), s.takesWrite src .TIO_OUT_CTL = true →
    exec (.trigDrvWrite src false) s = .next { s.wr F.TIO_OUT_CTL.TRIG_DRV 0 0 with
      tio := { s.tio with trigOut := none, raised := 0, drvWait := none } } ∧
    (s.tio.trigOut = none → s.tio.drvWait = none → exec (.trigDrvWrite src true) s =
      .next { s.wr F.TIO_OUT_CTL.TRIG_DRV 0 1 with tio := { s.tio with drvWait := some s.beat.edges } }) ∧
    exec (.busyDrvWrite src true) s = .next { s.wr F.TIO_OUT_CTL.BUSY_DRV 0 1 with
      tio := { s.tio with busyOut := some (s.is F.TIO_STATUS.BUSY) } } ∧
    exec (.busyDrvWrite src false) s = .next { s.wr F.TIO_OUT_CTL.BUSY_DRV 0 0 with tio := { s.tio with busyOut := none } }) ∧
  ∀ (s : State), s.beatRuns = true →
    (∀ n, s.tio.drvWait = some n → n < s.beat.edges → exec .trigDrvApply s =
      .next { s with tio := { s.tio with drvWait := none, trigOut := some 0, raised := 0 } }) ∧
    (s.tio.trigOut ≠ none → exec .trigPulseEnd s = .next { s with tio := { s.tio with trigOut := some s.tio.raised } }) ∧
    (s.is F.TIO_STATUS.C_RUN = false → s.is F.TIO_STATUS.C_BEAT = false → s.is F.TIO_STATUS.C_EVB = false →
      s.is F.TIO_STATUS.C_BUSY_IN = false → s.is F.TIO_STATUS.C_FORCE = false → s.is F.TIO_STATUS.C_HOLD = false →
      exec .busyHoldExpire s = .next { s.wr F.TIO_STATUS.BUSY 0 0 with
        tio := { s.tio with busyOut := if s.is F.TIO_OUT_CTL.BUSY_DRV then some false else none } })

/-- Clauses: an edge that repeats the level changes nothing, a rising edge of a disabled input sets its level and the records of
the beats from its stamp on, whatever the input; EN = 1 waits for an edge while the beat runs and takes effect at once
while it is stopped; a rise that stays stuck sets STUCK, counts it, sets EVT_STUCK and masks an EXT_TRIG_IN input; a window with
more transitions than its limit sets CHATTER, with no more clears it; REARM unmasks an input that is neither. -/
def Obligations.ExternalInputsAreWatched : Prop :=
  (∀ (s : State) (k : Nat), k < 24 → s.beatLive = true → s.held = false →
    (∀ beat, exec (.tioInputEdge k (s.is F.TIO_IN_STATUS.LEVEL k) beat) s = .next s) ∧
    (∀ beat, s.is F.TIO_IN_STATUS.LEVEL k = false → s.tio.en.testBit k = false → exec (.tioInputEdge k true beat) s =
      .next (State.wr { s.wr F.TIO_IN_STATUS.LEVEL k 1 with tio := { s.tio with
        recs := Tbl.mapVals s.tio.recs (fun b (r : BeatRec) => if b < beat then r else
          { r with level := setBit r.level k, rise := if b = beat then setBit r.rise k else r.rise }) } }
        F.TIO_IN_STATUS.HONOURED k 0)) ∧
    (s.tio.en.testBit k = true → s.is F.TIO_IN_STATUS.LEVEL k = true → s.is F.TIO_IN_STATUS.STUCK k = false →
      exec (.stuckDetect k) s = .next ((((s.wr F.TIO_IN_STATUS.STUCK k 1).raise F.TIO_IN_STATUS.EVT_STUCK k).inc
        F.TIO_IN_CNT.STUCKS k).maskInput k)) ∧
    (s.tio.en.testBit k = true → Tbl.get s.tio.trans k 0 ≤ s.rd F.TIO_IN_CFG.CHAT_LIM k → exec (.chatterWindow k) s =
      .next ((State.flagClear { s with tio := { s.tio with trans := Tbl.erase s.tio.trans k } } F.TIO_IN_STATUS.CHATTER
        k).honour k)) ∧
    (s.tio.en.testBit k = true → 16 ≤ k → s.rd F.TIO_IN_CFG.CHAT_LIM k ≠ 0 →
      s.rd F.TIO_IN_CFG.CHAT_LIM k < Tbl.get s.tio.trans k 0 → s.is F.TIO_IN_STATUS.CHATTER k = false →
      exec (.chatterWindow k) s = .next (((((State.wr { s with tio := { s.tio with trans := Tbl.erase s.tio.trans k } }
        F.TIO_IN_STATUS.CHATTER k 1).raise F.TIO_IN_STATUS.EVT_CHATTER k).inc F.TIO_IN_CNT.CHATTERS k).maskInput k).honour k))) ∧
  (∀ (s : State) (src : Src) (k : Nat), k < 24 → s.takesWrite src .TIO_IN_CFG k = true →
    (s.tio.en.testBit k = false → s.beatUnit ≠ buSTOPPED → exec (.tioInEnWrite src k true) s =
      .next { s.wr F.TIO_IN_CFG.EN k 1 with tio := { s.tio with enWait := Tbl.put s.tio.enWait k s.beat.edges } }) ∧
    (s.tio.en.testBit k = false → s.beatUnit = buSTOPPED → exec (.tioInEnWrite src k true) s =
      .next ((s.wr F.TIO_IN_CFG.EN k 1).enApply k))) ∧
  (∀ (s : State) (k n : Nat), k < 24 → s.beatRuns = true → Tbl.find s.tio.enWait k = some n → n < s.beat.edges →
    exec (.tioInEnApply k) s = .next (s.enApply k)) ∧
  ∀ (s : State) (src : Src) (k : Nat), 16 ≤ k → k < 24 → s.takesWrite src .TIO_IN_CTL k = true →
    s.is F.TIO_IN_STATUS.STUCK k = false → s.is F.TIO_IN_STATUS.CHATTER k = false → s.is F.TIO_IN_STATUS.LEVEL k = false →
    exec (.rearm src k) s = .next (s.wr F.TIO_IN_STATUS.MASKED k 0)

/-- Clauses for a live builder: HIST_CFG.EN of a disabled ring with an aligned base in normal plates enables it with WPTR 0 and HW
one beat before the count; the oldest accept that waits takes the next context; an assembly timeout ends what is not complete
with TIMEOUT; a free engine takes the oldest ready event; the oldest request of an enabled pool gets its space where it fits;
a copy whose sheets can be read now writes the record and counts a degraded event; a copied event with a queue chosen posts its
descriptor where the queue has room and no event chosen earlier waits.  The next state is given whole. -/
def Obligations.EventsAreAssembledAndCopied : Prop :=
  (∀ (s : State) (src : Src) (n v : Nat), n < 192 → s.takesWrite src .EVB_HIST_CFG n = true →
    s.is F.EVB_HIST_CFG.EN n = false → v.testBit 0 = true → F.EVB_HIST_CFG.SIZE.enc.ok (bits v 4 5) = true →
    s.rd F.EVB_HIST_BASE.BASE n * 2 ^ 20 % 2 ^ bits v 4 5 = 0 →
    s.normalRange (s.rd F.EVB_HIST_BASE.BASE n * 2 ^ 20) (2 ^ bits v 4 5) = true → ∃ u,
      u = (((s.wr F.EVB_HIST_CFG.SIZE n (bits v 4 5)).wr F.EVB_HIST_CFG.EN n 1).wr F.EVB_HIST_WPTR.WPTR n 0).wr
        F.EVB_HIST_HW.HW n (beatAdd s.beatNow (-1)) ∧
      exec (.histRingEnable src n v) s = .next (u.setLane n { u.lane n with anchors := [] })) ∧
  (∀ (s u : State) (a : Accept) (l : List Accept) (c : Nat), s.evbLive = true → s.held = false → s.evb.fifo = a :: l →
    s.takeCtx = some (c, u) → exec .contextAllocate s =
      .next ((State.openEvent { u with evb := { u.evb with fifo := l } } a c).evbSettle)) ∧
  (∀ (s : State) (c : Nat) (e : Event), s.evbLive = true → s.held = false → (s.assemble c).event c = some e →
    e.stage = .assembling → exec (.assemblyTimeout c) s = .next (((s.assemble c).setEvent c
      { (s.assemble c).endFrags e 8 with timeout := true }).readyCheck c)) ∧
  (∀ (s : State) (c : Nat) (e e' : Event), s.evbLive = true → s.held = false → s.oldestReady = some (c, e) →
    s.enginesBusy < 32 → e' = { e with frags := e.frags.map (fun f => if f.source < 256 then s.locate e.acc f else f.locateGuest) } →
    exec .eventCopy s = .next ((s.setEvent c { e' with stage := .counted, length := e'.size }).setPool e.acc.pool
      { s.pool e.acc.pool with waiting := (s.pool e.acc.pool).waiting ++ [c] })) ∧
  (∀ (s : State) (p c off bytes : Nat) (l : List Nat) (e : Event), s.evbLive = true → s.held = false → p < 8 →
    (s.pool p).waiting = c :: l → s.is F.EVB_POOL_CFG.EN p = true → s.event c = some e →
    s.poolFit p ((e.length + 255) / 256 * 256) = some (off, bytes) → ∃ u, u = s.setPool p { s.pool p with
      waiting := l, tail := off + (e.length + 255) / 256 * 256,
      recs := (s.pool p).recs ++ [PoolRec.mk off bytes c e.epoch false] } ∧
    exec (.poolAllocate p) s =
      .next ((u.setEvent c { e with stage := .allocated, addr := u.rd F.EVB_POOL_BASE.BASE p * 2 ^ 30 + off }).evbSettle)) ∧
  (∀ (s u v : State) (c : Nat) (e e' : Event) (fs : List Frag) (w : Denial), s.evbLive = true → s.held = false →
    s.event c = some e → e.stage = .allocated → s.copyFrags e.frags = (some fs, u) → e' = { e with frags := fs, stage := .copied } →
    u.devWrite 2 false e.addr (e'.record c) false = (w, v) → w ≠ .busy → exec (.eventCopyDone c) s =
      .next (if e'.flagByte.testBit 7 then (v.setEvent c e').inc F.EVB_ROUTE_CNT.DEGRADED e.acc.ttype else v.setEvent c e')) ∧
  ∀ (s v : State) (c q : Nat) (e : Event) (w : Denial), s.evbLive = true → s.held = false → s.event c = some e →
    e.stage = .copied → e.queue = some q →
    (s.rd F.EVB_EVQ_IDX.PI q + 65536 - s.rd F.EVB_EVQ_IDX.CI q) % 65536 < 2 ^ s.rd F.EVB_EVQ_CFG.QSIZE q →
    (∀ x ∈ s.evb.events, x.2.queue = some q → x.2.stage = .copied → e.chosen ≤ x.2.chosen) →
    s.devWrite 2 false (s.rd F.EVB_EVQ_BASE.BASE q + 32 * (s.rd F.EVB_EVQ_IDX.PI q % 2 ^ s.rd F.EVB_EVQ_CFG.QSIZE q))
      (s.queueDesc c e q) false = (w, v) → w ≠ .busy → exec (.eventPost c) s =
        .next ((((((v.setEvent c { e with stage := .posted }).setQueued q (v.queuedOf q ++ [c])).bump F.EVB_EVQ_IDX.PI q).inc
          F.EVB_CNT1.POSTED).inc F.EVB_ROUTE_EV.POSTED e.acc.ttype).evbSettle)

/-- Clauses: EVB_CLEAR_DONE; a queue's enable with an aligned base in normal plates opens it empty with its epoch advanced; a
pool's enable in normal plates; a route's timeout and lane masks where the record still fits; the age mark of an unposted event;
a doorbell in the window by the manager's world with the present epoch and a CI not past PI moves CI and releases; SUBSCRIBE and
UNSUBSCRIBE that pass the checks of R196; a write of HIF_EVQ_DB that names no doorbell another queue of the owner has; EVT_DELIVER
of an empty queue completes OK with nothing, and otherwise copies the items that fit and releases them. -/
def Obligations.EventQueuesPoolsAndRoutes : Prop :=
  (∀ (s : State), s.evbLive = true → s.held = false → s.is F.EVB_STATUS.READY = false →
    exec .evbClearDone s = .next ((s.wr F.EVB_STATUS.READY 0 1).evbSettle)) ∧
  (∀ (s : State) (src : Src) (q v : Nat), q < 1024 → s.takesWrite src .EVB_EVQ_CFG q = true → s.is F.EVB_EVQ_CFG.EN q = false →
    v.testBit 0 = true → F.EVB_EVQ_CFG.QSIZE.enc.ok (bits v 4 4) = true → bits v 8 8 = s.rd F.EVB_EVQ_CFG.OWNER q →
    s.rd F.EVB_EVQ_BASE.BASE q % (32 * 2 ^ bits v 4 4) = 0 →
    s.normalRange (s.rd F.EVB_EVQ_BASE.BASE q) (32 * 2 ^ bits v 4 4) = true → exec (.evqCfgWrite src q v) s =
      .next (((((s.wr F.EVB_EVQ_CFG.QSIZE q (bits v 4 4)).wr F.EVB_EVQ_CFG.EN q 1).bump F.EVB_EVQ_CFG.ROLE_EPOCH q).wr
        F.EVB_EVQ_IDX.PI q 0).wr F.EVB_EVQ_IDX.CI q 0)) ∧
  (∀ (s : State) (src : Src) (p v : Nat), p < 8 → s.takesWrite src .EVB_POOL_CFG p = true → s.is F.EVB_POOL_CFG.EN p = false →
    v.testBit 0 = true → F.EVB_POOL_CFG.PLATES.enc.ok (bits v 4 12) = true →
    s.normalRange (s.rd F.EVB_POOL_BASE.BASE p * 2 ^ 30) (bits v 4 12 * 2 ^ 30) = true → ∃ u,
      u = (((s.wr F.EVB_POOL_CFG.PLATES p (bits v 4 12)).wr F.EVB_POOL_CFG.LOW p (bits v 32 16)).wr F.EVB_POOL_CFG.HIGH p
        (bits v 48 16)).wr F.EVB_POOL_CFG.EN p 1 ∧
      exec (.poolEnable src p v) s = .next ((u.setPool p { s.pool p with head := 0, tail := 0 }).evbSettle)) ∧
  (∀ (s : State) (src : Src) (r v : Nat), r < 16 → s.takesWrite src .EVB_ROUTE_CFG r = true →
    F.EVB_ROUTE_TMO.TIMEOUT.enc.ok (bits v 0 20) = true →
    routeFits (popCount (s.rd F.EVB_ROUTE_LANES.MASK (3 * r)) + popCount (s.rd F.EVB_ROUTE_LANES.MASK (3 * r + 1)) +
      popCount (s.rd F.EVB_ROUTE_LANES.MASK (3 * r + 2))) (popCount (s.rd F.EVB_ROUTE_CFG.GUEST r))
      (s.rd F.EVB_ROUTE_CFG.MAXENT r) = true →
    exec (.routeCfgWrite src r 1 v) s = .next (s.wr F.EVB_ROUTE_TMO.TIMEOUT r (bits v 0 20))) ∧
  (∀ (s : State) (c : Nat) (e : Event), s.evbLive = true → s.held = false → s.event c = some e →
    s.rd F.EVB_BP_CFG.BP_AGE ≠ 0 → e.stage ≠ .posted →
    exec (.bpAgeExpire c) s = .next ((s.setEvent c { e with aged := true }).evbSettle)) ∧
  (∀ (s : State) (q v : Nat), q < 1024 → s.evbLive = true → s.ringLive = true → s.held = false → ∀ u, u = s.dbServed 2 →
    u.is F.EVB_EVQ_CFG.EN q = true → v / 65536 % 65536 = u.rd F.EVB_EVQ_CFG.ROLE_EPOCH q →
    (v % 65536 + 65536 - u.rd F.EVB_EVQ_IDX.CI q) % 65536 ≤
      (u.rd F.EVB_EVQ_IDX.PI q + 65536 - u.rd F.EVB_EVQ_IDX.CI q) % 65536 →
    exec (.evqDoorbell (.window .secure q) v) s = .next ((u.wr F.EVB_EVQ_IDX.CI q (v % 65536)).releaseQueue q
      ((v % 65536 + 65536 - u.rd F.EVB_EVQ_IDX.CI q) % 65536))) ∧
  (∀ (s : State) (r : Nat), s.evbLive = true →
    (s.hasCmd r 0x2C = true → s.subChecks r true = none → exec (.evqSubscribe r) s = .next ((s.setSubs (byteAt (s.desc r) 8)
      (s.subsOf (byteAt (s.desc r) 8) ++ [dget (s.desc r) 10 2])).finish r csOK)) ∧
    (s.hasCmd r 0x2D = true → s.subChecks r false = none → exec (.evqUnsubscribe r) s = .next ((s.setSubs (byteAt (s.desc r) 8)
      ((s.subsOf (byteAt (s.desc r) 8)).filter (· ≠ dget (s.desc r) 10 2))).finish r csOK)) ∧
    (∀ q, s.hasCmd r 0x43 = true → q = dget (s.desc r) 8 2 → q < 1024 → dget (s.desc r) 10 2 = s.rd F.EVB_EVQ_CFG.ROLE_EPOCH q →
      s.ringSlice r = 0 → 1 ≤ dget (s.desc r) 12 2 → dget (s.desc r) 12 2 ≤ 256 → s.is F.EVB_EVQ_CFG.EN q = true →
      (s.queuedOf q = [] → exec (.evtDeliver r) s = .next (s.finish r csOK 0 0 (s.rd F.EVB_EVQ_IDX.CI q))) ∧
      ∀ (sizes : List Nat) (k : Nat) (u v : State) (bytes : List (BitVec 8)) (poison : Bool),
        sizes = ((s.queuedOf q).take (dget (s.desc r) 12 2)).map s.itemOf → k = fitItems sizes (dget (s.desc r) 24 4) → k ≠ 0 →
        s.readItems r q ((s.queuedOf q).take k) 0 = (.ok (some (bytes, poison)), u) →
        u.cmdWrite r 5 (dget (s.desc r) 16 8) bytes = (.done, v) → exec (.evtDeliver r) s =
          .next (((v.wr F.EVB_EVQ_IDX.CI q ((v.rd F.EVB_EVQ_IDX.CI q + k) % 65536)).releaseQueue q k).finish r
            (if poison then csPOISON else csOK) k bytes.length ((v.rd F.EVB_EVQ_IDX.CI q + k) % 65536)))) ∧
  ∀ (s : State) (src : Src) (q v : Nat), q < 1024 → s.takesWrite src .HIF_EVQ_DB q = true →
    (∀ k, k < 1024 → k ≠ q → s.is F.HIF_EVQ_DB.VALID k = true → s.rd F.HIF_EVQ_DB.DBI k = bits v 0 8 →
      s.rd F.EVB_EVQ_CFG.OWNER k ≠ s.rd F.EVB_EVQ_CFG.OWNER q) →
    exec (.hifEvqDbWrite src q v) s = .next ((s.wr F.HIF_EVQ_DB.DBI q (bits v 0 8)).wr F.HIF_EVQ_DB.VALID q (bits v 15 1))

/-- Clauses: RUN takes a HELD core to INIT; INIT ends with the pc and mtvec at CORE_RVBAR, caches, predictors and TLB empty, and
the core RUNNING; CORE_RESET holds it; WFI retires, and waits where nothing is pending; a pending interrupt wakes it; the timer bits
follow the compare registers; a counter that wraps is zero and marks its overflow; a claim read returns the head of its FIFO with
VALID and removes it, and zero from an empty FIFO or to the normal world from the secure one; CORE_SSIP_SET sets SSIP. -/
def Obligations.CoresStartStopAndWake : Prop :=
  (∀ (s : State) (k : Nat), k < 576 → s.takesWrite .secure .CORE_CTL k = true →
    (s.rd F.CORE_STATUS.STATE k = 1 → exec (.coreRun .secure k) s =
      .next ((s.wr F.CORE_CTL.RUN k 1).wr F.CORE_STATUS.STATE k 2)) ∧
    exec (.coreReset .secure k) s = .next (s.coreHeld k)) ∧
  (∀ (s : State) (k : Nat), s.coreThere k = true → s.rd F.CORE_STATUS.STATE k = 2 → exec (.coreInitDone k) s =
    .next ((s.setHart k (Hart.setCsr { s.hart k with
        pc := s.rd F.CORE_RVBAR.ADDR k * 4, l1d := [], l1i := [], pred := [], tlb := []
        bootBad := s.bootBad (s.rd F.CORE_RVBAR.ADDR k * 4) }
      0x305 (s.rd F.CORE_RVBAR.ADDR k * 4))).wr F.CORE_STATUS.STATE k 3)) ∧
  (∀ (s : State) (k pc : Nat), s.coreFree k = true → s.priv k = 3 →
    (s.mip k ≠ 0 → exec (.wfi k pc) s = .next ((s.atInsn k pc).retire k (pc + 4))) ∧
    (s.mip k = 0 → exec (.wfi k pc) s = .next (((s.atInsn k pc).retire k (pc + 4)).wr F.CORE_STATUS.STATE k 4))) ∧
  (∀ (s : State) (k : Nat), s.coreThere k = true →
    (s.rd F.CORE_STATUS.STATE k = 4 → s.mip k ≠ 0 → exec (.wfiWake k) s = .next (s.wr F.CORE_STATUS.STATE k 3)) ∧
    exec (.timerCompare k) s = .next ((s.mipBit k 7 (s.rd F.CORE_MTIMECMP.CMP k ≤ s.rd F.CKR_TIME.TIME)).mipBit k 5
      ((s.csr k 0x30A).testBit 63 && s.csr k 0x14D ≤ s.rd F.CKR_TIME.TIME)) ∧
    (∀ n, 3 ≤ n → n < 32 → s.perfOn k n = true → exec (.counterOverflow k n) s =
      .next ((s.setCsr k (0xB00 + n) 0).perfWrap k n))) ∧
  (∀ (s : State) (k : Nat), k < 576 →
    (∀ x l, s.takesRead .secure .CORE_CLAIM_M k = true → (s.hart k).claimM = x :: l → exec (.coreClaimRead .secure k true) s =
      .next { s.setHart k { s.hart k with claimM := l } with rdata := x + 2 ^ 15 }) ∧
    (∀ x l src, s.takesRead src .CORE_CLAIM_S k = true → (s.hart k).claimS = x :: l → exec (.coreClaimRead src k false) s =
      .next { s.setHart k { s.hart k with claimS := l } with rdata := x + 2 ^ 15 }) ∧
    (∀ src, s.takesRead src .CORE_CLAIM_S k = true → (s.hart k).claimS = [] →
      exec (.coreClaimRead src k false) s = .next { s with rdata := 0 }) ∧
    (∀ c, s.takesRead (.normal c) .CORE_CLAIM_M k = true → exec (.coreClaimRead (.normal c) k true) s =
      .next { s with rdata := 0 })) ∧
  ∀ (s : State) (src : Src) (k v : Nat), k < 576 → v % 2 = 1 → s.takesWrite src .CORE_SSIP_SET k = true →
    exec (.coreSsipSet src k v) s = .next (s.setCsr k 0x344 (setBit (s.csr k 0x344) 1))

/-- Clauses for a core with no proof open and its merging buffer empty.  A synchronous exception other than 24 that is not
delegated, taken in the secure world, saves pc, cause, value, the mode and MIE, clears MIE, enters M-mode and goes to mtvec's base; one
that is delegated goes to S-mode with the world unchanged.  A due interrupt is taken with its cause.  MRET and SRET return to the
saved mode and pc.  A permitted CSR write reads the old value, stores the new one and retires; PREDICTOR_FLUSH is a write of
hzpredctl. -/
def Obligations.TrapsReturnsAndCsrs : Prop :=
  (∀ (s : State) (k pc insn cause tval : Nat), s.coreFree k = true → cause = s.trapCause k (insn % 64) →
    exec (.trap k pc insn tval) s = .next ((s.atInsn k pc).exception k cause tval pc) ∧
    (cause ≠ 24 → s.ns k = false → s.delegated k cause = false → ∃ t, exec (.trap k pc insn tval) s = .next t ∧
      t.csr k 0x341 = pc % 2 ^ 64 ∧ t.csr k 0x342 = cause ∧ t.csr k 0x343 = tval % 2 ^ 64 ∧ t.priv k = 3 ∧ t.ns k = false ∧
      bits (t.csr k 0x7C0) 1 1 = 0 ∧ (t.hart k).pc = s.csr k 0x305 / 4 * 4 ∧ (t.hart k).resv = none ∧ (t.hart k).x = (s.hart k).x) ∧
    (cause ≠ 24 → s.delegated k cause = true → ∃ t, exec (.trap k pc insn tval) s = .next t ∧ t.csr k 0x141 = pc % 2 ^ 64 ∧
      t.csr k 0x142 = cause ∧ t.csr k 0x143 = tval % 2 ^ 64 ∧ t.priv k = 1 ∧ t.ns k = s.ns k ∧
      (t.hart k).pc = s.csr k 0x105 / 4 * 4 ∧ (t.hart k).x = (s.hart k).x)) ∧
  (∀ (s : State) (k pc cause : Nat), s.coreRuns k = true → (s.hart k).io = none → (s.hart k).proof = none → (s.hart k).mb = [] →
    (s.interruptDue k = some (cause, true) → exec (.interruptTake k pc) s =
      .next (((s.endMiss k).perf k 0x0010).trapM k cause 0 pc true)) ∧
    (s.interruptDue k = some (cause, false) → exec (.interruptTake k pc) s =
      .next (((s.endMiss k).perf k 0x0010).trapS k cause 0 pc true))) ∧
  (∀ (s : State) (k pc : Nat), s.coreFree k = true →
    (s.priv k = 3 → exec (.mret k pc) s = .next ((s.atInsn k pc).mretTo k)) ∧
    ((s.priv k = 3 ∨ s.priv k = 1 ∧ (s.csr k 0x300).testBit 22 = false) →
      exec (.sret k pc) s = .next ((s.atInsn k pc).sretTo k) ∧
      ((s.atInsn k pc).sretTo k).priv k = bits (s.csr k 0x300) 8 1 ∧
      (((s.atInsn k pc).sretTo k).hart k).pc = s.csr k 0x141 ∧ ((s.atInsn k pc).sretTo k).ns k = s.ns k)) ∧
  ∀ (s u : State) (k pc rd : Nat), s.coreFree k = true → u = s.atInsn k pc →
    (∀ csr op v, csr < 4096 → u.csrAllowed k csr true = true → ∃ t, t = (u.csrPut k csr ((match op with
        | 0 => v
        | 1 => u.csrRead k csr ||| v
        | _ => u.csrRead k csr &&& (v % 2 ^ 64 ^^^ (2 ^ 64 - 1))) % 2 ^ 64)).dirty k csr ∧
      exec (.csrWrite k pc csr op rd v) s = .next ((t.setHart k ((t.hart k).setX rd (u.csrRead k csr))).retire k (pc + 4))) ∧
    (u.csrAllowed k 0x7C1 true = true → exec (.predictorFlush k pc) s =
      .next ((u.csrPut k 0x7C1 ((u.csrRead k 0x7C1 ||| 2) % 2 ^ 64)).retire k (pc + 4)))

/-- Clauses for a core that may issue with no proof open and an empty merging buffer, `u` being the state with its pc at the
instruction and the address translated and permitted.  A load of a line in the L1D reads it; a load of the register space reads
the register; a store to memory enters the merging buffer; one to the register space writes it; an AMO, an LR and an SC on a
line the L2 holds are done there, an SC without its reservation fails with 1; a FENCE and a FENCE.I retire.  The buffer's oldest
entry drains into a line the L2 owns, or by IO_WR while the L2 is disabled; a reservation stops deferring snoops. -/
def Obligations.CoreMemoryAccesses : Prop :=
  (∀ (s u v : State) (k pc len va size pa : Nat), s.coreFree k = true → u = s.atInsn k pc →
    (∀ sext r d, sizeOk size = true → crosses va size = false → u.target k .load va size [0] = (.ok pa, v) →
      inMemory pa = true → (v.hart k).proof = none → (v.hart k).mb = [] → Tbl.find (v.hart k).l1d (lineOf pa) = some d →
      exec (.load k pc len va size sext (.x r)) s = .next (v.loadDone k pa size sext (.x r) (pc + len) d)) ∧
    (∀ sext r off, sizeOk size = true → crosses va size = false → u.target k .load va size [0] = (.ok pa, v) →
      regionOf pa = .regs off → v.inProof k = false → exec (.load k pc len va size sext (.x r)) s =
        .next (v.loadRegs k off size sext (.x r) (pc + len))) ∧
    (∀ x, sizeOk size = true → crosses va size = false → u.target k .store va size [1] = (.ok pa, v) → inMemory pa = true →
      size < 128 → (v.hart k).mb = [] → ∃ w, w = (v.setHart k (((v.hart k).storeL1 pa size x).storeMb pa size x)).retire k (pc + len) ∧
      exec (.store k pc len va size x) s = .next (if (w.hart k).mbReady then w.drainOne k else w)) ∧
    (∀ x off, sizeOk size = true → crosses va size = false → u.target k .store va size [1] = (.ok pa, v) →
      regionOf pa = .regs off → v.inProof k = false → exec (.store k pc len va size x) s =
        .next ((v.spaceWrite (v.coreSrc k) off size x).retire k (pc + len))) ∧
    (∀ op x rd, amoSize size = true → op < 9 → va % size = 0 → u.target k .store va size [0, 1] = (.ok pa, v) →
      inMemory pa = true → v.l2On (clusterOf k) = true → (v.hart k).mb = [] → (v.hart k).proof = none →
      (v.l2line (clusterOf k) (lineOf pa)).isSome = true → ∃ m, m = MissOp.amo op pa size x rd (InsnAt.mk pc va (pc + len)) ∧
      ∃ w, w = v.setHart k { v.hart k with miss := some (lineOf pa, m) } ∧ exec (.amo k pc len op va size x rd) s =
        .next ((w.when (w.l2Serves (clusterOf k) (lineOf pa) .rdUnique)
          (·.inc F.L2_HITS.HITS (clusterOf k))).accessLine k (lineOf pa) m)) ∧
    (∀ rd, amoSize size = true → va % size = 0 → u.target k .load va size [0] = (.ok pa, v) →
      inMemory pa = true → v.l2On (clusterOf k) = true → (v.hart k).mb = [] → (v.hart k).proof = none →
      (v.l2line (clusterOf k) (lineOf pa)).isSome = true → ∃ m, m = MissOp.lr pa size rd (InsnAt.mk pc va (pc + len)) ∧
      ∃ w, w = v.setHart k { v.hart k with miss := some (lineOf pa, m) } ∧ exec (.lr k pc len va size rd) s =
        .next ((w.when (w.l2Serves (clusterOf k) (lineOf pa) .rdShared)
          (·.inc F.L2_HITS.HITS (clusterOf k))).accessLine k (lineOf pa) m)) ∧
    (∀ x rd, amoSize size = true → va % size = 0 → u.target k .store va size [1] = (.ok pa, v) →
      inMemory pa = true → v.l2On (clusterOf k) = true → (v.hart k).mb = [] →
      ((v.hart k).resv ≠ some (lineOf pa) → exec (.sc k pc len va size x rd) s = .next (v.scDone k rd 1 (pc + len))) ∧
      ((v.hart k).resv = some (lineOf pa) → (v.hart k).proof = none → (v.l2line (clusterOf k) (lineOf pa)).isSome = true →
        ∃ m, m = MissOp.sc pa size x rd (InsnAt.mk pc va (pc + len)) ∧
        ∃ w, w = v.setHart k { v.hart k with miss := some (lineOf pa, m) } ∧ exec (.sc k pc len va size x rd) s =
          .next ((w.when (w.l2Serves (clusterOf k) (lineOf pa) .rdUnique)
            (·.inc F.L2_HITS.HITS (clusterOf k))).accessLine k (lineOf pa) m))) ∧
    (∀ pred, (pred.testBit 2 = false ∨ s.guestWrites k = false) → exec (.fence k pc pred) s = .next (u.retire k (pc + 4))) ∧
    exec (.fenceI k pc) s = .next ((u.setHart k { u.hart k with l1i := [] }).retire k (pc + 4))) ∧
  ∀ (s : State) (k : Nat), s.coreThere k = true →
    exec (.lrReservationExpire k) s = .next (s.setHart k { s.hart k with resvDefer := false }) ∧
    (∀ e l u v w, (s.hart k).mb = e :: l → s.l2On (clusterOf k) = true → s.localAccess k e.line true = (true, u) →
      u.l2Own k e.line true = (true, v) → v.markWrite k e.line = (true, w) → ∃ x, x =
        (w.l2Write k e.line e.bytes).inc F.L2_HITS.HITS (clusterOf k) ∧
      exec (.mergeBufferDrain k) s = .next (x.setHart k { x.hart k with mb := l })) ∧
    (∀ e l, (s.hart k).mb = e :: l → s.l2On (clusterOf k) = false → s.ioAsked k e.line = false →
      exec (.mergeBufferDrain k) s =
        .next (s.send (.req (Request.mk .ioWr e.line (.core k) none e.bytes false 0 0 128))))

/-- A device out of cold reset; a message is delivered when it is the oldest of its channel (requests, notices with responses,
snoops with grants, data, pins, proof control) and its receiver can take it.  A request is served by its home slice, a notice and
a write-back update the entry and memory, a snoop is answered or held by the L2, data and grants complete the L2's request,
acknowledgements free the leaving buffer, pins set and clear the cluster's bit, and an abort reaches its hart. -/
def Obligations.CoherenceMessagesArrive : Prop :=
  (∀ (s : State) (c line : Nat) (m : CohMsg), s.held = false → s.cohReady m = true →
    (s.headOf (0, .cluster c, line) = some m → ∃ u, u = s.takeHead (0, .cluster c, line) ∧
      (∀ r, m = .req r → r.kind = .rdShared → exec (.rdShared line c) s = .next (u.serveReq r)) ∧
      (∀ r, m = .req r → r.kind = .rdUnique → exec (.rdUnique line c) s = .next (u.serveReq r)) ∧
      (∀ r, m = .req r → r.kind = .upgrade → exec (.upgrade line c) s = .next (u.serveReq r))) ∧
    (s.headOf (1, .cluster c, line) = some m → ∃ u, u = s.takeHead (1, .cluster c, line) ∧
      (∀ p x, m = .evn c line false p x → exec (.evnClean c line) s = .next (u.noticeArrive line (Notice.mk c false p x))) ∧
      (∀ p x, m = .evn c line true p x → exec (.evnDirty c line) s = .next (u.noticeArrive line (Notice.mk c true p x))) ∧
      (∀ p x, m = .wrback c line p x → exec (.wrback c line) s = .next (u.wrbackArrive c line p x)) ∧
      (∀ d i e x p, m = .rsp c line d i e x p → exec (.rsp c line) s = .next (u.rspArrive c line d i e x p))) ∧
    (s.headOf (2, .cluster c, line) = some m → ∃ u, u = s.takeHead (2, .cluster c, line) ∧
      (∀ q t e, m = .snp .share c line q t e → exec (.snpShare c line) s = .next (u.snoop c (HeldSnoop.mk line .share e q t []))) ∧
      (∀ q t e, m = .snp .unique c line q t e → exec (.snpUnique c line) s = .next (u.snoop c (HeldSnoop.mk line .unique e q t []))) ∧
      (∀ q t e, m = .snp .inv c line q t e → exec (.snpInv c line) s = .next (u.snoop c (HeldSnoop.mk line .inv e q t []))) ∧
      (∀ q t e, m = .snp .iord c line q t e → exec (.snpIord c line) s = .next (u.snoop c (HeldSnoop.mk line .iord e q t []))) ∧
      (∀ st w, m = .gnt c line st w → exec (.gnt c line) s = .next (u.gntArrive c line st w)) ∧
      (∀ w, m = .ackEvn c line w → exec (.ackEvn c line) s = .next (u.ackArrive c line w))) ∧
    (∀ p e x, s.headOf (3, .cluster c, line) = some m → m = .data c line p e x →
      exec (.data c line) s = .next ((s.takeHead (3, .cluster c, line)).dataArrive c line p e x)) ∧
    (s.headOf (4, .cluster c, line) = some m → ∃ u, u = s.takeHead (4, .cluster c, line) ∧
      (m = .pin c line → exec (.pin c line) s = .next (u.pinArrive c line true)) ∧
      (m = .unpin c line → exec (.unpin c line) s = .next (u.pinArrive c line false)))) ∧
  (∀ (s : State) (k ts l : Nat), s.held = false → s.headOf (5, .core k, 0) = some (.abort k ts l) →
    exec (.proofAbortMessage k) s = .next ((s.takeHead (5, .core k, 0)).abortArrive k ts l)) ∧
  ∀ (s : State) (line : Nat) (r : Request), s.held = false → s.mayServe line = true → r.line = line →
    s.headOf (0, r.src, line) = some (.req r) →
    (r.kind = .ioRd → s.dir.flight.find? (fun m => isReq .ioRd m && m.chan.2.2 == line) = some (.req r) →
      exec (.ioRd line) s = .next ((s.takeHead (0, r.src, line)).serveReq r)) ∧
    (r.kind = .ioWr → s.dir.flight.find? (fun m => isReq .ioWr m && m.chan.2.2 == line) = some (.req r) →
      exec (.ioWr line) s = .next ((s.takeHead (0, r.src, line)).serveReq r))

/-- Clauses: a request for a line without an entry, in a set with room, makes the cluster its owner and grants it E for RD_SHARED
and M otherwise, with the data from memory; an IO_RD reads memory and an IO_WR writes it; RD_SHARED of a line in S adds the
sharer; a directory group that is OFF passes requests to memory.  A free line's first waiter is served; the sweep sets EVT_SWEEP; a
cleared slice is ready; a probe names a line and its end reports the entry. -/
def Obligations.DirectoryServesAndIsControlled : Prop :=
  (∀ (s : State) (r : Request) (c : Nat), r.src = .cluster c → s.entry r.line = none → (s.setEntries r.line).length < 16 →
    (r.kind = .rdShared → s.serveNow r = (s.toEm r.line c).grant r.line c .e true true) ∧
    (r.kind = .rdUnique ∨ r.kind = .upgrade → s.serveNow r = (s.toEm r.line c).grant r.line c .m true true)) ∧
  (∀ (s : State) (r : Request) (e : DirEntry) (c : Nat), r.src = .cluster c → s.entry r.line = some e → e.st = .s →
    r.kind = .rdShared → s.serveNow r = (s.putEntry r.line (e.add c)).grant r.line c .s true true) ∧
  (∀ (s : State) (line : Nat) (r : Request) (l : List Request), s.held = false → Tbl.get s.dir.waits line [] = r :: l →
    s.lineHeld line = false → s.mayServe line = true → exec (.dirWaiterServe line) s =
      .next (State.serveNow { s with dir := { s.dir with waits := Tbl.set s.dir.waits line l [] } } r)) ∧
  (∀ (s : State) (n : Nat), s.dir.sweeping.contains n = true → s.sliceLive n = true → exec (.fenceSweepDone n) s =
    .next (State.raise { s with dir := { s.dir with sweeping := s.dir.sweeping.erase n } } F.DIR_SLICE_STATUS.EVT_SWEEP n)) ∧
  (∀ (s : State) (n : Nat), n < 32 → s.sliceLive n = true → s.held = false → ∃ t, exec (.dirClearDone n) s = .next t ∧
    t.fbit F.DIR_STATUS.READY 0 n = true ∧ (∀ j, j ≠ n → t.fbit F.DIR_STATUS.READY 0 j = s.fbit F.DIR_STATUS.READY 0 j) ∧
    Frame false [] [F.DIR_STATUS.READY.at 0] s t) ∧
  (∀ (s : State) (v : Nat), s.takesWrite .secure .DIR_PROBE_ADDR = true → exec (.dirProbe .secure v) s =
    .next { (s.wr F.DIR_PROBE_ADDR.LINE 0 (bits v 7 39)).wr F.DIR_PROBE_DATA.DONE 0 0 with dir := { s.dir with probing := true } }) ∧
  ∀ (s : State), s.dir.probing = true → s.sliceReady (homeSlice (s.rd F.DIR_PROBE_ADDR.LINE)) = true → ∃ t,
    exec .dirProbeDone s = .next t ∧ t.rd F.DIR_PROBE_DATA.DONE = 1 ∧ t.dir = { s.dir with probing := false } ∧
    t.rd F.DIR_PROBE_DATA.BUSY = b2n (s.lineHeld (s.rd F.DIR_PROBE_ADDR.LINE)) ∧
    (∀ e, s.entry (s.rd F.DIR_PROBE_ADDR.LINE) = some e → t.rd F.DIR_PROBE_DATA.HIT = 1 ∧
      t.rd F.DIR_PROBE_DATA.STATE = (match e.st with
        | .s => 1
        | .em => 2
        | .o => 3) ∧ t.rd F.DIR_PROBE_DATA.BCAST = b2n e.bcast ∧ t.rd F.DIR_PROBE_DATA.PIN = b2n (!e.pins.isEmpty) ∧
      t.rd F.DIR_PROBE_DATA.P0 = e.p0.getD 0 % 2 ^ F.DIR_PROBE_DATA.P0.w ∧ t.rd F.DIR_PROBE_DATA.WAY = e.way % 2 ^ F.DIR_PROBE_DATA.WAY.w) ∧
    (s.entry (s.rd F.DIR_PROBE_ADDR.LINE) = none → t.rd F.DIR_PROBE_DATA.HIT = 0 ∧ t.rd F.DIR_PROBE_DATA.STATE = 0)

/-- Clauses for a secure write whose cluster takes it: EN = 1 enables; EN = 0 of an L2 with no dirty line and no walk disables it
and empties the L1s, with a dirty line or a walk it is refused; FLUSH sends a write-back of every dirty line outside open write sets and
makes it clean; INV of an enabled L2 without dirty lines walks every line, and with dirty lines is refused; the walks end when nothing
is left of them; initialisation leaves the L2 empty, READY and enabled. -/
def Obligations.L2ControlsRun : Prop :=
  (∀ (s : State) (c : Nat), c < 48 → s.takesWrite .secure .L2_CTL c = true →
    exec (.l2EnWrite .secure c 1) s = .next ((s.wr F.L2_CTL.EN c 1).wr F.L2_STATUS.ENABLED c 1) ∧
    (s.l2On c = true → s.l2Dirty c = 0 → s.is F.L2_CTL.FLUSH c = false → s.is F.L2_CTL.INV c = false →
      exec (.l2EnWrite .secure c 0) s = .next (((s.wr F.L2_CTL.EN c 0).wr F.L2_STATUS.ENABLED c 0).clearL1s c)) ∧
    (s.l2On c = true → s.l2Dirty c ≠ 0 → exec (.l2EnWrite .secure c 0) s = .next (s.wr F.L2_STATUS.DISABLE_REFUSED c 1)) ∧
    (s.is F.L2_CTL.FLUSH c = false → ∃ t, exec (.l2Flush .secure c) s = .next t ∧ t.rd F.L2_CTL.FLUSH c = 1 ∧
      t.regs = (s.wr F.L2_CTL.FLUSH c 1).regs ∧
      (∀ l x, (s.l2c c).lines = [(l, x)] → x.st = .m → (coresOf c).any (fun k => (s.hart k).writes l) = false →
        t.dir.flight = s.dir.flight ++ [.wrback c l x.poison x.data] ∧ (t.l2c c).lines = [(l, { x with st := .e })] ∧
        (t.l2c c).flushLeft = [l])) ∧
    (s.is F.L2_CTL.INV c = false → s.l2Dirty c ≠ 0 → exec (.l2Inv .secure c) s = .next (s.wr F.L2_STATUS.INV_REFUSED c 1)) ∧
    (s.is F.L2_CTL.INV c = false → s.l2Dirty c = 0 → s.l2On c = true → ∃ u, u = (s.wr F.L2_CTL.INV c 1).clearL1s c ∧
      exec (.l2Inv .secure c) s = .next ((u.setL2 c { u.l2c c with invLeft := (u.l2c c).lines.map (·.1) }).invStep c))) ∧
  ∀ (s : State) (c : Nat), s.clusterLive c = true →
    (s.is F.L2_CTL.FLUSH c = true → (s.l2c c).flushLeft = [] → (s.l2c c).invAfterFlush = false →
      exec (.l2FlushDone c) s = .next ((s.wr F.L2_CTL.FLUSH c 0).setL2 c { s.l2c c with invAfterFlush := false })) ∧
    (s.is F.L2_CTL.INV c = true → (s.l2c c).invLeft = [] → (s.l2c c).lb = [] →
      exec (.l2InvDone c) s = .next (s.wr F.L2_CTL.INV c 0)) ∧
    (c < 48 → s.is F.L2_STATUS.READY c = false → s.held = false → exec (.l2InitDone c) s =
      .next (((s.setL2 c L2State.init).wr F.L2_STATUS.READY c 1).wr F.L2_STATUS.ENABLED c 1))

/-- `u` is the state with the core at the instruction.  PRF.BEGIN and an accepted PRF.JOIN open a proof at depth 1 with the
registers as its checkpoint, no bits, rd zero and PRF_OPEN set, PRF.JOIN counting in the group, with its timestamp and deciding
core; an inner PRF.BEGIN and PRF.SEAL change the depth alone; the outermost PRF.SEAL commits a single-core proof, releasing its
doorbells, and marks a participant sealing; PRF.ABORT with a code aborts, code 0 is illegal, and with no proof open it only
retires; PRF.TEST reads the state word; PRF.GROUP allocates the lowest free group. -/
def Obligations.ProofsOpenSealAndAbort : Prop :=
  (∀ (u : State) (k pc rd ts d : Nat) (g : Option Nat), u.l2On (clusterOf k) = true →
    u.openProof k pc rd ts d g = ((((u.setHart k { (u.hart k).setX rd 0 with
      proof := some (Proof.mk 1 g ts d rd ((u.hart k).checkpoint (pc + 4)) [] [] [] false false false) }).wr
      F.CORE_STATUS.PRF_OPEN k 1).retire k (pc + 4)).perf k 0x000C)) ∧
  (∀ (s u : State) (k pc rd : Nat), s.coreFree k = true → u = s.atInsn k pc →
    (∀ ts w, u.stamp k = (ts, w) → exec (.prfBegin k pc rd) s = .next (w.openProof k pc rd ts k none)) ∧
    (∀ rs1 g x, u.arbDoor = (.ready, u) → u.joinRefusal k (Tbl.get (u.hart k).x (rs1 % 32) 0).toNat = none →
      g = bits (Tbl.get (u.hart k).x (rs1 % 32) 0).toNat 0 12 → Tbl.find u.groups g = some x →
      exec (.prfJoin k pc rd rs1) s = .next ((State.inc { u with groups := Tbl.put u.groups g { x with joined := x.joined ++ [k] } }
        F.PRF_GRP_STATUS.JOINED g).openProof k pc rd x.timestamp x.allocCore (some g))) ∧
    (∀ rs1 v g ts w, u.domOn 69 = true → u.arbDoor = (.ready, u) → v = (Tbl.get (u.hart k).x (rs1 % 32) 0).toNat → 1 ≤ v → v ≤ 64 →
      u.rd F.PRF_SLICE_GRP.USED (u.grpSlice k) < u.rd F.PRF_SLICE_GRP.LIMIT (u.grpSlice k) →
      (List.range 4096).find? (fun g => u.groupState g == gsFREE) = some g → u.stamp k = (ts, w) →
      exec (.prfGroup k pc rd rs1) s = .next ((w.groupOpen g k v ts).prfRd k pc rd ((w.groupOpen g k v ts).handleOf g))) ∧
    exec (.prfSeal k pc rd) s = .next (u.prfRd k pc rd 0x106) ∧
    (∀ imm, imm % 256 = 0 → exec (.prfAbort k pc imm) s = .next (u.illegal k pc)) ∧
    (∀ imm, imm % 256 ≠ 0 → exec (.prfAbort k pc imm) s = .next (u.retire k (pc + 4))) ∧
    exec (.prfTest k pc rd) s = .next (u.prfRd k pc rd 0)) ∧
  ∀ (s u : State) (k pc rd : Nat) (p : Proof), s.mayIssue k = true → (s.hart k).haltPending = false → u = s.atInsn k pc →
    (u.hart k).proof = some p →
    (p.depth < 7 → exec (.prfBegin k pc rd) s = .next ((u.onProof k (fun p => { p with depth := p.depth + 1 })).prfRd k pc rd 0)) ∧
    (1 < p.depth → exec (.prfSeal k pc rd) s = .next ((u.onProof k (fun p => { p with depth := p.depth - 1 })).prfRd k pc rd 0)) ∧
    (p.depth = 1 → (u.hart k).mb = [] → p.group = none → exec (.prfSeal k pc rd) s =
      .next (((((u.clearProof k).releaseDbs p.doorbells).inc F.PRF_CNT1.SINGLE_COMMITS).prfRd k pc rd 0).perf k 0x000E)) ∧
    (∀ g, p.depth = 1 → (u.hart k).mb = [] → p.group = some g → exec (.prfSeal k pc rd) s =
      .next (u.setHart k { (u.hart k).setX rd 0 with proof := some { p with sealing := true } })) ∧
    (∀ imm, imm % 256 ≠ 0 → exec (.prfAbort k pc imm) s = .next (u.proofAbort k 7 0 (imm % 256))) ∧
    exec (.prfTest k pc rd) s = .next (u.prfRd k pc rd (p.depth + b2n p.group.isSome <<< 3 + b2n p.sealing <<< 4 +
      b2n p.deferring <<< 5 + (p.writes.length % 2048) <<< 16 + (p.group.getD 0) <<< 32))

/-- Clauses: the seal that makes SEALED reach EXPECT, with no abort pending, makes the group COMMITTING and every participant's proof
committing; a participant's commit clears its proof and retires its seal; the last acknowledgement releases the held doorbells, counts
the commit and frees the group; an abort that reaches the arbiter aborts the OPEN group with its cause, the others with cause 8; an
ABORTING group without open proofs is freed; GROUP_TIMEOUT counts, raises and aborts; holders of a snoop held too long abort with
cause 1; a deferring core whose budget is spent aborts with cause 4; the arbiter is ready after clearing. -/
def Obligations.GroupsCommitAndAbort : Prop :=
  (∀ (s : State) (g k : Nat) (x : Group), s.held = false → s.arbDoor = (.ready, s) → Tbl.find s.groups g = some x →
    (s.groupState g = gsOPEN → x.sealed.contains k = false →
      (s.hart k).proof.any (fun p => p.group == some g && p.sealing) = true →
      ∃ u, u = State.inc { s with groups := Tbl.put s.groups g { x with sealed := x.sealed ++ [k] } } F.PRF_GRP_STATUS.SEALED g ∧
        (u.rd F.PRF_GRP_STATUS.SEALED g < u.rd F.PRF_GRP_STATUS.EXPECT g ∨ x.aborts ≠ [] → exec (.sealMessage g k) s = .next u) ∧
        (u.rd F.PRF_GRP_STATUS.EXPECT g ≤ u.rd F.PRF_GRP_STATUS.SEALED g → x.aborts = [] → exec (.sealMessage g k) s =
          .next (x.joined.foldl (fun s j => s.onProof j (fun p => { p with committing := true }))
            (State.wr { u with groups := Tbl.put u.groups g { x with sealed := x.sealed ++ [k], acks := x.joined } }
              F.PRF_GRP_STATUS.STATE g gsCOMMITTING)))) ∧
    (s.groupState g = gsCOMMITTING → x.acks = [k] → (s.hart k).proof = none → exec (.groupCommitAck g k) s =
      .next ((((State.releaseDbs { s with groups := Tbl.put s.groups g { x with acks := [] } } x.doorbells).wr
        F.PRF_GRP_INFO.DB_HELD g 0).inc F.PRF_CNT0.GROUP_COMMITS).groupFree g)) ∧
    (∀ cause, x.aborts = [(k, cause)] → exec (.participantAbort g k) s =
      .next (State.groupAbort { s with groups := Tbl.put s.groups g { x with aborts := [] } } g k cause 8)) ∧
    (s.groupState g = gsABORTING → x.joined.any (fun k => (s.hart k).proof.any (fun p => p.group == some g)) = false →
      exec (.groupAbortDone g) s = .next (s.groupFree g)) ∧
    (g < 4096 → s.groupState g = gsOPEN → exec (.groupTimeout g) s =
      .next (((s.inc F.PRF_CNT2.TIMEOUTS).raise F.PRF_STATUS.EVT_TIMEOUT).groupAbort g (s.rd F.PRF_GRP_INFO.LAST_ABORT_CORE g) 8 8))) ∧
  (∀ (s : State) (g k : Nat), s.held = false → s.groupState g = gsCOMMITTING →
    (s.hart k).proof.any (fun p => p.group == some g && p.committing) = true →
    exec (.groupCommit g k) s = .next (((s.clearProof k).retire k ((s.hart k).pc + 4)).perf k 0x000E)) ∧
  (∀ (s : State) (c line k : Nat) (h : HeldSnoop) (p : Proof), s.held = false → s.clusterLive c = true → (s.l2c c).held = [h] →
    h.line = line → h.holders = [k] → (s.hart k).proof = some p → p.committing = false →
    exec (.snoopHoldTimeout c line) s = .next (s.proofAbort k 1 line 0)) ∧
  (∀ (s : State) (k : Nat) (p : Proof), s.coreThere k = true → (s.hart k).proof = some p → p.deferring = true →
    p.committing = false → exec (.deferBudgetExpire k) s = .next (s.proofAbort k 4 0 0)) ∧
  (∀ (s : State), s.domOn 69 = true → s.held = false → s.is F.PRF_STATUS.READY = false →
    exec .prfClearDone s = .next (s.wr F.PRF_STATUS.READY 0 1)) ∧
  ∀ (s : State) (g x : Nat), x ≠ g → (s.groupFree g).groupState g = gsFREE ∧ Tbl.find (s.groupFree g).groups g = none ∧
    Tbl.find (s.groupFree g).groups x = Tbl.find s.groups x

/-- Clauses: a job whose fields, ranges, chains and share are good waits in the queue, its command started; the dispatcher gives
the chosen job the lowest free engine, moving both pointers past the winner, or ends it with QUOTA where its slice is over quota; a
block is read and coded; with memory output its records, then its slot, are placed and counted, and the last block ends the job; for
Ethernet it joins the group under construction until the group is full or the job's last. -/
def Obligations.StippleJobsAreQueuedAndRun : Prop :=
  (∀ (s u v : State) (r sl : Nat) (d m o : List (BitVec 8)) (cm co : List (Nat × Nat × Nat)), s.stpReady = true →
    s.hasCmd r 0x40 = true → d = s.desc r → sl = s.ringSlice r → s.jobFields d = true →
    s.rangeOk sl (dget d 32 8) (16 * dget d 40 2) = true → s.rangeOk sl (dget d 48 8) (16 * dget d 42 2) = true →
    s.listRead r (dget d 32 8) (dget d 40 2) = (.data m [], u) → u.listRead r (dget d 48 8) (dget d 42 2) = (.data o [], v) →
    v.desc r = d → v.ringSlice r = sl → cm = chainOf m → co = chainOf o → (cm ++ co).all stpEntryGood = true → jobEth d = false →
    v.rangeOk sl (dget d 8 8) (jobNsamp d * jobUnit d) = true → (cm ++ co).all (fun e => v.rangeOk sl e.1 e.2.1) = true →
    jobBlocks d ≤ chainSlots (cm.map (fun e => (e.1, e.2.1))) (slotBytes (jobQ d)) → v.rd F.STP_SLICE_SHARE.SHARE sl ≠ 0 →
    v.is F.STP_SLICE_SHARE.OVER_QUOTA sl = false →
    exec (.stpJob r) s = .next (State.start { v with stp := { v.stp with waiting := v.stp.waiting ++ [StpJob.mk r sl d
      (cm.map (fun e => (e.1, e.2.1))) 0 (co.map (fun e => (e.1, e.2.1))) 0 none 0 0 0 0 0 0 [] [] none] } } r)) ∧
  (∀ (s u : State) (j : StpJob) (e : Nat), s.stpReady = true → s.jobChoice = some j → s.freeEngine = some e →
    u = { s with stp := { s.stp with
      waiting := s.stp.waiting.filter (fun k => k.ring ≠ j.ring)
      slicePtr := rotNext 256 j.slice
      ringPtr := Tbl.set s.stp.ringPtr j.slice (rotNext 8192 j.ring) 0 } } →
    (s.is F.STP_SLICE_SHARE.OVER_QUOTA j.slice = true → exec .stpDispatch s = .next (u.jobFinish j csQUOTA)) ∧
    (s.is F.STP_SLICE_SHARE.OVER_QUOTA j.slice = false → exec .stpDispatch s = .next (u.jobRun j e))) ∧
  (∀ (s u : State) (e : Nat) (j : StpJob) (data : List (BitVec 8)) (n : Nat), s.stpReady = true → e < 16 →
    s.stp.running.find? (fun j => j.engine == some e) = some j → s.rd F.STP_ENG_STATUS.STATE e = 1 → j.blocks < jobBlocks j.desc →
    n = min 1024 (jobNsamp j.desc - 1024 * j.blocks) * jobUnit j.desc →
    s.cmdRead j.ring 3 (dget j.desc 8 8 + 1024 * j.blocks * jobUnit j.desc) n = (.data data [], u) →
    (jobEth j.desc = false → exec (.stpBlockDone e) s = .next ((u.setRing j.ring { u.ring j.ring with buf := [] }).blockToMem j
      (codeBlock j.desc j.blocks (samplesOf (jobW j.desc) (jobSigned j.desc) data)) n)) ∧
    (jobEth j.desc = true → exec (.stpBlockDone e) s = .next ((u.setRing j.ring { u.ring j.ring with buf := [] }).blockToEth j
      (codeBlock j.desc j.blocks (samplesOf (jobW j.desc) (jobSigned j.desc) data)) n))) ∧
  (∀ (s u v : State) (j j1 j2 : StpJob) (b : Block) (n : Nat), s.putRecs j b.recs = (.done j1, u) → u.putSlot j1 b.slot = (.done j2, v) →
    ∃ k, k = { j2 with blocks := j.blocks + 1, good := j.blocks + 1, clips := j.clips + b.clips } ∧
      (j.blocks + 1 ≠ jobBlocks j.desc → s.blockToMem j b n = ((v.blockCount j n b.clips).setJob k).inc F.STP_CNT1.BLOCKS) ∧
      (j.blocks + 1 = jobBlocks j.desc →
        s.blockToMem j b n = (((v.blockCount j n b.clips).setJob k).inc F.STP_CNT1.BLOCKS).jobEnd k csOK)) ∧
  ∀ (s : State) (j : StpJob) (b : Block) (n : Nat),
    j.slots.length + 1 < (s.ethLimit (jobQueue j.desc) - 32) / slotBytes (jobQ j.desc) → j.blocks + 1 < jobBlocks j.desc →
    (∃ k, k = { j with
        blocks := j.blocks + 1
        clips := j.clips + b.clips
        slots := j.slots ++ [b.slot]
        recs := j.recs ++ b.recs.map (fun r => (j.blocks, r)) } ∧
      ((s.blockCount j n b.clips).setJob k).ethLimit (jobQueue j.desc) = s.ethLimit (jobQueue j.desc) ∧
      s.blockToEth j b n = (s.blockCount j n b.clips).setJob k)

/-- Clauses: a sub-port with link grants its next ready queue and sends the oldest frame, which is counted with its FCS and, for
an ETH_SEND, ends the command with its length, and, for a job, ends its group or the job; ETH_SEND in its limits puts a frame
on the queue; ETH_FLOW_SET of an own queue without a job writes the 56 bytes. -/
def Obligations.EthernetSends : Prop :=
  (∀ (s u : State) (p sub q qi : Nat) (f : EthFrame) (l : List EthFrame), p < 4 → sub < 4 → s.ethReady p = true →
    s.is F.ETH_PORT_CFG.EN p = true → s.fbit F.ETH_PORT_STATUS.LINK p sub = true → qi = 64 * p + q →
    rotGrant 64 (Tbl.get s.eth.ptr (4 * p + sub) 0) (s.queueReady p sub) = some q → s.ethQueue qi = f :: l →
    u = State.setEthQueue { s with eth := { s.eth with ptr := Tbl.set s.eth.ptr (4 * p + sub) (rotNext 64 q) 0 } } qi l →
    (f.slice = 0 ∨ u.frameMine f.slice f.bytes = true →
      exec (.ethFrameSend p sub) s = .next (u.frameSent (4 * p + sub) qi f)) ∧
    (f.slice ≠ 0 → u.frameMine f.slice f.bytes = false → exec (.ethFrameSend p sub) s = .next (u.frameSpoof qi f))) ∧
  (∀ (s u : State) (sub qi : Nat) (f : EthFrame),
    u = (State.inc { s with eth := { s.eth with sent := s.eth.sent ++ [(sub, wireBytes f.bytes)] } } F.ETH_PORT_FRAMES.FRAMES_TX
      (qi / 64)).inc F.ETH_PORT_BYTES.BYTES_TX (qi / 64) (wireBytes f.bytes).length →
    (f.kind = .send → s.frameSent sub qi f = u.finish f.ring csOK (wireBytes f.bytes).length) ∧
    (f.kind = .ended → s.frameSent sub qi f = u) ∧
    (∀ j, f.kind = .last → u.stp.running.find? (fun j => j.ring == f.ring) = some j →
      s.frameSent sub qi f = u.jobEnd j (j.stop.getD csOK)) ∧
    (∀ j, f.kind = .job → u.stp.running.find? (fun j => j.ring == f.ring) = some j →
      (u.ethQueue qi).any (fun g => g.ring == f.ring && g.kind == EthKind.job) = false → s.frameSent sub qi f = u.groupSent j)) ∧
  (∀ (s u : State) (r sl qi len : Nat) (d data : List (BitVec 8)), s.hasCmd r 0x41 = true → d = s.desc r → byteAt d 8 < 4 →
    byteAt d 9 < 64 → s.ethReady (byteAt d 8) = true → sl = s.ringSlice r → qi = 64 * byteAt d 8 + byteAt d 9 → len = dget d 24 4 →
    len ≠ 0 → len ≤ s.ethLimit qi → dget d 10 2 = s.rd F.ETH_Q_CFG.ROLE_EPOCH qi → s.queueMine sl qi = true →
    s.rangeOk sl (dget d 16 8) len = true → s.cmdRead r 4 (dget d 16 8) len = (.data data [], u) → u.queueLink qi = true →
    exec (.ethSend r) s = .next ((u.ethPush qi sl r .send data).start r)) ∧
  ∀ (s u : State) (r sl qi : Nat) (d t : List (BitVec 8)), s.hasCmd r 0x30 = true → d = s.desc r → byteAt d 8 < 4 →
    byteAt d 9 < 64 → s.ethReady (byteAt d 8) = true → sl = s.ringSlice r → qi = 64 * byteAt d 8 + byteAt d 9 →
    s.rangeOk sl (dget d 16 8) 64 = true → dget d 10 2 = s.rd F.ETH_Q_CFG.ROLE_EPOCH qi →
    s.cmdRead r 4 (dget d 16 8) 64 = (.data t [], u) → sl = 0 ∨ u.rd F.ETH_Q_CFG.OWNER qi = sl → flowGood t = true →
    u.queueBusy qi = false →
    exec (.ethFlowSet r) s =
      .next (((List.range 7).foldl (fun s k => s.wr F.ETH_Q_FLOW.BYTES (7 * qi + k) (leAt t (8 * k) 8)) u).finish r csOK)

/-- Clauses: PFC sets and clears the priorities it names, with PFC_EN = 1; any other received frame is counted; a pause limit counts
PAUSE_TMO, raises EVT_PAUSE where a job runs on the queue, and ends what is on the queue with TIMEOUT; a link coming up sets LINK
and EVT_LINK; a write of ETH_Q_CFG that enables the queue changes its epoch; one that changes nothing but PCP writes it; a SHARE
above use is stored; a SHARE of more than 16 is not; clearing ends with READY. -/
def Obligations.EthernetPortsAndShares : Prop :=
  (∀ (s : State) (p sub : Nat), p < 4 → sub < 4 → s.ethReady p = true → s.fbit F.ETH_PORT_STATUS.LINK p sub = true →
    (∀ pause release v, s.is F.ETH_PORT_CFG.PFC_EN p = true → v = (Tbl.get s.eth.paused (4 * p + sub) 0 ||| pause) % 256 →
      exec (.pfcFrame p sub pause release) s = .next { s with eth := { s.eth with
        paused := Tbl.set s.eth.paused (4 * p + sub) ((v ||| release % 256) ^^^ (release % 256)) 0 } }) ∧
    (∀ pause release, s.is F.ETH_PORT_CFG.PFC_EN p = false → exec (.pfcFrame p sub pause release) s = .next s) ∧
    exec (.ethRxDiscard p sub) s = .next (s.inc F.ETH_PORT_CNT.RX_DISCARD p)) ∧
  (∀ (s : State) (p q qi : Nat), p < 4 → q < 64 → s.ethReady p = true → qi = 64 * p + q →
    (Tbl.get s.eth.paused (s.subOf qi) 0).testBit (s.rd F.ETH_Q_CFG.PCP qi) = true → s.queueBusy qi = true →
    exec (.pauseTimeout p q) s = .next (((s.inc F.ETH_PORT_CNT.PAUSE_TMO p).raise F.ETH_PORT_STATUS.EVT_PAUSE p).cutQueues
      (· == qi) csTIMEOUT true)) ∧
  (∀ (s : State) (p sub : Nat), p < 4 → s.ethReady p = true → s.is F.ETH_PORT_CFG.EN p = true →
    sub < subPorts (s.rd F.ETH_PORT_CFG.MODE p) →
    (s.fbit F.ETH_PORT_STATUS.LINK p sub = false → exec (.ethLinkChange p sub true) s =
      .next ((s.putBit F.ETH_PORT_STATUS.LINK p sub true).raise F.ETH_PORT_STATUS.EVT_LINK p)) ∧
    (s.fbit F.ETH_PORT_STATUS.LINK p sub = true → exec (.ethLinkChange p sub false) s =
      .next (((s.putBit F.ETH_PORT_STATUS.LINK p sub false).raise F.ETH_PORT_STATUS.EVT_LINK p).linkLost p sub))) ∧
  (∀ (s : State) (src : Src) (p q qi v : Nat), p < 4 → q < 64 → qi = 64 * p + q → s.takesWrite src .ETH_Q_CFG qi = true →
    bits v 8 8 = s.rd F.ETH_Q_CFG.OWNER qi → bits v 1 2 < subPorts (s.rd F.ETH_PORT_CFG.MODE p) → v % 2 = 1 →
    ∃ t, exec (.ethQCfgWrite src p q v) s = .next t ∧ t.rd F.ETH_Q_CFG.EN qi = 1 ∧ t.rd F.ETH_Q_CFG.SUBPORT qi = bits v 1 2 ∧
      t.rd F.ETH_Q_CFG.PCP qi = bits v 4 3 ∧ t.rd F.ETH_Q_CFG.OWNER qi = bits v 8 8 ∧
      (s.rd F.ETH_Q_CFG.EN qi = 1 → t.rd F.ETH_Q_CFG.ROLE_EPOCH qi = s.rd F.ETH_Q_CFG.ROLE_EPOCH qi) ∧
      (s.rd F.ETH_Q_CFG.EN qi = 0 →
        t.rd F.ETH_Q_CFG.ROLE_EPOCH qi = (s.rd F.ETH_Q_CFG.ROLE_EPOCH qi + 1) % 2 ^ F.ETH_Q_CFG.ROLE_EPOCH.w) ∧
      Frame false [] [F.ETH_Q_CFG.EN.at qi, F.ETH_Q_CFG.SUBPORT.at qi, F.ETH_Q_CFG.PCP.at qi, F.ETH_Q_CFG.OWNER.at qi,
        F.ETH_Q_CFG.ROLE_EPOCH.at qi] s t) ∧
  (∀ (s : State) (src : Src) (sl v : Nat), sl < 256 → s.takesWrite src .STP_SLICE_SHARE sl = true →
    (bits v 0 5 ≤ 16 → s.rd F.STP_SLICE_SHARE.SHARE sl ≤ bits v 0 5 → s.is F.STP_SLICE_SHARE.OVER_QUOTA sl = false →
      exec (.stpShareWrite src sl v) s = .next (s.wr F.STP_SLICE_SHARE.SHARE sl (bits v 0 5))) ∧
    (bits v 0 5 < s.rd F.STP_SLICE_SHARE.SHARE sl → bits v 0 5 ≤ 16 → bits v 0 5 ≤ s.rd F.STP_SLICE_SHARE.USED sl →
      s.is F.STP_SLICE_SHARE.OVER_QUOTA sl = false → exec (.stpShareWrite src sl v) s =
        .next (((((s.wr F.STP_SLICE_SHARE.SHARE sl (bits v 0 5)).wr F.STP_SLICE_SHARE.OVER_QUOTA sl 1).raise
          F.STP_STATUS.EVT_QUOTA).wr F.HIF_SLICE_STATUS.OVER_STP sl 1).raise F.HIF_SLICE_STATUS.EVT_QUOTA sl)) ∧
    (16 < bits v 0 5 → exec (.stpShareWrite src sl v) s = .next s)) ∧
  ∀ (s : State) (dom : Nat), s.held = false → s.domOn dom = true →
    (dom = 93 → exec (.stpEthClearDone dom) s = .next (s.wr F.STP_STATUS.READY 0 1)) ∧
    (dom = 94 ∨ dom = 95 → exec (.stpEthClearDone dom) s =
      .next ((s.wr F.ETH_PORT_STATUS.READY (2 * (dom - 94)) 1).wr F.ETH_PORT_STATUS.READY (2 * (dom - 94) + 1) 1))

/-- Clauses, for a device out of cold reset and a controller whose domain is ON: the oldest request for a sheet is served, a
read only by SHEET_READ, a write only by SHEET_WRITE; the burnisher reads its next sheet and moves its pointer; a raw sheet is decoded by its die, its
line delivered and its outcome reported; a write-back with its entry pending is counted, re-encoded and written, the entry freed,
and without one dropped; a UE or ADDR report counts and frees its entry; a timeout corrects at the hub. -/
def Obligations.SheetsAreServedAndCorrected : Prop :=
  (∀ (s u : State) (n : Nat) (q : MemReq), s.held = false → s.mem.queue = [q] → q.sheet = n →
    s.rd F.PWR_DOM_STATUS.STATE (ctlDom (s.controllerOf n)) = 0 → s.domOn (ctlDom (s.controllerOf n)) = true → s.walking n = false →
    u = { s with mem := { s.mem with queue := [] } } →
    (q.write = true → exec (.sheetWrite n) s = .next (u.sheetWrite n q.bytes q.poison) ∧ exec (.sheetRead n) s = .next s) ∧
    (∀ c, q.write = false → q.dst = .cluster c → exec (.sheetRead n) s = .next (u.dieRead q c)) ∧
    (∀ r sh v, q.write = false → q.dst = .reply r → u.hubRead n = (sh, v) →
      exec (.sheetRead n) s = .next (v.ioReply r (some (sh.line q.upper, sh.bad q.upper)))) ∧
    (q.write = false → q.dst = .none → exec (.sheetRead n) s = .next (u.hubRead n).2) ∧
    (q.write = false → exec (.sheetWrite n) s = .next s)) ∧
  (∀ (s u : State) (c l : Nat), s.held = false → s.is F.MEM_BURN_CFG.EN = true → s.ctlPopulated c = true → s.domOn (ctlDom c) = true →
    l = s.rd F.MEM_BURN_PTR.LOCAL c → u = (s.hubRead (s.sheetAt c l)).2 →
    (l + 1 < u.ctlSheets c → exec (.burnishRead c) s = .next (u.wr F.MEM_BURN_PTR.LOCAL c (l + 1))) ∧
    (u.ctlSheets c ≤ l + 1 → exec (.burnishRead c) s =
      .next (((u.wr F.MEM_BURN_PTR.LOCAL c 0).inc F.MEM_BURN_PTR.PASSES c).raise F.MEM_CTL_STATUS.EVT_WALK c))) ∧
  (∀ (s : State) (r : RawSheet) (sh : Sheet) (c : Nat), s.held = false → s.mem.raw = [r] → s.domOn (uncoreDom r.die) = true →
    r.req.dst = .cluster c → sh = decodeSheet r.t r.req.sheet r.data r.code →
    ∃ t, exec (.rawSheetDecode r.die r.req.sheet) s = .next t ∧ t.mem.raw = [] ∧
      t.dir.flight = s.dir.flight ++ [.data c (2 * r.req.sheet + b2n r.req.upper) (sh.bad r.req.upper) false (sh.line r.req.upper)] ∧
      (sh.out = .clean ∨ sh.out = .corrected → t.mem.reports = s.mem.reports ++ [.writeBack r.die r.req.sheet sh.data]) ∧
      (sh.out = .ue → t.mem.reports = s.mem.reports ++ [.ue r.die r.req.sheet false]) ∧
      (sh.out = .addr → t.mem.reports = s.mem.reports ++ [.ue r.die r.req.sheet true]) ∧ Frame false [.mem, .dir] [] s t) ∧
  (∀ (s u : State) (n die c data : Nat), s.held = false → s.mem.reports = [.writeBack die n data] → c = s.controllerOf n →
    s.domOn (ctlDom c) = true → u = { s with mem := { s.mem with reports := [] } } →
    (∀ e sh, s.corrOf c = [e] → e.sheet = n → e.die = die → sh = decodeSheet (s.strengthOf n) n e.data e.code →
      exec (.correctionWriteback n die) s = .next (((u.setCorr c []).countOutcome n .corrected).putSheet n data sh.lower sh.upper)) ∧
    (s.corrOf c = [] → exec (.correctionWriteback n die) s = .next u)) ∧
  (∀ (s u : State) (n die c : Nat) (addr : Bool) (e : PendCorr), s.held = false → s.mem.reports = [.ue die n addr] →
    c = s.controllerOf n → s.domOn (ctlDom c) = true → u = { s with mem := { s.mem with reports := [] } } → s.corrOf c = [e] →
    e.sheet = n → e.die = die →
    exec (.ueReport n die) s = .next ((u.setCorr c []).countOutcome n (if addr then .addr else .ue))) ∧
  ∀ (s : State) (n die : Nat) (e : PendCorr), s.held = false → s.domOn (ctlDom (s.controllerOf n)) = true →
    s.corrOf (s.controllerOf n) = [e] → e.sheet = n → e.die = die → exec (.correctionTimeout n die) s = .next (s.hubCorrect e)

/-- Clauses: a secure write of MEM_WM within the populated plates that no enabled unit blocks raises the watermarks, takes LOCK, and
starts a lowering where a value falls; a blocked raise sets WM_REFUSED; a write while a lowering runs, and a normal write but for clearing WM_REFUSED,
changes nothing; the lowering's end zeroes the released plates and applies; a secure write of another T starts a recode, one out of range or during a
recode sets T_REFUSED; the recode ends with the old strength replaced; the initialisation walk leaves the controller's memory zero and clean. -/
def Obligations.PlatesWalkAndChangeStrength : Prop :=
  (∀ (s : State) (v h d : Nat), s.takesWrite .secure .MEM_WM = true → s.is F.MEM_WM.WM_BUSY = false → v.testBit 33 = false →
    s.is F.MEM_WM.LOCK = false → h = bits v 0 8 → d = bits v 8 12 → h ≤ s.hw.hbmPlates → d ≤ s.ddrPlates →
    (s.raiseBlocked h d = true → s.ctlPopulated 0 = true → exec (.memWmWrite .secure v) s =
      .next ((s.wr F.MEM_WM.WM_REFUSED 0 1).raise F.MEM_CTL_STATUS.EVT_MISC 0)) ∧
    (s.raiseBlocked h d = false → ∃ u, u = ((s.wr F.MEM_WM.HBM_WM 0 (max h (s.rd F.MEM_WM.HBM_WM))).wr F.MEM_WM.DDR_WM 0
        (max d (s.rd F.MEM_WM.DDR_WM))).when (v.testBit 31) (·.wr F.MEM_WM.LOCK 0 1) ∧
      (s.rd F.MEM_WM.HBM_WM ≤ h → s.rd F.MEM_WM.DDR_WM ≤ d → exec (.memWmWrite .secure v) s = .next u) ∧
      (h < s.rd F.MEM_WM.HBM_WM ∨ d < s.rd F.MEM_WM.DDR_WM → exec (.memWmWrite .secure v) s =
        .next (State.wr { u with mem := { u.mem with wmReq := some (h, d) } } F.MEM_WM.WM_BUSY 0 1)))) ∧
  (∀ (s : State) (src : Src) (v : Nat), s.takesWrite src .MEM_WM = true →
    (s.is F.MEM_WM.WM_BUSY = true → exec (.memWmWrite src v) s = .next s) ∧
    (s.is F.MEM_WM.WM_BUSY = false → isSecure src = false → v.testBit 33 = true →
      exec (.memWmWrite src v) s = .next (s.wr F.MEM_WM.WM_REFUSED 0 0))) ∧
  (∀ (s : State) (h d : Nat), s.held = false → s.mem.wmReq = some (h, d) → h < 2 ^ 8 → d < 2 ^ 12 →
    h < s.rd F.MEM_WM.HBM_WM → d < s.rd F.MEM_WM.DDR_WM →
    ∃ t, exec .wmWalkDone s = .next t ∧ t.rd F.MEM_WM.HBM_WM = h ∧ t.rd F.MEM_WM.DDR_WM = d ∧ t.rd F.MEM_WM.WM_BUSY = 0 ∧
      t.mem.wmReq = none ∧ ∀ a, (h * 2 ^ 30 ≤ a ∧ a < s.rd F.MEM_WM.HBM_WM * 2 ^ 30) ∨
        (2 ^ 42 + d * 2 ^ 30 ≤ a ∧ a < 2 ^ 42 + s.rd F.MEM_WM.DDR_WM * 2 ^ 30) → t.memByte a = 0) ∧
  (∀ (s : State) (p v : Nat), p < 192 → s.takesWrite .secure .MEM_PLATE_CFG_H p = true → v.testBit 14 = false →
    (s.is F.MEM_RECODE.ACTIVE 0 = false → 1 ≤ bits v 0 5 → bits v 0 5 ≤ 12 → bits v 0 5 ≠ s.rd F.MEM_PLATE_CFG_H.T p →
      exec (.plateTWrite .secure false p v) s =
        .next ((((((s.wr F.MEM_PLATE_CFG_H.T_OLD p (s.rd F.MEM_PLATE_CFG_H.T p)).wr F.MEM_PLATE_CFG_H.T p (bits v 0 5)).wr
          F.MEM_PLATE_CFG_H.RECODE p 1).wr F.MEM_RECODE.PLATE 0 p).wr F.MEM_RECODE.ACTIVE 0 1).wr F.MEM_RECODE.POINTER 0 0)) ∧
    (s.is F.MEM_RECODE.ACTIVE 0 = true ∨ bits v 0 5 = 0 ∨ 12 < bits v 0 5 → exec (.plateTWrite .secure false p v) s =
      .next ((s.wr F.MEM_PLATE_CFG_H.T_REFUSED p 1).memEvent false F.MEM_CTL_STATUS.EVT_MISC))) ∧
  (∀ (s : State) (p v : Nat), p < 2048 → s.takesWrite .secure .MEM_PLATE_CFG_D p = true → v.testBit 14 = false →
    s.is F.MEM_RECODE.ACTIVE 1 = false → 1 ≤ bits v 0 5 → bits v 0 5 ≤ 24 → bits v 0 5 = s.rd F.MEM_PLATE_CFG_D.T p →
    exec (.plateTWrite .secure true p v) s = .next s) ∧
  (∀ (s : State) (p : Nat), s.held = false → s.is F.MEM_RECODE.ACTIVE 1 = true → p = s.rd F.MEM_RECODE.PLATE 1 → s.mem.code = [] →
    exec (.recodeDone 1) s = .next ((((((s.wr F.MEM_PLATE_CFG_D.RECODE p 0).wr F.MEM_PLATE_CFG_D.T_OLD p
      (s.rd F.MEM_PLATE_CFG_D.T p)).wr F.MEM_RECODE.PLATE 1 0).wr F.MEM_RECODE.ACTIVE 1 0).wr
      F.MEM_RECODE.POINTER 1 0).memEvent true F.MEM_CTL_STATUS.EVT_WALK)) ∧
  ∀ (s : State) (c : Nat), s.held = false → s.mem.initWalk.contains c = true → s.domOn (ctlDom c) = true →
    ∃ t, exec (.initWalkDone c) s = .next t ∧ t.rd F.MEM_CTL_STATUS.INIT_DONE c = 1 ∧ t.rd F.MEM_CTL_STATUS.EVT_WALK c = 1 ∧
      (∀ a, s.controllerOf (sheetOf a) = c → t.memByte a = 0) ∧
      (∀ a, s.controllerOf (sheetOf a) ≠ c → t.memByte a = s.memByte a) ∧
      (∀ n, s.controllerOf n = c → t.codeOf n = SheetCode.clean) ∧
      Frame true [.mem] [F.MEM_CTL_STATUS.INIT_DONE.at c, F.MEM_CTL_STATUS.EVT_WALK.at c] s t

/-- Clauses, for a guest port that is up: a request within one line that a window covers, with nothing waiting and tokens enough, is
charged its length and goes on the fabric; with too few tokens it waits; one outside the windows is counted and answered with
status 4; a request that crosses its line, and BAD_MSG, are counted; a grant lets the oldest waiting request go on; a beat of the tick's
period sends H_TICK; a window in populated memory is enabled, another raises EVT_REFUSED. -/
def Obligations.StencilPassesGuestRequests : Prop :=
  (∀ (s u : State) (g : Nat) (q : GuestReq) (refill : Nat), s.guestUp g = true → q.tag < 2 ^ 16 →
    q.len = (if q.write then q.data.length else q.len) → (q.write = false → q.data = []) →
    u = s.setGuest g { s.guest g with spent := (s.guest g).spent - refill } →
    ∀ i, i = (if q.write then Instr.gWr g q.tag q.addr q.data refill else .gRd g q.tag q.addr q.len refill) →
    (1 ≤ q.len → q.addr % 128 + q.len ≤ 128 → q.addr < 2 ^ 64 →
      (u.stnPass g q.write q.addr q.len = true → (u.guest g).waiting = [] → q.len ≤ u.stnTokens g →
        exec i s = .next ((u.setGuest g { u.guest g with spent := (u.guest g).spent + q.len }).guestIssue g q)) ∧
      (u.stnPass g q.write q.addr q.len = true → u.stnTokens g < q.len →
        exec i s = .next (u.setGuest g { u.guest g with waiting := (u.guest g).waiting ++ [q] })) ∧
      (u.stnPass g q.write q.addr q.len = false → exec i s =
        .next (((u.inc F.STN_CNT0.DENIED g).raise F.STN_STATUS.EVT_DENIED g).toGuest g (.cpl q.tag 4 [])))) ∧
    (q.len = 0 ∨ 128 < q.addr % 128 + q.len → exec i s = .next (u.inc F.STN_CNT1.BAD_MSG g))) ∧
  (∀ (s : State) (g : Nat) (q : GuestReq), s.fabricCheck false q.addr = .none → ∃ t, s.guestIssue g q = t ∧ t.regs = s.regs ∧
    t.dir.flight = s.dir.flight ++ [.req (Request.mk (if q.write then .ioWr else .ioRd) (q.addr / 128) (.guest g) none
      (q.data.zipIdx.map (fun p => (q.addr % 128 + p.2, p.1))) false q.tag (q.addr % 128) q.len)] ∧
    Frame false [.dir] [] s t) ∧
  (∀ (s u : State) (g refill cycles : Nat) (q : GuestReq) (l : List GuestReq), s.guestUp g = true → (s.guest g).waiting = q :: l →
    u = (s.setGuest g { s.guest g with spent := (s.guest g).spent - refill }).inc F.STN_CNT0.THROTTLED g cycles →
    u.stnPass g q.write q.addr q.len = true →
    (q.len ≤ u.stnTokens g → exec (.stencilTokenGrant g refill cycles) s =
      .next ((u.setGuest g { u.guest g with waiting := l, spent := (u.guest g).spent + q.len }).guestIssue g q)) ∧
    (u.stnTokens g < q.len → exec (.stencilTokenGrant g refill cycles) s = .next u)) ∧
  (∀ (s : State) (g : Nat), s.guestUp g = true → exec (.badMsg g) s = .next (s.inc F.STN_CNT1.BAD_MSG g) ∧
    (s.beatRuns = true → s.beatNow % 2 ^ s.rd F.STN_CFG.TICKDIV g = 0 →
      exec (.guestTick g) s = .next (s.toGuest g (.tick s.beatNow)))) ∧
  ∀ (s : State) (g w v i : Nat), g < 2 → w < 8 → i = 8 * g + w → s.takesWrite .secure .STN_WIN i = true → v % 2 = 1 →
    s.is F.STN_WIN.EN i = false →
    (s.winFits (bits v 12 34) (s.rd F.STN_WIN_LIMIT.LIMIT i) = true → exec (.stnWinEnable .secure g w v) s =
      .next ((((s.wr F.STN_WIN.RD i (bits v 1 1)).wr F.STN_WIN.WR i (bits v 2 1)).wr F.STN_WIN.BASE i (bits v 12 34)).wr
        F.STN_WIN.EN i 1)) ∧
    (s.winFits (bits v 12 34) (s.rd F.STN_WIN_LIMIT.LIMIT i) = false → exec (.stnWinEnable .secure g w v) s =
      .next (s.raise F.STN_STATUS.EVT_REFUSED g))

/-- Clauses, for a guest port that is up: with OPEN and TRIG_EN a trigger word for a later beat, not too far ahead and not before
the last load, is held for its beat and offered to the path, any other is counted TRIG_DROP; a fragment chunk joins the fragment the
guest owes to the named event, and without such an event GUEST_STALE is counted; a completion answers the core access of its tag, and
one without an access is counted BAD_MSG; a load without answer ends in a fault of the core, counted with EVT_TMO. -/
def Obligations.GuestsSendTriggersAndFragments : Prop :=
  (∀ (s : State) (g b w : Nat), s.guestUp g = true → s.is F.STN_CFG.OPEN g = true → s.is F.STN_CFG.TRIG_EN g = true →
    ((s.guest g).lastTrig.any (fun l => b ≤ l) = false → b ≤ s.beatNow + 4096 → s.beforeLoad b = false →
      exec (.gTrig g b w) s = .next ((s.setGuest g { s.guest g with
        lastTrig := some b, words := Tbl.put (s.guest g).words b (w % 2 ^ 64) }).stencilWord b)) ∧
    (s.beatNow + 4096 < b ∨ s.beforeLoad b = true ∨ (s.guest g).lastTrig.any (fun l => b ≤ l) = true →
      exec (.gTrig g b w) s = .next ((s.inc F.STN_CNT1.TRIG_DROP g).raise F.STN_STATUS.EVT_TRIG_DROP g))) ∧
  (∀ (s : State) (g evn off : Nat) (last : Bool) (data : List (BitVec 8)), s.guestUp g = true → data ≠ [] → data.length ≤ 256 →
    off < 65536 → s.is F.STN_CFG.OPEN g = true → s.is F.STN_CFG.FRAG_EN g = true → s.evbLive = true →
    (s.fragEvent g evn = none → exec (.gFrag g evn off last data) s =
      .next ((s.inc F.EVB_CNT2.GUEST_STALE).raise F.EVB_STATUS.EVT_GUEST_STALE)) ∧
    (∀ c e, s.fragEvent g evn = some (c, e) → 256 * off + data.length ≤ 65536 → exec (.gFrag g evn off last data) s =
      .next (((s.setEvent c { e with frags := e.frags.map (fun f => if f.source = 256 + g then f.take off last data else f) }).readyCheck
        c).evbSettle))) ∧
  (∀ (s : State) (g tag status : Nat) (data : List (BitVec 8)), s.guestUp g = true →
    ((s.guest g).access = [] → exec (.gCpl g tag status data) s = .next (s.inc F.STN_CNT1.BAD_MSG g)) ∧
    (∀ a, (s.guest g).access = [a] → a.tag = tag → ∃ u, u = s.setGuest g { s.guest g with access := [] } ∧
      (a.write = true → exec (.gCpl g tag status data) s = .next u) ∧
      (a.write = false → status = 0 → exec (.gCpl g tag status data) s = .next (u.ioDone a.core (some data))) ∧
      (a.write = false → status ≠ 0 → exec (.gCpl g tag status data) s = .next (u.ioDone a.core none)))) ∧
  ∀ (s u : State) (g : Nat) (a : GuestAccess), g < 2 → s.held = false → (s.guest g).access = [a] → a.late = false →
    u = (s.inc F.STN_CNT1.TMO g).raise F.STN_STATUS.EVT_TMO g →
    (a.write = false → exec (.guestAccessTimeout g a.tag) s =
      .next ((u.setGuest g { u.guest g with access := [] }).ioDone a.core none)) ∧
    (a.write = true → exec (.guestAccessTimeout g a.tag) s =
      .next (u.setGuest g { u.guest g with access := [{ a with late := true }] }))

/-- Clauses: a link up sets its speed, width and mode and EVT_LINK, and below 32 GT/s or 16 lanes DEGRADED; link down, PERST# and hot
reset are counted and take link and function down; PERST#'s release lets the port train; an FLR counts, resets the function keeping
the BAR sizes, and lasts until its end; D3hot is entered, and left by an FLR.  The function's reset leaves no DMA, no
translation, no output and an empty mailbox. -/
def Obligations.PcieLinksAndResets : Prop :=
  (∀ (s : State) (p : Nat), s.pcieLive p = true →
    (∀ speed width flit, (s.port p).perst = false → s.is F.HIF_PORT_STATUS.LINK_UP p = false → ∃ u, u = ((((s.wr F.HIF_PORT_STATUS.LINK_UP p 1).wr
      F.HIF_PORT_STATUS.SPEED p speed).wr F.HIF_PORT_STATUS.WIDTH p width).wr F.HIF_PORT_STATUS.FLIT p (b2n flit)).raise
        F.HIF_PORT_STATUS.EVT_LINK p ∧
      (3 < speed → 16 ≤ width → exec (.pcieLinkUp p speed width flit) s = .next u) ∧
      (speed ≤ 3 ∨ width < 16 → exec (.pcieLinkUp p speed width flit) s =
        .next ((u.wr F.HIF_PORT_STATUS.DEGRADED p 1).raise F.HIF_PORT_STATUS.EVT_DEGRADED p))) ∧
    ((s.port p).perst = false → exec (.perstAssert p) s =
      .next ((((s.setPort p { s.port p with perst := true }).inc F.HIF_PORT_CNT2.PERSTS p).linkDown p).conventionalReset p)) ∧
    (s.is F.HIF_PORT_STATUS.LINK_UP p = true →
      exec (.hotReset p) s = .next (((s.inc F.HIF_PORT_CNT2.HOT_RESETS p).linkDown p).conventionalReset p) ∧
      (s.is F.HIF_PORT_STATUS.FW_READY p = true → (s.port p).flr = false →
        exec (.flr p) s = .next (s.startFlr p) ∧
        exec (.powerStateChange p true) s = .next ((s.wr F.HIF_PORT_STATUS.DSTATE p 3).setCfg p 0x44 3) ∧
        (s.rd F.HIF_PORT_STATUS.DSTATE p = 3 → exec (.powerStateChange p false) s = .next (s.startFlr p))))) ∧
  (∀ (s : State) (p : Nat), s.is F.HIF_PORT_STATUS.LINK_UP p = true →
    exec (.pcieLinkDown p) s = .next ((s.linkDown p).conventionalReset p) ∧
    s.linkDown p = ((((((s.wr F.HIF_PORT_STATUS.LINK_UP p 0).wr F.HIF_PORT_STATUS.SPEED p 0).wr F.HIF_PORT_STATUS.WIDTH p 0).wr
      F.HIF_PORT_STATUS.FLIT p 0).wr F.HIF_PORT_STATUS.DEGRADED p 0).inc F.HIF_PORT_CNT2.LINK_DOWNS p).raise
      F.HIF_PORT_STATUS.EVT_LINK p) ∧
  (∀ (s : State) (p : Nat), exec (.perstDeassert p) s = .next (s.setPort p { s.port p with perst := false }) ∧
    exec (.flrDone p) s = .next (s.setPort p { s.port p with flr := false }) ∧
    s.startFlr p = ((s.inc F.HIF_PORT_CNT2.FLRS p).functionReset p true).setPort p
      { ((s.inc F.HIF_PORT_CNT2.FLRS p).functionReset p true).port p with flr := true } ∧
    s.conventionalReset p = (s.functionReset p false).setPort p { (s.functionReset p false).port p with flr := false }) ∧
  ∀ (s : State) (p : Nat) (keep : Bool), (s.functionReset p keep).rd F.HIF_PORT_STATUS.DSTATE p = 0 ∧
    (s.functionReset p keep).rd F.HIF_PORT_STATUS.EVT_RESET p = 1 ∧ ((s.functionReset p keep).port p).dma = [] ∧
    ((s.functionReset p keep).port p).xlatReqs = [] ∧ ((s.functionReset p keep).port p).cache = [] ∧
    ((s.functionReset p keep).port p).doe = DoeBox.init

/-- Clauses, for a function that answers: a configuration write changes the writable bits under its byte enables and clears written
ones of write-one-clear bits; a DOE mailbox word enters the mailbox; RECOVER's key on port 0 sets the pending reset and EVT_RECOVER
once, another value does nothing; its timeout is a warm reset of cause 7; BAR4 reads and writes reach memory at the selected base, or
are refused with Completer Abort or dropped and counted; each error is logged as its row says; a margining command's status is set. -/
def Obligations.PcieConfigurationAndBar4 : Prop :=
  (∀ (s : State) (p be v : Nat), s.cfgOpen p = true →
    exec (.configWrite p 0x3C be v) s = .next (s.setCfg p 0x3C (maskWrite (s.cfg p 0x3C) v (0xFF &&& beMask be) &&& 0xFFFFFFFF)) ∧
    exec (.configWrite p 0x104 be v) s = .next (s.setCfg p 0x104 (maskWrite (s.cfg p 0x104) v (0 &&& beMask be) &&&
      (0xFFFFFFFF ^^^ (v &&& beMask be &&& 0x007FF030)))) ∧
    (∃ u, u = s.setCfg p 0x2B8 (maskWrite (s.cfg p 0x2B8) v (0 &&& beMask be) &&& (0xFFFFFFFF ^^^ (v &&& beMask be &&& 0))) ∧
      exec (.configWrite p 0x2B8 be v) s =
        .next (u.setPort p { u.port p with doe := { (u.port p).doe with inbox := (u.port p).doe.inbox ++ [v % 2 ^ 32] } }))) ∧
  (∀ (s : State), s.cfgOpen 0 = true →
    (s.hif.recPending = false → exec (.dvsecRecover 0 0x5741524D) s = .next (State.raise { s with hif := { s.hif with
      recPending := true, recovers := satAdd 16 s.hif.recovers 1, recCause := 6 } } F.HIF_PORT_STATUS.EVT_RECOVER)) ∧
    (s.hif.recPending = true → exec (.dvsecRecover 0 0x5741524D) s = .next s) ∧
    ∀ v, v ≠ 0x5741524D → exec (.dvsecRecover 0 v) s = .next s) ∧
  (∀ (s : State), s.hif.recPending = true → exec .recoverTimeout s = .next (s.warmReset 7)) ∧
  (∀ (s : State) (p lane v : Nat), s.cfgOpen p = true → 4 ≤ s.rd F.HIF_PORT_STATUS.SPEED p → lane < 16 →
    exec (.laneMargining p lane v) s = .next (s.setCfg p (0x268 + 4 * lane) (v % 65536 + (v % 65536) <<< 16))) ∧
  (∀ (s : State) (p tag off len : Nat), s.pcieLive p = true → s.is F.HIF_PORT_STATUS.LINK_UP p = true → (s.port p).flr = false →
    s.barOpen p = true → off + len ≤ barBytes (s.port p).bar4 →
    (s.is F.HIF_PORT_CFG.BAR4_EN p = false →
      exec (.bar4Read p tag off len) s = .next ((s.aerUnc p .abort []).sendTlp p (.cpl tag 4 false []))) ∧
    (∀ a u, s.is F.HIF_PORT_CFG.BAR4_EN p = true → s.devRead p false (s.bar4Addr p off) len = (a, u) → a.why = .none → a.bad = [] →
      exec (.bar4Read p tag off len) s = .next (u.sendTlp p (.cpl tag 0 false a.data)))) ∧
  (∀ (s : State) (p off : Nat) (data : List (BitVec 8)) (ep : Bool), s.barOpen p = true →
    off + data.length ≤ barBytes (s.port p).bar4 →
    (s.is F.HIF_PORT_CFG.BAR4_EN p = false → exec (.bar4Write p off data false) s = .next (s.inc F.HIF_PORT_CNT1.DROPPED_WR p)) ∧
    (∀ u, s.is F.HIF_PORT_CFG.BAR4_EN p = true → s.devWrite p false (s.bar4Addr p off) data ep = (.none, u) →
      exec (.bar4Write p off data ep) s = .next (if ep then u.aerUnc p .poisoned [] else u))) ∧
  ∀ (s : State) (p : Nat) (h : List Nat), s.pcieLive p = true → s.is F.HIF_PORT_STATUS.LINK_UP p = true →
    exec (.tlpError p .badTlp h) s = .next (((s.setCfg p 0x110 (setBit (s.cfg p 0x110) 6)).inc F.HIF_PORT_CNT0.CORR p).raise
      F.HIF_PORT_STATUS.EVT_CORR p) ∧
    exec (.tlpError p .malformed h) s = .next (s.aerUnc p .malformed h) ∧
    exec (.tlpError p .unexpectedCompletion h) s = .next ((s.aerUnc p .unexpected h).inc F.HIF_PORT_CNT1.UNEXP_CPL p) ∧
    ∃ u, u = (s.aerUnc p .internal h).haltPort p ∧
      exec (.tlpError p .uncorrectableInternal h) s = .next (u.setPort p { u.port p with internalErr := true })

/-- Clauses, for a live port with its link up: a completion of a read gives its data to the ring or the core that asked, with its poison;
an unsuccessful one is logged and fails it; one of no read is logged and counted; a timeout is logged, counted and fails the read; a
translation that grants what was asked is cached; an invalidation removes the entries, and is answered when no read used them. -/
def Obligations.DmaAndTranslationsComplete : Prop :=
  (∀ (s : State) (p tag status : Nat) (ep : Bool) (data : List (BitVec 8)), s.pcieLive p = true →
    s.is F.HIF_PORT_STATUS.LINK_UP p = true →
    ((s.port p).dma = [] → exec (.dmaCompletion p tag status ep data) s =
      .next ((s.aerUnc p .unexpected []).inc F.HIF_PORT_CNT1.UNEXP_CPL p)) ∧
    (∀ d u, (s.port p).dma = [d] → d.tag = tag → d.owner < 8192 → u = s.setPort p { s.port p with dma := [] } →
      (status = 0 → ep = false → exec (.dmaCompletion p tag status ep data) s = .next ((u.setRing d.owner { u.ring d.owner with
        buf := (u.ring d.owner).buf ++ [DmaData.mk d.addr (data.take d.len) false] }).settleInval p)) ∧
      (status = 4 → exec (.dmaCompletion p tag status ep data) s =
        .next (((u.aerUnc p .abort []).dmaFailed d.owner csABORTED).settleInval p))) ∧
    (∀ d u, (s.port p).dma = [d] → d.tag = tag → 8192 ≤ d.owner → u = s.setPort p { s.port p with dma := [] } →
      (status = 0 → ep = false → exec (.dmaCompletion p tag status ep data) s =
        .next ((u.ioDone (d.owner - 8192) (some data)).settleInval p)) ∧
      (status = 0 → ep = true → exec (.dmaCompletion p tag status ep data) s =
        .next (((u.aerUnc p .poisoned []).ioPoison (d.owner - 8192)).settleInval p)))) ∧
  (∀ (s : State) (p : Nat) (d : DmaRead), (s.port p).dma = [d] → d.owner < 8192 → exec (.dmaCompletionTimeout p d.tag) s =
    .next ((((((s.setPort p { s.port p with dma := [] }).aerUnc p .cplTimeout []).inc F.HIF_PORT_CNT1.CPL_TMO p).raise
      F.HIF_PORT_STATUS.EVT_CPL_TMO p).dmaFailed d.owner csTIMEOUT).settleInval p)) ∧
  (∀ (s : State) (p frame : Nat) (read write : Bool) (q : Xlat), s.pcieLive p = true → s.is F.HIF_PORT_STATUS.LINK_UP p = true →
    (s.port p).xlatReqs = [q] → (s.port p).cache = [] → q.owner < 8192 →
    ((read = true ∨ q.read = false) → (write = true ∨ q.write = false) →
      exec (.translationCompletion p q.tag true frame read write) s =
        .next (s.setPort p { s.port p with xlatReqs := [], cache := [Xlat.mk 0 0 q.pasid q.page frame read write] })) ∧
    exec (.translationCompletion p q.tag false frame read write) s =
      .next ((s.setPort p { s.port p with xlatReqs := [] }).dmaFailed q.owner csABORTED)) ∧
  ∀ (s : State) (p itag pasid page count : Nat), s.pcieLive p = true → s.is F.HIF_PORT_STATUS.LINK_UP p = true →
    ((s.port p).flr = true → exec (.atsInvalidation p itag pasid page count) s = .next (s.sendTlp p (.invalidateCpl itag))) ∧
    ((s.port p).flr = false → (s.port p).dma = [] → exec (.atsInvalidation p itag pasid page count) s =
      .next ((s.setPort p { s.port p with
        cache := (s.port p).cache.filter (fun e => !(e.pasid == some pasid && page ≤ e.page && e.page < page + count)),
        inval := (s.port p).inval ++ [(itag, [])] }).settleInval p))

/-- `doeReply` makes an object of vendor 1 and the type the outbox and empties the inbox; `spdmReply` adds request and response to the
transcript first; `spdmStage` moves the stage.  Free values (sizes, times, value types, nonces: log 19) stand for themselves. -/
def Obligations.MailboxAndSpdmAnswer : Prop :=
  (∀ (s : State) (p type : Nat) (body pad : List (BitVec 8)), pad = body ++ List.replicate ((4 - body.length % 4) % 4) 0 →
    s.doeReply p type body = s.setPort p { s.port p with doe := { (s.port p).doe with
      inbox := [], outbox := natLE 2 1 ++ natLE 1 type ++ natLE 1 0 ++ natLE 4 (2 + pad.length / 4) ++ pad } }) ∧
  (∀ (s : State) (p : Nat), s.doeOpen p = true →
    exec (.doeDiscovery p 0) s = .next (s.doeReply p 0 (natLE 2 1 ++ natLE 1 0 ++ natLE 1 1)) ∧
    exec (.doeDiscovery p 1) s = .next (s.doeReply p 0 (natLE 2 1 ++ natLE 1 1 ++ natLE 1 0)) ∧
    exec (.doeAbort p) s = .next (s.setPort p { s.port p with doe := { (s.port p).doe with inbox := [], outbox := [] } }) ∧
    (∀ code, exec (.spdmUnsupportedRequest p code) s = .next (s.doeReply p 1 (spdmMsg 0x7F 0x07 code []))) ∧
    (∃ u, u = (s.spdmStage p 1).setPort p { (s.spdmStage p 1).port p with doe := { ((s.spdmStage p 1).port p).doe with transcript := [] } } ∧
      exec (.getVersion p) s =
        .next (u.spdmReply p (natLE 4 0x00008410) (natLE 4 0x00000410 ++ natLE 2 0x0100 ++ natLE 2 0x1200)))) ∧
  (∀ (s : State) (p : Nat) (req : List (BitVec 8)), s.doeOpen p = true → 1 ≤ (s.port p).doe.stage →
    ∃ ct size big t u, exec (.getCapabilities p req) s = .next t ∧ Frame false [.fresh] [] (s.spdmStage p 2) u ∧ t = u.spdmReply p req
      (spdmMsg 0x61 0 0 (natLE 1 0 ++ natLE 1 ct ++ natLE 2 0 ++ natLE 4 0x16 ++ natLE 4 size ++ natLE 4 big))) ∧
  (∀ (s : State) (p : Nat) (req : List (BitVec 8)), s.doeOpen p = true → 2 ≤ (s.port p).doe.stage →
    exec (.negotiateAlgorithms p req) s = .next ((s.spdmStage p 3).spdmReply p req (spdmMsg 0x63 0 0 (natLE 2 36 ++ natLE 1 1 ++
      natLE 1 0 ++ natLE 4 0x80 ++ natLE 4 0x200 ++ natLE 4 0x40 ++ natLE 16 0)))) ∧
  (∀ (s : State) (p : Nat), s.doeOpen p = true → (s.port p).doe.stage < 3 →
    exec (.getDigests p) s = .next (s.doeReply p 1 (spdmMsg 0x7F 0x04 0 []))) ∧
  ∀ (s u : State) (p : Nat), s.doeOpen p = true → 3 ≤ (s.port p).doe.stage → u = s.spdmStage p 3 →
    exec (.getDigests p) s = .next (u.spdmReply p (natLE 4 0x00008112) (spdmMsg 0x01 0 u.slotMask
      (((List.range 2).filter u.slotHeld).flatMap (fun k => Config.sm3 (u.certChain k))))) ∧
    (∀ slot off len part, u.slotHeld slot = true → off < (u.certChain slot).length →
      part = ((u.certChain slot).drop off).take (min len 4000) → exec (.getCertificate p slot off len) s =
        .next (u.spdmReply p (natLE 1 0x12 ++ natLE 1 0x82 ++ natLE 1 slot ++ natLE 1 0 ++ natLE 2 off ++ natLE 2 len)
          (spdmMsg 0x02 slot 0 (natLE 2 part.length ++ natLE 2 ((u.certChain slot).length - off - part.length) ++ part)))) ∧
    (∀ slot nonce mine v req body, u.slotHeld slot = true → nonce.length = 32 → u.freshNonce = (mine, v) →
      req = natLE 1 0x12 ++ natLE 1 0x83 ++ natLE 1 slot ++ natLE 1 0 ++ nonce →
      body = spdmMsg 0x03 slot v.slotMask (Config.sm3 (v.certChain slot) ++ mine ++ natLE 2 0) →
      exec (.challenge p slot nonce) s = .next (v.spdmReply p req (body ++
        v.spdmSign "responder-challenge_auth signing" ((v.port p).doe.transcript ++ req ++ body)))) ∧
    ∀ (index : Nat) (ks : List Nat) rec' v mine w, index ≤ 22 → ks = (if index = 0 then [] else [index]) → u.measBlocks ks = (rec', v) →
      v.freshNonce = (mine, w) → exec (.getMeasurements p index 0 false []) s = .next (w.spdmReply p
        (natLE 1 0x12 ++ natLE 1 0xE0 ++ natLE 1 0 ++ natLE 1 index)
        (spdmMsg 0x60 (if index = 0 then 22 else 0) 0 (natLE 1 ks.length ++ natLE 3 rec'.length ++ rec' ++ mine ++ natLE 2 0)))

/-- Clauses: a valid EN = 1 makes a disabled ring RUNNING with zero indexes and a new epoch, an invalid one raises EVT_REFUSED and
changes nothing else; EN = 0 disables; RESUME runs a halted ring; a doorbell of the right epoch within the window moves SQ_PI or
CQ_CI, one of a stale epoch is counted; a published descriptor is read and starts; a due completion with room is written at CQ_PI; the moderation time
signals; NOP completes; DMA_COPY copies, or is INVALID of no bytes. -/
def Obligations.RingsFetchRunAndComplete : Prop :=
  (∀ (s t u : State) (src : Src) (r v : Nat), s.isManager src = true → r < 8192 → s.takesWrite src .HIF_RING_CFG r = true →
    s.is F.HIF_RING_CFG.EN r = false → v.testBit 0 = true →
    t = ((((s.wr F.HIF_RING_CFG.PORT r (bits v 1 1)).wr F.HIF_RING_CFG.SQ_LOG r (bits v 3 5)).wr F.HIF_RING_CFG.CQ_LOG r
      (bits v 8 5)).wr F.HIF_RING_CFG.DBI r (bits v 32 9)).ringOwner r (bits v 16 8) →
    u = (((((t.wr F.HIF_RING_CFG.EN r 1).bump F.HIF_RING_CFG.ROLE_EPOCH r).wr F.HIF_RING_IDX.SQ_PI r 0).wr F.HIF_RING_IDX.SQ_CI r
      0).wr F.HIF_RING_IDX.CQ_PI r 0).wr F.HIF_RING_IDX.CQ_CI r 0 →
    (t.ringValid r = true → exec (.ringEnable src r v) s = .next ((u.setRing r Ring.init).ringGo r rsRUNNING)) ∧
    (t.ringValid r = false → exec (.ringEnable src r v) s = .next (s.raise F.HIF_RING_STATUS.EVT_REFUSED))) ∧
  (∀ (s : State) (src : Src) (r v : Nat), s.isManager src = true → r < 8192 → s.takesWrite src .HIF_RING_CFG r = true →
    (s.is F.HIF_RING_CFG.EN r = true → v.testBit 0 = false → exec (.ringEnable src r v) s =
      .next (((((s.abandonUnits r).setRing r Ring.init).wr F.HIF_RING_CFG.EN r 0).bump F.HIF_RING_CFG.ROLE_EPOCH r).ringGo r
        rsDISABLED)) ∧
    (s.ringState r = rsHALTED → (s.port (s.ringPort r)).internalErr = false → (s.ring r).held = none →
      exec (.ringResume src r) s = .next ((s.setRing r (s.ring r)).ringGo r rsRUNNING))) ∧
  (∀ (s : State) (r v : Nat), s.ringLive = true → s.held = false → r < 8192 →
    v / 65536 % 65536 = s.rd F.HIF_RING_CFG.ROLE_EPOCH r → s.ringState r = rsRUNNING →
    (v % 65536 < s.sqSize r → (s.rd F.HIF_RING_IDX.SQ_PI r + s.sqSize r - s.rd F.HIF_RING_IDX.SQ_CI r) % s.sqSize r ≤
        (v % 65536 + s.sqSize r - s.rd F.HIF_RING_IDX.SQ_CI r) % s.sqSize r →
      exec (.sqDoorbell (.window .secure r) v) s = .next ((s.dbServed 2).wr F.HIF_RING_IDX.SQ_PI r (v % 65536))) ∧
    (v % 65536 < s.cqSize r → (v % 65536 + s.cqSize r - s.rd F.HIF_RING_IDX.CQ_CI r) % s.cqSize r ≤
        (s.rd F.HIF_RING_IDX.CQ_PI r + s.cqSize r - s.rd F.HIF_RING_IDX.CQ_CI r) % s.cqSize r →
      exec (.cqDoorbell (.window .secure r) v) s = .next ((s.dbServed 2).wr F.HIF_RING_IDX.CQ_CI r (v % 65536)))) ∧
  (∀ (s : State) (r v : Nat), s.ringLive = true → s.held = false → r < 8192 →
    v / 65536 % 65536 ≠ s.rd F.HIF_RING_CFG.ROLE_EPOCH r → exec (.sqDoorbell (.window .secure r) v) s =
      .next (((s.dbServed 2).inc F.HIF_RING_ST.STALE r).inc F.HIF_RING_CNT0.STALE_DB)) ∧
  (∀ (s : State) (r : Nat), s.ringLive = true → s.is F.HIF_RING_CFG.EN r = true → s.ringState r = rsRUNNING → exec (.descriptorFetch r) s =
    .next (((List.range 8).foldl (fun s _ => s.fetchOne r) s).startNext r)) ∧
  (∀ (s u : State) (r ci : Nat) (d : List (BitVec 8)), s.ringState r = rsRUNNING → ci = s.rd F.HIF_RING_IDX.SQ_CI r →
    ci ≠ s.rd F.HIF_RING_IDX.SQ_PI r → (s.ring r).prefetch.length < 8 → s.cmdRead r 5 (s.sqBase r + 64 * ci) 64 = (.data d [], u) →
    s.fetchOne r = (u.setRing r { u.ring r with
      prefetch := (u.ring r).prefetch ++ [RingCmd.mk ci d none none false]
      buf := (u.ring r).buf.filter (fun b => b.addr ≠ u.sqBase r + 64 * ci) }).wr F.HIF_RING_IDX.SQ_CI r ((ci + 1) % u.sqSize r)) ∧
  (∀ (s u : State) (r st r0 r1 r2 : Nat) (c : RingCmd), s.ringLive = true → s.is F.HIF_RING_CFG.EN r = true → s.cqRoom r = true →
    (s.ring r).cur = some c → c.done = some (st, r0, r1, r2) → c.halt = none →
    s.cmdWrite r 5 (s.cqBase r + 32 * s.rd F.HIF_RING_IDX.CQ_PI r)
      (cplBytes c.slot st (s.ring r).phase false (dget c.desc 4 4) r0 r1 r2) = (.done, u) →
    (((u.cqAdvance r).inc F.HIF_RING_CNT1.COMPLETIONS).signalDue r ((byteAt c.desc 1).testBit 0) false = false →
      exec (.completionWrite r) s = .next ((u.cqAdvance r).inc F.HIF_RING_CNT1.COMPLETIONS)) ∧
    (((u.cqAdvance r).inc F.HIF_RING_CNT1.COMPLETIONS).signalDue r ((byteAt c.desc 1).testBit 0) false = true →
      exec (.completionWrite r) s = .next (((u.cqAdvance r).inc F.HIF_RING_CNT1.COMPLETIONS).ringSignal r))) ∧
  (∀ (s : State) (r : Nat), s.ringLive = true → (s.ring r).pend ≠ 0 → s.rd F.HIF_RING_IRQ.MOD_TIME r ≠ 0 →
    s.is F.HIF_RING_IRQ.IRQ_EN r = true → exec (.irqModTimeout r) s =
      .next ((s.setRing r { s.ring r with pend := 0 }).msix (s.ringPort r) (s.rd F.HIF_RING_IRQ.VECTOR r))) ∧
  (∀ (s : State) (r : Nat), s.hasCmd r 0x00 = true → exec (.nop r) s = .next (s.finish r csOK)) ∧
  ∀ (s u v : State) (r src dst len : Nat) (b : List (BitVec 8)), s.hasCmd r 0x42 = true → src = dget (s.desc r) 8 8 →
    dst = dget (s.desc r) 16 8 → len = dget (s.desc r) 24 4 →
    (len = 0 → exec (.dmaCopy r) s = .next (s.finish r csINVALID)) ∧
    (len ≠ 0 → s.rangeOk (s.ringSlice r) src len = true → s.rangeOk (s.ringSlice r) dst len = true →
      s.allowedPrefix src len = (len, .none) → s.allowedPrefix dst len = (len, .none) → s.cmdRead r 5 src len = (.data b [], u) →
      u.cmdWrite r 5 dst (b.take len) = (.done, v) → exec (.dmaCopy r) s = .next (v.finish r csOK len))

/-- Clauses, with no slice command in transit: a specification that passes every check makes the slice and completes with its epoch; reset
and destruction of a named slice run their first steps and leave the command in transit, and their ends finish it; a quota
within bounds is set; a refused name is STALE or INVALID; the spoof log's oldest entry is returned and removed, zero when empty. -/
def Obligations.SlicesAreMadeAndUnmade : Prop :=
  (∀ (s u : State) (r sl port pasid len : Nat) (b : List (BitVec 8)) (es : List ResEntry), s.hasCmd r 0x01 = true →
    s.hif.admin = none → s.held = false → sl = dget (s.desc r) 8 1 → port = dget (s.desc r) 9 1 → pasid = dget (s.desc r) 12 4 →
    len = dget (s.desc r) 24 4 → s.cmdRead r 5 (dget (s.desc r) 16 8) len = (.data b [], u) → es = specEntries b → sl ≠ 0 →
    port ≤ 1 → pasid ≠ 0 → u.pasidTaken port pasid sl = false → specGood b len = true → disjoint es = true →
    es.all (u.entryAllowed port) = true → (es.filter (·.kind == 4)).length ≤ 16 → u.sliceState sl = slFREE →
    es.all u.entryIdle = true → es.all (u.entryFree port) = true →
    exec (.sliceCreate r) s = .next ((u.sliceMake sl port pasid b).finish r csOK ((u.sliceMake sl port pasid b).sliceEpoch sl))) ∧
  (∀ (s : State) (r op sl : Nat), s.hasCmd r op = true → s.hif.admin = none → s.held = false → sl = dget (s.desc r) 8 1 →
    (op = 0x04 → dget (s.desc r) 10 2 ≠ s.sliceEpoch sl → exec (.sliceReset r) s = .next (s.finish r csSTALE)) ∧
    (op = 0x02 → dget (s.desc r) 10 2 = s.sliceEpoch sl → sl = 0 → exec (.sliceDestroy r) s = .next (s.finish r csINVALID)) ∧
    (dget (s.desc r) 10 2 = s.sliceEpoch sl → s.sliceState sl ≠ slFREE → sl ≠ 0 →
      (op = 0x04 → ∃ u, u = ((s.wr F.HIF_SLICE_CFG.STATE sl slRESETTING).resetRings sl).resetCores sl ∧
        exec (.sliceReset r) s = .next (State.start { u with hif := { u.hif with admin := some (.reset r sl) } } r)) ∧
      (op = 0x02 → ∃ u v, u = ((((s.wr F.HIF_SLICE_CFG.STATE sl slDESTROYING).resetRings sl).resetCores sl).resetStores sl).resetUse sl ∧
        v = u.sliceReturn sl ∧ exec (.sliceDestroy r) s = .next (State.start { v with
          mem := { v.mem with zeroing := (u.platesHeldBy sl).map (fun p => (sl, p)) }
          hif := { v.hif with admin := some (.destroy r sl) } } r))) ∧
    (op = 0x03 → dget (s.desc r) 10 2 = s.sliceEpoch sl → s.sliceState sl ≠ slFREE →
      (dget (s.desc r) 9 1 = 1 → dget (s.desc r) 16 8 ≤ 4096 →
        exec (.sliceQuota r) s = .next ((s.grpLimit sl (dget (s.desc r) 16 8)).finish r csOK)) ∧
      (dget (s.desc r) 9 1 = 2 → dget (s.desc r) 16 8 ≤ 16 →
        exec (.sliceQuota r) s = .next ((s.stpShare sl (dget (s.desc r) 16 8)).finish r csOK)) ∧
      (dget (s.desc r) 9 1 = 2 → 16 < dget (s.desc r) 16 8 → exec (.sliceQuota r) s = .next (s.finish r csINVALID)))) ∧
  (∀ (s u : State) (r sl : Nat), s.ringLive = true → s.held = false →
    (s.hif.admin = some (.reset r sl) → u = ((s.resetStores sl).resetUse sl).startCores sl → exec .sliceResetDone s =
      .next ((((((u.wr F.HIF_SLICE_CFG.STATE sl slACTIVE).bump F.HIF_SLICE_CFG.ROLE_EPOCH sl).inc F.HIF_SLICE_CNT.RESETS sl).raise
        F.HIF_SLICE_STATUS.EVT_RESET_DONE sl).adminEnd r 0x04 sl))) ∧
    (s.hif.admin = some (.destroy r sl) → s.mem.zeroing = [] → exec .sliceDestroyDone s =
      .next ((((((s.wr F.HIF_SLICE_CFG.STATE sl slFREE).bump F.HIF_SLICE_CFG.ROLE_EPOCH sl).wr F.HIF_SLICE_CFG.PORT sl 0).wr
        F.HIF_SLICE_CFG.PASID sl 0).adminEnd r 0x02 sl)))) ∧
  ∀ (s : State) (src : Src), s.takesRead src .HIF_SPOOF_LOG = true →
    (s.hif.spoofLog = [] → exec (.spoofLogRead src) s = .next { s with rdata := 0 }) ∧
    ∀ x l, s.hif.spoofLog = x :: l → exec (.spoofLogRead src) s = .next { s with rdata := x, hif := { s.hif with spoofLog := l } }

/-- Clauses: at the end of a source's interval its held message is sent, without one the interval ends; a message for a hart with room
enters its claim FIFO, with none waiting that could; one for a full FIFO is counted and held; a write of EVC_SRC_CFG that is
not ignored writes its fields, EN staying 1 on source 504, and EN = 0 discards a held message; an ignored one changes nothing. -/
def Obligations.EventMessagesAndSources : Prop :=
  (∀ (s : State) (i : Nat), s.evc.interval.contains i = true →
    (s.evc.held.contains i = true → exec (.eventRateRelease i) s =
      .next (State.sendEvent { s with evc := { s.evc with held := s.evc.held.filter (· ≠ i) } } i)) ∧
    (s.evc.held.contains i = false → exec (.eventRateRelease i) s =
      .next { s with evc := { s.evc with interval := s.evc.interval.filter (· ≠ i) } })) ∧
  (∀ (s : State) (src k : Nat) (l : List EvMsg), s.held = false → s.evc.waiting.find? s.deliverable = none →
    s.hw.site (siteOf k) = true → s.fbit F.ALN_SUMMARY.FENCED 0 (siteOf k) = false →
    s.rd F.PWR_DOM_STATUS.STATE (clusterDom (clusterOf k)) = 0 →
    (s.evc.flight = ⟨src, .hartM k⟩ :: l → (s.hart k).claimM.length < 32 → exec .eventMessageDeliver s =
      .next (State.setHart { s with evc := { s.evc with flight := l } } k { s.hart k with claimM := (s.hart k).claimM ++ [src] })) ∧
    (s.evc.flight = ⟨src, .hartS k⟩ :: l → (s.hart k).claimS.length < 32 → exec .eventMessageDeliver s =
      .next (State.setHart { s with evc := { s.evc with flight := l } } k { s.hart k with claimS := (s.hart k).claimS ++ [src] })) ∧
    (s.evc.flight = ⟨src, .hartS k⟩ :: l → 32 ≤ (s.hart k).claimS.length → ∃ u, u = State.inc { s with evc := { s.evc with flight := l } }
      F.CORE_IRQ_CNT.FIFO_FULL k ∧ exec .eventMessageDeliver s =
        .next { u with evc := { u.evc with waiting := u.evc.waiting ++ [⟨src, .hartS k⟩] } })) ∧
  ∀ (s : State) (src : Src) (i v : Nat), i < 768 → s.takesWrite src .EVC_SRC_CFG i = true →
    (s.srcCfgIgnored src i v = true → exec (.evcSrcCfgWrite src i v) s = .next s) ∧
    (s.srcCfgIgnored src i v = false → isSecure src = true → s.evc.held.contains i = false → exec (.evcSrcCfgWrite src i v) s =
      .next (((((s.wr F.EVC_SRC_CFG.WORLD i (bits v 1 1)).wr F.EVC_SRC_CFG.TTYPE i (bits v 2 2)).wr F.EVC_SRC_CFG.TIDX i (bits v 16 11)).wr
        F.EVC_SRC_CFG.RATE i (bits v 32 16)).wr F.EVC_SRC_CFG.EN i (if i = 504 then 1 else v % 2))) ∧
    (s.srcCfgIgnored src i v = false → isSecure src = false → i ≠ 504 → v % 2 = 0 → s.evc.held.contains i = true →
      ∃ u, u = (((s.wr F.EVC_SRC_CFG.TTYPE i (bits v 2 2)).wr F.EVC_SRC_CFG.TIDX i (bits v 16 11)).wr F.EVC_SRC_CFG.RATE i
        (bits v 32 16)).wr F.EVC_SRC_CFG.EN i 0 ∧ exec (.evcSrcCfgWrite src i v) s =
          .next (State.inc { u with evc := { u.evc with held := u.evc.held.filter (· ≠ i) } } F.EVC_SRC_CNT.DISCARDED i))

/-- Whether an image verifies rests on the opaque SM2 and SM3 (log 4), so each clause on an image says what follows for either answer.  A
rejected image is recorded; a verified one is entered; no verifying slot means recovery; a pushed image is verified when its last byte
has arrived; the release turns four OFF domains ON as one transition; readiness sets both ports and confirms what was booted. -/
def Obligations.BootChainRuns : Prop :=
  (∀ (s : State), s.held = false → s.boot.started = false → s.is F.CKR_STATUS.ROOT_LOCK = true ∨ s.is F.CKR_STATUS.FAIL_CAUSE = true →
    ∃ a b, a = (State.when { s with boot := { s.boot with started := true, kind := 1 } } (s.rd F.CKR_RESET.CAUSE == 3) (·.note 7 0 0)).findDimms ∧
      b = (((a.bootOn (a.bootDomains3 ++ bootDomains4)).alnAutoTrain.profileSelect.profileCkr).enrol) ∧
      ∃ c, c = b.wr F.ALN_CFG.REQ_SIG 0 (b2n b.secRecord.reqSig) ∧
      exec .bootRomStart s = .next (State.wr { c with
          aln := { c.aln with reqSigLoaded := true }
          boot := { c.boot with waitPush := c.is F.GLB_PROFILE.BOOT_SRC && !c.fuses.hostPushOff } } F.SEC_BOOT_STATUS.SOURCE 0
        (b2n (c.is F.GLB_PROFILE.BOOT_SRC && !c.fuses.hostPushOff)))) ∧
  (∀ (s : State), s.chainRuns = true → s.boot.waitPush = false → ∃ o u, s.selectSlot s.boot.kind = (o, u) ∧
    (∀ x, o = some x → exec .stageImageVerify s = .next (u.enterStage s.boot.kind (u.norImage x) (some x))) ∧
    (o = none → exec .stageImageVerify s = .next (u.recovery s.boot.kind))) ∧
  (∀ (s : State) (kind : Nat) (img : List (BitVec 8)), ∃ c, c = s.imgCause kind img ∧ (c = 0 → s.imgVerify kind img = (true, s)) ∧
    (c ≠ 0 → s.imgVerify kind img = (false, (((s.wr F.SEC_BOOT_STATUS.CAUSE 0 c).wr F.SEC_BOOT_STATUS.FAIL_KIND 0 kind).inc
      F.SEC_BOOT_STATUS.FAILS).raise F.SEC_STATUS.EVT_VERIFY_FAIL))) ∧
  (∀ (s : State) (off total : Nat) (data : List (BitVec 8)) (push : Tbl Nat (BitVec 8)), s.chainRuns = true → s.boot.waitPush = true →
    data ≠ [] → data.length ≤ 4096 → s.boot.pushLen = total →
    push = (data.zipIdx.filter (fun b => off + b.2 < total)).foldl (fun t b => Tbl.put t (off + b.2) b.1) s.boot.push →
    (pushWhole push total = false → exec (.pushTransfer off total data) s =
      .next { s with boot := { s.boot with push := push, pushLen := total } }) ∧
    (pushWhole push total = true → ∃ img c u, img = (List.range total).map (fun k => (Tbl.find push k).getD 0) ∧
      c = State.imgCause { s with boot := { s.boot with push := push, pushLen := total } } s.boot.kind img ∧
      u = { s with boot := { s.boot with push := [], pushLen := 0, i3c := c } } ∧
      (c = 0 → exec (.pushTransfer off total data) s = .next (u.enterStage s.boot.kind img none)) ∧
      (c ≠ 0 → exec (.pushTransfer off total data) s = .next (u.imgRejected s.boot.kind c)))) ∧
  (∀ (s : State) (n : Nat) (ds : List Nat), s.calomRuns = true → n < 12 → s.hw.site n = true → s.dieAdmitted n = true →
    s.fbit F.ALN_SUMMARY.FENCED 0 n = false → ds = [5 * n, 5 * n + 1, 5 * n + 2, 5 * n + 3] →
    ds.all (fun d => s.rd F.PWR_DOM_STATUS.STATE d == 2 && !s.inTransition d) = true →
    exec (.computeDieRelease n) s = .next ((ds.foldl (fun s d => s.recordWake d 7) s).enqueue ds 0 7)) ∧
  (∀ (s : State), s.held = false → s.rd F.SEC_BOOT_STATUS.STAGE = 3 → s.domOn 96 = true → s.domOn 97 = true →
    ∃ u, u = ((s.wr F.SEC_BOOT_STATUS.STAGE 0 4).wr F.HIF_PORT_STATUS.FW_READY 0 1).wr F.HIF_PORT_STATUS.FW_READY 1 1 ∧
      exec .fwReady s = .next ([1, 2, 3].foldl State.confirm u) ∧ (s.boot.booted = [] → exec .fwReady s = .next u)) ∧
  (∀ (s u : State) (r slot len : Nat) (img : List (BitVec 8)), s.hasCmd r 0x05 = true → s.hif.admin = none → s.held = false →
    slot = dget (s.desc r) 8 1 → len = dget (s.desc r) 24 4 → slot ≤ 6 → len ≠ 0 →
    s.cmdRead r 5 (dget (s.desc r) 16 8) len = (.data img [], u) →
    (kindMax (slotKind slot) < imgLen img + 256 → exec (.fwWrite r) s = .next (u.finish r csSPACE)) ∧
    (imgLen img + 256 ≤ kindMax (slotKind slot) → ∃ c, c = u.imgCause (slotKind slot) img ∧
      (c ≠ 0 → exec (.fwWrite r) s = .next ((u.imgRejected (slotKind slot) c).finish r csINVALID)) ∧
      (c = 0 → slotKind slot ≤ 3 → u.activeSlot (slotKind slot) = slot → exec (.fwWrite r) s = .next (u.finish r csINVALID)) ∧
      (c = 0 → slotKind slot ≤ 3 → u.activeSlot (slotKind slot) ≠ slot → exec (.fwWrite r) s =
        .next ((State.setSlot { u with boot := { u.boot with nor := Tbl.set u.boot.nor slot (img.take (256 + imgLen img)) [] } } slot
          (SlotMeta.mk (Config.sm3 (img.take 192)) (leAt img 8 4) false true false false)).finish r csOK)))) ∧
  ∀ (s u : State) (r : Nat), s.hasCmd r 0x0A = true → s.hif.admin = none → s.held = false →
    u = (s.wr F.MEM_DDR_CFG.SR_KEEP 0 (dget (s.desc r) 8 1)).finish r csOK →
    exec (.warmReset r) s = .next { u with hif := { u.hif with recPending := true, recCause := 5 } }

/-- Clauses: SET_PROFILE of a slot below 4 is pending, another is INVALID; a good image replaces its slot and the map follows, a bad one is
INVALID; LEDGER_READ writes its 34,400 bytes and completes with them, and is OUT_OF_SPACE in less; PLAN is BUSY while one runs; a
powered hour counts; a sample's temperature above the limit raises EVT_TEMP_HIGH; a die off its request is fenced with cause 10. -/
def Obligations.ProfilesLedgerAndSensors : Prop :=
  (∀ (s : State) (r op p : Nat), s.hasCmd r op = true → s.hif.admin = none → s.held = false → p = dget (s.desc r) 8 1 →
    (op = 0x06 → p < 4 → exec (.setProfile r) s = .next ((s.wr F.GLB_PROFILE.PENDING 0 p).finish r csOK)) ∧
    (op = 0x06 → 4 ≤ p → exec (.setProfile r) s = .next (s.finish r csINVALID)) ∧
    (∀ u img, op = 0x07 → 1 ≤ p → p ≤ 3 → 64 ≤ dget (s.desc r) 24 4 → dget (s.desc r) 24 4 ≤ 65600 →
      s.cmdRead r 5 (dget (s.desc r) 16 8) (dget (s.desc r) 24 4) = (.data img [], u) →
      (profileGood p img = true → exec (.profileWrite r) s = .next ((State.profileMap { u with
        vellum := { u.vellum with profiles := Tbl.set u.vellum.profiles p img [] } }).finish r csOK)) ∧
      (profileGood p img = false → exec (.profileWrite r) s = .next (u.finish r csINVALID))) ∧
    (op = 0x08 → dget (s.desc r) 24 4 < 34400 → exec (.ledgerRead r) s = .next (s.finish r csSPACE)) ∧
    (∀ u, op = 0x08 → 34400 ≤ dget (s.desc r) 24 4 → s.cmdWrite r 5 (dget (s.desc r) 16 8) s.ledgerRecord = (.done, u) →
      exec (.ledgerRead r) s = .next (u.finish r csOK 34400)) ∧
    (op = 0x09 → s.is F.LGR_STATUS.PLANNING = true → exec (.plan r) s = .next (s.finish r csBUSY)) ∧
    (op = 0x09 → s.is F.LGR_STATUS.PLANNING = false → exec (.plan r) s = .next (s.runPlan.finish r csOK))) ∧
  (∀ (s u : State) (readings : List Nat) (ok : Bool) (hour : Nat), s.calomRuns = true → hour = s.rd F.LGR_HOURS.POWERED_HOURS + 1 →
    u = ((s.wr F.LGR_HOURS.POWERED_HOURS 0 hour).readSensors readings hour).slotWrite ok →
    (hour % 1000 ≠ 0 → exec (.poweredHour readings ok) s = .next u) ∧
    (hour % 1000 = 0 → u.is F.LGR_CFG.AUTO_PLAN = true → exec (.poweredHour readings ok) s = .next u.runPlan)) ∧
  (∀ (s : State), s.calomRuns = true → s.lgr.capped = [] →
    exec (.thermalSample [] []) s = .next s ∧
    (∀ t, s.hw.site 0 = true → s.domOn 0 = true → Int.ofNat (100 * s.rd F.LGR_CFG.THROT_C) < t → ∃ u, u =
        (s.ledgerTime secTemp (tempBin t) 1 3600).raise F.LGR_STATUS.EVT_TEMP_HIGH ∧
      exec (.thermalSample [t] []) s = .next (u.capDie 0 |>.ledgerTime secThrottle 1 1 3600))) ∧
  ∀ (s : State) (n : Nat) (x : Nat), s.calomRuns = true → n < 12 → s.hw.site n = true → Tbl.find s.lgr.request n = some x →
    exec (.supplyFence n) s = .next (s.fence n 10)

/-- Clauses.  FW_EN: with nothing halted, no halt pending and no access in flight, a secure write leaves FW_EN the data and EFF the closure of
R456; a normal-world write changes nothing.  NEW asks for a nonce unless a check runs or STATE is 5.  The random source's bytes are
the nonce and STATE becomes 1.  GO in STATE 1 consumes the nonce and STATE becomes 2.  A check whose key and signature are good
grants, another fails: STATE 3, or 4, or 5 at the eighth failure.  CLR clears AUTH_EN. -/
def Obligations.DebugEnablesAndAuthentication : Prop :=
  (∀ (s : State) (v : Nat), s.takesWrite .secure .DBG_EN = true → s.dbg.halted = [] → s.dbg.acc = none →
    s.harts.filter (fun h => h.2.haltPending) = [] → ∃ t, exec (.dbgFwEnWrite .secure v) s = .next t ∧
      t.rd F.DBG_EN.FW_EN = v % 16 ∧ t.rd F.DBG_EN.EFF = effOf (v % 16 ||| s.rd F.DBG_EN.AUTH_EN) s.fuses.secDbgOff ∧
      Frame false [] [F.DBG_EN.FW_EN.at, F.DBG_EN.EFF.at] s t) ∧
  (∀ (s : State) (src : Src) (v : Nat), src ≠ .secure → exec (.dbgFwEnWrite src v) s = .next s) ∧
  (∀ (s : State) (src : Src), s.takesWrite src .DBG_EN = true → s.dbg.halted = [] → s.dbg.acc = none →
    ∃ t, exec (.dbgAuthClr src) s = .next t ∧ t.rd F.DBG_EN.AUTH_EN = 0 ∧
      t.rd F.DBG_EN.EFF = effOf (s.rd F.DBG_EN.FW_EN) s.fuses.secDbgOff ∧
      Frame false [] [F.DBG_EN.AUTH_EN.at, F.DBG_EN.EFF.at] s t) ∧
  (∀ (s : State) (src : Src), s.takesWrite src .DBG_AUTH_CTL = true →
    (s.authState ≠ 2 → s.authState ≠ 5 → exec (.dbgAuthNew src) s = .next { s with dbg := { s.dbg with nonceDue := true } }) ∧
    (s.authState = 2 ∨ s.authState = 5 → exec (.dbgAuthNew src) s = .next s)) ∧
  (∀ (s : State) (nonce : List (BitVec 8)), s.held = false → s.clkOn 74 = true → s.dbg.nonceDue = true → s.authState ≠ 2 →
    s.authState ≠ 5 → ∃ t, exec (.dbgAuthNonceReady nonce) s = .next t ∧ t.authState = 1 ∧ t.dbg.nonceDue = false ∧
      (∀ k, k < 4 → t.rd F.DBG_AUTH_NONCE.BYTES k = leAt nonce (8 * k) 8) ∧
      Frame false [.dbg] (F.DBG_AUTH_CTL.STATE.at :: (List.range 4).map (fun k => F.DBG_AUTH_NONCE.BYTES.at k)) s t) ∧
  (∀ (s : State) (src : Src) (v : Nat), s.takesWrite src .DBG_AUTH_CTL = true → s.authState = 1 → v.testBit 1 = true →
    v.testBit 0 = false → F.DBG_AUTH_CTL.KEY_SLOT.enc.ok (bits v 8 8) = true → ∃ t, exec (.dbgAuthGo src v) s = .next t ∧
      t.authState = 2 ∧ t.dbg.check = some (AuthCheck.mk (s.regBytes F.DBG_AUTH_NONCE.BYTES 4) (bits v 4 4) (bits v 8 8)
        (s.regBytes F.DBG_AUTH_PUB.BYTES 8) (s.regBytes F.DBG_AUTH_SIG.BYTES 8)) ∧
      Frame false [.dbg] [F.DBG_AUTH_CTL.REQ.at, F.DBG_AUTH_CTL.KEY_SLOT.at, F.DBG_AUTH_CTL.STATE.at] s t) ∧
  ∀ (s : State) (c : AuthCheck), s.held = false → s.clkOn 74 = true → s.dbg.check = some c → ∃ b u, b = s.authPass c ∧
    u = { s with dbg := { s.dbg with check := none } } ∧
    (b = true → s.harts.filter (fun h => h.2.haltPending) = [] → c.req < 16 → ∃ t, exec .dbgAuthDone s = .next t ∧ t.authState = 3 ∧
      t.rd F.DBG_EN.AUTH_EN = c.req ∧ t.rd F.DBG_EN.EFF = effOf (s.rd F.DBG_EN.FW_EN ||| c.req) s.fuses.secDbgOff ∧
      t.rd F.DBG_STATUS.EVT_GRANT = 1) ∧
    (b = false → s.rd F.DBG_AUTH_CTL.FAILS < 7 → ∃ t, exec .dbgAuthDone s = .next t ∧ t.authState = 4 ∧
      t.rd F.DBG_AUTH_CTL.FAILS = s.rd F.DBG_AUTH_CTL.FAILS + 1 ∧ t.rd F.DBG_STATUS.EVT_FAIL = 1) ∧
    (b = false → 7 ≤ s.rd F.DBG_AUTH_CTL.FAILS → ∃ t, exec .dbgAuthDone s = .next t ∧ t.authState = 5 ∧
      t.rd F.DBG_AUTH_CTL.FAILS = 8 ∧ t.rd F.DBG_STATUS.EVT_LOCKED = 1)

/-- Clauses.  A halt of a running core that the enables permit sets STATE 5; without permission the request stays pending; a resume sets STATE
3.  GO records the access with the status judged; GO during an access sets BUSY; an access that EFF does not permit ends DENIED; a
permitted read of a register ends with its word.  Test-Logic-Reset latches the members and their IR lengths; a hub instruction is kept,
and EXTEST, CLAMP and HIGHZ are honoured where R464 lets them; DBGREG writes and reads as normal-world. -/
def Obligations.DebugHaltsAccessesAndTheTap : Prop :=
  (∀ (s : State) (k : Nat), s.coreThere k = true → s.rd F.CORE_STATUS.STATE k = 3 → ∃ u,
      u = s.setHart k { s.hart k with haltPending := true } ∧
    (s.invasive (s.ns k) = true → (s.hart k).proof = none → (s.hart k).io.any (fun a => !a.write) = false →
      exec (.debugHalt k) s = .next (u.haltNow k)) ∧
    (s.invasive (s.ns k) = false → exec (.debugHalt k) s = .next u)) ∧
  (∀ (s : State) (k : Nat), s.coreThere k = true → s.rd F.CORE_STATUS.STATE k = 5 → ∃ t, exec (.debugResume k) s = .next t ∧
    t.rd F.CORE_STATUS.STATE k = 3 ∧ Tbl.find t.dbg.halted k = none ∧ Frame false [.dbg] [F.CORE_STATUS.STATE.at k] s t) ∧
  (∀ (s : State) (src : Src) (v : Nat), s.takesWrite src .DBG_ACC_CTL = true → v.testBit 0 = true →
    (s.dbg.acc.isSome = true → ∃ t, exec (.dbgAccGo src v) s = .next t ∧ t.rd F.DBG_ACC_CTL.STATUS = 6 ∧ t.dbg = s.dbg) ∧
    (s.dbg.acc = none → s.invasive (v.testBit 2) = false → ∃ t, exec (.dbgAccGo src v) s = .next t ∧
      t.rd F.DBG_ACC_CTL.DONE = 0 ∧ t.dbg.acc = some (DbgAcc.mk (v.testBit 1) (v.testBit 2) (v.testBit 3) (bits v 4 2)
        (s.rd F.DBG_ACC_ADDR.ADDR) (s.rd F.DBG_ACC_DATA.DATA) (some 3)))) ∧
  (∀ (s : State) (a : DbgAcc), s.held = false → s.clkOn 74 = true → s.dbg.acc = some a →
    (a.status = some 3 → ∃ t, exec .dbgAccDone s = .next t ∧ t.rd F.DBG_ACC_CTL.STATUS = 3 ∧ t.rd F.DBG_ACC_CTL.DONE = 1 ∧
      t.dbg.acc = none ∧ t.rd F.DBG_CNT.DENIED = satAdd F.DBG_CNT.DENIED.w (s.rd F.DBG_CNT.DENIED) 1 ∧
      Frame false [.dbg] [F.DBG_ACC_CTL.STATUS.at, F.DBG_ACC_CTL.DONE.at, F.DBG_CNT.DENIED.at] s t) ∧
    (∀ w off d v u, a = DbgAcc.mk false false w 3 (0x0F0000000000 + off) d none → off % 8 = 0 → off < 2 ^ 26 →
      (∀ p, s.accDom (0x0F0000000000 + off) = some p → s.domAbsent p = false ∧ s.rd F.PWR_DOM_STATUS.STATE p = 0) →
      s.regRead .secure off 8 = (v, u) → exec .dbgAccDone s = .next (u.accData v))) ∧
  (∀ (s : State), s.held = false → s.dbg.honoured = false → ∃ t, exec .tapReset s = .next t ∧
    t.dbg.chain = ((List.range 14).filter s.chainMember).map (fun n => (n, s.irLen n)) ∧ t.dbg.ir = [] ∧
    (∀ n, n < 14 → t.fbit F.DBG_CHAIN.MEMBER 0 n = s.chainMember n) ∧
    Frame false [.dbg] [F.DBG_CHAIN.MEMBER.at, F.DBG_CHAIN.IR_LEN.at] s t) ∧
  (∀ (s : State) (ir : Nat), s.held = false → s.dbg.honoured = false → ir < 256 → ∃ t, exec (.tapUpdateIr 255 ir) s = .next t ∧
    t.tapIr 255 = ir ∧ t.dbg.honoured = (pinTest ir && s.pinTestOk)) ∧
  (∀ (s : State) (n ir len : Nat), s.held = false → s.dbg.chain = [(n, len)] → n < 14 → ∃ t, exec (.tapUpdateIr n ir) s = .next t ∧
    t.tapIr n = (if s.chainMember n then ir % 2 ^ len else 2 ^ len - 1) ∧ Frame false [.dbg] [] s t) ∧
  ∀ (s : State) (dr : Nat), s.held = false → s.tapIr 255 = 0x12 →
    (dr.testBit 84 = true → exec (.tapUpdateDr dr) s =
      .next (s.regWrite .tap (0x500000 + bits dr 64 20 / 8 * 8) 8 (bits dr 0 64))) ∧
    (∀ v u, dr.testBit 84 = false → s.regRead .tap (0x500000 + bits dr 64 20 / 8 * 8) 8 = (v, u) →
      exec (.tapUpdateDr dr) s = .next { u with dbg := { u.dbg with dr := v } })

/-- After POWER_UP, PORESET_ASSERT, PWRGD_DEASSERT and THERMTRIP the device is held, CAUSE is the reset's code, memory lists nothing and
every other register field but those of LGR_CFG reads as at reset; fuses, vellum, variant and queue are kept.  After a power-up that
ends a thermal trip CAUSE is 3 (log 12).  PORESET_RELEASE frees the device and samples PROFILE_SEL.  SYSRESET_ASSERT, and a secure
write of CKR_RESET_CTL, warm-reset a device that is not held. -/
def Obligations.ResetsClearAndKeep : Prop :=
  (∀ (s : State), (∃ t, exec .powerUp s = .next t ∧
      AfterCold s t (if s.pins.thermtrip then 3 else 0) (State.reset.lgr.acc.cycles + 1)) ∧
    (∃ t, exec .poresetAssert s = .next t ∧ AfterCold s t 1 State.reset.lgr.acc.cycles) ∧
    (∃ t, exec .thermtrip s = .next t ∧ AfterCold s t 3 State.reset.lgr.acc.cycles) ∧
    ∀ k, k < 6 → (s.pins.thermtrip = true → exec (.pwrgdDeassert k) s = .next s) ∧
      (s.pins.thermtrip = false → ∃ t, exec (.pwrgdDeassert k) s = .next t ∧ AfterCold s t 2 (State.reset.lgr.acc.cycles + 1))) ∧
  (∀ (s : State) (sel : Nat), s.pins.thermtrip = false → s.pins.poreset = true → sel < 4 → ∃ t, exec (.poresetRelease sel) s = .next t ∧
    t.held = false ∧ t.pins.profileSel = sel ∧ t.rd F.GLB_PROFILE.PINS = sel ∧ t.rd F.GLB_PROFILE.PENDING = sel ∧
    Frame false [.pins] [F.GLB_PROFILE.PINS.at, F.GLB_PROFILE.PENDING.at] s t) ∧
  ∀ (s : State), (s.held = true → exec .sysresetAssert s = .next s) ∧
    (s.held = false → ∃ t, exec .sysresetAssert s = .next t ∧ AfterWarm s t 4) ∧
    (s.takesWrite .secure .CKR_RESET_CTL = true → ∃ t, exec (.ckrResetCtlWarm .secure) s = .next t ∧ AfterWarm s t 8) ∧
    ∀ src, src ≠ .secure → exec (.ckrResetCtlWarm src) s = .next s

/-- Clauses for a device that is not held and has no failure recorded: a stable crystal sets XTAL_OK; its timeout is failure 1 and boot goes
on from the IRO; the PLL's lock makes it the root; loss of amplitude is failure 2, loss of lock failure 3: FAIL_CAUSE takes the code,
ROOT_SRC is 1 and EVT_CLOCK_FAIL is raised.  A monitor window records its count; a second bad one in a row fails the root; an IRO drift
of more than 1.5 % within tolerance sets EVT_IRO_DRIFT. -/
def Obligations.ClockSourcesFailOver : Prop :=
  (∀ (s : State), s.held = false → s.rd F.CKR_STATUS.FAIL_CAUSE = 0 →
    (∃ t, exec .xtalStable s = .next t ∧ t.rd F.CKR_STATUS.XTAL_OK = 1 ∧ Frame false [] [F.CKR_STATUS.XTAL_OK.at] s t) ∧
    (s.is F.CKR_STATUS.XTAL_OK = false → exec .xtalTimeout s = .next (s.clockFail 1).rootReady) ∧
    (s.is F.CKR_STATUS.XTAL_OK = true → ∃ u, exec .rootPllLock s = .next u.rootReady ∧ u.rd F.CKR_STATUS.ROOT_LOCK = 1 ∧
      u.rd F.CKR_STATUS.ROOT_SRC = 0 ∧ Frame false [] [F.CKR_STATUS.ROOT_LOCK.at, F.CKR_STATUS.ROOT_SRC.at] s u) ∧
    (s.is F.CKR_STATUS.XTAL_OK = true → ∃ t, exec .xtalAmplitudeLoss s = .next t ∧ t.rd F.CKR_STATUS.XTAL_OK = 0 ∧
      t.rd F.CKR_STATUS.FAIL_CAUSE = 2 ∧ t.rd F.CKR_STATUS.ROOT_SRC = 1 ∧ t.rd F.CKR_STATUS.EVT_CLOCK_FAIL = 1) ∧
    (s.is F.CKR_STATUS.ROOT_LOCK = true → ∃ t, exec .rootPllUnlock s = .next t ∧ t.rd F.CKR_STATUS.ROOT_LOCK = 0 ∧
      t.rd F.CKR_STATUS.FAIL_CAUSE = 3 ∧ t.rd F.CKR_STATUS.ROOT_SRC = 1 ∧ t.rd F.CKR_STATUS.EVT_CLOCK_FAIL = 1) ∧
    (∀ count, count < 65536 → s.is F.CKR_STATUS.XTAL_OK = true →
      (s.outOfTol count 512 = false → ∃ t, exec (.clockMonitorWindow 0 count) s = .next t ∧ t.rd F.CKR_MON.XTAL_IRO = count ∧
        t.ckr.xtalBad = 0 ∧ Frame false [.ckr] [F.CKR_MON.XTAL_IRO.at] s t) ∧
      (s.outOfTol count 512 = true → s.ckr.xtalBad = 0 → ∃ t, exec (.clockMonitorWindow 0 count) s = .next t ∧
        t.rd F.CKR_MON.XTAL_IRO = count ∧ t.ckr.xtalBad = 1 ∧ Frame false [.ckr] [F.CKR_MON.XTAL_IRO.at] s t) ∧
      (s.outOfTol count 512 = true → s.ckr.xtalBad = 1 → ∃ t, exec (.clockMonitorWindow 0 count) s = .next t ∧
        t.rd F.CKR_STATUS.FAIL_CAUSE = 2 ∧ t.rd F.CKR_STATUS.ROOT_SRC = 1)) ∧
    (∀ count, count < 65536 → s.is F.CKR_STATUS.ROOT_LOCK = true → s.outOfTol count 1024 = true → 1 ≤ s.ckr.rootBad → ∃ t,
      exec (.clockMonitorWindow 1 count) s = .next t ∧ t.rd F.CKR_STATUS.FAIL_CAUSE = 3 ∧ t.rd F.CKR_STATUS.ROOT_SRC = 1)) ∧
  (∀ (s : State) (count : Nat), s.held = false → count < 65536 → ∃ t, exec (.clockMonitorWindow 2 count) s = .next t ∧
    t.rd F.CKR_MON.IRO_XTAL = count ∧
    (2048 < count + 31 → count < 2048 + 31 → Frame false [] [F.CKR_MON.IRO_XTAL.at] s t) ∧
    (s.outOfTol count 2048 = false → count + 31 ≤ 2048 ∨ 2048 + 31 ≤ count → t.rd F.CKR_STATUS.EVT_IRO_DRIFT = 1)) ∧
  ∀ (s : State), s.is F.CKR_STATUS.FAIL_CAUSE = true → ∀ c, s.clockFail c = s

/-- Clauses for a write that reaches CKR_DOM[d].  A secure write of N and M that R473 accepts sets both and SWITCHING, one it does not sets
RATIO_REFUSED and EVT_REFUSED and changes neither; the end of the switch clears SWITCHING; a normal-world write changes nothing.  A write of EN to a
domain that cannot be gated changes nothing; EN = 1 starts the clock; EN = 0 stops it unless the writer's world or a busy block refuses. -/
def Obligations.RatiosAndGatesAreSet : Prop :=
  (∀ (s : State) (d v : Nat), d < 78 → d ≠ 63 → s.takesWrite .secure .CKR_DOM d = true → 0 < bits v 16 12 → 0 < bits v 28 8 →
    (s.ratioOk d (bits v 16 12) (bits v 28 8) = true → ∃ t, exec (.ckrRatioWrite .secure d v) s = .next t ∧
      t.rd F.CKR_DOM.N d = bits v 16 12 ∧ t.rd F.CKR_DOM.M d = bits v 28 8 ∧ t.rd F.CKR_DOM.SWITCHING d = 1 ∧
      Frame false [] [F.CKR_DOM.N.at d, F.CKR_DOM.M.at d, F.CKR_DOM.SWITCHING.at d] s t) ∧
    (s.ratioOk d (bits v 16 12) (bits v 28 8) = false → ∃ t, exec (.ckrRatioWrite .secure d v) s = .next t ∧
      t.rd F.CKR_DOM.RATIO_REFUSED d = 1 ∧ t.rd F.CKR_STATUS.EVT_REFUSED = 1 ∧ t.rd F.CKR_DOM.N d = s.rd F.CKR_DOM.N d ∧
      t.rd F.CKR_DOM.M d = s.rd F.CKR_DOM.M d)) ∧
  (∀ (s : State) (src : Src) (d v : Nat), src ≠ .secure → exec (.ckrRatioWrite src d v) s = .next s) ∧
  (∀ (s : State) (d : Nat), ∃ t, exec (.ratioSwitchDone d) s = .next t ∧ t.rd F.CKR_DOM.SWITCHING d = 0 ∧
    Frame false [] [F.CKR_DOM.SWITCHING.at d] s t) ∧
  ∀ (s : State) (src : Src) (d v : Nat), d < 78 → s.takesWrite src .CKR_DOM d = true →
    (clkGateable d = false → exec (.ckrGateWrite src d v) s = .next s) ∧
    (clkGateable d = true → v % 2 = 1 → ∃ t, exec (.ckrGateWrite src d v) s = .next t ∧ t.clkOn d = true ∧
      Frame false [] [F.CKR_DOM.EN.at d] s t) ∧
    (clkGateable d = true → v % 2 = 0 → isSecure src = true ∨ s.is F.CKR_DOM.OWNER_S d = false →
      ((clkDomains d).any (fun p => s.domBusy p false) = false → ∃ t, exec (.ckrGateWrite src d v) s = .next t ∧
        t.clkOn d = false ∧ Frame false [] [F.CKR_DOM.EN.at d] s t) ∧
      ((clkDomains d).any (fun p => s.domBusy p false) = true → exec (.ckrGateWrite src d v) s = .next (s.gateRefused d 4))) ∧
    (clkGateable d = true → v % 2 = 0 → isSecure src = false → s.is F.CKR_DOM.OWNER_S d = true →
      exec (.ckrGateWrite src d v) s = .next (s.gateRefused d 1))

/-- Clauses for a domain.  A write of TARGET in a transition waits; out of one it is judged: refused, it is recorded as R481 and R486 say, with
HOLD it stays pending; passed, it is queued.  A held request passes or is refused again at a recheck and is aborted at 10 ms.  A wake of a
domain in RET is recorded and queues a turn-on, one of OFF only for SOFTWARE, DEBUG and BOOT.  The arbiter starts one transition, and
its end brings the domain to its state with EVT_STATE. -/
def Obligations.PowerRequestsAndTransitions : Prop :=
  (∀ (s : State) (d v : Nat), d < 100 → s.takesWrite .secure .PWR_DOM_CTL d = true → v % 4 ≠ 3 → ∃ u,
    u = ((s.wr F.PWR_DOM_CTL.HOLD d (bits v 2 1)).wr F.PWR_DOM_CTL.OWNER_S d (bits v 3 1)).wr F.PWR_DOM_CTL.LOCK_P d (bits v 4 1) ∧
    (s.inTransition d = true → ∃ t, exec (.pwrTargetWrite .secure d v) s = .next t ∧ t.rd F.PWR_DOM_STATUS.PENDING d = 1 ∧
      Tbl.find t.pwr.req d = some (PwrReq.mk (v % 4) true (v.testBit 2) 1) ∧
      t.rd F.PWR_DOM_STATUS.STATE d = s.rd F.PWR_DOM_STATUS.STATE d) ∧
    (s.inTransition d = false → v % 4 = 0 → s.rd F.PWR_DOM_STATUS.STATE d ≠ 0 → ∃ w : State, w.rd F.PWR_DOM_STATUS.PENDING d = 0 ∧
      w.rd F.PWR_DOM_CTL.TARGET d = 0 ∧ Tbl.find w.pwr.req d = none ∧ w.pwr.queue = s.pwr.queue ∧
      exec (.pwrTargetWrite .secure d v) s = .next ((w.recordWake d 1).enqueue [d] 0 1)) ∧
    (∀ code core, s.inTransition d = false → v % 4 = 2 ∨ (v % 4 = 1 ∧ s.rd F.PWR_DOM_STATUS.STATE d ≠ 2) →
      u.refuser d (v % 4) true = some (code, core) → v.testBit 2 = false → ∃ t, exec (.pwrTargetWrite .secure d v) s = .next t ∧
        t.rd F.PWR_DOM_STATUS.REFUSED d = 1 ∧ t.rd F.PWR_DOM_STATUS.EVT_REFUSED d = 1 ∧ t.rd F.PWR_DOM_STATUS.PENDING d = 0 ∧
        t.pwr.queue = s.pwr.queue ∧ t.rd F.PWR_DOM_STATUS.STATE d = s.rd F.PWR_DOM_STATUS.STATE d) ∧
    (s.inTransition d = false → v % 4 = 2 ∨ (v % 4 = 1 ∧ s.rd F.PWR_DOM_STATUS.STATE d ≠ 2) → u.refuser d (v % 4) true = none →
      s.rd F.PWR_DOM_STATUS.STATE d ≠ v % 4 → ∃ t, exec (.pwrTargetWrite .secure d v) s = .next t ∧
        t.rd F.PWR_DOM_CTL.TARGET d = v % 4 ∧ t.rd F.PWR_DOM_STATUS.PENDING d = 0 ∧ PwrTrans.mk [d] (v % 4) 0 ∈ t.pwr.queue)) ∧
  (∀ (s : State) (d : Nat) (r : PwrReq), Tbl.find s.pwr.req d = some r → s.inTransition d = false →
    exec (.pwrHoldRecheck d) s = .next (s.judge d r false) ∧
    (s.refuser d r.target r.secure = none → exec (.pwrHoldAbort d) s = .next (s.judge d r false)) ∧
    (∀ code core, s.refuser d r.target r.secure = some (code, core) → ∃ t, exec (.pwrHoldAbort d) s = .next t ∧
      t.rd F.PWR_DOM_STATUS.LAST_REFUSER d = code % 2 ^ F.PWR_DOM_STATUS.LAST_REFUSER.w ∧ t.rd F.PWR_DOM_STATUS.PENDING d = 0 ∧
      t.rd F.PWR_DOM_STATUS.EVT_ABORTED d = 1 ∧ Tbl.find t.pwr.req d = none)) ∧
  (∀ (s : State) (d code : Nat), d < 100 → s.held = false → s.inTransition d = false →
    s.pwr.queue.any (fun t => t.doms.contains d && t.target == 0) = false →
    (s.rd F.PWR_DOM_STATUS.STATE d = 1 ∨ s.rd F.PWR_DOM_STATUS.STATE d = 2 ∧ (code = 1 ∨ code = 4 ∨ code = 7) → ∃ t,
      exec (.domainWake d code) s = .next t ∧ PwrTrans.mk [d] 0 code ∈ t.pwr.queue ∧
      t.rd F.PWR_DOM_STATUS.LAST_WAKE d = code % 2 ^ F.PWR_DOM_STATUS.LAST_WAKE.w ∧
      t.rd F.PWR_DOM_STATUS.WAKES d = satAdd F.PWR_DOM_STATUS.WAKES.w (s.rd F.PWR_DOM_STATUS.WAKES d) 1) ∧
    (s.rd F.PWR_DOM_STATUS.STATE d = 0 ∨ s.rd F.PWR_DOM_STATUS.STATE d = 2 ∧ code ≠ 1 ∧ code ≠ 4 ∧ code ≠ 7 →
      exec (.domainWake d code) s = .next s)) ∧
  (∀ (s : State) (d tg w : Nat), s.held = false → d < 100 → s.pwr.queue = [PwrTrans.mk [d] tg w] → s.pwr.running = [] →
    ∃ t, exec .domainTransitionStart s = .next t ∧ t.pwr.queue = [] ∧ t.pwr.running = [PwrTrans.mk [d] tg w] ∧
      t.rd F.PWR_DOM_STATUS.TRANSITION d = 1 ∧ t.rd F.PWR_STATUS.TRANSITIONS = 1 ∧
      Frame false [.pwr] [F.PWR_DOM_STATUS.TRANSITION.at d, F.PWR_STATUS.TRANSITIONS.at, F.PWR_STATUS.QUEUED.at] s t) ∧
  ∀ (s : State) (d tg w : Nat), d < 100 → tg < 3 → s.pwr.running = [PwrTrans.mk [d] tg w] → Tbl.find s.pwr.exits d = none →
    Tbl.find s.pwr.req d = none → ∃ t, exec (.domainTransitionDone d) s = .next t ∧ t.rd F.PWR_DOM_STATUS.STATE d = tg ∧
      t.rd F.PWR_DOM_STATUS.TRANSITION d = 0 ∧ t.rd F.PWR_DOM_STATUS.EVT_STATE d = 1 ∧ t.pwr.running = [] ∧
      t.rd F.PWR_STATUS.TRANSITIONS = 0

/-- For an aligned 8-byte write at an offset outside the doorbell windows that a register of plain fields covers and whose block the write
reaches: an RW field, and an SRW field for a secure writer, takes its bits unless they are a reserved encoding; a W1C bit written one reads
0; every other field of the register, and every other register, reads as before.  A write at an unassigned offset from inside the
device, or to a block that does not answer, changes nothing.  An aligned 4-byte write in a doorbell window is a doorbell. -/
def Obligations.RegisterWritesFollowFieldTypes : Prop :=
  (∀ (s : State) (src : Src) (a v : Nat) (x : RegRow) (i : Nat), s.held = false → inRingDb a = false → inQueueDb a = false →
    formOk a 8 = true → findReg a regTable = some (x, i) → s.takesWrite src x.reg i = true → s.absentCtl x.reg i = false →
    x.reg ≠ .BEAT_RQ_SLACK → (∀ (u : State) (m w : Nat), u.regAct src x i m w = none) → ∃ t,
      exec (.registerWrite src a 8 v) s = .next t ∧ Frame false [] (x.fields.map (fun f => f.at i)) s t ∧
      ∀ f, f ∈ x.fields →
        ((f.ty = .rw ∨ f.ty = .srw ∧ src = .secure) → f.enc.ok (bits v f.lo f.w) = true → t.rd f i = bits v f.lo f.w) ∧
        ((f.ty = .rw ∨ f.ty = .srw ∧ src = .secure) → f.enc.ok (bits v f.lo f.w) = false → s.rd f i < 2 ^ f.w → t.rd f i = s.rd f i) ∧
        (f.ty = .w1c → t.rd f i = if bits v f.lo f.w = 0 then s.rd f i else 0) ∧
        (f.ty ≠ .rw → f.ty ≠ .srw → f.ty ≠ .w1c → t.rd f i = s.rd f i) ∧
        (f.ty = .srw → src ≠ .secure → t.rd f i = s.rd f i)) ∧
  (∀ (s : State) (src : Src) (a size v : Nat), (∀ p, src ≠ .host p) → inRingDb a = false → inQueueDb a = false →
    (findReg a regTable = none → exec (.registerWrite src a size v) s = .next s) ∧
    (∀ x i, findReg a regTable = some (x, i) → s.regLive x.reg i = false → exec (.registerWrite src a size v) s = .next s) ∧
    (formOk a size = false → exec (.registerWrite src a size v) s = .next s)) ∧
  ∀ (s : State) (src : Src) (a v : Nat), s.held = false → a % 4 = 0 →
    (inRingDb a = true → exec (.registerWrite src a 4 v) s =
      .next (s.doorbell (.window src ((a - 0x7C0000) / 8)) ((a / 4) % 2 == 1) (v % 2 ^ 32))) ∧
    (inQueueDb a = true → exec (.registerWrite src a 4 v) s = .next (s.queueDb (.window src ((a - 0x7D0000) / 4)) (v % 2 ^ 32)))

/-- For a core that may execute, outside a proof: at a WFI in S-mode with TW set, and in U-mode whatever TW is, the core does not wait.  Where
the exception is delegated it enters S-mode with scause 2 and sepc the WFI's address; otherwise, in the secure world, M-mode with mcause
2 and mepc that address. -/
def Obligations.WfiIsIllegalBelowMachineMode : Prop :=
  ∀ (s : State) (k pc : Nat), s.coreFree k = true →
    ((s.priv k = 1 ∧ (s.csr k 0x300).testBit 21 = true) ∨ s.priv k = 0) →
    exec (.wfi k pc) s = .next ((s.atInsn k pc).illegal k pc) ∧
    (s.delegated k 2 = true → ∃ t, exec (.wfi k pc) s = .next t ∧ t.csr k 0x141 = pc % 2 ^ 64 ∧ t.csr k 0x142 = 2 ∧ t.priv k = 1 ∧
      t.rd F.CORE_STATUS.STATE k = s.rd F.CORE_STATUS.STATE k) ∧
    (s.delegated k 2 = false → s.ns k = false → ∃ t, exec (.wfi k pc) s = .next t ∧ t.csr k 0x341 = pc % 2 ^ 64 ∧
      t.csr k 0x342 = 2 ∧ t.priv k = 3 ∧ t.rd F.CORE_STATUS.STATE k = s.rd F.CORE_STATUS.STATE k)

/-- For every writer but the secure world: the L2 commands change nothing, and a register write of any size at an offset that L2_CTL covers
leaves every register, but a PCIe port's count of dropped writes, and every part of the state as it was. -/
def Obligations.L2ControlIsSecureOnly : Prop :=
  ∀ (s : State) (src : Src), src ≠ .secure →
    (∀ c v, exec (.l2EnWrite src c v) s = .next s) ∧ (∀ c, exec (.l2Flush src c) s = .next s) ∧ (∀ c, exec (.l2Inv src c) s = .next s) ∧
    ∀ a size v x i, findReg a regTable = some (x, i) → x.reg = .L2_CTL → ∃ t p, exec (.registerWrite src a size v) s = .next t ∧
      (∀ q, src = .host q → p = q) ∧ Frame false [] [F.HIF_PORT_CNT1.DROPPED_WR.at 1, F.HIF_PORT_CNT1.DROPPED_WR.at p] s t

/-- For a device that is not held and a window count of the IRO against the crystal: where the count is further than 1.5 % of 2,048 from
2,048 and no further than TOL/1,024 of it, EVT_IRO_DRIFT is set and ROOT_SRC stays. -/
def Obligations.IroDriftIsReported : Prop :=
  ∀ (s : State) (count diff : Nat), s.held = false → (count = 2048 + diff ∨ count + diff = 2048) → 15 * 2048 < 1000 * diff →
    1024 * diff ≤ s.rd F.CKR_MON_LIM.TOL * 2048 → ∃ t, exec (.clockMonitorWindow 2 count) s = .next t ∧
      t.rd F.CKR_STATUS.EVT_IRO_DRIFT = 1 ∧ t.rd F.CKR_STATUS.ROOT_SRC = s.rd F.CKR_STATUS.ROOT_SRC

/-- After each cold reset FW_EN, AUTH_EN, the nonce bytes, FAILS and STATE read 0 and no nonce is due; after a warm reset of whatever
cause, and each command that is one, FW_EN, AUTH_EN and the nonce read 0, FAILS reads as before and STATE reads 5 exactly if it did
before.  No command, the resets among them, clears a fuse. -/
def Obligations.DebugAuthenticationAcrossResets : Prop :=
  (∀ (s t : State) (k : Nat), exec .powerUp s = .next t ∨ exec .poresetAssert s = .next t ∨ exec .thermtrip s = .next t ∨
      (s.pins.thermtrip = false ∧ exec (.pwrgdDeassert k) s = .next t) →
    t.rd F.DBG_EN.FW_EN = 0 ∧ t.rd F.DBG_EN.AUTH_EN = 0 ∧ t.rd F.DBG_AUTH_CTL.FAILS = 0 ∧ t.authState = 0 ∧ t.dbg.nonceDue = false ∧
    ∀ i, t.rd F.DBG_AUTH_NONCE.BYTES i = 0) ∧
  (∀ (s t : State) (cause : Nat), s.held = false → t = s.warmReset cause ∨ exec .sysresetAssert s = .next t ∨
      (s.takesWrite .secure .CKR_RESET_CTL = true ∧ exec (.ckrResetCtlWarm .secure) s = .next t) →
    t.rd F.DBG_EN.FW_EN = 0 ∧ t.rd F.DBG_EN.AUTH_EN = 0 ∧ t.dbg.nonceDue = false ∧ (∀ i, t.rd F.DBG_AUTH_NONCE.BYTES i = 0) ∧
    t.rd F.DBG_AUTH_CTL.FAILS = s.rd F.DBG_AUTH_CTL.FAILS ∧ (t.authState = 5 ↔ s.authState = 5)) ∧
  ∀ (c : Instr) (s t : State), exec c s = .next t → t.fuses.serial = s.fuses.serial ∧ t.fuses.vendorKey = s.fuses.vendorKey ∧
    t.fuses.dieId = s.fuses.dieId ∧ t.fuses.seed = s.fuses.seed ∧
    (∀ k, s.fuses.ownerValid.testBit k = true → t.fuses.ownerValid.testBit k = true) ∧
    (∀ k, s.fuses.ownerRevoked.testBit k = true → t.fuses.ownerRevoked.testBit k = true) ∧ s.fuses.calomSvn ≤ t.fuses.calomSvn ∧
    s.fuses.cfwSvn ≤ t.fuses.cfwSvn ∧ (s.fuses.dieAuth = true → t.fuses.dieAuth = true) ∧
    (s.fuses.secDbgOff = true → t.fuses.secDbgOff = true) ∧ (s.fuses.hostPushOff = true → t.fuses.hostPushOff = true)
end

