-- ==== Sys2Proof/Laws/Tables.lean ====
section
/-!
SUPPORT. What reading a table gives after it is changed: the key written holds the value written, every other key what
it held.
-/

set_option Elab.async false

namespace Sys2Proof.Machine

variable {K V : Type} [DecidableEq K]

@[simp] theorem Tbl.get_nil (k : K) (d : V) : Tbl.get ([] : Tbl K V) k d = d := rfl

@[simp] theorem Tbl.find_nil (k : K) : Tbl.find ([] : Tbl K V) k = none := rfl

theorem Tbl.get_erase_self (t : Tbl K V) (k : K) (d : V) : Tbl.get (Tbl.erase t k) k d = d := by
  induction t with
  | nil => rfl
  | cons p t ih =>
    obtain ⟨a, b⟩ := p
    by_cases h : a = k <;> simp [Tbl.erase, Tbl.get, h, ih]

theorem Tbl.get_erase_of_ne (t : Tbl K V) {k j : K} (d : V) (h : k ≠ j) :
    Tbl.get (Tbl.erase t k) j d = Tbl.get t j d := by
  induction t with
  | nil => rfl
  | cons p t ih =>
    obtain ⟨a, b⟩ := p
    by_cases hk : a = k
    · subst hk; simp [Tbl.erase, Tbl.get, h, ih]
    · by_cases hj : a = j
      · subst hj; simp [Tbl.erase, Tbl.get, hk]
      · simp [Tbl.erase, Tbl.get, hk, hj, ih]

theorem Tbl.find_erase_self (t : Tbl K V) (k : K) : Tbl.find (Tbl.erase t k) k = none := by
  induction t with
  | nil => rfl
  | cons p t ih =>
    obtain ⟨a, b⟩ := p
    by_cases h : a = k <;> simp [Tbl.erase, Tbl.find, h, ih]

theorem Tbl.find_erase_of_ne (t : Tbl K V) {k j : K} (h : k ≠ j) : Tbl.find (Tbl.erase t k) j = Tbl.find t j := by
  induction t with
  | nil => rfl
  | cons p t ih =>
    obtain ⟨a, b⟩ := p
    by_cases hk : a = k
    · subst hk; simp [Tbl.erase, Tbl.find, h, ih]
    · by_cases hj : a = j
      · subst hj; simp [Tbl.erase, Tbl.find, hk]
      · simp [Tbl.erase, Tbl.find, hk, hj, ih]

@[simp] theorem Tbl.get_set_self [DecidableEq V] (t : Tbl K V) (k : K) (v d : V) :
    Tbl.get (Tbl.set t k v d) k d = v := by
  by_cases h : v = d
  · simp [Tbl.set, h, Tbl.get_erase_self]
  · simp [Tbl.set, h, Tbl.get]

theorem Tbl.get_set_of_ne [DecidableEq V] (t : Tbl K V) {k j : K} (v d e : V) (h : k ≠ j) :
    Tbl.get (Tbl.set t k v d) j e = Tbl.get t j e := by
  by_cases hv : v = d
  · simp [Tbl.set, hv, Tbl.get_erase_of_ne _ _ h]
  · simp [Tbl.set, hv, Tbl.get, h, Tbl.get_erase_of_ne _ _ h]

@[simp] theorem Tbl.find_put_self (t : Tbl K V) (k : K) (v : V) : Tbl.find (Tbl.put t k v) k = some v := by
  simp [Tbl.put, Tbl.find]

theorem Tbl.find_put_of_ne (t : Tbl K V) {k j : K} (v : V) (h : k ≠ j) :
    Tbl.find (Tbl.put t k v) j = Tbl.find t j := by
  simp [Tbl.put, Tbl.find, h, Tbl.find_erase_of_ne _ h]

@[simp] theorem Tbl.get_put_self (t : Tbl K V) (k : K) (v d : V) : Tbl.get (Tbl.put t k v) k d = v := by
  simp [Tbl.put, Tbl.get]

theorem Tbl.get_put_of_ne (t : Tbl K V) {k j : K} (v d : V) (h : k ≠ j) :
    Tbl.get (Tbl.put t k v) j d = Tbl.get t j d := by
  simp [Tbl.put, Tbl.get, h, Tbl.get_erase_of_ne _ _ h]

end Sys2Proof.Machine
end

