-- ==== Sys2Proof/Laws/State.lean ====
section
/-!
SUPPORT. One lemma per part of the state per update, true by definition: what an update leaves as it was, and what a
register field, a hart, a lane and the other numbered parts read as after a write.
-/

set_option Elab.async false

namespace Sys2Proof.Machine

/-! ## Register fields -/

@[simp] theorem State.rd_wr_self (s : State) (f : Field) (i v : Nat) : (s.wr f i v).rd f i = v % 2 ^ f.w := by
  simp [State.rd, State.wr]

theorem State.rd_wr_of_key (s : State) {f g : Field} {i j : Nat} (v : Nat)
    (h : RegKey.mk f.reg i f.lo ≠ RegKey.mk g.reg j g.lo) : (s.wr f i v).rd g j = s.rd g j := by
  simp [State.rd, State.wr, Tbl.get_set_of_ne _ _ _ _ h]

theorem State.rd_wr_of_reg (s : State) {f g : Field} {i j : Nat} (v : Nat) (h : f.reg ≠ g.reg) :
    (s.wr f i v).rd g j = s.rd g j := s.rd_wr_of_key v (by simp [h])

theorem State.rd_wr_of_lo (s : State) {f g : Field} {i j : Nat} (v : Nat) (h : f.lo ≠ g.lo) :
    (s.wr f i v).rd g j = s.rd g j := s.rd_wr_of_key v (by simp [h])

theorem State.rd_wr_of_idx (s : State) {f g : Field} {i j : Nat} (v : Nat) (h : i ≠ j) :
    (s.wr f i v).rd g j = s.rd g j := s.rd_wr_of_key v (by simp [h])

/-! ## What an update leaves alone -/

@[simp] theorem State.wr_pending (s : State) (f : Field) (i v : Nat) : (s.wr f i v).pending = s.pending := rfl
@[simp] theorem State.wr_hw (s : State) (f : Field) (i v : Nat) : (s.wr f i v).hw = s.hw := rfl
@[simp] theorem State.wr_fresh (s : State) (f : Field) (i v : Nat) : (s.wr f i v).fresh = s.fresh := rfl
@[simp] theorem State.wr_rdata (s : State) (f : Field) (i v : Nat) : (s.wr f i v).rdata = s.rdata := rfl
@[simp] theorem State.wr_evc (s : State) (f : Field) (i v : Nat) : (s.wr f i v).evc = s.evc := rfl
@[simp] theorem State.wr_harts (s : State) (f : Field) (i v : Nat) : (s.wr f i v).harts = s.harts := rfl
@[simp] theorem State.wr_l2 (s : State) (f : Field) (i v : Nat) : (s.wr f i v).l2 = s.l2 := rfl
@[simp] theorem State.wr_dir (s : State) (f : Field) (i v : Nat) : (s.wr f i v).dir = s.dir := rfl
@[simp] theorem State.wr_groups (s : State) (f : Field) (i v : Nat) : (s.wr f i v).groups = s.groups := rfl
@[simp] theorem State.wr_mem (s : State) (f : Field) (i v : Nat) : (s.wr f i v).mem = s.mem := rfl
@[simp] theorem State.wr_beat (s : State) (f : Field) (i v : Nat) : (s.wr f i v).beat = s.beat := rfl
@[simp] theorem State.wr_lanes (s : State) (f : Field) (i v : Nat) : (s.wr f i v).lanes = s.lanes := rfl
@[simp] theorem State.wr_ctx (s : State) (f : Field) (i v : Nat) : (s.wr f i v).ctx = s.ctx := rfl
@[simp] theorem State.wr_trg (s : State) (f : Field) (i v : Nat) : (s.wr f i v).trg = s.trg := rfl
@[simp] theorem State.wr_tio (s : State) (f : Field) (i v : Nat) : (s.wr f i v).tio = s.tio := rfl
@[simp] theorem State.wr_evb (s : State) (f : Field) (i v : Nat) : (s.wr f i v).evb = s.evb := rfl
@[simp] theorem State.wr_guests (s : State) (f : Field) (i v : Nat) : (s.wr f i v).guests = s.guests := rfl
@[simp] theorem State.wr_aln (s : State) (f : Field) (i v : Nat) : (s.wr f i v).aln = s.aln := rfl
@[simp] theorem State.wr_stp (s : State) (f : Field) (i v : Nat) : (s.wr f i v).stp = s.stp := rfl
@[simp] theorem State.wr_eth (s : State) (f : Field) (i v : Nat) : (s.wr f i v).eth = s.eth := rfl
@[simp] theorem State.wr_hif (s : State) (f : Field) (i v : Nat) : (s.wr f i v).hif = s.hif := rfl
@[simp] theorem State.wr_fuses (s : State) (f : Field) (i v : Nat) : (s.wr f i v).fuses = s.fuses := rfl
@[simp] theorem State.wr_vellum (s : State) (f : Field) (i v : Nat) : (s.wr f i v).vellum = s.vellum := rfl
@[simp] theorem State.wr_boot (s : State) (f : Field) (i v : Nat) : (s.wr f i v).boot = s.boot := rfl
@[simp] theorem State.wr_dbg (s : State) (f : Field) (i v : Nat) : (s.wr f i v).dbg = s.dbg := rfl
@[simp] theorem State.wr_ckr (s : State) (f : Field) (i v : Nat) : (s.wr f i v).ckr = s.ckr := rfl
@[simp] theorem State.wr_pwr (s : State) (f : Field) (i v : Nat) : (s.wr f i v).pwr = s.pwr := rfl
@[simp] theorem State.wr_pins (s : State) (f : Field) (i v : Nat) : (s.wr f i v).pins = s.pins := rfl
@[simp] theorem State.wr_lgr (s : State) (f : Field) (i v : Nat) : (s.wr f i v).lgr = s.lgr := rfl
@[simp] theorem State.hart_wr (s : State) (f : Field) (i v : Nat) (c' : Nat) : (s.wr f i v).hart c' = s.hart c' := rfl
@[simp] theorem State.l2c_wr (s : State) (f : Field) (i v : Nat) (c' : Nat) : (s.wr f i v).l2c c' = s.l2c c' := rfl
@[simp] theorem State.lane_wr (s : State) (f : Field) (i v : Nat) (n' : Nat) : (s.wr f i v).lane n' = s.lane n' := rfl
@[simp] theorem State.guest_wr (s : State) (f : Field) (i v : Nat) (g' : Nat) : (s.wr f i v).guest g' = s.guest g' := rfl
@[simp] theorem State.alnPort_wr (s : State) (f : Field) (i v : Nat) (n' : Nat) : (s.wr f i v).alnPort n' = s.alnPort n' := rfl
@[simp] theorem State.ring_wr (s : State) (f : Field) (i v : Nat) (r' : Nat) : (s.wr f i v).ring r' = s.ring r' := rfl
@[simp] theorem State.port_wr (s : State) (f : Field) (i v : Nat) (p' : Nat) : (s.wr f i v).port p' = s.port p' := rfl

@[simp] theorem State.inc_pending (s : State) (f : Field) (i n : Nat) : (s.inc f i n).pending = s.pending := rfl
@[simp] theorem State.inc_hw (s : State) (f : Field) (i n : Nat) : (s.inc f i n).hw = s.hw := rfl
@[simp] theorem State.inc_fresh (s : State) (f : Field) (i n : Nat) : (s.inc f i n).fresh = s.fresh := rfl
@[simp] theorem State.inc_rdata (s : State) (f : Field) (i n : Nat) : (s.inc f i n).rdata = s.rdata := rfl
@[simp] theorem State.inc_evc (s : State) (f : Field) (i n : Nat) : (s.inc f i n).evc = s.evc := rfl
@[simp] theorem State.inc_harts (s : State) (f : Field) (i n : Nat) : (s.inc f i n).harts = s.harts := rfl
@[simp] theorem State.inc_l2 (s : State) (f : Field) (i n : Nat) : (s.inc f i n).l2 = s.l2 := rfl
@[simp] theorem State.inc_dir (s : State) (f : Field) (i n : Nat) : (s.inc f i n).dir = s.dir := rfl
@[simp] theorem State.inc_groups (s : State) (f : Field) (i n : Nat) : (s.inc f i n).groups = s.groups := rfl
@[simp] theorem State.inc_mem (s : State) (f : Field) (i n : Nat) : (s.inc f i n).mem = s.mem := rfl
@[simp] theorem State.inc_beat (s : State) (f : Field) (i n : Nat) : (s.inc f i n).beat = s.beat := rfl
@[simp] theorem State.inc_lanes (s : State) (f : Field) (i n : Nat) : (s.inc f i n).lanes = s.lanes := rfl
@[simp] theorem State.inc_ctx (s : State) (f : Field) (i n : Nat) : (s.inc f i n).ctx = s.ctx := rfl
@[simp] theorem State.inc_trg (s : State) (f : Field) (i n : Nat) : (s.inc f i n).trg = s.trg := rfl
@[simp] theorem State.inc_tio (s : State) (f : Field) (i n : Nat) : (s.inc f i n).tio = s.tio := rfl
@[simp] theorem State.inc_evb (s : State) (f : Field) (i n : Nat) : (s.inc f i n).evb = s.evb := rfl
@[simp] theorem State.inc_guests (s : State) (f : Field) (i n : Nat) : (s.inc f i n).guests = s.guests := rfl
@[simp] theorem State.inc_aln (s : State) (f : Field) (i n : Nat) : (s.inc f i n).aln = s.aln := rfl
@[simp] theorem State.inc_stp (s : State) (f : Field) (i n : Nat) : (s.inc f i n).stp = s.stp := rfl
@[simp] theorem State.inc_eth (s : State) (f : Field) (i n : Nat) : (s.inc f i n).eth = s.eth := rfl
@[simp] theorem State.inc_hif (s : State) (f : Field) (i n : Nat) : (s.inc f i n).hif = s.hif := rfl
@[simp] theorem State.inc_fuses (s : State) (f : Field) (i n : Nat) : (s.inc f i n).fuses = s.fuses := rfl
@[simp] theorem State.inc_vellum (s : State) (f : Field) (i n : Nat) : (s.inc f i n).vellum = s.vellum := rfl
@[simp] theorem State.inc_boot (s : State) (f : Field) (i n : Nat) : (s.inc f i n).boot = s.boot := rfl
@[simp] theorem State.inc_dbg (s : State) (f : Field) (i n : Nat) : (s.inc f i n).dbg = s.dbg := rfl
@[simp] theorem State.inc_ckr (s : State) (f : Field) (i n : Nat) : (s.inc f i n).ckr = s.ckr := rfl
@[simp] theorem State.inc_pwr (s : State) (f : Field) (i n : Nat) : (s.inc f i n).pwr = s.pwr := rfl
@[simp] theorem State.inc_pins (s : State) (f : Field) (i n : Nat) : (s.inc f i n).pins = s.pins := rfl
@[simp] theorem State.inc_lgr (s : State) (f : Field) (i n : Nat) : (s.inc f i n).lgr = s.lgr := rfl
@[simp] theorem State.hart_inc (s : State) (f : Field) (i n : Nat) (c' : Nat) : (s.inc f i n).hart c' = s.hart c' := rfl
@[simp] theorem State.l2c_inc (s : State) (f : Field) (i n : Nat) (c' : Nat) : (s.inc f i n).l2c c' = s.l2c c' := rfl
@[simp] theorem State.lane_inc (s : State) (f : Field) (i n : Nat) (n' : Nat) : (s.inc f i n).lane n' = s.lane n' := rfl
@[simp] theorem State.guest_inc (s : State) (f : Field) (i n : Nat) (g' : Nat) : (s.inc f i n).guest g' = s.guest g' := rfl
@[simp] theorem State.alnPort_inc (s : State) (f : Field) (i n : Nat) (n' : Nat) : (s.inc f i n).alnPort n' = s.alnPort n' := rfl
@[simp] theorem State.ring_inc (s : State) (f : Field) (i n : Nat) (r' : Nat) : (s.inc f i n).ring r' = s.ring r' := rfl
@[simp] theorem State.port_inc (s : State) (f : Field) (i n : Nat) (p' : Nat) : (s.inc f i n).port p' = s.port p' := rfl

@[simp] theorem State.bump_pending (s : State) (f : Field) (i : Nat) : (s.bump f i).pending = s.pending := rfl
@[simp] theorem State.bump_hw (s : State) (f : Field) (i : Nat) : (s.bump f i).hw = s.hw := rfl
@[simp] theorem State.bump_fresh (s : State) (f : Field) (i : Nat) : (s.bump f i).fresh = s.fresh := rfl
@[simp] theorem State.bump_rdata (s : State) (f : Field) (i : Nat) : (s.bump f i).rdata = s.rdata := rfl
@[simp] theorem State.bump_evc (s : State) (f : Field) (i : Nat) : (s.bump f i).evc = s.evc := rfl
@[simp] theorem State.bump_harts (s : State) (f : Field) (i : Nat) : (s.bump f i).harts = s.harts := rfl
@[simp] theorem State.bump_l2 (s : State) (f : Field) (i : Nat) : (s.bump f i).l2 = s.l2 := rfl
@[simp] theorem State.bump_dir (s : State) (f : Field) (i : Nat) : (s.bump f i).dir = s.dir := rfl
@[simp] theorem State.bump_groups (s : State) (f : Field) (i : Nat) : (s.bump f i).groups = s.groups := rfl
@[simp] theorem State.bump_mem (s : State) (f : Field) (i : Nat) : (s.bump f i).mem = s.mem := rfl
@[simp] theorem State.bump_beat (s : State) (f : Field) (i : Nat) : (s.bump f i).beat = s.beat := rfl
@[simp] theorem State.bump_lanes (s : State) (f : Field) (i : Nat) : (s.bump f i).lanes = s.lanes := rfl
@[simp] theorem State.bump_ctx (s : State) (f : Field) (i : Nat) : (s.bump f i).ctx = s.ctx := rfl
@[simp] theorem State.bump_trg (s : State) (f : Field) (i : Nat) : (s.bump f i).trg = s.trg := rfl
@[simp] theorem State.bump_tio (s : State) (f : Field) (i : Nat) : (s.bump f i).tio = s.tio := rfl
@[simp] theorem State.bump_evb (s : State) (f : Field) (i : Nat) : (s.bump f i).evb = s.evb := rfl
@[simp] theorem State.bump_guests (s : State) (f : Field) (i : Nat) : (s.bump f i).guests = s.guests := rfl
@[simp] theorem State.bump_aln (s : State) (f : Field) (i : Nat) : (s.bump f i).aln = s.aln := rfl
@[simp] theorem State.bump_stp (s : State) (f : Field) (i : Nat) : (s.bump f i).stp = s.stp := rfl
@[simp] theorem State.bump_eth (s : State) (f : Field) (i : Nat) : (s.bump f i).eth = s.eth := rfl
@[simp] theorem State.bump_hif (s : State) (f : Field) (i : Nat) : (s.bump f i).hif = s.hif := rfl
@[simp] theorem State.bump_fuses (s : State) (f : Field) (i : Nat) : (s.bump f i).fuses = s.fuses := rfl
@[simp] theorem State.bump_vellum (s : State) (f : Field) (i : Nat) : (s.bump f i).vellum = s.vellum := rfl
@[simp] theorem State.bump_boot (s : State) (f : Field) (i : Nat) : (s.bump f i).boot = s.boot := rfl
@[simp] theorem State.bump_dbg (s : State) (f : Field) (i : Nat) : (s.bump f i).dbg = s.dbg := rfl
@[simp] theorem State.bump_ckr (s : State) (f : Field) (i : Nat) : (s.bump f i).ckr = s.ckr := rfl
@[simp] theorem State.bump_pwr (s : State) (f : Field) (i : Nat) : (s.bump f i).pwr = s.pwr := rfl
@[simp] theorem State.bump_pins (s : State) (f : Field) (i : Nat) : (s.bump f i).pins = s.pins := rfl
@[simp] theorem State.bump_lgr (s : State) (f : Field) (i : Nat) : (s.bump f i).lgr = s.lgr := rfl
@[simp] theorem State.hart_bump (s : State) (f : Field) (i : Nat) (c' : Nat) : (s.bump f i).hart c' = s.hart c' := rfl
@[simp] theorem State.l2c_bump (s : State) (f : Field) (i : Nat) (c' : Nat) : (s.bump f i).l2c c' = s.l2c c' := rfl
@[simp] theorem State.lane_bump (s : State) (f : Field) (i : Nat) (n' : Nat) : (s.bump f i).lane n' = s.lane n' := rfl
@[simp] theorem State.guest_bump (s : State) (f : Field) (i : Nat) (g' : Nat) : (s.bump f i).guest g' = s.guest g' := rfl
@[simp] theorem State.alnPort_bump (s : State) (f : Field) (i : Nat) (n' : Nat) : (s.bump f i).alnPort n' = s.alnPort n' := rfl
@[simp] theorem State.ring_bump (s : State) (f : Field) (i : Nat) (r' : Nat) : (s.bump f i).ring r' = s.ring r' := rfl
@[simp] theorem State.port_bump (s : State) (f : Field) (i : Nat) (p' : Nat) : (s.bump f i).port p' = s.port p' := rfl

@[simp] theorem State.putBit_pending (s : State) (f : Field) (i k : Nat) (b : Bool) : (s.putBit f i k b).pending = s.pending := rfl
@[simp] theorem State.putBit_hw (s : State) (f : Field) (i k : Nat) (b : Bool) : (s.putBit f i k b).hw = s.hw := rfl
@[simp] theorem State.putBit_fresh (s : State) (f : Field) (i k : Nat) (b : Bool) : (s.putBit f i k b).fresh = s.fresh := rfl
@[simp] theorem State.putBit_rdata (s : State) (f : Field) (i k : Nat) (b : Bool) : (s.putBit f i k b).rdata = s.rdata := rfl
@[simp] theorem State.putBit_evc (s : State) (f : Field) (i k : Nat) (b : Bool) : (s.putBit f i k b).evc = s.evc := rfl
@[simp] theorem State.putBit_harts (s : State) (f : Field) (i k : Nat) (b : Bool) : (s.putBit f i k b).harts = s.harts := rfl
@[simp] theorem State.putBit_l2 (s : State) (f : Field) (i k : Nat) (b : Bool) : (s.putBit f i k b).l2 = s.l2 := rfl
@[simp] theorem State.putBit_dir (s : State) (f : Field) (i k : Nat) (b : Bool) : (s.putBit f i k b).dir = s.dir := rfl
@[simp] theorem State.putBit_groups (s : State) (f : Field) (i k : Nat) (b : Bool) : (s.putBit f i k b).groups = s.groups := rfl
@[simp] theorem State.putBit_mem (s : State) (f : Field) (i k : Nat) (b : Bool) : (s.putBit f i k b).mem = s.mem := rfl
@[simp] theorem State.putBit_beat (s : State) (f : Field) (i k : Nat) (b : Bool) : (s.putBit f i k b).beat = s.beat := rfl
@[simp] theorem State.putBit_lanes (s : State) (f : Field) (i k : Nat) (b : Bool) : (s.putBit f i k b).lanes = s.lanes := rfl
@[simp] theorem State.putBit_ctx (s : State) (f : Field) (i k : Nat) (b : Bool) : (s.putBit f i k b).ctx = s.ctx := rfl
@[simp] theorem State.putBit_trg (s : State) (f : Field) (i k : Nat) (b : Bool) : (s.putBit f i k b).trg = s.trg := rfl
@[simp] theorem State.putBit_tio (s : State) (f : Field) (i k : Nat) (b : Bool) : (s.putBit f i k b).tio = s.tio := rfl
@[simp] theorem State.putBit_evb (s : State) (f : Field) (i k : Nat) (b : Bool) : (s.putBit f i k b).evb = s.evb := rfl
@[simp] theorem State.putBit_guests (s : State) (f : Field) (i k : Nat) (b : Bool) : (s.putBit f i k b).guests = s.guests := rfl
@[simp] theorem State.putBit_aln (s : State) (f : Field) (i k : Nat) (b : Bool) : (s.putBit f i k b).aln = s.aln := rfl
@[simp] theorem State.putBit_stp (s : State) (f : Field) (i k : Nat) (b : Bool) : (s.putBit f i k b).stp = s.stp := rfl
@[simp] theorem State.putBit_eth (s : State) (f : Field) (i k : Nat) (b : Bool) : (s.putBit f i k b).eth = s.eth := rfl
@[simp] theorem State.putBit_hif (s : State) (f : Field) (i k : Nat) (b : Bool) : (s.putBit f i k b).hif = s.hif := rfl
@[simp] theorem State.putBit_fuses (s : State) (f : Field) (i k : Nat) (b : Bool) : (s.putBit f i k b).fuses = s.fuses := rfl
@[simp] theorem State.putBit_vellum (s : State) (f : Field) (i k : Nat) (b : Bool) : (s.putBit f i k b).vellum = s.vellum := rfl
@[simp] theorem State.putBit_boot (s : State) (f : Field) (i k : Nat) (b : Bool) : (s.putBit f i k b).boot = s.boot := rfl
@[simp] theorem State.putBit_dbg (s : State) (f : Field) (i k : Nat) (b : Bool) : (s.putBit f i k b).dbg = s.dbg := rfl
@[simp] theorem State.putBit_ckr (s : State) (f : Field) (i k : Nat) (b : Bool) : (s.putBit f i k b).ckr = s.ckr := rfl
@[simp] theorem State.putBit_pwr (s : State) (f : Field) (i k : Nat) (b : Bool) : (s.putBit f i k b).pwr = s.pwr := rfl
@[simp] theorem State.putBit_pins (s : State) (f : Field) (i k : Nat) (b : Bool) : (s.putBit f i k b).pins = s.pins := rfl
@[simp] theorem State.putBit_lgr (s : State) (f : Field) (i k : Nat) (b : Bool) : (s.putBit f i k b).lgr = s.lgr := rfl
@[simp] theorem State.hart_putBit (s : State) (f : Field) (i k : Nat) (b : Bool) (c' : Nat) : (s.putBit f i k b).hart c' = s.hart c' := rfl
@[simp] theorem State.l2c_putBit (s : State) (f : Field) (i k : Nat) (b : Bool) (c' : Nat) : (s.putBit f i k b).l2c c' = s.l2c c' := rfl
@[simp] theorem State.lane_putBit (s : State) (f : Field) (i k : Nat) (b : Bool) (n' : Nat) : (s.putBit f i k b).lane n' = s.lane n' := rfl
@[simp] theorem State.guest_putBit (s : State) (f : Field) (i k : Nat) (b : Bool) (g' : Nat) : (s.putBit f i k b).guest g' = s.guest g' := rfl
@[simp] theorem State.alnPort_putBit (s : State) (f : Field) (i k : Nat) (b : Bool) (n' : Nat) : (s.putBit f i k b).alnPort n' = s.alnPort n' := rfl
@[simp] theorem State.ring_putBit (s : State) (f : Field) (i k : Nat) (b : Bool) (r' : Nat) : (s.putBit f i k b).ring r' = s.ring r' := rfl
@[simp] theorem State.port_putBit (s : State) (f : Field) (i k : Nat) (b : Bool) (p' : Nat) : (s.putBit f i k b).port p' = s.port p' := rfl

@[simp] theorem State.setHart_pending (s : State) (c : Nat) (h : Hart) : (s.setHart c h).pending = s.pending := rfl
@[simp] theorem State.setHart_hw (s : State) (c : Nat) (h : Hart) : (s.setHart c h).hw = s.hw := rfl
@[simp] theorem State.setHart_regs (s : State) (c : Nat) (h : Hart) : (s.setHart c h).regs = s.regs := rfl
@[simp] theorem State.setHart_fresh (s : State) (c : Nat) (h : Hart) : (s.setHart c h).fresh = s.fresh := rfl
@[simp] theorem State.setHart_rdata (s : State) (c : Nat) (h : Hart) : (s.setHart c h).rdata = s.rdata := rfl
@[simp] theorem State.setHart_evc (s : State) (c : Nat) (h : Hart) : (s.setHart c h).evc = s.evc := rfl
@[simp] theorem State.setHart_l2 (s : State) (c : Nat) (h : Hart) : (s.setHart c h).l2 = s.l2 := rfl
@[simp] theorem State.setHart_dir (s : State) (c : Nat) (h : Hart) : (s.setHart c h).dir = s.dir := rfl
@[simp] theorem State.setHart_groups (s : State) (c : Nat) (h : Hart) : (s.setHart c h).groups = s.groups := rfl
@[simp] theorem State.setHart_mem (s : State) (c : Nat) (h : Hart) : (s.setHart c h).mem = s.mem := rfl
@[simp] theorem State.setHart_beat (s : State) (c : Nat) (h : Hart) : (s.setHart c h).beat = s.beat := rfl
@[simp] theorem State.setHart_lanes (s : State) (c : Nat) (h : Hart) : (s.setHart c h).lanes = s.lanes := rfl
@[simp] theorem State.setHart_ctx (s : State) (c : Nat) (h : Hart) : (s.setHart c h).ctx = s.ctx := rfl
@[simp] theorem State.setHart_trg (s : State) (c : Nat) (h : Hart) : (s.setHart c h).trg = s.trg := rfl
@[simp] theorem State.setHart_tio (s : State) (c : Nat) (h : Hart) : (s.setHart c h).tio = s.tio := rfl
@[simp] theorem State.setHart_evb (s : State) (c : Nat) (h : Hart) : (s.setHart c h).evb = s.evb := rfl
@[simp] theorem State.setHart_guests (s : State) (c : Nat) (h : Hart) : (s.setHart c h).guests = s.guests := rfl
@[simp] theorem State.setHart_aln (s : State) (c : Nat) (h : Hart) : (s.setHart c h).aln = s.aln := rfl
@[simp] theorem State.setHart_stp (s : State) (c : Nat) (h : Hart) : (s.setHart c h).stp = s.stp := rfl
@[simp] theorem State.setHart_eth (s : State) (c : Nat) (h : Hart) : (s.setHart c h).eth = s.eth := rfl
@[simp] theorem State.setHart_hif (s : State) (c : Nat) (h : Hart) : (s.setHart c h).hif = s.hif := rfl
@[simp] theorem State.setHart_fuses (s : State) (c : Nat) (h : Hart) : (s.setHart c h).fuses = s.fuses := rfl
@[simp] theorem State.setHart_vellum (s : State) (c : Nat) (h : Hart) : (s.setHart c h).vellum = s.vellum := rfl
@[simp] theorem State.setHart_boot (s : State) (c : Nat) (h : Hart) : (s.setHart c h).boot = s.boot := rfl
@[simp] theorem State.setHart_dbg (s : State) (c : Nat) (h : Hart) : (s.setHart c h).dbg = s.dbg := rfl
@[simp] theorem State.setHart_ckr (s : State) (c : Nat) (h : Hart) : (s.setHart c h).ckr = s.ckr := rfl
@[simp] theorem State.setHart_pwr (s : State) (c : Nat) (h : Hart) : (s.setHart c h).pwr = s.pwr := rfl
@[simp] theorem State.setHart_pins (s : State) (c : Nat) (h : Hart) : (s.setHart c h).pins = s.pins := rfl
@[simp] theorem State.setHart_lgr (s : State) (c : Nat) (h : Hart) : (s.setHart c h).lgr = s.lgr := rfl
@[simp] theorem State.rd_setHart (s : State) (c : Nat) (h : Hart) (g' : Field) (j' : Nat) : (s.setHart c h).rd g' j' = s.rd g' j' := rfl
@[simp] theorem State.l2c_setHart (s : State) (c : Nat) (h : Hart) (c' : Nat) : (s.setHart c h).l2c c' = s.l2c c' := rfl
@[simp] theorem State.lane_setHart (s : State) (c : Nat) (h : Hart) (n' : Nat) : (s.setHart c h).lane n' = s.lane n' := rfl
@[simp] theorem State.guest_setHart (s : State) (c : Nat) (h : Hart) (g' : Nat) : (s.setHart c h).guest g' = s.guest g' := rfl
@[simp] theorem State.alnPort_setHart (s : State) (c : Nat) (h : Hart) (n' : Nat) : (s.setHart c h).alnPort n' = s.alnPort n' := rfl
@[simp] theorem State.ring_setHart (s : State) (c : Nat) (h : Hart) (r' : Nat) : (s.setHart c h).ring r' = s.ring r' := rfl
@[simp] theorem State.port_setHart (s : State) (c : Nat) (h : Hart) (p' : Nat) : (s.setHart c h).port p' = s.port p' := rfl

@[simp] theorem State.setL2_pending (s : State) (c : Nat) (l : L2State) : (s.setL2 c l).pending = s.pending := rfl
@[simp] theorem State.setL2_hw (s : State) (c : Nat) (l : L2State) : (s.setL2 c l).hw = s.hw := rfl
@[simp] theorem State.setL2_regs (s : State) (c : Nat) (l : L2State) : (s.setL2 c l).regs = s.regs := rfl
@[simp] theorem State.setL2_fresh (s : State) (c : Nat) (l : L2State) : (s.setL2 c l).fresh = s.fresh := rfl
@[simp] theorem State.setL2_rdata (s : State) (c : Nat) (l : L2State) : (s.setL2 c l).rdata = s.rdata := rfl
@[simp] theorem State.setL2_evc (s : State) (c : Nat) (l : L2State) : (s.setL2 c l).evc = s.evc := rfl
@[simp] theorem State.setL2_harts (s : State) (c : Nat) (l : L2State) : (s.setL2 c l).harts = s.harts := rfl
@[simp] theorem State.setL2_dir (s : State) (c : Nat) (l : L2State) : (s.setL2 c l).dir = s.dir := rfl
@[simp] theorem State.setL2_groups (s : State) (c : Nat) (l : L2State) : (s.setL2 c l).groups = s.groups := rfl
@[simp] theorem State.setL2_mem (s : State) (c : Nat) (l : L2State) : (s.setL2 c l).mem = s.mem := rfl
@[simp] theorem State.setL2_beat (s : State) (c : Nat) (l : L2State) : (s.setL2 c l).beat = s.beat := rfl
@[simp] theorem State.setL2_lanes (s : State) (c : Nat) (l : L2State) : (s.setL2 c l).lanes = s.lanes := rfl
@[simp] theorem State.setL2_ctx (s : State) (c : Nat) (l : L2State) : (s.setL2 c l).ctx = s.ctx := rfl
@[simp] theorem State.setL2_trg (s : State) (c : Nat) (l : L2State) : (s.setL2 c l).trg = s.trg := rfl
@[simp] theorem State.setL2_tio (s : State) (c : Nat) (l : L2State) : (s.setL2 c l).tio = s.tio := rfl
@[simp] theorem State.setL2_evb (s : State) (c : Nat) (l : L2State) : (s.setL2 c l).evb = s.evb := rfl
@[simp] theorem State.setL2_guests (s : State) (c : Nat) (l : L2State) : (s.setL2 c l).guests = s.guests := rfl
@[simp] theorem State.setL2_aln (s : State) (c : Nat) (l : L2State) : (s.setL2 c l).aln = s.aln := rfl
@[simp] theorem State.setL2_stp (s : State) (c : Nat) (l : L2State) : (s.setL2 c l).stp = s.stp := rfl
@[simp] theorem State.setL2_eth (s : State) (c : Nat) (l : L2State) : (s.setL2 c l).eth = s.eth := rfl
@[simp] theorem State.setL2_hif (s : State) (c : Nat) (l : L2State) : (s.setL2 c l).hif = s.hif := rfl
@[simp] theorem State.setL2_fuses (s : State) (c : Nat) (l : L2State) : (s.setL2 c l).fuses = s.fuses := rfl
@[simp] theorem State.setL2_vellum (s : State) (c : Nat) (l : L2State) : (s.setL2 c l).vellum = s.vellum := rfl
@[simp] theorem State.setL2_boot (s : State) (c : Nat) (l : L2State) : (s.setL2 c l).boot = s.boot := rfl
@[simp] theorem State.setL2_dbg (s : State) (c : Nat) (l : L2State) : (s.setL2 c l).dbg = s.dbg := rfl
@[simp] theorem State.setL2_ckr (s : State) (c : Nat) (l : L2State) : (s.setL2 c l).ckr = s.ckr := rfl
@[simp] theorem State.setL2_pwr (s : State) (c : Nat) (l : L2State) : (s.setL2 c l).pwr = s.pwr := rfl
@[simp] theorem State.setL2_pins (s : State) (c : Nat) (l : L2State) : (s.setL2 c l).pins = s.pins := rfl
@[simp] theorem State.setL2_lgr (s : State) (c : Nat) (l : L2State) : (s.setL2 c l).lgr = s.lgr := rfl
@[simp] theorem State.rd_setL2 (s : State) (c : Nat) (l : L2State) (g' : Field) (j' : Nat) : (s.setL2 c l).rd g' j' = s.rd g' j' := rfl
@[simp] theorem State.hart_setL2 (s : State) (c : Nat) (l : L2State) (c' : Nat) : (s.setL2 c l).hart c' = s.hart c' := rfl
@[simp] theorem State.lane_setL2 (s : State) (c : Nat) (l : L2State) (n' : Nat) : (s.setL2 c l).lane n' = s.lane n' := rfl
@[simp] theorem State.guest_setL2 (s : State) (c : Nat) (l : L2State) (g' : Nat) : (s.setL2 c l).guest g' = s.guest g' := rfl
@[simp] theorem State.alnPort_setL2 (s : State) (c : Nat) (l : L2State) (n' : Nat) : (s.setL2 c l).alnPort n' = s.alnPort n' := rfl
@[simp] theorem State.ring_setL2 (s : State) (c : Nat) (l : L2State) (r' : Nat) : (s.setL2 c l).ring r' = s.ring r' := rfl
@[simp] theorem State.port_setL2 (s : State) (c : Nat) (l : L2State) (p' : Nat) : (s.setL2 c l).port p' = s.port p' := rfl

@[simp] theorem State.setLane_pending (s : State) (n : Nat) (l : Lane) : (s.setLane n l).pending = s.pending := rfl
@[simp] theorem State.setLane_hw (s : State) (n : Nat) (l : Lane) : (s.setLane n l).hw = s.hw := rfl
@[simp] theorem State.setLane_regs (s : State) (n : Nat) (l : Lane) : (s.setLane n l).regs = s.regs := rfl
@[simp] theorem State.setLane_fresh (s : State) (n : Nat) (l : Lane) : (s.setLane n l).fresh = s.fresh := rfl
@[simp] theorem State.setLane_rdata (s : State) (n : Nat) (l : Lane) : (s.setLane n l).rdata = s.rdata := rfl
@[simp] theorem State.setLane_evc (s : State) (n : Nat) (l : Lane) : (s.setLane n l).evc = s.evc := rfl
@[simp] theorem State.setLane_harts (s : State) (n : Nat) (l : Lane) : (s.setLane n l).harts = s.harts := rfl
@[simp] theorem State.setLane_l2 (s : State) (n : Nat) (l : Lane) : (s.setLane n l).l2 = s.l2 := rfl
@[simp] theorem State.setLane_dir (s : State) (n : Nat) (l : Lane) : (s.setLane n l).dir = s.dir := rfl
@[simp] theorem State.setLane_groups (s : State) (n : Nat) (l : Lane) : (s.setLane n l).groups = s.groups := rfl
@[simp] theorem State.setLane_mem (s : State) (n : Nat) (l : Lane) : (s.setLane n l).mem = s.mem := rfl
@[simp] theorem State.setLane_beat (s : State) (n : Nat) (l : Lane) : (s.setLane n l).beat = s.beat := rfl
@[simp] theorem State.setLane_ctx (s : State) (n : Nat) (l : Lane) : (s.setLane n l).ctx = s.ctx := rfl
@[simp] theorem State.setLane_trg (s : State) (n : Nat) (l : Lane) : (s.setLane n l).trg = s.trg := rfl
@[simp] theorem State.setLane_tio (s : State) (n : Nat) (l : Lane) : (s.setLane n l).tio = s.tio := rfl
@[simp] theorem State.setLane_evb (s : State) (n : Nat) (l : Lane) : (s.setLane n l).evb = s.evb := rfl
@[simp] theorem State.setLane_guests (s : State) (n : Nat) (l : Lane) : (s.setLane n l).guests = s.guests := rfl
@[simp] theorem State.setLane_aln (s : State) (n : Nat) (l : Lane) : (s.setLane n l).aln = s.aln := rfl
@[simp] theorem State.setLane_stp (s : State) (n : Nat) (l : Lane) : (s.setLane n l).stp = s.stp := rfl
@[simp] theorem State.setLane_eth (s : State) (n : Nat) (l : Lane) : (s.setLane n l).eth = s.eth := rfl
@[simp] theorem State.setLane_hif (s : State) (n : Nat) (l : Lane) : (s.setLane n l).hif = s.hif := rfl
@[simp] theorem State.setLane_fuses (s : State) (n : Nat) (l : Lane) : (s.setLane n l).fuses = s.fuses := rfl
@[simp] theorem State.setLane_vellum (s : State) (n : Nat) (l : Lane) : (s.setLane n l).vellum = s.vellum := rfl
@[simp] theorem State.setLane_boot (s : State) (n : Nat) (l : Lane) : (s.setLane n l).boot = s.boot := rfl
@[simp] theorem State.setLane_dbg (s : State) (n : Nat) (l : Lane) : (s.setLane n l).dbg = s.dbg := rfl
@[simp] theorem State.setLane_ckr (s : State) (n : Nat) (l : Lane) : (s.setLane n l).ckr = s.ckr := rfl
@[simp] theorem State.setLane_pwr (s : State) (n : Nat) (l : Lane) : (s.setLane n l).pwr = s.pwr := rfl
@[simp] theorem State.setLane_pins (s : State) (n : Nat) (l : Lane) : (s.setLane n l).pins = s.pins := rfl
@[simp] theorem State.setLane_lgr (s : State) (n : Nat) (l : Lane) : (s.setLane n l).lgr = s.lgr := rfl
@[simp] theorem State.rd_setLane (s : State) (n : Nat) (l : Lane) (g' : Field) (j' : Nat) : (s.setLane n l).rd g' j' = s.rd g' j' := rfl
@[simp] theorem State.hart_setLane (s : State) (n : Nat) (l : Lane) (c' : Nat) : (s.setLane n l).hart c' = s.hart c' := rfl
@[simp] theorem State.l2c_setLane (s : State) (n : Nat) (l : Lane) (c' : Nat) : (s.setLane n l).l2c c' = s.l2c c' := rfl
@[simp] theorem State.guest_setLane (s : State) (n : Nat) (l : Lane) (g' : Nat) : (s.setLane n l).guest g' = s.guest g' := rfl
@[simp] theorem State.alnPort_setLane (s : State) (n : Nat) (l : Lane) (n' : Nat) : (s.setLane n l).alnPort n' = s.alnPort n' := rfl
@[simp] theorem State.ring_setLane (s : State) (n : Nat) (l : Lane) (r' : Nat) : (s.setLane n l).ring r' = s.ring r' := rfl
@[simp] theorem State.port_setLane (s : State) (n : Nat) (l : Lane) (p' : Nat) : (s.setLane n l).port p' = s.port p' := rfl

@[simp] theorem State.setGuest_pending (s : State) (g : Nat) (x : GuestSite) : (s.setGuest g x).pending = s.pending := rfl
@[simp] theorem State.setGuest_hw (s : State) (g : Nat) (x : GuestSite) : (s.setGuest g x).hw = s.hw := rfl
@[simp] theorem State.setGuest_regs (s : State) (g : Nat) (x : GuestSite) : (s.setGuest g x).regs = s.regs := rfl
@[simp] theorem State.setGuest_fresh (s : State) (g : Nat) (x : GuestSite) : (s.setGuest g x).fresh = s.fresh := rfl
@[simp] theorem State.setGuest_rdata (s : State) (g : Nat) (x : GuestSite) : (s.setGuest g x).rdata = s.rdata := rfl
@[simp] theorem State.setGuest_evc (s : State) (g : Nat) (x : GuestSite) : (s.setGuest g x).evc = s.evc := rfl
@[simp] theorem State.setGuest_harts (s : State) (g : Nat) (x : GuestSite) : (s.setGuest g x).harts = s.harts := rfl
@[simp] theorem State.setGuest_l2 (s : State) (g : Nat) (x : GuestSite) : (s.setGuest g x).l2 = s.l2 := rfl
@[simp] theorem State.setGuest_dir (s : State) (g : Nat) (x : GuestSite) : (s.setGuest g x).dir = s.dir := rfl
@[simp] theorem State.setGuest_groups (s : State) (g : Nat) (x : GuestSite) : (s.setGuest g x).groups = s.groups := rfl
@[simp] theorem State.setGuest_mem (s : State) (g : Nat) (x : GuestSite) : (s.setGuest g x).mem = s.mem := rfl
@[simp] theorem State.setGuest_beat (s : State) (g : Nat) (x : GuestSite) : (s.setGuest g x).beat = s.beat := rfl
@[simp] theorem State.setGuest_lanes (s : State) (g : Nat) (x : GuestSite) : (s.setGuest g x).lanes = s.lanes := rfl
@[simp] theorem State.setGuest_ctx (s : State) (g : Nat) (x : GuestSite) : (s.setGuest g x).ctx = s.ctx := rfl
@[simp] theorem State.setGuest_trg (s : State) (g : Nat) (x : GuestSite) : (s.setGuest g x).trg = s.trg := rfl
@[simp] theorem State.setGuest_tio (s : State) (g : Nat) (x : GuestSite) : (s.setGuest g x).tio = s.tio := rfl
@[simp] theorem State.setGuest_evb (s : State) (g : Nat) (x : GuestSite) : (s.setGuest g x).evb = s.evb := rfl
@[simp] theorem State.setGuest_aln (s : State) (g : Nat) (x : GuestSite) : (s.setGuest g x).aln = s.aln := rfl
@[simp] theorem State.setGuest_stp (s : State) (g : Nat) (x : GuestSite) : (s.setGuest g x).stp = s.stp := rfl
@[simp] theorem State.setGuest_eth (s : State) (g : Nat) (x : GuestSite) : (s.setGuest g x).eth = s.eth := rfl
@[simp] theorem State.setGuest_hif (s : State) (g : Nat) (x : GuestSite) : (s.setGuest g x).hif = s.hif := rfl
@[simp] theorem State.setGuest_fuses (s : State) (g : Nat) (x : GuestSite) : (s.setGuest g x).fuses = s.fuses := rfl
@[simp] theorem State.setGuest_vellum (s : State) (g : Nat) (x : GuestSite) : (s.setGuest g x).vellum = s.vellum := rfl
@[simp] theorem State.setGuest_boot (s : State) (g : Nat) (x : GuestSite) : (s.setGuest g x).boot = s.boot := rfl
@[simp] theorem State.setGuest_dbg (s : State) (g : Nat) (x : GuestSite) : (s.setGuest g x).dbg = s.dbg := rfl
@[simp] theorem State.setGuest_ckr (s : State) (g : Nat) (x : GuestSite) : (s.setGuest g x).ckr = s.ckr := rfl
@[simp] theorem State.setGuest_pwr (s : State) (g : Nat) (x : GuestSite) : (s.setGuest g x).pwr = s.pwr := rfl
@[simp] theorem State.setGuest_pins (s : State) (g : Nat) (x : GuestSite) : (s.setGuest g x).pins = s.pins := rfl
@[simp] theorem State.setGuest_lgr (s : State) (g : Nat) (x : GuestSite) : (s.setGuest g x).lgr = s.lgr := rfl
@[simp] theorem State.rd_setGuest (s : State) (g : Nat) (x : GuestSite) (g' : Field) (j' : Nat) : (s.setGuest g x).rd g' j' = s.rd g' j' := rfl
@[simp] theorem State.hart_setGuest (s : State) (g : Nat) (x : GuestSite) (c' : Nat) : (s.setGuest g x).hart c' = s.hart c' := rfl
@[simp] theorem State.l2c_setGuest (s : State) (g : Nat) (x : GuestSite) (c' : Nat) : (s.setGuest g x).l2c c' = s.l2c c' := rfl
@[simp] theorem State.lane_setGuest (s : State) (g : Nat) (x : GuestSite) (n' : Nat) : (s.setGuest g x).lane n' = s.lane n' := rfl
@[simp] theorem State.alnPort_setGuest (s : State) (g : Nat) (x : GuestSite) (n' : Nat) : (s.setGuest g x).alnPort n' = s.alnPort n' := rfl
@[simp] theorem State.ring_setGuest (s : State) (g : Nat) (x : GuestSite) (r' : Nat) : (s.setGuest g x).ring r' = s.ring r' := rfl
@[simp] theorem State.port_setGuest (s : State) (g : Nat) (x : GuestSite) (p' : Nat) : (s.setGuest g x).port p' = s.port p' := rfl

@[simp] theorem State.setAln_pending (s : State) (n : Nat) (x : AlnPort) : (s.setAln n x).pending = s.pending := rfl
@[simp] theorem State.setAln_hw (s : State) (n : Nat) (x : AlnPort) : (s.setAln n x).hw = s.hw := rfl
@[simp] theorem State.setAln_regs (s : State) (n : Nat) (x : AlnPort) : (s.setAln n x).regs = s.regs := rfl
@[simp] theorem State.setAln_fresh (s : State) (n : Nat) (x : AlnPort) : (s.setAln n x).fresh = s.fresh := rfl
@[simp] theorem State.setAln_rdata (s : State) (n : Nat) (x : AlnPort) : (s.setAln n x).rdata = s.rdata := rfl
@[simp] theorem State.setAln_evc (s : State) (n : Nat) (x : AlnPort) : (s.setAln n x).evc = s.evc := rfl
@[simp] theorem State.setAln_harts (s : State) (n : Nat) (x : AlnPort) : (s.setAln n x).harts = s.harts := rfl
@[simp] theorem State.setAln_l2 (s : State) (n : Nat) (x : AlnPort) : (s.setAln n x).l2 = s.l2 := rfl
@[simp] theorem State.setAln_dir (s : State) (n : Nat) (x : AlnPort) : (s.setAln n x).dir = s.dir := rfl
@[simp] theorem State.setAln_groups (s : State) (n : Nat) (x : AlnPort) : (s.setAln n x).groups = s.groups := rfl
@[simp] theorem State.setAln_mem (s : State) (n : Nat) (x : AlnPort) : (s.setAln n x).mem = s.mem := rfl
@[simp] theorem State.setAln_beat (s : State) (n : Nat) (x : AlnPort) : (s.setAln n x).beat = s.beat := rfl
@[simp] theorem State.setAln_lanes (s : State) (n : Nat) (x : AlnPort) : (s.setAln n x).lanes = s.lanes := rfl
@[simp] theorem State.setAln_ctx (s : State) (n : Nat) (x : AlnPort) : (s.setAln n x).ctx = s.ctx := rfl
@[simp] theorem State.setAln_trg (s : State) (n : Nat) (x : AlnPort) : (s.setAln n x).trg = s.trg := rfl
@[simp] theorem State.setAln_tio (s : State) (n : Nat) (x : AlnPort) : (s.setAln n x).tio = s.tio := rfl
@[simp] theorem State.setAln_evb (s : State) (n : Nat) (x : AlnPort) : (s.setAln n x).evb = s.evb := rfl
@[simp] theorem State.setAln_guests (s : State) (n : Nat) (x : AlnPort) : (s.setAln n x).guests = s.guests := rfl
@[simp] theorem State.setAln_stp (s : State) (n : Nat) (x : AlnPort) : (s.setAln n x).stp = s.stp := rfl
@[simp] theorem State.setAln_eth (s : State) (n : Nat) (x : AlnPort) : (s.setAln n x).eth = s.eth := rfl
@[simp] theorem State.setAln_hif (s : State) (n : Nat) (x : AlnPort) : (s.setAln n x).hif = s.hif := rfl
@[simp] theorem State.setAln_fuses (s : State) (n : Nat) (x : AlnPort) : (s.setAln n x).fuses = s.fuses := rfl
@[simp] theorem State.setAln_vellum (s : State) (n : Nat) (x : AlnPort) : (s.setAln n x).vellum = s.vellum := rfl
@[simp] theorem State.setAln_boot (s : State) (n : Nat) (x : AlnPort) : (s.setAln n x).boot = s.boot := rfl
@[simp] theorem State.setAln_dbg (s : State) (n : Nat) (x : AlnPort) : (s.setAln n x).dbg = s.dbg := rfl
@[simp] theorem State.setAln_ckr (s : State) (n : Nat) (x : AlnPort) : (s.setAln n x).ckr = s.ckr := rfl
@[simp] theorem State.setAln_pwr (s : State) (n : Nat) (x : AlnPort) : (s.setAln n x).pwr = s.pwr := rfl
@[simp] theorem State.setAln_pins (s : State) (n : Nat) (x : AlnPort) : (s.setAln n x).pins = s.pins := rfl
@[simp] theorem State.setAln_lgr (s : State) (n : Nat) (x : AlnPort) : (s.setAln n x).lgr = s.lgr := rfl
@[simp] theorem State.rd_setAln (s : State) (n : Nat) (x : AlnPort) (g' : Field) (j' : Nat) : (s.setAln n x).rd g' j' = s.rd g' j' := rfl
@[simp] theorem State.hart_setAln (s : State) (n : Nat) (x : AlnPort) (c' : Nat) : (s.setAln n x).hart c' = s.hart c' := rfl
@[simp] theorem State.l2c_setAln (s : State) (n : Nat) (x : AlnPort) (c' : Nat) : (s.setAln n x).l2c c' = s.l2c c' := rfl
@[simp] theorem State.lane_setAln (s : State) (n : Nat) (x : AlnPort) (n' : Nat) : (s.setAln n x).lane n' = s.lane n' := rfl
@[simp] theorem State.guest_setAln (s : State) (n : Nat) (x : AlnPort) (g' : Nat) : (s.setAln n x).guest g' = s.guest g' := rfl
@[simp] theorem State.ring_setAln (s : State) (n : Nat) (x : AlnPort) (r' : Nat) : (s.setAln n x).ring r' = s.ring r' := rfl
@[simp] theorem State.port_setAln (s : State) (n : Nat) (x : AlnPort) (p' : Nat) : (s.setAln n x).port p' = s.port p' := rfl

@[simp] theorem State.setRing_pending (s : State) (r : Nat) (x : Ring) : (s.setRing r x).pending = s.pending := rfl
@[simp] theorem State.setRing_hw (s : State) (r : Nat) (x : Ring) : (s.setRing r x).hw = s.hw := rfl
@[simp] theorem State.setRing_regs (s : State) (r : Nat) (x : Ring) : (s.setRing r x).regs = s.regs := rfl
@[simp] theorem State.setRing_fresh (s : State) (r : Nat) (x : Ring) : (s.setRing r x).fresh = s.fresh := rfl
@[simp] theorem State.setRing_rdata (s : State) (r : Nat) (x : Ring) : (s.setRing r x).rdata = s.rdata := rfl
@[simp] theorem State.setRing_evc (s : State) (r : Nat) (x : Ring) : (s.setRing r x).evc = s.evc := rfl
@[simp] theorem State.setRing_harts (s : State) (r : Nat) (x : Ring) : (s.setRing r x).harts = s.harts := rfl
@[simp] theorem State.setRing_l2 (s : State) (r : Nat) (x : Ring) : (s.setRing r x).l2 = s.l2 := rfl
@[simp] theorem State.setRing_dir (s : State) (r : Nat) (x : Ring) : (s.setRing r x).dir = s.dir := rfl
@[simp] theorem State.setRing_groups (s : State) (r : Nat) (x : Ring) : (s.setRing r x).groups = s.groups := rfl
@[simp] theorem State.setRing_mem (s : State) (r : Nat) (x : Ring) : (s.setRing r x).mem = s.mem := rfl
@[simp] theorem State.setRing_beat (s : State) (r : Nat) (x : Ring) : (s.setRing r x).beat = s.beat := rfl
@[simp] theorem State.setRing_lanes (s : State) (r : Nat) (x : Ring) : (s.setRing r x).lanes = s.lanes := rfl
@[simp] theorem State.setRing_ctx (s : State) (r : Nat) (x : Ring) : (s.setRing r x).ctx = s.ctx := rfl
@[simp] theorem State.setRing_trg (s : State) (r : Nat) (x : Ring) : (s.setRing r x).trg = s.trg := rfl
@[simp] theorem State.setRing_tio (s : State) (r : Nat) (x : Ring) : (s.setRing r x).tio = s.tio := rfl
@[simp] theorem State.setRing_evb (s : State) (r : Nat) (x : Ring) : (s.setRing r x).evb = s.evb := rfl
@[simp] theorem State.setRing_guests (s : State) (r : Nat) (x : Ring) : (s.setRing r x).guests = s.guests := rfl
@[simp] theorem State.setRing_aln (s : State) (r : Nat) (x : Ring) : (s.setRing r x).aln = s.aln := rfl
@[simp] theorem State.setRing_stp (s : State) (r : Nat) (x : Ring) : (s.setRing r x).stp = s.stp := rfl
@[simp] theorem State.setRing_eth (s : State) (r : Nat) (x : Ring) : (s.setRing r x).eth = s.eth := rfl
@[simp] theorem State.setRing_fuses (s : State) (r : Nat) (x : Ring) : (s.setRing r x).fuses = s.fuses := rfl
@[simp] theorem State.setRing_vellum (s : State) (r : Nat) (x : Ring) : (s.setRing r x).vellum = s.vellum := rfl
@[simp] theorem State.setRing_boot (s : State) (r : Nat) (x : Ring) : (s.setRing r x).boot = s.boot := rfl
@[simp] theorem State.setRing_dbg (s : State) (r : Nat) (x : Ring) : (s.setRing r x).dbg = s.dbg := rfl
@[simp] theorem State.setRing_ckr (s : State) (r : Nat) (x : Ring) : (s.setRing r x).ckr = s.ckr := rfl
@[simp] theorem State.setRing_pwr (s : State) (r : Nat) (x : Ring) : (s.setRing r x).pwr = s.pwr := rfl
@[simp] theorem State.setRing_pins (s : State) (r : Nat) (x : Ring) : (s.setRing r x).pins = s.pins := rfl
@[simp] theorem State.setRing_lgr (s : State) (r : Nat) (x : Ring) : (s.setRing r x).lgr = s.lgr := rfl
@[simp] theorem State.rd_setRing (s : State) (r : Nat) (x : Ring) (g' : Field) (j' : Nat) : (s.setRing r x).rd g' j' = s.rd g' j' := rfl
@[simp] theorem State.hart_setRing (s : State) (r : Nat) (x : Ring) (c' : Nat) : (s.setRing r x).hart c' = s.hart c' := rfl
@[simp] theorem State.l2c_setRing (s : State) (r : Nat) (x : Ring) (c' : Nat) : (s.setRing r x).l2c c' = s.l2c c' := rfl
@[simp] theorem State.lane_setRing (s : State) (r : Nat) (x : Ring) (n' : Nat) : (s.setRing r x).lane n' = s.lane n' := rfl
@[simp] theorem State.guest_setRing (s : State) (r : Nat) (x : Ring) (g' : Nat) : (s.setRing r x).guest g' = s.guest g' := rfl
@[simp] theorem State.alnPort_setRing (s : State) (r : Nat) (x : Ring) (n' : Nat) : (s.setRing r x).alnPort n' = s.alnPort n' := rfl

@[simp] theorem State.setPort_pending (s : State) (p : Nat) (x : PciePort) : (s.setPort p x).pending = s.pending := rfl
@[simp] theorem State.setPort_hw (s : State) (p : Nat) (x : PciePort) : (s.setPort p x).hw = s.hw := rfl
@[simp] theorem State.setPort_regs (s : State) (p : Nat) (x : PciePort) : (s.setPort p x).regs = s.regs := rfl
@[simp] theorem State.setPort_fresh (s : State) (p : Nat) (x : PciePort) : (s.setPort p x).fresh = s.fresh := rfl
@[simp] theorem State.setPort_rdata (s : State) (p : Nat) (x : PciePort) : (s.setPort p x).rdata = s.rdata := rfl
@[simp] theorem State.setPort_evc (s : State) (p : Nat) (x : PciePort) : (s.setPort p x).evc = s.evc := rfl
@[simp] theorem State.setPort_harts (s : State) (p : Nat) (x : PciePort) : (s.setPort p x).harts = s.harts := rfl
@[simp] theorem State.setPort_l2 (s : State) (p : Nat) (x : PciePort) : (s.setPort p x).l2 = s.l2 := rfl
@[simp] theorem State.setPort_dir (s : State) (p : Nat) (x : PciePort) : (s.setPort p x).dir = s.dir := rfl
@[simp] theorem State.setPort_groups (s : State) (p : Nat) (x : PciePort) : (s.setPort p x).groups = s.groups := rfl
@[simp] theorem State.setPort_mem (s : State) (p : Nat) (x : PciePort) : (s.setPort p x).mem = s.mem := rfl
@[simp] theorem State.setPort_beat (s : State) (p : Nat) (x : PciePort) : (s.setPort p x).beat = s.beat := rfl
@[simp] theorem State.setPort_lanes (s : State) (p : Nat) (x : PciePort) : (s.setPort p x).lanes = s.lanes := rfl
@[simp] theorem State.setPort_ctx (s : State) (p : Nat) (x : PciePort) : (s.setPort p x).ctx = s.ctx := rfl
@[simp] theorem State.setPort_trg (s : State) (p : Nat) (x : PciePort) : (s.setPort p x).trg = s.trg := rfl
@[simp] theorem State.setPort_tio (s : State) (p : Nat) (x : PciePort) : (s.setPort p x).tio = s.tio := rfl
@[simp] theorem State.setPort_evb (s : State) (p : Nat) (x : PciePort) : (s.setPort p x).evb = s.evb := rfl
@[simp] theorem State.setPort_guests (s : State) (p : Nat) (x : PciePort) : (s.setPort p x).guests = s.guests := rfl
@[simp] theorem State.setPort_aln (s : State) (p : Nat) (x : PciePort) : (s.setPort p x).aln = s.aln := rfl
@[simp] theorem State.setPort_stp (s : State) (p : Nat) (x : PciePort) : (s.setPort p x).stp = s.stp := rfl
@[simp] theorem State.setPort_eth (s : State) (p : Nat) (x : PciePort) : (s.setPort p x).eth = s.eth := rfl
@[simp] theorem State.setPort_fuses (s : State) (p : Nat) (x : PciePort) : (s.setPort p x).fuses = s.fuses := rfl
@[simp] theorem State.setPort_vellum (s : State) (p : Nat) (x : PciePort) : (s.setPort p x).vellum = s.vellum := rfl
@[simp] theorem State.setPort_boot (s : State) (p : Nat) (x : PciePort) : (s.setPort p x).boot = s.boot := rfl
@[simp] theorem State.setPort_dbg (s : State) (p : Nat) (x : PciePort) : (s.setPort p x).dbg = s.dbg := rfl
@[simp] theorem State.setPort_ckr (s : State) (p : Nat) (x : PciePort) : (s.setPort p x).ckr = s.ckr := rfl
@[simp] theorem State.setPort_pwr (s : State) (p : Nat) (x : PciePort) : (s.setPort p x).pwr = s.pwr := rfl
@[simp] theorem State.setPort_pins (s : State) (p : Nat) (x : PciePort) : (s.setPort p x).pins = s.pins := rfl
@[simp] theorem State.setPort_lgr (s : State) (p : Nat) (x : PciePort) : (s.setPort p x).lgr = s.lgr := rfl
@[simp] theorem State.rd_setPort (s : State) (p : Nat) (x : PciePort) (g' : Field) (j' : Nat) : (s.setPort p x).rd g' j' = s.rd g' j' := rfl
@[simp] theorem State.hart_setPort (s : State) (p : Nat) (x : PciePort) (c' : Nat) : (s.setPort p x).hart c' = s.hart c' := rfl
@[simp] theorem State.l2c_setPort (s : State) (p : Nat) (x : PciePort) (c' : Nat) : (s.setPort p x).l2c c' = s.l2c c' := rfl
@[simp] theorem State.lane_setPort (s : State) (p : Nat) (x : PciePort) (n' : Nat) : (s.setPort p x).lane n' = s.lane n' := rfl
@[simp] theorem State.guest_setPort (s : State) (p : Nat) (x : PciePort) (g' : Nat) : (s.setPort p x).guest g' = s.guest g' := rfl
@[simp] theorem State.alnPort_setPort (s : State) (p : Nat) (x : PciePort) (n' : Nat) : (s.setPort p x).alnPort n' = s.alnPort n' := rfl

@[simp] theorem State.sendTlp_pending (s : State) (p : Nat) (x : HostTlp) : (s.sendTlp p x).pending = s.pending := rfl
@[simp] theorem State.sendTlp_hw (s : State) (p : Nat) (x : HostTlp) : (s.sendTlp p x).hw = s.hw := rfl
@[simp] theorem State.sendTlp_regs (s : State) (p : Nat) (x : HostTlp) : (s.sendTlp p x).regs = s.regs := rfl
@[simp] theorem State.sendTlp_fresh (s : State) (p : Nat) (x : HostTlp) : (s.sendTlp p x).fresh = s.fresh := rfl
@[simp] theorem State.sendTlp_rdata (s : State) (p : Nat) (x : HostTlp) : (s.sendTlp p x).rdata = s.rdata := rfl
@[simp] theorem State.sendTlp_evc (s : State) (p : Nat) (x : HostTlp) : (s.sendTlp p x).evc = s.evc := rfl
@[simp] theorem State.sendTlp_harts (s : State) (p : Nat) (x : HostTlp) : (s.sendTlp p x).harts = s.harts := rfl
@[simp] theorem State.sendTlp_l2 (s : State) (p : Nat) (x : HostTlp) : (s.sendTlp p x).l2 = s.l2 := rfl
@[simp] theorem State.sendTlp_dir (s : State) (p : Nat) (x : HostTlp) : (s.sendTlp p x).dir = s.dir := rfl
@[simp] theorem State.sendTlp_groups (s : State) (p : Nat) (x : HostTlp) : (s.sendTlp p x).groups = s.groups := rfl
@[simp] theorem State.sendTlp_mem (s : State) (p : Nat) (x : HostTlp) : (s.sendTlp p x).mem = s.mem := rfl
@[simp] theorem State.sendTlp_beat (s : State) (p : Nat) (x : HostTlp) : (s.sendTlp p x).beat = s.beat := rfl
@[simp] theorem State.sendTlp_lanes (s : State) (p : Nat) (x : HostTlp) : (s.sendTlp p x).lanes = s.lanes := rfl
@[simp] theorem State.sendTlp_ctx (s : State) (p : Nat) (x : HostTlp) : (s.sendTlp p x).ctx = s.ctx := rfl
@[simp] theorem State.sendTlp_trg (s : State) (p : Nat) (x : HostTlp) : (s.sendTlp p x).trg = s.trg := rfl
@[simp] theorem State.sendTlp_tio (s : State) (p : Nat) (x : HostTlp) : (s.sendTlp p x).tio = s.tio := rfl
@[simp] theorem State.sendTlp_evb (s : State) (p : Nat) (x : HostTlp) : (s.sendTlp p x).evb = s.evb := rfl
@[simp] theorem State.sendTlp_guests (s : State) (p : Nat) (x : HostTlp) : (s.sendTlp p x).guests = s.guests := rfl
@[simp] theorem State.sendTlp_aln (s : State) (p : Nat) (x : HostTlp) : (s.sendTlp p x).aln = s.aln := rfl
@[simp] theorem State.sendTlp_stp (s : State) (p : Nat) (x : HostTlp) : (s.sendTlp p x).stp = s.stp := rfl
@[simp] theorem State.sendTlp_eth (s : State) (p : Nat) (x : HostTlp) : (s.sendTlp p x).eth = s.eth := rfl
@[simp] theorem State.sendTlp_fuses (s : State) (p : Nat) (x : HostTlp) : (s.sendTlp p x).fuses = s.fuses := rfl
@[simp] theorem State.sendTlp_vellum (s : State) (p : Nat) (x : HostTlp) : (s.sendTlp p x).vellum = s.vellum := rfl
@[simp] theorem State.sendTlp_boot (s : State) (p : Nat) (x : HostTlp) : (s.sendTlp p x).boot = s.boot := rfl
@[simp] theorem State.sendTlp_dbg (s : State) (p : Nat) (x : HostTlp) : (s.sendTlp p x).dbg = s.dbg := rfl
@[simp] theorem State.sendTlp_ckr (s : State) (p : Nat) (x : HostTlp) : (s.sendTlp p x).ckr = s.ckr := rfl
@[simp] theorem State.sendTlp_pwr (s : State) (p : Nat) (x : HostTlp) : (s.sendTlp p x).pwr = s.pwr := rfl
@[simp] theorem State.sendTlp_pins (s : State) (p : Nat) (x : HostTlp) : (s.sendTlp p x).pins = s.pins := rfl
@[simp] theorem State.sendTlp_lgr (s : State) (p : Nat) (x : HostTlp) : (s.sendTlp p x).lgr = s.lgr := rfl
@[simp] theorem State.rd_sendTlp (s : State) (p : Nat) (x : HostTlp) (g' : Field) (j' : Nat) : (s.sendTlp p x).rd g' j' = s.rd g' j' := rfl
@[simp] theorem State.hart_sendTlp (s : State) (p : Nat) (x : HostTlp) (c' : Nat) : (s.sendTlp p x).hart c' = s.hart c' := rfl
@[simp] theorem State.l2c_sendTlp (s : State) (p : Nat) (x : HostTlp) (c' : Nat) : (s.sendTlp p x).l2c c' = s.l2c c' := rfl
@[simp] theorem State.lane_sendTlp (s : State) (p : Nat) (x : HostTlp) (n' : Nat) : (s.sendTlp p x).lane n' = s.lane n' := rfl
@[simp] theorem State.guest_sendTlp (s : State) (p : Nat) (x : HostTlp) (g' : Nat) : (s.sendTlp p x).guest g' = s.guest g' := rfl
@[simp] theorem State.alnPort_sendTlp (s : State) (p : Nat) (x : HostTlp) (n' : Nat) : (s.sendTlp p x).alnPort n' = s.alnPort n' := rfl

/-! ## Numbered parts of the state -/

@[simp] theorem State.hart_setHart (s : State) (n : Nat) (x : Hart) : (s.setHart n x).hart n = x := by
  simp [State.hart, State.setHart]

theorem State.hart_setHart_of_ne (s : State) {n m : Nat} (x : Hart) (h : n ≠ m) : (s.setHart n x).hart m = s.hart m := by
  simp [State.hart, State.setHart, Tbl.get_set_of_ne _ _ _ _ h]

@[simp] theorem State.l2c_setL2 (s : State) (n : Nat) (x : L2State) : (s.setL2 n x).l2c n = x := by
  simp [State.l2c, State.setL2]

theorem State.l2c_setL2_of_ne (s : State) {n m : Nat} (x : L2State) (h : n ≠ m) : (s.setL2 n x).l2c m = s.l2c m := by
  simp [State.l2c, State.setL2, Tbl.get_set_of_ne _ _ _ _ h]

@[simp] theorem State.lane_setLane (s : State) (n : Nat) (x : Lane) : (s.setLane n x).lane n = x := by
  simp [State.lane, State.setLane]

theorem State.lane_setLane_of_ne (s : State) {n m : Nat} (x : Lane) (h : n ≠ m) : (s.setLane n x).lane m = s.lane m := by
  simp [State.lane, State.setLane, Tbl.get_set_of_ne _ _ _ _ h]

@[simp] theorem State.guest_setGuest (s : State) (n : Nat) (x : GuestSite) : (s.setGuest n x).guest n = x := by
  simp [State.guest, State.setGuest]

theorem State.guest_setGuest_of_ne (s : State) {n m : Nat} (x : GuestSite) (h : n ≠ m) : (s.setGuest n x).guest m = s.guest m := by
  simp [State.guest, State.setGuest, Tbl.get_set_of_ne _ _ _ _ h]

@[simp] theorem State.alnPort_setAln (s : State) (n : Nat) (x : AlnPort) : (s.setAln n x).alnPort n = x := by
  simp [State.alnPort, State.setAln]

theorem State.alnPort_setAln_of_ne (s : State) {n m : Nat} (x : AlnPort) (h : n ≠ m) : (s.setAln n x).alnPort m = s.alnPort m := by
  simp [State.alnPort, State.setAln, Tbl.get_set_of_ne _ _ _ _ h]

@[simp] theorem State.ring_setRing (s : State) (n : Nat) (x : Ring) : (s.setRing n x).ring n = x := by
  simp [State.ring, State.setRing]

theorem State.ring_setRing_of_ne (s : State) {n m : Nat} (x : Ring) (h : n ≠ m) : (s.setRing n x).ring m = s.ring m := by
  simp [State.ring, State.setRing, Tbl.get_set_of_ne _ _ _ _ h]

@[simp] theorem State.port_setPort_zero (s : State) (x : PciePort) : (s.setPort 0 x).port 0 = x := rfl

@[simp] theorem State.port_setRing (s : State) (r : Nat) (x : Ring) (p : Nat) : (s.setRing r x).port p = s.port p := rfl

@[simp] theorem State.ring_setPort (s : State) (p : Nat) (x : PciePort) (r : Nat) : (s.setPort p x).ring r = s.ring r := by
  simp only [State.ring, State.setPort]; split <;> rfl

@[simp] theorem State.ring_sendTlp (s : State) (p : Nat) (x : HostTlp) (r : Nat) : (s.sendTlp p x).ring r = s.ring r := by
  simp [State.sendTlp]

/-! ## Reading a part of the state after another part is replaced -/

@[simp] theorem State.rd_with_pending (s : State) (z : List Instr) (g : Field) (j : Nat) : State.rd { s with pending := z } g j = s.rd g j := rfl
@[simp] theorem State.hart_with_pending (s : State) (z : List Instr) (c : Nat) : State.hart { s with pending := z } c = s.hart c := rfl
@[simp] theorem State.l2c_with_pending (s : State) (z : List Instr) (c : Nat) : State.l2c { s with pending := z } c = s.l2c c := rfl
@[simp] theorem State.lane_with_pending (s : State) (z : List Instr) (n : Nat) : State.lane { s with pending := z } n = s.lane n := rfl
@[simp] theorem State.guest_with_pending (s : State) (z : List Instr) (g : Nat) : State.guest { s with pending := z } g = s.guest g := rfl
@[simp] theorem State.alnPort_with_pending (s : State) (z : List Instr) (n : Nat) : State.alnPort { s with pending := z } n = s.alnPort n := rfl
@[simp] theorem State.ring_with_pending (s : State) (z : List Instr) (r : Nat) : State.ring { s with pending := z } r = s.ring r := rfl
@[simp] theorem State.port_with_pending (s : State) (z : List Instr) (p : Nat) : State.port { s with pending := z } p = s.port p := rfl
@[simp] theorem State.rd_with_hw (s : State) (z : Variant) (g : Field) (j : Nat) : State.rd { s with hw := z } g j = s.rd g j := rfl
@[simp] theorem State.hart_with_hw (s : State) (z : Variant) (c : Nat) : State.hart { s with hw := z } c = s.hart c := rfl
@[simp] theorem State.l2c_with_hw (s : State) (z : Variant) (c : Nat) : State.l2c { s with hw := z } c = s.l2c c := rfl
@[simp] theorem State.lane_with_hw (s : State) (z : Variant) (n : Nat) : State.lane { s with hw := z } n = s.lane n := rfl
@[simp] theorem State.guest_with_hw (s : State) (z : Variant) (g : Nat) : State.guest { s with hw := z } g = s.guest g := rfl
@[simp] theorem State.alnPort_with_hw (s : State) (z : Variant) (n : Nat) : State.alnPort { s with hw := z } n = s.alnPort n := rfl
@[simp] theorem State.ring_with_hw (s : State) (z : Variant) (r : Nat) : State.ring { s with hw := z } r = s.ring r := rfl
@[simp] theorem State.port_with_hw (s : State) (z : Variant) (p : Nat) : State.port { s with hw := z } p = s.port p := rfl
@[simp] theorem State.hart_with_regs (s : State) (z : Tbl RegKey Nat) (c : Nat) : State.hart { s with regs := z } c = s.hart c := rfl
@[simp] theorem State.l2c_with_regs (s : State) (z : Tbl RegKey Nat) (c : Nat) : State.l2c { s with regs := z } c = s.l2c c := rfl
@[simp] theorem State.lane_with_regs (s : State) (z : Tbl RegKey Nat) (n : Nat) : State.lane { s with regs := z } n = s.lane n := rfl
@[simp] theorem State.guest_with_regs (s : State) (z : Tbl RegKey Nat) (g : Nat) : State.guest { s with regs := z } g = s.guest g := rfl
@[simp] theorem State.alnPort_with_regs (s : State) (z : Tbl RegKey Nat) (n : Nat) : State.alnPort { s with regs := z } n = s.alnPort n := rfl
@[simp] theorem State.ring_with_regs (s : State) (z : Tbl RegKey Nat) (r : Nat) : State.ring { s with regs := z } r = s.ring r := rfl
@[simp] theorem State.port_with_regs (s : State) (z : Tbl RegKey Nat) (p : Nat) : State.port { s with regs := z } p = s.port p := rfl
@[simp] theorem State.rd_with_fresh (s : State) (z : Nat) (g : Field) (j : Nat) : State.rd { s with fresh := z } g j = s.rd g j := rfl
@[simp] theorem State.hart_with_fresh (s : State) (z : Nat) (c : Nat) : State.hart { s with fresh := z } c = s.hart c := rfl
@[simp] theorem State.l2c_with_fresh (s : State) (z : Nat) (c : Nat) : State.l2c { s with fresh := z } c = s.l2c c := rfl
@[simp] theorem State.lane_with_fresh (s : State) (z : Nat) (n : Nat) : State.lane { s with fresh := z } n = s.lane n := rfl
@[simp] theorem State.guest_with_fresh (s : State) (z : Nat) (g : Nat) : State.guest { s with fresh := z } g = s.guest g := rfl
@[simp] theorem State.alnPort_with_fresh (s : State) (z : Nat) (n : Nat) : State.alnPort { s with fresh := z } n = s.alnPort n := rfl
@[simp] theorem State.ring_with_fresh (s : State) (z : Nat) (r : Nat) : State.ring { s with fresh := z } r = s.ring r := rfl
@[simp] theorem State.port_with_fresh (s : State) (z : Nat) (p : Nat) : State.port { s with fresh := z } p = s.port p := rfl
@[simp] theorem State.rd_with_rdata (s : State) (z : Nat) (g : Field) (j : Nat) : State.rd { s with rdata := z } g j = s.rd g j := rfl
@[simp] theorem State.hart_with_rdata (s : State) (z : Nat) (c : Nat) : State.hart { s with rdata := z } c = s.hart c := rfl
@[simp] theorem State.l2c_with_rdata (s : State) (z : Nat) (c : Nat) : State.l2c { s with rdata := z } c = s.l2c c := rfl
@[simp] theorem State.lane_with_rdata (s : State) (z : Nat) (n : Nat) : State.lane { s with rdata := z } n = s.lane n := rfl
@[simp] theorem State.guest_with_rdata (s : State) (z : Nat) (g : Nat) : State.guest { s with rdata := z } g = s.guest g := rfl
@[simp] theorem State.alnPort_with_rdata (s : State) (z : Nat) (n : Nat) : State.alnPort { s with rdata := z } n = s.alnPort n := rfl
@[simp] theorem State.ring_with_rdata (s : State) (z : Nat) (r : Nat) : State.ring { s with rdata := z } r = s.ring r := rfl
@[simp] theorem State.port_with_rdata (s : State) (z : Nat) (p : Nat) : State.port { s with rdata := z } p = s.port p := rfl
@[simp] theorem State.rd_with_evc (s : State) (z : EvcState) (g : Field) (j : Nat) : State.rd { s with evc := z } g j = s.rd g j := rfl
@[simp] theorem State.hart_with_evc (s : State) (z : EvcState) (c : Nat) : State.hart { s with evc := z } c = s.hart c := rfl
@[simp] theorem State.l2c_with_evc (s : State) (z : EvcState) (c : Nat) : State.l2c { s with evc := z } c = s.l2c c := rfl
@[simp] theorem State.lane_with_evc (s : State) (z : EvcState) (n : Nat) : State.lane { s with evc := z } n = s.lane n := rfl
@[simp] theorem State.guest_with_evc (s : State) (z : EvcState) (g : Nat) : State.guest { s with evc := z } g = s.guest g := rfl
@[simp] theorem State.alnPort_with_evc (s : State) (z : EvcState) (n : Nat) : State.alnPort { s with evc := z } n = s.alnPort n := rfl
@[simp] theorem State.ring_with_evc (s : State) (z : EvcState) (r : Nat) : State.ring { s with evc := z } r = s.ring r := rfl
@[simp] theorem State.port_with_evc (s : State) (z : EvcState) (p : Nat) : State.port { s with evc := z } p = s.port p := rfl
@[simp] theorem State.rd_with_harts (s : State) (z : Tbl Nat Hart) (g : Field) (j : Nat) : State.rd { s with harts := z } g j = s.rd g j := rfl
@[simp] theorem State.l2c_with_harts (s : State) (z : Tbl Nat Hart) (c : Nat) : State.l2c { s with harts := z } c = s.l2c c := rfl
@[simp] theorem State.lane_with_harts (s : State) (z : Tbl Nat Hart) (n : Nat) : State.lane { s with harts := z } n = s.lane n := rfl
@[simp] theorem State.guest_with_harts (s : State) (z : Tbl Nat Hart) (g : Nat) : State.guest { s with harts := z } g = s.guest g := rfl
@[simp] theorem State.alnPort_with_harts (s : State) (z : Tbl Nat Hart) (n : Nat) : State.alnPort { s with harts := z } n = s.alnPort n := rfl
@[simp] theorem State.ring_with_harts (s : State) (z : Tbl Nat Hart) (r : Nat) : State.ring { s with harts := z } r = s.ring r := rfl
@[simp] theorem State.port_with_harts (s : State) (z : Tbl Nat Hart) (p : Nat) : State.port { s with harts := z } p = s.port p := rfl
@[simp] theorem State.rd_with_l2 (s : State) (z : Tbl Nat L2State) (g : Field) (j : Nat) : State.rd { s with l2 := z } g j = s.rd g j := rfl
@[simp] theorem State.hart_with_l2 (s : State) (z : Tbl Nat L2State) (c : Nat) : State.hart { s with l2 := z } c = s.hart c := rfl
@[simp] theorem State.lane_with_l2 (s : State) (z : Tbl Nat L2State) (n : Nat) : State.lane { s with l2 := z } n = s.lane n := rfl
@[simp] theorem State.guest_with_l2 (s : State) (z : Tbl Nat L2State) (g : Nat) : State.guest { s with l2 := z } g = s.guest g := rfl
@[simp] theorem State.alnPort_with_l2 (s : State) (z : Tbl Nat L2State) (n : Nat) : State.alnPort { s with l2 := z } n = s.alnPort n := rfl
@[simp] theorem State.ring_with_l2 (s : State) (z : Tbl Nat L2State) (r : Nat) : State.ring { s with l2 := z } r = s.ring r := rfl
@[simp] theorem State.port_with_l2 (s : State) (z : Tbl Nat L2State) (p : Nat) : State.port { s with l2 := z } p = s.port p := rfl
@[simp] theorem State.rd_with_dir (s : State) (z : DirState) (g : Field) (j : Nat) : State.rd { s with dir := z } g j = s.rd g j := rfl
@[simp] theorem State.hart_with_dir (s : State) (z : DirState) (c : Nat) : State.hart { s with dir := z } c = s.hart c := rfl
@[simp] theorem State.l2c_with_dir (s : State) (z : DirState) (c : Nat) : State.l2c { s with dir := z } c = s.l2c c := rfl
@[simp] theorem State.lane_with_dir (s : State) (z : DirState) (n : Nat) : State.lane { s with dir := z } n = s.lane n := rfl
@[simp] theorem State.guest_with_dir (s : State) (z : DirState) (g : Nat) : State.guest { s with dir := z } g = s.guest g := rfl
@[simp] theorem State.alnPort_with_dir (s : State) (z : DirState) (n : Nat) : State.alnPort { s with dir := z } n = s.alnPort n := rfl
@[simp] theorem State.ring_with_dir (s : State) (z : DirState) (r : Nat) : State.ring { s with dir := z } r = s.ring r := rfl
@[simp] theorem State.port_with_dir (s : State) (z : DirState) (p : Nat) : State.port { s with dir := z } p = s.port p := rfl
@[simp] theorem State.rd_with_groups (s : State) (z : Tbl Nat Group) (g : Field) (j : Nat) : State.rd { s with groups := z } g j = s.rd g j := rfl
@[simp] theorem State.hart_with_groups (s : State) (z : Tbl Nat Group) (c : Nat) : State.hart { s with groups := z } c = s.hart c := rfl
@[simp] theorem State.l2c_with_groups (s : State) (z : Tbl Nat Group) (c : Nat) : State.l2c { s with groups := z } c = s.l2c c := rfl
@[simp] theorem State.lane_with_groups (s : State) (z : Tbl Nat Group) (n : Nat) : State.lane { s with groups := z } n = s.lane n := rfl
@[simp] theorem State.guest_with_groups (s : State) (z : Tbl Nat Group) (g : Nat) : State.guest { s with groups := z } g = s.guest g := rfl
@[simp] theorem State.alnPort_with_groups (s : State) (z : Tbl Nat Group) (n : Nat) : State.alnPort { s with groups := z } n = s.alnPort n := rfl
@[simp] theorem State.ring_with_groups (s : State) (z : Tbl Nat Group) (r : Nat) : State.ring { s with groups := z } r = s.ring r := rfl
@[simp] theorem State.port_with_groups (s : State) (z : Tbl Nat Group) (p : Nat) : State.port { s with groups := z } p = s.port p := rfl
@[simp] theorem State.rd_with_mem (s : State) (z : MemState) (g : Field) (j : Nat) : State.rd { s with mem := z } g j = s.rd g j := rfl
@[simp] theorem State.hart_with_mem (s : State) (z : MemState) (c : Nat) : State.hart { s with mem := z } c = s.hart c := rfl
@[simp] theorem State.l2c_with_mem (s : State) (z : MemState) (c : Nat) : State.l2c { s with mem := z } c = s.l2c c := rfl
@[simp] theorem State.lane_with_mem (s : State) (z : MemState) (n : Nat) : State.lane { s with mem := z } n = s.lane n := rfl
@[simp] theorem State.guest_with_mem (s : State) (z : MemState) (g : Nat) : State.guest { s with mem := z } g = s.guest g := rfl
@[simp] theorem State.alnPort_with_mem (s : State) (z : MemState) (n : Nat) : State.alnPort { s with mem := z } n = s.alnPort n := rfl
@[simp] theorem State.ring_with_mem (s : State) (z : MemState) (r : Nat) : State.ring { s with mem := z } r = s.ring r := rfl
@[simp] theorem State.port_with_mem (s : State) (z : MemState) (p : Nat) : State.port { s with mem := z } p = s.port p := rfl
@[simp] theorem State.rd_with_beat (s : State) (z : BeatState) (g : Field) (j : Nat) : State.rd { s with beat := z } g j = s.rd g j := rfl
@[simp] theorem State.hart_with_beat (s : State) (z : BeatState) (c : Nat) : State.hart { s with beat := z } c = s.hart c := rfl
@[simp] theorem State.l2c_with_beat (s : State) (z : BeatState) (c : Nat) : State.l2c { s with beat := z } c = s.l2c c := rfl
@[simp] theorem State.lane_with_beat (s : State) (z : BeatState) (n : Nat) : State.lane { s with beat := z } n = s.lane n := rfl
@[simp] theorem State.guest_with_beat (s : State) (z : BeatState) (g : Nat) : State.guest { s with beat := z } g = s.guest g := rfl
@[simp] theorem State.alnPort_with_beat (s : State) (z : BeatState) (n : Nat) : State.alnPort { s with beat := z } n = s.alnPort n := rfl
@[simp] theorem State.ring_with_beat (s : State) (z : BeatState) (r : Nat) : State.ring { s with beat := z } r = s.ring r := rfl
@[simp] theorem State.port_with_beat (s : State) (z : BeatState) (p : Nat) : State.port { s with beat := z } p = s.port p := rfl
@[simp] theorem State.rd_with_lanes (s : State) (z : Tbl Nat Lane) (g : Field) (j : Nat) : State.rd { s with lanes := z } g j = s.rd g j := rfl
@[simp] theorem State.hart_with_lanes (s : State) (z : Tbl Nat Lane) (c : Nat) : State.hart { s with lanes := z } c = s.hart c := rfl
@[simp] theorem State.l2c_with_lanes (s : State) (z : Tbl Nat Lane) (c : Nat) : State.l2c { s with lanes := z } c = s.l2c c := rfl
@[simp] theorem State.guest_with_lanes (s : State) (z : Tbl Nat Lane) (g : Nat) : State.guest { s with lanes := z } g = s.guest g := rfl
@[simp] theorem State.alnPort_with_lanes (s : State) (z : Tbl Nat Lane) (n : Nat) : State.alnPort { s with lanes := z } n = s.alnPort n := rfl
@[simp] theorem State.ring_with_lanes (s : State) (z : Tbl Nat Lane) (r : Nat) : State.ring { s with lanes := z } r = s.ring r := rfl
@[simp] theorem State.port_with_lanes (s : State) (z : Tbl Nat Lane) (p : Nat) : State.port { s with lanes := z } p = s.port p := rfl
@[simp] theorem State.rd_with_ctx (s : State) (z : CtxState) (g : Field) (j : Nat) : State.rd { s with ctx := z } g j = s.rd g j := rfl
@[simp] theorem State.hart_with_ctx (s : State) (z : CtxState) (c : Nat) : State.hart { s with ctx := z } c = s.hart c := rfl
@[simp] theorem State.l2c_with_ctx (s : State) (z : CtxState) (c : Nat) : State.l2c { s with ctx := z } c = s.l2c c := rfl
@[simp] theorem State.lane_with_ctx (s : State) (z : CtxState) (n : Nat) : State.lane { s with ctx := z } n = s.lane n := rfl
@[simp] theorem State.guest_with_ctx (s : State) (z : CtxState) (g : Nat) : State.guest { s with ctx := z } g = s.guest g := rfl
@[simp] theorem State.alnPort_with_ctx (s : State) (z : CtxState) (n : Nat) : State.alnPort { s with ctx := z } n = s.alnPort n := rfl
@[simp] theorem State.ring_with_ctx (s : State) (z : CtxState) (r : Nat) : State.ring { s with ctx := z } r = s.ring r := rfl
@[simp] theorem State.port_with_ctx (s : State) (z : CtxState) (p : Nat) : State.port { s with ctx := z } p = s.port p := rfl
@[simp] theorem State.rd_with_trg (s : State) (z : TrgState) (g : Field) (j : Nat) : State.rd { s with trg := z } g j = s.rd g j := rfl
@[simp] theorem State.hart_with_trg (s : State) (z : TrgState) (c : Nat) : State.hart { s with trg := z } c = s.hart c := rfl
@[simp] theorem State.l2c_with_trg (s : State) (z : TrgState) (c : Nat) : State.l2c { s with trg := z } c = s.l2c c := rfl
@[simp] theorem State.lane_with_trg (s : State) (z : TrgState) (n : Nat) : State.lane { s with trg := z } n = s.lane n := rfl
@[simp] theorem State.guest_with_trg (s : State) (z : TrgState) (g : Nat) : State.guest { s with trg := z } g = s.guest g := rfl
@[simp] theorem State.alnPort_with_trg (s : State) (z : TrgState) (n : Nat) : State.alnPort { s with trg := z } n = s.alnPort n := rfl
@[simp] theorem State.ring_with_trg (s : State) (z : TrgState) (r : Nat) : State.ring { s with trg := z } r = s.ring r := rfl
@[simp] theorem State.port_with_trg (s : State) (z : TrgState) (p : Nat) : State.port { s with trg := z } p = s.port p := rfl
@[simp] theorem State.rd_with_tio (s : State) (z : TioState) (g : Field) (j : Nat) : State.rd { s with tio := z } g j = s.rd g j := rfl
@[simp] theorem State.hart_with_tio (s : State) (z : TioState) (c : Nat) : State.hart { s with tio := z } c = s.hart c := rfl
@[simp] theorem State.l2c_with_tio (s : State) (z : TioState) (c : Nat) : State.l2c { s with tio := z } c = s.l2c c := rfl
@[simp] theorem State.lane_with_tio (s : State) (z : TioState) (n : Nat) : State.lane { s with tio := z } n = s.lane n := rfl
@[simp] theorem State.guest_with_tio (s : State) (z : TioState) (g : Nat) : State.guest { s with tio := z } g = s.guest g := rfl
@[simp] theorem State.alnPort_with_tio (s : State) (z : TioState) (n : Nat) : State.alnPort { s with tio := z } n = s.alnPort n := rfl
@[simp] theorem State.ring_with_tio (s : State) (z : TioState) (r : Nat) : State.ring { s with tio := z } r = s.ring r := rfl
@[simp] theorem State.port_with_tio (s : State) (z : TioState) (p : Nat) : State.port { s with tio := z } p = s.port p := rfl
@[simp] theorem State.rd_with_evb (s : State) (z : EvbState) (g : Field) (j : Nat) : State.rd { s with evb := z } g j = s.rd g j := rfl
@[simp] theorem State.hart_with_evb (s : State) (z : EvbState) (c : Nat) : State.hart { s with evb := z } c = s.hart c := rfl
@[simp] theorem State.l2c_with_evb (s : State) (z : EvbState) (c : Nat) : State.l2c { s with evb := z } c = s.l2c c := rfl
@[simp] theorem State.lane_with_evb (s : State) (z : EvbState) (n : Nat) : State.lane { s with evb := z } n = s.lane n := rfl
@[simp] theorem State.guest_with_evb (s : State) (z : EvbState) (g : Nat) : State.guest { s with evb := z } g = s.guest g := rfl
@[simp] theorem State.alnPort_with_evb (s : State) (z : EvbState) (n : Nat) : State.alnPort { s with evb := z } n = s.alnPort n := rfl
@[simp] theorem State.ring_with_evb (s : State) (z : EvbState) (r : Nat) : State.ring { s with evb := z } r = s.ring r := rfl
@[simp] theorem State.port_with_evb (s : State) (z : EvbState) (p : Nat) : State.port { s with evb := z } p = s.port p := rfl
@[simp] theorem State.rd_with_guests (s : State) (z : Tbl Nat GuestSite) (g : Field) (j : Nat) : State.rd { s with guests := z } g j = s.rd g j := rfl
@[simp] theorem State.hart_with_guests (s : State) (z : Tbl Nat GuestSite) (c : Nat) : State.hart { s with guests := z } c = s.hart c := rfl
@[simp] theorem State.l2c_with_guests (s : State) (z : Tbl Nat GuestSite) (c : Nat) : State.l2c { s with guests := z } c = s.l2c c := rfl
@[simp] theorem State.lane_with_guests (s : State) (z : Tbl Nat GuestSite) (n : Nat) : State.lane { s with guests := z } n = s.lane n := rfl
@[simp] theorem State.alnPort_with_guests (s : State) (z : Tbl Nat GuestSite) (n : Nat) : State.alnPort { s with guests := z } n = s.alnPort n := rfl
@[simp] theorem State.ring_with_guests (s : State) (z : Tbl Nat GuestSite) (r : Nat) : State.ring { s with guests := z } r = s.ring r := rfl
@[simp] theorem State.port_with_guests (s : State) (z : Tbl Nat GuestSite) (p : Nat) : State.port { s with guests := z } p = s.port p := rfl
@[simp] theorem State.rd_with_aln (s : State) (z : AlnState) (g : Field) (j : Nat) : State.rd { s with aln := z } g j = s.rd g j := rfl
@[simp] theorem State.hart_with_aln (s : State) (z : AlnState) (c : Nat) : State.hart { s with aln := z } c = s.hart c := rfl
@[simp] theorem State.l2c_with_aln (s : State) (z : AlnState) (c : Nat) : State.l2c { s with aln := z } c = s.l2c c := rfl
@[simp] theorem State.lane_with_aln (s : State) (z : AlnState) (n : Nat) : State.lane { s with aln := z } n = s.lane n := rfl
@[simp] theorem State.guest_with_aln (s : State) (z : AlnState) (g : Nat) : State.guest { s with aln := z } g = s.guest g := rfl
@[simp] theorem State.ring_with_aln (s : State) (z : AlnState) (r : Nat) : State.ring { s with aln := z } r = s.ring r := rfl
@[simp] theorem State.port_with_aln (s : State) (z : AlnState) (p : Nat) : State.port { s with aln := z } p = s.port p := rfl
@[simp] theorem State.rd_with_stp (s : State) (z : StpState) (g : Field) (j : Nat) : State.rd { s with stp := z } g j = s.rd g j := rfl
@[simp] theorem State.hart_with_stp (s : State) (z : StpState) (c : Nat) : State.hart { s with stp := z } c = s.hart c := rfl
@[simp] theorem State.l2c_with_stp (s : State) (z : StpState) (c : Nat) : State.l2c { s with stp := z } c = s.l2c c := rfl
@[simp] theorem State.lane_with_stp (s : State) (z : StpState) (n : Nat) : State.lane { s with stp := z } n = s.lane n := rfl
@[simp] theorem State.guest_with_stp (s : State) (z : StpState) (g : Nat) : State.guest { s with stp := z } g = s.guest g := rfl
@[simp] theorem State.alnPort_with_stp (s : State) (z : StpState) (n : Nat) : State.alnPort { s with stp := z } n = s.alnPort n := rfl
@[simp] theorem State.ring_with_stp (s : State) (z : StpState) (r : Nat) : State.ring { s with stp := z } r = s.ring r := rfl
@[simp] theorem State.port_with_stp (s : State) (z : StpState) (p : Nat) : State.port { s with stp := z } p = s.port p := rfl
@[simp] theorem State.rd_with_eth (s : State) (z : EthState) (g : Field) (j : Nat) : State.rd { s with eth := z } g j = s.rd g j := rfl
@[simp] theorem State.hart_with_eth (s : State) (z : EthState) (c : Nat) : State.hart { s with eth := z } c = s.hart c := rfl
@[simp] theorem State.l2c_with_eth (s : State) (z : EthState) (c : Nat) : State.l2c { s with eth := z } c = s.l2c c := rfl
@[simp] theorem State.lane_with_eth (s : State) (z : EthState) (n : Nat) : State.lane { s with eth := z } n = s.lane n := rfl
@[simp] theorem State.guest_with_eth (s : State) (z : EthState) (g : Nat) : State.guest { s with eth := z } g = s.guest g := rfl
@[simp] theorem State.alnPort_with_eth (s : State) (z : EthState) (n : Nat) : State.alnPort { s with eth := z } n = s.alnPort n := rfl
@[simp] theorem State.ring_with_eth (s : State) (z : EthState) (r : Nat) : State.ring { s with eth := z } r = s.ring r := rfl
@[simp] theorem State.port_with_eth (s : State) (z : EthState) (p : Nat) : State.port { s with eth := z } p = s.port p := rfl
@[simp] theorem State.rd_with_hif (s : State) (z : HifState) (g : Field) (j : Nat) : State.rd { s with hif := z } g j = s.rd g j := rfl
@[simp] theorem State.hart_with_hif (s : State) (z : HifState) (c : Nat) : State.hart { s with hif := z } c = s.hart c := rfl
@[simp] theorem State.l2c_with_hif (s : State) (z : HifState) (c : Nat) : State.l2c { s with hif := z } c = s.l2c c := rfl
@[simp] theorem State.lane_with_hif (s : State) (z : HifState) (n : Nat) : State.lane { s with hif := z } n = s.lane n := rfl
@[simp] theorem State.guest_with_hif (s : State) (z : HifState) (g : Nat) : State.guest { s with hif := z } g = s.guest g := rfl
@[simp] theorem State.alnPort_with_hif (s : State) (z : HifState) (n : Nat) : State.alnPort { s with hif := z } n = s.alnPort n := rfl
@[simp] theorem State.rd_with_fuses (s : State) (z : Fuses) (g : Field) (j : Nat) : State.rd { s with fuses := z } g j = s.rd g j := rfl
@[simp] theorem State.hart_with_fuses (s : State) (z : Fuses) (c : Nat) : State.hart { s with fuses := z } c = s.hart c := rfl
@[simp] theorem State.l2c_with_fuses (s : State) (z : Fuses) (c : Nat) : State.l2c { s with fuses := z } c = s.l2c c := rfl
@[simp] theorem State.lane_with_fuses (s : State) (z : Fuses) (n : Nat) : State.lane { s with fuses := z } n = s.lane n := rfl
@[simp] theorem State.guest_with_fuses (s : State) (z : Fuses) (g : Nat) : State.guest { s with fuses := z } g = s.guest g := rfl
@[simp] theorem State.alnPort_with_fuses (s : State) (z : Fuses) (n : Nat) : State.alnPort { s with fuses := z } n = s.alnPort n := rfl
@[simp] theorem State.ring_with_fuses (s : State) (z : Fuses) (r : Nat) : State.ring { s with fuses := z } r = s.ring r := rfl
@[simp] theorem State.port_with_fuses (s : State) (z : Fuses) (p : Nat) : State.port { s with fuses := z } p = s.port p := rfl
@[simp] theorem State.rd_with_vellum (s : State) (z : Vellum) (g : Field) (j : Nat) : State.rd { s with vellum := z } g j = s.rd g j := rfl
@[simp] theorem State.hart_with_vellum (s : State) (z : Vellum) (c : Nat) : State.hart { s with vellum := z } c = s.hart c := rfl
@[simp] theorem State.l2c_with_vellum (s : State) (z : Vellum) (c : Nat) : State.l2c { s with vellum := z } c = s.l2c c := rfl
@[simp] theorem State.lane_with_vellum (s : State) (z : Vellum) (n : Nat) : State.lane { s with vellum := z } n = s.lane n := rfl
@[simp] theorem State.guest_with_vellum (s : State) (z : Vellum) (g : Nat) : State.guest { s with vellum := z } g = s.guest g := rfl
@[simp] theorem State.alnPort_with_vellum (s : State) (z : Vellum) (n : Nat) : State.alnPort { s with vellum := z } n = s.alnPort n := rfl
@[simp] theorem State.ring_with_vellum (s : State) (z : Vellum) (r : Nat) : State.ring { s with vellum := z } r = s.ring r := rfl
@[simp] theorem State.port_with_vellum (s : State) (z : Vellum) (p : Nat) : State.port { s with vellum := z } p = s.port p := rfl
@[simp] theorem State.rd_with_boot (s : State) (z : BootState) (g : Field) (j : Nat) : State.rd { s with boot := z } g j = s.rd g j := rfl
@[simp] theorem State.hart_with_boot (s : State) (z : BootState) (c : Nat) : State.hart { s with boot := z } c = s.hart c := rfl
@[simp] theorem State.l2c_with_boot (s : State) (z : BootState) (c : Nat) : State.l2c { s with boot := z } c = s.l2c c := rfl
@[simp] theorem State.lane_with_boot (s : State) (z : BootState) (n : Nat) : State.lane { s with boot := z } n = s.lane n := rfl
@[simp] theorem State.guest_with_boot (s : State) (z : BootState) (g : Nat) : State.guest { s with boot := z } g = s.guest g := rfl
@[simp] theorem State.alnPort_with_boot (s : State) (z : BootState) (n : Nat) : State.alnPort { s with boot := z } n = s.alnPort n := rfl
@[simp] theorem State.ring_with_boot (s : State) (z : BootState) (r : Nat) : State.ring { s with boot := z } r = s.ring r := rfl
@[simp] theorem State.port_with_boot (s : State) (z : BootState) (p : Nat) : State.port { s with boot := z } p = s.port p := rfl
@[simp] theorem State.rd_with_dbg (s : State) (z : DbgState) (g : Field) (j : Nat) : State.rd { s with dbg := z } g j = s.rd g j := rfl
@[simp] theorem State.hart_with_dbg (s : State) (z : DbgState) (c : Nat) : State.hart { s with dbg := z } c = s.hart c := rfl
@[simp] theorem State.l2c_with_dbg (s : State) (z : DbgState) (c : Nat) : State.l2c { s with dbg := z } c = s.l2c c := rfl
@[simp] theorem State.lane_with_dbg (s : State) (z : DbgState) (n : Nat) : State.lane { s with dbg := z } n = s.lane n := rfl
@[simp] theorem State.guest_with_dbg (s : State) (z : DbgState) (g : Nat) : State.guest { s with dbg := z } g = s.guest g := rfl
@[simp] theorem State.alnPort_with_dbg (s : State) (z : DbgState) (n : Nat) : State.alnPort { s with dbg := z } n = s.alnPort n := rfl
@[simp] theorem State.ring_with_dbg (s : State) (z : DbgState) (r : Nat) : State.ring { s with dbg := z } r = s.ring r := rfl
@[simp] theorem State.port_with_dbg (s : State) (z : DbgState) (p : Nat) : State.port { s with dbg := z } p = s.port p := rfl
@[simp] theorem State.rd_with_ckr (s : State) (z : CkrState) (g : Field) (j : Nat) : State.rd { s with ckr := z } g j = s.rd g j := rfl
@[simp] theorem State.hart_with_ckr (s : State) (z : CkrState) (c : Nat) : State.hart { s with ckr := z } c = s.hart c := rfl
@[simp] theorem State.l2c_with_ckr (s : State) (z : CkrState) (c : Nat) : State.l2c { s with ckr := z } c = s.l2c c := rfl
@[simp] theorem State.lane_with_ckr (s : State) (z : CkrState) (n : Nat) : State.lane { s with ckr := z } n = s.lane n := rfl
@[simp] theorem State.guest_with_ckr (s : State) (z : CkrState) (g : Nat) : State.guest { s with ckr := z } g = s.guest g := rfl
@[simp] theorem State.alnPort_with_ckr (s : State) (z : CkrState) (n : Nat) : State.alnPort { s with ckr := z } n = s.alnPort n := rfl
@[simp] theorem State.ring_with_ckr (s : State) (z : CkrState) (r : Nat) : State.ring { s with ckr := z } r = s.ring r := rfl
@[simp] theorem State.port_with_ckr (s : State) (z : CkrState) (p : Nat) : State.port { s with ckr := z } p = s.port p := rfl
@[simp] theorem State.rd_with_pwr (s : State) (z : PwrState) (g : Field) (j : Nat) : State.rd { s with pwr := z } g j = s.rd g j := rfl
@[simp] theorem State.hart_with_pwr (s : State) (z : PwrState) (c : Nat) : State.hart { s with pwr := z } c = s.hart c := rfl
@[simp] theorem State.l2c_with_pwr (s : State) (z : PwrState) (c : Nat) : State.l2c { s with pwr := z } c = s.l2c c := rfl
@[simp] theorem State.lane_with_pwr (s : State) (z : PwrState) (n : Nat) : State.lane { s with pwr := z } n = s.lane n := rfl
@[simp] theorem State.guest_with_pwr (s : State) (z : PwrState) (g : Nat) : State.guest { s with pwr := z } g = s.guest g := rfl
@[simp] theorem State.alnPort_with_pwr (s : State) (z : PwrState) (n : Nat) : State.alnPort { s with pwr := z } n = s.alnPort n := rfl
@[simp] theorem State.ring_with_pwr (s : State) (z : PwrState) (r : Nat) : State.ring { s with pwr := z } r = s.ring r := rfl
@[simp] theorem State.port_with_pwr (s : State) (z : PwrState) (p : Nat) : State.port { s with pwr := z } p = s.port p := rfl
@[simp] theorem State.rd_with_pins (s : State) (z : Pins) (g : Field) (j : Nat) : State.rd { s with pins := z } g j = s.rd g j := rfl
@[simp] theorem State.hart_with_pins (s : State) (z : Pins) (c : Nat) : State.hart { s with pins := z } c = s.hart c := rfl
@[simp] theorem State.l2c_with_pins (s : State) (z : Pins) (c : Nat) : State.l2c { s with pins := z } c = s.l2c c := rfl
@[simp] theorem State.lane_with_pins (s : State) (z : Pins) (n : Nat) : State.lane { s with pins := z } n = s.lane n := rfl
@[simp] theorem State.guest_with_pins (s : State) (z : Pins) (g : Nat) : State.guest { s with pins := z } g = s.guest g := rfl
@[simp] theorem State.alnPort_with_pins (s : State) (z : Pins) (n : Nat) : State.alnPort { s with pins := z } n = s.alnPort n := rfl
@[simp] theorem State.ring_with_pins (s : State) (z : Pins) (r : Nat) : State.ring { s with pins := z } r = s.ring r := rfl
@[simp] theorem State.port_with_pins (s : State) (z : Pins) (p : Nat) : State.port { s with pins := z } p = s.port p := rfl
@[simp] theorem State.rd_with_lgr (s : State) (z : LgrState) (g : Field) (j : Nat) : State.rd { s with lgr := z } g j = s.rd g j := rfl
@[simp] theorem State.hart_with_lgr (s : State) (z : LgrState) (c : Nat) : State.hart { s with lgr := z } c = s.hart c := rfl
@[simp] theorem State.l2c_with_lgr (s : State) (z : LgrState) (c : Nat) : State.l2c { s with lgr := z } c = s.l2c c := rfl
@[simp] theorem State.lane_with_lgr (s : State) (z : LgrState) (n : Nat) : State.lane { s with lgr := z } n = s.lane n := rfl
@[simp] theorem State.guest_with_lgr (s : State) (z : LgrState) (g : Nat) : State.guest { s with lgr := z } g = s.guest g := rfl
@[simp] theorem State.alnPort_with_lgr (s : State) (z : LgrState) (n : Nat) : State.alnPort { s with lgr := z } n = s.alnPort n := rfl
@[simp] theorem State.ring_with_lgr (s : State) (z : LgrState) (r : Nat) : State.ring { s with lgr := z } r = s.ring r := rfl
@[simp] theorem State.port_with_lgr (s : State) (z : LgrState) (p : Nat) : State.port { s with lgr := z } p = s.port p := rfl

end Sys2Proof.Machine
end

