-- ==== Sys2Proof/Laws/Events.lean ====
section
/-!
SUPPORT. What setting an event bit can do: the bit reads one, the event controller, the MSI-X pending bits and the
ports' outgoing messages may change, and nothing else does (R524 to R527).
-/

set_option Elab.async false

namespace Sys2Proof.Machine


@[simp] theorem State.msix_pending (s : State) (p v : Nat) : (s.msix p v).pending = s.pending := by
  unfold State.msix; simp only []; split <;> [rfl; (split <;> simp)]
@[simp] theorem State.msix_hw (s : State) (p v : Nat) : (s.msix p v).hw = s.hw := by
  unfold State.msix; simp only []; split <;> [rfl; (split <;> simp)]
@[simp] theorem State.msix_fresh (s : State) (p v : Nat) : (s.msix p v).fresh = s.fresh := by
  unfold State.msix; simp only []; split <;> [rfl; (split <;> simp)]
@[simp] theorem State.msix_rdata (s : State) (p v : Nat) : (s.msix p v).rdata = s.rdata := by
  unfold State.msix; simp only []; split <;> [rfl; (split <;> simp)]
@[simp] theorem State.msix_harts (s : State) (p v : Nat) : (s.msix p v).harts = s.harts := by
  unfold State.msix; simp only []; split <;> [rfl; (split <;> simp)]
@[simp] theorem State.msix_l2 (s : State) (p v : Nat) : (s.msix p v).l2 = s.l2 := by
  unfold State.msix; simp only []; split <;> [rfl; (split <;> simp)]
@[simp] theorem State.msix_dir (s : State) (p v : Nat) : (s.msix p v).dir = s.dir := by
  unfold State.msix; simp only []; split <;> [rfl; (split <;> simp)]
@[simp] theorem State.msix_groups (s : State) (p v : Nat) : (s.msix p v).groups = s.groups := by
  unfold State.msix; simp only []; split <;> [rfl; (split <;> simp)]
@[simp] theorem State.msix_mem (s : State) (p v : Nat) : (s.msix p v).mem = s.mem := by
  unfold State.msix; simp only []; split <;> [rfl; (split <;> simp)]
@[simp] theorem State.msix_beat (s : State) (p v : Nat) : (s.msix p v).beat = s.beat := by
  unfold State.msix; simp only []; split <;> [rfl; (split <;> simp)]
@[simp] theorem State.msix_lanes (s : State) (p v : Nat) : (s.msix p v).lanes = s.lanes := by
  unfold State.msix; simp only []; split <;> [rfl; (split <;> simp)]
@[simp] theorem State.msix_ctx (s : State) (p v : Nat) : (s.msix p v).ctx = s.ctx := by
  unfold State.msix; simp only []; split <;> [rfl; (split <;> simp)]
@[simp] theorem State.msix_trg (s : State) (p v : Nat) : (s.msix p v).trg = s.trg := by
  unfold State.msix; simp only []; split <;> [rfl; (split <;> simp)]
@[simp] theorem State.msix_tio (s : State) (p v : Nat) : (s.msix p v).tio = s.tio := by
  unfold State.msix; simp only []; split <;> [rfl; (split <;> simp)]
@[simp] theorem State.msix_evb (s : State) (p v : Nat) : (s.msix p v).evb = s.evb := by
  unfold State.msix; simp only []; split <;> [rfl; (split <;> simp)]
@[simp] theorem State.msix_guests (s : State) (p v : Nat) : (s.msix p v).guests = s.guests := by
  unfold State.msix; simp only []; split <;> [rfl; (split <;> simp)]
@[simp] theorem State.msix_aln (s : State) (p v : Nat) : (s.msix p v).aln = s.aln := by
  unfold State.msix; simp only []; split <;> [rfl; (split <;> simp)]
@[simp] theorem State.msix_stp (s : State) (p v : Nat) : (s.msix p v).stp = s.stp := by
  unfold State.msix; simp only []; split <;> [rfl; (split <;> simp)]
@[simp] theorem State.msix_eth (s : State) (p v : Nat) : (s.msix p v).eth = s.eth := by
  unfold State.msix; simp only []; split <;> [rfl; (split <;> simp)]
@[simp] theorem State.msix_fuses (s : State) (p v : Nat) : (s.msix p v).fuses = s.fuses := by
  unfold State.msix; simp only []; split <;> [rfl; (split <;> simp)]
@[simp] theorem State.msix_vellum (s : State) (p v : Nat) : (s.msix p v).vellum = s.vellum := by
  unfold State.msix; simp only []; split <;> [rfl; (split <;> simp)]
@[simp] theorem State.msix_boot (s : State) (p v : Nat) : (s.msix p v).boot = s.boot := by
  unfold State.msix; simp only []; split <;> [rfl; (split <;> simp)]
@[simp] theorem State.msix_dbg (s : State) (p v : Nat) : (s.msix p v).dbg = s.dbg := by
  unfold State.msix; simp only []; split <;> [rfl; (split <;> simp)]
@[simp] theorem State.msix_ckr (s : State) (p v : Nat) : (s.msix p v).ckr = s.ckr := by
  unfold State.msix; simp only []; split <;> [rfl; (split <;> simp)]
@[simp] theorem State.msix_pwr (s : State) (p v : Nat) : (s.msix p v).pwr = s.pwr := by
  unfold State.msix; simp only []; split <;> [rfl; (split <;> simp)]
@[simp] theorem State.msix_pins (s : State) (p v : Nat) : (s.msix p v).pins = s.pins := by
  unfold State.msix; simp only []; split <;> [rfl; (split <;> simp)]
@[simp] theorem State.msix_lgr (s : State) (p v : Nat) : (s.msix p v).lgr = s.lgr := by
  unfold State.msix; simp only []; split <;> [rfl; (split <;> simp)]
@[simp] theorem State.hart_msix (s : State) (p v : Nat) (c : Nat) : (s.msix p v).hart c = s.hart c := by
  simp [State.hart]
@[simp] theorem State.l2c_msix (s : State) (p v : Nat) (c : Nat) : (s.msix p v).l2c c = s.l2c c := by
  simp [State.l2c]
@[simp] theorem State.lane_msix (s : State) (p v : Nat) (m : Nat) : (s.msix p v).lane m = s.lane m := by
  simp [State.lane]
@[simp] theorem State.guest_msix (s : State) (p v : Nat) (g : Nat) : (s.msix p v).guest g = s.guest g := by
  simp [State.guest]
@[simp] theorem State.alnPort_msix (s : State) (p v : Nat) (m : Nat) : (s.msix p v).alnPort m = s.alnPort m := by
  simp [State.alnPort]
@[simp] theorem State.ring_msix (s : State) (p v : Nat) (r : Nat) : (s.msix p v).ring r = s.ring r := by
  unfold State.msix; simp only []; split <;> [rfl; (split <;> simp)]
theorem State.rd_msix (s : State) (p v : Nat) (g : Field) (j : Nat) (h : evReg g.reg = false) : (s.msix p v).rd g j = s.rd g j := by
  have hk : ∀ r, evReg r = true → r ≠ g.reg := by
    intro r hr e; subst e; simp [hr] at h
  unfold State.msix; simp only []; split <;> [rfl; (split <;> [(simp only [State.putBit]; exact s.rd_wr_of_reg _ (hk _ rfl)); simp])]

@[simp] theorem State.sendEvent_pending (s : State) (n : Nat) : (s.sendEvent n).pending = s.pending := by
  unfold State.sendEvent; simp only []; split <;> simp
@[simp] theorem State.sendEvent_hw (s : State) (n : Nat) : (s.sendEvent n).hw = s.hw := by
  unfold State.sendEvent; simp only []; split <;> simp
@[simp] theorem State.sendEvent_fresh (s : State) (n : Nat) : (s.sendEvent n).fresh = s.fresh := by
  unfold State.sendEvent; simp only []; split <;> simp
@[simp] theorem State.sendEvent_rdata (s : State) (n : Nat) : (s.sendEvent n).rdata = s.rdata := by
  unfold State.sendEvent; simp only []; split <;> simp
@[simp] theorem State.sendEvent_harts (s : State) (n : Nat) : (s.sendEvent n).harts = s.harts := by
  unfold State.sendEvent; simp only []; split <;> simp
@[simp] theorem State.sendEvent_l2 (s : State) (n : Nat) : (s.sendEvent n).l2 = s.l2 := by
  unfold State.sendEvent; simp only []; split <;> simp
@[simp] theorem State.sendEvent_dir (s : State) (n : Nat) : (s.sendEvent n).dir = s.dir := by
  unfold State.sendEvent; simp only []; split <;> simp
@[simp] theorem State.sendEvent_groups (s : State) (n : Nat) : (s.sendEvent n).groups = s.groups := by
  unfold State.sendEvent; simp only []; split <;> simp
@[simp] theorem State.sendEvent_mem (s : State) (n : Nat) : (s.sendEvent n).mem = s.mem := by
  unfold State.sendEvent; simp only []; split <;> simp
@[simp] theorem State.sendEvent_beat (s : State) (n : Nat) : (s.sendEvent n).beat = s.beat := by
  unfold State.sendEvent; simp only []; split <;> simp
@[simp] theorem State.sendEvent_lanes (s : State) (n : Nat) : (s.sendEvent n).lanes = s.lanes := by
  unfold State.sendEvent; simp only []; split <;> simp
@[simp] theorem State.sendEvent_ctx (s : State) (n : Nat) : (s.sendEvent n).ctx = s.ctx := by
  unfold State.sendEvent; simp only []; split <;> simp
@[simp] theorem State.sendEvent_trg (s : State) (n : Nat) : (s.sendEvent n).trg = s.trg := by
  unfold State.sendEvent; simp only []; split <;> simp
@[simp] theorem State.sendEvent_tio (s : State) (n : Nat) : (s.sendEvent n).tio = s.tio := by
  unfold State.sendEvent; simp only []; split <;> simp
@[simp] theorem State.sendEvent_evb (s : State) (n : Nat) : (s.sendEvent n).evb = s.evb := by
  unfold State.sendEvent; simp only []; split <;> simp
@[simp] theorem State.sendEvent_guests (s : State) (n : Nat) : (s.sendEvent n).guests = s.guests := by
  unfold State.sendEvent; simp only []; split <;> simp
@[simp] theorem State.sendEvent_aln (s : State) (n : Nat) : (s.sendEvent n).aln = s.aln := by
  unfold State.sendEvent; simp only []; split <;> simp
@[simp] theorem State.sendEvent_stp (s : State) (n : Nat) : (s.sendEvent n).stp = s.stp := by
  unfold State.sendEvent; simp only []; split <;> simp
@[simp] theorem State.sendEvent_eth (s : State) (n : Nat) : (s.sendEvent n).eth = s.eth := by
  unfold State.sendEvent; simp only []; split <;> simp
@[simp] theorem State.sendEvent_fuses (s : State) (n : Nat) : (s.sendEvent n).fuses = s.fuses := by
  unfold State.sendEvent; simp only []; split <;> simp
@[simp] theorem State.sendEvent_vellum (s : State) (n : Nat) : (s.sendEvent n).vellum = s.vellum := by
  unfold State.sendEvent; simp only []; split <;> simp
@[simp] theorem State.sendEvent_boot (s : State) (n : Nat) : (s.sendEvent n).boot = s.boot := by
  unfold State.sendEvent; simp only []; split <;> simp
@[simp] theorem State.sendEvent_dbg (s : State) (n : Nat) : (s.sendEvent n).dbg = s.dbg := by
  unfold State.sendEvent; simp only []; split <;> simp
@[simp] theorem State.sendEvent_ckr (s : State) (n : Nat) : (s.sendEvent n).ckr = s.ckr := by
  unfold State.sendEvent; simp only []; split <;> simp
@[simp] theorem State.sendEvent_pwr (s : State) (n : Nat) : (s.sendEvent n).pwr = s.pwr := by
  unfold State.sendEvent; simp only []; split <;> simp
@[simp] theorem State.sendEvent_pins (s : State) (n : Nat) : (s.sendEvent n).pins = s.pins := by
  unfold State.sendEvent; simp only []; split <;> simp
@[simp] theorem State.sendEvent_lgr (s : State) (n : Nat) : (s.sendEvent n).lgr = s.lgr := by
  unfold State.sendEvent; simp only []; split <;> simp
@[simp] theorem State.hart_sendEvent (s : State) (n : Nat) (c : Nat) : (s.sendEvent n).hart c = s.hart c := by
  simp [State.hart]
@[simp] theorem State.l2c_sendEvent (s : State) (n : Nat) (c : Nat) : (s.sendEvent n).l2c c = s.l2c c := by
  simp [State.l2c]
@[simp] theorem State.lane_sendEvent (s : State) (n : Nat) (m : Nat) : (s.sendEvent n).lane m = s.lane m := by
  simp [State.lane]
@[simp] theorem State.guest_sendEvent (s : State) (n : Nat) (g : Nat) : (s.sendEvent n).guest g = s.guest g := by
  simp [State.guest]
@[simp] theorem State.alnPort_sendEvent (s : State) (n : Nat) (m : Nat) : (s.sendEvent n).alnPort m = s.alnPort m := by
  simp [State.alnPort]
@[simp] theorem State.ring_sendEvent (s : State) (n : Nat) (r : Nat) : (s.sendEvent n).ring r = s.ring r := by
  unfold State.sendEvent; simp only []; split <;> simp
theorem State.rd_sendEvent (s : State) (n : Nat) (g : Field) (j : Nat) (h : evReg g.reg = false) : (s.sendEvent n).rd g j = s.rd g j := by
  unfold State.sendEvent; simp only []; split <;> simp [State.rd_msix, h]

@[simp] theorem State.deliver_pending (s : State) (n : Nat) : (s.deliver n).pending = s.pending := by
  unfold State.deliver; repeat' (split <;> try simp)
@[simp] theorem State.deliver_hw (s : State) (n : Nat) : (s.deliver n).hw = s.hw := by
  unfold State.deliver; repeat' (split <;> try simp)
@[simp] theorem State.deliver_fresh (s : State) (n : Nat) : (s.deliver n).fresh = s.fresh := by
  unfold State.deliver; repeat' (split <;> try simp)
@[simp] theorem State.deliver_rdata (s : State) (n : Nat) : (s.deliver n).rdata = s.rdata := by
  unfold State.deliver; repeat' (split <;> try simp)
@[simp] theorem State.deliver_harts (s : State) (n : Nat) : (s.deliver n).harts = s.harts := by
  unfold State.deliver; repeat' (split <;> try simp)
@[simp] theorem State.deliver_l2 (s : State) (n : Nat) : (s.deliver n).l2 = s.l2 := by
  unfold State.deliver; repeat' (split <;> try simp)
@[simp] theorem State.deliver_dir (s : State) (n : Nat) : (s.deliver n).dir = s.dir := by
  unfold State.deliver; repeat' (split <;> try simp)
@[simp] theorem State.deliver_groups (s : State) (n : Nat) : (s.deliver n).groups = s.groups := by
  unfold State.deliver; repeat' (split <;> try simp)
@[simp] theorem State.deliver_mem (s : State) (n : Nat) : (s.deliver n).mem = s.mem := by
  unfold State.deliver; repeat' (split <;> try simp)
@[simp] theorem State.deliver_beat (s : State) (n : Nat) : (s.deliver n).beat = s.beat := by
  unfold State.deliver; repeat' (split <;> try simp)
@[simp] theorem State.deliver_lanes (s : State) (n : Nat) : (s.deliver n).lanes = s.lanes := by
  unfold State.deliver; repeat' (split <;> try simp)
@[simp] theorem State.deliver_ctx (s : State) (n : Nat) : (s.deliver n).ctx = s.ctx := by
  unfold State.deliver; repeat' (split <;> try simp)
@[simp] theorem State.deliver_trg (s : State) (n : Nat) : (s.deliver n).trg = s.trg := by
  unfold State.deliver; repeat' (split <;> try simp)
@[simp] theorem State.deliver_tio (s : State) (n : Nat) : (s.deliver n).tio = s.tio := by
  unfold State.deliver; repeat' (split <;> try simp)
@[simp] theorem State.deliver_evb (s : State) (n : Nat) : (s.deliver n).evb = s.evb := by
  unfold State.deliver; repeat' (split <;> try simp)
@[simp] theorem State.deliver_guests (s : State) (n : Nat) : (s.deliver n).guests = s.guests := by
  unfold State.deliver; repeat' (split <;> try simp)
@[simp] theorem State.deliver_aln (s : State) (n : Nat) : (s.deliver n).aln = s.aln := by
  unfold State.deliver; repeat' (split <;> try simp)
@[simp] theorem State.deliver_stp (s : State) (n : Nat) : (s.deliver n).stp = s.stp := by
  unfold State.deliver; repeat' (split <;> try simp)
@[simp] theorem State.deliver_eth (s : State) (n : Nat) : (s.deliver n).eth = s.eth := by
  unfold State.deliver; repeat' (split <;> try simp)
@[simp] theorem State.deliver_fuses (s : State) (n : Nat) : (s.deliver n).fuses = s.fuses := by
  unfold State.deliver; repeat' (split <;> try simp)
@[simp] theorem State.deliver_vellum (s : State) (n : Nat) : (s.deliver n).vellum = s.vellum := by
  unfold State.deliver; repeat' (split <;> try simp)
@[simp] theorem State.deliver_boot (s : State) (n : Nat) : (s.deliver n).boot = s.boot := by
  unfold State.deliver; repeat' (split <;> try simp)
@[simp] theorem State.deliver_dbg (s : State) (n : Nat) : (s.deliver n).dbg = s.dbg := by
  unfold State.deliver; repeat' (split <;> try simp)
@[simp] theorem State.deliver_ckr (s : State) (n : Nat) : (s.deliver n).ckr = s.ckr := by
  unfold State.deliver; repeat' (split <;> try simp)
@[simp] theorem State.deliver_pwr (s : State) (n : Nat) : (s.deliver n).pwr = s.pwr := by
  unfold State.deliver; repeat' (split <;> try simp)
@[simp] theorem State.deliver_pins (s : State) (n : Nat) : (s.deliver n).pins = s.pins := by
  unfold State.deliver; repeat' (split <;> try simp)
@[simp] theorem State.deliver_lgr (s : State) (n : Nat) : (s.deliver n).lgr = s.lgr := by
  unfold State.deliver; repeat' (split <;> try simp)
@[simp] theorem State.hart_deliver (s : State) (n : Nat) (c : Nat) : (s.deliver n).hart c = s.hart c := by
  simp [State.hart]
@[simp] theorem State.l2c_deliver (s : State) (n : Nat) (c : Nat) : (s.deliver n).l2c c = s.l2c c := by
  simp [State.l2c]
@[simp] theorem State.lane_deliver (s : State) (n : Nat) (m : Nat) : (s.deliver n).lane m = s.lane m := by
  simp [State.lane]
@[simp] theorem State.guest_deliver (s : State) (n : Nat) (g : Nat) : (s.deliver n).guest g = s.guest g := by
  simp [State.guest]
@[simp] theorem State.alnPort_deliver (s : State) (n : Nat) (m : Nat) : (s.deliver n).alnPort m = s.alnPort m := by
  simp [State.alnPort]
@[simp] theorem State.ring_deliver (s : State) (n : Nat) (r : Nat) : (s.deliver n).ring r = s.ring r := by
  unfold State.deliver; repeat' (split <;> try simp)
theorem State.rd_deliver (s : State) (n : Nat) (g : Field) (j : Nat) (h : evReg g.reg = false) : (s.deliver n).rd g j = s.rd g j := by
  have hk : ∀ r, evReg r = true → r ≠ g.reg := by
    intro r hr e; subst e; simp [hr] at h
  unfold State.deliver; repeat' (split <;> try simp [State.rd_sendEvent, h])
  all_goals (simp only [State.inc]; exact s.rd_wr_of_reg _ (hk _ rfl))

@[simp] theorem State.fireNmi_pending (s : State) (n : Nat) : (s.fireNmi n).pending = s.pending := by
  unfold State.fireNmi; first | (simp; done) | (simp only [State.ring_msix]; rfl)
@[simp] theorem State.fireNmi_hw (s : State) (n : Nat) : (s.fireNmi n).hw = s.hw := by
  unfold State.fireNmi; first | (simp; done) | (simp only [State.ring_msix]; rfl)
@[simp] theorem State.fireNmi_fresh (s : State) (n : Nat) : (s.fireNmi n).fresh = s.fresh := by
  unfold State.fireNmi; first | (simp; done) | (simp only [State.ring_msix]; rfl)
@[simp] theorem State.fireNmi_rdata (s : State) (n : Nat) : (s.fireNmi n).rdata = s.rdata := by
  unfold State.fireNmi; first | (simp; done) | (simp only [State.ring_msix]; rfl)
@[simp] theorem State.fireNmi_harts (s : State) (n : Nat) : (s.fireNmi n).harts = s.harts := by
  unfold State.fireNmi; first | (simp; done) | (simp only [State.ring_msix]; rfl)
@[simp] theorem State.fireNmi_l2 (s : State) (n : Nat) : (s.fireNmi n).l2 = s.l2 := by
  unfold State.fireNmi; first | (simp; done) | (simp only [State.ring_msix]; rfl)
@[simp] theorem State.fireNmi_dir (s : State) (n : Nat) : (s.fireNmi n).dir = s.dir := by
  unfold State.fireNmi; first | (simp; done) | (simp only [State.ring_msix]; rfl)
@[simp] theorem State.fireNmi_groups (s : State) (n : Nat) : (s.fireNmi n).groups = s.groups := by
  unfold State.fireNmi; first | (simp; done) | (simp only [State.ring_msix]; rfl)
@[simp] theorem State.fireNmi_mem (s : State) (n : Nat) : (s.fireNmi n).mem = s.mem := by
  unfold State.fireNmi; first | (simp; done) | (simp only [State.ring_msix]; rfl)
@[simp] theorem State.fireNmi_beat (s : State) (n : Nat) : (s.fireNmi n).beat = s.beat := by
  unfold State.fireNmi; first | (simp; done) | (simp only [State.ring_msix]; rfl)
@[simp] theorem State.fireNmi_lanes (s : State) (n : Nat) : (s.fireNmi n).lanes = s.lanes := by
  unfold State.fireNmi; first | (simp; done) | (simp only [State.ring_msix]; rfl)
@[simp] theorem State.fireNmi_ctx (s : State) (n : Nat) : (s.fireNmi n).ctx = s.ctx := by
  unfold State.fireNmi; first | (simp; done) | (simp only [State.ring_msix]; rfl)
@[simp] theorem State.fireNmi_trg (s : State) (n : Nat) : (s.fireNmi n).trg = s.trg := by
  unfold State.fireNmi; first | (simp; done) | (simp only [State.ring_msix]; rfl)
@[simp] theorem State.fireNmi_tio (s : State) (n : Nat) : (s.fireNmi n).tio = s.tio := by
  unfold State.fireNmi; first | (simp; done) | (simp only [State.ring_msix]; rfl)
@[simp] theorem State.fireNmi_evb (s : State) (n : Nat) : (s.fireNmi n).evb = s.evb := by
  unfold State.fireNmi; first | (simp; done) | (simp only [State.ring_msix]; rfl)
@[simp] theorem State.fireNmi_guests (s : State) (n : Nat) : (s.fireNmi n).guests = s.guests := by
  unfold State.fireNmi; first | (simp; done) | (simp only [State.ring_msix]; rfl)
@[simp] theorem State.fireNmi_aln (s : State) (n : Nat) : (s.fireNmi n).aln = s.aln := by
  unfold State.fireNmi; first | (simp; done) | (simp only [State.ring_msix]; rfl)
@[simp] theorem State.fireNmi_stp (s : State) (n : Nat) : (s.fireNmi n).stp = s.stp := by
  unfold State.fireNmi; first | (simp; done) | (simp only [State.ring_msix]; rfl)
@[simp] theorem State.fireNmi_eth (s : State) (n : Nat) : (s.fireNmi n).eth = s.eth := by
  unfold State.fireNmi; first | (simp; done) | (simp only [State.ring_msix]; rfl)
@[simp] theorem State.fireNmi_fuses (s : State) (n : Nat) : (s.fireNmi n).fuses = s.fuses := by
  unfold State.fireNmi; first | (simp; done) | (simp only [State.ring_msix]; rfl)
@[simp] theorem State.fireNmi_vellum (s : State) (n : Nat) : (s.fireNmi n).vellum = s.vellum := by
  unfold State.fireNmi; first | (simp; done) | (simp only [State.ring_msix]; rfl)
@[simp] theorem State.fireNmi_boot (s : State) (n : Nat) : (s.fireNmi n).boot = s.boot := by
  unfold State.fireNmi; first | (simp; done) | (simp only [State.ring_msix]; rfl)
@[simp] theorem State.fireNmi_dbg (s : State) (n : Nat) : (s.fireNmi n).dbg = s.dbg := by
  unfold State.fireNmi; first | (simp; done) | (simp only [State.ring_msix]; rfl)
@[simp] theorem State.fireNmi_ckr (s : State) (n : Nat) : (s.fireNmi n).ckr = s.ckr := by
  unfold State.fireNmi; first | (simp; done) | (simp only [State.ring_msix]; rfl)
@[simp] theorem State.fireNmi_pwr (s : State) (n : Nat) : (s.fireNmi n).pwr = s.pwr := by
  unfold State.fireNmi; first | (simp; done) | (simp only [State.ring_msix]; rfl)
@[simp] theorem State.fireNmi_pins (s : State) (n : Nat) : (s.fireNmi n).pins = s.pins := by
  unfold State.fireNmi; first | (simp; done) | (simp only [State.ring_msix]; rfl)
@[simp] theorem State.fireNmi_lgr (s : State) (n : Nat) : (s.fireNmi n).lgr = s.lgr := by
  unfold State.fireNmi; first | (simp; done) | (simp only [State.ring_msix]; rfl)
@[simp] theorem State.hart_fireNmi (s : State) (n : Nat) (c : Nat) : (s.fireNmi n).hart c = s.hart c := by
  simp [State.hart]
@[simp] theorem State.l2c_fireNmi (s : State) (n : Nat) (c : Nat) : (s.fireNmi n).l2c c = s.l2c c := by
  simp [State.l2c]
@[simp] theorem State.lane_fireNmi (s : State) (n : Nat) (m : Nat) : (s.fireNmi n).lane m = s.lane m := by
  simp [State.lane]
@[simp] theorem State.guest_fireNmi (s : State) (n : Nat) (g : Nat) : (s.fireNmi n).guest g = s.guest g := by
  simp [State.guest]
@[simp] theorem State.alnPort_fireNmi (s : State) (n : Nat) (m : Nat) : (s.fireNmi n).alnPort m = s.alnPort m := by
  simp [State.alnPort]
@[simp] theorem State.ring_fireNmi (s : State) (n : Nat) (r : Nat) : (s.fireNmi n).ring r = s.ring r := by
  unfold State.fireNmi; first | (simp; done) | (simp only [State.ring_msix]; rfl)
theorem State.rd_fireNmi (s : State) (n : Nat) (g : Field) (j : Nat) (h : evReg g.reg = false) : (s.fireNmi n).rd g j = s.rd g j := by
  have hk : ∀ r, evReg r = true → r ≠ g.reg := by
    intro r hr e; subst e; simp [hr] at h
  unfold State.fireNmi
  simp only [State.rd_msix _ _ _ _ _ h, State.rd_with_evc, State.inc]
  rw [State.rd_wr_of_reg _ _ (hk _ rfl), State.rd_wr_of_reg _ _ (hk _ rfl), State.rd_wr_of_reg _ _ (hk _ rfl)]

@[simp] theorem State.fire_pending (s : State) (n : Nat) (nm : Bool) : (s.fire n nm).pending = s.pending := by
  unfold State.fire; split <;> simp
@[simp] theorem State.fire_hw (s : State) (n : Nat) (nm : Bool) : (s.fire n nm).hw = s.hw := by
  unfold State.fire; split <;> simp
@[simp] theorem State.fire_fresh (s : State) (n : Nat) (nm : Bool) : (s.fire n nm).fresh = s.fresh := by
  unfold State.fire; split <;> simp
@[simp] theorem State.fire_rdata (s : State) (n : Nat) (nm : Bool) : (s.fire n nm).rdata = s.rdata := by
  unfold State.fire; split <;> simp
@[simp] theorem State.fire_harts (s : State) (n : Nat) (nm : Bool) : (s.fire n nm).harts = s.harts := by
  unfold State.fire; split <;> simp
@[simp] theorem State.fire_l2 (s : State) (n : Nat) (nm : Bool) : (s.fire n nm).l2 = s.l2 := by
  unfold State.fire; split <;> simp
@[simp] theorem State.fire_dir (s : State) (n : Nat) (nm : Bool) : (s.fire n nm).dir = s.dir := by
  unfold State.fire; split <;> simp
@[simp] theorem State.fire_groups (s : State) (n : Nat) (nm : Bool) : (s.fire n nm).groups = s.groups := by
  unfold State.fire; split <;> simp
@[simp] theorem State.fire_mem (s : State) (n : Nat) (nm : Bool) : (s.fire n nm).mem = s.mem := by
  unfold State.fire; split <;> simp
@[simp] theorem State.fire_beat (s : State) (n : Nat) (nm : Bool) : (s.fire n nm).beat = s.beat := by
  unfold State.fire; split <;> simp
@[simp] theorem State.fire_lanes (s : State) (n : Nat) (nm : Bool) : (s.fire n nm).lanes = s.lanes := by
  unfold State.fire; split <;> simp
@[simp] theorem State.fire_ctx (s : State) (n : Nat) (nm : Bool) : (s.fire n nm).ctx = s.ctx := by
  unfold State.fire; split <;> simp
@[simp] theorem State.fire_trg (s : State) (n : Nat) (nm : Bool) : (s.fire n nm).trg = s.trg := by
  unfold State.fire; split <;> simp
@[simp] theorem State.fire_tio (s : State) (n : Nat) (nm : Bool) : (s.fire n nm).tio = s.tio := by
  unfold State.fire; split <;> simp
@[simp] theorem State.fire_evb (s : State) (n : Nat) (nm : Bool) : (s.fire n nm).evb = s.evb := by
  unfold State.fire; split <;> simp
@[simp] theorem State.fire_guests (s : State) (n : Nat) (nm : Bool) : (s.fire n nm).guests = s.guests := by
  unfold State.fire; split <;> simp
@[simp] theorem State.fire_aln (s : State) (n : Nat) (nm : Bool) : (s.fire n nm).aln = s.aln := by
  unfold State.fire; split <;> simp
@[simp] theorem State.fire_stp (s : State) (n : Nat) (nm : Bool) : (s.fire n nm).stp = s.stp := by
  unfold State.fire; split <;> simp
@[simp] theorem State.fire_eth (s : State) (n : Nat) (nm : Bool) : (s.fire n nm).eth = s.eth := by
  unfold State.fire; split <;> simp
@[simp] theorem State.fire_fuses (s : State) (n : Nat) (nm : Bool) : (s.fire n nm).fuses = s.fuses := by
  unfold State.fire; split <;> simp
@[simp] theorem State.fire_vellum (s : State) (n : Nat) (nm : Bool) : (s.fire n nm).vellum = s.vellum := by
  unfold State.fire; split <;> simp
@[simp] theorem State.fire_boot (s : State) (n : Nat) (nm : Bool) : (s.fire n nm).boot = s.boot := by
  unfold State.fire; split <;> simp
@[simp] theorem State.fire_dbg (s : State) (n : Nat) (nm : Bool) : (s.fire n nm).dbg = s.dbg := by
  unfold State.fire; split <;> simp
@[simp] theorem State.fire_ckr (s : State) (n : Nat) (nm : Bool) : (s.fire n nm).ckr = s.ckr := by
  unfold State.fire; split <;> simp
@[simp] theorem State.fire_pwr (s : State) (n : Nat) (nm : Bool) : (s.fire n nm).pwr = s.pwr := by
  unfold State.fire; split <;> simp
@[simp] theorem State.fire_pins (s : State) (n : Nat) (nm : Bool) : (s.fire n nm).pins = s.pins := by
  unfold State.fire; split <;> simp
@[simp] theorem State.fire_lgr (s : State) (n : Nat) (nm : Bool) : (s.fire n nm).lgr = s.lgr := by
  unfold State.fire; split <;> simp
@[simp] theorem State.hart_fire (s : State) (n : Nat) (nm : Bool) (c : Nat) : (s.fire n nm).hart c = s.hart c := by
  simp [State.hart]
@[simp] theorem State.l2c_fire (s : State) (n : Nat) (nm : Bool) (c : Nat) : (s.fire n nm).l2c c = s.l2c c := by
  simp [State.l2c]
@[simp] theorem State.lane_fire (s : State) (n : Nat) (nm : Bool) (m : Nat) : (s.fire n nm).lane m = s.lane m := by
  simp [State.lane]
@[simp] theorem State.guest_fire (s : State) (n : Nat) (nm : Bool) (g : Nat) : (s.fire n nm).guest g = s.guest g := by
  simp [State.guest]
@[simp] theorem State.alnPort_fire (s : State) (n : Nat) (nm : Bool) (m : Nat) : (s.fire n nm).alnPort m = s.alnPort m := by
  simp [State.alnPort]
@[simp] theorem State.ring_fire (s : State) (n : Nat) (nm : Bool) (r : Nat) : (s.fire n nm).ring r = s.ring r := by
  unfold State.fire; split <;> simp
theorem State.rd_fire (s : State) (n : Nat) (nm : Bool) (g : Field) (j : Nat) (h : evReg g.reg = false) : (s.fire n nm).rd g j = s.rd g j := by
  have hk : ∀ r, evReg r = true → r ≠ g.reg := by
    intro r hr e; subst e; simp [hr] at h
  unfold State.fire; split
  · exact s.rd_fireNmi n g j h
  · rw [State.rd_deliver _ _ _ _ h]; simp only [State.inc]; exact s.rd_wr_of_reg _ (hk _ rfl)

@[simp] theorem State.raiseNm_pending (s : State) (f : Field) (i : Nat) (nm : Bool) : (s.raiseNm f i nm).pending = s.pending := by
  unfold State.raiseNm; repeat' (split <;> try simp)
@[simp] theorem State.raiseNm_hw (s : State) (f : Field) (i : Nat) (nm : Bool) : (s.raiseNm f i nm).hw = s.hw := by
  unfold State.raiseNm; repeat' (split <;> try simp)
@[simp] theorem State.raiseNm_fresh (s : State) (f : Field) (i : Nat) (nm : Bool) : (s.raiseNm f i nm).fresh = s.fresh := by
  unfold State.raiseNm; repeat' (split <;> try simp)
@[simp] theorem State.raiseNm_rdata (s : State) (f : Field) (i : Nat) (nm : Bool) : (s.raiseNm f i nm).rdata = s.rdata := by
  unfold State.raiseNm; repeat' (split <;> try simp)
@[simp] theorem State.raiseNm_harts (s : State) (f : Field) (i : Nat) (nm : Bool) : (s.raiseNm f i nm).harts = s.harts := by
  unfold State.raiseNm; repeat' (split <;> try simp)
@[simp] theorem State.raiseNm_l2 (s : State) (f : Field) (i : Nat) (nm : Bool) : (s.raiseNm f i nm).l2 = s.l2 := by
  unfold State.raiseNm; repeat' (split <;> try simp)
@[simp] theorem State.raiseNm_dir (s : State) (f : Field) (i : Nat) (nm : Bool) : (s.raiseNm f i nm).dir = s.dir := by
  unfold State.raiseNm; repeat' (split <;> try simp)
@[simp] theorem State.raiseNm_groups (s : State) (f : Field) (i : Nat) (nm : Bool) : (s.raiseNm f i nm).groups = s.groups := by
  unfold State.raiseNm; repeat' (split <;> try simp)
@[simp] theorem State.raiseNm_mem (s : State) (f : Field) (i : Nat) (nm : Bool) : (s.raiseNm f i nm).mem = s.mem := by
  unfold State.raiseNm; repeat' (split <;> try simp)
@[simp] theorem State.raiseNm_beat (s : State) (f : Field) (i : Nat) (nm : Bool) : (s.raiseNm f i nm).beat = s.beat := by
  unfold State.raiseNm; repeat' (split <;> try simp)
@[simp] theorem State.raiseNm_lanes (s : State) (f : Field) (i : Nat) (nm : Bool) : (s.raiseNm f i nm).lanes = s.lanes := by
  unfold State.raiseNm; repeat' (split <;> try simp)
@[simp] theorem State.raiseNm_ctx (s : State) (f : Field) (i : Nat) (nm : Bool) : (s.raiseNm f i nm).ctx = s.ctx := by
  unfold State.raiseNm; repeat' (split <;> try simp)
@[simp] theorem State.raiseNm_trg (s : State) (f : Field) (i : Nat) (nm : Bool) : (s.raiseNm f i nm).trg = s.trg := by
  unfold State.raiseNm; repeat' (split <;> try simp)
@[simp] theorem State.raiseNm_tio (s : State) (f : Field) (i : Nat) (nm : Bool) : (s.raiseNm f i nm).tio = s.tio := by
  unfold State.raiseNm; repeat' (split <;> try simp)
@[simp] theorem State.raiseNm_evb (s : State) (f : Field) (i : Nat) (nm : Bool) : (s.raiseNm f i nm).evb = s.evb := by
  unfold State.raiseNm; repeat' (split <;> try simp)
@[simp] theorem State.raiseNm_guests (s : State) (f : Field) (i : Nat) (nm : Bool) : (s.raiseNm f i nm).guests = s.guests := by
  unfold State.raiseNm; repeat' (split <;> try simp)
@[simp] theorem State.raiseNm_aln (s : State) (f : Field) (i : Nat) (nm : Bool) : (s.raiseNm f i nm).aln = s.aln := by
  unfold State.raiseNm; repeat' (split <;> try simp)
@[simp] theorem State.raiseNm_stp (s : State) (f : Field) (i : Nat) (nm : Bool) : (s.raiseNm f i nm).stp = s.stp := by
  unfold State.raiseNm; repeat' (split <;> try simp)
@[simp] theorem State.raiseNm_eth (s : State) (f : Field) (i : Nat) (nm : Bool) : (s.raiseNm f i nm).eth = s.eth := by
  unfold State.raiseNm; repeat' (split <;> try simp)
@[simp] theorem State.raiseNm_fuses (s : State) (f : Field) (i : Nat) (nm : Bool) : (s.raiseNm f i nm).fuses = s.fuses := by
  unfold State.raiseNm; repeat' (split <;> try simp)
@[simp] theorem State.raiseNm_vellum (s : State) (f : Field) (i : Nat) (nm : Bool) : (s.raiseNm f i nm).vellum = s.vellum := by
  unfold State.raiseNm; repeat' (split <;> try simp)
@[simp] theorem State.raiseNm_boot (s : State) (f : Field) (i : Nat) (nm : Bool) : (s.raiseNm f i nm).boot = s.boot := by
  unfold State.raiseNm; repeat' (split <;> try simp)
@[simp] theorem State.raiseNm_dbg (s : State) (f : Field) (i : Nat) (nm : Bool) : (s.raiseNm f i nm).dbg = s.dbg := by
  unfold State.raiseNm; repeat' (split <;> try simp)
@[simp] theorem State.raiseNm_ckr (s : State) (f : Field) (i : Nat) (nm : Bool) : (s.raiseNm f i nm).ckr = s.ckr := by
  unfold State.raiseNm; repeat' (split <;> try simp)
@[simp] theorem State.raiseNm_pwr (s : State) (f : Field) (i : Nat) (nm : Bool) : (s.raiseNm f i nm).pwr = s.pwr := by
  unfold State.raiseNm; repeat' (split <;> try simp)
@[simp] theorem State.raiseNm_pins (s : State) (f : Field) (i : Nat) (nm : Bool) : (s.raiseNm f i nm).pins = s.pins := by
  unfold State.raiseNm; repeat' (split <;> try simp)
@[simp] theorem State.raiseNm_lgr (s : State) (f : Field) (i : Nat) (nm : Bool) : (s.raiseNm f i nm).lgr = s.lgr := by
  unfold State.raiseNm; repeat' (split <;> try simp)
@[simp] theorem State.hart_raiseNm (s : State) (f : Field) (i : Nat) (nm : Bool) (c : Nat) : (s.raiseNm f i nm).hart c = s.hart c := by
  simp [State.hart]
@[simp] theorem State.l2c_raiseNm (s : State) (f : Field) (i : Nat) (nm : Bool) (c : Nat) : (s.raiseNm f i nm).l2c c = s.l2c c := by
  simp [State.l2c]
@[simp] theorem State.lane_raiseNm (s : State) (f : Field) (i : Nat) (nm : Bool) (m : Nat) : (s.raiseNm f i nm).lane m = s.lane m := by
  simp [State.lane]
@[simp] theorem State.guest_raiseNm (s : State) (f : Field) (i : Nat) (nm : Bool) (g : Nat) : (s.raiseNm f i nm).guest g = s.guest g := by
  simp [State.guest]
@[simp] theorem State.alnPort_raiseNm (s : State) (f : Field) (i : Nat) (nm : Bool) (m : Nat) : (s.raiseNm f i nm).alnPort m = s.alnPort m := by
  simp [State.alnPort]
@[simp] theorem State.ring_raiseNm (s : State) (f : Field) (i : Nat) (nm : Bool) (r : Nat) : (s.raiseNm f i nm).ring r = s.ring r := by
  unfold State.raiseNm; repeat' (split <;> try simp)

/-- After an event bit is set, every register field but the bit and the event controller's own reads as before. -/
theorem State.rd_raiseNm (s : State) (f : Field) (i : Nat) (nm : Bool) (g : Field) (j : Nat) (h : evReg g.reg = false)
    (hne : RegKey.mk f.reg i f.lo ≠ RegKey.mk g.reg j g.lo) : (s.raiseNm f i nm).rd g j = s.rd g j := by
  have hk : ∀ r, evReg r = true → r ≠ g.reg := by
    intro r hr e; subst e; simp [hr] at h
  unfold State.raiseNm
  split
  on_goal 2 => dsimp only; split <;> [skip; split]
  all_goals try simp only [State.rd_fire _ _ _ _ _ h, State.inc]
  all_goals first
    | exact s.rd_wr_of_key _ hne
    | (rw [State.rd_wr_of_reg _ _ (hk _ rfl)]; exact s.rd_wr_of_key _ hne)

/-- An event bit that is set reads one. -/
theorem State.rd_raiseNm_self (s : State) (f : Field) (i : Nat) (nm : Bool) (h : evReg f.reg = false) (hw : f.w = 1) :
    (s.raiseNm f i nm).rd f i = 1 := by
  have hk : ∀ r, evReg r = true → r ≠ f.reg := by
    intro r hr e; subst e; simp [hr] at h
  unfold State.raiseNm
  split
  on_goal 2 => dsimp only; split <;> [skip; split]
  all_goals try simp only [State.rd_fire _ _ _ _ _ h, State.inc]
  all_goals first
    | simp [hw]
    | (rw [State.rd_wr_of_reg _ _ (hk _ rfl)]; simp [hw])

@[simp] theorem State.raise_pending (s : State) (f : Field) (i : Nat) : (s.raise f i).pending = s.pending := by simp [State.raise]
@[simp] theorem State.raise_hw (s : State) (f : Field) (i : Nat) : (s.raise f i).hw = s.hw := by simp [State.raise]
@[simp] theorem State.raise_fresh (s : State) (f : Field) (i : Nat) : (s.raise f i).fresh = s.fresh := by simp [State.raise]
@[simp] theorem State.raise_rdata (s : State) (f : Field) (i : Nat) : (s.raise f i).rdata = s.rdata := by simp [State.raise]
@[simp] theorem State.raise_harts (s : State) (f : Field) (i : Nat) : (s.raise f i).harts = s.harts := by simp [State.raise]
@[simp] theorem State.raise_l2 (s : State) (f : Field) (i : Nat) : (s.raise f i).l2 = s.l2 := by simp [State.raise]
@[simp] theorem State.raise_dir (s : State) (f : Field) (i : Nat) : (s.raise f i).dir = s.dir := by simp [State.raise]
@[simp] theorem State.raise_groups (s : State) (f : Field) (i : Nat) : (s.raise f i).groups = s.groups := by simp [State.raise]
@[simp] theorem State.raise_mem (s : State) (f : Field) (i : Nat) : (s.raise f i).mem = s.mem := by simp [State.raise]
@[simp] theorem State.raise_beat (s : State) (f : Field) (i : Nat) : (s.raise f i).beat = s.beat := by simp [State.raise]
@[simp] theorem State.raise_lanes (s : State) (f : Field) (i : Nat) : (s.raise f i).lanes = s.lanes := by simp [State.raise]
@[simp] theorem State.raise_ctx (s : State) (f : Field) (i : Nat) : (s.raise f i).ctx = s.ctx := by simp [State.raise]
@[simp] theorem State.raise_trg (s : State) (f : Field) (i : Nat) : (s.raise f i).trg = s.trg := by simp [State.raise]
@[simp] theorem State.raise_tio (s : State) (f : Field) (i : Nat) : (s.raise f i).tio = s.tio := by simp [State.raise]
@[simp] theorem State.raise_evb (s : State) (f : Field) (i : Nat) : (s.raise f i).evb = s.evb := by simp [State.raise]
@[simp] theorem State.raise_guests (s : State) (f : Field) (i : Nat) : (s.raise f i).guests = s.guests := by simp [State.raise]
@[simp] theorem State.raise_aln (s : State) (f : Field) (i : Nat) : (s.raise f i).aln = s.aln := by simp [State.raise]
@[simp] theorem State.raise_stp (s : State) (f : Field) (i : Nat) : (s.raise f i).stp = s.stp := by simp [State.raise]
@[simp] theorem State.raise_eth (s : State) (f : Field) (i : Nat) : (s.raise f i).eth = s.eth := by simp [State.raise]
@[simp] theorem State.raise_fuses (s : State) (f : Field) (i : Nat) : (s.raise f i).fuses = s.fuses := by simp [State.raise]
@[simp] theorem State.raise_vellum (s : State) (f : Field) (i : Nat) : (s.raise f i).vellum = s.vellum := by simp [State.raise]
@[simp] theorem State.raise_boot (s : State) (f : Field) (i : Nat) : (s.raise f i).boot = s.boot := by simp [State.raise]
@[simp] theorem State.raise_dbg (s : State) (f : Field) (i : Nat) : (s.raise f i).dbg = s.dbg := by simp [State.raise]
@[simp] theorem State.raise_ckr (s : State) (f : Field) (i : Nat) : (s.raise f i).ckr = s.ckr := by simp [State.raise]
@[simp] theorem State.raise_pwr (s : State) (f : Field) (i : Nat) : (s.raise f i).pwr = s.pwr := by simp [State.raise]
@[simp] theorem State.raise_pins (s : State) (f : Field) (i : Nat) : (s.raise f i).pins = s.pins := by simp [State.raise]
@[simp] theorem State.raise_lgr (s : State) (f : Field) (i : Nat) : (s.raise f i).lgr = s.lgr := by simp [State.raise]
@[simp] theorem State.hart_raise (s : State) (f : Field) (i : Nat) (c : Nat) : (s.raise f i).hart c = s.hart c := by simp [State.raise]
@[simp] theorem State.l2c_raise (s : State) (f : Field) (i : Nat) (c : Nat) : (s.raise f i).l2c c = s.l2c c := by simp [State.raise]
@[simp] theorem State.lane_raise (s : State) (f : Field) (i : Nat) (m : Nat) : (s.raise f i).lane m = s.lane m := by simp [State.raise]
@[simp] theorem State.guest_raise (s : State) (f : Field) (i : Nat) (g : Nat) : (s.raise f i).guest g = s.guest g := by simp [State.raise]
@[simp] theorem State.alnPort_raise (s : State) (f : Field) (i : Nat) (m : Nat) : (s.raise f i).alnPort m = s.alnPort m := by simp [State.raise]
@[simp] theorem State.ring_raise (s : State) (f : Field) (i : Nat) (r : Nat) : (s.raise f i).ring r = s.ring r := by simp [State.raise]

theorem State.rd_raise (s : State) (f : Field) (i : Nat) (g : Field) (j : Nat) (h : evReg g.reg = false)
    (hne : RegKey.mk f.reg i f.lo ≠ RegKey.mk g.reg j g.lo) : (s.raise f i).rd g j = s.rd g j :=
  s.rd_raiseNm f i false g j h hne

theorem State.rd_raise_of_reg (s : State) {f g : Field} {i j : Nat} (h : evReg g.reg = false) (hr : f.reg ≠ g.reg) :
    (s.raise f i).rd g j = s.rd g j := s.rd_raise f i g j h (by simp [hr])

theorem State.rd_raise_of_lo (s : State) {f g : Field} {i j : Nat} (h : evReg g.reg = false) (hr : f.lo ≠ g.lo) :
    (s.raise f i).rd g j = s.rd g j := s.rd_raise f i g j h (by simp [hr])

theorem State.rd_raise_self (s : State) (f : Field) (i : Nat) (h : evReg f.reg = false) (hw : f.w = 1) :
    (s.raise f i).rd f i = 1 := s.rd_raiseNm_self f i false h hw

end Sys2Proof.Machine
end

