-- ==== Sys2Proof/Laws/Fields.lean ====
section
/-!
SUPPORT. The register, lowest bit and width of every field, true by definition, so that no proof unfolds a field.
-/

set_option Elab.async false

namespace Sys2Proof.Machine.F

@[simp] theorem reg_ALN_CFG_AUTO_TRAIN : ALN_CFG.AUTO_TRAIN.reg = .ALN_CFG := rfl
@[simp] theorem lo_ALN_CFG_AUTO_TRAIN : ALN_CFG.AUTO_TRAIN.lo = 0 := rfl
@[simp] theorem w_ALN_CFG_AUTO_TRAIN : ALN_CFG.AUTO_TRAIN.w = 1 := rfl
@[simp] theorem reg_ALN_CFG_REQ_SIG : ALN_CFG.REQ_SIG.reg = .ALN_CFG := rfl
@[simp] theorem lo_ALN_CFG_REQ_SIG : ALN_CFG.REQ_SIG.lo = 1 := rfl
@[simp] theorem w_ALN_CFG_REQ_SIG : ALN_CFG.REQ_SIG.w = 1 := rfl
@[simp] theorem reg_ALN_CFG_LOCK : ALN_CFG.LOCK.reg = .ALN_CFG := rfl
@[simp] theorem lo_ALN_CFG_LOCK : ALN_CFG.LOCK.lo = 31 := rfl
@[simp] theorem w_ALN_CFG_LOCK : ALN_CFG.LOCK.w = 1 := rfl
@[simp] theorem reg_ALN_SUMMARY_UP : ALN_SUMMARY.UP.reg = .ALN_SUMMARY := rfl
@[simp] theorem lo_ALN_SUMMARY_UP : ALN_SUMMARY.UP.lo = 0 := rfl
@[simp] theorem w_ALN_SUMMARY_UP : ALN_SUMMARY.UP.w = 14 := rfl
@[simp] theorem reg_ALN_SUMMARY_FENCED : ALN_SUMMARY.FENCED.reg = .ALN_SUMMARY := rfl
@[simp] theorem lo_ALN_SUMMARY_FENCED : ALN_SUMMARY.FENCED.lo = 16 := rfl
@[simp] theorem w_ALN_SUMMARY_FENCED : ALN_SUMMARY.FENCED.w = 14 := rfl
@[simp] theorem reg_ALN_SUMMARY_ABSENT : ALN_SUMMARY.ABSENT.reg = .ALN_SUMMARY := rfl
@[simp] theorem lo_ALN_SUMMARY_ABSENT : ALN_SUMMARY.ABSENT.lo = 32 := rfl
@[simp] theorem w_ALN_SUMMARY_ABSENT : ALN_SUMMARY.ABSENT.w = 14 := rfl
@[simp] theorem reg_ALN_SUMMARY_PKG_GEN : ALN_SUMMARY.PKG_GEN.reg = .ALN_SUMMARY := rfl
@[simp] theorem lo_ALN_SUMMARY_PKG_GEN : ALN_SUMMARY.PKG_GEN.lo = 48 := rfl
@[simp] theorem w_ALN_SUMMARY_PKG_GEN : ALN_SUMMARY.PKG_GEN.w = 8 := rfl
@[simp] theorem reg_ALN_FEAT_COH : ALN_FEAT.COH.reg = .ALN_FEAT := rfl
@[simp] theorem lo_ALN_FEAT_COH : ALN_FEAT.COH.lo = 0 := rfl
@[simp] theorem w_ALN_FEAT_COH : ALN_FEAT.COH.w = 16 := rfl
@[simp] theorem reg_ALN_PORT_CTL_EN : ALN_PORT_CTL.EN.reg = .ALN_PORT_CTL := rfl
@[simp] theorem lo_ALN_PORT_CTL_EN : ALN_PORT_CTL.EN.lo = 0 := rfl
@[simp] theorem w_ALN_PORT_CTL_EN : ALN_PORT_CTL.EN.w = 1 := rfl
@[simp] theorem reg_ALN_PORT_CTL_RESTART : ALN_PORT_CTL.RESTART.reg = .ALN_PORT_CTL := rfl
@[simp] theorem lo_ALN_PORT_CTL_RESTART : ALN_PORT_CTL.RESTART.lo = 1 := rfl
@[simp] theorem w_ALN_PORT_CTL_RESTART : ALN_PORT_CTL.RESTART.w = 1 := rfl
@[simp] theorem reg_ALN_PORT_CTL_WIDTH_RESTORE : ALN_PORT_CTL.WIDTH_RESTORE.reg = .ALN_PORT_CTL := rfl
@[simp] theorem lo_ALN_PORT_CTL_WIDTH_RESTORE : ALN_PORT_CTL.WIDTH_RESTORE.lo = 2 := rfl
@[simp] theorem w_ALN_PORT_CTL_WIDTH_RESTORE : ALN_PORT_CTL.WIDTH_RESTORE.w = 1 := rfl
@[simp] theorem reg_ALN_PORT_CTL_UNFENCE : ALN_PORT_CTL.UNFENCE.reg = .ALN_PORT_CTL := rfl
@[simp] theorem lo_ALN_PORT_CTL_UNFENCE : ALN_PORT_CTL.UNFENCE.lo = 3 := rfl
@[simp] theorem w_ALN_PORT_CTL_UNFENCE : ALN_PORT_CTL.UNFENCE.w = 1 := rfl
@[simp] theorem reg_ALN_PORT_CTL_REPLAY_LIMIT : ALN_PORT_CTL.REPLAY_LIMIT.reg = .ALN_PORT_CTL := rfl
@[simp] theorem lo_ALN_PORT_CTL_REPLAY_LIMIT : ALN_PORT_CTL.REPLAY_LIMIT.lo = 8 := rfl
@[simp] theorem w_ALN_PORT_CTL_REPLAY_LIMIT : ALN_PORT_CTL.REPLAY_LIMIT.w = 8 := rfl
@[simp] theorem reg_ALN_PORT_STATUS_STATE : ALN_PORT_STATUS.STATE.reg = .ALN_PORT_STATUS := rfl
@[simp] theorem lo_ALN_PORT_STATUS_STATE : ALN_PORT_STATUS.STATE.lo = 0 := rfl
@[simp] theorem w_ALN_PORT_STATUS_STATE : ALN_PORT_STATUS.STATE.w = 4 := rfl
@[simp] theorem reg_ALN_PORT_STATUS_STATE_Q : ALN_PORT_STATUS.STATE_Q.reg = .ALN_PORT_STATUS := rfl
@[simp] theorem lo_ALN_PORT_STATUS_STATE_Q : ALN_PORT_STATUS.STATE_Q.lo = 4 := rfl
@[simp] theorem w_ALN_PORT_STATUS_STATE_Q : ALN_PORT_STATUS.STATE_Q.w = 4 := rfl
@[simp] theorem reg_ALN_PORT_STATUS_WIDTH_P : ALN_PORT_STATUS.WIDTH_P.reg = .ALN_PORT_STATUS := rfl
@[simp] theorem lo_ALN_PORT_STATUS_WIDTH_P : ALN_PORT_STATUS.WIDTH_P.lo = 8 := rfl
@[simp] theorem w_ALN_PORT_STATUS_WIDTH_P : ALN_PORT_STATUS.WIDTH_P.w = 8 := rfl
@[simp] theorem reg_ALN_PORT_STATUS_WIDTH_Q : ALN_PORT_STATUS.WIDTH_Q.reg = .ALN_PORT_STATUS := rfl
@[simp] theorem lo_ALN_PORT_STATUS_WIDTH_Q : ALN_PORT_STATUS.WIDTH_Q.lo = 16 := rfl
@[simp] theorem w_ALN_PORT_STATUS_WIDTH_Q : ALN_PORT_STATUS.WIDTH_Q.w = 8 := rfl
@[simp] theorem reg_ALN_PORT_STATUS_FAILS : ALN_PORT_STATUS.FAILS.reg = .ALN_PORT_STATUS := rfl
@[simp] theorem lo_ALN_PORT_STATUS_FAILS : ALN_PORT_STATUS.FAILS.lo = 24 := rfl
@[simp] theorem w_ALN_PORT_STATUS_FAILS : ALN_PORT_STATUS.FAILS.w = 2 := rfl
@[simp] theorem reg_ALN_PORT_STATUS_BASE_ON_SPARES : ALN_PORT_STATUS.BASE_ON_SPARES.reg = .ALN_PORT_STATUS := rfl
@[simp] theorem lo_ALN_PORT_STATUS_BASE_ON_SPARES : ALN_PORT_STATUS.BASE_ON_SPARES.lo = 26 := rfl
@[simp] theorem w_ALN_PORT_STATUS_BASE_ON_SPARES : ALN_PORT_STATUS.BASE_ON_SPARES.w = 1 := rfl
@[simp] theorem reg_ALN_PORT_STATUS_EVT_FENCE : ALN_PORT_STATUS.EVT_FENCE.reg = .ALN_PORT_STATUS := rfl
@[simp] theorem lo_ALN_PORT_STATUS_EVT_FENCE : ALN_PORT_STATUS.EVT_FENCE.lo = 32 := rfl
@[simp] theorem w_ALN_PORT_STATUS_EVT_FENCE : ALN_PORT_STATUS.EVT_FENCE.w = 1 := rfl
@[simp] theorem reg_ALN_PORT_STATUS_EVT_RETRAIN : ALN_PORT_STATUS.EVT_RETRAIN.reg = .ALN_PORT_STATUS := rfl
@[simp] theorem lo_ALN_PORT_STATUS_EVT_RETRAIN : ALN_PORT_STATUS.EVT_RETRAIN.lo = 33 := rfl
@[simp] theorem w_ALN_PORT_STATUS_EVT_RETRAIN : ALN_PORT_STATUS.EVT_RETRAIN.w = 1 := rfl
@[simp] theorem reg_ALN_PORT_STATUS_EVT_WIDTH_DOWN : ALN_PORT_STATUS.EVT_WIDTH_DOWN.reg = .ALN_PORT_STATUS := rfl
@[simp] theorem lo_ALN_PORT_STATUS_EVT_WIDTH_DOWN : ALN_PORT_STATUS.EVT_WIDTH_DOWN.lo = 34 := rfl
@[simp] theorem w_ALN_PORT_STATUS_EVT_WIDTH_DOWN : ALN_PORT_STATUS.EVT_WIDTH_DOWN.w = 1 := rfl
@[simp] theorem reg_ALN_PORT_STATUS_EVT_REPAIR : ALN_PORT_STATUS.EVT_REPAIR.reg = .ALN_PORT_STATUS := rfl
@[simp] theorem lo_ALN_PORT_STATUS_EVT_REPAIR : ALN_PORT_STATUS.EVT_REPAIR.lo = 35 := rfl
@[simp] theorem w_ALN_PORT_STATUS_EVT_REPAIR : ALN_PORT_STATUS.EVT_REPAIR.w = 1 := rfl
@[simp] theorem reg_ALN_PORT_STATUS_EVT_RESET_SEEN : ALN_PORT_STATUS.EVT_RESET_SEEN.reg = .ALN_PORT_STATUS := rfl
@[simp] theorem lo_ALN_PORT_STATUS_EVT_RESET_SEEN : ALN_PORT_STATUS.EVT_RESET_SEEN.lo = 36 := rfl
@[simp] theorem w_ALN_PORT_STATUS_EVT_RESET_SEEN : ALN_PORT_STATUS.EVT_RESET_SEEN.w = 1 := rfl
@[simp] theorem reg_ALN_PORT_TRAINED_REC_P : ALN_PORT_TRAINED.REC_P.reg = .ALN_PORT_TRAINED := rfl
@[simp] theorem lo_ALN_PORT_TRAINED_REC_P : ALN_PORT_TRAINED.REC_P.lo = 0 := rfl
@[simp] theorem w_ALN_PORT_TRAINED_REC_P : ALN_PORT_TRAINED.REC_P.w = 8 := rfl
@[simp] theorem reg_ALN_PORT_TRAINED_REC_Q : ALN_PORT_TRAINED.REC_Q.reg = .ALN_PORT_TRAINED := rfl
@[simp] theorem lo_ALN_PORT_TRAINED_REC_Q : ALN_PORT_TRAINED.REC_Q.lo = 8 := rfl
@[simp] theorem w_ALN_PORT_TRAINED_REC_Q : ALN_PORT_TRAINED.REC_Q.w = 8 := rfl
@[simp] theorem reg_ALN_PORT_FENCE_CAUSE : ALN_PORT_FENCE.CAUSE.reg = .ALN_PORT_FENCE := rfl
@[simp] theorem lo_ALN_PORT_FENCE_CAUSE : ALN_PORT_FENCE.CAUSE.lo = 0 := rfl
@[simp] theorem w_ALN_PORT_FENCE_CAUSE : ALN_PORT_FENCE.CAUSE.w = 8 := rfl
@[simp] theorem reg_ALN_PORT_FENCE_COUNT : ALN_PORT_FENCE.COUNT.reg = .ALN_PORT_FENCE := rfl
@[simp] theorem lo_ALN_PORT_FENCE_COUNT : ALN_PORT_FENCE.COUNT.lo = 16 := rfl
@[simp] theorem w_ALN_PORT_FENCE_COUNT : ALN_PORT_FENCE.COUNT.w = 16 := rfl
@[simp] theorem reg_ALN_PORT_CAP_BYTES : ALN_PORT_CAP.BYTES.reg = .ALN_PORT_CAP := rfl
@[simp] theorem lo_ALN_PORT_CAP_BYTES : ALN_PORT_CAP.BYTES.lo = 0 := rfl
@[simp] theorem w_ALN_PORT_CAP_BYTES : ALN_PORT_CAP.BYTES.w = 64 := rfl
@[simp] theorem reg_ALN_PORT_REPAIR_P_RX_SPARE0 : ALN_PORT_REPAIR_P.RX_SPARE0.reg = .ALN_PORT_REPAIR_P := rfl
@[simp] theorem lo_ALN_PORT_REPAIR_P_RX_SPARE0 : ALN_PORT_REPAIR_P.RX_SPARE0.lo = 0 := rfl
@[simp] theorem w_ALN_PORT_REPAIR_P_RX_SPARE0 : ALN_PORT_REPAIR_P.RX_SPARE0.w = 8 := rfl
@[simp] theorem reg_ALN_PORT_REPAIR_P_TX_SPARE0 : ALN_PORT_REPAIR_P.TX_SPARE0.reg = .ALN_PORT_REPAIR_P := rfl
@[simp] theorem lo_ALN_PORT_REPAIR_P_TX_SPARE0 : ALN_PORT_REPAIR_P.TX_SPARE0.lo = 32 := rfl
@[simp] theorem w_ALN_PORT_REPAIR_P_TX_SPARE0 : ALN_PORT_REPAIR_P.TX_SPARE0.w = 8 := rfl
@[simp] theorem reg_ALN_PORT_REPAIR_P_RX_SPARE1 : ALN_PORT_REPAIR_P.RX_SPARE1.reg = .ALN_PORT_REPAIR_P := rfl
@[simp] theorem lo_ALN_PORT_REPAIR_P_RX_SPARE1 : ALN_PORT_REPAIR_P.RX_SPARE1.lo = 8 := rfl
@[simp] theorem w_ALN_PORT_REPAIR_P_RX_SPARE1 : ALN_PORT_REPAIR_P.RX_SPARE1.w = 8 := rfl
@[simp] theorem reg_ALN_PORT_REPAIR_P_TX_SPARE1 : ALN_PORT_REPAIR_P.TX_SPARE1.reg = .ALN_PORT_REPAIR_P := rfl
@[simp] theorem lo_ALN_PORT_REPAIR_P_TX_SPARE1 : ALN_PORT_REPAIR_P.TX_SPARE1.lo = 40 := rfl
@[simp] theorem w_ALN_PORT_REPAIR_P_TX_SPARE1 : ALN_PORT_REPAIR_P.TX_SPARE1.w = 8 := rfl
@[simp] theorem reg_ALN_PORT_REPAIR_P_RX_SPARE2 : ALN_PORT_REPAIR_P.RX_SPARE2.reg = .ALN_PORT_REPAIR_P := rfl
@[simp] theorem lo_ALN_PORT_REPAIR_P_RX_SPARE2 : ALN_PORT_REPAIR_P.RX_SPARE2.lo = 16 := rfl
@[simp] theorem w_ALN_PORT_REPAIR_P_RX_SPARE2 : ALN_PORT_REPAIR_P.RX_SPARE2.w = 8 := rfl
@[simp] theorem reg_ALN_PORT_REPAIR_P_TX_SPARE2 : ALN_PORT_REPAIR_P.TX_SPARE2.reg = .ALN_PORT_REPAIR_P := rfl
@[simp] theorem lo_ALN_PORT_REPAIR_P_TX_SPARE2 : ALN_PORT_REPAIR_P.TX_SPARE2.lo = 48 := rfl
@[simp] theorem w_ALN_PORT_REPAIR_P_TX_SPARE2 : ALN_PORT_REPAIR_P.TX_SPARE2.w = 8 := rfl
@[simp] theorem reg_ALN_PORT_REPAIR_P_RX_SPARE3 : ALN_PORT_REPAIR_P.RX_SPARE3.reg = .ALN_PORT_REPAIR_P := rfl
@[simp] theorem lo_ALN_PORT_REPAIR_P_RX_SPARE3 : ALN_PORT_REPAIR_P.RX_SPARE3.lo = 24 := rfl
@[simp] theorem w_ALN_PORT_REPAIR_P_RX_SPARE3 : ALN_PORT_REPAIR_P.RX_SPARE3.w = 8 := rfl
@[simp] theorem reg_ALN_PORT_REPAIR_P_TX_SPARE3 : ALN_PORT_REPAIR_P.TX_SPARE3.reg = .ALN_PORT_REPAIR_P := rfl
@[simp] theorem lo_ALN_PORT_REPAIR_P_TX_SPARE3 : ALN_PORT_REPAIR_P.TX_SPARE3.lo = 56 := rfl
@[simp] theorem w_ALN_PORT_REPAIR_P_TX_SPARE3 : ALN_PORT_REPAIR_P.TX_SPARE3.w = 8 := rfl
@[simp] theorem reg_ALN_PORT_REPAIR_Q_RX_SPARE0 : ALN_PORT_REPAIR_Q.RX_SPARE0.reg = .ALN_PORT_REPAIR_Q := rfl
@[simp] theorem lo_ALN_PORT_REPAIR_Q_RX_SPARE0 : ALN_PORT_REPAIR_Q.RX_SPARE0.lo = 0 := rfl
@[simp] theorem w_ALN_PORT_REPAIR_Q_RX_SPARE0 : ALN_PORT_REPAIR_Q.RX_SPARE0.w = 8 := rfl
@[simp] theorem reg_ALN_PORT_REPAIR_Q_TX_SPARE0 : ALN_PORT_REPAIR_Q.TX_SPARE0.reg = .ALN_PORT_REPAIR_Q := rfl
@[simp] theorem lo_ALN_PORT_REPAIR_Q_TX_SPARE0 : ALN_PORT_REPAIR_Q.TX_SPARE0.lo = 32 := rfl
@[simp] theorem w_ALN_PORT_REPAIR_Q_TX_SPARE0 : ALN_PORT_REPAIR_Q.TX_SPARE0.w = 8 := rfl
@[simp] theorem reg_ALN_PORT_REPAIR_Q_RX_SPARE1 : ALN_PORT_REPAIR_Q.RX_SPARE1.reg = .ALN_PORT_REPAIR_Q := rfl
@[simp] theorem lo_ALN_PORT_REPAIR_Q_RX_SPARE1 : ALN_PORT_REPAIR_Q.RX_SPARE1.lo = 8 := rfl
@[simp] theorem w_ALN_PORT_REPAIR_Q_RX_SPARE1 : ALN_PORT_REPAIR_Q.RX_SPARE1.w = 8 := rfl
@[simp] theorem reg_ALN_PORT_REPAIR_Q_TX_SPARE1 : ALN_PORT_REPAIR_Q.TX_SPARE1.reg = .ALN_PORT_REPAIR_Q := rfl
@[simp] theorem lo_ALN_PORT_REPAIR_Q_TX_SPARE1 : ALN_PORT_REPAIR_Q.TX_SPARE1.lo = 40 := rfl
@[simp] theorem w_ALN_PORT_REPAIR_Q_TX_SPARE1 : ALN_PORT_REPAIR_Q.TX_SPARE1.w = 8 := rfl
@[simp] theorem reg_ALN_PORT_REPAIR_Q_RX_SPARE2 : ALN_PORT_REPAIR_Q.RX_SPARE2.reg = .ALN_PORT_REPAIR_Q := rfl
@[simp] theorem lo_ALN_PORT_REPAIR_Q_RX_SPARE2 : ALN_PORT_REPAIR_Q.RX_SPARE2.lo = 16 := rfl
@[simp] theorem w_ALN_PORT_REPAIR_Q_RX_SPARE2 : ALN_PORT_REPAIR_Q.RX_SPARE2.w = 8 := rfl
@[simp] theorem reg_ALN_PORT_REPAIR_Q_TX_SPARE2 : ALN_PORT_REPAIR_Q.TX_SPARE2.reg = .ALN_PORT_REPAIR_Q := rfl
@[simp] theorem lo_ALN_PORT_REPAIR_Q_TX_SPARE2 : ALN_PORT_REPAIR_Q.TX_SPARE2.lo = 48 := rfl
@[simp] theorem w_ALN_PORT_REPAIR_Q_TX_SPARE2 : ALN_PORT_REPAIR_Q.TX_SPARE2.w = 8 := rfl
@[simp] theorem reg_ALN_PORT_REPAIR_Q_RX_SPARE3 : ALN_PORT_REPAIR_Q.RX_SPARE3.reg = .ALN_PORT_REPAIR_Q := rfl
@[simp] theorem lo_ALN_PORT_REPAIR_Q_RX_SPARE3 : ALN_PORT_REPAIR_Q.RX_SPARE3.lo = 24 := rfl
@[simp] theorem w_ALN_PORT_REPAIR_Q_RX_SPARE3 : ALN_PORT_REPAIR_Q.RX_SPARE3.w = 8 := rfl
@[simp] theorem reg_ALN_PORT_REPAIR_Q_TX_SPARE3 : ALN_PORT_REPAIR_Q.TX_SPARE3.reg = .ALN_PORT_REPAIR_Q := rfl
@[simp] theorem lo_ALN_PORT_REPAIR_Q_TX_SPARE3 : ALN_PORT_REPAIR_Q.TX_SPARE3.lo = 56 := rfl
@[simp] theorem w_ALN_PORT_REPAIR_Q_TX_SPARE3 : ALN_PORT_REPAIR_Q.TX_SPARE3.w = 8 := rfl
@[simp] theorem reg_ALN_PORT_CNT_REPLAYS : ALN_PORT_CNT.REPLAYS.reg = .ALN_PORT_CNT := rfl
@[simp] theorem lo_ALN_PORT_CNT_REPLAYS : ALN_PORT_CNT.REPLAYS.lo = 0 := rfl
@[simp] theorem w_ALN_PORT_CNT_REPLAYS : ALN_PORT_CNT.REPLAYS.w = 32 := rfl
@[simp] theorem reg_ALN_PORT_CNT_RETRAINS : ALN_PORT_CNT.RETRAINS.reg = .ALN_PORT_CNT := rfl
@[simp] theorem lo_ALN_PORT_CNT_RETRAINS : ALN_PORT_CNT.RETRAINS.lo = 32 := rfl
@[simp] theorem w_ALN_PORT_CNT_RETRAINS : ALN_PORT_CNT.RETRAINS.w = 16 := rfl
@[simp] theorem reg_ALN_PORT_CNT_TRAIN_FAILS : ALN_PORT_CNT.TRAIN_FAILS.reg = .ALN_PORT_CNT := rfl
@[simp] theorem lo_ALN_PORT_CNT_TRAIN_FAILS : ALN_PORT_CNT.TRAIN_FAILS.lo = 48 := rfl
@[simp] theorem w_ALN_PORT_CNT_TRAIN_FAILS : ALN_PORT_CNT.TRAIN_FAILS.w = 16 := rfl
@[simp] theorem reg_ALN_PORT_SIG_BYTES : ALN_PORT_SIG.BYTES.reg = .ALN_PORT_SIG := rfl
@[simp] theorem lo_ALN_PORT_SIG_BYTES : ALN_PORT_SIG.BYTES.lo = 0 := rfl
@[simp] theorem w_ALN_PORT_SIG_BYTES : ALN_PORT_SIG.BYTES.w = 64 := rfl
@[simp] theorem reg_CD_IDENT_SITE : CD_IDENT.SITE.reg = .CD_IDENT := rfl
@[simp] theorem lo_CD_IDENT_SITE : CD_IDENT.SITE.lo = 0 := rfl
@[simp] theorem w_CD_IDENT_SITE : CD_IDENT.SITE.w = 4 := rfl
@[simp] theorem reg_CD_IDENT_ORIENT : CD_IDENT.ORIENT.reg = .CD_IDENT := rfl
@[simp] theorem lo_CD_IDENT_ORIENT : CD_IDENT.ORIENT.lo = 4 := rfl
@[simp] theorem w_CD_IDENT_ORIENT : CD_IDENT.ORIENT.w = 3 := rfl
@[simp] theorem reg_CD_IDENT_GEN : CD_IDENT.GEN.reg = .CD_IDENT := rfl
@[simp] theorem lo_CD_IDENT_GEN : CD_IDENT.GEN.lo = 8 := rfl
@[simp] theorem w_CD_IDENT_GEN : CD_IDENT.GEN.w = 8 := rfl
@[simp] theorem reg_CD_IDENT_STEP : CD_IDENT.STEP.reg = .CD_IDENT := rfl
@[simp] theorem lo_CD_IDENT_STEP : CD_IDENT.STEP.lo = 16 := rfl
@[simp] theorem w_CD_IDENT_STEP : CD_IDENT.STEP.w = 8 := rfl
@[simp] theorem reg_CD_IDENT_MAX_CLK : CD_IDENT.MAX_CLK.reg = .CD_IDENT := rfl
@[simp] theorem lo_CD_IDENT_MAX_CLK : CD_IDENT.MAX_CLK.lo = 24 := rfl
@[simp] theorem w_CD_IDENT_MAX_CLK : CD_IDENT.MAX_CLK.w = 8 := rfl
@[simp] theorem reg_CD_IDENT_WS_LINES : CD_IDENT.WS_LINES.reg = .CD_IDENT := rfl
@[simp] theorem lo_CD_IDENT_WS_LINES : CD_IDENT.WS_LINES.lo = 32 := rfl
@[simp] theorem w_CD_IDENT_WS_LINES : CD_IDENT.WS_LINES.w = 16 := rfl
@[simp] theorem reg_BEAT_CFG_EN_A : BEAT_CFG.EN_A.reg = .BEAT_CFG := rfl
@[simp] theorem lo_BEAT_CFG_EN_A : BEAT_CFG.EN_A.lo = 0 := rfl
@[simp] theorem w_BEAT_CFG_EN_A : BEAT_CFG.EN_A.w = 1 := rfl
@[simp] theorem reg_BEAT_CFG_EN_B : BEAT_CFG.EN_B.reg = .BEAT_CFG := rfl
@[simp] theorem lo_BEAT_CFG_EN_B : BEAT_CFG.EN_B.lo = 1 := rfl
@[simp] theorem w_BEAT_CFG_EN_B : BEAT_CFG.EN_B.w = 1 := rfl
@[simp] theorem reg_BEAT_CFG_PRIMARY : BEAT_CFG.PRIMARY.reg = .BEAT_CFG := rfl
@[simp] theorem lo_BEAT_CFG_PRIMARY : BEAT_CFG.PRIMARY.lo = 2 := rfl
@[simp] theorem w_BEAT_CFG_PRIMARY : BEAT_CFG.PRIMARY.w = 1 := rfl
@[simp] theorem reg_BEAT_CFG_AUTO_REVERT : BEAT_CFG.AUTO_REVERT.reg = .BEAT_CFG := rfl
@[simp] theorem lo_BEAT_CFG_AUTO_REVERT : BEAT_CFG.AUTO_REVERT.lo = 3 := rfl
@[simp] theorem w_BEAT_CFG_AUTO_REVERT : BEAT_CFG.AUTO_REVERT.w = 1 := rfl
@[simp] theorem reg_BEAT_CFG_RATE_A : BEAT_CFG.RATE_A.reg = .BEAT_CFG := rfl
@[simp] theorem lo_BEAT_CFG_RATE_A : BEAT_CFG.RATE_A.lo = 4 := rfl
@[simp] theorem w_BEAT_CFG_RATE_A : BEAT_CFG.RATE_A.w = 1 := rfl
@[simp] theorem reg_BEAT_CFG_RATE_B : BEAT_CFG.RATE_B.reg = .BEAT_CFG := rfl
@[simp] theorem lo_BEAT_CFG_RATE_B : BEAT_CFG.RATE_B.lo = 5 := rfl
@[simp] theorem w_BEAT_CFG_RATE_B : BEAT_CFG.RATE_B.w = 1 := rfl
@[simp] theorem reg_BEAT_CFG_SPB : BEAT_CFG.SPB.reg = .BEAT_CFG := rfl
@[simp] theorem lo_BEAT_CFG_SPB : BEAT_CFG.SPB.lo = 8 := rfl
@[simp] theorem w_BEAT_CFG_SPB : BEAT_CFG.SPB.w = 6 := rfl
@[simp] theorem reg_BEAT_CFG_HOLD_MAX : BEAT_CFG.HOLD_MAX.reg = .BEAT_CFG := rfl
@[simp] theorem lo_BEAT_CFG_HOLD_MAX : BEAT_CFG.HOLD_MAX.lo = 16 := rfl
@[simp] theorem w_BEAT_CFG_HOLD_MAX : BEAT_CFG.HOLD_MAX.w = 16 := rfl
@[simp] theorem reg_BEAT_CFG_FMIN : BEAT_CFG.FMIN.reg = .BEAT_CFG := rfl
@[simp] theorem lo_BEAT_CFG_FMIN : BEAT_CFG.FMIN.lo = 32 := rfl
@[simp] theorem w_BEAT_CFG_FMIN : BEAT_CFG.FMIN.w = 16 := rfl
@[simp] theorem reg_BEAT_CFG_FMAX : BEAT_CFG.FMAX.reg = .BEAT_CFG := rfl
@[simp] theorem lo_BEAT_CFG_FMAX : BEAT_CFG.FMAX.lo = 48 := rfl
@[simp] theorem w_BEAT_CFG_FMAX : BEAT_CFG.FMAX.w = 16 := rfl
@[simp] theorem reg_BEAT_CTL_SW_LOAD : BEAT_CTL.SW_LOAD.reg = .BEAT_CTL := rfl
@[simp] theorem lo_BEAT_CTL_SW_LOAD : BEAT_CTL.SW_LOAD.lo = 0 := rfl
@[simp] theorem w_BEAT_CTL_SW_LOAD : BEAT_CTL.SW_LOAD.w = 1 := rfl
@[simp] theorem reg_BEAT_CTL_ADOPT : BEAT_CTL.ADOPT.reg = .BEAT_CTL := rfl
@[simp] theorem lo_BEAT_CTL_ADOPT : BEAT_CTL.ADOPT.lo = 1 := rfl
@[simp] theorem w_BEAT_CTL_ADOPT : BEAT_CTL.ADOPT.w = 1 := rfl
@[simp] theorem reg_BEAT_CTL_FORCE_SWITCH : BEAT_CTL.FORCE_SWITCH.reg = .BEAT_CTL := rfl
@[simp] theorem lo_BEAT_CTL_FORCE_SWITCH : BEAT_CTL.FORCE_SWITCH.lo = 2 := rfl
@[simp] theorem w_BEAT_CTL_FORCE_SWITCH : BEAT_CTL.FORCE_SWITCH.w = 1 := rfl
@[simp] theorem reg_BEAT_STATUS_UNIT : BEAT_STATUS.UNIT.reg = .BEAT_STATUS := rfl
@[simp] theorem lo_BEAT_STATUS_UNIT : BEAT_STATUS.UNIT.lo = 0 := rfl
@[simp] theorem w_BEAT_STATUS_UNIT : BEAT_STATUS.UNIT.w = 2 := rfl
@[simp] theorem reg_BEAT_STATUS_ACTIVE : BEAT_STATUS.ACTIVE.reg = .BEAT_STATUS := rfl
@[simp] theorem lo_BEAT_STATUS_ACTIVE : BEAT_STATUS.ACTIVE.lo = 3 := rfl
@[simp] theorem w_BEAT_STATUS_ACTIVE : BEAT_STATUS.ACTIVE.w = 1 := rfl
@[simp] theorem reg_BEAT_STATUS_STATE_A : BEAT_STATUS.STATE_A.reg = .BEAT_STATUS := rfl
@[simp] theorem lo_BEAT_STATUS_STATE_A : BEAT_STATUS.STATE_A.lo = 4 := rfl
@[simp] theorem w_BEAT_STATUS_STATE_A : BEAT_STATUS.STATE_A.w = 2 := rfl
@[simp] theorem reg_BEAT_STATUS_STATE_B : BEAT_STATUS.STATE_B.reg = .BEAT_STATUS := rfl
@[simp] theorem lo_BEAT_STATUS_STATE_B : BEAT_STATUS.STATE_B.lo = 6 := rfl
@[simp] theorem w_BEAT_STATUS_STATE_B : BEAT_STATUS.STATE_B.w = 2 := rfl
@[simp] theorem reg_BEAT_STATUS_MISMATCH_A : BEAT_STATUS.MISMATCH_A.reg = .BEAT_STATUS := rfl
@[simp] theorem lo_BEAT_STATUS_MISMATCH_A : BEAT_STATUS.MISMATCH_A.lo = 8 := rfl
@[simp] theorem w_BEAT_STATUS_MISMATCH_A : BEAT_STATUS.MISMATCH_A.w = 1 := rfl
@[simp] theorem reg_BEAT_STATUS_MISMATCH_B : BEAT_STATUS.MISMATCH_B.reg = .BEAT_STATUS := rfl
@[simp] theorem lo_BEAT_STATUS_MISMATCH_B : BEAT_STATUS.MISMATCH_B.lo = 9 := rfl
@[simp] theorem w_BEAT_STATUS_MISMATCH_B : BEAT_STATUS.MISMATCH_B.w = 1 := rfl
@[simp] theorem reg_BEAT_STATUS_SWLOAD_LOST : BEAT_STATUS.SWLOAD_LOST.reg = .BEAT_STATUS := rfl
@[simp] theorem lo_BEAT_STATUS_SWLOAD_LOST : BEAT_STATUS.SWLOAD_LOST.lo = 10 := rfl
@[simp] theorem w_BEAT_STATUS_SWLOAD_LOST : BEAT_STATUS.SWLOAD_LOST.w = 1 := rfl
@[simp] theorem reg_BEAT_STATUS_EVT_A : BEAT_STATUS.EVT_A.reg = .BEAT_STATUS := rfl
@[simp] theorem lo_BEAT_STATUS_EVT_A : BEAT_STATUS.EVT_A.lo = 32 := rfl
@[simp] theorem w_BEAT_STATUS_EVT_A : BEAT_STATUS.EVT_A.w = 1 := rfl
@[simp] theorem reg_BEAT_STATUS_EVT_B : BEAT_STATUS.EVT_B.reg = .BEAT_STATUS := rfl
@[simp] theorem lo_BEAT_STATUS_EVT_B : BEAT_STATUS.EVT_B.lo = 33 := rfl
@[simp] theorem w_BEAT_STATUS_EVT_B : BEAT_STATUS.EVT_B.w = 1 := rfl
@[simp] theorem reg_BEAT_STATUS_EVT_SWITCH : BEAT_STATUS.EVT_SWITCH.reg = .BEAT_STATUS := rfl
@[simp] theorem lo_BEAT_STATUS_EVT_SWITCH : BEAT_STATUS.EVT_SWITCH.lo = 34 := rfl
@[simp] theorem w_BEAT_STATUS_EVT_SWITCH : BEAT_STATUS.EVT_SWITCH.w = 1 := rfl
@[simp] theorem reg_BEAT_STATUS_EVT_HOLD : BEAT_STATUS.EVT_HOLD.reg = .BEAT_STATUS := rfl
@[simp] theorem lo_BEAT_STATUS_EVT_HOLD : BEAT_STATUS.EVT_HOLD.lo = 35 := rfl
@[simp] theorem w_BEAT_STATUS_EVT_HOLD : BEAT_STATUS.EVT_HOLD.w = 1 := rfl
@[simp] theorem reg_BEAT_STATUS_EVT_EXPIRED : BEAT_STATUS.EVT_EXPIRED.reg = .BEAT_STATUS := rfl
@[simp] theorem lo_BEAT_STATUS_EVT_EXPIRED : BEAT_STATUS.EVT_EXPIRED.lo = 36 := rfl
@[simp] theorem w_BEAT_STATUS_EVT_EXPIRED : BEAT_STATUS.EVT_EXPIRED.w = 1 := rfl
@[simp] theorem reg_BEAT_STATUS_EVT_MISMATCH : BEAT_STATUS.EVT_MISMATCH.reg = .BEAT_STATUS := rfl
@[simp] theorem lo_BEAT_STATUS_EVT_MISMATCH : BEAT_STATUS.EVT_MISMATCH.lo = 37 := rfl
@[simp] theorem w_BEAT_STATUS_EVT_MISMATCH : BEAT_STATUS.EVT_MISMATCH.w = 1 := rfl
@[simp] theorem reg_BEAT_STATUS_EVT_LATE : BEAT_STATUS.EVT_LATE.reg = .BEAT_STATUS := rfl
@[simp] theorem lo_BEAT_STATUS_EVT_LATE : BEAT_STATUS.EVT_LATE.lo = 38 := rfl
@[simp] theorem w_BEAT_STATUS_EVT_LATE : BEAT_STATUS.EVT_LATE.w = 1 := rfl
@[simp] theorem reg_BEAT_STATUS_EVT_CMD : BEAT_STATUS.EVT_CMD.reg = .BEAT_STATUS := rfl
@[simp] theorem lo_BEAT_STATUS_EVT_CMD : BEAT_STATUS.EVT_CMD.lo = 39 := rfl
@[simp] theorem w_BEAT_STATUS_EVT_CMD : BEAT_STATUS.EVT_CMD.w = 1 := rfl
@[simp] theorem reg_BEAT_COUNT_COUNT : BEAT_COUNT.COUNT.reg = .BEAT_COUNT := rfl
@[simp] theorem lo_BEAT_COUNT_COUNT : BEAT_COUNT.COUNT.lo = 0 := rfl
@[simp] theorem w_BEAT_COUNT_COUNT : BEAT_COUNT.COUNT.w = 64 := rfl
@[simp] theorem reg_BEAT_FINE_FINE : BEAT_FINE.FINE.reg = .BEAT_FINE := rfl
@[simp] theorem lo_BEAT_FINE_FINE : BEAT_FINE.FINE.lo = 0 := rfl
@[simp] theorem w_BEAT_FINE_FINE : BEAT_FINE.FINE.w = 16 := rfl
@[simp] theorem reg_BEAT_LOAD_VALUE : BEAT_LOAD.VALUE.reg = .BEAT_LOAD := rfl
@[simp] theorem lo_BEAT_LOAD_VALUE : BEAT_LOAD.VALUE.lo = 0 := rfl
@[simp] theorem w_BEAT_LOAD_VALUE : BEAT_LOAD.VALUE.w = 64 := rfl
@[simp] theorem reg_BEAT_MON_FREQ_A : BEAT_MON.FREQ_A.reg = .BEAT_MON := rfl
@[simp] theorem lo_BEAT_MON_FREQ_A : BEAT_MON.FREQ_A.lo = 0 := rfl
@[simp] theorem w_BEAT_MON_FREQ_A : BEAT_MON.FREQ_A.w = 16 := rfl
@[simp] theorem reg_BEAT_MON_FREQ_B : BEAT_MON.FREQ_B.reg = .BEAT_MON := rfl
@[simp] theorem lo_BEAT_MON_FREQ_B : BEAT_MON.FREQ_B.lo = 16 := rfl
@[simp] theorem w_BEAT_MON_FREQ_B : BEAT_MON.FREQ_B.w = 16 := rfl
@[simp] theorem reg_BEAT_MON_AB_PHASE : BEAT_MON.AB_PHASE.reg = .BEAT_MON := rfl
@[simp] theorem lo_BEAT_MON_AB_PHASE : BEAT_MON.AB_PHASE.lo = 32 := rfl
@[simp] theorem w_BEAT_MON_AB_PHASE : BEAT_MON.AB_PHASE.w = 16 := rfl
@[simp] theorem reg_BEAT_SKEW_SKEW_A : BEAT_SKEW.SKEW_A.reg = .BEAT_SKEW := rfl
@[simp] theorem lo_BEAT_SKEW_SKEW_A : BEAT_SKEW.SKEW_A.lo = 0 := rfl
@[simp] theorem w_BEAT_SKEW_SKEW_A : BEAT_SKEW.SKEW_A.w = 16 := rfl
@[simp] theorem reg_BEAT_SKEW_SKEW_B : BEAT_SKEW.SKEW_B.reg = .BEAT_SKEW := rfl
@[simp] theorem lo_BEAT_SKEW_SKEW_B : BEAT_SKEW.SKEW_B.lo = 16 := rfl
@[simp] theorem w_BEAT_SKEW_SKEW_B : BEAT_SKEW.SKEW_B.w = 16 := rfl
@[simp] theorem reg_BEAT_CNT_A_CODE_ERR : BEAT_CNT_A.CODE_ERR.reg = .BEAT_CNT_A := rfl
@[simp] theorem lo_BEAT_CNT_A_CODE_ERR : BEAT_CNT_A.CODE_ERR.lo = 0 := rfl
@[simp] theorem w_BEAT_CNT_A_CODE_ERR : BEAT_CNT_A.CODE_ERR.w = 16 := rfl
@[simp] theorem reg_BEAT_CNT_A_CRC_ERR : BEAT_CNT_A.CRC_ERR.reg = .BEAT_CNT_A := rfl
@[simp] theorem lo_BEAT_CNT_A_CRC_ERR : BEAT_CNT_A.CRC_ERR.lo = 16 := rfl
@[simp] theorem w_BEAT_CNT_A_CRC_ERR : BEAT_CNT_A.CRC_ERR.w = 16 := rfl
@[simp] theorem reg_BEAT_CNT_A_TAG_MISMATCH : BEAT_CNT_A.TAG_MISMATCH.reg = .BEAT_CNT_A := rfl
@[simp] theorem lo_BEAT_CNT_A_TAG_MISMATCH : BEAT_CNT_A.TAG_MISMATCH.lo = 32 := rfl
@[simp] theorem w_BEAT_CNT_A_TAG_MISMATCH : BEAT_CNT_A.TAG_MISMATCH.w = 16 := rfl
@[simp] theorem reg_BEAT_CNT_A_UNKNOWN_TYPE : BEAT_CNT_A.UNKNOWN_TYPE.reg = .BEAT_CNT_A := rfl
@[simp] theorem lo_BEAT_CNT_A_UNKNOWN_TYPE : BEAT_CNT_A.UNKNOWN_TYPE.lo = 48 := rfl
@[simp] theorem w_BEAT_CNT_A_UNKNOWN_TYPE : BEAT_CNT_A.UNKNOWN_TYPE.w = 16 := rfl
@[simp] theorem reg_BEAT_SYNC_LAST_CODE : BEAT_SYNC_LAST.CODE.reg = .BEAT_SYNC_LAST := rfl
@[simp] theorem lo_BEAT_SYNC_LAST_CODE : BEAT_SYNC_LAST.CODE.lo = 0 := rfl
@[simp] theorem w_BEAT_SYNC_LAST_CODE : BEAT_SYNC_LAST.CODE.w = 16 := rfl
@[simp] theorem reg_BEAT_SYNC_LAST_BEAT : BEAT_SYNC_LAST.BEAT.reg = .BEAT_SYNC_LAST := rfl
@[simp] theorem lo_BEAT_SYNC_LAST_BEAT : BEAT_SYNC_LAST.BEAT.lo = 16 := rfl
@[simp] theorem w_BEAT_SYNC_LAST_BEAT : BEAT_SYNC_LAST.BEAT.w = 48 := rfl
@[simp] theorem reg_BEAT_RQ_CFG_LAT : BEAT_RQ_CFG.LAT.reg = .BEAT_RQ_CFG := rfl
@[simp] theorem lo_BEAT_RQ_CFG_LAT : BEAT_RQ_CFG.LAT.lo = 0 := rfl
@[simp] theorem w_BEAT_RQ_CFG_LAT : BEAT_RQ_CFG.LAT.w = 13 := rfl
@[simp] theorem reg_BEAT_RQ_CFG_LATE_ACCEPT : BEAT_RQ_CFG.LATE_ACCEPT.reg = .BEAT_RQ_CFG := rfl
@[simp] theorem lo_BEAT_RQ_CFG_LATE_ACCEPT : BEAT_RQ_CFG.LATE_ACCEPT.lo = 16 := rfl
@[simp] theorem w_BEAT_RQ_CFG_LATE_ACCEPT : BEAT_RQ_CFG.LATE_ACCEPT.w = 1 := rfl
@[simp] theorem reg_BEAT_RQ_CFG_LATE_TTYPE : BEAT_RQ_CFG.LATE_TTYPE.reg = .BEAT_RQ_CFG := rfl
@[simp] theorem lo_BEAT_RQ_CFG_LATE_TTYPE : BEAT_RQ_CFG.LATE_TTYPE.lo = 20 := rfl
@[simp] theorem w_BEAT_RQ_CFG_LATE_TTYPE : BEAT_RQ_CFG.LATE_TTYPE.w = 4 := rfl
@[simp] theorem reg_BEAT_RQ_CFG_LATE_TRIG : BEAT_RQ_CFG.LATE_TRIG.reg = .BEAT_RQ_CFG := rfl
@[simp] theorem lo_BEAT_RQ_CFG_LATE_TRIG : BEAT_RQ_CFG.LATE_TRIG.lo = 24 := rfl
@[simp] theorem w_BEAT_RQ_CFG_LATE_TRIG : BEAT_RQ_CFG.LATE_TRIG.w = 8 := rfl
@[simp] theorem reg_BEAT_RQ_CFG_RUN : BEAT_RQ_CFG.RUN.reg = .BEAT_RQ_CFG := rfl
@[simp] theorem lo_BEAT_RQ_CFG_RUN : BEAT_RQ_CFG.RUN.lo = 32 := rfl
@[simp] theorem w_BEAT_RQ_CFG_RUN : BEAT_RQ_CFG.RUN.w = 1 := rfl
@[simp] theorem reg_BEAT_RQ_CNT_LATE : BEAT_RQ_CNT.LATE.reg = .BEAT_RQ_CNT := rfl
@[simp] theorem lo_BEAT_RQ_CNT_LATE : BEAT_RQ_CNT.LATE.lo = 0 := rfl
@[simp] theorem w_BEAT_RQ_CNT_LATE : BEAT_RQ_CNT.LATE.w = 32 := rfl
@[simp] theorem reg_BEAT_RQ_CNT_DISCARDED : BEAT_RQ_CNT.DISCARDED.reg = .BEAT_RQ_CNT := rfl
@[simp] theorem lo_BEAT_RQ_CNT_DISCARDED : BEAT_RQ_CNT.DISCARDED.lo = 32 := rfl
@[simp] theorem w_BEAT_RQ_CNT_DISCARDED : BEAT_RQ_CNT.DISCARDED.w = 16 := rfl
@[simp] theorem reg_BEAT_RQ_CNT_GAPS : BEAT_RQ_CNT.GAPS.reg = .BEAT_RQ_CNT := rfl
@[simp] theorem lo_BEAT_RQ_CNT_GAPS : BEAT_RQ_CNT.GAPS.lo = 48 := rfl
@[simp] theorem w_BEAT_RQ_CNT_GAPS : BEAT_RQ_CNT.GAPS.w = 16 := rfl
@[simp] theorem reg_BEAT_RQ_ACC_ACCEPTS : BEAT_RQ_ACC.ACCEPTS.reg = .BEAT_RQ_ACC := rfl
@[simp] theorem lo_BEAT_RQ_ACC_ACCEPTS : BEAT_RQ_ACC.ACCEPTS.lo = 0 := rfl
@[simp] theorem w_BEAT_RQ_ACC_ACCEPTS : BEAT_RQ_ACC.ACCEPTS.w = 64 := rfl
@[simp] theorem reg_BEAT_RQ_SLACK_MIN_SLACK : BEAT_RQ_SLACK.MIN_SLACK.reg = .BEAT_RQ_SLACK := rfl
@[simp] theorem lo_BEAT_RQ_SLACK_MIN_SLACK : BEAT_RQ_SLACK.MIN_SLACK.lo = 0 := rfl
@[simp] theorem w_BEAT_RQ_SLACK_MIN_SLACK : BEAT_RQ_SLACK.MIN_SLACK.w = 24 := rfl
@[simp] theorem reg_BEAT_OUT_CTL_EN : BEAT_OUT_CTL.EN.reg = .BEAT_OUT_CTL := rfl
@[simp] theorem lo_BEAT_OUT_CTL_EN : BEAT_OUT_CTL.EN.lo = 0 := rfl
@[simp] theorem w_BEAT_OUT_CTL_EN : BEAT_OUT_CTL.EN.w = 1 := rfl
@[simp] theorem reg_BEAT_OUT_CTL_DIV : BEAT_OUT_CTL.DIV.reg = .BEAT_OUT_CTL := rfl
@[simp] theorem lo_BEAT_OUT_CTL_DIV : BEAT_OUT_CTL.DIV.lo = 1 := rfl
@[simp] theorem w_BEAT_OUT_CTL_DIV : BEAT_OUT_CTL.DIV.w = 3 := rfl
@[simp] theorem reg_BEAT_OUT_CTL_PHASE : BEAT_OUT_CTL.PHASE.reg = .BEAT_OUT_CTL := rfl
@[simp] theorem lo_BEAT_OUT_CTL_PHASE : BEAT_OUT_CTL.PHASE.lo = 8 := rfl
@[simp] theorem w_BEAT_OUT_CTL_PHASE : BEAT_OUT_CTL.PHASE.w = 8 := rfl
@[simp] theorem reg_BEAT_CNT_B_CODE_ERR : BEAT_CNT_B.CODE_ERR.reg = .BEAT_CNT_B := rfl
@[simp] theorem lo_BEAT_CNT_B_CODE_ERR : BEAT_CNT_B.CODE_ERR.lo = 0 := rfl
@[simp] theorem w_BEAT_CNT_B_CODE_ERR : BEAT_CNT_B.CODE_ERR.w = 16 := rfl
@[simp] theorem reg_BEAT_CNT_B_CRC_ERR : BEAT_CNT_B.CRC_ERR.reg = .BEAT_CNT_B := rfl
@[simp] theorem lo_BEAT_CNT_B_CRC_ERR : BEAT_CNT_B.CRC_ERR.lo = 16 := rfl
@[simp] theorem w_BEAT_CNT_B_CRC_ERR : BEAT_CNT_B.CRC_ERR.w = 16 := rfl
@[simp] theorem reg_BEAT_CNT_B_TAG_MISMATCH : BEAT_CNT_B.TAG_MISMATCH.reg = .BEAT_CNT_B := rfl
@[simp] theorem lo_BEAT_CNT_B_TAG_MISMATCH : BEAT_CNT_B.TAG_MISMATCH.lo = 32 := rfl
@[simp] theorem w_BEAT_CNT_B_TAG_MISMATCH : BEAT_CNT_B.TAG_MISMATCH.w = 16 := rfl
@[simp] theorem reg_BEAT_CNT_B_UNKNOWN_TYPE : BEAT_CNT_B.UNKNOWN_TYPE.reg = .BEAT_CNT_B := rfl
@[simp] theorem lo_BEAT_CNT_B_UNKNOWN_TYPE : BEAT_CNT_B.UNKNOWN_TYPE.lo = 48 := rfl
@[simp] theorem w_BEAT_CNT_B_UNKNOWN_TYPE : BEAT_CNT_B.UNKNOWN_TYPE.w = 16 := rfl
@[simp] theorem reg_BEAT_CAL_LAST_CODE : BEAT_CAL_LAST.CODE.reg = .BEAT_CAL_LAST := rfl
@[simp] theorem lo_BEAT_CAL_LAST_CODE : BEAT_CAL_LAST.CODE.lo = 0 := rfl
@[simp] theorem w_BEAT_CAL_LAST_CODE : BEAT_CAL_LAST.CODE.w = 16 := rfl
@[simp] theorem reg_BEAT_CAL_LAST_BEAT : BEAT_CAL_LAST.BEAT.reg = .BEAT_CAL_LAST := rfl
@[simp] theorem lo_BEAT_CAL_LAST_BEAT : BEAT_CAL_LAST.BEAT.lo = 16 := rfl
@[simp] theorem w_BEAT_CAL_LAST_BEAT : BEAT_CAL_LAST.BEAT.w = 48 := rfl
@[simp] theorem reg_HLN_GRP_CFG_RATE : HLN_GRP_CFG.RATE.reg = .HLN_GRP_CFG := rfl
@[simp] theorem lo_HLN_GRP_CFG_RATE : HLN_GRP_CFG.RATE.lo = 0 := rfl
@[simp] theorem w_HLN_GRP_CFG_RATE : HLN_GRP_CFG.RATE.w = 3 := rfl
@[simp] theorem reg_HLN_GRP_STATUS_PLL_LOCK : HLN_GRP_STATUS.PLL_LOCK.reg = .HLN_GRP_STATUS := rfl
@[simp] theorem lo_HLN_GRP_STATUS_PLL_LOCK : HLN_GRP_STATUS.PLL_LOCK.lo = 0 := rfl
@[simp] theorem w_HLN_GRP_STATUS_PLL_LOCK : HLN_GRP_STATUS.PLL_LOCK.w = 1 := rfl
@[simp] theorem reg_HLN_GRP_STATUS_RATE_REFUSED : HLN_GRP_STATUS.RATE_REFUSED.reg = .HLN_GRP_STATUS := rfl
@[simp] theorem lo_HLN_GRP_STATUS_RATE_REFUSED : HLN_GRP_STATUS.RATE_REFUSED.lo = 1 := rfl
@[simp] theorem w_HLN_GRP_STATUS_RATE_REFUSED : HLN_GRP_STATUS.RATE_REFUSED.w = 1 := rfl
@[simp] theorem reg_HLN_GRP_STATUS_CUR_RATE : HLN_GRP_STATUS.CUR_RATE.reg = .HLN_GRP_STATUS := rfl
@[simp] theorem lo_HLN_GRP_STATUS_CUR_RATE : HLN_GRP_STATUS.CUR_RATE.lo = 4 := rfl
@[simp] theorem w_HLN_GRP_STATUS_CUR_RATE : HLN_GRP_STATUS.CUR_RATE.w = 3 := rfl
@[simp] theorem reg_LANE_CFG_RX_EN : LANE_CFG.RX_EN.reg = .LANE_CFG := rfl
@[simp] theorem lo_LANE_CFG_RX_EN : LANE_CFG.RX_EN.lo = 0 := rfl
@[simp] theorem w_LANE_CFG_RX_EN : LANE_CFG.RX_EN.w = 1 := rfl
@[simp] theorem reg_LANE_CFG_TX_EN : LANE_CFG.TX_EN.reg = .LANE_CFG := rfl
@[simp] theorem lo_LANE_CFG_TX_EN : LANE_CFG.TX_EN.lo = 1 := rfl
@[simp] theorem w_LANE_CFG_TX_EN : LANE_CFG.TX_EN.w = 1 := rfl
@[simp] theorem reg_LANE_CFG_RX_INV : LANE_CFG.RX_INV.reg = .LANE_CFG := rfl
@[simp] theorem lo_LANE_CFG_RX_INV : LANE_CFG.RX_INV.lo = 2 := rfl
@[simp] theorem w_LANE_CFG_RX_INV : LANE_CFG.RX_INV.w = 1 := rfl
@[simp] theorem reg_LANE_CFG_TX_INV : LANE_CFG.TX_INV.reg = .LANE_CFG := rfl
@[simp] theorem lo_LANE_CFG_TX_INV : LANE_CFG.TX_INV.lo = 3 := rfl
@[simp] theorem w_LANE_CFG_TX_INV : LANE_CFG.TX_INV.w = 1 := rfl
@[simp] theorem reg_LANE_CFG_SYNC_FRAMES : LANE_CFG.SYNC_FRAMES.reg = .LANE_CFG := rfl
@[simp] theorem lo_LANE_CFG_SYNC_FRAMES : LANE_CFG.SYNC_FRAMES.lo = 4 := rfl
@[simp] theorem w_LANE_CFG_SYNC_FRAMES : LANE_CFG.SYNC_FRAMES.w = 4 := rfl
@[simp] theorem reg_LANE_CFG_EXPECT_ID : LANE_CFG.EXPECT_ID.reg = .LANE_CFG := rfl
@[simp] theorem lo_LANE_CFG_EXPECT_ID : LANE_CFG.EXPECT_ID.lo = 8 := rfl
@[simp] theorem w_LANE_CFG_EXPECT_ID : LANE_CFG.EXPECT_ID.w = 8 := rfl
@[simp] theorem reg_LANE_CFG_MAXWORDS : LANE_CFG.MAXWORDS.reg = .LANE_CFG := rfl
@[simp] theorem lo_LANE_CFG_MAXWORDS : LANE_CFG.MAXWORDS.lo = 16 := rfl
@[simp] theorem w_LANE_CFG_MAXWORDS : LANE_CFG.MAXWORDS.w = 12 := rfl
@[simp] theorem reg_LANE_CFG_MAX_AGE : LANE_CFG.MAX_AGE.reg = .LANE_CFG := rfl
@[simp] theorem lo_LANE_CFG_MAX_AGE : LANE_CFG.MAX_AGE.lo = 32 := rfl
@[simp] theorem w_LANE_CFG_MAX_AGE : LANE_CFG.MAX_AGE.w = 16 := rfl
@[simp] theorem reg_LANE_CFG_ACC_EN : LANE_CFG.ACC_EN.reg = .LANE_CFG := rfl
@[simp] theorem lo_LANE_CFG_ACC_EN : LANE_CFG.ACC_EN.lo = 48 := rfl
@[simp] theorem w_LANE_CFG_ACC_EN : LANE_CFG.ACC_EN.w = 1 := rfl
@[simp] theorem reg_LANE_CFG_CMD_EN : LANE_CFG.CMD_EN.reg = .LANE_CFG := rfl
@[simp] theorem lo_LANE_CFG_CMD_EN : LANE_CFG.CMD_EN.lo = 49 := rfl
@[simp] theorem w_LANE_CFG_CMD_EN : LANE_CFG.CMD_EN.w = 1 := rfl
@[simp] theorem reg_LANE_CFG_TICKDIV : LANE_CFG.TICKDIV.reg = .LANE_CFG := rfl
@[simp] theorem lo_LANE_CFG_TICKDIV : LANE_CFG.TICKDIV.lo = 50 := rfl
@[simp] theorem w_LANE_CFG_TICKDIV : LANE_CFG.TICKDIV.w = 3 := rfl
@[simp] theorem reg_LANE_CFG_TICK_EN : LANE_CFG.TICK_EN.reg = .LANE_CFG := rfl
@[simp] theorem lo_LANE_CFG_TICK_EN : LANE_CFG.TICK_EN.lo = 53 := rfl
@[simp] theorem w_LANE_CFG_TICK_EN : LANE_CFG.TICK_EN.w = 1 := rfl
@[simp] theorem reg_LANE_CTL_CNT_CLR : LANE_CTL.CNT_CLR.reg = .LANE_CTL := rfl
@[simp] theorem lo_LANE_CTL_CNT_CLR : LANE_CTL.CNT_CLR.lo = 0 := rfl
@[simp] theorem w_LANE_CTL_CNT_CLR : LANE_CTL.CNT_CLR.w = 1 := rfl
@[simp] theorem reg_LANE_CTL_RESYNC : LANE_CTL.RESYNC.reg = .LANE_CTL := rfl
@[simp] theorem lo_LANE_CTL_RESYNC : LANE_CTL.RESYNC.lo = 1 := rfl
@[simp] theorem w_LANE_CTL_RESYNC : LANE_CTL.RESYNC.w = 1 := rfl
@[simp] theorem reg_LANE_STATUS_STATE : LANE_STATUS.STATE.reg = .LANE_STATUS := rfl
@[simp] theorem lo_LANE_STATUS_STATE : LANE_STATUS.STATE.lo = 0 := rfl
@[simp] theorem w_LANE_STATUS_STATE : LANE_STATUS.STATE.w = 3 := rfl
@[simp] theorem reg_LANE_STATUS_SIGNAL : LANE_STATUS.SIGNAL.reg = .LANE_STATUS := rfl
@[simp] theorem lo_LANE_STATUS_SIGNAL : LANE_STATUS.SIGNAL.lo = 3 := rfl
@[simp] theorem w_LANE_STATUS_SIGNAL : LANE_STATUS.SIGNAL.w = 1 := rfl
@[simp] theorem reg_LANE_STATUS_SEQ_EXP : LANE_STATUS.SEQ_EXP.reg = .LANE_STATUS := rfl
@[simp] theorem lo_LANE_STATUS_SEQ_EXP : LANE_STATUS.SEQ_EXP.lo = 16 := rfl
@[simp] theorem w_LANE_STATUS_SEQ_EXP : LANE_STATUS.SEQ_EXP.w = 16 := rfl
@[simp] theorem reg_LANE_STATUS_EVT_STATE : LANE_STATUS.EVT_STATE.reg = .LANE_STATUS := rfl
@[simp] theorem lo_LANE_STATUS_EVT_STATE : LANE_STATUS.EVT_STATE.lo = 32 := rfl
@[simp] theorem w_LANE_STATUS_EVT_STATE : LANE_STATUS.EVT_STATE.w = 1 := rfl
@[simp] theorem reg_LANE_STATUS_EVT_SYNC_LOSS : LANE_STATUS.EVT_SYNC_LOSS.reg = .LANE_STATUS := rfl
@[simp] theorem lo_LANE_STATUS_EVT_SYNC_LOSS : LANE_STATUS.EVT_SYNC_LOSS.lo = 33 := rfl
@[simp] theorem w_LANE_STATUS_EVT_SYNC_LOSS : LANE_STATUS.EVT_SYNC_LOSS.w = 1 := rfl
@[simp] theorem reg_LANE_STATUS_EVT_ID : LANE_STATUS.EVT_ID.reg = .LANE_STATUS := rfl
@[simp] theorem lo_LANE_STATUS_EVT_ID : LANE_STATUS.EVT_ID.lo = 34 := rfl
@[simp] theorem w_LANE_STATUS_EVT_ID : LANE_STATUS.EVT_ID.w = 1 := rfl
@[simp] theorem reg_LANE_STATUS_EVT_GAP : LANE_STATUS.EVT_GAP.reg = .LANE_STATUS := rfl
@[simp] theorem lo_LANE_STATUS_EVT_GAP : LANE_STATUS.EVT_GAP.lo = 35 := rfl
@[simp] theorem w_LANE_STATUS_EVT_GAP : LANE_STATUS.EVT_GAP.w = 1 := rfl
@[simp] theorem reg_LANE_STATUS_EVT_HIST_OVF : LANE_STATUS.EVT_HIST_OVF.reg = .LANE_STATUS := rfl
@[simp] theorem lo_LANE_STATUS_EVT_HIST_OVF : LANE_STATUS.EVT_HIST_OVF.lo = 36 := rfl
@[simp] theorem w_LANE_STATUS_EVT_HIST_OVF : LANE_STATUS.EVT_HIST_OVF.w = 1 := rfl
@[simp] theorem reg_LANE_STATUS_EVT_SC_RX : LANE_STATUS.EVT_SC_RX.reg = .LANE_STATUS := rfl
@[simp] theorem lo_LANE_STATUS_EVT_SC_RX : LANE_STATUS.EVT_SC_RX.lo = 37 := rfl
@[simp] theorem w_LANE_STATUS_EVT_SC_RX : LANE_STATUS.EVT_SC_RX.w = 1 := rfl
@[simp] theorem reg_LANE_STATUS_EVT_SC_DONE : LANE_STATUS.EVT_SC_DONE.reg = .LANE_STATUS := rfl
@[simp] theorem lo_LANE_STATUS_EVT_SC_DONE : LANE_STATUS.EVT_SC_DONE.lo = 38 := rfl
@[simp] theorem w_LANE_STATUS_EVT_SC_DONE : LANE_STATUS.EVT_SC_DONE.w = 1 := rfl
@[simp] theorem reg_LANE_WM_CLOSED : LANE_WM.CLOSED.reg = .LANE_WM := rfl
@[simp] theorem lo_LANE_WM_CLOSED : LANE_WM.CLOSED.lo = 0 := rfl
@[simp] theorem w_LANE_WM_CLOSED : LANE_WM.CLOSED.w = 64 := rfl
@[simp] theorem reg_LANE_SC_CTL_LEN : LANE_SC_CTL.LEN.reg = .LANE_SC_CTL := rfl
@[simp] theorem lo_LANE_SC_CTL_LEN : LANE_SC_CTL.LEN.lo = 0 := rfl
@[simp] theorem w_LANE_SC_CTL_LEN : LANE_SC_CTL.LEN.w = 8 := rfl
@[simp] theorem reg_LANE_SC_CTL_TAG : LANE_SC_CTL.TAG.reg = .LANE_SC_CTL := rfl
@[simp] theorem lo_LANE_SC_CTL_TAG : LANE_SC_CTL.TAG.lo = 16 := rfl
@[simp] theorem w_LANE_SC_CTL_TAG : LANE_SC_CTL.TAG.w = 16 := rfl
@[simp] theorem reg_LANE_SC_CTL_GO : LANE_SC_CTL.GO.reg = .LANE_SC_CTL := rfl
@[simp] theorem lo_LANE_SC_CTL_GO : LANE_SC_CTL.GO.lo = 32 := rfl
@[simp] theorem w_LANE_SC_CTL_GO : LANE_SC_CTL.GO.w = 1 := rfl
@[simp] theorem reg_LANE_SC_STATUS_TX_BUSY : LANE_SC_STATUS.TX_BUSY.reg = .LANE_SC_STATUS := rfl
@[simp] theorem lo_LANE_SC_STATUS_TX_BUSY : LANE_SC_STATUS.TX_BUSY.lo = 0 := rfl
@[simp] theorem w_LANE_SC_STATUS_TX_BUSY : LANE_SC_STATUS.TX_BUSY.w = 1 := rfl
@[simp] theorem reg_LANE_SC_STATUS_RXFULL : LANE_SC_STATUS.RXFULL.reg = .LANE_SC_STATUS := rfl
@[simp] theorem lo_LANE_SC_STATUS_RXFULL : LANE_SC_STATUS.RXFULL.lo = 1 := rfl
@[simp] theorem w_LANE_SC_STATUS_RXFULL : LANE_SC_STATUS.RXFULL.w = 1 := rfl
@[simp] theorem reg_LANE_SC_STATUS_RX_LEN : LANE_SC_STATUS.RX_LEN.reg = .LANE_SC_STATUS := rfl
@[simp] theorem lo_LANE_SC_STATUS_RX_LEN : LANE_SC_STATUS.RX_LEN.lo = 8 := rfl
@[simp] theorem w_LANE_SC_STATUS_RX_LEN : LANE_SC_STATUS.RX_LEN.w = 8 := rfl
@[simp] theorem reg_LANE_SC_STATUS_RX_TAG : LANE_SC_STATUS.RX_TAG.reg = .LANE_SC_STATUS := rfl
@[simp] theorem lo_LANE_SC_STATUS_RX_TAG : LANE_SC_STATUS.RX_TAG.lo = 16 := rfl
@[simp] theorem w_LANE_SC_STATUS_RX_TAG : LANE_SC_STATUS.RX_TAG.w = 16 := rfl
@[simp] theorem reg_LANE_CNT0_FRAMES_OK : LANE_CNT0.FRAMES_OK.reg = .LANE_CNT0 := rfl
@[simp] theorem lo_LANE_CNT0_FRAMES_OK : LANE_CNT0.FRAMES_OK.lo = 0 := rfl
@[simp] theorem w_LANE_CNT0_FRAMES_OK : LANE_CNT0.FRAMES_OK.w = 32 := rfl
@[simp] theorem reg_LANE_CNT0_CRC_ERR : LANE_CNT0.CRC_ERR.reg = .LANE_CNT0 := rfl
@[simp] theorem lo_LANE_CNT0_CRC_ERR : LANE_CNT0.CRC_ERR.lo = 32 := rfl
@[simp] theorem w_LANE_CNT0_CRC_ERR : LANE_CNT0.CRC_ERR.w = 32 := rfl
@[simp] theorem reg_LANE_CNT1_LEN_ERR : LANE_CNT1.LEN_ERR.reg = .LANE_CNT1 := rfl
@[simp] theorem lo_LANE_CNT1_LEN_ERR : LANE_CNT1.LEN_ERR.lo = 0 := rfl
@[simp] theorem w_LANE_CNT1_LEN_ERR : LANE_CNT1.LEN_ERR.w = 16 := rfl
@[simp] theorem reg_LANE_CNT1_ID_ERR : LANE_CNT1.ID_ERR.reg = .LANE_CNT1 := rfl
@[simp] theorem lo_LANE_CNT1_ID_ERR : LANE_CNT1.ID_ERR.lo = 16 := rfl
@[simp] theorem w_LANE_CNT1_ID_ERR : LANE_CNT1.ID_ERR.w = 16 := rfl
@[simp] theorem reg_LANE_CNT1_TYPE_ERR : LANE_CNT1.TYPE_ERR.reg = .LANE_CNT1 := rfl
@[simp] theorem lo_LANE_CNT1_TYPE_ERR : LANE_CNT1.TYPE_ERR.lo = 32 := rfl
@[simp] theorem w_LANE_CNT1_TYPE_ERR : LANE_CNT1.TYPE_ERR.w = 16 := rfl
@[simp] theorem reg_LANE_CNT1_TIME_ERR : LANE_CNT1.TIME_ERR.reg = .LANE_CNT1 := rfl
@[simp] theorem lo_LANE_CNT1_TIME_ERR : LANE_CNT1.TIME_ERR.lo = 48 := rfl
@[simp] theorem w_LANE_CNT1_TIME_ERR : LANE_CNT1.TIME_ERR.w = 16 := rfl
@[simp] theorem reg_LANE_CNT2_SEQ_LOST : LANE_CNT2.SEQ_LOST.reg = .LANE_CNT2 := rfl
@[simp] theorem lo_LANE_CNT2_SEQ_LOST : LANE_CNT2.SEQ_LOST.lo = 0 := rfl
@[simp] theorem w_LANE_CNT2_SEQ_LOST : LANE_CNT2.SEQ_LOST.w = 32 := rfl
@[simp] theorem reg_LANE_CNT2_SEQ_DUP : LANE_CNT2.SEQ_DUP.reg = .LANE_CNT2 := rfl
@[simp] theorem lo_LANE_CNT2_SEQ_DUP : LANE_CNT2.SEQ_DUP.lo = 32 := rfl
@[simp] theorem w_LANE_CNT2_SEQ_DUP : LANE_CNT2.SEQ_DUP.w = 16 := rfl
@[simp] theorem reg_LANE_CNT2_NOT_SYNC : LANE_CNT2.NOT_SYNC.reg = .LANE_CNT2 := rfl
@[simp] theorem lo_LANE_CNT2_NOT_SYNC : LANE_CNT2.NOT_SYNC.lo = 48 := rfl
@[simp] theorem w_LANE_CNT2_NOT_SYNC : LANE_CNT2.NOT_SYNC.w = 16 := rfl
@[simp] theorem reg_LANE_CNT3_BEAT_GAP : LANE_CNT3.BEAT_GAP.reg = .LANE_CNT3 := rfl
@[simp] theorem lo_LANE_CNT3_BEAT_GAP : LANE_CNT3.BEAT_GAP.lo = 0 := rfl
@[simp] theorem w_LANE_CNT3_BEAT_GAP : LANE_CNT3.BEAT_GAP.w = 16 := rfl
@[simp] theorem reg_LANE_CNT3_OVERLAP : LANE_CNT3.OVERLAP.reg = .LANE_CNT3 := rfl
@[simp] theorem lo_LANE_CNT3_OVERLAP : LANE_CNT3.OVERLAP.lo = 16 := rfl
@[simp] theorem w_LANE_CNT3_OVERLAP : LANE_CNT3.OVERLAP.w = 16 := rfl
@[simp] theorem reg_LANE_CNT3_LATE : LANE_CNT3.LATE.reg = .LANE_CNT3 := rfl
@[simp] theorem lo_LANE_CNT3_LATE : LANE_CNT3.LATE.lo = 32 := rfl
@[simp] theorem w_LANE_CNT3_LATE : LANE_CNT3.LATE.w = 16 := rfl
@[simp] theorem reg_LANE_CNT3_LOCK_LOSS : LANE_CNT3.LOCK_LOSS.reg = .LANE_CNT3 := rfl
@[simp] theorem lo_LANE_CNT3_LOCK_LOSS : LANE_CNT3.LOCK_LOSS.lo = 48 := rfl
@[simp] theorem w_LANE_CNT3_LOCK_LOSS : LANE_CNT3.LOCK_LOSS.w = 16 := rfl
@[simp] theorem reg_LANE_CNT4_HDR_ERR : LANE_CNT4.HDR_ERR.reg = .LANE_CNT4 := rfl
@[simp] theorem lo_LANE_CNT4_HDR_ERR : LANE_CNT4.HDR_ERR.lo = 0 := rfl
@[simp] theorem w_LANE_CNT4_HDR_ERR : LANE_CNT4.HDR_ERR.w = 32 := rfl
@[simp] theorem reg_LANE_CNT4_CTRL_ERR : LANE_CNT4.CTRL_ERR.reg = .LANE_CNT4 := rfl
@[simp] theorem lo_LANE_CNT4_CTRL_ERR : LANE_CNT4.CTRL_ERR.lo = 32 := rfl
@[simp] theorem w_LANE_CNT4_CTRL_ERR : LANE_CNT4.CTRL_ERR.w = 16 := rfl
@[simp] theorem reg_LANE_CNT4_HIST_OVF : LANE_CNT4.HIST_OVF.reg = .LANE_CNT4 := rfl
@[simp] theorem lo_LANE_CNT4_HIST_OVF : LANE_CNT4.HIST_OVF.lo = 48 := rfl
@[simp] theorem w_LANE_CNT4_HIST_OVF : LANE_CNT4.HIST_OVF.w = 16 := rfl
@[simp] theorem reg_LANE_HITS_IN_HITS_IN : LANE_HITS_IN.HITS_IN.reg = .LANE_HITS_IN := rfl
@[simp] theorem lo_LANE_HITS_IN_HITS_IN : LANE_HITS_IN.HITS_IN.lo = 0 := rfl
@[simp] theorem w_LANE_HITS_IN_HITS_IN : LANE_HITS_IN.HITS_IN.w = 64 := rfl
@[simp] theorem reg_LANE_HITS_OUT_HITS_OUT : LANE_HITS_OUT.HITS_OUT.reg = .LANE_HITS_OUT := rfl
@[simp] theorem lo_LANE_HITS_OUT_HITS_OUT : LANE_HITS_OUT.HITS_OUT.lo = 0 := rfl
@[simp] theorem w_LANE_HITS_OUT_HITS_OUT : LANE_HITS_OUT.HITS_OUT.w = 64 := rfl
@[simp] theorem reg_LANE_HITS_SUPP_SUPP : LANE_HITS_SUPP.SUPP.reg = .LANE_HITS_SUPP := rfl
@[simp] theorem lo_LANE_HITS_SUPP_SUPP : LANE_HITS_SUPP.SUPP.lo = 0 := rfl
@[simp] theorem w_LANE_HITS_SUPP_SUPP : LANE_HITS_SUPP.SUPP.w = 64 := rfl
@[simp] theorem reg_LANE_HITS_DROP_UNBOUND : LANE_HITS_DROP.UNBOUND.reg = .LANE_HITS_DROP := rfl
@[simp] theorem lo_LANE_HITS_DROP_UNBOUND : LANE_HITS_DROP.UNBOUND.lo = 0 := rfl
@[simp] theorem w_LANE_HITS_DROP_UNBOUND : LANE_HITS_DROP.UNBOUND.w = 32 := rfl
@[simp] theorem reg_LANE_HITS_DROP_OFFSET_ERR : LANE_HITS_DROP.OFFSET_ERR.reg = .LANE_HITS_DROP := rfl
@[simp] theorem lo_LANE_HITS_DROP_OFFSET_ERR : LANE_HITS_DROP.OFFSET_ERR.lo = 32 := rfl
@[simp] theorem w_LANE_HITS_DROP_OFFSET_ERR : LANE_HITS_DROP.OFFSET_ERR.w = 16 := rfl
@[simp] theorem reg_LANE_HITS_DROP_ORDER_ERR : LANE_HITS_DROP.ORDER_ERR.reg = .LANE_HITS_DROP := rfl
@[simp] theorem lo_LANE_HITS_DROP_ORDER_ERR : LANE_HITS_DROP.ORDER_ERR.lo = 48 := rfl
@[simp] theorem w_LANE_HITS_DROP_ORDER_ERR : LANE_HITS_DROP.ORDER_ERR.w = 16 := rfl
@[simp] theorem reg_LANE_SC_CNT_SC_SENT : LANE_SC_CNT.SC_SENT.reg = .LANE_SC_CNT := rfl
@[simp] theorem lo_LANE_SC_CNT_SC_SENT : LANE_SC_CNT.SC_SENT.lo = 0 := rfl
@[simp] theorem w_LANE_SC_CNT_SC_SENT : LANE_SC_CNT.SC_SENT.w = 16 := rfl
@[simp] theorem reg_LANE_SC_CNT_SC_RECV : LANE_SC_CNT.SC_RECV.reg = .LANE_SC_CNT := rfl
@[simp] theorem lo_LANE_SC_CNT_SC_RECV : LANE_SC_CNT.SC_RECV.lo = 16 := rfl
@[simp] theorem w_LANE_SC_CNT_SC_RECV : LANE_SC_CNT.SC_RECV.w = 16 := rfl
@[simp] theorem reg_LANE_SC_CNT_SC_OVERRUN : LANE_SC_CNT.SC_OVERRUN.reg = .LANE_SC_CNT := rfl
@[simp] theorem lo_LANE_SC_CNT_SC_OVERRUN : LANE_SC_CNT.SC_OVERRUN.lo = 32 := rfl
@[simp] theorem w_LANE_SC_CNT_SC_OVERRUN : LANE_SC_CNT.SC_OVERRUN.w = 16 := rfl
@[simp] theorem reg_LANE_SC_CNT_TICK_SKIP : LANE_SC_CNT.TICK_SKIP.reg = .LANE_SC_CNT := rfl
@[simp] theorem lo_LANE_SC_CNT_TICK_SKIP : LANE_SC_CNT.TICK_SKIP.lo = 48 := rfl
@[simp] theorem w_LANE_SC_CNT_TICK_SKIP : LANE_SC_CNT.TICK_SKIP.w = 16 := rfl
@[simp] theorem reg_LANE_TX_CNT_ACCEPTS_SENT : LANE_TX_CNT.ACCEPTS_SENT.reg = .LANE_TX_CNT := rfl
@[simp] theorem lo_LANE_TX_CNT_ACCEPTS_SENT : LANE_TX_CNT.ACCEPTS_SENT.lo = 0 := rfl
@[simp] theorem w_LANE_TX_CNT_ACCEPTS_SENT : LANE_TX_CNT.ACCEPTS_SENT.w = 32 := rfl
@[simp] theorem reg_LANE_TX_CNT_ACC_DROP : LANE_TX_CNT.ACC_DROP.reg = .LANE_TX_CNT := rfl
@[simp] theorem lo_LANE_TX_CNT_ACC_DROP : LANE_TX_CNT.ACC_DROP.lo = 32 := rfl
@[simp] theorem w_LANE_TX_CNT_ACC_DROP : LANE_TX_CNT.ACC_DROP.w = 16 := rfl
@[simp] theorem reg_LANE_TX_CNT_CMD_SENT : LANE_TX_CNT.CMD_SENT.reg = .LANE_TX_CNT := rfl
@[simp] theorem lo_LANE_TX_CNT_CMD_SENT : LANE_TX_CNT.CMD_SENT.lo = 48 := rfl
@[simp] theorem w_LANE_TX_CNT_CMD_SENT : LANE_TX_CNT.CMD_SENT.w = 16 := rfl
@[simp] theorem reg_LANE_SC_TXBUF_WORD : LANE_SC_TXBUF.WORD.reg = .LANE_SC_TXBUF := rfl
@[simp] theorem lo_LANE_SC_TXBUF_WORD : LANE_SC_TXBUF.WORD.lo = 0 := rfl
@[simp] theorem w_LANE_SC_TXBUF_WORD : LANE_SC_TXBUF.WORD.w = 64 := rfl
@[simp] theorem reg_LANE_SC_RXBUF_WORD : LANE_SC_RXBUF.WORD.reg = .LANE_SC_RXBUF := rfl
@[simp] theorem lo_LANE_SC_RXBUF_WORD : LANE_SC_RXBUF.WORD.lo = 0 := rfl
@[simp] theorem w_LANE_SC_RXBUF_WORD : LANE_SC_RXBUF.WORD.w = 64 := rfl
@[simp] theorem reg_CTX_CFG_FLIP_LEAD : CTX_CFG.FLIP_LEAD.reg = .CTX_CFG := rfl
@[simp] theorem lo_CTX_CFG_FLIP_LEAD : CTX_CFG.FLIP_LEAD.lo = 0 := rfl
@[simp] theorem w_CTX_CFG_FLIP_LEAD : CTX_CFG.FLIP_LEAD.w = 16 := rfl
@[simp] theorem reg_CTX_CFG_MERGE_HOLD : CTX_CFG.MERGE_HOLD.reg = .CTX_CFG := rfl
@[simp] theorem lo_CTX_CFG_MERGE_HOLD : CTX_CFG.MERGE_HOLD.lo = 32 := rfl
@[simp] theorem w_CTX_CFG_MERGE_HOLD : CTX_CFG.MERGE_HOLD.w = 20 := rfl
@[simp] theorem reg_CTX_STATUS_READY : CTX_STATUS.READY.reg = .CTX_STATUS := rfl
@[simp] theorem lo_CTX_STATUS_READY : CTX_STATUS.READY.lo = 0 := rfl
@[simp] theorem w_CTX_STATUS_READY : CTX_STATUS.READY.w = 1 := rfl
@[simp] theorem reg_CTX_STATUS_OVL_USED : CTX_STATUS.OVL_USED.reg = .CTX_STATUS := rfl
@[simp] theorem lo_CTX_STATUS_OVL_USED : CTX_STATUS.OVL_USED.lo = 16 := rfl
@[simp] theorem w_CTX_STATUS_OVL_USED : CTX_STATUS.OVL_USED.w = 17 := rfl
@[simp] theorem reg_CTX_STATUS_SLOTS_BUSY : CTX_STATUS.SLOTS_BUSY.reg = .CTX_STATUS := rfl
@[simp] theorem lo_CTX_STATUS_SLOTS_BUSY : CTX_STATUS.SLOTS_BUSY.lo = 33 := rfl
@[simp] theorem w_CTX_STATUS_SLOTS_BUSY : CTX_STATUS.SLOTS_BUSY.w = 7 := rfl
@[simp] theorem reg_CTX_STATUS_EVT_STALE : CTX_STATUS.EVT_STALE.reg = .CTX_STATUS := rfl
@[simp] theorem lo_CTX_STATUS_EVT_STALE : CTX_STATUS.EVT_STALE.lo = 48 := rfl
@[simp] theorem w_CTX_STATUS_EVT_STALE : CTX_STATUS.EVT_STALE.w = 1 := rfl
@[simp] theorem reg_CTX_STATUS_EVT_FLIP_MOVED : CTX_STATUS.EVT_FLIP_MOVED.reg = .CTX_STATUS := rfl
@[simp] theorem lo_CTX_STATUS_EVT_FLIP_MOVED : CTX_STATUS.EVT_FLIP_MOVED.lo = 49 := rfl
@[simp] theorem w_CTX_STATUS_EVT_FLIP_MOVED : CTX_STATUS.EVT_FLIP_MOVED.w = 1 := rfl
@[simp] theorem reg_CTX_STATUS_EVT_SPOOF : CTX_STATUS.EVT_SPOOF.reg = .CTX_STATUS := rfl
@[simp] theorem lo_CTX_STATUS_EVT_SPOOF : CTX_STATUS.EVT_SPOOF.lo = 50 := rfl
@[simp] theorem w_CTX_STATUS_EVT_SPOOF : CTX_STATUS.EVT_SPOOF.w = 1 := rfl
@[simp] theorem reg_CTX_STATUS_EVT_BACKLOG : CTX_STATUS.EVT_BACKLOG.reg = .CTX_STATUS := rfl
@[simp] theorem lo_CTX_STATUS_EVT_BACKLOG : CTX_STATUS.EVT_BACKLOG.lo = 51 := rfl
@[simp] theorem w_CTX_STATUS_EVT_BACKLOG : CTX_STATUS.EVT_BACKLOG.w = 1 := rfl
@[simp] theorem reg_CTX_STATUS_EVT_FLIP : CTX_STATUS.EVT_FLIP.reg = .CTX_STATUS := rfl
@[simp] theorem lo_CTX_STATUS_EVT_FLIP : CTX_STATUS.EVT_FLIP.lo = 52 := rfl
@[simp] theorem w_CTX_STATUS_EVT_FLIP : CTX_STATUS.EVT_FLIP.w = 1 := rfl
@[simp] theorem reg_CTX_CNT0_STALE_VIEW : CTX_CNT0.STALE_VIEW.reg = .CTX_CNT0 := rfl
@[simp] theorem lo_CTX_CNT0_STALE_VIEW : CTX_CNT0.STALE_VIEW.lo = 0 := rfl
@[simp] theorem w_CTX_CNT0_STALE_VIEW : CTX_CNT0.STALE_VIEW.w = 32 := rfl
@[simp] theorem reg_CTX_CNT0_FLIP_MOVED : CTX_CNT0.FLIP_MOVED.reg = .CTX_CNT0 := rfl
@[simp] theorem lo_CTX_CNT0_FLIP_MOVED : CTX_CNT0.FLIP_MOVED.lo = 32 := rfl
@[simp] theorem w_CTX_CNT0_FLIP_MOVED : CTX_CNT0.FLIP_MOVED.w = 16 := rfl
@[simp] theorem reg_CTX_CNT0_SPOOF : CTX_CNT0.SPOOF.reg = .CTX_CNT0 := rfl
@[simp] theorem lo_CTX_CNT0_SPOOF : CTX_CNT0.SPOOF.lo = 48 := rfl
@[simp] theorem w_CTX_CNT0_SPOOF : CTX_CNT0.SPOOF.w = 16 := rfl
@[simp] theorem reg_CTX_CNT1_FLIPS : CTX_CNT1.FLIPS.reg = .CTX_CNT1 := rfl
@[simp] theorem lo_CTX_CNT1_FLIPS : CTX_CNT1.FLIPS.lo = 0 := rfl
@[simp] theorem w_CTX_CNT1_FLIPS : CTX_CNT1.FLIPS.w = 32 := rfl
@[simp] theorem reg_CTX_CNT1_STALE : CTX_CNT1.STALE.reg = .CTX_CNT1 := rfl
@[simp] theorem lo_CTX_CNT1_STALE : CTX_CNT1.STALE.lo = 32 := rfl
@[simp] theorem w_CTX_CNT1_STALE : CTX_CNT1.STALE.w = 16 := rfl
@[simp] theorem reg_CTX_BANK_WAIT_WAIT : CTX_BANK_WAIT.WAIT.reg = .CTX_BANK_WAIT := rfl
@[simp] theorem lo_CTX_BANK_WAIT_WAIT : CTX_BANK_WAIT.WAIT.lo = 0 := rfl
@[simp] theorem w_CTX_BANK_WAIT_WAIT : CTX_BANK_WAIT.WAIT.w = 64 := rfl
@[simp] theorem reg_CTX_EPOCH_STATE : CTX_EPOCH.STATE.reg = .CTX_EPOCH := rfl
@[simp] theorem lo_CTX_EPOCH_STATE : CTX_EPOCH.STATE.lo = 0 := rfl
@[simp] theorem w_CTX_EPOCH_STATE : CTX_EPOCH.STATE.w = 3 := rfl
@[simp] theorem reg_CTX_EPOCH_OWNER : CTX_EPOCH.OWNER.reg = .CTX_EPOCH := rfl
@[simp] theorem lo_CTX_EPOCH_OWNER : CTX_EPOCH.OWNER.lo = 8 := rfl
@[simp] theorem w_CTX_EPOCH_OWNER : CTX_EPOCH.OWNER.w = 8 := rfl
@[simp] theorem reg_CTX_EPOCH_ROLE_EPOCH : CTX_EPOCH.ROLE_EPOCH.reg = .CTX_EPOCH := rfl
@[simp] theorem lo_CTX_EPOCH_ROLE_EPOCH : CTX_EPOCH.ROLE_EPOCH.lo = 16 := rfl
@[simp] theorem w_CTX_EPOCH_ROLE_EPOCH : CTX_EPOCH.ROLE_EPOCH.w = 16 := rfl
@[simp] theorem reg_CTX_EPOCH_ENTRIES : CTX_EPOCH.ENTRIES.reg = .CTX_EPOCH := rfl
@[simp] theorem lo_CTX_EPOCH_ENTRIES : CTX_EPOCH.ENTRIES.lo = 32 := rfl
@[simp] theorem w_CTX_EPOCH_ENTRIES : CTX_EPOCH.ENTRIES.w = 17 := rfl
@[simp] theorem reg_CTX_EPOCH_FLIP_MOVED : CTX_EPOCH.FLIP_MOVED.reg = .CTX_EPOCH := rfl
@[simp] theorem lo_CTX_EPOCH_FLIP_MOVED : CTX_EPOCH.FLIP_MOVED.lo = 49 := rfl
@[simp] theorem w_CTX_EPOCH_FLIP_MOVED : CTX_EPOCH.FLIP_MOVED.w = 1 := rfl
@[simp] theorem reg_CTX_EPOCH_BEAT_F : CTX_EPOCH_BEAT.F.reg = .CTX_EPOCH_BEAT := rfl
@[simp] theorem lo_CTX_EPOCH_BEAT_F : CTX_EPOCH_BEAT.F.lo = 0 := rfl
@[simp] theorem w_CTX_EPOCH_BEAT_F : CTX_EPOCH_BEAT.F.w = 64 := rfl
@[simp] theorem reg_CTX_BANK_OVL_USED : CTX_BANK_OVL.USED.reg = .CTX_BANK_OVL := rfl
@[simp] theorem lo_CTX_BANK_OVL_USED : CTX_BANK_OVL.USED.lo = 0 := rfl
@[simp] theorem w_CTX_BANK_OVL_USED : CTX_BANK_OVL.USED.w = 10 := rfl
@[simp] theorem reg_CTX_LANE_DROP_DROPS : CTX_LANE_DROP.DROPS.reg = .CTX_LANE_DROP := rfl
@[simp] theorem lo_CTX_LANE_DROP_DROPS : CTX_LANE_DROP.DROPS.lo = 0 := rfl
@[simp] theorem w_CTX_LANE_DROP_DROPS : CTX_LANE_DROP.DROPS.w = 32 := rfl
@[simp] theorem reg_TRG_CFG_CLOSE_MAX : TRG_CFG.CLOSE_MAX.reg = .TRG_CFG := rfl
@[simp] theorem lo_TRG_CFG_CLOSE_MAX : TRG_CFG.CLOSE_MAX.lo = 0 := rfl
@[simp] theorem w_TRG_CFG_CLOSE_MAX : TRG_CFG.CLOSE_MAX.w = 9 := rfl
@[simp] theorem reg_TRG_CFG_SWAP_LEAD : TRG_CFG.SWAP_LEAD.reg = .TRG_CFG := rfl
@[simp] theorem lo_TRG_CFG_SWAP_LEAD : TRG_CFG.SWAP_LEAD.lo = 16 := rfl
@[simp] theorem w_TRG_CFG_SWAP_LEAD : TRG_CFG.SWAP_LEAD.w = 16 := rfl
@[simp] theorem reg_TRG_STATUS_READY : TRG_STATUS.READY.reg = .TRG_STATUS := rfl
@[simp] theorem lo_TRG_STATUS_READY : TRG_STATUS.READY.lo = 0 := rfl
@[simp] theorem w_TRG_STATUS_READY : TRG_STATUS.READY.w = 1 := rfl
@[simp] theorem reg_TRG_STATUS_LOOKAHEAD : TRG_STATUS.LOOKAHEAD.reg = .TRG_STATUS := rfl
@[simp] theorem lo_TRG_STATUS_LOOKAHEAD : TRG_STATUS.LOOKAHEAD.lo = 4 := rfl
@[simp] theorem w_TRG_STATUS_LOOKAHEAD : TRG_STATUS.LOOKAHEAD.w = 4 := rfl
@[simp] theorem reg_TRG_STATUS_EVT_SWAP_MOVED : TRG_STATUS.EVT_SWAP_MOVED.reg = .TRG_STATUS := rfl
@[simp] theorem lo_TRG_STATUS_EVT_SWAP_MOVED : TRG_STATUS.EVT_SWAP_MOVED.lo = 32 := rfl
@[simp] theorem w_TRG_STATUS_EVT_SWAP_MOVED : TRG_STATUS.EVT_SWAP_MOVED.w = 1 := rfl
@[simp] theorem reg_TRG_STATUS_EVT_SPOOF : TRG_STATUS.EVT_SPOOF.reg = .TRG_STATUS := rfl
@[simp] theorem lo_TRG_STATUS_EVT_SPOOF : TRG_STATUS.EVT_SPOOF.lo = 33 := rfl
@[simp] theorem w_TRG_STATUS_EVT_SPOOF : TRG_STATUS.EVT_SPOOF.w = 1 := rfl
@[simp] theorem reg_TRG_STATUS_EVT_GUEST_LATE : TRG_STATUS.EVT_GUEST_LATE.reg = .TRG_STATUS := rfl
@[simp] theorem lo_TRG_STATUS_EVT_GUEST_LATE : TRG_STATUS.EVT_GUEST_LATE.lo = 34 := rfl
@[simp] theorem w_TRG_STATUS_EVT_GUEST_LATE : TRG_STATUS.EVT_GUEST_LATE.w = 1 := rfl
@[simp] theorem reg_TRG_STATUS_EVT_SK_LATE : TRG_STATUS.EVT_SK_LATE.reg = .TRG_STATUS := rfl
@[simp] theorem lo_TRG_STATUS_EVT_SK_LATE : TRG_STATUS.EVT_SK_LATE.lo = 35 := rfl
@[simp] theorem w_TRG_STATUS_EVT_SK_LATE : TRG_STATUS.EVT_SK_LATE.w = 1 := rfl
@[simp] theorem reg_TRG_CNT0_SPOOF : TRG_CNT0.SPOOF.reg = .TRG_CNT0 := rfl
@[simp] theorem lo_TRG_CNT0_SPOOF : TRG_CNT0.SPOOF.lo = 0 := rfl
@[simp] theorem w_TRG_CNT0_SPOOF : TRG_CNT0.SPOOF.w = 16 := rfl
@[simp] theorem reg_TRG_CNT0_STALE : TRG_CNT0.STALE.reg = .TRG_CNT0 := rfl
@[simp] theorem lo_TRG_CNT0_STALE : TRG_CNT0.STALE.lo = 16 := rfl
@[simp] theorem w_TRG_CNT0_STALE : TRG_CNT0.STALE.w = 16 := rfl
@[simp] theorem reg_TRG_CNT0_SWAP_MOVED : TRG_CNT0.SWAP_MOVED.reg = .TRG_CNT0 := rfl
@[simp] theorem lo_TRG_CNT0_SWAP_MOVED : TRG_CNT0.SWAP_MOVED.lo = 32 := rfl
@[simp] theorem w_TRG_CNT0_SWAP_MOVED : TRG_CNT0.SWAP_MOVED.w = 16 := rfl
@[simp] theorem reg_TRG_CNT0_SUB_MASKED : TRG_CNT0.SUB_MASKED.reg = .TRG_CNT0 := rfl
@[simp] theorem lo_TRG_CNT0_SUB_MASKED : TRG_CNT0.SUB_MASKED.lo = 48 := rfl
@[simp] theorem w_TRG_CNT0_SUB_MASKED : TRG_CNT0.SUB_MASKED.w = 16 := rfl
@[simp] theorem reg_TRG_CNT1_GUEST_LATE : TRG_CNT1.GUEST_LATE.reg = .TRG_CNT1 := rfl
@[simp] theorem lo_TRG_CNT1_GUEST_LATE : TRG_CNT1.GUEST_LATE.lo = 0 := rfl
@[simp] theorem w_TRG_CNT1_GUEST_LATE : TRG_CNT1.GUEST_LATE.w = 32 := rfl
@[simp] theorem reg_TRG_CNT1_CANDIDATES : TRG_CNT1.CANDIDATES.reg = .TRG_CNT1 := rfl
@[simp] theorem lo_TRG_CNT1_CANDIDATES : TRG_CNT1.CANDIDATES.lo = 32 := rfl
@[simp] theorem w_TRG_CNT1_CANDIDATES : TRG_CNT1.CANDIDATES.w = 32 := rfl
@[simp] theorem reg_TRG_VETO0_VETO_THROTTLE : TRG_VETO0.VETO_THROTTLE.reg = .TRG_VETO0 := rfl
@[simp] theorem lo_TRG_VETO0_VETO_THROTTLE : TRG_VETO0.VETO_THROTTLE.lo = 0 := rfl
@[simp] theorem w_TRG_VETO0_VETO_THROTTLE : TRG_VETO0.VETO_THROTTLE.w = 32 := rfl
@[simp] theorem reg_TRG_VETO0_VETO_DEADTIME : TRG_VETO0.VETO_DEADTIME.reg = .TRG_VETO0 := rfl
@[simp] theorem lo_TRG_VETO0_VETO_DEADTIME : TRG_VETO0.VETO_DEADTIME.lo = 32 := rfl
@[simp] theorem w_TRG_VETO0_VETO_DEADTIME : TRG_VETO0.VETO_DEADTIME.w = 32 := rfl
@[simp] theorem reg_TRG_VETO1_VETO_BUCKET : TRG_VETO1.VETO_BUCKET.reg = .TRG_VETO1 := rfl
@[simp] theorem lo_TRG_VETO1_VETO_BUCKET : TRG_VETO1.VETO_BUCKET.lo = 0 := rfl
@[simp] theorem w_TRG_VETO1_VETO_BUCKET : TRG_VETO1.VETO_BUCKET.w = 32 := rfl
@[simp] theorem reg_TRG_VETO1_ACCEPTED : TRG_VETO1.ACCEPTED.reg = .TRG_VETO1 := rfl
@[simp] theorem lo_TRG_VETO1_ACCEPTED : TRG_VETO1.ACCEPTED.lo = 32 := rfl
@[simp] theorem w_TRG_VETO1_ACCEPTED : TRG_VETO1.ACCEPTED.w = 32 := rfl
@[simp] theorem reg_TRG_CMB_STATE_LEVEL : TRG_CMB_STATE.LEVEL.reg = .TRG_CMB_STATE := rfl
@[simp] theorem lo_TRG_CMB_STATE_LEVEL : TRG_CMB_STATE.LEVEL.lo = 0 := rfl
@[simp] theorem w_TRG_CMB_STATE_LEVEL : TRG_CMB_STATE.LEVEL.w = 13 := rfl
@[simp] theorem reg_TRG_CMB_STATE_LAST_VALID : TRG_CMB_STATE.LAST_VALID.reg = .TRG_CMB_STATE := rfl
@[simp] theorem lo_TRG_CMB_STATE_LAST_VALID : TRG_CMB_STATE.LAST_VALID.lo = 16 := rfl
@[simp] theorem w_TRG_CMB_STATE_LAST_VALID : TRG_CMB_STATE.LAST_VALID.w = 1 := rfl
@[simp] theorem reg_TRG_LAST_ACC_BEAT : TRG_LAST_ACC.BEAT.reg = .TRG_LAST_ACC := rfl
@[simp] theorem lo_TRG_LAST_ACC_BEAT : TRG_LAST_ACC.BEAT.lo = 0 := rfl
@[simp] theorem w_TRG_LAST_ACC_BEAT : TRG_LAST_ACC.BEAT.w = 64 := rfl
@[simp] theorem reg_TRG_UNIT_STATUS_ARMED : TRG_UNIT_STATUS.ARMED.reg = .TRG_UNIT_STATUS := rfl
@[simp] theorem lo_TRG_UNIT_STATUS_ARMED : TRG_UNIT_STATUS.ARMED.lo = 0 := rfl
@[simp] theorem w_TRG_UNIT_STATUS_ARMED : TRG_UNIT_STATUS.ARMED.w = 1 := rfl
@[simp] theorem reg_TRG_UNIT_STATUS_MOVED : TRG_UNIT_STATUS.MOVED.reg = .TRG_UNIT_STATUS := rfl
@[simp] theorem lo_TRG_UNIT_STATUS_MOVED : TRG_UNIT_STATUS.MOVED.lo = 1 := rfl
@[simp] theorem w_TRG_UNIT_STATUS_MOVED : TRG_UNIT_STATUS.MOVED.w = 1 := rfl
@[simp] theorem reg_TRG_UNIT_STATUS_LOOK : TRG_UNIT_STATUS.LOOK.reg = .TRG_UNIT_STATUS := rfl
@[simp] theorem lo_TRG_UNIT_STATUS_LOOK : TRG_UNIT_STATUS.LOOK.lo = 4 := rfl
@[simp] theorem w_TRG_UNIT_STATUS_LOOK : TRG_UNIT_STATUS.LOOK.w = 4 := rfl
@[simp] theorem reg_TRG_UNIT_STATUS_OWNER : TRG_UNIT_STATUS.OWNER.reg = .TRG_UNIT_STATUS := rfl
@[simp] theorem lo_TRG_UNIT_STATUS_OWNER : TRG_UNIT_STATUS.OWNER.lo = 8 := rfl
@[simp] theorem w_TRG_UNIT_STATUS_OWNER : TRG_UNIT_STATUS.OWNER.w = 8 := rfl
@[simp] theorem reg_TRG_UNIT_STATUS_ROLE_EPOCH : TRG_UNIT_STATUS.ROLE_EPOCH.reg = .TRG_UNIT_STATUS := rfl
@[simp] theorem lo_TRG_UNIT_STATUS_ROLE_EPOCH : TRG_UNIT_STATUS.ROLE_EPOCH.lo = 16 := rfl
@[simp] theorem w_TRG_UNIT_STATUS_ROLE_EPOCH : TRG_UNIT_STATUS.ROLE_EPOCH.w = 16 := rfl
@[simp] theorem reg_TRG_UNIT_STATUS_EVT_SWAP : TRG_UNIT_STATUS.EVT_SWAP.reg = .TRG_UNIT_STATUS := rfl
@[simp] theorem lo_TRG_UNIT_STATUS_EVT_SWAP : TRG_UNIT_STATUS.EVT_SWAP.lo = 32 := rfl
@[simp] theorem w_TRG_UNIT_STATUS_EVT_SWAP : TRG_UNIT_STATUS.EVT_SWAP.w = 1 := rfl
@[simp] theorem reg_TRG_UNIT_STATUS_EVT_SUB_MASKED : TRG_UNIT_STATUS.EVT_SUB_MASKED.reg = .TRG_UNIT_STATUS := rfl
@[simp] theorem lo_TRG_UNIT_STATUS_EVT_SUB_MASKED : TRG_UNIT_STATUS.EVT_SUB_MASKED.lo = 33 := rfl
@[simp] theorem w_TRG_UNIT_STATUS_EVT_SUB_MASKED : TRG_UNIT_STATUS.EVT_SUB_MASKED.w = 1 := rfl
@[simp] theorem reg_TRG_UNIT_STATUS_EVT_OWNER : TRG_UNIT_STATUS.EVT_OWNER.reg = .TRG_UNIT_STATUS := rfl
@[simp] theorem lo_TRG_UNIT_STATUS_EVT_OWNER : TRG_UNIT_STATUS.EVT_OWNER.lo = 34 := rfl
@[simp] theorem w_TRG_UNIT_STATUS_EVT_OWNER : TRG_UNIT_STATUS.EVT_OWNER.w = 1 := rfl
@[simp] theorem reg_TRG_UNIT_SWAP_S : TRG_UNIT_SWAP.S.reg = .TRG_UNIT_SWAP := rfl
@[simp] theorem lo_TRG_UNIT_SWAP_S : TRG_UNIT_SWAP.S.lo = 0 := rfl
@[simp] theorem w_TRG_UNIT_SWAP_S : TRG_UNIT_SWAP.S.w = 64 := rfl
@[simp] theorem reg_TRG_UNIT_MENU_ACTIVE_ID : TRG_UNIT_MENU.ACTIVE_ID.reg = .TRG_UNIT_MENU := rfl
@[simp] theorem lo_TRG_UNIT_MENU_ACTIVE_ID : TRG_UNIT_MENU.ACTIVE_ID.lo = 0 := rfl
@[simp] theorem w_TRG_UNIT_MENU_ACTIVE_ID : TRG_UNIT_MENU.ACTIVE_ID.w = 32 := rfl
@[simp] theorem reg_TRG_UNIT_MENU_ARMED_ID : TRG_UNIT_MENU.ARMED_ID.reg = .TRG_UNIT_MENU := rfl
@[simp] theorem lo_TRG_UNIT_MENU_ARMED_ID : TRG_UNIT_MENU.ARMED_ID.lo = 32 := rfl
@[simp] theorem w_TRG_UNIT_MENU_ARMED_ID : TRG_UNIT_MENU.ARMED_ID.w = 32 := rfl
@[simp] theorem reg_TRG_UNIT_EVAL_BEAT : TRG_UNIT_EVAL.BEAT.reg = .TRG_UNIT_EVAL := rfl
@[simp] theorem lo_TRG_UNIT_EVAL_BEAT : TRG_UNIT_EVAL.BEAT.lo = 0 := rfl
@[simp] theorem w_TRG_UNIT_EVAL_BEAT : TRG_UNIT_EVAL.BEAT.w = 64 := rfl
@[simp] theorem reg_TRG_BIT_CNT_RAW : TRG_BIT_CNT.RAW.reg = .TRG_BIT_CNT := rfl
@[simp] theorem lo_TRG_BIT_CNT_RAW : TRG_BIT_CNT.RAW.lo = 0 := rfl
@[simp] theorem w_TRG_BIT_CNT_RAW : TRG_BIT_CNT.RAW.w = 32 := rfl
@[simp] theorem reg_TRG_BIT_CNT_PASS : TRG_BIT_CNT.PASS.reg = .TRG_BIT_CNT := rfl
@[simp] theorem lo_TRG_BIT_CNT_PASS : TRG_BIT_CNT.PASS.lo = 32 := rfl
@[simp] theorem w_TRG_BIT_CNT_PASS : TRG_BIT_CNT.PASS.w = 32 := rfl
@[simp] theorem reg_TRG_SK_LATE_HITS : TRG_SK_LATE.HITS.reg = .TRG_SK_LATE := rfl
@[simp] theorem lo_TRG_SK_LATE_HITS : TRG_SK_LATE.HITS.lo = 0 := rfl
@[simp] theorem w_TRG_SK_LATE_HITS : TRG_SK_LATE.HITS.w = 32 := rfl
@[simp] theorem reg_TIO_OUT_CTL_TRIG_DRV : TIO_OUT_CTL.TRIG_DRV.reg = .TIO_OUT_CTL := rfl
@[simp] theorem lo_TIO_OUT_CTL_TRIG_DRV : TIO_OUT_CTL.TRIG_DRV.lo = 0 := rfl
@[simp] theorem w_TIO_OUT_CTL_TRIG_DRV : TIO_OUT_CTL.TRIG_DRV.w = 1 := rfl
@[simp] theorem reg_TIO_OUT_CTL_BUSY_DRV : TIO_OUT_CTL.BUSY_DRV.reg = .TIO_OUT_CTL := rfl
@[simp] theorem lo_TIO_OUT_CTL_BUSY_DRV : TIO_OUT_CTL.BUSY_DRV.lo = 1 := rfl
@[simp] theorem w_TIO_OUT_CTL_BUSY_DRV : TIO_OUT_CTL.BUSY_DRV.w = 1 := rfl
@[simp] theorem reg_TIO_OUT_CTL_FWD_BUSY_IN : TIO_OUT_CTL.FWD_BUSY_IN.reg = .TIO_OUT_CTL := rfl
@[simp] theorem lo_TIO_OUT_CTL_FWD_BUSY_IN : TIO_OUT_CTL.FWD_BUSY_IN.lo = 2 := rfl
@[simp] theorem w_TIO_OUT_CTL_FWD_BUSY_IN : TIO_OUT_CTL.FWD_BUSY_IN.w = 1 := rfl
@[simp] theorem reg_TIO_OUT_CTL_THR_BUSY_IN : TIO_OUT_CTL.THR_BUSY_IN.reg = .TIO_OUT_CTL := rfl
@[simp] theorem lo_TIO_OUT_CTL_THR_BUSY_IN : TIO_OUT_CTL.THR_BUSY_IN.lo = 3 := rfl
@[simp] theorem w_TIO_OUT_CTL_THR_BUSY_IN : TIO_OUT_CTL.THR_BUSY_IN.w = 1 := rfl
@[simp] theorem reg_TIO_OUT_CTL_FORCE_BUSY : TIO_OUT_CTL.FORCE_BUSY.reg = .TIO_OUT_CTL := rfl
@[simp] theorem lo_TIO_OUT_CTL_FORCE_BUSY : TIO_OUT_CTL.FORCE_BUSY.lo = 4 := rfl
@[simp] theorem w_TIO_OUT_CTL_FORCE_BUSY : TIO_OUT_CTL.FORCE_BUSY.w = 1 := rfl
@[simp] theorem reg_TIO_OUT_CTL_FORCE_THROTTLE : TIO_OUT_CTL.FORCE_THROTTLE.reg = .TIO_OUT_CTL := rfl
@[simp] theorem lo_TIO_OUT_CTL_FORCE_THROTTLE : TIO_OUT_CTL.FORCE_THROTTLE.lo = 5 := rfl
@[simp] theorem w_TIO_OUT_CTL_FORCE_THROTTLE : TIO_OUT_CTL.FORCE_THROTTLE.w = 1 := rfl
@[simp] theorem reg_TIO_OUT_CTL_TRIG_MASK : TIO_OUT_CTL.TRIG_MASK.reg = .TIO_OUT_CTL := rfl
@[simp] theorem lo_TIO_OUT_CTL_TRIG_MASK : TIO_OUT_CTL.TRIG_MASK.lo = 8 := rfl
@[simp] theorem w_TIO_OUT_CTL_TRIG_MASK : TIO_OUT_CTL.TRIG_MASK.w = 8 := rfl
@[simp] theorem reg_TIO_OUT_CTL_BUSY_HOLD : TIO_OUT_CTL.BUSY_HOLD.reg = .TIO_OUT_CTL := rfl
@[simp] theorem lo_TIO_OUT_CTL_BUSY_HOLD : TIO_OUT_CTL.BUSY_HOLD.lo = 32 := rfl
@[simp] theorem w_TIO_OUT_CTL_BUSY_HOLD : TIO_OUT_CTL.BUSY_HOLD.w = 16 := rfl
@[simp] theorem reg_TIO_STATUS_BUSY : TIO_STATUS.BUSY.reg = .TIO_STATUS := rfl
@[simp] theorem lo_TIO_STATUS_BUSY : TIO_STATUS.BUSY.lo = 0 := rfl
@[simp] theorem w_TIO_STATUS_BUSY : TIO_STATUS.BUSY.w = 1 := rfl
@[simp] theorem reg_TIO_STATUS_THROTTLE : TIO_STATUS.THROTTLE.reg = .TIO_STATUS := rfl
@[simp] theorem lo_TIO_STATUS_THROTTLE : TIO_STATUS.THROTTLE.lo = 1 := rfl
@[simp] theorem w_TIO_STATUS_THROTTLE : TIO_STATUS.THROTTLE.w = 1 := rfl
@[simp] theorem reg_TIO_STATUS_C_RUN : TIO_STATUS.C_RUN.reg = .TIO_STATUS := rfl
@[simp] theorem lo_TIO_STATUS_C_RUN : TIO_STATUS.C_RUN.lo = 8 := rfl
@[simp] theorem w_TIO_STATUS_C_RUN : TIO_STATUS.C_RUN.w = 1 := rfl
@[simp] theorem reg_TIO_STATUS_C_BEAT : TIO_STATUS.C_BEAT.reg = .TIO_STATUS := rfl
@[simp] theorem lo_TIO_STATUS_C_BEAT : TIO_STATUS.C_BEAT.lo = 9 := rfl
@[simp] theorem w_TIO_STATUS_C_BEAT : TIO_STATUS.C_BEAT.w = 1 := rfl
@[simp] theorem reg_TIO_STATUS_C_EVB : TIO_STATUS.C_EVB.reg = .TIO_STATUS := rfl
@[simp] theorem lo_TIO_STATUS_C_EVB : TIO_STATUS.C_EVB.lo = 10 := rfl
@[simp] theorem w_TIO_STATUS_C_EVB : TIO_STATUS.C_EVB.w = 1 := rfl
@[simp] theorem reg_TIO_STATUS_C_BUSY_IN : TIO_STATUS.C_BUSY_IN.reg = .TIO_STATUS := rfl
@[simp] theorem lo_TIO_STATUS_C_BUSY_IN : TIO_STATUS.C_BUSY_IN.lo = 11 := rfl
@[simp] theorem w_TIO_STATUS_C_BUSY_IN : TIO_STATUS.C_BUSY_IN.w = 1 := rfl
@[simp] theorem reg_TIO_STATUS_C_FORCE : TIO_STATUS.C_FORCE.reg = .TIO_STATUS := rfl
@[simp] theorem lo_TIO_STATUS_C_FORCE : TIO_STATUS.C_FORCE.lo = 12 := rfl
@[simp] theorem w_TIO_STATUS_C_FORCE : TIO_STATUS.C_FORCE.w = 1 := rfl
@[simp] theorem reg_TIO_STATUS_C_HOLD : TIO_STATUS.C_HOLD.reg = .TIO_STATUS := rfl
@[simp] theorem lo_TIO_STATUS_C_HOLD : TIO_STATUS.C_HOLD.lo = 13 := rfl
@[simp] theorem w_TIO_STATUS_C_HOLD : TIO_STATUS.C_HOLD.w = 1 := rfl
@[simp] theorem reg_TIO_BUSY_BEATS_BEATS : TIO_BUSY_BEATS.BEATS.reg = .TIO_BUSY_BEATS := rfl
@[simp] theorem lo_TIO_BUSY_BEATS_BEATS : TIO_BUSY_BEATS.BEATS.lo = 0 := rfl
@[simp] theorem w_TIO_BUSY_BEATS_BEATS : TIO_BUSY_BEATS.BEATS.w = 64 := rfl
@[simp] theorem reg_TIO_THR_BEATS_BEATS : TIO_THR_BEATS.BEATS.reg = .TIO_THR_BEATS := rfl
@[simp] theorem lo_TIO_THR_BEATS_BEATS : TIO_THR_BEATS.BEATS.lo = 0 := rfl
@[simp] theorem w_TIO_THR_BEATS_BEATS : TIO_THR_BEATS.BEATS.w = 64 := rfl
@[simp] theorem reg_TIO_TRIG_CNT_PULSES : TIO_TRIG_CNT.PULSES.reg = .TIO_TRIG_CNT := rfl
@[simp] theorem lo_TIO_TRIG_CNT_PULSES : TIO_TRIG_CNT.PULSES.lo = 0 := rfl
@[simp] theorem w_TIO_TRIG_CNT_PULSES : TIO_TRIG_CNT.PULSES.w = 64 := rfl
@[simp] theorem reg_TIO_IN_CFG_EN : TIO_IN_CFG.EN.reg = .TIO_IN_CFG := rfl
@[simp] theorem lo_TIO_IN_CFG_EN : TIO_IN_CFG.EN.lo = 0 := rfl
@[simp] theorem w_TIO_IN_CFG_EN : TIO_IN_CFG.EN.w = 1 := rfl
@[simp] theorem reg_TIO_IN_CFG_INV : TIO_IN_CFG.INV.reg = .TIO_IN_CFG := rfl
@[simp] theorem lo_TIO_IN_CFG_INV : TIO_IN_CFG.INV.lo = 1 := rfl
@[simp] theorem w_TIO_IN_CFG_INV : TIO_IN_CFG.INV.w = 1 := rfl
@[simp] theorem reg_TIO_IN_CFG_MODE : TIO_IN_CFG.MODE.reg = .TIO_IN_CFG := rfl
@[simp] theorem lo_TIO_IN_CFG_MODE : TIO_IN_CFG.MODE.lo = 2 := rfl
@[simp] theorem w_TIO_IN_CFG_MODE : TIO_IN_CFG.MODE.w = 1 := rfl
@[simp] theorem reg_TIO_IN_CFG_STUCK_LIM : TIO_IN_CFG.STUCK_LIM.reg = .TIO_IN_CFG := rfl
@[simp] theorem lo_TIO_IN_CFG_STUCK_LIM : TIO_IN_CFG.STUCK_LIM.lo = 8 := rfl
@[simp] theorem w_TIO_IN_CFG_STUCK_LIM : TIO_IN_CFG.STUCK_LIM.w = 22 := rfl
@[simp] theorem reg_TIO_IN_CFG_CHAT_LIM : TIO_IN_CFG.CHAT_LIM.reg = .TIO_IN_CFG := rfl
@[simp] theorem lo_TIO_IN_CFG_CHAT_LIM : TIO_IN_CFG.CHAT_LIM.lo = 32 := rfl
@[simp] theorem w_TIO_IN_CFG_CHAT_LIM : TIO_IN_CFG.CHAT_LIM.w = 16 := rfl
@[simp] theorem reg_TIO_IN_STATUS_LEVEL : TIO_IN_STATUS.LEVEL.reg = .TIO_IN_STATUS := rfl
@[simp] theorem lo_TIO_IN_STATUS_LEVEL : TIO_IN_STATUS.LEVEL.lo = 0 := rfl
@[simp] theorem w_TIO_IN_STATUS_LEVEL : TIO_IN_STATUS.LEVEL.w = 1 := rfl
@[simp] theorem reg_TIO_IN_STATUS_HONOURED : TIO_IN_STATUS.HONOURED.reg = .TIO_IN_STATUS := rfl
@[simp] theorem lo_TIO_IN_STATUS_HONOURED : TIO_IN_STATUS.HONOURED.lo = 1 := rfl
@[simp] theorem w_TIO_IN_STATUS_HONOURED : TIO_IN_STATUS.HONOURED.w = 1 := rfl
@[simp] theorem reg_TIO_IN_STATUS_STUCK : TIO_IN_STATUS.STUCK.reg = .TIO_IN_STATUS := rfl
@[simp] theorem lo_TIO_IN_STATUS_STUCK : TIO_IN_STATUS.STUCK.lo = 2 := rfl
@[simp] theorem w_TIO_IN_STATUS_STUCK : TIO_IN_STATUS.STUCK.w = 1 := rfl
@[simp] theorem reg_TIO_IN_STATUS_CHATTER : TIO_IN_STATUS.CHATTER.reg = .TIO_IN_STATUS := rfl
@[simp] theorem lo_TIO_IN_STATUS_CHATTER : TIO_IN_STATUS.CHATTER.lo = 3 := rfl
@[simp] theorem w_TIO_IN_STATUS_CHATTER : TIO_IN_STATUS.CHATTER.w = 1 := rfl
@[simp] theorem reg_TIO_IN_STATUS_MASKED : TIO_IN_STATUS.MASKED.reg = .TIO_IN_STATUS := rfl
@[simp] theorem lo_TIO_IN_STATUS_MASKED : TIO_IN_STATUS.MASKED.lo = 4 := rfl
@[simp] theorem w_TIO_IN_STATUS_MASKED : TIO_IN_STATUS.MASKED.w = 1 := rfl
@[simp] theorem reg_TIO_IN_STATUS_EVT_STUCK : TIO_IN_STATUS.EVT_STUCK.reg = .TIO_IN_STATUS := rfl
@[simp] theorem lo_TIO_IN_STATUS_EVT_STUCK : TIO_IN_STATUS.EVT_STUCK.lo = 32 := rfl
@[simp] theorem w_TIO_IN_STATUS_EVT_STUCK : TIO_IN_STATUS.EVT_STUCK.w = 1 := rfl
@[simp] theorem reg_TIO_IN_STATUS_EVT_CHATTER : TIO_IN_STATUS.EVT_CHATTER.reg = .TIO_IN_STATUS := rfl
@[simp] theorem lo_TIO_IN_STATUS_EVT_CHATTER : TIO_IN_STATUS.EVT_CHATTER.lo = 33 := rfl
@[simp] theorem w_TIO_IN_STATUS_EVT_CHATTER : TIO_IN_STATUS.EVT_CHATTER.w = 1 := rfl
@[simp] theorem reg_TIO_IN_STATUS_EVT_CLEAR : TIO_IN_STATUS.EVT_CLEAR.reg = .TIO_IN_STATUS := rfl
@[simp] theorem lo_TIO_IN_STATUS_EVT_CLEAR : TIO_IN_STATUS.EVT_CLEAR.lo = 34 := rfl
@[simp] theorem w_TIO_IN_STATUS_EVT_CLEAR : TIO_IN_STATUS.EVT_CLEAR.w = 1 := rfl
@[simp] theorem reg_TIO_IN_CTL_REARM : TIO_IN_CTL.REARM.reg = .TIO_IN_CTL := rfl
@[simp] theorem lo_TIO_IN_CTL_REARM : TIO_IN_CTL.REARM.lo = 0 := rfl
@[simp] theorem w_TIO_IN_CTL_REARM : TIO_IN_CTL.REARM.w = 1 := rfl
@[simp] theorem reg_TIO_IN_CNT_EDGES : TIO_IN_CNT.EDGES.reg = .TIO_IN_CNT := rfl
@[simp] theorem lo_TIO_IN_CNT_EDGES : TIO_IN_CNT.EDGES.lo = 0 := rfl
@[simp] theorem w_TIO_IN_CNT_EDGES : TIO_IN_CNT.EDGES.w = 32 := rfl
@[simp] theorem reg_TIO_IN_CNT_STUCKS : TIO_IN_CNT.STUCKS.reg = .TIO_IN_CNT := rfl
@[simp] theorem lo_TIO_IN_CNT_STUCKS : TIO_IN_CNT.STUCKS.lo = 32 := rfl
@[simp] theorem w_TIO_IN_CNT_STUCKS : TIO_IN_CNT.STUCKS.w = 16 := rfl
@[simp] theorem reg_TIO_IN_CNT_CHATTERS : TIO_IN_CNT.CHATTERS.reg = .TIO_IN_CNT := rfl
@[simp] theorem lo_TIO_IN_CNT_CHATTERS : TIO_IN_CNT.CHATTERS.lo = 48 := rfl
@[simp] theorem w_TIO_IN_CNT_CHATTERS : TIO_IN_CNT.CHATTERS.w = 16 := rfl
@[simp] theorem reg_EVB_CFG_EN : EVB_CFG.EN.reg = .EVB_CFG := rfl
@[simp] theorem lo_EVB_CFG_EN : EVB_CFG.EN.lo = 0 := rfl
@[simp] theorem w_EVB_CFG_EN : EVB_CFG.EN.w = 1 := rfl
@[simp] theorem reg_EVB_CFG_ASHIFT : EVB_CFG.ASHIFT.reg = .EVB_CFG := rfl
@[simp] theorem lo_EVB_CFG_ASHIFT : EVB_CFG.ASHIFT.lo = 4 := rfl
@[simp] theorem w_EVB_CFG_ASHIFT : EVB_CFG.ASHIFT.w = 4 := rfl
@[simp] theorem reg_EVB_STATUS_READY : EVB_STATUS.READY.reg = .EVB_STATUS := rfl
@[simp] theorem lo_EVB_STATUS_READY : EVB_STATUS.READY.lo = 0 := rfl
@[simp] theorem w_EVB_STATUS_READY : EVB_STATUS.READY.w = 1 := rfl
@[simp] theorem reg_EVB_STATUS_BP : EVB_STATUS.BP.reg = .EVB_STATUS := rfl
@[simp] theorem lo_EVB_STATUS_BP : EVB_STATUS.BP.lo = 1 := rfl
@[simp] theorem w_EVB_STATUS_BP : EVB_STATUS.BP.w = 1 := rfl
@[simp] theorem reg_EVB_STATUS_CTX_FREE : EVB_STATUS.CTX_FREE.reg = .EVB_STATUS := rfl
@[simp] theorem lo_EVB_STATUS_CTX_FREE : EVB_STATUS.CTX_FREE.lo = 16 := rfl
@[simp] theorem w_EVB_STATUS_CTX_FREE : EVB_STATUS.CTX_FREE.w = 17 := rfl
@[simp] theorem reg_EVB_STATUS_FIFO : EVB_STATUS.FIFO.reg = .EVB_STATUS := rfl
@[simp] theorem lo_EVB_STATUS_FIFO : EVB_STATUS.FIFO.lo = 33 := rfl
@[simp] theorem w_EVB_STATUS_FIFO : EVB_STATUS.FIFO.w = 9 := rfl
@[simp] theorem reg_EVB_STATUS_EVT_ACC_LOST : EVB_STATUS.EVT_ACC_LOST.reg = .EVB_STATUS := rfl
@[simp] theorem lo_EVB_STATUS_EVT_ACC_LOST : EVB_STATUS.EVT_ACC_LOST.lo = 48 := rfl
@[simp] theorem w_EVB_STATUS_EVT_ACC_LOST : EVB_STATUS.EVT_ACC_LOST.w = 1 := rfl
@[simp] theorem reg_EVB_STATUS_EVT_BP : EVB_STATUS.EVT_BP.reg = .EVB_STATUS := rfl
@[simp] theorem lo_EVB_STATUS_EVT_BP : EVB_STATUS.EVT_BP.lo = 49 := rfl
@[simp] theorem w_EVB_STATUS_EVT_BP : EVB_STATUS.EVT_BP.w = 1 := rfl
@[simp] theorem reg_EVB_STATUS_EVT_SPOOF : EVB_STATUS.EVT_SPOOF.reg = .EVB_STATUS := rfl
@[simp] theorem lo_EVB_STATUS_EVT_SPOOF : EVB_STATUS.EVT_SPOOF.lo = 50 := rfl
@[simp] theorem w_EVB_STATUS_EVT_SPOOF : EVB_STATUS.EVT_SPOOF.w = 1 := rfl
@[simp] theorem reg_EVB_STATUS_EVT_REFUSED : EVB_STATUS.EVT_REFUSED.reg = .EVB_STATUS := rfl
@[simp] theorem lo_EVB_STATUS_EVT_REFUSED : EVB_STATUS.EVT_REFUSED.lo = 51 := rfl
@[simp] theorem w_EVB_STATUS_EVT_REFUSED : EVB_STATUS.EVT_REFUSED.w = 1 := rfl
@[simp] theorem reg_EVB_STATUS_EVT_GUEST_STALE : EVB_STATUS.EVT_GUEST_STALE.reg = .EVB_STATUS := rfl
@[simp] theorem lo_EVB_STATUS_EVT_GUEST_STALE : EVB_STATUS.EVT_GUEST_STALE.lo = 52 := rfl
@[simp] theorem w_EVB_STATUS_EVT_GUEST_STALE : EVB_STATUS.EVT_GUEST_STALE.w = 1 := rfl
@[simp] theorem reg_EVB_BP_CFG_CTX_LOW : EVB_BP_CFG.CTX_LOW.reg = .EVB_BP_CFG := rfl
@[simp] theorem lo_EVB_BP_CFG_CTX_LOW : EVB_BP_CFG.CTX_LOW.lo = 0 := rfl
@[simp] theorem w_EVB_BP_CFG_CTX_LOW : EVB_BP_CFG.CTX_LOW.w = 16 := rfl
@[simp] theorem reg_EVB_BP_CFG_CTX_HIGH : EVB_BP_CFG.CTX_HIGH.reg = .EVB_BP_CFG := rfl
@[simp] theorem lo_EVB_BP_CFG_CTX_HIGH : EVB_BP_CFG.CTX_HIGH.lo = 16 := rfl
@[simp] theorem w_EVB_BP_CFG_CTX_HIGH : EVB_BP_CFG.CTX_HIGH.w = 16 := rfl
@[simp] theorem reg_EVB_BP_CFG_BP_AGE : EVB_BP_CFG.BP_AGE.reg = .EVB_BP_CFG := rfl
@[simp] theorem lo_EVB_BP_CFG_BP_AGE : EVB_BP_CFG.BP_AGE.lo = 32 := rfl
@[simp] theorem w_EVB_BP_CFG_BP_AGE : EVB_BP_CFG.BP_AGE.w = 20 := rfl
@[simp] theorem reg_EVB_EVN_NEXT_EVN : EVB_EVN_NEXT.EVN.reg = .EVB_EVN_NEXT := rfl
@[simp] theorem lo_EVB_EVN_NEXT_EVN : EVB_EVN_NEXT.EVN.lo = 0 := rfl
@[simp] theorem w_EVB_EVN_NEXT_EVN : EVB_EVN_NEXT.EVN.w = 64 := rfl
@[simp] theorem reg_EVB_CNT0_ACC_LOST : EVB_CNT0.ACC_LOST.reg = .EVB_CNT0 := rfl
@[simp] theorem lo_EVB_CNT0_ACC_LOST : EVB_CNT0.ACC_LOST.lo = 0 := rfl
@[simp] theorem w_EVB_CNT0_ACC_LOST : EVB_CNT0.ACC_LOST.w = 32 := rfl
@[simp] theorem reg_EVB_CNT0_ACC_OFF : EVB_CNT0.ACC_OFF.reg = .EVB_CNT0 := rfl
@[simp] theorem lo_EVB_CNT0_ACC_OFF : EVB_CNT0.ACC_OFF.lo = 32 := rfl
@[simp] theorem w_EVB_CNT0_ACC_OFF : EVB_CNT0.ACC_OFF.w = 32 := rfl
@[simp] theorem reg_EVB_CNT1_POSTED : EVB_CNT1.POSTED.reg = .EVB_CNT1 := rfl
@[simp] theorem lo_EVB_CNT1_POSTED : EVB_CNT1.POSTED.lo = 0 := rfl
@[simp] theorem w_EVB_CNT1_POSTED : EVB_CNT1.POSTED.w = 64 := rfl
@[simp] theorem reg_EVB_CNT2_SPOOF : EVB_CNT2.SPOOF.reg = .EVB_CNT2 := rfl
@[simp] theorem lo_EVB_CNT2_SPOOF : EVB_CNT2.SPOOF.lo = 0 := rfl
@[simp] theorem w_EVB_CNT2_SPOOF : EVB_CNT2.SPOOF.w = 16 := rfl
@[simp] theorem reg_EVB_CNT2_GUEST_STALE : EVB_CNT2.GUEST_STALE.reg = .EVB_CNT2 := rfl
@[simp] theorem lo_EVB_CNT2_GUEST_STALE : EVB_CNT2.GUEST_STALE.lo = 16 := rfl
@[simp] theorem w_EVB_CNT2_GUEST_STALE : EVB_CNT2.GUEST_STALE.w = 16 := rfl
@[simp] theorem reg_EVB_CNT2_QDROP : EVB_CNT2.QDROP.reg = .EVB_CNT2 := rfl
@[simp] theorem lo_EVB_CNT2_QDROP : EVB_CNT2.QDROP.lo = 32 := rfl
@[simp] theorem w_EVB_CNT2_QDROP : EVB_CNT2.QDROP.w = 16 := rfl
@[simp] theorem reg_EVB_CNT2_BAD_DB : EVB_CNT2.BAD_DB.reg = .EVB_CNT2 := rfl
@[simp] theorem lo_EVB_CNT2_BAD_DB : EVB_CNT2.BAD_DB.lo = 48 := rfl
@[simp] theorem w_EVB_CNT2_BAD_DB : EVB_CNT2.BAD_DB.w = 16 := rfl
@[simp] theorem reg_EVB_HIST_CFG_EN : EVB_HIST_CFG.EN.reg = .EVB_HIST_CFG := rfl
@[simp] theorem lo_EVB_HIST_CFG_EN : EVB_HIST_CFG.EN.lo = 0 := rfl
@[simp] theorem w_EVB_HIST_CFG_EN : EVB_HIST_CFG.EN.w = 1 := rfl
@[simp] theorem reg_EVB_HIST_CFG_SIZE : EVB_HIST_CFG.SIZE.reg = .EVB_HIST_CFG := rfl
@[simp] theorem lo_EVB_HIST_CFG_SIZE : EVB_HIST_CFG.SIZE.lo = 4 := rfl
@[simp] theorem w_EVB_HIST_CFG_SIZE : EVB_HIST_CFG.SIZE.w = 5 := rfl
@[simp] theorem reg_EVB_HIST_BASE_BASE : EVB_HIST_BASE.BASE.reg = .EVB_HIST_BASE := rfl
@[simp] theorem lo_EVB_HIST_BASE_BASE : EVB_HIST_BASE.BASE.lo = 20 := rfl
@[simp] theorem w_EVB_HIST_BASE_BASE : EVB_HIST_BASE.BASE.w = 26 := rfl
@[simp] theorem reg_EVB_HIST_WPTR_WPTR : EVB_HIST_WPTR.WPTR.reg = .EVB_HIST_WPTR := rfl
@[simp] theorem lo_EVB_HIST_WPTR_WPTR : EVB_HIST_WPTR.WPTR.lo = 0 := rfl
@[simp] theorem w_EVB_HIST_WPTR_WPTR : EVB_HIST_WPTR.WPTR.w = 64 := rfl
@[simp] theorem reg_EVB_HIST_HW_HW : EVB_HIST_HW.HW.reg = .EVB_HIST_HW := rfl
@[simp] theorem lo_EVB_HIST_HW_HW : EVB_HIST_HW.HW.lo = 0 := rfl
@[simp] theorem w_EVB_HIST_HW_HW : EVB_HIST_HW.HW.w = 64 := rfl
@[simp] theorem reg_EVB_ROUTE_CFG_EN : EVB_ROUTE_CFG.EN.reg = .EVB_ROUTE_CFG := rfl
@[simp] theorem lo_EVB_ROUTE_CFG_EN : EVB_ROUTE_CFG.EN.lo = 0 := rfl
@[simp] theorem w_EVB_ROUTE_CFG_EN : EVB_ROUTE_CFG.EN.w = 1 := rfl
@[simp] theorem reg_EVB_ROUTE_CFG_POOL : EVB_ROUTE_CFG.POOL.reg = .EVB_ROUTE_CFG := rfl
@[simp] theorem lo_EVB_ROUTE_CFG_POOL : EVB_ROUTE_CFG.POOL.lo = 2 := rfl
@[simp] theorem w_EVB_ROUTE_CFG_POOL : EVB_ROUTE_CFG.POOL.w = 3 := rfl
@[simp] theorem reg_EVB_ROUTE_CFG_GUEST : EVB_ROUTE_CFG.GUEST.reg = .EVB_ROUTE_CFG := rfl
@[simp] theorem lo_EVB_ROUTE_CFG_GUEST : EVB_ROUTE_CFG.GUEST.lo = 5 := rfl
@[simp] theorem w_EVB_ROUTE_CFG_GUEST : EVB_ROUTE_CFG.GUEST.w = 2 := rfl
@[simp] theorem reg_EVB_ROUTE_CFG_OWNER : EVB_ROUTE_CFG.OWNER.reg = .EVB_ROUTE_CFG := rfl
@[simp] theorem lo_EVB_ROUTE_CFG_OWNER : EVB_ROUTE_CFG.OWNER.lo = 8 := rfl
@[simp] theorem w_EVB_ROUTE_CFG_OWNER : EVB_ROUTE_CFG.OWNER.w = 8 := rfl
@[simp] theorem reg_EVB_ROUTE_CFG_PRE : EVB_ROUTE_CFG.PRE.reg = .EVB_ROUTE_CFG := rfl
@[simp] theorem lo_EVB_ROUTE_CFG_PRE : EVB_ROUTE_CFG.PRE.lo = 16 := rfl
@[simp] theorem w_EVB_ROUTE_CFG_PRE : EVB_ROUTE_CFG.PRE.w = 11 := rfl
@[simp] theorem reg_EVB_ROUTE_CFG_POST : EVB_ROUTE_CFG.POST.reg = .EVB_ROUTE_CFG := rfl
@[simp] theorem lo_EVB_ROUTE_CFG_POST : EVB_ROUTE_CFG.POST.lo = 32 := rfl
@[simp] theorem w_EVB_ROUTE_CFG_POST : EVB_ROUTE_CFG.POST.w = 11 := rfl
@[simp] theorem reg_EVB_ROUTE_CFG_MAXENT : EVB_ROUTE_CFG.MAXENT.reg = .EVB_ROUTE_CFG := rfl
@[simp] theorem lo_EVB_ROUTE_CFG_MAXENT : EVB_ROUTE_CFG.MAXENT.lo = 48 := rfl
@[simp] theorem w_EVB_ROUTE_CFG_MAXENT : EVB_ROUTE_CFG.MAXENT.w = 16 := rfl
@[simp] theorem reg_EVB_ROUTE_TMO_TIMEOUT : EVB_ROUTE_TMO.TIMEOUT.reg = .EVB_ROUTE_TMO := rfl
@[simp] theorem lo_EVB_ROUTE_TMO_TIMEOUT : EVB_ROUTE_TMO.TIMEOUT.lo = 0 := rfl
@[simp] theorem w_EVB_ROUTE_TMO_TIMEOUT : EVB_ROUTE_TMO.TIMEOUT.w = 20 := rfl
@[simp] theorem reg_EVB_ROUTE_LANES_MASK : EVB_ROUTE_LANES.MASK.reg = .EVB_ROUTE_LANES := rfl
@[simp] theorem lo_EVB_ROUTE_LANES_MASK : EVB_ROUTE_LANES.MASK.lo = 0 := rfl
@[simp] theorem w_EVB_ROUTE_LANES_MASK : EVB_ROUTE_LANES.MASK.w = 64 := rfl
@[simp] theorem reg_EVB_ROUTE_STATUS_NSUB : EVB_ROUTE_STATUS.NSUB.reg = .EVB_ROUTE_STATUS := rfl
@[simp] theorem lo_EVB_ROUTE_STATUS_NSUB : EVB_ROUTE_STATUS.NSUB.lo = 0 := rfl
@[simp] theorem w_EVB_ROUTE_STATUS_NSUB : EVB_ROUTE_STATUS.NSUB.w = 7 := rfl
@[simp] theorem reg_EVB_ROUTE_STATUS_EVT_NOROUTE : EVB_ROUTE_STATUS.EVT_NOROUTE.reg = .EVB_ROUTE_STATUS := rfl
@[simp] theorem lo_EVB_ROUTE_STATUS_EVT_NOROUTE : EVB_ROUTE_STATUS.EVT_NOROUTE.lo = 32 := rfl
@[simp] theorem w_EVB_ROUTE_STATUS_EVT_NOROUTE : EVB_ROUTE_STATUS.EVT_NOROUTE.w = 1 := rfl
@[simp] theorem reg_EVB_ROUTE_STATUS_EVT_REFUSED : EVB_ROUTE_STATUS.EVT_REFUSED.reg = .EVB_ROUTE_STATUS := rfl
@[simp] theorem lo_EVB_ROUTE_STATUS_EVT_REFUSED : EVB_ROUTE_STATUS.EVT_REFUSED.lo = 33 := rfl
@[simp] theorem w_EVB_ROUTE_STATUS_EVT_REFUSED : EVB_ROUTE_STATUS.EVT_REFUSED.w = 1 := rfl
@[simp] theorem reg_EVB_ROUTE_CNT_NOROUTE : EVB_ROUTE_CNT.NOROUTE.reg = .EVB_ROUTE_CNT := rfl
@[simp] theorem lo_EVB_ROUTE_CNT_NOROUTE : EVB_ROUTE_CNT.NOROUTE.lo = 0 := rfl
@[simp] theorem w_EVB_ROUTE_CNT_NOROUTE : EVB_ROUTE_CNT.NOROUTE.w = 32 := rfl
@[simp] theorem reg_EVB_ROUTE_CNT_DEGRADED : EVB_ROUTE_CNT.DEGRADED.reg = .EVB_ROUTE_CNT := rfl
@[simp] theorem lo_EVB_ROUTE_CNT_DEGRADED : EVB_ROUTE_CNT.DEGRADED.lo = 32 := rfl
@[simp] theorem w_EVB_ROUTE_CNT_DEGRADED : EVB_ROUTE_CNT.DEGRADED.w = 32 := rfl
@[simp] theorem reg_EVB_ROUTE_EV_POSTED : EVB_ROUTE_EV.POSTED.reg = .EVB_ROUTE_EV := rfl
@[simp] theorem lo_EVB_ROUTE_EV_POSTED : EVB_ROUTE_EV.POSTED.lo = 0 := rfl
@[simp] theorem w_EVB_ROUTE_EV_POSTED : EVB_ROUTE_EV.POSTED.w = 64 := rfl
@[simp] theorem reg_EVB_POOL_BASE_BASE : EVB_POOL_BASE.BASE.reg = .EVB_POOL_BASE := rfl
@[simp] theorem lo_EVB_POOL_BASE_BASE : EVB_POOL_BASE.BASE.lo = 30 := rfl
@[simp] theorem w_EVB_POOL_BASE_BASE : EVB_POOL_BASE.BASE.w = 16 := rfl
@[simp] theorem reg_EVB_POOL_CFG_EN : EVB_POOL_CFG.EN.reg = .EVB_POOL_CFG := rfl
@[simp] theorem lo_EVB_POOL_CFG_EN : EVB_POOL_CFG.EN.lo = 0 := rfl
@[simp] theorem w_EVB_POOL_CFG_EN : EVB_POOL_CFG.EN.w = 1 := rfl
@[simp] theorem reg_EVB_POOL_CFG_PLATES : EVB_POOL_CFG.PLATES.reg = .EVB_POOL_CFG := rfl
@[simp] theorem lo_EVB_POOL_CFG_PLATES : EVB_POOL_CFG.PLATES.lo = 4 := rfl
@[simp] theorem w_EVB_POOL_CFG_PLATES : EVB_POOL_CFG.PLATES.w = 12 := rfl
@[simp] theorem reg_EVB_POOL_CFG_LOW : EVB_POOL_CFG.LOW.reg = .EVB_POOL_CFG := rfl
@[simp] theorem lo_EVB_POOL_CFG_LOW : EVB_POOL_CFG.LOW.lo = 32 := rfl
@[simp] theorem w_EVB_POOL_CFG_LOW : EVB_POOL_CFG.LOW.w = 16 := rfl
@[simp] theorem reg_EVB_POOL_CFG_HIGH : EVB_POOL_CFG.HIGH.reg = .EVB_POOL_CFG := rfl
@[simp] theorem lo_EVB_POOL_CFG_HIGH : EVB_POOL_CFG.HIGH.lo = 48 := rfl
@[simp] theorem w_EVB_POOL_CFG_HIGH : EVB_POOL_CFG.HIGH.w = 16 := rfl
@[simp] theorem reg_EVB_POOL_STATUS_USED : EVB_POOL_STATUS.USED.reg = .EVB_POOL_STATUS := rfl
@[simp] theorem lo_EVB_POOL_STATUS_USED : EVB_POOL_STATUS.USED.lo = 0 := rfl
@[simp] theorem w_EVB_POOL_STATUS_USED : EVB_POOL_STATUS.USED.w = 42 := rfl
@[simp] theorem reg_EVB_POOL_STATUS_EVT_LOW : EVB_POOL_STATUS.EVT_LOW.reg = .EVB_POOL_STATUS := rfl
@[simp] theorem lo_EVB_POOL_STATUS_EVT_LOW : EVB_POOL_STATUS.EVT_LOW.lo = 48 := rfl
@[simp] theorem w_EVB_POOL_STATUS_EVT_LOW : EVB_POOL_STATUS.EVT_LOW.w = 1 := rfl
@[simp] theorem reg_EVB_EVQ_BASE_BASE : EVB_EVQ_BASE.BASE.reg = .EVB_EVQ_BASE := rfl
@[simp] theorem lo_EVB_EVQ_BASE_BASE : EVB_EVQ_BASE.BASE.lo = 0 := rfl
@[simp] theorem w_EVB_EVQ_BASE_BASE : EVB_EVQ_BASE.BASE.w = 46 := rfl
@[simp] theorem reg_EVB_EVQ_CFG_EN : EVB_EVQ_CFG.EN.reg = .EVB_EVQ_CFG := rfl
@[simp] theorem lo_EVB_EVQ_CFG_EN : EVB_EVQ_CFG.EN.lo = 0 := rfl
@[simp] theorem w_EVB_EVQ_CFG_EN : EVB_EVQ_CFG.EN.w = 1 := rfl
@[simp] theorem reg_EVB_EVQ_CFG_QSIZE : EVB_EVQ_CFG.QSIZE.reg = .EVB_EVQ_CFG := rfl
@[simp] theorem lo_EVB_EVQ_CFG_QSIZE : EVB_EVQ_CFG.QSIZE.lo = 4 := rfl
@[simp] theorem w_EVB_EVQ_CFG_QSIZE : EVB_EVQ_CFG.QSIZE.w = 4 := rfl
@[simp] theorem reg_EVB_EVQ_CFG_OWNER : EVB_EVQ_CFG.OWNER.reg = .EVB_EVQ_CFG := rfl
@[simp] theorem lo_EVB_EVQ_CFG_OWNER : EVB_EVQ_CFG.OWNER.lo = 8 := rfl
@[simp] theorem w_EVB_EVQ_CFG_OWNER : EVB_EVQ_CFG.OWNER.w = 8 := rfl
@[simp] theorem reg_EVB_EVQ_CFG_ROLE_EPOCH : EVB_EVQ_CFG.ROLE_EPOCH.reg = .EVB_EVQ_CFG := rfl
@[simp] theorem lo_EVB_EVQ_CFG_ROLE_EPOCH : EVB_EVQ_CFG.ROLE_EPOCH.lo = 16 := rfl
@[simp] theorem w_EVB_EVQ_CFG_ROLE_EPOCH : EVB_EVQ_CFG.ROLE_EPOCH.w = 16 := rfl
@[simp] theorem reg_EVB_EVQ_IDX_PI : EVB_EVQ_IDX.PI.reg = .EVB_EVQ_IDX := rfl
@[simp] theorem lo_EVB_EVQ_IDX_PI : EVB_EVQ_IDX.PI.lo = 0 := rfl
@[simp] theorem w_EVB_EVQ_IDX_PI : EVB_EVQ_IDX.PI.w = 16 := rfl
@[simp] theorem reg_EVB_EVQ_IDX_CI : EVB_EVQ_IDX.CI.reg = .EVB_EVQ_IDX := rfl
@[simp] theorem lo_EVB_EVQ_IDX_CI : EVB_EVQ_IDX.CI.lo = 16 := rfl
@[simp] theorem w_EVB_EVQ_IDX_CI : EVB_EVQ_IDX.CI.w = 16 := rfl
@[simp] theorem reg_EVB_EVQ_IDX_BAD_DB : EVB_EVQ_IDX.BAD_DB.reg = .EVB_EVQ_IDX := rfl
@[simp] theorem lo_EVB_EVQ_IDX_BAD_DB : EVB_EVQ_IDX.BAD_DB.lo = 32 := rfl
@[simp] theorem w_EVB_EVQ_IDX_BAD_DB : EVB_EVQ_IDX.BAD_DB.w = 16 := rfl
@[simp] theorem reg_EVB_EVQ_IDX_STALE : EVB_EVQ_IDX.STALE.reg = .EVB_EVQ_IDX := rfl
@[simp] theorem lo_EVB_EVQ_IDX_STALE : EVB_EVQ_IDX.STALE.lo = 48 := rfl
@[simp] theorem w_EVB_EVQ_IDX_STALE : EVB_EVQ_IDX.STALE.w = 16 := rfl
@[simp] theorem reg_CORE_CTL_RUN : CORE_CTL.RUN.reg = .CORE_CTL := rfl
@[simp] theorem lo_CORE_CTL_RUN : CORE_CTL.RUN.lo = 0 := rfl
@[simp] theorem w_CORE_CTL_RUN : CORE_CTL.RUN.w = 1 := rfl
@[simp] theorem reg_CORE_CTL_CORE_RESET : CORE_CTL.CORE_RESET.reg = .CORE_CTL := rfl
@[simp] theorem lo_CORE_CTL_CORE_RESET : CORE_CTL.CORE_RESET.lo = 1 := rfl
@[simp] theorem w_CORE_CTL_CORE_RESET : CORE_CTL.CORE_RESET.w = 1 := rfl
@[simp] theorem reg_CORE_RVBAR_ADDR : CORE_RVBAR.ADDR.reg = .CORE_RVBAR := rfl
@[simp] theorem lo_CORE_RVBAR_ADDR : CORE_RVBAR.ADDR.lo = 2 := rfl
@[simp] theorem w_CORE_RVBAR_ADDR : CORE_RVBAR.ADDR.w = 44 := rfl
@[simp] theorem reg_CORE_STATUS_STATE : CORE_STATUS.STATE.reg = .CORE_STATUS := rfl
@[simp] theorem lo_CORE_STATUS_STATE : CORE_STATUS.STATE.lo = 0 := rfl
@[simp] theorem w_CORE_STATUS_STATE : CORE_STATUS.STATE.w = 3 := rfl
@[simp] theorem reg_CORE_STATUS_NS : CORE_STATUS.NS.reg = .CORE_STATUS := rfl
@[simp] theorem lo_CORE_STATUS_NS : CORE_STATUS.NS.lo = 3 := rfl
@[simp] theorem w_CORE_STATUS_NS : CORE_STATUS.NS.w = 1 := rfl
@[simp] theorem reg_CORE_STATUS_PRIV : CORE_STATUS.PRIV.reg = .CORE_STATUS := rfl
@[simp] theorem lo_CORE_STATUS_PRIV : CORE_STATUS.PRIV.lo = 4 := rfl
@[simp] theorem w_CORE_STATUS_PRIV : CORE_STATUS.PRIV.w = 2 := rfl
@[simp] theorem reg_CORE_STATUS_LOOP_FAULT : CORE_STATUS.LOOP_FAULT.reg = .CORE_STATUS := rfl
@[simp] theorem lo_CORE_STATUS_LOOP_FAULT : CORE_STATUS.LOOP_FAULT.lo = 6 := rfl
@[simp] theorem w_CORE_STATUS_LOOP_FAULT : CORE_STATUS.LOOP_FAULT.w = 1 := rfl
@[simp] theorem reg_CORE_STATUS_PRF_OPEN : CORE_STATUS.PRF_OPEN.reg = .CORE_STATUS := rfl
@[simp] theorem lo_CORE_STATUS_PRF_OPEN : CORE_STATUS.PRF_OPEN.lo = 7 := rfl
@[simp] theorem w_CORE_STATUS_PRF_OPEN : CORE_STATUS.PRF_OPEN.w = 1 := rfl
@[simp] theorem reg_CORE_MTIMECMP_CMP : CORE_MTIMECMP.CMP.reg = .CORE_MTIMECMP := rfl
@[simp] theorem lo_CORE_MTIMECMP_CMP : CORE_MTIMECMP.CMP.lo = 0 := rfl
@[simp] theorem w_CORE_MTIMECMP_CMP : CORE_MTIMECMP.CMP.w = 64 := rfl
@[simp] theorem reg_CORE_MSIP_MSIP : CORE_MSIP.MSIP.reg = .CORE_MSIP := rfl
@[simp] theorem lo_CORE_MSIP_MSIP : CORE_MSIP.MSIP.lo = 0 := rfl
@[simp] theorem w_CORE_MSIP_MSIP : CORE_MSIP.MSIP.w = 1 := rfl
@[simp] theorem reg_CORE_SSIP_SET_SSIP : CORE_SSIP_SET.SSIP.reg = .CORE_SSIP_SET := rfl
@[simp] theorem lo_CORE_SSIP_SET_SSIP : CORE_SSIP_SET.SSIP.lo = 0 := rfl
@[simp] theorem w_CORE_SSIP_SET_SSIP : CORE_SSIP_SET.SSIP.w = 1 := rfl
@[simp] theorem reg_CORE_CLAIM_M_SOURCE : CORE_CLAIM_M.SOURCE.reg = .CORE_CLAIM_M := rfl
@[simp] theorem lo_CORE_CLAIM_M_SOURCE : CORE_CLAIM_M.SOURCE.lo = 0 := rfl
@[simp] theorem w_CORE_CLAIM_M_SOURCE : CORE_CLAIM_M.SOURCE.w = 10 := rfl
@[simp] theorem reg_CORE_CLAIM_M_VALID : CORE_CLAIM_M.VALID.reg = .CORE_CLAIM_M := rfl
@[simp] theorem lo_CORE_CLAIM_M_VALID : CORE_CLAIM_M.VALID.lo = 15 := rfl
@[simp] theorem w_CORE_CLAIM_M_VALID : CORE_CLAIM_M.VALID.w = 1 := rfl
@[simp] theorem reg_CORE_CLAIM_S_SOURCE : CORE_CLAIM_S.SOURCE.reg = .CORE_CLAIM_S := rfl
@[simp] theorem lo_CORE_CLAIM_S_SOURCE : CORE_CLAIM_S.SOURCE.lo = 0 := rfl
@[simp] theorem w_CORE_CLAIM_S_SOURCE : CORE_CLAIM_S.SOURCE.w = 10 := rfl
@[simp] theorem reg_CORE_CLAIM_S_VALID : CORE_CLAIM_S.VALID.reg = .CORE_CLAIM_S := rfl
@[simp] theorem lo_CORE_CLAIM_S_VALID : CORE_CLAIM_S.VALID.lo = 15 := rfl
@[simp] theorem w_CORE_CLAIM_S_VALID : CORE_CLAIM_S.VALID.w = 1 := rfl
@[simp] theorem reg_CORE_IRQ_CNT_FIFO_FULL : CORE_IRQ_CNT.FIFO_FULL.reg = .CORE_IRQ_CNT := rfl
@[simp] theorem lo_CORE_IRQ_CNT_FIFO_FULL : CORE_IRQ_CNT.FIFO_FULL.lo = 0 := rfl
@[simp] theorem w_CORE_IRQ_CNT_FIFO_FULL : CORE_IRQ_CNT.FIFO_FULL.w = 32 := rfl
@[simp] theorem reg_L2_CTL_EN : L2_CTL.EN.reg = .L2_CTL := rfl
@[simp] theorem lo_L2_CTL_EN : L2_CTL.EN.lo = 0 := rfl
@[simp] theorem w_L2_CTL_EN : L2_CTL.EN.w = 1 := rfl
@[simp] theorem reg_L2_CTL_FLUSH : L2_CTL.FLUSH.reg = .L2_CTL := rfl
@[simp] theorem lo_L2_CTL_FLUSH : L2_CTL.FLUSH.lo = 1 := rfl
@[simp] theorem w_L2_CTL_FLUSH : L2_CTL.FLUSH.w = 1 := rfl
@[simp] theorem reg_L2_CTL_INV : L2_CTL.INV.reg = .L2_CTL := rfl
@[simp] theorem lo_L2_CTL_INV : L2_CTL.INV.lo = 2 := rfl
@[simp] theorem w_L2_CTL_INV : L2_CTL.INV.w = 1 := rfl
@[simp] theorem reg_L2_STATUS_DIRTY : L2_STATUS.DIRTY.reg = .L2_STATUS := rfl
@[simp] theorem lo_L2_STATUS_DIRTY : L2_STATUS.DIRTY.lo = 0 := rfl
@[simp] theorem w_L2_STATUS_DIRTY : L2_STATUS.DIRTY.w = 16 := rfl
@[simp] theorem reg_L2_STATUS_VALID : L2_STATUS.VALID.reg = .L2_STATUS := rfl
@[simp] theorem lo_L2_STATUS_VALID : L2_STATUS.VALID.lo = 16 := rfl
@[simp] theorem w_L2_STATUS_VALID : L2_STATUS.VALID.w = 16 := rfl
@[simp] theorem reg_L2_STATUS_READY : L2_STATUS.READY.reg = .L2_STATUS := rfl
@[simp] theorem lo_L2_STATUS_READY : L2_STATUS.READY.lo = 32 := rfl
@[simp] theorem w_L2_STATUS_READY : L2_STATUS.READY.w = 1 := rfl
@[simp] theorem reg_L2_STATUS_ENABLED : L2_STATUS.ENABLED.reg = .L2_STATUS := rfl
@[simp] theorem lo_L2_STATUS_ENABLED : L2_STATUS.ENABLED.lo = 33 := rfl
@[simp] theorem w_L2_STATUS_ENABLED : L2_STATUS.ENABLED.w = 1 := rfl
@[simp] theorem reg_L2_STATUS_LB_USED : L2_STATUS.LB_USED.reg = .L2_STATUS := rfl
@[simp] theorem lo_L2_STATUS_LB_USED : L2_STATUS.LB_USED.lo = 34 := rfl
@[simp] theorem w_L2_STATUS_LB_USED : L2_STATUS.LB_USED.w = 5 := rfl
@[simp] theorem reg_L2_STATUS_DISABLE_REFUSED : L2_STATUS.DISABLE_REFUSED.reg = .L2_STATUS := rfl
@[simp] theorem lo_L2_STATUS_DISABLE_REFUSED : L2_STATUS.DISABLE_REFUSED.lo = 40 := rfl
@[simp] theorem w_L2_STATUS_DISABLE_REFUSED : L2_STATUS.DISABLE_REFUSED.w = 1 := rfl
@[simp] theorem reg_L2_STATUS_INV_REFUSED : L2_STATUS.INV_REFUSED.reg = .L2_STATUS := rfl
@[simp] theorem lo_L2_STATUS_INV_REFUSED : L2_STATUS.INV_REFUSED.lo = 41 := rfl
@[simp] theorem w_L2_STATUS_INV_REFUSED : L2_STATUS.INV_REFUSED.w = 1 := rfl
@[simp] theorem reg_L2_HITS_HITS : L2_HITS.HITS.reg = .L2_HITS := rfl
@[simp] theorem lo_L2_HITS_HITS : L2_HITS.HITS.lo = 0 := rfl
@[simp] theorem w_L2_HITS_HITS : L2_HITS.HITS.w = 64 := rfl
@[simp] theorem reg_L2_MISSES_MISSES : L2_MISSES.MISSES.reg = .L2_MISSES := rfl
@[simp] theorem lo_L2_MISSES_MISSES : L2_MISSES.MISSES.lo = 0 := rfl
@[simp] theorem w_L2_MISSES_MISSES : L2_MISSES.MISSES.w = 64 := rfl
@[simp] theorem reg_L2_CNT0_SNOOPS : L2_CNT0.SNOOPS.reg = .L2_CNT0 := rfl
@[simp] theorem lo_L2_CNT0_SNOOPS : L2_CNT0.SNOOPS.lo = 0 := rfl
@[simp] theorem w_L2_CNT0_SNOOPS : L2_CNT0.SNOOPS.w = 32 := rfl
@[simp] theorem reg_L2_CNT0_SNOOP_LB : L2_CNT0.SNOOP_LB.reg = .L2_CNT0 := rfl
@[simp] theorem lo_L2_CNT0_SNOOP_LB : L2_CNT0.SNOOP_LB.lo = 32 := rfl
@[simp] theorem w_L2_CNT0_SNOOP_LB : L2_CNT0.SNOOP_LB.w = 16 := rfl
@[simp] theorem reg_L2_CNT0_WAKES : L2_CNT0.WAKES.reg = .L2_CNT0 := rfl
@[simp] theorem lo_L2_CNT0_WAKES : L2_CNT0.WAKES.lo = 48 := rfl
@[simp] theorem w_L2_CNT0_WAKES : L2_CNT0.WAKES.w = 16 := rfl
@[simp] theorem reg_DIR_STATUS_READY : DIR_STATUS.READY.reg = .DIR_STATUS := rfl
@[simp] theorem lo_DIR_STATUS_READY : DIR_STATUS.READY.lo = 0 := rfl
@[simp] theorem w_DIR_STATUS_READY : DIR_STATUS.READY.w = 32 := rfl
@[simp] theorem reg_DIR_CL_FENCED_MASK : DIR_CL_FENCED.MASK.reg = .DIR_CL_FENCED := rfl
@[simp] theorem lo_DIR_CL_FENCED_MASK : DIR_CL_FENCED.MASK.lo = 0 := rfl
@[simp] theorem w_DIR_CL_FENCED_MASK : DIR_CL_FENCED.MASK.w = 48 := rfl
@[simp] theorem reg_DIR_PROBE_ADDR_LINE : DIR_PROBE_ADDR.LINE.reg = .DIR_PROBE_ADDR := rfl
@[simp] theorem lo_DIR_PROBE_ADDR_LINE : DIR_PROBE_ADDR.LINE.lo = 7 := rfl
@[simp] theorem w_DIR_PROBE_ADDR_LINE : DIR_PROBE_ADDR.LINE.w = 39 := rfl
@[simp] theorem reg_DIR_PROBE_DATA_STATE : DIR_PROBE_DATA.STATE.reg = .DIR_PROBE_DATA := rfl
@[simp] theorem lo_DIR_PROBE_DATA_STATE : DIR_PROBE_DATA.STATE.lo = 0 := rfl
@[simp] theorem w_DIR_PROBE_DATA_STATE : DIR_PROBE_DATA.STATE.w = 2 := rfl
@[simp] theorem reg_DIR_PROBE_DATA_BCAST : DIR_PROBE_DATA.BCAST.reg = .DIR_PROBE_DATA := rfl
@[simp] theorem lo_DIR_PROBE_DATA_BCAST : DIR_PROBE_DATA.BCAST.lo = 2 := rfl
@[simp] theorem w_DIR_PROBE_DATA_BCAST : DIR_PROBE_DATA.BCAST.w = 1 := rfl
@[simp] theorem reg_DIR_PROBE_DATA_PIN : DIR_PROBE_DATA.PIN.reg = .DIR_PROBE_DATA := rfl
@[simp] theorem lo_DIR_PROBE_DATA_PIN : DIR_PROBE_DATA.PIN.lo = 3 := rfl
@[simp] theorem w_DIR_PROBE_DATA_PIN : DIR_PROBE_DATA.PIN.w = 1 := rfl
@[simp] theorem reg_DIR_PROBE_DATA_PV : DIR_PROBE_DATA.PV.reg = .DIR_PROBE_DATA := rfl
@[simp] theorem lo_DIR_PROBE_DATA_PV : DIR_PROBE_DATA.PV.lo = 4 := rfl
@[simp] theorem w_DIR_PROBE_DATA_PV : DIR_PROBE_DATA.PV.w = 4 := rfl
@[simp] theorem reg_DIR_PROBE_DATA_P0 : DIR_PROBE_DATA.P0.reg = .DIR_PROBE_DATA := rfl
@[simp] theorem lo_DIR_PROBE_DATA_P0 : DIR_PROBE_DATA.P0.lo = 8 := rfl
@[simp] theorem w_DIR_PROBE_DATA_P0 : DIR_PROBE_DATA.P0.w = 6 := rfl
@[simp] theorem reg_DIR_PROBE_DATA_P1 : DIR_PROBE_DATA.P1.reg = .DIR_PROBE_DATA := rfl
@[simp] theorem lo_DIR_PROBE_DATA_P1 : DIR_PROBE_DATA.P1.lo = 14 := rfl
@[simp] theorem w_DIR_PROBE_DATA_P1 : DIR_PROBE_DATA.P1.w = 6 := rfl
@[simp] theorem reg_DIR_PROBE_DATA_P2 : DIR_PROBE_DATA.P2.reg = .DIR_PROBE_DATA := rfl
@[simp] theorem lo_DIR_PROBE_DATA_P2 : DIR_PROBE_DATA.P2.lo = 20 := rfl
@[simp] theorem w_DIR_PROBE_DATA_P2 : DIR_PROBE_DATA.P2.w = 6 := rfl
@[simp] theorem reg_DIR_PROBE_DATA_P3 : DIR_PROBE_DATA.P3.reg = .DIR_PROBE_DATA := rfl
@[simp] theorem lo_DIR_PROBE_DATA_P3 : DIR_PROBE_DATA.P3.lo = 26 := rfl
@[simp] theorem w_DIR_PROBE_DATA_P3 : DIR_PROBE_DATA.P3.w = 6 := rfl
@[simp] theorem reg_DIR_PROBE_DATA_WAY : DIR_PROBE_DATA.WAY.reg = .DIR_PROBE_DATA := rfl
@[simp] theorem lo_DIR_PROBE_DATA_WAY : DIR_PROBE_DATA.WAY.lo = 32 := rfl
@[simp] theorem w_DIR_PROBE_DATA_WAY : DIR_PROBE_DATA.WAY.w = 4 := rfl
@[simp] theorem reg_DIR_PROBE_DATA_HIT : DIR_PROBE_DATA.HIT.reg = .DIR_PROBE_DATA := rfl
@[simp] theorem lo_DIR_PROBE_DATA_HIT : DIR_PROBE_DATA.HIT.lo = 36 := rfl
@[simp] theorem w_DIR_PROBE_DATA_HIT : DIR_PROBE_DATA.HIT.w = 1 := rfl
@[simp] theorem reg_DIR_PROBE_DATA_BUSY : DIR_PROBE_DATA.BUSY.reg = .DIR_PROBE_DATA := rfl
@[simp] theorem lo_DIR_PROBE_DATA_BUSY : DIR_PROBE_DATA.BUSY.lo = 37 := rfl
@[simp] theorem w_DIR_PROBE_DATA_BUSY : DIR_PROBE_DATA.BUSY.w = 1 := rfl
@[simp] theorem reg_DIR_PROBE_DATA_DONE : DIR_PROBE_DATA.DONE.reg = .DIR_PROBE_DATA := rfl
@[simp] theorem lo_DIR_PROBE_DATA_DONE : DIR_PROBE_DATA.DONE.lo = 38 := rfl
@[simp] theorem w_DIR_PROBE_DATA_DONE : DIR_PROBE_DATA.DONE.w = 1 := rfl
@[simp] theorem reg_DIR_SLICE_STATUS_VALID : DIR_SLICE_STATUS.VALID.reg = .DIR_SLICE_STATUS := rfl
@[simp] theorem lo_DIR_SLICE_STATUS_VALID : DIR_SLICE_STATUS.VALID.lo = 0 := rfl
@[simp] theorem w_DIR_SLICE_STATUS_VALID : DIR_SLICE_STATUS.VALID.w = 18 := rfl
@[simp] theorem reg_DIR_SLICE_STATUS_PENDING : DIR_SLICE_STATUS.PENDING.reg = .DIR_SLICE_STATUS := rfl
@[simp] theorem lo_DIR_SLICE_STATUS_PENDING : DIR_SLICE_STATUS.PENDING.lo = 32 := rfl
@[simp] theorem w_DIR_SLICE_STATUS_PENDING : DIR_SLICE_STATUS.PENDING.w = 9 := rfl
@[simp] theorem reg_DIR_SLICE_STATUS_EVT_PIN_EVICT : DIR_SLICE_STATUS.EVT_PIN_EVICT.reg = .DIR_SLICE_STATUS := rfl
@[simp] theorem lo_DIR_SLICE_STATUS_EVT_PIN_EVICT : DIR_SLICE_STATUS.EVT_PIN_EVICT.lo = 48 := rfl
@[simp] theorem w_DIR_SLICE_STATUS_EVT_PIN_EVICT : DIR_SLICE_STATUS.EVT_PIN_EVICT.w = 1 := rfl
@[simp] theorem reg_DIR_SLICE_STATUS_EVT_SWEEP : DIR_SLICE_STATUS.EVT_SWEEP.reg = .DIR_SLICE_STATUS := rfl
@[simp] theorem lo_DIR_SLICE_STATUS_EVT_SWEEP : DIR_SLICE_STATUS.EVT_SWEEP.lo = 49 := rfl
@[simp] theorem w_DIR_SLICE_STATUS_EVT_SWEEP : DIR_SLICE_STATUS.EVT_SWEEP.w = 1 := rfl
@[simp] theorem reg_DIR_SLICE_STATUS_EVT_POISONED : DIR_SLICE_STATUS.EVT_POISONED.reg = .DIR_SLICE_STATUS := rfl
@[simp] theorem lo_DIR_SLICE_STATUS_EVT_POISONED : DIR_SLICE_STATUS.EVT_POISONED.lo = 50 := rfl
@[simp] theorem w_DIR_SLICE_STATUS_EVT_POISONED : DIR_SLICE_STATUS.EVT_POISONED.w = 1 := rfl
@[simp] theorem reg_DIR_SLICE_CNT0_REQUESTS : DIR_SLICE_CNT0.REQUESTS.reg = .DIR_SLICE_CNT0 := rfl
@[simp] theorem lo_DIR_SLICE_CNT0_REQUESTS : DIR_SLICE_CNT0.REQUESTS.lo = 0 := rfl
@[simp] theorem w_DIR_SLICE_CNT0_REQUESTS : DIR_SLICE_CNT0.REQUESTS.w = 64 := rfl
@[simp] theorem reg_DIR_SLICE_CNT1_SNOOPS : DIR_SLICE_CNT1.SNOOPS.reg = .DIR_SLICE_CNT1 := rfl
@[simp] theorem lo_DIR_SLICE_CNT1_SNOOPS : DIR_SLICE_CNT1.SNOOPS.lo = 0 := rfl
@[simp] theorem w_DIR_SLICE_CNT1_SNOOPS : DIR_SLICE_CNT1.SNOOPS.w = 32 := rfl
@[simp] theorem reg_DIR_SLICE_CNT1_BCAST_SNOOPS : DIR_SLICE_CNT1.BCAST_SNOOPS.reg = .DIR_SLICE_CNT1 := rfl
@[simp] theorem lo_DIR_SLICE_CNT1_BCAST_SNOOPS : DIR_SLICE_CNT1.BCAST_SNOOPS.lo = 32 := rfl
@[simp] theorem w_DIR_SLICE_CNT1_BCAST_SNOOPS : DIR_SLICE_CNT1.BCAST_SNOOPS.w = 32 := rfl
@[simp] theorem reg_DIR_SLICE_CNT2_EVICTIONS : DIR_SLICE_CNT2.EVICTIONS.reg = .DIR_SLICE_CNT2 := rfl
@[simp] theorem lo_DIR_SLICE_CNT2_EVICTIONS : DIR_SLICE_CNT2.EVICTIONS.lo = 0 := rfl
@[simp] theorem w_DIR_SLICE_CNT2_EVICTIONS : DIR_SLICE_CNT2.EVICTIONS.w = 32 := rfl
@[simp] theorem reg_DIR_SLICE_CNT2_PIN_EVICTIONS : DIR_SLICE_CNT2.PIN_EVICTIONS.reg = .DIR_SLICE_CNT2 := rfl
@[simp] theorem lo_DIR_SLICE_CNT2_PIN_EVICTIONS : DIR_SLICE_CNT2.PIN_EVICTIONS.lo = 32 := rfl
@[simp] theorem w_DIR_SLICE_CNT2_PIN_EVICTIONS : DIR_SLICE_CNT2.PIN_EVICTIONS.w = 16 := rfl
@[simp] theorem reg_DIR_SLICE_CNT2_STALE_NOTICES : DIR_SLICE_CNT2.STALE_NOTICES.reg = .DIR_SLICE_CNT2 := rfl
@[simp] theorem lo_DIR_SLICE_CNT2_STALE_NOTICES : DIR_SLICE_CNT2.STALE_NOTICES.lo = 48 := rfl
@[simp] theorem w_DIR_SLICE_CNT2_STALE_NOTICES : DIR_SLICE_CNT2.STALE_NOTICES.w = 16 := rfl
@[simp] theorem reg_DIR_SLICE_CNT3_ORDERED : DIR_SLICE_CNT3.ORDERED.reg = .DIR_SLICE_CNT3 := rfl
@[simp] theorem lo_DIR_SLICE_CNT3_ORDERED : DIR_SLICE_CNT3.ORDERED.lo = 0 := rfl
@[simp] theorem w_DIR_SLICE_CNT3_ORDERED : DIR_SLICE_CNT3.ORDERED.w = 32 := rfl
@[simp] theorem reg_DIR_SLICE_CNT3_POISONED : DIR_SLICE_CNT3.POISONED.reg = .DIR_SLICE_CNT3 := rfl
@[simp] theorem lo_DIR_SLICE_CNT3_POISONED : DIR_SLICE_CNT3.POISONED.lo = 32 := rfl
@[simp] theorem w_DIR_SLICE_CNT3_POISONED : DIR_SLICE_CNT3.POISONED.w = 16 := rfl
@[simp] theorem reg_DIR_SLICE_CNT3_OWNER_MISS : DIR_SLICE_CNT3.OWNER_MISS.reg = .DIR_SLICE_CNT3 := rfl
@[simp] theorem lo_DIR_SLICE_CNT3_OWNER_MISS : DIR_SLICE_CNT3.OWNER_MISS.lo = 48 := rfl
@[simp] theorem w_DIR_SLICE_CNT3_OWNER_MISS : DIR_SLICE_CNT3.OWNER_MISS.w = 16 := rfl
@[simp] theorem reg_PRF_CFG_DEFER_BUDGET : PRF_CFG.DEFER_BUDGET.reg = .PRF_CFG := rfl
@[simp] theorem lo_PRF_CFG_DEFER_BUDGET : PRF_CFG.DEFER_BUDGET.lo = 0 := rfl
@[simp] theorem w_PRF_CFG_DEFER_BUDGET : PRF_CFG.DEFER_BUDGET.w = 16 := rfl
@[simp] theorem reg_PRF_CFG_HOLD_MAX : PRF_CFG.HOLD_MAX.reg = .PRF_CFG := rfl
@[simp] theorem lo_PRF_CFG_HOLD_MAX : PRF_CFG.HOLD_MAX.lo = 16 := rfl
@[simp] theorem w_PRF_CFG_HOLD_MAX : PRF_CFG.HOLD_MAX.w = 16 := rfl
@[simp] theorem reg_PRF_CFG_GROUP_TMO : PRF_CFG.GROUP_TMO.reg = .PRF_CFG := rfl
@[simp] theorem lo_PRF_CFG_GROUP_TMO : PRF_CFG.GROUP_TMO.lo = 32 := rfl
@[simp] theorem w_PRF_CFG_GROUP_TMO : PRF_CFG.GROUP_TMO.w = 20 := rfl
@[simp] theorem reg_PRF_STATUS_READY : PRF_STATUS.READY.reg = .PRF_STATUS := rfl
@[simp] theorem lo_PRF_STATUS_READY : PRF_STATUS.READY.lo = 0 := rfl
@[simp] theorem w_PRF_STATUS_READY : PRF_STATUS.READY.w = 1 := rfl
@[simp] theorem reg_PRF_STATUS_GROUPS_USED : PRF_STATUS.GROUPS_USED.reg = .PRF_STATUS := rfl
@[simp] theorem lo_PRF_STATUS_GROUPS_USED : PRF_STATUS.GROUPS_USED.lo = 16 := rfl
@[simp] theorem w_PRF_STATUS_GROUPS_USED : PRF_STATUS.GROUPS_USED.w = 13 := rfl
@[simp] theorem reg_PRF_STATUS_EVT_TIMEOUT : PRF_STATUS.EVT_TIMEOUT.reg = .PRF_STATUS := rfl
@[simp] theorem lo_PRF_STATUS_EVT_TIMEOUT : PRF_STATUS.EVT_TIMEOUT.lo = 32 := rfl
@[simp] theorem w_PRF_STATUS_EVT_TIMEOUT : PRF_STATUS.EVT_TIMEOUT.w = 1 := rfl
@[simp] theorem reg_PRF_STATUS_EVT_DENIED : PRF_STATUS.EVT_DENIED.reg = .PRF_STATUS := rfl
@[simp] theorem lo_PRF_STATUS_EVT_DENIED : PRF_STATUS.EVT_DENIED.lo = 33 := rfl
@[simp] theorem w_PRF_STATUS_EVT_DENIED : PRF_STATUS.EVT_DENIED.w = 1 := rfl
@[simp] theorem reg_PRF_STATUS_EVT_STALE : PRF_STATUS.EVT_STALE.reg = .PRF_STATUS := rfl
@[simp] theorem lo_PRF_STATUS_EVT_STALE : PRF_STATUS.EVT_STALE.lo = 34 := rfl
@[simp] theorem w_PRF_STATUS_EVT_STALE : PRF_STATUS.EVT_STALE.w = 1 := rfl
@[simp] theorem reg_PRF_STATUS_EVT_QUOTA : PRF_STATUS.EVT_QUOTA.reg = .PRF_STATUS := rfl
@[simp] theorem lo_PRF_STATUS_EVT_QUOTA : PRF_STATUS.EVT_QUOTA.lo = 35 := rfl
@[simp] theorem w_PRF_STATUS_EVT_QUOTA : PRF_STATUS.EVT_QUOTA.w = 1 := rfl
@[simp] theorem reg_PRF_STATUS_EVT_OVERFLOW : PRF_STATUS.EVT_OVERFLOW.reg = .PRF_STATUS := rfl
@[simp] theorem lo_PRF_STATUS_EVT_OVERFLOW : PRF_STATUS.EVT_OVERFLOW.lo = 36 := rfl
@[simp] theorem w_PRF_STATUS_EVT_OVERFLOW : PRF_STATUS.EVT_OVERFLOW.w = 1 := rfl
@[simp] theorem reg_PRF_CNT0_GROUP_COMMITS : PRF_CNT0.GROUP_COMMITS.reg = .PRF_CNT0 := rfl
@[simp] theorem lo_PRF_CNT0_GROUP_COMMITS : PRF_CNT0.GROUP_COMMITS.lo = 0 := rfl
@[simp] theorem w_PRF_CNT0_GROUP_COMMITS : PRF_CNT0.GROUP_COMMITS.w = 64 := rfl
@[simp] theorem reg_PRF_CNT1_SINGLE_COMMITS : PRF_CNT1.SINGLE_COMMITS.reg = .PRF_CNT1 := rfl
@[simp] theorem lo_PRF_CNT1_SINGLE_COMMITS : PRF_CNT1.SINGLE_COMMITS.lo = 0 := rfl
@[simp] theorem w_PRF_CNT1_SINGLE_COMMITS : PRF_CNT1.SINGLE_COMMITS.w = 64 := rfl
@[simp] theorem reg_PRF_CNT2_TIMEOUTS : PRF_CNT2.TIMEOUTS.reg = .PRF_CNT2 := rfl
@[simp] theorem lo_PRF_CNT2_TIMEOUTS : PRF_CNT2.TIMEOUTS.lo = 0 := rfl
@[simp] theorem w_PRF_CNT2_TIMEOUTS : PRF_CNT2.TIMEOUTS.w = 16 := rfl
@[simp] theorem reg_PRF_CNT2_STALE : PRF_CNT2.STALE.reg = .PRF_CNT2 := rfl
@[simp] theorem lo_PRF_CNT2_STALE : PRF_CNT2.STALE.lo = 16 := rfl
@[simp] theorem w_PRF_CNT2_STALE : PRF_CNT2.STALE.w = 16 := rfl
@[simp] theorem reg_PRF_CNT2_DENIED : PRF_CNT2.DENIED.reg = .PRF_CNT2 := rfl
@[simp] theorem lo_PRF_CNT2_DENIED : PRF_CNT2.DENIED.lo = 32 := rfl
@[simp] theorem w_PRF_CNT2_DENIED : PRF_CNT2.DENIED.w = 16 := rfl
@[simp] theorem reg_PRF_CNT2_QUOTA : PRF_CNT2.QUOTA.reg = .PRF_CNT2 := rfl
@[simp] theorem lo_PRF_CNT2_QUOTA : PRF_CNT2.QUOTA.lo = 48 := rfl
@[simp] theorem w_PRF_CNT2_QUOTA : PRF_CNT2.QUOTA.w = 16 := rfl
@[simp] theorem reg_PRF_CNT3_DB_RELEASED : PRF_CNT3.DB_RELEASED.reg = .PRF_CNT3 := rfl
@[simp] theorem lo_PRF_CNT3_DB_RELEASED : PRF_CNT3.DB_RELEASED.lo = 0 := rfl
@[simp] theorem w_PRF_CNT3_DB_RELEASED : PRF_CNT3.DB_RELEASED.w = 64 := rfl
@[simp] theorem reg_PRF_CAUSE_CNT_ABORTS : PRF_CAUSE_CNT.ABORTS.reg = .PRF_CAUSE_CNT := rfl
@[simp] theorem lo_PRF_CAUSE_CNT_ABORTS : PRF_CAUSE_CNT.ABORTS.lo = 0 := rfl
@[simp] theorem w_PRF_CAUSE_CNT_ABORTS : PRF_CAUSE_CNT.ABORTS.w = 64 := rfl
@[simp] theorem reg_PRF_SLICE_GRP_LIMIT : PRF_SLICE_GRP.LIMIT.reg = .PRF_SLICE_GRP := rfl
@[simp] theorem lo_PRF_SLICE_GRP_LIMIT : PRF_SLICE_GRP.LIMIT.lo = 0 := rfl
@[simp] theorem w_PRF_SLICE_GRP_LIMIT : PRF_SLICE_GRP.LIMIT.w = 13 := rfl
@[simp] theorem reg_PRF_SLICE_GRP_USED : PRF_SLICE_GRP.USED.reg = .PRF_SLICE_GRP := rfl
@[simp] theorem lo_PRF_SLICE_GRP_USED : PRF_SLICE_GRP.USED.lo = 16 := rfl
@[simp] theorem w_PRF_SLICE_GRP_USED : PRF_SLICE_GRP.USED.w = 13 := rfl
@[simp] theorem reg_PRF_SLICE_GRP_OVER_QUOTA : PRF_SLICE_GRP.OVER_QUOTA.reg = .PRF_SLICE_GRP := rfl
@[simp] theorem lo_PRF_SLICE_GRP_OVER_QUOTA : PRF_SLICE_GRP.OVER_QUOTA.lo = 32 := rfl
@[simp] theorem w_PRF_SLICE_GRP_OVER_QUOTA : PRF_SLICE_GRP.OVER_QUOTA.w = 1 := rfl
@[simp] theorem reg_PRF_GRP_STATUS_STATE : PRF_GRP_STATUS.STATE.reg = .PRF_GRP_STATUS := rfl
@[simp] theorem lo_PRF_GRP_STATUS_STATE : PRF_GRP_STATUS.STATE.lo = 0 := rfl
@[simp] theorem w_PRF_GRP_STATUS_STATE : PRF_GRP_STATUS.STATE.w = 2 := rfl
@[simp] theorem reg_PRF_GRP_STATUS_NS : PRF_GRP_STATUS.NS.reg = .PRF_GRP_STATUS := rfl
@[simp] theorem lo_PRF_GRP_STATUS_NS : PRF_GRP_STATUS.NS.lo = 3 := rfl
@[simp] theorem w_PRF_GRP_STATUS_NS : PRF_GRP_STATUS.NS.w = 1 := rfl
@[simp] theorem reg_PRF_GRP_STATUS_SLICE : PRF_GRP_STATUS.SLICE.reg = .PRF_GRP_STATUS := rfl
@[simp] theorem lo_PRF_GRP_STATUS_SLICE : PRF_GRP_STATUS.SLICE.lo = 8 := rfl
@[simp] theorem w_PRF_GRP_STATUS_SLICE : PRF_GRP_STATUS.SLICE.w = 8 := rfl
@[simp] theorem reg_PRF_GRP_STATUS_ROLE_EPOCH : PRF_GRP_STATUS.ROLE_EPOCH.reg = .PRF_GRP_STATUS := rfl
@[simp] theorem lo_PRF_GRP_STATUS_ROLE_EPOCH : PRF_GRP_STATUS.ROLE_EPOCH.lo = 16 := rfl
@[simp] theorem w_PRF_GRP_STATUS_ROLE_EPOCH : PRF_GRP_STATUS.ROLE_EPOCH.w = 16 := rfl
@[simp] theorem reg_PRF_GRP_STATUS_EXPECT : PRF_GRP_STATUS.EXPECT.reg = .PRF_GRP_STATUS := rfl
@[simp] theorem lo_PRF_GRP_STATUS_EXPECT : PRF_GRP_STATUS.EXPECT.lo = 32 := rfl
@[simp] theorem w_PRF_GRP_STATUS_EXPECT : PRF_GRP_STATUS.EXPECT.w = 7 := rfl
@[simp] theorem reg_PRF_GRP_STATUS_JOINED : PRF_GRP_STATUS.JOINED.reg = .PRF_GRP_STATUS := rfl
@[simp] theorem lo_PRF_GRP_STATUS_JOINED : PRF_GRP_STATUS.JOINED.lo = 40 := rfl
@[simp] theorem w_PRF_GRP_STATUS_JOINED : PRF_GRP_STATUS.JOINED.w = 7 := rfl
@[simp] theorem reg_PRF_GRP_STATUS_SEALED : PRF_GRP_STATUS.SEALED.reg = .PRF_GRP_STATUS := rfl
@[simp] theorem lo_PRF_GRP_STATUS_SEALED : PRF_GRP_STATUS.SEALED.lo = 48 := rfl
@[simp] theorem w_PRF_GRP_STATUS_SEALED : PRF_GRP_STATUS.SEALED.w = 7 := rfl
@[simp] theorem reg_PRF_GRP_STATUS_LAST_CAUSE : PRF_GRP_STATUS.LAST_CAUSE.reg = .PRF_GRP_STATUS := rfl
@[simp] theorem lo_PRF_GRP_STATUS_LAST_CAUSE : PRF_GRP_STATUS.LAST_CAUSE.lo = 56 := rfl
@[simp] theorem w_PRF_GRP_STATUS_LAST_CAUSE : PRF_GRP_STATUS.LAST_CAUSE.w = 8 := rfl
@[simp] theorem reg_PRF_GRP_INFO_ALLOC_CORE : PRF_GRP_INFO.ALLOC_CORE.reg = .PRF_GRP_INFO := rfl
@[simp] theorem lo_PRF_GRP_INFO_ALLOC_CORE : PRF_GRP_INFO.ALLOC_CORE.lo = 0 := rfl
@[simp] theorem w_PRF_GRP_INFO_ALLOC_CORE : PRF_GRP_INFO.ALLOC_CORE.w = 10 := rfl
@[simp] theorem reg_PRF_GRP_INFO_LAST_ABORT_CORE : PRF_GRP_INFO.LAST_ABORT_CORE.reg = .PRF_GRP_INFO := rfl
@[simp] theorem lo_PRF_GRP_INFO_LAST_ABORT_CORE : PRF_GRP_INFO.LAST_ABORT_CORE.lo = 16 := rfl
@[simp] theorem w_PRF_GRP_INFO_LAST_ABORT_CORE : PRF_GRP_INFO.LAST_ABORT_CORE.w = 10 := rfl
@[simp] theorem reg_PRF_GRP_INFO_DB_HELD : PRF_GRP_INFO.DB_HELD.reg = .PRF_GRP_INFO := rfl
@[simp] theorem lo_PRF_GRP_INFO_DB_HELD : PRF_GRP_INFO.DB_HELD.lo = 32 := rfl
@[simp] theorem w_PRF_GRP_INFO_DB_HELD : PRF_GRP_INFO.DB_HELD.w = 9 := rfl
@[simp] theorem reg_STP_CFG_ENG_EN : STP_CFG.ENG_EN.reg = .STP_CFG := rfl
@[simp] theorem lo_STP_CFG_ENG_EN : STP_CFG.ENG_EN.lo = 0 := rfl
@[simp] theorem w_STP_CFG_ENG_EN : STP_CFG.ENG_EN.w = 16 := rfl
@[simp] theorem reg_STP_STATUS_READY : STP_STATUS.READY.reg = .STP_STATUS := rfl
@[simp] theorem lo_STP_STATUS_READY : STP_STATUS.READY.lo = 0 := rfl
@[simp] theorem w_STP_STATUS_READY : STP_STATUS.READY.w = 1 := rfl
@[simp] theorem reg_STP_STATUS_BUSY : STP_STATUS.BUSY.reg = .STP_STATUS := rfl
@[simp] theorem lo_STP_STATUS_BUSY : STP_STATUS.BUSY.lo = 16 := rfl
@[simp] theorem w_STP_STATUS_BUSY : STP_STATUS.BUSY.w = 16 := rfl
@[simp] theorem reg_STP_STATUS_EVT_SPOOF : STP_STATUS.EVT_SPOOF.reg = .STP_STATUS := rfl
@[simp] theorem lo_STP_STATUS_EVT_SPOOF : STP_STATUS.EVT_SPOOF.lo = 32 := rfl
@[simp] theorem w_STP_STATUS_EVT_SPOOF : STP_STATUS.EVT_SPOOF.w = 1 := rfl
@[simp] theorem reg_STP_STATUS_EVT_QUOTA : STP_STATUS.EVT_QUOTA.reg = .STP_STATUS := rfl
@[simp] theorem lo_STP_STATUS_EVT_QUOTA : STP_STATUS.EVT_QUOTA.lo = 33 := rfl
@[simp] theorem w_STP_STATUS_EVT_QUOTA : STP_STATUS.EVT_QUOTA.w = 1 := rfl
@[simp] theorem reg_STP_CNT0_JOBS_OK : STP_CNT0.JOBS_OK.reg = .STP_CNT0 := rfl
@[simp] theorem lo_STP_CNT0_JOBS_OK : STP_CNT0.JOBS_OK.lo = 0 := rfl
@[simp] theorem w_STP_CNT0_JOBS_OK : STP_CNT0.JOBS_OK.w = 32 := rfl
@[simp] theorem reg_STP_CNT0_JOBS_FAILED : STP_CNT0.JOBS_FAILED.reg = .STP_CNT0 := rfl
@[simp] theorem lo_STP_CNT0_JOBS_FAILED : STP_CNT0.JOBS_FAILED.lo = 32 := rfl
@[simp] theorem w_STP_CNT0_JOBS_FAILED : STP_CNT0.JOBS_FAILED.w = 32 := rfl
@[simp] theorem reg_STP_CNT1_BLOCKS : STP_CNT1.BLOCKS.reg = .STP_CNT1 := rfl
@[simp] theorem lo_STP_CNT1_BLOCKS : STP_CNT1.BLOCKS.lo = 0 := rfl
@[simp] theorem w_STP_CNT1_BLOCKS : STP_CNT1.BLOCKS.w = 64 := rfl
@[simp] theorem reg_STP_CNT2_CLIPS : STP_CNT2.CLIPS.reg = .STP_CNT2 := rfl
@[simp] theorem lo_STP_CNT2_CLIPS : STP_CNT2.CLIPS.lo = 0 := rfl
@[simp] theorem w_STP_CNT2_CLIPS : STP_CNT2.CLIPS.w = 32 := rfl
@[simp] theorem reg_STP_CNT2_SPOOF : STP_CNT2.SPOOF.reg = .STP_CNT2 := rfl
@[simp] theorem lo_STP_CNT2_SPOOF : STP_CNT2.SPOOF.lo = 32 := rfl
@[simp] theorem w_STP_CNT2_SPOOF : STP_CNT2.SPOOF.w = 16 := rfl
@[simp] theorem reg_STP_CNT2_OUT_OF_SPACE : STP_CNT2.OUT_OF_SPACE.reg = .STP_CNT2 := rfl
@[simp] theorem lo_STP_CNT2_OUT_OF_SPACE : STP_CNT2.OUT_OF_SPACE.lo = 48 := rfl
@[simp] theorem w_STP_CNT2_OUT_OF_SPACE : STP_CNT2.OUT_OF_SPACE.w = 16 := rfl
@[simp] theorem reg_STP_ENG_STATUS_STATE : STP_ENG_STATUS.STATE.reg = .STP_ENG_STATUS := rfl
@[simp] theorem lo_STP_ENG_STATUS_STATE : STP_ENG_STATUS.STATE.lo = 0 := rfl
@[simp] theorem w_STP_ENG_STATUS_STATE : STP_ENG_STATUS.STATE.w = 2 := rfl
@[simp] theorem reg_STP_ENG_STATUS_SLICE : STP_ENG_STATUS.SLICE.reg = .STP_ENG_STATUS := rfl
@[simp] theorem lo_STP_ENG_STATUS_SLICE : STP_ENG_STATUS.SLICE.lo = 8 := rfl
@[simp] theorem w_STP_ENG_STATUS_SLICE : STP_ENG_STATUS.SLICE.w = 8 := rfl
@[simp] theorem reg_STP_ENG_STATUS_RING : STP_ENG_STATUS.RING.reg = .STP_ENG_STATUS := rfl
@[simp] theorem lo_STP_ENG_STATUS_RING : STP_ENG_STATUS.RING.lo = 16 := rfl
@[simp] theorem w_STP_ENG_STATUS_RING : STP_ENG_STATUS.RING.w = 13 := rfl
@[simp] theorem reg_STP_ENG_STATUS_EVT_FAIL : STP_ENG_STATUS.EVT_FAIL.reg = .STP_ENG_STATUS := rfl
@[simp] theorem lo_STP_ENG_STATUS_EVT_FAIL : STP_ENG_STATUS.EVT_FAIL.lo = 32 := rfl
@[simp] theorem w_STP_ENG_STATUS_EVT_FAIL : STP_ENG_STATUS.EVT_FAIL.w = 1 := rfl
@[simp] theorem reg_STP_ENG_IN_BYTES : STP_ENG_IN.BYTES.reg = .STP_ENG_IN := rfl
@[simp] theorem lo_STP_ENG_IN_BYTES : STP_ENG_IN.BYTES.lo = 0 := rfl
@[simp] theorem w_STP_ENG_IN_BYTES : STP_ENG_IN.BYTES.w = 64 := rfl
@[simp] theorem reg_STP_SLICE_SHARE_SHARE : STP_SLICE_SHARE.SHARE.reg = .STP_SLICE_SHARE := rfl
@[simp] theorem lo_STP_SLICE_SHARE_SHARE : STP_SLICE_SHARE.SHARE.lo = 0 := rfl
@[simp] theorem w_STP_SLICE_SHARE_SHARE : STP_SLICE_SHARE.SHARE.w = 5 := rfl
@[simp] theorem reg_STP_SLICE_SHARE_USED : STP_SLICE_SHARE.USED.reg = .STP_SLICE_SHARE := rfl
@[simp] theorem lo_STP_SLICE_SHARE_USED : STP_SLICE_SHARE.USED.lo = 8 := rfl
@[simp] theorem w_STP_SLICE_SHARE_USED : STP_SLICE_SHARE.USED.w = 5 := rfl
@[simp] theorem reg_STP_SLICE_SHARE_OVER_QUOTA : STP_SLICE_SHARE.OVER_QUOTA.reg = .STP_SLICE_SHARE := rfl
@[simp] theorem lo_STP_SLICE_SHARE_OVER_QUOTA : STP_SLICE_SHARE.OVER_QUOTA.lo = 16 := rfl
@[simp] theorem w_STP_SLICE_SHARE_OVER_QUOTA : STP_SLICE_SHARE.OVER_QUOTA.w = 1 := rfl
@[simp] theorem reg_ETH_PORT_CFG_EN : ETH_PORT_CFG.EN.reg = .ETH_PORT_CFG := rfl
@[simp] theorem lo_ETH_PORT_CFG_EN : ETH_PORT_CFG.EN.lo = 0 := rfl
@[simp] theorem w_ETH_PORT_CFG_EN : ETH_PORT_CFG.EN.w = 1 := rfl
@[simp] theorem reg_ETH_PORT_CFG_MODE : ETH_PORT_CFG.MODE.reg = .ETH_PORT_CFG := rfl
@[simp] theorem lo_ETH_PORT_CFG_MODE : ETH_PORT_CFG.MODE.lo = 1 := rfl
@[simp] theorem w_ETH_PORT_CFG_MODE : ETH_PORT_CFG.MODE.w = 2 := rfl
@[simp] theorem reg_ETH_PORT_CFG_PFC_EN : ETH_PORT_CFG.PFC_EN.reg = .ETH_PORT_CFG := rfl
@[simp] theorem lo_ETH_PORT_CFG_PFC_EN : ETH_PORT_CFG.PFC_EN.lo = 3 := rfl
@[simp] theorem w_ETH_PORT_CFG_PFC_EN : ETH_PORT_CFG.PFC_EN.w = 1 := rfl
@[simp] theorem reg_ETH_PORT_CFG_MTU : ETH_PORT_CFG.MTU.reg = .ETH_PORT_CFG := rfl
@[simp] theorem lo_ETH_PORT_CFG_MTU : ETH_PORT_CFG.MTU.lo = 16 := rfl
@[simp] theorem w_ETH_PORT_CFG_MTU : ETH_PORT_CFG.MTU.w = 14 := rfl
@[simp] theorem reg_ETH_PORT_CFG_PAUSE_MAX : ETH_PORT_CFG.PAUSE_MAX.reg = .ETH_PORT_CFG := rfl
@[simp] theorem lo_ETH_PORT_CFG_PAUSE_MAX : ETH_PORT_CFG.PAUSE_MAX.lo = 32 := rfl
@[simp] theorem w_ETH_PORT_CFG_PAUSE_MAX : ETH_PORT_CFG.PAUSE_MAX.w = 16 := rfl
@[simp] theorem reg_ETH_PORT_STATUS_READY : ETH_PORT_STATUS.READY.reg = .ETH_PORT_STATUS := rfl
@[simp] theorem lo_ETH_PORT_STATUS_READY : ETH_PORT_STATUS.READY.lo = 0 := rfl
@[simp] theorem w_ETH_PORT_STATUS_READY : ETH_PORT_STATUS.READY.w = 1 := rfl
@[simp] theorem reg_ETH_PORT_STATUS_LINK : ETH_PORT_STATUS.LINK.reg = .ETH_PORT_STATUS := rfl
@[simp] theorem lo_ETH_PORT_STATUS_LINK : ETH_PORT_STATUS.LINK.lo = 4 := rfl
@[simp] theorem w_ETH_PORT_STATUS_LINK : ETH_PORT_STATUS.LINK.w = 4 := rfl
@[simp] theorem reg_ETH_PORT_STATUS_EVT_LINK : ETH_PORT_STATUS.EVT_LINK.reg = .ETH_PORT_STATUS := rfl
@[simp] theorem lo_ETH_PORT_STATUS_EVT_LINK : ETH_PORT_STATUS.EVT_LINK.lo = 32 := rfl
@[simp] theorem w_ETH_PORT_STATUS_EVT_LINK : ETH_PORT_STATUS.EVT_LINK.w = 1 := rfl
@[simp] theorem reg_ETH_PORT_STATUS_EVT_SPOOF : ETH_PORT_STATUS.EVT_SPOOF.reg = .ETH_PORT_STATUS := rfl
@[simp] theorem lo_ETH_PORT_STATUS_EVT_SPOOF : ETH_PORT_STATUS.EVT_SPOOF.lo = 33 := rfl
@[simp] theorem w_ETH_PORT_STATUS_EVT_SPOOF : ETH_PORT_STATUS.EVT_SPOOF.w = 1 := rfl
@[simp] theorem reg_ETH_PORT_STATUS_EVT_PAUSE : ETH_PORT_STATUS.EVT_PAUSE.reg = .ETH_PORT_STATUS := rfl
@[simp] theorem lo_ETH_PORT_STATUS_EVT_PAUSE : ETH_PORT_STATUS.EVT_PAUSE.lo = 34 := rfl
@[simp] theorem w_ETH_PORT_STATUS_EVT_PAUSE : ETH_PORT_STATUS.EVT_PAUSE.w = 1 := rfl
@[simp] theorem reg_ETH_PORT_FRAMES_FRAMES_TX : ETH_PORT_FRAMES.FRAMES_TX.reg = .ETH_PORT_FRAMES := rfl
@[simp] theorem lo_ETH_PORT_FRAMES_FRAMES_TX : ETH_PORT_FRAMES.FRAMES_TX.lo = 0 := rfl
@[simp] theorem w_ETH_PORT_FRAMES_FRAMES_TX : ETH_PORT_FRAMES.FRAMES_TX.w = 64 := rfl
@[simp] theorem reg_ETH_PORT_BYTES_BYTES_TX : ETH_PORT_BYTES.BYTES_TX.reg = .ETH_PORT_BYTES := rfl
@[simp] theorem lo_ETH_PORT_BYTES_BYTES_TX : ETH_PORT_BYTES.BYTES_TX.lo = 0 := rfl
@[simp] theorem w_ETH_PORT_BYTES_BYTES_TX : ETH_PORT_BYTES.BYTES_TX.w = 64 := rfl
@[simp] theorem reg_ETH_PORT_CNT_SPOOF_DROP : ETH_PORT_CNT.SPOOF_DROP.reg = .ETH_PORT_CNT := rfl
@[simp] theorem lo_ETH_PORT_CNT_SPOOF_DROP : ETH_PORT_CNT.SPOOF_DROP.lo = 0 := rfl
@[simp] theorem w_ETH_PORT_CNT_SPOOF_DROP : ETH_PORT_CNT.SPOOF_DROP.w = 16 := rfl
@[simp] theorem reg_ETH_PORT_CNT_PAUSE_TMO : ETH_PORT_CNT.PAUSE_TMO.reg = .ETH_PORT_CNT := rfl
@[simp] theorem lo_ETH_PORT_CNT_PAUSE_TMO : ETH_PORT_CNT.PAUSE_TMO.lo = 16 := rfl
@[simp] theorem w_ETH_PORT_CNT_PAUSE_TMO : ETH_PORT_CNT.PAUSE_TMO.w = 16 := rfl
@[simp] theorem reg_ETH_PORT_CNT_LINK_ABORT : ETH_PORT_CNT.LINK_ABORT.reg = .ETH_PORT_CNT := rfl
@[simp] theorem lo_ETH_PORT_CNT_LINK_ABORT : ETH_PORT_CNT.LINK_ABORT.lo = 32 := rfl
@[simp] theorem w_ETH_PORT_CNT_LINK_ABORT : ETH_PORT_CNT.LINK_ABORT.w = 16 := rfl
@[simp] theorem reg_ETH_PORT_CNT_RX_DISCARD : ETH_PORT_CNT.RX_DISCARD.reg = .ETH_PORT_CNT := rfl
@[simp] theorem lo_ETH_PORT_CNT_RX_DISCARD : ETH_PORT_CNT.RX_DISCARD.lo = 48 := rfl
@[simp] theorem w_ETH_PORT_CNT_RX_DISCARD : ETH_PORT_CNT.RX_DISCARD.w = 16 := rfl
@[simp] theorem reg_ETH_Q_CFG_EN : ETH_Q_CFG.EN.reg = .ETH_Q_CFG := rfl
@[simp] theorem lo_ETH_Q_CFG_EN : ETH_Q_CFG.EN.lo = 0 := rfl
@[simp] theorem w_ETH_Q_CFG_EN : ETH_Q_CFG.EN.w = 1 := rfl
@[simp] theorem reg_ETH_Q_CFG_SUBPORT : ETH_Q_CFG.SUBPORT.reg = .ETH_Q_CFG := rfl
@[simp] theorem lo_ETH_Q_CFG_SUBPORT : ETH_Q_CFG.SUBPORT.lo = 1 := rfl
@[simp] theorem w_ETH_Q_CFG_SUBPORT : ETH_Q_CFG.SUBPORT.w = 2 := rfl
@[simp] theorem reg_ETH_Q_CFG_PCP : ETH_Q_CFG.PCP.reg = .ETH_Q_CFG := rfl
@[simp] theorem lo_ETH_Q_CFG_PCP : ETH_Q_CFG.PCP.lo = 4 := rfl
@[simp] theorem w_ETH_Q_CFG_PCP : ETH_Q_CFG.PCP.w = 3 := rfl
@[simp] theorem reg_ETH_Q_CFG_OWNER : ETH_Q_CFG.OWNER.reg = .ETH_Q_CFG := rfl
@[simp] theorem lo_ETH_Q_CFG_OWNER : ETH_Q_CFG.OWNER.lo = 8 := rfl
@[simp] theorem w_ETH_Q_CFG_OWNER : ETH_Q_CFG.OWNER.w = 8 := rfl
@[simp] theorem reg_ETH_Q_CFG_ROLE_EPOCH : ETH_Q_CFG.ROLE_EPOCH.reg = .ETH_Q_CFG := rfl
@[simp] theorem lo_ETH_Q_CFG_ROLE_EPOCH : ETH_Q_CFG.ROLE_EPOCH.lo = 16 := rfl
@[simp] theorem w_ETH_Q_CFG_ROLE_EPOCH : ETH_Q_CFG.ROLE_EPOCH.w = 16 := rfl
@[simp] theorem reg_ETH_Q_FLOW_BYTES : ETH_Q_FLOW.BYTES.reg = .ETH_Q_FLOW := rfl
@[simp] theorem lo_ETH_Q_FLOW_BYTES : ETH_Q_FLOW.BYTES.lo = 0 := rfl
@[simp] theorem w_ETH_Q_FLOW_BYTES : ETH_Q_FLOW.BYTES.w = 64 := rfl
@[simp] theorem reg_ETH_SLICE_MAC_MAC : ETH_SLICE_MAC.MAC.reg = .ETH_SLICE_MAC := rfl
@[simp] theorem lo_ETH_SLICE_MAC_MAC : ETH_SLICE_MAC.MAC.lo = 0 := rfl
@[simp] theorem w_ETH_SLICE_MAC_MAC : ETH_SLICE_MAC.MAC.w = 48 := rfl
@[simp] theorem reg_ETH_SLICE_MAC_VID : ETH_SLICE_MAC.VID.reg = .ETH_SLICE_MAC := rfl
@[simp] theorem lo_ETH_SLICE_MAC_VID : ETH_SLICE_MAC.VID.lo = 48 := rfl
@[simp] theorem w_ETH_SLICE_MAC_VID : ETH_SLICE_MAC.VID.w = 12 := rfl
@[simp] theorem reg_ETH_SLICE_MAC_VLAN_EN : ETH_SLICE_MAC.VLAN_EN.reg = .ETH_SLICE_MAC := rfl
@[simp] theorem lo_ETH_SLICE_MAC_VLAN_EN : ETH_SLICE_MAC.VLAN_EN.lo = 60 := rfl
@[simp] theorem w_ETH_SLICE_MAC_VLAN_EN : ETH_SLICE_MAC.VLAN_EN.w = 1 := rfl
@[simp] theorem reg_ETH_SLICE_IP4_ADDR : ETH_SLICE_IP4.ADDR.reg = .ETH_SLICE_IP4 := rfl
@[simp] theorem lo_ETH_SLICE_IP4_ADDR : ETH_SLICE_IP4.ADDR.lo = 0 := rfl
@[simp] theorem w_ETH_SLICE_IP4_ADDR : ETH_SLICE_IP4.ADDR.w = 32 := rfl
@[simp] theorem reg_ETH_SLICE_IP4_IP4_EN : ETH_SLICE_IP4.IP4_EN.reg = .ETH_SLICE_IP4 := rfl
@[simp] theorem lo_ETH_SLICE_IP4_IP4_EN : ETH_SLICE_IP4.IP4_EN.lo = 32 := rfl
@[simp] theorem w_ETH_SLICE_IP4_IP4_EN : ETH_SLICE_IP4.IP4_EN.w = 1 := rfl
@[simp] theorem reg_ETH_SLICE_IP6_ADDR : ETH_SLICE_IP6.ADDR.reg = .ETH_SLICE_IP6 := rfl
@[simp] theorem lo_ETH_SLICE_IP6_ADDR : ETH_SLICE_IP6.ADDR.lo = 0 := rfl
@[simp] theorem w_ETH_SLICE_IP6_ADDR : ETH_SLICE_IP6.ADDR.w = 64 := rfl
@[simp] theorem reg_MEM_WM_HBM_WM : MEM_WM.HBM_WM.reg = .MEM_WM := rfl
@[simp] theorem lo_MEM_WM_HBM_WM : MEM_WM.HBM_WM.lo = 0 := rfl
@[simp] theorem w_MEM_WM_HBM_WM : MEM_WM.HBM_WM.w = 8 := rfl
@[simp] theorem reg_MEM_WM_DDR_WM : MEM_WM.DDR_WM.reg = .MEM_WM := rfl
@[simp] theorem lo_MEM_WM_DDR_WM : MEM_WM.DDR_WM.lo = 8 := rfl
@[simp] theorem w_MEM_WM_DDR_WM : MEM_WM.DDR_WM.w = 12 := rfl
@[simp] theorem reg_MEM_WM_LOCK : MEM_WM.LOCK.reg = .MEM_WM := rfl
@[simp] theorem lo_MEM_WM_LOCK : MEM_WM.LOCK.lo = 31 := rfl
@[simp] theorem w_MEM_WM_LOCK : MEM_WM.LOCK.w = 1 := rfl
@[simp] theorem reg_MEM_WM_WM_BUSY : MEM_WM.WM_BUSY.reg = .MEM_WM := rfl
@[simp] theorem lo_MEM_WM_WM_BUSY : MEM_WM.WM_BUSY.lo = 32 := rfl
@[simp] theorem w_MEM_WM_WM_BUSY : MEM_WM.WM_BUSY.w = 1 := rfl
@[simp] theorem reg_MEM_WM_WM_REFUSED : MEM_WM.WM_REFUSED.reg = .MEM_WM := rfl
@[simp] theorem lo_MEM_WM_WM_REFUSED : MEM_WM.WM_REFUSED.lo = 33 := rfl
@[simp] theorem w_MEM_WM_WM_REFUSED : MEM_WM.WM_REFUSED.w = 1 := rfl
@[simp] theorem reg_MEM_WM_CNT_DENIED : MEM_WM_CNT.DENIED.reg = .MEM_WM_CNT := rfl
@[simp] theorem lo_MEM_WM_CNT_DENIED : MEM_WM_CNT.DENIED.lo = 0 := rfl
@[simp] theorem w_MEM_WM_CNT_DENIED : MEM_WM_CNT.DENIED.w = 32 := rfl
@[simp] theorem reg_MEM_WM_CNT_UNMAPPED : MEM_WM_CNT.UNMAPPED.reg = .MEM_WM_CNT := rfl
@[simp] theorem lo_MEM_WM_CNT_UNMAPPED : MEM_WM_CNT.UNMAPPED.lo = 32 := rfl
@[simp] theorem w_MEM_WM_CNT_UNMAPPED : MEM_WM_CNT.UNMAPPED.w = 32 := rfl
@[simp] theorem reg_MEM_BURN_CFG_EN : MEM_BURN_CFG.EN.reg = .MEM_BURN_CFG := rfl
@[simp] theorem lo_MEM_BURN_CFG_EN : MEM_BURN_CFG.EN.lo = 0 := rfl
@[simp] theorem w_MEM_BURN_CFG_EN : MEM_BURN_CFG.EN.w = 1 := rfl
@[simp] theorem reg_MEM_BURN_CFG_INTERVAL : MEM_BURN_CFG.INTERVAL.reg = .MEM_BURN_CFG := rfl
@[simp] theorem lo_MEM_BURN_CFG_INTERVAL : MEM_BURN_CFG.INTERVAL.lo = 16 := rfl
@[simp] theorem w_MEM_BURN_CFG_INTERVAL : MEM_BURN_CFG.INTERVAL.w = 16 := rfl
@[simp] theorem reg_MEM_RECODE_PLATE : MEM_RECODE.PLATE.reg = .MEM_RECODE := rfl
@[simp] theorem lo_MEM_RECODE_PLATE : MEM_RECODE.PLATE.lo = 0 := rfl
@[simp] theorem w_MEM_RECODE_PLATE : MEM_RECODE.PLATE.w = 11 := rfl
@[simp] theorem reg_MEM_RECODE_ACTIVE : MEM_RECODE.ACTIVE.reg = .MEM_RECODE := rfl
@[simp] theorem lo_MEM_RECODE_ACTIVE : MEM_RECODE.ACTIVE.lo = 11 := rfl
@[simp] theorem w_MEM_RECODE_ACTIVE : MEM_RECODE.ACTIVE.w = 1 := rfl
@[simp] theorem reg_MEM_RECODE_POINTER : MEM_RECODE.POINTER.reg = .MEM_RECODE := rfl
@[simp] theorem lo_MEM_RECODE_POINTER : MEM_RECODE.POINTER.lo = 32 := rfl
@[simp] theorem w_MEM_RECODE_POINTER : MEM_RECODE.POINTER.w = 32 := rfl
@[simp] theorem reg_MEM_DDR_CFG_K : MEM_DDR_CFG.K.reg = .MEM_DDR_CFG := rfl
@[simp] theorem lo_MEM_DDR_CFG_K : MEM_DDR_CFG.K.lo = 0 := rfl
@[simp] theorem w_MEM_DDR_CFG_K : MEM_DDR_CFG.K.w = 4 := rfl
@[simp] theorem reg_MEM_DDR_CFG_POP_ERR : MEM_DDR_CFG.POP_ERR.reg = .MEM_DDR_CFG := rfl
@[simp] theorem lo_MEM_DDR_CFG_POP_ERR : MEM_DDR_CFG.POP_ERR.lo = 4 := rfl
@[simp] theorem w_MEM_DDR_CFG_POP_ERR : MEM_DDR_CFG.POP_ERR.w = 1 := rfl
@[simp] theorem reg_MEM_DDR_CFG_DIMM_GIB : MEM_DDR_CFG.DIMM_GIB.reg = .MEM_DDR_CFG := rfl
@[simp] theorem lo_MEM_DDR_CFG_DIMM_GIB : MEM_DDR_CFG.DIMM_GIB.lo = 8 := rfl
@[simp] theorem w_MEM_DDR_CFG_DIMM_GIB : MEM_DDR_CFG.DIMM_GIB.w = 10 := rfl
@[simp] theorem reg_MEM_DDR_CFG_SR_KEEP : MEM_DDR_CFG.SR_KEEP.reg = .MEM_DDR_CFG := rfl
@[simp] theorem lo_MEM_DDR_CFG_SR_KEEP : MEM_DDR_CFG.SR_KEEP.lo = 32 := rfl
@[simp] theorem w_MEM_DDR_CFG_SR_KEEP : MEM_DDR_CFG.SR_KEEP.w = 1 := rfl
@[simp] theorem reg_MEM_CTL_STATUS_PRESENT : MEM_CTL_STATUS.PRESENT.reg = .MEM_CTL_STATUS := rfl
@[simp] theorem lo_MEM_CTL_STATUS_PRESENT : MEM_CTL_STATUS.PRESENT.lo = 0 := rfl
@[simp] theorem w_MEM_CTL_STATUS_PRESENT : MEM_CTL_STATUS.PRESENT.w = 1 := rfl
@[simp] theorem reg_MEM_CTL_STATUS_INIT_DONE : MEM_CTL_STATUS.INIT_DONE.reg = .MEM_CTL_STATUS := rfl
@[simp] theorem lo_MEM_CTL_STATUS_INIT_DONE : MEM_CTL_STATUS.INIT_DONE.lo = 1 := rfl
@[simp] theorem w_MEM_CTL_STATUS_INIT_DONE : MEM_CTL_STATUS.INIT_DONE.w = 1 := rfl
@[simp] theorem reg_MEM_CTL_STATUS_PEND : MEM_CTL_STATUS.PEND.reg = .MEM_CTL_STATUS := rfl
@[simp] theorem lo_MEM_CTL_STATUS_PEND : MEM_CTL_STATUS.PEND.lo = 2 := rfl
@[simp] theorem w_MEM_CTL_STATUS_PEND : MEM_CTL_STATUS.PEND.w = 6 := rfl
@[simp] theorem reg_MEM_CTL_STATUS_EVT_CE : MEM_CTL_STATUS.EVT_CE.reg = .MEM_CTL_STATUS := rfl
@[simp] theorem lo_MEM_CTL_STATUS_EVT_CE : MEM_CTL_STATUS.EVT_CE.lo = 32 := rfl
@[simp] theorem w_MEM_CTL_STATUS_EVT_CE : MEM_CTL_STATUS.EVT_CE.w = 1 := rfl
@[simp] theorem reg_MEM_CTL_STATUS_EVT_UE : MEM_CTL_STATUS.EVT_UE.reg = .MEM_CTL_STATUS := rfl
@[simp] theorem lo_MEM_CTL_STATUS_EVT_UE : MEM_CTL_STATUS.EVT_UE.lo = 33 := rfl
@[simp] theorem w_MEM_CTL_STATUS_EVT_UE : MEM_CTL_STATUS.EVT_UE.w = 1 := rfl
@[simp] theorem reg_MEM_CTL_STATUS_EVT_WALK : MEM_CTL_STATUS.EVT_WALK.reg = .MEM_CTL_STATUS := rfl
@[simp] theorem lo_MEM_CTL_STATUS_EVT_WALK : MEM_CTL_STATUS.EVT_WALK.lo = 34 := rfl
@[simp] theorem w_MEM_CTL_STATUS_EVT_WALK : MEM_CTL_STATUS.EVT_WALK.w = 1 := rfl
@[simp] theorem reg_MEM_CTL_STATUS_EVT_MISC : MEM_CTL_STATUS.EVT_MISC.reg = .MEM_CTL_STATUS := rfl
@[simp] theorem lo_MEM_CTL_STATUS_EVT_MISC : MEM_CTL_STATUS.EVT_MISC.lo = 35 := rfl
@[simp] theorem w_MEM_CTL_STATUS_EVT_MISC : MEM_CTL_STATUS.EVT_MISC.w = 1 := rfl
@[simp] theorem reg_MEM_CTL_STATUS_EVT_DENIED : MEM_CTL_STATUS.EVT_DENIED.reg = .MEM_CTL_STATUS := rfl
@[simp] theorem lo_MEM_CTL_STATUS_EVT_DENIED : MEM_CTL_STATUS.EVT_DENIED.lo = 36 := rfl
@[simp] theorem w_MEM_CTL_STATUS_EVT_DENIED : MEM_CTL_STATUS.EVT_DENIED.w = 1 := rfl
@[simp] theorem reg_MEM_CTL_CNT0_CE : MEM_CTL_CNT0.CE.reg = .MEM_CTL_CNT0 := rfl
@[simp] theorem lo_MEM_CTL_CNT0_CE : MEM_CTL_CNT0.CE.lo = 0 := rfl
@[simp] theorem w_MEM_CTL_CNT0_CE : MEM_CTL_CNT0.CE.w = 32 := rfl
@[simp] theorem reg_MEM_CTL_CNT0_UE : MEM_CTL_CNT0.UE.reg = .MEM_CTL_CNT0 := rfl
@[simp] theorem lo_MEM_CTL_CNT0_UE : MEM_CTL_CNT0.UE.lo = 32 := rfl
@[simp] theorem w_MEM_CTL_CNT0_UE : MEM_CTL_CNT0.UE.w = 16 := rfl
@[simp] theorem reg_MEM_CTL_CNT0_ADDR_ERR : MEM_CTL_CNT0.ADDR_ERR.reg = .MEM_CTL_CNT0 := rfl
@[simp] theorem lo_MEM_CTL_CNT0_ADDR_ERR : MEM_CTL_CNT0.ADDR_ERR.lo = 48 := rfl
@[simp] theorem w_MEM_CTL_CNT0_ADDR_ERR : MEM_CTL_CNT0.ADDR_ERR.w = 16 := rfl
@[simp] theorem reg_MEM_CTL_CNT1_DIE_CORR : MEM_CTL_CNT1.DIE_CORR.reg = .MEM_CTL_CNT1 := rfl
@[simp] theorem lo_MEM_CTL_CNT1_DIE_CORR : MEM_CTL_CNT1.DIE_CORR.lo = 0 := rfl
@[simp] theorem w_MEM_CTL_CNT1_DIE_CORR : MEM_CTL_CNT1.DIE_CORR.w = 32 := rfl
@[simp] theorem reg_MEM_CTL_CNT1_WB_DROPPED : MEM_CTL_CNT1.WB_DROPPED.reg = .MEM_CTL_CNT1 := rfl
@[simp] theorem lo_MEM_CTL_CNT1_WB_DROPPED : MEM_CTL_CNT1.WB_DROPPED.lo = 32 := rfl
@[simp] theorem w_MEM_CTL_CNT1_WB_DROPPED : MEM_CTL_CNT1.WB_DROPPED.w = 16 := rfl
@[simp] theorem reg_MEM_CTL_CNT1_HUB_CORR : MEM_CTL_CNT1.HUB_CORR.reg = .MEM_CTL_CNT1 := rfl
@[simp] theorem lo_MEM_CTL_CNT1_HUB_CORR : MEM_CTL_CNT1.HUB_CORR.lo = 48 := rfl
@[simp] theorem w_MEM_CTL_CNT1_HUB_CORR : MEM_CTL_CNT1.HUB_CORR.w = 16 := rfl
@[simp] theorem reg_MEM_CTL_LAST_UE_SHEET : MEM_CTL_LAST_UE.SHEET.reg = .MEM_CTL_LAST_UE := rfl
@[simp] theorem lo_MEM_CTL_LAST_UE_SHEET : MEM_CTL_LAST_UE.SHEET.lo = 8 := rfl
@[simp] theorem w_MEM_CTL_LAST_UE_SHEET : MEM_CTL_LAST_UE.SHEET.w = 38 := rfl
@[simp] theorem reg_MEM_BURN_PTR_LOCAL : MEM_BURN_PTR.LOCAL.reg = .MEM_BURN_PTR := rfl
@[simp] theorem lo_MEM_BURN_PTR_LOCAL : MEM_BURN_PTR.LOCAL.lo = 0 := rfl
@[simp] theorem w_MEM_BURN_PTR_LOCAL : MEM_BURN_PTR.LOCAL.w = 32 := rfl
@[simp] theorem reg_MEM_BURN_PTR_PASSES : MEM_BURN_PTR.PASSES.reg = .MEM_BURN_PTR := rfl
@[simp] theorem lo_MEM_BURN_PTR_PASSES : MEM_BURN_PTR.PASSES.lo = 32 := rfl
@[simp] theorem w_MEM_BURN_PTR_PASSES : MEM_BURN_PTR.PASSES.w = 32 := rfl
@[simp] theorem reg_MEM_FLIPCTL_ARM : MEM_FLIPCTL.ARM.reg = .MEM_FLIPCTL := rfl
@[simp] theorem lo_MEM_FLIPCTL_ARM : MEM_FLIPCTL.ARM.lo = 0 := rfl
@[simp] theorem w_MEM_FLIPCTL_ARM : MEM_FLIPCTL.ARM.w = 1 := rfl
@[simp] theorem reg_MEM_FLIPCTL_MATCH : MEM_FLIPCTL.MATCH.reg = .MEM_FLIPCTL := rfl
@[simp] theorem lo_MEM_FLIPCTL_MATCH : MEM_FLIPCTL.MATCH.lo = 1 := rfl
@[simp] theorem w_MEM_FLIPCTL_MATCH : MEM_FLIPCTL.MATCH.w = 1 := rfl
@[simp] theorem reg_MEM_FLIPCTL_ADDR_FLIP : MEM_FLIPCTL.ADDR_FLIP.reg = .MEM_FLIPCTL := rfl
@[simp] theorem lo_MEM_FLIPCTL_ADDR_FLIP : MEM_FLIPCTL.ADDR_FLIP.lo = 2 := rfl
@[simp] theorem w_MEM_FLIPCTL_ADDR_FLIP : MEM_FLIPCTL.ADDR_FLIP.w = 1 := rfl
@[simp] theorem reg_MEM_FLIP_ADDR_SHEET : MEM_FLIP_ADDR.SHEET.reg = .MEM_FLIP_ADDR := rfl
@[simp] theorem lo_MEM_FLIP_ADDR_SHEET : MEM_FLIP_ADDR.SHEET.lo = 8 := rfl
@[simp] theorem w_MEM_FLIP_ADDR_SHEET : MEM_FLIP_ADDR.SHEET.w = 38 := rfl
@[simp] theorem reg_MEM_FLIP_POS : MEM_FLIP.POS.reg = .MEM_FLIP := rfl
@[simp] theorem lo_MEM_FLIP_POS : MEM_FLIP.POS.lo = 0 := rfl
@[simp] theorem w_MEM_FLIP_POS : MEM_FLIP.POS.w = 8 := rfl
@[simp] theorem reg_MEM_FLIP_MASK : MEM_FLIP.MASK.reg = .MEM_FLIP := rfl
@[simp] theorem lo_MEM_FLIP_MASK : MEM_FLIP.MASK.lo = 8 := rfl
@[simp] theorem w_MEM_FLIP_MASK : MEM_FLIP.MASK.w = 10 := rfl
@[simp] theorem reg_MEM_PLATE_CFG_H_T : MEM_PLATE_CFG_H.T.reg = .MEM_PLATE_CFG_H := rfl
@[simp] theorem lo_MEM_PLATE_CFG_H_T : MEM_PLATE_CFG_H.T.lo = 0 := rfl
@[simp] theorem w_MEM_PLATE_CFG_H_T : MEM_PLATE_CFG_H.T.w = 5 := rfl
@[simp] theorem reg_MEM_PLATE_CFG_H_T_OLD : MEM_PLATE_CFG_H.T_OLD.reg = .MEM_PLATE_CFG_H := rfl
@[simp] theorem lo_MEM_PLATE_CFG_H_T_OLD : MEM_PLATE_CFG_H.T_OLD.lo = 8 := rfl
@[simp] theorem w_MEM_PLATE_CFG_H_T_OLD : MEM_PLATE_CFG_H.T_OLD.w = 5 := rfl
@[simp] theorem reg_MEM_PLATE_CFG_H_RECODE : MEM_PLATE_CFG_H.RECODE.reg = .MEM_PLATE_CFG_H := rfl
@[simp] theorem lo_MEM_PLATE_CFG_H_RECODE : MEM_PLATE_CFG_H.RECODE.lo = 13 := rfl
@[simp] theorem w_MEM_PLATE_CFG_H_RECODE : MEM_PLATE_CFG_H.RECODE.w = 1 := rfl
@[simp] theorem reg_MEM_PLATE_CFG_H_T_REFUSED : MEM_PLATE_CFG_H.T_REFUSED.reg = .MEM_PLATE_CFG_H := rfl
@[simp] theorem lo_MEM_PLATE_CFG_H_T_REFUSED : MEM_PLATE_CFG_H.T_REFUSED.lo = 14 := rfl
@[simp] theorem w_MEM_PLATE_CFG_H_T_REFUSED : MEM_PLATE_CFG_H.T_REFUSED.w = 1 := rfl
@[simp] theorem reg_MEM_PLATE_CFG_D_T : MEM_PLATE_CFG_D.T.reg = .MEM_PLATE_CFG_D := rfl
@[simp] theorem lo_MEM_PLATE_CFG_D_T : MEM_PLATE_CFG_D.T.lo = 0 := rfl
@[simp] theorem w_MEM_PLATE_CFG_D_T : MEM_PLATE_CFG_D.T.w = 5 := rfl
@[simp] theorem reg_MEM_PLATE_CFG_D_T_OLD : MEM_PLATE_CFG_D.T_OLD.reg = .MEM_PLATE_CFG_D := rfl
@[simp] theorem lo_MEM_PLATE_CFG_D_T_OLD : MEM_PLATE_CFG_D.T_OLD.lo = 8 := rfl
@[simp] theorem w_MEM_PLATE_CFG_D_T_OLD : MEM_PLATE_CFG_D.T_OLD.w = 5 := rfl
@[simp] theorem reg_MEM_PLATE_CFG_D_RECODE : MEM_PLATE_CFG_D.RECODE.reg = .MEM_PLATE_CFG_D := rfl
@[simp] theorem lo_MEM_PLATE_CFG_D_RECODE : MEM_PLATE_CFG_D.RECODE.lo = 13 := rfl
@[simp] theorem w_MEM_PLATE_CFG_D_RECODE : MEM_PLATE_CFG_D.RECODE.w = 1 := rfl
@[simp] theorem reg_MEM_PLATE_CFG_D_T_REFUSED : MEM_PLATE_CFG_D.T_REFUSED.reg = .MEM_PLATE_CFG_D := rfl
@[simp] theorem lo_MEM_PLATE_CFG_D_T_REFUSED : MEM_PLATE_CFG_D.T_REFUSED.lo = 14 := rfl
@[simp] theorem w_MEM_PLATE_CFG_D_T_REFUSED : MEM_PLATE_CFG_D.T_REFUSED.w = 1 := rfl
@[simp] theorem reg_MEM_PLATE_CNT_H_CE : MEM_PLATE_CNT_H.CE.reg = .MEM_PLATE_CNT_H := rfl
@[simp] theorem lo_MEM_PLATE_CNT_H_CE : MEM_PLATE_CNT_H.CE.lo = 0 := rfl
@[simp] theorem w_MEM_PLATE_CNT_H_CE : MEM_PLATE_CNT_H.CE.w = 32 := rfl
@[simp] theorem reg_MEM_PLATE_CNT_H_UE : MEM_PLATE_CNT_H.UE.reg = .MEM_PLATE_CNT_H := rfl
@[simp] theorem lo_MEM_PLATE_CNT_H_UE : MEM_PLATE_CNT_H.UE.lo = 32 := rfl
@[simp] theorem w_MEM_PLATE_CNT_H_UE : MEM_PLATE_CNT_H.UE.w = 32 := rfl
@[simp] theorem reg_MEM_PLATE_CNT_D_CE : MEM_PLATE_CNT_D.CE.reg = .MEM_PLATE_CNT_D := rfl
@[simp] theorem lo_MEM_PLATE_CNT_D_CE : MEM_PLATE_CNT_D.CE.lo = 0 := rfl
@[simp] theorem w_MEM_PLATE_CNT_D_CE : MEM_PLATE_CNT_D.CE.w = 32 := rfl
@[simp] theorem reg_MEM_PLATE_CNT_D_UE : MEM_PLATE_CNT_D.UE.reg = .MEM_PLATE_CNT_D := rfl
@[simp] theorem lo_MEM_PLATE_CNT_D_UE : MEM_PLATE_CNT_D.UE.lo = 32 := rfl
@[simp] theorem w_MEM_PLATE_CNT_D_UE : MEM_PLATE_CNT_D.UE.w = 32 := rfl
@[simp] theorem reg_STN_CFG_OPEN : STN_CFG.OPEN.reg = .STN_CFG := rfl
@[simp] theorem lo_STN_CFG_OPEN : STN_CFG.OPEN.lo = 0 := rfl
@[simp] theorem w_STN_CFG_OPEN : STN_CFG.OPEN.w = 1 := rfl
@[simp] theorem reg_STN_CFG_TRIG_EN : STN_CFG.TRIG_EN.reg = .STN_CFG := rfl
@[simp] theorem lo_STN_CFG_TRIG_EN : STN_CFG.TRIG_EN.lo = 1 := rfl
@[simp] theorem w_STN_CFG_TRIG_EN : STN_CFG.TRIG_EN.w = 1 := rfl
@[simp] theorem reg_STN_CFG_FRAG_EN : STN_CFG.FRAG_EN.reg = .STN_CFG := rfl
@[simp] theorem lo_STN_CFG_FRAG_EN : STN_CFG.FRAG_EN.lo = 2 := rfl
@[simp] theorem w_STN_CFG_FRAG_EN : STN_CFG.FRAG_EN.w = 1 := rfl
@[simp] theorem reg_STN_CFG_CORE_NS : STN_CFG.CORE_NS.reg = .STN_CFG := rfl
@[simp] theorem lo_STN_CFG_CORE_NS : STN_CFG.CORE_NS.lo = 3 := rfl
@[simp] theorem w_STN_CFG_CORE_NS : STN_CFG.CORE_NS.w = 1 := rfl
@[simp] theorem reg_STN_CFG_TICKDIV : STN_CFG.TICKDIV.reg = .STN_CFG := rfl
@[simp] theorem lo_STN_CFG_TICKDIV : STN_CFG.TICKDIV.lo = 4 := rfl
@[simp] theorem w_STN_CFG_TICKDIV : STN_CFG.TICKDIV.w = 3 := rfl
@[simp] theorem reg_STN_STATUS_READY : STN_STATUS.READY.reg = .STN_STATUS := rfl
@[simp] theorem lo_STN_STATUS_READY : STN_STATUS.READY.lo = 0 := rfl
@[simp] theorem w_STN_STATUS_READY : STN_STATUS.READY.w = 1 := rfl
@[simp] theorem reg_STN_STATUS_EVT_DENIED : STN_STATUS.EVT_DENIED.reg = .STN_STATUS := rfl
@[simp] theorem lo_STN_STATUS_EVT_DENIED : STN_STATUS.EVT_DENIED.lo = 32 := rfl
@[simp] theorem w_STN_STATUS_EVT_DENIED : STN_STATUS.EVT_DENIED.w = 1 := rfl
@[simp] theorem reg_STN_STATUS_EVT_REFUSED : STN_STATUS.EVT_REFUSED.reg = .STN_STATUS := rfl
@[simp] theorem lo_STN_STATUS_EVT_REFUSED : STN_STATUS.EVT_REFUSED.lo = 33 := rfl
@[simp] theorem w_STN_STATUS_EVT_REFUSED : STN_STATUS.EVT_REFUSED.w = 1 := rfl
@[simp] theorem reg_STN_STATUS_EVT_TRIG_DROP : STN_STATUS.EVT_TRIG_DROP.reg = .STN_STATUS := rfl
@[simp] theorem lo_STN_STATUS_EVT_TRIG_DROP : STN_STATUS.EVT_TRIG_DROP.lo = 34 := rfl
@[simp] theorem w_STN_STATUS_EVT_TRIG_DROP : STN_STATUS.EVT_TRIG_DROP.w = 1 := rfl
@[simp] theorem reg_STN_STATUS_EVT_TMO : STN_STATUS.EVT_TMO.reg = .STN_STATUS := rfl
@[simp] theorem lo_STN_STATUS_EVT_TMO : STN_STATUS.EVT_TMO.lo = 35 := rfl
@[simp] theorem w_STN_STATUS_EVT_TMO : STN_STATUS.EVT_TMO.w = 1 := rfl
@[simp] theorem reg_STN_RATE_RATE : STN_RATE.RATE.reg = .STN_RATE := rfl
@[simp] theorem lo_STN_RATE_RATE : STN_RATE.RATE.lo = 0 := rfl
@[simp] theorem w_STN_RATE_RATE : STN_RATE.RATE.w = 12 := rfl
@[simp] theorem reg_STN_RATE_BURST : STN_RATE.BURST.reg = .STN_RATE := rfl
@[simp] theorem lo_STN_RATE_BURST : STN_RATE.BURST.lo = 16 := rfl
@[simp] theorem w_STN_RATE_BURST : STN_RATE.BURST.w = 10 := rfl
@[simp] theorem reg_STN_TRIG_MASK_MASK : STN_TRIG_MASK.MASK.reg = .STN_TRIG_MASK := rfl
@[simp] theorem lo_STN_TRIG_MASK_MASK : STN_TRIG_MASK.MASK.lo = 0 := rfl
@[simp] theorem w_STN_TRIG_MASK_MASK : STN_TRIG_MASK.MASK.w = 64 := rfl
@[simp] theorem reg_STN_CNT0_DENIED : STN_CNT0.DENIED.reg = .STN_CNT0 := rfl
@[simp] theorem lo_STN_CNT0_DENIED : STN_CNT0.DENIED.lo = 0 := rfl
@[simp] theorem w_STN_CNT0_DENIED : STN_CNT0.DENIED.w = 32 := rfl
@[simp] theorem reg_STN_CNT0_THROTTLED : STN_CNT0.THROTTLED.reg = .STN_CNT0 := rfl
@[simp] theorem lo_STN_CNT0_THROTTLED : STN_CNT0.THROTTLED.lo = 32 := rfl
@[simp] theorem w_STN_CNT0_THROTTLED : STN_CNT0.THROTTLED.w = 32 := rfl
@[simp] theorem reg_STN_CNT1_BAD_MSG : STN_CNT1.BAD_MSG.reg = .STN_CNT1 := rfl
@[simp] theorem lo_STN_CNT1_BAD_MSG : STN_CNT1.BAD_MSG.lo = 0 := rfl
@[simp] theorem w_STN_CNT1_BAD_MSG : STN_CNT1.BAD_MSG.w = 16 := rfl
@[simp] theorem reg_STN_CNT1_TRIG_DROP : STN_CNT1.TRIG_DROP.reg = .STN_CNT1 := rfl
@[simp] theorem lo_STN_CNT1_TRIG_DROP : STN_CNT1.TRIG_DROP.lo = 16 := rfl
@[simp] theorem w_STN_CNT1_TRIG_DROP : STN_CNT1.TRIG_DROP.w = 16 := rfl
@[simp] theorem reg_STN_CNT1_TMO : STN_CNT1.TMO.reg = .STN_CNT1 := rfl
@[simp] theorem lo_STN_CNT1_TMO : STN_CNT1.TMO.lo = 32 := rfl
@[simp] theorem w_STN_CNT1_TMO : STN_CNT1.TMO.w = 16 := rfl
@[simp] theorem reg_STN_CNT1_FRAG_OVF : STN_CNT1.FRAG_OVF.reg = .STN_CNT1 := rfl
@[simp] theorem lo_STN_CNT1_FRAG_OVF : STN_CNT1.FRAG_OVF.lo = 48 := rfl
@[simp] theorem w_STN_CNT1_FRAG_OVF : STN_CNT1.FRAG_OVF.w = 16 := rfl
@[simp] theorem reg_STN_WIN_EN : STN_WIN.EN.reg = .STN_WIN := rfl
@[simp] theorem lo_STN_WIN_EN : STN_WIN.EN.lo = 0 := rfl
@[simp] theorem w_STN_WIN_EN : STN_WIN.EN.w = 1 := rfl
@[simp] theorem reg_STN_WIN_RD : STN_WIN.RD.reg = .STN_WIN := rfl
@[simp] theorem lo_STN_WIN_RD : STN_WIN.RD.lo = 1 := rfl
@[simp] theorem w_STN_WIN_RD : STN_WIN.RD.w = 1 := rfl
@[simp] theorem reg_STN_WIN_WR : STN_WIN.WR.reg = .STN_WIN := rfl
@[simp] theorem lo_STN_WIN_WR : STN_WIN.WR.lo = 2 := rfl
@[simp] theorem w_STN_WIN_WR : STN_WIN.WR.w = 1 := rfl
@[simp] theorem reg_STN_WIN_BASE : STN_WIN.BASE.reg = .STN_WIN := rfl
@[simp] theorem lo_STN_WIN_BASE : STN_WIN.BASE.lo = 12 := rfl
@[simp] theorem w_STN_WIN_BASE : STN_WIN.BASE.w = 34 := rfl
@[simp] theorem reg_STN_WIN_LIMIT_LIMIT : STN_WIN_LIMIT.LIMIT.reg = .STN_WIN_LIMIT := rfl
@[simp] theorem lo_STN_WIN_LIMIT_LIMIT : STN_WIN_LIMIT.LIMIT.lo = 12 := rfl
@[simp] theorem w_STN_WIN_LIMIT_LIMIT : STN_WIN_LIMIT.LIMIT.w = 34 := rfl
@[simp] theorem reg_HIF_PORT_CFG_BAR4_EN : HIF_PORT_CFG.BAR4_EN.reg = .HIF_PORT_CFG := rfl
@[simp] theorem lo_HIF_PORT_CFG_BAR4_EN : HIF_PORT_CFG.BAR4_EN.lo = 0 := rfl
@[simp] theorem w_HIF_PORT_CFG_BAR4_EN : HIF_PORT_CFG.BAR4_EN.w = 1 := rfl
@[simp] theorem reg_HIF_BAR4_SEL_BASE : HIF_BAR4_SEL.BASE.reg = .HIF_BAR4_SEL := rfl
@[simp] theorem lo_HIF_BAR4_SEL_BASE : HIF_BAR4_SEL.BASE.lo = 30 := rfl
@[simp] theorem w_HIF_BAR4_SEL_BASE : HIF_BAR4_SEL.BASE.w = 16 := rfl
@[simp] theorem reg_HIF_PORT_STATUS_LINK_UP : HIF_PORT_STATUS.LINK_UP.reg = .HIF_PORT_STATUS := rfl
@[simp] theorem lo_HIF_PORT_STATUS_LINK_UP : HIF_PORT_STATUS.LINK_UP.lo = 0 := rfl
@[simp] theorem w_HIF_PORT_STATUS_LINK_UP : HIF_PORT_STATUS.LINK_UP.w = 1 := rfl
@[simp] theorem reg_HIF_PORT_STATUS_SPEED : HIF_PORT_STATUS.SPEED.reg = .HIF_PORT_STATUS := rfl
@[simp] theorem lo_HIF_PORT_STATUS_SPEED : HIF_PORT_STATUS.SPEED.lo = 1 := rfl
@[simp] theorem w_HIF_PORT_STATUS_SPEED : HIF_PORT_STATUS.SPEED.w = 3 := rfl
@[simp] theorem reg_HIF_PORT_STATUS_WIDTH : HIF_PORT_STATUS.WIDTH.reg = .HIF_PORT_STATUS := rfl
@[simp] theorem lo_HIF_PORT_STATUS_WIDTH : HIF_PORT_STATUS.WIDTH.lo = 4 := rfl
@[simp] theorem w_HIF_PORT_STATUS_WIDTH : HIF_PORT_STATUS.WIDTH.w = 5 := rfl
@[simp] theorem reg_HIF_PORT_STATUS_FLIT : HIF_PORT_STATUS.FLIT.reg = .HIF_PORT_STATUS := rfl
@[simp] theorem lo_HIF_PORT_STATUS_FLIT : HIF_PORT_STATUS.FLIT.lo = 9 := rfl
@[simp] theorem w_HIF_PORT_STATUS_FLIT : HIF_PORT_STATUS.FLIT.w = 1 := rfl
@[simp] theorem reg_HIF_PORT_STATUS_DEGRADED : HIF_PORT_STATUS.DEGRADED.reg = .HIF_PORT_STATUS := rfl
@[simp] theorem lo_HIF_PORT_STATUS_DEGRADED : HIF_PORT_STATUS.DEGRADED.lo = 10 := rfl
@[simp] theorem w_HIF_PORT_STATUS_DEGRADED : HIF_PORT_STATUS.DEGRADED.w = 1 := rfl
@[simp] theorem reg_HIF_PORT_STATUS_FW_READY : HIF_PORT_STATUS.FW_READY.reg = .HIF_PORT_STATUS := rfl
@[simp] theorem lo_HIF_PORT_STATUS_FW_READY : HIF_PORT_STATUS.FW_READY.lo = 11 := rfl
@[simp] theorem w_HIF_PORT_STATUS_FW_READY : HIF_PORT_STATUS.FW_READY.w = 1 := rfl
@[simp] theorem reg_HIF_PORT_STATUS_DSTATE : HIF_PORT_STATUS.DSTATE.reg = .HIF_PORT_STATUS := rfl
@[simp] theorem lo_HIF_PORT_STATUS_DSTATE : HIF_PORT_STATUS.DSTATE.lo = 12 := rfl
@[simp] theorem w_HIF_PORT_STATUS_DSTATE : HIF_PORT_STATUS.DSTATE.w = 2 := rfl
@[simp] theorem reg_HIF_PORT_STATUS_EVT_LINK : HIF_PORT_STATUS.EVT_LINK.reg = .HIF_PORT_STATUS := rfl
@[simp] theorem lo_HIF_PORT_STATUS_EVT_LINK : HIF_PORT_STATUS.EVT_LINK.lo = 32 := rfl
@[simp] theorem w_HIF_PORT_STATUS_EVT_LINK : HIF_PORT_STATUS.EVT_LINK.w = 1 := rfl
@[simp] theorem reg_HIF_PORT_STATUS_EVT_CORR : HIF_PORT_STATUS.EVT_CORR.reg = .HIF_PORT_STATUS := rfl
@[simp] theorem lo_HIF_PORT_STATUS_EVT_CORR : HIF_PORT_STATUS.EVT_CORR.lo = 33 := rfl
@[simp] theorem w_HIF_PORT_STATUS_EVT_CORR : HIF_PORT_STATUS.EVT_CORR.w = 1 := rfl
@[simp] theorem reg_HIF_PORT_STATUS_EVT_NONFATAL : HIF_PORT_STATUS.EVT_NONFATAL.reg = .HIF_PORT_STATUS := rfl
@[simp] theorem lo_HIF_PORT_STATUS_EVT_NONFATAL : HIF_PORT_STATUS.EVT_NONFATAL.lo = 34 := rfl
@[simp] theorem w_HIF_PORT_STATUS_EVT_NONFATAL : HIF_PORT_STATUS.EVT_NONFATAL.w = 1 := rfl
@[simp] theorem reg_HIF_PORT_STATUS_EVT_FATAL : HIF_PORT_STATUS.EVT_FATAL.reg = .HIF_PORT_STATUS := rfl
@[simp] theorem lo_HIF_PORT_STATUS_EVT_FATAL : HIF_PORT_STATUS.EVT_FATAL.lo = 35 := rfl
@[simp] theorem w_HIF_PORT_STATUS_EVT_FATAL : HIF_PORT_STATUS.EVT_FATAL.w = 1 := rfl
@[simp] theorem reg_HIF_PORT_STATUS_EVT_RESET : HIF_PORT_STATUS.EVT_RESET.reg = .HIF_PORT_STATUS := rfl
@[simp] theorem lo_HIF_PORT_STATUS_EVT_RESET : HIF_PORT_STATUS.EVT_RESET.lo = 36 := rfl
@[simp] theorem w_HIF_PORT_STATUS_EVT_RESET : HIF_PORT_STATUS.EVT_RESET.w = 1 := rfl
@[simp] theorem reg_HIF_PORT_STATUS_EVT_CPL_TMO : HIF_PORT_STATUS.EVT_CPL_TMO.reg = .HIF_PORT_STATUS := rfl
@[simp] theorem lo_HIF_PORT_STATUS_EVT_CPL_TMO : HIF_PORT_STATUS.EVT_CPL_TMO.lo = 37 := rfl
@[simp] theorem w_HIF_PORT_STATUS_EVT_CPL_TMO : HIF_PORT_STATUS.EVT_CPL_TMO.w = 1 := rfl
@[simp] theorem reg_HIF_PORT_STATUS_EVT_DEGRADED : HIF_PORT_STATUS.EVT_DEGRADED.reg = .HIF_PORT_STATUS := rfl
@[simp] theorem lo_HIF_PORT_STATUS_EVT_DEGRADED : HIF_PORT_STATUS.EVT_DEGRADED.lo = 38 := rfl
@[simp] theorem w_HIF_PORT_STATUS_EVT_DEGRADED : HIF_PORT_STATUS.EVT_DEGRADED.w = 1 := rfl
@[simp] theorem reg_HIF_PORT_STATUS_EVT_RECOVER : HIF_PORT_STATUS.EVT_RECOVER.reg = .HIF_PORT_STATUS := rfl
@[simp] theorem lo_HIF_PORT_STATUS_EVT_RECOVER : HIF_PORT_STATUS.EVT_RECOVER.lo = 39 := rfl
@[simp] theorem w_HIF_PORT_STATUS_EVT_RECOVER : HIF_PORT_STATUS.EVT_RECOVER.w = 1 := rfl
@[simp] theorem reg_HIF_PORT_CNT0_CORR : HIF_PORT_CNT0.CORR.reg = .HIF_PORT_CNT0 := rfl
@[simp] theorem lo_HIF_PORT_CNT0_CORR : HIF_PORT_CNT0.CORR.lo = 0 := rfl
@[simp] theorem w_HIF_PORT_CNT0_CORR : HIF_PORT_CNT0.CORR.w = 32 := rfl
@[simp] theorem reg_HIF_PORT_CNT0_NONFATAL : HIF_PORT_CNT0.NONFATAL.reg = .HIF_PORT_CNT0 := rfl
@[simp] theorem lo_HIF_PORT_CNT0_NONFATAL : HIF_PORT_CNT0.NONFATAL.lo = 32 := rfl
@[simp] theorem w_HIF_PORT_CNT0_NONFATAL : HIF_PORT_CNT0.NONFATAL.w = 16 := rfl
@[simp] theorem reg_HIF_PORT_CNT0_FATAL : HIF_PORT_CNT0.FATAL.reg = .HIF_PORT_CNT0 := rfl
@[simp] theorem lo_HIF_PORT_CNT0_FATAL : HIF_PORT_CNT0.FATAL.lo = 48 := rfl
@[simp] theorem w_HIF_PORT_CNT0_FATAL : HIF_PORT_CNT0.FATAL.w = 16 := rfl
@[simp] theorem reg_HIF_PORT_CNT1_CPL_TMO : HIF_PORT_CNT1.CPL_TMO.reg = .HIF_PORT_CNT1 := rfl
@[simp] theorem lo_HIF_PORT_CNT1_CPL_TMO : HIF_PORT_CNT1.CPL_TMO.lo = 0 := rfl
@[simp] theorem w_HIF_PORT_CNT1_CPL_TMO : HIF_PORT_CNT1.CPL_TMO.w = 16 := rfl
@[simp] theorem reg_HIF_PORT_CNT1_UNEXP_CPL : HIF_PORT_CNT1.UNEXP_CPL.reg = .HIF_PORT_CNT1 := rfl
@[simp] theorem lo_HIF_PORT_CNT1_UNEXP_CPL : HIF_PORT_CNT1.UNEXP_CPL.lo = 16 := rfl
@[simp] theorem w_HIF_PORT_CNT1_UNEXP_CPL : HIF_PORT_CNT1.UNEXP_CPL.w = 16 := rfl
@[simp] theorem reg_HIF_PORT_CNT1_POISON_TX : HIF_PORT_CNT1.POISON_TX.reg = .HIF_PORT_CNT1 := rfl
@[simp] theorem lo_HIF_PORT_CNT1_POISON_TX : HIF_PORT_CNT1.POISON_TX.lo = 32 := rfl
@[simp] theorem w_HIF_PORT_CNT1_POISON_TX : HIF_PORT_CNT1.POISON_TX.w = 16 := rfl
@[simp] theorem reg_HIF_PORT_CNT1_DROPPED_WR : HIF_PORT_CNT1.DROPPED_WR.reg = .HIF_PORT_CNT1 := rfl
@[simp] theorem lo_HIF_PORT_CNT1_DROPPED_WR : HIF_PORT_CNT1.DROPPED_WR.lo = 48 := rfl
@[simp] theorem w_HIF_PORT_CNT1_DROPPED_WR : HIF_PORT_CNT1.DROPPED_WR.w = 16 := rfl
@[simp] theorem reg_HIF_PORT_CNT2_FLRS : HIF_PORT_CNT2.FLRS.reg = .HIF_PORT_CNT2 := rfl
@[simp] theorem lo_HIF_PORT_CNT2_FLRS : HIF_PORT_CNT2.FLRS.lo = 0 := rfl
@[simp] theorem w_HIF_PORT_CNT2_FLRS : HIF_PORT_CNT2.FLRS.w = 16 := rfl
@[simp] theorem reg_HIF_PORT_CNT2_HOT_RESETS : HIF_PORT_CNT2.HOT_RESETS.reg = .HIF_PORT_CNT2 := rfl
@[simp] theorem lo_HIF_PORT_CNT2_HOT_RESETS : HIF_PORT_CNT2.HOT_RESETS.lo = 16 := rfl
@[simp] theorem w_HIF_PORT_CNT2_HOT_RESETS : HIF_PORT_CNT2.HOT_RESETS.w = 16 := rfl
@[simp] theorem reg_HIF_PORT_CNT2_PERSTS : HIF_PORT_CNT2.PERSTS.reg = .HIF_PORT_CNT2 := rfl
@[simp] theorem lo_HIF_PORT_CNT2_PERSTS : HIF_PORT_CNT2.PERSTS.lo = 32 := rfl
@[simp] theorem w_HIF_PORT_CNT2_PERSTS : HIF_PORT_CNT2.PERSTS.w = 16 := rfl
@[simp] theorem reg_HIF_PORT_CNT2_LINK_DOWNS : HIF_PORT_CNT2.LINK_DOWNS.reg = .HIF_PORT_CNT2 := rfl
@[simp] theorem lo_HIF_PORT_CNT2_LINK_DOWNS : HIF_PORT_CNT2.LINK_DOWNS.lo = 48 := rfl
@[simp] theorem w_HIF_PORT_CNT2_LINK_DOWNS : HIF_PORT_CNT2.LINK_DOWNS.w = 16 := rfl
@[simp] theorem reg_HIF_DB_CFG_PPR0 : HIF_DB_CFG.PPR0.reg = .HIF_DB_CFG := rfl
@[simp] theorem lo_HIF_DB_CFG_PPR0 : HIF_DB_CFG.PPR0.lo = 0 := rfl
@[simp] theorem w_HIF_DB_CFG_PPR0 : HIF_DB_CFG.PPR0.w = 1 := rfl
@[simp] theorem reg_HIF_DB_CFG_PPR1 : HIF_DB_CFG.PPR1.reg = .HIF_DB_CFG := rfl
@[simp] theorem lo_HIF_DB_CFG_PPR1 : HIF_DB_CFG.PPR1.lo = 1 := rfl
@[simp] theorem w_HIF_DB_CFG_PPR1 : HIF_DB_CFG.PPR1.w = 1 := rfl
@[simp] theorem reg_HIF_RING_STATUS_HALTED : HIF_RING_STATUS.HALTED.reg = .HIF_RING_STATUS := rfl
@[simp] theorem lo_HIF_RING_STATUS_HALTED : HIF_RING_STATUS.HALTED.lo = 0 := rfl
@[simp] theorem w_HIF_RING_STATUS_HALTED : HIF_RING_STATUS.HALTED.w = 14 := rfl
@[simp] theorem reg_HIF_RING_STATUS_EVT_HALT : HIF_RING_STATUS.EVT_HALT.reg = .HIF_RING_STATUS := rfl
@[simp] theorem lo_HIF_RING_STATUS_EVT_HALT : HIF_RING_STATUS.EVT_HALT.lo = 32 := rfl
@[simp] theorem w_HIF_RING_STATUS_EVT_HALT : HIF_RING_STATUS.EVT_HALT.w = 1 := rfl
@[simp] theorem reg_HIF_RING_STATUS_EVT_DB : HIF_RING_STATUS.EVT_DB.reg = .HIF_RING_STATUS := rfl
@[simp] theorem lo_HIF_RING_STATUS_EVT_DB : HIF_RING_STATUS.EVT_DB.lo = 33 := rfl
@[simp] theorem w_HIF_RING_STATUS_EVT_DB : HIF_RING_STATUS.EVT_DB.w = 1 := rfl
@[simp] theorem reg_HIF_RING_STATUS_EVT_SPOOF : HIF_RING_STATUS.EVT_SPOOF.reg = .HIF_RING_STATUS := rfl
@[simp] theorem lo_HIF_RING_STATUS_EVT_SPOOF : HIF_RING_STATUS.EVT_SPOOF.lo = 34 := rfl
@[simp] theorem w_HIF_RING_STATUS_EVT_SPOOF : HIF_RING_STATUS.EVT_SPOOF.w = 1 := rfl
@[simp] theorem reg_HIF_RING_STATUS_EVT_REFUSED : HIF_RING_STATUS.EVT_REFUSED.reg = .HIF_RING_STATUS := rfl
@[simp] theorem lo_HIF_RING_STATUS_EVT_REFUSED : HIF_RING_STATUS.EVT_REFUSED.lo = 35 := rfl
@[simp] theorem w_HIF_RING_STATUS_EVT_REFUSED : HIF_RING_STATUS.EVT_REFUSED.w = 1 := rfl
@[simp] theorem reg_HIF_RING_CNT0_STALE_DB : HIF_RING_CNT0.STALE_DB.reg = .HIF_RING_CNT0 := rfl
@[simp] theorem lo_HIF_RING_CNT0_STALE_DB : HIF_RING_CNT0.STALE_DB.lo = 0 := rfl
@[simp] theorem w_HIF_RING_CNT0_STALE_DB : HIF_RING_CNT0.STALE_DB.w = 32 := rfl
@[simp] theorem reg_HIF_RING_CNT0_BAD_DB : HIF_RING_CNT0.BAD_DB.reg = .HIF_RING_CNT0 := rfl
@[simp] theorem lo_HIF_RING_CNT0_BAD_DB : HIF_RING_CNT0.BAD_DB.lo = 32 := rfl
@[simp] theorem w_HIF_RING_CNT0_BAD_DB : HIF_RING_CNT0.BAD_DB.w = 32 := rfl
@[simp] theorem reg_HIF_RING_CNT1_COMPLETIONS : HIF_RING_CNT1.COMPLETIONS.reg = .HIF_RING_CNT1 := rfl
@[simp] theorem lo_HIF_RING_CNT1_COMPLETIONS : HIF_RING_CNT1.COMPLETIONS.lo = 0 := rfl
@[simp] theorem w_HIF_RING_CNT1_COMPLETIONS : HIF_RING_CNT1.COMPLETIONS.w = 48 := rfl
@[simp] theorem reg_HIF_RING_CNT1_SPOOF_ADMIN : HIF_RING_CNT1.SPOOF_ADMIN.reg = .HIF_RING_CNT1 := rfl
@[simp] theorem lo_HIF_RING_CNT1_SPOOF_ADMIN : HIF_RING_CNT1.SPOOF_ADMIN.lo = 48 := rfl
@[simp] theorem w_HIF_RING_CNT1_SPOOF_ADMIN : HIF_RING_CNT1.SPOOF_ADMIN.w = 16 := rfl
@[simp] theorem reg_HIF_RING_HALTED_MAP : HIF_RING_HALTED.MAP.reg = .HIF_RING_HALTED := rfl
@[simp] theorem lo_HIF_RING_HALTED_MAP : HIF_RING_HALTED.MAP.lo = 0 := rfl
@[simp] theorem w_HIF_RING_HALTED_MAP : HIF_RING_HALTED.MAP.w = 64 := rfl
@[simp] theorem reg_HIF_RING_CFG_EN : HIF_RING_CFG.EN.reg = .HIF_RING_CFG := rfl
@[simp] theorem lo_HIF_RING_CFG_EN : HIF_RING_CFG.EN.lo = 0 := rfl
@[simp] theorem w_HIF_RING_CFG_EN : HIF_RING_CFG.EN.w = 1 := rfl
@[simp] theorem reg_HIF_RING_CFG_PORT : HIF_RING_CFG.PORT.reg = .HIF_RING_CFG := rfl
@[simp] theorem lo_HIF_RING_CFG_PORT : HIF_RING_CFG.PORT.lo = 1 := rfl
@[simp] theorem w_HIF_RING_CFG_PORT : HIF_RING_CFG.PORT.w = 1 := rfl
@[simp] theorem reg_HIF_RING_CFG_RESUME : HIF_RING_CFG.RESUME.reg = .HIF_RING_CFG := rfl
@[simp] theorem lo_HIF_RING_CFG_RESUME : HIF_RING_CFG.RESUME.lo = 2 := rfl
@[simp] theorem w_HIF_RING_CFG_RESUME : HIF_RING_CFG.RESUME.w = 1 := rfl
@[simp] theorem reg_HIF_RING_CFG_SQ_LOG : HIF_RING_CFG.SQ_LOG.reg = .HIF_RING_CFG := rfl
@[simp] theorem lo_HIF_RING_CFG_SQ_LOG : HIF_RING_CFG.SQ_LOG.lo = 3 := rfl
@[simp] theorem w_HIF_RING_CFG_SQ_LOG : HIF_RING_CFG.SQ_LOG.w = 5 := rfl
@[simp] theorem reg_HIF_RING_CFG_CQ_LOG : HIF_RING_CFG.CQ_LOG.reg = .HIF_RING_CFG := rfl
@[simp] theorem lo_HIF_RING_CFG_CQ_LOG : HIF_RING_CFG.CQ_LOG.lo = 8 := rfl
@[simp] theorem w_HIF_RING_CFG_CQ_LOG : HIF_RING_CFG.CQ_LOG.w = 5 := rfl
@[simp] theorem reg_HIF_RING_CFG_SLICE : HIF_RING_CFG.SLICE.reg = .HIF_RING_CFG := rfl
@[simp] theorem lo_HIF_RING_CFG_SLICE : HIF_RING_CFG.SLICE.lo = 16 := rfl
@[simp] theorem w_HIF_RING_CFG_SLICE : HIF_RING_CFG.SLICE.w = 8 := rfl
@[simp] theorem reg_HIF_RING_CFG_DBI : HIF_RING_CFG.DBI.reg = .HIF_RING_CFG := rfl
@[simp] theorem lo_HIF_RING_CFG_DBI : HIF_RING_CFG.DBI.lo = 32 := rfl
@[simp] theorem w_HIF_RING_CFG_DBI : HIF_RING_CFG.DBI.w = 9 := rfl
@[simp] theorem reg_HIF_RING_CFG_ROLE_EPOCH : HIF_RING_CFG.ROLE_EPOCH.reg = .HIF_RING_CFG := rfl
@[simp] theorem lo_HIF_RING_CFG_ROLE_EPOCH : HIF_RING_CFG.ROLE_EPOCH.lo = 48 := rfl
@[simp] theorem w_HIF_RING_CFG_ROLE_EPOCH : HIF_RING_CFG.ROLE_EPOCH.w = 16 := rfl
@[simp] theorem reg_HIF_RING_SQ_BASE : HIF_RING_SQ.BASE.reg = .HIF_RING_SQ := rfl
@[simp] theorem lo_HIF_RING_SQ_BASE : HIF_RING_SQ.BASE.lo = 10 := rfl
@[simp] theorem w_HIF_RING_SQ_BASE : HIF_RING_SQ.BASE.w = 36 := rfl
@[simp] theorem reg_HIF_RING_CQ_BASE : HIF_RING_CQ.BASE.reg = .HIF_RING_CQ := rfl
@[simp] theorem lo_HIF_RING_CQ_BASE : HIF_RING_CQ.BASE.lo = 9 := rfl
@[simp] theorem w_HIF_RING_CQ_BASE : HIF_RING_CQ.BASE.w = 37 := rfl
@[simp] theorem reg_HIF_RING_IRQ_VECTOR : HIF_RING_IRQ.VECTOR.reg = .HIF_RING_IRQ := rfl
@[simp] theorem lo_HIF_RING_IRQ_VECTOR : HIF_RING_IRQ.VECTOR.lo = 0 := rfl
@[simp] theorem w_HIF_RING_IRQ_VECTOR : HIF_RING_IRQ.VECTOR.w = 11 := rfl
@[simp] theorem reg_HIF_RING_IRQ_IRQ_EN : HIF_RING_IRQ.IRQ_EN.reg = .HIF_RING_IRQ := rfl
@[simp] theorem lo_HIF_RING_IRQ_IRQ_EN : HIF_RING_IRQ.IRQ_EN.lo = 11 := rfl
@[simp] theorem w_HIF_RING_IRQ_IRQ_EN : HIF_RING_IRQ.IRQ_EN.w = 1 := rfl
@[simp] theorem reg_HIF_RING_IRQ_MOD_COUNT : HIF_RING_IRQ.MOD_COUNT.reg = .HIF_RING_IRQ := rfl
@[simp] theorem lo_HIF_RING_IRQ_MOD_COUNT : HIF_RING_IRQ.MOD_COUNT.lo = 16 := rfl
@[simp] theorem w_HIF_RING_IRQ_MOD_COUNT : HIF_RING_IRQ.MOD_COUNT.w = 8 := rfl
@[simp] theorem reg_HIF_RING_IRQ_MOD_TIME : HIF_RING_IRQ.MOD_TIME.reg = .HIF_RING_IRQ := rfl
@[simp] theorem lo_HIF_RING_IRQ_MOD_TIME : HIF_RING_IRQ.MOD_TIME.lo = 24 := rfl
@[simp] theorem w_HIF_RING_IRQ_MOD_TIME : HIF_RING_IRQ.MOD_TIME.w = 16 := rfl
@[simp] theorem reg_HIF_RING_IDX_SQ_PI : HIF_RING_IDX.SQ_PI.reg = .HIF_RING_IDX := rfl
@[simp] theorem lo_HIF_RING_IDX_SQ_PI : HIF_RING_IDX.SQ_PI.lo = 0 := rfl
@[simp] theorem w_HIF_RING_IDX_SQ_PI : HIF_RING_IDX.SQ_PI.w = 16 := rfl
@[simp] theorem reg_HIF_RING_IDX_SQ_CI : HIF_RING_IDX.SQ_CI.reg = .HIF_RING_IDX := rfl
@[simp] theorem lo_HIF_RING_IDX_SQ_CI : HIF_RING_IDX.SQ_CI.lo = 16 := rfl
@[simp] theorem w_HIF_RING_IDX_SQ_CI : HIF_RING_IDX.SQ_CI.w = 16 := rfl
@[simp] theorem reg_HIF_RING_IDX_CQ_PI : HIF_RING_IDX.CQ_PI.reg = .HIF_RING_IDX := rfl
@[simp] theorem lo_HIF_RING_IDX_CQ_PI : HIF_RING_IDX.CQ_PI.lo = 32 := rfl
@[simp] theorem w_HIF_RING_IDX_CQ_PI : HIF_RING_IDX.CQ_PI.w = 16 := rfl
@[simp] theorem reg_HIF_RING_IDX_CQ_CI : HIF_RING_IDX.CQ_CI.reg = .HIF_RING_IDX := rfl
@[simp] theorem lo_HIF_RING_IDX_CQ_CI : HIF_RING_IDX.CQ_CI.lo = 48 := rfl
@[simp] theorem w_HIF_RING_IDX_CQ_CI : HIF_RING_IDX.CQ_CI.w = 16 := rfl
@[simp] theorem reg_HIF_RING_ST_STATE : HIF_RING_ST.STATE.reg = .HIF_RING_ST := rfl
@[simp] theorem lo_HIF_RING_ST_STATE : HIF_RING_ST.STATE.lo = 0 := rfl
@[simp] theorem w_HIF_RING_ST_STATE : HIF_RING_ST.STATE.w = 2 := rfl
@[simp] theorem reg_HIF_RING_ST_HALT_STATUS : HIF_RING_ST.HALT_STATUS.reg = .HIF_RING_ST := rfl
@[simp] theorem lo_HIF_RING_ST_HALT_STATUS : HIF_RING_ST.HALT_STATUS.lo = 4 := rfl
@[simp] theorem w_HIF_RING_ST_HALT_STATUS : HIF_RING_ST.HALT_STATUS.w = 8 := rfl
@[simp] theorem reg_HIF_RING_ST_HALT_CAUSE : HIF_RING_ST.HALT_CAUSE.reg = .HIF_RING_ST := rfl
@[simp] theorem lo_HIF_RING_ST_HALT_CAUSE : HIF_RING_ST.HALT_CAUSE.lo = 12 := rfl
@[simp] theorem w_HIF_RING_ST_HALT_CAUSE : HIF_RING_ST.HALT_CAUSE.w = 4 := rfl
@[simp] theorem reg_HIF_RING_ST_HALT_SLOT : HIF_RING_ST.HALT_SLOT.reg = .HIF_RING_ST := rfl
@[simp] theorem lo_HIF_RING_ST_HALT_SLOT : HIF_RING_ST.HALT_SLOT.lo = 16 := rfl
@[simp] theorem w_HIF_RING_ST_HALT_SLOT : HIF_RING_ST.HALT_SLOT.w = 16 := rfl
@[simp] theorem reg_HIF_RING_ST_STALE : HIF_RING_ST.STALE.reg = .HIF_RING_ST := rfl
@[simp] theorem lo_HIF_RING_ST_STALE : HIF_RING_ST.STALE.lo = 32 := rfl
@[simp] theorem w_HIF_RING_ST_STALE : HIF_RING_ST.STALE.w = 16 := rfl
@[simp] theorem reg_HIF_RING_ST_BAD_DB : HIF_RING_ST.BAD_DB.reg = .HIF_RING_ST := rfl
@[simp] theorem lo_HIF_RING_ST_BAD_DB : HIF_RING_ST.BAD_DB.lo = 48 := rfl
@[simp] theorem w_HIF_RING_ST_BAD_DB : HIF_RING_ST.BAD_DB.w = 16 := rfl
@[simp] theorem reg_HIF_EVQ_DB_DBI : HIF_EVQ_DB.DBI.reg = .HIF_EVQ_DB := rfl
@[simp] theorem lo_HIF_EVQ_DB_DBI : HIF_EVQ_DB.DBI.lo = 0 := rfl
@[simp] theorem w_HIF_EVQ_DB_DBI : HIF_EVQ_DB.DBI.w = 8 := rfl
@[simp] theorem reg_HIF_EVQ_DB_VALID : HIF_EVQ_DB.VALID.reg = .HIF_EVQ_DB := rfl
@[simp] theorem lo_HIF_EVQ_DB_VALID : HIF_EVQ_DB.VALID.lo = 15 := rfl
@[simp] theorem w_HIF_EVQ_DB_VALID : HIF_EVQ_DB.VALID.w = 1 := rfl
@[simp] theorem reg_HIF_SLICE_CFG_STATE : HIF_SLICE_CFG.STATE.reg = .HIF_SLICE_CFG := rfl
@[simp] theorem lo_HIF_SLICE_CFG_STATE : HIF_SLICE_CFG.STATE.lo = 0 := rfl
@[simp] theorem w_HIF_SLICE_CFG_STATE : HIF_SLICE_CFG.STATE.w = 2 := rfl
@[simp] theorem reg_HIF_SLICE_CFG_PORT : HIF_SLICE_CFG.PORT.reg = .HIF_SLICE_CFG := rfl
@[simp] theorem lo_HIF_SLICE_CFG_PORT : HIF_SLICE_CFG.PORT.lo = 2 := rfl
@[simp] theorem w_HIF_SLICE_CFG_PORT : HIF_SLICE_CFG.PORT.w = 1 := rfl
@[simp] theorem reg_HIF_SLICE_CFG_PASID : HIF_SLICE_CFG.PASID.reg = .HIF_SLICE_CFG := rfl
@[simp] theorem lo_HIF_SLICE_CFG_PASID : HIF_SLICE_CFG.PASID.lo = 8 := rfl
@[simp] theorem w_HIF_SLICE_CFG_PASID : HIF_SLICE_CFG.PASID.w = 20 := rfl
@[simp] theorem reg_HIF_SLICE_CFG_ROLE_EPOCH : HIF_SLICE_CFG.ROLE_EPOCH.reg = .HIF_SLICE_CFG := rfl
@[simp] theorem lo_HIF_SLICE_CFG_ROLE_EPOCH : HIF_SLICE_CFG.ROLE_EPOCH.lo = 32 := rfl
@[simp] theorem w_HIF_SLICE_CFG_ROLE_EPOCH : HIF_SLICE_CFG.ROLE_EPOCH.w = 16 := rfl
@[simp] theorem reg_HIF_SLICE_USE_CORES : HIF_SLICE_USE.CORES.reg = .HIF_SLICE_USE := rfl
@[simp] theorem lo_HIF_SLICE_USE_CORES : HIF_SLICE_USE.CORES.lo = 0 := rfl
@[simp] theorem w_HIF_SLICE_USE_CORES : HIF_SLICE_USE.CORES.w = 10 := rfl
@[simp] theorem reg_HIF_SLICE_USE_HBM_PLATES : HIF_SLICE_USE.HBM_PLATES.reg = .HIF_SLICE_USE := rfl
@[simp] theorem lo_HIF_SLICE_USE_HBM_PLATES : HIF_SLICE_USE.HBM_PLATES.lo = 16 := rfl
@[simp] theorem w_HIF_SLICE_USE_HBM_PLATES : HIF_SLICE_USE.HBM_PLATES.w = 8 := rfl
@[simp] theorem reg_HIF_SLICE_USE_DDR_PLATES : HIF_SLICE_USE.DDR_PLATES.reg = .HIF_SLICE_USE := rfl
@[simp] theorem lo_HIF_SLICE_USE_DDR_PLATES : HIF_SLICE_USE.DDR_PLATES.lo = 24 := rfl
@[simp] theorem w_HIF_SLICE_USE_DDR_PLATES : HIF_SLICE_USE.DDR_PLATES.w = 12 := rfl
@[simp] theorem reg_HIF_SLICE_USE_RINGS : HIF_SLICE_USE.RINGS.reg = .HIF_SLICE_USE := rfl
@[simp] theorem lo_HIF_SLICE_USE_RINGS : HIF_SLICE_USE.RINGS.lo = 36 := rfl
@[simp] theorem w_HIF_SLICE_USE_RINGS : HIF_SLICE_USE.RINGS.w = 14 := rfl
@[simp] theorem reg_HIF_SLICE_STATUS_OVER_GRP : HIF_SLICE_STATUS.OVER_GRP.reg = .HIF_SLICE_STATUS := rfl
@[simp] theorem lo_HIF_SLICE_STATUS_OVER_GRP : HIF_SLICE_STATUS.OVER_GRP.lo = 0 := rfl
@[simp] theorem w_HIF_SLICE_STATUS_OVER_GRP : HIF_SLICE_STATUS.OVER_GRP.w = 1 := rfl
@[simp] theorem reg_HIF_SLICE_STATUS_OVER_STP : HIF_SLICE_STATUS.OVER_STP.reg = .HIF_SLICE_STATUS := rfl
@[simp] theorem lo_HIF_SLICE_STATUS_OVER_STP : HIF_SLICE_STATUS.OVER_STP.lo = 1 := rfl
@[simp] theorem w_HIF_SLICE_STATUS_OVER_STP : HIF_SLICE_STATUS.OVER_STP.w = 1 := rfl
@[simp] theorem reg_HIF_SLICE_STATUS_EVT_SPOOF : HIF_SLICE_STATUS.EVT_SPOOF.reg = .HIF_SLICE_STATUS := rfl
@[simp] theorem lo_HIF_SLICE_STATUS_EVT_SPOOF : HIF_SLICE_STATUS.EVT_SPOOF.lo = 32 := rfl
@[simp] theorem w_HIF_SLICE_STATUS_EVT_SPOOF : HIF_SLICE_STATUS.EVT_SPOOF.w = 1 := rfl
@[simp] theorem reg_HIF_SLICE_STATUS_EVT_QUOTA : HIF_SLICE_STATUS.EVT_QUOTA.reg = .HIF_SLICE_STATUS := rfl
@[simp] theorem lo_HIF_SLICE_STATUS_EVT_QUOTA : HIF_SLICE_STATUS.EVT_QUOTA.lo = 33 := rfl
@[simp] theorem w_HIF_SLICE_STATUS_EVT_QUOTA : HIF_SLICE_STATUS.EVT_QUOTA.w = 1 := rfl
@[simp] theorem reg_HIF_SLICE_STATUS_EVT_RESET_DONE : HIF_SLICE_STATUS.EVT_RESET_DONE.reg = .HIF_SLICE_STATUS := rfl
@[simp] theorem lo_HIF_SLICE_STATUS_EVT_RESET_DONE : HIF_SLICE_STATUS.EVT_RESET_DONE.lo = 34 := rfl
@[simp] theorem w_HIF_SLICE_STATUS_EVT_RESET_DONE : HIF_SLICE_STATUS.EVT_RESET_DONE.w = 1 := rfl
@[simp] theorem reg_HIF_SLICE_CNT_SPOOFS : HIF_SLICE_CNT.SPOOFS.reg = .HIF_SLICE_CNT := rfl
@[simp] theorem lo_HIF_SLICE_CNT_SPOOFS : HIF_SLICE_CNT.SPOOFS.lo = 0 := rfl
@[simp] theorem w_HIF_SLICE_CNT_SPOOFS : HIF_SLICE_CNT.SPOOFS.w = 32 := rfl
@[simp] theorem reg_HIF_SLICE_CNT_RESETS : HIF_SLICE_CNT.RESETS.reg = .HIF_SLICE_CNT := rfl
@[simp] theorem lo_HIF_SLICE_CNT_RESETS : HIF_SLICE_CNT.RESETS.lo = 32 := rfl
@[simp] theorem w_HIF_SLICE_CNT_RESETS : HIF_SLICE_CNT.RESETS.w = 16 := rfl
@[simp] theorem reg_HIF_SLICE_SUMMARY_ACTIVE : HIF_SLICE_SUMMARY.ACTIVE.reg = .HIF_SLICE_SUMMARY := rfl
@[simp] theorem lo_HIF_SLICE_SUMMARY_ACTIVE : HIF_SLICE_SUMMARY.ACTIVE.lo = 0 := rfl
@[simp] theorem w_HIF_SLICE_SUMMARY_ACTIVE : HIF_SLICE_SUMMARY.ACTIVE.w = 9 := rfl
@[simp] theorem reg_HIF_SLICE_SUMMARY_LOG_USED : HIF_SLICE_SUMMARY.LOG_USED.reg = .HIF_SLICE_SUMMARY := rfl
@[simp] theorem lo_HIF_SLICE_SUMMARY_LOG_USED : HIF_SLICE_SUMMARY.LOG_USED.lo = 16 := rfl
@[simp] theorem w_HIF_SLICE_SUMMARY_LOG_USED : HIF_SLICE_SUMMARY.LOG_USED.w = 7 := rfl
@[simp] theorem reg_HIF_SLICE_SUMMARY_LOG_LOST : HIF_SLICE_SUMMARY.LOG_LOST.reg = .HIF_SLICE_SUMMARY := rfl
@[simp] theorem lo_HIF_SLICE_SUMMARY_LOG_LOST : HIF_SLICE_SUMMARY.LOG_LOST.lo = 32 := rfl
@[simp] theorem w_HIF_SLICE_SUMMARY_LOG_LOST : HIF_SLICE_SUMMARY.LOG_LOST.w = 32 := rfl
@[simp] theorem reg_HIF_SPOOF_LOG_SLICE : HIF_SPOOF_LOG.SLICE.reg = .HIF_SPOOF_LOG := rfl
@[simp] theorem lo_HIF_SPOOF_LOG_SLICE : HIF_SPOOF_LOG.SLICE.lo = 0 := rfl
@[simp] theorem w_HIF_SPOOF_LOG_SLICE : HIF_SPOOF_LOG.SLICE.w = 8 := rfl
@[simp] theorem reg_HIF_SPOOF_LOG_UNIT : HIF_SPOOF_LOG.UNIT.reg = .HIF_SPOOF_LOG := rfl
@[simp] theorem lo_HIF_SPOOF_LOG_UNIT : HIF_SPOOF_LOG.UNIT.lo = 8 := rfl
@[simp] theorem w_HIF_SPOOF_LOG_UNIT : HIF_SPOOF_LOG.UNIT.w = 8 := rfl
@[simp] theorem reg_HIF_SPOOF_LOG_INDEX : HIF_SPOOF_LOG.INDEX.reg = .HIF_SPOOF_LOG := rfl
@[simp] theorem lo_HIF_SPOOF_LOG_INDEX : HIF_SPOOF_LOG.INDEX.lo = 16 := rfl
@[simp] theorem w_HIF_SPOOF_LOG_INDEX : HIF_SPOOF_LOG.INDEX.w = 16 := rfl
@[simp] theorem reg_HIF_SPOOF_LOG_VALID : HIF_SPOOF_LOG.VALID.reg = .HIF_SPOOF_LOG := rfl
@[simp] theorem lo_HIF_SPOOF_LOG_VALID : HIF_SPOOF_LOG.VALID.lo = 63 := rfl
@[simp] theorem w_HIF_SPOOF_LOG_VALID : HIF_SPOOF_LOG.VALID.w = 1 := rfl
@[simp] theorem reg_HIF_CORE_SLICE_SLICE : HIF_CORE_SLICE.SLICE.reg = .HIF_CORE_SLICE := rfl
@[simp] theorem lo_HIF_CORE_SLICE_SLICE : HIF_CORE_SLICE.SLICE.lo = 0 := rfl
@[simp] theorem w_HIF_CORE_SLICE_SLICE : HIF_CORE_SLICE.SLICE.w = 8 := rfl
@[simp] theorem reg_HIF_CORE_SLICE_ROLE_EPOCH : HIF_CORE_SLICE.ROLE_EPOCH.reg = .HIF_CORE_SLICE := rfl
@[simp] theorem lo_HIF_CORE_SLICE_ROLE_EPOCH : HIF_CORE_SLICE.ROLE_EPOCH.lo = 16 := rfl
@[simp] theorem w_HIF_CORE_SLICE_ROLE_EPOCH : HIF_CORE_SLICE.ROLE_EPOCH.w = 16 := rfl
@[simp] theorem reg_HIF_PLATE_OWNER_H_OWNER0 : HIF_PLATE_OWNER_H.OWNER0.reg = .HIF_PLATE_OWNER_H := rfl
@[simp] theorem lo_HIF_PLATE_OWNER_H_OWNER0 : HIF_PLATE_OWNER_H.OWNER0.lo = 0 := rfl
@[simp] theorem w_HIF_PLATE_OWNER_H_OWNER0 : HIF_PLATE_OWNER_H.OWNER0.w = 8 := rfl
@[simp] theorem reg_HIF_PLATE_OWNER_H_OWNER1 : HIF_PLATE_OWNER_H.OWNER1.reg = .HIF_PLATE_OWNER_H := rfl
@[simp] theorem lo_HIF_PLATE_OWNER_H_OWNER1 : HIF_PLATE_OWNER_H.OWNER1.lo = 8 := rfl
@[simp] theorem w_HIF_PLATE_OWNER_H_OWNER1 : HIF_PLATE_OWNER_H.OWNER1.w = 8 := rfl
@[simp] theorem reg_HIF_PLATE_OWNER_H_OWNER2 : HIF_PLATE_OWNER_H.OWNER2.reg = .HIF_PLATE_OWNER_H := rfl
@[simp] theorem lo_HIF_PLATE_OWNER_H_OWNER2 : HIF_PLATE_OWNER_H.OWNER2.lo = 16 := rfl
@[simp] theorem w_HIF_PLATE_OWNER_H_OWNER2 : HIF_PLATE_OWNER_H.OWNER2.w = 8 := rfl
@[simp] theorem reg_HIF_PLATE_OWNER_H_OWNER3 : HIF_PLATE_OWNER_H.OWNER3.reg = .HIF_PLATE_OWNER_H := rfl
@[simp] theorem lo_HIF_PLATE_OWNER_H_OWNER3 : HIF_PLATE_OWNER_H.OWNER3.lo = 24 := rfl
@[simp] theorem w_HIF_PLATE_OWNER_H_OWNER3 : HIF_PLATE_OWNER_H.OWNER3.w = 8 := rfl
@[simp] theorem reg_HIF_PLATE_OWNER_H_OWNER4 : HIF_PLATE_OWNER_H.OWNER4.reg = .HIF_PLATE_OWNER_H := rfl
@[simp] theorem lo_HIF_PLATE_OWNER_H_OWNER4 : HIF_PLATE_OWNER_H.OWNER4.lo = 32 := rfl
@[simp] theorem w_HIF_PLATE_OWNER_H_OWNER4 : HIF_PLATE_OWNER_H.OWNER4.w = 8 := rfl
@[simp] theorem reg_HIF_PLATE_OWNER_H_OWNER5 : HIF_PLATE_OWNER_H.OWNER5.reg = .HIF_PLATE_OWNER_H := rfl
@[simp] theorem lo_HIF_PLATE_OWNER_H_OWNER5 : HIF_PLATE_OWNER_H.OWNER5.lo = 40 := rfl
@[simp] theorem w_HIF_PLATE_OWNER_H_OWNER5 : HIF_PLATE_OWNER_H.OWNER5.w = 8 := rfl
@[simp] theorem reg_HIF_PLATE_OWNER_H_OWNER6 : HIF_PLATE_OWNER_H.OWNER6.reg = .HIF_PLATE_OWNER_H := rfl
@[simp] theorem lo_HIF_PLATE_OWNER_H_OWNER6 : HIF_PLATE_OWNER_H.OWNER6.lo = 48 := rfl
@[simp] theorem w_HIF_PLATE_OWNER_H_OWNER6 : HIF_PLATE_OWNER_H.OWNER6.w = 8 := rfl
@[simp] theorem reg_HIF_PLATE_OWNER_H_OWNER7 : HIF_PLATE_OWNER_H.OWNER7.reg = .HIF_PLATE_OWNER_H := rfl
@[simp] theorem lo_HIF_PLATE_OWNER_H_OWNER7 : HIF_PLATE_OWNER_H.OWNER7.lo = 56 := rfl
@[simp] theorem w_HIF_PLATE_OWNER_H_OWNER7 : HIF_PLATE_OWNER_H.OWNER7.w = 8 := rfl
@[simp] theorem reg_HIF_PLATE_OWNER_D_OWNER0 : HIF_PLATE_OWNER_D.OWNER0.reg = .HIF_PLATE_OWNER_D := rfl
@[simp] theorem lo_HIF_PLATE_OWNER_D_OWNER0 : HIF_PLATE_OWNER_D.OWNER0.lo = 0 := rfl
@[simp] theorem w_HIF_PLATE_OWNER_D_OWNER0 : HIF_PLATE_OWNER_D.OWNER0.w = 8 := rfl
@[simp] theorem reg_HIF_PLATE_OWNER_D_OWNER1 : HIF_PLATE_OWNER_D.OWNER1.reg = .HIF_PLATE_OWNER_D := rfl
@[simp] theorem lo_HIF_PLATE_OWNER_D_OWNER1 : HIF_PLATE_OWNER_D.OWNER1.lo = 8 := rfl
@[simp] theorem w_HIF_PLATE_OWNER_D_OWNER1 : HIF_PLATE_OWNER_D.OWNER1.w = 8 := rfl
@[simp] theorem reg_HIF_PLATE_OWNER_D_OWNER2 : HIF_PLATE_OWNER_D.OWNER2.reg = .HIF_PLATE_OWNER_D := rfl
@[simp] theorem lo_HIF_PLATE_OWNER_D_OWNER2 : HIF_PLATE_OWNER_D.OWNER2.lo = 16 := rfl
@[simp] theorem w_HIF_PLATE_OWNER_D_OWNER2 : HIF_PLATE_OWNER_D.OWNER2.w = 8 := rfl
@[simp] theorem reg_HIF_PLATE_OWNER_D_OWNER3 : HIF_PLATE_OWNER_D.OWNER3.reg = .HIF_PLATE_OWNER_D := rfl
@[simp] theorem lo_HIF_PLATE_OWNER_D_OWNER3 : HIF_PLATE_OWNER_D.OWNER3.lo = 24 := rfl
@[simp] theorem w_HIF_PLATE_OWNER_D_OWNER3 : HIF_PLATE_OWNER_D.OWNER3.w = 8 := rfl
@[simp] theorem reg_HIF_PLATE_OWNER_D_OWNER4 : HIF_PLATE_OWNER_D.OWNER4.reg = .HIF_PLATE_OWNER_D := rfl
@[simp] theorem lo_HIF_PLATE_OWNER_D_OWNER4 : HIF_PLATE_OWNER_D.OWNER4.lo = 32 := rfl
@[simp] theorem w_HIF_PLATE_OWNER_D_OWNER4 : HIF_PLATE_OWNER_D.OWNER4.w = 8 := rfl
@[simp] theorem reg_HIF_PLATE_OWNER_D_OWNER5 : HIF_PLATE_OWNER_D.OWNER5.reg = .HIF_PLATE_OWNER_D := rfl
@[simp] theorem lo_HIF_PLATE_OWNER_D_OWNER5 : HIF_PLATE_OWNER_D.OWNER5.lo = 40 := rfl
@[simp] theorem w_HIF_PLATE_OWNER_D_OWNER5 : HIF_PLATE_OWNER_D.OWNER5.w = 8 := rfl
@[simp] theorem reg_HIF_PLATE_OWNER_D_OWNER6 : HIF_PLATE_OWNER_D.OWNER6.reg = .HIF_PLATE_OWNER_D := rfl
@[simp] theorem lo_HIF_PLATE_OWNER_D_OWNER6 : HIF_PLATE_OWNER_D.OWNER6.lo = 48 := rfl
@[simp] theorem w_HIF_PLATE_OWNER_D_OWNER6 : HIF_PLATE_OWNER_D.OWNER6.w = 8 := rfl
@[simp] theorem reg_HIF_PLATE_OWNER_D_OWNER7 : HIF_PLATE_OWNER_D.OWNER7.reg = .HIF_PLATE_OWNER_D := rfl
@[simp] theorem lo_HIF_PLATE_OWNER_D_OWNER7 : HIF_PLATE_OWNER_D.OWNER7.lo = 56 := rfl
@[simp] theorem w_HIF_PLATE_OWNER_D_OWNER7 : HIF_PLATE_OWNER_D.OWNER7.w = 8 := rfl
@[simp] theorem reg_HIF_MSIX_OWNER_OWNER0 : HIF_MSIX_OWNER.OWNER0.reg = .HIF_MSIX_OWNER := rfl
@[simp] theorem lo_HIF_MSIX_OWNER_OWNER0 : HIF_MSIX_OWNER.OWNER0.lo = 0 := rfl
@[simp] theorem w_HIF_MSIX_OWNER_OWNER0 : HIF_MSIX_OWNER.OWNER0.w = 8 := rfl
@[simp] theorem reg_HIF_MSIX_OWNER_OWNER1 : HIF_MSIX_OWNER.OWNER1.reg = .HIF_MSIX_OWNER := rfl
@[simp] theorem lo_HIF_MSIX_OWNER_OWNER1 : HIF_MSIX_OWNER.OWNER1.lo = 8 := rfl
@[simp] theorem w_HIF_MSIX_OWNER_OWNER1 : HIF_MSIX_OWNER.OWNER1.w = 8 := rfl
@[simp] theorem reg_HIF_MSIX_OWNER_OWNER2 : HIF_MSIX_OWNER.OWNER2.reg = .HIF_MSIX_OWNER := rfl
@[simp] theorem lo_HIF_MSIX_OWNER_OWNER2 : HIF_MSIX_OWNER.OWNER2.lo = 16 := rfl
@[simp] theorem w_HIF_MSIX_OWNER_OWNER2 : HIF_MSIX_OWNER.OWNER2.w = 8 := rfl
@[simp] theorem reg_HIF_MSIX_OWNER_OWNER3 : HIF_MSIX_OWNER.OWNER3.reg = .HIF_MSIX_OWNER := rfl
@[simp] theorem lo_HIF_MSIX_OWNER_OWNER3 : HIF_MSIX_OWNER.OWNER3.lo = 24 := rfl
@[simp] theorem w_HIF_MSIX_OWNER_OWNER3 : HIF_MSIX_OWNER.OWNER3.w = 8 := rfl
@[simp] theorem reg_HIF_MSIX_OWNER_OWNER4 : HIF_MSIX_OWNER.OWNER4.reg = .HIF_MSIX_OWNER := rfl
@[simp] theorem lo_HIF_MSIX_OWNER_OWNER4 : HIF_MSIX_OWNER.OWNER4.lo = 32 := rfl
@[simp] theorem w_HIF_MSIX_OWNER_OWNER4 : HIF_MSIX_OWNER.OWNER4.w = 8 := rfl
@[simp] theorem reg_HIF_MSIX_OWNER_OWNER5 : HIF_MSIX_OWNER.OWNER5.reg = .HIF_MSIX_OWNER := rfl
@[simp] theorem lo_HIF_MSIX_OWNER_OWNER5 : HIF_MSIX_OWNER.OWNER5.lo = 40 := rfl
@[simp] theorem w_HIF_MSIX_OWNER_OWNER5 : HIF_MSIX_OWNER.OWNER5.w = 8 := rfl
@[simp] theorem reg_HIF_MSIX_OWNER_OWNER6 : HIF_MSIX_OWNER.OWNER6.reg = .HIF_MSIX_OWNER := rfl
@[simp] theorem lo_HIF_MSIX_OWNER_OWNER6 : HIF_MSIX_OWNER.OWNER6.lo = 48 := rfl
@[simp] theorem w_HIF_MSIX_OWNER_OWNER6 : HIF_MSIX_OWNER.OWNER6.w = 8 := rfl
@[simp] theorem reg_HIF_MSIX_OWNER_OWNER7 : HIF_MSIX_OWNER.OWNER7.reg = .HIF_MSIX_OWNER := rfl
@[simp] theorem lo_HIF_MSIX_OWNER_OWNER7 : HIF_MSIX_OWNER.OWNER7.lo = 56 := rfl
@[simp] theorem w_HIF_MSIX_OWNER_OWNER7 : HIF_MSIX_OWNER.OWNER7.w = 8 := rfl
@[simp] theorem reg_HIF_SLICE_CHAN_FIRST : HIF_SLICE_CHAN.FIRST.reg = .HIF_SLICE_CHAN := rfl
@[simp] theorem lo_HIF_SLICE_CHAN_FIRST : HIF_SLICE_CHAN.FIRST.lo = 0 := rfl
@[simp] theorem w_HIF_SLICE_CHAN_FIRST : HIF_SLICE_CHAN.FIRST.w = 20 := rfl
@[simp] theorem reg_HIF_SLICE_CHAN_COUNT : HIF_SLICE_CHAN.COUNT.reg = .HIF_SLICE_CHAN := rfl
@[simp] theorem lo_HIF_SLICE_CHAN_COUNT : HIF_SLICE_CHAN.COUNT.lo = 32 := rfl
@[simp] theorem w_HIF_SLICE_CHAN_COUNT : HIF_SLICE_CHAN.COUNT.w = 21 := rfl
@[simp] theorem reg_SEC_FUSE_OWNER_VALID : SEC_FUSE.OWNER_VALID.reg = .SEC_FUSE := rfl
@[simp] theorem lo_SEC_FUSE_OWNER_VALID : SEC_FUSE.OWNER_VALID.lo = 0 := rfl
@[simp] theorem w_SEC_FUSE_OWNER_VALID : SEC_FUSE.OWNER_VALID.w = 4 := rfl
@[simp] theorem reg_SEC_FUSE_OWNER_REVOKED : SEC_FUSE.OWNER_REVOKED.reg = .SEC_FUSE := rfl
@[simp] theorem lo_SEC_FUSE_OWNER_REVOKED : SEC_FUSE.OWNER_REVOKED.lo = 4 := rfl
@[simp] theorem w_SEC_FUSE_OWNER_REVOKED : SEC_FUSE.OWNER_REVOKED.w = 4 := rfl
@[simp] theorem reg_SEC_FUSE_DIE_AUTH : SEC_FUSE.DIE_AUTH.reg = .SEC_FUSE := rfl
@[simp] theorem lo_SEC_FUSE_DIE_AUTH : SEC_FUSE.DIE_AUTH.lo = 8 := rfl
@[simp] theorem w_SEC_FUSE_DIE_AUTH : SEC_FUSE.DIE_AUTH.w = 1 := rfl
@[simp] theorem reg_SEC_FUSE_SEC_DBG_OFF : SEC_FUSE.SEC_DBG_OFF.reg = .SEC_FUSE := rfl
@[simp] theorem lo_SEC_FUSE_SEC_DBG_OFF : SEC_FUSE.SEC_DBG_OFF.lo = 9 := rfl
@[simp] theorem w_SEC_FUSE_SEC_DBG_OFF : SEC_FUSE.SEC_DBG_OFF.w = 1 := rfl
@[simp] theorem reg_SEC_FUSE_HOST_PUSH_OFF : SEC_FUSE.HOST_PUSH_OFF.reg = .SEC_FUSE := rfl
@[simp] theorem lo_SEC_FUSE_HOST_PUSH_OFF : SEC_FUSE.HOST_PUSH_OFF.lo = 10 := rfl
@[simp] theorem w_SEC_FUSE_HOST_PUSH_OFF : SEC_FUSE.HOST_PUSH_OFF.w = 1 := rfl
@[simp] theorem reg_SEC_FUSE_CALOM_SVN : SEC_FUSE.CALOM_SVN.reg = .SEC_FUSE := rfl
@[simp] theorem lo_SEC_FUSE_CALOM_SVN : SEC_FUSE.CALOM_SVN.lo = 16 := rfl
@[simp] theorem w_SEC_FUSE_CALOM_SVN : SEC_FUSE.CALOM_SVN.w = 7 := rfl
@[simp] theorem reg_SEC_FUSE_CFW_SVN : SEC_FUSE.CFW_SVN.reg = .SEC_FUSE := rfl
@[simp] theorem lo_SEC_FUSE_CFW_SVN : SEC_FUSE.CFW_SVN.lo = 24 := rfl
@[simp] theorem w_SEC_FUSE_CFW_SVN : SEC_FUSE.CFW_SVN.w = 7 := rfl
@[simp] theorem reg_SEC_FUSE_SERIAL_SERIAL : SEC_FUSE_SERIAL.SERIAL.reg = .SEC_FUSE_SERIAL := rfl
@[simp] theorem lo_SEC_FUSE_SERIAL_SERIAL : SEC_FUSE_SERIAL.SERIAL.lo = 0 := rfl
@[simp] theorem w_SEC_FUSE_SERIAL_SERIAL : SEC_FUSE_SERIAL.SERIAL.w = 64 := rfl
@[simp] theorem reg_SEC_BOOT_STATUS_SOURCE : SEC_BOOT_STATUS.SOURCE.reg = .SEC_BOOT_STATUS := rfl
@[simp] theorem lo_SEC_BOOT_STATUS_SOURCE : SEC_BOOT_STATUS.SOURCE.lo = 0 := rfl
@[simp] theorem w_SEC_BOOT_STATUS_SOURCE : SEC_BOOT_STATUS.SOURCE.w = 2 := rfl
@[simp] theorem reg_SEC_BOOT_STATUS_FS_SLOT : SEC_BOOT_STATUS.FS_SLOT.reg = .SEC_BOOT_STATUS := rfl
@[simp] theorem lo_SEC_BOOT_STATUS_FS_SLOT : SEC_BOOT_STATUS.FS_SLOT.lo = 4 := rfl
@[simp] theorem w_SEC_BOOT_STATUS_FS_SLOT : SEC_BOOT_STATUS.FS_SLOT.w = 1 := rfl
@[simp] theorem reg_SEC_BOOT_STATUS_MAIN_SLOT : SEC_BOOT_STATUS.MAIN_SLOT.reg = .SEC_BOOT_STATUS := rfl
@[simp] theorem lo_SEC_BOOT_STATUS_MAIN_SLOT : SEC_BOOT_STATUS.MAIN_SLOT.lo = 5 := rfl
@[simp] theorem w_SEC_BOOT_STATUS_MAIN_SLOT : SEC_BOOT_STATUS.MAIN_SLOT.w = 1 := rfl
@[simp] theorem reg_SEC_BOOT_STATUS_CFW_SLOT : SEC_BOOT_STATUS.CFW_SLOT.reg = .SEC_BOOT_STATUS := rfl
@[simp] theorem lo_SEC_BOOT_STATUS_CFW_SLOT : SEC_BOOT_STATUS.CFW_SLOT.lo = 6 := rfl
@[simp] theorem w_SEC_BOOT_STATUS_CFW_SLOT : SEC_BOOT_STATUS.CFW_SLOT.w = 1 := rfl
@[simp] theorem reg_SEC_BOOT_STATUS_STAGE : SEC_BOOT_STATUS.STAGE.reg = .SEC_BOOT_STATUS := rfl
@[simp] theorem lo_SEC_BOOT_STATUS_STAGE : SEC_BOOT_STATUS.STAGE.lo = 8 := rfl
@[simp] theorem w_SEC_BOOT_STATUS_STAGE : SEC_BOOT_STATUS.STAGE.w = 8 := rfl
@[simp] theorem reg_SEC_BOOT_STATUS_CAUSE : SEC_BOOT_STATUS.CAUSE.reg = .SEC_BOOT_STATUS := rfl
@[simp] theorem lo_SEC_BOOT_STATUS_CAUSE : SEC_BOOT_STATUS.CAUSE.lo = 16 := rfl
@[simp] theorem w_SEC_BOOT_STATUS_CAUSE : SEC_BOOT_STATUS.CAUSE.w = 8 := rfl
@[simp] theorem reg_SEC_BOOT_STATUS_FAIL_KIND : SEC_BOOT_STATUS.FAIL_KIND.reg = .SEC_BOOT_STATUS := rfl
@[simp] theorem lo_SEC_BOOT_STATUS_FAIL_KIND : SEC_BOOT_STATUS.FAIL_KIND.lo = 24 := rfl
@[simp] theorem w_SEC_BOOT_STATUS_FAIL_KIND : SEC_BOOT_STATUS.FAIL_KIND.w = 4 := rfl
@[simp] theorem reg_SEC_BOOT_STATUS_FAILS : SEC_BOOT_STATUS.FAILS.reg = .SEC_BOOT_STATUS := rfl
@[simp] theorem lo_SEC_BOOT_STATUS_FAILS : SEC_BOOT_STATUS.FAILS.lo = 32 := rfl
@[simp] theorem w_SEC_BOOT_STATUS_FAILS : SEC_BOOT_STATUS.FAILS.w = 16 := rfl
@[simp] theorem reg_SEC_STATUS_EVT_VERIFY_FAIL : SEC_STATUS.EVT_VERIFY_FAIL.reg = .SEC_STATUS := rfl
@[simp] theorem lo_SEC_STATUS_EVT_VERIFY_FAIL : SEC_STATUS.EVT_VERIFY_FAIL.lo = 32 := rfl
@[simp] theorem w_SEC_STATUS_EVT_VERIFY_FAIL : SEC_STATUS.EVT_VERIFY_FAIL.w = 1 := rfl
@[simp] theorem reg_SEC_STATUS_EVT_FALLBACK : SEC_STATUS.EVT_FALLBACK.reg = .SEC_STATUS := rfl
@[simp] theorem lo_SEC_STATUS_EVT_FALLBACK : SEC_STATUS.EVT_FALLBACK.lo = 33 := rfl
@[simp] theorem w_SEC_STATUS_EVT_FALLBACK : SEC_STATUS.EVT_FALLBACK.w = 1 := rfl
@[simp] theorem reg_SEC_STATUS_EVT_ENROL : SEC_STATUS.EVT_ENROL.reg = .SEC_STATUS := rfl
@[simp] theorem lo_SEC_STATUS_EVT_ENROL : SEC_STATUS.EVT_ENROL.lo = 34 := rfl
@[simp] theorem w_SEC_STATUS_EVT_ENROL : SEC_STATUS.EVT_ENROL.w = 1 := rfl
@[simp] theorem reg_SEC_STATUS_EVT_SVN : SEC_STATUS.EVT_SVN.reg = .SEC_STATUS := rfl
@[simp] theorem lo_SEC_STATUS_EVT_SVN : SEC_STATUS.EVT_SVN.lo = 35 := rfl
@[simp] theorem w_SEC_STATUS_EVT_SVN : SEC_STATUS.EVT_SVN.w = 1 := rfl
@[simp] theorem reg_SEC_STATUS_EVT_DIE_AUTH : SEC_STATUS.EVT_DIE_AUTH.reg = .SEC_STATUS := rfl
@[simp] theorem lo_SEC_STATUS_EVT_DIE_AUTH : SEC_STATUS.EVT_DIE_AUTH.lo = 36 := rfl
@[simp] theorem w_SEC_STATUS_EVT_DIE_AUTH : SEC_STATUS.EVT_DIE_AUTH.w = 1 := rfl
@[simp] theorem reg_SEC_STATUS_EVT_RECOVERY : SEC_STATUS.EVT_RECOVERY.reg = .SEC_STATUS := rfl
@[simp] theorem lo_SEC_STATUS_EVT_RECOVERY : SEC_STATUS.EVT_RECOVERY.lo = 37 := rfl
@[simp] theorem w_SEC_STATUS_EVT_RECOVERY : SEC_STATUS.EVT_RECOVERY.w = 1 := rfl
@[simp] theorem reg_SEC_FUSE_VKEY_BYTES : SEC_FUSE_VKEY.BYTES.reg = .SEC_FUSE_VKEY := rfl
@[simp] theorem lo_SEC_FUSE_VKEY_BYTES : SEC_FUSE_VKEY.BYTES.lo = 0 := rfl
@[simp] theorem w_SEC_FUSE_VKEY_BYTES : SEC_FUSE_VKEY.BYTES.w = 64 := rfl
@[simp] theorem reg_SEC_FUSE_OKEY_BYTES : SEC_FUSE_OKEY.BYTES.reg = .SEC_FUSE_OKEY := rfl
@[simp] theorem lo_SEC_FUSE_OKEY_BYTES : SEC_FUSE_OKEY.BYTES.lo = 0 := rfl
@[simp] theorem w_SEC_FUSE_OKEY_BYTES : SEC_FUSE_OKEY.BYTES.w = 64 := rfl
@[simp] theorem reg_SEC_FUSE_DIE_BYTES : SEC_FUSE_DIE.BYTES.reg = .SEC_FUSE_DIE := rfl
@[simp] theorem lo_SEC_FUSE_DIE_BYTES : SEC_FUSE_DIE.BYTES.lo = 0 := rfl
@[simp] theorem w_SEC_FUSE_DIE_BYTES : SEC_FUSE_DIE.BYTES.w = 64 := rfl
@[simp] theorem reg_DBG_EN_FW_EN : DBG_EN.FW_EN.reg = .DBG_EN := rfl
@[simp] theorem lo_DBG_EN_FW_EN : DBG_EN.FW_EN.lo = 0 := rfl
@[simp] theorem w_DBG_EN_FW_EN : DBG_EN.FW_EN.w = 4 := rfl
@[simp] theorem reg_DBG_EN_AUTH_EN : DBG_EN.AUTH_EN.reg = .DBG_EN := rfl
@[simp] theorem lo_DBG_EN_AUTH_EN : DBG_EN.AUTH_EN.lo = 8 := rfl
@[simp] theorem w_DBG_EN_AUTH_EN : DBG_EN.AUTH_EN.w = 4 := rfl
@[simp] theorem reg_DBG_EN_EFF : DBG_EN.EFF.reg = .DBG_EN := rfl
@[simp] theorem lo_DBG_EN_EFF : DBG_EN.EFF.lo = 16 := rfl
@[simp] theorem w_DBG_EN_EFF : DBG_EN.EFF.w = 4 := rfl
@[simp] theorem reg_DBG_EN_AUTH_CLR : DBG_EN.AUTH_CLR.reg = .DBG_EN := rfl
@[simp] theorem lo_DBG_EN_AUTH_CLR : DBG_EN.AUTH_CLR.lo = 24 := rfl
@[simp] theorem w_DBG_EN_AUTH_CLR : DBG_EN.AUTH_CLR.w = 1 := rfl
@[simp] theorem reg_DBG_AUTH_CTL_NEW : DBG_AUTH_CTL.NEW.reg = .DBG_AUTH_CTL := rfl
@[simp] theorem lo_DBG_AUTH_CTL_NEW : DBG_AUTH_CTL.NEW.lo = 0 := rfl
@[simp] theorem w_DBG_AUTH_CTL_NEW : DBG_AUTH_CTL.NEW.w = 1 := rfl
@[simp] theorem reg_DBG_AUTH_CTL_GO : DBG_AUTH_CTL.GO.reg = .DBG_AUTH_CTL := rfl
@[simp] theorem lo_DBG_AUTH_CTL_GO : DBG_AUTH_CTL.GO.lo = 1 := rfl
@[simp] theorem w_DBG_AUTH_CTL_GO : DBG_AUTH_CTL.GO.w = 1 := rfl
@[simp] theorem reg_DBG_AUTH_CTL_REQ : DBG_AUTH_CTL.REQ.reg = .DBG_AUTH_CTL := rfl
@[simp] theorem lo_DBG_AUTH_CTL_REQ : DBG_AUTH_CTL.REQ.lo = 4 := rfl
@[simp] theorem w_DBG_AUTH_CTL_REQ : DBG_AUTH_CTL.REQ.w = 4 := rfl
@[simp] theorem reg_DBG_AUTH_CTL_KEY_SLOT : DBG_AUTH_CTL.KEY_SLOT.reg = .DBG_AUTH_CTL := rfl
@[simp] theorem lo_DBG_AUTH_CTL_KEY_SLOT : DBG_AUTH_CTL.KEY_SLOT.lo = 8 := rfl
@[simp] theorem w_DBG_AUTH_CTL_KEY_SLOT : DBG_AUTH_CTL.KEY_SLOT.w = 8 := rfl
@[simp] theorem reg_DBG_AUTH_CTL_STATE : DBG_AUTH_CTL.STATE.reg = .DBG_AUTH_CTL := rfl
@[simp] theorem lo_DBG_AUTH_CTL_STATE : DBG_AUTH_CTL.STATE.lo = 16 := rfl
@[simp] theorem w_DBG_AUTH_CTL_STATE : DBG_AUTH_CTL.STATE.w = 3 := rfl
@[simp] theorem reg_DBG_AUTH_CTL_FAILS : DBG_AUTH_CTL.FAILS.reg = .DBG_AUTH_CTL := rfl
@[simp] theorem lo_DBG_AUTH_CTL_FAILS : DBG_AUTH_CTL.FAILS.lo = 24 := rfl
@[simp] theorem w_DBG_AUTH_CTL_FAILS : DBG_AUTH_CTL.FAILS.w = 4 := rfl
@[simp] theorem reg_DBG_CHAIN_MEMBER : DBG_CHAIN.MEMBER.reg = .DBG_CHAIN := rfl
@[simp] theorem lo_DBG_CHAIN_MEMBER : DBG_CHAIN.MEMBER.lo = 0 := rfl
@[simp] theorem w_DBG_CHAIN_MEMBER : DBG_CHAIN.MEMBER.w = 14 := rfl
@[simp] theorem reg_DBG_CHAIN_GUEST_EN : DBG_CHAIN.GUEST_EN.reg = .DBG_CHAIN := rfl
@[simp] theorem lo_DBG_CHAIN_GUEST_EN : DBG_CHAIN.GUEST_EN.lo = 14 := rfl
@[simp] theorem w_DBG_CHAIN_GUEST_EN : DBG_CHAIN.GUEST_EN.w = 1 := rfl
@[simp] theorem reg_DBG_CHAIN_GIR_LEN : DBG_CHAIN.GIR_LEN.reg = .DBG_CHAIN := rfl
@[simp] theorem lo_DBG_CHAIN_GIR_LEN : DBG_CHAIN.GIR_LEN.lo = 16 := rfl
@[simp] theorem w_DBG_CHAIN_GIR_LEN : DBG_CHAIN.GIR_LEN.w = 8 := rfl
@[simp] theorem reg_DBG_CHAIN_IR_LEN : DBG_CHAIN.IR_LEN.reg = .DBG_CHAIN := rfl
@[simp] theorem lo_DBG_CHAIN_IR_LEN : DBG_CHAIN.IR_LEN.lo = 32 := rfl
@[simp] theorem w_DBG_CHAIN_IR_LEN : DBG_CHAIN.IR_LEN.w = 10 := rfl
@[simp] theorem reg_DBG_STATUS_EVT_GRANT : DBG_STATUS.EVT_GRANT.reg = .DBG_STATUS := rfl
@[simp] theorem lo_DBG_STATUS_EVT_GRANT : DBG_STATUS.EVT_GRANT.lo = 32 := rfl
@[simp] theorem w_DBG_STATUS_EVT_GRANT : DBG_STATUS.EVT_GRANT.w = 1 := rfl
@[simp] theorem reg_DBG_STATUS_EVT_FAIL : DBG_STATUS.EVT_FAIL.reg = .DBG_STATUS := rfl
@[simp] theorem lo_DBG_STATUS_EVT_FAIL : DBG_STATUS.EVT_FAIL.lo = 33 := rfl
@[simp] theorem w_DBG_STATUS_EVT_FAIL : DBG_STATUS.EVT_FAIL.w = 1 := rfl
@[simp] theorem reg_DBG_STATUS_EVT_LOCKED : DBG_STATUS.EVT_LOCKED.reg = .DBG_STATUS := rfl
@[simp] theorem lo_DBG_STATUS_EVT_LOCKED : DBG_STATUS.EVT_LOCKED.lo = 34 := rfl
@[simp] theorem w_DBG_STATUS_EVT_LOCKED : DBG_STATUS.EVT_LOCKED.w = 1 := rfl
@[simp] theorem reg_DBG_STATUS_EVT_HALT : DBG_STATUS.EVT_HALT.reg = .DBG_STATUS := rfl
@[simp] theorem lo_DBG_STATUS_EVT_HALT : DBG_STATUS.EVT_HALT.lo = 35 := rfl
@[simp] theorem w_DBG_STATUS_EVT_HALT : DBG_STATUS.EVT_HALT.w = 1 := rfl
@[simp] theorem reg_DBG_STATUS_EVT_TEST : DBG_STATUS.EVT_TEST.reg = .DBG_STATUS := rfl
@[simp] theorem lo_DBG_STATUS_EVT_TEST : DBG_STATUS.EVT_TEST.lo = 36 := rfl
@[simp] theorem w_DBG_STATUS_EVT_TEST : DBG_STATUS.EVT_TEST.w = 1 := rfl
@[simp] theorem reg_DBG_CNT_GRANTS : DBG_CNT.GRANTS.reg = .DBG_CNT := rfl
@[simp] theorem lo_DBG_CNT_GRANTS : DBG_CNT.GRANTS.lo = 0 := rfl
@[simp] theorem w_DBG_CNT_GRANTS : DBG_CNT.GRANTS.w = 32 := rfl
@[simp] theorem reg_DBG_CNT_DENIED : DBG_CNT.DENIED.reg = .DBG_CNT := rfl
@[simp] theorem lo_DBG_CNT_DENIED : DBG_CNT.DENIED.lo = 32 := rfl
@[simp] theorem w_DBG_CNT_DENIED : DBG_CNT.DENIED.w = 32 := rfl
@[simp] theorem reg_DBG_AUTH_NONCE_BYTES : DBG_AUTH_NONCE.BYTES.reg = .DBG_AUTH_NONCE := rfl
@[simp] theorem lo_DBG_AUTH_NONCE_BYTES : DBG_AUTH_NONCE.BYTES.lo = 0 := rfl
@[simp] theorem w_DBG_AUTH_NONCE_BYTES : DBG_AUTH_NONCE.BYTES.w = 64 := rfl
@[simp] theorem reg_DBG_AUTH_PUB_BYTES : DBG_AUTH_PUB.BYTES.reg = .DBG_AUTH_PUB := rfl
@[simp] theorem lo_DBG_AUTH_PUB_BYTES : DBG_AUTH_PUB.BYTES.lo = 0 := rfl
@[simp] theorem w_DBG_AUTH_PUB_BYTES : DBG_AUTH_PUB.BYTES.w = 64 := rfl
@[simp] theorem reg_DBG_AUTH_SIG_BYTES : DBG_AUTH_SIG.BYTES.reg = .DBG_AUTH_SIG := rfl
@[simp] theorem lo_DBG_AUTH_SIG_BYTES : DBG_AUTH_SIG.BYTES.lo = 0 := rfl
@[simp] theorem w_DBG_AUTH_SIG_BYTES : DBG_AUTH_SIG.BYTES.w = 64 := rfl
@[simp] theorem reg_DBG_ACC_CTL_GO : DBG_ACC_CTL.GO.reg = .DBG_ACC_CTL := rfl
@[simp] theorem lo_DBG_ACC_CTL_GO : DBG_ACC_CTL.GO.lo = 0 := rfl
@[simp] theorem w_DBG_ACC_CTL_GO : DBG_ACC_CTL.GO.w = 1 := rfl
@[simp] theorem reg_DBG_ACC_CTL_WRITE : DBG_ACC_CTL.WRITE.reg = .DBG_ACC_CTL := rfl
@[simp] theorem lo_DBG_ACC_CTL_WRITE : DBG_ACC_CTL.WRITE.lo = 1 := rfl
@[simp] theorem w_DBG_ACC_CTL_WRITE : DBG_ACC_CTL.WRITE.w = 1 := rfl
@[simp] theorem reg_DBG_ACC_CTL_NS : DBG_ACC_CTL.NS.reg = .DBG_ACC_CTL := rfl
@[simp] theorem lo_DBG_ACC_CTL_NS : DBG_ACC_CTL.NS.lo = 2 := rfl
@[simp] theorem w_DBG_ACC_CTL_NS : DBG_ACC_CTL.NS.w = 1 := rfl
@[simp] theorem reg_DBG_ACC_CTL_WAKE : DBG_ACC_CTL.WAKE.reg = .DBG_ACC_CTL := rfl
@[simp] theorem lo_DBG_ACC_CTL_WAKE : DBG_ACC_CTL.WAKE.lo = 3 := rfl
@[simp] theorem w_DBG_ACC_CTL_WAKE : DBG_ACC_CTL.WAKE.w = 1 := rfl
@[simp] theorem reg_DBG_ACC_CTL_SIZE : DBG_ACC_CTL.SIZE.reg = .DBG_ACC_CTL := rfl
@[simp] theorem lo_DBG_ACC_CTL_SIZE : DBG_ACC_CTL.SIZE.lo = 4 := rfl
@[simp] theorem w_DBG_ACC_CTL_SIZE : DBG_ACC_CTL.SIZE.w = 2 := rfl
@[simp] theorem reg_DBG_ACC_CTL_STATUS : DBG_ACC_CTL.STATUS.reg = .DBG_ACC_CTL := rfl
@[simp] theorem lo_DBG_ACC_CTL_STATUS : DBG_ACC_CTL.STATUS.lo = 8 := rfl
@[simp] theorem w_DBG_ACC_CTL_STATUS : DBG_ACC_CTL.STATUS.w = 3 := rfl
@[simp] theorem reg_DBG_ACC_CTL_DONE : DBG_ACC_CTL.DONE.reg = .DBG_ACC_CTL := rfl
@[simp] theorem lo_DBG_ACC_CTL_DONE : DBG_ACC_CTL.DONE.lo = 11 := rfl
@[simp] theorem w_DBG_ACC_CTL_DONE : DBG_ACC_CTL.DONE.w = 1 := rfl
@[simp] theorem reg_DBG_ACC_ADDR_ADDR : DBG_ACC_ADDR.ADDR.reg = .DBG_ACC_ADDR := rfl
@[simp] theorem lo_DBG_ACC_ADDR_ADDR : DBG_ACC_ADDR.ADDR.lo = 0 := rfl
@[simp] theorem w_DBG_ACC_ADDR_ADDR : DBG_ACC_ADDR.ADDR.w = 46 := rfl
@[simp] theorem reg_DBG_ACC_DATA_DATA : DBG_ACC_DATA.DATA.reg = .DBG_ACC_DATA := rfl
@[simp] theorem lo_DBG_ACC_DATA_DATA : DBG_ACC_DATA.DATA.lo = 0 := rfl
@[simp] theorem w_DBG_ACC_DATA_DATA : DBG_ACC_DATA.DATA.w = 64 := rfl
@[simp] theorem reg_CDU_STATUS_DOMAINS : CDU_STATUS.DOMAINS.reg = .CDU_STATUS := rfl
@[simp] theorem lo_CDU_STATUS_DOMAINS : CDU_STATUS.DOMAINS.lo = 0 := rfl
@[simp] theorem w_CDU_STATUS_DOMAINS : CDU_STATUS.DOMAINS.w = 10 := rfl
@[simp] theorem reg_CDU_STATUS_VDD : CDU_STATUS.VDD.reg = .CDU_STATUS := rfl
@[simp] theorem lo_CDU_STATUS_VDD : CDU_STATUS.VDD.lo = 16 := rfl
@[simp] theorem w_CDU_STATUS_VDD : CDU_STATUS.VDD.w = 10 := rfl
@[simp] theorem reg_GLB_ID_HUB_GEN : GLB_ID.HUB_GEN.reg = .GLB_ID := rfl
@[simp] theorem lo_GLB_ID_HUB_GEN : GLB_ID.HUB_GEN.lo = 0 := rfl
@[simp] theorem w_GLB_ID_HUB_GEN : GLB_ID.HUB_GEN.w = 8 := rfl
@[simp] theorem reg_GLB_ID_PKG_GEN : GLB_ID.PKG_GEN.reg = .GLB_ID := rfl
@[simp] theorem lo_GLB_ID_PKG_GEN : GLB_ID.PKG_GEN.lo = 8 := rfl
@[simp] theorem w_GLB_ID_PKG_GEN : GLB_ID.PKG_GEN.w = 8 := rfl
@[simp] theorem reg_GLB_ID_CD_POP : GLB_ID.CD_POP.reg = .GLB_ID := rfl
@[simp] theorem lo_GLB_ID_CD_POP : GLB_ID.CD_POP.lo = 16 := rfl
@[simp] theorem w_GLB_ID_CD_POP : GLB_ID.CD_POP.w = 12 := rfl
@[simp] theorem reg_GLB_ID_GS_POP : GLB_ID.GS_POP.reg = .GLB_ID := rfl
@[simp] theorem lo_GLB_ID_GS_POP : GLB_ID.GS_POP.lo = 28 := rfl
@[simp] theorem w_GLB_ID_GS_POP : GLB_ID.GS_POP.w = 2 := rfl
@[simp] theorem reg_GLB_ID_STEP : GLB_ID.STEP.reg = .GLB_ID := rfl
@[simp] theorem lo_GLB_ID_STEP : GLB_ID.STEP.lo = 32 := rfl
@[simp] theorem w_GLB_ID_STEP : GLB_ID.STEP.w = 8 := rfl
@[simp] theorem reg_GLB_PROFILE_PINS : GLB_PROFILE.PINS.reg = .GLB_PROFILE := rfl
@[simp] theorem lo_GLB_PROFILE_PINS : GLB_PROFILE.PINS.lo = 0 := rfl
@[simp] theorem w_GLB_PROFILE_PINS : GLB_PROFILE.PINS.w = 2 := rfl
@[simp] theorem reg_GLB_PROFILE_ACTIVE : GLB_PROFILE.ACTIVE.reg = .GLB_PROFILE := rfl
@[simp] theorem lo_GLB_PROFILE_ACTIVE : GLB_PROFILE.ACTIVE.lo = 2 := rfl
@[simp] theorem w_GLB_PROFILE_ACTIVE : GLB_PROFILE.ACTIVE.w = 2 := rfl
@[simp] theorem reg_GLB_PROFILE_PENDING : GLB_PROFILE.PENDING.reg = .GLB_PROFILE := rfl
@[simp] theorem lo_GLB_PROFILE_PENDING : GLB_PROFILE.PENDING.lo = 4 := rfl
@[simp] theorem w_GLB_PROFILE_PENDING : GLB_PROFILE.PENDING.w = 2 := rfl
@[simp] theorem reg_GLB_PROFILE_FALLBACK : GLB_PROFILE.FALLBACK.reg = .GLB_PROFILE := rfl
@[simp] theorem lo_GLB_PROFILE_FALLBACK : GLB_PROFILE.FALLBACK.lo = 6 := rfl
@[simp] theorem w_GLB_PROFILE_FALLBACK : GLB_PROFILE.FALLBACK.w = 1 := rfl
@[simp] theorem reg_GLB_PROFILE_BOOT_SRC : GLB_PROFILE.BOOT_SRC.reg = .GLB_PROFILE := rfl
@[simp] theorem lo_GLB_PROFILE_BOOT_SRC : GLB_PROFILE.BOOT_SRC.lo = 7 := rfl
@[simp] theorem w_GLB_PROFILE_BOOT_SRC : GLB_PROFILE.BOOT_SRC.w = 1 := rfl
@[simp] theorem reg_GLB_PROFILE_VALID : GLB_PROFILE.VALID.reg = .GLB_PROFILE := rfl
@[simp] theorem lo_GLB_PROFILE_VALID : GLB_PROFILE.VALID.lo = 8 := rfl
@[simp] theorem w_GLB_PROFILE_VALID : GLB_PROFILE.VALID.w = 4 := rfl
@[simp] theorem reg_GLB_PROFILE_APPLY_ERR : GLB_PROFILE.APPLY_ERR.reg = .GLB_PROFILE := rfl
@[simp] theorem lo_GLB_PROFILE_APPLY_ERR : GLB_PROFILE.APPLY_ERR.lo = 16 := rfl
@[simp] theorem w_GLB_PROFILE_APPLY_ERR : GLB_PROFILE.APPLY_ERR.w = 12 := rfl
@[simp] theorem reg_GLB_PROFILE_ID_ID : GLB_PROFILE_ID.ID.reg = .GLB_PROFILE_ID := rfl
@[simp] theorem lo_GLB_PROFILE_ID_ID : GLB_PROFILE_ID.ID.lo = 0 := rfl
@[simp] theorem w_GLB_PROFILE_ID_ID : GLB_PROFILE_ID.ID.w = 32 := rfl
@[simp] theorem reg_CKR_STATUS_XTAL_OK : CKR_STATUS.XTAL_OK.reg = .CKR_STATUS := rfl
@[simp] theorem lo_CKR_STATUS_XTAL_OK : CKR_STATUS.XTAL_OK.lo = 0 := rfl
@[simp] theorem w_CKR_STATUS_XTAL_OK : CKR_STATUS.XTAL_OK.w = 1 := rfl
@[simp] theorem reg_CKR_STATUS_ROOT_LOCK : CKR_STATUS.ROOT_LOCK.reg = .CKR_STATUS := rfl
@[simp] theorem lo_CKR_STATUS_ROOT_LOCK : CKR_STATUS.ROOT_LOCK.lo = 1 := rfl
@[simp] theorem w_CKR_STATUS_ROOT_LOCK : CKR_STATUS.ROOT_LOCK.w = 1 := rfl
@[simp] theorem reg_CKR_STATUS_ROOT_SRC : CKR_STATUS.ROOT_SRC.reg = .CKR_STATUS := rfl
@[simp] theorem lo_CKR_STATUS_ROOT_SRC : CKR_STATUS.ROOT_SRC.lo = 2 := rfl
@[simp] theorem w_CKR_STATUS_ROOT_SRC : CKR_STATUS.ROOT_SRC.w = 1 := rfl
@[simp] theorem reg_CKR_STATUS_FAIL_CAUSE : CKR_STATUS.FAIL_CAUSE.reg = .CKR_STATUS := rfl
@[simp] theorem lo_CKR_STATUS_FAIL_CAUSE : CKR_STATUS.FAIL_CAUSE.lo = 4 := rfl
@[simp] theorem w_CKR_STATUS_FAIL_CAUSE : CKR_STATUS.FAIL_CAUSE.w = 2 := rfl
@[simp] theorem reg_CKR_STATUS_EVT_CLOCK_FAIL : CKR_STATUS.EVT_CLOCK_FAIL.reg = .CKR_STATUS := rfl
@[simp] theorem lo_CKR_STATUS_EVT_CLOCK_FAIL : CKR_STATUS.EVT_CLOCK_FAIL.lo = 32 := rfl
@[simp] theorem w_CKR_STATUS_EVT_CLOCK_FAIL : CKR_STATUS.EVT_CLOCK_FAIL.w = 1 := rfl
@[simp] theorem reg_CKR_STATUS_EVT_IRO_DRIFT : CKR_STATUS.EVT_IRO_DRIFT.reg = .CKR_STATUS := rfl
@[simp] theorem lo_CKR_STATUS_EVT_IRO_DRIFT : CKR_STATUS.EVT_IRO_DRIFT.lo = 33 := rfl
@[simp] theorem w_CKR_STATUS_EVT_IRO_DRIFT : CKR_STATUS.EVT_IRO_DRIFT.w = 1 := rfl
@[simp] theorem reg_CKR_STATUS_EVT_REFUSED : CKR_STATUS.EVT_REFUSED.reg = .CKR_STATUS := rfl
@[simp] theorem lo_CKR_STATUS_EVT_REFUSED : CKR_STATUS.EVT_REFUSED.lo = 34 := rfl
@[simp] theorem w_CKR_STATUS_EVT_REFUSED : CKR_STATUS.EVT_REFUSED.w = 1 := rfl
@[simp] theorem reg_CKR_MON_XTAL_IRO : CKR_MON.XTAL_IRO.reg = .CKR_MON := rfl
@[simp] theorem lo_CKR_MON_XTAL_IRO : CKR_MON.XTAL_IRO.lo = 0 := rfl
@[simp] theorem w_CKR_MON_XTAL_IRO : CKR_MON.XTAL_IRO.w = 16 := rfl
@[simp] theorem reg_CKR_MON_ROOT_IRO : CKR_MON.ROOT_IRO.reg = .CKR_MON := rfl
@[simp] theorem lo_CKR_MON_ROOT_IRO : CKR_MON.ROOT_IRO.lo = 16 := rfl
@[simp] theorem w_CKR_MON_ROOT_IRO : CKR_MON.ROOT_IRO.w = 16 := rfl
@[simp] theorem reg_CKR_MON_IRO_XTAL : CKR_MON.IRO_XTAL.reg = .CKR_MON := rfl
@[simp] theorem lo_CKR_MON_IRO_XTAL : CKR_MON.IRO_XTAL.lo = 32 := rfl
@[simp] theorem w_CKR_MON_IRO_XTAL : CKR_MON.IRO_XTAL.w = 16 := rfl
@[simp] theorem reg_CKR_MON_LIM_TOL : CKR_MON_LIM.TOL.reg = .CKR_MON_LIM := rfl
@[simp] theorem lo_CKR_MON_LIM_TOL : CKR_MON_LIM.TOL.lo = 0 := rfl
@[simp] theorem w_CKR_MON_LIM_TOL : CKR_MON_LIM.TOL.w = 8 := rfl
@[simp] theorem reg_CKR_TIME_TIME : CKR_TIME.TIME.reg = .CKR_TIME := rfl
@[simp] theorem lo_CKR_TIME_TIME : CKR_TIME.TIME.lo = 0 := rfl
@[simp] theorem w_CKR_TIME_TIME : CKR_TIME.TIME.w = 64 := rfl
@[simp] theorem reg_CKR_FTIME_FTIME : CKR_FTIME.FTIME.reg = .CKR_FTIME := rfl
@[simp] theorem lo_CKR_FTIME_FTIME : CKR_FTIME.FTIME.lo = 0 := rfl
@[simp] theorem w_CKR_FTIME_FTIME : CKR_FTIME.FTIME.w = 64 := rfl
@[simp] theorem reg_CKR_RESET_CAUSE : CKR_RESET.CAUSE.reg = .CKR_RESET := rfl
@[simp] theorem lo_CKR_RESET_CAUSE : CKR_RESET.CAUSE.lo = 0 := rfl
@[simp] theorem w_CKR_RESET_CAUSE : CKR_RESET.CAUSE.w = 4 := rfl
@[simp] theorem reg_CKR_RESET_WARMS : CKR_RESET.WARMS.reg = .CKR_RESET := rfl
@[simp] theorem lo_CKR_RESET_WARMS : CKR_RESET.WARMS.lo = 16 := rfl
@[simp] theorem w_CKR_RESET_WARMS : CKR_RESET.WARMS.w = 16 := rfl
@[simp] theorem reg_CKR_RESET_CTL_WARM : CKR_RESET_CTL.WARM.reg = .CKR_RESET_CTL := rfl
@[simp] theorem lo_CKR_RESET_CTL_WARM : CKR_RESET_CTL.WARM.lo = 0 := rfl
@[simp] theorem w_CKR_RESET_CTL_WARM : CKR_RESET_CTL.WARM.w = 1 := rfl
@[simp] theorem reg_CKR_DOM_EN : CKR_DOM.EN.reg = .CKR_DOM := rfl
@[simp] theorem lo_CKR_DOM_EN : CKR_DOM.EN.lo = 0 := rfl
@[simp] theorem w_CKR_DOM_EN : CKR_DOM.EN.w = 1 := rfl
@[simp] theorem reg_CKR_DOM_GATEABLE : CKR_DOM.GATEABLE.reg = .CKR_DOM := rfl
@[simp] theorem lo_CKR_DOM_GATEABLE : CKR_DOM.GATEABLE.lo = 1 := rfl
@[simp] theorem w_CKR_DOM_GATEABLE : CKR_DOM.GATEABLE.w = 1 := rfl
@[simp] theorem reg_CKR_DOM_OWNER_S : CKR_DOM.OWNER_S.reg = .CKR_DOM := rfl
@[simp] theorem lo_CKR_DOM_OWNER_S : CKR_DOM.OWNER_S.lo = 2 := rfl
@[simp] theorem w_CKR_DOM_OWNER_S : CKR_DOM.OWNER_S.w = 1 := rfl
@[simp] theorem reg_CKR_DOM_RATIO_REFUSED : CKR_DOM.RATIO_REFUSED.reg = .CKR_DOM := rfl
@[simp] theorem lo_CKR_DOM_RATIO_REFUSED : CKR_DOM.RATIO_REFUSED.lo = 3 := rfl
@[simp] theorem w_CKR_DOM_RATIO_REFUSED : CKR_DOM.RATIO_REFUSED.w = 1 := rfl
@[simp] theorem reg_CKR_DOM_GATE_REFUSED : CKR_DOM.GATE_REFUSED.reg = .CKR_DOM := rfl
@[simp] theorem lo_CKR_DOM_GATE_REFUSED : CKR_DOM.GATE_REFUSED.lo = 4 := rfl
@[simp] theorem w_CKR_DOM_GATE_REFUSED : CKR_DOM.GATE_REFUSED.w = 1 := rfl
@[simp] theorem reg_CKR_DOM_SWITCHING : CKR_DOM.SWITCHING.reg = .CKR_DOM := rfl
@[simp] theorem lo_CKR_DOM_SWITCHING : CKR_DOM.SWITCHING.lo = 5 := rfl
@[simp] theorem w_CKR_DOM_SWITCHING : CKR_DOM.SWITCHING.w = 1 := rfl
@[simp] theorem reg_CKR_DOM_N : CKR_DOM.N.reg = .CKR_DOM := rfl
@[simp] theorem lo_CKR_DOM_N : CKR_DOM.N.lo = 16 := rfl
@[simp] theorem w_CKR_DOM_N : CKR_DOM.N.w = 12 := rfl
@[simp] theorem reg_CKR_DOM_M : CKR_DOM.M.reg = .CKR_DOM := rfl
@[simp] theorem lo_CKR_DOM_M : CKR_DOM.M.lo = 28 := rfl
@[simp] theorem w_CKR_DOM_M : CKR_DOM.M.w = 8 := rfl
@[simp] theorem reg_CKR_DOM_FMAX_PLAN : CKR_DOM.FMAX_PLAN.reg = .CKR_DOM := rfl
@[simp] theorem lo_CKR_DOM_FMAX_PLAN : CKR_DOM.FMAX_PLAN.lo = 48 := rfl
@[simp] theorem w_CKR_DOM_FMAX_PLAN : CKR_DOM.FMAX_PLAN.w = 16 := rfl
@[simp] theorem reg_PWR_STATUS_TRANSITIONS : PWR_STATUS.TRANSITIONS.reg = .PWR_STATUS := rfl
@[simp] theorem lo_PWR_STATUS_TRANSITIONS : PWR_STATUS.TRANSITIONS.lo = 0 := rfl
@[simp] theorem w_PWR_STATUS_TRANSITIONS : PWR_STATUS.TRANSITIONS.w = 7 := rfl
@[simp] theorem reg_PWR_STATUS_QUEUED : PWR_STATUS.QUEUED.reg = .PWR_STATUS := rfl
@[simp] theorem lo_PWR_STATUS_QUEUED : PWR_STATUS.QUEUED.lo = 8 := rfl
@[simp] theorem w_PWR_STATUS_QUEUED : PWR_STATUS.QUEUED.w = 7 := rfl
@[simp] theorem reg_PWR_STATUS_REFTAB_LOST : PWR_STATUS.REFTAB_LOST.reg = .PWR_STATUS := rfl
@[simp] theorem lo_PWR_STATUS_REFTAB_LOST : PWR_STATUS.REFTAB_LOST.lo = 32 := rfl
@[simp] theorem w_PWR_STATUS_REFTAB_LOST : PWR_STATUS.REFTAB_LOST.w = 32 := rfl
@[simp] theorem reg_PWR_DOM_CTL_TARGET : PWR_DOM_CTL.TARGET.reg = .PWR_DOM_CTL := rfl
@[simp] theorem lo_PWR_DOM_CTL_TARGET : PWR_DOM_CTL.TARGET.lo = 0 := rfl
@[simp] theorem w_PWR_DOM_CTL_TARGET : PWR_DOM_CTL.TARGET.w = 2 := rfl
@[simp] theorem reg_PWR_DOM_CTL_HOLD : PWR_DOM_CTL.HOLD.reg = .PWR_DOM_CTL := rfl
@[simp] theorem lo_PWR_DOM_CTL_HOLD : PWR_DOM_CTL.HOLD.lo = 2 := rfl
@[simp] theorem w_PWR_DOM_CTL_HOLD : PWR_DOM_CTL.HOLD.w = 1 := rfl
@[simp] theorem reg_PWR_DOM_CTL_OWNER_S : PWR_DOM_CTL.OWNER_S.reg = .PWR_DOM_CTL := rfl
@[simp] theorem lo_PWR_DOM_CTL_OWNER_S : PWR_DOM_CTL.OWNER_S.lo = 3 := rfl
@[simp] theorem w_PWR_DOM_CTL_OWNER_S : PWR_DOM_CTL.OWNER_S.w = 1 := rfl
@[simp] theorem reg_PWR_DOM_CTL_LOCK_P : PWR_DOM_CTL.LOCK_P.reg = .PWR_DOM_CTL := rfl
@[simp] theorem lo_PWR_DOM_CTL_LOCK_P : PWR_DOM_CTL.LOCK_P.lo = 4 := rfl
@[simp] theorem w_PWR_DOM_CTL_LOCK_P : PWR_DOM_CTL.LOCK_P.w = 1 := rfl
@[simp] theorem reg_PWR_DOM_CTL_LOCK_HW : PWR_DOM_CTL.LOCK_HW.reg = .PWR_DOM_CTL := rfl
@[simp] theorem lo_PWR_DOM_CTL_LOCK_HW : PWR_DOM_CTL.LOCK_HW.lo = 5 := rfl
@[simp] theorem w_PWR_DOM_CTL_LOCK_HW : PWR_DOM_CTL.LOCK_HW.w = 1 := rfl
@[simp] theorem reg_PWR_DOM_STATUS_STATE : PWR_DOM_STATUS.STATE.reg = .PWR_DOM_STATUS := rfl
@[simp] theorem lo_PWR_DOM_STATUS_STATE : PWR_DOM_STATUS.STATE.lo = 0 := rfl
@[simp] theorem w_PWR_DOM_STATUS_STATE : PWR_DOM_STATUS.STATE.w = 2 := rfl
@[simp] theorem reg_PWR_DOM_STATUS_TRANSITION : PWR_DOM_STATUS.TRANSITION.reg = .PWR_DOM_STATUS := rfl
@[simp] theorem lo_PWR_DOM_STATUS_TRANSITION : PWR_DOM_STATUS.TRANSITION.lo = 2 := rfl
@[simp] theorem w_PWR_DOM_STATUS_TRANSITION : PWR_DOM_STATUS.TRANSITION.w = 1 := rfl
@[simp] theorem reg_PWR_DOM_STATUS_PENDING : PWR_DOM_STATUS.PENDING.reg = .PWR_DOM_STATUS := rfl
@[simp] theorem lo_PWR_DOM_STATUS_PENDING : PWR_DOM_STATUS.PENDING.lo = 3 := rfl
@[simp] theorem w_PWR_DOM_STATUS_PENDING : PWR_DOM_STATUS.PENDING.w = 1 := rfl
@[simp] theorem reg_PWR_DOM_STATUS_LAST_REFUSER : PWR_DOM_STATUS.LAST_REFUSER.reg = .PWR_DOM_STATUS := rfl
@[simp] theorem lo_PWR_DOM_STATUS_LAST_REFUSER : PWR_DOM_STATUS.LAST_REFUSER.lo = 4 := rfl
@[simp] theorem w_PWR_DOM_STATUS_LAST_REFUSER : PWR_DOM_STATUS.LAST_REFUSER.w = 3 := rfl
@[simp] theorem reg_PWR_DOM_STATUS_REFUSED : PWR_DOM_STATUS.REFUSED.reg = .PWR_DOM_STATUS := rfl
@[simp] theorem lo_PWR_DOM_STATUS_REFUSED : PWR_DOM_STATUS.REFUSED.lo = 7 := rfl
@[simp] theorem w_PWR_DOM_STATUS_REFUSED : PWR_DOM_STATUS.REFUSED.w = 1 := rfl
@[simp] theorem reg_PWR_DOM_STATUS_LAST_WAKE : PWR_DOM_STATUS.LAST_WAKE.reg = .PWR_DOM_STATUS := rfl
@[simp] theorem lo_PWR_DOM_STATUS_LAST_WAKE : PWR_DOM_STATUS.LAST_WAKE.lo = 8 := rfl
@[simp] theorem w_PWR_DOM_STATUS_LAST_WAKE : PWR_DOM_STATUS.LAST_WAKE.w = 4 := rfl
@[simp] theorem reg_PWR_DOM_STATUS_WAKES : PWR_DOM_STATUS.WAKES.reg = .PWR_DOM_STATUS := rfl
@[simp] theorem lo_PWR_DOM_STATUS_WAKES : PWR_DOM_STATUS.WAKES.lo = 16 := rfl
@[simp] theorem w_PWR_DOM_STATUS_WAKES : PWR_DOM_STATUS.WAKES.w = 16 := rfl
@[simp] theorem reg_PWR_DOM_STATUS_EVT_STATE : PWR_DOM_STATUS.EVT_STATE.reg = .PWR_DOM_STATUS := rfl
@[simp] theorem lo_PWR_DOM_STATUS_EVT_STATE : PWR_DOM_STATUS.EVT_STATE.lo = 32 := rfl
@[simp] theorem w_PWR_DOM_STATUS_EVT_STATE : PWR_DOM_STATUS.EVT_STATE.w = 1 := rfl
@[simp] theorem reg_PWR_DOM_STATUS_EVT_REFUSED : PWR_DOM_STATUS.EVT_REFUSED.reg = .PWR_DOM_STATUS := rfl
@[simp] theorem lo_PWR_DOM_STATUS_EVT_REFUSED : PWR_DOM_STATUS.EVT_REFUSED.lo = 33 := rfl
@[simp] theorem w_PWR_DOM_STATUS_EVT_REFUSED : PWR_DOM_STATUS.EVT_REFUSED.w = 1 := rfl
@[simp] theorem reg_PWR_DOM_STATUS_EVT_ABORTED : PWR_DOM_STATUS.EVT_ABORTED.reg = .PWR_DOM_STATUS := rfl
@[simp] theorem lo_PWR_DOM_STATUS_EVT_ABORTED : PWR_DOM_STATUS.EVT_ABORTED.lo = 34 := rfl
@[simp] theorem w_PWR_DOM_STATUS_EVT_ABORTED : PWR_DOM_STATUS.EVT_ABORTED.w = 1 := rfl
@[simp] theorem reg_PWR_REFTAB_DOMAIN : PWR_REFTAB.DOMAIN.reg = .PWR_REFTAB := rfl
@[simp] theorem lo_PWR_REFTAB_DOMAIN : PWR_REFTAB.DOMAIN.lo = 0 := rfl
@[simp] theorem w_PWR_REFTAB_DOMAIN : PWR_REFTAB.DOMAIN.w = 7 := rfl
@[simp] theorem reg_PWR_REFTAB_VALID : PWR_REFTAB.VALID.reg = .PWR_REFTAB := rfl
@[simp] theorem lo_PWR_REFTAB_VALID : PWR_REFTAB.VALID.lo = 7 := rfl
@[simp] theorem w_PWR_REFTAB_VALID : PWR_REFTAB.VALID.w = 1 := rfl
@[simp] theorem reg_PWR_REFTAB_REFUSER : PWR_REFTAB.REFUSER.reg = .PWR_REFTAB := rfl
@[simp] theorem lo_PWR_REFTAB_REFUSER : PWR_REFTAB.REFUSER.lo = 8 := rfl
@[simp] theorem w_PWR_REFTAB_REFUSER : PWR_REFTAB.REFUSER.w = 3 := rfl
@[simp] theorem reg_PWR_REFTAB_REFUSED : PWR_REFTAB.REFUSED.reg = .PWR_REFTAB := rfl
@[simp] theorem lo_PWR_REFTAB_REFUSED : PWR_REFTAB.REFUSED.lo = 16 := rfl
@[simp] theorem w_PWR_REFTAB_REFUSED : PWR_REFTAB.REFUSED.w = 16 := rfl
@[simp] theorem reg_PWR_REFTAB_ABORTED : PWR_REFTAB.ABORTED.reg = .PWR_REFTAB := rfl
@[simp] theorem lo_PWR_REFTAB_ABORTED : PWR_REFTAB.ABORTED.lo = 32 := rfl
@[simp] theorem w_PWR_REFTAB_ABORTED : PWR_REFTAB.ABORTED.w = 16 := rfl
@[simp] theorem reg_PWR_REFTAB_CORE : PWR_REFTAB.CORE.reg = .PWR_REFTAB := rfl
@[simp] theorem lo_PWR_REFTAB_CORE : PWR_REFTAB.CORE.lo = 48 := rfl
@[simp] theorem w_PWR_REFTAB_CORE : PWR_REFTAB.CORE.w = 10 := rfl
@[simp] theorem reg_LGR_CFG_W_EOL : LGR_CFG.W_EOL.reg = .LGR_CFG := rfl
@[simp] theorem lo_LGR_CFG_W_EOL : LGR_CFG.W_EOL.lo = 0 := rfl
@[simp] theorem w_LGR_CFG_W_EOL : LGR_CFG.W_EOL.w = 24 := rfl
@[simp] theorem reg_LGR_CFG_THROT_C : LGR_CFG.THROT_C.reg = .LGR_CFG := rfl
@[simp] theorem lo_LGR_CFG_THROT_C : LGR_CFG.THROT_C.lo = 24 := rfl
@[simp] theorem w_LGR_CFG_THROT_C : LGR_CFG.THROT_C.w = 8 := rfl
@[simp] theorem reg_LGR_CFG_AUTO_PLAN : LGR_CFG.AUTO_PLAN.reg = .LGR_CFG := rfl
@[simp] theorem lo_LGR_CFG_AUTO_PLAN : LGR_CFG.AUTO_PLAN.lo = 32 := rfl
@[simp] theorem w_LGR_CFG_AUTO_PLAN : LGR_CFG.AUTO_PLAN.w = 1 := rfl
@[simp] theorem reg_LGR_STATUS_PLANNING : LGR_STATUS.PLANNING.reg = .LGR_STATUS := rfl
@[simp] theorem lo_LGR_STATUS_PLANNING : LGR_STATUS.PLANNING.lo = 0 := rfl
@[simp] theorem w_LGR_STATUS_PLANNING : LGR_STATUS.PLANNING.w = 1 := rfl
@[simp] theorem reg_LGR_STATUS_SEQ : LGR_STATUS.SEQ.reg = .LGR_STATUS := rfl
@[simp] theorem lo_LGR_STATUS_SEQ : LGR_STATUS.SEQ.lo = 8 := rfl
@[simp] theorem w_LGR_STATUS_SEQ : LGR_STATUS.SEQ.w = 24 := rfl
@[simp] theorem reg_LGR_STATUS_EVT_WEAR_HIGH : LGR_STATUS.EVT_WEAR_HIGH.reg = .LGR_STATUS := rfl
@[simp] theorem lo_LGR_STATUS_EVT_WEAR_HIGH : LGR_STATUS.EVT_WEAR_HIGH.lo = 32 := rfl
@[simp] theorem w_LGR_STATUS_EVT_WEAR_HIGH : LGR_STATUS.EVT_WEAR_HIGH.w = 1 := rfl
@[simp] theorem reg_LGR_STATUS_EVT_PLAN : LGR_STATUS.EVT_PLAN.reg = .LGR_STATUS := rfl
@[simp] theorem lo_LGR_STATUS_EVT_PLAN : LGR_STATUS.EVT_PLAN.lo = 33 := rfl
@[simp] theorem w_LGR_STATUS_EVT_PLAN : LGR_STATUS.EVT_PLAN.w = 1 := rfl
@[simp] theorem reg_LGR_STATUS_EVT_TEMP_HIGH : LGR_STATUS.EVT_TEMP_HIGH.reg = .LGR_STATUS := rfl
@[simp] theorem lo_LGR_STATUS_EVT_TEMP_HIGH : LGR_STATUS.EVT_TEMP_HIGH.lo = 34 := rfl
@[simp] theorem w_LGR_STATUS_EVT_TEMP_HIGH : LGR_STATUS.EVT_TEMP_HIGH.w = 1 := rfl
@[simp] theorem reg_LGR_STATUS_EVT_THROTTLE : LGR_STATUS.EVT_THROTTLE.reg = .LGR_STATUS := rfl
@[simp] theorem lo_LGR_STATUS_EVT_THROTTLE : LGR_STATUS.EVT_THROTTLE.lo = 35 := rfl
@[simp] theorem w_LGR_STATUS_EVT_THROTTLE : LGR_STATUS.EVT_THROTTLE.w = 1 := rfl
@[simp] theorem reg_LGR_STATUS_EVT_WRITE : LGR_STATUS.EVT_WRITE.reg = .LGR_STATUS := rfl
@[simp] theorem lo_LGR_STATUS_EVT_WRITE : LGR_STATUS.EVT_WRITE.lo = 36 := rfl
@[simp] theorem w_LGR_STATUS_EVT_WRITE : LGR_STATUS.EVT_WRITE.w = 1 := rfl
@[simp] theorem reg_LGR_STATUS_EVT_WRITE_ERR : LGR_STATUS.EVT_WRITE_ERR.reg = .LGR_STATUS := rfl
@[simp] theorem lo_LGR_STATUS_EVT_WRITE_ERR : LGR_STATUS.EVT_WRITE_ERR.lo = 37 := rfl
@[simp] theorem w_LGR_STATUS_EVT_WRITE_ERR : LGR_STATUS.EVT_WRITE_ERR.w = 1 := rfl
@[simp] theorem reg_LGR_HOURS_POWERED_HOURS : LGR_HOURS.POWERED_HOURS.reg = .LGR_HOURS := rfl
@[simp] theorem lo_LGR_HOURS_POWERED_HOURS : LGR_HOURS.POWERED_HOURS.lo = 0 := rfl
@[simp] theorem w_LGR_HOURS_POWERED_HOURS : LGR_HOURS.POWERED_HOURS.w = 40 := rfl
@[simp] theorem reg_LGR_HOURS_POWER_CYCLES : LGR_HOURS.POWER_CYCLES.reg = .LGR_HOURS := rfl
@[simp] theorem lo_LGR_HOURS_POWER_CYCLES : LGR_HOURS.POWER_CYCLES.lo = 40 := rfl
@[simp] theorem w_LGR_HOURS_POWER_CYCLES : LGR_HOURS.POWER_CYCLES.w = 24 := rfl
@[simp] theorem reg_LGR_WEAR_W : LGR_WEAR.W.reg = .LGR_WEAR := rfl
@[simp] theorem lo_LGR_WEAR_W : LGR_WEAR.W.lo = 0 := rfl
@[simp] theorem w_LGR_WEAR_W : LGR_WEAR.W.w = 24 := rfl
@[simp] theorem reg_LGR_WEAR_DOMAIN : LGR_WEAR.DOMAIN.reg = .LGR_WEAR := rfl
@[simp] theorem lo_LGR_WEAR_DOMAIN : LGR_WEAR.DOMAIN.lo = 24 := rfl
@[simp] theorem w_LGR_WEAR_DOMAIN : LGR_WEAR.DOMAIN.w = 7 := rfl
@[simp] theorem reg_LGR_WEAR_HOUR : LGR_WEAR.HOUR.reg = .LGR_WEAR := rfl
@[simp] theorem lo_LGR_WEAR_HOUR : LGR_WEAR.HOUR.lo = 32 := rfl
@[simp] theorem w_LGR_WEAR_HOUR : LGR_WEAR.HOUR.w = 32 := rfl
@[simp] theorem reg_LGR_PLAN_GUARD_MV : LGR_PLAN.GUARD_MV.reg = .LGR_PLAN := rfl
@[simp] theorem lo_LGR_PLAN_GUARD_MV : LGR_PLAN.GUARD_MV.lo = 0 := rfl
@[simp] theorem w_LGR_PLAN_GUARD_MV : LGR_PLAN.GUARD_MV.w = 8 := rfl
@[simp] theorem reg_LGR_PLAN_FMAX_MHZ : LGR_PLAN.FMAX_MHZ.reg = .LGR_PLAN := rfl
@[simp] theorem lo_LGR_PLAN_FMAX_MHZ : LGR_PLAN.FMAX_MHZ.lo = 8 := rfl
@[simp] theorem w_LGR_PLAN_FMAX_MHZ : LGR_PLAN.FMAX_MHZ.w = 16 := rfl
@[simp] theorem reg_LGR_PLAN_RATIO_PCT : LGR_PLAN.RATIO_PCT.reg = .LGR_PLAN := rfl
@[simp] theorem lo_LGR_PLAN_RATIO_PCT : LGR_PLAN.RATIO_PCT.lo = 24 := rfl
@[simp] theorem w_LGR_PLAN_RATIO_PCT : LGR_PLAN.RATIO_PCT.w = 8 := rfl
@[simp] theorem reg_LGR_PLAN_HOUR : LGR_PLAN.HOUR.reg = .LGR_PLAN := rfl
@[simp] theorem lo_LGR_PLAN_HOUR : LGR_PLAN.HOUR.lo = 32 := rfl
@[simp] theorem w_LGR_PLAN_HOUR : LGR_PLAN.HOUR.w = 32 := rfl
@[simp] theorem reg_EVC_NMI_LAST : EVC_NMI.LAST.reg = .EVC_NMI := rfl
@[simp] theorem lo_EVC_NMI_LAST : EVC_NMI.LAST.lo = 0 := rfl
@[simp] theorem w_EVC_NMI_LAST : EVC_NMI.LAST.w = 10 := rfl
@[simp] theorem reg_EVC_NMI_COUNT : EVC_NMI.COUNT.reg = .EVC_NMI := rfl
@[simp] theorem lo_EVC_NMI_COUNT : EVC_NMI.COUNT.lo = 16 := rfl
@[simp] theorem w_EVC_NMI_COUNT : EVC_NMI.COUNT.w = 16 := rfl
@[simp] theorem reg_EVC_PEND_LEVEL : EVC_PEND.LEVEL.reg = .EVC_PEND := rfl
@[simp] theorem lo_EVC_PEND_LEVEL : EVC_PEND.LEVEL.lo = 0 := rfl
@[simp] theorem w_EVC_PEND_LEVEL : EVC_PEND.LEVEL.w = 64 := rfl
@[simp] theorem reg_EVC_SRC_CFG_EN : EVC_SRC_CFG.EN.reg = .EVC_SRC_CFG := rfl
@[simp] theorem lo_EVC_SRC_CFG_EN : EVC_SRC_CFG.EN.lo = 0 := rfl
@[simp] theorem w_EVC_SRC_CFG_EN : EVC_SRC_CFG.EN.w = 1 := rfl
@[simp] theorem reg_EVC_SRC_CFG_WORLD : EVC_SRC_CFG.WORLD.reg = .EVC_SRC_CFG := rfl
@[simp] theorem lo_EVC_SRC_CFG_WORLD : EVC_SRC_CFG.WORLD.lo = 1 := rfl
@[simp] theorem w_EVC_SRC_CFG_WORLD : EVC_SRC_CFG.WORLD.w = 1 := rfl
@[simp] theorem reg_EVC_SRC_CFG_TTYPE : EVC_SRC_CFG.TTYPE.reg = .EVC_SRC_CFG := rfl
@[simp] theorem lo_EVC_SRC_CFG_TTYPE : EVC_SRC_CFG.TTYPE.lo = 2 := rfl
@[simp] theorem w_EVC_SRC_CFG_TTYPE : EVC_SRC_CFG.TTYPE.w = 2 := rfl
@[simp] theorem reg_EVC_SRC_CFG_TIDX : EVC_SRC_CFG.TIDX.reg = .EVC_SRC_CFG := rfl
@[simp] theorem lo_EVC_SRC_CFG_TIDX : EVC_SRC_CFG.TIDX.lo = 16 := rfl
@[simp] theorem w_EVC_SRC_CFG_TIDX : EVC_SRC_CFG.TIDX.w = 11 := rfl
@[simp] theorem reg_EVC_SRC_CFG_RATE : EVC_SRC_CFG.RATE.reg = .EVC_SRC_CFG := rfl
@[simp] theorem lo_EVC_SRC_CFG_RATE : EVC_SRC_CFG.RATE.lo = 32 := rfl
@[simp] theorem w_EVC_SRC_CFG_RATE : EVC_SRC_CFG.RATE.w = 16 := rfl
@[simp] theorem reg_EVC_SRC_CFG_NMI : EVC_SRC_CFG.NMI.reg = .EVC_SRC_CFG := rfl
@[simp] theorem lo_EVC_SRC_CFG_NMI : EVC_SRC_CFG.NMI.lo = 48 := rfl
@[simp] theorem w_EVC_SRC_CFG_NMI : EVC_SRC_CFG.NMI.w = 1 := rfl
@[simp] theorem reg_EVC_SRC_CNT_FIRED : EVC_SRC_CNT.FIRED.reg = .EVC_SRC_CNT := rfl
@[simp] theorem lo_EVC_SRC_CNT_FIRED : EVC_SRC_CNT.FIRED.lo = 0 := rfl
@[simp] theorem w_EVC_SRC_CNT_FIRED : EVC_SRC_CNT.FIRED.w = 32 := rfl
@[simp] theorem reg_EVC_SRC_CNT_MERGED : EVC_SRC_CNT.MERGED.reg = .EVC_SRC_CNT := rfl
@[simp] theorem lo_EVC_SRC_CNT_MERGED : EVC_SRC_CNT.MERGED.lo = 32 := rfl
@[simp] theorem w_EVC_SRC_CNT_MERGED : EVC_SRC_CNT.MERGED.w = 16 := rfl
@[simp] theorem reg_EVC_SRC_CNT_DISCARDED : EVC_SRC_CNT.DISCARDED.reg = .EVC_SRC_CNT := rfl
@[simp] theorem lo_EVC_SRC_CNT_DISCARDED : EVC_SRC_CNT.DISCARDED.lo = 48 := rfl
@[simp] theorem w_EVC_SRC_CNT_DISCARDED : EVC_SRC_CNT.DISCARDED.w = 16 := rfl
@[simp] theorem reg_MSIX_ADDR_ADDR : MSIX_ADDR.ADDR.reg = .MSIX_ADDR := rfl
@[simp] theorem lo_MSIX_ADDR_ADDR : MSIX_ADDR.ADDR.lo = 0 := rfl
@[simp] theorem w_MSIX_ADDR_ADDR : MSIX_ADDR.ADDR.w = 64 := rfl
@[simp] theorem reg_MSIX_CTL_DATA : MSIX_CTL.DATA.reg = .MSIX_CTL := rfl
@[simp] theorem lo_MSIX_CTL_DATA : MSIX_CTL.DATA.lo = 0 := rfl
@[simp] theorem w_MSIX_CTL_DATA : MSIX_CTL.DATA.w = 32 := rfl
@[simp] theorem reg_MSIX_CTL_MASK : MSIX_CTL.MASK.reg = .MSIX_CTL := rfl
@[simp] theorem lo_MSIX_CTL_MASK : MSIX_CTL.MASK.lo = 32 := rfl
@[simp] theorem w_MSIX_CTL_MASK : MSIX_CTL.MASK.w = 1 := rfl
@[simp] theorem reg_MSIX_PBA_PEND : MSIX_PBA.PEND.reg = .MSIX_PBA := rfl
@[simp] theorem lo_MSIX_PBA_PEND : MSIX_PBA.PEND.lo = 0 := rfl
@[simp] theorem w_MSIX_PBA_PEND : MSIX_PBA.PEND.w = 64 := rfl

end Sys2Proof.Machine.F
end

