-- ==== Sys2Proof/Laws/Frames.lean ====
section
/-!
SUPPORT. Frames compose: what each elementary update adds to the frame of the state it is applied to.
-/

set_option Elab.async false

namespace Sys2Proof.Machine

namespace Frame

variable {ev : Bool} {P : List Part} {K : List RegKey} {r s t : State}

theorem refl (r : State) : Frame ev P K r r :=
  ⟨rfl, rfl, fun p _ _ => by cases p <;> rfl, fun _ _ _ _ => rfl⟩

theorem trans (h : Frame ev P K r s) (k : Frame ev P K s t) : Frame ev P K r t :=
  ⟨k.queue.trans h.queue, k.variant.trans h.variant, fun p a b => by
    have := h.parts p a b
    have := k.parts p a b
    cases p <;> simp_all [State.agree], fun f i a b => (k.regs f i a b).trans (h.regs f i a b)⟩

/-- A larger frame. -/
theorem mono {P' : List Part} {K' : List RegKey} (h : Frame ev P K r s) (hp : P ⊆ P') (hk : K ⊆ K') : Frame ev P' K' r s :=
  ⟨h.queue, h.variant, fun p a b => h.parts p (fun m => a (hp m)) b, fun f i a b => h.regs f i a (fun m => b (hk m))⟩

theorem ite {c : Prop} [Decidable c] (h : Frame ev P K r s) (k : Frame ev P K r t) :
    Frame ev P K r (if c then s else t) := by
  split <;> assumption

theorem when {b : Bool} {f : State → State} (h : Frame ev P K r s) (k : Frame ev P K r (f s)) :
    Frame ev P K r (s.when b f) := by
  unfold State.when
  split <;> assumption

theorem foldl {α : Type} {f : State → α → State} (l : List α) (h : Frame ev P K r s)
    (hf : ∀ s a, a ∈ l → Frame ev P K r s → Frame ev P K r (f s a)) : Frame ev P K r (l.foldl f s) := by
  induction l generalizing s with
  | nil => exact h
  | cons a l ih =>
    exact ih (hf s a (List.mem_cons_self ..) h) fun s b m => hf s b (List.mem_cons_of_mem _ m)

theorem wr (h : Frame ev P K r s) {f : Field} {i : Nat} (v : Nat) (m : f.at i ∈ K) : Frame ev P K r (s.wr f i v) :=
  ⟨h.queue, h.variant, fun p a b => by have := h.parts p a b; cases p <;> exact this,
    fun g j a b => (s.rd_wr_of_key v (fun e => b (by rw [← e]; exact m))).trans (h.regs g j a b)⟩

theorem inc (h : Frame ev P K r s) {f : Field} {i : Nat} (n : Nat) (m : f.at i ∈ K) : Frame ev P K r (s.inc f i n) :=
  h.wr _ m

theorem bump (h : Frame ev P K r s) {f : Field} {i : Nat} (m : f.at i ∈ K) : Frame ev P K r (s.bump f i) := h.wr _ m

theorem putBit (h : Frame ev P K r s) {f : Field} {i : Nat} (k : Nat) (b : Bool) (m : f.at i ∈ K) :
    Frame ev P K r (s.putBit f i k b) := h.wr _ m

theorem raise (h : Frame true P K r s) {f : Field} {i : Nat} (m : f.at i ∈ K) : Frame true P K r (s.raise f i) :=
  ⟨by simp [h.queue], by simp [h.variant], fun p a b => by
    have := h.parts p a b
    cases p <;> simp_all [State.agree],
    fun g j a b => (s.rd_raise f i g j (by simpa using a) (fun e => b (by rw [← e]; exact m))).trans (h.regs g j a b)⟩

theorem raiseNm (h : Frame true P K r s) {f : Field} {i : Nat} {nm : Bool} (m : f.at i ∈ K) :
    Frame true P K r (s.raiseNm f i nm) :=
  ⟨by simp [h.queue], by simp [h.variant], fun p a b => by
    have := h.parts p a b
    cases p <;> simp_all [State.agree],
    fun g j a b => (s.rd_raiseNm f i nm g j (by simpa using a) (fun e => b (by rw [← e]; exact m))).trans (h.regs g j a b)⟩

/-- A state that differs from `s` in parts of the frame only. -/
theorem part (h : Frame ev P K r s) (hq : t.pending = s.pending) (hv : t.hw = s.hw) (hr : t.regs = s.regs)
    (hp : ∀ p, p ∉ P → s.agree t p) : Frame ev P K r t :=
  ⟨hq.trans h.queue, hv.trans h.variant, fun p a b => by
    have := h.parts p a b
    have := hp p a
    cases p <;> simp_all [State.agree], fun f i a b => by
    have := h.regs f i a b
    unfold State.rd at *
    rw [hr]; exact this⟩

theorem setLane (h : Frame ev P K r s) (n : Nat) (x : Lane) (m : .lanes ∈ P) : Frame ev P K r (s.setLane n x) :=
  h.part rfl rfl rfl fun p a => by cases p <;> first | rfl | exact absurd m a

theorem setHart (h : Frame ev P K r s) (n : Nat) (x : Hart) (m : .harts ∈ P) : Frame ev P K r (s.setHart n x) :=
  h.part rfl rfl rfl fun p a => by cases p <;> first | rfl | exact absurd m a

theorem setL2 (h : Frame ev P K r s) (n : Nat) (x : L2State) (m : .l2 ∈ P) : Frame ev P K r (s.setL2 n x) :=
  h.part rfl rfl rfl fun p a => by cases p <;> first | rfl | exact absurd m a

theorem setGuest (h : Frame ev P K r s) (n : Nat) (x : GuestSite) (m : .guests ∈ P) : Frame ev P K r (s.setGuest n x) :=
  h.part rfl rfl rfl fun p a => by cases p <;> first | rfl | exact absurd m a

theorem setAln (h : Frame ev P K r s) (n : Nat) (x : AlnPort) (m : .aln ∈ P) : Frame ev P K r (s.setAln n x) :=
  h.part rfl rfl rfl fun p a => by cases p <;> first | rfl | exact absurd m a

theorem setRing (h : Frame ev P K r s) (n : Nat) (x : Ring) (m : .hif ∈ P) : Frame ev P K r (s.setRing n x) :=
  h.part rfl rfl rfl fun p a => by cases p <;> first | rfl | exact absurd m a

theorem setPort (h : Frame ev P K r s) (n : Nat) (x : PciePort) (m : .hif ∈ P) : Frame ev P K r (s.setPort n x) :=
  h.part (by simp) (by simp) rfl fun p a => by cases p <;> first | rfl | exact absurd m a

theorem free (h : Frame ev P K r s) (n : Nat) (m : .fresh ∈ P) : Frame ev P K r (s.free n).2 :=
  h.part rfl rfl rfl fun p a => by cases p <;> first | rfl | exact absurd m a

theorem ledger (h : Frame ev P K r s) (k i n : Nat) (m : .lgr ∈ P) : Frame ev P K r (s.ledger k i n) :=
  h.part rfl rfl rfl fun p a => by cases p <;> first | rfl | exact absurd m a

/-! One part of the state rewritten. -/

theorem with_fresh (h : Frame ev P K r s) {x} (m : .fresh ∈ P) : Frame ev P K r { s with fresh := x } :=
  h.part rfl rfl rfl fun p a => by cases p <;> first | rfl | exact absurd m a

theorem with_rdata (h : Frame ev P K r s) {x} (m : .rdata ∈ P) : Frame ev P K r { s with rdata := x } :=
  h.part rfl rfl rfl fun p a => by cases p <;> first | rfl | exact absurd m a

theorem with_evc (h : Frame ev P K r s) {x} (m : .evc ∈ P) : Frame ev P K r { s with evc := x } :=
  h.part rfl rfl rfl fun p a => by cases p <;> first | rfl | exact absurd m a

theorem with_harts (h : Frame ev P K r s) {x} (m : .harts ∈ P) : Frame ev P K r { s with harts := x } :=
  h.part rfl rfl rfl fun p a => by cases p <;> first | rfl | exact absurd m a

theorem with_l2 (h : Frame ev P K r s) {x} (m : .l2 ∈ P) : Frame ev P K r { s with l2 := x } :=
  h.part rfl rfl rfl fun p a => by cases p <;> first | rfl | exact absurd m a

theorem with_dir (h : Frame ev P K r s) {x} (m : .dir ∈ P) : Frame ev P K r { s with dir := x } :=
  h.part rfl rfl rfl fun p a => by cases p <;> first | rfl | exact absurd m a

theorem with_groups (h : Frame ev P K r s) {x} (m : .groups ∈ P) : Frame ev P K r { s with groups := x } :=
  h.part rfl rfl rfl fun p a => by cases p <;> first | rfl | exact absurd m a

theorem with_mem (h : Frame ev P K r s) {x} (m : .mem ∈ P) : Frame ev P K r { s with mem := x } :=
  h.part rfl rfl rfl fun p a => by cases p <;> first | rfl | exact absurd m a

theorem with_beat (h : Frame ev P K r s) {x} (m : .beat ∈ P) : Frame ev P K r { s with beat := x } :=
  h.part rfl rfl rfl fun p a => by cases p <;> first | rfl | exact absurd m a

theorem with_lanes (h : Frame ev P K r s) {x} (m : .lanes ∈ P) : Frame ev P K r { s with lanes := x } :=
  h.part rfl rfl rfl fun p a => by cases p <;> first | rfl | exact absurd m a

theorem with_ctx (h : Frame ev P K r s) {x} (m : .ctx ∈ P) : Frame ev P K r { s with ctx := x } :=
  h.part rfl rfl rfl fun p a => by cases p <;> first | rfl | exact absurd m a

theorem with_trg (h : Frame ev P K r s) {x} (m : .trg ∈ P) : Frame ev P K r { s with trg := x } :=
  h.part rfl rfl rfl fun p a => by cases p <;> first | rfl | exact absurd m a

theorem with_tio (h : Frame ev P K r s) {x} (m : .tio ∈ P) : Frame ev P K r { s with tio := x } :=
  h.part rfl rfl rfl fun p a => by cases p <;> first | rfl | exact absurd m a

theorem with_evb (h : Frame ev P K r s) {x} (m : .evb ∈ P) : Frame ev P K r { s with evb := x } :=
  h.part rfl rfl rfl fun p a => by cases p <;> first | rfl | exact absurd m a

theorem with_guests (h : Frame ev P K r s) {x} (m : .guests ∈ P) : Frame ev P K r { s with guests := x } :=
  h.part rfl rfl rfl fun p a => by cases p <;> first | rfl | exact absurd m a

theorem with_aln (h : Frame ev P K r s) {x} (m : .aln ∈ P) : Frame ev P K r { s with aln := x } :=
  h.part rfl rfl rfl fun p a => by cases p <;> first | rfl | exact absurd m a

theorem with_stp (h : Frame ev P K r s) {x} (m : .stp ∈ P) : Frame ev P K r { s with stp := x } :=
  h.part rfl rfl rfl fun p a => by cases p <;> first | rfl | exact absurd m a

theorem with_eth (h : Frame ev P K r s) {x} (m : .eth ∈ P) : Frame ev P K r { s with eth := x } :=
  h.part rfl rfl rfl fun p a => by cases p <;> first | rfl | exact absurd m a

theorem with_hif (h : Frame ev P K r s) {x} (m : .hif ∈ P) : Frame ev P K r { s with hif := x } :=
  h.part rfl rfl rfl fun p a => by cases p <;> first | rfl | exact absurd m a

theorem with_fuses (h : Frame ev P K r s) {x} (m : .fuses ∈ P) : Frame ev P K r { s with fuses := x } :=
  h.part rfl rfl rfl fun p a => by cases p <;> first | rfl | exact absurd m a

theorem with_vellum (h : Frame ev P K r s) {x} (m : .vellum ∈ P) : Frame ev P K r { s with vellum := x } :=
  h.part rfl rfl rfl fun p a => by cases p <;> first | rfl | exact absurd m a

theorem with_boot (h : Frame ev P K r s) {x} (m : .boot ∈ P) : Frame ev P K r { s with boot := x } :=
  h.part rfl rfl rfl fun p a => by cases p <;> first | rfl | exact absurd m a

theorem with_dbg (h : Frame ev P K r s) {x} (m : .dbg ∈ P) : Frame ev P K r { s with dbg := x } :=
  h.part rfl rfl rfl fun p a => by cases p <;> first | rfl | exact absurd m a

theorem with_ckr (h : Frame ev P K r s) {x} (m : .ckr ∈ P) : Frame ev P K r { s with ckr := x } :=
  h.part rfl rfl rfl fun p a => by cases p <;> first | rfl | exact absurd m a

theorem with_pwr (h : Frame ev P K r s) {x} (m : .pwr ∈ P) : Frame ev P K r { s with pwr := x } :=
  h.part rfl rfl rfl fun p a => by cases p <;> first | rfl | exact absurd m a

theorem with_pins (h : Frame ev P K r s) {x} (m : .pins ∈ P) : Frame ev P K r { s with pins := x } :=
  h.part rfl rfl rfl fun p a => by cases p <;> first | rfl | exact absurd m a

theorem with_lgr (h : Frame ev P K r s) {x} (m : .lgr ∈ P) : Frame ev P K r { s with lgr := x } :=
  h.part rfl rfl rfl fun p a => by cases p <;> first | rfl | exact absurd m a

end Frame

/-! ## A register access that reaches its block -/

/-- A write that reaches its block does what the register's write does. -/
theorem State.withReg_of_takes {s : State} {src : Src} {r : Reg} {i : Nat} {f : State → State}
    (h : s.takesWrite src r i = true) : s.withReg src r i f = f s := by
  unfold State.takesWrite at h
  unfold State.withReg
  cases src <;> simp_all
  rcases h.2.2 with h | h <;> simp [h]

/-- A read that reaches its block does what the register's read does. -/
theorem State.withRead_of_takes {s : State} {src : Src} {r : Reg} {i : Nat} {f : State → State}
    (h : s.takesRead src r i = true) : s.withRead src r i f = f s := by
  unfold State.takesRead at h
  unfold State.withRead
  cases src <;> simp_all

end Sys2Proof.Machine
end

