-- ==== Sys2Proof/Laws/Keeps.lean ====
section
/-!
SUPPORT. The relation that every operation of the model keeps between the state before and after it: the variant, the
queue and the vendor's certificate chain are what they were, memory stays in its canonical form, and no fuse is cleared
(R1, R437).  The rules of this file carry the relation through the shapes in which operations are written.
-/

set_option Elab.async false

namespace Sys2Proof.Machine

/-- No fuse of `a` is cleared in `b`: fuses are one-time programmable (R437). -/
structure Fuses.Le (a b : Fuses) : Prop where
  vendor : b.vendorKey = a.vendorKey
  seed : b.seed = a.seed
  serial : b.serial = a.serial
  die : b.dieId = a.dieId
  step : b.step = a.step
  valid : ∀ k, a.ownerValid.testBit k = true → b.ownerValid.testBit k = true
  revoked : ∀ k, a.ownerRevoked.testBit k = true → b.ownerRevoked.testBit k = true
  calom : a.calomSvn ≤ b.calomSvn
  cfw : a.cfwSvn ≤ b.cfwSvn
  auth : a.dieAuth = true → b.dieAuth = true
  dbgOff : a.secDbgOff = true → b.secDbgOff = true
  pushOff : a.hostPushOff = true → b.hostPushOff = true

theorem Fuses.Le.refl (a : Fuses) : Fuses.Le a a :=
  ⟨rfl, rfl, rfl, rfl, rfl, fun _ h => h, fun _ h => h, Nat.le_refl _, Nat.le_refl _, id, id, id⟩

theorem Fuses.Le.trans {a b c : Fuses} (h : Fuses.Le a b) (k : Fuses.Le b c) : Fuses.Le a c :=
  ⟨k.vendor.trans h.vendor, k.seed.trans h.seed, k.serial.trans h.serial, k.die.trans h.die, k.step.trans h.step,
    fun i x => k.valid i (h.valid i x), fun i x => k.revoked i (h.revoked i x), Nat.le_trans h.calom k.calom,
    Nat.le_trans h.cfw k.cfw, fun x => k.auth (h.auth x), fun x => k.dbgOff (h.dbgOff x), fun x => k.pushOff (h.pushOff x)⟩

/-- Setting a bit clears none. -/
theorem setBit_keeps (v i k : Nat) (h : v.testBit k = true) : (setBit v i).testBit k = true := by
  unfold setBit
  rw [Nat.testBit_or, h, Bool.true_or]

/-- What every operation keeps from state `r` to state `t`. -/
structure Keeps (r t : State) : Prop where
  hw : t.hw = r.hw
  pending : t.pending = r.pending
  chain : t.vellum.chain0 = r.vellum.chain0
  mem : r.mem.wf = true → t.mem.wf = true
  fuses : Fuses.Le r.fuses t.fuses

namespace Keeps

variable {r s t : State}

theorem refl (r : State) : Keeps r r := ⟨rfl, rfl, rfl, id, Fuses.Le.refl _⟩

theorem trans (h : Keeps r s) (k : Keeps s t) : Keeps r t :=
  ⟨k.hw.trans h.hw, k.pending.trans h.pending, k.chain.trans h.chain, fun x => k.mem (h.mem x), h.fuses.trans k.fuses⟩

/-- A state that differs from `s` in none of the five parts. -/
theorem same (h : Keeps r s) (a : t.hw = s.hw) (b : t.pending = s.pending) (c : t.vellum.chain0 = s.vellum.chain0)
    (d : t.mem.cells = s.mem.cells) (e : t.fuses = s.fuses) : Keeps r t :=
  ⟨a.trans h.hw, b.trans h.pending, c.trans h.chain, fun x => by unfold MemState.wf; rw [d]; exact h.mem x,
    e ▸ h.fuses⟩

/-- A state written as a record over `s` that leaves the five parts. -/
theorem lit {regs fresh rdata evc harts l2 dir groups mem beat lanes ctx trg tio evb guests aln stp eth hif fuses vellum
    boot dbg ckr pwr pins lgr} (h : Keeps r s) (c : vellum.chain0 = s.vellum.chain0) (d : mem.cells = s.mem.cells)
    (e : fuses = s.fuses) :
    Keeps r ⟨s.pending, s.hw, regs, fresh, rdata, evc, harts, l2, dir, groups, mem, beat, lanes, ctx, trg, tio, evb,
      guests, aln, stp, eth, hif, fuses, vellum, boot, dbg, ckr, pwr, pins, lgr⟩ :=
  h.same rfl rfl c d e

/-- A value of the state is kept before the rest is. -/
theorem cut {P : Prop} (x : State) (h : Keeps r x) (k : Keeps r x → P) : P := k h

/-- The state of an answer. -/
theorem ofSnd {α : Type} {p : α × State} {a : α} (e : p = (a, t)) (h : Keeps r p.2) : Keeps r t := by
  subst e; exact h

theorem ofSome {o : Option State} (e : o = some t) (h : ∀ x, o = some x → Keeps r x) : Keeps r t := h t e

theorem ite {c : Prop} [Decidable c] (h : Keeps r s) (k : Keeps r t) : Keeps r (if c then s else t) := by
  split <;> assumption

theorem foldl {α : Type} {f : State → α → State} (l : List α) (h : Keeps r s)
    (hf : ∀ s a, Keeps r s → Keeps r (f s a)) : Keeps r (l.foldl f s) := by
  induction l generalizing s with
  | nil => exact h
  | cons a l ih => exact ih (hf s a h)

theorem foldlSnd {α β : Type} {f : β × State → α → β × State} (l : List α) {p : β × State} (h : Keeps r p.2)
    (hf : ∀ p a, Keeps r p.2 → Keeps r (f p a).2) : Keeps r (l.foldl f p).2 := by
  induction l generalizing p with
  | nil => exact h
  | cons a l ih => exact ih (hf p a h)

theorem foldlSnd2 {α β γ : Type} {f : β × γ × State → α → β × γ × State} (l : List α) {p : β × γ × State}
    (h : Keeps r p.2.2) (hf : ∀ p a, Keeps r p.2.2 → Keeps r (f p a).2.2) : Keeps r (l.foldl f p).2.2 := by
  induction l generalizing p with
  | nil => exact h
  | cons a l ih => exact ih (hf p a h)

/-- The state of an answer of three parts. -/
theorem ofSnd2 {α β : Type} {p : α × β × State} {a : α} {b : β} (e : p = (a, b, t)) (h : Keeps r p.2.2) : Keeps r t := by
  subst e; exact h

theorem foldlFst {α β : Type} {f : State × β → α → State × β} (l : List α) {p : State × β} (h : Keeps r p.1)
    (hf : ∀ p a, Keeps r p.1 → Keeps r (f p a).1) : Keeps r (l.foldl f p).1 := by
  induction l generalizing p with
  | nil => exact h
  | cons a l ih => exact ih (hf p a h)

end Keeps

/-- The state of an image that was read or refused. -/
def imageState {α : Type} : Except State (α × State) → State
  | .error s => s
  | .ok x => x.2

theorem Keeps.imageOk {r t : State} {α : Type} {o : Except State (α × State)} {a : α} (e : o = .ok (a, t))
    (h : Keeps r (imageState o)) : Keeps r t := by
  subst e; exact h

theorem Keeps.imageError {r t : State} {α : Type} {o : Except State (α × State)} (e : o = .error t)
    (h : Keeps r (imageState o)) : Keeps r t := by
  subst e; exact h

/-! ## Memory in its canonical form -/

theorem cellsWf_mono {lo lo' : Nat} {m : List Host.Cell} (h : lo' ≤ lo) (w : cellsWf lo m = true) : cellsWf lo' m = true := by
  cases m with
  | nil => rfl
  | cons c m =>
    obtain ⟨a, b⟩ := c
    simp only [cellsWf, Bool.and_eq_true, decide_eq_true_eq] at w ⊢
    exact ⟨⟨by omega, w.1.2⟩, w.2⟩

/-- A write keeps the canonical form. -/
theorem cellWrite_wf (m : List Host.Cell) (lo k : Nat) (v : BitVec 8) (h : lo ≤ k) (w : cellsWf lo m = true) :
    cellsWf lo (cellWrite m k v) = true := by
  induction m generalizing lo with
  | nil =>
    unfold cellWrite
    split
    · rfl
    · simpa [cellsWf, h]
  | cons c m ih =>
    obtain ⟨a, b⟩ := c
    simp only [cellsWf, Bool.and_eq_true, decide_eq_true_eq] at w
    unfold cellWrite
    split
    · split
      · simp only [cellsWf, Bool.and_eq_true, decide_eq_true_eq]; exact w
      · rename_i hk hv
        simp only [cellsWf, Bool.and_eq_true, decide_eq_true_eq]
        exact ⟨⟨h, hv⟩, ⟨by omega, w.1.2⟩, w.2⟩
    · split
      · split
        · exact cellsWf_mono (by omega) w.2
        · rename_i _ hk hv
          simp only [cellsWf, Bool.and_eq_true, decide_eq_true_eq]
          exact ⟨⟨h, hv⟩, by rw [hk]; exact w.2⟩
      · rename_i hk hk'
        simp only [cellsWf, Bool.and_eq_true, decide_eq_true_eq]
        exact ⟨w.1, ih (a + 1) (by omega) w.2⟩

/-- Leaving cells out keeps the canonical form. -/
theorem cells_filter_wf (m : List Host.Cell) (lo : Nat) (p : Host.Cell → Bool) (w : cellsWf lo m = true) :
    cellsWf lo (m.filter p) = true := by
  induction m generalizing lo with
  | nil => rfl
  | cons c m ih =>
    obtain ⟨a, b⟩ := c
    simp only [cellsWf, Bool.and_eq_true, decide_eq_true_eq] at w
    simp only [List.filter]
    split
    · simp only [cellsWf, Bool.and_eq_true, decide_eq_true_eq]; exact ⟨w.1, ih _ w.2⟩
    · exact cellsWf_mono (by omega) (ih _ w.2)

/-- A read after a write to the same address gives the byte written. -/
theorem cellRead_write_self (m : List Host.Cell) (lo k : Nat) (v : BitVec 8) (w : cellsWf lo m = true) (h : lo ≤ k) :
    cellRead (cellWrite m k v) k = v := by
  induction m generalizing lo with
  | nil => unfold cellWrite; split <;> simp_all [cellRead]
  | cons c m ih =>
    obtain ⟨a, b⟩ := c
    simp only [cellsWf, Bool.and_eq_true, decide_eq_true_eq] at w
    have hz : ∀ (l : List Host.Cell) (lo : Nat), k < lo → cellsWf lo l = true → cellRead l k = 0 := by
      intro l
      induction l with
      | nil => intros; rfl
      | cons d l jh =>
        intro lo hl hw
        obtain ⟨x, y⟩ := d
        simp only [cellsWf, Bool.and_eq_true, decide_eq_true_eq] at hw
        have : x ≠ k := by omega
        simp only [cellRead, this, if_false]
        exact jh (x + 1) (by omega) hw.2
    unfold cellWrite
    split
    · split
      · rename_i hk hv
        rw [hv]
        exact hz ((a, b) :: m) a hk (by simp only [cellsWf, Bool.and_eq_true, decide_eq_true_eq]; exact ⟨⟨Nat.le_refl _, w.1.2⟩, w.2⟩)
      · simp [cellRead]
    · split
      · split
        · rename_i hk hv
          rw [hv]
          exact hz m (a + 1) (by omega) w.2
        · simp [cellRead]
      · rename_i hk hk'
        have : a ≠ k := fun e => hk' e.symm
        simp only [cellRead, this, if_false]
        exact ih (a + 1) w.2 (by omega)

/-- A write leaves every other address alone. -/
theorem cellRead_write_of_ne (m : List Host.Cell) {k j : Nat} (v : BitVec 8) (h : j ≠ k) :
    cellRead (cellWrite m k v) j = cellRead m j := by
  have h' : k ≠ j := fun e => h e.symm
  induction m with
  | nil => unfold cellWrite; split <;> simp [cellRead, h']
  | cons c m ih =>
    obtain ⟨a, b⟩ := c
    unfold cellWrite
    split
    · split <;> simp [cellRead, h']
    · split
      · rename_i hk
        split <;> simp [cellRead, h', ← hk]
      · simp [cellRead, ih]

end Sys2Proof.Machine
end

