-- ==== Sys2Proof/Laws/KeepsShared.lean ====
section
/-!
SUPPORT. Each operation of Ops, Flags, Access, PowerReq, MemOps, HartOps, CohOps, DirOps, Agent, DieLost, DebugOps,
RingOps, PcieOps keeps the relation `Keeps` of its state to an earlier one.
-/

set_option Elab.async false

set_option linter.all false

namespace Sys2Proof.Machine

theorem Keeps.wr {r s : State} (h : Keeps r s) f i v :
    Keeps r (State.wr s f i v) :=
  Keeps.lit h rfl rfl rfl

theorem Keeps.bump {r s : State} (h : Keeps r s) f i :
    Keeps r (State.bump s f i) :=
  Keeps.lit h rfl rfl rfl

theorem Keeps.free {r s : State} (h : Keeps r s) n :
    Keeps r (State.free s n).2 :=
  Keeps.lit h rfl rfl rfl

theorem Keeps.inc {r s : State} (h : Keeps r s) f i n :
    Keeps r (State.inc s f i n) :=
  Keeps.lit h rfl rfl rfl

theorem Keeps.putBit {r s : State} (h : Keeps r s) f i k b :
    Keeps r (State.putBit s f i k b) :=
  Keeps.lit h rfl rfl rfl

theorem Keeps.setPort {r s : State} (h : Keeps r s) p x :
    Keeps r (State.setPort s p x) :=
  Keeps.lit h rfl rfl rfl

theorem Keeps.sendTlp {r s : State} (h : Keeps r s) p t' :
    Keeps r (State.sendTlp s p t') :=
  Keeps.lit h rfl rfl rfl

theorem Keeps.setAln {r s : State} (h : Keeps r s) lp p :
    Keeps r (State.setAln s lp p) :=
  Keeps.lit h rfl rfl rfl

theorem Keeps.setGuest {r s : State} (h : Keeps r s) g l :
    Keeps r (State.setGuest s g l) :=
  Keeps.lit h rfl rfl rfl

theorem Keeps.setHart {r s : State} (h : Keeps r s) c h' :
    Keeps r (State.setHart s c h') :=
  Keeps.lit h rfl rfl rfl

theorem Keeps.setL2 {r s : State} (h : Keeps r s) cl l :
    Keeps r (State.setL2 s cl l) :=
  Keeps.lit h rfl rfl rfl

theorem Keeps.setLane {r s : State} (h : Keeps r s) n l :
    Keeps r (State.setLane s n l) :=
  Keeps.lit h rfl rfl rfl

theorem Keeps.setRing {r s : State} (h : Keeps r s) r' x :
    Keeps r (State.setRing s r' x) :=
  Keeps.lit h rfl rfl rfl

theorem Keeps.when {r s : State} (h : Keeps r s) b (f : State → State) (hf : ∀ t, Keeps r t → Keeps r (f t)) :
    Keeps r (State.when s b f) := by
  unfold State.when
  repeat' first
    | with_reducible assumption
    | with_reducible apply hf
    | (fail_if_no_progress (with_reducible (refine Keeps.lit ?_ rfl rfl rfl)))
    | with_reducible (refine Keeps.ite ?_ ?_)
    | split

theorem Keeps.msix {r s : State} (h : Keeps r s) p v :
    Keeps r (State.msix s p v) := by
  unfold State.msix
  repeat' first
    | with_reducible assumption
    | with_reducible apply Keeps.putBit
    | with_reducible apply Keeps.sendTlp
    | (fail_if_no_progress (with_reducible (refine Keeps.lit ?_ rfl rfl rfl)))
    | with_reducible (refine Keeps.ite ?_ ?_)
    | split

theorem Keeps.sendEvent {r s : State} (h : Keeps r s) n :
    Keeps r (State.sendEvent s n) := by
  unfold State.sendEvent
  repeat' first
    | with_reducible assumption
    | with_reducible apply Keeps.msix
    | (fail_if_no_progress (with_reducible (refine Keeps.lit ?_ rfl rfl rfl)))
    | with_reducible (refine Keeps.ite ?_ ?_)
    | split

theorem Keeps.deliver {r s : State} (h : Keeps r s) n :
    Keeps r (State.deliver s n) := by
  unfold State.deliver
  repeat' first
    | with_reducible assumption
    | with_reducible apply Keeps.inc
    | with_reducible apply Keeps.sendEvent
    | (fail_if_no_progress (with_reducible (refine Keeps.lit ?_ rfl rfl rfl)))
    | with_reducible (refine Keeps.ite ?_ ?_)
    | split

theorem Keeps.fireNmi {r s : State} (h : Keeps r s) n :
    Keeps r (State.fireNmi s n) := by
  unfold State.fireNmi
  repeat' first
    | with_reducible assumption
    | with_reducible apply Keeps.inc
    | with_reducible apply Keeps.msix
    | with_reducible apply Keeps.wr
    | (fail_if_no_progress (with_reducible (refine Keeps.lit ?_ rfl rfl rfl)))
    | with_reducible (refine Keeps.ite ?_ ?_)
    | split

theorem Keeps.fire {r s : State} (h : Keeps r s) n nm :
    Keeps r (State.fire s n nm) := by
  unfold State.fire
  repeat' first
    | with_reducible assumption
    | with_reducible apply Keeps.deliver
    | with_reducible apply Keeps.fireNmi
    | with_reducible apply Keeps.inc
    | (fail_if_no_progress (with_reducible (refine Keeps.lit ?_ rfl rfl rfl)))
    | with_reducible (refine Keeps.ite ?_ ?_)
    | split

theorem Keeps.ledger {r s : State} (h : Keeps r s) kind i n :
    Keeps r (State.ledger s kind i n) :=
  Keeps.lit h rfl rfl rfl

theorem Keeps.ledgerSet {r s : State} (h : Keeps r s) kind i v :
    Keeps r (State.ledgerSet s kind i v) :=
  Keeps.lit h rfl rfl rfl

theorem Keeps.ledgerTime {r s : State} (h : Keeps r s) kind i amount hour :
    Keeps r (State.ledgerTime s kind i amount hour) := by
  unfold State.ledgerTime
  repeat' first
    | with_reducible assumption
    | with_reducible apply Keeps.ledger
    | (fail_if_no_progress (with_reducible (refine Keeps.lit ?_ rfl rfl rfl)))
    | with_reducible (refine Keeps.ite ?_ ?_)
    | split

theorem Keeps.msixFlush {r s : State} (h : Keeps r s) p :
    Keeps r (State.msixFlush s p) := by
  unfold State.msixFlush
  repeat' first
    | with_reducible assumption
    | with_reducible apply Keeps.msix
    | with_reducible apply Keeps.putBit
    | with_reducible (refine Keeps.foldl _ ?_ (fun _ _ _ => ?_))
    | with_reducible (refine Keeps.foldlSnd _ ?_ (fun _ _ _ => ?_))
    | with_reducible (refine Keeps.foldlSnd2 _ ?_ (fun _ _ _ => ?_))
    | (fail_if_no_progress (with_reducible (refine Keeps.lit ?_ rfl rfl rfl)))
    | (intro x; refine Keeps.cut (r := r) x ?_ (fun _ => ?_) <;> [subst x; clear_value x])
    | (intro (x : _ × State); refine Keeps.cut (r := r) x.2 ?_ (fun _ => ?_) <;> [subst x; clear_value x])
    | (intro x; clear_value x)
    | with_reducible (refine Keeps.ite ?_ ?_)
    | split
    | lift_lets
    | with_reducible (refine Keeps.ofSnd (by assumption) ?_)
    | with_reducible (refine Keeps.ofSnd2 (by assumption) ?_)
    | intro

theorem Keeps.note {r s : State} (h : Keeps r s) type arg0 arg1 :
    Keeps r (State.note s type arg0 arg1) :=
  Keeps.lit h rfl rfl rfl

theorem Keeps.raiseNm {r s : State} (h : Keeps r s) f i nm :
    Keeps r (State.raiseNm s f i nm) := by
  unfold State.raiseNm
  repeat' first
    | with_reducible assumption
    | with_reducible apply Keeps.fire
    | with_reducible apply Keeps.inc
    | with_reducible apply Keeps.wr
    | (fail_if_no_progress (with_reducible (refine Keeps.lit ?_ rfl rfl rfl)))
    | with_reducible (refine Keeps.ite ?_ ?_)
    | split

theorem Keeps.raise {r s : State} (h : Keeps r s) f i :
    Keeps r (State.raise s f i) := by
  unfold State.raise
  repeat' first
    | with_reducible assumption
    | with_reducible apply Keeps.raiseNm
    | (fail_if_no_progress (with_reducible (refine Keeps.lit ?_ rfl rfl rfl)))
    | with_reducible (refine Keeps.ite ?_ ?_)
    | split

theorem Keeps.spoof {r s : State} (h : Keeps r s) slice unit index :
    Keeps r (State.spoof s slice unit index) := by
  unfold State.spoof
  repeat' first
    | with_reducible assumption
    | with_reducible apply Keeps.inc
    | with_reducible apply Keeps.raise
    | (fail_if_no_progress (with_reducible (refine Keeps.lit ?_ rfl rfl rfl)))
    | with_reducible (refine Keeps.ite ?_ ?_)
    | split

theorem Keeps.withRead {r s : State} (h : Keeps r s) src r' i (f : State → State) (hf : ∀ t, Keeps r t → Keeps r (f t)) :
    Keeps r (State.withRead s src r' i f) := by
  unfold State.withRead
  repeat' first
    | with_reducible assumption
    | with_reducible apply hf
    | (fail_if_no_progress (with_reducible (refine Keeps.lit ?_ rfl rfl rfl)))
    | with_reducible (refine Keeps.ite ?_ ?_)
    | split

theorem Keeps.withReg {r s : State} (h : Keeps r s) src r' i (f : State → State) (hf : ∀ t, Keeps r t → Keeps r (f t)) :
    Keeps r (State.withReg s src r' i f) := by
  unfold State.withReg
  repeat' first
    | with_reducible assumption
    | with_reducible apply Keeps.inc
    | with_reducible apply hf
    | (fail_if_no_progress (with_reducible (refine Keeps.lit ?_ rfl rfl rfl)))
    | with_reducible (refine Keeps.ite ?_ ?_)
    | split

theorem Keeps.pwrStatus {r s : State} (h : Keeps r s) :
    Keeps r (State.pwrStatus s) := by
  unfold State.pwrStatus
  repeat' first
    | with_reducible assumption
    | with_reducible apply Keeps.wr
    | (fail_if_no_progress (with_reducible (refine Keeps.lit ?_ rfl rfl rfl)))
    | with_reducible (refine Keeps.ite ?_ ?_)
    | split

theorem Keeps.enqueue {r s : State} (h : Keeps r s) doms target wake :
    Keeps r (State.enqueue s doms target wake) := by
  unfold State.enqueue
  repeat' first
    | with_reducible assumption
    | with_reducible apply Keeps.pwrStatus
    | (fail_if_no_progress (with_reducible (refine Keeps.lit ?_ rfl rfl rfl)))
    | with_reducible (refine Keeps.ite ?_ ?_)
    | split

theorem Keeps.recordWake {r s : State} (h : Keeps r s) d code :
    Keeps r (State.recordWake s d code) := by
  unfold State.recordWake
  repeat' first
    | with_reducible assumption
    | with_reducible apply Keeps.inc
    | with_reducible apply Keeps.wr
    | (fail_if_no_progress (with_reducible (refine Keeps.lit ?_ rfl rfl rfl)))
    | with_reducible (refine Keeps.ite ?_ ?_)
    | split

theorem Keeps.wake {r s : State} (h : Keeps r s) d code :
    Keeps r (State.wake s d code) := by
  unfold State.wake
  repeat' first
    | with_reducible assumption
    | with_reducible apply Keeps.enqueue
    | with_reducible apply Keeps.recordWake
    | (fail_if_no_progress (with_reducible (refine Keeps.lit ?_ rfl rfl rfl)))
    | with_reducible (refine Keeps.ite ?_ ?_)
    | split

theorem Keeps.setCode {r s : State} (h : Keeps r s) n c :
    Keeps r (State.setCode s n c) :=
  Keeps.lit h rfl rfl rfl

theorem Keeps.applyFlip {r s : State} (h : Keeps r s) n :
    Keeps r (State.applyFlip s n) := by
  unfold State.applyFlip
  repeat' first
    | with_reducible assumption
    | with_reducible apply Keeps.raise
    | with_reducible apply Keeps.setCode
    | with_reducible apply Keeps.wr
    | (fail_if_no_progress (with_reducible (refine Keeps.lit ?_ rfl rfl rfl)))
    | with_reducible (refine Keeps.ite ?_ ?_)
    | split

theorem Keeps.countDenial {r s : State} (h : Keeps r s) d pa :
    Keeps r (State.countDenial s d pa) := by
  unfold State.countDenial
  repeat' first
    | with_reducible assumption
    | with_reducible apply Keeps.inc
    | with_reducible apply Keeps.raise
    | (fail_if_no_progress (with_reducible (refine Keeps.lit ?_ rfl rfl rfl)))
    | with_reducible (refine Keeps.ite ?_ ?_)
    | split

theorem Keeps.plateCount {r s : State} (h : Keeps r s) n ue :
    Keeps r (State.plateCount s n ue) := by
  unfold State.plateCount
  repeat' first
    | with_reducible assumption
    | with_reducible apply Keeps.inc
    | with_reducible apply Keeps.ledger
    | (fail_if_no_progress (with_reducible (refine Keeps.lit ?_ rfl rfl rfl)))
    | with_reducible (refine Keeps.ite ?_ ?_)
    | split

theorem Keeps.countOutcome {r s : State} (h : Keeps r s) n o :
    Keeps r (State.countOutcome s n o) := by
  unfold State.countOutcome
  repeat' first
    | with_reducible assumption
    | with_reducible apply Keeps.inc
    | with_reducible apply Keeps.plateCount
    | with_reducible apply Keeps.raise
    | with_reducible apply Keeps.raiseNm
    | with_reducible apply Keeps.wr
    | (fail_if_no_progress (with_reducible (refine Keeps.lit ?_ rfl rfl rfl)))
    | with_reducible (refine Keeps.ite ?_ ?_)
    | split

theorem Keeps.ctlEvent {r s : State} (h : Keeps r s) c f :
    Keeps r (State.ctlEvent s c f) := by
  unfold State.ctlEvent
  repeat' first
    | with_reducible assumption
    | with_reducible apply Keeps.raise
    | (fail_if_no_progress (with_reducible (refine Keeps.lit ?_ rfl rfl rfl)))
    | with_reducible (refine Keeps.ite ?_ ?_)
    | split

theorem Keeps.setCorr {r s : State} (h : Keeps r s) c l :
    Keeps r (State.setCorr s c l) := by
  unfold State.setCorr
  repeat' first
    | with_reducible assumption
    | with_reducible apply Keeps.wr
    | (fail_if_no_progress (with_reducible (refine Keeps.lit ?_ rfl rfl rfl)))
    | with_reducible (refine Keeps.ite ?_ ?_)
    | split

theorem Keeps.dropCorr {r s : State} (h : Keeps r s) n :
    Keeps r (State.dropCorr s n) := by
  unfold State.dropCorr
  repeat' first
    | with_reducible assumption
    | with_reducible apply Keeps.inc
    | with_reducible apply Keeps.setCorr
    | (fail_if_no_progress (with_reducible (refine Keeps.lit ?_ rfl rfl rfl)))
    | with_reducible (refine Keeps.ite ?_ ?_)
    | split

theorem Keeps.memSet {r s : State} (h : Keeps r s) pa v : Keeps r (State.memSet s pa v) :=
  ⟨h.hw, h.pending, h.chain, fun x => cellWrite_wf _ _ _ _ (Nat.zero_le _) (h.mem x), h.fuses⟩

theorem Keeps.memPut {r s : State} (h : Keeps r s) pa n v :
    Keeps r (State.memPut s pa n v) := by
  unfold State.memPut
  repeat' first
    | with_reducible assumption
    | with_reducible apply Keeps.memSet
    | with_reducible (refine Keeps.foldl _ ?_ (fun _ _ _ => ?_))
    | with_reducible (refine Keeps.foldlSnd _ ?_ (fun _ _ _ => ?_))
    | with_reducible (refine Keeps.foldlSnd2 _ ?_ (fun _ _ _ => ?_))
    | (fail_if_no_progress (with_reducible (refine Keeps.lit ?_ rfl rfl rfl)))
    | (intro x; refine Keeps.cut (r := r) x ?_ (fun _ => ?_) <;> [subst x; clear_value x])
    | (intro (x : _ × State); refine Keeps.cut (r := r) x.2 ?_ (fun _ => ?_) <;> [subst x; clear_value x])
    | (intro x; clear_value x)
    | with_reducible (refine Keeps.ite ?_ ?_)
    | split
    | lift_lets
    | with_reducible (refine Keeps.ofSnd (by assumption) ?_)
    | with_reducible (refine Keeps.ofSnd2 (by assumption) ?_)
    | intro

theorem Keeps.putSheet {r s : State} (h : Keeps r s) n d lower upper :
    Keeps r (State.putSheet s n d lower upper) := by
  unfold State.putSheet
  repeat' first
    | with_reducible assumption
    | with_reducible apply Keeps.memPut
    | with_reducible apply Keeps.setCode
    | (fail_if_no_progress (with_reducible (refine Keeps.lit ?_ rfl rfl rfl)))
    | with_reducible (refine Keeps.ite ?_ ?_)
    | split

theorem Keeps.hubRead {r s : State} (h : Keeps r s) n :
    Keeps r (State.hubRead s n).2 := by
  unfold State.hubRead
  repeat' first
    | with_reducible assumption
    | with_reducible apply Keeps.countOutcome
    | with_reducible apply Keeps.putSheet
    | (fail_if_no_progress (with_reducible (refine Keeps.lit ?_ rfl rfl rfl)))
    | with_reducible (refine Keeps.ite ?_ ?_)
    | split

theorem Keeps.memPost {r s : State} (h : Keeps r s) q :
    Keeps r (State.memPost s q) :=
  Keeps.lit h rfl rfl rfl

theorem Keeps.memZero {r s : State} (h : Keeps r s) pa n : Keeps r (State.memZero s pa n) :=
  ⟨h.hw, h.pending, h.chain, fun x => cells_filter_wf _ _ _ (h.mem x), h.fuses⟩

theorem Keeps.postRead {r s : State} (h : Keeps r s) line dst :
    Keeps r (State.postRead s line dst) :=
  Keeps.lit h rfl rfl rfl

theorem Keeps.postWrite {r s : State} (h : Keeps r s) line b poison :
    Keeps r (State.postWrite s line b poison) :=
  Keeps.lit h rfl rfl rfl

theorem Keeps.sheetWrite {r s : State} (h : Keeps r s) n b poison :
    Keeps r (State.sheetWrite s n b poison) := by
  unfold State.sheetWrite
  repeat' first
    | with_reducible assumption
    | with_reducible apply Keeps.applyFlip
    | with_reducible apply Keeps.dropCorr
    | with_reducible apply Keeps.hubRead
    | with_reducible apply Keeps.putSheet
    | (fail_if_no_progress (with_reducible (refine Keeps.lit ?_ rfl rfl rfl)))
    | with_reducible (refine Keeps.ite ?_ ?_)
    | split

theorem Keeps.setCsr {r s : State} (h : Keeps r s) c n v :
    Keeps r (State.setCsr s c n v) :=
  Keeps.lit h rfl rfl rfl

theorem Keeps.mipBit {r s : State} (h : Keeps r s) c k b :
    Keeps r (State.mipBit s c k b) :=
  Keeps.lit h rfl rfl rfl

theorem Keeps.perfWrap {r s : State} (h : Keeps r s) c k :
    Keeps r (State.perfWrap s c k) := by
  unfold State.perfWrap
  repeat' first
    | with_reducible assumption
    | with_reducible apply Keeps.mipBit
    | with_reducible apply Keeps.setCsr
    | (fail_if_no_progress (with_reducible (refine Keeps.lit ?_ rfl rfl rfl)))
    | with_reducible (refine Keeps.ite ?_ ?_)
    | split

theorem Keeps.perf {r s : State} (h : Keeps r s) c code n :
    Keeps r (State.perf s c code n) := by
  unfold State.perf
  repeat' first
    | with_reducible assumption
    | with_reducible apply Keeps.perfWrap
    | with_reducible apply Keeps.setCsr
    | with_reducible (refine Keeps.foldl _ ?_ (fun _ _ _ => ?_))
    | with_reducible (refine Keeps.foldlSnd _ ?_ (fun _ _ _ => ?_))
    | with_reducible (refine Keeps.foldlSnd2 _ ?_ (fun _ _ _ => ?_))
    | (fail_if_no_progress (with_reducible (refine Keeps.lit ?_ rfl rfl rfl)))
    | (intro x; refine Keeps.cut (r := r) x ?_ (fun _ => ?_) <;> [subst x; clear_value x])
    | (intro (x : _ × State); refine Keeps.cut (r := r) x.2 ?_ (fun _ => ?_) <;> [subst x; clear_value x])
    | (intro x; clear_value x)
    | with_reducible (refine Keeps.ite ?_ ?_)
    | split
    | lift_lets
    | with_reducible (refine Keeps.ofSnd (by assumption) ?_)
    | with_reducible (refine Keeps.ofSnd2 (by assumption) ?_)
    | intro

theorem Keeps.clearPred {r s : State} (h : Keeps r s) c :
    Keeps r (State.clearPred s c) := by
  unfold State.clearPred
  repeat' first
    | with_reducible assumption
    | with_reducible apply Keeps.perf
    | with_reducible apply Keeps.setHart
    | (fail_if_no_progress (with_reducible (refine Keeps.lit ?_ rfl rfl rfl)))
    | with_reducible (refine Keeps.ite ?_ ?_)
    | split

theorem Keeps.loopFault {r s : State} (h : Keeps r s) c cause pc :
    Keeps r (State.loopFault s c cause pc) := by
  unfold State.loopFault
  repeat' first
    | with_reducible assumption
    | with_reducible apply Keeps.setHart
    | with_reducible apply Keeps.wr
    | (fail_if_no_progress (with_reducible (refine Keeps.lit ?_ rfl rfl rfl)))
    | with_reducible (refine Keeps.ite ?_ ?_)
    | split

theorem Keeps.retire {r s : State} (h : Keeps r s) c next :
    Keeps r (State.retire s c next) := by
  unfold State.retire
  repeat' first
    | with_reducible assumption
    | with_reducible apply Keeps.setHart
    | with_reducible apply Keeps.wr
    | (fail_if_no_progress (with_reducible (refine Keeps.lit ?_ rfl rfl rfl)))
    | with_reducible (refine Keeps.ite ?_ ?_)
    | split

theorem Keeps.setNs {r s : State} (h : Keeps r s) c b :
    Keeps r (State.setNs s c b) := by
  unfold State.setNs
  repeat' first
    | with_reducible assumption
    | with_reducible apply Keeps.clearPred
    | with_reducible apply Keeps.perf
    | with_reducible apply Keeps.wr
    | (fail_if_no_progress (with_reducible (refine Keeps.lit ?_ rfl rfl rfl)))
    | with_reducible (refine Keeps.ite ?_ ?_)
    | split

theorem Keeps.mretTo {r s : State} (h : Keeps r s) c :
    Keeps r (State.mretTo s c) := by
  unfold State.mretTo
  repeat' first
    | with_reducible assumption
    | with_reducible apply Keeps.retire
    | with_reducible apply Keeps.setCsr
    | with_reducible apply Keeps.setNs
    | with_reducible apply Keeps.wr
    | (fail_if_no_progress (with_reducible (refine Keeps.lit ?_ rfl rfl rfl)))
    | with_reducible (refine Keeps.ite ?_ ?_)
    | split

theorem Keeps.sretTo {r s : State} (h : Keeps r s) c :
    Keeps r (State.sretTo s c) := by
  unfold State.sretTo
  repeat' first
    | with_reducible assumption
    | with_reducible apply Keeps.retire
    | with_reducible apply Keeps.setCsr
    | with_reducible apply Keeps.wr
    | (fail_if_no_progress (with_reducible (refine Keeps.lit ?_ rfl rfl rfl)))
    | with_reducible (refine Keeps.ite ?_ ?_)
    | split

theorem Keeps.trapM {r s : State} (h : Keeps r s) c cause tval pc intr :
    Keeps r (State.trapM s c cause tval pc intr) := by
  unfold State.trapM
  repeat' first
    | with_reducible assumption
    | with_reducible apply Keeps.setCsr
    | with_reducible apply Keeps.setHart
    | with_reducible apply Keeps.setNs
    | with_reducible apply Keeps.wr
    | (fail_if_no_progress (with_reducible (refine Keeps.lit ?_ rfl rfl rfl)))
    | with_reducible (refine Keeps.ite ?_ ?_)
    | split

theorem Keeps.trapS {r s : State} (h : Keeps r s) c cause tval pc intr :
    Keeps r (State.trapS s c cause tval pc intr) := by
  unfold State.trapS
  repeat' first
    | with_reducible assumption
    | with_reducible apply Keeps.setCsr
    | with_reducible apply Keeps.setHart
    | with_reducible apply Keeps.wr
    | (fail_if_no_progress (with_reducible (refine Keeps.lit ?_ rfl rfl rfl)))
    | with_reducible (refine Keeps.ite ?_ ?_)
    | split

theorem Keeps.takeException {r s : State} (h : Keeps r s) c cause tval pc :
    Keeps r (State.takeException s c cause tval pc) := by
  unfold State.takeException
  repeat' first
    | with_reducible assumption
    | with_reducible apply Keeps.loopFault
    | with_reducible apply Keeps.perf
    | with_reducible apply Keeps.trapM
    | with_reducible apply Keeps.trapS
    | (fail_if_no_progress (with_reducible (refine Keeps.lit ?_ rfl rfl rfl)))
    | with_reducible (refine Keeps.ite ?_ ?_)
    | split

theorem Keeps.timerBits {r s : State} (h : Keeps r s) c :
    Keeps r (State.timerBits s c) := by
  unfold State.timerBits
  repeat' first
    | with_reducible assumption
    | with_reducible apply Keeps.mipBit
    | (fail_if_no_progress (with_reducible (refine Keeps.lit ?_ rfl rfl rfl)))
    | with_reducible (refine Keeps.ite ?_ ?_)
    | split

theorem Keeps.translate {r s : State} (h : Keeps r s) c a va :
    Keeps r (State.translate s c a va).2 := by
  unfold State.translate
  repeat' first
    | with_reducible assumption
    | with_reducible apply Keeps.perf
    | with_reducible apply Keeps.setHart
    | (fail_if_no_progress (with_reducible (refine Keeps.lit ?_ rfl rfl rfl)))
    | (intro x; refine Keeps.cut (r := r) x ?_ (fun _ => ?_) <;> [subst x; clear_value x])
    | (intro (x : _ × State); refine Keeps.cut (r := r) x.2 ?_ (fun _ => ?_) <;> [subst x; clear_value x])
    | (intro x; clear_value x)
    | with_reducible (refine Keeps.ite ?_ ?_)
    | split
    | lift_lets

theorem Keeps.endMiss {r s : State} (h : Keeps r s) k :
    Keeps r (State.endMiss s k) :=
  Keeps.lit h rfl rfl rfl

theorem Keeps.dropL1 {r s : State} (h : Keeps r s) cl line :
    Keeps r (State.dropL1 s cl line) := by
  unfold State.dropL1
  repeat' first
    | with_reducible assumption
    | with_reducible apply Keeps.setHart
    | with_reducible (refine Keeps.foldl _ ?_ (fun _ _ _ => ?_))
    | with_reducible (refine Keeps.foldlSnd _ ?_ (fun _ _ _ => ?_))
    | with_reducible (refine Keeps.foldlSnd2 _ ?_ (fun _ _ _ => ?_))
    | (fail_if_no_progress (with_reducible (refine Keeps.lit ?_ rfl rfl rfl)))
    | (intro x; refine Keeps.cut (r := r) x ?_ (fun _ => ?_) <;> [subst x; clear_value x])
    | (intro (x : _ × State); refine Keeps.cut (r := r) x.2 ?_ (fun _ => ?_) <;> [subst x; clear_value x])
    | (intro x; clear_value x)
    | with_reducible (refine Keeps.ite ?_ ?_)
    | split
    | lift_lets
    | with_reducible (refine Keeps.ofSnd (by assumption) ?_)
    | with_reducible (refine Keeps.ofSnd2 (by assumption) ?_)
    | intro

theorem Keeps.dropLine {r s : State} (h : Keeps r s) cl line :
    Keeps r (State.dropLine s cl line) := by
  unfold State.dropLine
  repeat' first
    | with_reducible assumption
    | with_reducible apply Keeps.dropL1
    | with_reducible apply Keeps.setL2
    | (fail_if_no_progress (with_reducible (refine Keeps.lit ?_ rfl rfl rfl)))
    | with_reducible (refine Keeps.ite ?_ ?_)
    | split

theorem Keeps.send {r s : State} (h : Keeps r s) m :
    Keeps r (State.send s m) :=
  Keeps.lit h rfl rfl rfl

theorem Keeps.l2Evict {r s : State} (h : Keeps r s) cl line :
    Keeps r (State.l2Evict s cl line) := by
  unfold State.l2Evict
  repeat' first
    | with_reducible assumption
    | with_reducible apply Keeps.dropLine
    | with_reducible apply Keeps.send
    | with_reducible apply Keeps.setL2
    | (fail_if_no_progress (with_reducible (refine Keeps.lit ?_ rfl rfl rfl)))
    | with_reducible (refine Keeps.ite ?_ ?_)
    | split

theorem Keeps.giveUp {r s : State} (h : Keeps r s) cl awaited lines :
    Keeps r (State.giveUp s cl awaited lines) := by
  unfold State.giveUp
  repeat' first
    | with_reducible assumption
    | with_reducible apply Keeps.dropLine
    | with_reducible apply Keeps.send
    | with_reducible apply Keeps.setL2
    | with_reducible (refine Keeps.foldl _ ?_ (fun _ _ _ => ?_))
    | with_reducible (refine Keeps.foldlSnd _ ?_ (fun _ _ _ => ?_))
    | with_reducible (refine Keeps.foldlSnd2 _ ?_ (fun _ _ _ => ?_))
    | (fail_if_no_progress (with_reducible (refine Keeps.lit ?_ rfl rfl rfl)))
    | (intro x; refine Keeps.cut (r := r) x ?_ (fun _ => ?_) <;> [subst x; clear_value x])
    | (intro (x : _ × State); refine Keeps.cut (r := r) x.2 ?_ (fun _ => ?_) <;> [subst x; clear_value x])
    | (intro x; clear_value x)
    | with_reducible (refine Keeps.ite ?_ ?_)
    | split
    | lift_lets
    | with_reducible (refine Keeps.ofSnd (by assumption) ?_)
    | with_reducible (refine Keeps.ofSnd2 (by assumption) ?_)
    | intro

theorem Keeps.answerData {r s : State} (h : Keeps r s) cl line requester dirty evicting poison data :
    Keeps r (State.answerData s cl line requester dirty evicting poison data) := by
  unfold State.answerData
  repeat' first
    | with_reducible assumption
    | with_reducible apply Keeps.send
    | (fail_if_no_progress (with_reducible (refine Keeps.lit ?_ rfl rfl rfl)))
    | with_reducible (refine Keeps.ite ?_ ?_)
    | split

theorem Keeps.setLine {r s : State} (h : Keeps r s) cl line x :
    Keeps r (State.setLine s cl line x) :=
  Keeps.lit h rfl rfl rfl

theorem Keeps.answerSnoop {r s : State} (h : Keeps r s) cl h' lost :
    Keeps r (State.answerSnoop s cl h' lost) := by
  unfold State.answerSnoop
  repeat' first
    | with_reducible assumption
    | with_reducible apply Keeps.answerData
    | with_reducible apply Keeps.dropLine
    | with_reducible apply Keeps.inc
    | with_reducible apply Keeps.send
    | with_reducible apply Keeps.setL2
    | with_reducible apply Keeps.setLine
    | (fail_if_no_progress (with_reducible (refine Keeps.lit ?_ rfl rfl rfl)))
    | with_reducible (refine Keeps.ite ?_ ?_)
    | split

theorem Keeps.releaseHeld {r s : State} (h : Keeps r s) k lost :
    Keeps r (State.releaseHeld s k lost) := by
  unfold State.releaseHeld
  repeat' first
    | with_reducible assumption
    | with_reducible apply Keeps.answerSnoop
    | with_reducible apply Keeps.setL2
    | with_reducible (refine Keeps.foldl _ ?_ (fun _ _ _ => ?_))
    | with_reducible (refine Keeps.foldlSnd _ ?_ (fun _ _ _ => ?_))
    | with_reducible (refine Keeps.foldlSnd2 _ ?_ (fun _ _ _ => ?_))
    | (fail_if_no_progress (with_reducible (refine Keeps.lit ?_ rfl rfl rfl)))
    | (intro x; refine Keeps.cut (r := r) x ?_ (fun _ => ?_) <;> [subst x; clear_value x])
    | (intro (x : _ × State); refine Keeps.cut (r := r) x.2 ?_ (fun _ => ?_) <;> [subst x; clear_value x])
    | (intro x; clear_value x)
    | with_reducible (refine Keeps.ite ?_ ?_)
    | split
    | lift_lets
    | with_reducible (refine Keeps.ofSnd (by assumption) ?_)
    | with_reducible (refine Keeps.ofSnd2 (by assumption) ?_)
    | intro

theorem Keeps.unpin {r s : State} (h : Keeps r s) cl lines :
    Keeps r (State.unpin s cl lines) := by
  unfold State.unpin
  repeat' first
    | with_reducible assumption
    | with_reducible apply Keeps.send
    | with_reducible (refine Keeps.foldl _ ?_ (fun _ _ _ => ?_))
    | with_reducible (refine Keeps.foldlSnd _ ?_ (fun _ _ _ => ?_))
    | with_reducible (refine Keeps.foldlSnd2 _ ?_ (fun _ _ _ => ?_))
    | (fail_if_no_progress (with_reducible (refine Keeps.lit ?_ rfl rfl rfl)))
    | (intro x; refine Keeps.cut (r := r) x ?_ (fun _ => ?_) <;> [subst x; clear_value x])
    | (intro (x : _ × State); refine Keeps.cut (r := r) x.2 ?_ (fun _ => ?_) <;> [subst x; clear_value x])
    | (intro x; clear_value x)
    | with_reducible (refine Keeps.ite ?_ ?_)
    | split
    | lift_lets
    | with_reducible (refine Keeps.ofSnd (by assumption) ?_)
    | with_reducible (refine Keeps.ofSnd2 (by assumption) ?_)
    | intro

theorem Keeps.proofAbort {r s : State} (h : Keeps r s) k cause line user awaiting :
    Keeps r (State.proofAbort s k cause line user awaiting) := by
  unfold State.proofAbort
  repeat' first
    | with_reducible assumption
    | with_reducible apply Keeps.giveUp
    | with_reducible apply Keeps.inc
    | with_reducible apply Keeps.ledger
    | with_reducible apply Keeps.perf
    | with_reducible apply Keeps.releaseHeld
    | with_reducible apply Keeps.setHart
    | with_reducible apply Keeps.setL2
    | with_reducible apply Keeps.unpin
    | with_reducible apply Keeps.wr
    | (fail_if_no_progress (with_reducible (refine Keeps.lit ?_ rfl rfl rfl)))
    | with_reducible (refine Keeps.ite ?_ ?_)
    | split

theorem Keeps.l2Way {r s : State} (h : Keeps r s) k line :
    Keeps r (State.l2Way s k line).2 := by
  unfold State.l2Way
  repeat' first
    | with_reducible assumption
    | with_reducible apply Keeps.l2Evict
    | with_reducible apply Keeps.proofAbort
    | with_reducible (refine Keeps.foldl _ ?_ (fun _ _ _ => ?_))
    | with_reducible (refine Keeps.foldlSnd _ ?_ (fun _ _ _ => ?_))
    | with_reducible (refine Keeps.foldlSnd2 _ ?_ (fun _ _ _ => ?_))
    | (fail_if_no_progress (with_reducible (refine Keeps.lit ?_ rfl rfl rfl)))
    | (intro x; refine Keeps.cut (r := r) x ?_ (fun _ => ?_) <;> [subst x; clear_value x])
    | (intro (x : _ × State); refine Keeps.cut (r := r) x.2 ?_ (fun _ => ?_) <;> [subst x; clear_value x])
    | (intro x; clear_value x)
    | with_reducible (refine Keeps.ite ?_ ?_)
    | split
    | lift_lets
    | with_reducible (refine Keeps.ofSnd (by assumption) ?_)
    | with_reducible (refine Keeps.ofSnd2 (by assumption) ?_)
    | intro

theorem Keeps.l2Ask {r s : State} (h : Keeps r s) k line kind drain :
    Keeps r (State.l2Ask s k line kind drain) := by
  unfold State.l2Ask
  repeat' first
    | with_reducible assumption
    | with_reducible apply Keeps.inc
    | with_reducible apply Keeps.l2Way
    | with_reducible apply Keeps.perf
    | with_reducible apply Keeps.send
    | with_reducible apply Keeps.setL2
    | (fail_if_no_progress (with_reducible (refine Keeps.lit ?_ rfl rfl rfl)))
    | with_reducible (refine Keeps.ite ?_ ?_)
    | split

theorem Keeps.l2Own {r s : State} (h : Keeps r s) k line drain :
    Keeps r (State.l2Own s k line drain).2 := by
  unfold State.l2Own
  repeat' first
    | with_reducible assumption
    | with_reducible apply Keeps.l2Ask
    | (fail_if_no_progress (with_reducible (refine Keeps.lit ?_ rfl rfl rfl)))
    | with_reducible (refine Keeps.ite ?_ ?_)
    | split

theorem Keeps.dropPeers {r s : State} (h : Keeps r s) k line :
    Keeps r (State.dropPeers s k line) := by
  unfold State.dropPeers
  repeat' first
    | with_reducible assumption
    | with_reducible apply Keeps.setHart
    | with_reducible (refine Keeps.foldl _ ?_ (fun _ _ _ => ?_))
    | with_reducible (refine Keeps.foldlSnd _ ?_ (fun _ _ _ => ?_))
    | with_reducible (refine Keeps.foldlSnd2 _ ?_ (fun _ _ _ => ?_))
    | (fail_if_no_progress (with_reducible (refine Keeps.lit ?_ rfl rfl rfl)))
    | (intro x; refine Keeps.cut (r := r) x ?_ (fun _ => ?_) <;> [subst x; clear_value x])
    | (intro (x : _ × State); refine Keeps.cut (r := r) x.2 ?_ (fun _ => ?_) <;> [subst x; clear_value x])
    | (intro x; clear_value x)
    | with_reducible (refine Keeps.ite ?_ ?_)
    | split
    | lift_lets
    | with_reducible (refine Keeps.ofSnd (by assumption) ?_)
    | with_reducible (refine Keeps.ofSnd2 (by assumption) ?_)
    | intro

theorem Keeps.l2Write {r s : State} (h : Keeps r s) k line b :
    Keeps r (State.l2Write s k line b) := by
  unfold State.l2Write
  repeat' first
    | with_reducible assumption
    | with_reducible apply Keeps.dropPeers
    | with_reducible apply Keeps.setLine
    | (fail_if_no_progress (with_reducible (refine Keeps.lit ?_ rfl rfl rfl)))
    | with_reducible (refine Keeps.ite ?_ ?_)
    | split

theorem Keeps.localAccess {r s : State} (h : Keeps r s) k line excl :
    Keeps r (State.localAccess s k line excl).2 := by
  unfold State.localAccess
  repeat' first
    | with_reducible assumption
    | with_reducible apply Keeps.proofAbort
    | with_reducible (refine Keeps.foldl _ ?_ (fun _ _ _ => ?_))
    | with_reducible (refine Keeps.foldlSnd _ ?_ (fun _ _ _ => ?_))
    | with_reducible (refine Keeps.foldlSnd2 _ ?_ (fun _ _ _ => ?_))
    | (fail_if_no_progress (with_reducible (refine Keeps.lit ?_ rfl rfl rfl)))
    | (intro x; refine Keeps.cut (r := r) x ?_ (fun _ => ?_) <;> [subst x; clear_value x])
    | (intro (x : _ × State); refine Keeps.cut (r := r) x.2 ?_ (fun _ => ?_) <;> [subst x; clear_value x])
    | (intro x; clear_value x)
    | with_reducible (refine Keeps.ite ?_ ?_)
    | split
    | lift_lets
    | with_reducible (refine Keeps.ofSnd (by assumption) ?_)
    | with_reducible (refine Keeps.ofSnd2 (by assumption) ?_)
    | intro

theorem Keeps.onProof {r s : State} (h : Keeps r s) k f :
    Keeps r (State.onProof s k f) :=
  Keeps.lit h rfl rfl rfl

theorem Keeps.markWrite {r s : State} (h : Keeps r s) k line :
    Keeps r (State.markWrite s k line).2 := by
  unfold State.markWrite
  repeat' first
    | with_reducible assumption
    | with_reducible apply Keeps.onProof
    | with_reducible apply Keeps.proofAbort
    | with_reducible apply Keeps.send
    | with_reducible apply Keeps.when
    | with_reducible (refine Keeps.foldl _ ?_ (fun _ _ _ => ?_))
    | with_reducible (refine Keeps.foldlSnd _ ?_ (fun _ _ _ => ?_))
    | with_reducible (refine Keeps.foldlSnd2 _ ?_ (fun _ _ _ => ?_))
    | (fail_if_no_progress (with_reducible (refine Keeps.lit ?_ rfl rfl rfl)))
    | (intro x; refine Keeps.cut (r := r) x ?_ (fun _ => ?_) <;> [subst x; clear_value x])
    | (intro (x : _ × State); refine Keeps.cut (r := r) x.2 ?_ (fun _ => ?_) <;> [subst x; clear_value x])
    | (intro x; clear_value x)
    | with_reducible (refine Keeps.ite ?_ ?_)
    | split
    | lift_lets
    | with_reducible (refine Keeps.ofSnd (by assumption) ?_)
    | with_reducible (refine Keeps.ofSnd2 (by assumption) ?_)
    | intro

theorem Keeps.drainAs {r s : State} (h : Keeps r s) k asked :
    Keeps r (State.drainAs s k asked) := by
  unfold State.drainAs
  repeat' first
    | with_reducible assumption
    | with_reducible apply Keeps.inc
    | with_reducible apply Keeps.l2Own
    | with_reducible apply Keeps.l2Write
    | with_reducible apply Keeps.localAccess
    | with_reducible apply Keeps.markWrite
    | with_reducible apply Keeps.send
    | with_reducible apply Keeps.setHart
    | with_reducible apply Keeps.when
    | (fail_if_no_progress (with_reducible (refine Keeps.lit ?_ rfl rfl rfl)))
    | with_reducible (refine Keeps.ite ?_ ?_)
    | split
    | intro

theorem Keeps.drainOne {r s : State} (h : Keeps r s) k :
    Keeps r (State.drainOne s k) := by
  unfold State.drainOne
  exact h.drainAs k false

theorem Keeps.drainAll {r s : State} (h : Keeps r s) k :
    Keeps r (State.drainAll s k).2 := by
  unfold State.drainAll
  repeat' first
    | with_reducible assumption
    | with_reducible apply Keeps.drainOne
    | with_reducible (refine Keeps.foldl _ ?_ (fun _ _ _ => ?_))
    | with_reducible (refine Keeps.foldlSnd _ ?_ (fun _ _ _ => ?_))
    | with_reducible (refine Keeps.foldlSnd2 _ ?_ (fun _ _ _ => ?_))
    | (fail_if_no_progress (with_reducible (refine Keeps.lit ?_ rfl rfl rfl)))
    | (intro x; refine Keeps.cut (r := r) x ?_ (fun _ => ?_) <;> [subst x; clear_value x])
    | (intro (x : _ × State); refine Keeps.cut (r := r) x.2 ?_ (fun _ => ?_) <;> [subst x; clear_value x])
    | (intro x; clear_value x)
    | with_reducible (refine Keeps.ite ?_ ?_)
    | split
    | lift_lets
    | with_reducible (refine Keeps.ofSnd (by assumption) ?_)
    | with_reducible (refine Keeps.ofSnd2 (by assumption) ?_)
    | intro

theorem Keeps.exception {r s : State} (h : Keeps r s) k cause tval pc line :
    Keeps r (State.exception s k cause tval pc line) := by
  unfold State.exception
  repeat' first
    | with_reducible assumption
    | with_reducible apply Keeps.drainAll
    | with_reducible apply Keeps.endMiss
    | with_reducible apply Keeps.proofAbort
    | with_reducible apply Keeps.takeException
    | (fail_if_no_progress (with_reducible (refine Keeps.lit ?_ rfl rfl rfl)))
    | with_reducible (refine Keeps.ite ?_ ?_)
    | split

theorem Keeps.loadDone {r s : State} (h : Keeps r s) k pa size sext dst next line :
    Keeps r (State.loadDone s k pa size sext dst next line) := by
  unfold State.loadDone
  repeat' first
    | with_reducible assumption
    | with_reducible apply Keeps.retire
    | with_reducible apply Keeps.setHart
    | (fail_if_no_progress (with_reducible (refine Keeps.lit ?_ rfl rfl rfl)))
    | with_reducible (refine Keeps.ite ?_ ?_)
    | split

theorem Keeps.markRead {r s : State} (h : Keeps r s) k line :
    Keeps r (State.markRead s k line) := by
  unfold State.markRead
  repeat' first
    | with_reducible assumption
    | with_reducible apply Keeps.onProof
    | with_reducible apply Keeps.send
    | with_reducible apply Keeps.when
    | with_reducible (refine Keeps.foldl _ ?_ (fun _ _ _ => ?_))
    | with_reducible (refine Keeps.foldlSnd _ ?_ (fun _ _ _ => ?_))
    | with_reducible (refine Keeps.foldlSnd2 _ ?_ (fun _ _ _ => ?_))
    | (fail_if_no_progress (with_reducible (refine Keeps.lit ?_ rfl rfl rfl)))
    | (intro x; refine Keeps.cut (r := r) x ?_ (fun _ => ?_) <;> [subst x; clear_value x])
    | (intro (x : _ × State); refine Keeps.cut (r := r) x.2 ?_ (fun _ => ?_) <;> [subst x; clear_value x])
    | (intro x; clear_value x)
    | with_reducible (refine Keeps.ite ?_ ?_)
    | split
    | lift_lets
    | with_reducible (refine Keeps.ofSnd (by assumption) ?_)
    | with_reducible (refine Keeps.ofSnd2 (by assumption) ?_)
    | intro

theorem Keeps.missWaits {r s : State} (h : Keeps r s) k line :
    Keeps r (State.missWaits s k line) := by
  unfold State.missWaits
  repeat' first
    | with_reducible assumption
    | with_reducible apply Keeps.endMiss
    | (fail_if_no_progress (with_reducible (refine Keeps.lit ?_ rfl rfl rfl)))
    | with_reducible (refine Keeps.ite ?_ ?_)
    | split

theorem Keeps.scDone {r s : State} (h : Keeps r s) k rd v next :
    Keeps r (State.scDone s k rd v next) := by
  unfold State.scDone
  repeat' first
    | with_reducible assumption
    | with_reducible apply Keeps.retire
    | with_reducible apply Keeps.setHart
    | (fail_if_no_progress (with_reducible (refine Keeps.lit ?_ rfl rfl rfl)))
    | with_reducible (refine Keeps.ite ?_ ?_)
    | split

theorem Keeps.accessLine {r s : State} (h : Keeps r s) k line op :
    Keeps r (State.accessLine s k line op) := by
  unfold State.accessLine
  repeat' first
    | with_reducible assumption
    | with_reducible apply Keeps.endMiss
    | with_reducible apply Keeps.exception
    | with_reducible apply Keeps.l2Own
    | with_reducible apply Keeps.l2Write
    | with_reducible apply Keeps.loadDone
    | with_reducible apply Keeps.localAccess
    | with_reducible apply Keeps.markRead
    | with_reducible apply Keeps.markWrite
    | with_reducible apply Keeps.missWaits
    | with_reducible apply Keeps.retire
    | with_reducible apply Keeps.scDone
    | with_reducible apply Keeps.setHart
    | with_reducible (refine Keeps.foldl _ ?_ (fun _ _ _ => ?_))
    | with_reducible (refine Keeps.foldlSnd _ ?_ (fun _ _ _ => ?_))
    | with_reducible (refine Keeps.foldlSnd2 _ ?_ (fun _ _ _ => ?_))
    | (fail_if_no_progress (with_reducible (refine Keeps.lit ?_ rfl rfl rfl)))
    | (intro x; refine Keeps.cut (r := r) x ?_ (fun _ => ?_) <;> [subst x; clear_value x])
    | (intro (x : _ × State); refine Keeps.cut (r := r) x.2 ?_ (fun _ => ?_) <;> [subst x; clear_value x])
    | (intro x; clear_value x)
    | with_reducible (refine Keeps.ite ?_ ?_)
    | split
    | lift_lets
    | with_reducible (refine Keeps.ofSnd (by assumption) ?_)
    | with_reducible (refine Keeps.ofSnd2 (by assumption) ?_)
    | intro

theorem Keeps.completeReq {r s : State} (h : Keeps r s) cl line :
    Keeps r (State.completeReq s cl line) := by
  unfold State.completeReq
  repeat' first
    | with_reducible assumption
    | with_reducible apply Keeps.accessLine
    | with_reducible apply Keeps.drainAs
    | with_reducible apply Keeps.setL2
    | with_reducible apply Keeps.setLine
    | with_reducible (refine Keeps.foldl _ ?_ (fun _ _ _ => ?_))
    | with_reducible (refine Keeps.foldlSnd _ ?_ (fun _ _ _ => ?_))
    | with_reducible (refine Keeps.foldlSnd2 _ ?_ (fun _ _ _ => ?_))
    | (fail_if_no_progress (with_reducible (refine Keeps.lit ?_ rfl rfl rfl)))
    | (intro x; refine Keeps.cut (r := r) x ?_ (fun _ => ?_) <;> [subst x; clear_value x])
    | (intro (x : _ × State); refine Keeps.cut (r := r) x.2 ?_ (fun _ => ?_) <;> [subst x; clear_value x])
    | (intro x; clear_value x)
    | with_reducible (refine Keeps.ite ?_ ?_)
    | split
    | lift_lets
    | with_reducible (refine Keeps.ofSnd (by assumption) ?_)
    | with_reducible (refine Keeps.ofSnd2 (by assumption) ?_)
    | intro

theorem Keeps.snoop {r s : State} (h : Keeps r s) cl x :
    Keeps r (State.snoop s cl x) := by
  unfold State.snoop
  repeat' first
    | with_reducible assumption
    | with_reducible apply Keeps.answerSnoop
    | with_reducible apply Keeps.inc
    | with_reducible apply Keeps.proofAbort
    | with_reducible apply Keeps.send
    | with_reducible apply Keeps.setL2
    | with_reducible (refine Keeps.foldl _ ?_ (fun _ _ _ => ?_))
    | with_reducible (refine Keeps.foldlSnd _ ?_ (fun _ _ _ => ?_))
    | with_reducible (refine Keeps.foldlSnd2 _ ?_ (fun _ _ _ => ?_))
    | (fail_if_no_progress (with_reducible (refine Keeps.lit ?_ rfl rfl rfl)))
    | (intro x; refine Keeps.cut (r := r) x ?_ (fun _ => ?_) <;> [subst x; clear_value x])
    | (intro (x : _ × State); refine Keeps.cut (r := r) x.2 ?_ (fun _ => ?_) <;> [subst x; clear_value x])
    | (intro x; clear_value x)
    | with_reducible (refine Keeps.ite ?_ ?_)
    | split
    | lift_lets
    | with_reducible (refine Keeps.ofSnd (by assumption) ?_)
    | with_reducible (refine Keeps.ofSnd2 (by assumption) ?_)
    | intro

theorem Keeps.abortArrive {r s : State} (h : Keeps r s) k ts line :
    Keeps r (State.abortArrive s k ts line) := by
  unfold State.abortArrive
  repeat' first
    | with_reducible assumption
    | with_reducible apply Keeps.proofAbort
    | (fail_if_no_progress (with_reducible (refine Keeps.lit ?_ rfl rfl rfl)))
    | with_reducible (refine Keeps.ite ?_ ?_)
    | split

theorem Keeps.abortHolders {r s : State} (h : Keeps r s) line :
    Keeps r (State.abortHolders s line) := by
  unfold State.abortHolders
  repeat' first
    | with_reducible assumption
    | with_reducible apply Keeps.proofAbort
    | with_reducible (refine Keeps.foldl _ ?_ (fun _ _ _ => ?_))
    | with_reducible (refine Keeps.foldlSnd _ ?_ (fun _ _ _ => ?_))
    | with_reducible (refine Keeps.foldlSnd2 _ ?_ (fun _ _ _ => ?_))
    | (fail_if_no_progress (with_reducible (refine Keeps.lit ?_ rfl rfl rfl)))
    | (intro x; refine Keeps.cut (r := r) x ?_ (fun _ => ?_) <;> [subst x; clear_value x])
    | (intro (x : _ × State); refine Keeps.cut (r := r) x.2 ?_ (fun _ => ?_) <;> [subst x; clear_value x])
    | (intro x; clear_value x)
    | with_reducible (refine Keeps.ite ?_ ?_)
    | split
    | lift_lets
    | with_reducible (refine Keeps.ofSnd (by assumption) ?_)
    | with_reducible (refine Keeps.ofSnd2 (by assumption) ?_)
    | intro

theorem Keeps.invStep {r s : State} (h : Keeps r s) cl :
    Keeps r (State.invStep s cl) := by
  unfold State.invStep
  repeat' first
    | with_reducible assumption
    | with_reducible apply Keeps.l2Evict
    | with_reducible apply Keeps.proofAbort
    | with_reducible apply Keeps.setL2
    | with_reducible (refine Keeps.foldl _ ?_ (fun _ _ _ => ?_))
    | with_reducible (refine Keeps.foldlSnd _ ?_ (fun _ _ _ => ?_))
    | with_reducible (refine Keeps.foldlSnd2 _ ?_ (fun _ _ _ => ?_))
    | (fail_if_no_progress (with_reducible (refine Keeps.lit ?_ rfl rfl rfl)))
    | (intro x; refine Keeps.cut (r := r) x ?_ (fun _ => ?_) <;> [subst x; clear_value x])
    | (intro (x : _ × State); refine Keeps.cut (r := r) x.2 ?_ (fun _ => ?_) <;> [subst x; clear_value x])
    | (intro x; clear_value x)
    | with_reducible (refine Keeps.ite ?_ ?_)
    | split
    | lift_lets
    | with_reducible (refine Keeps.ofSnd (by assumption) ?_)
    | with_reducible (refine Keeps.ofSnd2 (by assumption) ?_)
    | intro

theorem Keeps.ackArrive {r s : State} (h : Keeps r s) cl line wb :
    Keeps r (State.ackArrive s cl line wb) := by
  unfold State.ackArrive
  repeat' first
    | with_reducible assumption
    | with_reducible apply Keeps.invStep
    | with_reducible apply Keeps.setL2
    | (fail_if_no_progress (with_reducible (refine Keeps.lit ?_ rfl rfl rfl)))
    | with_reducible (refine Keeps.ite ?_ ?_)
    | split

theorem Keeps.dataArrive {r s : State} (h : Keeps r s) cl line poison evicting d :
    Keeps r (State.dataArrive s cl line poison evicting d) := by
  unfold State.dataArrive
  repeat' first
    | with_reducible assumption
    | with_reducible apply Keeps.completeReq
    | with_reducible apply Keeps.setL2
    | (fail_if_no_progress (with_reducible (refine Keeps.lit ?_ rfl rfl rfl)))
    | with_reducible (refine Keeps.ite ?_ ?_)
    | split

theorem Keeps.gntArrive {r s : State} (h : Keeps r s) cl line st withData :
    Keeps r (State.gntArrive s cl line st withData) := by
  unfold State.gntArrive
  repeat' first
    | with_reducible assumption
    | with_reducible apply Keeps.completeReq
    | with_reducible apply Keeps.setL2
    | (fail_if_no_progress (with_reducible (refine Keeps.lit ?_ rfl rfl rfl)))
    | with_reducible (refine Keeps.ite ?_ ?_)
    | split

theorem Keeps.dropEntry {r s : State} (h : Keeps r s) line :
    Keeps r (State.dropEntry s line) :=
  Keeps.lit h rfl rfl rfl

theorem Keeps.putEntry {r s : State} (h : Keeps r s) line e :
    Keeps r (State.putEntry s line e) :=
  Keeps.lit h rfl rfl rfl

theorem Keeps.ownerLeft {r s : State} (h : Keeps r s) line e o :
    Keeps r (State.ownerLeft s line e o) := by
  unfold State.ownerLeft
  repeat' first
    | with_reducible assumption
    | with_reducible apply Keeps.dropEntry
    | with_reducible apply Keeps.putEntry
    | (fail_if_no_progress (with_reducible (refine Keeps.lit ?_ rfl rfl rfl)))
    | with_reducible (refine Keeps.ite ?_ ?_)
    | split

theorem Keeps.applyNotice {r s : State} (h : Keeps r s) line n :
    Keeps r (State.applyNotice s line n) := by
  unfold State.applyNotice
  repeat' first
    | with_reducible assumption
    | with_reducible apply Keeps.dropEntry
    | with_reducible apply Keeps.ownerLeft
    | with_reducible apply Keeps.postWrite
    | with_reducible apply Keeps.putEntry
    | with_reducible apply Keeps.send
    | (fail_if_no_progress (with_reducible (refine Keeps.lit ?_ rfl rfl rfl)))
    | with_reducible (refine Keeps.ite ?_ ?_)
    | split

theorem Keeps.noticeArrive {r s : State} (h : Keeps r s) line n :
    Keeps r (State.noticeArrive s line n) := by
  unfold State.noticeArrive
  repeat' first
    | with_reducible assumption
    | with_reducible apply Keeps.applyNotice
    | (fail_if_no_progress (with_reducible (refine Keeps.lit ?_ rfl rfl rfl)))
    | with_reducible (refine Keeps.ite ?_ ?_)
    | split

theorem Keeps.pinArrive {r s : State} (h : Keeps r s) c line on :
    Keeps r (State.pinArrive s c line on) := by
  unfold State.pinArrive
  repeat' first
    | with_reducible assumption
    | (fail_if_no_progress (with_reducible (refine Keeps.lit ?_ rfl rfl rfl)))
    | with_reducible (refine Keeps.ite ?_ ?_)
    | split

theorem Keeps.poisonLine {r s : State} (h : Keeps r s) line :
    Keeps r (State.poisonLine s line) := by
  unfold State.poisonLine
  repeat' first
    | with_reducible assumption
    | with_reducible apply Keeps.dropEntry
    | with_reducible apply Keeps.inc
    | with_reducible apply Keeps.postWrite
    | with_reducible apply Keeps.raise
    | (fail_if_no_progress (with_reducible (refine Keeps.lit ?_ rfl rfl rfl)))
    | with_reducible (refine Keeps.ite ?_ ?_)
    | split

theorem Keeps.maskEntry {r s : State} (h : Keeps r s) c line :
    Keeps r (State.maskEntry s c line) := by
  unfold State.maskEntry
  repeat' first
    | with_reducible assumption
    | with_reducible apply Keeps.dropEntry
    | with_reducible apply Keeps.dropLine
    | with_reducible apply Keeps.poisonLine
    | with_reducible apply Keeps.proofAbort
    | with_reducible (refine Keeps.foldl _ ?_ (fun _ _ _ => ?_))
    | with_reducible (refine Keeps.foldlSnd _ ?_ (fun _ _ _ => ?_))
    | with_reducible (refine Keeps.foldlSnd2 _ ?_ (fun _ _ _ => ?_))
    | (fail_if_no_progress (with_reducible (refine Keeps.lit ?_ rfl rfl rfl)))
    | (intro x; refine Keeps.cut (r := r) x ?_ (fun _ => ?_) <;> [subst x; clear_value x])
    | (intro (x : _ × State); refine Keeps.cut (r := r) x.2 ?_ (fun _ => ?_) <;> [subst x; clear_value x])
    | (intro x; clear_value x)
    | with_reducible (refine Keeps.ite ?_ ?_)
    | split
    | lift_lets
    | with_reducible (refine Keeps.ofSnd (by assumption) ?_)
    | with_reducible (refine Keeps.ofSnd2 (by assumption) ?_)
    | intro

theorem Keeps.grant {r s : State} (h : Keeps r s) line c st withData fromMem :
    Keeps r (State.grant s line c st withData fromMem) := by
  unfold State.grant
  repeat' first
    | with_reducible assumption
    | with_reducible apply Keeps.maskEntry
    | with_reducible apply Keeps.postRead
    | with_reducible apply Keeps.send
    | (fail_if_no_progress (with_reducible (refine Keeps.lit ?_ rfl rfl rfl)))
    | with_reducible (refine Keeps.ite ?_ ?_)
    | split

theorem Keeps.toGuest {r s : State} (h : Keeps r s) g m :
    Keeps r (State.toGuest s g m) :=
  Keeps.lit h rfl rfl rfl

theorem Keeps.ioReply {r s : State} (h : Keeps r s) r' d :
    Keeps r (State.ioReply s r' d) := by
  unfold State.ioReply
  repeat' first
    | with_reducible assumption
    | with_reducible apply Keeps.exception
    | with_reducible apply Keeps.loadDone
    | with_reducible apply Keeps.setHart
    | with_reducible apply Keeps.toGuest
    | (fail_if_no_progress (with_reducible (refine Keeps.lit ?_ rfl rfl rfl)))
    | with_reducible (refine Keeps.ite ?_ ?_)
    | split

theorem Keeps.requeue {r s : State} (h : Keeps r s) r' :
    Keeps r (State.requeue s r') :=
  Keeps.lit h rfl rfl rfl

theorem Keeps.toEm {r s : State} (h : Keeps r s) line c :
    Keeps r (State.toEm s line c) :=
  Keeps.lit h rfl rfl rfl

theorem Keeps.writeBackLine {r s : State} (h : Keeps r s) line d :
    Keeps r (State.writeBackLine s line d) := by
  unfold State.writeBackLine
  repeat' first
    | with_reducible assumption
    | with_reducible apply Keeps.postWrite
    | (fail_if_no_progress (with_reducible (refine Keeps.lit ?_ rfl rfl rfl)))
    | with_reducible (refine Keeps.ite ?_ ?_)
    | split

theorem Keeps.finishTxn {r s : State} (h : Keeps r s) line t' :
    Keeps r (State.finishTxn s line t') := by
  unfold State.finishTxn
  repeat' first
    | with_reducible assumption
    | with_reducible apply Keeps.dropEntry
    | with_reducible apply Keeps.grant
    | with_reducible apply Keeps.inc
    | with_reducible apply Keeps.ioReply
    | with_reducible apply Keeps.ownerLeft
    | with_reducible apply Keeps.poisonLine
    | with_reducible apply Keeps.postRead
    | with_reducible apply Keeps.postWrite
    | with_reducible apply Keeps.putEntry
    | with_reducible apply Keeps.requeue
    | with_reducible apply Keeps.toEm
    | with_reducible apply Keeps.when
    | with_reducible apply Keeps.writeBackLine
    | with_reducible (refine Keeps.foldl _ ?_ (fun _ _ _ => ?_))
    | with_reducible (refine Keeps.foldlSnd _ ?_ (fun _ _ _ => ?_))
    | with_reducible (refine Keeps.foldlSnd2 _ ?_ (fun _ _ _ => ?_))
    | (fail_if_no_progress (with_reducible (refine Keeps.lit ?_ rfl rfl rfl)))
    | (intro x; refine Keeps.cut (r := r) x ?_ (fun _ => ?_) <;> [subst x; clear_value x])
    | (intro (x : _ × State); refine Keeps.cut (r := r) x.2 ?_ (fun _ => ?_) <;> [subst x; clear_value x])
    | (intro x; clear_value x)
    | with_reducible (refine Keeps.ite ?_ ?_)
    | split
    | lift_lets
    | with_reducible (refine Keeps.ofSnd (by assumption) ?_)
    | with_reducible (refine Keeps.ofSnd2 (by assumption) ?_)
    | intro

theorem Keeps.rspArrive {r s : State} (h : Keeps r s) c line dirty miss evicting data poison :
    Keeps r (State.rspArrive s c line dirty miss evicting data poison) := by
  unfold State.rspArrive
  repeat' first
    | with_reducible assumption
    | with_reducible apply Keeps.finishTxn
    | with_reducible apply Keeps.inc
    | with_reducible apply Keeps.send
    | with_reducible (refine Keeps.foldl _ ?_ (fun _ _ _ => ?_))
    | with_reducible (refine Keeps.foldlSnd _ ?_ (fun _ _ _ => ?_))
    | with_reducible (refine Keeps.foldlSnd2 _ ?_ (fun _ _ _ => ?_))
    | (fail_if_no_progress (with_reducible (refine Keeps.lit ?_ rfl rfl rfl)))
    | (intro x; refine Keeps.cut (r := r) x ?_ (fun _ => ?_) <;> [subst x; clear_value x])
    | (intro (x : _ × State); refine Keeps.cut (r := r) x.2 ?_ (fun _ => ?_) <;> [subst x; clear_value x])
    | (intro x; clear_value x)
    | with_reducible (refine Keeps.ite ?_ ?_)
    | split
    | lift_lets
    | with_reducible (refine Keeps.ofSnd (by assumption) ?_)
    | with_reducible (refine Keeps.ofSnd2 (by assumption) ?_)
    | intro

theorem Keeps.openTxn {r s : State} (h : Keeps r s) line r' evict owner snoops bcast :
    Keeps r (State.openTxn s line r' evict owner snoops bcast) := by
  unfold State.openTxn
  repeat' first
    | with_reducible assumption
    | with_reducible apply Keeps.finishTxn
    | with_reducible apply Keeps.inc
    | with_reducible apply Keeps.send
    | with_reducible apply Keeps.when
    | with_reducible (refine Keeps.foldl _ ?_ (fun _ _ _ => ?_))
    | with_reducible (refine Keeps.foldlSnd _ ?_ (fun _ _ _ => ?_))
    | with_reducible (refine Keeps.foldlSnd2 _ ?_ (fun _ _ _ => ?_))
    | (fail_if_no_progress (with_reducible (refine Keeps.lit ?_ rfl rfl rfl)))
    | (intro x; refine Keeps.cut (r := r) x ?_ (fun _ => ?_) <;> [subst x; clear_value x])
    | (intro (x : _ × State); refine Keeps.cut (r := r) x.2 ?_ (fun _ => ?_) <;> [subst x; clear_value x])
    | (intro x; clear_value x)
    | with_reducible (refine Keeps.ite ?_ ?_)
    | split
    | lift_lets
    | with_reducible (refine Keeps.ofSnd (by assumption) ?_)
    | with_reducible (refine Keeps.ofSnd2 (by assumption) ?_)
    | intro

theorem Keeps.dirEvict {r s : State} (h : Keeps r s) r' :
    Keeps r (State.dirEvict s r') := by
  unfold State.dirEvict
  repeat' first
    | with_reducible assumption
    | with_reducible apply Keeps.abortHolders
    | with_reducible apply Keeps.inc
    | with_reducible apply Keeps.openTxn
    | with_reducible apply Keeps.raise
    | with_reducible apply Keeps.requeue
    | with_reducible (refine Keeps.foldl _ ?_ (fun _ _ _ => ?_))
    | with_reducible (refine Keeps.foldlSnd _ ?_ (fun _ _ _ => ?_))
    | with_reducible (refine Keeps.foldlSnd2 _ ?_ (fun _ _ _ => ?_))
    | (fail_if_no_progress (with_reducible (refine Keeps.lit ?_ rfl rfl rfl)))
    | (intro x; refine Keeps.cut (r := r) x ?_ (fun _ => ?_) <;> [subst x; clear_value x])
    | (intro (x : _ × State); refine Keeps.cut (r := r) x.2 ?_ (fun _ => ?_) <;> [subst x; clear_value x])
    | (intro (x : _ → State); subst x; beta_reduce)
    | (intro (x : _ → _ → State); subst x; beta_reduce)
    | (intro (x : _ → _ × State); subst x; beta_reduce)
    | (intro (x : _ → _ → _ × State); subst x; beta_reduce)
    | (intro (x : MemState); subst x)
    | (intro x; clear_value x)
    | with_reducible (refine Keeps.ite ?_ ?_)
    | split
    | lift_lets
    | with_reducible (refine Keeps.ofSnd (by assumption) ?_)
    | with_reducible (refine Keeps.ofSnd2 (by assumption) ?_)
    | intro

theorem Keeps.serveNow {r s : State} (h : Keeps r s) r' :
    Keeps r (State.serveNow s r') := by
  unfold State.serveNow
  repeat' first
    | with_reducible assumption
    | with_reducible apply Keeps.dirEvict
    | with_reducible apply Keeps.grant
    | with_reducible apply Keeps.ioReply
    | with_reducible apply Keeps.openTxn
    | with_reducible apply Keeps.postRead
    | with_reducible apply Keeps.postWrite
    | with_reducible apply Keeps.putEntry
    | with_reducible apply Keeps.toEm
    | (fail_if_no_progress (with_reducible (refine Keeps.lit ?_ rfl rfl rfl)))
    | (intro x; refine Keeps.cut (r := r) x ?_ (fun _ => ?_) <;> [subst x; clear_value x])
    | (intro (x : _ × State); refine Keeps.cut (r := r) x.2 ?_ (fun _ => ?_) <;> [subst x; clear_value x])
    | (intro x; clear_value x)
    | with_reducible (refine Keeps.ite ?_ ?_)
    | split
    | lift_lets

theorem Keeps.serveReq {r s : State} (h : Keeps r s) r' :
    Keeps r (State.serveReq s r') := by
  unfold State.serveReq
  repeat' first
    | with_reducible assumption
    | with_reducible apply Keeps.grant
    | with_reducible apply Keeps.inc
    | with_reducible apply Keeps.ioReply
    | with_reducible apply Keeps.postRead
    | with_reducible apply Keeps.postWrite
    | with_reducible apply Keeps.serveNow
    | (fail_if_no_progress (with_reducible (refine Keeps.lit ?_ rfl rfl rfl)))
    | with_reducible (refine Keeps.ite ?_ ?_)
    | split

theorem Keeps.wrbackArrive {r s : State} (h : Keeps r s) c line poison d :
    Keeps r (State.wrbackArrive s c line poison d) := by
  unfold State.wrbackArrive
  repeat' first
    | with_reducible assumption
    | with_reducible apply Keeps.postWrite
    | with_reducible apply Keeps.putEntry
    | with_reducible apply Keeps.send
    | (fail_if_no_progress (with_reducible (refine Keeps.lit ?_ rfl rfl rfl)))
    | with_reducible (refine Keeps.ite ?_ ?_)
    | split

theorem Keeps.deliverMsg {r s : State} (h : Keeps r s) m :
    Keeps r (State.deliverMsg s m) := by
  unfold State.deliverMsg
  repeat' first
    | with_reducible assumption
    | with_reducible apply Keeps.abortArrive
    | with_reducible apply Keeps.ackArrive
    | with_reducible apply Keeps.dataArrive
    | with_reducible apply Keeps.gntArrive
    | with_reducible apply Keeps.noticeArrive
    | with_reducible apply Keeps.pinArrive
    | with_reducible apply Keeps.rspArrive
    | with_reducible apply Keeps.serveReq
    | with_reducible apply Keeps.snoop
    | with_reducible apply Keeps.wrbackArrive
    | (fail_if_no_progress (with_reducible (refine Keeps.lit ?_ rfl rfl rfl)))
    | with_reducible (refine Keeps.ite ?_ ?_)
    | split

theorem Keeps.fillFrom {r s : State} (h : Keeps r s) q c sh :
    Keeps r (State.fillFrom s q c sh) :=
  Keeps.lit h rfl rfl rfl

theorem Keeps.dieRead {r s : State} (h : Keeps r s) q c :
    Keeps r (State.dieRead s q c) := by
  unfold State.dieRead
  repeat' first
    | with_reducible assumption
    | with_reducible apply Keeps.fillFrom
    | with_reducible apply Keeps.hubRead
    | with_reducible apply Keeps.inc
    | with_reducible apply Keeps.setCorr
    | (fail_if_no_progress (with_reducible (refine Keeps.lit ?_ rfl rfl rfl)))
    | with_reducible (refine Keeps.ite ?_ ?_)
    | split

theorem Keeps.memServe {r s : State} (h : Keeps r s) n :
    Keeps r (State.memServe s n) := by
  unfold State.memServe
  repeat' first
    | with_reducible assumption
    | with_reducible apply Keeps.dieRead
    | with_reducible apply Keeps.hubRead
    | with_reducible apply Keeps.ioReply
    | with_reducible apply Keeps.sheetWrite
    | with_reducible apply Keeps.wake
    | (fail_if_no_progress (with_reducible (refine Keeps.lit ?_ rfl rfl rfl)))
    | with_reducible (refine Keeps.ite ?_ ?_)
    | split

theorem Keeps.serveWaiter {r s : State} (h : Keeps r s) line :
    Keeps r (State.serveWaiter s line) := by
  unfold State.serveWaiter
  repeat' first
    | with_reducible assumption
    | with_reducible apply Keeps.serveNow
    | (fail_if_no_progress (with_reducible (refine Keeps.lit ?_ rfl rfl rfl)))
    | with_reducible (refine Keeps.ite ?_ ?_)
    | split

theorem Keeps.snoopWake {r s : State} (h : Keeps r s) c :
    Keeps r (State.snoopWake s c) := by
  unfold State.snoopWake
  repeat' first
    | with_reducible assumption
    | with_reducible apply Keeps.inc
    | with_reducible apply Keeps.wake
    | (fail_if_no_progress (with_reducible (refine Keeps.lit ?_ rfl rfl rfl)))
    | with_reducible (refine Keeps.ite ?_ ?_)
    | split

theorem Keeps.takeHead {r s : State} (h : Keeps r s) ch :
    Keeps r (State.takeHead s ch) :=
  Keeps.lit h rfl rfl rfl

theorem Keeps.pumpOne {r s : State} (h : Keeps r s) line :
    Keeps r (State.pumpOne s line) := by
  unfold State.pumpOne
  repeat' first
    | with_reducible assumption
    | with_reducible apply Keeps.deliverMsg
    | with_reducible apply Keeps.memServe
    | with_reducible apply Keeps.serveWaiter
    | with_reducible apply Keeps.snoopWake
    | with_reducible apply Keeps.takeHead
    | with_reducible (refine Keeps.foldl _ ?_ (fun _ _ _ => ?_))
    | with_reducible (refine Keeps.foldlSnd _ ?_ (fun _ _ _ => ?_))
    | with_reducible (refine Keeps.foldlSnd2 _ ?_ (fun _ _ _ => ?_))
    | (fail_if_no_progress (with_reducible (refine Keeps.lit ?_ rfl rfl rfl)))
    | (intro x; refine Keeps.cut (r := r) x ?_ (fun _ => ?_) <;> [subst x; clear_value x])
    | (intro (x : _ × State); refine Keeps.cut (r := r) x.2 ?_ (fun _ => ?_) <;> [subst x; clear_value x])
    | (intro x; clear_value x)
    | with_reducible (refine Keeps.ite ?_ ?_)
    | split
    | lift_lets
    | with_reducible (refine Keeps.ofSnd (by assumption) ?_)
    | with_reducible (refine Keeps.ofSnd2 (by assumption) ?_)
    | intro

theorem Keeps.pump {r s : State} (h : Keeps r s) line n : Keeps r (State.pump s line n) := by
  induction n generalizing s <;> unfold State.pump
  repeat' first
    | with_reducible assumption
    | with_reducible apply Keeps.pumpOne
    | with_reducible apply_assumption
    | with_reducible (refine Keeps.foldl _ ?_ (fun _ _ _ => ?_))
    | with_reducible (refine Keeps.foldlSnd _ ?_ (fun _ _ _ => ?_))
    | with_reducible (refine Keeps.foldlSnd2 _ ?_ (fun _ _ _ => ?_))
    | (fail_if_no_progress (with_reducible (refine Keeps.lit ?_ rfl rfl rfl)))
    | (intro x; refine Keeps.cut (r := r) x ?_ (fun _ => ?_) <;> [subst x; clear_value x])
    | (intro (x : _ × State); refine Keeps.cut (r := r) x.2 ?_ (fun _ => ?_) <;> [subst x; clear_value x])
    | (intro (x : _ → State); subst x; beta_reduce)
    | (intro (x : _ → _ → State); subst x; beta_reduce)
    | (intro (x : _ → _ × State); subst x; beta_reduce)
    | (intro (x : _ → _ → _ × State); subst x; beta_reduce)
    | (intro (x : MemState); subst x)
    | (intro x; clear_value x)
    | with_reducible (refine Keeps.ite ?_ ?_)
    | split
    | lift_lets
    | with_reducible (refine Keeps.ofSnd (by assumption) ?_)
    | with_reducible (refine Keeps.ofSnd2 (by assumption) ?_)
    | intro

theorem Keeps.agentLine {r s : State} (h : Keeps r s) r' :
    Keeps r (State.agentLine s r').2 := by
  unfold State.agentLine
  repeat' first
    | with_reducible assumption
    | with_reducible apply Keeps.pump
    | with_reducible apply Keeps.serveReq
    | with_reducible (refine Keeps.foldl _ ?_ (fun _ _ _ => ?_))
    | with_reducible (refine Keeps.foldlSnd _ ?_ (fun _ _ _ => ?_))
    | with_reducible (refine Keeps.foldlSnd2 _ ?_ (fun _ _ _ => ?_))
    | (fail_if_no_progress (with_reducible (refine Keeps.lit ?_ rfl rfl rfl)))
    | (intro x; refine Keeps.cut (r := r) x ?_ (fun _ => ?_) <;> [subst x; clear_value x])
    | (intro (x : _ × State); refine Keeps.cut (r := r) x.2 ?_ (fun _ => ?_) <;> [subst x; clear_value x])
    | (intro (x : _ → State); subst x; beta_reduce)
    | (intro (x : _ → _ → State); subst x; beta_reduce)
    | (intro (x : _ → _ × State); subst x; beta_reduce)
    | (intro (x : _ → _ → _ × State); subst x; beta_reduce)
    | (intro (x : MemState); subst x)
    | (intro x; clear_value x)
    | with_reducible (refine Keeps.ite ?_ ?_)
    | split
    | lift_lets
    | with_reducible (refine Keeps.ofSnd (by assumption) ?_)
    | with_reducible (refine Keeps.ofSnd2 (by assumption) ?_)
    | intro

theorem Keeps.maskCluster {r s : State} (h : Keeps r s) c :
    Keeps r (State.maskCluster s c) := by
  unfold State.maskCluster
  repeat' first
    | with_reducible assumption
    | with_reducible apply Keeps.maskEntry
    | with_reducible apply Keeps.putBit
    | with_reducible apply Keeps.rspArrive
    | with_reducible (refine Keeps.foldl _ ?_ (fun _ _ _ => ?_))
    | with_reducible (refine Keeps.foldlSnd _ ?_ (fun _ _ _ => ?_))
    | with_reducible (refine Keeps.foldlSnd2 _ ?_ (fun _ _ _ => ?_))
    | (fail_if_no_progress (with_reducible (refine Keeps.lit ?_ rfl rfl rfl)))
    | (intro x; refine Keeps.cut (r := r) x ?_ (fun _ => ?_) <;> [subst x; clear_value x])
    | (intro (x : _ × State); refine Keeps.cut (r := r) x.2 ?_ (fun _ => ?_) <;> [subst x; clear_value x])
    | (intro x; clear_value x)
    | with_reducible (refine Keeps.ite ?_ ?_)
    | split
    | lift_lets
    | with_reducible (refine Keeps.ofSnd (by assumption) ?_)
    | with_reducible (refine Keeps.ofSnd2 (by assumption) ?_)
    | intro

theorem Keeps.devRead {r s : State} (h : Keeps r s) agent secure pa len :
    Keeps r (State.devRead s agent secure pa len).2 := by
  unfold State.devRead
  repeat' first
    | with_reducible assumption
    | with_reducible apply Keeps.agentLine
    | with_reducible apply Keeps.countDenial
    | with_reducible (refine Keeps.foldl _ ?_ (fun _ _ _ => ?_))
    | with_reducible (refine Keeps.foldlSnd _ ?_ (fun _ _ _ => ?_))
    | with_reducible (refine Keeps.foldlSnd2 _ ?_ (fun _ _ _ => ?_))
    | (fail_if_no_progress (with_reducible (refine Keeps.lit ?_ rfl rfl rfl)))
    | (intro x; refine Keeps.cut (r := r) x ?_ (fun _ => ?_) <;> [subst x; clear_value x])
    | (intro (x : _ × State); refine Keeps.cut (r := r) x.2 ?_ (fun _ => ?_) <;> [subst x; clear_value x])
    | (intro x; clear_value x)
    | with_reducible (refine Keeps.ite ?_ ?_)
    | split
    | lift_lets
    | with_reducible (refine Keeps.ofSnd (by assumption) ?_)
    | with_reducible (refine Keeps.ofSnd2 (by assumption) ?_)
    | intro

theorem Keeps.devWrite {r s : State} (h : Keeps r s) agent secure pa data poison :
    Keeps r (State.devWrite s agent secure pa data poison).2 := by
  unfold State.devWrite
  repeat' first
    | with_reducible assumption
    | with_reducible apply Keeps.agentLine
    | with_reducible apply Keeps.countDenial
    | with_reducible (refine Keeps.foldl _ ?_ (fun _ _ _ => ?_))
    | with_reducible (refine Keeps.foldlSnd _ ?_ (fun _ _ _ => ?_))
    | with_reducible (refine Keeps.foldlSnd2 _ ?_ (fun _ _ _ => ?_))
    | (fail_if_no_progress (with_reducible (refine Keeps.lit ?_ rfl rfl rfl)))
    | (intro x; refine Keeps.cut (r := r) x ?_ (fun _ => ?_) <;> [subst x; clear_value x])
    | (intro (x : _ × State); refine Keeps.cut (r := r) x.2 ?_ (fun _ => ?_) <;> [subst x; clear_value x])
    | (intro x; clear_value x)
    | with_reducible (refine Keeps.ite ?_ ?_)
    | split
    | lift_lets
    | with_reducible (refine Keeps.ofSnd (by assumption) ?_)
    | with_reducible (refine Keeps.ofSnd2 (by assumption) ?_)
    | intro

theorem Keeps.acksLost {r s : State} (h : Keeps r s) n :
    Keeps r (State.acksLost s n) :=
  Keeps.lit h rfl rfl rfl

theorem Keeps.clearProof {r s : State} (h : Keeps r s) k :
    Keeps r (State.clearProof s k) := by
  unfold State.clearProof
  repeat' first
    | with_reducible assumption
    | with_reducible apply Keeps.releaseHeld
    | with_reducible apply Keeps.setHart
    | with_reducible apply Keeps.unpin
    | with_reducible apply Keeps.wr
    | (fail_if_no_progress (with_reducible (refine Keeps.lit ?_ rfl rfl rfl)))
    | with_reducible (refine Keeps.ite ?_ ?_)
    | split

theorem Keeps.groupAbort {r s : State} (h : Keeps r s) g core cause other :
    Keeps r (State.groupAbort s g core cause other) := by
  unfold State.groupAbort
  repeat' first
    | with_reducible assumption
    | with_reducible apply Keeps.proofAbort
    | with_reducible apply Keeps.wr
    | with_reducible (refine Keeps.foldl _ ?_ (fun _ _ _ => ?_))
    | with_reducible (refine Keeps.foldlSnd _ ?_ (fun _ _ _ => ?_))
    | with_reducible (refine Keeps.foldlSnd2 _ ?_ (fun _ _ _ => ?_))
    | (fail_if_no_progress (with_reducible (refine Keeps.lit ?_ rfl rfl rfl)))
    | (intro x; refine Keeps.cut (r := r) x ?_ (fun _ => ?_) <;> [subst x; clear_value x])
    | (intro (x : _ × State); refine Keeps.cut (r := r) x.2 ?_ (fun _ => ?_) <;> [subst x; clear_value x])
    | (intro x; clear_value x)
    | with_reducible (refine Keeps.ite ?_ ?_)
    | split
    | lift_lets
    | with_reducible (refine Keeps.ofSnd (by assumption) ?_)
    | with_reducible (refine Keeps.ofSnd2 (by assumption) ?_)
    | intro

theorem Keeps.endProof {r s : State} (h : Keeps r s) k :
    Keeps r (State.endProof s k) := by
  unfold State.endProof
  repeat' first
    | with_reducible assumption
    | with_reducible apply Keeps.clearProof
    | with_reducible apply Keeps.groupAbort
    | with_reducible apply Keeps.proofAbort
    | (fail_if_no_progress (with_reducible (refine Keeps.lit ?_ rfl rfl rfl)))
    | with_reducible (refine Keeps.ite ?_ ?_)
    | split

theorem Keeps.coreHeld {r s : State} (h : Keeps r s) k :
    Keeps r (State.coreHeld s k) := by
  unfold State.coreHeld
  repeat' first
    | with_reducible assumption
    | with_reducible apply Keeps.endProof
    | with_reducible apply Keeps.setHart
    | with_reducible apply Keeps.wr
    | (fail_if_no_progress (with_reducible (refine Keeps.lit ?_ rfl rfl rfl)))
    | with_reducible (refine Keeps.ite ?_ ?_)
    | split

theorem Keeps.hubCorrect {r s : State} (h : Keeps r s) e :
    Keeps r (State.hubCorrect s e) := by
  unfold State.hubCorrect
  repeat' first
    | with_reducible assumption
    | with_reducible apply Keeps.countOutcome
    | with_reducible apply Keeps.inc
    | with_reducible apply Keeps.putSheet
    | with_reducible apply Keeps.setCorr
    | (fail_if_no_progress (with_reducible (refine Keeps.lit ?_ rfl rfl rfl)))
    | with_reducible (refine Keeps.ite ?_ ?_)
    | split

theorem Keeps.corrLost {r s : State} (h : Keeps r s) n :
    Keeps r (State.corrLost s n) := by
  unfold State.corrLost
  repeat' first
    | with_reducible assumption
    | with_reducible apply Keeps.hubCorrect
    | with_reducible (refine Keeps.foldl _ ?_ (fun _ _ _ => ?_))
    | with_reducible (refine Keeps.foldlSnd _ ?_ (fun _ _ _ => ?_))
    | with_reducible (refine Keeps.foldlSnd2 _ ?_ (fun _ _ _ => ?_))
    | (fail_if_no_progress (with_reducible (refine Keeps.lit ?_ rfl rfl rfl)))
    | (intro x; refine Keeps.cut (r := r) x ?_ (fun _ => ?_) <;> [subst x; clear_value x])
    | (intro (x : _ × State); refine Keeps.cut (r := r) x.2 ?_ (fun _ => ?_) <;> [subst x; clear_value x])
    | (intro x; clear_value x)
    | with_reducible (refine Keeps.ite ?_ ?_)
    | split
    | lift_lets
    | with_reducible (refine Keeps.ofSnd (by assumption) ?_)
    | with_reducible (refine Keeps.ofSnd2 (by assumption) ?_)
    | intro

theorem Keeps.ioLoad {r s : State} (h : Keeps r s) k a v :
    Keeps r (State.ioLoad s k a v) := by
  unfold State.ioLoad
  repeat' first
    | with_reducible assumption
    | with_reducible apply Keeps.retire
    | with_reducible apply Keeps.setHart
    | (fail_if_no_progress (with_reducible (refine Keeps.lit ?_ rfl rfl rfl)))
    | with_reducible (refine Keeps.ite ?_ ?_)
    | split

theorem Keeps.ioDone {r s : State} (h : Keeps r s) k data :
    Keeps r (State.ioDone s k data) := by
  unfold State.ioDone
  repeat' first
    | with_reducible assumption
    | with_reducible apply Keeps.exception
    | with_reducible apply Keeps.ioLoad
    | with_reducible apply Keeps.retire
    | with_reducible apply Keeps.setHart
    | (fail_if_no_progress (with_reducible (refine Keeps.lit ?_ rfl rfl rfl)))
    | with_reducible (refine Keeps.ite ?_ ?_)
    | split

theorem Keeps.guestLost {r s : State} (h : Keeps r s) g :
    Keeps r (State.guestLost s g) := by
  unfold State.guestLost
  repeat' first
    | with_reducible assumption
    | with_reducible apply Keeps.ioDone
    | with_reducible apply Keeps.setGuest
    | with_reducible apply Keeps.wr
    | with_reducible (refine Keeps.foldl _ ?_ (fun _ _ _ => ?_))
    | with_reducible (refine Keeps.foldlSnd _ ?_ (fun _ _ _ => ?_))
    | with_reducible (refine Keeps.foldlSnd2 _ ?_ (fun _ _ _ => ?_))
    | (fail_if_no_progress (with_reducible (refine Keeps.lit ?_ rfl rfl rfl)))
    | (intro x; refine Keeps.cut (r := r) x ?_ (fun _ => ?_) <;> [subst x; clear_value x])
    | (intro (x : _ × State); refine Keeps.cut (r := r) x.2 ?_ (fun _ => ?_) <;> [subst x; clear_value x])
    | (intro x; clear_value x)
    | with_reducible (refine Keeps.ite ?_ ?_)
    | split
    | lift_lets
    | with_reducible (refine Keeps.ofSnd (by assumption) ?_)
    | with_reducible (refine Keeps.ofSnd2 (by assumption) ?_)
    | intro

theorem Keeps.dieLost {r s : State} (h : Keeps r s) n _fence :
    Keeps r (State.dieLost s n _fence) := by
  unfold State.dieLost
  repeat' first
    | with_reducible assumption
    | with_reducible apply Keeps.acksLost
    | with_reducible apply Keeps.corrLost
    | with_reducible apply Keeps.groupAbort
    | with_reducible apply Keeps.guestLost
    | with_reducible apply Keeps.maskCluster
    | with_reducible apply Keeps.proofAbort
    | with_reducible (refine Keeps.foldl _ ?_ (fun _ _ _ => ?_))
    | with_reducible (refine Keeps.foldlSnd _ ?_ (fun _ _ _ => ?_))
    | with_reducible (refine Keeps.foldlSnd2 _ ?_ (fun _ _ _ => ?_))
    | (fail_if_no_progress (with_reducible (refine Keeps.lit ?_ rfl rfl rfl)))
    | (intro x; refine Keeps.cut (r := r) x ?_ (fun _ => ?_) <;> [subst x; clear_value x])
    | (intro (x : _ × State); refine Keeps.cut (r := r) x.2 ?_ (fun _ => ?_) <;> [subst x; clear_value x])
    | (intro x; clear_value x)
    | with_reducible (refine Keeps.ite ?_ ?_)
    | split
    | lift_lets
    | with_reducible (refine Keeps.ofSnd (by assumption) ?_)
    | with_reducible (refine Keeps.ofSnd2 (by assumption) ?_)
    | intro

theorem Keeps.dieUnmask {r s : State} (h : Keeps r s) n :
    Keeps r (State.dieUnmask s n) := by
  unfold State.dieUnmask
  repeat' first
    | with_reducible assumption
    | with_reducible apply Keeps.putBit
    | with_reducible (refine Keeps.foldl _ ?_ (fun _ _ _ => ?_))
    | with_reducible (refine Keeps.foldlSnd _ ?_ (fun _ _ _ => ?_))
    | with_reducible (refine Keeps.foldlSnd2 _ ?_ (fun _ _ _ => ?_))
    | (fail_if_no_progress (with_reducible (refine Keeps.lit ?_ rfl rfl rfl)))
    | (intro x; refine Keeps.cut (r := r) x ?_ (fun _ => ?_) <;> [subst x; clear_value x])
    | (intro (x : _ × State); refine Keeps.cut (r := r) x.2 ?_ (fun _ => ?_) <;> [subst x; clear_value x])
    | (intro x; clear_value x)
    | with_reducible (refine Keeps.ite ?_ ?_)
    | split
    | lift_lets
    | with_reducible (refine Keeps.ofSnd (by assumption) ?_)
    | with_reducible (refine Keeps.ofSnd2 (by assumption) ?_)
    | intro

theorem Keeps.ioPoison {r s : State} (h : Keeps r s) k :
    Keeps r (State.ioPoison s k) := by
  unfold State.ioPoison
  repeat' first
    | with_reducible assumption
    | with_reducible apply Keeps.exception
    | with_reducible apply Keeps.setHart
    | (fail_if_no_progress (with_reducible (refine Keeps.lit ?_ rfl rfl rfl)))
    | with_reducible (refine Keeps.ite ?_ ?_)
    | split

theorem Keeps.effSet {r s : State} (h : Keeps r s) :
    Keeps r (State.effSet s) :=
  Keeps.lit h rfl rfl rfl

theorem Keeps.haltNow {r s : State} (h : Keeps r s) k :
    Keeps r (State.haltNow s k) := by
  unfold State.haltNow
  repeat' first
    | with_reducible assumption
    | with_reducible apply Keeps.endMiss
    | with_reducible apply Keeps.raise
    | with_reducible apply Keeps.setHart
    | with_reducible apply Keeps.wr
    | (fail_if_no_progress (with_reducible (refine Keeps.lit ?_ rfl rfl rfl)))
    | with_reducible (refine Keeps.ite ?_ ?_)
    | split

theorem Keeps.resumeHart {r s : State} (h : Keeps r s) k :
    Keeps r (State.resumeHart s k) := by
  unfold State.resumeHart
  repeat' first
    | with_reducible assumption
    | with_reducible apply Keeps.wr
    | (fail_if_no_progress (with_reducible (refine Keeps.lit ?_ rfl rfl rfl)))
    | with_reducible (refine Keeps.ite ?_ ?_)
    | split

theorem Keeps.takeHalt {r s : State} (h : Keeps r s) k :
    Keeps r (State.takeHalt s k) := by
  unfold State.takeHalt
  repeat' first
    | with_reducible assumption
    | with_reducible apply Keeps.haltNow
    | with_reducible apply Keeps.proofAbort
    | (fail_if_no_progress (with_reducible (refine Keeps.lit ?_ rfl rfl rfl)))
    | with_reducible (refine Keeps.ite ?_ ?_)
    | split

theorem Keeps.shareSettle {r s : State} (h : Keeps r s) sl :
    Keeps r (State.shareSettle s sl) := by
  unfold State.shareSettle
  repeat' first
    | with_reducible assumption
    | with_reducible apply Keeps.wr
    | (fail_if_no_progress (with_reducible (refine Keeps.lit ?_ rfl rfl rfl)))
    | with_reducible (refine Keeps.ite ?_ ?_)
    | split

theorem Keeps.stpBusy {r s : State} (h : Keeps r s) :
    Keeps r (State.stpBusy s) :=
  Keeps.lit h rfl rfl rfl

theorem Keeps.engineFree {r s : State} (h : Keeps r s) j :
    Keeps r (State.engineFree s j) := by
  unfold State.engineFree
  repeat' first
    | with_reducible assumption
    | with_reducible apply Keeps.shareSettle
    | with_reducible apply Keeps.stpBusy
    | with_reducible apply Keeps.wr
    | (fail_if_no_progress (with_reducible (refine Keeps.lit ?_ rfl rfl rfl)))
    | with_reducible (refine Keeps.ite ?_ ?_)
    | split

theorem Keeps.abandonUnits {r s : State} (h : Keeps r s) r' :
    Keeps r (State.abandonUnits s r') := by
  unfold State.abandonUnits
  repeat' first
    | with_reducible assumption
    | with_reducible apply Keeps.engineFree
    | with_reducible apply Keeps.inc
    | with_reducible apply Keeps.raise
    | with_reducible apply Keeps.when
    | with_reducible (refine Keeps.foldl _ ?_ (fun _ _ _ => ?_))
    | with_reducible (refine Keeps.foldlSnd _ ?_ (fun _ _ _ => ?_))
    | with_reducible (refine Keeps.foldlSnd2 _ ?_ (fun _ _ _ => ?_))
    | (fail_if_no_progress (with_reducible (refine Keeps.lit ?_ rfl rfl rfl)))
    | (intro x; refine Keeps.cut (r := r) x ?_ (fun _ => ?_) <;> [subst x; clear_value x])
    | (intro (x : _ × State); refine Keeps.cut (r := r) x.2 ?_ (fun _ => ?_) <;> [subst x; clear_value x])
    | (intro x; clear_value x)
    | with_reducible (refine Keeps.ite ?_ ?_)
    | split
    | lift_lets
    | with_reducible (refine Keeps.ofSnd (by assumption) ?_)
    | with_reducible (refine Keeps.ofSnd2 (by assumption) ?_)
    | intro

theorem Keeps.ringGo {r s : State} (h : Keeps r s) r' st :
    Keeps r (State.ringGo s r' st) := by
  unfold State.ringGo
  repeat' first
    | with_reducible assumption
    | with_reducible apply Keeps.putBit
    | with_reducible apply Keeps.wr
    | (fail_if_no_progress (with_reducible (refine Keeps.lit ?_ rfl rfl rfl)))
    | with_reducible (refine Keeps.ite ?_ ?_)
    | split

theorem Keeps.halt {r s : State} (h : Keeps r s) r' cause status :
    Keeps r (State.halt s r' cause status) := by
  unfold State.halt
  repeat' first
    | with_reducible assumption
    | with_reducible apply Keeps.abandonUnits
    | with_reducible apply Keeps.raise
    | with_reducible apply Keeps.ringGo
    | with_reducible apply Keeps.setRing
    | with_reducible apply Keeps.wr
    | (fail_if_no_progress (with_reducible (refine Keeps.lit ?_ rfl rfl rfl)))
    | with_reducible (refine Keeps.ite ?_ ?_)
    | split

theorem Keeps.failHalt {r s : State} (h : Keeps r s) r' cause status :
    Keeps r (State.failHalt s r' cause status) := by
  unfold State.failHalt
  repeat' first
    | with_reducible assumption
    | with_reducible apply Keeps.halt
    | (fail_if_no_progress (with_reducible (refine Keeps.lit ?_ rfl rfl rfl)))
    | with_reducible (refine Keeps.ite ?_ ?_)
    | split

theorem Keeps.finish {r s : State} (h : Keeps r s) r' status r0 r1 r2 :
    Keeps r (State.finish s r' status r0 r1 r2) := by
  unfold State.finish
  repeat' first
    | with_reducible assumption
    | with_reducible apply Keeps.setRing
    | (fail_if_no_progress (with_reducible (refine Keeps.lit ?_ rfl rfl rfl)))
    | (intro x; refine Keeps.cut (r := r) x ?_ (fun _ => ?_) <;> [subst x; clear_value x])
    | (intro (x : _ × State); refine Keeps.cut (r := r) x.2 ?_ (fun _ => ?_) <;> [subst x; clear_value x])
    | (intro x; clear_value x)
    | with_reducible (refine Keeps.ite ?_ ?_)
    | split
    | lift_lets

theorem Keeps.haltPort {r s : State} (h : Keeps r s) p :
    Keeps r (State.haltPort s p) := by
  unfold State.haltPort
  repeat' first
    | with_reducible assumption
    | with_reducible apply Keeps.halt
    | with_reducible (refine Keeps.foldl _ ?_ (fun _ _ _ => ?_))
    | with_reducible (refine Keeps.foldlSnd _ ?_ (fun _ _ _ => ?_))
    | with_reducible (refine Keeps.foldlSnd2 _ ?_ (fun _ _ _ => ?_))
    | (fail_if_no_progress (with_reducible (refine Keeps.lit ?_ rfl rfl rfl)))
    | (intro x; refine Keeps.cut (r := r) x ?_ (fun _ => ?_) <;> [subst x; clear_value x])
    | (intro (x : _ × State); refine Keeps.cut (r := r) x.2 ?_ (fun _ => ?_) <;> [subst x; clear_value x])
    | (intro x; clear_value x)
    | with_reducible (refine Keeps.ite ?_ ?_)
    | split
    | lift_lets
    | with_reducible (refine Keeps.ofSnd (by assumption) ?_)
    | with_reducible (refine Keeps.ofSnd2 (by assumption) ?_)
    | intro

theorem Keeps.ringSignal {r s : State} (h : Keeps r s) r' :
    Keeps r (State.ringSignal s r') := by
  unfold State.ringSignal
  repeat' first
    | with_reducible assumption
    | with_reducible apply Keeps.msix
    | with_reducible apply Keeps.setRing
    | (fail_if_no_progress (with_reducible (refine Keeps.lit ?_ rfl rfl rfl)))
    | with_reducible (refine Keeps.ite ?_ ?_)
    | split

theorem Keeps.start {r s : State} (h : Keeps r s) r' :
    Keeps r (State.start s r') := by
  unfold State.start
  repeat' first
    | with_reducible assumption
    | with_reducible apply Keeps.setRing
    | (fail_if_no_progress (with_reducible (refine Keeps.lit ?_ rfl rfl rfl)))
    | (intro x; refine Keeps.cut (r := r) x ?_ (fun _ => ?_) <;> [subst x; clear_value x])
    | (intro (x : _ × State); refine Keeps.cut (r := r) x.2 ?_ (fun _ => ?_) <;> [subst x; clear_value x])
    | (intro x; clear_value x)
    | with_reducible (refine Keeps.ite ?_ ?_)
    | split
    | lift_lets

theorem Keeps.setCfg {r s : State} (h : Keeps r s) p off v :
    Keeps r (State.setCfg s p off v) :=
  Keeps.lit h rfl rfl rfl

theorem Keeps.aerCor {r s : State} (h : Keeps r s) p bitNo :
    Keeps r (State.aerCor s p bitNo) := by
  unfold State.aerCor
  repeat' first
    | with_reducible assumption
    | with_reducible apply Keeps.inc
    | with_reducible apply Keeps.raise
    | with_reducible apply Keeps.setCfg
    | (fail_if_no_progress (with_reducible (refine Keeps.lit ?_ rfl rfl rfl)))
    | with_reducible (refine Keeps.ite ?_ ?_)
    | split

end Sys2Proof.Machine
end

