-- ==== Sys2Proof/Laws/KeepsHost.lean ====
section
/-!
SUPPORT. Each operation of PcieOps, Alern, Resets, Power, Clocks, EventCtl, Pcie, Rings, EvbOps keeps the relation
`Keeps` of its state to an earlier one.
-/

set_option Elab.async false

set_option linter.all false

namespace Sys2Proof.Machine

theorem Keeps.headerLog {r s : State} (h : Keeps r s) p bitNo hdr :
    Keeps r (State.headerLog s p bitNo hdr) := by
  unfold State.headerLog
  repeat' first
    | with_reducible assumption
    | with_reducible apply Keeps.setCfg
    | with_reducible (refine Keeps.foldl _ ?_ (fun _ _ _ => ?_))
    | with_reducible (refine Keeps.foldlSnd _ ?_ (fun _ _ _ => ?_))
    | with_reducible (refine Keeps.foldlSnd2 _ ?_ (fun _ _ _ => ?_))
    | (fail_if_no_progress (with_reducible (refine Keeps.lit ?_ rfl rfl rfl)))
    | (intro x; refine Keeps.cut (r := r) x ?_ (fun _ => ?_) <;> [subst x; clear_value x])
    | (intro (x : _ × State); refine Keeps.cut (r := r) x.2 ?_ (fun _ => ?_) <;> [subst x; clear_value x])
    | (intro x; clear_value x)
    | with_reducible (refine Keeps.ite ?_ ?_)
    | split
    | lift_lets
    | with_reducible (refine Keeps.ofSnd (by assumption) ?_)
    | with_reducible (refine Keeps.ofSnd2 (by assumption) ?_)
    | intro

theorem Keeps.aerUnc {r s : State} (h : Keeps r s) p e hdr :
    Keeps r (State.aerUnc s p e hdr) := by
  unfold State.aerUnc
  repeat' first
    | with_reducible assumption
    | with_reducible apply Keeps.headerLog
    | with_reducible apply Keeps.inc
    | with_reducible apply Keeps.raise
    | with_reducible apply Keeps.setCfg
    | (fail_if_no_progress (with_reducible (refine Keeps.lit ?_ rfl rfl rfl)))
    | with_reducible (refine Keeps.ite ?_ ?_)
    | split

theorem Keeps.clearMsix {r s : State} (h : Keeps r s) p :
    Keeps r (State.clearMsix s p) :=
  Keeps.lit h rfl rfl rfl

theorem Keeps.failCoreReads {r s : State} (h : Keeps r s) p :
    Keeps r (State.failCoreReads s p) := by
  unfold State.failCoreReads
  repeat' first
    | with_reducible assumption
    | with_reducible apply Keeps.ioDone
    | with_reducible (refine Keeps.foldl _ ?_ (fun _ _ _ => ?_))
    | with_reducible (refine Keeps.foldlSnd _ ?_ (fun _ _ _ => ?_))
    | with_reducible (refine Keeps.foldlSnd2 _ ?_ (fun _ _ _ => ?_))
    | (fail_if_no_progress (with_reducible (refine Keeps.lit ?_ rfl rfl rfl)))
    | (intro x; refine Keeps.cut (r := r) x ?_ (fun _ => ?_) <;> [subst x; clear_value x])
    | (intro (x : _ × State); refine Keeps.cut (r := r) x.2 ?_ (fun _ => ?_) <;> [subst x; clear_value x])
    | (intro x; clear_value x)
    | with_reducible (refine Keeps.ite ?_ ?_)
    | split
    | lift_lets
    | with_reducible (refine Keeps.ofSnd (by assumption) ?_)
    | with_reducible (refine Keeps.ofSnd2 (by assumption) ?_)
    | intro

theorem Keeps.functionReset {r s : State} (h : Keeps r s) p keepBar :
    Keeps r (State.functionReset s p keepBar) := by
  unfold State.functionReset
  repeat' first
    | with_reducible assumption
    | with_reducible apply Keeps.clearMsix
    | with_reducible apply Keeps.failCoreReads
    | with_reducible apply Keeps.haltPort
    | with_reducible apply Keeps.raise
    | with_reducible apply Keeps.setPort
    | with_reducible apply Keeps.wr
    | (fail_if_no_progress (with_reducible (refine Keeps.lit ?_ rfl rfl rfl)))
    | with_reducible (refine Keeps.ite ?_ ?_)
    | split

theorem Keeps.conventionalReset {r s : State} (h : Keeps r s) p :
    Keeps r (State.conventionalReset s p) := by
  unfold State.conventionalReset
  repeat' first
    | with_reducible assumption
    | with_reducible apply Keeps.functionReset
    | with_reducible apply Keeps.setPort
    | (fail_if_no_progress (with_reducible (refine Keeps.lit ?_ rfl rfl rfl)))
    | with_reducible (refine Keeps.ite ?_ ?_)
    | split

theorem Keeps.xlatRange {r s : State} (h : Keeps r s) p owner pasid addr len write :
    Keeps r (State.xlatRange s p owner pasid addr len write).2 := by
  unfold State.xlatRange
  repeat' first
    | with_reducible assumption
    | with_reducible apply Keeps.sendTlp
    | with_reducible apply Keeps.setPort
    | with_reducible (refine Keeps.foldl _ ?_ (fun _ _ _ => ?_))
    | with_reducible (refine Keeps.foldlSnd _ ?_ (fun _ _ _ => ?_))
    | with_reducible (refine Keeps.foldlSnd2 _ ?_ (fun _ _ _ => ?_))
    | (fail_if_no_progress (with_reducible (refine Keeps.lit ?_ rfl rfl rfl)))
    | (intro x; refine Keeps.cut (r := r) x ?_ (fun _ => ?_) <;> [subst x; clear_value x])
    | (intro (x : _ × State); refine Keeps.cut (r := r) x.2 ?_ (fun _ => ?_) <;> [subst x; clear_value x])
    | (intro x; clear_value x)
    | with_reducible (refine Keeps.ite ?_ ?_)
    | split
    | lift_lets
    | with_reducible (refine Keeps.ofSnd (by assumption) ?_)
    | with_reducible (refine Keeps.ofSnd2 (by assumption) ?_)
    | intro

theorem Keeps.dmaRead {r s : State} (h : Keeps r s) p owner sl addr len ro :
    Keeps r (State.dmaRead s p owner sl addr len ro) := by
  unfold State.dmaRead
  repeat' first
    | with_reducible assumption
    | with_reducible apply Keeps.sendTlp
    | with_reducible apply Keeps.setPort
    | with_reducible apply Keeps.xlatRange
    | (fail_if_no_progress (with_reducible (refine Keeps.lit ?_ rfl rfl rfl)))
    | with_reducible (refine Keeps.ite ?_ ?_)
    | split

theorem Keeps.coreDma {r s : State} (h : Keeps r s) k :
    Keeps r (State.coreDma s k) := by
  unfold State.coreDma
  repeat' first
    | with_reducible assumption
    | with_reducible apply Keeps.dmaRead
    | with_reducible apply Keeps.ioDone
    | (fail_if_no_progress (with_reducible (refine Keeps.lit ?_ rfl rfl rfl)))
    | with_reducible (refine Keeps.ite ?_ ?_)
    | split

theorem Keeps.dmaWrite {r s : State} (h : Keeps r s) p sl addr data ro :
    Keeps r (State.dmaWrite s p sl addr data ro) :=
  Keeps.lit h rfl rfl rfl

theorem Keeps.linkDown {r s : State} (h : Keeps r s) p :
    Keeps r (State.linkDown s p) := by
  unfold State.linkDown
  repeat' first
    | with_reducible assumption
    | with_reducible apply Keeps.inc
    | with_reducible apply Keeps.raise
    | with_reducible apply Keeps.wr
    | (fail_if_no_progress (with_reducible (refine Keeps.lit ?_ rfl rfl rfl)))
    | with_reducible (refine Keeps.ite ?_ ?_)
    | split

theorem Keeps.alnSummary {r s : State} (h : Keeps r s) n :
    Keeps r (State.alnSummary s n) := by
  unfold State.alnSummary
  repeat' first
    | with_reducible assumption
    | with_reducible apply Keeps.putBit
    | with_reducible apply Keeps.wr
    | (fail_if_no_progress (with_reducible (refine Keeps.lit ?_ rfl rfl rfl)))
    | with_reducible (refine Keeps.ite ?_ ?_)
    | split

theorem Keeps.alnGo {r s : State} (h : Keeps r s) lp st :
    Keeps r (State.alnGo s lp st) := by
  unfold State.alnGo
  repeat' first
    | with_reducible assumption
    | with_reducible apply Keeps.alnSummary
    | with_reducible apply Keeps.wr
    | (fail_if_no_progress (with_reducible (refine Keeps.lit ?_ rfl rfl rfl)))
    | with_reducible (refine Keeps.ite ?_ ?_)
    | split

theorem Keeps.putBlock {r s : State} (h : Keeps r s) f n blk :
    Keeps r (State.putBlock s f n blk) := by
  unfold State.putBlock
  repeat' first
    | with_reducible assumption
    | with_reducible apply Keeps.wr
    | with_reducible (refine Keeps.foldl _ ?_ (fun _ _ _ => ?_))
    | with_reducible (refine Keeps.foldlSnd _ ?_ (fun _ _ _ => ?_))
    | with_reducible (refine Keeps.foldlSnd2 _ ?_ (fun _ _ _ => ?_))
    | (fail_if_no_progress (with_reducible (refine Keeps.lit ?_ rfl rfl rfl)))
    | (intro x; refine Keeps.cut (r := r) x ?_ (fun _ => ?_) <;> [subst x; clear_value x])
    | (intro (x : _ × State); refine Keeps.cut (r := r) x.2 ?_ (fun _ => ?_) <;> [subst x; clear_value x])
    | (intro x; clear_value x)
    | with_reducible (refine Keeps.ite ?_ ?_)
    | split
    | lift_lets
    | with_reducible (refine Keeps.ofSnd (by assumption) ?_)
    | with_reducible (refine Keeps.ofSnd2 (by assumption) ?_)
    | intro

theorem Keeps.resetSeen {r s : State} (h : Keeps r s) lp :
    Keeps r (State.resetSeen s lp) := by
  unfold State.resetSeen
  repeat' first
    | with_reducible assumption
    | with_reducible apply Keeps.dieLost
    | with_reducible apply Keeps.raise
    | (fail_if_no_progress (with_reducible (refine Keeps.lit ?_ rfl rfl rfl)))
    | with_reducible (refine Keeps.ite ?_ ?_)
    | split

theorem Keeps.admitDie {r s : State} (h : Keeps r s) lp :
    Keeps r (State.admitDie s lp) := by
  unfold State.admitDie
  repeat' first
    | with_reducible assumption
    | with_reducible apply Keeps.alnGo
    | with_reducible apply Keeps.dieUnmask
    | with_reducible apply Keeps.putBlock
    | with_reducible apply Keeps.resetSeen
    | with_reducible apply Keeps.setAln
    | with_reducible apply Keeps.wr
    | (fail_if_no_progress (with_reducible (refine Keeps.lit ?_ rfl rfl rfl)))
    | with_reducible (refine Keeps.ite ?_ ?_)
    | split

theorem Keeps.alnBase {r s : State} (h : Keeps r s) lp :
    Keeps r (State.alnBase s lp) := by
  unfold State.alnBase
  repeat' first
    | with_reducible assumption
    | with_reducible apply Keeps.alnGo
    | with_reducible apply Keeps.setAln
    | with_reducible apply Keeps.wr
    | (fail_if_no_progress (with_reducible (refine Keeps.lit ?_ rfl rfl rfl)))
    | with_reducible (refine Keeps.ite ?_ ?_)
    | split

theorem Keeps.alnAutoTrain {r s : State} (h : Keeps r s) :
    Keeps r (State.alnAutoTrain s) := by
  unfold State.alnAutoTrain
  repeat' first
    | with_reducible assumption
    | with_reducible apply Keeps.alnBase
    | with_reducible apply Keeps.alnGo
    | with_reducible apply Keeps.putBit
    | with_reducible (refine Keeps.foldl _ ?_ (fun _ _ _ => ?_))
    | with_reducible (refine Keeps.foldlSnd _ ?_ (fun _ _ _ => ?_))
    | with_reducible (refine Keeps.foldlSnd2 _ ?_ (fun _ _ _ => ?_))
    | (fail_if_no_progress (with_reducible (refine Keeps.lit ?_ rfl rfl rfl)))
    | (intro x; refine Keeps.cut (r := r) x ?_ (fun _ => ?_) <;> [subst x; clear_value x])
    | (intro (x : _ × State); refine Keeps.cut (r := r) x.2 ?_ (fun _ => ?_) <;> [subst x; clear_value x])
    | (intro x; clear_value x)
    | with_reducible (refine Keeps.ite ?_ ?_)
    | split
    | lift_lets
    | with_reducible (refine Keeps.ofSnd (by assumption) ?_)
    | with_reducible (refine Keeps.ofSnd2 (by assumption) ?_)
    | intro

theorem Keeps.alnCfg {r s : State} (h : Keeps r s) v :
    Keeps r (State.alnCfg s v) := by
  unfold State.alnCfg
  repeat' first
    | with_reducible assumption
    | with_reducible apply Keeps.wr
    | (fail_if_no_progress (with_reducible (refine Keeps.lit ?_ rfl rfl rfl)))
    | with_reducible (refine Keeps.ite ?_ ?_)
    | split

theorem Keeps.alnEn {r s : State} (h : Keeps r s) n v :
    Keeps r (State.alnEn s n v) := by
  unfold State.alnEn
  repeat' first
    | with_reducible assumption
    | with_reducible apply Keeps.alnGo
    | with_reducible apply Keeps.wr
    | with_reducible (refine Keeps.foldl _ ?_ (fun _ _ _ => ?_))
    | with_reducible (refine Keeps.foldlSnd _ ?_ (fun _ _ _ => ?_))
    | with_reducible (refine Keeps.foldlSnd2 _ ?_ (fun _ _ _ => ?_))
    | (fail_if_no_progress (with_reducible (refine Keeps.lit ?_ rfl rfl rfl)))
    | (intro x; refine Keeps.cut (r := r) x ?_ (fun _ => ?_) <;> [subst x; clear_value x])
    | (intro (x : _ × State); refine Keeps.cut (r := r) x.2 ?_ (fun _ => ?_) <;> [subst x; clear_value x])
    | (intro x; clear_value x)
    | with_reducible (refine Keeps.ite ?_ ?_)
    | split
    | lift_lets
    | with_reducible (refine Keeps.ofSnd (by assumption) ?_)
    | with_reducible (refine Keeps.ofSnd2 (by assumption) ?_)
    | intro

theorem Keeps.fence {r s : State} (h : Keeps r s) n cause :
    Keeps r (State.fence s n cause) := by
  unfold State.fence
  repeat' first
    | with_reducible assumption
    | with_reducible apply Keeps.alnGo
    | with_reducible apply Keeps.dieLost
    | with_reducible apply Keeps.inc
    | with_reducible apply Keeps.ledger
    | with_reducible apply Keeps.ledgerSet
    | with_reducible apply Keeps.note
    | with_reducible apply Keeps.putBit
    | with_reducible apply Keeps.raise
    | with_reducible apply Keeps.setAln
    | with_reducible apply Keeps.wr
    | with_reducible (refine Keeps.foldl _ ?_ (fun _ _ _ => ?_))
    | with_reducible (refine Keeps.foldlSnd _ ?_ (fun _ _ _ => ?_))
    | with_reducible (refine Keeps.foldlSnd2 _ ?_ (fun _ _ _ => ?_))
    | (fail_if_no_progress (with_reducible (refine Keeps.lit ?_ rfl rfl rfl)))
    | (intro x; refine Keeps.cut (r := r) x ?_ (fun _ => ?_) <;> [subst x; clear_value x])
    | (intro (x : _ × State); refine Keeps.cut (r := r) x.2 ?_ (fun _ => ?_) <;> [subst x; clear_value x])
    | (intro x; clear_value x)
    | with_reducible (refine Keeps.ite ?_ ?_)
    | split
    | lift_lets
    | with_reducible (refine Keeps.ofSnd (by assumption) ?_)
    | with_reducible (refine Keeps.ofSnd2 (by assumption) ?_)
    | intro

theorem Keeps.alnFail {r s : State} (h : Keeps r s) lp step :
    Keeps r (State.alnFail s lp step) := by
  unfold State.alnFail
  repeat' first
    | with_reducible assumption
    | with_reducible apply Keeps.alnBase
    | with_reducible apply Keeps.alnSummary
    | with_reducible apply Keeps.fence
    | with_reducible apply Keeps.inc
    | with_reducible apply Keeps.setAln
    | (fail_if_no_progress (with_reducible (refine Keeps.lit ?_ rfl rfl rfl)))
    | with_reducible (refine Keeps.ite ?_ ?_)
    | split

theorem Keeps.alnRestart {r s : State} (h : Keeps r s) n :
    Keeps r (State.alnRestart s n) := by
  unfold State.alnRestart
  repeat' first
    | with_reducible assumption
    | with_reducible apply Keeps.alnBase
    | with_reducible (refine Keeps.foldl _ ?_ (fun _ _ _ => ?_))
    | with_reducible (refine Keeps.foldlSnd _ ?_ (fun _ _ _ => ?_))
    | with_reducible (refine Keeps.foldlSnd2 _ ?_ (fun _ _ _ => ?_))
    | (fail_if_no_progress (with_reducible (refine Keeps.lit ?_ rfl rfl rfl)))
    | (intro x; refine Keeps.cut (r := r) x ?_ (fun _ => ?_) <;> [subst x; clear_value x])
    | (intro (x : _ × State); refine Keeps.cut (r := r) x.2 ?_ (fun _ => ?_) <;> [subst x; clear_value x])
    | (intro x; clear_value x)
    | with_reducible (refine Keeps.ite ?_ ?_)
    | split
    | lift_lets
    | with_reducible (refine Keeps.ofSnd (by assumption) ?_)
    | with_reducible (refine Keeps.ofSnd2 (by assumption) ?_)
    | intro

theorem Keeps.alnRetrain {r s : State} (h : Keeps r s) lp :
    Keeps r (State.alnRetrain s lp) := by
  unfold State.alnRetrain
  repeat' first
    | with_reducible assumption
    | with_reducible apply Keeps.alnGo
    | with_reducible apply Keeps.setAln
    | (fail_if_no_progress (with_reducible (refine Keeps.lit ?_ rfl rfl rfl)))
    | with_reducible (refine Keeps.ite ?_ ?_)
    | split

theorem Keeps.alnUp {r s : State} (h : Keeps r s) lp :
    Keeps r (State.alnUp s lp) := by
  unfold State.alnUp
  repeat' first
    | with_reducible assumption
    | with_reducible apply Keeps.alnSummary
    | with_reducible apply Keeps.raise
    | with_reducible apply Keeps.setAln
    | with_reducible apply Keeps.wr
    | (fail_if_no_progress (with_reducible (refine Keeps.lit ?_ rfl rfl rfl)))
    | with_reducible (refine Keeps.ite ?_ ?_)
    | split

theorem Keeps.baseFallback {r s : State} (h : Keeps r s) lp :
    Keeps r (State.baseFallback s lp) := by
  unfold State.baseFallback
  repeat' first
    | with_reducible assumption
    | with_reducible apply Keeps.setAln
    | with_reducible apply Keeps.wr
    | (fail_if_no_progress (with_reducible (refine Keeps.lit ?_ rfl rfl rfl)))
    | with_reducible (refine Keeps.ite ?_ ?_)
    | split

theorem Keeps.baseLock {r s : State} (h : Keeps r s) lp :
    Keeps r (State.baseLock s lp) := by
  unfold State.baseLock
  repeat' first
    | with_reducible assumption
    | with_reducible apply Keeps.alnGo
    | with_reducible apply Keeps.setAln
    | (fail_if_no_progress (with_reducible (refine Keeps.lit ?_ rfl rfl rfl)))
    | with_reducible (refine Keeps.ite ?_ ?_)
    | split

theorem Keeps.baseTimeout {r s : State} (h : Keeps r s) lp signal :
    Keeps r (State.baseTimeout s lp signal) := by
  unfold State.baseTimeout
  repeat' first
    | with_reducible assumption
    | with_reducible apply Keeps.alnFail
    | with_reducible apply Keeps.fence
    | (fail_if_no_progress (with_reducible (refine Keeps.lit ?_ rfl rfl rfl)))
    | with_reducible (refine Keeps.ite ?_ ?_)
    | split

theorem Keeps.capBlock {r s : State} (h : Keeps r s) lp blk sig :
    Keeps r (State.capBlock s lp blk sig) := by
  unfold State.capBlock
  repeat' first
    | with_reducible assumption
    | with_reducible apply Keeps.alnFail
    | with_reducible apply Keeps.alnGo
    | with_reducible apply Keeps.putBlock
    | with_reducible apply Keeps.setAln
    | (fail_if_no_progress (with_reducible (refine Keeps.lit ?_ rfl rfl rfl)))
    | with_reducible (refine Keeps.ite ?_ ?_)
    | split

theorem Keeps.dieReset {r s : State} (h : Keeps r s) n :
    Keeps r (State.dieReset s n) := by
  unfold State.dieReset
  repeat' first
    | with_reducible assumption
    | with_reducible apply Keeps.alnBase
    | with_reducible apply Keeps.coreHeld
    | with_reducible apply Keeps.setL2
    | with_reducible apply Keeps.wr
    | with_reducible (refine Keeps.foldl _ ?_ (fun _ _ _ => ?_))
    | with_reducible (refine Keeps.foldlSnd _ ?_ (fun _ _ _ => ?_))
    | with_reducible (refine Keeps.foldlSnd2 _ ?_ (fun _ _ _ => ?_))
    | (fail_if_no_progress (with_reducible (refine Keeps.lit ?_ rfl rfl rfl)))
    | (intro x; refine Keeps.cut (r := r) x ?_ (fun _ => ?_) <;> [subst x; clear_value x])
    | (intro (x : _ × State); refine Keeps.cut (r := r) x.2 ?_ (fun _ => ?_) <;> [subst x; clear_value x])
    | (intro x; clear_value x)
    | with_reducible (refine Keeps.ite ?_ ?_)
    | split
    | lift_lets
    | with_reducible (refine Keeps.ofSnd (by assumption) ?_)
    | with_reducible (refine Keeps.ofSnd2 (by assumption) ?_)
    | intro

theorem Keeps.farSideBase {r s : State} (h : Keeps r s) lp :
    Keeps r (State.farSideBase s lp) := by
  unfold State.farSideBase
  repeat' first
    | with_reducible assumption
    | with_reducible apply Keeps.alnBase
    | (fail_if_no_progress (with_reducible (refine Keeps.lit ?_ rfl rfl rfl)))
    | with_reducible (refine Keeps.ite ?_ ?_)
    | split

theorem Keeps.flitError {r s : State} (h : Keeps r s) lp newWindow :
    Keeps r (State.flitError s lp newWindow) := by
  unfold State.flitError
  repeat' first
    | with_reducible assumption
    | with_reducible apply Keeps.alnRetrain
    | with_reducible apply Keeps.inc
    | with_reducible apply Keeps.setAln
    | (fail_if_no_progress (with_reducible (refine Keeps.lit ?_ rfl rfl rfl)))
    | with_reducible (refine Keeps.ite ?_ ?_)
    | split

theorem Keeps.setPkgGen {r s : State} (h : Keeps r s) n gen :
    Keeps r (State.setPkgGen s n gen) := by
  unfold State.setPkgGen
  repeat' first
    | with_reducible assumption
    | with_reducible apply Keeps.wr
    | (fail_if_no_progress (with_reducible (refine Keeps.lit ?_ rfl rfl rfl)))
    | with_reducible (refine Keeps.ite ?_ ?_)
    | split

theorem Keeps.identity {r s : State} (h : Keeps r s) lp :
    Keeps r (State.identity s lp) := by
  unfold State.identity
  repeat' first
    | with_reducible assumption
    | with_reducible apply Keeps.admitDie
    | with_reducible apply Keeps.fence
    | with_reducible apply Keeps.raise
    | with_reducible apply Keeps.setPkgGen
    | (fail_if_no_progress (with_reducible (refine Keeps.lit ?_ rfl rfl rfl)))
    | (intro x; refine Keeps.cut (r := r) x ?_ (fun _ => ?_) <;> [subst x; clear_value x])
    | (intro (x : _ × State); refine Keeps.cut (r := r) x.2 ?_ (fun _ => ?_) <;> [subst x; clear_value x])
    | (intro x; clear_value x)
    | with_reducible (refine Keeps.ite ?_ ?_)
    | split
    | lift_lets

theorem Keeps.identityCheck {r s : State} (h : Keeps r s) :
    Keeps r (State.identityCheck s) := by
  unfold State.identityCheck
  repeat' first
    | with_reducible assumption
    | with_reducible apply Keeps.identity
    | (fail_if_no_progress (with_reducible (refine Keeps.lit ?_ rfl rfl rfl)))
    | (intro x; refine Keeps.cut (r := r) x ?_ (fun _ => ?_) <;> [subst x; clear_value x])
    | (intro (x : _ × State); refine Keeps.cut (r := r) x.2 ?_ (fun _ => ?_) <;> [subst x; clear_value x])
    | (intro x; clear_value x)
    | with_reducible (refine Keeps.ite ?_ ?_)
    | split
    | lift_lets

theorem Keeps.putRepair {r s : State} (h : Keeps r s) lp rx tx :
    Keeps r (State.putRepair s lp rx tx) := by
  unfold State.putRepair
  repeat' first
    | with_reducible assumption
    | with_reducible apply Keeps.wr
    | with_reducible (refine Keeps.foldl _ ?_ (fun _ _ _ => ?_))
    | with_reducible (refine Keeps.foldlSnd _ ?_ (fun _ _ _ => ?_))
    | with_reducible (refine Keeps.foldlSnd2 _ ?_ (fun _ _ _ => ?_))
    | (fail_if_no_progress (with_reducible (refine Keeps.lit ?_ rfl rfl rfl)))
    | (intro x; refine Keeps.cut (r := r) x ?_ (fun _ => ?_) <;> [subst x; clear_value x])
    | (intro (x : _ × State); refine Keeps.cut (r := r) x.2 ?_ (fun _ => ?_) <;> [subst x; clear_value x])
    | (intro x; clear_value x)
    | with_reducible (refine Keeps.ite ?_ ?_)
    | split
    | lift_lets
    | with_reducible (refine Keeps.ofSnd (by assumption) ?_)
    | with_reducible (refine Keeps.ofSnd2 (by assumption) ?_)
    | intro

theorem Keeps.repair {r s : State} (h : Keeps r s) lp rxFail txFail :
    Keeps r (State.repair s lp rxFail txFail) := by
  unfold State.repair
  repeat' first
    | with_reducible assumption
    | with_reducible apply Keeps.putRepair
    | with_reducible apply Keeps.raise
    | (fail_if_no_progress (with_reducible (refine Keeps.lit ?_ rfl rfl rfl)))
    | with_reducible (refine Keeps.ite ?_ ?_)
    | split

theorem Keeps.laneTest {r s : State} (h : Keeps r s) lp rxFail txFail :
    Keeps r (State.laneTest s lp rxFail txFail) := by
  unfold State.laneTest
  repeat' first
    | with_reducible assumption
    | with_reducible apply Keeps.alnFail
    | with_reducible apply Keeps.alnGo
    | with_reducible apply Keeps.repair
    | (fail_if_no_progress (with_reducible (refine Keeps.lit ?_ rfl rfl rfl)))
    | with_reducible (refine Keeps.ite ?_ ?_)
    | split

theorem Keeps.markerCheck {r s : State} (h : Keeps r s) lp ok :
    Keeps r (State.markerCheck s lp ok) := by
  unfold State.markerCheck
  repeat' first
    | with_reducible assumption
    | with_reducible apply Keeps.alnFail
    | with_reducible apply Keeps.alnUp
    | (fail_if_no_progress (with_reducible (refine Keeps.lit ?_ rfl rfl rfl)))
    | with_reducible (refine Keeps.ite ?_ ?_)
    | split

theorem Keeps.retrainDone {r s : State} (h : Keeps r s) lp rxFail txFail markers :
    Keeps r (State.retrainDone s lp rxFail txFail markers) := by
  unfold State.retrainDone
  repeat' first
    | with_reducible assumption
    | with_reducible apply Keeps.alnFail
    | with_reducible apply Keeps.alnUp
    | with_reducible apply Keeps.inc
    | with_reducible apply Keeps.ledger
    | with_reducible apply Keeps.raise
    | with_reducible apply Keeps.repair
    | (fail_if_no_progress (with_reducible (refine Keeps.lit ?_ rfl rfl rfl)))
    | with_reducible (refine Keeps.ite ?_ ?_)
    | split

theorem Keeps.unfence {r s : State} (h : Keeps r s) n :
    Keeps r (State.unfence s n) := by
  unfold State.unfence
  repeat' first
    | with_reducible assumption
    | with_reducible apply Keeps.alnBase
    | with_reducible apply Keeps.putBit
    | with_reducible apply Keeps.setAln
    | with_reducible apply Keeps.wr
    | with_reducible (refine Keeps.foldl _ ?_ (fun _ _ _ => ?_))
    | with_reducible (refine Keeps.foldlSnd _ ?_ (fun _ _ _ => ?_))
    | with_reducible (refine Keeps.foldlSnd2 _ ?_ (fun _ _ _ => ?_))
    | (fail_if_no_progress (with_reducible (refine Keeps.lit ?_ rfl rfl rfl)))
    | (intro x; refine Keeps.cut (r := r) x ?_ (fun _ => ?_) <;> [subst x; clear_value x])
    | (intro (x : _ × State); refine Keeps.cut (r := r) x.2 ?_ (fun _ => ?_) <;> [subst x; clear_value x])
    | (intro x; clear_value x)
    | with_reducible (refine Keeps.ite ?_ ?_)
    | split
    | lift_lets
    | with_reducible (refine Keeps.ofSnd (by assumption) ?_)
    | with_reducible (refine Keeps.ofSnd2 (by assumption) ?_)
    | intro

theorem Keeps.widthRestore {r s : State} (h : Keeps r s) n :
    Keeps r (State.widthRestore s n) := by
  unfold State.widthRestore
  repeat' first
    | with_reducible assumption
    | with_reducible apply Keeps.setAln
    | with_reducible apply Keeps.wr
    | with_reducible (refine Keeps.foldl _ ?_ (fun _ _ _ => ?_))
    | with_reducible (refine Keeps.foldlSnd _ ?_ (fun _ _ _ => ?_))
    | with_reducible (refine Keeps.foldlSnd2 _ ?_ (fun _ _ _ => ?_))
    | (fail_if_no_progress (with_reducible (refine Keeps.lit ?_ rfl rfl rfl)))
    | (intro x; refine Keeps.cut (r := r) x ?_ (fun _ => ?_) <;> [subst x; clear_value x])
    | (intro (x : _ × State); refine Keeps.cut (r := r) x.2 ?_ (fun _ => ?_) <;> [subst x; clear_value x])
    | (intro x; clear_value x)
    | with_reducible (refine Keeps.ite ?_ ?_)
    | split
    | lift_lets
    | with_reducible (refine Keeps.ofSnd (by assumption) ?_)
    | with_reducible (refine Keeps.ofSnd2 (by assumption) ?_)
    | intro

theorem Keeps.clearRegs {r s : State} (h : Keeps r s) d :
    Keeps r (State.clearRegs s d) :=
  Keeps.lit h rfl rfl rfl

theorem Keeps.coldReset {r s : State} (h : Keeps r s) cause : Keeps r (State.coldReset s cause) := by
  refine Keeps.trans h (Keeps.wr ?_ _ _ _)
  exact ⟨rfl, rfl, rfl, fun _ => rfl, Fuses.Le.refl _⟩

theorem Keeps.enterOff {r s : State} (h : Keeps r s) d :
    Keeps r (State.enterOff s d) := by
  unfold State.enterOff
  repeat' first
    | with_reducible assumption
    | with_reducible apply Keeps.alnGo
    | with_reducible apply Keeps.conventionalReset
    | with_reducible apply Keeps.linkDown
    | with_reducible apply Keeps.setAln
    | with_reducible apply Keeps.setHart
    | with_reducible apply Keeps.setL2
    | with_reducible apply Keeps.wr
    | with_reducible (refine Keeps.foldl _ ?_ (fun _ _ _ => ?_))
    | with_reducible (refine Keeps.foldlSnd _ ?_ (fun _ _ _ => ?_))
    | with_reducible (refine Keeps.foldlSnd2 _ ?_ (fun _ _ _ => ?_))
    | (fail_if_no_progress (with_reducible (refine Keeps.lit ?_ rfl rfl rfl)))
    | (intro x; refine Keeps.cut (r := r) x ?_ (fun _ => ?_) <;> [subst x; clear_value x])
    | (intro (x : _ × State); refine Keeps.cut (r := r) x.2 ?_ (fun _ => ?_) <;> [subst x; clear_value x])
    | (intro x; clear_value x)
    | with_reducible (refine Keeps.ite ?_ ?_)
    | split
    | lift_lets
    | with_reducible (refine Keeps.ofSnd (by assumption) ?_)
    | with_reducible (refine Keeps.ofSnd2 (by assumption) ?_)
    | intro

theorem Keeps.powerCycle {r s : State} (h : Keeps r s) :
    Keeps r (State.powerCycle s) :=
  Keeps.lit h rfl rfl rfl

theorem Keeps.powerOn {r s : State} (h : Keeps r s) d :
    Keeps r (State.powerOn s d) := by
  unfold State.powerOn
  dsimp only
  repeat' first
    | with_reducible assumption
    | with_reducible apply Keeps.alnBase
    | with_reducible apply Keeps.clearRegs
    | with_reducible apply Keeps.coreHeld
    | with_reducible apply Keeps.putBit
    | with_reducible apply Keeps.setGuest
    | with_reducible apply Keeps.setL2
    | with_reducible apply Keeps.wr
    | with_reducible (refine Keeps.foldl _ ?_ (fun _ _ _ => ?_))
    | with_reducible (refine Keeps.foldlSnd _ ?_ (fun _ _ _ => ?_))
    | with_reducible (refine Keeps.foldlSnd2 _ ?_ (fun _ _ _ => ?_))
    | (fail_if_no_progress (with_reducible (refine Keeps.lit ?_ rfl rfl rfl)))
    | (intro x; refine Keeps.cut (r := r) x ?_ (fun _ => ?_) <;> [subst x; clear_value x])
    | (intro (x : _ × State); refine Keeps.cut (r := r) x.2 ?_ (fun _ => ?_) <;> [subst x; clear_value x])
    | (intro (x : _ → State); subst x; beta_reduce)
    | (intro (x : _ → _ → State); subst x; beta_reduce)
    | (intro (x : _ → _ × State); subst x; beta_reduce)
    | (intro (x : _ → _ → _ × State); subst x; beta_reduce)
    | (intro (x : MemState); subst x)
    | (intro x; clear_value x)
    | with_reducible (refine Keeps.ite ?_ ?_)
    | split
    | lift_lets
    | with_reducible (refine Keeps.ofSnd (by assumption) ?_)
    | with_reducible (refine Keeps.ofSnd2 (by assumption) ?_)
    | intro

theorem Keeps.settleRecode {r s : State} (h : Keeps r s) srKeep :
    Keeps r (State.settleRecode s srKeep) := by
  unfold State.settleRecode
  repeat' first
    | with_reducible assumption
    | with_reducible apply Keeps.wr
    | with_reducible (refine Keeps.foldl _ ?_ (fun _ _ _ => ?_))
    | with_reducible (refine Keeps.foldlSnd _ ?_ (fun _ _ _ => ?_))
    | with_reducible (refine Keeps.foldlSnd2 _ ?_ (fun _ _ _ => ?_))
    | (fail_if_no_progress (with_reducible (refine Keeps.lit ?_ rfl rfl rfl)))
    | (intro x; refine Keeps.cut (r := r) x ?_ (fun _ => ?_) <;> [subst x; clear_value x])
    | (intro (x : _ × State); refine Keeps.cut (r := r) x.2 ?_ (fun _ => ?_) <;> [subst x; clear_value x])
    | (intro x; clear_value x)
    | with_reducible (refine Keeps.ite ?_ ?_)
    | split
    | lift_lets
    | with_reducible (refine Keeps.ofSnd (by assumption) ?_)
    | with_reducible (refine Keeps.ofSnd2 (by assumption) ?_)
    | intro

theorem Keeps.warmStart (s : State) {regs lgr boot aln dbg hif} (sr : Bool) :
    Keeps s { State.reset with pending := s.pending, hw := s.hw, fresh := s.fresh, fuses := s.fuses, vellum := s.vellum,
                               pins := s.pins, lgr := lgr, boot := boot, mem := s.mem.warm sr, aln := aln, dbg := dbg,
                               hif := hif, regs := regs } := by
  refine ⟨rfl, rfl, rfl, fun h => ?_, Fuses.Le.refl _⟩
  unfold MemState.wf MemState.warm at *
  dsimp only
  split
  · exact cells_filter_wf _ _ _ h
  · rfl

theorem Keeps.warmReset {r s : State} (h : Keeps r s) cause : Keeps r (State.warmReset s cause) := by
  unfold State.warmReset
  split
  · exact h
  · refine Keeps.trans h ?_
    refine Keeps.inc (Keeps.wr (Keeps.foldl _ ?_ fun _ _ k => k.alnSummary _) _ _ _) _ _ _
    refine Keeps.when ?_ _ _ fun _ k => ((k.wr _ _ _).wr _ _ _).wr _ _ _
    refine Keeps.when ?_ _ _ fun _ k => k.wr _ _ _
    refine Keeps.settleRecode (Keeps.foldl _ (Keeps.warmStart s _) fun _ _ k => ?_) _
    exact Keeps.when k _ _ fun _ k => k.inc _ _ _

theorem Keeps.bootOn {r s : State} (h : Keeps r s) ds :
    Keeps r (State.bootOn s ds) := by
  unfold State.bootOn
  repeat' first
    | with_reducible assumption
    | with_reducible apply Keeps.wake
    | with_reducible (refine Keeps.foldl _ ?_ (fun _ _ _ => ?_))
    | with_reducible (refine Keeps.foldlSnd _ ?_ (fun _ _ _ => ?_))
    | with_reducible (refine Keeps.foldlSnd2 _ ?_ (fun _ _ _ => ?_))
    | (fail_if_no_progress (with_reducible (refine Keeps.lit ?_ rfl rfl rfl)))
    | (intro x; refine Keeps.cut (r := r) x ?_ (fun _ => ?_) <;> [subst x; clear_value x])
    | (intro (x : _ × State); refine Keeps.cut (r := r) x.2 ?_ (fun _ => ?_) <;> [subst x; clear_value x])
    | (intro x; clear_value x)
    | with_reducible (refine Keeps.ite ?_ ?_)
    | split
    | lift_lets
    | with_reducible (refine Keeps.ofSnd (by assumption) ?_)
    | with_reducible (refine Keeps.ofSnd2 (by assumption) ?_)
    | intro

theorem Keeps.domArrive {r s : State} (h : Keeps r s) d target :
    Keeps r (State.domArrive s d target) := by
  unfold State.domArrive
  repeat' first
    | with_reducible assumption
    | with_reducible apply Keeps.enterOff
    | with_reducible apply Keeps.powerOn
    | with_reducible apply Keeps.raise
    | with_reducible apply Keeps.wr
    | (fail_if_no_progress (with_reducible (refine Keeps.lit ?_ rfl rfl rfl)))
    | with_reducible (refine Keeps.ite ?_ ?_)
    | split

theorem Keeps.reftab {r s : State} (h : Keeps r s) d code core aborted :
    Keeps r (State.reftab s d code core aborted) := by
  unfold State.reftab
  repeat' first
    | with_reducible assumption
    | with_reducible apply Keeps.inc
    | with_reducible apply Keeps.when
    | with_reducible apply Keeps.wr
    | with_reducible (refine Keeps.foldl _ ?_ (fun _ _ _ => ?_))
    | with_reducible (refine Keeps.foldlSnd _ ?_ (fun _ _ _ => ?_))
    | with_reducible (refine Keeps.foldlSnd2 _ ?_ (fun _ _ _ => ?_))
    | (fail_if_no_progress (with_reducible (refine Keeps.lit ?_ rfl rfl rfl)))
    | (intro x; refine Keeps.cut (r := r) x ?_ (fun _ => ?_) <;> [subst x; clear_value x])
    | (intro (x : _ × State); refine Keeps.cut (r := r) x.2 ?_ (fun _ => ?_) <;> [subst x; clear_value x])
    | (intro x; clear_value x)
    | with_reducible (refine Keeps.ite ?_ ?_)
    | split
    | lift_lets
    | with_reducible (refine Keeps.ofSnd (by assumption) ?_)
    | with_reducible (refine Keeps.ofSnd2 (by assumption) ?_)
    | intro

theorem Keeps.recordRefusal {r s : State} (h : Keeps r s) d code core :
    Keeps r (State.recordRefusal s d code core) := by
  unfold State.recordRefusal
  repeat' first
    | with_reducible assumption
    | with_reducible apply Keeps.ledger
    | with_reducible apply Keeps.raise
    | with_reducible apply Keeps.reftab
    | with_reducible apply Keeps.wr
    | (fail_if_no_progress (with_reducible (refine Keeps.lit ?_ rfl rfl rfl)))
    | with_reducible (refine Keeps.ite ?_ ?_)
    | split

theorem Keeps.judge {r s : State} (h : Keeps r s) d r' first :
    Keeps r (State.judge s d r' first) := by
  unfold State.judge
  dsimp only
  repeat' first
    | with_reducible assumption
    | with_reducible apply Keeps.enqueue
    | with_reducible apply Keeps.recordRefusal
    | with_reducible apply Keeps.recordWake
    | with_reducible apply Keeps.wr
    | with_reducible (refine Keeps.foldl _ ?_ (fun _ _ _ => ?_))
    | with_reducible (refine Keeps.foldlSnd _ ?_ (fun _ _ _ => ?_))
    | with_reducible (refine Keeps.foldlSnd2 _ ?_ (fun _ _ _ => ?_))
    | (fail_if_no_progress (with_reducible (refine Keeps.lit ?_ rfl rfl rfl)))
    | (intro x; refine Keeps.cut (r := r) x ?_ (fun _ => ?_) <;> [subst x; clear_value x])
    | (intro (x : _ × State); refine Keeps.cut (r := r) x.2 ?_ (fun _ => ?_) <;> [subst x; clear_value x])
    | (intro (x : _ → State); subst x; beta_reduce)
    | (intro (x : _ → _ → State); subst x; beta_reduce)
    | (intro (x : _ → _ × State); subst x; beta_reduce)
    | (intro (x : _ → _ → _ × State); subst x; beta_reduce)
    | (intro (x : MemState); subst x)
    | (intro x; clear_value x)
    | with_reducible (refine Keeps.ite ?_ ?_)
    | split
    | lift_lets
    | with_reducible (refine Keeps.ofSnd (by assumption) ?_)
    | with_reducible (refine Keeps.ofSnd2 (by assumption) ?_)
    | intro

theorem Keeps.domFollow {r s : State} (h : Keeps r s) d target :
    Keeps r (State.domFollow s d target) := by
  unfold State.domFollow
  repeat' first
    | with_reducible assumption
    | with_reducible apply Keeps.enqueue
    | with_reducible apply Keeps.judge
    | (fail_if_no_progress (with_reducible (refine Keeps.lit ?_ rfl rfl rfl)))
    | with_reducible (refine Keeps.ite ?_ ?_)
    | split

theorem Keeps.holdAbort {r s : State} (h : Keeps r s) d :
    Keeps r (State.holdAbort s d) := by
  unfold State.holdAbort
  repeat' first
    | with_reducible assumption
    | with_reducible apply Keeps.judge
    | with_reducible apply Keeps.raise
    | with_reducible apply Keeps.reftab
    | with_reducible apply Keeps.wr
    | (fail_if_no_progress (with_reducible (refine Keeps.lit ?_ rfl rfl rfl)))
    | with_reducible (refine Keeps.ite ?_ ?_)
    | split

theorem Keeps.holdRecheck {r s : State} (h : Keeps r s) d :
    Keeps r (State.holdRecheck s d) := by
  unfold State.holdRecheck
  repeat' first
    | with_reducible assumption
    | with_reducible apply Keeps.judge
    | (fail_if_no_progress (with_reducible (refine Keeps.lit ?_ rfl rfl rfl)))
    | with_reducible (refine Keeps.ite ?_ ?_)
    | split

theorem Keeps.request {r s : State} (h : Keeps r s) d target secure hold :
    Keeps r (State.request s d target secure hold) := by
  unfold State.request
  repeat' first
    | with_reducible assumption
    | with_reducible apply Keeps.judge
    | with_reducible apply Keeps.wr
    | (fail_if_no_progress (with_reducible (refine Keeps.lit ?_ rfl rfl rfl)))
    | with_reducible (refine Keeps.ite ?_ ?_)
    | split

theorem Keeps.pwrCtl {r s : State} (h : Keeps r s) src d v :
    Keeps r (State.pwrCtl s src d v) := by
  unfold State.pwrCtl
  repeat' first
    | with_reducible assumption
    | with_reducible apply Keeps.request
    | with_reducible apply Keeps.wr
    | (fail_if_no_progress (with_reducible (refine Keeps.lit ?_ rfl rfl rfl)))
    | with_reducible (refine Keeps.ite ?_ ?_)
    | split

theorem Keeps.transitionDone {r s : State} (h : Keeps r s) d :
    Keeps r (State.transitionDone s d) := by
  unfold State.transitionDone
  repeat' first
    | with_reducible assumption
    | with_reducible apply Keeps.domArrive
    | with_reducible apply Keeps.domFollow
    | with_reducible apply Keeps.pwrStatus
    | with_reducible (refine Keeps.foldl _ ?_ (fun _ _ _ => ?_))
    | with_reducible (refine Keeps.foldlSnd _ ?_ (fun _ _ _ => ?_))
    | with_reducible (refine Keeps.foldlSnd2 _ ?_ (fun _ _ _ => ?_))
    | (fail_if_no_progress (with_reducible (refine Keeps.lit ?_ rfl rfl rfl)))
    | (intro x; refine Keeps.cut (r := r) x ?_ (fun _ => ?_) <;> [subst x; clear_value x])
    | (intro (x : _ × State); refine Keeps.cut (r := r) x.2 ?_ (fun _ => ?_) <;> [subst x; clear_value x])
    | (intro x; clear_value x)
    | with_reducible (refine Keeps.ite ?_ ?_)
    | split
    | lift_lets
    | with_reducible (refine Keeps.ofSnd (by assumption) ?_)
    | with_reducible (refine Keeps.ofSnd2 (by assumption) ?_)
    | intro

theorem Keeps.transitionStart {r s : State} (h : Keeps r s) :
    Keeps r (State.transitionStart s) := by
  unfold State.transitionStart
  repeat' first
    | with_reducible assumption
    | with_reducible apply Keeps.pwrStatus
    | with_reducible apply Keeps.wr
    | with_reducible (refine Keeps.foldl _ ?_ (fun _ _ _ => ?_))
    | with_reducible (refine Keeps.foldlSnd _ ?_ (fun _ _ _ => ?_))
    | with_reducible (refine Keeps.foldlSnd2 _ ?_ (fun _ _ _ => ?_))
    | (fail_if_no_progress (with_reducible (refine Keeps.lit ?_ rfl rfl rfl)))
    | (intro x; refine Keeps.cut (r := r) x ?_ (fun _ => ?_) <;> [subst x; clear_value x])
    | (intro (x : _ × State); refine Keeps.cut (r := r) x.2 ?_ (fun _ => ?_) <;> [subst x; clear_value x])
    | (intro x; clear_value x)
    | with_reducible (refine Keeps.ite ?_ ?_)
    | split
    | lift_lets
    | with_reducible (refine Keeps.ofSnd (by assumption) ?_)
    | with_reducible (refine Keeps.ofSnd2 (by assumption) ?_)
    | intro

theorem Keeps.gateRefused {r s : State} (h : Keeps r s) d code :
    Keeps r (State.gateRefused s d code) := by
  unfold State.gateRefused
  repeat' first
    | with_reducible assumption
    | with_reducible apply Keeps.raise
    | with_reducible apply Keeps.recordRefusal
    | with_reducible apply Keeps.wr
    | (fail_if_no_progress (with_reducible (refine Keeps.lit ?_ rfl rfl rfl)))
    | with_reducible (refine Keeps.ite ?_ ?_)
    | split

theorem Keeps.gateWrite {r s : State} (h : Keeps r s) src d en :
    Keeps r (State.gateWrite s src d en) := by
  unfold State.gateWrite
  repeat' first
    | with_reducible assumption
    | with_reducible apply Keeps.gateRefused
    | with_reducible apply Keeps.wr
    | (fail_if_no_progress (with_reducible (refine Keeps.lit ?_ rfl rfl rfl)))
    | with_reducible (refine Keeps.ite ?_ ?_)
    | split

theorem Keeps.ratioWrite {r s : State} (h : Keeps r s) d v :
    Keeps r (State.ratioWrite s d v) := by
  unfold State.ratioWrite
  repeat' first
    | with_reducible assumption
    | with_reducible apply Keeps.raise
    | with_reducible apply Keeps.wr
    | (fail_if_no_progress (with_reducible (refine Keeps.lit ?_ rfl rfl rfl)))
    | with_reducible (refine Keeps.ite ?_ ?_)
    | split

theorem Keeps.ckrDom {r s : State} (h : Keeps r s) src d v :
    Keeps r (State.ckrDom s src d v) := by
  unfold State.ckrDom
  repeat' first
    | with_reducible assumption
    | with_reducible apply Keeps.gateWrite
    | with_reducible apply Keeps.ratioWrite
    | with_reducible apply Keeps.when
    | with_reducible apply Keeps.wr
    | with_reducible (refine Keeps.foldl _ ?_ (fun _ _ _ => ?_))
    | with_reducible (refine Keeps.foldlSnd _ ?_ (fun _ _ _ => ?_))
    | with_reducible (refine Keeps.foldlSnd2 _ ?_ (fun _ _ _ => ?_))
    | (fail_if_no_progress (with_reducible (refine Keeps.lit ?_ rfl rfl rfl)))
    | (intro x; refine Keeps.cut (r := r) x ?_ (fun _ => ?_) <;> [subst x; clear_value x])
    | (intro (x : _ × State); refine Keeps.cut (r := r) x.2 ?_ (fun _ => ?_) <;> [subst x; clear_value x])
    | (intro x; clear_value x)
    | with_reducible (refine Keeps.ite ?_ ?_)
    | split
    | lift_lets
    | with_reducible (refine Keeps.ofSnd (by assumption) ?_)
    | with_reducible (refine Keeps.ofSnd2 (by assumption) ?_)
    | intro

theorem Keeps.clockFail {r s : State} (h : Keeps r s) cause :
    Keeps r (State.clockFail s cause) := by
  unfold State.clockFail
  repeat' first
    | with_reducible assumption
    | with_reducible apply Keeps.note
    | with_reducible apply Keeps.raise
    | with_reducible apply Keeps.wr
    | (fail_if_no_progress (with_reducible (refine Keeps.lit ?_ rfl rfl rfl)))
    | with_reducible (refine Keeps.ite ?_ ?_)
    | split

theorem Keeps.monWindow {r s : State} (h : Keeps r s) which count :
    Keeps r (State.monWindow s which count) := by
  unfold State.monWindow
  repeat' first
    | with_reducible assumption
    | with_reducible apply Keeps.clockFail
    | with_reducible apply Keeps.raise
    | with_reducible apply Keeps.when
    | with_reducible apply Keeps.wr
    | with_reducible (refine Keeps.foldl _ ?_ (fun _ _ _ => ?_))
    | with_reducible (refine Keeps.foldlSnd _ ?_ (fun _ _ _ => ?_))
    | with_reducible (refine Keeps.foldlSnd2 _ ?_ (fun _ _ _ => ?_))
    | (fail_if_no_progress (with_reducible (refine Keeps.lit ?_ rfl rfl rfl)))
    | (intro x; refine Keeps.cut (r := r) x ?_ (fun _ => ?_) <;> [subst x; clear_value x])
    | (intro (x : _ × State); refine Keeps.cut (r := r) x.2 ?_ (fun _ => ?_) <;> [subst x; clear_value x])
    | (intro x; clear_value x)
    | with_reducible (refine Keeps.ite ?_ ?_)
    | split
    | lift_lets
    | with_reducible (refine Keeps.ofSnd (by assumption) ?_)
    | with_reducible (refine Keeps.ofSnd2 (by assumption) ?_)
    | intro

theorem Keeps.rootReady {r s : State} (h : Keeps r s) :
    Keeps r (State.rootReady s) := by
  unfold State.rootReady
  repeat' first
    | with_reducible assumption
    | with_reducible apply Keeps.alnAutoTrain
    | with_reducible apply Keeps.bootOn
    | (fail_if_no_progress (with_reducible (refine Keeps.lit ?_ rfl rfl rfl)))
    | with_reducible (refine Keeps.ite ?_ ?_)
    | split

theorem Keeps.rootTick {r s : State} (h : Keeps r s) :
    Keeps r (State.rootTick s) := by
  unfold State.rootTick
  repeat' first
    | with_reducible assumption
    | with_reducible apply Keeps.wr
    | (fail_if_no_progress (with_reducible (refine Keeps.lit ?_ rfl rfl rfl)))
    | with_reducible (refine Keeps.ite ?_ ?_)
    | split

theorem Keeps.pushClaim {r s : State} (h : Keeps r s) c src m :
    Keeps r (State.pushClaim s c src m) :=
  Keeps.lit h rfl rfl rfl

theorem Keeps.offer {r s : State} (h : Keeps r s) msg :
    Keeps r (State.offer s msg) := by
  unfold State.offer
  repeat' first
    | with_reducible assumption
    | with_reducible apply Keeps.inc
    | with_reducible apply Keeps.pushClaim
    | with_reducible apply Keeps.wake
    | (fail_if_no_progress (with_reducible (refine Keeps.lit ?_ rfl rfl rfl)))
    | with_reducible (refine Keeps.ite ?_ ?_)
    | split

theorem Keeps.eventDeliver {r s : State} (h : Keeps r s) :
    Keeps r (State.eventDeliver s) := by
  unfold State.eventDeliver
  repeat' first
    | with_reducible assumption
    | with_reducible apply Keeps.offer
    | (fail_if_no_progress (with_reducible (refine Keeps.lit ?_ rfl rfl rfl)))
    | with_reducible (refine Keeps.ite ?_ ?_)
    | split

theorem Keeps.rateRelease {r s : State} (h : Keeps r s) i :
    Keeps r (State.rateRelease s i) := by
  unfold State.rateRelease
  repeat' first
    | with_reducible assumption
    | with_reducible apply Keeps.sendEvent
    | (fail_if_no_progress (with_reducible (refine Keeps.lit ?_ rfl rfl rfl)))
    | with_reducible (refine Keeps.ite ?_ ?_)
    | split

theorem Keeps.srcCfg {r s : State} (h : Keeps r s) src i v :
    Keeps r (State.srcCfg s src i v) := by
  unfold State.srcCfg
  repeat' first
    | with_reducible assumption
    | with_reducible apply Keeps.inc
    | with_reducible apply Keeps.wr
    | (fail_if_no_progress (with_reducible (refine Keeps.lit ?_ rfl rfl rfl)))
    | with_reducible (refine Keeps.ite ?_ ?_)
    | split

theorem Keeps.settleInval {r s : State} (h : Keeps r s) p :
    Keeps r (State.settleInval s p) := by
  unfold State.settleInval
  repeat' first
    | with_reducible assumption
    | with_reducible apply Keeps.sendTlp
    | with_reducible apply Keeps.setPort
    | with_reducible (refine Keeps.foldl _ ?_ (fun _ _ _ => ?_))
    | with_reducible (refine Keeps.foldlSnd _ ?_ (fun _ _ _ => ?_))
    | with_reducible (refine Keeps.foldlSnd2 _ ?_ (fun _ _ _ => ?_))
    | (fail_if_no_progress (with_reducible (refine Keeps.lit ?_ rfl rfl rfl)))
    | (intro x; refine Keeps.cut (r := r) x ?_ (fun _ => ?_) <;> [subst x; clear_value x])
    | (intro (x : _ × State); refine Keeps.cut (r := r) x.2 ?_ (fun _ => ?_) <;> [subst x; clear_value x])
    | (intro x; clear_value x)
    | with_reducible (refine Keeps.ite ?_ ?_)
    | split
    | lift_lets
    | with_reducible (refine Keeps.ofSnd (by assumption) ?_)
    | with_reducible (refine Keeps.ofSnd2 (by assumption) ?_)
    | intro

theorem Keeps.atsInvalidate {r s : State} (h : Keeps r s) p itag pasid page count :
    Keeps r (State.atsInvalidate s p itag pasid page count) := by
  unfold State.atsInvalidate
  repeat' first
    | with_reducible assumption
    | with_reducible apply Keeps.sendTlp
    | with_reducible apply Keeps.setPort
    | with_reducible apply Keeps.settleInval
    | (fail_if_no_progress (with_reducible (refine Keeps.lit ?_ rfl rfl rfl)))
    | with_reducible (refine Keeps.ite ?_ ?_)
    | split

theorem Keeps.bar4Read {r s : State} (h : Keeps r s) p tag off len :
    Keeps r (State.bar4Read s p tag off len) := by
  unfold State.bar4Read
  repeat' first
    | with_reducible assumption
    | with_reducible apply Keeps.aerUnc
    | with_reducible apply Keeps.devRead
    | with_reducible apply Keeps.inc
    | with_reducible apply Keeps.sendTlp
    | with_reducible apply Keeps.when
    | with_reducible (refine Keeps.foldl _ ?_ (fun _ _ _ => ?_))
    | with_reducible (refine Keeps.foldlSnd _ ?_ (fun _ _ _ => ?_))
    | with_reducible (refine Keeps.foldlSnd2 _ ?_ (fun _ _ _ => ?_))
    | (fail_if_no_progress (with_reducible (refine Keeps.lit ?_ rfl rfl rfl)))
    | (intro x; refine Keeps.cut (r := r) x ?_ (fun _ => ?_) <;> [subst x; clear_value x])
    | (intro (x : _ × State); refine Keeps.cut (r := r) x.2 ?_ (fun _ => ?_) <;> [subst x; clear_value x])
    | (intro x; clear_value x)
    | with_reducible (refine Keeps.ite ?_ ?_)
    | split
    | lift_lets
    | with_reducible (refine Keeps.ofSnd (by assumption) ?_)
    | with_reducible (refine Keeps.ofSnd2 (by assumption) ?_)
    | intro

theorem Keeps.bar4Write {r s : State} (h : Keeps r s) p off data ep :
    Keeps r (State.bar4Write s p off data ep) := by
  unfold State.bar4Write
  repeat' first
    | with_reducible assumption
    | with_reducible apply Keeps.aerUnc
    | with_reducible apply Keeps.devWrite
    | with_reducible apply Keeps.inc
    | with_reducible apply Keeps.when
    | with_reducible (refine Keeps.foldl _ ?_ (fun _ _ _ => ?_))
    | with_reducible (refine Keeps.foldlSnd _ ?_ (fun _ _ _ => ?_))
    | with_reducible (refine Keeps.foldlSnd2 _ ?_ (fun _ _ _ => ?_))
    | (fail_if_no_progress (with_reducible (refine Keeps.lit ?_ rfl rfl rfl)))
    | (intro x; refine Keeps.cut (r := r) x ?_ (fun _ => ?_) <;> [subst x; clear_value x])
    | (intro (x : _ × State); refine Keeps.cut (r := r) x.2 ?_ (fun _ => ?_) <;> [subst x; clear_value x])
    | (intro x; clear_value x)
    | with_reducible (refine Keeps.ite ?_ ?_)
    | split
    | lift_lets
    | with_reducible (refine Keeps.ofSnd (by assumption) ?_)
    | with_reducible (refine Keeps.ofSnd2 (by assumption) ?_)
    | intro

theorem Keeps.barSize {r s : State} (h : Keeps r s) p bar4 code :
    Keeps r (State.barSize s p bar4 code) := by
  unfold State.barSize
  repeat' first
    | with_reducible assumption
    | with_reducible apply Keeps.setCfg
    | with_reducible apply Keeps.setPort
    | (fail_if_no_progress (with_reducible (refine Keeps.lit ?_ rfl rfl rfl)))
    | with_reducible (refine Keeps.ite ?_ ?_)
    | split

theorem Keeps.startFlr {r s : State} (h : Keeps r s) p :
    Keeps r (State.startFlr s p) := by
  unfold State.startFlr
  repeat' first
    | with_reducible assumption
    | with_reducible apply Keeps.functionReset
    | with_reducible apply Keeps.inc
    | with_reducible apply Keeps.setPort
    | (fail_if_no_progress (with_reducible (refine Keeps.lit ?_ rfl rfl rfl)))
    | with_reducible (refine Keeps.ite ?_ ?_)
    | split

theorem Keeps.powerState {r s : State} (h : Keeps r s) p d3 :
    Keeps r (State.powerState s p d3) := by
  unfold State.powerState
  repeat' first
    | with_reducible assumption
    | with_reducible apply Keeps.setCfg
    | with_reducible apply Keeps.startFlr
    | with_reducible apply Keeps.wr
    | (fail_if_no_progress (with_reducible (refine Keeps.lit ?_ rfl rfl rfl)))
    | with_reducible (refine Keeps.ite ?_ ?_)
    | split

theorem Keeps.recover {r s : State} (h : Keeps r s) p value cause :
    Keeps r (State.recover s p value cause) := by
  unfold State.recover
  repeat' first
    | with_reducible assumption
    | with_reducible apply Keeps.raise
    | (fail_if_no_progress (with_reducible (refine Keeps.lit ?_ rfl rfl rfl)))
    | with_reducible (refine Keeps.ite ?_ ?_)
    | split

theorem Keeps.cfgWrite {r s : State} (h : Keeps r s) p off be v :
    Keeps r (State.cfgWrite s p off be v) := by
  unfold State.cfgWrite
  repeat' first
    | with_reducible assumption
    | with_reducible apply Keeps.barSize
    | with_reducible apply Keeps.msixFlush
    | with_reducible apply Keeps.powerState
    | with_reducible apply Keeps.recover
    | with_reducible apply Keeps.setCfg
    | with_reducible apply Keeps.setPort
    | with_reducible apply Keeps.startFlr
    | (fail_if_no_progress (with_reducible (refine Keeps.lit ?_ rfl rfl rfl)))
    | with_reducible (refine Keeps.ite ?_ ?_)
    | split

theorem Keeps.dmaFailed {r s : State} (h : Keeps r s) r' status :
    Keeps r (State.dmaFailed s r' status) := by
  unfold State.dmaFailed
  repeat' first
    | with_reducible assumption
    | with_reducible apply Keeps.halt
    | with_reducible apply Keeps.setRing
    | (fail_if_no_progress (with_reducible (refine Keeps.lit ?_ rfl rfl rfl)))
    | with_reducible (refine Keeps.ite ?_ ?_)
    | split

theorem Keeps.dmaCompletion {r s : State} (h : Keeps r s) p tag status ep data :
    Keeps r (State.dmaCompletion s p tag status ep data) := by
  unfold State.dmaCompletion
  repeat' first
    | with_reducible assumption
    | with_reducible apply Keeps.aerUnc
    | with_reducible apply Keeps.dmaFailed
    | with_reducible apply Keeps.inc
    | with_reducible apply Keeps.ioDone
    | with_reducible apply Keeps.ioPoison
    | with_reducible apply Keeps.setPort
    | with_reducible apply Keeps.setRing
    | with_reducible apply Keeps.settleInval
    | with_reducible apply Keeps.when
    | with_reducible (refine Keeps.foldl _ ?_ (fun _ _ _ => ?_))
    | with_reducible (refine Keeps.foldlSnd _ ?_ (fun _ _ _ => ?_))
    | with_reducible (refine Keeps.foldlSnd2 _ ?_ (fun _ _ _ => ?_))
    | (fail_if_no_progress (with_reducible (refine Keeps.lit ?_ rfl rfl rfl)))
    | (intro x; refine Keeps.cut (r := r) x ?_ (fun _ => ?_) <;> [subst x; clear_value x])
    | (intro (x : _ × State); refine Keeps.cut (r := r) x.2 ?_ (fun _ => ?_) <;> [subst x; clear_value x])
    | (intro x; clear_value x)
    | with_reducible (refine Keeps.ite ?_ ?_)
    | split
    | lift_lets
    | with_reducible (refine Keeps.ofSnd (by assumption) ?_)
    | with_reducible (refine Keeps.ofSnd2 (by assumption) ?_)
    | intro

theorem Keeps.tagTimeout {r s : State} (h : Keeps r s) p owner :
    Keeps r (State.tagTimeout s p owner) := by
  unfold State.tagTimeout
  repeat' first
    | with_reducible assumption
    | with_reducible apply Keeps.aerUnc
    | with_reducible apply Keeps.dmaFailed
    | with_reducible apply Keeps.inc
    | with_reducible apply Keeps.ioDone
    | with_reducible apply Keeps.raise
    | (fail_if_no_progress (with_reducible (refine Keeps.lit ?_ rfl rfl rfl)))
    | with_reducible (refine Keeps.ite ?_ ?_)
    | split

theorem Keeps.dmaTimeout {r s : State} (h : Keeps r s) p tag :
    Keeps r (State.dmaTimeout s p tag) := by
  unfold State.dmaTimeout
  repeat' first
    | with_reducible assumption
    | with_reducible apply Keeps.setPort
    | with_reducible apply Keeps.settleInval
    | with_reducible apply Keeps.tagTimeout
    | (fail_if_no_progress (with_reducible (refine Keeps.lit ?_ rfl rfl rfl)))
    | (intro x; refine Keeps.cut (r := r) x ?_ (fun _ => ?_) <;> [subst x; clear_value x])
    | (intro (x : _ × State); refine Keeps.cut (r := r) x.2 ?_ (fun _ => ?_) <;> [subst x; clear_value x])
    | (intro x; clear_value x)
    | with_reducible (refine Keeps.ite ?_ ?_)
    | split
    | lift_lets

theorem Keeps.linkUp {r s : State} (h : Keeps r s) p speed width flit :
    Keeps r (State.linkUp s p speed width flit) := by
  unfold State.linkUp
  repeat' first
    | with_reducible assumption
    | with_reducible apply Keeps.raise
    | with_reducible apply Keeps.wr
    | (fail_if_no_progress (with_reducible (refine Keeps.lit ?_ rfl rfl rfl)))
    | with_reducible (refine Keeps.ite ?_ ?_)
    | split

theorem Keeps.tlpError {r s : State} (h : Keeps r s) p k hdr :
    Keeps r (State.tlpError s p k hdr) := by
  unfold State.tlpError
  repeat' first
    | with_reducible assumption
    | with_reducible apply Keeps.aerCor
    | with_reducible apply Keeps.aerUnc
    | with_reducible apply Keeps.haltPort
    | with_reducible apply Keeps.inc
    | with_reducible apply Keeps.setPort
    | (fail_if_no_progress (with_reducible (refine Keeps.lit ?_ rfl rfl rfl)))
    | with_reducible (refine Keeps.ite ?_ ?_)
    | split

theorem Keeps.xlatCompletion {r s : State} (h : Keeps r s) p tag ok frame read write :
    Keeps r (State.xlatCompletion s p tag ok frame read write) := by
  unfold State.xlatCompletion
  repeat' first
    | with_reducible assumption
    | with_reducible apply Keeps.aerUnc
    | with_reducible apply Keeps.coreDma
    | with_reducible apply Keeps.dmaFailed
    | with_reducible apply Keeps.inc
    | with_reducible apply Keeps.ioDone
    | with_reducible apply Keeps.setPort
    | (fail_if_no_progress (with_reducible (refine Keeps.lit ?_ rfl rfl rfl)))
    | (intro x; refine Keeps.cut (r := r) x ?_ (fun _ => ?_) <;> [subst x; clear_value x])
    | (intro (x : _ × State); refine Keeps.cut (r := r) x.2 ?_ (fun _ => ?_) <;> [subst x; clear_value x])
    | (intro x; clear_value x)
    | with_reducible (refine Keeps.ite ?_ ?_)
    | split
    | lift_lets

theorem Keeps.badDb {r s : State} (h : Keeps r s) :
    Keeps r (State.badDb s) := by
  unfold State.badDb
  repeat' first
    | with_reducible assumption
    | with_reducible apply Keeps.inc
    | with_reducible apply Keeps.raise
    | (fail_if_no_progress (with_reducible (refine Keeps.lit ?_ rfl rfl rfl)))
    | with_reducible (refine Keeps.ite ?_ ?_)
    | split

theorem Keeps.cmdRead {r s : State} (h : Keeps r s) r' agent pa len :
    Keeps r (State.cmdRead s r' agent pa len).2 := by
  unfold State.cmdRead
  repeat' first
    | with_reducible assumption
    | with_reducible apply Keeps.devRead
    | with_reducible apply Keeps.dmaRead
    | with_reducible (refine Keeps.foldl _ ?_ (fun _ _ _ => ?_))
    | with_reducible (refine Keeps.foldlSnd _ ?_ (fun _ _ _ => ?_))
    | with_reducible (refine Keeps.foldlSnd2 _ ?_ (fun _ _ _ => ?_))
    | (fail_if_no_progress (with_reducible (refine Keeps.lit ?_ rfl rfl rfl)))
    | (intro x; refine Keeps.cut (r := r) x ?_ (fun _ => ?_) <;> [subst x; clear_value x])
    | (intro (x : _ × State); refine Keeps.cut (r := r) x.2 ?_ (fun _ => ?_) <;> [subst x; clear_value x])
    | (intro x; clear_value x)
    | with_reducible (refine Keeps.ite ?_ ?_)
    | split
    | lift_lets
    | with_reducible (refine Keeps.ofSnd (by assumption) ?_)
    | with_reducible (refine Keeps.ofSnd2 (by assumption) ?_)
    | intro

theorem Keeps.cmdWrite {r s : State} (h : Keeps r s) r' agent pa data :
    Keeps r (State.cmdWrite s r' agent pa data).2 := by
  unfold State.cmdWrite
  repeat' first
    | with_reducible assumption
    | with_reducible apply Keeps.devWrite
    | with_reducible apply Keeps.dmaWrite
    | with_reducible apply Keeps.xlatRange
    | with_reducible (refine Keeps.foldl _ ?_ (fun _ _ _ => ?_))
    | with_reducible (refine Keeps.foldlSnd _ ?_ (fun _ _ _ => ?_))
    | with_reducible (refine Keeps.foldlSnd2 _ ?_ (fun _ _ _ => ?_))
    | (fail_if_no_progress (with_reducible (refine Keeps.lit ?_ rfl rfl rfl)))
    | (intro x; refine Keeps.cut (r := r) x ?_ (fun _ => ?_) <;> [subst x; clear_value x])
    | (intro (x : _ × State); refine Keeps.cut (r := r) x.2 ?_ (fun _ => ?_) <;> [subst x; clear_value x])
    | (intro x; clear_value x)
    | with_reducible (refine Keeps.ite ?_ ?_)
    | split
    | lift_lets
    | with_reducible (refine Keeps.ofSnd (by assumption) ?_)
    | with_reducible (refine Keeps.ofSnd2 (by assumption) ?_)
    | intro

theorem Keeps.cqAdvance {r s : State} (h : Keeps r s) r' :
    Keeps r (State.cqAdvance s r') := by
  unfold State.cqAdvance
  repeat' first
    | with_reducible assumption
    | with_reducible apply Keeps.setRing
    | with_reducible apply Keeps.wr
    | (fail_if_no_progress (with_reducible (refine Keeps.lit ?_ rfl rfl rfl)))
    | with_reducible (refine Keeps.ite ?_ ?_)
    | split

theorem Keeps.haltAfter {r s : State} (h : Keeps r s) r' slot status :
    Keeps r (State.haltAfter s r' slot status) := by
  unfold State.haltAfter
  repeat' first
    | with_reducible assumption
    | with_reducible apply Keeps.raise
    | with_reducible apply Keeps.ringGo
    | with_reducible apply Keeps.setRing
    | with_reducible apply Keeps.wr
    | (fail_if_no_progress (with_reducible (refine Keeps.lit ?_ rfl rfl rfl)))
    | with_reducible (refine Keeps.ite ?_ ?_)
    | split

theorem Keeps.completion {r s : State} (h : Keeps r s) r' :
    Keeps r (State.completion s r') := by
  unfold State.completion
  repeat' first
    | with_reducible assumption
    | with_reducible apply Keeps.cmdWrite
    | with_reducible apply Keeps.cqAdvance
    | with_reducible apply Keeps.haltAfter
    | with_reducible apply Keeps.inc
    | with_reducible apply Keeps.ringSignal
    | with_reducible (refine Keeps.foldl _ ?_ (fun _ _ _ => ?_))
    | with_reducible (refine Keeps.foldlSnd _ ?_ (fun _ _ _ => ?_))
    | with_reducible (refine Keeps.foldlSnd2 _ ?_ (fun _ _ _ => ?_))
    | (fail_if_no_progress (with_reducible (refine Keeps.lit ?_ rfl rfl rfl)))
    | (intro x; refine Keeps.cut (r := r) x ?_ (fun _ => ?_) <;> [subst x; clear_value x])
    | (intro (x : _ × State); refine Keeps.cut (r := r) x.2 ?_ (fun _ => ?_) <;> [subst x; clear_value x])
    | (intro x; clear_value x)
    | with_reducible (refine Keeps.ite ?_ ?_)
    | split
    | lift_lets
    | with_reducible (refine Keeps.ofSnd (by assumption) ?_)
    | with_reducible (refine Keeps.ofSnd2 (by assumption) ?_)
    | intro

theorem Keeps.dbServed {r s : State} (h : Keeps r s) k :
    Keeps r (State.dbServed s k) :=
  Keeps.lit h rfl rfl rfl

theorem Keeps.descFailed {r s : State} (h : Keeps r s) r' status :
    Keeps r (State.descFailed s r' status) := by
  unfold State.descFailed
  repeat' first
    | with_reducible assumption
    | with_reducible apply Keeps.halt
    | with_reducible apply Keeps.setRing
    | (fail_if_no_progress (with_reducible (refine Keeps.lit ?_ rfl rfl rfl)))
    | (intro x; refine Keeps.cut (r := r) x ?_ (fun _ => ?_) <;> [subst x; clear_value x])
    | (intro (x : _ × State); refine Keeps.cut (r := r) x.2 ?_ (fun _ => ?_) <;> [subst x; clear_value x])
    | (intro x; clear_value x)
    | with_reducible (refine Keeps.ite ?_ ?_)
    | split
    | lift_lets

theorem Keeps.fetchOne {r s : State} (h : Keeps r s) r' :
    Keeps r (State.fetchOne s r') := by
  unfold State.fetchOne
  repeat' first
    | with_reducible assumption
    | with_reducible apply Keeps.cmdRead
    | with_reducible apply Keeps.descFailed
    | with_reducible apply Keeps.setRing
    | with_reducible apply Keeps.wr
    | with_reducible (refine Keeps.foldl _ ?_ (fun _ _ _ => ?_))
    | with_reducible (refine Keeps.foldlSnd _ ?_ (fun _ _ _ => ?_))
    | with_reducible (refine Keeps.foldlSnd2 _ ?_ (fun _ _ _ => ?_))
    | (fail_if_no_progress (with_reducible (refine Keeps.lit ?_ rfl rfl rfl)))
    | (intro x; refine Keeps.cut (r := r) x ?_ (fun _ => ?_) <;> [subst x; clear_value x])
    | (intro (x : _ × State); refine Keeps.cut (r := r) x.2 ?_ (fun _ => ?_) <;> [subst x; clear_value x])
    | (intro x; clear_value x)
    | with_reducible (refine Keeps.ite ?_ ?_)
    | split
    | lift_lets
    | with_reducible (refine Keeps.ofSnd (by assumption) ?_)
    | with_reducible (refine Keeps.ofSnd2 (by assumption) ?_)
    | intro

theorem Keeps.startNext {r s : State} (h : Keeps r s) r' :
    Keeps r (State.startNext s r') := by
  unfold State.startNext
  repeat' first
    | with_reducible assumption
    | with_reducible apply Keeps.finish
    | with_reducible apply Keeps.inc
    | with_reducible apply Keeps.raise
    | with_reducible apply Keeps.setRing
    | with_reducible apply Keeps.spoof
    | (fail_if_no_progress (with_reducible (refine Keeps.lit ?_ rfl rfl rfl)))
    | (intro x; refine Keeps.cut (r := r) x ?_ (fun _ => ?_) <;> [subst x; clear_value x])
    | (intro (x : _ × State); refine Keeps.cut (r := r) x.2 ?_ (fun _ => ?_) <;> [subst x; clear_value x])
    | (intro x; clear_value x)
    | with_reducible (refine Keeps.ite ?_ ?_)
    | split
    | lift_lets

theorem Keeps.descFetch {r s : State} (h : Keeps r s) r' :
    Keeps r (State.descFetch s r') := by
  unfold State.descFetch
  repeat' first
    | with_reducible assumption
    | with_reducible apply Keeps.fetchOne
    | with_reducible apply Keeps.startNext
    | with_reducible (refine Keeps.foldl _ ?_ (fun _ _ _ => ?_))
    | with_reducible (refine Keeps.foldlSnd _ ?_ (fun _ _ _ => ?_))
    | with_reducible (refine Keeps.foldlSnd2 _ ?_ (fun _ _ _ => ?_))
    | (fail_if_no_progress (with_reducible (refine Keeps.lit ?_ rfl rfl rfl)))
    | (intro x; refine Keeps.cut (r := r) x ?_ (fun _ => ?_) <;> [subst x; clear_value x])
    | (intro (x : _ × State); refine Keeps.cut (r := r) x.2 ?_ (fun _ => ?_) <;> [subst x; clear_value x])
    | (intro x; clear_value x)
    | with_reducible (refine Keeps.ite ?_ ?_)
    | split
    | lift_lets
    | with_reducible (refine Keeps.ofSnd (by assumption) ?_)
    | with_reducible (refine Keeps.ofSnd2 (by assumption) ?_)
    | intro

theorem Keeps.dmaCopy {r s : State} (h : Keeps r s) r' :
    Keeps r (State.dmaCopy s r') := by
  unfold State.dmaCopy
  dsimp only
  repeat' first
    | with_reducible assumption
    | with_reducible apply Keeps.cmdRead
    | with_reducible apply Keeps.cmdWrite
    | with_reducible apply Keeps.finish
    | with_reducible apply Keeps.spoof
    | with_reducible (refine Keeps.foldl _ ?_ (fun _ _ _ => ?_))
    | with_reducible (refine Keeps.foldlSnd _ ?_ (fun _ _ _ => ?_))
    | with_reducible (refine Keeps.foldlSnd2 _ ?_ (fun _ _ _ => ?_))
    | (fail_if_no_progress (with_reducible (refine Keeps.lit ?_ rfl rfl rfl)))
    | (intro x; refine Keeps.cut (r := r) x ?_ (fun _ => ?_) <;> [subst x; clear_value x])
    | (intro (x : _ × State); refine Keeps.cut (r := r) x.2 ?_ (fun _ => ?_) <;> [subst x; clear_value x])
    | (intro (x : _ → State); subst x; beta_reduce)
    | (intro (x : _ → _ → State); subst x; beta_reduce)
    | (intro (x : _ → _ × State); subst x; beta_reduce)
    | (intro (x : _ → _ → _ × State); subst x; beta_reduce)
    | (intro (x : MemState); subst x)
    | (intro x; clear_value x)
    | with_reducible (refine Keeps.ite ?_ ?_)
    | split
    | lift_lets
    | with_reducible (refine Keeps.ofSnd (by assumption) ?_)
    | with_reducible (refine Keeps.ofSnd2 (by assumption) ?_)
    | intro

theorem Keeps.ringDoorbell {r s : State} (h : Keeps r s) r' cq v :
    Keeps r (State.ringDoorbell s r' cq v) := by
  unfold State.ringDoorbell
  repeat' first
    | with_reducible assumption
    | with_reducible apply Keeps.inc
    | with_reducible apply Keeps.raise
    | with_reducible apply Keeps.wr
    | (fail_if_no_progress (with_reducible (refine Keeps.lit ?_ rfl rfl rfl)))
    | with_reducible (refine Keeps.ite ?_ ?_)
    | split

theorem Keeps.slicedDoorbell {r s : State} (h : Keeps r s) sl r' cq v :
    Keeps r (State.slicedDoorbell s sl r' cq v) := by
  unfold State.slicedDoorbell
  repeat' first
    | with_reducible assumption
    | with_reducible apply Keeps.badDb
    | with_reducible apply Keeps.raise
    | with_reducible apply Keeps.ringDoorbell
    | with_reducible apply Keeps.spoof
    | (fail_if_no_progress (with_reducible (refine Keeps.lit ?_ rfl rfl rfl)))
    | with_reducible (refine Keeps.ite ?_ ?_)
    | split

theorem Keeps.doorbell {r s : State} (h : Keeps r s) db cq v :
    Keeps r (State.doorbell s db cq v) := by
  unfold State.doorbell
  repeat' first
    | with_reducible assumption
    | with_reducible apply Keeps.badDb
    | with_reducible apply Keeps.dbServed
    | with_reducible apply Keeps.inc
    | with_reducible apply Keeps.ringDoorbell
    | with_reducible apply Keeps.slicedDoorbell
    | (fail_if_no_progress (with_reducible (refine Keeps.lit ?_ rfl rfl rfl)))
    | with_reducible (refine Keeps.ite ?_ ?_)
    | split

theorem Keeps.evqDb {r s : State} (h : Keeps r s) q v :
    Keeps r (State.evqDb s q v) := by
  unfold State.evqDb
  repeat' first
    | with_reducible assumption
    | with_reducible apply Keeps.raise
    | with_reducible apply Keeps.wr
    | (fail_if_no_progress (with_reducible (refine Keeps.lit ?_ rfl rfl rfl)))
    | with_reducible (refine Keeps.ite ?_ ?_)
    | split

theorem Keeps.ringDisable {r s : State} (h : Keeps r s) r' :
    Keeps r (State.ringDisable s r') := by
  unfold State.ringDisable
  repeat' first
    | with_reducible assumption
    | with_reducible apply Keeps.abandonUnits
    | with_reducible apply Keeps.bump
    | with_reducible apply Keeps.ringGo
    | with_reducible apply Keeps.setRing
    | with_reducible apply Keeps.wr
    | (fail_if_no_progress (with_reducible (refine Keeps.lit ?_ rfl rfl rfl)))
    | with_reducible (refine Keeps.ite ?_ ?_)
    | split

theorem Keeps.sliceUse {r s : State} (h : Keeps r s) sl :
    Keeps r (State.sliceUse s sl) := by
  unfold State.sliceUse
  repeat' first
    | with_reducible assumption
    | with_reducible apply Keeps.wr
    | (fail_if_no_progress (with_reducible (refine Keeps.lit ?_ rfl rfl rfl)))
    | with_reducible (refine Keeps.ite ?_ ?_)
    | split

theorem Keeps.ringOwner {r s : State} (h : Keeps r s) r' sl :
    Keeps r (State.ringOwner s r' sl) := by
  unfold State.ringOwner
  repeat' first
    | with_reducible assumption
    | with_reducible apply Keeps.bump
    | with_reducible apply Keeps.sliceUse
    | with_reducible apply Keeps.wr
    | (fail_if_no_progress (with_reducible (refine Keeps.lit ?_ rfl rfl rfl)))
    | with_reducible (refine Keeps.ite ?_ ?_)
    | split

theorem Keeps.ringResume {r s : State} (h : Keeps r s) r' :
    Keeps r (State.ringResume s r') := by
  unfold State.ringResume
  repeat' first
    | with_reducible assumption
    | with_reducible apply Keeps.ringGo
    | with_reducible apply Keeps.setRing
    | (fail_if_no_progress (with_reducible (refine Keeps.lit ?_ rfl rfl rfl)))
    | with_reducible (refine Keeps.ite ?_ ?_)
    | split

theorem Keeps.ringCfg {r s : State} (h : Keeps r s) r' v :
    Keeps r (State.ringCfg s r' v) := by
  unfold State.ringCfg
  repeat' first
    | with_reducible assumption
    | with_reducible apply Keeps.bump
    | with_reducible apply Keeps.raise
    | with_reducible apply Keeps.ringDisable
    | with_reducible apply Keeps.ringGo
    | with_reducible apply Keeps.ringOwner
    | with_reducible apply Keeps.ringResume
    | with_reducible apply Keeps.setRing
    | with_reducible apply Keeps.wr
    | (fail_if_no_progress (with_reducible (refine Keeps.lit ?_ rfl rfl rfl)))
    | with_reducible (refine Keeps.ite ?_ ?_)
    | split

theorem Keeps.setEvent {r s : State} (h : Keeps r s) c e :
    Keeps r (State.setEvent s c e) :=
  Keeps.lit h rfl rfl rfl

theorem Keeps.readyCheck {r s : State} (h : Keeps r s) c :
    Keeps r (State.readyCheck s c) := by
  unfold State.readyCheck
  repeat' first
    | with_reducible assumption
    | with_reducible apply Keeps.setEvent
    | (fail_if_no_progress (with_reducible (refine Keeps.lit ?_ rfl rfl rfl)))
    | with_reducible (refine Keeps.ite ?_ ?_)
    | split

theorem Keeps.assemble {r s : State} (h : Keeps r s) c :
    Keeps r (State.assemble s c) := by
  unfold State.assemble
  repeat' first
    | with_reducible assumption
    | with_reducible apply Keeps.readyCheck
    | with_reducible apply Keeps.setEvent
    | (fail_if_no_progress (with_reducible (refine Keeps.lit ?_ rfl rfl rfl)))
    | with_reducible (refine Keeps.ite ?_ ?_)
    | split

theorem Keeps.assembleAll {r s : State} (h : Keeps r s) :
    Keeps r (State.assembleAll s) := by
  unfold State.assembleAll
  repeat' first
    | with_reducible assumption
    | with_reducible apply Keeps.assemble
    | with_reducible (refine Keeps.foldl _ ?_ (fun _ _ _ => ?_))
    | with_reducible (refine Keeps.foldlSnd _ ?_ (fun _ _ _ => ?_))
    | with_reducible (refine Keeps.foldlSnd2 _ ?_ (fun _ _ _ => ?_))
    | (fail_if_no_progress (with_reducible (refine Keeps.lit ?_ rfl rfl rfl)))
    | (intro x; refine Keeps.cut (r := r) x ?_ (fun _ => ?_) <;> [subst x; clear_value x])
    | (intro (x : _ × State); refine Keeps.cut (r := r) x.2 ?_ (fun _ => ?_) <;> [subst x; clear_value x])
    | (intro x; clear_value x)
    | with_reducible (refine Keeps.ite ?_ ?_)
    | split
    | lift_lets
    | with_reducible (refine Keeps.ofSnd (by assumption) ?_)
    | with_reducible (refine Keeps.ofSnd2 (by assumption) ?_)
    | intro

theorem Keeps.bumpCtx {r s : State} (h : Keeps r s) c :
    Keeps r (State.bumpCtx s c) :=
  Keeps.lit h rfl rfl rfl

theorem Keeps.markBp {r s : State} (h : Keeps r s) bp :
    Keeps r (State.markBp s bp) := by
  unfold State.markBp
  repeat' first
    | with_reducible assumption
    | (fail_if_no_progress (with_reducible (refine Keeps.lit ?_ rfl rfl rfl)))
    | with_reducible (refine Keeps.ite ?_ ?_)
    | split

theorem Keeps.setPool {r s : State} (h : Keeps r s) p x :
    Keeps r (State.setPool s p x) :=
  Keeps.lit h rfl rfl rfl

theorem Keeps.poolLow {r s : State} (h : Keeps r s) p :
    Keeps r (State.poolLow s p) := by
  unfold State.poolLow
  repeat' first
    | with_reducible assumption
    | with_reducible apply Keeps.raise
    | with_reducible apply Keeps.setPool
    | with_reducible apply Keeps.wr
    | (fail_if_no_progress (with_reducible (refine Keeps.lit ?_ rfl rfl rfl)))
    | with_reducible (refine Keeps.ite ?_ ?_)
    | split

theorem Keeps.evbSettle {r s : State} (h : Keeps r s) :
    Keeps r (State.evbSettle s) := by
  unfold State.evbSettle
  repeat' first
    | with_reducible assumption
    | with_reducible apply Keeps.markBp
    | with_reducible apply Keeps.poolLow
    | with_reducible apply Keeps.raise
    | with_reducible apply Keeps.wr
    | with_reducible (refine Keeps.foldl _ ?_ (fun _ _ _ => ?_))
    | with_reducible (refine Keeps.foldlSnd _ ?_ (fun _ _ _ => ?_))
    | with_reducible (refine Keeps.foldlSnd2 _ ?_ (fun _ _ _ => ?_))
    | (fail_if_no_progress (with_reducible (refine Keeps.lit ?_ rfl rfl rfl)))
    | (intro x; refine Keeps.cut (r := r) x ?_ (fun _ => ?_) <;> [subst x; clear_value x])
    | (intro (x : _ × State); refine Keeps.cut (r := r) x.2 ?_ (fun _ => ?_) <;> [subst x; clear_value x])
    | (intro x; clear_value x)
    | with_reducible (refine Keeps.ite ?_ ?_)
    | split
    | lift_lets
    | with_reducible (refine Keeps.ofSnd (by assumption) ?_)
    | with_reducible (refine Keeps.ofSnd2 (by assumption) ?_)
    | intro

theorem Keeps.poolRelease {r s : State} (h : Keeps r s) p ctx epoch :
    Keeps r (State.poolRelease s p ctx epoch) :=
  Keeps.lit h rfl rfl rfl

theorem Keeps.freeEvent {r s : State} (h : Keeps r s) c :
    Keeps r (State.freeEvent s c) := by
  unfold State.freeEvent
  repeat' first
    | with_reducible assumption
    | with_reducible apply Keeps.bumpCtx
    | with_reducible apply Keeps.evbSettle
    | with_reducible apply Keeps.poolRelease
    | with_reducible apply Keeps.setPool
    | (fail_if_no_progress (with_reducible (refine Keeps.lit ?_ rfl rfl rfl)))
    | with_reducible (refine Keeps.ite ?_ ?_)
    | split

theorem Keeps.noRoute {r s : State} (h : Keeps r s) r' :
    Keeps r (State.noRoute s r') := by
  unfold State.noRoute
  repeat' first
    | with_reducible assumption
    | with_reducible apply Keeps.inc
    | with_reducible apply Keeps.raise
    | (fail_if_no_progress (with_reducible (refine Keeps.lit ?_ rfl rfl rfl)))
    | with_reducible (refine Keeps.ite ?_ ?_)
    | split

theorem Keeps.dropEvent {r s : State} (h : Keeps r s) c :
    Keeps r (State.dropEvent s c) := by
  unfold State.dropEvent
  repeat' first
    | with_reducible assumption
    | with_reducible apply Keeps.freeEvent
    | with_reducible apply Keeps.noRoute
    | (fail_if_no_progress (with_reducible (refine Keeps.lit ?_ rfl rfl rfl)))
    | with_reducible (refine Keeps.ite ?_ ?_)
    | split

theorem Keeps.hAccept {r s : State} (h : Keeps r s) r' b evn late :
    Keeps r (State.hAccept s r' b evn late) := by
  unfold State.hAccept
  repeat' first
    | with_reducible assumption
    | with_reducible apply Keeps.toGuest
    | with_reducible (refine Keeps.foldl _ ?_ (fun _ _ _ => ?_))
    | with_reducible (refine Keeps.foldlSnd _ ?_ (fun _ _ _ => ?_))
    | with_reducible (refine Keeps.foldlSnd2 _ ?_ (fun _ _ _ => ?_))
    | (fail_if_no_progress (with_reducible (refine Keeps.lit ?_ rfl rfl rfl)))
    | (intro x; refine Keeps.cut (r := r) x ?_ (fun _ => ?_) <;> [subst x; clear_value x])
    | (intro (x : _ × State); refine Keeps.cut (r := r) x.2 ?_ (fun _ => ?_) <;> [subst x; clear_value x])
    | (intro x; clear_value x)
    | with_reducible (refine Keeps.ite ?_ ?_)
    | split
    | lift_lets
    | with_reducible (refine Keeps.ofSnd (by assumption) ?_)
    | with_reducible (refine Keeps.ofSnd2 (by assumption) ?_)
    | intro

theorem Keeps.openEvent {r s : State} (h : Keeps r s) a c :
    Keeps r (State.openEvent s a c) := by
  unfold State.openEvent
  repeat' first
    | with_reducible assumption
    | with_reducible apply Keeps.assemble
    | with_reducible apply Keeps.bumpCtx
    | with_reducible apply Keeps.readyCheck
    | with_reducible apply Keeps.setEvent
    | (fail_if_no_progress (with_reducible (refine Keeps.lit ?_ rfl rfl rfl)))
    | with_reducible (refine Keeps.ite ?_ ?_)
    | split

theorem Keeps.takeCtx {r s t : State} {c} (e : State.takeCtx s = some (c, t)) (h : Keeps r s) : Keeps r t := by
  unfold State.takeCtx at e
  split at e
  · cases e; exact Keeps.lit h rfl rfl rfl
  · split at e <;> cases e
    exact Keeps.lit h rfl rfl rfl

theorem Keeps.evAccept {r s : State} (h : Keeps r s) b ttype late pass release :
    Keeps r (State.evAccept s b ttype late pass release) := by
  unfold State.evAccept
  repeat' first
    | with_reducible assumption
    | with_reducible apply Keeps.bump
    | with_reducible apply Keeps.evbSettle
    | with_reducible apply Keeps.hAccept
    | with_reducible apply Keeps.inc
    | with_reducible apply Keeps.noRoute
    | with_reducible apply Keeps.openEvent
    | with_reducible apply Keeps.raise
    | with_reducible (refine Keeps.takeCtx (by assumption) ?_)
    | with_reducible (refine Keeps.foldl _ ?_ (fun _ _ _ => ?_))
    | with_reducible (refine Keeps.foldlSnd _ ?_ (fun _ _ _ => ?_))
    | with_reducible (refine Keeps.foldlSnd2 _ ?_ (fun _ _ _ => ?_))
    | (fail_if_no_progress (with_reducible (refine Keeps.lit ?_ rfl rfl rfl)))
    | (intro x; refine Keeps.cut (r := r) x ?_ (fun _ => ?_) <;> [subst x; clear_value x])
    | (intro (x : _ × State); refine Keeps.cut (r := r) x.2 ?_ (fun _ => ?_) <;> [subst x; clear_value x])
    | (intro (x : _ → State); subst x; beta_reduce)
    | (intro (x : _ → _ → State); subst x; beta_reduce)
    | (intro (x : _ → _ × State); subst x; beta_reduce)
    | (intro (x : _ → _ → _ × State); subst x; beta_reduce)
    | (intro (x : MemState); subst x)
    | (intro x; clear_value x)
    | with_reducible (refine Keeps.ite ?_ ?_)
    | split
    | lift_lets
    | with_reducible (refine Keeps.ofSnd (by assumption) ?_)
    | with_reducible (refine Keeps.ofSnd2 (by assumption) ?_)
    | intro

theorem Keeps.evbLoad {r s : State} (h : Keeps r s) :
    Keeps r (State.evbLoad s) := by
  unfold State.evbLoad
  repeat' first
    | with_reducible assumption
    | with_reducible apply Keeps.readyCheck
    | with_reducible apply Keeps.setEvent
    | with_reducible (refine Keeps.foldl _ ?_ (fun _ _ _ => ?_))
    | with_reducible (refine Keeps.foldlSnd _ ?_ (fun _ _ _ => ?_))
    | with_reducible (refine Keeps.foldlSnd2 _ ?_ (fun _ _ _ => ?_))
    | (fail_if_no_progress (with_reducible (refine Keeps.lit ?_ rfl rfl rfl)))
    | (intro x; refine Keeps.cut (r := r) x ?_ (fun _ => ?_) <;> [subst x; clear_value x])
    | (intro (x : _ × State); refine Keeps.cut (r := r) x.2 ?_ (fun _ => ?_) <;> [subst x; clear_value x])
    | (intro x; clear_value x)
    | with_reducible (refine Keeps.ite ?_ ?_)
    | split
    | lift_lets
    | with_reducible (refine Keeps.ofSnd (by assumption) ?_)
    | with_reducible (refine Keeps.ofSnd2 (by assumption) ?_)
    | intro

theorem Keeps.setQueued {r s : State} (h : Keeps r s) q l :
    Keeps r (State.setQueued s q l) :=
  Keeps.lit h rfl rfl rfl

theorem Keeps.releaseQueue {r s : State} (h : Keeps r s) q k :
    Keeps r (State.releaseQueue s q k) := by
  unfold State.releaseQueue
  repeat' first
    | with_reducible assumption
    | with_reducible apply Keeps.freeEvent
    | with_reducible apply Keeps.setQueued
    | with_reducible (refine Keeps.foldl _ ?_ (fun _ _ _ => ?_))
    | with_reducible (refine Keeps.foldlSnd _ ?_ (fun _ _ _ => ?_))
    | with_reducible (refine Keeps.foldlSnd2 _ ?_ (fun _ _ _ => ?_))
    | (fail_if_no_progress (with_reducible (refine Keeps.lit ?_ rfl rfl rfl)))
    | (intro x; refine Keeps.cut (r := r) x ?_ (fun _ => ?_) <;> [subst x; clear_value x])
    | (intro (x : _ × State); refine Keeps.cut (r := r) x.2 ?_ (fun _ => ?_) <;> [subst x; clear_value x])
    | (intro x; clear_value x)
    | with_reducible (refine Keeps.ite ?_ ?_)
    | split
    | lift_lets
    | with_reducible (refine Keeps.ofSnd (by assumption) ?_)
    | with_reducible (refine Keeps.ofSnd2 (by assumption) ?_)
    | intro

theorem Keeps.queueDoorbell {r s : State} (h : Keeps r s) q v :
    Keeps r (State.queueDoorbell s q v) := by
  unfold State.queueDoorbell
  repeat' first
    | with_reducible assumption
    | with_reducible apply Keeps.inc
    | with_reducible apply Keeps.releaseQueue
    | with_reducible apply Keeps.wr
    | (fail_if_no_progress (with_reducible (refine Keeps.lit ?_ rfl rfl rfl)))
    | with_reducible (refine Keeps.ite ?_ ?_)
    | split

theorem Keeps.slicedQueue {r s : State} (h : Keeps r s) sl q v :
    Keeps r (State.slicedQueue s sl q v) := by
  unfold State.slicedQueue
  repeat' first
    | with_reducible assumption
    | with_reducible apply Keeps.badDb
    | with_reducible apply Keeps.queueDoorbell
    | with_reducible apply Keeps.raise
    | with_reducible apply Keeps.spoof
    | (fail_if_no_progress (with_reducible (refine Keeps.lit ?_ rfl rfl rfl)))
    | with_reducible (refine Keeps.ite ?_ ?_)
    | split

theorem Keeps.queueDb {r s : State} (h : Keeps r s) db v :
    Keeps r (State.queueDb s db v) := by
  unfold State.queueDb
  repeat' first
    | with_reducible assumption
    | with_reducible apply Keeps.badDb
    | with_reducible apply Keeps.dbServed
    | with_reducible apply Keeps.inc
    | with_reducible apply Keeps.queueDoorbell
    | with_reducible apply Keeps.slicedQueue
    | (fail_if_no_progress (with_reducible (refine Keeps.lit ?_ rfl rfl rfl)))
    | with_reducible (refine Keeps.ite ?_ ?_)
    | split

theorem Keeps.rechoose {r s : State} (h : Keeps r s) q :
    Keeps r (State.rechoose s q) :=
  Keeps.lit h rfl rfl rfl

theorem Keeps.setSubs {r s : State} (h : Keeps r s) r' l :
    Keeps r (State.setSubs s r' l) := by
  unfold State.setSubs
  repeat' first
    | with_reducible assumption
    | with_reducible apply Keeps.wr
    | (fail_if_no_progress (with_reducible (refine Keeps.lit ?_ rfl rfl rfl)))
    | with_reducible (refine Keeps.ite ?_ ?_)
    | split

theorem Keeps.queueOut {r s : State} (h : Keeps r s) q :
    Keeps r (State.queueOut s q) := by
  unfold State.queueOut
  repeat' first
    | with_reducible assumption
    | with_reducible apply Keeps.inc
    | with_reducible apply Keeps.rechoose
    | with_reducible apply Keeps.releaseQueue
    | with_reducible apply Keeps.setSubs
    | with_reducible apply Keeps.wr
    | with_reducible (refine Keeps.foldl _ ?_ (fun _ _ _ => ?_))
    | with_reducible (refine Keeps.foldlSnd _ ?_ (fun _ _ _ => ?_))
    | with_reducible (refine Keeps.foldlSnd2 _ ?_ (fun _ _ _ => ?_))
    | (fail_if_no_progress (with_reducible (refine Keeps.lit ?_ rfl rfl rfl)))
    | (intro x; refine Keeps.cut (r := r) x ?_ (fun _ => ?_) <;> [subst x; clear_value x])
    | (intro (x : _ × State); refine Keeps.cut (r := r) x.2 ?_ (fun _ => ?_) <;> [subst x; clear_value x])
    | (intro x; clear_value x)
    | with_reducible (refine Keeps.ite ?_ ?_)
    | split
    | lift_lets
    | with_reducible (refine Keeps.ofSnd (by assumption) ?_)
    | with_reducible (refine Keeps.ofSnd2 (by assumption) ?_)
    | intro

theorem Keeps.queueDisable {r s : State} (h : Keeps r s) q :
    Keeps r (State.queueDisable s q) := by
  unfold State.queueDisable
  repeat' first
    | with_reducible assumption
    | with_reducible apply Keeps.bump
    | with_reducible apply Keeps.queueOut
    | with_reducible apply Keeps.wr
    | (fail_if_no_progress (with_reducible (refine Keeps.lit ?_ rfl rfl rfl)))
    | with_reducible (refine Keeps.ite ?_ ?_)
    | split

end Sys2Proof.Machine
end

