-- ==== Sys2Proof/Laws/KeepsReadout.lean ====
section
/-!
SUPPORT. Each operation of EventBuilder, Coherence, Memory, Cores, TrgOps, CtxOps, LaneOps, Lanes, Contexts, Tio, Beat
keeps the relation `Keeps` of its state to an earlier one.
-/

set_option Elab.async false

set_option linter.all false

namespace Sys2Proof.Machine

theorem Keeps.assemblyTimeout {r s : State} (h : Keeps r s) c :
    Keeps r (State.assemblyTimeout s c) := by
  unfold State.assemblyTimeout
  repeat' first
    | with_reducible assumption
    | with_reducible apply Keeps.assemble
    | with_reducible apply Keeps.readyCheck
    | with_reducible apply Keeps.setEvent
    | (fail_if_no_progress (with_reducible (refine Keeps.lit ?_ rfl rfl rfl)))
    | (intro x; refine Keeps.cut (r := r) x ?_ (fun _ => ?_) <;> [subst x; clear_value x])
    | (intro (x : _ × State); refine Keeps.cut (r := r) x.2 ?_ (fun _ => ?_) <;> [subst x; clear_value x])
    | (intro x; clear_value x)
    | with_reducible (refine Keeps.ite ?_ ?_)
    | split
    | lift_lets

theorem Keeps.bpAge {r s : State} (h : Keeps r s) c :
    Keeps r (State.bpAge s c) := by
  unfold State.bpAge
  repeat' first
    | with_reducible assumption
    | with_reducible apply Keeps.evbSettle
    | with_reducible apply Keeps.setEvent
    | (fail_if_no_progress (with_reducible (refine Keeps.lit ?_ rfl rfl rfl)))
    | with_reducible (refine Keeps.ite ?_ ?_)
    | split

theorem Keeps.chooseQueue {r s : State} (h : Keeps r s) c e :
    Keeps r (State.chooseQueue s c e) := by
  unfold State.chooseQueue
  repeat' first
    | with_reducible assumption
    | with_reducible apply Keeps.dropEvent
    | with_reducible apply Keeps.setEvent
    | (fail_if_no_progress (with_reducible (refine Keeps.lit ?_ rfl rfl rfl)))
    | with_reducible (refine Keeps.ite ?_ ?_)
    | split

theorem Keeps.poisonedEntries {r s : State} (h : Keeps r s) n srcs :
    Keeps r (State.poisonedEntries s n srcs).2 := by
  unfold State.poisonedEntries
  repeat' first
    | with_reducible assumption
    | with_reducible apply Keeps.devRead
    | with_reducible (refine Keeps.foldl _ ?_ (fun _ _ _ => ?_))
    | with_reducible (refine Keeps.foldlSnd _ ?_ (fun _ _ _ => ?_))
    | with_reducible (refine Keeps.foldlSnd2 _ ?_ (fun _ _ _ => ?_))
    | (fail_if_no_progress (with_reducible (refine Keeps.lit ?_ rfl rfl rfl)))
    | (intro x; refine Keeps.cut (r := r) x ?_ (fun _ => ?_) <;> [subst x; clear_value x])
    | (intro (x : _ × State); refine Keeps.cut (r := r) x.2 ?_ (fun _ => ?_) <;> [subst x; clear_value x])
    | (intro (x : _ → State); subst x; beta_reduce)
    | (intro (x : _ → _ → State); subst x; beta_reduce)
    | (intro (x : _ → _ × State); subst x; beta_reduce)
    | (intro (x : _ → _ → _ × State); subst x; beta_reduce)
    | (intro (x : MemState); subst x)
    | (intro x; clear_value x)
    | with_reducible (refine Keeps.ite ?_ ?_)
    | split
    | lift_lets
    | with_reducible (refine Keeps.ofSnd (by assumption) ?_)
    | with_reducible (refine Keeps.ofSnd2 (by assumption) ?_)
    | intro

theorem Keeps.copyFrags {r s : State} (h : Keeps r s) l : Keeps r (State.copyFrags s l).2 := by
  induction l generalizing s with
  | nil => exact h
  | cons f fs ih =>
    unfold State.copyFrags
    have e : Keeps r (if f.source < 256 then s.poisonedEntries f.source f.srcs else (some [], s)).2 := by
      split
      · exact h.poisonedEntries _ _
      · exact h
    split
    rename_i x y
    rw [y] at e
    dsimp only
    split
    · exact e
    · have i := ih e
      split <;> rename_i z <;> rw [z] at i <;> exact i

theorem Keeps.copyDone {r s : State} (h : Keeps r s) c :
    Keeps r (State.copyDone s c) := by
  unfold State.copyDone
  repeat' first
    | with_reducible assumption
    | with_reducible apply Keeps.copyFrags
    | with_reducible apply Keeps.devWrite
    | with_reducible apply Keeps.inc
    | with_reducible apply Keeps.setEvent
    | with_reducible (refine Keeps.foldl _ ?_ (fun _ _ _ => ?_))
    | with_reducible (refine Keeps.foldlSnd _ ?_ (fun _ _ _ => ?_))
    | with_reducible (refine Keeps.foldlSnd2 _ ?_ (fun _ _ _ => ?_))
    | (fail_if_no_progress (with_reducible (refine Keeps.lit ?_ rfl rfl rfl)))
    | (intro x; refine Keeps.cut (r := r) x ?_ (fun _ => ?_) <;> [subst x; clear_value x])
    | (intro (x : _ × State); refine Keeps.cut (r := r) x.2 ?_ (fun _ => ?_) <;> [subst x; clear_value x])
    | (intro x; clear_value x)
    | with_reducible (refine Keeps.ite ?_ ?_)
    | split
    | lift_lets
    | with_reducible (refine Keeps.ofSnd (by assumption) ?_)
    | with_reducible (refine Keeps.ofSnd2 (by assumption) ?_)
    | intro

theorem Keeps.ctxAllocate {r s : State} (h : Keeps r s) :
    Keeps r (State.ctxAllocate s) := by
  unfold State.ctxAllocate
  repeat' first
    | with_reducible assumption
    | with_reducible apply Keeps.evbSettle
    | with_reducible apply Keeps.openEvent
    | with_reducible (refine Keeps.takeCtx (by assumption) ?_)
    | with_reducible (refine Keeps.foldl _ ?_ (fun _ _ _ => ?_))
    | with_reducible (refine Keeps.foldlSnd _ ?_ (fun _ _ _ => ?_))
    | with_reducible (refine Keeps.foldlSnd2 _ ?_ (fun _ _ _ => ?_))
    | (fail_if_no_progress (with_reducible (refine Keeps.lit ?_ rfl rfl rfl)))
    | (intro x; refine Keeps.cut (r := r) x ?_ (fun _ => ?_) <;> [subst x; clear_value x])
    | (intro (x : _ × State); refine Keeps.cut (r := r) x.2 ?_ (fun _ => ?_) <;> [subst x; clear_value x])
    | (intro (x : _ → State); subst x; beta_reduce)
    | (intro (x : _ → _ → State); subst x; beta_reduce)
    | (intro (x : _ → _ × State); subst x; beta_reduce)
    | (intro (x : _ → _ → _ × State); subst x; beta_reduce)
    | (intro (x : MemState); subst x)
    | (intro x; clear_value x)
    | with_reducible (refine Keeps.ite ?_ ?_)
    | split
    | lift_lets
    | with_reducible (refine Keeps.ofSnd (by assumption) ?_)
    | with_reducible (refine Keeps.ofSnd2 (by assumption) ?_)
    | intro

theorem Keeps.readItems {r s : State} (h : Keeps r s) r' q l k : Keeps r (State.readItems s r' q l k).2 := by
  induction l generalizing s k with
  | nil => exact h
  | cons c rest ih =>
    unfold State.readItems
    dsimp only
    split
    · exact ih h _
    · have e := fun pa n => h.cmdRead r' 5 pa n
      split <;> rename_i x
      · exact Keeps.ofSnd x (e _ _)
      · exact Keeps.ofSnd x (e _ _)
      · have g := Keeps.ofSnd x (e _ _)
        have e := fun pa n => g.cmdRead r' 5 pa n
        split <;> rename_i y
        · exact Keeps.ofSnd y (e _ _)
        · exact Keeps.ofSnd y (e _ _)
        · have i := ih (Keeps.ofSnd y (e _ _)) (k + 1)
          split
          · rename_i z; exact Keeps.ofSnd z i
          · exact i

theorem Keeps.deliverEvents {r s : State} (h : Keeps r s) r' q :
    Keeps r (State.deliverEvents s r' q) := by
  unfold State.deliverEvents
  repeat' first
    | with_reducible assumption
    | with_reducible apply Keeps.cmdWrite
    | with_reducible apply Keeps.finish
    | with_reducible apply Keeps.readItems
    | with_reducible apply Keeps.releaseQueue
    | with_reducible apply Keeps.wr
    | with_reducible (refine Keeps.foldl _ ?_ (fun _ _ _ => ?_))
    | with_reducible (refine Keeps.foldlSnd _ ?_ (fun _ _ _ => ?_))
    | with_reducible (refine Keeps.foldlSnd2 _ ?_ (fun _ _ _ => ?_))
    | (fail_if_no_progress (with_reducible (refine Keeps.lit ?_ rfl rfl rfl)))
    | (intro x; refine Keeps.cut (r := r) x ?_ (fun _ => ?_) <;> [subst x; clear_value x])
    | (intro (x : _ × State); refine Keeps.cut (r := r) x.2 ?_ (fun _ => ?_) <;> [subst x; clear_value x])
    | (intro x; clear_value x)
    | with_reducible (refine Keeps.ite ?_ ?_)
    | split
    | lift_lets
    | with_reducible (refine Keeps.ofSnd (by assumption) ?_)
    | with_reducible (refine Keeps.ofSnd2 (by assumption) ?_)
    | intro

theorem Keeps.evbSpoof {r s : State} (h : Keeps r s) r' :
    Keeps r (State.evbSpoof s r') := by
  unfold State.evbSpoof
  repeat' first
    | with_reducible assumption
    | with_reducible apply Keeps.finish
    | with_reducible apply Keeps.inc
    | with_reducible apply Keeps.raise
    | with_reducible apply Keeps.spoof
    | (fail_if_no_progress (with_reducible (refine Keeps.lit ?_ rfl rfl rfl)))
    | with_reducible (refine Keeps.ite ?_ ?_)
    | split

theorem Keeps.eventCopy {r s : State} (h : Keeps r s) :
    Keeps r (State.eventCopy s) := by
  unfold State.eventCopy
  repeat' first
    | with_reducible assumption
    | with_reducible apply Keeps.setEvent
    | with_reducible apply Keeps.setPool
    | (fail_if_no_progress (with_reducible (refine Keeps.lit ?_ rfl rfl rfl)))
    | with_reducible (refine Keeps.ite ?_ ?_)
    | split

theorem Keeps.postTo {r s : State} (h : Keeps r s) c e q :
    Keeps r (State.postTo s c e q) := by
  unfold State.postTo
  repeat' first
    | with_reducible assumption
    | with_reducible apply Keeps.bump
    | with_reducible apply Keeps.devWrite
    | with_reducible apply Keeps.evbSettle
    | with_reducible apply Keeps.inc
    | with_reducible apply Keeps.setEvent
    | with_reducible apply Keeps.setQueued
    | with_reducible (refine Keeps.foldl _ ?_ (fun _ _ _ => ?_))
    | with_reducible (refine Keeps.foldlSnd _ ?_ (fun _ _ _ => ?_))
    | with_reducible (refine Keeps.foldlSnd2 _ ?_ (fun _ _ _ => ?_))
    | (fail_if_no_progress (with_reducible (refine Keeps.lit ?_ rfl rfl rfl)))
    | (intro x; refine Keeps.cut (r := r) x ?_ (fun _ => ?_) <;> [subst x; clear_value x])
    | (intro (x : _ × State); refine Keeps.cut (r := r) x.2 ?_ (fun _ => ?_) <;> [subst x; clear_value x])
    | (intro x; clear_value x)
    | with_reducible (refine Keeps.ite ?_ ?_)
    | split
    | lift_lets
    | with_reducible (refine Keeps.ofSnd (by assumption) ?_)
    | with_reducible (refine Keeps.ofSnd2 (by assumption) ?_)
    | intro

theorem Keeps.eventPost {r s : State} (h : Keeps r s) c :
    Keeps r (State.eventPost s c) := by
  unfold State.eventPost
  repeat' first
    | with_reducible assumption
    | with_reducible apply Keeps.chooseQueue
    | with_reducible apply Keeps.postTo
    | (fail_if_no_progress (with_reducible (refine Keeps.lit ?_ rfl rfl rfl)))
    | (intro x; refine Keeps.cut (r := r) x ?_ (fun _ => ?_) <;> [subst x; clear_value x])
    | (intro (x : _ × State); refine Keeps.cut (r := r) x.2 ?_ (fun _ => ?_) <;> [subst x; clear_value x])
    | (intro x; clear_value x)
    | with_reducible (refine Keeps.ite ?_ ?_)
    | split
    | lift_lets

theorem Keeps.evqCfg {r s : State} (h : Keeps r s) q v :
    Keeps r (State.evqCfg s q v) := by
  unfold State.evqCfg
  repeat' first
    | with_reducible assumption
    | with_reducible apply Keeps.bump
    | with_reducible apply Keeps.queueDisable
    | with_reducible apply Keeps.queueOut
    | with_reducible apply Keeps.raise
    | with_reducible apply Keeps.wr
    | (fail_if_no_progress (with_reducible (refine Keeps.lit ?_ rfl rfl rfl)))
    | with_reducible (refine Keeps.ite ?_ ?_)
    | split

theorem Keeps.evtDeliver {r s : State} (h : Keeps r s) r' :
    Keeps r (State.evtDeliver s r') := by
  unfold State.evtDeliver
  repeat' first
    | with_reducible assumption
    | with_reducible apply Keeps.deliverEvents
    | with_reducible apply Keeps.finish
    | with_reducible apply Keeps.inc
    | with_reducible apply Keeps.spoof
    | (fail_if_no_progress (with_reducible (refine Keeps.lit ?_ rfl rfl rfl)))
    | with_reducible (refine Keeps.ite ?_ ?_)
    | split

theorem Keeps.histCfg {r s : State} (h : Keeps r s) n v :
    Keeps r (State.histCfg s n v) := by
  unfold State.histCfg
  repeat' first
    | with_reducible assumption
    | with_reducible apply Keeps.assembleAll
    | with_reducible apply Keeps.raise
    | with_reducible apply Keeps.setLane
    | with_reducible apply Keeps.wr
    | (fail_if_no_progress (with_reducible (refine Keeps.lit ?_ rfl rfl rfl)))
    | with_reducible (refine Keeps.ite ?_ ?_)
    | split

theorem Keeps.poolAllocate {r s : State} (h : Keeps r s) p :
    Keeps r (State.poolAllocate s p) := by
  unfold State.poolAllocate
  repeat' first
    | with_reducible assumption
    | with_reducible apply Keeps.dropEvent
    | with_reducible apply Keeps.evbSettle
    | with_reducible apply Keeps.setEvent
    | with_reducible apply Keeps.setPool
    | (fail_if_no_progress (with_reducible (refine Keeps.lit ?_ rfl rfl rfl)))
    | (intro x; refine Keeps.cut (r := r) x ?_ (fun _ => ?_) <;> [subst x; clear_value x])
    | (intro (x : _ × State); refine Keeps.cut (r := r) x.2 ?_ (fun _ => ?_) <;> [subst x; clear_value x])
    | (intro x; clear_value x)
    | with_reducible (refine Keeps.ite ?_ ?_)
    | split
    | lift_lets

theorem Keeps.poolCfg {r s : State} (h : Keeps r s) p v :
    Keeps r (State.poolCfg s p v) := by
  unfold State.poolCfg
  repeat' first
    | with_reducible assumption
    | with_reducible apply Keeps.evbSettle
    | with_reducible apply Keeps.raise
    | with_reducible apply Keeps.setPool
    | with_reducible apply Keeps.wr
    | (fail_if_no_progress (with_reducible (refine Keeps.lit ?_ rfl rfl rfl)))
    | with_reducible (refine Keeps.ite ?_ ?_)
    | split

theorem Keeps.routeCfg {r s : State} (h : Keeps r s) r' which v :
    Keeps r (State.routeCfg s r' which v) := by
  unfold State.routeCfg
  repeat' first
    | with_reducible assumption
    | with_reducible apply Keeps.raise
    | with_reducible apply Keeps.wr
    | (fail_if_no_progress (with_reducible (refine Keeps.lit ?_ rfl rfl rfl)))
    | with_reducible (refine Keeps.ite ?_ ?_)
    | split

theorem Keeps.subscribe {r s : State} (h : Keeps r s) r' sub :
    Keeps r (State.subscribe s r' sub) := by
  unfold State.subscribe
  repeat' first
    | with_reducible assumption
    | with_reducible apply Keeps.evbSpoof
    | with_reducible apply Keeps.finish
    | with_reducible apply Keeps.setSubs
    | (fail_if_no_progress (with_reducible (refine Keeps.lit ?_ rfl rfl rfl)))
    | with_reducible (refine Keeps.ite ?_ ?_)
    | split

theorem Keeps.clearL1s {r s : State} (h : Keeps r s) cl :
    Keeps r (State.clearL1s s cl) := by
  unfold State.clearL1s
  repeat' first
    | with_reducible assumption
    | with_reducible apply Keeps.setHart
    | with_reducible (refine Keeps.foldl _ ?_ (fun _ _ _ => ?_))
    | with_reducible (refine Keeps.foldlSnd _ ?_ (fun _ _ _ => ?_))
    | with_reducible (refine Keeps.foldlSnd2 _ ?_ (fun _ _ _ => ?_))
    | (fail_if_no_progress (with_reducible (refine Keeps.lit ?_ rfl rfl rfl)))
    | (intro x; refine Keeps.cut (r := r) x ?_ (fun _ => ?_) <;> [subst x; clear_value x])
    | (intro (x : _ × State); refine Keeps.cut (r := r) x.2 ?_ (fun _ => ?_) <;> [subst x; clear_value x])
    | (intro x; clear_value x)
    | with_reducible (refine Keeps.ite ?_ ?_)
    | split
    | lift_lets
    | with_reducible (refine Keeps.ofSnd (by assumption) ?_)
    | with_reducible (refine Keeps.ofSnd2 (by assumption) ?_)
    | intro

theorem Keeps.deliverHead {r s : State} (h : Keeps r s) ch isIt :
    Keeps r (State.deliverHead s ch isIt) := by
  unfold State.deliverHead
  repeat' first
    | with_reducible assumption
    | with_reducible apply Keeps.deliverMsg
    | with_reducible apply Keeps.snoopWake
    | with_reducible apply Keeps.takeHead
    | (fail_if_no_progress (with_reducible (refine Keeps.lit ?_ rfl rfl rfl)))
    | with_reducible (refine Keeps.ite ?_ ?_)
    | split

theorem Keeps.deliverIo {r s : State} (h : Keeps r s) k line :
    Keeps r (State.deliverIo s k line) := by
  unfold State.deliverIo
  repeat' first
    | with_reducible assumption
    | with_reducible apply Keeps.deliverHead
    | (fail_if_no_progress (with_reducible (refine Keeps.lit ?_ rfl rfl rfl)))
    | with_reducible (refine Keeps.ite ?_ ?_)
    | split

theorem Keeps.dirProbe {r s : State} (h : Keeps r s) v :
    Keeps r (State.dirProbe s v) := by
  unfold State.dirProbe
  repeat' first
    | with_reducible assumption
    | with_reducible apply Keeps.wr
    | (fail_if_no_progress (with_reducible (refine Keeps.lit ?_ rfl rfl rfl)))
    | with_reducible (refine Keeps.ite ?_ ?_)
    | split

theorem Keeps.l2En {r s : State} (h : Keeps r s) cl en :
    Keeps r (State.l2En s cl en) := by
  unfold State.l2En
  repeat' first
    | with_reducible assumption
    | with_reducible apply Keeps.clearL1s
    | with_reducible apply Keeps.wr
    | (fail_if_no_progress (with_reducible (refine Keeps.lit ?_ rfl rfl rfl)))
    | with_reducible (refine Keeps.ite ?_ ?_)
    | split

theorem Keeps.l2Flush {r s : State} (h : Keeps r s) cl :
    Keeps r (State.l2Flush s cl) := by
  unfold State.l2Flush
  repeat' first
    | with_reducible assumption
    | with_reducible apply Keeps.send
    | with_reducible apply Keeps.setL2
    | with_reducible apply Keeps.wr
    | with_reducible (refine Keeps.foldl _ ?_ (fun _ _ _ => ?_))
    | with_reducible (refine Keeps.foldlSnd _ ?_ (fun _ _ _ => ?_))
    | with_reducible (refine Keeps.foldlSnd2 _ ?_ (fun _ _ _ => ?_))
    | (fail_if_no_progress (with_reducible (refine Keeps.lit ?_ rfl rfl rfl)))
    | (intro x; refine Keeps.cut (r := r) x ?_ (fun _ => ?_) <;> [subst x; clear_value x])
    | (intro (x : _ × State); refine Keeps.cut (r := r) x.2 ?_ (fun _ => ?_) <;> [subst x; clear_value x])
    | (intro x; clear_value x)
    | with_reducible (refine Keeps.ite ?_ ?_)
    | split
    | lift_lets
    | with_reducible (refine Keeps.ofSnd (by assumption) ?_)
    | with_reducible (refine Keeps.ofSnd2 (by assumption) ?_)
    | intro

theorem Keeps.l2Inv {r s : State} (h : Keeps r s) cl :
    Keeps r (State.l2Inv s cl) := by
  unfold State.l2Inv
  repeat' first
    | with_reducible assumption
    | with_reducible apply Keeps.clearL1s
    | with_reducible apply Keeps.dropLine
    | with_reducible apply Keeps.invStep
    | with_reducible apply Keeps.setL2
    | with_reducible apply Keeps.wr
    | with_reducible (refine Keeps.foldl _ ?_ (fun _ _ _ => ?_))
    | (fail_if_no_progress (with_reducible (refine Keeps.lit ?_ rfl rfl rfl)))
    | with_reducible (refine Keeps.ite ?_ ?_)
    | split
    | intro

theorem Keeps.l2Ctl {r s : State} (h : Keeps r s) cl v :
    Keeps r (State.l2Ctl s cl v) := by
  unfold State.l2Ctl
  repeat' first
    | with_reducible assumption
    | with_reducible apply Keeps.l2En
    | with_reducible apply Keeps.l2Flush
    | with_reducible apply Keeps.l2Inv
    | with_reducible apply Keeps.setL2
    | (fail_if_no_progress (with_reducible (refine Keeps.lit ?_ rfl rfl rfl)))
    | with_reducible (refine Keeps.ite ?_ ?_)
    | split

theorem Keeps.probeDone {r s : State} (h : Keeps r s) :
    Keeps r (State.probeDone s) := by
  unfold State.probeDone
  repeat' first
    | with_reducible assumption
    | with_reducible apply Keeps.wr
    | (fail_if_no_progress (with_reducible (refine Keeps.lit ?_ rfl rfl rfl)))
    | with_reducible (refine Keeps.ite ?_ ?_)
    | split

theorem Keeps.burnish {r s : State} (h : Keeps r s) c :
    Keeps r (State.burnish s c) := by
  unfold State.burnish
  repeat' first
    | with_reducible assumption
    | with_reducible apply Keeps.hubRead
    | with_reducible apply Keeps.inc
    | with_reducible apply Keeps.raise
    | with_reducible apply Keeps.wr
    | (fail_if_no_progress (with_reducible (refine Keeps.lit ?_ rfl rfl rfl)))
    | with_reducible (refine Keeps.ite ?_ ?_)
    | split

theorem Keeps.corrWrite {r s : State} (h : Keeps r s) die n data :
    Keeps r (State.corrWrite s die n data) := by
  unfold State.corrWrite
  repeat' first
    | with_reducible assumption
    | with_reducible apply Keeps.countOutcome
    | with_reducible apply Keeps.putSheet
    | with_reducible apply Keeps.setCorr
    | (fail_if_no_progress (with_reducible (refine Keeps.lit ?_ rfl rfl rfl)))
    | (intro x; refine Keeps.cut (r := r) x ?_ (fun _ => ?_) <;> [subst x; clear_value x])
    | (intro (x : _ × State); refine Keeps.cut (r := r) x.2 ?_ (fun _ => ?_) <;> [subst x; clear_value x])
    | (intro x; clear_value x)
    | with_reducible (refine Keeps.ite ?_ ?_)
    | split
    | lift_lets

theorem Keeps.initDone {r s : State} (h : Keeps r s) c : Keeps r (State.initDone s c) := by
  refine Keeps.raise (Keeps.wr (Keeps.trans h ?_) _ _ _) _ _
  exact ⟨rfl, rfl, rfl, fun x => cells_filter_wf _ _ _ x, Fuses.Le.refl _⟩

theorem Keeps.memEvent {r s : State} (h : Keeps r s) ddr f :
    Keeps r (State.memEvent s ddr f) := by
  unfold State.memEvent
  repeat' first
    | with_reducible assumption
    | with_reducible apply Keeps.raise
    | with_reducible (refine Keeps.foldl _ ?_ (fun _ _ _ => ?_))
    | with_reducible (refine Keeps.foldlSnd _ ?_ (fun _ _ _ => ?_))
    | with_reducible (refine Keeps.foldlSnd2 _ ?_ (fun _ _ _ => ?_))
    | (fail_if_no_progress (with_reducible (refine Keeps.lit ?_ rfl rfl rfl)))
    | (intro x; refine Keeps.cut (r := r) x ?_ (fun _ => ?_) <;> [subst x; clear_value x])
    | (intro (x : _ × State); refine Keeps.cut (r := r) x.2 ?_ (fun _ => ?_) <;> [subst x; clear_value x])
    | (intro x; clear_value x)
    | with_reducible (refine Keeps.ite ?_ ?_)
    | split
    | lift_lets
    | with_reducible (refine Keeps.ofSnd (by assumption) ?_)
    | with_reducible (refine Keeps.ofSnd2 (by assumption) ?_)
    | intro

theorem Keeps.rawDecode {r s : State} (h : Keeps r s) r' :
    Keeps r (State.rawDecode s r') := by
  unfold State.rawDecode
  repeat' first
    | with_reducible assumption
    | with_reducible apply Keeps.fillFrom
    | (fail_if_no_progress (with_reducible (refine Keeps.lit ?_ rfl rfl rfl)))
    | with_reducible (refine Keeps.ite ?_ ?_)
    | split

theorem Keeps.recodeSheet {r s : State} (h : Keeps r s) n :
    Keeps r (State.recodeSheet s n) := by
  unfold State.recodeSheet
  repeat' first
    | with_reducible assumption
    | with_reducible apply Keeps.countOutcome
    | with_reducible apply Keeps.putSheet
    | (fail_if_no_progress (with_reducible (refine Keeps.lit ?_ rfl rfl rfl)))
    | with_reducible (refine Keeps.ite ?_ ?_)
    | split

theorem Keeps.recodeDone {r s : State} (h : Keeps r s) ddr :
    Keeps r (State.recodeDone s ddr) := by
  unfold State.recodeDone
  repeat' first
    | with_reducible assumption
    | with_reducible apply Keeps.memEvent
    | with_reducible apply Keeps.recodeSheet
    | with_reducible apply Keeps.wr
    | with_reducible (refine Keeps.foldl _ ?_ (fun _ _ _ => ?_))
    | with_reducible (refine Keeps.foldlSnd _ ?_ (fun _ _ _ => ?_))
    | with_reducible (refine Keeps.foldlSnd2 _ ?_ (fun _ _ _ => ?_))
    | (fail_if_no_progress (with_reducible (refine Keeps.lit ?_ rfl rfl rfl)))
    | (intro x; refine Keeps.cut (r := r) x ?_ (fun _ => ?_) <;> [subst x; clear_value x])
    | (intro (x : _ × State); refine Keeps.cut (r := r) x.2 ?_ (fun _ => ?_) <;> [subst x; clear_value x])
    | (intro x; clear_value x)
    | with_reducible (refine Keeps.ite ?_ ?_)
    | split
    | lift_lets
    | with_reducible (refine Keeps.ofSnd (by assumption) ?_)
    | with_reducible (refine Keeps.ofSnd2 (by assumption) ?_)
    | intro

theorem Keeps.tWrite {r s : State} (h : Keeps r s) ddr p t' :
    Keeps r (State.tWrite s ddr p t') := by
  unfold State.tWrite
  repeat' first
    | with_reducible assumption
    | with_reducible apply Keeps.memEvent
    | with_reducible apply Keeps.wr
    | (fail_if_no_progress (with_reducible (refine Keeps.lit ?_ rfl rfl rfl)))
    | with_reducible (refine Keeps.ite ?_ ?_)
    | split

theorem Keeps.wmDone {r s : State} (h : Keeps r s) :
    Keeps r (State.wmDone s) := by
  unfold State.wmDone
  repeat' first
    | with_reducible assumption
    | with_reducible apply Keeps.memEvent
    | with_reducible apply Keeps.memZero
    | with_reducible apply Keeps.when
    | with_reducible apply Keeps.wr
    | with_reducible (refine Keeps.foldl _ ?_ (fun _ _ _ => ?_))
    | with_reducible (refine Keeps.foldlSnd _ ?_ (fun _ _ _ => ?_))
    | with_reducible (refine Keeps.foldlSnd2 _ ?_ (fun _ _ _ => ?_))
    | (fail_if_no_progress (with_reducible (refine Keeps.lit ?_ rfl rfl rfl)))
    | (intro x; refine Keeps.cut (r := r) x ?_ (fun _ => ?_) <;> [subst x; clear_value x])
    | (intro (x : _ × State); refine Keeps.cut (r := r) x.2 ?_ (fun _ => ?_) <;> [subst x; clear_value x])
    | (intro x; clear_value x)
    | with_reducible (refine Keeps.ite ?_ ?_)
    | split
    | lift_lets
    | with_reducible (refine Keeps.ofSnd (by assumption) ?_)
    | with_reducible (refine Keeps.ofSnd2 (by assumption) ?_)
    | intro

theorem Keeps.wmSecure {r s : State} (h : Keeps r s) v :
    Keeps r (State.wmSecure s v) := by
  unfold State.wmSecure
  repeat' first
    | with_reducible assumption
    | with_reducible apply Keeps.raise
    | with_reducible apply Keeps.when
    | with_reducible apply Keeps.wr
    | with_reducible (refine Keeps.foldl _ ?_ (fun _ _ _ => ?_))
    | with_reducible (refine Keeps.foldlSnd _ ?_ (fun _ _ _ => ?_))
    | with_reducible (refine Keeps.foldlSnd2 _ ?_ (fun _ _ _ => ?_))
    | (fail_if_no_progress (with_reducible (refine Keeps.lit ?_ rfl rfl rfl)))
    | (intro x; refine Keeps.cut (r := r) x ?_ (fun _ => ?_) <;> [subst x; clear_value x])
    | (intro (x : _ × State); refine Keeps.cut (r := r) x.2 ?_ (fun _ => ?_) <;> [subst x; clear_value x])
    | (intro x; clear_value x)
    | with_reducible (refine Keeps.ite ?_ ?_)
    | split
    | lift_lets
    | with_reducible (refine Keeps.ofSnd (by assumption) ?_)
    | with_reducible (refine Keeps.ofSnd2 (by assumption) ?_)
    | intro

theorem Keeps.wmWrite {r s : State} (h : Keeps r s) src v :
    Keeps r (State.wmWrite s src v) := by
  unfold State.wmWrite
  repeat' first
    | with_reducible assumption
    | with_reducible apply Keeps.wmSecure
    | with_reducible apply Keeps.wr
    | (fail_if_no_progress (with_reducible (refine Keeps.lit ?_ rfl rfl rfl)))
    | with_reducible (refine Keeps.ite ?_ ?_)
    | split

theorem Keeps.claimRead {r s : State} (h : Keeps r s) src k m :
    Keeps r (State.claimRead s src k m) := by
  unfold State.claimRead
  repeat' first
    | with_reducible assumption
    | with_reducible apply Keeps.setHart
    | (fail_if_no_progress (with_reducible (refine Keeps.lit ?_ rfl rfl rfl)))
    | with_reducible (refine Keeps.ite ?_ ?_)
    | split

theorem Keeps.coreInitDone {r s : State} (h : Keeps r s) k :
    Keeps r (State.coreInitDone s k) := by
  unfold State.coreInitDone
  repeat' first
    | with_reducible assumption
    | with_reducible apply Keeps.setHart
    | with_reducible apply Keeps.wr
    | (fail_if_no_progress (with_reducible (refine Keeps.lit ?_ rfl rfl rfl)))
    | with_reducible (refine Keeps.ite ?_ ?_)
    | split

theorem Keeps.coreRun {r s : State} (h : Keeps r s) k :
    Keeps r (State.coreRun s k) := by
  unfold State.coreRun
  repeat' first
    | with_reducible assumption
    | with_reducible apply Keeps.wr
    | (fail_if_no_progress (with_reducible (refine Keeps.lit ?_ rfl rfl rfl)))
    | with_reducible (refine Keeps.ite ?_ ?_)
    | split

theorem Keeps.csrPut {r s : State} (h : Keeps r s) k n v :
    Keeps r (State.csrPut s k n v) := by
  unfold State.csrPut
  repeat' first
    | with_reducible assumption
    | with_reducible apply Keeps.clearPred
    | with_reducible apply Keeps.setCsr
    | with_reducible apply Keeps.setHart
    | with_reducible apply Keeps.timerBits
    | (fail_if_no_progress (with_reducible (refine Keeps.lit ?_ rfl rfl rfl)))
    | with_reducible (refine Keeps.ite ?_ ?_)
    | split

theorem Keeps.dirty {r s : State} (h : Keeps r s) k n :
    Keeps r (State.dirty s k n) := by
  unfold State.dirty
  repeat' first
    | with_reducible assumption
    | with_reducible apply Keeps.setCsr
    | (fail_if_no_progress (with_reducible (refine Keeps.lit ?_ rfl rfl rfl)))
    | with_reducible (refine Keeps.ite ?_ ?_)
    | split

theorem Keeps.illegal {r s : State} (h : Keeps r s) k pc :
    Keeps r (State.illegal s k pc) := by
  unfold State.illegal
  repeat' first
    | with_reducible assumption
    | with_reducible apply Keeps.exception
    | with_reducible apply Keeps.free
    | (fail_if_no_progress (with_reducible (refine Keeps.lit ?_ rfl rfl rfl)))
    | with_reducible (refine Keeps.ite ?_ ?_)
    | split

theorem Keeps.csrWrite {r s : State} (h : Keeps r s) k pc n op rd v :
    Keeps r (State.csrWrite s k pc n op rd v) := by
  unfold State.csrWrite
  repeat' first
    | with_reducible assumption
    | with_reducible apply Keeps.csrPut
    | with_reducible apply Keeps.dirty
    | with_reducible apply Keeps.illegal
    | with_reducible apply Keeps.proofAbort
    | with_reducible apply Keeps.retire
    | with_reducible apply Keeps.setHart
    | (fail_if_no_progress (with_reducible (refine Keeps.lit ?_ rfl rfl rfl)))
    | with_reducible (refine Keeps.ite ?_ ?_)
    | split

theorem Keeps.takeInterrupt {r s : State} (h : Keeps r s) k pc cause m :
    Keeps r (State.takeInterrupt s k pc cause m) := by
  unfold State.takeInterrupt
  repeat' first
    | with_reducible assumption
    | with_reducible apply Keeps.drainAll
    | with_reducible apply Keeps.endMiss
    | with_reducible apply Keeps.perf
    | with_reducible apply Keeps.trapM
    | with_reducible apply Keeps.trapS
    | (fail_if_no_progress (with_reducible (refine Keeps.lit ?_ rfl rfl rfl)))
    | with_reducible (refine Keeps.ite ?_ ?_)
    | split

theorem Keeps.interrupt {r s : State} (h : Keeps r s) k pc :
    Keeps r (State.interrupt s k pc) := by
  unfold State.interrupt
  repeat' first
    | with_reducible assumption
    | with_reducible apply Keeps.onProof
    | with_reducible apply Keeps.proofAbort
    | with_reducible apply Keeps.takeInterrupt
    | (fail_if_no_progress (with_reducible (refine Keeps.lit ?_ rfl rfl rfl)))
    | with_reducible (refine Keeps.ite ?_ ?_)
    | split

theorem Keeps.interruptHalted {r s : State} (h : Keeps r s) k :
    Keeps r (State.interruptHalted s k) := by
  unfold State.interruptHalted
  repeat' first
    | with_reducible assumption
    | with_reducible apply Keeps.interrupt
    | with_reducible apply Keeps.resumeHart
    | with_reducible apply Keeps.setHart
    | (fail_if_no_progress (with_reducible (refine Keeps.lit ?_ rfl rfl rfl)))
    | with_reducible (refine Keeps.ite ?_ ?_)
    | split

theorem Keeps.issue {r s : State} (h : Keeps r s) k pc (f : State → State) (hf : ∀ t, Keeps r t → Keeps r (f t)) :
    Keeps r (State.issue s k pc f) := by
  unfold State.issue
  repeat' first
    | with_reducible assumption
    | with_reducible apply Keeps.setHart
    | with_reducible apply Keeps.takeHalt
    | with_reducible apply hf
    | (fail_if_no_progress (with_reducible (refine Keeps.lit ?_ rfl rfl rfl)))
    | with_reducible (refine Keeps.ite ?_ ?_)
    | split

theorem Keeps.mret {r s : State} (h : Keeps r s) k pc :
    Keeps r (State.mret s k pc) := by
  unfold State.mret
  repeat' first
    | with_reducible assumption
    | with_reducible apply Keeps.drainAll
    | with_reducible apply Keeps.illegal
    | with_reducible apply Keeps.mretTo
    | (fail_if_no_progress (with_reducible (refine Keeps.lit ?_ rfl rfl rfl)))
    | with_reducible (refine Keeps.ite ?_ ?_)
    | split

theorem Keeps.notInProof {r s : State} (h : Keeps r s) k (f : State → State) (hf : ∀ t, Keeps r t → Keeps r (f t)) :
    Keeps r (State.notInProof s k f) := by
  unfold State.notInProof
  repeat' first
    | with_reducible assumption
    | with_reducible apply Keeps.proofAbort
    | with_reducible apply hf
    | (fail_if_no_progress (with_reducible (refine Keeps.lit ?_ rfl rfl rfl)))
    | with_reducible (refine Keeps.ite ?_ ?_)
    | split

theorem Keeps.sret {r s : State} (h : Keeps r s) k pc :
    Keeps r (State.sret s k pc) := by
  unfold State.sret
  repeat' first
    | with_reducible assumption
    | with_reducible apply Keeps.illegal
    | with_reducible apply Keeps.sretTo
    | (fail_if_no_progress (with_reducible (refine Keeps.lit ?_ rfl rfl rfl)))
    | with_reducible (refine Keeps.ite ?_ ?_)
    | split

theorem Keeps.wfi {r s : State} (h : Keeps r s) k pc :
    Keeps r (State.wfi s k pc) := by
  unfold State.wfi
  repeat' first
    | with_reducible assumption
    | with_reducible apply Keeps.illegal
    | with_reducible apply Keeps.retire
    | with_reducible apply Keeps.wr
    | (fail_if_no_progress (with_reducible (refine Keeps.lit ?_ rfl rfl rfl)))
    | with_reducible (refine Keeps.ite ?_ ?_)
    | split

theorem Keeps.decide {r s : State} (h : Keeps r s) b accept ttype trig pass :
    Keeps r (State.decide s b accept ttype trig pass) := by
  unfold State.decide
  repeat' first
    | with_reducible assumption
    | with_reducible apply Keeps.inc
    | (fail_if_no_progress (with_reducible (refine Keeps.lit ?_ rfl rfl rfl)))
    | with_reducible (refine Keeps.ite ?_ ?_)
    | split

theorem Keeps.lookStatus {r s : State} (h : Keeps r s) :
    Keeps r (State.lookStatus s) := by
  unfold State.lookStatus
  repeat' first
    | with_reducible assumption
    | with_reducible apply Keeps.wr
    | with_reducible (refine Keeps.foldl _ ?_ (fun _ _ _ => ?_))
    | with_reducible (refine Keeps.foldlSnd _ ?_ (fun _ _ _ => ?_))
    | with_reducible (refine Keeps.foldlSnd2 _ ?_ (fun _ _ _ => ?_))
    | (fail_if_no_progress (with_reducible (refine Keeps.lit ?_ rfl rfl rfl)))
    | (intro x; refine Keeps.cut (r := r) x ?_ (fun _ => ?_) <;> [subst x; clear_value x])
    | (intro (x : _ × State); refine Keeps.cut (r := r) x.2 ?_ (fun _ => ?_) <;> [subst x; clear_value x])
    | (intro x; clear_value x)
    | with_reducible (refine Keeps.ite ?_ ?_)
    | split
    | lift_lets
    | with_reducible (refine Keeps.ofSnd (by assumption) ?_)
    | with_reducible (refine Keeps.ofSnd2 (by assumption) ?_)
    | intro

theorem Keeps.setUnit {r s : State} (h : Keeps r s) u x :
    Keeps r (State.setUnit s u x) :=
  Keeps.lit h rfl rfl rfl

theorem Keeps.engineOwner {r s : State} (h : Keeps r s) e sl :
    Keeps r (State.engineOwner s e sl) := by
  unfold State.engineOwner
  repeat' first
    | with_reducible assumption
    | with_reducible apply Keeps.bump
    | with_reducible apply Keeps.lookStatus
    | with_reducible apply Keeps.raise
    | with_reducible apply Keeps.setUnit
    | with_reducible apply Keeps.wr
    | (fail_if_no_progress (with_reducible (refine Keeps.lit ?_ rfl rfl rfl)))
    | with_reducible (refine Keeps.ite ?_ ?_)
    | split

theorem Keeps.foldHit {r s : State} (h : Keeps r s) n t' cal weight group :
    Keeps r (State.foldHit s n t' cal weight group) := by
  unfold State.foldHit
  repeat' first
    | with_reducible assumption
    | with_reducible apply Keeps.inc
    | with_reducible apply Keeps.raise
    | with_reducible (refine Keeps.foldl _ ?_ (fun _ _ _ => ?_))
    | with_reducible (refine Keeps.foldlSnd _ ?_ (fun _ _ _ => ?_))
    | with_reducible (refine Keeps.foldlSnd2 _ ?_ (fun _ _ _ => ?_))
    | (fail_if_no_progress (with_reducible (refine Keeps.lit ?_ rfl rfl rfl)))
    | (intro x; refine Keeps.cut (r := r) x ?_ (fun _ => ?_) <;> [subst x; clear_value x])
    | (intro (x : _ × State); refine Keeps.cut (r := r) x.2 ?_ (fun _ => ?_) <;> [subst x; clear_value x])
    | (intro x; clear_value x)
    | with_reducible (refine Keeps.ite ?_ ?_)
    | split
    | lift_lets
    | with_reducible (refine Keeps.ofSnd (by assumption) ?_)
    | with_reducible (refine Keeps.ofSnd2 (by assumption) ?_)
    | intro

theorem Keeps.guestWord {r s : State} (h : Keeps r s) b w :
    Keeps r (State.guestWord s b w) := by
  unfold State.guestWord
  repeat' first
    | with_reducible assumption
    | (fail_if_no_progress (with_reducible (refine Keeps.lit ?_ rfl rfl rfl)))
    | with_reducible (refine Keeps.ite ?_ ?_)
    | split

theorem Keeps.shadowDrop {r s : State} (h : Keeps r s) e :
    Keeps r (State.shadowDrop s e) := by
  unfold State.shadowDrop
  repeat' first
    | with_reducible assumption
    | with_reducible apply Keeps.setUnit
    | with_reducible apply Keeps.wr
    | (fail_if_no_progress (with_reducible (refine Keeps.lit ?_ rfl rfl rfl)))
    | with_reducible (refine Keeps.ite ?_ ?_)
    | split

theorem Keeps.stencilLoad {r s : State} (h : Keeps r s) :
    Keeps r (State.stencilLoad s) := by
  unfold State.stencilLoad
  repeat' first
    | with_reducible assumption
    | with_reducible apply Keeps.setGuest
    | with_reducible (refine Keeps.foldl _ ?_ (fun _ _ _ => ?_))
    | with_reducible (refine Keeps.foldlSnd _ ?_ (fun _ _ _ => ?_))
    | with_reducible (refine Keeps.foldlSnd2 _ ?_ (fun _ _ _ => ?_))
    | (fail_if_no_progress (with_reducible (refine Keeps.lit ?_ rfl rfl rfl)))
    | (intro x; refine Keeps.cut (r := r) x ?_ (fun _ => ?_) <;> [subst x; clear_value x])
    | (intro (x : _ × State); refine Keeps.cut (r := r) x.2 ?_ (fun _ => ?_) <;> [subst x; clear_value x])
    | (intro x; clear_value x)
    | with_reducible (refine Keeps.ite ?_ ?_)
    | split
    | lift_lets
    | with_reducible (refine Keeps.ofSnd (by assumption) ?_)
    | with_reducible (refine Keeps.ofSnd2 (by assumption) ?_)
    | intro

theorem Keeps.stencilWord {r s : State} (h : Keeps r s) b :
    Keeps r (State.stencilWord s b) := by
  unfold State.stencilWord
  repeat' first
    | with_reducible assumption
    | with_reducible apply Keeps.guestWord
    | with_reducible apply Keeps.setGuest
    | with_reducible (refine Keeps.foldl _ ?_ (fun _ _ _ => ?_))
    | with_reducible (refine Keeps.foldlSnd _ ?_ (fun _ _ _ => ?_))
    | with_reducible (refine Keeps.foldlSnd2 _ ?_ (fun _ _ _ => ?_))
    | (fail_if_no_progress (with_reducible (refine Keeps.lit ?_ rfl rfl rfl)))
    | (intro x; refine Keeps.cut (r := r) x ?_ (fun _ => ?_) <;> [subst x; clear_value x])
    | (intro (x : _ × State); refine Keeps.cut (r := r) x.2 ?_ (fun _ => ?_) <;> [subst x; clear_value x])
    | (intro x; clear_value x)
    | with_reducible (refine Keeps.ite ?_ ?_)
    | split
    | lift_lets
    | with_reducible (refine Keeps.ofSnd (by assumption) ?_)
    | with_reducible (refine Keeps.ofSnd2 (by assumption) ?_)
    | intro

theorem Keeps.trgRestart {r s : State} (h : Keeps r s) c :
    Keeps r (State.trgRestart s c) := by
  unfold State.trgRestart
  repeat' first
    | with_reducible assumption
    | with_reducible apply Keeps.wr
    | (fail_if_no_progress (with_reducible (refine Keeps.lit ?_ rfl rfl rfl)))
    | with_reducible (refine Keeps.ite ?_ ?_)
    | split

theorem Keeps.ovlStatus {r s : State} (h : Keeps r s) :
    Keeps r (State.ovlStatus s) := by
  unfold State.ovlStatus
  repeat' first
    | with_reducible assumption
    | with_reducible apply Keeps.wr
    | with_reducible (refine Keeps.foldl _ ?_ (fun _ _ _ => ?_))
    | with_reducible (refine Keeps.foldlSnd _ ?_ (fun _ _ _ => ?_))
    | with_reducible (refine Keeps.foldlSnd2 _ ?_ (fun _ _ _ => ?_))
    | (fail_if_no_progress (with_reducible (refine Keeps.lit ?_ rfl rfl rfl)))
    | (intro x; refine Keeps.cut (r := r) x ?_ (fun _ => ?_) <;> [subst x; clear_value x])
    | (intro (x : _ × State); refine Keeps.cut (r := r) x.2 ?_ (fun _ => ?_) <;> [subst x; clear_value x])
    | (intro x; clear_value x)
    | with_reducible (refine Keeps.ite ?_ ?_)
    | split
    | lift_lets
    | with_reducible (refine Keeps.ofSnd (by assumption) ?_)
    | with_reducible (refine Keeps.ofSnd2 (by assumption) ?_)
    | intro

theorem Keeps.setAux {r s : State} (h : Keeps r s) k x :
    Keeps r (State.setAux s k x) :=
  Keeps.lit h rfl rfl rfl

theorem Keeps.slotFree {r s : State} (h : Keeps r s) k :
    Keeps r (State.slotFree s k) := by
  unfold State.slotFree
  repeat' first
    | with_reducible assumption
    | with_reducible apply Keeps.bump
    | with_reducible apply Keeps.ovlStatus
    | with_reducible apply Keeps.wr
    | (fail_if_no_progress (with_reducible (refine Keeps.lit ?_ rfl rfl rfl)))
    | with_reducible (refine Keeps.ite ?_ ?_)
    | split

theorem Keeps.backlogDrop {r s : State} (h : Keeps r s) n k :
    Keeps r (State.backlogDrop s n k) := by
  unfold State.backlogDrop
  repeat' first
    | with_reducible assumption
    | with_reducible apply Keeps.inc
    | with_reducible apply Keeps.raise
    | (fail_if_no_progress (with_reducible (refine Keeps.lit ?_ rfl rfl rfl)))
    | with_reducible (refine Keeps.ite ?_ ?_)
    | split

theorem Keeps.laneGo {r s : State} (h : Keeps r s) n st :
    Keeps r (State.laneGo s n st) := by
  unfold State.laneGo
  repeat' first
    | with_reducible assumption
    | with_reducible apply Keeps.assembleAll
    | with_reducible apply Keeps.evbSettle
    | with_reducible apply Keeps.ledger
    | with_reducible apply Keeps.raise
    | with_reducible apply Keeps.setLane
    | with_reducible apply Keeps.wr
    | (fail_if_no_progress (with_reducible (refine Keeps.lit ?_ rfl rfl rfl)))
    | with_reducible (refine Keeps.ite ?_ ?_)
    | split

theorem Keeps.frameSettle {r s : State} (h : Keeps r s) n id :
    Keeps r (State.frameSettle s n id) := by
  unfold State.frameSettle
  repeat' first
    | with_reducible assumption
    | with_reducible apply Keeps.inc
    | with_reducible apply Keeps.raise
    | with_reducible apply Keeps.setLane
    | (fail_if_no_progress (with_reducible (refine Keeps.lit ?_ rfl rfl rfl)))
    | (intro x; refine Keeps.cut (r := r) x ?_ (fun _ => ?_) <;> [subst x; clear_value x])
    | (intro (x : _ × State); refine Keeps.cut (r := r) x.2 ?_ (fun _ => ?_) <;> [subst x; clear_value x])
    | (intro x; clear_value x)
    | with_reducible (refine Keeps.ite ?_ ?_)
    | split
    | lift_lets

theorem Keeps.stage {r s : State} (h : Keeps r s) n base last late pre hits :
    Keeps r (State.stage s n base last late pre hits) := by
  unfold State.stage
  repeat' first
    | with_reducible assumption
    | with_reducible apply Keeps.frameSettle
    | with_reducible apply Keeps.setLane
    | (fail_if_no_progress (with_reducible (refine Keeps.lit ?_ rfl rfl rfl)))
    | with_reducible (refine Keeps.ite ?_ ?_)
    | split

theorem Keeps.enterSync {r s : State} (h : Keeps r s) n e :
    Keeps r (State.enterSync s n e) := by
  unfold State.enterSync
  repeat' first
    | with_reducible assumption
    | with_reducible apply Keeps.laneGo
    | with_reducible apply Keeps.raise
    | with_reducible apply Keeps.setLane
    | with_reducible apply Keeps.stage
    | (fail_if_no_progress (with_reducible (refine Keeps.lit ?_ rfl rfl rfl)))
    | with_reducible (refine Keeps.ite ?_ ?_)
    | split

theorem Keeps.countFrame {r s : State} (h : Keeps r s) n f :
    Keeps r (State.countFrame s n f) := by
  unfold State.countFrame
  repeat' first
    | with_reducible assumption
    | with_reducible apply Keeps.enterSync
    | with_reducible apply Keeps.inc
    | with_reducible apply Keeps.laneGo
    | with_reducible apply Keeps.setLane
    | (fail_if_no_progress (with_reducible (refine Keeps.lit ?_ rfl rfl rfl)))
    | with_reducible (refine Keeps.ite ?_ ?_)
    | split

theorem Keeps.hitProcess {r s : State} (h : Keeps r s) n f : Keeps r (State.hitProcess s n f).2.2 := by
  unfold State.hitProcess
  exact Keeps.backlogDrop ((h.inc _ _ _).inc _ _ _) _ _

theorem Keeps.deliverFrame {r s : State} (h : Keeps r s) n f :
    Keeps r (State.deliverFrame s n f) := by
  unfold State.deliverFrame
  repeat' first
    | with_reducible assumption
    | with_reducible apply Keeps.hitProcess
    | with_reducible apply Keeps.inc
    | with_reducible apply Keeps.raise
    | with_reducible apply Keeps.setLane
    | with_reducible apply Keeps.stage
    | with_reducible (refine Keeps.ofSnd2 (by assumption) ?_)
    | with_reducible apply Keeps.hitProcess
    | with_reducible (refine Keeps.foldl _ ?_ (fun _ _ _ => ?_))
    | with_reducible (refine Keeps.foldlSnd _ ?_ (fun _ _ _ => ?_))
    | with_reducible (refine Keeps.foldlSnd2 _ ?_ (fun _ _ _ => ?_))
    | (fail_if_no_progress (with_reducible (refine Keeps.lit ?_ rfl rfl rfl)))
    | (intro x; refine Keeps.cut (r := r) x ?_ (fun _ => ?_) <;> [subst x; clear_value x])
    | (intro (x : _ × State); refine Keeps.cut (r := r) x.2 ?_ (fun _ => ?_) <;> [subst x; clear_value x])
    | (intro (x : _ → State); subst x; beta_reduce)
    | (intro (x : _ → _ → State); subst x; beta_reduce)
    | (intro (x : _ → _ × State); subst x; beta_reduce)
    | (intro (x : _ → _ → _ × State); subst x; beta_reduce)
    | (intro (x : MemState); subst x)
    | (intro x; clear_value x)
    | with_reducible (refine Keeps.ite ?_ ?_)
    | split
    | lift_lets
    | with_reducible (refine Keeps.ofSnd (by assumption) ?_)
    | with_reducible (refine Keeps.ofSnd2 (by assumption) ?_)
    | intro

theorem Keeps.frameDropped {r s : State} (h : Keeps r s) n k :
    Keeps r (State.frameDropped s n k) := by
  unfold State.frameDropped
  repeat' first
    | with_reducible assumption
    | with_reducible apply Keeps.inc
    | with_reducible apply Keeps.laneGo
    | with_reducible apply Keeps.raise
    | with_reducible apply Keeps.setLane
    | (fail_if_no_progress (with_reducible (refine Keeps.lit ?_ rfl rfl rfl)))
    | with_reducible (refine Keeps.ite ?_ ?_)
    | split

theorem Keeps.grpRate {r s : State} (h : Keeps r s) g v :
    Keeps r (State.grpRate s g v) := by
  unfold State.grpRate
  repeat' first
    | with_reducible assumption
    | with_reducible apply Keeps.wr
    | (fail_if_no_progress (with_reducible (refine Keeps.lit ?_ rfl rfl rfl)))
    | with_reducible (refine Keeps.ite ?_ ?_)
    | split

theorem Keeps.histWrite {r s : State} (h : Keeps r s) n :
    Keeps r (State.histWrite s n) := by
  unfold State.histWrite
  repeat' first
    | with_reducible assumption
    | with_reducible apply Keeps.assembleAll
    | with_reducible apply Keeps.devWrite
    | with_reducible apply Keeps.evbSettle
    | with_reducible apply Keeps.setLane
    | with_reducible apply Keeps.wr
    | (fail_if_no_progress (with_reducible (refine Keeps.lit ?_ rfl rfl rfl)))
    | with_reducible (refine Keeps.ite ?_ ?_)
    | split

theorem Keeps.rxEn {r s : State} (h : Keeps r s) n on :
    Keeps r (State.rxEn s n on) := by
  unfold State.rxEn
  repeat' first
    | with_reducible assumption
    | with_reducible apply Keeps.laneGo
    | with_reducible apply Keeps.setLane
    | with_reducible apply Keeps.wr
    | (fail_if_no_progress (with_reducible (refine Keeps.lit ?_ rfl rfl rfl)))
    | with_reducible (refine Keeps.ite ?_ ?_)
    | split

theorem Keeps.txEn {r s : State} (h : Keeps r s) n on :
    Keeps r (State.txEn s n on) := by
  unfold State.txEn
  repeat' first
    | with_reducible assumption
    | with_reducible apply Keeps.inc
    | with_reducible apply Keeps.setLane
    | with_reducible apply Keeps.wr
    | (fail_if_no_progress (with_reducible (refine Keeps.lit ?_ rfl rfl rfl)))
    | with_reducible (refine Keeps.ite ?_ ?_)
    | split

theorem Keeps.laneCfg {r s : State} (h : Keeps r s) n v :
    Keeps r (State.laneCfg s n v) := by
  unfold State.laneCfg
  repeat' first
    | with_reducible assumption
    | with_reducible apply Keeps.rxEn
    | with_reducible apply Keeps.txEn
    | with_reducible apply Keeps.wr
    | with_reducible (refine Keeps.foldl _ ?_ (fun _ _ _ => ?_))
    | with_reducible (refine Keeps.foldlSnd _ ?_ (fun _ _ _ => ?_))
    | with_reducible (refine Keeps.foldlSnd2 _ ?_ (fun _ _ _ => ?_))
    | (fail_if_no_progress (with_reducible (refine Keeps.lit ?_ rfl rfl rfl)))
    | (intro x; refine Keeps.cut (r := r) x ?_ (fun _ => ?_) <;> [subst x; clear_value x])
    | (intro (x : _ × State); refine Keeps.cut (r := r) x.2 ?_ (fun _ => ?_) <;> [subst x; clear_value x])
    | (intro x; clear_value x)
    | with_reducible (refine Keeps.ite ?_ ?_)
    | split
    | lift_lets
    | with_reducible (refine Keeps.ofSnd (by assumption) ?_)
    | with_reducible (refine Keeps.ofSnd2 (by assumption) ?_)
    | intro

theorem Keeps.laneClear {r s : State} (h : Keeps r s) n :
    Keeps r (State.laneClear s n) :=
  Keeps.lit h rfl rfl rfl

theorem Keeps.laneRecover {r s : State} (h : Keeps r s) n :
    Keeps r (State.laneRecover s n) := by
  unfold State.laneRecover
  repeat' first
    | with_reducible assumption
    | with_reducible apply Keeps.laneGo
    | (fail_if_no_progress (with_reducible (refine Keeps.lit ?_ rfl rfl rfl)))
    | with_reducible (refine Keeps.ite ?_ ?_)
    | split

theorem Keeps.laneResync {r s : State} (h : Keeps r s) n :
    Keeps r (State.laneResync s n) := by
  unfold State.laneResync
  repeat' first
    | with_reducible assumption
    | with_reducible apply Keeps.laneGo
    | (fail_if_no_progress (with_reducible (refine Keeps.lit ?_ rfl rfl rfl)))
    | with_reducible (refine Keeps.ite ?_ ?_)
    | split

theorem Keeps.queueAccept {r s : State} (h : Keeps r s) ttype late b :
    Keeps r (State.queueAccept s ttype late b) := by
  unfold State.queueAccept
  repeat' first
    | with_reducible assumption
    | with_reducible apply Keeps.inc
    | with_reducible apply Keeps.setLane
    | with_reducible (refine Keeps.foldl _ ?_ (fun _ _ _ => ?_))
    | with_reducible (refine Keeps.foldlSnd _ ?_ (fun _ _ _ => ?_))
    | with_reducible (refine Keeps.foldlSnd2 _ ?_ (fun _ _ _ => ?_))
    | (fail_if_no_progress (with_reducible (refine Keeps.lit ?_ rfl rfl rfl)))
    | (intro x; refine Keeps.cut (r := r) x ?_ (fun _ => ?_) <;> [subst x; clear_value x])
    | (intro (x : _ × State); refine Keeps.cut (r := r) x.2 ?_ (fun _ => ?_) <;> [subst x; clear_value x])
    | (intro x; clear_value x)
    | with_reducible (refine Keeps.ite ?_ ?_)
    | split
    | lift_lets
    | with_reducible (refine Keeps.ofSnd (by assumption) ?_)
    | with_reducible (refine Keeps.ofSnd2 (by assumption) ?_)
    | intro

theorem Keeps.queueCmd {r s : State} (h : Keeps r s) kind code b :
    Keeps r (State.queueCmd s kind code b) := by
  unfold State.queueCmd
  repeat' first
    | with_reducible assumption
    | with_reducible apply Keeps.inc
    | with_reducible apply Keeps.setLane
    | with_reducible (refine Keeps.foldl _ ?_ (fun _ _ _ => ?_))
    | with_reducible (refine Keeps.foldlSnd _ ?_ (fun _ _ _ => ?_))
    | with_reducible (refine Keeps.foldlSnd2 _ ?_ (fun _ _ _ => ?_))
    | (fail_if_no_progress (with_reducible (refine Keeps.lit ?_ rfl rfl rfl)))
    | (intro x; refine Keeps.cut (r := r) x ?_ (fun _ => ?_) <;> [subst x; clear_value x])
    | (intro (x : _ × State); refine Keeps.cut (r := r) x.2 ?_ (fun _ => ?_) <;> [subst x; clear_value x])
    | (intro x; clear_value x)
    | with_reducible (refine Keeps.ite ?_ ?_)
    | split
    | lift_lets
    | with_reducible (refine Keeps.ofSnd (by assumption) ?_)
    | with_reducible (refine Keeps.ofSnd2 (by assumption) ?_)
    | intro

theorem Keeps.scReply {r s : State} (h : Keeps r s) n f :
    Keeps r (State.scReply s n f) := by
  unfold State.scReply
  repeat' first
    | with_reducible assumption
    | with_reducible apply Keeps.inc
    | with_reducible apply Keeps.raise
    | with_reducible apply Keeps.setLane
    | with_reducible apply Keeps.wr
    | with_reducible (refine Keeps.foldl _ ?_ (fun _ _ _ => ?_))
    | with_reducible (refine Keeps.foldlSnd _ ?_ (fun _ _ _ => ?_))
    | with_reducible (refine Keeps.foldlSnd2 _ ?_ (fun _ _ _ => ?_))
    | (fail_if_no_progress (with_reducible (refine Keeps.lit ?_ rfl rfl rfl)))
    | (intro x; refine Keeps.cut (r := r) x ?_ (fun _ => ?_) <;> [subst x; clear_value x])
    | (intro (x : _ × State); refine Keeps.cut (r := r) x.2 ?_ (fun _ => ?_) <;> [subst x; clear_value x])
    | (intro x; clear_value x)
    | with_reducible (refine Keeps.ite ?_ ?_)
    | split
    | lift_lets
    | with_reducible (refine Keeps.ofSnd (by assumption) ?_)
    | with_reducible (refine Keeps.ofSnd2 (by assumption) ?_)
    | intro

theorem Keeps.seqNext {r s : State} (h : Keeps r s) n f :
    Keeps r (State.seqNext s n f) := by
  unfold State.seqNext
  repeat' first
    | with_reducible assumption
    | with_reducible apply Keeps.setLane
    | with_reducible apply Keeps.wr
    | (fail_if_no_progress (with_reducible (refine Keeps.lit ?_ rfl rfl rfl)))
    | with_reducible (refine Keeps.ite ?_ ?_)
    | split

theorem Keeps.rxFrame {r s : State} (h : Keeps r s) n f :
    Keeps r (State.rxFrame s n f) := by
  unfold State.rxFrame
  repeat' first
    | with_reducible assumption
    | with_reducible apply Keeps.backlogDrop
    | with_reducible apply Keeps.countFrame
    | with_reducible apply Keeps.deliverFrame
    | with_reducible apply Keeps.frameDropped
    | with_reducible apply Keeps.inc
    | with_reducible apply Keeps.scReply
    | with_reducible apply Keeps.seqNext
    | with_reducible apply Keeps.setLane
    | (fail_if_no_progress (with_reducible (refine Keeps.lit ?_ rfl rfl rfl)))
    | (intro x; refine Keeps.cut (r := r) x ?_ (fun _ => ?_) <;> [subst x; clear_value x])
    | (intro (x : _ × State); refine Keeps.cut (r := r) x.2 ?_ (fun _ => ?_) <;> [subst x; clear_value x])
    | (intro x; clear_value x)
    | with_reducible (refine Keeps.ite ?_ ?_)
    | split
    | lift_lets

theorem Keeps.scCtl {r s : State} (h : Keeps r s) n v :
    Keeps r (State.scCtl s n v) := by
  unfold State.scCtl
  repeat' first
    | with_reducible assumption
    | with_reducible apply Keeps.setLane
    | with_reducible apply Keeps.wr
    | (fail_if_no_progress (with_reducible (refine Keeps.lit ?_ rfl rfl rfl)))
    | with_reducible (refine Keeps.ite ?_ ?_)
    | split

theorem Keeps.txSlot {r s : State} (h : Keeps r s) n :
    Keeps r (State.txSlot s n).2 := by
  unfold State.txSlot
  repeat' first
    | with_reducible assumption
    | with_reducible apply Keeps.inc
    | with_reducible apply Keeps.setLane
    | (fail_if_no_progress (with_reducible (refine Keeps.lit ?_ rfl rfl rfl)))
    | (intro x; refine Keeps.cut (r := r) x ?_ (fun _ => ?_) <;> [subst x; clear_value x])
    | (intro (x : _ × State); refine Keeps.cut (r := r) x.2 ?_ (fun _ => ?_) <;> [subst x; clear_value x])
    | (intro x; clear_value x)
    | with_reducible (refine Keeps.ite ?_ ?_)
    | split
    | lift_lets

theorem Keeps.txDrain {r s : State} (h : Keeps r s) n k : Keeps r (State.txDrain s n k) := by
  induction k generalizing s with
  | zero => exact h
  | succ k ih =>
    unfold State.txDrain
    have e := h.txSlot n
    repeat' split
    · exact h
    · rename_i x; rw [x] at e; exact e
    · rename_i x; rw [x] at e; exact ih e

theorem Keeps.txUntil {r s : State} (h : Keeps r s) n j k : Keeps r (State.txUntil s n j k) := by
  induction k generalizing s with
  | zero => exact h
  | succ k ih =>
    unfold State.txUntil
    have e := h.txSlot n
    repeat' split
    · rename_i x; rw [x] at e; exact e
    · rename_i x _; rw [x] at e; exact e
    · rename_i x _; rw [x] at e; exact ih e

theorem Keeps.cdrLock {r s : State} (h : Keeps r s) n :
    Keeps r (State.cdrLock s n) := by
  unfold State.cdrLock
  repeat' first
    | with_reducible assumption
    | with_reducible apply Keeps.laneRecover
    | with_reducible apply Keeps.setLane
    | with_reducible apply Keeps.wr
    | (fail_if_no_progress (with_reducible (refine Keeps.lit ?_ rfl rfl rfl)))
    | with_reducible (refine Keeps.ite ?_ ?_)
    | split

theorem Keeps.groupLock {r s : State} (h : Keeps r s) g :
    Keeps r (State.groupLock s g) := by
  unfold State.groupLock
  repeat' first
    | with_reducible assumption
    | with_reducible apply Keeps.laneRecover
    | with_reducible apply Keeps.wr
    | with_reducible (refine Keeps.foldl _ ?_ (fun _ _ _ => ?_))
    | with_reducible (refine Keeps.foldlSnd _ ?_ (fun _ _ _ => ?_))
    | with_reducible (refine Keeps.foldlSnd2 _ ?_ (fun _ _ _ => ?_))
    | (fail_if_no_progress (with_reducible (refine Keeps.lit ?_ rfl rfl rfl)))
    | (intro x; refine Keeps.cut (r := r) x ?_ (fun _ => ?_) <;> [subst x; clear_value x])
    | (intro (x : _ × State); refine Keeps.cut (r := r) x.2 ?_ (fun _ => ?_) <;> [subst x; clear_value x])
    | (intro x; clear_value x)
    | with_reducible (refine Keeps.ite ?_ ?_)
    | split
    | lift_lets
    | with_reducible (refine Keeps.ofSnd (by assumption) ?_)
    | with_reducible (refine Keeps.ofSnd2 (by assumption) ?_)
    | intro

theorem Keeps.onLane {r s : State} (h : Keeps r s) n (f : State → State) (hf : ∀ t, Keeps r t → Keeps r (f t)) :
    Keeps r (State.onLane s n f) := by
  unfold State.onLane
  repeat' first
    | with_reducible assumption
    | with_reducible apply hf
    | (fail_if_no_progress (with_reducible (refine Keeps.lit ?_ rfl rfl rfl)))
    | with_reducible (refine Keeps.ite ?_ ?_)
    | split

theorem Keeps.scSent {r s : State} (h : Keeps r s) n :
    Keeps r (State.scSent s n) := by
  unfold State.scSent
  repeat' first
    | with_reducible assumption
    | with_reducible apply Keeps.inc
    | with_reducible apply Keeps.raise
    | with_reducible apply Keeps.txDrain
    | with_reducible apply Keeps.wr
    | (fail_if_no_progress (with_reducible (refine Keeps.lit ?_ rfl rfl rfl)))
    | with_reducible (refine Keeps.ite ?_ ?_)
    | split

theorem Keeps.tick {r s : State} (h : Keeps r s) n edge taken :
    Keeps r (State.tick s n edge taken) := by
  unfold State.tick
  repeat' first
    | with_reducible assumption
    | with_reducible apply Keeps.inc
    | with_reducible apply Keeps.setLane
    | (fail_if_no_progress (with_reducible (refine Keeps.lit ?_ rfl rfl rfl)))
    | with_reducible (refine Keeps.ite ?_ ?_)
    | split

theorem Keeps.fillSlot {r s : State} (h : Keeps r s) n h' v :
    Keeps r (State.fillSlot s n h' v) := by
  unfold State.fillSlot
  repeat' first
    | with_reducible assumption
    | with_reducible apply Keeps.frameSettle
    | with_reducible apply Keeps.setLane
    | (fail_if_no_progress (with_reducible (refine Keeps.lit ?_ rfl rfl rfl)))
    | with_reducible (refine Keeps.ite ?_ ?_)
    | split

theorem Keeps.lookup {r s : State} (h : Keeps r s) n h' :
    Keeps r (State.lookup s n h') := by
  unfold State.lookup
  dsimp only
  repeat' first
    | with_reducible assumption
    | with_reducible apply Keeps.fillSlot
    | with_reducible apply Keeps.foldHit
    | with_reducible apply Keeps.inc
    | with_reducible apply Keeps.raise
    | with_reducible apply Keeps.setLane
    | with_reducible (refine Keeps.foldl _ ?_ (fun _ _ _ => ?_))
    | with_reducible (refine Keeps.foldlSnd _ ?_ (fun _ _ _ => ?_))
    | with_reducible (refine Keeps.foldlSnd2 _ ?_ (fun _ _ _ => ?_))
    | (fail_if_no_progress (with_reducible (refine Keeps.lit ?_ rfl rfl rfl)))
    | (intro x; refine Keeps.cut (r := r) x ?_ (fun _ => ?_) <;> [subst x; clear_value x])
    | (intro (x : _ × State); refine Keeps.cut (r := r) x.2 ?_ (fun _ => ?_) <;> [subst x; clear_value x])
    | (intro (x : _ → State); subst x; beta_reduce)
    | (intro (x : _ → _ → State); subst x; beta_reduce)
    | (intro (x : _ → _ × State); subst x; beta_reduce)
    | (intro (x : _ → _ → _ × State); subst x; beta_reduce)
    | (intro (x : MemState); subst x)
    | (intro x; clear_value x)
    | with_reducible (refine Keeps.ite ?_ ?_)
    | split
    | lift_lets
    | with_reducible (refine Keeps.ofSnd (by assumption) ?_)
    | with_reducible (refine Keeps.ofSnd2 (by assumption) ?_)
    | intro

theorem Keeps.bankGrant {r s : State} (h : Keeps r s) b :
    Keeps r (State.bankGrant s b) := by
  unfold State.bankGrant
  repeat' first
    | with_reducible assumption
    | with_reducible apply Keeps.inc
    | with_reducible apply Keeps.lookup
    | (fail_if_no_progress (with_reducible (refine Keeps.lit ?_ rfl rfl rfl)))
    | (intro x; refine Keeps.cut (r := r) x ?_ (fun _ => ?_) <;> [subst x; clear_value x])
    | (intro (x : _ × State); refine Keeps.cut (r := r) x.2 ?_ (fun _ => ?_) <;> [subst x; clear_value x])
    | (intro x; clear_value x)
    | with_reducible (refine Keeps.ite ?_ ?_)
    | split
    | lift_lets

theorem Keeps.baseWrite {r s : State} (h : Keeps r s) sl es :
    Keeps r (State.baseWrite s sl es) := by
  unfold State.baseWrite
  repeat' first
    | with_reducible assumption
    | with_reducible (refine Keeps.foldl _ ?_ (fun _ _ _ => ?_))
    | with_reducible (refine Keeps.foldlSnd _ ?_ (fun _ _ _ => ?_))
    | with_reducible (refine Keeps.foldlSnd2 _ ?_ (fun _ _ _ => ?_))
    | (fail_if_no_progress (with_reducible (refine Keeps.lit ?_ rfl rfl rfl)))
    | (intro x; refine Keeps.cut (r := r) x ?_ (fun _ => ?_) <;> [subst x; clear_value x])
    | (intro (x : _ × State); refine Keeps.cut (r := r) x.2 ?_ (fun _ => ?_) <;> [subst x; clear_value x])
    | (intro x; clear_value x)
    | with_reducible (refine Keeps.ite ?_ ?_)
    | split
    | lift_lets
    | with_reducible (refine Keeps.ofSnd (by assumption) ?_)
    | with_reducible (refine Keeps.ofSnd2 (by assumption) ?_)
    | intro

theorem Keeps.ctxBytes {r s : State} (h : Keeps r s) r' op m : Keeps r (imageState (State.ctxBytes s r' op m)) := by
  unfold State.ctxBytes
  have k : ∀ pa n, Keeps r (s.cmdRead r' 5 pa n).2 := fun pa n => h.cmdRead _ _ _ _
  dsimp only
  split
  · exact h
  · split <;> rename_i e
    · exact Keeps.ofSnd e (k _ _)
    · exact (Keeps.ofSnd e (k _ _)).finish _ _ _ _ _
    · split
      · exact Keeps.ofSnd e (k _ _)
      · exact (Keeps.ofSnd e (k _ _)).finish _ _ _ _ _

theorem Keeps.ctxSpoof {r s : State} (h : Keeps r s) r' :
    Keeps r (State.ctxSpoof s r') := by
  unfold State.ctxSpoof
  repeat' first
    | with_reducible assumption
    | with_reducible apply Keeps.finish
    | with_reducible apply Keeps.inc
    | with_reducible apply Keeps.raise
    | with_reducible apply Keeps.spoof
    | (fail_if_no_progress (with_reducible (refine Keeps.lit ?_ rfl rfl rfl)))
    | with_reducible (refine Keeps.ite ?_ ?_)
    | split

theorem Keeps.ctxImage {r s : State} (h : Keeps r s) r' op slot m : Keeps r (imageState (State.ctxImage s r' op slot m)) := by
  unfold State.ctxImage
  have k := h.ctxBytes r' op m
  generalize s.ctxBytes r' op m = o at *
  rcases o with t | ⟨b, t⟩
  · exact k
  · have k : Keeps r t := k
    have e : ∀ (c d : Bool) (x y : State) z, Keeps r x → Keeps r y →
        Keeps r (imageState (α := List (Nat × Nat)) (if c then .error x else if d then .error y else .ok (z, t))) := by
      intro c d x y z hx hy
      cases c <;> cases d <;> assumption
    exact e _ _ _ _ _ (Keeps.ctxSpoof k _) (Keeps.finish k _ _ _ _ _)

theorem Keeps.ctxStale {r s : State} (h : Keeps r s) r' :
    Keeps r (State.ctxStale s r') := by
  unfold State.ctxStale
  repeat' first
    | with_reducible assumption
    | with_reducible apply Keeps.finish
    | with_reducible apply Keeps.inc
    | (fail_if_no_progress (with_reducible (refine Keeps.lit ?_ rfl rfl rfl)))
    | with_reducible (refine Keeps.ite ?_ ?_)
    | split

theorem Keeps.slotCheck {r s t : State} {r' k} (e : State.slotCheck s r' k = some t) (h : Keeps r s) : Keeps r t := by
  unfold State.slotCheck at e
  split at e
  · cases e; exact Keeps.finish h _ _ _ _ _
  · split at e <;> cases e
    exact Keeps.ctxStale h _

theorem Keeps.ctxCancel {r s : State} (h : Keeps r s) r' :
    Keeps r (State.ctxCancel s r') := by
  unfold State.ctxCancel
  repeat' first
    | with_reducible assumption
    | with_reducible apply Keeps.ctxImage
    | with_reducible apply Keeps.ctxSpoof
    | with_reducible apply Keeps.finish
    | with_reducible apply Keeps.slotFree
    | with_reducible (refine Keeps.imageOk (by assumption) ?_)
    | with_reducible (refine Keeps.imageError (by assumption) ?_)
    | with_reducible (refine Keeps.slotCheck (by assumption) ?_)
    | with_reducible (refine Keeps.slotTake (by assumption) ?_)
    | (fail_if_no_progress (with_reducible (refine Keeps.lit ?_ rfl rfl rfl)))
    | (intro x; refine Keeps.cut (r := r) x ?_ (fun _ => ?_) <;> [subst x; clear_value x])
    | (intro (x : _ × State); refine Keeps.cut (r := r) x.2 ?_ (fun _ => ?_) <;> [subst x; clear_value x])
    | (intro x; clear_value x)
    | with_reducible (refine Keeps.ite ?_ ?_)
    | split
    | lift_lets

theorem Keeps.ctxCmd {r s : State} (h : Keeps r s) r' op (f : State → State) (hf : ∀ t, Keeps r t → Keeps r (f t)) :
    Keeps r (State.ctxCmd s r' op f) := by
  unfold State.ctxCmd
  repeat' first
    | with_reducible assumption
    | with_reducible apply hf
    | (fail_if_no_progress (with_reducible (refine Keeps.lit ?_ rfl rfl rfl)))
    | with_reducible (refine Keeps.ite ?_ ?_)
    | split

theorem Keeps.slotArm {r s : State} (h : Keeps r s) k f :
    Keeps r (State.slotArm s k f) := by
  unfold State.slotArm
  repeat' first
    | with_reducible assumption
    | with_reducible apply Keeps.inc
    | with_reducible apply Keeps.raise
    | with_reducible apply Keeps.setAux
    | with_reducible apply Keeps.wr
    | (fail_if_no_progress (with_reducible (refine Keeps.lit ?_ rfl rfl rfl)))
    | with_reducible (refine Keeps.ite ?_ ?_)
    | split

theorem Keeps.ctxFlip {r s : State} (h : Keeps r s) r' :
    Keeps r (State.ctxFlip s r') := by
  unfold State.ctxFlip
  repeat' first
    | with_reducible assumption
    | with_reducible apply Keeps.ctxImage
    | with_reducible apply Keeps.ctxSpoof
    | with_reducible apply Keeps.finish
    | with_reducible apply Keeps.ovlStatus
    | with_reducible apply Keeps.slotArm
    | with_reducible (refine Keeps.imageOk (by assumption) ?_)
    | with_reducible (refine Keeps.imageError (by assumption) ?_)
    | with_reducible (refine Keeps.slotCheck (by assumption) ?_)
    | with_reducible (refine Keeps.slotTake (by assumption) ?_)
    | (fail_if_no_progress (with_reducible (refine Keeps.lit ?_ rfl rfl rfl)))
    | (intro x; refine Keeps.cut (r := r) x ?_ (fun _ => ?_) <;> [subst x; clear_value x])
    | (intro (x : _ × State); refine Keeps.cut (r := r) x.2 ?_ (fun _ => ?_) <;> [subst x; clear_value x])
    | (intro x; clear_value x)
    | with_reducible (refine Keeps.ite ?_ ?_)
    | split
    | lift_lets

theorem Keeps.ctxLoad {r s : State} (h : Keeps r s) r' :
    Keeps r (State.ctxLoad s r') := by
  unfold State.ctxLoad
  repeat' first
    | with_reducible assumption
    | with_reducible apply Keeps.baseWrite
    | with_reducible apply Keeps.ctxImage
    | with_reducible apply Keeps.ctxSpoof
    | with_reducible apply Keeps.finish
    | with_reducible (refine Keeps.imageOk (by assumption) ?_)
    | with_reducible (refine Keeps.imageError (by assumption) ?_)
    | with_reducible (refine Keeps.slotCheck (by assumption) ?_)
    | with_reducible (refine Keeps.slotTake (by assumption) ?_)
    | (fail_if_no_progress (with_reducible (refine Keeps.lit ?_ rfl rfl rfl)))
    | with_reducible (refine Keeps.ite ?_ ?_)
    | split

theorem Keeps.ctxRead {r s : State} (h : Keeps r s) r' :
    Keeps r (State.ctxRead s r') := by
  unfold State.ctxRead
  dsimp only
  repeat' first
    | with_reducible assumption
    | with_reducible apply Keeps.cmdRead
    | with_reducible apply Keeps.cmdWrite
    | with_reducible apply Keeps.ctxImage
    | with_reducible apply Keeps.ctxSpoof
    | with_reducible apply Keeps.finish
    | with_reducible (refine Keeps.imageOk (by assumption) ?_)
    | with_reducible (refine Keeps.imageError (by assumption) ?_)
    | with_reducible (refine Keeps.slotCheck (by assumption) ?_)
    | with_reducible (refine Keeps.slotTake (by assumption) ?_)
    | with_reducible (refine Keeps.foldl _ ?_ (fun _ _ _ => ?_))
    | with_reducible (refine Keeps.foldlSnd _ ?_ (fun _ _ _ => ?_))
    | with_reducible (refine Keeps.foldlSnd2 _ ?_ (fun _ _ _ => ?_))
    | (fail_if_no_progress (with_reducible (refine Keeps.lit ?_ rfl rfl rfl)))
    | (intro x; refine Keeps.cut (r := r) x ?_ (fun _ => ?_) <;> [subst x; clear_value x])
    | (intro (x : _ × State); refine Keeps.cut (r := r) x.2 ?_ (fun _ => ?_) <;> [subst x; clear_value x])
    | (intro x; clear_value x)
    | with_reducible (refine Keeps.ite ?_ ?_)
    | split
    | lift_lets
    | with_reducible (refine Keeps.ofSnd (by assumption) ?_)
    | with_reducible (refine Keeps.ofSnd2 (by assumption) ?_)
    | intro

theorem Keeps.slotAdd {r s : State} (h : Keeps r s) k sl es :
    Keeps r (State.slotAdd s k sl es) := by
  unfold State.slotAdd
  repeat' first
    | with_reducible assumption
    | with_reducible apply Keeps.ovlStatus
    | (fail_if_no_progress (with_reducible (refine Keeps.lit ?_ rfl rfl rfl)))
    | with_reducible (refine Keeps.ite ?_ ?_)
    | split

theorem Keeps.slotTake {r s t : State} {sl k} (e : State.slotTake s sl = some (k, t)) (h : Keeps r s) : Keeps r t := by
  unfold State.slotTake at e
  split at e <;> cases e
  exact (((h.wr _ _ _).bump _ _).wr _ _ _)

theorem Keeps.ctxStage {r s : State} (h : Keeps r s) r' :
    Keeps r (State.ctxStage s r') := by
  unfold State.ctxStage
  dsimp only
  repeat' first
    | with_reducible assumption
    | with_reducible apply Keeps.ctxImage
    | with_reducible apply Keeps.ctxSpoof
    | with_reducible apply Keeps.finish
    | with_reducible apply Keeps.slotAdd
    | with_reducible (refine Keeps.imageOk (by assumption) ?_)
    | with_reducible (refine Keeps.imageError (by assumption) ?_)
    | with_reducible (refine Keeps.slotCheck (by assumption) ?_)
    | with_reducible (refine Keeps.slotTake (by assumption) ?_)
    | (fail_if_no_progress (with_reducible (refine Keeps.lit ?_ rfl rfl rfl)))
    | with_reducible (refine Keeps.ite ?_ ?_)
    | split

theorem Keeps.ctxStageFlip {r s : State} (h : Keeps r s) r' :
    Keeps r (State.ctxStageFlip s r') := by
  unfold State.ctxStageFlip
  repeat' first
    | with_reducible assumption
    | with_reducible apply Keeps.ctxImage
    | with_reducible apply Keeps.ctxSpoof
    | with_reducible apply Keeps.finish
    | with_reducible apply Keeps.slotAdd
    | with_reducible apply Keeps.slotArm
    | with_reducible (refine Keeps.imageOk (by assumption) ?_)
    | with_reducible (refine Keeps.imageError (by assumption) ?_)
    | with_reducible (refine Keeps.slotCheck (by assumption) ?_)
    | with_reducible (refine Keeps.slotTake (by assumption) ?_)
    | (fail_if_no_progress (with_reducible (refine Keeps.lit ?_ rfl rfl rfl)))
    | with_reducible (refine Keeps.ite ?_ ?_)
    | split

theorem Keeps.epochFlip {r s : State} (h : Keeps r s) k :
    Keeps r (State.epochFlip s k) := by
  unfold State.epochFlip
  repeat' first
    | with_reducible assumption
    | with_reducible apply Keeps.inc
    | with_reducible apply Keeps.raise
    | with_reducible apply Keeps.setAux
    | with_reducible apply Keeps.wr
    | (fail_if_no_progress (with_reducible (refine Keeps.lit ?_ rfl rfl rfl)))
    | with_reducible (refine Keeps.ite ?_ ?_)
    | split

theorem Keeps.mergeStart {r s : State} (h : Keeps r s) k :
    Keeps r (State.mergeStart s k) := by
  unfold State.mergeStart
  repeat' first
    | with_reducible assumption
    | with_reducible apply Keeps.slotFree
    | with_reducible apply Keeps.wr
    | (fail_if_no_progress (with_reducible (refine Keeps.lit ?_ rfl rfl rfl)))
    | with_reducible (refine Keeps.ite ?_ ?_)
    | split

theorem Keeps.mergeWrite {r s : State} (h : Keeps r s) b :
    Keeps r (State.mergeWrite s b) := by
  unfold State.mergeWrite
  repeat' first
    | with_reducible assumption
    | with_reducible apply Keeps.inc
    | with_reducible apply Keeps.ovlStatus
    | with_reducible apply Keeps.slotFree
    | (fail_if_no_progress (with_reducible (refine Keeps.lit ?_ rfl rfl rfl)))
    | with_reducible (refine Keeps.ite ?_ ?_)
    | split

theorem Keeps.busyPin {r s : State} (h : Keeps r s) :
    Keeps r (State.busyPin s) :=
  Keeps.lit h rfl rfl rfl

theorem Keeps.busyDrv {r s : State} (h : Keeps r s) on :
    Keeps r (State.busyDrv s on) := by
  unfold State.busyDrv
  repeat' first
    | with_reducible assumption
    | with_reducible apply Keeps.busyPin
    | with_reducible apply Keeps.wr
    | (fail_if_no_progress (with_reducible (refine Keeps.lit ?_ rfl rfl rfl)))
    | with_reducible (refine Keeps.ite ?_ ?_)
    | split

theorem Keeps.busyEdge {r s : State} (h : Keeps r s) :
    Keeps r (State.busyEdge s) := by
  unfold State.busyEdge
  repeat' first
    | with_reducible assumption
    | with_reducible apply Keeps.busyPin
    | with_reducible apply Keeps.inc
    | with_reducible apply Keeps.wr
    | (fail_if_no_progress (with_reducible (refine Keeps.lit ?_ rfl rfl rfl)))
    | with_reducible (refine Keeps.ite ?_ ?_)
    | split

theorem Keeps.busyReady {r s : State} (h : Keeps r s) :
    Keeps r (State.busyReady s) := by
  unfold State.busyReady
  repeat' first
    | with_reducible assumption
    | with_reducible apply Keeps.busyPin
    | with_reducible apply Keeps.wr
    | (fail_if_no_progress (with_reducible (refine Keeps.lit ?_ rfl rfl rfl)))
    | with_reducible (refine Keeps.ite ?_ ?_)
    | split

theorem Keeps.flagClear {r s : State} (h : Keeps r s) f k :
    Keeps r (State.flagClear s f k) := by
  unfold State.flagClear
  repeat' first
    | with_reducible assumption
    | with_reducible apply Keeps.raise
    | with_reducible apply Keeps.wr
    | (fail_if_no_progress (with_reducible (refine Keeps.lit ?_ rfl rfl rfl)))
    | with_reducible (refine Keeps.ite ?_ ?_)
    | split

theorem Keeps.honour {r s : State} (h : Keeps r s) k :
    Keeps r (State.honour s k) :=
  Keeps.lit h rfl rfl rfl

theorem Keeps.nowRec {r s : State} (h : Keeps r s) f :
    Keeps r (State.nowRec s f) := by
  unfold State.nowRec
  repeat' first
    | with_reducible assumption
    | (fail_if_no_progress (with_reducible (refine Keeps.lit ?_ rfl rfl rfl)))
    | with_reducible (refine Keeps.ite ?_ ?_)
    | split

theorem Keeps.maskInput {r s : State} (h : Keeps r s) k :
    Keeps r (State.maskInput s k) := by
  unfold State.maskInput
  repeat' first
    | with_reducible assumption
    | with_reducible apply Keeps.nowRec
    | with_reducible apply Keeps.wr
    | (fail_if_no_progress (with_reducible (refine Keeps.lit ?_ rfl rfl rfl)))
    | with_reducible (refine Keeps.ite ?_ ?_)
    | split

theorem Keeps.chatterWindow {r s : State} (h : Keeps r s) k :
    Keeps r (State.chatterWindow s k) := by
  unfold State.chatterWindow
  repeat' first
    | with_reducible assumption
    | with_reducible apply Keeps.flagClear
    | with_reducible apply Keeps.honour
    | with_reducible apply Keeps.inc
    | with_reducible apply Keeps.maskInput
    | with_reducible apply Keeps.nowRec
    | with_reducible apply Keeps.raise
    | with_reducible apply Keeps.wr
    | (fail_if_no_progress (with_reducible (refine Keeps.lit ?_ rfl rfl rfl)))
    | with_reducible (refine Keeps.ite ?_ ?_)
    | split

theorem Keeps.enApply {r s : State} (h : Keeps r s) k :
    Keeps r (State.enApply s k) := by
  unfold State.enApply
  repeat' first
    | with_reducible assumption
    | with_reducible apply Keeps.honour
    | with_reducible apply Keeps.nowRec
    | with_reducible apply Keeps.wr
    | (fail_if_no_progress (with_reducible (refine Keeps.lit ?_ rfl rfl rfl)))
    | with_reducible (refine Keeps.ite ?_ ?_)
    | split

theorem Keeps.inEn {r s : State} (h : Keeps r s) k on :
    Keeps r (State.inEn s k on) := by
  unfold State.inEn
  repeat' first
    | with_reducible assumption
    | with_reducible apply Keeps.enApply
    | with_reducible apply Keeps.wr
    | (fail_if_no_progress (with_reducible (refine Keeps.lit ?_ rfl rfl rfl)))
    | with_reducible (refine Keeps.ite ?_ ?_)
    | split

theorem Keeps.inCfg {r s : State} (h : Keeps r s) k v :
    Keeps r (State.inCfg s k v) := by
  unfold State.inCfg
  repeat' first
    | with_reducible assumption
    | with_reducible apply Keeps.inEn
    | with_reducible apply Keeps.wr
    | (fail_if_no_progress (with_reducible (refine Keeps.lit ?_ rfl rfl rfl)))
    | with_reducible (refine Keeps.ite ?_ ?_)
    | split

theorem Keeps.inEnApply {r s : State} (h : Keeps r s) k :
    Keeps r (State.inEnApply s k) := by
  unfold State.inEnApply
  repeat' first
    | with_reducible assumption
    | with_reducible apply Keeps.enApply
    | (fail_if_no_progress (with_reducible (refine Keeps.lit ?_ rfl rfl rfl)))
    | with_reducible (refine Keeps.ite ?_ ?_)
    | split

theorem Keeps.inputEdge {r s : State} (h : Keeps r s) k level beat :
    Keeps r (State.inputEdge s k level beat) := by
  unfold State.inputEdge
  repeat' first
    | with_reducible assumption
    | with_reducible apply Keeps.flagClear
    | with_reducible apply Keeps.honour
    | with_reducible apply Keeps.inc
    | with_reducible apply Keeps.wr
    | (fail_if_no_progress (with_reducible (refine Keeps.lit ?_ rfl rfl rfl)))
    | with_reducible (refine Keeps.ite ?_ ?_)
    | split

theorem Keeps.trigDrv {r s : State} (h : Keeps r s) on :
    Keeps r (State.trigDrv s on) := by
  unfold State.trigDrv
  repeat' first
    | with_reducible assumption
    | with_reducible apply Keeps.wr
    | (fail_if_no_progress (with_reducible (refine Keeps.lit ?_ rfl rfl rfl)))
    | with_reducible (refine Keeps.ite ?_ ?_)
    | split

theorem Keeps.outCtl {r s : State} (h : Keeps r s) v :
    Keeps r (State.outCtl s v) := by
  unfold State.outCtl
  repeat' first
    | with_reducible assumption
    | with_reducible apply Keeps.busyDrv
    | with_reducible apply Keeps.trigDrv
    | with_reducible apply Keeps.wr
    | with_reducible (refine Keeps.foldl _ ?_ (fun _ _ _ => ?_))
    | with_reducible (refine Keeps.foldlSnd _ ?_ (fun _ _ _ => ?_))
    | with_reducible (refine Keeps.foldlSnd2 _ ?_ (fun _ _ _ => ?_))
    | (fail_if_no_progress (with_reducible (refine Keeps.lit ?_ rfl rfl rfl)))
    | (intro x; refine Keeps.cut (r := r) x ?_ (fun _ => ?_) <;> [subst x; clear_value x])
    | (intro (x : _ × State); refine Keeps.cut (r := r) x.2 ?_ (fun _ => ?_) <;> [subst x; clear_value x])
    | (intro x; clear_value x)
    | with_reducible (refine Keeps.ite ?_ ?_)
    | split
    | lift_lets
    | with_reducible (refine Keeps.ofSnd (by assumption) ?_)
    | with_reducible (refine Keeps.ofSnd2 (by assumption) ?_)
    | intro

theorem Keeps.rearm {r s : State} (h : Keeps r s) k :
    Keeps r (State.rearm s k) := by
  unfold State.rearm
  repeat' first
    | with_reducible assumption
    | with_reducible apply Keeps.wr
    | (fail_if_no_progress (with_reducible (refine Keeps.lit ?_ rfl rfl rfl)))
    | with_reducible (refine Keeps.ite ?_ ?_)
    | split

theorem Keeps.recEdge {r s : State} (h : Keeps r s) old :
    Keeps r (State.recEdge s old) :=
  Keeps.lit h rfl rfl rfl

theorem Keeps.stuck {r s : State} (h : Keeps r s) k :
    Keeps r (State.stuck s k) := by
  unfold State.stuck
  repeat' first
    | with_reducible assumption
    | with_reducible apply Keeps.inc
    | with_reducible apply Keeps.maskInput
    | with_reducible apply Keeps.raise
    | with_reducible apply Keeps.wr
    | (fail_if_no_progress (with_reducible (refine Keeps.lit ?_ rfl rfl rfl)))
    | with_reducible (refine Keeps.ite ?_ ?_)
    | split

theorem Keeps.trigDrvApply {r s : State} (h : Keeps r s) :
    Keeps r (State.trigDrvApply s) := by
  unfold State.trigDrvApply
  repeat' first
    | with_reducible assumption
    | (fail_if_no_progress (with_reducible (refine Keeps.lit ?_ rfl rfl rfl)))
    | with_reducible (refine Keeps.ite ?_ ?_)
    | split

theorem Keeps.trigPulse {r s : State} (h : Keeps r s) trig :
    Keeps r (State.trigPulse s trig) := by
  unfold State.trigPulse
  repeat' first
    | with_reducible assumption
    | with_reducible apply Keeps.inc
    | with_reducible (refine Keeps.foldl _ ?_ (fun _ _ _ => ?_))
    | with_reducible (refine Keeps.foldlSnd _ ?_ (fun _ _ _ => ?_))
    | with_reducible (refine Keeps.foldlSnd2 _ ?_ (fun _ _ _ => ?_))
    | (fail_if_no_progress (with_reducible (refine Keeps.lit ?_ rfl rfl rfl)))
    | (intro x; refine Keeps.cut (r := r) x ?_ (fun _ => ?_) <;> [subst x; clear_value x])
    | (intro (x : _ × State); refine Keeps.cut (r := r) x.2 ?_ (fun _ => ?_) <;> [subst x; clear_value x])
    | (intro x; clear_value x)
    | with_reducible (refine Keeps.ite ?_ ?_)
    | split
    | lift_lets
    | with_reducible (refine Keeps.ofSnd (by assumption) ?_)
    | with_reducible (refine Keeps.ofSnd2 (by assumption) ?_)
    | intro

theorem Keeps.activate {r s : State} (h : Keeps r s) i :
    Keeps r (State.activate s i) := by
  unfold State.activate
  repeat' first
    | with_reducible assumption
    | with_reducible apply Keeps.raise
    | with_reducible apply Keeps.wr
    | (fail_if_no_progress (with_reducible (refine Keeps.lit ?_ rfl rfl rfl)))
    | with_reducible (refine Keeps.ite ?_ ?_)
    | split

theorem Keeps.setIn {r s : State} (h : Keeps r s) i x :
    Keeps r (State.setIn s i x) :=
  Keeps.lit h rfl rfl rfl

theorem Keeps.unitCheck {r s : State} (h : Keeps r s) :
    Keeps r (State.unitCheck s) := by
  unfold State.unitCheck
  repeat' first
    | with_reducible assumption
    | with_reducible apply Keeps.activate
    | with_reducible apply Keeps.raise
    | with_reducible apply Keeps.wr
    | (fail_if_no_progress (with_reducible (refine Keeps.lit ?_ rfl rfl rfl)))
    | with_reducible (refine Keeps.ite ?_ ?_)
    | split

theorem Keeps.setMismatch {r s : State} (h : Keeps r s) i b :
    Keeps r (State.setMismatch s i b) := by
  unfold State.setMismatch
  repeat' first
    | with_reducible assumption
    | with_reducible apply Keeps.raise
    | with_reducible apply Keeps.setIn
    | with_reducible apply Keeps.unitCheck
    | with_reducible apply Keeps.wr
    | (fail_if_no_progress (with_reducible (refine Keeps.lit ?_ rfl rfl rfl)))
    | with_reducible (refine Keeps.ite ?_ ?_)
    | split

theorem Keeps.adopt {r s : State} (h : Keeps r s) :
    Keeps r (State.adopt s) := by
  unfold State.adopt
  repeat' first
    | with_reducible assumption
    | with_reducible apply Keeps.setMismatch
    | (fail_if_no_progress (with_reducible (refine Keeps.lit ?_ rfl rfl rfl)))
    | with_reducible (refine Keeps.ite ?_ ?_)
    | split

theorem Keeps.autoRevert {r s : State} (h : Keeps r s) :
    Keeps r (State.autoRevert s) := by
  unfold State.autoRevert
  repeat' first
    | with_reducible assumption
    | with_reducible apply Keeps.activate
    | (fail_if_no_progress (with_reducible (refine Keeps.lit ?_ rfl rfl rfl)))
    | with_reducible (refine Keeps.ite ?_ ?_)
    | split

theorem Keeps.inGo {r s : State} (h : Keeps r s) i st :
    Keeps r (State.inGo s i st) := by
  unfold State.inGo
  repeat' first
    | with_reducible assumption
    | with_reducible apply Keeps.activate
    | with_reducible apply Keeps.raise
    | with_reducible apply Keeps.setIn
    | with_reducible apply Keeps.unitCheck
    | with_reducible apply Keeps.wr
    | (fail_if_no_progress (with_reducible (refine Keeps.lit ?_ rfl rfl rfl)))
    | with_reducible (refine Keeps.ite ?_ ?_)
    | split

theorem Keeps.goodFrame {r s : State} (h : Keeps r s) i spaced :
    Keeps r (State.goodFrame s i spaced) := by
  unfold State.goodFrame
  repeat' first
    | with_reducible assumption
    | with_reducible apply Keeps.inGo
    | with_reducible apply Keeps.setIn
    | (fail_if_no_progress (with_reducible (refine Keeps.lit ?_ rfl rfl rfl)))
    | with_reducible (refine Keeps.ite ?_ ?_)
    | split

theorem Keeps.badFrame {r s : State} (h : Keeps r s) i crcBad spaced :
    Keeps r (State.badFrame s i crcBad spaced) := by
  unfold State.badFrame
  repeat' first
    | with_reducible assumption
    | with_reducible apply Keeps.goodFrame
    | with_reducible apply Keeps.inGo
    | with_reducible apply Keeps.inc
    | with_reducible apply Keeps.setIn
    | (fail_if_no_progress (with_reducible (refine Keeps.lit ?_ rfl rfl rfl)))
    | with_reducible (refine Keeps.ite ?_ ?_)
    | split

theorem Keeps.beatEn {r s : State} (h : Keeps r s) i on :
    Keeps r (State.beatEn s i on) := by
  unfold State.beatEn
  repeat' first
    | with_reducible assumption
    | with_reducible apply Keeps.inGo
    | with_reducible apply Keeps.wr
    | (fail_if_no_progress (with_reducible (refine Keeps.lit ?_ rfl rfl rfl)))
    | with_reducible (refine Keeps.ite ?_ ?_)
    | split

end Sys2Proof.Machine
end

