-- ==== Sys2Proof/Laws/KeepsTrigger.lean ====
section
/-!
SUPPORT. Each operation of Beat, Trigger, Guests, Proofs, Stipple, Doe, Slices keeps the relation `Keeps` of its state
to an earlier one.
-/

set_option Elab.async false

set_option linter.all false

namespace Sys2Proof.Machine

theorem Keeps.beatCfg {r s : State} (h : Keeps r s) v :
    Keeps r (State.beatCfg s v) := by
  unfold State.beatCfg
  repeat' first
    | with_reducible assumption
    | with_reducible apply Keeps.beatEn
    | with_reducible apply Keeps.wr
    | with_reducible (refine Keeps.foldl _ ?_ (fun _ _ _ => ?_))
    | with_reducible (refine Keeps.foldlSnd _ ?_ (fun _ _ _ => ?_))
    | with_reducible (refine Keeps.foldlSnd2 _ ?_ (fun _ _ _ => ?_))
    | (fail_if_no_progress (with_reducible (refine Keeps.lit ?_ rfl rfl rfl)))
    | (intro x; refine Keeps.cut (r := r) x ?_ (fun _ => ?_) <;> [subst x; clear_value x])
    | (intro (x : _ × State); refine Keeps.cut (r := r) x.2 ?_ (fun _ => ?_) <;> [subst x; clear_value x])
    | (intro x; clear_value x)
    | with_reducible (refine Keeps.ite ?_ ?_)
    | split
    | lift_lets
    | with_reducible (refine Keeps.ofSnd (by assumption) ?_)
    | with_reducible (refine Keeps.ofSnd2 (by assumption) ?_)
    | intro

theorem Keeps.forceSwitch {r s : State} (h : Keeps r s) :
    Keeps r (State.forceSwitch s) := by
  unfold State.forceSwitch
  repeat' first
    | with_reducible assumption
    | with_reducible apply Keeps.activate
    | (fail_if_no_progress (with_reducible (refine Keeps.lit ?_ rfl rfl rfl)))
    | with_reducible (refine Keeps.ite ?_ ?_)
    | split

theorem Keeps.swLoad {r s : State} (h : Keeps r s) :
    Keeps r (State.swLoad s) :=
  Keeps.lit h rfl rfl rfl

theorem Keeps.beatCtl {r s : State} (h : Keeps r s) v :
    Keeps r (State.beatCtl s v) := by
  unfold State.beatCtl
  repeat' first
    | with_reducible assumption
    | with_reducible apply Keeps.adopt
    | with_reducible apply Keeps.forceSwitch
    | with_reducible apply Keeps.swLoad
    | with_reducible apply Keeps.when
    | (fail_if_no_progress (with_reducible (refine Keeps.lit ?_ rfl rfl rfl)))
    | with_reducible (refine Keeps.ite ?_ ?_)
    | split

theorem Keeps.beatOut {r s : State} (h : Keeps r s) :
    Keeps r (State.beatOut s) := by
  unfold State.beatOut
  repeat' first
    | with_reducible assumption
    | (fail_if_no_progress (with_reducible (refine Keeps.lit ?_ rfl rfl rfl)))
    | with_reducible (refine Keeps.ite ?_ ?_)
    | split

theorem Keeps.countLoad {r s : State} (h : Keeps r s) c :
    Keeps r (State.countLoad s c) := by
  unfold State.countLoad
  repeat' first
    | with_reducible assumption
    | with_reducible apply Keeps.evbLoad
    | with_reducible apply Keeps.evbSettle
    | with_reducible apply Keeps.inc
    | with_reducible apply Keeps.stencilLoad
    | with_reducible apply Keeps.trgRestart
    | with_reducible apply Keeps.when
    | with_reducible (refine Keeps.foldl _ ?_ (fun _ _ _ => ?_))
    | with_reducible (refine Keeps.foldlSnd _ ?_ (fun _ _ _ => ?_))
    | with_reducible (refine Keeps.foldlSnd2 _ ?_ (fun _ _ _ => ?_))
    | (fail_if_no_progress (with_reducible (refine Keeps.lit ?_ rfl rfl rfl)))
    | (intro x; refine Keeps.cut (r := r) x ?_ (fun _ => ?_) <;> [subst x; clear_value x])
    | (intro (x : _ × State); refine Keeps.cut (r := r) x.2 ?_ (fun _ => ?_) <;> [subst x; clear_value x])
    | (intro x; clear_value x)
    | with_reducible (refine Keeps.ite ?_ ?_)
    | split
    | lift_lets
    | with_reducible (refine Keeps.ofSnd (by assumption) ?_)
    | with_reducible (refine Keeps.ofSnd2 (by assumption) ?_)
    | intro

theorem Keeps.release {r s : State} (h : Keeps r s) :
    Keeps r (State.release s) := by
  unfold State.release
  repeat' first
    | with_reducible assumption
    | with_reducible apply Keeps.evAccept
    | with_reducible apply Keeps.inc
    | with_reducible apply Keeps.queueAccept
    | with_reducible apply Keeps.raise
    | with_reducible apply Keeps.trigPulse
    | (fail_if_no_progress (with_reducible (refine Keeps.lit ?_ rfl rfl rfl)))
    | with_reducible (refine Keeps.ite ?_ ?_)
    | split

theorem Keeps.beatEdge {r s : State} (h : Keeps r s) :
    Keeps r (State.beatEdge s) := by
  unfold State.beatEdge
  repeat' first
    | with_reducible assumption
    | with_reducible apply Keeps.beatOut
    | with_reducible apply Keeps.busyEdge
    | with_reducible apply Keeps.countLoad
    | with_reducible apply Keeps.recEdge
    | with_reducible apply Keeps.release
    | with_reducible apply Keeps.wr
    | (fail_if_no_progress (with_reducible (refine Keeps.lit ?_ rfl rfl rfl)))
    | with_reducible (refine Keeps.ite ?_ ?_)
    | split

theorem Keeps.calExecute {r s : State} (h : Keeps r s) :
    Keeps r (State.calExecute s) := by
  unfold State.calExecute
  repeat' first
    | with_reducible assumption
    | with_reducible apply Keeps.queueCmd
    | with_reducible apply Keeps.raise
    | with_reducible apply Keeps.wr
    | (fail_if_no_progress (with_reducible (refine Keeps.lit ?_ rfl rfl rfl)))
    | with_reducible (refine Keeps.ite ?_ ?_)
    | split

theorem Keeps.calFrame {r s : State} (h : Keeps r s) i tag code delay spaced :
    Keeps r (State.calFrame s i tag code delay spaced) := by
  unfold State.calFrame
  repeat' first
    | with_reducible assumption
    | with_reducible apply Keeps.goodFrame
    | (fail_if_no_progress (with_reducible (refine Keeps.lit ?_ rfl rfl rfl)))
    | with_reducible (refine Keeps.ite ?_ ?_)
    | split

theorem Keeps.codeErrors {r s : State} (h : Keeps r s) i n :
    Keeps r (State.codeErrors s i n) :=
  Keeps.lit h rfl rfl rfl

theorem Keeps.countRead {r s : State} (h : Keeps r s) off size fine :
    Keeps r (State.countRead s off size fine) := by
  unfold State.countRead
  repeat' first
    | with_reducible assumption
    | with_reducible apply Keeps.wr
    | (fail_if_no_progress (with_reducible (refine Keeps.lit ?_ rfl rfl rfl)))
    | with_reducible (refine Keeps.ite ?_ ?_)
    | split

theorem Keeps.freqWindow {r s : State} (h : Keeps r s) i count abPhase near errors :
    Keeps r (State.freqWindow s i count abPhase near errors) := by
  unfold State.freqWindow
  repeat' first
    | with_reducible assumption
    | with_reducible apply Keeps.codeErrors
    | with_reducible apply Keeps.inGo
    | with_reducible apply Keeps.setIn
    | with_reducible apply Keeps.unitCheck
    | with_reducible apply Keeps.wr
    | (fail_if_no_progress (with_reducible (refine Keeps.lit ?_ rfl rfl rfl)))
    | with_reducible (refine Keeps.ite ?_ ?_)
    | split

theorem Keeps.hzbeat {r s : State} (h : Keeps r s) core rd fine :
    Keeps r (State.hzbeat s core rd fine) := by
  unfold State.hzbeat
  repeat' first
    | with_reducible assumption
    | with_reducible apply Keeps.free
    | with_reducible apply Keeps.setCsr
    | with_reducible apply Keeps.setHart
    | (fail_if_no_progress (with_reducible (refine Keeps.lit ?_ rfl rfl rfl)))
    | with_reducible (refine Keeps.ite ?_ ?_)
    | split

theorem Keeps.judgeTag {r s : State} (h : Keeps r s) i tag age :
    Keeps r (State.judgeTag s i tag age) := by
  unfold State.judgeTag
  repeat' first
    | with_reducible assumption
    | with_reducible apply Keeps.inc
    | with_reducible apply Keeps.setIn
    | with_reducible apply Keeps.setMismatch
    | (fail_if_no_progress (with_reducible (refine Keeps.lit ?_ rfl rfl rfl)))
    | with_reducible (refine Keeps.ite ?_ ?_)
    | split

theorem Keeps.streamLoad {r s : State} (h : Keeps r s) tag age :
    Keeps r (State.streamLoad s tag age) :=
  Keeps.lit h rfl rfl rfl

theorem Keeps.loadFrame {r s : State} (h : Keeps r s) i tag age spaced :
    Keeps r (State.loadFrame s i tag age spaced) := by
  unfold State.loadFrame
  repeat' first
    | with_reducible assumption
    | with_reducible apply Keeps.goodFrame
    | with_reducible apply Keeps.setMismatch
    | with_reducible apply Keeps.streamLoad
    | (fail_if_no_progress (with_reducible (refine Keeps.lit ?_ rfl rfl rfl)))
    | with_reducible (refine Keeps.ite ?_ ?_)
    | split

theorem Keeps.onInput {r s : State} (h : Keeps r s) i (f : State → State) (hf : ∀ t, Keeps r t → Keeps r (f t)) :
    Keeps r (State.onInput s i f) := by
  unfold State.onInput
  repeat' first
    | with_reducible assumption
    | with_reducible apply hf
    | (fail_if_no_progress (with_reducible (refine Keeps.lit ?_ rfl rfl rfl)))
    | with_reducible (refine Keeps.ite ?_ ?_)
    | split

theorem Keeps.releaseRead {r s : State} (h : Keeps r s) slack :
    Keeps r (State.releaseRead s slack) := by
  unfold State.releaseRead
  repeat' first
    | with_reducible assumption
    | with_reducible apply Keeps.wr
    | (fail_if_no_progress (with_reducible (refine Keeps.lit ?_ rfl rfl rfl)))
    | with_reducible (refine Keeps.ite ?_ ?_)
    | split

theorem Keeps.rqCfg {r s : State} (h : Keeps r s) v :
    Keeps r (State.rqCfg s v) := by
  unfold State.rqCfg
  repeat' first
    | with_reducible assumption
    | with_reducible apply Keeps.wr
    | with_reducible (refine Keeps.foldl _ ?_ (fun _ _ _ => ?_))
    | with_reducible (refine Keeps.foldlSnd _ ?_ (fun _ _ _ => ?_))
    | with_reducible (refine Keeps.foldlSnd2 _ ?_ (fun _ _ _ => ?_))
    | (fail_if_no_progress (with_reducible (refine Keeps.lit ?_ rfl rfl rfl)))
    | (intro x; refine Keeps.cut (r := r) x ?_ (fun _ => ?_) <;> [subst x; clear_value x])
    | (intro (x : _ × State); refine Keeps.cut (r := r) x.2 ?_ (fun _ => ?_) <;> [subst x; clear_value x])
    | (intro x; clear_value x)
    | with_reducible (refine Keeps.ite ?_ ?_)
    | split
    | lift_lets
    | with_reducible (refine Keeps.ofSnd (by assumption) ?_)
    | with_reducible (refine Keeps.ofSnd2 (by assumption) ?_)
    | intro

theorem Keeps.slackReset {r s : State} (h : Keeps r s) :
    Keeps r (State.slackReset s) :=
  Keeps.lit h rfl rfl rfl

theorem Keeps.syncExecute {r s : State} (h : Keeps r s) :
    Keeps r (State.syncExecute s) := by
  unfold State.syncExecute
  repeat' first
    | with_reducible assumption
    | with_reducible apply Keeps.queueCmd
    | with_reducible apply Keeps.raise
    | with_reducible apply Keeps.wr
    | (fail_if_no_progress (with_reducible (refine Keeps.lit ?_ rfl rfl rfl)))
    | with_reducible (refine Keeps.ite ?_ ?_)
    | split

theorem Keeps.syncFrame {r s : State} (h : Keeps r s) i code spaced :
    Keeps r (State.syncFrame s i code spaced) := by
  unfold State.syncFrame
  repeat' first
    | with_reducible assumption
    | with_reducible apply Keeps.goodFrame
    | (fail_if_no_progress (with_reducible (refine Keeps.lit ?_ rfl rfl rfl)))
    | with_reducible (refine Keeps.ite ?_ ?_)
    | split

theorem Keeps.timeFrame {r s : State} (h : Keeps r s) i tag age spaced :
    Keeps r (State.timeFrame s i tag age spaced) := by
  unfold State.timeFrame
  repeat' first
    | with_reducible assumption
    | with_reducible apply Keeps.goodFrame
    | with_reducible apply Keeps.judgeTag
    | with_reducible apply Keeps.streamLoad
    | (fail_if_no_progress (with_reducible (refine Keeps.lit ?_ rfl rfl rfl)))
    | with_reducible (refine Keeps.ite ?_ ?_)
    | split

theorem Keeps.armUnit {r s : State} (h : Keeps r s) u id at' moved xs :
    Keeps r (State.armUnit s u id at' moved xs) := by
  unfold State.armUnit
  repeat' first
    | with_reducible assumption
    | with_reducible apply Keeps.bump
    | with_reducible apply Keeps.setUnit
    | with_reducible apply Keeps.wr
    | (fail_if_no_progress (with_reducible (refine Keeps.lit ?_ rfl rfl rfl)))
    | with_reducible (refine Keeps.ite ?_ ?_)
    | split

theorem Keeps.judged {r s : State} (h : Keeps r s) b :
    Keeps r (State.judged s b) := by
  unfold State.judged
  repeat' first
    | with_reducible assumption
    | with_reducible apply Keeps.wr
    | (fail_if_no_progress (with_reducible (refine Keeps.lit ?_ rfl rfl rfl)))
    | with_reducible (refine Keeps.ite ?_ ?_)
    | split

theorem Keeps.prescaleBit {r s : State} (h : Keeps r s) b i :
    Keeps r (State.prescaleBit s b i).2 := by
  unfold State.prescaleBit
  repeat' first
    | with_reducible assumption
    | with_reducible apply Keeps.inc
    | (fail_if_no_progress (with_reducible (refine Keeps.lit ?_ rfl rfl rfl)))
    | (intro x; refine Keeps.cut (r := r) x ?_ (fun _ => ?_) <;> [subst x; clear_value x])
    | (intro (x : _ × State); refine Keeps.cut (r := r) x.2 ?_ (fun _ => ?_) <;> [subst x; clear_value x])
    | (intro x; clear_value x)
    | with_reducible (refine Keeps.ite ?_ ?_)
    | split
    | lift_lets

theorem Keeps.prescaleAll {r s : State} (h : Keeps r s) b l : Keeps r (State.prescaleAll s b l).2 := by
  induction l generalizing s <;> unfold State.prescaleAll
  repeat' first
    | with_reducible assumption
    | with_reducible apply Keeps.prescaleBit
    | with_reducible apply_assumption
    | with_reducible (refine Keeps.foldl _ ?_ (fun _ _ _ => ?_))
    | with_reducible (refine Keeps.foldlSnd _ ?_ (fun _ _ _ => ?_))
    | with_reducible (refine Keeps.foldlSnd2 _ ?_ (fun _ _ _ => ?_))
    | (fail_if_no_progress (with_reducible (refine Keeps.lit ?_ rfl rfl rfl)))
    | (intro x; refine Keeps.cut (r := r) x ?_ (fun _ => ?_) <;> [subst x; clear_value x])
    | (intro (x : _ × State); refine Keeps.cut (r := r) x.2 ?_ (fun _ => ?_) <;> [subst x; clear_value x])
    | (intro (x : _ → State); subst x; beta_reduce)
    | (intro (x : _ → _ → State); subst x; beta_reduce)
    | (intro (x : _ → _ × State); subst x; beta_reduce)
    | (intro (x : _ → _ → _ × State); subst x; beta_reduce)
    | (intro (x : MemState); subst x)
    | (intro x; clear_value x)
    | with_reducible (refine Keeps.ite ?_ ?_)
    | split
    | lift_lets
    | with_reducible (refine Keeps.ofSnd (by assumption) ?_)
    | with_reducible (refine Keeps.ofSnd2 (by assumption) ?_)
    | intro

theorem Keeps.swapStart {r s : State} (h : Keeps r s) b :
    Keeps r (State.swapStart s b) := by
  unfold State.swapStart
  repeat' first
    | with_reducible assumption
    | with_reducible apply Keeps.wr
    | (fail_if_no_progress (with_reducible (refine Keeps.lit ?_ rfl rfl rfl)))
    | (intro x; refine Keeps.cut (r := r) x ?_ (fun _ => ?_) <;> [subst x; clear_value x])
    | (intro (x : _ × State); refine Keeps.cut (r := r) x.2 ?_ (fun _ => ?_) <;> [subst x; clear_value x])
    | (intro x; clear_value x)
    | with_reducible (refine Keeps.ite ?_ ?_)
    | split
    | lift_lets

theorem Keeps.throttleBeat {r s : State} (h : Keeps r s) :
    Keeps r (State.throttleBeat s) := by
  unfold State.throttleBeat
  repeat' first
    | with_reducible assumption
    | with_reducible apply Keeps.inc
    | with_reducible apply Keeps.ledgerTime
    | (fail_if_no_progress (with_reducible (refine Keeps.lit ?_ rfl rfl rfl)))
    | with_reducible (refine Keeps.ite ?_ ?_)
    | split

theorem Keeps.veto {r s : State} (h : Keeps r s) b candidate throttle :
    Keeps r (State.veto s b candidate throttle).2 := by
  unfold State.veto
  repeat' first
    | with_reducible assumption
    | with_reducible apply Keeps.inc
    | with_reducible apply Keeps.wr
    | (fail_if_no_progress (with_reducible (refine Keeps.lit ?_ rfl rfl rfl)))
    | (intro x; refine Keeps.cut (r := r) x ?_ (fun _ => ?_) <;> [subst x; clear_value x])
    | (intro (x : _ × State); refine Keeps.cut (r := r) x.2 ?_ (fun _ => ?_) <;> [subst x; clear_value x])
    | (intro x; clear_value x)
    | with_reducible (refine Keeps.ite ?_ ?_)
    | split
    | lift_lets

theorem Keeps.judgeBits {r s : State} (h : Keeps r s) b v throttle :
    Keeps r (State.judgeBits s b v throttle) := by
  unfold State.judgeBits
  repeat' first
    | with_reducible assumption
    | with_reducible apply Keeps.decide
    | with_reducible apply Keeps.inc
    | with_reducible apply Keeps.judged
    | with_reducible apply Keeps.prescaleAll
    | with_reducible apply Keeps.swapStart
    | with_reducible apply Keeps.throttleBeat
    | with_reducible apply Keeps.veto
    | with_reducible apply Keeps.wr
    | (fail_if_no_progress (with_reducible (refine Keeps.lit ?_ rfl rfl rfl)))
    | with_reducible (refine Keeps.ite ?_ ?_)
    | split

theorem Keeps.combinerJudge {r s : State} (h : Keeps r s) :
    Keeps r (State.combinerJudge s) := by
  unfold State.combinerJudge
  repeat' first
    | with_reducible assumption
    | with_reducible apply Keeps.judgeBits
    | with_reducible apply Keeps.stencilWord
    | (fail_if_no_progress (with_reducible (refine Keeps.lit ?_ rfl rfl rfl)))
    | with_reducible (refine Keeps.ite ?_ ?_)
    | split

theorem Keeps.engineEval {r s : State} (h : Keeps r s) e :
    Keeps r (State.engineEval s e) := by
  unfold State.engineEval
  repeat' first
    | with_reducible assumption
    | with_reducible apply Keeps.wr
    | (fail_if_no_progress (with_reducible (refine Keeps.lit ?_ rfl rfl rfl)))
    | (intro x; refine Keeps.cut (r := r) x ?_ (fun _ => ?_) <;> [subst x; clear_value x])
    | (intro (x : _ × State); refine Keeps.cut (r := r) x.2 ?_ (fun _ => ?_) <;> [subst x; clear_value x])
    | (intro x; clear_value x)
    | with_reducible (refine Keeps.ite ?_ ?_)
    | split
    | lift_lets

theorem Keeps.guestDeadline {r s : State} (h : Keeps r s) b :
    Keeps r (State.guestDeadline s b) := by
  unfold State.guestDeadline
  repeat' first
    | with_reducible assumption
    | with_reducible apply Keeps.inc
    | with_reducible apply Keeps.raise
    | (fail_if_no_progress (with_reducible (refine Keeps.lit ?_ rfl rfl rfl)))
    | with_reducible (refine Keeps.ite ?_ ?_)
    | split

theorem Keeps.maskSubs {r s : State} (h : Keeps r s) old new :
    Keeps r (State.maskSubs s old new) := by
  unfold State.maskSubs
  repeat' first
    | with_reducible assumption
    | with_reducible apply Keeps.inc
    | with_reducible apply Keeps.raise
    | with_reducible (refine Keeps.foldl _ ?_ (fun _ _ _ => ?_))
    | with_reducible (refine Keeps.foldlSnd _ ?_ (fun _ _ _ => ?_))
    | with_reducible (refine Keeps.foldlSnd2 _ ?_ (fun _ _ _ => ?_))
    | (fail_if_no_progress (with_reducible (refine Keeps.lit ?_ rfl rfl rfl)))
    | (intro x; refine Keeps.cut (r := r) x ?_ (fun _ => ?_) <;> [subst x; clear_value x])
    | (intro (x : _ × State); refine Keeps.cut (r := r) x.2 ?_ (fun _ => ?_) <;> [subst x; clear_value x])
    | (intro x; clear_value x)
    | with_reducible (refine Keeps.ite ?_ ?_)
    | split
    | lift_lets
    | with_reducible (refine Keeps.ofSnd (by assumption) ?_)
    | with_reducible (refine Keeps.ofSnd2 (by assumption) ?_)
    | intro

theorem Keeps.trgSpoof {r s : State} (h : Keeps r s) r' :
    Keeps r (State.trgSpoof s r') := by
  unfold State.trgSpoof
  repeat' first
    | with_reducible assumption
    | with_reducible apply Keeps.finish
    | with_reducible apply Keeps.inc
    | with_reducible apply Keeps.raise
    | with_reducible apply Keeps.spoof
    | (fail_if_no_progress (with_reducible (refine Keeps.lit ?_ rfl rfl rfl)))
    | with_reducible (refine Keeps.ite ?_ ?_)
    | split

theorem Keeps.trgStale {r s : State} (h : Keeps r s) r' :
    Keeps r (State.trgStale s r') := by
  unfold State.trgStale
  repeat' first
    | with_reducible assumption
    | with_reducible apply Keeps.finish
    | with_reducible apply Keeps.inc
    | (fail_if_no_progress (with_reducible (refine Keeps.lit ?_ rfl rfl rfl)))
    | with_reducible (refine Keeps.ite ?_ ?_)
    | split

theorem Keeps.menuLoad {r s : State} (h : Keeps r s) r' :
    Keeps r (State.menuLoad s r') := by
  unfold State.menuLoad
  dsimp only
  repeat' first
    | with_reducible assumption
    | with_reducible apply Keeps.armUnit
    | with_reducible apply Keeps.cmdRead
    | with_reducible apply Keeps.finish
    | with_reducible apply Keeps.inc
    | with_reducible apply Keeps.raise
    | with_reducible apply Keeps.trgSpoof
    | with_reducible apply Keeps.trgStale
    | with_reducible (refine Keeps.foldl _ ?_ (fun _ _ _ => ?_))
    | with_reducible (refine Keeps.foldlSnd _ ?_ (fun _ _ _ => ?_))
    | with_reducible (refine Keeps.foldlSnd2 _ ?_ (fun _ _ _ => ?_))
    | (fail_if_no_progress (with_reducible (refine Keeps.lit ?_ rfl rfl rfl)))
    | (intro x; refine Keeps.cut (r := r) x ?_ (fun _ => ?_) <;> [subst x; clear_value x])
    | (intro (x : _ × State); refine Keeps.cut (r := r) x.2 ?_ (fun _ => ?_) <;> [subst x; clear_value x])
    | (intro x; clear_value x)
    | with_reducible (refine Keeps.ite ?_ ?_)
    | split
    | lift_lets
    | with_reducible (refine Keeps.ofSnd (by assumption) ?_)
    | with_reducible (refine Keeps.ofSnd2 (by assumption) ?_)
    | intro

theorem Keeps.menuRead {r s : State} (h : Keeps r s) r' :
    Keeps r (State.menuRead s r') := by
  unfold State.menuRead
  repeat' first
    | with_reducible assumption
    | with_reducible apply Keeps.cmdWrite
    | with_reducible apply Keeps.finish
    | with_reducible apply Keeps.trgSpoof
    | with_reducible (refine Keeps.foldl _ ?_ (fun _ _ _ => ?_))
    | with_reducible (refine Keeps.foldlSnd _ ?_ (fun _ _ _ => ?_))
    | with_reducible (refine Keeps.foldlSnd2 _ ?_ (fun _ _ _ => ?_))
    | (fail_if_no_progress (with_reducible (refine Keeps.lit ?_ rfl rfl rfl)))
    | (intro x; refine Keeps.cut (r := r) x ?_ (fun _ => ?_) <;> [subst x; clear_value x])
    | (intro (x : _ × State); refine Keeps.cut (r := r) x.2 ?_ (fun _ => ?_) <;> [subst x; clear_value x])
    | (intro x; clear_value x)
    | with_reducible (refine Keeps.ite ?_ ?_)
    | split
    | lift_lets
    | with_reducible (refine Keeps.ofSnd (by assumption) ?_)
    | with_reducible (refine Keeps.ofSnd2 (by assumption) ?_)
    | intro

theorem Keeps.packetDeliver {r s : State} (h : Keeps r s) n :
    Keeps r (State.packetDeliver s n) := by
  unfold State.packetDeliver
  repeat' first
    | with_reducible assumption
    | (fail_if_no_progress (with_reducible (refine Keeps.lit ?_ rfl rfl rfl)))
    | with_reducible (refine Keeps.ite ?_ ?_)
    | split

theorem Keeps.sketchClose {r s : State} (h : Keeps r s) n :
    Keeps r (State.sketchClose s n) := by
  unfold State.sketchClose
  repeat' first
    | with_reducible assumption
    | (fail_if_no_progress (with_reducible (refine Keeps.lit ?_ rfl rfl rfl)))
    | with_reducible (refine Keeps.ite ?_ ?_)
    | split

theorem Keeps.unitSwap {r s : State} (h : Keeps r s) u :
    Keeps r (State.unitSwap s u) := by
  unfold State.unitSwap
  dsimp only
  repeat' first
    | with_reducible assumption
    | with_reducible apply Keeps.bump
    | with_reducible apply Keeps.lookStatus
    | with_reducible apply Keeps.maskSubs
    | with_reducible apply Keeps.raise
    | with_reducible apply Keeps.setUnit
    | with_reducible apply Keeps.when
    | with_reducible apply Keeps.wr
    | with_reducible (refine Keeps.foldl _ ?_ (fun _ _ _ => ?_))
    | with_reducible (refine Keeps.foldlSnd _ ?_ (fun _ _ _ => ?_))
    | with_reducible (refine Keeps.foldlSnd2 _ ?_ (fun _ _ _ => ?_))
    | (fail_if_no_progress (with_reducible (refine Keeps.lit ?_ rfl rfl rfl)))
    | (intro x; refine Keeps.cut (r := r) x ?_ (fun _ => ?_) <;> [subst x; clear_value x])
    | (intro (x : _ × State); refine Keeps.cut (r := r) x.2 ?_ (fun _ => ?_) <;> [subst x; clear_value x])
    | (intro x; clear_value x)
    | with_reducible (refine Keeps.ite ?_ ?_)
    | split
    | lift_lets
    | with_reducible (refine Keeps.ofSnd (by assumption) ?_)
    | with_reducible (refine Keeps.ofSnd2 (by assumption) ?_)
    | intro

theorem Keeps.badMsg {r s : State} (h : Keeps r s) g :
    Keeps r (State.badMsg s g) :=
  Keeps.lit h rfl rfl rfl

theorem Keeps.guestCpl {r s : State} (h : Keeps r s) g tag status :
    Keeps r (State.guestCpl s g tag status) :=
  Keeps.lit h rfl rfl rfl

theorem Keeps.guestDone {r s : State} (h : Keeps r s) g tag status data :
    Keeps r (State.guestDone s g tag status data) := by
  unfold State.guestDone
  repeat' first
    | with_reducible assumption
    | with_reducible apply Keeps.badMsg
    | with_reducible apply Keeps.ioDone
    | with_reducible apply Keeps.setGuest
    | (fail_if_no_progress (with_reducible (refine Keeps.lit ?_ rfl rfl rfl)))
    | (intro x; refine Keeps.cut (r := r) x ?_ (fun _ => ?_) <;> [subst x; clear_value x])
    | (intro (x : _ × State); refine Keeps.cut (r := r) x.2 ?_ (fun _ => ?_) <;> [subst x; clear_value x])
    | (intro x; clear_value x)
    | with_reducible (refine Keeps.ite ?_ ?_)
    | split
    | lift_lets

theorem Keeps.stnDenied {r s : State} (h : Keeps r s) g :
    Keeps r (State.stnDenied s g) := by
  unfold State.stnDenied
  repeat' first
    | with_reducible assumption
    | with_reducible apply Keeps.inc
    | with_reducible apply Keeps.raise
    | (fail_if_no_progress (with_reducible (refine Keeps.lit ?_ rfl rfl rfl)))
    | with_reducible (refine Keeps.ite ?_ ?_)
    | split

theorem Keeps.guestFrag {r s : State} (h : Keeps r s) g evn off last data :
    Keeps r (State.guestFrag s g evn off last data) := by
  unfold State.guestFrag
  repeat' first
    | with_reducible assumption
    | with_reducible apply Keeps.badMsg
    | with_reducible apply Keeps.evbSettle
    | with_reducible apply Keeps.inc
    | with_reducible apply Keeps.raise
    | with_reducible apply Keeps.readyCheck
    | with_reducible apply Keeps.setEvent
    | with_reducible apply Keeps.stnDenied
    | (fail_if_no_progress (with_reducible (refine Keeps.lit ?_ rfl rfl rfl)))
    | with_reducible (refine Keeps.ite ?_ ?_)
    | split

theorem Keeps.guestIssue {r s : State} (h : Keeps r s) g q :
    Keeps r (State.guestIssue s g q) := by
  unfold State.guestIssue
  repeat' first
    | with_reducible assumption
    | with_reducible apply Keeps.countDenial
    | with_reducible apply Keeps.guestCpl
    | with_reducible apply Keeps.send
    | (fail_if_no_progress (with_reducible (refine Keeps.lit ?_ rfl rfl rfl)))
    | with_reducible (refine Keeps.ite ?_ ?_)
    | split

theorem Keeps.stnRefill {r s : State} (h : Keeps r s) g n :
    Keeps r (State.stnRefill s g n) :=
  Keeps.lit h rfl rfl rfl

theorem Keeps.stnSpend {r s : State} (h : Keeps r s) g q :
    Keeps r (State.stnSpend s g q) := by
  unfold State.stnSpend
  repeat' first
    | with_reducible assumption
    | with_reducible apply Keeps.guestIssue
    | with_reducible apply Keeps.setGuest
    | (fail_if_no_progress (with_reducible (refine Keeps.lit ?_ rfl rfl rfl)))
    | with_reducible (refine Keeps.ite ?_ ?_)
    | split

theorem Keeps.guestReq {r s : State} (h : Keeps r s) g q refill :
    Keeps r (State.guestReq s g q refill) := by
  unfold State.guestReq
  repeat' first
    | with_reducible assumption
    | with_reducible apply Keeps.badMsg
    | with_reducible apply Keeps.guestCpl
    | with_reducible apply Keeps.setGuest
    | with_reducible apply Keeps.stnDenied
    | with_reducible apply Keeps.stnRefill
    | with_reducible apply Keeps.stnSpend
    | (fail_if_no_progress (with_reducible (refine Keeps.lit ?_ rfl rfl rfl)))
    | with_reducible (refine Keeps.ite ?_ ?_)
    | split

theorem Keeps.guestTimeout {r s : State} (h : Keeps r s) g tag :
    Keeps r (State.guestTimeout s g tag) := by
  unfold State.guestTimeout
  repeat' first
    | with_reducible assumption
    | with_reducible apply Keeps.inc
    | with_reducible apply Keeps.ioDone
    | with_reducible apply Keeps.raise
    | with_reducible apply Keeps.setGuest
    | (fail_if_no_progress (with_reducible (refine Keeps.lit ?_ rfl rfl rfl)))
    | (intro x; refine Keeps.cut (r := r) x ?_ (fun _ => ?_) <;> [subst x; clear_value x])
    | (intro (x : _ × State); refine Keeps.cut (r := r) x.2 ?_ (fun _ => ?_) <;> [subst x; clear_value x])
    | (intro x; clear_value x)
    | with_reducible (refine Keeps.ite ?_ ?_)
    | split
    | lift_lets

theorem Keeps.guestTrig {r s : State} (h : Keeps r s) g b w :
    Keeps r (State.guestTrig s g b w) := by
  unfold State.guestTrig
  repeat' first
    | with_reducible assumption
    | with_reducible apply Keeps.inc
    | with_reducible apply Keeps.raise
    | with_reducible apply Keeps.setGuest
    | with_reducible apply Keeps.stencilWord
    | (fail_if_no_progress (with_reducible (refine Keeps.lit ?_ rfl rfl rfl)))
    | with_reducible (refine Keeps.ite ?_ ?_)
    | split

theorem Keeps.tokenGrant {r s : State} (h : Keeps r s) g refill cycles :
    Keeps r (State.tokenGrant s g refill cycles) := by
  unfold State.tokenGrant
  repeat' first
    | with_reducible assumption
    | with_reducible apply Keeps.guestCpl
    | with_reducible apply Keeps.inc
    | with_reducible apply Keeps.setGuest
    | with_reducible apply Keeps.stnDenied
    | with_reducible apply Keeps.stnRefill
    | with_reducible apply Keeps.stnSpend
    | (fail_if_no_progress (with_reducible (refine Keeps.lit ?_ rfl rfl rfl)))
    | (intro x; refine Keeps.cut (r := r) x ?_ (fun _ => ?_) <;> [subst x; clear_value x])
    | (intro (x : _ × State); refine Keeps.cut (r := r) x.2 ?_ (fun _ => ?_) <;> [subst x; clear_value x])
    | (intro x; clear_value x)
    | with_reducible (refine Keeps.ite ?_ ?_)
    | split
    | lift_lets

theorem Keeps.winLimit {r s : State} (h : Keeps r s) i v :
    Keeps r (State.winLimit s i v) := by
  unfold State.winLimit
  repeat' first
    | with_reducible assumption
    | with_reducible apply Keeps.wr
    | (fail_if_no_progress (with_reducible (refine Keeps.lit ?_ rfl rfl rfl)))
    | with_reducible (refine Keeps.ite ?_ ?_)
    | split

theorem Keeps.winWrite {r s : State} (h : Keeps r s) g w v :
    Keeps r (State.winWrite s g w v) := by
  unfold State.winWrite
  repeat' first
    | with_reducible assumption
    | with_reducible apply Keeps.raise
    | with_reducible apply Keeps.wr
    | (fail_if_no_progress (with_reducible (refine Keeps.lit ?_ rfl rfl rfl)))
    | with_reducible (refine Keeps.ite ?_ ?_)
    | split

theorem Keeps.grpSettle {r s : State} (h : Keeps r s) sl :
    Keeps r (State.grpSettle s sl) := by
  unfold State.grpSettle
  repeat' first
    | with_reducible assumption
    | with_reducible apply Keeps.wr
    | (fail_if_no_progress (with_reducible (refine Keeps.lit ?_ rfl rfl rfl)))
    | with_reducible (refine Keeps.ite ?_ ?_)
    | split

theorem Keeps.groupFree {r s : State} (h : Keeps r s) g :
    Keeps r (State.groupFree s g) := by
  unfold State.groupFree
  repeat' first
    | with_reducible assumption
    | with_reducible apply Keeps.bump
    | with_reducible apply Keeps.grpSettle
    | with_reducible apply Keeps.wr
    | (fail_if_no_progress (with_reducible (refine Keeps.lit ?_ rfl rfl rfl)))
    | with_reducible (refine Keeps.ite ?_ ?_)
    | split

theorem Keeps.abortDone {r s : State} (h : Keeps r s) g :
    Keeps r (State.abortDone s g) := by
  unfold State.abortDone
  repeat' first
    | with_reducible assumption
    | with_reducible apply Keeps.groupFree
    | (fail_if_no_progress (with_reducible (refine Keeps.lit ?_ rfl rfl rfl)))
    | with_reducible (refine Keeps.ite ?_ ?_)
    | split

theorem Keeps.arbDoor {r s : State} (h : Keeps r s) :
    Keeps r (State.arbDoor s).2 := by
  unfold State.arbDoor
  repeat' first
    | with_reducible assumption
    | with_reducible apply Keeps.wake
    | (fail_if_no_progress (with_reducible (refine Keeps.lit ?_ rfl rfl rfl)))
    | with_reducible (refine Keeps.ite ?_ ?_)
    | split

theorem Keeps.atArbiter {r s : State} (h : Keeps r s) (f : State → State) (hf : ∀ t, Keeps r t → Keeps r (f t)) :
    Keeps r (State.atArbiter s f) := by
  unfold State.atArbiter
  repeat' first
    | with_reducible assumption
    | with_reducible apply Keeps.arbDoor
    | with_reducible apply hf
    | with_reducible (refine Keeps.foldl _ ?_ (fun _ _ _ => ?_))
    | with_reducible (refine Keeps.foldlSnd _ ?_ (fun _ _ _ => ?_))
    | with_reducible (refine Keeps.foldlSnd2 _ ?_ (fun _ _ _ => ?_))
    | (fail_if_no_progress (with_reducible (refine Keeps.lit ?_ rfl rfl rfl)))
    | (intro x; refine Keeps.cut (r := r) x ?_ (fun _ => ?_) <;> [subst x; clear_value x])
    | (intro (x : _ × State); refine Keeps.cut (r := r) x.2 ?_ (fun _ => ?_) <;> [subst x; clear_value x])
    | (intro x; clear_value x)
    | with_reducible (refine Keeps.ite ?_ ?_)
    | split
    | lift_lets
    | with_reducible (refine Keeps.ofSnd (by assumption) ?_)
    | with_reducible (refine Keeps.ofSnd2 (by assumption) ?_)
    | intro

theorem Keeps.releaseDb {r s : State} (h : Keeps r s) d :
    Keeps r (State.releaseDb s d) := by
  unfold State.releaseDb
  repeat' first
    | with_reducible assumption
    | with_reducible apply Keeps.doorbell
    | with_reducible apply Keeps.inc
    | with_reducible apply Keeps.queueDb
    | (fail_if_no_progress (with_reducible (refine Keeps.lit ?_ rfl rfl rfl)))
    | with_reducible (refine Keeps.ite ?_ ?_)
    | split

theorem Keeps.releaseDbs {r s : State} (h : Keeps r s) l :
    Keeps r (State.releaseDbs s l) := by
  unfold State.releaseDbs
  repeat' first
    | with_reducible assumption
    | with_reducible apply Keeps.releaseDb
    | with_reducible (refine Keeps.foldl _ ?_ (fun _ _ _ => ?_))
    | with_reducible (refine Keeps.foldlSnd _ ?_ (fun _ _ _ => ?_))
    | with_reducible (refine Keeps.foldlSnd2 _ ?_ (fun _ _ _ => ?_))
    | (fail_if_no_progress (with_reducible (refine Keeps.lit ?_ rfl rfl rfl)))
    | (intro x; refine Keeps.cut (r := r) x ?_ (fun _ => ?_) <;> [subst x; clear_value x])
    | (intro (x : _ × State); refine Keeps.cut (r := r) x.2 ?_ (fun _ => ?_) <;> [subst x; clear_value x])
    | (intro x; clear_value x)
    | with_reducible (refine Keeps.ite ?_ ?_)
    | split
    | lift_lets
    | with_reducible (refine Keeps.ofSnd (by assumption) ?_)
    | with_reducible (refine Keeps.ofSnd2 (by assumption) ?_)
    | intro

theorem Keeps.commitAck {r s : State} (h : Keeps r s) g k :
    Keeps r (State.commitAck s g k) := by
  unfold State.commitAck
  repeat' first
    | with_reducible assumption
    | with_reducible apply Keeps.groupFree
    | with_reducible apply Keeps.inc
    | with_reducible apply Keeps.releaseDbs
    | with_reducible apply Keeps.wr
    | (fail_if_no_progress (with_reducible (refine Keeps.lit ?_ rfl rfl rfl)))
    | with_reducible (refine Keeps.ite ?_ ?_)
    | split

theorem Keeps.prfRd {r s : State} (h : Keeps r s) k pc rd v :
    Keeps r (State.prfRd s k pc rd v) := by
  unfold State.prfRd
  repeat' first
    | with_reducible assumption
    | with_reducible apply Keeps.retire
    | with_reducible apply Keeps.setHart
    | (fail_if_no_progress (with_reducible (refine Keeps.lit ?_ rfl rfl rfl)))
    | with_reducible (refine Keeps.ite ?_ ?_)
    | split

theorem Keeps.commitSingle {r s : State} (h : Keeps r s) k pc rd p :
    Keeps r (State.commitSingle s k pc rd p) := by
  unfold State.commitSingle
  repeat' first
    | with_reducible assumption
    | with_reducible apply Keeps.clearProof
    | with_reducible apply Keeps.inc
    | with_reducible apply Keeps.perf
    | with_reducible apply Keeps.prfRd
    | with_reducible apply Keeps.releaseDbs
    | (fail_if_no_progress (with_reducible (refine Keeps.lit ?_ rfl rfl rfl)))
    | with_reducible (refine Keeps.ite ?_ ?_)
    | split

theorem Keeps.freshStamp {r s : State} (h : Keeps r s) :
    Keeps r (State.freshStamp s).2 :=
  Keeps.lit h rfl rfl rfl

theorem Keeps.groupCommit {r s : State} (h : Keeps r s) g k :
    Keeps r (State.groupCommit s g k) := by
  unfold State.groupCommit
  repeat' first
    | with_reducible assumption
    | with_reducible apply Keeps.clearProof
    | with_reducible apply Keeps.perf
    | with_reducible apply Keeps.retire
    | (fail_if_no_progress (with_reducible (refine Keeps.lit ?_ rfl rfl rfl)))
    | with_reducible (refine Keeps.ite ?_ ?_)
    | split

theorem Keeps.groupOpen {r s : State} (h : Keeps r s) g k expect ts :
    Keeps r (State.groupOpen s g k expect ts) := by
  unfold State.groupOpen
  repeat' first
    | with_reducible assumption
    | with_reducible apply Keeps.bump
    | with_reducible apply Keeps.wr
    | (fail_if_no_progress (with_reducible (refine Keeps.lit ?_ rfl rfl rfl)))
    | with_reducible (refine Keeps.ite ?_ ?_)
    | split

theorem Keeps.groupTimeout {r s : State} (h : Keeps r s) g :
    Keeps r (State.groupTimeout s g) := by
  unfold State.groupTimeout
  repeat' first
    | with_reducible assumption
    | with_reducible apply Keeps.groupAbort
    | with_reducible apply Keeps.inc
    | with_reducible apply Keeps.raise
    | (fail_if_no_progress (with_reducible (refine Keeps.lit ?_ rfl rfl rfl)))
    | with_reducible (refine Keeps.ite ?_ ?_)
    | split

theorem Keeps.grpLimit {r s : State} (h : Keeps r s) sl v :
    Keeps r (State.grpLimit s sl v) := by
  unfold State.grpLimit
  repeat' first
    | with_reducible assumption
    | with_reducible apply Keeps.grpSettle
    | with_reducible apply Keeps.raise
    | with_reducible apply Keeps.wr
    | (fail_if_no_progress (with_reducible (refine Keeps.lit ?_ rfl rfl rfl)))
    | with_reducible (refine Keeps.ite ?_ ?_)
    | split

theorem Keeps.holdTimeout {r s : State} (h : Keeps r s) c line :
    Keeps r (State.holdTimeout s c line) := by
  unfold State.holdTimeout
  repeat' first
    | with_reducible assumption
    | with_reducible apply Keeps.proofAbort
    | with_reducible (refine Keeps.foldl _ ?_ (fun _ _ _ => ?_))
    | with_reducible (refine Keeps.foldlSnd _ ?_ (fun _ _ _ => ?_))
    | with_reducible (refine Keeps.foldlSnd2 _ ?_ (fun _ _ _ => ?_))
    | (fail_if_no_progress (with_reducible (refine Keeps.lit ?_ rfl rfl rfl)))
    | (intro x; refine Keeps.cut (r := r) x ?_ (fun _ => ?_) <;> [subst x; clear_value x])
    | (intro (x : _ × State); refine Keeps.cut (r := r) x.2 ?_ (fun _ => ?_) <;> [subst x; clear_value x])
    | (intro x; clear_value x)
    | with_reducible (refine Keeps.ite ?_ ?_)
    | split
    | lift_lets
    | with_reducible (refine Keeps.ofSnd (by assumption) ?_)
    | with_reducible (refine Keeps.ofSnd2 (by assumption) ?_)
    | intro

theorem Keeps.joinCount {r s : State} (h : Keeps r s) code :
    Keeps r (State.joinCount s code) := by
  unfold State.joinCount
  repeat' first
    | with_reducible assumption
    | with_reducible apply Keeps.inc
    | with_reducible apply Keeps.raise
    | (fail_if_no_progress (with_reducible (refine Keeps.lit ?_ rfl rfl rfl)))
    | with_reducible (refine Keeps.ite ?_ ?_)
    | split

theorem Keeps.openProof {r s : State} (h : Keeps r s) k pc rd ts decider group :
    Keeps r (State.openProof s k pc rd ts decider group) := by
  unfold State.openProof
  repeat' first
    | with_reducible assumption
    | with_reducible apply Keeps.perf
    | with_reducible apply Keeps.proofAbort
    | with_reducible apply Keeps.retire
    | with_reducible apply Keeps.setHart
    | with_reducible apply Keeps.wr
    | (fail_if_no_progress (with_reducible (refine Keeps.lit ?_ rfl rfl rfl)))
    | with_reducible (refine Keeps.ite ?_ ?_)
    | split

theorem Keeps.joinGroup {r s : State} (h : Keeps r s) k pc rd g :
    Keeps r (State.joinGroup s k pc rd g) := by
  unfold State.joinGroup
  repeat' first
    | with_reducible assumption
    | with_reducible apply Keeps.inc
    | with_reducible apply Keeps.openProof
    | (fail_if_no_progress (with_reducible (refine Keeps.lit ?_ rfl rfl rfl)))
    | with_reducible (refine Keeps.ite ?_ ?_)
    | split

theorem Keeps.partAbort {r s : State} (h : Keeps r s) g k :
    Keeps r (State.partAbort s g k) := by
  unfold State.partAbort
  repeat' first
    | with_reducible assumption
    | with_reducible apply Keeps.groupAbort
    | (fail_if_no_progress (with_reducible (refine Keeps.lit ?_ rfl rfl rfl)))
    | with_reducible (refine Keeps.ite ?_ ?_)
    | split

theorem Keeps.prfAbort {r s : State} (h : Keeps r s) k pc imm :
    Keeps r (State.prfAbort s k pc imm) := by
  unfold State.prfAbort
  repeat' first
    | with_reducible assumption
    | with_reducible apply Keeps.illegal
    | with_reducible apply Keeps.proofAbort
    | with_reducible apply Keeps.retire
    | (fail_if_no_progress (with_reducible (refine Keeps.lit ?_ rfl rfl rfl)))
    | with_reducible (refine Keeps.ite ?_ ?_)
    | split

theorem Keeps.stamp {r s : State} (h : Keeps r s) k :
    Keeps r (State.stamp s k).2 := by
  unfold State.stamp
  repeat' first
    | with_reducible assumption
    | with_reducible apply Keeps.freshStamp
    | (fail_if_no_progress (with_reducible (refine Keeps.lit ?_ rfl rfl rfl)))
    | (intro x; refine Keeps.cut (r := r) x ?_ (fun _ => ?_) <;> [subst x; clear_value x])
    | (intro (x : _ × State); refine Keeps.cut (r := r) x.2 ?_ (fun _ => ?_) <;> [subst x; clear_value x])
    | (intro x; clear_value x)
    | with_reducible (refine Keeps.ite ?_ ?_)
    | split
    | lift_lets

theorem Keeps.prfBegin {r s : State} (h : Keeps r s) k pc rd :
    Keeps r (State.prfBegin s k pc rd) := by
  unfold State.prfBegin
  repeat' first
    | with_reducible assumption
    | with_reducible apply Keeps.drainAll
    | with_reducible apply Keeps.onProof
    | with_reducible apply Keeps.openProof
    | with_reducible apply Keeps.prfRd
    | with_reducible apply Keeps.proofAbort
    | with_reducible apply Keeps.stamp
    | (fail_if_no_progress (with_reducible (refine Keeps.lit ?_ rfl rfl rfl)))
    | with_reducible (refine Keeps.ite ?_ ?_)
    | split

theorem Keeps.prfGroup {r s : State} (h : Keeps r s) k pc rd rs1 :
    Keeps r (State.prfGroup s k pc rd rs1) := by
  unfold State.prfGroup
  repeat' first
    | with_reducible assumption
    | with_reducible apply Keeps.arbDoor
    | with_reducible apply Keeps.groupOpen
    | with_reducible apply Keeps.inc
    | with_reducible apply Keeps.prfRd
    | with_reducible apply Keeps.stamp
    | with_reducible (refine Keeps.foldl _ ?_ (fun _ _ _ => ?_))
    | with_reducible (refine Keeps.foldlSnd _ ?_ (fun _ _ _ => ?_))
    | with_reducible (refine Keeps.foldlSnd2 _ ?_ (fun _ _ _ => ?_))
    | (fail_if_no_progress (with_reducible (refine Keeps.lit ?_ rfl rfl rfl)))
    | (intro x; refine Keeps.cut (r := r) x ?_ (fun _ => ?_) <;> [subst x; clear_value x])
    | (intro (x : _ × State); refine Keeps.cut (r := r) x.2 ?_ (fun _ => ?_) <;> [subst x; clear_value x])
    | (intro x; clear_value x)
    | with_reducible (refine Keeps.ite ?_ ?_)
    | split
    | lift_lets
    | with_reducible (refine Keeps.ofSnd (by assumption) ?_)
    | with_reducible (refine Keeps.ofSnd2 (by assumption) ?_)
    | intro

theorem Keeps.prfJoin {r s : State} (h : Keeps r s) k pc rd rs1 :
    Keeps r (State.prfJoin s k pc rd rs1) := by
  unfold State.prfJoin
  repeat' first
    | with_reducible assumption
    | with_reducible apply Keeps.arbDoor
    | with_reducible apply Keeps.drainAll
    | with_reducible apply Keeps.joinCount
    | with_reducible apply Keeps.joinGroup
    | with_reducible apply Keeps.prfRd
    | with_reducible (refine Keeps.foldl _ ?_ (fun _ _ _ => ?_))
    | with_reducible (refine Keeps.foldlSnd _ ?_ (fun _ _ _ => ?_))
    | with_reducible (refine Keeps.foldlSnd2 _ ?_ (fun _ _ _ => ?_))
    | (fail_if_no_progress (with_reducible (refine Keeps.lit ?_ rfl rfl rfl)))
    | (intro x; refine Keeps.cut (r := r) x ?_ (fun _ => ?_) <;> [subst x; clear_value x])
    | (intro (x : _ × State); refine Keeps.cut (r := r) x.2 ?_ (fun _ => ?_) <;> [subst x; clear_value x])
    | (intro x; clear_value x)
    | with_reducible (refine Keeps.ite ?_ ?_)
    | split
    | lift_lets
    | with_reducible (refine Keeps.ofSnd (by assumption) ?_)
    | with_reducible (refine Keeps.ofSnd2 (by assumption) ?_)
    | intro

theorem Keeps.sealDrained {r s : State} (h : Keeps r s) k pc rd :
    Keeps r (State.sealDrained s k pc rd) := by
  unfold State.sealDrained
  repeat' first
    | with_reducible assumption
    | with_reducible apply Keeps.commitSingle
    | with_reducible apply Keeps.onProof
    | with_reducible apply Keeps.setHart
    | (fail_if_no_progress (with_reducible (refine Keeps.lit ?_ rfl rfl rfl)))
    | with_reducible (refine Keeps.ite ?_ ?_)
    | split

theorem Keeps.prfSeal {r s : State} (h : Keeps r s) k pc rd :
    Keeps r (State.prfSeal s k pc rd) := by
  unfold State.prfSeal
  repeat' first
    | with_reducible assumption
    | with_reducible apply Keeps.drainAll
    | with_reducible apply Keeps.onProof
    | with_reducible apply Keeps.prfRd
    | with_reducible apply Keeps.sealDrained
    | (fail_if_no_progress (with_reducible (refine Keeps.lit ?_ rfl rfl rfl)))
    | with_reducible (refine Keeps.ite ?_ ?_)
    | split

theorem Keeps.sealArrive {r s : State} (h : Keeps r s) g k :
    Keeps r (State.sealArrive s g k) := by
  unfold State.sealArrive
  repeat' first
    | with_reducible assumption
    | with_reducible apply Keeps.inc
    | with_reducible apply Keeps.onProof
    | with_reducible apply Keeps.wr
    | with_reducible (refine Keeps.foldl _ ?_ (fun _ _ _ => ?_))
    | with_reducible (refine Keeps.foldlSnd _ ?_ (fun _ _ _ => ?_))
    | with_reducible (refine Keeps.foldlSnd2 _ ?_ (fun _ _ _ => ?_))
    | (fail_if_no_progress (with_reducible (refine Keeps.lit ?_ rfl rfl rfl)))
    | (intro x; refine Keeps.cut (r := r) x ?_ (fun _ => ?_) <;> [subst x; clear_value x])
    | (intro (x : _ × State); refine Keeps.cut (r := r) x.2 ?_ (fun _ => ?_) <;> [subst x; clear_value x])
    | (intro x; clear_value x)
    | with_reducible (refine Keeps.ite ?_ ?_)
    | split
    | lift_lets
    | with_reducible (refine Keeps.ofSnd (by assumption) ?_)
    | with_reducible (refine Keeps.ofSnd2 (by assumption) ?_)
    | intro

theorem Keeps.blockCount {r s : State} (h : Keeps r s) j bytes clips :
    Keeps r (State.blockCount s j bytes clips) := by
  unfold State.blockCount
  repeat' first
    | with_reducible assumption
    | with_reducible apply Keeps.inc
    | (fail_if_no_progress (with_reducible (refine Keeps.lit ?_ rfl rfl rfl)))
    | with_reducible (refine Keeps.ite ?_ ?_)
    | split

theorem Keeps.engState {r s : State} (h : Keeps r s) j st :
    Keeps r (State.engState s j st) :=
  Keeps.lit h rfl rfl rfl

theorem Keeps.setEthQueue {r s : State} (h : Keeps r s) qi l :
    Keeps r (State.setEthQueue s qi l) :=
  Keeps.lit h rfl rfl rfl

theorem Keeps.ethPush {r s : State} (h : Keeps r s) qi slice ring kind payload :
    Keeps r (State.ethPush s qi slice ring kind payload) :=
  Keeps.lit h rfl rfl rfl

theorem Keeps.jobFinish {r s : State} (h : Keeps r s) j st :
    Keeps r (State.jobFinish s j st) := by
  unfold State.jobFinish
  repeat' first
    | with_reducible assumption
    | with_reducible apply Keeps.finish
    | with_reducible apply Keeps.inc
    | (fail_if_no_progress (with_reducible (refine Keeps.lit ?_ rfl rfl rfl)))
    | with_reducible (refine Keeps.ite ?_ ?_)
    | split

theorem Keeps.jobEnd {r s : State} (h : Keeps r s) j st :
    Keeps r (State.jobEnd s j st) := by
  unfold State.jobEnd
  repeat' first
    | with_reducible assumption
    | with_reducible apply Keeps.engineFree
    | with_reducible apply Keeps.jobFinish
    | with_reducible apply Keeps.raise
    | (fail_if_no_progress (with_reducible (refine Keeps.lit ?_ rfl rfl rfl)))
    | with_reducible (refine Keeps.ite ?_ ?_)
    | split

theorem Keeps.jobCut {r s : State} (h : Keeps r s) j st sayEnd :
    Keeps r (State.jobCut s j st sayEnd) := by
  unfold State.jobCut
  repeat' first
    | with_reducible assumption
    | with_reducible apply Keeps.ethPush
    | with_reducible apply Keeps.jobEnd
    | with_reducible apply Keeps.setEthQueue
    | (fail_if_no_progress (with_reducible (refine Keeps.lit ?_ rfl rfl rfl)))
    | with_reducible (refine Keeps.ite ?_ ?_)
    | split

theorem Keeps.setJob {r s : State} (h : Keeps r s) j :
    Keeps r (State.setJob s j) :=
  Keeps.lit h rfl rfl rfl

theorem Keeps.pushGroup {r s : State} (h : Keeps r s) j :
    Keeps r (State.pushGroup s j) := by
  unfold State.pushGroup
  repeat' first
    | with_reducible assumption
    | with_reducible apply Keeps.ethPush
    | with_reducible apply Keeps.setJob
    | with_reducible (refine Keeps.foldl _ ?_ (fun _ _ _ => ?_))
    | with_reducible (refine Keeps.foldlSnd _ ?_ (fun _ _ _ => ?_))
    | with_reducible (refine Keeps.foldlSnd2 _ ?_ (fun _ _ _ => ?_))
    | (fail_if_no_progress (with_reducible (refine Keeps.lit ?_ rfl rfl rfl)))
    | (intro x; refine Keeps.cut (r := r) x ?_ (fun _ => ?_) <;> [subst x; clear_value x])
    | (intro (x : _ × State); refine Keeps.cut (r := r) x.2 ?_ (fun _ => ?_) <;> [subst x; clear_value x])
    | (intro x; clear_value x)
    | with_reducible (refine Keeps.ite ?_ ?_)
    | split
    | lift_lets
    | with_reducible (refine Keeps.ofSnd (by assumption) ?_)
    | with_reducible (refine Keeps.ofSnd2 (by assumption) ?_)
    | intro

theorem Keeps.blockToEth {r s : State} (h : Keeps r s) j b bytes :
    Keeps r (State.blockToEth s j b bytes) := by
  unfold State.blockToEth
  repeat' first
    | with_reducible assumption
    | with_reducible apply Keeps.blockCount
    | with_reducible apply Keeps.engState
    | with_reducible apply Keeps.inc
    | with_reducible apply Keeps.jobCut
    | with_reducible apply Keeps.pushGroup
    | with_reducible apply Keeps.setJob
    | (fail_if_no_progress (with_reducible (refine Keeps.lit ?_ rfl rfl rfl)))
    | with_reducible (refine Keeps.ite ?_ ?_)
    | split

theorem Keeps.putRec {r s : State} (h : Keeps r s) j r' :
    Keeps r (State.putRec s j r').2 := by
  unfold State.putRec
  repeat' first
    | with_reducible assumption
    | with_reducible apply Keeps.cmdWrite
    | with_reducible (refine Keeps.foldl _ ?_ (fun _ _ _ => ?_))
    | with_reducible (refine Keeps.foldlSnd _ ?_ (fun _ _ _ => ?_))
    | with_reducible (refine Keeps.foldlSnd2 _ ?_ (fun _ _ _ => ?_))
    | (fail_if_no_progress (with_reducible (refine Keeps.lit ?_ rfl rfl rfl)))
    | (intro x; refine Keeps.cut (r := r) x ?_ (fun _ => ?_) <;> [subst x; clear_value x])
    | (intro (x : _ × State); refine Keeps.cut (r := r) x.2 ?_ (fun _ => ?_) <;> [subst x; clear_value x])
    | (intro x; clear_value x)
    | with_reducible (refine Keeps.ite ?_ ?_)
    | split
    | lift_lets
    | with_reducible (refine Keeps.ofSnd (by assumption) ?_)
    | with_reducible (refine Keeps.ofSnd2 (by assumption) ?_)
    | intro

theorem Keeps.putRecs {r s : State} (h : Keeps r s) j l : Keeps r (State.putRecs s j l).2 := by
  induction l generalizing s j <;> unfold State.putRecs
  repeat' first
    | with_reducible assumption
    | with_reducible apply Keeps.putRec
    | with_reducible apply_assumption
    | with_reducible (refine Keeps.foldl _ ?_ (fun _ _ _ => ?_))
    | with_reducible (refine Keeps.foldlSnd _ ?_ (fun _ _ _ => ?_))
    | with_reducible (refine Keeps.foldlSnd2 _ ?_ (fun _ _ _ => ?_))
    | (fail_if_no_progress (with_reducible (refine Keeps.lit ?_ rfl rfl rfl)))
    | (intro x; refine Keeps.cut (r := r) x ?_ (fun _ => ?_) <;> [subst x; clear_value x])
    | (intro (x : _ × State); refine Keeps.cut (r := r) x.2 ?_ (fun _ => ?_) <;> [subst x; clear_value x])
    | (intro (x : _ → State); subst x; beta_reduce)
    | (intro (x : _ → _ → State); subst x; beta_reduce)
    | (intro (x : _ → _ × State); subst x; beta_reduce)
    | (intro (x : _ → _ → _ × State); subst x; beta_reduce)
    | (intro (x : MemState); subst x)
    | (intro x; clear_value x)
    | with_reducible (refine Keeps.ite ?_ ?_)
    | split
    | lift_lets
    | with_reducible (refine Keeps.ofSnd (by assumption) ?_)
    | with_reducible (refine Keeps.ofSnd2 (by assumption) ?_)
    | intro

theorem Keeps.putSlot {r s : State} (h : Keeps r s) j b :
    Keeps r (State.putSlot s j b).2 := by
  unfold State.putSlot
  repeat' first
    | with_reducible assumption
    | with_reducible apply Keeps.cmdWrite
    | with_reducible (refine Keeps.foldl _ ?_ (fun _ _ _ => ?_))
    | with_reducible (refine Keeps.foldlSnd _ ?_ (fun _ _ _ => ?_))
    | with_reducible (refine Keeps.foldlSnd2 _ ?_ (fun _ _ _ => ?_))
    | (fail_if_no_progress (with_reducible (refine Keeps.lit ?_ rfl rfl rfl)))
    | (intro x; refine Keeps.cut (r := r) x ?_ (fun _ => ?_) <;> [subst x; clear_value x])
    | (intro (x : _ × State); refine Keeps.cut (r := r) x.2 ?_ (fun _ => ?_) <;> [subst x; clear_value x])
    | (intro x; clear_value x)
    | with_reducible (refine Keeps.ite ?_ ?_)
    | split
    | lift_lets
    | with_reducible (refine Keeps.ofSnd (by assumption) ?_)
    | with_reducible (refine Keeps.ofSnd2 (by assumption) ?_)
    | intro

theorem Keeps.blockToMem {r s : State} (h : Keeps r s) j b bytes :
    Keeps r (State.blockToMem s j b bytes) := by
  unfold State.blockToMem
  repeat' first
    | with_reducible assumption
    | with_reducible apply Keeps.blockCount
    | with_reducible apply Keeps.inc
    | with_reducible apply Keeps.jobEnd
    | with_reducible apply Keeps.putRecs
    | with_reducible apply Keeps.putSlot
    | with_reducible apply Keeps.setJob
    | with_reducible (refine Keeps.foldl _ ?_ (fun _ _ _ => ?_))
    | with_reducible (refine Keeps.foldlSnd _ ?_ (fun _ _ _ => ?_))
    | with_reducible (refine Keeps.foldlSnd2 _ ?_ (fun _ _ _ => ?_))
    | (fail_if_no_progress (with_reducible (refine Keeps.lit ?_ rfl rfl rfl)))
    | (intro x; refine Keeps.cut (r := r) x ?_ (fun _ => ?_) <;> [subst x; clear_value x])
    | (intro (x : _ × State); refine Keeps.cut (r := r) x.2 ?_ (fun _ => ?_) <;> [subst x; clear_value x])
    | (intro x; clear_value x)
    | with_reducible (refine Keeps.ite ?_ ?_)
    | split
    | lift_lets
    | with_reducible (refine Keeps.ofSnd (by assumption) ?_)
    | with_reducible (refine Keeps.ofSnd2 (by assumption) ?_)
    | intro

theorem Keeps.cutQueues {r s : State} (h : Keeps r s) p st sayEnd :
    Keeps r (State.cutQueues s p st sayEnd) := by
  unfold State.cutQueues
  repeat' first
    | with_reducible assumption
    | with_reducible apply Keeps.finish
    | with_reducible apply Keeps.jobCut
    | with_reducible (refine Keeps.foldl _ ?_ (fun _ _ _ => ?_))
    | with_reducible (refine Keeps.foldlSnd _ ?_ (fun _ _ _ => ?_))
    | with_reducible (refine Keeps.foldlSnd2 _ ?_ (fun _ _ _ => ?_))
    | (fail_if_no_progress (with_reducible (refine Keeps.lit ?_ rfl rfl rfl)))
    | (intro x; refine Keeps.cut (r := r) x ?_ (fun _ => ?_) <;> [subst x; clear_value x])
    | (intro (x : _ × State); refine Keeps.cut (r := r) x.2 ?_ (fun _ => ?_) <;> [subst x; clear_value x])
    | (intro x; clear_value x)
    | with_reducible (refine Keeps.ite ?_ ?_)
    | split
    | lift_lets
    | with_reducible (refine Keeps.ofSnd (by assumption) ?_)
    | with_reducible (refine Keeps.ofSnd2 (by assumption) ?_)
    | intro

theorem Keeps.linkLost {r s : State} (h : Keeps r s) p sub :
    Keeps r (State.linkLost s p sub) := by
  unfold State.linkLost
  repeat' first
    | with_reducible assumption
    | with_reducible apply Keeps.cutQueues
    | with_reducible apply Keeps.inc
    | (fail_if_no_progress (with_reducible (refine Keeps.lit ?_ rfl rfl rfl)))
    | with_reducible (refine Keeps.ite ?_ ?_)
    | split

theorem Keeps.linkChange {r s : State} (h : Keeps r s) p sub up :
    Keeps r (State.linkChange s p sub up) := by
  unfold State.linkChange
  repeat' first
    | with_reducible assumption
    | with_reducible apply Keeps.linkLost
    | with_reducible apply Keeps.putBit
    | with_reducible apply Keeps.raise
    | (fail_if_no_progress (with_reducible (refine Keeps.lit ?_ rfl rfl rfl)))
    | with_reducible (refine Keeps.ite ?_ ?_)
    | split

theorem Keeps.ethPortCfg {r s : State} (h : Keeps r s) p v :
    Keeps r (State.ethPortCfg s p v) := by
  unfold State.ethPortCfg
  repeat' first
    | with_reducible assumption
    | with_reducible apply Keeps.linkChange
    | with_reducible apply Keeps.wr
    | with_reducible (refine Keeps.foldl _ ?_ (fun _ _ _ => ?_))
    | with_reducible (refine Keeps.foldlSnd _ ?_ (fun _ _ _ => ?_))
    | with_reducible (refine Keeps.foldlSnd2 _ ?_ (fun _ _ _ => ?_))
    | (fail_if_no_progress (with_reducible (refine Keeps.lit ?_ rfl rfl rfl)))
    | (intro x; refine Keeps.cut (r := r) x ?_ (fun _ => ?_) <;> [subst x; clear_value x])
    | (intro (x : _ × State); refine Keeps.cut (r := r) x.2 ?_ (fun _ => ?_) <;> [subst x; clear_value x])
    | (intro x; clear_value x)
    | with_reducible (refine Keeps.ite ?_ ?_)
    | split
    | lift_lets
    | with_reducible (refine Keeps.ofSnd (by assumption) ?_)
    | with_reducible (refine Keeps.ofSnd2 (by assumption) ?_)
    | intro

theorem Keeps.ethQCfg {r s : State} (h : Keeps r s) qi v :
    Keeps r (State.ethQCfg s qi v) := by
  unfold State.ethQCfg
  repeat' first
    | with_reducible assumption
    | with_reducible apply Keeps.bump
    | with_reducible apply Keeps.cutQueues
    | with_reducible apply Keeps.wr
    | (fail_if_no_progress (with_reducible (refine Keeps.lit ?_ rfl rfl rfl)))
    | with_reducible (refine Keeps.ite ?_ ?_)
    | split

theorem Keeps.ethSend {r s : State} (h : Keeps r s) r' :
    Keeps r (State.ethSend s r') := by
  unfold State.ethSend
  repeat' first
    | with_reducible assumption
    | with_reducible apply Keeps.cmdRead
    | with_reducible apply Keeps.ethPush
    | with_reducible apply Keeps.finish
    | with_reducible apply Keeps.inc
    | with_reducible apply Keeps.spoof
    | with_reducible apply Keeps.start
    | with_reducible (refine Keeps.foldl _ ?_ (fun _ _ _ => ?_))
    | with_reducible (refine Keeps.foldlSnd _ ?_ (fun _ _ _ => ?_))
    | with_reducible (refine Keeps.foldlSnd2 _ ?_ (fun _ _ _ => ?_))
    | (fail_if_no_progress (with_reducible (refine Keeps.lit ?_ rfl rfl rfl)))
    | (intro x; refine Keeps.cut (r := r) x ?_ (fun _ => ?_) <;> [subst x; clear_value x])
    | (intro (x : _ × State); refine Keeps.cut (r := r) x.2 ?_ (fun _ => ?_) <;> [subst x; clear_value x])
    | (intro x; clear_value x)
    | with_reducible (refine Keeps.ite ?_ ?_)
    | split
    | lift_lets
    | with_reducible (refine Keeps.ofSnd (by assumption) ?_)
    | with_reducible (refine Keeps.ofSnd2 (by assumption) ?_)
    | intro

theorem Keeps.pushEnd {r s : State} (h : Keeps r s) j st :
    Keeps r (State.pushEnd s j st) := by
  unfold State.pushEnd
  repeat' first
    | with_reducible assumption
    | with_reducible apply Keeps.ethPush
    | with_reducible apply Keeps.setJob
    | (fail_if_no_progress (with_reducible (refine Keeps.lit ?_ rfl rfl rfl)))
    | with_reducible (refine Keeps.ite ?_ ?_)
    | split

theorem Keeps.groupSent {r s : State} (h : Keeps r s) j :
    Keeps r (State.groupSent s j) := by
  unfold State.groupSent
  repeat' first
    | with_reducible assumption
    | with_reducible apply Keeps.engState
    | with_reducible apply Keeps.inc
    | with_reducible apply Keeps.pushEnd
    | with_reducible apply Keeps.setJob
    | (fail_if_no_progress (with_reducible (refine Keeps.lit ?_ rfl rfl rfl)))
    | (intro x; refine Keeps.cut (r := r) x ?_ (fun _ => ?_) <;> [subst x; clear_value x])
    | (intro (x : _ × State); refine Keeps.cut (r := r) x.2 ?_ (fun _ => ?_) <;> [subst x; clear_value x])
    | (intro x; clear_value x)
    | with_reducible (refine Keeps.ite ?_ ?_)
    | split
    | lift_lets

theorem Keeps.frameSent {r s : State} (h : Keeps r s) sub qi f :
    Keeps r (State.frameSent s sub qi f) := by
  unfold State.frameSent
  repeat' first
    | with_reducible assumption
    | with_reducible apply Keeps.finish
    | with_reducible apply Keeps.groupSent
    | with_reducible apply Keeps.inc
    | with_reducible apply Keeps.jobEnd
    | (fail_if_no_progress (with_reducible (refine Keeps.lit ?_ rfl rfl rfl)))
    | (intro x; refine Keeps.cut (r := r) x ?_ (fun _ => ?_) <;> [subst x; clear_value x])
    | (intro (x : _ × State); refine Keeps.cut (r := r) x.2 ?_ (fun _ => ?_) <;> [subst x; clear_value x])
    | (intro x; clear_value x)
    | with_reducible (refine Keeps.ite ?_ ?_)
    | split
    | lift_lets

theorem Keeps.frameSpoof {r s : State} (h : Keeps r s) qi f :
    Keeps r (State.frameSpoof s qi f) := by
  unfold State.frameSpoof
  repeat' first
    | with_reducible assumption
    | with_reducible apply Keeps.finish
    | with_reducible apply Keeps.inc
    | with_reducible apply Keeps.jobCut
    | with_reducible apply Keeps.raise
    | with_reducible apply Keeps.spoof
    | (fail_if_no_progress (with_reducible (refine Keeps.lit ?_ rfl rfl rfl)))
    | (intro x; refine Keeps.cut (r := r) x ?_ (fun _ => ?_) <;> [subst x; clear_value x])
    | (intro (x : _ × State); refine Keeps.cut (r := r) x.2 ?_ (fun _ => ?_) <;> [subst x; clear_value x])
    | (intro x; clear_value x)
    | with_reducible (refine Keeps.ite ?_ ?_)
    | split
    | lift_lets

theorem Keeps.ethSendOne {r s : State} (h : Keeps r s) p sub :
    Keeps r (State.ethSendOne s p sub) := by
  unfold State.ethSendOne
  repeat' first
    | with_reducible assumption
    | with_reducible apply Keeps.frameSent
    | with_reducible apply Keeps.frameSpoof
    | with_reducible apply Keeps.setEthQueue
    | (fail_if_no_progress (with_reducible (refine Keeps.lit ?_ rfl rfl rfl)))
    | (intro x; refine Keeps.cut (r := r) x ?_ (fun _ => ?_) <;> [subst x; clear_value x])
    | (intro (x : _ × State); refine Keeps.cut (r := r) x.2 ?_ (fun _ => ?_) <;> [subst x; clear_value x])
    | (intro x; clear_value x)
    | with_reducible (refine Keeps.ite ?_ ?_)
    | split
    | lift_lets

theorem Keeps.flowSet {r s : State} (h : Keeps r s) r' :
    Keeps r (State.flowSet s r') := by
  unfold State.flowSet
  repeat' first
    | with_reducible assumption
    | with_reducible apply Keeps.cmdRead
    | with_reducible apply Keeps.finish
    | with_reducible apply Keeps.spoof
    | with_reducible apply Keeps.wr
    | with_reducible (refine Keeps.foldl _ ?_ (fun _ _ _ => ?_))
    | with_reducible (refine Keeps.foldlSnd _ ?_ (fun _ _ _ => ?_))
    | with_reducible (refine Keeps.foldlSnd2 _ ?_ (fun _ _ _ => ?_))
    | (fail_if_no_progress (with_reducible (refine Keeps.lit ?_ rfl rfl rfl)))
    | (intro x; refine Keeps.cut (r := r) x ?_ (fun _ => ?_) <;> [subst x; clear_value x])
    | (intro (x : _ × State); refine Keeps.cut (r := r) x.2 ?_ (fun _ => ?_) <;> [subst x; clear_value x])
    | (intro x; clear_value x)
    | with_reducible (refine Keeps.ite ?_ ?_)
    | split
    | lift_lets
    | with_reducible (refine Keeps.ofSnd (by assumption) ?_)
    | with_reducible (refine Keeps.ofSnd2 (by assumption) ?_)
    | intro

theorem Keeps.jobRefuse {r s : State} (h : Keeps r s) r' st :
    Keeps r (State.jobRefuse s r' st) := by
  unfold State.jobRefuse
  repeat' first
    | with_reducible assumption
    | with_reducible apply Keeps.finish
    | with_reducible apply Keeps.inc
    | with_reducible apply Keeps.when
    | with_reducible (refine Keeps.foldl _ ?_ (fun _ _ _ => ?_))
    | with_reducible (refine Keeps.foldlSnd _ ?_ (fun _ _ _ => ?_))
    | with_reducible (refine Keeps.foldlSnd2 _ ?_ (fun _ _ _ => ?_))
    | (fail_if_no_progress (with_reducible (refine Keeps.lit ?_ rfl rfl rfl)))
    | (intro x; refine Keeps.cut (r := r) x ?_ (fun _ => ?_) <;> [subst x; clear_value x])
    | (intro (x : _ × State); refine Keeps.cut (r := r) x.2 ?_ (fun _ => ?_) <;> [subst x; clear_value x])
    | (intro x; clear_value x)
    | with_reducible (refine Keeps.ite ?_ ?_)
    | split
    | lift_lets
    | with_reducible (refine Keeps.ofSnd (by assumption) ?_)
    | with_reducible (refine Keeps.ofSnd2 (by assumption) ?_)
    | intro

theorem Keeps.jobSpoof {r s : State} (h : Keeps r s) r' :
    Keeps r (State.jobSpoof s r') := by
  unfold State.jobSpoof
  repeat' first
    | with_reducible assumption
    | with_reducible apply Keeps.finish
    | with_reducible apply Keeps.inc
    | with_reducible apply Keeps.raise
    | with_reducible apply Keeps.spoof
    | (fail_if_no_progress (with_reducible (refine Keeps.lit ?_ rfl rfl rfl)))
    | with_reducible (refine Keeps.ite ?_ ?_)
    | split

theorem Keeps.jobChecked {r s : State} (h : Keeps r s) r' m o :
    Keeps r (State.jobChecked s r' m o) := by
  unfold State.jobChecked
  repeat' first
    | with_reducible assumption
    | with_reducible apply Keeps.jobRefuse
    | with_reducible apply Keeps.jobSpoof
    | with_reducible apply Keeps.start
    | (fail_if_no_progress (with_reducible (refine Keeps.lit ?_ rfl rfl rfl)))
    | with_reducible (refine Keeps.ite ?_ ?_)
    | split

theorem Keeps.jobRun {r s : State} (h : Keeps r s) j e :
    Keeps r (State.jobRun s j e) := by
  unfold State.jobRun
  repeat' first
    | with_reducible assumption
    | with_reducible apply Keeps.stpBusy
    | with_reducible apply Keeps.wr
    | (fail_if_no_progress (with_reducible (refine Keeps.lit ?_ rfl rfl rfl)))
    | with_reducible (refine Keeps.ite ?_ ?_)
    | split

theorem Keeps.jobStop {r s : State} (h : Keeps r s) j st :
    Keeps r (State.jobStop s j st) := by
  unfold State.jobStop
  repeat' first
    | with_reducible assumption
    | with_reducible apply Keeps.engState
    | with_reducible apply Keeps.inc
    | with_reducible apply Keeps.jobCut
    | with_reducible apply Keeps.jobEnd
    | with_reducible apply Keeps.pushEnd
    | with_reducible apply Keeps.pushGroup
    | (fail_if_no_progress (with_reducible (refine Keeps.lit ?_ rfl rfl rfl)))
    | with_reducible (refine Keeps.ite ?_ ?_)
    | split

theorem Keeps.listRead {r s : State} (h : Keeps r s) r' pa n :
    Keeps r (State.listRead s r' pa n).2 := by
  unfold State.listRead
  repeat' first
    | with_reducible assumption
    | with_reducible apply Keeps.cmdRead
    | (fail_if_no_progress (with_reducible (refine Keeps.lit ?_ rfl rfl rfl)))
    | with_reducible (refine Keeps.ite ?_ ?_)
    | split

theorem Keeps.pauseTimeout {r s : State} (h : Keeps r s) p q :
    Keeps r (State.pauseTimeout s p q) := by
  unfold State.pauseTimeout
  repeat' first
    | with_reducible assumption
    | with_reducible apply Keeps.cutQueues
    | with_reducible apply Keeps.inc
    | with_reducible apply Keeps.raise
    | with_reducible apply Keeps.when
    | with_reducible (refine Keeps.foldl _ ?_ (fun _ _ _ => ?_))
    | with_reducible (refine Keeps.foldlSnd _ ?_ (fun _ _ _ => ?_))
    | with_reducible (refine Keeps.foldlSnd2 _ ?_ (fun _ _ _ => ?_))
    | (fail_if_no_progress (with_reducible (refine Keeps.lit ?_ rfl rfl rfl)))
    | (intro x; refine Keeps.cut (r := r) x ?_ (fun _ => ?_) <;> [subst x; clear_value x])
    | (intro (x : _ × State); refine Keeps.cut (r := r) x.2 ?_ (fun _ => ?_) <;> [subst x; clear_value x])
    | (intro x; clear_value x)
    | with_reducible (refine Keeps.ite ?_ ?_)
    | split
    | lift_lets
    | with_reducible (refine Keeps.ofSnd (by assumption) ?_)
    | with_reducible (refine Keeps.ofSnd2 (by assumption) ?_)
    | intro

theorem Keeps.pfc {r s : State} (h : Keeps r s) p sub pause release :
    Keeps r (State.pfc s p sub pause release) := by
  unfold State.pfc
  repeat' first
    | with_reducible assumption
    | (fail_if_no_progress (with_reducible (refine Keeps.lit ?_ rfl rfl rfl)))
    | with_reducible (refine Keeps.ite ?_ ?_)
    | split

theorem Keeps.stpBlock {r s : State} (h : Keeps r s) e :
    Keeps r (State.stpBlock s e) := by
  unfold State.stpBlock
  dsimp only
  repeat' first
    | with_reducible assumption
    | with_reducible apply Keeps.blockToEth
    | with_reducible apply Keeps.blockToMem
    | with_reducible apply Keeps.cmdRead
    | with_reducible apply Keeps.jobStop
    | with_reducible apply Keeps.setRing
    | with_reducible (refine Keeps.foldl _ ?_ (fun _ _ _ => ?_))
    | with_reducible (refine Keeps.foldlSnd _ ?_ (fun _ _ _ => ?_))
    | with_reducible (refine Keeps.foldlSnd2 _ ?_ (fun _ _ _ => ?_))
    | (fail_if_no_progress (with_reducible (refine Keeps.lit ?_ rfl rfl rfl)))
    | (intro x; refine Keeps.cut (r := r) x ?_ (fun _ => ?_) <;> [subst x; clear_value x])
    | (intro (x : _ × State); refine Keeps.cut (r := r) x.2 ?_ (fun _ => ?_) <;> [subst x; clear_value x])
    | (intro (x : _ → State); subst x; beta_reduce)
    | (intro (x : _ → _ → State); subst x; beta_reduce)
    | (intro (x : _ → _ × State); subst x; beta_reduce)
    | (intro (x : _ → _ → _ × State); subst x; beta_reduce)
    | (intro (x : MemState); subst x)
    | (intro x; clear_value x)
    | with_reducible (refine Keeps.ite ?_ ?_)
    | split
    | lift_lets
    | with_reducible (refine Keeps.ofSnd (by assumption) ?_)
    | with_reducible (refine Keeps.ofSnd2 (by assumption) ?_)
    | intro

theorem Keeps.stpDispatch {r s : State} (h : Keeps r s) :
    Keeps r (State.stpDispatch s) := by
  unfold State.stpDispatch
  repeat' first
    | with_reducible assumption
    | with_reducible apply Keeps.jobFinish
    | with_reducible apply Keeps.jobRun
    | (fail_if_no_progress (with_reducible (refine Keeps.lit ?_ rfl rfl rfl)))
    | with_reducible (refine Keeps.ite ?_ ?_)
    | split

theorem Keeps.stpEthClear {r s : State} (h : Keeps r s) dom :
    Keeps r (State.stpEthClear s dom) := by
  unfold State.stpEthClear
  repeat' first
    | with_reducible assumption
    | with_reducible apply Keeps.wr
    | (fail_if_no_progress (with_reducible (refine Keeps.lit ?_ rfl rfl rfl)))
    | with_reducible (refine Keeps.ite ?_ ?_)
    | split

theorem Keeps.stpJob {r s : State} (h : Keeps r s) r' :
    Keeps r (State.stpJob s r') := by
  unfold State.stpJob
  repeat' first
    | with_reducible assumption
    | with_reducible apply Keeps.jobChecked
    | with_reducible apply Keeps.jobRefuse
    | with_reducible apply Keeps.jobSpoof
    | with_reducible apply Keeps.listRead
    | with_reducible (refine Keeps.foldl _ ?_ (fun _ _ _ => ?_))
    | with_reducible (refine Keeps.foldlSnd _ ?_ (fun _ _ _ => ?_))
    | with_reducible (refine Keeps.foldlSnd2 _ ?_ (fun _ _ _ => ?_))
    | (fail_if_no_progress (with_reducible (refine Keeps.lit ?_ rfl rfl rfl)))
    | (intro x; refine Keeps.cut (r := r) x ?_ (fun _ => ?_) <;> [subst x; clear_value x])
    | (intro (x : _ × State); refine Keeps.cut (r := r) x.2 ?_ (fun _ => ?_) <;> [subst x; clear_value x])
    | (intro x; clear_value x)
    | with_reducible (refine Keeps.ite ?_ ?_)
    | split
    | lift_lets
    | with_reducible (refine Keeps.ofSnd (by assumption) ?_)
    | with_reducible (refine Keeps.ofSnd2 (by assumption) ?_)
    | intro

theorem Keeps.stpShare {r s : State} (h : Keeps r s) sl v :
    Keeps r (State.stpShare s sl v) := by
  unfold State.stpShare
  repeat' first
    | with_reducible assumption
    | with_reducible apply Keeps.raise
    | with_reducible apply Keeps.shareSettle
    | with_reducible apply Keeps.wr
    | (fail_if_no_progress (with_reducible (refine Keeps.lit ?_ rfl rfl rfl)))
    | with_reducible (refine Keeps.ite ?_ ?_)
    | split

theorem Keeps.doeAbort {r s : State} (h : Keeps r s) p :
    Keeps r (State.doeAbort s p) :=
  Keeps.lit h rfl rfl rfl

theorem Keeps.doeReply {r s : State} (h : Keeps r s) p type body :
    Keeps r (State.doeReply s p type body) :=
  Keeps.lit h rfl rfl rfl

theorem Keeps.freshNonce {r s : State} (h : Keeps r s) :
    Keeps r (State.freshNonce s).2 :=
  Keeps.lit h rfl rfl rfl

theorem Keeps.measBlocks {r s : State} (h : Keeps r s) l : Keeps r (State.measBlocks s l).2 := by
  induction l generalizing s <;> unfold State.measBlocks
  repeat' first
    | with_reducible assumption
    | with_reducible apply Keeps.free
    | with_reducible apply_assumption
    | with_reducible (refine Keeps.foldl _ ?_ (fun _ _ _ => ?_))
    | with_reducible (refine Keeps.foldlSnd _ ?_ (fun _ _ _ => ?_))
    | with_reducible (refine Keeps.foldlSnd2 _ ?_ (fun _ _ _ => ?_))
    | (fail_if_no_progress (with_reducible (refine Keeps.lit ?_ rfl rfl rfl)))
    | (intro x; refine Keeps.cut (r := r) x ?_ (fun _ => ?_) <;> [subst x; clear_value x])
    | (intro (x : _ × State); refine Keeps.cut (r := r) x.2 ?_ (fun _ => ?_) <;> [subst x; clear_value x])
    | (intro (x : _ → State); subst x; beta_reduce)
    | (intro (x : _ → _ → State); subst x; beta_reduce)
    | (intro (x : _ → _ × State); subst x; beta_reduce)
    | (intro (x : _ → _ → _ × State); subst x; beta_reduce)
    | (intro (x : MemState); subst x)
    | (intro x; clear_value x)
    | with_reducible (refine Keeps.ite ?_ ?_)
    | split
    | lift_lets
    | with_reducible (refine Keeps.ofSnd (by assumption) ?_)
    | with_reducible (refine Keeps.ofSnd2 (by assumption) ?_)
    | intro

theorem Keeps.spdmError {r s : State} (h : Keeps r s) p code data :
    Keeps r (State.spdmError s p code data) :=
  Keeps.lit h rfl rfl rfl

theorem Keeps.spdmStage {r s : State} (h : Keeps r s) p n :
    Keeps r (State.spdmStage s p n) :=
  Keeps.lit h rfl rfl rfl

theorem Keeps.spdmAt {r s : State} (h : Keeps r s) p n m (f : State → State) (hf : ∀ t, Keeps r t → Keeps r (f t)) :
    Keeps r (State.spdmAt s p n m f) := by
  unfold State.spdmAt
  repeat' first
    | with_reducible assumption
    | with_reducible apply Keeps.spdmError
    | with_reducible apply Keeps.spdmStage
    | with_reducible apply hf
    | (fail_if_no_progress (with_reducible (refine Keeps.lit ?_ rfl rfl rfl)))
    | with_reducible (refine Keeps.ite ?_ ?_)
    | split

theorem Keeps.spdmReply {r s : State} (h : Keeps r s) p req resp :
    Keeps r (State.spdmReply s p req resp) := by
  unfold State.spdmReply
  repeat' first
    | with_reducible assumption
    | with_reducible apply Keeps.doeReply
    | with_reducible apply Keeps.setPort
    | (fail_if_no_progress (with_reducible (refine Keeps.lit ?_ rfl rfl rfl)))
    | with_reducible (refine Keeps.ite ?_ ?_)
    | split

theorem Keeps.adminCmd {r s : State} (h : Keeps r s) r' op (f : State → State) (hf : ∀ t, Keeps r t → Keeps r (f t)) :
    Keeps r (State.adminCmd s r' op f) := by
  unfold State.adminCmd
  repeat' first
    | with_reducible assumption
    | with_reducible apply hf
    | (fail_if_no_progress (with_reducible (refine Keeps.lit ?_ rfl rfl rfl)))
    | with_reducible (refine Keeps.ite ?_ ?_)
    | split

theorem Keeps.adminEnd {r s : State} (h : Keeps r s) r' op sl :
    Keeps r (State.adminEnd s r' op sl) := by
  unfold State.adminEnd
  repeat' first
    | with_reducible assumption
    | with_reducible apply Keeps.finish
    | (fail_if_no_progress (with_reducible (refine Keeps.lit ?_ rfl rfl rfl)))
    | with_reducible (refine Keeps.ite ?_ ?_)
    | split

theorem Keeps.ethOwner {r s : State} (h : Keeps r s) q sl :
    Keeps r (State.ethOwner s q sl) := by
  unfold State.ethOwner
  repeat' first
    | with_reducible assumption
    | with_reducible apply Keeps.bump
    | with_reducible apply Keeps.cutQueues
    | with_reducible apply Keeps.wr
    | (fail_if_no_progress (with_reducible (refine Keeps.lit ?_ rfl rfl rfl)))
    | with_reducible (refine Keeps.ite ?_ ?_)
    | split

theorem Keeps.evqOwner {r s : State} (h : Keeps r s) q sl :
    Keeps r (State.evqOwner s q sl) := by
  unfold State.evqOwner
  repeat' first
    | with_reducible assumption
    | with_reducible apply Keeps.bump
    | with_reducible apply Keeps.queueOut
    | with_reducible apply Keeps.wr
    | (fail_if_no_progress (with_reducible (refine Keeps.lit ?_ rfl rfl rfl)))
    | with_reducible (refine Keeps.ite ?_ ?_)
    | split

theorem Keeps.giveChannels {r s : State} (h : Keeps r s) sl es :
    Keeps r (State.giveChannels s sl es) := by
  unfold State.giveChannels
  repeat' first
    | with_reducible assumption
    | with_reducible apply Keeps.wr
    | with_reducible (refine Keeps.foldl _ ?_ (fun _ _ _ => ?_))
    | with_reducible (refine Keeps.foldlSnd _ ?_ (fun _ _ _ => ?_))
    | with_reducible (refine Keeps.foldlSnd2 _ ?_ (fun _ _ _ => ?_))
    | (fail_if_no_progress (with_reducible (refine Keeps.lit ?_ rfl rfl rfl)))
    | (intro x; refine Keeps.cut (r := r) x ?_ (fun _ => ?_) <;> [subst x; clear_value x])
    | (intro (x : _ × State); refine Keeps.cut (r := r) x.2 ?_ (fun _ => ?_) <;> [subst x; clear_value x])
    | (intro x; clear_value x)
    | with_reducible (refine Keeps.ite ?_ ?_)
    | split
    | lift_lets
    | with_reducible (refine Keeps.ofSnd (by assumption) ?_)
    | with_reducible (refine Keeps.ofSnd2 (by assumption) ?_)
    | intro

theorem Keeps.setOwner {r s : State} (h : Keeps r s) kind port k sl :
    Keeps r (State.setOwner s kind port k sl) := by
  unfold State.setOwner
  repeat' first
    | with_reducible assumption
    | with_reducible apply Keeps.bump
    | with_reducible apply Keeps.engineOwner
    | with_reducible apply Keeps.ethOwner
    | with_reducible apply Keeps.evqOwner
    | with_reducible apply Keeps.wr
    | (fail_if_no_progress (with_reducible (refine Keeps.lit ?_ rfl rfl rfl)))
    | with_reducible (refine Keeps.ite ?_ ?_)
    | split

theorem Keeps.giveEntry {r s : State} (h : Keeps r s) port sl e :
    Keeps r (State.giveEntry s port sl e) := by
  unfold State.giveEntry
  repeat' first
    | with_reducible assumption
    | with_reducible apply Keeps.setOwner
    | with_reducible (refine Keeps.foldl _ ?_ (fun _ _ _ => ?_))
    | with_reducible (refine Keeps.foldlSnd _ ?_ (fun _ _ _ => ?_))
    | with_reducible (refine Keeps.foldlSnd2 _ ?_ (fun _ _ _ => ?_))
    | (fail_if_no_progress (with_reducible (refine Keeps.lit ?_ rfl rfl rfl)))
    | (intro x; refine Keeps.cut (r := r) x ?_ (fun _ => ?_) <;> [subst x; clear_value x])
    | (intro (x : _ × State); refine Keeps.cut (r := r) x.2 ?_ (fun _ => ?_) <;> [subst x; clear_value x])
    | (intro x; clear_value x)
    | with_reducible (refine Keeps.ite ?_ ?_)
    | split
    | lift_lets
    | with_reducible (refine Keeps.ofSnd (by assumption) ?_)
    | with_reducible (refine Keeps.ofSnd2 (by assumption) ?_)
    | intro

theorem Keeps.resetGroup {r s : State} (h : Keeps r s) g :
    Keeps r (State.resetGroup s g) := by
  unfold State.resetGroup
  repeat' first
    | with_reducible assumption
    | with_reducible apply Keeps.commitAck
    | with_reducible apply Keeps.groupAbort
    | with_reducible apply Keeps.groupCommit
    | with_reducible (refine Keeps.foldl _ ?_ (fun _ _ _ => ?_))
    | with_reducible (refine Keeps.foldlSnd _ ?_ (fun _ _ _ => ?_))
    | with_reducible (refine Keeps.foldlSnd2 _ ?_ (fun _ _ _ => ?_))
    | (fail_if_no_progress (with_reducible (refine Keeps.lit ?_ rfl rfl rfl)))
    | (intro x; refine Keeps.cut (r := r) x ?_ (fun _ => ?_) <;> [subst x; clear_value x])
    | (intro (x : _ × State); refine Keeps.cut (r := r) x.2 ?_ (fun _ => ?_) <;> [subst x; clear_value x])
    | (intro x; clear_value x)
    | with_reducible (refine Keeps.ite ?_ ?_)
    | split
    | lift_lets
    | with_reducible (refine Keeps.ofSnd (by assumption) ?_)
    | with_reducible (refine Keeps.ofSnd2 (by assumption) ?_)
    | intro

theorem Keeps.resetCores {r s : State} (h : Keeps r s) sl :
    Keeps r (State.resetCores s sl) := by
  unfold State.resetCores
  repeat' first
    | with_reducible assumption
    | with_reducible apply Keeps.coreHeld
    | with_reducible apply Keeps.resetGroup
    | with_reducible (refine Keeps.foldl _ ?_ (fun _ _ _ => ?_))
    | with_reducible (refine Keeps.foldlSnd _ ?_ (fun _ _ _ => ?_))
    | with_reducible (refine Keeps.foldlSnd2 _ ?_ (fun _ _ _ => ?_))
    | (fail_if_no_progress (with_reducible (refine Keeps.lit ?_ rfl rfl rfl)))
    | (intro x; refine Keeps.cut (r := r) x ?_ (fun _ => ?_) <;> [subst x; clear_value x])
    | (intro (x : _ × State); refine Keeps.cut (r := r) x.2 ?_ (fun _ => ?_) <;> [subst x; clear_value x])
    | (intro x; clear_value x)
    | with_reducible (refine Keeps.ite ?_ ?_)
    | split
    | lift_lets
    | with_reducible (refine Keeps.ofSnd (by assumption) ?_)
    | with_reducible (refine Keeps.ofSnd2 (by assumption) ?_)
    | intro

theorem Keeps.resetRings {r s : State} (h : Keeps r s) sl :
    Keeps r (State.resetRings s sl) := by
  unfold State.resetRings
  repeat' first
    | with_reducible assumption
    | with_reducible apply Keeps.halt
    | with_reducible apply Keeps.queueDisable
    | with_reducible (refine Keeps.foldl _ ?_ (fun _ _ _ => ?_))
    | with_reducible (refine Keeps.foldlSnd _ ?_ (fun _ _ _ => ?_))
    | with_reducible (refine Keeps.foldlSnd2 _ ?_ (fun _ _ _ => ?_))
    | (fail_if_no_progress (with_reducible (refine Keeps.lit ?_ rfl rfl rfl)))
    | (intro x; refine Keeps.cut (r := r) x ?_ (fun _ => ?_) <;> [subst x; clear_value x])
    | (intro (x : _ × State); refine Keeps.cut (r := r) x.2 ?_ (fun _ => ?_) <;> [subst x; clear_value x])
    | (intro x; clear_value x)
    | with_reducible (refine Keeps.ite ?_ ?_)
    | split
    | lift_lets
    | with_reducible (refine Keeps.ofSnd (by assumption) ?_)
    | with_reducible (refine Keeps.ofSnd2 (by assumption) ?_)
    | intro

theorem Keeps.resetStores {r s : State} (h : Keeps r s) sl :
    Keeps r (State.resetStores s sl) := by
  unfold State.resetStores
  repeat' first
    | with_reducible assumption
    | with_reducible apply Keeps.shadowDrop
    | with_reducible apply Keeps.slotFree
    | with_reducible (refine Keeps.foldl _ ?_ (fun _ _ _ => ?_))
    | with_reducible (refine Keeps.foldlSnd _ ?_ (fun _ _ _ => ?_))
    | with_reducible (refine Keeps.foldlSnd2 _ ?_ (fun _ _ _ => ?_))
    | (fail_if_no_progress (with_reducible (refine Keeps.lit ?_ rfl rfl rfl)))
    | (intro x; refine Keeps.cut (r := r) x ?_ (fun _ => ?_) <;> [subst x; clear_value x])
    | (intro (x : _ × State); refine Keeps.cut (r := r) x.2 ?_ (fun _ => ?_) <;> [subst x; clear_value x])
    | (intro x; clear_value x)
    | with_reducible (refine Keeps.ite ?_ ?_)
    | split
    | lift_lets
    | with_reducible (refine Keeps.ofSnd (by assumption) ?_)
    | with_reducible (refine Keeps.ofSnd2 (by assumption) ?_)
    | intro

theorem Keeps.resetUse {r s : State} (h : Keeps r s) sl :
    Keeps r (State.resetUse s sl) := by
  unfold State.resetUse
  repeat' first
    | with_reducible assumption
    | with_reducible apply Keeps.groupFree
    | with_reducible apply Keeps.grpSettle
    | with_reducible apply Keeps.shareSettle
    | with_reducible apply Keeps.wr
    | with_reducible (refine Keeps.foldl _ ?_ (fun _ _ _ => ?_))
    | with_reducible (refine Keeps.foldlSnd _ ?_ (fun _ _ _ => ?_))
    | with_reducible (refine Keeps.foldlSnd2 _ ?_ (fun _ _ _ => ?_))
    | (fail_if_no_progress (with_reducible (refine Keeps.lit ?_ rfl rfl rfl)))
    | (intro x; refine Keeps.cut (r := r) x ?_ (fun _ => ?_) <;> [subst x; clear_value x])
    | (intro (x : _ × State); refine Keeps.cut (r := r) x.2 ?_ (fun _ => ?_) <;> [subst x; clear_value x])
    | (intro x; clear_value x)
    | with_reducible (refine Keeps.ite ?_ ?_)
    | split
    | lift_lets
    | with_reducible (refine Keeps.ofSnd (by assumption) ?_)
    | with_reducible (refine Keeps.ofSnd2 (by assumption) ?_)
    | intro

theorem Keeps.startCores {r s : State} (h : Keeps r s) sl :
    Keeps r (State.startCores s sl) := by
  unfold State.startCores
  repeat' first
    | with_reducible assumption
    | with_reducible apply Keeps.coreRun
    | with_reducible (refine Keeps.foldl _ ?_ (fun _ _ _ => ?_))
    | with_reducible (refine Keeps.foldlSnd _ ?_ (fun _ _ _ => ?_))
    | with_reducible (refine Keeps.foldlSnd2 _ ?_ (fun _ _ _ => ?_))
    | (fail_if_no_progress (with_reducible (refine Keeps.lit ?_ rfl rfl rfl)))
    | (intro x; refine Keeps.cut (r := r) x ?_ (fun _ => ?_) <;> [subst x; clear_value x])
    | (intro (x : _ × State); refine Keeps.cut (r := r) x.2 ?_ (fun _ => ?_) <;> [subst x; clear_value x])
    | (intro x; clear_value x)
    | with_reducible (refine Keeps.ite ?_ ?_)
    | split
    | lift_lets
    | with_reducible (refine Keeps.ofSnd (by assumption) ?_)
    | with_reducible (refine Keeps.ofSnd2 (by assumption) ?_)
    | intro

end Sys2Proof.Machine
end

