-- ==== Sys2Proof/Laws/KeepsSystem.lean ====
section
/-!
SUPPORT. Each operation of Slices, Debug, RegWrite, Profile, Ledger, Boot, CoreMem, DebugPort, Step keeps the relation
`Keeps` of its state to an earlier one.
-/

set_option Elab.async false

set_option linter.all false

namespace Sys2Proof.Machine

theorem Keeps.sliceMake {r s : State} (h : Keeps r s) sl port pasid b :
    Keeps r (State.sliceMake s sl port pasid b) := by
  unfold State.sliceMake
  repeat' first
    | with_reducible assumption
    | with_reducible apply Keeps.bump
    | with_reducible apply Keeps.coreHeld
    | with_reducible apply Keeps.giveChannels
    | with_reducible apply Keeps.giveEntry
    | with_reducible apply Keeps.grpLimit
    | with_reducible apply Keeps.sliceUse
    | with_reducible apply Keeps.startCores
    | with_reducible apply Keeps.stpShare
    | with_reducible apply Keeps.wr
    | with_reducible (refine Keeps.foldl _ ?_ (fun _ _ _ => ?_))
    | with_reducible (refine Keeps.foldlSnd _ ?_ (fun _ _ _ => ?_))
    | with_reducible (refine Keeps.foldlSnd2 _ ?_ (fun _ _ _ => ?_))
    | (fail_if_no_progress (with_reducible (refine Keeps.lit ?_ rfl rfl rfl)))
    | (intro x; refine Keeps.cut (r := r) x ?_ (fun _ => ?_) <;> [subst x; clear_value x])
    | (intro (x : _ × State); refine Keeps.cut (r := r) x.2 ?_ (fun _ => ?_) <;> [subst x; clear_value x])
    | (intro x; clear_value x)
    | with_reducible (refine Keeps.ite ?_ ?_)
    | split
    | lift_lets
    | with_reducible (refine Keeps.ofSnd (by assumption) ?_)
    | with_reducible (refine Keeps.ofSnd2 (by assumption) ?_)
    | intro

theorem Keeps.sliceCreate {r s : State} (h : Keeps r s) r' :
    Keeps r (State.sliceCreate s r') := by
  unfold State.sliceCreate
  dsimp only
  repeat' first
    | with_reducible assumption
    | with_reducible apply Keeps.cmdRead
    | with_reducible apply Keeps.finish
    | with_reducible apply Keeps.sliceMake
    | with_reducible (refine Keeps.foldl _ ?_ (fun _ _ _ => ?_))
    | with_reducible (refine Keeps.foldlSnd _ ?_ (fun _ _ _ => ?_))
    | with_reducible (refine Keeps.foldlSnd2 _ ?_ (fun _ _ _ => ?_))
    | (fail_if_no_progress (with_reducible (refine Keeps.lit ?_ rfl rfl rfl)))
    | (intro x; refine Keeps.cut (r := r) x ?_ (fun _ => ?_) <;> [subst x; clear_value x])
    | (intro (x : _ × State); refine Keeps.cut (r := r) x.2 ?_ (fun _ => ?_) <;> [subst x; clear_value x])
    | (intro x; clear_value x)
    | with_reducible (refine Keeps.ite ?_ ?_)
    | split
    | lift_lets
    | with_reducible (refine Keeps.ofSnd (by assumption) ?_)
    | with_reducible (refine Keeps.ofSnd2 (by assumption) ?_)
    | intro

theorem Keeps.sliceReturn {r s : State} (h : Keeps r s) sl :
    Keeps r (State.sliceReturn s sl) := by
  unfold State.sliceReturn
  repeat' first
    | with_reducible assumption
    | with_reducible apply Keeps.giveChannels
    | with_reducible apply Keeps.setOwner
    | with_reducible apply Keeps.sliceUse
    | with_reducible (refine Keeps.foldl _ ?_ (fun _ _ _ => ?_))
    | with_reducible (refine Keeps.foldlSnd _ ?_ (fun _ _ _ => ?_))
    | with_reducible (refine Keeps.foldlSnd2 _ ?_ (fun _ _ _ => ?_))
    | (fail_if_no_progress (with_reducible (refine Keeps.lit ?_ rfl rfl rfl)))
    | (intro x; refine Keeps.cut (r := r) x ?_ (fun _ => ?_) <;> [subst x; clear_value x])
    | (intro (x : _ × State); refine Keeps.cut (r := r) x.2 ?_ (fun _ => ?_) <;> [subst x; clear_value x])
    | (intro x; clear_value x)
    | with_reducible (refine Keeps.ite ?_ ?_)
    | split
    | lift_lets
    | with_reducible (refine Keeps.ofSnd (by assumption) ?_)
    | with_reducible (refine Keeps.ofSnd2 (by assumption) ?_)
    | intro

theorem Keeps.sliceDestroy {r s : State} (h : Keeps r s) r' sl :
    Keeps r (State.sliceDestroy s r' sl) := by
  unfold State.sliceDestroy
  repeat' first
    | with_reducible assumption
    | with_reducible apply Keeps.resetCores
    | with_reducible apply Keeps.resetRings
    | with_reducible apply Keeps.resetStores
    | with_reducible apply Keeps.resetUse
    | with_reducible apply Keeps.sliceReturn
    | with_reducible apply Keeps.start
    | with_reducible apply Keeps.wr
    | (fail_if_no_progress (with_reducible (refine Keeps.lit ?_ rfl rfl rfl)))
    | with_reducible (refine Keeps.ite ?_ ?_)
    | split

theorem Keeps.sliceDestroyDone {r s : State} (h : Keeps r s) :
    Keeps r (State.sliceDestroyDone s) := by
  unfold State.sliceDestroyDone
  repeat' first
    | with_reducible assumption
    | with_reducible apply Keeps.adminEnd
    | with_reducible apply Keeps.bump
    | with_reducible apply Keeps.memZero
    | with_reducible apply Keeps.wr
    | with_reducible (refine Keeps.foldl _ ?_ (fun _ _ _ => ?_))
    | with_reducible (refine Keeps.foldlSnd _ ?_ (fun _ _ _ => ?_))
    | with_reducible (refine Keeps.foldlSnd2 _ ?_ (fun _ _ _ => ?_))
    | (fail_if_no_progress (with_reducible (refine Keeps.lit ?_ rfl rfl rfl)))
    | (intro x; refine Keeps.cut (r := r) x ?_ (fun _ => ?_) <;> [subst x; clear_value x])
    | (intro (x : _ × State); refine Keeps.cut (r := r) x.2 ?_ (fun _ => ?_) <;> [subst x; clear_value x])
    | (intro x; clear_value x)
    | with_reducible (refine Keeps.ite ?_ ?_)
    | split
    | lift_lets
    | with_reducible (refine Keeps.ofSnd (by assumption) ?_)
    | with_reducible (refine Keeps.ofSnd2 (by assumption) ?_)
    | intro

theorem Keeps.sliceNamed {r s : State} (h : Keeps r s) r' zero (f : Nat → State → State) (hf : ∀ n t, Keeps r t → Keeps r (f n t)) : Keeps r (State.sliceNamed s r' zero f) := by
  unfold State.sliceNamed
  repeat' first
    | with_reducible assumption
    | with_reducible apply Keeps.finish
    | with_reducible apply hf
    | with_reducible (refine Keeps.foldl _ ?_ (fun _ _ _ => ?_))
    | with_reducible (refine Keeps.foldlSnd _ ?_ (fun _ _ _ => ?_))
    | with_reducible (refine Keeps.foldlSnd2 _ ?_ (fun _ _ _ => ?_))
    | (fail_if_no_progress (with_reducible (refine Keeps.lit ?_ rfl rfl rfl)))
    | (intro x; refine Keeps.cut (r := r) x ?_ (fun _ => ?_) <;> [subst x; clear_value x])
    | (intro (x : _ × State); refine Keeps.cut (r := r) x.2 ?_ (fun _ => ?_) <;> [subst x; clear_value x])
    | (intro (x : _ → State); subst x; beta_reduce)
    | (intro (x : _ → _ → State); subst x; beta_reduce)
    | (intro (x : _ → _ × State); subst x; beta_reduce)
    | (intro (x : _ → _ → _ × State); subst x; beta_reduce)
    | (intro (x : MemState); subst x)
    | (intro x; clear_value x)
    | with_reducible (refine Keeps.ite ?_ ?_)
    | split
    | lift_lets
    | with_reducible (refine Keeps.ofSnd (by assumption) ?_)
    | with_reducible (refine Keeps.ofSnd2 (by assumption) ?_)
    | intro

theorem Keeps.sliceQuota {r s : State} (h : Keeps r s) r' sl :
    Keeps r (State.sliceQuota s r' sl) := by
  unfold State.sliceQuota
  repeat' first
    | with_reducible assumption
    | with_reducible apply Keeps.finish
    | with_reducible apply Keeps.grpLimit
    | with_reducible apply Keeps.stpShare
    | (fail_if_no_progress (with_reducible (refine Keeps.lit ?_ rfl rfl rfl)))
    | (intro x; refine Keeps.cut (r := r) x ?_ (fun _ => ?_) <;> [subst x; clear_value x])
    | (intro (x : _ × State); refine Keeps.cut (r := r) x.2 ?_ (fun _ => ?_) <;> [subst x; clear_value x])
    | (intro x; clear_value x)
    | with_reducible (refine Keeps.ite ?_ ?_)
    | split
    | lift_lets

theorem Keeps.sliceReset {r s : State} (h : Keeps r s) r' sl :
    Keeps r (State.sliceReset s r' sl) := by
  unfold State.sliceReset
  repeat' first
    | with_reducible assumption
    | with_reducible apply Keeps.resetCores
    | with_reducible apply Keeps.resetRings
    | with_reducible apply Keeps.start
    | with_reducible apply Keeps.wr
    | (fail_if_no_progress (with_reducible (refine Keeps.lit ?_ rfl rfl rfl)))
    | with_reducible (refine Keeps.ite ?_ ?_)
    | split

theorem Keeps.sliceResetDone {r s : State} (h : Keeps r s) :
    Keeps r (State.sliceResetDone s) := by
  unfold State.sliceResetDone
  repeat' first
    | with_reducible assumption
    | with_reducible apply Keeps.adminEnd
    | with_reducible apply Keeps.bump
    | with_reducible apply Keeps.inc
    | with_reducible apply Keeps.raise
    | with_reducible apply Keeps.resetStores
    | with_reducible apply Keeps.resetUse
    | with_reducible apply Keeps.startCores
    | with_reducible apply Keeps.wr
    | (fail_if_no_progress (with_reducible (refine Keeps.lit ?_ rfl rfl rfl)))
    | with_reducible (refine Keeps.ite ?_ ?_)
    | split

theorem Keeps.spoofRead {r s : State} (h : Keeps r s) :
    Keeps r (State.spoofRead s) := by
  unfold State.spoofRead
  repeat' first
    | with_reducible assumption
    | (fail_if_no_progress (with_reducible (refine Keeps.lit ?_ rfl rfl rfl)))
    | with_reducible (refine Keeps.ite ?_ ?_)
    | split

theorem Keeps.accJudge {r s : State} (h : Keeps r s) ns wake addr :
    Keeps r (State.accJudge s ns wake addr).2 := by
  unfold State.accJudge
  repeat' first
    | with_reducible assumption
    | with_reducible apply Keeps.inc
    | with_reducible apply Keeps.wake
    | (fail_if_no_progress (with_reducible (refine Keeps.lit ?_ rfl rfl rfl)))
    | with_reducible (refine Keeps.ite ?_ ?_)
    | split

theorem Keeps.accCtl {r s : State} (h : Keeps r s) v :
    Keeps r (State.accCtl s v) := by
  unfold State.accCtl
  repeat' first
    | with_reducible assumption
    | with_reducible apply Keeps.accJudge
    | with_reducible apply Keeps.wr
    | (fail_if_no_progress (with_reducible (refine Keeps.lit ?_ rfl rfl rfl)))
    | with_reducible (refine Keeps.ite ?_ ?_)
    | split

theorem Keeps.accEnd {r s : State} (h : Keeps r s) status :
    Keeps r (State.accEnd s status) := by
  unfold State.accEnd
  repeat' first
    | with_reducible assumption
    | with_reducible apply Keeps.inc
    | with_reducible apply Keeps.when
    | with_reducible apply Keeps.wr
    | with_reducible (refine Keeps.foldl _ ?_ (fun _ _ _ => ?_))
    | with_reducible (refine Keeps.foldlSnd _ ?_ (fun _ _ _ => ?_))
    | with_reducible (refine Keeps.foldlSnd2 _ ?_ (fun _ _ _ => ?_))
    | (fail_if_no_progress (with_reducible (refine Keeps.lit ?_ rfl rfl rfl)))
    | (intro x; refine Keeps.cut (r := r) x ?_ (fun _ => ?_) <;> [subst x; clear_value x])
    | (intro (x : _ × State); refine Keeps.cut (r := r) x.2 ?_ (fun _ => ?_) <;> [subst x; clear_value x])
    | (intro x; clear_value x)
    | with_reducible (refine Keeps.ite ?_ ?_)
    | split
    | lift_lets
    | with_reducible (refine Keeps.ofSnd (by assumption) ?_)
    | with_reducible (refine Keeps.ofSnd2 (by assumption) ?_)
    | intro

theorem Keeps.enChange {r s : State} (h : Keeps r s) :
    Keeps r (State.enChange s) := by
  unfold State.enChange
  repeat' first
    | with_reducible assumption
    | with_reducible apply Keeps.accEnd
    | with_reducible apply Keeps.effSet
    | with_reducible apply Keeps.resumeHart
    | with_reducible (refine Keeps.foldl _ ?_ (fun _ _ _ => ?_))
    | with_reducible (refine Keeps.foldlSnd _ ?_ (fun _ _ _ => ?_))
    | with_reducible (refine Keeps.foldlSnd2 _ ?_ (fun _ _ _ => ?_))
    | (fail_if_no_progress (with_reducible (refine Keeps.lit ?_ rfl rfl rfl)))
    | (intro x; refine Keeps.cut (r := r) x ?_ (fun _ => ?_) <;> [subst x; clear_value x])
    | (intro (x : _ × State); refine Keeps.cut (r := r) x.2 ?_ (fun _ => ?_) <;> [subst x; clear_value x])
    | (intro x; clear_value x)
    | with_reducible (refine Keeps.ite ?_ ?_)
    | split
    | lift_lets
    | with_reducible (refine Keeps.ofSnd (by assumption) ?_)
    | with_reducible (refine Keeps.ofSnd2 (by assumption) ?_)
    | intro

theorem Keeps.authClr {r s : State} (h : Keeps r s) :
    Keeps r (State.authClr s) := by
  unfold State.authClr
  repeat' first
    | with_reducible assumption
    | with_reducible apply Keeps.enChange
    | with_reducible apply Keeps.wr
    | (fail_if_no_progress (with_reducible (refine Keeps.lit ?_ rfl rfl rfl)))
    | with_reducible (refine Keeps.ite ?_ ?_)
    | split

theorem Keeps.authNew {r s : State} (h : Keeps r s) :
    Keeps r (State.authNew s) := by
  unfold State.authNew
  repeat' first
    | with_reducible assumption
    | (fail_if_no_progress (with_reducible (refine Keeps.lit ?_ rfl rfl rfl)))
    | with_reducible (refine Keeps.ite ?_ ?_)
    | split

theorem Keeps.authCtl {r s : State} (h : Keeps r s) v :
    Keeps r (State.authCtl s v) := by
  unfold State.authCtl
  repeat' first
    | with_reducible assumption
    | with_reducible apply Keeps.authNew
    | with_reducible apply Keeps.wr
    | (fail_if_no_progress (with_reducible (refine Keeps.lit ?_ rfl rfl rfl)))
    | with_reducible (refine Keeps.ite ?_ ?_)
    | split

theorem Keeps.authFail {r s : State} (h : Keeps r s) c :
    Keeps r (State.authFail s c) := by
  unfold State.authFail
  repeat' first
    | with_reducible assumption
    | with_reducible apply Keeps.note
    | with_reducible apply Keeps.raise
    | with_reducible apply Keeps.when
    | with_reducible apply Keeps.wr
    | with_reducible (refine Keeps.foldl _ ?_ (fun _ _ _ => ?_))
    | with_reducible (refine Keeps.foldlSnd _ ?_ (fun _ _ _ => ?_))
    | with_reducible (refine Keeps.foldlSnd2 _ ?_ (fun _ _ _ => ?_))
    | (fail_if_no_progress (with_reducible (refine Keeps.lit ?_ rfl rfl rfl)))
    | (intro x; refine Keeps.cut (r := r) x ?_ (fun _ => ?_) <;> [subst x; clear_value x])
    | (intro (x : _ × State); refine Keeps.cut (r := r) x.2 ?_ (fun _ => ?_) <;> [subst x; clear_value x])
    | (intro x; clear_value x)
    | with_reducible (refine Keeps.ite ?_ ?_)
    | split
    | lift_lets
    | with_reducible (refine Keeps.ofSnd (by assumption) ?_)
    | with_reducible (refine Keeps.ofSnd2 (by assumption) ?_)
    | intro

theorem Keeps.authGrant {r s : State} (h : Keeps r s) c :
    Keeps r (State.authGrant s c) := by
  unfold State.authGrant
  repeat' first
    | with_reducible assumption
    | with_reducible apply Keeps.effSet
    | with_reducible apply Keeps.inc
    | with_reducible apply Keeps.note
    | with_reducible apply Keeps.raise
    | with_reducible apply Keeps.takeHalt
    | with_reducible apply Keeps.wr
    | with_reducible (refine Keeps.foldl _ ?_ (fun _ _ _ => ?_))
    | with_reducible (refine Keeps.foldlSnd _ ?_ (fun _ _ _ => ?_))
    | with_reducible (refine Keeps.foldlSnd2 _ ?_ (fun _ _ _ => ?_))
    | (fail_if_no_progress (with_reducible (refine Keeps.lit ?_ rfl rfl rfl)))
    | (intro x; refine Keeps.cut (r := r) x ?_ (fun _ => ?_) <;> [subst x; clear_value x])
    | (intro (x : _ × State); refine Keeps.cut (r := r) x.2 ?_ (fun _ => ?_) <;> [subst x; clear_value x])
    | (intro x; clear_value x)
    | with_reducible (refine Keeps.ite ?_ ?_)
    | split
    | lift_lets
    | with_reducible (refine Keeps.ofSnd (by assumption) ?_)
    | with_reducible (refine Keeps.ofSnd2 (by assumption) ?_)
    | intro

theorem Keeps.authDone {r s : State} (h : Keeps r s) :
    Keeps r (State.authDone s) := by
  unfold State.authDone
  repeat' first
    | with_reducible assumption
    | with_reducible apply Keeps.authFail
    | with_reducible apply Keeps.authGrant
    | (fail_if_no_progress (with_reducible (refine Keeps.lit ?_ rfl rfl rfl)))
    | with_reducible (refine Keeps.ite ?_ ?_)
    | split

theorem Keeps.fwEn {r s : State} (h : Keeps r s) v :
    Keeps r (State.fwEn s v) := by
  unfold State.fwEn
  repeat' first
    | with_reducible assumption
    | with_reducible apply Keeps.enChange
    | with_reducible apply Keeps.takeHalt
    | with_reducible apply Keeps.wr
    | with_reducible (refine Keeps.foldl _ ?_ (fun _ _ _ => ?_))
    | with_reducible (refine Keeps.foldlSnd _ ?_ (fun _ _ _ => ?_))
    | with_reducible (refine Keeps.foldlSnd2 _ ?_ (fun _ _ _ => ?_))
    | (fail_if_no_progress (with_reducible (refine Keeps.lit ?_ rfl rfl rfl)))
    | (intro x; refine Keeps.cut (r := r) x ?_ (fun _ => ?_) <;> [subst x; clear_value x])
    | (intro (x : _ × State); refine Keeps.cut (r := r) x.2 ?_ (fun _ => ?_) <;> [subst x; clear_value x])
    | (intro x; clear_value x)
    | with_reducible (refine Keeps.ite ?_ ?_)
    | split
    | lift_lets
    | with_reducible (refine Keeps.ofSnd (by assumption) ?_)
    | with_reducible (refine Keeps.ofSnd2 (by assumption) ?_)
    | intro

theorem Keeps.nonceReady {r s : State} (h : Keeps r s) nonce :
    Keeps r (State.nonceReady s nonce) := by
  unfold State.nonceReady
  repeat' first
    | with_reducible assumption
    | with_reducible apply Keeps.wr
    | with_reducible (refine Keeps.foldl _ ?_ (fun _ _ _ => ?_))
    | with_reducible (refine Keeps.foldlSnd _ ?_ (fun _ _ _ => ?_))
    | with_reducible (refine Keeps.foldlSnd2 _ ?_ (fun _ _ _ => ?_))
    | (fail_if_no_progress (with_reducible (refine Keeps.lit ?_ rfl rfl rfl)))
    | (intro x; refine Keeps.cut (r := r) x ?_ (fun _ => ?_) <;> [subst x; clear_value x])
    | (intro (x : _ × State); refine Keeps.cut (r := r) x.2 ?_ (fun _ => ?_) <;> [subst x; clear_value x])
    | (intro x; clear_value x)
    | with_reducible (refine Keeps.ite ?_ ?_)
    | split
    | lift_lets
    | with_reducible (refine Keeps.ofSnd (by assumption) ?_)
    | with_reducible (refine Keeps.ofSnd2 (by assumption) ?_)
    | intro

theorem Keeps.alnCtl {r s : State} (h : Keeps r s) secure n v :
    Keeps r (State.alnCtl s secure n v) := by
  unfold State.alnCtl
  repeat' first
    | with_reducible assumption
    | with_reducible apply Keeps.alnEn
    | with_reducible apply Keeps.alnRestart
    | with_reducible apply Keeps.unfence
    | with_reducible apply Keeps.when
    | with_reducible apply Keeps.widthRestore
    | with_reducible apply Keeps.wr
    | with_reducible (refine Keeps.foldl _ ?_ (fun _ _ _ => ?_))
    | with_reducible (refine Keeps.foldlSnd _ ?_ (fun _ _ _ => ?_))
    | with_reducible (refine Keeps.foldlSnd2 _ ?_ (fun _ _ _ => ?_))
    | (fail_if_no_progress (with_reducible (refine Keeps.lit ?_ rfl rfl rfl)))
    | (intro x; refine Keeps.cut (r := r) x ?_ (fun _ => ?_) <;> [subst x; clear_value x])
    | (intro (x : _ × State); refine Keeps.cut (r := r) x.2 ?_ (fun _ => ?_) <;> [subst x; clear_value x])
    | (intro x; clear_value x)
    | with_reducible (refine Keeps.ite ?_ ?_)
    | split
    | lift_lets
    | with_reducible (refine Keeps.ofSnd (by assumption) ?_)
    | with_reducible (refine Keeps.ofSnd2 (by assumption) ?_)
    | intro

theorem Keeps.coreCtl {r s : State} (h : Keeps r s) k v :
    Keeps r (State.coreCtl s k v) := by
  unfold State.coreCtl
  repeat' first
    | with_reducible assumption
    | with_reducible apply Keeps.coreHeld
    | with_reducible apply Keeps.coreRun
    | (fail_if_no_progress (with_reducible (refine Keeps.lit ?_ rfl rfl rfl)))
    | with_reducible (refine Keeps.ite ?_ ?_)
    | split

theorem Keeps.dbCfg {r s : State} (h : Keeps r s) v :
    Keeps r (State.dbCfg s v) := by
  unfold State.dbCfg
  repeat' first
    | with_reducible assumption
    | with_reducible apply Keeps.when
    | with_reducible apply Keeps.wr
    | with_reducible (refine Keeps.foldl _ ?_ (fun _ _ _ => ?_))
    | with_reducible (refine Keeps.foldlSnd _ ?_ (fun _ _ _ => ?_))
    | with_reducible (refine Keeps.foldlSnd2 _ ?_ (fun _ _ _ => ?_))
    | (fail_if_no_progress (with_reducible (refine Keeps.lit ?_ rfl rfl rfl)))
    | (intro x; refine Keeps.cut (r := r) x ?_ (fun _ => ?_) <;> [subst x; clear_value x])
    | (intro (x : _ × State); refine Keeps.cut (r := r) x.2 ?_ (fun _ => ?_) <;> [subst x; clear_value x])
    | (intro x; clear_value x)
    | with_reducible (refine Keeps.ite ?_ ?_)
    | split
    | lift_lets
    | with_reducible (refine Keeps.ofSnd (by assumption) ?_)
    | with_reducible (refine Keeps.ofSnd2 (by assumption) ?_)
    | intro

theorem Keeps.dbgEn {r s : State} (h : Keeps r s) secure mask v :
    Keeps r (State.dbgEn s secure mask v) := by
  unfold State.dbgEn
  repeat' first
    | with_reducible assumption
    | with_reducible apply Keeps.authClr
    | with_reducible apply Keeps.fwEn
    | (fail_if_no_progress (with_reducible (refine Keeps.lit ?_ rfl rfl rfl)))
    | with_reducible (refine Keeps.ite ?_ ?_)
    | split

theorem Keeps.evbCfg {r s : State} (h : Keeps r s) v :
    Keeps r (State.evbCfg s v) := by
  unfold State.evbCfg
  repeat' first
    | with_reducible assumption
    | with_reducible apply Keeps.wr
    | (fail_if_no_progress (with_reducible (refine Keeps.lit ?_ rfl rfl rfl)))
    | with_reducible (refine Keeps.ite ?_ ?_)
    | split

theorem Keeps.fieldWrite {r s : State} (h : Keeps r s) secure f i v :
    Keeps r (State.fieldWrite s secure f i v) := by
  unfold State.fieldWrite
  repeat' first
    | with_reducible assumption
    | with_reducible apply Keeps.wr
    | (fail_if_no_progress (with_reducible (refine Keeps.lit ?_ rfl rfl rfl)))
    | with_reducible (refine Keeps.ite ?_ ?_)
    | split

theorem Keeps.plainWrite {r s : State} (h : Keeps r s) secure x i mask v :
    Keeps r (State.plainWrite s secure x i mask v) := by
  unfold State.plainWrite
  repeat' first
    | with_reducible assumption
    | with_reducible apply Keeps.fieldWrite
    | with_reducible (refine Keeps.foldl _ ?_ (fun _ _ _ => ?_))
    | with_reducible (refine Keeps.foldlSnd _ ?_ (fun _ _ _ => ?_))
    | with_reducible (refine Keeps.foldlSnd2 _ ?_ (fun _ _ _ => ?_))
    | (fail_if_no_progress (with_reducible (refine Keeps.lit ?_ rfl rfl rfl)))
    | (intro x; refine Keeps.cut (r := r) x ?_ (fun _ => ?_) <;> [subst x; clear_value x])
    | (intro (x : _ × State); refine Keeps.cut (r := r) x.2 ?_ (fun _ => ?_) <;> [subst x; clear_value x])
    | (intro x; clear_value x)
    | with_reducible (refine Keeps.ite ?_ ?_)
    | split
    | lift_lets
    | with_reducible (refine Keeps.ofSnd (by assumption) ?_)
    | with_reducible (refine Keeps.ofSnd2 (by assumption) ?_)
    | intro

theorem Keeps.readEffect {r s : State} (h : Keeps r s) src r' i off :
    Keeps r (State.readEffect s src r' i off) := by
  unfold State.readEffect
  repeat' first
    | with_reducible assumption
    | with_reducible apply Keeps.claimRead
    | with_reducible apply Keeps.spoofRead
    | (fail_if_no_progress (with_reducible (refine Keeps.lit ?_ rfl rfl rfl)))
    | with_reducible (refine Keeps.ite ?_ ?_)
    | split

theorem Keeps.regAct {r s t : State} {src x i mask v} (e : State.regAct s src x i mask v = some t) (h : Keeps r s) :
    Keeps r t := by
  suffices g : ∀ y ∈ State.regAct s src x i mask v, Keeps r y from g t e
  clear e t
  unfold State.regAct
  dsimp only
  split <;> first | refine fun y e => (Option.some.inj e) ▸ ?_ | exact fun y e => (by cases e)
  repeat' first
    | with_reducible assumption
    | with_reducible apply Keeps.accCtl
    | with_reducible apply Keeps.alnCfg
    | with_reducible apply Keeps.alnCtl
    | with_reducible apply Keeps.authCtl
    | with_reducible apply Keeps.beatCfg
    | with_reducible apply Keeps.beatCtl
    | with_reducible apply Keeps.ckrDom
    | with_reducible apply Keeps.coreCtl
    | with_reducible apply Keeps.dbCfg
    | with_reducible apply Keeps.dbgEn
    | with_reducible apply Keeps.dirProbe
    | with_reducible apply Keeps.ethPortCfg
    | with_reducible apply Keeps.ethQCfg
    | with_reducible apply Keeps.evbCfg
    | with_reducible apply Keeps.evbSettle
    | with_reducible apply Keeps.evqCfg
    | with_reducible apply Keeps.evqDb
    | with_reducible apply Keeps.grpLimit
    | with_reducible apply Keeps.grpRate
    | with_reducible apply Keeps.histCfg
    | with_reducible apply Keeps.inCfg
    | with_reducible apply Keeps.l2Ctl
    | with_reducible apply Keeps.laneCfg
    | with_reducible apply Keeps.laneClear
    | with_reducible apply Keeps.laneResync
    | with_reducible apply Keeps.mipBit
    | with_reducible apply Keeps.msixFlush
    | with_reducible apply Keeps.outCtl
    | with_reducible apply Keeps.plainWrite
    | with_reducible apply Keeps.poolCfg
    | with_reducible apply Keeps.pwrCtl
    | with_reducible apply Keeps.rearm
    | with_reducible apply Keeps.ringCfg
    | with_reducible apply Keeps.routeCfg
    | with_reducible apply Keeps.rqCfg
    | with_reducible apply Keeps.scCtl
    | with_reducible apply Keeps.srcCfg
    | with_reducible apply Keeps.stpShare
    | with_reducible apply Keeps.tWrite
    | with_reducible apply Keeps.timerBits
    | with_reducible apply Keeps.warmReset
    | with_reducible apply Keeps.when
    | with_reducible apply Keeps.winLimit
    | with_reducible apply Keeps.winWrite
    | with_reducible apply Keeps.wmWrite
    | split
    | intro

theorem Keeps.w1c {r s : State} (h : Keeps r s) x i mask v :
    Keeps r (State.w1c s x i mask v) := by
  unfold State.w1c
  repeat' first
    | with_reducible assumption
    | with_reducible apply Keeps.wr
    | with_reducible (refine Keeps.foldl _ ?_ (fun _ _ _ => ?_))
    | with_reducible (refine Keeps.foldlSnd _ ?_ (fun _ _ _ => ?_))
    | with_reducible (refine Keeps.foldlSnd2 _ ?_ (fun _ _ _ => ?_))
    | (fail_if_no_progress (with_reducible (refine Keeps.lit ?_ rfl rfl rfl)))
    | (intro x; refine Keeps.cut (r := r) x ?_ (fun _ => ?_) <;> [subst x; clear_value x])
    | (intro (x : _ × State); refine Keeps.cut (r := r) x.2 ?_ (fun _ => ?_) <;> [subst x; clear_value x])
    | (intro x; clear_value x)
    | with_reducible (refine Keeps.ite ?_ ?_)
    | split
    | lift_lets
    | with_reducible (refine Keeps.ofSnd (by assumption) ?_)
    | with_reducible (refine Keeps.ofSnd2 (by assumption) ?_)
    | intro

theorem Keeps.regPut {r s : State} (h : Keeps r s) src x i off size value :
    Keeps r (State.regPut s src x i off size value) := by
  unfold State.regPut
  repeat' first
    | with_reducible assumption
    | with_reducible apply Keeps.plainWrite
    | with_reducible apply Keeps.slackReset
    | with_reducible apply Keeps.w1c
    | with_reducible (refine Keeps.regAct (by assumption) ?_)
    | with_reducible (refine Keeps.foldl _ ?_ (fun _ _ _ => ?_))
    | with_reducible (refine Keeps.foldlSnd _ ?_ (fun _ _ _ => ?_))
    | with_reducible (refine Keeps.foldlSnd2 _ ?_ (fun _ _ _ => ?_))
    | (fail_if_no_progress (with_reducible (refine Keeps.lit ?_ rfl rfl rfl)))
    | (intro x; refine Keeps.cut (r := r) x ?_ (fun _ => ?_) <;> [subst x; clear_value x])
    | (intro (x : _ × State); refine Keeps.cut (r := r) x.2 ?_ (fun _ => ?_) <;> [subst x; clear_value x])
    | (intro (x : _ → State); subst x; beta_reduce)
    | (intro (x : _ → _ → State); subst x; beta_reduce)
    | (intro (x : _ → _ × State); subst x; beta_reduce)
    | (intro (x : _ → _ → _ × State); subst x; beta_reduce)
    | (intro (x : MemState); subst x)
    | (intro x; clear_value x)
    | with_reducible (refine Keeps.ite ?_ ?_)
    | split
    | lift_lets
    | with_reducible (refine Keeps.ofSnd (by assumption) ?_)
    | with_reducible (refine Keeps.ofSnd2 (by assumption) ?_)
    | intro

theorem Keeps.regRead {r s : State} (h : Keeps r s) src a size :
    Keeps r (State.regRead s src a size).2 := by
  unfold State.regRead
  repeat' first
    | with_reducible assumption
    | with_reducible apply Keeps.readEffect
    | (fail_if_no_progress (with_reducible (refine Keeps.lit ?_ rfl rfl rfl)))
    | with_reducible (refine Keeps.ite ?_ ?_)
    | split

theorem Keeps.regWrite {r s : State} (h : Keeps r s) src a size value :
    Keeps r (State.regWrite s src a size value) := by
  unfold State.regWrite
  repeat' first
    | with_reducible assumption
    | with_reducible apply Keeps.inc
    | with_reducible apply Keeps.regPut
    | with_reducible apply Keeps.when
    | with_reducible apply Keeps.withReg
    | with_reducible (refine Keeps.foldl _ ?_ (fun _ _ _ => ?_))
    | with_reducible (refine Keeps.foldlSnd _ ?_ (fun _ _ _ => ?_))
    | with_reducible (refine Keeps.foldlSnd2 _ ?_ (fun _ _ _ => ?_))
    | (fail_if_no_progress (with_reducible (refine Keeps.lit ?_ rfl rfl rfl)))
    | (intro x; refine Keeps.cut (r := r) x ?_ (fun _ => ?_) <;> [subst x; clear_value x])
    | (intro (x : _ × State); refine Keeps.cut (r := r) x.2 ?_ (fun _ => ?_) <;> [subst x; clear_value x])
    | (intro x; clear_value x)
    | with_reducible (refine Keeps.ite ?_ ?_)
    | split
    | lift_lets
    | with_reducible (refine Keeps.ofSnd (by assumption) ?_)
    | with_reducible (refine Keeps.ofSnd2 (by assumption) ?_)
    | intro

theorem Keeps.spaceWrite {r s : State} (h : Keeps r s) src a size value :
    Keeps r (State.spaceWrite s src a size value) := by
  unfold State.spaceWrite
  repeat' first
    | with_reducible assumption
    | with_reducible apply Keeps.doorbell
    | with_reducible apply Keeps.inc
    | with_reducible apply Keeps.queueDb
    | with_reducible apply Keeps.regWrite
    | with_reducible apply Keeps.when
    | with_reducible (refine Keeps.foldl _ ?_ (fun _ _ _ => ?_))
    | with_reducible (refine Keeps.foldlSnd _ ?_ (fun _ _ _ => ?_))
    | with_reducible (refine Keeps.foldlSnd2 _ ?_ (fun _ _ _ => ?_))
    | (fail_if_no_progress (with_reducible (refine Keeps.lit ?_ rfl rfl rfl)))
    | (intro x; refine Keeps.cut (r := r) x ?_ (fun _ => ?_) <;> [subst x; clear_value x])
    | (intro (x : _ × State); refine Keeps.cut (r := r) x.2 ?_ (fun _ => ?_) <;> [subst x; clear_value x])
    | (intro x; clear_value x)
    | with_reducible (refine Keeps.ite ?_ ?_)
    | split
    | lift_lets
    | with_reducible (refine Keeps.ofSnd (by assumption) ?_)
    | with_reducible (refine Keeps.ofSnd2 (by assumption) ?_)
    | intro

theorem Keeps.applyCkr {r s : State} (h : Keeps r s) r' :
    Keeps r (State.applyCkr s r') := by
  unfold State.applyCkr
  repeat' first
    | with_reducible assumption
    | with_reducible apply Keeps.gateWrite
    | with_reducible apply Keeps.inc
    | with_reducible apply Keeps.ratioWrite
    | with_reducible apply Keeps.when
    | with_reducible apply Keeps.wr
    | with_reducible (refine Keeps.foldl _ ?_ (fun _ _ _ => ?_))
    | with_reducible (refine Keeps.foldlSnd _ ?_ (fun _ _ _ => ?_))
    | with_reducible (refine Keeps.foldlSnd2 _ ?_ (fun _ _ _ => ?_))
    | (fail_if_no_progress (with_reducible (refine Keeps.lit ?_ rfl rfl rfl)))
    | (intro x; refine Keeps.cut (r := r) x ?_ (fun _ => ?_) <;> [subst x; clear_value x])
    | (intro (x : _ × State); refine Keeps.cut (r := r) x.2 ?_ (fun _ => ?_) <;> [subst x; clear_value x])
    | (intro x; clear_value x)
    | with_reducible (refine Keeps.ite ?_ ?_)
    | split
    | lift_lets
    | with_reducible (refine Keeps.ofSnd (by assumption) ?_)
    | with_reducible (refine Keeps.ofSnd2 (by assumption) ?_)
    | intro

theorem Keeps.applyRecord {r s : State} (h : Keeps r s) r' :
    Keeps r (State.applyRecord s r') := by
  unfold State.applyRecord
  repeat' first
    | with_reducible assumption
    | with_reducible apply Keeps.inc
    | with_reducible apply Keeps.spaceWrite
    | with_reducible apply Keeps.when
    | with_reducible (refine Keeps.foldl _ ?_ (fun _ _ _ => ?_))
    | with_reducible (refine Keeps.foldlSnd _ ?_ (fun _ _ _ => ?_))
    | with_reducible (refine Keeps.foldlSnd2 _ ?_ (fun _ _ _ => ?_))
    | (fail_if_no_progress (with_reducible (refine Keeps.lit ?_ rfl rfl rfl)))
    | (intro x; refine Keeps.cut (r := r) x ?_ (fun _ => ?_) <;> [subst x; clear_value x])
    | (intro (x : _ × State); refine Keeps.cut (r := r) x.2 ?_ (fun _ => ?_) <;> [subst x; clear_value x])
    | (intro x; clear_value x)
    | with_reducible (refine Keeps.ite ?_ ?_)
    | split
    | lift_lets
    | with_reducible (refine Keeps.ofSnd (by assumption) ?_)
    | with_reducible (refine Keeps.ofSnd2 (by assumption) ?_)
    | intro

theorem Keeps.profileCkr {r s : State} (h : Keeps r s) :
    Keeps r (State.profileCkr s) := by
  unfold State.profileCkr
  repeat' first
    | with_reducible assumption
    | with_reducible apply Keeps.applyCkr
    | with_reducible (refine Keeps.foldl _ ?_ (fun _ _ _ => ?_))
    | with_reducible (refine Keeps.foldlSnd _ ?_ (fun _ _ _ => ?_))
    | with_reducible (refine Keeps.foldlSnd2 _ ?_ (fun _ _ _ => ?_))
    | (fail_if_no_progress (with_reducible (refine Keeps.lit ?_ rfl rfl rfl)))
    | (intro x; refine Keeps.cut (r := r) x ?_ (fun _ => ?_) <;> [subst x; clear_value x])
    | (intro (x : _ × State); refine Keeps.cut (r := r) x.2 ?_ (fun _ => ?_) <;> [subst x; clear_value x])
    | (intro x; clear_value x)
    | with_reducible (refine Keeps.ite ?_ ?_)
    | split
    | lift_lets
    | with_reducible (refine Keeps.ofSnd (by assumption) ?_)
    | with_reducible (refine Keeps.ofSnd2 (by assumption) ?_)
    | intro

theorem Keeps.profileMap {r s : State} (h : Keeps r s) :
    Keeps r (State.profileMap s) :=
  Keeps.lit h rfl rfl rfl

theorem Keeps.profileRest {r s : State} (h : Keeps r s) :
    Keeps r (State.profileRest s) := by
  unfold State.profileRest
  repeat' first
    | with_reducible assumption
    | with_reducible apply Keeps.applyRecord
    | with_reducible (refine Keeps.foldl _ ?_ (fun _ _ _ => ?_))
    | with_reducible (refine Keeps.foldlSnd _ ?_ (fun _ _ _ => ?_))
    | with_reducible (refine Keeps.foldlSnd2 _ ?_ (fun _ _ _ => ?_))
    | (fail_if_no_progress (with_reducible (refine Keeps.lit ?_ rfl rfl rfl)))
    | (intro x; refine Keeps.cut (r := r) x ?_ (fun _ => ?_) <;> [subst x; clear_value x])
    | (intro (x : _ × State); refine Keeps.cut (r := r) x.2 ?_ (fun _ => ?_) <;> [subst x; clear_value x])
    | (intro x; clear_value x)
    | with_reducible (refine Keeps.ite ?_ ?_)
    | split
    | lift_lets
    | with_reducible (refine Keeps.ofSnd (by assumption) ?_)
    | with_reducible (refine Keeps.ofSnd2 (by assumption) ?_)
    | intro

theorem Keeps.profileSelect {r s : State} (h : Keeps r s) :
    Keeps r (State.profileSelect s) := by
  unfold State.profileSelect
  repeat' first
    | with_reducible assumption
    | with_reducible apply Keeps.profileMap
    | with_reducible apply Keeps.wr
    | (fail_if_no_progress (with_reducible (refine Keeps.lit ?_ rfl rfl rfl)))
    | with_reducible (refine Keeps.ite ?_ ?_)
    | split

theorem Keeps.profileWrite {r s : State} (h : Keeps r s) r' :
    Keeps r (State.profileWrite s r') := by
  unfold State.profileWrite
  repeat' first
    | with_reducible assumption
    | with_reducible apply Keeps.cmdRead
    | with_reducible apply Keeps.finish
    | with_reducible apply Keeps.profileMap
    | with_reducible (refine Keeps.foldl _ ?_ (fun _ _ _ => ?_))
    | with_reducible (refine Keeps.foldlSnd _ ?_ (fun _ _ _ => ?_))
    | with_reducible (refine Keeps.foldlSnd2 _ ?_ (fun _ _ _ => ?_))
    | (fail_if_no_progress (with_reducible (refine Keeps.lit ?_ rfl rfl rfl)))
    | (intro x; refine Keeps.cut (r := r) x ?_ (fun _ => ?_) <;> [subst x; clear_value x])
    | (intro (x : _ × State); refine Keeps.cut (r := r) x.2 ?_ (fun _ => ?_) <;> [subst x; clear_value x])
    | (intro x; clear_value x)
    | with_reducible (refine Keeps.ite ?_ ?_)
    | split
    | lift_lets
    | with_reducible (refine Keeps.ofSnd (by assumption) ?_)
    | with_reducible (refine Keeps.ofSnd2 (by assumption) ?_)
    | intro

theorem Keeps.setProfile {r s : State} (h : Keeps r s) r' :
    Keeps r (State.setProfile s r') := by
  unfold State.setProfile
  repeat' first
    | with_reducible assumption
    | with_reducible apply Keeps.finish
    | with_reducible apply Keeps.wr
    | (fail_if_no_progress (with_reducible (refine Keeps.lit ?_ rfl rfl rfl)))
    | with_reducible (refine Keeps.ite ?_ ?_)
    | split

theorem Keeps.applyCap {r s : State} (h : Keeps r s) d cap :
    Keeps r (State.applyCap s d cap) := by
  unfold State.applyCap
  repeat' first
    | with_reducible assumption
    | with_reducible apply Keeps.wr
    | (fail_if_no_progress (with_reducible (refine Keeps.lit ?_ rfl rfl rfl)))
    | with_reducible (refine Keeps.ite ?_ ?_)
    | split

theorem Keeps.planReg {r s : State} (h : Keeps r s) d :
    Keeps r (State.planReg s d) := by
  unfold State.planReg
  repeat' first
    | with_reducible assumption
    | with_reducible apply Keeps.wr
    | (fail_if_no_progress (with_reducible (refine Keeps.lit ?_ rfl rfl rfl)))
    | with_reducible (refine Keeps.ite ?_ ?_)
    | split

theorem Keeps.applyDecision {r s : State} (h : Keeps r s) d :
    Keeps r (State.applyDecision s d) := by
  unfold State.applyDecision
  repeat' first
    | with_reducible assumption
    | with_reducible apply Keeps.applyCap
    | with_reducible apply Keeps.planReg
    | (fail_if_no_progress (with_reducible (refine Keeps.lit ?_ rfl rfl rfl)))
    | with_reducible (refine Keeps.ite ?_ ?_)
    | split

theorem Keeps.capDie {r s : State} (h : Keeps r s) n :
    Keeps r (State.capDie s n) := by
  unfold State.capDie
  repeat' first
    | with_reducible assumption
    | with_reducible apply Keeps.raise
    | with_reducible apply Keeps.wr
    | with_reducible (refine Keeps.foldl _ ?_ (fun _ _ _ => ?_))
    | with_reducible (refine Keeps.foldlSnd _ ?_ (fun _ _ _ => ?_))
    | with_reducible (refine Keeps.foldlSnd2 _ ?_ (fun _ _ _ => ?_))
    | (fail_if_no_progress (with_reducible (refine Keeps.lit ?_ rfl rfl rfl)))
    | (intro x; refine Keeps.cut (r := r) x ?_ (fun _ => ?_) <;> [subst x; clear_value x])
    | (intro (x : _ × State); refine Keeps.cut (r := r) x.2 ?_ (fun _ => ?_) <;> [subst x; clear_value x])
    | (intro x; clear_value x)
    | with_reducible (refine Keeps.ite ?_ ?_)
    | split
    | lift_lets
    | with_reducible (refine Keeps.ofSnd (by assumption) ?_)
    | with_reducible (refine Keeps.ofSnd2 (by assumption) ?_)
    | intro

theorem Keeps.setRequest {r s : State} (h : Keeps r s) n mv guard :
    Keeps r (State.setRequest s n mv guard) :=
  Keeps.lit h rfl rfl rfl

theorem Keeps.ledgerLoad {r s : State} (h : Keeps r s) :
    Keeps r (State.ledgerLoad s) := by
  unfold State.ledgerLoad
  repeat' first
    | with_reducible assumption
    | with_reducible apply Keeps.applyDecision
    | with_reducible apply Keeps.free
    | with_reducible apply Keeps.setRequest
    | with_reducible apply Keeps.wr
    | with_reducible (refine Keeps.foldl _ ?_ (fun _ _ _ => ?_))
    | with_reducible (refine Keeps.foldlSnd _ ?_ (fun _ _ _ => ?_))
    | with_reducible (refine Keeps.foldlSnd2 _ ?_ (fun _ _ _ => ?_))
    | (fail_if_no_progress (with_reducible (refine Keeps.lit ?_ rfl rfl rfl)))
    | (intro x; refine Keeps.cut (r := r) x ?_ (fun _ => ?_) <;> [subst x; clear_value x])
    | (intro (x : _ × State); refine Keeps.cut (r := r) x.2 ?_ (fun _ => ?_) <;> [subst x; clear_value x])
    | (intro x; clear_value x)
    | with_reducible (refine Keeps.ite ?_ ?_)
    | split
    | lift_lets
    | with_reducible (refine Keeps.ofSnd (by assumption) ?_)
    | with_reducible (refine Keeps.ofSnd2 (by assumption) ?_)
    | intro

theorem Keeps.ledgerRead {r s : State} (h : Keeps r s) r' :
    Keeps r (State.ledgerRead s r') := by
  unfold State.ledgerRead
  repeat' first
    | with_reducible assumption
    | with_reducible apply Keeps.cmdWrite
    | with_reducible apply Keeps.finish
    | with_reducible (refine Keeps.foldl _ ?_ (fun _ _ _ => ?_))
    | with_reducible (refine Keeps.foldlSnd _ ?_ (fun _ _ _ => ?_))
    | with_reducible (refine Keeps.foldlSnd2 _ ?_ (fun _ _ _ => ?_))
    | (fail_if_no_progress (with_reducible (refine Keeps.lit ?_ rfl rfl rfl)))
    | (intro x; refine Keeps.cut (r := r) x ?_ (fun _ => ?_) <;> [subst x; clear_value x])
    | (intro (x : _ × State); refine Keeps.cut (r := r) x.2 ?_ (fun _ => ?_) <;> [subst x; clear_value x])
    | (intro x; clear_value x)
    | with_reducible (refine Keeps.ite ?_ ?_)
    | split
    | lift_lets
    | with_reducible (refine Keeps.ofSnd (by assumption) ?_)
    | with_reducible (refine Keeps.ofSnd2 (by assumption) ?_)
    | intro

theorem Keeps.planCommit {r s : State} (h : Keeps r s) ds :
    Keeps r (State.planCommit s ds) :=
  Keeps.lit h rfl rfl rfl

theorem Keeps.planDie {r s : State} (h : Keeps r s) n : Keeps r (State.planDie s n).2.2 := by
  unfold State.planDie
  have k : Keeps r (s.free 401).2 := h.free _
  simp only
  split <;> exact k

theorem Keeps.runPlan {r s : State} (h : Keeps r s) :
    Keeps r (State.runPlan s) := by
  unfold State.runPlan
  repeat' first
    | with_reducible assumption
    | with_reducible apply Keeps.applyDecision
    | with_reducible apply Keeps.planCommit
    | with_reducible apply Keeps.planDie
    | with_reducible apply Keeps.raise
    | with_reducible apply Keeps.setRequest
    | with_reducible apply Keeps.when
    | with_reducible (refine Keeps.foldl _ ?_ (fun _ _ _ => ?_))
    | with_reducible (refine Keeps.foldlSnd _ ?_ (fun _ _ _ => ?_))
    | with_reducible (refine Keeps.foldlSnd2 _ ?_ (fun _ _ _ => ?_))
    | (fail_if_no_progress (with_reducible (refine Keeps.lit ?_ rfl rfl rfl)))
    | (intro x; refine Keeps.cut (r := r) x ?_ (fun _ => ?_) <;> [subst x; clear_value x])
    | (intro (x : _ × State); refine Keeps.cut (r := r) x.2 ?_ (fun _ => ?_) <;> [subst x; clear_value x])
    | (intro x; clear_value x)
    | with_reducible (refine Keeps.ite ?_ ?_)
    | split
    | lift_lets
    | with_reducible (refine Keeps.ofSnd (by assumption) ?_)
    | with_reducible (refine Keeps.ofSnd2 (by assumption) ?_)
    | intro

theorem Keeps.planCmd {r s : State} (h : Keeps r s) r' :
    Keeps r (State.planCmd s r') := by
  unfold State.planCmd
  repeat' first
    | with_reducible assumption
    | with_reducible apply Keeps.finish
    | with_reducible apply Keeps.runPlan
    | (fail_if_no_progress (with_reducible (refine Keeps.lit ?_ rfl rfl rfl)))
    | with_reducible (refine Keeps.ite ?_ ?_)
    | split

theorem Keeps.readSensors {r s : State} (h : Keeps r s) readings hour :
    Keeps r (State.readSensors s readings hour) := by
  unfold State.readSensors
  repeat' first
    | with_reducible assumption
    | with_reducible apply Keeps.wr
    | with_reducible (refine Keeps.foldl _ ?_ (fun _ _ _ => ?_))
    | with_reducible (refine Keeps.foldlSnd _ ?_ (fun _ _ _ => ?_))
    | with_reducible (refine Keeps.foldlSnd2 _ ?_ (fun _ _ _ => ?_))
    | (fail_if_no_progress (with_reducible (refine Keeps.lit ?_ rfl rfl rfl)))
    | (intro x; refine Keeps.cut (r := r) x ?_ (fun _ => ?_) <;> [subst x; clear_value x])
    | (intro (x : _ × State); refine Keeps.cut (r := r) x.2 ?_ (fun _ => ?_) <;> [subst x; clear_value x])
    | (intro x; clear_value x)
    | with_reducible (refine Keeps.ite ?_ ?_)
    | split
    | lift_lets
    | with_reducible (refine Keeps.ofSnd (by assumption) ?_)
    | with_reducible (refine Keeps.ofSnd2 (by assumption) ?_)
    | intro

theorem Keeps.slotWrite {r s : State} (h : Keeps r s) ok :
    Keeps r (State.slotWrite s ok) := by
  unfold State.slotWrite
  repeat' first
    | with_reducible assumption
    | with_reducible apply Keeps.raise
    | with_reducible apply Keeps.wr
    | (fail_if_no_progress (with_reducible (refine Keeps.lit ?_ rfl rfl rfl)))
    | with_reducible (refine Keeps.ite ?_ ?_)
    | split

theorem Keeps.poweredHour {r s : State} (h : Keeps r s) readings ok :
    Keeps r (State.poweredHour s readings ok) := by
  unfold State.poweredHour
  repeat' first
    | with_reducible assumption
    | with_reducible apply Keeps.readSensors
    | with_reducible apply Keeps.runPlan
    | with_reducible apply Keeps.slotWrite
    | with_reducible apply Keeps.when
    | with_reducible apply Keeps.wr
    | (fail_if_no_progress (with_reducible (refine Keeps.lit ?_ rfl rfl rfl)))
    | with_reducible (refine Keeps.ite ?_ ?_)
    | split

theorem Keeps.thermalDie {r s : State} (h : Keeps r s) temps n :
    Keeps r (State.thermalDie s temps n) := by
  unfold State.thermalDie
  repeat' first
    | with_reducible assumption
    | with_reducible apply Keeps.capDie
    | with_reducible apply Keeps.ledgerTime
    | with_reducible apply Keeps.when
    | with_reducible (refine Keeps.foldl _ ?_ (fun _ _ _ => ?_))
    | with_reducible (refine Keeps.foldlSnd _ ?_ (fun _ _ _ => ?_))
    | with_reducible (refine Keeps.foldlSnd2 _ ?_ (fun _ _ _ => ?_))
    | (fail_if_no_progress (with_reducible (refine Keeps.lit ?_ rfl rfl rfl)))
    | (intro x; refine Keeps.cut (r := r) x ?_ (fun _ => ?_) <;> [subst x; clear_value x])
    | (intro (x : _ × State); refine Keeps.cut (r := r) x.2 ?_ (fun _ => ?_) <;> [subst x; clear_value x])
    | (intro x; clear_value x)
    | with_reducible (refine Keeps.ite ?_ ?_)
    | split
    | lift_lets
    | with_reducible (refine Keeps.ofSnd (by assumption) ?_)
    | with_reducible (refine Keeps.ofSnd2 (by assumption) ?_)
    | intro

theorem Keeps.thermalSample {r s : State} (h : Keeps r s) temps volts :
    Keeps r (State.thermalSample s temps volts) := by
  unfold State.thermalSample
  repeat' first
    | with_reducible assumption
    | with_reducible apply Keeps.ledgerTime
    | with_reducible apply Keeps.raise
    | with_reducible apply Keeps.thermalDie
    | with_reducible apply Keeps.wr
    | with_reducible (refine Keeps.foldl _ ?_ (fun _ _ _ => ?_))
    | with_reducible (refine Keeps.foldlSnd _ ?_ (fun _ _ _ => ?_))
    | with_reducible (refine Keeps.foldlSnd2 _ ?_ (fun _ _ _ => ?_))
    | (fail_if_no_progress (with_reducible (refine Keeps.lit ?_ rfl rfl rfl)))
    | (intro x; refine Keeps.cut (r := r) x ?_ (fun _ => ?_) <;> [subst x; clear_value x])
    | (intro (x : _ × State); refine Keeps.cut (r := r) x.2 ?_ (fun _ => ?_) <;> [subst x; clear_value x])
    | (intro x; clear_value x)
    | with_reducible (refine Keeps.ite ?_ ?_)
    | split
    | lift_lets
    | with_reducible (refine Keeps.ofSnd (by assumption) ?_)
    | with_reducible (refine Keeps.ofSnd2 (by assumption) ?_)
    | intro

theorem Keeps.advanceSvn {r s : State} (h : Keeps r s) kind svn : Keeps r (State.advanceSvn s kind svn) := by
  refine Keeps.trans h ?_
  unfold State.advanceSvn
  split
  · exact ⟨rfl, rfl, rfl, id, rfl, rfl, rfl, rfl, rfl, fun _ => id, fun _ => id, Nat.le_refl _, Nat.le_max_left _ _,
      id, id, id⟩
  · exact ⟨rfl, rfl, rfl, id, rfl, rfl, rfl, rfl, rfl, fun _ => id, fun _ => id, Nat.le_max_left _ _, Nat.le_refl _,
      id, id, id⟩

theorem Keeps.applySecurity {r s : State} (h : Keeps r s) :
    Keeps r (State.applySecurity s) := by
  unfold State.applySecurity
  repeat' first
    | with_reducible assumption
    | with_reducible apply Keeps.wmWrite
    | with_reducible apply Keeps.wr
    | (fail_if_no_progress (with_reducible (refine Keeps.lit ?_ rfl rfl rfl)))
    | with_reducible (refine Keeps.ite ?_ ?_)
    | split

theorem Keeps.setSlot {r s : State} (h : Keeps r s) slot m :
    Keeps r (State.setSlot s slot m) :=
  Keeps.lit h rfl rfl rfl

theorem Keeps.confirm {r s : State} (h : Keeps r s) kind :
    Keeps r (State.confirm s kind) := by
  unfold State.confirm
  repeat' first
    | with_reducible assumption
    | with_reducible apply Keeps.advanceSvn
    | with_reducible apply Keeps.note
    | with_reducible apply Keeps.raise
    | with_reducible apply Keeps.setSlot
    | (fail_if_no_progress (with_reducible (refine Keeps.lit ?_ rfl rfl rfl)))
    | with_reducible (refine Keeps.ite ?_ ?_)
    | split

theorem Keeps.becomeReady {r s : State} (h : Keeps r s) :
    Keeps r (State.becomeReady s) := by
  unfold State.becomeReady
  repeat' first
    | with_reducible assumption
    | with_reducible apply Keeps.confirm
    | with_reducible apply Keeps.wr
    | with_reducible (refine Keeps.foldl _ ?_ (fun _ _ _ => ?_))
    | with_reducible (refine Keeps.foldlSnd _ ?_ (fun _ _ _ => ?_))
    | with_reducible (refine Keeps.foldlSnd2 _ ?_ (fun _ _ _ => ?_))
    | (fail_if_no_progress (with_reducible (refine Keeps.lit ?_ rfl rfl rfl)))
    | (intro x; refine Keeps.cut (r := r) x ?_ (fun _ => ?_) <;> [subst x; clear_value x])
    | (intro (x : _ × State); refine Keeps.cut (r := r) x.2 ?_ (fun _ => ?_) <;> [subst x; clear_value x])
    | (intro x; clear_value x)
    | with_reducible (refine Keeps.ite ?_ ?_)
    | split
    | lift_lets
    | with_reducible (refine Keeps.ofSnd (by assumption) ?_)
    | with_reducible (refine Keeps.ofSnd2 (by assumption) ?_)
    | intro

theorem Keeps.enrolAct {r s : State} (h : Keeps r s) e : Keeps r (State.enrolAct s e) := by
  refine Keeps.trans h ?_
  unfold State.enrolAct
  dsimp only
  split
  · exact ⟨rfl, rfl, rfl, id, rfl, rfl, rfl, rfl, rfl, fun k => setBit_keeps _ _ k, fun _ => id, Nat.le_refl _,
      Nat.le_refl _, id, id, id⟩
  · exact ⟨rfl, rfl, rfl, id, rfl, rfl, rfl, rfl, rfl, fun _ => id, fun k => setBit_keeps _ _ k, Nat.le_refl _,
      Nat.le_refl _, id, id, id⟩
  · exact ⟨rfl, rfl, rfl, id, Fuses.Le.refl _⟩
  · exact ⟨rfl, rfl, rfl, id, rfl, rfl, rfl, rfl, rfl, fun _ => id, fun _ => id, Nat.le_refl _,
      Nat.le_refl _, fun _ => rfl, id, id⟩
  · exact ⟨rfl, rfl, rfl, id, rfl, rfl, rfl, rfl, rfl, fun _ => id, fun _ => id, Nat.le_refl _,
      Nat.le_refl _, id, fun _ => rfl, id⟩
  · exact ⟨rfl, rfl, rfl, id, rfl, rfl, rfl, rfl, rfl, fun _ => id, fun _ => id, Nat.le_refl _,
      Nat.le_refl _, id, id, fun _ => rfl⟩
  · exact ⟨rfl, rfl, rfl, id, Fuses.Le.refl _⟩

theorem Keeps.imgRejected {r s : State} (h : Keeps r s) kind cause :
    Keeps r (State.imgRejected s kind cause) := by
  unfold State.imgRejected
  repeat' first
    | with_reducible assumption
    | with_reducible apply Keeps.inc
    | with_reducible apply Keeps.raise
    | with_reducible apply Keeps.wr
    | (fail_if_no_progress (with_reducible (refine Keeps.lit ?_ rfl rfl rfl)))
    | with_reducible (refine Keeps.ite ?_ ?_)
    | split

theorem Keeps.imgVerify {r s : State} (h : Keeps r s) kind img :
    Keeps r (State.imgVerify s kind img).2 := by
  unfold State.imgVerify
  repeat' first
    | with_reducible assumption
    | with_reducible apply Keeps.imgRejected
    | (fail_if_no_progress (with_reducible (refine Keeps.lit ?_ rfl rfl rfl)))
    | (intro x; refine Keeps.cut (r := r) x ?_ (fun _ => ?_) <;> [subst x; clear_value x])
    | (intro (x : _ × State); refine Keeps.cut (r := r) x.2 ?_ (fun _ => ?_) <;> [subst x; clear_value x])
    | (intro x; clear_value x)
    | with_reducible (refine Keeps.ite ?_ ?_)
    | split
    | lift_lets

theorem Keeps.enrol {r s : State} (h : Keeps r s) :
    Keeps r (State.enrol s) := by
  unfold State.enrol
  repeat' first
    | with_reducible assumption
    | with_reducible apply Keeps.effSet
    | with_reducible apply Keeps.enrolAct
    | with_reducible apply Keeps.imgVerify
    | with_reducible apply Keeps.note
    | with_reducible apply Keeps.raise
    | with_reducible apply Keeps.setSlot
    | with_reducible apply Keeps.wr
    | with_reducible (refine Keeps.foldl _ ?_ (fun _ _ _ => ?_))
    | with_reducible (refine Keeps.foldlSnd _ ?_ (fun _ _ _ => ?_))
    | with_reducible (refine Keeps.foldlSnd2 _ ?_ (fun _ _ _ => ?_))
    | (fail_if_no_progress (with_reducible (refine Keeps.lit ?_ rfl rfl rfl)))
    | (intro x; refine Keeps.cut (r := r) x ?_ (fun _ => ?_) <;> [subst x; clear_value x])
    | (intro (x : _ × State); refine Keeps.cut (r := r) x.2 ?_ (fun _ => ?_) <;> [subst x; clear_value x])
    | (intro x; clear_value x)
    | with_reducible (refine Keeps.ite ?_ ?_)
    | split
    | lift_lets
    | with_reducible (refine Keeps.ofSnd (by assumption) ?_)
    | with_reducible (refine Keeps.ofSnd2 (by assumption) ?_)
    | intro

theorem Keeps.findDimms {r s : State} (h : Keeps r s) :
    Keeps r (State.findDimms s) := by
  unfold State.findDimms
  repeat' first
    | with_reducible assumption
    | with_reducible apply Keeps.wr
    | (fail_if_no_progress (with_reducible (refine Keeps.lit ?_ rfl rfl rfl)))
    | with_reducible (refine Keeps.ite ?_ ?_)
    | split

theorem Keeps.bootRom {r s : State} (h : Keeps r s) :
    Keeps r (State.bootRom s) := by
  unfold State.bootRom
  repeat' first
    | with_reducible assumption
    | with_reducible apply Keeps.alnAutoTrain
    | with_reducible apply Keeps.bootOn
    | with_reducible apply Keeps.enrol
    | with_reducible apply Keeps.findDimms
    | with_reducible apply Keeps.note
    | with_reducible apply Keeps.profileCkr
    | with_reducible apply Keeps.profileSelect
    | with_reducible apply Keeps.when
    | with_reducible apply Keeps.wr
    | with_reducible (refine Keeps.foldl _ ?_ (fun _ _ _ => ?_))
    | with_reducible (refine Keeps.foldlSnd _ ?_ (fun _ _ _ => ?_))
    | with_reducible (refine Keeps.foldlSnd2 _ ?_ (fun _ _ _ => ?_))
    | (fail_if_no_progress (with_reducible (refine Keeps.lit ?_ rfl rfl rfl)))
    | (intro x; refine Keeps.cut (r := r) x ?_ (fun _ => ?_) <;> [subst x; clear_value x])
    | (intro (x : _ × State); refine Keeps.cut (r := r) x.2 ?_ (fun _ => ?_) <;> [subst x; clear_value x])
    | (intro x; clear_value x)
    | with_reducible (refine Keeps.ite ?_ ?_)
    | split
    | lift_lets
    | with_reducible (refine Keeps.ofSnd (by assumption) ?_)
    | with_reducible (refine Keeps.ofSnd2 (by assumption) ?_)
    | intro

theorem Keeps.bootSlot {r s : State} (h : Keeps r s) kind slot :
    Keeps r (State.bootSlot s kind slot) := by
  unfold State.bootSlot
  repeat' first
    | with_reducible assumption
    | with_reducible apply Keeps.wr
    | (fail_if_no_progress (with_reducible (refine Keeps.lit ?_ rfl rfl rfl)))
    | with_reducible (refine Keeps.ite ?_ ?_)
    | split

theorem Keeps.dieRelease {r s : State} (h : Keeps r s) n :
    Keeps r (State.dieRelease s n) := by
  unfold State.dieRelease
  repeat' first
    | with_reducible assumption
    | with_reducible apply Keeps.enqueue
    | with_reducible apply Keeps.recordWake
    | with_reducible (refine Keeps.foldl _ ?_ (fun _ _ _ => ?_))
    | with_reducible (refine Keeps.foldlSnd _ ?_ (fun _ _ _ => ?_))
    | with_reducible (refine Keeps.foldlSnd2 _ ?_ (fun _ _ _ => ?_))
    | (fail_if_no_progress (with_reducible (refine Keeps.lit ?_ rfl rfl rfl)))
    | (intro x; refine Keeps.cut (r := r) x ?_ (fun _ => ?_) <;> [subst x; clear_value x])
    | (intro (x : _ × State); refine Keeps.cut (r := r) x.2 ?_ (fun _ => ?_) <;> [subst x; clear_value x])
    | (intro x; clear_value x)
    | with_reducible (refine Keeps.ite ?_ ?_)
    | split
    | lift_lets
    | with_reducible (refine Keeps.ofSnd (by assumption) ?_)
    | with_reducible (refine Keeps.ofSnd2 (by assumption) ?_)
    | intro

theorem Keeps.placeBytes {r s : State} (h : Keeps r s) pa l :
    Keeps r (State.placeBytes s pa l) := by
  unfold State.placeBytes
  repeat' first
    | with_reducible assumption
    | with_reducible apply Keeps.memSet
    | with_reducible (refine Keeps.foldl _ ?_ (fun _ _ _ => ?_))
    | with_reducible (refine Keeps.foldlSnd _ ?_ (fun _ _ _ => ?_))
    | with_reducible (refine Keeps.foldlSnd2 _ ?_ (fun _ _ _ => ?_))
    | (fail_if_no_progress (with_reducible (refine Keeps.lit ?_ rfl rfl rfl)))
    | (intro x; refine Keeps.cut (r := r) x ?_ (fun _ => ?_) <;> [subst x; clear_value x])
    | (intro (x : _ × State); refine Keeps.cut (r := r) x.2 ?_ (fun _ => ?_) <;> [subst x; clear_value x])
    | (intro x; clear_value x)
    | with_reducible (refine Keeps.ite ?_ ?_)
    | split
    | lift_lets
    | with_reducible (refine Keeps.ofSnd (by assumption) ?_)
    | with_reducible (refine Keeps.ofSnd2 (by assumption) ?_)
    | intro

theorem Keeps.takeMeasurements {r s : State} (h : Keeps r s) :
    Keeps r (State.takeMeasurements s) :=
  Keeps.lit h rfl rfl rfl

theorem Keeps.enterStage {r s : State} (h : Keeps r s) kind img slot :
    Keeps r (State.enterStage s kind img slot) := by
  unfold State.enterStage
  repeat' first
    | with_reducible assumption
    | with_reducible apply Keeps.applySecurity
    | with_reducible apply Keeps.bootSlot
    | with_reducible apply Keeps.ledgerLoad
    | with_reducible apply Keeps.placeBytes
    | with_reducible apply Keeps.profileRest
    | with_reducible apply Keeps.takeMeasurements
    | with_reducible apply Keeps.wr
    | (fail_if_no_progress (with_reducible (refine Keeps.lit ?_ rfl rfl rfl)))
    | with_reducible (refine Keeps.ite ?_ ?_)
    | split

theorem Keeps.fwWrite {r s : State} (h : Keeps r s) r' :
    Keeps r (State.fwWrite s r') := by
  unfold State.fwWrite
  repeat' first
    | with_reducible assumption
    | with_reducible apply Keeps.cmdRead
    | with_reducible apply Keeps.finish
    | with_reducible apply Keeps.imgVerify
    | with_reducible apply Keeps.setSlot
    | with_reducible (refine Keeps.foldl _ ?_ (fun _ _ _ => ?_))
    | with_reducible (refine Keeps.foldlSnd _ ?_ (fun _ _ _ => ?_))
    | with_reducible (refine Keeps.foldlSnd2 _ ?_ (fun _ _ _ => ?_))
    | (fail_if_no_progress (with_reducible (refine Keeps.lit ?_ rfl rfl rfl)))
    | (intro x; refine Keeps.cut (r := r) x ?_ (fun _ => ?_) <;> [subst x; clear_value x])
    | (intro (x : _ × State); refine Keeps.cut (r := r) x.2 ?_ (fun _ => ?_) <;> [subst x; clear_value x])
    | (intro x; clear_value x)
    | with_reducible (refine Keeps.ite ?_ ?_)
    | split
    | lift_lets
    | with_reducible (refine Keeps.ofSnd (by assumption) ?_)
    | with_reducible (refine Keeps.ofSnd2 (by assumption) ?_)
    | intro

theorem Keeps.idle {r s : State} (h : Keeps r s) :
    Keeps r (State.idle s) := by
  unfold State.idle
  repeat' first
    | with_reducible assumption
    | with_reducible apply Keeps.rootTick
    | with_reducible apply Keeps.warmReset
    | (fail_if_no_progress (with_reducible (refine Keeps.lit ?_ rfl rfl rfl)))
    | with_reducible (refine Keeps.ite ?_ ?_)
    | split

theorem Keeps.pushTransfer {r s : State} (h : Keeps r s) off total data :
    Keeps r (State.pushTransfer s off total data) := by
  unfold State.pushTransfer
  repeat' first
    | with_reducible assumption
    | with_reducible apply Keeps.enterStage
    | with_reducible apply Keeps.imgRejected
    | (fail_if_no_progress (with_reducible (refine Keeps.lit ?_ rfl rfl rfl)))
    | with_reducible (refine Keeps.ite ?_ ?_)
    | split

theorem Keeps.recovery {r s : State} (h : Keeps r s) kind :
    Keeps r (State.recovery s kind) := by
  unfold State.recovery
  repeat' first
    | with_reducible assumption
    | with_reducible apply Keeps.raise
    | with_reducible apply Keeps.wr
    | (fail_if_no_progress (with_reducible (refine Keeps.lit ?_ rfl rfl rfl)))
    | with_reducible (refine Keeps.ite ?_ ?_)
    | split

theorem Keeps.selectSlot {r s : State} (h : Keeps r s) kind :
    Keeps r (State.selectSlot s kind).2 := by
  unfold State.selectSlot
  repeat' first
    | with_reducible assumption
    | with_reducible apply Keeps.imgVerify
    | with_reducible apply Keeps.raise
    | with_reducible apply Keeps.setSlot
    | with_reducible (refine Keeps.foldl _ ?_ (fun _ _ _ => ?_))
    | with_reducible (refine Keeps.foldlSnd _ ?_ (fun _ _ _ => ?_))
    | with_reducible (refine Keeps.foldlSnd2 _ ?_ (fun _ _ _ => ?_))
    | (fail_if_no_progress (with_reducible (refine Keeps.lit ?_ rfl rfl rfl)))
    | (intro x; refine Keeps.cut (r := r) x ?_ (fun _ => ?_) <;> [subst x; clear_value x])
    | (intro (x : _ × State); refine Keeps.cut (r := r) x.2 ?_ (fun _ => ?_) <;> [subst x; clear_value x])
    | (intro (x : _ → State); subst x; beta_reduce)
    | (intro (x : _ → _ → State); subst x; beta_reduce)
    | (intro (x : _ → _ × State); subst x; beta_reduce)
    | (intro (x : _ → _ → _ × State); subst x; beta_reduce)
    | (intro (x : MemState); subst x)
    | (intro x; clear_value x)
    | with_reducible (refine Keeps.ite ?_ ?_)
    | split
    | lift_lets
    | with_reducible (refine Keeps.ofSnd (by assumption) ?_)
    | with_reducible (refine Keeps.ofSnd2 (by assumption) ?_)
    | intro

theorem Keeps.stageVerify {r s : State} (h : Keeps r s) :
    Keeps r (State.stageVerify s) := by
  unfold State.stageVerify
  repeat' first
    | with_reducible assumption
    | with_reducible apply Keeps.enterStage
    | with_reducible apply Keeps.recovery
    | with_reducible apply Keeps.selectSlot
    | with_reducible (refine Keeps.foldl _ ?_ (fun _ _ _ => ?_))
    | with_reducible (refine Keeps.foldlSnd _ ?_ (fun _ _ _ => ?_))
    | with_reducible (refine Keeps.foldlSnd2 _ ?_ (fun _ _ _ => ?_))
    | (fail_if_no_progress (with_reducible (refine Keeps.lit ?_ rfl rfl rfl)))
    | (intro x; refine Keeps.cut (r := r) x ?_ (fun _ => ?_) <;> [subst x; clear_value x])
    | (intro (x : _ × State); refine Keeps.cut (r := r) x.2 ?_ (fun _ => ?_) <;> [subst x; clear_value x])
    | (intro x; clear_value x)
    | with_reducible (refine Keeps.ite ?_ ?_)
    | split
    | lift_lets
    | with_reducible (refine Keeps.ofSnd (by assumption) ?_)
    | with_reducible (refine Keeps.ofSnd2 (by assumption) ?_)
    | intro

theorem Keeps.warmCmd {r s : State} (h : Keeps r s) r' :
    Keeps r (State.warmCmd s r') := by
  unfold State.warmCmd
  repeat' first
    | with_reducible assumption
    | with_reducible apply Keeps.finish
    | with_reducible apply Keeps.wr
    | (fail_if_no_progress (with_reducible (refine Keeps.lit ?_ rfl rfl rfl)))
    | with_reducible (refine Keeps.ite ?_ ?_)
    | split

theorem Keeps.inL2 {r s : State} (h : Keeps r s) k line kind op :
    Keeps r (State.inL2 s k line kind op) := by
  unfold State.inL2
  repeat' first
    | with_reducible assumption
    | with_reducible apply Keeps.accessLine
    | with_reducible apply Keeps.drainAll
    | with_reducible (refine Keeps.when ?_ _ _ (fun _ _ => ?_))
    | with_reducible apply Keeps.inc
    | with_reducible apply Keeps.l2Ask
    | with_reducible apply Keeps.missWaits
    | with_reducible apply Keeps.setHart
    | (fail_if_no_progress (with_reducible (refine Keeps.lit ?_ rfl rfl rfl)))
    | with_reducible (refine Keeps.ite ?_ ?_)
    | split

theorem Keeps.target {r s : State} (h : Keeps r s) k a va size kinds :
    Keeps r (State.target s k a va size kinds).2 := by
  unfold State.target
  repeat' first
    | with_reducible assumption
    | with_reducible apply Keeps.countDenial
    | with_reducible apply Keeps.translate
    | with_reducible (refine Keeps.foldl _ ?_ (fun _ _ _ => ?_))
    | with_reducible (refine Keeps.foldlSnd _ ?_ (fun _ _ _ => ?_))
    | with_reducible (refine Keeps.foldlSnd2 _ ?_ (fun _ _ _ => ?_))
    | (fail_if_no_progress (with_reducible (refine Keeps.lit ?_ rfl rfl rfl)))
    | (intro x; refine Keeps.cut (r := r) x ?_ (fun _ => ?_) <;> [subst x; clear_value x])
    | (intro (x : _ × State); refine Keeps.cut (r := r) x.2 ?_ (fun _ => ?_) <;> [subst x; clear_value x])
    | (intro x; clear_value x)
    | with_reducible (refine Keeps.ite ?_ ?_)
    | split
    | lift_lets
    | with_reducible (refine Keeps.ofSnd (by assumption) ?_)
    | with_reducible (refine Keeps.ofSnd2 (by assumption) ?_)
    | intro

theorem Keeps.l2Only {r s : State} (h : Keeps r s) k a va size kinds i (f : Nat → State → State) (hf : ∀ n t, Keeps r t → Keeps r (f n t)) : Keeps r (State.l2Only s k a va size kinds i f) := by
  unfold State.l2Only
  repeat' first
    | with_reducible assumption
    | with_reducible apply Keeps.exception
    | with_reducible apply Keeps.target
    | with_reducible apply hf
    | with_reducible (refine Keeps.foldl _ ?_ (fun _ _ _ => ?_))
    | with_reducible (refine Keeps.foldlSnd _ ?_ (fun _ _ _ => ?_))
    | with_reducible (refine Keeps.foldlSnd2 _ ?_ (fun _ _ _ => ?_))
    | (fail_if_no_progress (with_reducible (refine Keeps.lit ?_ rfl rfl rfl)))
    | (intro x; refine Keeps.cut (r := r) x ?_ (fun _ => ?_) <;> [subst x; clear_value x])
    | (intro (x : _ × State); refine Keeps.cut (r := r) x.2 ?_ (fun _ => ?_) <;> [subst x; clear_value x])
    | (intro (x : _ → State); subst x; beta_reduce)
    | (intro (x : _ → _ → State); subst x; beta_reduce)
    | (intro (x : _ → _ × State); subst x; beta_reduce)
    | (intro (x : _ → _ → _ × State); subst x; beta_reduce)
    | (intro (x : MemState); subst x)
    | (intro x; clear_value x)
    | with_reducible (refine Keeps.ite ?_ ?_)
    | split
    | lift_lets
    | with_reducible (refine Keeps.ofSnd (by assumption) ?_)
    | with_reducible (refine Keeps.ofSnd2 (by assumption) ?_)
    | intro

theorem Keeps.amo {r s : State} (h : Keeps r s) k op va size v rd i :
    Keeps r (State.amo s k op va size v rd i) := by
  unfold State.amo
  repeat' first
    | with_reducible assumption
    | with_reducible apply Keeps.illegal
    | with_reducible apply Keeps.inL2
    | with_reducible apply Keeps.l2Only
    | with_reducible (refine Keeps.foldl _ ?_ (fun _ _ _ => ?_))
    | with_reducible (refine Keeps.foldlSnd _ ?_ (fun _ _ _ => ?_))
    | with_reducible (refine Keeps.foldlSnd2 _ ?_ (fun _ _ _ => ?_))
    | (fail_if_no_progress (with_reducible (refine Keeps.lit ?_ rfl rfl rfl)))
    | (intro x; refine Keeps.cut (r := r) x ?_ (fun _ => ?_) <;> [subst x; clear_value x])
    | (intro (x : _ × State); refine Keeps.cut (r := r) x.2 ?_ (fun _ => ?_) <;> [subst x; clear_value x])
    | (intro x; clear_value x)
    | with_reducible (refine Keeps.ite ?_ ?_)
    | split
    | lift_lets
    | with_reducible (refine Keeps.ofSnd (by assumption) ?_)
    | with_reducible (refine Keeps.ofSnd2 (by assumption) ?_)
    | intro

theorem Keeps.coreFence {r s : State} (h : Keeps r s) k pc pred :
    Keeps r (State.coreFence s k pc pred) := by
  unfold State.coreFence
  repeat' first
    | with_reducible assumption
    | with_reducible apply Keeps.drainAll
    | with_reducible apply Keeps.retire
    | (fail_if_no_progress (with_reducible (refine Keeps.lit ?_ rfl rfl rfl)))
    | with_reducible (refine Keeps.ite ?_ ?_)
    | split

theorem Keeps.drainOver {r s : State} (h : Keeps r s) k pa size :
    Keeps r (State.drainOver s k pa size) := by
  unfold State.drainOver
  repeat' first
    | with_reducible assumption
    | with_reducible apply Keeps.drainOne
    | with_reducible (refine Keeps.foldl _ ?_ (fun _ _ _ => ?_))
    | with_reducible (refine Keeps.foldlSnd _ ?_ (fun _ _ _ => ?_))
    | with_reducible (refine Keeps.foldlSnd2 _ ?_ (fun _ _ _ => ?_))
    | (fail_if_no_progress (with_reducible (refine Keeps.lit ?_ rfl rfl rfl)))
    | (intro x; refine Keeps.cut (r := r) x ?_ (fun _ => ?_) <;> [subst x; clear_value x])
    | (intro (x : _ × State); refine Keeps.cut (r := r) x.2 ?_ (fun _ => ?_) <;> [subst x; clear_value x])
    | (intro x; clear_value x)
    | with_reducible (refine Keeps.ite ?_ ?_)
    | split
    | lift_lets
    | with_reducible (refine Keeps.ofSnd (by assumption) ?_)
    | with_reducible (refine Keeps.ofSnd2 (by assumption) ?_)
    | intro

theorem Keeps.fenceI {r s : State} (h : Keeps r s) k pc :
    Keeps r (State.fenceI s k pc) := by
  unfold State.fenceI
  repeat' first
    | with_reducible assumption
    | with_reducible apply Keeps.drainAll
    | with_reducible apply Keeps.retire
    | with_reducible apply Keeps.setHart
    | (fail_if_no_progress (with_reducible (refine Keeps.lit ?_ rfl rfl rfl)))
    | with_reducible (refine Keeps.ite ?_ ?_)
    | split

theorem Keeps.loadLine {r s : State} (h : Keeps r s) k pa op fetch :
    Keeps r (State.loadLine s k pa op fetch) := by
  unfold State.loadLine
  repeat' first
    | with_reducible assumption
    | with_reducible apply Keeps.accessLine
    | with_reducible apply Keeps.inc
    | with_reducible apply Keeps.l2Ask
    | with_reducible apply Keeps.perf
    | with_reducible apply Keeps.send
    | with_reducible apply Keeps.setHart
    | with_reducible apply Keeps.setLine
    | (fail_if_no_progress (with_reducible (refine Keeps.lit ?_ rfl rfl rfl)))
    | with_reducible (refine Keeps.ite ?_ ?_)
    | split

theorem Keeps.fetchMemory {r s : State} (h : Keeps r s) k pa size i :
    Keeps r (State.fetchMemory s k pa size i) := by
  unfold State.fetchMemory
  repeat' first
    | with_reducible assumption
    | with_reducible apply Keeps.loadDone
    | with_reducible apply Keeps.loadLine
    | with_reducible apply Keeps.markRead
    | (fail_if_no_progress (with_reducible (refine Keeps.lit ?_ rfl rfl rfl)))
    | with_reducible (refine Keeps.ite ?_ ?_)
    | split

theorem Keeps.guestAccess {r s : State} (h : Keeps r s) g a m :
    Keeps r (State.guestAccess s g a m) := by
  unfold State.guestAccess
  repeat' first
    | with_reducible assumption
    | with_reducible apply Keeps.setGuest
    | with_reducible apply Keeps.toGuest
    | (fail_if_no_progress (with_reducible (refine Keeps.lit ?_ rfl rfl rfl)))
    | with_reducible (refine Keeps.ite ?_ ?_)
    | split

theorem Keeps.guestTag {r s : State} (h : Keeps r s) g :
    Keeps r (State.guestTag s g).2 :=
  Keeps.lit h rfl rfl rfl

theorem Keeps.holdDoorbell {r s : State} (h : Keeps r s) k pa v next :
    Keeps r (State.holdDoorbell s k pa v next) := by
  unfold State.holdDoorbell
  repeat' first
    | with_reducible assumption
    | with_reducible apply Keeps.onProof
    | with_reducible apply Keeps.proofAbort
    | with_reducible apply Keeps.raise
    | with_reducible apply Keeps.retire
    | with_reducible apply Keeps.wr
    | (fail_if_no_progress (with_reducible (refine Keeps.lit ?_ rfl rfl rfl)))
    | with_reducible (refine Keeps.ite ?_ ?_)
    | split

theorem Keeps.loadGuest {r s : State} (h : Keeps r s) k g pa size sext dst i :
    Keeps r (State.loadGuest s k g pa size sext dst i) := by
  unfold State.loadGuest
  repeat' first
    | with_reducible assumption
    | with_reducible apply Keeps.exception
    | with_reducible apply Keeps.guestAccess
    | with_reducible apply Keeps.guestTag
    | with_reducible apply Keeps.setHart
    | (fail_if_no_progress (with_reducible (refine Keeps.lit ?_ rfl rfl rfl)))
    | with_reducible (refine Keeps.ite ?_ ?_)
    | split

theorem Keeps.loadHost {r s : State} (h : Keeps r s) k pa size sext dst i :
    Keeps r (State.loadHost s k pa size sext dst i) := by
  unfold State.loadHost
  repeat' first
    | with_reducible assumption
    | with_reducible apply Keeps.coreDma
    | with_reducible apply Keeps.setHart
    | (fail_if_no_progress (with_reducible (refine Keeps.lit ?_ rfl rfl rfl)))
    | with_reducible (refine Keeps.ite ?_ ?_)
    | split

theorem Keeps.loadRegs {r s : State} (h : Keeps r s) k off size sext dst next :
    Keeps r (State.loadRegs s k off size sext dst next) := by
  unfold State.loadRegs
  repeat' first
    | with_reducible assumption
    | with_reducible apply Keeps.regRead
    | with_reducible apply Keeps.retire
    | with_reducible apply Keeps.setHart
    | (fail_if_no_progress (with_reducible (refine Keeps.lit ?_ rfl rfl rfl)))
    | with_reducible (refine Keeps.ite ?_ ?_)
    | split

theorem Keeps.loadIo {r s : State} (h : Keeps r s) k pa size sext dst i :
    Keeps r (State.loadIo s k pa size sext dst i) := by
  unfold State.loadIo
  repeat' first
    | with_reducible assumption
    | with_reducible apply Keeps.exception
    | with_reducible apply Keeps.loadGuest
    | with_reducible apply Keeps.loadHost
    | with_reducible apply Keeps.loadRegs
    | with_reducible apply Keeps.proofAbort
    | (fail_if_no_progress (with_reducible (refine Keeps.lit ?_ rfl rfl rfl)))
    | with_reducible (refine Keeps.ite ?_ ?_)
    | split

theorem Keeps.loadMemory {r s : State} (h : Keeps r s) k pa size sext dst i :
    Keeps r (State.loadMemory s k pa size sext dst i) := by
  unfold State.loadMemory
  repeat' first
    | with_reducible assumption
    | with_reducible apply Keeps.drainOver
    | with_reducible apply Keeps.loadDone
    | with_reducible apply Keeps.loadLine
    | with_reducible apply Keeps.markRead
    | with_reducible apply Keeps.retire
    | with_reducible apply Keeps.setHart
    | (fail_if_no_progress (with_reducible (refine Keeps.lit ?_ rfl rfl rfl)))
    | with_reducible (refine Keeps.ite ?_ ?_)
    | split

theorem Keeps.load {r s : State} (h : Keeps r s) k va size sext dst i :
    Keeps r (State.load s k va size sext dst i) := by
  unfold State.load
  repeat' first
    | with_reducible assumption
    | with_reducible apply Keeps.exception
    | with_reducible apply Keeps.fetchMemory
    | with_reducible apply Keeps.illegal
    | with_reducible apply Keeps.loadIo
    | with_reducible apply Keeps.loadMemory
    | with_reducible apply Keeps.target
    | with_reducible (refine Keeps.foldl _ ?_ (fun _ _ _ => ?_))
    | with_reducible (refine Keeps.foldlSnd _ ?_ (fun _ _ _ => ?_))
    | with_reducible (refine Keeps.foldlSnd2 _ ?_ (fun _ _ _ => ?_))
    | (fail_if_no_progress (with_reducible (refine Keeps.lit ?_ rfl rfl rfl)))
    | (intro x; refine Keeps.cut (r := r) x ?_ (fun _ => ?_) <;> [subst x; clear_value x])
    | (intro (x : _ × State); refine Keeps.cut (r := r) x.2 ?_ (fun _ => ?_) <;> [subst x; clear_value x])
    | (intro x; clear_value x)
    | with_reducible (refine Keeps.ite ?_ ?_)
    | split
    | lift_lets
    | with_reducible (refine Keeps.ofSnd (by assumption) ?_)
    | with_reducible (refine Keeps.ofSnd2 (by assumption) ?_)
    | intro

theorem Keeps.lr {r s : State} (h : Keeps r s) k va size rd i :
    Keeps r (State.lr s k va size rd i) := by
  unfold State.lr
  repeat' first
    | with_reducible assumption
    | with_reducible apply Keeps.inL2
    | with_reducible apply Keeps.l2Only
    | with_reducible (refine Keeps.foldl _ ?_ (fun _ _ _ => ?_))
    | with_reducible (refine Keeps.foldlSnd _ ?_ (fun _ _ _ => ?_))
    | with_reducible (refine Keeps.foldlSnd2 _ ?_ (fun _ _ _ => ?_))
    | (fail_if_no_progress (with_reducible (refine Keeps.lit ?_ rfl rfl rfl)))
    | (intro x; refine Keeps.cut (r := r) x ?_ (fun _ => ?_) <;> [subst x; clear_value x])
    | (intro (x : _ × State); refine Keeps.cut (r := r) x.2 ?_ (fun _ => ?_) <;> [subst x; clear_value x])
    | (intro x; clear_value x)
    | with_reducible (refine Keeps.ite ?_ ?_)
    | split
    | lift_lets
    | with_reducible (refine Keeps.ofSnd (by assumption) ?_)
    | with_reducible (refine Keeps.ofSnd2 (by assumption) ?_)
    | intro

theorem Keeps.scTarget {r s : State} (h : Keeps r s) k pa size v rd i :
    Keeps r (State.scTarget s k pa size v rd i) := by
  unfold State.scTarget
  repeat' first
    | with_reducible assumption
    | with_reducible apply Keeps.drainAll
    | with_reducible apply Keeps.inL2
    | with_reducible apply Keeps.scDone
    | (fail_if_no_progress (with_reducible (refine Keeps.lit ?_ rfl rfl rfl)))
    | with_reducible (refine Keeps.ite ?_ ?_)
    | split

theorem Keeps.sc {r s : State} (h : Keeps r s) k va size v rd i :
    Keeps r (State.sc s k va size v rd i) := by
  unfold State.sc
  repeat' first
    | with_reducible assumption
    | with_reducible apply Keeps.l2Only
    | with_reducible apply Keeps.scTarget
    | with_reducible (refine Keeps.foldl _ ?_ (fun _ _ _ => ?_))
    | with_reducible (refine Keeps.foldlSnd _ ?_ (fun _ _ _ => ?_))
    | with_reducible (refine Keeps.foldlSnd2 _ ?_ (fun _ _ _ => ?_))
    | (fail_if_no_progress (with_reducible (refine Keeps.lit ?_ rfl rfl rfl)))
    | (intro x; refine Keeps.cut (r := r) x ?_ (fun _ => ?_) <;> [subst x; clear_value x])
    | (intro (x : _ × State); refine Keeps.cut (r := r) x.2 ?_ (fun _ => ?_) <;> [subst x; clear_value x])
    | (intro x; clear_value x)
    | with_reducible (refine Keeps.ite ?_ ?_)
    | split
    | lift_lets
    | with_reducible (refine Keeps.ofSnd (by assumption) ?_)
    | with_reducible (refine Keeps.ofSnd2 (by assumption) ?_)
    | intro

theorem Keeps.storeGuest {r s : State} (h : Keeps r s) k g pa size v i :
    Keeps r (State.storeGuest s k g pa size v i) := by
  unfold State.storeGuest
  repeat' first
    | with_reducible assumption
    | with_reducible apply Keeps.exception
    | with_reducible apply Keeps.guestAccess
    | with_reducible apply Keeps.guestTag
    | with_reducible apply Keeps.retire
    | (fail_if_no_progress (with_reducible (refine Keeps.lit ?_ rfl rfl rfl)))
    | with_reducible (refine Keeps.ite ?_ ?_)
    | split

theorem Keeps.storeHost {r s : State} (h : Keeps r s) k pa size v i :
    Keeps r (State.storeHost s k pa size v i) := by
  unfold State.storeHost
  repeat' first
    | with_reducible assumption
    | with_reducible apply Keeps.dmaWrite
    | with_reducible apply Keeps.retire
    | with_reducible apply Keeps.setHart
    | with_reducible apply Keeps.xlatRange
    | (fail_if_no_progress (with_reducible (refine Keeps.lit ?_ rfl rfl rfl)))
    | with_reducible (refine Keeps.ite ?_ ?_)
    | split

theorem Keeps.storeIo {r s : State} (h : Keeps r s) k pa size v i :
    Keeps r (State.storeIo s k pa size v i) := by
  unfold State.storeIo
  repeat' first
    | with_reducible assumption
    | with_reducible apply Keeps.exception
    | with_reducible apply Keeps.holdDoorbell
    | with_reducible apply Keeps.proofAbort
    | with_reducible apply Keeps.retire
    | with_reducible apply Keeps.spaceWrite
    | with_reducible apply Keeps.storeGuest
    | with_reducible apply Keeps.storeHost
    | (fail_if_no_progress (with_reducible (refine Keeps.lit ?_ rfl rfl rfl)))
    | with_reducible (refine Keeps.ite ?_ ?_)
    | split

theorem Keeps.storeMemory {r s : State} (h : Keeps r s) k pa size v next :
    Keeps r (State.storeMemory s k pa size v next) := by
  unfold State.storeMemory
  repeat' first
    | with_reducible assumption
    | with_reducible apply Keeps.drainOne
    | with_reducible apply Keeps.retire
    | with_reducible apply Keeps.setHart
    | (fail_if_no_progress (with_reducible (refine Keeps.lit ?_ rfl rfl rfl)))
    | with_reducible (refine Keeps.ite ?_ ?_)
    | split

theorem Keeps.store {r s : State} (h : Keeps r s) k va size v i :
    Keeps r (State.store s k va size v i) := by
  unfold State.store
  repeat' first
    | with_reducible assumption
    | with_reducible apply Keeps.exception
    | with_reducible apply Keeps.storeIo
    | with_reducible apply Keeps.storeMemory
    | with_reducible apply Keeps.target
    | with_reducible (refine Keeps.foldl _ ?_ (fun _ _ _ => ?_))
    | with_reducible (refine Keeps.foldlSnd _ ?_ (fun _ _ _ => ?_))
    | with_reducible (refine Keeps.foldlSnd2 _ ?_ (fun _ _ _ => ?_))
    | (fail_if_no_progress (with_reducible (refine Keeps.lit ?_ rfl rfl rfl)))
    | (intro x; refine Keeps.cut (r := r) x ?_ (fun _ => ?_) <;> [subst x; clear_value x])
    | (intro (x : _ × State); refine Keeps.cut (r := r) x.2 ?_ (fun _ => ?_) <;> [subst x; clear_value x])
    | (intro x; clear_value x)
    | with_reducible (refine Keeps.ite ?_ ?_)
    | split
    | lift_lets
    | with_reducible (refine Keeps.ofSnd (by assumption) ?_)
    | with_reducible (refine Keeps.ofSnd2 (by assumption) ?_)
    | intro

theorem Keeps.accData {r s : State} (h : Keeps r s) v :
    Keeps r (State.accData s v) := by
  unfold State.accData
  repeat' first
    | with_reducible assumption
    | with_reducible apply Keeps.accEnd
    | with_reducible apply Keeps.wr
    | (fail_if_no_progress (with_reducible (refine Keeps.lit ?_ rfl rfl rfl)))
    | with_reducible (refine Keeps.ite ?_ ?_)
    | split

theorem Keeps.accMemory {r s : State} (h : Keeps r s) a addr n :
    Keeps r (State.accMemory s a addr n) := by
  unfold State.accMemory
  repeat' first
    | with_reducible assumption
    | with_reducible apply Keeps.accData
    | with_reducible apply Keeps.accEnd
    | with_reducible apply Keeps.devRead
    | with_reducible apply Keeps.devWrite
    | with_reducible apply Keeps.wr
    | with_reducible (refine Keeps.foldl _ ?_ (fun _ _ _ => ?_))
    | with_reducible (refine Keeps.foldlSnd _ ?_ (fun _ _ _ => ?_))
    | with_reducible (refine Keeps.foldlSnd2 _ ?_ (fun _ _ _ => ?_))
    | (fail_if_no_progress (with_reducible (refine Keeps.lit ?_ rfl rfl rfl)))
    | (intro x; refine Keeps.cut (r := r) x ?_ (fun _ => ?_) <;> [subst x; clear_value x])
    | (intro (x : _ × State); refine Keeps.cut (r := r) x.2 ?_ (fun _ => ?_) <;> [subst x; clear_value x])
    | (intro x; clear_value x)
    | with_reducible (refine Keeps.ite ?_ ?_)
    | split
    | lift_lets
    | with_reducible (refine Keeps.ofSnd (by assumption) ?_)
    | with_reducible (refine Keeps.ofSnd2 (by assumption) ?_)
    | intro

theorem Keeps.accRegs {r s : State} (h : Keeps r s) a off n :
    Keeps r (State.accRegs s a off n) := by
  unfold State.accRegs
  repeat' first
    | with_reducible assumption
    | with_reducible apply Keeps.accData
    | with_reducible apply Keeps.accEnd
    | with_reducible apply Keeps.regRead
    | with_reducible apply Keeps.spaceWrite
    | (fail_if_no_progress (with_reducible (refine Keeps.lit ?_ rfl rfl rfl)))
    | with_reducible (refine Keeps.ite ?_ ?_)
    | split

theorem Keeps.accGo {r s : State} (h : Keeps r s) a :
    Keeps r (State.accGo s a) := by
  unfold State.accGo
  repeat' first
    | with_reducible assumption
    | with_reducible apply Keeps.accEnd
    | with_reducible apply Keeps.accMemory
    | with_reducible apply Keeps.accRegs
    | with_reducible apply Keeps.countDenial
    | (fail_if_no_progress (with_reducible (refine Keeps.lit ?_ rfl rfl rfl)))
    | (intro x; refine Keeps.cut (r := r) x ?_ (fun _ => ?_) <;> [subst x; clear_value x])
    | (intro (x : _ × State); refine Keeps.cut (r := r) x.2 ?_ (fun _ => ?_) <;> [subst x; clear_value x])
    | (intro x; clear_value x)
    | with_reducible (refine Keeps.ite ?_ ?_)
    | split
    | lift_lets

theorem Keeps.accDone {r s : State} (h : Keeps r s) :
    Keeps r (State.accDone s) := by
  unfold State.accDone
  repeat' first
    | with_reducible assumption
    | with_reducible apply Keeps.accEnd
    | with_reducible apply Keeps.accGo
    | (fail_if_no_progress (with_reducible (refine Keeps.lit ?_ rfl rfl rfl)))
    | with_reducible (refine Keeps.ite ?_ ?_)
    | split

theorem Keeps.dbgReg {r s : State} (h : Keeps r s) dr :
    Keeps r (State.dbgReg s dr) := by
  unfold State.dbgReg
  repeat' first
    | with_reducible assumption
    | with_reducible apply Keeps.regRead
    | with_reducible apply Keeps.regWrite
    | (fail_if_no_progress (with_reducible (refine Keeps.lit ?_ rfl rfl rfl)))
    | with_reducible (refine Keeps.ite ?_ ?_)
    | split

theorem Keeps.dieIr {r s : State} (h : Keeps r s) die ir :
    Keeps r (State.dieIr s die ir) := by
  unfold State.dieIr
  repeat' first
    | with_reducible assumption
    | (fail_if_no_progress (with_reducible (refine Keeps.lit ?_ rfl rfl rfl)))
    | with_reducible (refine Keeps.ite ?_ ?_)
    | split

theorem Keeps.leaveTest {r s : State} (h : Keeps r s) :
    Keeps r (State.leaveTest s) := by
  unfold State.leaveTest
  repeat' first
    | with_reducible assumption
    | with_reducible apply Keeps.warmReset
    | (fail_if_no_progress (with_reducible (refine Keeps.lit ?_ rfl rfl rfl)))
    | with_reducible (refine Keeps.ite ?_ ?_)
    | split

theorem Keeps.hubIr {r s : State} (h : Keeps r s) ir :
    Keeps r (State.hubIr s ir) := by
  unfold State.hubIr
  repeat' first
    | with_reducible assumption
    | with_reducible apply Keeps.leaveTest
    | with_reducible apply Keeps.raise
    | (fail_if_no_progress (with_reducible (refine Keeps.lit ?_ rfl rfl rfl)))
    | with_reducible (refine Keeps.ite ?_ ?_)
    | split

theorem Keeps.tapReset {r s : State} (h : Keeps r s) :
    Keeps r (State.tapReset s) := by
  unfold State.tapReset
  repeat' first
    | with_reducible assumption
    | with_reducible apply Keeps.leaveTest
    | with_reducible apply Keeps.wr
    | (fail_if_no_progress (with_reducible (refine Keeps.lit ?_ rfl rfl rfl)))
    | with_reducible (refine Keeps.ite ?_ ?_)
    | split


end Sys2Proof.Machine
end

