-- ==== Sys2Proof/Laws/KeepsExecA.lean ====
section
/-!
SUPPORT. Each command of Alern, Resets, Power, Clocks, EventCtl, Pcie, Rings, EventBuilder, Coherence, Memory, Cores,
Lanes ends in a next state that keeps the relation `Keeps` to the state it began in.
-/

set_option Elab.async false

set_option linter.all false

namespace Sys2Proof.Machine

theorem Keeps.execAlernLaneLockLoss (s : State) lp lane :
    ∃ t, execAlernLaneLockLoss lp lane s = .next t ∧ Keeps s t := by
  refine ⟨_, rfl, ?_⟩
  repeat' first
    | exact Keeps.refl s
    | with_reducible apply Keeps.alnRetrain
    | (fail_if_no_progress (with_reducible (refine Keeps.lit ?_ rfl rfl rfl)))
    | with_reducible (refine Keeps.ite ?_ ?_)
    | split

theorem Keeps.execAlnCfgLock (s : State) src value :
    ∃ t, execAlnCfgLock src value s = .next t ∧ Keeps s t := by
  refine ⟨_, rfl, ?_⟩
  have h := Keeps.refl s
  repeat' first
    | with_reducible assumption
    | with_reducible apply Keeps.alnCfg
    | with_reducible apply Keeps.withReg
    | with_reducible (refine Keeps.foldl _ ?_ (fun _ _ _ => ?_))
    | with_reducible (refine Keeps.foldlSnd _ ?_ (fun _ _ _ => ?_))
    | with_reducible (refine Keeps.foldlSnd2 _ ?_ (fun _ _ _ => ?_))
    | (fail_if_no_progress (with_reducible (refine Keeps.lit ?_ rfl rfl rfl)))
    | (intro x; refine Keeps.cut (r := s) x ?_ (fun _ => ?_) <;> [subst x; clear_value x])
    | (intro (x : _ × State); refine Keeps.cut (r := s) x.2 ?_ (fun _ => ?_) <;> [subst x; clear_value x])
    | (intro x; clear_value x)
    | with_reducible (refine Keeps.ite ?_ ?_)
    | split
    | lift_lets
    | with_reducible (refine Keeps.ofSnd (by assumption) ?_)
    | with_reducible (refine Keeps.ofSnd2 (by assumption) ?_)
    | intro

theorem Keeps.execAlnPortEn (s : State) src n value :
    ∃ t, execAlnPortEn src n value s = .next t ∧ Keeps s t := by
  refine ⟨_, rfl, ?_⟩
  have h := Keeps.refl s
  repeat' first
    | with_reducible assumption
    | with_reducible apply Keeps.alnEn
    | with_reducible apply Keeps.withReg
    | with_reducible (refine Keeps.foldl _ ?_ (fun _ _ _ => ?_))
    | with_reducible (refine Keeps.foldlSnd _ ?_ (fun _ _ _ => ?_))
    | with_reducible (refine Keeps.foldlSnd2 _ ?_ (fun _ _ _ => ?_))
    | (fail_if_no_progress (with_reducible (refine Keeps.lit ?_ rfl rfl rfl)))
    | (intro x; refine Keeps.cut (r := s) x ?_ (fun _ => ?_) <;> [subst x; clear_value x])
    | (intro (x : _ × State); refine Keeps.cut (r := s) x.2 ?_ (fun _ => ?_) <;> [subst x; clear_value x])
    | (intro x; clear_value x)
    | with_reducible (refine Keeps.ite ?_ ?_)
    | split
    | lift_lets
    | with_reducible (refine Keeps.ofSnd (by assumption) ?_)
    | with_reducible (refine Keeps.ofSnd2 (by assumption) ?_)
    | intro

theorem Keeps.execAlnRestart (s : State) src n :
    ∃ t, execAlnRestart src n s = .next t ∧ Keeps s t := by
  refine ⟨_, rfl, ?_⟩
  have h := Keeps.refl s
  repeat' first
    | with_reducible assumption
    | with_reducible apply Keeps.alnRestart
    | with_reducible apply Keeps.withReg
    | with_reducible (refine Keeps.foldl _ ?_ (fun _ _ _ => ?_))
    | with_reducible (refine Keeps.foldlSnd _ ?_ (fun _ _ _ => ?_))
    | with_reducible (refine Keeps.foldlSnd2 _ ?_ (fun _ _ _ => ?_))
    | (fail_if_no_progress (with_reducible (refine Keeps.lit ?_ rfl rfl rfl)))
    | (intro x; refine Keeps.cut (r := s) x ?_ (fun _ => ?_) <;> [subst x; clear_value x])
    | (intro (x : _ × State); refine Keeps.cut (r := s) x.2 ?_ (fun _ => ?_) <;> [subst x; clear_value x])
    | (intro x; clear_value x)
    | with_reducible (refine Keeps.ite ?_ ?_)
    | split
    | lift_lets
    | with_reducible (refine Keeps.ofSnd (by assumption) ?_)
    | with_reducible (refine Keeps.ofSnd2 (by assumption) ?_)
    | intro

theorem Keeps.execBaseAttemptTimeout (s : State) lp signal :
    ∃ t, execBaseAttemptTimeout lp signal s = .next t ∧ Keeps s t :=
  ⟨_, rfl, Keeps.baseTimeout (Keeps.refl s) _ _⟩

theorem Keeps.execBaseFallback (s : State) lp :
    ∃ t, execBaseFallback lp s = .next t ∧ Keeps s t :=
  ⟨_, rfl, Keeps.baseFallback (Keeps.refl s) _⟩

theorem Keeps.execBaseLock (s : State) lp :
    ∃ t, execBaseLock lp s = .next t ∧ Keeps s t :=
  ⟨_, rfl, Keeps.baseLock (Keeps.refl s) _⟩

theorem Keeps.execCapabilityBlock (s : State) lp blk sig :
    ∃ t, execCapabilityBlock lp blk sig s = .next t ∧ Keeps s t :=
  ⟨_, rfl, Keeps.capBlock (Keeps.refl s) _ _ _⟩

theorem Keeps.execDieReset (s : State) n :
    ∃ t, execDieReset n s = .next t ∧ Keeps s t :=
  ⟨_, rfl, Keeps.dieReset (Keeps.refl s) _⟩

theorem Keeps.execFarSideBase (s : State) lp :
    ∃ t, execFarSideBase lp s = .next t ∧ Keeps s t :=
  ⟨_, rfl, Keeps.farSideBase (Keeps.refl s) _⟩

theorem Keeps.execFlitCrcError (s : State) lp newWindow :
    ∃ t, execFlitCrcError lp newWindow s = .next t ∧ Keeps s t :=
  ⟨_, rfl, Keeps.flitError (Keeps.refl s) _ _⟩

theorem Keeps.execIdentityCheck (s : State) :
    ∃ t, execIdentityCheck s = .next t ∧ Keeps s t :=
  ⟨_, rfl, Keeps.identityCheck (Keeps.refl s)⟩

theorem Keeps.execLaneTestDone (s : State) lp rxFail txFail :
    ∃ t, execLaneTestDone lp rxFail txFail s = .next t ∧ Keeps s t :=
  ⟨_, rfl, Keeps.laneTest (Keeps.refl s) _ _ _⟩

theorem Keeps.execMarkerCheckDone (s : State) lp ok :
    ∃ t, execMarkerCheckDone lp ok s = .next t ∧ Keeps s t :=
  ⟨_, rfl, Keeps.markerCheck (Keeps.refl s) _ _⟩

theorem Keeps.execRetrainDone (s : State) lp rxFail txFail markers :
    ∃ t, execRetrainDone lp rxFail txFail markers s = .next t ∧ Keeps s t :=
  ⟨_, rfl, Keeps.retrainDone (Keeps.refl s) _ _ _ _⟩

theorem Keeps.execRetrainRequest (s : State) lp :
    ∃ t, execRetrainRequest lp s = .next t ∧ Keeps s t :=
  ⟨_, rfl, Keeps.alnRetrain (Keeps.refl s) _⟩

theorem Keeps.execUnfence (s : State) src n :
    ∃ t, execUnfence src n s = .next t ∧ Keeps s t := by
  refine ⟨_, rfl, ?_⟩
  have h := Keeps.refl s
  repeat' first
    | with_reducible assumption
    | with_reducible apply Keeps.unfence
    | with_reducible apply Keeps.withReg
    | with_reducible (refine Keeps.foldl _ ?_ (fun _ _ _ => ?_))
    | with_reducible (refine Keeps.foldlSnd _ ?_ (fun _ _ _ => ?_))
    | with_reducible (refine Keeps.foldlSnd2 _ ?_ (fun _ _ _ => ?_))
    | (fail_if_no_progress (with_reducible (refine Keeps.lit ?_ rfl rfl rfl)))
    | (intro x; refine Keeps.cut (r := s) x ?_ (fun _ => ?_) <;> [subst x; clear_value x])
    | (intro (x : _ × State); refine Keeps.cut (r := s) x.2 ?_ (fun _ => ?_) <;> [subst x; clear_value x])
    | (intro x; clear_value x)
    | with_reducible (refine Keeps.ite ?_ ?_)
    | split
    | lift_lets
    | with_reducible (refine Keeps.ofSnd (by assumption) ?_)
    | with_reducible (refine Keeps.ofSnd2 (by assumption) ?_)
    | intro

theorem Keeps.execWidthRestore (s : State) src n :
    ∃ t, execWidthRestore src n s = .next t ∧ Keeps s t := by
  refine ⟨_, rfl, ?_⟩
  have h := Keeps.refl s
  repeat' first
    | with_reducible assumption
    | with_reducible apply Keeps.widthRestore
    | with_reducible apply Keeps.withReg
    | with_reducible (refine Keeps.foldl _ ?_ (fun _ _ _ => ?_))
    | with_reducible (refine Keeps.foldlSnd _ ?_ (fun _ _ _ => ?_))
    | with_reducible (refine Keeps.foldlSnd2 _ ?_ (fun _ _ _ => ?_))
    | (fail_if_no_progress (with_reducible (refine Keeps.lit ?_ rfl rfl rfl)))
    | (intro x; refine Keeps.cut (r := s) x ?_ (fun _ => ?_) <;> [subst x; clear_value x])
    | (intro (x : _ × State); refine Keeps.cut (r := s) x.2 ?_ (fun _ => ?_) <;> [subst x; clear_value x])
    | (intro x; clear_value x)
    | with_reducible (refine Keeps.ite ?_ ?_)
    | split
    | lift_lets
    | with_reducible (refine Keeps.ofSnd (by assumption) ?_)
    | with_reducible (refine Keeps.ofSnd2 (by assumption) ?_)
    | intro

theorem Keeps.execCkrResetCtlWarm (s : State) src :
    ∃ t, execCkrResetCtlWarm src s = .next t ∧ Keeps s t := by
  refine ⟨_, rfl, ?_⟩
  have h := Keeps.refl s
  repeat' first
    | with_reducible assumption
    | with_reducible apply Keeps.warmReset
    | with_reducible apply Keeps.withReg
    | with_reducible (refine Keeps.foldl _ ?_ (fun _ _ _ => ?_))
    | with_reducible (refine Keeps.foldlSnd _ ?_ (fun _ _ _ => ?_))
    | with_reducible (refine Keeps.foldlSnd2 _ ?_ (fun _ _ _ => ?_))
    | (fail_if_no_progress (with_reducible (refine Keeps.lit ?_ rfl rfl rfl)))
    | (intro x; refine Keeps.cut (r := s) x ?_ (fun _ => ?_) <;> [subst x; clear_value x])
    | (intro (x : _ × State); refine Keeps.cut (r := s) x.2 ?_ (fun _ => ?_) <;> [subst x; clear_value x])
    | (intro x; clear_value x)
    | with_reducible (refine Keeps.ite ?_ ?_)
    | split
    | lift_lets
    | with_reducible (refine Keeps.ofSnd (by assumption) ?_)
    | with_reducible (refine Keeps.ofSnd2 (by assumption) ?_)
    | intro

theorem Keeps.execPoresetAssert (s : State) :
    ∃ t, execPoresetAssert s = .next t ∧ Keeps s t := by
  refine ⟨_, rfl, ?_⟩
  repeat' first
    | exact Keeps.refl s
    | with_reducible apply Keeps.coldReset
    | (fail_if_no_progress (with_reducible (refine Keeps.lit ?_ rfl rfl rfl)))
    | with_reducible (refine Keeps.ite ?_ ?_)
    | split

theorem Keeps.execPoresetRelease (s : State) sel :
    ∃ t, execPoresetRelease sel s = .next t ∧ Keeps s t := by
  refine ⟨_, rfl, ?_⟩
  repeat' first
    | exact Keeps.refl s
    | with_reducible apply Keeps.wr
    | (fail_if_no_progress (with_reducible (refine Keeps.lit ?_ rfl rfl rfl)))
    | with_reducible (refine Keeps.ite ?_ ?_)
    | split

theorem Keeps.execPowerUp (s : State) :
    ∃ t, execPowerUp s = .next t ∧ Keeps s t := by
  refine ⟨_, rfl, ?_⟩
  repeat' first
    | exact Keeps.refl s
    | with_reducible apply Keeps.coldReset
    | with_reducible apply Keeps.powerCycle
    | (fail_if_no_progress (with_reducible (refine Keeps.lit ?_ rfl rfl rfl)))
    | with_reducible (refine Keeps.ite ?_ ?_)
    | split

theorem Keeps.execPwrgdDeassert (s : State) k :
    ∃ t, execPwrgdDeassert k s = .next t ∧ Keeps s t := by
  refine ⟨_, rfl, ?_⟩
  repeat' first
    | exact Keeps.refl s
    | with_reducible apply Keeps.coldReset
    | with_reducible apply Keeps.powerCycle
    | (fail_if_no_progress (with_reducible (refine Keeps.lit ?_ rfl rfl rfl)))
    | with_reducible (refine Keeps.ite ?_ ?_)
    | split

theorem Keeps.execSysresetAssert (s : State) :
    ∃ t, execSysresetAssert s = .next t ∧ Keeps s t :=
  ⟨_, rfl, Keeps.warmReset (Keeps.refl s) _⟩

theorem Keeps.execThermtrip (s : State) :
    ∃ t, execThermtrip s = .next t ∧ Keeps s t := by
  refine ⟨_, rfl, ?_⟩
  repeat' first
    | exact Keeps.refl s
    | with_reducible apply Keeps.coldReset
    | (fail_if_no_progress (with_reducible (refine Keeps.lit ?_ rfl rfl rfl)))
    | with_reducible (refine Keeps.ite ?_ ?_)
    | split

theorem Keeps.execDomainTransitionDone (s : State) d :
    ∃ t, execDomainTransitionDone d s = .next t ∧ Keeps s t :=
  ⟨_, rfl, Keeps.transitionDone (Keeps.refl s) _⟩

theorem Keeps.execDomainTransitionStart (s : State) :
    ∃ t, execDomainTransitionStart s = .next t ∧ Keeps s t := by
  refine ⟨_, rfl, ?_⟩
  repeat' first
    | exact Keeps.refl s
    | with_reducible apply Keeps.transitionStart
    | (fail_if_no_progress (with_reducible (refine Keeps.lit ?_ rfl rfl rfl)))
    | with_reducible (refine Keeps.ite ?_ ?_)
    | split

theorem Keeps.execDomainWake (s : State) d code :
    ∃ t, execDomainWake d code s = .next t ∧ Keeps s t := by
  refine ⟨_, rfl, ?_⟩
  repeat' first
    | exact Keeps.refl s
    | with_reducible apply Keeps.wake
    | (fail_if_no_progress (with_reducible (refine Keeps.lit ?_ rfl rfl rfl)))
    | with_reducible (refine Keeps.ite ?_ ?_)
    | split

theorem Keeps.execPwrHoldAbort (s : State) d :
    ∃ t, execPwrHoldAbort d s = .next t ∧ Keeps s t :=
  ⟨_, rfl, Keeps.holdAbort (Keeps.refl s) _⟩

theorem Keeps.execPwrHoldRecheck (s : State) d :
    ∃ t, execPwrHoldRecheck d s = .next t ∧ Keeps s t :=
  ⟨_, rfl, Keeps.holdRecheck (Keeps.refl s) _⟩

theorem Keeps.execPwrTargetWrite (s : State) src d value :
    ∃ t, execPwrTargetWrite src d value s = .next t ∧ Keeps s t := by
  refine ⟨_, rfl, ?_⟩
  have h := Keeps.refl s
  repeat' first
    | with_reducible assumption
    | with_reducible apply Keeps.pwrCtl
    | with_reducible apply Keeps.withReg
    | with_reducible (refine Keeps.foldl _ ?_ (fun _ _ _ => ?_))
    | with_reducible (refine Keeps.foldlSnd _ ?_ (fun _ _ _ => ?_))
    | with_reducible (refine Keeps.foldlSnd2 _ ?_ (fun _ _ _ => ?_))
    | (fail_if_no_progress (with_reducible (refine Keeps.lit ?_ rfl rfl rfl)))
    | (intro x; refine Keeps.cut (r := s) x ?_ (fun _ => ?_) <;> [subst x; clear_value x])
    | (intro (x : _ × State); refine Keeps.cut (r := s) x.2 ?_ (fun _ => ?_) <;> [subst x; clear_value x])
    | (intro x; clear_value x)
    | with_reducible (refine Keeps.ite ?_ ?_)
    | split
    | lift_lets
    | with_reducible (refine Keeps.ofSnd (by assumption) ?_)
    | with_reducible (refine Keeps.ofSnd2 (by assumption) ?_)
    | intro

theorem Keeps.execCkrGateWrite (s : State) src d value :
    ∃ t, execCkrGateWrite src d value s = .next t ∧ Keeps s t := by
  refine ⟨_, rfl, ?_⟩
  have h := Keeps.refl s
  repeat' first
    | with_reducible assumption
    | with_reducible apply Keeps.gateWrite
    | with_reducible apply Keeps.withReg
    | with_reducible (refine Keeps.foldl _ ?_ (fun _ _ _ => ?_))
    | with_reducible (refine Keeps.foldlSnd _ ?_ (fun _ _ _ => ?_))
    | with_reducible (refine Keeps.foldlSnd2 _ ?_ (fun _ _ _ => ?_))
    | (fail_if_no_progress (with_reducible (refine Keeps.lit ?_ rfl rfl rfl)))
    | (intro x; refine Keeps.cut (r := s) x ?_ (fun _ => ?_) <;> [subst x; clear_value x])
    | (intro (x : _ × State); refine Keeps.cut (r := s) x.2 ?_ (fun _ => ?_) <;> [subst x; clear_value x])
    | (intro x; clear_value x)
    | with_reducible (refine Keeps.ite ?_ ?_)
    | split
    | lift_lets
    | with_reducible (refine Keeps.ofSnd (by assumption) ?_)
    | with_reducible (refine Keeps.ofSnd2 (by assumption) ?_)
    | intro

theorem Keeps.execCkrRatioWrite (s : State) src d value :
    ∃ t, execCkrRatioWrite src d value s = .next t ∧ Keeps s t := by
  refine ⟨_, rfl, ?_⟩
  have h := Keeps.refl s
  repeat' first
    | with_reducible assumption
    | with_reducible apply Keeps.ratioWrite
    | with_reducible apply Keeps.withReg
    | with_reducible (refine Keeps.foldl _ ?_ (fun _ _ _ => ?_))
    | with_reducible (refine Keeps.foldlSnd _ ?_ (fun _ _ _ => ?_))
    | with_reducible (refine Keeps.foldlSnd2 _ ?_ (fun _ _ _ => ?_))
    | (fail_if_no_progress (with_reducible (refine Keeps.lit ?_ rfl rfl rfl)))
    | (intro x; refine Keeps.cut (r := s) x ?_ (fun _ => ?_) <;> [subst x; clear_value x])
    | (intro (x : _ × State); refine Keeps.cut (r := s) x.2 ?_ (fun _ => ?_) <;> [subst x; clear_value x])
    | (intro x; clear_value x)
    | with_reducible (refine Keeps.ite ?_ ?_)
    | split
    | lift_lets
    | with_reducible (refine Keeps.ofSnd (by assumption) ?_)
    | with_reducible (refine Keeps.ofSnd2 (by assumption) ?_)
    | intro

theorem Keeps.execClockMonitorWindow (s : State) which count :
    ∃ t, execClockMonitorWindow which count s = .next t ∧ Keeps s t := by
  refine ⟨_, rfl, ?_⟩
  repeat' first
    | exact Keeps.refl s
    | with_reducible apply Keeps.monWindow
    | (fail_if_no_progress (with_reducible (refine Keeps.lit ?_ rfl rfl rfl)))
    | with_reducible (refine Keeps.ite ?_ ?_)
    | split

theorem Keeps.execRatioSwitchDone (s : State) d :
    ∃ t, execRatioSwitchDone d s = .next t ∧ Keeps s t :=
  ⟨_, rfl, Keeps.wr (Keeps.refl s) _ _ _⟩

theorem Keeps.execRootPllLock (s : State) :
    ∃ t, execRootPllLock s = .next t ∧ Keeps s t := by
  refine ⟨_, rfl, ?_⟩
  repeat' first
    | exact Keeps.refl s
    | with_reducible apply Keeps.rootReady
    | with_reducible apply Keeps.wr
    | (fail_if_no_progress (with_reducible (refine Keeps.lit ?_ rfl rfl rfl)))
    | with_reducible (refine Keeps.ite ?_ ?_)
    | split

theorem Keeps.execRootPllUnlock (s : State) :
    ∃ t, execRootPllUnlock s = .next t ∧ Keeps s t := by
  refine ⟨_, rfl, ?_⟩
  repeat' first
    | exact Keeps.refl s
    | with_reducible apply Keeps.clockFail
    | with_reducible apply Keeps.wr
    | (fail_if_no_progress (with_reducible (refine Keeps.lit ?_ rfl rfl rfl)))
    | with_reducible (refine Keeps.ite ?_ ?_)
    | split

theorem Keeps.execXtalAmplitudeLoss (s : State) :
    ∃ t, execXtalAmplitudeLoss s = .next t ∧ Keeps s t := by
  refine ⟨_, rfl, ?_⟩
  repeat' first
    | exact Keeps.refl s
    | with_reducible apply Keeps.clockFail
    | with_reducible apply Keeps.wr
    | (fail_if_no_progress (with_reducible (refine Keeps.lit ?_ rfl rfl rfl)))
    | with_reducible (refine Keeps.ite ?_ ?_)
    | split

theorem Keeps.execXtalStable (s : State) :
    ∃ t, execXtalStable s = .next t ∧ Keeps s t := by
  refine ⟨_, rfl, ?_⟩
  repeat' first
    | exact Keeps.refl s
    | with_reducible apply Keeps.wr
    | (fail_if_no_progress (with_reducible (refine Keeps.lit ?_ rfl rfl rfl)))
    | with_reducible (refine Keeps.ite ?_ ?_)
    | split

theorem Keeps.execXtalTimeout (s : State) :
    ∃ t, execXtalTimeout s = .next t ∧ Keeps s t := by
  refine ⟨_, rfl, ?_⟩
  repeat' first
    | exact Keeps.refl s
    | with_reducible apply Keeps.clockFail
    | with_reducible apply Keeps.rootReady
    | (fail_if_no_progress (with_reducible (refine Keeps.lit ?_ rfl rfl rfl)))
    | with_reducible (refine Keeps.ite ?_ ?_)
    | split

theorem Keeps.execEvcSrcCfgWrite (s : State) src i value :
    ∃ t, execEvcSrcCfgWrite src i value s = .next t ∧ Keeps s t := by
  refine ⟨_, rfl, ?_⟩
  have h := Keeps.refl s
  repeat' first
    | with_reducible assumption
    | with_reducible apply Keeps.srcCfg
    | with_reducible apply Keeps.withReg
    | with_reducible (refine Keeps.foldl _ ?_ (fun _ _ _ => ?_))
    | with_reducible (refine Keeps.foldlSnd _ ?_ (fun _ _ _ => ?_))
    | with_reducible (refine Keeps.foldlSnd2 _ ?_ (fun _ _ _ => ?_))
    | (fail_if_no_progress (with_reducible (refine Keeps.lit ?_ rfl rfl rfl)))
    | (intro x; refine Keeps.cut (r := s) x ?_ (fun _ => ?_) <;> [subst x; clear_value x])
    | (intro (x : _ × State); refine Keeps.cut (r := s) x.2 ?_ (fun _ => ?_) <;> [subst x; clear_value x])
    | (intro x; clear_value x)
    | with_reducible (refine Keeps.ite ?_ ?_)
    | split
    | lift_lets
    | with_reducible (refine Keeps.ofSnd (by assumption) ?_)
    | with_reducible (refine Keeps.ofSnd2 (by assumption) ?_)
    | intro

theorem Keeps.execEventMessageDeliver (s : State) :
    ∃ t, execEventMessageDeliver s = .next t ∧ Keeps s t := by
  refine ⟨_, rfl, ?_⟩
  repeat' first
    | exact Keeps.refl s
    | with_reducible apply Keeps.eventDeliver
    | (fail_if_no_progress (with_reducible (refine Keeps.lit ?_ rfl rfl rfl)))
    | with_reducible (refine Keeps.ite ?_ ?_)
    | split

theorem Keeps.execEventRateRelease (s : State) i :
    ∃ t, execEventRateRelease i s = .next t ∧ Keeps s t := by
  refine ⟨_, rfl, ?_⟩
  repeat' first
    | exact Keeps.refl s
    | with_reducible apply Keeps.rateRelease
    | (fail_if_no_progress (with_reducible (refine Keeps.lit ?_ rfl rfl rfl)))
    | with_reducible (refine Keeps.ite ?_ ?_)
    | split

theorem Keeps.execAtsInvalidation (s : State) p itag pasid page count :
    ∃ t, execAtsInvalidation p itag pasid page count s = .next t ∧ Keeps s t := by
  refine ⟨_, rfl, ?_⟩
  repeat' first
    | exact Keeps.refl s
    | with_reducible apply Keeps.atsInvalidate
    | (fail_if_no_progress (with_reducible (refine Keeps.lit ?_ rfl rfl rfl)))
    | with_reducible (refine Keeps.ite ?_ ?_)
    | split

theorem Keeps.execBar4Read (s : State) p tag off len :
    ∃ t, execBar4Read p tag off len s = .next t ∧ Keeps s t :=
  ⟨_, rfl, Keeps.bar4Read (Keeps.refl s) _ _ _ _⟩

theorem Keeps.execBar4Write (s : State) p off data ep :
    ∃ t, execBar4Write p off data ep s = .next t ∧ Keeps s t :=
  ⟨_, rfl, Keeps.bar4Write (Keeps.refl s) _ _ _ _⟩

theorem Keeps.execConfigWrite (s : State) p off be value :
    ∃ t, execConfigWrite p off be value s = .next t ∧ Keeps s t := by
  refine ⟨_, rfl, ?_⟩
  repeat' first
    | exact Keeps.refl s
    | with_reducible apply Keeps.cfgWrite
    | (fail_if_no_progress (with_reducible (refine Keeps.lit ?_ rfl rfl rfl)))
    | with_reducible (refine Keeps.ite ?_ ?_)
    | split

theorem Keeps.execDmaCompletion (s : State) p tag status ep data :
    ∃ t, execDmaCompletion p tag status ep data s = .next t ∧ Keeps s t := by
  refine ⟨_, rfl, ?_⟩
  repeat' first
    | exact Keeps.refl s
    | with_reducible apply Keeps.dmaCompletion
    | (fail_if_no_progress (with_reducible (refine Keeps.lit ?_ rfl rfl rfl)))
    | with_reducible (refine Keeps.ite ?_ ?_)
    | split

theorem Keeps.execDmaCompletionTimeout (s : State) p tag :
    ∃ t, execDmaCompletionTimeout p tag s = .next t ∧ Keeps s t :=
  ⟨_, rfl, Keeps.dmaTimeout (Keeps.refl s) _ _⟩

theorem Keeps.execDvsecRecover (s : State) p value :
    ∃ t, execDvsecRecover p value s = .next t ∧ Keeps s t := by
  refine ⟨_, rfl, ?_⟩
  repeat' first
    | exact Keeps.refl s
    | with_reducible apply Keeps.recover
    | (fail_if_no_progress (with_reducible (refine Keeps.lit ?_ rfl rfl rfl)))
    | with_reducible (refine Keeps.ite ?_ ?_)
    | split

theorem Keeps.execFlr (s : State) p :
    ∃ t, execFlr p s = .next t ∧ Keeps s t := by
  refine ⟨_, rfl, ?_⟩
  repeat' first
    | exact Keeps.refl s
    | with_reducible apply Keeps.startFlr
    | (fail_if_no_progress (with_reducible (refine Keeps.lit ?_ rfl rfl rfl)))
    | with_reducible (refine Keeps.ite ?_ ?_)
    | split

theorem Keeps.execFlrDone (s : State) p :
    ∃ t, execFlrDone p s = .next t ∧ Keeps s t :=
  ⟨_, rfl, Keeps.setPort (Keeps.refl s) _ _⟩

theorem Keeps.execHotReset (s : State) p :
    ∃ t, execHotReset p s = .next t ∧ Keeps s t := by
  refine ⟨_, rfl, ?_⟩
  repeat' first
    | exact Keeps.refl s
    | with_reducible apply Keeps.conventionalReset
    | with_reducible apply Keeps.inc
    | with_reducible apply Keeps.linkDown
    | (fail_if_no_progress (with_reducible (refine Keeps.lit ?_ rfl rfl rfl)))
    | with_reducible (refine Keeps.ite ?_ ?_)
    | split

theorem Keeps.execLaneMargining (s : State) p lane value :
    ∃ t, execLaneMargining p lane value s = .next t ∧ Keeps s t := by
  refine ⟨_, rfl, ?_⟩
  repeat' first
    | exact Keeps.refl s
    | with_reducible apply Keeps.setCfg
    | (fail_if_no_progress (with_reducible (refine Keeps.lit ?_ rfl rfl rfl)))
    | with_reducible (refine Keeps.ite ?_ ?_)
    | split

theorem Keeps.execPcieLinkDown (s : State) p :
    ∃ t, execPcieLinkDown p s = .next t ∧ Keeps s t := by
  refine ⟨_, rfl, ?_⟩
  repeat' first
    | exact Keeps.refl s
    | with_reducible apply Keeps.conventionalReset
    | with_reducible apply Keeps.linkDown
    | (fail_if_no_progress (with_reducible (refine Keeps.lit ?_ rfl rfl rfl)))
    | with_reducible (refine Keeps.ite ?_ ?_)
    | split

theorem Keeps.execPcieLinkUp (s : State) p speed width flit :
    ∃ t, execPcieLinkUp p speed width flit s = .next t ∧ Keeps s t :=
  ⟨_, rfl, Keeps.linkUp (Keeps.refl s) _ _ _ _⟩

theorem Keeps.execPerstAssert (s : State) p :
    ∃ t, execPerstAssert p s = .next t ∧ Keeps s t := by
  refine ⟨_, rfl, ?_⟩
  repeat' first
    | exact Keeps.refl s
    | with_reducible apply Keeps.conventionalReset
    | with_reducible apply Keeps.inc
    | with_reducible apply Keeps.linkDown
    | with_reducible apply Keeps.setPort
    | (fail_if_no_progress (with_reducible (refine Keeps.lit ?_ rfl rfl rfl)))
    | with_reducible (refine Keeps.ite ?_ ?_)
    | split

theorem Keeps.execPerstDeassert (s : State) p :
    ∃ t, execPerstDeassert p s = .next t ∧ Keeps s t :=
  ⟨_, rfl, Keeps.setPort (Keeps.refl s) _ _⟩

theorem Keeps.execPowerStateChange (s : State) p d3 :
    ∃ t, execPowerStateChange p d3 s = .next t ∧ Keeps s t :=
  ⟨_, rfl, Keeps.powerState (Keeps.refl s) _ _⟩

theorem Keeps.execRecoverTimeout (s : State) :
    ∃ t, execRecoverTimeout s = .next t ∧ Keeps s t := by
  refine ⟨_, rfl, ?_⟩
  repeat' first
    | exact Keeps.refl s
    | with_reducible apply Keeps.warmReset
    | (fail_if_no_progress (with_reducible (refine Keeps.lit ?_ rfl rfl rfl)))
    | with_reducible (refine Keeps.ite ?_ ?_)
    | split

theorem Keeps.execTlpError (s : State) p kind header :
    ∃ t, execTlpError p kind header s = .next t ∧ Keeps s t := by
  refine ⟨_, rfl, ?_⟩
  repeat' first
    | exact Keeps.refl s
    | with_reducible apply Keeps.tlpError
    | (fail_if_no_progress (with_reducible (refine Keeps.lit ?_ rfl rfl rfl)))
    | with_reducible (refine Keeps.ite ?_ ?_)
    | split

theorem Keeps.execTranslationCompletion (s : State) p tag ok frame read write :
    ∃ t, execTranslationCompletion p tag ok frame read write s = .next t ∧ Keeps s t := by
  refine ⟨_, rfl, ?_⟩
  repeat' first
    | exact Keeps.refl s
    | with_reducible apply Keeps.xlatCompletion
    | (fail_if_no_progress (with_reducible (refine Keeps.lit ?_ rfl rfl rfl)))
    | with_reducible (refine Keeps.ite ?_ ?_)
    | split

theorem Keeps.execCompletionWrite (s : State) r' :
    ∃ t, execCompletionWrite r' s = .next t ∧ Keeps s t :=
  ⟨_, rfl, Keeps.completion (Keeps.refl s) _⟩

theorem Keeps.execCqDoorbell (s : State) db value :
    ∃ t, execCqDoorbell db value s = .next t ∧ Keeps s t :=
  ⟨_, rfl, Keeps.doorbell (Keeps.refl s) _ _ _⟩

theorem Keeps.execDescriptorFetch (s : State) r' :
    ∃ t, execDescriptorFetch r' s = .next t ∧ Keeps s t :=
  ⟨_, rfl, Keeps.descFetch (Keeps.refl s) _⟩

theorem Keeps.execDmaCopy (s : State) ring :
    ∃ t, execDmaCopy ring s = .next t ∧ Keeps s t := by
  refine ⟨_, rfl, ?_⟩
  repeat' first
    | exact Keeps.refl s
    | with_reducible apply Keeps.dmaCopy
    | (fail_if_no_progress (with_reducible (refine Keeps.lit ?_ rfl rfl rfl)))
    | with_reducible (refine Keeps.ite ?_ ?_)
    | split

theorem Keeps.execHifEvqDbWrite (s : State) src q value :
    ∃ t, execHifEvqDbWrite src q value s = .next t ∧ Keeps s t := by
  refine ⟨_, rfl, ?_⟩
  have h := Keeps.refl s
  repeat' first
    | with_reducible assumption
    | with_reducible apply Keeps.evqDb
    | with_reducible apply Keeps.withReg
    | with_reducible (refine Keeps.foldl _ ?_ (fun _ _ _ => ?_))
    | with_reducible (refine Keeps.foldlSnd _ ?_ (fun _ _ _ => ?_))
    | with_reducible (refine Keeps.foldlSnd2 _ ?_ (fun _ _ _ => ?_))
    | (fail_if_no_progress (with_reducible (refine Keeps.lit ?_ rfl rfl rfl)))
    | (intro x; refine Keeps.cut (r := s) x ?_ (fun _ => ?_) <;> [subst x; clear_value x])
    | (intro (x : _ × State); refine Keeps.cut (r := s) x.2 ?_ (fun _ => ?_) <;> [subst x; clear_value x])
    | (intro x; clear_value x)
    | with_reducible (refine Keeps.ite ?_ ?_)
    | split
    | lift_lets
    | with_reducible (refine Keeps.ofSnd (by assumption) ?_)
    | with_reducible (refine Keeps.ofSnd2 (by assumption) ?_)
    | intro

theorem Keeps.execIrqModTimeout (s : State) r' :
    ∃ t, execIrqModTimeout r' s = .next t ∧ Keeps s t := by
  refine ⟨_, rfl, ?_⟩
  repeat' first
    | exact Keeps.refl s
    | with_reducible apply Keeps.ringSignal
    | (fail_if_no_progress (with_reducible (refine Keeps.lit ?_ rfl rfl rfl)))
    | with_reducible (refine Keeps.ite ?_ ?_)
    | split

theorem Keeps.execNop (s : State) ring :
    ∃ t, execNop ring s = .next t ∧ Keeps s t := by
  refine ⟨_, rfl, ?_⟩
  repeat' first
    | exact Keeps.refl s
    | with_reducible apply Keeps.finish
    | (fail_if_no_progress (with_reducible (refine Keeps.lit ?_ rfl rfl rfl)))
    | with_reducible (refine Keeps.ite ?_ ?_)
    | split

theorem Keeps.execRingEnable (s : State) src r' value :
    ∃ t, execRingEnable src r' value s = .next t ∧ Keeps s t := by
  refine ⟨_, rfl, ?_⟩
  have h := Keeps.refl s
  repeat' first
    | with_reducible assumption
    | with_reducible apply Keeps.ringCfg
    | with_reducible apply Keeps.withReg
    | with_reducible (refine Keeps.foldl _ ?_ (fun _ _ _ => ?_))
    | with_reducible (refine Keeps.foldlSnd _ ?_ (fun _ _ _ => ?_))
    | with_reducible (refine Keeps.foldlSnd2 _ ?_ (fun _ _ _ => ?_))
    | (fail_if_no_progress (with_reducible (refine Keeps.lit ?_ rfl rfl rfl)))
    | (intro x; refine Keeps.cut (r := s) x ?_ (fun _ => ?_) <;> [subst x; clear_value x])
    | (intro (x : _ × State); refine Keeps.cut (r := s) x.2 ?_ (fun _ => ?_) <;> [subst x; clear_value x])
    | (intro x; clear_value x)
    | with_reducible (refine Keeps.ite ?_ ?_)
    | split
    | lift_lets
    | with_reducible (refine Keeps.ofSnd (by assumption) ?_)
    | with_reducible (refine Keeps.ofSnd2 (by assumption) ?_)
    | intro

theorem Keeps.execRingResume (s : State) src r' :
    ∃ t, execRingResume src r' s = .next t ∧ Keeps s t := by
  refine ⟨_, rfl, ?_⟩
  have h := Keeps.refl s
  repeat' first
    | with_reducible assumption
    | with_reducible apply Keeps.ringResume
    | with_reducible apply Keeps.withReg
    | with_reducible (refine Keeps.foldl _ ?_ (fun _ _ _ => ?_))
    | with_reducible (refine Keeps.foldlSnd _ ?_ (fun _ _ _ => ?_))
    | with_reducible (refine Keeps.foldlSnd2 _ ?_ (fun _ _ _ => ?_))
    | (fail_if_no_progress (with_reducible (refine Keeps.lit ?_ rfl rfl rfl)))
    | (intro x; refine Keeps.cut (r := s) x ?_ (fun _ => ?_) <;> [subst x; clear_value x])
    | (intro (x : _ × State); refine Keeps.cut (r := s) x.2 ?_ (fun _ => ?_) <;> [subst x; clear_value x])
    | (intro x; clear_value x)
    | with_reducible (refine Keeps.ite ?_ ?_)
    | split
    | lift_lets
    | with_reducible (refine Keeps.ofSnd (by assumption) ?_)
    | with_reducible (refine Keeps.ofSnd2 (by assumption) ?_)
    | intro

theorem Keeps.execSqDoorbell (s : State) db value :
    ∃ t, execSqDoorbell db value s = .next t ∧ Keeps s t :=
  ⟨_, rfl, Keeps.doorbell (Keeps.refl s) _ _ _⟩

theorem Keeps.execAssemblyTimeout (s : State) ctx :
    ∃ t, execAssemblyTimeout ctx s = .next t ∧ Keeps s t := by
  refine ⟨_, rfl, ?_⟩
  repeat' first
    | exact Keeps.refl s
    | with_reducible apply Keeps.assemblyTimeout
    | (fail_if_no_progress (with_reducible (refine Keeps.lit ?_ rfl rfl rfl)))
    | with_reducible (refine Keeps.ite ?_ ?_)
    | split

theorem Keeps.execBpAgeExpire (s : State) ctx :
    ∃ t, execBpAgeExpire ctx s = .next t ∧ Keeps s t := by
  refine ⟨_, rfl, ?_⟩
  repeat' first
    | exact Keeps.refl s
    | with_reducible apply Keeps.bpAge
    | (fail_if_no_progress (with_reducible (refine Keeps.lit ?_ rfl rfl rfl)))
    | with_reducible (refine Keeps.ite ?_ ?_)
    | split

theorem Keeps.execContextAllocate (s : State) :
    ∃ t, execContextAllocate s = .next t ∧ Keeps s t := by
  refine ⟨_, rfl, ?_⟩
  repeat' first
    | exact Keeps.refl s
    | with_reducible apply Keeps.ctxAllocate
    | (fail_if_no_progress (with_reducible (refine Keeps.lit ?_ rfl rfl rfl)))
    | with_reducible (refine Keeps.ite ?_ ?_)
    | split

theorem Keeps.execEvbClearDone (s : State) :
    ∃ t, execEvbClearDone s = .next t ∧ Keeps s t := by
  refine ⟨_, rfl, ?_⟩
  repeat' first
    | exact Keeps.refl s
    | with_reducible apply Keeps.evbSettle
    | with_reducible apply Keeps.wr
    | (fail_if_no_progress (with_reducible (refine Keeps.lit ?_ rfl rfl rfl)))
    | with_reducible (refine Keeps.ite ?_ ?_)
    | split

theorem Keeps.execEventCopy (s : State) :
    ∃ t, execEventCopy s = .next t ∧ Keeps s t := by
  refine ⟨_, rfl, ?_⟩
  repeat' first
    | exact Keeps.refl s
    | with_reducible apply Keeps.eventCopy
    | (fail_if_no_progress (with_reducible (refine Keeps.lit ?_ rfl rfl rfl)))
    | with_reducible (refine Keeps.ite ?_ ?_)
    | split

theorem Keeps.execEventCopyDone (s : State) ctx :
    ∃ t, execEventCopyDone ctx s = .next t ∧ Keeps s t := by
  refine ⟨_, rfl, ?_⟩
  repeat' first
    | exact Keeps.refl s
    | with_reducible apply Keeps.copyDone
    | (fail_if_no_progress (with_reducible (refine Keeps.lit ?_ rfl rfl rfl)))
    | with_reducible (refine Keeps.ite ?_ ?_)
    | split

theorem Keeps.execEventPost (s : State) ctx :
    ∃ t, execEventPost ctx s = .next t ∧ Keeps s t := by
  refine ⟨_, rfl, ?_⟩
  repeat' first
    | exact Keeps.refl s
    | with_reducible apply Keeps.eventPost
    | (fail_if_no_progress (with_reducible (refine Keeps.lit ?_ rfl rfl rfl)))
    | with_reducible (refine Keeps.ite ?_ ?_)
    | split

theorem Keeps.execEvqCfgWrite (s : State) src q value :
    ∃ t, execEvqCfgWrite src q value s = .next t ∧ Keeps s t := by
  refine ⟨_, rfl, ?_⟩
  have h := Keeps.refl s
  repeat' first
    | with_reducible assumption
    | with_reducible apply Keeps.evqCfg
    | with_reducible apply Keeps.withReg
    | with_reducible (refine Keeps.foldl _ ?_ (fun _ _ _ => ?_))
    | with_reducible (refine Keeps.foldlSnd _ ?_ (fun _ _ _ => ?_))
    | with_reducible (refine Keeps.foldlSnd2 _ ?_ (fun _ _ _ => ?_))
    | (fail_if_no_progress (with_reducible (refine Keeps.lit ?_ rfl rfl rfl)))
    | (intro x; refine Keeps.cut (r := s) x ?_ (fun _ => ?_) <;> [subst x; clear_value x])
    | (intro (x : _ × State); refine Keeps.cut (r := s) x.2 ?_ (fun _ => ?_) <;> [subst x; clear_value x])
    | (intro x; clear_value x)
    | with_reducible (refine Keeps.ite ?_ ?_)
    | split
    | lift_lets
    | with_reducible (refine Keeps.ofSnd (by assumption) ?_)
    | with_reducible (refine Keeps.ofSnd2 (by assumption) ?_)
    | intro

theorem Keeps.execEvqDoorbell (s : State) db value :
    ∃ t, execEvqDoorbell db value s = .next t ∧ Keeps s t :=
  ⟨_, rfl, Keeps.queueDb (Keeps.refl s) _ _⟩

theorem Keeps.execEvqSubscribe (s : State) ring :
    ∃ t, execEvqSubscribe ring s = .next t ∧ Keeps s t := by
  refine ⟨_, rfl, ?_⟩
  repeat' first
    | exact Keeps.refl s
    | with_reducible apply Keeps.subscribe
    | (fail_if_no_progress (with_reducible (refine Keeps.lit ?_ rfl rfl rfl)))
    | with_reducible (refine Keeps.ite ?_ ?_)
    | split

theorem Keeps.execEvqUnsubscribe (s : State) ring :
    ∃ t, execEvqUnsubscribe ring s = .next t ∧ Keeps s t := by
  refine ⟨_, rfl, ?_⟩
  repeat' first
    | exact Keeps.refl s
    | with_reducible apply Keeps.subscribe
    | (fail_if_no_progress (with_reducible (refine Keeps.lit ?_ rfl rfl rfl)))
    | with_reducible (refine Keeps.ite ?_ ?_)
    | split

theorem Keeps.execEvtDeliver (s : State) ring :
    ∃ t, execEvtDeliver ring s = .next t ∧ Keeps s t := by
  refine ⟨_, rfl, ?_⟩
  repeat' first
    | exact Keeps.refl s
    | with_reducible apply Keeps.evtDeliver
    | (fail_if_no_progress (with_reducible (refine Keeps.lit ?_ rfl rfl rfl)))
    | with_reducible (refine Keeps.ite ?_ ?_)
    | split

theorem Keeps.execHistRingEnable (s : State) src n value :
    ∃ t, execHistRingEnable src n value s = .next t ∧ Keeps s t := by
  refine ⟨_, rfl, ?_⟩
  have h := Keeps.refl s
  repeat' first
    | with_reducible assumption
    | with_reducible apply Keeps.histCfg
    | with_reducible apply Keeps.withReg
    | with_reducible (refine Keeps.foldl _ ?_ (fun _ _ _ => ?_))
    | with_reducible (refine Keeps.foldlSnd _ ?_ (fun _ _ _ => ?_))
    | with_reducible (refine Keeps.foldlSnd2 _ ?_ (fun _ _ _ => ?_))
    | (fail_if_no_progress (with_reducible (refine Keeps.lit ?_ rfl rfl rfl)))
    | (intro x; refine Keeps.cut (r := s) x ?_ (fun _ => ?_) <;> [subst x; clear_value x])
    | (intro (x : _ × State); refine Keeps.cut (r := s) x.2 ?_ (fun _ => ?_) <;> [subst x; clear_value x])
    | (intro x; clear_value x)
    | with_reducible (refine Keeps.ite ?_ ?_)
    | split
    | lift_lets
    | with_reducible (refine Keeps.ofSnd (by assumption) ?_)
    | with_reducible (refine Keeps.ofSnd2 (by assumption) ?_)
    | intro

theorem Keeps.execPoolAllocate (s : State) p :
    ∃ t, execPoolAllocate p s = .next t ∧ Keeps s t := by
  refine ⟨_, rfl, ?_⟩
  repeat' first
    | exact Keeps.refl s
    | with_reducible apply Keeps.poolAllocate
    | (fail_if_no_progress (with_reducible (refine Keeps.lit ?_ rfl rfl rfl)))
    | with_reducible (refine Keeps.ite ?_ ?_)
    | split

theorem Keeps.execPoolEnable (s : State) src p value :
    ∃ t, execPoolEnable src p value s = .next t ∧ Keeps s t := by
  refine ⟨_, rfl, ?_⟩
  have h := Keeps.refl s
  repeat' first
    | with_reducible assumption
    | with_reducible apply Keeps.poolCfg
    | with_reducible apply Keeps.withReg
    | with_reducible (refine Keeps.foldl _ ?_ (fun _ _ _ => ?_))
    | with_reducible (refine Keeps.foldlSnd _ ?_ (fun _ _ _ => ?_))
    | with_reducible (refine Keeps.foldlSnd2 _ ?_ (fun _ _ _ => ?_))
    | (fail_if_no_progress (with_reducible (refine Keeps.lit ?_ rfl rfl rfl)))
    | (intro x; refine Keeps.cut (r := s) x ?_ (fun _ => ?_) <;> [subst x; clear_value x])
    | (intro (x : _ × State); refine Keeps.cut (r := s) x.2 ?_ (fun _ => ?_) <;> [subst x; clear_value x])
    | (intro x; clear_value x)
    | with_reducible (refine Keeps.ite ?_ ?_)
    | split
    | lift_lets
    | with_reducible (refine Keeps.ofSnd (by assumption) ?_)
    | with_reducible (refine Keeps.ofSnd2 (by assumption) ?_)
    | intro

theorem Keeps.execRouteCfgWrite (s : State) src r' which value :
    ∃ t, execRouteCfgWrite src r' which value s = .next t ∧ Keeps s t := by
  refine ⟨_, rfl, ?_⟩
  have h := Keeps.refl s
  repeat' first
    | with_reducible assumption
    | with_reducible apply Keeps.routeCfg
    | with_reducible apply Keeps.withReg
    | with_reducible (refine Keeps.foldl _ ?_ (fun _ _ _ => ?_))
    | with_reducible (refine Keeps.foldlSnd _ ?_ (fun _ _ _ => ?_))
    | with_reducible (refine Keeps.foldlSnd2 _ ?_ (fun _ _ _ => ?_))
    | (fail_if_no_progress (with_reducible (refine Keeps.lit ?_ rfl rfl rfl)))
    | (intro x; refine Keeps.cut (r := s) x ?_ (fun _ => ?_) <;> [subst x; clear_value x])
    | (intro (x : _ × State); refine Keeps.cut (r := s) x.2 ?_ (fun _ => ?_) <;> [subst x; clear_value x])
    | (intro x; clear_value x)
    | with_reducible (refine Keeps.ite ?_ ?_)
    | split
    | lift_lets
    | with_reducible (refine Keeps.ofSnd (by assumption) ?_)
    | with_reducible (refine Keeps.ofSnd2 (by assumption) ?_)
    | intro

theorem Keeps.execAckEvn (s : State) c line :
    ∃ t, execAckEvn c line s = .next t ∧ Keeps s t :=
  ⟨_, rfl, Keeps.deliverHead (Keeps.refl s) _ _⟩

theorem Keeps.execData (s : State) c line :
    ∃ t, execData c line s = .next t ∧ Keeps s t :=
  ⟨_, rfl, Keeps.deliverHead (Keeps.refl s) _ _⟩

theorem Keeps.execDirClearDone (s : State) slice :
    ∃ t, execDirClearDone slice s = .next t ∧ Keeps s t := by
  refine ⟨_, rfl, ?_⟩
  repeat' first
    | exact Keeps.refl s
    | with_reducible apply Keeps.putBit
    | (fail_if_no_progress (with_reducible (refine Keeps.lit ?_ rfl rfl rfl)))
    | with_reducible (refine Keeps.ite ?_ ?_)
    | split

theorem Keeps.execDirProbe (s : State) src value :
    ∃ t, execDirProbe src value s = .next t ∧ Keeps s t := by
  refine ⟨_, rfl, ?_⟩
  have h := Keeps.refl s
  repeat' first
    | with_reducible assumption
    | with_reducible apply Keeps.dirProbe
    | with_reducible apply Keeps.withReg
    | with_reducible (refine Keeps.foldl _ ?_ (fun _ _ _ => ?_))
    | with_reducible (refine Keeps.foldlSnd _ ?_ (fun _ _ _ => ?_))
    | with_reducible (refine Keeps.foldlSnd2 _ ?_ (fun _ _ _ => ?_))
    | (fail_if_no_progress (with_reducible (refine Keeps.lit ?_ rfl rfl rfl)))
    | (intro x; refine Keeps.cut (r := s) x ?_ (fun _ => ?_) <;> [subst x; clear_value x])
    | (intro (x : _ × State); refine Keeps.cut (r := s) x.2 ?_ (fun _ => ?_) <;> [subst x; clear_value x])
    | (intro x; clear_value x)
    | with_reducible (refine Keeps.ite ?_ ?_)
    | split
    | lift_lets
    | with_reducible (refine Keeps.ofSnd (by assumption) ?_)
    | with_reducible (refine Keeps.ofSnd2 (by assumption) ?_)
    | intro

theorem Keeps.execDirProbeDone (s : State) :
    ∃ t, execDirProbeDone s = .next t ∧ Keeps s t :=
  ⟨_, rfl, Keeps.probeDone (Keeps.refl s)⟩

theorem Keeps.execDirWaiterServe (s : State) line :
    ∃ t, execDirWaiterServe line s = .next t ∧ Keeps s t := by
  refine ⟨_, rfl, ?_⟩
  repeat' first
    | exact Keeps.refl s
    | with_reducible apply Keeps.serveWaiter
    | (fail_if_no_progress (with_reducible (refine Keeps.lit ?_ rfl rfl rfl)))
    | with_reducible (refine Keeps.ite ?_ ?_)
    | split

theorem Keeps.execEvnClean (s : State) c line :
    ∃ t, execEvnClean c line s = .next t ∧ Keeps s t :=
  ⟨_, rfl, Keeps.deliverHead (Keeps.refl s) _ _⟩

theorem Keeps.execEvnDirty (s : State) c line :
    ∃ t, execEvnDirty c line s = .next t ∧ Keeps s t :=
  ⟨_, rfl, Keeps.deliverHead (Keeps.refl s) _ _⟩

theorem Keeps.execFenceSweepDone (s : State) slice :
    ∃ t, execFenceSweepDone slice s = .next t ∧ Keeps s t := by
  refine ⟨_, rfl, ?_⟩
  repeat' first
    | exact Keeps.refl s
    | with_reducible apply Keeps.raise
    | (fail_if_no_progress (with_reducible (refine Keeps.lit ?_ rfl rfl rfl)))
    | with_reducible (refine Keeps.ite ?_ ?_)
    | split

theorem Keeps.execGnt (s : State) c line :
    ∃ t, execGnt c line s = .next t ∧ Keeps s t :=
  ⟨_, rfl, Keeps.deliverHead (Keeps.refl s) _ _⟩

theorem Keeps.execIoRd (s : State) line :
    ∃ t, execIoRd line s = .next t ∧ Keeps s t :=
  ⟨_, rfl, Keeps.deliverIo (Keeps.refl s) _ _⟩

theorem Keeps.execIoWr (s : State) line :
    ∃ t, execIoWr line s = .next t ∧ Keeps s t :=
  ⟨_, rfl, Keeps.deliverIo (Keeps.refl s) _ _⟩

theorem Keeps.execL2EnWrite (s : State) src c value :
    ∃ t, execL2EnWrite src c value s = .next t ∧ Keeps s t := by
  refine ⟨_, rfl, ?_⟩
  have h := Keeps.refl s
  repeat' first
    | with_reducible assumption
    | with_reducible apply Keeps.l2En
    | with_reducible apply Keeps.withReg
    | with_reducible (refine Keeps.foldl _ ?_ (fun _ _ _ => ?_))
    | with_reducible (refine Keeps.foldlSnd _ ?_ (fun _ _ _ => ?_))
    | with_reducible (refine Keeps.foldlSnd2 _ ?_ (fun _ _ _ => ?_))
    | (fail_if_no_progress (with_reducible (refine Keeps.lit ?_ rfl rfl rfl)))
    | (intro x; refine Keeps.cut (r := s) x ?_ (fun _ => ?_) <;> [subst x; clear_value x])
    | (intro (x : _ × State); refine Keeps.cut (r := s) x.2 ?_ (fun _ => ?_) <;> [subst x; clear_value x])
    | (intro x; clear_value x)
    | with_reducible (refine Keeps.ite ?_ ?_)
    | split
    | lift_lets
    | with_reducible (refine Keeps.ofSnd (by assumption) ?_)
    | with_reducible (refine Keeps.ofSnd2 (by assumption) ?_)
    | intro

theorem Keeps.execL2Flush (s : State) src c :
    ∃ t, execL2Flush src c s = .next t ∧ Keeps s t := by
  refine ⟨_, rfl, ?_⟩
  have h := Keeps.refl s
  repeat' first
    | with_reducible assumption
    | with_reducible apply Keeps.l2Flush
    | with_reducible apply Keeps.withReg
    | with_reducible (refine Keeps.foldl _ ?_ (fun _ _ _ => ?_))
    | with_reducible (refine Keeps.foldlSnd _ ?_ (fun _ _ _ => ?_))
    | with_reducible (refine Keeps.foldlSnd2 _ ?_ (fun _ _ _ => ?_))
    | (fail_if_no_progress (with_reducible (refine Keeps.lit ?_ rfl rfl rfl)))
    | (intro x; refine Keeps.cut (r := s) x ?_ (fun _ => ?_) <;> [subst x; clear_value x])
    | (intro (x : _ × State); refine Keeps.cut (r := s) x.2 ?_ (fun _ => ?_) <;> [subst x; clear_value x])
    | (intro x; clear_value x)
    | with_reducible (refine Keeps.ite ?_ ?_)
    | split
    | lift_lets
    | with_reducible (refine Keeps.ofSnd (by assumption) ?_)
    | with_reducible (refine Keeps.ofSnd2 (by assumption) ?_)
    | intro

theorem Keeps.execL2FlushDone (s : State) c :
    ∃ t, execL2FlushDone c s = .next t ∧ Keeps s t := by
  refine ⟨_, rfl, ?_⟩
  repeat' first
    | exact Keeps.refl s
    | with_reducible apply Keeps.l2Inv
    | with_reducible apply Keeps.setL2
    | with_reducible apply Keeps.wr
    | (fail_if_no_progress (with_reducible (refine Keeps.lit ?_ rfl rfl rfl)))
    | with_reducible (refine Keeps.ite ?_ ?_)
    | split

theorem Keeps.execL2InitDone (s : State) c :
    ∃ t, execL2InitDone c s = .next t ∧ Keeps s t := by
  refine ⟨_, rfl, ?_⟩
  repeat' first
    | exact Keeps.refl s
    | with_reducible apply Keeps.setL2
    | with_reducible apply Keeps.wr
    | (fail_if_no_progress (with_reducible (refine Keeps.lit ?_ rfl rfl rfl)))
    | with_reducible (refine Keeps.ite ?_ ?_)
    | split

theorem Keeps.execL2Inv (s : State) src c :
    ∃ t, execL2Inv src c s = .next t ∧ Keeps s t := by
  refine ⟨_, rfl, ?_⟩
  have h := Keeps.refl s
  repeat' first
    | with_reducible assumption
    | with_reducible apply Keeps.l2Inv
    | with_reducible apply Keeps.withReg
    | with_reducible (refine Keeps.foldl _ ?_ (fun _ _ _ => ?_))
    | with_reducible (refine Keeps.foldlSnd _ ?_ (fun _ _ _ => ?_))
    | with_reducible (refine Keeps.foldlSnd2 _ ?_ (fun _ _ _ => ?_))
    | (fail_if_no_progress (with_reducible (refine Keeps.lit ?_ rfl rfl rfl)))
    | (intro x; refine Keeps.cut (r := s) x ?_ (fun _ => ?_) <;> [subst x; clear_value x])
    | (intro (x : _ × State); refine Keeps.cut (r := s) x.2 ?_ (fun _ => ?_) <;> [subst x; clear_value x])
    | (intro x; clear_value x)
    | with_reducible (refine Keeps.ite ?_ ?_)
    | split
    | lift_lets
    | with_reducible (refine Keeps.ofSnd (by assumption) ?_)
    | with_reducible (refine Keeps.ofSnd2 (by assumption) ?_)
    | intro

theorem Keeps.execL2InvDone (s : State) c :
    ∃ t, execL2InvDone c s = .next t ∧ Keeps s t := by
  refine ⟨_, rfl, ?_⟩
  repeat' first
    | exact Keeps.refl s
    | with_reducible apply Keeps.wr
    | (fail_if_no_progress (with_reducible (refine Keeps.lit ?_ rfl rfl rfl)))
    | with_reducible (refine Keeps.ite ?_ ?_)
    | split

theorem Keeps.execPin (s : State) c line :
    ∃ t, execPin c line s = .next t ∧ Keeps s t :=
  ⟨_, rfl, Keeps.deliverHead (Keeps.refl s) _ _⟩

theorem Keeps.execProofAbortMessage (s : State) core :
    ∃ t, execProofAbortMessage core s = .next t ∧ Keeps s t :=
  ⟨_, rfl, Keeps.deliverHead (Keeps.refl s) _ _⟩

theorem Keeps.execRdShared (s : State) line c :
    ∃ t, execRdShared line c s = .next t ∧ Keeps s t :=
  ⟨_, rfl, Keeps.deliverHead (Keeps.refl s) _ _⟩

theorem Keeps.execRdUnique (s : State) line c :
    ∃ t, execRdUnique line c s = .next t ∧ Keeps s t :=
  ⟨_, rfl, Keeps.deliverHead (Keeps.refl s) _ _⟩

theorem Keeps.execRsp (s : State) c line :
    ∃ t, execRsp c line s = .next t ∧ Keeps s t :=
  ⟨_, rfl, Keeps.deliverHead (Keeps.refl s) _ _⟩

theorem Keeps.execSnpInv (s : State) c line :
    ∃ t, execSnpInv c line s = .next t ∧ Keeps s t :=
  ⟨_, rfl, Keeps.deliverHead (Keeps.refl s) _ _⟩

theorem Keeps.execSnpIord (s : State) c line :
    ∃ t, execSnpIord c line s = .next t ∧ Keeps s t :=
  ⟨_, rfl, Keeps.deliverHead (Keeps.refl s) _ _⟩

theorem Keeps.execSnpShare (s : State) c line :
    ∃ t, execSnpShare c line s = .next t ∧ Keeps s t :=
  ⟨_, rfl, Keeps.deliverHead (Keeps.refl s) _ _⟩

theorem Keeps.execSnpUnique (s : State) c line :
    ∃ t, execSnpUnique c line s = .next t ∧ Keeps s t :=
  ⟨_, rfl, Keeps.deliverHead (Keeps.refl s) _ _⟩

theorem Keeps.execUnpin (s : State) c line :
    ∃ t, execUnpin c line s = .next t ∧ Keeps s t :=
  ⟨_, rfl, Keeps.deliverHead (Keeps.refl s) _ _⟩

theorem Keeps.execUpgrade (s : State) line c :
    ∃ t, execUpgrade line c s = .next t ∧ Keeps s t :=
  ⟨_, rfl, Keeps.deliverHead (Keeps.refl s) _ _⟩

theorem Keeps.execWrback (s : State) c line :
    ∃ t, execWrback c line s = .next t ∧ Keeps s t :=
  ⟨_, rfl, Keeps.deliverHead (Keeps.refl s) _ _⟩

theorem Keeps.execBurnishRead (s : State) c :
    ∃ t, execBurnishRead c s = .next t ∧ Keeps s t := by
  refine ⟨_, rfl, ?_⟩
  repeat' first
    | exact Keeps.refl s
    | with_reducible apply Keeps.burnish
    | (fail_if_no_progress (with_reducible (refine Keeps.lit ?_ rfl rfl rfl)))
    | with_reducible (refine Keeps.ite ?_ ?_)
    | split

theorem Keeps.execCorrectionTimeout (s : State) n die :
    ∃ t, execCorrectionTimeout n die s = .next t ∧ Keeps s t := by
  refine ⟨_, rfl, ?_⟩
  repeat' first
    | exact Keeps.refl s
    | with_reducible apply Keeps.hubCorrect
    | (fail_if_no_progress (with_reducible (refine Keeps.lit ?_ rfl rfl rfl)))
    | with_reducible (refine Keeps.ite ?_ ?_)
    | split

theorem Keeps.execCorrectionWriteback (s : State) n die :
    ∃ t, execCorrectionWriteback n die s = .next t ∧ Keeps s t := by
  refine ⟨_, rfl, ?_⟩
  repeat' first
    | exact Keeps.refl s
    | with_reducible apply Keeps.corrWrite
    | (fail_if_no_progress (with_reducible (refine Keeps.lit ?_ rfl rfl rfl)))
    | with_reducible (refine Keeps.ite ?_ ?_)
    | split

theorem Keeps.execInitWalkDone (s : State) c :
    ∃ t, execInitWalkDone c s = .next t ∧ Keeps s t := by
  refine ⟨_, rfl, ?_⟩
  repeat' first
    | exact Keeps.refl s
    | with_reducible apply Keeps.initDone
    | (fail_if_no_progress (with_reducible (refine Keeps.lit ?_ rfl rfl rfl)))
    | with_reducible (refine Keeps.ite ?_ ?_)
    | split

theorem Keeps.execMemWmWrite (s : State) src value :
    ∃ t, execMemWmWrite src value s = .next t ∧ Keeps s t := by
  refine ⟨_, rfl, ?_⟩
  have h := Keeps.refl s
  repeat' first
    | with_reducible assumption
    | with_reducible apply Keeps.withReg
    | with_reducible apply Keeps.wmWrite
    | with_reducible (refine Keeps.foldl _ ?_ (fun _ _ _ => ?_))
    | with_reducible (refine Keeps.foldlSnd _ ?_ (fun _ _ _ => ?_))
    | with_reducible (refine Keeps.foldlSnd2 _ ?_ (fun _ _ _ => ?_))
    | (fail_if_no_progress (with_reducible (refine Keeps.lit ?_ rfl rfl rfl)))
    | (intro x; refine Keeps.cut (r := s) x ?_ (fun _ => ?_) <;> [subst x; clear_value x])
    | (intro (x : _ × State); refine Keeps.cut (r := s) x.2 ?_ (fun _ => ?_) <;> [subst x; clear_value x])
    | (intro x; clear_value x)
    | with_reducible (refine Keeps.ite ?_ ?_)
    | split
    | lift_lets
    | with_reducible (refine Keeps.ofSnd (by assumption) ?_)
    | with_reducible (refine Keeps.ofSnd2 (by assumption) ?_)
    | intro

theorem Keeps.execPlateTWrite (s : State) src ddr p value :
    ∃ t, execPlateTWrite src ddr p value s = .next t ∧ Keeps s t := by
  refine ⟨_, rfl, Keeps.ite (Keeps.refl s) (Keeps.withReg (Keeps.refl s) _ _ _ _ fun t k => ?_)⟩
  dsimp only
  refine Keeps.ite (Keeps.tWrite ?_ _ _ _) ?_ <;> exact Keeps.ite (k.wr _ _ _) k

theorem Keeps.execRawSheetDecode (s : State) die n :
    ∃ t, execRawSheetDecode die n s = .next t ∧ Keeps s t := by
  refine ⟨_, rfl, ?_⟩
  repeat' first
    | exact Keeps.refl s
    | with_reducible apply Keeps.rawDecode
    | (fail_if_no_progress (with_reducible (refine Keeps.lit ?_ rfl rfl rfl)))
    | with_reducible (refine Keeps.ite ?_ ?_)
    | split

theorem Keeps.execRecodeDone (s : State) m :
    ∃ t, execRecodeDone m s = .next t ∧ Keeps s t := by
  refine ⟨_, rfl, ?_⟩
  repeat' first
    | exact Keeps.refl s
    | with_reducible apply Keeps.recodeDone
    | (fail_if_no_progress (with_reducible (refine Keeps.lit ?_ rfl rfl rfl)))
    | with_reducible (refine Keeps.ite ?_ ?_)
    | split

theorem Keeps.execSheetRead (s : State) n :
    ∃ t, execSheetRead n s = .next t ∧ Keeps s t := by
  refine ⟨_, rfl, ?_⟩
  repeat' first
    | exact Keeps.refl s
    | with_reducible apply Keeps.memServe
    | (fail_if_no_progress (with_reducible (refine Keeps.lit ?_ rfl rfl rfl)))
    | with_reducible (refine Keeps.ite ?_ ?_)
    | split

theorem Keeps.execSheetWrite (s : State) n :
    ∃ t, execSheetWrite n s = .next t ∧ Keeps s t := by
  refine ⟨_, rfl, ?_⟩
  repeat' first
    | exact Keeps.refl s
    | with_reducible apply Keeps.memServe
    | (fail_if_no_progress (with_reducible (refine Keeps.lit ?_ rfl rfl rfl)))
    | with_reducible (refine Keeps.ite ?_ ?_)
    | split

theorem Keeps.execUeReport (s : State) n die :
    ∃ t, execUeReport n die s = .next t ∧ Keeps s t := by
  refine ⟨_, rfl, ?_⟩
  repeat' first
    | exact Keeps.refl s
    | with_reducible apply Keeps.countOutcome
    | with_reducible apply Keeps.setCorr
    | (fail_if_no_progress (with_reducible (refine Keeps.lit ?_ rfl rfl rfl)))
    | with_reducible (refine Keeps.ite ?_ ?_)
    | split

theorem Keeps.execWmWalkDone (s : State) :
    ∃ t, execWmWalkDone s = .next t ∧ Keeps s t := by
  refine ⟨_, rfl, ?_⟩
  repeat' first
    | exact Keeps.refl s
    | with_reducible apply Keeps.wmDone
    | (fail_if_no_progress (with_reducible (refine Keeps.lit ?_ rfl rfl rfl)))
    | with_reducible (refine Keeps.ite ?_ ?_)
    | split

theorem Keeps.execCoreClaimRead (s : State) src core m :
    ∃ t, execCoreClaimRead src core m s = .next t ∧ Keeps s t := by
  refine ⟨_, rfl, ?_⟩
  have h := Keeps.refl s
  repeat' first
    | with_reducible assumption
    | with_reducible apply Keeps.claimRead
    | with_reducible apply Keeps.withRead
    | with_reducible (refine Keeps.foldl _ ?_ (fun _ _ _ => ?_))
    | with_reducible (refine Keeps.foldlSnd _ ?_ (fun _ _ _ => ?_))
    | with_reducible (refine Keeps.foldlSnd2 _ ?_ (fun _ _ _ => ?_))
    | (fail_if_no_progress (with_reducible (refine Keeps.lit ?_ rfl rfl rfl)))
    | (intro x; refine Keeps.cut (r := s) x ?_ (fun _ => ?_) <;> [subst x; clear_value x])
    | (intro (x : _ × State); refine Keeps.cut (r := s) x.2 ?_ (fun _ => ?_) <;> [subst x; clear_value x])
    | (intro x; clear_value x)
    | with_reducible (refine Keeps.ite ?_ ?_)
    | split
    | lift_lets
    | with_reducible (refine Keeps.ofSnd (by assumption) ?_)
    | with_reducible (refine Keeps.ofSnd2 (by assumption) ?_)
    | intro

theorem Keeps.execCoreInitDone (s : State) core :
    ∃ t, execCoreInitDone core s = .next t ∧ Keeps s t := by
  refine ⟨_, rfl, ?_⟩
  repeat' first
    | exact Keeps.refl s
    | with_reducible apply Keeps.coreInitDone
    | (fail_if_no_progress (with_reducible (refine Keeps.lit ?_ rfl rfl rfl)))
    | with_reducible (refine Keeps.ite ?_ ?_)
    | split

theorem Keeps.execCoreReset (s : State) src core :
    ∃ t, execCoreReset src core s = .next t ∧ Keeps s t := by
  refine ⟨_, rfl, ?_⟩
  have h := Keeps.refl s
  repeat' first
    | with_reducible assumption
    | with_reducible apply Keeps.coreHeld
    | with_reducible apply Keeps.withReg
    | with_reducible (refine Keeps.foldl _ ?_ (fun _ _ _ => ?_))
    | with_reducible (refine Keeps.foldlSnd _ ?_ (fun _ _ _ => ?_))
    | with_reducible (refine Keeps.foldlSnd2 _ ?_ (fun _ _ _ => ?_))
    | (fail_if_no_progress (with_reducible (refine Keeps.lit ?_ rfl rfl rfl)))
    | (intro x; refine Keeps.cut (r := s) x ?_ (fun _ => ?_) <;> [subst x; clear_value x])
    | (intro (x : _ × State); refine Keeps.cut (r := s) x.2 ?_ (fun _ => ?_) <;> [subst x; clear_value x])
    | (intro x; clear_value x)
    | with_reducible (refine Keeps.ite ?_ ?_)
    | split
    | lift_lets
    | with_reducible (refine Keeps.ofSnd (by assumption) ?_)
    | with_reducible (refine Keeps.ofSnd2 (by assumption) ?_)
    | intro

theorem Keeps.execCoreRun (s : State) src core :
    ∃ t, execCoreRun src core s = .next t ∧ Keeps s t := by
  refine ⟨_, rfl, ?_⟩
  have h := Keeps.refl s
  repeat' first
    | with_reducible assumption
    | with_reducible apply Keeps.coreRun
    | with_reducible apply Keeps.withReg
    | with_reducible (refine Keeps.foldl _ ?_ (fun _ _ _ => ?_))
    | with_reducible (refine Keeps.foldlSnd _ ?_ (fun _ _ _ => ?_))
    | with_reducible (refine Keeps.foldlSnd2 _ ?_ (fun _ _ _ => ?_))
    | (fail_if_no_progress (with_reducible (refine Keeps.lit ?_ rfl rfl rfl)))
    | (intro x; refine Keeps.cut (r := s) x ?_ (fun _ => ?_) <;> [subst x; clear_value x])
    | (intro (x : _ × State); refine Keeps.cut (r := s) x.2 ?_ (fun _ => ?_) <;> [subst x; clear_value x])
    | (intro x; clear_value x)
    | with_reducible (refine Keeps.ite ?_ ?_)
    | split
    | lift_lets
    | with_reducible (refine Keeps.ofSnd (by assumption) ?_)
    | with_reducible (refine Keeps.ofSnd2 (by assumption) ?_)
    | intro

theorem Keeps.execCoreSsipSet (s : State) src core value :
    ∃ t, execCoreSsipSet src core value s = .next t ∧ Keeps s t := by
  refine ⟨_, rfl, ?_⟩
  have h := Keeps.refl s
  repeat' first
    | with_reducible assumption
    | with_reducible apply Keeps.mipBit
    | with_reducible apply Keeps.withReg
    | with_reducible (refine Keeps.foldl _ ?_ (fun _ _ _ => ?_))
    | with_reducible (refine Keeps.foldlSnd _ ?_ (fun _ _ _ => ?_))
    | with_reducible (refine Keeps.foldlSnd2 _ ?_ (fun _ _ _ => ?_))
    | (fail_if_no_progress (with_reducible (refine Keeps.lit ?_ rfl rfl rfl)))
    | (intro x; refine Keeps.cut (r := s) x ?_ (fun _ => ?_) <;> [subst x; clear_value x])
    | (intro (x : _ × State); refine Keeps.cut (r := s) x.2 ?_ (fun _ => ?_) <;> [subst x; clear_value x])
    | (intro x; clear_value x)
    | with_reducible (refine Keeps.ite ?_ ?_)
    | split
    | lift_lets
    | with_reducible (refine Keeps.ofSnd (by assumption) ?_)
    | with_reducible (refine Keeps.ofSnd2 (by assumption) ?_)
    | intro

theorem Keeps.execCounterOverflow (s : State) core n :
    ∃ t, execCounterOverflow core n s = .next t ∧ Keeps s t := by
  refine ⟨_, rfl, ?_⟩
  repeat' first
    | exact Keeps.refl s
    | with_reducible apply Keeps.perfWrap
    | with_reducible apply Keeps.setCsr
    | (fail_if_no_progress (with_reducible (refine Keeps.lit ?_ rfl rfl rfl)))
    | with_reducible (refine Keeps.ite ?_ ?_)
    | split

theorem Keeps.execCsrWrite (s : State) core pc csr op rd value :
    ∃ t, execCsrWrite core pc csr op rd value s = .next t ∧ Keeps s t := by
  refine ⟨_, rfl, ?_⟩
  have h := Keeps.refl s
  repeat' first
    | with_reducible assumption
    | with_reducible apply Keeps.csrWrite
    | with_reducible apply Keeps.issue
    | with_reducible (refine Keeps.foldl _ ?_ (fun _ _ _ => ?_))
    | with_reducible (refine Keeps.foldlSnd _ ?_ (fun _ _ _ => ?_))
    | with_reducible (refine Keeps.foldlSnd2 _ ?_ (fun _ _ _ => ?_))
    | (fail_if_no_progress (with_reducible (refine Keeps.lit ?_ rfl rfl rfl)))
    | (intro x; refine Keeps.cut (r := s) x ?_ (fun _ => ?_) <;> [subst x; clear_value x])
    | (intro (x : _ × State); refine Keeps.cut (r := s) x.2 ?_ (fun _ => ?_) <;> [subst x; clear_value x])
    | (intro x; clear_value x)
    | with_reducible (refine Keeps.ite ?_ ?_)
    | split
    | lift_lets
    | with_reducible (refine Keeps.ofSnd (by assumption) ?_)
    | with_reducible (refine Keeps.ofSnd2 (by assumption) ?_)
    | intro

theorem Keeps.execInterruptTake (s : State) core pc :
    ∃ t, execInterruptTake core pc s = .next t ∧ Keeps s t := by
  refine ⟨_, rfl, ?_⟩
  repeat' first
    | exact Keeps.refl s
    | with_reducible apply Keeps.interrupt
    | with_reducible apply Keeps.interruptHalted
    | (fail_if_no_progress (with_reducible (refine Keeps.lit ?_ rfl rfl rfl)))
    | with_reducible (refine Keeps.ite ?_ ?_)
    | split

theorem Keeps.execMret (s : State) core pc :
    ∃ t, execMret core pc s = .next t ∧ Keeps s t := by
  refine ⟨_, rfl, ?_⟩
  have h := Keeps.refl s
  repeat' first
    | with_reducible assumption
    | with_reducible apply Keeps.issue
    | with_reducible apply Keeps.mret
    | with_reducible apply Keeps.notInProof
    | with_reducible apply Keeps.takeHalt
    | with_reducible (refine Keeps.foldl _ ?_ (fun _ _ _ => ?_))
    | with_reducible (refine Keeps.foldlSnd _ ?_ (fun _ _ _ => ?_))
    | with_reducible (refine Keeps.foldlSnd2 _ ?_ (fun _ _ _ => ?_))
    | (fail_if_no_progress (with_reducible (refine Keeps.lit ?_ rfl rfl rfl)))
    | (intro x; refine Keeps.cut (r := s) x ?_ (fun _ => ?_) <;> [subst x; clear_value x])
    | (intro (x : _ × State); refine Keeps.cut (r := s) x.2 ?_ (fun _ => ?_) <;> [subst x; clear_value x])
    | (intro x; clear_value x)
    | with_reducible (refine Keeps.ite ?_ ?_)
    | split
    | lift_lets
    | with_reducible (refine Keeps.ofSnd (by assumption) ?_)
    | with_reducible (refine Keeps.ofSnd2 (by assumption) ?_)
    | intro

theorem Keeps.execPredictorFlush (s : State) core pc :
    ∃ t, execPredictorFlush core pc s = .next t ∧ Keeps s t := by
  refine ⟨_, rfl, ?_⟩
  have h := Keeps.refl s
  repeat' first
    | with_reducible assumption
    | with_reducible apply Keeps.csrWrite
    | with_reducible apply Keeps.issue
    | with_reducible (refine Keeps.foldl _ ?_ (fun _ _ _ => ?_))
    | with_reducible (refine Keeps.foldlSnd _ ?_ (fun _ _ _ => ?_))
    | with_reducible (refine Keeps.foldlSnd2 _ ?_ (fun _ _ _ => ?_))
    | (fail_if_no_progress (with_reducible (refine Keeps.lit ?_ rfl rfl rfl)))
    | (intro x; refine Keeps.cut (r := s) x ?_ (fun _ => ?_) <;> [subst x; clear_value x])
    | (intro (x : _ × State); refine Keeps.cut (r := s) x.2 ?_ (fun _ => ?_) <;> [subst x; clear_value x])
    | (intro x; clear_value x)
    | with_reducible (refine Keeps.ite ?_ ?_)
    | split
    | lift_lets
    | with_reducible (refine Keeps.ofSnd (by assumption) ?_)
    | with_reducible (refine Keeps.ofSnd2 (by assumption) ?_)
    | intro

theorem Keeps.execSret (s : State) core pc :
    ∃ t, execSret core pc s = .next t ∧ Keeps s t := by
  refine ⟨_, rfl, ?_⟩
  have h := Keeps.refl s
  repeat' first
    | with_reducible assumption
    | with_reducible apply Keeps.issue
    | with_reducible apply Keeps.notInProof
    | with_reducible apply Keeps.sret
    | with_reducible (refine Keeps.foldl _ ?_ (fun _ _ _ => ?_))
    | with_reducible (refine Keeps.foldlSnd _ ?_ (fun _ _ _ => ?_))
    | with_reducible (refine Keeps.foldlSnd2 _ ?_ (fun _ _ _ => ?_))
    | (fail_if_no_progress (with_reducible (refine Keeps.lit ?_ rfl rfl rfl)))
    | (intro x; refine Keeps.cut (r := s) x ?_ (fun _ => ?_) <;> [subst x; clear_value x])
    | (intro (x : _ × State); refine Keeps.cut (r := s) x.2 ?_ (fun _ => ?_) <;> [subst x; clear_value x])
    | (intro x; clear_value x)
    | with_reducible (refine Keeps.ite ?_ ?_)
    | split
    | lift_lets
    | with_reducible (refine Keeps.ofSnd (by assumption) ?_)
    | with_reducible (refine Keeps.ofSnd2 (by assumption) ?_)
    | intro

theorem Keeps.execTimerCompare (s : State) core :
    ∃ t, execTimerCompare core s = .next t ∧ Keeps s t := by
  refine ⟨_, rfl, ?_⟩
  repeat' first
    | exact Keeps.refl s
    | with_reducible apply Keeps.timerBits
    | (fail_if_no_progress (with_reducible (refine Keeps.lit ?_ rfl rfl rfl)))
    | with_reducible (refine Keeps.ite ?_ ?_)
    | split

theorem Keeps.execTrap (s : State) core pc cause tval :
    ∃ t, execTrap core pc cause tval s = .next t ∧ Keeps s t := by
  refine ⟨_, rfl, ?_⟩
  have h := Keeps.refl s
  repeat' first
    | with_reducible assumption
    | with_reducible apply Keeps.exception
    | with_reducible apply Keeps.issue
    | with_reducible (refine Keeps.foldl _ ?_ (fun _ _ _ => ?_))
    | with_reducible (refine Keeps.foldlSnd _ ?_ (fun _ _ _ => ?_))
    | with_reducible (refine Keeps.foldlSnd2 _ ?_ (fun _ _ _ => ?_))
    | (fail_if_no_progress (with_reducible (refine Keeps.lit ?_ rfl rfl rfl)))
    | (intro x; refine Keeps.cut (r := s) x ?_ (fun _ => ?_) <;> [subst x; clear_value x])
    | (intro (x : _ × State); refine Keeps.cut (r := s) x.2 ?_ (fun _ => ?_) <;> [subst x; clear_value x])
    | (intro x; clear_value x)
    | with_reducible (refine Keeps.ite ?_ ?_)
    | split
    | lift_lets
    | with_reducible (refine Keeps.ofSnd (by assumption) ?_)
    | with_reducible (refine Keeps.ofSnd2 (by assumption) ?_)
    | intro

theorem Keeps.execWfi (s : State) core pc :
    ∃ t, execWfi core pc s = .next t ∧ Keeps s t := by
  refine ⟨_, rfl, ?_⟩
  have h := Keeps.refl s
  repeat' first
    | with_reducible assumption
    | with_reducible apply Keeps.issue
    | with_reducible apply Keeps.notInProof
    | with_reducible apply Keeps.wfi
    | with_reducible (refine Keeps.foldl _ ?_ (fun _ _ _ => ?_))
    | with_reducible (refine Keeps.foldlSnd _ ?_ (fun _ _ _ => ?_))
    | with_reducible (refine Keeps.foldlSnd2 _ ?_ (fun _ _ _ => ?_))
    | (fail_if_no_progress (with_reducible (refine Keeps.lit ?_ rfl rfl rfl)))
    | (intro x; refine Keeps.cut (r := s) x ?_ (fun _ => ?_) <;> [subst x; clear_value x])
    | (intro (x : _ × State); refine Keeps.cut (r := s) x.2 ?_ (fun _ => ?_) <;> [subst x; clear_value x])
    | (intro x; clear_value x)
    | with_reducible (refine Keeps.ite ?_ ?_)
    | split
    | lift_lets
    | with_reducible (refine Keeps.ofSnd (by assumption) ?_)
    | with_reducible (refine Keeps.ofSnd2 (by assumption) ?_)
    | intro

theorem Keeps.execWfiWake (s : State) core :
    ∃ t, execWfiWake core s = .next t ∧ Keeps s t := by
  refine ⟨_, rfl, ?_⟩
  repeat' first
    | exact Keeps.refl s
    | with_reducible apply Keeps.wr
    | (fail_if_no_progress (with_reducible (refine Keeps.lit ?_ rfl rfl rfl)))
    | with_reducible (refine Keeps.ite ?_ ?_)
    | split

theorem Keeps.execAcceptBlockSend (s : State) n :
    ∃ t, execAcceptBlockSend n s = .next t ∧ Keeps s t := by
  refine ⟨_, rfl, ?_⟩
  repeat' first
    | exact Keeps.refl s
    | with_reducible apply Keeps.txUntil
    | (fail_if_no_progress (with_reducible (refine Keeps.lit ?_ rfl rfl rfl)))
    | with_reducible (refine Keeps.ite ?_ ?_)
    | split

theorem Keeps.execCmdBlockSend (s : State) n :
    ∃ t, execCmdBlockSend n s = .next t ∧ Keeps s t := by
  refine ⟨_, rfl, ?_⟩
  repeat' first
    | exact Keeps.refl s
    | with_reducible apply Keeps.txUntil
    | (fail_if_no_progress (with_reducible (refine Keeps.lit ?_ rfl rfl rfl)))
    | with_reducible (refine Keeps.ite ?_ ?_)
    | split

theorem Keeps.execDataFrame (s : State) n h0 h1 payload crc hdrErr ctrlErr broken :
    ∃ t, execDataFrame n h0 h1 payload crc hdrErr ctrlErr broken s = .next t ∧ Keeps s t :=
  ⟨_, rfl, Keeps.rxFrame (Keeps.refl s) _ _⟩

theorem Keeps.execGroupPllLock (s : State) g :
    ∃ t, execGroupPllLock g s = .next t ∧ Keeps s t := by
  refine ⟨_, rfl, ?_⟩
  have h := Keeps.refl s
  repeat' first
    | with_reducible assumption
    | with_reducible apply Keeps.groupLock
    | with_reducible apply Keeps.onLane
    | with_reducible (refine Keeps.foldl _ ?_ (fun _ _ _ => ?_))
    | with_reducible (refine Keeps.foldlSnd _ ?_ (fun _ _ _ => ?_))
    | with_reducible (refine Keeps.foldlSnd2 _ ?_ (fun _ _ _ => ?_))
    | (fail_if_no_progress (with_reducible (refine Keeps.lit ?_ rfl rfl rfl)))
    | (intro x; refine Keeps.cut (r := s) x ?_ (fun _ => ?_) <;> [subst x; clear_value x])
    | (intro (x : _ × State); refine Keeps.cut (r := s) x.2 ?_ (fun _ => ?_) <;> [subst x; clear_value x])
    | (intro x; clear_value x)
    | with_reducible (refine Keeps.ite ?_ ?_)
    | split
    | lift_lets
    | with_reducible (refine Keeps.ofSnd (by assumption) ?_)
    | with_reducible (refine Keeps.ofSnd2 (by assumption) ?_)
    | intro

theorem Keeps.execHistoryWriteDone (s : State) n :
    ∃ t, execHistoryWriteDone n s = .next t ∧ Keeps s t := by
  refine ⟨_, rfl, ?_⟩
  repeat' first
    | exact Keeps.refl s
    | with_reducible apply Keeps.histWrite
    | (fail_if_no_progress (with_reducible (refine Keeps.lit ?_ rfl rfl rfl)))
    | with_reducible (refine Keeps.ite ?_ ?_)
    | split

theorem Keeps.execHlnGrpRateWrite (s : State) src g value :
    ∃ t, execHlnGrpRateWrite src g value s = .next t ∧ Keeps s t := by
  refine ⟨_, rfl, ?_⟩
  have h := Keeps.refl s
  repeat' first
    | with_reducible assumption
    | with_reducible apply Keeps.grpRate
    | with_reducible apply Keeps.withReg
    | with_reducible (refine Keeps.foldl _ ?_ (fun _ _ _ => ?_))
    | with_reducible (refine Keeps.foldlSnd _ ?_ (fun _ _ _ => ?_))
    | with_reducible (refine Keeps.foldlSnd2 _ ?_ (fun _ _ _ => ?_))
    | (fail_if_no_progress (with_reducible (refine Keeps.lit ?_ rfl rfl rfl)))
    | (intro x; refine Keeps.cut (r := s) x ?_ (fun _ => ?_) <;> [subst x; clear_value x])
    | (intro (x : _ × State); refine Keeps.cut (r := s) x.2 ?_ (fun _ => ?_) <;> [subst x; clear_value x])
    | (intro x; clear_value x)
    | with_reducible (refine Keeps.ite ?_ ?_)
    | split
    | lift_lets
    | with_reducible (refine Keeps.ofSnd (by assumption) ?_)
    | with_reducible (refine Keeps.ofSnd2 (by assumption) ?_)
    | intro

theorem Keeps.execLaneBlockLock (s : State) n hdrErr :
    ∃ t, execLaneBlockLock n hdrErr s = .next t ∧ Keeps s t := by
  refine ⟨_, rfl, ?_⟩
  have h := Keeps.refl s
  repeat' first
    | with_reducible assumption
    | with_reducible apply Keeps.inc
    | with_reducible apply Keeps.laneGo
    | with_reducible apply Keeps.onLane
    | with_reducible (refine Keeps.foldl _ ?_ (fun _ _ _ => ?_))
    | with_reducible (refine Keeps.foldlSnd _ ?_ (fun _ _ _ => ?_))
    | with_reducible (refine Keeps.foldlSnd2 _ ?_ (fun _ _ _ => ?_))
    | (fail_if_no_progress (with_reducible (refine Keeps.lit ?_ rfl rfl rfl)))
    | (intro x; refine Keeps.cut (r := s) x ?_ (fun _ => ?_) <;> [subst x; clear_value x])
    | (intro (x : _ × State); refine Keeps.cut (r := s) x.2 ?_ (fun _ => ?_) <;> [subst x; clear_value x])
    | (intro x; clear_value x)
    | with_reducible (refine Keeps.ite ?_ ?_)
    | split
    | lift_lets
    | with_reducible (refine Keeps.ofSnd (by assumption) ?_)
    | with_reducible (refine Keeps.ofSnd2 (by assumption) ?_)
    | intro

theorem Keeps.execLaneBlockLockLoss (s : State) n hdrErr :
    ∃ t, execLaneBlockLockLoss n hdrErr s = .next t ∧ Keeps s t := by
  refine ⟨_, rfl, ?_⟩
  have h := Keeps.refl s
  repeat' first
    | with_reducible assumption
    | with_reducible apply Keeps.inc
    | with_reducible apply Keeps.laneGo
    | with_reducible apply Keeps.onLane
    | with_reducible (refine Keeps.foldl _ ?_ (fun _ _ _ => ?_))
    | with_reducible (refine Keeps.foldlSnd _ ?_ (fun _ _ _ => ?_))
    | with_reducible (refine Keeps.foldlSnd2 _ ?_ (fun _ _ _ => ?_))
    | (fail_if_no_progress (with_reducible (refine Keeps.lit ?_ rfl rfl rfl)))
    | (intro x; refine Keeps.cut (r := s) x ?_ (fun _ => ?_) <;> [subst x; clear_value x])
    | (intro (x : _ × State); refine Keeps.cut (r := s) x.2 ?_ (fun _ => ?_) <;> [subst x; clear_value x])
    | (intro x; clear_value x)
    | with_reducible (refine Keeps.ite ?_ ?_)
    | split
    | lift_lets
    | with_reducible (refine Keeps.ofSnd (by assumption) ?_)
    | with_reducible (refine Keeps.ofSnd2 (by assumption) ?_)
    | intro

theorem Keeps.execLaneCdrLock (s : State) n :
    ∃ t, execLaneCdrLock n s = .next t ∧ Keeps s t := by
  refine ⟨_, rfl, ?_⟩
  have h := Keeps.refl s
  repeat' first
    | with_reducible assumption
    | with_reducible apply Keeps.cdrLock
    | with_reducible apply Keeps.onLane
    | with_reducible (refine Keeps.foldl _ ?_ (fun _ _ _ => ?_))
    | with_reducible (refine Keeps.foldlSnd _ ?_ (fun _ _ _ => ?_))
    | with_reducible (refine Keeps.foldlSnd2 _ ?_ (fun _ _ _ => ?_))
    | (fail_if_no_progress (with_reducible (refine Keeps.lit ?_ rfl rfl rfl)))
    | (intro x; refine Keeps.cut (r := s) x ?_ (fun _ => ?_) <;> [subst x; clear_value x])
    | (intro (x : _ × State); refine Keeps.cut (r := s) x.2 ?_ (fun _ => ?_) <;> [subst x; clear_value x])
    | (intro x; clear_value x)
    | with_reducible (refine Keeps.ite ?_ ?_)
    | split
    | lift_lets
    | with_reducible (refine Keeps.ofSnd (by assumption) ?_)
    | with_reducible (refine Keeps.ofSnd2 (by assumption) ?_)
    | intro

theorem Keeps.execLaneCntClr (s : State) src n :
    ∃ t, execLaneCntClr src n s = .next t ∧ Keeps s t := by
  refine ⟨_, rfl, ?_⟩
  have h := Keeps.refl s
  repeat' first
    | with_reducible assumption
    | with_reducible apply Keeps.laneClear
    | with_reducible apply Keeps.withReg
    | with_reducible (refine Keeps.foldl _ ?_ (fun _ _ _ => ?_))
    | with_reducible (refine Keeps.foldlSnd _ ?_ (fun _ _ _ => ?_))
    | with_reducible (refine Keeps.foldlSnd2 _ ?_ (fun _ _ _ => ?_))
    | (fail_if_no_progress (with_reducible (refine Keeps.lit ?_ rfl rfl rfl)))
    | (intro x; refine Keeps.cut (r := s) x ?_ (fun _ => ?_) <;> [subst x; clear_value x])
    | (intro (x : _ × State); refine Keeps.cut (r := s) x.2 ?_ (fun _ => ?_) <;> [subst x; clear_value x])
    | (intro x; clear_value x)
    | with_reducible (refine Keeps.ite ?_ ?_)
    | split
    | lift_lets
    | with_reducible (refine Keeps.ofSnd (by assumption) ?_)
    | with_reducible (refine Keeps.ofSnd2 (by assumption) ?_)
    | intro

theorem Keeps.execLaneResync (s : State) src n :
    ∃ t, execLaneResync src n s = .next t ∧ Keeps s t := by
  refine ⟨_, rfl, ?_⟩
  have h := Keeps.refl s
  repeat' first
    | with_reducible assumption
    | with_reducible apply Keeps.laneResync
    | with_reducible apply Keeps.withReg
    | with_reducible (refine Keeps.foldl _ ?_ (fun _ _ _ => ?_))
    | with_reducible (refine Keeps.foldlSnd _ ?_ (fun _ _ _ => ?_))
    | with_reducible (refine Keeps.foldlSnd2 _ ?_ (fun _ _ _ => ?_))
    | (fail_if_no_progress (with_reducible (refine Keeps.lit ?_ rfl rfl rfl)))
    | (intro x; refine Keeps.cut (r := s) x ?_ (fun _ => ?_) <;> [subst x; clear_value x])
    | (intro (x : _ × State); refine Keeps.cut (r := s) x.2 ?_ (fun _ => ?_) <;> [subst x; clear_value x])
    | (intro x; clear_value x)
    | with_reducible (refine Keeps.ite ?_ ?_)
    | split
    | lift_lets
    | with_reducible (refine Keeps.ofSnd (by assumption) ?_)
    | with_reducible (refine Keeps.ofSnd2 (by assumption) ?_)
    | intro

theorem Keeps.execLaneRxEn (s : State) src n on :
    ∃ t, execLaneRxEn src n on s = .next t ∧ Keeps s t := by
  refine ⟨_, rfl, ?_⟩
  have h := Keeps.refl s
  repeat' first
    | with_reducible assumption
    | with_reducible apply Keeps.rxEn
    | with_reducible apply Keeps.withReg
    | with_reducible (refine Keeps.foldl _ ?_ (fun _ _ _ => ?_))
    | with_reducible (refine Keeps.foldlSnd _ ?_ (fun _ _ _ => ?_))
    | with_reducible (refine Keeps.foldlSnd2 _ ?_ (fun _ _ _ => ?_))
    | (fail_if_no_progress (with_reducible (refine Keeps.lit ?_ rfl rfl rfl)))
    | (intro x; refine Keeps.cut (r := s) x ?_ (fun _ => ?_) <;> [subst x; clear_value x])
    | (intro (x : _ × State); refine Keeps.cut (r := s) x.2 ?_ (fun _ => ?_) <;> [subst x; clear_value x])
    | (intro x; clear_value x)
    | with_reducible (refine Keeps.ite ?_ ?_)
    | split
    | lift_lets
    | with_reducible (refine Keeps.ofSnd (by assumption) ?_)
    | with_reducible (refine Keeps.ofSnd2 (by assumption) ?_)
    | intro

end Sys2Proof.Machine
end

