-- ==== Sys2Proof/Laws/KeepsExecB.lean ====
section
/-!
SUPPORT. Each command of Lanes, Contexts, Tio, Beat, Trigger, Guests, Proofs, Stipple, Doe, Slices, Debug, RegWrite,
Profile, Ledger, Boot, CoreMem, DebugPort ends in a next state that keeps the relation `Keeps` to the state it began
in.
-/

set_option Elab.async false

set_option linter.all false

namespace Sys2Proof.Machine

theorem Keeps.execLaneSignalLoss (s : State) n :
    ∃ t, execLaneSignalLoss n s = .next t ∧ Keeps s t := by
  refine ⟨_, rfl, Keeps.onLane (Keeps.refl s) _ _ fun t k => ?_⟩
  have k := (k.setLane n { t.lane n with signal := false }).wr F.LANE_STATUS.SIGNAL n 0
  exact Keeps.ite k (k.laneGo _ _)

theorem Keeps.execLaneTxEn (s : State) src n on :
    ∃ t, execLaneTxEn src n on s = .next t ∧ Keeps s t := by
  refine ⟨_, rfl, ?_⟩
  have h := Keeps.refl s
  repeat' first
    | with_reducible assumption
    | with_reducible apply Keeps.txEn
    | with_reducible apply Keeps.withReg
    | with_reducible (refine Keeps.foldl _ ?_ (fun _ _ _ => ?_))
    | with_reducible (refine Keeps.foldlSnd _ ?_ (fun _ _ _ => ?_))
    | with_reducible (refine Keeps.foldlSnd2 _ ?_ (fun _ _ _ => ?_))
    | (fail_if_no_progress (with_reducible (refine Keeps.lit ?_ rfl rfl rfl)))
    | (intro x; refine Keeps.cut (r := s) x ?_ (fun _ => ?_) <;> [subst x; clear_value x])
    | (intro (x : _ × State); refine Keeps.cut (r := s) x.2 ?_ (fun _ => ?_) <;> [subst x; clear_value x])
    | (intro x; clear_value x)
    | with_reducible (refine Keeps.ite ?_ ?_)
    | split
    | lift_lets
    | with_reducible (refine Keeps.ofSnd (by assumption) ?_)
    | with_reducible (refine Keeps.ofSnd2 (by assumption) ?_)
    | intro

theorem Keeps.execScGo (s : State) src n value :
    ∃ t, execScGo src n value s = .next t ∧ Keeps s t := by
  refine ⟨_, rfl, ?_⟩
  have h := Keeps.refl s
  repeat' first
    | with_reducible assumption
    | with_reducible apply Keeps.scCtl
    | with_reducible apply Keeps.withReg
    | with_reducible (refine Keeps.foldl _ ?_ (fun _ _ _ => ?_))
    | with_reducible (refine Keeps.foldlSnd _ ?_ (fun _ _ _ => ?_))
    | with_reducible (refine Keeps.foldlSnd2 _ ?_ (fun _ _ _ => ?_))
    | (fail_if_no_progress (with_reducible (refine Keeps.lit ?_ rfl rfl rfl)))
    | (intro x; refine Keeps.cut (r := s) x ?_ (fun _ => ?_) <;> [subst x; clear_value x])
    | (intro (x : _ × State); refine Keeps.cut (r := s) x.2 ?_ (fun _ => ?_) <;> [subst x; clear_value x])
    | (intro x; clear_value x)
    | with_reducible (refine Keeps.ite ?_ ?_)
    | split
    | lift_lets
    | with_reducible (refine Keeps.ofSnd (by assumption) ?_)
    | with_reducible (refine Keeps.ofSnd2 (by assumption) ?_)
    | intro

theorem Keeps.execScRxfullClear (s : State) src n :
    ∃ t, execScRxfullClear src n s = .next t ∧ Keeps s t := by
  refine ⟨_, rfl, ?_⟩
  have h := Keeps.refl s
  repeat' first
    | with_reducible assumption
    | with_reducible apply Keeps.withReg
    | with_reducible apply Keeps.wr
    | with_reducible (refine Keeps.foldl _ ?_ (fun _ _ _ => ?_))
    | with_reducible (refine Keeps.foldlSnd _ ?_ (fun _ _ _ => ?_))
    | with_reducible (refine Keeps.foldlSnd2 _ ?_ (fun _ _ _ => ?_))
    | (fail_if_no_progress (with_reducible (refine Keeps.lit ?_ rfl rfl rfl)))
    | (intro x; refine Keeps.cut (r := s) x ?_ (fun _ => ?_) <;> [subst x; clear_value x])
    | (intro (x : _ × State); refine Keeps.cut (r := s) x.2 ?_ (fun _ => ?_) <;> [subst x; clear_value x])
    | (intro x; clear_value x)
    | with_reducible (refine Keeps.ite ?_ ?_)
    | split
    | lift_lets
    | with_reducible (refine Keeps.ofSnd (by assumption) ?_)
    | with_reducible (refine Keeps.ofSnd2 (by assumption) ?_)
    | intro

theorem Keeps.execScSendDone (s : State) n :
    ∃ t, execScSendDone n s = .next t ∧ Keeps s t :=
  ⟨_, rfl, Keeps.scSent (Keeps.refl s) _⟩

theorem Keeps.execScreplyFrame (s : State) n h0 h1 payload crc hdrErr ctrlErr broken :
    ∃ t, execScreplyFrame n h0 h1 payload crc hdrErr ctrlErr broken s = .next t ∧ Keeps s t :=
  ⟨_, rfl, Keeps.rxFrame (Keeps.refl s) _ _⟩

theorem Keeps.execStrayControlBlock (s : State) n :
    ∃ t, execStrayControlBlock n s = .next t ∧ Keeps s t := by
  refine ⟨_, rfl, ?_⟩
  have h := Keeps.refl s
  repeat' first
    | with_reducible assumption
    | with_reducible apply Keeps.inc
    | with_reducible apply Keeps.onLane
    | with_reducible (refine Keeps.foldl _ ?_ (fun _ _ _ => ?_))
    | with_reducible (refine Keeps.foldlSnd _ ?_ (fun _ _ _ => ?_))
    | with_reducible (refine Keeps.foldlSnd2 _ ?_ (fun _ _ _ => ?_))
    | (fail_if_no_progress (with_reducible (refine Keeps.lit ?_ rfl rfl rfl)))
    | (intro x; refine Keeps.cut (r := s) x ?_ (fun _ => ?_) <;> [subst x; clear_value x])
    | (intro (x : _ × State); refine Keeps.cut (r := s) x.2 ?_ (fun _ => ?_) <;> [subst x; clear_value x])
    | (intro x; clear_value x)
    | with_reducible (refine Keeps.ite ?_ ?_)
    | split
    | lift_lets
    | with_reducible (refine Keeps.ofSnd (by assumption) ?_)
    | with_reducible (refine Keeps.ofSnd2 (by assumption) ?_)
    | intro

theorem Keeps.execTick (s : State) n edge taken :
    ∃ t, execTick n edge taken s = .next t ∧ Keeps s t :=
  ⟨_, rfl, Keeps.tick (Keeps.refl s) _ _ _⟩

theorem Keeps.execCtxCancel (s : State) ring :
    ∃ t, execCtxCancel ring s = .next t ∧ Keeps s t := by
  refine ⟨_, rfl, ?_⟩
  have h := Keeps.refl s
  repeat' first
    | with_reducible assumption
    | with_reducible apply Keeps.ctxCancel
    | with_reducible apply Keeps.ctxCmd
    | with_reducible (refine Keeps.foldl _ ?_ (fun _ _ _ => ?_))
    | with_reducible (refine Keeps.foldlSnd _ ?_ (fun _ _ _ => ?_))
    | with_reducible (refine Keeps.foldlSnd2 _ ?_ (fun _ _ _ => ?_))
    | (fail_if_no_progress (with_reducible (refine Keeps.lit ?_ rfl rfl rfl)))
    | (intro x; refine Keeps.cut (r := s) x ?_ (fun _ => ?_) <;> [subst x; clear_value x])
    | (intro (x : _ × State); refine Keeps.cut (r := s) x.2 ?_ (fun _ => ?_) <;> [subst x; clear_value x])
    | (intro x; clear_value x)
    | with_reducible (refine Keeps.ite ?_ ?_)
    | split
    | lift_lets
    | with_reducible (refine Keeps.ofSnd (by assumption) ?_)
    | with_reducible (refine Keeps.ofSnd2 (by assumption) ?_)
    | intro

theorem Keeps.execCtxClearDone (s : State) :
    ∃ t, execCtxClearDone s = .next t ∧ Keeps s t := by
  refine ⟨_, rfl, ?_⟩
  repeat' first
    | exact Keeps.refl s
    | with_reducible apply Keeps.wr
    | (fail_if_no_progress (with_reducible (refine Keeps.lit ?_ rfl rfl rfl)))
    | with_reducible (refine Keeps.ite ?_ ?_)
    | split

theorem Keeps.execCtxFlip (s : State) ring :
    ∃ t, execCtxFlip ring s = .next t ∧ Keeps s t := by
  refine ⟨_, rfl, ?_⟩
  have h := Keeps.refl s
  repeat' first
    | with_reducible assumption
    | with_reducible apply Keeps.ctxCmd
    | with_reducible apply Keeps.ctxFlip
    | with_reducible (refine Keeps.foldl _ ?_ (fun _ _ _ => ?_))
    | with_reducible (refine Keeps.foldlSnd _ ?_ (fun _ _ _ => ?_))
    | with_reducible (refine Keeps.foldlSnd2 _ ?_ (fun _ _ _ => ?_))
    | (fail_if_no_progress (with_reducible (refine Keeps.lit ?_ rfl rfl rfl)))
    | (intro x; refine Keeps.cut (r := s) x ?_ (fun _ => ?_) <;> [subst x; clear_value x])
    | (intro (x : _ × State); refine Keeps.cut (r := s) x.2 ?_ (fun _ => ?_) <;> [subst x; clear_value x])
    | (intro x; clear_value x)
    | with_reducible (refine Keeps.ite ?_ ?_)
    | split
    | lift_lets
    | with_reducible (refine Keeps.ofSnd (by assumption) ?_)
    | with_reducible (refine Keeps.ofSnd2 (by assumption) ?_)
    | intro

theorem Keeps.execCtxLoad (s : State) ring :
    ∃ t, execCtxLoad ring s = .next t ∧ Keeps s t := by
  refine ⟨_, rfl, ?_⟩
  have h := Keeps.refl s
  repeat' first
    | with_reducible assumption
    | with_reducible apply Keeps.ctxCmd
    | with_reducible apply Keeps.ctxLoad
    | with_reducible (refine Keeps.foldl _ ?_ (fun _ _ _ => ?_))
    | with_reducible (refine Keeps.foldlSnd _ ?_ (fun _ _ _ => ?_))
    | with_reducible (refine Keeps.foldlSnd2 _ ?_ (fun _ _ _ => ?_))
    | (fail_if_no_progress (with_reducible (refine Keeps.lit ?_ rfl rfl rfl)))
    | (intro x; refine Keeps.cut (r := s) x ?_ (fun _ => ?_) <;> [subst x; clear_value x])
    | (intro (x : _ × State); refine Keeps.cut (r := s) x.2 ?_ (fun _ => ?_) <;> [subst x; clear_value x])
    | (intro x; clear_value x)
    | with_reducible (refine Keeps.ite ?_ ?_)
    | split
    | lift_lets
    | with_reducible (refine Keeps.ofSnd (by assumption) ?_)
    | with_reducible (refine Keeps.ofSnd2 (by assumption) ?_)
    | intro

theorem Keeps.execCtxLookup (s : State) bank :
    ∃ t, execCtxLookup bank s = .next t ∧ Keeps s t :=
  ⟨_, rfl, Keeps.bankGrant (Keeps.refl s) _⟩

theorem Keeps.execCtxRead (s : State) ring :
    ∃ t, execCtxRead ring s = .next t ∧ Keeps s t := by
  refine ⟨_, rfl, ?_⟩
  have h := Keeps.refl s
  repeat' first
    | with_reducible assumption
    | with_reducible apply Keeps.ctxCmd
    | with_reducible apply Keeps.ctxRead
    | with_reducible (refine Keeps.foldl _ ?_ (fun _ _ _ => ?_))
    | with_reducible (refine Keeps.foldlSnd _ ?_ (fun _ _ _ => ?_))
    | with_reducible (refine Keeps.foldlSnd2 _ ?_ (fun _ _ _ => ?_))
    | (fail_if_no_progress (with_reducible (refine Keeps.lit ?_ rfl rfl rfl)))
    | (intro x; refine Keeps.cut (r := s) x ?_ (fun _ => ?_) <;> [subst x; clear_value x])
    | (intro (x : _ × State); refine Keeps.cut (r := s) x.2 ?_ (fun _ => ?_) <;> [subst x; clear_value x])
    | (intro x; clear_value x)
    | with_reducible (refine Keeps.ite ?_ ?_)
    | split
    | lift_lets
    | with_reducible (refine Keeps.ofSnd (by assumption) ?_)
    | with_reducible (refine Keeps.ofSnd2 (by assumption) ?_)
    | intro

theorem Keeps.execCtxStage (s : State) ring :
    ∃ t, execCtxStage ring s = .next t ∧ Keeps s t := by
  refine ⟨_, rfl, ?_⟩
  have h := Keeps.refl s
  repeat' first
    | with_reducible assumption
    | with_reducible apply Keeps.ctxCmd
    | with_reducible apply Keeps.ctxStage
    | with_reducible (refine Keeps.foldl _ ?_ (fun _ _ _ => ?_))
    | with_reducible (refine Keeps.foldlSnd _ ?_ (fun _ _ _ => ?_))
    | with_reducible (refine Keeps.foldlSnd2 _ ?_ (fun _ _ _ => ?_))
    | (fail_if_no_progress (with_reducible (refine Keeps.lit ?_ rfl rfl rfl)))
    | (intro x; refine Keeps.cut (r := s) x ?_ (fun _ => ?_) <;> [subst x; clear_value x])
    | (intro (x : _ × State); refine Keeps.cut (r := s) x.2 ?_ (fun _ => ?_) <;> [subst x; clear_value x])
    | (intro x; clear_value x)
    | with_reducible (refine Keeps.ite ?_ ?_)
    | split
    | lift_lets
    | with_reducible (refine Keeps.ofSnd (by assumption) ?_)
    | with_reducible (refine Keeps.ofSnd2 (by assumption) ?_)
    | intro

theorem Keeps.execCtxStageFlip (s : State) ring :
    ∃ t, execCtxStageFlip ring s = .next t ∧ Keeps s t := by
  refine ⟨_, rfl, ?_⟩
  have h := Keeps.refl s
  repeat' first
    | with_reducible assumption
    | with_reducible apply Keeps.ctxCmd
    | with_reducible apply Keeps.ctxStageFlip
    | with_reducible (refine Keeps.foldl _ ?_ (fun _ _ _ => ?_))
    | with_reducible (refine Keeps.foldlSnd _ ?_ (fun _ _ _ => ?_))
    | with_reducible (refine Keeps.foldlSnd2 _ ?_ (fun _ _ _ => ?_))
    | (fail_if_no_progress (with_reducible (refine Keeps.lit ?_ rfl rfl rfl)))
    | (intro x; refine Keeps.cut (r := s) x ?_ (fun _ => ?_) <;> [subst x; clear_value x])
    | (intro (x : _ × State); refine Keeps.cut (r := s) x.2 ?_ (fun _ => ?_) <;> [subst x; clear_value x])
    | (intro x; clear_value x)
    | with_reducible (refine Keeps.ite ?_ ?_)
    | split
    | lift_lets
    | with_reducible (refine Keeps.ofSnd (by assumption) ?_)
    | with_reducible (refine Keeps.ofSnd2 (by assumption) ?_)
    | intro

theorem Keeps.execEpochFlip (s : State) slot :
    ∃ t, execEpochFlip slot s = .next t ∧ Keeps s t := by
  refine ⟨_, rfl, ?_⟩
  repeat' first
    | exact Keeps.refl s
    | with_reducible apply Keeps.epochFlip
    | (fail_if_no_progress (with_reducible (refine Keeps.lit ?_ rfl rfl rfl)))
    | with_reducible (refine Keeps.ite ?_ ?_)
    | split

theorem Keeps.execMergeStart (s : State) slot :
    ∃ t, execMergeStart slot s = .next t ∧ Keeps s t := by
  refine ⟨_, rfl, ?_⟩
  repeat' first
    | exact Keeps.refl s
    | with_reducible apply Keeps.mergeStart
    | (fail_if_no_progress (with_reducible (refine Keeps.lit ?_ rfl rfl rfl)))
    | with_reducible (refine Keeps.ite ?_ ?_)
    | split

theorem Keeps.execMergeWrite (s : State) bank :
    ∃ t, execMergeWrite bank s = .next t ∧ Keeps s t := by
  refine ⟨_, rfl, ?_⟩
  repeat' first
    | exact Keeps.refl s
    | with_reducible apply Keeps.mergeWrite
    | (fail_if_no_progress (with_reducible (refine Keeps.lit ?_ rfl rfl rfl)))
    | with_reducible (refine Keeps.ite ?_ ?_)
    | split

theorem Keeps.execBusyDrvWrite (s : State) src on :
    ∃ t, execBusyDrvWrite src on s = .next t ∧ Keeps s t := by
  refine ⟨_, rfl, ?_⟩
  have h := Keeps.refl s
  repeat' first
    | with_reducible assumption
    | with_reducible apply Keeps.busyDrv
    | with_reducible apply Keeps.withReg
    | with_reducible (refine Keeps.foldl _ ?_ (fun _ _ _ => ?_))
    | with_reducible (refine Keeps.foldlSnd _ ?_ (fun _ _ _ => ?_))
    | with_reducible (refine Keeps.foldlSnd2 _ ?_ (fun _ _ _ => ?_))
    | (fail_if_no_progress (with_reducible (refine Keeps.lit ?_ rfl rfl rfl)))
    | (intro x; refine Keeps.cut (r := s) x ?_ (fun _ => ?_) <;> [subst x; clear_value x])
    | (intro (x : _ × State); refine Keeps.cut (r := s) x.2 ?_ (fun _ => ?_) <;> [subst x; clear_value x])
    | (intro x; clear_value x)
    | with_reducible (refine Keeps.ite ?_ ?_)
    | split
    | lift_lets
    | with_reducible (refine Keeps.ofSnd (by assumption) ?_)
    | with_reducible (refine Keeps.ofSnd2 (by assumption) ?_)
    | intro

theorem Keeps.execBusyHoldExpire (s : State) :
    ∃ t, execBusyHoldExpire s = .next t ∧ Keeps s t := by
  refine ⟨_, rfl, ?_⟩
  repeat' first
    | exact Keeps.refl s
    | with_reducible apply Keeps.busyReady
    | (fail_if_no_progress (with_reducible (refine Keeps.lit ?_ rfl rfl rfl)))
    | with_reducible (refine Keeps.ite ?_ ?_)
    | split

theorem Keeps.execChatterWindow (s : State) k :
    ∃ t, execChatterWindow k s = .next t ∧ Keeps s t := by
  refine ⟨_, rfl, ?_⟩
  repeat' first
    | exact Keeps.refl s
    | with_reducible apply Keeps.chatterWindow
    | (fail_if_no_progress (with_reducible (refine Keeps.lit ?_ rfl rfl rfl)))
    | with_reducible (refine Keeps.ite ?_ ?_)
    | split

theorem Keeps.execRearm (s : State) src k :
    ∃ t, execRearm src k s = .next t ∧ Keeps s t := by
  refine ⟨_, rfl, ?_⟩
  have h := Keeps.refl s
  repeat' first
    | with_reducible assumption
    | with_reducible apply Keeps.rearm
    | with_reducible apply Keeps.withReg
    | with_reducible (refine Keeps.foldl _ ?_ (fun _ _ _ => ?_))
    | with_reducible (refine Keeps.foldlSnd _ ?_ (fun _ _ _ => ?_))
    | with_reducible (refine Keeps.foldlSnd2 _ ?_ (fun _ _ _ => ?_))
    | (fail_if_no_progress (with_reducible (refine Keeps.lit ?_ rfl rfl rfl)))
    | (intro x; refine Keeps.cut (r := s) x ?_ (fun _ => ?_) <;> [subst x; clear_value x])
    | (intro (x : _ × State); refine Keeps.cut (r := s) x.2 ?_ (fun _ => ?_) <;> [subst x; clear_value x])
    | (intro x; clear_value x)
    | with_reducible (refine Keeps.ite ?_ ?_)
    | split
    | lift_lets
    | with_reducible (refine Keeps.ofSnd (by assumption) ?_)
    | with_reducible (refine Keeps.ofSnd2 (by assumption) ?_)
    | intro

theorem Keeps.execStuckDetect (s : State) k :
    ∃ t, execStuckDetect k s = .next t ∧ Keeps s t := by
  refine ⟨_, rfl, ?_⟩
  repeat' first
    | exact Keeps.refl s
    | with_reducible apply Keeps.stuck
    | (fail_if_no_progress (with_reducible (refine Keeps.lit ?_ rfl rfl rfl)))
    | with_reducible (refine Keeps.ite ?_ ?_)
    | split

theorem Keeps.execTioInEnApply (s : State) k :
    ∃ t, execTioInEnApply k s = .next t ∧ Keeps s t := by
  refine ⟨_, rfl, ?_⟩
  repeat' first
    | exact Keeps.refl s
    | with_reducible apply Keeps.inEnApply
    | (fail_if_no_progress (with_reducible (refine Keeps.lit ?_ rfl rfl rfl)))
    | with_reducible (refine Keeps.ite ?_ ?_)
    | split

theorem Keeps.execTioInEnWrite (s : State) src k on :
    ∃ t, execTioInEnWrite src k on s = .next t ∧ Keeps s t := by
  refine ⟨_, rfl, ?_⟩
  have h := Keeps.refl s
  repeat' first
    | with_reducible assumption
    | with_reducible apply Keeps.inEn
    | with_reducible apply Keeps.withReg
    | with_reducible (refine Keeps.foldl _ ?_ (fun _ _ _ => ?_))
    | with_reducible (refine Keeps.foldlSnd _ ?_ (fun _ _ _ => ?_))
    | with_reducible (refine Keeps.foldlSnd2 _ ?_ (fun _ _ _ => ?_))
    | (fail_if_no_progress (with_reducible (refine Keeps.lit ?_ rfl rfl rfl)))
    | (intro x; refine Keeps.cut (r := s) x ?_ (fun _ => ?_) <;> [subst x; clear_value x])
    | (intro (x : _ × State); refine Keeps.cut (r := s) x.2 ?_ (fun _ => ?_) <;> [subst x; clear_value x])
    | (intro x; clear_value x)
    | with_reducible (refine Keeps.ite ?_ ?_)
    | split
    | lift_lets
    | with_reducible (refine Keeps.ofSnd (by assumption) ?_)
    | with_reducible (refine Keeps.ofSnd2 (by assumption) ?_)
    | intro

theorem Keeps.execTioInputEdge (s : State) k level beat :
    ∃ t, execTioInputEdge k level beat s = .next t ∧ Keeps s t := by
  refine ⟨_, rfl, ?_⟩
  repeat' first
    | exact Keeps.refl s
    | with_reducible apply Keeps.inputEdge
    | (fail_if_no_progress (with_reducible (refine Keeps.lit ?_ rfl rfl rfl)))
    | with_reducible (refine Keeps.ite ?_ ?_)
    | split

theorem Keeps.execTrigDrvApply (s : State) :
    ∃ t, execTrigDrvApply s = .next t ∧ Keeps s t := by
  refine ⟨_, rfl, ?_⟩
  repeat' first
    | exact Keeps.refl s
    | with_reducible apply Keeps.trigDrvApply
    | (fail_if_no_progress (with_reducible (refine Keeps.lit ?_ rfl rfl rfl)))
    | with_reducible (refine Keeps.ite ?_ ?_)
    | split

theorem Keeps.execTrigDrvWrite (s : State) src on :
    ∃ t, execTrigDrvWrite src on s = .next t ∧ Keeps s t := by
  refine ⟨_, rfl, ?_⟩
  have h := Keeps.refl s
  repeat' first
    | with_reducible assumption
    | with_reducible apply Keeps.trigDrv
    | with_reducible apply Keeps.withReg
    | with_reducible (refine Keeps.foldl _ ?_ (fun _ _ _ => ?_))
    | with_reducible (refine Keeps.foldlSnd _ ?_ (fun _ _ _ => ?_))
    | with_reducible (refine Keeps.foldlSnd2 _ ?_ (fun _ _ _ => ?_))
    | (fail_if_no_progress (with_reducible (refine Keeps.lit ?_ rfl rfl rfl)))
    | (intro x; refine Keeps.cut (r := s) x ?_ (fun _ => ?_) <;> [subst x; clear_value x])
    | (intro (x : _ × State); refine Keeps.cut (r := s) x.2 ?_ (fun _ => ?_) <;> [subst x; clear_value x])
    | (intro x; clear_value x)
    | with_reducible (refine Keeps.ite ?_ ?_)
    | split
    | lift_lets
    | with_reducible (refine Keeps.ofSnd (by assumption) ?_)
    | with_reducible (refine Keeps.ofSnd2 (by assumption) ?_)
    | intro

theorem Keeps.execTrigPulseEnd (s : State) :
    ∃ t, execTrigPulseEnd s = .next t ∧ Keeps s t := by
  refine ⟨_, rfl, ?_⟩
  repeat' first
    | exact Keeps.refl s
    | (fail_if_no_progress (with_reducible (refine Keeps.lit ?_ rfl rfl rfl)))
    | with_reducible (refine Keeps.ite ?_ ?_)
    | split

theorem Keeps.execAdopt (s : State) src :
    ∃ t, execAdopt src s = .next t ∧ Keeps s t := by
  refine ⟨_, rfl, ?_⟩
  repeat' first
    | exact Keeps.refl s
    | with_reducible apply Keeps.adopt
    | with_reducible apply Keeps.withReg
    | (fail_if_no_progress (with_reducible (refine Keeps.lit ?_ rfl rfl rfl)))
    | with_reducible (refine Keeps.ite ?_ ?_)
    | split

theorem Keeps.execAutoRevert (s : State) :
    ∃ t, execAutoRevert s = .next t ∧ Keeps s t := by
  refine ⟨_, rfl, ?_⟩
  repeat' first
    | exact Keeps.refl s
    | with_reducible apply Keeps.autoRevert
    | (fail_if_no_progress (with_reducible (refine Keeps.lit ?_ rfl rfl rfl)))
    | with_reducible (refine Keeps.ite ?_ ?_)
    | split

theorem Keeps.execBeatCountRead (s : State) src off size fine :
    ∃ t, execBeatCountRead src off size fine s = .next t ∧ Keeps s t := by
  refine ⟨_, rfl, ?_⟩
  have h := Keeps.refl s
  repeat' first
    | with_reducible assumption
    | with_reducible apply Keeps.countRead
    | with_reducible apply Keeps.withRead
    | with_reducible (refine Keeps.foldl _ ?_ (fun _ _ _ => ?_))
    | with_reducible (refine Keeps.foldlSnd _ ?_ (fun _ _ _ => ?_))
    | with_reducible (refine Keeps.foldlSnd2 _ ?_ (fun _ _ _ => ?_))
    | (fail_if_no_progress (with_reducible (refine Keeps.lit ?_ rfl rfl rfl)))
    | (intro x; refine Keeps.cut (r := s) x ?_ (fun _ => ?_) <;> [subst x; clear_value x])
    | (intro (x : _ × State); refine Keeps.cut (r := s) x.2 ?_ (fun _ => ?_) <;> [subst x; clear_value x])
    | (intro x; clear_value x)
    | with_reducible (refine Keeps.ite ?_ ?_)
    | split
    | lift_lets
    | with_reducible (refine Keeps.ofSnd (by assumption) ?_)
    | with_reducible (refine Keeps.ofSnd2 (by assumption) ?_)
    | intro

theorem Keeps.execBeatFrameInvalid (s : State) i crcBad spaced :
    ∃ t, execBeatFrameInvalid i crcBad spaced s = .next t ∧ Keeps s t := by
  refine ⟨_, rfl, ?_⟩
  have h := Keeps.refl s
  repeat' first
    | with_reducible assumption
    | with_reducible apply Keeps.badFrame
    | with_reducible apply Keeps.onInput
    | with_reducible (refine Keeps.foldl _ ?_ (fun _ _ _ => ?_))
    | with_reducible (refine Keeps.foldlSnd _ ?_ (fun _ _ _ => ?_))
    | with_reducible (refine Keeps.foldlSnd2 _ ?_ (fun _ _ _ => ?_))
    | (fail_if_no_progress (with_reducible (refine Keeps.lit ?_ rfl rfl rfl)))
    | (intro x; refine Keeps.cut (r := s) x ?_ (fun _ => ?_) <;> [subst x; clear_value x])
    | (intro (x : _ × State); refine Keeps.cut (r := s) x.2 ?_ (fun _ => ?_) <;> [subst x; clear_value x])
    | (intro x; clear_value x)
    | with_reducible (refine Keeps.ite ?_ ?_)
    | split
    | lift_lets
    | with_reducible (refine Keeps.ofSnd (by assumption) ?_)
    | with_reducible (refine Keeps.ofSnd2 (by assumption) ?_)
    | intro

theorem Keeps.execBeatInputDisable (s : State) src i :
    ∃ t, execBeatInputDisable src i s = .next t ∧ Keeps s t := by
  refine ⟨_, rfl, ?_⟩
  have h := Keeps.refl s
  repeat' first
    | with_reducible assumption
    | with_reducible apply Keeps.beatEn
    | with_reducible apply Keeps.withReg
    | with_reducible (refine Keeps.foldl _ ?_ (fun _ _ _ => ?_))
    | with_reducible (refine Keeps.foldlSnd _ ?_ (fun _ _ _ => ?_))
    | with_reducible (refine Keeps.foldlSnd2 _ ?_ (fun _ _ _ => ?_))
    | (fail_if_no_progress (with_reducible (refine Keeps.lit ?_ rfl rfl rfl)))
    | (intro x; refine Keeps.cut (r := s) x ?_ (fun _ => ?_) <;> [subst x; clear_value x])
    | (intro (x : _ × State); refine Keeps.cut (r := s) x.2 ?_ (fun _ => ?_) <;> [subst x; clear_value x])
    | (intro x; clear_value x)
    | with_reducible (refine Keeps.ite ?_ ?_)
    | split
    | lift_lets
    | with_reducible (refine Keeps.ofSnd (by assumption) ?_)
    | with_reducible (refine Keeps.ofSnd2 (by assumption) ?_)
    | intro

theorem Keeps.execBeatRqRun (s : State) src value :
    ∃ t, execBeatRqRun src value s = .next t ∧ Keeps s t := by
  refine ⟨_, rfl, ?_⟩
  have h := Keeps.refl s
  repeat' first
    | with_reducible assumption
    | with_reducible apply Keeps.rqCfg
    | with_reducible apply Keeps.withReg
    | with_reducible (refine Keeps.foldl _ ?_ (fun _ _ _ => ?_))
    | with_reducible (refine Keeps.foldlSnd _ ?_ (fun _ _ _ => ?_))
    | with_reducible (refine Keeps.foldlSnd2 _ ?_ (fun _ _ _ => ?_))
    | (fail_if_no_progress (with_reducible (refine Keeps.lit ?_ rfl rfl rfl)))
    | (intro x; refine Keeps.cut (r := s) x ?_ (fun _ => ?_) <;> [subst x; clear_value x])
    | (intro (x : _ × State); refine Keeps.cut (r := s) x.2 ?_ (fun _ => ?_) <;> [subst x; clear_value x])
    | (intro x; clear_value x)
    | with_reducible (refine Keeps.ite ?_ ?_)
    | split
    | lift_lets
    | with_reducible (refine Keeps.ofSnd (by assumption) ?_)
    | with_reducible (refine Keeps.ofSnd2 (by assumption) ?_)
    | intro

theorem Keeps.execBeatRqSlackWrite (s : State) src :
    ∃ t, execBeatRqSlackWrite src s = .next t ∧ Keeps s t := by
  refine ⟨_, rfl, ?_⟩
  repeat' first
    | exact Keeps.refl s
    | with_reducible apply Keeps.slackReset
    | with_reducible apply Keeps.withReg
    | (fail_if_no_progress (with_reducible (refine Keeps.lit ?_ rfl rfl rfl)))
    | with_reducible (refine Keeps.ite ?_ ?_)
    | split

theorem Keeps.execCalExecute (s : State) :
    ∃ t, execCalExecute s = .next t ∧ Keeps s t := by
  refine ⟨_, rfl, ?_⟩
  repeat' first
    | exact Keeps.refl s
    | with_reducible apply Keeps.calExecute
    | (fail_if_no_progress (with_reducible (refine Keeps.lit ?_ rfl rfl rfl)))
    | with_reducible (refine Keeps.ite ?_ ?_)
    | split

theorem Keeps.execCalFrame (s : State) i tag code delay spaced :
    ∃ t, execCalFrame i tag code delay spaced s = .next t ∧ Keeps s t := by
  refine ⟨_, rfl, ?_⟩
  have h := Keeps.refl s
  repeat' first
    | with_reducible assumption
    | with_reducible apply Keeps.calFrame
    | with_reducible apply Keeps.onInput
    | with_reducible (refine Keeps.foldl _ ?_ (fun _ _ _ => ?_))
    | with_reducible (refine Keeps.foldlSnd _ ?_ (fun _ _ _ => ?_))
    | with_reducible (refine Keeps.foldlSnd2 _ ?_ (fun _ _ _ => ?_))
    | (fail_if_no_progress (with_reducible (refine Keeps.lit ?_ rfl rfl rfl)))
    | (intro x; refine Keeps.cut (r := s) x ?_ (fun _ => ?_) <;> [subst x; clear_value x])
    | (intro (x : _ × State); refine Keeps.cut (r := s) x.2 ?_ (fun _ => ?_) <;> [subst x; clear_value x])
    | (intro x; clear_value x)
    | with_reducible (refine Keeps.ite ?_ ?_)
    | split
    | lift_lets
    | with_reducible (refine Keeps.ofSnd (by assumption) ?_)
    | with_reducible (refine Keeps.ofSnd2 (by assumption) ?_)
    | intro

theorem Keeps.execCodeErrorLimit (s : State) i errors :
    ∃ t, execCodeErrorLimit i errors s = .next t ∧ Keeps s t := by
  refine ⟨_, rfl, Keeps.onInput (Keeps.refl s) _ _ fun t k => ?_⟩
  have k := k.codeErrors i errors
  exact Keeps.ite (k.inGo _ _) k

theorem Keeps.execForceSwitch (s : State) src :
    ∃ t, execForceSwitch src s = .next t ∧ Keeps s t := by
  refine ⟨_, rfl, ?_⟩
  repeat' first
    | exact Keeps.refl s
    | with_reducible apply Keeps.forceSwitch
    | with_reducible apply Keeps.withReg
    | (fail_if_no_progress (with_reducible (refine Keeps.lit ?_ rfl rfl rfl)))
    | with_reducible (refine Keeps.ite ?_ ?_)
    | split

theorem Keeps.execFreqMonitorWindow (s : State) i count abPhase near errors :
    ∃ t, execFreqMonitorWindow i count abPhase near errors s = .next t ∧ Keeps s t := by
  refine ⟨_, rfl, ?_⟩
  have h := Keeps.refl s
  repeat' first
    | with_reducible assumption
    | with_reducible apply Keeps.freqWindow
    | with_reducible apply Keeps.onInput
    | with_reducible (refine Keeps.foldl _ ?_ (fun _ _ _ => ?_))
    | with_reducible (refine Keeps.foldlSnd _ ?_ (fun _ _ _ => ?_))
    | with_reducible (refine Keeps.foldlSnd2 _ ?_ (fun _ _ _ => ?_))
    | (fail_if_no_progress (with_reducible (refine Keeps.lit ?_ rfl rfl rfl)))
    | (intro x; refine Keeps.cut (r := s) x ?_ (fun _ => ?_) <;> [subst x; clear_value x])
    | (intro (x : _ × State); refine Keeps.cut (r := s) x.2 ?_ (fun _ => ?_) <;> [subst x; clear_value x])
    | (intro x; clear_value x)
    | with_reducible (refine Keeps.ite ?_ ?_)
    | split
    | lift_lets
    | with_reducible (refine Keeps.ofSnd (by assumption) ?_)
    | with_reducible (refine Keeps.ofSnd2 (by assumption) ?_)
    | intro

theorem Keeps.execHoldoverExpire (s : State) :
    ∃ t, execHoldoverExpire s = .next t ∧ Keeps s t := by
  refine ⟨_, rfl, ?_⟩
  repeat' first
    | exact Keeps.refl s
    | with_reducible apply Keeps.raise
    | with_reducible apply Keeps.wr
    | (fail_if_no_progress (with_reducible (refine Keeps.lit ?_ rfl rfl rfl)))
    | with_reducible (refine Keeps.ite ?_ ?_)
    | split

theorem Keeps.execHzbeatRead (s : State) core pc rd fine :
    ∃ t, execHzbeatRead core pc rd fine s = .next t ∧ Keeps s t := by
  refine ⟨_, rfl, ?_⟩
  have h := Keeps.refl s
  repeat' first
    | with_reducible assumption
    | with_reducible apply Keeps.hzbeat
    | with_reducible apply Keeps.issue
    | with_reducible apply Keeps.retire
    | with_reducible (refine Keeps.foldl _ ?_ (fun _ _ _ => ?_))
    | with_reducible (refine Keeps.foldlSnd _ ?_ (fun _ _ _ => ?_))
    | with_reducible (refine Keeps.foldlSnd2 _ ?_ (fun _ _ _ => ?_))
    | (fail_if_no_progress (with_reducible (refine Keeps.lit ?_ rfl rfl rfl)))
    | (intro x; refine Keeps.cut (r := s) x ?_ (fun _ => ?_) <;> [subst x; clear_value x])
    | (intro (x : _ × State); refine Keeps.cut (r := s) x.2 ?_ (fun _ => ?_) <;> [subst x; clear_value x])
    | (intro x; clear_value x)
    | with_reducible (refine Keeps.ite ?_ ?_)
    | split
    | lift_lets
    | with_reducible (refine Keeps.ofSnd (by assumption) ?_)
    | with_reducible (refine Keeps.ofSnd2 (by assumption) ?_)
    | intro

theorem Keeps.execHzbeatfRead (s : State) core pc rd :
    ∃ t, execHzbeatfRead core pc rd s = .next t ∧ Keeps s t := by
  refine ⟨_, rfl, ?_⟩
  have h := Keeps.refl s
  repeat' first
    | with_reducible assumption
    | with_reducible apply Keeps.issue
    | with_reducible apply Keeps.retire
    | with_reducible apply Keeps.setHart
    | with_reducible (refine Keeps.foldl _ ?_ (fun _ _ _ => ?_))
    | with_reducible (refine Keeps.foldlSnd _ ?_ (fun _ _ _ => ?_))
    | with_reducible (refine Keeps.foldlSnd2 _ ?_ (fun _ _ _ => ?_))
    | (fail_if_no_progress (with_reducible (refine Keeps.lit ?_ rfl rfl rfl)))
    | (intro x; refine Keeps.cut (r := s) x ?_ (fun _ => ?_) <;> [subst x; clear_value x])
    | (intro (x : _ × State); refine Keeps.cut (r := s) x.2 ?_ (fun _ => ?_) <;> [subst x; clear_value x])
    | (intro x; clear_value x)
    | with_reducible (refine Keeps.ite ?_ ?_)
    | split
    | lift_lets
    | with_reducible (refine Keeps.ofSnd (by assumption) ?_)
    | with_reducible (refine Keeps.ofSnd2 (by assumption) ?_)
    | intro

theorem Keeps.execInputLock (s : State) i near :
    ∃ t, execInputLock i near s = .next t ∧ Keeps s t := by
  refine ⟨_, rfl, ?_⟩
  have h := Keeps.refl s
  repeat' first
    | with_reducible assumption
    | with_reducible apply Keeps.inGo
    | with_reducible apply Keeps.onInput
    | with_reducible apply Keeps.setIn
    | with_reducible (refine Keeps.foldl _ ?_ (fun _ _ _ => ?_))
    | with_reducible (refine Keeps.foldlSnd _ ?_ (fun _ _ _ => ?_))
    | with_reducible (refine Keeps.foldlSnd2 _ ?_ (fun _ _ _ => ?_))
    | (fail_if_no_progress (with_reducible (refine Keeps.lit ?_ rfl rfl rfl)))
    | (intro x; refine Keeps.cut (r := s) x ?_ (fun _ => ?_) <;> [subst x; clear_value x])
    | (intro (x : _ × State); refine Keeps.cut (r := s) x.2 ?_ (fun _ => ?_) <;> [subst x; clear_value x])
    | (intro x; clear_value x)
    | with_reducible (refine Keeps.ite ?_ ?_)
    | split
    | lift_lets
    | with_reducible (refine Keeps.ofSnd (by assumption) ?_)
    | with_reducible (refine Keeps.ofSnd2 (by assumption) ?_)
    | intro

theorem Keeps.execInputSymbolLock (s : State) i :
    ∃ t, execInputSymbolLock i s = .next t ∧ Keeps s t := by
  refine ⟨_, rfl, ?_⟩
  have h := Keeps.refl s
  repeat' first
    | with_reducible assumption
    | with_reducible apply Keeps.inGo
    | with_reducible apply Keeps.onInput
    | with_reducible (refine Keeps.foldl _ ?_ (fun _ _ _ => ?_))
    | with_reducible (refine Keeps.foldlSnd _ ?_ (fun _ _ _ => ?_))
    | with_reducible (refine Keeps.foldlSnd2 _ ?_ (fun _ _ _ => ?_))
    | (fail_if_no_progress (with_reducible (refine Keeps.lit ?_ rfl rfl rfl)))
    | (intro x; refine Keeps.cut (r := s) x ?_ (fun _ => ?_) <;> [subst x; clear_value x])
    | (intro (x : _ × State); refine Keeps.cut (r := s) x.2 ?_ (fun _ => ?_) <;> [subst x; clear_value x])
    | (intro x; clear_value x)
    | with_reducible (refine Keeps.ite ?_ ?_)
    | split
    | lift_lets
    | with_reducible (refine Keeps.ofSnd (by assumption) ?_)
    | with_reducible (refine Keeps.ofSnd2 (by assumption) ?_)
    | intro

theorem Keeps.execLoadFrame (s : State) i tag age spaced :
    ∃ t, execLoadFrame i tag age spaced s = .next t ∧ Keeps s t := by
  refine ⟨_, rfl, ?_⟩
  have h := Keeps.refl s
  repeat' first
    | with_reducible assumption
    | with_reducible apply Keeps.loadFrame
    | with_reducible apply Keeps.onInput
    | with_reducible (refine Keeps.foldl _ ?_ (fun _ _ _ => ?_))
    | with_reducible (refine Keeps.foldlSnd _ ?_ (fun _ _ _ => ?_))
    | with_reducible (refine Keeps.foldlSnd2 _ ?_ (fun _ _ _ => ?_))
    | (fail_if_no_progress (with_reducible (refine Keeps.lit ?_ rfl rfl rfl)))
    | (intro x; refine Keeps.cut (r := s) x ?_ (fun _ => ?_) <;> [subst x; clear_value x])
    | (intro (x : _ × State); refine Keeps.cut (r := s) x.2 ?_ (fun _ => ?_) <;> [subst x; clear_value x])
    | (intro x; clear_value x)
    | with_reducible (refine Keeps.ite ?_ ?_)
    | split
    | lift_lets
    | with_reducible (refine Keeps.ofSnd (by assumption) ?_)
    | with_reducible (refine Keeps.ofSnd2 (by assumption) ?_)
    | intro

theorem Keeps.execPhaseError (s : State) i :
    ∃ t, execPhaseError i s = .next t ∧ Keeps s t := by
  refine ⟨_, rfl, ?_⟩
  have h := Keeps.refl s
  repeat' first
    | with_reducible assumption
    | with_reducible apply Keeps.inGo
    | with_reducible apply Keeps.onInput
    | with_reducible (refine Keeps.foldl _ ?_ (fun _ _ _ => ?_))
    | with_reducible (refine Keeps.foldlSnd _ ?_ (fun _ _ _ => ?_))
    | with_reducible (refine Keeps.foldlSnd2 _ ?_ (fun _ _ _ => ?_))
    | (fail_if_no_progress (with_reducible (refine Keeps.lit ?_ rfl rfl rfl)))
    | (intro x; refine Keeps.cut (r := s) x ?_ (fun _ => ?_) <;> [subst x; clear_value x])
    | (intro (x : _ × State); refine Keeps.cut (r := s) x.2 ?_ (fun _ => ?_) <;> [subst x; clear_value x])
    | (intro x; clear_value x)
    | with_reducible (refine Keeps.ite ?_ ?_)
    | split
    | lift_lets
    | with_reducible (refine Keeps.ofSnd (by assumption) ?_)
    | with_reducible (refine Keeps.ofSnd2 (by assumption) ?_)
    | intro

theorem Keeps.execRelease (s : State) :
    ∃ t, execRelease s = .next t ∧ Keeps s t :=
  ⟨_, rfl, Keeps.beatEdge (Keeps.refl s)⟩

theorem Keeps.execReleaseRead (s : State) slack :
    ∃ t, execReleaseRead slack s = .next t ∧ Keeps s t := by
  refine ⟨_, rfl, ?_⟩
  repeat' first
    | exact Keeps.refl s
    | with_reducible apply Keeps.releaseRead
    | (fail_if_no_progress (with_reducible (refine Keeps.lit ?_ rfl rfl rfl)))
    | with_reducible (refine Keeps.ite ?_ ?_)
    | split

theorem Keeps.execSwLoad (s : State) src :
    ∃ t, execSwLoad src s = .next t ∧ Keeps s t := by
  refine ⟨_, rfl, ?_⟩
  repeat' first
    | exact Keeps.refl s
    | with_reducible apply Keeps.swLoad
    | with_reducible apply Keeps.withReg
    | (fail_if_no_progress (with_reducible (refine Keeps.lit ?_ rfl rfl rfl)))
    | with_reducible (refine Keeps.ite ?_ ?_)
    | split

theorem Keeps.execSwLoadApply (s : State) :
    ∃ t, execSwLoadApply s = .next t ∧ Keeps s t := by
  refine ⟨_, rfl, ?_⟩
  repeat' first
    | exact Keeps.refl s
    | with_reducible apply Keeps.beatEdge
    | (fail_if_no_progress (with_reducible (refine Keeps.lit ?_ rfl rfl rfl)))
    | with_reducible (refine Keeps.ite ?_ ?_)
    | split

theorem Keeps.execSyncExecute (s : State) :
    ∃ t, execSyncExecute s = .next t ∧ Keeps s t := by
  refine ⟨_, rfl, ?_⟩
  repeat' first
    | exact Keeps.refl s
    | with_reducible apply Keeps.syncExecute
    | (fail_if_no_progress (with_reducible (refine Keeps.lit ?_ rfl rfl rfl)))
    | with_reducible (refine Keeps.ite ?_ ?_)
    | split

theorem Keeps.execSyncFrame (s : State) i code spaced :
    ∃ t, execSyncFrame i code spaced s = .next t ∧ Keeps s t := by
  refine ⟨_, rfl, ?_⟩
  have h := Keeps.refl s
  repeat' first
    | with_reducible assumption
    | with_reducible apply Keeps.onInput
    | with_reducible apply Keeps.syncFrame
    | with_reducible (refine Keeps.foldl _ ?_ (fun _ _ _ => ?_))
    | with_reducible (refine Keeps.foldlSnd _ ?_ (fun _ _ _ => ?_))
    | with_reducible (refine Keeps.foldlSnd2 _ ?_ (fun _ _ _ => ?_))
    | (fail_if_no_progress (with_reducible (refine Keeps.lit ?_ rfl rfl rfl)))
    | (intro x; refine Keeps.cut (r := s) x ?_ (fun _ => ?_) <;> [subst x; clear_value x])
    | (intro (x : _ × State); refine Keeps.cut (r := s) x.2 ?_ (fun _ => ?_) <;> [subst x; clear_value x])
    | (intro x; clear_value x)
    | with_reducible (refine Keeps.ite ?_ ?_)
    | split
    | lift_lets
    | with_reducible (refine Keeps.ofSnd (by assumption) ?_)
    | with_reducible (refine Keeps.ofSnd2 (by assumption) ?_)
    | intro

theorem Keeps.execTimeFrame (s : State) i tag age spaced :
    ∃ t, execTimeFrame i tag age spaced s = .next t ∧ Keeps s t := by
  refine ⟨_, rfl, ?_⟩
  have h := Keeps.refl s
  repeat' first
    | with_reducible assumption
    | with_reducible apply Keeps.onInput
    | with_reducible apply Keeps.timeFrame
    | with_reducible (refine Keeps.foldl _ ?_ (fun _ _ _ => ?_))
    | with_reducible (refine Keeps.foldlSnd _ ?_ (fun _ _ _ => ?_))
    | with_reducible (refine Keeps.foldlSnd2 _ ?_ (fun _ _ _ => ?_))
    | (fail_if_no_progress (with_reducible (refine Keeps.lit ?_ rfl rfl rfl)))
    | (intro x; refine Keeps.cut (r := s) x ?_ (fun _ => ?_) <;> [subst x; clear_value x])
    | (intro (x : _ × State); refine Keeps.cut (r := s) x.2 ?_ (fun _ => ?_) <;> [subst x; clear_value x])
    | (intro x; clear_value x)
    | with_reducible (refine Keeps.ite ?_ ?_)
    | split
    | lift_lets
    | with_reducible (refine Keeps.ofSnd (by assumption) ?_)
    | with_reducible (refine Keeps.ofSnd2 (by assumption) ?_)
    | intro

theorem Keeps.execCombinerJudge (s : State) :
    ∃ t, execCombinerJudge s = .next t ∧ Keeps s t := by
  refine ⟨_, rfl, ?_⟩
  repeat' first
    | exact Keeps.refl s
    | with_reducible apply Keeps.combinerJudge
    | (fail_if_no_progress (with_reducible (refine Keeps.lit ?_ rfl rfl rfl)))
    | with_reducible (refine Keeps.ite ?_ ?_)
    | split

theorem Keeps.execEngineEval (s : State) e :
    ∃ t, execEngineEval e s = .next t ∧ Keeps s t := by
  refine ⟨_, rfl, ?_⟩
  repeat' first
    | exact Keeps.refl s
    | with_reducible apply Keeps.engineEval
    | (fail_if_no_progress (with_reducible (refine Keeps.lit ?_ rfl rfl rfl)))
    | with_reducible (refine Keeps.ite ?_ ?_)
    | split

theorem Keeps.execGuestDeadline (s : State) b :
    ∃ t, execGuestDeadline b s = .next t ∧ Keeps s t := by
  refine ⟨_, rfl, ?_⟩
  repeat' first
    | exact Keeps.refl s
    | with_reducible apply Keeps.guestDeadline
    | (fail_if_no_progress (with_reducible (refine Keeps.lit ?_ rfl rfl rfl)))
    | with_reducible (refine Keeps.ite ?_ ?_)
    | split

theorem Keeps.execPacketDeliver (s : State) n :
    ∃ t, execPacketDeliver n s = .next t ∧ Keeps s t := by
  refine ⟨_, rfl, ?_⟩
  repeat' first
    | exact Keeps.refl s
    | with_reducible apply Keeps.packetDeliver
    | (fail_if_no_progress (with_reducible (refine Keeps.lit ?_ rfl rfl rfl)))
    | with_reducible (refine Keeps.ite ?_ ?_)
    | split

theorem Keeps.execSketchClose (s : State) n :
    ∃ t, execSketchClose n s = .next t ∧ Keeps s t := by
  refine ⟨_, rfl, ?_⟩
  repeat' first
    | exact Keeps.refl s
    | with_reducible apply Keeps.sketchClose
    | (fail_if_no_progress (with_reducible (refine Keeps.lit ?_ rfl rfl rfl)))
    | with_reducible (refine Keeps.ite ?_ ?_)
    | split

theorem Keeps.execTrgClearDone (s : State) :
    ∃ t, execTrgClearDone s = .next t ∧ Keeps s t := by
  refine ⟨_, rfl, ?_⟩
  repeat' first
    | exact Keeps.refl s
    | with_reducible apply Keeps.wr
    | (fail_if_no_progress (with_reducible (refine Keeps.lit ?_ rfl rfl rfl)))
    | with_reducible (refine Keeps.ite ?_ ?_)
    | split

theorem Keeps.execTrgMenuLoad (s : State) ring :
    ∃ t, execTrgMenuLoad ring s = .next t ∧ Keeps s t := by
  refine ⟨_, rfl, ?_⟩
  repeat' first
    | exact Keeps.refl s
    | with_reducible apply Keeps.menuLoad
    | (fail_if_no_progress (with_reducible (refine Keeps.lit ?_ rfl rfl rfl)))
    | with_reducible (refine Keeps.ite ?_ ?_)
    | split

theorem Keeps.execTrgMenuRead (s : State) ring :
    ∃ t, execTrgMenuRead ring s = .next t ∧ Keeps s t := by
  refine ⟨_, rfl, ?_⟩
  repeat' first
    | exact Keeps.refl s
    | with_reducible apply Keeps.menuRead
    | (fail_if_no_progress (with_reducible (refine Keeps.lit ?_ rfl rfl rfl)))
    | with_reducible (refine Keeps.ite ?_ ?_)
    | split

theorem Keeps.execUnitSwap (s : State) u :
    ∃ t, execUnitSwap u s = .next t ∧ Keeps s t := by
  refine ⟨_, rfl, ?_⟩
  repeat' first
    | exact Keeps.refl s
    | with_reducible apply Keeps.unitSwap
    | (fail_if_no_progress (with_reducible (refine Keeps.lit ?_ rfl rfl rfl)))
    | with_reducible (refine Keeps.ite ?_ ?_)
    | split

theorem Keeps.execBadMsg (s : State) g :
    ∃ t, execBadMsg g s = .next t ∧ Keeps s t := by
  refine ⟨_, rfl, ?_⟩
  repeat' first
    | exact Keeps.refl s
    | with_reducible apply Keeps.badMsg
    | (fail_if_no_progress (with_reducible (refine Keeps.lit ?_ rfl rfl rfl)))
    | with_reducible (refine Keeps.ite ?_ ?_)
    | split

theorem Keeps.execGCpl (s : State) g tag status data :
    ∃ t, execGCpl g tag status data s = .next t ∧ Keeps s t := by
  refine ⟨_, rfl, ?_⟩
  repeat' first
    | exact Keeps.refl s
    | with_reducible apply Keeps.guestDone
    | (fail_if_no_progress (with_reducible (refine Keeps.lit ?_ rfl rfl rfl)))
    | with_reducible (refine Keeps.ite ?_ ?_)
    | split

theorem Keeps.execGFrag (s : State) g evn off last data :
    ∃ t, execGFrag g evn off last data s = .next t ∧ Keeps s t := by
  refine ⟨_, rfl, ?_⟩
  repeat' first
    | exact Keeps.refl s
    | with_reducible apply Keeps.guestFrag
    | (fail_if_no_progress (with_reducible (refine Keeps.lit ?_ rfl rfl rfl)))
    | with_reducible (refine Keeps.ite ?_ ?_)
    | split

theorem Keeps.execGRd (s : State) g tag addr len refill :
    ∃ t, execGRd g tag addr len refill s = .next t ∧ Keeps s t := by
  refine ⟨_, rfl, ?_⟩
  repeat' first
    | exact Keeps.refl s
    | with_reducible apply Keeps.guestReq
    | (fail_if_no_progress (with_reducible (refine Keeps.lit ?_ rfl rfl rfl)))
    | with_reducible (refine Keeps.ite ?_ ?_)
    | split

theorem Keeps.execGTrig (s : State) g b w :
    ∃ t, execGTrig g b w s = .next t ∧ Keeps s t := by
  refine ⟨_, rfl, ?_⟩
  repeat' first
    | exact Keeps.refl s
    | with_reducible apply Keeps.guestTrig
    | (fail_if_no_progress (with_reducible (refine Keeps.lit ?_ rfl rfl rfl)))
    | with_reducible (refine Keeps.ite ?_ ?_)
    | split

theorem Keeps.execGWr (s : State) g tag addr data refill :
    ∃ t, execGWr g tag addr data refill s = .next t ∧ Keeps s t := by
  refine ⟨_, rfl, ?_⟩
  repeat' first
    | exact Keeps.refl s
    | with_reducible apply Keeps.guestReq
    | (fail_if_no_progress (with_reducible (refine Keeps.lit ?_ rfl rfl rfl)))
    | with_reducible (refine Keeps.ite ?_ ?_)
    | split

theorem Keeps.execGuestAccessTimeout (s : State) g tag :
    ∃ t, execGuestAccessTimeout g tag s = .next t ∧ Keeps s t := by
  refine ⟨_, rfl, ?_⟩
  repeat' first
    | exact Keeps.refl s
    | with_reducible apply Keeps.guestTimeout
    | (fail_if_no_progress (with_reducible (refine Keeps.lit ?_ rfl rfl rfl)))
    | with_reducible (refine Keeps.ite ?_ ?_)
    | split

theorem Keeps.execGuestTick (s : State) g :
    ∃ t, execGuestTick g s = .next t ∧ Keeps s t := by
  refine ⟨_, rfl, ?_⟩
  repeat' first
    | exact Keeps.refl s
    | with_reducible apply Keeps.toGuest
    | (fail_if_no_progress (with_reducible (refine Keeps.lit ?_ rfl rfl rfl)))
    | with_reducible (refine Keeps.ite ?_ ?_)
    | split

theorem Keeps.execStencilTokenGrant (s : State) g refill cycles :
    ∃ t, execStencilTokenGrant g refill cycles s = .next t ∧ Keeps s t := by
  refine ⟨_, rfl, ?_⟩
  repeat' first
    | exact Keeps.refl s
    | with_reducible apply Keeps.tokenGrant
    | (fail_if_no_progress (with_reducible (refine Keeps.lit ?_ rfl rfl rfl)))
    | with_reducible (refine Keeps.ite ?_ ?_)
    | split

theorem Keeps.execStnWinEnable (s : State) src g w value :
    ∃ t, execStnWinEnable src g w value s = .next t ∧ Keeps s t := by
  refine ⟨_, rfl, ?_⟩
  have h := Keeps.refl s
  repeat' first
    | with_reducible assumption
    | with_reducible apply Keeps.winWrite
    | with_reducible apply Keeps.withReg
    | with_reducible (refine Keeps.foldl _ ?_ (fun _ _ _ => ?_))
    | with_reducible (refine Keeps.foldlSnd _ ?_ (fun _ _ _ => ?_))
    | with_reducible (refine Keeps.foldlSnd2 _ ?_ (fun _ _ _ => ?_))
    | (fail_if_no_progress (with_reducible (refine Keeps.lit ?_ rfl rfl rfl)))
    | (intro x; refine Keeps.cut (r := s) x ?_ (fun _ => ?_) <;> [subst x; clear_value x])
    | (intro (x : _ × State); refine Keeps.cut (r := s) x.2 ?_ (fun _ => ?_) <;> [subst x; clear_value x])
    | (intro x; clear_value x)
    | with_reducible (refine Keeps.ite ?_ ?_)
    | split
    | lift_lets
    | with_reducible (refine Keeps.ofSnd (by assumption) ?_)
    | with_reducible (refine Keeps.ofSnd2 (by assumption) ?_)
    | intro

theorem Keeps.execDeferBudgetExpire (s : State) core :
    ∃ t, execDeferBudgetExpire core s = .next t ∧ Keeps s t := by
  refine ⟨_, rfl, ?_⟩
  repeat' first
    | exact Keeps.refl s
    | with_reducible apply Keeps.proofAbort
    | (fail_if_no_progress (with_reducible (refine Keeps.lit ?_ rfl rfl rfl)))
    | with_reducible (refine Keeps.ite ?_ ?_)
    | split

theorem Keeps.execGroupAbortDone (s : State) g :
    ∃ t, execGroupAbortDone g s = .next t ∧ Keeps s t := by
  refine ⟨_, rfl, ?_⟩
  have h := Keeps.refl s
  repeat' first
    | with_reducible assumption
    | with_reducible apply Keeps.abortDone
    | with_reducible apply Keeps.atArbiter
    | with_reducible (refine Keeps.foldl _ ?_ (fun _ _ _ => ?_))
    | with_reducible (refine Keeps.foldlSnd _ ?_ (fun _ _ _ => ?_))
    | with_reducible (refine Keeps.foldlSnd2 _ ?_ (fun _ _ _ => ?_))
    | (fail_if_no_progress (with_reducible (refine Keeps.lit ?_ rfl rfl rfl)))
    | (intro x; refine Keeps.cut (r := s) x ?_ (fun _ => ?_) <;> [subst x; clear_value x])
    | (intro (x : _ × State); refine Keeps.cut (r := s) x.2 ?_ (fun _ => ?_) <;> [subst x; clear_value x])
    | (intro x; clear_value x)
    | with_reducible (refine Keeps.ite ?_ ?_)
    | split
    | lift_lets
    | with_reducible (refine Keeps.ofSnd (by assumption) ?_)
    | with_reducible (refine Keeps.ofSnd2 (by assumption) ?_)
    | intro

theorem Keeps.execGroupCommit (s : State) g core :
    ∃ t, execGroupCommit g core s = .next t ∧ Keeps s t := by
  refine ⟨_, rfl, ?_⟩
  repeat' first
    | exact Keeps.refl s
    | with_reducible apply Keeps.groupCommit
    | (fail_if_no_progress (with_reducible (refine Keeps.lit ?_ rfl rfl rfl)))
    | with_reducible (refine Keeps.ite ?_ ?_)
    | split

theorem Keeps.execGroupCommitAck (s : State) g core :
    ∃ t, execGroupCommitAck g core s = .next t ∧ Keeps s t := by
  refine ⟨_, rfl, ?_⟩
  have h := Keeps.refl s
  repeat' first
    | with_reducible assumption
    | with_reducible apply Keeps.atArbiter
    | with_reducible apply Keeps.commitAck
    | with_reducible (refine Keeps.foldl _ ?_ (fun _ _ _ => ?_))
    | with_reducible (refine Keeps.foldlSnd _ ?_ (fun _ _ _ => ?_))
    | with_reducible (refine Keeps.foldlSnd2 _ ?_ (fun _ _ _ => ?_))
    | (fail_if_no_progress (with_reducible (refine Keeps.lit ?_ rfl rfl rfl)))
    | (intro x; refine Keeps.cut (r := s) x ?_ (fun _ => ?_) <;> [subst x; clear_value x])
    | (intro (x : _ × State); refine Keeps.cut (r := s) x.2 ?_ (fun _ => ?_) <;> [subst x; clear_value x])
    | (intro x; clear_value x)
    | with_reducible (refine Keeps.ite ?_ ?_)
    | split
    | lift_lets
    | with_reducible (refine Keeps.ofSnd (by assumption) ?_)
    | with_reducible (refine Keeps.ofSnd2 (by assumption) ?_)
    | intro

theorem Keeps.execGroupTimeout (s : State) g :
    ∃ t, execGroupTimeout g s = .next t ∧ Keeps s t := by
  refine ⟨_, rfl, ?_⟩
  have h := Keeps.refl s
  repeat' first
    | with_reducible assumption
    | with_reducible apply Keeps.atArbiter
    | with_reducible apply Keeps.groupTimeout
    | with_reducible (refine Keeps.foldl _ ?_ (fun _ _ _ => ?_))
    | with_reducible (refine Keeps.foldlSnd _ ?_ (fun _ _ _ => ?_))
    | with_reducible (refine Keeps.foldlSnd2 _ ?_ (fun _ _ _ => ?_))
    | (fail_if_no_progress (with_reducible (refine Keeps.lit ?_ rfl rfl rfl)))
    | (intro x; refine Keeps.cut (r := s) x ?_ (fun _ => ?_) <;> [subst x; clear_value x])
    | (intro (x : _ × State); refine Keeps.cut (r := s) x.2 ?_ (fun _ => ?_) <;> [subst x; clear_value x])
    | (intro x; clear_value x)
    | with_reducible (refine Keeps.ite ?_ ?_)
    | split
    | lift_lets
    | with_reducible (refine Keeps.ofSnd (by assumption) ?_)
    | with_reducible (refine Keeps.ofSnd2 (by assumption) ?_)
    | intro

theorem Keeps.execParticipantAbort (s : State) g core :
    ∃ t, execParticipantAbort g core s = .next t ∧ Keeps s t := by
  refine ⟨_, rfl, ?_⟩
  have h := Keeps.refl s
  repeat' first
    | with_reducible assumption
    | with_reducible apply Keeps.atArbiter
    | with_reducible apply Keeps.partAbort
    | with_reducible (refine Keeps.foldl _ ?_ (fun _ _ _ => ?_))
    | with_reducible (refine Keeps.foldlSnd _ ?_ (fun _ _ _ => ?_))
    | with_reducible (refine Keeps.foldlSnd2 _ ?_ (fun _ _ _ => ?_))
    | (fail_if_no_progress (with_reducible (refine Keeps.lit ?_ rfl rfl rfl)))
    | (intro x; refine Keeps.cut (r := s) x ?_ (fun _ => ?_) <;> [subst x; clear_value x])
    | (intro (x : _ × State); refine Keeps.cut (r := s) x.2 ?_ (fun _ => ?_) <;> [subst x; clear_value x])
    | (intro x; clear_value x)
    | with_reducible (refine Keeps.ite ?_ ?_)
    | split
    | lift_lets
    | with_reducible (refine Keeps.ofSnd (by assumption) ?_)
    | with_reducible (refine Keeps.ofSnd2 (by assumption) ?_)
    | intro

theorem Keeps.execPrfAbort (s : State) core pc imm :
    ∃ t, execPrfAbort core pc imm s = .next t ∧ Keeps s t := by
  refine ⟨_, rfl, ?_⟩
  have h := Keeps.refl s
  repeat' first
    | with_reducible assumption
    | with_reducible apply Keeps.issue
    | with_reducible apply Keeps.prfAbort
    | with_reducible (refine Keeps.foldl _ ?_ (fun _ _ _ => ?_))
    | with_reducible (refine Keeps.foldlSnd _ ?_ (fun _ _ _ => ?_))
    | with_reducible (refine Keeps.foldlSnd2 _ ?_ (fun _ _ _ => ?_))
    | (fail_if_no_progress (with_reducible (refine Keeps.lit ?_ rfl rfl rfl)))
    | (intro x; refine Keeps.cut (r := s) x ?_ (fun _ => ?_) <;> [subst x; clear_value x])
    | (intro (x : _ × State); refine Keeps.cut (r := s) x.2 ?_ (fun _ => ?_) <;> [subst x; clear_value x])
    | (intro x; clear_value x)
    | with_reducible (refine Keeps.ite ?_ ?_)
    | split
    | lift_lets
    | with_reducible (refine Keeps.ofSnd (by assumption) ?_)
    | with_reducible (refine Keeps.ofSnd2 (by assumption) ?_)
    | intro

theorem Keeps.execPrfBegin (s : State) core pc rd :
    ∃ t, execPrfBegin core pc rd s = .next t ∧ Keeps s t := by
  refine ⟨_, rfl, ?_⟩
  have h := Keeps.refl s
  repeat' first
    | with_reducible assumption
    | with_reducible apply Keeps.issue
    | with_reducible apply Keeps.prfBegin
    | with_reducible (refine Keeps.foldl _ ?_ (fun _ _ _ => ?_))
    | with_reducible (refine Keeps.foldlSnd _ ?_ (fun _ _ _ => ?_))
    | with_reducible (refine Keeps.foldlSnd2 _ ?_ (fun _ _ _ => ?_))
    | (fail_if_no_progress (with_reducible (refine Keeps.lit ?_ rfl rfl rfl)))
    | (intro x; refine Keeps.cut (r := s) x ?_ (fun _ => ?_) <;> [subst x; clear_value x])
    | (intro (x : _ × State); refine Keeps.cut (r := s) x.2 ?_ (fun _ => ?_) <;> [subst x; clear_value x])
    | (intro x; clear_value x)
    | with_reducible (refine Keeps.ite ?_ ?_)
    | split
    | lift_lets
    | with_reducible (refine Keeps.ofSnd (by assumption) ?_)
    | with_reducible (refine Keeps.ofSnd2 (by assumption) ?_)
    | intro

theorem Keeps.execPrfClearDone (s : State) :
    ∃ t, execPrfClearDone s = .next t ∧ Keeps s t := by
  refine ⟨_, rfl, ?_⟩
  repeat' first
    | exact Keeps.refl s
    | with_reducible apply Keeps.wr
    | (fail_if_no_progress (with_reducible (refine Keeps.lit ?_ rfl rfl rfl)))
    | with_reducible (refine Keeps.ite ?_ ?_)
    | split

theorem Keeps.execPrfGroup (s : State) core pc rd rs1 :
    ∃ t, execPrfGroup core pc rd rs1 s = .next t ∧ Keeps s t := by
  refine ⟨_, rfl, ?_⟩
  have h := Keeps.refl s
  repeat' first
    | with_reducible assumption
    | with_reducible apply Keeps.issue
    | with_reducible apply Keeps.prfGroup
    | with_reducible (refine Keeps.foldl _ ?_ (fun _ _ _ => ?_))
    | with_reducible (refine Keeps.foldlSnd _ ?_ (fun _ _ _ => ?_))
    | with_reducible (refine Keeps.foldlSnd2 _ ?_ (fun _ _ _ => ?_))
    | (fail_if_no_progress (with_reducible (refine Keeps.lit ?_ rfl rfl rfl)))
    | (intro x; refine Keeps.cut (r := s) x ?_ (fun _ => ?_) <;> [subst x; clear_value x])
    | (intro (x : _ × State); refine Keeps.cut (r := s) x.2 ?_ (fun _ => ?_) <;> [subst x; clear_value x])
    | (intro x; clear_value x)
    | with_reducible (refine Keeps.ite ?_ ?_)
    | split
    | lift_lets
    | with_reducible (refine Keeps.ofSnd (by assumption) ?_)
    | with_reducible (refine Keeps.ofSnd2 (by assumption) ?_)
    | intro

theorem Keeps.execPrfJoin (s : State) core pc rd rs1 :
    ∃ t, execPrfJoin core pc rd rs1 s = .next t ∧ Keeps s t := by
  refine ⟨_, rfl, ?_⟩
  have h := Keeps.refl s
  repeat' first
    | with_reducible assumption
    | with_reducible apply Keeps.issue
    | with_reducible apply Keeps.prfJoin
    | with_reducible (refine Keeps.foldl _ ?_ (fun _ _ _ => ?_))
    | with_reducible (refine Keeps.foldlSnd _ ?_ (fun _ _ _ => ?_))
    | with_reducible (refine Keeps.foldlSnd2 _ ?_ (fun _ _ _ => ?_))
    | (fail_if_no_progress (with_reducible (refine Keeps.lit ?_ rfl rfl rfl)))
    | (intro x; refine Keeps.cut (r := s) x ?_ (fun _ => ?_) <;> [subst x; clear_value x])
    | (intro (x : _ × State); refine Keeps.cut (r := s) x.2 ?_ (fun _ => ?_) <;> [subst x; clear_value x])
    | (intro x; clear_value x)
    | with_reducible (refine Keeps.ite ?_ ?_)
    | split
    | lift_lets
    | with_reducible (refine Keeps.ofSnd (by assumption) ?_)
    | with_reducible (refine Keeps.ofSnd2 (by assumption) ?_)
    | intro

theorem Keeps.execPrfSeal (s : State) core pc rd :
    ∃ t, execPrfSeal core pc rd s = .next t ∧ Keeps s t := by
  refine ⟨_, rfl, ?_⟩
  have h := Keeps.refl s
  repeat' first
    | with_reducible assumption
    | with_reducible apply Keeps.issue
    | with_reducible apply Keeps.prfSeal
    | with_reducible (refine Keeps.foldl _ ?_ (fun _ _ _ => ?_))
    | with_reducible (refine Keeps.foldlSnd _ ?_ (fun _ _ _ => ?_))
    | with_reducible (refine Keeps.foldlSnd2 _ ?_ (fun _ _ _ => ?_))
    | (fail_if_no_progress (with_reducible (refine Keeps.lit ?_ rfl rfl rfl)))
    | (intro x; refine Keeps.cut (r := s) x ?_ (fun _ => ?_) <;> [subst x; clear_value x])
    | (intro (x : _ × State); refine Keeps.cut (r := s) x.2 ?_ (fun _ => ?_) <;> [subst x; clear_value x])
    | (intro x; clear_value x)
    | with_reducible (refine Keeps.ite ?_ ?_)
    | split
    | lift_lets
    | with_reducible (refine Keeps.ofSnd (by assumption) ?_)
    | with_reducible (refine Keeps.ofSnd2 (by assumption) ?_)
    | intro

theorem Keeps.execPrfTest (s : State) core pc rd :
    ∃ t, execPrfTest core pc rd s = .next t ∧ Keeps s t := by
  refine ⟨_, rfl, ?_⟩
  have h := Keeps.refl s
  repeat' first
    | with_reducible assumption
    | with_reducible apply Keeps.issue
    | with_reducible apply Keeps.prfRd
    | with_reducible (refine Keeps.foldl _ ?_ (fun _ _ _ => ?_))
    | with_reducible (refine Keeps.foldlSnd _ ?_ (fun _ _ _ => ?_))
    | with_reducible (refine Keeps.foldlSnd2 _ ?_ (fun _ _ _ => ?_))
    | (fail_if_no_progress (with_reducible (refine Keeps.lit ?_ rfl rfl rfl)))
    | (intro x; refine Keeps.cut (r := s) x ?_ (fun _ => ?_) <;> [subst x; clear_value x])
    | (intro (x : _ × State); refine Keeps.cut (r := s) x.2 ?_ (fun _ => ?_) <;> [subst x; clear_value x])
    | (intro x; clear_value x)
    | with_reducible (refine Keeps.ite ?_ ?_)
    | split
    | lift_lets
    | with_reducible (refine Keeps.ofSnd (by assumption) ?_)
    | with_reducible (refine Keeps.ofSnd2 (by assumption) ?_)
    | intro

theorem Keeps.execSealMessage (s : State) g core :
    ∃ t, execSealMessage g core s = .next t ∧ Keeps s t := by
  refine ⟨_, rfl, ?_⟩
  have h := Keeps.refl s
  repeat' first
    | with_reducible assumption
    | with_reducible apply Keeps.atArbiter
    | with_reducible apply Keeps.sealArrive
    | with_reducible (refine Keeps.foldl _ ?_ (fun _ _ _ => ?_))
    | with_reducible (refine Keeps.foldlSnd _ ?_ (fun _ _ _ => ?_))
    | with_reducible (refine Keeps.foldlSnd2 _ ?_ (fun _ _ _ => ?_))
    | (fail_if_no_progress (with_reducible (refine Keeps.lit ?_ rfl rfl rfl)))
    | (intro x; refine Keeps.cut (r := s) x ?_ (fun _ => ?_) <;> [subst x; clear_value x])
    | (intro (x : _ × State); refine Keeps.cut (r := s) x.2 ?_ (fun _ => ?_) <;> [subst x; clear_value x])
    | (intro x; clear_value x)
    | with_reducible (refine Keeps.ite ?_ ?_)
    | split
    | lift_lets
    | with_reducible (refine Keeps.ofSnd (by assumption) ?_)
    | with_reducible (refine Keeps.ofSnd2 (by assumption) ?_)
    | intro

theorem Keeps.execSnoopHoldTimeout (s : State) c line :
    ∃ t, execSnoopHoldTimeout c line s = .next t ∧ Keeps s t := by
  refine ⟨_, rfl, ?_⟩
  repeat' first
    | exact Keeps.refl s
    | with_reducible apply Keeps.holdTimeout
    | (fail_if_no_progress (with_reducible (refine Keeps.lit ?_ rfl rfl rfl)))
    | with_reducible (refine Keeps.ite ?_ ?_)
    | split

theorem Keeps.execEthFlowSet (s : State) ring :
    ∃ t, execEthFlowSet ring s = .next t ∧ Keeps s t := by
  refine ⟨_, rfl, ?_⟩
  repeat' first
    | exact Keeps.refl s
    | with_reducible apply Keeps.flowSet
    | (fail_if_no_progress (with_reducible (refine Keeps.lit ?_ rfl rfl rfl)))
    | with_reducible (refine Keeps.ite ?_ ?_)
    | split

theorem Keeps.execEthFrameSend (s : State) p sub :
    ∃ t, execEthFrameSend p sub s = .next t ∧ Keeps s t := by
  refine ⟨_, rfl, ?_⟩
  repeat' first
    | exact Keeps.refl s
    | with_reducible apply Keeps.ethSendOne
    | (fail_if_no_progress (with_reducible (refine Keeps.lit ?_ rfl rfl rfl)))
    | with_reducible (refine Keeps.ite ?_ ?_)
    | split

theorem Keeps.execEthLinkChange (s : State) p sub up :
    ∃ t, execEthLinkChange p sub up s = .next t ∧ Keeps s t := by
  refine ⟨_, rfl, ?_⟩
  repeat' first
    | exact Keeps.refl s
    | with_reducible apply Keeps.linkChange
    | (fail_if_no_progress (with_reducible (refine Keeps.lit ?_ rfl rfl rfl)))
    | with_reducible (refine Keeps.ite ?_ ?_)
    | split

theorem Keeps.execEthQCfgWrite (s : State) src p q value :
    ∃ t, execEthQCfgWrite src p q value s = .next t ∧ Keeps s t := by
  refine ⟨_, rfl, ?_⟩
  have h := Keeps.refl s
  repeat' first
    | with_reducible assumption
    | with_reducible apply Keeps.ethQCfg
    | with_reducible apply Keeps.withReg
    | with_reducible (refine Keeps.foldl _ ?_ (fun _ _ _ => ?_))
    | with_reducible (refine Keeps.foldlSnd _ ?_ (fun _ _ _ => ?_))
    | with_reducible (refine Keeps.foldlSnd2 _ ?_ (fun _ _ _ => ?_))
    | (fail_if_no_progress (with_reducible (refine Keeps.lit ?_ rfl rfl rfl)))
    | (intro x; refine Keeps.cut (r := s) x ?_ (fun _ => ?_) <;> [subst x; clear_value x])
    | (intro (x : _ × State); refine Keeps.cut (r := s) x.2 ?_ (fun _ => ?_) <;> [subst x; clear_value x])
    | (intro x; clear_value x)
    | with_reducible (refine Keeps.ite ?_ ?_)
    | split
    | lift_lets
    | with_reducible (refine Keeps.ofSnd (by assumption) ?_)
    | with_reducible (refine Keeps.ofSnd2 (by assumption) ?_)
    | intro

theorem Keeps.execEthRxDiscard (s : State) p sub :
    ∃ t, execEthRxDiscard p sub s = .next t ∧ Keeps s t := by
  refine ⟨_, rfl, ?_⟩
  repeat' first
    | exact Keeps.refl s
    | with_reducible apply Keeps.inc
    | (fail_if_no_progress (with_reducible (refine Keeps.lit ?_ rfl rfl rfl)))
    | with_reducible (refine Keeps.ite ?_ ?_)
    | split

theorem Keeps.execEthSend (s : State) ring :
    ∃ t, execEthSend ring s = .next t ∧ Keeps s t := by
  refine ⟨_, rfl, ?_⟩
  repeat' first
    | exact Keeps.refl s
    | with_reducible apply Keeps.ethSend
    | (fail_if_no_progress (with_reducible (refine Keeps.lit ?_ rfl rfl rfl)))
    | with_reducible (refine Keeps.ite ?_ ?_)
    | split

theorem Keeps.execPauseTimeout (s : State) p q :
    ∃ t, execPauseTimeout p q s = .next t ∧ Keeps s t := by
  refine ⟨_, rfl, ?_⟩
  repeat' first
    | exact Keeps.refl s
    | with_reducible apply Keeps.pauseTimeout
    | (fail_if_no_progress (with_reducible (refine Keeps.lit ?_ rfl rfl rfl)))
    | with_reducible (refine Keeps.ite ?_ ?_)
    | split

theorem Keeps.execPfcFrame (s : State) p sub pause release :
    ∃ t, execPfcFrame p sub pause release s = .next t ∧ Keeps s t := by
  refine ⟨_, rfl, ?_⟩
  repeat' first
    | exact Keeps.refl s
    | with_reducible apply Keeps.pfc
    | (fail_if_no_progress (with_reducible (refine Keeps.lit ?_ rfl rfl rfl)))
    | with_reducible (refine Keeps.ite ?_ ?_)
    | split

theorem Keeps.execStpBlockDone (s : State) e :
    ∃ t, execStpBlockDone e s = .next t ∧ Keeps s t := by
  refine ⟨_, rfl, ?_⟩
  repeat' first
    | exact Keeps.refl s
    | with_reducible apply Keeps.stpBlock
    | (fail_if_no_progress (with_reducible (refine Keeps.lit ?_ rfl rfl rfl)))
    | with_reducible (refine Keeps.ite ?_ ?_)
    | split

theorem Keeps.execStpDispatch (s : State) :
    ∃ t, execStpDispatch s = .next t ∧ Keeps s t := by
  refine ⟨_, rfl, ?_⟩
  repeat' first
    | exact Keeps.refl s
    | with_reducible apply Keeps.stpDispatch
    | (fail_if_no_progress (with_reducible (refine Keeps.lit ?_ rfl rfl rfl)))
    | with_reducible (refine Keeps.ite ?_ ?_)
    | split

theorem Keeps.execStpEthClearDone (s : State) dom :
    ∃ t, execStpEthClearDone dom s = .next t ∧ Keeps s t :=
  ⟨_, rfl, Keeps.stpEthClear (Keeps.refl s) _⟩

theorem Keeps.execStpJob (s : State) ring :
    ∃ t, execStpJob ring s = .next t ∧ Keeps s t := by
  refine ⟨_, rfl, ?_⟩
  repeat' first
    | exact Keeps.refl s
    | with_reducible apply Keeps.stpJob
    | (fail_if_no_progress (with_reducible (refine Keeps.lit ?_ rfl rfl rfl)))
    | with_reducible (refine Keeps.ite ?_ ?_)
    | split

theorem Keeps.execStpShareWrite (s : State) src slice value :
    ∃ t, execStpShareWrite src slice value s = .next t ∧ Keeps s t := by
  refine ⟨_, rfl, ?_⟩
  have h := Keeps.refl s
  repeat' first
    | with_reducible assumption
    | with_reducible apply Keeps.stpShare
    | with_reducible apply Keeps.withReg
    | with_reducible (refine Keeps.foldl _ ?_ (fun _ _ _ => ?_))
    | with_reducible (refine Keeps.foldlSnd _ ?_ (fun _ _ _ => ?_))
    | with_reducible (refine Keeps.foldlSnd2 _ ?_ (fun _ _ _ => ?_))
    | (fail_if_no_progress (with_reducible (refine Keeps.lit ?_ rfl rfl rfl)))
    | (intro x; refine Keeps.cut (r := s) x ?_ (fun _ => ?_) <;> [subst x; clear_value x])
    | (intro (x : _ × State); refine Keeps.cut (r := s) x.2 ?_ (fun _ => ?_) <;> [subst x; clear_value x])
    | (intro x; clear_value x)
    | with_reducible (refine Keeps.ite ?_ ?_)
    | split
    | lift_lets
    | with_reducible (refine Keeps.ofSnd (by assumption) ?_)
    | with_reducible (refine Keeps.ofSnd2 (by assumption) ?_)
    | intro

theorem Keeps.execChallenge (s : State) p slot nonce :
    ∃ t, execChallenge p slot nonce s = .next t ∧ Keeps s t := by
  refine ⟨_, rfl, ?_⟩
  have h := Keeps.refl s
  repeat' first
    | with_reducible assumption
    | with_reducible apply Keeps.freshNonce
    | with_reducible apply Keeps.spdmAt
    | with_reducible apply Keeps.spdmError
    | with_reducible apply Keeps.spdmReply
    | with_reducible (refine Keeps.foldl _ ?_ (fun _ _ _ => ?_))
    | with_reducible (refine Keeps.foldlSnd _ ?_ (fun _ _ _ => ?_))
    | with_reducible (refine Keeps.foldlSnd2 _ ?_ (fun _ _ _ => ?_))
    | (fail_if_no_progress (with_reducible (refine Keeps.lit ?_ rfl rfl rfl)))
    | (intro x; refine Keeps.cut (r := s) x ?_ (fun _ => ?_) <;> [subst x; clear_value x])
    | (intro (x : _ × State); refine Keeps.cut (r := s) x.2 ?_ (fun _ => ?_) <;> [subst x; clear_value x])
    | (intro x; clear_value x)
    | with_reducible (refine Keeps.ite ?_ ?_)
    | split
    | lift_lets
    | with_reducible (refine Keeps.ofSnd (by assumption) ?_)
    | with_reducible (refine Keeps.ofSnd2 (by assumption) ?_)
    | intro

theorem Keeps.execDoeAbort (s : State) p :
    ∃ t, execDoeAbort p s = .next t ∧ Keeps s t := by
  refine ⟨_, rfl, ?_⟩
  repeat' first
    | exact Keeps.refl s
    | with_reducible apply Keeps.doeAbort
    | (fail_if_no_progress (with_reducible (refine Keeps.lit ?_ rfl rfl rfl)))
    | with_reducible (refine Keeps.ite ?_ ?_)
    | split

theorem Keeps.execDoeDiscovery (s : State) p index :
    ∃ t, execDoeDiscovery p index s = .next t ∧ Keeps s t := by
  refine ⟨_, rfl, ?_⟩
  repeat' first
    | exact Keeps.refl s
    | with_reducible apply Keeps.doeReply
    | (fail_if_no_progress (with_reducible (refine Keeps.lit ?_ rfl rfl rfl)))
    | with_reducible (refine Keeps.ite ?_ ?_)
    | split

theorem Keeps.execGetCapabilities (s : State) p req :
    ∃ t, execGetCapabilities p req s = .next t ∧ Keeps s t := by
  refine ⟨_, rfl, ?_⟩
  have h := Keeps.refl s
  repeat' first
    | with_reducible assumption
    | with_reducible apply Keeps.free
    | with_reducible apply Keeps.spdmAt
    | with_reducible apply Keeps.spdmReply
    | with_reducible (refine Keeps.foldl _ ?_ (fun _ _ _ => ?_))
    | with_reducible (refine Keeps.foldlSnd _ ?_ (fun _ _ _ => ?_))
    | with_reducible (refine Keeps.foldlSnd2 _ ?_ (fun _ _ _ => ?_))
    | (fail_if_no_progress (with_reducible (refine Keeps.lit ?_ rfl rfl rfl)))
    | (intro x; refine Keeps.cut (r := s) x ?_ (fun _ => ?_) <;> [subst x; clear_value x])
    | (intro (x : _ × State); refine Keeps.cut (r := s) x.2 ?_ (fun _ => ?_) <;> [subst x; clear_value x])
    | (intro x; clear_value x)
    | with_reducible (refine Keeps.ite ?_ ?_)
    | split
    | lift_lets
    | with_reducible (refine Keeps.ofSnd (by assumption) ?_)
    | with_reducible (refine Keeps.ofSnd2 (by assumption) ?_)
    | intro

theorem Keeps.execGetCertificate (s : State) p slot off len :
    ∃ t, execGetCertificate p slot off len s = .next t ∧ Keeps s t := by
  refine ⟨_, rfl, ?_⟩
  have h := Keeps.refl s
  repeat' first
    | with_reducible assumption
    | with_reducible apply Keeps.spdmAt
    | with_reducible apply Keeps.spdmError
    | with_reducible apply Keeps.spdmReply
    | with_reducible (refine Keeps.foldl _ ?_ (fun _ _ _ => ?_))
    | with_reducible (refine Keeps.foldlSnd _ ?_ (fun _ _ _ => ?_))
    | with_reducible (refine Keeps.foldlSnd2 _ ?_ (fun _ _ _ => ?_))
    | (fail_if_no_progress (with_reducible (refine Keeps.lit ?_ rfl rfl rfl)))
    | (intro x; refine Keeps.cut (r := s) x ?_ (fun _ => ?_) <;> [subst x; clear_value x])
    | (intro (x : _ × State); refine Keeps.cut (r := s) x.2 ?_ (fun _ => ?_) <;> [subst x; clear_value x])
    | (intro x; clear_value x)
    | with_reducible (refine Keeps.ite ?_ ?_)
    | split
    | lift_lets
    | with_reducible (refine Keeps.ofSnd (by assumption) ?_)
    | with_reducible (refine Keeps.ofSnd2 (by assumption) ?_)
    | intro

theorem Keeps.execGetDigests (s : State) p :
    ∃ t, execGetDigests p s = .next t ∧ Keeps s t := by
  refine ⟨_, rfl, ?_⟩
  have h := Keeps.refl s
  repeat' first
    | with_reducible assumption
    | with_reducible apply Keeps.spdmAt
    | with_reducible apply Keeps.spdmReply
    | with_reducible (refine Keeps.foldl _ ?_ (fun _ _ _ => ?_))
    | with_reducible (refine Keeps.foldlSnd _ ?_ (fun _ _ _ => ?_))
    | with_reducible (refine Keeps.foldlSnd2 _ ?_ (fun _ _ _ => ?_))
    | (fail_if_no_progress (with_reducible (refine Keeps.lit ?_ rfl rfl rfl)))
    | (intro x; refine Keeps.cut (r := s) x ?_ (fun _ => ?_) <;> [subst x; clear_value x])
    | (intro (x : _ × State); refine Keeps.cut (r := s) x.2 ?_ (fun _ => ?_) <;> [subst x; clear_value x])
    | (intro x; clear_value x)
    | with_reducible (refine Keeps.ite ?_ ?_)
    | split
    | lift_lets
    | with_reducible (refine Keeps.ofSnd (by assumption) ?_)
    | with_reducible (refine Keeps.ofSnd2 (by assumption) ?_)
    | intro

theorem Keeps.execGetMeasurements (s : State) p index slot signed nonce :
    ∃ t, execGetMeasurements p index slot signed nonce s = .next t ∧ Keeps s t := by
  refine ⟨_, rfl, ?_⟩
  have h := Keeps.refl s
  repeat' first
    | with_reducible assumption
    | with_reducible apply Keeps.freshNonce
    | with_reducible apply Keeps.measBlocks
    | with_reducible apply Keeps.spdmAt
    | with_reducible apply Keeps.spdmError
    | with_reducible apply Keeps.spdmReply
    | with_reducible (refine Keeps.foldl _ ?_ (fun _ _ _ => ?_))
    | with_reducible (refine Keeps.foldlSnd _ ?_ (fun _ _ _ => ?_))
    | with_reducible (refine Keeps.foldlSnd2 _ ?_ (fun _ _ _ => ?_))
    | (fail_if_no_progress (with_reducible (refine Keeps.lit ?_ rfl rfl rfl)))
    | (intro x; refine Keeps.cut (r := s) x ?_ (fun _ => ?_) <;> [subst x; clear_value x])
    | (intro (x : _ × State); refine Keeps.cut (r := s) x.2 ?_ (fun _ => ?_) <;> [subst x; clear_value x])
    | (intro x; clear_value x)
    | with_reducible (refine Keeps.ite ?_ ?_)
    | split
    | lift_lets
    | with_reducible (refine Keeps.ofSnd (by assumption) ?_)
    | with_reducible (refine Keeps.ofSnd2 (by assumption) ?_)
    | intro

theorem Keeps.execGetVersion (s : State) p :
    ∃ t, execGetVersion p s = .next t ∧ Keeps s t := by
  refine ⟨_, rfl, ?_⟩
  have h := Keeps.refl s
  repeat' first
    | with_reducible assumption
    | with_reducible apply Keeps.setPort
    | with_reducible apply Keeps.spdmAt
    | with_reducible apply Keeps.spdmReply
    | with_reducible (refine Keeps.foldl _ ?_ (fun _ _ _ => ?_))
    | with_reducible (refine Keeps.foldlSnd _ ?_ (fun _ _ _ => ?_))
    | with_reducible (refine Keeps.foldlSnd2 _ ?_ (fun _ _ _ => ?_))
    | (fail_if_no_progress (with_reducible (refine Keeps.lit ?_ rfl rfl rfl)))
    | (intro x; refine Keeps.cut (r := s) x ?_ (fun _ => ?_) <;> [subst x; clear_value x])
    | (intro (x : _ × State); refine Keeps.cut (r := s) x.2 ?_ (fun _ => ?_) <;> [subst x; clear_value x])
    | (intro x; clear_value x)
    | with_reducible (refine Keeps.ite ?_ ?_)
    | split
    | lift_lets
    | with_reducible (refine Keeps.ofSnd (by assumption) ?_)
    | with_reducible (refine Keeps.ofSnd2 (by assumption) ?_)
    | intro

theorem Keeps.execNegotiateAlgorithms (s : State) p req :
    ∃ t, execNegotiateAlgorithms p req s = .next t ∧ Keeps s t := by
  refine ⟨_, rfl, ?_⟩
  have h := Keeps.refl s
  repeat' first
    | with_reducible assumption
    | with_reducible apply Keeps.spdmAt
    | with_reducible apply Keeps.spdmReply
    | with_reducible (refine Keeps.foldl _ ?_ (fun _ _ _ => ?_))
    | with_reducible (refine Keeps.foldlSnd _ ?_ (fun _ _ _ => ?_))
    | with_reducible (refine Keeps.foldlSnd2 _ ?_ (fun _ _ _ => ?_))
    | (fail_if_no_progress (with_reducible (refine Keeps.lit ?_ rfl rfl rfl)))
    | (intro x; refine Keeps.cut (r := s) x ?_ (fun _ => ?_) <;> [subst x; clear_value x])
    | (intro (x : _ × State); refine Keeps.cut (r := s) x.2 ?_ (fun _ => ?_) <;> [subst x; clear_value x])
    | (intro x; clear_value x)
    | with_reducible (refine Keeps.ite ?_ ?_)
    | split
    | lift_lets
    | with_reducible (refine Keeps.ofSnd (by assumption) ?_)
    | with_reducible (refine Keeps.ofSnd2 (by assumption) ?_)
    | intro

theorem Keeps.execSpdmUnsupportedRequest (s : State) p code :
    ∃ t, execSpdmUnsupportedRequest p code s = .next t ∧ Keeps s t := by
  refine ⟨_, rfl, ?_⟩
  repeat' first
    | exact Keeps.refl s
    | with_reducible apply Keeps.spdmError
    | (fail_if_no_progress (with_reducible (refine Keeps.lit ?_ rfl rfl rfl)))
    | with_reducible (refine Keeps.ite ?_ ?_)
    | split

theorem Keeps.execSliceCreate (s : State) ring :
    ∃ t, execSliceCreate ring s = .next t ∧ Keeps s t := by
  refine ⟨_, rfl, ?_⟩
  have h := Keeps.refl s
  repeat' first
    | with_reducible assumption
    | with_reducible apply Keeps.adminCmd
    | with_reducible apply Keeps.sliceCreate
    | with_reducible (refine Keeps.foldl _ ?_ (fun _ _ _ => ?_))
    | with_reducible (refine Keeps.foldlSnd _ ?_ (fun _ _ _ => ?_))
    | with_reducible (refine Keeps.foldlSnd2 _ ?_ (fun _ _ _ => ?_))
    | (fail_if_no_progress (with_reducible (refine Keeps.lit ?_ rfl rfl rfl)))
    | (intro x; refine Keeps.cut (r := s) x ?_ (fun _ => ?_) <;> [subst x; clear_value x])
    | (intro (x : _ × State); refine Keeps.cut (r := s) x.2 ?_ (fun _ => ?_) <;> [subst x; clear_value x])
    | (intro x; clear_value x)
    | with_reducible (refine Keeps.ite ?_ ?_)
    | split
    | lift_lets
    | with_reducible (refine Keeps.ofSnd (by assumption) ?_)
    | with_reducible (refine Keeps.ofSnd2 (by assumption) ?_)
    | intro

theorem Keeps.execSliceDestroy (s : State) ring :
    ∃ t, execSliceDestroy ring s = .next t ∧ Keeps s t := by
  refine ⟨_, rfl, ?_⟩
  have h := Keeps.refl s
  repeat' first
    | with_reducible assumption
    | with_reducible apply Keeps.adminCmd
    | with_reducible apply Keeps.sliceDestroy
    | with_reducible apply Keeps.sliceNamed
    | with_reducible (refine Keeps.foldl _ ?_ (fun _ _ _ => ?_))
    | with_reducible (refine Keeps.foldlSnd _ ?_ (fun _ _ _ => ?_))
    | with_reducible (refine Keeps.foldlSnd2 _ ?_ (fun _ _ _ => ?_))
    | (fail_if_no_progress (with_reducible (refine Keeps.lit ?_ rfl rfl rfl)))
    | (intro x; refine Keeps.cut (r := s) x ?_ (fun _ => ?_) <;> [subst x; clear_value x])
    | (intro (x : _ × State); refine Keeps.cut (r := s) x.2 ?_ (fun _ => ?_) <;> [subst x; clear_value x])
    | (intro x; clear_value x)
    | with_reducible (refine Keeps.ite ?_ ?_)
    | split
    | lift_lets
    | with_reducible (refine Keeps.ofSnd (by assumption) ?_)
    | with_reducible (refine Keeps.ofSnd2 (by assumption) ?_)
    | intro

theorem Keeps.execSliceDestroyDone (s : State) :
    ∃ t, execSliceDestroyDone s = .next t ∧ Keeps s t := by
  refine ⟨_, rfl, ?_⟩
  repeat' first
    | exact Keeps.refl s
    | with_reducible apply Keeps.sliceDestroyDone
    | (fail_if_no_progress (with_reducible (refine Keeps.lit ?_ rfl rfl rfl)))
    | with_reducible (refine Keeps.ite ?_ ?_)
    | split

theorem Keeps.execSliceQuota (s : State) ring :
    ∃ t, execSliceQuota ring s = .next t ∧ Keeps s t := by
  refine ⟨_, rfl, ?_⟩
  have h := Keeps.refl s
  repeat' first
    | with_reducible assumption
    | with_reducible apply Keeps.adminCmd
    | with_reducible apply Keeps.sliceNamed
    | with_reducible apply Keeps.sliceQuota
    | with_reducible (refine Keeps.foldl _ ?_ (fun _ _ _ => ?_))
    | with_reducible (refine Keeps.foldlSnd _ ?_ (fun _ _ _ => ?_))
    | with_reducible (refine Keeps.foldlSnd2 _ ?_ (fun _ _ _ => ?_))
    | (fail_if_no_progress (with_reducible (refine Keeps.lit ?_ rfl rfl rfl)))
    | (intro x; refine Keeps.cut (r := s) x ?_ (fun _ => ?_) <;> [subst x; clear_value x])
    | (intro (x : _ × State); refine Keeps.cut (r := s) x.2 ?_ (fun _ => ?_) <;> [subst x; clear_value x])
    | (intro x; clear_value x)
    | with_reducible (refine Keeps.ite ?_ ?_)
    | split
    | lift_lets
    | with_reducible (refine Keeps.ofSnd (by assumption) ?_)
    | with_reducible (refine Keeps.ofSnd2 (by assumption) ?_)
    | intro

theorem Keeps.execSliceReset (s : State) ring :
    ∃ t, execSliceReset ring s = .next t ∧ Keeps s t := by
  refine ⟨_, rfl, ?_⟩
  have h := Keeps.refl s
  repeat' first
    | with_reducible assumption
    | with_reducible apply Keeps.adminCmd
    | with_reducible apply Keeps.sliceNamed
    | with_reducible apply Keeps.sliceReset
    | with_reducible (refine Keeps.foldl _ ?_ (fun _ _ _ => ?_))
    | with_reducible (refine Keeps.foldlSnd _ ?_ (fun _ _ _ => ?_))
    | with_reducible (refine Keeps.foldlSnd2 _ ?_ (fun _ _ _ => ?_))
    | (fail_if_no_progress (with_reducible (refine Keeps.lit ?_ rfl rfl rfl)))
    | (intro x; refine Keeps.cut (r := s) x ?_ (fun _ => ?_) <;> [subst x; clear_value x])
    | (intro (x : _ × State); refine Keeps.cut (r := s) x.2 ?_ (fun _ => ?_) <;> [subst x; clear_value x])
    | (intro x; clear_value x)
    | with_reducible (refine Keeps.ite ?_ ?_)
    | split
    | lift_lets
    | with_reducible (refine Keeps.ofSnd (by assumption) ?_)
    | with_reducible (refine Keeps.ofSnd2 (by assumption) ?_)
    | intro

theorem Keeps.execSliceResetDone (s : State) :
    ∃ t, execSliceResetDone s = .next t ∧ Keeps s t := by
  refine ⟨_, rfl, ?_⟩
  repeat' first
    | exact Keeps.refl s
    | with_reducible apply Keeps.sliceResetDone
    | (fail_if_no_progress (with_reducible (refine Keeps.lit ?_ rfl rfl rfl)))
    | with_reducible (refine Keeps.ite ?_ ?_)
    | split

theorem Keeps.execSpoofLogRead (s : State) src :
    ∃ t, execSpoofLogRead src s = .next t ∧ Keeps s t := by
  refine ⟨_, rfl, ?_⟩
  repeat' first
    | exact Keeps.refl s
    | with_reducible apply Keeps.spoofRead
    | with_reducible apply Keeps.withRead
    | (fail_if_no_progress (with_reducible (refine Keeps.lit ?_ rfl rfl rfl)))
    | with_reducible (refine Keeps.ite ?_ ?_)
    | split

theorem Keeps.execDbgAccGo (s : State) src value :
    ∃ t, execDbgAccGo src value s = .next t ∧ Keeps s t := by
  refine ⟨_, rfl, ?_⟩
  have h := Keeps.refl s
  repeat' first
    | with_reducible assumption
    | with_reducible apply Keeps.accCtl
    | with_reducible apply Keeps.withReg
    | with_reducible (refine Keeps.foldl _ ?_ (fun _ _ _ => ?_))
    | with_reducible (refine Keeps.foldlSnd _ ?_ (fun _ _ _ => ?_))
    | with_reducible (refine Keeps.foldlSnd2 _ ?_ (fun _ _ _ => ?_))
    | (fail_if_no_progress (with_reducible (refine Keeps.lit ?_ rfl rfl rfl)))
    | (intro x; refine Keeps.cut (r := s) x ?_ (fun _ => ?_) <;> [subst x; clear_value x])
    | (intro (x : _ × State); refine Keeps.cut (r := s) x.2 ?_ (fun _ => ?_) <;> [subst x; clear_value x])
    | (intro x; clear_value x)
    | with_reducible (refine Keeps.ite ?_ ?_)
    | split
    | lift_lets
    | with_reducible (refine Keeps.ofSnd (by assumption) ?_)
    | with_reducible (refine Keeps.ofSnd2 (by assumption) ?_)
    | intro

theorem Keeps.execDbgAuthClr (s : State) src :
    ∃ t, execDbgAuthClr src s = .next t ∧ Keeps s t := by
  refine ⟨_, rfl, ?_⟩
  repeat' first
    | exact Keeps.refl s
    | with_reducible apply Keeps.authClr
    | with_reducible apply Keeps.withReg
    | (fail_if_no_progress (with_reducible (refine Keeps.lit ?_ rfl rfl rfl)))
    | with_reducible (refine Keeps.ite ?_ ?_)
    | split

theorem Keeps.execDbgAuthDone (s : State) :
    ∃ t, execDbgAuthDone s = .next t ∧ Keeps s t := by
  refine ⟨_, rfl, ?_⟩
  repeat' first
    | exact Keeps.refl s
    | with_reducible apply Keeps.authDone
    | (fail_if_no_progress (with_reducible (refine Keeps.lit ?_ rfl rfl rfl)))
    | with_reducible (refine Keeps.ite ?_ ?_)
    | split

theorem Keeps.execDbgAuthGo (s : State) src value :
    ∃ t, execDbgAuthGo src value s = .next t ∧ Keeps s t := by
  refine ⟨_, rfl, ?_⟩
  have h := Keeps.refl s
  repeat' first
    | with_reducible assumption
    | with_reducible apply Keeps.authCtl
    | with_reducible apply Keeps.withReg
    | with_reducible (refine Keeps.foldl _ ?_ (fun _ _ _ => ?_))
    | with_reducible (refine Keeps.foldlSnd _ ?_ (fun _ _ _ => ?_))
    | with_reducible (refine Keeps.foldlSnd2 _ ?_ (fun _ _ _ => ?_))
    | (fail_if_no_progress (with_reducible (refine Keeps.lit ?_ rfl rfl rfl)))
    | (intro x; refine Keeps.cut (r := s) x ?_ (fun _ => ?_) <;> [subst x; clear_value x])
    | (intro (x : _ × State); refine Keeps.cut (r := s) x.2 ?_ (fun _ => ?_) <;> [subst x; clear_value x])
    | (intro x; clear_value x)
    | with_reducible (refine Keeps.ite ?_ ?_)
    | split
    | lift_lets
    | with_reducible (refine Keeps.ofSnd (by assumption) ?_)
    | with_reducible (refine Keeps.ofSnd2 (by assumption) ?_)
    | intro

theorem Keeps.execDbgAuthNew (s : State) src :
    ∃ t, execDbgAuthNew src s = .next t ∧ Keeps s t := by
  refine ⟨_, rfl, ?_⟩
  repeat' first
    | exact Keeps.refl s
    | with_reducible apply Keeps.authNew
    | with_reducible apply Keeps.withReg
    | (fail_if_no_progress (with_reducible (refine Keeps.lit ?_ rfl rfl rfl)))
    | with_reducible (refine Keeps.ite ?_ ?_)
    | split

theorem Keeps.execDbgAuthNonceReady (s : State) nonce :
    ∃ t, execDbgAuthNonceReady nonce s = .next t ∧ Keeps s t := by
  refine ⟨_, rfl, ?_⟩
  repeat' first
    | exact Keeps.refl s
    | with_reducible apply Keeps.nonceReady
    | (fail_if_no_progress (with_reducible (refine Keeps.lit ?_ rfl rfl rfl)))
    | with_reducible (refine Keeps.ite ?_ ?_)
    | split

theorem Keeps.execDbgFwEnWrite (s : State) src value :
    ∃ t, execDbgFwEnWrite src value s = .next t ∧ Keeps s t := by
  refine ⟨_, rfl, ?_⟩
  have h := Keeps.refl s
  repeat' first
    | with_reducible assumption
    | with_reducible apply Keeps.fwEn
    | with_reducible apply Keeps.withReg
    | with_reducible (refine Keeps.foldl _ ?_ (fun _ _ _ => ?_))
    | with_reducible (refine Keeps.foldlSnd _ ?_ (fun _ _ _ => ?_))
    | with_reducible (refine Keeps.foldlSnd2 _ ?_ (fun _ _ _ => ?_))
    | (fail_if_no_progress (with_reducible (refine Keeps.lit ?_ rfl rfl rfl)))
    | (intro x; refine Keeps.cut (r := s) x ?_ (fun _ => ?_) <;> [subst x; clear_value x])
    | (intro (x : _ × State); refine Keeps.cut (r := s) x.2 ?_ (fun _ => ?_) <;> [subst x; clear_value x])
    | (intro x; clear_value x)
    | with_reducible (refine Keeps.ite ?_ ?_)
    | split
    | lift_lets
    | with_reducible (refine Keeps.ofSnd (by assumption) ?_)
    | with_reducible (refine Keeps.ofSnd2 (by assumption) ?_)
    | intro

theorem Keeps.execDebugHalt (s : State) core :
    ∃ t, execDebugHalt core s = .next t ∧ Keeps s t := by
  refine ⟨_, rfl, ?_⟩
  repeat' first
    | exact Keeps.refl s
    | with_reducible apply Keeps.setHart
    | with_reducible apply Keeps.takeHalt
    | (fail_if_no_progress (with_reducible (refine Keeps.lit ?_ rfl rfl rfl)))
    | with_reducible (refine Keeps.ite ?_ ?_)
    | split

theorem Keeps.execDebugResume (s : State) core :
    ∃ t, execDebugResume core s = .next t ∧ Keeps s t := by
  refine ⟨_, rfl, ?_⟩
  repeat' first
    | exact Keeps.refl s
    | with_reducible apply Keeps.resumeHart
    | (fail_if_no_progress (with_reducible (refine Keeps.lit ?_ rfl rfl rfl)))
    | with_reducible (refine Keeps.ite ?_ ?_)
    | split

theorem Keeps.execRegisterWrite (s : State) src addr size value :
    ∃ t, execRegisterWrite src addr size value s = .next t ∧ Keeps s t := by
  refine ⟨_, rfl, ?_⟩
  repeat' first
    | exact Keeps.refl s
    | with_reducible apply Keeps.spaceWrite
    | (fail_if_no_progress (with_reducible (refine Keeps.lit ?_ rfl rfl rfl)))
    | with_reducible (refine Keeps.ite ?_ ?_)
    | split

theorem Keeps.execProfileWrite (s : State) ring :
    ∃ t, execProfileWrite ring s = .next t ∧ Keeps s t := by
  refine ⟨_, rfl, ?_⟩
  have h := Keeps.refl s
  repeat' first
    | with_reducible assumption
    | with_reducible apply Keeps.adminCmd
    | with_reducible apply Keeps.profileWrite
    | with_reducible (refine Keeps.foldl _ ?_ (fun _ _ _ => ?_))
    | with_reducible (refine Keeps.foldlSnd _ ?_ (fun _ _ _ => ?_))
    | with_reducible (refine Keeps.foldlSnd2 _ ?_ (fun _ _ _ => ?_))
    | (fail_if_no_progress (with_reducible (refine Keeps.lit ?_ rfl rfl rfl)))
    | (intro x; refine Keeps.cut (r := s) x ?_ (fun _ => ?_) <;> [subst x; clear_value x])
    | (intro (x : _ × State); refine Keeps.cut (r := s) x.2 ?_ (fun _ => ?_) <;> [subst x; clear_value x])
    | (intro x; clear_value x)
    | with_reducible (refine Keeps.ite ?_ ?_)
    | split
    | lift_lets
    | with_reducible (refine Keeps.ofSnd (by assumption) ?_)
    | with_reducible (refine Keeps.ofSnd2 (by assumption) ?_)
    | intro

theorem Keeps.execSetProfile (s : State) ring :
    ∃ t, execSetProfile ring s = .next t ∧ Keeps s t := by
  refine ⟨_, rfl, ?_⟩
  have h := Keeps.refl s
  repeat' first
    | with_reducible assumption
    | with_reducible apply Keeps.adminCmd
    | with_reducible apply Keeps.setProfile
    | with_reducible (refine Keeps.foldl _ ?_ (fun _ _ _ => ?_))
    | with_reducible (refine Keeps.foldlSnd _ ?_ (fun _ _ _ => ?_))
    | with_reducible (refine Keeps.foldlSnd2 _ ?_ (fun _ _ _ => ?_))
    | (fail_if_no_progress (with_reducible (refine Keeps.lit ?_ rfl rfl rfl)))
    | (intro x; refine Keeps.cut (r := s) x ?_ (fun _ => ?_) <;> [subst x; clear_value x])
    | (intro (x : _ × State); refine Keeps.cut (r := s) x.2 ?_ (fun _ => ?_) <;> [subst x; clear_value x])
    | (intro x; clear_value x)
    | with_reducible (refine Keeps.ite ?_ ?_)
    | split
    | lift_lets
    | with_reducible (refine Keeps.ofSnd (by assumption) ?_)
    | with_reducible (refine Keeps.ofSnd2 (by assumption) ?_)
    | intro

theorem Keeps.execLedgerRead (s : State) ring :
    ∃ t, execLedgerRead ring s = .next t ∧ Keeps s t := by
  refine ⟨_, rfl, ?_⟩
  have h := Keeps.refl s
  repeat' first
    | with_reducible assumption
    | with_reducible apply Keeps.adminCmd
    | with_reducible apply Keeps.ledgerRead
    | with_reducible (refine Keeps.foldl _ ?_ (fun _ _ _ => ?_))
    | with_reducible (refine Keeps.foldlSnd _ ?_ (fun _ _ _ => ?_))
    | with_reducible (refine Keeps.foldlSnd2 _ ?_ (fun _ _ _ => ?_))
    | (fail_if_no_progress (with_reducible (refine Keeps.lit ?_ rfl rfl rfl)))
    | (intro x; refine Keeps.cut (r := s) x ?_ (fun _ => ?_) <;> [subst x; clear_value x])
    | (intro (x : _ × State); refine Keeps.cut (r := s) x.2 ?_ (fun _ => ?_) <;> [subst x; clear_value x])
    | (intro x; clear_value x)
    | with_reducible (refine Keeps.ite ?_ ?_)
    | split
    | lift_lets
    | with_reducible (refine Keeps.ofSnd (by assumption) ?_)
    | with_reducible (refine Keeps.ofSnd2 (by assumption) ?_)
    | intro

theorem Keeps.execPlan (s : State) ring :
    ∃ t, execPlan ring s = .next t ∧ Keeps s t := by
  refine ⟨_, rfl, ?_⟩
  have h := Keeps.refl s
  repeat' first
    | with_reducible assumption
    | with_reducible apply Keeps.adminCmd
    | with_reducible apply Keeps.planCmd
    | with_reducible (refine Keeps.foldl _ ?_ (fun _ _ _ => ?_))
    | with_reducible (refine Keeps.foldlSnd _ ?_ (fun _ _ _ => ?_))
    | with_reducible (refine Keeps.foldlSnd2 _ ?_ (fun _ _ _ => ?_))
    | (fail_if_no_progress (with_reducible (refine Keeps.lit ?_ rfl rfl rfl)))
    | (intro x; refine Keeps.cut (r := s) x ?_ (fun _ => ?_) <;> [subst x; clear_value x])
    | (intro (x : _ × State); refine Keeps.cut (r := s) x.2 ?_ (fun _ => ?_) <;> [subst x; clear_value x])
    | (intro x; clear_value x)
    | with_reducible (refine Keeps.ite ?_ ?_)
    | split
    | lift_lets
    | with_reducible (refine Keeps.ofSnd (by assumption) ?_)
    | with_reducible (refine Keeps.ofSnd2 (by assumption) ?_)
    | intro

theorem Keeps.execPoweredHour (s : State) readings ok :
    ∃ t, execPoweredHour readings ok s = .next t ∧ Keeps s t := by
  refine ⟨_, rfl, ?_⟩
  repeat' first
    | exact Keeps.refl s
    | with_reducible apply Keeps.poweredHour
    | (fail_if_no_progress (with_reducible (refine Keeps.lit ?_ rfl rfl rfl)))
    | with_reducible (refine Keeps.ite ?_ ?_)
    | split

theorem Keeps.execSupplyFence (s : State) n :
    ∃ t, execSupplyFence n s = .next t ∧ Keeps s t := by
  refine ⟨_, rfl, ?_⟩
  repeat' first
    | exact Keeps.refl s
    | with_reducible apply Keeps.fence
    | (fail_if_no_progress (with_reducible (refine Keeps.lit ?_ rfl rfl rfl)))
    | with_reducible (refine Keeps.ite ?_ ?_)
    | split

theorem Keeps.execThermalSample (s : State) temps volts :
    ∃ t, execThermalSample temps volts s = .next t ∧ Keeps s t := by
  refine ⟨_, rfl, ?_⟩
  repeat' first
    | exact Keeps.refl s
    | with_reducible apply Keeps.thermalSample
    | (fail_if_no_progress (with_reducible (refine Keeps.lit ?_ rfl rfl rfl)))
    | with_reducible (refine Keeps.ite ?_ ?_)
    | split

theorem Keeps.execBootRomStart (s : State) :
    ∃ t, execBootRomStart s = .next t ∧ Keeps s t := by
  refine ⟨_, rfl, ?_⟩
  have h := Keeps.refl s
  repeat' first
    | with_reducible assumption
    | with_reducible apply Keeps.bootRom
    | with_reducible (refine Keeps.foldl _ ?_ (fun _ _ _ => ?_))
    | with_reducible (refine Keeps.foldlSnd _ ?_ (fun _ _ _ => ?_))
    | with_reducible (refine Keeps.foldlSnd2 _ ?_ (fun _ _ _ => ?_))
    | (fail_if_no_progress (with_reducible (refine Keeps.lit ?_ rfl rfl rfl)))
    | (intro x; refine Keeps.cut (r := s) x ?_ (fun _ => ?_) <;> [subst x; clear_value x])
    | (intro (x : _ × State); refine Keeps.cut (r := s) x.2 ?_ (fun _ => ?_) <;> [subst x; clear_value x])
    | (intro x; clear_value x)
    | with_reducible (refine Keeps.ite ?_ ?_)
    | split
    | lift_lets
    | with_reducible (refine Keeps.ofSnd (by assumption) ?_)
    | with_reducible (refine Keeps.ofSnd2 (by assumption) ?_)
    | intro

theorem Keeps.execComputeDieRelease (s : State) n :
    ∃ t, execComputeDieRelease n s = .next t ∧ Keeps s t := by
  refine ⟨_, rfl, ?_⟩
  repeat' first
    | exact Keeps.refl s
    | with_reducible apply Keeps.dieRelease
    | (fail_if_no_progress (with_reducible (refine Keeps.lit ?_ rfl rfl rfl)))
    | with_reducible (refine Keeps.ite ?_ ?_)
    | split

theorem Keeps.execFwReady (s : State) :
    ∃ t, execFwReady s = .next t ∧ Keeps s t := by
  refine ⟨_, rfl, ?_⟩
  repeat' first
    | exact Keeps.refl s
    | with_reducible apply Keeps.becomeReady
    | (fail_if_no_progress (with_reducible (refine Keeps.lit ?_ rfl rfl rfl)))
    | with_reducible (refine Keeps.ite ?_ ?_)
    | split

theorem Keeps.execFwWrite (s : State) ring :
    ∃ t, execFwWrite ring s = .next t ∧ Keeps s t := by
  refine ⟨_, rfl, ?_⟩
  have h := Keeps.refl s
  repeat' first
    | with_reducible assumption
    | with_reducible apply Keeps.adminCmd
    | with_reducible apply Keeps.fwWrite
    | with_reducible (refine Keeps.foldl _ ?_ (fun _ _ _ => ?_))
    | with_reducible (refine Keeps.foldlSnd _ ?_ (fun _ _ _ => ?_))
    | with_reducible (refine Keeps.foldlSnd2 _ ?_ (fun _ _ _ => ?_))
    | (fail_if_no_progress (with_reducible (refine Keeps.lit ?_ rfl rfl rfl)))
    | (intro x; refine Keeps.cut (r := s) x ?_ (fun _ => ?_) <;> [subst x; clear_value x])
    | (intro (x : _ × State); refine Keeps.cut (r := s) x.2 ?_ (fun _ => ?_) <;> [subst x; clear_value x])
    | (intro x; clear_value x)
    | with_reducible (refine Keeps.ite ?_ ?_)
    | split
    | lift_lets
    | with_reducible (refine Keeps.ofSnd (by assumption) ?_)
    | with_reducible (refine Keeps.ofSnd2 (by assumption) ?_)
    | intro

theorem Keeps.execPushTransfer (s : State) off total data :
    ∃ t, execPushTransfer off total data s = .next t ∧ Keeps s t := by
  refine ⟨_, rfl, ?_⟩
  repeat' first
    | exact Keeps.refl s
    | with_reducible apply Keeps.pushTransfer
    | (fail_if_no_progress (with_reducible (refine Keeps.lit ?_ rfl rfl rfl)))
    | with_reducible (refine Keeps.ite ?_ ?_)
    | split

theorem Keeps.execStageImageVerify (s : State) :
    ∃ t, execStageImageVerify s = .next t ∧ Keeps s t := by
  refine ⟨_, rfl, ?_⟩
  repeat' first
    | exact Keeps.refl s
    | with_reducible apply Keeps.stageVerify
    | (fail_if_no_progress (with_reducible (refine Keeps.lit ?_ rfl rfl rfl)))
    | with_reducible (refine Keeps.ite ?_ ?_)
    | split

theorem Keeps.execWarmReset (s : State) ring :
    ∃ t, execWarmReset ring s = .next t ∧ Keeps s t := by
  refine ⟨_, rfl, ?_⟩
  have h := Keeps.refl s
  repeat' first
    | with_reducible assumption
    | with_reducible apply Keeps.adminCmd
    | with_reducible apply Keeps.warmCmd
    | with_reducible (refine Keeps.foldl _ ?_ (fun _ _ _ => ?_))
    | with_reducible (refine Keeps.foldlSnd _ ?_ (fun _ _ _ => ?_))
    | with_reducible (refine Keeps.foldlSnd2 _ ?_ (fun _ _ _ => ?_))
    | (fail_if_no_progress (with_reducible (refine Keeps.lit ?_ rfl rfl rfl)))
    | (intro x; refine Keeps.cut (r := s) x ?_ (fun _ => ?_) <;> [subst x; clear_value x])
    | (intro (x : _ × State); refine Keeps.cut (r := s) x.2 ?_ (fun _ => ?_) <;> [subst x; clear_value x])
    | (intro x; clear_value x)
    | with_reducible (refine Keeps.ite ?_ ?_)
    | split
    | lift_lets
    | with_reducible (refine Keeps.ofSnd (by assumption) ?_)
    | with_reducible (refine Keeps.ofSnd2 (by assumption) ?_)
    | intro

theorem Keeps.execAmo (s : State) core pc len op va size value rd :
    ∃ t, execAmo core pc len op va size value rd s = .next t ∧ Keeps s t := by
  refine ⟨_, rfl, ?_⟩
  have h := Keeps.refl s
  repeat' first
    | with_reducible assumption
    | with_reducible apply Keeps.amo
    | with_reducible apply Keeps.issue
    | with_reducible (refine Keeps.foldl _ ?_ (fun _ _ _ => ?_))
    | with_reducible (refine Keeps.foldlSnd _ ?_ (fun _ _ _ => ?_))
    | with_reducible (refine Keeps.foldlSnd2 _ ?_ (fun _ _ _ => ?_))
    | (fail_if_no_progress (with_reducible (refine Keeps.lit ?_ rfl rfl rfl)))
    | (intro x; refine Keeps.cut (r := s) x ?_ (fun _ => ?_) <;> [subst x; clear_value x])
    | (intro (x : _ × State); refine Keeps.cut (r := s) x.2 ?_ (fun _ => ?_) <;> [subst x; clear_value x])
    | (intro x; clear_value x)
    | with_reducible (refine Keeps.ite ?_ ?_)
    | split
    | lift_lets
    | with_reducible (refine Keeps.ofSnd (by assumption) ?_)
    | with_reducible (refine Keeps.ofSnd2 (by assumption) ?_)
    | intro

theorem Keeps.execFence (s : State) core pc pred :
    ∃ t, execFence core pc pred s = .next t ∧ Keeps s t := by
  refine ⟨_, rfl, ?_⟩
  have h := Keeps.refl s
  repeat' first
    | with_reducible assumption
    | with_reducible apply Keeps.coreFence
    | with_reducible apply Keeps.issue
    | with_reducible (refine Keeps.foldl _ ?_ (fun _ _ _ => ?_))
    | with_reducible (refine Keeps.foldlSnd _ ?_ (fun _ _ _ => ?_))
    | with_reducible (refine Keeps.foldlSnd2 _ ?_ (fun _ _ _ => ?_))
    | (fail_if_no_progress (with_reducible (refine Keeps.lit ?_ rfl rfl rfl)))
    | (intro x; refine Keeps.cut (r := s) x ?_ (fun _ => ?_) <;> [subst x; clear_value x])
    | (intro (x : _ × State); refine Keeps.cut (r := s) x.2 ?_ (fun _ => ?_) <;> [subst x; clear_value x])
    | (intro x; clear_value x)
    | with_reducible (refine Keeps.ite ?_ ?_)
    | split
    | lift_lets
    | with_reducible (refine Keeps.ofSnd (by assumption) ?_)
    | with_reducible (refine Keeps.ofSnd2 (by assumption) ?_)
    | intro

theorem Keeps.execFenceI (s : State) core pc :
    ∃ t, execFenceI core pc s = .next t ∧ Keeps s t := by
  refine ⟨_, rfl, ?_⟩
  have h := Keeps.refl s
  repeat' first
    | with_reducible assumption
    | with_reducible apply Keeps.fenceI
    | with_reducible apply Keeps.issue
    | with_reducible apply Keeps.notInProof
    | with_reducible (refine Keeps.foldl _ ?_ (fun _ _ _ => ?_))
    | with_reducible (refine Keeps.foldlSnd _ ?_ (fun _ _ _ => ?_))
    | with_reducible (refine Keeps.foldlSnd2 _ ?_ (fun _ _ _ => ?_))
    | (fail_if_no_progress (with_reducible (refine Keeps.lit ?_ rfl rfl rfl)))
    | (intro x; refine Keeps.cut (r := s) x ?_ (fun _ => ?_) <;> [subst x; clear_value x])
    | (intro (x : _ × State); refine Keeps.cut (r := s) x.2 ?_ (fun _ => ?_) <;> [subst x; clear_value x])
    | (intro x; clear_value x)
    | with_reducible (refine Keeps.ite ?_ ?_)
    | split
    | lift_lets
    | with_reducible (refine Keeps.ofSnd (by assumption) ?_)
    | with_reducible (refine Keeps.ofSnd2 (by assumption) ?_)
    | intro

theorem Keeps.execLoad (s : State) core pc len va size sext dst :
    ∃ t, execLoad core pc len va size sext dst s = .next t ∧ Keeps s t := by
  refine ⟨_, rfl, ?_⟩
  have h := Keeps.refl s
  repeat' first
    | with_reducible assumption
    | with_reducible apply Keeps.issue
    | with_reducible apply Keeps.load
    | with_reducible (refine Keeps.foldl _ ?_ (fun _ _ _ => ?_))
    | with_reducible (refine Keeps.foldlSnd _ ?_ (fun _ _ _ => ?_))
    | with_reducible (refine Keeps.foldlSnd2 _ ?_ (fun _ _ _ => ?_))
    | (fail_if_no_progress (with_reducible (refine Keeps.lit ?_ rfl rfl rfl)))
    | (intro x; refine Keeps.cut (r := s) x ?_ (fun _ => ?_) <;> [subst x; clear_value x])
    | (intro (x : _ × State); refine Keeps.cut (r := s) x.2 ?_ (fun _ => ?_) <;> [subst x; clear_value x])
    | (intro x; clear_value x)
    | with_reducible (refine Keeps.ite ?_ ?_)
    | split
    | lift_lets
    | with_reducible (refine Keeps.ofSnd (by assumption) ?_)
    | with_reducible (refine Keeps.ofSnd2 (by assumption) ?_)
    | intro

theorem Keeps.execLr (s : State) core pc len va size rd :
    ∃ t, execLr core pc len va size rd s = .next t ∧ Keeps s t := by
  refine ⟨_, rfl, ?_⟩
  have h := Keeps.refl s
  repeat' first
    | with_reducible assumption
    | with_reducible apply Keeps.issue
    | with_reducible apply Keeps.lr
    | with_reducible apply Keeps.notInProof
    | with_reducible (refine Keeps.foldl _ ?_ (fun _ _ _ => ?_))
    | with_reducible (refine Keeps.foldlSnd _ ?_ (fun _ _ _ => ?_))
    | with_reducible (refine Keeps.foldlSnd2 _ ?_ (fun _ _ _ => ?_))
    | (fail_if_no_progress (with_reducible (refine Keeps.lit ?_ rfl rfl rfl)))
    | (intro x; refine Keeps.cut (r := s) x ?_ (fun _ => ?_) <;> [subst x; clear_value x])
    | (intro (x : _ × State); refine Keeps.cut (r := s) x.2 ?_ (fun _ => ?_) <;> [subst x; clear_value x])
    | (intro x; clear_value x)
    | with_reducible (refine Keeps.ite ?_ ?_)
    | split
    | lift_lets
    | with_reducible (refine Keeps.ofSnd (by assumption) ?_)
    | with_reducible (refine Keeps.ofSnd2 (by assumption) ?_)
    | intro

theorem Keeps.execLrReservationExpire (s : State) core :
    ∃ t, execLrReservationExpire core s = .next t ∧ Keeps s t := by
  refine ⟨_, rfl, ?_⟩
  repeat' first
    | exact Keeps.refl s
    | with_reducible apply Keeps.setHart
    | (fail_if_no_progress (with_reducible (refine Keeps.lit ?_ rfl rfl rfl)))
    | with_reducible (refine Keeps.ite ?_ ?_)
    | split

theorem Keeps.execMergeBufferDrain (s : State) core :
    ∃ t, execMergeBufferDrain core s = .next t ∧ Keeps s t := by
  refine ⟨_, rfl, ?_⟩
  repeat' first
    | exact Keeps.refl s
    | with_reducible apply Keeps.drainOne
    | (fail_if_no_progress (with_reducible (refine Keeps.lit ?_ rfl rfl rfl)))
    | with_reducible (refine Keeps.ite ?_ ?_)
    | split

theorem Keeps.execSc (s : State) core pc len va size value rd :
    ∃ t, execSc core pc len va size value rd s = .next t ∧ Keeps s t := by
  refine ⟨_, rfl, ?_⟩
  have h := Keeps.refl s
  repeat' first
    | with_reducible assumption
    | with_reducible apply Keeps.issue
    | with_reducible apply Keeps.notInProof
    | with_reducible apply Keeps.sc
    | with_reducible (refine Keeps.foldl _ ?_ (fun _ _ _ => ?_))
    | with_reducible (refine Keeps.foldlSnd _ ?_ (fun _ _ _ => ?_))
    | with_reducible (refine Keeps.foldlSnd2 _ ?_ (fun _ _ _ => ?_))
    | (fail_if_no_progress (with_reducible (refine Keeps.lit ?_ rfl rfl rfl)))
    | (intro x; refine Keeps.cut (r := s) x ?_ (fun _ => ?_) <;> [subst x; clear_value x])
    | (intro (x : _ × State); refine Keeps.cut (r := s) x.2 ?_ (fun _ => ?_) <;> [subst x; clear_value x])
    | (intro x; clear_value x)
    | with_reducible (refine Keeps.ite ?_ ?_)
    | split
    | lift_lets
    | with_reducible (refine Keeps.ofSnd (by assumption) ?_)
    | with_reducible (refine Keeps.ofSnd2 (by assumption) ?_)
    | intro

theorem Keeps.execStore (s : State) core pc len va size value :
    ∃ t, execStore core pc len va size value s = .next t ∧ Keeps s t := by
  refine ⟨_, rfl, ?_⟩
  have h := Keeps.refl s
  repeat' first
    | with_reducible assumption
    | with_reducible apply Keeps.issue
    | with_reducible apply Keeps.store
    | with_reducible (refine Keeps.foldl _ ?_ (fun _ _ _ => ?_))
    | with_reducible (refine Keeps.foldlSnd _ ?_ (fun _ _ _ => ?_))
    | with_reducible (refine Keeps.foldlSnd2 _ ?_ (fun _ _ _ => ?_))
    | (fail_if_no_progress (with_reducible (refine Keeps.lit ?_ rfl rfl rfl)))
    | (intro x; refine Keeps.cut (r := s) x ?_ (fun _ => ?_) <;> [subst x; clear_value x])
    | (intro (x : _ × State); refine Keeps.cut (r := s) x.2 ?_ (fun _ => ?_) <;> [subst x; clear_value x])
    | (intro x; clear_value x)
    | with_reducible (refine Keeps.ite ?_ ?_)
    | split
    | lift_lets
    | with_reducible (refine Keeps.ofSnd (by assumption) ?_)
    | with_reducible (refine Keeps.ofSnd2 (by assumption) ?_)
    | intro

theorem Keeps.execDbgAccDone (s : State) :
    ∃ t, execDbgAccDone s = .next t ∧ Keeps s t := by
  refine ⟨_, rfl, ?_⟩
  repeat' first
    | exact Keeps.refl s
    | with_reducible apply Keeps.accDone
    | (fail_if_no_progress (with_reducible (refine Keeps.lit ?_ rfl rfl rfl)))
    | with_reducible (refine Keeps.ite ?_ ?_)
    | split

theorem Keeps.execTapReset (s : State) :
    ∃ t, execTapReset s = .next t ∧ Keeps s t := by
  refine ⟨_, rfl, ?_⟩
  repeat' first
    | exact Keeps.refl s
    | with_reducible apply Keeps.tapReset
    | (fail_if_no_progress (with_reducible (refine Keeps.lit ?_ rfl rfl rfl)))
    | with_reducible (refine Keeps.ite ?_ ?_)
    | split

theorem Keeps.execTapUpdateDr (s : State) dr :
    ∃ t, execTapUpdateDr dr s = .next t ∧ Keeps s t := by
  refine ⟨_, rfl, ?_⟩
  repeat' first
    | exact Keeps.refl s
    | with_reducible apply Keeps.dbgReg
    | (fail_if_no_progress (with_reducible (refine Keeps.lit ?_ rfl rfl rfl)))
    | with_reducible (refine Keeps.ite ?_ ?_)
    | split

theorem Keeps.execTapUpdateIr (s : State) die ir :
    ∃ t, execTapUpdateIr die ir s = .next t ∧ Keeps s t := by
  refine ⟨_, rfl, ?_⟩
  repeat' first
    | exact Keeps.refl s
    | with_reducible apply Keeps.dieIr
    | with_reducible apply Keeps.hubIr
    | (fail_if_no_progress (with_reducible (refine Keeps.lit ?_ rfl rfl rfl)))
    | with_reducible (refine Keeps.ite ?_ ?_)
    | split

end Sys2Proof.Machine
end

