-- ==== Sys2Proof/Machine/Pins.lean ====
section
/-!
DEFINITION. The land grid of the package: which signal or supply each of its 72 × 110 lands carries (R509 to R515).
Fixed data: no command reads or changes it.
-/

namespace Sys2Proof.Machine

/-- Supply rails (R515, R518). -/
inductive Rail where
  | cd (n : Nat)
  | hub
  | sram
  | aon
  | qHbm
  | qDdr
  | serdes0v9
  | serdes1v2
  | io
  deriving DecidableEq, Repr

/-- A signal of one sub-channel of a DDR5 channel (R512). -/
inductive DdrSig where
  | dq (k : Nat)
  | cb (k : Nat)
  | dqsT (m : Nat)
  | dqsC (m : Nat)
  | dckT
  | dckC
  | dca (k : Nat)
  | dpar
  | dcsN (k : Nat)
  deriving DecidableEq, Repr

/-- What a land carries; `p` tells the P line of a pair from its N or M line. -/
inductive Land where
  | hlRx (lane : Nat) (p : Bool)
  | hlTx (lane : Nat) (p : Bool)
  | peTx (port lane : Nat) (p : Bool)
  | peRx (port lane : Nat) (p : Bool)
  | ethTx (port lane : Nat) (p : Bool)
  | ethRx (port lane : Nat) (p : Bool)
  /-- pair `q` of R513 -/
  | control (q : Nat) (p : Bool)
  | xtalIn
  | xtalOut
  /-- signal `k` of row 69, in the order of R514 -/
  | single (k : Nat)
  | ddr (ch : Nat) (subB : Bool) (sig : DdrSig)
  | ddrAlertN (ch : Nat)
  | ddrResetN (ch : Nat)
  | supply (r : Rail)
  | vss
  deriving DecidableEq, Repr

/-- Signal `k` of a sub-channel, in the order of R512. -/
def ddrSig (k : Nat) : DdrSig :=
  if k < 32 then .dq k
  else if k < 40 then .cb (k - 32)
  else if k < 60 then (if k % 2 = 0 then .dqsT ((k - 40) / 2) else .dqsC ((k - 40) / 2))
  else if k = 60 then .dckT
  else if k = 61 then .dckC
  else if k < 69 then .dca (k - 62)
  else if k = 69 then .dpar
  else .dcsN (k - 70)

/-- A lane field (R510): columns 1–8 west, 103–110 east. -/
def laneLand (r c : Nat) : Land :=
  let k := (r - 1) / 3
  let g := if c ≤ 8 then (c - 1) / 2 else 4 + (110 - c) / 2
  let rx := if c ≤ 8 then c % 2 = 1 else c % 2 = 0
  if r % 3 = 0 then .vss
  else if rx then .hlRx (24 * g + k) (r % 3 = 1) else .hlTx (24 * g + k) (r % 3 = 1)

/-- A PCIe block (R511) with first column `c0`. -/
def pcieLand (port c0 r c : Nat) : Land :=
  let i := (c - c0) / 2
  let p := (c - c0) % 2 = 0
  if r = 1 then .peTx port i p else if r = 3 then .peRx port i p else .vss

/-- The Ethernet block (R511). -/
def ethLand (r c : Nat) : Land :=
  let i := (c - 9) / 2
  let p := (c - 9) % 2 = 0
  if r = 72 then .ethTx (i / 4) (i % 4) p else if r = 70 then .ethRx (i / 4) (i % 4) p else .vss

/-- The north control block (R513). -/
def northLand (r c : Nat) : Land :=
  let j := (c - 41) / 2
  let p := (c - 41) % 2 = 0
  if r = 1 then .control j p
  else if r = 2 then .control (15 + j) p
  else if r = 3 && j < 8 then .control (30 + j) p
  else if r = 3 && c = 57 then .xtalIn
  else if r = 3 && c = 58 then .xtalOut
  else .vss

/-- The DDR5 field (R512, R515). -/
def ddrLand (r c : Nat) : Land :=
  if 97 ≤ c then .supply .qDdr else
  let ch := (c - 9) / 11
  let k := 11 * (r - 53) + (c - 9) % 11
  if k < 144 then .ddr ch (72 ≤ k) (ddrSig (k % 72))
  else if k = 144 then .ddrAlertN ch
  else if k = 145 then .ddrResetN ch
  else .vss

/-- Rail of the core field (R515). -/
def coreRail (r c : Nat) : Rail :=
  if c ≤ 32 then .cd ((r - 5) / 8)
  else if 79 ≤ c then .cd (6 + (r - 5) / 8)
  else if r ≤ 11 || 46 ≤ r then .qHbm
  else if r ≤ 15 then .sram
  else if r = 28 then .aon
  else if r ≤ 41 then .hub
  else .serdes0v9

/-- The core field: lands whose row and column sum to an odd number carry the rail. -/
def coreLand (r c : Nat) : Land := if (r + c) % 2 = 1 then .supply (coreRail r c) else .vss

/-- The south supply block. -/
def southLand (r : Nat) : Land :=
  if r ≤ 70 then .supply .serdes1v2 else if r = 71 then .supply .io else .vss

/-- Land r.c of the grid (R509), for rows 1–72 and columns 1–110. -/
def land (r c : Nat) : Land :=
  if c ≤ 8 || 103 ≤ c then laneLand r c
  else if r ≤ 4 then
    if c ≤ 40 then pcieLand 0 9 r c else if c ≤ 70 then northLand r c else pcieLand 1 71 r c
  else if r ≤ 52 then coreLand r c
  else if r ≤ 68 then ddrLand r c
  else if c ≤ 40 then ethLand r c
  else if c ≤ 70 then (if r = 69 && c ≤ 68 then .single (c - 41) else .vss)
  else southLand r

end Sys2Proof.Machine
end

