-- ==== Sys2Proof/Tests/Slice0.lean ====
section
/-!
SUPPORT. Tests: ill-formed commands that the check refuses, values worked out by hand from the spec's rules, and for each
statement states and operands that meet its hypotheses together.
-/

set_option Elab.async false

namespace Sys2Proof.Tests

open Sys2Proof Sys2Proof.Machine

/-! ## States for the tests and for the hypotheses of the statements -/

/-- A device out of reset, with power, the domains `ds` ON and their clocks running. -/
def on (ds : List Nat) : State :=
  ds.foldl (fun s d => (s.wr F.PWR_DOM_STATUS.STATE d 0).wr F.CKR_DOM.EN d 1)
    { State.reset with pins := { State.reset.pins with poreset := false, pwrgd := 0x3F, thermtrip := false } }

/-- The same with the BARs of port 0 open. -/
def hostOn (ds : List Nat) : State :=
  let s := (((on ds).wr F.HIF_PORT_STATUS.LINK_UP 0 1).wr F.HIF_PORT_STATUS.FW_READY 0 1).wr F.HIF_PORT_STATUS.DSTATE 0 0
  s.setPort 0 { s.port 0 with cfg := [(0x04, 6)] }

/-- A capability block of zeros with its CRC. -/
def zeroBlock : List (BitVec 8) := List.replicate 60 0 ++ natLE 4 (crc32 (List.replicate 60 0))

/-- A guest port that waits in CHECK with a block that passes the checks. -/
def checkWaits : State :=
  let s := (on [98]).setAln 24 { AlnPort.init with cap := [1, 3, 0, 0, 2, 0, 12] ++ List.replicate 57 0 }
  ({ s with aln := { s.aln with reqSigLoaded := true } }).alnGo 24 stCHECK

/-- The beat unit alive with both inputs enabled. -/
def beatOn : State := ((on [90, 67]).wr F.BEAT_CFG.EN_A 0 1).wr F.BEAT_CFG.EN_B 0 1

/-- A beat unit that tracks input 1, which is FRAMED. -/
def tracking : State :=
  ((beatOn.wr F.BEAT_STATUS.UNIT 0 buTRACKING).wr F.BEAT_STATUS.ACTIVE 0 1).wr F.BEAT_STATUS.STATE_B 0 biFRAMED

/-- The same with a SYNC and a CAL code that are due. -/
def codesWait : State :=
  { tracking with beat := { tracking.beat with syncs := [(7, 1)], cals := [(5, 0, 1)], edges := 2 } }

/-- A unit that tracks input 1 with both inputs LOCKED and AUTO_REVERT set. -/
def bothLocked : State :=
  ((tracking.wr F.BEAT_STATUS.STATE_A 0 biLOCKED).wr F.BEAT_STATUS.STATE_B 0 biLOCKED).wr F.BEAT_CFG.AUTO_REVERT 0 1

/-- Core `k` runs, its cluster and die ON. -/
def running (k : Nat) : State :=
  ((on [clusterDom (clusterOf k), uncoreDom (siteOf k)]).wr F.CORE_STATUS.STATE k 3)

/-- Lane group 7 alive. -/
def laneOn : State := on [89, 66]

/-- Lane 191 in BLOCK, its expected module 0. -/
def blockLane : State := (laneOn.wr F.LANE_STATUS.STATE 191 lnBLOCK).wr F.LANE_CFG.EXPECT_ID 191 0

/-- A frame of no words of a type and its CRC. -/
def emptyFrame (type crc : Nat) : RxFrame := RxFrame.mk (type + 16) 0 [] crc 0 0 false

/-- Lane 191 ready to send, with the beat running. -/
def sendLane : State :=
  (((((on [89, 66, 90, 67, 92, 69]).wr F.LANE_CFG.TX_EN 191 1).wr F.HLN_GRP_STATUS.PLL_LOCK 7 1).wr
    F.LANE_CFG.TICK_EN 191 1).wr F.BEAT_STATUS.UNIT 0 buTRACKING)

/-- Ring 8191 of the manager holds a command with descriptor `d`; further domains `ds` are ON. -/
def cmdWait (ds : List Nat) (d : List (BitVec 8)) : State :=
  (on (96 :: 72 :: ds)).setRing 8191 { Ring.init with cur := some (RingCmd.mk 0 d none none false) }

/-- The context store READY, the beat running, a command `op` on slot 63, which is in state `st` with flip beat `f`. -/
def slotWait (op st f : Nat) : State :=
  let s := cmdWait [91, 66, 90, 67] (natLE 16 op ++ natLE 12 0 ++ natLE 4 63 ++ natLE 32 0)
  let s := (((s.wr F.CTX_STATUS.READY 0 1).wr F.BEAT_STATUS.UNIT 0 buTRACKING).wr F.CTX_EPOCH.STATE 63 st).wr F.CTX_EPOCH_BEAT.F 63 f
  { s with ctx := { s.ctx with overlay := [OvlEntry.mk 63 127 1] }, beat := { s.beat with edges := 100000 } }

/-- Ring 8191 of the manager with a command whose data lie in the host window and have arrived; port 0 can issue DMA. -/
def dataWait (ds : List Nat) (d : List (BitVec 8)) (bufs : List (Nat × List (BitVec 8))) : State :=
  let s := cmdWait ds d
  let s := (s.wr F.HIF_PORT_STATUS.LINK_UP 0 1).setPort 0 { s.port 0 with cfg := [(0x04, 6)] }
  s.setRing 8191 { s.ring 8191 with buf := bufs.map (fun b => DmaData.mk b.1 b.2 false) }

/-- A context command `op` on one context at the start of the host window, for slot `k` in state `st`. -/
def imageWait (op k st : Nat) : State :=
  let s := dataWait [91, 66, 90, 67] (natLE 8 op ++ natLE 8 (2 ^ 44) ++ natLE 8 1 ++ natLE 4 1048575 ++ natLE 4 k ++
    natLE 8 (2 ^ 44) ++ natLE 24 0) [(2 ^ 44, natLE 16 1)]
  (s.wr F.CTX_STATUS.READY 0 1).wr F.CTX_EPOCH.STATE k st

/-- Do the conditions hold under which an image is taken? -/
def imageGood (s : State) (r op : Nat) (slot : Option Nat) (max : Nat) (f : List (Nat × Nat) → State → Bool) : Bool :=
  s.ctxReady && s.hasCmd r op && s.ctxPlace r op && (match s.ctxImage r op slot max with
    | .ok (es, u) => f es u
    | .error _ => false)

/-- The trigger path READY with the beat at 41: lane 191 has a packet, every engine but 63 has evaluated beat 40. -/
def trgAt40 : State :=
  let s := (on [91, 68, 90, 67]).wr F.TRG_STATUS.READY 0 1
  let s := (s.wr F.BEAT_STATUS.UNIT 0 buTRACKING).wr F.BEAT_COUNT.COUNT 0 41
  { s with trg := { s.trg with
    packets := [Packet.mk 191 0 []], cmbNext := 40, terms := (List.range 64).map (fun e => ((40, e), 0)) } }

/-- The same with guest site 1 taking part and a guest deadline of one beat. -/
def guestLate40 : State :=
  let s := trgAt40.setUnit 64 { trgAt40.trgUnit 64 with
    cur := { (trgAt40.trgUnit 64).cur with prog := { Prog.init with guestDl := 1 } } }
  let s := ((s.wr F.STN_CFG.OPEN 1 1).wr F.STN_CFG.TRIG_EN 1 1).setAln 26 { AlnPort.init with admitted := true }
  (((s.wr F.PWR_DOM_STATUS.STATE 99 0).wr F.CKR_DOM.EN 77 1).wr F.PWR_DOM_STATUS.STATE 98 0).wr F.CKR_DOM.EN 76 1

/-- A menu image of one GLOBAL section. -/
def menuBytes : List (BitVec 8) := menuImage 5 0 [sectionBytes 4 0 0 (globalBytes { Prog.init with deadtime := 3 })]

/-- The trigger path READY and a TRG_MENU_LOAD of that image at the start of the host window. -/
def menuWait : State :=
  (dataWait [91, 68, 90, 67] (natLE 8 0x28 ++ natLE 8 (2 ^ 44) ++ natLE 8 112 ++ natLE 40 0) [(2 ^ 44, menuBytes)]).wr
    F.TRG_STATUS.READY 0 1

/-- Memory, its directory and the domains `ds` ready, no plate secure. -/
def memOn (ds : List Nat) : State :=
  ((on ([65, 66, 67, 68] ++ (List.range 12).map (70 + ·) ++ ds)).wr F.DIR_STATUS.READY 0 (2 ^ 32 - 1)).wr F.MEM_WM.HBM_WM 0 0

/-- An accept of route 15 with event number 7 and no lane or guest. -/
def accept7 : Accept := Accept.mk 7 40 15 false 0 0 false 0 0 16 7 [] []

/-- Its event in a stage, with a record of 256 bytes at 1 GiB. -/
def event7 (st : EvStage) : Event := Event.mk accept7 0 [] st 0 false 256 (2 ^ 30) none 0 false

/-- The event builder ready, with pool 7 of one plate enabled and that event on context 65535. -/
def evbOn (st : EvStage) : State :=
  let s := (memOn [92, 69, 96, 72, 90, 67]).wr F.EVB_STATUS.READY 0 1
  let s := ((s.wr F.EVB_POOL_CFG.EN 7 1).wr F.EVB_POOL_CFG.PLATES 7 1).wr F.EVB_POOL_BASE.BASE 7 1
  { s with evb := { s.evb with events := [(65535, event7 st)], pools := [(7, { PoolState.init with waiting := [65535] })] } }

/-- Queue 1023 enabled with one descriptor, and a command `op` for route 15 and that queue on ring 8191. -/
def queueOn (op : Nat) : State :=
  let s := evbOn .posted
  let s := (s.wr F.EVB_EVQ_CFG.EN 1023 1).wr F.EVB_EVQ_IDX.PI 1023 1
  let s := s.setRing 8191 { Ring.init with
    cur := some (RingCmd.mk 0 (natLE 8 op ++ natLE 2 15 ++ natLE 2 1023 ++ natLE 52 0) none none false) }
  s.setQueued 1023 [65535]

/-- The same with an EVT_DELIVER of 256 events to 2 GiB with room for 320 bytes. -/
def deliverWait : State :=
  let s := queueOn 0x43
  s.setRing 8191 { Ring.init with cur := some (RingCmd.mk 0 (natLE 8 0x43 ++ natLE 4 1023 ++ natLE 4 256 ++ natLE 8 (2 ^ 31) ++
    natLE 4 320 ++ natLE 36 0) none none false) }

/-- Core 575 runs with line 0 in its L1D and, owned, in its L2. -/
def cached575 : State :=
  let s := ((running 575).wr F.L2_STATUS.ENABLED 47 1).wr F.L2_STATUS.READY 47 1
  let s := s.setHart 575 { s.hart 575 with l1d := [(0, natLE 128 9)] }
  s.setL2 47 { L2State.init with lines := [(0, L2Line.mk .e false (natLE 128 9))] }

/-- Is message `m` the oldest of channel `ch`, and ready, on a device where it alone is in flight and cluster 47 is ON? -/
def flying (m : CohMsg) (ch : Nat × ReqSrc × Nat) : Bool :=
  let s := memOn [58, 59]
  let s := { s with dir := { s.dir with flight := [m] } }
  !s.held && s.cohReady m && s.headOf ch == some m && s.mayServe 5

/-- Core 575 at work with its L2, the arbiter READY, slice 0 allowed one group, group 4095 OPEN for one core, x5 = 64 and x6 the
handle of that group; the core's proof is `p`. -/
def coreProof (p : Option Proof) : State :=
  let s := (on [58, 59, 61, 65, 66, 92, 69]).wr F.CORE_STATUS.STATE 575 3
  let s := ((s.wr F.L2_STATUS.ENABLED 47 1).wr F.L2_STATUS.READY 47 1).wr F.PRF_STATUS.READY 0 1
  let s := ((s.wr F.PRF_SLICE_GRP.LIMIT 0 1).wr F.PRF_GRP_STATUS.STATE 4095 gsOPEN).wr F.PRF_GRP_STATUS.EXPECT 4095 1
  let s := { s with groups := [(4095, Machine.Group.mk 1 0 [] [] [] [] [])] }
  s.setHart 575 { s.hart 575 with x := [(5, 64), (6, 2 ^ 63 + 4095)], proof := p }

/-- A proof of core 575 at a depth, in a group or alone. -/
def openAt (depth : Nat) (g : Option Nat) : Proof :=
  Proof.mk depth g 1 575 7 ((State.reset.hart 575).checkpoint 68) [] [] [] false false false

/-- A job descriptor: one unsigned 8-bit sample at the start of the host window, in codes of 1 bit, its main chain listed there. -/
def jobDesc : List (BitVec 8) :=
  natLE 8 0x40 ++ natLE 8 (2 ^ 44) ++ natLE 4 1 ++ natLE 1 0 ++ natLE 1 1 ++ natLE 10 0 ++ natLE 8 (2 ^ 44) ++ natLE 2 1 ++ natLE 22 0

/-- That job, its chain one segment of 256 bytes, on engine `e`. -/
def jobOf (e : Option Nat) : StpJob := StpJob.mk 8191 0 jobDesc [(2 ^ 44, 256)] 0 [] 0 e 0 0 0 0 0 0 [] [] none

/-- The stipple engines ready, engine 15 alone in dispatch, that job's command waiting with its list arrived. -/
def jobWait : State :=
  let s := dataWait [93, 70, 90, 67] jobDesc [(2 ^ 44, natLE 8 (2 ^ 44) ++ natLE 4 256 ++ natLE 4 0)]
  ((s.wr F.STP_STATUS.READY 0 1).wr F.STP_CFG.ENG_EN 0 32768).wr F.STP_SLICE_SHARE.SHARE 0 16

/-- The same with the job on engine 15 and its sample arrived. -/
def jobRuns : State :=
  let s := jobWait.wr F.STP_ENG_STATUS.STATE 15 1
  let s := s.setRing 8191 { s.ring 8191 with buf := [DmaData.mk (2 ^ 44) [7] false] }
  { s with stp := { s.stp with running := [jobOf (some 15)] } }

/-- Ethernet port 3 with link and queue 63 enabled, holding frames `l`. -/
def ethOn (l : List EthFrame) : State :=
  let s := (on [95, 71, 93, 70, 96, 72]).wr F.ETH_PORT_STATUS.READY 3 1
  let s := ((s.wr F.ETH_PORT_CFG.EN 3 1).wr F.ETH_PORT_STATUS.LINK 3 1).wr F.ETH_Q_CFG.EN 255 1
  s.setEthQueue 255 l

/-- An IPv4 flow template. -/
def flow4 : List (BitVec 8) := natLE 14 0 ++ natLE 1 4 ++ natLE 49 0

/-- The same port with a command whose 64 bytes of data have arrived. -/
def ethCmd (d : List (BitVec 8)) : State :=
  let s := dataWait [95, 71, 93, 70] d [(2 ^ 44, flow4)]
  let s := ((s.wr F.ETH_PORT_STATUS.READY 3 1).wr F.ETH_PORT_CFG.EN 3 1).wr F.ETH_PORT_STATUS.LINK 3 1
  (s.wr F.ETH_Q_CFG.EN 255 1).wr F.ETH_PORT_CFG.MTU 3 1500

/-- Guest site 1 up and open, its window 7 over the first page for reads and writes, with a bucket of 1 KiB. -/
def guestOn : State :=
  let s := (memOn [90, 92, 69, 98, 99, 61]).wr F.CKR_DOM.EN 77 1
  let s := (s.wr F.BEAT_STATUS.UNIT 0 buTRACKING).wr F.MEM_WM.HBM_WM 0 0
  let s := s.setAln 26 { AlnPort.init with admitted := true }
  let s := ((s.wr F.STN_CFG.OPEN 1 1).wr F.STN_CFG.TRIG_EN 1 1).wr F.STN_CFG.FRAG_EN 1 1
  let s := (((s.wr F.STN_WIN.EN 15 1).wr F.STN_WIN.RD 15 1).wr F.STN_WIN.WR 15 1).wr F.STN_WIN_LIMIT.LIMIT 15 0
  s.wr F.STN_RATE.BURST 1 1

/-- A fragment that guest site 1 owes. -/
def guestFrag1 : Frag := Frag.fresh 257

/-- PCIe port `p` alive with its link up at 64 GT/s, firmware ready, memory space and bus mastering enabled, and memory behind it. -/
def portUp (p : Nat) : State :=
  let s := (memOn [61, 96, 97]).wr F.CKR_DOM.EN 73 1
  let s := (s.wr F.HIF_PORT_STATUS.LINK_UP p 1).wr F.HIF_PORT_STATUS.FW_READY p 1
  let s := (s.wr F.HIF_PORT_STATUS.SPEED p 6).wr F.HIF_PORT_STATUS.DSTATE p 0
  s.setPort p { s.port p with cfg := [(0x04, 6)], perst := false }

/-- The rings alive, ring 8191 disabled with its queues in the host window. -/
def ringOff : State :=
  let s := (on [61, 96, 72]).wr F.HIF_RING_SQ.BASE 8191 (2 ^ 34)
  s.wr F.HIF_RING_CQ.BASE 8191 (2 ^ 35 + 2 ^ 20)

/-- The same ring RUNNING with 16 entries each way, one NOP published and arrived, one completion taken less than written. -/
def ringOn : State :=
  let s := (((portUp 0).wr F.HIF_RING_SQ.BASE 8191 (2 ^ 34)).wr F.HIF_RING_CQ.BASE 8191 (2 ^ 35 + 2 ^ 20)).wr F.HIF_RING_CFG.EN 8191 1
  let s := (s.wr F.HIF_RING_CFG.SQ_LOG 8191 4).wr F.HIF_RING_CFG.CQ_LOG 8191 4
  let s := (s.wr F.HIF_RING_IDX.SQ_PI 8191 1).wr F.HIF_RING_IDX.CQ_PI 8191 1
  (s.ringGo 8191 rsRUNNING).setRing 8191 { Ring.init with buf := [DmaData.mk (2 ^ 44) (natLE 64 0) false] }

/-- A LEDGER_READ of 34,400 bytes to the start of the host window. -/
def ledgerWait : State := dataWait [] (natLE 16 8 ++ natLE 8 (2 ^ 44) ++ natLE 4 34400 ++ natLE 36 0) []

/-! ## Ill-formed commands are refused, one for each check -/

/-- Requesters, doorbells and indices of ports, sites, lanes and inputs. -/
theorem test_wellFormed_refuses_readout : [Instr.registerWrite (.host 2) 0 8 0, .registerWrite (.normal 576) 0 8 0,
    .registerWrite .tap (2 ^ 26) 8 0, .registerWrite .tap 0 2 0, .registerWrite .tap 0 8 (2 ^ 64), .baseLock 28,
    .capabilityBlock 0 [] [], .capabilityBlock 28 (List.replicate 64 0) [], .capabilityBlock 0 (List.replicate 64 0) [1],
    .alernLaneLockLoss 0 68, .dieReset 14, .alnPortEn .tap 14 0, .beatInputDisable .tap 2, .timeFrame 0 (2 ^ 64) 0 false,
    .beatCountRead .tap 8 8 0, .beatCountRead .tap 0 2 0, .beatCountRead .tap 0 8 65536, .hzbeatRead 0 0 32 0, .hlnGrpRateWrite .tap 8 0,
    .laneCdrLock 192, .dataFrame 0 0 0 [2 ^ 64] 0 0 0 false, .dataFrame 0 0 0 [] (2 ^ 32) 0 0 false, .ctxLookup 128, .epochFlip 64,
    .engineEval 64, .unitSwap 65, .tioInputEdge 24 true 0].all (fun c => !wellFormed c) = true := by decide

/-- Indices of rings, events, cores, caches, proofs, Ethernet and memory. -/
theorem test_wellFormed_refuses_compute : [Instr.ctxLoad 8192, .assemblyTimeout 65536, .poolAllocate 8,
    .evqDoorbell (.bar2 2 0) 0, .evqDoorbell (.bar2 0 (2 ^ 26)) 0, .evqDoorbell (.proof 576 0) 0, .evqDoorbell (.proof 0 8192) 0,
    .evqDoorbell (.window (.host 2) 0) 0, .evqCfgWrite .tap 1024 0, .routeCfgWrite .tap 16 0 0, .routeCfgWrite .tap 0 5 0, .coreInitDone 576,
    .trap 0 0 64 0, .csrWrite 0 0 4096 0 0 0, .csrWrite 0 0 0 3 0 0, .counterOverflow 0 2, .counterOverflow 0 32, .load 0 0 5 0 8 false (.x 0),
    .load 0 0 4 0 3 false (.x 0), .load 0 0 4 0 8 false (.x 32), .load 0 0 4 0 8 false (.f 32), .load 0 0 4 0 8 false (.v 0 64),
    .amo 0 0 4 9 0 8 0 0, .lr 0 0 4 0 2 0, .fence 0 0 16, .rdShared (2 ^ 39) 0, .rdShared 0 48, .fenceSweepDone 32, .prfAbort 0 0 256,
    .sealMessage 4096 0, .stpBlockDone 16, .ethFrameSend 4 0, .ethFrameSend 0 4, .pfcFrame 0 0 256 0, .pauseTimeout 0 64,
    .stpShareWrite .tap 256 0, .stpEthClearDone 96, .sheetRead (2 ^ 38), .rawSheetDecode 12 0, .burnishRead 16, .plateTWrite .tap false 192 0,
    .plateTWrite .tap true 2048 0, .recodeDone 2].all (fun c => !wellFormed c) = true := by decide

/-- Operands of guests, host ports, boot, debug, clocks and power. -/
theorem test_wellFormed_refuses_system : [Instr.gRd 2 0 0 1 0, .gRd 0 65536 0 1 0, .gRd 0 0 0 0 0, .gRd 0 0 0 129 0,
    .gWr 0 0 0 [] 0, .gCpl 0 0 256 [], .stnWinEnable .tap 0 8 0, .pcieLinkUp 2 1 1 false, .pcieLinkUp 0 7 1 false, .pcieLinkUp 0 1 3 false,
    .configWrite 0 4096 0 0, .configWrite 0 2 0 0, .configWrite 0 0 16 0, .bar4Read 0 1024 0 1, .laneMargining 0 16 0, .doeDiscovery 0 256,
    .getCertificate 0 8 0 0, .challenge 0 0 [], .getMeasurements 0 0 16 false [], .getMeasurements 0 0 0 true [], .hifEvqDbWrite .tap 1024 0,
    .computeDieRelease 12, .dbgAuthNonceReady [], .tapUpdateIr 14 0, .tapUpdateDr (2 ^ 96), .poresetRelease 4, .pwrgdDeassert 6,
    .clockMonitorWindow 3 0, .ckrRatioWrite .tap 78 0, .pwrTargetWrite .tap 100 0, .domainWake 0 0, .domainWake 0 16, .supplyFence 12,
    .eventRateRelease 768, .evcSrcCfgWrite .tap 768 0].all (fun c => !wellFormed c) = true := by decide

/-- Operands at the ends of their ranges are well formed. -/
theorem test_wellFormed_takes_limits : [Instr.registerWrite (.host 1) (2 ^ 26 - 1) 8 (2 ^ 64 - 1), .registerWrite (.normal 575) 0 4 0,
    .baseLock 27, .laneCdrLock 191, .load 575 0 4 0 8 true (.v 31 63), .rdShared (2 ^ 39 - 1) 47, .sealMessage 4095 575,
    .ctxLoad 8191, .gRd 1 65535 0 128 0, .pcieLinkUp 1 6 16 false, .tapUpdateIr 255 0, .pwrTargetWrite .secure 99 0].all wellFormed = true := by
  decide

/-! ## Values from the spec's worked examples -/

/-- Chapter 3, "Worked decode": the header of a DATA frame. -/
theorem test_frame_header :
    let f := RxFrame.mk 0x000300033A7F2511 0x000000001F2A4C00 [] 0 0 0 false
    f.type = 1 ∧ bits f.h0 8 8 = 37 ∧ f.seq = 0x3A7F ∧ f.words = 3 ∧ f.span = 3 ∧ f.last = 0x1F2A4C03 := by decide

/-- Chapter 3, "Worked decode": 25 7F on the wire are bytes of H0, least significant first. -/
theorem test_header_bytes : (natLE 8 0x000300033A7F2511) = [0x11, 0x25, 0x7F, 0x3A, 0x03, 0x00, 0x03, 0x00] := by decide

/-- Chapter 4, "Worked recalibration": raw amplitude 500 under the old context calibrates to 500. -/
theorem test_calibrate_old : (calibrate (2 ^ 12 * 100 + 2 ^ 28 * 0x1400 + 2 ^ 44 * 40 + 1) 500).1 = 500 := by decide

/-- The same under the new context's words: lane 0x25, pedestal 0x70, gain 0x1380, and 473. -/
theorem test_calibrate_new :
    let c := 0x3012A * 2 ^ 64 + 0x7002813800070251
    cxValid c = true ∧ cxLane c = 0x25 ∧ cxPedestal c = 0x70 ∧ cxGain c = 0x1380 ∧ cxThreshold c = 0x28 ∧ cxGroup c = 0x2A7 ∧
    cxWeight c = 1 ∧ (calibrate c 500).1 = 473 := by decide

/-- Chapter 9, "A crossing, worked through": home slice 19 and set 0x1456 of PA 0x123456780. -/
theorem test_home_slice : homeSlice (lineOf 0x123456780) = 19 ∧ dirSet (lineOf 0x123456780) = 0x1456 := by decide

/-- Chapter 12, "Worked example": the sheet, controller, pseudo-channel and local sheet of that address. -/
theorem test_sheet_place : sheetOf 0x123456780 = 0x01234567 ∧ State.reset.controllerOf 0x01234567 = 1 ∧
    (State.reset.hw.hbmPlace 0x01234567) = (1, 4, 74565) := by decide

/-- Chapter 11, "Worked encoding": the ramp cell takes predictor 1 at shift 0, its codes are 0 and then 50. -/
theorem test_ramp_cell :
    let xs : List Int := (List.range 32).map (fun i => 1000 + 50 * (i : Int))
    let c := bestCell 7 (-8192) 8191 (Pred.mk 1000 1000 1000) xs
    (c.1, c.2.1) = (1, 0) ∧ c.2.2.codes = 0 :: List.replicate 31 50 ∧ c.2.2.recon = xs ∧
    packBits 7 c.2.2.codes % 65536 = 0x9900 := by decide +kernel

/-- R87: the CRC-32 of the nine ASCII digits, the check value of the IEEE 802.3 parameters. -/
theorem test_crc32 : crc32 (BitVec.ofNat 8 <$> [0x31, 0x32, 0x33, 0x34, 0x35, 0x36, 0x37, 0x38, 0x39]) = 0xCBF43926 := by decide +kernel

/-! ## Steps -/

/-- A step takes the front command and leaves the rest. -/
theorem test_step_queue : (match step { State.reset with pending := [.powerUp, .thermtrip] } with
    | .next t => t.pending == [.thermtrip] && t.held && t.rd F.CKR_RESET.CAUSE == 0
    | _ => false) = true := by decide +kernel

/-- A W1C bit clears where one is written, and an RO field keeps its value (R9). -/
theorem test_w1c : (match step { ((on [60]).wr F.PWR_DOM_STATUS.EVT_STATE 3 1).wr F.PWR_DOM_STATUS.WAKES 3 9 with
      pending := [.registerWrite .secure 0x201068 8 (2 ^ 32 + 5 * 2 ^ 16)] } with
    | .next t => t.rd F.PWR_DOM_STATUS.EVT_STATE 3 == 0 && t.rd F.PWR_DOM_STATUS.WAKES 3 == 9
    | _ => false) = true := by decide +kernel

/-! ## The hypotheses are met -/

/-- The hypotheses of `StepRunsTheFrontCommand` are met by the reset state, a running one, and one with RECOVER pending. -/
theorem witness_StepRunsTheFrontCommand :
    (let s := on [60]
     State.reset.pending = [] ∧ State.reset.hif.recPending = false ∧ State.reset.held = true ∧ s.pending = [] ∧ s.held = false ∧
     s.hif.recPending = false ∧ ({ s with hif := { s.hif with recPending := true } }).hif.recPending = true) := by
  decide +kernel

/-- The hypothesis of `EveryStepKeepsMemoryCanonical` is met by the reset state and by one whose memory lists two bytes. -/
theorem witness_EveryStepKeepsMemoryCanonical :
    State.reset.mem.wf = true ∧ ((State.reset.memSet 5 1).memSet 3 2).mem.wf = true ∧
    ((State.reset.memSet 5 1).memSet 3 2).mem.cells = [(3, 2), (5, 1)] := by
  decide +kernel

/-- The hypotheses of `MemoryReadsBackWhatIsWritten` are met by the reset state with a byte stored, and at the largest sheet and strength. -/
theorem witness_MemoryReadsBackWhatIsWritten :
    (State.reset.memSet 7 1).mem.wf = true ∧ 2 ^ 2048 - 1 < 2 ^ 2048 ∧ 24 ≤ 24 ∧ 0 < 1 ∧ 6 < 7 := by
  decide +kernel

/-- The hypotheses of `EventBitsFireTheirSources` are met by EVT_STATE of domain 99 with its source low, high by another bit, and already set. -/
theorem witness_EventBitsFireTheirSources :
    (let f := F.PWR_DOM_STATUS.EVT_STATE
     let s := on [60]
     let h := s.raise F.PWR_DOM_STATUS.EVT_REFUSED 99
     bitSource f.reg 99 f.lo = some 619 ∧ f.w = 1 ∧ evReg f.reg = false ∧ s.level 619 = false ∧ h.level 619 = true ∧ h.is f 99 = false ∧
     (h.raise f 99).level 619 = true ∧ (h.raise f 99).rd f 99 = 1 ∧ (sourceBits 619).contains (f.reg, 99, f.lo) = true ∧ f.resetAt 99 = 0) := by
  decide +kernel

/-- The hypotheses of `AlernBaseModeAndCapabilities` are met: port Q of hub port 0 in BASE, and in CAP with three bad
blocks seen and with none. -/
theorem witness_AlernBaseModeAndCapabilities :
    ((on [4]).alnGo 1 stBASE).alnLive 1 = true ∧ ((on [4]).alnGo 1 stBASE).aln? 1 = stBASE ∧
    ((on [4]).alnGo 1 stCAP).alnLive 1 = true ∧ ((on [4]).alnGo 1 stCAP).aln? 1 = stCAP ∧ capGood [] = false ∧
    capGood zeroBlock = true ∧ (((on [4]).alnGo 1 stCAP).alnPort 1).crcFails < 3 ∧
    3 ≤ ((((on [4]).alnGo 1 stCAP).setAln 1 { AlnPort.init with crcFails := 3 }).alnPort 1).crcFails := by
  decide +kernel

/-- The hypotheses of `AlernIdentityChecksFenceOrAdmit` are met: port 0 waits with a block that fails check 1, and with
one of a guest that passes all. -/
theorem witness_AlernIdentityChecksFenceOrAdmit :
    checkWaits.aln.reqSigLoaded = true ∧
    rotGrant 14 checkWaits.aln.checkPtr
      (fun n => ((logicalPorts n).find? (fun lp => checkWaits.aln? lp == stCHECK && checkWaits.alnLive lp)).isSome) = some 12 ∧
    (logicalPorts 12).find? (fun lp => checkWaits.aln? lp == stCHECK) = some 24 ∧
    State.reset.aln.reqSigLoaded = false ∧
    checkBlock 0 zeroBlock = some 4 ∧
    checkBlock 12 (checkWaits.alnPort 24).cap = none ∧
    (checkWaits.setPkgGen 12 (byteAt (checkWaits.alnPort 24).cap 2)).checkRest 24 = none ∧
    ((({ checkWaits with fuses := { checkWaits.fuses with dieAuth := true } } : State).setPkgGen 12 0).checkRest 24) = some 7 := by
  decide +kernel

/-- The hypotheses of `AlernTrainingAndService` are met: a guest port in each of the states, with repairable lanes and
with one failed lane too many. -/
theorem witness_AlernTrainingAndService :
    (∀ st ∈ [stNATIVE, stMARKER, stUP, stRETRAIN], ((on [98]).alnGo 24 st).alnLive 24 = true ∧
      ((on [98]).alnGo 24 st).aln? 24 = st) ∧
    repairable 12 32 [0, 31] = true ∧ repairable 12 32 [0, 1, 2] = false ∧
    (((on [98]).setAln 24 { AlnPort.init with width := 32 }).alnPort 24).width = 32 ∧ 31 < 32 ∧
    ((on [98]).wr F.ALN_PORT_CTL.REPLAY_LIMIT 12 0).rd F.ALN_PORT_CTL.REPLAY_LIMIT 12 = 0 := by
  decide +kernel

/-- The hypotheses of `AlernPortRegisters` are met by hub port 3 from the secure world and from the host. -/
theorem witness_AlernPortRegisters :
    (on [60]).takesWrite .secure .ALN_PORT_CTL 3 = true ∧ (hostOn [60]).takesWrite (.host 0) .ALN_PORT_CTL 3 = true ∧
    ((on [60]).wr F.ALN_SUMMARY.FENCED 0 8).takesWrite .secure .ALN_PORT_CTL 3 = true ∧
    ((on [60]).wr F.ALN_SUMMARY.FENCED 0 8).fbit F.ALN_SUMMARY.FENCED 0 3 = true ∧
    (on [60]).takesWrite .secure .ALN_CFG = true ∧ (on [60]).is F.ALN_CFG.LOCK = false ∧
    ((on [60]).wr F.ALN_CFG.LOCK 0 1).takesWrite .secure .ALN_CFG = true ∧
    ((on [60]).wr F.ALN_CFG.LOCK 0 1).is F.ALN_CFG.LOCK = true ∧ (5 : Nat).testBit 31 = false ∧
    (on [59]).hw.site 11 = true ∧ (on [59]).domOn (uncoreDom 11) = true ∧ isCompute 11 = true ∧
    (on [59]).fbit F.ALN_SUMMARY.FENCED 0 11 = false := by
  decide +kernel

/-- The hypotheses of `BeatInputsChangeState` are met at input 1 in each of its states, and at the limits of the window. -/
theorem witness_BeatInputsChangeState :
    (beatOn.beatLive && !beatOn.held && beatOn.enabledIn 1) = true ∧ beatOn.inState 1 = biDOWN ∧
    ((beatOn.setIn 1 { beatOn.beat.b with windowOk := true }).beatIn 1).windowOk = true ∧
    (beatOn.wr F.BEAT_STATUS.STATE_B 0 biFRAMED).inState 1 = biFRAMED ∧
    (beatOn.wr F.BEAT_STATUS.STATE_B 0 biLOCKED).inState 1 = biLOCKED ∧
    beatOn.rd F.BEAT_CFG.FMIN ≤ beatOn.rd F.BEAT_CFG.FMAX ∧ 16 ≤ 16 ∧ 16 < 17 ∧
    beatOn.rd F.BEAT_CFG.FMAX < beatOn.rd F.BEAT_CFG.FMAX + 1 ∧ beatOn.takesWrite .secure .BEAT_CFG = true := by
  decide +kernel

/-- The hypotheses of `BeatFramesActAndAreJudged` are met: input 1 FRAMED and active in a tracking unit, and not active;
with seven bad frames seen and with fewer. -/
theorem witness_BeatFramesActAndAreJudged :
    (tracking.beatLive && !tracking.held && tracking.enabledIn 1) = true ∧ tracking.inState 1 ≠ biDOWN ∧
    (tracking.goodFrame 1 true).acts 1 = true ∧ (tracking.goodFrame 0 true).acts 0 = false ∧
    (tracking.beatIn 1).bad < 7 ∧ 7 ≤ ((tracking.setIn 1 { tracking.beat.b with bad := 7 }).beatIn 1).bad := by
  decide +kernel

/-- The hypotheses of `BeatEdgeReleasesAndLoads` are met by a tracking unit, with a SYNC and a CAL code waiting. -/
theorem witness_BeatEdgeReleasesAndLoads :
    tracking.beatRuns = true ∧ (tracking.wr F.BEAT_COUNT.COUNT 0 (2 ^ 64 - 1)).nextCount = 0 ∧
    tracking.beatNow = 0 ∧ (5 : Nat) ≠ (0 + 1) % 2 ^ 64 ∧ tracking.beat.load = none ∧
    tracking.beat.swLoad = false ∧ codesWait.beatRuns = true ∧ codesWait.beat.syncs = [(7, 1)] ∧ 1 < codesWait.beat.edges ∧
    codesWait.beat.cals.find? (fun c => c.2.2 < codesWait.beat.edges && c.2.1 ≤ codesWait.beatNow) = some (5, 0, 1) := by
  decide +kernel

/-- The hypotheses of `BeatUnitSwitchesHoldsAndAdopts` are met. -/
theorem witness_BeatUnitSwitchesHoldsAndAdopts :
    (tracking.wr F.BEAT_STATUS.UNIT 0 buHOLDOVER).beatRuns = true ∧
    (tracking.wr F.BEAT_STATUS.UNIT 0 buHOLDOVER).beatUnit = buHOLDOVER ∧
    (tracking.wr F.BEAT_CFG.HOLD_MAX 0 1).rd F.BEAT_CFG.HOLD_MAX ≠ 0 ∧
    bothLocked.beatRuns = true ∧ bothLocked.beatUnit = buTRACKING ∧ bothLocked.is F.BEAT_CFG.AUTO_REVERT = true ∧
    bothLocked.active ≠ bothLocked.rd F.BEAT_CFG.PRIMARY ∧ bothLocked.eligible (bothLocked.rd F.BEAT_CFG.PRIMARY) = true ∧
    bothLocked.takesWrite (.normal 3) .BEAT_CTL = true ∧ bothLocked.eligible (1 - bothLocked.active) = true ∧
    bothLocked.beatUnit ≠ buSTOPPED ∧ bothLocked.inState 1 = biLOCKED ∧ bothLocked.takesRead .secure .BEAT_COUNT = true ∧
    (running 575).mayIssue 575 = true ∧ (running 575).haltDue 575 = false ∧
    bothLocked.takesWrite .secure .BEAT_RQ_CFG = true ∧ bothLocked.is F.BEAT_RQ_CFG.RUN = false ∧
    (2 ^ 32 : Nat).testBit 32 = true ∧ (bothLocked.wr F.BEAT_RQ_CFG.RUN 0 1).is F.BEAT_RQ_CFG.RUN = true ∧
    bothLocked.takesWrite .secure .BEAT_RQ_SLACK = true := by
  decide +kernel

/-- The hypotheses of `LaneLinkChangesState` are met at lane 191 and group 7. -/
theorem witness_LaneLinkChangesState :
    laneOn.takesWrite .secure .HLN_GRP_CFG 7 = true ∧
    laneOn.legal F.HLN_GRP_CFG.RATE 7 (bits 3 0 3) ≠ laneOn.rd F.HLN_GRP_CFG.RATE 7 ∧
    (List.range 24).any (fun k => laneOn.is F.LANE_CFG.RX_EN (168 + k) || laneOn.is F.LANE_CFG.TX_EN (168 + k)) = false ∧
    (List.range 24).any (fun k => (laneOn.wr F.LANE_CFG.TX_EN 191 1).is F.LANE_CFG.RX_EN (168 + k) ||
      (laneOn.wr F.LANE_CFG.TX_EN 191 1).is F.LANE_CFG.TX_EN (168 + k)) = true ∧
    laneOn.laneUp 168 = true ∧ laneOn.laneUp 191 = true ∧ laneOn.takesWrite .secure .LANE_CFG 191 = true ∧
    laneOn.laneState 191 = lnOFF ∧ (laneOn.wr F.LANE_STATUS.STATE 191 lnCDR).laneState 191 = lnCDR ∧
    (laneOn.wr F.LANE_STATUS.STATE 191 lnHUNT).laneState 191 = lnHUNT ∧
    (laneOn.wr F.LANE_STATUS.STATE 191 lnSYNC).laneState 191 = lnSYNC ∧ laneOn.takesWrite .secure .LANE_CTL 191 = true := by
  decide +kernel

/-- The hypotheses of `LaneFramesAreCheckedAndCounted` are met: a SCREPLY frame and a DATA frame of no words on lane 191
with a good and a bad CRC. -/
theorem witness_LaneFramesAreCheckedAndCounted :
    blockLane.laneUp 191 = true ∧ blockLane.laneState 191 = lnBLOCK ∧
    blockLane.frameCheck 191 (emptyFrame 1 0) = some 2 ∧ blockLane.frameCheck 191 (emptyFrame 2 0) = some 2 ∧
    (emptyFrame 1 0).type = 1 ∧ (emptyFrame 2 0).type = 2 ∧
    blockLane.frameCheck 191 (emptyFrame 2 (crc32 (emptyFrame 2 0).bytes)) = none ∧
    blockLane.frameCheck 191 (emptyFrame 1 (crc32 (emptyFrame 1 0).bytes)) = none ∧
    (blockLane.wr F.LANE_STATUS.STATE 191 lnSYNC).laneState 191 = lnSYNC ∧
    (blockLane.wr F.LANE_STATUS.STATE 191 lnSYNC).frameCheck 191 (emptyFrame 1 (crc32 (emptyFrame 1 0).bytes)) = none := by
  decide +kernel

/-- The hypotheses of `LaneTransmitAndHistory` are met at lane 191 with each kind of block waiting. -/
theorem witness_LaneTransmitAndHistory :
    sendLane.txOn 191 = true ∧ sendLane.is F.LANE_CFG.TICK_EN 191 = true ∧ sendLane.beatRuns = true ∧
    sendLane.beatNow % 2 ^ sendLane.rd F.LANE_CFG.TICKDIV 191 = 0 ∧
    sendLane.beatNow % 65536 < 2 ^ sendLane.rd F.LANE_CFG.TICKDIV 191 ∧
    2 ^ sendLane.rd F.LANE_CFG.TICKDIV 191 ≤ (sendLane.wr F.BEAT_COUNT.COUNT 0 65280).beatNow % 65536 ∧
    (sendLane.wr F.BEAT_COUNT.COUNT 0 65280).beatNow % 2 ^ sendLane.rd F.LANE_CFG.TICKDIV 191 = 0 ∧
    sendLane.beatUnit ≠ buSTOPPED ∧ (sendLane.lane 191).sc = [] ∧ (sendLane.lane 191).txPtr < 3 ∧
    ((sendLane.setLane 191 { Lane.init with accepts := [TxBlock.timehi 0] }).lane 191).accepts ≠ [] ∧
    ((sendLane.setLane 191 { Lane.init with cmds := [TxBlock.timehi 0] }).lane 191).cmds ≠ [] ∧
    sendLane.takesWrite .secure .LANE_SC_CTL 191 = true ∧ sendLane.is F.LANE_SC_STATUS.TX_BUSY 191 = false ∧
    bits (setBit 128 32) 0 8 = bits 128 0 8 ∧ bits (setBit 128 32) 16 16 = bits 128 16 16 ∧ bits 128 0 8 = 128 ∧
    ((sendLane.setLane 191 { Lane.init with sc := [TxBlock.timehi 0] }).lane 191).sc ≠ [] ∧
    sendLane.takesWrite .secure .LANE_SC_STATUS 191 = true ∧ sendLane.laneUp 191 = true ∧ sendLane.evbLive = true ∧
    (StagedFrame.mk 0 0 0 false [] []).settled = true ∧ sendLane.is F.EVB_HIST_CFG.EN 191 = false := by
  decide +kernel

/-- The hypotheses of `ContextSlotsFlipAndMerge` are met at slot 63 in each of its states, with the flip moved and not. -/
theorem witness_ContextSlotsFlipAndMerge :
    ((on [91, 66]).ctxLive && !(on [91, 66]).held && (slotWait 0x22 ceOPEN 0).ctxReady) = true ∧
    (slotWait 0x22 ceOPEN 0).hasCmd 8191 0x22 = true ∧ (slotWait 0x24 ceOPEN 0).hasCmd 8191 0x24 = true ∧
    cdSlot ((slotWait 0x22 ceOPEN 0).desc 8191) = 63 ∧
    cdEpoch ((slotWait 0x22 ceOPEN 0).desc 8191) = (slotWait 0x22 ceOPEN 0).rd F.CTX_EPOCH.ROLE_EPOCH 63 ∧
    (slotWait 0x22 ceOPEN 0).slotMine 8191 63 = true ∧ (slotWait 0x22 ceOPEN 0).slotState 63 = ceOPEN ∧
    (slotWait 0x24 ceARMED 9).slotState 63 = ceARMED ∧ (slotWait 0x24 ceARMED 9).beatNow < (slotWait 0x24 ceARMED 9).slotF 63 ∧
    cdF ((slotWait 0x22 ceOPEN 0).desc 8191) < (slotWait 0x22 ceOPEN 0).beatNow + (slotWait 0x22 ceOPEN 0).rd F.CTX_CFG.FLIP_LEAD ∧
    ¬ cdF ((slotWait 0x22 ceOPEN 0).desc 8191) < ((slotWait 0x22 ceOPEN 0).wr F.CTX_CFG.FLIP_LEAD 0 0).beatNow +
      ((slotWait 0x22 ceOPEN 0).wr F.CTX_CFG.FLIP_LEAD 0 0).rd F.CTX_CFG.FLIP_LEAD ∧
    (slotWait 0x22 ceARMED 0).beatRuns = true ∧ (slotWait 0x22 ceARMED 0).slotF 63 ≤ (slotWait 0x22 ceARMED 0).beatNow ∧
    (slotWait 0x22 ceLIVE 0).slotState 63 = ceLIVE ∧
    ((slotWait 0x22 ceLIVE 0).slotAux 63).flipEdge + (slotWait 0x22 ceLIVE 0).rd F.CTX_CFG.MERGE_HOLD ≤
      (slotWait 0x22 ceLIVE 0).beat.edges ∧
    (∀ j, j < 64 → j ≠ 63 → (slotWait 0x22 ceLIVE 0).mergesBefore j 63 = true → (slotWait 0x22 ceLIVE 0).slotState j < ceLIVE) ∧
    (slotWait 0x22 ceLIVE 0).ctx.overlay.any (fun e => e.slot == 63) = true ∧
    (slotWait 0x22 ceMERGING 0).mergeNext 127 = some (OvlEntry.mk 63 127 1) := by
  decide +kernel

/-- The hypotheses of `ContextImagesAndLookups` are met with an image of one context, of channel 1048575, for each command;
and with lane 191 asking for bank 127. -/
theorem witness_ContextImagesAndLookups :
    imageGood (imageWait 0x20 0 0) 8191 0x20 none (2 ^ 20) (fun es u =>
      !(lastWins es).any (fun x => u.ctx.overlay.any (fun e => e.channel == x.1))) = true ∧
    imageGood (imageWait 0x21 0xFF 0) 8191 0x21 none 65536 (fun es u => cdSlot ((imageWait 0x21 0xFF 0).desc 8191) == 0xFF &&
      cdEpoch (u.desc 8191) == 0 && u.ovlRoom none (lastWins es) && (u.slotTake 0).isSome) = true ∧
    imageGood (imageWait 0x21 63 ceOPEN) 8191 0x21 (some 63) 65536 (fun es u =>
      cdSlot ((imageWait 0x21 63 ceOPEN).desc 8191) == 63 && cdEpoch ((imageWait 0x21 63 ceOPEN).desc 8191) == 0 &&
      u.slotState 63 == ceOPEN && u.ovlRoom (some 63) (lastWins es)) = true ∧
    (imageWait 0x21 63 ceOPEN).rd F.CTX_EPOCH.ROLE_EPOCH 63 = 0 ∧
    imageGood (imageWait 0x23 0 0) 8191 0x23 none 65536 (fun es u => u.ovlRoom none (lastWins es) && (u.slotTake 0).isSome) = true ∧
    (let s := imageWait 0x25 0 0
     (s.ctxReady && s.hasCmd 8191 0x25 && s.ctxPlace 8191 0x25 && s.rangeOk 0 (cdF (s.desc 8191)) 16) = true ∧
     s.ringSlice 8191 = 0 ∧ cdN (s.desc 8191) = 1 ∧ cdForm (s.desc 8191) = 0 ∧ cdFirst (s.desc 8191) + 1 = 2 ^ 20 ∧
     s.chanOk 0 1048575 = true ∧
     (s.cmdWrite 8191 5 (cdF (s.desc 8191)) ((List.range 1).flatMap (fun j => natLE 16 (s.ctxView (1048575 + j) 0)))).1 =
       .done) ∧
    (let s := (on [91, 66, 89]).setLane 191 { Lane.init with backlog := [WaitHit.mk 0 0 127 0 0 0] }
     (s.ctxLive && !s.held) = true ∧ (s.bankHit 191 127).isSome = true ∧
     rotGrant 193 (Tbl.get s.ctx.bankPtr 127 0)
       (fun n => ((List.range 192).filter (fun n => (s.bankHit n 127).isSome)).contains n) = some 191) := by
  decide +kernel

/-- The hypotheses of `TriggerPathForwardsBeats` are met at the last lane, engine and at beat 40. -/
theorem witness_TriggerPathForwardsBeats :
    ((on [91, 68]).trgLive && !(on [91, 68]).held && !(on [91, 68]).is F.TRG_STATUS.READY) = true ∧
    trgAt40.trgRuns = true ∧ trgAt40.beatNow = 41 ∧ trgAt40.sketchDue 191 = true ∧
    (trgAt40.trg.packets.find? (fun p => p.lane == 191)).isSome = true ∧
    ((trgAt40.trgUnit 63).spanAt (trgAt40.engineBeat 63)).isSome = true ∧
    trgAt40.engineDue (trgAt40.trgUnit 63).cur.prog (trgAt40.engineBeat 63) = true ∧
    trgAt40.engineBeat 63 ≤ trgAt40.beatNow ∧
    guestLate40.trgRuns = true ∧ (guestLate40.cmbProg 40).guestDl ≠ 0 ∧ guestLate40.guestSites ≠ [] ∧
    40 + (guestLate40.cmbProg 40).guestDl ≤ guestLate40.beatNow ∧ guestLate40.trg.cmbNext ≤ 40 ∧
    guestLate40.trg.guestLate.contains 40 = false ∧ Tbl.find guestLate40.trg.guestWords 40 = none ∧
    trgAt40.trg.cmbNext = 40 ∧ (trgAt40.stencilWord 40).beatNow = 41 ∧
    (trgAt40.stencilWord 40).engineBits 40 = some 0 ∧ (trgAt40.stencilWord 40).guestBits 40 = some 0 := by
  decide +kernel

set_option maxRecDepth 20000 in

/-- The hypotheses of `MenusLoadSwapAndReadBack` are met with an image of one section and with the unit 64. -/
theorem witness_MenusLoadSwapAndReadBack :
    menuWait.trgReady = true ∧ menuWait.hasCmd 8191 0x28 = true ∧ menuWait.ringSlice 8191 = 0 ∧
    (match menuWait.cmdRead 8191 5 (2 ^ 44) 112 with
      | (.data img bad, u) => bad.isEmpty && img == menuBytes && u.rd F.TRG_UNIT_STATUS.ROLE_EPOCH 64 == 0
      | _ => false) = true ∧ dget (menuWait.desc 8191) 8 8 = 2 ^ 44 ∧ dget (menuWait.desc 8191) 16 4 = 112 ∧
    ((sectionsOf 513 (menuBytes.drop 64)).filterMap id).all (fun x => x.unit == some 64 && x.epoch == 0) = true ∧
    menuGood menuBytes (sectionsOf 513 (menuBytes.drop 64)) = true ∧
    (let s := trgAt40.setUnit 64 { trgAt40.trgUnit 64 with shadow := some Prog.init }
     s.trgRuns = true ∧ (s.trgUnit 64).shadow = some Prog.init ∧ s.rd F.TRG_UNIT_SWAP.S 64 ≤ s.beatNow) := by
  decide +kernel

/-- The hypotheses of `TriggerOutputsAndBusy` are met. -/
theorem witness_TriggerOutputsAndBusy :
    (beatOn.takesWrite .secure .TIO_OUT_CTL && tracking.beatRuns) = true ∧ beatOn.tio.trigOut = none ∧
    beatOn.tio.drvWait = none ∧
    (let s := { tracking with tio := { tracking.tio with drvWait := some 0 }, beat := { tracking.beat with edges := 1 } }
     s.beatRuns = true ∧ (0 : Nat) < s.beat.edges) ∧
    ({ tracking with tio := { tracking.tio with trigOut := some 128 } }.beatRuns) = true ∧
    [F.TIO_STATUS.C_RUN, F.TIO_STATUS.C_BEAT, F.TIO_STATUS.C_EVB, F.TIO_STATUS.C_BUSY_IN, F.TIO_STATUS.C_FORCE,
      F.TIO_STATUS.C_HOLD].map (fun f => (tracking.wr f 0 0).is f) = List.replicate 6 false ∧
    (([F.TIO_STATUS.C_RUN, F.TIO_STATUS.C_BEAT, F.TIO_STATUS.C_EVB, F.TIO_STATUS.C_BUSY_IN, F.TIO_STATUS.C_FORCE,
      F.TIO_STATUS.C_HOLD].foldl (fun s f => s.wr f 0 0) tracking).beatRuns) = true := by
  decide +kernel

/-- The hypotheses of `ExternalInputsAreWatched` are met at input 23. -/
theorem witness_ExternalInputsAreWatched :
    (beatOn.beatLive && !beatOn.held) = true ∧ beatOn.is F.TIO_IN_STATUS.LEVEL 23 = false ∧ beatOn.tio.en.testBit 23 = false ∧
    (let s := { beatOn.wr F.TIO_IN_STATUS.LEVEL 23 1 with tio := { beatOn.tio with en := 2 ^ 23, trans := [(23, 9)] } }
     s.tio.en.testBit 23 = true ∧ s.is F.TIO_IN_STATUS.LEVEL 23 = true ∧ s.is F.TIO_IN_STATUS.STUCK 23 = false ∧
     ((s.wr F.TIO_IN_CFG.CHAT_LIM 23 9).tio.trans.get 23 0 ≤ (s.wr F.TIO_IN_CFG.CHAT_LIM 23 9).rd F.TIO_IN_CFG.CHAT_LIM 23) ∧
     ((s.wr F.TIO_IN_CFG.CHAT_LIM 23 8).rd F.TIO_IN_CFG.CHAT_LIM 23 ≠ 0 ∧
       (s.wr F.TIO_IN_CFG.CHAT_LIM 23 8).rd F.TIO_IN_CFG.CHAT_LIM 23 < s.tio.trans.get 23 0) ∧
     s.is F.TIO_IN_STATUS.CHATTER 23 = false) ∧
    beatOn.takesWrite .secure .TIO_IN_CFG 23 = true ∧ tracking.takesWrite .secure .TIO_IN_CFG 23 = true ∧
    beatOn.beatUnit = buSTOPPED ∧ tracking.beatUnit ≠ buSTOPPED ∧ tracking.tio.en.testBit 23 = false ∧
    (let s := { tracking with tio := { tracking.tio with enWait := [(23, 0)] }, beat := { tracking.beat with edges := 1 } }
     s.beatRuns = true ∧ Tbl.find s.tio.enWait 23 = some 0 ∧ 0 < s.beat.edges) ∧
    beatOn.takesWrite .secure .TIO_IN_CTL 23 = true ∧ beatOn.is F.TIO_IN_STATUS.STUCK 23 = false ∧
    beatOn.is F.TIO_IN_STATUS.CHATTER 23 = false := by
  decide +kernel

/-- The hypotheses of `EventsAreAssembledAndCopied` are met at lane 191, pool 7, context 65535 and queue 1023. -/
theorem witness_EventsAreAssembledAndCopied :
    (let s := evbOn .assembling
     s.evbLive = true ∧ s.held = false ∧ ((s.setEvent 65535 { event7 .assembling with frags := [Frag.fresh 256] }).assemble
       65535).event 65535 = some { event7 .assembling with frags := [Frag.fresh 256] } ∧
     (memOn [92, 69, 89, 66]).takesWrite .secure .EVB_HIST_CFG 191 = true ∧
     (memOn [92, 69, 89, 66]).is F.EVB_HIST_CFG.EN 191 = false ∧ (0x141 : Nat).testBit 0 = true ∧
     F.EVB_HIST_CFG.SIZE.enc.ok (bits 0x141 4 5) = true ∧
     (memOn [92, 69]).normalRange ((memOn [92, 69]).rd F.EVB_HIST_BASE.BASE 191 * 2 ^ 20) (2 ^ bits 0x141 4 5) = true ∧
     (memOn [92, 69]).rd F.EVB_HIST_BASE.BASE 191 * 2 ^ 20 % 2 ^ bits 0x141 4 5 = 0) ∧
    (let s := { evbOn .assembling with evb := { (evbOn .assembling).evb with fifo := [accept7] } }
     s.evbLive = true ∧ s.held = false ∧ s.evb.fifo = [accept7] ∧ (s.takeCtx).isSome = true) ∧
    ((evbOn .ready).oldestReady = some (65535, event7 .ready) ∧ (evbOn .ready).enginesBusy < 32) ∧
    (let s := evbOn .counted
     (s.pool 7).waiting = [65535] ∧ s.is F.EVB_POOL_CFG.EN 7 = true ∧ s.event 65535 = some (event7 .counted) ∧
     s.poolFit 7 256 = some (0, 256)) ∧
    (let s := evbOn .allocated
     s.event 65535 = some (event7 .allocated) ∧ (s.copyFrags []).1 = some [] ∧
     (s.devWrite 2 false (2 ^ 30) ((event7 .copied).record 65535) false).1 = .none) ∧
    (let s := (evbOn .copied).setEvent 65535 { event7 .copied with queue := some 1023 }
     s.rd F.EVB_EVQ_IDX.PI 1023 = 0 ∧ s.rd F.EVB_EVQ_IDX.CI 1023 = 0 ∧ s.evb.events.length = 1 ∧
     (s.devWrite 2 false (s.rd F.EVB_EVQ_BASE.BASE 1023)
       (s.queueDesc 65535 { event7 .copied with queue := some 1023 } 1023) false).1 = .none) := by
  decide +kernel

/-- The hypotheses of `EventQueuesPoolsAndRoutes` are met at the last queue, pool and route. -/
theorem witness_EventQueuesPoolsAndRoutes :
    (let s := memOn [92, 69, 96, 72]
     (s.evbLive && s.ringLive && !s.held && !s.is F.EVB_STATUS.READY) = true ∧ s.takesWrite .secure .EVB_EVQ_CFG 1023 = true ∧
     s.is F.EVB_EVQ_CFG.EN 1023 = false ∧ F.EVB_EVQ_CFG.QSIZE.enc.ok (bits 0xC1 4 4) = true ∧
     bits 0xC1 8 8 = s.rd F.EVB_EVQ_CFG.OWNER 1023 ∧ s.rd F.EVB_EVQ_BASE.BASE 1023 % (32 * 2 ^ bits 0xC1 4 4) = 0 ∧
     s.normalRange (s.rd F.EVB_EVQ_BASE.BASE 1023) (32 * 2 ^ bits 0xC1 4 4) = true ∧
     s.takesWrite .secure .EVB_POOL_CFG 7 = true ∧ s.is F.EVB_POOL_CFG.EN 7 = false ∧
     F.EVB_POOL_CFG.PLATES.enc.ok (bits 0x11 4 12) = true ∧
     s.normalRange (s.rd F.EVB_POOL_BASE.BASE 7 * 2 ^ 30) (bits 0x11 4 12 * 2 ^ 30) = true ∧
     s.takesWrite .secure .EVB_ROUTE_CFG 15 = true ∧ F.EVB_ROUTE_TMO.TIMEOUT.enc.ok (bits 100 0 20) = true ∧
     routeFits 192 2 (s.rd F.EVB_ROUTE_CFG.MAXENT 15) = true ∧ s.takesWrite .secure .HIF_EVQ_DB 1023 = true ∧
     (List.range 1024).all (fun k => !s.is F.HIF_EVQ_DB.VALID k) = true) ∧
    (let s := (evbOn .copied).wr F.EVB_BP_CFG.BP_AGE 0 1
     s.event 65535 = some (event7 .copied) ∧ s.rd F.EVB_BP_CFG.BP_AGE ≠ 0 ∧ s.evbLive = true) ∧
    (let u := (queueOn 0x2C).dbServed 2
     u.is F.EVB_EVQ_CFG.EN 1023 = true ∧ 1 / 65536 % 65536 = u.rd F.EVB_EVQ_CFG.ROLE_EPOCH 1023 ∧
     (1 % 65536 + 65536 - u.rd F.EVB_EVQ_IDX.CI 1023) % 65536 ≤
       (u.rd F.EVB_EVQ_IDX.PI 1023 + 65536 - u.rd F.EVB_EVQ_IDX.CI 1023) % 65536) ∧
    ((queueOn 0x2C).hasCmd 8191 0x2C = true ∧ (queueOn 0x2C).subChecks 8191 true = none ∧
     ((queueOn 0x2D).setSubs 15 [1023]).hasCmd 8191 0x2D = true ∧ ((queueOn 0x2D).setSubs 15 [1023]).subChecks 8191 false = none) ∧
    (let s := deliverWait
     s.evbLive = true ∧ s.hasCmd 8191 0x43 = true ∧ dget (s.desc 8191) 8 2 = 1023 ∧
     dget (s.desc 8191) 10 2 = s.rd F.EVB_EVQ_CFG.ROLE_EPOCH 1023 ∧ s.ringSlice 8191 = 0 ∧ dget (s.desc 8191) 12 2 = 256 ∧
     s.is F.EVB_EVQ_CFG.EN 1023 = true ∧ (s.setQueued 1023 []).queuedOf 1023 = [] ∧ s.queuedOf 1023 = [65535] ∧
     fitItems [itemSize 256] (dget (s.desc 8191) 24 4) = 1 ∧
     (match s.readItems 8191 1023 [65535] 0 with
      | (.ok (some (bytes, _)), u) => (u.cmdWrite 8191 5 (dget (s.desc 8191) 16 8) bytes).1 == .done
      | _ => false) = true) := by
  decide +kernel

/-- The hypotheses of `CoresStartStopAndWake` are met at core 575. -/
theorem witness_CoresStartStopAndWake :
    (let s := running 575
     s.takesWrite .secure .CORE_CTL 575 = true ∧ (s.wr F.CORE_STATUS.STATE 575 1).rd F.CORE_STATUS.STATE 575 = 1 ∧
     s.coreThere 575 = true ∧ (s.wr F.CORE_STATUS.STATE 575 2).coreThere 575 = true ∧
     ((s.wr F.CORE_STATUS.STATE 575 2).rd F.CORE_STATUS.STATE 575 = 2) ∧ s.coreFree 575 = true ∧ s.priv 575 = 3 ∧
     s.mip 575 = 0 ∧ (s.wr F.CORE_MSIP.MSIP 575 1).coreFree 575 = true ∧ (s.wr F.CORE_MSIP.MSIP 575 1).mip 575 ≠ 0 ∧
     s.perfOn 575 31 = false ∧ (s.wr F.CORE_STATUS.NS 575 1).perfOn 575 31 = true ∧
     (s.setHart 575 { s.hart 575 with claimM := [3], claimS := [4] }).takesRead .secure .CORE_CLAIM_M 575 = true ∧
     s.takesRead (.normal 1) .CORE_CLAIM_S 575 = true ∧ s.takesRead (.normal 1) .CORE_CLAIM_M 575 = true ∧
     (s.hart 575).claimS = [] ∧ s.takesWrite .secure .CORE_SSIP_SET 575 = true) := by
  decide +kernel

/-- The hypotheses of `TrapsReturnsAndCsrs` are met at core 575, in M-mode and in S-mode. -/
theorem witness_TrapsReturnsAndCsrs :
    (let s := running 575
     s.coreFree 575 = true ∧ s.ns 575 = false ∧ s.delegated 575 63 = false ∧
     (let d := (s.wr F.CORE_STATUS.PRIV 575 0).setCsr 575 0x302 1
      d.coreFree 575 = true ∧ d.delegated 575 0 = true) ∧
     (let i := ((s.wr F.CORE_MSIP.MSIP 575 1).setCsr 575 0x304 8).setCsr 575 0x300 8
      i.coreRuns 575 = true ∧ (i.hart 575).io = none ∧ (i.hart 575).proof = none ∧ (i.hart 575).mb = [] ∧
      i.interruptDue 575 = some (3, true)) ∧
     (let i := (((s.wr F.CORE_STATUS.NS 575 1).wr F.CORE_STATUS.PRIV 575 0).setCsr 575 0x344 2).setCsr 575 0x304 2
      i.coreRuns 575 = true ∧ i.interruptDue 575 = some (1, false)) ∧
     s.priv 575 = 3 ∧ ((s.wr F.CORE_STATUS.PRIV 575 1).csr 575 0x300).testBit 22 = false ∧
     (s.atInsn 575 0).csrAllowed 575 0x340 true = true ∧ (s.atInsn 575 0).csrAllowed 575 0x7C1 true = true) := by
  decide +kernel

/-- The hypotheses of `CoreMemoryAccesses` are met at core 575 and the address 0, in its caches and with its L2 disabled. -/
theorem witness_CoreMemoryAccesses :
    (let s := cached575
     let at' (a : Acc) (va : Nat) (l : List Nat) : Bool := match (s.atInsn 575 64).target 575 a va 8 l with
       | (.ok pa, v) => pa == va && v == s.atInsn 575 64
       | _ => false
     s.coreFree 575 = true ∧ sizeOk 8 = true ∧ crosses 0 8 = false ∧ at' .load 0 [0] = true ∧ at' .store 0 [1] = true ∧
     at' .store 0 [0, 1] = true ∧ at' .load 0x0F0000000000 [0] = true ∧ at' .store 0x0F0000000000 [1] = true ∧
     inMemory 0 = true ∧ regionOf 0x0F0000000000 = .regs 0 ∧ ((s.atInsn 575 64).hart 575).mb = [] ∧
     (Tbl.find ((s.atInsn 575 64).hart 575).l1d 0).isSome = true ∧ (s.atInsn 575 64).inProof 575 = false ∧
     (s.atInsn 575 64).l2On 47 = true ∧ clusterOf 575 = 47 ∧ ((s.atInsn 575 64).l2line 47 (lineOf 0)).isSome = true ∧
     ((s.atInsn 575 64).hart 575).resv = none ∧ s.guestWrites 575 = false ∧
     (((s.setHart 575 { s.hart 575 with resv := some 0 }).atInsn 575 64).hart 575).resv = some (lineOf 0)) ∧
    (let s := cached575.setHart 575 { cached575.hart 575 with mb := [MbEntry.mk 0 [(0, 1)]] }
     s.coreThere 575 = true ∧ s.l2On 47 = true ∧ (s.localAccess 575 0 true).1 = true ∧
     ((s.localAccess 575 0 true).2.l2Own 575 0 true).1 = true ∧
     (((s.localAccess 575 0 true).2.l2Own 575 0 true).2.markWrite 575 0).1 = true ∧
     (s.wr F.L2_STATUS.ENABLED 47 0).l2On 47 = false ∧ (s.wr F.L2_STATUS.ENABLED 47 0).ioAsked 575 0 = false) := by
  decide +kernel

/-- The hypotheses of `CoherenceMessagesArrive` are met with one message of each kind of cluster 47 for line 5. -/
theorem witness_CoherenceMessagesArrive :
    ([Request.mk .rdShared 5 (.cluster 47) none [] false 0 0 128, Request.mk .rdUnique 5 (.cluster 47) none [] false 0 0 128,
      Request.mk .upgrade 5 (.cluster 47) none [] false 0 0 128].all (fun r => flying (.req r) (0, .cluster 47, 5)) &&
     [CohMsg.evn 47 5 false false [], .evn 47 5 true false [], .wrback 47 5 false [], .rsp 47 5 false true false [] false].all
       (fun m => flying m (1, .cluster 47, 5)) &&
     [CohMsg.snp .share 47 5 none none false, .snp .unique 47 5 none none false, .snp .inv 47 5 none none false,
       .snp .iord 47 5 none none false, .gnt 47 5 .e true, .ackEvn 47 5 false].all (fun m => flying m (2, .cluster 47, 5)) &&
     flying (.data 47 5 false false []) (3, .cluster 47, 5) &&
     [CohMsg.pin 47 5, .unpin 47 5].all (fun m => flying m (4, .cluster 47, 5)) && flying (.abort 575 1 5) (5, .core 575, 0) &&
     [Request.mk .ioRd 5 (.agent 6) none [] false 0 0 128, Request.mk .ioWr 5 (.agent 6) none [] false 0 0 128].all
       (fun r => flying (.req r) (0, .agent 6, 5))) = true := by
  decide +kernel

/-- The hypotheses of `DirectoryServesAndIsControlled` are met with line 5 of cluster 47 and with the last slice. -/
theorem witness_DirectoryServesAndIsControlled :
    (let s := memOn [61]
     let r := Request.mk .rdShared 5 (.cluster 47) none [] false 0 0 128
     r.src = .cluster 47 ∧ s.entry r.line = none ∧ (s.setEntries r.line).length < 16 ∧
     (s.putEntry 5 (DirEntry.mk .s (some 1) none none none false [] 0 0)).entry r.line =
       some (DirEntry.mk .s (some 1) none none none false [] 0 1) ∧
     (let w := { s with dir := { s.dir with waits := [(5, [r])], sweeping := [31], probing := true } }
      w.held = false ∧ Tbl.get w.dir.waits 5 [] = [r] ∧ w.lineHeld 5 = false ∧ w.mayServe 5 = true ∧
      w.dir.sweeping.contains 31 = true ∧ w.sliceLive 31 = true ∧ w.dir.probing = true ∧
      w.sliceReady (homeSlice (w.rd F.DIR_PROBE_ADDR.LINE)) = true) ∧
     s.takesWrite .secure .DIR_PROBE_ADDR = true) := by
  decide +kernel

/-- The hypotheses of `L2ControlsRun` are met at cluster 47, with a dirty line and with none. -/
theorem witness_L2ControlsRun :
    (let s := cached575
     let d := s.setL2 47 { s.l2c 47 with lines := [(0, L2Line.mk .m false [])] }
     s.takesWrite .secure .L2_CTL 47 = true ∧ d.takesWrite .secure .L2_CTL 47 = true ∧ s.l2On 47 = true ∧ d.l2On 47 = true ∧
     s.l2Dirty 47 = 0 ∧ d.l2Dirty 47 ≠ 0 ∧ s.is F.L2_CTL.FLUSH 47 = false ∧ s.is F.L2_CTL.INV 47 = false ∧
     (coresOf 47).any (fun k => (d.hart k).writes 0) = false ∧ s.clusterLive 47 = true ∧
     (let f := (s.wr F.L2_CTL.FLUSH 47 1).wr F.L2_CTL.INV 47 1
      f.is F.L2_CTL.FLUSH 47 = true ∧ f.is F.L2_CTL.INV 47 = true ∧ (f.l2c 47).flushLeft = [] ∧
      (f.l2c 47).invAfterFlush = false ∧ (f.l2c 47).invLeft = [] ∧ (f.l2c 47).lb = []) ∧
     (s.wr F.L2_STATUS.READY 47 0).is F.L2_STATUS.READY 47 = false ∧ s.held = false) ∧
    (let d := cached575.setL2 47 { cached575.l2c 47 with lines := [(0, L2Line.mk .m false [])] }
     match exec (.l2Flush .secure 47) d with
     | .next t => decide (t.rd F.L2_CTL.FLUSH 47 = 1 ∧ t.dir.flight = [.wrback 47 0 false []] ∧
         (t.l2c 47).lines = [(0, L2Line.mk .e false [])] ∧ (t.l2c 47).flushLeft = [0])
     | _ => false) = true := by
  decide +kernel

/-- The hypotheses of `ProofsOpenSealAndAbort` are met by core 575: with no proof, a free group and an open group 4095; and in a
proof of each depth and kind. -/
theorem witness_ProofsOpenSealAndAbort :
    (let s := coreProof none
     let u := s.atInsn 575 64
     let w := ((u.wr F.CORE_STATUS.PRF_OPEN 575 1).retire 575 68).perf 575 0x000C
     s.coreFree 575 = true ∧ u.l2On 47 = true ∧ w.l2On 47 = true ∧ u.arbDoor = (.ready, u) ∧ u.domOn 69 = true ∧
     u.rd F.PRF_SLICE_GRP.USED (u.grpSlice 575) < u.rd F.PRF_SLICE_GRP.LIMIT (u.grpSlice 575) ∧
     (List.range 4096).find? (fun g => u.groupState g == gsFREE) = some 0 ∧
     (Tbl.get (u.hart 575).x 5 0).toNat = 64 ∧
     u.joinRefusal 575 (Tbl.get (u.hart 575).x 6 0).toNat = none ∧ bits (Tbl.get (u.hart 575).x 6 0).toNat 0 12 = 4095 ∧
     Tbl.find u.groups 4095 = some (Machine.Group.mk 1 0 [] [] [] [] [])) ∧
    [(1, none), (1, some 4095), (6, none), (2, none), (7, none)].all (fun x =>
      let s := coreProof (some (openAt x.1 x.2))
      s.mayIssue 575 && !(s.hart 575).haltPending && ((s.atInsn 575 64).hart 575).mb.isEmpty &&
        ((s.atInsn 575 64).hart 575).proof.isSome) = true := by
  decide +kernel

/-- The hypotheses of `GroupsCommitAndAbort` are met by group 4095 and core 575: the last of one seal, a commit, an abort on its way,
a group whose proofs have ended, and a held snoop. -/
theorem witness_GroupsCommitAndAbort :
    (let s := coreProof (some { openAt 1 (some 4095) with sealing := true })
     let x := Machine.Group.mk 1 0 [575] [] [] [] []
     let s := { s with groups := [(4095, x)] }
     let u := State.inc { s with groups := Tbl.put s.groups 4095 { x with sealed := [575] } } F.PRF_GRP_STATUS.SEALED 4095
     s.held = false ∧ s.arbDoor = (.ready, s) ∧ s.groupState 4095 = gsOPEN ∧
     (s.hart 575).proof.any (fun p => p.group == some 4095 && p.sealing) = true ∧
     u.rd F.PRF_GRP_STATUS.EXPECT 4095 ≤ u.rd F.PRF_GRP_STATUS.SEALED 4095 ∧
     (let v := s.wr F.PRF_GRP_STATUS.EXPECT 4095 2
      let u := v.inc F.PRF_GRP_STATUS.SEALED 4095
      u.rd F.PRF_GRP_STATUS.SEALED 4095 < u.rd F.PRF_GRP_STATUS.EXPECT 4095)) ∧
    (let s := coreProof none
     let c := s.wr F.PRF_GRP_STATUS.STATE 4095 gsCOMMITTING
     let a := s.wr F.PRF_GRP_STATUS.STATE 4095 gsABORTING
     c.held = false ∧ c.arbDoor = (.ready, c) ∧ c.groupState 4095 = gsCOMMITTING ∧ (c.hart 575).proof = none ∧
     a.arbDoor = (.ready, a) ∧ a.groupState 4095 = gsABORTING ∧ [575].any (fun k => (a.hart k).proof.isSome) = false ∧
     (let r := s.wr F.PRF_STATUS.READY 0 0
      r.domOn 69 = true ∧ r.held = false ∧ r.is F.PRF_STATUS.READY = false)) ∧
    (let s := coreProof (some { openAt 1 (some 4095) with sealing := true, committing := true })
     let s := s.wr F.PRF_GRP_STATUS.STATE 4095 gsCOMMITTING
     s.groupState 4095 = gsCOMMITTING ∧ (s.hart 575).proof.any (fun p => p.group == some 4095 && p.committing) = true) ∧
    (let s := coreProof (some { openAt 1 none with deferring := true })
     s.clusterLive 47 = true ∧ s.held = false ∧ s.coreThere 575 = true ∧ (s.hart 575).proof.isSome = true ∧
     (s.setL2 47 { s.l2c 47 with held := [HeldSnoop.mk 5 .inv false none none [575]] }).l2c 47 =
       { L2State.init with held := [HeldSnoop.mk 5 .inv false none none [575]] }) := by
  decide +kernel

/-- The hypotheses of `StippleJobsAreQueuedAndRun` are met by a job of one sample of 8 bits in codes of 1 bit, waiting, running on
engine 15, over quota, and for Ethernet. -/
theorem witness_StippleJobsAreQueuedAndRun :
    (let s := jobWait
     let d := s.desc 8191
     let list := natLE 8 (2 ^ 44) ++ natLE 4 256 ++ natLE 4 0
     s.stpReady = true ∧ s.hasCmd 8191 0x40 = true ∧ s.ringSlice 8191 = 0 ∧ s.jobFields d = true ∧
     s.listRead 8191 (dget d 32 8) (dget d 40 2) = (.data list [], s) ∧ s.listRead 8191 (dget d 48 8) (dget d 42 2) = (.data [] [], s) ∧
     (chainOf list).all stpEntryGood = true ∧ jobEth d = false ∧ jobBlocks d = 1 ∧
     1 ≤ chainSlots ((chainOf list).map (fun e => (e.1, e.2.1))) (slotBytes (jobQ d)) ∧ s.rd F.STP_SLICE_SHARE.SHARE 0 ≠ 0 ∧
     s.is F.STP_SLICE_SHARE.OVER_QUOTA 0 = false) ∧
    (let s := { jobWait with stp := { jobWait.stp with waiting := [jobOf none] } }
     let q := s.wr F.STP_SLICE_SHARE.OVER_QUOTA 0 1
     s.stpReady = true ∧ s.jobChoice = some (jobOf none) ∧ s.freeEngine = some 15 ∧ s.is F.STP_SLICE_SHARE.OVER_QUOTA 0 = false ∧
     q.jobChoice = some (jobOf none) ∧ q.freeEngine = some 15 ∧ q.is F.STP_SLICE_SHARE.OVER_QUOTA 0 = true) ∧
    (let s := jobRuns
     let b := codeBlock (jobOf none).desc 0 (samplesOf 8 false [7])
     s.stpReady = true ∧ s.stp.running.find? (fun j => j.engine == some 15) = some (jobOf (some 15)) ∧
     s.rd F.STP_ENG_STATUS.STATE 15 = 1 ∧ (s.cmdRead 8191 3 (2 ^ 44) 1).1 = .data [7] [] ∧
     (match s.putSlot (jobOf (some 15)) b.slot with
      | (.done j, _) => j.mainBytes == 160
      | _ => false) = true ∧ b.recs = []) ∧
    (let j := { jobOf (some 15) with desc := natLE 16 0x40 ++ natLE 4 8192 ++ natLE 1 0 ++ natLE 1 0x21 ++ natLE 42 0 }
     let s := jobRuns.wr F.ETH_PORT_CFG.MTU 0 1500
     jobEth j.desc = true ∧ j.slots.length + 1 < (s.ethLimit (jobQueue j.desc) - 32) / slotBytes (jobQ j.desc) ∧
       j.blocks + 1 < jobBlocks j.desc) := by
  decide +kernel

/-- The hypotheses of `EthernetSends` are met on queue 63 of port 3: with a frame of slice 0 and one of slice 9, whose addresses
do not agree; and with a send and a template in the host window. -/
theorem witness_EthernetSends :
    ([(0, EthKind.send), (0, EthKind.ended), (9, EthKind.job)].all (fun k =>
      let s := ethOn [EthFrame.mk k.1 8191 k.2 (List.replicate 60 0)]
      s.ethReady 3 && s.is F.ETH_PORT_CFG.EN 3 && s.fbit F.ETH_PORT_STATUS.LINK 3 0 &&
        rotGrant 64 (Tbl.get s.eth.ptr 12 0) (s.queueReady 3 0) == some 63 && (s.frameMine 9 (List.replicate 60 0) == false)) = true) ∧
    (let s := { jobRuns with eth := { jobRuns.eth with ready := [(255, [])] } }
     s.stp.running.find? (fun j => j.ring == 8191) = some (jobOf (some 15)) ∧
       (s.ethQueue 255).any (fun g => g.ring == 8191 && g.kind == EthKind.job) = false) ∧
    (let s := ethCmd (natLE 8 0x41 ++ natLE 1 3 ++ natLE 1 63 ++ natLE 6 0 ++ natLE 8 (2 ^ 44) ++ natLE 4 64 ++ natLE 36 0)
     let d := s.desc 8191
     s.hasCmd 8191 0x41 = true ∧ byteAt d 8 = 3 ∧ byteAt d 9 = 63 ∧ s.ethReady 3 = true ∧ s.ringSlice 8191 = 0 ∧ dget d 24 4 = 64 ∧
     64 ≤ s.ethLimit 255 ∧ dget d 10 2 = s.rd F.ETH_Q_CFG.ROLE_EPOCH 255 ∧ s.queueMine 0 255 = true ∧
     (s.cmdRead 8191 4 (2 ^ 44) 64).1 = .data flow4 [] ∧ s.queueLink 255 = true) ∧
    (let s := ethCmd (natLE 8 0x30 ++ natLE 1 3 ++ natLE 1 63 ++ natLE 6 0 ++ natLE 8 (2 ^ 44) ++ natLE 40 0)
     s.hasCmd 8191 0x30 = true ∧ (s.cmdRead 8191 4 (2 ^ 44) 64).1 = .data flow4 [] ∧ flowGood flow4 = true ∧
     s.queueBusy 255 = false ∧ dget (s.desc 8191) 10 2 = s.rd F.ETH_Q_CFG.ROLE_EPOCH 255) := by
  decide +kernel

/-- The hypotheses of `EthernetPortsAndShares` are met on port 3 and queue 63 and by slice 255; and a SHARE of 0 sets the quota
marks, and an enabling write counts the epoch. -/
theorem witness_EthernetPortsAndShares :
    (let s := ethOn []
     let p := { s with eth := { s.eth with paused := [(12, 1)] },
                       stp := { s.stp with running := [{ jobOf (some 15) with
                         desc := natLE 16 0x40 ++ natLE 4 8192 ++ natLE 1 0 ++ natLE 1 0x21 ++ natLE 1 63 ++ natLE 1 3 ++ natLE 40 0 }] } }
     s.ethReady 3 = true ∧ s.fbit F.ETH_PORT_STATUS.LINK 3 0 = true ∧ s.is F.ETH_PORT_CFG.PFC_EN 3 = true ∧
     (s.wr F.ETH_PORT_CFG.PFC_EN 3 0).is F.ETH_PORT_CFG.PFC_EN 3 = false ∧
     (Tbl.get p.eth.paused (p.subOf 255) 0).testBit (p.rd F.ETH_Q_CFG.PCP 255) = true ∧ p.queueBusy 255 = true ∧
     s.is F.ETH_PORT_CFG.EN 3 = true ∧ 0 < subPorts (s.rd F.ETH_PORT_CFG.MODE 3) ∧
     (s.wr F.ETH_PORT_STATUS.LINK 3 0).fbit F.ETH_PORT_STATUS.LINK 3 0 = false ∧
     s.takesWrite .secure .ETH_Q_CFG 255 = true ∧ s.rd F.ETH_Q_CFG.OWNER 255 = 0 ∧ s.rd F.ETH_Q_CFG.EN 255 = 1 ∧
     s.takesWrite .secure .STP_SLICE_SHARE 255 = true ∧ s.rd F.STP_SLICE_SHARE.SHARE 255 ≤ 16 ∧
     s.is F.STP_SLICE_SHARE.OVER_QUOTA 255 = false ∧ bits 17 0 5 = 17 ∧
     s.held = false ∧ s.domOn 93 = true ∧ s.domOn 94 = false ∧ s.domOn 95 = true) ∧
    (match exec (.ethQCfgWrite .secure 3 63 1) ((ethOn []).wr F.ETH_Q_CFG.EN 255 0) with
     | .next t => t.rd F.ETH_Q_CFG.EN 255 == 1 && t.rd F.ETH_Q_CFG.ROLE_EPOCH 255 == 1
     | _ => false) = true ∧
    (match exec (.stpShareWrite .secure 255 0) ((ethOn []).wr F.STP_SLICE_SHARE.SHARE 255 1) with
     | .next t => t.rd F.STP_SLICE_SHARE.OVER_QUOTA 255 == 1 && t.rd F.HIF_SLICE_STATUS.OVER_STP 255 == 1 &&
         t.rd F.STP_STATUS.EVT_QUOTA == 1
     | _ => false) = true := by
  decide +kernel

/-- The hypotheses of `SheetsAreServedAndCorrected` are met on the last HBM sheet of controller 7: a request of each kind, the
burnisher at its first and last sheet, a raw sheet of each outcome, and a pending entry with each report. -/
theorem witness_SheetsAreServedAndCorrected :
    (let s := memOn [59, 58, 61]
     s.held = false ∧ s.controllerOf 7 = 7 ∧ s.rd F.PWR_DOM_STATUS.STATE (ctlDom 7) = 0 ∧ s.domOn (ctlDom 7) = true ∧
     s.walking 7 = false ∧ s.ctlPopulated 7 = true ∧ s.ctlSheets 7 = 24 * 2 ^ 22 ∧ (s.wr F.MEM_BURN_CFG.EN 0 1).is F.MEM_BURN_CFG.EN = true ∧
     (s.wr F.MEM_BURN_PTR.LOCAL 7 (24 * 2 ^ 22 - 1)).rd F.MEM_BURN_PTR.LOCAL 7 = 24 * 2 ^ 22 - 1 ∧
     s.domOn (uncoreDom 11) = true ∧
     (decodeSheet 1 7 0 SheetCode.clean).out = .clean ∧
     (decodeSheet 1 7 0 (SheetCode.mk false false [(0, 1)] 0)).out = .corrected ∧
     (decodeSheet 1 7 0 (SheetCode.mk false false [] 1)).out = .addr ∧
     (s.setCorr 7 [PendCorr.mk 7 11 0 SheetCode.clean]).corrOf 7 = [PendCorr.mk 7 11 0 SheetCode.clean] ∧ s.corrOf 7 = []) := by
  decide +kernel

/-- The hypotheses of `PlatesWalkAndChangeStrength` are met: watermarks 0 raised to 192 and 1024, blocked by a plate of slice 9, and
lowered from 2; plate 191 and plate 2047 given another strength and the same; the walks running on controller 7. -/
theorem witness_PlatesWalkAndChangeStrength :
    (let s := memOn [61]
     let lock := s.wr F.MEM_WM.LOCK 0 0
     let two := (lock.wr F.MEM_WM.HBM_WM 0 2).wr F.MEM_WM.DDR_WM 0 2
     s.takesWrite .secure .MEM_WM = true ∧ s.is F.MEM_WM.WM_BUSY = false ∧ lock.is F.MEM_WM.LOCK = false ∧ 192 ≤ s.hw.hbmPlates ∧
     lock.raiseBlocked 192 0 = false ∧ lock.rd F.MEM_WM.HBM_WM = 0 ∧ lock.rd F.MEM_WM.DDR_WM = 0 ∧
     (lock.wr F.HIF_PLATE_OWNER_H.OWNER7 23 9).raiseBlocked 192 0 = true ∧ s.ctlPopulated 0 = true ∧
     two.raiseBlocked 1 1 = false ∧ 1 < two.rd F.MEM_WM.HBM_WM ∧ (s.wr F.MEM_WM.WM_BUSY 0 1).is F.MEM_WM.WM_BUSY = true ∧
     s.takesWrite (.normal 0) .MEM_WM = true ∧ s.held = false ∧
     s.takesWrite .secure .MEM_PLATE_CFG_H 191 = true ∧ s.takesWrite .secure .MEM_PLATE_CFG_D 2047 = true ∧
     s.is F.MEM_RECODE.ACTIVE 0 = false ∧ s.rd F.MEM_PLATE_CFG_H.T 191 ≠ 11 ∧ 1 ≤ s.rd F.MEM_PLATE_CFG_D.T 2047 ∧
     s.rd F.MEM_PLATE_CFG_D.T 2047 ≤ 24 ∧ (s.wr F.MEM_RECODE.ACTIVE 1 1).is F.MEM_RECODE.ACTIVE 1 = true ∧ s.mem.code = []) ∧
    (let s := { memOn [] with mem := { (memOn []).mem with initWalk := [7], cells := [(256 * 7, 1)] } }
     s.mem.initWalk.contains 7 = true ∧ s.domOn (ctlDom 7) = true ∧ s.controllerOf 7 = 7 ∧
     (match exec (.initWalkDone 7) s with
      | .next t => t.memByte (256 * 7) == 0 && t.rd F.MEM_CTL_STATUS.INIT_DONE 7 == 1
      | _ => false) = true) ∧
    (let s := (((memOn []).wr F.MEM_WM.HBM_WM 0 2).wr F.MEM_WM.DDR_WM 0 2)
     let s := { s with mem := { s.mem with wmReq := some (1, 1), cells := [(2 ^ 30, 1), (2 ^ 42 + 2 ^ 31 - 1, 1)] } }
     match exec .wmWalkDone s with
     | .next t => t.mem.cells == [] && t.rd F.MEM_WM.HBM_WM == 1 && t.rd F.MEM_WM.DDR_WM == 1
     | _ => false) = true := by
  decide +kernel

/-- The hypotheses of `StencilPassesGuestRequests` are met on guest 1 with its last window over the first page: within its
tokens, without tokens, outside the window, and across a line; and by a waiting request. -/
theorem witness_StencilPassesGuestRequests :
    (let s := guestOn
     s.guestUp 1 = true ∧ s.stnPass 1 false 120 8 = true ∧ s.stnPass 1 true 120 8 = true ∧ s.stnPass 1 false 4096 8 = false ∧
     (s.guest 1).waiting = [] ∧ 8 ≤ s.stnTokens 1 ∧ (s.wr F.STN_RATE.BURST 1 0).stnTokens 1 = 0 ∧ s.fabricCheck false 120 = .none ∧
     s.beatRuns = true ∧ s.beatNow % 2 ^ s.rd F.STN_CFG.TICKDIV 1 = 0 ∧
     s.takesWrite .secure .STN_WIN 15 = true ∧ (s.wr F.STN_WIN.EN 15 0).is F.STN_WIN.EN 15 = false ∧
     s.winFits 0 0 = true ∧ s.winFits 1 0 = false) ∧
    (match exec (.gRd 1 65535 120 8 0) guestOn with
     | .next t => t.dir.flight.length == 1 && (t.guest 1).spent == 8
     | _ => false) = true ∧
    (let q := GuestReq.mk true 5 120 (List.replicate 8 0) 8
     let s := guestOn.setGuest 1 { guestOn.guest 1 with waiting := [q] }
     match exec (.stencilTokenGrant 1 0 3) s with
     | .next t => t.dir.flight.length == 1 && (t.guest 1).spent == 8 && t.rd F.STN_CNT0.THROTTLED 1 == 3
     | _ => false) = true := by
  decide +kernel

/-- The hypotheses of `GuestsSendTriggersAndFragments` are met on guest 1: trigger words for beat 1 and too far ahead, an event
that awaits its fragment, and an access of core 575 of each kind. -/
theorem witness_GuestsSendTriggersAndFragments :
    (let s := guestOn
     s.guestUp 1 = true ∧ s.is F.STN_CFG.OPEN 1 = true ∧ s.is F.STN_CFG.TRIG_EN 1 = true ∧ s.is F.STN_CFG.FRAG_EN 1 = true ∧
     (s.guest 1).lastTrig.any (fun l => 1 ≤ l) = false ∧ 1 ≤ s.beatNow + 4096 ∧ s.beforeLoad 1 = false ∧ s.beatNow + 4096 < 10000 ∧
     s.evbLive = true ∧ s.fragEvent 1 7 = none ∧ (s.guest 1).access = [] ∧
     (let e := { event7 .assembling with frags := [guestFrag1] }
      ({ s with evb := { s.evb with events := [(65535, e)] } }).fragEvent 1 7 = some (65535, e)) ∧
     ((s.setGuest 1 { s.guest 1 with access := [GuestAccess.mk 9 575 false false] }).guest 1).access =
       [GuestAccess.mk 9 575 false false]) := by
  decide +kernel

/-- The hypotheses of `PcieLinksAndResets` are met on port 1, with its link down and up, in D0 and D3hot. -/
theorem witness_PcieLinksAndResets :
    (let s := portUp 1
     s.pcieLive 1 = true ∧ (s.port 1).perst = false ∧ s.is F.HIF_PORT_STATUS.LINK_UP 1 = true ∧ s.is F.HIF_PORT_STATUS.FW_READY 1 = true ∧
     (s.port 1).flr = false ∧ (s.wr F.HIF_PORT_STATUS.DSTATE 1 3).rd F.HIF_PORT_STATUS.DSTATE 1 = 3 ∧
     (s.wr F.HIF_PORT_STATUS.LINK_UP 1 0).is F.HIF_PORT_STATUS.LINK_UP 1 = false) ∧
    (match exec (.flr 1) (portUp 1) with
     | .next t => (t.port 1).flr && t.rd F.HIF_PORT_CNT2.FLRS 1 == 1 && t.rd F.HIF_PORT_STATUS.EVT_RESET 1 == 1 && (t.port 1).cfg == []
     | _ => false) = true := by
  decide +kernel

/-- The hypotheses of `PcieConfigurationAndBar4` are met on ports 0 and 1, with BAR4 closed and open on the first page. -/
theorem witness_PcieConfigurationAndBar4 :
    (let s := portUp 0
     let b := s.wr F.HIF_PORT_CFG.BAR4_EN 0 1
     s.cfgOpen 0 = true ∧ (portUp 1).cfgOpen 1 = true ∧ s.hif.recPending = false ∧ 4 ≤ s.rd F.HIF_PORT_STATUS.SPEED 0 ∧
     s.pcieLive 0 = true ∧ s.is F.HIF_PORT_STATUS.LINK_UP 0 = true ∧ (s.port 0).flr = false ∧ s.barOpen 0 = true ∧
     8 + 8 ≤ barBytes (s.port 0).bar4 ∧ (s.wr F.HIF_PORT_CFG.BAR4_EN 0 0).is F.HIF_PORT_CFG.BAR4_EN 0 = false ∧ b.is F.HIF_PORT_CFG.BAR4_EN 0 = true ∧
     (b.devRead 0 false (b.bar4Addr 0 8) 8).1.why = .none ∧ (b.devRead 0 false (b.bar4Addr 0 8) 8).1.bad = [] ∧
     (b.devWrite 0 false (b.bar4Addr 0 8) (natLE 8 7) true).1 = .none) := by
  decide +kernel

/-- The hypotheses of `DmaAndTranslationsComplete` are met on port 1 with a read of ring 8191, a read of core 575, and a translation request. -/
theorem witness_DmaAndTranslationsComplete :
    (let s := portUp 1
     let d (o : Nat) : State := s.setPort 1 { s.port 1 with dma := [DmaRead.mk 7 o (2 ^ 44) 64 none false false] }
     let x := s.setPort 1 { s.port 1 with xlatReqs := [Xlat.mk 7 8191 (some 9) 5 0 true false] }
     s.pcieLive 1 = true ∧ s.is F.HIF_PORT_STATUS.LINK_UP 1 = true ∧ (s.port 1).dma = [] ∧ (s.port 1).cache = [] ∧
     ((d 8191).port 1).dma = [DmaRead.mk 7 8191 (2 ^ 44) 64 none false false] ∧
     ((d 8767).port 1).dma = [DmaRead.mk 7 8767 (2 ^ 44) 64 none false false] ∧
     (x.port 1).xlatReqs = [Xlat.mk 7 8191 (some 9) 5 0 true false] ∧ (s.port 1).flr = false ∧
     ((s.setPort 1 { s.port 1 with flr := true }).port 1).flr = true) := by
  decide +kernel

/-- The hypotheses of `MailboxAndSpdmAnswer` are met on port 1 at each stage, with slot 0. -/
theorem witness_MailboxAndSpdmAnswer :
    (let s := portUp 1
     let u := s.spdmStage 1 3
     s.doeOpen 1 = true ∧ (s.port 1).doe.stage < 3 ∧ u.doeOpen 1 = true ∧ 3 ≤ (u.port 1).doe.stage ∧ u.slotHeld 0 = true) := by
  decide +kernel

/-- A certificate chain holds at least its length and the reserved bytes, so offset 3 is within it. -/
theorem witness_MailboxAndSpdmAnswer_chain (s : State) (slot : Nat) : 3 < (s.certChain slot).length := by
  simp [State.certChain, natLE]

/-- The hypotheses of `RingsFetchRunAndComplete` are met on ring 8191: disabled with a valid and an invalid configuration, RUNNING with a published
descriptor and a due completion, HALTED, and with a NOP and a DMA_COPY in the host window. -/
theorem witness_RingsFetchRunAndComplete :
    (let s := ringOff
     let v := 1 + 4 * 8 + 4 * 256
     let t := ((((s.wr F.HIF_RING_CFG.PORT 8191 0).wr F.HIF_RING_CFG.SQ_LOG 8191 4).wr F.HIF_RING_CFG.CQ_LOG 8191 4).wr
       F.HIF_RING_CFG.DBI 8191 0).ringOwner 8191 0
     s.isManager .secure = true ∧ s.takesWrite .secure .HIF_RING_CFG 8191 = true ∧ s.is F.HIF_RING_CFG.EN 8191 = false ∧
     bits v 3 5 = 4 ∧ bits v 8 5 = 4 ∧ bits v 16 8 = 0 ∧ bits v 32 9 = 0 ∧ t.ringValid 8191 = true ∧
     ((((s.wr F.HIF_RING_CFG.PORT 8191 0).wr F.HIF_RING_CFG.SQ_LOG 8191 0).wr F.HIF_RING_CFG.CQ_LOG 8191 0).ringOwner 8191 0).ringValid
       8191 = false) ∧
    (let s := ringOn
     let h := s.ringGo 8191 rsHALTED
     let x := s.setRing 8191 { s.ring 8191 with cur := some (RingCmd.mk 0 (natLE 64 0) (some (0, 0, 0, 0)) none true), pend := 1 }
     s.is F.HIF_RING_CFG.EN 8191 = true ∧ s.ringState 8191 = rsRUNNING ∧ h.ringState 8191 = rsHALTED ∧ (s.ring 8191).held = none ∧
     (s.port (s.ringPort 8191)).internalErr = false ∧ s.ringLive = true ∧ s.held = false ∧
     s.rd F.HIF_RING_CFG.ROLE_EPOCH 8191 = 0 ∧ (s.rd F.HIF_RING_IDX.SQ_PI 8191 + 16 - 0) % 16 ≤ (5 + 16 - 0) % 16 ∧
     s.sqSize 8191 = 16 ∧ s.cqSize 8191 = 16 ∧ s.rd F.HIF_RING_IDX.SQ_CI 8191 = 0 ∧ s.rd F.HIF_RING_IDX.CQ_CI 8191 = 0 ∧
     s.rd F.HIF_RING_IDX.CQ_PI 8191 = 1 ∧ s.rd F.HIF_RING_IDX.SQ_PI 8191 = 1 ∧ (s.ring 8191).prefetch = [] ∧
     (s.cmdRead 8191 5 (s.sqBase 8191) 64).1 = .data (natLE 64 0) [] ∧ x.cqRoom 8191 = true ∧
     (x.cmdWrite 8191 5 (x.cqBase 8191 + 32) (cplBytes 0 0 (x.ring 8191).phase false 0 0 0 0)).1 = .done ∧
     ((x.cqAdvance 8191).inc F.HIF_RING_CNT1.COMPLETIONS).signalDue 8191 false false = false ∧
     (((x.wr F.HIF_RING_IRQ.IRQ_EN 8191 1).cqAdvance 8191).inc F.HIF_RING_CNT1.COMPLETIONS).signalDue 8191 true false = true ∧
     ((x.wr F.HIF_RING_IRQ.MOD_TIME 8191 1).rd F.HIF_RING_IRQ.MOD_TIME 8191) = 1) ∧
    (let s := cmdWait [] (natLE 64 0)
     let c := dataWait [] (natLE 8 0x42 ++ natLE 8 (2 ^ 44) ++ natLE 8 (2 ^ 44 + 4096) ++ natLE 40 8) [(2 ^ 44, natLE 8 7)]
     s.hasCmd 8191 0x00 = true ∧ c.hasCmd 8191 0x42 = true ∧ dget (c.desc 8191) 24 4 = 8 ∧ c.ringSlice 8191 = 0 ∧
     c.allowedPrefix (2 ^ 44) 8 = (8, .none) ∧ c.allowedPrefix (2 ^ 44 + 4096) 8 = (8, .none) ∧
     (c.cmdRead 8191 5 (2 ^ 44) 8).1 = .data (natLE 8 7) [] ∧ (c.cmdWrite 8191 5 (2 ^ 44 + 4096) (natLE 8 7)).1 = .done) := by
  decide +kernel

/-- The hypotheses of `SlicesAreMadeAndUnmade` are met by slice 255: its creation with the last route, its reset, destruction and
quota, both commands in transit, and a spoof log of one entry. -/
theorem witness_SlicesAreMadeAndUnmade :
    (let b := natLE 4 0x45434C53 ++ natLE 1 1 ++ natLE 1 0 ++ natLE 2 1 ++ natLE 24 0 ++ natLE 4 9 ++ natLE 4 15 ++ natLE 8 1
     let s := dataWait [92, 69] (natLE 8 0x01 ++ natLE 1 255 ++ natLE 1 1 ++ natLE 2 0 ++ natLE 4 7 ++ natLE 8 (2 ^ 44) ++ natLE 4 48 ++
       natLE 36 0) [(2 ^ 44, b)]
     let es := specEntries b
     s.hasCmd 8191 0x01 = true ∧ s.hif.admin = none ∧ s.held = false ∧ dget (s.desc 8191) 8 1 = 255 ∧ dget (s.desc 8191) 24 4 = 48 ∧
     (s.cmdRead 8191 5 (2 ^ 44) 48).1 = .data b [] ∧ s.pasidTaken 1 7 255 = false ∧ specGood b 48 = true ∧ disjoint es = true ∧
     es.all (s.entryAllowed 1) = true ∧ (es.filter (·.kind == 4)).length ≤ 16 ∧ s.sliceState 255 = slFREE ∧
     es.all s.entryIdle = true ∧ es.all (s.entryFree 1) = true) ∧
    [0x02, 0x03, 0x04].all (fun op =>
      let s := (cmdWait [] (natLE 8 op ++ natLE 1 255 ++ natLE 1 1 ++ natLE 2 0 ++ natLE 4 0 ++ natLE 8 16 ++ natLE 40 0)).wr
        F.HIF_SLICE_CFG.STATE 255 slACTIVE
      s.hasCmd 8191 op && s.hif.admin.isNone && !s.held && dget (s.desc 8191) 8 1 == 255 && dget (s.desc 8191) 10 2 == s.sliceEpoch 255 &&
        s.sliceState 255 == slACTIVE && dget (s.desc 8191) 9 1 == 1 && dget (s.desc 8191) 16 8 == 16) = true ∧
    (let s := cmdWait [] (natLE 8 4 ++ natLE 56 0)
     s.ringLive = true ∧ s.held = false ∧ s.mem.zeroing = [] ∧ s.takesRead .secure .HIF_SPOOF_LOG = true ∧ s.hif.spoofLog = [] ∧
     s.sliceEpoch 0 = 0) := by
  decide +kernel

/-- The hypotheses of `EventMessagesAndSources` are met by source 767 and core 575, with FIFO room and without, and by source 504. -/
theorem witness_EventMessagesAndSources :
    (let s := on [58, 59, 61, 65, 66]
     let i := { s with evc := { s.evc with interval := [767], held := [767] } }
     let f := s.setHart 575 { s.hart 575 with claimS := List.replicate 32 0 }
     i.evc.interval.contains 767 = true ∧ i.evc.held.contains 767 = true ∧ s.evc.held.contains 767 = false ∧ s.held = false ∧
     s.evc.waiting.find? s.deliverable = none ∧ s.hw.site (siteOf 575) = true ∧ s.fbit F.ALN_SUMMARY.FENCED 0 (siteOf 575) = false ∧
     s.rd F.PWR_DOM_STATUS.STATE (clusterDom (clusterOf 575)) = 0 ∧ (s.hart 575).claimM.length < 32 ∧ 32 ≤ (f.hart 575).claimS.length ∧
     s.takesWrite .secure .EVC_SRC_CFG 767 = true ∧ s.takesWrite .secure .EVC_SRC_CFG 504 = true ∧
     s.takesWrite (.normal 575) .EVC_SRC_CFG 767 = true ∧
     s.srcCfgIgnored .secure 767 2 = true ∧ s.srcCfgIgnored .secure 767 0 = false ∧ s.srcCfgIgnored .secure 504 8 = false) ∧
    (let s := (on [61, 65, 66]).wr F.EVC_SRC_CFG.WORLD 767 0
     let s := { s with evc := { s.evc with held := [767] } }
     s.srcCfgIgnored (.normal 575) 767 0 = false ∧ isSecure (.normal 575) = false ∧ s.evc.held.contains 767 = true) := by
  decide +kernel

/-- The hypotheses of `BootChainRuns` are met: root locked with boot not begun; the chain at kind 1 with empty slots and waiting for a push
of two bytes, with one and with none arrived; die 11 admitted and OFF; STAGE 3; an FW_WRITE of 256 zero bytes to slot 6; a WARM_RESET. -/
theorem witness_BootChainRuns :
    (let s := (on [61, 96, 97, 70, 71, 72, 73, 74, 75, 76, 77])
     let c := { s with boot := { s.boot with started := true, kind := 1 } }
     let p := { c with boot := { c.boot with waitPush := true, pushLen := 2 } }
     let q := { p with boot := { p.boot with push := [(0, 1)] } }
     let d := ((s.wr F.SEC_BOOT_STATUS.STAGE 0 4).wr F.PWR_DOM_STATUS.STATE 55 2)
     let d := ((d.wr F.PWR_DOM_STATUS.STATE 56 2).wr F.PWR_DOM_STATUS.STATE 57 2).wr F.PWR_DOM_STATUS.STATE 58 2
     let d := d.setAln 22 { AlnPort.init with admitted := true }
     let r := s.wr F.SEC_BOOT_STATUS.STAGE 0 3
     let w := dataWait [] (natLE 8 5 ++ natLE 8 6 ++ natLE 8 (2 ^ 44) ++ natLE 4 256 ++ natLE 36 0) [(2 ^ 44, natLE 256 0)]
     s.held = false ∧ s.boot.started = false ∧ (s.wr F.CKR_STATUS.ROOT_LOCK 0 1).is F.CKR_STATUS.ROOT_LOCK = true ∧
     c.chainRuns = true ∧ c.boot.waitPush = false ∧ p.chainRuns = true ∧ p.boot.waitPush = true ∧
     pushWhole [(0, 1)] 2 = false ∧ q.chainRuns = true ∧
     pushWhole (([(7, 0)].filter (fun (b : BitVec 8 × Nat) => 1 + b.2 < 2)).foldl (fun t b => Tbl.put t (1 + b.2) b.1) q.boot.push) 2 = true ∧
     d.calomRuns = true ∧ d.hw.site 11 = true ∧ d.dieAdmitted 11 = true ∧ d.fbit F.ALN_SUMMARY.FENCED 0 11 = false ∧
     [55, 56, 57, 58].all (fun k => d.rd F.PWR_DOM_STATUS.STATE k == 2 && !d.inTransition k) = true ∧
     r.rd F.SEC_BOOT_STATUS.STAGE = 3 ∧ r.domOn 96 = true ∧ r.domOn 97 = true ∧ r.boot.booted = [] ∧
     w.hasCmd 8191 0x05 = true ∧ w.hif.admin = none ∧ dget (w.desc 8191) 8 1 = 6 ∧
     (w.cmdRead 8191 5 (2 ^ 44) 256).1 = .data (natLE 256 0) [] ∧ imgLen (natLE 256 0) + 256 ≤ kindMax (slotKind 6) ∧
     w.imgCause 4 (natLE 256 0) = 1 ∧ kindMax (slotKind 6) < imgLen (natLE 256 (2 ^ 127 - 1)) + 256 ∧
     (cmdWait [] (natLE 8 0x0A ++ natLE 56 1)).hasCmd 8191 0x0A = true) := by
  decide +kernel

/-- The hypotheses of `ProfilesLedgerAndSensors` are met on ring 8191 by each command, with a good profile image of no records
and a bad one, at hours 1 and 1000, and by die 11 with a request. -/
theorem witness_ProfilesLedgerAndSensors :
    ([(6, 3), (6, 4), (8, 0), (9, 0)].all (fun x =>
      let s := cmdWait [61] (natLE 8 x.1 ++ natLE 56 x.2)
      s.hasCmd 8191 x.1 && s.hif.admin.isNone && !s.held && !s.is F.LGR_STATUS.PLANNING && dget (s.desc 8191) 24 4 == 0) = true) ∧
    (let s9 := (cmdWait [61] (natLE 64 9)).wr F.LGR_STATUS.PLANNING 0 1
     let w := dataWait [] (natLE 8 7 ++ natLE 8 3 ++ natLE 8 (2 ^ 44) ++ natLE 4 64 ++ natLE 36 0) [(2 ^ 44, natLE 64 0)]
     w.hasCmd 8191 7 = true ∧ (w.cmdRead 8191 5 (2 ^ 44) 64).1 = .data (natLE 64 0) [] ∧ profileGood 3 (natLE 64 0) = false ∧
     profileGood 3 (profileHead 3 0 0 7 (crc32 (profileHead 3 0 0 7 0))) = true ∧ (s9.is F.LGR_STATUS.PLANNING) = true) ∧
    (let s := ((on [61, 0]).wr F.SEC_BOOT_STATUS.STAGE 0 4)
     let r := { s with lgr := { s.lgr with request := Tbl.put s.lgr.request 11 700 } }
     s.calomRuns = true ∧ s.rd F.LGR_HOURS.POWERED_HOURS + 1 = 1 ∧ s.lgr.capped = [] ∧ s.hw.site 0 = true ∧ s.domOn 0 = true ∧
     (s.wr F.LGR_HOURS.POWERED_HOURS 0 999).rd F.LGR_HOURS.POWERED_HOURS + 1 = 1000 ∧ s.hw.site 11 = true ∧
     Tbl.find r.lgr.request 11 = some 700) := by
  decide +kernel

/-- A list of lists of one length, joined. -/
theorem witness_flatMap_length {A : Type} (l : List A) (f : A → List (BitVec 8)) (n : Nat) (h : ∀ a, (f a).length = n) :
    (l.flatMap f).length = l.length * n := by
  induction l with
  | nil => simp
  | cons a l ih => rw [List.flatMap_cons, List.length_append, h, ih, List.length_cons, Nat.succ_mul, Nat.add_comm]

/-- The signed record has the length that LEDGER_READ reports. -/
theorem witness_ledgerRecord_length (s : State) : s.ledgerRecord.length = 34400 := by
  have nat : ∀ n v, (natLE n v).length = n := by
    intro n
    induction n with
    | zero => intro v; rfl
    | succ n ih => intro v; simp [natLE, ih]
  have sat : ∀ n v, (satLE n v).length = n := by intro n v; exact nat _ _
  have row : ∀ t k a n, (countRow t k a n).length = n * 4 := by
    intro t k a n; exact (witness_flatMap_length (List.range n) _ 4 (fun _ => sat _ _)).trans (by simp)
  have fit : ∀ n l, (fitBytes n l).length = n := by intro n l; simp [fitBytes]
  have link : ∀ (a b c : Nat → Nat), ((List.range 14).flatMap (fun n => satLE 4 (a n) ++ satLE 2 (b n) ++ satLE 2 (c n))).length = 14 * 8 := by
    intro a b c; refine (witness_flatMap_length (List.range 14) _ 8 fun n => ?_).trans (by simp); simp [sat]
  have prf : ∀ (a : Nat → Nat), ((List.range 11).flatMap (fun n => satLE 8 (a n))).length = 11 * 8 := by
    intro a; exact (witness_flatMap_length (List.range 11) _ 8 (fun _ => sat _ _)).trans (by simp)
  simp only [State.ledgerRecord, LedgerImage.sections, ledgerSection, List.length_append, nat, row, fit, link, prf, sat]

/-- A write of that command's ring to the host window is posted. -/
theorem witness_ledgerWait_write (d : List (BitVec 8)) (b : inHost (2 ^ 44) d.length = true) :
    (ledgerWait.cmdWrite 8191 5 (2 ^ 44) d).1 = .done := by
  have c : ledgerWait.pasidOk (ledgerWait.ringPort 8191) (ledgerWait.ringSlice 8191) = true := by decide +kernel
  have e : ledgerWait.dmaReady (ledgerWait.ringPort 8191) = true := by decide +kernel
  have f : ledgerWait.atsOn (ledgerWait.ringPort 8191) = false := by decide +kernel
  rw [State.cmdWrite, b]
  simp only [if_true, c, e, Bool.not_true, Bool.false_eq_true, if_false, State.xlatRange, f, Bool.not_false]

/-- The hypotheses on LEDGER_READ are met: its record goes to the host window. -/
theorem witness_ProfilesLedgerAndSensors_ledger : ledgerWait.hasCmd 8191 8 = true ∧ dget (ledgerWait.desc 8191) 24 4 = 34400 ∧
    dget (ledgerWait.desc 8191) 16 8 = 2 ^ 44 ∧ (ledgerWait.cmdWrite 8191 5 (2 ^ 44) ledgerWait.ledgerRecord).1 = .done :=
  ⟨by decide +kernel, by decide +kernel, by decide +kernel,
   witness_ledgerWait_write _ (by rw [witness_ledgerRecord_length]; decide +kernel)⟩

/-- The hypotheses of `DebugEnablesAndAuthentication` are met with nothing in flight; with a nonce due; in STATE 1; and with a check by
slot 0 and by 255, whose verdict the statement takes as it comes, at 0, 6 and 7 failures. -/
theorem witness_DebugEnablesAndAuthentication :
    (let s := (on [60]).wr F.CKR_DOM.EN 74 1
     let n := { s with dbg := { s.dbg with nonceDue := true } }
     let g := s.wr F.DBG_AUTH_CTL.STATE 0 1
     let c := { s with dbg := { s.dbg with check := some (AuthCheck.mk [] 15 255 [] []) } }
     s.takesWrite .secure .DBG_EN = true ∧ s.takesWrite .tap .DBG_EN = true ∧ s.dbg.halted = [] ∧ s.dbg.acc = none ∧
     s.harts.filter (fun h => h.2.haltPending) = [] ∧ Src.tap ≠ Src.secure ∧ s.takesWrite .tap .DBG_AUTH_CTL = true ∧ s.authState = 0 ∧
     (s.wr F.DBG_AUTH_CTL.STATE 0 5).authState = 5 ∧ s.held = false ∧ s.clkOn 74 = true ∧ n.dbg.nonceDue = true ∧
     g.takesWrite .tap .DBG_AUTH_CTL = true ∧ g.authState = 1 ∧ (0xFFF2).testBit 1 = true ∧ (0xFFF2).testBit 0 = false ∧
     F.DBG_AUTH_CTL.KEY_SLOT.enc.ok (bits 0xFFF2 8 8) = true ∧ c.held = false ∧ c.clkOn 74 = true ∧ c.dbg.check.isSome = true ∧
     s.rd F.DBG_AUTH_CTL.FAILS = 0 ∧ (s.wr F.DBG_AUTH_CTL.FAILS 0 6).rd F.DBG_AUTH_CTL.FAILS = 6 ∧
     (s.wr F.DBG_AUTH_CTL.FAILS 0 7).rd F.DBG_AUTH_CTL.FAILS = 7) := by
  decide +kernel

/-- The hypotheses of `DebugHaltsAccessesAndTheTap` are met by core 575 running with SI and without, and halted; by an access with none
and one in progress, a denied one and a read of GLB_ID in flight; by a free test port, one whose chain is compute die 11, and DBGREG. -/
theorem witness_DebugHaltsAccessesAndTheTap :
    (let s := (running 575).wr F.DBG_EN.EFF 0 15
     let h := (running 575).wr F.CORE_STATUS.STATE 575 5
     let d := (on [60]).wr F.CKR_DOM.EN 74 1
     let b (st : Option Nat) := { d with dbg := { d.dbg with acc := some (DbgAcc.mk false false true 3 0x0F0000000000 0 st) } }
     let c := { d with dbg := { d.dbg with chain := [(11, 6)] } }
     let r := { d with dbg := { d.dbg with ir := Tbl.put d.dbg.ir 255 0x12 } }
     s.coreThere 575 = true ∧ s.rd F.CORE_STATUS.STATE 575 = 3 ∧ s.invasive (s.ns 575) = true ∧ (s.hart 575).proof = none ∧
     (s.hart 575).io.any (fun a => !a.write) = false ∧ (running 575).coreThere 575 = true ∧
     (running 575).invasive ((running 575).ns 575) = false ∧ h.coreThere 575 = true ∧ h.rd F.CORE_STATUS.STATE 575 = 5 ∧
     d.takesWrite .tap .DBG_ACC_CTL = true ∧ (1 : Nat).testBit 0 = true ∧ (b none).takesWrite .tap .DBG_ACC_CTL = true ∧
     (b none).dbg.acc.isSome = true ∧ d.dbg.acc = none ∧ d.invasive ((1 : Nat).testBit 2) = false ∧ (b (some 3)).held = false ∧
     (b (some 3)).clkOn 74 = true ∧ (b (some 3)).dbg.acc.isSome = true ∧ (b none).accDom 0x0F0000000000 = some 60 ∧
     d.domAbsent 60 = false ∧ d.rd F.PWR_DOM_STATUS.STATE 60 = 0 ∧
     d.dbg.honoured = false ∧ c.dbg.chain = [(11, 6)] ∧ c.held = false ∧ r.tapIr 255 = 0x12 ∧ (2 ^ 84).testBit 84 = true) := by
  decide +kernel

/-- The hypotheses of `ResetsClearAndKeep` are met: PWRGD 5; a device held by PORESET_N; one in thermal trip; one that runs, where a secure
core can write CKR_RESET_CTL; and a field that each reset clears. -/
theorem witness_ResetsClearAndKeep :
    5 < 6 ∧ State.reset.pins.thermtrip = false ∧ State.reset.pins.poreset = true ∧ 3 < 4 ∧
    (let t := { State.reset with pins := { State.reset.pins with thermtrip := true } }
     t.pins.thermtrip = true ∧ t.held = true) ∧ Src.tap ≠ Src.secure ∧
    (let s := (on [60]).wr F.LANE_CFG.RX_EN 191 1
     s.held = false ∧ s.takesWrite .secure .CKR_RESET_CTL = true ∧ keptWarm (F.LANE_CFG.RX_EN.at 191) (s.is F.MEM_DDR_CFG.SR_KEEP) = false ∧
     F.LANE_CFG.RX_EN.reg ∉ warmOwn ∧ s.rd F.LANE_CFG.RX_EN 191 ≠ State.reset.rd F.LANE_CFG.RX_EN 191) := by
  decide +kernel

/-- The hypotheses of `ClockSourcesFailOver` are met with a stable crystal and a locked root, at good, bad and drifting counts. -/
theorem witness_ClockSourcesFailOver :
    (let s := on [60]
     let u := (s.wr F.CKR_STATUS.XTAL_OK 0 1).wr F.CKR_STATUS.ROOT_LOCK 0 1
     let c := { u with ckr := { u.ckr with xtalBad := 1, rootBad := 1 } }
     s.held = false ∧ s.rd F.CKR_STATUS.FAIL_CAUSE = 0 ∧ s.is F.CKR_STATUS.XTAL_OK = false ∧ u.held = false ∧
     u.rd F.CKR_STATUS.FAIL_CAUSE = 0 ∧ u.is F.CKR_STATUS.XTAL_OK = true ∧ u.is F.CKR_STATUS.ROOT_LOCK = true ∧
     u.outOfTol 512 512 = false ∧ u.outOfTol 0 512 = true ∧ u.ckr.xtalBad = 0 ∧ c.outOfTol 0 512 = true ∧ c.ckr.xtalBad = 1 ∧
     c.outOfTol 0 1024 = true ∧ 1 ≤ c.ckr.rootBad ∧ c.rd F.CKR_STATUS.FAIL_CAUSE = 0 ∧ c.is F.CKR_STATUS.ROOT_LOCK = true ∧
     u.outOfTol 2079 2048 = false ∧ 2048 + 31 ≤ 2079 ∧ 2048 < 2018 + 31 ∧
     (s.wr F.CKR_STATUS.FAIL_CAUSE 0 3).is F.CKR_STATUS.FAIL_CAUSE = true) := by
  decide +kernel

/-- The hypotheses of `RatiosAndGatesAreSet` are met: cluster 0's domain at ratios 20 / 1 and 4095 / 1; the stipple clock idle, owned by the
secure world, and busy; the hub's fixed clock. -/
theorem witness_RatiosAndGatesAreSet :
    (let s := (on [60, 70, 93]).wr F.CKR_DOM.OWNER_S 70 0
     let n := bits (20 * 2 ^ 16 + 2 ^ 28) 16 12
     let x := bits (4095 * 2 ^ 16 + 2 ^ 28) 16 12
     let o := s.wr F.CKR_DOM.OWNER_S 70 1
     let b := { s with stp := { s.stp with running := [jobOf (some 15)] } }
     s.takesWrite .secure .CKR_DOM 0 = true ∧ n = 20 ∧ s.ratioOk 0 n 1 = true ∧ 0 < x ∧ s.ratioOk 0 x 1 = false ∧
     s.takesWrite .tap .CKR_DOM 70 = true ∧ Src.tap ≠ Src.secure ∧ clkGateable 62 = false ∧ s.takesWrite .secure .CKR_DOM 62 = true ∧
     clkGateable 70 = true ∧ 3 % 2 = 1 ∧ 2 % 2 = 0 ∧ s.is F.CKR_DOM.OWNER_S 70 = false ∧ isSecure .secure = true ∧
     (clkDomains 70).any (fun p => s.domBusy p false) = false ∧ b.takesWrite .tap .CKR_DOM 70 = true ∧
     b.is F.CKR_DOM.OWNER_S 70 = false ∧ (clkDomains 70).any (fun p => b.domBusy p false) = true ∧ isSecure .tap = false ∧
     o.is F.CKR_DOM.OWNER_S 70 = true ∧ o.takesWrite .tap .CKR_DOM 70 = true) := by
  decide +kernel

/-- The hypotheses of `PowerRequestsAndTransitions` are met by domain 93 in and out of a transition, in RET and OFF; by cluster domain 0 with a
running core, which refuses; by a held request; and by a queued and a running transition. -/
theorem witness_PowerRequestsAndTransitions :
    (let s := on [60, 93]
     let r := s.wr F.PWR_DOM_STATUS.STATE 93 1
     let o := s.wr F.PWR_DOM_STATUS.STATE 93 2
     let m := { s with pwr := { s.pwr with running := [PwrTrans.mk [93] 1 0] } }
     let q := { s with pwr := { s.pwr with queue := [PwrTrans.mk [93] 1 0] } }
     let h := { s with pwr := { s.pwr with req := Tbl.put s.pwr.req 93 (PwrReq.mk 1 true true 1) } }
     let b := { s with stp := { s.stp with running := [jobOf (some 15)] } }
     let u (x : State) (v : Nat) := ((x.wr F.PWR_DOM_CTL.HOLD 93 (bits v 2 1)).wr F.PWR_DOM_CTL.OWNER_S 93 (bits v 3 1)).wr F.PWR_DOM_CTL.LOCK_P 93 (bits v 4 1)
     s.takesWrite .secure .PWR_DOM_CTL 93 = true ∧ m.takesWrite .secure .PWR_DOM_CTL 93 = true ∧ 1 % 4 ≠ 3 ∧ m.inTransition 93 = true ∧
     s.inTransition 93 = false ∧ r.inTransition 93 = false ∧ r.takesWrite .secure .PWR_DOM_CTL 93 = true ∧ 0 % 4 = 0 ∧
     r.rd F.PWR_DOM_STATUS.STATE 93 ≠ 0 ∧ (u b 1).refuser 93 1 true = some (4, 0x3FF) ∧ b.inTransition 93 = false ∧
     b.takesWrite .secure .PWR_DOM_CTL 93 = true ∧ b.rd F.PWR_DOM_STATUS.STATE 93 ≠ 2 ∧ (1 : Nat).testBit 2 = false ∧
     (u b 2).refuser 93 2 true = some (4, 0x3FF) ∧ (u s 1).refuser 93 1 true = none ∧ (u s 2).refuser 93 2 true = none ∧
     s.rd F.PWR_DOM_STATUS.STATE 93 ≠ 1 ∧ s.rd F.PWR_DOM_STATUS.STATE 93 ≠ 2 ∧ Tbl.find h.pwr.req 93 = some (PwrReq.mk 1 true true 1) ∧
     h.inTransition 93 = false ∧ h.refuser 93 1 true = none ∧
     ({ h with stp := b.stp }).refuser 93 1 true = some (4, 0x3FF) ∧ s.held = false ∧
     s.pwr.queue.any (fun t => t.doms.contains 93 && t.target == 0) = false ∧ r.rd F.PWR_DOM_STATUS.STATE 93 = 1 ∧
     o.rd F.PWR_DOM_STATUS.STATE 93 = 2 ∧ s.rd F.PWR_DOM_STATUS.STATE 93 = 0 ∧ q.pwr.queue = [PwrTrans.mk [93] 1 0] ∧
     q.pwr.running = [] ∧ m.pwr.running = [PwrTrans.mk [93] 1 0] ∧ Tbl.find m.pwr.exits 93 = none ∧ Tbl.find m.pwr.req 93 = none) := by
  decide +kernel

/-- The register at offset 0x1000010. -/
theorem witness_burnRow : findReg 0x1000010 regTable =
    some ({ reg := .MEM_BURN_CFG, base := 0x1000010, dims := [], fields := [F.MEM_BURN_CFG.EN, F.MEM_BURN_CFG.INTERVAL] }, 0) := by
  decide +kernel

/-- The hypotheses of `RegisterWritesFollowFieldTypes` are met by a secure write of MEM_BURN_CFG, by an unassigned offset, by a register of a
block without power, by a 2-byte write, and at the last doorbell of each window. -/
theorem witness_RegisterWritesFollowFieldTypes :
    (∃ x i, findReg 0x1000010 regTable = some (x, i) ∧ (∀ (u : State) (m w : Nat), u.regAct .secure x i m w = none) ∧
      (on [60, 61]).takesWrite .secure x.reg i = true ∧ (on [60, 61]).absentCtl x.reg i = false ∧ x.reg ≠ .BEAT_RQ_SLACK ∧
      State.reset.regLive x.reg i = false) ∧
    (on [60, 61]).held = false ∧ inRingDb 0x1000010 = false ∧ inQueueDb 0x1000010 = false ∧ formOk 0x1000010 8 = true ∧
    findReg 0x3FFFFF8 regTable = none ∧ inRingDb 0x3FFFFF8 = false ∧ inQueueDb 0x3FFFFF8 = false ∧ formOk 0x1000010 2 = false ∧
    0x7CFFFC % 4 = 0 ∧ inRingDb 0x7CFFFC = true ∧ 0x7D0FFC % 4 = 0 ∧ inQueueDb 0x7D0FFC = true :=
  ⟨⟨_, _, witness_burnRow, fun _ _ _ => rfl, by decide +kernel⟩, by decide +kernel⟩

/-- The hypotheses of `WfiIsIllegalBelowMachineMode` are met by core 575 in U-mode and in S-mode with TW, with exception 2 delegated and not. -/
theorem witness_WfiIsIllegalBelowMachineMode :
    (let m (p : Nat) : State := (running 575).wr F.CORE_STATUS.PRIV 575 p
     let s := (m 1).setCsr 575 0x300 (2 ^ 21)
     let d := s.setCsr 575 0x302 4
     (m 0).coreFree 575 = true ∧ (m 0).priv 575 = 0 ∧ s.coreFree 575 = true ∧ s.priv 575 = 1 ∧ (s.csr 575 0x300).testBit 21 = true ∧
     s.delegated 575 2 = false ∧ s.ns 575 = false ∧ d.coreFree 575 = true ∧ d.priv 575 = 1 ∧ (d.csr 575 0x300).testBit 21 = true ∧
     d.delegated 575 2 = true) := by
  decide +kernel

/-- The hypotheses of `L2ControlIsSecureOnly` are met by the test port and by the offset of L2_CTL of cluster 47. -/
theorem witness_L2ControlIsSecureOnly :
    Src.tap ≠ Src.secure ∧ (findReg (0x2090000 + 11 * 0x200000 + 3 * 0x40000) regTable).map (fun r => (r.1.reg, r.2)) = some (Reg.L2_CTL, 47) := by
  decide +kernel

/-- The hypotheses of `IroDriftIsReported` are met at reset's tolerance by a count of 2,079 and one of 2,017. -/
theorem witness_IroDriftIsReported :
    (let s := on [60]
     s.held = false ∧ 2079 = 2048 + 31 ∧ 2017 + 31 = 2048 ∧ 15 * 2048 < 1000 * 31 ∧ 1024 * 31 ≤ s.rd F.CKR_MON_LIM.TOL * 2048) := by
  decide +kernel

/-- The hypotheses of `DebugAuthenticationAcrossResets` are met by the reset state and by a running device. -/
theorem witness_DebugAuthenticationAcrossResets :
    State.reset.pins.thermtrip = false ∧ (on [60]).held = false ∧ (on [60]).takesWrite .secure .CKR_RESET_CTL = true ∧
    (∃ t, exec .powerUp State.reset = .next t) ∧ ∃ t, exec .sysresetAssert (on [60]) = .next t :=
  ⟨by decide +kernel, by decide +kernel, by decide +kernel, ⟨_, rfl⟩, ⟨_, rfl⟩⟩

end Sys2Proof.Tests
end

section
/-!
SUPPORT. The state after reset.
-/

namespace Sys2Proof.Machine

/-- At reset no register field is listed, so each reads its reset value (R11). -/
theorem State.rd_reset (f : Field) (i : Nat) : State.reset.rd f i = f.resetAt i := rfl

/-- Every power domain but 60 is OFF at reset (R479, R489). -/
theorem State.domState_reset_of_ne {d : Nat} (h : d ≠ 60) : State.reset.rd F.PWR_DOM_STATUS.STATE d = 2 := by
  rw [State.rd_reset]
  exact if_neg h

/-- The clusters' power domains lie below the hub's (R479). -/
theorem clusterDom_ne_sixty {k : Nat} (h : k < 576) : clusterDom (clusterOf k) ≠ 60 := by
  unfold clusterDom clusterOf
  omega

/-- A core whose cluster is OFF is OFF (R212). -/
theorem State.coreState_of_off {s : State} {k : Nat} (h : s.rd F.PWR_DOM_STATUS.STATE (clusterDom (clusterOf k)) = 2) :
    s.coreState k = 0 := if_pos h

/-- Every slice but 0 is FREE at reset (R417). -/
theorem State.sliceState_reset_of_pos {n : Nat} (h : 0 < n) : State.reset.sliceState n = slFREE := by
  have hn : n ≠ 0 := by omega
  exact if_neg hn

/-- Settles O4: with nothing listed every register field reads its reset value, and the core states follow from the
clusters' domains. -/
theorem resetStateIsAsStated : Obligations.ResetStateIsAsStated := by
  refine ⟨rfl, rfl, rfl, rfl, rfl, fun d _ h => State.domState_reset_of_ne h,
    fun k h => State.coreState_of_off (State.domState_reset_of_ne (clusterDom_ne_sixty h)), fun _ _ => rfl, rfl,
    fun _ _ => rfl, fun _ _ => rfl, fun _ _ => rfl, fun n h _ => State.sliceState_reset_of_pos h, by decide, rfl, rfl⟩

end Sys2Proof.Machine
end

section
/-!
SUPPORT. What every command keeps: the commands' own `Keeps` lemmas put together.
-/

namespace Sys2Proof.Machine

/-- Every command ends in a next state and keeps the relation `Keeps` to the state it began in: one arm per command,
each the command's own lemma. -/
theorem exec_keeps (c : Instr) (s : State) : ∃ t, exec c s = .next t ∧ Keeps s t :=
  match c with
  | .registerWrite .. => Keeps.execRegisterWrite s ..
  | .baseLock .. => Keeps.execBaseLock s ..
  | .baseFallback .. => Keeps.execBaseFallback s ..
  | .baseAttemptTimeout .. => Keeps.execBaseAttemptTimeout s ..
  | .capabilityBlock .. => Keeps.execCapabilityBlock s ..
  | .identityCheck => Keeps.execIdentityCheck s
  | .laneTestDone .. => Keeps.execLaneTestDone s ..
  | .markerCheckDone .. => Keeps.execMarkerCheckDone s ..
  | .flitCrcError .. => Keeps.execFlitCrcError s ..
  | .alernLaneLockLoss .. => Keeps.execAlernLaneLockLoss s ..
  | .retrainRequest .. => Keeps.execRetrainRequest s ..
  | .retrainDone .. => Keeps.execRetrainDone s ..
  | .farSideBase .. => Keeps.execFarSideBase s ..
  | .dieReset .. => Keeps.execDieReset s ..
  | .alnPortEn .. => Keeps.execAlnPortEn s ..
  | .alnRestart .. => Keeps.execAlnRestart s ..
  | .widthRestore .. => Keeps.execWidthRestore s ..
  | .unfence .. => Keeps.execUnfence s ..
  | .alnCfgLock .. => Keeps.execAlnCfgLock s ..
  | .beatInputDisable .. => Keeps.execBeatInputDisable s ..
  | .inputSymbolLock .. => Keeps.execInputSymbolLock s ..
  | .codeErrorLimit .. => Keeps.execCodeErrorLimit s ..
  | .freqMonitorWindow .. => Keeps.execFreqMonitorWindow s ..
  | .inputLock .. => Keeps.execInputLock s ..
  | .phaseError .. => Keeps.execPhaseError s ..
  | .timeFrame .. => Keeps.execTimeFrame s ..
  | .loadFrame .. => Keeps.execLoadFrame s ..
  | .syncFrame .. => Keeps.execSyncFrame s ..
  | .calFrame .. => Keeps.execCalFrame s ..
  | .beatFrameInvalid .. => Keeps.execBeatFrameInvalid s ..
  | .syncExecute => Keeps.execSyncExecute s
  | .calExecute => Keeps.execCalExecute s
  | .holdoverExpire => Keeps.execHoldoverExpire s
  | .autoRevert => Keeps.execAutoRevert s
  | .forceSwitch .. => Keeps.execForceSwitch s ..
  | .swLoad .. => Keeps.execSwLoad s ..
  | .swLoadApply => Keeps.execSwLoadApply s
  | .adopt .. => Keeps.execAdopt s ..
  | .beatCountRead .. => Keeps.execBeatCountRead s ..
  | .hzbeatRead .. => Keeps.execHzbeatRead s ..
  | .hzbeatfRead .. => Keeps.execHzbeatfRead s ..
  | .releaseRead .. => Keeps.execReleaseRead s ..
  | .release => Keeps.execRelease s
  | .beatRqRun .. => Keeps.execBeatRqRun s ..
  | .beatRqSlackWrite .. => Keeps.execBeatRqSlackWrite s ..
  | .hlnGrpRateWrite .. => Keeps.execHlnGrpRateWrite s ..
  | .groupPllLock .. => Keeps.execGroupPllLock s ..
  | .laneRxEn .. => Keeps.execLaneRxEn s ..
  | .laneTxEn .. => Keeps.execLaneTxEn s ..
  | .laneCdrLock .. => Keeps.execLaneCdrLock s ..
  | .laneBlockLock .. => Keeps.execLaneBlockLock s ..
  | .laneBlockLockLoss .. => Keeps.execLaneBlockLockLoss s ..
  | .laneSignalLoss .. => Keeps.execLaneSignalLoss s ..
  | .laneResync .. => Keeps.execLaneResync s ..
  | .laneCntClr .. => Keeps.execLaneCntClr s ..
  | .strayControlBlock .. => Keeps.execStrayControlBlock s ..
  | .dataFrame .. => Keeps.execDataFrame s ..
  | .screplyFrame .. => Keeps.execScreplyFrame s ..
  | .tick .. => Keeps.execTick s ..
  | .acceptBlockSend .. => Keeps.execAcceptBlockSend s ..
  | .cmdBlockSend .. => Keeps.execCmdBlockSend s ..
  | .scGo .. => Keeps.execScGo s ..
  | .scSendDone .. => Keeps.execScSendDone s ..
  | .scRxfullClear .. => Keeps.execScRxfullClear s ..
  | .ctxClearDone => Keeps.execCtxClearDone s
  | .ctxLookup .. => Keeps.execCtxLookup s ..
  | .ctxLoad .. => Keeps.execCtxLoad s ..
  | .ctxStage .. => Keeps.execCtxStage s ..
  | .ctxFlip .. => Keeps.execCtxFlip s ..
  | .ctxStageFlip .. => Keeps.execCtxStageFlip s ..
  | .ctxCancel .. => Keeps.execCtxCancel s ..
  | .ctxRead .. => Keeps.execCtxRead s ..
  | .epochFlip .. => Keeps.execEpochFlip s ..
  | .mergeStart .. => Keeps.execMergeStart s ..
  | .mergeWrite .. => Keeps.execMergeWrite s ..
  | .sketchClose .. => Keeps.execSketchClose s ..
  | .packetDeliver .. => Keeps.execPacketDeliver s ..
  | .engineEval .. => Keeps.execEngineEval s ..
  | .guestDeadline .. => Keeps.execGuestDeadline s ..
  | .combinerJudge => Keeps.execCombinerJudge s
  | .trgMenuLoad .. => Keeps.execTrgMenuLoad s ..
  | .trgMenuRead .. => Keeps.execTrgMenuRead s ..
  | .unitSwap .. => Keeps.execUnitSwap s ..
  | .trgClearDone => Keeps.execTrgClearDone s
  | .trigDrvWrite .. => Keeps.execTrigDrvWrite s ..
  | .trigDrvApply => Keeps.execTrigDrvApply s
  | .trigPulseEnd => Keeps.execTrigPulseEnd s
  | .busyDrvWrite .. => Keeps.execBusyDrvWrite s ..
  | .busyHoldExpire => Keeps.execBusyHoldExpire s
  | .tioInputEdge .. => Keeps.execTioInputEdge s ..
  | .tioInEnWrite .. => Keeps.execTioInEnWrite s ..
  | .tioInEnApply .. => Keeps.execTioInEnApply s ..
  | .stuckDetect .. => Keeps.execStuckDetect s ..
  | .chatterWindow .. => Keeps.execChatterWindow s ..
  | .rearm .. => Keeps.execRearm s ..
  | .histRingEnable .. => Keeps.execHistRingEnable s ..
  | .historyWriteDone .. => Keeps.execHistoryWriteDone s ..
  | .contextAllocate => Keeps.execContextAllocate s
  | .assemblyTimeout .. => Keeps.execAssemblyTimeout s ..
  | .eventCopy => Keeps.execEventCopy s
  | .poolAllocate .. => Keeps.execPoolAllocate s ..
  | .eventCopyDone .. => Keeps.execEventCopyDone s ..
  | .eventPost .. => Keeps.execEventPost s ..
  | .evqDoorbell .. => Keeps.execEvqDoorbell s ..
  | .evqSubscribe .. => Keeps.execEvqSubscribe s ..
  | .evqUnsubscribe .. => Keeps.execEvqUnsubscribe s ..
  | .evqCfgWrite .. => Keeps.execEvqCfgWrite s ..
  | .poolEnable .. => Keeps.execPoolEnable s ..
  | .routeCfgWrite .. => Keeps.execRouteCfgWrite s ..
  | .bpAgeExpire .. => Keeps.execBpAgeExpire s ..
  | .evbClearDone => Keeps.execEvbClearDone s
  | .coreRun .. => Keeps.execCoreRun s ..
  | .coreInitDone .. => Keeps.execCoreInitDone s ..
  | .coreReset .. => Keeps.execCoreReset s ..
  | .wfi .. => Keeps.execWfi s ..
  | .wfiWake .. => Keeps.execWfiWake s ..
  | .trap .. => Keeps.execTrap s ..
  | .interruptTake .. => Keeps.execInterruptTake s ..
  | .mret .. => Keeps.execMret s ..
  | .sret .. => Keeps.execSret s ..
  | .csrWrite .. => Keeps.execCsrWrite s ..
  | .predictorFlush .. => Keeps.execPredictorFlush s ..
  | .timerCompare .. => Keeps.execTimerCompare s ..
  | .counterOverflow .. => Keeps.execCounterOverflow s ..
  | .coreClaimRead .. => Keeps.execCoreClaimRead s ..
  | .coreSsipSet .. => Keeps.execCoreSsipSet s ..
  | .load .. => Keeps.execLoad s ..
  | .store .. => Keeps.execStore s ..
  | .amo .. => Keeps.execAmo s ..
  | .lr .. => Keeps.execLr s ..
  | .sc .. => Keeps.execSc s ..
  | .fence .. => Keeps.execFence s ..
  | .fenceI .. => Keeps.execFenceI s ..
  | .lrReservationExpire .. => Keeps.execLrReservationExpire s ..
  | .mergeBufferDrain .. => Keeps.execMergeBufferDrain s ..
  | .rdShared .. => Keeps.execRdShared s ..
  | .rdUnique .. => Keeps.execRdUnique s ..
  | .upgrade .. => Keeps.execUpgrade s ..
  | .ioRd .. => Keeps.execIoRd s ..
  | .ioWr .. => Keeps.execIoWr s ..
  | .evnClean .. => Keeps.execEvnClean s ..
  | .evnDirty .. => Keeps.execEvnDirty s ..
  | .wrback .. => Keeps.execWrback s ..
  | .dirWaiterServe .. => Keeps.execDirWaiterServe s ..
  | .snpShare .. => Keeps.execSnpShare s ..
  | .snpUnique .. => Keeps.execSnpUnique s ..
  | .snpInv .. => Keeps.execSnpInv s ..
  | .snpIord .. => Keeps.execSnpIord s ..
  | .data .. => Keeps.execData s ..
  | .rsp .. => Keeps.execRsp s ..
  | .gnt .. => Keeps.execGnt s ..
  | .ackEvn .. => Keeps.execAckEvn s ..
  | .pin .. => Keeps.execPin s ..
  | .unpin .. => Keeps.execUnpin s ..
  | .fenceSweepDone .. => Keeps.execFenceSweepDone s ..
  | .l2EnWrite .. => Keeps.execL2EnWrite s ..
  | .l2Flush .. => Keeps.execL2Flush s ..
  | .l2FlushDone .. => Keeps.execL2FlushDone s ..
  | .l2Inv .. => Keeps.execL2Inv s ..
  | .l2InvDone .. => Keeps.execL2InvDone s ..
  | .l2InitDone .. => Keeps.execL2InitDone s ..
  | .dirClearDone .. => Keeps.execDirClearDone s ..
  | .dirProbe .. => Keeps.execDirProbe s ..
  | .dirProbeDone => Keeps.execDirProbeDone s
  | .prfBegin .. => Keeps.execPrfBegin s ..
  | .prfJoin .. => Keeps.execPrfJoin s ..
  | .prfSeal .. => Keeps.execPrfSeal s ..
  | .prfAbort .. => Keeps.execPrfAbort s ..
  | .prfGroup .. => Keeps.execPrfGroup s ..
  | .prfTest .. => Keeps.execPrfTest s ..
  | .proofAbortMessage .. => Keeps.execProofAbortMessage s ..
  | .sealMessage .. => Keeps.execSealMessage s ..
  | .groupCommit .. => Keeps.execGroupCommit s ..
  | .groupCommitAck .. => Keeps.execGroupCommitAck s ..
  | .groupAbortDone .. => Keeps.execGroupAbortDone s ..
  | .groupTimeout .. => Keeps.execGroupTimeout s ..
  | .snoopHoldTimeout .. => Keeps.execSnoopHoldTimeout s ..
  | .deferBudgetExpire .. => Keeps.execDeferBudgetExpire s ..
  | .prfClearDone => Keeps.execPrfClearDone s
  | .stpJob .. => Keeps.execStpJob s ..
  | .stpDispatch => Keeps.execStpDispatch s
  | .stpBlockDone .. => Keeps.execStpBlockDone s ..
  | .ethFrameSend .. => Keeps.execEthFrameSend s ..
  | .pfcFrame .. => Keeps.execPfcFrame s ..
  | .ethRxDiscard .. => Keeps.execEthRxDiscard s ..
  | .pauseTimeout .. => Keeps.execPauseTimeout s ..
  | .ethLinkChange .. => Keeps.execEthLinkChange s ..
  | .ethFlowSet .. => Keeps.execEthFlowSet s ..
  | .ethSend .. => Keeps.execEthSend s ..
  | .ethQCfgWrite .. => Keeps.execEthQCfgWrite s ..
  | .stpShareWrite .. => Keeps.execStpShareWrite s ..
  | .stpEthClearDone .. => Keeps.execStpEthClearDone s ..
  | .sheetRead .. => Keeps.execSheetRead s ..
  | .sheetWrite .. => Keeps.execSheetWrite s ..
  | .rawSheetDecode .. => Keeps.execRawSheetDecode s ..
  | .correctionWriteback .. => Keeps.execCorrectionWriteback s ..
  | .ueReport .. => Keeps.execUeReport s ..
  | .correctionTimeout .. => Keeps.execCorrectionTimeout s ..
  | .burnishRead .. => Keeps.execBurnishRead s ..
  | .memWmWrite .. => Keeps.execMemWmWrite s ..
  | .wmWalkDone => Keeps.execWmWalkDone s
  | .plateTWrite .. => Keeps.execPlateTWrite s ..
  | .recodeDone .. => Keeps.execRecodeDone s ..
  | .initWalkDone .. => Keeps.execInitWalkDone s ..
  | .gRd .. => Keeps.execGRd s ..
  | .gWr .. => Keeps.execGWr s ..
  | .stencilTokenGrant .. => Keeps.execStencilTokenGrant s ..
  | .gTrig .. => Keeps.execGTrig s ..
  | .gFrag .. => Keeps.execGFrag s ..
  | .gCpl .. => Keeps.execGCpl s ..
  | .guestAccessTimeout .. => Keeps.execGuestAccessTimeout s ..
  | .guestTick .. => Keeps.execGuestTick s ..
  | .stnWinEnable .. => Keeps.execStnWinEnable s ..
  | .pcieLinkUp .. => Keeps.execPcieLinkUp s ..
  | .pcieLinkDown .. => Keeps.execPcieLinkDown s ..
  | .perstAssert .. => Keeps.execPerstAssert s ..
  | .perstDeassert .. => Keeps.execPerstDeassert s ..
  | .hotReset .. => Keeps.execHotReset s ..
  | .flr .. => Keeps.execFlr s ..
  | .flrDone .. => Keeps.execFlrDone s ..
  | .powerStateChange .. => Keeps.execPowerStateChange s ..
  | .configWrite .. => Keeps.execConfigWrite s ..
  | .bar4Read .. => Keeps.execBar4Read s ..
  | .bar4Write .. => Keeps.execBar4Write s ..
  | .tlpError .. => Keeps.execTlpError s ..
  | .dvsecRecover .. => Keeps.execDvsecRecover s ..
  | .recoverTimeout => Keeps.execRecoverTimeout s
  | .dmaCompletion .. => Keeps.execDmaCompletion s ..
  | .dmaCompletionTimeout .. => Keeps.execDmaCompletionTimeout s ..
  | .atsInvalidation .. => Keeps.execAtsInvalidation s ..
  | .laneMargining .. => Keeps.execLaneMargining s ..
  | .doeDiscovery .. => Keeps.execDoeDiscovery s ..
  | .doeAbort .. => Keeps.execDoeAbort s ..
  | .getVersion .. => Keeps.execGetVersion s ..
  | .getCapabilities .. => Keeps.execGetCapabilities s ..
  | .negotiateAlgorithms .. => Keeps.execNegotiateAlgorithms s ..
  | .getDigests .. => Keeps.execGetDigests s ..
  | .getCertificate .. => Keeps.execGetCertificate s ..
  | .challenge .. => Keeps.execChallenge s ..
  | .getMeasurements .. => Keeps.execGetMeasurements s ..
  | .spdmUnsupportedRequest .. => Keeps.execSpdmUnsupportedRequest s ..
  | .ringEnable .. => Keeps.execRingEnable s ..
  | .ringResume .. => Keeps.execRingResume s ..
  | .sqDoorbell .. => Keeps.execSqDoorbell s ..
  | .cqDoorbell .. => Keeps.execCqDoorbell s ..
  | .descriptorFetch .. => Keeps.execDescriptorFetch s ..
  | .completionWrite .. => Keeps.execCompletionWrite s ..
  | .irqModTimeout .. => Keeps.execIrqModTimeout s ..
  | .hifEvqDbWrite .. => Keeps.execHifEvqDbWrite s ..
  | .nop .. => Keeps.execNop s ..
  | .dmaCopy .. => Keeps.execDmaCopy s ..
  | .evtDeliver .. => Keeps.execEvtDeliver s ..
  | .sliceCreate .. => Keeps.execSliceCreate s ..
  | .sliceDestroy .. => Keeps.execSliceDestroy s ..
  | .sliceDestroyDone => Keeps.execSliceDestroyDone s
  | .sliceQuota .. => Keeps.execSliceQuota s ..
  | .sliceReset .. => Keeps.execSliceReset s ..
  | .sliceResetDone => Keeps.execSliceResetDone s
  | .fwWrite .. => Keeps.execFwWrite s ..
  | .setProfile .. => Keeps.execSetProfile s ..
  | .profileWrite .. => Keeps.execProfileWrite s ..
  | .ledgerRead .. => Keeps.execLedgerRead s ..
  | .plan .. => Keeps.execPlan s ..
  | .warmReset .. => Keeps.execWarmReset s ..
  | .spoofLogRead .. => Keeps.execSpoofLogRead s ..
  | .bootRomStart => Keeps.execBootRomStart s
  | .stageImageVerify => Keeps.execStageImageVerify s
  | .pushTransfer .. => Keeps.execPushTransfer s ..
  | .computeDieRelease .. => Keeps.execComputeDieRelease s ..
  | .fwReady => Keeps.execFwReady s
  | .dbgAuthNew .. => Keeps.execDbgAuthNew s ..
  | .dbgAuthNonceReady .. => Keeps.execDbgAuthNonceReady s ..
  | .dbgAuthGo .. => Keeps.execDbgAuthGo s ..
  | .dbgAuthDone => Keeps.execDbgAuthDone s
  | .dbgAuthClr .. => Keeps.execDbgAuthClr s ..
  | .dbgFwEnWrite .. => Keeps.execDbgFwEnWrite s ..
  | .debugHalt .. => Keeps.execDebugHalt s ..
  | .debugResume .. => Keeps.execDebugResume s ..
  | .dbgAccGo .. => Keeps.execDbgAccGo s ..
  | .dbgAccDone => Keeps.execDbgAccDone s
  | .tapReset => Keeps.execTapReset s
  | .tapUpdateIr .. => Keeps.execTapUpdateIr s ..
  | .tapUpdateDr .. => Keeps.execTapUpdateDr s ..
  | .powerUp => Keeps.execPowerUp s
  | .poresetAssert => Keeps.execPoresetAssert s
  | .poresetRelease .. => Keeps.execPoresetRelease s ..
  | .pwrgdDeassert .. => Keeps.execPwrgdDeassert s ..
  | .sysresetAssert => Keeps.execSysresetAssert s
  | .ckrResetCtlWarm .. => Keeps.execCkrResetCtlWarm s ..
  | .thermtrip => Keeps.execThermtrip s
  | .xtalStable => Keeps.execXtalStable s
  | .xtalTimeout => Keeps.execXtalTimeout s
  | .rootPllLock => Keeps.execRootPllLock s
  | .xtalAmplitudeLoss => Keeps.execXtalAmplitudeLoss s
  | .rootPllUnlock => Keeps.execRootPllUnlock s
  | .clockMonitorWindow .. => Keeps.execClockMonitorWindow s ..
  | .ckrRatioWrite .. => Keeps.execCkrRatioWrite s ..
  | .ratioSwitchDone .. => Keeps.execRatioSwitchDone s ..
  | .ckrGateWrite .. => Keeps.execCkrGateWrite s ..
  | .pwrTargetWrite .. => Keeps.execPwrTargetWrite s ..
  | .pwrHoldRecheck .. => Keeps.execPwrHoldRecheck s ..
  | .pwrHoldAbort .. => Keeps.execPwrHoldAbort s ..
  | .domainWake .. => Keeps.execDomainWake s ..
  | .domainTransitionStart => Keeps.execDomainTransitionStart s
  | .domainTransitionDone .. => Keeps.execDomainTransitionDone s ..
  | .poweredHour .. => Keeps.execPoweredHour s ..
  | .thermalSample .. => Keeps.execThermalSample s ..
  | .supplyFence .. => Keeps.execSupplyFence s ..
  | .eventRateRelease .. => Keeps.execEventRateRelease s ..
  | .eventMessageDeliver => Keeps.execEventMessageDeliver s
  | .evcSrcCfgWrite .. => Keeps.execEvcSrcCfgWrite s ..
  | .translationCompletion .. => Keeps.execTranslationCompletion s ..
  | .participantAbort .. => Keeps.execParticipantAbort s ..
  | .badMsg .. => Keeps.execBadMsg s ..

/-- Settles O2: what `Keeps` says of the queue, the variant, the fuses and the certificate chain. -/
theorem everyCommandGoesOn : Obligations.EveryCommandGoesOn := by
  intro c s
  obtain ⟨t, ht, hk⟩ := exec_keeps c s
  have hf := hk.fuses
  exact ⟨t, ht, hk.pending, hk.hw, hf.valid, hf.revoked, hf.calom, hf.cfw, hf.auth, hf.dbgOff, hf.pushOff, hf.vendor,
    hf.serial, hf.die, hk.chain⟩

end Sys2Proof.Machine
end

section
/-!
SUPPORT. Writes in the register space: what a register of plain fields holds after a write of all its bytes, and which writes
reach no register (R8 to R12, R370, R392).
-/

namespace Sys2Proof.Machine

@[simp] theorem isSecure_eq_true {src : Src} : isSecure src = true ↔ src = .secure := by
  cases src <;> simp [isSecure]

/-! ## The register map's rows -/

/-- The fields of a row are not empty, lie in the register's 64 bits, and no two begin at the same bit. -/
def RegRow.sound (x : RegRow) : Bool :=
  x.fields.all (fun f => 0 < f.w && f.lo + f.w ≤ 64) && decide (x.fields.map Field.lo).Nodup

theorem regTable_sound : regTable.all RegRow.sound = true := by decide +kernel

theorem mem_of_findReg {a : Nat} {t : List RegRow} {x : RegRow} {i : Nat} (h : findReg a t = some (x, i)) : x ∈ t := by
  induction t with
  | nil => simp [findReg] at h
  | cons r t ih =>
    unfold findReg at h
    split at h
    · exact List.mem_cons_of_mem _ (ih h)
    · split at h
      · cases h; exact List.mem_cons_self
      · exact List.mem_cons_of_mem _ (ih h)

/-- The row that covers an offset is sound. -/
theorem sound_of_findReg {a : Nat} {x : RegRow} {i : Nat} (h : findReg a regTable = some (x, i)) :
    (∀ f ∈ x.fields, 0 < f.w ∧ f.lo + f.w ≤ 64) ∧ (x.fields.map Field.lo).Nodup := by
  have hx := List.all_eq_true.mp regTable_sound x (mem_of_findReg h)
  simpa [RegRow.sound] using hx

/-! ## Bits of a word written whole -/

theorem bits_lt (v lo w : Nat) : bits v lo w < 2 ^ w := Nat.mod_lt _ (Nat.two_pow_pos w)

theorem bits_mod_word (v : Nat) {lo w : Nat} (h : lo + w ≤ 64) : bits (v % 2 ^ 64) lo w = bits v lo w := by
  refine Nat.eq_of_testBit_eq fun k => ?_
  by_cases hk : k < w
  · have hlt : lo + k < 64 := by omega
    simp [bits, Nat.testBit_mod_two_pow, Nat.testBit_shiftRight, hk, hlt, -Nat.reducePow]
  · simp [bits, Nat.testBit_mod_two_pow, hk, -Nat.reducePow]

/-- An access of all eight bytes touches every field. -/
theorem Field.touched_word {f : Field} (hw : 0 < f.w) (h : f.lo + f.w ≤ 64) : f.touched (2 ^ 64 - 1) = true := by
  have hbit : (bits (2 ^ 64 - 1) f.lo f.w).testBit 0 = true := by
    have hlo : f.lo < 64 := by omega
    simp [bits, Nat.testBit_mod_two_pow, Nat.testBit_shiftRight, Nat.testBit_two_pow_sub_one, hw, hlo, -Nat.reducePow,
      -Nat.reduceSub, -Nat.testBit_zero]
  have hne : bits (2 ^ 64 - 1) f.lo f.w ≠ 0 := fun e => by rw [e, Nat.zero_testBit] at hbit; cases hbit
  simpa [Field.touched] using hne

/-- An 8-byte write replaces the whole word. -/
theorem State.mergeWord_word (s : State) (x : RegRow) (i v : Nat) : s.mergeWord x i 0 8 v = (2 ^ 64 - 1, v % 2 ^ 64) := by
  have hand : v &&& (2 ^ 64 - 1) = v % 2 ^ 64 := Nat.and_two_pow_sub_one_eq_mod v 64
  simp only [State.mergeWord, Nat.mul_zero, Nat.shiftLeft_zero, Nat.reduceMul, Nat.xor_self, Nat.and_zero, Nat.zero_or, hand]

/-! ## Updates of a register's fields, each of which writes its own field alone -/

theorem Frame.rd_of_lo {s t : State} {f g : Field} {i : Nat} (h : Frame false [] [g.at i] s t) (hlo : g.lo ≠ f.lo) :
    t.rd f i = s.rd f i :=
  h.regs f i rfl (by simp [Field.at, hlo.symm])

section
variable {g : State → Field → State} {i : Nat} (hg : ∀ s f, Frame false [] [f.at i] s (g s f))
include hg

theorem frame_foldl_fields (l : List Field) (s : State) : Frame false [] (l.map (fun f => f.at i)) s (l.foldl g s) :=
  (Frame.refl s).foldl l fun u f hf h =>
    h.trans ((hg u f).mono (List.Subset.refl _) (by simpa using ⟨f, hf, rfl⟩))

theorem rd_foldl_fields_of_not_mem {l : List Field} {f : Field} (hf : f.lo ∉ l.map Field.lo) (s : State) :
    (l.foldl g s).rd f i = s.rd f i := by
  refine (frame_foldl_fields hg l s).regs f i rfl fun hm => ?_
  obtain ⟨k, hk, e⟩ := List.mem_map.mp hm
  exact hf (List.mem_map.mpr ⟨k, hk, congrArg RegKey.lo e⟩)

/-- What a field reads after the updates of all fields is what its own update leaves, from a state in which it read what
it did at first. -/
theorem rd_foldl_fields_of_mem {l : List Field} {f : Field} (hn : (l.map Field.lo).Nodup) (hf : f ∈ l) (s : State) :
    ∃ u, u.rd f i = s.rd f i ∧ (l.foldl g s).rd f i = (g u f).rd f i := by
  induction l generalizing s with
  | nil => cases hf
  | cons a l ih =>
    rw [List.map_cons, List.nodup_cons] at hn
    obtain ⟨ha, hl⟩ := hn
    rcases List.mem_cons.mp hf with rfl | hf
    · exact ⟨s, rfl, rd_foldl_fields_of_not_mem hg ha _⟩
    · obtain ⟨u, hu, e⟩ := ih hl hf (g s a)
      have hlo : a.lo ≠ f.lo := fun h => ha (h ▸ List.mem_map_of_mem hf)
      exact ⟨u, hu.trans ((hg s a).rd_of_lo hlo), e⟩

end

/-! ## What a write does to one field (R9, R10) -/

/-- The part of `State.w1c` that concerns one field. -/
def State.clearOnes (i mask v : Nat) (s : State) (f : Field) : State :=
  if f.ty == .w1c && f.touched mask && bits v f.lo f.w != 0 then s.wr f i 0 else s

theorem State.w1c_eq_foldl (s : State) (x : RegRow) (i mask v : Nat) :
    s.w1c x i mask v = x.fields.foldl (State.clearOnes i mask v) s := rfl

theorem State.clearOnes_frame (i mask v : Nat) (s : State) (f : Field) :
    Frame false [] [f.at i] s (s.clearOnes i mask v f) :=
  ((Frame.refl s).wr 0 (List.mem_singleton.mpr rfl)).ite (Frame.refl s)

theorem State.rd_clearOnes (i mask v : Nat) (s : State) (f : Field) : (s.clearOnes i mask v f).rd f i =
    if f.ty == .w1c && f.touched mask && bits v f.lo f.w != 0 then 0 else s.rd f i := by
  unfold State.clearOnes
  split
  · rw [State.rd_wr_self, Nat.zero_mod]
  · rfl

/-- The part of `State.plainWrite` that concerns one field. -/
def State.takeData (secure : Bool) (i mask v : Nat) (s : State) (f : Field) : State :=
  if f.touched mask then s.fieldWrite secure f i v else s

theorem State.plainWrite_eq_foldl (s : State) (secure : Bool) (x : RegRow) (i mask v : Nat) :
    s.plainWrite secure x i mask v = x.fields.foldl (State.takeData secure i mask v) s := rfl

/-- Does a write of the world `secure` give the field its data? -/
def Field.takes (f : Field) (secure : Bool) : Bool := f.ty == .rw || f.ty == .srw && secure

/-- A W1C field takes no data. -/
theorem Field.ne_w1c_of_takes {f : Field} {secure : Bool} (h : f.takes secure = true) : f.ty ≠ .w1c := by
  intro hty
  simp [Field.takes, hty] at h

theorem State.fieldWrite_eq (s : State) (secure : Bool) (f : Field) (i v : Nat) : s.fieldWrite secure f i v =
    if f.takes secure then s.wr f i (s.legal f i (bits v f.lo f.w)) else s := by
  unfold State.fieldWrite Field.takes
  cases f.ty <;> simp

theorem State.takeData_frame (secure : Bool) (i mask v : Nat) (s : State) (f : Field) :
    Frame false [] [f.at i] s (s.takeData secure i mask v f) := by
  unfold State.takeData
  rw [State.fieldWrite_eq]
  exact (((Frame.refl s).wr _ (List.mem_singleton.mpr rfl)).ite (Frame.refl s)).ite (Frame.refl s)

theorem State.rd_takeData {f : Field} {mask : Nat} (ht : f.touched mask = true) (secure : Bool) (i v : Nat) (s : State) :
    (s.takeData secure i mask v f).rd f i =
      if f.takes secure then s.legal f i (bits v f.lo f.w) % 2 ^ f.w else s.rd f i := by
  rw [State.takeData, if_pos ht, State.fieldWrite_eq]
  split
  · exact State.rd_wr_self ..
  · rfl

/-! ## What a write of all eight bytes does to a register of plain fields -/

/-- A write that touches no field but read-only and W1C ones gives no field data. -/
theorem State.plainWrite_of_not_any {x : RegRow} {mask : Nat}
    (h : x.fields.any (fun f => f.touched mask && f.ty != .ro && f.ty != .w1c) = false)
    (s : State) (secure : Bool) (i v : Nat) : s.plainWrite secure x i mask v = s := by
  have hfix : ∀ u : State, ∀ f ∈ x.fields, u.takeData secure i mask v f = u := by
    intro u f hf
    have hno := List.any_eq_false.mp h f hf
    unfold State.takeData
    split
    next ht =>
      have htake : f.takes secure = false := by
        simp only [ht, Bool.true_and, Bool.and_eq_true, bne_iff_ne, not_and, not_not] at hno
        by_cases hro : f.ty = .ro
        · simp [Field.takes, hro]
        · simp [Field.takes, hno hro]
      rw [State.fieldWrite_eq, htake, if_neg Bool.false_ne_true]
    next => rfl
  rw [State.plainWrite_eq_foldl, List.foldl_ext _ (fun u _ => u) s hfix, List.foldl_fixed]

/-- A register without behaviour of its own: W1C bits written one clear, then its fields take the data. -/
theorem State.regPut_plain {s : State} {src : Src} {x : RegRow} {i : Nat} (habs : s.absentCtl x.reg i = false)
    (hslack : x.reg ≠ .BEAT_RQ_SLACK) (hact : ∀ (u : State) (m w : Nat), u.regAct src x i m w = none) (v : Nat) :
    s.regPut src x i 0 8 v = (s.w1c x i (2 ^ 64 - 1) (v % 2 ^ 64)).plainWrite (isSecure src) x i (2 ^ 64 - 1) (v % 2 ^ 64) := by
  unfold State.regPut
  rw [habs, if_neg Bool.false_ne_true, if_neg (by simpa using hslack), State.mergeWord_word]
  dsimp only
  split
  next hany => exact (State.plainWrite_of_not_any (by simpa using hany) ..).symm
  next => rw [hact]

/-- What a field that read `old` reads after a write of the word `v` by the world `secure`. -/
def Field.after (f : Field) (secure : Bool) (v old : Nat) : Nat :=
  if f.takes secure then (if f.enc.ok (bits v f.lo f.w) then bits v f.lo f.w else old) % 2 ^ f.w
  else if f.ty == .w1c && bits v f.lo f.w != 0 then 0 else old

theorem Field.after_of_data {f : Field} {secure : Bool} (h : f.takes secure = true) {v : Nat}
    (hok : f.enc.ok (bits v f.lo f.w) = true) (old : Nat) : f.after secure v old = bits v f.lo f.w := by
  rw [Field.after, if_pos h, if_pos hok, Nat.mod_eq_of_lt (bits_lt ..)]

/-- A reserved encoding leaves the field (R10). -/
theorem Field.after_of_reserved {f : Field} {secure : Bool} (h : f.takes secure = true) {v old : Nat}
    (hok : f.enc.ok (bits v f.lo f.w) = false) (hold : old < 2 ^ f.w) : f.after secure v old = old := by
  rw [Field.after, if_pos h, hok, if_neg Bool.false_ne_true, Nat.mod_eq_of_lt hold]

theorem Field.after_of_w1c {f : Field} (h : f.ty = .w1c) (secure : Bool) (v old : Nat) :
    f.after secure v old = if bits v f.lo f.w = 0 then old else 0 := by
  unfold Field.after Field.takes
  by_cases hb : bits v f.lo f.w = 0 <;> simp [h, hb]

theorem Field.after_of_not_takes {f : Field} {secure : Bool} (h : f.takes secure = false) (hty : f.ty ≠ .w1c) (v old : Nat) :
    f.after secure v old = old := by
  simp [Field.after, h, hty]

/-- Both passes of an 8-byte write, seen from one field of the register. -/
theorem State.rd_plain_write {x : RegRow} {f : Field} (hf : f ∈ x.fields) (hn : (x.fields.map Field.lo).Nodup)
    (hw : 0 < f.w) (h64 : f.lo + f.w ≤ 64) (s : State) (secure : Bool) (i v : Nat) :
    ((s.w1c x i (2 ^ 64 - 1) (v % 2 ^ 64)).plainWrite secure x i (2 ^ 64 - 1) (v % 2 ^ 64)).rd f i =
      f.after secure v (s.rd f i) := by
  have ht := Field.touched_word hw h64
  obtain ⟨u, hu, hclear⟩ := rd_foldl_fields_of_mem (State.clearOnes_frame i (2 ^ 64 - 1) (v % 2 ^ 64)) hn hf s
  obtain ⟨t, htu, hdata⟩ := rd_foldl_fields_of_mem (State.takeData_frame secure i (2 ^ 64 - 1) (v % 2 ^ 64)) hn hf
    (s.w1c x i (2 ^ 64 - 1) (v % 2 ^ 64))
  rw [← State.w1c_eq_foldl, State.rd_clearOnes, hu, ht, bits_mod_word v h64] at hclear
  rw [State.plainWrite_eq_foldl, hdata, State.rd_takeData ht, State.legal, htu, hclear, bits_mod_word v h64]
  unfold Field.after
  split
  next htk => simp [Field.ne_w1c_of_takes htk]
  next => simp

theorem State.frame_plain_write (s : State) (secure : Bool) (x : RegRow) (i mask v : Nat) :
    Frame false [] (x.fields.map (fun f => f.at i)) s ((s.w1c x i mask v).plainWrite secure x i mask v) :=
  (frame_foldl_fields (State.clearOnes_frame i mask v) x.fields s).trans
    (frame_foldl_fields (State.takeData_frame secure i mask v) x.fields _)

/-! ## Where a write in the register space goes (R12, R370, R392) -/

theorem exec_registerWrite (src : Src) (a size v : Nat) (s : State) :
    exec (.registerWrite src a size v) s = .next (if s.held then s else s.spaceWrite src a size v) := rfl

theorem formOk_word {a : Nat} (h : formOk a 8 = true) : a % 8 = 0 := by simpa [formOk] using h

/-- An aligned 8-byte write outside the doorbell windows reaches the register that covers its offset. -/
theorem exec_registerWrite_of_takes {s : State} {src : Src} {a i : Nat} {x : RegRow} (hheld : s.held = false)
    (hr : inRingDb a = false) (hq : inQueueDb a = false) (hform : formOk a 8 = true)
    (hfind : findReg a regTable = some (x, i)) (htake : s.takesWrite src x.reg i = true) (v : Nat) :
    exec (.registerWrite src a 8 v) s = .next (s.regPut src x i 0 8 v) := by
  simp only [exec_registerWrite, State.spaceWrite, State.regWrite, hheld, hr, hq, hform, hfind,
    State.withReg_of_takes htake, formOk_word hform]
  rfl

/-- From inside the device a write outside the doorbell windows is a register write or is dropped. -/
theorem exec_registerWrite_of_not_window {a : Nat} (hr : inRingDb a = false) (hq : inQueueDb a = false) (s : State)
    (src : Src) (size v : Nat) :
    exec (.registerWrite src a size v) s = .next (if s.held then s else s.regWrite src a size v) := by
  simp only [exec_registerWrite, State.spaceWrite, hr, hq]
  rfl

section
variable {s : State} {src : Src} (hsrc : ∀ p, src ≠ .host p) {a size v : Nat}
include hsrc

theorem State.regWrite_of_unassigned (h : findReg a regTable = none) : s.regWrite src a size v = s := by
  unfold State.regWrite
  cases src <;> simp_all

theorem State.regWrite_of_bad_form (h : formOk a size = false) : s.regWrite src a size v = s := by
  unfold State.regWrite
  cases src <;> simp_all

theorem State.withReg_of_not_live {r : Reg} {i : Nat} (h : s.regLive r i = false) (f : State → State) :
    s.withReg src r i f = s := by
  unfold State.withReg
  cases src <;> simp_all

theorem State.regWrite_of_not_live {x : RegRow} {i : Nat} (hfind : findReg a regTable = some (x, i))
    (h : s.regLive x.reg i = false) : s.regWrite src a size v = s := by
  by_cases hform : formOk a size = true
  · simp only [State.regWrite, hform, hfind, State.withReg_of_not_live hsrc h]
    rfl
  · exact State.regWrite_of_bad_form hsrc (by simpa using hform)

end

theorem not_inRingDb_of_inQueueDb {a : Nat} (h : inQueueDb a = true) : inRingDb a = false := by
  simp only [inQueueDb, inRingDb, Bool.and_eq_true, decide_eq_true_eq, Bool.and_eq_false_iff, decide_eq_false_iff_not] at *
  omega

/-- Settles O56: the two passes of a write seen field by field, and where a write goes by its offset. -/
theorem registerWritesFollowFieldTypes : Obligations.RegisterWritesFollowFieldTypes := by
  refine ⟨?plain, ?dropped, ?doorbell⟩
  case plain =>
    intro s src a v x i hheld hr hq hform hfind htake habs hslack hact
    obtain ⟨hsize, hn⟩ := sound_of_findReg hfind
    refine ⟨_, exec_registerWrite_of_takes hheld hr hq hform hfind htake v, ?_⟩
    rw [State.regPut_plain habs hslack hact]
    refine ⟨State.frame_plain_write .., fun f hf => ?_⟩
    obtain ⟨hw, h64⟩ := hsize f hf
    rw [State.rd_plain_write hf hn hw h64]
    have htakes : f.ty = .rw ∨ f.ty = .srw ∧ src = .secure → f.takes (isSecure src) = true := by
      rintro (h | ⟨h, rfl⟩) <;> simp [Field.takes, h, isSecure]
    have htakes_not : f.ty = .srw → src ≠ .secure → f.takes (isSecure src) = false := by
      intro h hsrc
      have hsec : isSecure src = false := Bool.eq_false_iff.mpr (mt isSecure_eq_true.mp hsrc)
      simp [Field.takes, h, hsec]
    exact ⟨fun h hok => Field.after_of_data (htakes h) hok _,
      fun h hok hold => Field.after_of_reserved (htakes h) hok hold,
      fun h => Field.after_of_w1c h ..,
      fun hrw hsrw hw1c => Field.after_of_not_takes (by simp [Field.takes, hrw, hsrw]) hw1c ..,
      fun h hsrc => Field.after_of_not_takes (htakes_not h hsrc) (by simp [h]) ..⟩
  case dropped =>
    intro s src a size v hsrc hr hq
    rw [exec_registerWrite_of_not_window hr hq]
    refine ⟨fun h => ?_, fun x i hfind h => ?_, fun h => ?_⟩
    · rw [State.regWrite_of_unassigned hsrc h, ite_self]
    · rw [State.regWrite_of_not_live hsrc hfind h, ite_self]
    · rw [State.regWrite_of_bad_form hsrc h, ite_self]
  case doorbell =>
    intro s src a v hheld ha
    refine ⟨fun hr => ?_, fun hq => ?_⟩
    · simp [exec_registerWrite, State.spaceWrite, hheld, hr, ha]
    · simp [exec_registerWrite, State.spaceWrite, hheld, hq, not_inRingDb_of_inQueueDb hq, ha]

end Sys2Proof.Machine
end

section
/-!
SUPPORT. The Alern port registers and the die reset (R9, R35 to R46).
-/

namespace Sys2Proof.Machine

/-! ## Alern port registers -/

theorem exec_alnPortEn (src : Src) (n v : Nat) (s : State) :
    exec (.alnPortEn src n v) s = .next (s.withReg src .ALN_PORT_CTL n (·.alnEn n v)) := rfl

theorem exec_alnRestart (src : Src) (n : Nat) (s : State) :
    exec (.alnRestart src n) s = .next (s.withReg src .ALN_PORT_CTL n (·.alnRestart n)) := rfl

theorem exec_widthRestore (src : Src) (n : Nat) (s : State) :
    exec (.widthRestore src n) s = .next (s.withReg src .ALN_PORT_CTL n (·.widthRestore n)) := rfl

theorem exec_unfence (src : Src) (n : Nat) (s : State) : exec (.unfence src n) s =
    .next (if isSecure src then s.withReg src .ALN_PORT_CTL n (·.unfence n) else s) := rfl

theorem exec_alnCfgLock (src : Src) (v : Nat) (s : State) :
    exec (.alnCfgLock src v) s = .next (s.withReg src .ALN_CFG 0 (·.alnCfg v)) := rfl

theorem exec_dieReset (n : Nat) (s : State) : exec (.dieReset n) s = .next (s.dieReset n) := rfl

theorem State.alnEn_of_even {v : Nat} (h : v % 2 = 0) (s : State) (n : Nat) :
    s.alnEn n v = (logicalPorts n).foldl
      (fun s lp => if s.aln? lp < stFENCED then s.alnGo lp stDISABLED else s) (s.wr F.ALN_PORT_CTL.EN n 0) := by
  simp only [State.alnEn, h, if_true]

theorem State.alnEn_of_odd {v : Nat} (h : v % 2 = 1) (s : State) (n : Nat) :
    s.alnEn n v = s.wr F.ALN_PORT_CTL.EN n 1 := by
  simp only [State.alnEn, h, Nat.one_ne_zero, if_false]

theorem State.unfence_of_fenced {s : State} {n : Nat} (h : s.fbit F.ALN_SUMMARY.FENCED 0 n = true) :
    s.unfence n = (logicalPorts n).foldl (fun s lp => (s.setAln lp { s.alnPort lp with fails := 0 }).alnBase lp)
      ((s.putBit F.ALN_SUMMARY.FENCED 0 n false).wr F.ALN_PORT_FENCE.CAUSE n 0) := if_pos h

/-- The trained-width records of a hub port are cleared; of the ports' other state their width limits alone change. -/
theorem State.widthRestore_frame (s : State) (n : Nat) :
    Frame false [.aln] [F.ALN_PORT_TRAINED.REC_P.at n, F.ALN_PORT_TRAINED.REC_Q.at n] s (s.widthRestore n) :=
  ((((Frame.refl s).wr 0 (by simp)).wr 0 (by simp)).foldl _ fun _ _ _ h => h.setAln _ _ (by simp))

theorem State.rd_widthRestore (s : State) (n : Nat) (f : Field) (j : Nat) : (s.widthRestore n).rd f j =
    ((s.wr F.ALN_PORT_TRAINED.REC_P n 0).wr F.ALN_PORT_TRAINED.REC_Q n 0).rd f j := rfl

/-! ## ALN_CFG and its lock (R9, R46) -/

/-- Locked, the fields do not take data. -/
theorem State.alnCfg_of_locked {s : State} (h : s.is F.ALN_CFG.LOCK = true) {v : Nat} (hv : v.testBit 31 = false) :
    s.alnCfg v = s := by
  simp [State.alnCfg, h, hv]

theorem bits_one (v lo : Nat) : bits v lo 1 % 2 = bits v lo 1 := Nat.mod_eq_of_lt (Nat.mod_lt _ (by decide))

theorem State.alnCfg_of_unlocked {s : State} (h : s.is F.ALN_CFG.LOCK = false) (v : Nat) :
    (s.alnCfg v).rd F.ALN_CFG.AUTO_TRAIN = bits v 0 1 ∧ (s.alnCfg v).rd F.ALN_CFG.REQ_SIG = bits v 1 1 ∧
    (s.alnCfg v).rd F.ALN_CFG.LOCK = (v.testBit 31).toNat ∧
    Frame false [] [F.ALN_CFG.AUTO_TRAIN.at, F.ALN_CFG.REQ_SIG.at, F.ALN_CFG.LOCK.at] s (s.alnCfg v) := by
  have hlock : s.rd F.ALN_CFG.LOCK = 0 := by simpa [State.is] using h
  have hframe : Frame false [] [F.ALN_CFG.AUTO_TRAIN.at, F.ALN_CFG.REQ_SIG.at, F.ALN_CFG.LOCK.at] s
      ((s.wr F.ALN_CFG.AUTO_TRAIN 0 (bits v 0 1)).wr F.ALN_CFG.REQ_SIG 0 (bits v 1 1)) :=
    ((Frame.refl s).wr _ (by simp)).wr _ (by simp)
  simp only [State.alnCfg, h, Bool.false_eq_true, if_false]
  cases v.testBit 31
  case false =>
    simp only [Bool.false_eq_true, if_false]
    refine ⟨?_, ?_, ?_, hframe⟩ <;> simp (disch := decide) [State.rd_wr_of_lo, bits_one, hlock]
  case true =>
    simp only [if_true]
    refine ⟨?_, ?_, ?_, hframe.wr _ (by simp)⟩ <;> simp (disch := decide) [State.rd_wr_of_lo, bits_one]

/-! ## A die reset -/

@[simp] theorem State.alnSummary_aln (s : State) (n : Nat) : (s.alnSummary n).aln = s.aln := rfl

@[simp] theorem State.alnGo_aln (s : State) (lp st : Nat) : (s.alnGo lp st).aln = s.aln := rfl

/-- A port that returns to BASE leaves the reports of die resets. -/
@[simp] theorem State.alnBase_aln_dieReset (s : State) (lp : Nat) : (s.alnBase lp).aln.dieReset = s.aln.dieReset := rfl

/-- Ports that are not DISABLED return to BASE (R36), and the reports of die resets stay. -/
theorem foldl_alnBase_aln_dieReset (l : List Nat) (s : State) :
    (l.foldl (fun s lp => if s.aln? lp == stDISABLED then s else s.alnBase lp) s).aln.dieReset = s.aln.dieReset := by
  induction l generalizing s with
  | nil => rfl
  | cons lp l ih =>
    rw [List.foldl_cons, ih]
    split <;> simp

theorem State.mem_dieReset {s : State} {n : Nat} (hc : isCompute n = true) (hs : s.hw.site n = true)
    (hd : s.domOn (uncoreDom n) = true) (hf : s.fbit F.ALN_SUMMARY.FENCED 0 n = false) :
    n ∈ (s.dieReset n).aln.dieReset := by
  unfold State.dieReset
  rw [hc, hs, hd, hf, if_pos (by decide), foldl_alnBase_aln_dieReset]
  exact List.mem_cons_self

/-- Settles O10: each command is its register's operation, taken once the write reaches the block. -/
theorem alernPortRegisters : Obligations.AlernPortRegisters := by
  refine ⟨fun s src n v h => ⟨fun hv => ?_, fun hv => ?_, ?_, ?_⟩, fun s n => ⟨?_, ?_, s.widthRestore_frame n⟩,
    fun s n h hf => ?_, fun s src n h => ?_, fun s src v h => ⟨fun hl hv => ?_, fun hl => ?_⟩,
    fun s n hc hs hd hf => ⟨_, exec_dieReset n s, State.mem_dieReset hc hs hd hf⟩⟩
  · rw [exec_alnPortEn, State.withReg_of_takes h, State.alnEn_of_even hv]
  · rw [exec_alnPortEn, State.withReg_of_takes h, State.alnEn_of_odd hv]
  · rw [exec_alnRestart, State.withReg_of_takes h, State.alnRestart]
  · rw [exec_widthRestore, State.withReg_of_takes h]
  · simp (disch := decide) [State.rd_widthRestore, State.rd_wr_of_lo]
  · simp [State.rd_widthRestore]
  · rw [exec_unfence, if_pos (isSecure_eq_true.mpr rfl), State.withReg_of_takes h, State.unfence_of_fenced hf]
  · rw [exec_unfence, if_neg (by simpa using h)]
  · rw [exec_alnCfgLock, State.withReg_of_takes h, State.alnCfg_of_locked hl hv]
  · exact ⟨_, by rw [exec_alnCfgLock, State.withReg_of_takes h], State.alnCfg_of_unlocked hl v⟩

end Sys2Proof.Machine
end

section
/-!
SUPPORT. Core states, WFI, timers and the claim FIFOs (R211 to R227).
-/

namespace Sys2Proof.Machine

/-! ## A core that may issue -/

/-- What `State.coreFree` asks of a core. -/
theorem State.coreFree_iff (s : State) (k : Nat) : s.coreFree k = true ↔
    s.mayIssue k = true ∧ (s.hart k).haltPending = false ∧ (s.hart k).proof = none ∧ (s.hart k).mb = [] := by
  simp [State.coreFree, State.inProof, and_assoc]

/-- A core that nothing holds back executes its instruction. -/
theorem State.issue_of_coreFree {s : State} {k : Nat} (h : s.coreFree k = true) (pc : Nat) (f : State → State) :
    s.issue k pc f = f (s.atInsn k pc) := by
  obtain ⟨hissue, hhalt, -, -⟩ := (State.coreFree_iff s k).mp h
  simp [State.issue, hissue, State.haltDue, hhalt, State.atInsn]

@[simp] theorem State.hart_atInsn (s : State) (k pc : Nat) : (s.atInsn k pc).hart k = { s.hart k with pc := pc } :=
  State.hart_setHart ..

@[simp] theorem State.priv_atInsn (s : State) (k pc c : Nat) : (s.atInsn k pc).priv c = s.priv c := rfl

/-- Outside a proof an action that would end one goes on. -/
theorem State.notInProof_of_coreFree {s : State} {k : Nat} (h : s.coreFree k = true) (pc : Nat) (f : State → State) :
    (s.atInsn k pc).notInProof k f = f (s.atInsn k pc) := by
  obtain ⟨-, -, hproof, -⟩ := (State.coreFree_iff s k).mp h
  simp [State.notInProof, State.inProof, hproof]

theorem State.hart_retire (s : State) (k next : Nat) : (s.retire k next).hart k =
    { s.hart k with pc := next, lastTrap := none, trapRepeats := 0 } := State.hart_setHart ..

/-- What the pending interrupts of a core are read from (R220). -/
theorem State.mip_congr {s t : State} {k : Nat} (hmsip : t.rd F.CORE_MSIP.MSIP k = s.rd F.CORE_MSIP.MSIP k)
    (hcsr : (t.hart k).csr = (s.hart k).csr) (hm : (t.hart k).claimM = (s.hart k).claimM)
    (hs : (t.hart k).claimS = (s.hart k).claimS) : t.mip k = s.mip k := by
  have his : t.is F.CORE_MSIP.MSIP k = s.is F.CORE_MSIP.MSIP k := congrArg (· != 0) hmsip
  simp only [State.mip, Hart.csrv, his, hcsr, hm, hs]

/-- Retiring an instruction leaves the pending interrupts. -/
theorem State.mip_retire_atInsn (s : State) (k pc next : Nat) : ((s.atInsn k pc).retire k next).mip k = s.mip k := by
  refine State.mip_congr ?_ ?_ ?_ ?_
  · exact State.rd_wr_of_reg _ _ (by decide)
  all_goals rw [State.hart_retire, State.hart_atInsn]

theorem exec_wfi (k pc : Nat) (s : State) :
    exec (.wfi k pc) s = .next (s.issue k pc (fun s => s.notInProof k (·.wfi k pc))) := rfl

/-- A WFI in M-mode retires, and the core waits where nothing is pending (R211). -/
theorem exec_wfi_of_machine_mode {s : State} {k : Nat} (h : s.coreFree k = true) (hp : s.priv k = 3) (pc : Nat) :
    exec (.wfi k pc) s = .next (if s.mip k = 0
      then ((s.atInsn k pc).retire k (pc + 4)).wr F.CORE_STATUS.STATE k 4 else (s.atInsn k pc).retire k (pc + 4)) := by
  rw [exec_wfi, State.issue_of_coreFree h, State.notInProof_of_coreFree h]
  simp [State.wfi, hp, State.mip_retire_atInsn]

/-! ## CSRs -/

theorem Hart.csrv_setCsr_of_ne (h : Hart) {n m : Nat} (v : Nat) (hne : n ≠ m) : (h.setCsr n v).csrv m = h.csrv m :=
  Tbl.get_set_of_ne _ _ _ _ hne

theorem State.csr_setCsr_of_ne (s : State) (k : Nat) {n m : Nat} (v : Nat) (hne : n ≠ m) :
    (s.setCsr k n v).csr k m = s.csr k m := by
  rw [State.csr, State.setCsr, State.hart_setHart, Hart.csrv_setCsr_of_ne _ _ hne, State.csr]

/-- A stored bit of mip changes no other CSR. -/
theorem State.csr_mipBit_of_ne (s : State) (k b : Nat) (v : Bool) {m : Nat} (hne : 0x344 ≠ m) :
    (s.mipBit k b v).csr k m = s.csr k m := State.csr_setCsr_of_ne _ _ _ hne

/-- Both timer bits follow the compare registers as they stand before the step (R220). -/
theorem State.timerBits_eq (s : State) (k : Nat) : s.timerBits k =
    (s.mipBit k 7 (s.rd F.CORE_MTIMECMP.CMP k ≤ s.rd F.CKR_TIME.TIME)).mipBit k 5
      ((s.csr k 0x30A).testBit 63 && s.csr k 0x14D ≤ s.rd F.CKR_TIME.TIME) := by
  unfold State.timerBits
  simp only [State.csr_mipBit_of_ne _ _ _ _ (show 0x344 ≠ 0x30A by decide),
    State.csr_mipBit_of_ne _ _ _ _ (show 0x344 ≠ 0x14D by decide)]

/-! ## Core states -/

theorem exec_coreRun (src : Src) (k : Nat) (s : State) : exec (.coreRun src k) s =
    .next (if isSecure src && k < 576 then s.withReg src .CORE_CTL k (·.coreRun k) else s) := rfl

theorem exec_coreReset (src : Src) (k : Nat) (s : State) : exec (.coreReset src k) s =
    .next (if isSecure src && k < 576 then s.withReg src .CORE_CTL k (·.coreHeld k) else s) := rfl

/-- What `State.coreThere` asks of a core. -/
theorem State.coreThere_iff (s : State) (k : Nat) : s.coreThere k = true ↔
    k < 576 ∧ s.held = false ∧ s.hw.site (siteOf k) = true ∧ s.clusterLive (clusterOf k) = true := by
  simp [State.coreThere, and_assoc]

theorem exec_coreInitDone_of_init {s : State} {k : Nat} (h : s.coreThere k = true) (hst : s.rd F.CORE_STATUS.STATE k = 2) :
    exec (.coreInitDone k) s = .next (s.coreInitDone k) := by
  obtain ⟨hk, hheld, hsite, hlive⟩ := (State.coreThere_iff s k).mp h
  exact congrArg _ (if_pos (by simp [hk, hheld, hsite, hlive, hst]))

theorem exec_wfiWake_of_pending {s : State} {k : Nat} (h : s.coreThere k = true) (hst : s.rd F.CORE_STATUS.STATE k = 4)
    (hm : s.mip k ≠ 0) : exec (.wfiWake k) s = .next (s.wr F.CORE_STATUS.STATE k 3) := by
  obtain ⟨hk, hheld, hsite, hlive⟩ := (State.coreThere_iff s k).mp h
  exact congrArg _ (if_pos (by simp [hk, hheld, hsite, hlive, hst, hm]))

theorem exec_timerCompare_of_there {s : State} {k : Nat} (h : s.coreThere k = true) :
    exec (.timerCompare k) s = .next (s.timerBits k) := congrArg _ (if_pos h)

theorem exec_counterOverflow_of_on {s : State} {k n : Nat} (h : s.coreThere k = true) (h3 : 3 ≤ n) (h32 : n < 32)
    (hon : s.perfOn k n = true) : exec (.counterOverflow k n) s = .next ((s.setCsr k (0xB00 + n) 0).perfWrap k n) :=
  congrArg _ (if_pos (by simp [h, h3, h32, hon]))

/-! ## Claim FIFOs (R222) -/

/-- The register of a core's claim FIFO, `m` for the secure one. -/
def claimReg (m : Bool) : Reg := if m then .CORE_CLAIM_M else .CORE_CLAIM_S

theorem exec_coreClaimRead_of_takes {s : State} {src : Src} {k : Nat} {m : Bool} (hk : k < 576)
    (h : s.takesRead src (claimReg m) k = true) :
    exec (.coreClaimRead src k m) s = .next (({ s with rdata := 0 } : State).claimRead src k m) := by
  have htake : ({ s with rdata := 0 } : State).takesRead src (claimReg m) k = true := h
  refine congrArg _ ((if_pos hk).trans ?_)
  exact State.withRead_of_takes htake

theorem State.claimRead_secure {s : State} {k x : Nat} {l : List Nat} (h : (s.hart k).claimM = x :: l) :
    ({ s with rdata := 0 } : State).claimRead .secure k true =
      { s.setHart k { s.hart k with claimM := l } with rdata := x + 2 ^ 15 } := by
  simp only [State.claimRead, isSecure, State.hart_with_rdata, h]
  rfl

theorem State.claimRead_normal (s : State) (c k : Nat) :
    ({ s with rdata := 0 } : State).claimRead (.normal c) k true = { s with rdata := 0 } := rfl

theorem State.claimRead_supervisor {s : State} {k x : Nat} {l : List Nat} (h : (s.hart k).claimS = x :: l) (src : Src) :
    ({ s with rdata := 0 } : State).claimRead src k false =
      { s.setHart k { s.hart k with claimS := l } with rdata := x + 2 ^ 15 } := by
  simp only [State.claimRead, State.hart_with_rdata, h]
  rfl

theorem State.claimRead_supervisor_of_empty {s : State} {k : Nat} (h : (s.hart k).claimS = []) (src : Src) :
    ({ s with rdata := 0 } : State).claimRead src k false = { s with rdata := 0 } := by
  simp [State.claimRead, h]

theorem exec_coreSsipSet (src : Src) (k v : Nat) (s : State) : exec (.coreSsipSet src k v) s =
    .next (if k < 576 && v % 2 = 1 then s.withReg src .CORE_SSIP_SET k (·.mipBit k 1 true) else s) := rfl

/-- Settles O26: each command's guard is met, and what its operation leaves is read off. -/
theorem coresStartStopAndWake : Obligations.CoresStartStopAndWake := by
  refine ⟨?control, ?init, ?wait, ?there, ?claim, ?ssip⟩
  case control =>
    intro s k hk h
    have hsec : (isSecure .secure && decide (k < 576)) = true := by simp [isSecure, hk]
    refine ⟨fun hst => ?_, ?_⟩
    · rw [exec_coreRun, if_pos hsec, State.withReg_of_takes h, State.coreRun, if_pos hst]
    · rw [exec_coreReset, if_pos hsec, State.withReg_of_takes h]
  case init =>
    intro s k h hst
    rw [exec_coreInitDone_of_init h hst]
    rfl
  case wait =>
    intro s k pc h hp
    rw [exec_wfi_of_machine_mode h hp]
    exact ⟨fun hm => by rw [if_neg hm], fun hm => by rw [if_pos hm]⟩
  case there =>
    intro s k h
    exact ⟨exec_wfiWake_of_pending h, by rw [exec_timerCompare_of_there h, State.timerBits_eq],
      fun n => exec_counterOverflow_of_on h⟩
  case claim =>
    intro s k hk
    refine ⟨fun x l h hx => ?_, fun x l src h hx => ?_, fun src h hx => ?_, fun c h => ?_⟩
    · rw [exec_coreClaimRead_of_takes (m := true) hk h, State.claimRead_secure hx]
    · rw [exec_coreClaimRead_of_takes (m := false) hk h, State.claimRead_supervisor hx]
    · rw [exec_coreClaimRead_of_takes (m := false) hk h, State.claimRead_supervisor_of_empty hx]
    · rw [exec_coreClaimRead_of_takes (m := true) hk h, State.claimRead_normal]
  case ssip =>
    intro s src k v hk hv h
    rw [exec_coreSsipSet, if_pos (by simp [hk, hv]), State.withReg_of_takes h]
    rfl

end Sys2Proof.Machine
end

section
/-!
SUPPORT. The Alern identity checker (R30 to R32, R40, R43, R450), and native training, service and retraining
(R33, R34, R37, R42).
-/

namespace Sys2Proof.Machine

/-! ## The identity checker (R30, R43) -/

theorem exec_identityCheck (s : State) : exec .identityCheck s = .next s.identityCheck := rfl

theorem State.identityCheck_of_not_loaded {s : State} (h : s.aln.reqSigLoaded = false) : s.identityCheck = s := by
  simp only [State.identityCheck, h, Bool.not_false, if_true]

@[simp] theorem State.aln?_with_aln (s : State) (z : AlnState) (lp : Nat) : State.aln? { s with aln := z } lp = s.aln? lp :=
  rfl

/-- The port served is looked up after the pointer has moved, which no port's state reads. -/
theorem State.identityCheck_of_grant {s : State} {n lp : Nat} (hload : s.aln.reqSigLoaded = true)
    (hgrant : rotGrant 14 s.aln.checkPtr
      (fun n => ((logicalPorts n).find? (fun lp => s.aln? lp == stCHECK && s.alnLive lp)).isSome) = some n)
    (hport : (logicalPorts n).find? (fun lp => s.aln? lp == stCHECK) = some lp) :
    s.identityCheck = ({ s with aln := { s.aln with checkPtr := rotNext 14 n } } : State).identity lp := by
  simp only [State.identityCheck, hload, Bool.not_true, Bool.false_eq_true, if_false, hgrant, State.aln?_with_aln, hport]

/-! ## What the checks of one block lead to (R30 to R32, R450) -/

section
variable {s : State} {lp c : Nat}

theorem State.identity_of_bad_block (h : checkBlock (lp / 2) (s.alnPort lp).cap = some c) :
    s.identity lp = s.fence (lp / 2) c := by
  simp only [State.identity, h]

variable (hblock : checkBlock (lp / 2) (s.alnPort lp).cap = none)
include hblock

theorem State.identity_of_bad_signature
    (h : (s.setPkgGen (lp / 2) (byteAt (s.alnPort lp).cap 2)).checkRest lp = some 7) :
    s.identity lp =
      ((s.setPkgGen (lp / 2) (byteAt (s.alnPort lp).cap 2)).raise F.SEC_STATUS.EVT_DIE_AUTH).fence (lp / 2) 7 := by
  simp only [State.identity, hblock, h]

theorem State.identity_of_bad_rest
    (h : (s.setPkgGen (lp / 2) (byteAt (s.alnPort lp).cap 2)).checkRest lp = some c) (hc : c ≠ 7) :
    s.identity lp = (s.setPkgGen (lp / 2) (byteAt (s.alnPort lp).cap 2)).fence (lp / 2) c := by
  simp only [State.identity, hblock, h]

theorem State.identity_of_good
    (h : (s.setPkgGen (lp / 2) (byteAt (s.alnPort lp).cap 2)).checkRest lp = none) :
    s.identity lp = (s.setPkgGen (lp / 2) (byteAt (s.alnPort lp).cap 2)).admitDie lp := by
  simp only [State.identity, hblock, h]

end

/-- Settles O8: the checker takes the port that is granted, and each outcome of its checks is one case of `identity`. -/
theorem alernIdentityChecksFenceOrAdmit : Obligations.AlernIdentityChecksFenceOrAdmit := by
  refine ⟨fun s n lp hload hgrant hport => ?_, fun s hload => ?_, fun s lp c h => State.identity_of_bad_block h,
    fun s lp hblock u hu => ?_⟩
  · rw [exec_identityCheck, State.identityCheck_of_grant hload hgrant hport]
  · rw [exec_identityCheck, State.identityCheck_of_not_loaded hload]
  · subst hu
    exact ⟨State.identity_of_bad_signature hblock, fun c => State.identity_of_bad_rest hblock,
      State.identity_of_good hblock⟩

/-! ## Commands of training and service -/

theorem exec_laneTestDone (lp : Nat) (rx tx : List Nat) (s : State) :
    exec (.laneTestDone lp rx tx) s = .next (s.laneTest lp rx tx) := rfl

theorem exec_markerCheckDone (lp : Nat) (ok : Bool) (s : State) :
    exec (.markerCheckDone lp ok) s = .next (s.markerCheck lp ok) := rfl

theorem exec_retrainRequest (lp : Nat) (s : State) : exec (.retrainRequest lp) s = .next (s.alnRetrain lp) := rfl

theorem exec_alernLaneLockLoss (lp lane : Nat) (s : State) :
    exec (.alernLaneLockLoss lp lane) s = .next (if s.laneActive lp lane then s.alnRetrain lp else s) := rfl

theorem exec_flitCrcError (lp : Nat) (newWindow : Bool) (s : State) :
    exec (.flitCrcError lp newWindow) s = .next (s.flitError lp newWindow) := rfl

theorem exec_farSideBase (lp : Nat) (s : State) : exec (.farSideBase lp) s = .next (s.farSideBase lp) := rfl

theorem exec_retrainDone (lp : Nat) (rx tx : List Nat) (markers : Bool) (s : State) :
    exec (.retrainDone lp rx tx markers) s = .next (s.retrainDone lp rx tx markers) := rfl

/-! ## What they do to a live port in the state they act on (R33, R34, R37, R42) -/

theorem State.rd_inc_of_reg (s : State) {f g : Field} {i j n : Nat} (h : f.reg ≠ g.reg) :
    (s.inc f i n).rd g j = s.rd g j := s.rd_wr_of_reg _ h

theorem State.laneActive_of_lt_width {s : State} {lp lane : Nat} (h : lane < (s.alnPort lp).width) :
    s.laneActive lp lane = true := by
  simp only [State.laneActive, h, decide_true, Bool.true_or]

section
variable {s : State} {lp : Nat} (hlive : s.alnLive lp = true)
include hlive

theorem State.laneTest_of_native (h : s.aln? lp = stNATIVE) (rx tx : List Nat) : s.laneTest lp rx tx =
    if repairable (lp / 2) (s.alnPort lp).width rx && repairable (lp / 2) (s.alnPort lp).width tx then
      (s.repair lp rx tx).alnGo lp stMARKER
    else s.alnFail lp true := if_pos (by rw [hlive, h]; rfl)

theorem State.markerCheck_of_marker (h : s.aln? lp = stMARKER) (ok : Bool) :
    s.markerCheck lp ok = if ok then s.alnUp lp else s.alnFail lp true := if_pos (by rw [hlive, h]; rfl)

theorem State.alnRetrain_of_up (h : s.aln? lp = stUP) :
    s.alnRetrain lp = (s.setAln lp { s.alnPort lp with replays := 0 }).alnGo lp stRETRAIN :=
  if_pos (by rw [hlive, h]; rfl)

/-- With a REPLAY_LIMIT of 0 a flit error is counted, and none starts a retrain. -/
theorem State.flitError_of_no_limit (h : s.aln? lp = stUP) (hlim : s.rd F.ALN_PORT_CTL.REPLAY_LIMIT (lp / 2) = 0) :
    s.flitError lp false = (s.inc F.ALN_PORT_CNT.REPLAYS (lp / 2)).setAln lp
      { s.alnPort lp with replays := (s.alnPort lp).replays + 1 } := by
  have hrd : ((s.inc F.ALN_PORT_CNT.REPLAYS (lp / 2)).setAln lp
      { s.alnPort lp with replays := (s.alnPort lp).replays + 1 }).rd F.ALN_PORT_CTL.REPLAY_LIMIT (lp / 2) = 0 := by
    rw [State.rd_setAln, State.rd_inc_of_reg s (by decide), hlim]
  refine (if_pos (by rw [hlive, h]; rfl)).trans (if_neg ?_)
  simp [hrd]

theorem State.farSideBase_of_native_to_retrain (h4 : stNATIVE ≤ s.aln? lp) (h7 : s.aln? lp ≤ stRETRAIN) :
    s.farSideBase lp = s.alnBase lp := if_pos (by simp [hlive, h4, h7])

theorem State.retrainDone_of_retrain (h : s.aln? lp = stRETRAIN) (rx tx : List Nat) (markers : Bool) :
    s.retrainDone lp rx tx markers =
      if repairable (lp / 2) (s.alnPort lp).width rx && repairable (lp / 2) (s.alnPort lp).width tx && markers then
        ((((s.repair lp rx tx).alnUp lp).inc F.ALN_PORT_CNT.RETRAINS (lp / 2)).ledger secLink
          (idxRetrain (lp / 2))).raise F.ALN_PORT_STATUS.EVT_RETRAIN (lp / 2)
      else s.alnFail lp true := if_pos (by rw [hlive, h]; rfl)

end

/-- Settles O9: each command acts on a live port in its state, and its own condition picks the next one. -/
theorem alernTrainingAndService : Obligations.AlernTrainingAndService := by
  refine ⟨?native, ?marker, ?up, ?retrain⟩
  case native =>
    intro s lp rx tx hlive h
    rw [exec_laneTestDone, State.laneTest_of_native hlive h]
    exact ⟨fun hrx htx => by rw [hrx, htx]; rfl, fun hrx => by rw [hrx]; rfl⟩
  case marker =>
    intro s lp hlive h
    simp only [exec_markerCheckDone, State.markerCheck_of_marker hlive h]
    exact ⟨rfl, rfl⟩
  case up =>
    intro s lp hlive h
    refine ⟨?_, fun lane hlane => ?_, fun hlim => ?_, ?_⟩
    · rw [exec_retrainRequest, State.alnRetrain_of_up hlive h]
    · rw [exec_alernLaneLockLoss, if_pos (State.laneActive_of_lt_width hlane), State.alnRetrain_of_up hlive h]
    · rw [exec_flitCrcError, State.flitError_of_no_limit hlive h hlim]
    · rw [exec_farSideBase, State.farSideBase_of_native_to_retrain hlive (by rw [h]; decide) (by rw [h]; decide)]
  case retrain =>
    intro s lp rx tx hlive h hrx htx
    simp only [exec_retrainDone, State.retrainDone_of_retrain hlive h, hrx, htx]
    exact ⟨rfl, rfl⟩

end Sys2Proof.Machine
end

section
/-!
SUPPORT. The beat inputs: their states, their monitor windows and their frames (R50 to R56, R64).
-/

namespace Sys2Proof.Machine

/-! ## Commands of an input -/

theorem exec_inputSymbolLock (i : Nat) (s : State) : exec (.inputSymbolLock i) s = .next (s.onInput i fun s =>
    if s.inState i = biDOWN && (s.beatIn i).windowOk then s.inGo i biSYM else s) := rfl

theorem exec_codeErrorLimit (i n : Nat) (s : State) : exec (.codeErrorLimit i n) s = .next (s.onInput i fun s =>
    if 16 < n then (s.codeErrors i n).inGo i biDOWN else s.codeErrors i n) := rfl

theorem exec_inputLock (i : Nat) (near : Bool) (s : State) : exec (.inputLock i near) s = .next (s.onInput i fun s =>
    if s.inState i = biFRAMED then (s.setIn i { s.beatIn i with phaseOk := near }).inGo i biLOCKED else s) := rfl

theorem exec_phaseError (i : Nat) (s : State) : exec (.phaseError i) s = .next (s.onInput i fun s =>
    if s.inState i = biLOCKED then s.inGo i biFRAMED else s) := rfl

theorem exec_freqMonitorWindow (i count : Nat) (ph : Int) (near : Bool) (errors : Nat) (s : State) :
    exec (.freqMonitorWindow i count ph near errors) s = .next (s.onInput i (·.freqWindow i count ph near errors)) := rfl

theorem exec_beatInputDisable (src : Src) (i : Nat) (s : State) : exec (.beatInputDisable src i) s =
    .next (if i < 2 then s.withReg src .BEAT_CFG 0 (·.beatEn i false) else s) := rfl

theorem exec_timeFrame (i tag age : Nat) (spaced : Bool) (s : State) :
    exec (.timeFrame i tag age spaced) s = .next (s.onInput i (·.timeFrame i tag age spaced)) := rfl

theorem exec_loadFrame (i tag age : Nat) (spaced : Bool) (s : State) :
    exec (.loadFrame i tag age spaced) s = .next (s.onInput i (·.loadFrame i tag age spaced)) := rfl

theorem exec_syncFrame (i code : Nat) (spaced : Bool) (s : State) :
    exec (.syncFrame i code spaced) s = .next (s.onInput i (·.syncFrame i code spaced)) := rfl

theorem exec_calFrame (i tag code delay : Nat) (spaced : Bool) (s : State) :
    exec (.calFrame i tag code delay spaced) s = .next (s.onInput i (·.calFrame i tag code delay spaced)) := rfl

theorem exec_beatFrameInvalid (i : Nat) (crcBad spaced : Bool) (s : State) :
    exec (.beatFrameInvalid i crcBad spaced) s = .next (s.onInput i (·.badFrame i crcBad spaced)) := rfl

/-- An enabled input of a live unit takes its commands. -/
theorem State.onInput_of_live {s : State} {i : Nat} (hi : i < 2) (hlive : s.beatLive = true) (hheld : s.held = false)
    (hen : s.enabledIn i = true) (f : State → State) : s.onInput i f = f s :=
  if_pos (by simp [hi, hlive, hheld, hen])

/-! ## The monitor window (R53, R56) -/

/-- What a monitor window leaves in the code-error count, BEAT_MON and the input's record, `ok` where its count of beats
lay within FMIN to FMAX. -/
def State.monitored (s : State) (i count : Nat) (ph : Int) (ok near : Bool) (errors : Nat) : State :=
  (((s.inc (pick i F.BEAT_CNT_A.CODE_ERR F.BEAT_CNT_B.CODE_ERR) 0 errors).wr
    (pick i F.BEAT_MON.FREQ_A F.BEAT_MON.FREQ_B) 0 (min count 65535)).wr
    F.BEAT_MON.AB_PHASE 0 (unsignedOf 16 ph)).setIn i { s.beatIn i with windowOk := ok, phaseOk := near }

/-- Does a window's count of beats lie within FMIN to FMAX? -/
def State.inLimits (s : State) (count : Nat) : Bool := s.rd F.BEAT_CFG.FMIN ≤ count && count ≤ s.rd F.BEAT_CFG.FMAX

theorem State.inLimits_iff (s : State) (count : Nat) : s.inLimits count = true ↔
    s.rd F.BEAT_CFG.FMIN ≤ count ∧ count ≤ s.rd F.BEAT_CFG.FMAX := by
  simp [State.inLimits]

/-- A phase that AB_PHASE can hold is stored as it is. -/
theorem phase_clamp {ph : Int} (hlo : -32767 ≤ ph) (hhi : ph ≤ 32767) : min (max ph (-32767)) 32767 = ph := by omega

theorem State.freqWindow_eq (s : State) (i count : Nat) {ph : Int} (hlo : -32767 ≤ ph) (hhi : ph ≤ 32767) (near : Bool)
    (errors : Nat) : s.freqWindow i count ph near errors =
      if s.inLimits count then (s.monitored i count ph (s.inLimits count) near errors).unitCheck
      else (s.monitored i count ph (s.inLimits count) near errors).inGo i biDOWN := by
  unfold State.freqWindow
  rw [phase_clamp hlo hhi]
  rfl

/-- Settles O11: each command acts on an enabled input of a live unit, and the input's state or the window's count picks
what it does. -/
theorem beatInputsChangeState : Obligations.BeatInputsChangeState := by
  refine ⟨fun s i hi hlive hheld hen => ?commands, fun s src i hi h => ?disable⟩
  case commands =>
    have hon := State.onInput_of_live hi hlive hheld hen
    refine ⟨fun hst hok => ?_, fun n hn => ?_, fun n hn => ?_, fun near hst => ?_, fun hst => ?_,
      fun count errors ph near hlo hhi => ⟨_, rfl, fun hmin hmax => ?_, fun h => ?_⟩⟩
    · rw [exec_inputSymbolLock, hon, if_pos (by simp [hst, hok])]
    · rw [exec_codeErrorLimit, hon, if_neg (Nat.not_lt.mpr hn), State.codeErrors]
    · rw [exec_codeErrorLimit, hon, if_pos hn, State.codeErrors]
    · rw [exec_inputLock, hon, if_pos hst]
    · rw [exec_phaseError, hon, if_pos hst]
    · have hin : s.inLimits count = true := (s.inLimits_iff count).mpr ⟨hmin, hmax⟩
      rw [hon, State.freqWindow_eq s i count hlo hhi, hin, if_pos rfl, State.monitored]
    · have hout : s.inLimits count = false := Bool.eq_false_iff.mpr fun hin => by
        have := (s.inLimits_iff count).mp hin
        omega
      rw [hon, State.freqWindow_eq s i count hlo hhi, hout, if_neg Bool.false_ne_true, State.monitored]
  case disable =>
    rw [exec_beatInputDisable, if_pos hi, State.withReg_of_takes h]
    rfl

/-! ## Frames (R50 to R54) -/

section
variable {s : State} {i : Nat} {spaced : Bool}

theorem State.timeFrame_of_up (h : s.inState i ≠ biDOWN) (tag age : Nat) : s.timeFrame i tag age spaced =
    if ((s.goodFrame i spaced).judgeTag i tag age).acts i && ((s.goodFrame i spaced).judgeTag i tag age).beat.adopting
    then ((s.goodFrame i spaced).judgeTag i tag age).streamLoad tag age
    else (s.goodFrame i spaced).judgeTag i tag age := if_neg h

theorem State.syncFrame_of_acts (h : (s.goodFrame i spaced).acts i = true) (code : Nat) : s.syncFrame i code spaced =
    { s.goodFrame i spaced with beat := { (s.goodFrame i spaced).beat with
      syncs := (s.goodFrame i spaced).beat.syncs ++ [(code % 65536, (s.goodFrame i spaced).beat.edges)] } } := if_pos h

theorem State.syncFrame_of_not_acts (h : (s.goodFrame i spaced).acts i = false) (code : Nat) :
    s.syncFrame i code spaced = s.goodFrame i spaced := if_neg (by simp [h])

theorem State.calFrame_of_acts (h : (s.goodFrame i spaced).acts i = true) (tag code delay : Nat) :
    s.calFrame i tag code delay spaced = { s.goodFrame i spaced with beat := { (s.goodFrame i spaced).beat with
      cals := (s.goodFrame i spaced).beat.cals ++
        [(code % 65536, (tag + delay % 4096) % 2 ^ 64, (s.goodFrame i spaced).beat.edges)] } } := if_pos h

theorem State.badFrame_of_unknown_type (h : s.inState i ≠ biDOWN) : s.badFrame i false spaced =
    (s.goodFrame i spaced).inc (pick i F.BEAT_CNT_A.UNKNOWN_TYPE F.BEAT_CNT_B.UNKNOWN_TYPE) := if_neg h

/-- A frame with a bad CRC is counted and restarts the count of good ones. -/
def State.crcFailed (s : State) (i : Nat) : State :=
  (s.inc (pick i F.BEAT_CNT_A.CRC_ERR F.BEAT_CNT_B.CRC_ERR)).setIn i
    { s.beatIn i with good := 0, bad := (s.beatIn i).bad + 1 }

/-- The eighth in a row, or one out of place, returns the input to SYM (R51). -/
theorem State.badFrame_of_bad_crc (h : s.inState i ≠ biDOWN) : s.badFrame i true spaced =
    if !spaced || 8 ≤ (s.beatIn i).bad + 1 then (s.crcFailed i).inGo i biSYM else s.crcFailed i := if_neg h

end

/-- Settles O12: every frame of an input that is not DOWN goes to its own operation, which acts where the unit tracks the
input. -/
theorem beatFramesActAndAreJudged : Obligations.BeatFramesActAndAreJudged := by
  intro s i spaced hi hlive hheld hen hst
  have hon := State.onInput_of_live hi hlive hheld hen
  refine ⟨fun tag age => ?load, fun tag age => ?time, fun code h => ?sync, fun tag code delay h => ?cal,
    fun code h => ?ignored, ?unknown, fun h => ?counted, fun h => ?lost⟩
  case load => rw [exec_loadFrame, hon, State.loadFrame]
  case time => rw [exec_timeFrame, hon, State.timeFrame_of_up hst]
  case sync =>
    exact ⟨_, congrArg Host.Outcome.next ((hon _).trans (State.syncFrame_of_acts h code)), rfl, rfl, rfl⟩
  case cal =>
    exact ⟨_, congrArg Host.Outcome.next ((hon _).trans (State.calFrame_of_acts h tag code delay)), rfl, rfl, rfl⟩
  case ignored => rw [exec_syncFrame, hon, State.syncFrame_of_not_acts h]
  case unknown => rw [exec_beatFrameInvalid, hon, State.badFrame_of_unknown_type hst]
  case counted =>
    rw [exec_beatFrameInvalid, hon, State.badFrame_of_bad_crc hst, if_neg (by simpa using h), State.crcFailed]
  case lost =>
    have hlost : (!spaced || decide (8 ≤ (s.beatIn i).bad + 1)) = true := by
      rcases h with h | h <;> simp [h]
    rw [exec_beatFrameInvalid, hon, State.badFrame_of_bad_crc hst, if_pos hlost, State.crcFailed]

end Sys2Proof.Machine
end

section
/-!
SUPPORT. The beat edge, the release queue's reads and the codes that wait for an edge (R52, R60 to R71, R74).
-/

namespace Sys2Proof.Machine

theorem exec_release (s : State) : exec .release s = .next s.beatEdge := rfl

theorem exec_swLoadApply (s : State) : exec .swLoadApply s = .next (if s.beat.swLoad then s.beatEdge else s) := rfl

theorem exec_releaseRead (slack : Nat) (s : State) :
    exec (.releaseRead slack) s = .next (if s.beatRuns then s.releaseRead slack else s) := rfl

theorem exec_syncExecute (s : State) : exec .syncExecute s = .next (if s.beatRuns then s.syncExecute else s) := rfl

theorem exec_calExecute (s : State) : exec .calExecute s = .next (if s.beatRuns then s.calExecute else s) := rfl

@[simp] theorem State.beatNow_with_beat (s : State) (z : BeatState) : State.beatNow { s with beat := z } = s.beatNow := rfl

/-- Only a write of BEAT_COUNT changes the count. -/
theorem State.beatNow_wr_of_reg (s : State) {f : Field} (i v : Nat) (h : f.reg ≠ .BEAT_COUNT) :
    (s.wr f i v).beatNow = s.beatNow := s.rd_wr_of_reg v h

/-! ## The count of the next edge (R62, R64) -/

section
variable {s : State}

theorem State.nextCount_of_load {c : Nat} (h : s.beat.load = some c) : s.nextCount = c := by
  simp only [State.nextCount, h]

theorem State.nextCount_of_swLoad (h : s.beat.load = none) (hsw : s.beat.swLoad = true) :
    s.nextCount = s.rd F.BEAT_LOAD.VALUE := by
  simp only [State.nextCount, h, hsw, if_true]

theorem State.nextCount_of_no_load (h : s.beat.load = none) (hsw : s.beat.swLoad = false) :
    s.nextCount = (s.beatNow + 1) % 2 ^ 64 := by
  simp only [State.nextCount, h, hsw, Bool.false_eq_true, if_false]

/-! ## The edge -/

/-- What an edge does once the count has moved on: the old count is recorded, the queue releases, and busy and BEAT_OUT
follow (R67, R74). -/
def State.edgeActions (s : State) (old : Nat) : State := (((s.recEdge old).release).busyEdge).beatOut

/-- Without SW_LOAD an edge takes its next count, and a count that is not the successor is a count-changing load (R71). -/
theorem State.beatEdge_of_no_swLoad (hrun : s.beatRuns = true) (hsw : s.beat.swLoad = false) : s.beatEdge =
    (if s.nextCount ≠ (s.beatNow + 1) % 2 ^ 64 then
        (({ s with beat := { s.beat with load := none, edges := s.beat.edges + 1 } } : State).wr
          F.BEAT_COUNT.COUNT 0 s.nextCount).countLoad s.nextCount
      else ({ s with beat := { s.beat with load := none, edges := s.beat.edges + 1 } } : State).wr
          F.BEAT_COUNT.COUNT 0 s.nextCount).edgeActions s.beatNow := by
  simp only [State.beatEdge, hrun, hsw, Bool.and_false, Bool.not_true, Bool.false_eq_true, if_false]
  rfl

theorem State.beatEdge_of_successor (hrun : s.beatRuns = true) (h : s.beat.load = none) (hsw : s.beat.swLoad = false) :
    s.beatEdge = (({ s with beat := { s.beat with edges := s.beat.edges + 1 } } : State).wr
      F.BEAT_COUNT.COUNT 0 ((s.beatNow + 1) % 2 ^ 64)).edgeActions s.beatNow := by
  have hbeat : { s.beat with load := none, edges := s.beat.edges + 1 } = { s.beat with edges := s.beat.edges + 1 } := by
    rw [← h]
  rw [State.beatEdge_of_no_swLoad hrun hsw, State.nextCount_of_no_load h hsw, if_neg (not_not.mpr rfl), hbeat]

theorem State.beatEdge_of_load {c : Nat} (hrun : s.beatRuns = true) (h : s.beat.load = some c)
    (hsw : s.beat.swLoad = false) (hc : c ≠ (s.beatNow + 1) % 2 ^ 64) : s.beatEdge =
    ((({ s with beat := { s.beat with load := none, edges := s.beat.edges + 1 } } : State).wr
      F.BEAT_COUNT.COUNT 0 c).countLoad c).edgeActions s.beatNow := by
  rw [State.beatEdge_of_no_swLoad hrun hsw, State.nextCount_of_load h, if_pos hc]

/-! ## The entry read ahead of an edge (R68, R69) -/

theorem State.releaseRead_read (s : State) (slack : Nat) : (s.releaseRead slack).beat.read =
    some (RqRead.mk ((s.beatNow + 1 + 2 ^ 64 - s.latency) % 2 ^ 64)
      (Tbl.find s.beat.rq ((s.beatNow + 1 + 2 ^ 64 - s.latency) % 2 ^ 64 % 4096))) := rfl

theorem State.releaseRead_frame (s : State) (slack : Nat) :
    Frame false [.beat] [F.BEAT_RQ_SLACK.MIN_SLACK.at] s (s.releaseRead slack) :=
  (((Frame.refl s).wr _ List.mem_cons_self).ite (Frame.refl s)).with_beat List.mem_cons_self

/-! ## Codes that wait for an edge (R52, R65) -/

theorem State.syncExecute_of_due {code n : Nat} {l : List (Nat × Nat)} (h : s.beat.syncs = (code, n) :: l)
    (hn : n < s.beat.edges) : s.syncExecute =
      (((({ s with beat := { s.beat with syncs := l } } : State).wr F.BEAT_SYNC_LAST.CODE 0 code).wr
        F.BEAT_SYNC_LAST.BEAT 0 s.beatNow).raise F.BEAT_STATUS.EVT_CMD).queueCmd 2 code s.beatNow := by
  simp only [State.syncExecute, h, Nat.not_le.mpr hn, if_false]
  rw [State.beatNow_wr_of_reg _ _ _ (by decide), State.beatNow_wr_of_reg _ _ _ (by decide)]
  simp only [State.beatNow_with_beat]

theorem State.calExecute_of_due {c : Nat × Nat × Nat}
    (h : s.beat.cals.find? (fun c => c.2.2 < s.beat.edges && c.2.1 ≤ s.beatNow) = some c) : s.calExecute =
      (((({ s with beat := { s.beat with cals := s.beat.cals.erase c } } : State).wr F.BEAT_CAL_LAST.CODE 0 c.1).wr
        F.BEAT_CAL_LAST.BEAT 0 s.beatNow).raise F.BEAT_STATUS.EVT_CMD).queueCmd 3 c.1 s.beatNow := by
  simp only [State.calExecute, h]
  rw [State.beatNow_wr_of_reg _ _ _ (by decide), State.beatNow_wr_of_reg _ _ _ (by decide)]
  simp only [State.beatNow_with_beat]

end

/-- Settles O13: the load that is pending picks the count of the edge, and a running beat takes each command. -/
theorem beatEdgeReleasesAndLoads : Obligations.BeatEdgeReleasesAndLoads := by
  refine ⟨fun s hrun h hsw => ?step, fun s c hrun h hsw hc => ?load, fun s hsw => ?apply,
    fun s => State.nextCount_of_no_load, fun s c => State.nextCount_of_load, fun s => State.nextCount_of_swLoad,
    fun s slack hrun => ?read, fun s code n l hrun h hn => ?sync, fun s c hrun h => ?cal⟩
  case step => rw [exec_release, State.beatEdge_of_successor hrun h hsw, State.edgeActions]
  case load => rw [exec_release, State.beatEdge_of_load hrun h hsw hc, State.edgeActions]
  case apply => rw [exec_swLoadApply, exec_release, if_pos hsw]
  case read =>
    exact ⟨_, by rw [exec_releaseRead, if_pos hrun], s.releaseRead_read slack, s.releaseRead_frame slack⟩
  case sync => rw [exec_syncExecute, if_pos hrun, State.syncExecute_of_due h hn]
  case cal => rw [exec_calExecute, if_pos hrun, State.calExecute_of_due h]

end Sys2Proof.Machine
end

section
/-!
SUPPORT. The unit's own events and its commands from software, the time that software and cores read, and the queue's
configuration (R57 to R62, R64, R66, R70, R76).
-/

namespace Sys2Proof.Machine

theorem exec_holdoverExpire (s : State) : exec .holdoverExpire s =
    .next (if s.beatRuns && s.beatUnit = buHOLDOVER && s.rd F.BEAT_CFG.HOLD_MAX ≠ 0 then
      (s.wr F.BEAT_STATUS.UNIT 0 buEXPIRED).raise F.BEAT_STATUS.EVT_EXPIRED else s) := rfl

theorem exec_autoRevert (s : State) : exec .autoRevert s = .next (if s.beatRuns then s.autoRevert else s) := rfl

theorem exec_forceSwitch (src : Src) (s : State) :
    exec (.forceSwitch src) s = .next (s.withReg src .BEAT_CTL 0 (·.forceSwitch)) := rfl

theorem exec_swLoad (src : Src) (s : State) : exec (.swLoad src) s = .next (s.withReg src .BEAT_CTL 0 (·.swLoad)) := rfl

theorem exec_adopt (src : Src) (s : State) : exec (.adopt src) s = .next (s.withReg src .BEAT_CTL 0 (·.adopt)) := rfl

theorem exec_beatCountRead (src : Src) (off size fine : Nat) (s : State) : exec (.beatCountRead src off size fine) s =
    .next (({ s with rdata := 0 } : State).withRead src .BEAT_COUNT 0 (·.countRead off size fine)) := rfl

theorem exec_hzbeatRead (k pc rd fine : Nat) (s : State) : exec (.hzbeatRead k pc rd fine) s =
    .next (s.issue k pc (fun s => (s.hzbeat k rd fine).retire k (pc + 4))) := rfl

theorem exec_hzbeatfRead (k pc rd : Nat) (s : State) : exec (.hzbeatfRead k pc rd) s = .next (s.issue k pc
    (fun s => (s.setHart k ((s.hart k).setX rd (s.hart k).beatF)).retire k (pc + 4))) := rfl

theorem exec_beatRqRun (src : Src) (v : Nat) (s : State) :
    exec (.beatRqRun src v) s = .next (s.withReg src .BEAT_RQ_CFG 0 (·.rqCfg v)) := rfl

theorem exec_beatRqSlackWrite (src : Src) (s : State) :
    exec (.beatRqSlackWrite src) s = .next (s.withReg src .BEAT_RQ_SLACK 0 (·.slackReset)) := rfl

/-! ## The active input and the unit (R58, R61, R62, R64) -/

section
variable {s : State}

theorem State.activate_of_ne {i : Nat} (h : s.active ≠ i) :
    s.activate i = (s.wr F.BEAT_STATUS.ACTIVE 0 i).raise F.BEAT_STATUS.EVT_SWITCH := if_neg h

theorem State.autoRevert_of_tracking (hu : s.beatUnit = buTRACKING) (hrev : s.is F.BEAT_CFG.AUTO_REVERT = true)
    (hact : s.active ≠ s.rd F.BEAT_CFG.PRIMARY) (hel : s.eligible (s.rd F.BEAT_CFG.PRIMARY) = true) :
    s.autoRevert = s.activate (s.rd F.BEAT_CFG.PRIMARY) := if_pos (by simp [hu, hrev, hact, hel])

theorem State.forceSwitch_of_tracking (hu : s.beatUnit = buTRACKING) (hel : s.eligible (1 - s.active) = true) :
    s.forceSwitch = s.activate (1 - s.active) := if_pos (by simp [hu, hel])

theorem State.adopt_of_locked (hu : s.beatUnit ≠ buSTOPPED) (hlock : s.inState 0 = biLOCKED ∨ s.inState 1 = biLOCKED) :
    s.adopt = ({ s with beat := { s.beat with adopting := true } } : State).setMismatch s.active false :=
  if_neg (by rcases hlock with h | h <;> simp [hu, h])

/-- A HOLDOVER that expires leaves the unit EXPIRED, sets its event, and changes nothing else (R58). -/
theorem State.expire_spec (s : State) :
    ((s.wr F.BEAT_STATUS.UNIT 0 buEXPIRED).raise F.BEAT_STATUS.EVT_EXPIRED).beatUnit = buEXPIRED ∧
    ((s.wr F.BEAT_STATUS.UNIT 0 buEXPIRED).raise F.BEAT_STATUS.EVT_EXPIRED).rd F.BEAT_STATUS.EVT_EXPIRED = 1 ∧
    Frame true [] [F.BEAT_STATUS.UNIT.at, F.BEAT_STATUS.EVT_EXPIRED.at] s
      ((s.wr F.BEAT_STATUS.UNIT 0 buEXPIRED).raise F.BEAT_STATUS.EVT_EXPIRED) := by
  refine ⟨?_, State.rd_raise_self _ _ _ rfl rfl, ((Frame.refl s).wr _ (by simp)).raise (by simp)⟩
  rw [State.beatUnit, State.rd_raise_of_lo _ rfl (by decide), State.rd_wr_self]
  rfl

/-! ## Reads of the time (R57, R66) -/

/-- A read of bytes 0 to 3 latches the count and the fine phase. -/
theorem State.countRead_low (s : State) (fine : Nat) : s.countRead 0 4 fine =
    { s.wr F.BEAT_FINE.FINE 0 (fine % 65536 / 256 * 256) with
      beat := { s.beat with latch := s.beatNow }, rdata := s.beatNow % 2 ^ 32 } := by
  simp only [State.countRead, if_true, State.beatNow_wr_of_reg s 0 _ (show F.BEAT_FINE.FINE.reg ≠ .BEAT_COUNT by decide)]
  rfl

/-- A core that may issue and has no halt due executes its instruction. -/
theorem State.issue_of_mayIssue {k : Nat} (h : s.mayIssue k = true) (hhalt : s.haltDue k = false) (pc : Nat)
    (f : State → State) : s.issue k pc f = f (s.atInsn k pc) := by
  simp [State.issue, h, hhalt, State.atInsn]

theorem Hart.x_setX_self (h : Hart) {r : Nat} (v : Nat) (hr : r % 32 ≠ 0) :
    Tbl.get (h.setX r v).x (r % 32) 0 = BitVec.ofNat 64 v := by
  rw [Hart.setX, if_neg hr]
  exact Tbl.get_set_self ..

/-- An instruction that writes `v` to register `r` and retires. -/
theorem State.setX_retire_frame (s : State) (k pc r v : Nat) :
    Frame false [.harts] [F.CORE_STATUS.LOOP_FAULT.at k] s
      (((s.atInsn k pc).setHart k (((s.atInsn k pc).hart k).setX r v)).retire k (pc + 4)) :=
  ((((Frame.refl s).setHart _ _ List.mem_cons_self).setHart _ _ List.mem_cons_self).setHart _ _
    List.mem_cons_self).wr _ List.mem_cons_self

/-! ## The queue's configuration (R70, R76) -/

/-- While RUN is set a write reaches RUN alone. -/
theorem State.rqCfg_of_running (h : s.is F.BEAT_RQ_CFG.RUN = true) (v : Nat) :
    s.rqCfg v = s.wr F.BEAT_RQ_CFG.RUN 0 (bits v 32 1) := by
  simp [State.rqCfg, h]

/-- The fields of BEAT_RQ_CFG other than RUN take their data. -/
def State.rqFields (s : State) (v : Nat) : State :=
  [F.BEAT_RQ_CFG.LAT, F.BEAT_RQ_CFG.LATE_ACCEPT, F.BEAT_RQ_CFG.LATE_TTYPE, F.BEAT_RQ_CFG.LATE_TRIG].foldl
    (fun s (f : Field) => s.wr f 0 (s.legal f 0 (bits v f.lo f.w))) s

theorem State.beatNow_rqFields (s : State) (v : Nat) : (s.rqFields v).beatNow = s.beatNow :=
  (frame_foldl_fields (fun s _ => (Frame.refl s).wr _ List.mem_cons_self) _ s).regs F.BEAT_COUNT.COUNT 0 rfl (by decide)

theorem bits_one_of_testBit {v k : Nat} (h : v.testBit k = true) : bits v k 1 = 1 := by
  rw [bits, Nat.shiftRight_eq_div_pow, pow_one, ← Nat.toNat_testBit, h]
  rfl

/-- RUN set where it was clear: decisions start at the next beat, releases L beats after it (R70). -/
theorem State.rqCfg_of_started (h : s.is F.BEAT_RQ_CFG.RUN = false) {v : Nat} (hv : v.testBit 32 = true) :
    (s.rqCfg v).is F.BEAT_RQ_CFG.RUN = true ∧ (s.rqCfg v).beat.decFrom = s.beatNow + 1 ∧
    (s.rqCfg v).beat.relFrom = s.beatNow + 1 + (s.rqCfg v).latency := by
  have hcfg : s.rqCfg v = { (s.rqFields v).wr F.BEAT_RQ_CFG.RUN 0 1 with
      beat := { s.beat with
        decFrom := s.beatNow + 1
        relFrom := s.beatNow + 1 + ((s.rqFields v).wr F.BEAT_RQ_CFG.RUN 0 1).latency } } := by
    have hnow : ((s.rqFields v).wr F.BEAT_RQ_CFG.RUN 0 1).beatNow = s.beatNow :=
      (State.beatNow_wr_of_reg _ _ _ (by decide)).trans (s.beatNow_rqFields v)
    rw [← hnow]
    simp only [State.rqCfg, h, hv, bits_one_of_testBit hv]
    rfl
  rw [hcfg]
  refine ⟨?_, rfl, rfl⟩
  rw [State.is, State.rd_with_beat, State.rd_wr_self]
  rfl

end

/-- Settles O14: each condition of the unit picks its action, and a register access that reaches its block is its
operation. -/
theorem beatUnitSwitchesHoldsAndAdopts : Obligations.BeatUnitSwitchesHoldsAndAdopts := by
  refine ⟨fun s hrun hu hmax => ?expire, fun s hrun hu hrev hact hel => ?revert, fun s src h => ?control,
    fun s src fine h => ?low, fun s src fine h => ?high, fun s k pc rd fine h hhalt => ?csr,
    fun s src h hrun v => ?running, fun s src v h hrun hv => ?started, fun s src h => ?slack⟩
  case expire =>
    exact ⟨_, (exec_holdoverExpire s).trans (congrArg _ (if_pos (by simp [hrun, hu, hmax]))), s.expire_spec⟩
  case revert =>
    rw [exec_autoRevert, if_pos hrun, State.autoRevert_of_tracking hu hrev hact hel, State.activate_of_ne hact]
  case control =>
    refine ⟨fun hu hel => ?_, ?_, fun hu hlock => ?_⟩
    · rw [exec_forceSwitch, State.withReg_of_takes h, State.forceSwitch_of_tracking hu hel]
    · rw [exec_swLoad, State.withReg_of_takes h, State.swLoad]
    · rw [exec_adopt, State.withReg_of_takes h, State.adopt_of_locked hu hlock]
  case low =>
    have htake : ({ s with rdata := 0 } : State).takesRead src .BEAT_COUNT = true := h
    refine ⟨_, congrArg Host.Outcome.next ((State.withRead_of_takes htake).trans (State.countRead_low ..)), rfl, rfl, ?_⟩
    exact ((((Frame.refl s).with_rdata (by simp)).wr _ (by simp)).with_beat (by simp)).with_rdata (by simp)
  case high =>
    have htake : ({ s with rdata := 0 } : State).takesRead src .BEAT_COUNT = true := h
    rw [exec_beatCountRead, State.withRead_of_takes htake]
    rfl
  case csr =>
    refine ⟨?_, _, congrArg Host.Outcome.next (State.issue_of_mayIssue h hhalt ..), fun hrd => ?_, ?_,
      s.setX_retire_frame k pc rd _⟩
    · rw [exec_hzbeatRead, State.issue_of_mayIssue h hhalt, State.atInsn]
    · rw [State.hart_retire, State.hart_setHart, State.hart_atInsn]
      exact Hart.x_setX_self _ _ hrd
    · rw [State.hart_retire]
  case running => rw [exec_beatRqRun, State.withReg_of_takes h, State.rqCfg_of_running hrun]
  case started => exact ⟨_, by rw [exec_beatRqRun, State.withReg_of_takes h], State.rqCfg_of_started hrun hv⟩
  case slack => rw [exec_beatRqSlackWrite, State.withReg_of_takes h, State.slackReset]

end Sys2Proof.Machine
end

section
/-!
SUPPORT. The links of the Hatchline lanes: their group's rate and PLL, their states, and the clearing of their counters
(R78, R83, R89, R90, R97, R105).
-/

namespace Sys2Proof.Machine

theorem exec_hlnGrpRateWrite {g : Nat} (hg : g < 8) (src : Src) (v : Nat) (s : State) :
    exec (.hlnGrpRateWrite src g v) s = .next (s.withReg src .HLN_GRP_CFG g (·.grpRate g v)) := congrArg _ (if_pos hg)

theorem exec_groupPllLock {g : Nat} (hg : g < 8) (s : State) :
    exec (.groupPllLock g) s = .next (s.onLane (24 * g) (·.groupLock g)) := congrArg _ (if_pos hg)

theorem exec_laneCdrLock (n : Nat) (s : State) : exec (.laneCdrLock n) s = .next (s.onLane n (·.cdrLock n)) := rfl

theorem exec_laneBlockLock (n k : Nat) (s : State) : exec (.laneBlockLock n k) s = .next (s.onLane n fun s =>
    if s.laneState n = lnHUNT then (s.inc F.LANE_CNT4.HDR_ERR n k).laneGo n lnBLOCK else s) := rfl

theorem exec_laneBlockLockLoss (n k : Nat) (s : State) : exec (.laneBlockLockLoss n k) s = .next (s.onLane n fun s =>
    if lnHUNT ≤ s.laneState n then ((s.inc F.LANE_CNT4.HDR_ERR n k).inc F.LANE_CNT3.LOCK_LOSS n).laneGo n lnHUNT
    else s) := rfl

/-- The signal and its register bit are gone. -/
def State.signalGone (s : State) (n : Nat) : State :=
  (s.setLane n { s.lane n with signal := false }).wr F.LANE_STATUS.SIGNAL n 0

theorem exec_laneSignalLoss (n : Nat) (s : State) : exec (.laneSignalLoss n) s = .next (s.onLane n fun s =>
    if (s.signalGone n).laneState n = lnOFF then s.signalGone n else (s.signalGone n).laneGo n lnCDR) := rfl

theorem exec_strayControlBlock (n : Nat) (s : State) : exec (.strayControlBlock n) s = .next (s.onLane n fun s =>
    if lnBLOCK ≤ s.laneState n then s.inc F.LANE_CNT4.CTRL_ERR n else s) := rfl

section
variable {n : Nat} (hn : n < 192)
include hn

theorem exec_laneRxEn (src : Src) (on : Bool) (s : State) :
    exec (.laneRxEn src n on) s = .next (s.withReg src .LANE_CFG n (·.rxEn n on)) := congrArg _ (if_pos hn)

theorem exec_laneTxEn (src : Src) (on : Bool) (s : State) :
    exec (.laneTxEn src n on) s = .next (s.withReg src .LANE_CFG n (·.txEn n on)) := congrArg _ (if_pos hn)

theorem exec_laneResync (src : Src) (s : State) :
    exec (.laneResync src n) s = .next (s.withReg src .LANE_CTL n (·.laneResync n)) := congrArg _ (if_pos hn)

theorem exec_laneCntClr (src : Src) (s : State) :
    exec (.laneCntClr src n) s = .next (s.withReg src .LANE_CTL n (·.laneClear n)) := congrArg _ (if_pos hn)

end

theorem State.onLane_of_up {s : State} {n : Nat} (h : s.laneUp n = true) (f : State → State) : s.onLane n f = f s :=
  if_pos h

/-! ## The group's rate (R78) -/

/-- Is any lane of the group enabled in either direction? -/
def State.groupEnabled (s : State) (g : Nat) : Bool :=
  (List.range 24).any (fun k => s.is F.LANE_CFG.RX_EN (24 * g + k) || s.is F.LANE_CFG.TX_EN (24 * g + k))

section
variable {s : State} {g v : Nat} (hrate : s.legal F.HLN_GRP_CFG.RATE g (bits v 0 3) ≠ s.rd F.HLN_GRP_CFG.RATE g)
include hrate

theorem State.grpRate_of_enabled (h : s.groupEnabled g = true) :
    s.grpRate g v = s.wr F.HLN_GRP_STATUS.RATE_REFUSED g 1 := (if_neg hrate).trans (if_pos h)

theorem State.grpRate_of_disabled (h : s.groupEnabled g = false) : s.grpRate g v =
    (s.wr F.HLN_GRP_CFG.RATE g (s.legal F.HLN_GRP_CFG.RATE g (bits v 0 3))).wr F.HLN_GRP_STATUS.PLL_LOCK g 0 :=
  (if_neg hrate).trans (if_neg (Bool.eq_false_iff.mp h))

end

/-! ## What moves a lane from one state to another (R89, R90, R97) -/

/-- Only a write of STATE changes a lane's state. -/
theorem State.laneState_wr_of_reg (s : State) {f : Field} (n i v : Nat) (h : f.reg ≠ .LANE_STATUS) :
    (s.wr f i v).laneState n = s.laneState n := s.rd_wr_of_reg v h

theorem State.laneState_signalGone (s : State) (n : Nat) : (s.signalGone n).laneState n = s.laneState n :=
  State.rd_wr_of_lo _ 0 (by decide)

section
variable {s : State} {n : Nat}

theorem State.rxEn_of_off (h : s.laneState n = lnOFF) : s.rxEn n true =
    ((s.wr F.LANE_CFG.RX_EN n 1).setLane n { s.lane n with signal := false }).laneGo n lnCDR :=
  if_pos ((s.laneState_wr_of_reg n n _ (by decide)).trans h)

theorem State.cdrLock_of_cdr (h : s.laneState n = lnCDR) : s.cdrLock n =
    ((s.setLane n { s.lane n with signal := true }).wr F.LANE_STATUS.SIGNAL n 1).laneRecover n :=
  if_neg (not_not.mpr h)

theorem State.laneResync_of_hunt_or_later (h : lnHUNT ≤ s.laneState n) : s.laneResync n = s.laneGo n lnHUNT := if_pos h

end

/-! ## The counters (R105) -/

/-- A table whose entries are kept or left out by their keys holds the default under a key that is left out. -/
theorem Tbl.get_filter {K V : Type} [DecidableEq K] (t : Tbl K V) (keep : K → Bool) (k : K) (d : V) :
    Tbl.get (t.filter fun e => keep e.1) k d = if keep k then Tbl.get t k d else d := by
  induction t with
  | nil => simp [Tbl.get]
  | cons e t ih =>
    obtain ⟨a, b⟩ := e
    by_cases ha : keep a = true <;> by_cases hak : a = k <;> simp_all [Tbl.get]

/-- The registers that hold a lane's counters. -/
def laneCounters : List Reg := [.LANE_CNT0, .LANE_CNT1, .LANE_CNT2, .LANE_CNT3, .LANE_CNT4, .LANE_HITS_IN,
  .LANE_HITS_OUT, .LANE_HITS_SUPP, .LANE_HITS_DROP, .LANE_SC_CNT, .LANE_TX_CNT]

theorem State.rd_laneClear (s : State) (n : Nat) (f : Field) (i : Nat) : (s.laneClear n).rd f i =
    if !(i == n && laneCounters.contains f.reg) then s.rd f i else f.resetAt i :=
  Tbl.get_filter s.regs (fun k => !(k.idx == n && laneCounters.contains k.reg)) ..

theorem State.rd_laneClear_of_counter (s : State) (n : Nat) {f : Field} (h : laneCounters.contains f.reg = true) :
    (s.laneClear n).rd f n = f.resetAt n := by
  rw [State.rd_laneClear, h]
  simp

theorem State.rd_laneClear_of_ne (s : State) {n i : Nat} (f : Field) (h : i ≠ n) : (s.laneClear n).rd f i = s.rd f i := by
  simp [State.rd_laneClear, h]

theorem State.rd_laneClear_of_not_counter (s : State) (n : Nat) {f : Field} (i : Nat)
    (h : laneCounters.contains f.reg = false) : (s.laneClear n).rd f i = s.rd f i := by
  rw [State.rd_laneClear, h, Bool.and_false, Bool.not_false, if_pos rfl]

/-- Settles O15: the guard of each command is met, and the lane's state or the group's enables pick its effect. -/
theorem laneLinkChangesState : Obligations.LaneLinkChangesState := by
  refine ⟨fun s src g v hg h hrate => ?rate, fun s g hg h => ?pll, fun s src n hn h => ?enable, fun s n h => ?link,
    fun s src n hn h => ?control⟩
  case rate =>
    rw [exec_hlnGrpRateWrite hg, State.withReg_of_takes h]
    exact ⟨fun hen => congrArg _ (State.grpRate_of_enabled hrate hen),
      fun hen => congrArg _ (State.grpRate_of_disabled hrate hen)⟩
  case pll => rw [exec_groupPllLock hg, State.onLane_of_up h, State.groupLock]
  case enable =>
    simp only [exec_laneRxEn hn, exec_laneTxEn hn, State.withReg_of_takes h]
    exact ⟨rfl, fun hoff => congrArg _ (State.rxEn_of_off hoff), rfl, rfl⟩
  case link =>
    have hon := State.onLane_of_up h
    refine ⟨fun hst => ?_, fun k hst => ?_, fun k hst => ?_, fun hst => ?_, fun hst => ?_⟩
    · rw [exec_laneCdrLock, hon, State.cdrLock_of_cdr hst]
    · rw [exec_laneBlockLock, hon, if_pos hst]
    · rw [exec_laneBlockLockLoss, hon, if_pos hst]
    · rw [exec_laneSignalLoss, hon, if_neg (by rwa [State.laneState_signalGone]), State.signalGone]
    · rw [exec_strayControlBlock, hon, if_pos hst]
  case control =>
    refine ⟨fun hst => ?_, _, by rw [exec_laneCntClr hn, State.withReg_of_takes h], ?_, ?_, ?_, ?_, rfl⟩
    · rw [exec_laneResync hn, State.withReg_of_takes h, State.laneResync_of_hunt_or_later hst]
    · exact s.rd_laneClear_of_counter n (by decide)
    · exact s.rd_laneClear_of_counter n (by decide)
    · exact fun i hi => s.rd_laneClear_of_ne _ hi
    · exact fun f i hf => s.rd_laneClear_of_not_counter n i hf

end Sys2Proof.Machine
end

section
/-!
SUPPORT. A lane's received frames: the counters each one moves, its checks, and what a good one leads to (R85, R89, R91,
R92, R102, R114).
-/

namespace Sys2Proof.Machine

theorem exec_dataFrame (n : Nat) (f : RxFrame) (s : State) :
    exec (.dataFrame n f.h0 f.h1 f.payload f.crc f.hdrErr f.ctrlErr f.broken) s = .next (s.rxFrame n f) := rfl

theorem exec_screplyFrame (n : Nat) (f : RxFrame) (s : State) :
    exec (.screplyFrame n f.h0 f.h1 f.payload f.crc f.hdrErr f.ctrlErr f.broken) s = .next (s.rxFrame n f) := rfl

/-- The header and control errors of a frame are counted (R83). -/
def State.frameErrorsCounted (s : State) (n : Nat) (f : RxFrame) : State :=
  (s.inc F.LANE_CNT4.HDR_ERR n f.hdrErr).inc F.LANE_CNT4.CTRL_ERR n f.ctrlErr

/-- So are the hits of a whole DATA frame (R91). -/
def State.frameCounted (s : State) (n : Nat) (f : RxFrame) : State :=
  if f.type = 1 && (s.frameErrorsCounted n f).frameWhole n f
  then (s.frameErrorsCounted n f).inc F.LANE_HITS_IN.HITS_IN n f.payload.length else s.frameErrorsCounted n f

/-- The hits of a DATA frame that find no room in the backlog are counted though the frame is dropped (R114). -/
def State.hitsLost (s : State) (n : Nat) (f : RxFrame) : State :=
  if f.type = 1 then s.backlogDrop n ((hitSteps f.span f.payload 0).2.2.length - s.backlogRoom n) else s

/-- A good frame's SEQ is taken, and the counts of frames dropped in a row start again (R92). -/
def State.seqTaken (s : State) (n : Nat) (f : RxFrame) : State :=
  ((s.inc F.LANE_CNT2.SEQ_LOST n (s.seqStep n f)).seqNext n f).setLane n
    { ((s.inc F.LANE_CNT2.SEQ_LOST n (s.seqStep n f)).seqNext n f).lane n with dropped := 0, droppedId := 0 }

section
variable {s : State} {n : Nat} {f : RxFrame} (hup : s.laneUp n = true) (hst : lnBLOCK ≤ s.laneState n)
include hup hst

/-- A frame of a live lane in BLOCK or later is counted and then checked. -/
theorem State.rxFrame_of_up : s.rxFrame n f = match (s.frameCounted n f).frameCheck n f with
    | some k => (if 5 ≤ k && !((s.frameCounted n f).lane n).seqHeld then ((s.frameCounted n f).hitsLost n f).seqNext n f
        else (s.frameCounted n f).hitsLost n f).frameDropped n k
    | none => if f.type = 2 then ((s.frameCounted n f).seqTaken n f).scReply n f
        else if ((s.frameCounted n f).seqTaken n f).laneState n = lnSYNC then
          ((s.frameCounted n f).seqTaken n f).deliverFrame n f
        else ((s.frameCounted n f).seqTaken n f).countFrame n f :=
  if_neg (by simp [hup, hst])

theorem State.rxFrame_of_bad {k : Nat} (h : (s.frameCounted n f).frameCheck n f = some k)
    (hseq : 5 ≤ k → ((s.frameCounted n f).lane n).seqHeld = true) :
    s.rxFrame n f = ((s.frameCounted n f).hitsLost n f).frameDropped n k := by
  have hheld : ¬ (5 ≤ k && !((s.frameCounted n f).lane n).seqHeld) = true := by simpa using hseq
  rw [State.rxFrame_of_up hup hst, h]
  exact congrArg (State.frameDropped · n k) (if_neg hheld)

theorem State.rxFrame_of_good (h : (s.frameCounted n f).frameCheck n f = none) : s.rxFrame n f =
    if f.type = 2 then ((s.frameCounted n f).seqTaken n f).scReply n f
    else if ((s.frameCounted n f).seqTaken n f).laneState n = lnSYNC then
      ((s.frameCounted n f).seqTaken n f).deliverFrame n f
    else ((s.frameCounted n f).seqTaken n f).countFrame n f := by
  rw [State.rxFrame_of_up hup hst, h]

end

/-- Settles O16: a frame is counted, and its first failing check, or its type and the lane's state, picks what follows. -/
theorem laneFramesAreCheckedAndCounted : Obligations.LaneFramesAreCheckedAndCounted := by
  intro s n f hup hst u v hu hv
  obtain rfl : u = s.frameErrorsCounted n f := hu
  obtain rfl : v = s.frameCounted n f := hv
  rw [exec_dataFrame, exec_screplyFrame]
  refine ⟨rfl, fun k h hseq hty => ?reply, fun k h hseq hty => ?data, fun h w hw x hx => ?good⟩
  case reply => rw [State.rxFrame_of_bad hup hst h hseq, State.hitsLost, if_neg hty]
  case data => rw [State.rxFrame_of_bad hup hst h hseq, State.hitsLost, if_pos hty]
  case good =>
    subst hw
    obtain rfl : x = (s.frameCounted n f).seqTaken n f := hx
    rw [State.rxFrame_of_good hup hst h]
    exact ⟨fun hty => by rw [if_pos hty], fun hty hsync => by rw [if_neg hty, if_pos hsync],
      fun hty hsync => by rw [if_neg hty, if_neg hsync]⟩

end Sys2Proof.Machine
end

section
/-!
SUPPORT. What a lane sends, its slow-control requests, and the staging buffer of a lane without a history ring (R97 to
R102, R178).
-/

namespace Sys2Proof.Machine

theorem exec_tick (n edge : Nat) (taken : Bool) (s : State) :
    exec (.tick n edge taken) s = .next (s.tick n edge taken) := rfl

theorem exec_acceptBlockSend (n : Nat) (s : State) :
    exec (.acceptBlockSend n) s = .next (if s.txOn n && s.txWants n 0 then s.txUntil n 0 3 else s) := rfl

theorem exec_cmdBlockSend (n : Nat) (s : State) :
    exec (.cmdBlockSend n) s = .next (if s.txOn n && s.txWants n 1 then s.txUntil n 1 3 else s) := rfl

theorem exec_scSendDone (n : Nat) (s : State) : exec (.scSendDone n) s = .next (s.scSent n) := rfl

theorem exec_historyWriteDone (n : Nat) (s : State) :
    exec (.historyWriteDone n) s = .next (if s.laneUp n && s.evbLive then s.histWrite n else s) := rfl

section
variable {n : Nat} (hn : n < 192)
include hn

theorem exec_scGo (src : Src) (v : Nat) (s : State) :
    exec (.scGo src n v) s = .next (s.withReg src .LANE_SC_CTL n (·.scCtl n (setBit v 32))) := congrArg _ (if_pos hn)

theorem exec_scRxfullClear (src : Src) (s : State) : exec (.scRxfullClear src n) s =
    .next (s.withReg src .LANE_SC_STATUS n (·.wr F.LANE_SC_STATUS.RXFULL n 0)) := congrArg _ (if_pos hn)

end

/-! ## TICK blocks (R97, R98) -/

/-- A TIMEHI follows the TICK of a beat whose low bits have just wrapped. -/
theorem State.tick_of_due {s : State} {n : Nat} (htx : s.txOn n = true) (hen : s.is F.LANE_CFG.TICK_EN n = true)
    (hrun : s.beatRuns = true) (hdue : s.beatNow % 2 ^ s.rd F.LANE_CFG.TICKDIV n = 0) (edge : Nat) (taken : Bool) :
    s.tick n edge taken = if taken then s.inc F.LANE_SC_CNT.TICK_SKIP n else s.setLane n { s.lane n with
      sent := (s.lane n).sent ++ [TxBlock.tick (s.beatNow % 2 ^ 48) (edge % 128)] ++
        if s.beatNow % 65536 < 2 ^ s.rd F.LANE_CFG.TICKDIV n then [TxBlock.timehi (bits s.beatNow 48 16)] else [] } :=
  if_neg (by simp [htx, hen, hrun, hdue])

/-! ## The transmit arbiter (R97, R99, R100) -/

/-- A rotating grant goes to the one that asks alone, wherever the pointer stands. -/
theorem rotGrant_of_only {n k : Nat} {req : Nat → Bool} (hk : k < n) (hreq : req k = true)
    (honly : ∀ j < n, req j = true → j = k) (p : Nat) : rotGrant n p req = some k := by
  have hmem : k ∈ (List.range n).map (fun j => (p + j) % n) := by
    have hp : p % n < n := Nat.mod_lt _ (by omega)
    have hwrap : (p + (k + (n - p % n))) % n = k := by
      have hdiv := Nat.mod_add_div p n
      have hsum : p + (k + (n - p % n)) = k + n * (p / n + 1) := by rw [Nat.mul_add, Nat.mul_one]; omega
      rw [hsum, Nat.add_mul_mod_self_left, Nat.mod_eq_of_lt hk]
    exact List.mem_map.mpr ⟨(k + (n - p % n)) % n, List.mem_range.mpr (Nat.mod_lt _ (by omega)), by
      rw [Nat.add_mod_mod, hwrap]⟩
  obtain ⟨j, hj⟩ := Option.isSome_iff_exists.mp (List.find?_isSome.mpr ⟨k, hmem, hreq⟩)
  obtain ⟨i, -, rfl⟩ := List.mem_map.mp (List.mem_of_find?_eq_some hj)
  exact hj.trans (congrArg some (honly _ (Nat.mod_lt _ (by omega)) (List.find?_some hj)))

section
variable {s : State} {n : Nat}

theorem State.txUntil_of_grant {k : Nat} {t : State} (h : s.txSlot n = (some k, t)) (fuel : Nat) :
    s.txUntil n k (fuel + 1) = t := by
  simp only [State.txUntil, h, if_true]

theorem State.txWants_accept (h : (s.lane n).accepts ≠ []) (hbeat : s.beatUnit ≠ buSTOPPED) : s.txWants n 0 = true := by
  simp [State.txWants, h, hbeat]

theorem State.txWants_cmd (h : (s.lane n).cmds ≠ []) (hbeat : s.beatUnit ≠ buSTOPPED) : s.txWants n 1 = true := by
  simp [State.txWants, h, hbeat]

variable (hsc : (s.lane n).sc = [])
include hsc

theorem State.eq_zero_of_txWants (hcmds : (s.lane n).cmds = []) {j : Nat} (h : s.txWants n j = true) : j = 0 :=
  match j with
  | 0 => rfl
  | 1 => by simp [State.txWants, hcmds] at h
  | _ + 2 => by simp [State.txWants, hsc] at h

theorem State.eq_one_of_txWants (haccepts : (s.lane n).accepts = []) {j : Nat} (h : s.txWants n j = true) : j = 1 :=
  match j with
  | 0 => by simp [State.txWants, haccepts] at h
  | 1 => rfl
  | _ + 2 => by simp [State.txWants, hsc] at h

/-- With only ACCEPT blocks waiting, the next slot sends the oldest. -/
theorem State.txSlot_of_accepts (hwant : s.txWants n 0 = true) (hcmds : (s.lane n).cmds = []) : s.txSlot n =
    (some 0, (s.setLane n { s.lane n with
      accepts := (s.lane n).accepts.drop 1, sent := (s.lane n).sent ++ (s.lane n).accepts.take 1, txPtr := 1 }).inc
        F.LANE_TX_CNT.ACCEPTS_SENT n) := by
  have hgrant : rotGrant 3 (s.lane n).txPtr (s.txWants n) = some 0 :=
    rotGrant_of_only (by decide) hwant (fun _ _ => State.eq_zero_of_txWants hsc hcmds) _
  simp only [State.txSlot, hgrant]

/-- With only CMD blocks waiting, the next slot sends the oldest. -/
theorem State.txSlot_of_cmds (hwant : s.txWants n 1 = true) (haccepts : (s.lane n).accepts = []) : s.txSlot n =
    (some 1, (s.setLane n { s.lane n with
      cmds := (s.lane n).cmds.drop 1, sent := (s.lane n).sent ++ (s.lane n).cmds.take 1, txPtr := 2 }).inc
        F.LANE_TX_CNT.CMD_SENT n) := by
  have hgrant : rotGrant 3 (s.lane n).txPtr (s.txWants n) = some 1 :=
    rotGrant_of_only (by decide) hwant (fun _ _ => State.eq_one_of_txWants hsc haccepts) _
  simp only [State.txSlot, hgrant]

end

/-! ## Slow-control requests (R101) -/

theorem testBit_setBit_self (v i : Nat) : (setBit v i).testBit i = true := by simp [setBit]

/-- Setting a bit above a field leaves the field. -/
theorem bits_setBit_of_le (v : Nat) {lo w i : Nat} (h : lo + w ≤ i) : bits (setBit v i) lo w = bits v lo w := by
  refine Nat.eq_of_testBit_eq fun k => ?_
  by_cases hk : k < w
  · have hbit : (1 <<< i).testBit (lo + k) = false := by
      rw [Nat.one_shiftLeft, Nat.testBit_two_pow_of_ne (by omega)]
    simp [bits, setBit, Nat.testBit_mod_two_pow, Nat.testBit_shiftRight, hbit]
  · simp [bits, Nat.testBit_mod_two_pow, hk]

/-- GO with a legal length, while no request is being sent, builds SCSTART, the payload and SCEND. -/
theorem State.scCtl_of_go {s : State} {n v : Nat} (hgo : v.testBit 32 = true)
    (hbusy : s.is F.LANE_SC_STATUS.TX_BUSY n = false) (hlen : 1 ≤ bits v 0 8) (hmax : bits v 0 8 ≤ 128) :
    ∃ blocks : List TxBlock, blocks.length = bits v 0 8 + 2 ∧
    s.scCtl n v = (((s.wr F.LANE_SC_CTL.LEN n (bits v 0 8)).wr F.LANE_SC_CTL.TAG n (bits v 16 16)).setLane n
      { s.lane n with sc := blocks }).wr F.LANE_SC_STATUS.TX_BUSY n 1 := by
  have hfree : ((s.wr F.LANE_SC_CTL.LEN n (bits v 0 8)).wr F.LANE_SC_CTL.TAG n (bits v 16 16)).is
      F.LANE_SC_STATUS.TX_BUSY n = false := by
    rw [← hbusy, State.is, State.rd_wr_of_reg _ _ (by decide), State.rd_wr_of_reg _ _ (by decide), State.is]
  exact ⟨_, by simp, if_neg (by simp [hgo, hfree]; omega)⟩

/-- What GO leaves: the request waits, TX_BUSY is set, and LEN and TAG took their data. -/
theorem State.scCtl_setBit_spec {s : State} {n v : Nat} (hbusy : s.is F.LANE_SC_STATUS.TX_BUSY n = false)
    (hlen : 1 ≤ bits v 0 8) (hmax : bits v 0 8 ≤ 128) : (s.scCtl n (setBit v 32)).is F.LANE_SC_STATUS.TX_BUSY n = true ∧
    ((s.scCtl n (setBit v 32)).lane n).sc.length = bits v 0 8 + 2 ∧
    Frame false [.lanes] [F.LANE_SC_CTL.LEN.at n, F.LANE_SC_CTL.TAG.at n, F.LANE_SC_STATUS.TX_BUSY.at n] s
      (s.scCtl n (setBit v 32)) := by
  have hbits : bits (setBit v 32) 0 8 = bits v 0 8 := bits_setBit_of_le v (by decide)
  obtain ⟨blocks, hblocks, hctl⟩ := State.scCtl_of_go (n := n) (testBit_setBit_self v 32) hbusy (hbits ▸ hlen)
    (hbits ▸ hmax)
  rw [hctl]
  refine ⟨by simp [State.is], ?_,
    ((((Frame.refl s).wr _ (by simp)).wr _ (by simp)).setLane _ _ (by simp)).wr _ (by simp)⟩
  rw [State.lane_wr, State.lane_setLane, hblocks, hbits]

theorem State.scSent_of_waiting {s : State} {n : Nat} (htx : s.txOn n = true) (hsc : (s.lane n).sc ≠ []) : s.scSent n =
    (((s.txDrain n (3 * (s.lane n).sc.length + (s.lane n).accepts.length + (s.lane n).cmds.length)).wr
      F.LANE_SC_STATUS.TX_BUSY n 0).inc F.LANE_SC_CNT.SC_SENT n).raise F.LANE_STATUS.EVT_SC_DONE n :=
  if_neg (by simp [htx, hsc])

/-! ## The staging buffer (R178) -/

/-- With its ring disabled, a lane's oldest released frame vanishes. -/
theorem State.histWrite_of_disabled {s : State} {n : Nat} {f : StagedFrame} {l : List StagedFrame}
    (hframes : (s.lane n).frames = f :: l) (hsettled : f.settled = true) (hen : s.is F.EVB_HIST_CFG.EN n = false) :
    s.histWrite n = s.setLane n { s.lane n with frames := l } := by
  simp [State.histWrite, hframes, hsettled, hen]

/-- Settles O17: the slot goes to the one kind of block that waits, and each other command's condition is met. -/
theorem laneTransmitAndHistory : Obligations.LaneTransmitAndHistory := by
  refine ⟨fun s n edge htx hen hrun hdue => ?tick, fun s n htx hbeat hsc => ?send,
    fun s src n v hn h hbusy hlen hmax => ?go, fun s n htx hsc => ?done, fun s src n hn h => ?rxfull,
    fun s n f l hup hevb hframes hsettled hen => ?history⟩
  case tick =>
    simp only [exec_tick, State.tick_of_due htx hen hrun hdue]
    refine ⟨rfl, fun hdiv => ?_, fun hdiv => ?_⟩
    · simp [Nat.not_lt.mpr hdiv]
    · simp [hdiv]
  case send =>
    refine ⟨fun haccepts hcmds _ => ?_, fun hcmds haccepts _ => ?_⟩
    · have hwant := State.txWants_accept haccepts hbeat
      rw [exec_acceptBlockSend, if_pos (by simp [htx, hwant]),
        State.txUntil_of_grant (State.txSlot_of_accepts hsc hwant hcmds)]
    · have hwant := State.txWants_cmd hcmds hbeat
      rw [exec_cmdBlockSend, if_pos (by simp [htx, hwant]),
        State.txUntil_of_grant (State.txSlot_of_cmds hsc hwant haccepts)]
  case go =>
    exact ⟨_, by rw [exec_scGo hn, State.withReg_of_takes h], State.scCtl_setBit_spec hbusy hlen hmax⟩
  case done => rw [exec_scSendDone, State.scSent_of_waiting htx hsc]
  case rxfull => rw [exec_scRxfullClear hn, State.withReg_of_takes h]
  case history =>
    rw [exec_historyWriteDone, if_pos (by simp [hup, hevb]), State.histWrite_of_disabled hframes hsettled hen]

end Sys2Proof.Machine
end

section
/-!
SUPPORT. The context store: its commands run once it is READY (R125), and its epoch slots are armed, cancelled, go LIVE
and merge (R115 to R122, R413).
-/

namespace Sys2Proof.Machine

theorem exec_ctxClearDone (s : State) :
    exec .ctxClearDone s = .next (if s.ctxLive && !s.held then s.wr F.CTX_STATUS.READY 0 1 else s) := rfl

theorem exec_mergeWrite (b : Nat) (s : State) :
    exec (.mergeWrite b) s = .next (if s.ctxReady then s.mergeWrite b else s) := rfl

section
variable {s : State} {r : Nat} (hready : s.ctxReady = true)
include hready

/-- A context command that waits at its ring runs once the store is READY (R125). -/
theorem State.ctxCmd_of_ready {op : Nat} (hcmd : s.hasCmd r op = true) (f : State → State) : s.ctxCmd r op f = f s :=
  if_pos (by simp [hready, hcmd])

theorem exec_ctxLoad (hcmd : s.hasCmd r 0x20 = true) : exec (.ctxLoad r) s = .next (s.ctxLoad r) :=
  congrArg _ (State.ctxCmd_of_ready hready hcmd _)

theorem exec_ctxStage (hcmd : s.hasCmd r 0x21 = true) : exec (.ctxStage r) s = .next (s.ctxStage r) :=
  congrArg _ (State.ctxCmd_of_ready hready hcmd _)

theorem exec_ctxFlip (hcmd : s.hasCmd r 0x22 = true) : exec (.ctxFlip r) s = .next (s.ctxFlip r) :=
  congrArg _ (State.ctxCmd_of_ready hready hcmd _)

theorem exec_ctxStageFlip (hcmd : s.hasCmd r 0x23 = true) : exec (.ctxStageFlip r) s = .next (s.ctxStageFlip r) :=
  congrArg _ (State.ctxCmd_of_ready hready hcmd _)

theorem exec_ctxCancel (hcmd : s.hasCmd r 0x24 = true) : exec (.ctxCancel r) s = .next (s.ctxCancel r) :=
  congrArg _ (State.ctxCmd_of_ready hready hcmd _)

theorem exec_ctxRead (hcmd : s.hasCmd r 0x25 = true) : exec (.ctxRead r) s = .next (s.ctxRead r) :=
  congrArg _ (State.ctxCmd_of_ready hready hcmd _)

theorem exec_epochFlip {k : Nat} (hk : k < 64) (hrun : s.beatRuns = true) :
    exec (.epochFlip k) s = .next (s.epochFlip k) := congrArg _ (if_pos (by simp [hk, hready, hrun]))

theorem exec_mergeStart {k : Nat} (hk : k < 64) (hrun : s.beatRuns = true) :
    exec (.mergeStart k) s = .next (s.mergeStart k) := congrArg _ (if_pos (by simp [hk, hready, hrun]))

end

/-! ## The occupancy registers (R112, R115) -/

/-- The fields that follow the overlay and the slots. -/
def occupancyFields : List Field :=
  [F.CTX_STATUS.OVL_USED, F.CTX_STATUS.SLOTS_BUSY, F.CTX_BANK_OVL.USED, F.CTX_EPOCH.ENTRIES]

theorem State.rd_wr_of_field (s : State) {f g : Field} {i j : Nat} (v : Nat) (h : f.reg = g.reg → f.lo ≠ g.lo) :
    (s.wr f i v).rd g j = s.rd g j := s.rd_wr_of_key v (by simpa using fun hreg _ => h hreg)

/-- Writes of one field at many indices leave every other field as it was. -/
theorem State.rd_foldl_wr_of_field {f g : Field} (h : f.reg = g.reg → f.lo ≠ g.lo) (v : State → Nat → Nat) (l : List Nat)
    (s : State) (j : Nat) : (l.foldl (fun s i => s.wr f i (v s i)) s).rd g j = s.rd g j := by
  induction l generalizing s with
  | nil => rfl
  | cons i l ih => exact (ih _).trans (s.rd_wr_of_field _ h)

theorem State.rd_ovlStatus (s : State) {g : Field} (h : ∀ f ∈ occupancyFields, f.reg = g.reg → f.lo ≠ g.lo) (j : Nat) :
    s.ovlStatus.rd g j = s.rd g j := by
  simp only [occupancyFields, List.forall_mem_cons] at h
  obtain ⟨hused, hbusy, hbank, hentries, -⟩ := h
  unfold State.ovlStatus
  rw [State.rd_foldl_wr_of_field hentries, State.rd_foldl_wr_of_field hbank, State.rd_wr_of_field _ _ hbusy,
    State.rd_wr_of_field _ _ hused]

/-! ## Arming (R120) -/

/-- The earliest beat at which a slot may now be armed. -/
def State.leastFlip (s : State) : Nat := s.beatNow + s.rd F.CTX_CFG.FLIP_LEAD

/-- FLIP_MOVED says whether the beat asked for was too close, which is also counted and reported. -/
def State.flipMarked (s : State) (k f : Nat) : State :=
  if f < s.leastFlip then ((s.wr F.CTX_EPOCH.FLIP_MOVED k 1).inc F.CTX_CNT0.FLIP_MOVED).raise F.CTX_STATUS.EVT_FLIP_MOVED
  else s.wr F.CTX_EPOCH.FLIP_MOVED k 0

theorem State.rd_flipMarked_self (s : State) (k f : Nat) :
    (s.flipMarked k f).rd F.CTX_EPOCH.FLIP_MOVED k = if f < s.leastFlip then 1 else 0 := by
  unfold State.flipMarked
  split
  · rw [State.rd_raise_of_reg _ (by decide) (by decide), State.rd_inc_of_reg _ (by decide), State.rd_wr_self]
    rfl
  · rw [State.rd_wr_self]
    rfl

/-- An armed slot reads what the marked state does, but for its STATE and its beat. -/
theorem State.rd_slotArm (s : State) (k f : Nat) (g : Field) (j : Nat) : (s.slotArm k f).rd g j =
    (((s.flipMarked k f).wr F.CTX_EPOCH.STATE k ceARMED).wr F.CTX_EPOCH_BEAT.F k (max f s.leastFlip)).rd g j := rfl

theorem State.slotState_slotArm_self (s : State) (k f : Nat) : (s.slotArm k f).slotState k = ceARMED := by
  rw [State.slotState, State.rd_slotArm, State.rd_wr_of_reg _ _ (by decide), State.rd_wr_self]
  rfl

theorem State.slotF_slotArm_self (s : State) (k f : Nat) : (s.slotArm k f).slotF k = max f s.leastFlip % 2 ^ 64 := by
  rw [State.slotF, State.rd_slotArm, State.rd_wr_self]
  rfl

theorem State.flipMoved_slotArm_self (s : State) (k f : Nat) :
    (s.slotArm k f).rd F.CTX_EPOCH.FLIP_MOVED k = if f < s.leastFlip then 1 else 0 := by
  rw [State.rd_slotArm, State.rd_wr_of_reg _ _ (by decide), State.rd_wr_of_lo _ _ (by decide), State.rd_flipMarked_self]

/-- What CTX_FLIP leaves of the slot: its beat, its state, and whether the beat was moved. -/
theorem State.slotArm_ovlStatus_spec (s : State) (k f : Nat) :
    (s.slotArm k f).ovlStatus.slotF k = max f s.leastFlip % 2 ^ 64 ∧ (s.slotArm k f).ovlStatus.slotState k = ceARMED ∧
    ((s.slotArm k f).ovlStatus.is F.CTX_EPOCH.FLIP_MOVED k = true ↔ f < s.leastFlip) := by
  refine ⟨?_, ?_, ?_⟩
  · rw [State.slotF, State.rd_ovlStatus _ (by decide)]
    exact s.slotF_slotArm_self k f
  · rw [State.slotState, State.rd_ovlStatus _ (by decide)]
    exact s.slotState_slotArm_self k f
  · rw [State.is, State.rd_ovlStatus _ (by decide), State.flipMoved_slotArm_self]
    simp

/-! ## The commands that name a slot (R117, R119, R121) -/

section
variable {s : State} {r : Nat}

theorem State.slotCheck_of_epoch {k : Nat} (hk : k < 64)
    (hepoch : cdEpoch (s.desc r) = s.rd F.CTX_EPOCH.ROLE_EPOCH k) : s.slotCheck r k = none := by
  rw [State.slotCheck, if_neg (by omega), if_neg (by simp [hepoch])]

variable (hcheck : s.slotCheck r (cdSlot (s.desc r)) = none) (hmine : s.slotMine r (cdSlot (s.desc r)) = true)
include hcheck hmine

theorem State.ctxFlip_of_open (hopen : s.slotState (cdSlot (s.desc r)) = ceOPEN) : s.ctxFlip r =
    (s.slotArm (cdSlot (s.desc r)) (cdF (s.desc r))).ovlStatus.finish r csOK
      ((s.slotArm (cdSlot (s.desc r)) (cdF (s.desc r))).ovlStatus.slotF (cdSlot (s.desc r)))
      ((s.slotArm (cdSlot (s.desc r)) (cdF (s.desc r))).ovlStatus.slotResult (cdSlot (s.desc r))) := by
  rw [State.ctxFlip, hcheck]
  exact (if_neg (by simp [hmine])).trans (if_neg (by simp [hopen]))

theorem State.ctxCancel_of_not_flipped (hstate : s.slotState (cdSlot (s.desc r)) = ceOPEN ∨
      s.slotState (cdSlot (s.desc r)) = ceARMED ∧ s.beatNow < s.slotF (cdSlot (s.desc r))) : s.ctxCancel r =
    (s.slotFree (cdSlot (s.desc r))).finish r csOK 0 ((s.slotFree (cdSlot (s.desc r))).slotResult (cdSlot (s.desc r))) := by
  rw [State.ctxCancel, hcheck]
  refine (if_neg (by simp [hmine])).trans ((if_neg ?_).trans (if_neg ?_))
  · rcases hstate with hopen | ⟨harmed, -⟩
    · simp [hopen]
    · simp [harmed]
  · rcases hstate with hopen | ⟨harmed, hahead⟩
    · simp [hopen]
    · simp [harmed, hahead]

end

/-! ## Flips and merges (R116, R122) -/

section
variable {s : State} {k : Nat}

theorem State.epochFlip_of_due (harmed : s.slotState k = ceARMED) (hdue : s.slotF k ≤ s.beatNow) : s.epochFlip k =
    (((s.wr F.CTX_EPOCH.STATE k ceLIVE).setAux k { s.slotAux k with flipEdge := s.beat.edges }).inc
      F.CTX_CNT1.FLIPS).raise F.CTX_STATUS.EVT_FLIP :=
  if_neg (by simp [harmed, hdue])

theorem State.mergeStart_of_due (hlive : s.slotState k = ceLIVE)
    (hhold : (s.slotAux k).flipEdge + s.rd F.CTX_CFG.MERGE_HOLD ≤ s.beat.edges)
    (hfirst : ∀ j, j < 64 → j ≠ k → s.mergesBefore j k = true → s.slotState j < ceLIVE)
    (hentry : s.ctx.overlay.any (fun e => e.slot == k) = true) :
    s.mergeStart k = s.wr F.CTX_EPOCH.STATE k ceMERGING := by
  have hnone : (List.range 64).any (fun j => ceLIVE ≤ s.slotState j && j ≠ k && s.mergesBefore j k) = false := by
    refine List.any_eq_false.mpr fun j hj h => ?_
    simp only [Bool.and_eq_true, decide_eq_true_eq] at h
    obtain ⟨⟨hge, hne⟩, hbefore⟩ := h
    exact absurd (hfirst j (List.mem_range.mp hj) hne hbefore) (by omega)
  exact (if_neg (by simp only [hlive, hnone]; simp [hhold])).trans (if_pos hentry)

end

/-- One merge: the oldest waiting entry goes to its base row, and the lanes that asked wait (R122). -/
theorem State.mergeWrite_of_next {s u : State} {b : Nat} {e : OvlEntry} (hnext : s.mergeNext b = some e)
    (hu : u = { s.inc F.CTX_BANK_WAIT.WAIT 0 ((List.range 192).filter (fun n => (s.bankHit n b).isSome)).length with
      ctx := { s.ctx with base := Tbl.set s.ctx.base e.channel (if cxValid e.ctx then e.ctx else 0) 0
                          merged := Tbl.put s.ctx.merged e.channel (s.slotF e.slot)
                          overlay := s.ctx.overlay.erase e } }) :
    s.mergeWrite b = if u.ctx.overlay.any (fun x => x.slot == e.slot) then u.ovlStatus else u.slotFree e.slot := by
  have hslot (n : Nat) : (s.inc F.CTX_BANK_WAIT.WAIT 0 n).slotF e.slot = s.slotF e.slot := s.rd_inc_of_reg (by decide)
  subst hu
  simp only [State.mergeWrite, hnext, hslot, State.inc_ctx]

/-- Settles O18: each guard of the slot's state picks its branch, and the fields an arming writes are read back through the
occupancy registers that follow it. -/
theorem contextSlotsFlipAndMerge : Obligations.ContextSlotsFlipAndMerge := by
  refine ⟨fun s hlive hheld => ?clear, fun s r hready hk hepoch hmine => ?command,
    fun s k hk hready hrun => ⟨fun harmed hdue => ?flip, fun hlive hhold hfirst hentry => ?start⟩,
    fun s b e hready hnext => ?write⟩
  case clear => rw [exec_ctxClearDone, if_pos (by simp [hlive, hheld])]
  case command =>
    have hcheck := State.slotCheck_of_epoch hk hepoch
    refine ⟨fun hcmd hopen => ⟨_, rfl, ?_, s.slotArm_ovlStatus_spec _ _⟩, fun hcmd hstate => ?_⟩
    · rw [exec_ctxFlip hready hcmd, State.ctxFlip_of_open hcheck hmine hopen]
    · rw [exec_ctxCancel hready hcmd, State.ctxCancel_of_not_flipped hcheck hmine hstate]
  case flip => rw [exec_epochFlip hready hk hrun, State.epochFlip_of_due harmed hdue]
  case start => rw [exec_mergeStart hready hk hrun, State.mergeStart_of_due hlive hhold hfirst hentry]
  case write => exact ⟨_, rfl, by rw [exec_mergeWrite, if_pos hready, State.mergeWrite_of_next hnext rfl]⟩

end Sys2Proof.Machine
end

section
/-!
SUPPORT. The commands that load, stage and read contexts, and the grant of a bank (R109, R113, R117 to R119, R123).
-/

namespace Sys2Proof.Machine

/-! ## Images (R117, R118) -/

section
variable {s u : State} {r : Nat} {es : List (Nat × Nat)}

theorem State.ctxLoad_of_image (hplace : s.ctxPlace r 0x20 = true)
    (himage : s.ctxImage r 0x20 none (2 ^ 20) = .ok (es, u))
    (hfree : (lastWins es).any (fun x => u.ctx.overlay.any (fun e => e.channel == x.1)) = false) :
    s.ctxLoad r = (u.baseWrite (u.ringSlice r) (lastWins es)).finish r csOK (cdN (u.desc r)) := by
  rw [State.ctxLoad, if_neg (by simp [hplace]), himage]
  exact if_neg (Bool.eq_false_iff.mp hfree)

theorem State.ctxStage_of_free_slot {v : State} {k : Nat} (hplace : s.ctxPlace r 0x21 = true)
    (hslot : cdSlot (s.desc r) = 0xFF) (himage : s.ctxImage r 0x21 none 65536 = .ok (es, u))
    (hepoch : cdEpoch (u.desc r) = 0) (hroom : u.ovlRoom none (lastWins es) = true)
    (htake : u.slotTake (s.ringSlice r) = some (k, v)) : s.ctxStage r =
    (v.slotAdd k (s.ringSlice r) (lastWins es)).finish r csOK 0
      ((v.slotAdd k (s.ringSlice r) (lastWins es)).slotResult k) := by
  rw [State.ctxStage, if_neg (by simp [hplace])]
  simp only [if_pos hslot, himage]
  rw [if_neg (by simp [hepoch]), if_neg (by simp [hroom]), htake]

theorem State.ctxStage_of_open_slot (hplace : s.ctxPlace r 0x21 = true) (hslot : cdSlot (s.desc r) < 64)
    (hcheck : s.slotCheck r (cdSlot (s.desc r)) = none)
    (himage : s.ctxImage r 0x21 (some (cdSlot (s.desc r))) 65536 = .ok (es, u))
    (hopen : u.slotState (cdSlot (s.desc r)) = ceOPEN)
    (hroom : u.ovlRoom (some (cdSlot (s.desc r))) (lastWins es) = true) : s.ctxStage r =
    (u.slotAdd (cdSlot (s.desc r)) (s.ringSlice r) (lastWins es)).finish r csOK 0
      ((u.slotAdd (cdSlot (s.desc r)) (s.ringSlice r) (lastWins es)).slotResult (cdSlot (s.desc r))) := by
  have hne : cdSlot (s.desc r) ≠ 0xFF := by omega
  rw [State.ctxStage, if_neg (by simp [hplace])]
  simp only [if_neg hne, hcheck, himage]
  rw [if_neg (by simp [hopen]), if_neg (by simp [hroom])]

theorem State.ctxStageFlip_of_image {v : State} {k : Nat} (hplace : s.ctxPlace r 0x23 = true)
    (himage : s.ctxImage r 0x23 none 65536 = .ok (es, u)) (hroom : u.ovlRoom none (lastWins es) = true)
    (htake : u.slotTake (s.ringSlice r) = some (k, v)) : s.ctxStageFlip r =
    ((v.slotAdd k (s.ringSlice r) (lastWins es)).slotArm k (cdF (v.desc r))).finish r csOK
      (((v.slotAdd k (s.ringSlice r) (lastWins es)).slotArm k (cdF (v.desc r))).slotF k)
      (((v.slotAdd k (s.ringSlice r) (lastWins es)).slotArm k (cdF (v.desc r))).slotResult k) := by
  rw [State.ctxStageFlip, if_neg (by simp [hplace])]
  simp only [himage]
  rw [if_neg (by simp [hroom]), htake]

/-- A CTX_READ of consecutive channels writes the view of each at the present count. -/
theorem State.ctxRead_of_consecutive (hplace : s.ctxPlace r 0x25 = true)
    (hrange : s.rangeOk (s.ringSlice r) (cdF (s.desc r)) (16 * cdN (s.desc r)) = true) (hpos : 1 ≤ cdN (s.desc r))
    (hmax : cdN (s.desc r) ≤ 65536) (hform : cdForm (s.desc r) = 0)
    (hlast : cdFirst (s.desc r) + cdN (s.desc r) ≤ 2 ^ 20)
    (hchan : ∀ j, j < cdN (s.desc r) → s.chanOk (s.ringSlice r) (cdFirst (s.desc r) + j) = true)
    (hwrite : s.cmdWrite r 5 (cdF (s.desc r)) ((List.range (cdN (s.desc r))).flatMap
      (fun j => natLE 16 (s.ctxView (cdFirst (s.desc r) + j) s.beatNow))) = (.done, u)) :
    s.ctxRead r = u.finish r csOK (cdN (s.desc r)) := by
  have hall : ((List.range (cdN (s.desc r))).map (cdFirst (s.desc r) + ·)).all (s.chanOk (s.ringSlice r)) = true := by
    simpa using hchan
  have hne : cdN (s.desc r) ≠ 0 := by omega
  refine (if_neg (by simp [hplace, hrange])).trans ((if_neg (by simpa [hform, hne, hmax] using hlast)).trans
    ((if_pos hform).trans ((if_neg (by simp [hall])).trans ?_)))
  rw [List.flatMap_map, hwrite]

end

/-! ## Lookups (R113) -/

theorem exec_ctxLookup (b : Nat) (s : State) : exec (.ctxLookup b) s = .next (s.bankGrant b) := rfl

theorem State.bankGrant_of_hit {s : State} {b n : Nat} {h : WaitHit} (hlive : s.ctxLive = true) (hheld : s.held = false)
    (hgrant : rotGrant 193 (Tbl.get s.ctx.bankPtr b 0)
      (fun n => ((List.range 192).filter (fun n => (s.bankHit n b).isSome)).contains n) = some n)
    (hhit : s.bankHit n b = some h) : s.bankGrant b =
    (State.inc { s with ctx := { s.ctx with bankPtr := Tbl.set s.ctx.bankPtr b (rotNext 193 n) 0 } }
      F.CTX_BANK_WAIT.WAIT 0 (((List.range 192).filter (fun n => (s.bankHit n b).isSome)).length - 1)).lookup n h := by
  rw [State.bankGrant, if_neg (by simp [hlive, hheld])]
  simp only [hgrant, hhit]

/-- Settles O19: no check of the command fails, so it reaches its one success. -/
theorem contextImagesAndLookups : Obligations.ContextImagesAndLookups := by
  refine ⟨fun s u r es hready hcmd hplace himage hfree => ?load,
    fun s u v r k es hready hcmd hplace hslot himage hepoch hroom htake => ?stageFree,
    fun s u r es hready hcmd hplace hslot hepoch himage hopen hroom => ⟨_, rfl, ?stageOpen⟩,
    fun s u v r k es hready hcmd hplace himage hroom htake => ⟨_, rfl, ?stageFlip⟩,
    fun s u r hready hcmd hplace hrange hpos hmax hform hlast hchan hwrite => ?read,
    fun s b n h hlive hheld hgrant hhit => ?lookup⟩
  case load => rw [exec_ctxLoad hready hcmd, State.ctxLoad_of_image hplace himage hfree]
  case stageFree =>
    rw [exec_ctxStage hready hcmd, State.ctxStage_of_free_slot hplace hslot himage hepoch hroom htake]
  case stageOpen =>
    have hcheck := State.slotCheck_of_epoch hslot hepoch
    rw [exec_ctxStage hready hcmd, State.ctxStage_of_open_slot hplace hslot hcheck himage hopen hroom]
  case stageFlip => rw [exec_ctxStageFlip hready hcmd, State.ctxStageFlip_of_image hplace himage hroom htake]
  case read =>
    rw [exec_ctxRead hready hcmd, State.ctxRead_of_consecutive hplace hrange hpos hmax hform hlast hchan hwrite]
  case lookup => rw [exec_ctxLookup, State.bankGrant_of_hit hlive hheld hgrant hhit]

end Sys2Proof.Machine
end

section
/-!
SUPPORT. The trigger path: clearing, sketches and packets, the engines, and the combiner (R130 to R144, R153, R359).
-/

namespace Sys2Proof.Machine

theorem exec_trgClearDone (s : State) : exec .trgClearDone s =
    .next (if s.trgLive && !s.held && !s.is F.TRG_STATUS.READY then
      State.wr { s with trg := { s.trg with origin := s.beatNow, cmbNext := s.beatNow } } F.TRG_STATUS.READY 0 1
    else s) := rfl

section
variable {s : State} (hruns : s.trgRuns = true)
include hruns

theorem exec_sketchClose {n : Nat} (hn : n < 192) : exec (.sketchClose n) s = .next (s.sketchClose n) :=
  congrArg _ (if_pos (by simp [hn, hruns]))

theorem exec_packetDeliver {n : Nat} (hn : n < 192) : exec (.packetDeliver n) s = .next (s.packetDeliver n) :=
  congrArg _ (if_pos (by simp [hn, hruns]))

theorem exec_engineEval {e : Nat} (he : e < 64) : exec (.engineEval e) s = .next (s.engineEval e) :=
  congrArg _ (if_pos (by simp [he, hruns]))

theorem exec_guestDeadline (b : Nat) : exec (.guestDeadline b) s = .next (s.guestDeadline b) :=
  congrArg _ (if_pos hruns)

theorem exec_combinerJudge : exec .combinerJudge s = .next s.combinerJudge := congrArg _ (if_pos hruns)

theorem exec_unitSwap {k : Nat} (hk : k < 65) : exec (.unitSwap k) s = .next (s.unitSwap k) :=
  congrArg _ (if_pos (by simp [hk, hruns]))

end

section
variable {s : State}

theorem State.sketchClose_of_due {n : Nat} (h : s.sketchDue n = true) : s.sketchClose n = { s with trg := { s.trg with
    packets := s.trg.packets ++ [Packet.mk n (s.sketchBeat n) (if !s.domOn (82 + n / 24) then [] else
      (List.range 16).filterMap (fun k =>
        let w := slotWord (Tbl.get ((s.trgUnit 64).progAt (s.sketchBeat n)).sketch (16 * n + k) 0)
          (Tbl.get s.trg.acc (n, s.sketchBeat n, k) 0)
        if w = 0 then none else some (k, w)))]
    skNext := Tbl.put s.trg.skNext n (s.sketchBeat n + 1)
    acc := s.trg.acc.filter (fun e => !(e.1.1 == n && e.1.2.1 == s.sketchBeat n)) } } :=
  if_neg (by simp [h])

theorem State.packetDeliver_of_find {n : Nat} {p : Packet} (h : s.trg.packets.find? (fun p => p.lane == n) = some p) :
    s.packetDeliver n = { s with trg := { s.trg with
      packets := s.trg.packets.erase p
      inputs := Tbl.set s.trg.inputs (n, p.beat) p.words []
      inNext := Tbl.put s.trg.inNext n (p.beat + 1) } } := by
  simp only [State.packetDeliver, h]

theorem State.engineEval_of_due {e : Nat} {sp : Span × Option Nat}
    (hspan : (s.trgUnit e).spanAt (s.engineBeat e) = some sp)
    (hdue : s.engineDue sp.1.prog (s.engineBeat e) = true) (hbeat : s.engineBeat e ≤ s.beatNow) :
    s.engineEval e = State.wr { s with trg := { s.trg with
      terms := Tbl.put s.trg.terms (s.engineBeat e, e) (s.termBits e sp (s.engineBeat e))
      engNext := Tbl.put s.trg.engNext e (s.engineBeat e + 1) } } F.TRG_UNIT_EVAL.BEAT e (s.engineBeat e) := by
  simp only [State.engineEval, hspan]
  exact if_neg (by simp [hdue, hbeat])

theorem State.guestDeadline_of_missed {b : Nat} (hdl : (s.cmbProg b).guestDl ≠ 0) (hsites : s.guestSites ≠ [])
    (hpast : b + (s.cmbProg b).guestDl ≤ s.beatNow) (hahead : s.trg.cmbNext ≤ b)
    (hlate : s.trg.guestLate.contains b = false) (hword : Tbl.find s.trg.guestWords b = none) : s.guestDeadline b =
    (State.inc { s with trg := { s.trg with guestLate := b :: s.trg.guestLate } } F.TRG_CNT1.GUEST_LATE).raise
      F.TRG_STATUS.EVT_GUEST_LATE := by
  have hsome : s.guestSites.isEmpty = false := by simpa using hsites
  have hnow : ¬ s.beatNow < b + (s.cmbProg b).guestDl := by omega
  have hnext : ¬ b < s.trg.cmbNext := by omega
  exact if_neg (by simp only [hdl, hsome, hnow, hnext, hlate, hword]; decide)

/-- The combiner judges a beat that has passed once the engines' and the guests' bits are known. -/
theorem State.combinerJudge_of_known {e g : Nat} (hpast : s.trg.cmbNext < (s.stencilWord s.trg.cmbNext).beatNow)
    (hengine : (s.stencilWord s.trg.cmbNext).engineBits s.trg.cmbNext = some e)
    (hguest : (s.stencilWord s.trg.cmbNext).guestBits s.trg.cmbNext = some g) {u : State} {r : BeatRec}
    (hu : u = s.stencilWord s.trg.cmbNext) (hr : r = Tbl.get u.tio.recs s.trg.cmbNext BeatRec.none) : s.combinerJudge =
    u.judgeBits s.trg.cmbNext (e + g <<< 1024 + (u.extBits r) <<< 1088) r.throttle := by
  subst hu hr
  refine (if_neg (by omega)).trans ?_
  rw [hengine, hguest]

end

/-- Settles O20: each command's condition is met, so the path takes its one step; clearing ends at the present count
(log 38). -/
theorem triggerPathForwardsBeats : Obligations.TriggerPathForwardsBeats := by
  refine ⟨fun s hlive hheld hready => ?clear, fun s hruns => ⟨fun n hn hdue => ?close, fun n p hn hfind => ?deliver,
    fun e sp he hspan hdue hbeat => ?eval, fun b hdl hsites hpast hahead hlate hword => ?deadline,
    fun e g hpast hengine hguest => ⟨_, _, rfl, rfl, ?judge⟩⟩⟩
  case clear => rw [exec_trgClearDone, if_pos (by simp [hlive, hheld, hready])]
  case close => rw [exec_sketchClose hruns hn, State.sketchClose_of_due hdue]
  case deliver => rw [exec_packetDeliver hruns hn, State.packetDeliver_of_find hfind]
  case eval => rw [exec_engineEval hruns he, State.engineEval_of_due hspan hdue hbeat]
  case deadline =>
    rw [exec_guestDeadline hruns, State.guestDeadline_of_missed hdl hsites hpast hahead hlate hword]
  case judge => rw [exec_combinerJudge hruns, State.combinerJudge_of_known hpast hengine hguest rfl rfl]

end Sys2Proof.Machine
end

section
/-!
SUPPORT. Menus: a load arms the units it names, a swap gives a unit its shadow, and a read gives back an image (R148 to
R154).
-/

namespace Sys2Proof.Machine

section
variable {s : State} {r : Nat} (hready : s.trgReady = true)
include hready

theorem exec_trgMenuLoad (hcmd : s.hasCmd r 0x28 = true) : exec (.trgMenuLoad r) s = .next (s.menuLoad r) :=
  congrArg _ (if_pos (by simp [hready, hcmd]))

theorem exec_trgMenuRead (hcmd : s.hasCmd r 0x29 = true) : exec (.trgMenuRead r) s = .next (s.menuRead r) :=
  congrArg _ (if_pos (by simp [hready, hcmd]))

end

/-! ## Loading (R151, R152) -/

/-- The least beat at which a load may now set a swap. -/
def State.leastSwap (s : State) : Nat := s.beatNow + s.rd F.TRG_CFG.SWAP_LEAD

/-- A swap asked for below the least beat is counted and reported as moved. -/
def State.swapMarked (s : State) (want : Nat) : State :=
  if want < s.leastSwap then (s.inc F.TRG_CNT0.SWAP_MOVED).raise F.TRG_STATUS.EVT_SWAP_MOVED else s

/-- Each unit that the sections name is armed with the image's id for its beat. -/
def State.menuArmed (s : State) (id want : Nat) (xs : List Section) : State :=
  (sectionUnits xs).foldl (fun t k => t.armUnit k id (max want s.leastSwap) (want < s.leastSwap) xs) (s.swapMarked want)

theorem State.menuLoad_of_good {s u : State} {r : Nat} {img : List (BitVec 8)}
    (hrange : s.rangeOk (s.ringSlice r) (dget (s.desc r) 8 8) (dget (s.desc r) 16 4) = true)
    (hlen : 64 ≤ dget (s.desc r) 16 4)
    (hread : s.cmdRead r 5 (dget (s.desc r) 8 8) (dget (s.desc r) 16 4) = (.data img [], u))
    (hepoch : ∀ x k, some x ∈ sectionsOf 513 (img.drop 64) → x.unit = some k →
      u.rd F.TRG_UNIT_STATUS.ROLE_EPOCH k = x.epoch)
    (hmine : s.ringSlice r = 0 ∨ ∀ x, some x ∈ sectionsOf 513 (img.drop 64) → u.sectionMine (s.ringSlice r) x = true)
    (hgood : menuGood img (sectionsOf 513 (img.drop 64)) = true) : s.menuLoad r =
    (u.menuArmed (leAt img 16 4) (dget (s.desc r) 24 8) ((sectionsOf 513 (img.drop 64)).filterMap id)).finish r csOK
      (max (dget (s.desc r) 24 8) u.leastSwap) := by
  have hmem {x : Section} (h : x ∈ (sectionsOf 513 (img.drop 64)).filterMap id) :
      some x ∈ sectionsOf 513 (img.drop 64) := by simpa using h
  refine (if_neg (by simp [hrange])).trans ((if_neg (by omega)).trans ?_)
  rw [hread]
  refine (if_neg fun hstale => ?stale).trans ((if_neg Bool.false_ne_true).trans ((if_neg fun hspoof => ?spoof).trans
    (if_neg (by simp [hgood]))))
  case stale =>
    obtain ⟨x, hx, h⟩ := List.any_eq_true.mp hstale
    cases hunit : x.unit with
    | none => simp [hunit] at h
    | some k => simp [hunit, hepoch x k (hmem hx) hunit] at h
  case spoof =>
    rcases hmine with hzero | hmine
    · simp [hzero] at hspoof
    · have hall := List.all_eq_true.mpr fun x hx => hmine x (hmem hx)
      rw [hall] at hspoof
      simp at hspoof

/-! ## Swapping (R153) -/

theorem State.trgUnit_setUnit_self (s : State) (u : Nat) (x : TrgUnit) : (s.setUnit u x).trgUnit u = x :=
  Tbl.get_set_self ..

theorem State.trgUnit_setUnit_of_ne (s : State) {u j : Nat} (x : TrgUnit) (h : j ≠ u) :
    (s.setUnit u x).trgUnit j = s.trgUnit j := Tbl.get_set_of_ne _ _ _ _ h.symm

theorem State.trgUnit_congr {s t : State} (h : t.trg = s.trg) (u : Nat) : t.trgUnit u = s.trgUnit u := by
  rw [State.trgUnit, h, State.trgUnit]

/-- DEPTH of the programme that a swap at the present beat replaces, zero where a load edge sets the level. -/
def State.swapDepth (s : State) (u : Nat) : Nat :=
  if s.beat.lastLoad = some s.beatNow then 0 else (s.trgUnit u).cur.prog.depth

/-- A unit's new programme takes force at the present beat; the combiner's sets the bucket's level where a load edge
began that beat and it is not judged yet (R147). -/
def State.takeShadow (s : State) (u : Nat) (p : Prog) : State :=
  if u = 64 && s.beat.lastLoad = some s.beatNow && s.trg.cmbNext = s.beatNow then
    (s.setUnit u ((s.trgUnit u).begin p s.beatNow (s.swapDepth u))).wr F.TRG_CMB_STATE.LEVEL 0 p.depth
  else s.setUnit u ((s.trgUnit u).begin p s.beatNow (s.swapDepth u))

/-- The swap registers of a unit return to zero, its epoch advances, and the armed menu's id becomes the active one. -/
def State.swapRegs (s : State) (u : Nat) : State :=
  let t := ((s.wr F.TRG_UNIT_STATUS.ARMED u 0).bump F.TRG_UNIT_STATUS.ROLE_EPOCH u).wr F.TRG_UNIT_SWAP.S u 0
  (t.wr F.TRG_UNIT_MENU.ACTIVE_ID u (t.rd F.TRG_UNIT_MENU.ARMED_ID u)).wr F.TRG_UNIT_MENU.ARMED_ID u 0

theorem State.unitSwap_of_due {s : State} {u : Nat} {p : Prog} (hshadow : (s.trgUnit u).shadow = some p)
    (hdue : s.rd F.TRG_UNIT_SWAP.S u ≤ s.beatNow) : s.unitSwap u =
    ((((s.takeShadow u p).swapRegs u).when (u = 64) (·.maskSubs (s.trgUnit u).cur.prog p)).lookStatus).raise
      F.TRG_UNIT_STATUS.EVT_SWAP u := by
  simp only [State.unitSwap, hshadow]
  exact if_neg (Nat.not_lt.mpr hdue)

theorem State.trgUnit_takeShadow_self (s : State) (u : Nat) (p : Prog) :
    (s.takeShadow u p).trgUnit u = (s.trgUnit u).begin p s.beatNow (s.swapDepth u) := by
  unfold State.takeShadow
  split <;> exact s.trgUnit_setUnit_self u _

theorem State.trgUnit_takeShadow_of_ne (s : State) {u j : Nat} (p : Prog) (h : j ≠ u) :
    (s.takeShadow u p).trgUnit j = s.trgUnit j := by
  unfold State.takeShadow
  split <;> exact s.trgUnit_setUnit_of_ne _ h

theorem State.rd_takeShadow (s : State) (u : Nat) (p : Prog) {g : Field} (h : F.TRG_CMB_STATE.LEVEL.reg ≠ g.reg)
    (j : Nat) : (s.takeShadow u p).rd g j = s.rd g j := by
  unfold State.takeShadow
  split
  · exact State.rd_wr_of_reg _ _ h
  · rfl

section
variable (s : State) (u : Nat)

theorem State.swapRegs_trg : (s.swapRegs u).trg = s.trg := rfl

theorem State.armed_swapRegs : (s.swapRegs u).rd F.TRG_UNIT_STATUS.ARMED u = 0 := by
  unfold State.swapRegs
  rw [State.rd_wr_of_reg _ _ (by decide), State.rd_wr_of_reg _ _ (by decide), State.rd_wr_of_reg _ _ (by decide),
    State.bump, State.rd_wr_of_lo _ _ (by decide), State.rd_wr_self, Nat.zero_mod]

theorem State.roleEpoch_swapRegs : (s.swapRegs u).rd F.TRG_UNIT_STATUS.ROLE_EPOCH u =
    (s.rd F.TRG_UNIT_STATUS.ROLE_EPOCH u + 1) % 2 ^ 16 := by
  unfold State.swapRegs
  rw [State.rd_wr_of_reg _ _ (by decide), State.rd_wr_of_reg _ _ (by decide), State.rd_wr_of_reg _ _ (by decide),
    State.bump, State.rd_wr_self, State.rd_wr_of_lo _ _ (by decide)]
  rfl

theorem State.swapBeat_swapRegs : (s.swapRegs u).rd F.TRG_UNIT_SWAP.S u = 0 := by
  unfold State.swapRegs
  rw [State.rd_wr_of_reg _ _ (by decide), State.rd_wr_of_reg _ _ (by decide), State.rd_wr_self, Nat.zero_mod]

theorem State.activeId_swapRegs : (s.swapRegs u).rd F.TRG_UNIT_MENU.ACTIVE_ID u =
    s.rd F.TRG_UNIT_MENU.ARMED_ID u % 2 ^ 32 := by
  unfold State.swapRegs
  rw [State.rd_wr_of_lo _ _ (by decide), State.rd_wr_self, State.rd_wr_of_reg _ _ (by decide), State.bump,
    State.rd_wr_of_reg _ _ (by decide), State.rd_wr_of_reg _ _ (by decide)]
  rfl

theorem State.armedId_swapRegs : (s.swapRegs u).rd F.TRG_UNIT_MENU.ARMED_ID u = 0 := by
  unfold State.swapRegs
  rw [State.rd_wr_self, Nat.zero_mod]

end

/-- The fields that follow a swap: masked subscriptions, the look-ahead registers, and the swap's event bit. -/
def swapFollowers (u : Nat) : List RegKey :=
  [F.TRG_CNT0.SUB_MASKED.at, F.TRG_STATUS.LOOKAHEAD.at, F.TRG_UNIT_STATUS.EVT_SWAP.at u] ++
  (List.range 64).map (F.TRG_UNIT_STATUS.EVT_SUB_MASKED.at ·) ++ (List.range 64).map (F.TRG_UNIT_STATUS.LOOK.at ·)

theorem State.maskSubs_frame (s : State) (u : Nat) (old new : Prog) :
    Frame true [] (swapFollowers u) s (s.maskSubs old new) :=
  Frame.foldl _ (Frame.refl s) fun _ _ he h => Frame.ite h
    ((h.inc _ (by simp [swapFollowers])).raise
      (List.mem_append_left _ (List.mem_append_right _ (List.mem_map_of_mem he))))

theorem State.lookStatus_frame (s : State) (u : Nat) : Frame true [] (swapFollowers u) s s.lookStatus :=
  (Frame.foldl _ (Frame.refl s) fun _ _ he h => h.wr _ (List.mem_append_right _ (List.mem_map_of_mem he))).wr _
    (by simp)

theorem State.swapEnd_frame (s : State) (u : Nat) (old new : Prog) : Frame true [] (swapFollowers u) s
    (((s.when (u = 64) (·.maskSubs old new)).lookStatus).raise F.TRG_UNIT_STATUS.EVT_SWAP u) := by
  have hmask := (Frame.refl s).when (b := u = 64) (f := (·.maskSubs old new)) (s.maskSubs_frame u old new)
  have hlook := hmask.trans (State.lookStatus_frame _ u)
  exact hlook.raise (List.mem_append_left _ (List.mem_append_left _ (by simp)))

/-- The fields that `State.swapRegs` writes. -/
def swapFields : List Field :=
  [F.TRG_UNIT_STATUS.ARMED, F.TRG_UNIT_STATUS.ROLE_EPOCH, F.TRG_UNIT_SWAP.S, F.TRG_UNIT_MENU.ACTIVE_ID,
    F.TRG_UNIT_MENU.ARMED_ID]

theorem at_not_mem_swapFollowers (u : Nat) : ∀ f ∈ swapFields, evReg f.reg = false ∧ f.at u ∉ swapFollowers u := by
  simp [swapFields, swapFollowers, Field.at, evReg]

/-- What a due swap leaves of the units and of the swapped unit's registers. -/
theorem State.unitSwap_spec {s : State} {k : Nat} {p : Prog} (hshadow : (s.trgUnit k).shadow = some p)
    (hdue : s.rd F.TRG_UNIT_SWAP.S k ≤ s.beatNow) :
    (s.unitSwap k).trgUnit k = (s.trgUnit k).begin p s.beatNow (s.swapDepth k) ∧
    (∀ j, j ≠ k → (s.unitSwap k).trgUnit j = s.trgUnit j) ∧
    (∀ f ∈ swapFields, (s.unitSwap k).rd f k = ((s.takeShadow k p).swapRegs k).rd f k) ∧
    (s.unitSwap k).rd F.TRG_UNIT_STATUS.EVT_SWAP k = 1 := by
  rw [State.unitSwap_of_due hshadow hdue]
  have hend := ((s.takeShadow k p).swapRegs k).swapEnd_frame k (s.trgUnit k).cur.prog p
  have htrg := (hend.parts .trg List.not_mem_nil rfl).trans (State.swapRegs_trg _ k)
  have hunit := State.trgUnit_congr htrg
  refine ⟨(hunit k).trans (s.trgUnit_takeShadow_self k p), fun j hj => (hunit j).trans (s.trgUnit_takeShadow_of_ne p hj),
    fun f hf => ?_, State.rd_raise_self _ _ _ (by decide) rfl⟩
  obtain ⟨hev, hkey⟩ := at_not_mem_swapFollowers k f hf
  exact hend.regs f k (by simp [hev]) hkey

/-! ## Reading back (R154) -/

/-- A secure ring reads the active programmes of the units its bit map names. -/
theorem State.menuRead_of_active {s u : State} {r : Nat} {img : List (BitVec 8)} {units : List Nat}
    (hslice : s.ringSlice r = 0) (hunits : units = (List.range 65).filter (dget (s.desc r) 24 9).testBit)
    (hne : units ≠ []) (hmap : dget (s.desc r) 24 9 < 2 ^ 65) (hactive : (byteAt (s.desc r) 20).testBit 0 = false)
    (himg : img = menuImage (s.rd F.TRG_UNIT_MENU.ACTIVE_ID (units.headD 0))
      (((units.filter (· < 64)).map (fun k => (s.trgUnit k).cur.prog.look)).foldl max 0)
      (units.flatMap (fun k => unitSections k (s.rd F.TRG_UNIT_STATUS.ROLE_EPOCH k) (s.trgUnit k).cur.prog)))
    (hfit : img.length ≤ dget (s.desc r) 16 4) (hwrite : s.cmdWrite r 5 (dget (s.desc r) 8 8) img = (.done, u)) :
    s.menuRead r = u.finish r csOK img.length := by
  obtain ⟨k, l, rfl⟩ := List.exists_cons_of_ne_nil hne
  refine (if_neg (by simp [hslice])).trans ((if_neg ?_).trans ?_)
  · rw [← hunits]
    simpa [hactive] using hmap
  · simp only [hactive, ← hunits, Bool.false_eq_true, if_false, Option.map_some, List.filterMap_eq_map',
      List.filter_map, List.map_map, List.flatMap_map, Function.comp_def]
    rw [List.headD_cons] at himg
    rw [← himg, if_neg (by omega), hwrite]

/-- Settles O21: the checks of a load and of a read pass, and a swap's writes are read back through what follows it. -/
theorem menusLoadSwapAndReadBack : Obligations.MenusLoadSwapAndReadBack := by
  refine ⟨fun s u r img hready hcmd hrange hlen hread hepoch hmine hgood => ⟨_, _, rfl, rfl, ?load⟩,
    fun s k p hk hruns hshadow hdue => ⟨_, exec_unitSwap hruns hk, ?swap⟩,
    fun s u r img units hready hcmd hslice hunits hne hmap hactive himg hfit hwrite => ?read⟩
  case load =>
    rw [exec_trgMenuLoad hready hcmd, State.menuLoad_of_good hrange hlen hread hepoch hmine hgood]
    rfl
  case swap =>
    obtain ⟨hself, hothers, hregs, hevent⟩ := State.unitSwap_spec hshadow hdue
    simp only [swapFields, List.forall_mem_cons] at hregs
    obtain ⟨harmed, hepoch, hswap, hactive, harmedId, -⟩ := hregs
    refine ⟨⟨_, hself⟩, hothers, ?_, ?_, ?_, ?_, ?_, hevent⟩
    · rw [harmed, State.armed_swapRegs]
    · rw [hepoch, State.roleEpoch_swapRegs, State.rd_takeShadow _ _ _ (by decide)]
    · rw [hswap, State.swapBeat_swapRegs]
    · rw [hactive, State.activeId_swapRegs, State.rd_takeShadow _ _ _ (by decide)]
    · rw [harmedId, State.armedId_swapRegs]
  case read =>
    rw [exec_trgMenuRead hready hcmd, State.menuRead_of_active hslice hunits hne hmap hactive himg hfit hwrite]

end Sys2Proof.Machine
end

section
/-!
SUPPORT. Trigger outputs: TRIG_OUT is driven and let go, a pulse ends, and BUSY_OUT_N follows BUSY (R161, R162, R172).
-/

namespace Sys2Proof.Machine

theorem exec_trigDrvWrite (src : Src) (on : Bool) (s : State) :
    exec (.trigDrvWrite src on) s = .next (s.withReg src .TIO_OUT_CTL 0 (·.trigDrv on)) := rfl

theorem exec_busyDrvWrite (src : Src) (on : Bool) (s : State) :
    exec (.busyDrvWrite src on) s = .next (s.withReg src .TIO_OUT_CTL 0 (·.busyDrv on)) := rfl

section
variable {s : State} (hruns : s.beatRuns = true)
include hruns

theorem exec_trigDrvApply : exec .trigDrvApply s = .next s.trigDrvApply := congrArg _ (if_pos hruns)

theorem exec_trigPulseEnd (hdriven : s.tio.trigOut ≠ none) :
    exec .trigPulseEnd s = .next { s with tio := { s.tio with trigOut := some s.tio.raised } } :=
  congrArg _ (if_pos (by simp [hruns, Option.isSome_iff_ne_none.mpr hdriven]))

theorem exec_busyHoldExpire : exec .busyHoldExpire s = .next s.busyReady := congrArg _ (if_pos hruns)

end

theorem State.is_wr_b2n_self (s : State) {f : Field} (i : Nat) (b : Bool) (hw : f.w = 1) :
    (s.wr f i (b2n b)).is f i = b := by
  rw [State.is, State.rd_wr_self, hw]
  cases b <;> rfl

theorem State.is_wr_of_reg (s : State) {f g : Field} {i j : Nat} (v : Nat) (h : f.reg ≠ g.reg) :
    (s.wr f i v).is g j = s.is g j := congrArg (· != 0) (s.rd_wr_of_reg v h)

section
variable {s : State}

theorem State.trigDrv_off : s.trigDrv false =
    { s.wr F.TIO_OUT_CTL.TRIG_DRV 0 0 with tio := { s.tio with trigOut := none, raised := 0, drvWait := none } } := rfl

theorem State.trigDrv_on_of_not_driven (hout : s.tio.trigOut = none) (hwait : s.tio.drvWait = none) : s.trigDrv true =
    { s.wr F.TIO_OUT_CTL.TRIG_DRV 0 1 with tio := { s.tio with drvWait := some s.beat.edges } } :=
  if_neg (by simp [hout, hwait])

theorem State.trigDrvApply_of_due {n : Nat} (hwait : s.tio.drvWait = some n) (hn : n < s.beat.edges) : s.trigDrvApply =
    { s with tio := { s.tio with drvWait := none, trigOut := some 0, raised := 0 } } := by
  simp only [State.trigDrvApply, hwait, if_pos hn]

theorem State.busyDrv_eq (s : State) (on : Bool) : s.busyDrv on = { s.wr F.TIO_OUT_CTL.BUSY_DRV 0 (b2n on) with
    tio := { s.tio with busyOut := if on then some (s.is F.TIO_STATUS.BUSY) else none } } := by
  rw [State.busyDrv, State.busyPin, State.is_wr_b2n_self _ _ _ rfl, State.is_wr_of_reg _ _ (by decide), State.wr_tio]

/-- The causes of BUSY, and the hold that outlasts them (R172). -/
def busyCauses : List Field := [F.TIO_STATUS.C_RUN, F.TIO_STATUS.C_BEAT, F.TIO_STATUS.C_EVB, F.TIO_STATUS.C_BUSY_IN,
  F.TIO_STATUS.C_FORCE, F.TIO_STATUS.C_HOLD]

theorem State.busyReady_of_no_cause (h : ∀ f ∈ busyCauses, s.is f = false) : s.busyReady =
    { s.wr F.TIO_STATUS.BUSY 0 0 with
      tio := { s.tio with busyOut := if s.is F.TIO_OUT_CTL.BUSY_DRV then some false else none } } := by
  have hready : (s.wr F.TIO_STATUS.BUSY 0 0).is F.TIO_STATUS.BUSY = false := s.is_wr_b2n_self 0 false rfl
  refine (if_neg (by simpa [busyCauses] using h)).trans ?_
  rw [State.busyPin, hready, State.is_wr_of_reg _ _ (by decide), State.wr_tio]

end

/-- Settles O22: a write reaches TIO_OUT_CTL, a running beat takes each command, and the lines' condition or the causes of
BUSY pick its effect. -/
theorem triggerOutputsAndBusy : Obligations.TriggerOutputsAndBusy := by
  refine ⟨fun s src h => ⟨?release, fun hout hwait => ?wait, ?drive, ?letGo⟩, fun s hruns => ⟨fun n hwait hn => ?low,
    fun hdriven => exec_trigPulseEnd hruns hdriven, fun hrun hbeat hevb hin hforce hhold => ?ready⟩⟩
  case release => rw [exec_trigDrvWrite, State.withReg_of_takes h, State.trigDrv_off]
  case wait => rw [exec_trigDrvWrite, State.withReg_of_takes h, State.trigDrv_on_of_not_driven hout hwait]
  case drive =>
    rw [exec_busyDrvWrite, State.withReg_of_takes h, State.busyDrv_eq]
    rfl
  case letGo =>
    rw [exec_busyDrvWrite, State.withReg_of_takes h, State.busyDrv_eq]
    rfl
  case low => rw [exec_trigDrvApply hruns, State.trigDrvApply_of_due hwait hn]
  case ready =>
    rw [exec_busyHoldExpire hruns,
      State.busyReady_of_no_cause (by simp [busyCauses, hrun, hbeat, hevb, hin, hforce, hhold])]

end Sys2Proof.Machine
end

section
/-!
SUPPORT. External inputs: their edges, their enables, and what watches them for stuck and chattering levels (R163 to R169).
-/

namespace Sys2Proof.Machine

section
variable {s : State} {k : Nat} (hk : k < 24)
include hk

theorem exec_tioInputEdge (hlive : s.beatLive = true) (hheld : s.held = false) (level : Bool) (beat : Nat) :
    exec (.tioInputEdge k level beat) s = .next (s.inputEdge k level beat) :=
  congrArg _ (if_pos (by simp [hk, hlive, hheld]))

theorem exec_stuckDetect (hlive : s.beatLive = true) (hheld : s.held = false) :
    exec (.stuckDetect k) s = .next (s.stuck k) := congrArg _ (if_pos (by simp [hk, hlive, hheld]))

theorem exec_chatterWindow (hlive : s.beatLive = true) (hheld : s.held = false) :
    exec (.chatterWindow k) s = .next (s.chatterWindow k) := congrArg _ (if_pos (by simp [hk, hlive, hheld]))

theorem exec_tioInEnWrite (src : Src) (on : Bool) :
    exec (.tioInEnWrite src k on) s = .next (s.withReg src .TIO_IN_CFG k (·.inEn k on)) := congrArg _ (if_pos hk)

theorem exec_tioInEnApply (hruns : s.beatRuns = true) : exec (.tioInEnApply k) s = .next (s.inEnApply k) :=
  congrArg _ (if_pos (by simp [hk, hruns]))

theorem exec_rearm (src : Src) : exec (.rearm src k) s = .next (s.withReg src .TIO_IN_CTL k (·.rearm k)) :=
  congrArg _ (if_pos hk)

end

section
variable {s : State} {k : Nat}

/-! ## Edges (R164) -/

theorem State.inputEdge_of_repeated (s : State) (k beat : Nat) :
    s.inputEdge k (s.is F.TIO_IN_STATUS.LEVEL k) beat = s := if_pos (beq_self_eq_true _)

/-- The record of beat `b` after input `k` rose within `beat`. -/
def BeatRec.risen (k beat b : Nat) (r : BeatRec) : BeatRec := if b < beat then r else
  { r with level := setBit r.level k, rise := if b = beat then setBit r.rise k else r.rise }

/-- An input that is not enabled is not honoured. -/
theorem State.honour_of_disabled (hen : s.tio.en.testBit k = false) : s.honour k = s.wr F.TIO_IN_STATUS.HONOURED k 0 := by
  rw [State.honour, hen, Bool.and_false, Bool.false_and]
  rfl

theorem State.inputEdge_of_disabled_rise (hlevel : s.is F.TIO_IN_STATUS.LEVEL k = false)
    (hen : s.tio.en.testBit k = false) (beat : Nat) : s.inputEdge k true beat =
    State.wr { s.wr F.TIO_IN_STATUS.LEVEL k 1 with
      tio := { s.tio with recs := Tbl.mapVals s.tio.recs (BeatRec.risen k beat) } } F.TIO_IN_STATUS.HONOURED k 0 := by
  refine (if_neg (by simp [hlevel])).trans ?_
  simp only [State.wr_tio, hen, if_true, Bool.false_eq_true, if_false]
  exact State.honour_of_disabled hen

/-! ## Enables (R165) -/

/-- Only a write of the beat unit's state changes it. -/
theorem State.beatUnit_wr_of_reg (s : State) {f : Field} (i v : Nat) (h : f.reg ≠ .BEAT_STATUS) :
    (s.wr f i v).beatUnit = s.beatUnit := s.rd_wr_of_reg v h

theorem State.inEn_on_of_running (hen : s.tio.en.testBit k = false) (hunit : s.beatUnit ≠ buSTOPPED) : s.inEn k true =
    { s.wr F.TIO_IN_CFG.EN k 1 with tio := { s.tio with enWait := Tbl.put s.tio.enWait k s.beat.edges } } :=
  (if_neg (by simp [hen])).trans (if_neg (mt (Eq.trans (s.beatUnit_wr_of_reg k _ (by decide)).symm) hunit))

theorem State.inEn_on_of_stopped (hen : s.tio.en.testBit k = false) (hunit : s.beatUnit = buSTOPPED) : s.inEn k true =
    (s.wr F.TIO_IN_CFG.EN k 1).enApply k :=
  (if_neg (by simp [hen])).trans (if_pos ((s.beatUnit_wr_of_reg k _ (by decide)).trans hunit))

theorem State.inEnApply_of_due {n : Nat} (hwait : Tbl.find s.tio.enWait k = some n) (hn : n < s.beat.edges) :
    s.inEnApply k = s.enApply k := by
  simp only [State.inEnApply, hwait, if_pos hn]

/-! ## Stuck and chattering inputs (R166 to R169) -/

theorem State.stuck_of_high (hen : s.tio.en.testBit k = true) (hlevel : s.is F.TIO_IN_STATUS.LEVEL k = true)
    (hstuck : s.is F.TIO_IN_STATUS.STUCK k = false) : s.stuck k =
    (((s.wr F.TIO_IN_STATUS.STUCK k 1).raise F.TIO_IN_STATUS.EVT_STUCK k).inc F.TIO_IN_CNT.STUCKS k).maskInput k :=
  if_neg (by simp [hen, hlevel, hstuck])

/-- The next window counts its transitions from zero (R167). -/
def State.windowStart (s : State) (k : Nat) : State := { s with tio := { s.tio with trans := Tbl.erase s.tio.trans k } }

/-- A window within the limit clears CHATTER; a limit of 0 does so only without a transition (log 40). -/
theorem State.chatterWindow_of_le_limit (hen : s.tio.en.testBit k = true)
    (hle : Tbl.get s.tio.trans k 0 ≤ s.rd F.TIO_IN_CFG.CHAT_LIM k) : s.chatterWindow k =
    ((s.windowStart k).flagClear F.TIO_IN_STATUS.CHATTER k).honour k :=
  (if_neg (by simp [hen])).trans (if_pos hle)

/-- A window above the limit sets CHATTER, counts it, and masks an EXT_TRIG_IN input. -/
theorem State.chatterWindow_of_exceeded (hen : s.tio.en.testBit k = true) (hext : 16 ≤ k)
    (hlim : s.rd F.TIO_IN_CFG.CHAT_LIM k ≠ 0) (hlt : s.rd F.TIO_IN_CFG.CHAT_LIM k < Tbl.get s.tio.trans k 0)
    (hchat : s.is F.TIO_IN_STATUS.CHATTER k = false) : s.chatterWindow k =
    (((((s.windowStart k).wr F.TIO_IN_STATUS.CHATTER k 1).raise F.TIO_IN_STATUS.EVT_CHATTER k).inc
      F.TIO_IN_CNT.CHATTERS k).maskInput k).honour k := by
  refine (if_neg (by simp [hen])).trans ((if_neg (Nat.not_le.mpr hlt)).trans
    ((if_neg (by simpa [hlim, State.is] using hchat)).trans ?_))
  exact congrArg (fun t => (State.maskInput t k).honour k) (if_neg (Nat.not_lt.mpr hext))

theorem State.rearm_of_quiet (hext : 16 ≤ k) (hstuck : s.is F.TIO_IN_STATUS.STUCK k = false)
    (hchat : s.is F.TIO_IN_STATUS.CHATTER k = false) (hlevel : s.is F.TIO_IN_STATUS.LEVEL k = false) :
    s.rearm k = s.wr F.TIO_IN_STATUS.MASKED k 0 :=
  if_neg (by simp [hext, hstuck, hchat, hlevel])

end

/-- Settles O23: each command reaches its input, and the input's enable, level, flags and count of transitions pick its
effect; a window within CHAT_LIM clears CHATTER also where CHAT_LIM is 0 (log 40). -/
theorem externalInputsAreWatched : Obligations.ExternalInputsAreWatched := by
  refine ⟨fun s k hk hlive hheld => ⟨fun beat => ?repeated, fun beat hlevel hen => ?rise,
      fun hen hlevel hstuck => ?stuck, fun hen hle => ?within, fun hen hext hlim hlt hchat => ?exceeded⟩,
    fun s src k hk h => ⟨fun hen hunit => ?wait, fun hen hunit => ?atOnce⟩, fun s k n hk hruns hwait hn => ?apply,
    fun s src k hext hk h hstuck hchat hlevel => ?rearm⟩
  case repeated => rw [exec_tioInputEdge hk hlive hheld, State.inputEdge_of_repeated]
  case rise =>
    rw [exec_tioInputEdge hk hlive hheld, State.inputEdge_of_disabled_rise hlevel hen]
    rfl
  case stuck => rw [exec_stuckDetect hk hlive hheld, State.stuck_of_high hen hlevel hstuck]
  case within => rw [exec_chatterWindow hk hlive hheld, State.chatterWindow_of_le_limit hen hle, State.windowStart]
  case exceeded =>
    rw [exec_chatterWindow hk hlive hheld, State.chatterWindow_of_exceeded hen hext hlim hlt hchat, State.windowStart]
  case wait => rw [exec_tioInEnWrite hk, State.withReg_of_takes h, State.inEn_on_of_running hen hunit]
  case atOnce => rw [exec_tioInEnWrite hk, State.withReg_of_takes h, State.inEn_on_of_stopped hen hunit]
  case apply => rw [exec_tioInEnApply hk hruns, State.inEnApply_of_due hwait hn]
  case rearm => rw [exec_rearm hk, State.withReg_of_takes h, State.rearm_of_quiet hext hstuck hchat hlevel]

end Sys2Proof.Machine
end

section
/-!
SUPPORT. The event builder: history rings open, accepts get contexts, and events are assembled, given pool space, copied and
posted (R176 to R197).
-/

namespace Sys2Proof.Machine

theorem exec_histRingEnable {n : Nat} (hn : n < 192) (src : Src) (v : Nat) (s : State) :
    exec (.histRingEnable src n v) s = .next (s.withReg src .EVB_HIST_CFG n (·.histCfg n v)) := congrArg _ (if_pos hn)

section
variable {s : State} (hlive : s.evbLive = true) (hheld : s.held = false)
include hlive hheld

theorem exec_contextAllocate : exec .contextAllocate s = .next s.ctxAllocate :=
  congrArg _ (if_pos (by simp [hlive, hheld]))

theorem exec_assemblyTimeout (c : Nat) : exec (.assemblyTimeout c) s = .next (s.assemblyTimeout c) :=
  congrArg _ (if_pos (by simp [hlive, hheld]))

theorem exec_eventCopy : exec .eventCopy s = .next s.eventCopy := congrArg _ (if_pos (by simp [hlive, hheld]))

theorem exec_poolAllocate {p : Nat} (hp : p < 8) : exec (.poolAllocate p) s = .next (s.poolAllocate p) :=
  congrArg _ (if_pos (by simp [hlive, hheld, hp]))

theorem exec_eventCopyDone (c : Nat) : exec (.eventCopyDone c) s = .next (s.copyDone c) :=
  congrArg _ (if_pos (by simp [hlive, hheld]))

theorem exec_eventPost (c : Nat) : exec (.eventPost c) s = .next (s.eventPost c) :=
  congrArg _ (if_pos (by simp [hlive, hheld]))

end

/-! ## History rings (R10, R176) -/

theorem State.legal_of_ok (s : State) {f : Field} {v : Nat} (i : Nat) (h : f.enc.ok v = true) : s.legal f i v = v := if_pos h

/-- The registers of a history ring that opens: nothing is written yet, and HW is one beat before the count. -/
def State.histOpened (s : State) (n size : Nat) : State :=
  (((s.wr F.EVB_HIST_CFG.SIZE n size).wr F.EVB_HIST_CFG.EN n 1).wr F.EVB_HIST_WPTR.WPTR n 0).wr F.EVB_HIST_HW.HW n
    (beatAdd s.beatNow (-1))

/-- A ring that opens starts without anchors (log 41). -/
theorem State.histCfg_of_opened {s : State} {n v : Nat} (hen : s.is F.EVB_HIST_CFG.EN n = false) (hon : v.testBit 0 = true)
    (hsize : F.EVB_HIST_CFG.SIZE.enc.ok (bits v 4 5) = true)
    (halign : s.rd F.EVB_HIST_BASE.BASE n * 2 ^ 20 % 2 ^ bits v 4 5 = 0)
    (hplates : s.normalRange (s.rd F.EVB_HIST_BASE.BASE n * 2 ^ 20) (2 ^ bits v 4 5) = true) : s.histCfg n v =
    (s.histOpened n (bits v 4 5)).setLane n { (s.histOpened n (bits v 4 5)).lane n with anchors := [] } := by
  have hnow : ((s.wr F.EVB_HIST_CFG.SIZE n (bits v 4 5)).wr F.EVB_HIST_CFG.EN n 1).beatNow = s.beatNow :=
    (State.beatNow_wr_of_reg _ _ _ (by decide)).trans (s.beatNow_wr_of_reg _ _ (by decide))
  have hfits : (s.rd F.EVB_HIST_BASE.BASE n * 2 ^ 20 % 2 ^ bits v 4 5 ≠ 0 ||
      !s.normalRange (s.rd F.EVB_HIST_BASE.BASE n * 2 ^ 20) (2 ^ bits v 4 5)) = false := by
    rw [halign, hplates]
    rfl
  rw [State.histOpened, ← hnow]
  simp only [State.histCfg, hen, hon, s.legal_of_ok n hsize, hfits]
  rfl

/-! ## Contexts and assembly (R182, R185) -/

section
variable {s u v : State} {c : Nat} {e : Event}

theorem State.ctxAllocate_of_waiting {a : Accept} {l : List Accept} (hfifo : s.evb.fifo = a :: l)
    (htake : s.takeCtx = some (c, u)) :
    s.ctxAllocate = (State.openEvent { u with evb := { u.evb with fifo := l } } a c).evbSettle := by
  simp only [State.ctxAllocate, hfifo, htake]

theorem State.assemblyTimeout_of_assembling (hevent : (s.assemble c).event c = some e) (hstage : e.stage = .assembling) :
    s.assemblyTimeout c =
      ((s.assemble c).setEvent c { (s.assemble c).endFrags e 8 with timeout := true }).readyCheck c := by
  simp only [State.assemblyTimeout, hevent]
  exact if_neg (by simp [hstage])

/-! ## Copying (R186 to R194) -/

/-- An event with the entries of each of its fragments located, lanes in their rings and guests in what they sent. -/
def State.locateFrags (s : State) (e : Event) : Event :=
  { e with frags := e.frags.map (fun f => if f.source < 256 then s.locate e.acc f else f.locateGuest) }

/-- A free engine takes the oldest ready event; busy are those whose event is counted or allocated (log 44). -/
theorem State.eventCopy_of_engine_free (holdest : s.oldestReady = some (c, e)) (hengines : s.enginesBusy < 32) :
    s.eventCopy = (s.setEvent c { s.locateFrags e with stage := .counted, length := (s.locateFrags e).size }).setPool e.acc.pool
      { s.pool e.acc.pool with waiting := (s.pool e.acc.pool).waiting ++ [c] } := by
  simp only [State.eventCopy, holdest, State.locateFrags, if_neg (Nat.not_le.mpr hengines)]

/-- The oldest request leaves its pool's queue with `n` bytes at `off`, its record taking `bytes` of the pool. -/
def State.poolTaken (s : State) (p off n bytes : Nat) (l : List Nat) (c epoch : Nat) : State :=
  s.setPool p { s.pool p with
    waiting := l, tail := off + n, recs := (s.pool p).recs ++ [PoolRec.mk off bytes c epoch false] }

theorem State.poolAllocate_of_fit {p off bytes : Nat} {l : List Nat} (hwaiting : (s.pool p).waiting = c :: l)
    (hen : s.is F.EVB_POOL_CFG.EN p = true) (hevent : s.event c = some e)
    (hfit : s.poolFit p ((e.length + 255) / 256 * 256) = some (off, bytes))
    (hu : u = s.poolTaken p off ((e.length + 255) / 256 * 256) bytes l c e.epoch) : s.poolAllocate p =
    (u.setEvent c { e with stage := .allocated, addr := u.rd F.EVB_POOL_BASE.BASE p * 2 ^ 30 + off }).evbSettle := by
  subst hu
  simp only [State.poolAllocate, hwaiting, hen, hevent, hfit, State.poolTaken, Bool.not_true, Bool.false_eq_true, if_false]

/-- An event is copied once no line has to wait; poisoned and refused lines do not hold it up (R188). -/
theorem State.copyDone_of_written {e' : Event} {fs : List Frag} {w : Denial} (hevent : s.event c = some e)
    (hstage : e.stage = .allocated) (hcopy : s.copyFrags e.frags = (some fs, u))
    (he' : e' = { e with frags := fs, stage := .copied }) (hwrite : u.devWrite 2 false e.addr (e'.record c) false = (w, v))
    (hdone : w ≠ .busy) : s.copyDone c =
    if e'.flagByte.testBit 7 then (v.setEvent c e').inc F.EVB_ROUTE_CNT.DEGRADED e.acc.ttype else v.setEvent c e' := by
  subst he'
  simp only [State.copyDone, hevent, hcopy, hwrite]
  refine (if_neg (by simp [hstage])).trans ?_
  cases w with
  | busy => exact absurd rfl hdone
  | _ => rfl

/-! ## Posting (R195, R197) -/

/-- An event with a queue keeps it. -/
theorem State.eventPost_of_chosen {q : Nat} (hevent : s.event c = some e) (hstage : e.stage = .copied)
    (hqueue : e.queue = some q) : s.eventPost c = s.postTo c e q := by
  simp only [State.eventPost, State.chooseQueue, hevent, hqueue]
  exact if_neg (by simp [hstage])

theorem State.postTo_of_room {q : Nat} {w : Denial}
    (hroom : (s.rd F.EVB_EVQ_IDX.PI q + 65536 - s.rd F.EVB_EVQ_IDX.CI q) % 65536 < 2 ^ s.rd F.EVB_EVQ_CFG.QSIZE q)
    (hfirst : ∀ x ∈ s.evb.events, x.2.queue = some q → x.2.stage = .copied → e.chosen ≤ x.2.chosen)
    (hwrite : s.devWrite 2 false (s.rd F.EVB_EVQ_BASE.BASE q +
      32 * (s.rd F.EVB_EVQ_IDX.PI q % 2 ^ s.rd F.EVB_EVQ_CFG.QSIZE q)) (s.queueDesc c e q) false = (w, v))
    (hdone : w ≠ .busy) : s.postTo c e q =
    (((((v.setEvent c { e with stage := .posted }).setQueued q (v.queuedOf q ++ [c])).bump F.EVB_EVQ_IDX.PI q).inc
      F.EVB_CNT1.POSTED).inc F.EVB_ROUTE_EV.POSTED e.acc.ttype).evbSettle := by
  have hnone : s.evb.events.any
      (fun x => x.2.queue == some q && x.2.stage == EvStage.copied && x.2.chosen < e.chosen) = false := by
    refine List.any_eq_false.mpr fun x hx h => ?_
    simp only [Bool.and_eq_true, beq_iff_eq, decide_eq_true_eq] at h
    obtain ⟨⟨hqueue, hstage⟩, hlt⟩ := h
    exact absurd (hfirst x hx hqueue hstage) (Nat.not_le.mpr hlt)
  simp only [State.postTo, hnone, hwrite]
  refine (if_neg (by simpa using hroom)).trans ?_
  cases w with
  | busy => exact absurd rfl hdone
  | _ => rfl

end

/-- Settles O24: each command reaches the builder, and its conditions pick the one branch that acts; the enable empties the
lane's anchors (log 41), and the engines at work are those counted or allocated (log 44). -/
theorem eventsAreAssembledAndCopied : Obligations.EventsAreAssembledAndCopied := by
  refine ⟨fun s src n v hn h hen hon hsize halign hplates => ⟨_, rfl, ?enable⟩,
    fun s u a l c hlive hheld hfifo htake => ?context, fun s c e hlive hheld hevent hstage => ?timeout,
    fun s c e e' hlive hheld holdest hengines he' => ?copy,
    fun s p c off bytes l e hlive hheld hp hwaiting hen hevent hfit => ⟨_, rfl, ?pool⟩,
    fun s u v c e e' fs w hlive hheld hevent hstage hcopy he' hwrite hdone => ?done,
    fun s v c q e w hlive hheld hevent hstage hqueue hroom hfirst hwrite hdone => ?post⟩
  case enable =>
    rw [exec_histRingEnable hn, State.withReg_of_takes h, State.histCfg_of_opened hen hon hsize halign hplates]
    rfl
  case context => rw [exec_contextAllocate hlive hheld, State.ctxAllocate_of_waiting hfifo htake]
  case timeout => rw [exec_assemblyTimeout hlive hheld, State.assemblyTimeout_of_assembling hevent hstage]
  case copy =>
    subst he'
    rw [exec_eventCopy hlive hheld, State.eventCopy_of_engine_free holdest hengines]
    rfl
  case pool =>
    rw [exec_poolAllocate hlive hheld hp, State.poolAllocate_of_fit hwaiting hen hevent hfit rfl]
    rfl
  case done =>
    rw [exec_eventCopyDone hlive hheld, State.copyDone_of_written hevent hstage hcopy he' hwrite hdone]
  case post =>
    rw [exec_eventPost hlive hheld, State.eventPost_of_chosen hevent hstage hqueue,
      State.postTo_of_room hroom hfirst hwrite hdone]

end Sys2Proof.Machine
end

section
/-!
SUPPORT. What the event builder is configured by and answers to: queues, pools and routes, doorbells, subscriptions, and
EVT_DELIVER (R189 to R201, R392, R411, R416).
-/

namespace Sys2Proof.Machine

theorem exec_evqCfgWrite {q : Nat} (hq : q < 1024) (src : Src) (v : Nat) (s : State) :
    exec (.evqCfgWrite src q v) s = .next (s.withReg src .EVB_EVQ_CFG q (·.evqCfg q v)) := congrArg _ (if_pos hq)

theorem exec_poolEnable {p : Nat} (hp : p < 8) (src : Src) (v : Nat) (s : State) :
    exec (.poolEnable src p v) s = .next (s.withReg src .EVB_POOL_CFG p (·.poolCfg p v)) := congrArg _ (if_pos hp)

theorem exec_routeCfgWrite {r which : Nat} (hr : r < 16) (hwhich : which < 5) (src : Src) (v : Nat) (s : State) :
    exec (.routeCfgWrite src r which v) s = .next (s.withReg src .EVB_ROUTE_CFG r (·.routeCfg r which v)) :=
  congrArg _ (if_pos (by simp [hr, hwhich]))

theorem exec_hifEvqDbWrite {q : Nat} (hq : q < 1024) (src : Src) (v : Nat) (s : State) :
    exec (.hifEvqDbWrite src q v) s = .next (s.withReg src .HIF_EVQ_DB q (·.evqDb q v)) := congrArg _ (if_pos hq)

theorem exec_evqDoorbell (db : DbSrc) (v : Nat) (s : State) : exec (.evqDoorbell db v) s = .next (s.queueDb db v) := rfl

section
variable {s : State} (hlive : s.evbLive = true)
include hlive

theorem exec_evbClearDone (hheld : s.held = false) (hready : s.is F.EVB_STATUS.READY = false) :
    exec .evbClearDone s = .next (s.wr F.EVB_STATUS.READY 0 1).evbSettle :=
  congrArg _ (if_pos (by simp [hlive, hheld, hready]))

theorem exec_bpAgeExpire (hheld : s.held = false) (c : Nat) : exec (.bpAgeExpire c) s = .next (s.bpAge c) :=
  congrArg _ (if_pos (by simp [hlive, hheld]))

variable {r : Nat}

theorem exec_evqSubscribe (hcmd : s.hasCmd r 0x2C = true) : exec (.evqSubscribe r) s = .next (s.subscribe r true) :=
  congrArg _ (if_pos (by simp [hlive, hcmd]))

theorem exec_evqUnsubscribe (hcmd : s.hasCmd r 0x2D = true) : exec (.evqUnsubscribe r) s = .next (s.subscribe r false) :=
  congrArg _ (if_pos (by simp [hlive, hcmd]))

theorem exec_evtDeliver (hcmd : s.hasCmd r 0x43 = true) : exec (.evtDeliver r) s = .next (s.evtDeliver r) :=
  congrArg _ (if_pos (by simp [hlive, hcmd]))

end

/-! ## Queues, pools and routes (R189, R193, R197, R416) -/

section
variable {s : State}

/-- A write that opens a queue and leaves its owner as it was. -/
theorem State.evqCfg_of_opened {q v : Nat} (hen : s.is F.EVB_EVQ_CFG.EN q = false) (hon : v.testBit 0 = true)
    (hsize : F.EVB_EVQ_CFG.QSIZE.enc.ok (bits v 4 4) = true) (howner : bits v 8 8 = s.rd F.EVB_EVQ_CFG.OWNER q)
    (halign : s.rd F.EVB_EVQ_BASE.BASE q % (32 * 2 ^ bits v 4 4) = 0)
    (hplates : s.normalRange (s.rd F.EVB_EVQ_BASE.BASE q) (32 * 2 ^ bits v 4 4) = true) : s.evqCfg q v =
    ((((s.wr F.EVB_EVQ_CFG.QSIZE q (bits v 4 4)).wr F.EVB_EVQ_CFG.EN q 1).bump F.EVB_EVQ_CFG.ROLE_EPOCH q).wr
      F.EVB_EVQ_IDX.PI q 0).wr F.EVB_EVQ_IDX.CI q 0 := by
  have hsame : bits v 8 8 = (s.wr F.EVB_EVQ_CFG.QSIZE q (bits v 4 4)).rd F.EVB_EVQ_CFG.OWNER q := by
    rw [howner, State.rd_wr_of_lo _ _ (by decide)]
  have hfits : (s.rd F.EVB_EVQ_BASE.BASE q % (32 * 2 ^ bits v 4 4) ≠ 0 ||
      !s.normalRange (s.rd F.EVB_EVQ_BASE.BASE q) (32 * 2 ^ bits v 4 4)) = false := by
    rw [halign, hplates]
    rfl
  simp only [State.evqCfg, hen, hon, s.legal_of_ok q hsize, hfits, if_neg (not_not.mpr hsame), Bool.false_eq_true, if_false]
  rfl

@[simp] theorem State.pool_wr (s : State) (f : Field) (i v p : Nat) : (s.wr f i v).pool p = s.pool p := rfl

/-- A pool that is enabled starts empty, head and tail at 0 (log 41). -/
theorem State.poolCfg_of_enabled {p v : Nat} (hen : s.is F.EVB_POOL_CFG.EN p = false) (hon : v.testBit 0 = true)
    (hsize : F.EVB_POOL_CFG.PLATES.enc.ok (bits v 4 12) = true)
    (hplates : s.normalRange (s.rd F.EVB_POOL_BASE.BASE p * 2 ^ 30) (bits v 4 12 * 2 ^ 30) = true) {u : State}
    (hu : u = (((s.wr F.EVB_POOL_CFG.PLATES p (bits v 4 12)).wr F.EVB_POOL_CFG.LOW p (bits v 32 16)).wr
      F.EVB_POOL_CFG.HIGH p (bits v 48 16)).wr F.EVB_POOL_CFG.EN p 1) :
    s.poolCfg p v = (u.setPool p { s.pool p with head := 0, tail := 0 }).evbSettle := by
  have hone : v % 2 = 1 := Nat.mod_two_eq_one_iff_testBit_zero.mpr hon
  subst hu
  simp only [State.poolCfg, hen, hon, s.legal_of_ok p hsize, hplates, hone, State.pool_wr, Bool.not_true, Bool.not_false,
    Bool.and_true, Bool.and_false, Bool.false_and, Bool.false_eq_true, if_true, if_false]

/-- A write of a route's timeout alone is judged by the fields that the route has (R189). -/
theorem State.routeCfg_timeout_of_fits {r v : Nat} (hok : F.EVB_ROUTE_TMO.TIMEOUT.enc.ok (bits v 0 20) = true)
    (hfits : routeFits (popCount (s.rd F.EVB_ROUTE_LANES.MASK (3 * r)) + popCount (s.rd F.EVB_ROUTE_LANES.MASK (3 * r + 1)) +
      popCount (s.rd F.EVB_ROUTE_LANES.MASK (3 * r + 2))) (popCount (s.rd F.EVB_ROUTE_CFG.GUEST r))
      (s.rd F.EVB_ROUTE_CFG.MAXENT r) = true) :
    s.routeCfg r 1 v = s.wr F.EVB_ROUTE_TMO.TIMEOUT r (bits v 0 20) := by
  rw [← s.legal_of_ok r hok]
  refine (if_neg (by simpa using hfits)).trans ?_
  rfl

/-- No other queue of the same owner has the doorbell that the write names. -/
theorem State.evqDb_of_distinct {q v : Nat} (hdistinct : ∀ k, k < 1024 → k ≠ q → s.is F.HIF_EVQ_DB.VALID k = true →
      s.rd F.HIF_EVQ_DB.DBI k = bits v 0 8 → s.rd F.EVB_EVQ_CFG.OWNER k ≠ s.rd F.EVB_EVQ_CFG.OWNER q) :
    s.evqDb q v = (s.wr F.HIF_EVQ_DB.DBI q (bits v 0 8)).wr F.HIF_EVQ_DB.VALID q (bits v 15 1) := by
  have hnone : (List.range 1024).any (fun k => k ≠ q && s.is F.HIF_EVQ_DB.VALID k &&
      s.rd F.HIF_EVQ_DB.DBI k == bits v 0 8 && s.rd F.EVB_EVQ_CFG.OWNER k == s.rd F.EVB_EVQ_CFG.OWNER q) = false := by
    refine List.any_eq_false.mpr fun k hk h => ?_
    simp only [Bool.and_eq_true, decide_eq_true_eq, beq_iff_eq] at h
    obtain ⟨⟨⟨hne, hvalid⟩, hdbi⟩, howner⟩ := h
    exact hdistinct k (List.mem_range.mp hk) hne hvalid hdbi howner
  exact if_neg (by rw [hnone, Bool.and_false]; exact Bool.false_ne_true)

theorem State.bpAge_of_unposted {c : Nat} {e : Event} (hevent : s.event c = some e) (hage : s.rd F.EVB_BP_CFG.BP_AGE ≠ 0)
    (hstage : e.stage ≠ .posted) : s.bpAge c = (s.setEvent c { e with aged := true }).evbSettle := by
  simp only [State.bpAge, hevent]
  exact if_pos (by simp [hage, hstage])

/-! ## Doorbells (R198, R392) -/

/-- A doorbell that the secure world writes in the window acts for slice 0. -/
theorem State.queueDb_window_secure {q : Nat} (hevb : s.evbLive = true) (hring : s.ringLive = true) (hheld : s.held = false)
    (hq : q < 1024) (v : Nat) : s.queueDb (.window .secure q) v = (s.dbServed 2).slicedQueue 0 q v :=
  (if_neg (by simp [hevb, hring, hheld])).trans (if_pos hq)

/-- Slice 0 may name every queue. -/
theorem State.slicedQueue_zero_of_enabled {q : Nat} (hen : s.is F.EVB_EVQ_CFG.EN q = true) (v : Nat) :
    s.slicedQueue 0 q v = s.queueDoorbell q v :=
  (if_neg (by simp)).trans (if_neg (by simp [hen]))

/-- The present epoch, and a CI that does not pass PI. -/
theorem State.queueDoorbell_of_current {q v : Nat} (hepoch : v / 65536 % 65536 = s.rd F.EVB_EVQ_CFG.ROLE_EPOCH q)
    (hle : (v % 65536 + 65536 - s.rd F.EVB_EVQ_IDX.CI q) % 65536 ≤
      (s.rd F.EVB_EVQ_IDX.PI q + 65536 - s.rd F.EVB_EVQ_IDX.CI q) % 65536) :
    s.queueDoorbell q v = (s.wr F.EVB_EVQ_IDX.CI q (v % 65536)).releaseQueue q
      ((v % 65536 + 65536 - s.rd F.EVB_EVQ_IDX.CI q) % 65536) :=
  (if_neg (not_not.mpr hepoch)).trans (if_neg (Nat.not_lt.mpr hle))

/-! ## Subscriptions (R195, R196) -/

theorem State.subscribe_of_checks {r : Nat} {sub : Bool} (h : s.subChecks r sub = none) : s.subscribe r sub =
    (s.setSubs (byteAt (s.desc r) 8) (if sub then s.subsOf (byteAt (s.desc r) 8) ++ [dget (s.desc r) 10 2]
      else (s.subsOf (byteAt (s.desc r) 8)).filter (· ≠ dget (s.desc r) 10 2))).finish r csOK := by
  simp only [State.subscribe, h]

/-! ## EVT_DELIVER (R411) -/

section
variable {r q : Nat}

/-- A secure ring that names an enabled queue by its present epoch, for 1 to 256 events, passes the checks. -/
theorem State.evtDeliver_of_checks (hdesc : q = dget (s.desc r) 8 2) (hq : q < 1024)
    (hepoch : dget (s.desc r) 10 2 = s.rd F.EVB_EVQ_CFG.ROLE_EPOCH q) (hslice : s.ringSlice r = 0)
    (hpos : 1 ≤ dget (s.desc r) 12 2) (hmax : dget (s.desc r) 12 2 ≤ 256) (hen : s.is F.EVB_EVQ_CFG.EN q = true) :
    s.evtDeliver r = s.deliverEvents r q := by
  subst hdesc
  have hne : dget (s.desc r) 12 2 ≠ 0 := by omega
  refine (if_neg (by omega)).trans ((if_neg (not_not.mpr hepoch)).trans ((if_neg (by simp [hslice])).trans (if_neg ?_)))
  simp [hne, hmax, hen]

theorem State.deliverEvents_of_empty (hempty : s.queuedOf q = []) :
    s.deliverEvents r q = s.finish r csOK 0 0 (s.rd F.EVB_EVQ_IDX.CI q) :=
  if_pos (by simp [hempty])

/-- The items that fit are read, written, and released (R198). -/
theorem State.deliverEvents_of_fit {sizes : List Nat} {k : Nat} {u v : State} {bytes : List (BitVec 8)} {poison : Bool}
    (hsizes : sizes = ((s.queuedOf q).take (dget (s.desc r) 12 2)).map s.itemOf)
    (hk : k = fitItems sizes (dget (s.desc r) 24 4)) (hpos : k ≠ 0)
    (hread : s.readItems r q ((s.queuedOf q).take k) 0 = (.ok (some (bytes, poison)), u))
    (hwrite : u.cmdWrite r 5 (dget (s.desc r) 16 8) bytes = (.done, v)) : s.deliverEvents r q =
    ((v.wr F.EVB_EVQ_IDX.CI q ((v.rd F.EVB_EVQ_IDX.CI q + k) % 65536)).releaseQueue q k).finish r
      (if poison then csPOISON else csOK) k bytes.length ((v.rd F.EVB_EVQ_IDX.CI q + k) % 65536) := by
  have hsome : sizes.isEmpty = false := by
    cases sizes with
    | nil => exact absurd hk hpos
    | cons => rfl
  simp only [State.deliverEvents, ← hsizes, ← hk, hread, hwrite, hsome]
  exact (if_neg Bool.false_ne_true).trans (if_neg hpos)

end

end

/-- Settles O25: each command reaches its block, and the checks it makes all pass; an enabled pool starts at 0 (log 41). -/
theorem eventQueuesPoolsAndRoutes : Obligations.EventQueuesPoolsAndRoutes := by
  refine ⟨fun s hlive hheld hready => exec_evbClearDone hlive hheld hready,
    fun s src q v hq h hen hon hsize howner halign hplates => ?queue,
    fun s src p v hp h hen hon hsize hplates => ⟨_, rfl, ?pool⟩, fun s src r v hr h hok hfits => ?route,
    fun s c e hlive hheld hevent hage hstage => ?age,
    fun s q v hq hevb hring hheld u hu hen hepoch hle => ?doorbell,
    fun s r hlive => ⟨fun hcmd hchecks => ?subscribe, fun hcmd hchecks => ?unsubscribe,
      fun q hcmd hdesc hq hepoch hslice hpos hmax hen => ?deliver⟩,
    fun s src q v hq h hdistinct => ?hostDoorbell⟩
  case queue =>
    rw [exec_evqCfgWrite hq, State.withReg_of_takes h, State.evqCfg_of_opened hen hon hsize howner halign hplates]
  case pool => rw [exec_poolEnable hp, State.withReg_of_takes h, State.poolCfg_of_enabled hen hon hsize hplates rfl]
  case route =>
    rw [exec_routeCfgWrite hr (by omega), State.withReg_of_takes h, State.routeCfg_timeout_of_fits hok hfits]
  case age => rw [exec_bpAgeExpire hlive hheld, State.bpAge_of_unposted hevent hage hstage]
  case doorbell =>
    subst hu
    rw [exec_evqDoorbell, State.queueDb_window_secure hevb hring hheld hq, State.slicedQueue_zero_of_enabled hen,
      State.queueDoorbell_of_current hepoch hle]
  case subscribe =>
    rw [exec_evqSubscribe hlive hcmd, State.subscribe_of_checks hchecks]
    rfl
  case unsubscribe =>
    rw [exec_evqUnsubscribe hlive hcmd, State.subscribe_of_checks hchecks]
    rfl
  case deliver =>
    have hexec : exec (.evtDeliver r) s = .next (s.deliverEvents r q) := by
      rw [exec_evtDeliver hlive hcmd, State.evtDeliver_of_checks hdesc hq hepoch hslice hpos hmax hen]
    refine ⟨fun hempty => ?_, fun sizes k u v bytes poison hsizes hk hne hread hwrite => ?_⟩
    · rw [hexec, State.deliverEvents_of_empty hempty]
    · rw [hexec, State.deliverEvents_of_fit hsizes hk hne hread hwrite]
  case hostDoorbell => rw [exec_hifEvqDbWrite hq, State.withReg_of_takes h, State.evqDb_of_distinct hdistinct]

end Sys2Proof.Machine
end

section
/-!
SUPPORT. What a guest site sends: trigger words, fragment chunks, and the completions of core accesses (R351 to R360).
-/

namespace Sys2Proof.Machine

section
variable {s : State} {g : Nat}

section
variable (hup : s.guestUp g = true)
include hup

theorem exec_gTrig (b w : Nat) : exec (.gTrig g b w) s = .next (s.guestTrig g b w) := congrArg _ (if_pos hup)

theorem exec_gFrag (evn off : Nat) (last : Bool) (data : List (BitVec 8)) :
    exec (.gFrag g evn off last data) s = .next (s.guestFrag g evn off last data) := congrArg _ (if_pos hup)

theorem exec_gCpl (tag status : Nat) (data : List (BitVec 8)) :
    exec (.gCpl g tag status data) s = .next (s.guestDone g tag status data) := congrArg _ (if_pos hup)

end

theorem exec_guestAccessTimeout (hg : g < 2) (hheld : s.held = false) (tag : Nat) :
    exec (.guestAccessTimeout g tag) s = .next (s.guestTimeout g tag) := congrArg _ (if_pos (by simp [hg, hheld]))

/-! ## Trigger words (R358, R359) -/

section
variable {b : Nat} (hopen : s.is F.STN_CFG.OPEN g = true) (htrig : s.is F.STN_CFG.TRIG_EN g = true)
include hopen htrig

/-- A word in its turn is held whole: TRIG_MASK applies when the path takes it (log 70). -/
theorem State.guestTrig_of_taken (hlater : (s.guest g).lastTrig.any (fun l => b ≤ l) = false) (hnear : b ≤ s.beatNow + 4096)
    (hload : s.beforeLoad b = false) (w : Nat) : s.guestTrig g b w =
    (s.setGuest g { s.guest g with
      lastTrig := some b, words := Tbl.put (s.guest g).words b (w % 2 ^ 64) }).stencilWord b :=
  (if_neg (by simp [hopen, htrig])).trans (if_neg (by simp only [hlater, hload]; simpa using hnear))

theorem State.guestTrig_of_dropped (hbad : s.beatNow + 4096 < b ∨ s.beforeLoad b = true ∨
      (s.guest g).lastTrig.any (fun l => b ≤ l) = true) (w : Nat) :
    s.guestTrig g b w = (s.inc F.STN_CNT1.TRIG_DROP g).raise F.STN_STATUS.EVT_TRIG_DROP g := by
  refine (if_neg (by simp [hopen, htrig])).trans (if_pos ?_)
  rcases hbad with hfar | hload | hearlier
  · simp [hfar]
  · simp only [hload, Bool.or_true]
  · simp only [hearlier, Bool.true_or]

end

/-! ## Fragments (R185, R360) -/

section
variable {off : Nat} {data : List (BitVec 8)} (hdata : (data.isEmpty || 256 < data.length || 65536 ≤ off) = false)
  (hopen : s.is F.STN_CFG.OPEN g = true) (hfrag : s.is F.STN_CFG.FRAG_EN g = true) (hlive : s.evbLive = true)
include hdata hopen hfrag hlive

/-- A chunk that no event under assembly waits for. -/
theorem State.guestFrag_of_stale {evn : Nat} (hnone : s.fragEvent g evn = none) (last : Bool) :
    s.guestFrag g evn off last data = (s.inc F.EVB_CNT2.GUEST_STALE).raise F.EVB_STATUS.EVT_GUEST_STALE := by
  simp only [State.guestFrag, hdata, hopen, hfrag, hlive, hnone]
  rfl

/-- A chunk within 65,536 bytes enters the fragment that the named event waits for. -/
theorem State.guestFrag_of_owed {evn c : Nat} {e : Event} (hsome : s.fragEvent g evn = some (c, e))
    (hfit : 256 * off + data.length ≤ 65536) (last : Bool) : s.guestFrag g evn off last data =
    ((s.setEvent c { e with
      frags := e.frags.map (fun f => if f.source = 256 + g then f.take off last data else f) }).readyCheck c).evbSettle := by
  simp only [State.guestFrag, hdata, hopen, hfrag, hlive, hsome, if_neg (Nat.not_lt.mpr hfit)]
  rfl

end

/-! ## Core accesses to a guest (R357) -/

section
variable {a : GuestAccess} (haccess : (s.guest g).access = [a])
include haccess

/-- The one access in flight is answered: a load's core gets the data, or a fault unless the status is OK. -/
theorem State.guestDone_of_access (status : Nat) (data : List (BitVec 8)) : s.guestDone g a.tag status data =
    if a.write then s.setGuest g { s.guest g with access := [] }
    else (s.setGuest g { s.guest g with access := [] }).ioDone a.core (if status = 0 then some data else none) := by
  simp [State.guestDone, haccess]

/-- The one access in flight has gone without an answer: a load faults, and a write stays in flight as late (log 70). -/
theorem State.guestTimeout_of_access (hlate : a.late = false) {u : State}
    (hu : u = (s.inc F.STN_CNT1.TMO g).raise F.STN_STATUS.EVT_TMO g) : s.guestTimeout g a.tag =
    if a.write then u.setGuest g { u.guest g with access := [{ a with late := true }] }
    else (u.setGuest g { u.guest g with access := [] }).ioDone a.core none := by
  subst hu
  simp [State.guestTimeout, haccess, hlate]

end

theorem State.guestDone_of_no_access (haccess : (s.guest g).access = []) (tag status : Nat) (data : List (BitVec 8)) :
    s.guestDone g tag status data = s.inc F.STN_CNT1.BAD_MSG g := by
  simp only [State.guestDone, haccess, List.find?_nil]
  rfl

end

/-- Settles O40: the port's gates let each message through, and the beat, the named event or the access in flight picks its
effect; a word is stored unmasked and a write that timed out stays late (log 70). -/
theorem guestsSendTriggersAndFragments : Obligations.GuestsSendTriggersAndFragments := by
  refine ⟨fun s g b w hup hopen htrig => ⟨fun hlater hnear hload => ?taken, fun hbad => ?dropped⟩,
    fun s g evn off last data hup hne hlen hoff hopen hfrag hlive => ?chunk,
    fun s g tag status data hup => ⟨fun haccess => ?stray, fun a haccess htag => ⟨_, rfl, ?answer⟩⟩,
    fun s u g a hg hheld haccess hlate hu => ?timeout⟩
  case taken => rw [exec_gTrig hup, State.guestTrig_of_taken hopen htrig hlater hnear hload]
  case dropped => rw [exec_gTrig hup, State.guestTrig_of_dropped hopen htrig hbad]
  case chunk =>
    have hdata : (data.isEmpty || 256 < data.length || 65536 ≤ off) = false := by simp [hne, hlen, hoff]
    refine ⟨fun hnone => ?_, fun c e hsome hfit => ?_⟩
    · rw [exec_gFrag hup, State.guestFrag_of_stale hdata hopen hfrag hlive hnone]
    · rw [exec_gFrag hup, State.guestFrag_of_owed hdata hopen hfrag hlive hsome hfit]
  case stray => rw [exec_gCpl hup, State.guestDone_of_no_access haccess]
  case answer =>
    subst htag
    rw [exec_gCpl hup, State.guestDone_of_access haccess]
    refine ⟨fun hwrite => ?_, fun hread hok => ?_, fun hread hbad => ?_⟩
    · rw [if_pos hwrite]
    · rw [if_neg (by simp [hread]), if_pos hok]
    · rw [if_neg (by simp [hread]), if_neg hbad]
  case timeout =>
    rw [exec_guestAccessTimeout hg hheld, State.guestTimeout_of_access haccess hlate hu]
    exact ⟨fun hread => by rw [if_neg (by simp [hread])], fun hwrite => by rw [if_pos hwrite]⟩

end Sys2Proof.Machine
end

section
/-!
SUPPORT. Traps of synchronous exceptions outside a proof, and WFI below machine mode (R211, R214, R217, R218).
-/

namespace Sys2Proof.Machine

/-! ## CSRs -/

theorem State.csr_eq (s : State) (k n : Nat) : s.csr k n = (s.hart k).csrv n := rfl

/-- A CSR lies in its hart alone. -/
theorem State.csr_congr {s t : State} {k : Nat} (h : (t.hart k).csr = (s.hart k).csr) (n : Nat) : t.csr k n = s.csr k n := by
  simp only [State.csr_eq, Hart.csrv, h]

@[simp] theorem State.csr_wr (s : State) (f : Field) (i v k n : Nat) : (s.wr f i v).csr k n = s.csr k n := rfl

@[simp] theorem State.csr_setCsr_self (s : State) (k n v : Nat) : (s.setCsr k n v).csr k n = v % 2 ^ 64 := by
  simp only [State.csr_eq, State.setCsr, State.hart_setHart, Hart.csrv, Hart.setCsr, Tbl.get_set_self]

@[simp] theorem State.rd_setCsr (s : State) (k n v : Nat) (f : Field) (i : Nat) : (s.setCsr k n v).rd f i = s.rd f i := rfl

/-- No access outstanding: the hart's other parts are as they were. -/
@[simp] theorem State.hart_endMiss (s : State) (k : Nat) : (s.endMiss k).hart k = { s.hart k with miss := none } :=
  State.hart_setHart ..

@[simp] theorem State.rd_endMiss (s : State) (k : Nat) (f : Field) (i : Nat) : (s.endMiss k).rd f i = s.rd f i := rfl

theorem State.csr_endMiss (s : State) (k n : Nat) : (s.endMiss k).csr k n = s.csr k n :=
  State.csr_congr (by rw [State.hart_endMiss]) n

/-! ## The count of repeated traps (R214) -/

/-- Counting a trap rewrites the hart's count, and sets LOOP_FAULT or not. -/
theorem State.loopFault_cases (s : State) (k cause pc : Nat) : ∃ h, h.csr = (s.hart k).csr ∧
    (s.loopFault k cause pc = (s.setHart k h).wr F.CORE_STATUS.LOOP_FAULT k 1 ∨ s.loopFault k cause pc = s.setHart k h) :=
  ⟨{ s.hart k with
      lastTrap := some (cause, pc)
      trapRepeats := if (s.hart k).lastTrap = some (cause, pc) then (s.hart k).trapRepeats + 1 else 1 }, rfl, ite_eq_or_eq ..⟩

theorem State.csr_loopFault (s : State) (k cause pc n : Nat) : (s.loopFault k cause pc).csr k n = s.csr k n := by
  obtain ⟨h, hcsr, e | e⟩ := s.loopFault_cases k cause pc
  all_goals rw [e]; exact State.csr_congr (by simpa using hcsr) n

theorem State.rd_loopFault (s : State) (k cause pc : Nat) {f : Field} (hf : F.CORE_STATUS.LOOP_FAULT.lo ≠ f.lo) (i : Nat) :
    (s.loopFault k cause pc).rd f i = s.rd f i := by
  obtain ⟨h, -, e | e⟩ := s.loopFault_cases k cause pc
  · rw [e, State.rd_wr_of_lo _ _ hf, State.rd_setHart]
  · rw [e, State.rd_setHart]

/-! ## The trap that an exception outside a proof takes (R217, R218) -/

section
variable {s : State} {k cause : Nat}

/-- Delegation is judged by the mode and the CSRs. -/
theorem State.delegated_congr {t : State} (hp : t.priv k = s.priv k) (hc : ∀ n, t.csr k n = s.csr k n) (cause : Nat) :
    t.delegated k cause = s.delegated k cause := by
  simp only [State.delegated, hp, hc]

/-- The state in which the trap of an exception is taken: no access outstanding, and the repeats counted. -/
def State.trapping (s : State) (k cause pc : Nat) : State := (s.endMiss k).loopFault k cause pc

theorem State.csr_trapping (s : State) (k cause pc n : Nat) : (s.trapping k cause pc).csr k n = s.csr k n :=
  (State.csr_loopFault ..).trans (State.csr_endMiss ..)

theorem State.rd_trapping (s : State) (k cause pc : Nat) {f : Field} (hf : F.CORE_STATUS.LOOP_FAULT.lo ≠ f.lo) (i : Nat) :
    (s.trapping k cause pc).rd f i = s.rd f i := (State.rd_loopFault _ _ _ _ hf _).trans (State.rd_endMiss ..)

theorem State.ns_trapping (s : State) (k cause pc : Nat) : (s.trapping k cause pc).ns k = s.ns k :=
  congrArg (· != 0) (State.rd_trapping _ _ _ _ (by decide) _)

theorem State.delegated_trapping (s : State) (k cause pc : Nat) :
    (s.trapping k cause pc).delegated k cause = s.delegated k cause :=
  State.delegated_congr (State.rd_trapping _ _ _ _ (by decide) _) (State.csr_trapping s k cause pc) _

/-- Outside a proof an exception that would leave NS as it is traps at once (R231). -/
theorem State.exception_of_not_changesNs (hproof : (s.hart k).proof = none) (hns : s.changesNs k cause = false)
    (h24 : cause ≠ 24) (tval pc : Nat) : s.exception k cause tval pc =
      if s.delegated k cause then (s.trapping k cause pc).trapS k cause tval pc false
      else (s.trapping k cause pc).trapM k cause tval pc false := by
  have hns' : (s.endMiss k).changesNs k cause = false := by
    rw [State.changesNs, State.delegated_congr (State.rd_endMiss s k _ _) (State.csr_endMiss s k)]
    exact hns
  have hdel := State.delegated_trapping s k cause pc
  unfold State.trapping at hdel ⊢
  simp [State.exception, hproof, hns', State.takeException, h24, hdel]

/-- A delegated exception traps to S-mode. -/
theorem State.exception_of_delegated (hproof : (s.hart k).proof = none) (hd : s.delegated k cause = true) (h24 : cause ≠ 24)
    (tval pc : Nat) : s.exception k cause tval pc = (s.trapping k cause pc).trapS k cause tval pc false := by
  rw [State.exception_of_not_changesNs hproof (by simp [State.changesNs, hd]) h24, if_pos hd]

/-- In the secure world one that is not delegated traps to M-mode. -/
theorem State.exception_of_secure (hproof : (s.hart k).proof = none) (hd : s.delegated k cause = false) (hns : s.ns k = false)
    (h24 : cause ≠ 24) (tval pc : Nat) :
    s.exception k cause tval pc = (s.trapping k cause pc).trapM k cause tval pc false := by
  rw [State.exception_of_not_changesNs hproof (by simp [State.changesNs, hns]) h24, if_neg (by simp [hd])]

end

/-! ## What a trap saves -/

/-- A trap's status, cause, address and value in their CSRs, and the mode it enters; `b` is 0x100 for S-mode's CSRs and
0x300 for M-mode's. -/
def State.saveTrap (s : State) (k b status cause tval pc mode : Nat) : State :=
  ((((s.setCsr k 0x300 status).setCsr k (b + 0x42) cause).setCsr k (b + 0x41) pc).setCsr k (b + 0x43) tval).wr
    F.CORE_STATUS.PRIV k mode

/-- A hart goes to a trap's handler, its reservation lost. -/
def Hart.toHandler (h : Hart) (pc : Nat) : Hart := { h with pc := pc, resv := none, resvDefer := false }

@[simp] theorem State.csr_toHandler (s : State) (k pc n : Nat) :
    (s.setHart k ((s.hart k).toHandler pc)).csr k n = s.csr k n := State.csr_congr (by rw [State.hart_setHart]; rfl) n

/-- The mstatus a trap leaves: SIE goes to SPIE, or MIE to MPIE, and becomes 0, and the mode is saved. -/
def supervisorStatus (m p : Nat) : Nat := putBits (putBits (putBits m 5 1 (bits m 1 1)) 1 1 0) 8 1 (b2n (p == 1))
def machineStatus (m p : Nat) : Nat := putBits (putBits (putBits m 7 1 (bits m 3 1)) 3 1 0) 11 2 p

theorem State.trapS_eq (s : State) (k cause tval pc : Nat) (intr : Bool) :
    ∃ u, u = s.saveTrap k 0x100 (supervisorStatus (s.csr k 0x300) (s.priv k)) (cause + if intr then 2 ^ 63 else 0) tval pc 1 ∧
      s.trapS k cause tval pc intr = u.setHart k ((u.hart k).toHandler (vectorTo (u.csr k 0x105) cause intr)) :=
  ⟨_, rfl, rfl⟩

/-- In the secure world NS is 0 already, and its old value goes to PNS (R218). -/
theorem State.trapM_eq_of_secure {s : State} {k : Nat} (hns : s.ns k = false) (cause tval pc : Nat) (intr : Bool) :
    ∃ v u, v = s.setCsr k 0x7C0 (putBits (s.csr k 0x7C0) 1 1 0) ∧
      u = v.saveTrap k 0x300 (machineStatus (v.csr k 0x300) (s.priv k)) (cause + if intr then 2 ^ 63 else 0) tval pc 3 ∧
      s.trapM k cause tval pc intr = u.setHart k ((u.hart k).toHandler (vectorTo (u.csr k 0x305) cause intr)) := by
  have hset (v : Nat) : (s.setCsr k 0x7C0 v).setNs k false = s.setCsr k 0x7C0 v := if_pos (congrArg (· == false) hns)
  refine ⟨_, _, rfl, rfl, ?_⟩
  simp only [State.trapM, hset, hns]
  rfl

section
variable {s u t : State} {k b status cause tval pc mode target : Nat} (hu : u = s.saveTrap k b status cause tval pc mode)
  (ht : t = u.setHart k ((u.hart k).toHandler target))
include hu ht

theorem State.csr_epc_of_saveTrap : t.csr k (b + 0x41) = pc % 2 ^ 64 := by
  subst hu ht
  rw [State.csr_toHandler, State.saveTrap, State.csr_wr, State.csr_setCsr_of_ne _ _ _ (by omega), State.csr_setCsr_self]

theorem State.csr_cause_of_saveTrap : t.csr k (b + 0x42) = cause % 2 ^ 64 := by
  subst hu ht
  rw [State.csr_toHandler, State.saveTrap, State.csr_wr, State.csr_setCsr_of_ne _ _ _ (by omega),
    State.csr_setCsr_of_ne _ _ _ (by omega), State.csr_setCsr_self]

theorem State.priv_of_saveTrap : t.priv k = mode % 2 ^ F.CORE_STATUS.PRIV.w := by
  subst hu ht
  rw [State.priv, State.rd_setHart, State.saveTrap, State.rd_wr_self]

/-- Of CORE_STATUS a trap writes the mode alone. -/
theorem State.rd_of_saveTrap {f : Field} (hf : F.CORE_STATUS.PRIV.lo ≠ f.lo) (i : Nat) : t.rd f i = s.rd f i := by
  subst hu ht
  rw [State.rd_setHart, State.saveTrap, State.rd_wr_of_lo _ _ hf]
  simp only [State.rd_setCsr]

end

/-! ## WFI below machine mode (R211) -/

/-- A WFI in U-mode, or in S-mode with TW set, is an illegal instruction. -/
theorem exec_wfi_of_illegal {s : State} {k : Nat} (h : s.coreFree k = true)
    (hp : (s.priv k = 1 ∧ (s.csr k 0x300).testBit 21 = true) ∨ s.priv k = 0) (pc : Nat) :
    exec (.wfi k pc) s = .next ((s.atInsn k pc).illegal k pc) := by
  rw [exec_wfi, State.issue_of_coreFree h, State.notInProof_of_coreFree h]
  have hc : (s.atInsn k pc).csr k 0x300 = s.csr k 0x300 := State.csr_congr (by rw [State.hart_atInsn]) _
  rcases hp with ⟨hp, htw⟩ | hp
  · simp [State.wfi, hp, hc, htw]
  · simp [State.wfi, hp]

/-- An illegal instruction raises exception 2 with a free trap value; the counter of free values is outside the core. -/
theorem State.illegal_eq (s : State) (k pc : Nat) : ∃ v u, s.illegal k pc = u.exception k 2 v pc ∧
    u = { s with fresh := s.fresh + 1 } := ⟨_, _, rfl, rfl⟩

/-- Settles O57: the WFI raises exception 2, and the exception traps to the mode that its delegation names. -/
theorem wfiIsIllegalBelowMachineMode : Obligations.WfiIsIllegalBelowMachineMode := by
  intro s k pc h hp
  have hexec := exec_wfi_of_illegal h hp pc
  obtain ⟨v, u, hill, hu⟩ := (s.atInsn k pc).illegal_eq k pc
  have hcsr (n : Nat) : u.csr k n = s.csr k n := State.csr_congr (by rw [hu]; simp) n
  have hproof : (u.hart k).proof = none := by
    obtain ⟨-, -, hproof, -⟩ := (State.coreFree_iff s k).mp h
    simpa [hu] using hproof
  have hdel : u.delegated k 2 = s.delegated k 2 := State.delegated_congr (by rw [hu]; rfl) hcsr 2
  have hstate : (u.trapping k 2 pc).rd F.CORE_STATUS.STATE k = s.rd F.CORE_STATUS.STATE k :=
    (State.rd_trapping _ _ _ _ (by decide) _).trans (by rw [hu]; rfl)
  refine ⟨hexec, fun hd => ?_, fun hd hns => ?_⟩
  · rw [hexec, hill, State.exception_of_delegated hproof (hdel.trans hd) (by decide)]
    obtain ⟨w, hw, ht⟩ := State.trapS_eq (u.trapping k 2 pc) k 2 v pc false
    exact ⟨_, rfl, State.csr_epc_of_saveTrap hw ht, State.csr_cause_of_saveTrap hw ht,
      State.priv_of_saveTrap hw ht, (State.rd_of_saveTrap hw ht (by decide) k).trans hstate⟩
  · have hnsu : (u.trapping k 2 pc).ns k = false := (State.ns_trapping ..).trans (by rw [hu]; exact hns)
    rw [hexec, hill, State.exception_of_secure hproof (hdel.trans hd) ((State.ns_trapping ..).symm.trans hnsu) (by decide)]
    obtain ⟨x, w, hx, hw, ht⟩ := State.trapM_eq_of_secure hnsu 2 v pc false
    exact ⟨_, rfl, State.csr_epc_of_saveTrap hw ht, State.csr_cause_of_saveTrap hw ht,
      State.priv_of_saveTrap hw ht, (State.rd_of_saveTrap hw ht (by decide) k).trans (by rw [hx]; exact hstate)⟩

/-! ## A mode that its field cannot hold -/

theorem exec_trap_of_coreFree {s : State} {k : Nat} (h : s.coreFree k = true) (pc insn tval : Nat) :
    exec (.trap k pc insn tval) s = .next ((s.atInsn k pc).exception k (s.trapCause k (insn % 64)) tval pc) :=
  congrArg _ (State.issue_of_coreFree h pc _)

/-- Core 0 runs outside a proof in the secure world, and the table of register fields lists 2^64 for its mode, which no
write of the two-bit field leaves there. -/
def wideMode : State :=
  { State.reset with
    pins := { State.reset.pins with poreset := false, pwrgd := 0x3F, thermtrip := false }
    regs := [(F.CORE_STATUS.STATE.at 0, 3), (F.PWR_DOM_STATUS.STATE.at 0, 0), (F.CORE_STATUS.PRIV.at 0, 2 ^ 64)] }

/-- Refutes O27: an environment call's cause is 8 plus the mode, and mcause holds 64 bits; in a state whose mode reads 2^64
the trap leaves 8 in mcause, where the statement, which bounds no register field, asks for 2^64 + 8. -/
theorem not_trapsReturnsAndCsrs : ¬ Obligations.TrapsReturnsAndCsrs := by
  rintro ⟨htrap, -⟩
  have hfree : wideMode.coreFree 0 = true := by decide
  have hns : wideMode.ns 0 = false := by decide
  have hcause : wideMode.trapCause 0 (8 % 64) = 2 ^ 64 + 8 := by decide
  have hdel : wideMode.delegated 0 (2 ^ 64 + 8) = false := by decide
  obtain ⟨t, ht, -, hmcause, -⟩ := (htrap wideMode 0 0 8 _ 0 hfree rfl).2.1 (by rw [hcause]; decide) hns (by rwa [hcause])
  rw [exec_trap_of_coreFree hfree, hcause,
    State.exception_of_secure (s := wideMode.atInsn 0 0) (by decide) (by decide) (by decide) (by decide)] at ht
  have hns' : ((wideMode.atInsn 0 0).trapping 0 (2 ^ 64 + 8) 0).ns 0 = false := (State.ns_trapping ..).trans hns
  obtain ⟨v, u, -, hu, htrapM⟩ := State.trapM_eq_of_secure hns' (2 ^ 64 + 8) 0 0 false
  cases ht
  rw [State.csr_cause_of_saveTrap hu htrapM, hcause] at hmcause
  exact absurd hmcause (by decide)

end Sys2Proof.Machine
end

section
/-!
SUPPORT. Memory accesses of a core in its caches, its merging buffer and the register space (R205 to R215, R231 to R235, R254).
-/

namespace Sys2Proof.Machine

/-! ## An empty merging buffer -/

section
variable {s : State} {k : Nat} (hmb : (s.hart k).mb = [])
include hmb

theorem State.drainOne_of_empty : s.drainOne k = s := by
  rw [State.drainOne, State.drainAs, hmb]

theorem State.drainAll_of_empty : s.drainAll k = (true, s) := by
  have hfold : (List.range 8).foldl (fun s _ => s.drainOne k) s = s :=
    List.foldl_fixed' (f := fun (s : State) _ => s.drainOne k) (fun _ => State.drainOne_of_empty hmb) _
  rw [State.drainAll, hfold, hmb, List.isEmpty_nil]

/-- With no entry there is nothing to forward (R232). -/
theorem State.forward_of_empty (pa size : Nat) : (s.hart k).forward pa size = .none := by
  rw [Hart.forward, hmb, List.find?_nil]

theorem State.drainOver_of_empty (pa size : Nat) : s.drainOver k pa size = s :=
  List.foldl_fixed' (fun _ => if_neg (by simp [State.forward_of_empty hmb])) _

end

/-! ## Loads (R210, R215, R232) -/

section
variable {s u v : State} {k va size pa : Nat} {i : InsnAt}

theorem exec_load_of_coreFree (hfree : s.coreFree k = true) (hsize : sizeOk size = true) (pc len va : Nat) (sext : Bool)
    (dst : LoadDst) : exec (.load k pc len va size sext dst) s =
      .next ((s.atInsn k pc).load k va size sext dst (InsnAt.mk pc va (pc + len))) :=
  congrArg _ ((if_pos hsize).trans (State.issue_of_coreFree hfree pc _))

/-- A load to an integer register whose address is permitted goes to memory or to a device region. -/
theorem State.load_of_target (hcross : crosses va size = false) (ht : u.target k .load va size [0] = (.ok pa, v))
    (sext : Bool) (r : Nat) : u.load k va size sext (.x r) i =
      if inMemory pa then v.loadMemory k pa size sext (.x r) i else v.loadIo k pa size sext (.x r) i := by
  simp [State.load, State.unitOff, loadMisaligned, hcross, Acc.pmpKind, ht]

/-- Outside a proof no access sets a read bit. -/
theorem State.markRead_of_no_proof (hproof : (v.hart k).proof = none) (line : Nat) : v.markRead k line = v :=
  if_pos (by simp [hproof])

theorem State.loadMemory_of_l1d {d : List (BitVec 8)} (hproof : (v.hart k).proof = none) (hmb : (v.hart k).mb = [])
    (hd : Tbl.find (v.hart k).l1d (lineOf pa) = some d) (sext : Bool) (dst : LoadDst) :
    v.loadMemory k pa size sext dst i = v.loadDone k pa size sext dst i.next d := by
  simp [State.loadMemory, State.drainOver_of_empty hmb, State.forward_of_empty hmb, hd, State.markRead_of_no_proof hproof,
    State.inProof, hproof]

theorem inMemory_of_regs {off : Nat} (h : regionOf pa = .regs off) : inMemory pa = false := by
  rw [inMemory, h]

theorem State.loadIo_of_regs {off : Nat} (h : regionOf pa = .regs off) (hproof : v.inProof k = false) (sext : Bool)
    (dst : LoadDst) : v.loadIo k pa size sext dst i = v.loadRegs k off size sext dst i.next := by
  simp [State.loadIo, hproof, h]

/-! ## Stores (R231) -/

theorem exec_store_of_coreFree (hfree : s.coreFree k = true) (hsize : sizeOk size = true) (pc len va x : Nat) :
    exec (.store k pc len va size x) s = .next ((s.atInsn k pc).store k va size x (InsnAt.mk pc va (pc + len))) :=
  congrArg _ ((if_pos hsize).trans (State.issue_of_coreFree hfree pc _))

theorem State.store_of_target (hcross : crosses va size = false) (ht : u.target k .store va size [1] = (.ok pa, v))
    (x : Nat) : u.store k va size x i =
      if inMemory pa then v.storeMemory k pa size x i.next else v.storeIo k pa size x i := by
  simp [State.store, hcross, ht]

/-- A store finds a free entry in an empty buffer; the buffer drains where the entry is full at once. -/
theorem State.storeMemory_of_empty (hmb : (v.hart k).mb = []) (x next : Nat) : ∃ w,
    w = (v.setHart k (((v.hart k).storeL1 pa size x).storeMb pa size x)).retire k next ∧
    v.storeMemory k pa size x next = if (w.hart k).mbReady then w.drainOne k else w := by
  have hfull : (v.hart k).mbFull (lineOf pa) = false := by simp [Hart.mbFull, hmb]
  exact ⟨_, rfl, by simp [State.storeMemory, hfull]⟩

theorem State.storeIo_of_regs {off : Nat} (h : regionOf pa = .regs off) (hproof : v.inProof k = false) (x : Nat) :
    v.storeIo k pa size x i = (v.spaceWrite (v.coreSrc k) off size x).retire k i.next := by
  simp [State.storeIo, hproof, h]

/-! ## Accesses that the L2 serves (R210, R234, R254) -/

/-- An aligned access to memory whose address is permitted reaches an enabled L2. -/
theorem State.l2Only_of_target {a : Acc} {kinds : List Nat} (halign : va % size = 0)
    (ht : u.target k a va size kinds = (.ok pa, v)) (hm : inMemory pa = true) (hon : v.l2On (clusterOf k) = true)
    (f : Nat → State → State) : u.l2Only k a va size kinds i f = f pa v := by
  simp [State.l2Only, halign, ht, hm, hon]

/-- With nothing to drain, an access to a line the L2 holds is done there. -/
theorem State.inL2_of_held {line : Nat} (hmb : (v.hart k).mb = []) (hline : (v.l2line (clusterOf k) line).isSome = true)
    (kind : L2Req) (op : MissOp) : ∃ w, w = v.setHart k { v.hart k with miss := some (line, op) } ∧
      v.inL2 k line kind op =
        (w.when (w.l2Serves (clusterOf k) line kind) (·.inc F.L2_HITS.HITS (clusterOf k))).accessLine k line op := by
  refine ⟨_, rfl, ?_⟩
  have hline' (h : Hart) : ((v.setHart k h).l2line (clusterOf k) line).isSome = true := hline
  simp [State.inL2, State.drainAll_of_empty hmb, hline']

theorem exec_amo_of_coreFree (hfree : s.coreFree k = true) (hsize : amoSize size = true) (pc len op va x rd : Nat) :
    exec (.amo k pc len op va size x rd) s =
      .next ((s.atInsn k pc).amo k op va size x rd (InsnAt.mk pc va (pc + len))) :=
  congrArg _ ((if_pos hsize).trans (State.issue_of_coreFree hfree pc _))

theorem State.amo_of_op {op : Nat} (hop : op < 9) (x rd : Nat) : u.amo k op va size x rd i =
    u.l2Only k .store va size [0, 1] i (fun pa s => s.inL2 k (lineOf pa) .rdUnique (.amo op pa size x rd i)) :=
  if_neg (Nat.not_le.mpr hop)

theorem exec_lr_of_coreFree (hfree : s.coreFree k = true) (hsize : amoSize size = true) (pc len va rd : Nat) :
    exec (.lr k pc len va size rd) s = .next ((s.atInsn k pc).lr k va size rd (InsnAt.mk pc va (pc + len))) :=
  congrArg _ ((if_pos hsize).trans ((State.issue_of_coreFree hfree pc _).trans (State.notInProof_of_coreFree hfree pc _)))

theorem exec_sc_of_coreFree (hfree : s.coreFree k = true) (hsize : amoSize size = true) (pc len va x rd : Nat) :
    exec (.sc k pc len va size x rd) s = .next ((s.atInsn k pc).sc k va size x rd (InsnAt.mk pc va (pc + len))) :=
  congrArg _ ((if_pos hsize).trans ((State.issue_of_coreFree hfree pc _).trans (State.notInProof_of_coreFree hfree pc _)))

/-- An SC without its reservation fails with 1. -/
theorem State.scTarget_of_unreserved (hmb : (v.hart k).mb = []) (hr : (v.hart k).resv ≠ some (lineOf pa)) (x rd : Nat) :
    v.scTarget k pa size x rd i = v.scDone k rd 1 i.next := by
  simp [State.scTarget, hr, State.drainAll_of_empty hmb]

theorem State.scTarget_of_reserved (hr : (v.hart k).resv = some (lineOf pa)) (x rd : Nat) :
    v.scTarget k pa size x rd i = v.inL2 k (lineOf pa) .rdUnique (.sc pa size x rd i) := if_pos hr

/-! ## Fences (R209) -/

theorem State.mb_atInsn_of_coreFree (hfree : s.coreFree k = true) (pc : Nat) : ((s.atInsn k pc).hart k).mb = [] := by
  obtain ⟨-, -, -, hmb⟩ := (State.coreFree_iff s k).mp hfree
  rw [State.hart_atInsn, hmb]

theorem exec_fence_of_coreFree (hfree : s.coreFree k = true) (pc : Nat) {pred : Nat}
    (hpred : pred.testBit 2 = false ∨ s.guestWrites k = false) :
    exec (.fence k pc pred) s = .next ((s.atInsn k pc).retire k (pc + 4)) := by
  refine congrArg _ ((State.issue_of_coreFree hfree pc _).trans ?_)
  have hwrites : (s.atInsn k pc).guestWrites k = s.guestWrites k := rfl
  have hdrain := State.drainAll_of_empty (State.mb_atInsn_of_coreFree hfree pc)
  rcases hpred with h | h <;> simp [State.coreFence, hdrain, hwrites, h]

theorem exec_fenceI_of_coreFree (hfree : s.coreFree k = true) (pc : Nat) : ∃ u, u = s.atInsn k pc ∧
    exec (.fenceI k pc) s = .next ((u.setHart k { u.hart k with l1i := [] }).retire k (pc + 4)) := by
  refine ⟨_, rfl, congrArg _ ((State.issue_of_coreFree hfree pc _).trans ?_)⟩
  rw [State.notInProof_of_coreFree hfree]
  simp [State.fenceI, State.drainAll_of_empty (State.mb_atInsn_of_coreFree hfree pc)]

end

/-! ## The buffer's oldest entry drains (R231, R254, R260) -/

section
variable {s u v w : State} {k : Nat} {e : MbEntry} {l : List MbEntry} (hmb : (s.hart k).mb = e :: l)
include hmb

/-- Into a line the L2 owns, as a hit of the L2 (log 101). -/
theorem State.drainOne_of_owned (hon : s.l2On (clusterOf k) = true) (hacc : s.localAccess k e.line true = (true, u))
    (hown : u.l2Own k e.line true = (true, v)) (hmark : v.markWrite k e.line = (true, w)) : ∃ x,
    x = (w.l2Write k e.line e.bytes).inc F.L2_HITS.HITS (clusterOf k) ∧
    s.drainOne k = x.setHart k { x.hart k with mb := l } := by
  refine ⟨_, rfl, ?_⟩
  simp [State.drainOne, State.drainAs, hmb, hon, hacc, hown, hmark, State.when]

/-- By an uncached write while the L2 is disabled. -/
theorem State.drainOne_of_off (hon : s.l2On (clusterOf k) = false) (hasked : s.ioAsked k e.line = false) :
    s.drainOne k = s.send (.req (Request.mk .ioWr e.line (.core k) none e.bytes false 0 0 128)) := by
  simp [State.drainOne, State.drainAs, hmb, hon, hasked]

end

theorem exec_mergeBufferDrain_of_there {s : State} {k : Nat} (h : s.coreThere k = true) :
    exec (.mergeBufferDrain k) s = .next (s.drainOne k) := congrArg _ (if_pos h)

theorem exec_lrReservationExpire_of_there {s : State} {k : Nat} (h : s.coreThere k = true) :
    exec (.lrReservationExpire k) s = .next (s.setHart k { s.hart k with resvDefer := false }) := congrArg _ (if_pos h)

/-- Settles O28: the address's region, the buffer's emptiness and the L2's line pick the one branch of each access. -/
theorem coreMemoryAccesses : Obligations.CoreMemoryAccesses := by
  refine ⟨?access, ?drain⟩
  case access =>
    rintro s u v k pc len va size pa hfree rfl
    refine ⟨?loadMem, ?loadRegs, ?storeMem, ?storeRegs, ?amo, ?lr, ?sc, ?fence, ?fenceI⟩
    case loadMem =>
      intro sext r d hsize hcross ht hm hproof hmb hd
      rw [exec_load_of_coreFree hfree hsize, State.load_of_target hcross ht, if_pos hm, State.loadMemory_of_l1d hproof hmb hd]
    case loadRegs =>
      intro sext r off hsize hcross ht hregs hproof
      rw [exec_load_of_coreFree hfree hsize, State.load_of_target hcross ht, inMemory_of_regs hregs, if_neg Bool.false_ne_true,
        State.loadIo_of_regs hregs hproof]
    case storeMem =>
      intro x hsize hcross ht hm _ hmb
      obtain ⟨w, hw, e⟩ := State.storeMemory_of_empty (pa := pa) (size := size) hmb x (pc + len)
      exact ⟨w, hw, by rw [exec_store_of_coreFree hfree hsize, State.store_of_target hcross ht, if_pos hm, e]⟩
    case storeRegs =>
      intro x off hsize hcross ht hregs hproof
      rw [exec_store_of_coreFree hfree hsize, State.store_of_target hcross ht, inMemory_of_regs hregs, if_neg Bool.false_ne_true,
        State.storeIo_of_regs hregs hproof]
    case amo =>
      intro op x rd hsize hop halign ht hm hon hmb _ hline
      obtain ⟨w, hw, e⟩ := State.inL2_of_held hmb hline .rdUnique (.amo op pa size x rd (InsnAt.mk pc va (pc + len)))
      exact ⟨_, rfl, w, hw, by
        rw [exec_amo_of_coreFree hfree hsize, State.amo_of_op hop, State.l2Only_of_target halign ht hm hon, e]⟩
    case lr =>
      intro rd hsize halign ht hm hon hmb _ hline
      obtain ⟨w, hw, e⟩ := State.inL2_of_held hmb hline .rdShared (.lr pa size rd (InsnAt.mk pc va (pc + len)))
      exact ⟨_, rfl, w, hw, by rw [exec_lr_of_coreFree hfree hsize, State.lr, State.l2Only_of_target halign ht hm hon, e]⟩
    case sc =>
      intro x rd hsize halign ht hm hon hmb
      have hexec : exec (.sc k pc len va size x rd) s = .next (v.scTarget k pa size x rd (InsnAt.mk pc va (pc + len))) := by
        rw [exec_sc_of_coreFree hfree hsize, State.sc, State.l2Only_of_target halign ht hm hon]
      refine ⟨fun hr => by rw [hexec, State.scTarget_of_unreserved hmb hr], fun hr _ hline => ?_⟩
      obtain ⟨w, hw, e⟩ := State.inL2_of_held hmb hline .rdUnique (.sc pa size x rd (InsnAt.mk pc va (pc + len)))
      exact ⟨_, rfl, w, hw, by rw [hexec, State.scTarget_of_reserved hr, e]⟩
    case fence => exact fun pred hpred => exec_fence_of_coreFree hfree pc hpred
    case fenceI =>
      obtain ⟨_, rfl, hexec⟩ := exec_fenceI_of_coreFree hfree pc
      exact hexec
  case drain =>
    intro s k h
    refine ⟨exec_lrReservationExpire_of_there h, fun e l u v w hmb hon hacc hown hmark => ?_, fun e l hmb hon hasked => ?_⟩
    · obtain ⟨x, hx, hdrain⟩ := State.drainOne_of_owned hmb hon hacc hown hmark
      exact ⟨x, hx, by rw [exec_mergeBufferDrain_of_there h, hdrain]⟩
    · rw [exec_mergeBufferDrain_of_there h, State.drainOne_of_off hmb hon hasked]

end Sys2Proof.Machine
end

section
/-!
SUPPORT. Event messages: the end of a rate interval, delivery to the claim FIFOs, and the configuration of a source
(R222, R484, R527 to R529).
-/

namespace Sys2Proof.Machine

/-! ## Rate intervals (R527) -/

theorem exec_eventRateRelease_of_interval {s : State} {i : Nat} (h : s.evc.interval.contains i = true) :
    exec (.eventRateRelease i) s = .next (s.rateRelease i) := congrArg _ (if_pos h)

theorem State.rateRelease_of_held {s : State} {i : Nat} (h : s.evc.held.contains i = true) : s.rateRelease i =
    State.sendEvent { s with evc := { s.evc with held := s.evc.held.filter (· ≠ i) } } i := if_pos h

theorem State.rateRelease_of_not_held {s : State} {i : Nat} (h : s.evc.held.contains i = false) : s.rateRelease i =
    { s with evc := { s.evc with interval := s.evc.interval.filter (· ≠ i) } } := if_neg (ne_true_of_eq_false h)

/-! ## Messages to compute harts (R222) -/

/-- With no held message that could go out the oldest in flight is offered. -/
theorem exec_eventMessageDeliver_of_flight {s : State} {msg : EvMsg} {l : List EvMsg} (hheld : s.held = false)
    (hwait : s.evc.waiting.find? s.deliverable = none) (hflight : s.evc.flight = msg :: l) : ∃ u,
      u = { s with evc := { s.evc with flight := l } } ∧ exec .eventMessageDeliver s = .next (u.offer msg) := by
  refine ⟨_, rfl, congrArg _ ((if_neg (by simp [hheld])).trans ?_)⟩
  simp [State.eventDeliver, hwait, hflight]

section
variable {s : State} {k : Nat} (hsite : s.hw.site (siteOf k) = true)
  (hfence : s.fbit F.ALN_SUMMARY.FENCED 0 (siteOf k) = false)
  (hdom : s.rd F.PWR_DOM_STATUS.STATE (clusterDom (clusterOf k)) = 0)
include hsite hfence hdom

/-- A core whose die is there and whose cluster is ON takes a message as its FIFO has room. -/
theorem State.holdWhy_of_awake (m : Bool) :
    s.holdWhy k m = if claimDepth ≤ (s.claimFifo k m).length then .full else .none := by
  simp [State.holdWhy, hsite, hfence, hdom]

theorem State.offer_of_room {msg : EvMsg} {m : Bool} (hcore : msg.core = some (k, m)) (hroom : (s.claimFifo k m).length < 32) :
    s.offer msg = s.pushClaim k msg.source m := by
  have hwhy : s.holdWhy k m = .none :=
    (State.holdWhy_of_awake hsite hfence hdom m).trans (if_neg (Nat.not_le.mpr hroom))
  simp [State.offer, hcore, hwhy]

/-- A message for a full FIFO is counted and held. -/
theorem State.offer_of_full {msg : EvMsg} {m : Bool} (hcore : msg.core = some (k, m))
    (hfull : 32 ≤ (s.claimFifo k m).length) : ∃ u, u = s.inc F.CORE_IRQ_CNT.FIFO_FULL k ∧
      s.offer msg = { u with evc := { u.evc with waiting := u.evc.waiting ++ [msg] } } := by
  have hwhy : s.holdWhy k m = .full := (State.holdWhy_of_awake hsite hfence hdom m).trans (if_pos hfull)
  exact ⟨_, rfl, by simp [State.offer, hcore, hwhy]⟩

end

/-! ## Source configuration (R527 to R529) -/

section
variable {s : State} {src : Src} {i v : Nat}

theorem exec_evcSrcCfgWrite_of_takes (hi : i < 768) (h : s.takesWrite src .EVC_SRC_CFG i = true) :
    exec (.evcSrcCfgWrite src i v) s = .next (s.srcCfg src i v) :=
  congrArg _ ((if_pos hi).trans (State.withReg_of_takes h))

theorem State.srcCfg_of_ignored (h : s.srcCfgIgnored src i v = true) : s.srcCfg src i v = s := if_pos h

/-- A secure write sets WORLD as well; with no message held nothing is discarded. -/
theorem State.srcCfg_of_secure (h : s.srcCfgIgnored src i v = false) (hsec : isSecure src = true)
    (hheld : s.evc.held.contains i = false) : s.srcCfg src i v =
      ((((s.wr F.EVC_SRC_CFG.WORLD i (bits v 1 1)).wr F.EVC_SRC_CFG.TTYPE i (bits v 2 2)).wr F.EVC_SRC_CFG.TIDX i
        (bits v 16 11)).wr F.EVC_SRC_CFG.RATE i (bits v 32 16)).wr F.EVC_SRC_CFG.EN i (if i = 504 then 1 else v % 2) := by
  simp only [State.srcCfg, h, hsec, hheld, State.wr_evc, Bool.and_false, Bool.false_eq_true, if_false, if_true]

/-- A normal-world write keeps WORLD; disabling a source with a held message discards it (R528). -/
theorem State.srcCfg_of_disable (h : s.srcCfgIgnored src i v = false) (hsec : isSecure src = false) (hi : i ≠ 504)
    (hv : v % 2 = 0) (hheld : s.evc.held.contains i = true) : ∃ u,
      u = (((s.wr F.EVC_SRC_CFG.TTYPE i (bits v 2 2)).wr F.EVC_SRC_CFG.TIDX i (bits v 16 11)).wr F.EVC_SRC_CFG.RATE i
        (bits v 32 16)).wr F.EVC_SRC_CFG.EN i 0 ∧
      s.srcCfg src i v =
        State.inc { u with evc := { u.evc with held := u.evc.held.filter (· ≠ i) } } F.EVC_SRC_CNT.DISCARDED i := by
  refine ⟨_, rfl, ?_⟩
  simp only [State.srcCfg, h, hsec, hi, hv, hheld, State.wr_evc, Bool.false_eq_true, if_false, ne_eq, not_false_eq_true,
    decide_true, Bool.and_self, if_true]

end

/-- Settles O47: each command's condition is met, and the FIFO's room, the message held or the writer's world picks its
effect. -/
theorem eventMessagesAndSources : Obligations.EventMessagesAndSources := by
  refine ⟨?interval, ?deliver, ?config⟩
  case interval =>
    intro s i h
    exact ⟨fun hheld => by rw [exec_eventRateRelease_of_interval h, State.rateRelease_of_held hheld],
      fun hheld => by rw [exec_eventRateRelease_of_interval h, State.rateRelease_of_not_held hheld]⟩
  case deliver =>
    intro s src k l hheld hwait hsite hfence hdom
    refine ⟨fun hflight hfifo => ?_, fun hflight hfifo => ?_, fun hflight hfifo => ?_⟩
    all_goals
      obtain ⟨u, hu, hexec⟩ := exec_eventMessageDeliver_of_flight hheld hwait hflight
      have hsiteU : u.hw.site (siteOf k) = true := by rw [hu]; exact hsite
      have hfenceU : u.fbit F.ALN_SUMMARY.FENCED 0 (siteOf k) = false := by rw [hu]; exact hfence
      have hdomU : u.rd F.PWR_DOM_STATUS.STATE (clusterDom (clusterOf k)) = 0 := by rw [hu]; exact hdom
      have hhart : u.hart k = s.hart k := by rw [hu]; rfl
      rw [← hhart] at hfifo
      rw [hexec, ← hu]
    · rw [State.offer_of_room (m := true) hsiteU hfenceU hdomU rfl hfifo, ← hhart]
      rfl
    · rw [State.offer_of_room (m := false) hsiteU hfenceU hdomU rfl hfifo, ← hhart]
      rfl
    · obtain ⟨w, hw, e⟩ := State.offer_of_full (m := false) (msg := ⟨src, .hartS k⟩) hsiteU hfenceU hdomU rfl hfifo
      exact ⟨w, hw, congrArg _ e⟩
  case config =>
    intro s src i v hi h
    rw [exec_evcSrcCfgWrite_of_takes hi h]
    refine ⟨fun hign => by rw [State.srcCfg_of_ignored hign],
      fun hign hsec hheld => by rw [State.srcCfg_of_secure hign hsec hheld], fun hign hsec h504 hv hheld => ?_⟩
    obtain ⟨u, hu, e⟩ := State.srcCfg_of_disable hign hsec h504 hv hheld
    exact ⟨u, hu, congrArg _ e⟩

end Sys2Proof.Machine
end

section
/-!
SUPPORT. The instruction of a member of the test chain (R463, R464).
-/

namespace Sys2Proof.Machine

theorem exec_tapUpdateIr_of_die {s : State} {n : Nat} (hheld : s.held = false) (hn : n < 14) (ir : Nat) :
    exec (.tapUpdateIr n ir) s = .next (s.dieIr n ir) := by
  have hhub : n ≠ hubTap := by unfold hubTap; omega
  exact congrArg _ ((if_neg (by simp [hheld])).trans (if_neg hhub))

/-- A member of the latched chain runs the instruction it is given while its die is alive, and BYPASS afterwards; whether
it would join at the next Test-Logic-Reset plays no part. -/
theorem State.tapIr_dieIr {s : State} {n len : Nat} (hchain : s.dbg.chain = [(n, len)]) (ir : Nat) :
    (s.dieIr n ir).tapIr n = if s.chainAlive n then ir % 2 ^ len else 2 ^ len - 1 := by
  simp [State.dieIr, hchain, State.tapIr]

/-- A package of one guest site, which is ON: Test-Logic-Reset made it a member of the chain, its IR of 5 bits, and then
GUEST_EN was cleared. -/
def guestWithdrawn : State :=
  let s := { State.reset with
    hw := { State.reset.hw with guests := .g1 }
    pins := { State.reset.pins with poreset := false, pwrgd := 0x3F, thermtrip := false } }
  let s := ((s.wr F.PWR_DOM_STATUS.STATE 98 0).wr F.DBG_CHAIN.GUEST_EN 0 1).wr F.DBG_CHAIN.GIR_LEN 0 5
  s.tapReset.wr F.DBG_CHAIN.GUEST_EN 0 0

/-- Refutes O51: the statement picks a member's instruction by `State.chainMember`, whether it would join now; a member acts
as BYPASS only once it is fenced or its domain is off (R463). A guest whose GUEST_EN is cleared after the latch runs the
instruction 0, where the statement asks for all ones. -/
theorem not_debugHaltsAccessesAndTheTap : ¬ Obligations.DebugHaltsAccessesAndTheTap := by
  rintro ⟨-, -, -, -, -, -, hdie, -⟩
  have hheld : guestWithdrawn.held = false := by decide
  have hchain : guestWithdrawn.dbg.chain = [(12, 5)] := by decide
  have hmember : guestWithdrawn.chainMember 12 = false := by decide
  have halive : guestWithdrawn.chainAlive 12 = true := by decide
  obtain ⟨t, ht, hir, -⟩ := hdie guestWithdrawn 12 0 5 hheld hchain (by decide)
  rw [exec_tapUpdateIr_of_die hheld (by decide)] at ht
  cases ht
  rw [State.tapIr_dieIr hchain, halive, hmember] at hir
  exact absurd hir (by decide)

end Sys2Proof.Machine
end

section
/-!
SUPPORT. Writes of L2_CTL from outside the secure world, and what a write that is not taken leaves (R256, R370, R385).
-/

namespace Sys2Proof.Machine

/-! ## The place of L2_CTL in the register space -/

theorem base_le_of_findReg {a : Nat} {t : List RegRow} {x : RegRow} {i : Nat} (h : findReg a t = some (x, i)) :
    x.base ≤ a := by
  induction t with
  | nil => simp [findReg] at h
  | cons r t ih =>
    unfold findReg at h
    split at h
    next => exact ih h
    next hle =>
      split at h
      · cases h; exact Nat.le_of_not_lt hle
      · exact ih h

/-- The rows of L2_CTL lie past the doorbell windows, and none of their fields clears by a one. -/
theorem regTable_l2Ctl : regTable.all (fun x => x.reg != .L2_CTL || (0x7D1000 ≤ x.base && x.fields.all (·.ty != .w1c))) = true := by
  decide +kernel

theorem l2Ctl_of_findReg {a : Nat} {x : RegRow} {i : Nat} (hfind : findReg a regTable = some (x, i)) (hreg : x.reg = .L2_CTL) :
    0x7D1000 ≤ a ∧ ∀ f ∈ x.fields, f.ty ≠ .w1c := by
  have hrow := List.all_eq_true.mp regTable_l2Ctl x (mem_of_findReg hfind)
  simp only [hreg, bne_self_eq_false, Bool.false_or, Bool.and_eq_true, decide_eq_true_eq, List.all_eq_true, bne_iff_ne] at hrow
  exact ⟨hrow.1.trans (base_le_of_findReg hfind), hrow.2⟩

theorem not_doorbell_of_le {a : Nat} (h : 0x7D1000 ≤ a) : inRingDb a = false ∧ inQueueDb a = false := by
  simp only [inRingDb, inQueueDb, Bool.and_eq_false_iff, decide_eq_false_iff_not]
  omega

/-! ## A write of L2_CTL from outside the secure world (R256) -/

theorem State.w1c_of_none {x : RegRow} (h : ∀ f ∈ x.fields, f.ty ≠ .w1c) (s : State) (i mask v : Nat) : s.w1c x i mask v = s := by
  have hfix : ∀ u : State, ∀ f ∈ x.fields, u.clearOnes i mask v f = u := fun u f hf => by simp [State.clearOnes, h f hf]
  rw [State.w1c_eq_foldl, List.foldl_ext _ (fun u _ => u) s hfix, List.foldl_fixed]

section
variable {src : Src} (hsrc : src ≠ .secure)
include hsrc

theorem isSecure_eq_false : isSecure src = false := Bool.eq_false_iff.mpr (mt isSecure_eq_true.mp hsrc)

theorem State.regPut_l2Ctl {x : RegRow} (hreg : x.reg = .L2_CTL) (hw1c : ∀ f ∈ x.fields, f.ty ≠ .w1c) (s : State)
    (i off size v : Nat) : s.regPut src x i off size v = s := by
  have hact : ∀ mask w, s.regAct src x i mask w = some s := fun mask w => by
    simp [State.regAct, hreg, isSecure_eq_false hsrc]
  simp [State.regPut, hreg, State.absentCtl, State.w1c_of_none hw1c, hact]

end

/-! ## What a write that is not taken leaves (R370, R385) -/

section
variable {src : Src} {p : Nat} (hp : ∀ q, src = .host q → p = q)
include hp

/-- A write that does nothing where it arrives changes at most a port's count of dropped writes. -/
theorem State.frame_withReg_of_id {s : State} {f : State → State} (hf : f s = s) (r : Reg) (i : Nat) :
    Frame false [] [F.HIF_PORT_CNT1.DROPPED_WR.at 1, F.HIF_PORT_CNT1.DROPPED_WR.at p] s (s.withReg src r i f) := by
  cases src with
  | host q =>
    unfold State.withReg
    simp only [hf, ite_self]
    exact (Frame.refl s).ite (((Frame.refl s).inc _ (by simp)).ite (Frame.refl s))
  | secure | normal _ | tap =>
    simp only [State.withReg, hf, ite_self]
    exact Frame.refl s

theorem State.frame_regWrite_of_id {s : State} {a size v i : Nat} {x : RegRow} (hfind : findReg a regTable = some (x, i))
    (hput : s.regPut src x i (a % 8) size v = s) :
    Frame false [] [F.HIF_PORT_CNT1.DROPPED_WR.at 1, F.HIF_PORT_CNT1.DROPPED_WR.at p] s (s.regWrite src a size v) := by
  unfold State.regWrite
  rw [hfind]
  split
  next =>
    cases src with
    | host q => exact (Frame.refl s).when ((Frame.refl s).inc _ (by simp [hp q rfl]))
    | secure | normal _ | tap => exact Frame.refl s
  next => exact State.frame_withReg_of_id hp hput ..

end

/-- A requester writes through one port at most. -/
theorem exists_port (src : Src) : ∃ p, ∀ q, src = .host q → p = q := by
  cases src with
  | host q => exact ⟨q, fun _ h => Src.host.inj h⟩
  | secure | normal _ | tap => exact ⟨0, nofun⟩

theorem exec_l2EnWrite (src : Src) (c v : Nat) (s : State) : exec (.l2EnWrite src c v) s =
    .next (if isSecure src && c < 48 then s.withReg src .L2_CTL c (·.l2En c (v % 2 == 1)) else s) := rfl

theorem exec_l2Flush (src : Src) (c : Nat) (s : State) : exec (.l2Flush src c) s =
    .next (if isSecure src && c < 48 then s.withReg src .L2_CTL c (·.l2Flush c) else s) := rfl

theorem exec_l2Inv (src : Src) (c : Nat) (s : State) : exec (.l2Inv src c) s =
    .next (if isSecure src && c < 48 then s.withReg src .L2_CTL c (·.l2Inv c) else s) := rfl

/-- Settles O58: the commands judge the world first, and a register write that reaches L2_CTL finds fields that take data from the
secure world alone. -/
theorem l2ControlIsSecureOnly : Obligations.L2ControlIsSecureOnly := by
  intro s src hsrc
  have hworld : ∀ c, ¬ (isSecure src && decide (c < 48)) = true := by simp [isSecure_eq_false hsrc]
  refine ⟨fun c v => ?_, fun c => ?_, fun c => ?_, fun a size v x i hfind hreg => ?_⟩
  · rw [exec_l2EnWrite, if_neg (hworld c)]
  · rw [exec_l2Flush, if_neg (hworld c)]
  · rw [exec_l2Inv, if_neg (hworld c)]
  · obtain ⟨hbase, hw1c⟩ := l2Ctl_of_findReg hfind hreg
    obtain ⟨hring, hqueue⟩ := not_doorbell_of_le hbase
    obtain ⟨p, hport⟩ := exists_port src
    exact ⟨_, p, exec_registerWrite_of_not_window hring hqueue s src size v, hport,
      (Frame.refl s).ite (State.frame_regWrite_of_id hport hfind (State.regPut_l2Ctl hsrc hreg hw1c ..))⟩

end Sys2Proof.Machine
end

section
/-!
SUPPORT. The end of a directory slice's clearing (R259).
-/

namespace Sys2Proof.Machine

theorem exec_dirClearDone (n : Nat) (s : State) : exec (.dirClearDone n) s =
    .next (if n < 32 && s.sliceLive n && !s.held then s.putBit F.DIR_STATUS.READY 0 n true else s) := rfl

/-- A bit that is set joins those the field read before, as far as the field is wide. -/
theorem State.fbit_putBit_true (s : State) (f : Field) (i k j : Nat) :
    (s.putBit f i k true).fbit f i j = true ↔ j < f.w ∧ (s.fbit f i j = true ∨ k = j) := by
  simp [State.fbit, State.putBit, setBit, Nat.one_shiftLeft, Nat.testBit_two_pow]

/-- Directory group 0 is ON, and the table of register fields lists 2^32 for READY, which no write of the 32-bit field leaves
there. -/
def wideReady : State :=
  { State.reset with
    pins := { State.reset.pins with poreset := false, pwrgd := 0x3F, thermtrip := false }
    regs := [(F.PWR_DOM_STATUS.STATE.at 65, 0), (F.DIR_STATUS.READY.at 0, 2 ^ 32)] }

/-- Refutes O30: the clause on DIR_CLEAR_DONE keeps READY's bit of every number but the slice's own, and READY has 32 bits; in a
state whose READY reads 2^32 the end of slice 0's clearing leaves bit 32 clear. -/
theorem not_directoryServesAndIsControlled : ¬ Obligations.DirectoryServesAndIsControlled := by
  rintro ⟨-, -, -, -, hclear, -⟩
  have hlive : wideReady.sliceLive 0 = true := by decide
  have hheld : wideReady.held = false := by decide
  have hbefore : wideReady.fbit F.DIR_STATUS.READY 0 32 = true := by decide
  obtain ⟨t, ht, -, hkept, -⟩ := hclear wideReady 0 (by decide) hlive hheld
  rw [exec_dirClearDone, hlive, hheld, if_pos (by decide)] at ht
  cases ht
  obtain ⟨hlt, -⟩ := (State.fbit_putBit_true ..).mp ((hkept 32 (by decide)).trans hbefore)
  exact absurd hlt (by decide)

end Sys2Proof.Machine
end

section
/-!
SUPPORT. The proof instructions of a core: opening, nesting, joining, sealing, aborting, testing, and allocating a group (R263 to
R284).
-/

namespace Sys2Proof.Machine

/-! ## A key written twice -/

theorem Tbl.erase_erase {K V : Type} [DecidableEq K] (t : Tbl K V) (k : K) : Tbl.erase (Tbl.erase t k) k = Tbl.erase t k := by
  induction t with
  | nil => rfl
  | cons p t ih =>
    obtain ⟨a, b⟩ := p
    by_cases h : a = k <;> simp [Tbl.erase, h, ih]

theorem Tbl.set_set {K V : Type} [DecidableEq K] [DecidableEq V] (t : Tbl K V) (k : K) (v w d : V) :
    Tbl.set (Tbl.set t k v d) k w d = Tbl.set t k w d := by
  have herase : Tbl.erase (Tbl.set t k v d) k = Tbl.erase t k := by
    unfold Tbl.set
    split <;> simp [Tbl.erase, Tbl.erase_erase]
  rw [Tbl.set, herase, Tbl.set]

theorem State.setHart_setHart (s : State) (k : Nat) (h j : Hart) : (s.setHart k h).setHart k j = s.setHart k j := by
  simp only [State.setHart, Tbl.set_set]

/-- A register write leaves the proof, and does not read it. -/
theorem Hart.setX_with_proof (h : Hart) (p : Option Proof) (r v : Nat) :
    ({ h with proof := p } : Hart).setX r v = { h.setX r v with proof := p } := by
  by_cases hr : r % 32 = 0 <;> simp [Hart.setX, hr]

/-! ## The register fields a performance event leaves (R226) -/

theorem State.regs_perfWrap (s : State) (k n : Nat) : (s.perfWrap k n).regs = s.regs := by
  simp only [State.perfWrap]
  split <;> rfl

theorem State.regs_perf (s : State) (k code n : Nat) : (s.perf k code n).regs = s.regs := by
  refine List.foldlRecOn (motive := fun t : State => t.regs = s.regs) _ _ rfl fun t ht j _ => ?_
  dsimp only
  split_ifs
  · exact (State.regs_perfWrap ..).trans ht
  · exact ht
  · exact ht

theorem State.rd_perf (s : State) (k code n : Nat) (f : Field) (i : Nat) : (s.perf k code n).rd f i = s.rd f i := by
  simp only [State.rd, State.regs_perf]

/-- Retiring an instruction writes LOOP_FAULT alone (R214). -/
theorem State.rd_retire_of_reg (s : State) (k next : Nat) {f : Field} (hf : F.CORE_STATUS.LOOP_FAULT.reg ≠ f.reg) (i : Nat) :
    (s.retire k next).rd f i = s.rd f i := State.rd_wr_of_reg _ _ hf

theorem State.l2On_congr {s t : State} {c : Nat} (h : t.rd F.L2_STATUS.ENABLED c = s.rd F.L2_STATUS.ENABLED c) :
    t.l2On c = s.l2On c := congrArg (· != 0) h

/-! ## Opening (R266) -/

/-- With the L2 enabled a proof opens. -/
theorem State.openProof_of_l2On {u : State} {k : Nat} (hon : u.l2On (clusterOf k) = true) (pc rd ts d : Nat) (g : Option Nat) :
    u.openProof k pc rd ts d g = ((((u.setHart k { (u.hart k).setX rd 0 with
      proof := some (Proof.mk 1 g ts d rd ((u.hart k).checkpoint (pc + 4)) [] [] [] false false false) }).wr
      F.CORE_STATUS.PRF_OPEN k 1).retire k (pc + 4)).perf k 0x000C) := by
  simp only [State.openProof]
  rw [if_pos]
  refine (State.l2On_congr (s := u) ?_).trans hon
  exact (State.rd_perf ..).trans <| (State.rd_retire_of_reg _ _ _ (by decide) _).trans <| State.rd_wr_of_reg _ _ (by decide)

/-! ## A core that issues with no halt pending -/

section
variable {s : State} {k : Nat} (hissue : s.mayIssue k = true) (hhalt : (s.hart k).haltPending = false)
include hissue hhalt

theorem State.issue_of_no_halt (pc : Nat) (f : State → State) : s.issue k pc f = f (s.atInsn k pc) :=
  State.issue_of_mayIssue hissue (by simp [State.haltDue, hhalt]) pc f

theorem exec_prfBegin_of_issue (pc rd : Nat) :
    exec (.prfBegin k pc rd) s = .next ((s.atInsn k pc).prfBegin k pc rd) :=
  congrArg _ (State.issue_of_no_halt hissue hhalt pc _)

theorem exec_prfJoin_of_issue (pc rd rs1 : Nat) :
    exec (.prfJoin k pc rd rs1) s = .next ((s.atInsn k pc).prfJoin k pc rd rs1) :=
  congrArg _ (State.issue_of_no_halt hissue hhalt pc _)

theorem exec_prfGroup_of_issue (pc rd rs1 : Nat) :
    exec (.prfGroup k pc rd rs1) s = .next ((s.atInsn k pc).prfGroup k pc rd rs1) :=
  congrArg _ (State.issue_of_no_halt hissue hhalt pc _)

theorem exec_prfSeal_of_issue (pc rd : Nat) :
    exec (.prfSeal k pc rd) s = .next ((s.atInsn k pc).prfSeal k pc rd) :=
  congrArg _ (State.issue_of_no_halt hissue hhalt pc _)

theorem exec_prfAbort_of_issue (pc imm : Nat) :
    exec (.prfAbort k pc imm) s = .next ((s.atInsn k pc).prfAbort k pc imm) :=
  congrArg _ (State.issue_of_no_halt hissue hhalt pc _)

theorem exec_prfTest_of_issue (pc rd : Nat) :
    exec (.prfTest k pc rd) s = .next ((s.atInsn k pc).prfRd k pc rd ((s.atInsn k pc).hart k).prfWord) :=
  congrArg _ (State.issue_of_no_halt hissue hhalt pc _)

end

/-! ## In a proof or not -/

/-- The lowest free group is taken (R281). -/
theorem State.prfGroup_of_free {u w : State} {k ts rs1 v g : Nat} (hdom : u.domOn 69 = true) (hdoor : u.arbDoor = (.ready, u))
    (hv : v = (Tbl.get (u.hart k).x (rs1 % 32) 0).toNat) (hpos : 1 ≤ v) (hle : v ≤ 64)
    (hquota : u.rd F.PRF_SLICE_GRP.USED (u.grpSlice k) < u.rd F.PRF_SLICE_GRP.LIMIT (u.grpSlice k))
    (hfree : (List.range 4096).find? (fun g => u.groupState g == gsFREE) = some g) (hstamp : u.stamp k = (ts, w)) (pc rd : Nat) :
    u.prfGroup k pc rd rs1 = (w.groupOpen g k v ts).prfRd k pc rd ((w.groupOpen g k v ts).handleOf g) := by
  have hcount : ¬ (v = 0 || 64 < v) = true := by
    simp only [Bool.or_eq_true, decide_eq_true_eq]
    omega
  simp only [State.prfGroup, ← hv, hdom, hdoor, Bool.not_true, Bool.false_eq_true, if_false, if_neg hcount,
    if_neg (Nat.not_le.mpr hquota), hfree, hstamp]

/-- Code 0 is a reserved encoding, in a proof or not (R263). -/
theorem State.prfAbort_of_reserved {imm : Nat} (himm : imm % 256 = 0) (u : State) (k pc : Nat) :
    u.prfAbort k pc imm = u.illegal k pc := if_pos himm

/-- The state word of R265. -/
theorem Hart.prfWord_of_no_proof {h : Hart} (hproof : h.proof = none) : h.prfWord = 0 := by
  simp only [Hart.prfWord, hproof]

theorem Hart.prfWord_of_proof {h : Hart} {p : Proof} (hproof : h.proof = some p) : h.prfWord = p.depth +
    b2n p.group.isSome <<< 3 + b2n p.sealing <<< 4 + b2n p.deferring <<< 5 + (p.writes.length % 2048) <<< 16 +
    (p.group.getD 0) <<< 32 := by
  simp only [Hart.prfWord, hproof]

/-! ## With no proof open -/

section
variable {u w : State} {k ts : Nat} (hproof : (u.hart k).proof = none)
include hproof

theorem State.prfBegin_of_no_proof (hmb : (u.hart k).mb = []) (hstamp : u.stamp k = (ts, w)) (pc rd : Nat) :
    u.prfBegin k pc rd = w.openProof k pc rd ts k none := by
  simp [State.prfBegin, hproof, State.drainAll_of_empty hmb, hstamp]

theorem State.prfJoin_of_accepted {rs1 g : Nat} {x : Group} (hmb : (u.hart k).mb = []) (hdoor : u.arbDoor = (.ready, u))
    (haccept : u.joinRefusal k (Tbl.get (u.hart k).x (rs1 % 32) 0).toNat = none)
    (hg : g = bits (Tbl.get (u.hart k).x (rs1 % 32) 0).toNat 0 12) (hfind : Tbl.find u.groups g = some x) (pc rd : Nat) :
    u.prfJoin k pc rd rs1 = (State.inc { u with groups := Tbl.put u.groups g { x with joined := x.joined ++ [k] } }
      F.PRF_GRP_STATUS.JOINED g).openProof k pc rd x.timestamp x.allocCore (some g) := by
  simp only [State.prfJoin, State.inProof, hproof, Option.isSome_none, Bool.false_eq_true, if_false, hdoor, haccept,
    State.drainAll_of_empty hmb, if_true, ← hg, State.joinGroup, hfind]

theorem State.prfSeal_of_no_proof (pc rd : Nat) : u.prfSeal k pc rd = u.prfRd k pc rd 0x106 := by
  simp [State.prfSeal, hproof]

theorem State.prfAbort_of_no_proof {imm : Nat} (himm : imm % 256 ≠ 0) (pc : Nat) :
    u.prfAbort k pc imm = u.retire k (pc + 4) := by
  simp [State.prfAbort, State.inProof, himm, hproof]

end

/-! ## Inside a proof -/

section
variable {u : State} {k : Nat} {p : Proof} (hproof : (u.hart k).proof = some p)
include hproof

theorem State.prfBegin_of_nested (hdepth : p.depth < 7) (pc rd : Nat) :
    u.prfBegin k pc rd = (u.onProof k (fun p => { p with depth := p.depth + 1 })).prfRd k pc rd 0 := by
  simp [State.prfBegin, hproof, Nat.ne_of_lt hdepth]

theorem State.prfSeal_of_nested (hdepth : 1 < p.depth) (pc rd : Nat) :
    u.prfSeal k pc rd = (u.onProof k (fun p => { p with depth := p.depth - 1 })).prfRd k pc rd 0 := by
  simp [State.prfSeal, hproof, hdepth]

theorem State.prfSeal_of_outermost (hdepth : p.depth = 1) (hmb : (u.hart k).mb = []) (pc rd : Nat) :
    u.prfSeal k pc rd = u.sealDrained k pc rd := by
  simp [State.prfSeal, hproof, hdepth, State.drainAll_of_empty hmb]

theorem State.sealDrained_of_single (hgroup : p.group = none) (pc rd : Nat) :
    u.sealDrained k pc rd = u.commitSingle k pc rd p := by
  simp [State.sealDrained, hproof, hgroup]

/-- A participant waits for its group's outcome (R269). -/
theorem State.sealDrained_of_participant {g : Nat} (hgroup : p.group = some g) (pc rd : Nat) :
    u.sealDrained k pc rd = u.setHart k { (u.hart k).setX rd 0 with proof := some { p with sealing := true } } := by
  simp [State.sealDrained, hproof, hgroup, State.onProof, State.setHart_setHart, Hart.setX_with_proof]

theorem State.prfAbort_of_proof {imm : Nat} (himm : imm % 256 ≠ 0) (pc : Nat) :
    u.prfAbort k pc imm = u.proofAbort k 7 0 (imm % 256) := by
  simp [State.prfAbort, State.inProof, himm, hproof]

end

/-- Settles O32: whether a proof is open, its depth and its group pick the one branch of each instruction. -/
theorem proofsOpenSealAndAbort : Obligations.ProofsOpenSealAndAbort := by
  refine ⟨fun u k pc rd ts d g hon => State.openProof_of_l2On hon .., ?outside, ?inside⟩
  case outside =>
    rintro s u k pc rd hfree rfl
    obtain ⟨hissue, hhalt, hproof, hmb⟩ := (State.coreFree_iff s k).mp hfree
    have hproof' : ((s.atInsn k pc).hart k).proof = none := by rw [State.hart_atInsn, hproof]
    have hmb' : ((s.atInsn k pc).hart k).mb = [] := State.mb_atInsn_of_coreFree hfree pc
    refine ⟨?prfBegin, ?prfJoin, ?prfGroup, ?prfSeal, ?reserved, ?prfAbort, ?prfTest⟩
    case prfBegin =>
      intro ts w hstamp
      rw [exec_prfBegin_of_issue hissue hhalt, State.prfBegin_of_no_proof hproof' hmb' hstamp]
    case prfJoin =>
      intro rs1 g x hdoor haccept hg hfind
      rw [exec_prfJoin_of_issue hissue hhalt, State.prfJoin_of_accepted hproof' hmb' hdoor haccept hg hfind]
    case prfGroup =>
      intro rs1 v g ts w hdom hdoor hv hpos hle hquota hlowest hstamp
      rw [exec_prfGroup_of_issue hissue hhalt, State.prfGroup_of_free hdom hdoor hv hpos hle hquota hlowest hstamp]
    case prfSeal => rw [exec_prfSeal_of_issue hissue hhalt, State.prfSeal_of_no_proof hproof']
    case reserved =>
      intro imm himm
      rw [exec_prfAbort_of_issue hissue hhalt, State.prfAbort_of_reserved himm]
    case prfAbort =>
      intro imm himm
      rw [exec_prfAbort_of_issue hissue hhalt, State.prfAbort_of_no_proof hproof' himm]
    case prfTest => rw [exec_prfTest_of_issue hissue hhalt, Hart.prfWord_of_no_proof hproof']
  case inside =>
    rintro s u k pc rd p hissue hhalt rfl hproof
    refine ⟨?prfBegin, ?nested, ?single, ?participant, ?prfAbort, ?prfTest⟩
    case prfBegin =>
      intro hdepth
      rw [exec_prfBegin_of_issue hissue hhalt, State.prfBegin_of_nested hproof hdepth]
    case nested =>
      intro hdepth
      rw [exec_prfSeal_of_issue hissue hhalt, State.prfSeal_of_nested hproof hdepth]
    case single =>
      intro hdepth hmb hgroup
      rw [exec_prfSeal_of_issue hissue hhalt, State.prfSeal_of_outermost hproof hdepth hmb,
        State.sealDrained_of_single hproof hgroup, State.commitSingle]
    case participant =>
      intro g hdepth hmb hgroup
      rw [exec_prfSeal_of_issue hissue hhalt, State.prfSeal_of_outermost hproof hdepth hmb,
        State.sealDrained_of_participant hproof hgroup]
    case prfAbort =>
      intro imm himm
      rw [exec_prfAbort_of_issue hissue hhalt, State.prfAbort_of_proof hproof himm]
    case prfTest => rw [exec_prfTest_of_issue hissue hhalt, Hart.prfWord_of_proof hproof]

end Sys2Proof.Machine
end

section
/-!
SUPPORT. Groups at the proof arbiter: seals, commits, acknowledgements, aborts and time limits (R274 to R293).
-/

namespace Sys2Proof.Machine

/-! ## Messages to an arbiter that is ready -/

section
variable {s : State} (hheld : s.held = false) (hdoor : s.arbDoor = (.ready, s))
include hheld hdoor

theorem State.atArbiter_of_ready (f : State → State) : s.atArbiter f = f s := by
  simp [State.atArbiter, hheld, hdoor]

theorem exec_sealMessage_of_ready (g k : Nat) : exec (.sealMessage g k) s = .next (s.sealArrive g k) :=
  congrArg _ (State.atArbiter_of_ready hheld hdoor _)

theorem exec_groupCommitAck_of_ready (g k : Nat) : exec (.groupCommitAck g k) s = .next (s.commitAck g k) :=
  congrArg _ (State.atArbiter_of_ready hheld hdoor _)

theorem exec_participantAbort_of_ready (g k : Nat) : exec (.participantAbort g k) s = .next (s.partAbort g k) :=
  congrArg _ (State.atArbiter_of_ready hheld hdoor _)

theorem exec_groupAbortDone_of_ready (g : Nat) : exec (.groupAbortDone g) s = .next (s.abortDone g) :=
  congrArg _ (State.atArbiter_of_ready hheld hdoor _)

theorem exec_groupTimeout_of_ready {g : Nat} (hg : g < 4096) : exec (.groupTimeout g) s = .next (s.groupTimeout g) :=
  congrArg _ ((if_pos hg).trans (State.atArbiter_of_ready hheld hdoor _))

end

/-! ## What they do to a group in the state they act on (R280, R284) -/

/-- The seal of core `k` is recorded. -/
def State.sealRecorded (s : State) (g k : Nat) (x : Group) : State :=
  State.inc { s with groups := Tbl.put s.groups g { x with sealed := x.sealed ++ [k] } } F.PRF_GRP_STATUS.SEALED g

/-- The commit point of a group: every joined core's proof commits, and each is to acknowledge it. -/
def State.commitPoint (s : State) (g : Nat) (x : Group) : State :=
  x.joined.foldl (fun s j => s.onProof j (fun p => { p with committing := true }))
    (State.wr { s with groups := Tbl.put s.groups g { x with acks := x.joined } } F.PRF_GRP_STATUS.STATE g gsCOMMITTING)

section
variable {s : State} {g k : Nat} {x : Group} (hfind : Tbl.find s.groups g = some x)
include hfind

section
variable (hopen : s.groupState g = gsOPEN) (hnew : x.sealed.contains k = false)
  (hsealing : (s.hart k).proof.any (fun p => p.group == some g && p.sealing) = true)
include hopen hnew hsealing

/-- The seal of a participant of an OPEN group is recorded, and is the commit point if it is the last and no abort is pending. -/
theorem State.sealArrive_of_sealing : s.sealArrive g k =
    if (s.sealRecorded g k x).rd F.PRF_GRP_STATUS.SEALED g < (s.sealRecorded g k x).rd F.PRF_GRP_STATUS.EXPECT g ∨
        x.aborts ≠ []
    then s.sealRecorded g k x else (s.sealRecorded g k x).commitPoint g { x with sealed := x.sealed ++ [k] } := by
  simp only [State.sealArrive, hfind]
  refine (if_neg (by simp only [hopen, hnew, hsealing]; decide)).trans (if_congr ?_ rfl rfl)
  rw [Bool.or_eq_true, decide_eq_true_eq, Bool.not_eq_true', List.isEmpty_eq_false_iff]
  rfl

theorem State.sealArrive_of_short (hshort : (s.sealRecorded g k x).rd F.PRF_GRP_STATUS.SEALED g <
    (s.sealRecorded g k x).rd F.PRF_GRP_STATUS.EXPECT g ∨ x.aborts ≠ []) : s.sealArrive g k = s.sealRecorded g k x :=
  (State.sealArrive_of_sealing hfind hopen hnew hsealing).trans (if_pos hshort)

theorem State.sealArrive_of_last (hlast : (s.sealRecorded g k x).rd F.PRF_GRP_STATUS.EXPECT g ≤
    (s.sealRecorded g k x).rd F.PRF_GRP_STATUS.SEALED g) (hclean : x.aborts = []) : s.sealArrive g k =
    (s.sealRecorded g k x).commitPoint g { x with sealed := x.sealed ++ [k] } :=
  (State.sealArrive_of_sealing hfind hopen hnew hsealing).trans
    (if_neg (not_or.mpr ⟨Nat.not_lt.mpr hlast, not_not.mpr hclean⟩))

end

theorem State.commitAck_of_last (hcommit : s.groupState g = gsCOMMITTING) (hacks : x.acks = [k])
    (hproof : (s.hart k).proof = none) : s.commitAck g k =
    (((State.releaseDbs { s with groups := Tbl.put s.groups g { x with acks := [] } } x.doorbells).wr
      F.PRF_GRP_INFO.DB_HELD g 0).inc F.PRF_CNT0.GROUP_COMMITS).groupFree g := by
  simp [State.commitAck, hfind, hcommit, hacks, hproof]

theorem State.partAbort_of_only {cause : Nat} (haborts : x.aborts = [(k, cause)]) : s.partAbort g k =
    State.groupAbort { s with groups := Tbl.put s.groups g { x with aborts := [] } } g k cause 8 := by
  simp [State.partAbort, hfind, haborts]

theorem State.abortDone_of_rolled_back (habort : s.groupState g = gsABORTING)
    (hdone : x.joined.any (fun k => (s.hart k).proof.any (fun p => p.group == some g)) = false) :
    s.abortDone g = s.groupFree g := by
  simp only [State.abortDone, hfind, habort, hdone]
  rfl

end

theorem State.groupTimeout_of_open {s : State} {g : Nat} (hopen : s.groupState g = gsOPEN) : s.groupTimeout g =
    ((s.inc F.PRF_CNT2.TIMEOUTS).raise F.PRF_STATUS.EVT_TIMEOUT).groupAbort g (s.rd F.PRF_GRP_INFO.LAST_ABORT_CORE g) 8 8 :=
  if_neg (not_not.mpr hopen)

/-- The commit reaches a participant, whose seal retires (R284). -/
theorem State.groupCommit_of_committing {s : State} {g k : Nat} (hcommit : s.groupState g = gsCOMMITTING)
    (hproof : (s.hart k).proof.any (fun p => p.group == some g && p.committing) = true) :
    s.groupCommit g k = ((s.clearProof k).retire k ((s.hart k).pc + 4)).perf k 0x000E := by
  rw [State.groupCommit, if_neg (by simp [hcommit, hproof])]

theorem exec_groupCommit_of_not_held {s : State} (hheld : s.held = false) (g k : Nat) :
    exec (.groupCommit g k) s = .next (s.groupCommit g k) := congrArg _ (if_neg (by simp [hheld]))

/-! ## Limits on holding and deferring, and the end of clearing (R274, R287, R293) -/

theorem exec_snoopHoldTimeout_of_live {s : State} {c : Nat} (hheld : s.held = false) (hlive : s.clusterLive c = true)
    (line : Nat) : exec (.snoopHoldTimeout c line) s = .next (s.holdTimeout c line) :=
  congrArg _ (if_neg (by simp [hheld, hlive]))

theorem State.holdTimeout_of_one {s : State} {c line k : Nat} {h : HeldSnoop} {p : Proof} (hsnoop : (s.l2c c).held = [h])
    (hline : h.line = line) (hholder : h.holders = [k]) (hproof : (s.hart k).proof = some p) (hcommit : p.committing = false) :
    s.holdTimeout c line = s.proofAbort k 1 line 0 := by
  simp [State.holdTimeout, hsnoop, hline, hholder, List.eraseDups_cons, hproof, hcommit]

theorem exec_deferBudgetExpire_of_deferring {s : State} {k : Nat} {p : Proof} (hthere : s.coreThere k = true)
    (hproof : (s.hart k).proof = some p) (hdefer : p.deferring = true) (hcommit : p.committing = false) :
    exec (.deferBudgetExpire k) s = .next (s.proofAbort k 4 0 0) :=
  congrArg _ (if_pos (by simp [hthere, hproof, hdefer, hcommit]))

theorem exec_prfClearDone_of_clearing {s : State} (hdom : s.domOn 69 = true) (hheld : s.held = false)
    (hready : s.is F.PRF_STATUS.READY = false) : exec .prfClearDone s = .next (s.wr F.PRF_STATUS.READY 0 1) :=
  congrArg _ (if_pos (by simp [hdom, hheld, hready]))

/-! ## A group that is freed (R278, R280) -/

@[simp] theorem State.groups_grpSettle (s : State) (sl : Nat) : (s.grpSettle sl).groups = s.groups := by
  unfold State.grpSettle
  split <;> rfl

/-- The settling of a quota leaves the groups' own registers. -/
theorem State.groupState_grpSettle (s : State) (sl g : Nat) : (s.grpSettle sl).groupState g = s.groupState g := by
  unfold State.grpSettle
  split
  · exact (State.rd_wr_of_reg _ _ (by decide)).trans (State.rd_wr_of_reg _ _ (by decide))
  · rfl

@[simp] theorem State.groups_groupFree (s : State) (g : Nat) : (s.groupFree g).groups = Tbl.erase s.groups g :=
  State.groups_grpSettle ..

@[simp] theorem State.groupState_groupFree (s : State) (g : Nat) : (s.groupFree g).groupState g = gsFREE := by
  refine (State.groupState_grpSettle ..).trans ?_
  refine (State.rd_wr_of_reg _ _ (by decide)).trans <| (State.rd_wr_of_reg _ _ (by decide)).trans <|
    (State.rd_wr_of_lo _ _ (by decide)).trans ?_
  exact State.rd_wr_self ..

/-- Settles O33: the group's state, its record and what is pending on it pick the one branch of each message. -/
theorem groupsCommitAndAbort : Obligations.GroupsCommitAndAbort := by
  refine ⟨?arbiter, ?commit, ?snoop, ?defer, ?clear, ?freed⟩
  case arbiter =>
    intro s g k x hheld hdoor hfind
    refine ⟨?sealing, ?ack, ?participant, ?done, ?timeout⟩
    case sealing =>
      intro hopen hnew hsealing
      refine ⟨s.sealRecorded g k x, rfl, fun hshort => ?_, fun hlast hclean => ?_⟩
      · rw [exec_sealMessage_of_ready hheld hdoor, State.sealArrive_of_short hfind hopen hnew hsealing hshort]
      · exact (exec_sealMessage_of_ready hheld hdoor g k).trans
          (congrArg _ (State.sealArrive_of_last hfind hopen hnew hsealing hlast hclean))
    case ack =>
      intro hcommit hacks hproof
      rw [exec_groupCommitAck_of_ready hheld hdoor, State.commitAck_of_last hfind hcommit hacks hproof]
    case participant =>
      intro cause haborts
      rw [exec_participantAbort_of_ready hheld hdoor, State.partAbort_of_only hfind haborts]
    case done =>
      intro habort hdone
      rw [exec_groupAbortDone_of_ready hheld hdoor, State.abortDone_of_rolled_back hfind habort hdone]
    case timeout =>
      intro hg hopen
      rw [exec_groupTimeout_of_ready hheld hdoor hg, State.groupTimeout_of_open hopen]
  case commit =>
    intro s g k hheld hcommit hproof
    rw [exec_groupCommit_of_not_held hheld, State.groupCommit_of_committing hcommit hproof]
  case snoop =>
    intro s c line k h p hheld hlive hsnoop hline hholder hproof hcommit
    rw [exec_snoopHoldTimeout_of_live hheld hlive, State.holdTimeout_of_one hsnoop hline hholder hproof hcommit]
  case defer => exact fun s k p hthere hproof hdefer hcommit => exec_deferBudgetExpire_of_deferring hthere hproof hdefer hcommit
  case clear => exact fun s hdom hheld hready => exec_prfClearDone_of_clearing hdom hheld hready
  case freed =>
    intro s g x hne
    rw [State.groups_groupFree]
    exact ⟨State.groupState_groupFree s g, Tbl.find_erase_self _ g, Tbl.find_erase_of_ne _ hne.symm⟩

end Sys2Proof.Machine
end

section
/-!
SUPPORT. The step of the machine: the front command runs on the queue's rest, and what every command keeps every step keeps.
-/

namespace Sys2Proof.Machine

/-! ## The root tick -/

theorem step_of_pending (s : State) (c : Instr) (q : List Instr) :
    step { s with pending := c :: q } = exec c { s with pending := q } := rfl

theorem step_of_empty {s : State} (h : s.pending = []) : step s = .next s.idle := by
  simp only [step, h]

theorem State.idle_of_recPending {s : State} (h : s.hif.recPending = true) : s.idle = s.warmReset s.hif.recCause := if_pos h

theorem State.idle_of_not_recPending {s : State} (h : s.hif.recPending = false) : s.idle = s.rootTick := by
  simp [State.idle, h]

theorem State.rootTick_of_held {s : State} (h : s.held = true) : s.rootTick = s := if_pos h

theorem State.rd_time_rootTick {s : State} (h : s.held = false) :
    s.rootTick.rd F.CKR_TIME.TIME = (s.rd F.CKR_TIME.TIME + 1) % 2 ^ F.CKR_TIME.TIME.w := by
  simp only [State.rootTick, h, Bool.false_eq_true, if_false]
  rw [State.rd_wr_of_reg _ _ (by decide), State.rd_wr_self]
  rfl

theorem State.rootTick_frame (s : State) : Frame false [.ckr] [F.CKR_TIME.TIME.at, F.CKR_FTIME.FTIME.at] s s.rootTick := by
  unfold State.rootTick
  exact (Frame.refl s).ite ((((Frame.refl s).with_ckr (by simp)).wr _ (by simp)).wr _ (by simp))

/-- Settles O1: a step is exec on the queue's rest, and the idle step is Calom's pending warm reset or the root tick (log 15). -/
theorem stepRunsTheFrontCommand : Obligations.StepRunsTheFrontCommand := by
  refine ⟨step_of_pending, fun s hq => ⟨fun hr => ?_, fun hr hh => ?_, fun hr hh => ⟨s.rootTick, ?_, ?_, s.rootTick_frame⟩⟩⟩
  · rw [step_of_empty hq, State.idle_of_recPending hr]
  · rw [step_of_empty hq, State.idle_of_not_recPending hr, State.rootTick_of_held hh]
  · rw [step_of_empty hq, State.idle_of_not_recPending hr]
  · exact State.rd_time_rootTick hh

/-- A step ends in a next state, with what `Keeps` says of the state with the front command taken off. -/
theorem step_keeps (s : State) : ∃ t, step s = .next t ∧ Keeps (s.rest s.pending.tail) t := by
  cases hq : s.pending with
  | nil =>
    have hrest : s.rest [] = s := by rw [State.rest, ← hq]
    exact ⟨_, step_of_empty hq, by rw [List.tail_nil, hrest]; exact (Keeps.refl s).idle⟩
  | cons c q =>
    obtain ⟨t, ht, hk⟩ := exec_keeps c (s.rest q)
    refine ⟨t, ?_, hk⟩
    simp only [step, hq]
    exact ht

/-- Settles O3: the invariant is one of the parts of `Keeps`, which every command and the idle step have. -/
theorem everyStepKeepsMemoryCanonical : Obligations.EveryStepKeepsMemoryCanonical := by
  intro s hwf
  obtain ⟨t, ht, hk⟩ := step_keeps s
  exact ⟨t, ht, hk.mem hwf, hk.hw, hk.pending⟩

end Sys2Proof.Machine
end

section
/-!
SUPPORT. What memory reads after a store and when two memories are equal; a sheet written whole decodes to its data.
-/

namespace Sys2Proof.Machine

/-! ## Bytes stored -/

theorem State.memPut_succ (s : State) (pa n v : Nat) :
    s.memPut pa (n + 1) v = (s.memPut pa n v).memSet (pa + n) (BitVec.ofNat 8 (v >>> (8 * n))) := by
  simp only [State.memPut, List.range_succ, List.foldl_append, List.foldl_cons, List.foldl_nil]

theorem State.memPut_wf {s : State} (h : s.mem.wf = true) (pa n v : Nat) : (s.memPut pa n v).mem.wf = true :=
  ((Keeps.refl s).memPut pa n v).mem h

theorem State.memPut_frame (s : State) (pa n v : Nat) : Frame false [.mem] [] s (s.memPut pa n v) :=
  (Frame.refl s).foldl _ fun _ _ _ h => h.with_mem (by simp)

theorem State.memByte_memSet_self {s : State} (h : s.mem.wf = true) (pa : Nat) (b : BitVec 8) :
    (s.memSet pa b).memByte pa = b := cellRead_write_self _ 0 pa b h (Nat.zero_le pa)

theorem State.memByte_memSet_of_ne (s : State) {pa a : Nat} (b : BitVec 8) (h : a ≠ pa) :
    (s.memSet pa b).memByte a = s.memByte a := cellRead_write_of_ne _ b h

theorem State.memByte_memPut_of_not_stored (s : State) {pa n a : Nat} (v : Nat) (h : a < pa ∨ pa + n ≤ a) :
    (s.memPut pa n v).memByte a = s.memByte a := by
  induction n with
  | zero => rfl
  | succ n ih => rw [State.memPut_succ, State.memByte_memSet_of_ne _ _ (by omega), ih (by omega)]

theorem State.memByte_memPut_of_stored {s : State} (hwf : s.mem.wf = true) (pa v : Nat) {n k : Nat} (h : k < n) :
    (s.memPut pa n v).memByte (pa + k) = BitVec.ofNat 8 (v >>> (8 * k)) := by
  induction n with
  | zero => cases h
  | succ n ih =>
    rw [State.memPut_succ]
    rcases Nat.lt_succ_iff_lt_or_eq.mp h with hk | rfl
    · rw [State.memByte_memSet_of_ne _ _ (by omega), ih hk]
    · exact State.memByte_memSet_self (State.memPut_wf hwf ..) ..

/-! ## The canonical form decides equality (log 9) -/

/-- A canonical memory reads zero below its first address. -/
theorem cellRead_of_lt {m : List Host.Cell} {lo k : Nat} (hwf : cellsWf lo m = true) (h : k < lo) : cellRead m k = 0 := by
  induction m generalizing lo with
  | nil => rfl
  | cons c m ih =>
    obtain ⟨a, b⟩ := c
    simp only [cellsWf, Bool.and_eq_true, decide_eq_true_eq] at hwf
    obtain ⟨⟨hlo, -⟩, hrest⟩ := hwf
    rw [cellRead, if_neg (by omega)]
    exact ih hrest (by omega)

/-- Two canonical memories that read alike begin at the same address. -/
theorem fst_le_of_cellRead_eq {a c : Nat} {b d : BitVec 8} {m n : List Host.Cell} {lo : Nat} (hm : cellsWf lo ((a, b) :: m) = true)
    (hn : cellsWf lo ((c, d) :: n) = true) (h : ∀ k, cellRead ((a, b) :: m) k = cellRead ((c, d) :: n) k) : c ≤ a := by
  simp only [cellsWf, Bool.and_eq_true, decide_eq_true_eq] at hm hn
  by_contra hlt
  have hzero : cellRead ((c, d) :: n) a = 0 := by
    rw [cellRead, if_neg (by omega)]
    exact cellRead_of_lt hn.2 (by omega)
  have hb := h a
  rw [hzero, cellRead, if_pos rfl] at hb
  exact hm.1.2 hb

theorem cells_eq_of_cellRead_eq {m n : List Host.Cell} {lo : Nat} (hm : cellsWf lo m = true) (hn : cellsWf lo n = true)
    (h : ∀ k, cellRead m k = cellRead n k) : m = n := by
  induction m generalizing n lo with
  | nil =>
    cases n with
    | nil => rfl
    | cons c n =>
      obtain ⟨a, b⟩ := c
      simp only [cellsWf, Bool.and_eq_true, decide_eq_true_eq] at hn
      have hb := h a
      simp only [cellRead, if_true] at hb
      exact absurd hb.symm hn.1.2
  | cons c m ih =>
    obtain ⟨a, b⟩ := c
    cases n with
    | nil =>
      simp only [cellsWf, Bool.and_eq_true, decide_eq_true_eq] at hm
      have hb := h a
      simp only [cellRead, if_true] at hb
      exact absurd hb hm.1.2
    | cons e n =>
      obtain ⟨c, d⟩ := e
      obtain rfl : a = c := Nat.le_antisymm (fst_le_of_cellRead_eq hn hm fun k => (h k).symm) (fst_le_of_cellRead_eq hm hn h)
      have hb := h a
      simp only [cellRead, if_true] at hb
      subst hb
      simp only [cellsWf, Bool.and_eq_true, decide_eq_true_eq] at hm hn
      rw [ih hm.2 hn.2 fun k => ?_]
      by_cases hk : k ≤ a
      · rw [cellRead_of_lt hm.2 (by omega), cellRead_of_lt hn.2 (by omega)]
      · have hk' := h k
        rwa [cellRead, cellRead, if_neg (by omega), if_neg (by omega)] at hk'

/-! ## A sheet written whole (R336, R338) -/

/-- The bytes of a number, put together again. -/
theorem leNat_bytes (n v : Nat) : leNat ((List.range n).map fun k => BitVec.ofNat 8 (v >>> (8 * k))) = v % 2 ^ (8 * n) := by
  induction n generalizing v with
  | zero => simp [leNat, Nat.mod_one]
  | succ n ih =>
    have hrest : (List.range n).map ((fun k => BitVec.ofNat 8 (v >>> (8 * k))) ∘ Nat.succ) =
        (List.range n).map fun k => BitVec.ofNat 8 ((v >>> 8) >>> (8 * k)) := by
      refine List.map_congr_left fun k _ => ?_
      rw [Function.comp_apply, Nat.succ_eq_add_one, ← Nat.shiftRight_add, Nat.mul_succ, Nat.add_comm (8 * k)]
    rw [List.range_succ_eq_map, List.map_cons, List.map_map, leNat, hrest, ih, BitVec.toNat_ofNat, Nat.mul_zero,
      Nat.shiftRight_zero, Nat.shiftRight_eq_div_pow, Nat.mul_succ, Nat.add_comm (8 * n), Nat.pow_add]
    exact (Nat.mod_mul).symm

theorem State.memNat_memPut {s : State} (hwf : s.mem.wf = true) (pa n v : Nat) :
    (s.memPut pa n v).memNat pa n = v % 2 ^ (8 * n) := by
  rw [← leNat_bytes, State.memNat]
  refine congrArg leNat (List.map_congr_left fun k hk => ?_)
  exact State.memByte_memPut_of_stored hwf pa v (List.mem_range.mp hk)

theorem State.memNat_setCode (s : State) (m : Nat) (c : SheetCode) (pa n : Nat) :
    (s.setCode m c).memNat pa n = s.memNat pa n := rfl

/-- A sheet's data read back; the exponent is a variable, so that no power of two is computed. -/
theorem State.memNat_putSheet {s : State} (hwf : s.mem.wf = true) (n : Nat) {d k : Nat} (hk : 8 * 256 = k) (hd : d < 2 ^ k)
    (lower upper : Bool) : (s.putSheet n d lower upper).memNat (256 * n) 256 = d := by
  rw [State.putSheet, State.memNat_setCode, State.memNat_memPut hwf, hk]
  exact Nat.mod_eq_of_lt hd

theorem State.codeOf_putSheet (s : State) (n d : Nat) (lower upper : Bool) :
    (s.putSheet n d lower upper).codeOf n = { lower := lower, upper := upper, errs := [], tagXor := 0 } :=
  Tbl.get_set_self ..

/-- The marker of a sheet names its poisoned lines (R336). -/
theorem markerLines_marker (lower upper : Bool) : markerLines (marker lower upper) = some (lower, upper) := by
  cases lower <;> cases upper <;> decide

/-- Without errors a sheet decodes to its data at every strength. -/
theorem decodeSheet_of_no_errors (t n d : Nat) (lower upper : Bool) :
    decodeSheet t n d { lower := lower, upper := upper, errs := [], tagXor := 0 } = Sheet.mk .clean d lower upper := by
  have hfix : rsCorrect t [] = some [] := if_pos (Nat.zero_le t)
  have hdata : dataXor [] = 0 := by simp only [dataXor, List.foldl_nil, Nat.zero_mod, -Nat.reducePow]
  have htag : tagErr [] = 0 := Nat.zero_mod _
  simp [decodeSheet, errPattern, hfix, hdata, htag, markerLines_marker]

/-- Settles O5: bytes are stored one at a time, the canonical form is decided address by address, and a sheet without errors decodes
to itself. -/
theorem memoryReadsBackWhatIsWritten : Obligations.MemoryReadsBackWhatIsWritten := by
  refine ⟨fun s pa n v hwf => ⟨State.memPut_wf hwf pa n v, fun k hk => State.memByte_memPut_of_stored hwf pa v hk,
    fun a ha => s.memByte_memPut_of_not_stored v ha, s.memPut_frame pa n v⟩,
    fun s t hs ht h => cells_eq_of_cellRead_eq hs ht h, fun s n d t lower upper hwf hd _ => ⟨_, rfl, ?_, ?_⟩⟩
  · exact State.memNat_putSheet (k := 2048) hwf n rfl hd lower upper
  · rw [State.codeOf_putSheet, decodeSheet_of_no_errors]

end Sys2Proof.Machine
end

section
/-!
SUPPORT. What a set event bit leaves: the firing of its source on the rise of its level.
-/

namespace Sys2Proof.Machine

/-! ## A firing of a source (R524 to R527) -/

/-- The MSI-X pending bits apart, a message leaves every register field. -/
theorem State.rd_msix_of_reg (s : State) (p v : Nat) {f : Field} (h : F.MSIX_PBA.PEND.reg ≠ f.reg) (i : Nat) :
    (s.msix p v).rd f i = s.rd f i := by
  unfold State.msix
  dsimp only
  split
  · rfl
  · split
    · exact State.rd_wr_of_reg _ _ h
    · simp

theorem State.rd_sendEvent_of_reg (s : State) (n : Nat) {f : Field} (h : F.MSIX_PBA.PEND.reg ≠ f.reg) (i : Nat) :
    (s.sendEvent n).rd f i = s.rd f i := by
  unfold State.sendEvent
  dsimp only
  split
  · exact s.rd_msix_of_reg _ _ h i
  · exact s.rd_msix_of_reg _ _ h i
  all_goals rfl

/-- A maskable firing counts no FIRED of its own: at most MERGED (R527). -/
theorem State.rd_fired_deliver (s : State) (n : Nat) : (s.deliver n).rd F.EVC_SRC_CNT.FIRED n = s.rd F.EVC_SRC_CNT.FIRED n := by
  unfold State.deliver
  split
  · rfl
  split
  · exact s.rd_sendEvent_of_reg n (by decide) n
  split
  · exact State.rd_wr_of_lo _ _ (by decide)
  split
  · rfl
  · exact State.rd_sendEvent_of_reg _ n (by decide) n

theorem State.rd_fired_fireNmi (s : State) (n : Nat) : (s.fireNmi n).rd F.EVC_SRC_CNT.FIRED n =
    (s.inc F.EVC_SRC_CNT.FIRED n).rd F.EVC_SRC_CNT.FIRED n := by
  unfold State.fireNmi
  dsimp only
  rw [State.rd_msix_of_reg _ _ _ (by decide)]
  exact (State.rd_wr_of_reg _ _ (by decide)).trans (State.rd_wr_of_reg _ _ (by decide))

theorem State.rd_inc_self (s : State) (f : Field) (i n : Nat) : (s.inc f i n).rd f i = satAdd f.w (s.rd f i) n := by
  have hlt : satAdd f.w (s.rd f i) n < 2 ^ f.w :=
    lt_of_le_of_lt (Nat.min_le_right ..) (Nat.sub_lt (Nat.two_pow_pos _) Nat.one_pos)
  rw [State.inc, State.rd_wr_self, Nat.mod_eq_of_lt hlt]

/-- A firing counts in FIRED, maskable or not. -/
theorem State.rd_fired_fire (s : State) (n : Nat) (nm : Bool) : (s.fire n nm).rd F.EVC_SRC_CNT.FIRED n =
    satAdd F.EVC_SRC_CNT.FIRED.w (s.rd F.EVC_SRC_CNT.FIRED n) 1 := by
  unfold State.fire
  split
  · rw [State.rd_fired_fireNmi, State.rd_inc_self]
  · rw [State.rd_fired_deliver, State.rd_inc_self]

/-! ## An event bit set, by the level of its source (R524) -/

section
variable {s : State} {f : Field} {i n : Nat} (hsrc : bitSource f.reg i f.lo = some n)
include hsrc

theorem State.raise_of_low (h : s.level n = false) : s.raise f i = (s.wr f i 1).fire n false := by
  simp only [State.raise, State.raiseNm, hsrc, h]
  rfl

theorem State.raise_of_high_new (h : s.level n = true) (hset : s.is f i = false) :
    s.raise f i = (s.wr f i 1).inc F.EVC_SRC_CNT.MERGED n := by
  simp only [State.raise, State.raiseNm, hsrc, h, hset]
  rfl

theorem State.raise_of_high_set (h : s.level n = true) (hset : s.is f i = true) : s.raise f i = s.wr f i 1 := by
  simp only [State.raise, State.raiseNm, hsrc, h, hset]
  rfl

end

/-- A source with an event bit that reads one is high. -/
theorem State.level_of_rd {s : State} {f : Field} {i n : Nat} (hmem : (f.reg, i, f.lo) ∈ sourceBits n) (hreset : f.resetAt i = 0)
    (h : s.rd f i = 1) : s.level n = true := by
  have hbit : Tbl.get s.regs (RegKey.mk f.reg i f.lo) 0 = 1 := by rw [← h, State.rd, hreset]
  refine Bool.or_eq_true_iff.mpr (Or.inl (List.any_eq_true.mpr ⟨_, hmem, ?_⟩))
  simp [hbit]

/-- Settles O6: the level of the source picks the one thing a new bit does. -/
theorem eventBitsFireTheirSources : Obligations.EventBitsFireTheirSources := by
  intro s f i n hsrc hw hev
  have hone := s.rd_raise_self f i hev hw
  have hcnt : f.reg ≠ F.EVC_SRC_CNT.FIRED.reg := by
    intro e
    rw [e] at hev
    cases hev
  refine ⟨_, rfl, hone, (Frame.refl s).raise (List.mem_singleton.mpr rfl), fun hlow => ?_, fun hhigh hset => ⟨?_, ?_⟩,
    fun hhigh hset => ?_, fun hmem hreset => State.level_of_rd hmem hreset hone⟩
  · rw [State.raise_of_low hsrc hlow, State.rd_fired_fire, State.rd_wr_of_reg _ _ hcnt]
  · rw [State.raise_of_high_new hsrc hhigh hset, State.rd_inc_self, State.rd_wr_of_reg (g := F.EVC_SRC_CNT.MERGED) _ _ hcnt]
  · rw [State.raise_of_high_new hsrc hhigh hset]
    exact (State.rd_wr_of_lo _ _ (by decide)).trans (State.rd_wr_of_reg _ _ hcnt)
  · have his : s.is f i = true := by simp [State.is, hset]
    rw [State.raise_of_high_set hsrc hhigh his]
    exact ⟨State.rd_wr_of_reg _ _ hcnt, State.rd_wr_of_reg _ _ hcnt⟩

end Sys2Proof.Machine
end

section
/-!
SUPPORT. What a cold and a warm reset leave, part by part, and what debug authentication reads after each.
-/

namespace Sys2Proof.Machine
/-- A table's value of a key that a filter keeps, or drops, whatever the value. -/
theorem Tbl.get_filter_of_key {K V : Type} [DecidableEq K] (t : Tbl K V) {p : K × V → Bool} {k : K} {b : Bool}
    (h : ∀ v, p (k, v) = b) (d : V) : Tbl.get (t.filter p) k d = if b then Tbl.get t k d else d := by
  induction t with
  | nil => simp [Tbl.get]
  | cons e t ih =>
    obtain ⟨a, v⟩ := e
    by_cases hak : a = k
    · subst hak
      cases b <;> simp_all [Tbl.get]
    · cases hp : p (a, v) <;> simp [hp, Tbl.get, hak, ih]

/-! ## Cold resets (R489, R508) -/

section
variable (s : State) (cause : Nat)

theorem State.rd_coldReset_of_ne {f : Field} {i : Nat} (h : f.at i ≠ F.CKR_RESET.CAUSE.at) :
    (s.coldReset cause).rd f i = if f.reg == Reg.LGR_CFG then s.rd f i else f.resetAt i :=
  (State.rd_wr_of_key _ _ h.symm).trans (Tbl.get_filter s.regs (fun k => k.reg == Reg.LGR_CFG) (f.at i) (f.resetAt i))

theorem State.rd_cause_coldReset {cause : Nat} (h : cause < 16) : (s.coldReset cause).rd F.CKR_RESET.CAUSE = cause :=
  (State.rd_wr_self ..).trans (Nat.mod_eq_of_lt h)

/-- A cold reset of a device whose pins hold it. -/
theorem State.afterCold_coldReset {cause : Nat} (hcause : cause < 16) {p : Pins}
    (hheld : State.held { s with pins := p } = true) :
    AfterCold s (State.coldReset { s with pins := p } cause) cause State.reset.lgr.acc.cycles where
  held := hheld
  cause := State.rd_cause_coldReset _ hcause
  cycles := rfl
  regs f i hreg hne := by
    rw [State.rd_coldReset_of_ne _ _ hne, if_neg (by simpa using hreg), State.rd_reset]
  ledgerCfg f i hreg := by
    have hne : f.at i ≠ F.CKR_RESET.CAUSE.at := fun e => by
      have hr := congrArg RegKey.reg e
      rw [Field.at, hreg] at hr
      cases hr
    rw [State.rd_coldReset_of_ne _ _ hne, if_pos (by simpa using hreg)]
    rfl
  clear := ⟨rfl, rfl, rfl, rfl, rfl, rfl, rfl⟩
  keeps := ⟨rfl, rfl, rfl, rfl⟩

end

/-- A power cycle is counted in the ledger's accumulator, and nothing else changes (R504, log 89). -/
theorem AfterCold.powerCycle {s t : State} {cause n : Nat} (h : AfterCold s t cause n) : AfterCold s t.powerCycle cause (n + 1) where
  held := h.held
  cause := h.cause
  cycles := congrArg (· + 1) h.cycles
  regs := h.regs
  ledgerCfg := h.ledgerCfg
  clear := h.clear
  keeps := h.keeps

theorem exec_powerUp (s : State) : exec .powerUp s = .next (State.coldReset
    { s with pins := { poreset := true, pwrgd := 0x3F, profileSel := 0, thermtrip := false } }
    (if s.pins.thermtrip then 3 else 0)).powerCycle := rfl

theorem exec_poresetAssert (s : State) :
    exec .poresetAssert s = .next (State.coldReset { s with pins := { s.pins with poreset := true } } 1) := rfl

theorem exec_thermtrip (s : State) :
    exec .thermtrip s = .next (State.coldReset { s with pins := { s.pins with thermtrip := true } } 3) := rfl

theorem exec_pwrgdDeassert (k : Nat) (s : State) : exec (.pwrgdDeassert k) s = .next (if s.pins.thermtrip then s else
    (State.coldReset { s with pins := { s.pins with poreset := true, pwrgd := clrBit s.pins.pwrgd k } } 2).powerCycle) := rfl

theorem exec_sysresetAssert (s : State) : exec .sysresetAssert s = .next (s.warmReset 4) := rfl

theorem exec_ckrResetCtlWarm (src : Src) (s : State) : exec (.ckrResetCtlWarm src) s =
    .next (if isSecure src then s.withReg src .CKR_RESET_CTL 0 (·.warmReset 8) else s) := rfl

theorem afterCold_powerUp (s : State) : ∃ t, exec .powerUp s = .next t ∧
    AfterCold s t (if s.pins.thermtrip then 3 else 0) (State.reset.lgr.acc.cycles + 1) :=
  ⟨_, exec_powerUp s, (s.afterCold_coldReset (by split <;> decide) rfl).powerCycle⟩

theorem afterCold_poresetAssert (s : State) : ∃ t, exec .poresetAssert s = .next t ∧
    AfterCold s t 1 State.reset.lgr.acc.cycles :=
  ⟨_, exec_poresetAssert s, s.afterCold_coldReset (by decide) rfl⟩

theorem afterCold_thermtrip (s : State) : ∃ t, exec .thermtrip s = .next t ∧
    AfterCold s t 3 State.reset.lgr.acc.cycles :=
  ⟨_, exec_thermtrip s, s.afterCold_coldReset (by decide) (by simp [State.held])⟩

theorem afterCold_pwrgdDeassert {s : State} (h : s.pins.thermtrip = false) (k : Nat) : ∃ t, exec (.pwrgdDeassert k) s = .next t ∧
    AfterCold s t 2 (State.reset.lgr.acc.cycles + 1) := by
  rw [exec_pwrgdDeassert, h]
  exact ⟨_, rfl, (s.afterCold_coldReset (by decide) rfl).powerCycle⟩

/-! ## States that differ in some registers alone -/

/-- The two states differ at most in fields of the registers `R`. -/
structure OnlyRegs (R : List Reg) (s t : State) : Prop where
  regs : ∀ f i, f.reg ∉ R → t.rd f i = s.rd f i
  rest : t = { s with regs := t.regs }

namespace OnlyRegs
variable {R : List Reg} {r s t : State}

theorem refl (r : State) : OnlyRegs R r r := ⟨fun _ _ _ => rfl, rfl⟩

theorem trans (h : OnlyRegs R r s) (k : OnlyRegs R s t) : OnlyRegs R r t :=
  ⟨fun f i m => (k.regs f i m).trans (h.regs f i m), by rw [k.rest, h.rest]⟩

/-- More registers. -/
theorem mono {R' : List Reg} (h : OnlyRegs R r s) (m : R ⊆ R') : OnlyRegs R' r s :=
  ⟨fun f i n => h.regs f i (fun k => n (m k)), h.rest⟩

theorem ite {c : Prop} [Decidable c] (h : OnlyRegs R r s) (k : OnlyRegs R r t) : OnlyRegs R r (if c then s else t) := by
  split <;> assumption

theorem wr (h : OnlyRegs R r s) {f : Field} (i v : Nat) (m : f.reg ∈ R) : OnlyRegs R r (s.wr f i v) where
  regs g j hg := (State.rd_wr_of_reg _ _ fun e => hg (e ▸ m)).trans (h.regs g j hg)
  rest := by
    rw [State.wr, h.rest]

theorem inc (h : OnlyRegs R r s) {f : Field} (i n : Nat) (m : f.reg ∈ R) : OnlyRegs R r (s.inc f i n) := h.wr i _ m

theorem when (h : OnlyRegs R r s) (b : Bool) {f : State → State} (k : OnlyRegs R r (f s)) : OnlyRegs R r (s.when b f) := by
  unfold State.when
  split <;> assumption

theorem foldl {α : Type} {f : State → α → State} (l : List α) (h : OnlyRegs R r s)
    (hf : ∀ s a, OnlyRegs R r s → OnlyRegs R r (f s a)) : OnlyRegs R r (l.foldl f s) := by
  induction l generalizing s with
  | nil => exact h
  | cons a l ih => exact ih (hf s a h)

end OnlyRegs

/-! ## The warm reset (R489, R348), in the order of its parts -/

/-- What a warm reset keeps: the fields of `keptWarm`, the fences, the ledger, memory under SR_KEEP. -/
def State.warmKept (s : State) : State :=
  { State.reset with
    pending := s.pending
    hw := s.hw
    fresh := s.fresh
    fuses := s.fuses
    vellum := s.vellum
    pins := s.pins
    lgr := { s.lgr with capped := [] }
    boot := { BootState.init with nor := s.boot.nor }
    mem := s.mem.warm (s.is F.MEM_DDR_CFG.SR_KEEP)
    aln := { AlnState.init with ports := Tbl.mapVals s.aln.ports (fun _ p => p.warm) }
    dbg := { DbgState.init with lastGrant := s.dbg.lastGrant }
    hif := { HifState.init with
      p0 := { s.hif.p0.cleared false with perst := s.hif.p0.perst, flr := false }
      p1 := { s.hif.p1.cleared false with perst := s.hif.p1.perst, flr := false }
      recovers := s.hif.recovers }
    regs := s.regs.filter (fun e => keptWarm e.1 (s.is F.MEM_DDR_CFG.SR_KEEP) ||
      (e.1.reg == .ALN_PORT_STATUS && (e.1.lo == 0 || e.1.lo == 4) && 8 ≤ e.2)) }

/-- The links that go down are counted, and a recode that was cut off is settled. -/
def State.warmSettled (s : State) : State :=
  ((List.range 2).foldl (fun r p => r.when (s.is F.HIF_PORT_STATUS.LINK_UP p) (·.inc F.HIF_PORT_CNT2.LINK_DOWNS p))
    s.warmKept).settleRecode (s.is F.MEM_DDR_CFG.SR_KEEP)

/-- A locked debug authentication stays locked (R467). -/
def State.warmLocked (s : State) : State :=
  s.warmSettled.when (s.rd F.DBG_AUTH_CTL.STATE == 5) (·.wr F.DBG_AUTH_CTL.STATE 0 5)

/-- A root on the IRO stays there (R469), and ALN_SUMMARY follows the ports. -/
def State.warmSources (s : State) : State :=
  (List.range 14).foldl (fun r n => r.alnSummary n) (s.warmLocked.when (s.is F.CKR_STATUS.ROOT_SRC)
    fun r => ((r.wr F.CKR_STATUS.XTAL_OK 0 0).wr F.CKR_STATUS.ROOT_LOCK 0 0).wr F.CKR_STATUS.ROOT_SRC 0 1)

theorem State.warmReset_of_not_held {s : State} (h : s.held = false) (cause : Nat) :
    s.warmReset cause = (s.warmSources.wr F.CKR_RESET.CAUSE 0 cause).inc F.CKR_RESET.WARMS := by
  unfold State.warmReset
  rw [h]
  rfl

theorem State.rd_warmKept (s : State) {f : Field} (h : f.reg ≠ .ALN_PORT_STATUS) (i : Nat) : s.warmKept.rd f i =
    if keptWarm (f.at i) (s.is F.MEM_DDR_CFG.SR_KEEP) then s.rd f i else f.resetAt i :=
  Tbl.get_filter_of_key s.regs (fun v => by simp [h, Field.at]) _

theorem State.onlyRegs_settleRecode (s : State) (sr : Bool) :
    OnlyRegs [.MEM_PLATE_CFG_H, .MEM_PLATE_CFG_D] s (s.settleRecode sr) := by
  unfold State.settleRecode
  dsimp only
  split
  · exact (OnlyRegs.refl s).foldl _ fun _ _ h => (h.wr _ _ (by simp)).ite h
  · exact ((OnlyRegs.refl s).foldl _ fun _ _ h => (h.wr _ _ (by simp)).ite h).foldl _ fun _ _ h => (h.wr _ _ (by simp)).ite h

theorem State.onlyRegs_warmSettled (s : State) :
    OnlyRegs [.HIF_PORT_CNT2, .MEM_PLATE_CFG_H, .MEM_PLATE_CFG_D] s.warmKept s.warmSettled :=
  ((OnlyRegs.refl s.warmKept).foldl _ fun _ _ h => h.when _ (h.inc _ _ (by simp))).trans
    ((State.onlyRegs_settleRecode _ _).mono (by simp))

theorem State.onlyRegs_warmSources (s : State) :
    OnlyRegs [.CKR_STATUS, .ALN_SUMMARY, .ALN_PORT_STATUS] s.warmLocked s.warmSources :=
  OnlyRegs.foldl _ ((OnlyRegs.refl _).when _ ((((OnlyRegs.refl _).wr _ _ (by simp)).wr _ _ (by simp)).wr _ _ (by simp)))
    fun _ _ h => (h.wr _ _ (by simp)).wr _ _ (by simp)

/-- Up to the codes of CKR_RESET a warm reset writes no register but those of `warmOwn`. -/
theorem State.onlyRegs_warmKept_warmSources (s : State) : OnlyRegs (warmOwn.filter (· ≠ .CKR_RESET)) s.warmKept s.warmSources :=
  ((s.onlyRegs_warmSettled.mono (by decide)).trans
    ((OnlyRegs.refl _).when _ ((OnlyRegs.refl _).wr _ _ (by decide)))).trans (s.onlyRegs_warmSources.mono (by decide))

section
variable {s : State} (hheld : s.held = false)
include hheld

theorem State.onlyRegs_warmReset (cause : Nat) : OnlyRegs [.CKR_RESET] s.warmSources (s.warmReset cause) := by
  rw [State.warmReset_of_not_held hheld]
  exact ((OnlyRegs.refl _).wr _ _ (by simp)).inc _ _ (by simp)

theorem State.onlyRegs_warmKept_warmReset (cause : Nat) : OnlyRegs warmOwn s.warmKept (s.warmReset cause) :=
  (s.onlyRegs_warmKept_warmSources.mono (by decide)).trans ((State.onlyRegs_warmReset hheld cause).mono (by decide))

theorem State.rd_cause_warmReset {cause : Nat} (h : cause < 16) : (s.warmReset cause).rd F.CKR_RESET.CAUSE = cause := by
  rw [State.warmReset_of_not_held hheld]
  exact ((State.rd_wr_of_lo _ _ (by decide)).trans (State.rd_wr_self ..)).trans (Nat.mod_eq_of_lt h)

theorem State.rd_warms_warmReset (cause : Nat) : (s.warmReset cause).rd F.CKR_RESET.WARMS =
    satAdd F.CKR_RESET.WARMS.w (s.rd F.CKR_RESET.WARMS) 1 := by
  rw [State.warmReset_of_not_held hheld, State.rd_inc_self, State.rd_wr_of_lo _ _ (by decide),
    s.onlyRegs_warmKept_warmSources.regs _ _ (by decide), State.rd_warmKept _ (by decide)]
  rfl

/-- A warm reset of a device that is not held, with a code that CAUSE holds. -/
theorem State.afterWarm_warmReset {cause : Nat} (hcause : cause < 16) : AfterWarm s (s.warmReset cause) cause := by
  have h := State.onlyRegs_warmKept_warmReset hheld cause
  refine ⟨State.rd_cause_warmReset hheld hcause, State.rd_warms_warmReset hheld cause, fun f i hf => ?_, ?_, ?_, ?_⟩
  · rw [h.regs f i hf, State.rd_warmKept _ (fun e => hf (by rw [e]; decide)), State.rd_reset]
  all_goals rw [h.rest]
  · rfl
  · exact ⟨rfl, rfl, rfl, rfl, rfl⟩
  · exact ⟨rfl, rfl, rfl, rfl, rfl⟩

end

theorem State.not_held_of_takesWrite {s : State} {src : Src} {r : Reg} {i : Nat} (h : s.takesWrite src r i = true) :
    s.held = false := by
  simp only [State.takesWrite, State.regLive, Bool.and_eq_true, Bool.not_eq_true'] at h
  exact h.1.1.1

theorem exec_ckrResetCtlWarm_of_takes {s : State} (h : s.takesWrite .secure .CKR_RESET_CTL = true) :
    exec (.ckrResetCtlWarm .secure) s = .next (s.warmReset 8) := by
  rw [exec_ckrResetCtlWarm, if_pos (isSecure_eq_true.mpr rfl), State.withReg_of_takes h]

/-! ## The release (R490, R492) -/

theorem exec_poresetRelease_of_held {s : State} (htrip : s.pins.thermtrip = false) (hlow : s.pins.poreset = true) (sel : Nat) :
    exec (.poresetRelease sel) s = .next ((State.wr
      { s with pins := { s.pins with poreset := false, pwrgd := 0x3F, profileSel := sel % 4 } }
      F.GLB_PROFILE.PINS 0 sel).wr F.GLB_PROFILE.PENDING 0 sel) := by
  change execPoresetRelease _ _ = _
  simp only [execPoresetRelease, htrip, hlow]
  rfl

/-- Settles O52: a cold reset is read off its record, a warm one through the registers each of its parts may write. -/
theorem resetsClearAndKeep : Obligations.ResetsClearAndKeep := by
  refine ⟨fun s => ⟨afterCold_powerUp s, afterCold_poresetAssert s, afterCold_thermtrip s, fun k _ => ⟨fun h => ?_,
      fun h => afterCold_pwrgdDeassert h k⟩⟩,
    fun s sel htrip hlow hsel => ⟨_, exec_poresetRelease_of_held htrip hlow sel, ?_, Nat.mod_eq_of_lt hsel, ?_, ?_, ?_⟩,
    fun s => ⟨fun h => ?_, fun h => ⟨_, exec_sysresetAssert s, State.afterWarm_warmReset h (by decide)⟩,
      fun h => ⟨_, exec_ckrResetCtlWarm_of_takes h, State.afterWarm_warmReset (State.not_held_of_takesWrite h) (by decide)⟩,
      fun src h => ?_⟩⟩
  · rw [exec_pwrgdDeassert, h]
    rfl
  · simp [State.held, htrip]
  · rw [State.rd_wr_of_lo _ _ (by decide), State.rd_wr_self]
    exact Nat.mod_eq_of_lt hsel
  · rw [State.rd_wr_self]
    exact Nat.mod_eq_of_lt hsel
  · exact (((Frame.refl s).with_pins (by simp)).wr _ (by simp)).wr _ (by simp)
  · rw [exec_sysresetAssert, State.warmReset, if_pos h]
  · rw [exec_ckrResetCtlWarm, if_neg (mt isSecure_eq_true.mp h)]

/-! ## Debug authentication across resets (R467) -/

/-- Every field of a register that a cold reset clears and whose reset value is 0 reads 0. -/
theorem AfterCold.rd_eq_zero {s t : State} {cause n : Nat} (h : AfterCold s t cause n) {f : Field} (hreg : f.reg ≠ .LGR_CFG)
    (hcause : f.reg ≠ .CKR_RESET) {i : Nat} (hzero : f.resetAt i = 0) : t.rd f i = 0 := by
  rw [h.regs f i hreg (fun e => hcause (congrArg RegKey.reg e)), State.rd_reset, hzero]

/-- What a cold reset leaves of debug authentication. -/
theorem AfterCold.authentication {s t u : State} {cause n : Nat} (h : AfterCold s t cause n) (hnonce : t.dbg.nonceDue = false)
    (e : Host.Outcome.next t = (.next u : Host.Outcome State Fault Refusal)) :
    u.rd F.DBG_EN.FW_EN = 0 ∧ u.rd F.DBG_EN.AUTH_EN = 0 ∧ u.rd F.DBG_AUTH_CTL.FAILS = 0 ∧ u.authState = 0 ∧
      u.dbg.nonceDue = false ∧ ∀ i, u.rd F.DBG_AUTH_NONCE.BYTES i = 0 := by
  cases e
  exact ⟨h.rd_eq_zero (by decide) (by decide) rfl, h.rd_eq_zero (by decide) (by decide) rfl,
    h.rd_eq_zero (by decide) (by decide) rfl, h.rd_eq_zero (by decide) (by decide) rfl, hnonce,
    fun _ => h.rd_eq_zero (by decide) (by decide) rfl⟩

section
variable {s : State} (hheld : s.held = false) (cause : Nat)
include hheld

/-- Up to its last parts a warm reset leaves DBG_AUTH_CTL as the lock left it. -/
theorem State.rd_auth_warmReset {f : Field} (h : f.reg = .DBG_AUTH_CTL) : (s.warmReset cause).rd f = s.warmLocked.rd f := by
  rw [(State.onlyRegs_warmReset hheld cause).regs f 0 (by rw [h]; decide),
    s.onlyRegs_warmSources.regs f 0 (by rw [h]; decide)]

/-- FAILS is kept (R467). -/
theorem State.rd_fails_warmReset : (s.warmReset cause).rd F.DBG_AUTH_CTL.FAILS = s.rd F.DBG_AUTH_CTL.FAILS := by
  have hlock : s.warmLocked.rd F.DBG_AUTH_CTL.FAILS = s.warmSettled.rd F.DBG_AUTH_CTL.FAILS := by
    unfold State.warmLocked State.when
    split
    · exact State.rd_wr_of_lo _ _ (by decide)
    · rfl
  rw [State.rd_auth_warmReset hheld cause rfl, hlock, s.onlyRegs_warmSettled.regs _ _ (by decide), State.rd_warmKept _ (by decide)]
  rfl

/-- STATE is 0 but for a locked authentication, which stays locked (R467). -/
theorem State.authState_warmReset : (s.warmReset cause).authState = if s.authState = 5 then 5 else 0 := by
  unfold State.authState
  rw [State.rd_auth_warmReset hheld cause rfl, State.warmLocked, State.when]
  by_cases h : s.rd F.DBG_AUTH_CTL.STATE = 5
  · rw [if_pos (by simp [h]), if_pos h, State.rd_wr_self]
    rfl
  · rw [if_neg (by simp [h]), if_neg h, s.onlyRegs_warmSettled.regs _ _ (by decide), State.rd_warmKept _ (by decide)]
    rfl

/-- A field that a warm reset neither keeps nor writes, and that is 0 at reset, reads 0. -/
theorem State.rd_warmReset_eq_zero {f : Field} {i : Nat} (hown : f.reg ∉ warmOwn)
    (hkept : keptWarm (f.at i) (s.is F.MEM_DDR_CFG.SR_KEEP) = false) (hzero : f.resetAt i = 0) : (s.warmReset cause).rd f i = 0 := by
  rw [(State.onlyRegs_warmKept_warmReset hheld cause).regs f i hown, State.rd_warmKept _ (fun e => hown (by rw [e]; decide)),
    hkept, if_neg Bool.false_ne_true, hzero]

theorem State.nonceDue_warmReset : (s.warmReset cause).dbg.nonceDue = false := by
  rw [(State.onlyRegs_warmKept_warmReset hheld cause).rest]
  rfl

/-- What a warm reset leaves of debug authentication, whatever its cause. -/
theorem State.authentication_warmReset {t : State} (e : t = s.warmReset cause) :
    t.rd F.DBG_EN.FW_EN = 0 ∧ t.rd F.DBG_EN.AUTH_EN = 0 ∧ t.dbg.nonceDue = false ∧ (∀ i, t.rd F.DBG_AUTH_NONCE.BYTES i = 0) ∧
      t.rd F.DBG_AUTH_CTL.FAILS = s.rd F.DBG_AUTH_CTL.FAILS ∧ (t.authState = 5 ↔ s.authState = 5) := by
  subst e
  refine ⟨State.rd_warmReset_eq_zero hheld cause (by decide) rfl rfl, State.rd_warmReset_eq_zero hheld cause (by decide) rfl rfl,
    State.nonceDue_warmReset hheld cause, fun _ => State.rd_warmReset_eq_zero hheld cause (by decide) rfl rfl,
    State.rd_fails_warmReset hheld cause, ?_⟩
  rw [State.authState_warmReset hheld cause]
  split <;> simp_all

end

/-- Settles O60: each reset's register effects give its clause; the fuses are kept by the relation that every command keeps. -/
theorem debugAuthenticationAcrossResets : Obligations.DebugAuthenticationAcrossResets := by
  refine ⟨fun s u k h => ?_, fun s u cause hheld h => ?_, fun c s u h => ?_⟩
  · obtain h | h | h | ⟨htrip, h⟩ := h
    · exact (s.afterCold_coldReset (by split <;> decide) rfl).powerCycle.authentication rfl h
    · exact (s.afterCold_coldReset (by decide) rfl).authentication rfl h
    · exact (s.afterCold_coldReset (cause := 3) (by decide) (by simp [State.held])).authentication rfl h
    · rw [exec_pwrgdDeassert, htrip] at h
      exact (s.afterCold_coldReset (by decide) rfl).powerCycle.authentication rfl h
  · obtain h | h | ⟨htakes, h⟩ := h
    · exact State.authentication_warmReset hheld cause h
    · exact State.authentication_warmReset hheld 4 (Host.Outcome.next.inj h).symm
    · rw [exec_ckrResetCtlWarm_of_takes htakes] at h
      exact State.authentication_warmReset hheld 8 (Host.Outcome.next.inj h).symm
  · obtain ⟨t, ht, hkeeps⟩ := exec_keeps c s
    obtain rfl : t = u := Host.Outcome.next.inj (ht.symm.trans h)
    obtain ⟨hvendor, hseed, hserial, hdie, -, hvalid, hrevoked, hcalom, hcfw, hauth, hdbg, hpush⟩ := hkeeps.fuses
    exact ⟨hserial, hvendor, hdie, hseed, hvalid, hrevoked, hcalom, hcfw, hauth, hdbg, hpush⟩

end Sys2Proof.Machine
end

section
/-!
SUPPORT. The clock sources, the monitor windows, ratios and gates: what each command writes, by the case that decides it.
-/

namespace Sys2Proof.Machine

/-! ## The clock sources (R469, R470, R476) -/

theorem State.is_of_rd_eq_zero {s : State} {f : Field} {i : Nat} (h : s.rd f i = 0) : s.is f i = false := by
  simp [State.is, h]

theorem State.is_wr_of_lo (s : State) {f g : Field} {i j : Nat} (v : Nat) (h : f.lo ≠ g.lo) : (s.wr f i v).is g j = s.is g j :=
  congrArg (· != 0) (s.rd_wr_of_lo v h)

theorem State.clockFail_of_failed {s : State} (h : s.is F.CKR_STATUS.FAIL_CAUSE = true) (c : Nat) : s.clockFail c = s := if_pos h

@[simp] theorem State.rd_note (s : State) (type a b : Nat) (f : Field) (i : Nat) : (s.note type a b).rd f i = s.rd f i := rfl

/-- The first failure since the reset: the code, the IRO as the root, a ledger event and EVT_CLOCK_FAIL. -/
theorem State.clockFail_of_first {s : State} (h : s.is F.CKR_STATUS.FAIL_CAUSE = false) (c : Nat) : s.clockFail c =
    (((s.wr F.CKR_STATUS.FAIL_CAUSE 0 c).wr F.CKR_STATUS.ROOT_SRC 0 1).note 6 c 0).raise F.CKR_STATUS.EVT_CLOCK_FAIL := by
  simp [State.clockFail, h]

section
variable {s : State} (h : s.is F.CKR_STATUS.FAIL_CAUSE = false)
include h

theorem State.rd_failCause_clockFail {c : Nat} (hc : c < 4) : (s.clockFail c).rd F.CKR_STATUS.FAIL_CAUSE = c := by
  rw [State.clockFail_of_first h, State.rd_raise_of_lo _ (by decide) (by decide), State.rd_note,
    State.rd_wr_of_lo _ _ (by decide), State.rd_wr_self]
  exact Nat.mod_eq_of_lt hc

theorem State.rd_rootSrc_clockFail (c : Nat) : (s.clockFail c).rd F.CKR_STATUS.ROOT_SRC = 1 := by
  rw [State.clockFail_of_first h, State.rd_raise_of_lo _ (by decide) (by decide), State.rd_note,
    State.rd_wr_self]
  rfl

theorem State.rd_event_clockFail (c : Nat) : (s.clockFail c).rd F.CKR_STATUS.EVT_CLOCK_FAIL = 1 := by
  rw [State.clockFail_of_first h]
  exact State.rd_raise_self _ _ _ (by decide) rfl

theorem State.rd_xtalOk_clockFail (c : Nat) : (s.clockFail c).rd F.CKR_STATUS.XTAL_OK = s.rd F.CKR_STATUS.XTAL_OK := by
  rw [State.clockFail_of_first h, State.rd_raise_of_lo _ (by decide) (by decide), State.rd_note,
    State.rd_wr_of_lo _ _ (by decide), State.rd_wr_of_lo _ _ (by decide)]

theorem State.rd_rootLock_clockFail (c : Nat) : (s.clockFail c).rd F.CKR_STATUS.ROOT_LOCK = s.rd F.CKR_STATUS.ROOT_LOCK := by
  rw [State.clockFail_of_first h, State.rd_raise_of_lo _ (by decide) (by decide), State.rd_note,
    State.rd_wr_of_lo _ _ (by decide), State.rd_wr_of_lo _ _ (by decide)]

end

/-! ## The monitor's windows (R475 to R477) -/

/-- A crystal window's count recorded, with the number of bad windows in a row. -/
def State.xtalWindow (s : State) (count n : Nat) : State :=
  ({ s with ckr := { s.ckr with xtalBad := n } }).wr F.CKR_MON.XTAL_IRO 0 count

/-- A root window's count recorded, with the number of bad windows in a row. -/
def State.rootWindow (s : State) (count n : Nat) : State :=
  ({ s with ckr := { s.ckr with rootBad := n } }).wr F.CKR_MON.ROOT_IRO 0 count

theorem State.xtalWindow_frame (s : State) (count n : Nat) : Frame false [.ckr] [F.CKR_MON.XTAL_IRO.at] s (s.xtalWindow count n) :=
  ((Frame.refl s).with_ckr (by simp)).wr _ (by simp)

theorem State.rd_xtalWindow {count : Nat} (s : State) (n : Nat) (h : count < 65536) :
    (s.xtalWindow count n).rd F.CKR_MON.XTAL_IRO = count := (State.rd_wr_self ..).trans (Nat.mod_eq_of_lt h)

theorem State.is_status_xtalWindow (s : State) (count n : Nat) {f : Field} (h : f.reg = .CKR_STATUS) :
    (s.xtalWindow count n).is f = s.is f := State.is_wr_of_reg _ _ (by rw [h]; decide)

theorem State.is_status_rootWindow (s : State) (count n : Nat) {f : Field} (h : f.reg = .CKR_STATUS) :
    (s.rootWindow count n).is f = s.is f := State.is_wr_of_reg _ _ (by rw [h]; decide)

section
variable {s : State} {count : Nat}

theorem State.monWindow_xtal_good (h : s.outOfTol count 512 = false) : s.monWindow 0 count = s.xtalWindow count 0 := by
  simp [State.monWindow, h, State.when, State.xtalWindow]

theorem State.monWindow_xtal_bad_first (h : s.outOfTol count 512 = true) (hbad : s.ckr.xtalBad = 0) :
    s.monWindow 0 count = s.xtalWindow count 1 := by
  simp [State.monWindow, h, hbad, State.when, State.xtalWindow]

theorem State.monWindow_xtal_bad_again (h : s.outOfTol count 512 = true) (hbad : s.ckr.xtalBad = 1)
    (hok : s.is F.CKR_STATUS.XTAL_OK = true) : s.monWindow 0 count = (s.xtalWindow count 2).clockFail 2 := by
  have hok' : (s.xtalWindow count 2).is F.CKR_STATUS.XTAL_OK = true := (s.is_status_xtalWindow count 2 rfl).trans hok
  simp only [State.xtalWindow] at hok'
  simp [State.monWindow, h, hbad, State.when, State.xtalWindow, hok']

theorem State.monWindow_root_bad_again (h : s.outOfTol count 1024 = true) (hbad : 1 ≤ s.ckr.rootBad)
    (hlock : s.is F.CKR_STATUS.ROOT_LOCK = true) :
    s.monWindow 1 count = (s.rootWindow count (s.ckr.rootBad + 1)).clockFail 3 := by
  have hlock' : (s.rootWindow count (s.ckr.rootBad + 1)).is F.CKR_STATUS.ROOT_LOCK = true :=
    (s.is_status_rootWindow count _ rfl).trans hlock
  simp only [State.rootWindow] at hlock'
  simp [State.monWindow, h, hbad, State.when, State.rootWindow, hlock']

/-- The tolerance is that of CKR_MON_LIM. -/
theorem State.outOfTol_wr {f : Field} (hf : f.reg ≠ .CKR_MON_LIM) (i v expected : Nat) :
    (s.wr f i v).outOfTol count expected = s.outOfTol count expected := by
  simp only [State.outOfTol, State.rd_wr_of_reg (g := F.CKR_MON_LIM.TOL) _ _ hf]

/-- How far the count of an IRO window is from the expected one. -/
def iroDiff (count : Nat) : Nat := if count < 2048 then 2048 - count else count - 2048

theorem State.monWindow_iro : s.monWindow 2 count = (s.wr F.CKR_MON.IRO_XTAL 0 count).when
    (15 * 2048 < 1000 * iroDiff count && !s.outOfTol count 2048) (·.raise F.CKR_STATUS.EVT_IRO_DRIFT) := by
  simp only [State.monWindow, iroDiff, State.outOfTol_wr (f := F.CKR_MON.IRO_XTAL) (by decide)]
  rfl

theorem State.monWindow_iro_quiet (h : 1000 * iroDiff count ≤ 15 * 2048) : s.monWindow 2 count = s.wr F.CKR_MON.IRO_XTAL 0 count := by
  rw [State.monWindow_iro]
  simp [State.when, Nat.not_lt.mpr h]

theorem State.monWindow_iro_drift (h : 15 * 2048 < 1000 * iroDiff count) (htol : s.outOfTol count 2048 = false) :
    s.monWindow 2 count = (s.wr F.CKR_MON.IRO_XTAL 0 count).raise F.CKR_STATUS.EVT_IRO_DRIFT := by
  rw [State.monWindow_iro]
  simp only [State.when, htol, h, decide_true, Bool.not_false, Bool.and_self, if_true]

theorem State.rd_monWindow_iro (h : count < 65536) : (s.monWindow 2 count).rd F.CKR_MON.IRO_XTAL = count := by
  have hwr : (s.wr F.CKR_MON.IRO_XTAL 0 count).rd F.CKR_MON.IRO_XTAL = count :=
    (State.rd_wr_self ..).trans (Nat.mod_eq_of_lt h)
  rw [State.monWindow_iro, State.when]
  split
  · rw [State.rd_raise_of_reg _ (by decide) (by decide), hwr]
  · exact hwr

theorem State.rd_monWindow_drift (h : 15 * 2048 < 1000 * iroDiff count) (htol : s.outOfTol count 2048 = false) :
    (s.monWindow 2 count).rd F.CKR_STATUS.EVT_IRO_DRIFT = 1 := by
  rw [State.monWindow_iro_drift h htol]
  exact State.rd_raise_self _ _ _ (by decide) rfl

theorem State.rd_rootSrc_monWindow_drift (h : 15 * 2048 < 1000 * iroDiff count) (htol : s.outOfTol count 2048 = false) :
    (s.monWindow 2 count).rd F.CKR_STATUS.ROOT_SRC = s.rd F.CKR_STATUS.ROOT_SRC := by
  rw [State.monWindow_iro_drift h htol, State.rd_raise_of_lo _ (by decide) (by decide), State.rd_wr_of_reg _ _ (by decide)]

theorem State.outOfTol_iro_eq_false : s.outOfTol count 2048 = false ↔ 1024 * iroDiff count ≤ s.rd F.CKR_MON_LIM.TOL * 2048 := by
  simp [State.outOfTol, iroDiff]

end

/-! ## The commands of the clock sources, of a device that is not held -/

section
variable {s : State} (hheld : s.held = false)
include hheld

theorem exec_clockMonitorWindow_of_not_held (k count : Nat) :
    exec (.clockMonitorWindow k count) s = .next (s.monWindow k count) := by
  change execClockMonitorWindow _ _ _ = _
  simp only [execClockMonitorWindow, hheld, Bool.false_eq_true, if_false]

theorem exec_xtalStable_of_ok (hok : s.is F.CKR_STATUS.FAIL_CAUSE = false) :
    exec .xtalStable s = .next (s.wr F.CKR_STATUS.XTAL_OK 0 1) := by
  change execXtalStable _ = _
  simp only [execXtalStable, hheld, hok, Bool.or_self, Bool.false_eq_true, if_false]

theorem exec_xtalTimeout_of_ok (hok : s.is F.CKR_STATUS.FAIL_CAUSE = false) (hx : s.is F.CKR_STATUS.XTAL_OK = false) :
    exec .xtalTimeout s = .next (s.clockFail 1).rootReady := by
  change execXtalTimeout _ = _
  simp only [execXtalTimeout, hheld, hok, hx, Bool.or_self, Bool.false_eq_true, if_false]

theorem exec_rootPllLock_of_ok (hok : s.is F.CKR_STATUS.FAIL_CAUSE = false) (hx : s.is F.CKR_STATUS.XTAL_OK = true) :
    exec .rootPllLock s = .next ((s.wr F.CKR_STATUS.ROOT_LOCK 0 1).wr F.CKR_STATUS.ROOT_SRC 0 0).rootReady := by
  change execRootPllLock _ = _
  simp only [execRootPllLock, hheld, hok, hx, Bool.not_true, Bool.or_self, Bool.false_eq_true, if_false]

theorem exec_xtalAmplitudeLoss_of_ok (hx : s.is F.CKR_STATUS.XTAL_OK = true) :
    exec .xtalAmplitudeLoss s = .next ((s.wr F.CKR_STATUS.XTAL_OK 0 0).clockFail 2) := by
  change execXtalAmplitudeLoss _ = _
  simp only [execXtalAmplitudeLoss, hheld, hx, Bool.not_true, Bool.or_self, Bool.false_eq_true, if_false]

theorem exec_rootPllUnlock_of_ok (hlock : s.is F.CKR_STATUS.ROOT_LOCK = true) :
    exec .rootPllUnlock s = .next ((s.wr F.CKR_STATUS.ROOT_LOCK 0 0).clockFail 3) := by
  change execRootPllUnlock _ = _
  simp only [execRootPllUnlock, hheld, hlock, Bool.not_true, Bool.or_self, Bool.false_eq_true, if_false]

/-- What a window of the crystal records, by its tolerance and the windows before it. -/
theorem exec_crystalWindow {count : Nat} (hcount : count < 65536) (hok : s.is F.CKR_STATUS.FAIL_CAUSE = false)
    (hx : s.is F.CKR_STATUS.XTAL_OK = true) :
    (s.outOfTol count 512 = false → ∃ t, exec (.clockMonitorWindow 0 count) s = .next t ∧ t.rd F.CKR_MON.XTAL_IRO = count ∧
      t.ckr.xtalBad = 0 ∧ Frame false [.ckr] [F.CKR_MON.XTAL_IRO.at] s t) ∧
    (s.outOfTol count 512 = true → s.ckr.xtalBad = 0 → ∃ t, exec (.clockMonitorWindow 0 count) s = .next t ∧
      t.rd F.CKR_MON.XTAL_IRO = count ∧ t.ckr.xtalBad = 1 ∧ Frame false [.ckr] [F.CKR_MON.XTAL_IRO.at] s t) ∧
    (s.outOfTol count 512 = true → s.ckr.xtalBad = 1 → ∃ t, exec (.clockMonitorWindow 0 count) s = .next t ∧
      t.rd F.CKR_STATUS.FAIL_CAUSE = 2 ∧ t.rd F.CKR_STATUS.ROOT_SRC = 1) := by
  rw [exec_clockMonitorWindow_of_not_held hheld]
  refine ⟨fun h => ⟨_, rfl, ?_⟩, fun h hbad => ⟨_, rfl, ?_⟩, fun h hbad => ⟨_, rfl, ?_⟩⟩
  · rw [State.monWindow_xtal_good h]
    exact ⟨s.rd_xtalWindow 0 hcount, rfl, s.xtalWindow_frame count 0⟩
  · rw [State.monWindow_xtal_bad_first h hbad]
    exact ⟨s.rd_xtalWindow 1 hcount, rfl, s.xtalWindow_frame count 1⟩
  · have hfirst := (s.is_status_xtalWindow count 2 (f := F.CKR_STATUS.FAIL_CAUSE) rfl).trans hok
    rw [State.monWindow_xtal_bad_again h hbad hx]
    exact ⟨State.rd_failCause_clockFail hfirst (by decide), State.rd_rootSrc_clockFail hfirst 2⟩

end

theorem iroDiff_quiet {count : Nat} (hlow : 2048 < count + 31) (hhigh : count < 2048 + 31) : 1000 * iroDiff count ≤ 15 * 2048 := by
  unfold iroDiff
  split <;> omega

theorem iroDiff_drift {count : Nat} (h : count + 31 ≤ 2048 ∨ 2048 + 31 ≤ count) : 15 * 2048 < 1000 * iroDiff count := by
  unfold iroDiff
  split <;> omega

/-- Settles O53: the first failure's record, and a window's count with the tolerance that decides what follows it. -/
theorem clockSourcesFailOver : Obligations.ClockSourcesFailOver := by
  refine ⟨?sources, ?iro, fun s h c => State.clockFail_of_failed h c⟩
  case sources =>
    intro s hheld hcause
    have hok : s.is F.CKR_STATUS.FAIL_CAUSE = false := State.is_of_rd_eq_zero hcause
    refine ⟨⟨_, exec_xtalStable_of_ok hheld hok, State.rd_wr_self .., (Frame.refl s).wr _ (by simp)⟩,
      exec_xtalTimeout_of_ok hheld hok, fun hx => ⟨_, exec_rootPllLock_of_ok hheld hok hx, ?_, State.rd_wr_self .., ?_⟩,
      fun hx => ⟨_, exec_xtalAmplitudeLoss_of_ok hheld hx, ?_⟩, fun hlock => ⟨_, exec_rootPllUnlock_of_ok hheld hlock, ?_⟩,
      fun count hcount hx => exec_crystalWindow hheld hcount hok hx, fun count hcount hlock htol hbad => ?_⟩
    · exact (State.rd_wr_of_lo _ _ (by decide)).trans (State.rd_wr_self ..)
    · exact ((Frame.refl s).wr _ (by simp)).wr _ (by simp)
    · have hfirst := (s.is_wr_of_lo (f := F.CKR_STATUS.XTAL_OK) (i := 0) 0 (by decide)).trans hok
      exact ⟨(State.rd_xtalOk_clockFail hfirst 2).trans (State.rd_wr_self ..), State.rd_failCause_clockFail hfirst (by decide),
        State.rd_rootSrc_clockFail hfirst 2, State.rd_event_clockFail hfirst 2⟩
    · have hfirst := (s.is_wr_of_lo (f := F.CKR_STATUS.ROOT_LOCK) (i := 0) 0 (by decide)).trans hok
      exact ⟨(State.rd_rootLock_clockFail hfirst 3).trans (State.rd_wr_self ..), State.rd_failCause_clockFail hfirst (by decide),
        State.rd_rootSrc_clockFail hfirst 3, State.rd_event_clockFail hfirst 3⟩
    · have hfirst := (s.is_status_rootWindow count (s.ckr.rootBad + 1) (f := F.CKR_STATUS.FAIL_CAUSE) rfl).trans hok
      rw [exec_clockMonitorWindow_of_not_held hheld, State.monWindow_root_bad_again htol hbad hlock]
      exact ⟨_, rfl, State.rd_failCause_clockFail hfirst (by decide), State.rd_rootSrc_clockFail hfirst 3⟩
  case iro =>
    intro s count hheld hcount
    refine ⟨_, exec_clockMonitorWindow_of_not_held hheld 2 count, State.rd_monWindow_iro hcount, fun hlow hhigh => ?_,
      fun htol hfar => State.rd_monWindow_drift (iroDiff_drift hfar) htol⟩
    rw [State.monWindow_iro_quiet (iroDiff_quiet hlow hhigh)]
    exact (Frame.refl s).wr _ (by simp)

/-- Settles O59: the count's distance from 2,048 is beyond 1.5 % and within tolerance, so the window raises the event. -/
theorem iroDriftIsReported : Obligations.IroDriftIsReported := by
  intro s count diff hheld hcount hfar htol
  have hdiff : iroDiff count = diff := by
    unfold iroDiff
    split <;> omega
  rw [← hdiff] at hfar htol
  have htol := State.outOfTol_iro_eq_false.mpr htol
  exact ⟨_, exec_clockMonitorWindow_of_not_held hheld 2 count, State.rd_monWindow_drift hfar htol,
    State.rd_rootSrc_monWindow_drift hfar htol⟩

/-! ## Ratios and gates (R471 to R473, R478) -/

/-- A switch of ratio starts. -/
def State.ratioTaken (s : State) (d n m : Nat) : State :=
  ((s.wr F.CKR_DOM.N d n).wr F.CKR_DOM.M d m).wr F.CKR_DOM.SWITCHING d 1

/-- A write of a ratio is refused. -/
def State.ratioRefused (s : State) (d : Nat) : State := (s.wr F.CKR_DOM.RATIO_REFUSED d 1).raise F.CKR_STATUS.EVT_REFUSED

theorem exec_ckrRatioWrite (src : Src) (d v : Nat) (s : State) : exec (.ckrRatioWrite src d v) s =
    .next (if isSecure src && d < 78 then s.withReg src .CKR_DOM d (·.ratioWrite d v) else s) := rfl

theorem exec_ckrRatioWrite_of_takes {s : State} {d : Nat} (v : Nat) (hd : d < 78) (h : s.takesWrite .secure .CKR_DOM d = true) :
    exec (.ckrRatioWrite .secure d v) s = .next (s.ratioWrite d v) := by
  rw [exec_ckrRatioWrite, if_pos (by simp [hd, isSecure]), State.withReg_of_takes h]

theorem exec_ckrRatioWrite_of_not_secure {s : State} {src : Src} (h : src ≠ .secure) (d v : Nat) :
    exec (.ckrRatioWrite src d v) s = .next s := by
  rw [exec_ckrRatioWrite, if_neg]
  simp [mt isSecure_eq_true.mp h]

theorem exec_ratioSwitchDone (d : Nat) (s : State) : exec (.ratioSwitchDone d) s = .next (s.wr F.CKR_DOM.SWITCHING d 0) := rfl

section
variable {s : State} {d v : Nat} (hd : d ≠ 63) (hn : 0 < bits v 16 12) (hm : 0 < bits v 28 8)
include hd hn hm

theorem State.ratioWrite_of_ok (hok : s.ratioOk d (bits v 16 12) (bits v 28 8) = true) :
    s.ratioWrite d v = s.ratioTaken d (bits v 16 12) (bits v 28 8) := by
  simp only [State.ratioWrite, if_neg hn.ne', if_neg hm.ne', if_neg hd, if_pos hok]
  rfl

theorem State.ratioWrite_of_not_ok (hok : s.ratioOk d (bits v 16 12) (bits v 28 8) = false) :
    s.ratioWrite d v = s.ratioRefused d := by
  simp only [State.ratioWrite, if_neg hn.ne', if_neg hm.ne', if_neg hd, hok, Bool.false_eq_true, if_false]
  rfl

end

theorem State.ratioTaken_frame (s : State) (d n m : Nat) :
    Frame false [] [F.CKR_DOM.N.at d, F.CKR_DOM.M.at d, F.CKR_DOM.SWITCHING.at d] s (s.ratioTaken d n m) :=
  (((Frame.refl s).wr _ (by simp)).wr _ (by simp)).wr _ (by simp)

theorem State.rd_n_ratioTaken (s : State) (d m : Nat) {n : Nat} (h : n < 2 ^ 12) : (s.ratioTaken d n m).rd F.CKR_DOM.N d = n :=
  ((State.rd_wr_of_lo _ _ (by decide)).trans (State.rd_wr_of_lo _ _ (by decide))).trans
    ((State.rd_wr_self ..).trans (Nat.mod_eq_of_lt h))

theorem State.rd_m_ratioTaken (s : State) (d n : Nat) {m : Nat} (h : m < 2 ^ 8) : (s.ratioTaken d n m).rd F.CKR_DOM.M d = m :=
  (State.rd_wr_of_lo _ _ (by decide)).trans ((State.rd_wr_self ..).trans (Nat.mod_eq_of_lt h))

theorem State.rd_ratioRefused_of_lo (s : State) (d : Nat) {f : Field} (hreg : f.reg = .CKR_DOM) (h : F.CKR_DOM.RATIO_REFUSED.lo ≠ f.lo) :
    (s.ratioRefused d).rd f d = s.rd f d :=
  (State.rd_raise_of_reg _ (by rw [hreg]; decide) (by rw [hreg]; decide)).trans (State.rd_wr_of_lo _ _ h)

theorem State.rd_refused_ratioRefused (s : State) (d : Nat) : (s.ratioRefused d).rd F.CKR_DOM.RATIO_REFUSED d = 1 :=
  (State.rd_raise_of_reg _ (by decide) (by decide)).trans (State.rd_wr_self ..)

/-- What a write of EN to a domain that takes it does. -/
theorem exec_ckrGateWrite_of_takes {s : State} {src : Src} {d : Nat} (v : Nat) (hd : d < 78)
    (h : s.takesWrite src .CKR_DOM d = true) : exec (.ckrGateWrite src d v) s = .next (s.gateWrite src d (v % 2)) := by
  change execCkrGateWrite _ _ _ _ = _
  simp only [execCkrGateWrite, hd, if_true]
  rw [State.withReg_of_takes h]

section
variable (s : State) (src : Src) {d en : Nat}

theorem State.gateWrite_of_not_gateable (h : clkGateable d = false) (en : Nat) : s.gateWrite src d en = s := by
  simp [State.gateWrite, h]

theorem State.gateWrite_on (h : clkGateable d = true) (hen : en % 2 = 1) : s.gateWrite src d en = s.wr F.CKR_DOM.EN d 1 := by
  simp [State.gateWrite, h, hen]

variable {s src} (h : clkGateable d = true) (hen : en % 2 = 0)
include h hen

theorem State.gateWrite_off_wrong_world (hsec : isSecure src = false) (hown : s.is F.CKR_DOM.OWNER_S d = true) :
    s.gateWrite src d en = s.gateRefused d rfWORLD := by
  simp [State.gateWrite, h, hen, hsec, hown]

theorem State.gateWrite_off_busy (hsrc : isSecure src = true ∨ s.is F.CKR_DOM.OWNER_S d = false)
    (hbusy : (clkDomains d).any (fun p => s.domBusy p false) = true) : s.gateWrite src d en = s.gateRefused d rfBUSY := by
  obtain hsrc | hsrc := hsrc <;> simp only [State.gateWrite, h, hen, hsrc, hbusy] <;> simp

theorem State.gateWrite_off (hsrc : isSecure src = true ∨ s.is F.CKR_DOM.OWNER_S d = false)
    (hidle : (clkDomains d).any (fun p => s.domBusy p false) = false) : s.gateWrite src d en = s.wr F.CKR_DOM.EN d 0 := by
  obtain hsrc | hsrc := hsrc <;> simp only [State.gateWrite, h, hen, hsrc, hidle] <;> simp

end

theorem State.clkOn_wr_en (s : State) (d : Nat) (b : Bool) : (s.wr F.CKR_DOM.EN d (b2n b)).clkOn d = b :=
  s.is_wr_b2n_self d b rfl

/-- Settles O54: R473's check picks the taken or the refused ratio; gateability, data, world and business pick the gate's branch. -/
theorem ratiosAndGatesAreSet : Obligations.RatiosAndGatesAreSet := by
  refine ⟨fun s d v hd h63 htakes hn hm => ⟨fun hok => ?_, fun hok => ?_⟩, fun s src d v h => exec_ckrRatioWrite_of_not_secure h d v,
    fun s d => ⟨_, exec_ratioSwitchDone d s, State.rd_wr_self .., (Frame.refl s).wr _ (by simp)⟩,
    fun s src d v hd htakes => ?_⟩
  · rw [exec_ckrRatioWrite_of_takes v hd htakes, State.ratioWrite_of_ok h63 hn hm hok]
    exact ⟨_, rfl, s.rd_n_ratioTaken d _ (bits_lt ..), s.rd_m_ratioTaken d _ (bits_lt ..), State.rd_wr_self .., s.ratioTaken_frame d _ _⟩
  · rw [exec_ckrRatioWrite_of_takes v hd htakes, State.ratioWrite_of_not_ok h63 hn hm hok]
    exact ⟨_, rfl, s.rd_refused_ratioRefused d, State.rd_raise_self _ _ _ (by decide) rfl,
      s.rd_ratioRefused_of_lo d rfl (by decide), s.rd_ratioRefused_of_lo d rfl (by decide)⟩
  · rw [exec_ckrGateWrite_of_takes v hd htakes]
    refine ⟨fun hgate => by rw [State.gateWrite_of_not_gateable s src hgate], fun hgate hv => ?_,
      fun hgate hv hsrc => ⟨fun hidle => ?_, fun hbusy => ?_⟩, fun hgate hv hsec hown => ?_⟩
    · rw [State.gateWrite_on s src hgate (by omega)]
      exact ⟨_, rfl, s.clkOn_wr_en d true, (Frame.refl s).wr _ (by simp)⟩
    · rw [State.gateWrite_off hgate (by omega) hsrc hidle]
      exact ⟨_, rfl, s.clkOn_wr_en d false, (Frame.refl s).wr _ (by simp)⟩
    · rw [State.gateWrite_off_busy hgate (by omega) hsrc hbusy]
    · rw [State.gateWrite_off_wrong_world hgate (by omega) hsec hown]

end Sys2Proof.Machine
end

section
/-!
SUPPORT. The commands of the stipple engines and of the Ethernet queues, by the checks that pass.
-/

namespace Sys2Proof.Machine

/-! ## Stipple jobs (R306 to R313) -/

/-- A job as it waits for an engine: its chains as read, and nothing coded. -/
def stpJobWaiting (r sl : Nat) (d : List (BitVec 8)) (m o : List (Nat × Nat × Nat)) : StpJob :=
  StpJob.mk r sl d (m.map (fun e => (e.1, e.2.1))) 0 (o.map (fun e => (e.1, e.2.1))) 0 none 0 0 0 0 0 0 [] [] none

theorem exec_stpJob_of_cmd {s : State} {r : Nat} (hready : s.stpReady = true) (hcmd : s.hasCmd r 0x40 = true) :
    exec (.stpJob r) s = .next (s.stpJob r) := by
  change execStpJob _ _ = _
  simp only [execStpJob, hready, hcmd, Bool.and_self, if_true]

/-- Both lists of a job whose fields and ranges pass are read. -/
theorem State.stpJob_of_read {s u v : State} {r : Nat} {m o : List (BitVec 8)} (hfields : s.jobFields (s.desc r) = true)
    (hmain : s.rangeOk (s.ringSlice r) (dget (s.desc r) 32 8) (16 * dget (s.desc r) 40 2) = true)
    (hovf : s.rangeOk (s.ringSlice r) (dget (s.desc r) 48 8) (16 * dget (s.desc r) 42 2) = true)
    (hm : s.listRead r (dget (s.desc r) 32 8) (dget (s.desc r) 40 2) = (.data m [], u))
    (ho : u.listRead r (dget (s.desc r) 48 8) (dget (s.desc r) 42 2) = (.data o [], v)) :
    s.stpJob r = v.jobChecked r (chainOf m) (chainOf o) := by
  simp only [State.stpJob, hfields, hmain, hovf, hm, ho]
  rfl

/-- A job with memory output that passes checks 2 to 5 waits in the queue, its command started. -/
theorem State.jobChecked_of_good {s : State} {r : Nat} {m o : List (Nat × Nat × Nat)} (hgood : (m ++ o).all stpEntryGood = true)
    (heth : jobEth (s.desc r) = false)
    (hin : s.rangeOk (s.ringSlice r) (dget (s.desc r) 8 8) (jobNsamp (s.desc r) * jobUnit (s.desc r)) = true)
    (hchain : (m ++ o).all (fun e => s.rangeOk (s.ringSlice r) e.1 e.2.1) = true)
    (hroom : jobBlocks (s.desc r) ≤ chainSlots (m.map (fun e => (e.1, e.2.1))) (slotBytes (jobQ (s.desc r))))
    (hshare : s.rd F.STP_SLICE_SHARE.SHARE (s.ringSlice r) ≠ 0)
    (hquota : s.is F.STP_SLICE_SHARE.OVER_QUOTA (s.ringSlice r) = false) :
    s.jobChecked r m o = State.start { s with stp := { s.stp with
      waiting := s.stp.waiting ++ [stpJobWaiting r (s.ringSlice r) (s.desc r) m o] } } r := by
  simp only [State.jobChecked, hgood, heth, hin, hchain, Nat.not_lt.mpr hroom, hshare, hquota]
  rfl

theorem exec_stpDispatch_of_ready {s : State} (hready : s.stpReady = true) : exec .stpDispatch s = .next s.stpDispatch := by
  change execStpDispatch _ = _
  simp only [execStpDispatch, hready, if_true]

/-- A job leaves the queue for an engine, both pointers past it (R310). -/
def State.jobChosen (s : State) (j : StpJob) : State :=
  { s with stp := { s.stp with
      waiting := s.stp.waiting.filter (fun k => k.ring ≠ j.ring)
      slicePtr := rotNext 256 j.slice
      ringPtr := Tbl.set s.stp.ringPtr j.slice (rotNext 8192 j.ring) 0 } }

theorem State.stpDispatch_of_choice {s : State} {j : StpJob} {e : Nat} (hj : s.jobChoice = some j) (he : s.freeEngine = some e) :
    s.stpDispatch = if s.is F.STP_SLICE_SHARE.OVER_QUOTA j.slice then (s.jobChosen j).jobFinish j csQUOTA
      else (s.jobChosen j).jobRun j e := by
  simp only [State.stpDispatch, hj, he]
  rfl

theorem exec_stpBlockDone_of_ready {s : State} {e : Nat} (hready : s.stpReady = true) (he : e < 16) :
    exec (.stpBlockDone e) s = .next (s.stpBlock e) := by
  change execStpBlockDone _ _ = _
  simp only [execStpBlockDone, hready, he, decide_true, Bool.and_self, if_true]

/-- A block that is read whole is coded, and goes to memory or to Ethernet (R301, R311). -/
theorem State.stpBlock_of_read {s u : State} {e : Nat} {j : StpJob} {data : List (BitVec 8)}
    (hj : s.stp.running.find? (fun j => j.engine == some e) = some j) (hrun : s.rd F.STP_ENG_STATUS.STATE e = 1)
    (hmore : j.blocks < jobBlocks j.desc)
    (hread : s.cmdRead j.ring 3 (dget j.desc 8 8 + 1024 * j.blocks * jobUnit j.desc)
      (min 1024 (jobNsamp j.desc - 1024 * j.blocks) * jobUnit j.desc) = (.data data [], u)) :
    s.stpBlock e = if jobEth j.desc then
      (u.setRing j.ring { u.ring j.ring with buf := [] }).blockToEth j
        (codeBlock j.desc j.blocks (samplesOf (jobW j.desc) (jobSigned j.desc) data))
        (min 1024 (jobNsamp j.desc - 1024 * j.blocks) * jobUnit j.desc)
    else (u.setRing j.ring { u.ring j.ring with buf := [] }).blockToMem j
        (codeBlock j.desc j.blocks (samplesOf (jobW j.desc) (jobSigned j.desc) data))
        (min 1024 (jobNsamp j.desc - 1024 * j.blocks) * jobUnit j.desc) := by
  simp only [State.stpBlock, hj, hrun, Nat.not_le.mpr hmore, hread, ne_eq, not_true_eq_false, decide_false, Bool.or_self,
    Bool.false_eq_true, if_false]
  rfl

/-- The job after a block of it is placed in memory. -/
def StpJob.placed (j : StpJob) (x : StpJob) (b : Block) : StpJob :=
  { x with blocks := j.blocks + 1, good := j.blocks + 1, clips := j.clips + b.clips }

theorem State.blockToMem_of_placed {s u v : State} {j j1 j2 : StpJob} {b : Block} (hrecs : s.putRecs j b.recs = (.done j1, u))
    (hslot : u.putSlot j1 b.slot = (.done j2, v)) (n : Nat) :
    s.blockToMem j b n = if j.blocks + 1 = jobBlocks j.desc then
      (((v.blockCount j n b.clips).setJob (j.placed j2 b)).inc F.STP_CNT1.BLOCKS).jobEnd (j.placed j2 b) csOK
    else ((v.blockCount j n b.clips).setJob (j.placed j2 b)).inc F.STP_CNT1.BLOCKS := by
  simp only [State.blockToMem, hrecs, hslot]
  rfl

/-- The job after a block of it joins the group under construction. -/
def StpJob.grouped (j : StpJob) (b : Block) : StpJob :=
  { j with
    blocks := j.blocks + 1
    clips := j.clips + b.clips
    slots := j.slots ++ [b.slot]
    recs := j.recs ++ b.recs.map (fun r => (j.blocks, r)) }

theorem State.flowOf_blockCount (s : State) (j : StpJob) (n clips qi : Nat) : (s.blockCount j n clips).flowOf qi = s.flowOf qi := by
  have hrd (k : Nat) : (s.blockCount j n clips).rd F.ETH_Q_FLOW.BYTES k = s.rd F.ETH_Q_FLOW.BYTES k :=
    (State.rd_wr_of_reg _ _ (by decide)).trans (State.rd_wr_of_reg _ _ (by decide))
  simp only [State.flowOf, hrd]

/-- A queue's payload limit rests on its port's MTU and its flow template. -/
theorem State.ethLimit_blockCount (s : State) (j k : StpJob) (n clips qi : Nat) :
    ((s.blockCount j n clips).setJob k).ethLimit qi = s.ethLimit qi := by
  have hmtu : (s.blockCount j n clips).rd F.ETH_PORT_CFG.MTU (qi / 64) = s.rd F.ETH_PORT_CFG.MTU (qi / 64) :=
    (State.rd_wr_of_reg _ _ (by decide)).trans (State.rd_wr_of_reg _ _ (by decide))
  change (s.blockCount j n clips).ethLimit qi = _
  simp only [State.ethLimit, hmtu, State.flowOf_blockCount]

theorem State.blockToEth_of_room {s : State} {j : StpJob} {b : Block}
    (hroom : j.slots.length + 1 < (s.ethLimit (jobQueue j.desc) - 32) / slotBytes (jobQ j.desc))
    (hmore : j.blocks + 1 < jobBlocks j.desc) (n : Nat) :
    s.blockToEth j b n = (s.blockCount j n b.clips).setJob (j.grouped b) := by
  have hlimit := s.ethLimit_blockCount j (j.grouped b) n b.clips (jobQueue j.desc)
  simp only [StpJob.grouped] at hlimit
  simp only [State.blockToEth, hlimit, List.length_append, List.length_singleton, hroom, hmore, decide_true, Bool.and_self, if_true]
  rfl

/-- Settles O34: each check that passes, and each piece that is placed, picks the one branch of its command. -/
theorem stippleJobsAreQueuedAndRun : Obligations.StippleJobsAreQueuedAndRun := by
  refine ⟨?job, ?dispatch, ?block, ?memory, ?ethernet⟩
  case job =>
    intro s u v r sl d m o cm co hready hcmd hd hsl hfields hmain hovf hm ho hdv hslv hcm hco hgood heth hin hchain hroom hshare hquota
    subst hcm hco
    obtain rfl := hslv
    obtain rfl := hdv
    rw [hd] at hfields hmain hovf hm ho
    rw [hsl] at hmain hovf
    rw [exec_stpJob_of_cmd hready hcmd, State.stpJob_of_read hfields hmain hovf hm ho,
      State.jobChecked_of_good hgood heth hin hchain hroom hshare hquota]
    rfl
  case dispatch =>
    rintro s _ j e hready hj he rfl
    rw [exec_stpDispatch_of_ready hready, State.stpDispatch_of_choice hj he]
    exact ⟨fun hover => by rw [if_pos hover]; rfl, fun hunder => by rw [hunder]; rfl⟩
  case block =>
    rintro s u e j data _ hready he hj hrun hmore rfl hread
    rw [exec_stpBlockDone_of_ready hready he, State.stpBlock_of_read hj hrun hmore hread]
    exact ⟨fun hmem => by rw [hmem]; rfl, fun heth => by rw [heth]; rfl⟩
  case memory =>
    intro s u v j j1 j2 b n hrecs hslot
    refine ⟨j.placed j2 b, rfl, fun hmore => ?_, fun hlast => ?_⟩
    · rw [State.blockToMem_of_placed hrecs hslot, if_neg hmore]
    · rw [State.blockToMem_of_placed hrecs hslot, if_pos hlast]
  case ethernet =>
    intro s j b n hroom hmore
    exact ⟨j.grouped b, rfl, s.ethLimit_blockCount j _ n _ _, State.blockToEth_of_room hroom hmore n⟩

/-! ## Ethernet queues (R314 to R321) -/

theorem exec_ethFrameSend_of_ready {s : State} {p sub : Nat} (hp : p < 4) (hsub : sub < 4) (hready : s.ethReady p = true) :
    exec (.ethFrameSend p sub) s = .next (s.ethSendOne p sub) := by
  change execEthFrameSend _ _ _ = _
  simp only [execEthFrameSend, hp, hsub, hready, decide_true, Bool.and_self, if_true]

/-- The queue the arbiter granted gives up its oldest frame. -/
def State.frameTaken (s : State) (p sub q : Nat) (l : List EthFrame) : State :=
  State.setEthQueue { s with eth := { s.eth with ptr := Tbl.set s.eth.ptr (4 * p + sub) (rotNext 64 q) 0 } } (64 * p + q) l

theorem State.ethSendOne_of_grant {s : State} {p sub q : Nat} {f : EthFrame} {l : List EthFrame}
    (hen : s.is F.ETH_PORT_CFG.EN p = true) (hlink : s.fbit F.ETH_PORT_STATUS.LINK p sub = true)
    (hgrant : rotGrant 64 (Tbl.get s.eth.ptr (4 * p + sub) 0) (s.queueReady p sub) = some q)
    (hqueue : s.ethQueue (64 * p + q) = f :: l) :
    s.ethSendOne p sub = if f.slice = 0 || (s.frameTaken p sub q l).frameMine f.slice f.bytes
      then (s.frameTaken p sub q l).frameSent (4 * p + sub) (64 * p + q) f
      else (s.frameTaken p sub q l).frameSpoof (64 * p + q) f := by
  have hqueue' : State.ethQueue { s with eth := { s.eth with ptr := Tbl.set s.eth.ptr (4 * p + sub) (rotNext 64 q) 0 } }
      (64 * p + q) = f :: l := hqueue
  simp only [State.ethSendOne, hen, hlink, hgrant, hqueue']
  rfl

/-- A frame on the wire, counted with its frame check sequence. -/
def State.frameCountedOut (s : State) (sub qi : Nat) (f : EthFrame) : State :=
  (State.inc { s with eth := { s.eth with sent := s.eth.sent ++ [(sub, wireBytes f.bytes)] } } F.ETH_PORT_FRAMES.FRAMES_TX
    (qi / 64)).inc F.ETH_PORT_BYTES.BYTES_TX (qi / 64) (wireBytes f.bytes).length

section
variable (s : State) (sub qi : Nat) {f : EthFrame}

theorem State.frameSent_send (h : f.kind = .send) :
    s.frameSent sub qi f = (s.frameCountedOut sub qi f).finish f.ring csOK (wireBytes f.bytes).length := by
  simp only [State.frameSent, h]
  rfl

theorem State.frameSent_ended (h : f.kind = .ended) : s.frameSent sub qi f = s.frameCountedOut sub qi f := by
  simp only [State.frameSent, h]
  rfl

variable {s sub qi} {j : StpJob} (hj : (s.frameCountedOut sub qi f).stp.running.find? (fun j => j.ring == f.ring) = some j)
include hj

theorem State.frameSent_last (h : f.kind = .last) :
    s.frameSent sub qi f = (s.frameCountedOut sub qi f).jobEnd j (j.stop.getD csOK) := by
  simp only [State.frameCountedOut] at hj
  simp only [State.frameSent, h, hj]
  rfl

theorem State.frameSent_group_end (h : f.kind = .job)
    (hlast : ((s.frameCountedOut sub qi f).ethQueue qi).any (fun g => g.ring == f.ring && g.kind == EthKind.job) = false) :
    s.frameSent sub qi f = (s.frameCountedOut sub qi f).groupSent j := by
  simp only [State.frameCountedOut] at hj hlast
  simp only [State.frameSent, h, hj, hlast]
  rfl

end

section
variable {s u : State} {r : Nat}

theorem exec_ethSend_of_ready (hcmd : s.hasCmd r 0x41 = true) (hready : s.ethReady (byteAt (s.desc r) 8) = true) :
    exec (.ethSend r) s = .next (s.ethSend r) := by
  change execEthSend _ _ = _
  simp only [execEthSend, hcmd, hready, Bool.or_true, Bool.and_self, if_true]

theorem exec_ethFlowSet_of_ready (hcmd : s.hasCmd r 0x30 = true) (hready : s.ethReady (byteAt (s.desc r) 8) = true) :
    exec (.ethFlowSet r) s = .next (s.flowSet r) := by
  change execEthFlowSet _ _ = _
  simp only [execEthFlowSet, hcmd, hready, Bool.or_true, Bool.and_self, if_true]

/-- A send that passes its checks puts its payload on the queue. -/
theorem State.ethSend_of_good {sl qi len : Nat} {d data : List (BitVec 8)} (hd : d = s.desc r) (hport : byteAt d 8 < 4)
    (hqueue : byteAt d 9 < 64) (hsl : sl = s.ringSlice r) (hqi : qi = 64 * byteAt d 8 + byteAt d 9) (hlen : len = dget d 24 4)
    (hne : len ≠ 0) (hle : len ≤ s.ethLimit qi) (hepoch : dget d 10 2 = s.rd F.ETH_Q_CFG.ROLE_EPOCH qi)
    (hmine : s.queueMine sl qi = true) (hrange : s.rangeOk sl (dget d 16 8) len = true)
    (hread : s.cmdRead r 4 (dget d 16 8) len = (.data data [], u)) (hlink : u.queueLink qi = true) :
    s.ethSend r = (u.ethPush qi sl r .send data).start r := by
  subst hd hsl hqi hlen
  simp only [State.ethSend, Nat.not_le.mpr hport, Nat.not_le.mpr hqueue, hne, Nat.not_lt.mpr hle, hepoch, hmine, hrange, hread, hlink,
    decide_false, Bool.or_self, Bool.false_eq_true, if_false, ne_eq, not_true_eq_false, Bool.not_true, List.isEmpty_nil]

/-- A flow template that passes its checks is written. -/
theorem State.flowSet_of_good {sl qi : Nat} {d t : List (BitVec 8)} (hd : d = s.desc r) (hport : byteAt d 8 < 4)
    (hqueue : byteAt d 9 < 64) (hsl : sl = s.ringSlice r) (hqi : qi = 64 * byteAt d 8 + byteAt d 9)
    (hrange : s.rangeOk sl (dget d 16 8) 64 = true) (hepoch : dget d 10 2 = s.rd F.ETH_Q_CFG.ROLE_EPOCH qi)
    (hread : s.cmdRead r 4 (dget d 16 8) 64 = (.data t [], u)) (hown : sl = 0 ∨ u.rd F.ETH_Q_CFG.OWNER qi = sl)
    (hgood : flowGood t = true) (hidle : u.queueBusy qi = false) :
    s.flowSet r = ((List.range 7).foldl (fun s k => s.wr F.ETH_Q_FLOW.BYTES (7 * qi + k) (leAt t (8 * k) 8)) u).finish r csOK := by
  subst hd hsl hqi
  have hmine : ¬ (¬ s.ringSlice r = 0 ∧ ¬ u.rd F.ETH_Q_CFG.OWNER (64 * byteAt (s.desc r) 8 + byteAt (s.desc r) 9) =
      s.ringSlice r) := fun ⟨h, k⟩ => hown.elim h k
  simp only [State.flowSet, Nat.not_le.mpr hport, Nat.not_le.mpr hqueue, hrange, hepoch, hread, hgood, hidle, hmine, Bool.and_eq_true,
    decide_eq_true_eq, decide_false, Bool.or_self, Bool.false_eq_true, if_false, ne_eq, not_true_eq_false, Bool.not_true, List.isEmpty_nil]

end

/-- Settles O35: the frame's kind, and the checks of the two commands, pick the one branch of each. -/
theorem ethernetSends : Obligations.EthernetSends := by
  refine ⟨?grant, ?sent, ?send, ?flow⟩
  case grant =>
    rintro s _ p sub q _ f l hp hsub hready hen hlink rfl hgrant hqueue rfl
    rw [exec_ethFrameSend_of_ready hp hsub hready, State.ethSendOne_of_grant hen hlink hgrant hqueue]
    refine ⟨fun hmine => ?_, fun hslice hmine => ?_⟩
    · rw [if_pos (by simpa [State.frameTaken] using hmine)]
      rfl
    · rw [if_neg (by simpa [State.frameTaken] using ⟨hslice, hmine⟩)]
      rfl
  case sent =>
    rintro s _ sub qi f rfl
    exact ⟨s.frameSent_send sub qi, s.frameSent_ended sub qi, fun j h hj => State.frameSent_last hj h,
      fun j h hj hlast => State.frameSent_group_end hj h hlast⟩
  case send =>
    intro s u r sl qi len d data hcmd hd hport hqueue hready hsl hqi hlen hne hle hepoch hmine hrange hread hlink
    rw [exec_ethSend_of_ready hcmd (hd ▸ hready),
      State.ethSend_of_good hd hport hqueue hsl hqi hlen hne hle hepoch hmine hrange hread hlink]
  case flow =>
    intro s u r sl qi d t hcmd hd hport hqueue hready hsl hqi hrange hepoch hread hown hgood hidle
    rw [exec_ethFlowSet_of_ready hcmd (hd ▸ hready),
      State.flowSet_of_good hd hport hqueue hsl hqi hrange hepoch hread hown hgood hidle]

end Sys2Proof.Machine
end

section
/-!
SUPPORT. The Ethernet ports' wire and links, and the writes of queues and shares.
-/

namespace Sys2Proof.Machine

/-! ## The wire (R316 to R318) -/

section
variable {s : State} {p sub : Nat} (hp : p < 4) (hsub : sub < 4) (hready : s.ethReady p = true)
  (hlink : s.fbit F.ETH_PORT_STATUS.LINK p sub = true)
include hp hsub hready hlink

theorem exec_pfcFrame_of_link (pause release : Nat) : exec (.pfcFrame p sub pause release) s = .next (s.pfc p sub pause release) := by
  change execPfcFrame _ _ _ _ _ = _
  simp only [execPfcFrame, hp, hsub, hready, hlink, decide_true, Bool.and_self, if_true]

theorem exec_ethRxDiscard_of_link : exec (.ethRxDiscard p sub) s = .next (s.inc F.ETH_PORT_CNT.RX_DISCARD p) := by
  change execEthRxDiscard _ _ _ = _
  simp only [execEthRxDiscard, hp, hsub, hready, hlink, decide_true, Bool.and_self, if_true]

end

theorem State.pfc_of_off {s : State} {p : Nat} (h : s.is F.ETH_PORT_CFG.PFC_EN p = false) (sub pause release : Nat) :
    s.pfc p sub pause release = s := by
  simp [State.pfc, h]

theorem State.pfc_of_on {s : State} {p : Nat} (h : s.is F.ETH_PORT_CFG.PFC_EN p = true) (sub pause release : Nat) :
    s.pfc p sub pause release = { s with eth := { s.eth with
      paused := Tbl.set s.eth.paused (4 * p + sub)
        ((((Tbl.get s.eth.paused (4 * p + sub) 0 ||| pause) % 256) ||| release % 256) ^^^ (release % 256)) 0 } } := by
  simp only [State.pfc, h]
  rfl

/-- A pause limit on a queue that a job runs on. -/
theorem State.pauseTimeout_of_busy {s : State} {p q : Nat}
    (hpaused : (Tbl.get s.eth.paused (s.subOf (64 * p + q)) 0).testBit (s.rd F.ETH_Q_CFG.PCP (64 * p + q)) = true)
    (hbusy : s.queueBusy (64 * p + q) = true) : s.pauseTimeout p q =
      ((s.inc F.ETH_PORT_CNT.PAUSE_TMO p).raise F.ETH_PORT_STATUS.EVT_PAUSE p).cutQueues (· == 64 * p + q) csTIMEOUT true := by
  simp only [State.pauseTimeout, hpaused, hbusy, State.when, if_true]
  rfl

theorem exec_pauseTimeout_of_ready {s : State} {p q : Nat} (hp : p < 4) (hq : q < 64) (hready : s.ethReady p = true) :
    exec (.pauseTimeout p q) s = .next (s.pauseTimeout p q) := by
  change execPauseTimeout _ _ _ = _
  simp only [execPauseTimeout, hp, hq, hready, decide_true, Bool.and_self, if_true]

theorem exec_ethLinkChange_of_enabled {s : State} {p sub : Nat} (hp : p < 4) (hready : s.ethReady p = true)
    (hen : s.is F.ETH_PORT_CFG.EN p = true) (hsub : sub < subPorts (s.rd F.ETH_PORT_CFG.MODE p)) (up : Bool) :
    exec (.ethLinkChange p sub up) s = .next (s.linkChange p sub up) := by
  change execEthLinkChange _ _ _ _ = _
  simp only [execEthLinkChange, hp, hsub, hready, hen, decide_true, Bool.and_self, if_true]

theorem State.linkChange_up {s : State} {p sub : Nat} (h : s.fbit F.ETH_PORT_STATUS.LINK p sub = false) :
    s.linkChange p sub true = (s.putBit F.ETH_PORT_STATUS.LINK p sub true).raise F.ETH_PORT_STATUS.EVT_LINK p := by
  simp [State.linkChange, h]

theorem State.linkChange_down {s : State} {p sub : Nat} (h : s.fbit F.ETH_PORT_STATUS.LINK p sub = true) :
    s.linkChange p sub false =
      ((s.putBit F.ETH_PORT_STATUS.LINK p sub false).raise F.ETH_PORT_STATUS.EVT_LINK p).linkLost p sub := by
  simp [State.linkChange, h]

/-! ## Queue and share writes (R312, R318, R322) -/

/-- A queue's EN, SUBPORT, PCP and OWNER take the data of a write. -/
def State.queueSet (s : State) (qi v : Nat) : State :=
  (((s.wr F.ETH_Q_CFG.SUBPORT qi (bits v 1 2)).wr F.ETH_Q_CFG.EN qi (v % 2)).wr F.ETH_Q_CFG.PCP qi (bits v 4 3)).wr
    F.ETH_Q_CFG.OWNER qi (bits v 8 8)

theorem exec_ethQCfgWrite_of_takes {s : State} {src : Src} {p q : Nat} (v : Nat) (hp : p < 4) (hq : q < 64)
    (h : s.takesWrite src .ETH_Q_CFG (64 * p + q) = true) :
    exec (.ethQCfgWrite src p q v) s = .next (s.ethQCfg (64 * p + q) v) := by
  change execEthQCfgWrite _ _ _ _ _ = _
  simp only [execEthQCfgWrite, hp, hq, decide_true, Bool.and_self, if_true]
  rw [State.withReg_of_takes h]

/-- A write that leaves a queue enabled with its owner: the epoch changes where it was not enabled (R318). -/
theorem State.ethQCfg_of_enable {s : State} {qi v : Nat} (hown : bits v 8 8 = s.rd F.ETH_Q_CFG.OWNER qi)
    (hsub : bits v 1 2 < subPorts (s.rd F.ETH_PORT_CFG.MODE (qi / 64))) (hen : v % 2 = 1) :
    s.ethQCfg qi v = if s.rd F.ETH_Q_CFG.EN qi = 1 then s.queueSet qi v else (s.queueSet qi v).bump F.ETH_Q_CFG.ROLE_EPOCH qi := by
  by_cases hwas : s.rd F.ETH_Q_CFG.EN qi = 1 <;> simp [State.ethQCfg, hown, hen, hwas, Nat.not_le.mpr hsub, State.queueSet]

section
variable (s : State) (qi v : Nat)

theorem State.queueSet_frame : Frame false [] [F.ETH_Q_CFG.EN.at qi, F.ETH_Q_CFG.SUBPORT.at qi, F.ETH_Q_CFG.PCP.at qi,
    F.ETH_Q_CFG.OWNER.at qi, F.ETH_Q_CFG.ROLE_EPOCH.at qi] s (s.queueSet qi v) :=
  ((((Frame.refl s).wr _ (by simp)).wr _ (by simp)).wr _ (by simp)).wr _ (by simp)

theorem State.rd_subport_queueSet : (s.queueSet qi v).rd F.ETH_Q_CFG.SUBPORT qi = bits v 1 2 := by
  rw [State.queueSet, State.rd_wr_of_lo _ _ (by decide), State.rd_wr_of_lo _ _ (by decide), State.rd_wr_of_lo _ _ (by decide),
    State.rd_wr_self]
  exact Nat.mod_eq_of_lt (bits_lt ..)

theorem State.rd_en_queueSet : (s.queueSet qi v).rd F.ETH_Q_CFG.EN qi = v % 2 := by
  rw [State.queueSet, State.rd_wr_of_lo _ _ (by decide), State.rd_wr_of_lo _ _ (by decide), State.rd_wr_self]
  exact Nat.mod_mod ..

theorem State.rd_pcp_queueSet : (s.queueSet qi v).rd F.ETH_Q_CFG.PCP qi = bits v 4 3 := by
  rw [State.queueSet, State.rd_wr_of_lo _ _ (by decide), State.rd_wr_self]
  exact Nat.mod_eq_of_lt (bits_lt ..)

theorem State.rd_owner_queueSet : (s.queueSet qi v).rd F.ETH_Q_CFG.OWNER qi = bits v 8 8 := by
  rw [State.queueSet, State.rd_wr_self]
  exact Nat.mod_eq_of_lt (bits_lt ..)

theorem State.rd_epoch_queueSet : (s.queueSet qi v).rd F.ETH_Q_CFG.ROLE_EPOCH qi = s.rd F.ETH_Q_CFG.ROLE_EPOCH qi := by
  rw [State.queueSet, State.rd_wr_of_lo _ _ (by decide), State.rd_wr_of_lo _ _ (by decide), State.rd_wr_of_lo _ _ (by decide),
    State.rd_wr_of_lo _ _ (by decide)]

end

theorem exec_stpShareWrite_of_takes {s : State} {src : Src} {sl : Nat} (v : Nat) (hsl : sl < 256)
    (h : s.takesWrite src .STP_SLICE_SHARE sl = true) : exec (.stpShareWrite src sl v) s = .next (s.stpShare sl (bits v 0 5)) := by
  change execStpShareWrite _ _ _ _ = _
  simp only [execStpShareWrite, hsl, if_true]
  rw [State.withReg_of_takes h]

theorem State.shareSettle_of_under {s : State} {sl : Nat} (h : s.is F.STP_SLICE_SHARE.OVER_QUOTA sl = false) :
    s.shareSettle sl = s := by
  simp [State.shareSettle, h]

section
variable {s : State} {sl v : Nat}

theorem State.stpShare_of_too_many (h : 16 < v) : s.stpShare sl v = s := if_pos h

theorem State.stpShare_of_rise (hv : v ≤ 16) (hrise : s.rd F.STP_SLICE_SHARE.SHARE sl ≤ v)
    (hunder : s.is F.STP_SLICE_SHARE.OVER_QUOTA sl = false) : s.stpShare sl v = s.wr F.STP_SLICE_SHARE.SHARE sl v := by
  have hunder' := (s.is_wr_of_lo (f := F.STP_SLICE_SHARE.SHARE) (i := sl) v (by decide)).trans hunder
  simp [State.stpShare, Nat.not_lt.mpr hv, Nat.not_lt.mpr hrise, State.shareSettle_of_under hunder']

/-- A cut to what is in use, or below, puts the slice over its quota (R312). -/
theorem State.stpShare_of_cut (hv : v ≤ 16) (hcut : v < s.rd F.STP_SLICE_SHARE.SHARE sl) (hused : v ≤ s.rd F.STP_SLICE_SHARE.USED sl)
    (hunder : s.is F.STP_SLICE_SHARE.OVER_QUOTA sl = false) : s.stpShare sl v =
      ((((s.wr F.STP_SLICE_SHARE.SHARE sl v).wr F.STP_SLICE_SHARE.OVER_QUOTA sl 1).raise
        F.STP_STATUS.EVT_QUOTA).wr F.HIF_SLICE_STATUS.OVER_STP sl 1).raise F.HIF_SLICE_STATUS.EVT_QUOTA sl := by
  have hunder' := (s.is_wr_of_lo (f := F.STP_SLICE_SHARE.SHARE) (i := sl) v (by decide)).trans hunder
  have hused' : (s.wr F.STP_SLICE_SHARE.SHARE sl v).rd F.STP_SLICE_SHARE.USED sl = s.rd F.STP_SLICE_SHARE.USED sl :=
    State.rd_wr_of_lo _ _ (by decide)
  simp [State.stpShare, Nat.not_lt.mpr hv, hcut, hused', hused, hunder']

end

/-! ## The end of clearing (R323) -/

section
variable {s : State} {dom : Nat} (hheld : s.held = false) (hon : s.domOn dom = true)
include hheld hon

theorem exec_stpEthClearDone_stipple (h : dom = 93) : exec (.stpEthClearDone dom) s = .next (s.wr F.STP_STATUS.READY 0 1) := by
  change execStpEthClearDone _ _ = _
  simp only [execStpEthClearDone, State.stpEthClear, hheld, h ▸ hon, h]
  rfl

theorem exec_stpEthClearDone_ethernet (h : dom = 94 ∨ dom = 95) : exec (.stpEthClearDone dom) s =
    .next ((s.wr F.ETH_PORT_STATUS.READY (2 * (dom - 94)) 1).wr F.ETH_PORT_STATUS.READY (2 * (dom - 94) + 1) 1) := by
  have hne : dom ≠ 93 := by omega
  change execStpEthClearDone _ _ = _
  simp only [execStpEthClearDone, State.stpEthClear, hheld, hon, Bool.not_true, Bool.or_self, Bool.false_eq_true, if_false, hne,
    Bool.or_eq_true, decide_eq_true_eq, h, if_true]

end

/-- Settles O36: the link, the pause, the field and the quota pick the one branch of each command. -/
theorem ethernetPortsAndShares : Obligations.EthernetPortsAndShares := by
  refine ⟨?wire, ?pause, ?link, ?queue, ?share, ?clear⟩
  case wire =>
    intro s p sub hp hsub hready hlink
    refine ⟨fun pause release v hen hv => ?_, fun pause release hoff => ?_, exec_ethRxDiscard_of_link hp hsub hready hlink⟩
    · rw [exec_pfcFrame_of_link hp hsub hready hlink, State.pfc_of_on hen, hv]
    · rw [exec_pfcFrame_of_link hp hsub hready hlink, State.pfc_of_off hoff]
  case pause =>
    rintro s p q _ hp hq hready rfl hpaused hbusy
    rw [exec_pauseTimeout_of_ready hp hq hready, State.pauseTimeout_of_busy hpaused hbusy]
  case link =>
    intro s p sub hp hready hen hsub
    refine ⟨fun hdown => ?_, fun hup => ?_⟩
    · rw [exec_ethLinkChange_of_enabled hp hready hen hsub, State.linkChange_up hdown]
    · rw [exec_ethLinkChange_of_enabled hp hready hen hsub, State.linkChange_down hup]
  case queue =>
    rintro s src p q _ v hp hq rfl htakes hown hsub hen
    have hport : (64 * p + q) / 64 = p := by omega
    rw [exec_ethQCfgWrite_of_takes v hp hq htakes, State.ethQCfg_of_enable hown (by rwa [hport]) hen]
    by_cases hwas : s.rd F.ETH_Q_CFG.EN (64 * p + q) = 1
    · rw [if_pos hwas]
      exact ⟨_, rfl, (s.rd_en_queueSet _ v).trans hen, s.rd_subport_queueSet _ v, s.rd_pcp_queueSet _ v, s.rd_owner_queueSet _ v,
        fun _ => s.rd_epoch_queueSet _ v, fun h => absurd (hwas.symm.trans h) (by decide), s.queueSet_frame _ v⟩
    · rw [if_neg hwas]
      refine ⟨_, rfl, ?_, ?_, ?_, ?_, fun h => absurd h hwas, fun _ => ?_, (s.queueSet_frame _ v).bump (by simp)⟩
      · exact (State.rd_wr_of_lo _ _ (by decide)).trans ((s.rd_en_queueSet _ v).trans hen)
      · exact (State.rd_wr_of_lo _ _ (by decide)).trans (s.rd_subport_queueSet _ v)
      · exact (State.rd_wr_of_lo _ _ (by decide)).trans (s.rd_pcp_queueSet _ v)
      · exact (State.rd_wr_of_lo _ _ (by decide)).trans (s.rd_owner_queueSet _ v)
      · rw [State.bump, State.rd_wr_self, s.rd_epoch_queueSet]
  case share =>
    intro s src sl v hsl htakes
    rw [exec_stpShareWrite_of_takes v hsl htakes]
    refine ⟨fun hv hrise hunder => ?_, fun hcut hv hused hunder => ?_, fun hmany => ?_⟩
    · rw [State.stpShare_of_rise hv hrise hunder]
    · rw [State.stpShare_of_cut hv hcut hused hunder]
    · rw [State.stpShare_of_too_many hmany]
  case clear =>
    exact fun s dom hheld hon => ⟨exec_stpEthClearDone_stipple hheld hon, exec_stpEthClearDone_ethernet hheld hon⟩

end Sys2Proof.Machine
end

section
/-!
SUPPORT. The memory controllers' requests, die corrections and reports: the branch that one queued entry takes.
-/

namespace Sys2Proof.Machine

/-! ## Requests at a controller (R327) -/

theorem exec_sheetRead_of_read {s : State} {n : Nat} {q : MemReq} (hheld : s.held = false) (hqueue : s.mem.queue = [q])
    (hsheet : q.sheet = n) (hread : q.write = false) : exec (.sheetRead n) s = .next (s.memServe n) := by
  change execSheetRead _ _ = _
  simp [execSheetRead, hheld, hqueue, hsheet, hread]

theorem exec_sheetRead_of_write {s : State} {n : Nat} {q : MemReq} (hheld : s.held = false) (hqueue : s.mem.queue = [q])
    (hsheet : q.sheet = n) (hwrite : q.write = true) : exec (.sheetRead n) s = .next s := by
  change execSheetRead _ _ = _
  simp [execSheetRead, hheld, hqueue, hsheet, hwrite]

theorem exec_sheetWrite_of_write {s : State} {n : Nat} {q : MemReq} (hheld : s.held = false) (hqueue : s.mem.queue = [q])
    (hsheet : q.sheet = n) (hwrite : q.write = true) : exec (.sheetWrite n) s = .next (s.memServe n) := by
  change execSheetWrite _ _ = _
  simp [execSheetWrite, hheld, hqueue, hsheet, hwrite]

theorem exec_sheetWrite_of_read {s : State} {n : Nat} {q : MemReq} (hheld : s.held = false) (hqueue : s.mem.queue = [q])
    (hsheet : q.sheet = n) (hread : q.write = false) : exec (.sheetWrite n) s = .next s := by
  change execSheetWrite _ _ = _
  simp [execSheetWrite, hheld, hqueue, hsheet, hread]

/-- The state with the controllers' queue empty. -/
def State.queueTaken (s : State) : State := { s with mem := { s.mem with queue := [] } }

section
variable {s : State} {n : Nat} {q : MemReq} (hqueue : s.mem.queue = [q]) (hsheet : q.sheet = n)
  (hstate : s.rd F.PWR_DOM_STATUS.STATE (ctlDom (s.controllerOf n)) = 0) (hon : s.domOn (ctlDom (s.controllerOf n)) = true)
  (hwalk : s.walking n = false)
include hqueue hsheet hstate hon hwalk

/-- The one request of a queue is served by a controller that is ON and has passed its walk. -/
theorem State.memServe_of_one : s.memServe n = if q.write then s.queueTaken.sheetWrite n q.bytes q.poison
    else match q.dst with
      | .cluster c => s.queueTaken.dieRead q c
      | .reply r => (s.queueTaken.hubRead n).2.ioReply r
          (some ((s.queueTaken.hubRead n).1.line q.upper, (s.queueTaken.hubRead n).1.bad q.upper))
      | .none => (s.queueTaken.hubRead n).2 := by
  simp only [State.memServe, hqueue, List.find?_cons, hsheet, beq_self_eq_true, hstate, hon, hwalk, List.eraseP_cons,
    Bool.and_false, zero_ne_one, Bool.not_true, Bool.or_self, Bool.false_eq_true, if_false]
  rfl

end

/-! ## The burnisher (R344) -/

theorem exec_burnishRead_of_on {s : State} {c : Nat} (hheld : s.held = false) (hen : s.is F.MEM_BURN_CFG.EN = true)
    (hpop : s.ctlPopulated c = true) (hon : s.domOn (ctlDom c) = true) : exec (.burnishRead c) s = .next (s.burnish c) := by
  change execBurnishRead _ _ = _
  simp [execBurnishRead, hheld, hen, hpop, hon]

/-! ## Die corrections (R339, R340) -/

/-- What a die reports of a raw sheet. -/
def dieReport (r : RawSheet) (sh : Sheet) : DieReport :=
  match sh.out with
  | .ue => .ue r.die r.req.sheet false
  | .addr => .ue r.die r.req.sheet true
  | _ => .writeBack r.die r.req.sheet sh.data

/-- The one raw sheet on its way to a die is decoded there, for cluster `c`. -/
def State.rawDecoded (s : State) (r : RawSheet) (c : Nat) (sh : Sheet) : State :=
  let u := State.fillFrom { s with mem := { s.mem with raw := [] } } r.req c sh
  { u with mem := { u.mem with reports := u.mem.reports ++ [dieReport r sh] } }

theorem exec_rawSheetDecode_of_one {s : State} {r : RawSheet} {c : Nat} (hheld : s.held = false) (hraw : s.mem.raw = [r])
    (hon : s.domOn (uncoreDom r.die) = true) (hdst : r.req.dst = .cluster c) : exec (.rawSheetDecode r.die r.req.sheet) s =
      .next (s.rawDecoded r c (decodeSheet r.t r.req.sheet r.data r.code)) := by
  change execRawSheetDecode _ _ _ = _
  simp only [execRawSheetDecode, hraw, List.find?_cons, beq_self_eq_true, Bool.and_self, hheld, hon, State.rawDecode, hdst,
    List.erase_cons_head, Bool.not_true, Bool.or_self, Bool.false_eq_true, if_false]
  rfl

theorem State.rawDecoded_frame (s : State) (r : RawSheet) (c : Nat) (sh : Sheet) : Frame false [.mem, .dir] [] s (s.rawDecoded r c sh) :=
  (((Frame.refl s).with_mem (by simp)).with_dir (by simp)).with_mem (by simp)

theorem State.reports_rawDecoded (s : State) (r : RawSheet) (c : Nat) (sh : Sheet) :
    (s.rawDecoded r c sh).mem.reports = s.mem.reports ++ [dieReport r sh] := rfl

/-- The state with no report from a die. -/
def State.reportTaken (s : State) : State := { s with mem := { s.mem with reports := [] } }

section
variable {s : State} {n die : Nat} (hheld : s.held = false) (hon : s.domOn (ctlDom (s.controllerOf n)) = true)
include hheld hon

theorem exec_correctionWriteback_of_one {data : Nat} (hrep : s.mem.reports = [.writeBack die n data]) :
    exec (.correctionWriteback n die) s = .next (s.reportTaken.corrWrite die n data) := by
  change execCorrectionWriteback _ _ _ = _
  simp only [execCorrectionWriteback, hrep, List.find?_cons, beq_self_eq_true, Bool.and_self, hheld, hon,
    List.erase_cons_head, Bool.not_true, Bool.or_self, Bool.false_eq_true, if_false]
  rfl

/-- A UE or ADDR report of a pending sheet frees its entry and counts. -/
theorem exec_ueReport_of_one {addr : Bool} {e : PendCorr} (hrep : s.mem.reports = [.ue die n addr])
    (hcorr : s.corrOf (s.controllerOf n) = [e]) (hsheet : e.sheet = n) (hdie : e.die = die) : exec (.ueReport n die) s =
      .next ((s.reportTaken.setCorr (s.controllerOf n) []).countOutcome n (if addr then .addr else .ue)) := by
  subst hsheet hdie
  have hcorr' : s.reportTaken.corrOf (s.controllerOf e.sheet) = [e] := hcorr
  have hctl : s.reportTaken.controllerOf e.sheet = s.controllerOf e.sheet := rfl
  simp only [State.reportTaken] at hcorr' hctl
  change execUeReport _ _ _ = _
  simp only [execUeReport, hrep, List.find?_cons, beq_self_eq_true, Bool.and_self, hheld, hon, State.reportTaken,
    List.erase_cons_head, Bool.not_true, Bool.or_self, Bool.false_eq_true, if_false, hctl, hcorr', List.any_cons, Bool.true_or, if_true,
    List.eraseP_cons]
  rfl

theorem exec_correctionTimeout_of_one {e : PendCorr} (hcorr : s.corrOf (s.controllerOf n) = [e]) (hsheet : e.sheet = n)
    (hdie : e.die = die) : exec (.correctionTimeout n die) s = .next (s.hubCorrect e) := by
  change execCorrectionTimeout _ _ _ = _
  simp [execCorrectionTimeout, hcorr, hsheet, hdie, hheld, hon]

end

/-- A write-back with its entry pending frees the entry, counts, and rewrites the sheet with its markers. -/
theorem State.corrWrite_of_pending {s : State} {n die : Nat} {e : PendCorr} (hcorr : s.corrOf (s.controllerOf n) = [e])
    (hsheet : e.sheet = n) (hdie : e.die = die) (data : Nat) :
    s.corrWrite die n data = ((s.setCorr (s.controllerOf n) []).countOutcome n .corrected).putSheet n data
      (decodeSheet (s.strengthOf n) n e.data e.code).lower (decodeSheet (s.strengthOf n) n e.data e.code).upper := by
  simp [State.corrWrite, hcorr, hsheet, hdie]

theorem State.corrWrite_of_none {s : State} {n : Nat} (hcorr : s.corrOf (s.controllerOf n) = []) (die data : Nat) :
    s.corrWrite die n data = s := by
  simp [State.corrWrite, hcorr]

/-- Settles O37: one queued request, raw sheet or pending entry leaves each command one branch. -/
theorem sheetsAreServedAndCorrected : Obligations.SheetsAreServedAndCorrected := by
  refine ⟨?serve, ?burnish, ?raw, ?writeback, ?report,
    fun s n die e hheld hon hcorr hsheet hdie => exec_correctionTimeout_of_one hheld hon hcorr hsheet hdie⟩
  case serve =>
    rintro s _ n q hheld hqueue hsheet hstate hon hwalk rfl
    have hserve := State.memServe_of_one hqueue hsheet hstate hon hwalk
    refine ⟨fun hwrite => ⟨?_, exec_sheetRead_of_write hheld hqueue hsheet hwrite⟩, fun c hread hdst => ?_,
      fun r sh v hread hdst hhub => ?_, fun hread hdst => ?_, fun hread => exec_sheetWrite_of_read hheld hqueue hsheet hread⟩
    · rw [exec_sheetWrite_of_write hheld hqueue hsheet hwrite, hserve, if_pos hwrite]
      rfl
    · rw [exec_sheetRead_of_read hheld hqueue hsheet hread, hserve, hread, hdst]
      rfl
    · have hhub' : s.queueTaken.hubRead n = (sh, v) := hhub
      rw [exec_sheetRead_of_read hheld hqueue hsheet hread, hserve, hread, hdst, hhub']
      rfl
    · rw [exec_sheetRead_of_read hheld hqueue hsheet hread, hserve, hread, hdst]
      rfl
  case burnish =>
    rintro s _ c _ hheld hen hpop hon rfl rfl
    rw [exec_burnishRead_of_on hheld hen hpop hon]
    exact ⟨fun hmore => by rw [State.burnish, if_pos hmore], fun hlast => by rw [State.burnish, if_neg (Nat.not_lt.mpr hlast)]⟩
  case raw =>
    rintro s r _ c hheld hraw hon hdst rfl
    refine ⟨_, exec_rawSheetDecode_of_one hheld hraw hon hdst, rfl, rfl, fun h => ?_, fun h => ?_, fun h => ?_, s.rawDecoded_frame r c _⟩
    · obtain h | h := h <;> rw [State.reports_rawDecoded, dieReport, h]
    · rw [State.reports_rawDecoded, dieReport, h]
    · rw [State.reports_rawDecoded, dieReport, h]
  case writeback =>
    rintro s _ n die _ data hheld hrep rfl hon rfl
    rw [exec_correctionWriteback_of_one hheld hon hrep]
    refine ⟨fun e sh hcorr hsheet hdie hsh => ?_, fun hcorr => ?_⟩
    · rw [hsh]
      exact congrArg _ (State.corrWrite_of_pending (s := s.reportTaken) hcorr hsheet hdie data)
    · exact congrArg _ (State.corrWrite_of_none (s := s.reportTaken) hcorr die data)
  case report =>
    rintro s _ n die _ addr e hheld hrep rfl hon rfl hcorr hsheet hdie
    exact exec_ueReport_of_one hheld hon hrep hcorr hsheet hdie

end Sys2Proof.Machine
end

section
/-!
SUPPORT. Watermarks, plate strength and the walks: what each write starts and what each walk leaves.
-/

namespace Sys2Proof.Machine

/-! ## Memory filtered by address -/

theorem cellRead_filter (m : List Host.Cell) (p : Nat → Bool) (k : Nat) :
    cellRead (m.filter (fun c => p c.1)) k = if p k then cellRead m k else 0 := by
  induction m with
  | nil => simp [cellRead]
  | cons c m ih =>
    obtain ⟨a, b⟩ := c
    by_cases hak : a = k
    · subst hak
      cases hp : p a <;> simp_all [cellRead]
    · cases hp : p a <;> simp [hp, cellRead, hak, ih]

theorem State.memByte_memZero (s : State) (pa n a : Nat) :
    (s.memZero pa n).memByte a = if a < pa ∨ pa + n ≤ a then s.memByte a else 0 := by
  refine (cellRead_filter s.mem.cells (fun x => x < pa || pa + n ≤ x) a).trans ?_
  simp [State.memByte]

/-! ## Watermarks (R331, R332) -/

theorem exec_memWmWrite_of_takes {s : State} {src : Src} (h : s.takesWrite src .MEM_WM = true) (v : Nat) :
    exec (.memWmWrite src v) s = .next (s.wmWrite src v) := congrArg _ (State.withReg_of_takes h)

theorem State.wmWrite_of_busy {s : State} (h : s.is F.MEM_WM.WM_BUSY = true) (src : Src) (v : Nat) : s.wmWrite src v = s := if_pos h

section
variable {s : State} {v : Nat} (hidle : s.is F.MEM_WM.WM_BUSY = false)
include hidle

theorem State.wmWrite_normal_clear {src : Src} (hsec : isSecure src = false) (hclear : v.testBit 33 = true) :
    s.wmWrite src v = s.wr F.MEM_WM.WM_REFUSED 0 0 := by
  simp [State.wmWrite, hidle, hsec, hclear]

theorem State.wmWrite_secure (hclear : v.testBit 33 = false) : s.wmWrite .secure v = s.wmSecure v := by
  simp only [State.wmWrite, hidle, hclear, Bool.false_eq_true, if_false]
  rfl

end

/-- The raised watermarks, and LOCK where the data asks for it. -/
def State.wmRaised (s : State) (v h d : Nat) : State :=
  ((s.wr F.MEM_WM.HBM_WM 0 (max h (s.rd F.MEM_WM.HBM_WM))).wr F.MEM_WM.DDR_WM 0 (max d (s.rd F.MEM_WM.DDR_WM))).when (v.testBit 31)
    (·.wr F.MEM_WM.LOCK 0 1)

section
variable {s : State} {v : Nat} (hlock : s.is F.MEM_WM.LOCK = false) (hh : bits v 0 8 ≤ s.hw.hbmPlates) (hd : bits v 8 12 ≤ s.ddrPlates)
include hlock hh hd

theorem State.wmSecure_of_blocked (hblock : s.raiseBlocked (bits v 0 8) (bits v 8 12) = true) (hpop : s.ctlPopulated 0 = true) :
    s.wmSecure v = (s.wr F.MEM_WM.WM_REFUSED 0 1).raise F.MEM_CTL_STATUS.EVT_MISC 0 := by
  simp [State.wmSecure, hlock, Nat.not_lt.mpr hh, Nat.not_lt.mpr hd, hblock, hpop, State.when]

/-- Both watermarks rise at once; a value that falls starts a lowering. -/
theorem State.wmSecure_of_free (hfree : s.raiseBlocked (bits v 0 8) (bits v 8 12) = false) :
    s.wmSecure v = if bits v 0 8 < s.rd F.MEM_WM.HBM_WM ∨ bits v 8 12 < s.rd F.MEM_WM.DDR_WM then
      State.wr { s.wmRaised v (bits v 0 8) (bits v 8 12) with
        mem := { (s.wmRaised v (bits v 0 8) (bits v 8 12)).mem with wmReq := some (bits v 0 8, bits v 8 12) } } F.MEM_WM.WM_BUSY 0 1
    else s.wmRaised v (bits v 0 8) (bits v 8 12) := by
  simp only [State.wmSecure, hlock, Nat.not_lt.mpr hh, Nat.not_lt.mpr hd, hfree, decide_false, Bool.or_self, Bool.false_eq_true, if_false,
    Bool.or_eq_true, decide_eq_true_eq]
  rfl

end

/-! ## An event on every populated controller (R343) -/

section
variable (s : State) (ddr : Bool) (f : Field)

theorem State.memEvent_mem : (s.memEvent ddr f).mem = s.mem := by
  unfold State.memEvent
  induction s.controllers ddr generalizing s with
  | nil => rfl
  | cons c l ih => exact (ih (s.raise f c)).trans (State.raise_mem ..)

theorem State.rd_memEvent {g : Field} (hev : evReg g.reg = false) (hne : f.reg ≠ g.reg) (i : Nat) :
    (s.memEvent ddr f).rd g i = s.rd g i := by
  unfold State.memEvent
  induction s.controllers ddr generalizing s with
  | nil => rfl
  | cons c l ih => exact (ih (s.raise f c)).trans (State.rd_raise_of_reg _ hev hne)

end

/-! ## The end of a lowering (R332) -/

/-- The released plates zeroed and the requested watermarks applied. -/
def State.wmApplied (s : State) (h d : Nat) : State :=
  let z := (s.memZero (h * 2 ^ 30) ((s.rd F.MEM_WM.HBM_WM - h) * 2 ^ 30)).memZero (2 ^ 42 + d * 2 ^ 30)
    ((s.rd F.MEM_WM.DDR_WM - d) * 2 ^ 30)
  ((State.wr { z with mem := { z.mem with wmReq := none } } F.MEM_WM.WM_BUSY 0 0).wr F.MEM_WM.HBM_WM 0 h).wr F.MEM_WM.DDR_WM 0 d

theorem exec_wmWalkDone_of_lowering {s : State} {h d : Nat} (hheld : s.held = false) (hreq : s.mem.wmReq = some (h, d))
    (hh : h < s.rd F.MEM_WM.HBM_WM) (hd : d < s.rd F.MEM_WM.DDR_WM) : exec .wmWalkDone s =
      .next (((s.wmApplied h d).memEvent false F.MEM_CTL_STATUS.EVT_WALK).memEvent true F.MEM_CTL_STATUS.EVT_WALK) := by
  change execWmWalkDone _ = _
  simp only [execWmWalkDone, State.wmDone, hheld, hreq, hh, hd, decide_true, State.when, if_true]
  rfl

/-- A byte of the released plates reads zero. -/
theorem State.memByte_wmApplied_of_released {s : State} {h d a : Nat}
    (ha : (h * 2 ^ 30 ≤ a ∧ a < s.rd F.MEM_WM.HBM_WM * 2 ^ 30) ∨
      (2 ^ 42 + d * 2 ^ 30 ≤ a ∧ a < 2 ^ 42 + s.rd F.MEM_WM.DDR_WM * 2 ^ 30)) : (s.wmApplied h d).memByte a = 0 := by
  have hbyte : (s.wmApplied h d).memByte a = ((s.memZero (h * 2 ^ 30) ((s.rd F.MEM_WM.HBM_WM - h) * 2 ^ 30)).memZero
      (2 ^ 42 + d * 2 ^ 30) ((s.rd F.MEM_WM.DDR_WM - d) * 2 ^ 30)).memByte a := rfl
  rw [hbyte, State.memByte_memZero, State.memByte_memZero, Nat.sub_mul, Nat.sub_mul]
  obtain ⟨hlow, hhigh⟩ | ⟨hlow, hhigh⟩ := ha
  · rw [if_neg (c := a < h * 2 ^ 30 ∨ _) (by omega), ite_self]
  · exact if_neg (by omega)

theorem State.rd_wmApplied {s : State} {h d : Nat} (hh : h < 2 ^ 8) (hd : d < 2 ^ 12) :
    (s.wmApplied h d).rd F.MEM_WM.HBM_WM = h ∧ (s.wmApplied h d).rd F.MEM_WM.DDR_WM = d ∧ (s.wmApplied h d).rd F.MEM_WM.WM_BUSY = 0 := by
  refine ⟨(State.rd_wr_of_lo _ _ (by decide)).trans ((State.rd_wr_self ..).trans (Nat.mod_eq_of_lt hh)),
    (State.rd_wr_self ..).trans (Nat.mod_eq_of_lt hd), ?_⟩
  exact (State.rd_wr_of_lo _ _ (by decide)).trans ((State.rd_wr_of_lo _ _ (by decide)).trans (State.rd_wr_self ..))

/-! ## Plate strength (R337, R345) -/

/-- A recode of plate `p` of a memory starts, to strength `t`. -/
def State.recodeStart (s : State) (ddr : Bool) (p t : Nat) : State :=
  (((((s.wr (plateTOld ddr) p (s.rd (plateT ddr) p)).wr (plateT ddr) p t).wr (plateRecode ddr) p 1).wr F.MEM_RECODE.PLATE (b2n ddr) p).wr
    F.MEM_RECODE.ACTIVE (b2n ddr) 1).wr F.MEM_RECODE.POINTER (b2n ddr) 0

section
variable {s : State} {ddr : Bool} {p v : Nat}

theorem exec_plateTWrite_of_takes (hp : p < if ddr then 2048 else 192)
    (h : s.takesWrite .secure (if ddr then .MEM_PLATE_CFG_D else .MEM_PLATE_CFG_H) p = true) (hclear : v.testBit 14 = false) :
    exec (.plateTWrite .secure ddr p v) s = .next (s.tWrite ddr p (bits v 0 5)) := by
  change execPlateTWrite _ _ _ _ _ = _
  simp only [execPlateTWrite, if_neg (Nat.not_le.mpr hp)]
  rw [State.withReg_of_takes h, hclear]
  rfl

theorem State.tWrite_of_refused {t : Nat} (h : s.is F.MEM_RECODE.ACTIVE (b2n ddr) = true ∨ t = 0 ∨ (if ddr then 24 else 12) < t) :
    s.tWrite ddr p t = (s.wr (plateRefused ddr) p 1).memEvent ddr F.MEM_CTL_STATUS.EVT_MISC := by
  refine if_pos ?_
  simpa [or_assoc] using h

variable {t : Nat} (hidle : s.is F.MEM_RECODE.ACTIVE (b2n ddr) = false) (hlow : 1 ≤ t) (hhigh : t ≤ if ddr then 24 else 12)
include hidle hlow hhigh

theorem State.tWrite_of_same (h : t = s.rd (plateT ddr) p) : s.tWrite ddr p t = s := by
  simp only [State.tWrite, hidle, Nat.not_lt.mpr hhigh, show t ≠ 0 by omega, if_pos h]
  simp

theorem State.tWrite_of_other (h : t ≠ s.rd (plateT ddr) p) : s.tWrite ddr p t = s.recodeStart ddr p t := by
  simp only [State.tWrite, hidle, Nat.not_lt.mpr hhigh, show t ≠ 0 by omega, if_neg h]
  rfl

end

/-- The recode of a memory whose sheets are all clean ends. -/
theorem exec_recodeDone_of_clean {s : State} (hheld : s.held = false) (hactive : s.is F.MEM_RECODE.ACTIVE 1 = true)
    (hclean : s.mem.code = []) : exec (.recodeDone 1) s =
      .next ((((((s.wr F.MEM_PLATE_CFG_D.RECODE (s.rd F.MEM_RECODE.PLATE 1) 0).wr F.MEM_PLATE_CFG_D.T_OLD (s.rd F.MEM_RECODE.PLATE 1)
        (s.rd F.MEM_PLATE_CFG_D.T (s.rd F.MEM_RECODE.PLATE 1))).wr F.MEM_RECODE.PLATE 1 0).wr F.MEM_RECODE.ACTIVE 1 0).wr
        F.MEM_RECODE.POINTER 1 0).memEvent true F.MEM_CTL_STATUS.EVT_WALK) := by
  change execRecodeDone _ _ = _
  simp only [execRecodeDone, hheld, State.recodeDone, beq_self_eq_true, b2n, hactive, hclean, if_true,
    Nat.one_lt_two, Bool.not_true, Bool.false_eq_true, if_false]
  rfl

/-! ## The initialisation walk (R348) -/

section
variable (s : State) (c : Nat)

theorem exec_initWalkDone_of_walking {s : State} {c : Nat} (hheld : s.held = false) (hwalk : s.mem.initWalk.contains c = true)
    (hon : s.domOn (ctlDom c) = true) : exec (.initWalkDone c) s = .next (s.initDone c) := by
  change execInitWalkDone _ _ = _
  simp only [execInitWalkDone, hheld, hwalk, hon, Bool.not_false, Bool.and_self, if_true]

theorem State.initDone_frame :
    Frame true [.mem] [F.MEM_CTL_STATUS.INIT_DONE.at c, F.MEM_CTL_STATUS.EVT_WALK.at c] s (s.initDone c) :=
  (((Frame.refl s).with_mem (by simp)).wr _ (by simp)).raise (by simp)

theorem State.memByte_initDone (a : Nat) : (s.initDone c).memByte a = if s.controllerOf (sheetOf a) ≠ c then s.memByte a else 0 := by
  rw [State.memByte, State.initDone, State.raise_mem]
  exact (cellRead_filter s.mem.cells (fun x => s.controllerOf (sheetOf x) ≠ c) a).trans (by simp [State.memByte])

theorem State.codeOf_initDone {n : Nat} (h : s.controllerOf n = c) : (s.initDone c).codeOf n = SheetCode.clean := by
  rw [State.codeOf, State.initDone, State.raise_mem]
  exact Tbl.get_filter_of_key (b := false) s.mem.code (fun v => by simp [h]) _

end

/-- Settles O38: the lock, the counts and the recode under way pick each branch; what a walk leaves is read off its filters. -/
theorem platesWalkAndChangeStrength : Obligations.PlatesWalkAndChangeStrength := by
  refine ⟨?raise, ?ignored, ?lowered, ?hbm, ?ddr, ?recoded, ?walked⟩
  case raise =>
    rintro s v _ _ htakes hidle hclear hlock rfl rfl hh hd
    rw [exec_memWmWrite_of_takes htakes, State.wmWrite_secure hidle hclear]
    refine ⟨fun hblock hpop => by rw [State.wmSecure_of_blocked hlock hh hd hblock hpop], fun hfree =>
      ⟨s.wmRaised v (bits v 0 8) (bits v 8 12), rfl, fun hrise hrise' => ?_, fun hfall => ?_⟩⟩
    · rw [State.wmSecure_of_free hlock hh hd hfree, if_neg (by omega)]
    · rw [State.wmSecure_of_free hlock hh hd hfree, if_pos hfall]
  case ignored =>
    intro s src v htakes
    rw [exec_memWmWrite_of_takes htakes]
    exact ⟨fun hbusy => by rw [State.wmWrite_of_busy hbusy],
      fun hidle hsec hclear => by rw [State.wmWrite_normal_clear hidle hsec hclear]⟩
  case lowered =>
    intro s h d hheld hreq hh8 hd12 hh hd
    obtain ⟨hhbm, hddr, hbusy⟩ := State.rd_wmApplied (s := s) hh8 hd12
    refine ⟨_, exec_wmWalkDone_of_lowering hheld hreq hh hd, ?_, ?_, ?_, ?_, fun a ha => ?_⟩
    · rw [State.rd_memEvent _ _ _ (by decide) (by decide), State.rd_memEvent _ _ _ (by decide) (by decide), hhbm]
    · rw [State.rd_memEvent _ _ _ (by decide) (by decide), State.rd_memEvent _ _ _ (by decide) (by decide), hddr]
    · rw [State.rd_memEvent _ _ _ (by decide) (by decide), State.rd_memEvent _ _ _ (by decide) (by decide), hbusy]
    · rw [State.memEvent_mem, State.memEvent_mem]
      rfl
    · rw [State.memByte, State.memEvent_mem, State.memEvent_mem]
      exact State.memByte_wmApplied_of_released ha
  case hbm =>
    intro s p v hp htakes hclear
    rw [exec_plateTWrite_of_takes (ddr := false) hp htakes hclear]
    exact ⟨fun hidle hlow hhigh hother => congrArg _ (State.tWrite_of_other (ddr := false) hidle hlow hhigh hother),
      fun hrefused => congrArg _ (State.tWrite_of_refused (ddr := false) hrefused)⟩
  case ddr =>
    intro s p v hp htakes hclear hidle hlow hhigh hsame
    rw [exec_plateTWrite_of_takes (ddr := true) hp htakes hclear, State.tWrite_of_same (ddr := true) hidle hlow hhigh hsame]
  case recoded =>
    rintro s _ hheld hactive rfl hclean
    exact exec_recodeDone_of_clean hheld hactive hclean
  case walked =>
    intro s c hheld hwalk hon
    refine ⟨_, exec_initWalkDone_of_walking hheld hwalk hon, ?_, State.rd_raise_self _ _ _ (by decide) rfl, fun a ha => ?_,
      fun a ha => ?_, fun n hn => s.codeOf_initDone c hn, s.initDone_frame c⟩
    · exact (State.rd_raise_of_lo _ (by decide) (by decide)).trans (State.rd_wr_self ..)
    · rw [s.memByte_initDone, if_neg (not_not.mpr ha)]
    · rw [s.memByte_initDone, if_pos ha]

end Sys2Proof.Machine
end

section
/-!
SUPPORT. Guest requests at the stencil: the branch that the line, the windows and the tokens pick.
-/

namespace Sys2Proof.Machine

/-! ## Requests of a guest (R353 to R356) -/

theorem State.setGuest_setGuest (s : State) (g : Nat) (x y : GuestSite) : (s.setGuest g x).setGuest g y = s.setGuest g y := by
  simp only [State.setGuest, Tbl.set_set]

/-- The command that brings a guest's request. -/
def guestCommand (g : Nat) (q : GuestReq) (refill : Nat) : Instr :=
  if q.write then .gWr g q.tag q.addr q.data refill else .gRd g q.tag q.addr q.len refill

section
variable {s : State} {g : Nat} (hup : s.guestUp g = true)
include hup

theorem exec_guestCommand {q : GuestReq} (htag : q.tag < 2 ^ 16) (hlen : q.len = if q.write then q.data.length else q.len)
    (hdata : q.write = false → q.data = []) (refill : Nat) :
    exec (guestCommand g q refill) s = .next (s.guestReq g q refill) := by
  obtain ⟨write, tag, addr, data, len⟩ := q
  have htag' : tag % 65536 = tag := Nat.mod_eq_of_lt htag
  cases write with
  | false =>
    obtain rfl : data = [] := hdata rfl
    change execGRd _ _ _ _ _ _ = _
    simp only [execGRd, hup, if_true, htag']
  | true =>
    obtain rfl : len = data.length := hlen
    change execGWr _ _ _ _ _ _ = _
    simp only [execGWr, hup, if_true, htag']

theorem exec_stencilTokenGrant_of_up (refill cycles : Nat) :
    exec (.stencilTokenGrant g refill cycles) s = .next (s.tokenGrant g refill cycles) := by
  change execStencilTokenGrant _ _ _ _ = _
  simp only [execStencilTokenGrant, hup, if_true]

theorem exec_badMsg_of_up : exec (.badMsg g) s = .next (s.inc F.STN_CNT1.BAD_MSG g) := by
  change execBadMsg _ _ = _
  simp only [execBadMsg, hup, if_true]
  rfl

theorem exec_guestTick_of_due (hruns : s.beatRuns = true) (hdue : s.beatNow % 2 ^ s.rd F.STN_CFG.TICKDIV g = 0) :
    exec (.guestTick g) s = .next (s.toGuest g (.tick s.beatNow)) := by
  change execGuestTick _ _ = _
  simp only [execGuestTick, hup, hruns, hdue, decide_true, Bool.and_self, if_true]

end

section
variable {s : State} {g : Nat} {q : GuestReq} {refill : Nat}

theorem State.guestReq_of_bad (h : q.len = 0 ∨ 128 < q.addr % 128 + q.len) :
    s.guestReq g q refill = (s.stnRefill g refill).inc F.STN_CNT1.BAD_MSG g := by
  refine if_pos ?_
  simp only [Bool.or_eq_true, decide_eq_true_eq]
  exact Or.inl h

variable (hlow : 1 ≤ q.len) (hline : q.addr % 128 + q.len ≤ 128) (haddr : q.addr < 2 ^ 64)
include hlow hline haddr

/-- A request within one line is judged by the windows, then by the bucket. -/
theorem State.guestReq_of_good : s.guestReq g q refill =
    if !(s.stnRefill g refill).stnPass g q.write q.addr q.len then ((s.stnRefill g refill).stnDenied g).guestCpl g q.tag 4
    else if ((s.stnRefill g refill).guest g).waiting.isEmpty && q.len ≤ (s.stnRefill g refill).stnTokens g then
      (s.stnRefill g refill).stnSpend g q
    else (s.stnRefill g refill).setGuest g { (s.stnRefill g refill).guest g with
      waiting := ((s.stnRefill g refill).guest g).waiting ++ [q] } := by
  refine if_neg ?_
  simp only [Bool.or_eq_true, decide_eq_true_eq]
  omega

theorem State.guestReq_of_tokens (hpass : (s.stnRefill g refill).stnPass g q.write q.addr q.len = true)
    (hfirst : ((s.stnRefill g refill).guest g).waiting = []) (htokens : q.len ≤ (s.stnRefill g refill).stnTokens g) :
    s.guestReq g q refill = (s.stnRefill g refill).stnSpend g q := by
  rw [State.guestReq_of_good hlow hline haddr]
  simp [hpass, hfirst, htokens]

theorem State.guestReq_of_few_tokens (hpass : (s.stnRefill g refill).stnPass g q.write q.addr q.len = true)
    (hfew : (s.stnRefill g refill).stnTokens g < q.len) :
    s.guestReq g q refill = (s.stnRefill g refill).setGuest g { (s.stnRefill g refill).guest g with
      waiting := ((s.stnRefill g refill).guest g).waiting ++ [q] } := by
  rw [State.guestReq_of_good hlow hline haddr]
  simp [hpass, Nat.not_le.mpr hfew]

theorem State.guestReq_of_outside (hpass : (s.stnRefill g refill).stnPass g q.write q.addr q.len = false) :
    s.guestReq g q refill = ((s.stnRefill g refill).stnDenied g).guestCpl g q.tag 4 := by
  rw [State.guestReq_of_good hlow hline haddr]
  simp [hpass]

end

/-- A request that the fabric takes. -/
def GuestReq.onFabric (g : Nat) (q : GuestReq) : CohMsg :=
  .req (Request.mk (if q.write then .ioWr else .ioRd) (q.addr / 128) (.guest g) none
    (q.data.zipIdx.map (fun p => (q.addr % 128 + p.2, p.1))) false q.tag (q.addr % 128) q.len)

theorem State.guestIssue_of_fabric {s : State} {q : GuestReq} (h : s.fabricCheck false q.addr = .none) (g : Nat) :
    s.guestIssue g q = s.send (q.onFabric g) := by
  simp only [State.guestIssue, h]
  rfl

/-! ## The token bucket (R356) -/

/-- The bucket refilled, and the wait counted. -/
def State.throttled (s : State) (g refill cycles : Nat) : State := (s.stnRefill g refill).inc F.STN_CNT0.THROTTLED g cycles

section
variable {s : State} {g refill cycles : Nat} {q : GuestReq} {l : List GuestReq} (hwait : (s.guest g).waiting = q :: l)
  (hpass : (s.throttled g refill cycles).stnPass g q.write q.addr q.len = true)
include hwait hpass

theorem State.tokenGrant_of_pass : s.tokenGrant g refill cycles = if (s.throttled g refill cycles).stnTokens g < q.len then
      s.throttled g refill cycles
    else ((s.throttled g refill cycles).setGuest g { (s.throttled g refill cycles).guest g with waiting := l }).stnSpend g q := by
  have hwait' : ((s.stnRefill g refill).guest g).waiting = q :: l := by
    rw [State.stnRefill, State.guest_setGuest]
    exact hwait
  simp only [State.throttled] at hpass
  simp only [State.tokenGrant, hwait', hpass]
  rfl

theorem State.tokenGrant_of_few (h : (s.throttled g refill cycles).stnTokens g < q.len) :
    s.tokenGrant g refill cycles = s.throttled g refill cycles := by
  rw [State.tokenGrant_of_pass hwait hpass, if_pos h]

theorem State.tokenGrant_of_enough (h : q.len ≤ (s.throttled g refill cycles).stnTokens g) :
    s.tokenGrant g refill cycles = ((s.throttled g refill cycles).setGuest g { (s.throttled g refill cycles).guest g with
      waiting := l, spent := ((s.throttled g refill cycles).guest g).spent + q.len }).guestIssue g q := by
  rw [State.tokenGrant_of_pass hwait hpass, if_neg (Nat.not_lt.mpr h)]
  simp only [State.stnSpend, State.guest_setGuest, State.setGuest_setGuest]

end

/-! ## Windows (R354) -/

theorem exec_stnWinEnable_of_takes {s : State} {g w : Nat} (hg : g < 2) (hw : w < 8)
    (h : s.takesWrite .secure .STN_WIN (8 * g + w) = true) (v : Nat) :
    exec (.stnWinEnable .secure g w v) s = .next (s.winWrite g w v) := by
  change execStnWinEnable _ _ _ _ _ = _
  simp only [execStnWinEnable, isSecure, hg, hw, decide_true, Bool.and_self, if_true]
  rw [State.withReg_of_takes h]

section
variable {s : State} {g w v : Nat} (hen : v % 2 = 1) (hoff : s.is F.STN_WIN.EN (8 * g + w) = false)
include hen hoff

theorem State.winWrite_of_fit (hfits : s.winFits (bits v 12 34) (s.rd F.STN_WIN_LIMIT.LIMIT (8 * g + w)) = true) :
    s.winWrite g w v = (((s.wr F.STN_WIN.RD (8 * g + w) (bits v 1 1)).wr F.STN_WIN.WR (8 * g + w) (bits v 2 1)).wr F.STN_WIN.BASE
      (8 * g + w) (bits v 12 34)).wr F.STN_WIN.EN (8 * g + w) 1 := by
  simp only [State.winWrite, hoff, Bool.false_eq_true, if_false, hfits, hen, Bool.not_true, Bool.and_false]

theorem State.winWrite_of_no_fit (hfits : s.winFits (bits v 12 34) (s.rd F.STN_WIN_LIMIT.LIMIT (8 * g + w)) = false) :
    s.winWrite g w v = s.raise F.STN_STATUS.EVT_REFUSED g := by
  have hbit : v.testBit 0 = true := by simp [hen]
  simp only [State.winWrite, hoff, Bool.false_eq_true, if_false, hfits, hbit, Bool.not_false, Bool.and_self, if_true]

end

/-- Settles O39: the line, the windows and the tokens pick the one branch of a request, a grant and a window's write. -/
theorem stencilPassesGuestRequests : Obligations.StencilPassesGuestRequests := by
  refine ⟨?request, ?fabric, ?grant, fun s g hup => ⟨exec_badMsg_of_up hup, exec_guestTick_of_due hup⟩, ?window⟩
  case request =>
    rintro s _ g q refill hup htag hlen hdata rfl _ rfl
    refine ⟨fun hlow hline haddr => ⟨fun hpass hfirst htokens => ?_, fun hpass hfew => ?_, fun hpass => ?_⟩, fun hbad => ?_⟩
    · exact (exec_guestCommand hup htag hlen hdata refill).trans
        (congrArg _ (State.guestReq_of_tokens hlow hline haddr hpass hfirst htokens))
    · exact (exec_guestCommand hup htag hlen hdata refill).trans
        (congrArg _ (State.guestReq_of_few_tokens hlow hline haddr hpass hfew))
    · exact (exec_guestCommand hup htag hlen hdata refill).trans (congrArg _ (State.guestReq_of_outside hlow hline haddr hpass))
    · exact (exec_guestCommand hup htag hlen hdata refill).trans (congrArg _ (State.guestReq_of_bad hbad))
  case fabric =>
    intro s g q hfabric
    exact ⟨_, State.guestIssue_of_fabric hfabric g, rfl, rfl, (Frame.refl s).with_dir (by simp)⟩
  case grant =>
    rintro s _ g refill cycles q l hup hwait rfl hpass
    rw [exec_stencilTokenGrant_of_up hup]
    exact ⟨fun htokens => congrArg _ (State.tokenGrant_of_enough hwait hpass htokens),
      fun hfew => congrArg _ (State.tokenGrant_of_few hwait hpass hfew)⟩
  case window =>
    rintro s g w v _ hg hw rfl htakes hen hoff
    rw [exec_stnWinEnable_of_takes hg hw htakes]
    exact ⟨fun hfits => congrArg _ (State.winWrite_of_fit hen hoff hfits),
      fun hfits => congrArg _ (State.winWrite_of_no_fit hen hoff hfits)⟩

end Sys2Proof.Machine
end

section
/-!
SUPPORT. PCIe links and the reset of a function; DMA completions, translations and invalidations.
-/

namespace Sys2Proof.Machine

/-! ## What an event leaves of a port (R379, R524): all but its outgoing traffic -/

/-- A port without its outgoing traffic. -/
def PciePort.quiet (x : PciePort) : PciePort := { x with out := [] }

theorem State.port_setPort (s : State) (p : Nat) (x : PciePort) : (s.setPort p x).port p = x := by
  unfold State.port State.setPort
  split <;> rfl

theorem State.port_setPort_of_other (s : State) {p q : Nat} (x : PciePort) (h : (p = 0) ≠ (q = 0)) :
    (s.setPort p x).port q = s.port q := by
  unfold State.port State.setPort
  by_cases hp : p = 0 <;> by_cases hq : q = 0 <;> simp_all

theorem State.port_eq_of_zero_iff (s : State) {p q : Nat} (h : p = 0 ↔ q = 0) : s.port p = s.port q := by
  simp only [State.port, h]

theorem State.quiet_sendTlp (s : State) (p : Nat) (t : HostTlp) (q : Nat) : ((s.sendTlp p t).port q).quiet = (s.port q).quiet := by
  by_cases h : p = 0 ↔ q = 0
  · rw [← State.port_eq_of_zero_iff _ h, ← State.port_eq_of_zero_iff _ h, State.sendTlp, State.port_setPort]
    rfl
  · rw [State.sendTlp, State.port_setPort_of_other _ _ (fun e => h (iff_of_eq e))]

theorem State.quiet_msix (s : State) (p v q : Nat) : ((s.msix p v).port q).quiet = (s.port q).quiet := by
  unfold State.msix
  dsimp only
  split
  · rfl
  · split
    · rfl
    · exact State.quiet_sendTlp ..

theorem State.quiet_sendEvent (s : State) (n q : Nat) : ((s.sendEvent n).port q).quiet = (s.port q).quiet := by
  unfold State.sendEvent
  dsimp only
  split
  · exact State.quiet_msix ..
  · exact State.quiet_msix ..
  · rfl
  · rfl

theorem State.quiet_deliver (s : State) (n q : Nat) : ((s.deliver n).port q).quiet = (s.port q).quiet := by
  unfold State.deliver
  split
  · rfl
  split
  · exact State.quiet_sendEvent ..
  split
  · rfl
  split
  · rfl
  · exact State.quiet_sendEvent ..

theorem State.quiet_fire (s : State) (n : Nat) (nm : Bool) (q : Nat) : ((s.fire n nm).port q).quiet = (s.port q).quiet := by
  unfold State.fire
  split
  · exact State.quiet_msix ..
  · exact State.quiet_deliver ..

theorem State.quiet_raise (s : State) (f : Field) (i q : Nat) : ((s.raise f i).port q).quiet = (s.port q).quiet := by
  unfold State.raise State.raiseNm
  split
  · rfl
  · dsimp only
    split
    · exact State.quiet_fire ..
    · split <;> rfl

/-! ## Links and the function's reset (R365, R383 to R387) -/

/-- A link that is up at a speed and a width. -/
def State.linkTrained (s : State) (p speed width : Nat) (flit : Bool) : State :=
  ((((s.wr F.HIF_PORT_STATUS.LINK_UP p 1).wr F.HIF_PORT_STATUS.SPEED p speed).wr F.HIF_PORT_STATUS.WIDTH p width).wr
    F.HIF_PORT_STATUS.FLIT p (b2n flit)).raise F.HIF_PORT_STATUS.EVT_LINK p

section
variable {s : State} {p : Nat} (hlive : s.pcieLive p = true)
include hlive

theorem State.linkUp_of_down (hperst : (s.port p).perst = false) (hdown : s.is F.HIF_PORT_STATUS.LINK_UP p = false) (speed width : Nat)
    (flit : Bool) : s.linkUp p speed width flit = if speed ≤ 3 ∨ width < 16 then
      ((s.linkTrained p speed width flit).wr F.HIF_PORT_STATUS.DEGRADED p 1).raise F.HIF_PORT_STATUS.EVT_DEGRADED p
    else s.linkTrained p speed width flit := by
  simp only [State.linkUp, hlive, hperst, hdown, Bool.not_true, Bool.or_self, Bool.false_eq_true, if_false, Bool.or_eq_true,
    decide_eq_true_eq]
  rfl

theorem exec_perstAssert_of_up (hperst : (s.port p).perst = false) : exec (.perstAssert p) s =
    .next ((((s.setPort p { s.port p with perst := true }).inc F.HIF_PORT_CNT2.PERSTS p).linkDown p).conventionalReset p) := by
  have hlive' : (s.setPort p { s.port p with perst := true }).pcieLive p = true := hlive
  change execPerstAssert _ _ = _
  simp only [execPerstAssert, hperst, hlive', Bool.not_true, Bool.false_eq_true, if_false]

variable (hlink : s.is F.HIF_PORT_STATUS.LINK_UP p = true)
include hlink

theorem exec_hotReset_of_up : exec (.hotReset p) s =
    .next (((s.inc F.HIF_PORT_CNT2.HOT_RESETS p).linkDown p).conventionalReset p) := by
  change execHotReset _ _ = _
  simp only [execHotReset, hlive, hlink, Bool.and_self, if_true]

variable (hready : s.is F.HIF_PORT_STATUS.FW_READY p = true) (hflr : (s.port p).flr = false)
include hready hflr

theorem exec_flr_of_ready : exec (.flr p) s = .next (s.startFlr p) := by
  change execFlr _ _ = _
  simp only [execFlr, hlive, hlink, hready, hflr, Bool.not_false, Bool.and_self, if_true]

theorem exec_powerStateChange_of_ready (d3 : Bool) : exec (.powerStateChange p d3) s = .next
    (if d3 then (s.wr F.HIF_PORT_STATUS.DSTATE p 3).setCfg p 0x44 3
     else if s.rd F.HIF_PORT_STATUS.DSTATE p = 3 then s.startFlr p else s) := by
  change execPowerStateChange _ _ _ = _
  simp only [execPowerStateChange, State.powerState, hlive, hlink, hready, hflr, Bool.and_self, Bool.not_true, Bool.or_self,
    Bool.false_eq_true, if_false]

end

theorem State.linkDown_of_up {s : State} {p : Nat} (h : s.is F.HIF_PORT_STATUS.LINK_UP p = true) :
    s.linkDown p = ((((((s.wr F.HIF_PORT_STATUS.LINK_UP p 0).wr F.HIF_PORT_STATUS.SPEED p 0).wr F.HIF_PORT_STATUS.WIDTH p 0).wr
      F.HIF_PORT_STATUS.FLIT p 0).wr F.HIF_PORT_STATUS.DEGRADED p 0).inc F.HIF_PORT_CNT2.LINK_DOWNS p).raise
      F.HIF_PORT_STATUS.EVT_LINK p := by
  simp only [State.linkDown, h, Bool.not_true, Bool.false_eq_true, if_false]

/-- A port whose function is reset holds what `cleared` leaves it, but for the message of EVT_RESET. -/
theorem State.quiet_functionReset (s : State) (p : Nat) (keep : Bool) : ((s.functionReset p keep).port p).quiet =
    ((((s.haltPort p).failCoreReads p).port p).cleared keep).quiet := by
  refine (State.quiet_raise _ F.HIF_PORT_STATUS.EVT_RESET p p).trans (congrArg PciePort.quiet ?_)
  exact State.port_setPort ((s.haltPort p).failCoreReads p) p _

theorem State.rd_dstate_functionReset (s : State) (p : Nat) (keep : Bool) : (s.functionReset p keep).rd F.HIF_PORT_STATUS.DSTATE p = 0 :=
  (State.rd_raise_of_lo _ (by decide) (by decide)).trans (State.rd_wr_self ..)

/-- Settles O41: each link's and function's state picks one branch; the function's reset is read off the port it leaves. -/
theorem pcieLinksAndResets : Obligations.PcieLinksAndResets := by
  refine ⟨?live, ?down, fun s p => ⟨rfl, rfl, rfl, rfl⟩, fun s p keep => ?_⟩
  case live =>
    intro s p hlive
    refine ⟨fun speed width flit hperst hdown => ⟨s.linkTrained p speed width flit, rfl, fun hfast hwide => ?_, fun hslow => ?_⟩,
      exec_perstAssert_of_up hlive, fun hlink => ⟨exec_hotReset_of_up hlive hlink, fun hready hflr =>
        ⟨exec_flr_of_ready hlive hlink hready hflr, ?_, fun hd3 => ?_⟩⟩⟩
    · exact congrArg _ ((State.linkUp_of_down hlive hperst hdown speed width flit).trans (if_neg (by omega)))
    · exact congrArg _ ((State.linkUp_of_down hlive hperst hdown speed width flit).trans (if_pos hslow))
    · exact exec_powerStateChange_of_ready hlive hlink hready hflr true
    · rw [exec_powerStateChange_of_ready hlive hlink hready hflr, if_neg Bool.false_ne_true, if_pos hd3]
  case down =>
    intro s p hlink
    exact ⟨congrArg _ (if_pos hlink), State.linkDown_of_up hlink⟩
  · have hquiet := s.quiet_functionReset p keep
    exact ⟨s.rd_dstate_functionReset p keep, State.rd_raise_self _ _ _ (by decide) rfl, congrArg PciePort.dma hquiet,
      congrArg PciePort.xlatReqs hquiet, congrArg PciePort.cache hquiet, congrArg PciePort.doe hquiet⟩

/-! ## DMA completions and translations (R378, R381, R382) -/

section
variable {s : State} {p : Nat}

theorem exec_dmaCompletion_of_up (hlive : s.pcieLive p = true) (hlink : s.is F.HIF_PORT_STATUS.LINK_UP p = true) (tag status : Nat)
    (ep : Bool) (data : List (BitVec 8)) : exec (.dmaCompletion p tag status ep data) s = .next (s.dmaCompletion p tag status ep data) := by
  change execDmaCompletion _ _ _ _ _ _ = _
  simp only [execDmaCompletion, hlive, hlink, Bool.and_self, if_true]

theorem exec_translationCompletion_of_up (hlive : s.pcieLive p = true) (hlink : s.is F.HIF_PORT_STATUS.LINK_UP p = true)
    (tag : Nat) (ok : Bool) (frame : Nat) (read write : Bool) : exec (.translationCompletion p tag ok frame read write) s =
      .next (s.xlatCompletion p tag ok frame read write) := by
  change execTranslationCompletion _ _ _ _ _ _ _ = _
  simp only [execTranslationCompletion, hlive, hlink, Bool.and_self, if_true]

theorem exec_atsInvalidation_of_up (hlive : s.pcieLive p = true) (hlink : s.is F.HIF_PORT_STATUS.LINK_UP p = true)
    (itag pasid page count : Nat) : exec (.atsInvalidation p itag pasid page count) s =
      .next (s.atsInvalidate p itag pasid page count) := by
  change execAtsInvalidation _ _ _ _ _ _ = _
  simp only [execAtsInvalidation, hlive, hlink, Bool.and_self, if_true]

theorem State.dmaCompletion_of_no_read (h : (s.port p).dma = []) (tag status : Nat) (ep : Bool) (data : List (BitVec 8)) :
    s.dmaCompletion p tag status ep data = (s.aerUnc p .unexpected []).inc F.HIF_PORT_CNT1.UNEXP_CPL p := by
  simp only [State.dmaCompletion, h, List.find?_nil]

/-- The port without its reads. -/
def State.dmaTaken (s : State) (p : Nat) : State := s.setPort p { s.port p with dma := [] }

variable {d : DmaRead} (hd : (s.port p).dma = [d])
include hd

/-- A completion of the one outstanding read. -/
theorem State.dmaCompletion_of_read {tag : Nat} (htag : d.tag = tag) (status : Nat) (ep : Bool) (data : List (BitVec 8)) :
    s.dmaCompletion p tag status ep data = State.settleInval (
      if status ≠ 0 then
        if 8192 ≤ d.owner then ((s.dmaTaken p).aerUnc p (if status = 1 then .unsupported else .abort) []).ioDone (d.owner - 8192) none
        else ((s.dmaTaken p).aerUnc p (if status = 1 then .unsupported else .abort) []).dmaFailed d.owner csABORTED
      else
        let u := (s.dmaTaken p).when ep (·.aerUnc p .poisoned [])
        if 8192 ≤ d.owner then (if ep then u.ioPoison (d.owner - 8192) else u.ioDone (d.owner - 8192) (some data))
        else u.setRing d.owner { u.ring d.owner with
          buf := (u.ring d.owner).buf ++ [DmaData.mk d.addr (data.take d.len) ep] }) p := by
  subst htag
  simp only [State.dmaCompletion, hd, List.find?_cons, beq_self_eq_true, List.filter_cons, ne_eq, not_true_eq_false, decide_false,
    List.filter_nil, State.dmaTaken]
  rfl

theorem exec_dmaCompletionTimeout_of_read (howner : d.owner < 8192) : exec (.dmaCompletionTimeout p d.tag) s =
    .next (((((((s.dmaTaken p).aerUnc p .cplTimeout []).inc F.HIF_PORT_CNT1.CPL_TMO p).raise
      F.HIF_PORT_STATUS.EVT_CPL_TMO p).dmaFailed d.owner csTIMEOUT).settleInval p)) := by
  change execDmaCompletionTimeout _ _ _ = _
  simp only [execDmaCompletionTimeout, State.dmaTimeout, hd, List.find?_cons, beq_self_eq_true, List.filter_cons, ne_eq,
    not_true_eq_false, decide_false, List.filter_nil, State.tagTimeout, Nat.not_le.mpr howner, if_false, State.dmaTaken]
  rfl

end

section
variable {s : State} {p : Nat} {q : Xlat} (hq : (s.port p).xlatReqs = [q])
include hq

theorem State.xlatCompletion_of_grant (hcache : (s.port p).cache = []) (howner : q.owner < 8192) {frame : Nat} {read write : Bool}
    (hread : read = true ∨ q.read = false) (hwrite : write = true ∨ q.write = false) :
    s.xlatCompletion p q.tag true frame read write =
      s.setPort p { s.port p with xlatReqs := [], cache := [Xlat.mk 0 0 q.pasid q.page frame read write] } := by
  have hread' : (read || !q.read) = true := by simpa using hread
  have hwrite' : (write || !q.write) = true := by simpa using hwrite
  simp only [State.xlatCompletion, hq, List.find?_cons, beq_self_eq_true, hread', hwrite', Bool.and_self, if_true, hcache,
    Nat.not_le.mpr howner, if_false, List.filter_cons, ne_eq, not_true_eq_false, decide_false, List.filter_nil, List.nil_append,
    List.length_singleton, Nat.reduceSub, List.drop_zero]
  rfl

theorem State.xlatCompletion_of_refusal (howner : q.owner < 8192) (frame : Nat) (read write : Bool) :
    s.xlatCompletion p q.tag false frame read write =
      (s.setPort p { s.port p with xlatReqs := [] }).dmaFailed q.owner csABORTED := by
  simp only [State.xlatCompletion, hq, List.find?_cons, beq_self_eq_true, Bool.false_and, Bool.false_eq_true,
    Nat.not_le.mpr howner, if_false, List.filter_cons, ne_eq, not_true_eq_false, decide_false, List.filter_nil]

end

theorem State.atsInvalidate_of_flr {s : State} {p : Nat} (h : (s.port p).flr = true) (itag pasid page count : Nat) :
    s.atsInvalidate p itag pasid page count = s.sendTlp p (.invalidateCpl itag) := if_pos h

theorem State.atsInvalidate_of_no_read {s : State} {p : Nat} (hflr : (s.port p).flr = false) (hdma : (s.port p).dma = [])
    (itag pasid page count : Nat) : s.atsInvalidate p itag pasid page count = (s.setPort p { s.port p with
      cache := (s.port p).cache.filter (fun e => !(e.pasid == some pasid && page ≤ e.page && e.page < page + count)),
      inval := (s.port p).inval ++ [(itag, [])] }).settleInval p := by
  simp only [State.atsInvalidate, hflr, Bool.false_eq_true, if_false, hdma, List.filter_nil, List.map_nil]

/-- Settles O43: the one outstanding read or request, its owner and the answer's status pick each branch. -/
theorem dmaAndTranslationsComplete : Obligations.DmaAndTranslationsComplete := by
  refine ⟨?completion, fun s p d hd howner => exec_dmaCompletionTimeout_of_read hd howner, ?translation, ?invalidation⟩
  case completion =>
    intro s p tag status ep data hlive hlink
    rw [exec_dmaCompletion_of_up hlive hlink]
    refine ⟨fun hnone => congrArg _ (State.dmaCompletion_of_no_read hnone ..), ?_, ?_⟩
    · rintro d _ hd htag howner rfl
      rw [State.dmaCompletion_of_read hd htag]
      refine ⟨?_, ?_⟩
      · rintro rfl rfl
        rw [if_neg (by simp)]
        dsimp only
        rw [if_neg (Nat.not_le.mpr howner)]
        rfl
      · rintro rfl
        rw [if_pos (by decide), if_neg (Nat.not_le.mpr howner)]
        rfl
    · rintro d _ hd htag howner rfl
      rw [State.dmaCompletion_of_read hd htag]
      refine ⟨?_, ?_⟩
      · rintro rfl rfl
        rw [if_neg (by simp)]
        dsimp only
        rw [if_pos howner]
        rfl
      · rintro rfl rfl
        rw [if_neg (by simp)]
        dsimp only
        rw [if_pos howner]
        rfl
  case translation =>
    intro s p frame read write q hlive hlink hq hcache howner
    rw [exec_translationCompletion_of_up hlive hlink, exec_translationCompletion_of_up hlive hlink]
    exact ⟨fun hread hwrite => congrArg _ (State.xlatCompletion_of_grant hq hcache howner hread hwrite),
      congrArg _ (State.xlatCompletion_of_refusal hq howner frame read write)⟩
  case invalidation =>
    intro s p itag pasid page count hlive hlink
    rw [exec_atsInvalidation_of_up hlive hlink]
    exact ⟨fun hflr => congrArg _ (State.atsInvalidate_of_flr hflr ..),
      fun hflr hdma => congrArg _ (State.atsInvalidate_of_no_read hflr hdma ..)⟩

end Sys2Proof.Machine
end

section
/-!
SUPPORT. The DOE mailbox and the SPDM responder: the one answer of each request in its stage.
-/

namespace Sys2Proof.Machine

/-! ## The mailbox (R376) and the stages of the responder (R451) -/

section
variable {s : State} {p : Nat} (hopen : s.doeOpen p = true)
include hopen

theorem exec_doeDiscovery_of_open_self : exec (.doeDiscovery p 0) s = .next (s.doeReply p 0 (natLE 2 1 ++ natLE 1 0 ++ natLE 1 1)) := by
  change execDoeDiscovery p 0 s = _
  simp only [execDoeDiscovery, hopen, if_true]

theorem exec_doeDiscovery_of_open_spdm : exec (.doeDiscovery p 1) s = .next (s.doeReply p 0 (natLE 2 1 ++ natLE 1 1 ++ natLE 1 0)) := by
  change execDoeDiscovery p 1 s = _
  simp only [execDoeDiscovery, hopen, if_true]

theorem exec_doeAbort_of_open : exec (.doeAbort p) s =
    .next (s.setPort p { s.port p with doe := { (s.port p).doe with inbox := [], outbox := [] } }) := by
  change execDoeAbort _ _ = _
  simp only [execDoeAbort, hopen, if_true]
  rfl

theorem exec_spdmUnsupportedRequest_of_open (code : Nat) :
    exec (.spdmUnsupportedRequest p code) s = .next (s.doeReply p 1 (spdmMsg 0x7F 0x07 code [])) := by
  change execSpdmUnsupportedRequest _ _ _ = _
  simp only [execSpdmUnsupportedRequest, hopen, if_true]
  rfl

/-- A request in its stage is answered in the stage it goes to. -/
theorem State.spdmAt_of_stage {n : Nat} (hstage : n ≤ (s.port p).doe.stage) (m : Nat) (f : State → State) :
    s.spdmAt p n m f = f (s.spdmStage p m) := by
  simp only [State.spdmAt, hopen, Bool.not_true, Bool.false_eq_true, if_false, Nat.not_lt.mpr hstage]

/-- A request before its stage is unexpected. -/
theorem State.spdmAt_of_early {n : Nat} (hstage : (s.port p).doe.stage < n) (m : Nat) (f : State → State) :
    s.spdmAt p n m f = s.doeReply p 1 (spdmMsg 0x7F 0x04 0 []) := by
  simp only [State.spdmAt, hopen, Bool.not_true, Bool.false_eq_true, if_false, hstage, if_true]
  rfl

end

/-- The free values of a CAPABILITIES answer. -/
def State.capabilityFree (s : State) : State := (((s.free 256).2.free (2 ^ 32)).2.free (2 ^ 32)).2

theorem State.capabilityFree_frame (s : State) : Frame false [.fresh] [] s s.capabilityFree :=
  (((Frame.refl s).free _ (by simp)).free _ (by simp)).free _ (by simp)

theorem exec_getCapabilities_of_stage {s : State} {p : Nat} (hopen : s.doeOpen p = true) (hstage : 1 ≤ (s.port p).doe.stage)
    (req : List (BitVec 8)) : ∃ ct size big, exec (.getCapabilities p req) s = .next ((s.spdmStage p 2).capabilityFree.spdmReply p req
      (spdmMsg 0x61 0 0 (natLE 1 0 ++ natLE 1 ct ++ natLE 2 0 ++ natLE 4 0x16 ++ natLE 4 size ++ natLE 4 big))) :=
  ⟨((s.spdmStage p 2).free 256).1, (((s.spdmStage p 2).free 256).2.free (2 ^ 32)).1,
    ((((s.spdmStage p 2).free 256).2.free (2 ^ 32)).2.free (2 ^ 32)).1,
    congrArg Host.Outcome.next (State.spdmAt_of_stage hopen hstage 2 _)⟩

/-! ## Requests of the last stage (R439, R451, R452) -/

section
variable {s : State} {p : Nat} (hopen : s.doeOpen p = true) (hstage : 3 ≤ (s.port p).doe.stage)
include hopen hstage

theorem exec_getCertificate_of_held {slot off : Nat} (hheld : (s.spdmStage p 3).slotHeld slot = true)
    (hoff : off < ((s.spdmStage p 3).certChain slot).length) (len : Nat) {part : List (BitVec 8)}
    (hpart : part = (((s.spdmStage p 3).certChain slot).drop off).take (min len 4000)) :
    exec (.getCertificate p slot off len) s = .next ((s.spdmStage p 3).spdmReply p
      (natLE 1 0x12 ++ natLE 1 0x82 ++ natLE 1 slot ++ natLE 1 0 ++ natLE 2 off ++ natLE 2 len)
      (spdmMsg 0x02 slot 0 (natLE 2 part.length ++ natLE 2 (((s.spdmStage p 3).certChain slot).length - off - part.length) ++ part))) := by
  subst hpart
  change execGetCertificate _ _ _ _ _ = _
  simp only [execGetCertificate, State.spdmAt_of_stage hopen hstage, hheld, Nat.not_le.mpr hoff, Bool.not_true, decide_false,
    Bool.or_self, Bool.false_eq_true, if_false]

theorem exec_challenge_of_held {slot : Nat} {nonce mine : List (BitVec 8)} {v : State} (hheld : (s.spdmStage p 3).slotHeld slot = true)
    (hnonce : nonce.length = 32) (hfresh : (s.spdmStage p 3).freshNonce = (mine, v)) {req body : List (BitVec 8)}
    (hreq : req = natLE 1 0x12 ++ natLE 1 0x83 ++ natLE 1 slot ++ natLE 1 0 ++ nonce)
    (hbody : body = spdmMsg 0x03 slot v.slotMask (Config.sm3 (v.certChain slot) ++ mine ++ natLE 2 0)) :
    exec (.challenge p slot nonce) s = .next (v.spdmReply p req (body ++
      v.spdmSign "responder-challenge_auth signing" ((v.port p).doe.transcript ++ req ++ body))) := by
  subst hreq hbody
  change execChallenge _ _ _ _ = _
  simp only [execChallenge, State.spdmAt_of_stage hopen hstage, hheld, hnonce, hfresh, Bool.not_true, ne_eq, not_true_eq_false,
    decide_false, Bool.or_self, Bool.false_eq_true, if_false]

theorem exec_getMeasurements_of_unsigned {index : Nat} (hindex : index ≤ 22) {ks : List Nat}
    (hks : ks = if index = 0 then [] else [index]) {blocks mine : List (BitVec 8)} {v w : State}
    (hmeas : (s.spdmStage p 3).measBlocks ks = (blocks, v)) (hfresh : v.freshNonce = (mine, w)) :
    exec (.getMeasurements p index 0 false []) s = .next (w.spdmReply p (natLE 1 0x12 ++ natLE 1 0xE0 ++ natLE 1 0 ++ natLE 1 index)
      (spdmMsg 0x60 (if index = 0 then 22 else 0) 0 (natLE 1 ks.length ++ natLE 3 blocks.length ++ blocks ++ mine ++ natLE 2 0))) := by
  have hnot : index ≠ 0xFF := by omega
  subst hks
  change execGetMeasurements _ _ _ _ _ _ = _
  simp only [execGetMeasurements, State.spdmAt_of_stage hopen hstage, Nat.not_lt.mpr hindex, hnot, if_false, hmeas, hfresh]
  simp [b2n]

end

/-- Settles O44: an open mailbox and the responder's stage leave each request one answer. -/
theorem mailboxAndSpdmAnswer : Obligations.MailboxAndSpdmAnswer := by
  refine ⟨fun s p type body pad hpad => by rw [hpad]; rfl, ?_, ?_, ?_, ?_, ?_⟩
  · intro s p hopen
    exact ⟨exec_doeDiscovery_of_open_self hopen, exec_doeDiscovery_of_open_spdm hopen, exec_doeAbort_of_open hopen,
      exec_spdmUnsupportedRequest_of_open hopen, _, rfl, congrArg _ (State.spdmAt_of_stage hopen (Nat.zero_le _) 1 _)⟩
  · intro s p req hopen hstage
    obtain ⟨ct, size, big, hexec⟩ := exec_getCapabilities_of_stage hopen hstage req
    exact ⟨ct, size, big, _, (s.spdmStage p 2).capabilityFree, hexec, (s.spdmStage p 2).capabilityFree_frame, rfl⟩
  · intro s p req hopen hstage
    exact congrArg _ (State.spdmAt_of_stage hopen hstage 3 _)
  · intro s p hopen hearly
    exact congrArg _ (State.spdmAt_of_early hopen hearly 3 _)
  · rintro s _ p hopen hstage rfl
    exact ⟨congrArg _ (State.spdmAt_of_stage hopen hstage 3 _),
      fun slot off len part hheld hoff hpart => exec_getCertificate_of_held hopen hstage hheld hoff len hpart,
      fun slot nonce mine v req body hheld hnonce hfresh hreq hbody =>
        exec_challenge_of_held hopen hstage hheld hnonce hfresh hreq hbody,
      fun index ks blocks v mine w hindex hks hmeas hfresh => exec_getMeasurements_of_unsigned hopen hstage hindex hks hmeas hfresh⟩

end Sys2Proof.Machine
end

section
/-!
SUPPORT. Rings: what an enabled ring, a doorbell, a fetched descriptor and a due completion become.
-/

namespace Sys2Proof.Machine

/-! ## Configuration of a ring (R390, R403, R405) -/

section
variable {s : State} {src : Src} {r v : Nat}

theorem exec_ringEnable_of_takes (hmgr : s.isManager src = true) (hr : r < 8192) (h : s.takesWrite src .HIF_RING_CFG r = true) (v : Nat) :
    exec (.ringEnable src r v) s = .next (s.ringCfg r v) := by
  change execRingEnable _ _ _ _ = _
  simp only [execRingEnable, hmgr, hr, decide_true, Bool.and_self, if_true]
  rw [State.withReg_of_takes h]

theorem exec_ringResume_of_takes (hmgr : s.isManager src = true) (hr : r < 8192) (h : s.takesWrite src .HIF_RING_CFG r = true) :
    exec (.ringResume src r) s = .next (s.ringResume r) := by
  change execRingResume _ _ _ = _
  simp only [execRingResume, hmgr, hr, decide_true, Bool.and_self, if_true]
  rw [State.withReg_of_takes h]

/-- The fields of a ring that is disabled take the data of a write. -/
def State.ringSet (s : State) (r v : Nat) : State :=
  ((((s.wr F.HIF_RING_CFG.PORT r (bits v 1 1)).wr F.HIF_RING_CFG.SQ_LOG r (bits v 3 5)).wr F.HIF_RING_CFG.CQ_LOG r
    (bits v 8 5)).wr F.HIF_RING_CFG.DBI r (bits v 32 9)).ringOwner r (bits v 16 8)

/-- A ring that starts: a new epoch, and both queues empty. -/
def State.ringStart (s : State) (r : Nat) : State :=
  (((((s.wr F.HIF_RING_CFG.EN r 1).bump F.HIF_RING_CFG.ROLE_EPOCH r).wr F.HIF_RING_IDX.SQ_PI r 0).wr F.HIF_RING_IDX.SQ_CI r
    0).wr F.HIF_RING_IDX.CQ_PI r 0).wr F.HIF_RING_IDX.CQ_CI r 0

theorem State.ringCfg_of_enable (hoff : s.is F.HIF_RING_CFG.EN r = false) (hen : v.testBit 0 = true) : s.ringCfg r v =
    if (s.ringSet r v).ringValid r then (((s.ringSet r v).ringStart r).setRing r Ring.init).ringGo r rsRUNNING
    else s.raise F.HIF_RING_STATUS.EVT_REFUSED := by
  by_cases hvalid : (s.ringSet r v).ringValid r = true
  · rw [if_pos hvalid]
    simp only [State.ringSet] at hvalid
    simp only [State.ringCfg, State.ringSet, State.ringStart, hoff, hen, hvalid, Bool.not_true, Bool.false_eq_true, if_false, if_true]
  · rw [if_neg hvalid]
    simp only [State.ringSet, Bool.not_eq_true] at hvalid
    simp only [State.ringCfg, hoff, hen, hvalid, Bool.not_true, Bool.not_false, Bool.false_eq_true, if_false, if_true]

theorem State.ringCfg_of_disable (hon : s.is F.HIF_RING_CFG.EN r = true) (hen : v.testBit 0 = false) :
    s.ringCfg r v = s.ringDisable r := by
  simp only [State.ringCfg, hon, hen, if_true, Bool.false_eq_true, if_false]

theorem State.ringResume_of_halted (hhalted : s.ringState r = rsHALTED) (hport : (s.port (s.ringPort r)).internalErr = false)
    (hheld : (s.ring r).held = none) : s.ringResume r = (s.setRing r (s.ring r)).ringGo r rsRUNNING := by
  simp only [State.ringResume, hhalted, hport, hheld]
  rfl

end

/-! ## Doorbells (R391 to R396) -/

section
variable {s : State} {r v : Nat} (hlive : s.ringLive = true) (hheld : s.held = false) (hr : r < 8192)
include hlive hheld hr

/-- A doorbell of the secure world, which acts for slice 0. -/
theorem State.doorbell_secure (cq : Bool) : s.doorbell (.window .secure r) cq v = (s.dbServed 2).ringDoorbell r cq v := by
  simp only [State.doorbell, hlive, hheld, hr, Bool.not_true, Bool.or_self, Bool.false_eq_true, if_false, if_true]
  rfl

theorem exec_sqDoorbell_secure : exec (.sqDoorbell (.window .secure r) v) s = .next ((s.dbServed 2).ringDoorbell r false v) :=
  congrArg Host.Outcome.next (State.doorbell_secure hlive hheld hr false)

theorem exec_cqDoorbell_secure : exec (.cqDoorbell (.window .secure r) v) s = .next ((s.dbServed 2).ringDoorbell r true v) :=
  congrArg Host.Outcome.next (State.doorbell_secure hlive hheld hr true)

end

section
variable {s : State} {r v : Nat}

theorem State.ringDoorbell_of_stale (h : v / 65536 % 65536 ≠ s.rd F.HIF_RING_CFG.ROLE_EPOCH r) (cq : Bool) :
    s.ringDoorbell r cq v = (s.inc F.HIF_RING_ST.STALE r).inc F.HIF_RING_CNT0.STALE_DB := if_pos h

variable (hepoch : v / 65536 % 65536 = s.rd F.HIF_RING_CFG.ROLE_EPOCH r) (hrun : s.ringState r = rsRUNNING)
include hepoch hrun

theorem State.ringDoorbell_sq_of_window (hnew : v % 65536 < s.sqSize r)
    (hwin : (s.rd F.HIF_RING_IDX.SQ_PI r + s.sqSize r - s.rd F.HIF_RING_IDX.SQ_CI r) % s.sqSize r ≤
      (v % 65536 + s.sqSize r - s.rd F.HIF_RING_IDX.SQ_CI r) % s.sqSize r) :
    s.ringDoorbell r false v = s.wr F.HIF_RING_IDX.SQ_PI r (v % 65536) := by
  simp [State.ringDoorbell, hepoch, hrun, Nat.not_le.mpr hnew, Nat.not_lt.mpr hwin]

theorem State.ringDoorbell_cq_of_window (hnew : v % 65536 < s.cqSize r)
    (hwin : (v % 65536 + s.cqSize r - s.rd F.HIF_RING_IDX.CQ_CI r) % s.cqSize r ≤
      (s.rd F.HIF_RING_IDX.CQ_PI r + s.cqSize r - s.rd F.HIF_RING_IDX.CQ_CI r) % s.cqSize r) :
    s.ringDoorbell r true v = s.wr F.HIF_RING_IDX.CQ_CI r (v % 65536) := by
  simp [State.ringDoorbell, hepoch, hrun, Nat.not_le.mpr hnew, Nat.not_lt.mpr hwin]

end

/-! ## Fetch and completion (R397, R400 to R402) -/

theorem exec_descriptorFetch_of_running {s : State} {r : Nat} (hlive : s.ringLive = true) (hen : s.is F.HIF_RING_CFG.EN r = true)
    (hrun : s.ringState r = rsRUNNING) :
    exec (.descriptorFetch r) s = .next (((List.range 8).foldl (fun s _ => s.fetchOne r) s).startNext r) := by
  change execDescriptorFetch _ _ = _
  simp only [execDescriptorFetch, State.descFetch, hlive, hen, hrun, Bool.not_true, Bool.or_self, ne_eq,
    not_true_eq_false, decide_false, Bool.false_eq_true, if_false]

theorem State.fetchOne_of_read {s u : State} {r : Nat} {d : List (BitVec 8)} (hrun : s.ringState r = rsRUNNING)
    (hmore : s.rd F.HIF_RING_IDX.SQ_CI r ≠ s.rd F.HIF_RING_IDX.SQ_PI r) (hroom : (s.ring r).prefetch.length < 8)
    (hread : s.cmdRead r 5 (s.sqBase r + 64 * s.rd F.HIF_RING_IDX.SQ_CI r) 64 = (.data d [], u)) :
    s.fetchOne r = (u.setRing r { u.ring r with
      prefetch := (u.ring r).prefetch ++ [RingCmd.mk (s.rd F.HIF_RING_IDX.SQ_CI r) d none none false]
      buf := (u.ring r).buf.filter (fun b => b.addr ≠ u.sqBase r + 64 * s.rd F.HIF_RING_IDX.SQ_CI r) }).wr F.HIF_RING_IDX.SQ_CI r
        ((s.rd F.HIF_RING_IDX.SQ_CI r + 1) % u.sqSize r) := by
  simp only [State.fetchOne, hrun, hmore, Nat.not_le.mpr hroom, hread]
  rfl

/-- The completion ring after an entry is written, and its count. -/
def State.completionCounted (s : State) (r : Nat) : State := (s.cqAdvance r).inc F.HIF_RING_CNT1.COMPLETIONS

theorem exec_completionWrite_of_due {s u : State} {r st r0 r1 r2 : Nat} {c : RingCmd} (hlive : s.ringLive = true)
    (hen : s.is F.HIF_RING_CFG.EN r = true) (hroom : s.cqRoom r = true) (hcur : (s.ring r).cur = some c)
    (hdone : c.done = some (st, r0, r1, r2)) (hhalt : c.halt = none)
    (hwrite : s.cmdWrite r 5 (s.cqBase r + 32 * s.rd F.HIF_RING_IDX.CQ_PI r)
      (cplBytes c.slot st (s.ring r).phase false (dget c.desc 4 4) r0 r1 r2) = (.done, u)) :
    exec (.completionWrite r) s = .next (if (u.completionCounted r).signalDue r ((byteAt c.desc 1).testBit 0) false
      then (u.completionCounted r).ringSignal r else u.completionCounted r) := by
  change execCompletionWrite _ _ = _
  simp only [execCompletionWrite, State.completion, hlive, hen, hroom, hcur, hdone, hhalt, Option.isSome_none, hwrite]
  rfl

theorem exec_irqModTimeout_of_pending {s : State} {r : Nat} (hlive : s.ringLive = true) (hpend : (s.ring r).pend ≠ 0)
    (htime : s.rd F.HIF_RING_IRQ.MOD_TIME r ≠ 0) (hen : s.is F.HIF_RING_IRQ.IRQ_EN r = true) :
    exec (.irqModTimeout r) s = .next (s.ringSignal r) := by
  change execIrqModTimeout _ _ = _
  simp [execIrqModTimeout, hlive, hpend, htime, hen]

/-! ## NOP and DMA_COPY (R410, R412) -/

theorem exec_nop_of_cmd {s : State} {r : Nat} (h : s.hasCmd r 0x00 = true) : exec (.nop r) s = .next (s.finish r csOK) := by
  change execNop _ _ = _
  simp only [execNop, h, if_true]

theorem exec_dmaCopy_of_cmd {s : State} {r : Nat} (h : s.hasCmd r 0x42 = true) : exec (.dmaCopy r) s = .next (s.dmaCopy r) := by
  change execDmaCopy _ _ = _
  simp only [execDmaCopy, h, if_true]

theorem State.dmaCopy_of_no_bytes {s : State} {r : Nat} (h : dget (s.desc r) 24 4 = 0) : s.dmaCopy r = s.finish r csINVALID := if_pos h

/-- A copy whose ranges are allowed whole, and whose source holds no poison, writes every byte. -/
theorem State.dmaCopy_of_whole {s u v : State} {r src dst len : Nat} {b : List (BitVec 8)} (hsrc : src = dget (s.desc r) 8 8)
    (hdst : dst = dget (s.desc r) 16 8) (hlen : len = dget (s.desc r) 24 4) (hne : len ≠ 0)
    (hrs : s.rangeOk (s.ringSlice r) src len = true) (hrd : s.rangeOk (s.ringSlice r) dst len = true)
    (has : s.allowedPrefix src len = (len, .none)) (had : s.allowedPrefix dst len = (len, .none))
    (hread : s.cmdRead r 5 src len = (.data b [], u)) (hwrite : u.cmdWrite r 5 dst (b.take len) = (.done, v)) :
    s.dmaCopy r = v.finish r csOK len := by
  subst hsrc hdst hlen
  simp [State.dmaCopy, hne, hrs, hrd, has, had, hread, cleanPrefix, hwrite, Denial.status]

/-- Settles O45: the ring's state, the doorbell's checks and the answers of memory pick the one branch of each command. -/
theorem ringsFetchRunAndComplete : Obligations.RingsFetchRunAndComplete := by
  refine ⟨?enable, ?disable, ?doorbell, ?stale, fun s r hlive hen hrun => exec_descriptorFetch_of_running hlive hen hrun, ?fetch,
    ?complete, ?moderate, fun s r h => exec_nop_of_cmd h, ?copy⟩
  case enable =>
    rintro s _ _ src r v hmgr hr htakes hoff hen rfl rfl
    rw [exec_ringEnable_of_takes hmgr hr htakes, State.ringCfg_of_enable hoff hen]
    exact ⟨fun hvalid => congrArg _ (if_pos hvalid), fun hvalid => congrArg _ (if_neg (ne_true_of_eq_false hvalid))⟩
  case disable =>
    intro s src r v hmgr hr htakes
    refine ⟨fun hon hen => ?_, fun hhalted hport hheld => ?_⟩
    · rw [exec_ringEnable_of_takes hmgr hr htakes, State.ringCfg_of_disable hon hen]
      rfl
    · rw [exec_ringResume_of_takes hmgr hr htakes, State.ringResume_of_halted hhalted hport hheld]
  case doorbell =>
    intro s r v hlive hheld hr hepoch hrun
    rw [exec_sqDoorbell_secure hlive hheld hr, exec_cqDoorbell_secure hlive hheld hr]
    exact ⟨fun hnew hwin => congrArg _ (State.ringDoorbell_sq_of_window (s := s.dbServed 2) hepoch hrun hnew hwin),
      fun hnew hwin => congrArg _ (State.ringDoorbell_cq_of_window (s := s.dbServed 2) hepoch hrun hnew hwin)⟩
  case stale =>
    intro s r v hlive hheld hr hepoch
    rw [exec_sqDoorbell_secure hlive hheld hr]
    exact congrArg _ (State.ringDoorbell_of_stale (s := s.dbServed 2) hepoch false)
  case fetch =>
    rintro s u r _ d hrun rfl hmore hroom hread
    exact State.fetchOne_of_read hrun hmore hroom hread
  case complete =>
    intro s u r st r0 r1 r2 c hlive hen hroom hcur hdone hhalt hwrite
    rw [exec_completionWrite_of_due hlive hen hroom hcur hdone hhalt hwrite]
    exact ⟨fun hquiet => congrArg _ (if_neg (ne_true_of_eq_false hquiet)), fun hdue => congrArg _ (if_pos hdue)⟩
  case moderate =>
    intro s r hlive hpend htime hen
    rw [exec_irqModTimeout_of_pending hlive hpend htime hen]
    rfl
  case copy =>
    intro s u v r src dst len b hcmd hsrc hdst hlen
    rw [exec_dmaCopy_of_cmd hcmd]
    exact ⟨fun hzero => congrArg _ (State.dmaCopy_of_no_bytes (hlen ▸ hzero)), fun hne hrs hrd has had hread hwrite =>
      congrArg _ (State.dmaCopy_of_whole hsrc hdst hlen hne hrs hrd has had hread hwrite)⟩

end Sys2Proof.Machine
end

section
/-!
SUPPORT. Commands on slices and the spoof log: the branch that the name, its epoch and the command in transit pick.
-/

namespace Sys2Proof.Machine

/-! ## Commands on slices, with no slice command in transit (R395, R419) -/

section
variable {s : State} {r : Nat} (hadmin : s.hif.admin = none) (hheld : s.held = false)
include hadmin hheld

theorem State.adminCmd_of_idle {op : Nat} (hcmd : s.hasCmd r op = true) (f : State → State) : s.adminCmd r op f = f s := by
  simp [State.adminCmd, hcmd, hadmin, hheld]

theorem exec_sliceCreate_of_idle (hcmd : s.hasCmd r 0x01 = true) : exec (.sliceCreate r) s = .next (s.sliceCreate r) :=
  congrArg Host.Outcome.next (State.adminCmd_of_idle hadmin hheld hcmd _)

theorem exec_sliceReset_of_idle (hcmd : s.hasCmd r 0x04 = true) :
    exec (.sliceReset r) s = .next (s.sliceNamed r false (fun sl s => s.sliceReset r sl)) :=
  congrArg Host.Outcome.next (State.adminCmd_of_idle hadmin hheld hcmd _)

theorem exec_sliceDestroy_of_idle (hcmd : s.hasCmd r 0x02 = true) :
    exec (.sliceDestroy r) s = .next (s.sliceNamed r false (fun sl s => s.sliceDestroy r sl)) :=
  congrArg Host.Outcome.next (State.adminCmd_of_idle hadmin hheld hcmd _)

theorem exec_sliceQuota_of_idle (hcmd : s.hasCmd r 0x03 = true) :
    exec (.sliceQuota r) s = .next (s.sliceNamed r true (fun sl s => s.sliceQuota r sl)) :=
  congrArg Host.Outcome.next (State.adminCmd_of_idle hadmin hheld hcmd _)

end

section
variable {s : State} {r : Nat} (f : Nat → State → State)

theorem State.sliceNamed_of_stale (h : dget (s.desc r) 10 2 ≠ s.sliceEpoch (dget (s.desc r) 8 1)) (zero : Bool) :
    s.sliceNamed r zero f = s.finish r csSTALE := if_pos h

variable (hepoch : dget (s.desc r) 10 2 = s.sliceEpoch (dget (s.desc r) 8 1))
include hepoch

theorem State.sliceNamed_of_slice_zero (h : dget (s.desc r) 8 1 = 0) : s.sliceNamed r false f = s.finish r csINVALID := by
  simp only [State.sliceNamed, hepoch, h, ne_eq, not_true_eq_false, if_false, decide_true, Bool.not_false, Bool.and_self, Bool.or_true,
    if_true]

theorem State.sliceNamed_of_live (hlive : s.sliceState (dget (s.desc r) 8 1) ≠ slFREE) {zero : Bool}
    (hsl : dget (s.desc r) 8 1 ≠ 0 ∨ zero = true) : s.sliceNamed r zero f = f (dget (s.desc r) 8 1) s := by
  have hok : (Decidable.decide (dget (s.desc r) 8 1 = 0) && !zero) = false := by
    obtain h | h := hsl <;> simp [h]
  simp only [State.sliceNamed, hepoch, hlive, ne_eq, not_true_eq_false, if_false, hok, decide_false, Bool.or_self, Bool.false_eq_true]

end

/-! ## Creation and destruction (R421 to R423) -/

/-- A specification that passes every check of R421 makes the slice. -/
theorem State.sliceCreate_of_good {s u : State} {r sl port pasid len : Nat} {b : List (BitVec 8)} (hsl : sl = dget (s.desc r) 8 1)
    (hport : port = dget (s.desc r) 9 1) (hpasid : pasid = dget (s.desc r) 12 4) (hlen : len = dget (s.desc r) 24 4)
    (hread : s.cmdRead r 5 (dget (s.desc r) 16 8) len = (.data b [], u)) (hne : sl ≠ 0) (hports : port ≤ 1) (hpne : pasid ≠ 0)
    (htaken : u.pasidTaken port pasid sl = false) (hspec : specGood b len = true) (hdisjoint : disjoint (specEntries b) = true)
    (hallowed : (specEntries b).all (u.entryAllowed port) = true) (hchans : ((specEntries b).filter (·.kind == 4)).length ≤ 16)
    (hfree : u.sliceState sl = slFREE) (hidle : (specEntries b).all u.entryIdle = true)
    (hown : (specEntries b).all (u.entryFree port) = true) :
    s.sliceCreate r = (u.sliceMake sl port pasid b).finish r csOK ((u.sliceMake sl port pasid b).sliceEpoch sl) := by
  subst hsl hport hpasid hlen
  simp only [State.sliceCreate, hread, List.isEmpty_nil, hne, Nat.not_lt.mpr hports, hpne, htaken, hspec, hdisjoint, hallowed,
    Nat.not_lt.mpr hchans, hfree, hidle, hown, Bool.not_true, decide_false, Bool.or_self, Bool.false_eq_true, if_false, ne_eq,
    not_true_eq_false]

theorem State.zeroing_nil_eq_self {s : State} (h : s.mem.zeroing = []) : { s with mem := { s.mem with zeroing := [] } } = s := by
  rw [← h]

section
variable {s : State} (hlive : s.ringLive = true) (hheld : s.held = false) {r sl : Nat}
include hlive hheld

theorem exec_sliceResetDone_of_transit (hadmin : s.hif.admin = some (.reset r sl)) : exec .sliceResetDone s = .next
    (((((((((s.resetStores sl).resetUse sl).startCores sl).wr F.HIF_SLICE_CFG.STATE sl slACTIVE).bump F.HIF_SLICE_CFG.ROLE_EPOCH sl).inc
      F.HIF_SLICE_CNT.RESETS sl).raise F.HIF_SLICE_STATUS.EVT_RESET_DONE sl).adminEnd r 0x04 sl)) := by
  change execSliceResetDone _ = _
  simp only [execSliceResetDone, hlive, hheld, Bool.not_false, Bool.and_self, if_true, State.sliceResetDone, hadmin]

/-- Destruction ends once no plate is left to zero. -/
theorem exec_sliceDestroyDone_of_zeroed (hadmin : s.hif.admin = some (.destroy r sl)) (hzero : s.mem.zeroing = []) :
    exec .sliceDestroyDone s = .next ((((((s.wr F.HIF_SLICE_CFG.STATE sl slFREE).bump F.HIF_SLICE_CFG.ROLE_EPOCH sl).wr
      F.HIF_SLICE_CFG.PORT sl 0).wr F.HIF_SLICE_CFG.PASID sl 0).adminEnd r 0x02 sl)) := by
  change execSliceDestroyDone _ = _
  simp only [execSliceDestroyDone, hlive, hheld, Bool.not_false, Bool.and_self, if_true, State.sliceDestroyDone, hadmin, hzero,
    List.foldl_nil]
  rw [State.zeroing_nil_eq_self hzero]

end

/-! ## Quotas (R424) -/

section
variable {s : State} {r sl : Nat}

theorem State.sliceQuota_groups (hkind : dget (s.desc r) 9 1 = 1) (hv : dget (s.desc r) 16 8 ≤ 4096) :
    s.sliceQuota r sl = (s.grpLimit sl (dget (s.desc r) 16 8)).finish r csOK := by
  simp only [State.sliceQuota, hkind, if_pos hv]

theorem State.sliceQuota_share (hkind : dget (s.desc r) 9 1 = 2) (hv : dget (s.desc r) 16 8 ≤ 16) :
    s.sliceQuota r sl = (s.stpShare sl (dget (s.desc r) 16 8)).finish r csOK := by
  simp only [State.sliceQuota, hkind, if_pos hv]

theorem State.sliceQuota_share_too_large (hkind : dget (s.desc r) 9 1 = 2) (hv : 16 < dget (s.desc r) 16 8) :
    s.sliceQuota r sl = s.finish r csINVALID := by
  simp only [State.sliceQuota, hkind, if_neg (Nat.not_le.mpr hv)]

end

/-! ## The spoof log (R428, R436) -/

theorem exec_spoofLogRead_of_takes {s : State} {src : Src} (h : s.takesRead src .HIF_SPOOF_LOG = true) :
    exec (.spoofLogRead src) s = .next (State.spoofRead { s with rdata := 0 }) :=
  congrArg Host.Outcome.next (State.withRead_of_takes (s := { s with rdata := 0 }) h)

theorem State.spoofRead_of_empty {s : State} (h : s.hif.spoofLog = []) : s.spoofRead = { s with rdata := 0 } := by
  simp only [State.spoofRead, h]

theorem State.spoofRead_of_entry {s : State} {x : Nat} {l : List Nat} (h : s.hif.spoofLog = x :: l) :
    s.spoofRead = { s with rdata := x, hif := { s.hif with spoofLog := l } } := by
  simp only [State.spoofRead, h]

/-- Settles O46: the checks that pass, the name and its epoch, and the command in transit pick each branch. -/
theorem slicesAreMadeAndUnmade : Obligations.SlicesAreMadeAndUnmade := by
  refine ⟨?create, ?named, ?ends, ?spoof⟩
  case create =>
    rintro s u r sl port pasid len b _ hcmd hadmin hheld hsl hport hpasid hlen hread rfl hne hports hpne htaken hspec hdisjoint
      hallowed hchans hfree hidle hown
    rw [exec_sliceCreate_of_idle hadmin hheld hcmd, State.sliceCreate_of_good hsl hport hpasid hlen hread hne hports hpne htaken hspec
      hdisjoint hallowed hchans hfree hidle hown]
  case named =>
    rintro s r op _ hcmd hadmin hheld rfl
    refine ⟨?_, ?_, fun hepoch hlive hne => ⟨?_, ?_⟩, ?_⟩
    · rintro rfl hstale
      rw [exec_sliceReset_of_idle hadmin hheld hcmd, State.sliceNamed_of_stale _ hstale]
    · rintro rfl hepoch hzero
      rw [exec_sliceDestroy_of_idle hadmin hheld hcmd, State.sliceNamed_of_slice_zero _ hepoch hzero]
    · rintro rfl
      exact ⟨_, rfl, (exec_sliceReset_of_idle hadmin hheld hcmd).trans
        (congrArg _ (State.sliceNamed_of_live _ hepoch hlive (Or.inl hne)))⟩
    · rintro rfl
      exact ⟨_, _, rfl, rfl, (exec_sliceDestroy_of_idle hadmin hheld hcmd).trans
        (congrArg _ (State.sliceNamed_of_live _ hepoch hlive (Or.inl hne)))⟩
    · rintro rfl hepoch hlive
      rw [exec_sliceQuota_of_idle hadmin hheld hcmd, State.sliceNamed_of_live _ hepoch hlive (Or.inr rfl)]
      exact ⟨fun hkind hv => congrArg _ (State.sliceQuota_groups hkind hv), fun hkind hv => congrArg _ (State.sliceQuota_share hkind hv),
        fun hkind hv => congrArg _ (State.sliceQuota_share_too_large hkind hv)⟩
  case ends =>
    intro s u r sl hlive hheld
    refine ⟨fun hadmin hu => ?_, fun hadmin hzero => exec_sliceDestroyDone_of_zeroed hlive hheld hadmin hzero⟩
    rw [hu]
    exact exec_sliceResetDone_of_transit hlive hheld hadmin
  case spoof =>
    intro s src htakes
    rw [exec_spoofLogRead_of_takes htakes]
    exact ⟨fun hempty => congrArg _ (State.spoofRead_of_empty hempty), fun x l hlog => congrArg _ (State.spoofRead_of_entry hlog)⟩

end Sys2Proof.Machine
end

section
/-!
SUPPORT. The boot chain: the boot ROM, the verification of an image, its entry and release, and the commands FW_WRITE and WARM_RESET.
-/

namespace Sys2Proof.Machine

/-! ## The boot ROM and an image's verification (R441, R447) -/

theorem exec_bootRomStart_of_settled {s : State} (hheld : s.held = false) (hstart : s.boot.started = false)
    (hclk : s.is F.CKR_STATUS.ROOT_LOCK = true ∨ s.is F.CKR_STATUS.FAIL_CAUSE = true) : exec .bootRomStart s = .next s.bootRom := by
  have hclk' : (s.is F.CKR_STATUS.ROOT_LOCK || s.is F.CKR_STATUS.FAIL_CAUSE) = true := Bool.or_eq_true_iff.mpr hclk
  change execBootRomStart _ = _
  simp only [execBootRomStart, hheld, hstart, hclk', Bool.not_true, Bool.or_self, Bool.false_eq_true, if_false]

/-- What the boot ROM does before it turns the first domains on. -/
def State.bootFound (s : State) : State :=
  let s := { s with boot := { s.boot with started := true, kind := 1 } }
  let s := s.when (s.rd F.CKR_RESET.CAUSE == 3) (·.note 7 0 0)
  s.findDimms

/-- What the boot ROM does once the enrolment slot is applied: the signature requirement and the source of the images. -/
def State.bootSource (s : State) : State :=
  let s := (s.wr F.ALN_CFG.REQ_SIG 0 (b2n s.secRecord.reqSig))
  let s := { s with aln := { s.aln with reqSigLoaded := true } }
  let push := s.is F.GLB_PROFILE.BOOT_SRC && !s.fuses.hostPushOff
  ({ s with boot := { s.boot with waitPush := push } }).wr F.SEC_BOOT_STATUS.SOURCE 0 (b2n push)

theorem State.bootRom_eq (s : State) : s.bootRom =
    ((s.bootFound.bootOn (s.bootFound.bootDomains3 ++ bootDomains4)).alnAutoTrain.profileSelect.profileCkr).enrol.bootSource := by
  unfold State.bootRom
  extract_lets _ started noted found on profiled enrolled
  change _ = enrolled.bootSource
  clear_value enrolled
  rfl

theorem State.bootFound_eq (s : State) : s.bootFound =
    (State.when { s with boot := { s.boot with started := true, kind := 1 } } (s.rd F.CKR_RESET.CAUSE == 3)
      (·.note 7 0 0)).findDimms := rfl

theorem State.bootSource_eq {s c : State} (hc : c = s.wr F.ALN_CFG.REQ_SIG 0 (b2n s.secRecord.reqSig)) : s.bootSource = State.wr { c with
      aln := { c.aln with reqSigLoaded := true }
      boot := { c.boot with waitPush := c.is F.GLB_PROFILE.BOOT_SRC && !c.fuses.hostPushOff } } F.SEC_BOOT_STATUS.SOURCE 0
    (b2n (c.is F.GLB_PROFILE.BOOT_SRC && !c.fuses.hostPushOff)) := by
  rw [State.bootSource, ← hc]
  rfl

theorem State.imgVerify_of_good {s : State} {kind : Nat} {img : List (BitVec 8)} (h : s.imgCause kind img = 0) :
    s.imgVerify kind img = (true, s) := if_pos h

theorem State.imgVerify_of_bad {s : State} {kind : Nat} {img : List (BitVec 8)} (h : s.imgCause kind img ≠ 0) :
    s.imgVerify kind img = (false, s.imgRejected kind (s.imgCause kind img)) := if_neg h

section
variable {s u : State} (hruns : s.chainRuns = true) (hwait : s.boot.waitPush = false)
include hruns hwait

theorem exec_stageImageVerify_of_chain : exec .stageImageVerify s = .next s.stageVerify := by
  change execStageImageVerify _ = _
  simp only [execStageImageVerify, hruns, hwait, Bool.not_false, Bool.and_self, if_true]

theorem exec_stageImageVerify_of_slot {x : Nat} (h : s.selectSlot s.boot.kind = (some x, u)) :
    exec .stageImageVerify s = .next (u.enterStage s.boot.kind (u.norImage x) (some x)) := by
  simp only [exec_stageImageVerify_of_chain hruns hwait, State.stageVerify, h]

theorem exec_stageImageVerify_of_no_slot (h : s.selectSlot s.boot.kind = (none, u)) :
    exec .stageImageVerify s = .next (u.recovery s.boot.kind) := by
  simp only [exec_stageImageVerify_of_chain hruns hwait, State.stageVerify, h]

end

/-! ## Host push (R448) -/

/-- The image being pushed once a transfer's bytes that lie inside it have arrived. -/
def pushAfter (old : Tbl Nat (BitVec 8)) (off total : Nat) (data : List (BitVec 8)) : Tbl Nat (BitVec 8) :=
  (data.zipIdx.filter (fun b => off + b.2 < total)).foldl (fun t b => Tbl.put t (off + b.2) b.1) old

/-- The bytes of a whole image. -/
def pushedImage (push : Tbl Nat (BitVec 8)) (total : Nat) : List (BitVec 8) :=
  (List.range total).map (fun k => (Tbl.find push k).getD 0)

theorem exec_pushTransfer_of_wait {s : State} {data : List (BitVec 8)} (hruns : s.chainRuns = true) (hwait : s.boot.waitPush = true)
    (hne : data ≠ []) (hlen : data.length ≤ 4096) (off total : Nat) :
    exec (.pushTransfer off total data) s = .next (s.pushTransfer off total data) := by
  have hempty : data.isEmpty = false := List.isEmpty_eq_false_iff.mpr hne
  change execPushTransfer _ _ _ _ = _
  simp only [execPushTransfer, hruns, hwait, hempty, hlen, Bool.not_false, Bool.and_self, decide_true, if_true]

section
variable {s : State} {total : Nat} (hlen : s.boot.pushLen = total) (off : Nat) (data : List (BitVec 8))
include hlen

theorem State.pushTransfer_of_partial (hpart : pushWhole (pushAfter s.boot.push off total data) total = false) :
    s.pushTransfer off total data =
      { s with boot := { s.boot with push := pushAfter s.boot.push off total data, pushLen := total } } := by
  unfold pushAfter at hpart
  simp only [State.pushTransfer, hlen, if_true, hpart, Bool.not_false, pushAfter]

variable (hwhole : pushWhole (pushAfter s.boot.push off total data) total = true)
include hwhole

/-- The last byte starts the verification, whose cause the state records beside the emptied transfer. -/
theorem State.pushTransfer_of_whole {c : Nat} {u : State}
    (hc : c = State.imgCause { s with boot := { s.boot with push := pushAfter s.boot.push off total data, pushLen := total } }
      s.boot.kind (pushedImage (pushAfter s.boot.push off total data) total))
    (hu : u = { s with boot := { s.boot with push := [], pushLen := 0, i3c := c } }) :
    s.pushTransfer off total data = if c = 0 then u.enterStage s.boot.kind (pushedImage (pushAfter s.boot.push off total data) total) none
      else u.imgRejected s.boot.kind c := by
  subst hu hc
  unfold pushAfter at hwhole
  simp only [State.pushTransfer, hlen, if_true, hwhole, Bool.not_true, Bool.false_eq_true, if_false, pushAfter, pushedImage]
  rfl

end

/-! ## Release and readiness (R445, R488) -/

theorem exec_computeDieRelease_of_off {s : State} {n : Nat} (hruns : s.calomRuns = true) (hn : n < 12) (hsite : s.hw.site n = true)
    (hadm : s.dieAdmitted n = true) (hfence : s.fbit F.ALN_SUMMARY.FENCED 0 n = false)
    (hoff : [5 * n, 5 * n + 1, 5 * n + 2, 5 * n + 3].all
      (fun d => s.rd F.PWR_DOM_STATUS.STATE d == 2 && !s.inTransition d) = true) :
    exec (.computeDieRelease n) s = .next (([5 * n, 5 * n + 1, 5 * n + 2, 5 * n + 3].foldl (fun s d => s.recordWake d 7) s).enqueue
      [5 * n, 5 * n + 1, 5 * n + 2, 5 * n + 3] 0 7) := by
  have hds : (List.range 4).map (5 * n + ·) = [5 * n, 5 * n + 1, 5 * n + 2, 5 * n + 3] := rfl
  change execComputeDieRelease _ _ = _
  simp only [execComputeDieRelease, hruns, hn, hsite, hadm, hfence, decide_true, Bool.not_false, Bool.and_self, if_true,
    State.dieRelease, hds, hoff]

theorem exec_fwReady_of_stage_three {s : State} (hheld : s.held = false) (hstage : s.rd F.SEC_BOOT_STATUS.STAGE = 3)
    (hp0 : s.domOn 96 = true) (hp1 : s.domOn 97 = true) : exec .fwReady s = .next s.becomeReady := by
  change execFwReady _ = _
  simp only [execFwReady, hheld, hstage, hp0, hp1, Bool.not_false, beq_self_eq_true, Bool.and_self, if_true]

/-- A kind that did not boot from a slot has none to confirm. -/
theorem State.confirm_of_not_booted {s : State} (h : s.boot.booted = []) (kind : Nat) : s.confirm kind = s := by
  have hfind : Tbl.find s.boot.booted kind = none := by rw [h]; rfl
  simp only [State.confirm, hfind]

theorem State.confirms_of_not_booted {s : State} (h : s.boot.booted = []) (kinds : List Nat) : kinds.foldl State.confirm s = s := by
  induction kinds with
  | nil => rfl
  | cons kind kinds ih => rw [List.foldl_cons, State.confirm_of_not_booted h, ih]

/-! ## FW_WRITE and WARM_RESET (R407, R444) -/

section
variable {s u : State} {r slot len : Nat} {img : List (BitVec 8)} (hslot : slot = dget (s.desc r) 8 1)
  (hlen : len = dget (s.desc r) 24 4) (hle : slot ≤ 6) (hne : len ≠ 0)
  (hread : s.cmdRead r 5 (dget (s.desc r) 16 8) len = (.data img [], u))
include hslot hlen hle hne hread

theorem State.fwWrite_of_too_large (hbig : kindMax (slotKind slot) < imgLen img + 256) : s.fwWrite r = u.finish r csSPACE := by
  subst hslot hlen
  simp only [State.fwWrite, Nat.not_lt.mpr hle, hne, decide_false, Bool.or_self, Bool.false_eq_true, if_false, hread, List.isEmpty_nil,
    Bool.not_true, if_pos hbig]

variable (hfits : imgLen img + 256 ≤ kindMax (slotKind slot))
include hfits

theorem State.fwWrite_of_bad_image (hbad : u.imgCause (slotKind slot) img ≠ 0) :
    s.fwWrite r = (u.imgRejected (slotKind slot) (u.imgCause (slotKind slot) img)).finish r csINVALID := by
  subst hslot hlen
  simp only [State.fwWrite, Nat.not_lt.mpr hle, hne, decide_false, Bool.or_self, Bool.false_eq_true, if_false, hread, List.isEmpty_nil,
    Bool.not_true, Nat.not_lt.mpr hfits, State.imgVerify_of_bad hbad, Bool.not_false, Bool.true_or, if_true]

variable (hgood : u.imgCause (slotKind slot) img = 0) (hkind : slotKind slot ≤ 3)
include hgood hkind

theorem State.fwWrite_of_active_slot (hact : u.activeSlot (slotKind slot) = slot) : s.fwWrite r = u.finish r csINVALID := by
  subst hslot hlen
  simp only [State.fwWrite, Nat.not_lt.mpr hle, hne, decide_false, Bool.or_self, Bool.false_eq_true, if_false, hread, List.isEmpty_nil,
    Bool.not_true, Nat.not_lt.mpr hfits, State.imgVerify_of_good hgood, hkind, hact, decide_true, Bool.and_self, Bool.false_or, if_true]

theorem State.fwWrite_of_spare_slot (hact : u.activeSlot (slotKind slot) ≠ slot) :
    s.fwWrite r = (State.setSlot { u with boot := { u.boot with nor := Tbl.set u.boot.nor slot (img.take (256 + imgLen img)) [] } } slot
      (SlotMeta.mk (Config.sm3 (img.take 192)) (leAt img 8 4) false true false false)).finish r csOK := by
  subst hslot hlen
  simp only [State.fwWrite, Nat.not_lt.mpr hle, hne, decide_false, Bool.or_self, Bool.false_eq_true, if_false, hread, List.isEmpty_nil,
    Bool.not_true, Nat.not_lt.mpr hfits, State.imgVerify_of_good hgood, hact, Bool.and_false]

end

theorem exec_fwWrite_of_idle {s : State} {r : Nat} (hadmin : s.hif.admin = none) (hheld : s.held = false)
    (hcmd : s.hasCmd r 0x05 = true) : exec (.fwWrite r) s = .next (s.fwWrite r) :=
  congrArg Host.Outcome.next (State.adminCmd_of_idle hadmin hheld hcmd _)

theorem exec_warmReset_of_idle {s : State} {r : Nat} (hadmin : s.hif.admin = none) (hheld : s.held = false)
    (hcmd : s.hasCmd r 0x0A = true) : exec (.warmReset r) s = .next (s.warmCmd r) :=
  congrArg Host.Outcome.next (State.adminCmd_of_idle hadmin hheld hcmd _)

/-- Settles O48: the answer of the verification, left open by the opaque SM2 and SM3, picks each branch. -/
theorem bootChainRuns : Obligations.BootChainRuns := by
  refine ⟨?rom, ?stage, ?verify, ?push, ?release, ?ready, ?fwWrite, ?warm⟩
  case rom =>
    intro s hheld hstart hclk
    refine ⟨s.bootFound, _, s.bootFound_eq, rfl, _, rfl, ?_⟩
    rw [exec_bootRomStart_of_settled hheld hstart hclk, State.bootRom_eq, State.bootSource_eq rfl]
  case stage =>
    intro s hruns hwait
    refine ⟨_, _, rfl, ?_, ?_⟩
    · intro x hx
      exact exec_stageImageVerify_of_slot hruns hwait (Prod.ext hx rfl)
    · intro hnone
      exact exec_stageImageVerify_of_no_slot hruns hwait (Prod.ext hnone rfl)
  case verify =>
    intro s kind img
    exact ⟨_, rfl, State.imgVerify_of_good, State.imgVerify_of_bad⟩
  case push =>
    rintro s off total data _ hruns hwait hne hlen hpush rfl
    rw [exec_pushTransfer_of_wait hruns hwait hne hlen]
    refine ⟨fun hpart => congrArg _ (State.pushTransfer_of_partial hpush off data hpart), fun hwhole => ?_⟩
    refine ⟨_, _, _, rfl, rfl, rfl, fun hc => ?_, fun hc => ?_⟩
    · exact congrArg _ ((State.pushTransfer_of_whole hpush off data hwhole rfl rfl).trans (if_pos hc))
    · exact congrArg _ ((State.pushTransfer_of_whole hpush off data hwhole rfl rfl).trans (if_neg hc))
  case release =>
    rintro s n _ hruns hn hsite hadm hfence rfl hoff
    exact exec_computeDieRelease_of_off hruns hn hsite hadm hfence hoff
  case ready =>
    intro s hheld hstage hp0 hp1
    rw [exec_fwReady_of_stage_three hheld hstage hp0 hp1]
    refine ⟨_, rfl, rfl, fun hnone => congrArg _ ?_⟩
    exact State.confirms_of_not_booted (s := State.wr (State.wr (s.wr _ 0 4) _ 0 1) _ 1 1) hnone [1, 2, 3]
  case fwWrite =>
    intro s u r slot len img hcmd hadmin hheld hslot hlen hle hne hread
    rw [exec_fwWrite_of_idle hadmin hheld hcmd]
    refine ⟨fun hbig => ?_, fun hfits => ⟨_, rfl, fun hbad => ?_, fun hgood hkind hact => ?_, fun hgood hkind hact => ?_⟩⟩
    · rw [State.fwWrite_of_too_large hslot hlen hle hne hread hbig]
    · rw [State.fwWrite_of_bad_image hslot hlen hle hne hread hfits hbad]
    · rw [State.fwWrite_of_active_slot hslot hlen hle hne hread hfits hgood hkind hact]
    · rw [State.fwWrite_of_spare_slot hslot hlen hle hne hread hfits hgood hkind hact]
  case warm =>
    rintro s _ r hcmd hadmin hheld rfl
    exact exec_warmReset_of_idle hadmin hheld hcmd

end Sys2Proof.Machine
end

section
/-!
SUPPORT. Profiles, the ledger, the planner, a sample of temperatures and the supply fence: the branch each condition picks.
-/

namespace Sys2Proof.Machine

/-! ## The ADMIN commands on profiles and the ledger (R407, R492, R495, R502, R508) -/

section
variable {s : State} {r : Nat}

theorem State.setProfile_of_slot (h : dget (s.desc r) 8 1 < 4) :
    s.setProfile r = (s.wr F.GLB_PROFILE.PENDING 0 (dget (s.desc r) 8 1)).finish r csOK := if_pos h

theorem State.setProfile_of_no_slot (h : 4 ≤ dget (s.desc r) 8 1) : s.setProfile r = s.finish r csINVALID := if_neg (Nat.not_lt.mpr h)

section
variable {u : State} {img : List (BitVec 8)} (hlow : 1 ≤ dget (s.desc r) 8 1) (hhigh : dget (s.desc r) 8 1 ≤ 3)
  (hmin : 64 ≤ dget (s.desc r) 24 4) (hmax : dget (s.desc r) 24 4 ≤ 65600)
  (hread : s.cmdRead r 5 (dget (s.desc r) 16 8) (dget (s.desc r) 24 4) = (.data img [], u))
include hlow hhigh hmin hmax hread

/-- An image that was read whole and without poison is judged by R495 alone. -/
theorem State.profileWrite_of_read : s.profileWrite r = if !profileGood (dget (s.desc r) 8 1) img then u.finish r csINVALID
    else (State.profileMap { u with vellum := { u.vellum with
      profiles := Tbl.set u.vellum.profiles (dget (s.desc r) 8 1) img [] } }).finish r csOK := by
  have hslot : dget (s.desc r) 8 1 ≠ 0 := Nat.one_le_iff_ne_zero.mp hlow
  have hmax' : ¬ 64 + 16 * 4096 < dget (s.desc r) 24 4 := by omega
  simp only [State.profileWrite, hslot, Nat.not_lt.mpr hhigh, Nat.not_lt.mpr hmin, hmax', decide_false, Bool.or_self, Bool.false_eq_true,
    if_false, hread, List.isEmpty_nil, Bool.not_true]

theorem State.profileWrite_of_good (hgood : profileGood (dget (s.desc r) 8 1) img = true) :
    s.profileWrite r = (State.profileMap { u with vellum := { u.vellum with
      profiles := Tbl.set u.vellum.profiles (dget (s.desc r) 8 1) img [] } }).finish r csOK := by
  rw [State.profileWrite_of_read hlow hhigh hmin hmax hread, hgood]
  rfl

theorem State.profileWrite_of_bad (hbad : profileGood (dget (s.desc r) 8 1) img = false) : s.profileWrite r = u.finish r csINVALID := by
  rw [State.profileWrite_of_read hlow hhigh hmin hmax hread, hbad]
  rfl

end

theorem State.ledgerRead_of_short (h : dget (s.desc r) 24 4 < 34400) : s.ledgerRead r = s.finish r csSPACE := if_pos h

theorem State.ledgerRead_of_written {u : State} (hlen : 34400 ≤ dget (s.desc r) 24 4)
    (hwrite : s.cmdWrite r 5 (dget (s.desc r) 16 8) s.ledgerRecord = (.done, u)) : s.ledgerRead r = u.finish r csOK 34400 := by
  simp only [State.ledgerRead, Nat.not_lt.mpr hlen, if_false, hwrite]

theorem State.planCmd_of_planning (h : s.is F.LGR_STATUS.PLANNING = true) : s.planCmd r = s.finish r csBUSY := if_pos h

theorem State.planCmd_of_idle (h : s.is F.LGR_STATUS.PLANNING = false) : s.planCmd r = s.runPlan.finish r csOK :=
  if_neg (Bool.eq_false_iff.mp h)

section
variable (hadmin : s.hif.admin = none) (hheld : s.held = false)
include hadmin hheld

theorem exec_setProfile_of_idle (hcmd : s.hasCmd r 0x06 = true) : exec (.setProfile r) s = .next (s.setProfile r) :=
  congrArg Host.Outcome.next (State.adminCmd_of_idle hadmin hheld hcmd _)

theorem exec_profileWrite_of_idle (hcmd : s.hasCmd r 0x07 = true) : exec (.profileWrite r) s = .next (s.profileWrite r) :=
  congrArg Host.Outcome.next (State.adminCmd_of_idle hadmin hheld hcmd _)

theorem exec_ledgerRead_of_idle (hcmd : s.hasCmd r 0x08 = true) : exec (.ledgerRead r) s = .next (s.ledgerRead r) :=
  congrArg Host.Outcome.next (State.adminCmd_of_idle hadmin hheld hcmd _)

theorem exec_plan_of_idle (hcmd : s.hasCmd r 0x09 = true) : exec (.plan r) s = .next (s.planCmd r) :=
  congrArg Host.Outcome.next (State.adminCmd_of_idle hadmin hheld hcmd _)

end

end

/-! ## The second's sample (R499, R500): with one reading, only domain 0 and die 0 are met -/

/-- Time that is counted changes the accumulator and the seconds beside it, and nothing else. -/
theorem State.ledgerTime_eq (s : State) (kind i amount hour : Nat) : ∃ acc secs,
    s.ledgerTime kind i amount hour = { s with lgr := { s.lgr with acc := acc, secs := secs } } := by
  by_cases h : Tbl.get s.lgr.secs (kind, i) 0 + amount < hour
  · exact ⟨_, _, if_pos h⟩
  · exact ⟨_, _, if_neg h⟩

@[simp] theorem State.rd_ledgerTime (s : State) (kind i amount hour : Nat) (f : Field) (j : Nat) :
    (s.ledgerTime kind i amount hour).rd f j = s.rd f j := by
  obtain ⟨acc, secs, h⟩ := s.ledgerTime_eq kind i amount hour
  rw [h]
  rfl

@[simp] theorem State.hw_ledgerTime (s : State) (kind i amount hour : Nat) : (s.ledgerTime kind i amount hour).hw = s.hw := by
  obtain ⟨acc, secs, h⟩ := s.ledgerTime_eq kind i amount hour
  rw [h]

@[simp] theorem State.capped_ledgerTime (s : State) (kind i amount hour : Nat) :
    (s.ledgerTime kind i amount hour).lgr.capped = s.lgr.capped := by
  obtain ⟨acc, secs, h⟩ := s.ledgerTime_eq kind i amount hour
  rw [h]

theorem State.capped_capDie (s : State) (n : Nat) : (s.capDie n).lgr.capped = n :: s.lgr.capped := by
  rw [State.capDie, State.raise_lgr]
  refine List.foldlRecOn (motive := fun t : State => t.lgr.capped = n :: s.lgr.capped) _ _ rfl fun t ht c _ => ?_
  dsimp only
  split
  · exact ht
  · exact ht

theorem State.dieTemps_of_no_reading {s : State} {temps : List Int} {n : Nat} (h : temps.length ≤ 5 * n) : s.dieTemps temps n = [] := by
  refine List.filterMap_eq_nil_iff.mpr fun k _ => ?_
  rw [List.getElem?_eq_none (Nat.le_add_right_of_le h), ite_self]

theorem State.dieTemps_zero {s : State} (hon : s.domOn 0 = true) (t : Int) : s.dieTemps [t] 0 = [t] := by
  simp [State.dieTemps, List.range_succ, hon]

/-- A die with no reading that is not capped stays as it is. -/
theorem State.thermalDie_of_no_reading {s : State} {temps : List Int} {n : Nat} (hlen : temps.length ≤ 5 * n)
    (hcap : s.lgr.capped.contains n = false) : s.thermalDie temps n = s := by
  simp only [State.thermalDie, State.dieTemps_of_no_reading hlen, hcap, List.any_nil, Bool.and_false, Bool.false_and, Bool.false_eq_true,
    if_false, State.when]

/-- A die above THROT_C is capped, and its first second under the cap counts. -/
theorem State.thermalDie_zero_of_hot {s : State} {t : Int} (hon : s.domOn 0 = true) (hcap : s.lgr.capped = [])
    (hot : Int.ofNat (100 * s.rd F.LGR_CFG.THROT_C) < t) :
    s.thermalDie [t] 0 = (s.capDie 0).ledgerTime secThrottle 1 1 3600 := by
  have hany : ([t].any fun x => Decidable.decide ((100 : Int) * (s.rd F.LGR_CFG.THROT_C : Nat) < x)) = true := by
    simpa using hot
  have hnot : s.lgr.capped.contains 0 = false := by rw [hcap]; rfl
  have hnow : (s.capDie 0).lgr.capped.contains 0 = true := by rw [State.capped_capDie]; rfl
  simp only [State.thermalDie, State.dieTemps_zero hon, hnot, hany, Bool.not_false, Bool.and_self, if_true, State.when, hnow, Nat.add_zero]

/-- The sample of one domain's temperature, in the fold of R499. -/
def State.sampleTemp (temps : List Int) (s : State) (d : Nat) : State :=
  match temps[d]? with
  | some t => if !s.domOn d then s else
      let hot : Bool := Decidable.decide (Int.ofNat (100 * s.rd F.LGR_CFG.THROT_C) < t)
      let s := s.ledgerTime secTemp (16 * d + tempBin t) 1 3600
      if hot then s.raise F.LGR_STATUS.EVT_TEMP_HIGH else s
  | none => s

/-- The sample of one die's rail voltage. -/
def State.sampleVolt (volts : List Nat) (s : State) (n : Nat) : State :=
  match volts[n]? with
  | some v => if s.hw.site n then (s.ledgerTime secVolt (16 * n + voltBin v) 1 3600).wr F.CDU_STATUS.VDD n v else s
  | none => s

/-- What a sample leaves before the caps are judged. -/
def State.sampled (s : State) (temps : List Int) (volts : List Nat) : State :=
  (List.range 12).foldl (State.sampleVolt volts) ((List.range 98).foldl (State.sampleTemp temps) s)

theorem State.thermalSample_eq (s : State) (temps : List Int) (volts : List Nat) : s.thermalSample temps volts =
    (idxWhere 12 (fun n => (s.sampled temps volts).hw.site n)).foldl (fun t n => t.thermalDie temps n) (s.sampled temps volts) := rfl

theorem State.sampled_of_none (s : State) : s.sampled [] [] = s := by
  rw [State.sampled, List.foldl_fixed' (f := State.sampleTemp []) (fun _ => rfl),
    List.foldl_fixed' (f := State.sampleVolt []) (fun _ => rfl)]

theorem State.sampleTemp_of_hot {s : State} {t : Int} (hon : s.domOn 0 = true) (hot : Int.ofNat (100 * s.rd F.LGR_CFG.THROT_C) < t) :
    State.sampleTemp [t] s 0 = (s.ledgerTime secTemp (tempBin t) 1 3600).raise F.LGR_STATUS.EVT_TEMP_HIGH := by
  simp only [State.sampleTemp, List.getElem?_cons_zero, hon, hot, Bool.not_true, Bool.false_eq_true, if_false, decide_true, if_true,
    Nat.mul_zero, Nat.zero_add]

theorem State.sampled_of_hot {s : State} {t : Int} (hon : s.domOn 0 = true) (hot : Int.ofNat (100 * s.rd F.LGR_CFG.THROT_C) < t) :
    s.sampled [t] [] = (s.ledgerTime secTemp (tempBin t) 1 3600).raise F.LGR_STATUS.EVT_TEMP_HIGH := by
  have hrange : List.range 98 = 0 :: (List.range 97).map Nat.succ := List.range_succ_eq_map
  rw [State.sampled, List.foldl_fixed' (f := State.sampleVolt []) (fun _ => rfl), hrange, List.foldl_cons, List.foldl_map,
    List.foldl_fixed' (fun _ => rfl), State.sampleTemp_of_hot hon hot]

theorem idxWhere_of_zero {n : Nat} {p : Nat → Bool} (h : p 0 = true) :
    idxWhere (n + 1) p = 0 :: (idxWhere n (p ∘ Nat.succ)).map Nat.succ := by
  rw [idxWhere, List.range_succ_eq_map, List.filter_cons_of_pos h, List.filter_map, idxWhere]

theorem State.thermalSample_of_none {s : State} (hcap : s.lgr.capped = []) : s.thermalSample [] [] = s := by
  rw [State.thermalSample_eq, State.sampled_of_none]
  exact List.foldl_fixed' (fun n => State.thermalDie_of_no_reading (Nat.zero_le _) (by rw [hcap]; rfl)) _

/-- A reading of domain 0 alone caps die 0 and no other die. -/
theorem State.thermalSample_of_hot {s u : State} {t : Int} (hsite : s.hw.site 0 = true) (hon : s.domOn 0 = true)
    (hcap : s.lgr.capped = []) (hot : Int.ofNat (100 * s.rd F.LGR_CFG.THROT_C) < t)
    (hu : u = (s.ledgerTime secTemp (tempBin t) 1 3600).raise F.LGR_STATUS.EVT_TEMP_HIGH) :
    s.thermalSample [t] [] = (u.capDie 0).ledgerTime secThrottle 1 1 3600 := by
  have hrd {f : Field} (i : Nat) (hev : evReg f.reg = false) (hreg : f.reg ≠ .LGR_STATUS) : u.rd f i = s.rd f i := by
    rw [hu, State.rd_raise_of_reg _ hev hreg.symm, State.rd_ledgerTime]
  have hon' : u.domOn 0 = true := by rw [State.domOn, hrd 0 (by decide) (by decide)]; exact hon
  have hcap' : u.lgr.capped = [] := by rw [hu, State.raise_lgr, State.capped_ledgerTime, hcap]
  have hot' : Int.ofNat (100 * u.rd F.LGR_CFG.THROT_C) < t := by rw [hrd 0 (by decide) (by decide)]; exact hot
  have hsite' : u.hw.site 0 = true := by rw [hu, State.raise_hw, State.hw_ledgerTime]; exact hsite
  rw [State.thermalSample_eq, State.sampled_of_hot hon hot, ← hu, idxWhere_of_zero hsite', List.foldl_cons, List.foldl_map,
    State.thermalDie_zero_of_hot hon' hcap' hot']
  refine List.foldl_fixed' (fun n => State.thermalDie_of_no_reading ?_ ?_) _
  · exact Nat.mul_pos (by decide) n.succ_pos
  · rw [State.capped_ledgerTime, State.capped_capDie, hcap']
    rfl

/-! ## The hour and the supply fence (R498, R502, R521) -/

section
variable {s : State} (hruns : s.calomRuns = true)
include hruns

theorem exec_poweredHour_of_runs (readings : List Nat) (ok : Bool) : exec (.poweredHour readings ok) s = .next (s.poweredHour readings ok) :=
  congrArg Host.Outcome.next (if_pos hruns)

theorem exec_thermalSample_of_runs (temps : List Int) (volts : List Nat) :
    exec (.thermalSample temps volts) s = .next (s.thermalSample temps volts) :=
  congrArg Host.Outcome.next (if_pos hruns)

theorem exec_supplyFence_of_request {n x : Nat} (hn : n < 12) (hsite : s.hw.site n = true) (hreq : Tbl.find s.lgr.request n = some x) :
    exec (.supplyFence n) s = .next (s.fence n 10) := by
  change execSupplyFence _ _ = _
  simp only [execSupplyFence, hruns, hn, hsite, hreq, Option.isSome_some, decide_true, Bool.and_self, if_true]

end

section
variable {s u : State} {readings : List Nat} {ok : Bool} {hour : Nat} (hhour : hour = s.rd F.LGR_HOURS.POWERED_HOURS + 1)
  (hu : u = ((s.wr F.LGR_HOURS.POWERED_HOURS 0 hour).readSensors readings hour).slotWrite ok)
include hhour hu

theorem State.poweredHour_eq : s.poweredHour readings ok = u.when (hour % 1000 == 0 && u.is F.LGR_CFG.AUTO_PLAN) State.runPlan := by
  subst hu hhour
  rfl

theorem State.poweredHour_of_short (h : hour % 1000 ≠ 0) : s.poweredHour readings ok = u := by
  rw [State.poweredHour_eq hhour hu, beq_eq_false_iff_ne.mpr h]
  rfl

theorem State.poweredHour_of_plan (h : hour % 1000 = 0) (hauto : u.is F.LGR_CFG.AUTO_PLAN = true) :
    s.poweredHour readings ok = u.runPlan := by
  rw [State.poweredHour_eq hhour hu, h, hauto]
  rfl

end

/-- Settles O49: the slot, the length and the state of the planner pick each command's branch, and a sample of one reading is followed
through its folds. -/
theorem profilesLedgerAndSensors : Obligations.ProfilesLedgerAndSensors := by
  refine ⟨?commands, ?hour, ?sample, ?fence⟩
  case commands =>
    rintro s r op _ hcmd hadmin hheld rfl
    refine ⟨?_, ?_, ?_, ?_, ?_, ?_, ?_⟩
    · rintro rfl hslot
      rw [exec_setProfile_of_idle hadmin hheld hcmd, State.setProfile_of_slot hslot]
    · rintro rfl hslot
      rw [exec_setProfile_of_idle hadmin hheld hcmd, State.setProfile_of_no_slot hslot]
    · rintro u img rfl hlow hhigh hmin hmax hread
      rw [exec_profileWrite_of_idle hadmin hheld hcmd]
      exact ⟨fun h => congrArg _ (State.profileWrite_of_good hlow hhigh hmin hmax hread h),
        fun h => congrArg _ (State.profileWrite_of_bad hlow hhigh hmin hmax hread h)⟩
    · rintro rfl hlen
      rw [exec_ledgerRead_of_idle hadmin hheld hcmd, State.ledgerRead_of_short hlen]
    · rintro u rfl hlen hwrite
      rw [exec_ledgerRead_of_idle hadmin hheld hcmd, State.ledgerRead_of_written hlen hwrite]
    · rintro rfl hplan
      rw [exec_plan_of_idle hadmin hheld hcmd, State.planCmd_of_planning hplan]
    · rintro rfl hplan
      rw [exec_plan_of_idle hadmin hheld hcmd, State.planCmd_of_idle hplan]
  case hour =>
    intro s u readings ok hour hruns hhour hu
    rw [exec_poweredHour_of_runs hruns]
    exact ⟨fun h => congrArg _ (State.poweredHour_of_short hhour hu h),
      fun h hauto => congrArg _ (State.poweredHour_of_plan hhour hu h hauto)⟩
  case sample =>
    intro s hruns hcap
    refine ⟨?_, fun t hsite hon hot => ⟨_, rfl, ?_⟩⟩
    · rw [exec_thermalSample_of_runs hruns, State.thermalSample_of_none hcap]
    · rw [exec_thermalSample_of_runs hruns, State.thermalSample_of_hot hsite hon hcap hot rfl]
  case fence =>
    intro s n x hruns hn hsite hreq
    exact exec_supplyFence_of_request hruns hn hsite hreq

end Sys2Proof.Machine
end

section
/-!
SUPPORT. Debug enables and authentication: what each write leaves and which state lets it act.
-/

namespace Sys2Proof.Machine

/-! ## The enables (R456, R462) -/

theorem effOf_lt (en : Nat) (secOff : Bool) : effOf en secOff < 2 ^ 4 := by
  have hb (b : Bool) : b2n b ≤ 1 := by cases b <;> decide
  have hnni := hb (en.testBit 0 || (en.testBit 2 || en.testBit 3) || (en.testBit 1 || en.testBit 3))
  have hni := hb (en.testBit 1 || en.testBit 3)
  have hsni := hb (en.testBit 2 || en.testBit 3)
  have hsi := hb (en.testBit 3)
  unfold effOf
  dsimp only
  split <;> omega

theorem State.rd_eff_effSet (s : State) :
    s.effSet.rd F.DBG_EN.EFF = effOf (s.rd F.DBG_EN.FW_EN ||| s.rd F.DBG_EN.AUTH_EN) s.fuses.secDbgOff :=
  (State.rd_wr_self ..).trans (Nat.mod_eq_of_lt (effOf_lt _ _))

theorem State.rd_effSet_of_lo (s : State) {f : Field} (h : F.DBG_EN.EFF.lo ≠ f.lo) (i : Nat) : s.effSet.rd f i = s.rd f i :=
  State.rd_wr_of_lo _ _ h

/-- With nothing halted and no access in flight, a change of the enables moves EFF alone. -/
theorem State.enChange_of_quiet {s : State} (hhalt : s.dbg.halted = []) (hacc : s.dbg.acc = none) : s.enChange = s.effSet := by
  have hhalt' : s.effSet.dbg.halted = [] := hhalt
  have hacc' : s.effSet.dbg.acc = none := hacc
  simp only [State.enChange, hhalt', hacc', List.filter_nil, List.map_nil, List.foldl_nil]

section
variable {s : State} (hhalt : s.dbg.halted = []) (hacc : s.dbg.acc = none)
include hhalt hacc

theorem State.fwEn_of_quiet (hpend : s.harts.filter (fun h => h.2.haltPending) = []) (v : Nat) :
    s.fwEn v = (s.wr F.DBG_EN.FW_EN 0 (bits v 0 4)).effSet := by
  have hpend' : (s.wr F.DBG_EN.FW_EN 0 (bits v 0 4)).effSet.harts.filter (fun h => h.2.haltPending) = [] := hpend
  simp only [State.fwEn, State.enChange_of_quiet (s := s.wr F.DBG_EN.FW_EN 0 (bits v 0 4)) hhalt hacc, hpend', List.map_nil,
    List.foldl_nil]

theorem exec_dbgFwEnWrite_of_quiet (htakes : s.takesWrite .secure .DBG_EN = true)
    (hpend : s.harts.filter (fun h => h.2.haltPending) = []) (v : Nat) :
    exec (.dbgFwEnWrite .secure v) s = .next (s.wr F.DBG_EN.FW_EN 0 (bits v 0 4)).effSet := by
  change execDbgFwEnWrite _ _ _ = _
  rw [execDbgFwEnWrite, State.withReg_of_takes htakes, State.fwEn_of_quiet hhalt hacc hpend]
  rfl

theorem exec_dbgAuthClr_of_quiet {src : Src} (htakes : s.takesWrite src .DBG_EN = true) :
    exec (.dbgAuthClr src) s = .next (s.wr F.DBG_EN.AUTH_EN 0 0).effSet := by
  change execDbgAuthClr _ _ = _
  rw [execDbgAuthClr, State.withReg_of_takes htakes, State.authClr, State.enChange_of_quiet (s := s.wr F.DBG_EN.AUTH_EN 0 0) hhalt hacc]

end

theorem exec_dbgFwEnWrite_of_not_secure {src : Src} (h : src ≠ .secure) (s : State) (v : Nat) :
    exec (.dbgFwEnWrite src v) s = .next s := congrArg Host.Outcome.next (if_neg (mt isSecure_eq_true.mp h))

/-! ## NEW, the nonce and GO (R458, R459) -/

theorem State.authNew_of_open {s : State} (hcheck : s.authState ≠ 2) (hlock : s.authState ≠ 5) :
    s.authNew = { s with dbg := { s.dbg with nonceDue := true } } := by
  simp only [State.authNew, hcheck, hlock, decide_false, Bool.or_self, Bool.false_eq_true, if_false]

theorem State.authNew_of_closed {s : State} (h : s.authState = 2 ∨ s.authState = 5) : s.authNew = s := by
  refine if_pos ?_
  simpa only [Bool.or_eq_true, decide_eq_true_eq] using h

theorem leNat_lt (l : List Byte) : leNat l < 256 ^ l.length := by
  induction l with
  | nil => exact Nat.one_pos
  | cons b l ih =>
    have hb := b.isLt
    rw [leNat, List.length_cons, Nat.pow_succ]
    omega

theorem leAt_lt (l : List Byte) (off n : Nat) : leAt l off n < 256 ^ n :=
  (leNat_lt _).trans_le (Nat.pow_le_pow_right (by decide) (List.length_take_le ..))

/-- Each register of a row that is written once reads what was written to it. -/
theorem State.rd_foldl_wr_row (s : State) (f : Field) (v : Nat → Nat) {l : List Nat} {j : Nat} (h : j ∈ l) :
    (l.foldl (fun s k => s.wr f k (v k)) s).rd f j = v j % 2 ^ f.w := by
  induction l using List.reverseRecOn with
  | nil => exact absurd h List.not_mem_nil
  | append_singleton l k ih =>
    rw [List.foldl_append, List.foldl_cons, List.foldl_nil]
    by_cases hjk : k = j
    · rw [hjk, State.rd_wr_self]
    · rw [State.rd_wr_of_idx _ _ hjk]
      exact ih ((List.mem_append.mp h).resolve_right (fun hm => hjk (List.mem_singleton.mp hm).symm))

/-- The state after the random source's bytes are taken. -/
def State.nonceTaken (s : State) (nonce : List (BitVec 8)) : State :=
  ((List.range 4).foldl (fun (s : State) k => s.wr F.DBG_AUTH_NONCE.BYTES k (leAt nonce (8 * k) 8))
    { s with dbg := { s.dbg with nonceDue := false } }).wr F.DBG_AUTH_CTL.STATE 0 auNONCE

theorem exec_dbgAuthNonceReady_of_due {s : State} (hheld : s.held = false) (hclk : s.clkOn 74 = true) (hdue : s.dbg.nonceDue = true)
    (hcheck : s.authState ≠ 2) (hlock : s.authState ≠ 5) (nonce : List (BitVec 8)) :
    exec (.dbgAuthNonceReady nonce) s = .next (s.nonceTaken nonce) := by
  change execDbgAuthNonceReady _ _ = _
  simp only [execDbgAuthNonceReady, hheld, hclk, State.nonceReady, hdue, hcheck, hlock, Bool.not_true, decide_false, Bool.or_self,
    Bool.false_eq_true, if_false, State.nonceTaken]

theorem State.rd_bytes_nonceTaken (s : State) (nonce : List (BitVec 8)) {k : Nat} (hk : k < 4) :
    (s.nonceTaken nonce).rd F.DBG_AUTH_NONCE.BYTES k = leAt nonce (8 * k) 8 := by
  rw [State.nonceTaken, State.rd_wr_of_reg _ _ (by decide), State.rd_foldl_wr_row _ _ _ (List.mem_range.mpr hk)]
  exact Nat.mod_eq_of_lt (leAt_lt nonce (8 * k) 8)

theorem State.dbg_foldl_wr (s : State) (f : Field) (v : Nat → Nat) (l : List Nat) :
    (l.foldl (fun s k => s.wr f k (v k)) s).dbg = s.dbg :=
  List.foldlRecOn (motive := fun t : State => t.dbg = s.dbg) l _ rfl fun _ ht _ _ => ht

theorem State.nonceTaken_frame (s : State) (nonce : List (BitVec 8)) :
    Frame false [.dbg] (F.DBG_AUTH_CTL.STATE.at :: (List.range 4).map (fun k => F.DBG_AUTH_NONCE.BYTES.at k)) s (s.nonceTaken nonce) := by
  refine (Frame.foldl _ ((Frame.refl s).with_dbg (by simp)) fun t k hk ht => ht.wr _ ?_).wr _ (List.mem_cons_self ..)
  exact List.mem_cons_of_mem _ (List.mem_map_of_mem hk)

/-- The state after GO takes a check with REQ and KEY_SLOT. -/
def State.checkStarted (s : State) (c : AuthCheck) : State :=
  State.wr { (s.wr F.DBG_AUTH_CTL.REQ 0 c.req).wr F.DBG_AUTH_CTL.KEY_SLOT 0 c.slot with dbg := { s.dbg with check := some c } }
    F.DBG_AUTH_CTL.STATE 0 auCHECKING

theorem State.authCtl_of_go {s : State} {v : Nat} (hstate : s.authState = 1) (hgo : v.testBit 1 = true) (hnew : v.testBit 0 = false)
    (hslot : F.DBG_AUTH_CTL.KEY_SLOT.enc.ok (bits v 8 8) = true) :
    s.authCtl v = s.checkStarted (AuthCheck.mk (s.regBytes F.DBG_AUTH_NONCE.BYTES 4) (bits v 4 4) (bits v 8 8)
      (s.regBytes F.DBG_AUTH_PUB.BYTES 8) (s.regBytes F.DBG_AUTH_SIG.BYTES 8)) := by
  have hrow {f : Field} (n : Nat) (hreg : f.reg ≠ .DBG_AUTH_CTL) : State.regBytes
      ((s.wr F.DBG_AUTH_CTL.REQ 0 (bits v 4 4)).wr F.DBG_AUTH_CTL.KEY_SLOT 0 (bits v 8 8)) f n = s.regBytes f n := by
    refine congrArg (fun g => (List.range n).flatMap g) (funext fun k => ?_)
    rw [State.rd_wr_of_reg _ _ hreg.symm, State.rd_wr_of_reg _ _ hreg.symm]
  have hstate' : State.authState ((s.wr F.DBG_AUTH_CTL.REQ 0 (bits v 4 4)).wr F.DBG_AUTH_CTL.KEY_SLOT 0 (bits v 8 8)) = 1 := by
    rw [State.authState, State.rd_wr_of_lo _ _ (by decide), State.rd_wr_of_lo _ _ (by decide)]
    exact hstate
  have hreq : State.rd ((s.wr F.DBG_AUTH_CTL.REQ 0 (bits v 4 4)).wr F.DBG_AUTH_CTL.KEY_SLOT 0 (bits v 8 8)) F.DBG_AUTH_CTL.REQ =
      bits v 4 4 := by
    rw [State.rd_wr_of_lo _ _ (by decide), State.rd_wr_self]
    exact Nat.mod_eq_of_lt (bits_lt v 4 4)
  have hkey : State.rd ((s.wr F.DBG_AUTH_CTL.REQ 0 (bits v 4 4)).wr F.DBG_AUTH_CTL.KEY_SLOT 0 (bits v 8 8)) F.DBG_AUTH_CTL.KEY_SLOT =
      bits v 8 8 := by
    rw [State.rd_wr_self]
    exact Nat.mod_eq_of_lt (bits_lt v 8 8)
  simp only [State.authCtl, if_pos hslot, hgo, hnew, hstate', decide_true, Bool.and_self, if_true, Bool.false_eq_true, if_false,
    hrow 4 (f := F.DBG_AUTH_NONCE.BYTES) (by decide), hrow 8 (f := F.DBG_AUTH_PUB.BYTES) (by decide),
    hrow 8 (f := F.DBG_AUTH_SIG.BYTES) (by decide), hreq, hkey]
  rfl

theorem State.checkStarted_frame (s : State) (c : AuthCheck) : Frame false [.dbg]
    [F.DBG_AUTH_CTL.REQ.at, F.DBG_AUTH_CTL.KEY_SLOT.at, F.DBG_AUTH_CTL.STATE.at] s (s.checkStarted c) :=
  ((((Frame.refl s).wr _ (by simp)).wr _ (by simp)).with_dbg (by simp)).wr _ (by simp)

/-! ## The end of a check (R459, R466) -/

/-- A check that grants, up to its event. -/
def State.granted (s : State) (c : AuthCheck) : State :=
  let t := ((s.wr F.DBG_EN.AUTH_EN 0 c.req).effSet.wr F.DBG_AUTH_CTL.STATE 0 auGRANTED).inc F.DBG_CNT.GRANTS
  State.note { t with dbg := { t.dbg with lastGrant := some (c.slot, c.req) } } 2 c.slot c.req

theorem State.authGrant_of_no_halt_due {s : State} (hpend : s.harts.filter (fun h => h.2.haltPending) = []) (c : AuthCheck) :
    s.authGrant c = (s.granted c).raise F.DBG_STATUS.EVT_GRANT := by
  have hpend' : ((s.granted c).raise F.DBG_STATUS.EVT_GRANT).harts.filter (fun h => h.2.haltPending) = [] := by
    rw [State.raise_harts]
    exact hpend
  change ((((s.granted c).raise F.DBG_STATUS.EVT_GRANT).harts.filter (fun h => h.2.haltPending)).map (·.1)).foldl State.takeHalt
    ((s.granted c).raise F.DBG_STATUS.EVT_GRANT) = _
  rw [hpend', List.map_nil, List.foldl_nil]

section
variable (s : State) (c : AuthCheck)

theorem State.authState_granted : (s.granted c).authState = 3 := by
  rw [State.granted, State.authState, State.rd_note]
  exact (State.rd_wr_of_reg _ _ (by decide)).trans (State.rd_wr_self ..)

theorem State.rd_en_granted {f : Field} (h : f.reg = .DBG_EN) :
    (s.granted c).rd f = (s.wr F.DBG_EN.AUTH_EN 0 c.req).effSet.rd f := by
  rw [State.granted, State.rd_note]
  exact (State.rd_wr_of_reg _ _ (by rw [h]; decide)).trans (State.rd_wr_of_reg _ _ (by rw [h]; decide))

theorem State.rd_authEn_granted (hreq : c.req < 16) : (s.granted c).rd F.DBG_EN.AUTH_EN = c.req := by
  rw [State.rd_en_granted s c rfl, State.rd_effSet_of_lo _ (by decide), State.rd_wr_self]
  exact Nat.mod_eq_of_lt hreq

theorem State.rd_eff_granted (hreq : c.req < 16) :
    (s.granted c).rd F.DBG_EN.EFF = effOf (s.rd F.DBG_EN.FW_EN ||| c.req) s.fuses.secDbgOff := by
  have hmod : c.req % 2 ^ F.DBG_EN.AUTH_EN.w = c.req := Nat.mod_eq_of_lt hreq
  rw [State.rd_en_granted s c rfl, State.rd_eff_effSet, State.rd_wr_of_lo _ _ (by decide), State.rd_wr_self, hmod]
  rfl

/-- A check that fails with `n` failures counted, up to its event. -/
def State.failed (n : Nat) : State :=
  State.note ((s.wr F.DBG_AUTH_CTL.FAILS 0 n).wr F.DBG_AUTH_CTL.STATE 0 (if 8 ≤ n then auLOCKED else auFAILED)) 3 c.slot n

theorem State.authFail_of_few (h : s.rd F.DBG_AUTH_CTL.FAILS < 7) :
    s.authFail c = (s.failed c (s.rd F.DBG_AUTH_CTL.FAILS + 1)).raise F.DBG_STATUS.EVT_FAIL := by
  have hmin : min 8 (s.rd F.DBG_AUTH_CTL.FAILS + 1) = s.rd F.DBG_AUTH_CTL.FAILS + 1 := by omega
  have hnot : ¬ 8 ≤ s.rd F.DBG_AUTH_CTL.FAILS + 1 := by omega
  simp only [State.authFail, hmin, hnot, decide_false, State.when, Bool.false_eq_true, if_false, State.failed]

theorem State.authFail_of_eighth (h : 7 ≤ s.rd F.DBG_AUTH_CTL.FAILS) :
    s.authFail c = ((s.failed c 8).raise F.DBG_STATUS.EVT_FAIL).raise F.DBG_STATUS.EVT_LOCKED := by
  have hmin : min 8 (s.rd F.DBG_AUTH_CTL.FAILS + 1) = 8 := by omega
  simp only [State.authFail, hmin, Nat.le_refl, decide_true, State.when, if_true, State.failed]

theorem State.rd_fails_failed {n : Nat} (h : n < 16) : (s.failed c n).rd F.DBG_AUTH_CTL.FAILS = n := by
  rw [State.failed, State.rd_note, State.rd_wr_of_lo _ _ (by decide), State.rd_wr_self]
  exact Nat.mod_eq_of_lt h

theorem State.authState_failed (n : Nat) : (s.failed c n).authState = if 8 ≤ n then 5 else 4 := by
  rw [State.failed, State.authState, State.rd_note, State.rd_wr_self]
  split <;> rfl

end

/-- An event of the debug block leaves the other registers of that block. -/
theorem State.rd_raise_dbgStatus {f g : Field} (hf : f.reg = .DBG_STATUS) (hev : evReg g.reg = false) (hg : g.reg ≠ .DBG_STATUS)
    (s : State) : (s.raise f).rd g = s.rd g := State.rd_raise_of_reg _ hev (by rw [hf]; exact hg.symm)

/-- The state once the check that ran is taken off. -/
def State.checkTaken (s : State) : State := { s with dbg := { s.dbg with check := none } }

section
variable {s : State} {c : AuthCheck} (hheld : s.held = false) (hclk : s.clkOn 74 = true) (hcheck : s.dbg.check = some c)
include hheld hclk hcheck

theorem exec_dbgAuthDone_of_check : exec .dbgAuthDone s =
    .next (if s.checkTaken.authPass c then s.checkTaken.authGrant c else s.checkTaken.authFail c) := by
  change execDbgAuthDone s = _
  rw [execDbgAuthDone, hheld, hclk, State.authDone, hcheck]
  rfl

theorem exec_dbgAuthDone_of_pass (hpass : s.authPass c = true) : exec .dbgAuthDone s = .next (s.checkTaken.authGrant c) :=
  (exec_dbgAuthDone_of_check hheld hclk hcheck).trans (congrArg _ (if_pos hpass))

theorem exec_dbgAuthDone_of_fail (hpass : s.authPass c = false) : exec .dbgAuthDone s = .next (s.checkTaken.authFail c) :=
  (exec_dbgAuthDone_of_check hheld hclk hcheck).trans (congrArg _ (if_neg (Bool.eq_false_iff.mp hpass)))

end

/-- Settles O50: each command's write, and the state of authentication that lets it act. -/
theorem debugEnablesAndAuthentication : Obligations.DebugEnablesAndAuthentication := by
  refine ⟨?fwEn, ?normal, ?clr, ?new, ?nonce, ?go, ?done⟩
  case fwEn =>
    intro s v htakes hhalt hacc hpend
    have hbits : bits v 0 4 = v % 16 := by
      rw [bits, Nat.shiftRight_zero]
      rfl
    refine ⟨_, exec_dbgFwEnWrite_of_quiet hhalt hacc htakes hpend v, ?_, ?_, ?_⟩
    · rw [State.rd_effSet_of_lo _ (by decide), State.rd_wr_self, hbits]
      exact Nat.mod_mod v 16
    · rw [State.rd_eff_effSet, State.rd_wr_self, State.rd_wr_of_lo _ _ (by decide), hbits]
      exact congrArg (fun n => effOf (n ||| _) _) (Nat.mod_mod v 16)
    · exact ((Frame.refl s).wr _ (by simp)).wr _ (by simp)
  case normal =>
    intro s src v hsrc
    exact exec_dbgFwEnWrite_of_not_secure hsrc s v
  case clr =>
    intro s src htakes hhalt hacc
    refine ⟨_, exec_dbgAuthClr_of_quiet hhalt hacc htakes, ?_, ?_, ?_⟩
    · rw [State.rd_effSet_of_lo _ (by decide), State.rd_wr_self, Nat.zero_mod]
    · rw [State.rd_eff_effSet, State.rd_wr_self, State.rd_wr_of_lo _ _ (by decide), Nat.zero_mod, Nat.or_zero]
      rfl
    · exact ((Frame.refl s).wr _ (by simp)).wr _ (by simp)
  case new =>
    intro s src htakes
    have hexec : exec (.dbgAuthNew src) s = .next s.authNew := congrArg Host.Outcome.next (State.withReg_of_takes htakes)
    rw [hexec]
    exact ⟨fun hcheck hlock => congrArg _ (State.authNew_of_open hcheck hlock), fun h => congrArg _ (State.authNew_of_closed h)⟩
  case nonce =>
    intro s nonce hheld hclk hdue hcheck hlock
    refine ⟨_, exec_dbgAuthNonceReady_of_due hheld hclk hdue hcheck hlock nonce, State.rd_wr_self .., ?_,
      fun k hk => s.rd_bytes_nonceTaken nonce hk, s.nonceTaken_frame nonce⟩
    exact congrArg DbgState.nonceDue (State.dbg_foldl_wr { s with dbg := { s.dbg with nonceDue := false } } _ _ _)
  case go =>
    intro s src v htakes hstate hgo hnew hslot
    have hexec : exec (.dbgAuthGo src v) s = .next (s.authCtl v) := congrArg Host.Outcome.next (State.withReg_of_takes htakes)
    rw [hexec, State.authCtl_of_go hstate hgo hnew hslot]
    exact ⟨_, rfl, State.rd_wr_self .., rfl, s.checkStarted_frame _⟩
  case done =>
    intro s c hheld hclk hcheck
    refine ⟨_, _, rfl, rfl, fun hpass hpend hreq => ?_, fun hpass hfew => ?_, fun hpass heighth => ?_⟩
    · rw [exec_dbgAuthDone_of_pass hheld hclk hcheck hpass, State.authGrant_of_no_halt_due (s := s.checkTaken) hpend]
      refine ⟨_, rfl, ?_, ?_, ?_, State.rd_raise_self _ _ _ (by decide) rfl⟩
      · exact (State.rd_raise_dbgStatus rfl (by decide) (by decide) _).trans (State.authState_granted _ c)
      · rw [State.rd_raise_dbgStatus rfl (by decide) (by decide), State.rd_authEn_granted _ _ hreq]
      · rw [State.rd_raise_dbgStatus rfl (by decide) (by decide), State.rd_eff_granted _ _ hreq]
        rfl
    · rw [exec_dbgAuthDone_of_fail hheld hclk hcheck hpass, State.authFail_of_few s.checkTaken c hfew]
      refine ⟨_, rfl, ?_, ?_, State.rd_raise_self _ _ _ (by decide) rfl⟩
      · refine (State.rd_raise_dbgStatus rfl (by decide) (by decide) _).trans ((State.authState_failed _ c _).trans (if_neg ?_))
        exact Nat.not_le.mpr (Nat.succ_lt_succ hfew)
      · rw [State.rd_raise_dbgStatus rfl (by decide) (by decide)]
        exact State.rd_fails_failed _ c ((Nat.succ_lt_succ hfew).trans (by decide))
    · rw [exec_dbgAuthDone_of_fail hheld hclk hcheck hpass, State.authFail_of_eighth s.checkTaken c heighth]
      refine ⟨_, rfl, ?_, ?_, State.rd_raise_self _ _ _ (by decide) rfl⟩
      · refine (State.rd_raise_dbgStatus rfl (by decide) (by decide) _).trans ?_
        exact (State.rd_raise_dbgStatus rfl (by decide) (by decide) _).trans (State.authState_failed _ c 8)
      · rw [State.rd_raise_dbgStatus rfl (by decide) (by decide), State.rd_raise_dbgStatus rfl (by decide) (by decide)]
        exact State.rd_fails_failed _ c (by decide)

end Sys2Proof.Machine
end

section
/-!
SUPPORT. What the blocks of a domain do as it enters OFF or leaves it leaves the power controller alone, operation by operation.
-/

namespace Sys2Proof.Machine

/-! ## The power controller's part of the state

What a transition's end runs in other blocks (a core's proof that aborts, a port that resets, rings that halt) leaves the controller
alone.  Said once for each operation as an equation of `State.power`. -/

/-- The power controller's own state and the fields of PWR_DOM_STATUS. -/
def State.power (s : State) : PwrState × (Field → Nat → Nat) :=
  (s.pwr, fun f i => if f.reg = .PWR_DOM_STATUS then s.rd f i else 0)

theorem State.pwr_of_power {s t : State} (h : t.power = s.power) : t.pwr = s.pwr := congrArg Prod.fst h

theorem State.rd_of_power {s t : State} (h : t.power = s.power) {f : Field} (hf : f.reg = .PWR_DOM_STATUS) (i : Nat) :
    t.rd f i = s.rd f i := by
  have hrd := congrFun (congrFun (congrArg Prod.snd h) f) i
  simpa only [State.power, if_pos hf] using hrd

theorem State.power_of_rd {s t : State} (hpwr : t.pwr = s.pwr) (hrd : ∀ f i, f.reg = .PWR_DOM_STATUS → t.rd f i = s.rd f i) :
    t.power = s.power := by
  refine Prod.ext hpwr (funext fun f => funext fun i => ?_)
  by_cases hf : f.reg = .PWR_DOM_STATUS
  · simp only [State.power, if_pos hf, hrd f i hf]
  · simp only [State.power, if_neg hf]

/-! ### Writes, events and the setters of the blocks -/

section
variable (s : State)

@[simp] theorem State.power_wr {f : Field} (h : f.reg ≠ .PWR_DOM_STATUS) (i v : Nat) : (s.wr f i v).power = s.power :=
  State.power_of_rd rfl fun _ _ hg => State.rd_wr_of_reg s v (by rw [hg]; exact h)

@[simp] theorem State.power_inc {f : Field} (h : f.reg ≠ .PWR_DOM_STATUS) (i n : Nat) : (s.inc f i n).power = s.power :=
  s.power_wr h i _

@[simp] theorem State.power_putBit {f : Field} (h : f.reg ≠ .PWR_DOM_STATUS) (i k : Nat) (b : Bool) :
    (s.putBit f i k b).power = s.power := s.power_wr h i _

@[simp] theorem State.power_raise {f : Field} (h : f.reg ≠ .PWR_DOM_STATUS) (i : Nat) : (s.raise f i).power = s.power :=
  State.power_of_rd (s.raise_pwr f i) fun g _ hg => s.rd_raise_of_reg (by rw [hg]; rfl) (by rw [hg]; exact h)

@[simp] theorem State.power_setHart (k : Nat) (h : Hart) : (s.setHart k h).power = s.power := rfl
@[simp] theorem State.power_setCsr (k n v : Nat) : (s.setCsr k n v).power = s.power := rfl
@[simp] theorem State.power_setL2 (cl : Nat) (l : L2State) : (s.setL2 cl l).power = s.power := rfl
@[simp] theorem State.power_setLine (cl line : Nat) (x : L2Line) : (s.setLine cl line x).power = s.power := rfl
@[simp] theorem State.power_setGuest (g : Nat) (x : GuestSite) : (s.setGuest g x).power = s.power := rfl
@[simp] theorem State.power_setAln (lp : Nat) (x : AlnPort) : (s.setAln lp x).power = s.power := rfl
@[simp] theorem State.power_setRing (r : Nat) (x : Ring) : (s.setRing r x).power = s.power := rfl
@[simp] theorem State.power_setPort (p : Nat) (x : PciePort) : (s.setPort p x).power = s.power := rfl
@[simp] theorem State.power_send (m : CohMsg) : (s.send m).power = s.power := rfl
@[simp] theorem State.power_ledger (kind i n : Nat) : (s.ledger kind i n).power = s.power := rfl
@[simp] theorem State.power_onProof (k : Nat) (f : Proof → Proof) : (s.onProof k f).power = s.power := rfl
@[simp] theorem State.power_endMiss (k : Nat) : (s.endMiss k).power = s.power := rfl

end

/-- A fold of an operation that leaves the controller alone leaves it alone. -/
theorem State.power_foldl {α : Type} {f : State → α → State} (h : ∀ s a, (f s a).power = s.power) (l : List α) (s : State) :
    (l.foldl f s).power = s.power :=
  List.foldlRecOn (motive := fun t : State => t.power = s.power) l f rfl fun t ht a _ => (h t a).trans ht

/-- A list of registers with the entries of some registers taken out. -/
theorem State.power_filter_regs (s : State) {p : RegKey × Nat → Bool} (h : ∀ e : RegKey × Nat, e.1.reg = .PWR_DOM_STATUS → p e = true) :
    State.power { s with regs := s.regs.filter p } = s.power :=
  State.power_of_rd rfl fun _ _ hf => (Tbl.get_filter_of_key (b := true) s.regs (fun _ => h _ hf) _).trans (if_pos rfl)

/-! ### Harts: counters, worlds and traps -/

section
variable (s : State) (k : Nat)

@[simp] theorem State.power_mipBit (n : Nat) (b : Bool) : (s.mipBit k n b).power = s.power := rfl

@[simp] theorem State.power_perfWrap (n : Nat) : (s.perfWrap k n).power = s.power := by
  simp only [State.perfWrap, apply_ite State.power, State.power_mipBit, State.power_setCsr, ite_self]

@[simp] theorem State.power_perf (code n : Nat) : (s.perf k code n).power = s.power := by
  refine State.power_foldl (fun t j => ?_) _ s
  simp only [apply_ite State.power, State.power_perfWrap, State.power_setCsr, ite_self]

@[simp] theorem State.power_clearPred : (s.clearPred k).power = s.power := (State.power_perf ..).trans (s.power_setHart ..)

@[simp] theorem State.power_setNs (b : Bool) : (s.setNs k b).power = s.power := by
  simp (disch := decide) only [State.setNs, apply_ite State.power, State.power_clearPred, State.power_perf, State.power_wr, ite_self]

@[simp] theorem State.power_retire (next : Nat) : (s.retire k next).power = s.power :=
  (State.power_wr _ (by decide) ..).trans (s.power_setHart ..)

@[simp] theorem State.power_loopFault (cause pc : Nat) : (s.loopFault k cause pc).power = s.power := by
  simp (disch := decide) only [State.loopFault, apply_ite State.power, State.power_wr, State.power_setHart, ite_self]

@[simp] theorem State.power_trapM (cause tval pc : Nat) (intr : Bool) : (s.trapM k cause tval pc intr).power = s.power := by
  simp (disch := decide) only [State.trapM, State.power_setHart, State.power_wr, State.power_setCsr, State.power_setNs]

@[simp] theorem State.power_trapS (cause tval pc : Nat) (intr : Bool) : (s.trapS k cause tval pc intr).power = s.power := by
  simp (disch := decide) only [State.trapS, State.power_setHart, State.power_wr, State.power_setCsr]

@[simp] theorem State.power_takeException (cause tval pc : Nat) : (s.takeException k cause tval pc).power = s.power := by
  simp only [State.takeException, apply_ite State.power, State.power_trapM, State.power_trapS, State.power_perf, State.power_loopFault,
    ite_self]

end

/-! ### Caches and proofs -/

section
variable (s : State) (cl line : Nat)

@[simp] theorem State.power_dropL1 : (s.dropL1 cl line).power = s.power := State.power_foldl (fun t k => t.power_setHart k _) _ s

@[simp] theorem State.power_dropLine : (s.dropLine cl line).power = s.power := (State.power_dropL1 ..).trans (s.power_setL2 ..)

@[simp] theorem State.power_unpin (lines : List Nat) : (s.unpin cl lines).power = s.power := by
  refine State.power_foldl (fun t l => ?_) _ s
  simp only [apply_ite State.power, State.power_send, ite_self]

@[simp] theorem State.power_answerData (requester : Option Nat) (dirty evicting poison : Bool) (data : List (BitVec 8)) :
    (s.answerData cl line requester dirty evicting poison data).power = s.power := by
  cases requester <;> rfl

@[simp] theorem State.power_answerSnoop (h : HeldSnoop) (lost : Bool) : (s.answerSnoop cl h lost).power = s.power := by
  unfold State.answerSnoop
  dsimp only
  repeat' split
  all_goals simp (disch := decide) only [State.power_send, State.power_answerData, State.power_setLine, State.power_dropLine, State.power_inc]

@[simp] theorem State.power_releaseHeld (k : Nat) (lost : List Nat) : (s.releaseHeld k lost).power = s.power :=
  (State.power_foldl (fun t h => t.power_answerSnoop _ h _) _ _).trans (s.power_setL2 ..)

@[simp] theorem State.power_giveUp (awaited lines : List Nat) : (s.giveUp cl awaited lines).power = s.power := by
  refine State.power_foldl (fun t l => ?_) lines s
  simp only [apply_ite State.power, State.power_send, State.power_setL2, State.power_dropLine, ite_self]

@[simp] theorem State.power_with_groups (g : Tbl Nat Group) : State.power { s with groups := g } = s.power := rfl

/-- An abort recorded for the arbiter of the proof's group (R280). -/
def State.groupNote (p : Proof) (k cause : Nat) : State :=
  match p.group with
  | some g =>
    if cause = 8 then s else
    match Tbl.find s.groups g with
    | some x => { s with groups := Tbl.put s.groups g { x with aborts := x.aborts ++ [(k, cause)] } }
    | none => s
  | none => s

@[simp] theorem State.power_groupNote (p : Proof) (k cause : Nat) : (s.groupNote p k cause).power = s.power := by
  unfold State.groupNote
  repeat' split
  all_goals rfl

@[simp] theorem State.power_proofAbort (k cause user : Nat) (awaiting : List Nat) :
    (s.proofAbort k cause line user awaiting).power = s.power := by
  unfold State.proofAbort
  cases (s.hart k).proof with
  | none => rfl
  | some p =>
    change (State.releaseHeld (State.groupNote _ p k cause) k p.writes).power = _
    simp (disch := decide) only [State.power_releaseHeld, State.power_groupNote, apply_ite State.power, State.power_perf,
      State.power_ledger, State.power_inc, State.power_unpin, State.power_giveUp, State.power_setL2, State.power_wr,
      State.power_setHart, ite_self]

end

/-! ### Requests of an L2 and the merging buffer -/

section
variable (s : State) (k line : Nat)

@[simp] theorem State.power_localAccess (excl : Bool) : (s.localAccess k line excl).2.power = s.power := by
  simp only [State.localAccess, apply_ite Prod.snd, apply_ite State.power, State.power_proofAbort, ite_self]
  split
  · rfl
  · refine State.power_foldl (fun t j => ?_) _ s
    split
    · exact State.power_proofAbort ..
    · rfl

@[simp] theorem State.power_l2Evict (cl : Nat) : (s.l2Evict cl line).power = s.power := by
  unfold State.l2Evict
  split
  · rfl
  · simp only [State.power_send, State.power_setL2, State.power_dropLine]

@[simp] theorem State.power_l2Way : (s.l2Way k line).2.power = s.power := by
  unfold State.l2Way
  dsimp only
  repeat' split
  all_goals simp only [State.power_proofAbort, State.power_l2Evict]
  refine State.power_foldl (fun t j => ?_) _ s
  simp only [apply_ite State.power, State.power_proofAbort, ite_self]

/-- A way is looked for unless the request upgrades a line that is held. -/
theorem State.power_wayFor {p : Prop} [Decidable p] : (if p then (true, s) else s.l2Way k line).2.power = s.power := by
  simp only [apply_ite Prod.snd, apply_ite State.power, State.power_l2Way, ite_self]

@[simp] theorem State.power_l2Ask (kind : L2Req) (drain : Bool) : (s.l2Ask k line kind drain).power = s.power := by
  have hway := s.power_wayFor k line (p := kind = .upgrade)
  unfold State.l2Ask
  dsimp only
  split
  · rfl
  · split
    · rfl
    · simp (disch := decide) only [apply_ite State.power, State.power_send, State.power_perf, State.power_inc, State.power_setL2, hway,
        ite_self]

@[simp] theorem State.power_l2Own (drain : Bool) : (s.l2Own k line drain).2.power = s.power := by
  unfold State.l2Own
  repeat' split
  all_goals simp only [State.power_l2Ask]

@[simp] theorem State.power_markWrite : (s.markWrite k line).2.power = s.power := by
  unfold State.markWrite
  cases (s.hart k).proof with
  | none => rfl
  | some p =>
    dsimp only
    split
    · rfl
    · split
      · simp only [State.power_proofAbort]
      · simp only [State.when, apply_ite State.power, State.power_send, State.power_onProof, ite_self]
        split
        · simp only [apply_ite State.power, State.power_send, ite_self]
        · rfl

@[simp] theorem State.power_dropPeers : (s.dropPeers k line).power = s.power := State.power_foldl (fun t j => t.power_setHart j _) _ s

@[simp] theorem State.power_l2Write (b : Tbl Nat (BitVec 8)) : (s.l2Write k line b).power = s.power := by
  unfold State.l2Write
  split
  · rfl
  · exact (State.power_dropPeers ..).trans (s.power_setLine ..)

end

section
variable (s : State) (k : Nat)

@[simp] theorem State.power_drainAs (asked : Bool) : (s.drainAs k asked).power = s.power := by
  unfold State.drainAs
  cases (s.hart k).mb with
  | nil => rfl
  | cons e rest =>
    simp (disch := decide) only [apply_ite State.power, State.power_send, State.power_setHart, State.power_l2Write, State.power_markWrite,
      State.power_l2Own, State.power_localAccess, State.when, State.power_inc, ite_self]

@[simp] theorem State.power_drainAll : (s.drainAll k).2.power = s.power := State.power_foldl (fun t _ => t.power_drainAs k false) _ s

@[simp] theorem State.power_exception (cause tval pc line : Nat) : (s.exception k cause tval pc line).power = s.power := by
  simp only [State.exception, apply_ite State.power, apply_ite Prod.snd, State.power_proofAbort, State.power_takeException,
    State.power_drainAll, State.power_endMiss, ite_self]

@[simp] theorem State.power_ioLoad (a : IoAccess) (v : Nat) : (s.ioLoad k a v).power = s.power :=
  (State.power_retire ..).trans (s.power_setHart ..)

@[simp] theorem State.power_ioDone (data : Option (List (BitVec 8))) : (s.ioDone k data).power = s.power := by
  unfold State.ioDone
  cases (s.hart k).io with
  | none => rfl
  | some a =>
    cases data <;> simp only [apply_ite State.power, State.power_retire, State.power_setHart, State.power_ioLoad, State.power_exception,
      ite_self]

@[simp] theorem State.power_groupAbort (g core cause other : Nat) : (s.groupAbort g core cause other).power = s.power := by
  have hjoined (t : State) (ks : List Nat) : (ks.foldl (fun s k =>
      if (s.hart k).proof.any (fun p => p.group == some g) then s.proofAbort k other 0 0 else s) t).power = t.power := by
    refine State.power_foldl (fun u j => ?_) ks t
    simp only [apply_ite State.power, State.power_proofAbort, ite_self]
  unfold State.groupAbort
  cases Tbl.find s.groups g with
  | none => rfl
  | some x =>
    dsimp only
    split
    · rfl
    · split <;> simp (disch := decide) only [State.power_with_groups, State.power_wr, hjoined]

@[simp] theorem State.power_clearProof : (s.clearProof k).power = s.power := by
  unfold State.clearProof
  cases (s.hart k).proof with
  | none => rfl
  | some p => simp (disch := decide) only [State.power_releaseHeld, State.power_unpin, State.power_wr, State.power_setHart]

@[simp] theorem State.power_endProof : (s.endProof k).power = s.power := by
  unfold State.endProof
  cases (s.hart k).proof with
  | none => rfl
  | some p =>
    dsimp only
    split
    · exact s.power_clearProof k
    · split <;> simp only [State.power_groupAbort, State.power_proofAbort]

@[simp] theorem State.power_coreHeld : (s.coreHeld k).power = s.power := by
  simp (disch := decide) only [State.coreHeld, State.power_wr]
  exact s.power_endProof k

end

/-! ### Rings, ports and links -/

section
variable (s : State)

@[simp] theorem State.power_ringGo (r st : Nat) : (s.ringGo r st).power = s.power := by
  simp (disch := decide) only [State.ringGo, apply_ite State.power, State.power_wr, State.power_putBit, ite_self]

@[simp] theorem State.power_shareSettle (sl : Nat) : (s.shareSettle sl).power = s.power := by
  simp (disch := decide) only [State.shareSettle, apply_ite State.power, State.power_wr, ite_self]

@[simp] theorem State.power_engineFree (j : StpJob) : (s.engineFree j).power = s.power := by
  unfold State.engineFree
  cases j.engine with
  | none => rfl
  | some e =>
    simp (disch := decide) only [State.power_shareSettle, State.stpBusy, State.power_wr]
    rfl

@[simp] theorem State.power_with_stp (x : StpState) : State.power { s with stp := x } = s.power := rfl
@[simp] theorem State.power_with_dir (x : DirState) : State.power { s with dir := x } = s.power := rfl

/-- The job of a ring that runs is failed (R322). -/
def State.jobDropped (r : Nat) : State :=
  match s.stp.running.find? (fun j => j.ring == r) with
  | some j => ((s.engineFree j).inc F.STP_CNT0.JOBS_FAILED).when (j.engine.isSome) (·.raise F.STP_ENG_STATUS.EVT_FAIL (j.engine.getD 0))
  | none => s

@[simp] theorem State.power_jobDropped (r : Nat) : (s.jobDropped r).power = s.power := by
  unfold State.jobDropped
  split
  · simp (disch := decide) only [State.when, apply_ite State.power, State.power_raise, State.power_inc, State.power_engineFree, ite_self]
  · rfl

@[simp] theorem State.power_abandonUnits (r : Nat) : (s.abandonUnits r).power = s.power := by
  change State.power (State.jobDropped _ r) = _
  simp (disch := decide) only [State.power_jobDropped, State.power_with_stp, State.when, apply_ite State.power, State.power_inc, ite_self]

@[simp] theorem State.power_halt (r cause status : Nat) : (s.halt r cause status).power = s.power := by
  simp (disch := decide) only [State.halt, apply_ite State.power, State.power_raise, State.power_ringGo, State.power_wr,
    State.power_setRing, State.power_abandonUnits, ite_self]

@[simp] theorem State.power_haltPort (p : Nat) : (s.haltPort p).power = s.power := by
  refine State.power_foldl (fun t r => ?_) _ s
  simp only [apply_ite State.power, State.power_halt, ite_self]

@[simp] theorem State.power_failCoreReads (p : Nat) : (s.failCoreReads p).power = s.power :=
  State.power_foldl (fun t _ => t.power_ioDone _ none) _ s

@[simp] theorem State.power_clearMsix (p : Nat) : (s.clearMsix p).power = s.power :=
  s.power_filter_regs fun e he => by simp [he]

@[simp] theorem State.power_functionReset (p : Nat) (keepBar : Bool) : (s.functionReset p keepBar).power = s.power := by
  simp (disch := decide) only [State.functionReset, State.power_raise, State.power_wr, State.power_clearMsix, State.power_setPort,
    State.power_failCoreReads, State.power_haltPort]

@[simp] theorem State.power_conventionalReset (p : Nat) : (s.conventionalReset p).power = s.power :=
  (State.power_setPort ..).trans (s.power_functionReset p false)

@[simp] theorem State.power_linkDown (p : Nat) : (s.linkDown p).power = s.power := by
  simp (disch := decide) only [State.linkDown, apply_ite State.power, State.power_raise, State.power_inc, State.power_wr, ite_self]

@[simp] theorem State.power_alnSummary (n : Nat) : (s.alnSummary n).power = s.power := by
  simp (disch := decide) only [State.alnSummary, State.power_wr, State.power_putBit]

theorem stateF_reg_ne (lp : Nat) : (stateF lp).reg ≠ .PWR_DOM_STATUS := by
  unfold stateF
  split <;> decide

theorem widthF_reg_ne (lp : Nat) : (widthF lp).reg ≠ .PWR_DOM_STATUS := by
  unfold widthF
  split <;> decide

@[simp] theorem State.power_alnGo (lp st : Nat) : (s.alnGo lp st).power = s.power := by
  simp only [State.alnGo, State.power_alnSummary, State.power_wr _ (widthF_reg_ne lp), State.power_wr _ (stateF_reg_ne lp)]

@[simp] theorem State.power_alnBase (lp : Nat) : (s.alnBase lp).power = s.power := by
  simp (disch := decide) only [State.alnBase, State.power_alnGo, State.power_wr, State.power_setAln]

end

/-! ### Entering OFF and leaving it -/

section
variable (s : State) (d : Nat)

/-- PWR_DOM_STATUS belongs to domain 60, which keeps its own. -/
@[simp] theorem State.power_clearRegs : (s.clearRegs d).power = s.power := by
  refine s.power_filter_regs fun e he => ?_
  by_cases hd : d = 60
  · simp [hd]
  · have hhome : regHome e.1.reg e.1.idx = 60 := by rw [he]; rfl
    simp [hhome, Ne.symm hd]

theorem State.power_enterOff : (s.enterOff d).power = s.power := by
  unfold State.enterOff
  split
  · refine (State.power_foldl (fun t c => ?_) _ _).trans (s.power_setL2 ..)
    exact (t.setHart c Hart.init).power_wr (f := F.CORE_STATUS.STATE) (by decide) c 0
  · split
    · simp only [apply_ite State.power, State.power_conventionalReset, State.power_linkDown, ite_self]
    · dsimp only
      split
      · refine State.power_foldl (fun t lp => ?_) _ s
        simp only [apply_ite State.power, State.power_alnGo, State.power_setAln, ite_self]
      · rfl

/-- The ports of a site that were taken down start again. -/
theorem State.power_portsBase (lps : List Nat) :
    (lps.foldl (fun s lp => if (s.alnPort lp).down then s.alnBase lp else s) s).power = s.power := by
  refine State.power_foldl (fun t lp => ?_) lps s
  simp only [apply_ite State.power, State.power_alnBase, ite_self]

/-- Either branch leaves the controller alone. -/
theorem State.power_ite {s a b : State} {c : Prop} [Decidable c] (ha : a.power = s.power) (hb : b.power = s.power) :
    (if c then a else b).power = s.power := by
  rw [apply_ite State.power, ha, hb, ite_self]

theorem State.power_powerOn : (s.powerOn d).power = s.power := by
  rw [← s.power_clearRegs d]
  unfold State.powerOn
  extract_lets t
  refine State.power_ite ?cluster (State.power_ite (t.power_portsBase _) (State.power_ite ?directory (State.power_ite rfl
    (State.power_ite ?controllers (State.power_ite rfl (State.power_ite rfl (State.power_ite rfl (State.power_ite rfl
    (State.power_ite rfl (State.power_ite rfl (State.power_ite rfl (State.power_ite ?guest rfl))))))))))))
  case cluster => exact (State.power_foldl State.power_coreHeld _ _).trans (t.power_setL2 ..)
  case directory =>
    refine (State.power_with_dir _ _).trans (State.power_foldl (fun u k => ?_) _ t)
    exact u.power_putBit (f := F.DIR_STATUS.READY) (by decide) 0 _ false
  case controllers =>
    refine State.power_foldl (fun u c => ?_) _ t
    exact State.power_ite rfl (State.power_ite (u.power_wr (f := F.MEM_CTL_STATUS.INIT_DONE) (by decide) c 1) rfl)
  case guest => exact (State.power_portsBase ..).trans (t.power_setGuest ..)

end

end Sys2Proof.Machine
end

section
/-!
SUPPORT. Power requests, held requests, wakes and transitions: the branch that the judgement of a request picks.
-/

namespace Sys2Proof.Machine

/-! ## The refusal table (R486): it keeps its entries' order in the controller, and all else in PWR_REFTAB and PWR_STATUS -/

section
variable (s : State)

theorem State.power_with_order {s t : State} (h : t.power = s.power) (order : List Nat) :
    State.power { t with pwr := { t.pwr with order := order } } = ({ s.pwr with order := order }, s.power.2) :=
  Prod.ext (congrArg (fun p : PwrState => { p with order := order }) (State.pwr_of_power h)) (Prod.ext_iff.mp h).2

theorem State.power_reftab (d code core : Nat) (aborted : Bool) :
    ∃ order, (s.reftab d code core aborted).power = ({ s.pwr with order := order }, s.power.2) := by
  unfold State.reftab
  split
  · exact ⟨s.pwr.order, rfl⟩
  · obtain ⟨i, newEntry⟩ := s.reftabSlot d
    refine ⟨_, State.power_with_order ?_ _⟩
    simp (disch := decide) only [apply_ite State.power, State.when, State.power_inc, State.power_wr, ite_self]

variable (d code core : Nat) (aborted : Bool)

theorem State.req_reftab : (s.reftab d code core aborted).pwr.req = s.pwr.req := by
  obtain ⟨order, h⟩ := s.power_reftab d code core aborted
  exact congrArg (fun p => p.1.req) h

theorem State.queue_reftab : (s.reftab d code core aborted).pwr.queue = s.pwr.queue := by
  obtain ⟨order, h⟩ := s.power_reftab d code core aborted
  exact congrArg (fun p => p.1.queue) h

theorem State.rd_reftab {f : Field} (hf : f.reg = .PWR_DOM_STATUS) (i : Nat) :
    (s.reftab d code core aborted).rd f i = s.rd f i := by
  obtain ⟨order, h⟩ := s.power_reftab d code core aborted
  have hrd := congrFun (congrFun (congrArg Prod.snd h) f) i
  simpa only [State.power, if_pos hf] using hrd

end

/-! ## The arbiter's queue and PWR_STATUS (R482) -/

section
variable (s : State)

theorem State.pwr_pwrStatus : s.pwrStatus.pwr = s.pwr := rfl

theorem State.rd_pwrStatus_of_reg {f : Field} (hf : f.reg ≠ .PWR_STATUS) (i : Nat) : s.pwrStatus.rd f i = s.rd f i :=
  (State.rd_wr_of_reg _ _ hf.symm).trans (State.rd_wr_of_reg _ _ hf.symm)

theorem State.rd_transitions_pwrStatus :
    s.pwrStatus.rd F.PWR_STATUS.TRANSITIONS = (s.pwr.running.flatMap (·.doms)).length % 2 ^ 7 :=
  (State.rd_wr_of_lo _ _ (by decide)).trans (State.rd_wr_self ..)

/-- A domain that is not yet in the state asked for joins the queue alone. -/
theorem State.enqueue_one {d target : Nat} (h : s.rd F.PWR_DOM_STATUS.STATE d ≠ target) (wake : Nat) :
    s.enqueue [d] target wake = State.pwrStatus { s with pwr := { s.pwr with
      queue := s.pwr.queue.filter (fun t => !t.doms.any [d].contains) ++ [PwrTrans.mk [d] target wake] } } := by
  have hdoms : [d].filter (fun d => s.rd F.PWR_DOM_STATUS.STATE d != target) = [d] := by simp [h]
  simp only [State.enqueue, hdoms, List.isEmpty_cons, Bool.false_eq_true, if_false]

theorem State.mem_queue_enqueue_one {d target : Nat} (h : s.rd F.PWR_DOM_STATUS.STATE d ≠ target) (wake : Nat) :
    PwrTrans.mk [d] target wake ∈ (s.enqueue [d] target wake).pwr.queue := by
  rw [State.enqueue_one s h, State.pwr_pwrStatus]
  exact List.mem_append_right _ (List.mem_singleton.mpr rfl)

theorem State.rd_enqueue_one {d target : Nat} (h : s.rd F.PWR_DOM_STATUS.STATE d ≠ target) (wake : Nat) {f : Field}
    (hf : f.reg ≠ .PWR_STATUS) (i : Nat) : (s.enqueue [d] target wake).rd f i = s.rd f i := by
  rw [State.enqueue_one s h, State.rd_pwrStatus_of_reg _ hf]
  rfl

end

/-! ## A request is judged (R481, R483) -/

section
variable {s : State} {d : Nat} {r : PwrReq}

/-- A request that passes is taken off the held ones and its TARGET is set. -/
def State.accepted (s : State) (d target : Nat) : State :=
  (State.wr { s with pwr := { s.pwr with req := Tbl.erase s.pwr.req d } } F.PWR_DOM_STATUS.PENDING d 0).wr F.PWR_DOM_CTL.TARGET d target

variable (hgoes : ¬(r.target = 1 ∧ s.rd F.PWR_DOM_STATUS.STATE d = 2)) (first : Bool)
include hgoes

theorem State.judge_of_passed (hpass : s.refuser d r.target r.secure = none) : s.judge d r first =
    if r.target = 0 then
      if (s.accepted d r.target).rd F.PWR_DOM_STATUS.STATE d = 0 then { s.accepted d r.target with
        pwr := { (s.accepted d r.target).pwr with queue := (s.accepted d r.target).pwr.queue.filter (fun t => !t.doms.contains d) } }
      else ((s.accepted d r.target).recordWake d 1).enqueue [d] 0 1
    else (s.accepted d r.target).enqueue [d] r.target 0 := by
  have hgoes' : ¬((Decidable.decide (r.target = 1) && Decidable.decide (s.rd F.PWR_DOM_STATUS.STATE d = 2)) = true) := by simpa using hgoes
  rw [State.judge, if_neg hgoes', hpass]
  rfl

theorem State.judge_of_refused {code core : Nat} (hrefused : s.refuser d r.target r.secure = some (code, core))
    (hhold : r.hold = false) : s.judge d r true = State.wr { s.recordRefusal d code core with
      pwr := { (s.recordRefusal d code core).pwr with req := Tbl.erase (s.recordRefusal d code core).pwr.req d } }
      F.PWR_DOM_STATUS.PENDING d 0 := by
  have hgoes' : ¬((Decidable.decide (r.target = 1) && Decidable.decide (s.rd F.PWR_DOM_STATUS.STATE d = 2)) = true) := by simpa using hgoes
  rw [State.judge, if_neg hgoes', hrefused]
  simp only [hhold, if_true, Bool.false_eq_true, if_false]

end

theorem State.rd_accepted_of_lo (s : State) {d target : Nat} {f : Field} (hf : f.reg = .PWR_DOM_STATUS)
    (hlo : F.PWR_DOM_STATUS.PENDING.lo ≠ f.lo) : (s.accepted d target).rd f d = s.rd f d :=
  (State.rd_wr_of_reg _ _ (by rw [hf]; decide)).trans (State.rd_wr_of_lo _ _ hlo)

theorem State.rd_pending_accepted (s : State) (d target : Nat) : (s.accepted d target).rd F.PWR_DOM_STATUS.PENDING d = 0 :=
  (State.rd_wr_of_reg _ _ (by decide)).trans (State.rd_wr_self ..)

theorem State.rd_target_accepted (s : State) (d : Nat) {target : Nat} (h : target < 4) :
    (s.accepted d target).rd F.PWR_DOM_CTL.TARGET d = target :=
  (State.rd_wr_self ..).trans (Nat.mod_eq_of_lt h)

section
variable (s : State) (d code core : Nat)

theorem State.rd_refused_recordRefusal : (s.recordRefusal d code core).rd F.PWR_DOM_STATUS.REFUSED d = 1 := by
  rw [State.recordRefusal, State.rd_raise_of_lo _ (by decide) (by decide)]
  exact (State.rd_reftab _ _ _ _ _ rfl d).trans (State.rd_wr_self ..)

theorem State.rd_event_recordRefusal : (s.recordRefusal d code core).rd F.PWR_DOM_STATUS.EVT_REFUSED d = 1 :=
  State.rd_raise_self _ _ _ (by decide) rfl

theorem State.queue_recordRefusal : (s.recordRefusal d code core).pwr.queue = s.pwr.queue := by
  rw [State.recordRefusal, State.raise_pwr]
  exact State.queue_reftab ..

theorem State.rd_state_recordRefusal : (s.recordRefusal d code core).rd F.PWR_DOM_STATUS.STATE d = s.rd F.PWR_DOM_STATUS.STATE d := by
  rw [State.recordRefusal, State.rd_raise_of_lo _ (by decide) (by decide)]
  refine (State.rd_reftab _ _ _ _ _ rfl d).trans ?_
  rw [State.rd_wr_of_lo _ _ (by decide), State.rd_wr_of_lo _ _ (by decide)]

end

/-! ## A write of PWR_DOM_CTL by the secure world (R481) -/

/-- HOLD, OWNER_S and LOCK_P take the data of a secure write. -/
def State.pwrHeld (s : State) (d v : Nat) : State :=
  ((s.wr F.PWR_DOM_CTL.HOLD d (bits v 2 1)).wr F.PWR_DOM_CTL.OWNER_S d (bits v 3 1)).wr F.PWR_DOM_CTL.LOCK_P d (bits v 4 1)

theorem State.power_pwrHeld (s : State) (d v : Nat) : (s.pwrHeld d v).power = s.power := by
  simp (disch := decide) only [State.pwrHeld, State.power_wr]

theorem State.rd_pwrHeld (s : State) (d v : Nat) {f : Field} (hf : f.reg = .PWR_DOM_STATUS) : (s.pwrHeld d v).rd f d = s.rd f d :=
  State.rd_of_power (s.power_pwrHeld d v) hf d

section
variable {s : State} {d v : Nat} (hd : d < 100) (htakes : s.takesWrite .secure .PWR_DOM_CTL d = true) (hv : v % 4 ≠ 3)
include hd htakes hv

theorem exec_pwrTargetWrite_of_takes :
    exec (.pwrTargetWrite .secure d v) s = .next ((s.pwrHeld d v).request d (v % 4) true (v.testBit 2)) := by
  have hbits : bits v 0 2 = v % 4 := by
    rw [bits, Nat.shiftRight_zero]
    rfl
  change Host.Outcome.next (if d < 100 then s.withReg .secure .PWR_DOM_CTL d (·.pwrCtl .secure d v) else s) = _
  rw [if_pos hd, State.withReg_of_takes htakes, State.pwrCtl, hbits, if_neg hv]
  rfl

theorem exec_pwrTargetWrite_in_transition (htrans : s.inTransition d = true) :
    exec (.pwrTargetWrite .secure d v) s = .next (State.wr { s.pwrHeld d v with
      pwr := { s.pwr with req := Tbl.put s.pwr.req d (PwrReq.mk (v % 4) true (v.testBit 2) 1) } } F.PWR_DOM_STATUS.PENDING d 1) := by
  have htrans' : (s.pwrHeld d v).inTransition d = true := htrans
  rw [exec_pwrTargetWrite_of_takes hd htakes hv, State.request, if_pos htrans']
  rfl

theorem exec_pwrTargetWrite_out_of_transition (htrans : s.inTransition d = false) :
    exec (.pwrTargetWrite .secure d v) s = .next ((s.pwrHeld d v).judge d (PwrReq.mk (v % 4) true (v.testBit 2) 1) true) := by
  have htrans' : ¬((s.pwrHeld d v).inTransition d = true) := Bool.eq_false_iff.mp htrans
  rw [exec_pwrTargetWrite_of_takes hd htakes hv, State.request, if_neg htrans']

end

theorem State.refuser_of_secure_on (s : State) (d : Nat) : s.refuser d 0 true = none := by
  simp only [State.refuser, Bool.not_true, Bool.false_and, Bool.false_eq_true, if_false, if_true]

/-! ## Held requests (R481, R487) -/

section
variable {s : State} {d : Nat} {r : PwrReq} (hreq : Tbl.find s.pwr.req d = some r) (htrans : s.inTransition d = false)
include hreq htrans

theorem exec_pwrHoldRecheck_of_held : exec (.pwrHoldRecheck d) s = .next (s.judge d r false) := by
  change Host.Outcome.next (s.holdRecheck d) = _
  rw [State.holdRecheck, hreq]
  exact congrArg _ (if_neg (Bool.eq_false_iff.mp htrans))

theorem exec_pwrHoldAbort_of_passed (hpass : s.refuser d r.target r.secure = none) :
    exec (.pwrHoldAbort d) s = .next (s.judge d r false) := by
  change Host.Outcome.next (s.holdAbort d) = _
  simp only [State.holdAbort, hreq, htrans, hpass, Bool.false_eq_true, if_false]

/-- A held request that is aborted, up to its event. -/
def State.aborted (s : State) (d code core : Nat) : State :=
  ((State.wr { s with pwr := { s.pwr with req := Tbl.erase s.pwr.req d } } F.PWR_DOM_STATUS.PENDING d 0).wr F.PWR_DOM_STATUS.LAST_REFUSER d
    code).reftab d code core true

theorem exec_pwrHoldAbort_of_refused {code core : Nat} (hrefused : s.refuser d r.target r.secure = some (code, core)) :
    exec (.pwrHoldAbort d) s = .next ((s.aborted d code core).raise F.PWR_DOM_STATUS.EVT_ABORTED d) := by
  change Host.Outcome.next (s.holdAbort d) = _
  simp only [State.holdAbort, hreq, htrans, hrefused, Bool.false_eq_true, if_false, State.aborted]

end

theorem State.rd_lastRefuser_aborted (s : State) (d code core : Nat) :
    (s.aborted d code core).rd F.PWR_DOM_STATUS.LAST_REFUSER d = code % 2 ^ F.PWR_DOM_STATUS.LAST_REFUSER.w :=
  (State.rd_reftab _ _ _ _ _ rfl d).trans (State.rd_wr_self ..)

theorem State.rd_pending_aborted (s : State) (d code core : Nat) : (s.aborted d code core).rd F.PWR_DOM_STATUS.PENDING d = 0 :=
  (State.rd_reftab _ _ _ _ _ rfl d).trans ((State.rd_wr_of_lo _ _ (by decide)).trans (State.rd_wr_self ..))

theorem State.find_req_aborted (s : State) (d code core : Nat) : Tbl.find (s.aborted d code core).pwr.req d = none := by
  rw [State.aborted, State.req_reftab]
  exact Tbl.find_erase_self ..

/-! ## Wakes (R484) -/

theorem exec_domainWake_of_not_held {s : State} {d : Nat} (hd : d < 100) (hheld : s.held = false) (code : Nat) :
    exec (.domainWake d code) s = .next (s.wake d code) := by
  change execDomainWake _ _ _ = _
  simp only [execDomainWake, hd, hheld, decide_true, Bool.not_false, Bool.and_self, if_true]

section
variable {s : State} {d code : Nat} (htrans : s.inTransition d = false)
include htrans

theorem State.wake_of_idle : s.wake d code = if s.rd F.PWR_DOM_STATUS.STATE d = 0 ||
    (s.rd F.PWR_DOM_STATUS.STATE d = 2 && !(code == 1 || code == 4 || code == 7)) ||
    s.pwr.queue.any (fun t => t.doms.contains d && t.target == 0) then s else (s.recordWake d code).enqueue [d] 0 code := by
  have hnone : s.pwr.running.find? (fun t => t.doms.contains d) = none :=
    List.find?_eq_none.mpr fun t ht => by simpa using List.any_eq_false.mp htrans t ht
  simp only [State.wake, hnone]

theorem State.wake_of_asleep (hqueue : s.pwr.queue.any (fun t => t.doms.contains d && t.target == 0) = false)
    (h : s.rd F.PWR_DOM_STATUS.STATE d = 1 ∨ s.rd F.PWR_DOM_STATUS.STATE d = 2 ∧ (code = 1 ∨ code = 4 ∨ code = 7)) :
    s.wake d code = (s.recordWake d code).enqueue [d] 0 code := by
  rw [State.wake_of_idle htrans, hqueue]
  refine if_neg ?_
  obtain h | ⟨h, hdeep⟩ := h
  · simp [h]
  · obtain rfl | rfl | rfl := hdeep <;> simp [h]

theorem State.wake_of_unheeded
    (h : s.rd F.PWR_DOM_STATUS.STATE d = 0 ∨ s.rd F.PWR_DOM_STATUS.STATE d = 2 ∧ code ≠ 1 ∧ code ≠ 4 ∧ code ≠ 7) :
    s.wake d code = s := by
  rw [State.wake_of_idle htrans]
  refine if_pos ?_
  obtain h | ⟨h, h1, h4, h7⟩ := h
  · simp [h]
  · simp [h, h1, h4, h7]

end

theorem State.rd_recordWake_of_lo (s : State) (d code : Nat) {f : Field} (hwake : F.PWR_DOM_STATUS.LAST_WAKE.lo ≠ f.lo)
    (hcount : F.PWR_DOM_STATUS.WAKES.lo ≠ f.lo) : (s.recordWake d code).rd f d = s.rd f d :=
  (State.rd_wr_of_lo _ _ hcount).trans (State.rd_wr_of_lo _ _ hwake)

theorem State.rd_lastWake_recordWake (s : State) (d code : Nat) :
    (s.recordWake d code).rd F.PWR_DOM_STATUS.LAST_WAKE d = code % 2 ^ F.PWR_DOM_STATUS.LAST_WAKE.w :=
  (State.rd_wr_of_lo _ _ (by decide)).trans (State.rd_wr_self ..)

theorem State.rd_wakes_recordWake (s : State) (d code : Nat) : (s.recordWake d code).rd F.PWR_DOM_STATUS.WAKES d =
    satAdd F.PWR_DOM_STATUS.WAKES.w (s.rd F.PWR_DOM_STATUS.WAKES d) 1 := by
  rw [State.recordWake, State.rd_inc_self, State.rd_wr_of_lo _ _ (by decide)]

/-! ## Transitions (R482, R485) -/

section
variable {s : State} {d tg w : Nat}

/-- The state in which the one transition that waits has started. -/
def State.started (s : State) (d tg w : Nat) : State :=
  State.wr { s with pwr := { s.pwr with ptr := rotNext 100 d, queue := [], running := [PwrTrans.mk [d] tg w] } }
    F.PWR_DOM_STATUS.TRANSITION d 1

theorem State.transitionStart_of_one (hd : d < 100) (hqueue : s.pwr.queue = [PwrTrans.mk [d] tg w]) (hrun : s.pwr.running = []) :
    s.transitionStart = (s.started d tg w).pwrStatus := by
  have hready : ([PwrTrans.mk [d] tg w].filter fun t => !(([] : List PwrTrans).any s.fromOff && s.fromOff t) && !t.doms.any s.inTransition) =
      [PwrTrans.mk [d] tg w] := by
    simp [State.inTransition, hrun]
  have hgrant : rotGrant 100 s.pwr.ptr (fun e => [PwrTrans.mk [d] tg w].any (fun t => t.doms.head? == some e)) = some d :=
    rotGrant_of_only hd (by simp) (by simpa using fun j _ h => h.symm) _
  simp only [State.transitionStart, hqueue, hrun, hready, hgrant]
  simp [State.started]

theorem exec_domainTransitionStart_of_one (hheld : s.held = false) (hd : d < 100) (hqueue : s.pwr.queue = [PwrTrans.mk [d] tg w])
    (hrun : s.pwr.running = []) : exec .domainTransitionStart s = .next (s.started d tg w).pwrStatus := by
  change Host.Outcome.next (if s.held then s else s.transitionStart) = _
  rw [hheld, State.transitionStart_of_one hd hqueue hrun]
  rfl

theorem State.pwrStatus_frame (s : State) : Frame false [] [F.PWR_STATUS.TRANSITIONS.at, F.PWR_STATUS.QUEUED.at] s s.pwrStatus :=
  ((Frame.refl s).wr _ (by simp)).wr _ (by simp)

theorem State.started_frame (s : State) (d tg w : Nat) : Frame false [.pwr] [F.PWR_DOM_STATUS.TRANSITION.at d] s (s.started d tg w) :=
  ((Frame.refl s).with_pwr (by simp)).wr _ (by simp)

/-- What the blocks of a domain do as it arrives in a state leaves the power controller alone (R485). -/
theorem State.power_arrive (s : State) (d tg was : Nat) :
    (if tg = 2 then s.enterOff d else if tg = 0 && was = 2 then s.powerOn d else s).power = s.power :=
  State.power_ite (s.power_enterOff d) (State.power_ite (s.power_powerOn d) rfl)

/-- The domain arrives, up to its event. -/
def State.arrived (s : State) (d tg : Nat) : State :=
  let was := s.rd F.PWR_DOM_STATUS.STATE d
  let t := (s.wr F.PWR_DOM_STATUS.STATE d tg).wr F.PWR_DOM_STATUS.TRANSITION d 0
  if tg = 2 then t.enterOff d else if tg = 0 && was = 2 then t.powerOn d else t

theorem State.domArrive_eq (s : State) (d tg : Nat) : s.domArrive d tg = (s.arrived d tg).raise F.PWR_DOM_STATUS.EVT_STATE d := rfl

theorem State.power_arrived (s : State) (d tg : Nat) :
    (s.arrived d tg).power = ((s.wr F.PWR_DOM_STATUS.STATE d tg).wr F.PWR_DOM_STATUS.TRANSITION d 0).power :=
  State.power_arrive _ d tg _

theorem State.pwr_domArrive (s : State) (d tg : Nat) : (s.domArrive d tg).pwr = s.pwr := by
  rw [State.domArrive_eq, State.raise_pwr, State.pwr_of_power (s.power_arrived d tg)]
  rfl

theorem State.rd_state_domArrive (s : State) (d : Nat) (h : tg < 3) : (s.domArrive d tg).rd F.PWR_DOM_STATUS.STATE d = tg := by
  rw [State.domArrive_eq, State.rd_raise_of_lo _ (by decide) (by decide), State.rd_of_power (s.power_arrived d tg) rfl,
    State.rd_wr_of_lo _ _ (by decide), State.rd_wr_self]
  exact Nat.mod_eq_of_lt (h.trans (by decide))

theorem State.rd_transition_domArrive (s : State) (d tg : Nat) : (s.domArrive d tg).rd F.PWR_DOM_STATUS.TRANSITION d = 0 := by
  rw [State.domArrive_eq, State.rd_raise_of_lo _ (by decide) (by decide), State.rd_of_power (s.power_arrived d tg) rfl]
  exact State.rd_wr_self ..

theorem State.rd_event_domArrive (s : State) (d tg : Nat) : (s.domArrive d tg).rd F.PWR_DOM_STATUS.EVT_STATE d = 1 :=
  State.rd_raise_self _ _ _ (by decide) rfl

/-- With no wake and no request waiting, nothing follows a transition. -/
theorem State.domFollow_of_none (hexits : Tbl.find s.pwr.exits d = none) (hreq : Tbl.find s.pwr.req d = none) :
    s.domFollow d tg = s := by
  simp only [State.domFollow, hexits, hreq]

theorem State.transitionDone_of_one (hrun : s.pwr.running = [PwrTrans.mk [d] tg w]) (hexits : Tbl.find s.pwr.exits d = none)
    (hreq : Tbl.find s.pwr.req d = none) : s.transitionDone d =
      (State.domArrive { s with pwr := { s.pwr with running := [] } } d tg).pwrStatus := by
  have hpwr := State.pwr_domArrive { s with pwr := { s.pwr with running := [] } } d tg
  have hfollow := State.domFollow_of_none (s := State.domArrive { s with pwr := { s.pwr with running := [] } } d tg) (d := d) (tg := tg)
    (by rw [hpwr]; exact hexits) (by rw [hpwr]; exact hreq)
  have hfind : [PwrTrans.mk [d] tg w].find? (fun t => t.doms.contains d) = some (PwrTrans.mk [d] tg w) := by simp
  have hrest : [PwrTrans.mk [d] tg w].filter (· ≠ PwrTrans.mk [d] tg w) = [] := by simp
  simp only [State.transitionDone, hrun, hfind, hrest, List.foldl_cons, List.foldl_nil, hfollow]

end

/-- Settles O55: the judgement of a request picks each branch, and what a transition's end runs in other blocks leaves the power
controller alone. -/
theorem powerRequestsAndTransitions : Obligations.PowerRequestsAndTransitions := by
  refine ⟨?write, ?held, ?wake, ?start, ?done⟩
  case write =>
    intro s d v hd htakes hv
    have hgoes : v % 4 = 2 ∨ (v % 4 = 1 ∧ s.rd F.PWR_DOM_STATUS.STATE d ≠ 2) →
        ¬(v % 4 = 1 ∧ (s.pwrHeld d v).rd F.PWR_DOM_STATUS.STATE d = 2) := by
      rw [s.rd_pwrHeld d v rfl]
      omega
    refine ⟨_, rfl, fun htrans => ?_, fun htrans hon hstate => ?_, fun code core htrans hoff hrefused hhold => ?_,
      fun htrans hoff hpass hstate => ?_⟩
    · rw [exec_pwrTargetWrite_in_transition hd htakes hv htrans]
      refine ⟨_, rfl, State.rd_wr_self .., Tbl.find_put_self .., ?_⟩
      exact (State.rd_wr_of_lo _ _ (by decide)).trans (s.rd_pwrHeld d v rfl)
    · have hstate' : ((s.pwrHeld d v).accepted d 0).rd F.PWR_DOM_STATUS.STATE d ≠ 0 := by
        rw [State.rd_accepted_of_lo _ rfl (by decide), s.rd_pwrHeld d v rfl]
        exact hstate
      refine ⟨(s.pwrHeld d v).accepted d 0, State.rd_pending_accepted .., State.rd_target_accepted _ d (by decide),
        Tbl.find_erase_self .., rfl, ?_⟩
      rw [exec_pwrTargetWrite_out_of_transition hd htakes hv htrans, hon,
        State.judge_of_passed (by simp) _ (State.refuser_of_secure_on _ d), if_pos rfl, if_neg hstate']
    · rw [exec_pwrTargetWrite_out_of_transition hd htakes hv htrans, State.judge_of_refused (hgoes hoff) hrefused hhold]
      refine ⟨_, rfl, ?_, ?_, State.rd_wr_self .., State.queue_recordRefusal .., ?_⟩
      · exact (State.rd_wr_of_lo _ _ (by decide)).trans (State.rd_refused_recordRefusal ..)
      · exact (State.rd_wr_of_lo _ _ (by decide)).trans (State.rd_event_recordRefusal ..)
      · exact (State.rd_wr_of_lo _ _ (by decide)).trans ((State.rd_state_recordRefusal ..).trans (s.rd_pwrHeld d v rfl))
    · have hne : v % 4 ≠ 0 := by omega
      have hstate' : ((s.pwrHeld d v).accepted d (v % 4)).rd F.PWR_DOM_STATUS.STATE d ≠ v % 4 := by
        rw [State.rd_accepted_of_lo _ rfl (by decide), s.rd_pwrHeld d v rfl]
        exact hstate
      rw [exec_pwrTargetWrite_out_of_transition hd htakes hv htrans, State.judge_of_passed (hgoes hoff) _ hpass, if_neg hne]
      refine ⟨_, rfl, ?_, ?_, State.mem_queue_enqueue_one _ hstate' 0⟩
      · rw [State.rd_enqueue_one _ hstate' 0 (by decide)]
        exact State.rd_target_accepted _ d (Nat.mod_lt v (by decide))
      · rw [State.rd_enqueue_one _ hstate' 0 (by decide)]
        exact State.rd_pending_accepted ..
  case held =>
    intro s d r hreq htrans
    refine ⟨exec_pwrHoldRecheck_of_held hreq htrans, exec_pwrHoldAbort_of_passed hreq htrans, fun code core hrefused => ?_⟩
    refine ⟨_, exec_pwrHoldAbort_of_refused hreq htrans hrefused, ?_, ?_, State.rd_raise_self _ _ _ (by decide) rfl, ?_⟩
    · rw [State.rd_raise_of_lo _ (by decide) (by decide), State.rd_lastRefuser_aborted]
    · rw [State.rd_raise_of_lo _ (by decide) (by decide), State.rd_pending_aborted]
    · rw [State.raise_pwr, State.find_req_aborted]
  case wake =>
    intro s d code hd hheld htrans hqueue
    rw [exec_domainWake_of_not_held hd hheld]
    refine ⟨fun h => ?_, fun h => congrArg _ (State.wake_of_unheeded htrans h)⟩
    have hstate : (s.recordWake d code).rd F.PWR_DOM_STATUS.STATE d ≠ 0 := by
      rw [State.rd_recordWake_of_lo _ _ _ (by decide) (by decide)]
      omega
    refine ⟨_, congrArg _ (State.wake_of_asleep htrans hqueue h), State.mem_queue_enqueue_one _ hstate code, ?_, ?_⟩
    · rw [State.rd_enqueue_one _ hstate code (by decide), State.rd_lastWake_recordWake]
    · rw [State.rd_enqueue_one _ hstate code (by decide), State.rd_wakes_recordWake]
  case start =>
    intro s d tg w hheld hd hqueue hrun
    refine ⟨_, exec_domainTransitionStart_of_one hheld hd hqueue hrun, rfl, rfl, ?_, State.rd_transitions_pwrStatus _, ?_⟩
    · rw [State.rd_pwrStatus_of_reg _ (by decide)]
      exact State.rd_wr_self ..
    · exact ((s.started_frame d tg w).mono (by simp) (by simp)).trans ((State.pwrStatus_frame _).mono (by simp) (by simp))
  case done =>
    intro s d tg w hd htg hrun hexits hreq
    have hexec : exec (.domainTransitionDone d) s = .next (s.transitionDone d) := rfl
    rw [hexec, State.transitionDone_of_one hrun hexits hreq]
    have hpwr := State.pwr_domArrive { s with pwr := { s.pwr with running := [] } } d tg
    refine ⟨_, rfl, ?_, ?_, ?_, congrArg PwrState.running hpwr, ?_⟩
    · rw [State.rd_pwrStatus_of_reg _ (by decide), State.rd_state_domArrive _ d htg]
    · rw [State.rd_pwrStatus_of_reg _ (by decide), State.rd_transition_domArrive]
    · rw [State.rd_pwrStatus_of_reg _ (by decide), State.rd_event_domArrive]
    · rw [State.rd_transitions_pwrStatus, hpwr]
      rfl

end Sys2Proof.Machine
end
